-- ==== Sys2Proof/Word.lean ====
section
/-!
DEFINITION. The machine's word types.  A register of the window is 32 bits wide and little-endian (R6); packets,
images, messages and memory are made of bytes.
-/
namespace Sys2Proof

/-- One byte of memory, of a packet or of a message. -/
abbrev Byte := BitVec 8

/-- One register of the window (R6). -/
abbrev Word := BitVec 32

/-- A run of bytes, lowest offset first. -/
abbrev Bytes := List Byte

end Sys2Proof
end

