-- ==== Sys2Proof/Machine/Basic.lean ====
section
/-!
DEFINITION. Bit fields, byte order and sparse tables: the helpers every other file uses.  Multi-byte fields are
little-endian unless a rule says otherwise (R6, R42).
-/
namespace Sys2Proof.Machine

/-- The `w` bits of `n` from bit `lo` up. -/
def bits (n lo w : Nat) : Nat := n / 2 ^ lo % 2 ^ w

/-- Bit `i` of `n`. -/
def bit (n i : Nat) : Bool := n / 2 ^ i % 2 == 1

/-- One bit as a number. -/
def b2n (b : Bool) : Nat := if b then 1 else 0

/-- Place `v`, cut to `w` bits, at bit `lo` of `n`. -/
def setBits (n lo w v : Nat) : Nat :=
  n - bits n lo w * 2 ^ lo + (v % 2 ^ w) * 2 ^ lo

/-- The numbers `0 … w-1` whose bit is set in `n`, ascending. -/
def bitList (w n : Nat) : List Nat := (List.range w).filter (bit n)

/-- How many of the low `w` bits of `n` are set. -/
def popcount : Nat → Nat → Nat
  | 0, _ => 0
  | w + 1, n => n % 2 + popcount w (n / 2)

/-- Least multiple of `m` that is at least `n` (`n` where `m` is 0). -/
def roundUp (n m : Nat) : Nat := if m = 0 then n else (n + m - 1) / m * m

/-- `⌈n / m⌉`. -/
def ceilDiv (n m : Nat) : Nat := (n + m - 1) / m

/-- `n` increased by `d`, holding at `top`. -/
def satAdd (n d top : Nat) : Nat := min (n + d) top

/-- Little-endian value of a byte list. -/
def leNat : Bytes → Nat
  | [] => 0
  | b :: bs => b.toNat + 256 * leNat bs

/-- Big-endian value of a byte list. -/
def beNat (bs : Bytes) : Nat := leNat bs.reverse

/-- `k` little-endian bytes of `v`. -/
def leBytes : Nat → Nat → Bytes
  | 0, _ => []
  | k + 1, v => BitVec.ofNat 8 v :: leBytes k (v / 256)

/-- `k` big-endian bytes of `v`. -/
def beBytes (k v : Nat) : Bytes := (leBytes k v).reverse

/-- The `k` bytes at offset `o` of `b`; missing bytes read 0. -/
def slice (b : Bytes) (o k : Nat) : Bytes :=
  let t := (b.drop o).take k
  t ++ List.replicate (k - t.length) 0

/-- The little-endian field of `k` bytes at offset `o`. -/
def fld (b : Bytes) (o k : Nat) : Nat := leNat (slice b o k)

/-- Whether the `k` bytes at `o` are all 0. -/
def zeroAt (b : Bytes) (o k : Nat) : Bool := (slice b o k).all (· == 0)

/-- The text's ASCII bytes. -/
def ascii (t : String) : Bytes := t.toList.map fun c => BitVec.ofNat 8 c.toNat

/-- `b` cut or filled with zeros to exactly `n` bytes. -/
def padTo (n : Nat) (b : Bytes) : Bytes := slice b 0 n

/-- `b` with `d` written over it from offset `o` (within its length). -/
def patch (b : Bytes) (o : Nat) (d : Bytes) : Bytes :=
  b.take o ++ (d.take (b.length - o)) ++ b.drop (o + d.length)

/-- The signed value of the low `w` bits of `n`. -/
def signed (n w : Nat) : Int :=
  if w = 0 then 0 else if bit n (w - 1) then (n % 2 ^ w : Int) - 2 ^ w else (n % 2 ^ w : Int)

/-- The `w`-bit two's-complement code of `i`. -/
def unsigned (i : Int) (w : Nat) : Nat := (i % (2 ^ w : Int)).toNat

/-- `i` held within `[lo, hi]`. -/
def clampInt (i lo hi : Int) : Int := max lo (min i hi)

/-- Cut a byte list into pieces of `k` bytes (the last may be short); `fuel` bounds the pieces. -/
def chunks (k : Nat) : Nat → Bytes → List Bytes
  | 0, _ => []
  | fuel + 1, b => if b.isEmpty then [] else b.take k :: chunks k fuel (b.drop k)

/-- Insert by ascending key, after equal keys. -/
def insertBy {α : Type} (key : α → Nat) (a : α) : List α → List α
  | [] => [a]
  | b :: l => if key a < key b then a :: b :: l else b :: insertBy key a l

/-- Sort by ascending key; equal keys keep their order. -/
def sortBy {α : Type} (key : α → Nat) : List α → List α := List.foldl (fun acc a => insertBy key a acc) []

/-! Sparse tables: association lists with strictly ascending keys. -/

/-- A sparse table: keys strictly ascending, one value for each listed key. -/
abbrev Tab (α : Type) := List (Nat × α)

/-- The value listed for a key. -/
def Tab.find? {α : Type} : Tab α → Nat → Option α
  | [], _ => none
  | (k, v) :: t, i => if k = i then some v else Tab.find? t i

/-- The value listed for a key, or `d`. -/
def Tab.getD {α : Type} (t : Tab α) (i : Nat) (d : α) : α := (Tab.find? t i).getD d

/-- Whether a key is listed. -/
def Tab.has {α : Type} (t : Tab α) (i : Nat) : Bool := (Tab.find? t i).isSome

/-- List `v` for key `i`, in place of any value it had. -/
def Tab.put {α : Type} : Tab α → Nat → α → Tab α
  | [], i, v => [(i, v)]
  | (k, w) :: t, i, v =>
    if i < k then (i, v) :: (k, w) :: t
    else if i = k then (i, v) :: t
    else (k, w) :: Tab.put t i v

/-- Remove key `i`. -/
def Tab.del {α : Type} (t : Tab α) (i : Nat) : Tab α := List.filter (fun p => p.1 != i) t

/-- Apply `f` to the value of key `i` where it is listed. -/
def Tab.upd {α : Type} (t : Tab α) (i : Nat) (f : α → α) : Tab α :=
  List.map (fun p => if p.1 = i then (p.1, f p.2) else p) t

/-- Apply `f` to every value, keys unchanged. -/
def Tab.mapVals {α : Type} (t : Tab α) (f : Nat → α → α) : Tab α := List.map (fun p => (p.1, f p.1 p.2)) t

/-- The keys whose entry satisfies `q`, ascending. -/
def Tab.keysWhere {α : Type} (t : Tab α) (q : Nat → α → Bool) : List Nat :=
  (List.filter (fun p => q p.1 p.2) t).map (·.1)

/-- The first listed value that satisfies `q`. -/
def Tab.findVal? {α : Type} (t : Tab α) (q : α → Bool) : Option (Nat × α) :=
  List.find? (fun p => q p.2) t

/-- The least key below `n` that is not listed. -/
def Tab.firstFree {α : Type} (t : Tab α) (n : Nat) : Option Nat :=
  (List.range n).find? fun i => !Tab.has t i

/-- Whether keys are strictly ascending. -/
def Tab.wf {α : Type} : Tab α → Bool
  | [] => true
  | [_] => true
  | (i, _) :: (j, w) :: t => decide (i < j) && Tab.wf ((j, w) :: t)

end Sys2Proof.Machine
end

