-- ==== Sys2Proof/Machine/Types/Packet.lean ====
section
/-!
DEFINITION. Knawen packets and link frames (R119–R123, R153), and who asks for a register (R536).
Marks: DESIGN CHOICE 10, in notes/assumptions.
-/
namespace Sys2Proof.Machine

/-- A packet: the header fields of R120, the payload and the trailer. -/
structure Packet where
  dst : Nat := 0
  src : Nat := 0
  opcode : Nat := 0
  flags : Nat := 0
  /-- LEN, 13 bits. -/
  len : Nat := 0
  /-- HOPS, 3 bits. -/
  hops : Nat := 0
  seq : Nat := 0
  region : Nat := 0
  key : Nat := 0
  /-- The 8 bytes of ADDR. -/
  addr : Nat := 0
  /-- The 3 bytes of FLOW. -/
  flow : Nat := 0
  status : Nat := 0
  arg : Nat := 0
  payload : Bytes := []
  trailer : Nat := 0
  deriving DecidableEq, Repr

/-- A link frame as the port's link layer hands it on (R153, R154): its packet number, whether FEC decoding and the GCM
tag check succeeded under the port's key, the codewords FEC corrected and the corrected symbols by lane. -/
structure Frame where
  pkn : Nat := 0
  fecOk : Bool := true
  tagOk : Bool := true
  fecCorr : Nat := 0
  laneSyms : List (Nat × Nat) := []
  pkt : Packet := {}
  deriving DecidableEq, Repr

/-- The four requesters of the register window, in the order of R536. -/
inductive Requester where
  | cp0 | cp1 | mgmt | debug
  deriving DecidableEq, Repr

/-- A tray-tier read that may time out (R99): of the request at the head of MH's queue, of a chunk, or of a move. -/
inductive TrayRead where
  | fabric
  | chunk (cid k : Nat)
  | move (ext : Nat)
  deriving DecidableEq, Repr

/-- Why a port's link goes down (R141): block lock lost for 250 µs, a retrain not complete in 250 µs, or power-down. -/
inductive DownCause where
  | lockLost
  | retrainFailed
  | poweredDown
  deriving DecidableEq, Repr

/-- How an access reaches the window: its requester, its size in bytes, and on the management link whether the IDE
stream is secure and the T bit is set (R6, R436). -/
structure Access where
  req : Requester := .mgmt
  size : Nat := 4
  ide : Bool := false
  tbit : Bool := false
  deriving DecidableEq, Repr

end Sys2Proof.Machine
end

