-- ==== Sys2Proof/Machine/Types/Att.lean ====
section
/-!
DEFINITION. Attention-assist and sequence-table state (chapters 07 and 08): arenas and their pages, STEP messages, sequence
entries, batch groups and opens.
-/
namespace Sys2Proof.Machine

/-- A registered arena (R227, R254). -/
structure Arena where
  fen : Nat := 0
  /-- KIND: 0 POOL, 1 PREFIX. -/
  kind : Nat := 0
  /-- Local address of the extent's first byte, and its entry. -/
  addr : Nat := 0
  ext : Nat := 0
  pages : Nat := 0
  /-- Pages zero-filled since REGISTER, in page order (R231). -/
  filled : Nat := 0
  /-- Pages held, with their holder: a sequence's key, or 2^40 plus the number of a leave that has not released them. -/
  held : Tab Nat := []
  /-- Released pages whose zero-fill has not ended. -/
  dirty : List Nat := []
  deriving DecidableEq, Repr

/-- A leave whose pages wait for the sequence's records in progress (R274). -/
structure Leaving where
  fen : Nat := 0
  idx : Nat := 0
  /-- Records of the sequence with lower command numbers than this began before the leave. -/
  before : Nat := 0
  deriving DecidableEq, Repr

/-- A STEP message (R240–R244). -/
structure StepMsg where
  src : Nat := 0
  seq : Nat := 0
  clid : Nat := 0
  fen : Nat := 0
  cls : Nat := 0
  group : Nat := 0
  layer : Nat := 0
  step : Nat := 0
  /-- The packet echoed in answers: packet 0 once it has arrived. -/
  first : Packet := {}
  parts : Tab Bytes := []
  /-- PKT of the LAST packet. -/
  last : Option Nat := none
  start : Nat := 0
  /-- Stream bytes of the records begun, and how many. -/
  off : Nat := 0
  recs : Nat := 0
  /-- Response records not sent yet, by record number. -/
  results : Tab Bytes := []
  /-- Records whose responses have joined `carry`. -/
  joined : Nat := 0
  carry : Bytes := []
  /-- Next packet number of the response. -/
  pkt : Nat := 0
  /-- No further record begins: the message ends with this status once those begun are answered (R263). -/
  ending : Option Nat := none
  deriving DecidableEq, Repr

/-- Chapter 07 state beside the ATT registers. -/
structure AttState where
  arenas : Tab Arena := []
  msgs : Tab StepMsg := []
  nextMsg : Nat := 0
  /-- Messages answered with a status packet other than RETRY, whose other packets are not answered again: (SRC, SEQ, HCLK
  time). -/
  gone : List (Nat × Nat × Nat) := []
  leaving : Tab Leaving := []
  nextLeave : Nat := 0
  deriving DecidableEq, Repr

/-- A sequence entry (R259).  A FREE entry is not listed. -/
structure SeqEnt where
  state : Nat := 0
  clid : Nat := 0
  group : Nat := 0
  asap : Bool := false
  inwl : Bool := false
  nores : Bool := false
  resume : Bool := false
  hasParent : Bool := false
  length : Nat := 0
  ownPages : Nat := 0
  pp : Nat := 0
  arena : Nat := 0
  p : Nat := 0
  joinStep : Nat := 0
  lastStep : Nat := 0
  layersDone : Nat := 0
  parent : Nat := 0
  served : Nat := 0
  noresSteps : Nat := 0
  joinTries : Nat := 0
  joinTime : Nat := 0
  /-- NORES_STEPS has counted the open step (R269). -/
  noresCounted : Bool := false
  deriving DecidableEq, Repr

/-- A batch group (R262, R280). -/
structure Group where
  cur : Nat := 0
  isOpen : Bool := false
  /-- Duration of the last open in HCLK, and the tabor time of its first cycle. -/
  dur : Nat := 0
  time : Nat := 0
  deriving DecidableEq, Repr

/-- Chapter 08 state beside the SQT registers. -/
structure SqtState where
  /-- Entries by fen × 2^18 + index. -/
  ents : Tab SeqEnt := []
  groups : Tab Group := []
  /-- Opens started and not performed, in order: group, step and the tabor time of the start (R264). -/
  opens : List (Nat × Nat × Nat) := []
  /-- Fen whose DROP_FEN still has page releases to queue (R281). -/
  dropping : Option Nat := none
  deriving DecidableEq, Repr

end Sys2Proof.Machine
end

