-- ==== Sys2Proof/Machine/Types/Car.lean ====
section
/-!
DEFINITION. Carillon's state (chapters 16 and 17): lockstep pairs, firmware slots, the mailbox, MCTP, sensors, the power loop,
semaphore waits, the debug port, clocks and resets.
Marks: DESIGN CHOICE 2, 10, in notes/assumptions.
-/
namespace Sys2Proof.Machine

/-- A firmware slot of the SPI NOR (R469): the release with which the part was delivered, or the pieces programmed since an
erase, by offset. -/
structure FwSlot where
  factory : Bool := true
  total : Nat := 0
  pieces : Tab Bytes := []
  deriving DecidableEq, Repr

/-- What the boot ROM learns of a slot that verifies (R471, R472): FW_VERSION, SVN, RAISE_SVN and the digests of SECPROC,
CARILLON and OPMC. -/
structure FwInfo where
  version : Nat := 0
  svn : Nat := 0
  raise : Bool := false
  digests : List Bytes := []
  deriving DecidableEq, Repr

/-- Firmware slots, the boot-select record and the update in progress (R469, R474, R475). -/
structure FwState where
  slotA : FwSlot := {}
  slotB : FwSlot := {}
  /-- The boot-select record: the active slot, TRIAL and TRIES. -/
  active : Nat := 0
  trial : Bool := false
  tries : Nat := 0
  /-- What runs now; none in recovery and while nothing has booted. -/
  running : Option FwInfo := none
  /-- HCLK time of the last boot, mismatch or watchdog bite (R475). -/
  calmSince : Nat := 0
  /-- The session that owns the update, and its role's number. -/
  owner : Option Nat := none
  ownerRole : Nat := 0
  /-- UPD_RESULT last answered. -/
  lastResult : Nat := 0
  /-- The slot that was active before ACTIVATE. -/
  before : Nat := 0
  /-- What the slot verified by VERIFY holds. -/
  staged : Option FwInfo := none
  deriving DecidableEq, Repr

/-- A request of the mailbox (channel 0) or of MCTP (channel 1) that is in progress (R476, R478). -/
structure MbxReq where
  cmd : Nat := 0
  tag : Nat := 0
  len : Nat := 0
  body : Bytes := []
  deriving DecidableEq, Repr

/-- A lockstep pair (R463–R466). -/
structure CarPair where
  /-- HCLK time of its last mismatch. -/
  mismatch : Option Nat := none
  /-- HCLK time at which its watchdog was last kicked. -/
  kicked : Nat := 0
  /-- CRC peripheral state (R470). -/
  crc : Nat := 0xFFFFFFFF
  /-- HCLK time of its last reset. -/
  resetAt : Nat := 0
  /-- HCLK time at which the debugger halted it (R495). -/
  haltedAt : Option Nat := none
  deriving DecidableEq, Repr

/-- A semaphore wait (R490): requester, semaphore, HCLK time of its start. -/
structure SemWait where
  req : Nat := 0
  sem : Nat := 0
  start : Nat := 0
  deriving DecidableEq, Repr

/-- A requester's own wait status (R490, R498). -/
structure WaitStat where
  pending : Bool := false
  status : Nat := 0
  sem : Nat := 0
  deriving DecidableEq, Repr

/-- A sensor's filter (R459): good readings so far, rejections or failures in a row. -/
structure Filter where
  seen : Bool := false
  bad : Nat := 0
  deriving DecidableEq, Repr

/-- A regulator as last read over PMBus (R480, R526): milliwatts, failures in a row, unreadable. -/
structure Regulator where
  mw : Nat := 0
  bad : Nat := 0
  unreadable : Bool := false
  deriving DecidableEq, Repr

/-- What one round of sampling sees: readings of the 96 thermal sensors in 1/16 °C and of the 48 voltage monitors in mV, and
the milliwatts of the 17 regulators, where each answers. -/
structure Samples where
  temps : List Int := []
  volts : List Nat := []
  power : List (Option Nat) := []
  deriving DecidableEq, Repr

/-- What a bring-up meets: the clusters that fail their test where map-outs are cleared (R449), the strap lands' eight samples, the reference inputs and the offset between them in 0.1 ppm, the TRNG's start-up
tests, and whether every die, stack and link comes ready (R459, R503, R514). -/
structure BringUp where
  failing : List Nat := []
  straps : List Nat := []
  ref0 : Bool := true
  ref1 : Bool := true
  ppm10 : Nat := 0
  trngOk : Bool := true
  ready : Bool := true
  deriving DecidableEq, Repr

/-- A tray found at enumeration (R76): its port, capacity in units, serial number, whether it is a supported device and whether
CXL IDE comes into force. -/
structure TrayFound where
  port : Nat := 0
  units : Nat := 0
  serial : Bytes := []
  supported : Bool := true
  ide : Bool := true
  deriving DecidableEq, Repr

/-- Chapters 16 and 17 state beside the CAR, DBG, CLK and PWR registers. -/
structure CarState where
  pair0 : CarPair := {}
  pair1 : CarPair := {}
  fw : FwState := {}
  /-- Requests in progress, in the order of their arrival: channel and request (R478). -/
  requests : List (Nat × MbxReq) := []
  /-- The MCTP endpoint ID (R479). -/
  eid : Nat := 0
  /-- Semaphore waits, oldest first. -/
  waits : List SemWait := []
  waitStat : Tab WaitStat := []
  /-- HCLK cycles that each owned semaphore has been held, and the HCLK time to which that is counted (R491). -/
  held : Tab (Nat × Nat) := []
  temps : Tab Filter := []
  volts : Tab Filter := []
  regs : Tab Regulator := []
  /-- Package power of the last milliseconds in watts, newest first (R483). -/
  powers : List Nat := []
  /-- Milliseconds in a row for which the average has stayed below 98 % of the cap, and since the last raise. -/
  lowFor : Nat := 0
  sinceRaise : Nat := 0
  /-- Milliseconds for which the loop has had every die at PS3 with the average above the cap, and since the last
  POWER_CAP_MISS record. -/
  missFor : Nat := 0
  sinceMiss : Nat := 1000
  /-- The cap loop's P-state of each compute die (R486). -/
  loopPs : Tab Nat := []
  /-- Regulator set-points of the compute dies by the loop (R481, R526): millivolts. -/
  vout : Tab Nat := []
  /-- The thermal stage of each compute die by its readings (R484). -/
  stages : Tab Nat := []
  /-- HCLK time since which the hottest reading of die k has stayed 3 °C below the entry of stage t, by 4k + t (R484). -/
  coolSince : Tab Nat := []
  /-- Refresh of each stack doubled (R484). -/
  doubled : List Nat := []
  /-- HCLK time of the thermal trip (R485). -/
  trippedAt : Option Nat := none
  /-- Every die is held in reset (R485). -/
  heldInReset : Bool := false
  /-- Boots since power-on: the boot count, and the first ESEQ of the records made under it (R477). -/
  bootStarts : List (Nat × Nat) := []
  /-- Boot count under which the flash log's records were made, by their order (R477). -/
  flashBoots : List Nat := []
  /-- Records that the flash log has erased (R487). -/
  flashErased : Nat := 0
  /-- The inspect view's offset, value and status (R494): 0 idle, 1 DONE, 2 ERR. -/
  ivAddr : Nat := 0
  ivData : Nat := 0
  ivStat : Nat := 0
  /-- The debug module's words, by address (R493). -/
  dm : Tab Nat := []
  /-- The boundary register as last captured or driven (R493). -/
  boundary : Bytes := []
  /-- Carillon's local memory that the debugger has written: shared SRAM by address (R468, R493). -/
  sram : List (Nat × Byte) := []
  /-- HCLK time of the loss of both reference inputs (R504). -/
  bothLostAt : Option Nat := none
  /-- Whether PWRGOOD is high. -/
  powered : Bool := true
  /-- A warm reset is in progress (R508). -/
  warm : Bool := false
  /-- HCLK time of the request of the last warm reset (R508). -/
  warmAt : Option Nat := none
  /-- A warm reset that waits for the application of a fen image to end, with its cause (R512). -/
  warmQueued : Option (Nat × BringUp) := none
  /-- Pending fen reset (R513). -/
  fenReset : Option Nat := none
  /-- Control writes of fens that wait for the fen reset to end (R513). -/
  afterFenReset : List Nat := []
  deriving DecidableEq, Repr

end Sys2Proof.Machine
end

