-- ==== Sys2Proof/Machine/Types/Ckp.lean ====
section
/-!
DEFINITION. Checkpoint state (chapter 10): the registered sets, and what a checkpoint command carries while it runs.
-/
namespace Sys2Proof.Machine

/-- A member of a checkpoint group (R317). -/
structure CkpMember where
  home : Nat := 0
  region : Nat := 0
  key : Nat := 0
  /-- Local address of the member's area. -/
  area : Nat := 0
  deriving DecidableEq, Repr

/-- A registered checkpoint set (R317), with the stream cursor of each slot (R327). -/
structure CkpSet where
  fen : Nat := 0
  parity : Bool := false
  self : Nat := 0
  members : Nat := 1
  slotUnits : Nat := 0
  mem : List CkpMember := []
  cursor0 : Nat := 0
  cursor1 : Nat := 0
  deriving DecidableEq, Repr

/-- What a checkpoint command carries across its chunks (R332–R336). -/
structure CkpWork where
  set : Nat := 0
  values : Nat := 0
  blocks : Nat := 0
  bytes : Nat := 0
  aux : Nat := 0
  firstBad : Option Nat := none
  /-- MEMBERS_BAD. -/
  bad : Nat := 0
  /-- HCLK time at which it began to poll, and of the last round. -/
  waitFrom : Option Nat := none
  lastPoll : Nat := 0
  /-- The polling is over. -/
  polled : Bool := false
  /-- K, UNITS of each member, and the member other than SELF that is lost. -/
  stripes : Nat := 0
  units : List Nat := []
  lost : Option Nat := none
  /-- Stream offset that DECODE or VERIFY has reached. -/
  pos : Nat := 0
  /-- The stream has ended before this chunk. -/
  ended : Bool := false
  /-- Status of the markers sent so far, and how many are out. -/
  marks : List Nat := []
  marking : Nat := 0
  deriving DecidableEq, Repr

/-- Chapter 10 state beside the CKP registers. -/
structure CkpState where
  sets : Tab CkpSet := []
  deriving DecidableEq, Repr

end Sys2Proof.Machine
end

