-- ==== Sys2Proof/Machine/Arith.lean ====
section
/-!
DEFINITION. Number formats and exact arithmetic: the element types, decoding, the accumulator with its state bits, rounding
once, MX blocks and XP64 partials (R132, R161–R163, R167–R175, R180, R181).
Marks: DEDUCED 24, 27, in notes/assumptions.
-/
namespace Sys2Proof.Machine

/-! Formats. -/

/-- A binary floating format: exponent bits, mantissa bits, bias. -/
structure Fmt where
  e : Nat
  m : Nat
  bias : Nat
  deriving DecidableEq, Repr

def fmtF32 : Fmt := ⟨8, 23, 127⟩
def fmtBF16 : Fmt := ⟨8, 7, 127⟩
def fmtF16 : Fmt := ⟨5, 10, 15⟩
def fmtE4M3 : Fmt := ⟨4, 3, 7⟩
def fmtE5M2 : Fmt := ⟨5, 2, 15⟩
def fmtE3M2 : Fmt := ⟨3, 2, 3⟩
def fmtE2M3 : Fmt := ⟨2, 3, 1⟩
def fmtE2M1 : Fmt := ⟨2, 1, 1⟩

/-- The bits of a format: sign, exponent, mantissa. -/
def Fmt.width (f : Fmt) : Nat := 1 + f.e + f.m

/-- Magnitude code of infinity in an IEEE-like format. -/
def Fmt.inf (f : Fmt) : Nat := (2 ^ f.e - 1) * 2 ^ f.m

/-- The finite value of a code: whether negative, and magnitude as (n, x) for n × 2^x. -/
def Fmt.finite (f : Fmt) (code : Nat) : Bool × Nat × Int :=
  let ex := bits code f.m f.e
  let man := code % 2 ^ f.m
  (bit code (f.e + f.m), if ex = 0 then man else man + 2 ^ f.m,
   (max ex 1 : Int) - f.bias - f.m)

/-- Element types (R161). -/
def tyFP32 : Nat := 0
def tyBF16 : Nat := 1
def tyFP16 : Nat := 2
def tyE4M3 : Nat := 3
def tyE5M2 : Nat := 4
def tyE3M2 : Nat := 5
def tyE2M3 : Nat := 6
def tyE2M1 : Nat := 7
def tyINT8 : Nat := 8
def tyINT32 : Nat := 9
def tyINT64 : Nat := 10

/-- Whether a type code is not reserved. -/
def tyValid (t : Nat) : Bool := decide (t ≤ 10)
/-- Whether a type is a float type. -/
def tyFloat (t : Nat) : Bool := decide (t ≤ 7)
/-- Whether a type is an MX type. -/
def tyMX (t : Nat) : Bool := decide (3 ≤ t) && decide (t ≤ 7)

/-- The format of a float type. -/
def tyFmt (t : Nat) : Fmt := [fmtF32, fmtBF16, fmtF16, fmtE4M3, fmtE5M2, fmtE3M2, fmtE2M3, fmtE2M1].getD t fmtF32

/-- Elements in a full chunk, and its payload in bytes (R161). -/
def tyE (t : Nat) : Nat := [1024, 2048, 2048, 3968, 3968, 5120, 5120, 7680, 4096, 1024, 512].getD t 1
def tyP (t : Nat) : Nat := if t = 5 ∨ t = 6 then 4032 else 4096

/-- Bytes of an element of a non-MX type. -/
def tySize (t : Nat) : Nat := [4, 2, 2, 1, 1, 1, 1, 1, 1, 4, 8].getD t 1

/-- Bytes of 32 elements of an MX block (R163). -/
def mxBlockBytes (t : Nat) : Nat := if t ≤ 4 then 32 else if t ≤ 6 then 24 else 16

/-- Bytes of an MX layout of `n` blocks (R163). -/
def mxBytes (t n : Nat) : Nat := roundUp n 64 + roundUp (n * mxBlockBytes t) 64

/-- The largest block count whose layout is exactly `len` bytes (R163). -/
def mxBlocks (t len : Nat) : Option Nat := ((List.range 241).filter fun n => 0 < n && mxBytes t n == len).getLast?

/-- Elements that a payload of `len` bytes carries (R163). -/
def tyCount (t len : Nat) : Option Nat :=
  if tyMX t then (mxBlocks t len).map (32 * ·) else if len % tySize t = 0 then some (len / tySize t) else none

/-! Values and accumulators. -/

/-- An input or result: a finite value in units of 2^-149, or a special one. -/
inductive Num where
  | fin (a : Int)
  | pinf
  | ninf
  | nan
  deriving DecidableEq, Repr

/-- An element's accumulator and state bits (R167, R169). -/
structure Accum where
  a : Int := 0
  nan : Bool := false
  pos : Bool := false
  neg : Bool := false
  nofin : Bool := true
  deriving DecidableEq, Repr

/-- `n × 2^x` in units of 2^-149, for x ≥ -149. -/
def scaled (neg : Bool) (n : Nat) (x : Int) : Int :=
  let v : Int := (n : Int) * 2 ^ (x + 149).toNat
  if neg then -v else v

/-- Decode a non-MX element (R168). -/
def decodeNum (t code : Nat) : Num :=
  if tyFloat t then
    let f := tyFmt t
    if bits code f.m f.e = 2 ^ f.e - 1 then
      if code % 2 ^ f.m ≠ 0 then .nan else if bit code (f.e + f.m) then .ninf else .pinf
    else
      let (neg, n, x) := f.finite code
      .fin (scaled neg n x)
  else .fin (signed code (8 * tySize t) * 2 ^ 149)

/-- Decode an MX element under its block scale: the value, and whether RANGE_IN is set (R168). -/
def decodeMX (t scale code : Nat) : Num × Bool :=
  let f := tyFmt t
  if scale = 0xFF then (.nan, false)
  else if t = tyE4M3 && code % 128 == 127 then (.nan, false)
  else if t = tyE5M2 && bits code 2 5 == 31 then
    (if code % 4 ≠ 0 then .nan else if bit code 7 then .ninf else .pinf, false)
  else
    let (neg, n, x) := f.finite code
    let v := scaled neg n (x + scale - 127)
    if 2 ^ 277 ≤ v.natAbs then (if neg then .ninf else .pinf, true) else (.fin v, false)

/-- Element `i` of an MX payload of `n` blocks. -/
def mxElem (t n : Nat) (b : Bytes) (i : Nat) : Num × Bool :=
  let j := i / 32
  let k := i % 32
  let w := mxBlockBytes t / 4
  let blk := fld b (roundUp n 64 + j * mxBlockBytes t) (mxBlockBytes t)
  decodeMX t (fld b j 1) (bits blk (k * w) w)

/-- The elements of a payload (R163, R168): values, and whether any set RANGE_IN. -/
def decodeElems (t c : Nat) (b : Bytes) : List Num × Bool :=
  if tyMX t then
    let l := (List.range c).map (mxElem t (c / 32) b)
    (l.map (·.1), l.any (·.2))
  else ((List.range c).map fun i => decodeNum t (fld b (i * tySize t) (tySize t)), false)

/-- Operations (R162). -/
def rSUM : Nat := 0
def rMIN : Nat := 1
def rMAX : Nat := 2

/-- Enter an input into an accumulator (R169). -/
def Accum.enter (op : Nat) (x : Accum) : Num → Accum
  | .nan => { x with nan := true }
  | .pinf => { x with pos := true }
  | .ninf => { x with neg := true }
  | .fin v =>
    if op = rSUM then { x with a := x.a + v, nofin := false }
    else if x.nofin || (if op = rMIN then decide (v < x.a) else decide (x.a < v)) then { x with a := v, nofin := false }
    else x

/-- Merge a partial's accumulator (R181). -/
def Accum.merge (op : Nat) (x y : Accum) : Accum :=
  let x := { x with nan := x.nan || y.nan, pos := x.pos || y.pos, neg := x.neg || y.neg }
  if y.nofin then x else x.enter op (.fin y.a)

/-- The result of an element (R169). -/
def Accum.result (op : Nat) (x : Accum) : Num :=
  if x.nan then .nan
  else if op = rSUM then
    if x.pos && x.neg then .nan else if x.pos then .pinf else if x.neg then .ninf else .fin x.a
  else if op = rMIN then
    if x.neg then .ninf else if x.pos && x.nofin then .pinf else .fin x.a
  else if x.pos then .pinf else if x.neg && x.nofin then .ninf else .fin x.a

/-! Rounding once (R170–R174). -/

/-- Number of bits of `n`. -/
def bitLen (n : Nat) : Nat := if n = 0 then 0 else Nat.log2 n + 1

/-- Round a quotient `n / d` given the rounding: nearest even, or stochastic with the 32-bit value `r` (R171). -/
def roundQuot (r : Option Nat) (n d : Nat) : Nat :=
  let lo := n / d
  let rem := n % d
  match r with
  | none => if d < 2 * rem || (2 * rem == d && lo % 2 == 1) then lo + 1 else lo
  | some r => if r < 2 ^ 32 * rem / d then lo + 1 else lo

/-- The magnitude code that `n × 2^x` rounds to, as though the exponent range were unbounded above (R170, R171). -/
def Fmt.roundMag (f : Fmt) (r : Option Nat) (n : Nat) (x : Int) : Nat :=
  if n = 0 then 0
  else
    let e := x + (bitLen n : Int) - 1
    let q := max e (1 - (f.bias : Int)) - f.m
    let k := if q ≤ x then n * 2 ^ (x - q).toNat else roundQuot r n (2 ^ (q - x).toNat)
    (q + f.m + f.bias).toNat * 2 ^ f.m + k - 2 ^ f.m

/-- The 32-bit value of an element position (R171). -/
def stochR (seed p : Nat) : Nat :=
  let m := 2 ^ 64
  let z := (seed + (p + 1) * 0x9E3779B97F4A7C15) % m
  let z := ((z ^^^ (z / 2 ^ 30)) * 0xBF58476D1CE4E5B9) % m
  let z := ((z ^^^ (z / 2 ^ 27)) * 0x94D049BB133111EB) % m
  let z := z ^^^ (z / 2 ^ 31)
  z / 2 ^ 32

/-- FLAGS bits (R175). -/
def flNAN : Nat := 1
def flINF : Nat := 2
def flOVERFLOW : Nat := 4
def flRANGE_IN : Nat := 8

/-- The NaN code of a non-MX float type (R172). -/
def nanCode (t : Nat) : Nat := if t = tyFP32 then 0x7FC00000 else if t = tyBF16 then 0x7FC0 else 0x7E00

/-- Encode a result in a non-MX type: the code and its flags (R172, R174). -/
def encodeNum (t : Nat) (r : Option Nat) (v : Num) : Nat × Nat :=
  if tyFloat t then
    let f := tyFmt t
    let sgn := 2 ^ (f.e + f.m)
    match v with
    | .nan => (nanCode t, flNAN)
    | .pinf => (f.inf, flINF)
    | .ninf => (sgn + f.inf, flINF)
    | .fin a =>
      let c := f.roundMag r a.natAbs (-149)
      let s := if a < 0 then sgn else 0
      if f.inf ≤ c then (s + f.inf, flINF + flOVERFLOW) else (s + c, 0)
  else
    let w := 8 * tySize t
    match v with
    | .fin a =>
      let i := a / 2 ^ 149
      let c := clampInt i (-(2 ^ (w - 1))) (2 ^ (w - 1) - 1)
      (unsigned c w, if c = i then 0 else flOVERFLOW)
    | _ => (0, 0)

/-- Largest exponent of an MX element type (R173). -/
def mxEmax (t : Nat) : Int := ([8, 15, 4, 2, 2] : List Int).getD (t - 3) 0
/-- Magnitude code of an MX element type's largest normal value. -/
def mxMaxCode (t : Nat) : Nat := [0x7E, 0x7B, 0x1F, 0x1F, 0x07].getD (t - 3) 0

/-- Encode one finite element of an MX block under scale 2^x (R173): saturates beyond the largest normal value. -/
def encodeMXElem (t : Nat) (r : Option Nat) (a : Int) (x : Int) : Nat :=
  let f := tyFmt t
  let (_, n, y) := f.finite (mxMaxCode t)
  let u : Int := -149 - x
  let low := min u y
  let beyond := decide (n * 2 ^ (y - low).toNat < a.natAbs * 2 ^ (u - low).toNat)
  (if a < 0 then 2 ^ (f.e + f.m) else 0) + (if beyond then mxMaxCode t else f.roundMag r a.natAbs u)

/-- Code of a special element of an MX FP8 block (R172). -/
def mxSpecial (t : Nat) (v : Num) : Nat :=
  if t = tyE4M3 then 0x7F
  else match v with
    | .nan => 0x7F
    | .ninf => 0xFC
    | _ => 0x7C

/-- Flags of a special result. -/
def numFlags : Num → Nat
  | .nan => flNAN
  | .pinf => flINF
  | .ninf => flINF
  | .fin _ => 0

/-- Encode an MX block (R172, R173): `vs` are its elements before N, `rs` the rounding of each; the scale byte, the 32
element codes and the flags. -/
def encodeMXBlock (t : Nat) (vs : List Num) (rs : Nat → Option Nat) : Nat × List Nat × Nat :=
  let mags := vs.map fun v => match v with | .fin a => a.natAbs | _ => 0
  let big := mags.foldl max 0
  let flags := vs.foldl (fun f v => f ||| numFlags v) 0
  let special := vs.any fun v => numFlags v != 0
  let ex : Int := (bitLen big : Int) - 1 - 149 - mxEmax t
  if special && decide (5 ≤ t) then (0xFF, List.replicate 32 0, flags)
  else if big != 0 && decide (127 < ex) then (0xFF, List.replicate 32 0, flags ||| flOVERFLOW)
  else
    let x : Int := if big = 0 then -127 else max ex (-127)
    let cs := vs.zipIdx.map fun (v, i) => match v with
      | .fin a => encodeMXElem t (rs i) a x
      | _ => mxSpecial t v
    ((x + 127).toNat, cs ++ List.replicate (32 - cs.length) 0, flags)

/-- Pack element codes of `w` bits into bytes, little-endian. -/
def packBits (w : Nat) (cs : List Nat) : Bytes :=
  leBytes (ceilDiv (w * cs.length) 8) ((cs.zipIdx.map fun (c, i) => c * 2 ^ (w * i)).sum)

/-- Encode a run of results as a payload of type `t` (R163, R170–R174): `p0` is the position of the first, `seed` the
stochastic key where the tree rounds so.  The payload is padded to a whole granule. -/
def encodeElems (t : Nat) (seed : Option Nat) (p0 : Nat) (vs : List Num) : Bytes × Nat :=
  let r := fun i => seed.map fun k => stochR k (p0 + i)
  if tyMX t then
    let n := ceilDiv vs.length 32
    let blks := (List.range n).map fun j => encodeMXBlock t ((vs.drop (32 * j)).take 32) fun i => r (32 * j + i)
    let scales := blks.map fun b => BitVec.ofNat 8 b.1
    let body := (blks.map fun b => packBits (mxBlockBytes t / 4) b.2.1).flatten
    (padTo (roundUp n 64) scales ++ padTo (roundUp (n * mxBlockBytes t) 64) body,
     blks.foldl (fun f b => f ||| b.2.2) 0)
  else
    let cs := vs.zipIdx.map fun (v, i) => encodeNum t (r i) v
    let body := (cs.map fun c => leBytes (tySize t) c.1).flatten
    (padTo (roundUp body.length 64) body, cs.foldl (fun f c => f ||| c.2) 0)

/-! XP64 (R180, R181). -/

/-- Trailing zero bits of `n`, up to `fuel`. -/
def trailZeros : Nat → Nat → Nat
  | 0, _ => 0
  | fuel + 1, n => if n % 2 = 1 then 0 else 1 + trailZeros fuel (n / 2)

/-- SHIFT of a block (R180). -/
def xpShift (xs : List Accum) : Nat :=
  ((xs.filter fun x => x.a != 0).map fun x => trailZeros 320 x.a.natAbs).min?.getD 0

/-- State bits of an element in SPECMAP. -/
def Accum.spec (x : Accum) : Nat := b2n x.nan + 2 * b2n x.pos + 4 * b2n x.neg + 8 * b2n x.nofin

/-- Whether a quotient needs escalation (R180). -/
def xpEsc (q : Int) : Bool := decide (q < -(2 ^ 63)) || decide (2 ^ 63 ≤ q)

/-- One XP64 block; `xs` has up to 32 elements, missing positions are 0. -/
def xpBlock (last : Bool) (xs : List Accum) : Bytes :=
  let xs := xs ++ List.replicate (32 - xs.length) { nofin := false }
  let sh := xpShift xs
  let qs := xs.map fun x => x.a / 2 ^ sh
  let esc := qs.any xpEsc
  let spec := xs.any fun x => x.spec != 0
  leBytes 2 (sh + 2 ^ 13 * b2n last + 2 ^ 14 * b2n spec + 2 ^ 15 * b2n esc) ++
  (qs.map fun q => leBytes 8 (unsigned q 64)).flatten ++
  (if esc then
     leBytes 4 ((qs.zipIdx.map fun (q, i) => if xpEsc q then 2 ^ i else 0).sum) ++
     ((qs.filter xpEsc).map fun q => leBytes 32 (unsigned q 320 / 2 ^ 64)).flatten
   else []) ++
  (if spec then leBytes 16 ((xs.zipIdx.map fun (x, i) => x.spec * 2 ^ (4 * i)).sum) else [])

/-- Cut blocks (with their first position) into packets of at most 4,096 bytes (R181): position and payload of each. -/
def xpPackets (blks : List (Nat × List Accum)) : List (Nat × Bytes) :=
  let close := fun (cur : List (Nat × List Accum)) =>
    match cur.head? with
    | none => []
    | some (p, _) =>
      let b := (cur.zipIdx.map fun (x, i) => xpBlock (i + 1 == cur.length) x.2).flatten
      [(p, padTo (roundUp b.length 64) b)]
  let (done, cur, _) := blks.foldl (fun (done, cur, n) blk =>
      let k := (xpBlock false blk.2).length
      if 4096 < n + k then (done ++ close cur, [blk], k) else (done, cur ++ [blk], n + k))
    (([], [], 0) : List (Nat × Bytes) × List (Nat × List Accum) × Nat)
  done ++ close cur

/-- Read one block: its 32 accumulators, whether it is the last, and its length. -/
def xpRead (b : Bytes) : List Accum × Bool × Nat :=
  let h := fld b 0 2
  let sh := h % 512
  let esc := bit h 15
  let escmap := if esc then fld b 258 4 else 0
  let nesc := if esc then popcount 32 escmap else 0
  let lim0 := 262
  let at_ := if esc then lim0 + 32 * nesc else 258
  let specmap := if bit h 14 then fld b at_ 16 else 0
  let xs := (List.range 32).map fun i =>
    let sig := fld b (2 + 8 * i) 8
    let q : Int := if bit escmap i then
        signed (sig + 2 ^ 64 * fld b (lim0 + 32 * popcount 32 (escmap % 2 ^ i)) 32) 320
      else signed sig 64
    let st := bits specmap (4 * i) 4
    ({ a := q * 2 ^ sh, nan := bit st 0, pos := bit st 1, neg := bit st 2, nofin := bit st 3 } : Accum)
  (xs, bit h 13, at_ + (if bit h 14 then 16 else 0))

/-- Read the blocks of a packet. -/
def xpReadAll : Nat → Bytes → List Accum
  | 0, _ => []
  | fuel + 1, b =>
    if b.isEmpty then []
    else
      let (xs, last, n) := xpRead b
      if last then xs else xs ++ xpReadAll fuel (b.drop n)

/-! binary32 for atomics (R132). -/

/-- Order key of a finite or infinite binary32, -0 below +0. -/
def f32Key (c : Nat) : Int := if bit c 31 then -((c % 2 ^ 31 : Nat) : Int) - 1 else (c % 2 ^ 31 : Nat)

/-- Whether a binary32 is a NaN. -/
def f32NaN (c : Nat) : Bool := bits c 23 8 == 255 && c % 2 ^ 23 != 0

/-- IEEE 754 addition, round to nearest even (R132). -/
def f32Add (x y : Nat) : Nat :=
  if f32NaN x || f32NaN y then 0x7FC00000
  else
    match decodeNum tyFP32 x, decodeNum tyFP32 y with
    | .fin a, .fin b =>
      if a + b = 0 then
        (if a = 0 ∧ b = 0 then (if bit x 31 && bit y 31 then 2 ^ 31 else 0) else 0)
      else (encodeNum tyFP32 none (.fin (a + b))).1
    | .pinf, .ninf => 0x7FC00000
    | .ninf, .pinf => 0x7FC00000
    | .pinf, _ => 0x7F800000
    | _, .pinf => 0x7F800000
    | .ninf, _ => 0xFF800000
    | _, _ => 0xFF800000

end Sys2Proof.Machine
end

