-- ==== Sys2Proof/Machine/Types/Cmd.lean ====
section
/-!
DEFINITION. Command-engine state (chapter 09): ring pairs, accepted commands, chunks and clusters.
-/
namespace Sys2Proof.Machine

/-- A ring pair (R282, R284). -/
structure Ring where
  sqBase : Nat := 0
  cqBase : Nat := 0
  sqLog2 : Nat := 4
  cqLog2 : Nat := 4
  state : Nat := 0
  err : Nat := 0
  sqTail : Nat := 0
  fetchHead : Nat := 0
  cqTail : Nat := 0
  cqHead : Nat := 0
  outstanding : Nat := 0
  fen : Nat := 0
  sqExt : Nat := 0
  cqExt : Nat := 0
  /-- Writes to the SQ's extent resolved before the last doorbell was recorded (R288). -/
  waits : List Nat := []
  deriving DecidableEq, Repr

/-- A resolved piece of an operand range (R111). -/
structure Seg where
  ref : Nat := 0
  tier : Nat := 0
  /-- Byte address in the tier's memory. -/
  at_ : Nat := 0
  len : Nat := 0
  ext : Nat := 0
  write : Bool := false
  deriving DecidableEq, Repr

/-- A staged write: it reaches memory only when its chunk commits (R302). -/
structure StagedWrite where
  tier : Nat := 0
  at_ : Nat := 0
  data : Bytes := []
  deriving DecidableEq, Repr

/-- Where a chunk is in its life (R301, R302). -/
inductive ChunkPhase where
  /-- Waiting to be dispatched. -/
  | waiting
  /-- Running on a cluster. -/
  | running
  /-- Work done and staged; waits for its turn to commit. -/
  | staged
  deriving DecidableEq, Repr

/-- A row of a stream (R202). -/
structure Row where
  id : Nat := 0
  data : Bytes := []
  deriving DecidableEq, Repr

/-- What a chunk of a CHAIN or GATHER_REQ has computed and not committed (R213). -/
structure ChainWork where
  /-- First input row, and how many. -/
  start : Nat := 0
  count : Nat := 0
  /-- Output streams of its stages, by stage. -/
  outs : Tab (List Row) := []
  /-- Indices, in those streams, of rows that are late. -/
  lates : Tab (List Nat) := []
  /-- Rows that enter the first blocking stage. -/
  fold : List Row := []
  nread : Nat := 0
  dropped : Nat := 0
  flags : Nat := 0
  deriving DecidableEq, Repr

/-- The saved state of a CHAIN or GATHER_REQ (R213, R214). -/
structure ChainState where
  rowsIn : Nat := 0
  rowsOut : Nat := 0
  rowsWritten : Nat := 0
  lateRows : Nat := 0
  firstBad : Option Nat := none
  dropped : Nat := 0
  flags : Nat := 0
  stage : Option Nat := none
  /-- Rows emitted so far, and bytes written, by stage. -/
  emitted : Tab Nat := []
  /-- TOPK: the best rows so far, as (order key, ROWID, output row). -/
  top : List (Int × Nat × Bytes) := []
  /-- REDUCE: the accumulators so far. -/
  red : List Accum := []
  /-- DISPATCH: the position of each entry. -/
  positions : List Nat := []
  /-- GATHER_REQ: output bytes not sent yet, the next data packet, and the late rows. -/
  carry : Bytes := []
  pkt : Nat := 0
  late : List Nat := []
  deriving DecidableEq, Repr

/-- A chunk of an accepted command that has not committed. -/
structure Chunk where
  phase : ChunkPhase := .waiting
  cluster : Nat := 0
  /-- Physical cluster it must avoid after a failed check (R217). -/
  avoid : Option Nat := none
  readyAt : Nat := 0
  dispatchedAt : Nat := 0
  /-- Effective-class raises (R301). -/
  raises : Nat := 0
  ageFrom : Nat := 0
  /-- Holds an extra working chunk (R294). -/
  extra : Bool := false
  /-- It was killed, or its check failed, so its next dispatch is a re-run. -/
  again : Bool := false
  /-- Times its check has failed. -/
  fails : Nat := 0
  /-- The physical cluster whose test run its re-run is, with the fault's cause: the fen has no other (R446). -/
  selfTest : Option (Nat × Nat) := none
  /-- Rows or blocks whose tray data passed its deadline (R98). -/
  late : List Nat := []
  /-- A tray read of the chunk timed out (R99). -/
  timedOut : Bool := false
  /-- HCLK time of its last progress (R446). -/
  progress : Nat := 0
  writes : List StagedWrite := []
  work : ChainWork := {}
  /-- R12 code the chunk ends with. -/
  status : Nat := 0
  flags : Nat := 0
  /-- Numbers that the opcode carries from its work to its commit. -/
  vals : List Nat := []
  /-- Blocks or units that the opcode carries from its work to its commit. -/
  blobs : List Bytes := []
  deriving DecidableEq, Repr

/-- Where an accepted command stands in R293. -/
inductive CmdPhase where
  /-- Waiting for host translations (step 3). -/
  | translating
  /-- Waiting for base staging (step 4). -/
  | staging
  | ready
  deriving DecidableEq, Repr

/-- An accepted command. -/
structure Cmd where
  /-- 0: from a ring; 1: a GATHER_REQ; 2: a STEP record. -/
  src : Nat := 0
  /-- The request packet of a GATHER_REQ. -/
  pkt : Packet := {}
  pair : Nat := 0
  /-- SQ index it was fetched from. -/
  slot : Nat := 0
  fen : Nat := 0
  clid : Nat := 0
  cls : Nat := 0
  opcode : Nat := 0
  ordered : Bool := false
  par : Nat := 0
  cmdId : Nat := 0
  desc : Bytes := []
  /-- Stage list of a CHAIN, copied at acceptance (R197). -/
  stages : Bytes := []
  phase : CmdPhase := .translating
  segs : List Seg := []
  acceptedAt : Nat := 0
  /-- HCLK time at which it became ready to run. -/
  readyAt : Nat := 0
  /-- Extents on which it holds a read, or a write, reference. -/
  rrefs : List Nat := []
  wrefs : List Nat := []
  /-- Base staging chunks (R294). -/
  base : Nat := 1
  nchunks : Nat := 1
  /-- The lowest chunk never dispatched. -/
  next : Nat := 0
  /-- Chunks committed. -/
  committed : Nat := 0
  chunks : Tab Chunk := []
  kills : Nat := 0
  /-- Pre-emption kills suffered, for the completion entry. -/
  killsAll : Nat := 0
  shieldAt : Option Nat := none
  shielded : Bool := false
  rerun : Bool := false
  /-- Status, result and flags so far. -/
  status : Nat := 0
  result : Nat := 0
  rflags : Nat := 0
  /-- Numbers the opcode carries across chunks. -/
  vals : List Nat := []
  /-- Commands with equal numbers run one at a time, in acceptance order (R326). -/
  serial : Option Nat := none
  /-- Where the work of each chunk belongs to a die (R251): chunk k to the k-th of these. -/
  dies : List Nat := []
  chain : ChainState := {}
  ckp : CkpWork := {}
  /-- Answers of other homes to its requests, by the command's own tag: status and data (R330). -/
  peers : Tab (Nat × Bytes) := []
  /-- HCLK time of the outcome of a REDUCE's instance, by chunk; 0 from its first contribution to its outcome (R311). -/
  times : Tab Nat := []
  deriving DecidableEq, Repr

/-- Chapter 09 state beside the CMD registers. -/
structure CmdState where
  rings : Tab Ring := []
  cmds : Tab Cmd := []
  nextCid : Nat := 0
  /-- Pair last served by fetch, by class (R292). -/
  lastServed : Tab Nat := []
  /-- Logical clusters that run a chunk: cluster → (cid, chunk). -/
  running : Tab (Nat × Nat) := []
  /-- Clusters freed by a pre-emption kill, with the kill's HCLK time (R305). -/
  killedAt : Tab Nat := []
  deriving DecidableEq, Repr

end Sys2Proof.Machine
end

