-- ==== Sys2Proof/Machine/Types/Coh.lean ====
section
/-!
DEFINITION. Coherent-domain state (chapter 13): the control SRAM's lines, the agents' copies, and transactions in progress.
-/
namespace Sys2Proof.Machine

/-- Snoop requests (R400). -/
inductive CohReq where
  | rdS | rdX | upg | rdNa | wrNa
  deriving DecidableEq, Repr

/-- A transaction of an agent on a line (R400–R405). -/
structure CohTxn where
  req : CohReq := .rdS
  /-- Byte mask and bytes of a WR_NA. -/
  mask : Nat := 0
  data : Bytes := []
  /-- HCLK time of its first issue. -/
  issued : Nat := 0
  /-- Its latest issue was answered RETRY by the owner. -/
  retried : Bool := false
  retries : Nat := 0
  /-- Its combined response has arrived. -/
  answered : Bool := false
  /-- Some agent kept or wrote back a copy: a response other than SNP_I. -/
  shared : Bool := false
  /-- The holder of M whose WB the home waits for. -/
  wbFrom : Option Nat := none
  /-- DATA has arrived, or for UPG and WR_NA the home has performed the request. -/
  value : Option Bytes := none
  deriving DecidableEq, Repr

/-- Chapter 13 state beside the COH and ARB registers. -/
structure CohState where
  /-- The control SRAM by byte address (R397). -/
  sram : List (Nat × Byte) := []
  /-- Copies that are not I, by line × 16 + ring position. -/
  copies : Tab Nat := []
  /-- Transactions by line × 16 + ring position. -/
  txns : Tab CohTxn := []
  /-- The request in progress at each line's owner, by line: its position (R404). -/
  busy : Tab Nat := []
  /-- Positions that hold a reserved credit for a line, in the order of their first RETRY (R405). -/
  credits : Tab (List Nat) := []
  /-- The value last returned to each position by RD_NA. -/
  reads : Tab Bytes := []
  deriving DecidableEq, Repr

end Sys2Proof.Machine
end

