-- ==== Sys2Proof/Machine/Types/Fabric.lean ====
section
/-!
DEFINITION. Fabric state (chapter 04): what each port keeps of its link, fence tracking, the engines' outstanding
requests, injection rates, atomic histories and line stores.
-/
namespace Sys2Proof.Machine

/-- A packet inside the switch: where it came from (R344 connection), when it was received whole (HCLK), its source
client where it has one, and the cells still to cross. -/
structure QPkt where
  pkt : Packet := {}
  conn : Nat := 0
  rx : Nat := 0
  clid : Option Nat := none
  /-- Cells that have crossed the crossbar. -/
  sent : Nat := 0
  /-- Bytes held in the ingress buffer of the port die (cells), 0 for internal senders. -/
  held : Nat := 0
  /-- XCLK count at which it became a VOQ head with credit. -/
  headAt : Option Nat := none
  /-- The packet is the sample of its ingress port (R359). -/
  sampled : Bool := false
  deriving DecidableEq, Repr

/-- What a port keeps beside its registers (R141, R154–R157). -/
structure PortState where
  powered : Bool := false
  /-- Last packet number accepted. -/
  lastRx : Option Nat := none
  /-- Next packet number sent. -/
  nextTx : Nat := 0
  /-- First packet numbers under the next key, while a key switch is under way (R156). -/
  rxSwitch : Option Nat := none
  txSwitch : Option Nat := none
  /-- The partner has acknowledged the switch of the sending direction (R156). -/
  txAcked : Bool := false
  /-- SPDM messages of the link session received (R155, R157). -/
  spdm : Nat := 0
  beatsSent : Nat := 0
  /-- HCLK time at which the last BEAT arrived. -/
  lastBeat : Nat := 0
  beatSeen : Bool := false
  /-- Whether the link came down (cause 1) or beats were missed (cause 0). -/
  deadCause : Nat := 0
  /-- LINK and TIME packets received and not yet consumed, with the tabor time of their arrival. -/
  ctl : List (Nat × Packet) := []
  /-- Packets whose last cell has arrived at the port die and that wait to enter their egress queue. -/
  arriving : List QPkt := []
  /-- Packets since the last capture sample (R359). -/
  sampled : Nat := 0
  deriving DecidableEq, Repr

/-- A request that fence tracking keeps for an attached client (R150): a fenced request that is outstanding, or a
request that is held (or both). -/
structure FenceEnt where
  src : Nat := 0
  seq : Nat := 0
  cls : Nat := 0
  /-- HCLK time of the first copy. -/
  first : Nat := 0
  /-- It counts as an outstanding fenced request. -/
  tracked : Bool := false
  /-- Its FENCE flag. -/
  fence : Bool := false
  held : Option QPkt := none
  deriving DecidableEq, Repr

/-- Fence tracking of one attached client, in arrival order (R150). -/
abbrev FenceTrack := List FenceEnt

/-- A request of the switch's own engines to another home (R140). -/
structure EngReq where
  /-- The accepted command it belongs to, with a tag of that command's own. -/
  cid : Nat := 0
  tag : Nat := 0
  home : Nat := 0
  pkt : Packet := {}
  copies : Nat := 1
  sentAt : Nat := 0
  /-- HCLK time at which the next copy is due. -/
  due : Nat := 0
  deriving DecidableEq, Repr

/-- An engine's injection rate toward one home (R147), MB/s. -/
structure CcRate where
  r : Nat := 0
  decreased : Bool := false
  congested : Bool := false
  deriving DecidableEq, Repr

/-- An atomic history entry (R133). -/
structure HistEnt where
  src : Nat := 0
  seq : Nat := 0
  addr : Nat := 0
  status : Nat := 0
  arg : Nat := 0
  old : Nat := 0
  /-- Tabor time of execution, in ns. -/
  time : Nat := 0
  /-- HCLK time of execution. -/
  born : Nat := 0
  ext : Nat := 0
  deriving DecidableEq, Repr

/-- A line of an atomic unit's line store (R28): granule, and whether its write-back is outstanding. -/
structure Line where
  key : Nat := 0
  tray : Bool := false
  dirty : Bool := false
  deriving DecidableEq, Repr

/-- Chapter 04 state beside the FAB registers. -/
structure FabState where
  ports : Tab PortState := []
  /-- MH's queue of requests for this home (HE0). -/
  he0 : List QPkt := []
  /-- Reduction packets handed to an engine (R350). -/
  redq : List (Nat × QPkt) := []
  /-- Responses for this switch's own endpoint (R350). -/
  rsp : List QPkt := []
  fences : Tab FenceTrack := []
  /-- Outstanding engine requests by SEQ. -/
  eng : Tab EngReq := []
  nextSeq : Nat := 0
  cc : Tab CcRate := []
  /-- Histories of the atomic units CD0–CD7. -/
  hist : Tab (List HistEnt) := []
  /-- Line stores of the atomic units, most recently used first. -/
  lines : Tab (List Line) := []
  deriving DecidableEq, Repr

end Sys2Proof.Machine
end

