-- ==== Sys2Proof/Machine/Types/Faults.lean ====
section
/-!
DEFINITION. Fault-handling state (chapter 15): event records, part scores, cluster tests and map-outs.
Marks: DESIGN CHOICE 10, in notes/assumptions.
-/
namespace Sys2Proof.Machine

/-- An event record (R453). -/
structure Event where
  timeNs : Nat := 0
  eseq : Nat := 0
  code : Nat := 0
  severity : Nat := 0
  health : Bool := true
  isRepeat : Bool := false
  die : Nat := 0xFF
  cls : Nat := 0
  inst : Nat := 0xFFFF
  count : Nat := 1
  params : List Nat := []
  deriving DecidableEq, Repr

/-- A run of coalesced records (R456): the record that opened it, and the repeats counted since. -/
structure CoalesceRun where
  first : Event := {}
  /-- HCLK time of the opening record. -/
  start : Nat := 0
  repeats : Nat := 0
  last : List Nat := []
  deriving DecidableEq, Repr

/-- A part's score (R450, R451). -/
structure Score where
  /-- [31:8] points, [7:0] fraction. -/
  s : Nat := 0
  events : Nat := 0
  suspect : Bool := false
  /-- Prescale remainders of the part's "per n" events, by event row. -/
  rems : Tab Nat := []
  deriving DecidableEq, Repr

/-- A physical cluster under test (R446): the fault's cause (0 check, 1 SRAM, 2 watchdog), the chunk that is run again,
and the time the test began. -/
structure ClusterTest where
  cause : Nat := 0
  cid : Nat := 0
  chunk : Nat := 0
  start : Nat := 0
  deriving DecidableEq, Repr

/-- An SRAM macro that a sentinel check covers (R443): a route or match entry of a bank, an entry of a port die's copy of the
tree table, an accumulation SRAM with the instance it holds, a cluster's buffers, or a table of a hub unit (R450). -/
inductive SramSite where
  | route (bank entry : Nat)
  | mtch (bank entry : Nat)
  | tree (die entry : Nat)
  | accum (engine tree tag : Nat)
  | cluster (phys : Nat)
  | other (unit entry : Nat)
  deriving DecidableEq, Repr

/-- What a check of protected words finds: nothing, words or symbols that it corrects, or a word that it cannot correct. -/
inductive CheckResult where
  | good
  | corrected (n : Nat)
  | uncorrectable
  deriving DecidableEq, Repr

/-- What the owner of an arbiter's grant was doing when its watchdog bit (R413). -/
inductive BiteVictim where
  | chunk (cid k : Nat)
  /-- The fabric request at the head of MH's queue. -/
  | request
  /-- An operation of the indirect set whose STATUS and DONE lie at an offset. -/
  | regOp (statusOff : Nat)
  /-- An access of a Carillon pair. -/
  | carillon (pair : Nat)
  deriving DecidableEq, Repr

/-- Chapter 15 state beside the FLT registers. -/
structure FltState where
  /-- The internal log, oldest first (16,384 records at most). -/
  log : List Event := []
  nextEseq : Nat := 0
  /-- The flash log (R487). -/
  flashLog : List Event := []
  /-- ESEQ from which records are not yet persisted. -/
  persisted : Nat := 0
  runs : List CoalesceRun := []
  /-- Records skipped since the host queue last took one (R458). -/
  skipped : Nat := 0
  /-- HCLK time of the first unsignalled INFO or WARN record (R457). -/
  unsignalled : Option Nat := none
  /-- Scores by class × 256 + instance. -/
  scores : Tab Score := []
  /-- Class configuration in force, (threshold, decay shift) by class; a class not listed has its reset values (R462). -/
  inForce : Tab (Nat × Nat) := []
  /-- HCLK time of the latched device-fatal cause (R445). -/
  fatalAt : Nat := 0
  /-- Scores as last written to the SPI NOR (R452). -/
  flashScores : Tab Score := []
  /-- Tests running on withdrawn physical clusters (R446). -/
  tests : Tab ClusterTest := []
  /-- Spare self-tests running: die → logical cluster to be replaced (R447). -/
  spareBist : Tab Nat := []
  /-- Spare in use: die → logical cluster it has taken (R39). -/
  spareFor : Tab Nat := []
  /-- Stack granules whose stored code is uncorrectable, by near-tier key of the granule (R444). -/
  badGranules : List Nat := []
  /-- Granules stored with a poison code word (R444). -/
  poisoned : List Nat := []
  /-- Uncorrectable route (0) or match (1) entries: bank × 2^16 + table × 2^12 + entry (R444). -/
  badEntries : List Nat := []
  /-- Access faults of Carillon pairs that firmware has not answered yet (R413, R467). -/
  accessFaults : List Nat := []
  /-- Whether the PCIe management link is up (R458). -/
  mgmtUp : Bool := false
  deriving DecidableEq, Repr

end Sys2Proof.Machine
end

