-- ==== Sys2Proof/Machine/Types/Image.lean ====
section
/-!
DEFINITION. The records of a structure image (chapter 02, R42–R54) and the state of image loading (R58, R427).
Masks stay bit masks (as numbers below 2^32, 2^64 or 2^128); ids, sizes and times are numbers.
-/
namespace Sys2Proof.Machine

/-- A PORTS record (R46). -/
structure PortRec where
  role : Nat := 0
  laneMode : Nat := 0
  gateMode : Nat := 0
  peerHome : Nat := 0
  overhead : Nat := 0
  fallback : Nat := 0
  guardNs : Nat := 100
  deriving DecidableEq, Repr

/-- A FENS record (R47). -/
structure FenRec where
  fen : Nat := 0
  valid : Bool := false
  clusters : Nat := 0
  chgroups : Nat := 0
  ports : Nat := 0
  rtClusters : Nat := 0
  deriving DecidableEq, Repr

/-- A ROUTES record (R48). -/
inductive RouteRec where
  | route (isLocal : Bool) (home portset : Nat)
  | mtch (priority index dst dstMask opcode opcMask action portset : Nat)
  | seed (value : Nat)
  deriving DecidableEq, Repr

/-- A TREES record (R49). -/
structure TreeRec where
  tree : Nat := 0
  fen : Nat := 0
  valid : Bool := false
  exact : Bool := false
  root : Bool := false
  stoch : Bool := false
  homeEngine : Nat := 0
  level : Nat := 0
  parentHome : Nat := 0
  memberPorts : Nat := 0
  childPorts : Nat := 0
  expected : Nat := 1
  deadlineUs : Nat := 1
  seed : Nat := 0
  deriving DecidableEq, Repr

/-- A POLICE record (R50); `rates` and `bursts` hold class 0 to 3. -/
structure PoliceRec where
  clid : Nat := 0
  endpoint : Nat := 0
  port : Nat := 0
  fen : Nat := 0xFF
  valid : Bool := false
  rates : List Nat := []
  bursts : List Nat := []
  deriving DecidableEq, Repr

/-- A SHAPE record (R51). -/
structure ShapeRec where
  port : Nat := 0
  queue : Nat := 0
  valid : Bool := false
  rate : Nat := 1
  burst : Nat := 0
  deriving DecidableEq, Repr

/-- A GATES record (R52): a list header, or one entry. -/
inductive GateRec where
  | header (port start : Nat)
  | entry (port index mask durationNs : Nat)
  deriving DecidableEq, Repr

/-- A LIMITS record of one fen (R53). -/
structure LimitsRec where
  fen : Nat := 0
  valid : Bool := false
  seqEntries : Nat := 0
  nearBytes : Nat := 0
  trayBytes : Nat := 0
  capringBytes : Nat := 0
  redBytes : Nat := 0
  stagingBytes : Nat := 0
  regions : Nat := 0
  extents : Nat := 0
  deriving DecidableEq, Repr

/-- The device record of LIMITS (R54). -/
structure DeviceRec where
  timeoutNs : Nat := 50000
  retries : Nat := 2
  killLimit : Nat := 4
  shieldMaxUs : Nat := 20
  leaseMinS : Nat := 1
  leaseMaxS : Nat := 60
  deriving DecidableEq, Repr

/-- A validated image: header fields and decoded records.  `hasX` says which sections it carries. -/
structure Image where
  kind : Nat := 1
  fen : Nat := 0
  serial : Nat := 0
  baseSerial : Nat := 0
  sections : List Nat := []
  ports : List PortRec := []
  fens : List FenRec := []
  routes : List RouteRec := []
  trees : List TreeRec := []
  police : List PoliceRec := []
  shapes : List ShapeRec := []
  gates : List GateRec := []
  limits : List LimitsRec := []
  device : DeviceRec := {}
  raw : Bytes := []
  deriving DecidableEq, Repr

/-- An image being received in pieces (R427) or validated (R55). -/
structure ImageLoad where
  session : Nat := 0
  /-- SEQ of the piece that started validation: the response is sent when the outcome is known. -/
  seq : Nat := 0
  total : Nat := 0
  got : Bytes := []
  deriving DecidableEq, Repr

/-- Chapter 02 state: images held, and the fens' closing report (R37, R59, R67). -/
structure ImageState where
  running : Option Image := none
  staged : Option Image := none
  receiving : Option ImageLoad := none
  validating : Option ImageLoad := none
  /-- An accepted fen image not yet applied (R60). -/
  applying : Option Image := none
  /-- Session and SEQ that asked for the image being applied. -/
  loadSession : Nat := 0
  loadSeq : Nat := 0
  /-- The closing usage report of R67. -/
  closing : Option Bytes := none
  /-- Usage reports made since power-on (R66 SERIAL). -/
  reports : Nat := 0
  /-- Fens that a RESUME reached while APPLYING was 1 (R62). -/
  resumeAfterApply : List Nat := []
  deriving DecidableEq, Repr

/-- The meters of one fen (R65), each as counted units × 2^-32 ns, and payload bytes. -/
structure Meter where
  clus : Nat := 0
  chg : Nat := 0
  port : Nat := 0
  bytes : Nat := 0
  deriving DecidableEq, Repr

end Sys2Proof.Machine
end

