-- ==== Sys2Proof/Machine/Types/Pool.lean ====
section
/-!
DEFINITION. Pool state (chapter 03): extents, regions, leases, zero-fills, moves, writes in flight, host translations and
trays.
-/
namespace Sys2Proof.Machine

/-- An extent entry (R79), in units of 64 KiB; an entry never used is all 0. -/
structure Extent where
  start : Nat := 0
  state : Nat := 0
  length : Nat := 0
  tier : Nat := 0
  /-- The 40-bit location field (R75). -/
  loc : Nat := 0
  fen : Nat := 0
  scrub : Bool := false
  pfx : Bool := false
  holder : Nat := 0
  heat : Nat := 0
  pin : Bool := false
  /-- PRIOR: 1 LEASED. -/
  prior : Bool := false
  region : Nat := 0
  refs : Nat := 0
  rrefs : Nat := 0
  wrefs : Nat := 0
  link : Nat := 0
  linkV : Bool := false
  destTier : Nat := 0
  dest : Nat := 0
  /-- Its bytes are charged to CAPRING_BYTES (R361); no word of the entry shows it. -/
  capring : Bool := false
  deriving DecidableEq, Repr

/-- A grant slot of a region (R82). -/
structure Grant where
  id : Nat := 0
  isGroup : Bool := false
  rights : Nat := 0
  valid : Bool := false
  deriving DecidableEq, Repr

/-- A region entry (R82). -/
structure Region where
  base : Nat := 0
  valid : Bool := false
  fenced : Bool := false
  size : Nat := 0
  key : Nat := 0
  fen : Nat := 0
  dflt : Nat := 0
  grants : List Grant := []
  /-- A DELETE is still killing or zero-filling (R118). -/
  deleting : Bool := false
  deriving DecidableEq, Repr

/-- A client's lease (R100–R102). -/
structure Lease where
  periodS : Nat := 60
  epoch : Nat := 0
  /-- Tabor time of expiry, ns, as reported (R101). -/
  expiry : Nat := 0
  /-- HCLK time of expiry, while the clock runs. -/
  deadline : Nat := 0
  running : Bool := false
  /-- Remaining HCLK cycles while the fen is quiesced. -/
  stopped : Option Nat := none
  deriving DecidableEq, Repr

/-- A freed location awaiting zero-fill (R92): tier, location field, units, the fen charged, and the entry that stays
unusable until the fill ends. -/
structure Scrub where
  tier : Nat := 0
  loc : Nat := 0
  units : Nat := 0
  fen : Nat := 0
  ext : Option Nat := none
  /-- The space is charged to CAPRING_BYTES. -/
  capring : Bool := false
  /-- The region being deleted that waits for this fill. -/
  region : Option Nat := none
  deriving DecidableEq, Repr

/-- A move in progress (R93). -/
structure Move where
  /-- The MIGRATE or EVICT command, or none for READ_SOON. -/
  cid : Option Nat := none
  srcTier : Nat := 0
  srcLoc : Nat := 0
  destTier : Nat := 0
  dest : Nat := 0
  units : Nat := 0
  copied : Nat := 0
  /-- Ids of writes resolved before the move began (R26). -/
  waits : List Nat := []
  /-- HCLK time at which the copy ended. -/
  copyEnd : Option Nat := none
  cls : Nat := 3
  /-- HCLK time at which the extent entered MOVING. -/
  began : Nat := 0
  deriving DecidableEq, Repr

/-- A write resolved and not yet performed (R24, R149). -/
structure InWrite where
  pkt : Packet := {}
  ext : Nat := 0
  tier : Nat := 0
  /-- Byte address in the tier's memory of the first granule. -/
  at_ : Nat := 0
  inPort : Nat := 0
  /-- Ingress cells that its payload holds. -/
  held : Nat := 0
  fenced : Bool := false
  deriving DecidableEq, Repr

/-- A host translation request (R112, R113). -/
structure Xlate where
  cid : Nat := 0
  ref : Nat := 0
  handle : Nat := 0
  offset : Nat := 0
  length : Nat := 0
  write : Bool := false
  ext : Nat := 0
  posted : Bool := false
  deriving DecidableEq, Repr

/-- A tray port (R76–R78, R433, R437). -/
structure Tray where
  enumerated : Bool := false
  up : Bool := false
  units : Nat := 0
  serial : Bytes := []
  deriving DecidableEq, Repr

/-- Chapter 03 state beside the POOL registers. -/
structure PoolState where
  extents : Tab Extent := []
  regions : Tab Region := []
  /-- GROUP_A and GROUP_B by CLID; 0xFF is no group (R82, R118). -/
  groups : Tab (Nat × Nat) := []
  leases : Tab Lease := []
  scrubs : Tab Scrub := []
  nextScrub : Nat := 0
  /-- Moves by extent index. -/
  moves : Tab Move := []
  /-- Writes in flight by resolution number. -/
  writes : Tab InWrite := []
  nextWrite : Nat := 0
  xlates : Tab Xlate := []
  nextTag : Nat := 0
  trays : Tab Tray := []
  deriving DecidableEq, Repr

end Sys2Proof.Machine
end

