-- ==== Sys2Proof/Machine/Types/Red.lean ====
section
/-!
DEFINITION. Reduction state (chapter 05): instances with their chunks, and each engine's pending packets.
-/
namespace Sys2Proof.Machine

/-- A sender counted, or being counted, for a chunk (R166, R184). -/
structure RedSender where
  src : Nat := 0
  /-- Port on which it arrived. -/
  port : Nat := 0
  seq : Nat := 0
  /-- Position of its first packet for the chunk. -/
  pos : Nat := 0
  want : Bool := false
  /-- A contribution of it arrived with CE set (R146). -/
  ce : Bool := false
  child : Bool := false
  flow : Nat := 0
  ect : Bool := false
  /-- The REDUCE command and chunk that it comes from (R311). -/
  cmd : Option (Nat × Nat) := none
  deriving DecidableEq, Repr

/-- A result packet kept for the chunk (R183, R190). -/
structure RedResult where
  pos : Nat := 0
  payload : Bytes := []
  flags : Nat := 0
  deriving DecidableEq, Repr

/-- A chunk of an instance. -/
structure RedChunk where
  accs : List Accum := []
  counted : List RedSender := []
  /-- Partials whose packets have not all arrived, with the position and element count of each received. -/
  parts : List (RedSender × List (Nat × Nat)) := []
  /-- Engines charged for it (R177). -/
  engines : List Nat := []
  rangeIn : Bool := false
  complete : Bool := false
  results : List RedResult := []
  deriving DecidableEq, Repr

/-- A reduction instance, with what it latched (R164). -/
structure RedInst where
  tree : Nat := 0
  tag : Nat := 0
  typ : Nat := 0
  otype : Nat := 0
  op : Nat := 0
  cls : Nat := 0
  fen : Nat := 0
  exact : Bool := false
  root : Bool := false
  /-- SEED where the tree rounds stochastically. -/
  seed : Option Nat := none
  deadlineUs : Nat := 1
  expected : Nat := 1
  memberPorts : Nat := 0
  childPorts : Nat := 0
  parentHome : Nat := 0
  homeEngine : Nat := 0
  openedAt : Nat := 0
  n : Option Nat := none
  lastPos : Option Nat := none
  chunks : Tab RedChunk := []
  committed : Bool := false
  /-- The outcome's status and its HCLK time. -/
  outcome : Option (Nat × Nat) := none
  flags : Nat := 0
  deriving DecidableEq, Repr

/-- A packet that waits for its engine slots (R176). -/
structure RedPend where
  pkt : Packet := {}
  port : Nat := 0
  cmd : Option (Nat × Nat) := none
  deriving DecidableEq, Repr

/-- Chapter 05 state beside the RED registers. -/
structure RedState where
  /-- Instances by tree × 256 + tag. -/
  insts : Tab RedInst := []
  /-- Pending packets by port, oldest first. -/
  pend : Tab (List RedPend) := []
  /-- The packet whose first slot is staged, by port. -/
  half : Tab RedPend := []
  /-- Next port of each engine's rotation. -/
  rot : Tab Nat := []
  /-- Most recently opened TAG by tree (R194). -/
  lastTag : Tab Nat := []
  deriving DecidableEq, Repr

end Sys2Proof.Machine
end

