-- ==== Sys2Proof/Machine/Types/Sec.lean ====
section
/-!
DEFINITION. Security state (chapter 14): operator and custodian records, SPDM sessions, the scrub, memory keys, IDE streams
and measurements.
Marks: DESIGN CHOICE 2, 10, in notes/assumptions.
-/
namespace Sys2Proof.Machine

/-- A custodian record (R425); public keys are 97-byte P-384 points. -/
structure CustRecord where
  custId : Bytes := []
  reqRoots : List Bytes := []
  /-- IMG_KEY slots 0–3; a slot not listed is empty. -/
  imgKeys : Tab Bytes := []
  epRoots : List Bytes := []
  epAllow : List Bytes := []
  policy : Nat := 0
  deriving DecidableEq, Repr

/-- What an SPDM session may do (R426): none before FINISH, or after one without mutual authentication. -/
inductive Role where
  | none | custodian | operator | provisioner
  deriving DecidableEq, Repr

/-- An SPDM session. -/
structure Session where
  finished : Bool := false
  role : Role := .none
  /-- Root key of the chain that the requester presented in FINISH. -/
  root : Bytes := []
  /-- HCLK time of its last message. -/
  lastBeat : Nat := 0
  deriving DecidableEq, Repr

/-- A custodian scrub in progress (R432, R438): the session and SEQ that asked for it, the request's CODE, and the record
to be installed. -/
structure ScrubRun where
  session : Nat := 0
  seq : Nat := 0
  code : Nat := 0
  carried : Option CustRecord := none
  start : Nat := 0
  /-- The session whose image load the scrub abandoned (R428). -/
  abandoned : Option Nat := none
  /-- The closing usage report of the response (R432). -/
  report : Bytes := []
  deriving DecidableEq, Repr

/-- An IDE stream (R435): stream 0 is the link stream, 1 and 2 are selective. -/
structure IdeStream where
  secure : Bool := false
  /-- HCLK time at which its keys were last programmed. -/
  keyedAt : Nat := 0
  deriving DecidableEq, Repr

/-- A peer's answer to the authentication of R155 and R434: its certificate chain, whether its signed messages verified, the
digest over its MEASUREMENTS response, and the value of its measurement index 10. -/
structure PeerAuth where
  chain : Bytes := []
  authentic : Bool := true
  digest : Bytes := []
  index10 : Bytes := []
  deriving DecidableEq, Repr

/-- Chapter 14 state beside the SEC registers. -/
structure SecState where
  /-- The operator root of the operator record. -/
  operator : Option Bytes := none
  /-- The custodian record. -/
  cust : Option CustRecord := none
  /-- POLICY, EP_ROOT and EP_ALLOW in force, where a POLICY request has changed the record since the last reset (R427). -/
  inForce : Option (Nat × List Bytes × List Bytes) := none
  sessions : Tab Session := []
  nextSession : Nat := 1
  scrub : Option ScrubRun := none
  /-- A scrub that a loss of power cut off: the record that the flash carries with the SWITCHING mark (R432). -/
  cutOff : Option (Option CustRecord) := none
  /-- The pending sanitize in flash (R433). -/
  sanitize : Bool := false
  /-- HCLK time at which each tray's sanitize was issued (R433, R510). -/
  sanitizing : Tab Nat := []
  /-- Whether the UDS fuse is whole (R421). -/
  uds : Bool := true
  /-- How many times MK_NEAR and MK_TRAY have been generated: the keys themselves are never readable (R429). -/
  memKeys : Nat := 0
  /-- Measurement index 9 (R424). -/
  fenChain : Bytes := []
  ide : Tab IdeStream := []
  /-- Requests that carried a number of this counter, for messages whose content a standard fixes. -/
  messages : Nat := 0
  deriving DecidableEq, Repr

end Sys2Proof.Machine
end

