-- ==== Sys2Proof/Machine/Types/Shp.lean ====
section
/-!
DEFINITION. Policers, shapers, gate lists, tabor-time servo and link power states (chapter 12).
-/
namespace Sys2Proof.Machine

/-- A policer's bucket (R371): tokens in units of 2^-16 byte, the HCLK time of its last refill, and its two counts. -/
structure Bucket where
  tokens : Nat := 0
  last : Nat := 0
  pass : Nat := 0
  dropped : Nat := 0
  deriving DecidableEq, Repr

/-- A shaper's credit (R373): in units of 2^-16 byte as of an HCLK time. -/
structure Credit where
  k : Nat := 0
  last : Nat := 0
  deriving DecidableEq, Repr

/-- A gate list: its anchor A in ns and its entries (mask, duration in ns) (R375). -/
structure GateList where
  anchor : Nat := 0
  entries : List (Nat × Nat) := []
  deriving DecidableEq, Repr

/-- A proposed or agreed sleep (R389): enter and wake times in ns, STATE, whether this side proposed it, and whether it
is agreed. -/
structure Sleep where
  enter : Nat := 0
  wake : Nat := 0
  state : Nat := 1
  mine : Bool := false
  agreed : Bool := false
  deriving DecidableEq, Repr

/-- A REQ sent on a port and not yet answered (R385): TSEQ, t1 in units of 2^-32 ns, HCLK time. -/
structure TimeReq where
  tseq : Nat := 0
  t1 : Nat := 0
  sent : Nat := 0
  deriving DecidableEq, Repr

/-- A packet on a port's lane: its queue, HCLK time of its start, frame time in units of 0.5 ps (R369). -/
structure OnLane where
  queue : Nat := 0
  start : Nat := 0
  frame : Nat := 0
  deriving DecidableEq, Repr

/-- What chapter 12 keeps for a port. -/
structure ShpPort where
  bank0 : GateList := {}
  bank1 : GateList := {}
  /-- Take-over time of the pending list in ns (R377). -/
  takeover : Option Nat := none
  /-- The fallback mask governs until the next entry boundary: PORT_TIME_FAULT has cleared since the last (R393). -/
  resuming : Bool := false
  lastReq : Option TimeReq := none
  nextTseq : Nat := 0
  /-- HCLK time of the last REQ sent. -/
  reqAt : Option Nat := none
  /-- The last probe: θ in units of 2^-32 ns, HCLK time. -/
  probe : Option (Int × Nat) := none
  sleep : Option Sleep := none
  /-- W of the wake whose first partner frame is still awaited (R392). -/
  awaiting : Option Nat := none
  lane : Option OnLane := none
  /-- Queues whose head has been counted in FITWAIT. -/
  fitHeld : List Nat := []
  /-- Start in ns of the last run for which AUTO proposed a sleep (R391). -/
  proposed : Option Nat := none
  deriving DecidableEq, Repr

/-- Chapter 12 state beside the SHP and GATE registers. -/
structure ShpState where
  ports : Tab ShpPort := []
  /-- By CLID × 4 + class. -/
  buckets : Tab Bucket := []
  /-- By port × 8 + queue. -/
  credits : Tab Credit := []
  /-- Servo integral, in units of 2^-32 ppb. -/
  integ : Int := 0
  lockrun : Nat := 0
  /-- HCLK time of the last accepted sample. -/
  lastSample : Option Nat := none
  /-- HCLK time at which the source was last changed. -/
  srcSince : Nat := 0
  /-- HCLK time of an outstanding PTM request. -/
  ptm : Option Nat := none
  /-- The last whole second for which a PPS pulse was sent. -/
  ppsLast : Nat := 0
  /-- HCLK time at which PPS_OUT falls (R524). -/
  ppsFall : Nat := 0
  /-- HCLK time of the last accepted edge of PPS_IN (R459). -/
  ppsEdge : Option Nat := none
  /-- HCLK time at which the master last realigned the dies' copies of tabor time (R20). -/
  realigned : Nat := 0
  deriving DecidableEq, Repr

end Sys2Proof.Machine
end

