-- ==== Sys2Proof/Machine/Types/Xbr.lean ====
section
/-!
DEFINITION. Switch-core state (chapter 11): route banks, VOQs, egress queues, scheduler pointers, die budgets and the
capture engine.
-/
namespace Sys2Proof.Machine

/-- A route entry: its port set and bucket map (empty: no map) (R348, R354). -/
structure RouteEnt where
  isLocal : Bool := false
  portset : Nat := 0
  map : List Nat := []
  deriving DecidableEq, Repr

/-- A match entry (R48, R349). -/
structure MatchEnt where
  valid : Bool := true
  priority : Nat := 0
  dst : Nat := 0
  dstMask : Nat := 0
  opcode : Nat := 0
  opcMask : Nat := 0
  action : Nat := 0
  portset : Nat := 0
  map : List Nat := []
  deriving DecidableEq, Repr

/-- One bank of the route tables. -/
structure Bank where
  routes : Tab RouteEnt := []
  matches_ : Tab MatchEnt := []
  seed : Option Nat := none
  deriving DecidableEq, Repr

/-- A pending swap (R357, R358). -/
structure Swap where
  /-- Tabor time in ns for SWAP_AT. -/
  atNs : Option Nat := none
  deriving DecidableEq, Repr

/-- A capture waiting to be written (R360). -/
structure Capture where
  record : Bytes := []
  rseq : Nat := 0
  deriving DecidableEq, Repr

/-- Chapter 11 state beside the XBR and RTE registers. -/
structure XbrState where
  bank0 : Bank := {}
  bank1 : Bank := {}
  swap : Option Swap := none
  /-- VOQs by input × 512 + output × 8 + queue, head first. -/
  voqs : Tab (List QPkt) := []
  /-- Egress queues by port × 8 + queue, head first. -/
  egress : Tab (List QPkt) := []
  /-- Cells reserved in egress queues for packets that are crossing (R343). -/
  reserved : Tab Nat := []
  gptr : Tab Nat := []
  aptr : Tab Nat := []
  /-- Byte budgets by die × 2 + direction (R344): dies 0–7 CD, 8 PD0, 9 PD1, 11 MH; direction 0 out of the die. -/
  budgets : Tab Nat := []
  /-- Cells moved in the last three XCLK by connection × 2 + direction, newest first (R344). -/
  recent : Tab (List Nat) := []
  xclk : Nat := 0
  nextRseq : Nat := 0
  /-- Extent of the capture ring. -/
  capExt : Option Nat := none
  /-- XCLK count at which the capture engine is next free (R362). -/
  capFree : Nat := 0
  deriving DecidableEq, Repr

end Sys2Proof.Machine
end

