-- ==== Sys2Proof/Syntax.lean ====
section
/-!
DEFINITION. The commands of the switch: one constructor for each row of the spec's table, with the row's operands.  A command is
what reaches the switch from outside, an operation of one of its own units, or the passing of a limit of time.
Marks: DESIGN CHOICE 10, in notes/assumptions.
-/
namespace Sys2Proof
open Sys2Proof.Machine

/-- A command. -/
inductive Instr where
  /-- REGISTER_WRITE (R7). -/
  | registerWrite (a : Access) (off : Nat) (v : Nat) (b : BringUp)
  /-- REGISTER_READ_CLEAR (R7). -/
  | registerReadClear (a : Access) (off : Nat)
  /-- LO_LATCH_READ (R537). -/
  | loLatchRead (a : Access) (off : Nat)
  /-- UNMAPPED_ACCESS (R534). -/
  | unmappedAccess (a : Access) (off : Nat) (write : Bool)
  /-- D2D_LANE_REPAIR (R17). -/
  | d2dLaneRepair (link : Nat)
  /-- D2D_LINK_FAIL (R17). -/
  | d2dLinkFail (link : Nat)
  /-- TABOR_REALIGN (R20). -/
  | taborRealign
  /-- FRAME_RECEIVE (R136). -/
  | frameReceive (p : Nat) (f : Frame)
  /-- SCHEDULER_MATCH (R345). -/
  | schedulerMatch
  /-- EGRESS_ENQUEUE (R343). -/
  | egressEnqueue (p : Nat)
  /-- PORT_SELECT (R374). -/
  | portSelect (p : Nat) (dirty : Bool)
  /-- PACKET_HOLD_EXPIRE (R138). -/
  | packetHoldExpire
  /-- READ (R129). -/
  | read
  /-- WRITE (R149). -/
  | write
  /-- WRITE_FENCED (R149). -/
  | writeFenced
  /-- WRITE_PERFORMED (R149). -/
  | writePerformed (id : Nat) (trailerOk : Bool)
  /-- ATOMIC (R133). -/
  | atomic
  /-- HISTORY_EXPIRE (R134). -/
  | historyExpire (k : Nat)
  /-- ENGINE_RESPONSE (R350). -/
  | engineResponse
  /-- ENGINE_TIMEOUT (R140). -/
  | engineTimeout (seq : Nat)
  /-- FENCE_TRACK_TIMEOUT (R150). -/
  | fenceTrackTimeout (clid : Nat) (src : Nat) (seq : Nat)
  /-- BEAT_SEND (R141). -/
  | beatSend (p : Nat)
  /-- BEAT_MISS (R141). -/
  | beatMiss (p : Nat)
  /-- LINK_DOWN (R141). -/
  | linkDown (p : Nat) (cause : DownCause)
  /-- FAB_DEAD_CLEAR (R143). -/
  | fabDeadClear (a : Access) (i : Nat) (v : Nat)
  /-- LINK_RETRAIN (R141). -/
  | linkRetrain (p : Nat) (lanes : Nat)
  /-- LINK_TRAINED (R158). -/
  | linkTrained (p : Nat) (partnerMode : Nat)
  /-- LINK_SECURE (R155). -/
  | linkSecure (p : Nat) (peer : PeerAuth)
  /-- CC_WINDOW_END (R147). -/
  | ccWindowEnd
  /-- LINK_BEAT (R157). -/
  | linkBeat (p : Nat)
  /-- LINK_SPDM (R157). -/
  | linkSpdm (p : Nat)
  /-- KEY_UPDATE_START (R156). -/
  | keyUpdateStart (p : Nat) (first : Nat)
  /-- KEY_SWITCH (R156). -/
  | keySwitch (p : Nat)
  /-- KEY_ACK (R156). -/
  | keyAck (p : Nat)
  /-- TRAY_LINK_DOWN (R77). -/
  | trayLinkDown (p : Nat)
  /-- ALLOC (R90). -/
  | alloc (cid : Nat)
  /-- FREE (R91). -/
  | free (cid : Nat)
  /-- MIGRATE (R93). -/
  | migrate (cid : Nat)
  /-- EVICT (R93). -/
  | evict (cid : Nat)
  /-- ADVISE (R97). -/
  | advise (cid : Nat)
  /-- PREFIX_MARK (R104). -/
  | prefixMark (cid : Nat)
  /-- PREFIX_REF (R106). -/
  | prefixRef (cid : Nat)
  /-- PREFIX_UNREF (R106). -/
  | prefixUnref (cid : Nat)
  /-- FILL (R107). -/
  | fill (cid : Nat) (k : Nat)
  /-- COPY (R108). -/
  | copy (cid : Nat) (k : Nat)
  /-- COMPARE (R109). -/
  | compare (cid : Nat) (k : Nat)
  /-- REDUCE_IN_PLACE (R110). -/
  | reduceInPlace (cid : Nat) (k : Nat)
  /-- MOVE_COPY_STEP (R93). -/
  | moveCopyStep (i : Nat)
  /-- MOVE_COMMIT (R93). -/
  | moveCommit (i : Nat)
  /-- MOVE_DRAIN_TIMEOUT (R94). -/
  | moveDrainTimeout (i : Nat)
  /-- SCRUB_DONE (R92). -/
  | scrubDone (id : Nat)
  /-- POOL_FENCE (R87). -/
  | poolFence (a : Access) (fen : Nat)
  /-- LEASE_HEARTBEAT (R101). -/
  | leaseHeartbeat
  /-- LEASE_WORD_WRITE (R101). -/
  | leaseWordWrite
  /-- LEASE_EXPIRE (R102). -/
  | leaseExpire (clid : Nat)
  /-- XLATE_ANSWER (R113). -/
  | xlateAnswer
  /-- XLATE_TIMEOUT (R112). -/
  | xlateTimeout (cid : Nat)
  /-- EXT_READ (R117). -/
  | extRead (a : Access)
  /-- EXT_FIND (R117). -/
  | extFind (a : Access)
  /-- EXT_CREATE (R117). -/
  | extCreate (a : Access)
  /-- EXT_CREATE_HOST (R117). -/
  | extCreateHost (a : Access)
  /-- EXT_FREE (R117). -/
  | extFree (a : Access)
  /-- RGN_READ (R118). -/
  | rgnRead (a : Access)
  /-- RGN_CREATE (R118). -/
  | rgnCreate (a : Access)
  /-- RGN_UPDATE (R118). -/
  | rgnUpdate (a : Access)
  /-- RGN_FENCE (R118). -/
  | rgnFence (a : Access)
  /-- RGN_DELETE (R118). -/
  | rgnDelete (a : Access)
  /-- RGN_READ_CLIENT (R118). -/
  | rgnReadClient (a : Access)
  /-- RGN_WRITE_CLIENT (R118). -/
  | rgnWriteClient (a : Access)
  /-- REDUCE_CONTRIB (R165). -/
  | reduceContrib (e : Nat)
  /-- REDUCE_PARTIAL (R178). -/
  | reducePartial (e : Nat)
  /-- REDUCE_RESULT (R183). -/
  | reduceResult (e : Nat)
  /-- REDUCE_SLOT_GRANT (R176). -/
  | reduceSlotGrant (e : Nat)
  /-- REDUCE_DEADLINE (R185). -/
  | reduceDeadline (tree : Nat) (tag : Nat)
  /-- REDUCE_KEEP_EXPIRE (R190). -/
  | reduceKeepExpire (tree : Nat) (tag : Nat)
  /-- RED_TREE_READ (R194). -/
  | redTreeRead (a : Access)
  /-- CHAIN (R197). -/
  | chain (cid : Nat) (k : Nat)
  /-- GATHER_REQ (R221). -/
  | gatherReq
  /-- CHECK_INJECT (R224). -/
  | checkInject (a : Access) (op : Nat)
  /-- APPEND (R237). -/
  | append (cid : Nat) (k : Nat)
  /-- STEP (R242). -/
  | step
  /-- STEP_RECORD (R243). -/
  | stepRecord (cid : Nat) (k : Nat)
  /-- STEP_MSG_TIMEOUT (R242). -/
  | stepMsgTimeout (mid : Nat)
  /-- ARENA_READ (R254). -/
  | arenaRead (a : Access)
  /-- ARENA_REGISTER (R254). -/
  | arenaRegister (a : Access)
  /-- ARENA_UNREGISTER (R254). -/
  | arenaUnregister (a : Access)
  /-- PAGE_SCRUB_DONE (R231). -/
  | pageScrubDone (arena : Nat) (page : Nat)
  /-- STEP_OPEN (R266). -/
  | stepOpen
  /-- SEQ_JOIN (R271). -/
  | seqJoin (cid : Nat)
  /-- SEQ_LEAVE (R272). -/
  | seqLeave (cid : Nat)
  /-- SEQ_RESUME (R273). -/
  | seqResume (cid : Nat)
  /-- PAGE_RELEASE (R274). -/
  | pageRelease (n : Nat)
  /-- SQT_GRP_READ (R280). -/
  | sqtGrpRead (a : Access)
  /-- SQT_GRP_RESET (R280). -/
  | sqtGrpReset (a : Access)
  /-- SQT_ENT_READ (R281). -/
  | sqtEntRead (a : Access)
  /-- DROP (R281). -/
  | drop (a : Access)
  /-- DROP_FEN (R281). -/
  | dropFen (a : Access)
  /-- SQ_DOORBELL (R286). -/
  | sqDoorbell
  /-- CQ_DOORBELL (R285). -/
  | cqDoorbell
  /-- RING_STATE_READ (R285). -/
  | ringStateRead
  /-- COMMAND (R286). -/
  | command
  /-- DESCRIPTOR_FETCH (R292). -/
  | descriptorFetch
  /-- STAGING_ADMIT (R294). -/
  | stagingAdmit (fen : Nat)
  /-- NOP (R291). -/
  | nop (cid : Nat)
  /-- REDUCE (R310). -/
  | reduce (cid : Nat) (k : Nat)
  /-- CHUNK_DISPATCH (R301). -/
  | chunkDispatch (cluster : Nat)
  /-- CHUNK_COMMIT (R302). -/
  | chunkCommit (cid : Nat)
  /-- CHUNK_AGE (R301). -/
  | chunkAge (cid : Nat) (k : Nat)
  /-- SHIELD_LAPSE (R306). -/
  | shieldLapse (cid : Nat)
  /-- RING_READ (R315). -/
  | ringRead (a : Access)
  /-- RING_REGISTER (R315). -/
  | ringRegister (a : Access)
  /-- RING_UNREGISTER (R315). -/
  | ringUnregister (a : Access)
  /-- RING_RESET (R284). -/
  | ringReset (a : Access)
  /-- CKP_OPEN (R327). -/
  | ckpOpen (cid : Nat) (k : Nat)
  /-- CKP_ENCODE (R328). -/
  | ckpEncode (cid : Nat) (k : Nat)
  /-- CKP_SEAL (R327). -/
  | ckpSeal (cid : Nat) (k : Nat)
  /-- CKP_PARITY (R332). -/
  | ckpParity (cid : Nat) (k : Nat)
  /-- CKP_COMMIT (R334). -/
  | ckpCommit (cid : Nat) (k : Nat)
  /-- CKP_DECODE (R329). -/
  | ckpDecode (cid : Nat) (k : Nat)
  /-- CKP_REBUILD (R336). -/
  | ckpRebuild (cid : Nat) (k : Nat)
  /-- CKP_VERIFY (R329). -/
  | ckpVerify (cid : Nat) (k : Nat)
  /-- CKP_HEADER_POLL (R332). -/
  | ckpHeaderPoll (cid : Nat)
  /-- CKP_SET_READ (R338). -/
  | ckpSetRead (a : Access)
  /-- CKP_SET_REGISTER (R338). -/
  | ckpSetRegister (a : Access)
  /-- CKP_SET_UNREGISTER (R338). -/
  | ckpSetUnregister (a : Access)
  /-- RTE_READ (R357). -/
  | rteRead (a : Access)
  /-- RTE_WRITE (R357). -/
  | rteWrite (a : Access)
  /-- RTE_COPY (R357). -/
  | rteCopy (a : Access)
  /-- SWAP (R358). -/
  | swap (a : Access) (rebuild : Bool)
  /-- SWAP_AT (R358). -/
  | swapAt (a : Access) (rebuild : Bool)
  /-- CANCEL (R357). -/
  | cancel (a : Access)
  /-- SWAP_ACTIVATE (R358). -/
  | swapActivate
  /-- CAPTURE_ENABLE (R361). -/
  | captureEnable (a : Access) (mode : Bool) (log2 : Nat)
  /-- CAPTURE_DISABLE (R361). -/
  | captureDisable (a : Access) (mode : Bool) (log2 : Nat)
  /-- GATE_ENTRY_BOUNDARY (R375). -/
  | gateEntryBoundary (p : Nat)
  /-- GATE_TAKEOVER (R377). -/
  | gateTakeover (p : Nat)
  /-- TIME_REQ_SEND (R384). -/
  | timeReqSend (p : Nat)
  /-- TIME_REQ (R384). -/
  | timeReq (p : Nat)
  /-- TIME_RSP (R385). -/
  | timeRsp (p : Nat)
  /-- TIME_RSP_TIMEOUT (R385). -/
  | timeRspTimeout (p : Nat)
  /-- SERVO_HOLDOVER (R381). -/
  | servoHoldover
  /-- HOST_SAMPLE (R380). -/
  | hostSample (a : Access) (v : Nat)
  /-- TABOR_SET (R380). -/
  | taborSet (a : Access) (hi : Nat)
  /-- PTM_DIALOGUE (R380). -/
  | ptmDialogue (a : Access)
  /-- PTM_RESPONSE (R380). -/
  | ptmResponse (masterTime : Nat) (delay : Nat)
  /-- PTM_TIMEOUT (R394). -/
  | ptmTimeout
  /-- PPS_OUT (R387). -/
  | ppsOut
  /-- PPS_IN (R387). -/
  | ppsIn
  /-- SLEEP (R390). -/
  | sleep (p : Nat)
  /-- SLEEP_ACK (R389). -/
  | sleepAck (p : Nat)
  /-- SLEEP_NAK (R390). -/
  | sleepNak (p : Nat)
  /-- SLEEP_PROPOSE (R391). -/
  | sleepPropose (p : Nat) (partnerAuto : Bool)
  /-- SLEEP_REQUEST (R391). -/
  | sleepRequest (a : Access) (p : Nat)
  /-- SLEEP_ENTER (R389). -/
  | sleepEnter (p : Nat) (signalLost : Bool)
  /-- WAKE_START (R389). -/
  | wakeStart (p : Nat)
  /-- WAKE (R389). -/
  | wake (p : Nat)
  /-- MISSED_WAKE (R392). -/
  | missedWake (p : Nat)
  /-- TIME_FAULT_CLEAR (R393). -/
  | timeFaultClear (a : Access) (p : Nat)
  /-- SHP_POL_READ (R396). -/
  | shpPolRead (a : Access)
  /-- RD_S (R401). -/
  | rdS (pos : Nat) (line : Nat)
  /-- RD_X (R401). -/
  | rdX (pos : Nat) (line : Nat)
  /-- UPG (R401). -/
  | upg (pos : Nat) (line : Nat)
  /-- RD_NA (R408). -/
  | rdNa (pos : Nat) (line : Nat)
  /-- WR_NA (R408). -/
  | wrNa (pos : Nat) (line : Nat) (mask : Nat) (d : Bytes)
  /-- WB (R402). -/
  | wb (pos : Nat) (line : Nat) (d : Bytes)
  /-- SNOOP_RESPONSE (R400). -/
  | snoopResponse (pos : Nat) (line : Nat) (link : Nat) (corrected : Nat)
  /-- DATA (R402). -/
  | data (pos : Nat) (line : Nat)
  /-- DONE (R400). -/
  | done (pos : Nat) (line : Nat)
  /-- COH_REISSUE (R405). -/
  | cohReissue (pos : Nat) (line : Nat)
  /-- RING_FLIT_UE (R409). -/
  | ringFlitUe (pos : Nat)
  /-- AGENT_HEARTBEAT_MISS (R409). -/
  | agentHeartbeatMiss (pos : Nat)
  /-- COH_TXN_TIMEOUT (R409). -/
  | cohTxnTimeout (pos : Nat) (line : Nat)
  /-- SRAM_REFRESH (R411). -/
  | sramRefresh (r : CheckResult)
  /-- ARB_BITE (R413). -/
  | arbBite (resource : Nat) (inst : Nat) (die : Nat) (owner : Nat) (port : Nat) (v : BiteVictim)
  /-- COH_LINE_READ (R418). -/
  | cohLineRead (a : Access)
  /-- GET_VERSION (R426). -/
  | getVersion (req : Bytes)
  /-- GET_CAPABILITIES (R426). -/
  | getCapabilities (req : Bytes)
  /-- NEGOTIATE_ALGORITHMS (R426). -/
  | negotiateAlgorithms (req : Bytes)
  /-- GET_DIGESTS (R426). -/
  | getDigests
  /-- GET_CERTIFICATE (R423). -/
  | getCertificate (slot : Nat) (off : Nat) (len : Nat)
  /-- CHALLENGE (R423). -/
  | challenge (slot : Nat) (req : Bytes)
  /-- GET_MEASUREMENTS (R424). -/
  | getMeasurements (index : Nat) (req : Bytes)
  /-- KEY_EXCHANGE (R426). -/
  | keyExchange (req : Bytes)
  /-- FINISH (R426). -/
  | finish (id : Nat) (chain : Option Bytes) (authentic : Bool)
  /-- SPDM_HEARTBEAT (R426). -/
  | spdmHeartbeat (id : Nat)
  /-- SESSION_HEARTBEAT_LOSS (R426). -/
  | sessionHeartbeatLoss (id : Nat)
  /-- KEY_UPDATE (R426). -/
  | keyUpdate (id : Nat) (req : Bytes)
  /-- END_SESSION (R426). -/
  | endSession (id : Nat)
  /-- IMAGE_LOAD (R427). -/
  | imageLoad (sess : Nat) (seq : Nat) (off : Nat) (total : Nat) (bytes : Bytes)
  /-- IMAGE_VALIDATION_DONE (R55). -/
  | imageValidationDone
  /-- FEN_IMAGE_APPLY (R60). -/
  | fenImageApply
  /-- FW_UPDATE_BEGIN (R474). -/
  | fwUpdateBegin (sess : Nat) (seq : Nat) (total : Nat)
  /-- FW_ERASE_DONE (R474). -/
  | fwEraseDone
  /-- FW_UPDATE_DATA (R474). -/
  | fwUpdateData (sess : Nat) (seq : Nat) (off : Nat) (bytes : Bytes) (flashOk : Bool)
  /-- FW_UPDATE_VERIFY (R474). -/
  | fwUpdateVerify (sess : Nat) (seq : Nat)
  /-- FW_UPDATE_ACTIVATE (R474). -/
  | fwUpdateActivate (sess : Nat) (seq : Nat)
  /-- FW_UPDATE_ABORT (R474). -/
  | fwUpdateAbort (sess : Nat) (seq : Nat)
  /-- USAGE (R66). -/
  | usage (sess : Nat) (seq : Nat) (closing : Bool)
  /-- KEY_SLOT (R427). -/
  | keySlot (sess : Nat) (seq : Nat) (k : Nat) (key : Option Bytes)
  /-- POLICY (R427). -/
  | policy (sess : Nat) (seq : Nat) (word : Nat) (roots : List Bytes) (allow : List Bytes)
  /-- DEBUG_UNLOCK (R438). -/
  | debugUnlock (sess : Nat) (seq : Nat)
  /-- CUSTODIAN_READ (R427). -/
  | custodianRead (sess : Nat) (seq : Nat)
  /-- CUSTODIAN_INSTALL (R427). -/
  | custodianInstall (sess : Nat) (seq : Nat) (record : CustRecord)
  /-- CUSTODIAN_SWITCH (R432). -/
  | custodianSwitch (sess : Nat) (seq : Nat) (record : Option CustRecord) (sanitize : Bool)
  /-- CUSTODIAN_RELEASE (R432). -/
  | custodianRelease (sess : Nat) (seq : Nat) (sanitize : Bool)
  /-- SCRUB_COMPLETE (R432). -/
  | scrubComplete
  /-- OPERATOR_SET (R421). -/
  | operatorSet (sess : Nat) (seq : Nat) (root : Bytes) (sigR : Bytes) (sigS : Bytes)
  /-- DECOMMISSION (R421). -/
  | decommission (sess : Nat) (seq : Nat)
  /-- TRNG_FAIL (R431). -/
  | trngFail (test : Nat)
  /-- IDE_FAIL (R435). -/
  | ideFail (stream : Nat)
  /-- LOCK_INTERFACE (R436). -/
  | lockInterface (sess : Nat)
  /-- GET_DEVICE_INTERFACE_REPORT (R436). -/
  | getDeviceInterfaceReport (sess : Nat)
  /-- START_INTERFACE (R436). -/
  | startInterface (sess : Nat)
  /-- STOP_INTERFACE (R436). -/
  | stopInterface (sess : Nat)
  /-- CANARY_CHECK (R443). -/
  | canaryCheck (stack : Nat) (ok : Bool)
  /-- SENTINEL_CHECK (R443). -/
  | sentinelCheck (site : SramSite) (r : CheckResult)
  /-- HUB_LOGIC_MISMATCH (R445). -/
  | hubLogicMismatch (die : Nat)
  /-- STACK_PATROL (R444). -/
  | stackPatrol (a : Nat) (r : CheckResult)
  /-- CLUSTER_FAULT (R446). -/
  | clusterFault (cl : Nat) (cause : Nat)
  /-- CHUNK_WATCHDOG (R446). -/
  | chunkWatchdog (cl : Nat)
  /-- CLUSTER_TEST_DONE (R446). -/
  | clusterTestDone (ph : Nat) (passed : Bool)
  /-- SPARE_BIST_DONE (R447). -/
  | spareBistDone (die : Nat) (passed : Bool)
  /-- MAP_CLEAR (R449). -/
  | mapClear (a : Access) (failing : List Nat)
  /-- SCORE_TICK (R451). -/
  | scoreTick
  /-- SCORE_PERSIST (R452). -/
  | scorePersist
  /-- SCORE_READ (R461). -/
  | scoreRead (a : Access)
  /-- SCORE_CLEAR (R452). -/
  | scoreClear (a : Access)
  /-- COALESCE_FLUSH (R456). -/
  | coalesceFlush
  /-- EQ_MODERATION (R457). -/
  | eqModeration
  /-- REFCLK_LOSS (R503). -/
  | refclkLoss (i : Nat)
  /-- REFCLK_GOOD (R503). -/
  | refclkGood (i : Nat) (ppm10 : Nat)
  /-- BOTH_REFS_LOST (R504). -/
  | bothRefsLost (b : BringUp)
  /-- POWER_ON (R514). -/
  | powerOn (b : BringUp)
  /-- BRINGUP_HW_FAIL (R514). -/
  | bringupHwFail (dies : Nat) (links : Nat)
  /-- RESET_N (R506). -/
  | resetN (b : BringUp)
  /-- PERST_N (R506). -/
  | perstN
  /-- PWRGOOD_FALL (R516). -/
  | pwrgoodFall
  /-- WARM (R510). -/
  | warm (a : Access) (key : Nat) (hold : Bool) (b : BringUp)
  /-- FATAL_AUTO_RESTART (R512). -/
  | fatalAutoRestart (b : BringUp)
  /-- TRAY_ENUMERATION (R76). -/
  | trayEnumeration (found : List TrayFound)
  /-- TRAY_SANITIZE_DONE (R433). -/
  | traySanitizeDone (t : Nat) (ok : Bool)
  /-- TRAY_SANITIZE_TIMEOUT (R510). -/
  | traySanitizeTimeout (t : Nat)
  /-- CONTINUE (R518). -/
  | continue (a : Access) (hold : Bool)
  /-- APPLY (R509). -/
  | apply
  /-- PORTS_TRAINED (R510). -/
  | portsTrained
  /-- FEN_RESET (R513). -/
  | fenReset (a : Access) (f : Nat)
  /-- QUIESCE (R62). -/
  | quiesce (a : Access) (f : Nat) (alsoResume : Bool)
  /-- FEN_QUIESCED (R62). -/
  | fenQuiesced (f : Nat)
  /-- RESUME (R62). -/
  | resume (a : Access) (f : Nat)
  /-- LOCKSTEP (R465). -/
  | lockstep (p : Nat)
  /-- PAIR_RESTART (R465). -/
  | pairRestart (p : Nat)
  /-- CAR_WATCHDOG (R466). -/
  | carWatchdog (p : Nat)
  /-- CAR_LWDT_KICK (R500). -/
  | carLwdtKick (p : Nat)
  /-- ACCESS_FAULT_RETRY (R467). -/
  | accessFaultRetry (p : Nat) (fails : Bool) (op : Option Nat)
  /-- FW_CONFIRM (R475). -/
  | fwConfirm
  /-- CRC_INIT (R470). -/
  | crcInit (p : Nat)
  /-- CAR_CRC_B (R470). -/
  | carCrcB (p : Nat) (v : Nat)
  /-- CAR_CRC_H (R470). -/
  | carCrcH (p : Nat) (v : Nat)
  /-- CAR_CRC_W (R470). -/
  | carCrcW (p : Nat) (v : Nat)
  /-- CAR_CRC_RESULT (R470). -/
  | carCrcResult (p : Nat)
  /-- GET_INFO (R477). -/
  | getInfo (m : Option MbxReq)
  /-- SENSOR_READ (R477). -/
  | sensorRead (m : Option MbxReq)
  /-- POWER_READ (R477). -/
  | powerRead (m : Option MbxReq)
  /-- POWER_CAP_SET (R483). -/
  | powerCapSet (m : Option MbxReq)
  /-- LOG_READ (R477). -/
  | logRead (m : Option MbxReq)
  /-- FW_STATUS (R477). -/
  | fwStatus (m : Option MbxReq)
  /-- SET_ENDPOINT_ID (R479). -/
  | setEndpointId (eid : Nat)
  /-- GET_ENDPOINT_ID (R479). -/
  | getEndpointId
  /-- GET_MCTP_VERSION_SUPPORT (R479). -/
  | getMctpVersionSupport (kind : Nat)
  /-- GET_MESSAGE_TYPE_SUPPORT (R479). -/
  | getMessageTypeSupport
  /-- GET_VENDOR_DEFINED_MESSAGE_SUPPORT (R479). -/
  | getVendorDefinedMessageSupport (selector : Nat)
  /-- GET_PDR (R479). -/
  | getPdr (handle : Nat)
  /-- GET_SENSOR_READING (R479). -/
  | getSensorReading (n : Nat)
  /-- SENSOR_SAMPLE (R480). -/
  | sensorSample (x : Samples)
  /-- TRIP_RESET_HOLD (R485). -/
  | tripResetHold
  /-- THERMAL_STAGE_EXIT (R484). -/
  | thermalStageExit (k : Nat)
  /-- VR_HOT (R484). -/
  | vrHot (asserted : Bool)
  /-- POWER_LOOP_TICK (R483). -/
  | powerLoopTick
  /-- REGULATOR_RETRY (R528). -/
  | regulatorRetry (n : Nat) (mw : Option Nat)
  /-- LOG_PERSIST (R487). -/
  | logPersist
  /-- SEM_ACQUIRE (R489). -/
  | semAcquire (a : Access) (i : Nat)
  /-- SEM_RELEASE (R489). -/
  | semRelease (a : Access) (i : Nat)
  /-- SEM_WAIT (R490). -/
  | semWait (a : Access) (i : Nat)
  /-- SEM_TIMEOUT (R490). -/
  | semTimeout (who : Nat)
  /-- SEM_FORCED (R491). -/
  | semForced (i : Nat)
  /-- IDCODE (R493). -/
  | idcode
  /-- BYPASS (R493). -/
  | bypass
  /-- SAMPLE_PRELOAD (R493). -/
  | samplePreload (d : Bytes)
  /-- EXTEST (R493). -/
  | extest (d : Bytes)
  /-- DTMCS (R493). -/
  | dtmcs (v : Nat)
  /-- DMI (R495). -/
  | dmi (op : Nat) (a : Nat) (v : Nat)
  /-- IV_ADDR (R494). -/
  | ivAddr (off : Nat)
  /-- IV_DATA (R494). -/
  | ivData
  /-- IV_STAT (R494). -/
  | ivStat
  /-- RING_LANE_REPAIR (R409). -/
  | ringLaneRepair (link : Nat)
  /-- IDE_KM (R435). -/
  | ideKm (sess : Nat) (stream : Nat)
  /-- MANAGEMENT_LINK_DOWN (R458). -/
  | managementLinkDown
  /-- MANAGEMENT_LINK_UP (R458). -/
  | managementLinkUp
  /-- LOCKED_CONFIGURATION_CHANGE (R436). -/
  | lockedConfigurationChange
  /-- TRAY_READ_DEADLINE (R98). -/
  | trayReadDeadline (cid : Nat) (k : Nat) (item : Nat)
  /-- TRAY_READ_TIMEOUT (R99). -/
  | trayReadTimeout (t : TrayRead)
  deriving DecidableEq, Repr

end Sys2Proof
end

