-- ==== Sys2Proof/Decode.lean ====
section
/-!
DEFINITION. Commands spelled by a word of the spec's table.  The table gives no row any bits, so no word spells a command.
Marks: DESIGN CHOICE 3, in notes/assumptions.
-/
namespace Sys2Proof

/-- The command that a word of `nbits` bits spells. -/
def decodeTableWord (_nbits _w : Nat) : Option Instr := none

end Sys2Proof
end

