-- ==== Sys2Proof/Machine/Layouts.lean ====
section
/-!
DEFINITION. Codes and layouts: the numbers that the spec gives opcodes, statuses, roles and states, the fields and the CRC of a
packet, and the words of a table entry as the window shows them.
-/
namespace Sys2Proof.Machine

/-- States of a sequence entry (R260). -/
def sqFREE : Nat := 0
def sqJOINING : Nat := 1
def sqACTIVE : Nat := 2
def sqLEAVING : Nat := 3
def sqPARKED : Nat := 4
def sqPREFIX : Nat := 5

/-- Update states (R497). -/
def updIDLE : Nat := 0
def updERASING : Nat := 1
def updRECEIVING : Nat := 2
def updVERIFYING : Nat := 3
def updVERIFIED : Nat := 4
def updACTIVATED : Nat := 5

/-- The set's own member. -/
def CkpSet.own (x : CkpSet) : CkpMember := x.mem.getD x.self {}

/-- Ring states (R284). -/
def ringDISABLED : Nat := 0
def ringACTIVE : Nat := 1
def ringERROR : Nat := 2

/-- Line states (R399). -/
def cohI : Nat := 0
def cohS : Nat := 1
def cohE : Nat := 2
def cohM : Nat := 3

/-- ROLE values of R46. -/
def roleNone : Nat := 0
def roleAccel : Nat := 1
def roleTray : Nat := 2
def roleUplink : Nat := 3
def roleMgmt : Nat := 4

/-- Requester numbers 1 to 4 (R536, R489). -/
def Requester.num : Requester → Nat
  | .cp0 => 1
  | .cp1 => 2
  | .mgmt => 3
  | .debug => 4

/-! Opcodes (R126). -/
def opREAD : Nat := 0x01
def opWRITE : Nat := 0x02
def opWRITE_FENCED : Nat := 0x03
def opATOMIC : Nat := 0x04
def opCOMMAND : Nat := 0x08
def opSTEP : Nat := 0x10
def opGATHER_REQ : Nat := 0x18
def opREDUCE_CONTRIB : Nat := 0x20
def opREDUCE_PARTIAL : Nat := 0x21
def opREDUCE_RESULT : Nat := 0x22
def opTIME : Nat := 0x30
def opLINK : Nat := 0x31

/-! Status codes (R12). -/
def stOK : Nat := 0x00
def stKEY_DENIED : Nat := 0x01
def stRANGE : Nat := 0x02
def stTARGET_DEAD : Nat := 0x03
def stTIMEOUT : Nat := 0x04
def stRETRY : Nat := 0x05
def stLATE : Nat := 0x06
def stNO_RESOURCE : Nat := 0x07
def stTABLE_FULL : Nat := 0x08
def stKILLED : Nat := 0x09
def stABORTED : Nat := 0x0A
def stMALFORMED : Nat := 0x0B
def stCHECK_FAIL : Nat := 0x0C
def stDEGRADED : Nat := 0x0D
def stSEM_TIMEOUT : Nat := 0x0E
def stFENCED : Nat := 0x0F

/-! FLAGS (R121). -/

/-- CLASS: 0 RT, 1 LAT, 2 BULK, 3 BG. -/
def Packet.cls (p : Packet) : Nat := p.flags % 4
def Packet.fence (p : Packet) : Bool := bit p.flags 2
def Packet.ect (p : Packet) : Bool := bit p.flags 3
def Packet.ce (p : Packet) : Bool := bit p.flags 4
def Packet.echo (p : Packet) : Bool := bit p.flags 5
def Packet.retx (p : Packet) : Bool := bit p.flags 6

/-- Whether the opcode is a response (bit 7, R126). -/
def Packet.isRsp (p : Packet) : Bool := bit p.opcode 7

/-- ADDR[45:0], the local address (R73). -/
def Packet.localAddr (p : Packet) : Nat := p.addr % 2 ^ 46

/-- ADDR[57:46], the home id (R73). -/
def Packet.home (p : Packet) : Nat := bits p.addr 46 12

/-- The packet with CE set or clear. -/
def Packet.setCe (p : Packet) (b : Bool) : Packet := { p with flags := setBits p.flags 4 1 (b2n b) }

/-- Bytes of header, payload and trailer (R119). -/
def Packet.bytes (p : Packet) : Nat := 36 + p.payload.length

/-- Cells of 256 bytes (R339). -/
def Packet.cells (p : Packet) : Nat := ceilDiv p.bytes 256

/-- Egress queue: the request queue of class c is 2c and its response queue 2c + 1 (R46). -/
def Packet.queue (p : Packet) : Nat := 2 * p.cls + b2n (p.isRsp || p.opcode == opREDUCE_RESULT)

/-- The 32 header bytes (R120). -/
def Packet.header (p : Packet) : Bytes :=
  leBytes 2 p.dst ++ leBytes 2 p.src ++ leBytes 1 p.opcode ++ leBytes 1 p.flags ++
  leBytes 2 (p.len % 8192 + 8192 * (p.hops % 8)) ++ leBytes 4 p.seq ++ leBytes 2 p.region ++ leBytes 2 p.key ++
  leBytes 8 p.addr ++ leBytes 3 p.flow ++ leBytes 1 p.status ++ leBytes 4 p.arg

/-! CRC-32C (R124). -/

/-- One bit of the reflected CRC. -/
def crcShift (c : Nat) : Nat := if c % 2 = 1 then (c / 2) ^^^ 0x82F63B78 else c / 2

/-- One byte of the reflected CRC. -/
def crcByte (c : Nat) (b : Byte) : Nat := (List.range 8).foldl (fun c _ => crcShift c) (c ^^^ b.toNat)

/-- CRC-32C of a byte list: initial value and final exclusive-or 0xFFFF_FFFF. -/
def crc32c (bs : Bytes) : Nat := (bs.foldl crcByte 0xFFFFFFFF) ^^^ 0xFFFFFFFF

/-- The trailer of a packet whose requester's ADDR and SEQ are given (R124, R125). -/
def trailerFor (addr seq : Nat) (p : Packet) : Nat :=
  crc32c (leBytes 8 addr ++ leBytes 4 seq ++ ({ p with hops := 0 }.setCe false).header ++ p.payload)

/-- The trailer of a packet, prefix from its own header. -/
def Packet.crc (p : Packet) : Nat := trailerFor p.addr p.seq p

/-- The packet with its trailer written. -/
def Packet.seal (p : Packet) : Packet := { p with trailer := p.crc }

/-- Whether the trailer check passes (R124). -/
def Packet.trailerOk (p : Packet) : Bool := p.trailer == p.crc

/-- G(a, n) granules (R123). -/
def granules (a n : Nat) : Nat := ceilDiv (a % 64 + n) 64

/-- The payload bytes that OPCODE and LEN call for (R123). -/
def Packet.payloadSize (p : Packet) : Nat :=
  if p.opcode = opREAD then 0
  else if p.opcode = opWRITE ∨ p.opcode = opWRITE_FENCED then 64 * granules p.addr p.len
  else if p.opcode = 0x81 then 64 * granules p.addr p.len
  else if p.opcode = 0x82 ∨ p.opcode = 0x83 then 0
  else if p.opcode = opATOMIC ∨ p.opcode = 0x84 then 64
  else p.len

/-- Extent states (R79). -/
def exFREE : Nat := 0
def exRESIDENT : Nat := 1
def exLEASED : Nat := 2
def exMOVING : Nat := 3

/-- Tiers (R75). -/
def tierNEAR : Nat := 0
def tierTRAY : Nat := 1
def tierHOST : Nat := 2

/-- One unit of allocation: 64 KiB. -/
def unitBytes : Nat := 65536

/-- The eight words of an extent entry (R79). -/
def Extent.words (e : Extent) : List Nat :=
  [e.start + 2 ^ 30 * e.state,
   e.length + 2 ^ 30 * e.tier,
   e.loc % 2 ^ 32,
   e.loc / 2 ^ 32 % 256 + 2 ^ 8 * e.fen + 2 ^ 14 * b2n e.scrub + 2 ^ 15 * b2n e.pfx + 2 ^ 16 * e.holder +
     2 ^ 28 * e.heat + 2 ^ 30 * b2n e.pin + 2 ^ 31 * b2n e.prior,
   e.region + 2 ^ 16 * e.refs,
   e.rrefs + 2 ^ 16 * e.wrefs,
   e.link + 2 ^ 20 * (e.dest / 2 ^ 32 % 256) + 2 ^ 28 * e.destTier + 2 ^ 30 * b2n e.linkV,
   e.dest % 2 ^ 32]

end Sys2Proof.Machine
end

