-- ==== Sys2Proof/Config.lean ====
section
/-!
DEFINITION. What the spec leaves open: free values, and the standards it names without restating them.  Every constant
here is opaque, so nothing can be proved of its value.
Marks: DESIGN CHOICE 6, in notes/assumptions.
-/
namespace Sys2Proof

/-- A free value: some number the spec does not state, one for each index (the index is a State counter). -/
opaque Config.freeValue : Nat → Nat

/-- ECDSA P-384 over SHA-384: public key, message, r, s (FIPS 186-5, named by R45). -/
opaque Config.ecdsaVerify : Bytes → Bytes → Bytes → Bytes → Bool

/-- A 96-byte ECDSA P-384 signature by the Alias key, which is derived from the measurements of index 1 to 4: those
measurements, message, nonce index (R66, R423, R424). -/
opaque Config.aliasSign : Bytes → Bytes → Nat → Bytes

/-- SHA-384 (FIPS 180-4, named by R424, R429). -/
opaque Config.sha384 : Bytes → Bytes

/-- The public key of the root at which a certificate chain ends, where every signature of the chain verifies (X.509,
R423, R426, R434). -/
opaque Config.chainRoot : Bytes → Option Bytes

/-- The public key that the first certificate of a chain certifies (R472). -/
opaque Config.chainKey : Bytes → Bytes

/-- The Mbotoux root public key, in the boot ROM (chapter 14). -/
opaque Config.mbotouxRoot : Bytes

/-- The DeviceID certificate chain below the root, written at manufacture, and the Alias certificate made from the
measurements of index 1 to 4 (R423). -/
opaque Config.deviceChain : Bytes
opaque Config.aliasCert : Bytes → Bytes

/-- A 32-bit word of the boot ROM, by word index (R468). -/
opaque Config.romWord : Nat → Nat

/-- The boot ROM's digest: measurement index 1 (R424). -/
opaque Config.romDigest : Bytes

/-- The firmware release with which a part leaves the maker: its FW_VERSION and the digests of its components SECPROC,
CARILLON and OPMC (R471). -/
opaque Config.factoryVersion : Nat
opaque Config.factoryDigest : Nat → Bytes

/-- The platform descriptor record that GetPDR returns for a record handle (DSP0248, named by R479). -/
opaque Config.pdr : Nat → Bytes

/-- The value that EXP of R247 takes on a binary32 NaN, for which the spec states none. -/
opaque Config.expNaN : Nat → Nat

/-- The message content of a standard that the spec names but does not restate (SPDM 1.3, MCTP, PLDM, TDISP): a kind
number, the request, and the state's counter. -/
opaque Config.standardReply : Nat → Bytes → Nat → Bytes

end Sys2Proof
end

