-- ==== Sys2Proof/Machine/Regs.lean ====
section
/-!
DEFINITION. The fields of the register window (R533, R540) and of Carillon's private peripherals (R500): one handle
for each field of the spec's register tables, named as the spec names it (BLOCK_REG_FIELD), with its offset, strides,
bit position, access code (R7) and reset value.  Reserved (RSV) bits have no handle: they read 0 and ignore writes.
A reset value that the spec gives as fused, strapped or held in flash is the model's choice (notes/assumptions/2.md).
-/
namespace Sys2Proof.Machine

/-- The access codes of R7 (RSV has no handle). -/
inductive Acc where
  | rw | ro | wo | w1c | w1s | rc | rwq
  deriving DecidableEq, Repr

/-- One register field: absolute byte offset of the register of index (0, 0), two index strides and counts, lowest bit,
width, access code, reset value. -/
structure Fld where
  base : Nat
  s1 : Nat
  n1 : Nat
  s2 : Nat
  n2 : Nat
  lo : Nat
  width : Nat
  acc : Acc
  reset : Nat
  deriving DecidableEq, Repr

namespace Reg


/-! R4, 00_scope.md -/
/-- Part number -/
def GLB_ID_PART : Fld := ⟨0x0, 0x0, 1, 0x0, 1, 16, 16, .ro, 0x7720⟩
/-- Ordering code, as in the ordering-code table -/
def GLB_ID_CODE : Fld := ⟨0x0, 0x0, 1, 0x0, 1, 8, 8, .ro, 0x1⟩
/-- Silicon stepping, counting from 0x1 -/
def GLB_ID_STEPPING : Fld := ⟨0x0, 0x0, 1, 0x0, 1, 4, 4, .ro, 0x1⟩
/-- Capacity of one stack in GiB: 0x60 (96) or 0x40 (64) -/
def GLB_CAP_STACK_GIB : Fld := ⟨0x4, 0x0, 1, 0x0, 1, 0, 8, .ro, 0x60⟩
/-- 1: attention assist and sequence table present -/
def GLB_CAP_ATT : Fld := ⟨0x4, 0x0, 1, 0x0, 1, 8, 1, .ro, 0x1⟩
/-- 1: checkpoint codec present -/
def GLB_CAP_CKP : Fld := ⟨0x4, 0x0, 1, 0x0, 1, 9, 1, .ro, 0x1⟩
/-- 1: tray mode available on ports -/
def GLB_CAP_TRAY : Fld := ⟨0x4, 0x0, 1, 0x0, 1, 10, 1, .ro, 0x1⟩

/-! R35, 01_package_architecture.md -/
/-- Bit n: PDn trained and ready -/
def GLB_DIE_PD_READY : Fld := ⟨0x8, 0x0, 1, 0x0, 1, 0, 2, .ro, 0x0⟩
/-- Bit 2+k: CDk ready -/
def GLB_DIE_CD_READY : Fld := ⟨0x8, 0x0, 1, 0x0, 1, 2, 8, .ro, 0x0⟩
/-- XH ready -/
def GLB_DIE_XH_READY : Fld := ⟨0x8, 0x0, 1, 0x0, 1, 10, 1, .ro, 0x0⟩
/-- MH ready; Carillon running from ROM or firmware -/
def GLB_DIE_MH_READY : Fld := ⟨0x8, 0x0, 1, 0x0, 1, 11, 1, .ro, 0x0⟩
/-- Bit 12+k: MSk trained and ready -/
def GLB_DIE_MS_READY : Fld := ⟨0x8, 0x0, 1, 0x0, 1, 12, 8, .ro, 0x0⟩
/-- Bit 20+k: the spare cluster on CDk has replaced a mapped-out cluster -/
def GLB_DIE_CD_SPARE : Fld := ⟨0x8, 0x0, 1, 0x0, 1, 20, 8, .ro, 0x0⟩

/-! R36, 01_package_architecture.md -/
/-- Bit n: PDn–XH link up -/
def GLB_D2D_PD_UP : Fld := ⟨0xC, 0x0, 1, 0x0, 1, 0, 2, .ro, 0x0⟩
/-- Bit 2+k: CDk–XH link up -/
def GLB_D2D_CD_UP : Fld := ⟨0xC, 0x0, 1, 0x0, 1, 2, 8, .ro, 0x0⟩
/-- MH–XH link up -/
def GLB_D2D_MH_UP : Fld := ⟨0xC, 0x0, 1, 0x0, 1, 10, 1, .ro, 0x0⟩
/-- Bit 16+i: link i (numbered as in bits [10:0]) has used spare lanes since the bit was last cleared -/
def GLB_D2D_REPAIRED : Fld := ⟨0xC, 0x0, 1, 0x0, 1, 16, 11, .w1c, 0x0⟩

/-! R68, 02_fens_structure_image.md -/
/-- Outcome of the last load attempt (R56) -/
def FEN_IMG_STATUS_RESULT : Fld := ⟨0x100000, 0x0, 1, 0x0, 1, 0, 8, .ro, 0xFF⟩
/-- 0: header. 1–8: section TYPE. 9: signature -/
def FEN_IMG_STATUS_SECTION : Fld := ⟨0x100000, 0x0, 1, 0x0, 1, 8, 4, .ro, 0x0⟩
/-- A load is in progress -/
def FEN_IMG_STATUS_BUSY : Fld := ⟨0x100000, 0x0, 1, 0x0, 1, 12, 1, .ro, 0x0⟩
/-- A full image is staged -/
def FEN_IMG_STATUS_STAGED : Fld := ⟨0x100000, 0x0, 1, 0x0, 1, 13, 1, .ro, 0x0⟩
/-- Set when a load attempt ends -/
def FEN_IMG_STATUS_DONE : Fld := ⟨0x100000, 0x0, 1, 0x0, 1, 14, 1, .w1c, 0x0⟩
/-- Tray reservations were zeroed at the last restart -/
def FEN_IMG_STATUS_TRAY_SHORT : Fld := ⟨0x100000, 0x0, 1, 0x0, 1, 15, 1, .ro, 0x0⟩
/-- Fen of the last fen-image attempt -/
def FEN_IMG_STATUS_FEN : Fld := ⟨0x100000, 0x0, 1, 0x0, 1, 16, 6, .ro, 0x0⟩
/-- 1: the last attempt was a fen image -/
def FEN_IMG_STATUS_FENIMG : Fld := ⟨0x100000, 0x0, 1, 0x0, 1, 22, 1, .ro, 0x0⟩

/-! R69, 02_fens_structure_image.md -/
/-- Offset of the failing field; bits [31:20] RSV -/
def FEN_IMG_OFFSET_OFFSET : Fld := ⟨0x100004, 0x0, 1, 0x0, 1, 0, 20, .ro, 0x0⟩
/-- Serial of the running full image -/
def FEN_IMG_SERIAL_SERIAL : Fld := ⟨0x100008, 0x0, 1, 0x0, 1, 0, 32, .ro, 0x0⟩
/-- Serial of the staged full image; 0 if none -/
def FEN_IMG_STAGED_SERIAL : Fld := ⟨0x10000C, 0x0, 1, 0x0, 1, 0, 32, .ro, 0x0⟩

/-! R70, 02_fens_structure_image.md -/
/-- Start quiescing (R62); clears when QUIESCED -/
def FEN_CTL_QUIESCE : Fld := ⟨0x101000, 0x100, 64, 0x0, 1, 0, 1, .w1s, 0x0⟩
/-- Return to RUNNING; clears when done -/
def FEN_CTL_RESUME : Fld := ⟨0x101000, 0x100, 64, 0x0, 1, 1, 1, .w1s, 0x0⟩
/-- 0b00 UNUSED; 0b01 RUNNING; 0b10 QUIESCING; 0b11 QUIESCED -/
def FEN_STATE_STATE : Fld := ⟨0x101004, 0x100, 64, 0x0, 1, 0, 2, .ro, 0x0⟩
/-- A fen image is being applied -/
def FEN_STATE_APPLYING : Fld := ⟨0x101004, 0x100, 64, 0x0, 1, 2, 1, .ro, 0x0⟩

/-! R71, 02_fens_structure_image.md -/
/-- Serial of the last fen image applied -/
def FEN_SERIAL_SERIAL : Fld := ⟨0x101008, 0x100, 64, 0x0, 1, 0, 32, .ro, 0x0⟩
/-- Cluster mask bits [32i+31:32i] -/
def FEN_CLUS_MASK : Fld := ⟨0x101010, 0x100, 64, 0x4, 4, 0, 32, .ro, 0x0⟩
/-- Channel-group mask -/
def FEN_CHG_LO_MASK : Fld := ⟨0x101020, 0x100, 64, 0x0, 1, 0, 32, .ro, 0x0⟩
/-- Channel-group mask -/
def FEN_CHG_HI_MASK : Fld := ⟨0x101024, 0x100, 64, 0x0, 1, 0, 32, .ro, 0x0⟩
/-- Port mask -/
def FEN_PORTS_MASK : Fld := ⟨0x101028, 0x100, 64, 0x0, 1, 0, 32, .ro, 0x0⟩
/-- Near tier reserved and used -/
def FEN_NEAR_RSV_UNITS : Fld := ⟨0x101030, 0x100, 64, 0x0, 1, 0, 32, .ro, 0x0⟩
/-- Near tier reserved and used -/
def FEN_NEAR_USED_UNITS : Fld := ⟨0x101034, 0x100, 64, 0x0, 1, 0, 32, .ro, 0x0⟩
/-- Tray tier reserved and used -/
def FEN_TRAY_RSV_UNITS : Fld := ⟨0x101038, 0x100, 64, 0x0, 1, 0, 32, .ro, 0x0⟩
/-- Tray tier reserved and used -/
def FEN_TRAY_USED_UNITS : Fld := ⟨0x10103C, 0x100, 64, 0x0, 1, 0, 32, .ro, 0x0⟩
/-- Sequence entries -/
def FEN_SEQ_RSV_COUNT : Fld := ⟨0x101040, 0x100, 64, 0x0, 1, 0, 19, .ro, 0x0⟩
/-- Sequence entries -/
def FEN_SEQ_USED_COUNT : Fld := ⟨0x101044, 0x100, 64, 0x0, 1, 0, 19, .ro, 0x0⟩
/-- Regions in use -/
def FEN_RGN_USED_COUNT : Fld := ⟨0x101048, 0x100, 64, 0x0, 1, 0, 17, .ro, 0x0⟩
/-- Extents in use -/
def FEN_EXT_USED_COUNT : Fld := ⟨0x10104C, 0x100, 64, 0x0, 1, 0, 21, .ro, 0x0⟩
/-- Near-use watermark -/
def FEN_NEAR_MARK_UNITS : Fld := ⟨0x101050, 0x100, 64, 0x0, 1, 0, 32, .rw, 0xFFFFFFFF⟩
/-- Watermark as R11 -/
def FEN_NEAR_WM_LEVEL : Fld := ⟨0x101054, 0x100, 64, 0x0, 1, 0, 1, .ro, 0x0⟩
/-- Watermark as R11 -/
def FEN_NEAR_WM_UP : Fld := ⟨0x101054, 0x100, 64, 0x0, 1, 1, 1, .w1c, 0x0⟩
/-- Watermark as R11 -/
def FEN_NEAR_WM_DOWN : Fld := ⟨0x101054, 0x100, 64, 0x0, 1, 2, 1, .w1c, 0x0⟩
/-- Watermark as R11 -/
def FEN_NEAR_WM_CROSSINGS : Fld := ⟨0x101054, 0x100, 64, 0x0, 1, 16, 16, .rc, 0x0⟩
/-- NO_RESOURCE refusals; saturates at 0xFFFF -/
def FEN_REFUSE_NO_RES : Fld := ⟨0x101058, 0x100, 64, 0x0, 1, 0, 16, .rc, 0x0⟩
/-- TABLE_FULL refusals; saturates at 0xFFFF -/
def FEN_REFUSE_TBL_FULL : Fld := ⟨0x101058, 0x100, 64, 0x0, 1, 16, 16, .rc, 0x0⟩
/-- Meters of R65 -/
def FEN_MTR_CLUS_LO : Fld := ⟨0x101060, 0x100, 64, 0x0, 1, 0, 32, .ro, 0x0⟩
/-- Meters of R65 -/
def FEN_MTR_CLUS_HI : Fld := ⟨0x101064, 0x100, 64, 0x0, 1, 0, 32, .ro, 0x0⟩
/-- Meters of R65 -/
def FEN_MTR_CHG_LO : Fld := ⟨0x101068, 0x100, 64, 0x0, 1, 0, 32, .ro, 0x0⟩
/-- Meters of R65 -/
def FEN_MTR_CHG_HI : Fld := ⟨0x10106C, 0x100, 64, 0x0, 1, 0, 32, .ro, 0x0⟩
/-- Meters of R65 -/
def FEN_MTR_PORT_LO : Fld := ⟨0x101070, 0x100, 64, 0x0, 1, 0, 32, .ro, 0x0⟩
/-- Meters of R65 -/
def FEN_MTR_PORT_HI : Fld := ⟨0x101074, 0x100, 64, 0x0, 1, 0, 32, .ro, 0x0⟩
/-- Meters of R65 -/
def FEN_MTR_BYTES_LO : Fld := ⟨0x101078, 0x100, 64, 0x0, 1, 0, 32, .ro, 0x0⟩
/-- Meters of R65 -/
def FEN_MTR_BYTES_HI : Fld := ⟨0x10107C, 0x100, 64, 0x0, 1, 0, 32, .ro, 0x0⟩

/-! R115, 03_pool_memory.md -/
/-- This switch's home id, from the LOCAL route of the running full image -/
def POOL_HOME_HOME : Fld := ⟨0x200000, 0x0, 1, 0x0, 1, 0, 12, .ro, 0x0⟩
/-- Drain limit of R94, 1–65,535 µs; 0 is stored as 1 -/
def POOL_MOVE_DRAIN_US : Fld := ⟨0x200004, 0x0, 1, 0x0, 1, 0, 16, .rw, 0x3E8⟩
/-- Host translation deadline, 1–1,000,000 µs; larger values are stored as 1,000,000 -/
def POOL_XLATE_DL_US : Fld := ⟨0x200008, 0x0, 1, 0x0, 1, 0, 20, .rw, 0x19⟩
/-- Default tray deadline, ns; 0: none -/
def POOL_TRAY_DL_NS : Fld := ⟨0x20000C, 0x0, 1, 0x0, 1, 0, 30, .rw, 0x0⟩
/-- Zero-fill share of each stack, in 1/16ths; 0 is stored as 1. A write applies at once to zero-fills in … -/
def POOL_SCRUB_BW_SHARE : Fld := ⟨0x200010, 0x0, 1, 0x0, 1, 0, 4, .rw, 0x4⟩
/-- Fen to fence -/
def POOL_FENCE_FEN : Fld := ⟨0x200014, 0x0, 1, 0x0, 1, 0, 6, .rw, 0x0⟩
/-- Fence every region of FEN (R87) -/
def POOL_FENCE_GO : Fld := ⟨0x200014, 0x0, 1, 0x0, 1, 8, 1, .w1s, 0x0⟩
/-- Killed commands still completing -/
def POOL_FENCE_BUSY : Fld := ⟨0x200014, 0x0, 1, 0x0, 1, 9, 1, .ro, 0x0⟩
/-- Moves committed at R93 step 5, including READ_SOON moves; saturating -/
def POOL_CNT_MOVE_OK : Fld := ⟨0x200020, 0x0, 1, 0x0, 1, 0, 32, .rc, 0x0⟩
/-- MIGRATE, EVICT and started READ_SOON moves that ended without commit after their extent was found: … -/
def POOL_CNT_MOVE_ABORT : Fld := ⟨0x200024, 0x0, 1, 0x0, 1, 0, 32, .rc, 0x0⟩
/-- Lease expiries; saturating -/
def POOL_CNT_LEASE_EXP : Fld := ⟨0x200028, 0x0, 1, 0x0, 1, 0, 32, .rc, 0x0⟩
/-- Host translation requests posted; saturating -/
def POOL_CNT_HOST_MISS : Fld := ⟨0x20002C, 0x0, 1, 0x0, 1, 0, 32, .rc, 0x0⟩
/-- Commands completed TIMEOUT by R112; saturating -/
def POOL_CNT_HOST_TIMEOUT : Fld := ⟨0x200030, 0x0, 1, 0x0, 1, 0, 32, .rc, 0x0⟩
/-- Ignored answers; saturating -/
def POOL_CNT_HOST_STALE : Fld := ⟨0x200034, 0x0, 1, 0x0, 1, 0, 32, .rc, 0x0⟩
/-- Tray reads past their deadline; saturating -/
def POOL_CNT_LATE : Fld := ⟨0x200038, 0x0, 1, 0x0, 1, 0, 32, .rc, 0x0⟩
/-- Dropped READ_SOON hints; saturating -/
def POOL_CNT_SOFTDROP : Fld := ⟨0x20003C, 0x0, 1, 0x0, 1, 0, 32, .rc, 0x0⟩
/-- Free near-tier space in 64 KiB units, excluding space awaiting zero-fill -/
def POOL_NEAR_FREE_UNITS : Fld := ⟨0x200040, 0x0, 1, 0x0, 1, 0, 32, .ro, 0x0⟩
/-- Free tray-tier space in 64 KiB units -/
def POOL_TRAY_FREE_UNITS : Fld := ⟨0x200044, 0x0, 1, 0x0, 1, 0, 32, .ro, 0x0⟩
/-- Space awaiting zero-fill -/
def POOL_SCRUB_PEND_UNITS : Fld := ⟨0x200048, 0x0, 1, 0x0, 1, 0, 32, .ro, 0x0⟩
/-- Watermark on SCRUB_PEND -/
def POOL_SCRUB_MARK_UNITS : Fld := ⟨0x200050, 0x0, 1, 0x0, 1, 0, 32, .rw, 0xFFFFFFFF⟩
/-- Watermark as R11 -/
def POOL_SCRUB_WM_LEVEL : Fld := ⟨0x200054, 0x0, 1, 0x0, 1, 0, 1, .ro, 0x0⟩
/-- Watermark as R11 -/
def POOL_SCRUB_WM_UP : Fld := ⟨0x200054, 0x0, 1, 0x0, 1, 1, 1, .w1c, 0x0⟩
/-- Watermark as R11 -/
def POOL_SCRUB_WM_DOWN : Fld := ⟨0x200054, 0x0, 1, 0x0, 1, 2, 1, .w1c, 0x0⟩
/-- Watermark as R11 -/
def POOL_SCRUB_WM_CROSSINGS : Fld := ⟨0x200054, 0x0, 1, 0x0, 1, 16, 16, .rc, 0x0⟩

/-! R116, 03_pool_memory.md -/
/-- Rings in use. While it is 0, HOST ranges complete TIMEOUT at once -/
def POOL_HXQ_CTL_ENABLE : Fld := ⟨0x200100, 0x0, 1, 0x0, 1, 0, 1, .rw, 0x0⟩
/-- Request ring IOVA; 4 KiB aligned, bits [11:0] of LO ignored -/
def POOL_HXQ_REQ_BASE_LO : Fld := ⟨0x200104, 0x0, 1, 0x0, 1, 0, 32, .rw, 0x0⟩
/-- Request ring IOVA; 4 KiB aligned, bits [11:0] of LO ignored -/
def POOL_HXQ_REQ_BASE_HI : Fld := ⟨0x200108, 0x0, 1, 0x0, 1, 0, 32, .rw, 0x0⟩
/-- Ring size 2^N entries, N 6–16 -/
def POOL_HXQ_REQ_LOG2_N : Fld := ⟨0x20010C, 0x0, 1, 0x0, 1, 0, 5, .rw, 0x6⟩
/-- Next entry the switch writes -/
def POOL_HXQ_REQ_TAIL_INDEX : Fld := ⟨0x200110, 0x0, 1, 0x0, 1, 0, 17, .ro, 0x0⟩
/-- Next entry the driver reads -/
def POOL_HXQ_REQ_HEAD_INDEX : Fld := ⟨0x200114, 0x0, 1, 0x0, 1, 0, 17, .rw, 0x0⟩
/-- Answer ring IOVA; 4 KiB aligned -/
def POOL_HXQ_RSP_BASE_LO : Fld := ⟨0x200118, 0x0, 1, 0x0, 1, 0, 32, .rw, 0x0⟩
/-- Answer ring IOVA; 4 KiB aligned -/
def POOL_HXQ_RSP_BASE_HI : Fld := ⟨0x20011C, 0x0, 1, 0x0, 1, 0, 32, .rw, 0x0⟩
/-- Ring size 2^N entries, N 6–16 -/
def POOL_HXQ_RSP_LOG2_N : Fld := ⟨0x200120, 0x0, 1, 0x0, 1, 0, 5, .rw, 0x6⟩
/-- Driver doorbell: next entry the driver writes -/
def POOL_HXQ_RSP_TAIL_INDEX : Fld := ⟨0x200124, 0x0, 1, 0x0, 1, 0, 17, .rw, 0x0⟩
/-- Next entry the switch reads -/
def POOL_HXQ_RSP_HEAD_INDEX : Fld := ⟨0x200128, 0x0, 1, 0x0, 1, 0, 17, .ro, 0x0⟩

/-! R117, 03_pool_memory.md -/
/-- Entry index; FIND writes it -/
def EXT_INDEX_INDEX : Fld := ⟨0x400000, 0x0, 1, 0x0, 1, 0, 20, .rw, 0x0⟩
/-- 1 READ; 2 FIND; 3 CREATE; 4 CREATE_HOST; 5 FREE; others MALFORMED -/
def EXT_OP_CODE : Fld := ⟨0x400004, 0x0, 1, 0x0, 1, 0, 4, .rw, 0x0⟩
/-- Start CODE -/
def EXT_OP_GO : Fld := ⟨0x400004, 0x0, 1, 0x0, 1, 8, 1, .w1s, 0x0⟩
/-- R12 code of the last operation -/
def EXT_STATUS_STATUS : Fld := ⟨0x400008, 0x0, 1, 0x0, 1, 0, 8, .ro, 0x0⟩
/-- The last operation has ended -/
def EXT_STATUS_DONE : Fld := ⟨0x400008, 0x0, 1, 0x0, 1, 8, 1, .w1c, 0x0⟩
/-- FIND: local address, bits [45:0] -/
def EXT_ADDR_LO : Fld := ⟨0x40000C, 0x0, 1, 0x0, 1, 0, 32, .rw, 0x0⟩
/-- FIND: local address, bits [45:0] -/
def EXT_ADDR_HI : Fld := ⟨0x400010, 0x0, 1, 0x0, 1, 0, 32, .rw, 0x0⟩
/-- Entry words, as R79 -/
def EXT_DATA : Fld := ⟨0x400020, 0x4, 8, 0x0, 1, 0, 32, .rw, 0x0⟩

/-! R118, 03_pool_memory.md -/
/-- Region index -/
def RGN_INDEX_INDEX : Fld := ⟨0x600000, 0x0, 1, 0x0, 1, 0, 16, .rw, 0x0⟩
/-- 1 READ; 2 CREATE; 3 UPDATE; 4 FENCE; 5 DELETE; 6 READ_CLIENT; 7 WRITE_CLIENT; others MALFORMED -/
def RGN_OP_CODE : Fld := ⟨0x600004, 0x0, 1, 0x0, 1, 0, 4, .rw, 0x0⟩
/-- Start CODE -/
def RGN_OP_GO : Fld := ⟨0x600004, 0x0, 1, 0x0, 1, 8, 1, .w1s, 0x0⟩
/-- FENCE or DELETE still killing commands or zero-filling extents -/
def RGN_OP_BUSY : Fld := ⟨0x600004, 0x0, 1, 0x0, 1, 9, 1, .ro, 0x0⟩
/-- R12 code of the last operation -/
def RGN_STATUS_STATUS : Fld := ⟨0x600008, 0x0, 1, 0x0, 1, 0, 8, .ro, 0x0⟩
/-- The last operation has ended -/
def RGN_STATUS_DONE : Fld := ⟨0x600008, 0x0, 1, 0x0, 1, 8, 1, .w1c, 0x0⟩
/-- Client of READ_CLIENT and WRITE_CLIENT -/
def RGN_CLID_CLID : Fld := ⟨0x60000C, 0x0, 1, 0x0, 1, 0, 12, .rw, 0x0⟩
/-- Region words, as R82 -/
def RGN_DATA : Fld := ⟨0x600020, 0x4, 8, 0x0, 1, 0, 32, .rw, 0x0⟩

/-! R158, 04_fabric_protocol.md -/
/-- Lane mode from the image (R46) -/
def FAB_PSTAT_LANE_MODE : Fld := ⟨0x2000000, 0x10000, 32, 0x0, 1, 0, 2, .ro, 0x0⟩
/-- Link trained: block lock held and LINK frames may flow. Rises at training, before the keys are set up, … -/
def FAB_PSTAT_UP : Fld := ⟨0x2000000, 0x10000, 32, 0x0, 1, 2, 1, .ro, 0x0⟩
/-- Link key in place (R154). Rises after UP, when authentication and key setup end; packets and BEATs flow … -/
def FAB_PSTAT_SECURE : Fld := ⟨0x2000000, 0x10000, 32, 0x0, 1, 3, 1, .ro, 0x0⟩
/-- Neighbour declared dead (R141) -/
def FAB_PSTAT_DEAD : Fld := ⟨0x2000000, 0x10000, 32, 0x0, 1, 4, 1, .ro, 0x0⟩
/-- Retrain in progress -/
def FAB_PSTAT_RETRAIN : Fld := ⟨0x2000000, 0x10000, 32, 0x0, 1, 5, 1, .ro, 0x0⟩
/-- Key slot in use -/
def FAB_PSTAT_KEY_SLOT : Fld := ⟨0x2000000, 0x10000, 32, 0x0, 1, 6, 1, .ro, 0x0⟩
/-- Consecutive 10 µs intervals without a BEAT, counted while the link is active (R141), both before and after … -/
def FAB_PSTAT_BEAT_MISS : Fld := ⟨0x2000000, 0x10000, 32, 0x0, 1, 8, 8, .ro, 0x0⟩
/-- Marking threshold, 256-byte cells -/
def FAB_CE_THR_MIN : Fld := ⟨0x2000004, 0x10000, 32, 0x0, 1, 0, 16, .rw, 0x100⟩
/-- Full-marking threshold, 256-byte cells -/
def FAB_CE_THR_MAX : Fld := ⟨0x2000004, 0x10000, 32, 0x0, 1, 16, 16, .rw, 0x400⟩
/-- Codewords corrected -/
def FAB_CNT_FEC_CORR : Fld := ⟨0x2000008, 0x10000, 32, 0x0, 1, 0, 32, .rc, 0x0⟩
/-- Frames discarded at R136 step 1 -/
def FAB_CNT_FEC_UNCORR : Fld := ⟨0x200000C, 0x10000, 32, 0x0, 1, 0, 32, .rc, 0x0⟩
/-- Step 2 discards -/
def FAB_CNT_TAG_FAIL : Fld := ⟨0x2000010, 0x10000, 32, 0x0, 1, 0, 32, .rc, 0x0⟩
/-- Step 3 discards -/
def FAB_CNT_CRC_FAIL : Fld := ⟨0x2000014, 0x10000, 32, 0x0, 1, 0, 32, .rc, 0x0⟩
/-- Step 4 discards and reserved LINK types -/
def FAB_CNT_LEN_FAIL : Fld := ⟨0x2000018, 0x10000, 32, 0x0, 1, 0, 32, .rc, 0x0⟩
/-- Step 5 discards -/
def FAB_CNT_HOPS : Fld := ⟨0x200001C, 0x10000, 32, 0x0, 1, 0, 32, .rc, 0x0⟩
/-- Packets discarded at this egress by R138 -/
def FAB_CNT_HOLD : Fld := ⟨0x2000020, 0x10000, 32, 0x0, 1, 0, 32, .rc, 0x0⟩
/-- Packets marked CE at this egress -/
def FAB_CNT_CE_MARK : Fld := ⟨0x2000024, 0x10000, 32, 0x0, 1, 0, 32, .rc, 0x0⟩
/-- Responses received with ECHO set -/
def FAB_CNT_ECHO : Fld := ⟨0x2000028, 0x10000, 32, 0x0, 1, 0, 32, .rc, 0x0⟩
/-- Requests received with RETX set -/
def FAB_CNT_RETX : Fld := ⟨0x200002C, 0x10000, 32, 0x0, 1, 0, 32, .rc, 0x0⟩
/-- Key switches completed -/
def FAB_CNT_REKEY : Fld := ⟨0x2000030, 0x10000, 32, 0x0, 1, 0, 32, .rc, 0x0⟩
/-- 10 µs intervals without a BEAT while the link is active (R141), including those after the neighbour is … -/
def FAB_CNT_BEAT_MISS : Fld := ⟨0x2000034, 0x10000, 32, 0x0, 1, 0, 32, .rc, 0x0⟩
/-- Requests answered TARGET_DEAD by R142 -/
def FAB_CNT_DEAD_RSP : Fld := ⟨0x2000038, 0x10000, 32, 0x0, 1, 0, 32, .rc, 0x0⟩

/-! R159, 04_fabric_protocol.md -/
/-- Hold limit of R138, 1–1,000,000 µs; 0 is stored as 1, and larger values as 1,000,000 -/
def FAB_HOLD_MAX_US : Fld := ⟨0x2200000, 0x0, 1, 0x0, 1, 0, 20, .rw, 0x8⟩
/-- History window W of R134, in µs, rounded up to a whole µs; the window itself is exact -/
def FAB_HIST_WIN_US : Fld := ⟨0x2200004, 0x0, 1, 0x0, 1, 0, 32, .ro, 0x96⟩
/-- Rate control of R147 on -/
def FAB_CC_CTL_ENABLE : Fld := ⟨0x2200008, 0x0, 1, 0x0, 1, 0, 1, .rw, 0x1⟩
/-- Decrease by r / 2^DECR; 0 is stored as 1 -/
def FAB_CC_CTL_DECR : Fld := ⟨0x2200008, 0x0, 1, 0x0, 1, 1, 3, .rw, 0x3⟩
/-- Window, 1–255 µs; 0 is stored as 1 -/
def FAB_CC_CTL_WIN_US : Fld := ⟨0x2200008, 0x0, 1, 0x0, 1, 8, 8, .rw, 0x5⟩
/-- Additive increase per window, MB/s -/
def FAB_CC_AI_MBPS : Fld := ⟨0x220000C, 0x0, 1, 0x0, 1, 0, 20, .rw, 0x3E8⟩
/-- Rate floor, MB/s -/
def FAB_CC_MIN_MBPS : Fld := ⟨0x2200010, 0x0, 1, 0x0, 1, 0, 20, .rw, 0x3E8⟩
/-- ATOMICs answered RETRY by R134 -/
def FAB_HIST_FULL : Fld := ⟨0x2200014, 0x0, 1, 0x0, 1, 0, 32, .rc, 0x0⟩
/-- ATOMICs answered from the history -/
def FAB_HIST_DUP : Fld := ⟨0x2200018, 0x0, 1, 0x0, 1, 0, 32, .rc, 0x0⟩
/-- Held requests answered TIMEOUT by R150 -/
def FAB_FENCE_TO : Fld := ⟨0x220001C, 0x0, 1, 0x0, 1, 0, 32, .rc, 0x0⟩
/-- Bit b: home 32i + b declared dead; a write of 1 acts as R143 -/
def FAB_DEAD : Fld := ⟨0x2200100, 0x4, 128, 0x0, 1, 0, 32, .w1c, 0x0⟩

/-! R193, 05_exact_reduction.md -/
/-- Keep time of R190, 1–65,535 µs; 0 is stored as 1 -/
def RED_KEEP_US : Fld := ⟨0x1600000, 0x0, 1, 0x0, 1, 0, 16, .rw, 0x64⟩
/-- Instances open or kept, 0–16,384 -/
def RED_STAT_INST : Fld := ⟨0x1600004, 0x0, 1, 0x0, 1, 0, 15, .ro, 0x0⟩
/-- Accumulation SRAM charged on PREe -/
def RED_ENG_USED_BYTES : Fld := ⟨0x1600010, 0x4, 4, 0x0, 1, 0, 27, .ro, 0x0⟩
/-- Watermark on RED_ENGe_USED -/
def RED_ENG_MARK_BYTES : Fld := ⟨0x1600020, 0x8, 4, 0x0, 1, 0, 27, .rw, 0x7FFFFFF⟩
/-- Watermark as R11 -/
def RED_ENG_WM_LEVEL : Fld := ⟨0x1600024, 0x8, 4, 0x0, 1, 0, 1, .ro, 0x0⟩
/-- Watermark as R11 -/
def RED_ENG_WM_UP : Fld := ⟨0x1600024, 0x8, 4, 0x0, 1, 1, 1, .w1c, 0x0⟩
/-- Watermark as R11 -/
def RED_ENG_WM_DOWN : Fld := ⟨0x1600024, 0x8, 4, 0x0, 1, 2, 1, .w1c, 0x0⟩
/-- Watermark as R11 -/
def RED_ENG_WM_CROSSINGS : Fld := ⟨0x1600024, 0x8, 4, 0x0, 1, 16, 16, .rc, 0x0⟩
/-- Instances committed at this switch -/
def RED_CNT_COMMIT : Fld := ⟨0x1600040, 0x0, 1, 0x0, 1, 0, 32, .rc, 0x0⟩
/-- Instances ended TIMEOUT -/
def RED_CNT_TIMEOUT : Fld := ⟨0x1600044, 0x0, 1, 0x0, 1, 0, 32, .rc, 0x0⟩
/-- Instances ended NO_RESOURCE -/
def RED_CNT_NORES : Fld := ⟨0x1600048, 0x0, 1, 0x0, 1, 0, 32, .rc, 0x0⟩
/-- Instances ended RETRY -/
def RED_CNT_RETRY : Fld := ⟨0x160004C, 0x0, 1, 0x0, 1, 0, 32, .rc, 0x0⟩
/-- Instances ended TARGET_DEAD -/
def RED_CNT_DEAD : Fld := ⟨0x1600050, 0x0, 1, 0x0, 1, 0, 32, .rc, 0x0⟩
/-- Duplicates discarded (R166) -/
def RED_CNT_DUP : Fld := ⟨0x1600054, 0x0, 1, 0x0, 1, 0, 32, .rc, 0x0⟩
/-- Senders beyond EXPECTED (R166) -/
def RED_CNT_EXTRA : Fld := ⟨0x1600058, 0x0, 1, 0x0, 1, 0, 32, .rc, 0x0⟩
/-- Packets discarded by R164 -/
def RED_CNT_MISMATCH : Fld := ⟨0x160005C, 0x0, 1, 0x0, 1, 0, 32, .rc, 0x0⟩
/-- Contributions answered KEY_DENIED; partials discarded by R165 -/
def RED_CNT_DENIED : Fld := ⟨0x1600060, 0x0, 1, 0x0, 1, 0, 32, .rc, 0x0⟩
/-- Contributions answered MALFORMED -/
def RED_CNT_MALFORMED : Fld := ⟨0x1600064, 0x0, 1, 0x0, 1, 0, 32, .rc, 0x0⟩
/-- Outcomes replayed (R190) -/
def RED_CNT_REPLAY : Fld := ⟨0x1600068, 0x0, 1, 0x0, 1, 0, 32, .rc, 0x0⟩
/-- Instances committed with OVERFLOW set -/
def RED_CNT_OVERFLOW : Fld := ⟨0x160006C, 0x0, 1, 0x0, 1, 0, 32, .rc, 0x0⟩
/-- Staged slots discarded (R176) -/
def RED_CNT_PREEMPT : Fld := ⟨0x1600070, 0x0, 1, 0x0, 1, 0, 32, .rc, 0x0⟩

/-! R194, 05_exact_reduction.md -/
/-- Tree id -/
def RED_TREE_INDEX_TREE : Fld := ⟨0x1600100, 0x0, 1, 0x0, 1, 0, 12, .rw, 0x0⟩
/-- Read the record and live state of TREE -/
def RED_TREE_OP_GO : Fld := ⟨0x1600104, 0x0, 1, 0x0, 1, 0, 1, .w1s, 0x0⟩
/-- R12 code: OK, or KEY_DENIED when no valid record exists -/
def RED_TREE_STATUS_STATUS : Fld := ⟨0x1600108, 0x0, 1, 0x0, 1, 0, 8, .ro, 0x0⟩
/-- The read has ended -/
def RED_TREE_STATUS_DONE : Fld := ⟨0x1600108, 0x0, 1, 0x0, 1, 8, 1, .w1c, 0x0⟩
/-- The 32-byte TREES record (R49), little-endian -/
def RED_TREE_DATA : Fld := ⟨0x1600120, 0x4, 8, 0x0, 1, 0, 32, .ro, 0x0⟩
/-- Instances of the tree open or kept; saturates at 0xFF -/
def RED_TREE_LIVE_OPEN : Fld := ⟨0x1600140, 0x0, 1, 0x0, 1, 0, 8, .ro, 0x0⟩
/-- TAG of the most recently opened instance -/
def RED_TREE_LIVE_LAST_TAG : Fld := ⟨0x1600140, 0x0, 1, 0x0, 1, 8, 8, .ro, 0x0⟩

/-! R224, 06_gather_filter_chains.md -/
/-- Version of the operator microcode loaded by Carillon; 0 until loaded -/
def OPE_MC_VER_VERSION : Fld := ⟨0x1400000, 0x0, 1, 0x0, 1, 0, 32, .ro, 0x0⟩
/-- Bit n: stage operator n present (R199) -/
def OPE_CAP_OPS : Fld := ⟨0x1400004, 0x0, 1, 0x0, 1, 0, 8, .ro, 0xFE⟩
/-- GATHER_REQs queued or running, 0–1,024 -/
def OPE_GREQ_ACTIVE : Fld := ⟨0x1400008, 0x0, 1, 0x0, 1, 0, 11, .ro, 0x0⟩
/-- Watermark on OPE_GREQ.ACTIVE -/
def OPE_GREQ_MARK_COUNT : Fld := ⟨0x140000C, 0x0, 1, 0x0, 1, 0, 11, .rw, 0x400⟩
/-- Watermark as R11 -/
def OPE_GREQ_WM_LEVEL : Fld := ⟨0x1400010, 0x0, 1, 0x0, 1, 0, 1, .ro, 0x0⟩
/-- Watermark as R11 -/
def OPE_GREQ_WM_UP : Fld := ⟨0x1400010, 0x0, 1, 0x0, 1, 1, 1, .w1c, 0x0⟩
/-- Watermark as R11 -/
def OPE_GREQ_WM_DOWN : Fld := ⟨0x1400010, 0x0, 1, 0x0, 1, 2, 1, .w1c, 0x0⟩
/-- Watermark as R11 -/
def OPE_GREQ_WM_CROSSINGS : Fld := ⟨0x1400010, 0x0, 1, 0x0, 1, 16, 16, .rc, 0x0⟩
/-- CHAIN commands completed -/
def OPE_CNT_CHAIN : Fld := ⟨0x1400020, 0x0, 1, 0x0, 1, 0, 32, .rc, 0x0⟩
/-- GATHER_REQs completed -/
def OPE_CNT_GREQ : Fld := ⟨0x1400024, 0x0, 1, 0x0, 1, 0, 32, .rc, 0x0⟩
/-- Rows read by GATHER, GATHER_REQ and DISPATCH -/
def OPE_CNT_ROWS : Fld := ⟨0x1400028, 0x0, 1, 0x0, 1, 0, 32, .rc, 0x0⟩
/-- Rows zero-filled or omitted for lateness -/
def OPE_CNT_LATE : Fld := ⟨0x140002C, 0x0, 1, 0x0, 1, 0, 32, .rc, 0x0⟩
/-- Commands and requests ended RANGE for an invalid index or entry -/
def OPE_CNT_BADIDX : Fld := ⟨0x1400030, 0x0, 1, 0x0, 1, 0, 32, .rc, 0x0⟩
/-- DISPATCH entries dropped for capacity -/
def OPE_CNT_DROPPED : Fld := ⟨0x1400034, 0x0, 1, 0x0, 1, 0, 32, .rc, 0x0⟩
/-- Chunks re-run after a check failure (R217) -/
def OPE_CNT_CHK_RERUN : Fld := ⟨0x1400038, 0x0, 1, 0x0, 1, 0, 32, .rc, 0x0⟩
/-- Commands and requests completed CHECK_FAIL -/
def OPE_CNT_CHK_FAIL : Fld := ⟨0x140003C, 0x0, 1, 0x0, 1, 0, 32, .rc, 0x0⟩
/-- GATHER_REQs answered RETRY at the limit (R222) -/
def OPE_CNT_GREQ_BUSY : Fld := ⟨0x1400040, 0x0, 1, 0x0, 1, 0, 32, .rc, 0x0⟩
/-- Resent GATHER_REQs discarded (R222) -/
def OPE_CNT_GREQ_DUP : Fld := ⟨0x1400044, 0x0, 1, 0x0, 1, 0, 32, .rc, 0x0⟩
/-- Force the check of the next chunk of operator OP to fail once; clears when done -/
def OPE_CHK_INJ_ARM : Fld := ⟨0x1400050, 0x0, 1, 0x0, 1, 0, 1, .w1s, 0x0⟩
/-- Stage operator to inject into, 1–7; 0 means GATHER_REQ -/
def OPE_CHK_INJ_OP : Fld := ⟨0x1400050, 0x0, 1, 0x0, 1, 4, 4, .rw, 0x0⟩

/-! R253, 07_attention_assist.md -/
/-- Largest LAYERS -/
def ATT_CAP_MAX_LAYERS : Fld := ⟨0x1200000, 0x0, 1, 0x0, 1, 0, 8, .ro, 0x80⟩
/-- Largest HQ -/
def ATT_CAP_MAX_HQ : Fld := ⟨0x1200000, 0x0, 1, 0x0, 1, 8, 8, .ro, 0x80⟩
/-- Largest HKV -/
def ATT_CAP_MAX_HKV : Fld := ⟨0x1200000, 0x0, 1, 0x0, 1, 16, 5, .ro, 0x10⟩
/-- STEP messages held, 0–256 -/
def ATT_STAT_MSGS : Fld := ⟨0x1200004, 0x0, 1, 0x0, 1, 0, 9, .ro, 0x0⟩
/-- STEP messages completed -/
def ATT_CNT_MSG : Fld := ⟨0x1200020, 0x0, 1, 0x0, 1, 0, 32, .rc, 0x0⟩
/-- Records answered -/
def ATT_CNT_REC : Fld := ⟨0x1200024, 0x0, 1, 0x0, 1, 0, 32, .rc, 0x0⟩
/-- Records completed DEGRADED -/
def ATT_CNT_DEGRADED : Fld := ⟨0x1200028, 0x0, 1, 0x0, 1, 0, 32, .rc, 0x0⟩
/-- Blocks replaced by centroids -/
def ATT_CNT_SKIPPED : Fld := ⟨0x120002C, 0x0, 1, 0x0, 1, 0, 32, .rc, 0x0⟩
/-- Token slices written by STEP and APPEND -/
def ATT_CNT_SLICES : Fld := ⟨0x1200030, 0x0, 1, 0x0, 1, 0, 32, .rc, 0x0⟩
/-- Page sets acquired (R230) -/
def ATT_CNT_PAGE_ACQ : Fld := ⟨0x1200034, 0x0, 1, 0x0, 1, 0, 32, .rc, 0x0⟩
/-- Acquisitions failed NO_RESOURCE -/
def ATT_CNT_PAGE_NORES : Fld := ⟨0x1200038, 0x0, 1, 0x0, 1, 0, 32, .rc, 0x0⟩
/-- Records and messages answered MALFORMED -/
def ATT_CNT_REC_MALF : Fld := ⟨0x120003C, 0x0, 1, 0x0, 1, 0, 32, .rc, 0x0⟩
/-- Records completed TIMEOUT -/
def ATT_CNT_REC_TIMEOUT : Fld := ⟨0x1200040, 0x0, 1, 0x0, 1, 0, 32, .rc, 0x0⟩
/-- Packets answered RETRY at the limit (R242) -/
def ATT_CNT_MSG_BUSY : Fld := ⟨0x1200044, 0x0, 1, 0x0, 1, 0, 32, .rc, 0x0⟩
/-- Resent packets discarded (R242) -/
def ATT_CNT_MSG_DUP : Fld := ⟨0x1200048, 0x0, 1, 0x0, 1, 0, 32, .rc, 0x0⟩
/-- Messages dropped incomplete (R242) -/
def ATT_CNT_MSG_INCOMPLETE : Fld := ⟨0x120004C, 0x0, 1, 0x0, 1, 0, 32, .rc, 0x0⟩
/-- Record work re-run after a check failure -/
def ATT_CNT_CHK_RERUN : Fld := ⟨0x1200050, 0x0, 1, 0x0, 1, 0, 32, .rc, 0x0⟩
/-- Records completed CHECK_FAIL -/
def ATT_CNT_CHK_FAIL : Fld := ⟨0x1200054, 0x0, 1, 0x0, 1, 0, 32, .rc, 0x0⟩

/-! R254, 07_attention_assist.md -/
/-- Arena number, 0–1,023 -/
def ATT_AR_INDEX_ARENA : Fld := ⟨0x1200100, 0x0, 1, 0x0, 1, 0, 10, .rw, 0x0⟩
/-- 1 READ; 2 REGISTER; 3 UNREGISTER; others MALFORMED -/
def ATT_AR_OP_CODE : Fld := ⟨0x1200104, 0x0, 1, 0x0, 1, 0, 4, .rw, 0x0⟩
/-- Start CODE -/
def ATT_AR_OP_GO : Fld := ⟨0x1200104, 0x0, 1, 0x0, 1, 8, 1, .w1s, 0x0⟩
/-- Zero-fill of a new arena in progress -/
def ATT_AR_OP_BUSY : Fld := ⟨0x1200104, 0x0, 1, 0x0, 1, 9, 1, .ro, 0x0⟩
/-- R12 code of the last operation -/
def ATT_AR_STATUS_STATUS : Fld := ⟨0x1200108, 0x0, 1, 0x0, 1, 0, 8, .ro, 0x0⟩
/-- The last operation has ended -/
def ATT_AR_STATUS_DONE : Fld := ⟨0x1200108, 0x0, 1, 0x0, 1, 8, 1, .w1c, 0x0⟩
/-- Owning fen -/
def ATT_AR_DATA0_FEN : Fld := ⟨0x1200120, 0x0, 1, 0x0, 1, 0, 6, .rw, 0x0⟩
/-- Arena registered -/
def ATT_AR_DATA0_VALID : Fld := ⟨0x1200120, 0x0, 1, 0x0, 1, 8, 1, .ro, 0x0⟩
/-- 0 POOL; 1 PREFIX -/
def ATT_AR_DATA0_KIND : Fld := ⟨0x1200120, 0x0, 1, 0x0, 1, 9, 1, .rw, 0x0⟩
/-- Local address [45:0] of the extent's first byte; DATA2 bits [13:0] -/
def ATT_AR_DATA1 : Fld := ⟨0x1200124, 0x0, 1, 0x0, 1, 0, 32, .rw, 0x0⟩
/-- Local address [45:0] of the extent's first byte; DATA2 bits [13:0] -/
def ATT_AR_DATA2 : Fld := ⟨0x1200128, 0x0, 1, 0x0, 1, 0, 32, .rw, 0x0⟩
/-- Pages in the arena -/
def ATT_AR_DATA3_PAGES : Fld := ⟨0x120012C, 0x0, 1, 0x0, 1, 0, 20, .ro, 0x0⟩
/-- Pages free and zero-filled -/
def ATT_AR_DATA4_FREE : Fld := ⟨0x1200130, 0x0, 1, 0x0, 1, 0, 20, .ro, 0x0⟩

/-! R255, 07_attention_assist.md -/
/-- 0: no shape; 1–128 -/
def ATT_SHAPE0_LAYERS : Fld := ⟨0x1201000, 0x80, 64, 0x0, 1, 0, 8, .rwq, 0x0⟩
/-- Query heads -/
def ATT_SHAPE0_HQ : Fld := ⟨0x1201000, 0x80, 64, 0x0, 1, 8, 8, .rwq, 0x0⟩
/-- KV heads -/
def ATT_SHAPE0_HKV : Fld := ⟨0x1201000, 0x80, 64, 0x0, 1, 16, 5, .rwq, 0x0⟩
/-- D: 0 is 64; 1 is 128; 2 is 256; 3 is refused -/
def ATT_SHAPE0_DCODE : Fld := ⟨0x1201000, 0x80, 64, 0x0, 1, 24, 2, .rwq, 0x0⟩
/-- R226 -/
def ATT_SHAPE0_KFMT : Fld := ⟨0x1201000, 0x80, 64, 0x0, 1, 26, 1, .rwq, 0x0⟩
/-- PAGE_BLOCKS -/
def ATT_SHAPE1_PB : Fld := ⟨0x1201004, 0x80, 64, 0x0, 1, 0, 7, .rwq, 0x0⟩
/-- TOPN -/
def ATT_SHAPE1_TOPN : Fld := ⟨0x1201004, 0x80, 64, 0x0, 1, 8, 8, .rwq, 0x0⟩
/-- WINDOW_BLOCKS -/
def ATT_SHAPE1_WB : Fld := ⟨0x1201004, 0x80, 64, 0x0, 1, 16, 7, .rwq, 0x0⟩
/-- SCALE, binary32 -/
def ATT_SCALE_VALUE : Fld := ⟨0x1201008, 0x80, 64, 0x0, 1, 0, 32, .rwq, 0x3DB504F3⟩
/-- Default block deadline; 0 defers to POOL_TRAY_DL -/
def ATT_DEADLINE_NS : Fld := ⟨0x120100C, 0x80, 64, 0x0, 1, 0, 30, .rw, 0x0⟩
/-- KV region index -/
def ATT_KVRGN_REGION : Fld := ⟨0x1201010, 0x80, 64, 0x0, 1, 0, 16, .rwq, 0x0⟩
/-- Directory area, local address [45:0], 4 KiB aligned; LO bits [11:0] ignored -/
def ATT_DIR_BASE_LO : Fld := ⟨0x1201018, 0x80, 64, 0x0, 1, 0, 32, .rwq, 0x0⟩
/-- Directory area, local address [45:0], 4 KiB aligned; LO bits [11:0] ignored -/
def ATT_DIR_BASE_HI : Fld := ⟨0x120101C, 0x80, 64, 0x0, 1, 0, 32, .rwq, 0x0⟩
/-- Slots in the area, 0–262,144; the area lies within the KV region -/
def ATT_DIR_SLOTS_COUNT : Fld := ⟨0x1201020, 0x80, 64, 0x0, 1, 0, 19, .rwq, 0x0⟩
/-- PAGE_BYTES of the shape -/
def ATT_PAGE_BYTES_BYTES : Fld := ⟨0x1201024, 0x80, 64, 0x0, 1, 0, 32, .ro, 0x0⟩
/-- Pages in the fen's POOL arenas -/
def ATT_PAGES_TOTAL : Fld := ⟨0x1201028, 0x80, 64, 0x0, 1, 0, 32, .ro, 0x0⟩
/-- Pages free and zero-filled -/
def ATT_PAGES_FREE_COUNT : Fld := ⟨0x120102C, 0x80, 64, 0x0, 1, 0, 32, .ro, 0x0⟩
/-- Watermark on pages in use (TOTAL − FREE) -/
def ATT_PAGE_MARK_COUNT : Fld := ⟨0x1201030, 0x80, 64, 0x0, 1, 0, 32, .rw, 0x0⟩
/-- Watermark as R11 -/
def ATT_PAGE_WM_LEVEL : Fld := ⟨0x1201034, 0x80, 64, 0x0, 1, 0, 1, .ro, 0x0⟩
/-- Watermark as R11 -/
def ATT_PAGE_WM_UP : Fld := ⟨0x1201034, 0x80, 64, 0x0, 1, 1, 1, .w1c, 0x0⟩
/-- Watermark as R11 -/
def ATT_PAGE_WM_DOWN : Fld := ⟨0x1201034, 0x80, 64, 0x0, 1, 2, 1, .w1c, 0x0⟩
/-- Watermark as R11 -/
def ATT_PAGE_WM_CROSSINGS : Fld := ⟨0x1201034, 0x80, 64, 0x0, 1, 16, 16, .rc, 0x0⟩

/-! R278, 08_sequence_table.md -/
/-- Table entries: 262,144 -/
def SQT_CAP_ENTRIES : Fld := ⟨0x1000000, 0x0, 1, 0x0, 1, 0, 19, .ro, 0x40000⟩
/-- Batch groups, in units of 8: 4,096 -/
def SQT_CAP_GROUPS : Fld := ⟨0x1000000, 0x0, 1, 0x0, 1, 19, 13, .ro, 0x200⟩
/-- Largest group: 16,384 -/
def SQT_CAP2_MEMBERS : Fld := ⟨0x1000004, 0x0, 1, 0x0, 1, 0, 15, .ro, 0x4000⟩
/-- Entries not FREE, all fens -/
def SQT_STAT_USED : Fld := ⟨0x1000008, 0x0, 1, 0x0, 1, 0, 19, .ro, 0x0⟩
/-- An open is in progress -/
def SQT_STAT_OPENING : Fld := ⟨0x1000008, 0x0, 1, 0x0, 1, 19, 1, .ro, 0x0⟩
/-- Watermark on SQT_STAT.USED -/
def SQT_USED_MARK_COUNT : Fld := ⟨0x100000C, 0x0, 1, 0x0, 1, 0, 19, .rw, 0x7FFFF⟩
/-- Watermark as R11 -/
def SQT_USED_WM_LEVEL : Fld := ⟨0x1000010, 0x0, 1, 0x0, 1, 0, 1, .ro, 0x0⟩
/-- Watermark as R11 -/
def SQT_USED_WM_UP : Fld := ⟨0x1000010, 0x0, 1, 0x0, 1, 1, 1, .w1c, 0x0⟩
/-- Watermark as R11 -/
def SQT_USED_WM_DOWN : Fld := ⟨0x1000010, 0x0, 1, 0x0, 1, 2, 1, .w1c, 0x0⟩
/-- Watermark as R11 -/
def SQT_USED_WM_CROSSINGS : Fld := ⟨0x1000010, 0x0, 1, 0x0, 1, 16, 16, .rc, 0x0⟩
/-- Longest open since last read, in HCLK -/
def SQT_OPEN_MAX_HCLK : Fld := ⟨0x1000014, 0x0, 1, 0x0, 1, 0, 32, .rc, 0x0⟩
/-- Opens performed -/
def SQT_CNT_OPEN : Fld := ⟨0x1000020, 0x0, 1, 0x0, 1, 0, 32, .rc, 0x0⟩
/-- Joins and resumes that made an entry ACTIVE -/
def SQT_CNT_JOINED : Fld := ⟨0x1000024, 0x0, 1, 0x0, 1, 0, 32, .rc, 0x0⟩
/-- Joins and resumes failed NO_RESOURCE at an open -/
def SQT_CNT_JOIN_NORES : Fld := ⟨0x1000028, 0x0, 1, 0x0, 1, 0, 32, .rc, 0x0⟩
/-- Continuing sequences parked -/
def SQT_CNT_PARK : Fld := ⟨0x100002C, 0x0, 1, 0x0, 1, 0, 32, .rc, 0x0⟩
/-- Joins and resumes deferred (R268) -/
def SQT_CNT_DEFER : Fld := ⟨0x1000030, 0x0, 1, 0x0, 1, 0, 32, .rc, 0x0⟩
/-- Leaves performed -/
def SQT_CNT_LEFT : Fld := ⟨0x1000034, 0x0, 1, 0x0, 1, 0, 32, .rc, 0x0⟩
/-- Leaves by lease expiry (R276) -/
def SQT_CNT_LEASE_LEAVE : Fld := ⟨0x1000038, 0x0, 1, 0x0, 1, 0, 32, .rc, 0x0⟩
/-- Joins refused TABLE_FULL -/
def SQT_CNT_TBL_FULL : Fld := ⟨0x100003C, 0x0, 1, 0x0, 1, 0, 32, .rc, 0x0⟩
/-- Acquisitions failed at the directory limit (R275) -/
def SQT_CNT_DIR_FULL : Fld := ⟨0x1000040, 0x0, 1, 0x0, 1, 0, 32, .rc, 0x0⟩
/-- STEP messages answered RANGE by R263 -/
def SQT_CNT_STALE : Fld := ⟨0x1000044, 0x0, 1, 0x0, 1, 0, 32, .rc, 0x0⟩

/-! R279, 08_sequence_table.md -/
/-- First group of the fen -/
def SQT_FEN_GRP_BASE : Fld := ⟨0x1001000, 0x4, 64, 0x0, 1, 0, 12, .rwq, 0x0⟩
/-- Groups in the range, 0–4,096 -/
def SQT_FEN_GRP_COUNT : Fld := ⟨0x1001000, 0x4, 64, 0x0, 1, 16, 13, .rwq, 0x0⟩

/-! R280, 08_sequence_table.md -/
/-- Group -/
def SQT_GRP_INDEX_GROUP : Fld := ⟨0x1000100, 0x0, 1, 0x0, 1, 0, 12, .rw, 0x0⟩
/-- 1 READ; 2 RESET; others MALFORMED -/
def SQT_GRP_OP_CODE : Fld := ⟨0x1000104, 0x0, 1, 0x0, 1, 0, 4, .rw, 0x0⟩
/-- Start CODE -/
def SQT_GRP_OP_GO : Fld := ⟨0x1000104, 0x0, 1, 0x0, 1, 8, 1, .w1s, 0x0⟩
/-- R12 code of the last operation -/
def SQT_GRP_STATUS_STATUS : Fld := ⟨0x1000108, 0x0, 1, 0x0, 1, 0, 8, .ro, 0x0⟩
/-- The last operation has ended -/
def SQT_GRP_STATUS_DONE : Fld := ⟨0x1000108, 0x0, 1, 0x0, 1, 8, 1, .w1c, 0x0⟩
/-- CUR_STEP -/
def SQT_GRP_DATA0_CUR_STEP : Fld := ⟨0x1000120, 0x0, 1, 0x0, 1, 0, 32, .ro, 0x0⟩
/-- OPEN -/
def SQT_GRP_DATA1_OPEN : Fld := ⟨0x1000124, 0x0, 1, 0x0, 1, 0, 1, .ro, 0x0⟩
/-- Owning fen -/
def SQT_GRP_DATA1_FEN : Fld := ⟨0x1000124, 0x0, 1, 0x0, 1, 1, 6, .ro, 0x0⟩
/-- Members -/
def SQT_GRP_DATA1_MEMBERS : Fld := ⟨0x1000124, 0x0, 1, 0x0, 1, 8, 15, .ro, 0x0⟩
/-- ACTIVE members -/
def SQT_GRP_DATA2_ACTIVE : Fld := ⟨0x1000128, 0x0, 1, 0x0, 1, 0, 15, .ro, 0x0⟩
/-- JOINING members -/
def SQT_GRP_DATA2_JOINING : Fld := ⟨0x1000128, 0x0, 1, 0x0, 1, 16, 15, .ro, 0x0⟩
/-- PARKED members -/
def SQT_GRP_DATA3_PARKED : Fld := ⟨0x100012C, 0x0, 1, 0x0, 1, 0, 15, .ro, 0x0⟩
/-- LEAVING members -/
def SQT_GRP_DATA3_LEAVING : Fld := ⟨0x100012C, 0x0, 1, 0x0, 1, 16, 15, .ro, 0x0⟩
/-- Duration of the last open, HCLK -/
def SQT_GRP_DATA4_OPEN_HCLK : Fld := ⟨0x1000130, 0x0, 1, 0x0, 1, 0, 32, .ro, 0x0⟩
/-- Tabor time of the last open's first cycle, ns, low then high -/
def SQT_GRP_DATA5 : Fld := ⟨0x1000134, 0x0, 1, 0x0, 1, 0, 32, .ro, 0x0⟩
/-- Tabor time of the last open's first cycle, ns, low then high -/
def SQT_GRP_DATA6 : Fld := ⟨0x1000138, 0x0, 1, 0x0, 1, 0, 32, .ro, 0x0⟩

/-! R281, 08_sequence_table.md -/
/-- Fen -/
def SQT_ENT_FEN_FEN : Fld := ⟨0x1000200, 0x0, 1, 0x0, 1, 0, 6, .rw, 0x0⟩
/-- Sequence index within the fen -/
def SQT_ENT_INDEX_INDEX : Fld := ⟨0x1000204, 0x0, 1, 0x0, 1, 0, 18, .rw, 0x0⟩
/-- 1 READ; 2 DROP; 3 DROP_FEN; others MALFORMED -/
def SQT_ENT_OP_CODE : Fld := ⟨0x1000208, 0x0, 1, 0x0, 1, 0, 4, .rw, 0x0⟩
/-- Start CODE -/
def SQT_ENT_OP_GO : Fld := ⟨0x1000208, 0x0, 1, 0x0, 1, 8, 1, .w1s, 0x0⟩
/-- DROP_FEN in progress -/
def SQT_ENT_OP_BUSY : Fld := ⟨0x1000208, 0x0, 1, 0x0, 1, 9, 1, .ro, 0x0⟩
/-- R12 code of the last operation -/
def SQT_ENT_STATUS_STATUS : Fld := ⟨0x100020C, 0x0, 1, 0x0, 1, 0, 8, .ro, 0x0⟩
/-- The last operation has ended -/
def SQT_ENT_STATUS_DONE : Fld := ⟨0x100020C, 0x0, 1, 0x0, 1, 8, 1, .w1c, 0x0⟩
/-- Entry words, as R259 -/
def SQT_ENT_DATA : Fld := ⟨0x1000240, 0x4, 16, 0x0, 1, 0, 32, .ro, 0x0⟩

/-! R314, 09_command_engine.md -/
/-- Ring pairs: 16,384 -/
def CMD_CAP_RINGS : Fld := ⟨0x800000, 0x0, 1, 0x0, 1, 0, 15, .ro, 0x4000⟩
/-- Accepted commands per fen: 512 -/
def CMD_CAP_CTX : Fld := ⟨0x800000, 0x0, 1, 0x0, 1, 16, 10, .ro, 0x200⟩
/-- KILL_LIMIT of the running full image -/
def CMD_KILL_LIMIT_COUNT : Fld := ⟨0x800004, 0x0, 1, 0x0, 1, 0, 4, .ro, 0x4⟩
/-- SHIELD_MAX_US of the running full image -/
def CMD_SHIELD_MAX_US : Fld := ⟨0x800008, 0x0, 1, 0x0, 1, 0, 5, .ro, 0x14⟩
/-- Ageing interval of R301, µs; 0 is stored as 1 -/
def CMD_AGE_US : Fld := ⟨0x80000C, 0x0, 1, 0x0, 1, 0, 16, .rw, 0x64⟩
/-- Longest kill interval of R305 since the last read -/
def CMD_KILL_MAX_NS : Fld := ⟨0x800010, 0x0, 1, 0x0, 1, 0, 16, .rc, 0x0⟩
/-- Longest wait of an RT chunk for a cluster since the last read -/
def CMD_RT_WAIT_MAX_NS : Fld := ⟨0x800014, 0x0, 1, 0x0, 1, 0, 32, .rc, 0x0⟩
/-- Descriptors fetched -/
def CMD_CNT_ACCEPT : Fld := ⟨0x800020, 0x0, 1, 0x0, 1, 0, 32, .rc, 0x0⟩
/-- Completions written -/
def CMD_CNT_DONE : Fld := ⟨0x800024, 0x0, 1, 0x0, 1, 0, 32, .rc, 0x0⟩
/-- Commands completed MALFORMED -/
def CMD_CNT_MALF : Fld := ⟨0x800028, 0x0, 1, 0x0, 1, 0, 32, .rc, 0x0⟩
/-- Pre-emption kills -/
def CMD_CNT_PREEMPT : Fld := ⟨0x80002C, 0x0, 1, 0x0, 1, 0, 32, .rc, 0x0⟩
/-- Commands shielded -/
def CMD_CNT_SHIELD : Fld := ⟨0x800030, 0x0, 1, 0x0, 1, 0, 32, .rc, 0x0⟩
/-- Shields lapsed -/
def CMD_CNT_LAPSE : Fld := ⟨0x800034, 0x0, 1, 0x0, 1, 0, 32, .rc, 0x0⟩
/-- Commands completed KILLED -/
def CMD_CNT_KILLED : Fld := ⟨0x800038, 0x0, 1, 0x0, 1, 0, 32, .rc, 0x0⟩
/-- Commands completed RETRY at acceptance -/
def CMD_CNT_ACC_RETRY : Fld := ⟨0x80003C, 0x0, 1, 0x0, 1, 0, 32, .rc, 0x0⟩
/-- Stale SQ doorbells (R286) -/
def CMD_CNT_DB_STALE : Fld := ⟨0x800040, 0x0, 1, 0x0, 1, 0, 32, .rc, 0x0⟩
/-- Rings that entered ERROR -/
def CMD_CNT_RING_ERR : Fld := ⟨0x800044, 0x0, 1, 0x0, 1, 0, 32, .rc, 0x0⟩
/-- Effective-class raises (R301) -/
def CMD_CNT_AGED : Fld := ⟨0x800048, 0x0, 1, 0x0, 1, 0, 32, .rc, 0x0⟩

/-! R315, 09_command_engine.md -/
/-- Pair number, CLID × 4 + class -/
def CMD_RING_INDEX_PAIR : Fld := ⟨0x800100, 0x0, 1, 0x0, 1, 0, 14, .rw, 0x0⟩
/-- 1 READ; 2 REGISTER; 3 UNREGISTER; 4 RESET; others MALFORMED -/
def CMD_RING_OP_CODE : Fld := ⟨0x800104, 0x0, 1, 0x0, 1, 0, 4, .rw, 0x0⟩
/-- Start CODE -/
def CMD_RING_OP_GO : Fld := ⟨0x800104, 0x0, 1, 0x0, 1, 8, 1, .w1s, 0x0⟩
/-- CQ zero-fill in progress -/
def CMD_RING_OP_BUSY : Fld := ⟨0x800104, 0x0, 1, 0x0, 1, 9, 1, .ro, 0x0⟩
/-- R12 code of the last operation -/
def CMD_RING_STATUS_STATUS : Fld := ⟨0x800108, 0x0, 1, 0x0, 1, 0, 8, .ro, 0x0⟩
/-- The last operation has ended -/
def CMD_RING_STATUS_DONE : Fld := ⟨0x800108, 0x0, 1, 0x0, 1, 8, 1, .w1c, 0x0⟩
/-- SQ base, local address [45:0]; DATA0 bits [11:0] ignored; DATA1 bits [13:0] -/
def CMD_RING_DATA0 : Fld := ⟨0x800120, 0x0, 1, 0x0, 1, 0, 32, .rw, 0x0⟩
/-- SQ base, local address [45:0]; DATA0 bits [11:0] ignored; DATA1 bits [13:0] -/
def CMD_RING_DATA1 : Fld := ⟨0x800124, 0x0, 1, 0x0, 1, 0, 32, .rw, 0x0⟩
/-- CQ base, as DATA0 and DATA1 -/
def CMD_RING_DATA2 : Fld := ⟨0x800128, 0x0, 1, 0x0, 1, 0, 32, .rw, 0x0⟩
/-- CQ base, as DATA0 and DATA1 -/
def CMD_RING_DATA3 : Fld := ⟨0x80012C, 0x0, 1, 0x0, 1, 0, 32, .rw, 0x0⟩
/-- SQ size, 2^N slots, N 4–15 -/
def CMD_RING_DATA4_SQ_LOG2 : Fld := ⟨0x800130, 0x0, 1, 0x0, 1, 0, 4, .rw, 0x4⟩
/-- CQ size, 2^N entries, N 4–15 -/
def CMD_RING_DATA4_CQ_LOG2 : Fld := ⟨0x800130, 0x0, 1, 0x0, 1, 8, 4, .rw, 0x4⟩
/-- 0b00 DISABLED; 0b01 ACTIVE; 0b10 ERROR -/
def CMD_RING_DATA4_STATE : Fld := ⟨0x800130, 0x0, 1, 0x0, 1, 16, 2, .ro, 0x0⟩
/-- R12 code of the failure that set ERROR -/
def CMD_RING_DATA4_ERR_STATUS : Fld := ⟨0x800130, 0x0, 1, 0x0, 1, 24, 8, .ro, 0x0⟩
/-- R284 -/
def CMD_RING_DATA5_SQ_TAIL : Fld := ⟨0x800134, 0x0, 1, 0x0, 1, 0, 16, .ro, 0x0⟩
/-- R284 -/
def CMD_RING_DATA5_FETCH_HEAD : Fld := ⟨0x800134, 0x0, 1, 0x0, 1, 16, 16, .ro, 0x0⟩
/-- R284 -/
def CMD_RING_DATA6_CQ_TAIL : Fld := ⟨0x800138, 0x0, 1, 0x0, 1, 0, 16, .ro, 0x0⟩
/-- R284 -/
def CMD_RING_DATA6_CQ_HEAD : Fld := ⟨0x800138, 0x0, 1, 0x0, 1, 16, 16, .ro, 0x0⟩
/-- R284 -/
def CMD_RING_DATA7_OUTSTANDING : Fld := ⟨0x80013C, 0x0, 1, 0x0, 1, 0, 10, .ro, 0x0⟩

/-! R316, 09_command_engine.md -/
/-- Staging chunks reserved for RT (R294); a value above STAGING_BYTES / 65,536 is discarded, as R8 lays down -/
def CMD_FEN_RT_STAGE_CHUNKS : Fld := ⟨0x801000, 0x40, 64, 0x0, 1, 0, 17, .rwq, 0x0⟩
/-- Staging chunks held, base and working -/
def CMD_FEN_STAGE_USED_CHUNKS : Fld := ⟨0x801004, 0x40, 64, 0x0, 1, 0, 17, .ro, 0x0⟩
/-- Accepted commands held, 0–512 -/
def CMD_FEN_CTX_USED : Fld := ⟨0x801008, 0x40, 64, 0x0, 1, 0, 10, .ro, 0x0⟩
/-- Commands waiting at R293 step 4 -/
def CMD_FEN_WAIT_STAGE : Fld := ⟨0x80100C, 0x40, 64, 0x0, 1, 0, 10, .ro, 0x0⟩
/-- Watermark on CMD_FEN_CTX.USED -/
def CMD_FEN_CTX_MARK_COUNT : Fld := ⟨0x801010, 0x40, 64, 0x0, 1, 0, 10, .rw, 0x200⟩
/-- Watermark as R11 -/
def CMD_FEN_CTX_WM_LEVEL : Fld := ⟨0x801014, 0x40, 64, 0x0, 1, 0, 1, .ro, 0x0⟩
/-- Watermark as R11 -/
def CMD_FEN_CTX_WM_UP : Fld := ⟨0x801014, 0x40, 64, 0x0, 1, 1, 1, .w1c, 0x0⟩
/-- Watermark as R11 -/
def CMD_FEN_CTX_WM_DOWN : Fld := ⟨0x801014, 0x40, 64, 0x0, 1, 2, 1, .w1c, 0x0⟩
/-- Watermark as R11 -/
def CMD_FEN_CTX_WM_CROSSINGS : Fld := ⟨0x801014, 0x40, 64, 0x0, 1, 16, 16, .rc, 0x0⟩
/-- Pre-emption kills suffered by the fen's chunks -/
def CMD_FEN_CNT_PREEMPT : Fld := ⟨0x801018, 0x40, 64, 0x0, 1, 0, 32, .rc, 0x0⟩
/-- Completions written for the fen's rings -/
def CMD_FEN_CNT_DONE : Fld := ⟨0x80101C, 0x40, 64, 0x0, 1, 0, 32, .rc, 0x0⟩

/-! R337, 10_checkpoint_engine.md -/
/-- Sets: 64 -/
def CKP_CAP_SETS : Fld := ⟨0x1800000, 0x0, 1, 0x0, 1, 0, 7, .ro, 0x40⟩
/-- Largest group: 10 -/
def CKP_CAP_MEMBERS : Fld := ⟨0x1800000, 0x0, 1, 0x0, 1, 8, 4, .ro, 0xA⟩
/-- Sets registered -/
def CKP_STAT_SETS : Fld := ⟨0x1800004, 0x0, 1, 0x0, 1, 0, 7, .ro, 0x0⟩
/-- Header poll interval, µs; 0 is stored as 1 -/
def CKP_POLL_US : Fld := ⟨0x1800008, 0x0, 1, 0x0, 1, 0, 16, .rw, 0xA⟩
/-- Blocks encoded -/
def CKP_CNT_BLOCKS : Fld := ⟨0x1800020, 0x0, 1, 0x0, 1, 0, 32, .rc, 0x0⟩
/-- Blocks written RAW -/
def CKP_CNT_RAW : Fld := ⟨0x1800024, 0x0, 1, 0x0, 1, 0, 32, .rc, 0x0⟩
/-- Source encoded, 64 KiB units -/
def CKP_CNT_IN_UNITS : Fld := ⟨0x1800028, 0x0, 1, 0x0, 1, 0, 32, .rc, 0x0⟩
/-- Stream written, 64 KiB units -/
def CKP_CNT_OUT_UNITS : Fld := ⟨0x180002C, 0x0, 1, 0x0, 1, 0, 32, .rc, 0x0⟩
/-- Parity units written -/
def CKP_CNT_PAR_UNITS : Fld := ⟨0x1800030, 0x0, 1, 0x0, 1, 0, 32, .rc, 0x0⟩
/-- Units rebuilt -/
def CKP_CNT_REB_UNITS : Fld := ⟨0x1800034, 0x0, 1, 0x0, 1, 0, 32, .rc, 0x0⟩
/-- Blocks failing R323 or R329 -/
def CKP_CNT_CRC_FAIL : Fld := ⟨0x1800038, 0x0, 1, 0x0, 1, 0, 32, .rc, 0x0⟩
/-- COMMITs completed OK -/
def CKP_CNT_COMMIT : Fld := ⟨0x180003C, 0x0, 1, 0x0, 1, 0, 32, .rc, 0x0⟩
/-- COMMITs completed otherwise -/
def CKP_CNT_COMMIT_FAIL : Fld := ⟨0x1800040, 0x0, 1, 0x0, 1, 0, 32, .rc, 0x0⟩
/-- Commands ended TIMEOUT by WAIT_US -/
def CKP_CNT_WAIT_TO : Fld := ⟨0x1800044, 0x0, 1, 0x0, 1, 0, 32, .rc, 0x0⟩
/-- Chunks re-run after R324 or the parity check -/
def CKP_CNT_CHK_RERUN : Fld := ⟨0x1800048, 0x0, 1, 0x0, 1, 0, 32, .rc, 0x0⟩
/-- Commands completed CHECK_FAIL -/
def CKP_CNT_CHK_FAIL : Fld := ⟨0x180004C, 0x0, 1, 0x0, 1, 0, 32, .rc, 0x0⟩

/-! R338, 10_checkpoint_engine.md -/
/-- Set -/
def CKP_SET_INDEX_SET : Fld := ⟨0x1800100, 0x0, 1, 0x0, 1, 0, 6, .rw, 0x0⟩
/-- 1 READ; 2 REGISTER; 3 UNREGISTER; others MALFORMED -/
def CKP_SET_OP_CODE : Fld := ⟨0x1800104, 0x0, 1, 0x0, 1, 0, 4, .rw, 0x0⟩
/-- Start CODE -/
def CKP_SET_OP_GO : Fld := ⟨0x1800104, 0x0, 1, 0x0, 1, 8, 1, .w1s, 0x0⟩
/-- R12 code of the last operation -/
def CKP_SET_STATUS_STATUS : Fld := ⟨0x1800108, 0x0, 1, 0x0, 1, 0, 8, .ro, 0x0⟩
/-- The last operation has ended -/
def CKP_SET_STATUS_DONE : Fld := ⟨0x1800108, 0x0, 1, 0x0, 1, 8, 1, .w1c, 0x0⟩
/-- Fen -/
def CKP_SET_DATA0_FEN : Fld := ⟨0x1800120, 0x0, 1, 0x0, 1, 0, 6, .rw, 0x0⟩
/-- Set registered -/
def CKP_SET_DATA0_VALID : Fld := ⟨0x1800120, 0x0, 1, 0x0, 1, 8, 1, .ro, 0x0⟩
/-- Parity enabled -/
def CKP_SET_DATA0_PARITY : Fld := ⟨0x1800120, 0x0, 1, 0x0, 1, 9, 1, .rw, 0x0⟩
/-- Member index, 0–9 -/
def CKP_SET_DATA0_SELF : Fld := ⟨0x1800120, 0x0, 1, 0x0, 1, 10, 4, .rw, 0x0⟩
/-- 1 or 10 -/
def CKP_SET_DATA0_MEMBERS : Fld := ⟨0x1800120, 0x0, 1, 0x0, 1, 16, 4, .rw, 0x0⟩
/-- Slot size, 64 KiB units -/
def CKP_SET_DATA1_SLOT_UNITS : Fld := ⟨0x1800124, 0x0, 1, 0x0, 1, 0, 30, .rw, 0x0⟩
/-- Member m home id -/
def CKP_SET_M_HOME : Fld := ⟨0x1800128, 0x10, 10, 0x0, 1, 0, 12, .rw, 0x0⟩
/-- Member m area region and key tag -/
def CKP_SET_M_REGION : Fld := ⟨0x180012C, 0x10, 10, 0x0, 1, 0, 16, .rw, 0x0⟩
/-- Member m area region and key tag -/
def CKP_SET_M_KEY : Fld := ⟨0x180012C, 0x10, 10, 0x0, 1, 16, 16, .rw, 0x0⟩
/-- Member m AREA, local address [45:0]; the second word bits [13:0] -/
def CKP_SET_M_AREA_LO : Fld := ⟨0x1800130, 0x10, 10, 0x0, 1, 0, 32, .rw, 0x0⟩
/-- Member m AREA, local address [45:0]; the second word bits [13:0] -/
def CKP_SET_M_AREA_HI : Fld := ⟨0x1800134, 0x10, 10, 0x0, 1, 0, 32, .rw, 0x0⟩
/-- D of R320, low then high -/
def CKP_SET_DATA42 : Fld := ⟨0x18001C8, 0x0, 1, 0x0, 1, 0, 32, .ro, 0x0⟩
/-- D of R320, low then high -/
def CKP_SET_DATA43 : Fld := ⟨0x18001CC, 0x0, 1, 0x0, 1, 0, 32, .ro, 0x0⟩
/-- STATE of slots 0 and 1 -/
def CKP_SET_DATA44_STATE0 : Fld := ⟨0x18001D0, 0x0, 1, 0x0, 1, 0, 8, .ro, 0x0⟩
/-- STATE of slots 0 and 1 -/
def CKP_SET_DATA44_STATE1 : Fld := ⟨0x18001D0, 0x0, 1, 0x0, 1, 8, 8, .ro, 0x0⟩

/-! R365, 11_switch_core.md -/
/-- Cells set aside per egress queue, 64–2,048 -/
def XBR_QLIM_CELLS : Fld := ⟨0x2400000, 0x0, 1, 0x0, 1, 0, 14, .rwq, 0x400⟩
/-- Ingress cells guaranteed per port -/
def XBR_IN_MIN_CELLS : Fld := ⟨0x2400004, 0x0, 1, 0x0, 1, 0, 16, .rwq, 0x400⟩
/-- Ingress cells a port may hold -/
def XBR_IN_MAX_CELLS : Fld := ⟨0x2400008, 0x0, 1, 0x0, 1, 0, 18, .rwq, 0x8000⟩
/-- Unreserved ingress cells free on PD0, PD1 -/
def XBR_BUF_FREE_CELLS : Fld := ⟨0x240000C, 0x4, 2, 0x0, 1, 0, 18, .ro, 0x0⟩
/-- Longest level-0 wait of R346 since the last read -/
def XBR_RT_WAIT_MAX_XCLK : Fld := ⟨0x2400014, 0x0, 1, 0x0, 1, 0, 16, .rc, 0x0⟩
/-- Internal packets discarded (R363) -/
def XBR_DROP_INTERNAL : Fld := ⟨0x2400018, 0x0, 1, 0x0, 1, 0, 32, .rc, 0x0⟩
/-- R363 cause 14 -/
def XBR_DROP_NOREQ : Fld := ⟨0x240001C, 0x0, 1, 0x0, 1, 0, 32, .rc, 0x0⟩
/-- R363 cause 15 -/
def XBR_DROP_EXEC_CRC : Fld := ⟨0x2400020, 0x0, 1, 0x0, 1, 0, 32, .rc, 0x0⟩
/-- Capture ring on (R361) -/
def XBR_CAP_CTL_ENABLE : Fld := ⟨0x2400040, 0x0, 1, 0x0, 1, 0, 1, .rw, 0x0⟩
/-- 0 overwrite; 1 stop -/
def XBR_CAP_CTL_MODE : Fld := ⟨0x2400040, 0x0, 1, 0x0, 1, 1, 1, .rw, 0x0⟩
/-- Ring being created and zero-filled -/
def XBR_CAP_CTL_BUSY : Fld := ⟨0x2400040, 0x0, 1, 0x0, 1, 2, 1, .ro, 0x0⟩
/-- Records 2^LOG2, 10–24 -/
def XBR_CAP_CTL_LOG2 : Fld := ⟨0x2400040, 0x0, 1, 0x0, 1, 8, 5, .rw, 0xA⟩
/-- Fen charged for the ring -/
def XBR_CAP_FEN_FEN : Fld := ⟨0x2400044, 0x0, 1, 0x0, 1, 0, 6, .rw, 0x0⟩
/-- Region of the ring -/
def XBR_CAP_REGION_REGION : Fld := ⟨0x2400048, 0x0, 1, 0x0, 1, 0, 16, .rw, 0x0⟩
/-- Ring local address [45:0]; LO bits [15:0] ignored; HI bits [13:0] -/
def XBR_CAP_BASE_LO : Fld := ⟨0x240004C, 0x0, 1, 0x0, 1, 0, 32, .rw, 0x0⟩
/-- Ring local address [45:0]; LO bits [15:0] ignored; HI bits [13:0] -/
def XBR_CAP_BASE_HI : Fld := ⟨0x2400050, 0x0, 1, 0x0, 1, 0, 32, .rw, 0x0⟩
/-- R12 code of the last ENABLE -/
def XBR_CAP_STATUS_STATUS : Fld := ⟨0x2400054, 0x0, 1, 0x0, 1, 0, 8, .ro, 0x0⟩
/-- The last ENABLE has ended -/
def XBR_CAP_STATUS_DONE : Fld := ⟨0x2400054, 0x0, 1, 0x0, 1, 8, 1, .w1c, 0x0⟩
/-- Records performed since enable -/
def XBR_CAP_WR_INDEX : Fld := ⟨0x2400058, 0x0, 1, 0x0, 1, 0, 32, .ro, 0x0⟩
/-- Reader's index, used in stop mode -/
def XBR_CAP_RD_INDEX : Fld := ⟨0x240005C, 0x0, 1, 0x0, 1, 0, 32, .rw, 0x0⟩
/-- Captures lost (R362) -/
def XBR_CAP_LOST : Fld := ⟨0x2400060, 0x0, 1, 0x0, 1, 0, 32, .rc, 0x0⟩

/-! R366, 11_switch_core.md -/
/-- Sampling interval of R359; 0 off -/
def XBR_P_SAMPLE_N : Fld := ⟨0x2410000, 0x400, 32, 0x0, 1, 0, 24, .rw, 0x0⟩
/-- Ingress cells held by the port -/
def XBR_P_IN_CELLS : Fld := ⟨0x2410004, 0x400, 32, 0x0, 1, 0, 18, .ro, 0x0⟩
/-- Depth of queues 2k and 2k + 1, cells -/
def XBR_P_QD_EVEN : Fld := ⟨0x2410010, 0x400, 32, 0x4, 4, 0, 16, .ro, 0x0⟩
/-- Depth of queues 2k and 2k + 1, cells -/
def XBR_P_QD_ODD : Fld := ⟨0x2410010, 0x400, 32, 0x4, 4, 16, 16, .ro, 0x0⟩
/-- Largest depth since the last read -/
def XBR_P_QMAX_EVEN : Fld := ⟨0x2410020, 0x400, 32, 0x4, 4, 0, 16, .rc, 0x0⟩
/-- Largest depth since the last read -/
def XBR_P_QMAX_ODD : Fld := ⟨0x2410020, 0x400, 32, 0x4, 4, 16, 16, .rc, 0x0⟩
/-- RX packets of class c -/
def XBR_P_RXPKT_LO : Fld := ⟨0x2410040, 0x400, 32, 0x20, 4, 0, 32, .ro, 0x0⟩
/-- RX packets of class c -/
def XBR_P_RXPKT_HI : Fld := ⟨0x2410044, 0x400, 32, 0x20, 4, 0, 32, .ro, 0x0⟩
/-- RX bytes of class c -/
def XBR_P_RXBYTE_LO : Fld := ⟨0x2410048, 0x400, 32, 0x20, 4, 0, 32, .ro, 0x0⟩
/-- RX bytes of class c -/
def XBR_P_RXBYTE_HI : Fld := ⟨0x241004C, 0x400, 32, 0x20, 4, 0, 32, .ro, 0x0⟩
/-- TX packets of class c -/
def XBR_P_TXPKT_LO : Fld := ⟨0x2410050, 0x400, 32, 0x20, 4, 0, 32, .ro, 0x0⟩
/-- TX packets of class c -/
def XBR_P_TXPKT_HI : Fld := ⟨0x2410054, 0x400, 32, 0x20, 4, 0, 32, .ro, 0x0⟩
/-- TX bytes of class c -/
def XBR_P_TXBYTE_LO : Fld := ⟨0x2410058, 0x400, 32, 0x20, 4, 0, 32, .ro, 0x0⟩
/-- TX bytes of class c -/
def XBR_P_TXBYTE_HI : Fld := ⟨0x241005C, 0x400, 32, 0x20, 4, 0, 32, .ro, 0x0⟩
/-- Credit-stall XCLK -/
def XBR_P_CSTALL_LO : Fld := ⟨0x24100C0, 0x400, 32, 0x0, 1, 0, 32, .ro, 0x0⟩
/-- Credit-stall XCLK -/
def XBR_P_CSTALL_HI : Fld := ⟨0x24100C4, 0x400, 32, 0x0, 1, 0, 32, .ro, 0x0⟩
/-- Scheduler-stall XCLK -/
def XBR_P_SSTALL_LO : Fld := ⟨0x24100C8, 0x400, 32, 0x0, 1, 0, 32, .ro, 0x0⟩
/-- Scheduler-stall XCLK -/
def XBR_P_SSTALL_HI : Fld := ⟨0x24100CC, 0x400, 32, 0x0, 1, 0, 32, .ro, 0x0⟩
/-- R363 cause 7 -/
def XBR_P_DROP_NOCLIENT : Fld := ⟨0x24100D0, 0x400, 32, 0x0, 1, 0, 32, .rc, 0x0⟩
/-- Cause 8 -/
def XBR_P_DROP_NOROUTE : Fld := ⟨0x24100D4, 0x400, 32, 0x0, 1, 0, 32, .rc, 0x0⟩
/-- Cause 9 -/
def XBR_P_DROP_MATCH : Fld := ⟨0x24100D8, 0x400, 32, 0x0, 1, 0, 32, .rc, 0x0⟩
/-- Cause 10 -/
def XBR_P_DROP_DEAD : Fld := ⟨0x24100DC, 0x400, 32, 0x0, 1, 0, 32, .rc, 0x0⟩
/-- Cause 11 -/
def XBR_P_DROP_BUF : Fld := ⟨0x24100E0, 0x400, 32, 0x0, 1, 0, 32, .rc, 0x0⟩

/-! R367, 11_switch_core.md -/
/-- Home id (TABLE 0) or match INDEX (TABLE 1) -/
def RTE_INDEX_INDEX : Fld := ⟨0x2600000, 0x0, 1, 0x0, 1, 0, 12, .rw, 0x0⟩
/-- 0 route; 1 match; 2 seed; 3 MALFORMED -/
def RTE_INDEX_TABLE : Fld := ⟨0x2600000, 0x0, 1, 0x0, 1, 12, 2, .rw, 0x0⟩
/-- READ only: 0 active; 1 shadow -/
def RTE_INDEX_BANK : Fld := ⟨0x2600000, 0x0, 1, 0x0, 1, 16, 1, .rw, 0x0⟩
/-- 1 READ; 2 WRITE; 3 COPY; 4 SWAP; 5 SWAP_AT; 6 CANCEL; others MALFORMED -/
def RTE_OP_CODE : Fld := ⟨0x2600004, 0x0, 1, 0x0, 1, 0, 4, .rw, 0x0⟩
/-- Start CODE -/
def RTE_OP_GO : Fld := ⟨0x2600004, 0x0, 1, 0x0, 1, 8, 1, .w1s, 0x0⟩
/-- COPY or swap preparation in progress -/
def RTE_OP_BUSY : Fld := ⟨0x2600004, 0x0, 1, 0x0, 1, 9, 1, .ro, 0x0⟩
/-- A swap is pending (R357) -/
def RTE_OP_PENDING : Fld := ⟨0x2600004, 0x0, 1, 0x0, 1, 10, 1, .ro, 0x0⟩
/-- SWAP and SWAP_AT build every map afresh (R358) -/
def RTE_OP_REBUILD : Fld := ⟨0x2600004, 0x0, 1, 0x0, 1, 12, 1, .rw, 0x0⟩
/-- R12 code of the last operation -/
def RTE_STATUS_STATUS : Fld := ⟨0x2600008, 0x0, 1, 0x0, 1, 0, 8, .ro, 0x0⟩
/-- The last operation has ended -/
def RTE_STATUS_DONE : Fld := ⟨0x2600008, 0x0, 1, 0x0, 1, 8, 1, .w1c, 0x0⟩
/-- Physical bank now active -/
def RTE_ACTIVE_BANK : Fld := ⟨0x260000C, 0x0, 1, 0x0, 1, 0, 1, .ro, 0x0⟩
/-- Tabor time for SWAP_AT, ns -/
def RTE_SWAP_TIME_LO : Fld := ⟨0x2600010, 0x0, 1, 0x0, 1, 0, 32, .rw, 0x0⟩
/-- Tabor time for SWAP_AT, ns -/
def RTE_SWAP_TIME_HI : Fld := ⟨0x2600014, 0x0, 1, 0x0, 1, 0, 32, .rw, 0x0⟩
/-- Swaps taken effect -/
def RTE_CNT_SWAP : Fld := ⟨0x2600018, 0x0, 1, 0x0, 1, 0, 32, .rc, 0x0⟩
/-- Buckets moved by R355 in the active bank -/
def RTE_CNT_REPIN : Fld := ⟨0x260001C, 0x0, 1, 0x0, 1, 0, 32, .rc, 0x0⟩
/-- Entry record -/
def RTE_DATA : Fld := ⟨0x2600020, 0x4, 4, 0x0, 1, 0, 32, .rw, 0x0⟩
/-- Bucket map after READ: byte b is the port of bucket b; 0xFF when the entry has no map -/
def RTE_MAP : Fld := ⟨0x2600040, 0x4, 16, 0x0, 1, 0, 32, .ro, 0x0⟩

/-! R394, 12_shaping_time_gates.md -/
/-- Tabor time (R379) -/
def GATE_TT_NOW_LO : Fld := ⟨0x2800000, 0x0, 1, 0x0, 1, 0, 32, .ro, 0x0⟩
/-- Tabor time (R379) -/
def GATE_TT_NOW_HI : Fld := ⟨0x2800004, 0x0, 1, 0x0, 1, 0, 32, .ro, 0x0⟩
/-- Tabor time (R379) -/
def GATE_TT_NOW_FRAC : Fld := ⟨0x2800008, 0x0, 1, 0x0, 1, 0, 32, .ro, 0x0⟩
/-- Source (R380); 3 is stored as 0 -/
def GATE_TT_CTL_SRC : Fld := ⟨0x280000C, 0x0, 1, 0x0, 1, 0, 2, .rw, 0x0⟩
/-- Steps allowed (R381) -/
def GATE_TT_CTL_STEP_EN : Fld := ⟨0x280000C, 0x0, 1, 0x0, 1, 2, 1, .rw, 0x1⟩
/-- PPS output on (R387) -/
def GATE_TT_CTL_PPS_OUT : Fld := ⟨0x280000C, 0x0, 1, 0x0, 1, 3, 1, .rw, 0x0⟩
/-- Source port -/
def GATE_TT_CTL_SRC_PORT : Fld := ⟨0x280000C, 0x0, 1, 0x0, 1, 8, 5, .rw, 0x0⟩
/-- Proportional shift -/
def GATE_TT_CTL_KP : Fld := ⟨0x280000C, 0x0, 1, 0x0, 1, 16, 4, .rw, 0x2⟩
/-- Integral shift -/
def GATE_TT_CTL_KI : Fld := ⟨0x280000C, 0x0, 1, 0x0, 1, 20, 4, .rw, 0x5⟩
/-- Present INC, 2^−32 ns -/
def GATE_TT_INC_FRAC : Fld := ⟨0x2800010, 0x0, 1, 0x0, 1, 0, 32, .ro, 0xD5555555⟩
/-- Slew clamp, 1–500,000 ppb; larger values are stored as 500,000 -/
def GATE_TT_MAXPPB_PPB : Fld := ⟨0x2800014, 0x0, 1, 0x0, 1, 0, 20, .rw, 0x186A0⟩
/-- Step threshold -/
def GATE_TT_STEP_THR_NS : Fld := ⟨0x2800018, 0x0, 1, 0x0, 1, 0, 32, .rw, 0x3E8⟩
/-- LOCK_NS -/
def GATE_TT_LOCK_NS : Fld := ⟨0x280001C, 0x0, 1, 0x0, 1, 0, 16, .rw, 0xA⟩
/-- REQ and holdover period; 0 is stored as 1 -/
def GATE_TT_PERIOD_US : Fld := ⟨0x2800020, 0x0, 1, 0x0, 1, 0, 16, .rw, 0x7D⟩
/-- 0 FREERUN; 1 ACQUIRE; 2 LOCKED; 3 HOLDOVER -/
def GATE_TT_STAT_STATE : Fld := ⟨0x2800024, 0x0, 1, 0x0, 1, 0, 2, .ro, 0x0⟩
/-- STEPS this switch sends (R384) -/
def GATE_TT_STAT_STEPS : Fld := ⟨0x2800024, 0x0, 1, 0x0, 1, 8, 8, .ro, 0xFF⟩
/-- SOURCE home id; valid when STEPS < 0xFF -/
def GATE_TT_STAT_SOURCE : Fld := ⟨0x2800024, 0x0, 1, 0x0, 1, 16, 12, .ro, 0x0⟩
/-- Last accepted θ, signed -/
def GATE_TT_OFFSET_NS : Fld := ⟨0x2800028, 0x0, 1, 0x0, 1, 0, 32, .ro, 0x0⟩
/-- adj, signed -/
def GATE_TT_ADJ_PPB : Fld := ⟨0x280002C, 0x0, 1, 0x0, 1, 0, 32, .ro, 0x0⟩
/-- HOST sample θ, signed -/
def GATE_TT_SAMPLE_NS : Fld := ⟨0x2800030, 0x0, 1, 0x0, 1, 0, 32, .wo, 0x0⟩
/-- Set tabor time; the write of HI acts (R380) -/
def GATE_TT_SET_LO : Fld := ⟨0x2800034, 0x0, 1, 0x0, 1, 0, 32, .wo, 0x0⟩
/-- Set tabor time; the write of HI acts (R380) -/
def GATE_TT_SET_HI : Fld := ⟨0x2800038, 0x0, 1, 0x0, 1, 0, 32, .wo, 0x0⟩
/-- Run one PTM dialogue -/
def GATE_TT_PTM_CTL_GO : Fld := ⟨0x280003C, 0x0, 1, 0x0, 1, 0, 1, .w1s, 0x0⟩
/-- The last dialogue got no response within 10 µs -/
def GATE_TT_PTM_CTL_FAIL : Fld := ⟨0x280003C, 0x0, 1, 0x0, 1, 1, 1, .ro, 0x0⟩
/-- Tabor times of request and response -/
def GATE_TT_PTM_T1_LO : Fld := ⟨0x2800040, 0x0, 1, 0x0, 1, 0, 32, .ro, 0x0⟩
/-- Tabor times of request and response -/
def GATE_TT_PTM_T1_HI : Fld := ⟨0x2800044, 0x0, 1, 0x0, 1, 0, 32, .ro, 0x0⟩
/-- Tabor times of request and response -/
def GATE_TT_PTM_T4_LO : Fld := ⟨0x2800048, 0x0, 1, 0x0, 1, 0, 32, .ro, 0x0⟩
/-- Tabor times of request and response -/
def GATE_TT_PTM_T4_HI : Fld := ⟨0x280004C, 0x0, 1, 0x0, 1, 0, 32, .ro, 0x0⟩
/-- Master time from the response -/
def GATE_TT_PTM_MT_LO : Fld := ⟨0x2800050, 0x0, 1, 0x0, 1, 0, 32, .ro, 0x0⟩
/-- Master time from the response -/
def GATE_TT_PTM_MT_HI : Fld := ⟨0x2800054, 0x0, 1, 0x0, 1, 0, 32, .ro, 0x0⟩
/-- Propagation delay from the response -/
def GATE_TT_PTM_PD_NS : Fld := ⟨0x2800058, 0x0, 1, 0x0, 1, 0, 32, .ro, 0x0⟩
/-- Tabor time of the last PPS input edge -/
def GATE_TT_PPS_IN_LO : Fld := ⟨0x2800060, 0x0, 1, 0x0, 1, 0, 32, .ro, 0x0⟩
/-- Tabor time of the last PPS input edge -/
def GATE_TT_PPS_IN_HI : Fld := ⟨0x2800064, 0x0, 1, 0x0, 1, 0, 32, .ro, 0x0⟩
/-- Steps -/
def GATE_TT_CNT_STEP : Fld := ⟨0x2800070, 0x0, 1, 0x0, 1, 0, 32, .rc, 0x0⟩
/-- Accepted samples -/
def GATE_TT_CNT_SAMPLE : Fld := ⟨0x2800074, 0x0, 1, 0x0, 1, 0, 32, .rc, 0x0⟩
/-- Rejected or unanswered exchanges (R385) -/
def GATE_TT_CNT_REJECT : Fld := ⟨0x2800078, 0x0, 1, 0x0, 1, 0, 32, .rc, 0x0⟩

/-! R395, 12_shaping_time_gates.md -/
/-- Active bank -/
def GATE_P_STAT_BANK : Fld := ⟨0x2810000, 0x100, 32, 0x0, 1, 0, 1, .ro, 0x0⟩
/-- Take-over pending (R377) -/
def GATE_P_STAT_PENDING : Fld := ⟨0x2810000, 0x100, 32, 0x0, 1, 1, 1, .ro, 0x0⟩
/-- PORT_TIME_FAULT (R393) -/
def GATE_P_STAT_FAULT : Fld := ⟨0x2810000, 0x100, 32, 0x0, 1, 2, 1, .w1c, 0x0⟩
/-- 0 ACTIVE; 1 DOZE; 2 SLEEP; 3 waking -/
def GATE_P_STAT_PWR : Fld := ⟨0x2810000, 0x100, 32, 0x0, 1, 4, 2, .ro, 0x0⟩
/-- Current entry of the active list -/
def GATE_P_STAT_ENTRY : Fld := ⟨0x2810000, 0x100, 32, 0x0, 1, 8, 8, .ro, 0x0⟩
/-- Cycles of the active list since its take-over, wrapping -/
def GATE_P_CYCLES : Fld := ⟨0x2810004, 0x100, 32, 0x0, 1, 0, 32, .ro, 0x0⟩
/-- Take-over time of the pending list, ns -/
def GATE_P_START_LO : Fld := ⟨0x2810008, 0x100, 32, 0x0, 1, 0, 32, .ro, 0x0⟩
/-- Take-over time of the pending list, ns -/
def GATE_P_START_HI : Fld := ⟨0x281000C, 0x100, 32, 0x0, 1, 0, 32, .ro, 0x0⟩
/-- Send REQs each period (R384) -/
def GATE_P_TIME_PROBE : Fld := ⟨0x2810010, 0x100, 32, 0x0, 1, 0, 1, .rw, 0x0⟩
/-- ASYM, signed -/
def GATE_P_ASYM_NS : Fld := ⟨0x2810014, 0x100, 32, 0x0, 1, 0, 16, .rw, 0x0⟩
/-- Last θ on this port, signed -/
def GATE_P_TOFF_NS : Fld := ⟨0x2810018, 0x100, 32, 0x0, 1, 0, 32, .ro, 0x0⟩
/-- Last δ -/
def GATE_P_TDELAY_NS : Fld := ⟨0x281001C, 0x100, 32, 0x0, 1, 0, 16, .ro, 0x0⟩
/-- 0 off; 1 DOZE; 2 SLEEP; 3 is stored as 0 -/
def GATE_P_PWR_AUTO : Fld := ⟨0x2810020, 0x100, 32, 0x0, 1, 0, 2, .rw, 0x0⟩
/-- Accept partners' SLEEPs -/
def GATE_P_PWR_ACCEPT : Fld := ⟨0x2810020, 0x100, 32, 0x0, 1, 2, 1, .rw, 0x0⟩
/-- Propose the explicit sleep once (R391) -/
def GATE_P_PWR_REQ : Fld := ⟨0x2810020, 0x100, 32, 0x0, 1, 3, 1, .w1s, 0x0⟩
/-- STATE of the explicit sleep -/
def GATE_P_PWR_STATE : Fld := ⟨0x2810020, 0x100, 32, 0x0, 1, 4, 2, .rw, 0x1⟩
/-- E and W of the explicit sleep, ns -/
def GATE_P_PWR_E_LO : Fld := ⟨0x2810028, 0x100, 32, 0x0, 1, 0, 32, .rw, 0x0⟩
/-- E and W of the explicit sleep, ns -/
def GATE_P_PWR_E_HI : Fld := ⟨0x281002C, 0x100, 32, 0x0, 1, 0, 32, .rw, 0x0⟩
/-- E and W of the explicit sleep, ns -/
def GATE_P_PWR_W_LO : Fld := ⟨0x2810030, 0x100, 32, 0x0, 1, 0, 32, .rw, 0x0⟩
/-- E and W of the explicit sleep, ns -/
def GATE_P_PWR_W_HI : Fld := ⟨0x2810034, 0x100, 32, 0x0, 1, 0, 32, .rw, 0x0⟩
/-- Head packets held by the gate rule at least once -/
def GATE_P_CNT_FITWAIT : Fld := ⟨0x2810040, 0x100, 32, 0x0, 1, 0, 32, .rc, 0x0⟩
/-- R363 cause 13 (R376) -/
def GATE_P_DROP_GATE : Fld := ⟨0x2810044, 0x100, 32, 0x0, 1, 0, 32, .rc, 0x0⟩
/-- Packets that ran past a close (R378) -/
def GATE_P_CNT_OVERRUN : Fld := ⟨0x2810048, 0x100, 32, 0x0, 1, 0, 32, .rc, 0x0⟩
/-- Missed wakes -/
def GATE_P_CNT_MISSED : Fld := ⟨0x281004C, 0x100, 32, 0x0, 1, 0, 32, .rc, 0x0⟩
/-- Entries into DOZE or SLEEP -/
def GATE_P_CNT_SLEEP : Fld := ⟨0x2810050, 0x100, 32, 0x0, 1, 0, 32, .rc, 0x0⟩
/-- SLEEP_NAKs sent or received -/
def GATE_P_CNT_NAK : Fld := ⟨0x2810054, 0x100, 32, 0x0, 1, 0, 32, .rc, 0x0⟩
/-- TIME packets discarded (R383) -/
def GATE_P_TIME_BAD : Fld := ⟨0x2810058, 0x100, 32, 0x0, 1, 0, 32, .rc, 0x0⟩
/-- R363 cause 6 on this ingress port -/
def SHP_P_DROP_POLICE : Fld := ⟨0x281005C, 0x100, 32, 0x0, 1, 0, 32, .rc, 0x0⟩
/-- Shaper credit of queue q; 0 for an unshaped queue -/
def SHP_P_CREDIT_BYTES : Fld := ⟨0x2810060, 0x100, 32, 0x4, 8, 0, 25, .ro, 0x0⟩

/-! R396, 12_shaping_time_gates.md -/
/-- Client -/
def SHP_POL_INDEX_CLID : Fld := ⟨0x2820000, 0x0, 1, 0x0, 1, 0, 12, .rw, 0x0⟩
/-- Class c -/
def SHP_POL_INDEX_CLASS : Fld := ⟨0x2820000, 0x0, 1, 0x0, 1, 12, 2, .rw, 0x0⟩
/-- Read policer (CLID, c) -/
def SHP_POL_OP_GO : Fld := ⟨0x2820004, 0x0, 1, 0x0, 1, 0, 1, .w1s, 0x0⟩
/-- R12 code of the last read -/
def SHP_POL_STATUS_STATUS : Fld := ⟨0x2820008, 0x0, 1, 0x0, 1, 0, 8, .ro, 0x0⟩
/-- The read has ended -/
def SHP_POL_STATUS_DONE : Fld := ⟨0x2820008, 0x0, 1, 0x0, 1, 8, 1, .w1c, 0x0⟩
/-- RATE_c -/
def SHP_POL_RATE_MBPS : Fld := ⟨0x2820020, 0x0, 1, 0x0, 1, 0, 32, .ro, 0x0⟩
/-- BURST_c -/
def SHP_POL_BURST_BYTES : Fld := ⟨0x2820024, 0x0, 1, 0x0, 1, 0, 25, .ro, 0x0⟩
/-- b, whole bytes, as of the read -/
def SHP_POL_TOKENS_BYTES : Fld := ⟨0x2820028, 0x0, 1, 0x0, 1, 0, 25, .ro, 0x0⟩
/-- Packets passed -/
def SHP_POL_PASS : Fld := ⟨0x282002C, 0x0, 1, 0x0, 1, 0, 32, .ro, 0x0⟩
/-- Packets dropped with cause POLICE -/
def SHP_POL_DROP : Fld := ⟨0x2820030, 0x0, 1, 0x0, 1, 0, 32, .ro, 0x0⟩

/-! R418, 13_coherence_arbitration.md -/
/-- Bit i: the agent at ring position i sends heartbeats (R398) -/
def COH_STAT_ALIVE : Fld := ⟨0x3000000, 0x0, 1, 0x0, 1, 0, 10, .ro, 0x0⟩
/-- The domain is down -/
def COH_STAT_DOWN : Fld := ⟨0x3000000, 0x0, 1, 0x0, 1, 16, 1, .ro, 0x0⟩
/-- MH's copy, equal to COH_FATAL_DIE11.CAUSE: 0 none; 1 uncorrectable flit or ring lanes; 2 agent dead; 3 … -/
def COH_FATAL_CAUSE : Fld := ⟨0x3000004, 0x0, 1, 0x0, 1, 0, 4, .ro, 0x0⟩
/-- Ring position of the detection, in MH's copy -/
def COH_FATAL_AGENT : Fld := ⟨0x3000004, 0x0, 1, 0x0, 1, 8, 4, .ro, 0x0⟩
/-- Cause latched by die d (R410), with dies numbered as ARB_WD_LAST.DIE; codes as COH_FATAL.CAUSE -/
def COH_FATAL_DIE_CAUSE : Fld := ⟨0x3000060, 0x4, 12, 0x0, 1, 0, 4, .ro, 0x0⟩
/-- Ring position that die d latched -/
def COH_FATAL_DIE_AGENT : Fld := ⟨0x3000060, 0x4, 12, 0x0, 1, 8, 4, .ro, 0x0⟩
/-- Largest retry count of one request since the last read, 0–9 -/
def COH_RETRY_MAX_COUNT : Fld := ⟨0x3000008, 0x0, 1, 0x0, 1, 0, 4, .rc, 0x0⟩
/-- Longest transaction since the last read -/
def COH_TXN_MAX_HCLK : Fld := ⟨0x300000C, 0x0, 1, 0x0, 1, 0, 16, .rc, 0x0⟩
/-- Transactions completed -/
def COH_CNT_TXN : Fld := ⟨0x3000010, 0x0, 1, 0x0, 1, 0, 32, .rc, 0x0⟩
/-- RETRY responses given -/
def COH_CNT_RETRY : Fld := ⟨0x3000014, 0x0, 1, 0x0, 1, 0, 32, .rc, 0x0⟩
/-- Flit words corrected -/
def COH_CNT_ECC_CORR : Fld := ⟨0x3000018, 0x0, 1, 0x0, 1, 0, 32, .rc, 0x0⟩
/-- RD_NA and WR_NA completed -/
def COH_CNT_NA : Fld := ⟨0x300001C, 0x0, 1, 0x0, 1, 0, 32, .rc, 0x0⟩
/-- WBs performed -/
def COH_CNT_WB : Fld := ⟨0x3000020, 0x0, 1, 0x0, 1, 0, 32, .rc, 0x0⟩
/-- Line number in the control SRAM, 0–491,519 (60 MiB of 128-byte lines), for the state read; a larger value … -/
def COH_LINE_ADDR_LINE : Fld := ⟨0x3000040, 0x0, 1, 0x0, 1, 0, 19, .rw, 0x0⟩
/-- Read the line's state at every agent; completes within 2 µs; no side effects -/
def COH_LINE_OP_GO : Fld := ⟨0x3000044, 0x0, 1, 0x0, 1, 0, 1, .w1s, 0x0⟩
/-- Bits [2i+1:2i]: state (R399) at ring position i; position 9 reads 0 -/
def COH_LINE_STATE_STATE : Fld := ⟨0x3000048, 0x0, 1, 0x0, 1, 0, 20, .ro, 0x0⟩

/-! R419, 13_coherence_arbitration.md -/
/-- Resource code of the last bite (R411) -/
def ARB_WD_LAST_RESOURCE : Fld := ⟨0x3001000, 0x0, 1, 0x0, 1, 0, 4, .ro, 0x0⟩
/-- Instance within its die, numbered as in the table below -/
def ARB_WD_LAST_INSTANCE : Fld := ⟨0x3001000, 0x0, 1, 0x0, 1, 4, 12, .ro, 0x0⟩
/-- 0–7 CD0–CD7; 8 PD0; 9 PD1; 10 XH; 11 MH -/
def ARB_WD_LAST_DIE : Fld := ⟨0x3001000, 0x0, 1, 0x0, 1, 16, 4, .ro, 0x0⟩
/-- Requester number in the order that R411 lists -/
def ARB_WD_LAST_OWNER : Fld := ⟨0x3001000, 0x0, 1, 0x0, 1, 20, 4, .ro, 0x0⟩

/-! R440, 14_security.md -/
/-- R421 -/
def SEC_LIFE_STATE : Fld := ⟨0x30000, 0x0, 1, 0x0, 1, 0, 2, .ro, 0x1⟩
/-- R438 -/
def SEC_LIFE_DEBUG : Fld := ⟨0x30000, 0x0, 1, 0x0, 1, 4, 2, .ro, 0x0⟩
/-- Firmware security version floor -/
def SEC_LIFE_FW_SVN : Fld := ⟨0x30000, 0x0, 1, 0x0, 1, 8, 16, .ro, 0x0⟩
/-- R422, as loaded from flash at boot -/
def SEC_CUST_STATE : Fld := ⟨0x30004, 0x0, 1, 0x0, 1, 0, 2, .ro, 0x0⟩
/-- Custodian changes since DEPLOYED; saturates at 0xFFFF -/
def SEC_CUST_CHANGES : Fld := ⟨0x30004, 0x0, 1, 0x0, 1, 16, 16, .ro, 0x0⟩
/-- SPDM sessions open, 0–4 -/
def SEC_SESS_ACTIVE : Fld := ⟨0x30008, 0x0, 1, 0x0, 1, 0, 3, .ro, 0x0⟩
/-- A CUSTODIAN session is open -/
def SEC_SESS_CUST : Fld := ⟨0x30008, 0x0, 1, 0x0, 1, 3, 1, .ro, 0x0⟩
/-- An OPERATOR session is open -/
def SEC_SESS_OPER : Fld := ⟨0x30008, 0x0, 1, 0x0, 1, 4, 1, .ro, 0x0⟩
/-- A privileged operation of R428 is in progress -/
def SEC_SESS_PRIV_BUSY : Fld := ⟨0x30008, 0x0, 1, 0x0, 1, 5, 1, .ro, 0x0⟩
/-- IDE streams in the secure state, 0–3 -/
def SEC_IDE_STREAMS : Fld := ⟨0x3000C, 0x0, 1, 0x0, 1, 0, 3, .ro, 0x0⟩
/-- A stream left the secure state on an integrity failure -/
def SEC_IDE_FAIL : Fld := ⟨0x3000C, 0x0, 1, 0x0, 1, 3, 1, .w1c, 0x0⟩
/-- 0 CONFIG_UNLOCKED; 1 CONFIG_LOCKED; 2 RUN; 3 ERROR -/
def SEC_TDISP_STATE : Fld := ⟨0x30010, 0x0, 1, 0x0, 1, 0, 2, .ro, 0x0⟩
/-- Start-up tests passed; the DRBG is running -/
def SEC_TRNG_OK : Fld := ⟨0x30014, 0x0, 1, 0x0, 1, 0, 1, .ro, 0x0⟩
/-- A health test failed (R431) -/
def SEC_TRNG_FAIL : Fld := ⟨0x30014, 0x0, 1, 0x0, 1, 1, 1, .ro, 0x0⟩
/-- Reseeds since power-on, wrapping -/
def SEC_TRNG_RESEEDS : Fld := ⟨0x30014, 0x0, 1, 0x0, 1, 16, 16, .ro, 0x0⟩
/-- Bit i: CXL IDE in force on tray port FPi (R437) -/
def SEC_TRAY_IDE_PORTS : Fld := ⟨0x30018, 0x0, 1, 0x0, 1, 0, 32, .ro, 0x0⟩
/-- Bit i: sanitize pending or running on FPi (R433) -/
def SEC_TRAY_SAN_PORTS : Fld := ⟨0x3001C, 0x0, 1, 0x0, 1, 0, 32, .ro, 0x0⟩
/-- POLICY of the record in force; [0] TRAY_IDE_REQ -/
def SEC_POLICY_BITS : Fld := ⟨0x30020, 0x0, 1, 0x0, 1, 0, 32, .ro, 0x0⟩
/-- Extends of index 9 (R424); saturates -/
def SEC_MEAS_FEN_EXTENDS : Fld := ⟨0x30024, 0x0, 1, 0x0, 1, 0, 16, .ro, 0x0⟩
/-- Duration of the last scrub, µs -/
def SEC_SWITCH_MAX_US : Fld := ⟨0x30028, 0x0, 1, 0x0, 1, 0, 32, .ro, 0x0⟩
/-- Tabor time at which the last scrub ended, ns -/
def SEC_SWITCH_DONE_LO : Fld := ⟨0x3002C, 0x0, 1, 0x0, 1, 0, 32, .ro, 0x0⟩
/-- Tabor time at which the last scrub ended, ns -/
def SEC_SWITCH_DONE_HI : Fld := ⟨0x30030, 0x0, 1, 0x0, 1, 0, 32, .ro, 0x0⟩
/-- SPDM handshakes that failed authentication -/
def SEC_CNT_SESS_FAIL : Fld := ⟨0x30040, 0x0, 1, 0x0, 1, 0, 32, .rc, 0x0⟩
/-- Privileged requests answered DENIED or STATE -/
def SEC_CNT_PRIV_DENY : Fld := ⟨0x30044, 0x0, 1, 0x0, 1, 0, 32, .rc, 0x0⟩
/-- Fabric links refused by R434 -/
def SEC_CNT_LINK_AUTH : Fld := ⟨0x30048, 0x0, 1, 0x0, 1, 0, 32, .rc, 0x0⟩
/-- Entries into TDISP ERROR -/
def SEC_CNT_TDISP_ERR : Fld := ⟨0x3004C, 0x0, 1, 0x0, 1, 0, 32, .rc, 0x0⟩
/-- TLPs discarded for IDE integrity failure -/
def SEC_CNT_IDE_FAIL : Fld := ⟨0x30050, 0x0, 1, 0x0, 1, 0, 32, .rc, 0x0⟩

/-! R460, 15_faults_errors.md -/
/-- R445 -/
def FLT_FATAL_CAUSE : Fld := ⟨0x40000, 0x0, 1, 0x0, 1, 0, 4, .ro, 0x0⟩
/-- Stack for cause 4; die for causes 2 and 3; thermal sensor for cause 5 -/
def FLT_FATAL_DETAIL : Fld := ⟨0x40000, 0x0, 1, 0x0, 1, 8, 8, .ro, 0x0⟩
/-- A record of that severity was made -/
def FLT_PEND_INFO : Fld := ⟨0x40004, 0x0, 1, 0x0, 1, 0, 1, .w1c, 0x0⟩
/-- A record of that severity was made -/
def FLT_PEND_WARN : Fld := ⟨0x40004, 0x0, 1, 0x0, 1, 1, 1, .w1c, 0x0⟩
/-- A record of that severity was made -/
def FLT_PEND_ERROR : Fld := ⟨0x40004, 0x0, 1, 0x0, 1, 2, 1, .w1c, 0x0⟩
/-- A record of that severity was made -/
def FLT_PEND_FATAL : Fld := ⟨0x40004, 0x0, 1, 0x0, 1, 3, 1, .w1c, 0x0⟩
/-- ESEQ of the last record made -/
def FLT_ESEQ_LAST : Fld := ⟨0x40008, 0x0, 1, 0x0, 1, 0, 32, .ro, 0x0⟩
/-- R456; 0 disables coalescing -/
def FLT_COALESCE_US : Fld := ⟨0x4000C, 0x0, 1, 0x0, 1, 0, 16, .rw, 0x3E8⟩
/-- Chunk watchdog of R446, 1–32 µs; 0 is stored as 1, larger values as 32 -/
def FLT_CHUNK_WD_US : Fld := ⟨0x40010, 0x0, 1, 0x0, 1, 0, 6, .rw, 0x20⟩
/-- Stack patrol period, 1–255 h; 0 is stored as 1 -/
def FLT_PATROL_HOURS : Fld := ⟨0x40014, 0x0, 1, 0x0, 1, 0, 8, .rw, 0x18⟩
/-- Host event queue on (R457) -/
def FLT_EQ_CTL_ENABLE : Fld := ⟨0x40020, 0x0, 1, 0x0, 1, 0, 1, .rw, 0x0⟩
/-- 2^LOG2 records, 6–16; writes ignored while ENABLE is 1 -/
def FLT_EQ_CTL_LOG2 : Fld := ⟨0x40020, 0x0, 1, 0x0, 1, 8, 5, .rw, 0x6⟩
/-- Lowest severity written to the queue -/
def FLT_EQ_CTL_SEV_MIN : Fld := ⟨0x40020, 0x0, 1, 0x0, 1, 16, 2, .rw, 0x1⟩
/-- MSI-X moderation for INFO and WARN, 1–255 µs; 0 is stored as 1 -/
def FLT_EQ_CTL_MOD_US : Fld := ⟨0x40020, 0x0, 1, 0x0, 1, 24, 8, .rw, 0xA⟩
/-- Queue IOVA; 4 KiB aligned, LO bits [11:0] ignored; writes ignored while ENABLE is 1 -/
def FLT_EQ_BASE_LO : Fld := ⟨0x40024, 0x0, 1, 0x0, 1, 0, 32, .rw, 0x0⟩
/-- Queue IOVA; 4 KiB aligned, LO bits [11:0] ignored; writes ignored while ENABLE is 1 -/
def FLT_EQ_BASE_HI : Fld := ⟨0x40028, 0x0, 1, 0x0, 1, 0, 32, .rw, 0x0⟩
/-- Next record the switch writes, counted modulo 2^17; record i lies at slot i mod 2^LOG2 -/
def FLT_EQ_TAIL_INDEX : Fld := ⟨0x4002C, 0x0, 1, 0x0, 1, 0, 17, .ro, 0x0⟩
/-- Next record the driver reads, counted modulo 2^17 -/
def FLT_EQ_HEAD_INDEX : Fld := ⟨0x40030, 0x0, 1, 0x0, 1, 0, 17, .rw, 0x0⟩
/-- Records not written to the queue (R458) -/
def FLT_EQ_LOST : Fld := ⟨0x40034, 0x0, 1, 0x0, 1, 0, 32, .rc, 0x0⟩
/-- MSI-X vector -/
def FLT_EQ_VEC_VECTOR : Fld := ⟨0x40038, 0x0, 1, 0x0, 1, 0, 11, .rw, 0x0⟩
/-- Stack symbols corrected -/
def FLT_CNT_CE_STACK : Fld := ⟨0x40040, 0x0, 1, 0x0, 1, 0, 32, .rc, 0x0⟩
/-- Uncorrectable or poisoned granules read -/
def FLT_CNT_UE_STACK : Fld := ⟨0x40044, 0x0, 1, 0x0, 1, 0, 32, .rc, 0x0⟩
/-- SRAM words corrected, all SRAMs -/
def FLT_CNT_CE_SRAM : Fld := ⟨0x40048, 0x0, 1, 0x0, 1, 0, 32, .rc, 0x0⟩
/-- Uncorrectable SRAM words outside the control SRAM -/
def FLT_CNT_UE_SRAM : Fld := ⟨0x4004C, 0x0, 1, 0x0, 1, 0, 32, .rc, 0x0⟩
/-- Packets sent with inverted trailer (R458) -/
def FLT_CNT_UE_PKT : Fld := ⟨0x40050, 0x0, 1, 0x0, 1, 0, 32, .rc, 0x0⟩
/-- Cluster test runs passed -/
def FLT_CNT_TRANSIENT : Fld := ⟨0x40054, 0x0, 1, 0x0, 1, 0, 32, .rc, 0x0⟩
/-- Clusters mapped out -/
def FLT_CNT_MAPOUT : Fld := ⟨0x40058, 0x0, 1, 0x0, 1, 0, 32, .rc, 0x0⟩
/-- SUSPECT records -/
def FLT_CNT_SUSPECT : Fld := ⟨0x4005C, 0x0, 1, 0x0, 1, 0, 32, .rc, 0x0⟩
/-- Chunk watchdog expiries -/
def FLT_CNT_CHUNK_WD : Fld := ⟨0x40060, 0x0, 1, 0x0, 1, 0, 32, .rc, 0x0⟩
/-- Reduction instances ended CHECK_FAIL (R444) -/
def FLT_CNT_RED_CHECK : Fld := ⟨0x40064, 0x0, 1, 0x0, 1, 0, 32, .rc, 0x0⟩
/-- Inputs rejected by R459 -/
def FLT_CNT_INPUT : Fld := ⟨0x40068, 0x0, 1, 0x0, 1, 0, 32, .rc, 0x0⟩
/-- Bit n: physical cluster n of CDk mapped out -/
def FLT_CLUS_OUT_PHYS : Fld := ⟨0x40080, 0x4, 8, 0x0, 1, 0, 17, .ro, 0x0⟩
/-- Logical clusters 32i to 32i + 31 lost (R448) -/
def FLT_CLUS_LOST_MASK : Fld := ⟨0x400A0, 0x4, 4, 0x0, 1, 0, 32, .ro, 0x0⟩
/-- Logical clusters kept as a fen's last (R448) -/
def FLT_CLUS_LAST_MASK : Fld := ⟨0x400B0, 0x4, 4, 0x0, 1, 0, 32, .ro, 0x0⟩
/-- Clear map-outs and retest (R449); bring-up only -/
def FLT_MAP_OP_CLEAR : Fld := ⟨0x400C0, 0x0, 1, 0x0, 1, 0, 1, .w1s, 0x0⟩
/-- Retest in progress -/
def FLT_MAP_OP_BUSY : Fld := ⟨0x400C0, 0x0, 1, 0x0, 1, 1, 1, .ro, 0x0⟩

/-! R461, 15_faults_errors.md -/
/-- Part instance -/
def FLT_SCORE_INDEX_INSTANCE : Fld := ⟨0x40100, 0x0, 1, 0x0, 1, 0, 8, .rw, 0x0⟩
/-- Part class, 1–7 -/
def FLT_SCORE_INDEX_CLASS : Fld := ⟨0x40100, 0x0, 1, 0x0, 1, 16, 3, .rw, 0x0⟩
/-- 1 READ; 2 CLEAR; others MALFORMED -/
def FLT_SCORE_OP_CODE : Fld := ⟨0x40104, 0x0, 1, 0x0, 1, 0, 4, .rw, 0x0⟩
/-- Start CODE -/
def FLT_SCORE_OP_GO : Fld := ⟨0x40104, 0x0, 1, 0x0, 1, 8, 1, .w1s, 0x0⟩
/-- R12 code of the last operation -/
def FLT_SCORE_STATUS_STATUS : Fld := ⟨0x40108, 0x0, 1, 0x0, 1, 0, 8, .ro, 0x0⟩
/-- The last operation has ended -/
def FLT_SCORE_STATUS_DONE : Fld := ⟨0x40108, 0x0, 1, 0x0, 1, 8, 1, .w1c, 0x0⟩
/-- Score, [31:8] points, [7:0] fraction (R451) -/
def FLT_SCORE_DATA0_S : Fld := ⟨0x40120, 0x0, 1, 0x0, 1, 0, 32, .ro, 0x0⟩
/-- The part is SUSPECT -/
def FLT_SCORE_DATA1_SUSPECT : Fld := ⟨0x40124, 0x0, 1, 0x0, 1, 0, 1, .ro, 0x0⟩
/-- Weighted events since the last CLEAR; saturates at 0xFFFF -/
def FLT_SCORE_DATA1_EVENTS : Fld := ⟨0x40124, 0x0, 1, 0x0, 1, 16, 16, .ro, 0x0⟩
/-- Parts of the class now SUSPECT -/
def FLT_SCORE_DATA2_SUSPECTS : Fld := ⟨0x40128, 0x0, 1, 0x0, 1, 0, 32, .ro, 0x0⟩

/-! R462, 15_faults_errors.md -/
/-- SUSPECT threshold in points; 0 is stored as 1 -/
def FLT_SCLS_CFG_THR : Fld := ⟨0x40200, 0x4, 8, 0x0, 1, 0, 24, .rw, 0x400⟩
/-- Decay shift of R451, 8–20; values outside the range are stored as the nearest end -/
def FLT_SCLS_CFG_DECAY : Fld := ⟨0x40200, 0x4, 8, 0x0, 1, 24, 5, .rw, 0xC⟩

/-! R497, 16_carillon_management.md -/
/-- 0 off; 1 booting; 2 running; 3 lost -/
def CAR_STAT_CP0 : Fld := ⟨0x20000, 0x0, 1, 0x0, 1, 0, 2, .ro, 0x0⟩
/-- 0 off; 1 booting; 2 running; 3 lost -/
def CAR_STAT_CP1 : Fld := ⟨0x20000, 0x0, 1, 0x0, 1, 2, 2, .ro, 0x0⟩
/-- One pair runs both roles -/
def CAR_STAT_MERGED : Fld := ⟨0x20000, 0x0, 1, 0x0, 1, 4, 1, .ro, 0x0⟩
/-- R473 -/
def CAR_STAT_RECOVERY : Fld := ⟨0x20000, 0x0, 1, 0x0, 1, 5, 1, .ro, 0x0⟩
/-- Running slot: 0 A; 1 B -/
def CAR_STAT_SLOT : Fld := ⟨0x20000, 0x0, 1, 0x0, 1, 6, 1, .ro, 0x0⟩
/-- Running slot not yet confirmed -/
def CAR_STAT_TRIAL : Fld := ⟨0x20000, 0x0, 1, 0x0, 1, 7, 1, .ro, 0x0⟩
/-- 0 IDLE; 1 ERASING; 2 RECEIVING; 3 VERIFYING; 4 VERIFIED; 5 ACTIVATED -/
def CAR_STAT_UPD : Fld := ⟨0x20000, 0x0, 1, 0x0, 1, 8, 3, .ro, 0x0⟩
/-- Pair halted by the debugger -/
def CAR_STAT_HALT0 : Fld := ⟨0x20000, 0x0, 1, 0x0, 1, 12, 1, .ro, 0x0⟩
/-- Pair halted by the debugger -/
def CAR_STAT_HALT1 : Fld := ⟨0x20000, 0x0, 1, 0x0, 1, 13, 1, .ro, 0x0⟩
/-- Running FW_VERSION -/
def CAR_FW_VER_VERSION : Fld := ⟨0x20004, 0x0, 1, 0x0, 1, 0, 32, .ro, 0x0⟩
/-- SVN of the running and staged images -/
def CAR_FW_SVN_RUN : Fld := ⟨0x20008, 0x0, 1, 0x0, 1, 0, 16, .ro, 0x0⟩
/-- SVN of the running and staged images -/
def CAR_FW_SVN_STAGED : Fld := ⟨0x20008, 0x0, 1, 0x0, 1, 16, 16, .ro, 0x0⟩
/-- Boots since DEPLOYED -/
def CAR_BOOTS_COUNT : Fld := ⟨0x2000C, 0x0, 1, 0x0, 1, 0, 32, .ro, 0x0⟩
/-- Pair watchdog, 1–10,000 ms; 0 is stored as 1 -/
def CAR_WDT_MS : Fld := ⟨0x20010, 0x0, 1, 0x0, 1, 0, 14, .rw, 0x64⟩
/-- Mismatches of CP0, CP1 -/
def CAR_CNT_LS : Fld := ⟨0x20014, 0x4, 2, 0x0, 1, 0, 32, .rc, 0x0⟩
/-- Pair watchdog bites -/
def CAR_CNT_WDT : Fld := ⟨0x2001C, 0x0, 1, 0x0, 1, 0, 32, .rc, 0x0⟩
/-- Sensor of the last thermal trip; kept across warm reset -/
def CAR_TRIP_SENSOR : Fld := ⟨0x20020, 0x0, 1, 0x0, 1, 0, 8, .ro, 0x0⟩
/-- A trip is latched -/
def CAR_TRIP_VALID : Fld := ⟨0x20020, 0x0, 1, 0x0, 1, 8, 1, .ro, 0x0⟩

/-! R498, 16_carillon_management.md -/
/-- Submit the request (R476) -/
def CAR_MBX_CTL_DOORBELL : Fld := ⟨0x20040, 0x0, 1, 0x0, 1, 0, 1, .w1s, 0x0⟩
/-- Request in progress -/
def CAR_MBX_CTL_BUSY : Fld := ⟨0x20040, 0x0, 1, 0x0, 1, 1, 1, .ro, 0x0⟩
/-- Response written -/
def CAR_MBX_CTL_DONE : Fld := ⟨0x20040, 0x0, 1, 0x0, 1, 2, 1, .w1c, 0x0⟩
/-- MSI-X vector -/
def CAR_MBX_VEC_VECTOR : Fld := ⟨0x20044, 0x0, 1, 0x0, 1, 0, 11, .rw, 0x0⟩
/-- Writes and doorbells discarded while BUSY -/
def CAR_CNT_MBX_REJECT : Fld := ⟨0x20048, 0x0, 1, 0x0, 1, 0, 32, .rc, 0x0⟩
/-- Request buffer -/
def CAR_MBX_REQ : Fld := ⟨0x21000, 0x4, 1024, 0x0, 1, 0, 32, .rw, 0x0⟩
/-- Response buffer -/
def CAR_MBX_RSP : Fld := ⟨0x22000, 0x4, 1024, 0x0, 1, 0, 32, .ro, 0x0⟩
/-- A read acquires; a write of 0 by the owner releases (R489) -/
def CAR_SEM_GRANTED : Fld := ⟨0x20400, 0x4, 64, 0x0, 1, 0, 1, .rw, 0x0⟩
/-- Requester id; 0 free -/
def CAR_SEM_OWNER : Fld := ⟨0x20400, 0x4, 64, 0x0, 1, 1, 3, .ro, 0x0⟩
/-- A wait is queued -/
def CAR_SEM_WAITERS : Fld := ⟨0x20400, 0x4, 64, 0x0, 1, 4, 1, .ro, 0x0⟩
/-- Semaphore to wait for -/
def CAR_SEM_WAIT_SEM : Fld := ⟨0x20500, 0x0, 1, 0x0, 1, 0, 6, .rw, 0x0⟩
/-- Queue the wait (R490) -/
def CAR_SEM_WAIT_GO : Fld := ⟨0x20500, 0x0, 1, 0x0, 1, 8, 1, .w1s, 0x0⟩
/-- The reader's wait is queued -/
def CAR_SEM_WSTAT_PENDING : Fld := ⟨0x20504, 0x0, 1, 0x0, 1, 0, 1, .ro, 0x0⟩
/-- OK or SEM_TIMEOUT -/
def CAR_SEM_WSTAT_STATUS : Fld := ⟨0x20504, 0x0, 1, 0x0, 1, 8, 8, .ro, 0x0⟩
/-- Semaphore of the last wait -/
def CAR_SEM_WSTAT_SEM : Fld := ⟨0x20504, 0x0, 1, 0x0, 1, 16, 6, .ro, 0x0⟩
/-- SEM_TIMEOUT; 0 is stored as 1 -/
def CAR_SEM_TIMEOUT_US : Fld := ⟨0x20508, 0x0, 1, 0x0, 1, 0, 16, .rw, 0x64⟩
/-- Hold limit (R491); 0 is stored as 1 -/
def CAR_SEM_HOLD_MAX_MS : Fld := ⟨0x2050C, 0x0, 1, 0x0, 1, 0, 16, .rw, 0xA⟩
/-- MSI-X vector for waits of requester 3 -/
def CAR_SEM_VEC_VECTOR : Fld := ⟨0x20510, 0x0, 1, 0x0, 1, 0, 11, .rw, 0x0⟩
/-- Waits timed out; forced releases; writes denied -/
def CAR_CNT_SEM_TO : Fld := ⟨0x20514, 0x0, 1, 0x0, 1, 0, 32, .rc, 0x0⟩
/-- Waits timed out; forced releases; writes denied -/
def CAR_CNT_SEM_FORCED : Fld := ⟨0x20518, 0x0, 1, 0x0, 1, 0, 32, .rc, 0x0⟩
/-- Waits timed out; forced releases; writes denied -/
def CAR_CNT_SEM_DENY : Fld := ⟨0x2051C, 0x0, 1, 0x0, 1, 0, 32, .rc, 0x0⟩

/-! R499, 16_carillon_management.md -/
/-- Last good reading, signed, 1/16 °C -/
def CAR_TEMP_VALUE : Fld := ⟨0x23000, 0x4, 96, 0x0, 1, 0, 16, .ro, 0x0⟩
/-- Marked failed; last sample rejected (R459) -/
def CAR_TEMP_FAILED : Fld := ⟨0x23000, 0x4, 96, 0x0, 1, 16, 1, .ro, 0x0⟩
/-- Marked failed; last sample rejected (R459) -/
def CAR_TEMP_REJECTED : Fld := ⟨0x23000, 0x4, 96, 0x0, 1, 17, 1, .ro, 0x0⟩
/-- Last good reading, mV -/
def CAR_VMON_MV : Fld := ⟨0x23200, 0x4, 48, 0x0, 1, 0, 16, .ro, 0x0⟩
/-- Marked failed -/
def CAR_VMON_FAILED : Fld := ⟨0x23200, 0x4, 48, 0x0, 1, 16, 1, .ro, 0x0⟩
/-- P and A of R483, W -/
def CAR_PWR_P1MS : Fld := ⟨0x23300, 0x0, 1, 0x0, 1, 0, 16, .ro, 0x0⟩
/-- P and A of R483, W -/
def CAR_PWR_AVG : Fld := ⟨0x23300, 0x0, 1, 0x0, 1, 16, 16, .ro, 0x0⟩
/-- Host cap; values outside 800–1,500 are stored as the nearest end -/
def CAR_PCAP_HOST_W : Fld := ⟨0x23304, 0x0, 1, 0x0, 1, 0, 11, .rw, 0x5DC⟩
/-- Host window, ms; 0 is stored as 1; values above 1,000 are stored as 1,000 -/
def CAR_PCAP_HOST_WINDOW : Fld := ⟨0x23304, 0x0, 1, 0x0, 1, 16, 10, .rw, 0xA⟩
/-- Board controller's cap and window -/
def CAR_PCAP_BMC_W : Fld := ⟨0x23308, 0x0, 1, 0x0, 1, 0, 11, .ro, 0x5DC⟩
/-- Board controller's cap and window -/
def CAR_PCAP_BMC_WINDOW : Fld := ⟨0x23308, 0x0, 1, 0x0, 1, 16, 10, .ro, 0xA⟩
/-- Effective cap -/
def CAR_PCAP_EFF_W : Fld := ⟨0x2330C, 0x0, 1, 0x0, 1, 0, 11, .ro, 0x5DC⟩
/-- Bits [2k+1:2k]: P-state of CDk -/
def CAR_PSTATE_PS : Fld := ⟨0x23310, 0x0, 1, 0x0, 1, 0, 16, .ro, 0x0⟩
/-- Bits [2k+1:2k]: thermal stage of CDk -/
def CAR_STAGE_STAGE : Fld := ⟨0x23314, 0x0, 1, 0x0, 1, 0, 16, .ro, 0x0⟩
/-- VR_HOT asserted -/
def CAR_STAGE_VR_HOT : Fld := ⟨0x23314, 0x0, 1, 0x0, 1, 16, 1, .ro, 0x0⟩
/-- °C; a value above 100 is stored as 100 -/
def CAR_THR_T_HOT : Fld := ⟨0x23318, 0x0, 1, 0x0, 1, 0, 8, .rw, 0x64⟩
/-- °C; stored within T_HOT + 5 to 110 -/
def CAR_THR_T_CRIT : Fld := ⟨0x23318, 0x0, 1, 0x0, 1, 8, 8, .rw, 0x6E⟩
/-- 120 °C -/
def CAR_THR_T_TRIP : Fld := ⟨0x23318, 0x0, 1, 0x0, 1, 16, 8, .ro, 0x78⟩
/-- Stage rises; POWER_CAP_MISS records -/
def CAR_CNT_STAGE : Fld := ⟨0x23320, 0x0, 1, 0x0, 1, 0, 32, .rc, 0x0⟩
/-- Stage rises; POWER_CAP_MISS records -/
def CAR_CNT_CAPMISS : Fld := ⟨0x23324, 0x0, 1, 0x0, 1, 0, 32, .rc, 0x0⟩

/-! R500, 16_carillon_management.md -/
/-- Set the state to 0xFFFF_FFFF -/
def CAR_CRC_CTL_INIT : Fld := ⟨0x10000000, 0x1000, 2, 0x0, 1, 0, 1, .w1s, 0x0⟩
/-- Feed 1 byte (1 MCLK) -/
def CAR_CRC_B : Fld := ⟨0x10000004, 0x1000, 2, 0x0, 1, 0, 8, .wo, 0x0⟩
/-- Feed 2 bytes (2 MCLK) -/
def CAR_CRC_H : Fld := ⟨0x10000008, 0x1000, 2, 0x0, 1, 0, 16, .wo, 0x0⟩
/-- Feed 4 bytes (4 MCLK) -/
def CAR_CRC_W : Fld := ⟨0x1000000C, 0x1000, 2, 0x0, 1, 0, 32, .wo, 0x0⟩
/-- State XOR 0xFFFF_FFFF (R470) -/
def CAR_CRC_RESULT : Fld := ⟨0x10000010, 0x1000, 2, 0x0, 1, 0, 32, .ro, 0x0⟩
/-- Kick the pair's watchdog -/
def CAR_LWDT_KICK : Fld := ⟨0x10000020, 0x1000, 2, 0x0, 1, 0, 1, .w1s, 0x0⟩
/-- MCLK count since the pair's reset; reading LO latches HI -/
def CAR_LTIMER_LO : Fld := ⟨0x10000028, 0x1000, 2, 0x0, 1, 0, 32, .ro, 0x0⟩
/-- MCLK count since the pair's reset; reading LO latches HI -/
def CAR_LTIMER_HI : Fld := ⟨0x1000002C, 0x1000, 2, 0x0, 1, 0, 32, .ro, 0x0⟩

/-! R501, 16_carillon_management.md -/
/-- As SEC_LIFE.DEBUG -/
def DBG_LEVEL_LEVEL : Fld := ⟨0x4000000, 0x0, 1, 0x0, 1, 0, 2, .ro, 0x0⟩
/-- 0: IEEE 1149.1 four-wire; 1: IEEE 1149.7 two-pin -/
def DBG_TAP_MODE : Fld := ⟨0x4000004, 0x0, 1, 0x0, 1, 0, 1, .ro, 0x0⟩
/-- IEEE 1149.1 IDCODE; [27:12] 0x7720 -/
def DBG_IDCODE_VALUE : Fld := ⟨0x4000008, 0x0, 1, 0x0, 1, 0, 32, .ro, 0x7720001⟩
/-- Pair halted (R496) -/
def DBG_HALT_CP0 : Fld := ⟨0x400000C, 0x0, 1, 0x0, 1, 0, 1, .ro, 0x0⟩
/-- Pair halted (R496) -/
def DBG_HALT_CP1 : Fld := ⟨0x400000C, 0x0, 1, 0x0, 1, 1, 1, .ro, 0x0⟩
/-- Inspect reads performed -/
def DBG_CNT_IV : Fld := ⟨0x4000010, 0x0, 1, 0x0, 1, 0, 32, .rc, 0x0⟩
/-- Instructions refused at the present level (R493) -/
def DBG_CNT_DENY : Fld := ⟨0x4000014, 0x0, 1, 0x0, 1, 0, 32, .rc, 0x0⟩

/-! R517, 17_clocks_reset_power.md -/
/-- Input good (R503) -/
def CLK_STAT_REF0_OK : Fld := ⟨0x10000, 0x0, 1, 0x0, 1, 0, 1, .ro, 0x0⟩
/-- Input good (R503) -/
def CLK_STAT_REF1_OK : Fld := ⟨0x10000, 0x0, 1, 0x0, 1, 1, 1, .ro, 0x0⟩
/-- Input in use -/
def CLK_STAT_SEL : Fld := ⟨0x10000, 0x0, 1, 0x0, 1, 2, 1, .ro, 0x0⟩
/-- Root PLL locked -/
def CLK_STAT_ROOT_LOCK : Fld := ⟨0x10000, 0x0, 1, 0x0, 1, 3, 1, .ro, 0x0⟩
/-- Every SerDes PLL of a powered port locked -/
def CLK_STAT_SD_LOCK : Fld := ⟨0x10000, 0x0, 1, 0x0, 1, 4, 1, .ro, 0x0⟩
/-- R504; kept until PWRGOOD falls -/
def CLK_STAT_BOTH_LOST : Fld := ⟨0x10000, 0x0, 1, 0x0, 1, 8, 1, .w1c, 0x0⟩
/-- Preferred input -/
def CLK_CTL_PREFER : Fld := ⟨0x10004, 0x0, 1, 0x0, 1, 0, 1, .rw, 0x0⟩
/-- Return to the preferred input (R503) -/
def CLK_CTL_REVERT : Fld := ⟨0x10004, 0x0, 1, 0x0, 1, 1, 1, .rw, 0x0⟩
/-- Failovers and reversions -/
def CLK_CNT_FAILOVER : Fld := ⟨0x10008, 0x0, 1, 0x0, 1, 0, 32, .rc, 0x0⟩
/-- REF1 relative to REF0, signed, 0.1 ppm; 0 unless both are good -/
def CLK_REF_DIFF_PPM10 : Fld := ⟨0x1000C, 0x0, 1, 0x0, 1, 0, 16, .ro, 0x0⟩
/-- Root multiplier, 96 -/
def CLK_DIV_MULT : Fld := ⟨0x10010, 0x0, 1, 0x0, 1, 0, 8, .ro, 0x60⟩
/-- Fixed dividers -/
def CLK_DIV_XDIV : Fld := ⟨0x10010, 0x0, 1, 0x0, 1, 8, 4, .ro, 0x6⟩
/-- Fixed dividers -/
def CLK_DIV_HDIV : Fld := ⟨0x10010, 0x0, 1, 0x0, 1, 12, 4, .ro, 0x8⟩
/-- Fixed dividers -/
def CLK_DIV_MDIV : Fld := ⟨0x10010, 0x0, 1, 0x0, 1, 16, 4, .ro, 0xC⟩

/-! R518, 17_clocks_reset_power.md -/
/-- Request a warm reset (R510) -/
def PWR_RST_CTL_WARM : Fld := ⟨0x10100, 0x0, 1, 0x0, 1, 0, 1, .w1s, 0x0⟩
/-- Pause at phase 7; kept across warm reset -/
def PWR_RST_CTL_HOLD : Fld := ⟨0x10100, 0x0, 1, 0x0, 1, 1, 1, .rw, 0x0⟩
/-- Leave phase 7 -/
def PWR_RST_CTL_CONTINUE : Fld := ⟨0x10100, 0x0, 1, 0x0, 1, 2, 1, .w1s, 0x0⟩
/-- 0x574D with WARM -/
def PWR_RST_CTL_KEY : Fld := ⟨0x10100, 0x0, 1, 0x0, 1, 16, 16, .wo, 0x0⟩
/-- 1 ROM; 2 DIES; 3 ZERO; 5 WAIT_IMAGE; 6 TRAYS; 7 HOLD; 8 APPLY; 9 PORTS; 10 RUN; 11 RECOVERY; 12 HW_FAIL; … -/
def PWR_RST_STAT_PHASE : Fld := ⟨0x10104, 0x0, 1, 0x0, 1, 0, 4, .ro, 0x1⟩
/-- R506 -/
def PWR_RST_STAT_LAST : Fld := ⟨0x10104, 0x0, 1, 0x0, 1, 4, 3, .ro, 0x0⟩
/-- The last warm reset was a fatal restart -/
def PWR_RST_STAT_FATAL_RESTART : Fld := ⟨0x10104, 0x0, 1, 0x0, 1, 7, 1, .ro, 0x0⟩
/-- Warm resets since power-on; saturates -/
def PWR_RST_STAT_WARMS : Fld := ⟨0x10104, 0x0, 1, 0x0, 1, 16, 16, .ro, 0x0⟩
/-- Duration of the last bring-up, to RUN or WAIT_IMAGE -/
def PWR_BRING_TIME_US : Fld := ⟨0x10108, 0x0, 1, 0x0, 1, 0, 32, .ro, 0x0⟩
/-- R512; 0 off; kept across warm reset -/
def PWR_FATAL_AUTO_MS : Fld := ⟨0x1010C, 0x0, 1, 0x0, 1, 0, 16, .rw, 0x0⟩
/-- Sanitize limit, 1–65,535 s; 0 is stored as 1; kept across warm reset -/
def PWR_SAN_MAX_S : Fld := ⟨0x10110, 0x0, 1, 0x0, 1, 0, 16, .rw, 0x258⟩
/-- Fen to reset (R513) -/
def PWR_FEN_RST_FEN : Fld := ⟨0x10114, 0x0, 1, 0x0, 1, 0, 6, .rw, 0x0⟩
/-- Start -/
def PWR_FEN_RST_GO : Fld := ⟨0x10114, 0x0, 1, 0x0, 1, 8, 1, .w1s, 0x0⟩
/-- Reset in progress -/
def PWR_FEN_RST_BUSY : Fld := ⟨0x10114, 0x0, 1, 0x0, 1, 9, 1, .ro, 0x0⟩
/-- R12 code: OK or RETRY -/
def PWR_FEN_RST_STATUS : Fld := ⟨0x10114, 0x0, 1, 0x0, 1, 16, 8, .ro, 0x0⟩
/-- [0] STRAP_REFSEL; [1] STRAP_TAP (0: IEEE 1149.1, 1: IEEE 1149.7); [2] STRAP_MCTP (0: SMBus, 1: I3C); [3] … -/
def PWR_STRAP_VALUE : Fld := ⟨0x10118, 0x0, 1, 0x0, 1, 0, 4, .ro, 0x0⟩
/-- Bit 16+n: strap n disagreed and took its default, 0 (R459) -/
def PWR_STRAP_DEFAULTED : Fld := ⟨0x10118, 0x0, 1, 0x0, 1, 16, 4, .ro, 0x0⟩
/-- Extents and regions dropped by R509 -/
def PWR_CNT_DROPPED : Fld := ⟨0x1011C, 0x0, 1, 0x0, 1, 0, 32, .rc, 0x0⟩
/-- Warm-reset requests ignored (R508, this rule) -/
def PWR_CNT_IGNORED : Fld := ⟨0x10120, 0x0, 1, 0x0, 1, 0, 32, .rc, 0x0⟩

/-! R535, 19_address_map.md -/
/-- Accesses to unmapped offsets, from any requester; saturates at 0xFFFF_FFFF -/
def GLB_UNMAPPED_COUNT : Fld := ⟨0x10, 0x0, 1, 0x0, 1, 0, 32, .rc, 0x0⟩
/-- 1: the last unmapped access was a write -/
def GLB_UNMAPPED_OFF_WRITE : Fld := ⟨0x14, 0x0, 1, 0x0, 1, 0, 1, .ro, 0x0⟩
/-- Bits [27:2] of the last unmapped offset -/
def GLB_UNMAPPED_OFF_OFFSET : Fld := ⟨0x14, 0x0, 1, 0x0, 1, 2, 26, .ro, 0x0⟩

/-! R419, 13_coherence_arbitration.md -/
/-- Watchdog bites -/
def ARB_CNT_WD : Fld := ⟨0x3001004, 0x0, 1, 0x0, 1, 0, 32, .rc, 0x0⟩
/-- Read bursts restarted at stack channel queues -/
def ARB_CNT_PREEMPT_STACK : Fld := ⟨0x3001008, 0x0, 1, 0x0, 1, 0, 32, .rc, 0x0⟩
/-- Staging fills restarted -/
def ARB_CNT_PREEMPT_STAGE : Fld := ⟨0x300100C, 0x0, 1, 0x0, 1, 0, 32, .rc, 0x0⟩
/-- Grants taken by the debug port -/
def ARB_CNT_EMERG_DEBUG : Fld := ⟨0x3001010, 0x0, 1, 0x0, 1, 0, 32, .rc, 0x0⟩
/-- Longest lowest-level wait since the last read, bites excluded -/
def ARB_WAIT_MAX_HCLK : Fld := ⟨0x3001014, 0x0, 1, 0x0, 1, 0, 16, .rc, 0x0⟩

/-! R195, 05_exact_reduction.md -/
/-- Quota per engine of R177 -/
def RED_QUOTA : Fld := ⟨0x1600200, 0x4, 64, 0x0, 1, 0, 27, .ro, 0x0⟩

end Reg

/-- The fields of R4. -/
def regsR4 : List Fld :=
  [Reg.GLB_ID_PART, Reg.GLB_ID_CODE, Reg.GLB_ID_STEPPING, Reg.GLB_CAP_STACK_GIB, Reg.GLB_CAP_ATT,
   Reg.GLB_CAP_CKP, Reg.GLB_CAP_TRAY]

/-- The fields of R35. -/
def regsR35 : List Fld :=
  [Reg.GLB_DIE_PD_READY, Reg.GLB_DIE_CD_READY, Reg.GLB_DIE_XH_READY, Reg.GLB_DIE_MH_READY, Reg.GLB_DIE_MS_READY,
   Reg.GLB_DIE_CD_SPARE]

/-- The fields of R36. -/
def regsR36 : List Fld :=
  [Reg.GLB_D2D_PD_UP, Reg.GLB_D2D_CD_UP, Reg.GLB_D2D_MH_UP, Reg.GLB_D2D_REPAIRED]

/-- The fields of R68. -/
def regsR68 : List Fld :=
  [Reg.FEN_IMG_STATUS_RESULT, Reg.FEN_IMG_STATUS_SECTION, Reg.FEN_IMG_STATUS_BUSY, Reg.FEN_IMG_STATUS_STAGED,
   Reg.FEN_IMG_STATUS_DONE, Reg.FEN_IMG_STATUS_TRAY_SHORT, Reg.FEN_IMG_STATUS_FEN, Reg.FEN_IMG_STATUS_FENIMG]

/-- The fields of R69. -/
def regsR69 : List Fld :=
  [Reg.FEN_IMG_OFFSET_OFFSET, Reg.FEN_IMG_SERIAL_SERIAL, Reg.FEN_IMG_STAGED_SERIAL]

/-- The fields of R70. -/
def regsR70 : List Fld :=
  [Reg.FEN_CTL_QUIESCE, Reg.FEN_CTL_RESUME, Reg.FEN_STATE_STATE, Reg.FEN_STATE_APPLYING]

/-- The fields of R71. -/
def regsR71 : List Fld :=
  [Reg.FEN_SERIAL_SERIAL, Reg.FEN_CLUS_MASK, Reg.FEN_CHG_LO_MASK, Reg.FEN_CHG_HI_MASK, Reg.FEN_PORTS_MASK,
   Reg.FEN_NEAR_RSV_UNITS, Reg.FEN_NEAR_USED_UNITS, Reg.FEN_TRAY_RSV_UNITS, Reg.FEN_TRAY_USED_UNITS,
   Reg.FEN_SEQ_RSV_COUNT, Reg.FEN_SEQ_USED_COUNT, Reg.FEN_RGN_USED_COUNT, Reg.FEN_EXT_USED_COUNT,
   Reg.FEN_NEAR_MARK_UNITS, Reg.FEN_NEAR_WM_LEVEL, Reg.FEN_NEAR_WM_UP, Reg.FEN_NEAR_WM_DOWN,
   Reg.FEN_NEAR_WM_CROSSINGS, Reg.FEN_REFUSE_NO_RES, Reg.FEN_REFUSE_TBL_FULL, Reg.FEN_MTR_CLUS_LO,
   Reg.FEN_MTR_CLUS_HI, Reg.FEN_MTR_CHG_LO, Reg.FEN_MTR_CHG_HI, Reg.FEN_MTR_PORT_LO, Reg.FEN_MTR_PORT_HI,
   Reg.FEN_MTR_BYTES_LO, Reg.FEN_MTR_BYTES_HI]

/-- The fields of R115. -/
def regsR115 : List Fld :=
  [Reg.POOL_HOME_HOME, Reg.POOL_MOVE_DRAIN_US, Reg.POOL_XLATE_DL_US, Reg.POOL_TRAY_DL_NS,
   Reg.POOL_SCRUB_BW_SHARE, Reg.POOL_FENCE_FEN, Reg.POOL_FENCE_GO, Reg.POOL_FENCE_BUSY, Reg.POOL_CNT_MOVE_OK,
   Reg.POOL_CNT_MOVE_ABORT, Reg.POOL_CNT_LEASE_EXP, Reg.POOL_CNT_HOST_MISS, Reg.POOL_CNT_HOST_TIMEOUT,
   Reg.POOL_CNT_HOST_STALE, Reg.POOL_CNT_LATE, Reg.POOL_CNT_SOFTDROP, Reg.POOL_NEAR_FREE_UNITS,
   Reg.POOL_TRAY_FREE_UNITS, Reg.POOL_SCRUB_PEND_UNITS, Reg.POOL_SCRUB_MARK_UNITS, Reg.POOL_SCRUB_WM_LEVEL,
   Reg.POOL_SCRUB_WM_UP, Reg.POOL_SCRUB_WM_DOWN, Reg.POOL_SCRUB_WM_CROSSINGS]

/-- The fields of R116. -/
def regsR116 : List Fld :=
  [Reg.POOL_HXQ_CTL_ENABLE, Reg.POOL_HXQ_REQ_BASE_LO, Reg.POOL_HXQ_REQ_BASE_HI, Reg.POOL_HXQ_REQ_LOG2_N,
   Reg.POOL_HXQ_REQ_TAIL_INDEX, Reg.POOL_HXQ_REQ_HEAD_INDEX, Reg.POOL_HXQ_RSP_BASE_LO, Reg.POOL_HXQ_RSP_BASE_HI,
   Reg.POOL_HXQ_RSP_LOG2_N, Reg.POOL_HXQ_RSP_TAIL_INDEX, Reg.POOL_HXQ_RSP_HEAD_INDEX]

/-- The fields of R117. -/
def regsR117 : List Fld :=
  [Reg.EXT_INDEX_INDEX, Reg.EXT_OP_CODE, Reg.EXT_OP_GO, Reg.EXT_STATUS_STATUS, Reg.EXT_STATUS_DONE,
   Reg.EXT_ADDR_LO, Reg.EXT_ADDR_HI, Reg.EXT_DATA]

/-- The fields of R118. -/
def regsR118 : List Fld :=
  [Reg.RGN_INDEX_INDEX, Reg.RGN_OP_CODE, Reg.RGN_OP_GO, Reg.RGN_OP_BUSY, Reg.RGN_STATUS_STATUS,
   Reg.RGN_STATUS_DONE, Reg.RGN_CLID_CLID, Reg.RGN_DATA]

/-- The fields of R158. -/
def regsR158 : List Fld :=
  [Reg.FAB_PSTAT_LANE_MODE, Reg.FAB_PSTAT_UP, Reg.FAB_PSTAT_SECURE, Reg.FAB_PSTAT_DEAD, Reg.FAB_PSTAT_RETRAIN,
   Reg.FAB_PSTAT_KEY_SLOT, Reg.FAB_PSTAT_BEAT_MISS, Reg.FAB_CE_THR_MIN, Reg.FAB_CE_THR_MAX,
   Reg.FAB_CNT_FEC_CORR, Reg.FAB_CNT_FEC_UNCORR, Reg.FAB_CNT_TAG_FAIL, Reg.FAB_CNT_CRC_FAIL,
   Reg.FAB_CNT_LEN_FAIL, Reg.FAB_CNT_HOPS, Reg.FAB_CNT_HOLD, Reg.FAB_CNT_CE_MARK, Reg.FAB_CNT_ECHO,
   Reg.FAB_CNT_RETX, Reg.FAB_CNT_REKEY, Reg.FAB_CNT_BEAT_MISS, Reg.FAB_CNT_DEAD_RSP]

/-- The fields of R159. -/
def regsR159 : List Fld :=
  [Reg.FAB_HOLD_MAX_US, Reg.FAB_HIST_WIN_US, Reg.FAB_CC_CTL_ENABLE, Reg.FAB_CC_CTL_DECR, Reg.FAB_CC_CTL_WIN_US,
   Reg.FAB_CC_AI_MBPS, Reg.FAB_CC_MIN_MBPS, Reg.FAB_HIST_FULL, Reg.FAB_HIST_DUP, Reg.FAB_FENCE_TO, Reg.FAB_DEAD]

/-- The fields of R193. -/
def regsR193 : List Fld :=
  [Reg.RED_KEEP_US, Reg.RED_STAT_INST, Reg.RED_ENG_USED_BYTES, Reg.RED_ENG_MARK_BYTES, Reg.RED_ENG_WM_LEVEL,
   Reg.RED_ENG_WM_UP, Reg.RED_ENG_WM_DOWN, Reg.RED_ENG_WM_CROSSINGS, Reg.RED_CNT_COMMIT, Reg.RED_CNT_TIMEOUT,
   Reg.RED_CNT_NORES, Reg.RED_CNT_RETRY, Reg.RED_CNT_DEAD, Reg.RED_CNT_DUP, Reg.RED_CNT_EXTRA,
   Reg.RED_CNT_MISMATCH, Reg.RED_CNT_DENIED, Reg.RED_CNT_MALFORMED, Reg.RED_CNT_REPLAY, Reg.RED_CNT_OVERFLOW,
   Reg.RED_CNT_PREEMPT]

/-- The fields of R194. -/
def regsR194 : List Fld :=
  [Reg.RED_TREE_INDEX_TREE, Reg.RED_TREE_OP_GO, Reg.RED_TREE_STATUS_STATUS, Reg.RED_TREE_STATUS_DONE,
   Reg.RED_TREE_DATA, Reg.RED_TREE_LIVE_OPEN, Reg.RED_TREE_LIVE_LAST_TAG]

/-- The fields of R224. -/
def regsR224 : List Fld :=
  [Reg.OPE_MC_VER_VERSION, Reg.OPE_CAP_OPS, Reg.OPE_GREQ_ACTIVE, Reg.OPE_GREQ_MARK_COUNT, Reg.OPE_GREQ_WM_LEVEL,
   Reg.OPE_GREQ_WM_UP, Reg.OPE_GREQ_WM_DOWN, Reg.OPE_GREQ_WM_CROSSINGS, Reg.OPE_CNT_CHAIN, Reg.OPE_CNT_GREQ,
   Reg.OPE_CNT_ROWS, Reg.OPE_CNT_LATE, Reg.OPE_CNT_BADIDX, Reg.OPE_CNT_DROPPED, Reg.OPE_CNT_CHK_RERUN,
   Reg.OPE_CNT_CHK_FAIL, Reg.OPE_CNT_GREQ_BUSY, Reg.OPE_CNT_GREQ_DUP, Reg.OPE_CHK_INJ_ARM, Reg.OPE_CHK_INJ_OP]

/-- The fields of R253. -/
def regsR253 : List Fld :=
  [Reg.ATT_CAP_MAX_LAYERS, Reg.ATT_CAP_MAX_HQ, Reg.ATT_CAP_MAX_HKV, Reg.ATT_STAT_MSGS, Reg.ATT_CNT_MSG,
   Reg.ATT_CNT_REC, Reg.ATT_CNT_DEGRADED, Reg.ATT_CNT_SKIPPED, Reg.ATT_CNT_SLICES, Reg.ATT_CNT_PAGE_ACQ,
   Reg.ATT_CNT_PAGE_NORES, Reg.ATT_CNT_REC_MALF, Reg.ATT_CNT_REC_TIMEOUT, Reg.ATT_CNT_MSG_BUSY,
   Reg.ATT_CNT_MSG_DUP, Reg.ATT_CNT_MSG_INCOMPLETE, Reg.ATT_CNT_CHK_RERUN, Reg.ATT_CNT_CHK_FAIL]

/-- The fields of R254. -/
def regsR254 : List Fld :=
  [Reg.ATT_AR_INDEX_ARENA, Reg.ATT_AR_OP_CODE, Reg.ATT_AR_OP_GO, Reg.ATT_AR_OP_BUSY, Reg.ATT_AR_STATUS_STATUS,
   Reg.ATT_AR_STATUS_DONE, Reg.ATT_AR_DATA0_FEN, Reg.ATT_AR_DATA0_VALID, Reg.ATT_AR_DATA0_KIND,
   Reg.ATT_AR_DATA1, Reg.ATT_AR_DATA2, Reg.ATT_AR_DATA3_PAGES, Reg.ATT_AR_DATA4_FREE]

/-- The fields of R255. -/
def regsR255 : List Fld :=
  [Reg.ATT_SHAPE0_LAYERS, Reg.ATT_SHAPE0_HQ, Reg.ATT_SHAPE0_HKV, Reg.ATT_SHAPE0_DCODE, Reg.ATT_SHAPE0_KFMT,
   Reg.ATT_SHAPE1_PB, Reg.ATT_SHAPE1_TOPN, Reg.ATT_SHAPE1_WB, Reg.ATT_SCALE_VALUE, Reg.ATT_DEADLINE_NS,
   Reg.ATT_KVRGN_REGION, Reg.ATT_DIR_BASE_LO, Reg.ATT_DIR_BASE_HI, Reg.ATT_DIR_SLOTS_COUNT,
   Reg.ATT_PAGE_BYTES_BYTES, Reg.ATT_PAGES_TOTAL, Reg.ATT_PAGES_FREE_COUNT, Reg.ATT_PAGE_MARK_COUNT,
   Reg.ATT_PAGE_WM_LEVEL, Reg.ATT_PAGE_WM_UP, Reg.ATT_PAGE_WM_DOWN, Reg.ATT_PAGE_WM_CROSSINGS]

/-- The fields of R278. -/
def regsR278 : List Fld :=
  [Reg.SQT_CAP_ENTRIES, Reg.SQT_CAP_GROUPS, Reg.SQT_CAP2_MEMBERS, Reg.SQT_STAT_USED, Reg.SQT_STAT_OPENING,
   Reg.SQT_USED_MARK_COUNT, Reg.SQT_USED_WM_LEVEL, Reg.SQT_USED_WM_UP, Reg.SQT_USED_WM_DOWN,
   Reg.SQT_USED_WM_CROSSINGS, Reg.SQT_OPEN_MAX_HCLK, Reg.SQT_CNT_OPEN, Reg.SQT_CNT_JOINED,
   Reg.SQT_CNT_JOIN_NORES, Reg.SQT_CNT_PARK, Reg.SQT_CNT_DEFER, Reg.SQT_CNT_LEFT, Reg.SQT_CNT_LEASE_LEAVE,
   Reg.SQT_CNT_TBL_FULL, Reg.SQT_CNT_DIR_FULL, Reg.SQT_CNT_STALE]

/-- The fields of R279. -/
def regsR279 : List Fld :=
  [Reg.SQT_FEN_GRP_BASE, Reg.SQT_FEN_GRP_COUNT]

/-- The fields of R280. -/
def regsR280 : List Fld :=
  [Reg.SQT_GRP_INDEX_GROUP, Reg.SQT_GRP_OP_CODE, Reg.SQT_GRP_OP_GO, Reg.SQT_GRP_STATUS_STATUS,
   Reg.SQT_GRP_STATUS_DONE, Reg.SQT_GRP_DATA0_CUR_STEP, Reg.SQT_GRP_DATA1_OPEN, Reg.SQT_GRP_DATA1_FEN,
   Reg.SQT_GRP_DATA1_MEMBERS, Reg.SQT_GRP_DATA2_ACTIVE, Reg.SQT_GRP_DATA2_JOINING, Reg.SQT_GRP_DATA3_PARKED,
   Reg.SQT_GRP_DATA3_LEAVING, Reg.SQT_GRP_DATA4_OPEN_HCLK, Reg.SQT_GRP_DATA5, Reg.SQT_GRP_DATA6]

/-- The fields of R281. -/
def regsR281 : List Fld :=
  [Reg.SQT_ENT_FEN_FEN, Reg.SQT_ENT_INDEX_INDEX, Reg.SQT_ENT_OP_CODE, Reg.SQT_ENT_OP_GO, Reg.SQT_ENT_OP_BUSY,
   Reg.SQT_ENT_STATUS_STATUS, Reg.SQT_ENT_STATUS_DONE, Reg.SQT_ENT_DATA]

/-- The fields of R314. -/
def regsR314 : List Fld :=
  [Reg.CMD_CAP_RINGS, Reg.CMD_CAP_CTX, Reg.CMD_KILL_LIMIT_COUNT, Reg.CMD_SHIELD_MAX_US, Reg.CMD_AGE_US,
   Reg.CMD_KILL_MAX_NS, Reg.CMD_RT_WAIT_MAX_NS, Reg.CMD_CNT_ACCEPT, Reg.CMD_CNT_DONE, Reg.CMD_CNT_MALF,
   Reg.CMD_CNT_PREEMPT, Reg.CMD_CNT_SHIELD, Reg.CMD_CNT_LAPSE, Reg.CMD_CNT_KILLED, Reg.CMD_CNT_ACC_RETRY,
   Reg.CMD_CNT_DB_STALE, Reg.CMD_CNT_RING_ERR, Reg.CMD_CNT_AGED]

/-- The fields of R315. -/
def regsR315 : List Fld :=
  [Reg.CMD_RING_INDEX_PAIR, Reg.CMD_RING_OP_CODE, Reg.CMD_RING_OP_GO, Reg.CMD_RING_OP_BUSY,
   Reg.CMD_RING_STATUS_STATUS, Reg.CMD_RING_STATUS_DONE, Reg.CMD_RING_DATA0, Reg.CMD_RING_DATA1,
   Reg.CMD_RING_DATA2, Reg.CMD_RING_DATA3, Reg.CMD_RING_DATA4_SQ_LOG2, Reg.CMD_RING_DATA4_CQ_LOG2,
   Reg.CMD_RING_DATA4_STATE, Reg.CMD_RING_DATA4_ERR_STATUS, Reg.CMD_RING_DATA5_SQ_TAIL,
   Reg.CMD_RING_DATA5_FETCH_HEAD, Reg.CMD_RING_DATA6_CQ_TAIL, Reg.CMD_RING_DATA6_CQ_HEAD,
   Reg.CMD_RING_DATA7_OUTSTANDING]

/-- The fields of R316. -/
def regsR316 : List Fld :=
  [Reg.CMD_FEN_RT_STAGE_CHUNKS, Reg.CMD_FEN_STAGE_USED_CHUNKS, Reg.CMD_FEN_CTX_USED, Reg.CMD_FEN_WAIT_STAGE,
   Reg.CMD_FEN_CTX_MARK_COUNT, Reg.CMD_FEN_CTX_WM_LEVEL, Reg.CMD_FEN_CTX_WM_UP, Reg.CMD_FEN_CTX_WM_DOWN,
   Reg.CMD_FEN_CTX_WM_CROSSINGS, Reg.CMD_FEN_CNT_PREEMPT, Reg.CMD_FEN_CNT_DONE]

/-- The fields of R337. -/
def regsR337 : List Fld :=
  [Reg.CKP_CAP_SETS, Reg.CKP_CAP_MEMBERS, Reg.CKP_STAT_SETS, Reg.CKP_POLL_US, Reg.CKP_CNT_BLOCKS,
   Reg.CKP_CNT_RAW, Reg.CKP_CNT_IN_UNITS, Reg.CKP_CNT_OUT_UNITS, Reg.CKP_CNT_PAR_UNITS, Reg.CKP_CNT_REB_UNITS,
   Reg.CKP_CNT_CRC_FAIL, Reg.CKP_CNT_COMMIT, Reg.CKP_CNT_COMMIT_FAIL, Reg.CKP_CNT_WAIT_TO,
   Reg.CKP_CNT_CHK_RERUN, Reg.CKP_CNT_CHK_FAIL]

/-- The fields of R338. -/
def regsR338 : List Fld :=
  [Reg.CKP_SET_INDEX_SET, Reg.CKP_SET_OP_CODE, Reg.CKP_SET_OP_GO, Reg.CKP_SET_STATUS_STATUS,
   Reg.CKP_SET_STATUS_DONE, Reg.CKP_SET_DATA0_FEN, Reg.CKP_SET_DATA0_VALID, Reg.CKP_SET_DATA0_PARITY,
   Reg.CKP_SET_DATA0_SELF, Reg.CKP_SET_DATA0_MEMBERS, Reg.CKP_SET_DATA1_SLOT_UNITS, Reg.CKP_SET_M_HOME,
   Reg.CKP_SET_M_REGION, Reg.CKP_SET_M_KEY, Reg.CKP_SET_M_AREA_LO, Reg.CKP_SET_M_AREA_HI, Reg.CKP_SET_DATA42,
   Reg.CKP_SET_DATA43, Reg.CKP_SET_DATA44_STATE0, Reg.CKP_SET_DATA44_STATE1]

/-- The fields of R365. -/
def regsR365 : List Fld :=
  [Reg.XBR_QLIM_CELLS, Reg.XBR_IN_MIN_CELLS, Reg.XBR_IN_MAX_CELLS, Reg.XBR_BUF_FREE_CELLS,
   Reg.XBR_RT_WAIT_MAX_XCLK, Reg.XBR_DROP_INTERNAL, Reg.XBR_DROP_NOREQ, Reg.XBR_DROP_EXEC_CRC,
   Reg.XBR_CAP_CTL_ENABLE, Reg.XBR_CAP_CTL_MODE, Reg.XBR_CAP_CTL_BUSY, Reg.XBR_CAP_CTL_LOG2,
   Reg.XBR_CAP_FEN_FEN, Reg.XBR_CAP_REGION_REGION, Reg.XBR_CAP_BASE_LO, Reg.XBR_CAP_BASE_HI,
   Reg.XBR_CAP_STATUS_STATUS, Reg.XBR_CAP_STATUS_DONE, Reg.XBR_CAP_WR_INDEX, Reg.XBR_CAP_RD_INDEX,
   Reg.XBR_CAP_LOST]

/-- The fields of R366. -/
def regsR366 : List Fld :=
  [Reg.XBR_P_SAMPLE_N, Reg.XBR_P_IN_CELLS, Reg.XBR_P_QD_EVEN, Reg.XBR_P_QD_ODD, Reg.XBR_P_QMAX_EVEN,
   Reg.XBR_P_QMAX_ODD, Reg.XBR_P_RXPKT_LO, Reg.XBR_P_RXPKT_HI, Reg.XBR_P_RXBYTE_LO, Reg.XBR_P_RXBYTE_HI,
   Reg.XBR_P_TXPKT_LO, Reg.XBR_P_TXPKT_HI, Reg.XBR_P_TXBYTE_LO, Reg.XBR_P_TXBYTE_HI, Reg.XBR_P_CSTALL_LO,
   Reg.XBR_P_CSTALL_HI, Reg.XBR_P_SSTALL_LO, Reg.XBR_P_SSTALL_HI, Reg.XBR_P_DROP_NOCLIENT,
   Reg.XBR_P_DROP_NOROUTE, Reg.XBR_P_DROP_MATCH, Reg.XBR_P_DROP_DEAD, Reg.XBR_P_DROP_BUF]

/-- The fields of R367. -/
def regsR367 : List Fld :=
  [Reg.RTE_INDEX_INDEX, Reg.RTE_INDEX_TABLE, Reg.RTE_INDEX_BANK, Reg.RTE_OP_CODE, Reg.RTE_OP_GO,
   Reg.RTE_OP_BUSY, Reg.RTE_OP_PENDING, Reg.RTE_OP_REBUILD, Reg.RTE_STATUS_STATUS, Reg.RTE_STATUS_DONE,
   Reg.RTE_ACTIVE_BANK, Reg.RTE_SWAP_TIME_LO, Reg.RTE_SWAP_TIME_HI, Reg.RTE_CNT_SWAP, Reg.RTE_CNT_REPIN,
   Reg.RTE_DATA, Reg.RTE_MAP]

/-- The fields of R394. -/
def regsR394 : List Fld :=
  [Reg.GATE_TT_NOW_LO, Reg.GATE_TT_NOW_HI, Reg.GATE_TT_NOW_FRAC, Reg.GATE_TT_CTL_SRC, Reg.GATE_TT_CTL_STEP_EN,
   Reg.GATE_TT_CTL_PPS_OUT, Reg.GATE_TT_CTL_SRC_PORT, Reg.GATE_TT_CTL_KP, Reg.GATE_TT_CTL_KI,
   Reg.GATE_TT_INC_FRAC, Reg.GATE_TT_MAXPPB_PPB, Reg.GATE_TT_STEP_THR_NS, Reg.GATE_TT_LOCK_NS,
   Reg.GATE_TT_PERIOD_US, Reg.GATE_TT_STAT_STATE, Reg.GATE_TT_STAT_STEPS, Reg.GATE_TT_STAT_SOURCE,
   Reg.GATE_TT_OFFSET_NS, Reg.GATE_TT_ADJ_PPB, Reg.GATE_TT_SAMPLE_NS, Reg.GATE_TT_SET_LO, Reg.GATE_TT_SET_HI,
   Reg.GATE_TT_PTM_CTL_GO, Reg.GATE_TT_PTM_CTL_FAIL, Reg.GATE_TT_PTM_T1_LO, Reg.GATE_TT_PTM_T1_HI,
   Reg.GATE_TT_PTM_T4_LO, Reg.GATE_TT_PTM_T4_HI, Reg.GATE_TT_PTM_MT_LO, Reg.GATE_TT_PTM_MT_HI,
   Reg.GATE_TT_PTM_PD_NS, Reg.GATE_TT_PPS_IN_LO, Reg.GATE_TT_PPS_IN_HI, Reg.GATE_TT_CNT_STEP,
   Reg.GATE_TT_CNT_SAMPLE, Reg.GATE_TT_CNT_REJECT]

/-- The fields of R395. -/
def regsR395 : List Fld :=
  [Reg.GATE_P_STAT_BANK, Reg.GATE_P_STAT_PENDING, Reg.GATE_P_STAT_FAULT, Reg.GATE_P_STAT_PWR,
   Reg.GATE_P_STAT_ENTRY, Reg.GATE_P_CYCLES, Reg.GATE_P_START_LO, Reg.GATE_P_START_HI, Reg.GATE_P_TIME_PROBE,
   Reg.GATE_P_ASYM_NS, Reg.GATE_P_TOFF_NS, Reg.GATE_P_TDELAY_NS, Reg.GATE_P_PWR_AUTO, Reg.GATE_P_PWR_ACCEPT,
   Reg.GATE_P_PWR_REQ, Reg.GATE_P_PWR_STATE, Reg.GATE_P_PWR_E_LO, Reg.GATE_P_PWR_E_HI, Reg.GATE_P_PWR_W_LO,
   Reg.GATE_P_PWR_W_HI, Reg.GATE_P_CNT_FITWAIT, Reg.GATE_P_DROP_GATE, Reg.GATE_P_CNT_OVERRUN,
   Reg.GATE_P_CNT_MISSED, Reg.GATE_P_CNT_SLEEP, Reg.GATE_P_CNT_NAK, Reg.GATE_P_TIME_BAD, Reg.SHP_P_DROP_POLICE,
   Reg.SHP_P_CREDIT_BYTES]

/-- The fields of R396. -/
def regsR396 : List Fld :=
  [Reg.SHP_POL_INDEX_CLID, Reg.SHP_POL_INDEX_CLASS, Reg.SHP_POL_OP_GO, Reg.SHP_POL_STATUS_STATUS,
   Reg.SHP_POL_STATUS_DONE, Reg.SHP_POL_RATE_MBPS, Reg.SHP_POL_BURST_BYTES, Reg.SHP_POL_TOKENS_BYTES,
   Reg.SHP_POL_PASS, Reg.SHP_POL_DROP]

/-- The fields of R418. -/
def regsR418 : List Fld :=
  [Reg.COH_STAT_ALIVE, Reg.COH_STAT_DOWN, Reg.COH_FATAL_CAUSE, Reg.COH_FATAL_AGENT, Reg.COH_FATAL_DIE_CAUSE,
   Reg.COH_FATAL_DIE_AGENT, Reg.COH_RETRY_MAX_COUNT, Reg.COH_TXN_MAX_HCLK, Reg.COH_CNT_TXN, Reg.COH_CNT_RETRY,
   Reg.COH_CNT_ECC_CORR, Reg.COH_CNT_NA, Reg.COH_CNT_WB, Reg.COH_LINE_ADDR_LINE, Reg.COH_LINE_OP_GO,
   Reg.COH_LINE_STATE_STATE]

/-- The fields of R419. -/
def regsR419 : List Fld :=
  [Reg.ARB_WD_LAST_RESOURCE, Reg.ARB_WD_LAST_INSTANCE, Reg.ARB_WD_LAST_DIE, Reg.ARB_WD_LAST_OWNER,
   Reg.ARB_CNT_WD, Reg.ARB_CNT_PREEMPT_STACK, Reg.ARB_CNT_PREEMPT_STAGE, Reg.ARB_CNT_EMERG_DEBUG,
   Reg.ARB_WAIT_MAX_HCLK]

/-- The fields of R440. -/
def regsR440 : List Fld :=
  [Reg.SEC_LIFE_STATE, Reg.SEC_LIFE_DEBUG, Reg.SEC_LIFE_FW_SVN, Reg.SEC_CUST_STATE, Reg.SEC_CUST_CHANGES,
   Reg.SEC_SESS_ACTIVE, Reg.SEC_SESS_CUST, Reg.SEC_SESS_OPER, Reg.SEC_SESS_PRIV_BUSY, Reg.SEC_IDE_STREAMS,
   Reg.SEC_IDE_FAIL, Reg.SEC_TDISP_STATE, Reg.SEC_TRNG_OK, Reg.SEC_TRNG_FAIL, Reg.SEC_TRNG_RESEEDS,
   Reg.SEC_TRAY_IDE_PORTS, Reg.SEC_TRAY_SAN_PORTS, Reg.SEC_POLICY_BITS, Reg.SEC_MEAS_FEN_EXTENDS,
   Reg.SEC_SWITCH_MAX_US, Reg.SEC_SWITCH_DONE_LO, Reg.SEC_SWITCH_DONE_HI, Reg.SEC_CNT_SESS_FAIL,
   Reg.SEC_CNT_PRIV_DENY, Reg.SEC_CNT_LINK_AUTH, Reg.SEC_CNT_TDISP_ERR, Reg.SEC_CNT_IDE_FAIL]

/-- The fields of R460. -/
def regsR460 : List Fld :=
  [Reg.FLT_FATAL_CAUSE, Reg.FLT_FATAL_DETAIL, Reg.FLT_PEND_INFO, Reg.FLT_PEND_WARN, Reg.FLT_PEND_ERROR,
   Reg.FLT_PEND_FATAL, Reg.FLT_ESEQ_LAST, Reg.FLT_COALESCE_US, Reg.FLT_CHUNK_WD_US, Reg.FLT_PATROL_HOURS,
   Reg.FLT_EQ_CTL_ENABLE, Reg.FLT_EQ_CTL_LOG2, Reg.FLT_EQ_CTL_SEV_MIN, Reg.FLT_EQ_CTL_MOD_US,
   Reg.FLT_EQ_BASE_LO, Reg.FLT_EQ_BASE_HI, Reg.FLT_EQ_TAIL_INDEX, Reg.FLT_EQ_HEAD_INDEX, Reg.FLT_EQ_LOST,
   Reg.FLT_EQ_VEC_VECTOR, Reg.FLT_CNT_CE_STACK, Reg.FLT_CNT_UE_STACK, Reg.FLT_CNT_CE_SRAM, Reg.FLT_CNT_UE_SRAM,
   Reg.FLT_CNT_UE_PKT, Reg.FLT_CNT_TRANSIENT, Reg.FLT_CNT_MAPOUT, Reg.FLT_CNT_SUSPECT, Reg.FLT_CNT_CHUNK_WD,
   Reg.FLT_CNT_RED_CHECK, Reg.FLT_CNT_INPUT, Reg.FLT_CLUS_OUT_PHYS, Reg.FLT_CLUS_LOST_MASK,
   Reg.FLT_CLUS_LAST_MASK, Reg.FLT_MAP_OP_CLEAR, Reg.FLT_MAP_OP_BUSY]

/-- The fields of R461. -/
def regsR461 : List Fld :=
  [Reg.FLT_SCORE_INDEX_INSTANCE, Reg.FLT_SCORE_INDEX_CLASS, Reg.FLT_SCORE_OP_CODE, Reg.FLT_SCORE_OP_GO,
   Reg.FLT_SCORE_STATUS_STATUS, Reg.FLT_SCORE_STATUS_DONE, Reg.FLT_SCORE_DATA0_S, Reg.FLT_SCORE_DATA1_SUSPECT,
   Reg.FLT_SCORE_DATA1_EVENTS, Reg.FLT_SCORE_DATA2_SUSPECTS]

/-- The fields of R462. -/
def regsR462 : List Fld :=
  [Reg.FLT_SCLS_CFG_THR, Reg.FLT_SCLS_CFG_DECAY]

/-- The fields of R497. -/
def regsR497 : List Fld :=
  [Reg.CAR_STAT_CP0, Reg.CAR_STAT_CP1, Reg.CAR_STAT_MERGED, Reg.CAR_STAT_RECOVERY, Reg.CAR_STAT_SLOT,
   Reg.CAR_STAT_TRIAL, Reg.CAR_STAT_UPD, Reg.CAR_STAT_HALT0, Reg.CAR_STAT_HALT1, Reg.CAR_FW_VER_VERSION,
   Reg.CAR_FW_SVN_RUN, Reg.CAR_FW_SVN_STAGED, Reg.CAR_BOOTS_COUNT, Reg.CAR_WDT_MS, Reg.CAR_CNT_LS,
   Reg.CAR_CNT_WDT, Reg.CAR_TRIP_SENSOR, Reg.CAR_TRIP_VALID]

/-- The fields of R498. -/
def regsR498 : List Fld :=
  [Reg.CAR_MBX_CTL_DOORBELL, Reg.CAR_MBX_CTL_BUSY, Reg.CAR_MBX_CTL_DONE, Reg.CAR_MBX_VEC_VECTOR,
   Reg.CAR_CNT_MBX_REJECT, Reg.CAR_MBX_REQ, Reg.CAR_MBX_RSP, Reg.CAR_SEM_GRANTED, Reg.CAR_SEM_OWNER,
   Reg.CAR_SEM_WAITERS, Reg.CAR_SEM_WAIT_SEM, Reg.CAR_SEM_WAIT_GO, Reg.CAR_SEM_WSTAT_PENDING,
   Reg.CAR_SEM_WSTAT_STATUS, Reg.CAR_SEM_WSTAT_SEM, Reg.CAR_SEM_TIMEOUT_US, Reg.CAR_SEM_HOLD_MAX_MS,
   Reg.CAR_SEM_VEC_VECTOR, Reg.CAR_CNT_SEM_TO, Reg.CAR_CNT_SEM_FORCED, Reg.CAR_CNT_SEM_DENY]

/-- The fields of R499. -/
def regsR499 : List Fld :=
  [Reg.CAR_TEMP_VALUE, Reg.CAR_TEMP_FAILED, Reg.CAR_TEMP_REJECTED, Reg.CAR_VMON_MV, Reg.CAR_VMON_FAILED,
   Reg.CAR_PWR_P1MS, Reg.CAR_PWR_AVG, Reg.CAR_PCAP_HOST_W, Reg.CAR_PCAP_HOST_WINDOW, Reg.CAR_PCAP_BMC_W,
   Reg.CAR_PCAP_BMC_WINDOW, Reg.CAR_PCAP_EFF_W, Reg.CAR_PSTATE_PS, Reg.CAR_STAGE_STAGE, Reg.CAR_STAGE_VR_HOT,
   Reg.CAR_THR_T_HOT, Reg.CAR_THR_T_CRIT, Reg.CAR_THR_T_TRIP, Reg.CAR_CNT_STAGE, Reg.CAR_CNT_CAPMISS]

/-- The fields of R500. -/
def regsR500 : List Fld :=
  [Reg.CAR_CRC_CTL_INIT, Reg.CAR_CRC_B, Reg.CAR_CRC_H, Reg.CAR_CRC_W, Reg.CAR_CRC_RESULT, Reg.CAR_LWDT_KICK,
   Reg.CAR_LTIMER_LO, Reg.CAR_LTIMER_HI]

/-- The fields of R501. -/
def regsR501 : List Fld :=
  [Reg.DBG_LEVEL_LEVEL, Reg.DBG_TAP_MODE, Reg.DBG_IDCODE_VALUE, Reg.DBG_HALT_CP0, Reg.DBG_HALT_CP1,
   Reg.DBG_CNT_IV, Reg.DBG_CNT_DENY]

/-- The fields of R517. -/
def regsR517 : List Fld :=
  [Reg.CLK_STAT_REF0_OK, Reg.CLK_STAT_REF1_OK, Reg.CLK_STAT_SEL, Reg.CLK_STAT_ROOT_LOCK, Reg.CLK_STAT_SD_LOCK,
   Reg.CLK_STAT_BOTH_LOST, Reg.CLK_CTL_PREFER, Reg.CLK_CTL_REVERT, Reg.CLK_CNT_FAILOVER, Reg.CLK_REF_DIFF_PPM10,
   Reg.CLK_DIV_MULT, Reg.CLK_DIV_XDIV, Reg.CLK_DIV_HDIV, Reg.CLK_DIV_MDIV]

/-- The fields of R518. -/
def regsR518 : List Fld :=
  [Reg.PWR_RST_CTL_WARM, Reg.PWR_RST_CTL_HOLD, Reg.PWR_RST_CTL_CONTINUE, Reg.PWR_RST_CTL_KEY,
   Reg.PWR_RST_STAT_PHASE, Reg.PWR_RST_STAT_LAST, Reg.PWR_RST_STAT_FATAL_RESTART, Reg.PWR_RST_STAT_WARMS,
   Reg.PWR_BRING_TIME_US, Reg.PWR_FATAL_AUTO_MS, Reg.PWR_SAN_MAX_S, Reg.PWR_FEN_RST_FEN, Reg.PWR_FEN_RST_GO,
   Reg.PWR_FEN_RST_BUSY, Reg.PWR_FEN_RST_STATUS, Reg.PWR_STRAP_VALUE, Reg.PWR_STRAP_DEFAULTED,
   Reg.PWR_CNT_DROPPED, Reg.PWR_CNT_IGNORED]

/-- The fields of R535. -/
def regsR535 : List Fld :=
  [Reg.GLB_UNMAPPED_COUNT, Reg.GLB_UNMAPPED_OFF_WRITE, Reg.GLB_UNMAPPED_OFF_OFFSET]

/-- The fields of R195. -/
def regsR195 : List Fld :=
  [Reg.RED_QUOTA]

/-- Every field of the window and of the private peripherals. -/
def regTable : List Fld :=
  regsR4 ++ regsR35 ++ regsR36 ++ regsR68 ++ regsR69 ++ regsR70 ++ regsR71 ++
  regsR115 ++ regsR116 ++ regsR117 ++ regsR118 ++ regsR158 ++ regsR159 ++ regsR193 ++ regsR194 ++ regsR224 ++ regsR253 ++ regsR254 ++ regsR255 ++ regsR278 ++ regsR279 ++ regsR280 ++ regsR281 ++ regsR314 ++
  regsR315 ++ regsR316 ++ regsR337 ++ regsR338 ++ regsR365 ++ regsR366 ++ regsR367 ++ regsR394 ++ regsR395 ++
  regsR396 ++ regsR418 ++ regsR419 ++ regsR440 ++ regsR460 ++ regsR461 ++ regsR462 ++ regsR497 ++ regsR498 ++ regsR499 ++ regsR500 ++ regsR501 ++ regsR517 ++ regsR518 ++ regsR535 ++ regsR195

end Sys2Proof.Machine
end

