-- ==== Sys2Proof/Machine/State.lean ====
section
/-!
DEFINITION. The machine's state: every register, table, queue, memory, mode and pin the spec gives the switch, the queue of
waiting commands, and the state after reset.
Marks: DESIGN CHOICE 2, 7, in notes/assumptions.
-/
namespace Sys2Proof.Machine

/-- What leaves the switch: link frames, read data, completions, interrupts, messages and pins, oldest first. -/
inductive OutMsg where
  /-- A frame on a port's egress lane. -/
  | frame (port pkn : Nat) (pkt : Packet)
  /-- Read data returned to a requester of the register window. -/
  | readData (req : Requester) (off value : Nat)
  /-- An access refused on the management link with Unsupported Request (R6, R436). -/
  | unsupported (req : Requester) (off : Nat)
  /-- An MSI-X message. -/
  | msix (vector : Nat)
  /-- A write to host memory, with its T bit (R436). -/
  | dma (iova len : Nat) (tbit : Bool)
  /-- A message to a session or requester: channel, code, body. -/
  | message (channel code : Nat) (body : Bytes)
  /-- A value shifted out of the test access port. -/
  | tdo (value : Nat)
  /-- An output pin changes: pin number and level. -/
  | pin (n level : Nat)
  deriving DecidableEq, Repr

/-- The configuration in force (chapter 02): what the running image and later fen images have applied. -/
structure Applied where
  ports : Tab PortRec := []
  fens : Tab FenRec := []
  trees : Tab TreeRec := []
  police : Tab PoliceRec := []
  /-- By port × 8 + queue. -/
  shapes : Tab ShapeRec := []
  limits : Tab LimitsRec := []
  device : DeviceRec := {}
  deriving DecidableEq, Repr

/-- Why a command stops the block. -/
inductive Fault where
  /-- Raised by no meaning of this model: no command of the spec's table stops the switch (safe). -/
  | halted
  deriving DecidableEq, Repr

/-- Why a command has no meaning here. -/
inductive Refusal where
  /-- A constructor whose meaning is not written yet (safe). -/
  | notModelled (mnemonic : String)
  deriving DecidableEq, Repr

/-- The state of the switch. -/
structure State where
  /-- Commands that wait, first in, first out. -/
  pending : List Instr
  /-- Register fields that differ from their reset values, by (byte offset × 32 + lowest bit). -/
  regs : Tab Word
  /-- The per-requester latches of R72 and R537, by requester number × 2^32 + offset of the latched half. -/
  latches : Tab Word
  /-- Elapsed HCLK cycles since power-on. -/
  hclk : Nat
  /-- Tabor time in units of 2^-32 ns (R379). -/
  tabor : Nat
  /-- The model's own: index of the next free value. -/
  nextFree : Nat
  out : List OutMsg
  near : List Host.Cell
  tray : List Host.Cell
  host : List Host.Cell
  img : ImageState
  cfg : Applied
  meters : Tab Meter
  flt : FltState
  pool : PoolState
  fab : FabState
  cmd : CmdState
  xbr : XbrState
  shp : ShpState
  red : RedState
  att : AttState
  sqt : SqtState
  ckp : CkpState
  coh : CohState
  sec : SecState
  car : CarState
  /-- Levels of the output pins, by number; an unlisted one is at its inactive level. -/
  pins : Tab Nat
  deriving DecidableEq, Repr

/-- The state right after power-on reset: every register at its reset value, no image, no fen, nothing queued, memory
with nothing listed (R37, R514). -/
def State.reset : State where
  pending := []
  regs := []
  latches := []
  hclk := 0
  tabor := 0
  nextFree := 0
  out := []
  near := []
  tray := []
  host := []
  img := {}
  cfg := {}
  meters := []
  flt := {}
  pool := {}
  fab := {}
  cmd := {}
  xbr := {}
  shp := {}
  red := {}
  att := {}
  sqt := {}
  ckp := {}
  coh := {}
  sec := {}
  car := {}
  pins := []

end Sys2Proof.Machine
end

