-- ==== Sys2Proof/Machine/Ops.lean ====
section
/-!
DEFINITION. The named operations over registers, time, memory and the outbox that every meaning shares.
Marks: DESIGN CHOICE 5, 6, in notes/assumptions.
-/
namespace Sys2Proof.Machine

/-! Register fields (R7, R11). -/

/-- Where a field of indices (i, j) is kept. -/
def Fld.key (f : Fld) (i j : Nat) : Nat := (f.base + f.s1 * i + f.s2 * j) * 32 + f.lo

/-- The reset value of a field of index i.  `FLT_SCLS_CFGc.THR` differs by part class (R462). -/
def Fld.resetOf (f : Fld) (i : Nat) : Nat :=
  if f = Reg.FLT_SCLS_CFG_THR then (if i = 3 then 0x800 else if i = 6 then 0x600 else 0x400) else f.reset

/-- The value a field holds. -/
def State.rd (s : State) (f : Fld) (i : Nat := 0) (j : Nat := 0) : Nat :=
  match Tab.find? s.regs (f.key i j) with
  | some w => w.toNat
  | none => f.resetOf i

/-- Store a value, cut to the field's width. -/
def State.wr (s : State) (f : Fld) (v : Nat) (i : Nat := 0) (j : Nat := 0) : State :=
  { s with regs := Tab.put s.regs (f.key i j) (BitVec.ofNat 32 (v % 2 ^ f.width)) }

/-- Store a bit. -/
def State.wrb (s : State) (f : Fld) (b : Bool) (i : Nat := 0) (j : Nat := 0) : State := s.wr f (b2n b) i j

/-- Whether a field is not 0. -/
def State.on (s : State) (f : Fld) (i : Nat := 0) (j : Nat := 0) : Bool := s.rd f i j != 0

/-- Count: add `n`, saturating at the field's greatest value. -/
def State.bump (s : State) (f : Fld) (i : Nat := 0) (j : Nat := 0) (n : Nat := 1) : State :=
  s.wr f (satAdd (s.rd f i j) n (2 ^ f.width - 1)) i j

/-- Raise a "longest" or "largest" field to `v` when `v` is greater, saturating. -/
def State.raise (s : State) (f : Fld) (v : Nat) (i : Nat := 0) (j : Nat := 0) : State :=
  let v := min v (2 ^ f.width - 1)
  if s.rd f i j < v then s.wr f v i j else s

/-- Add to a gauge (no saturation is reached by any rule). -/
def State.inc (s : State) (f : Fld) (n : Nat := 1) (i : Nat := 0) (j : Nat := 0) : State :=
  s.wr f (s.rd f i j + n) i j

/-- Take from a gauge. -/
def State.dec (s : State) (f : Fld) (n : Nat := 1) (i : Nat := 0) (j : Nat := 0) : State :=
  s.wr f (s.rd f i j - n) i j

/-- The 64-bit value of a pair (R537). -/
def State.rd64 (s : State) (lo hi : Fld) (i : Nat := 0) (j : Nat := 0) : Nat :=
  s.rd lo i j + 2 ^ 32 * s.rd hi i j

/-- Store a 64-bit pair. -/
def State.wr64 (s : State) (lo hi : Fld) (v : Nat) (i : Nat := 0) (j : Nat := 0) : State :=
  (s.wr lo (v % 2 ^ 32) i j).wr hi (v / 2 ^ 32) i j

/-- Add to a 64-bit counter pair, modulo 2^64 (R364). -/
def State.inc64 (s : State) (lo hi : Fld) (n : Nat) (i : Nat := 0) (j : Nat := 0) : State :=
  s.wr64 lo hi ((s.rd64 lo hi i j + n) % 2 ^ 64) i j

/-- The four fields of a watermark and its mark (R11). -/
structure Wm where
  level : Fld
  up : Fld
  down : Fld
  cross : Fld
  mark : Fld
  deriving DecidableEq, Repr

def wmNear : Wm := ⟨Reg.FEN_NEAR_WM_LEVEL, Reg.FEN_NEAR_WM_UP, Reg.FEN_NEAR_WM_DOWN, Reg.FEN_NEAR_WM_CROSSINGS, Reg.FEN_NEAR_MARK_UNITS⟩
def wmScrub : Wm := ⟨Reg.POOL_SCRUB_WM_LEVEL, Reg.POOL_SCRUB_WM_UP, Reg.POOL_SCRUB_WM_DOWN, Reg.POOL_SCRUB_WM_CROSSINGS, Reg.POOL_SCRUB_MARK_UNITS⟩
def wmRed : Wm := ⟨Reg.RED_ENG_WM_LEVEL, Reg.RED_ENG_WM_UP, Reg.RED_ENG_WM_DOWN, Reg.RED_ENG_WM_CROSSINGS, Reg.RED_ENG_MARK_BYTES⟩
def wmGreq : Wm := ⟨Reg.OPE_GREQ_WM_LEVEL, Reg.OPE_GREQ_WM_UP, Reg.OPE_GREQ_WM_DOWN, Reg.OPE_GREQ_WM_CROSSINGS, Reg.OPE_GREQ_MARK_COUNT⟩
def wmPage : Wm := ⟨Reg.ATT_PAGE_WM_LEVEL, Reg.ATT_PAGE_WM_UP, Reg.ATT_PAGE_WM_DOWN, Reg.ATT_PAGE_WM_CROSSINGS, Reg.ATT_PAGE_MARK_COUNT⟩
def wmSeq : Wm := ⟨Reg.SQT_USED_WM_LEVEL, Reg.SQT_USED_WM_UP, Reg.SQT_USED_WM_DOWN, Reg.SQT_USED_WM_CROSSINGS, Reg.SQT_USED_MARK_COUNT⟩
def wmCtx : Wm := ⟨Reg.CMD_FEN_CTX_WM_LEVEL, Reg.CMD_FEN_CTX_WM_UP, Reg.CMD_FEN_CTX_WM_DOWN, Reg.CMD_FEN_CTX_WM_CROSSINGS, Reg.CMD_FEN_CTX_MARK_COUNT⟩

/-- Set a watermark's bits for a measured quantity (R11): LEVEL follows it, a crossing sets UP or DOWN and counts. -/
def State.measure (s : State) (w : Wm) (q : Nat) (i : Nat := 0) (j : Nat := 0) : State :=
  let above := decide (s.rd w.mark i j ≤ q)
  if above = s.on w.level i j then s
  else
    let s := s.wrb w.level above i j
    let s := if above then s.wr w.up 1 i j else s.wr w.down 1 i j
    s.bump w.cross i j

/-! Time.  One HCLK cycle is 5/6 ns. -/

/-- Elapsed nanoseconds (whole). -/
def State.nowNs (s : State) : Nat := s.hclk * 5 / 6

/-- Elapsed whole nanoseconds since an HCLK time. -/
def State.sinceNs (s : State) (t : Nat) : Nat := (s.hclk - t) * 5 / 6

/-- Elapsed whole microseconds since an HCLK time. -/
def State.sinceUs (s : State) (t : Nat) : Nat := (s.hclk - t) / 1200

/-- HCLK cycles in `n` ns, rounded up. -/
def nsToHclk (n : Nat) : Nat := ceilDiv (n * 6) 5

/-- HCLK cycles in `n` µs. -/
def usToHclk (n : Nat) : Nat := n * 1200

/-- Tabor time in whole ns (R379). -/
def State.tnow (s : State) : Nat := s.tabor / 2 ^ 32 % 2 ^ 64

/-! Outbox and free values. -/

/-- Send a message out of the switch. -/
def State.emit (s : State) (m : OutMsg) : State := { s with out := s.out ++ [m] }

/-- The next free value, and the state with the counter advanced. -/
def State.free (s : State) : Nat × State := (Config.freeValue s.nextFree, { s with nextFree := s.nextFree + 1 })

/-! Output pins (chapter 18): each is 1 when active. -/
def pinPPS_OUT : Nat := 0
def pinTHERMTRIP : Nat := 1
def pinMC_ALERT : Nat := 2

/-- Drive an output pin. -/
def State.drive (s : State) (n level : Nat) : State :=
  if Tab.getD s.pins n 0 = level then s
  else { s with pins := if level = 0 then Tab.del s.pins n else Tab.put s.pins n level }.emit (.pin n level)

/-! Channels of messages to and from outside. -/
def chPTM : Nat := 0
def chSPDM : Nat := 1
def chMAILBOX : Nat := 2
def chMCTP : Nat := 3
def chXLATE : Nat := 4
def chIDE : Nat := 5
def chTRAY : Nat := 6

/-! Memory: canonical cell lists, an unlisted byte reads 0. -/

/-- What an unlisted byte reads as: zero-filled at bring-up (R514) in the near tier; the model's choice elsewhere. -/
def memDefault : Byte := 0

/-- The byte at an address. -/
def memGet : List Host.Cell → Nat → Byte
  | [], _ => memDefault
  | (k, v) :: t, a => if k = a then v else if a < k then memDefault else memGet t a

/-- `n` bytes from an address, of cells none of which lies below it. -/
def readCells : Nat → Nat → List Host.Cell → Bytes
  | 0, _, _ => []
  | n + 1, a, [] => memDefault :: readCells n (a + 1) []
  | n + 1, a, (k, v) :: t => if k = a then v :: readCells n (a + 1) t else memDefault :: readCells n (a + 1) ((k, v) :: t)

/-- `n` bytes from an address. -/
def memRead (m : List Host.Cell) (a n : Nat) : Bytes := readCells n a (m.dropWhile fun c => c.1 < a)

/-- The cells that bytes from an address are kept in. -/
def cellsOf : Nat → Bytes → List Host.Cell
  | _, [] => []
  | a, b :: bs => if b = memDefault then cellsOf (a + 1) bs else (a, b) :: cellsOf (a + 1) bs

/-- Store bytes from an address. -/
def memWrite (m : List Host.Cell) (a : Nat) (bs : Bytes) : List Host.Cell :=
  (m.filter fun c => c.1 < a) ++ cellsOf a bs ++ m.filter fun c => a + bs.length ≤ c.1

/-- Make a range read 0. -/
def memZero (m : List Host.Cell) (a n : Nat) : List Host.Cell := m.filter fun c => c.1 < a || a + n ≤ c.1

/-- The canonical form: addresses strictly rising, no entry equal to what an unlisted address reads as. -/
def Memory.wf : List Host.Cell → Bool
  | [] => true
  | [(_, v)] => v != memDefault
  | (a, v) :: (b, w) :: t => decide (a < b) && v != memDefault && Memory.wf ((b, w) :: t)

/-- Byte address, in the tier's memory, of a location field (R75). -/
def locByte (tier loc : Nat) : Nat :=
  if tier = tierNEAR then loc % 64 * 2 ^ 34 + bits loc 6 18 * unitBytes
  else loc % 32 * 2 ^ 46 + bits loc 5 30 * unitBytes

/-- Location field of a near-tier group and an offset in units. -/
def nearLoc (g off : Nat) : Nat := g + 64 * off

/-- Location field of a tray port and an offset in units. -/
def trayLoc (t off : Nat) : Nat := t + 32 * off

/-- The memory stack of a near-tier byte address. -/
def stackOf (a : Nat) : Nat := a / 2 ^ 34 / 8

/-- The byte address within its stack of a near-tier byte address (groups laid end to end). -/
def stackAddr (groupBytes a : Nat) : Nat := a / 2 ^ 34 % 8 * groupBytes + a % 2 ^ 34

/-- The tray port of a tray-tier byte address. -/
def trayPortOf (a : Nat) : Nat := a / 2 ^ 46

/-- Read a tier's memory. -/
def State.readTier (s : State) (tier a n : Nat) : Bytes :=
  if tier = tierNEAR then memRead s.near a n
  else if tier = tierTRAY then memRead s.tray a n
  else memRead s.host a n

/-- Write a tier's memory. -/
def State.writeTier (s : State) (tier a : Nat) (d : Bytes) : State :=
  if tier = tierNEAR then { s with near := memWrite s.near a d }
  else if tier = tierTRAY then { s with tray := memWrite s.tray a d }
  else { s with host := memWrite s.host a d }

/-- Zero a range of a tier's memory. -/
def State.zeroTier (s : State) (tier a n : Nat) : State :=
  if tier = tierNEAR then { s with near := memZero s.near a n }
  else if tier = tierTRAY then { s with tray := memZero s.tray a n }
  else { s with host := memZero s.host a n }

/-- A granule's key in the lists of uncorrectable and poisoned granules. -/
def granKey (tier a : Nat) : Nat := tier * 2 ^ 58 + a / 64

/-- The keys of the granules that a range touches. -/
def granKeys (tier a n : Nat) : List Nat :=
  if n = 0 then [] else (List.range ((a + n - 1) / 64 - a / 64 + 1)).map fun i => granKey tier a + i

/-- Whether a granule reads uncorrectable or poisoned (R444). -/
def State.badKey (s : State) (k : Nat) : Bool := s.flt.badGranules.contains k || s.flt.poisoned.contains k

/-- Whether a range touches a granule that cannot be read (R444). -/
def State.badRange (s : State) (tier a n : Nat) : Bool := (granKeys tier a n).any s.badKey

/-- Forget that granules were bad: they have been written whole (R444). -/
def State.mendKeys (s : State) (ks : List Nat) : State :=
  { s with flt := { s.flt with badGranules := s.flt.badGranules.filter (fun k => !ks.contains k),
                               poisoned := s.flt.poisoned.filter (fun k => !ks.contains k) } }

/-- Mark granules poisoned (R444). -/
def State.poisonKeys (s : State) (ks : List Nat) : State :=
  { s with flt := { s.flt with badGranules := s.flt.badGranules.filter (fun k => !ks.contains k),
                               poisoned := ks ++ s.flt.poisoned.filter (fun k => !ks.contains k) } }

/-- Update the outer parts of the state. -/
def State.upPool (s : State) (f : PoolState → PoolState) : State := { s with pool := f s.pool }
def State.upFab (s : State) (f : FabState → FabState) : State := { s with fab := f s.fab }
def State.upCmd (s : State) (f : CmdState → CmdState) : State := { s with cmd := f s.cmd }
def State.upXbr (s : State) (f : XbrState → XbrState) : State := { s with xbr := f s.xbr }
def State.upShp (s : State) (f : ShpState → ShpState) : State := { s with shp := f s.shp }
def State.upRed (s : State) (f : RedState → RedState) : State := { s with red := f s.red }
def State.upAtt (s : State) (f : AttState → AttState) : State := { s with att := f s.att }
def State.upSqt (s : State) (f : SqtState → SqtState) : State := { s with sqt := f s.sqt }
def State.upCkp (s : State) (f : CkpState → CkpState) : State := { s with ckp := f s.ckp }
def State.upCoh (s : State) (f : CohState → CohState) : State := { s with coh := f s.coh }
def State.upSec (s : State) (f : SecState → SecState) : State := { s with sec := f s.sec }
def State.upCar (s : State) (f : CarState → CarState) : State := { s with car := f s.car }
def State.upFw (s : State) (f : FwState → FwState) : State := s.upCar fun c => { c with fw := f c.fw }
def State.upFlt (s : State) (f : FltState → FltState) : State := { s with flt := f s.flt }
def State.upImg (s : State) (f : ImageState → ImageState) : State := { s with img := f s.img }

/-- What a port keeps. -/
def State.port (s : State) (p : Nat) : PortState := Tab.getD s.fab.ports p {}

/-- Change what a port keeps. -/
def State.upPort (s : State) (p : Nat) (f : PortState → PortState) : State :=
  s.upFab fun b => { b with ports := Tab.put b.ports p (f (Tab.getD b.ports p {})) }

/-- What chapter 12 keeps for a port. -/
def State.sp (s : State) (p : Nat) : ShpPort := Tab.getD s.shp.ports p {}

/-- Change what chapter 12 keeps for a port. -/
def State.upSp (s : State) (p : Nat) (f : ShpPort → ShpPort) : State :=
  s.upShp fun b => { b with ports := Tab.put b.ports p (f (Tab.getD b.ports p {})) }

/-- A port's configuration (R46); a port that no image has configured has role NONE. -/
def State.portCfg (s : State) (p : Nat) : PortRec := Tab.getD s.cfg.ports p {}

/-! Fens (R62, R70). -/
def fenUNUSED : Nat := 0
def fenRUNNING : Nat := 1
def fenQUIESCING : Nat := 2
def fenQUIESCED : Nat := 3

/-- `FEN_STATE.STATE` of a fen. -/
def State.fenState (s : State) (f : Nat) : Nat := s.rd Reg.FEN_STATE_STATE f

/-- Whether a fen is quiescing or quiesced (R61); a client of no fen never is. -/
def State.fenQuiet (s : State) (f : Nat) : Bool :=
  decide (f < 64) && (s.fenState f == fenQUIESCING || s.fenState f == fenQUIESCED)

/-- The valid POLICE record of a source endpoint (R50). -/
def State.clientOf (s : State) (endpoint : Nat) : Option PoliceRec :=
  (Tab.findVal? s.cfg.police fun r => r.valid && r.endpoint == endpoint).map (·.2)

/-- Bytes in one channel group (R2): an eighth of a stack. -/
def State.groupBytes (s : State) : Nat := s.rd Reg.GLB_CAP_STACK_GIB * 2 ^ 30 / 8

/-- Whether the attention assist and sequence table are present (R3). -/
def State.hasAtt (s : State) : Bool := s.on Reg.GLB_CAP_ATT

/-- Whether the switch is down after a device-fatal event (R445, R410). -/
def State.fatal (s : State) : Bool := s.on Reg.FLT_FATAL_CAUSE

/-- Timeouts of the device record (R54): HCLK cycles of TIMEOUT_NS. -/
def State.timeoutHclk (s : State) : Nat := nsToHclk s.cfg.device.timeoutNs

/-- The history window W in ns (R134). -/
def State.histW (s : State) : Nat := max 2 (s.cfg.device.retries + 1) * s.cfg.device.timeoutNs

end Sys2Proof.Machine
end

