-- ==== Sys2Proof/Machine/Events.lean ====
section
/-!
DEFINITION. Event records, the host event queue and part scores (chapter 15, R450–R458): the operations by which every
other unit reports.
Marks: DEDUCED 12, 43, in notes/assumptions.
-/
namespace Sys2Proof.Machine

/-- Severities (R453). -/
def sevINFO : Nat := 0
def sevWARN : Nat := 1
def sevERROR : Nat := 2
def sevFATAL : Nat := 3

/-! Event codes (R454; those above 0x005F: R488). -/
def evREG_ACCESS : Nat := 0x0001
def evTRAY_SHORT : Nat := 0x0002
def evLINK_LOSS : Nat := 0x0010
def evHOME_DEAD : Nat := 0x0011
def evCLIENT_DOWN : Nat := 0x0012
def evLINK_MODE : Nat := 0x0013
def evLINK_AUTH : Nat := 0x0014
def evTRAY_DOWN : Nat := 0x0015
def evLEASE_EXPIRED : Nat := 0x0020
def evTIME_STEP : Nat := 0x0030
def evPORT_TIME_FAULT : Nat := 0x0031
def evREFCLK : Nat := 0x0032
def evSTRAP : Nat := 0x0033
def evSUSPECT : Nat := 0x0040
def evSUSPECT_CLEAR : Nat := 0x0041
def evTRANSIENT : Nat := 0x0042
def evCLUSTER_SPARED : Nat := 0x0043
def evCLUSTER_LOST : Nat := 0x0044
def evMEM_UE : Nat := 0x0045
def evTABLE_UE : Nat := 0x0046
def evARB_BITE : Nat := 0x0047
def evRED_CHECK : Nat := 0x0048
def evSENSOR : Nat := 0x0049
def evCLUSTER_FAULT : Nat := 0x004A
def evIDE_FAIL : Nat := 0x0050
def evTRNG_FAIL : Nat := 0x0051
def evTHERMAL_STAGE : Nat := 0x0060
def evTHERMTRIP : Nat := 0x0061
def evVR_HOT : Nat := 0x0062
def evPOWER_CAP : Nat := 0x0063
def evPOWER_CAP_MISS : Nat := 0x0064
def evLOCKSTEP : Nat := 0x0068
def evPAIR_LOST : Nat := 0x0069
def evCAR_WATCHDOG : Nat := 0x006A
def evSEM_FORCED : Nat := 0x006B
def evFW_STAGED : Nat := 0x0070
def evFW_BOOTED : Nat := 0x0071
def evFW_FALLBACK : Nat := 0x0072
def evFW_VERIFY_FAIL : Nat := 0x0073
def evDEBUG_LEVEL : Nat := 0x0078
def evFLASH_FAIL : Nat := 0x0079
def evSCORE_CLEARED : Nat := 0x00FD
def evEQ_LOST : Nat := 0x00FE
def evDEVICE_FATAL : Nat := 0x00FF

/-- An event to be reported: code, severity, HEALTH or OPERATION, parameters, and the part it names. -/
structure Report where
  code : Nat
  sev : Nat
  health : Bool
  params : List Nat := []
  die : Nat := 0xFF
  cls : Nat := 0
  inst : Nat := 0xFFFF
  deriving DecidableEq, Repr

/-- The 64 bytes of a record (R453). -/
def Event.bytes (e : Event) : Bytes :=
  leBytes 8 e.timeNs ++ leBytes 4 e.eseq ++ leBytes 2 e.code ++ leBytes 1 e.severity ++
  leBytes 1 (b2n e.health + 2 * b2n e.isRepeat) ++ leBytes 1 e.die ++ leBytes 1 e.cls ++ leBytes 2 e.inst ++
  leBytes 4 e.count ++ leBytes 8 0 ++
  leBytes 8 (e.params.getD 0 0) ++ leBytes 8 (e.params.getD 1 0) ++ leBytes 8 (e.params.getD 2 0) ++
  leBytes 8 (e.params.getD 3 0)

/-- Records the internal log holds (chapter 15, Delivery). -/
def logCapacity : Nat := 16384

/-- Remove the oldest record below ERROR, or the oldest of all (R458). -/
def dropOldest (l : List Event) : List Event :=
  match l.findIdx? fun e => decide (e.severity < sevERROR) with
  | some i => l.eraseIdx i
  | none => l.drop 1

/-- Put a record into the internal log. -/
def logPush (l : List Event) (e : Event) : List Event :=
  (if l.length < logCapacity then l else dropOldest l) ++ [e]

/-- Whether host writes carry the T bit: TDISP in RUN (R436, R457). -/
def State.dmaT (s : State) : Bool := s.rd Reg.SEC_TDISP_STATE == 2

/-- Write to host memory over the management link. -/
def State.dmaWrite (s : State) (iova : Nat) (d : Bytes) : State :=
  (s.writeTier tierHOST iova d).emit (.dma iova d.length s.dmaT)

/-- Whether the host queue is full (R458). -/
def State.eqFull (s : State) : Bool :=
  (s.rd Reg.FLT_EQ_TAIL_INDEX + 2 ^ 17 - s.rd Reg.FLT_EQ_HEAD_INDEX) % 2 ^ 17 == 2 ^ s.rd Reg.FLT_EQ_CTL_LOG2

/-- Whether nothing keeps records from the host queue (R458): enabled, not in TDISP ERROR (3), the management link up,
room in the ring. -/
def State.eqOpen (s : State) (linkUp : Bool) : Bool :=
  s.on Reg.FLT_EQ_CTL_ENABLE && s.rd Reg.SEC_TDISP_STATE != 3 && linkUp && !s.eqFull

/-- Write one record at the tail of the host queue and signal it as R457 lays down. -/
def State.eqWrite (s : State) (e : Event) : State :=
  let t := s.rd Reg.FLT_EQ_TAIL_INDEX
  let base := (s.rd64 Reg.FLT_EQ_BASE_LO Reg.FLT_EQ_BASE_HI) / 4096 * 4096
  let s := s.dmaWrite (base + 64 * (t % 2 ^ s.rd Reg.FLT_EQ_CTL_LOG2)) e.bytes
  let s := s.wr Reg.FLT_EQ_TAIL_INDEX (t + 1)
  if decide (sevERROR ≤ e.severity) then
    (s.upFlt fun f => { f with unsignalled := none }).emit (.msix (s.rd Reg.FLT_EQ_VEC_VECTOR))
  else
    s.upFlt fun f => { f with unsignalled := f.unsignalled.or (some s.hclk) }

/-- FLT_PEND's bit for a severity. -/
def pendFld (sev : Nat) : Fld :=
  match sev with
  | 0 => Reg.FLT_PEND_INFO
  | 1 => Reg.FLT_PEND_WARN
  | 2 => Reg.FLT_PEND_ERROR
  | _ => Reg.FLT_PEND_FATAL

/-- Records of the flash log and of the 64 KiB sector that it erases when it is full (R469, R487). -/
def flashCapacity : Nat := 262144
def flashSector : Nat := 1024

/-- Append records to the flash log, under the present boot count (R477, R487). -/
def State.flashAppend (s : State) (es : List Event) : State :=
  let boot := s.rd Reg.CAR_BOOTS_COUNT
  let full := decide (flashCapacity < s.flt.flashLog.length + es.length)
  let cut := if full then flashSector else 0
  let s := { s with flt := { s.flt with flashLog := s.flt.flashLog.drop cut ++ es } }
  { s with car := { s.car with flashBoots := s.car.flashBoots.drop cut ++ es.map fun _ => boot
                               flashErased := s.car.flashErased + cut } }

/-- How many of the records made so far are not yet in the flash log. -/
def State.unpersistedCount (s : State) : Nat := (s.flt.nextEseq + 2 ^ 32 - s.flt.persisted) % 2 ^ 32

/-- Those of them that the SRAM ring still holds. -/
def State.unpersisted (s : State) : List Event :=
  s.flt.log.filter fun e => decide ((e.eseq + 2 ^ 32 - s.flt.persisted) % 2 ^ 32 < s.unpersistedCount)

/-- Make a record: number it, log it, set its FLT_PEND bit (R442, R453). -/
def State.record (s : State) (e : Event) : State × Event :=
  let e := { e with eseq := s.flt.nextEseq, timeNs := s.tnow }
  let s := s.upFlt fun f => { f with log := logPush f.log e, nextEseq := (f.nextEseq + 1) % 2 ^ 32 }
  ((s.wr (pendFld e.severity) 1).wr Reg.FLT_ESEQ_LAST e.eseq, e)

/-- The EQ_LOST record that opens writing again (R458). -/
def lostEvent (n : Nat) : Event := { code := evEQ_LOST, severity := sevWARN, health := true, params := [n] }

/-- When writing can resume after records were skipped, write one EQ_LOST record first (R458). -/
def State.eqResume (s : State) (linkUp : Bool) : State :=
  if s.flt.skipped == 0 || !s.eqOpen linkUp then s
  else
    let (s, e) := s.record (lostEvent s.flt.skipped)
    (s.upFlt fun f => { f with skipped := 0 }).eqWrite e

/-- Whether the PCIe management link is up (R458, R506). -/
def State.mgmtUp (s : State) : Bool := s.flt.mgmtUp

/-- Make a record and deliver it to the host queue (R457, R458). -/
def State.deliver (s : State) (e : Event) : State :=
  let s := s.eqResume s.mgmtUp
  let (s, e) := s.record e
  if decide (e.severity < s.rd Reg.FLT_EQ_CTL_SEV_MIN) then s
  else if s.eqOpen s.mgmtUp then s.eqWrite e
  else (s.bump Reg.FLT_EQ_LOST).upFlt fun f => { f with skipped := f.skipped + 1 }

/-- Whether two events coalesce: equal CODE, DIE, CLASS and INSTANCE (R456). -/
def sameRun (a b : Event) : Bool := a.code == b.code && a.die == b.die && a.cls == b.cls && a.inst == b.inst

/-- Whether an event falls within `us` µs of a run's record (R456). -/
def inRun (s : State) (us : Nat) (e : Event) (k : CoalesceRun) : Bool :=
  sameRun k.first e && decide (s.hclk - k.start < usToHclk us)

/-- Count a repeat in the run it belongs to (R456). -/
def countRepeat (s : State) (us : Nat) (e : Event) (params : List Nat) (k : CoalesceRun) : CoalesceRun :=
  if inRun s us e k then { k with repeats := k.repeats + 1, last := params } else k

/-- Report an event (R453–R458).  A repeat below ERROR within `FLT_COALESCE` µs of its record is counted, not made. -/
def State.event (s : State) (r : Report) : State :=
  let e : Event := { code := r.code, severity := r.sev, health := r.health, die := r.die, cls := r.cls, inst := r.inst,
                     params := r.params }
  let us := s.rd Reg.FLT_COALESCE_US
  if decide (r.sev < sevERROR) && us != 0 && s.flt.runs.any (inRun s us e) then
    s.upFlt fun f => { f with runs := f.runs.map (countRepeat s us e r.params) }
  else
    let s := s.deliver e
    if decide (r.sev < sevERROR) && us != 0 then
      s.upFlt fun f => { f with runs := (f.runs.filter fun k => !(sameRun k.first e && k.repeats == 0)) ++
        [{ first := e, start := s.hclk, repeats := 0, last := [] }] }
    else s

/-- One of Carillon's own events (R488): a HEALTH record of die MH, which names Carillon as its part in a pair's event. -/
def State.carEvent (s : State) (code sev : Nat) (params : List Nat) (pair : Bool := false) : State :=
  if pair then s.event { code := code, sev := sev, health := true, params := params, die := 11, cls := 7, inst := 4 }
  else s.event { code := code, sev := sev, health := true, params := params, die := 11 }

/-! Part scores (R450–R452). -/

/-- Part classes (R450). -/
def clsLANE : Nat := 1
def clsPORT : Nat := 2
def clsSTACK : Nat := 3
def clsCLUSTER : Nat := 4
def clsRING : Nat := 5
def clsD2D : Nat := 6
def clsUNIT : Nat := 7

/-- Instances of a class (R450). -/
def clsCount (c : Nat) : Nat := ([0, 256, 32, 8, 136, 10, 11, 11] : List Nat).getD c 0

/-- A part's score. -/
def State.score (s : State) (cls inst : Nat) : Score := Tab.getD s.flt.scores (cls * 256 + inst) {}

/-- The configuration of a class in force: threshold and decay shift (R462). -/
def State.classCfg (s : State) (cls : Nat) : Nat × Nat :=
  Tab.getD s.flt.inForce cls (Reg.FLT_SCLS_CFG_THR.resetOf cls, Reg.FLT_SCLS_CFG_DECAY.resetOf cls)

/-- Store a part's score and report a change of SUSPECT (R452): it rises at THR and falls below THR / 2. -/
def State.setScore (s : State) (cls inst : Nat) (sc : Score) : State :=
  let pts := sc.s / 256
  let thr := (s.classCfg cls).1
  let sus := if sc.suspect then decide (thr ≤ 2 * pts) else decide (thr ≤ pts)
  let s := s.upFlt fun f => { f with scores := Tab.put f.scores (cls * 256 + inst) { sc with suspect := sus } }
  if sus && !sc.suspect then
    (s.bump Reg.FLT_CNT_SUSPECT).event
      { code := evSUSPECT, sev := sevWARN, health := true, params := [pts], cls := cls, inst := inst }
  else if sc.suspect && !sus then
    s.event { code := evSUSPECT_CLEAR, sev := sevINFO, health := true, params := [pts], cls := cls, inst := inst }
  else s

/-- Charge `weight` points for each whole `per` of `n` more events of a part's row; the remainder is kept (R450). -/
def State.charge (s : State) (cls inst row n per weight : Nat) : State :=
  let sc := s.score cls inst
  let t := Tab.getD sc.rems row 0 + n
  let k := t / per
  let sc := { sc with rems := Tab.put sc.rems row (t % per) }
  let sc := if k = 0 then sc else
    { sc with s := satAdd sc.s (k * weight * 256) 0xFFFFFFFF, events := satAdd sc.events k 0xFFFF }
  s.setScore cls inst sc

/-- A read, patrol or write met an uncorrectable granule of a stack: MEM_UE, the stack's score and the counter
(R444, R450). -/
def State.memUe (s : State) (a source : Nat) : State :=
  let st := stackOf a
  let s := (s.bump Reg.FLT_CNT_UE_STACK).charge clsSTACK st 1 1 1 256
  s.event { code := evMEM_UE, sev := sevWARN, health := true, params := [st, stackAddr s.groupBytes a, source],
            die := st, cls := clsSTACK, inst := st }

/-- R8: a discarded write of an RWQ field. -/
def State.regFault (s : State) (off fen : Nat) : State :=
  s.event { code := evREG_ACCESS, sev := sevWARN, health := false, params := [off, fen] }

end Sys2Proof.Machine
end

