-- ==== Sys2Proof/Machine/Switch.lean ====
section
/-!
DEFINITION. The switch core (chapter 11): responses, route lookup, bucket maps, drops, capture, VOQs, and what a dead
neighbour or home does (R141–R143, R355).
-/
namespace Sys2Proof.Machine

/-! Connections of the crossbar (R344). -/
def connCD (k : Nat) : Nat := 32 + k
def connHE0 : Nat := 40
def connHE1 : Nat := 41

/-- Drop causes (R363). -/
def causeFEC : Nat := 1
def causeTAG : Nat := 2
def causeCRC : Nat := 3
def causeLEN : Nat := 4
def causeHOPS : Nat := 5
def causePOLICE : Nat := 6
def causeNO_CLIENT : Nat := 7
def causeNO_ROUTE : Nat := 8
def causeMATCH : Nat := 9
def causeDEAD_PORT : Nat := 10
def causeBUF_FULL : Nat := 11
def causeHOLD : Nat := 12
def causeGATE : Nat := 13
def causeNO_REQUEST : Nat := 14
def causeEXEC_CHECK : Nat := 15

/-- The counter of a drop cause, and the register index it is counted at: `p` is the port that R363 names. -/
def dropFld (cause : Nat) : Fld :=
  match cause with
  | 1 => Reg.FAB_CNT_FEC_UNCORR
  | 2 => Reg.FAB_CNT_TAG_FAIL
  | 3 => Reg.FAB_CNT_CRC_FAIL
  | 4 => Reg.FAB_CNT_LEN_FAIL
  | 5 => Reg.FAB_CNT_HOPS
  | 6 => Reg.SHP_P_DROP_POLICE
  | 7 => Reg.XBR_P_DROP_NOCLIENT
  | 8 => Reg.XBR_P_DROP_NOROUTE
  | 9 => Reg.XBR_P_DROP_MATCH
  | 10 => Reg.XBR_P_DROP_DEAD
  | 11 => Reg.XBR_P_DROP_BUF
  | 12 => Reg.FAB_CNT_HOLD
  | 13 => Reg.GATE_P_DROP_GATE
  | 14 => Reg.XBR_DROP_NOREQ
  | _ => Reg.XBR_DROP_EXEC_CRC

/-- Count a discarded packet once (R363).  A packet of an internal unit discarded by NO_ROUTE or MATCH_DISCARD counts in
`XBR_DROP_INTERNAL`. -/
def State.drop (s : State) (cause conn p : Nat) : State :=
  if (cause = causeNO_ROUTE ∨ cause = causeMATCH) ∧ 32 ≤ conn then s.bump Reg.XBR_DROP_INTERNAL
  else if cause = causeNO_REQUEST ∨ cause = causeEXEC_CHECK then s.bump (dropFld cause)
  else s.bump (dropFld cause) p

/-! Responses (R128). -/

/-- The response to a request: echoed fields, ECHO from its CE, status, ARG and payload (R128, R146). -/
def respond (req : Packet) (status arg : Nat) (payload : Bytes) : Packet :=
  Packet.seal
    { dst := req.src, src := req.dst, opcode := req.opcode + 0x80,
      flags := req.cls + 8 * b2n req.ect + 32 * b2n req.ce,
      len := req.len, seq := req.seq, region := req.region, key := req.key, addr := req.addr, flow := req.flow,
      status := status, arg := arg, payload := payload }

/-- The payload of a response that was refused: as many zero bytes as R123 asks for its opcode and LEN. -/
def emptyPayload (req : Packet) : Bytes :=
  List.replicate (min 4096 ({ req with opcode := req.opcode + 0x80 }.payloadSize)) 0

/-- Whether a packet is a request that is answered by a response (R126). -/
def Packet.isRequest (p : Packet) : Bool :=
  !p.isRsp && !([opREDUCE_CONTRIB, opREDUCE_PARTIAL, opREDUCE_RESULT, opTIME, opLINK].contains p.opcode)

/-- This switch's own endpoint id (R122). -/
def State.endpoint (s : State) : Nat := 0xF000 + s.rd Reg.POOL_HOME_HOME

/-! Banks and bucket maps (R353–R358). -/

/-- The active bank. -/
def State.bank (s : State) : Bank := if s.rd Reg.RTE_ACTIVE_BANK = 0 then s.xbr.bank0 else s.xbr.bank1

/-- The shadow bank. -/
def State.shadow (s : State) : Bank := if s.rd Reg.RTE_ACTIVE_BANK = 0 then s.xbr.bank1 else s.xbr.bank0

/-- Replace the shadow bank. -/
def State.setShadow (s : State) (b : Bank) : State :=
  s.upXbr fun x => if s.rd Reg.RTE_ACTIVE_BANK = 0 then { x with bank1 := b } else { x with bank0 := b }

/-- The flow's bucket (R353). -/
def bucketOf (seed : Nat) (p : Packet) : Nat :=
  crc32c (leBytes 4 seed ++ leBytes 2 p.src ++ leBytes 2 p.dst ++ leBytes 3 p.flow) % 64

/-- Whether a port may be chosen for egress (R352): its role carries Knawen packets. -/
def State.usablePort (s : State) (p : Nat) : Bool :=
  (s.portCfg p).role != roleNone && (s.portCfg p).role != roleTray

/-- Whether a port's neighbour is alive (R141). -/
def State.alive (s : State) (p : Nat) : Bool := !s.on Reg.FAB_PSTAT_DEAD p

/-- The map built for a port set (R354); no usable port gives no map. -/
def State.buildMap (s : State) (portset : Nat) : List Nat :=
  let ps := (bitList 32 portset).filter fun p => s.usablePort p && s.alive p
  if ps.isEmpty then [] else (List.range 64).map fun b => ps.getD (b % ps.length) 0

/-- Rewrite one map for a dead port (R355): orphaned buckets go in turn to the map's live ports; a map with none keeps
its ports.  Gives the map and the number of buckets moved. -/
def repin (dead : Nat → Bool) (p : Nat) (m : List Nat) : List Nat × Nat :=
  let live := (List.range 32).filter fun q => m.contains q && q != p && !dead q
  if live.isEmpty then (m, 0)
  else
    let orphans := (m.zipIdx.filter fun e => e.1 == p).map (·.2)
    (m.zipIdx.map fun (q, b) => if q = p then live.getD (orphans.idxOf b % live.length) q else q, orphans.length)

/-- Rewrite every map of a bank (R355). -/
def repinBank (dead : Nat → Bool) (p : Nat) (b : Bank) : Bank × Nat :=
  let rs := b.routes.map fun e => (e, repin dead p e.2.map)
  let ms := b.matches_.map fun e => (e, repin dead p e.2.map)
  ({ b with routes := rs.map fun r => (r.1.1, { r.1.2 with map := r.2.1 }),
            matches_ := ms.map fun r => (r.1.1, { r.1.2 with map := r.2.1 }) },
   (rs.map fun r => r.2.2).sum + (ms.map fun r => r.2.2).sum)

/-! Lookup (R349). -/

/-- Whether a match entry matches (R349). -/
def MatchEnt.hits (e : MatchEnt) (p : Packet) : Bool :=
  e.valid && (p.dst ^^^ e.dst) &&& e.dstMask == 0 && (p.opcode ^^^ e.opcode) &&& e.opcMask == 0

/-- Whether an entry of the active bank is uncorrectable, so matches nothing (R444). -/
def State.badEntry (s : State) (table i : Nat) : Bool :=
  s.flt.badEntries.contains (s.rd Reg.RTE_ACTIVE_BANK * 2 ^ 16 + table * 2 ^ 12 + i)

/-- The matching entry, among those of the given actions, of highest PRIORITY and lowest INDEX. -/
def State.bestMatch (s : State) (acts : List Nat) (p : Packet) : Option (Nat × MatchEnt) :=
  s.bank.matches_.foldl (fun best e =>
    if acts.contains e.2.action && e.2.hits p && !s.badEntry 1 e.1 then
      match best with
      | none => some e
      | some b => if b.2.priority < e.2.priority then some e else best
    else best) none

/-- Whether a home is declared dead (R142). -/
def State.homeDead (s : State) (h : Nat) : Bool := bit (s.rd Reg.FAB_DEAD (h / 32)) (h % 32)

/-- What the lookup decides. -/
inductive Verdict where
  | toPort (p : Nat)
  | toHome
  | toEngine (e : Nat)
  | toUnit
  | drop (cause p : Nat)
  /-- Answered TARGET_DEAD by R142; `p` is the port its flow's bucket names. -/
  | dead (p : Nat)
  deriving DecidableEq, Repr

/-- `egress(e, pkt)` for a bucket map (R352, R354). -/
def State.egressBy (s : State) (m : List Nat) (conn : Nat) (p : Packet) : Verdict :=
  match m[bucketOf (s.bank.seed.getD 0) p]? with
  | none => .drop causeNO_ROUTE conn
  | some q => if s.alive q then .toPort q else .drop causeDEAD_PORT q

/-- The reduction engine that serves a port (R31). -/
def engineOf (p : Nat) : Nat := p / 8 % 4

/-- Where a packet for this switch's own endpoint goes (R350). -/
def State.localUnit (s : State) (conn : Nat) (p : Packet) : Verdict :=
  if p.opcode = opREDUCE_CONTRIB ∨ p.opcode = opREDUCE_PARTIAL then .toEngine (engineOf conn)
  else if p.opcode = opREDUCE_RESULT then .toEngine (Tab.getD s.cfg.trees (p.arg % 4096) {}).homeEngine
  else if p.isRsp then .toUnit
  else .toHome

/-- The route lookup (R349). -/
def State.lookup (s : State) (conn : Nat) (p : Packet) : Verdict :=
  match s.bestMatch [0, 1] p with
  | some (_, e) => if e.action = 1 then .drop causeMATCH conn else s.egressBy e.map conn p
  | none =>
    if 0xF000 ≤ p.dst then
      let h := p.dst - 0xF000
      if h = s.rd Reg.POOL_HOME_HOME then s.localUnit conn p
      else
        let r := Tab.getD s.bank.routes h {}
        if r.portset = 0 ∨ s.badEntry 0 h then .drop causeNO_ROUTE conn
        else if s.homeDead h then
          let q := r.map.getD (bucketOf (s.bank.seed.getD 0) p) 0
          if p.isRequest then .dead q else .drop causeDEAD_PORT q
        else s.egressBy r.map conn p
    else
      match s.clientOf p.dst with
      | some r =>
        if (s.portCfg r.port).role = roleAccel ∨ (s.portCfg r.port).role = roleMgmt then
          if s.alive r.port then .toPort r.port else .drop causeDEAD_PORT r.port
        else .drop causeNO_ROUTE conn
      | none => .drop causeNO_ROUTE conn

/-! Telemetry and capture. -/

/-- The queue-depth register half of a queue (R366). -/
def qdFld (q : Nat) : Fld := if q % 2 = 0 then Reg.XBR_P_QD_EVEN else Reg.XBR_P_QD_ODD

/-- The queue-maximum register half of a queue (R366). -/
def qmaxFld (q : Nat) : Fld := if q % 2 = 0 then Reg.XBR_P_QMAX_EVEN else Reg.XBR_P_QMAX_ODD

/-- Cells in an egress queue. -/
def State.qCells (s : State) (p q : Nat) : Nat := ((Tab.getD s.xbr.egress (p * 8 + q) []).map fun k => k.pkt.cells).sum

/-- Depth of an egress queue, reserved cells included (R364). -/
def State.qDepth (s : State) (p q : Nat) : Nat := s.qCells p q + Tab.getD s.xbr.reserved (p * 8 + q) 0

/-- Refresh the depth registers of a queue (R364). -/
def State.noteDepth (s : State) (p q : Nat) : State :=
  let d := min (s.qDepth p q) 0xFFFF
  (s.wr (qdFld q) d p (q / 2)).raise (qmaxFld q) d p (q / 2)

/-- The tier and byte address at which a local address of an extent lies. -/
def Extent.at_ (e : Extent) (a : Nat) : Nat := locByte e.tier e.loc + (a - e.start * unitBytes)

/-- Make a capture record (R359–R362): 64 bytes written at BASE + 64 × (r mod 2^LOG2); lost when the engine is busy or
the ring is full in stop mode. -/
def State.capture (s : State) (qp : QPkt) (sampled : Bool) (mtch : Option Nat) (out cause depth : Nat) : State :=
  if !s.on Reg.XBR_CAP_CTL_ENABLE || !(sampled || mtch.isSome) then s
  else
    let log2 := s.rd Reg.XBR_CAP_CTL_LOG2
    let wr := s.rd Reg.XBR_CAP_WR_INDEX
    let full := s.on Reg.XBR_CAP_CTL_MODE && decide (2 ^ log2 ≤ (wr + 2 ^ 32 - s.rd Reg.XBR_CAP_RD_INDEX) % 2 ^ 32)
    if s.on Reg.XBR_CAP_CTL_BUSY || decide (s.xbr.xclk < s.xbr.capFree) || full then s.bump Reg.XBR_CAP_LOST
    else
      let r := s.xbr.nextRseq
      let rec_ := leBytes 8 s.tnow ++ leBytes 4 (s.tabor % 2 ^ 32) ++ leBytes 4 r ++ leBytes 1 qp.conn ++ leBytes 1 out ++
        leBytes 1 (b2n sampled + 2 * b2n mtch.isSome) ++ leBytes 1 cause ++ leBytes 2 (mtch.getD 0xFFFF) ++
        leBytes 2 (min depth 0xFFFF) ++ leBytes 8 0 ++ qp.pkt.header
      let a := s.rd64 Reg.XBR_CAP_BASE_LO Reg.XBR_CAP_BASE_HI % 2 ^ 46 / 65536 * 65536 + 64 * (r % 2 ^ log2)
      let e := Tab.getD s.pool.extents (s.xbr.capExt.getD 0) {}
      let s := s.upXbr fun x => { x with nextRseq := (r + 1) % 2 ^ 32, capFree := x.xclk + 2 }
      let s := if s.xbr.capExt.isSome && e.state != exFREE then
        (s.writeTier e.tier (e.at_ a) rec_).mendKeys (granKeys e.tier (e.at_ a) 64) else s
      s.wr Reg.XBR_CAP_WR_INDEX ((wr + 1) % 2 ^ 32)

/-! VOQs (R342). -/

/-- Key of the VOQ of an input, an output and a queue. -/
def voqKey (i o q : Nat) : Nat := i * 512 + o * 8 + q

/-- Put a packet at the tail of its VOQ. -/
def State.voqPush (s : State) (o : Nat) (qp : QPkt) : State :=
  let k := voqKey qp.conn o qp.pkt.queue
  s.upXbr fun x => { x with voqs := Tab.put x.voqs k (Tab.getD x.voqs k [] ++ [qp]) }

/-- Release the ingress cells a packet holds (R341). -/
def State.ingressFree (s : State) (qp : QPkt) : State :=
  if qp.held = 0 then s
  else
    let p := qp.conn
    let h := s.rd Reg.XBR_P_IN_CELLS p
    let m := s.rd Reg.XBR_IN_MIN_CELLS
    let back := (h - m) - (h - qp.held - m)
    (s.dec Reg.XBR_P_IN_CELLS qp.held p).inc Reg.XBR_BUF_FREE_CELLS back (p / 16)

/-- Whether a kept request is the outstanding one that a response answers (R150). -/
def FenceEnt.answeredBy (e : FenceEnt) (p : Packet) : Bool :=
  e.tracked && e.held.isNone && e.src == p.dst && e.seq == p.seq

/-- A response passes back toward an attached client: its fenced request is no longer outstanding (R150). -/
def State.fenceAnswered (s : State) (p : Packet) : State :=
  if !p.isRsp then s
  else s.upFab fun b => { b with fences := Tab.mapVals b.fences fun _ t => t.filter fun e => !e.answeredBy p }

/-- Hand a packet on by its lookup verdict.  A packet forwarded from a port gains 1 in HOPS; one that an internal unit
sends, or that is delivered locally, does not (R137, R349). -/
def State.dispatchPkt (s : State) (qp : QPkt) (v : Verdict) : State :=
  match v with
  | .toPort p =>
    let qp := if qp.conn < 32 then { qp with pkt := { qp.pkt with hops := qp.pkt.hops + 1 } } else qp
    (s.fenceAnswered qp.pkt).voqPush p qp
  | .toHome => s.voqPush connHE0 qp
  | .toEngine e => (s.ingressFree qp).upFab fun b => { b with redq := b.redq ++ [(e, { qp with held := 0 })] }
  | .toUnit => (s.ingressFree qp).upFab fun b => { b with rsp := b.rsp ++ [{ qp with held := 0 }] }
  | .drop cause p => (s.ingressFree qp).drop cause qp.conn p
  | .dead _ => s.ingressFree qp

/-- Send a packet from an internal unit (R348): looked up as any other, not policed, never sampled. -/
def State.send (s : State) (conn : Nat) (p : Packet) : State :=
  let qp : QPkt := { pkt := p, conn := conn, rx := s.hclk }
  let v := s.lookup conn p
  let m := (s.bestMatch [2] p).map (·.1)
  let s := match v with
    | .toPort q => s.capture qp false m q 0 (s.qDepth q p.queue)
    | .toHome => s.capture qp false m connHE0 0 0
    | .toEngine e => s.capture qp false m (engineOf e) 0 0
    | .toUnit => s.capture qp false m connHE0 0 0
    | .drop c _ => s.capture qp false m 0xFF c 0
    | .dead _ => s.capture qp false m 0xFF 0 0
  s.dispatchPkt qp v

/-- Answer a request TARGET_DEAD from this switch's own endpoint (R142). -/
def State.answerDead (s : State) (p : Nat) (req : Packet) : State :=
  let r := respond { req with dst := s.endpoint } stTARGET_DEAD 0 (emptyPayload req)
  (s.bump Reg.FAB_CNT_DEAD_RSP p).send connHE0 r

/-- Act on a verdict, answering requests to dead homes (R142). -/
def State.routePkt (s : State) (qp : QPkt) (v : Verdict) : State :=
  let sampled := qp.sampled
  let m := (s.bestMatch [2] qp.pkt).map (·.1)
  match v with
  | .dead p => (s.capture qp sampled m 0xFF 0 0).ingressFree qp |>.answerDead p qp.pkt
  | .toPort p => (s.capture qp sampled m p 0 (s.qDepth p qp.pkt.queue)).dispatchPkt qp v
  | .toHome => (s.capture qp sampled m connHE0 0 0).dispatchPkt qp v
  | .toEngine _ => (s.capture qp sampled m qp.conn 0 0).dispatchPkt qp v
  | .toUnit => (s.capture qp sampled m connHE0 0 0).dispatchPkt qp v
  | .drop c _ => (s.capture qp sampled m 0xFF c 0).dispatchPkt qp v

/-! Fence tracking (R150). -/

/-- Whether the held request at position `i` may go: no request of its class is held before it and, with FENCE set, no
fenced request before it (before its first copy, for a resent one) is outstanding. -/
def mayGo (t : FenceTrack) (i : Nat) (e : FenceEnt) : Bool :=
  let before := t.take i
  let o := (t.findIdx? fun x => x.tracked && x.src == e.src && x.seq == e.seq).getD i
  (before.all fun x => x.held.isNone || x.cls != e.cls) &&
  (!e.fence || (t.take (min o i)).all fun x => !x.tracked)

/-- The first held request that may go. -/
def firstGo (t : FenceTrack) : Option (Nat × QPkt) :=
  (t.zipIdx.filterMap fun (e, i) => e.held.bind fun q => if mayGo t i e then some (i, q) else none).head?

/-- The list after the request at position `i` has gone: a tracked one stays as outstanding. -/
def goneAt (t : FenceTrack) (i : Nat) : FenceTrack :=
  (t.zipIdx.filter fun (e, j) => j != i || e.tracked).map fun (e, j) => if j = i then { e with held := none } else e

/-- Release every held request that may go, in order; `fuel` bounds the releases. -/
def State.sweepN : Nat → State → State
  | 0, s => s
  | fuel + 1, s =>
    match (s.fab.fences.filterMap fun (c, t) => (firstGo t).map fun g => (c, g)).head? with
    | none => s
    | some (c, i, q) =>
      let s := s.upFab fun b => { b with fences := Tab.upd b.fences c fun t => goneAt t i }
      State.sweepN fuel (s.routePkt q (s.lookup q.conn q.pkt))

/-- FENCE_RELEASE (R150): release every held request that may go. -/
def State.sweepFences (s : State) : State :=
  State.sweepN ((s.fab.fences.map fun (_, t) => t.length).sum) s

/-- Send a response from an internal unit, and release what waited for it (R128, R150). -/
def State.answer (s : State) (conn : Nat) (p : Packet) : State := (s.send conn p).sweepFences

/-! Dead neighbours and homes (R141–R143, R355). -/

/-- Ports of the active bank's route to a home. -/
def State.routePorts (s : State) (h : Nat) : Nat := (Tab.getD s.bank.routes h {}).portset

/-- Take back a packet that can no longer leave by a dead port: a request for a dead home is answered TARGET_DEAD,
anything else is dropped DEAD_PORT (R142, R355). -/
def State.orphan (s : State) (p : Nat) (qp : QPkt) : State :=
  let s := s.ingressFree qp
  if qp.pkt.isRequest && decide (0xF000 ≤ qp.pkt.dst) && s.homeDead (qp.pkt.dst - 0xF000) then s.answerDead p qp.pkt
  else s.drop causeDEAD_PORT qp.conn p

/-- Every packet queued to a port or in VOQs toward it, and the state without them. -/
def State.pullPort (s : State) (p : Nat) : List QPkt × State :=
  let vs := s.xbr.voqs.filter fun v => v.1 / 8 % 64 == p
  let es := s.xbr.egress.filter fun v => v.1 / 8 == p
  let pend := (s.port p).arriving
  ((vs.map (·.2)).flatten ++ pend ++ (es.map (·.2)).flatten,
   (s.upXbr fun x => { x with voqs := x.voqs.filter fun v => v.1 / 8 % 64 != p,
                              egress := x.egress.filter fun v => v.1 / 8 != p,
                              reserved := x.reserved.filter fun v => v.1 / 8 != p }).upPort p
     fun q => { q with arriving := [] })

/-- Declare a home dead (R142): its bit, and a HOME_DEAD event.  Engine requests to it are completed by the caller. -/
def State.markHomeDead (s : State) (p h : Nat) : State :=
  let one := popcount 32 (s.routePorts h) == 1
  (s.wr Reg.FAB_DEAD (s.rd Reg.FAB_DEAD (h / 32) ||| 2 ^ (h % 32)) (h / 32)).event
    { code := evHOME_DEAD, sev := sevERROR, health := true,
      params := [h, if one then (s.port p).deadCause else 2, p] }

/-- Homes that port p's neighbour's death makes dead: every port of their route now leads to a dead neighbour. -/
def State.newlyDead (s : State) (p : Nat) : List Nat :=
  (s.bank.routes.filter fun r => bit r.2.portset p && !s.homeDead r.1 &&
    (bitList 32 r.2.portset).all fun q => !s.alive q).map (·.1)

/-- Declare a port's neighbour dead (R141, R142, R355).  `cause` is 0 for beats, 1 for link down. -/
def State.declareDead (s : State) (p cause : Nat) : State :=
  if s.on Reg.FAB_PSTAT_DEAD p then s
  else
    let s := (s.wr Reg.FAB_PSTAT_DEAD 1 p).upPort p fun q => { q with deadCause := cause }
    let dead := fun q => !s.alive q
    let (a0, n0) := repinBank dead p s.xbr.bank0
    let (a1, n1) := repinBank dead p s.xbr.bank1
    let s := (s.upXbr fun x => { x with bank0 := a0, bank1 := a1 }).bump Reg.RTE_CNT_REPIN 0 0
      (if s.rd Reg.RTE_ACTIVE_BANK = 0 then n0 else n1)
    let homes := s.newlyDead p
    let s := homes.foldl (fun s h => s.markHomeDead p h) s
    let s := if (s.portCfg p).role = roleAccel then
        (s.cfg.police.filter fun r => r.2.valid && r.2.port == p).foldl (fun s r => s.event
          { code := evCLIENT_DOWN, sev := sevWARN, health := false, params := [p, r.2.endpoint] }) s
      else s
    let (ps, s) := s.pullPort p
    ps.foldl (fun s q => s.orphan p q) s

end Sys2Proof.Machine
end

