-- ==== Sys2Proof/Machine/Access.lean ====
section
/-!
DEFINITION. Who may reach a register of the window, and when (R6, R436, R492): the checks every register command makes
before it acts.
Marks: DEDUCED 12, in notes/assumptions.
-/
namespace Sys2Proof.Machine

/-- `SEC_TDISP.STATE`: the window's TDISP state (R436). -/
def tdUNLOCKED : Nat := 0
def tdLOCKED : Nat := 1
def tdRUN : Nat := 2
def tdERROR : Nat := 3

/-- Whether TDISP serves an access (R436). -/
def State.tdispServes (s : State) (a : Access) : Bool :=
  a.req != .mgmt || s.rd Reg.SEC_TDISP_STATE == tdUNLOCKED || (s.rd Reg.SEC_TDISP_STATE == tdRUN && a.ide && a.tbit)

/-- Whether an access is 32 bits wide, naturally aligned and inside the 256 MiB window (R6, R533). -/
def plainAccess (a : Access) (off : Nat) : Bool := a.size == 4 && off % 4 == 0 && decide (off < 2 ^ 28)

/-- The guarded sets of R492: semaphore, first and last offset. -/
def guardedSets : List (Nat × Nat × Nat) :=
  [(0, 0x400000, 0x40003F), (1, 0x600000, 0x60003F), (2, 0x1200100, 0x1200133), (3, 0x1000100, 0x100013B),
   (4, 0x1000200, 0x100027F), (5, 0x800100, 0x80013F), (6, 0x1800100, 0x18001D3), (7, 0x2600000, 0x260007F),
   (8, 0x1600100, 0x1600143), (9, 0x40100, 0x4012B), (10, 0x3000040, 0x300004B), (11, 0x2820000, 0x2820033)]

/-- The semaphore that guards an offset (R492). -/
def guardOf (off : Nat) : Option Nat := (guardedSets.find? fun g => decide (g.2.1 ≤ off) && decide (off ≤ g.2.2)).map (·.1)

/-- Whether a semaphore owned by someone else guards the offset (R492). -/
def State.guardDenies (s : State) (a : Access) (off : Nat) : Bool :=
  match guardOf off with
  | none => false
  | some g => s.rd Reg.CAR_SEM_OWNER g != 0 && s.rd Reg.CAR_SEM_OWNER g != a.req.num

/-- The fen that a REG_ACCESS record names where the register belongs to none. -/
def noFen : Nat := 0xFF

/-- Refuse an access on its path: Unsupported Request on the management link, no effect elsewhere (R6). -/
def State.refuseAccess (s : State) (a : Access) (off : Nat) : State :=
  if a.req = .mgmt then s.emit (.unsupported a.req off) else s

/-- Whether nothing answers: the dies are held in reset, or without power (R485, R506). -/
def State.inert (s : State) : Bool := s.car.heldInReset || !s.car.powered

/-- A write to a register of the window: refused by R6 or R436, discarded by R492, or performed by `act`. -/
def State.window (a : Access) (off : Nat) (act : State → State) (s : State) : State :=
  if s.inert then s
  else if !plainAccess a off || !s.tdispServes a then s.refuseAccess a off
  else if s.guardDenies a off then (s.bump Reg.CAR_CNT_SEM_DENY).regFault off noFen
  else act s

/-- End an operation of an indirect set: its STATUS, and DONE (R539). -/
def State.setEnd (s : State) (status done : Fld) (st : Nat) : State := (s.wr status st).wr done 1

end Sys2Proof.Machine
end

