-- ==== Sys2Proof/Machine/AttArith.lean ====
section
/-!
DEFINITION. Arithmetic of attention (R233, R235, R245, R247–R249): directed rounding, binary32 product, quotient and
exponential, exact sums of products, block summaries and the partial softmax.
Marks: DEDUCED 27, in notes/assumptions.
-/
namespace Sys2Proof.Machine

/-! Rounding. -/

/-- The greatest magnitude code whose value is at most `n × 2^x`. -/
def Fmt.floorMag (f : Fmt) (n : Nat) (x : Int) : Nat := f.roundMag (some (2 ^ 32)) n x

/-- Whether `n × 2^x` is less than `m × 2^y`. -/
def dyLt (n : Nat) (x : Int) (m : Nat) (y : Int) : Bool :=
  let low := min x y
  decide (n * 2 ^ (x - low).toNat < m * 2 ^ (y - low).toNat)

/-- The least magnitude code whose value is at least `n × 2^x`. -/
def Fmt.ceilMag (f : Fmt) (n : Nat) (x : Int) : Nat :=
  let c := f.floorMag n x
  let (_, m, y) := f.finite c
  if dyLt m y n x then c + 1 else c

/-- The magnitude code nearest to `n / d × 2^x`, ties to even: a quotient of 300 extra bits with its remainder kept as a
sticky bit. -/
def Fmt.roundRat (f : Fmt) (n d : Nat) (x : Int) : Nat :=
  let q := n * 2 ^ 300 / d
  let sticky := if n * 2 ^ 300 % d = 0 then 0 else 1
  f.roundMag none (2 * q + sticky) (x - 301)

/-- A magnitude code with overflow made infinity, and a sign. -/
def Fmt.signedCode (f : Fmt) (neg : Bool) (c : Nat) : Nat := (if neg then 2 ^ (f.e + f.m) else 0) + min c f.inf

/-- The code of a result of units 2^`u`, rounded once (R247). -/
def Fmt.round (f : Fmt) (u : Int) : Num → Nat
  | .nan => f.inf + 2 ^ (f.m - 1)
  | .pinf => f.inf
  | .ninf => f.signedCode true f.inf
  | .fin a => f.signedCode (decide (a < 0)) (f.roundMag none a.natAbs u)

/-- The binary32 code of a result of units 2^`u`, rounded once toward +∞ (R245). -/
def f32Up (u : Int) : Num → Nat
  | .fin a => if a < 0 then fmtF32.signedCode true (fmtF32.floorMag a.natAbs u)
              else fmtF32.signedCode false (fmtF32.ceilMag a.natAbs u)
  | v => fmtF32.round u v

/-! Exact products and sums.  A value of one factor is in units of 2^-149, a product in units of 2^-298. -/

/-- Exact product of two inputs. -/
def Num.mul : Num → Num → Num
  | .fin a, .fin b => .fin (a * b)
  | .nan, _ => .nan
  | _, .nan => .nan
  | .fin a, .pinf => if a = 0 then .nan else if a < 0 then .ninf else .pinf
  | .fin a, .ninf => if a = 0 then .nan else if a < 0 then .pinf else .ninf
  | .pinf, .fin b => if b = 0 then .nan else if b < 0 then .ninf else .pinf
  | .ninf, .fin b => if b = 0 then .nan else if b < 0 then .pinf else .ninf
  | .pinf, .pinf => .pinf
  | .ninf, .ninf => .pinf
  | _, _ => .ninf

/-- Exact sum, with the state bits of R169. -/
def numSum (l : List Num) : Num := (l.foldl (fun x v => Accum.enter rSUM x v) ({ nofin := false } : Accum)).result rSUM

/-- Greater of two products. -/
def Num.max : Num → Num → Num
  | .nan, _ => .nan
  | _, .nan => .nan
  | .pinf, _ => .pinf
  | _, .pinf => .pinf
  | .ninf, b => b
  | a, .ninf => a
  | .fin a, .fin b => .fin (if a < b then b else a)

/-- Units of a product. -/
def uProd : Int := -298

/-! binary32 operations (R247, R248): round to nearest even. -/

def f32Val (c : Nat) : Num := decodeNum tyFP32 c

/-- Product of two binary32 codes. -/
def f32Mul (x y : Nat) : Nat :=
  let v := Num.mul (f32Val x) (f32Val y)
  match v with
  | .fin a => if a = 0 then fmtF32.signedCode (bit x 31 != bit y 31) 0 else fmtF32.round uProd v
  | _ => fmtF32.round uProd v

/-- Difference of two binary32 codes. -/
def f32Sub (x y : Nat) : Nat := f32Add x (y ^^^ 2 ^ 31)

/-- Quotient of two binary32 codes, rounded once to a format. -/
def f32Div (f : Fmt) (x y : Nat) : Nat :=
  let neg := bit x 31 != bit y 31
  match f32Val x, f32Val y with
  | .fin a, .fin b =>
    if b = 0 then (if a = 0 then f.inf + 2 ^ (f.m - 1) else f.signedCode neg f.inf)
    else f.signedCode neg (f.roundRat a.natAbs b.natAbs 0)
  | .nan, _ => f.inf + 2 ^ (f.m - 1)
  | _, .nan => f.inf + 2 ^ (f.m - 1)
  | .fin _, _ => f.signedCode neg 0
  | _, .fin _ => f.signedCode neg f.inf
  | _, _ => f.inf + 2 ^ (f.m - 1)

/-- Order key of a binary32: numeric order, with -0 and +0 equal and NaN above all. -/
def f32Rank (c : Nat) : Int := if c % 2 ^ 31 = 0 then 0 else if f32NaN c then 2 ^ 32 else f32Key c

/-- Greatest of a list of binary32 codes; -Inf for none. -/
def f32Max (l : List Nat) : Nat := l.foldl (fun m c => if f32Rank m < f32Rank c then c else m) 0xFF800000

/-! EXP (R247). -/

/-- Fraction bits of the exponential's working value. -/
def expBits : Nat := 400

/-- `e^y` for `y` in units of 2^-400 below 2^-9: terms of its series, the k-th being `t`. -/
def expSeries (y : Nat) : Nat → Nat → Nat → Nat → Nat
  | 0, _, _, acc => acc
  | fuel + 1, k, t, acc =>
    let t := t * y / 2 ^ expBits / k
    expSeries y fuel (k + 1) t (acc + t)

/-- Square a working value `n` times. -/
def expSquare : Nat → Nat → Nat
  | 0, v => v
  | n + 1, v => expSquare n (v * v / 2 ^ expBits)

/-- EXP: the binary32 value nearest to e^x. -/
def f32Exp (c : Nat) : Nat :=
  match f32Val c with
  | .nan => Config.expNaN c
  | .pinf => 0x7F800000
  | .ninf => 0
  | .fin a =>
    if a.natAbs < 2 ^ 119 then 0x3F800000
    else if 2 ^ 156 ≤ a.natAbs then (if a < 0 then 0 else 0x7F800000)
    else
      let y := a.natAbs * 2 ^ (expBits - 149) / 2 ^ 16
      let one := 2 ^ expBits
      let v := expSquare 16 (expSeries y 48 1 one one)
      let v := if a < 0 then 2 ^ (2 * expBits) / v else v
      fmtF32.signedCode false (fmtF32.roundMag none v (-400))

/-! Keys, values and summaries. -/

/-- Element type of KFMT (R226). -/
def kvType (kfmt : Nat) : Nat := if kfmt = 0 then tyE4M3 else tyE5M2

/-- The decoded elements of a token: `els` its elements, `scs` its scales, one per 32 (R233). -/
def kvDecode (ty : Nat) (els scs : Bytes) : List Num :=
  els.zipIdx.map fun (b, i) => (decodeMX ty (fld scs (i / 32) 1) b.toNat).1

/-- An E4M3 element of a summary under its scale, exactly (R234). -/
def boundVal (scale code : Nat) : Num :=
  if scale = 0xFF || code % 128 == 127 then .nan
  else
    let (neg, n, x) := fmtE4M3.finite code
    .fin (scaled neg n (x + scale - 127))

/-- Decode `d` bounds with their scales. -/
def boundVals (els scs : Bytes) : List Num := els.zipIdx.map fun (b, i) => boundVal (fld scs (i / 32) 1) b.toNat

/-- The finite value of a decoded element. -/
def Num.int : Num → Int
  | .fin a => a
  | _ => 0

/-- The E8M0 exponent byte and E4M3 codes of one group of extrema (R235), rounded toward -∞ (`down`) or +∞. -/
def boundGroup (down : Bool) (vs : List Int) : Nat × List Nat :=
  let a := vs.foldl (fun m v => max m v.natAbs) 0
  let e : Int := if a = 0 then -127 else max (-127) ((bitLen a : Int) - 1 - 149 - 7)
  ((e + 127).toNat,
   vs.map fun v =>
     let neg := decide (v < 0)
     let mag := if neg == down then fmtE4M3.ceilMag v.natAbs (-149 - e) else fmtE4M3.floorMag v.natAbs (-149 - e)
     (if neg then 128 else 0) + mag)

/-- Elements and scales of the extrema of a block (R235). -/
def boundEncode (down : Bool) (vs : List Int) : Bytes × Bytes :=
  let gs := (List.range (vs.length / 32)).map fun g => boundGroup down ((vs.drop (32 * g)).take 32)
  ((gs.map fun g => (g.2.map fun c => (BitVec.ofNat 8 c : Byte))).flatten, gs.map fun g => (BitVec.ofNat 8 g.1 : Byte))

/-- Column-wise fold of equal-length rows. -/
def columns (f : Int → Int → Int) : List (List Int) → List Int
  | [] => []
  | [r] => r
  | r :: rs => List.zipWith f r (columns f rs)

/-- The bf16 mean of a column sum over `c` tokens (R235). -/
def meanCode (sum : Int) (c : Nat) : Nat :=
  fmtBF16.signedCode (decide (sum < 0)) (fmtBF16.roundRat sum.natAbs c (-149))

/-- The summary of a block (R234, R235): the decoded keys and values of its tokens, and the position of slot 0. -/
def summaryBytes (d first : Nat) (ks vs : List (List Int)) : Bytes :=
  let c := ks.length
  if c = 0 then List.replicate (6 * d + 64) 0
  else
    let (mn, mnS) := boundEncode true (columns min ks)
    let (mx, mxS) := boundEncode false (columns max ks)
    let means := fun (rows : List (List Int)) => ((columns (· + ·) rows).map fun x => leBytes 2 (meanCode x c)).flatten
    mn ++ mx ++ padTo 8 mnS ++ padTo 8 mxS ++ leBytes 2 c ++ leBytes 2 0 ++ leBytes 4 first ++ leBytes 40 0 ++
      means ks ++ means vs

/-! Bounds, selection and the partial softmax. -/

/-- The bound of a block for a query head (R245), as a binary32 code. -/
def boundOf (q mn mx : List Num) : Nat :=
  f32Up uProd (numSum (List.zipWith Num.max (List.zipWith Num.mul q mn) (List.zipWith Num.mul q mx)))

/-- z = RNE(SCALE × (q · k)) (R247). -/
def logit (scale : Nat) (q k : List Num) : Nat :=
  match numSum (List.zipWith Num.mul q k) with
  | .fin a =>
    let (neg, n, x) := fmtF32.finite scale
    fmtF32.signedCode (neg != decide (a < 0)) (fmtF32.roundMag none (n * a.natAbs) (x - 298))
  | v => fmtF32.round uProd v

/-- What one token or centroid adds on its die: its logit, its count, and its value vector. -/
structure SoftTerm where
  z : Nat
  count : Nat := 1
  v : List Num
  deriving DecidableEq, Repr

/-- A partial softmax (R247): m, l and the numerators. -/
structure Partial where
  m : Nat := 0xFF800000
  l : Nat := 0
  u : List Nat := []
  deriving DecidableEq, Repr

/-- `c` times a value. -/
def Num.times (c : Nat) (v : Num) : Num := match v with
  | .fin a => .fin (c * a)
  | v => if c = 0 then .fin 0 else v

/-- A die's partial over its terms (R247, R249). -/
def softPartial (d : Nat) (ts : List SoftTerm) : Partial :=
  if ts.isEmpty then { u := List.replicate d 0 }
  else
    let m := f32Max (ts.map (·.z))
    let ps := ts.map fun t => (Num.times t.count (f32Val (f32Exp (f32Sub t.z m))), t.v)
    { m := m, l := fmtF32.round (-149) (numSum (ps.map (·.1)))
      u := (List.range d).map fun i => fmtF32.round uProd (numSum (ps.map fun p => Num.mul p.1 (p.2.getD i (.fin 0)))) }

/-- The merge of the partials of the dies that have terms (R248): m, l and o, in binary32 or bf16. -/
def softMerge (d : Nat) (bf16 : Bool) (ks : List Partial) : Partial :=
  if ks.isEmpty then { u := List.replicate d 0 }
  else
    let m := f32Max (ks.map (·.m))
    let fs := ks.map fun k => (k, f32Exp (f32Sub k.m m))
    let sum := fun (g : Partial → Nat) => fmtF32.round (-149) (numSum (fs.map fun (k, f) => f32Val (f32Mul (g k) f)))
    let l := sum (·.l)
    { m := m, l := l
      u := (List.range d).map fun i => f32Div (if bf16 then fmtBF16 else fmtF32) (sum fun k => k.u.getD i 0) l }

end Sys2Proof.Machine
end

