-- ==== Sys2Proof/Machine/PoolOps.lean ====
section
/-!
DEFINITION. The pool's shared operations: extent lookup, rights and resolution, free space and first fit, charges,
zero-fills, lease clocks and the release of a move (chapter 03, R64, R75–R102).
Marks: DEDUCED 17, 20, in notes/assumptions.
-/
namespace Sys2Proof.Machine

/-! Extents. -/

/-- Whether local unit `u` lies in the entry's range. -/
def Extent.covers (e : Extent) (u : Nat) : Bool := decide (e.start ≤ u) && decide (u < e.start + e.length)

/-- The extent, in any state other than FREE, that covers a local byte address (R86, R117). -/
def State.extAt (s : State) (a : Nat) : Option (Nat × Extent) :=
  List.find? (fun p => p.2.state != exFREE && p.2.covers (a / unitBytes)) s.pool.extents

/-- An extent entry; one never used reads all 0. -/
def State.ext (s : State) (i : Nat) : Extent := Tab.getD s.pool.extents i {}

/-- Change an extent entry. -/
def State.upExt (s : State) (i : Nat) (f : Extent → Extent) : State :=
  s.upPool fun b => { b with extents := Tab.upd b.extents i f }

/-- First and end byte of an extent's range. -/
def Extent.lo (e : Extent) : Nat := e.start * unitBytes
def Extent.hi (e : Extent) : Nat := (e.start + e.length) * unitBytes

/-- The extents, other than FREE ones, that overlap a byte range, by ascending START. -/
def State.overlapping (s : State) (a n : Nat) : List (Nat × Extent) :=
  sortBy (fun p => p.2.start)
    (s.pool.extents.filter fun p => p.2.state != exFREE && decide (p.2.lo < a + n) && decide (a < p.2.hi))

/-- The whole extents that a range covers (R89), by ascending START. -/
def State.wholeIn (s : State) (a n : Nat) : List (Nat × Extent) :=
  (s.overlapping a n).filter fun p => decide (a ≤ p.2.lo) && decide (p.2.hi ≤ a + n)

/-- Whether a range covers whole extents exactly (R89). -/
def State.coversExactly (s : State) (a n : Nat) : Bool :=
  let es := s.overlapping a n
  es.any (fun p => p.2.lo == a) && es.any (fun p => p.2.hi == a + n) &&
    es.all fun p => decide (a ≤ p.2.lo) && decide (p.2.hi ≤ a + n)

/-- Whether an extent is LEASED, or MOVING and will return to LEASED (R79). -/
def Extent.leased (e : Extent) : Bool := e.state == exLEASED || (e.state == exMOVING && e.prior)

/-- The state a MOVING extent returns to. -/
def Extent.restored (e : Extent) : Nat := if e.prior then exLEASED else exRESIDENT

/-! Regions and rights (R82–R84). -/

/-- Rights bits. -/
def rtR : Nat := 1
def rtW : Nat := 2
def rtA : Nat := 4
def rtC : Nat := 8

/-- A region entry. -/
def State.rgn (s : State) (r : Nat) : Region := Tab.getD s.pool.regions r {}

/-- Groups of a client; 0xFF is none. -/
def State.groupsOf (s : State) (clid : Nat) : Nat × Nat := Tab.getD s.pool.groups clid (0xFF, 0xFF)

/-- Whether a grant slot names the client or a group of it (R83). -/
def State.grantNames (s : State) (g : Grant) (clid : Nat) : Bool :=
  let (a, b) := s.groupsOf clid
  g.valid && (if g.isGroup then (g.id == a && a != 0xFF) || (g.id == b && b != 0xFF) else g.id == clid)

/-- A client's rights in a region (R83); none in a region that is not valid. -/
def State.rights (s : State) (g : Region) (clid fen : Nat) : Nat :=
  if !g.valid then 0 else g.grants.foldl (fun r k => if s.grantNames k clid then r ||| k.rights else r) (if fen = g.fen then g.dflt else 0)

/-- Whether rights `r` cover the rights needed. -/
def rightsCover (r need : Nat) : Bool := r &&& need == need

/-- The status of the region part of R86: key, rights, fence, and the range in the region. -/
def State.regionCheck (s : State) (clid fen region key need a n : Nat) : Nat :=
  let g := s.rgn region
  if !g.valid || g.key != key || !rightsCover (s.rights g clid fen) need then stKEY_DENIED
  else if g.fenced then stFENCED
  else if a < g.base * unitBytes || decide ((g.base + g.size) * unitBytes < a + n) then stRANGE
  else stOK

/-- Regions are disjoint: whether a range overlaps a valid region. -/
def State.rangeTaken (s : State) (base size : Nat) : Bool :=
  s.pool.regions.any fun p => p.2.valid && decide (p.2.base < base + size) && decide (base < p.2.base + p.2.size)

/-- Extents of a region (R82 EXTENTS): its entries other than FREE ones. -/
def State.extentsOf (s : State) (r : Nat) : List (Nat × Extent) :=
  s.pool.extents.filter fun p => p.2.state != exFREE && p.2.region == r

/-- The eight words of a region entry (R82). -/
def State.regionWords (s : State) (r : Nat) : List Nat :=
  let g := s.rgn r
  [g.base + 2 ^ 30 * b2n g.valid + 2 ^ 31 * b2n g.fenced, g.size, g.key + 2 ^ 16 * g.fen + 2 ^ 22 * g.dflt] ++
  (List.range 4).map (fun k =>
    let x := g.grants.getD k {}
    x.id + 2 ^ 12 * b2n x.isGroup + 2 ^ 13 * x.rights + 2 ^ 17 * b2n x.valid) ++
  [(s.extentsOf r).length]

/-! Trays (R76, R77). -/

/-- The lower port of the tray that a port belongs to: a bonded pair is named by its lower port (R46, R76). -/
def State.trayPort (s : State) (p : Nat) : Nat := if (s.portCfg p).laneMode = 3 then p / 2 * 2 else p

/-- A tray's record. -/
def State.trayRec (s : State) (t : Nat) : Tray := Tab.getD s.pool.trays t {}

/-- Whether a tray is usable: enumerated, with its link up (R90). -/
def State.trayOk (s : State) (t : Nat) : Bool := (s.trayRec t).enumerated && (s.trayRec t).up

/-- Tray ports that a mask selects, ascending; a bonded pair by either bit (R76). -/
def State.traysIn (s : State) (mask : Nat) : List Nat :=
  (s.pool.trays.map (·.1)).filter fun t => (bitList 32 mask).any fun p => s.trayPort p == t

/-- Whether a location's tray is down, so that a request to it completes TARGET_DEAD (R77). -/
def State.deadAt (s : State) (tier a : Nat) : Bool := tier == tierTRAY && !s.trayOk (trayPortOf a)

/-! Free space and first fit (R90). -/

/-- Units of a channel group. -/
def State.groupUnits (s : State) : Nat := s.groupBytes / unitBytes

/-- The group, or tray port, and the offset in units of a location field (R75). -/
def locPlace (tier loc : Nat) : Nat × Nat := if tier = tierNEAR then (loc % 64, loc / 64) else (loc % 32, loc / 32)

/-- The location field of a place. -/
def placeLoc (tier k off : Nat) : Nat := if tier = tierNEAR then nearLoc k off else trayLoc k off

/-- Occupied runs (offset, units) of a group or tray: extents, destinations of moves, and space awaiting zero-fill. -/
def State.occupied (s : State) (tier k : Nat) : List (Nat × Nat) :=
  let here := fun (t loc n : Nat) => if t = tier && (locPlace tier loc).1 == k then some ((locPlace tier loc).2, n) else none
  sortBy (·.1)
    ((s.pool.extents.filterMap fun p => if p.2.state = exFREE then none else here p.2.tier p.2.loc p.2.length) ++
     (s.pool.moves.filterMap fun p => here p.2.destTier p.2.dest p.2.units) ++
     (s.pool.scrubs.filterMap fun p => here p.2.tier p.2.loc p.2.units))

/-- The lowest offset of a free run of `n` units below `limit`, given the occupied runs in ascending order. -/
def firstGap (n limit : Nat) : Nat → List (Nat × Nat) → Option Nat
  | at_, [] => if at_ + n ≤ limit then some at_ else none
  | at_, (o, k) :: t => if at_ + n ≤ o then (if at_ + n ≤ limit then some at_ else none) else firstGap n limit (max at_ (o + k)) t

/-- First fit of `n` units (R90): the lowest-numbered group of the fen in the mask, or the lowest usable tray. -/
def State.firstFit (s : State) (tier mask fen n : Nat) : Option Nat :=
  let places := if tier = tierNEAR then
      (bitList 64 (mask &&& (Tab.getD s.cfg.fens fen {}).chgroups)).map fun g => (g, s.groupUnits)
    else (s.traysIn mask).filterMap fun t => if s.trayOk t then some (t, (s.trayRec t).units) else none
  (places.filterMap fun (k, limit) => (firstGap n limit 0 (s.occupied tier k)).map fun o => placeLoc tier k o).head?

/-! Charges (R64). -/

/-- Count a refused allocation, NO_RESOURCE or TABLE_FULL (R64). -/
def State.refuseNoRes (s : State) (fen : Nat) : State := s.bump Reg.FEN_REFUSE_NO_RES fen
def State.refuseFull (s : State) (fen : Nat) : State := s.bump Reg.FEN_REFUSE_TBL_FULL fen

/-- Units charged to a fen's CAPRING_BYTES. -/
def State.capringUsed (s : State) (fen : Nat) : Nat :=
  (s.pool.extents.map fun p => if p.2.capring && p.2.state != exFREE && p.2.fen == fen then p.2.length else 0).sum +
  (s.pool.scrubs.map fun p => if p.2.capring && p.2.fen == fen then p.2.units else 0).sum

/-- Whether `n` more units of a tier fit the fen's reservation. -/
def State.fitsRsv (s : State) (tier fen n : Nat) (capring : Bool := false) : Bool :=
  if capring then decide ((s.capringUsed fen + n) * unitBytes ≤ (Tab.getD s.cfg.limits fen {}).capringBytes)
  else if tier = tierNEAR then decide (s.rd Reg.FEN_NEAR_USED_UNITS fen + n ≤ s.rd Reg.FEN_NEAR_RSV_UNITS fen)
  else if tier = tierTRAY then decide (s.rd Reg.FEN_TRAY_USED_UNITS fen + n ≤ s.rd Reg.FEN_TRAY_RSV_UNITS fen)
  else true

/-- Charge `n` units of a tier to a fen. -/
def State.chargeUnits (s : State) (tier fen n : Nat) (capring : Bool := false) : State :=
  if capring then s
  else if tier = tierNEAR then
    let s := s.inc Reg.FEN_NEAR_USED_UNITS n fen
    s.measure wmNear (s.rd Reg.FEN_NEAR_USED_UNITS fen) fen
  else if tier = tierTRAY then s.inc Reg.FEN_TRAY_USED_UNITS n fen
  else s

/-- Return `n` units of a tier to a fen's reservation. -/
def State.returnUnits (s : State) (tier fen n : Nat) (capring : Bool := false) : State :=
  if capring then s
  else if tier = tierNEAR then
    let s := s.dec Reg.FEN_NEAR_USED_UNITS n fen
    s.measure wmNear (s.rd Reg.FEN_NEAR_USED_UNITS fen) fen
  else if tier = tierTRAY then s.dec Reg.FEN_TRAY_USED_UNITS n fen
  else s

/-- Take `n` units out of, or give them back to, the free space of a tier (R115). -/
def State.takeFree (s : State) (tier n : Nat) : State :=
  if tier = tierNEAR then s.dec Reg.POOL_NEAR_FREE_UNITS n
  else if tier = tierTRAY then s.dec Reg.POOL_TRAY_FREE_UNITS n else s
def State.giveFree (s : State) (tier n : Nat) : State :=
  if tier = tierNEAR then s.inc Reg.POOL_NEAR_FREE_UNITS n
  else if tier = tierTRAY then s.inc Reg.POOL_TRAY_FREE_UNITS n else s

/-- Whether one more extent fits the fen's EXTENTS reservation. -/
def State.fitsExtent (s : State) (fen : Nat) : Bool :=
  decide (s.rd Reg.FEN_EXT_USED_COUNT fen < (Tab.getD s.cfg.limits fen {}).extents)

/-- Entries in use: allocated, or FREE with SCRUB. -/
def State.extUsed (s : State) (i : Nat) : Bool := let e := s.ext i; e.state != exFREE || e.scrub

/-- The lowest extent entry free for use. -/
def State.freeExt (s : State) : Option Nat :=
  match (List.range (s.pool.extents.length + 1)).find? fun i => !s.extUsed i with
  | some i => if i < 1048576 then some i else none
  | none => none

/-! Zero-fills (R92). -/

/-- Begin the zero-fill of a location the switch gives up; its charge stays until it ends. -/
def State.scrub (s : State) (k : Scrub) : State :=
  let s := s.upPool fun b => { b with scrubs := Tab.put b.scrubs b.nextScrub k, nextScrub := b.nextScrub + 1 }
  let s := s.inc Reg.POOL_SCRUB_PEND_UNITS k.units
  s.measure wmScrub (s.rd Reg.POOL_SCRUB_PEND_UNITS)

/-- Set an extent FREE with SCRUB 1 and zero-fill its location (R92).  A HOST extent has no location to fill: it leaves
at once. -/
def State.freeExtent (s : State) (i : Nat) (rgn : Option Nat := none) : State :=
  let e := s.ext i
  if e.tier = tierHOST then
    (s.upExt i fun _ => {}).dec Reg.FEN_EXT_USED_COUNT 1 e.fen
  else
    let s := s.upExt i fun e => { e with state := exFREE, scrub := true }
    s.scrub { tier := e.tier, loc := e.loc, units := e.length, fen := e.fen, ext := some i, capring := e.capring, region := rgn }

/-! Lease clocks (R100). -/

/-- A client's LEASED extents that lie outside fenced regions. -/
def State.holdings (s : State) (clid : Nat) : List (Nat × Extent) :=
  s.pool.extents.filter fun p => p.2.leased && p.2.holder == clid && !(s.rgn p.2.region).fenced

/-- A client's lease record. -/
def State.lease (s : State) (clid : Nat) : Lease := Tab.getD s.pool.leases clid { periodS := s.cfg.device.leaseMaxS }

/-- Change a client's lease record. -/
def State.upLease (s : State) (clid : Nat) (f : Lease → Lease) : State :=
  s.upPool fun b => { b with leases := Tab.put b.leases clid (f (s.lease clid)) }

/-- Set the expiry to now plus PERIOD_S. -/
def State.renew (s : State) (l : Lease) : Lease :=
  { l with running := true, stopped := none, expiry := s.tnow + l.periodS * 1000000000,
           deadline := s.hclk + l.periodS * 1200000000 }

/-- Whether a lease's expiry cycle has passed (R102). -/
def State.lapsed (s : State) (l : Lease) : Bool := l.running && decide (l.deadline < s.hclk)

/-- Bring a client's lease clock in line with what it holds and with its fen's state (R61, R100). -/
def State.syncLease (s : State) (clid : Nat) : State :=
  let l := s.lease clid
  match s.holdings clid with
  | [] => if l.running || l.stopped.isSome || l.expiry != 0 then
      s.upLease clid fun l => { l with running := false, stopped := none, expiry := 0, deadline := 0 } else s
  | (_, e) :: _ =>
    if s.lapsed l then s
    else if s.fenState e.fen == fenRUNNING then
      if l.running then s
      else match l.stopped with
        | some r => s.upLease clid fun l => { l with running := true, stopped := none, deadline := s.hclk + r,
                                                     expiry := s.tnow + r * 5 / 6 }
        | none => s.upLease clid fun l => s.renew l
    else if l.running then
      s.upLease clid fun l => { l with running := false, stopped := some (l.deadline - s.hclk) }
    else if l.stopped.isSome then s
    else s.upLease clid fun l => { l with stopped := some (l.periodS * 1200000000) }

/-- Bring every lease clock in line. -/
def State.syncLeases (s : State) : State :=
  ((s.pool.extents.filterMap fun p => if p.2.leased then some p.2.holder else none) ++ s.pool.leases.map (·.1)).eraseDups.foldl
    (fun s c => s.syncLease c) s

/-! Moves (R93, R94). -/

/-- End a move without commit: STATE returns to PRIOR, the location is unchanged; the written part of the destination is
zero-filled, and the rest returns at once (R92, R94). -/
def State.releaseMove (s : State) (i : Nat) : State :=
  match Tab.find? s.pool.moves i with
  | none => s
  | some m =>
    let e := s.ext i
    let s := s.upExt i fun e => { e with state := e.restored, prior := false, destTier := 0, dest := 0 }
    let s := s.upPool fun b => { b with moves := Tab.del b.moves i }
    let rest := m.units - m.copied
    let s := (s.returnUnits m.destTier e.fen rest e.capring).giveFree m.destTier rest
    let s := if m.copied = 0 then s else
      s.scrub { tier := m.destTier, loc := m.dest, units := m.copied, fen := e.fen, capring := e.capring }
    s.bump Reg.POOL_CNT_MOVE_ABORT

/-! Reference counts (R81, R111). -/

/-- Raise a command's references on the extents it touches; `none` where a count would pass its maximum (R81). -/
def State.raiseRefs (s : State) (rs ws : List Nat) : Option State :=
  if rs.any (fun i => 65535 ≤ (s.ext i).rrefs) || ws.any (fun i => 65535 ≤ (s.ext i).wrefs) then none
  else
    let s := rs.foldl (fun s i => s.upExt i fun e => { e with rrefs := e.rrefs + 1 }) s
    some (ws.foldl (fun s i => s.upExt i fun e => { e with wrefs := e.wrefs + 1 }) s)

/-- Drop a command's references (R111). -/
def State.dropRefs (s : State) (rs ws : List Nat) : State :=
  let s := rs.foldl (fun s i => s.upExt i fun e => { e with rrefs := e.rrefs - 1 }) s
  ws.foldl (fun s i => s.upExt i fun e => { e with wrefs := e.wrefs - 1 }) s

/-! Data paths. -/

/-- Write into an extent's data at a local byte address, following a move in progress: what the copy has already carried
is written at the destination too, so the moved data is whole. -/
def State.writeLocal (s : State) (i a : Nat) (d : Bytes) : State :=
  let e := s.ext i
  let s := s.writeTier e.tier (e.at_ a) d
  match Tab.find? s.pool.moves i with
  | none => s
  | some m =>
    if a - e.lo < m.copied * unitBytes then s.writeTier m.destTier (locByte m.destTier m.dest + (a - e.lo)) d else s

/-- Which die's atomic unit serves a location: CD(stack), or CD(tray port mod 8) (R27). -/
def dieAt (tier a : Nat) : Nat := if tier = tierNEAR then stackOf a else trayPortOf a % 8

/-- Record the bad granules of a range that a read met: one MEM_UE each for granules on a stack (R444). -/
def State.noteBad (s : State) (tier a n : Nat) : State :=
  if tier != tierNEAR then s
  else ((granKeys tier a n).filter s.badKey).foldl (fun s k => s.memUe (k % 2 ^ 58 * 64) 0) s

end Sys2Proof.Machine
end

