-- ==== Sys2Proof/Machine/CmdOps.lean ====
section
/-!
DEFINITION. The command engine's shared operations: rings and completion entries, staging, clusters, the order of
dispatch, kills and re-runs (R282–R308, R217, R446).
Marks: DEDUCED 18, 30, in notes/assumptions.
-/
namespace Sys2Proof.Machine

/-! Rings and commands. -/

/-- A ring pair; one never registered is DISABLED. -/
def State.ring (s : State) (p : Nat) : Ring := Tab.getD s.cmd.rings p {}

/-- Change a ring pair. -/
def State.upRing (s : State) (p : Nat) (f : Ring → Ring) : State :=
  s.upCmd fun b => { b with rings := Tab.put b.rings p (f (Tab.getD b.rings p {})) }

/-- An accepted command. -/
def State.cmdOf (s : State) (cid : Nat) : Option Cmd := Tab.find? s.cmd.cmds cid

/-- Change an accepted command. -/
def State.upCid (s : State) (cid : Nat) (f : Cmd → Cmd) : State := s.upCmd fun b => { b with cmds := Tab.upd b.cmds cid f }

/-- Change a chunk of a command. -/
def State.upChunk (s : State) (cid k : Nat) (f : Chunk → Chunk) : State :=
  s.upCid cid fun c => { c with chunks := Tab.upd c.chunks k f }

/-- Add an accepted command: the state and its number. -/
def State.addCmd (s : State) (c : Cmd) : State × Nat :=
  (s.upCmd fun b => { b with cmds := Tab.put b.cmds b.nextCid c, nextCid := b.nextCid + 1 }, s.cmd.nextCid)

/-- Class of a ring pair (R282). -/
def pairClass (p : Nat) : Nat := p % 4

/-! Staging (R294). -/

/-- Chunks of staging of a fen. -/
def State.stageCap (s : State) (fen : Nat) : Nat := (Tab.getD s.cfg.limits fen {}).stagingBytes / 65536

/-- Staging chunks a command holds: its base once admitted, and its extra working chunks. -/
def Cmd.staging (c : Cmd) : Nat :=
  (match c.phase with | .ready => c.base | _ => 0) + (c.chunks.countP fun k => k.2.extra)

/-- Staging chunks held by a fen's commands of class RT (`rt`), or of the other classes. -/
def State.stageHeld (s : State) (fen : Nat) (rt : Bool) : Nat :=
  ((s.cmd.cmds.filter fun c => c.2.fen == fen && (c.2.cls == 0) == rt).map fun c => c.2.staging).sum

/-- Whether `n` more chunks of staging fit for a class: RT draws on its reserve first, the others leave it alone. -/
def State.stageFits (s : State) (fen cls n : Nat) : Bool :=
  let rt := s.stageHeld fen true
  let other := s.stageHeld fen false
  let reserve := s.rd Reg.CMD_FEN_RT_STAGE_CHUNKS fen
  if cls = 0 then decide (rt + other + n ≤ s.stageCap fen)
  else decide (max rt reserve + other + n ≤ s.stageCap fen)

/-- Bring a fen's staging and context gauges in line with its commands (R316). -/
def State.syncCmd (s : State) (fen : Nat) : State :=
  let mine := s.cmd.cmds.filter fun c => c.2.fen == fen
  let s := s.wr Reg.CMD_FEN_STAGE_USED_CHUNKS (mine.map fun c => c.2.staging).sum fen
  let s := s.wr Reg.CMD_FEN_WAIT_STAGE (mine.countP fun c => c.2.phase == .staging) fen
  let n := mine.countP fun c => c.2.src == 0
  (s.wr Reg.CMD_FEN_CTX_USED n fen).measure wmCtx n fen

/-! Clusters (R301, R446–R448). -/

/-- The physical cluster behind a logical one: 17k + n for cluster n of die k, and n 16 is the spare (R39, R450). -/
def State.physOf (s : State) (c : Nat) : Nat :=
  if Tab.find? s.flt.spareFor (c / 16) = some c then c / 16 * 17 + 16 else c / 16 * 17 + c % 16

/-- Whether dispatch may use a logical cluster: not lost, not under test, not awaiting its spare. -/
def State.clusterUp (s : State) (c : Nat) : Bool :=
  !bit (s.rd Reg.FLT_CLUS_LOST_MASK (c / 32)) (c % 32) && !Tab.has s.flt.tests (s.physOf c) &&
    Tab.find? s.flt.spareBist (c / 16) != some c

/-- Clusters of a fen. -/
def State.fenClusters (s : State) (fen : Nat) : List Nat := bitList 128 (Tab.getD s.cfg.fens fen {}).clusters

/-- Whether a chunk of a fen and class may run on a cluster (R301). -/
def State.eligible (s : State) (fen cls c : Nat) : Bool :=
  let r := Tab.getD s.cfg.fens fen {}
  r.valid && bit r.clusters c && (cls == 0 || !bit r.rtClusters c) && s.clusterUp c

/-- The die that does a fen's work for a die (R251): itself, or the next with a cluster of the fen. -/
def State.workDie (s : State) (fen k : Nat) : Nat :=
  ((List.range 8).map fun i => (k + i) % 8).find? (fun d => (s.fenClusters fen).any fun c => c / 16 == d) |>.getD k

/-- The clusters on which a command's chunk `k` may run. -/
def State.chunkClusters (s : State) (c : Cmd) (k : Nat) : List Nat :=
  let all := (List.range 128).filter fun x => s.eligible c.fen c.cls x
  let all := match c.dies[k]? with
    | none => all
    | some d =>
      let w := s.workDie c.fen d
      let on := all.filter fun x => x / 16 == w
      if w = d then on else on.take 1
  match (Tab.find? c.chunks k).bind fun x => x.avoid with
  | none => all
  | some a => let rest := all.filter fun x => s.physOf x != a; if rest.isEmpty then all else rest

/-- Whether a cluster runs no chunk. -/
def State.idle (s : State) (c : Nat) : Bool := !Tab.has s.cmd.running c

/-! The order of dispatch (R301). -/

/-- A chunk that waits for a cluster. -/
structure Waiting where
  cid : Nat
  k : Nat
  cls : Nat
  eff : Nat
  readyAt : Nat
  pair : Nat
  deriving DecidableEq, Repr

/-- Chunks in flight: dispatched and not committed. -/
def Cmd.inFlight (c : Cmd) : Nat := c.chunks.countP fun k => k.2.phase != .waiting

/-- The chunk of a command that is next to dispatch: the lowest one killed or aged, else the lowest never dispatched. -/
def Cmd.nextChunk (c : Cmd) : Option Nat :=
  match List.find? (fun k => k.2.phase == ChunkPhase.waiting) c.chunks with
  | some k => some k.1
  | none => if c.next < c.nchunks then some c.next else none

/-- Whether an earlier command holds this one back: ORDERED (R299), or one of its set (R326). -/
def State.heldBack (s : State) (cid : Nat) (c : Cmd) : Bool :=
  s.cmd.cmds.any fun e => decide (e.1 < cid) &&
    ((c.ordered && e.2.src == 0 && e.2.pair == c.pair) || (c.serial.isSome && e.2.serial == c.serial))

/-- Whether the next chunk in flight of a command needs an extra working chunk (R294). -/
def Cmd.needsExtra (c : Cmd) : Bool := c.chunks.any fun k => k.2.phase != .waiting && !k.2.extra

/-- Whether the command's chunks may not be chosen as victims (R306). -/
def Cmd.isShielded (c : Cmd) : Bool := c.shieldAt.isSome

/-- Whether chunks of a command may be dispatched: its fen runs, or it quiesces and the command is in its shielded run
(R62, R307). -/
def State.mayRun (s : State) (c : Cmd) : Bool :=
  s.fenState c.fen == fenRUNNING || (s.fenState c.fen == fenQUIESCING && c.isShielded)

/-- The waiting chunk of a command that may be dispatched now, if it has one. -/
def State.waitingOf (s : State) (cid : Nat) (c : Cmd) : Option Waiting :=
  if c.phase != .ready || !s.mayRun c || s.heldBack cid c then none
  else if c.par != 0 && decide (c.par ≤ c.inFlight) then none
  else if c.needsExtra && c.src != 2 && !s.stageFits c.fen c.cls 1 then none
  else c.nextChunk.map fun k =>
    let x := Tab.getD c.chunks k { readyAt := c.readyAt }
    ⟨cid, k, c.cls, c.cls - x.raises, x.readyAt, c.pair⟩

/-- Whether `a` comes before `b` in the order of R301. -/
def Waiting.before (a b : Waiting) : Bool :=
  a.eff < b.eff || (a.eff == b.eff && (a.readyAt < b.readyAt || (a.readyAt == b.readyAt &&
    (a.pair < b.pair || (a.pair == b.pair && (a.k < b.k || (a.k == b.k && a.cid < b.cid)))))))

/-- Insert a waiting chunk in order. -/
def insertWaiting (w : Waiting) : List Waiting → List Waiting
  | [] => [w]
  | x :: t => if w.before x then w :: x :: t else x :: insertWaiting w t

/-- Every waiting chunk that may be dispatched, in the order of R301. -/
def State.waiting (s : State) : List Waiting :=
  (s.cmd.cmds.filterMap fun (cid, c) => s.waitingOf cid c).foldl (fun l w => insertWaiting w l) []

/-- Clusters on which a waiting chunk may run. -/
def State.clustersOf (s : State) (w : Waiting) : List Nat :=
  match s.cmdOf w.cid with
  | none => []
  | some c => s.chunkClusters c w.k

/-! Kills. -/

/-- Put a running or staged chunk back to wait, discarding its staged results (R302, R304). -/
def State.requeue (s : State) (cid k : Nat) : State :=
  let s := s.upChunk cid k fun x => { x with phase := .waiting, extra := false, writes := [], again := true, raises := 0,
                                             work := {}, vals := [], blobs := [], status := 0, flags := 0, late := [], timedOut := false }
  let s := s.upCmd fun b => { b with running := List.filter (fun r => r.2 != (cid, k)) b.running }
  match s.cmdOf cid with
  | some c => s.syncCmd c.fen
  | none => s

/-- A pre-emption kill of the chunk on a cluster (R304–R306). -/
def State.preemptKill (s : State) (cluster : Nat) : State :=
  match Tab.find? s.cmd.running cluster with
  | none => s
  | some (cid, k) =>
    match s.cmdOf cid with
    | none => s
    | some c =>
      let s := s.requeue cid k
      let n := c.kills + 1
      let shield := decide (s.rd Reg.CMD_KILL_LIMIT_COUNT ≤ n) && c.shieldAt.isNone
      let now := if shield then some s.hclk else c.shieldAt
      let all := satAdd c.killsAll 1 0xFFFF
      let s := s.upCid cid fun c =>
        { c with kills := n, killsAll := all, shieldAt := now, shielded := c.shielded || shield }
      let s := if shield then s.bump Reg.CMD_CNT_SHIELD else s
      let s := (s.bump Reg.CMD_CNT_PREEMPT).bump Reg.CMD_FEN_CNT_PREEMPT c.fen
      s.upCmd fun b => { b with killedAt := Tab.put b.killedAt cluster s.hclk }

/-- The victim for a chunk of class `cls` among clusters (R304): lowest class, latest dispatch, highest cluster. -/
def State.victim (s : State) (cls : Nat) (cs : List Nat) : Option Nat :=
  let cands := cs.filterMap fun x => do
    let (cid, k) ← Tab.find? s.cmd.running x
    let c ← s.cmdOf cid
    let h ← Tab.find? c.chunks k
    if cls < c.cls && !c.isShielded then some (x, c.cls, h.dispatchedAt) else none
  (cands.foldl (fun best v =>
    match best with
    | none => some v
    | some b =>
      if b.2.1 < v.2.1 || (b.2.1 == v.2.1 && (b.2.2 < v.2.2 || (b.2.2 == v.2.2 && b.1 < v.1))) then some v else some b)
    none).map (·.1)

/-- Give each waiting chunk, in order, an idle eligible cluster not promised to an earlier one, or kill a victim for it
(R304, R308). -/
def State.preemptFor : List Waiting → List Nat → State → State
  | [], _, s => s
  | w :: ws, promised, s =>
    let cs := s.clustersOf w
    match cs.find? fun x => s.idle x && !promised.contains x with
    | some x => State.preemptFor ws (x :: promised) s
    | none =>
      match s.victim w.cls (cs.filter fun x => !promised.contains x) with
      | some x => State.preemptFor ws (x :: promised) (s.preemptKill x)
      | none => State.preemptFor ws promised s

/-- Every pre-emption kill that R304 calls for now. -/
def State.preempt (s : State) : State := State.preemptFor s.waiting [] s

/-! Ends of commands. -/

/-- Put a command out of the engine: its references are dropped, its clusters and staging fall free (R111, R294). -/
def State.endWork (s : State) (cid : Nat) : State :=
  match s.cmdOf cid with
  | none => s
  | some c =>
    let s := s.dropRefs c.rrefs c.wrefs
    let s := s.upCmd fun b => { b with cmds := Tab.del b.cmds cid,
                                       running := List.filter (fun r => r.2.1 != cid) b.running }
    let s := s.upPool fun b => { b with xlates := List.filter (fun x => x.2.cid != cid) b.xlates }
    let s := s.upFab fun b => { b with eng := List.filter (fun e => e.2.cid != cid) b.eng }
    s.syncCmd c.fen

/-- Whether the opcode's RESULT stands on every status (R296). -/
def resultAlways (op : Nat) : Bool := [0x18, 0x19, 0x1B, 0x28, 0x21].contains op

/-- RESULT of a completion (R296). -/
def Cmd.resultFor (c : Cmd) (status : Nat) : Nat :=
  if resultAlways c.opcode || status == stOK || status == stLATE || status == stDEGRADED then c.result else 0

/-- PHASE of CQ entry number `i` (R295). -/
def phaseOf (i log2 : Nat) : Nat := 1 - i / 2 ^ log2 % 2

/-- The 32 bytes of a completion entry (R295). -/
def Cmd.entry (c : Cmd) (status malf phase now : Nat) : Bytes :=
  leBytes 4 c.cmdId ++ leBytes 1 status ++ leBytes 1 (phase + 2 * b2n c.shielded + 4 * b2n c.rerun) ++
  leBytes 2 (if status = stMALFORMED then malf else 0) ++ leBytes 8 (c.resultFor status) ++ leBytes 4 c.committed ++
  leBytes 2 c.killsAll ++ leBytes 1 c.rflags ++ leBytes 1 c.opcode ++ leBytes 8 now

/-- A ring enters ERROR (R284). -/
def State.ringError (s : State) (p : Nat) : State :=
  if (s.ring p).state = ringERROR then s
  else (s.upRing p fun r => { r with state := ringERROR, err := stCHECK_FAIL }).bump Reg.CMD_CNT_RING_ERR

/-- Write a completion entry (COMPLETION_WRITE, R284, R295), unless the switch is down (R410): where its granule is bad the ring enters ERROR and the
command has no entry. -/
def State.writeEntry (s : State) (c : Cmd) (status malf : Nat) : State :=
  let r := s.ring c.pair
  let a := r.cqBase + 32 * (r.cqTail % 2 ^ r.cqLog2)
  let e := s.ext r.cqExt
  let s := s.upRing c.pair fun r => { r with outstanding := r.outstanding - 1 }
  if s.fatal then s
  else if s.badRange e.tier (e.at_ a) 32 then s.ringError c.pair
  else
    let s := s.writeLocal r.cqExt a (c.entry status malf (phaseOf r.cqTail r.cqLog2) s.tnow)
    let s := s.upRing c.pair fun r => { r with cqTail := (r.cqTail + 1) % 65536 }
    let s := (s.bump Reg.CMD_CNT_DONE).bump Reg.CMD_FEN_CNT_DONE c.fen
    let s := if status = stMALFORMED then s.bump Reg.CMD_CNT_MALF else s
    if status = stKILLED then s.bump Reg.CMD_CNT_KILLED else s

/-- Complete a command of a ring with a status and, for MALFORMED, an offset. -/
def State.complete (s : State) (cid status : Nat) (malf : Nat := 0) : State :=
  match s.cmdOf cid with
  | none => s
  | some c => (s.endWork cid).writeEntry c status malf

/-- Stop a ring's command without a completion entry (R298): it leaves OUTSTANDING. -/
def State.stopCmd (s : State) (cid : Nat) : State :=
  match s.cmdOf cid with
  | none => s
  | some c =>
    let moves := s.pool.moves.filter fun m => m.2.cid == some cid
    let s := moves.foldl (fun s m => s.releaseMove m.1) s
    let s := s.endWork cid
    if c.src = 0 then s.upRing c.pair fun r => { r with outstanding := r.outstanding - 1 } else s

/-- Abort the move of an extent, if it has one; its command completes with the status given (R87, R94). -/
def State.abortMove (s : State) (i status : Nat) : State :=
  match Tab.find? s.pool.moves i with
  | none => s
  | some m =>
    let s := s.releaseMove i
    match m.cid with
    | none => s
    | some cid => s.complete cid status

/-! Cluster faults (R446–R448). -/

/-- Kill a chunk without counting it (R307): a quiesce, a failed check or a mapped-out cluster. -/
def State.softKill (s : State) (cid k : Nat) : State := s.requeue cid k

/-- The logical cluster that a physical one serves as, if any. -/
def State.logicalOf (s : State) (ph : Nat) : Option Nat :=
  ((List.range 16).map fun n => ph / 17 * 16 + n).find? fun c => s.physOf c == ph

/-- The valid fen that owns a logical cluster. -/
def State.fenOfCluster (s : State) (c : Nat) : Option Nat :=
  (Tab.findVal? s.cfg.fens fun f => f.valid && bit f.clusters c).map (·.1)

/-- Whether a cluster is the last of its fen that dispatch may use. -/
def State.lastOfFen (s : State) (c : Nat) : Bool :=
  match s.fenOfCluster c with
  | none => false
  | some f => (s.fenClusters f).all fun x => x == c || !s.clusterUp x

/-- A test run, or the re-run that serves as one, passes: the fault was transient (R446). -/
def State.transient (s : State) (ph cause : Nat) : State :=
  let s := s.upFlt fun f => { f with tests := Tab.del f.tests ph }
  ((s.bump Reg.FLT_CNT_TRANSIENT).charge clsCLUSTER ph 0 1 1 256).event
    { code := evTRANSIENT, sev := sevINFO, health := true, params := [cause], die := ph / 17, cls := clsCLUSTER, inst := ph }

/-- A physical cluster is mapped out (R447, R449). -/
def State.mapOut (s : State) (ph : Nat) : State :=
  (s.wr Reg.FLT_CLUS_OUT_PHYS (setBits (s.rd Reg.FLT_CLUS_OUT_PHYS (ph / 17)) (ph % 17) 1 1) (ph / 17)).bump Reg.FLT_CNT_MAPOUT

/-- A logical cluster is lost, unless it is its fen's last, which stays in service (R448). -/
def State.clusterLost (s : State) (c : Nat) : State :=
  let ph := s.physOf c
  if s.lastOfFen c then s.wr Reg.FLT_CLUS_LAST_MASK (setBits (s.rd Reg.FLT_CLUS_LAST_MASK (c / 32)) (c % 32) 1 1) (c / 32)
  else
    ((s.wr Reg.FLT_CLUS_LOST_MASK (setBits (s.rd Reg.FLT_CLUS_LOST_MASK (c / 32)) (c % 32) 1 1) (c / 32)).mapOut ph).event
      { code := evCLUSTER_LOST, sev := sevERROR, health := true, params := [c], die := c / 16, cls := clsCLUSTER, inst := ph }

/-- A physical cluster is lasting-faulty (R447, R448): its chunks are killed, and its die's spare runs its self-test where
it is free. -/
def State.lasting (s : State) (ph : Nat) : State :=
  let s := s.upFlt fun f => { f with tests := Tab.del f.tests ph }
  match s.logicalOf ph with
  | none => s
  | some c =>
    let s := (List.filter (fun r => r.1 == c) s.cmd.running).foldl (fun s r => s.softKill r.2.1 r.2.2) s
    let d := ph / 17
    if ph % 17 = 16 || Tab.has s.flt.spareFor d || Tab.has s.flt.spareBist d || bit (s.rd Reg.FLT_CLUS_OUT_PHYS d) 16 then
      s.clusterLost c
    else s.upFlt fun f => { f with spareBist := Tab.put f.spareBist d c }

/-- The spare's self-test has passed: it takes the logical number (R39, R447). -/
def State.spared (s : State) (c : Nat) : State :=
  let d := c / 16
  let ph := s.physOf c
  let s := (s.mapOut ph).upFlt fun f => { f with spareFor := Tab.put f.spareFor d c }
  (s.wr Reg.GLB_DIE_CD_SPARE (setBits (s.rd Reg.GLB_DIE_CD_SPARE) d 1 1)).event
    { code := evCLUSTER_SPARED, sev := sevWARN, health := true, params := [ph], die := d, cls := clsCLUSTER, inst := ph }

/-- A cluster fault is detected on the cluster of a chunk that is to run again (R446): its record is made, and the physical
cluster is withdrawn for a test run.  Where its fen has no other, the chunk's re-run on it is the test run. -/
def State.clusterFault (s : State) (cl cause cid k : Nat) : State :=
  let ph := s.physOf cl
  let s := s.event { code := evCLUSTER_FAULT, sev := sevWARN, health := true, params := [cause, ph], die := cl / 16,
                     cls := clsCLUSTER, inst := ph }
  if s.lastOfFen cl then s.upChunk cid k fun x => { x with selfTest := some (ph, cause), avoid := none }
  else s.upFlt fun f => { f with tests := Tab.put f.tests ph { cause := cause, cid := cid, chunk := k, start := s.hclk } }

/-- A chunk's re-run has passed: where it was its cluster's test run, that has passed too (R446). -/
def State.rerunPassed (s : State) (cid k : Nat) : State :=
  match (s.cmdOf cid).bind fun c => (Tab.find? c.chunks k).bind fun x => x.selfTest with
  | none => s
  | some (ph, cause) => (s.upChunk cid k fun x => { x with selfTest := none }).transient ph cause

/-- A command's chunk has finished its work: its results are staged and its cluster falls free (R302). -/
def State.stage (s : State) (cid k : Nat) (f : Chunk → Chunk) : State :=
  let s := (s.rerunPassed cid k).upChunk cid k fun x => { f x with phase := .staged, progress := s.hclk }
  s.upCmd fun b => { b with running := List.filter (fun r => r.2 != (cid, k)) b.running }

/-- The running chunk `k` of command `cid`, with its cluster.  No work goes on in a switch that is down (R410). -/
def State.runningChunk (s : State) (cid k : Nat) : Option (Cmd × Chunk × Nat) := do
  guard !s.fatal
  let c ← s.cmdOf cid
  let x ← Tab.find? c.chunks k
  let r ← List.find? (fun r => r.2 == (cid, k)) s.cmd.running
  some (c, x, r.1)

/-- Kill every dispatched chunk of a command and re-queue it, so that it goes on from its first uncommitted chunk (R62);
a commit that has begun, its requests outstanding, is not interrupted (R302). -/
def State.requeueAll (s : State) (cid : Nat) : State :=
  match s.cmdOf cid with
  | none => s
  | some c =>
    let sent := List.any s.fab.eng fun e => e.2.cid == cid
    let hit := c.chunks.filter fun x => x.2.phase == .running || (x.2.phase == .staged && !sent)
    hit.foldl (fun s x => s.softKill cid x.1) s

/-- The kills of a quiesce: every dispatched chunk of the fen's unshielded commands (R62). -/
def State.quiesceKill (s : State) (fen : Nat) : State :=
  (s.cmd.cmds.filter fun c => c.2.fen == fen && !c.2.isShielded).foldl (fun s c => s.requeueAll c.1) s

/-! Operand segments (R111). -/

/-- The pieces of a byte range of a reference, in order: extent, tier, byte address, length. -/
def segPieces : List Seg → Nat → Nat → List Seg
  | [], _, _ => []
  | g :: gs, o, n =>
    if g.len ≤ o then segPieces gs (o - g.len) n
    else
      let k := min n (g.len - o)
      if k = 0 then [] else { g with at_ := g.at_ + o, len := k } :: segPieces gs 0 (n - k)

/-- Segments of one reference of a command. -/
def Cmd.segsOf (c : Cmd) (ref : Nat) : List Seg := c.segs.filter fun g => g.ref == ref

/-- The pieces of bytes `o … o+n-1` of reference `ref`. -/
def Cmd.pieces (c : Cmd) (ref o n : Nat) : List Seg := segPieces (c.segsOf ref) o n

/-- What reading pieces meets: a dead tray, or a bad granule (R77, R444). -/
def State.readFault (s : State) (ps : List Seg) : Option Nat :=
  if ps.any fun g => s.deadAt g.tier g.at_ then some stTARGET_DEAD
  else if ps.any fun g => s.badRange g.tier g.at_ g.len then some stCHECK_FAIL
  else none

/-- Record the bad granules that reading pieces met. -/
def State.noteBadPieces (s : State) (ps : List Seg) : State := ps.foldl (fun s g => s.noteBad g.tier g.at_ g.len) s

/-- The data of pieces. -/
def State.readPieces (s : State) (ps : List Seg) : Bytes := (ps.map fun g => s.readTier g.tier g.at_ g.len).flatten

/-- Staged writes of data over pieces. -/
def stagePieces : List Seg → Bytes → List StagedWrite
  | [], _ => []
  | g :: gs, d => { tier := g.tier, at_ := g.at_, data := d.take g.len } :: stagePieces gs (d.drop g.len)

/-- Perform a staged write: a whole granule becomes correct; a partial one over a bad granule is stored poisoned (R444). -/
def State.performWrite (s : State) (w : StagedWrite) : State :=
  if w.data.isEmpty then s
  else
    let ks := granKeys w.tier w.at_ w.data.length
    let whole := fun k => decide (w.at_ ≤ k % 2 ^ 58 * 64) && decide (k % 2 ^ 58 * 64 + 64 ≤ w.at_ + w.data.length)
    let bad := ks.filter fun k => s.badKey k && !whole k
    let s := ((bad.filter fun k => k / 2 ^ 58 == tierNEAR).foldl (fun s k => s.memUe (k % 2 ^ 58 * 64) 2) s)
    let s := s.mendKeys (ks.filter whole)
    let s := if bad.isEmpty then s else s.poisonKeys bad
    s.writeTier w.tier w.at_ w.data

/-- A chunk's check has failed, or it read a granule that cannot be read: it runs again once on another cluster, then the
command completes CHECK_FAIL (R217, R444).  Gives whether the re-run has failed too. -/
def State.checkFail (s : State) (cid k : Nat) : State × Bool :=
  match s.runningChunk cid k with
  | none => (s, false)
  | some (_, x, cl) =>
    if x.fails = 0 then
      let ph := s.physOf cl
      ((s.requeue cid k).upChunk cid k fun x => { x with fails := 1, avoid := some ph }, false)
    else (s, true)

end Sys2Proof.Machine
end

