-- ==== Sys2Proof/Machine/Reduction.lean ====
section
/-!
DEFINITION. Exact reduction (chapter 05): accepting contributions and partials, engine slots, commit, results, deadlines
and keeping: REDUCE_CONTRIB, REDUCE_PARTIAL, REDUCE_RESULT, REDUCE_SLOT_GRANT, REDUCE_DEADLINE, REDUCE_KEEP_EXPIRE,
RED_TREE_READ.
Marks: DEDUCED 24, 25, in notes/assumptions.
-/
namespace Sys2Proof.Machine

/-- The first failing field of a list of (offset, fails) in ascending offset (R129). -/
def firstBad : List (Nat × Bool) → Option Nat
  | [] => none
  | (o, b) :: t => if b then some o else firstBad t

/-! Header fields of reduction packets (R160). -/
def Packet.tree (p : Packet) : Nat := p.arg % 4096
def Packet.tag (p : Packet) : Nat := bits p.arg 12 8
def Packet.ty (p : Packet) : Nat := bits p.arg 20 4
def Packet.oty (p : Packet) : Nat := bits p.arg 24 4
def Packet.rop (p : Packet) : Nat := bits p.arg 28 2
def Packet.want (p : Packet) : Bool := bit p.arg 30
def Packet.last (p : Packet) : Bool := bit p.arg 31
def Packet.epos (p : Packet) : Nat := p.addr % 2 ^ 46

/-- Key of an instance. -/
def redKey (tree tag : Nat) : Nat := tree * 256 + tag

/-- Change an instance. -/
def State.upInst (s : State) (k : Nat) (f : RedInst → RedInst) : State :=
  s.upRed fun b => { b with insts := Tab.upd b.insts k f }

/-- Change a chunk of an instance. -/
def State.upRChunk (s : State) (k c : Nat) (f : RedChunk → RedChunk) : State :=
  s.upInst k fun i => { i with chunks := Tab.put i.chunks c (f (Tab.getD i.chunks c {})) }

/-- Header-field checks that every request shares (R129 step 1, R122): DST, FLAGS[7]; then ADDR[63:58], FLOW[23:20] and
STATUS at their own offsets. -/
def redFields (s : State) (p : Packet) : List (Nat × Bool) :=
  let contrib := p.opcode == opREDUCE_CONTRIB
  let okTy := tyValid p.ty
  [(0, p.dst != 0xF000 + p.home || p.dst != s.endpoint),
   (5, bit p.flags 7),
   (6, contrib && okTy && (if p.last then (tyCount p.ty p.len).isNone || p.len == 0 else p.len != tyP p.ty)),
   (12, p.region != 0), (14, p.key != 0),
   (16, decide (2 ^ 58 ≤ p.addr) || decide (2 ^ 26 ≤ p.epos) ||
        (if contrib then okTy && p.epos % tyE p.ty != 0 else p.epos % 32 != 0)),
   (24, decide (2 ^ 20 ≤ p.flow)),
   (27, contrib && p.status != 0),
   (28, !okTy || !tyValid p.oty || p.rop == 3 || tyFloat p.ty != tyFloat p.oty)]

/-! Sending (R183, R184, R186). -/

/-- A REDUCE_RESULT to a contributor or child. -/
def State.resultPacket (s : State) (i : RedInst) (r : RedSender) (pos status flags : Nat) (last : Bool) (payload : Bytes) : Packet :=
  Packet.seal
    { dst := r.src, src := s.endpoint, opcode := opREDUCE_RESULT,
      flags := i.cls + 8 * b2n r.ect + 32 * b2n (r.ce && !r.child), len := payload.length, seq := r.seq,
      addr := (if r.child then r.src - 0xF000 else s.rd Reg.POOL_HOME_HOME) * 2 ^ 46 + pos, flow := r.flow, status := status,
      arg := i.tree + 2 ^ 12 * i.tag + 2 ^ 20 * i.otype + 2 ^ 24 * flags + 2 ^ 28 * i.op + 2 ^ 31 * b2n last,
      payload := payload }

/-- Send a REDUCE_RESULT; a REDUCE command of this switch takes the outcome itself (R311). -/
def State.sendResult (s : State) (i : RedInst) (r : RedSender) (pos status flags : Nat) (last : Bool) (payload : Bytes) :
    State :=
  if r.cmd.isSome then s else s.send connHE0 (s.resultPacket i r pos status flags last payload)

/-- Answer a contribution that opens nothing with a status result (R165, R177). -/
def State.answerContrib (s : State) (p : Packet) (status off : Nat) : State :=
  s.send connHE0 (Packet.seal
    { dst := p.src, src := s.endpoint, opcode := opREDUCE_RESULT,
      flags := p.cls + 8 * b2n p.ect + 32 * b2n p.ce, seq := p.seq,
      addr := s.rd Reg.POOL_HOME_HOME * 2 ^ 46 + p.epos, flow := p.flow, status := status,
      arg :=
        let a := p.tree + 2 ^ 12 * p.tag + 2 ^ 20 * p.oty + 2 ^ 28 * p.rop + 2 ^ 31
        if status = stMALFORMED then setBits a 0 16 off else a })

/-- Send a partial, or a status partial, to another switch. -/
def State.sendPartial (s : State) (i : RedInst) (home pos status : Nat) (want last : Bool) (payload : Bytes) : State :=
  let q := s.fab.nextSeq
  let s := s.upFab fun b => { b with nextSeq := (q + 1) % 2 ^ 32 }
  s.send connHE0 (Packet.seal
    { dst := 0xF000 + home, src := s.endpoint, opcode := opREDUCE_PARTIAL, flags := i.cls, len := payload.length, seq := q,
      addr := home * 2 ^ 46 + pos, status := status,
      arg := i.tree + 2 ^ 12 * i.tag + 2 ^ 20 * i.typ + 2 ^ 24 * i.otype + 2 ^ 28 * i.op + 2 ^ 30 * b2n want +
        2 ^ 31 * b2n last,
      payload := payload })

/-! Charges (R177). -/

/-- Bytes charged for a chunk. -/
def chunkCharge (typ : Nat) : Nat := tyE typ * 40 + 256

/-- Bytes of a fen's quota in use on an engine. -/
def State.redUsed (s : State) (fen e : Nat) : Nat :=
  (s.red.insts.map fun i => if i.2.fen = fen then
      (i.2.chunks.countP fun c => c.2.engines.contains e) * chunkCharge i.2.typ else 0).sum

/-- Charge a chunk to an engine; `none` where the quota is short. -/
def State.redCharge (s : State) (k c e : Nat) : Option State :=
  let i := Tab.getD s.red.insts k {}
  if (Tab.getD i.chunks c {}).engines.contains e then some s
  else if s.rd Reg.RED_QUOTA i.fen < s.redUsed i.fen e + chunkCharge i.typ then none
  else
    let s := s.upRChunk k c fun x => { x with engines := e :: x.engines }
    let s := s.inc Reg.RED_ENG_USED_BYTES (chunkCharge i.typ) e
    some (s.measure wmRed (s.rd Reg.RED_ENG_USED_BYTES e) e)

/-- Free an instance's chunks and return their charges (R186, R190). -/
def State.redFree (s : State) (k : Nat) : State :=
  let i := Tab.getD s.red.insts k {}
  let es := (i.chunks.map fun c => c.2.engines).flatten
  let s := s.upInst k fun i => { i with chunks := [] }
  es.foldl (fun s e =>
    let s := s.dec Reg.RED_ENG_USED_BYTES (chunkCharge i.typ) e
    s.measure wmRed (s.rd Reg.RED_ENG_USED_BYTES e) e) s

/-! Outcomes. -/

/-- Count an instance's end by its status (R193). -/
def State.countEnd (s : State) (status : Nat) : State :=
  if status = stTIMEOUT then s.bump Reg.RED_CNT_TIMEOUT
  else if status = stNO_RESOURCE then s.bump Reg.RED_CNT_NORES
  else if status = stRETRY then s.bump Reg.RED_CNT_RETRY
  else if status = stTARGET_DEAD then s.bump Reg.RED_CNT_DEAD
  else if status = stCHECK_FAIL then s.bump Reg.FLT_CNT_RED_CHECK
  else s

/-- Everyone counted for an instance, each with its lowest position. -/
def RedInst.participants (i : RedInst) : List RedSender :=
  let all := (i.chunks.map fun c => c.2.counted ++ c.2.parts.map (·.1)).flatten
  (all.foldl (fun acc r => if acc.any fun x => x.src == r.src then acc else acc ++ [r]) [])

/-- End an instance with a status (R186): status results to its participants, a status partial to the parent where the
switch has not committed, and its chunks freed. -/
def State.redEnd (s : State) (k status : Nat) : State :=
  match Tab.find? s.red.insts k with
  | none => s
  | some i =>
    if i.outcome.isSome then s
    else
      let s := i.participants.foldl (fun s r => s.sendResult i r (if r.child then 0 else r.pos) status 0 true []) s
      let s := if !i.root && !i.committed then s.sendPartial i i.parentHome 0 status false true [] else s
      let s := (s.redFree k).countEnd status
      s.upInst k fun i => { i with outcome := some (status, s.hclk) }

/-- End every instance that satisfies a condition. -/
def State.redEndAll (s : State) (q : RedInst → Bool) (status : Nat) : State :=
  (s.red.insts.filter fun p => p.2.outcome.isNone && q p.2).foldl (fun s p => s.redEnd p.1 status) s

/-- Quiesce (R188): a fen's uncommitted instances end RETRY. -/
def State.redQuiesce (s : State) (fen : Nat) : State := s.redEndAll (fun i => i.fen == fen && !i.committed) stRETRY

/-- Whether a port's contribution, or child's partial, is still missing from an open instance (R187). -/
def RedInst.missing (i : RedInst) (p : Nat) : Bool :=
  !i.committed && (i.n.isNone || i.chunks.any fun c => !c.2.complete && !c.2.counted.any fun r => r.port == p)

/-- What a dead neighbour or home ends (R187). -/
def State.redDead (s : State) : State :=
  s.redEndAll (fun i =>
    (!i.root && s.homeDead i.parentHome) ||
    ((bitList 32 i.childPorts).any fun p => s.homeDead (s.portCfg p).peerHome && i.missing p) ||
    ((bitList 32 i.memberPorts).any fun p => !s.alive p && i.missing p)) stTARGET_DEAD

/-! Results (R182–R184). -/

/-- Whether `c` is the last chunk of an instance whose size is known. -/
def RedInst.isLastChunk (i : RedInst) (c : Nat) : Bool :=
  match i.n with
  | none => false
  | some n => c == (n - 1) / tyE i.typ

/-- Elements of chunk `c`. -/
def RedInst.chunkElems (i : RedInst) (c : Nat) : Nat :=
  match i.n with
  | none => tyE i.typ
  | some n => min (tyE i.typ) (n - c * tyE i.typ)

/-- The highest chunk whose result a sender wants. -/
def RedInst.lastWanted (i : RedInst) (src : Nat) : Nat :=
  (i.chunks.map fun c => if c.2.counted.any fun r => r.src == src && r.want then c.1 else 0).foldl max 0

/-- Send one result packet of chunk `c` to those that want it. -/
def State.deliver1 (s : State) (i : RedInst) (c : Nat) (x : RedChunk) (r : RedResult) (final : Bool) : State :=
  (x.counted.filter (·.want)).foldl (fun s d =>
    s.sendResult i d r.pos 0 r.flags (final && c == i.lastWanted d.src) r.payload) s

/-- Cut a chunk's results into packets (R183). -/
def resultPackets (i : RedInst) (c flags : Nat) (xs : List Accum) (rangeIn : Bool) : List RedResult × Nat :=
  let e := tyE i.otype
  let vs := xs.map fun x => x.result i.op
  (List.range (ceilDiv vs.length e)).foldl (fun (out, fl) j =>
      let p := c * tyE i.typ + j * e
      let (b, f) := encodeElems i.otype i.seed p ((vs.drop (j * e)).take e)
      let fl := fl ||| f
      (out ++ [{ pos := p, payload := b, flags := fl }], fl))
    (([], flags ||| (if rangeIn then flRANGE_IN else 0)) : List RedResult × Nat)

/-- The root commits (R182): it rounds the chunks in position order and sends each one's result. -/
def State.redCommitRoot (s : State) (k : Nat) : State :=
  match Tab.find? s.red.insts k with
  | none => s
  | some i =>
    let (s, fl) := i.chunks.foldl (fun (s, fl) (c, x) =>
        let (rs, fl) := resultPackets i c fl (x.accs.take (i.chunkElems c)) x.rangeIn
        let s := rs.zipIdx.foldl (fun s (r, j) => s.deliver1 i c x r (j + 1 == rs.length)) s
        (s.upRChunk k c fun x => { x with results := rs, accs := [] }, fl)) (s, 0)
    let s := s.bump Reg.RED_CNT_COMMIT
    let s := if bit fl 2 then s.bump Reg.RED_CNT_OVERFLOW else s
    s.upInst k fun i => { i with committed := true, flags := fl, outcome := some (stOK, s.hclk) }

/-- The FP32 value of a partial's element (R179). -/
def partialNum (op : Nat) (x : Accum) : Num :=
  if x.nofin && !x.nan && !x.pos && !x.neg then
    (if op = rMIN then .pinf else if op = rMAX then .ninf else .fin 0)
  else x.result op

/-- The packets of a chunk's partial: position and payload (R179–R181). -/
def RedInst.partialPackets (i : RedInst) (c : Nat) (xs : List Accum) : List (Nat × Bytes) :=
  let p0 := c * tyE i.typ
  if i.exact || !tyFloat i.typ then
    xpPackets ((List.range (ceilDiv xs.length 32)).map fun j => (p0 + 32 * j, (xs.drop (32 * j)).take 32))
  else
    (List.range (ceilDiv xs.length 1024)).map fun j =>
      (p0 + 1024 * j, (encodeElems tyFP32 none 0 (((xs.drop (1024 * j)).take 1024).map (partialNum i.op))).1)

/-- Whether every chunk of an instance is complete. -/
def RedInst.allComplete (i : RedInst) : Bool :=
  match i.n with
  | none => false
  | some n => (List.range (ceilDiv n (tyE i.typ))).all fun c => (Tab.getD i.chunks c {}).complete

/-- A chunk has its EXPECTED senders (REDUCE_CHUNK_COMPLETE, R178, R182). -/
def State.redComplete (s : State) (k c : Nat) : State :=
  let i := Tab.getD s.red.insts k {}
  match s.redCharge k c i.homeEngine with
  | none => s.redEnd k stNO_RESOURCE
  | some s =>
    let s := s.upRChunk k c fun x => { x with complete := true }
    let i := Tab.getD s.red.insts k {}
    let x := Tab.getD i.chunks c {}
    if i.root then (if i.allComplete then s.redCommitRoot k else s)
    else
      let xs := x.accs.take (i.chunkElems c)
      let xs := xs ++ List.replicate (i.chunkElems c - xs.length) {}
      let ps := i.partialPackets c xs
      let want := x.counted.any (·.want)
      let s := ps.zipIdx.foldl (fun s ((p, b), j) =>
        s.sendPartial i i.parentHome p 0 want (i.isLastChunk c && j + 1 == ps.length) b) s
      if !i.allComplete then s
      else
        let s := s.bump Reg.RED_CNT_COMMIT
        let none_ := i.chunks.all fun c => c.2.counted.all fun r => !r.want
        s.upInst k fun i => { i with committed := true, outcome := if none_ then some (stOK, s.hclk) else none }

/-! Accepting (R164, R177, R190). -/

/-- The sender of a packet. -/
def senderOf (p : Packet) (port : Nat) (cmd : Option (Nat × Nat)) : RedSender :=
  { src := p.src, port := port, seq := p.seq, pos := p.epos, want := p.want, ce := p.ce,
    child := p.opcode == opREDUCE_PARTIAL, flow := p.flow, ect := p.ect, cmd := cmd }

/-- Answer a packet of an ended instance with the outcome that covers its chunk (R190). -/
def State.redReplay (s : State) (i : RedInst) (p : Packet) (port : Nat) (cmd : Option (Nat × Nat)) : State :=
  match i.outcome with
  | none => s
  | some (status, _) =>
    let r := senderOf p port cmd
    let s := s.bump Reg.RED_CNT_REPLAY
    if status ≠ stOK then s.sendResult i r (if r.child then 0 else p.epos) status 0 true []
    else if !p.want then s
    else
      let c := p.epos / tyE i.typ
      let rs := (Tab.getD i.chunks c {}).results
      rs.zipIdx.foldl (fun s (x, j) =>
        s.sendResult i r x.pos 0 x.flags (j + 1 == rs.length && c == i.lastWanted p.src) x.payload) s

/-- Open an instance on a tree (R164). -/
def State.redOpen (s : State) (t : TreeRec) (p : Packet) : State :=
  let i : RedInst :=
    { tree := p.tree, tag := p.tag, typ := p.ty, otype := p.oty, op := p.rop, cls := p.cls, fen := t.fen,
      exact := t.exact, root := t.root, seed := if t.stoch then some t.seed else none, deadlineUs := t.deadlineUs,
      expected := t.expected, memberPorts := t.memberPorts, childPorts := t.childPorts, parentHome := t.parentHome,
      homeEngine := t.homeEngine, openedAt := s.hclk }
  let s := s.upRed fun b => { b with insts := Tab.put b.insts (redKey p.tree p.tag) i, lastTag := Tab.put b.lastTag p.tree p.tag }
  s.inc Reg.RED_STAT_INST

/-- Elements that a data packet carries; a partial's are 32 for each XP64 block, or FP32. -/
def RedInst.count (i : RedInst) (p : Packet) : Nat :=
  if p.opcode = opREDUCE_CONTRIB then (tyCount p.ty p.len).getD 0
  else if i.exact || !tyFloat i.typ then (xpReadAll 4096 p.payload).length
  else p.payload.length / 4

/-- Whether a packet disagrees with what its instance latched (R164). -/
def RedInst.mismatch (i : RedInst) (p : Packet) : Bool :=
  p.ty != i.typ || p.oty != i.otype || p.rop != i.op || p.cls != i.cls ||
  (p.status == 0 &&
    ((match i.n with | some n => decide (n ≤ p.epos) | none => false) ||
     (p.last &&
       ((p.opcode == opREDUCE_CONTRIB && i.lastPos.isSome && i.lastPos != some p.epos) ||
        (match i.n with | some n => roundUp (p.epos + i.count p) 32 != roundUp n 32 | none => false)))))

/-- Latch what a LAST packet says of N (R163). -/
def RedInst.latch (i : RedInst) (p : Packet) : RedInst :=
  if !p.last then i
  else
    let n := p.epos + i.count p
    if p.opcode = opREDUCE_CONTRIB then { i with lastPos := some p.epos, n := some n }
    else { i with n := i.n.or (some n) }

/-- Put a data packet of an open instance among its port's pending ones, charging its chunk (R176, R177). -/
def State.redJoin (s : State) (k : Nat) (p : Packet) (port : Nat) (cmd : Option (Nat × Nat)) : State :=
  let i := Tab.getD s.red.insts k {}
  if i.mismatch p then s.bump Reg.RED_CNT_MISMATCH
  else
    let s := s.upInst k fun i => i.latch p
    match s.redCharge k (p.epos / tyE i.typ) (engineOf port) with
    | none =>
      let r := senderOf p port cmd
      let s := if i.participants.any fun x => x.src == r.src then s
        else s.sendResult i r (if r.child then 0 else p.epos) stNO_RESOURCE 0 true []
      s.redEnd k stNO_RESOURCE
    | some s => s.upRed fun b => { b with pend := Tab.put b.pend port (Tab.getD b.pend port [] ++ [⟨p, port, cmd⟩]) }

/-- A checked packet opens or joins its instance, or meets its outcome (R164, R177, R190). -/
def State.redAccept (s : State) (t : TreeRec) (p : Packet) (port : Nat) (cmd : Option (Nat × Nat)) : State :=
  let k := redKey p.tree p.tag
  match Tab.find? s.red.insts k with
  | some i => if i.outcome.isSome then s.redReplay i p port cmd else s.redJoin k p port cmd
  | none =>
    if 16384 ≤ s.red.insts.length then
      if p.opcode = opREDUCE_CONTRIB then s.answerContrib p stNO_RESOURCE 0
      else s.sendPartial { tree := p.tree, tag := p.tag, typ := p.ty, otype := p.oty, op := p.rop, cls := p.cls }
        (p.src - 0xF000) 0 stNO_RESOURCE false true []
    else (s.redOpen t p).redJoin k p port cmd

/-- Take the first packet of a kind handed to an engine. -/
def State.takeRed (s : State) (e op : Nat) : Option (QPkt × State) :=
  match s.fab.redq.findIdx? fun x => x.1 == e && x.2.pkt.opcode == op with
  | none => none
  | some j => (s.fab.redq[j]?).map fun x => (x.2, s.upFab fun b => { b with redq := b.redq.eraseIdx j })

/-- The status of R165 for a contribution, with the offset for MALFORMED. -/
def State.contribCheck (s : State) (q : QPkt) : Nat × Nat :=
  let p := q.pkt
  match firstBad (redFields s p) with
  | some o => (stMALFORMED, o)
  | none =>
    let fen := ((q.clid.bind fun c => Tab.find? s.cfg.police c).map (·.fen)).getD 0xFF
    let t := Tab.getD s.cfg.trees p.tree {}
    if s.fenQuiet fen then (stRETRY, 0)
    else if !t.valid || t.fen != fen || !bit t.memberPorts q.conn then (stKEY_DENIED, 0)
    else (stOK, 0)

/-- REDUCE_CONTRIB on engine `e`. -/
def reduceContrib (e : Nat) (s : State) : State :=
  match s.takeRed e opREDUCE_CONTRIB with
  | none => s
  | some (q, s) =>
    let (st, off) := s.contribCheck q
    if st = stOK then s.redAccept (Tab.getD s.cfg.trees q.pkt.tree {}) q.pkt q.conn none
    else
      let s := if st = stMALFORMED then s.bump Reg.RED_CNT_MALFORMED
        else if st = stKEY_DENIED then s.bump Reg.RED_CNT_DENIED else s
      s.answerContrib q.pkt st off

/-- REDUCE_PARTIAL on engine `e`: a data partial waits for its slots, a status partial ends the instance (R165, R185). -/
def reducePartial (e : Nat) (s : State) : State :=
  match s.takeRed e opREDUCE_PARTIAL with
  | none => s
  | some (q, s) =>
    let p := q.pkt
    let t := Tab.getD s.cfg.trees p.tree {}
    if (firstBad (redFields s p)).isSome || !t.valid || !bit t.childPorts q.conn then s.bump Reg.RED_CNT_DENIED
    else if p.status = 0 then s.redAccept t p q.conn none
    else
      let k := redKey p.tree p.tag
      match Tab.find? s.red.insts k with
      | some i =>
        if i.outcome.isSome then s.redReplay i p q.conn none
        else if i.mismatch p then s.bump Reg.RED_CNT_MISMATCH
        else if i.committed then s else s.redEnd k p.status
      | none => if 16384 ≤ s.red.insts.length then s else (s.redOpen t p).redEnd k p.status

/-- REDUCE_RESULT at engine `e`: a result or status from the parent is passed down (R183, R186). -/
def reduceResult (e : Nat) (s : State) : State :=
  match s.takeRed e opREDUCE_RESULT with
  | none => s
  | some (q, s) =>
    let p := q.pkt
    let k := redKey p.tree p.tag
    match Tab.find? s.red.insts k with
    | none => s
    | some i =>
      if i.root || i.outcome.isSome || p.src != 0xF000 + i.parentHome then s
      else if p.status ≠ 0 then
        (s.upInst k fun i => { i with committed := true }).redEnd k p.status
      else if !i.committed then s
      else
        let c := p.epos / tyE i.typ
        let x := Tab.getD i.chunks c {}
        if x.results.any fun r => r.pos == p.epos then s
        else
          let r : RedResult := { pos := p.epos, payload := p.payload, flags := bits p.arg 24 4 }
          let final := decide (c * tyE i.typ + i.chunkElems c ≤ p.epos + tyE i.otype)
          let s := s.deliver1 i c x r final
          let s := s.upRChunk k c fun x => { x with results := x.results ++ [r], accs := [] }
          let fl := i.flags ||| bits p.arg 24 4
          let out := if p.last then some (stOK, s.hclk) else none
          s.upInst k fun i => { i with flags := fl, outcome := out }

/-! Engine slots (R176). -/

/-- Merge lists of accumulators position by position. -/
def zipAcc (f : Accum → Accum → Accum) : List Accum → List Accum → List Accum
  | [], ys => ys.map fun y => f {} y
  | xs, [] => xs
  | x :: xs, y :: ys => f x y :: zipAcc f xs ys

/-- Merge `ys` into `xs` from index `o` on. -/
def mergeAt (f : Accum → Accum → Accum) (o : Nat) (xs ys : List Accum) : List Accum :=
  let xs := xs ++ List.replicate (o - xs.length) ({} : Accum)
  xs.take o ++ zipAcc f (xs.drop o) ys

/-- The accumulators that a packet carries, and whether an input set RANGE_IN. -/
def RedInst.inputs (i : RedInst) (p : Packet) : List Accum × Bool :=
  if p.opcode = opREDUCE_PARTIAL ∧ (i.exact || !tyFloat i.typ) then (xpReadAll 4096 p.payload, false)
  else
    let t := if p.opcode = opREDUCE_PARTIAL then tyFP32 else i.typ
    let (vs, ri) := decodeElems t (i.count p) p.payload
    (vs.map fun v => Accum.enter i.op {} v, ri)

/-- Whether a partial's packets cover its whole chunk. -/
def RedInst.covers (i : RedInst) (c : Nat) (got : List (Nat × Nat)) : Bool :=
  decide (i.chunkElems c ≤ (got.map (·.2)).sum)

/-- Accumulate a packet whose last slot completes (R166, R176, R178). -/
def State.redAccumulate (s : State) (q : RedPend) : State :=
  let p := q.pkt
  let k := redKey p.tree p.tag
  match Tab.find? s.red.insts k with
  | none => s
  | some i =>
    if i.outcome.isSome then s.redReplay i p q.port q.cmd
    else
      let c := p.epos / tyE i.typ
      let x := Tab.getD i.chunks c {}
      let part := List.find? (fun (y : RedSender × List (Nat × Nat)) => y.1.src == p.src) x.parts
      if x.counted.any (fun r => r.src == p.src) || (match part with | some y => y.2.any fun g => g.1 == p.epos | none => false) then
        s.bump Reg.RED_CNT_DUP
      else if part.isNone && decide (i.expected ≤ x.counted.length + x.parts.length) then s.bump Reg.RED_CNT_EXTRA
      else
        let (ys, ri) := i.inputs p
        let accs := mergeAt (Accum.merge i.op) (p.epos - c * tyE i.typ) x.accs ys
        let snd := (part.map (·.1)).getD (senderOf p q.port q.cmd)
        let snd : RedSender := { snd with want := snd.want || p.want, ce := snd.ce || p.ce }
        let got := (p.epos, i.count p) :: ((part.map (·.2)).getD [])
        let whole := p.opcode == opREDUCE_CONTRIB || i.covers c got
        let parts := x.parts.filter fun y => y.1.src != p.src
        let x : RedChunk := { x with accs := accs, rangeIn := x.rangeIn || ri,
                                     parts := if whole then parts else parts ++ [(snd, got)],
                                     counted := if whole then x.counted ++ [snd] else x.counted }
        let s := s.upRChunk k c fun _ => x
        if x.counted.length = i.expected then s.redComplete k c else s

/-- Slots that a packet takes. -/
def slotsOf (p : Packet) : Nat := if p.payload.length ≤ 2048 then 1 else 2

/-- REDUCE_SLOT_GRANT on engine `e` (R31, R176): the next port of the rotation gets one slot. -/
def reduceSlotGrant (e : Nat) (s : State) : State :=
  if 4 ≤ e then s
  else
    let r := Tab.getD s.red.rot e 0
    let port := 8 * e + r
    let s := s.upRed fun b => { b with rot := Tab.put b.rot e ((r + 1) % 8) }
    let ps := Tab.getD s.red.pend port []
    let best := (ps.map fun q => q.pkt.cls).foldl min 4
    match ps.find? fun q => q.pkt.cls == best with
    | none => s
    | some q =>
      let half := Tab.find? s.red.half port
      let s := match half with
        | some h => if h = q then s else s.bump Reg.RED_CNT_PREEMPT
        | none => s
      if slotsOf q.pkt = 1 ∨ half = some q then
        let s := s.upRed fun b => { b with half := Tab.del b.half port, pend := Tab.put b.pend port (ps.erase q) }
        s.redAccumulate q
      else s.upRed fun b => { b with half := Tab.put b.half port q }

/-! Deadlines and keeping. -/

/-- REDUCE_DEADLINE (R185). -/
def reduceDeadline (tree tag : Nat) (s : State) : State :=
  match Tab.find? s.red.insts (redKey tree tag) with
  | none => s
  | some i =>
    if i.outcome.isSome || i.committed || decide (s.hclk < i.openedAt + usToHclk i.deadlineUs) then s
    else s.redEnd (redKey tree tag) stTIMEOUT

/-- Whether a chunk of a REDUCE has contributed to an instance and not yet taken its outcome (R311). -/
def State.redHeld (s : State) (k : Nat) : Bool :=
  s.cmd.cmds.any fun c => c.2.opcode == 0x21 && c.2.src == 0 && c.2.chunks.any fun x =>
    x.2.phase == .running && !x.2.vals.isEmpty &&
      redKey (fld c.2.desc 64 8 % 4096) ((bits (fld c.2.desc 64 8) 12 8 + x.1) % 256) == k

/-- REDUCE_KEEP_EXPIRE (R190): the instance is freed, and its tree and TAG name none. -/
def reduceKeepExpire (tree tag : Nat) (s : State) : State :=
  let k := redKey tree tag
  match (Tab.find? s.red.insts k).bind (·.outcome) with
  | none => s
  | some (_, t) =>
    if s.hclk < t + usToHclk (s.rd Reg.RED_KEEP_US) || s.redHeld k then s
    else
      let s := s.redFree k
      (s.upRed fun b => { b with insts := Tab.del b.insts k }).dec Reg.RED_STAT_INST

/-! The tree table (R194). -/

/-- The 32 bytes of a TREES record (R49). -/
def TreeRec.bytes (t : TreeRec) : Bytes :=
  leBytes 2 t.tree ++ leBytes 1 t.fen ++ leBytes 1 (b2n t.valid + 2 * b2n t.exact + 4 * b2n t.root + 8 * b2n t.stoch) ++
  leBytes 1 t.homeEngine ++ leBytes 1 t.level ++ leBytes 2 t.parentHome ++ leBytes 4 t.memberPorts ++
  leBytes 4 t.childPorts ++ leBytes 4 t.expected ++ leBytes 4 t.deadlineUs ++ leBytes 8 t.seed

/-- Read the record and live state of RED_TREE_INDEX. -/
def State.treeRead (s : State) : State :=
  let t := s.rd Reg.RED_TREE_INDEX_TREE
  let s := s.wr Reg.RED_TREE_STATUS_DONE 1
  match Tab.find? s.cfg.trees t with
  | some r =>
    if r.valid then
      let s := (List.range 8).foldl (fun s w => s.wr Reg.RED_TREE_DATA (fld r.bytes (4 * w) 4) w) s
      let n := s.red.insts.countP fun i => i.2.tree == t
      ((s.wr Reg.RED_TREE_LIVE_OPEN (min n 255)).wr Reg.RED_TREE_LIVE_LAST_TAG (Tab.getD s.red.lastTag t 0)).wr
        Reg.RED_TREE_STATUS_STATUS stOK
    else s.wr Reg.RED_TREE_STATUS_STATUS stKEY_DENIED
  | none => s.wr Reg.RED_TREE_STATUS_STATUS stKEY_DENIED

/-- REDUCE_CONTRIB. -/
def execReduceContrib (e : Nat) (s : State) : Host.Outcome State Fault Refusal := .next (reduceContrib e s)
/-- REDUCE_PARTIAL. -/
def execReducePartial (e : Nat) (s : State) : Host.Outcome State Fault Refusal := .next (reducePartial e s)
/-- REDUCE_RESULT. -/
def execReduceResult (e : Nat) (s : State) : Host.Outcome State Fault Refusal := .next (reduceResult e s)
/-- REDUCE_SLOT_GRANT. -/
def execReduceSlotGrant (e : Nat) (s : State) : Host.Outcome State Fault Refusal := .next (reduceSlotGrant e s)
/-- REDUCE_DEADLINE. -/
def execReduceDeadline (tree tag : Nat) (s : State) : Host.Outcome State Fault Refusal := .next (reduceDeadline tree tag s)
/-- REDUCE_KEEP_EXPIRE. -/
def execReduceKeepExpire (tree tag : Nat) (s : State) : Host.Outcome State Fault Refusal :=
  .next (reduceKeepExpire tree tag s)
/-- RED_TREE_READ. -/
def execRedTreeRead (a : Access) (s : State) : Host.Outcome State Fault Refusal :=
  .next (State.window a 0x1600104 State.treeRead s)

end Sys2Proof.Machine
end

