-- ==== Sys2Proof/Machine/Home.lean ====
section
/-!
DEFINITION. Requests to this home (chapters 03, 04, 09): READ, WRITE, WRITE_FENCED, WRITE_PERFORMED, ATOMIC,
HISTORY_EXPIRE, the lease word, the doorbells and COMMAND.
Marks: DEDUCED 20, 21, in notes/assumptions.
-/
namespace Sys2Proof.Machine

/-! What a request at the head of MH's queue is. -/

/-- The control window's first local address (R74). -/
def windowBase : Nat := 0x3FFFF0000000

/-- Whether a request names the control window. -/
def Packet.inWindow (p : Packet) : Bool := decide (windowBase ≤ p.localAddr)

/-- Offset in the control window. -/
def Packet.woff (p : Packet) : Nat := p.localAddr - windowBase

/-- Whether a window offset is the lease word's, an SQ doorbell's, a CQ doorbell's or a ring-state word's (R101, R285). -/
def isLease (o : Nat) : Bool := o / 64 == 0x10000 / 64
def isSqBell (o : Nat) : Bool := decide (o < 0x100)
def isCqBell (o : Nat) : Bool := decide (0x100 ≤ o) && decide (o < 0x200)
def isRingState (o : Nat) : Bool := decide (0x200 ≤ o) && decide (o < 0x300)

/-- The rows that act on the head of MH's queue. -/
inductive HomeKind where
  | read
  | write
  | writeFenced
  | atomic
  | leaseRead
  | leaseWrite
  | sqBell
  | cqBell
  | ringState
  | command
  | step
  | gather
  deriving DecidableEq, Repr

/-- Which row serves a packet: a request of a reserved or misplaced opcode is served, and refused, as a READ is. -/
def Packet.kind (p : Packet) : HomeKind :=
  if p.opcode = opCOMMAND then .command
  else if p.opcode = opSTEP then .step
  else if p.opcode = opGATHER_REQ then .gather
  else if p.opcode = opREAD then
    (if p.inWindow then (if isLease p.woff then .leaseRead else if isRingState p.woff then .ringState else .read) else .read)
  else if p.opcode = opWRITE ∨ p.opcode = opWRITE_FENCED then
    (if p.inWindow && isLease p.woff then .leaseWrite
     else if p.inWindow && isSqBell p.woff then .sqBell
     else if p.inWindow && isCqBell p.woff then .cqBell
     else if p.opcode = opWRITE then .write else .writeFenced)
  else if p.opcode = opATOMIC then .atomic
  else .read

/-- Take the head of MH's queue where it is of a kind. -/
def State.takeHome (s : State) (k : HomeKind) : Option (QPkt × State) :=
  match s.fab.he0 with
  | [] => none
  | q :: t => if q.pkt.kind = k then some (q, s.upFab fun b => { b with he0 := t }) else none

/-- The source client's id and fen; a packet of no client belongs to no fen. -/
def State.who (s : State) (q : QPkt) : Nat × Nat :=
  match q.clid.bind fun c => Tab.find? s.cfg.police c with
  | some r => (r.clid, r.fen)
  | none => (0xFFFF, 0xFF)

/-- Answer a request of MH's queue, releasing the ingress cells a WRITE's payload still holds. -/
def State.reply (s : State) (q : QPkt) (status arg : Nat) (payload : Bytes) : State :=
  (s.ingressFree q).answer connHE0 (respond q.pkt status arg payload)

/-- Refuse a request: MALFORMED carries its offset. -/
def State.refuse (s : State) (q : QPkt) (status : Nat) (off : Nat := 0) : State :=
  s.reply q status (if status = stMALFORMED then off else 0) (emptyPayload q.pkt)

/-! Header fields (R129 step 1). -/

/-- Whether an opcode is a request that a home serves. -/
def opHome (op : Nat) : Bool :=
  [opREAD, opWRITE, opWRITE_FENCED, opATOMIC, opCOMMAND, opSTEP, opGATHER_REQ].contains op

/-- Whether LEN breaks R123. -/
def lenBad (p : Packet) : Bool :=
  if p.opcode = opREAD ∨ p.opcode = opWRITE ∨ p.opcode = opWRITE_FENCED then
    p.len == 0 || decide (4096 < p.len) || decide (4096 < p.addr % 64 + p.len)
  else if p.opcode = opATOMIC then p.len != 64
  else p.len % 64 != 0 || decide (4096 < p.len)

/-- Operand size of an atomic TYPE (R130). -/
def atomicSize (t : Nat) : Option Nat := [some 4, some 8, some 4, some 8, some 4, some 16].getD t none

/-- Whether OP and TYPE combine (R130). -/
def atomicOk (op t : Nat) : Bool :=
  if op ≤ 2 then decide (t ≤ 4) else op == 3 && (t == 2 || t == 3 || t == 5)

/-- Payload offsets of an ATOMIC that R131 requires to be 0, ascending, with whether they are not. -/
def atomicPayloadBad (p : Packet) : List (Nat × Bool) :=
  let n := (atomicSize (bits p.arg 4 4)).getD 16
  let cas := p.arg % 16 == 3
  (List.range 64).map fun i =>
    let used := decide (i < n) || (cas && decide (16 ≤ i) && decide (i < 16 + n))
    (32 + i, !used && fld p.payload i 1 != 0)

/-- The first header field that fails, for the pool opcodes and COMMAND. -/
def Packet.headerBad (p : Packet) : Option Nat :=
  let win := p.inWindow && [opREAD, opWRITE, opWRITE_FENCED, opATOMIC].contains p.opcode
  let noRegion := win || p.opcode == opCOMMAND
  let o := p.woff
  let wordOp := win && (isLease o || decide (o < 0x300))
  let opWrong := win &&
    ((isLease o && p.opcode == opATOMIC) ||
     (decide (o < 0x200) && !(p.opcode == opWRITE || p.opcode == opWRITE_FENCED)) ||
     (isRingState o && p.opcode != opREAD))
  let sz := (atomicSize (bits p.arg 4 4)).getD 1
  firstBad
    ([(0, p.dst != 0xF000 + p.home),
      (4, !opHome p.opcode || opWrong),
      (5, bit p.flags 7),
      (6, lenBad p || (wordOp && p.opcode != opATOMIC && p.len != 64)),
      (12, noRegion && p.region != 0),
      (14, noRegion && p.key != 0),
      (16, decide (2 ^ 58 ≤ p.addr) || (p.opcode == opATOMIC && p.addr % sz != 0) ||
           (p.opcode == opCOMMAND && p.localAddr != 0) || (wordOp && p.addr % 64 != 0)),
      (24, decide (2 ^ 20 ≤ p.flow)),
      (27, p.status != 0),
      (28, if p.opcode = opATOMIC then decide (256 ≤ p.arg) || !atomicOk (p.arg % 16) (bits p.arg 4 4)
           else if p.opcode = opCOMMAND then bits p.arg 2 14 != 0
           else p.arg != 0)] ++
     (if p.opcode = opATOMIC then atomicPayloadBad p else []))

/-! Resolution (R86). -/

/-- Resolve a request: its status, and the extent it lies in. -/
def State.resolve (s : State) (clid fen need : Nat) (p : Packet) (n : Nat) : Nat × Option (Nat × Extent) :=
  let a := p.localAddr
  let st := s.regionCheck clid fen p.region p.key need a n
  if st ≠ stOK then (st, none)
  else
    match s.extAt a with
    | none => (stRANGE, none)
    | some (i, e) =>
      if e.hi < a + n || e.tier == tierHOST then (stRANGE, none)
      else if e.pfx && need &&& (rtW + rtA) != 0 then (stKEY_DENIED, none)
      else if s.deadAt e.tier (e.at_ a) then (stTARGET_DEAD, none)
      else (stOK, some (i, e))

/-- A write or atomic resolved to a MOVING extent in a cycle after it entered MOVING aborts the move (R26, R94). -/
def State.writerWins (s : State) (i : Nat) : State :=
  match Tab.find? s.pool.moves i with
  | none => s
  | some m => if m.began < s.hclk then s.abortMove i stABORTED else s

/-- Whether a WRITE goes to one of its client's own submission rings (R61). -/
def State.ownRing (s : State) (clid a n : Nat) : Bool :=
  s.cmd.rings.any fun r => r.1 / 4 == clid && r.2.state != ringDISABLED && decide (r.2.sqBase ≤ a) &&
    decide (a + n ≤ r.2.sqBase + 128 * 2 ^ r.2.sqLog2)

/-- Whether an earlier write of the same sender to a granule of the range has not been performed (R148). -/
def State.behindWrite (s : State) (p : Packet) (n : Nat) : Bool :=
  s.pool.writes.any fun w => w.2.pkt.src == p.src && w.2.pkt.home == p.home &&
    decide (w.2.pkt.localAddr / 64 ≤ (p.localAddr + n - 1) / 64) &&
    decide (p.localAddr / 64 ≤ (w.2.pkt.localAddr + w.2.pkt.len - 1) / 64)

/-- The steps of R129 before resolution: MALFORMED, or RETRY of a quiesced fen. -/
def State.preCheck (s : State) (q : QPkt) (exempt : Bool) : Option (Nat × Nat) :=
  match q.pkt.headerBad with
  | some o => some (stMALFORMED, o)
  | none => if s.fenQuiet (s.who q).2 && !exempt then some (stRETRY, 0) else none

/-! Line stores (R28). -/

/-- Touch the granules of a range in the line store of its stack. -/
def State.touch (s : State) (tier a n : Nat) : State :=
  let d := dieAt tier a
  let ks := granKeys tier a n
  s.upFab fun b => { b with lines := Tab.upd b.lines d fun l =>
    (l.filter fun x => ks.contains x.key) ++ l.filter fun x => !ks.contains x.key }

/-- Fill a granule into a line store of 256, evicting the least recently used. -/
def State.fill (s : State) (tier a : Nat) : State :=
  let d := dieAt tier a
  let x : Line := { key := granKey tier a, tray := tier == tierTRAY }
  let l := (x :: ((Tab.getD s.fab.lines d []).filter fun y => y.key != x.key)).take 256
  s.upFab fun b => { b with lines := Tab.put b.lines d l }

/-! READ. -/

/-- Payload granules of a READ_RSP (R123): the bytes outside the range are 0. -/
def readPayload (p : Packet) (d : Bytes) : Bytes := padTo (64 * granules p.addr p.len) (List.replicate (p.addr % 64) 0 ++ d)

/-- READ of a pool or control-window address (R25, R86, R129, R444). -/
def read_ (s : State) : State :=
  match s.takeHome .read with
  | none => s
  | some (q, s') =>
    let p := q.pkt
    match s'.preCheck q false with
    | some (st, o) => s'.refuse q st o
    | none =>
      if p.inWindow then s'.refuse q stRANGE
      else
        let (c, f) := s'.who q
        match s'.resolve c f rtR p p.len with
        | (_, some (_, e)) =>
          if s'.behindWrite p p.len then s
          else
            let a := e.at_ p.localAddr
            let s' := s'.touch e.tier a p.len
            if s'.badRange e.tier a p.len then (s'.noteBad e.tier a p.len).refuse q stCHECK_FAIL
            else s'.reply q stOK 0 (readPayload p (s'.readTier e.tier a p.len))
        | (st, none) => s'.refuse q st

/-! WRITE, WRITE_FENCED. -/

/-- A write to a pool address: resolved, and acknowledged at once unless fenced (R24, R86, R129, R149). -/
def State.writeAt (s : State) (q : QPkt) : State :=
  let p := q.pkt
  let (c, f) := s.who q
  match s.preCheck q (!p.inWindow && s.ownRing c p.localAddr p.len) with
  | some (st, o) => s.refuse q st o
  | none =>
    if p.inWindow then s.refuse q stRANGE
    else
      match s.resolve c f rtW p p.len with
      | (st, none) => s.refuse q st
      | (_, some (i, e)) =>
        let s := s.writerWins i
        let id := s.pool.nextWrite
        let w : InWrite := { pkt := p, ext := i, tier := e.tier, at_ := e.at_ p.localAddr, inPort := q.conn, held := q.held,
                             fenced := p.opcode == opWRITE_FENCED }
        let s := s.upPool fun b => { b with
          writes := Tab.put b.writes id w, nextWrite := id + 1
          moves := Tab.upd b.moves i fun m => { m with waits := m.waits ++ [id] } }
        if p.opcode = opWRITE then s.answer connHE0 (respond p stOK 0 []) else s

/-- WRITE (R149). -/
def write_ (s : State) : State :=
  match s.takeHome .write with
  | none => s
  | some (q, s) => s.writeAt q

/-- WRITE_FENCED (R149). -/
def writeFenced (s : State) : State :=
  match s.takeHome .writeFenced with
  | none => s
  | some (q, s) => s.writeAt q

/-- A write leaves the set of writes in flight. -/
def State.writeGone (s : State) (id : Nat) (w : InWrite) : State :=
  let s := s.upPool fun b => { b with
    writes := Tab.del b.writes id
    moves := Tab.mapVals b.moves fun _ (m : Move) => { m with waits := m.waits.filter (· != id) } }
  let s := s.upCmd fun b => { b with rings := Tab.mapVals b.rings fun _ (r : Ring) =>
    { r with waits := r.waits.filter (· != id) } }
  s.ingressFree { pkt := w.pkt, conn := w.inPort, held := w.held }

/-- WRITE_PERFORMED (R125, R149, R444): `trailerOk` says whether the second trailer check passes.  Writes to one granule
are performed in the order in which they were resolved (R22). -/
def writePerformed (id : Nat) (trailerOk : Bool) (s : State) : State :=
  match Tab.find? s.pool.writes id with
  | none => s
  | some w =>
    let ks := granKeys w.tier w.at_ w.pkt.len
    if s.pool.writes.any fun x => decide (x.1 < id) && (granKeys x.2.tier x.2.at_ x.2.pkt.len).any ks.contains then s
    else
      let s := s.writeGone id w
      if !trailerOk then s.drop causeEXEC_CHECK connHE0 0
      else
        let d := slice w.pkt.payload (w.pkt.addr % 64) w.pkt.len
        let whole := fun k => decide (w.at_ ≤ k % 2 ^ 58 * 64) && decide (k % 2 ^ 58 * 64 + 64 ≤ w.at_ + w.pkt.len)
        let hit := ks.any fun k => s.badKey k && !whole k
        let s := (s.performWrite { tier := w.tier, at_ := w.at_, data := d }).touch w.tier w.at_ w.pkt.len
        if w.fenced then s.answer connHE0 (respond w.pkt (if hit then stCHECK_FAIL else stOK) 0 []) else s

/-! ATOMIC. -/

/-- The new value of an atomic and whether CAS succeeded (R130, R132). -/
def atomicOp (op t old x swap : Nat) : Nat × Bool :=
  let w := 8 * (atomicSize t).getD 4
  if op = 3 then (if old = x then (swap, true) else (old, false))
  else if t = 4 then
    if op = 0 then (f32Add old x, false)
    else if f32NaN old || f32NaN x then (0x7FC00000, false)
    else if op = 1 then (if f32Key x < f32Key old then x else old, false)
    else (if f32Key old < f32Key x then x else old, false)
  else if op = 0 then ((old + x) % 2 ^ w, false)
  else
    let lt := if t ≤ 1 then decide (signed x w < signed old w) else decide (x < old)
    let gt := if t ≤ 1 then decide (signed old w < signed x w) else decide (old < x)
    (if op = 1 then (if lt then x else old) else if gt then x else old, false)

/-- Entries of a history younger than W (R134). -/
def State.young (s : State) (h : List HistEnt) : List HistEnt :=
  h.filter fun e => decide (s.hclk ≤ e.born + nsToHclk s.histW)

/-- Entries of an atomic unit's history (R29). -/
def histCapacity : Nat := 8192

/-- An ATOMIC response's payload: OLD in bytes 0–15. -/
def atomicPayload (old : Nat) : Bytes := padTo 64 (leBytes 16 old)

/-- Execute an ATOMIC once in its unit, or answer it from the history (R133, R134, R444). -/
def State.atomicExec (s : State) (q : QPkt) (i : Nat) : State :=
  let p := q.pkt
  let e := s.ext i
  let a := e.at_ p.localAddr
  let d := dieAt e.tier a
  let h := s.young (Tab.getD s.fab.hist d [])
  match h.find? fun x => x.src == p.src && x.seq == p.seq with
  | some x => (s.bump Reg.FAB_HIST_DUP).reply q x.status (setBits x.arg 1 1 1) (atomicPayload x.old)
  | none =>
    if histCapacity ≤ h.length then (s.bump Reg.FAB_HIST_FULL).refuse q stRETRY
    else
      let t := bits p.arg 4 4
      let n := (atomicSize t).getD 4
      if s.badRange e.tier a n then (s.noteBad e.tier a n).refuse q stCHECK_FAIL
      else
        let old := leNat (s.readTier e.tier a n)
        let (v, ok) := atomicOp (p.arg % 16) t old (fld p.payload 0 n) (fld p.payload 16 n)
        let s := (s.writeTier e.tier a (leBytes n v)).fill e.tier a
        let x : HistEnt := { src := p.src, seq := p.seq, addr := p.addr, status := stOK, arg := b2n ok, old := old,
                             time := s.tnow, born := s.hclk, ext := i }
        let s := s.upFab fun b => { b with hist := Tab.put b.hist d (h ++ [x]) }
        s.reply q stOK (b2n ok) (atomicPayload old)

/-- ATOMIC (R129, R133). -/
def atomic (s : State) : State :=
  match s.takeHome .atomic with
  | none => s
  | some (q, s') =>
    let p := q.pkt
    match s'.preCheck q false with
    | some (st, o) => s'.refuse q st o
    | none =>
      if p.inWindow then s'.refuse q stRANGE
      else
        let (c, f) := s'.who q
        match s'.resolve c f rtA p ((atomicSize (bits p.arg 4 4)).getD 4) with
        | (st, none) => s'.refuse q st
        | (_, some (i, _)) => if s'.behindWrite p 1 then s else (s'.writerWins i).atomicExec q i

/-- HISTORY_EXPIRE in the unit of die `k` (R134). -/
def historyExpire (k : Nat) (s : State) : State :=
  s.upFab fun b => { b with hist := Tab.upd b.hist k fun h => s.young h }

/-! The lease word (R101, R102). -/

/-- The 64-byte lease record of a client. -/
def State.leaseRecord (s : State) (clid : Nat) : Bytes :=
  let l := s.lease clid
  let n := (s.pool.extents.filter fun p => p.2.leased && p.2.holder == clid).length
  let st := if l.running then 1 else if l.stopped.isSome then 2 else 0
  let ex := match l.stopped with
    | some r => s.tnow + r * 5 / 6
    | none => if l.running then l.expiry else 0
  padTo 64 (leBytes 1 l.periodS ++ leBytes 1 st ++ leBytes 2 0 ++ leBytes 4 l.epoch ++ leBytes 8 ex ++ leBytes 4 n ++
    leBytes 4 0 ++ leBytes 8 s.tnow)

/-- Renew a client's lease, where its clock runs and has not lapsed (R100, R102). -/
def State.heartbeat (s : State) (clid : Nat) : State :=
  let l := s.lease clid
  if l.running && !s.lapsed l then s.upLease clid fun l => s.renew l
  else match l.stopped with
    | some _ => s.upLease clid fun l => { l with stopped := some (l.periodS * 1200000000) }
    | none => s

/-- LEASE_HEARTBEAT: a 64-byte READ of the lease word. -/
def leaseHeartbeat (s : State) : State :=
  match s.takeHome .leaseRead with
  | none => s
  | some (q, s) =>
    match s.preCheck q true with
    | some (st, o) => s.refuse q st o
    | none =>
      let c := (s.who q).1
      let s := s.heartbeat c
      s.reply q stOK 0 (s.leaseRecord c)

/-- LEASE_WORD_WRITE: a 64-byte WRITE or WRITE_FENCED sets PERIOD_S and renews. -/
def leaseWordWrite (s : State) : State :=
  match s.takeHome .leaseWrite with
  | none => s
  | some (q, s) =>
    match s.preCheck q true with
    | some (st, o) => s.refuse q st o
    | none =>
      let c := (s.who q).1
      match (List.range 63).find? fun i => fld q.pkt.payload (i + 1) 1 != 0 with
      | some i => s.refuse q stMALFORMED (33 + i)
      | none =>
        let v := fld q.pkt.payload 0 1
        if v < s.cfg.device.leaseMinS || s.cfg.device.leaseMaxS < v then s.refuse q stRANGE
        else ((s.upLease c fun l => { l with periodS := v }).heartbeat c).reply q stOK 0 []

/-! Doorbells (R285–R287). -/

/-- What an SQ doorbell makes of a new tail: record it, stale, or malformed (R286). -/
def bellOutcome (r : Ring) (t : Nat) : Option Bool :=
  let m := fun x => x % 65536
  let th := m (t + 65536 - r.fetchHead)
  let sh := m (r.sqTail + 65536 - r.fetchHead)
  let size := 2 ^ r.sqLog2
  if sh ≤ th ∧ th ≤ size then some true
  else if th < sh then some false
  else if m (r.fetchHead + 65536 - t) ≤ size then some false
  else none

/-- Record an SQ doorbell: the state, and the status.  The writes to the SQ's extent resolved before it are those its
fetch waits for (R288). -/
def State.sqBell (s : State) (pair t : Nat) : State × Nat :=
  let r := s.ring pair
  if r.state = ringDISABLED then (s, stRANGE)
  else match bellOutcome r t with
    | some true =>
      let ws := (s.pool.writes.filter fun w => w.2.ext == r.sqExt).map (·.1)
      (s.upRing pair fun r => { r with sqTail := t, waits := ws }, stOK)
    | some false => (s.bump Reg.CMD_CNT_DB_STALE, stOK)
    | none => (s, stMALFORMED)

/-- SQ_DOORBELL: a window WRITE. -/
def sqDoorbell (s : State) : State :=
  match s.takeHome .sqBell with
  | none => s
  | some (q, s) =>
    match s.preCheck q true with
    | some (st, o) => s.refuse q st o
    | none =>
      let p := q.pkt
      match (List.range 62).find? fun i => fld p.payload (i + 2) 1 != 0 with
      | some i => s.refuse q stMALFORMED (34 + i)
      | none =>
        let (s, st) := s.sqBell ((s.who q).1 * 4 + p.woff / 64) (fld p.payload 0 2)
        if st = stOK then s.reply q stOK 0 [] else s.refuse q st 32

/-- CQ_DOORBELL: a window WRITE of a new CQ_HEAD, accepted between CQ_HEAD and CQ_TAIL (R286). -/
def cqDoorbell (s : State) : State :=
  match s.takeHome .cqBell with
  | none => s
  | some (q, s) =>
    match s.preCheck q true with
    | some (st, o) => s.refuse q st o
    | none =>
      let p := q.pkt
      match (List.range 62).find? fun i => fld p.payload (i + 2) 1 != 0 with
      | some i => s.refuse q stMALFORMED (34 + i)
      | none =>
        let pair := (s.who q).1 * 4 + (p.woff - 0x100) / 64
        let r := s.ring pair
        let h := fld p.payload 0 2
        if r.state = ringDISABLED then s.refuse q stRANGE
        else if (h + 65536 - r.cqHead) % 65536 ≤ (r.cqTail + 65536 - r.cqHead) % 65536 then
          (s.upRing pair fun r => { r with cqHead := h }).reply q stOK 0 []
        else s.refuse q stMALFORMED 32

/-- The 64 bytes of a ring-state word (R285). -/
def Ring.stateBytes (r : Ring) : Bytes :=
  padTo 64 (leBytes 1 r.state ++ leBytes 1 r.err ++ leBytes 2 r.sqTail ++ leBytes 2 r.fetchHead ++ leBytes 2 r.cqTail ++
    leBytes 2 r.cqHead ++ leBytes 2 r.outstanding ++ leBytes 1 r.sqLog2 ++ leBytes 1 r.cqLog2)

/-- RING_STATE_READ. -/
def ringStateRead (s : State) : State :=
  match s.takeHome .ringState with
  | none => s
  | some (q, s) =>
    match s.preCheck q true with
    | some (st, o) => s.refuse q st o
    | none =>
      let r := s.ring ((s.who q).1 * 4 + (q.pkt.woff - 0x200) / 64)
      if r.state = ringDISABLED then s.refuse q stRANGE else s.reply q stOK 0 r.stateBytes

/-- COMMAND: an SQ doorbell of class ARG[1:0] with tail ARG[31:16] (R286). -/
def command (s : State) : State :=
  match s.takeHome .command with
  | none => s
  | some (q, s) =>
    match s.preCheck q true with
    | some (st, o) => s.refuse q st o
    | none =>
      let pair := (s.who q).1 * 4 + q.pkt.arg % 4
      let (s, st) := s.sqBell pair (q.pkt.arg / 65536)
      if st = stOK then s.reply q stOK ((s.ring pair).fetchHead * 65536) [] else s.refuse q st 28

/-- READ. -/
def execRead (s : State) : Host.Outcome State Fault Refusal := .next (read_ s)
/-- WRITE. -/
def execWrite (s : State) : Host.Outcome State Fault Refusal := .next (write_ s)
/-- WRITE_FENCED. -/
def execWriteFenced (s : State) : Host.Outcome State Fault Refusal := .next (writeFenced s)
/-- WRITE_PERFORMED. -/
def execWritePerformed (id : Nat) (trailerOk : Bool) (s : State) : Host.Outcome State Fault Refusal :=
  .next (writePerformed id trailerOk s)
/-- ATOMIC. -/
def execAtomic (s : State) : Host.Outcome State Fault Refusal := .next (atomic s)
/-- HISTORY_EXPIRE. -/
def execHistoryExpire (k : Nat) (s : State) : Host.Outcome State Fault Refusal := .next (historyExpire k s)
/-- LEASE_HEARTBEAT. -/
def execLeaseHeartbeat (s : State) : Host.Outcome State Fault Refusal := .next (leaseHeartbeat s)
/-- LEASE_WORD_WRITE. -/
def execLeaseWordWrite (s : State) : Host.Outcome State Fault Refusal := .next (leaseWordWrite s)
/-- SQ_DOORBELL. -/
def execSqDoorbell (s : State) : Host.Outcome State Fault Refusal := .next (sqDoorbell s)
/-- CQ_DOORBELL. -/
def execCqDoorbell (s : State) : Host.Outcome State Fault Refusal := .next (cqDoorbell s)
/-- RING_STATE_READ. -/
def execRingStateRead (s : State) : Host.Outcome State Fault Refusal := .next (ringStateRead s)
/-- COMMAND. -/
def execCommand (s : State) : Host.Outcome State Fault Refusal := .next (command s)

end Sys2Proof.Machine
end

