-- ==== Sys2Proof/Machine/Chains.lean ====
section
/-!
DEFINITION. Gather, filter, expert dispatch and operator chains (chapter 06): stage lists, the operators, and the rows
CHAIN, GATHER_REQ and CHECK_INJECT.
Marks: DEDUCED 26, 27, in notes/assumptions.
-/
namespace Sys2Proof.Machine

/-! Operand references and stage records (R88, R198). -/

/-- An operand reference. -/
structure OpRef where
  addr : Nat := 0
  region : Nat := 0
  key : Nat := 0
  gran : Nat := 0
  deriving DecidableEq, Repr

/-- Read a reference at offset `o`. -/
def opRefAt (b : Bytes) (o : Nat) : OpRef := ⟨fld b o 8, fld b (o + 8) 2, fld b (o + 10) 2, fld b (o + 12) 4⟩

/-- Length in bytes. -/
def OpRef.bytes (r : OpRef) : Nat := 64 * r.gran
/-- Local address. -/
def OpRef.loc (r : OpRef) : Nat := r.addr % 2 ^ 46
/-- Whether a reference is all 0. -/
def OpRef.zero (r : OpRef) : Bool := r == {}

/-- Encoding checks of a used reference at offset `o` (R88, R89). -/
def refChecks (o : Nat) (r : OpRef) : List (Nat × Bool) := [(o, decide (2 ^ 58 ≤ r.addr)), (o + 12, r.gran == 0)]

/-- Checks that `n` bytes at `o` are 0, reported at the first byte of the field. -/
def zeroCheck (b : Bytes) (o n : Nat) (at_ : Nat) : List (Nat × Bool) := [(at_, !zeroAt b o n)]

/-- Stage operators (R199). -/
def sGATHER : Nat := 1
def sFILTER : Nat := 2
def sTHRESHOLD : Nat := 3
def sTOPK : Nat := 4
def sREDUCE : Nat := 5
def sDISPATCH : Nat := 6
def sCOMBINE : Nat := 7

/-- A stage record (R198), with the predicate list it names. -/
structure Stage where
  op : Nat := 0
  flags : Nat := 0
  etype : Nat := 0
  otype : Nat := 0
  rowBytes : Nat := 0
  a : OpRef := {}
  b : OpRef := {}
  c : OpRef := {}
  body : Bytes := []
  preds : Bytes := []
  raw : Bytes := []
  deriving DecidableEq, Repr

/-- Stage `i` of a stage list followed by one predicate list of 128 bytes for each stage. -/
def stageAt (b : Bytes) (n i : Nat) : Stage :=
  let r := slice b (128 * i) 128
  { op := fld r 0 1, flags := fld r 1 1, etype := fld r 2 1, otype := fld r 3 1, rowBytes := fld r 4 4,
    a := opRefAt r 16, b := opRefAt r 32, c := opRefAt r 48, body := slice r 64 64,
    preds := slice b (128 * n + 128 * i) 128, raw := r }

def Stage.out (t : Stage) : Bool := bit t.flags 0
def Stage.idx64 (t : Stage) : Bool := bit t.flags 1
/-- Bytes of an index. -/
def Stage.iw (t : Stage) : Nat := if t.idx64 then 8 else 4
def Stage.stride (t : Stage) : Nat := fld t.body 0 8
def Stage.count (t : Stage) : Nat := fld t.body 8 8
def Stage.idxSrc (t : Stage) : Nat := fld t.body 16 1
def Stage.late (t : Stage) : OpRef := opRefAt t.body 32
def Stage.blocking (t : Stage) : Bool := t.op == sTOPK || t.op == sREDUCE
/-- DISPATCH and COMBINE parameters (R210). -/
def Stage.dT (t : Stage) : Nat := fld t.body 0 4
def Stage.dK (t : Stage) : Nat := fld t.body 4 1
def Stage.dE (t : Stage) : Nat := fld t.body 6 2
def Stage.dCap (t : Stage) : Nat := fld t.body 8 4
def Stage.buf (t : Stage) : Nat := roundUp (t.dCap * t.rowBytes) 64
/-- Offsets in the dispatch area of counts, position map and late map, and its size (R210). -/
def Stage.cntOff (t : Stage) : Nat := t.dE * t.buf
def Stage.posOff (t : Stage) : Nat := t.cntOff + roundUp (t.dE * 4) 64
def Stage.lateOff (t : Stage) : Nat := t.posOff + roundUp (t.dT * t.dK * 4) 64
def Stage.areaSize (t : Stage) : Nat := t.lateOff + roundUp (ceilDiv (t.dT * t.dK) 8) 64
/-- EMIT of a FILTER or TOPK. -/
def Stage.emit (t : Stage) : Nat := if t.op = sTOPK then fld t.body 6 1 else fld t.body 0 1
/-- Bytes of an input row's result after a REDUCE or COMBINE. -/
def Stage.converted (t : Stage) : Nat := t.rowBytes / tySize t.etype * tySize t.otype
/-- Output row length (R199). -/
def Stage.outLen (t : Stage) : Nat :=
  if t.op = sGATHER then t.rowBytes
  else if t.op = sFILTER ∨ t.op = sTOPK then [t.rowBytes, 8, 8 + t.rowBytes].getD t.emit 0
  else if t.op = sTHRESHOLD then 16
  else t.converted
/-- Stage-0 input rows that the record itself fixes. -/
def Stage.inputRows (t : Stage) : Nat :=
  if t.op = sGATHER then t.count else if t.op = sDISPATCH ∨ t.op = sCOMBINE then t.dT else t.a.bytes / t.rowBytes
/-- Offset in a COMBINE output of its late map, and its size (R212). -/
def Stage.combLate (t : Stage) : Nat := roundUp (t.dT * t.converted) 64
def Stage.combSize (t : Stage) : Nat := t.combLate + roundUp (ceilDiv (t.dT * t.dK) 8) 64

/-- Element types a stage may name (R198). -/
def stageType (t : Nat) : Bool := tyValid t && !tyMX t

/-- Bytes of a field type (R206). -/
def ftSize (t : Nat) : Nat := [1, 2, 4, 8, 1, 2, 4, 8, 2, 2, 4].getD t 1

/-- Encoding checks of a stage record, by ascending field offset (R198–R212); `last` for the last stage, `prev` the stage
before. -/
def stageChecks (n i : Nat) (t : Stage) (prev : Option Stage) (afterBlocking : Bool) : List (Nat × Bool) :=
  let first := i == 0
  let isG := t.op == sGATHER
  let isF := t.op == sFILTER
  let isDC := t.op == sDISPATCH || t.op == sCOMBINE
  let takesE := t.op == sTHRESHOLD || t.op == sREDUCE || t.op == sCOMBINE
  let takesO := t.op == sREDUCE || t.op == sCOMBINE
  let usesA := isG || isDC || first
  let usesB := t.out
  let usesC := (isG && first) || isF || isDC
  let entries := t.dT * t.dK
  [(0, t.op == 0 || decide (7 < t.op) || (isDC && n != 1) || (t.op == sTHRESHOLD && afterBlocking)),
   (1, decide (4 ≤ t.flags) || (t.idx64 && !isG) || (i + 1 == n && !t.out)),
   (2, if takesE then !stageType t.etype || (t.op == sTHRESHOLD && t.etype == tyINT64) ||
         (t.op == sCOMBINE && decide (2 < t.etype)) else t.etype != 0),
   (3, if takesO then !stageType t.otype || tyFloat t.otype != tyFloat t.etype else t.otype != 0),
   (4, decide (t.rowBytes < 4) || decide (65536 < t.rowBytes) || t.rowBytes % 4 != 0 ||
       (takesE && t.rowBytes % tySize t.etype != 0) ||
       (match prev with | some p => t.rowBytes != p.outLen | none => false)),
   (8, !zeroAt t.raw 8 8)] ++
  (if usesA then refChecks 16 t.a ++
     [(16, isG && t.a.addr % 4 != 0),
      (28, if isG then false
           else if t.op = sDISPATCH then t.a.gran != ceilDiv (t.dT * t.rowBytes) 64
           else if t.op = sCOMBINE then t.a.bytes != t.areaSize
           else t.a.bytes % t.rowBytes != 0)]
   else [(16, !t.a.zero)]) ++
  (if usesB then refChecks 32 t.b ++
     [(32, isG && t.b.addr % 64 != 0),
      (44, if isG && first then decide (t.b.bytes < t.count * t.rowBytes)
           else if t.op = sDISPATCH then t.b.bytes != t.areaSize
           else if t.op = sCOMBINE then t.b.bytes != t.combSize else false)]
   else [(32, !t.b.zero)]) ++
  (if usesC then refChecks 48 t.c ++
     [(60, if isG then t.c.gran != ceilDiv (t.count * t.iw) 64
           else if isF then t.c.gran != 2 else t.c.gran != ceilDiv (entries * 8) 64)]
   else [(48, !t.c.zero)]) ++
  (if isG then
     [(64, t.stride % 4 != 0 || decide (t.stride < 4) || decide (2 ^ 40 < t.stride)),
      (72, if first then t.count == 0 || decide (16777216 < t.count) || decide (2 ^ 30 < t.count * t.rowBytes)
           else t.count != 0),
      (80, if first then t.idxSrc != 0 else !(t.idxSrc == 1 || t.idxSrc == 2)),
      (81, !zeroAt t.body 17 15)] ++
     (if t.late.zero then [] else refChecks 96 t.late ++ [(108, first && decide (t.late.gran < ceilDiv t.count 512))]) ++
     [(112, !zeroAt t.body 48 16)]
   else if isF then [(64, decide (2 < t.emit)), (65, !zeroAt t.body 1 63)]
   else if t.op = sTHRESHOLD then
     [(68, tyFloat t.etype && !zeroAt t.body 4 4), (72, decide (2 < fld t.body 8 1)), (73, !zeroAt t.body 9 55)]
   else if t.op = sTOPK then
     let kt := fld t.body 2 1
     [(64, decide (kt ≤ 10) &&
        (fld t.body 0 2 % ftSize kt != 0 || decide (t.rowBytes < fld t.body 0 2 + ftSize kt))),
      (66, decide (10 < kt)), (67, decide (1 < fld t.body 3 1)),
      (68, fld t.body 4 2 == 0 || decide (4096 < fld t.body 4 2)), (70, decide (2 < t.emit)), (71, !zeroAt t.body 7 57)]
   else if t.op = sREDUCE then [(64, decide (2 < fld t.body 0 1)), (65, !zeroAt t.body 1 63)]
   else if isDC then
     [(64, t.dT == 0 || decide (16777216 < entries)), (68, t.dK == 0 || decide (16 < t.dK)), (69, !zeroAt t.body 5 1),
      (70, t.dE == 0 || decide (4096 < t.dE)), (72, t.dCap == 0 || decide (1048576 < t.dCap)), (76, !zeroAt t.body 12 52)]
   else [])

/-- Encoding checks of one predicate record (R206). -/
def predChecks (rowBytes : Nat) (r : Bytes) : List (Nat × Bool) :=
  let ft := fld r 2 1
  let cmp := fld r 3 1
  let v := bit (fld r 5 1) 0
  [(0, v && decide (ft ≤ 10) && (fld r 0 2 % ftSize ft != 0 || decide (rowBytes < fld r 0 2 + ftSize ft))),
   (2, v && decide (10 < ft)), (3, v && (decide (7 < cmp) || (decide (6 ≤ cmp) && decide (8 ≤ ft)))),
   (4, v && decide (7 < fld r 4 1)), (5, decide (1 < fld r 5 1)), (6, fld r 6 2 != 0),
   (8, v && decide (ft ≤ 10) && !zeroAt r (8 + ftSize ft) (8 - ftSize ft))]

/-- Encoding checks of a whole stage list with its predicate lists, in ascending offset (R201). -/
def chainChecks (n : Nat) (b : Bytes) : List (Nat × Bool) :=
  let ts := (List.range n).map (stageAt b n)
  let st := (List.range n).map fun i =>
    let prev := if i = 0 then none else ts[i - 1]?
    let ab := (ts.take i).any Stage.blocking
    (sortBy (·.1) (stageChecks n i (ts.getD i {}) prev ab)).map fun c => (128 + 128 * i + c.1, c.2)
  let pr := (List.range n).map fun i =>
    let t := ts.getD i {}
    if t.op != sFILTER then []
    else
      [(2176 + 128 * i + 5, (List.range 8).all fun p => !bit (fld t.preds (16 * p + 5) 1) 0)] ++
      ((List.range 8).map fun p => (predChecks t.rowBytes (slice t.preds (16 * p) 16)).map fun c =>
        (2176 + 128 * i + 16 * p + c.1, c.2)).flatten
  st.flatten ++ pr.flatten

/-! Reference numbers of a CHAIN's segments: 0 the stage list, 1 the result record, then four for each stage. -/
def refA (i : Nat) : Nat := 16 + 4 * i
def refB (i : Nat) : Nat := 17 + 4 * i
def refC (i : Nat) : Nat := 18 + 4 * i
def refL (i : Nat) : Nat := 19 + 4 * i

/-- The references a stage uses: number, reference, rights, whether it is an output. -/
def stageRefs (i : Nat) (t : Stage) : List (Nat × OpRef × Nat × Bool) :=
  [(refA i, t.a, rtR + rtC, false), (refB i, t.b, rtW + rtC, true), (refC i, t.c, rtR + rtC, false),
   (refL i, if t.op = sGATHER then t.late else {}, rtW + rtC, true)].filter fun r => !r.2.1.zero

/-- Staging that a CHAIN needs beside its working chunk: state and tail (R201). -/
def chainState (ts : List Stage) : Nat :=
  let state := (ts.map fun t =>
    if t.op = sTOPK then fld t.body 4 2 * (16 + t.outLen)
    else if t.op = sREDUCE then 48 * (t.rowBytes / tySize t.etype) else 0).sum
  let (tail, _) := ts.foldl (fun (acc, rows) t =>
      let acc := match rows with
        | none => acc
        | some r => acc + r * t.outLen
      (acc, if t.op = sTOPK then some (fld t.body 4 2) else if t.op = sREDUCE then some 1 else rows))
    ((0, none) : Nat × Option Nat)
  state + tail

/-! Values and comparisons. -/

/-- Order key of a field: `none` is a NaN; infinities lie beyond every finite value. -/
def fieldKey (ft v : Nat) : Option Int :=
  if ft ≤ 3 then some (v : Int)
  else if ft ≤ 7 then some (signed v (8 * ftSize ft))
  else match decodeNum (if ft = 8 then tyFP16 else if ft = 9 then tyBF16 else tyFP32) v with
    | .fin a => some a
    | .pinf => some (2 ^ 400)
    | .ninf => some (-(2 ^ 400))
    | .nan => none

/-- One comparison of R206. -/
def compareField (cmp ft x y : Nat) : Bool :=
  if cmp = 6 then x &&& y != 0
  else if cmp = 7 then x &&& y == 0
  else match fieldKey ft x, fieldKey ft y with
    | some a, some b =>
      if cmp = 0 then a == b else if cmp = 1 then a != b else if cmp = 2 then decide (a < b)
      else if cmp = 3 then decide (a ≤ b) else if cmp = 4 then decide (b < a) else decide (b ≤ a)
    | _, _ => cmp == 1

/-- Whether a row passes a predicate list (R206). -/
def rowPasses (preds row : Bytes) : Bool :=
  let rs := ((List.range 8).map fun p => slice preds (16 * p) 16).filter fun r => bit (fld r 5 1) 0
  (List.range 8).all fun g =>
    let mine := rs.filter fun r => fld r 4 1 == g
    mine.isEmpty || mine.any fun r =>
      compareField (fld r 3 1) (fld r 2 1) (fld row (fld r 0 2) (ftSize (fld r 2 1))) (fld r 8 (ftSize (fld r 2 1)))

/-- The output row of EMIT (R206). -/
def emitRow (e : Nat) (r : Row) : Bytes :=
  if e = 0 then r.data else if e = 1 then leBytes 8 r.id else leBytes 8 r.id ++ r.data

/-- Order key of an element against a threshold. -/
def elemKey (ty code : Nat) : Option Int :=
  match decodeNum ty code with
  | .fin a => some a
  | .pinf => some (2 ^ 400)
  | .ninf => some (-(2 ^ 400))
  | .nan => none

/-- The rows a THRESHOLD emits for one input row (R207). -/
def thresholdRow (t : Stage) (r : Row) : List Row :=
  let n := t.rowBytes / tySize t.etype
  let thr := if tyFloat t.etype then elemKey tyFP32 (fld t.body 0 4) else some (signed (fld t.body 0 8) 64 * 2 ^ 149)
  let mode := fld t.body 8 1
  (List.range n).filterMap fun i =>
    let code := fld r.data (i * tySize t.etype) (tySize t.etype)
    match elemKey t.etype code, thr with
    | some x, some y =>
      let hit := if mode = 0 then decide (y ≤ x.natAbs) else if mode = 1 then decide (y ≤ x) else decide (x ≤ y)
      if hit then
        let v := if tyFloat t.etype then (encodeNum tyFP32 none (decodeNum t.etype code)).1
          else unsigned (signed code (8 * tySize t.etype)) 32
        some { id := r.id, data := leBytes 8 r.id ++ leBytes 4 i ++ leBytes 4 v }
      else none
    | _, _ => none

/-- Insert into a TOPK selection of at most `k` rows, ordered by (key, ROWID) (R208). -/
def topInsert (k : Nat) (x : Int × Nat × Bytes) (l : List (Int × Nat × Bytes)) : List (Int × Nat × Bytes) :=
  let before := l.takeWhile fun y => y.1 < x.1 || (y.1 == x.1 && decide (y.2.1 < x.2.1))
  (before ++ x :: l.drop before.length).take k

/-- Fold rows into the state of a TOPK (R208). -/
def topFold (t : Stage) (l : List (Int × Nat × Bytes)) (rows : List Row) : List (Int × Nat × Bytes) :=
  rows.foldl (fun l r =>
    let ft := fld t.body 2 1
    match fieldKey ft (fld r.data (fld t.body 0 2) (ftSize ft)) with
    | none => l
    | some key => topInsert (fld t.body 4 2) ((if fld t.body 3 1 = 0 then -key else key), r.id, emitRow t.emit r) l) l

/-- Elements of a row. -/
def rowElems (ty : Nat) (row : Bytes) : List Num := (decodeElems ty (row.length / tySize ty) row).1

/-- Fold rows into the accumulators of a REDUCE (R209). -/
def redFold (t : Stage) (xs : List Accum) (rows : List Row) : List Accum :=
  rows.foldl (fun xs r => zipAcc (Accum.merge (fld t.body 0 1)) xs
    ((rowElems t.etype r.data).map fun v => Accum.enter (fld t.body 0 1) {} v)) xs

/-- Round a row of values to a type, unpadded: bytes and flags. -/
def roundRow (ty : Nat) (vs : List Num) : Bytes × Nat :=
  let (b, f) := encodeElems ty none 0 vs
  (b.take (vs.length * tySize ty), f)

/-- The output row of a REDUCE, and its flags (R209). -/
def redRow (t : Stage) (xs : List Accum) : Row × Nat :=
  let n := t.rowBytes / tySize t.etype
  let xs := xs ++ List.replicate (n - xs.length) {}
  let (b, f) := roundRow t.otype (xs.map fun x => x.result (fld t.body 0 1))
  ({ id := 0, data := b }, f)

/-! Running a chunk. -/

/-- What running stages over rows gives: the work, or why it stopped. -/
inductive ChainStop where
  /-- An index or entry is invalid: stage and position. -/
  | bad (stage pos : Nat)
  /-- A read met a dead tray, or a granule that cannot be read. -/
  | fault (status : Nat) (ps : List Seg)
  deriving DecidableEq, Repr

/-- A key of a late mark: stage and index in the chunk's stream. -/
def lateKey (stage i : Nat) : Nat := stage * 2 ^ 32 + i

/-- Read one row of a table for a gather: zero-filled where it is marked late and lies on a tray (R204). -/
def State.gatherRow (s : State) (ps : List Seg) (n : Nat) (late : Bool) : Except ChainStop (Bytes × Bool) :=
  if late && ps.any fun g => g.tier == tierTRAY then .ok (List.replicate n 0, true)
  else match s.readFault ps with
    | some st => .error (.fault st ps)
    | none => .ok (s.readPieces ps, false)

/-- Run a GATHER over indices: the output rows, and which are late (R203, R204). -/
def State.runGather (s : State) (c : Cmd) (lates : List Nat) (si : Nat) (t : Stage) :
    Nat → List (Nat × Nat) → Except ChainStop (List Row × List Nat)
  | _, [] => .ok ([], [])
  | j, (rid, idx) :: rest =>
    if 64 * t.a.gran < idx * t.stride + t.rowBytes then .error (.bad si rid)
    else
      match s.gatherRow (c.pieces (refA si) (idx * t.stride) t.rowBytes) t.rowBytes (lates.contains (lateKey si j)) with
      | .error e => .error e
      | .ok (d, l) =>
        match s.runGather c lates si t (j + 1) rest with
        | .error e => .error e
        | .ok (rs, ls) => .ok ({ id := rid, data := d } :: rs, if l then j :: ls else ls)

/-- Run one non-blocking stage over a stream. -/
def State.runStage (s : State) (c : Cmd) (lates : List Nat) (si : Nat) (t : Stage) (rows : List Row) :
    Except ChainStop (List Row × List Nat) :=
  if t.op = sGATHER then
    s.runGather c lates si t 0 (rows.map fun r => (r.id, if t.idxSrc = 2 then r.id else fld r.data 0 t.iw))
  else if t.op = sFILTER then
    .ok ((rows.filter fun r => rowPasses t.preds r.data).map fun r => { id := r.id, data := emitRow t.emit r }, [])
  else .ok ((rows.map (thresholdRow t)).flatten, [])

/-- Run stages from a stream up to the first blocking one: the work done, and the rows that enter it. -/
def State.runStages (s : State) (c : Cmd) (lates : List Nat) : List (Nat × Stage) → List Row → ChainWork →
    Except ChainStop ChainWork
  | [], _, w => .ok w
  | (si, t) :: ts, rows, w =>
    if t.blocking then .ok { w with fold := rows }
    else
      match s.runStage c lates si t rows with
      | .error e => .error e
      | .ok (out, ls) =>
        let w := { w with
          outs := Tab.put w.outs si out
          lates := if t.op = sGATHER then Tab.put w.lates si ls else w.lates
          nread := w.nread + (if t.op = sGATHER then out.length else 0) }
        s.runStages c lates ts out w

/-- The stages of a CHAIN. -/
def Cmd.nstages (c : Cmd) : Nat := fld c.desc 64 8 % 32
def Cmd.stageList (c : Cmd) : List Stage := (List.range c.nstages).map (stageAt c.stages c.nstages)

/-- Stage-0 input rows `start … start+n-1` of a record stage, or the indices of a GATHER. -/
def State.inputRows (s : State) (c : Cmd) (t : Stage) (start n : Nat) : Except ChainStop (List Row) :=
  let ps := if t.op = sGATHER then c.pieces (refC 0) (start * t.iw) (n * t.iw)
    else c.pieces (refA 0) (start * t.rowBytes) (n * t.rowBytes)
  let w := if t.op = sGATHER then t.iw else t.rowBytes
  match s.readFault ps with
  | some st => .error (.fault st ps)
  | none =>
    let d := s.readPieces ps
    .ok ((List.range n).map fun i => { id := start + i, data := slice d (i * w) w })

/-- Stage-0 output of one input row of a FILTER or THRESHOLD, in bytes. -/
def outBytes (t : Stage) (r : Row) : Nat :=
  if t.op = sFILTER then (if rowPasses t.preds r.data then t.outLen else 0) else 16 * (thresholdRow t r).length

/-- The longest run of rows whose stage-0 output fits in 64 KiB, of at least one row (R213): how many. -/
def State.runLength (s : State) (c : Cmd) (t : Stage) (start : Nat) : Nat → Nat → Nat → Nat
  | 0, n, _ => n
  | fuel + 1, n, used =>
    match s.inputRows c t (start + n) 1 with
    | .error _ => n + 1
    | .ok rs =>
      let k := used + (rs.map (outBytes t)).sum
      if 0 < n ∧ 65536 < k then n else s.runLength c t start fuel (n + 1) k

/-- How many stage-0 input rows the chunk that begins at `start` takes. -/
def State.chunkRows (s : State) (c : Cmd) (t : Stage) (start : Nat) : Nat :=
  let left := t.inputRows - start
  if t.op = sFILTER ∨ t.op = sTHRESHOLD then s.runLength c t start left 0 0
  else
    let w := if t.op = sGATHER then t.rowBytes else if t.op = sCOMBINE then t.converted else t.rowBytes
    min left (max 1 (65536 / w))

/-- Run a chunk of a streaming chain: its stage-0 rows through the stages (R213). -/
def State.runChunk (s : State) (c : Cmd) (lates : List Nat) (start n : Nat) : Except ChainStop ChainWork :=
  match c.stageList.zipIdx.map fun (t, i) => (i, t) with
  | [] => .ok {}
  | (i, t) :: ts =>
    match s.inputRows c t start n with
    | .error e => .error e
    | .ok rows =>
      let w : ChainWork := { start := start, count := n }
      if t.op = sGATHER then
        match s.runGather c lates 0 t 0 (rows.map fun r => (r.id, leNat r.data)) with
        | .error e => .error e
        | .ok (out, ls) =>
          s.runStages c lates ts out { w with outs := [(0, out)], lates := [(0, ls)], nread := out.length }
      else s.runStages c lates ((i, t) :: ts) rows w

/-- The output of a blocking stage's state, and its flags. -/
def blockOut (t : Stage) (st : ChainState) : List Row × Nat :=
  if t.op = sTOPK then (st.top.map fun x => { id := x.2.1, data := x.2.2 }, 0)
  else let (r, f) := redRow t st.red; ([r], f)

/-- Run the final unit (R213): the first blocking stage's output, and the stages after it. -/
def State.runTail (s : State) (c : Cmd) (lates : List Nat) : List (Nat × Stage) → List Row → ChainWork →
    Except ChainStop ChainWork
  | [], _, w => .ok w
  | (si, t) :: ts, rows, w =>
    if t.blocking then
      let st : ChainState := { top := topFold t [] rows, red := redFold t [] rows }
      let (out, f) := blockOut t st
      s.runTail c lates ts out { w with outs := Tab.put w.outs si out, flags := w.flags ||| f }
    else
      match s.runStage c lates si t rows with
      | .error e => .error e
      | .ok (out, ls) =>
        let w := { w with
          outs := Tab.put w.outs si out
          lates := if t.op = sGATHER then Tab.put w.lates si ls else w.lates
          nread := w.nread + (if t.op = sGATHER then out.length else 0) }
        s.runTail c lates ts out w

/-- The final unit of a chain with a blocking stage. -/
def State.runFinal (s : State) (c : Cmd) (lates : List Nat) : Except ChainStop ChainWork :=
  let ts := c.stageList.zipIdx.map fun (t, i) => (i, t)
  match ts.dropWhile fun t => !t.2.blocking with
  | [] => .ok {}
  | (bi, b) :: rest =>
    let (out, f) := blockOut b c.chain
    s.runTail c lates rest out { outs := [(bi, out)], flags := f }

/-! DISPATCH and COMBINE (R210–R212). -/

/-- The routing entries: EXPERT and WEIGHT codes. -/
def State.routing (s : State) (c : Cmd) (t : Stage) : Except ChainStop (List (Nat × Nat)) :=
  let n := t.dT * t.dK
  let ps := c.pieces (refC 0) 0 (8 * n)
  match s.readFault ps with
  | some st => .error (.fault st ps)
  | none =>
    let d := s.readPieces ps
    let es := (List.range n).map fun i => (fld d (8 * i) 2, fld d (8 * i + 2) 2, fld d (8 * i + 4) 4)
    match es.findIdx? fun e => (e.1 != 0xFFFF && decide (t.dE ≤ e.1)) || e.2.1 != 0 with
    | some i => .error (.bad 0 i)
    | none => .ok (es.map fun e => (e.1, e.2.2))

/-- Position codes (R210). -/
def posDROPPED : Nat := 0xFFFFFFFF
def posSKIPPED : Nat := 0xFFFFFFFE

/-- Assign entries, in list order, to the next free row of their expert (R211): counts and positions. -/
def assign (e cap : Nat) (experts : List Nat) : List Nat × List Nat :=
  experts.foldl (fun (cnt, pos) x =>
    if x = 0xFFFF then (cnt, pos ++ [posSKIPPED])
    else
      let n := cnt.getD x 0
      if cap ≤ n then (cnt, pos ++ [posDROPPED]) else (cnt.set x (n + 1), pos ++ [n]))
    (List.replicate e 0, [])

/-- A staged write over bytes `o …` of a reference. -/
def Cmd.stageAtRef (c : Cmd) (ref o : Nat) (d : Bytes) : List StagedWrite := stagePieces (c.pieces ref o d.length) d

/-- Bytes that hold `n` bits from bit `o` of a map: the present bytes at `cur` with those bits replaced. -/
def mergeBits (cur : Bytes) (o : Nat) (bs : List Bool) : Bytes :=
  let v := leNat cur
  let v := bs.zipIdx.foldl (fun v (b, i) => setBits v (o % 8 + i) 1 (b2n b)) v
  leBytes cur.length v

/-- Staged writes of bits `o …` of a bit map at byte `base` of a reference. -/
def State.stageBits (s : State) (c : Cmd) (ref base o : Nat) (bs : List Bool) : List StagedWrite :=
  if bs.isEmpty then []
  else
    let n := (o % 8 + bs.length + 7) / 8
    let ps := c.pieces ref (base + o / 8) n
    stagePieces ps (mergeBits (s.readPieces ps) o bs)

/-- DISPATCH chunk 0: the assignment, with counts and position map staged (R211). -/
def State.dispatchAssign (s : State) (c : Cmd) (t : Stage) : Except ChainStop (ChainWork × List StagedWrite × List Nat) :=
  match s.routing c t with
  | .error e => .error e
  | .ok es =>
    let (cnt, pos) := assign t.dE t.dCap (es.map (·.1))
    let cb := padTo (roundUp (t.dE * 4) 64) (cnt.map fun n => leBytes 4 n).flatten
    let pb := padTo (roundUp (t.dT * t.dK * 4) 64) (pos.map fun n => leBytes 4 n).flatten
    .ok ({ dropped := pos.countP (· == posDROPPED) },
         c.stageAtRef (refB 0) t.cntOff cb ++ c.stageAtRef (refB 0) t.posOff pb,
         es.map (·.1) ++ pos)

/-- Whether a position names a row. -/
def admitted (p : Nat) : Bool := p != posDROPPED && p != posSKIPPED

/-- DISPATCH movement of tokens `start … start+n-1` (R211). -/
def State.dispatchMove (s : State) (c : Cmd) (t : Stage) (lates : List Nat) (start n : Nat) :
    Except ChainStop (ChainWork × List StagedWrite) :=
  let nE := t.dT * t.dK
  (List.range n).foldl (fun acc i =>
    match acc with
    | .error e => .error e
    | .ok (w, ws) =>
      let tok := start + i
      let slots := (List.range t.dK).map fun k => tok * t.dK + k
      let adm := slots.filter fun e => admitted (c.chain.positions.getD (nE + e) posDROPPED)
      let lateBits := fun (l : Bool) => s.stageBits c (refB 0) t.lateOff (tok * t.dK)
        (slots.map fun e => l && adm.contains e)
      if adm.isEmpty then .ok (w, ws ++ lateBits false)
      else
        match s.gatherRow (c.pieces (refA 0) (tok * t.rowBytes) t.rowBytes) t.rowBytes (lates.contains (lateKey 0 i)) with
        | .error e => .error e
        | .ok (d, l) =>
          let rows := (adm.map fun e =>
            c.stageAtRef (refB 0) (c.chain.positions.getD e 0 * t.buf + c.chain.positions.getD (nE + e) 0 * t.rowBytes) d).flatten
          .ok ({ w with
            nread := w.nread + 1
            lates := if l then Tab.put w.lates 0 (Tab.getD w.lates 0 [] ++ [i]) else w.lates }, ws ++ rows ++ lateBits l))
    (.ok (({ start := start, count := n } : ChainWork), []))

/-- One output row of COMBINE (R212): the row's values and the entries whose rows were late. -/
def State.combineRow (s : State) (c : Cmd) (t : Stage) (lates : List Nat) (es : List (Nat × Nat)) (tok i : Nat) :
    Except ChainStop (List Accum × List Nat) :=
  (List.range t.dK).foldl (fun acc k =>
    match acc with
    | .error e => .error e
    | .ok (xs, ls) =>
      let e := tok * t.dK + k
      let (x, wgt) := es.getD e (0xFFFF, 0)
      let pp := c.pieces (refA 0) (t.posOff + 4 * e) 4
      match s.readFault pp with
      | some st => .error (.fault st pp)
      | none =>
        let p := leNat (s.readPieces pp)
        if admitted p && decide (t.dCap ≤ p) then .error (.bad 0 e)
        else if !admitted p || x = 0xFFFF then .ok (xs, ls)
        else
          match s.gatherRow (c.pieces (refA 0) (x * t.buf + p * t.rowBytes) t.rowBytes) t.rowBytes
              (lates.contains (lateKey 0 (i * t.dK + k))) with
          | .error e => .error e
          | .ok (d, l) =>
            if l then .ok (xs, ls ++ [e])
            else
              let ys := (rowElems t.etype d).map fun v =>
                Accum.enter rSUM {} (mulF32 (decodeNum tyFP32 wgt) v)
              .ok (zipAcc (Accum.merge rSUM) xs ys, ls))
    (.ok ([], []))
where
  /-- WEIGHT × x rounded to FP32 (R212). -/
  mulF32 (w x : Num) : Num :=
    let sgn := fun (a : Num) => match a with | .fin v => decide (v < 0) | .ninf => true | _ => false
    let zero := fun (a : Num) => a == .fin 0
    let inf := fun (a : Num) => a == .pinf || a == .ninf
    if w = .nan || x = .nan || (zero w && inf x) || (inf w && zero x) then .nan
    else if inf w || inf x then (if sgn w == sgn x then .pinf else .ninf)
    else match w, x with
      | .fin a, .fin b =>
        let code := fmtF32.roundMag none (a.natAbs * b.natAbs) (-298)
        decodeNum tyFP32 ((if sgn w == sgn x then 0 else 2 ^ 31) + min code fmtF32.inf)
      | _, _ => .nan

/-- COMBINE of tokens `start … start+n-1` (R212). -/
def State.combine (s : State) (c : Cmd) (t : Stage) (lates : List Nat) (start n : Nat) :
    Except ChainStop (ChainWork × List StagedWrite) :=
  match s.routing c t with
  | .error e => .error e
  | .ok es =>
    (List.range n).foldl (fun acc i =>
      match acc with
      | .error e => .error e
      | .ok (w, ws) =>
        let tok := start + i
        match s.combineRow c t lates es tok i with
        | .error e => .error e
        | .ok (xs, ls) =>
          let k := t.rowBytes / tySize t.etype
          let xs := xs ++ List.replicate (k - xs.length) {}
          let (row, f) := roundRow t.otype (xs.map fun x => x.result rSUM)
          let bs := (List.range t.dK).map fun j => ls.contains (tok * t.dK + j)
          .ok ({ w with
              flags := w.flags ||| f
              nread := w.nread
              lates := Tab.put w.lates 0 (Tab.getD w.lates 0 [] ++ ls) },
            ws ++ c.stageAtRef (refB 0) (tok * t.converted) row ++ s.stageBits c (refB 0) t.combLate (tok * t.dK) bs))
      (.ok (({ start := start, count := n } : ChainWork), []))

/-! The result record (R214). -/

/-- The 64 bytes of a result record. -/
def Cmd.resultRecord (c : Cmd) (status : Nat) : Bytes :=
  let r := c.chain
  leBytes 1 status ++ leBytes 1 (r.stage.getD (c.nstages - 1)) ++ leBytes 2 r.flags ++ leBytes 4 c.committed ++
  leBytes 8 r.rowsIn ++ leBytes 8 r.rowsOut ++ leBytes 8 r.rowsWritten ++ leBytes 8 r.lateRows ++
  leBytes 8 (r.firstBad.getD (2 ^ 64 - 1)) ++ leBytes 8 r.dropped ++ leBytes 8 0

/-- End a CHAIN (R214, R215): the result record is written, where ref 1's extent still stands, and the command completes. -/
def State.chainEnd (s : State) (cid status : Nat) : State :=
  match s.cmdOf cid with
  | none => s
  | some c =>
    let ps := c.segsOf 1
    let live := ps.all fun g => g.tier == tierHOST || (s.ext g.ext).state != exFREE
    let s := if live then (stagePieces ps (c.resultRecord status)).foldl (fun s w => s.performWrite w) s else s
    let s := s.bump Reg.OPE_CNT_CHAIN
    let s := if status = stCHECK_FAIL then s.bump Reg.OPE_CNT_CHK_FAIL else s
    let fl := c.chain.flags
    let rw := c.chain.rowsWritten
    (s.upCid cid fun c => { c with result := rw, rflags := fl }).complete cid status

/-- The 64 bytes of a checkpoint command's result record (R333). -/
def Cmd.ckpRecord (c : Cmd) (status : Nat) : Bytes :=
  let r := c.ckp
  leBytes 1 status ++ leBytes 1 c.opcode ++ leBytes 2 r.bad ++ leBytes 4 0 ++ leBytes 8 (fld c.desc 72 8) ++
  leBytes 8 r.values ++ leBytes 8 r.blocks ++ leBytes 8 r.bytes ++ leBytes 8 r.aux ++
  leBytes 8 (r.firstBad.getD (2 ^ 64 - 1)) ++ leBytes 8 0

/-- Count the end of a checkpoint command (R337). -/
def State.noteCkpEnd (s : State) (op status : Nat) : State :=
  let s := if op = 0x34 then (if status = stOK then s.bump Reg.CKP_CNT_COMMIT else s.bump Reg.CKP_CNT_COMMIT_FAIL) else s
  if status = stCHECK_FAIL then s.bump Reg.CKP_CNT_CHK_FAIL else s

/-- End a checkpoint command (R330, R333): its result record is written, where ref 1's extent still stands, and the
command completes. -/
def State.ckpEnd (s : State) (cid status : Nat) : State :=
  match s.cmdOf cid with
  | none => s
  | some c =>
    let ps := c.segsOf 1
    let live := ps.all fun g => g.tier == tierHOST || (s.ext g.ext).state != exFREE
    let s := if live then (stagePieces ps (c.ckpRecord status)).foldl (fun s w => s.performWrite w) s else s
    (s.noteCkpEnd c.opcode status).complete cid status

/-- Whether an opcode is a checkpoint command's (R325). -/
def isCkp (op : Nat) : Bool := decide (0x30 ≤ op) && decide (op ≤ 0x37)

/-- Complete an accepted command of a ring with a status, as its opcode lays down. -/
def State.finish (s : State) (cid status : Nat) : State :=
  match s.cmdOf cid with
  | none => s
  | some c =>
    if c.opcode = 0x20 then s.chainEnd cid status
    else if isCkp c.opcode then s.ckpEnd cid status
    else s.complete cid status

/-- OPE_CHK_INJ (R224): whether the chunk's check is forced to fail, for one of its operators; the arm clears. -/
def State.injected (s : State) (ops : List Nat) : Bool × State :=
  if s.on Reg.OPE_CHK_INJ_ARM && ops.contains (s.rd Reg.OPE_CHK_INJ_OP) then (true, s.wr Reg.OPE_CHK_INJ_ARM 0)
  else (false, s)

/-- A chunk's independent check has failed (R217, R446): the chunk runs again once elsewhere, its cluster is tested; a
second failure completes the command CHECK_FAIL. -/
def State.checkFailed (s : State) (cid k cause : Nat) (fail : State → State) : State :=
  match s.runningChunk cid k with
  | none => s
  | some (_, x, cl) =>
    let (s, again) := s.checkFail cid k
    match again, x.selfTest with
    | true, some (ph, _) => fail (s.lasting ph)
    | true, none => fail (s.clusterFault cl cause cid k)
    | false, _ => s.clusterFault cl cause cid k

/-- A chunk read a granule that cannot be read (R444): as a failed check, with no cluster test. -/
def State.readFailed (s : State) (cid k status : Nat) (ps : List Seg) (fail : Nat → State → State) : State :=
  if status = stCHECK_FAIL then
    let s := s.noteBadPieces ps
    let (s, again) := s.checkFail cid k
    if again then fail stCHECK_FAIL s else s
  else fail status s

/-- A chain stops at an invalid index or entry: RANGE, with FIRST_BAD (R204, R211, R212). -/
def State.chainBad (s : State) (cid stage pos : Nat) : State :=
  let s := s.upCid cid fun c => { c with chain := { c.chain with firstBad := some pos, stage := some stage } }
  (s.bump Reg.OPE_CNT_BADIDX).chainEnd cid stRANGE

/-- Where chunk `k` of a chain begins: after the chunk before it, once that one's work is done. -/
def Cmd.chunkStart (c : Cmd) (k : Nat) : Option Nat :=
  if k ≤ c.committed then some c.chain.rowsIn
  else match Tab.find? c.chunks (k - 1) with
    | some x => if x.phase = .staged then some (x.work.start + x.work.count) else none
    | none => none

/-- What chunk `k` of a chain computes: its work, staged writes and new positions. -/
def State.chainWork (s : State) (c : Cmd) (k : Nat) (x : Chunk) : Option (Except ChainStop (ChainWork × List StagedWrite × List Nat)) :=
  let ts := c.stageList
  match ts.head? with
  | none => none
  | some t =>
    let isD := t.op == sDISPATCH
    if isD && k == 0 then some (s.dispatchAssign c t)
    else if isD && c.committed == 0 then none
    else
      match c.chunkStart k with
      | none => none
      | some start =>
        if t.inputRows ≤ start then
          (if ts.any Stage.blocking && k == c.committed then
            some ((s.runFinal c x.late).map fun w => ({ w with start := start }, [], [])) else none)
        else
          let n := s.chunkRows c t start
          if isD then some ((s.dispatchMove c t x.late start n).map fun w => (w.1, w.2, []))
          else if t.op = sCOMBINE then some ((s.combine c t x.late start n).map fun w => (w.1, w.2, []))
          else some ((s.runChunk c x.late start n).map fun w => (w, [], []))

/-- Whether a chunk that ends at row `end_` leaves more chunks to run. -/
def Cmd.moreChunks (c : Cmd) (end_ : Nat) (final : Bool) : Bool :=
  let ts := c.stageList
  let total := (ts.head?.map Stage.inputRows).getD 0
  !final && (decide (end_ < total) || ts.any Stage.blocking)

/-- CHAIN: chunk `k` of command `cid`, running on a cluster, does its work (R213–R217). -/
def chain (cid k : Nat) (s : State) : State :=
  match s.runningChunk cid k with
  | none => s
  | some (c, x, _) =>
    if c.opcode ≠ 0x20 || c.src ≠ 0 then s
    else if x.timedOut then s.chainEnd cid stTIMEOUT
    else
      match s.chainWork c k x with
      | none => s
      | some (.error (.bad si pos)) => s.chainBad cid si pos
      | some (.error (.fault st ps)) => s.readFailed cid k st ps fun st s => s.chainEnd cid st
      | some (.ok (w, ws, ps)) =>
        let (inj, s) := s.injected (c.stageList.map (·.op))
        if inj then s.checkFailed cid k 0 fun s => s.chainEnd cid stCHECK_FAIL
        else
          let s := if x.fails = 1 then s.bump Reg.OPE_CNT_CHK_RERUN else s
          let final := decide (w.count = 0) && !(k == 0 && (c.stageList.head?.map (·.op)) == some sDISPATCH)
          let more := c.moreChunks (w.start + w.count) final
          let s := s.upCid cid fun c => { c with nchunks := if more then max c.nchunks (k + 2) else k + 1 }
          s.stage cid k fun x => { x with work := w, writes := ws, vals := ps }

/-! Commit (R213). -/

/-- Write a chunk's OUT rows of one stage, packed after those of earlier chunks: the state and rows written. -/
def State.commitOut (s : State) (c : Cmd) (si : Nat) (t : Stage) (rows : List Row) : State × Nat :=
  let base := Tab.getD c.chain.emitted si 0
  let cap := if t.outLen = 0 then 0 else t.b.bytes / t.outLen
  let fit := rows.take (cap - base)
  let d := (fit.map (·.data)).flatten
  ((c.stageAtRef (refB si) (base * t.outLen) d).foldl (fun s w => s.performWrite w) s, fit.length)

/-- Write a chunk's late-map bits of one GATHER stage. -/
def State.commitLate (s : State) (c : Cmd) (si : Nat) (t : Stage) (n : Nat) (ls : List Nat) : State :=
  if t.op != sGATHER || t.late.zero then s
  else
    let base := Tab.getD c.chain.emitted si 0
    let room := t.late.bytes * 8 - base
    let bs := (List.range (min n room)).map fun j => ls.contains j
    (s.stageBits c (refL si) 0 base bs).foldl (fun s w => s.performWrite w) s

/-- Commit a staged chunk of a CHAIN. -/
def State.chainCommit (s : State) (cid k : Nat) (c : Cmd) (x : Chunk) : State :=
  let ts := c.stageList
  let w := x.work
  let last := ts.length - 1
  let s := x.writes.foldl (fun s w => s.performWrite w) s
  let dc := ts.any fun t => t.op == sDISPATCH || t.op == sCOMBINE
  let (s, written) := w.outs.foldl (fun (s, n) (si, rows) =>
      let t := ts.getD si {}
      let (s, k) := if t.out then s.commitOut c si t rows else (s, 0)
      (s.commitLate c si t rows.length (Tab.getD w.lates si []), if si = last then k else n)) (s, 0)
  let nlate := (w.lates.map fun l => l.2.length).sum
  let outN := if dc then w.count else (Tab.getD w.outs last []).length
  let b := ts.find? Stage.blocking
  let r := c.chain
  let r := { r with
    rowsIn := r.rowsIn + w.count
    rowsOut := r.rowsOut + outN
    rowsWritten := r.rowsWritten + (if dc then w.count else written)
    lateRows := r.lateRows + nlate
    dropped := r.dropped + w.dropped
    flags := r.flags ||| w.flags
    emitted := w.outs.foldl (fun m (si, rows) => Tab.put m si (Tab.getD m si 0 + rows.length)) r.emitted
    top := match b with
      | some t => if t.op = sTOPK then topFold t r.top w.fold else r.top
      | none => r.top
    red := match b with
      | some t => if t.op = sREDUCE then redFold t r.red w.fold else r.red
      | none => r.red
    positions := if x.vals.isEmpty then r.positions else x.vals }
  let s := s.bump Reg.OPE_CNT_ROWS 0 0 w.nread
  let s := s.bump Reg.OPE_CNT_LATE 0 0 nlate
  let s := s.bump Reg.OPE_CNT_DROPPED 0 0 w.dropped
  let s := s.upCid cid fun c => { c with chain := r, committed := k + 1, chunks := Tab.del c.chunks k }
  if k + 1 < c.nchunks then s else s.chainEnd cid (if r.lateRows = 0 then stOK else stLATE)

/-! GATHER_REQ (R218–R222). -/

/-- Parameters of a GATHER_REQ packet (R219). -/
def Packet.gCount (p : Packet) : Nat := p.arg % 2048
def Packet.gIW (p : Packet) : Nat := if bit p.arg 11 then 8 else 4
def Packet.gRow (p : Packet) : Nat := fld p.payload 0 4
def Packet.gDeadline (p : Packet) : Nat := fld p.payload 4 4
def Packet.gStride (p : Packet) : Nat := fld p.payload 8 8
def Packet.gTable (p : Packet) : Nat := fld p.payload 16 8
/-- Index `i` of the request. -/
def Packet.gIndex (p : Packet) (i : Nat) : Nat := fld p.payload (64 + i * p.gIW) p.gIW

/-- Header and payload checks of a GATHER_REQ (R129, R219). -/
def gatherFields (p : Packet) : List (Nat × Bool) :=
  let cnt := p.gCount
  let cntBad := cnt == 0 || decide ((if bit p.arg 11 then 504 else 1008) < cnt)
  [(0, p.dst != 0xF000 + p.home), (5, bit p.flags 7),
   (6, p.len % 64 != 0 || decide (4096 < p.len) || (!cntBad && p.len != 64 + 64 * ceilDiv (cnt * p.gIW) 64)),
   (16, decide (2 ^ 58 ≤ p.addr) || p.addr % 4 != 0), (24, decide (2 ^ 20 ≤ p.flow)), (27, p.status != 0),
   (28, decide (2 ^ 12 ≤ p.arg) || cntBad),
   (32, p.gRow % 4 != 0 || decide (p.gRow < 4) || decide (65536 < p.gRow)),
   (40, p.gStride % 4 != 0 || decide (p.gStride < 4) || decide (2 ^ 40 < p.gStride)),
   (48, p.gTable == 0 || decide (2 ^ 46 < p.gTable)), (56, !zeroAt p.payload 24 40)]

/-- The single status packet that refuses or ends a GATHER_REQ (R220, R221). -/
def gatherStatus (p : Packet) (status low : Nat) : Packet :=
  Packet.seal { respond p status (low + 2 ^ 31) [] with len := 0 }

/-- A data or map packet of a response (R220). -/
def gatherData (p : Packet) (status n : Nat) (map last : Bool) (d : Bytes) : Packet :=
  let d := padTo (roundUp d.length 64) d
  Packet.seal { respond p status (n + 2 ^ 30 * b2n map + 2 ^ 31 * b2n last) d with len := d.length }

/-- Segments of a range that may span several extents, none FREE or HOST (R218); `none` where it falls in a hole. -/
def State.rangeSegs (s : State) (ref a n : Nat) (write host : Bool) : Option (List Seg) :=
  let es := s.overlapping a n
  let whole := (es.map fun p => min (p.2.hi) (a + n) - max p.2.lo a).sum == n
  if !whole || (!host && es.any fun p => p.2.tier == tierHOST) then none
  else some (es.map fun p =>
    let lo := max p.2.lo a
    let len := min p.2.hi (a + n) - lo
    { ref := ref, tier := p.2.tier, at_ := if p.2.tier = tierHOST then lo - p.2.lo else p.2.at_ lo,
      len := len, ext := p.1, write := write })

/-- Bring OPE_GREQ in line with the requests held (R222, R224). -/
def State.syncGreq (s : State) : State :=
  let n := s.cmd.cmds.countP fun c => c.2.src == 1
  (s.wr Reg.OPE_GREQ_ACTIVE n).measure wmGreq n

/-- End a GATHER_REQ with a status packet (R220). -/
def State.gatherEnd (s : State) (cid status : Nat) : State :=
  match s.cmdOf cid with
  | none => s
  | some c =>
    let s := (s.endWork cid).syncGreq
    let s := if status = stCHECK_FAIL then s.bump Reg.OPE_CNT_CHK_FAIL else s
    (s.bump Reg.OPE_CNT_GREQ).answer connHE0 (gatherStatus c.pkt status 0)

/-- GATHER_REQ: the head of MH's queue is checked, and joins the fen's work (R221, R222). -/
def gatherReq (s : State) : State :=
  match s.takeHome .gather with
  | none => s
  | some (q, s) =>
    let p := q.pkt
    let (clid, fen) := s.who q
    let no := fun (s : State) (st low : Nat) => s.answer connHE0 (gatherStatus p st low)
    if p.retx && s.cmd.cmds.any fun c => c.2.src == 1 && c.2.pkt.src == p.src && c.2.pkt.seq == p.seq then
      s.bump Reg.OPE_CNT_GREQ_DUP
    else
      match firstBad (gatherFields p) with
      | some o => no s stMALFORMED o
      | none =>
        if s.fenQuiet fen then no s stRETRY 0
        else
          let a := p.localAddr
          let st := s.regionCheck clid fen p.region p.key (rtR + rtC) a p.gTable
          if st ≠ stOK then no s st 0
          else match s.rangeSegs (refA 0) a p.gTable false false with
            | none => no s stRANGE 0
            | some segs =>
              match (List.range p.gCount).find? fun i => decide (p.gTable < p.gIndex i * p.gStride + p.gRow) with
              | some i => no (s.bump Reg.OPE_CNT_BADIDX) stRANGE i
              | none =>
                if 4096 < segs.length then no s stRANGE 0xFFFF
                else if fen = 0xFF || (s.fenClusters fen).isEmpty then no s stNO_RESOURCE 0
                else if 1024 ≤ s.cmd.cmds.countP fun c => c.2.src == 1 then no (s.bump Reg.OPE_CNT_GREQ_BUSY) stRETRY 0
                else
                  let rs := (segs.map (·.ext)).eraseDups
                  match s.raiseRefs rs [] with
                  | none => no s stRETRY 0
                  | some s =>
                    let n := ceilDiv p.gCount (max 1 (65536 / p.gRow))
                    let (s, _) := s.addCmd { src := 1, pkt := p, fen := fen, clid := clid, cls := p.cls, pair := clid * 4 + p.cls,
                                             opcode := 0, segs := segs, rrefs := rs, phase := .staging, nchunks := n,
                                             acceptedAt := s.hclk }
                    (s.syncCmd fen).syncGreq

/-- Send the data packets of a GATHER_REQ that are whole, and at the end the last one and the map (R220). -/
def State.gatherSend (s : State) (c : Cmd) (d : Bytes) (late : List Nat) (final : Bool) : State × ChainState :=
  let p := c.pkt
  let r := c.chain
  let all := r.carry ++ d
  let full := if final then ceilDiv all.length 4096 else all.length / 4096
  let isLate := fun (n : Nat) => late.any fun j =>
    decide (j * p.gRow < 4096 * n + 4096) && decide (4096 * n < j * p.gRow + p.gRow)
  let s := (List.range full).foldl (fun s i =>
    let n := r.pkt + i
    let last := final && i + 1 == full && late.isEmpty
    s.send connHE0 (gatherData p (if isLate n then stLATE else stOK) n false last ((all.drop (4096 * i)).take 4096))) s
  let s := if final && !late.isEmpty then
      let m := leBytes (ceilDiv p.gCount 8) ((late.map fun j => 2 ^ j).sum)
      s.send connHE0 (gatherData p stLATE 0 true true m)
    else s
  (if final then s.sweepFences else s, { r with carry := all.drop (4096 * full), pkt := r.pkt + full, late := late })

/-- A running chunk of a GATHER_REQ gathers its rows and sends them (R218, R220). -/
def State.gatherCommit (s : State) (cid k : Nat) (c : Cmd) (x : Chunk) : State :=
  let p := c.pkt
  let per := max 1 (65536 / p.gRow)
  let start := k * per
  let n := min per (p.gCount - start)
  if x.timedOut then s.gatherEnd cid stTIMEOUT
  else
    let t : Stage := { op := sGATHER, rowBytes := p.gRow, body := leBytes 8 p.gStride, a := { gran := p.gTable } }
    match s.runGather c x.late 0 t 0 ((List.range n).map fun i => (start + i, p.gIndex (start + i))) with
    | .error (.bad _ _) => s.gatherEnd cid stRANGE
    | .error (.fault st ps) => s.readFailed cid k st ps fun st s => s.gatherEnd cid st
    | .ok (rows, ls) =>
      let (inj, s) := s.injected [0]
      if inj then s.checkFailed cid k 0 fun s => s.gatherEnd cid stCHECK_FAIL
      else
        let s := (if x.fails = 1 then s.bump Reg.OPE_CNT_CHK_RERUN else s).rerunPassed cid k
        let late := c.chain.late ++ ls.map (start + ·)
        let final := decide (start + n = p.gCount)
        let (s, r) := s.gatherSend c ((rows.map (·.data)).flatten) late final
        let s := (s.bump Reg.OPE_CNT_ROWS 0 0 n).bump Reg.OPE_CNT_LATE 0 0 ls.length
        if final then ((s.endWork cid).syncGreq).bump Reg.OPE_CNT_GREQ
        else
          let s := s.upCid cid fun c => { c with chain := r, committed := k + 1, chunks := Tab.del c.chunks k }
          let s := s.upCmd fun b => { b with running := List.filter (fun y => y.2 != (cid, k)) b.running }
          s.syncCmd c.fen

/-- CHECK_INJECT: a write of OPE_CHK_INJ with ARM set (R224). -/
def checkInjectOp (op : Nat) (arm : Bool) (s : State) : State :=
  let s := s.wr Reg.OPE_CHK_INJ_OP op
  if arm then s.wr Reg.OPE_CHK_INJ_ARM 1 else s

/-- CHAIN. -/
def execChain (cid k : Nat) (s : State) : Host.Outcome State Fault Refusal := .next (chain cid k s)
/-- GATHER_REQ. -/
def execGatherReq (s : State) : Host.Outcome State Fault Refusal := .next (gatherReq s)
/-- CHECK_INJECT. -/
def execCheckInject (a : Access) (op : Nat) (s : State) : Host.Outcome State Fault Refusal :=
  .next (State.window a 0x1400050 (checkInjectOp op true) s)

end Sys2Proof.Machine
end

