-- ==== Sys2Proof/Machine/Pages.lean ====
section
/-!
DEFINITION. Shapes, arenas, pages and directories of the attention assist, and its writes of token slices (chapter 07,
R226–R236, R239, R254).
Marks: DEDUCED 28, in notes/assumptions.
-/
namespace Sys2Proof.Machine

/-! Shape (R226). -/

/-- A fen's shape. -/
structure Shape where
  l : Nat
  hq : Nat
  hkv : Nat
  d : Nat
  kfmt : Nat
  pb : Nat
  topn : Nat
  wb : Nat
  scale : Nat
  deriving DecidableEq, Repr

/-- The shape registers of a fen (R255). -/
def State.shape (s : State) (fen : Nat) : Shape where
  l := s.rd Reg.ATT_SHAPE0_LAYERS fen
  hq := s.rd Reg.ATT_SHAPE0_HQ fen
  hkv := s.rd Reg.ATT_SHAPE0_HKV fen
  d := 64 * 2 ^ s.rd Reg.ATT_SHAPE0_DCODE fen
  kfmt := s.rd Reg.ATT_SHAPE0_KFMT fen
  pb := s.rd Reg.ATT_SHAPE1_PB fen
  topn := s.rd Reg.ATT_SHAPE1_TOPN fen
  wb := s.rd Reg.ATT_SHAPE1_WB fen
  scale := s.rd Reg.ATT_SCALE_VALUE fen

/-- Whether a fen has a shape: LAYERS is not 0 (R226). -/
def State.hasShape (s : State) (fen : Nat) : Bool := s.hasAtt && decide (fen < 64) && s.rd Reg.ATT_SHAPE0_LAYERS fen != 0

/-- A write of an ATT or SQT register: ignored where the attention assist is absent (R3). -/
def State.attWindow (a : Access) (off : Nat) (act : State → State) (s : State) : State :=
  State.window a off (fun s => if s.hasAtt then act s else s) s

def Shape.blockBytes (h : Shape) : Nat := 132 * h.d
def Shape.summaryBytes (h : Shape) : Nat := 6 * h.d + 64
def Shape.sliceBytes (h : Shape) : Nat := 2 * h.d + h.d / 16
def Shape.tokenBytes (h : Shape) : Nat := roundUp (h.l * h.hkv * h.sliceBytes) 64
def Shape.pageBytes (h : Shape) : Nat := h.l * h.pb * (h.blockBytes + h.summaryBytes)

/-- Tokens of a page, for one KV head. -/
def Shape.pageTokens (h : Shape) : Nat := 64 * h.pb

/-- Where, in its page, the summary and the block `b` of layer `l` lie (R232). -/
def Shape.summaryAt (h : Shape) (l b : Nat) : Nat := l * h.pb * (h.blockBytes + h.summaryBytes) + b * h.summaryBytes
def Shape.blockAt (h : Shape) (l b : Nat) : Nat :=
  l * h.pb * (h.blockBytes + h.summaryBytes) + h.pb * h.summaryBytes + b * h.blockBytes

/-- The KV region of a fen. -/
def State.kvRegion (s : State) (fen : Nat) : Nat := s.rd Reg.ATT_KVRGN_REGION fen

/-! Access to local addresses. -/

/-- Read bytes at a local address; a hole reads 0. -/
def State.readAt (s : State) (a n : Nat) : Bytes :=
  match s.extAt a with
  | some (_, e) => if e.tier = tierHOST then List.replicate n 0 else s.readTier e.tier (e.at_ a) n
  | none => List.replicate n 0

/-- Write bytes at a local address, as a write of the switch's own engines: a copy in progress there is aborted (R94), and
bad granules are handled as R444 lays down.  A hole takes nothing. -/
def State.writeBytes (s : State) (a : Nat) (d : Bytes) : State :=
  match s.extAt a with
  | some (i, e) =>
    if e.tier = tierHOST then s
    else (s.abortMove i stABORTED).performWrite { tier := e.tier, at_ := e.at_ a, data := d }
  | none => s

/-- Whether reading a local range meets a bad granule. -/
def State.badAt (s : State) (a n : Nat) : Bool :=
  match s.extAt a with
  | some (_, e) => s.badRange e.tier (e.at_ a) n
  | none => false

/-! Arenas (R227). -/

/-- The local address of page `p` of an arena (R227, R239). -/
def Arena.pageAt (a : Arena) (h : Shape) (p : Nat) : Nat := a.addr + (if a.kind = 1 then 65536 else 0) + p * h.pageBytes

/-- Whether page `p` of a POOL arena is free and zero-filled. -/
def Arena.isFree (a : Arena) (p : Nat) : Bool := decide (p < a.filled) && !Tab.has a.held p && !a.dirty.contains p

/-- Pages free and zero-filled. -/
def Arena.nfree (a : Arena) : Nat :=
  if a.kind = 1 then 0 else a.filled - a.held.length - a.dirty.length

/-- The first free page, in page order: it is at most the number of pages held or released. -/
def Arena.firstFree (a : Arena) : Option Nat :=
  if a.kind = 1 then none else (List.range (a.held.length + a.dirty.length + 1)).find? a.isFree

/-- Change an arena. -/
def State.upArena (s : State) (n : Nat) (f : Arena → Arena) : State :=
  s.upAtt fun b => { b with arenas := Tab.upd b.arenas n f }

/-- Whether an extent is a registered arena (R227). -/
def State.isArena (s : State) (ext : Nat) : Bool := s.att.arenas.any fun a => a.2.ext == ext

/-- Bring a fen's page counts and watermark in line with its arenas (R255). -/
def State.syncPages (s : State) (fen : Nat) : State :=
  let mine := s.att.arenas.filter fun a => a.2.fen == fen && a.2.kind == 0
  let total := (mine.map fun a => a.2.pages).sum
  let free := (mine.map fun a => a.2.nfree).sum
  let s := (s.wr Reg.ATT_PAGES_TOTAL total fen).wr Reg.ATT_PAGES_FREE_COUNT free fen
  s.measure wmPage (total - free) fen

/-- Stack of a POOL arena, or none when it lies on the tray tier. -/
def State.arenaStack (s : State) (a : Arena) : Option Nat :=
  let e := s.ext a.ext
  if e.tier = tierNEAR then some (stackOf (locByte e.tier e.loc)) else none

/-- The page that R230 gives head `h` of sequence `i`: arena and page. -/
def State.pickPage (s : State) (fen i h : Nat) : Option (Nat × Nat) :=
  let mine := s.att.arenas.filter fun a => a.2.fen == fen && a.2.kind == 0
  let pick := fun (place : Option Nat) =>
    (mine.filterMap fun (n, a) => if s.arenaStack a = place then a.firstFree.map fun p => (n, p) else none).head?
  let order := (List.range 8).map fun k => some ((h + i + k) % 8)
  ((order ++ [none]).filterMap pick).head?

/-! Directory (R228). -/

/-- An entry that names no page. -/
def dirNone : Nat := 0xFFFFFFFF

/-- Local address of entry `k` of directory slot `i`. -/
def State.dirAt (s : State) (fen i k : Nat) : Nat :=
  (s.rd64 Reg.ATT_DIR_BASE_LO Reg.ATT_DIR_BASE_HI fen / 4096 * 4096) % 2 ^ 46 + 4096 * i + 4 * k

/-- Read a directory entry. -/
def State.dirRead (s : State) (fen i k : Nat) : Nat :=
  let a := s.dirAt fen i k
  if (s.extAt a).isSome then leNat (s.readAt a 4) else dirNone

/-- Write a directory entry. -/
def State.dirWrite (s : State) (fen i k v : Nat) : State := s.writeBytes (s.dirAt fen i k) (leBytes 4 v)

/-- Write directory slot `i`: `es` are its first entries, every other names no page. -/
def State.dirFill (s : State) (fen i : Nat) (es : List Nat) : State :=
  s.writeBytes (s.dirAt fen i 0)
    ((es.map (leBytes 4)).flatten ++ List.replicate (4096 - 4 * es.length) 0xFF)

/-- The directory entry that names a page of an arena. -/
def dirEntry (arena page : Nat) : Nat := arena + 1024 * page

/-- Where the page that an entry names lies: its arena's extent, and its local address; none where it names no page of an
arena of the fen whose extent still stands. -/
def State.pageOf (s : State) (fen v : Nat) : Option (Nat × Nat) :=
  if v = dirNone ∨ 2 ^ 30 ≤ v then none
  else match Tab.find? s.att.arenas (v % 1024) with
    | none => none
    | some a =>
      let there := match s.extAt a.addr with
        | some (i, e) => i == a.ext && e.lo == a.addr
        | none => false
      if a.fen = fen && decide (v / 1024 < a.pages) && there then some (a.ext, a.pageAt (s.shape fen) (v / 1024)) else none

/-! Sequences' keys and pages. -/

/-- Key of a sequence entry. -/
def seqKey (fen i : Nat) : Nat := fen * 2 ^ 18 + i

/-- An entry; a FREE one is all 0. -/
def State.seq (s : State) (fen i : Nat) : SeqEnt := Tab.getD s.sqt.ents (seqKey fen i) {}

/-- Change an entry. -/
def State.upSeq (s : State) (fen i : Nat) (f : SeqEnt → SeqEnt) : State :=
  s.upSqt fun b => { b with ents := Tab.upd b.ents (seqKey fen i) f }

/-- Whether a sequence needs a page for position `pos` (R237, R266). -/
def Shape.needsPage (h : Shape) (e : SeqEnt) (pos : Nat) : Bool := decide (e.ownPages * h.pageTokens ≤ pos - e.p)

/-- Hold the pages picked for heads `h, h+1, …` one after another; `none` where a head finds none (R230). -/
def State.takePages (fen i n : Nat) : Nat → State → Option State
  | 0, s => some s
  | k + 1, s =>
    let h := n - (k + 1)
    match s.pickPage fen i h with
    | none => none
    | some (a, p) =>
      let s := s.upArena a fun x => { x with held := Tab.put x.held p (seqKey fen i) }
      let e := s.seq fen i
      State.takePages fen i n k (s.dirWrite fen i ((e.pp + e.ownPages) * n + h) (dirEntry a p))

/-- Acquire one page for each KV head of a sequence, or none of them (R230, R275): the state, and whether it did. -/
def State.acquire (s : State) (fen i : Nat) : State × Bool :=
  let h := s.shape fen
  let e := s.seq fen i
  if 1024 / h.hkv - e.pp ≤ e.ownPages then ((s.bump Reg.SQT_CNT_DIR_FULL).bump Reg.ATT_CNT_PAGE_NORES, false)
  else match State.takePages fen i h.hkv h.hkv s with
    | none => (s.bump Reg.ATT_CNT_PAGE_NORES, false)
    | some s =>
      ((((s.upSeq fen i fun e => { e with ownPages := e.ownPages + 1 }).bump Reg.ATT_CNT_PAGE_ACQ).syncPages fen), true)

/-! Blocks and appends (R229, R233–R236). -/

/-- Slot, block index and directory page of own or prefix position `t` (R229). -/
def Shape.place (h : Shape) (p pp t : Nat) : Nat × Nat × Nat :=
  if t < p then (t % 64, t / 64, t / h.pageTokens)
  else
    let r := t - p
    (r % 64, pp * h.pb + r / 64, pp + r / h.pageTokens)

/-- COUNT of the block whose summary lies at a local address. -/
def State.blockCount (s : State) (h : Shape) (sum : Nat) : Nat := leNat (s.readAt (sum + 2 * h.d + 16) 2)

/-- Decoded keys and values of the first `c` slots of the block at a local address. -/
def State.blockTokens (s : State) (h : Shape) (blk c : Nat) : List (List Num × List Num) :=
  let ty := kvType h.kfmt
  let g := h.d / 32
  (List.range c).map fun t =>
    (kvDecode ty (s.readAt (blk + h.d * t) h.d) (s.readAt (blk + 128 * h.d + g * t) g),
     kvDecode ty (s.readAt (blk + 64 * h.d + h.d * t) h.d) (s.readAt (blk + 130 * h.d + g * t) g))

/-- A token slice: key elements, value elements, key scales, value scales. -/
def Shape.sliceBad (h : Shape) (b : Bytes) : Option Nat :=
  let ty := kvType h.kfmt
  let g := h.d / 32
  let vals := kvDecode ty (slice b 0 h.d) (slice b (2 * h.d) g) ++
    kvDecode ty (slice b h.d h.d) (slice b (2 * h.d + g) g)
  vals.findIdx? fun v => match v with
    | .fin _ => false
    | _ => true

/-- Write the slices of consecutive tokens from slot `n` of one block, and its summary (R235, R236).  `pg` is the page's
local address; `first` the position of slot 0. -/
def State.putSlices (s : State) (h : Shape) (pg l b n first : Nat) (sl : List Bytes) : State :=
  let sum := pg + h.summaryAt l b
  let blk := pg + h.blockAt l b
  let g := h.d / 32
  let c := max (s.blockCount h sum) (n + sl.length)
  let s := sl.zipIdx.foldl (fun s (x, j) =>
    let t := n + j
    let s := s.writeBytes (blk + h.d * t) (slice x 0 h.d)
    let s := s.writeBytes (blk + 64 * h.d + h.d * t) (slice x h.d h.d)
    let s := s.writeBytes (blk + 128 * h.d + g * t) (slice x (2 * h.d) g)
    (s.writeBytes (blk + 130 * h.d + g * t) (slice x (2 * h.d + g) g)).bump Reg.ATT_CNT_SLICES) s
  let ts := s.blockTokens h blk c
  s.writeBytes sum (summaryBytes h.d first (ts.map fun t => t.1.map Num.int) (ts.map fun t => t.2.map Num.int))

/-- Whether an append at slot `n` of a block with this COUNT is allowed (R236). -/
def appendOk (count n : Nat) : Bool := count == n || count == n + 1

end Sys2Proof.Machine
end

