-- ==== Sys2Proof/Machine/Sequence.lean ====
section
/-!
DEFINITION. The sequence table and the stepper (chapter 08): joins, leaves, opens of steps, and the SQT operations.
-/
namespace Sys2Proof.Machine

/-! Entries and groups. -/

/-- SEQ_ENTRIES of a fen (R256). -/
def State.seqEntries (s : State) (fen : Nat) : Nat := (Tab.getD s.cfg.limits fen {}).seqEntries

/-- Whether an accepted APPEND naming a sequence has not completed (R259 APPEND_BUSY). -/
def State.appendBusy (s : State) (fen i : Nat) : Bool :=
  s.cmd.cmds.any fun c => c.2.opcode == 0x28 && c.2.src == 0 && c.2.fen == fen &&
    !bit (fld c.2.desc 64 8) 63 && fld c.2.desc 64 8 % 2 ^ 18 == i

/-- Entries of a fen, by index. -/
def State.seqsOf (s : State) (fen : Nat) : List (Nat × SeqEnt) :=
  (s.sqt.ents.filter fun e => e.1 / 2 ^ 18 == fen).map fun e => (e.1 % 2 ^ 18, e.2)

/-- Whether a group's fen owns it (R261). -/
def State.ownsGroup (s : State) (fen g : Nat) : Bool :=
  decide (fen < 64) && decide (s.rd Reg.SQT_FEN_GRP_BASE fen ≤ g) &&
    decide (g < s.rd Reg.SQT_FEN_GRP_BASE fen + s.rd Reg.SQT_FEN_GRP_COUNT fen)

/-- The fen that owns a group, if any. -/
def State.groupFen (s : State) (g : Nat) : Option Nat := (List.range 64).find? fun f => s.ownsGroup f g

/-- Members of a fen's group, in ascending index (R262). -/
def State.members (s : State) (fen g : Nat) : List (Nat × SeqEnt) :=
  (s.seqsOf fen).filter fun e => e.2.group == g && e.2.state != sqPREFIX

/-- A group's step state. -/
def State.grp (s : State) (g : Nat) : Group := Tab.getD s.sqt.groups g {}

/-- Change a group's step state. -/
def State.upGrp (s : State) (g : Nat) (f : Group → Group) : State :=
  s.upSqt fun b => { b with groups := Tab.put b.groups g (f (s.grp g)) }

/-- The sixteen words of an entry (R259). -/
def State.seqWords (s : State) (fen i : Nat) : List Nat :=
  let e := s.seq fen i
  if e.state = sqFREE then (i + 2 ^ 21 * fen) :: List.replicate 15 0
  else
    let ms := if e.state = sqPREFIX then [] else (s.members fen e.group).map (·.1)
    let next := ms.find? fun j => decide (i < j)
    let prev := (ms.filter fun j => decide (j < i)).getLast?
    let link := fun (o : Option Nat) => match o with
      | some j => j + 2 ^ 18
      | none => 0
    [i + 2 ^ 18 * e.state + 2 ^ 21 * fen,
     e.clid + 2 ^ 12 * (if e.state = sqPREFIX then 0 else e.group) + 2 ^ 24 * b2n e.asap + 2 ^ 25 * b2n e.inwl +
       2 ^ 26 * b2n e.nores + 2 ^ 27 * b2n e.resume + 2 ^ 28 * b2n (s.appendBusy fen i) + 2 ^ 29 * b2n e.hasParent,
     e.length,
     ceilDiv e.p 64 + ceilDiv (e.length - e.p) 64,
     e.ownPages + 2 ^ 8 * e.pp + 2 ^ 16 * e.arena,
     e.p, e.joinStep, e.lastStep, e.layersDone, e.parent, e.served,
     e.noresSteps + 2 ^ 16 * e.joinTries,
     link next, link prev, e.joinTime % 2 ^ 32, e.joinTime / 2 ^ 32]

/-- Highest index in use in a fen, plus 1 (R258). -/
def State.seqHigh (s : State) (fen : Nat) : Nat := ((s.seqsOf fen).map fun e => e.1 + 1).foldl max 0

/-- Count entries in use up or down (R257, R278). -/
def State.seqUsed (s : State) (fen : Nat) (up : Bool) : State :=
  let s := if up then (s.inc Reg.SQT_STAT_USED).inc Reg.FEN_SEQ_USED_COUNT 1 fen
    else (s.dec Reg.SQT_STAT_USED).dec Reg.FEN_SEQ_USED_COUNT 1 fen
  s.measure wmSeq (s.rd Reg.SQT_STAT_USED)

/-! Leaves (R274). -/

/-- Raise or lower REFS of a prefix arena's extent (R106). -/
def State.prefixRef (s : State) (arena : Nat) (up : Bool) : State :=
  match Tab.find? s.att.arenas arena with
  | none => s
  | some a => s.upExt a.ext fun e => { e with refs := if up then e.refs + 1 else e.refs - 1 }

/-- Whether any page is held under a key. -/
def State.holdsPages (s : State) (k : Nat) : Bool := s.att.arenas.any fun a => a.2.held.any fun h => h.2 == k

/-- A leave (R274). -/
def State.leave (s : State) (fen i : Nat) : State :=
  let e := s.seq fen i
  let s := s.upSqt fun b => { b with ents := Tab.del b.ents (seqKey fen i) }
  let s := if e.hasParent || e.state == sqPREFIX then s.prefixRef e.arena false else s
  let s := s.seqUsed fen false
  let s := s.dirFill fen i []
  let k := seqKey fen i
  let s := if !s.holdsPages k then s else
    let n := s.att.nextLeave
    s.upAtt fun b => { b with
      arenas := Tab.mapVals b.arenas fun _ a => { a with held := Tab.mapVals a.held fun _ h => if h = k then 2 ^ 40 + n else h }
      leaving := Tab.put b.leaving n { fen := fen, idx := i, before := s.cmd.nextCid }
      nextLeave := n + 1 }
  s.bump Reg.SQT_CNT_LEFT

/-- Kill the APPEND commands that name a sequence (R272). -/
def State.killAppends (s : State) (fen i : Nat) : State :=
  let hit := s.cmd.cmds.filter fun c => c.2.opcode == 0x28 && c.2.src == 0 && c.2.fen == fen &&
    !bit (fld c.2.desc 64 8) 63 && fld c.2.desc 64 8 % 2 ^ 18 == i
  hit.foldl (fun s c => s.finish c.1 stKILLED) s

/-- A leave with NOW (R272, R276, R281). -/
def State.leaveNow (s : State) (fen i : Nat) : State := (s.killAppends fen i).leave fen i

/-- PAGE_RELEASE: the pages of leave `n` go to zero-fill once the sequence's records in progress have completed (R274). -/
def pageRelease (n : Nat) (s : State) : State :=
  match Tab.find? s.att.leaving n with
  | none => s
  | some v =>
    if s.cmd.cmds.any fun c => decide (c.1 < v.before) && c.2.src == 2 && c.2.fen == v.fen && c.2.vals.getD 2 0 == v.idx then s
    else
      let k := 2 ^ 40 + n
      let s := s.upAtt fun b => { b with
        arenas := Tab.mapVals b.arenas fun _ a =>
          { a with held := List.filter (fun h => h.2 != k) a.held
                   dirty := a.dirty ++ ((a.held.filter fun h => h.2 == k).map (·.1)) }
        leaving := Tab.del b.leaving n }
      match s.sqt.dropping with
      | some f => if s.att.leaving.any fun l => l.2.fen == f then s
          else (s.upSqt fun b => { b with dropping := none }).wr Reg.SQT_ENT_OP_BUSY 0
      | none => s

/-- PAGE_SCRUB_DONE: the zero-fill of a page ends, and it joins its arena's free pages (R231). -/
def pageScrubDone (arena page : Nat) (s : State) : State :=
  match Tab.find? s.att.arenas arena with
  | none => s
  | some a =>
    let h := s.shape a.fen
    let zero := fun (s : State) => match Tab.find? s.pool.extents a.ext with
      | none => s
      | some e =>
        let at_ := e.at_ (a.pageAt h page)
        let s := s.zeroTier e.tier at_ h.pageBytes
        (match Tab.find? s.pool.moves a.ext with
          | some m => s.zeroTier m.destTier (locByte m.destTier m.dest + (a.pageAt h page - e.lo)) h.pageBytes
          | none => s).mendKeys (granKeys e.tier at_ h.pageBytes)
    if a.dirty.contains page then
      ((zero s).upArena arena fun a => { a with dirty := a.dirty.filter (· != page) }).syncPages a.fen
    else if a.kind = 0 && page = a.filled && decide (page < a.pages) then
      let s := ((zero s).upArena arena fun a => { a with filled := page + 1 }).syncPages a.fen
      if page + 1 = a.pages then s.wr Reg.ATT_AR_OP_BUSY 0 else s
    else s

/-! Opens (R264–R268). -/

/-- Whether a group's open is in progress: it is the one being performed (R265). -/
def State.opening (s : State) (g : Nat) : Bool := s.sqt.opens.head?.any fun o => o.1 == g

/-- Whether a due join is due at step `n` (R266). -/
def SeqEnt.due (e : SeqEnt) (n : Nat) : Bool := e.asap || decide ((n + 2 ^ 32 - e.joinStep) % 2 ^ 32 < 2 ^ 31)

/-- Pass 2 for one continuing sequence: the state, and acquisitions attempted. -/
def State.openContinue (s : State) (fen n i : Nat) : State × Nat :=
  let h := s.shape fen
  let s := s.upSeq fen i fun e =>
    let e := if e.layersDone = h.l then { e with length := e.length + 1, layersDone := 0 } else e
    { e with inwl := true, lastStep := n }
  let e := s.seq fen i
  if !h.needsPage e e.length then (s, 0)
  else
    let (s, ok) := s.acquire fen i
    if ok then (s, 1)
    else ((s.upSeq fen i fun e => { e with state := sqPARKED, nores := true }).bump Reg.SQT_CNT_PARK, 1)

/-- Pass 3 for one due join or resume: the state, joins taken up, and acquisitions attempted. -/
def State.openJoin (s : State) (fen n i : Nat) : State × Nat × Nat :=
  let h := s.shape fen
  if s.appendBusy fen i then (s.bump Reg.SQT_CNT_DEFER, 0, 0)
  else
    let s := s.upSeq fen i fun e => { e with inwl := true, lastStep := n }
    let e := s.seq fen i
    let (s, ok, k) := if h.needsPage e e.length then let (s, ok) := s.acquire fen i; (s, ok, 1) else (s, true, 0)
    if ok then
      ((s.upSeq fen i fun e =>
          let e := if e.state = sqJOINING then { e with joinStep := n, asap := false } else e
          { e with state := sqACTIVE, resume := false }).bump Reg.SQT_CNT_JOINED, 1, k)
    else
      ((s.upSeq fen i fun e => { e with nores := true, joinTries := satAdd e.joinTries 1 0xFFFF }).bump
        Reg.SQT_CNT_JOIN_NORES, 1, k)

/-- Perform the open of step `n` of a group (R266, R270). -/
def State.openStep (s : State) (fen g n time : Nat) : State :=
  let m := s.members fen g
  let s := m.foldl (fun s e => s.upSeq fen e.1 fun e => { e with inwl := false, nores := false, noresCounted := false }) s
  let gone := m.filter fun e => e.2.state == sqLEAVING
  let s := gone.foldl (fun s e => s.leave fen e.1) s
  let (s, a) := (m.filter fun e => e.2.state == sqACTIVE).foldl (fun (s, a) e =>
    let (s, k) := State.openContinue s fen n e.1
    (s, a + k)) (s, 0)
  let joins := m.filter fun e => (e.2.state == sqJOINING && e.2.due n) || (e.2.state == sqPARKED && e.2.resume)
  let (s, j, a) := joins.foldl (fun (s, j, a) e =>
    let (s, j', a') := State.openJoin s fen n e.1
    (s, j + j', a + a')) (s, 0, a)
  let t := 24 + m.length + 8 * gone.length + 4 * j + 16 * a
  let s := s.upGrp g fun b => { b with cur := n, isOpen := true, dur := t, time := time }
  (s.bump Reg.SQT_CNT_OPEN).raise Reg.SQT_OPEN_MAX_HCLK t

/-! Sequence commands (R271–R273). -/

/-- P0 of a command. -/
def Cmd.p0 (c : Cmd) : Nat := fld c.desc 64 8

/-- The command, of an opcode, whose only chunk runs. -/
def State.tableCmd (s : State) (cid op : Nat) : Option Cmd :=
  match s.runningChunk cid 0 with
  | none => none
  | some (c, _, _) => if c.opcode = op && c.src = 0 then some c else none

/-- Refuse a join TABLE_FULL (R257, R261). -/
def State.joinFull (s : State) (cid fen : Nat) : State :=
  (((s.bump Reg.SQT_CNT_TBL_FULL).refuseFull fen).finish cid stTABLE_FULL)

/-- TOKENS of a prefix image (R238). -/
def State.imageTokens (s : State) (addr : Nat) : Nat := leNat (s.readAt (addr + 16) 4)

/-- SEQ_JOIN (R271). -/
def seqJoin (cid : Nat) (s : State) : State :=
  match s.tableCmd cid 0x29 with
  | none => s
  | some c =>
    let f := c.fen
    let h := s.shape f
    let g := c.p0 % 4096
    let isPfx := bit c.p0 16
    let parent := bit c.p0 18
    let pi := fld c.desc 80 8 % 2 ^ 18
    if !isPfx && s.opening g then s
    else if !isPfx && !s.ownsGroup f g then s.finish cid stRANGE
    else if parent && (s.seq f pi).state != sqPREFIX then s.finish cid stRANGE
    else
      let ext := ((c.segsOf 0).head?.map (·.ext)).getD 0
      let ar := if isPfx then Tab.findVal? s.att.arenas fun a => a.kind == 1 && a.fen == f && a.ext == ext
        else if parent then (Tab.find? s.att.arenas (s.seq f pi).arena).map fun a => ((s.seq f pi).arena, a) else none
      if isPfx && ar.isNone then s.finish cid stRANGE
      else if (match ar with
          | some (_, a) => decide (65535 ≤ (s.ext a.ext).refs)
          | none => false) then s.finish cid stNO_RESOURCE
      else
        let lim := min (s.seqEntries f) (s.rd Reg.ATT_DIR_SLOTS_COUNT f)
        let used := (s.seqsOf f).map (·.1)
        match (List.range (min lim (used.length + 1))).find? fun i => !used.contains i with
        | none => s.joinFull cid f
        | some i =>
          if !isPfx && decide (16384 ≤ (s.members f g).length) then s.joinFull cid f
          else
            let (p, pp) := match ar with
              | none => (0, 0)
              | some (_, a) =>
                if isPfx then let t := s.imageTokens a.addr; (t, ceilDiv t h.pageTokens)
                else ((s.seq f pi).p, (s.seq f pi).pp)
            let an := (ar.map (·.1)).getD 0
            let e : SeqEnt := { state := if isPfx then sqPREFIX else sqJOINING, clid := c.clid, group := if isPfx then 0 else g,
                                asap := bit c.p0 17, hasParent := parent, length := p, pp := pp, arena := an, p := p,
                                joinStep := fld c.desc 72 4, parent := pi, joinTime := s.tnow }
            let s := s.upSqt fun b => { b with ents := Tab.put b.ents (seqKey f i) e }
            let s := s.dirFill f i ((List.range (pp * h.hkv)).map fun k => dirEntry an k)
            let s := if ar.isSome then s.prefixRef an true else s
            let s := s.seqUsed f true
            (s.upCid cid fun c => { c with result := i, committed := 1 }).finish cid stOK

/-- SEQ_LEAVE (R272). -/
def seqLeave (cid : Nat) (s : State) : State :=
  match s.tableCmd cid 0x2A with
  | none => s
  | some c =>
    let f := c.fen
    let i := c.p0 % 2 ^ 18
    let now := bit c.p0 18
    let e := s.seq f i
    let ok := fun (s : State) => (s.upCid cid fun c => { c with committed := 1 }).finish cid stOK
    if e.state = sqFREE then s.finish cid stRANGE
    else if e.state != sqPREFIX && s.opening e.group then s
    else if e.state = sqACTIVE && !now then ok (s.upSeq f i fun e => { e with state := sqLEAVING })
    else if e.state = sqLEAVING && !now then ok s
    else ok (s.leaveNow f i)

/-- SEQ_RESUME (R273). -/
def seqResume (cid : Nat) (s : State) : State :=
  match s.tableCmd cid 0x2B with
  | none => s
  | some c =>
    let i := c.p0 % 2 ^ 18
    let e := s.seq c.fen i
    if e.state != sqFREE && e.state != sqPREFIX && s.opening e.group then s
    else if e.state != sqPARKED then s.finish cid stRANGE
    else ((s.upSeq c.fen i fun e => { e with resume := true }).upCid cid fun c => { c with committed := 1 }).finish cid stOK

/-! SQT operations (R280, R281). -/

/-- End a group operation. -/
def State.grpEnd (s : State) (st : Nat) : State := s.setEnd Reg.SQT_GRP_STATUS_STATUS Reg.SQT_GRP_STATUS_DONE st

/-- SQT_GRP READ. -/
def State.grpRead (s : State) : State :=
  let g := s.rd Reg.SQT_GRP_INDEX_GROUP
  let b := s.grp g
  let f := s.groupFen g
  let ms := match f with
    | some f => s.members f g
    | none => []
  let n := fun (st : Nat) => ms.countP fun e => e.2.state == st
  let s := ((s.wr Reg.SQT_GRP_DATA0_CUR_STEP b.cur).wrb Reg.SQT_GRP_DATA1_OPEN b.isOpen).wr Reg.SQT_GRP_DATA1_FEN (f.getD 0)
  let s := ((s.wr Reg.SQT_GRP_DATA1_MEMBERS ms.length).wr Reg.SQT_GRP_DATA2_ACTIVE (n sqACTIVE)).wr
    Reg.SQT_GRP_DATA2_JOINING (n sqJOINING)
  let s := ((s.wr Reg.SQT_GRP_DATA3_PARKED (n sqPARKED)).wr Reg.SQT_GRP_DATA3_LEAVING (n sqLEAVING)).wr
    Reg.SQT_GRP_DATA4_OPEN_HCLK b.dur
  ((s.wr Reg.SQT_GRP_DATA5 (b.time % 2 ^ 32)).wr Reg.SQT_GRP_DATA6 (b.time / 2 ^ 32)).grpEnd stOK

/-- SQT_GRP RESET. -/
def State.grpReset (s : State) : State :=
  let g := s.rd Reg.SQT_GRP_INDEX_GROUP
  let busy := match s.groupFen g with
    | some f => !(s.members f g).isEmpty
    | none => false
  if busy then s.grpEnd stRETRY
  else (s.upGrp g fun b => { b with cur := 0, isOpen := false }).grpEnd stOK

/-- End an entry operation. -/
def State.entEnd (s : State) (st : Nat) : State := s.setEnd Reg.SQT_ENT_STATUS_STATUS Reg.SQT_ENT_STATUS_DONE st

/-- SQT_ENT READ. -/
def State.entRead (s : State) : State :=
  let f := s.rd Reg.SQT_ENT_FEN_FEN
  let i := s.rd Reg.SQT_ENT_INDEX_INDEX
  if s.seqEntries f ≤ i then s.entEnd stKEY_DENIED
  else ((s.seqWords f i).zipIdx.foldl (fun s (v, w) => s.wr Reg.SQT_ENT_DATA v w) s).entEnd stOK

/-- SQT_ENT DROP. -/
def State.entDrop (s : State) : State :=
  let f := s.rd Reg.SQT_ENT_FEN_FEN
  let i := s.rd Reg.SQT_ENT_INDEX_INDEX
  if s.on Reg.SQT_ENT_OP_BUSY then s.entEnd stRETRY
  else if s.seqEntries f ≤ i then s.entEnd stKEY_DENIED
  else if (s.seq f i).state = sqFREE then s.entEnd stRANGE
  else if (s.seq f i).state != sqPREFIX && s.opening (s.seq f i).group then s
  else (s.leaveNow f i).entEnd stOK

/-- SQT_ENT DROP_FEN. -/
def State.entDropFen (s : State) : State :=
  let f := s.rd Reg.SQT_ENT_FEN_FEN
  if s.on Reg.SQT_ENT_OP_BUSY then s.entEnd stRETRY
  else if s.sqt.opens.head?.any fun o => s.ownsGroup f o.1 then s
  else
    let s := (s.seqsOf f).foldl (fun s e => s.leaveNow f e.1) s
    let s := if s.att.leaving.any fun l => l.2.fen == f then
        (s.upSqt fun b => { b with dropping := some f }).wr Reg.SQT_ENT_OP_BUSY 1
      else s
    s.entEnd stOK

/-- Leaves by lease expiry of a client (R276). -/
def State.leaseLeaves (s : State) (clid : Nat) : State :=
  (s.sqt.ents.filter fun e => e.2.clid == clid && e.2.state != sqPREFIX).foldl (fun s e =>
    (s.leaveNow (e.1 / 2 ^ 18) (e.1 % 2 ^ 18)).bump Reg.SQT_CNT_LEASE_LEAVE) s

/-- PAGE_RELEASE. -/
def execPageRelease (n : Nat) (s : State) : Host.Outcome State Fault Refusal := .next (pageRelease n s)
/-- PAGE_SCRUB_DONE. -/
def execPageScrubDone (arena page : Nat) (s : State) : Host.Outcome State Fault Refusal := .next (pageScrubDone arena page s)
/-- SEQ_JOIN. -/
def execSeqJoin (cid : Nat) (s : State) : Host.Outcome State Fault Refusal := .next (seqJoin cid s)
/-- SEQ_LEAVE. -/
def execSeqLeave (cid : Nat) (s : State) : Host.Outcome State Fault Refusal := .next (seqLeave cid s)
/-- SEQ_RESUME. -/
def execSeqResume (cid : Nat) (s : State) : Host.Outcome State Fault Refusal := .next (seqResume cid s)
/-- SQT_GRP_READ. -/
def execSqtGrpRead (a : Access) (s : State) : Host.Outcome State Fault Refusal :=
  .next (State.attWindow a 0x1000104 (fun s => (s.wr Reg.SQT_GRP_OP_CODE 1).grpRead) s)
/-- SQT_GRP_RESET. -/
def execSqtGrpReset (a : Access) (s : State) : Host.Outcome State Fault Refusal :=
  .next (State.attWindow a 0x1000104 (fun s => (s.wr Reg.SQT_GRP_OP_CODE 2).grpReset) s)
/-- SQT_ENT_READ. -/
def execSqtEntRead (a : Access) (s : State) : Host.Outcome State Fault Refusal :=
  .next (State.attWindow a 0x1000208 (fun s => (s.wr Reg.SQT_ENT_OP_CODE 1).entRead) s)
/-- DROP. -/
def execDrop (a : Access) (s : State) : Host.Outcome State Fault Refusal :=
  .next (State.attWindow a 0x1000208 (fun s => (s.wr Reg.SQT_ENT_OP_CODE 2).entDrop) s)
/-- DROP_FEN. -/
def execDropFen (a : Access) (s : State) : Host.Outcome State Fault Refusal :=
  .next (State.attWindow a 0x1000208 (fun s => (s.wr Reg.SQT_ENT_OP_CODE 3).entDropFen) s)

end Sys2Proof.Machine
end

