-- ==== Sys2Proof/Machine/Attention.lean ====
section
/-!
DEFINITION. Attention assist (chapter 07): arena operations, APPEND, and STEP messages with their records.
Marks: DEDUCED 28, 29, in notes/assumptions.
-/
namespace Sys2Proof.Machine

/-! Arena operations (R254). -/

/-- End an arena operation. -/
def State.arEnd (s : State) (st : Nat) : State := s.setEnd Reg.ATT_AR_STATUS_STATUS Reg.ATT_AR_STATUS_DONE st

/-- ATT_SHAPE0 and ATT_SHAPE1 as words (R255). -/
def State.shapeWords (s : State) (fen : Nat) : Nat × Nat :=
  let r := fun (f : Fld) => s.rd f fen
  (r Reg.ATT_SHAPE0_LAYERS + 2 ^ 8 * r Reg.ATT_SHAPE0_HQ + 2 ^ 16 * r Reg.ATT_SHAPE0_HKV + 2 ^ 24 * r Reg.ATT_SHAPE0_DCODE +
     2 ^ 26 * r Reg.ATT_SHAPE0_KFMT,
   r Reg.ATT_SHAPE1_PB + 2 ^ 8 * r Reg.ATT_SHAPE1_TOPN + 2 ^ 16 * r Reg.ATT_SHAPE1_WB)

/-- Whether the extent at a local address begins with a valid prefix image of the fen's shape (R238). -/
def State.prefixImage (s : State) (fen a : Nat) : Bool :=
  let b := s.readAt a 64
  let (w0, w1) := s.shapeWords fen
  slice b 0 4 == ascii "KNWP" && fld b 4 2 == 0x0100 && fld b 8 4 == w0 && fld b 12 4 == w1

/-- ATT_AR READ. -/
def State.arRead (s : State) : State :=
  match Tab.find? s.att.arenas (s.rd Reg.ATT_AR_INDEX_ARENA) with
  | none =>
    ((((((s.wr Reg.ATT_AR_DATA0_FEN 0).wr Reg.ATT_AR_DATA0_VALID 0).wr Reg.ATT_AR_DATA0_KIND 0).wr Reg.ATT_AR_DATA1 0).wr
      Reg.ATT_AR_DATA2 0).wr Reg.ATT_AR_DATA3_PAGES 0).wr Reg.ATT_AR_DATA4_FREE 0 |>.arEnd stOK
  | some a =>
    ((((((s.wr Reg.ATT_AR_DATA0_FEN a.fen).wr Reg.ATT_AR_DATA0_VALID 1).wr Reg.ATT_AR_DATA0_KIND a.kind).wr Reg.ATT_AR_DATA1
      (a.addr % 2 ^ 32)).wr Reg.ATT_AR_DATA2 (a.addr / 2 ^ 32)).wr Reg.ATT_AR_DATA3_PAGES a.pages).wr
      Reg.ATT_AR_DATA4_FREE a.nfree |>.arEnd stOK

/-- ATT_AR REGISTER: an extent becomes a POOL or PREFIX arena (R227, R231, R254). -/
def State.arRegister (s : State) : State :=
  let n := s.rd Reg.ATT_AR_INDEX_ARENA
  let f := s.rd Reg.ATT_AR_DATA0_FEN
  let kind := s.rd Reg.ATT_AR_DATA0_KIND
  let addr := s.rd Reg.ATT_AR_DATA1 + 2 ^ 32 * (s.rd Reg.ATT_AR_DATA2 % 2 ^ 14)
  let h := s.shape f
  if s.on Reg.ATT_AR_OP_BUSY || Tab.has s.att.arenas n then s.arEnd stRETRY
  else match s.extAt addr with
    | none => s.arEnd stRANGE
    | some (i, e) =>
      let ok := decide (e.lo = addr) && e.fen == f && e.region == s.kvRegion f && e.tier != tierHOST &&
        (if kind = 0 then e.state == exRESIDENT && !e.pfx else e.pfx) && s.hasShape f && (kind == 0 || s.prefixImage f addr)
      if !ok then s.arEnd stRANGE
      else if 1024 ≤ s.att.arenas.length then s.arEnd stNO_RESOURCE
      else
        let bytes := e.length * unitBytes
        let pages := if kind = 0 then min (bytes / h.pageBytes) 1048575
          else min (ceilDiv (s.imageTokens addr) h.pageTokens * h.hkv) ((bytes - 65536) / h.pageBytes)
        let s := s.upAtt fun b => { b with
          arenas := Tab.put b.arenas n { fen := f, kind := kind, addr := addr, ext := i, pages := pages } }
        let s := if kind = 0 && pages != 0 then s.wr Reg.ATT_AR_OP_BUSY 1 else s
        (s.syncPages f).arEnd stOK

/-- ATT_AR UNREGISTER (R239, R254). -/
def State.arUnregister (s : State) : State :=
  let n := s.rd Reg.ATT_AR_INDEX_ARENA
  if s.on Reg.ATT_AR_OP_BUSY then s.arEnd stRETRY
  else match Tab.find? s.att.arenas n with
    | none => s.arEnd stOK
    | some a =>
      if !a.held.isEmpty || (a.kind == 1 && (s.ext a.ext).refs != 0) then s.arEnd stRETRY
      else ((s.upAtt fun b => { b with arenas := Tab.del b.arenas n }).syncPages a.fen).arEnd stOK

/-! Local pieces. -/

/-- A local range inside one extent, as a segment. -/
def State.localSeg (s : State) (a n : Nat) : List Seg :=
  match s.extAt a with
  | some (i, e) => [{ tier := e.tier, at_ := e.at_ a, len := n, ext := i }]
  | none => []

/-- The local address of a segment. -/
def State.segLocal (s : State) (g : Seg) : Nat :=
  let e := s.ext g.ext
  e.lo + (g.at_ - locByte e.tier e.loc)

/-! APPEND (R237). -/

/-- POS and N of an APPEND. -/
def Cmd.appPos (c : Cmd) : Nat := fld c.desc 72 4
def Cmd.appN (c : Cmd) : Nat := fld c.desc 80 4
def Cmd.appTarget (c : Cmd) : Bool := bit c.p0 63
def Cmd.appSeq (c : Cmd) : Nat := c.p0 % 2 ^ 18

/-- Prefix tokens and prefix pages of an APPEND's target. -/
def State.appBase (s : State) (c : Cmd) : Nat × Nat :=
  if c.appTarget then (0, 0) else let e := s.seq c.fen c.appSeq; (e.p, e.pp)

/-- First token, and number of tokens, of chunk `k` of an APPEND: chunks end where (POS + i) - P is a multiple of 64. -/
def Cmd.appChunk (c : Cmd) (p k : Nat) : Nat × Nat :=
  let o := (c.appPos - p) % 64
  let start := 64 * k - (if k = 0 then 0 else o)
  (start, min (c.appN - start) (64 - (if k = 0 then o else 0)))

/-- Chunks of an APPEND. -/
def Cmd.appChunks (c : Cmd) (p : Nat) : Nat := ceilDiv ((c.appPos - p) % 64 + c.appN) 64

/-- The local address of the page, for head `h`, with directory page number `i`, of an APPEND's target. -/
def State.appPage (s : State) (c : Cmd) (i h : Nat) : Option Nat :=
  let sh := s.shape c.fen
  if c.appTarget then
    match (c.segsOf 0).head? with
    | none => none
    | some g =>
      let e := s.ext g.ext
      let o := 65536 + (i * sh.hkv + h) * sh.pageBytes
      if o + sh.pageBytes ≤ e.length * unitBytes then some (e.lo + o) else none
  else (s.pageOf c.fen (s.dirRead c.fen c.appSeq (i * sh.hkv + h))).map (·.2)

/-- The slices, by layer and head, of the tokens of source data: entry (layer, head) lists one slice a token. -/
def Shape.slicesOf (h : Shape) (d : Bytes) (n l k : Nat) : List Bytes :=
  (List.range n).map fun j => slice d (j * h.tokenBytes + (l * h.hkv + k) * h.sliceBytes) h.sliceBytes

/-- Every (layer, head) of a shape. -/
def Shape.cells (h : Shape) : List (Nat × Nat) :=
  ((List.range h.l).map fun l => (List.range h.hkv).map fun k => (l, k)).flatten

/-- APPEND: chunk `k` of command `cid`, running on a cluster, reads its tokens and has its pages (R230, R237). -/
def append (cid k : Nat) (s : State) : State :=
  match s.runningChunk cid k with
  | none => s
  | some (c, x, _) =>
    if c.opcode ≠ 0x28 || c.src ≠ 0 then s
    else if x.timedOut then s.finish cid stTIMEOUT
    else
      let h := s.shape c.fen
      let (p, pp) := s.appBase c
      let (start, n) := c.appChunk p k
      let pos := c.appPos + start
      let (_, b, pg) := h.place p pp pos
      let src := c.pieces 1 (start * h.tokenBytes) (n * h.tokenBytes)
      match s.readFault src with
      | some st => s.readFailed cid k st src fun st s => s.finish cid st
      | none =>
        let d := s.readPieces src
        if h.cells.any fun (l, hd) => (h.slicesOf d n l hd).any fun b => (h.sliceBad b).isSome then s.finish cid stMALFORMED
        else
          let (s, ok) := if !c.appTarget && h.needsPage (s.seq c.fen c.appSeq) pos then s.acquire c.fen c.appSeq
            else (s, !c.appTarget || (List.range h.hkv).all fun hd => (s.appPage c pg hd).isSome)
          if !ok then s.finish cid stNO_RESOURCE
          else
            let tgt := (h.cells.map fun (l, hd) => match s.appPage c pg hd with
              | some a => s.localSeg (a + h.summaryAt l (b % h.pb)) h.summaryBytes ++
                  s.localSeg (a + h.blockAt l (b % h.pb)) h.blockBytes
              | none => []).flatten
            match s.readFault tgt with
            | some st => s.readFailed cid k st tgt fun st s => s.finish cid st
            | none => s.stage cid k fun x => { x with writes := [{ data := d }] }

/-- Commit a staged chunk of an APPEND: its tokens by R236, their summaries and the new length, as a unit (R237). -/
def State.appendCommit (s : State) (cid k : Nat) (c : Cmd) (x : Chunk) : State :=
  let h := s.shape c.fen
  let (p, pp) := s.appBase c
  let (start, n) := c.appChunk p k
  let pos := c.appPos + start
  let (slot, b, pg) := h.place p pp pos
  let d := (x.writes.head?.map (·.data)).getD []
  let cells := h.cells.map fun (l, hd) => (l, hd, s.appPage c pg hd)
  let good := cells.all fun (l, _, a) => match a with
    | some a => appendOk (s.blockCount h (a + h.summaryAt l (b % h.pb))) slot
    | none => false
  if !good then s.finish cid stRANGE
  else
    let s := cells.foldl (fun s (l, hd, a) => match a with
      | some a => s.putSlices h a l (b % h.pb) slot (pos - slot) (h.slicesOf d n l hd)
      | none => s) s
    let len := pos + n
    let s := if c.appTarget then
        (match (c.segsOf 0).head? with
          | some g => s.writeBytes ((s.ext g.ext).lo + 16) (leBytes 4 len)
          | none => s)
      else s.upSeq c.fen c.appSeq fun e => { e with length := len }
    let s := s.upCid cid fun c => { c with committed := k + 1, result := len, chunks := Tab.del c.chunks k }
    if k + 1 < c.nchunks then s else s.finish cid stOK

/-! STEP messages (R240–R242). -/

/-- Fields of the step selector (R240). -/
def Packet.sPkt (p : Packet) : Nat := p.localAddr % 2 ^ 20
def Packet.sGroup (p : Packet) : Nat := bits p.localAddr 20 12
def Packet.sLayer (p : Packet) : Nat := bits p.localAddr 32 7
def Packet.sLast (p : Packet) : Bool := bit p.localAddr 39

/-- The request's packet 0 as responses echo it: LAST clear (R244). -/
def Packet.stepEcho (p : Packet) : Packet := { p with addr := setBits p.addr 39 1 0 }

/-- The first header field of a STEP packet that fails (R242 step 1); `layers` is 0 where the fen has no shape. -/
def stepFieldBad (att : Bool) (layers : Nat) (p : Packet) : Option Nat :=
  firstBad
    [(0, p.dst != 0xF000 + p.home), (4, !att), (5, bit p.flags 7),
     (6, p.len % 64 != 0 || p.len == 0 || decide (4096 < p.len) || (!p.sLast && p.len != 4096)),
     (16, decide (2 ^ 58 ≤ p.addr) || bits p.localAddr 40 6 != 0 || (layers != 0 && decide (layers ≤ p.sLayer))),
     (24, decide (2 ^ 20 ≤ p.flow)), (27, p.status != 0)]

/-- Bring ATT_STAT.MSGS in line. -/
def State.syncMsgs (s : State) : State := s.wr Reg.ATT_STAT_MSGS s.att.msgs.length

/-- A held message. -/
def State.msg (s : State) (mid : Nat) : Option StepMsg := Tab.find? s.att.msgs mid

/-- Change a held message. -/
def State.upMsg (s : State) (mid : Nat) (f : StepMsg → StepMsg) : State :=
  s.upAtt fun b => { b with msgs := Tab.upd b.msgs mid f }

/-- The records in progress of a message. -/
def State.recordsOf (s : State) (mid : Nat) : List Nat :=
  s.cmd.cmds.filterMap fun c => if c.2.src = 2 && c.2.vals.getD 0 0 == mid then some c.1 else none

/-- Answer a STEP with a status packet (R242, R244). -/
def State.stepStatus (s : State) (p : Packet) (st low : Nat) : State :=
  let s := if st = stMALFORMED then s.bump Reg.ATT_CNT_REC_MALF else s
  s.answer connHE0 (gatherStatus (if s.hasAtt then p.stepEcho else p) st low)

/-- Drop a message, with its records in progress. -/
def State.dropMsg (s : State) (mid : Nat) : State :=
  let s := (s.recordsOf mid).foldl (fun s c => s.endWork c) s
  (s.upAtt fun b => { b with msgs := Tab.del b.msgs mid }).syncMsgs

/-- End a message with a status packet; its other packets are not answered again. -/
def State.failMsg (s : State) (mid st low : Nat) : State :=
  match s.msg mid with
  | none => s
  | some m =>
    let s := s.dropMsg mid
    let s := if m.last.isSome || st == stRETRY then s else s.upAtt fun b => { b with gone := b.gone ++ [(m.src, m.seq, s.hclk)] }
    s.stepStatus m.first st low

/-- Kill a STEP record: its message ends with the status (R87, R298). -/
def State.killRecord (s : State) (cid st : Nat) : State :=
  match s.cmdOf cid with
  | none => s
  | some c => s.failMsg (c.vals.getD 0 0) st 0

/-- Stream bytes that have arrived without a gap (R240). -/
def StepMsg.contig (m : StepMsg) : Bytes :=
  ((m.parts.zipIdx.takeWhile fun (e, i) => e.1 == i).map fun e => e.1.2).flatten

/-- Whether packets 0 to LAST have all arrived. -/
def StepMsg.complete (m : StepMsg) : Bool :=
  match m.last with
  | some n => m.parts.length == n + 1 && m.parts.all fun e => decide (e.1 ≤ n)
  | none => false

/-- The data packet `n` of a response (R244). -/
def stepData (p : Packet) (n : Nat) (last : Bool) (d : Bytes) : Packet := gatherData p.stepEcho stOK n false last d

/-- Send the response packets that are whole, and end the message when every record has been answered (R244). -/
def State.flushMsg (s : State) (mid : Nat) : State :=
  match s.msg mid with
  | none => s
  | some m =>
    let ready := (m.results.zipIdx.takeWhile fun (e, i) => e.1 == m.joined + i).map fun e => e.1.2
    let m := { m with joined := m.joined + ready.length, carry := m.carry ++ ready.flatten
                      results := m.results.drop ready.length }
    let allIn := m.complete && m.off == (m.parts.map fun e => e.2.length).sum
    let fin := m.ending.isNone && allIn && m.joined == m.recs
    let full := if fin then ceilDiv m.carry.length 4096 else (m.carry.length - 1) / 4096
    let s := (List.range full).foldl (fun s i =>
      s.send connHE0 (stepData m.first (m.pkt + i) (fin && i + 1 == full) ((m.carry.drop (4096 * i)).take 4096))) s
    let m := { m with carry := m.carry.drop (4096 * full), pkt := m.pkt + full }
    if fin then (((s.dropMsg mid).bump Reg.ATT_CNT_MSG).sweepFences)
    else
      let s := s.upMsg mid fun _ => m
      match m.ending with
      | some st => if m.joined == m.recs then s.failMsg mid st 0 else s
      | none => s

/-! Records (R241, R243, R269). -/

/-- FLAGS bits of a request record. -/
def recAppend (r : Bytes) : Bool := bit (fld r 4 1) 0
def recBf16 (r : Bytes) : Bool := bit (fld r 4 1) 1

/-- Bytes of a record (R241). -/
def Shape.recBytes (h : Shape) (app : Bool) : Nat :=
  roundUp (64 + 2 * h.d * h.hq + (if app then h.hkv * h.sliceBytes else 0)) 64

/-- The offset of the first failing field of a record (R243 order 1). -/
def Shape.recBad (h : Shape) (r : Bytes) : Option Nat :=
  let app := recAppend r
  let q := (List.range (h.d * h.hq)).find? fun i => bits (fld r (64 + 2 * i) 2) 7 8 == 255
  let new0 := 64 + 2 * h.d * h.hq
  let slc := if app then (List.range h.hkv).filterMap fun k =>
      (h.sliceBad (slice r (new0 + k * h.sliceBytes) h.sliceBytes)).map fun o => new0 + k * h.sliceBytes + o
    else []
  let end_ := new0 + (if app then h.hkv * h.sliceBytes else 0)
  let pad := (List.range (h.recBytes app - end_)).find? fun i => fld r (end_ + i) 1 != 0
  match firstBad ([(0, decide (2 ^ 18 ≤ fld r 0 4)), (4, decide (4 ≤ fld r 4 1))] ++
      ((List.range 3).map fun i => (5 + i, fld r (5 + i) 1 != 0)) ++ [(8, !app && fld r 8 4 != 0)] ++
      ((List.range 48).map fun i => (16 + i, fld r (16 + i) 1 != 0))) with
  | some o => some o
  | none => match q with
    | some i => some (64 + 2 * i)
    | none => match slc.head? with
      | some o => some o
      | none => pad.map (end_ + ·)

/-- A response record that ends after its header (R244). -/
def recHeader (r : Bytes) (st : Nat) (appended : Bool) (skipped tokens selected malf : Nat) : Bytes :=
  leBytes 4 (fld r 0 4) ++ leBytes 1 st ++ leBytes 1 (b2n (recBf16 r) + 2 * b2n appended) ++ leBytes 2 skipped ++
  leBytes 4 tokens ++ leBytes 2 selected ++ leBytes 2 0 ++ leBytes 4 malf ++ leBytes 44 0

/-- Enter a record's status in its sequence's entry (R269). -/
def State.noteRecord (s : State) (fen i st : Nat) : State :=
  let e := s.seq fen i
  if !e.inwl then s
  else if st = stOK ∨ st = stDEGRADED then s.upSeq fen i fun e => { e with served := satAdd e.served 1 0xFFFFFFFF }
  else if st = stNO_RESOURCE && !e.noresCounted then
    s.upSeq fen i fun e => { e with noresSteps := satAdd e.noresSteps 1 0xFFFF, noresCounted := true }
  else s

/-- Count an answered record (R253). -/
def State.countRecord (s : State) (st skipped : Nat) : State :=
  let s := (s.bump Reg.ATT_CNT_REC).bump Reg.ATT_CNT_SKIPPED 0 0 skipped
  if st = stDEGRADED then s.bump Reg.ATT_CNT_DEGRADED
  else if st = stMALFORMED then s.bump Reg.ATT_CNT_REC_MALF
  else if st = stTIMEOUT then s.bump Reg.ATT_CNT_REC_TIMEOUT
  else if st = stCHECK_FAIL then s.bump Reg.ATT_CNT_CHK_FAIL
  else s

/-- Put record `n`'s response into its message. -/
def State.putResult (s : State) (mid n : Nat) (d : Bytes) : State :=
  s.upMsg mid fun m => { m with results := Tab.put m.results n d }

/-- Answer a record that fails before its work begins. -/
def State.refuseRecord (s : State) (mid n fen : Nat) (r : Bytes) (st malf : Nat) : State :=
  ((s.putResult mid n (recHeader r st false 0 0 0 malf)).countRecord st 0).noteRecord fen (fld r 0 4 % 2 ^ 18) st

/-- Status of a record by R243 orders 1 to 4, R236 apart. -/
def State.recStatus (s : State) (m : StepMsg) (r : Bytes) : Nat × Nat :=
  let h := s.shape m.fen
  match h.recBad r with
  | some o => (stMALFORMED, o)
  | none =>
    let i := fld r 0 4
    let e := s.seq m.fen i
    if s.seqEntries m.fen ≤ i ||
        (recAppend r && !rightsCover (s.rights (s.rgn (s.kvRegion m.fen)) m.clid m.fen) rtW) then (stKEY_DENIED, 0)
    else if e.state = sqFREE || e.state = sqPREFIX || e.group != m.group || !e.inwl then (stRANGE, 0)
    else if recAppend r && fld r 8 4 != e.length then (stRANGE, 0)
    else if e.nores then (stNO_RESOURCE, 0)
    else (stOK, 0)

/-- The pages of a sequence as segments: reference i × HKV + h is page i of head h (R228). -/
def State.pageSegs (s : State) (fen i : Nat) : List Seg :=
  let h := s.shape fen
  let e := s.seq fen i
  (List.range ((e.pp + e.ownPages) * h.hkv)).filterMap fun k =>
    (s.pageOf fen (s.dirRead fen i k)).map fun (x, a) =>
      let t := s.ext x
      { ref := k, tier := t.tier, at_ := t.at_ a, len := h.pageBytes, ext := x }

/-- Begin a record of a message: it is refused, or its work joins the fen's chunks (R33, R96, R251, R300). -/
def State.beginRecord (s : State) (mid : Nat) (m : StepMsg) (n : Nat) (r : Bytes) : State :=
  let (st, o) := s.recStatus m r
  let i := fld r 0 4 % 2 ^ 18
  if st ≠ stOK then s.refuseRecord mid n m.fen r st o
  else
    let e := s.seq m.fen i
    let segs := s.pageSegs m.fen i
    let rs := (segs.map (·.ext)).eraseDups
    match s.raiseRefs rs [] with
    | none => s.refuseRecord mid n m.fen r stRETRY 0
    | some s =>
      let ds := (List.range 8).filter fun d => d == i % 8 || segs.any fun g => dieAt g.tier g.at_ == d
      (s.addCmd { src := 2, pkt := m.first, pair := m.clid * 4 + m.cls, fen := m.fen, clid := m.clid, cls := m.cls, desc := r
                  segs := segs, rrefs := rs, phase := .ready, base := 0, nchunks := ds.length, dies := ds
                  acceptedAt := s.hclk, readyAt := s.hclk, vals := [mid, n, i, e.p, e.pp, m.layer] }).1

/-- Begin the records of a message whose bytes have all arrived, while its step is open (R243, R264); a record cut short
by the stream's end, or beyond the 16,384th, is MALFORMED. -/
def State.feedN : Nat → State → Nat → State
  | 0, s, _ => s
  | fuel + 1, s, mid =>
    match s.msg mid with
    | none => s
    | some m =>
      let b := (m.contig).drop m.off
      let h := s.shape m.fen
      let need := h.recBytes (recAppend b)
      let g := s.grp m.group
      if m.ending.isSome || !g.isOpen || g.cur != m.step || b.isEmpty then s
      else if m.complete && (decide (16384 ≤ m.recs) || decide (b.length < need)) then
        (s.upMsg mid fun m => { m with off := m.off + b.length, recs := m.recs + 1 }).refuseRecord mid m.recs m.fen (slice b 0 64)
          stMALFORMED (if 16384 ≤ m.recs then 0 else b.length)
      else if 16384 ≤ m.recs || b.length < need then s
      else
        let s := s.upMsg mid fun m => { m with off := m.off + need, recs := m.recs + 1 }
        State.feedN fuel (s.beginRecord mid m m.recs (b.take need)) mid

/-- Begin what can begin of a message, and send what is ready. -/
def State.feedMsg (s : State) (mid : Nat) : State := (State.feedN 16386 s mid).flushMsg mid

/-- Whether a message of a group passes R242's step 4: served, or an opening one (R263). -/
def State.stepOpens (s : State) (p : Packet) : Option Bool :=
  let g := s.grp p.sGroup
  if g.isOpen && p.arg == g.cur then some false
  else if p.sLayer == 0 && (!g.isOpen || p.arg == (g.cur + 1) % 2 ^ 32) then some true
  else none

/-- STEP: the packet at the head of MH's queue is checked and joins its message (R242, R263, R264). -/
def step_ (s : State) : State :=
  match s.takeHome .step with
  | none => s
  | some (q, s) =>
    let p := q.pkt
    let (clid, fen) := s.who q
    let held := Tab.findVal? s.att.msgs fun m => m.src == p.src && m.seq == p.seq
    if p.retx && held.isSome then s.bump Reg.ATT_CNT_MSG_DUP
    else
      let live := fun (g : Nat × Nat × Nat) => decide (s.hclk - g.2.2 ≤ s.timeoutHclk) && !(p.retx && g.1 == p.src && g.2.1 == p.seq)
      let s := s.upAtt fun b => { b with gone := b.gone.filter live }
      if s.att.gone.any fun g => g.1 == p.src && g.2.1 == p.seq then s
      else
        let fail := fun (s : State) (st low : Nat) => match held with
          | some (mid, _) => s.failMsg mid st low
          | none =>
            let s := if (p.sLast && p.sPkt == 0) || st == stRETRY then s
              else s.upAtt fun b => { b with gone := b.gone ++ [(p.src, p.seq, s.hclk)] }
            s.stepStatus p st low
        let layers := if s.hasShape fen then (s.shape fen).l else 0
        match stepFieldBad s.hasAtt layers p with
        | some o => fail s stMALFORMED o
        | none =>
          if s.fenQuiet fen then fail s stRETRY 0
          else
            let rg := s.kvRegion fen
            let st := if p.region != rg || decide (64 ≤ fen) then stKEY_DENIED
              else s.regionCheck clid fen p.region p.key (rtR + rtC) ((s.rgn rg).base * unitBytes) 0
            if st ≠ stOK then fail s st 0
            else if layers = 0 || (s.fenClusters fen).isEmpty then fail s stNO_RESOURCE 0
            else if !s.ownsGroup fen p.sGroup then fail s stRANGE 0
            else match s.stepOpens p with
              | none => fail (s.bump Reg.SQT_CNT_STALE) stRANGE 0
              | some opens =>
                match held with
                | some (mid, m) =>
                  if m.group != p.sGroup || m.layer != p.sLayer || m.step != p.arg then fail s stMALFORMED 16
                  else
                    (s.upMsg mid fun m => { m with
                      first := if p.sPkt = 0 then p else m.first
                      parts := Tab.put m.parts p.sPkt p.payload
                      last := if p.sLast then some p.sPkt else m.last }).feedMsg mid
                | none =>
                  if 256 ≤ s.att.msgs.length then (s.bump Reg.ATT_CNT_MSG_BUSY).stepStatus p stRETRY 0
                  else
                    let mid := s.att.nextMsg
                    let m : StepMsg := { src := p.src, seq := p.seq, clid := clid, fen := fen, cls := p.cls, group := p.sGroup
                                         layer := p.sLayer, step := p.arg, first := p, parts := [(p.sPkt, p.payload)]
                                         last := if p.sLast then some p.sPkt else none, start := s.hclk }
                    let s := (s.upAtt fun b => { b with msgs := Tab.put b.msgs mid m, nextMsg := mid + 1 }).syncMsgs
                    let s := if opens && !s.sqt.opens.any (fun o => o.1 == p.sGroup && o.2.1 == p.arg) then
                        (s.upSqt fun b => { b with opens := b.opens ++ [(p.sGroup, p.arg, s.tnow)] }).wr Reg.SQT_STAT_OPENING 1
                      else s
                    s.feedMsg mid

/-- STEP_MSG_TIMEOUT: a message still incomplete TIMEOUT_NS after its first packet is dropped without an answer (R242). -/
def stepMsgTimeout (mid : Nat) (s : State) : State :=
  match s.msg mid with
  | none => s
  | some m =>
    if m.complete || decide (s.hclk - m.start < s.timeoutHclk) then s
    else (s.dropMsg mid).bump Reg.ATT_CNT_MSG_INCOMPLETE

/-- STEP_OPEN: the oldest open is performed; messages of the old step end, those of the new one begin (R263, R264). -/
def stepOpen (s : State) : State :=
  match s.sqt.opens with
  | [] => s
  | (g, n, time) :: rest =>
    let b := s.grp g
    let due := !b.isOpen || n == (b.cur + 1) % 2 ^ 32
    let s := match s.groupFen g with
      | some f => if due then s.openStep f g n time else s
      | none => s
    let s := s.upSqt fun b => { b with opens := rest }
    let s := if rest.isEmpty then s.wr Reg.SQT_STAT_OPENING 0 else s
    let ms := s.att.msgs.filter fun m => m.2.group == g
    ms.foldl (fun s (mid, m) =>
      if m.step = (s.grp g).cur then s.feedMsg mid
      else if m.complete && m.off == (m.parts.map fun e => e.2.length).sum || m.ending.isSome then s
      else ((s.bump Reg.SQT_CNT_STALE).upMsg mid fun m => { m with ending := some stRANGE }).flushMsg mid) s

/-! Record work (R245–R250). -/

/-- A block of one KV head with COUNT above 0: its index, its page, its number in the page, its COUNT. -/
structure KvBlock where
  idx : Nat
  seg : Seg
  b : Nat
  count : Nat
  deriving DecidableEq, Repr

/-- Read bytes at an offset of a page. -/
def State.pageRead (s : State) (g : Seg) (o n : Nat) : Bytes := s.readTier g.tier (g.at_ + o) n

/-- The non-empty blocks of a KV head in a layer, in ascending index (R246). -/
def State.blocksOf (s : State) (h : Shape) (c : Cmd) (l hd : Nat) : List KvBlock :=
  ((c.segs.filter fun g => g.ref % h.hkv == hd).map fun g => (List.range h.pb).filterMap fun b =>
    let n := min 64 (leNat (s.pageRead g (h.summaryAt l b + 2 * h.d + 16) 2))
    if n = 0 then none else some ({ idx := g.ref / h.hkv * h.pb + b, seg := g, b := b, count := n } : KvBlock)).flatten

/-- Query heads of a KV head (R226). -/
def Shape.heads (h : Shape) (hd : Nat) : List Nat := (List.range h.hq).filter fun j => j * h.hkv / h.hq == hd

/-- A query head's elements. -/
def Shape.query (h : Shape) (r : Bytes) (j : Nat) : List Num :=
  (List.range h.d).map fun i => decodeNum tyBF16 (fld r (64 + 2 * (h.d * j + i)) 2)

/-- Score of a block for a KV head: the largest bound over its query heads (R245). -/
def State.blockScore (s : State) (h : Shape) (l : Nat) (qs : List (List Num)) (k : KvBlock) : Int :=
  let o := h.summaryAt l k.b
  let mn := boundVals (s.pageRead k.seg o h.d) (s.pageRead k.seg (o + 2 * h.d) (h.d / 32))
  let mx := boundVals (s.pageRead k.seg (o + h.d) h.d) (s.pageRead k.seg (o + 2 * h.d + 8) (h.d / 32))
  f32Rank (f32Max (qs.map fun q => boundOf q mn mx))

/-- Put a scored block in order: score descending, then index ascending. -/
def insertScored (x : Int × KvBlock) : List (Int × KvBlock) → List (Int × KvBlock)
  | [] => [x]
  | y :: t => if y.1 < x.1 || (y.1 == x.1 && decide (x.2.idx < y.2.idx)) then x :: y :: t else y :: insertScored x t

/-- The blocks a KV head selects (R246). -/
def State.selectBlocks (s : State) (h : Shape) (l : Nat) (qs : List (List Num)) (nb : List KvBlock) : List KvBlock :=
  let cut := nb.length - h.wb
  let scored := (nb.take cut).foldl (fun acc b => insertScored (s.blockScore h l qs b, b) acc) []
  nb.drop cut ++ (scored.take h.topn).map (·.2)

/-- The key by which TRAY_READ_DEADLINE names a block of a record: page reference × 64 + number in its page. -/
def KvBlock.key (k : KvBlock) : Nat := k.seg.ref * 64 + k.b

/-- The terms of a selected block for a query head: its tokens, or its centroid when it is late (R247, R249). -/
def State.blockTerms (s : State) (h : Shape) (l : Nat) (q : List Num) (late : Bool) (k : KvBlock) : List SoftTerm :=
  let ty := kvType h.kfmt
  if late then
    let o := h.summaryAt l k.b
    let mean := fun (at_ : Nat) => (List.range h.d).map fun i => decodeNum tyBF16 (leNat (s.pageRead k.seg (at_ + 2 * i) 2))
    [{ z := logit h.scale q (mean (o + 2 * h.d + 64)), count := k.count, v := mean (o + 4 * h.d + 64) }]
  else
    let o := h.blockAt l k.b
    let g := h.d / 32
    (List.range k.count).map fun t =>
      { z := logit h.scale q (kvDecode ty (s.pageRead k.seg (o + h.d * t) h.d) (s.pageRead k.seg (o + 128 * h.d + g * t) g))
        v := kvDecode ty (s.pageRead k.seg (o + 64 * h.d + h.d * t) h.d) (s.pageRead k.seg (o + 130 * h.d + g * t) g) }

/-- The result of one query head over the selected blocks of its KV head (R247, R248). -/
def State.headResult (s : State) (h : Shape) (l : Nat) (bf16 : Bool) (q : List Num) (sel : List (KvBlock × Bool)) : Partial :=
  let parts := (List.range 8).filterMap fun d =>
    let ts := ((sel.filter fun k => dieAt k.1.seg.tier k.1.seg.at_ == d).map fun k => s.blockTerms h l q k.2 k.1).flatten
    if ts.isEmpty then none else some (softPartial h.d ts)
  softMerge h.d bf16 parts

/-- Append the record's new slices (R236, R243, R267): the state, the status (OK, or RANGE) and whether it did. -/
def State.recordAppend (s : State) (c : Cmd) (h : Shape) (l : Nat) : State × Nat × Bool :=
  let r := c.desc
  if !recAppend r then (s, stOK, false)
  else
    let i := c.vals.getD 2 0
    let pos := fld r 8 4
    let (slot, b, pg) := h.place (c.vals.getD 3 0) (c.vals.getD 4 0) pos
    let segs := (List.range h.hkv).map fun hd => c.segs.find? fun g => g.ref == pg * h.hkv + hd
    if segs.any fun g => g.isNone then (s, stRANGE, false)
    else
      let segs := segs.filterMap id
      if segs.any fun g => s.deadAt g.tier g.at_ then (s, stOK, false)
      else
        let counts := segs.map fun g => s.blockCount h (s.segLocal g + h.summaryAt l (b % h.pb))
        if !counts.all fun n => appendOk n slot then (s, stRANGE, false)
        else
          let o := 64 + 2 * h.d * h.hq
          let s := segs.zipIdx.foldl (fun s (g, hd) =>
            s.putSlices h (s.segLocal g) l (b % h.pb) slot (pos - slot) [slice r (o + hd * h.sliceBytes) h.sliceBytes]) s
          let e := s.seq c.fen i
          let new := e.inwl && e.length == pos && counts.all fun n => n == slot
          (if new then s.upSeq c.fen i fun e => { e with layersDone := e.layersDone + 1 } else s, stOK, true)

/-- Ranges of the pages that a record's append and attention read: summaries of every block, and the blocks selected. -/
def recordReads (h : Shape) (l : Nat) (c : Cmd) (sel : List (KvBlock × Bool)) : List Seg :=
  (c.segs.map fun g => (List.range h.pb).map fun b => { g with at_ := g.at_ + h.summaryAt l b, len := 2 * h.d + 64 }).flatten ++
  sel.map fun (k, late) =>
    if late then { k.seg with at_ := k.seg.at_ + h.summaryAt l k.b, len := h.summaryBytes }
    else { k.seg with at_ := k.seg.at_ + h.blockAt l k.b, len := h.blockBytes }

/-- Answer a record whose work has ended. -/
def State.answerRecord (s : State) (cid : Nat) (c : Cmd) (st skipped : Nat) (d : Bytes) : State :=
  let mid := c.vals.getD 0 0
  let s := (s.endWork cid).putResult mid (c.vals.getD 1 0) d
  ((s.countRecord st skipped).noteRecord c.fen (c.vals.getD 2 0) st).feedMsg mid

/-- Run a record's die work again after a bad read, once (R250): the state, and whether it had run again before. -/
def State.recordRerun (s : State) (cid : Nat) (c : Cmd) (bad : Seg) : State × Bool :=
  let s := s.noteBadPieces [bad]
  let k := (c.dies.findIdx? fun d => d == dieAt bad.tier bad.at_).getD 0
  match Tab.find? c.chunks k with
  | none => (s, true)
  | some x =>
    if x.fails = 0 then
      let ph := s.physOf x.cluster
      (((s.requeue cid k).upChunk cid k fun x => { x with fails := 1, avoid := some ph }).bump Reg.ATT_CNT_CHK_RERUN, false)
    else (s, true)

/-- The work of a record, when every die has done its part (R243, R245–R250). -/
def State.recordWork (s : State) (cid : Nat) (c : Cmd) : State :=
  let h := s.shape c.fen
  let l := c.vals.getD 5 0
  let r := c.desc
  let (s, st, app) := s.recordAppend c h l
  if st ≠ stOK then s.answerRecord cid c st 0 (recHeader r st app 0 0 0 0)
  else
    let lates := (c.chunks.map fun x => x.2.late).flatten
    let nb := (List.range h.hkv).map fun hd => s.blocksOf h c l hd
    let qs := (List.range h.hq).map (h.query r)
    let sel := nb.zipIdx.map fun (bs, hd) =>
      (s.selectBlocks h l ((h.heads hd).map fun j => qs.getD j []) bs).map fun k => (k, k.seg.tier == tierTRAY && lates.contains k.key)
    let skipped := (sel.map fun x => x.countP fun k => k.2).sum
    let selected := (sel.map (·.length)).sum
    let tokens := (((nb.head?).getD []).map (·.count)).sum
    let hdr := fun (st : Nat) => recHeader r st app skipped tokens selected 0
    let reads := recordReads h l c sel.flatten
    if c.segs.any fun g => s.deadAt g.tier g.at_ then s.answerRecord cid c stTARGET_DEAD skipped (hdr stTARGET_DEAD)
    else if c.chunks.any fun x => x.2.timedOut then s.answerRecord cid c stTIMEOUT skipped (hdr stTIMEOUT)
    else match reads.find? fun g => s.badRange g.tier g.at_ g.len with
      | some g =>
        let (s, again) := s.recordRerun cid c g
        if again then s.answerRecord cid c stCHECK_FAIL skipped (hdr stCHECK_FAIL) else s
      | none =>
        let st := if skipped = 0 then stOK else stDEGRADED
        let res := qs.zipIdx.map fun (q, j) => s.headResult h l (recBf16 r) q (sel.getD (j * h.hkv / h.hq) [])
        let w := if recBf16 r then 2 else 4
        s.answerRecord cid c st skipped
          (hdr st ++ (res.map fun x => leBytes 4 x.m).flatten ++ (res.map fun x => leBytes 4 x.l).flatten ++
            (res.map fun x => (x.u.map (leBytes w)).flatten).flatten)

/-- STEP_RECORD: the die chunk `k` of record `cid`, running on a cluster, does its part; the last one completes the record
(R33, R243). -/
def stepRecord (cid k : Nat) (s : State) : State :=
  match s.runningChunk cid k with
  | none => s
  | some (c, _, _) =>
    if c.src ≠ 2 then s
    else
      let s := s.stage cid k id
      match s.cmdOf cid with
      | none => s
      | some c =>
        if c.chunks.length = c.nchunks && c.chunks.all (fun x => x.2.phase == .staged) then s.recordWork cid c else s

/-- APPEND. -/
def execAppend (cid k : Nat) (s : State) : Host.Outcome State Fault Refusal := .next (append cid k s)
/-- STEP. -/
def execStep (s : State) : Host.Outcome State Fault Refusal := .next (step_ s)
/-- STEP_RECORD. -/
def execStepRecord (cid k : Nat) (s : State) : Host.Outcome State Fault Refusal := .next (stepRecord cid k s)
/-- STEP_MSG_TIMEOUT. -/
def execStepMsgTimeout (mid : Nat) (s : State) : Host.Outcome State Fault Refusal := .next (stepMsgTimeout mid s)
/-- STEP_OPEN. -/
def execStepOpen (s : State) : Host.Outcome State Fault Refusal := .next (stepOpen s)
/-- ARENA_READ. -/
def execArenaRead (a : Access) (s : State) : Host.Outcome State Fault Refusal :=
  .next (State.attWindow a 0x1200104 (fun s => (s.wr Reg.ATT_AR_OP_CODE 1).arRead) s)
/-- ARENA_REGISTER. -/
def execArenaRegister (a : Access) (s : State) : Host.Outcome State Fault Refusal :=
  .next (State.attWindow a 0x1200104 (fun s => (s.wr Reg.ATT_AR_OP_CODE 2).arRegister) s)
/-- ARENA_UNREGISTER. -/
def execArenaUnregister (a : Access) (s : State) : Host.Outcome State Fault Refusal :=
  .next (State.attWindow a 0x1200104 (fun s => (s.wr Reg.ATT_AR_OP_CODE 3).arUnregister) s)

end Sys2Proof.Machine
end

