-- ==== Sys2Proof/Machine/CkpCodec.lean ====
section
/-!
DEFINITION. The compressed block of chapter 10 (R321–R323): exponent histograms, prefix codes, blocks, and the arithmetic
of the parity (R332).
-/
namespace Sys2Proof.Machine

/-! Bit strings: bit n of an area is bit n mod 8 of byte n div 8 (R321). -/

/-- The value of at most eight bits, the first lowest. -/
def bitsNat : List Bool → Nat
  | [] => 0
  | b :: bs => b2n b + 2 * bitsNat bs

/-- Bytes that hold a bit string; `fuel` bounds the bytes. -/
def packBools : Nat → List Bool → Bytes
  | 0, _ => []
  | fuel + 1, bs => if bs.isEmpty then [] else BitVec.ofNat 8 (bitsNat (bs.take 8)) :: packBools fuel (bs.drop 8)

/-- The bits of a byte list. -/
def unpackBools (b : Bytes) : List Bool := (b.map fun x => (List.range 8).map fun i => bit x.toNat i).flatten

/-- A code of `len` bits, most significant first. -/
def codeBits (code len : Nat) : List Bool := (List.range len).map fun i => bit code (len - 1 - i)

/-! Code lengths (R322). -/

/-- A node of the code tree: its weight, its lowest symbol, and its leaves with their depths below it. -/
structure HuffNode where
  weight : Nat
  low : Nat
  leaves : List (Nat × Nat)
  deriving DecidableEq, Repr

/-- Order of removal: least weight, then lowest symbol. -/
def HuffNode.before (a b : HuffNode) : Bool := a.weight < b.weight || (a.weight == b.weight && decide (a.low < b.low))

/-- Insert a node in order of removal. -/
def insertNode (n : HuffNode) : List HuffNode → List HuffNode
  | [] => [n]
  | m :: l => if n.before m then n :: m :: l else m :: insertNode n l

/-- Join the two nodes removed first. -/
def joinNodes (a b : HuffNode) : HuffNode :=
  { weight := a.weight + b.weight, low := min a.low b.low, leaves := (a.leaves ++ b.leaves).map fun p => (p.1, p.2 + 1) }

/-- Merge until one node is left; `fuel` bounds the merges. -/
def mergeNodes : Nat → List HuffNode → List (Nat × Nat)
  | _, [] => []
  | _, [n] => if n.leaves.length = 1 then n.leaves.map fun p => (p.1, 1) else n.leaves
  | 0, _ => []
  | fuel + 1, a :: b :: l => mergeNodes fuel (insertNode (joinNodes a b) l)

/-- Count a symbol in a histogram. -/
def countSym (h : Tab Nat) (x : Nat) : Tab Nat := Tab.put h x (Tab.getD h x 0 + 1)

/-- The code lengths of a list of exponents, by symbol. -/
def huffLengths (es : List Nat) : Tab Nat :=
  let h := es.foldl countSym []
  sortBy (·.1) (mergeNodes 256 (h.foldl (fun l p => insertNode { weight := p.2, low := p.1, leaves := [(p.1, 0)] } l) []))

/-- Canonical codes: (symbol, length, code), ordered by length and then by value (R322). -/
def canonCodes (ls : Tab Nat) : List (Nat × Nat × Nat) :=
  let go := sortBy (fun (p : Nat × Nat) => p.2 * 256 + p.1) (ls.filter fun p => p.2 != 0)
  (go.foldl (fun (acc : List (Nat × Nat × Nat) × Nat × Nat) p =>
    let code := match acc.1 with
      | [] => 0
      | _ => (acc.2.1 + 1) * 2 ^ (p.2 - acc.2.2)
    (acc.1 ++ [(p.1, p.2, code)], code, p.2)) ([], 0, 0)).1

/-! Values. -/

/-- FMT codes (R321). -/
def fmtIsBF16 (f : Nat) : Bool := f == 1

/-- Bytes of a value, and of its RAW part. -/
def ckpSize (f : Nat) : Nat := if fmtIsBF16 f then 2 else 4
def ckpRawW (f : Nat) : Nat := if fmtIsBF16 f then 1 else 3

/-- The exponent of a value. -/
def ckpExp (f v : Nat) : Nat := if fmtIsBF16 f then bits v 7 8 else bits v 23 8

/-- The RAW part of a value: sign above mantissa. -/
def ckpRaw (f v : Nat) : Nat := if fmtIsBF16 f then bits v 0 7 + 2 ^ 7 * bits v 15 1 else bits v 0 23 + 2 ^ 23 * bits v 31 1

/-- A value from its exponent and its RAW part. -/
def ckpJoin (f e r : Nat) : Nat :=
  if fmtIsBF16 f then bits r 0 7 + 2 ^ 7 * e + 2 ^ 15 * bits r 7 1 else bits r 0 23 + 2 ^ 23 * e + 2 ^ 31 * bits r 23 1

/-- The LENGTHS field. -/
def lengthsField (ls : Tab Nat) : Bytes :=
  (List.range 128).map fun i => BitVec.ofNat 8 (Tab.getD ls (2 * i) 0 + 16 * Tab.getD ls (2 * i + 1) 0)

/-- Block length for an exponent area of `n` bytes. -/
def ckpBlockLen (f count n : Nat) : Nat := roundUp (160 + count * ckpRawW f + n + 4) 64

/-- A block without its CHECK (R321, R322), and whether it is RAW. -/
def ckpEncode (f obj off : Nat) (vs : List Nat) : Bytes × Bool :=
  let es := vs.map (ckpExp f)
  let ls := huffLengths es
  let cs := canonCodes ls
  let bs := (es.map fun e => match cs.find? fun c => c.1 == e with
    | some c => codeBits c.2.2 c.2.1
    | none => []).flatten
  let n := vs.length
  let rawLen := ckpBlockLen f n n
  let codedLen := ckpBlockLen f n (ceilDiv bs.length 8)
  let isRaw := ls.any (fun p => decide (15 < p.2)) || decide (rawLen ≤ codedLen)
  let len := if isRaw then rawLen else codedLen
  let ex : Bytes := if isRaw then es.map (BitVec.ofNat 8) else packBools (bs.length + 1) bs
  let body := leBytes 1 f ++ leBytes 1 (b2n isRaw) ++ leBytes 2 n ++ leBytes 4 len ++
    leBytes 4 (if isRaw then 8 * n else bs.length) ++ leBytes 4 obj ++ leBytes 8 off ++ leBytes 8 0 ++
    (if isRaw then List.replicate 128 0 else lengthsField ls) ++
    (vs.map fun v => leBytes (ckpRawW f) (ckpRaw f v)).flatten ++ ex
  (padTo (len - 4) body, isRaw)

/-- CHECK of a block (R323): its global address, the epoch, and its bytes up to CHECK. -/
def ckpCheck (addr epoch : Nat) (body : Bytes) : Nat := crc32c (leBytes 8 addr ++ leBytes 8 epoch ++ body)

/-- A block with its CHECK. -/
def ckpSealed (addr epoch : Nat) (body : Bytes) : Bytes := body ++ leBytes 4 (ckpCheck addr epoch body)

/-- Read one coded exponent: the symbol and the rest of the bits; a code is at most 15 bits. -/
def readCode (cs : List (Nat × Nat × Nat)) : Nat → Nat → Nat → List Bool → Option (Nat × List Bool)
  | 0, _, _, _ => none
  | _, _, _, [] => none
  | fuel + 1, code, len, b :: bs =>
    let code := 2 * code + b2n b
    match cs.find? fun c => c.2.1 == len + 1 && c.2.2 == code with
    | some c => some (c.1, bs)
    | none => readCode cs fuel code (len + 1) bs

/-- Read `n` coded exponents. -/
def readCodes (cs : List (Nat × Nat × Nat)) : Nat → List Bool → Option (List Nat)
  | 0, _ => some []
  | n + 1, bs =>
    match readCode cs 15 0 0 bs with
    | none => none
    | some (e, bs) => (readCodes cs n bs).map fun l => e :: l

/-- What the header of a block says. -/
structure CkpBlock where
  fmt : Nat
  count : Nat
  len : Nat
  obj : Nat
  off : Nat
  values : List Nat
  deriving DecidableEq, Repr

/-- Decode a whole block (R321); `none` where no codec writes such bytes. -/
def ckpDecode (b : Bytes) : Option CkpBlock :=
  let f := fld b 0 1
  let mode := fld b 1 1
  let n := fld b 2 2
  let len := fld b 4 4
  let w := ckpRawW f
  let nb := fld b 8 4
  if !(f == 1 || f == 2) || decide (1 < mode) || n == 0 || decide (4096 < n) || decide (len < 164 + n * w + ceilDiv nb 8) then none
  else
    let ex := slice b (160 + n * w) (ceilDiv nb 8)
    let es := if mode = 1 then (if nb = 8 * n then some (ex.map BitVec.toNat) else none)
      else
        let ls := (List.range 256).filterMap fun x =>
          let l := bits (fld b (32 + x / 2) 1) (4 * (x % 2)) 4
          if l = 0 then none else some (x, l)
        readCodes (canonCodes ls) n ((unpackBools ex).take nb)
    es.map fun es =>
      { fmt := f, count := n, len := len, obj := fld b 12 4, off := fld b 16 8
        values := es.zipIdx.map fun (e, i) => ckpJoin f e (fld b (160 + i * w) w) }

/-! GF(2^8) with polynomial 0x11D and g = 0x02 (R332). -/

/-- Multiply by g. -/
def gfDouble (x : Nat) : Nat := if 128 ≤ x then (2 * x) ^^^ 0x11D else 2 * x

/-- Multiply two bytes: `n` bits of `y` are left. -/
def gfMulN : Nat → Nat → Nat → Nat
  | 0, _, _ => 0
  | n + 1, x, y => (if y % 2 = 1 then x else 0) ^^^ gfMulN n (gfDouble x) (y / 2)

/-- Multiply two bytes. -/
def gfMul (x y : Nat) : Nat := gfMulN 8 x y

/-- g to the power `d`. -/
def gfPow : Nat → Nat
  | 0 => 1
  | d + 1 => gfDouble (gfPow d)

/-- The inverse of a byte that is not 0. -/
def gfInv (x : Nat) : Nat := ((List.range 256).find? fun y => gfMul x y == 1).getD 0

/-- Multiply every byte of a unit. -/
def gfScale (k : Nat) (b : Bytes) : Bytes := b.map fun x => BitVec.ofNat 8 (gfMul k x.toNat)

/-- Add units byte by byte. -/
def gfAdd (a b : Bytes) : Bytes := List.zipWith (· ^^^ ·) a b

/-- P of data units, by position. -/
def gfP (n : Nat) (ds : List (Nat × Bytes)) : Bytes := ds.foldl (fun acc d => gfAdd acc d.2) (List.replicate n 0)

/-- Q of data units, by position. -/
def gfQ (n : Nat) (ds : List (Nat × Bytes)) : Bytes :=
  ds.foldl (fun acc d => gfAdd acc (gfScale (gfPow d.1) d.2)) (List.replicate n 0)

/-- The data units `x` and `y` that P and Q leave open, given the six others (R336). -/
def gfTwo (n x y : Nat) (p q : Bytes) (ds : List (Nat × Bytes)) : Bytes × Bytes :=
  let a := gfAdd p (gfP n ds)
  let b := gfAdd q (gfQ n ds)
  let dx := gfScale (gfInv (gfPow x ^^^ gfPow y)) (gfAdd b (gfScale (gfPow y) a))
  (dx, gfAdd a dx)

/-- The data unit `x` from P, or from Q, given the seven others. -/
def gfOneP (n : Nat) (p : Bytes) (ds : List (Nat × Bytes)) : Bytes := gfAdd p (gfP n ds)
def gfOneQ (n x : Nat) (q : Bytes) (ds : List (Nat × Bytes)) : Bytes := gfScale (gfInv (gfPow x)) (gfAdd q (gfQ n ds))

/-! The stripes of a group of ten (R331). -/

/-- Holders of P and Q of a stripe. -/
def holderP (k : Nat) : Nat := k % 10
def holderQ (k : Nat) : Nat := (k + 1) % 10

/-- Members that hold a stripe's data, by data position. -/
def dataHolders (k : Nat) : List Nat := (List.range 10).filter fun m => m != holderP k && m != holderQ k

/-- The number of stripe `k` among those in which member `m` holds data. -/
def dataUnit (m k : Nat) : Nat :=
  8 * (k / 10) + ((List.range (k % 10)).countP fun r => m != holderP r && m != holderQ r)

/-- The number of stripe `k` among those in which member `m` holds P or Q. -/
def parityUnit (m k : Nat) : Nat :=
  2 * (k / 10) + ((List.range (k % 10)).countP fun r => m == holderP r || m == holderQ r)

/-- The stripe of a member's parity unit `j`. -/
def parityStripe (m j : Nat) : Nat :=
  10 * (j / 2) + ((((List.range 10).filter fun r => m == holderP r || m == holderQ r)[j % 2]?).getD 0)

/-- K of R331. -/
def stripeCount (units : List Nat) : Nat := 10 * ceilDiv (units.foldl max 0) 8

end Sys2Proof.Machine
end

