-- ==== Sys2Proof/Machine/PoolCmds.lean ====
section
/-!
DEFINITION. Pool commands and the pool's own operations (chapter 03, R75–R118): allocation, freeing, moves, hints, prefix
references, near-memory primitives, zero-fills, fences, leases, host translation, and the EXT and RGN operations.
Marks: DEDUCED 17, 18, 19; DESIGN CHOICE 4, 8, in notes/assumptions.
-/
namespace Sys2Proof.Machine

/-! Kills (R87, R298). -/

/-- Kill an accepted command, a GATHER_REQ or a STEP record. -/
def State.killCmd (s : State) (cid : Nat) : State :=
  match s.cmdOf cid with
  | none => s
  | some c =>
    if c.src = 1 then s.gatherEnd cid stKILLED
    else if c.src = 2 then s.killRecord cid stKILLED
    else
      let s := (s.pool.moves.filter fun m => m.2.cid == some cid).foldl (fun s m => s.releaseMove m.1) s
      s.finish cid stKILLED

/-- Kill everything accepted that holds a reference to one of the extents. -/
def State.killRefs (s : State) (es : List Nat) : State :=
  (s.cmd.cmds.filter fun c => (c.2.rrefs ++ c.2.wrefs).any es.contains).foldl (fun s c => s.killCmd c.1) s

/-- Fence a region (R87). -/
def State.fenceRegion (s : State) (r : Nat) : State :=
  let s := s.upPool fun b => { b with regions := Tab.upd b.regions r fun g => { g with fenced := true } }
  let es := (s.extentsOf r).map (·.1)
  let s := es.foldl (fun s i => s.abortMove i stKILLED) s
  (s.killRefs es).syncLeases

/-- POOL_FENCE: a write with GO set (R87, R115). -/
def State.fenceFen (f : Nat) (s : State) : State :=
  let s := s.wr Reg.POOL_FENCE_FEN f
  (s.pool.regions.filter fun g => g.2.valid && g.2.fen == f).foldl (fun s g => s.fenceRegion g.1) s

/-! Allocation and freeing (R90–R92). -/

/-- Longest extent of a tier, in units (R75, R90). -/
def State.maxUnits (s : State) (tier : Nat) : Nat := if tier = tierNEAR then s.groupUnits else 256 * 2 ^ 30 / unitBytes

/-- What R90 checks of a place before anything is reserved: `start` and `n` in units. -/
def State.placeCheck (s : State) (r start n tier : Nat) : Nat :=
  let g := s.rgn r
  if n = 0 || s.maxUnits tier < n || decide (start < g.base) || decide (g.base + g.size < start + n) ||
      !(s.overlapping (start * unitBytes) (n * unitBytes)).isEmpty then stRANGE
  else stOK

/-- Create an extent by first fit, charged to its fen (R90): the state and the status. -/
def State.allocate (s : State) (e : Extent) (mask : Nat) : State × Nat :=
  match s.firstFit e.tier mask e.fen e.length, s.freeExt with
  | some loc, some i =>
    if !s.fitsExtent e.fen || !s.fitsRsv e.tier e.fen e.length e.capring then (s.refuseNoRes e.fen, stNO_RESOURCE)
    else
      let e := { e with loc := loc }
      let s := s.upPool fun b => { b with extents := Tab.put b.extents i e }
      let s := ((s.inc Reg.FEN_EXT_USED_COUNT 1 e.fen).chargeUnits e.tier e.fen e.length e.capring).takeFree e.tier e.length
      let a := locByte e.tier loc
      ((s.zeroTier e.tier a (e.length * unitBytes)).mendKeys ((s.flt.badGranules ++ s.flt.poisoned).filter fun k =>
          decide (granKey e.tier a ≤ k) && decide (k < granKey e.tier (a + e.length * unitBytes))), stOK)
  | _, _ => (s.refuseNoRes e.fen, stNO_RESOURCE)

/-- Read references on an extent that are not those of the command that moves it. -/
def State.otherReaders (s : State) (i : Nat) : Nat :=
  (s.ext i).rrefs - (match (Tab.find? s.pool.moves i).bind fun m => m.cid.bind s.cmdOf with
    | some c => c.rrefs.count i
    | none => 0)

/-- Whether an extent is the area of a registered checkpoint set (R318). -/
def State.isArea (s : State) (i : Nat) : Bool := s.ckp.sets.any fun x => x.2.own.area == (s.ext i).lo

/-- Why an extent cannot be freed now, references of the freeing command itself apart (R91, R227, R283, R318). -/
def State.freeRefusal (s : State) (i ownW : Nat) : Nat :=
  let e := s.ext i
  if (e.pfx && e.refs != 0) || s.otherReaders i != 0 || decide (ownW < e.wrefs) || s.isArena i || s.isArea i ||
      s.cmd.rings.any (fun r => r.2.state != ringDISABLED && (r.2.sqExt == i || r.2.cqExt == i)) then stRETRY
  else stOK

/-- Free an extent: a move of it is aborted first (R91, R94). -/
def State.freeOne (s : State) (i : Nat) (rgn : Option Nat := none) : State := (s.abortMove i stABORTED).freeExtent i rgn

/-! Checks of the table commands: made at acceptance, and again when the command runs. -/

/-- Reference 0 of a command, and P1. -/
def Cmd.ref0 (c : Cmd) : OpRef := opRefAt c.desc 32
def Cmd.ref1 (c : Cmd) : OpRef := opRefAt c.desc 48
def Cmd.p1 (c : Cmd) : Nat := fld c.desc 72 8

/-- Rights that reference 0 of an opcode needs (R89). -/
def needRef0 (op : Nat) : Nat :=
  if op = 0x10 ∨ op = 0x11 ∨ op = 0x15 ∨ op = 0x18 ∨ op = 0x19 then rtW + rtC
  else if op = 0x16 ∨ op = 0x17 ∨ op = 0x1A then rtR + rtC
  else if op = 0x1B then rtR + rtW + rtC
  else rtC

/-- Whether an opcode's reference 0 is a write reference. -/
def writesRef0 (op : Nat) : Bool := needRef0 op &&& rtW != 0

/-- R86 and R88 for an operand range: the home, the key and rights, the fence, and the range in its region. -/
def State.refCheck (s : State) (clid fen need : Nat) (r : OpRef) : Nat :=
  if bits r.addr 46 12 ≠ s.rd Reg.POOL_HOME_HOME then stRANGE
  else
    let st := s.regionCheck clid fen r.region r.key need r.loc r.bytes
    if st = stOK && windowBase < r.loc + r.bytes then stRANGE else st

/-- The extent that a move's reference 0 covers exactly (R95). -/
def State.oneExtent (s : State) (r : OpRef) : Option (Nat × Extent) :=
  match s.overlapping r.loc r.bytes with
  | [p] => if p.2.lo = r.loc && p.2.hi == r.loc + r.bytes then some p else none
  | _ => none

/-- Whether a ring is registered in an extent (R283). -/
def State.holdsRing (s : State) (i : Nat) : Bool :=
  s.cmd.rings.any fun r => r.2.state != ringDISABLED && (r.2.sqExt == i || r.2.cqExt == i)

/-- What refuses a move of an extent at once (R95, R78, R283). -/
def State.moveRefusal (s : State) (op i : Nat) : Nat :=
  let e := s.ext i
  if e.state = exMOVING then stRETRY
  else if e.pin || e.wrefs != 0 || (op == 0x13 && s.holdsRing i) then stABORTED
  else if e.tier = tierHOST then stRANGE
  else if s.deadAt e.tier (locByte e.tier e.loc) then stTARGET_DEAD
  else stOK

/-- The checks of opcodes 0x10 to 0x17 after their fields (R86, R89–R91, R95, R104, R106).  `own` is 1 when the command
already holds its references. -/
def State.tableCheck (s : State) (c : Cmd) (own : Nat) : Nat :=
  let op := c.opcode
  let r := c.ref0
  let st := s.refCheck c.clid c.fen (needRef0 op) r
  let es := s.overlapping r.loc r.bytes
  let ws := s.wholeIn r.loc r.bytes
  let foreign := (op == 0x10 || op == 0x11) && (s.rgn r.region).fen != c.fen
  if st = stKEY_DENIED || (foreign && (st == stOK || st == stFENCED)) then stKEY_DENIED
  else if st ≠ stOK then st
  else if op = 0x10 then
    if r.loc % unitBytes ≠ 0 || r.bytes % unitBytes != 0 then stRANGE
    else s.placeCheck r.region (r.loc / unitBytes) (r.bytes / unitBytes) (c.p0 % 4)
  else if op = 0x11 then
    if !s.coversExactly r.loc r.bytes then stRANGE
    else if es.any fun p => p.2.leased && p.2.holder != c.clid then stKEY_DENIED
    else if es.any fun p => s.freeRefusal p.1 own != stOK then stRETRY
    else stOK
  else if op = 0x12 ∨ op = 0x13 then
    match s.oneExtent r with
    | none => stRANGE
    | some (i, _) => s.moveRefusal op i
  else if ws.isEmpty then stRANGE
  else if op = 0x15 then
    if ws.any fun p => p.2.state != exLEASED || p.2.holder != c.clid then stKEY_DENIED else stOK
  else if op = 0x16 ∨ op = 0x17 then
    if ws.any fun p => !p.2.pfx then stRANGE
    else if op = 0x16 && ws.any fun p => decide (65535 ≤ p.2.refs) then stNO_RESOURCE
    else if op = 0x17 && ws.any fun p => p.2.refs == 0 then stRANGE
    else stOK
  else stOK

/-- Count a move refused after its extent was found (R115). -/
def State.noteRefused (s : State) (c : Cmd) (st : Nat) : State :=
  if (c.opcode == 0x12 || c.opcode == 0x13) && st != stOK && (s.oneExtent c.ref0).isSome &&
      s.refCheck c.clid c.fen (needRef0 c.opcode) c.ref0 == stOK then
    s.bump Reg.POOL_CNT_MOVE_ABORT else s

/-- Run a table command's only chunk: check again, act, and complete. -/
def State.runTable (s : State) (cid op : Nat) (act : Cmd → State → State × Nat) : State :=
  match s.tableCmd cid op with
  | none => s
  | some c =>
    let st := s.tableCheck c 1
    if st ≠ stOK then s.finish cid st
    else
      let (s, st) := act c s
      (if st = stOK then s.upCid cid fun c => { c with committed := 1 } else s).finish cid st

/-- The whole extents that reference 0 of a command covers. -/
def State.whole0 (s : State) (c : Cmd) : List Nat := (s.wholeIn c.ref0.loc c.ref0.bytes).map (·.1)

/-- ALLOC (R90). -/
def alloc (cid : Nat) (s : State) : State :=
  s.runTable cid 0x10 fun c s =>
    let r := c.ref0
    let (s, st) := s.allocate { start := r.loc / unitBytes, state := exLEASED, length := r.bytes / unitBytes, tier := c.p0 % 4
                                fen := c.fen, holder := c.clid, region := r.region } c.p1
    (s.syncLease c.clid, st)

/-- FREE (R91). -/
def free (cid : Nat) (s : State) : State :=
  s.runTable cid 0x11 fun c s =>
    let es := (s.overlapping c.ref0.loc c.ref0.bytes).map (·.1)
    ((es.foldl (fun s i => s.freeOne i) s).syncLeases, stOK)

/-- PREFIX_MARK (R104). -/
def prefixMark (cid : Nat) (s : State) : State :=
  s.runTable cid 0x15 fun c s =>
    (((s.whole0 c).foldl (fun s i => s.upExt i fun e => { e with pfx := true, state := exRESIDENT, holder := 0, refs := 0 }) s).syncLease
      c.clid, stOK)

/-- PREFIX_REF (R106). -/
def prefixRef (cid : Nat) (s : State) : State :=
  s.runTable cid 0x16 fun c s =>
    ((s.whole0 c).foldl (fun s i => s.upExt i fun e => { e with refs := e.refs + 1 }) s, stOK)

/-- PREFIX_UNREF (R106). -/
def prefixUnref (cid : Nat) (s : State) : State :=
  s.runTable cid 0x17 fun c s =>
    ((s.whole0 c).foldl (fun s i => s.upExt i fun e => { e with refs := e.refs - 1 }) s, stOK)

/-! Moves (R93–R96). -/

/-- Whether a move's mask names the place where the extent lies; a bonded pair by either bit (R93). -/
def State.alreadyAt (s : State) (e : Extent) (tier mask : Nat) : Bool :=
  let k := (locPlace e.tier e.loc).1
  e.tier == tier && (if tier = tierNEAR then bit mask k else ((bitList 32 mask).map s.trayPort).contains k)

/-- Reserve a destination and enter MOVING (R93 steps 1 and 2); `none` where nothing fits. -/
def State.startMove (s : State) (i tier mask cls : Nat) (cid : Option Nat) : Option State :=
  let e := s.ext i
  match s.firstFit tier mask e.fen e.length with
  | none => none
  | some loc =>
    if !s.fitsRsv tier e.fen e.length e.capring then none
    else
      let m : Move := { cid := cid, srcTier := e.tier, srcLoc := e.loc, destTier := tier, dest := loc, units := e.length
                        waits := (s.pool.writes.filter fun w => w.2.ext == i).map (·.1), cls := cls, began := s.hclk }
      let s := s.upExt i fun e => { e with state := exMOVING, prior := e.state == exLEASED, destTier := tier, dest := loc }
      some (((s.chargeUnits tier e.fen e.length e.capring).takeFree tier e.length).upPool fun b => { b with moves := Tab.put b.moves i m })

/-- MIGRATE and EVICT: start the move, or go on with it after a kill (R93, R303). -/
def State.runMove (s : State) (cid op : Nat) : State :=
  match s.tableCmd cid op with
  | none => s
  | some c =>
    if s.pool.moves.any fun m => m.2.cid == some cid then s
    else
      let st := s.tableCheck c 1
      let tier := if op = 0x12 then tierNEAR else tierTRAY
      let mask := if op = 0x12 then c.p1 else c.p1 % 2 ^ 32
      match s.oneExtent c.ref0 with
      | none => s.finish cid (if st = stOK then stRANGE else st)
      | some (i, e) =>
        if st ≠ stOK then (s.noteRefused c st).finish cid st
        else if s.alreadyAt e tier mask then (s.upCid cid fun c => { c with committed := 1 }).finish cid stOK
        else
          let cls := if e.heat = 1 then 2 else 3
          match s.startMove i tier mask cls (some cid) with
          | none => ((s.refuseNoRes c.fen).bump Reg.POOL_CNT_MOVE_ABORT).finish cid stNO_RESOURCE
          | some s => s.upCid cid fun c => { c with cls := cls }

/-- MIGRATE. -/
def migrate (cid : Nat) (s : State) : State := s.runMove cid 0x12
/-- EVICT. -/
def evict (cid : Nat) (s : State) : State := s.runMove cid 0x13

/-- ADVISE (R97). -/
def advise (cid : Nat) (s : State) : State :=
  s.runTable cid 0x14 fun c s =>
    let h := c.p0
    let s := (s.whole0 c).foldl (fun s i => s.upExt i fun e =>
      { e with heat := h % 4, pin := if bit h 2 then true else if bit h 3 then false else e.pin }) s
    let s := if !bit h 4 then s else (s.whole0 c).foldl (fun s i =>
        let e := s.ext i
        let started := if e.tier = tierTRAY && s.moveRefusal 0x12 i == stOK then s.startMove i tierNEAR (2 ^ 64 - 1) 3 none else none
        match started with
        | some s => s
        | none => s.bump Reg.POOL_CNT_SOFTDROP) s
    (s, stOK)

/-- Whether a move may copy now: R26's writes are performed, and its command's chunk, if it has one, is running. -/
def State.mayCopy (s : State) (m : Move) : Bool :=
  !s.car.warm && m.waits.all (fun w => !Tab.has s.pool.writes w) &&
  (match m.cid with
    | none => true
    | some cid => (s.runningChunk cid 0).isSome)

/-- MOVE_COPY_STEP: the next 64 KiB of a move are written at the destination (R93).  Bad granules arrive poisoned. -/
def moveCopyStep (i : Nat) (s : State) : State :=
  match Tab.find? s.pool.moves i with
  | none => s
  | some m =>
    let src := locByte m.srcTier m.srcLoc + m.copied * unitBytes
    let dst := locByte m.destTier m.dest + m.copied * unitBytes
    if m.units ≤ m.copied || !s.mayCopy m then s
    else if s.deadAt m.srcTier src || s.deadAt m.destTier dst then s.abortMove i stTARGET_DEAD
    else
      let bad := ((granKeys m.srcTier src unitBytes).filter s.badKey).map fun k => granKey m.destTier dst + (k - granKey m.srcTier src)
      let s := s.noteBad m.srcTier src unitBytes
      let s := s.writeTier m.destTier dst (s.readTier m.srcTier src unitBytes)
      let s := (s.mendKeys (granKeys m.destTier dst unitBytes)).poisonKeys bad
      let k := m.copied + 1
      s.upPool fun b => { b with moves := Tab.upd b.moves i fun m =>
        { m with copied := k, copyEnd := if k = m.units then some s.hclk else none } }

/-- The histories after an extent's entries go to the unit of its new location; `none` while the receiving unit has no
room (R29). -/
def State.moveHistory (s : State) (i fromDie toDie : Nat) : Option (Tab (List HistEnt)) :=
  if fromDie = toDie then some s.fab.hist
  else
    let src := s.young (Tab.getD s.fab.hist fromDie [])
    let dst := s.young (Tab.getD s.fab.hist toDie [])
    let (go, stay) := src.partition fun e => e.ext == i
    if histCapacity < dst.length + go.length then none
    else some (Tab.put (Tab.put s.fab.hist fromDie stay) toDie (dst ++ go))

/-- MOVE_COMMIT (R93 steps 4 to 6). -/
def moveCommit (i : Nat) (s : State) : State :=
  match Tab.find? s.pool.moves i with
  | none => s
  | some m =>
    if s.fatal || s.car.warm || m.copyEnd.isNone || s.otherReaders i != 0 || s.pool.writes.any fun w => w.2.ext == i then s
    else
      let a0 := locByte m.srcTier m.srcLoc
      match s.moveHistory i (dieAt m.srcTier a0) (dieAt m.destTier (locByte m.destTier m.dest)) with
      | none => s
      | some h =>
        let e := s.ext i
        let stays := fun (x : Line) =>
          decide (x.key < granKey m.srcTier a0) || decide (granKey m.srcTier (a0 + m.units * unitBytes) ≤ x.key)
        let s := s.upFab fun b => { b with hist := h, lines := Tab.mapVals b.lines fun _ l => l.filter stays }
        let s := s.upExt i fun e => { e with tier := m.destTier, loc := m.dest, state := e.restored, prior := false, destTier := 0, dest := 0 }
        let s := s.upPool fun b => { b with moves := Tab.del b.moves i }
        let s := s.scrub { tier := m.srcTier, loc := m.srcLoc, units := m.units, fen := e.fen, capring := e.capring }
        let s := s.bump Reg.POOL_CNT_MOVE_OK
        match m.cid with
        | none => s
        | some cid => (s.upCid cid fun c => { c with committed := 1 }).finish cid stOK

/-- MOVE_DRAIN_TIMEOUT (R94). -/
def moveDrainTimeout (i : Nat) (s : State) : State :=
  match Tab.find? s.pool.moves i with
  | none => s
  | some m =>
    match m.copyEnd with
    | none => s
    | some t =>
      if s.otherReaders i != 0 && decide (s.rd Reg.POOL_MOVE_DRAIN_US < s.sinceUs t) then s.abortMove i stABORTED else s

/-! Zero-fills (R92). -/

/-- Clear VALID of a region whose DELETE has nothing left to zero-fill (R118); its other words still read as they did. -/
def State.endDelete (s : State) (r : Nat) : State :=
  let g := s.rgn r
  if !g.deleting || s.pool.scrubs.any fun k => k.2.region == some r then s
  else
    let s := s.upPool fun b => { b with regions := Tab.put b.regions r { g with valid := false, fenced := false, deleting := false } }
    let s := s.dec Reg.FEN_RGN_USED_COUNT 1 g.fen
    if s.pool.regions.any fun x => x.2.deleting then s else s.wr Reg.RGN_OP_BUSY 0

/-- SCRUB_DONE: a zero-fill ends (R92); one on a down tray waits (R78). -/
def scrubDone (id : Nat) (s : State) : State :=
  match Tab.find? s.pool.scrubs id with
  | none => s
  | some k =>
    let a := locByte k.tier k.loc
    let n := k.units * unitBytes
    if s.deadAt k.tier a then s
    else
      let s := (s.zeroTier k.tier a n).mendKeys ((s.flt.badGranules ++ s.flt.poisoned).filter fun x =>
        decide (granKey k.tier a ≤ x) && decide (x < granKey k.tier (a + n)))
      let s := s.upPool fun b => { b with scrubs := Tab.del b.scrubs id }
      let s := (s.returnUnits k.tier k.fen k.units k.capring).giveFree k.tier k.units
      let s := s.dec Reg.POOL_SCRUB_PEND_UNITS k.units
      let s := s.measure wmScrub (s.rd Reg.POOL_SCRUB_PEND_UNITS)
      let s := match k.ext with
        | none => s
        | some i => (s.upPool fun b => { b with extents := Tab.del b.extents i }).dec Reg.FEN_EXT_USED_COUNT 1 k.fen
      match k.region with
      | none => s
      | some r => s.endDelete r

/-! Lease expiry (R102, R276). -/

/-- LEASE_EXPIRE: the reclaim that follows the expiry of a client's lease. -/
def leaseExpire (clid : Nat) (s : State) : State :=
  if !s.lapsed (s.lease clid) ||
      s.sqt.ents.any fun e => e.2.clid == clid && e.2.state != sqPREFIX && s.opening e.2.group then s
  else
    let es := (s.holdings clid).map (·.1)
    let s := es.foldl (fun s i => s.abortMove i stABORTED) s
    let s := s.killRefs es
    let s := es.foldl (fun s i => s.freeExtent i) s
    let s := s.upLease clid fun l => { l with epoch := l.epoch + 1, running := false, stopped := none, expiry := 0, deadline := 0 }
    let s := (s.bump Reg.POOL_CNT_LEASE_EXP).event
      { code := evLEASE_EXPIRED, sev := sevWARN, health := false, params := [clid, es.length] }
    s.leaseLeaves clid

/-! Near-memory primitives (R107–R110). -/

/-- Bytes of reference `r`. -/
def chunkSize : Nat := 65536

/-- Offset and length of chunk `k` of a command over `n` bytes; `down` takes them in descending order. -/
def dataChunk (n k : Nat) (down : Bool) : Nat × Nat :=
  let j := if down then ceilDiv n chunkSize - 1 - k else k
  (j * chunkSize, min chunkSize (n - j * chunkSize))

/-- Run chunk `k` of a data command: what it reads, and what it does with the data. -/
def State.runData (s : State) (cid k op : Nat) (reads : Cmd → List Seg) (act : Cmd → Bytes → State → State) : State :=
  match s.runningChunk cid k with
  | none => s
  | some (c, x, _) =>
    if c.opcode ≠ op || c.src ≠ 0 then s
    else if x.timedOut then s.finish cid stTIMEOUT
    else
      let ps := reads c
      match s.readFault ps with
      | some st => s.readFailed cid k st ps fun st s => s.finish cid st
      | none => act c (s.readPieces ps) s

/-- FILL (R107). -/
def fill (cid k : Nat) (s : State) : State :=
  s.runData cid k 0x18 (fun _ => []) fun c _ s =>
    let (o, n) := dataChunk c.ref0.bytes k false
    let ps := c.pieces 0 o n
    if ps.any fun g => s.deadAt g.tier g.at_ then s.finish cid stTARGET_DEAD
    else s.stage cid k fun x => { x with writes := stagePieces ps ((List.replicate (n / 64) (slice c.desc 64 64)).flatten), vals := [n] }

/-- Whether a COPY runs its chunks in descending order (R108). -/
def Cmd.copyDown (c : Cmd) : Bool := decide (c.ref1.loc ≤ c.ref0.loc)

/-- COPY (R108). -/
def copy (cid k : Nat) (s : State) : State :=
  s.runData cid k 0x19 (fun c => let (o, n) := dataChunk c.ref0.bytes k c.copyDown; c.pieces 1 o n) fun c d s =>
    let (o, n) := dataChunk c.ref0.bytes k c.copyDown
    let ps := c.pieces 0 o n
    if ps.any fun g => s.deadAt g.tier g.at_ then s.finish cid stTARGET_DEAD
    else s.stage cid k fun x => { x with writes := stagePieces ps d, vals := [n] }

/-- First index at which two byte lists differ. -/
def firstDiff : Nat → Bytes → Bytes → Option Nat
  | i, a :: as, b :: bs => if a = b then firstDiff (i + 1) as bs else some i
  | _, _, _ => none

/-- COMPARE (R109). -/
def compare_ (cid k : Nat) (s : State) : State :=
  s.runData cid k 0x1A (fun c => let (o, n) := dataChunk c.ref0.bytes k false; c.pieces 0 o n ++ c.pieces 1 o n) fun c d s =>
    let (o, n) := dataChunk c.ref0.bytes k false
    let r := match firstDiff 0 (d.take n) (d.drop n) with
      | some i => [o + i]
      | none => []
    s.stage cid k fun x => { x with vals := r }

/-- One element of REDUCE_IN_PLACE: its code, and its flags (R110, R192). -/
def reduceElem (ty op a b : Nat) : Nat × Nat :=
  encodeNum ty none ((Accum.enter op (Accum.enter op ({} : Accum) (decodeNum ty a)) (decodeNum ty b)).result op)

/-- REDUCE_IN_PLACE (R110, R192). -/
def reduceInPlace (cid k : Nat) (s : State) : State :=
  s.runData cid k 0x1B (fun c => let (o, n) := dataChunk c.ref0.bytes k false; c.pieces 0 o n ++ c.pieces 1 o n) fun c d s =>
    let (o, n) := dataChunk c.ref0.bytes k false
    let ty := c.p0 % 256
    let op := bits c.p0 8 8
    let w := tySize ty
    let rs := (List.range (n / w)).map fun i => reduceElem ty op (fld d (w * i) w) (fld d (n + w * i) w)
    let out := (rs.map fun r => leBytes w r.1).flatten
    let fl := rs.foldl (fun f r => f ||| r.2) 0
    let ps := c.pieces 0 o n
    s.stage cid k fun x => { x with writes := stagePieces ps out, vals := [n], flags := fl }

/-- Commit a staged chunk of FILL, COPY, COMPARE or REDUCE_IN_PLACE (R296, R303). -/
def State.dataCommit (s : State) (cid k : Nat) (c : Cmd) (x : Chunk) : State :=
  let s := x.writes.foldl (fun s w => s.performWrite w) s
  let res := if c.opcode = 0x1A then
      (match x.vals with
        | o :: _ => if c.vals.isEmpty then o else c.result
        | [] => c.result)
    else c.result + x.vals.getD 0 0
  let vals := if c.opcode = 0x1A && c.vals.isEmpty then x.vals else c.vals
  let s := s.upCid cid fun c => { c with committed := k + 1, result := res, vals := vals, rflags := c.rflags ||| x.flags
                                         chunks := Tab.del c.chunks k }
  if k + 1 < c.nchunks then s else s.finish cid stOK

/-! Host translation (R112–R116). -/

/-- Tier code of a segment of a HOST range that has no answer yet. -/
def tierPENDING : Nat := 3

/-- Entries of the request ring, modulo 2^17. -/
def State.hxqFull (s : State) : Bool :=
  (s.rd Reg.POOL_HXQ_REQ_TAIL_INDEX + 2 ^ 17 - s.rd Reg.POOL_HXQ_REQ_HEAD_INDEX) % 2 ^ 17 == 2 ^ s.rd Reg.POOL_HXQ_REQ_LOG2_N

/-- Write one translation request (R113). -/
def State.postXlate (s : State) (tag : Nat) (x : Xlate) : State :=
  let t := s.rd Reg.POOL_HXQ_REQ_TAIL_INDEX
  let base := s.rd64 Reg.POOL_HXQ_REQ_BASE_LO Reg.POOL_HXQ_REQ_BASE_HI / 4096 * 4096
  let d := leBytes 4 tag ++ leBytes 4 x.handle ++ leBytes 8 x.offset ++ leBytes 8 x.length ++ leBytes 1 (b2n x.write) ++ leBytes 7 0
  let s := (s.dmaWrite (base + 32 * (t % 2 ^ s.rd Reg.POOL_HXQ_REQ_LOG2_N)) d).wr Reg.POOL_HXQ_REQ_TAIL_INDEX (t + 1)
  (s.bump Reg.POOL_CNT_HOST_MISS).upPool fun b => { b with xlates := Tab.upd b.xlates tag fun x => { x with posted := true } }

/-- Post the waiting translation requests, in order, while the ring has room and fewer than 256 are outstanding. -/
def State.postXlates (s : State) : State :=
  (s.pool.xlates.filter fun x => !x.2.posted).foldl (fun s (tag, x) =>
    if !s.on Reg.POOL_HXQ_CTL_ENABLE || s.hxqFull || decide (256 ≤ s.pool.xlates.countP fun y => y.2.posted) then s
    else s.postXlate tag x) s

/-- Replace the pending segment of an answered request: `len` bytes at `iova`, and the rest still pending. -/
def answerSegs (x : Xlate) (iova len : Nat) (gs : List Seg) : List Seg :=
  (gs.map fun g =>
    if g.tier = tierPENDING && g.ref == x.ref && g.ext == x.ext && g.at_ == x.offset && g.len == x.length then
      { g with tier := tierHOST, at_ := iova, len := len } ::
        (if len < g.len then [{ g with at_ := x.offset + len, len := g.len - len }] else [])
    else [g]).flatten

/-- XLATE_ANSWER: the next entry of the answer ring (R113). -/
def xlateAnswer (s : State) : State :=
  let h := s.rd Reg.POOL_HXQ_RSP_HEAD_INDEX
  if !s.on Reg.POOL_HXQ_CTL_ENABLE || h == s.rd Reg.POOL_HXQ_RSP_TAIL_INDEX then s
  else
    let base := s.rd64 Reg.POOL_HXQ_RSP_BASE_LO Reg.POOL_HXQ_RSP_BASE_HI / 4096 * 4096
    let d := memRead s.host (base + 32 * (h % 2 ^ s.rd Reg.POOL_HXQ_RSP_LOG2_N)) 32
    let s := s.wr Reg.POOL_HXQ_RSP_HEAD_INDEX (h + 1)
    let tag := fld d 0 4
    match Tab.find? s.pool.xlates tag with
    | none => s.bump Reg.POOL_CNT_HOST_STALE
    | some x =>
      if !x.posted then s.bump Reg.POOL_CNT_HOST_STALE
      else
        let s := s.upPool fun b => { b with xlates := Tab.del b.xlates tag }
        if fld d 4 1 ≠ 0 then (s.finish x.cid stRANGE).postXlates
        else
          let len := min x.length (max 64 (fld d 16 8))
          let s := s.upCid x.cid fun c => { c with segs := answerSegs x (fld d 8 8) len c.segs }
          let s := if len = x.length then s else
            s.upPool fun b => { b with
              xlates := Tab.put b.xlates b.nextTag { x with offset := x.offset + len, length := x.length - len, posted := false }
              nextTag := b.nextTag + 1 }
          let s := if s.pool.xlates.any fun y => y.2.cid == x.cid then s
            else s.upCid x.cid fun c => { c with phase := .staging }
          (match s.cmdOf x.cid with
            | some c => s.syncCmd c.fen
            | none => s).postXlates

/-- XLATE_TIMEOUT: a command's translation is not answered in time (R112). -/
def xlateTimeout (cid : Nat) (s : State) : State :=
  match s.cmdOf cid with
  | none => s
  | some c =>
    if c.phase != .translating || decide (s.sinceUs c.acceptedAt < s.rd Reg.POOL_XLATE_DL_US) then s
    else ((s.bump Reg.POOL_CNT_HOST_TIMEOUT).finish cid stTIMEOUT).postXlates

/-! EXT operations (R117). -/

def State.extEnd (s : State) (st : Nat) : State := s.setEnd Reg.EXT_STATUS_STATUS Reg.EXT_STATUS_DONE st

/-- Copy an entry's words to DATA. -/
def State.extWords (s : State) (i : Nat) : State :=
  ((s.ext i).words.zipIdx.foldl (fun s (v, w) => s.wr Reg.EXT_DATA v w) s).extEnd stOK

/-- EXT READ. -/
def State.extRead (s : State) : State := s.extWords (s.rd Reg.EXT_INDEX_INDEX)

/-- EXT FIND. -/
def State.extFind (s : State) : State :=
  match s.extAt (s.rd64 Reg.EXT_ADDR_LO Reg.EXT_ADDR_HI % 2 ^ 46) with
  | none => s.extEnd stRANGE
  | some (i, _) => (s.wr Reg.EXT_INDEX_INDEX i).extWords i

/-- The region, START and LENGTH that CREATE and CREATE_HOST name. -/
def State.createArgs (s : State) : Nat × Nat × Nat :=
  (s.rd Reg.EXT_DATA 4 % 65536, s.rd Reg.EXT_DATA 0 % 2 ^ 30, s.rd Reg.EXT_DATA 1 % 2 ^ 30)

/-- EXT CREATE. -/
def State.extCreate (s : State) : State :=
  let (r, start, n) := s.createArgs
  let tier := s.rd Reg.EXT_DATA 1 / 2 ^ 30
  let g := s.rgn r
  if n = 0 || 2 ≤ tier then s.extEnd stMALFORMED
  else if !g.valid then s.extEnd stRANGE
  else if g.fenced then s.extEnd stFENCED
  else
    let st := s.placeCheck r start n tier
    if st ≠ stOK then s.extEnd st
    else
      let (s, st) := s.allocate { start := start, state := exRESIDENT, length := n, tier := tier, fen := g.fen, region := r }
        (s.rd Reg.EXT_DATA 2 + 2 ^ 32 * s.rd Reg.EXT_DATA 3)
      s.extEnd st

/-- EXT CREATE_HOST. -/
def State.extCreateHost (s : State) : State :=
  let (r, start, n) := s.createArgs
  let g := s.rgn r
  if n = 0 then s.extEnd stMALFORMED
  else if !g.valid then s.extEnd stRANGE
  else if g.fenced then s.extEnd stFENCED
  else if start < g.base || decide (g.base + g.size < start + n) ||
      !(s.overlapping (start * unitBytes) (n * unitBytes)).isEmpty then s.extEnd stRANGE
  else match s.freeExt with
    | none => (s.refuseNoRes g.fen).extEnd stNO_RESOURCE
    | some i =>
      if !s.fitsExtent g.fen then (s.refuseNoRes g.fen).extEnd stNO_RESOURCE
      else
        let e : Extent := { start := start, state := exRESIDENT, length := n, tier := tierHOST, loc := s.rd Reg.EXT_DATA 2
                            fen := g.fen, region := r }
        ((s.upPool fun b => { b with extents := Tab.put b.extents i e }).inc Reg.FEN_EXT_USED_COUNT 1 g.fen).extEnd stOK

/-- EXT FREE. -/
def State.extFree (s : State) : State :=
  let i := s.rd Reg.EXT_INDEX_INDEX
  let e := s.ext i
  if e.state = exFREE then s.extEnd stRANGE
  else if (s.rgn e.region).fenced then s.extEnd stFENCED
  else
    let st := s.freeRefusal i 0
    if st ≠ stOK then s.extEnd st else ((s.freeOne i).syncLeases).extEnd stOK

/-! RGN operations (R118). -/

def State.rgnEnd (s : State) (st : Nat) : State := s.setEnd Reg.RGN_STATUS_STATUS Reg.RGN_STATUS_DONE st

/-- DATA word `w` of the RGN set. -/
def State.rgnData (s : State) (w : Nat) : Nat := s.rd Reg.RGN_DATA w

/-- RGN READ. -/
def State.rgnRead (s : State) : State :=
  ((s.regionWords (s.rd Reg.RGN_INDEX_INDEX)).zipIdx.foldl (fun s (v, w) => s.wr Reg.RGN_DATA v w) s).rgnEnd stOK

/-- Grant slot of a DATA word. -/
def grantOf (w : Nat) : Grant := { id := w % 4096, isGroup := bit w 12, rights := bits w 13 4, valid := bit w 17 }

/-- Whether the DATA words of CREATE or UPDATE break the encoding rules. -/
def State.rgnBad (s : State) : Bool :=
  s.rgnData 1 / 2 ^ 30 != 0 || s.rgnData 2 / 2 ^ 26 != 0 || s.rgnData 7 / 2 ^ 20 != 0 ||
  (List.range 4).any fun k =>
    let w := s.rgnData (3 + k)
    w / 2 ^ 18 != 0 || ((grantOf w).valid && (grantOf w).isGroup && decide (0xFF ≤ (grantOf w).id))

/-- Units of the pool range below the control window (R74). -/
def poolUnits : Nat := windowBase / unitBytes

/-- RGN CREATE. -/
def State.rgnCreate (s : State) : State :=
  let r := s.rd Reg.RGN_INDEX_INDEX
  let base := s.rgnData 0 % 2 ^ 30
  let size := s.rgnData 1 % 2 ^ 30
  let fen := bits (s.rgnData 2) 16 6
  if s.on Reg.RGN_OP_BUSY then s.rgnEnd stRETRY
  else if s.rgnBad || size == 0 then s.rgnEnd stMALFORMED
  else if (s.rgn r).valid then s.rgnEnd stRETRY
  else if poolUnits < base + size || s.rangeTaken base size then s.rgnEnd stRANGE
  else if (Tab.getD s.cfg.limits fen {}).regions ≤ s.rd Reg.FEN_RGN_USED_COUNT fen then (s.refuseNoRes fen).rgnEnd stNO_RESOURCE
  else
    let g : Region := { base := base, valid := true, size := size, key := s.rgnData 2 % 65536, fen := fen
                        dflt := bits (s.rgnData 2) 22 4, grants := (List.range 4).map fun k => grantOf (s.rgnData (3 + k)) }
    ((s.upPool fun b => { b with regions := Tab.put b.regions r g }).inc Reg.FEN_RGN_USED_COUNT 1 fen).rgnEnd stOK

/-- RGN UPDATE. -/
def State.rgnUpdate (s : State) : State :=
  let r := s.rd Reg.RGN_INDEX_INDEX
  if s.on Reg.RGN_OP_BUSY then s.rgnEnd stRETRY
  else if s.rgnBad then s.rgnEnd stMALFORMED
  else if !(s.rgn r).valid then s.rgnEnd stRANGE
  else
    let gs := (List.range 4).map fun k => grantOf (s.rgnData (3 + k))
    let key := s.rgnData 2 % 65536
    let dflt := bits (s.rgnData 2) 22 4
    (s.upPool fun b => { b with regions := Tab.upd b.regions r fun g => { g with key := key, dflt := dflt, grants := gs } }).rgnEnd stOK

/-- RGN FENCE. -/
def State.rgnFence (s : State) : State :=
  let r := s.rd Reg.RGN_INDEX_INDEX
  if s.on Reg.RGN_OP_BUSY then s.rgnEnd stRETRY
  else if !(s.rgn r).valid then s.rgnEnd stRANGE
  else (s.fenceRegion r).rgnEnd stOK

/-- Stop the commands fetched from a ring pair without completion entries, and unregister it (R283). -/
def State.dropRing (s : State) (pair : Nat) : State :=
  let mine := s.cmd.cmds.filter fun c => c.2.src == 0 && c.2.pair == pair
  (mine.foldl (fun s c => s.stopCmd c.1) s).upRing pair fun _ => {}

/-- What deleting a region does (R118, R283): its rings go, it is fenced, and its extents go to zero-fill. -/
def State.deleteRegion (s : State) (r : Nat) : State :=
  let es := (s.extentsOf r).map (·.1)
  let rings := s.cmd.rings.filter fun x => x.2.state != ringDISABLED && (es.contains x.2.sqExt || es.contains x.2.cqExt)
  let s := rings.foldl (fun s x => s.dropRing x.1) s
  let s := s.fenceRegion r
  let s := s.upPool fun b => { b with regions := Tab.upd b.regions r fun g => { g with deleting := true } }
  let s := s.wr Reg.RGN_OP_BUSY 1
  let s := es.foldl (fun s i => s.freeExtent i (some r)) s
  s.syncLeases.endDelete r

/-- RGN DELETE (R118). -/
def State.rgnDelete (s : State) : State :=
  let r := s.rd Reg.RGN_INDEX_INDEX
  if s.on Reg.RGN_OP_BUSY then s.rgnEnd stRETRY
  else if !(s.rgn r).valid then s.rgnEnd stRANGE
  else (s.deleteRegion r).rgnEnd stOK

/-- RGN READ_CLIENT. -/
def State.rgnReadClient (s : State) : State :=
  let (a, b) := s.groupsOf (s.rd Reg.RGN_CLID_CLID)
  (s.wr Reg.RGN_DATA (a + 256 * b) 0).rgnEnd stOK

/-- RGN WRITE_CLIENT. -/
def State.rgnWriteClient (s : State) : State :=
  let w := s.rgnData 0
  if s.on Reg.RGN_OP_BUSY then s.rgnEnd stRETRY
  else if 2 ^ 16 ≤ w then s.rgnEnd stMALFORMED
  else (s.upPool fun b => { b with groups := Tab.put b.groups (s.rd Reg.RGN_CLID_CLID) (w % 256, w / 256) }).rgnEnd stOK

/-! The rows. -/

/-- ALLOC. -/
def execAlloc (cid : Nat) (s : State) : Host.Outcome State Fault Refusal := .next (alloc cid s)
/-- FREE. -/
def execFree (cid : Nat) (s : State) : Host.Outcome State Fault Refusal := .next (free cid s)
/-- MIGRATE. -/
def execMigrate (cid : Nat) (s : State) : Host.Outcome State Fault Refusal := .next (migrate cid s)
/-- EVICT. -/
def execEvict (cid : Nat) (s : State) : Host.Outcome State Fault Refusal := .next (evict cid s)
/-- ADVISE. -/
def execAdvise (cid : Nat) (s : State) : Host.Outcome State Fault Refusal := .next (advise cid s)
/-- PREFIX_MARK. -/
def execPrefixMark (cid : Nat) (s : State) : Host.Outcome State Fault Refusal := .next (prefixMark cid s)
/-- PREFIX_REF. -/
def execPrefixRef (cid : Nat) (s : State) : Host.Outcome State Fault Refusal := .next (prefixRef cid s)
/-- PREFIX_UNREF. -/
def execPrefixUnref (cid : Nat) (s : State) : Host.Outcome State Fault Refusal := .next (prefixUnref cid s)
/-- FILL. -/
def execFill (cid k : Nat) (s : State) : Host.Outcome State Fault Refusal := .next (fill cid k s)
/-- COPY. -/
def execCopy (cid k : Nat) (s : State) : Host.Outcome State Fault Refusal := .next (copy cid k s)
/-- COMPARE. -/
def execCompare (cid k : Nat) (s : State) : Host.Outcome State Fault Refusal := .next (compare_ cid k s)
/-- REDUCE_IN_PLACE. -/
def execReduceInPlace (cid k : Nat) (s : State) : Host.Outcome State Fault Refusal := .next (reduceInPlace cid k s)
/-- MOVE_COPY_STEP. -/
def execMoveCopyStep (i : Nat) (s : State) : Host.Outcome State Fault Refusal := .next (moveCopyStep i s)
/-- MOVE_COMMIT. -/
def execMoveCommit (i : Nat) (s : State) : Host.Outcome State Fault Refusal := .next (moveCommit i s)
/-- MOVE_DRAIN_TIMEOUT. -/
def execMoveDrainTimeout (i : Nat) (s : State) : Host.Outcome State Fault Refusal := .next (moveDrainTimeout i s)
/-- LEASE_EXPIRE. -/
def execLeaseExpire (clid : Nat) (s : State) : Host.Outcome State Fault Refusal := .next (leaseExpire clid s)
/-- XLATE_ANSWER. -/
def execXlateAnswer (s : State) : Host.Outcome State Fault Refusal := .next (xlateAnswer s)
/-- XLATE_TIMEOUT. -/
def execXlateTimeout (cid : Nat) (s : State) : Host.Outcome State Fault Refusal := .next (xlateTimeout cid s)
/-- POOL_FENCE. -/
def execPoolFence (a : Access) (fen : Nat) (s : State) : Host.Outcome State Fault Refusal :=
  .next (State.window a 0x200014 (State.fenceFen (fen % 64)) s)
/-- EXT_READ. -/
def execExtRead (a : Access) (s : State) : Host.Outcome State Fault Refusal :=
  .next (State.window a 0x400004 (fun s => (s.wr Reg.EXT_OP_CODE 1).extRead) s)
/-- EXT_FIND. -/
def execExtFind (a : Access) (s : State) : Host.Outcome State Fault Refusal :=
  .next (State.window a 0x400004 (fun s => (s.wr Reg.EXT_OP_CODE 2).extFind) s)
/-- EXT_CREATE. -/
def execExtCreate (a : Access) (s : State) : Host.Outcome State Fault Refusal :=
  .next (State.window a 0x400004 (fun s => (s.wr Reg.EXT_OP_CODE 3).extCreate) s)
/-- EXT_CREATE_HOST. -/
def execExtCreateHost (a : Access) (s : State) : Host.Outcome State Fault Refusal :=
  .next (State.window a 0x400004 (fun s => (s.wr Reg.EXT_OP_CODE 4).extCreateHost) s)
/-- EXT_FREE. -/
def execExtFree (a : Access) (s : State) : Host.Outcome State Fault Refusal :=
  .next (State.window a 0x400004 (fun s => (s.wr Reg.EXT_OP_CODE 5).extFree) s)
/-- RGN_READ. -/
def execRgnRead (a : Access) (s : State) : Host.Outcome State Fault Refusal :=
  .next (State.window a 0x600004 (fun s => (s.wr Reg.RGN_OP_CODE 1).rgnRead) s)
/-- RGN_CREATE. -/
def execRgnCreate (a : Access) (s : State) : Host.Outcome State Fault Refusal :=
  .next (State.window a 0x600004 (fun s => (s.wr Reg.RGN_OP_CODE 2).rgnCreate) s)
/-- RGN_UPDATE. -/
def execRgnUpdate (a : Access) (s : State) : Host.Outcome State Fault Refusal :=
  .next (State.window a 0x600004 (fun s => (s.wr Reg.RGN_OP_CODE 3).rgnUpdate) s)
/-- RGN_FENCE. -/
def execRgnFence (a : Access) (s : State) : Host.Outcome State Fault Refusal :=
  .next (State.window a 0x600004 (fun s => (s.wr Reg.RGN_OP_CODE 4).rgnFence) s)
/-- RGN_DELETE. -/
def execRgnDelete (a : Access) (s : State) : Host.Outcome State Fault Refusal :=
  .next (State.window a 0x600004 (fun s => (s.wr Reg.RGN_OP_CODE 5).rgnDelete) s)
/-- RGN_READ_CLIENT. -/
def execRgnReadClient (a : Access) (s : State) : Host.Outcome State Fault Refusal :=
  .next (State.window a 0x600004 (fun s => (s.wr Reg.RGN_OP_CODE 6).rgnReadClient) s)
/-- RGN_WRITE_CLIENT. -/
def execRgnWriteClient (a : Access) (s : State) : Host.Outcome State Fault Refusal :=
  .next (State.window a 0x600004 (fun s => (s.wr Reg.RGN_OP_CODE 7).rgnWriteClient) s)

end Sys2Proof.Machine
end

