-- ==== Sys2Proof/Machine/Engine.lean ====
section
/-!
DEFINITION. Requests that the switch's own engines send to other homes (R140, R142, R147): sending, answers, timeouts and
injection rates.
Marks: DEDUCED 23, in notes/assumptions.
-/
namespace Sys2Proof.Machine

/-! Injection rates (R147). -/

/-- Line rate of a port, MB/s (R152). -/
def State.lineMBps (s : State) (p : Nat) : Nat := if (s.portCfg p).laneMode = 1 then 200000 else 400000

/-- The egress port that an engine's packets to a home take: the bucket of the flow label 0. -/
def State.enginePort (s : State) (home : Nat) : Nat :=
  let r := Tab.getD s.bank.routes home {}
  r.map.getD (bucketOf (s.bank.seed.getD 0) { src := s.endpoint, dst := 0xF000 + home }) 0

/-- The rate toward a home; it starts at the egress port's line rate. -/
def State.ccRate (s : State) (home : Nat) : CcRate := Tab.getD s.fab.cc home { r := s.lineMBps (s.enginePort home) }

/-- A response with ECHO or CE: the rate falls, once a window. -/
def State.ccSeen (s : State) (home : Nat) (p : Packet) : State :=
  if !(p.echo || p.ce) then s
  else
    let c := s.ccRate home
    let d := max 1 (s.rd Reg.FAB_CC_CTL_DECR)
    let r := if s.on Reg.FAB_CC_CTL_ENABLE && !c.decreased then max (s.rd Reg.FAB_CC_MIN_MBPS) (c.r - c.r / 2 ^ d) else c.r
    let dec := c.decreased || s.on Reg.FAB_CC_CTL_ENABLE
    s.upFab fun b => { b with cc := Tab.put b.cc home { r := r, decreased := dec, congested := true } }

/-- CC_WINDOW_END: the window of `FAB_CC_CTL.WIN_US` ends (R147). -/
def ccWindowEnd (s : State) : State :=
  let step := fun (h : Nat) (c : CcRate) =>
    let line := s.lineMBps (s.enginePort h)
    let r := if !s.on Reg.FAB_CC_CTL_ENABLE then line
      else if c.congested then c.r else min line (c.r + s.rd Reg.FAB_CC_AI_MBPS)
    ({ r := r, decreased := false, congested := false } : CcRate)
  s.upFab fun b => { b with cc := Tab.mapVals b.cc step }

/-! Requests. -/

/-- Whether a command has an outstanding request with a tag. -/
def State.asked (s : State) (cid tag : Nat) : Bool := s.fab.eng.any fun e => e.2.cid == cid && e.2.tag == tag

/-- Record the answer to a command's request, by its tag. -/
def State.peerAnswer (s : State) (cid tag st : Nat) (d : Bytes) : State :=
  (s.upFab fun b => { b with eng := List.filter (fun e => e.2.cid != cid || e.2.tag != tag) b.eng }).upCid cid fun c =>
    { c with peers := Tab.put c.peers tag (st, d) }

/-- Send a request to another home (R140).  One to a dead home is answered TARGET_DEAD at once (R142). -/
def State.engSend (s : State) (cid tag home : Nat) (p : Packet) : State :=
  let seq := s.fab.nextSeq
  let p := Packet.seal { p with src := s.endpoint, dst := 0xF000 + home, seq := seq }
  let e : EngReq := { cid := cid, tag := tag, home := home, pkt := p, copies := 1, sentAt := s.hclk
                      due := s.hclk + s.timeoutHclk }
  if s.homeDead home then s.peerAnswer cid tag stTARGET_DEAD []
  else (s.upFab fun b => { b with eng := Tab.put b.eng seq e, nextSeq := (seq + 1) % 2 ^ 32 }).send connHE0 p

/-- Forget answers and requests with tags in a range. -/
def State.forgetPeers (s : State) (cid lo hi : Nat) : State :=
  (s.upFab fun b => { b with eng := List.filter (fun e => e.2.cid != cid || e.2.tag < lo || decide (hi ≤ e.2.tag)) b.eng }).upCid
    cid fun c => { c with peers := List.filter (fun p => p.1 < lo || decide (hi ≤ p.1)) c.peers }

/-- The READ of `n` bytes at a local address of a home, with a class, a region and a key (R330). -/
def readReq (home region key a n cls : Nat) : Packet :=
  { opcode := opREAD, flags := cls + 8, len := n, region := region, key := key, addr := home * 2 ^ 46 + a }

/-- The WRITE_FENCED of a granule. -/
def writeReq (home region key a cls : Nat) (d : Bytes) : Packet :=
  { opcode := opWRITE_FENCED, flags := cls + 8, len := d.length, region := region, key := key, addr := home * 2 ^ 46 + a
    payload := d }

/-- What an answer means for its request: `none` where the request is to be sent again (R140). -/
def State.engOutcome (s : State) (e : EngReq) (st : Nat) : Option Nat :=
  if st = stRETRY then (if e.copies ≤ s.cfg.device.retries then none else some stTIMEOUT) else some st

/-- Send the next copy of a request: RETX set, and timed afresh. -/
def State.engResend (s : State) (seq : Nat) (e : EngReq) : State :=
  let p := Packet.seal { e.pkt with flags := setBits e.pkt.flags 6 1 1 }
  let e := { e with pkt := p, copies := e.copies + 1, sentAt := s.hclk, due := s.hclk + s.timeoutHclk }
  (s.upFab fun b => { b with eng := Tab.put b.eng seq e }).send connHE0 p

/-- CC_WINDOW_END. -/
def execCcWindowEnd (s : State) : Host.Outcome State Fault Refusal := .next (ccWindowEnd s)

end Sys2Proof.Machine
end

