-- ==== Sys2Proof/Machine/Checkpoint.lean ====
section
/-!
DEFINITION. Checkpoint epochs (chapter 10, R317–R338): the sets, the eight commands, the header polls and the parity.
Marks: DEDUCED 23, 31, in notes/assumptions.
-/
namespace Sys2Proof.Machine

/-! Areas and headers (R318–R320). -/

/-- A registered set. -/
def State.ckpSet (s : State) (i : Nat) : Option CkpSet := Tab.find? s.ckp.sets i

/-- The bytes `o … o+n-1` of the set's own area. -/
def State.areaSegs (s : State) (x : CkpSet) (o n : Nat) : List Seg :=
  match s.extAt x.own.area with
  | none => []
  | some (i, e) => [{ ref := 2, tier := e.tier, at_ := e.at_ (x.own.area + o), len := n, ext := i }]

/-- Offset of an epoch's slot header, and of its slot. -/
def slotHeader (epoch : Nat) : Nat := 256 * (epoch % 2)
def CkpSet.slotBase (x : CkpSet) (epoch : Nat) : Nat := unitBytes + epoch % 2 * (x.slotUnits * unitBytes)

/-- STATE codes (R319). -/
def ckEMPTY : Nat := 0
def ckOPEN : Nat := 1
def ckSEALED : Nat := 2
def ckPARITY_DONE : Nat := 3

/-- Fields of a slot header. -/
def hdState (h : Bytes) : Nat := fld h 6 1
def hdEpoch (h : Bytes) : Nat := fld h 8 8
def hdUnits (h : Bytes) : Nat := fld h 16 4
def hdStripes (h : Bytes) : Nat := fld h 20 4
def hdRaw (h : Bytes) : Nat := fld h 24 8
def hdBlocks (h : Bytes) : Nat := fld h 32 8
def hdAll (h : Bytes) : List Nat := (List.range 10).map fun m => fld h (64 + 4 * m) 4
def hdMark (h : Bytes) : Nat := fld h 128 8

/-- The epoch that a slot holds durable, or 0 (R320). -/
def hdDurable (h : Bytes) : Nat := if hdState h = ckPARITY_DONE && hdMark h == hdEpoch h then hdEpoch h else 0

/-- The three granules of a slot header. -/
def State.ckpHeader (s : State) (x : CkpSet) (epoch : Nat) : Bytes := s.readPieces (s.areaSegs x (slotHeader epoch) 192)

/-- D of an area (R320). -/
def State.ckpD (s : State) (x : CkpSet) : Nat := max (hdDurable (s.ckpHeader x 0)) (hdDurable (s.ckpHeader x 1))

/-- Stream cursor of a slot. -/
def CkpSet.cursor (x : CkpSet) (epoch : Nat) : Nat := if epoch % 2 = 0 then x.cursor0 else x.cursor1

/-- Set the stream cursor of a slot. -/
def State.setCursor (s : State) (i epoch v : Nat) : State :=
  s.upCkp fun b => { b with sets := Tab.upd b.sets i fun x =>
    if epoch % 2 = 0 then { x with cursor0 := v } else { x with cursor1 := v } }

/-- The first two granules of a header (R319). -/
def headerBytes (st member epoch units stripes raw blocks flags : Nat) (all : List Nat) : Bytes :=
  padTo 64 (ascii "KNWC" ++ leBytes 2 0x0100 ++ leBytes 1 st ++ leBytes 1 member ++ leBytes 8 epoch ++ leBytes 4 units ++
    leBytes 4 stripes ++ leBytes 8 raw ++ leBytes 8 blocks ++ leBytes 1 flags) ++
  padTo 64 ((all.map fun u => leBytes 4 u).flatten)

/-- The marker granule (R319). -/
def markBytes (epoch time home : Nat) : Bytes := padTo 64 (leBytes 8 epoch ++ leBytes 8 time ++ leBytes 2 home)

/-! Operands (R325). -/

def Cmd.ckpSetNo (c : Cmd) : Nat := c.p0 % 64
def Cmd.epoch (c : Cmd) : Nat := c.p1
def Cmd.p2 (c : Cmd) : Nat := fld c.desc 80 8
def Cmd.p3 (c : Cmd) : Nat := fld c.desc 88 8
def Cmd.p4 (c : Cmd) : Nat := fld c.desc 96 8
def Cmd.ckpObj (c : Cmd) : Nat := c.p2 / 2 ^ 32
def Cmd.ckpFmt (c : Cmd) : Nat := c.p2 % 4
def Cmd.waitUs (c : Cmd) : Nat := c.p2 % 2 ^ 32

/-- Whether the set's slot state lets a command run (R327). -/
def State.ckpMay (s : State) (x : CkpSet) (op e : Nat) : Bool :=
  let h := s.ckpHeader x e
  let d := s.ckpD x
  let st := hdState h
  let here := hdEpoch h == e
  if op = 0x30 then decide (d < e) && (d == 0 || e % 2 != d % 2)
  else if op = 0x31 then st == ckOPEN && here
  else if op = 0x32 then (st == ckOPEN || st == ckSEALED) && here
  else if op = 0x33 then (st == ckSEALED || st == ckPARITY_DONE) && here
  else if op = 0x34 then st == ckPARITY_DONE && here
  else if op = 0x36 then hdDurable h == 0 && decide (d < e)
  else hdDurable h == e

/-- Change what a checkpoint command carries. -/
def State.upCkpWork (s : State) (cid : Nat) (f : CkpWork → CkpWork) : State := s.upCid cid fun c => { c with ckp := f c.ckp }

/-! Failures of the command (R330). -/

/-- Order of R330; a status outside its list comes last. -/
def ckpRank (st : Nat) : Nat :=
  (([stKILLED, stCHECK_FAIL, stTARGET_DEAD, stRANGE, stNO_RESOURCE, stTIMEOUT].idxOf? st).getD 6)

/-- The status that comes first in the order of R330, OK where all are. -/
def ckpWorst (sts : List Nat) : Nat :=
  (sts.filter (· != stOK)).foldl (fun a st => if a = stOK || ckpRank st < ckpRank a then st else a) stOK

/-- Read pieces for a chunk, then go on; a failing read ends or re-runs the chunk (R217, R444). -/
def State.ckpRead (s : State) (cid k : Nat) (ps : List Seg) (act : Bytes → State → State) : State :=
  match s.readFault ps with
  | some st => s.readFailed cid k st ps fun st s => s.finish cid st
  | none => act (s.readPieces ps) s

/-- A chunk of a checkpoint command has done its work. -/
def State.ckpStage (s : State) (cid k : Nat) (x : Chunk) (f : Chunk → Chunk) : State :=
  (if x.fails = 1 then s.bump Reg.CKP_CNT_CHK_RERUN else s).stage cid k f

/-- Run a chunk of a checkpoint command with its set. -/
def State.runCkp (s : State) (cid k op : Nat) (act : Cmd → Chunk → CkpSet → State → State) : State :=
  match s.runningChunk cid k with
  | none => s
  | some (c, x, _) =>
    if c.opcode ≠ op || c.src ≠ 0 then s
    else if x.timedOut then s.finish cid stTIMEOUT
    else match s.ckpSet c.ckpSetNo with
      | none => s
      | some z => act c x z s

/-- The staged write of bytes in the own area. -/
def State.areaWrite (s : State) (z : CkpSet) (o : Nat) (d : Bytes) : List StagedWrite := stagePieces (s.areaSegs z o d.length) d

/-! OPEN, ENCODE and SEAL. -/

/-- CKP_OPEN (R327): the header is rewritten, and the stream begins anew. -/
def ckpOpen (cid k : Nat) (s : State) : State :=
  s.runCkp cid k 0x30 fun c x z s =>
    let h := headerBytes ckOPEN z.self c.epoch 0 0 0 0 0 [] ++ List.replicate 64 0
    s.ckpStage cid k x fun x => { x with writes := s.areaWrite z (slotHeader c.epoch) h }

/-- Source values of chunk `k` of ENCODE: the first and how many (R328). -/
def Cmd.encodeRange (c : Cmd) (k : Nat) : Nat × Nat :=
  let per := 65536 / ckpSize c.ckpFmt
  (per * k, min per (c.p4 % 2 ^ 32 - per * k))

/-- CKP_ENCODE (R321, R322, R328). -/
def ckpEncodeChunk (cid k : Nat) (s : State) : State :=
  s.runCkp cid k 0x31 fun c x _ s =>
    let w := ckpSize c.ckpFmt
    let (v0, n) := c.encodeRange k
    s.ckpRead cid k (c.pieces 0 (v0 * w) (n * w)) fun d s =>
      let vs := (List.range n).map fun i => fld d (i * w) w
      let blks := (List.range (ceilDiv n 4096)).map fun j =>
        ckpEncode c.ckpFmt c.ckpObj ((c.p3 + (v0 + 4096 * j) * w) % 2 ^ 64) ((vs.drop (4096 * j)).take 4096)
      s.ckpStage cid k x fun x => { x with blobs := blks.map (·.1), vals := [n, blks.countP (·.2)] }

/-- CKP_SEAL (R327). -/
def ckpSeal (cid k : Nat) (s : State) : State :=
  s.runCkp cid k 0x32 fun c x z s =>
    s.ckpRead cid k (s.areaSegs z (slotHeader c.epoch) 64) fun h s =>
      if hdState h = ckSEALED then s.ckpStage cid k x id
      else
        let cur := z.cursor c.epoch
        let units := ceilDiv cur unitBytes
        let h := patch (patch h 6 (leBytes 1 ckSEALED)) 16 (leBytes 4 units)
        let pad := s.areaWrite z (z.slotBase c.epoch + cur) (List.replicate (units * unitBytes - cur) 0)
        s.ckpStage cid k x fun x => { x with writes := pad ++ s.areaWrite z (slotHeader c.epoch) h }

/-! Polls of the members' headers (R332, R334, R336). -/

/-- Tags of a command's requests: header polls by member, markers from 16, unit reads from 64. -/
def tagPoll (m : Nat) : Nat := m
def tagMark (m : Nat) : Nat := 16 + m
def tagUnit (k pos r : Nat) : Nat := 64 + 256 * k + 16 * pos + r

/-- Members other than SELF. -/
def CkpSet.others (z : CkpSet) : List Nat := (List.range z.members).filter (· != z.self)

/-- Send a round of header READs. -/
def State.pollRound (s : State) (cid : Nat) (c : Cmd) (z : CkpSet) : State :=
  let s := s.forgetPeers cid 0 16
  let s := s.upCkpWork cid fun r => { r with waitFrom := r.waitFrom.or (some s.hclk), lastPoll := s.hclk }
  z.others.foldl (fun s m =>
    let p := z.mem.getD m {}
    s.engSend cid (tagPoll m) p.home (readReq p.home p.region p.key (p.area + slotHeader c.epoch) 192 c.cls)) s

/-- The header a member has answered with. -/
def Cmd.polledHeader (c : Cmd) (m : Nat) : Option Bytes :=
  match Tab.find? c.peers (tagPoll m) with
  | some (st, d) => if st = stOK then some d else none
  | none => none

/-- Whether a member's header shows what the command waits for. -/
def Cmd.showsReady (c : Cmd) (own h : Bytes) : Bool :=
  hdEpoch h == c.epoch &&
    (if c.opcode = 0x33 then hdState h == ckSEALED || hdState h == ckPARITY_DONE
     else hdState h == ckPARITY_DONE && hdStripes h == hdStripes own)

/-- Members not ready, as MEMBERS_BAD counts them. -/
def Cmd.notReady (c : Cmd) (z : CkpSet) (own : Bytes) : List Nat :=
  z.others.filter fun m => match c.polledHeader m with
    | some h => !c.showsReady own h
    | none => true

/-- The mask of a list of members. -/
def memberMask (ms : List Nat) : Nat := (ms.map fun m => 2 ^ m).sum

/-- What the polling has reached. -/
inductive PollState where
  | waiting
  | ended (status bad : Nat)
  /-- K, the UNITS of each member, and the other member that is lost. -/
  | ready (stripes : Nat) (units : List Nat) (lost : Option Nat)
  deriving DecidableEq, Repr

/-- Judge a REBUILD's header round (R336): survivors hold the epoch durable with equal STRIPES and UNITS_ALL. -/
def Cmd.judgeRebuild (c : Cmd) (z : CkpSet) : PollState :=
  if !z.others.all fun m => Tab.has c.peers (tagPoll m) then .waiting
  else
    let live := z.others.filterMap fun m => match c.polledHeader m with
      | some h => if hdDurable h = c.epoch && c.epoch != 0 then some (m, hdStripes h, hdAll h) else none
      | none => none
    let same := fun (a : Nat × Nat × List Nat) => live.filter fun b => b.2 == a.2
    match live.find? fun a => decide (z.others.length ≤ (same a).length + 1) with
    | none => .ended stTARGET_DEAD (memberMask (z.others.filter fun m => !live.any fun a => a.1 == m))
    | some a =>
      let lost := z.others.filter fun m => !(same a).any fun b => b.1 == m
      .ready a.2.1 a.2.2 lost.head?

/-- Judge the answers of PARITY and COMMIT (R330, R332, R334). -/
def Cmd.judgePoll (c : Cmd) (z : CkpSet) (own : Bytes) : PollState :=
  if c.opcode = 0x36 then c.judgeRebuild z
  else
    let bad := c.notReady z own
    let lost := z.others.filterMap fun m => match Tab.find? c.peers (tagPoll m) with
      | some (st, _) => if st = stTARGET_DEAD ∨ st = stTIMEOUT then some st else none
      | none => none
    if !lost.isEmpty then .ended (ckpWorst lost) (memberMask bad)
    else if !bad.isEmpty || !c.showsReady own own then .waiting
    else
      let us := (List.range 10).map fun m =>
        if m = z.self then hdUnits own else ((c.polledHeader m).map hdUnits).getD 0
      let k := if c.opcode = 0x33 then (if z.members = 1 then 0 else stripeCount us) else hdStripes own
      if c.opcode = 0x33 && decide (z.slotUnits < hdUnits own + 2 * k / 10) then .ended stNO_RESOURCE 0
      else .ready k us none

/-- How many chunks a command has once its polling is over (R328). -/
def ckpChunks (op k : Nat) : Nat := if op = 0x33 then 2 * k / 10 + 1 else if op = 0x36 then k + 1 else 1

/-- Go on with the polling of a command whose chunk `k` runs: begin it, judge what has come, or end. -/
def State.pollOn (s : State) (cid k : Nat) (c : Cmd) (z : CkpSet) : State :=
  s.ckpRead cid k (s.areaSegs z (slotHeader c.epoch) 192) fun own s =>
    if c.ckp.waitFrom.isNone then s.pollRound cid c z
    else match c.judgePoll z own with
      | .waiting => s
      | .ended st bad => (s.upCkpWork cid fun r => { r with bad := bad }).finish cid st
      | .ready n us lost =>
        let s := s.upCkpWork cid fun r =>
          { r with polled := true, stripes := n, units := us, lost := lost
                   bad := memberMask lost.toList }
        (s.forgetPeers cid 0 16).upCid cid fun c => { c with nchunks := ckpChunks c.opcode n }

/-- CKP_HEADER_POLL: the next round of a waiting PARITY, COMMIT or REBUILD is due, or WAIT_US has passed (R332). -/
def ckpHeaderPoll (cid : Nat) (s : State) : State :=
  match s.cmdOf cid with
  | none => s
  | some c =>
    match c.ckp.waitFrom, s.ckpSet c.ckpSetNo with
    | some t, some z =>
      if c.ckp.polled || !isCkp c.opcode then s
      else
        match c.judgePoll z (s.ckpHeader z c.epoch) with
        | .waiting =>
          if c.waitUs ≤ s.sinceUs t then
            let bad := memberMask (if c.opcode = 0x36 then z.others.filter fun m => (c.polledHeader m).isNone
              else c.notReady z (s.ckpHeader z c.epoch))
            ((s.upCkpWork cid fun r => { r with bad := bad }).bump Reg.CKP_CNT_WAIT_TO).finish cid stTIMEOUT
          else if c.opcode = 0x36 || s.sinceUs c.ckp.lastPoll < max 1 (s.rd Reg.CKP_POLL_US) then s
          else s.pollRound cid c z
        | _ => s
    | _, _ => s

/-! Units of the members (R331). -/

/-- A unit that a chunk needs: its place among D0–D7, P (8) and Q (9), its holder, and its offset in the holder's slot;
no offset where it counts as zeros. -/
structure UnitRef where
  pos : Nat
  member : Nat
  off : Option Nat
  deriving DecidableEq, Repr

/-- READs of at most 4,096 bytes that a unit takes. -/
def readsPerUnit : Nat := 16

/-- Send the READs of units. -/
def State.unitSend (s : State) (cid k : Nat) (c : Cmd) (z : CkpSet) (us : List UnitRef) : State :=
  us.foldl (fun s u => match u.off with
    | none => s
    | some o =>
      let p := z.mem.getD u.member {}
      (List.range readsPerUnit).foldl (fun s r => s.engSend cid (tagUnit k u.pos r) p.home
        (readReq p.home p.region p.key (p.area + z.slotBase c.epoch + o + 4096 * r) 4096 c.cls)) s) s

/-- Tags of the READs of units. -/
def unitTags (k : Nat) (us : List UnitRef) : List Nat :=
  (us.map fun u => if u.off.isSome then (List.range readsPerUnit).map (tagUnit k u.pos) else []).flatten

/-- The data of a unit whose READs are all answered. -/
def Cmd.unitData (c : Cmd) (k : Nat) (u : UnitRef) : Bytes :=
  if u.off.isNone then List.replicate unitBytes 0
  else ((List.range readsPerUnit).map fun r => padTo 4096 ((Tab.find? c.peers (tagUnit k u.pos r)).map (·.2) |>.getD [])).flatten

/-- With the units of a chunk: ask for them, wait, or go on. -/
def State.withUnits (s : State) (cid k : Nat) (c : Cmd) (z : CkpSet) (us : List UnitRef)
    (act : List (Nat × Bytes) → State → State) : State :=
  let tags := unitTags k us
  if tags.any fun t => !Tab.has c.peers t then
    (if tags.any fun t => Tab.has c.peers t || s.asked cid t then s else s.unitSend cid k c z us)
  else
    let st := ckpWorst (tags.filterMap fun t => (Tab.find? c.peers t).map (·.1))
    if st ≠ stOK then
      let bad := us.filter fun u => (unitTags k [u]).any fun t => (Tab.find? c.peers t).any fun p => p.1 != stOK
      (s.upCkpWork cid fun r => { r with bad := memberMask (bad.map (·.member)).eraseDups }).finish cid st
    else (act (us.map fun u => (u.pos, c.unitData k u)) s).forgetPeers cid (tagUnit k 0 0) (tagUnit (k + 1) 0 0)

/-- Offset in a slot of a data unit, and of a parity unit (R318). -/
def dataOff (i : Nat) : Nat := i * unitBytes
def CkpSet.parityOff (z : CkpSet) (j : Nat) : Nat := (z.slotUnits - 1 - j) * unitBytes

/-- The data units of a stripe. -/
def Cmd.dataRefs (c : Cmd) (k : Nat) : List UnitRef :=
  (dataHolders k).zipIdx.map fun (m, d) =>
    let i := dataUnit m k
    ⟨d, m, if i < c.ckp.units.getD m 0 then some (dataOff i) else none⟩

/-- CKP_PARITY (R332). -/
def ckpParity (cid k : Nat) (s : State) : State :=
  s.runCkp cid k 0x33 fun c x z s =>
    if !c.ckp.polled then s.pollOn cid k c z
    else if k < 2 * c.ckp.stripes / 10 then
      let st := parityStripe z.self k
      s.withUnits cid k c z (c.dataRefs st) fun ds s =>
        let u := if holderP st = z.self then gfP unitBytes ds else gfQ unitBytes ds
        s.ckpStage cid k x fun x => { x with writes := s.areaWrite z (z.slotBase c.epoch + z.parityOff k) u }
    else
      s.ckpRead cid k (s.areaSegs z (slotHeader c.epoch) 64) fun h s =>
        let h := patch (patch h 6 (leBytes 1 ckPARITY_DONE)) 20 (leBytes 4 c.ckp.stripes)
        let all := padTo 64 ((c.ckp.units.map fun u => leBytes 4 u).flatten)
        s.ckpStage cid k x fun x => { x with writes := s.areaWrite z (slotHeader c.epoch) (h ++ all) }

/-- CKP_COMMIT (R334): the members are ready, so the marker may be written. -/
def ckpCommit (cid k : Nat) (s : State) : State :=
  s.runCkp cid k 0x34 fun c x z s =>
    if !c.ckp.polled then s.pollOn cid k c z else s.ckpStage cid k x id

/-- The units of stripe `k` that a REBUILD reads, of those not lost: all known data, then P, then Q, eight in all. -/
def Cmd.rebuildRefs (c : Cmd) (z : CkpSet) (k : Nat) : List UnitRef :=
  let ok := fun m => m != z.self && c.ckp.lost != some m
  let par := fun m => some (z.parityOff (parityUnit m k))
  (((c.dataRefs k).filter fun u => ok u.member) ++
    (([⟨8, holderP k, par (holderP k)⟩, ⟨9, holderQ k, par (holderQ k)⟩] : List UnitRef).filter fun u => ok u.member)).take 8

/-- Reconstruct SELF's unit of stripe `k` from eight units of it (R336). -/
def rebuildUnit (self k : Nat) (us : List (Nat × Bytes)) : Bytes :=
  let ds := us.filter fun u => u.1 < 8
  let p := (Tab.find? us 8).getD []
  let q := (Tab.find? us 9).getD []
  let open_ := (List.range 8).filter fun d => !ds.any fun u => u.1 == d
  let all := match open_ with
    | [] => ds
    | [a] => (a, if Tab.has us 8 then gfOneP unitBytes p ds else gfOneQ unitBytes a q ds) :: ds
    | a :: b :: _ => let (x, y) := gfTwo unitBytes a b p q ds; (a, x) :: (b, y) :: ds
  if holderP k = self then gfP unitBytes all
  else if holderQ k = self then gfQ unitBytes all
  else ((all.find? fun u => (dataHolders k)[u.1]? == some self).map (·.2)).getD []

/-- CKP_REBUILD (R336). -/
def ckpRebuild (cid k : Nat) (s : State) : State :=
  s.runCkp cid k 0x36 fun c x z s =>
    if !c.ckp.polled then s.pollOn cid k c z
    else if k < c.ckp.stripes then
      let mine := holderP k == z.self || holderQ k == z.self
      let i := dataUnit z.self k
      if !mine && decide (c.ckp.units.getD z.self 0 ≤ i) then s.ckpStage cid k x id
      else
        let off := if mine then z.parityOff (parityUnit z.self k) else dataOff i
        s.withUnits cid k c z (c.rebuildRefs z k) fun us s =>
          s.ckpStage cid k x fun x =>
            { x with writes := s.areaWrite z (z.slotBase c.epoch + off) (rebuildUnit z.self k us), vals := [1] }
    else
      let h := headerBytes ckPARITY_DONE z.self c.epoch (c.ckp.units.getD z.self 0) c.ckp.stripes 0 0 1 c.ckp.units
      s.ckpStage cid k x fun x =>
        { x with writes := s.areaWrite z (slotHeader c.epoch) (h ++ markBytes c.epoch s.tnow (s.rd Reg.POOL_HOME_HOME)) }

/-! DECODE and VERIFY (R329). -/

/-- A block met on a walk. -/
structure WalkBlock where
  off : Nat
  len : Nat
  blk : CkpBlock
  deriving DecidableEq, Repr

/-- How a walk ends. -/
inductive WalkEnd where
  /-- At this offset, the stream not ended. -/
  | at_ (off : Nat)
  /-- The stream has ended. -/
  | done
  /-- A block fails its tests. -/
  | bad (off : Nat)
  /-- A read failed. -/
  | fault (status : Nat) (ps : List Seg)
  deriving DecidableEq, Repr

/-- The padding that SEAL writes: only zeros up to the end of the last unit. -/
def State.onlyPad (s : State) (z : CkpSet) (c : Cmd) (o end_ : Nat) : Bool :=
  decide (end_ - o < unitBytes) && (s.readPieces (s.areaSegs z (z.slotBase c.epoch + o) (end_ - o))).all (· == 0)

/-- Walk the blocks that begin in `[o, lim)` of a stream of `end_` bytes; `fuel` bounds the blocks. -/
def State.walk (s : State) (z : CkpSet) (c : Cmd) (lim end_ : Nat) : Nat → Nat → List WalkBlock → List WalkBlock × WalkEnd
  | 0, o, acc => (acc, .at_ o)
  | fuel + 1, o, acc =>
    if end_ ≤ o then (acc, .done)
    else if lim ≤ o then (acc, .at_ o)
    else
      let base := z.slotBase c.epoch
      let hp := s.areaSegs z (base + o) 64
      match s.readFault hp with
      | some st => (acc, .fault st hp)
      | none =>
        let len := fld (s.readPieces hp) 4 4
        if s.onlyPad z c o end_ then (acc, .done)
        else if len = 0 || len % 64 != 0 || decide (end_ < o + len) then (acc, .bad o)
        else
          let ps := s.areaSegs z (base + o) len
          match s.readFault ps with
          | some st => (acc, .fault st ps)
          | none =>
            let d := s.readPieces ps
            let a := z.own.home * 2 ^ 46 + (z.own.area + base + o) % 2 ^ 46
            if fld d (len - 4) 4 ≠ ckpCheck a c.epoch (d.take (len - 4)) then (acc, .bad o)
            else match ckpDecode d with
              | none => (acc, .bad o)
              | some b => s.walk z c lim end_ fuel (o + len) (acc ++ [⟨o, len, b⟩])

/-- Where chunk `k`'s walk begins: after the chunk before it, once that one's work is done. -/
def Cmd.walkStart (c : Cmd) (k : Nat) : Option (Nat × Bool) :=
  if k ≤ c.committed then some (c.ckp.pos, c.ckp.ended)
  else match Tab.find? c.chunks (k - 1) with
    | some x => if x.phase = .staged then some (x.vals.getD 0 0, x.vals.getD 1 0 == 1) else none
    | none => none

/-- Run a chunk of DECODE or VERIFY. -/
def State.walkChunk (s : State) (cid k op : Nat) : State :=
  s.runCkp cid k op fun c x z s =>
    match c.walkStart k with
    | none => s
    | some (o, ended) =>
      let end_ := hdUnits (s.ckpHeader z c.epoch) * unitBytes
      let (bs, e) := if ended then ([], .done) else s.walk z c ((k + 1) * unitBytes) end_ 1025 o []
      match e with
      | .fault st ps => s.readFailed cid k st ps fun st s => s.finish cid st
      | .bad o =>
        ((s.upCkpWork cid fun r => { r with firstBad := some o }).bump Reg.CKP_CNT_CRC_FAIL).finish cid stCHECK_FAIL
      | e =>
        let (pos, fin) := match e with
          | .at_ o => (o, 0)
          | _ => (end_, 1)
        let mine := if op = 0x37 then bs else bs.filter fun b => b.blk.obj == c.ckpObj
        let fits := fun (b : WalkBlock) => decide (c.p3 ≤ b.blk.off) &&
          decide (b.blk.off - c.p3 + b.blk.count * ckpSize b.blk.fmt ≤ c.ref0.bytes)
        let use := if op = 0x37 then mine else mine.filter fits
        let ws := if op = 0x37 then [] else (use.map fun b => c.stageAtRef 0 (b.blk.off - c.p3)
          ((b.blk.values.map fun v => leBytes (ckpSize b.blk.fmt) v).flatten)).flatten
        s.ckpStage cid k x fun x =>
          { x with writes := ws
                   vals := [pos, fin, (use.map fun b => b.blk.count).sum, bs.length, mine.length - use.length] }

/-- CKP_DECODE. -/
def ckpDecodeChunk (cid k : Nat) (s : State) : State := s.walkChunk cid k 0x35
/-- CKP_VERIFY. -/
def ckpVerify (cid k : Nat) (s : State) : State := s.walkChunk cid k 0x37

/-! Commit (R328). -/

/-- End of a commit: the chunk leaves, and after the last one the command completes. -/
def State.ckpNext (s : State) (cid k : Nat) (c : Cmd) : State :=
  let s := s.upCid cid fun c => { c with committed := k + 1, chunks := Tab.del c.chunks k }
  if k + 1 < c.nchunks then s else s.finish cid stOK

/-- Perform a chunk's staged writes. -/
def State.performAll (s : State) (ws : List StagedWrite) : State := ws.foldl (fun s w => s.performWrite w) s

/-- Commit a chunk of ENCODE: its blocks at the cursor, sealed for their addresses and the epoch (R323, R328). -/
def State.encodeCommit (s : State) (cid k : Nat) (c : Cmd) (x : Chunk) (z : CkpSet) : State :=
  let cur := z.cursor c.epoch
  let total := (x.blobs.map fun b => b.length + 4).sum
  if z.slotUnits * unitBytes < cur + total then s.finish cid stNO_RESOURCE
  else
    let n := x.vals.getD 0 0
    let base := z.slotBase c.epoch
    let (s, _) := x.blobs.foldl (fun (s, o) b =>
      let a := z.own.home * 2 ^ 46 + (z.own.area + base + o) % 2 ^ 46
      (s.performAll (s.areaWrite z (base + o) (ckpSealed a c.epoch b)), o + b.length + 4)) (s, cur)
    let h := s.ckpHeader z c.epoch
    let raw := hdRaw h + n * ckpSize c.ckpFmt
    let s := s.performAll (s.areaWrite z (slotHeader c.epoch + 24) (leBytes 8 raw ++ leBytes 8 (hdBlocks h + x.blobs.length)))
    let s := s.setCursor c.ckpSetNo c.epoch (cur + total)
    let nraw := x.vals.getD 1 0
    let s := (s.bump Reg.CKP_CNT_BLOCKS 0 0 x.blobs.length).bump Reg.CKP_CNT_RAW 0 0 nraw
    let s := s.bump Reg.CKP_CNT_IN_UNITS 0 0 (raw / unitBytes - hdRaw h / unitBytes)
    let s := s.bump Reg.CKP_CNT_OUT_UNITS 0 0 ((cur + total) / unitBytes - cur / unitBytes)
    (s.upCkpWork cid fun r => { r with values := r.values + n, blocks := r.blocks + x.blobs.length
                                       bytes := r.bytes + total, aux := r.aux + nraw }).ckpNext cid k c

/-- The answers to a COMMIT's markers: once all have come, the command completes (R334). -/
def State.ckpMarks (s : State) (cid : Nat) : State :=
  match s.cmdOf cid with
  | none => s
  | some c =>
    let ms := c.peers.filter fun p => decide (tagMark 0 ≤ p.1) && decide (p.1 < tagMark 10)
    if c.ckp.marking = 0 || decide (ms.length < c.ckp.marking) then s
    else
      let bad := (ms.filter fun p => p.2.1 != stOK).map fun p => p.1 - tagMark 0
      (s.upCkpWork cid fun r => { r with bad := memberMask bad }).finish cid (ckpWorst (ms.map fun p => p.2.1))

/-- The COMMIT's own marker is written, and goes to every other member (R334). -/
def State.markCommit (s : State) (cid k : Nat) (c : Cmd) (z : CkpSet) : State :=
  let m := markBytes c.epoch s.tnow (s.rd Reg.POOL_HOME_HOME)
  let s := s.performAll (s.areaWrite z (slotHeader c.epoch + 128) m)
  if z.others.isEmpty then s.ckpNext cid k c
  else
    let s := s.upCid cid fun c => { c with committed := k + 1, chunks := Tab.del c.chunks k
                                           ckp := { c.ckp with marking := z.others.length } }
    let s := z.others.foldl (fun s i =>
      let p := z.mem.getD i {}
      s.engSend cid (tagMark i) p.home (writeReq p.home p.region p.key (p.area + slotHeader c.epoch + 128) c.cls m)) s
    s.ckpMarks cid

/-- Commit a staged chunk of a checkpoint command. -/
def State.ckpCommitChunk (s : State) (cid k : Nat) (c : Cmd) (x : Chunk) : State :=
  match s.ckpSet c.ckpSetNo with
  | none => s.finish cid stRANGE
  | some z =>
    if c.opcode = 0x31 then s.encodeCommit cid k c x z
    else if c.opcode = 0x34 then s.markCommit cid k c z
    else
      let s := s.performAll x.writes
      let s := if c.opcode = 0x30 then s.setCursor c.ckpSetNo c.epoch 0 else s
      let par := c.opcode == 0x33 && decide (k + 1 < c.nchunks)
      let reb := c.opcode == 0x36 && x.vals.getD 0 0 == 1
      let s := if par then s.bump Reg.CKP_CNT_PAR_UNITS else s
      let s := if reb then s.bump Reg.CKP_CNT_REB_UNITS else s
      let walk := c.opcode == 0x35 || c.opcode == 0x37
      let v := x.vals
      let s := s.upCkpWork cid fun r =>
        if walk then { r with pos := v.getD 0 0, ended := v.getD 1 0 == 1, values := r.values + v.getD 2 0
                              blocks := r.blocks + v.getD 3 0, aux := r.aux + v.getD 4 0 }
        else { r with bytes := r.bytes + (if par || reb then unitBytes else 0), aux := r.aux + b2n reb }
      s.ckpNext cid k c

/-! The set table (R338). -/

def State.ckpSetEnd (s : State) (st : Nat) : State := s.setEnd Reg.CKP_SET_STATUS_STATUS Reg.CKP_SET_STATUS_DONE st

/-- CKP set READ. -/
def State.ckpSetRead (s : State) : State :=
  let i := s.rd Reg.CKP_SET_INDEX_SET
  let z := (s.ckpSet i).getD { members := 0 }
  let on := (s.ckpSet i).isSome
  let s := ((s.wr Reg.CKP_SET_DATA0_FEN z.fen).wrb Reg.CKP_SET_DATA0_VALID on).wrb Reg.CKP_SET_DATA0_PARITY z.parity
  let s := ((s.wr Reg.CKP_SET_DATA0_SELF z.self).wr Reg.CKP_SET_DATA0_MEMBERS z.members).wr Reg.CKP_SET_DATA1_SLOT_UNITS z.slotUnits
  let s := (List.range 10).foldl (fun s m =>
    let p := z.mem.getD m {}
    ((((s.wr Reg.CKP_SET_M_HOME p.home m).wr Reg.CKP_SET_M_REGION p.region m).wr Reg.CKP_SET_M_KEY p.key m).wr
      Reg.CKP_SET_M_AREA_LO (p.area % 2 ^ 32) m).wr Reg.CKP_SET_M_AREA_HI (p.area / 2 ^ 32) m) s
  let d := if on then s.ckpD z else 0
  let st := fun e => if on then hdState (s.ckpHeader z e) else 0
  ((((s.wr Reg.CKP_SET_DATA42 (d % 2 ^ 32)).wr Reg.CKP_SET_DATA43 (d / 2 ^ 32)).wr Reg.CKP_SET_DATA44_STATE0 (st 0)).wr
    Reg.CKP_SET_DATA44_STATE1 (st 1)).ckpSetEnd stOK

/-- The set that the DATA words describe. -/
def State.ckpSetArgs (s : State) : CkpSet :=
  { fen := s.rd Reg.CKP_SET_DATA0_FEN, parity := s.on Reg.CKP_SET_DATA0_PARITY, self := s.rd Reg.CKP_SET_DATA0_SELF
    members := s.rd Reg.CKP_SET_DATA0_MEMBERS, slotUnits := s.rd Reg.CKP_SET_DATA1_SLOT_UNITS
    mem := (List.range 10).map fun m =>
      { home := s.rd Reg.CKP_SET_M_HOME m, region := s.rd Reg.CKP_SET_M_REGION m, key := s.rd Reg.CKP_SET_M_KEY m
        area := s.rd Reg.CKP_SET_M_AREA_LO m + 2 ^ 32 * (s.rd Reg.CKP_SET_M_AREA_HI m % 2 ^ 14) } }

/-- Whether an extent may be a set's area (R318). -/
def CkpSet.areaOk (z : CkpSet) (e : Extent) : Bool :=
  e.state == exRESIDENT && !e.pfx && e.tier != tierHOST && e.fen == z.fen && e.lo == z.own.area &&
    decide (1 + 2 * z.slotUnits ≤ e.length)

/-- Whether two of a list's numbers are equal. -/
def hasRepeat : List Nat → Bool
  | [] => false
  | a :: l => l.contains a || hasRepeat l

/-- CKP set REGISTER. -/
def State.ckpSetRegister (s : State) : State :=
  let i := s.rd Reg.CKP_SET_INDEX_SET
  let z := s.ckpSetArgs
  let shape := (z.members == 1 && !z.parity) || (z.members == 10 && z.parity)
  if (s.ckpSet i).isSome then s.ckpSetEnd stRETRY
  else if !shape || decide (z.members ≤ z.self) || hasRepeat ((z.mem.take z.members).map (·.home)) ||
      z.own.home != s.rd Reg.POOL_HOME_HOME then s.ckpSetEnd stRANGE
  else match s.extAt z.own.area with
    | none => s.ckpSetEnd stRANGE
    | some (_, e) =>
      if !z.areaOk e then s.ckpSetEnd stRANGE
      else if s.deadAt e.tier (locByte e.tier e.loc) then s.ckpSetEnd stTARGET_DEAD
      else
        let s := s.performAll (s.areaWrite z 0 (List.replicate 192 0) ++ s.areaWrite z 256 (List.replicate 192 0))
        let s := s.upCkp fun b => { b with sets := Tab.put b.sets i { z with mem := z.mem.take z.members } }
        (s.wr Reg.CKP_STAT_SETS s.ckp.sets.length).ckpSetEnd stOK

/-- CKP set UNREGISTER. -/
def State.ckpSetUnregister (s : State) : State :=
  let i := s.rd Reg.CKP_SET_INDEX_SET
  if s.cmd.cmds.any fun c => isCkp c.2.opcode && c.2.src == 0 && c.2.ckpSetNo == i then s.ckpSetEnd stRETRY
  else
    let s := s.upCkp fun b => { b with sets := Tab.del b.sets i }
    (s.wr Reg.CKP_STAT_SETS s.ckp.sets.length).ckpSetEnd stOK

/-- CKP_OPEN. -/
def execCkpOpen (cid k : Nat) (s : State) : Host.Outcome State Fault Refusal := .next (ckpOpen cid k s)
/-- CKP_ENCODE. -/
def execCkpEncode (cid k : Nat) (s : State) : Host.Outcome State Fault Refusal := .next (ckpEncodeChunk cid k s)
/-- CKP_SEAL. -/
def execCkpSeal (cid k : Nat) (s : State) : Host.Outcome State Fault Refusal := .next (ckpSeal cid k s)
/-- CKP_PARITY. -/
def execCkpParity (cid k : Nat) (s : State) : Host.Outcome State Fault Refusal := .next (ckpParity cid k s)
/-- CKP_COMMIT. -/
def execCkpCommit (cid k : Nat) (s : State) : Host.Outcome State Fault Refusal := .next (ckpCommit cid k s)
/-- CKP_DECODE. -/
def execCkpDecode (cid k : Nat) (s : State) : Host.Outcome State Fault Refusal := .next (ckpDecodeChunk cid k s)
/-- CKP_REBUILD. -/
def execCkpRebuild (cid k : Nat) (s : State) : Host.Outcome State Fault Refusal := .next (ckpRebuild cid k s)
/-- CKP_VERIFY. -/
def execCkpVerify (cid k : Nat) (s : State) : Host.Outcome State Fault Refusal := .next (ckpVerify cid k s)
/-- CKP_HEADER_POLL. -/
def execCkpHeaderPoll (cid : Nat) (s : State) : Host.Outcome State Fault Refusal := .next (ckpHeaderPoll cid s)
/-- CKP_SET_READ. -/
def execCkpSetRead (a : Access) (s : State) : Host.Outcome State Fault Refusal :=
  .next (State.window a 0x1800104 (fun s => (s.wr Reg.CKP_SET_OP_CODE 1).ckpSetRead) s)
/-- CKP_SET_REGISTER. -/
def execCkpSetRegister (a : Access) (s : State) : Host.Outcome State Fault Refusal :=
  .next (State.window a 0x1800104 (fun s => (s.wr Reg.CKP_SET_OP_CODE 2).ckpSetRegister) s)
/-- CKP_SET_UNREGISTER. -/
def execCkpSetUnregister (a : Access) (s : State) : Host.Outcome State Fault Refusal :=
  .next (State.window a 0x1800104 (fun s => (s.wr Reg.CKP_SET_OP_CODE 3).ckpSetUnregister) s)

end Sys2Proof.Machine
end

