-- ==== Sys2Proof/Machine/Fetch.lean ====
section
/-!
DEFINITION. Fetch and acceptance (R288–R293): the field checks of every opcode, its opcode checks, translation, and the
row DESCRIPTOR_FETCH.
Marks: DEDUCED 20, 26, 30, 31, in notes/assumptions.
-/
namespace Sys2Proof.Machine

/-! Field checks (R88–R91, R197, R237, R271–R273, R290, R310, R325), in ascending offset. -/

/-- The parameter words `i … 7` must be 0. -/
def zeroParams (b : Bytes) (i : Nat) : List (Nat × Bool) :=
  (List.range (8 - i)).map fun j => (64 + 8 * (i + j), !zeroAt b (64 + 8 * (i + j)) 8)

/-- A reference at offset `o` that must be 0. -/
def refZero (b : Bytes) (o : Nat) : List (Nat × Bool) := [(o, !zeroAt b o 16)]

/-- A reference at offset `o` that is used. -/
def refUsed (b : Bytes) (o : Nat) : List (Nat × Bool) := refChecks o (opRefAt b o)

/-- A reference at offset `o` that may be all 0. -/
def refMaybe (b : Bytes) (o : Nat) : List (Nat × Bool) := if (opRefAt b o).zero then [] else refUsed b o

/-- Parameter word `i` of a descriptor. -/
def param (b : Bytes) (i : Nat) : Nat := fld b (64 + 8 * i) 8

/-- Whether an opcode exists (R291), on a switch with or without the attention assist (R3). -/
def opcodeOk (att : Bool) (op : Nat) : Bool :=
  op == 1 || (decide (0x10 ≤ op) && decide (op ≤ 0x1B)) || op == 0x20 || op == 0x21 ||
    (att && decide (0x28 ≤ op) && decide (op ≤ 0x2B)) || isCkp op

/-- Field checks of a pool command. -/
def poolFields (op : Nat) (b : Bytes) : List (Nat × Bool) :=
  let g0 := (opRefAt b 32).gran
  let g1 := (opRefAt b 48).gran
  let p0 := param b 0
  if op = 0x18 then refUsed b 32 ++ refZero b 48
  else if op = 0x19 ∨ op = 0x1A then refUsed b 32 ++ refUsed b 48 ++ [(60, g0 != g1)] ++ zeroParams b 0
  else if op = 0x1B then
    refUsed b 32 ++ refUsed b 48 ++
    [(60, g0 != g1), (64, decide (2 ^ 16 ≤ p0) || !stageType (p0 % 256) || decide (2 < bits p0 8 8))] ++ zeroParams b 1
  else
    refUsed b 32 ++ refZero b 48 ++
    (if op = 0x10 then [(64, decide (2 ≤ p0))] ++ zeroParams b 2
     else if op = 0x12 then [(64, p0 != 0)] ++ zeroParams b 2
     else if op = 0x13 then [(64, p0 != 0), (72, decide (2 ^ 32 ≤ param b 1))] ++ zeroParams b 2
     else if op = 0x14 then [(64, decide (32 ≤ p0) || p0 % 4 == 3 || (bit p0 2 && bit p0 3))] ++ zeroParams b 1
     else zeroParams b 0)

/-- Field checks of REDUCE (R310). -/
def reduceFields (b : Bytes) : List (Nat × Bool) :=
  let p0 := param b 0
  let ty := bits p0 20 4
  let oty := bits p0 24 4
  let n := param b 1
  let ie := param b 2
  let okTy := stageType ty && stageType oty
  let okN := n != 0 && decide (n ≤ 2 ^ 26)
  refUsed b 32 ++ [(44, okTy && okN && (opRefAt b 32).gran != ceilDiv (n * tySize ty) 64)] ++
  refMaybe b 48 ++ [(60, okTy && okN && !(opRefAt b 48).zero && (opRefAt b 48).gran != ceilDiv (n * tySize oty) 64),
    (64, decide (2 ^ 30 ≤ p0) || !okTy || tyFloat ty != tyFloat oty || bits p0 28 2 == 3),
    (72, !okN),
    (80, decide (2 ^ 27 ≤ ie) || ie == 0 || ie % tyE ty != 0 || decide (65536 < ie * tySize oty))] ++ zeroParams b 3

/-- Field checks of APPEND (R237); `tokenBytes` is 0 where the fen has no shape. -/
def appendFields (tokenBytes : Nat) (b : Bytes) : List (Nat × Bool) :=
  let p0 := param b 0
  let t := bit p0 63
  (if t then refUsed b 32 else refZero b 32) ++ refUsed b 48 ++
  [(60, tokenBytes != 0 && 64 * (opRefAt b 48).gran != param b 2 * tokenBytes),
   (64, bits p0 18 45 != 0 || (t && p0 % 2 ^ 18 != 0)), (72, decide (2 ^ 32 ≤ param b 1)),
   (80, param b 2 == 0 || decide (16777216 < param b 2))] ++ zeroParams b 3

/-- Field checks of the sequence commands (R271–R273). -/
def seqFields (op : Nat) (b : Bytes) : List (Nat × Bool) :=
  let p0 := param b 0
  if op = 0x29 then
    let kind := bit p0 16
    let parent := bit p0 18
    (if kind then refUsed b 32 else refZero b 32) ++ refZero b 48 ++
    [(64, decide (2 ^ 19 ≤ p0) || bits p0 12 4 != 0 || (kind && p0 % 4096 != 0) || (kind && parent)),
     (72, decide (2 ^ 32 ≤ param b 1) || (bit p0 17 && param b 1 != 0)),
     (80, decide (2 ^ 18 ≤ param b 2) || (!parent && param b 2 != 0))] ++ zeroParams b 3
  else refZero b 32 ++ refZero b 48 ++ [(64, decide ((if op = 0x2A then 2 ^ 19 else 2 ^ 18) ≤ p0))] ++ zeroParams b 1

/-- Field checks of a checkpoint command (R325). -/
def ckpFields (op : Nat) (b : Bytes) : List (Nat × Bool) :=
  let p2 := param b 2
  let p4 := param b 4
  let fmt := p2 % 4
  let data := op == 0x31 || op == 0x35
  (if data then refUsed b 32 else refZero b 32) ++ refMaybe b 48 ++
  [(60, !(opRefAt b 48).zero && (opRefAt b 48).gran != 1), (64, decide (64 ≤ param b 0)),
   (72, param b 1 == 0 || decide (2 ^ 63 ≤ param b 1)),
   (80, if op = 0x31 then !(fmt == 1 || fmt == 2) || bits p2 2 30 != 0
        else if op = 0x35 then p2 % 2 ^ 32 != 0
        else if op = 0x33 ∨ op = 0x34 ∨ op = 0x36 then p2 == 0 || decide (1000000 < p2)
        else p2 != 0),
   (88, !data && param b 3 != 0),
   (96, if op = 0x31 then decide (2 ^ 32 ≤ p4) || ceilDiv (p4 * ckpSize fmt) 64 != (opRefAt b 32).gran else p4 != 0)] ++
  zeroParams b 5

/-- Every field check of a descriptor of a fen (R293 step 1). -/
def State.descFields (s : State) (fen : Nat) (b : Bytes) : List (Nat × Bool) :=
  let op := fld b 0 1
  [(0, !opcodeOk s.hasAtt op), (1, decide (2 ≤ fld b 1 1)), (3, fld b 3 1 != 0), (8, !zeroAt b 8 24)] ++
  (if op = 1 then refZero b 32 ++ refZero b 48 ++ zeroParams b 0
   else if op ≤ 0x1B then poolFields op b
   else if op = 0x20 then
     let n := param b 0
     refUsed b 32 ++ [(44, (opRefAt b 32).gran != 2 * n)] ++ refUsed b 48 ++ [(60, (opRefAt b 48).gran != 1),
       (64, n == 0 || decide (16 < n)), (72, decide (2 ^ 32 ≤ param b 1))] ++ zeroParams b 2
   else if op = 0x21 then reduceFields b
   else if op = 0x28 then appendFields (if s.hasShape fen then (s.shape fen).tokenBytes else 0) b
   else if op ≤ 0x2B then seqFields op b
   else ckpFields op b)

/-! What acceptance settles. -/

/-- An operand range to be resolved: its number, the reference, the rights it needs, and whether HOST is allowed. -/
structure Need where
  ref : Nat
  r : OpRef
  rights : Nat
  host : Bool := true
  deriving DecidableEq, Repr

/-- A command that has passed its checks. -/
structure Accepted where
  segs : List Seg := []
  rrefs : List Nat := []
  wrefs : List Nat := []
  base : Nat := 1
  nchunks : Nat := 1
  stages : Bytes := []
  serial : Option Nat := none
  result : Nat := 0
  deriving DecidableEq, Repr

/-- The first status that is not OK, among checks in order. -/
def firstStatus : List Nat → Nat
  | [] => stOK
  | st :: l => if st = stOK then firstStatus l else st

/-- Resolve one range: its segments, or its status (R86, R105, R111). -/
def State.needSegs (s : State) (clid fen : Nat) (n : Need) : Except Nat (List Seg) :=
  let st := s.refCheck clid fen n.rights n.r
  let w := n.rights &&& rtW != 0
  if st ≠ stOK then .error st
  else match s.rangeSegs n.ref n.r.loc n.r.bytes w true with
    | none => .error stRANGE
    | some gs =>
      if !n.host && gs.any fun g => g.tier == tierHOST then .error stRANGE
      else if w && gs.any fun g => (s.ext g.ext).pfx then .error stKEY_DENIED
      else .ok (gs.map fun g => if g.tier = tierHOST then { g with tier := tierPENDING } else g)

/-- Resolve ranges in order. -/
def State.needsSegs (s : State) (clid fen : Nat) : List Need → Except Nat (List Seg)
  | [] => .ok []
  | n :: ns =>
    match s.needSegs clid fen n with
    | .error st => .error st
    | .ok gs => (s.needsSegs clid fen ns).map fun hs => gs ++ hs

/-- References that segments hold. -/
def segRefs (gs : List Seg) (w : Bool) : List Nat := ((gs.filter fun g => g.write == w).map (·.ext)).eraseDups

/-- An acceptance that only resolves ranges. -/
def State.acceptRanges (s : State) (c : Cmd) (ns : List Need) (n : Nat) (res : Nat := 0) : Except (Nat × Nat) Accepted :=
  match s.needsSegs c.clid c.fen ns with
  | .error st => .error (st, 0)
  | .ok gs =>
    if 4096 < gs.length then .error (stRANGE, 0)
    else .ok { segs := gs, rrefs := segRefs gs false, wrefs := segRefs gs true, nchunks := n, result := res }

/-- A table command: its checks, and a reference on each extent that reference 0 overlaps. -/
def State.acceptTable (s : State) (c : Cmd) : Except (Nat × Nat) Accepted :=
  let st := s.tableCheck c 0
  let es := (s.overlapping c.ref0.loc c.ref0.bytes).map (·.1)
  if st ≠ stOK then .error (st, 0)
  else if writesRef0 c.opcode then .ok { wrefs := es } else .ok { rrefs := es }

/-- Whether a client may write a fen's KV region by command (R237, R271). -/
def State.kvRights (s : State) (c : Cmd) : Nat :=
  let g := s.rgn (s.kvRegion c.fen)
  if !g.valid || !rightsCover (s.rights g c.clid c.fen) (rtW + rtC) then stKEY_DENIED
  else if g.fenced then stFENCED else stOK

/-- Statuses of refCheck for ranges, in order. -/
def State.rangeRights (s : State) (c : Cmd) (ns : List Need) : Nat :=
  firstStatus (ns.map fun n => s.refCheck c.clid c.fen n.rights n.r)

/-- What refuses a target of APPEND (R237). -/
def State.appendRefusal (s : State) (c : Cmd) : Nat :=
  let pos := c.appPos
  if c.appTarget then
    match s.oneExtent c.ref0 with
    | none => stRANGE
    | some (_, e) =>
      if e.pfx then stKEY_DENIED
      else if !s.prefixImage c.fen e.lo || pos != s.imageTokens e.lo then stRANGE else stOK
  else
    let e := s.seq c.fen c.appSeq
    if s.seqEntries c.fen ≤ c.appSeq then stKEY_DENIED
    else if e.state != sqJOINING || pos != e.length then stRANGE else stOK

/-- Acceptance of APPEND. -/
def State.acceptAppend (s : State) (c : Cmd) : Except (Nat × Nat) Accepted :=
  let ns : List Need := (if c.appTarget then [⟨0, c.ref0, rtW + rtC, false⟩] else []) ++ [⟨1, c.ref1, rtR + rtC, false⟩]
  let st := if !s.hasShape c.fen then stNO_RESOURCE
    else firstStatus [s.kvRights c, s.rangeRights c ns, s.appendRefusal c]
  if st ≠ stOK then .error (st, 0)
  else s.acceptRanges c ns (c.appChunks (s.appBase c).1) c.appPos

/-- Acceptance of SEQ_JOIN, SEQ_LEAVE and SEQ_RESUME (R271–R273). -/
def State.acceptSeq (s : State) (c : Cmd) : Except (Nat × Nat) Accepted :=
  let ns : List Need := if c.opcode = 0x29 && bit c.p0 16 then [⟨0, c.ref0, rtR + rtC, false⟩] else []
  let st := if c.opcode = 0x29 && !s.hasShape c.fen then stNO_RESOURCE
    else firstStatus [s.kvRights c, s.rangeRights c ns]
  if st ≠ stOK then .error (st, 0)
  else if !ns.isEmpty && (s.oneExtent c.ref0).isNone then .error (stRANGE, 0)
  else s.acceptRanges c ns 1

/-- Acceptance of REDUCE (R310): R165's KEY_DENIED conditions, then its ranges. -/
def State.acceptReduce (s : State) (c : Cmd) : Except (Nat × Nat) Accepted :=
  let t := Tab.getD s.cfg.trees (c.p0 % 4096) {}
  let port := ((Tab.find? s.cfg.police c.clid).map (·.port)).getD 32
  if !t.valid || t.fen != c.fen || !bit t.memberPorts port then .error (stKEY_DENIED, 0)
  else
    s.acceptRanges c ([⟨0, c.ref0, rtR + rtC, true⟩] ++ (if c.ref1.zero then [] else [⟨1, c.ref1, rtW + rtC, true⟩]))
      (ceilDiv c.p1 c.p2)

/-- Acceptance of a checkpoint command (R325–R327): its set, the rights in the area's region, its ranges and the state of
its slot; it holds a reference on the area. -/
def State.acceptCkp (s : State) (c : Cmd) : Except (Nat × Nat) Accepted :=
  match s.ckpSet c.ckpSetNo with
  | none => .error (stRANGE, 0)
  | some z =>
    let op := c.opcode
    let a := z.own.area
    let need := rtW + rtC
    let ns : List Need := (if op = 0x31 then [⟨0, c.ref0, rtR + rtC, true⟩]
        else if op = 0x35 then [⟨0, c.ref0, rtW + rtC, true⟩] else []) ++
      (if c.ref1.zero then [] else [⟨1, c.ref1, rtW + rtC, true⟩])
    let len := (1 + 2 * z.slotUnits) * unitBytes
    let own := if z.fen != c.fen then stKEY_DENIED else s.regionCheck c.clid c.fen z.own.region z.own.key need a len
    let st := firstStatus [own, s.rangeRights c ns]
    if st ≠ stOK then .error (st, 0)
    else match s.extAt a with
      | none => .error (stRANGE, 0)
      | some (i, e) =>
        let hs := s.areaSegs z (slotHeader 0) 512
        if e.hi < a + len || e.lo != a then .error (stRANGE, 0)
        else match s.readFault hs with
          | some st => .error (st, 0)
          | none =>
            if !s.ckpMay z op c.epoch then .error (stRANGE, 0)
            else
              let n := if op = 0x31 then ceilDiv ((c.p4 % 2 ^ 32) * ckpSize c.ckpFmt) 65536
                else if op = 0x35 ∨ op = 0x37 then max 1 (hdUnits (s.ckpHeader z c.epoch)) else 1
              let reads := op == 0x35 || op == 0x37
              match s.acceptRanges c ns n with
              | .error x => .error x
              | .ok r => .ok (if reads then { r with rrefs := (i :: r.rrefs).eraseDups }
                  else { r with wrefs := (i :: r.wrefs).eraseDups, serial := some c.ckpSetNo })

/-- The ranges of a CHAIN's stages. -/
def chainNeeds (ts : List Stage) : List Need :=
  ((ts.zipIdx.map fun (t, i) => (stageRefs i t).map fun (n, r, rt, _) => (⟨n, r, rt, true⟩ : Need))).flatten

/-- Local ranges of references: start, end, and whether the chain writes there. -/
def needSpans (ns : List Need) : List (Nat × Nat × Bool) :=
  ns.map fun n => (n.r.loc, n.r.loc + n.r.bytes, n.rights &&& rtW != 0)

/-- Whether an output range overlaps any other range (R201). -/
def spansClash (l : List (Nat × Nat × Bool)) : Bool :=
  l.zipIdx.any fun (a, i) => a.2.2 && l.zipIdx.any fun (b, j) => i != j && decide (a.1 < b.2.1) && decide (b.1 < a.2.1)

/-- Read an accepted range at acceptance: a stage list or a predicate list (R201). -/
def State.readNow (s : State) (c : Cmd) (n : Need) : Except Nat Bytes :=
  match s.needSegs c.clid c.fen { n with host := false } with
  | .error st => .error st
  | .ok gs => match s.readFault gs with
    | some st => .error st
    | none => .ok (s.readPieces gs)

/-- The predicate lists of a chain's FILTER stages, 128 bytes for every stage. -/
def State.readPreds (s : State) (c : Cmd) : List (Stage × Nat) → Except Nat Bytes
  | [] => .ok []
  | (t, i) :: l =>
    match (if t.op = sFILTER then s.readNow c ⟨refC i, t.c, rtR + rtC, false⟩ else .ok (List.replicate 128 0)) with
    | .error st => .error st
    | .ok b => (s.readPreds c l).map fun r => padTo 128 b ++ r

/-- Acceptance of CHAIN (R201). -/
def State.acceptChain (s : State) (c : Cmd) : Except (Nat × Nat) Accepted :=
  let n := c.p0 % 32
  let lists : List Need := [⟨0, c.ref0, rtR + rtC, false⟩, ⟨1, c.ref1, rtW + rtC, true⟩]
  match s.readNow c ⟨0, c.ref0, rtR + rtC, false⟩ with
  | .error st => .error (st, 0)
  | .ok b =>
    let b := padTo (128 * n) b
    match firstBad ((chainChecks n b).filter fun k => k.1 < 2176) with
    | some o => .error (stMALFORMED, o)
    | none =>
      match s.readPreds c ((List.range n).map fun i => (stageAt b n i, i)) with
      | .error st => .error (st, 0)
      | .ok ps =>
        let b := b ++ ps
        let ts := (List.range n).map (stageAt b n)
        match firstBad (chainChecks n b) with
        | some o => .error (stMALFORMED, o)
        | none =>
          let ns := lists ++ chainNeeds ts
          match s.acceptRanges c ns 1 with
          | .error x => .error x
          | .ok r =>
            let base := ceilDiv (65536 + chainState ts) 65536
            if spansClash (needSpans ns) then .error (stRANGE, 0)
            else .ok { r with stages := b, base := base }

/-- Opcode checks and translation of a descriptor (R293 steps 2 and 3). -/
def State.acceptOp (s : State) (c : Cmd) : Except (Nat × Nat) Accepted :=
  let op := c.opcode
  let n := ceilDiv c.ref0.bytes 65536
  let r := if op = 1 then .ok {}
    else if op ≤ 0x17 then s.acceptTable c
    else if op = 0x18 then s.acceptRanges c [⟨0, c.ref0, rtW + rtC, true⟩] n
    else if op = 0x19 then s.acceptRanges c [⟨0, c.ref0, rtW + rtC, true⟩, ⟨1, c.ref1, rtR + rtC, true⟩] n
    else if op = 0x1A then
      s.acceptRanges c [⟨0, c.ref0, rtR + rtC, true⟩, ⟨1, c.ref1, rtR + rtC, true⟩] n (2 ^ 64 - 1)
    else if op = 0x1B then
      s.acceptRanges c [⟨0, c.ref0, rtR + rtW + rtC, true⟩, ⟨1, c.ref1, rtR + rtC, true⟩] n
    else if op = 0x20 then s.acceptChain c
    else if op = 0x21 then s.acceptReduce c
    else if op = 0x28 then s.acceptAppend c
    else if op ≤ 0x2B then s.acceptSeq c
    else s.acceptCkp c
  match r with
  | .error x => .error x
  | .ok a => if s.stageCap c.fen < a.base then .error (stNO_RESOURCE, 0) else .ok a

/-! Fetch (R284, R288, R292, R293). -/

/-- Whether MH may fetch from a ring (R292). -/
def State.fetchable (s : State) (r : Ring) : Bool :=
  r.state == ringACTIVE && s.fenState r.fen == fenRUNNING && r.sqTail != r.fetchHead &&
    decide (s.rd Reg.CMD_FEN_CTX_USED r.fen < 512) &&
    decide (r.outstanding < 2 ^ r.cqLog2 - (r.cqTail + 65536 - r.cqHead) % 65536)

/-- The ring that is fetched next: by class, and in rotation within a class; one whose doorbell still waits for writes is
passed over (R288). -/
def State.fetchFrom (s : State) : Option (Nat × Ring) :=
  let ok := s.cmd.rings.filter fun r => s.fetchable r.2 && r.2.waits.isEmpty
  ((List.range 4).filterMap fun k =>
    let mine := ok.filter fun r => pairClass r.1 == k
    let last := Tab.find? s.cmd.lastServed k
    match mine.find? (fun r => match last with
        | some p => decide (p < r.1)
        | none => true) with
    | some r => some r
    | none => mine.head?).head?

/-- Complete a fetched descriptor that is not accepted. -/
def State.refuseDesc (s : State) (c : Cmd) (st malf : Nat) : State :=
  let c := if c.opcode = 0x28 && !c.appTarget && (s.seq c.fen c.appSeq).state != sqFREE then
    { c with result := (s.seq c.fen c.appSeq).length } else c
  let s := if st = stRETRY then s.bump Reg.CMD_CNT_ACC_RETRY else s
  let s := if isCkp c.opcode then s.noteCkpEnd c.opcode st else s
  let s := if st = stMALFORMED then s else s.noteRefused c st
  s.writeEntry c st malf

/-- The translation requests of a command's HOST ranges (R112). -/
def State.askXlates (s : State) (cid : Nat) (gs : List Seg) : State :=
  (gs.filter fun g => g.tier == tierPENDING).foldl (fun s g =>
    let x : Xlate := { cid := cid, ref := g.ref, handle := (s.ext g.ext).loc % 2 ^ 32, offset := g.at_, length := g.len
                       write := g.write, ext := g.ext }
    s.upPool fun b => { b with xlates := Tab.put b.xlates b.nextTag x, nextTag := b.nextTag + 1 }) s

/-- Accept a descriptor: its references are raised, moves that it writes over end, and it waits for translations or for
staging (R94, R111, R293). -/
def State.acceptDesc (s : State) (c : Cmd) (a : Accepted) : State :=
  match s.raiseRefs a.rrefs a.wrefs with
  | none => s.refuseDesc c stRETRY 0
  | some s' =>
    let host := a.segs.any fun g => g.tier == tierPENDING
    if host && !s'.on Reg.POOL_HXQ_CTL_ENABLE then s.refuseDesc c stTIMEOUT 0
    else
      let s := a.wrefs.foldl (fun s i => s.abortMove i stABORTED) s'
      let c := { c with segs := a.segs, rrefs := a.rrefs, wrefs := a.wrefs, base := a.base, nchunks := a.nchunks
                        stages := a.stages, serial := a.serial, result := a.result
                        phase := if host then .translating else .staging }
      let (s, cid) := s.addCmd c
      ((s.askXlates cid a.segs).postXlates).syncCmd c.fen

/-- DESCRIPTOR_FETCH: one descriptor is fetched and taken through acceptance (R288, R292, R293). -/
def descriptorFetch (s : State) : State :=
  match s.fetchFrom with
  | none => s
  | some (p, r) =>
    let a := r.sqBase + 128 * (r.fetchHead % 2 ^ r.sqLog2)
    let e := s.ext r.sqExt
    let s := s.upCmd fun b => { b with lastServed := Tab.put b.lastServed (pairClass p) p }
    if s.badRange e.tier (e.at_ a) 128 then (s.noteBad e.tier (e.at_ a) 128).ringError p
    else
      let d := s.readTier e.tier (e.at_ a) 128
      let s := s.upRing p fun r => { r with fetchHead := (r.fetchHead + 1) % 65536, outstanding := r.outstanding + 1 }
      let s := s.bump Reg.CMD_CNT_ACCEPT
      let c : Cmd := { pair := p, slot := r.fetchHead, fen := r.fen, clid := p / 4, cls := pairClass p, opcode := fld d 0 1
                       ordered := bit (fld d 1 1) 0, par := fld d 2 1, cmdId := fld d 4 4, desc := d, acceptedAt := s.hclk }
      match firstBad (s.descFields r.fen d) with
      | some o => s.refuseDesc c stMALFORMED o
      | none => match s.acceptOp c with
        | .error (st, o) => s.refuseDesc c st o
        | .ok x => s.acceptDesc c x

/-- DESCRIPTOR_FETCH. -/
def execDescriptorFetch (s : State) : Host.Outcome State Fault Refusal := .next (descriptorFetch s)

end Sys2Proof.Machine
end

