-- ==== Sys2Proof/Machine/CmdRows.lean ====
section
/-!
DEFINITION. The command engine's rows (chapter 09): NOP, REDUCE, staging, dispatch, commit, ageing, shields, the ring table,
and the deadlines and timeouts of tray reads (R98, R99).
Marks: DEDUCED 25, 30, in notes/assumptions.
-/
namespace Sys2Proof.Machine

/-- NOP (R291). -/
def nop (cid : Nat) (s : State) : State :=
  match s.tableCmd cid 0x01 with
  | none => s
  | some _ => (s.upCid cid fun c => { c with committed := 1 }).finish cid stOK

/-! REDUCE (R310–R312). -/

def Cmd.rType (c : Cmd) : Nat := bits c.p0 20 4
def Cmd.rOtype (c : Cmd) : Nat := bits c.p0 24 4
/-- Tree, and TAG of chunk `k`. -/
def Cmd.rTree (c : Cmd) : Nat := c.p0 % 4096
def Cmd.rTag (c : Cmd) (k : Nat) : Nat := (bits c.p0 12 8 + k) % 256
/-- First element and number of elements of instance `k`. -/
def Cmd.rRange (c : Cmd) (k : Nat) : Nat × Nat := (k * c.p2, min c.p2 (c.p1 - k * c.p2))

/-- The contribution packets of instance `k`, from its source data (R163, R311). -/
def Cmd.contributions (c : Cmd) (endpoint src seq k : Nat) (d : Bytes) : List Packet :=
  let ty := c.rType
  let per := tyE ty * tySize ty
  let n := ceilDiv d.length per
  (List.range n).map fun j =>
    let b := (d.drop (per * j)).take per
    Packet.seal
      { dst := endpoint, src := src, opcode := opREDUCE_CONTRIB, flags := c.cls, len := b.length, seq := (seq + j) % 2 ^ 32
        addr := (endpoint - 0xF000) * 2 ^ 46 + j * tyE ty
        arg := c.rTree + 2 ^ 12 * c.rTag k + 2 ^ 20 * ty + 2 ^ 24 * c.rOtype + 2 ^ 28 * bits c.p0 28 2 +
          2 ^ 30 * b2n (!c.ref1.zero) + 2 ^ 31 * b2n (j + 1 == n), payload := b }

/-- Whether chunk `k` must wait before it opens or re-opens its instance: an earlier instance of the command had the TAG
and `RED_KEEP` has not passed (R311), or a kept RETRY outcome stands in the way of its re-run (R312). -/
def State.reduceWaits (s : State) (c : Cmd) (k : Nat) (x : Chunk) : Bool :=
  let kept := match (Tab.find? s.red.insts (redKey c.rTree (c.rTag k))).bind (·.outcome) with
    | some (st, _) => st == stRETRY && x.again
    | none => false
  let early := !Tab.has c.times k && decide (256 ≤ k) &&
    (match Tab.find? c.times (k - 256) with
      | some t => t == 0 || decide (s.hclk < t + usToHclk (s.rd Reg.RED_KEEP_US))
      | none => true)
  kept || early

/-- Hand the contributions of chunk `k` to the engine of the client's port. -/
def State.contribute (s : State) (cid k : Nat) (c : Cmd) (x : Chunk) : State :=
  let (e0, n) := c.rRange k
  let w := tySize c.rType
  let ps := c.pieces 0 (e0 * w) (n * w)
  match s.readFault ps with
  | some st => s.readFailed cid k st ps fun st s => s.finish cid st
  | none =>
    if !Tab.has s.red.insts (redKey c.rTree (c.rTag k)) && decide (16384 ≤ s.red.insts.length) then s.finish cid stNO_RESOURCE
    else if s.reduceWaits c k x then s
    else
      let r := (Tab.find? s.cfg.police c.clid).getD {}
      let t := Tab.getD s.cfg.trees c.rTree {}
      let pk := c.contributions s.endpoint r.endpoint s.fab.nextSeq k (s.readPieces ps)
      let s := s.upFab fun b => { b with nextSeq := (b.nextSeq + pk.length) % 2 ^ 32 }
      let s := s.upCid cid fun c => { c with times := if Tab.has c.times k then c.times else Tab.put c.times k 0 }
      let s := s.upChunk cid k fun x => { x with vals := [1] }
      pk.foldl (fun s p => s.redAccept t p r.port (some (cid, k))) s

/-- The results of an instance, as bytes of `n` elements. -/
def RedInst.resultBytes (i : RedInst) (n : Nat) : Bytes :=
  ((((i.chunks.map fun c => c.2.results).flatten).map (·.payload)).flatten).take (n * tySize i.otype)

/-- REDUCE: chunk `k` contributes its instance, or takes its outcome (R311, R312). -/
def reduce (cid k : Nat) (s : State) : State :=
  match s.runningChunk cid k with
  | none => s
  | some (c, x, _) =>
    if c.opcode ≠ 0x21 || c.src ≠ 0 then s
    else if x.timedOut then s.finish cid stTIMEOUT
    else if x.vals.isEmpty then s.contribute cid k c x
    else match Tab.find? s.red.insts (redKey c.rTree (c.rTag k)) with
      | none => s.upChunk cid k fun x => { x with vals := [] }
      | some i =>
        match i.outcome with
        | none => s
        | some (st, t) =>
          let s := s.upCid cid fun c => { c with times := Tab.put c.times k t }
          if st ≠ stOK then s.finish cid st
          else
            let (e0, n) := c.rRange k
            let w := tySize c.rOtype
            let ws := if c.ref1.zero then [] else stagePieces (c.pieces 1 (e0 * w) (n * w)) (i.resultBytes n)
            s.stage cid k fun x => { x with writes := ws, flags := i.flags, vals := [n] }

/-- Commit a staged chunk of REDUCE. -/
def State.reduceCommit (s : State) (cid k : Nat) (c : Cmd) (x : Chunk) : State :=
  let s := s.performAll x.writes
  let s := s.upCid cid fun c => { c with committed := k + 1, result := c.result + x.vals.getD 0 0
                                         rflags := c.rflags ||| x.flags, chunks := Tab.del c.chunks k }
  if k + 1 < c.nchunks then s else s.finish cid stOK

/-! Staging (R294). -/

/-- The oldest command of a fen and class that waits for base staging. -/
def State.oldestWaiting (s : State) (fen cls : Nat) : Option (Nat × Cmd) :=
  List.find? (fun c => c.2.fen == fen && c.2.cls == cls && c.2.phase == CmdPhase.staging) s.cmd.cmds

/-- STAGING_ADMIT: the command of a fen that R294 admits next is given its base staging. -/
def stagingAdmit (fen : Nat) (s : State) : State :=
  let pick := ((List.range 4).filterMap fun k => s.oldestWaiting fen k).find? fun c => s.stageFits fen c.2.cls c.2.base
  match pick with
  | none => s
  | some (cid, _) =>
    ((s.upCid cid fun c => { c with phase := .ready, readyAt := s.hclk }).syncCmd fen).preempt

/-! Dispatch (R301, R304–R306). -/

/-- CHUNK_DISPATCH: an idle cluster is given the first waiting chunk that may run on it; a chunk takes the lowest-numbered
idle cluster. -/
def chunkDispatch (cluster : Nat) (s : State) : State :=
  if !s.idle cluster || s.fatal then s
  else
    let ok := fun (w : Waiting) =>
      let cs := s.clustersOf w
      cs.contains cluster && cs.all fun x => decide (cluster ≤ x) || !s.idle x
    match s.waiting.find? ok with
    | none => s
    | some w =>
      match s.cmdOf w.cid with
      | none => s
      | some c =>
        let x := Tab.getD c.chunks w.k { readyAt := c.readyAt }
        let extra := c.needsExtra && c.src != 2
        let y : Chunk := { x with phase := .running, cluster := cluster, dispatchedAt := s.hclk, progress := s.hclk
                                  extra := extra, late := [], timedOut := false }
        let s := s.upCid w.cid fun c =>
          { c with chunks := Tab.put c.chunks w.k y, next := max c.next (w.k + 1), rerun := c.rerun || x.again }
        let s := s.upCmd fun b => { b with running := Tab.put b.running cluster (w.cid, w.k) }
        let s := match Tab.find? s.cmd.killedAt cluster with
          | some t => (s.raise Reg.CMD_KILL_MAX_NS (s.sinceNs t)).upCmd fun b => { b with killedAt := Tab.del b.killedAt cluster }
          | none => s
        let s := if w.cls = 0 then s.raise Reg.CMD_RT_WAIT_MAX_NS (s.sinceNs w.readyAt) else s
        (s.syncCmd c.fen).preempt

/-! Commit (R302, R303, R308). -/

/-- CHUNK_COMMIT: the lowest uncommitted chunk of a command, once its work is staged, commits; a chunk of a GATHER_REQ does
its work and sends its rows. -/
def chunkCommit (cid : Nat) (s : State) : State :=
  match s.cmdOf cid with
  | none => s
  | some c =>
    let k := c.committed
    match (if s.fatal then none else Tab.find? c.chunks k) with
    | none => s
    | some x =>
      if c.src = 1 then (if x.phase = .running then (s.gatherCommit cid k c x).preempt else s)
      else if c.src = 2 || x.phase != .staged then s
      else
        let op := c.opcode
        let s := if op = 0x20 then s.chainCommit cid k c x
          else if op = 0x21 then s.reduceCommit cid k c x
          else if op = 0x28 then s.appendCommit cid k c x
          else if isCkp op then s.ckpCommitChunk cid k c x
          else s.dataCommit cid k c x
        (s.syncCmd c.fen).preempt

/-- CHUNK_AGE: a chunk that has waited `CMD_AGE` µs is raised one effective class, up to LAT (R301). -/
def chunkAge (cid k : Nat) (s : State) : State :=
  match s.cmdOf cid with
  | none => s
  | some c =>
    let x := Tab.getD c.chunks k { readyAt := c.readyAt, ageFrom := c.readyAt }
    let t := max x.readyAt x.ageFrom
    if c.phase != .ready || c.nextChunk != some k || decide (c.cls ≤ 1 + x.raises) ||
        decide (s.sinceUs t < max 1 (s.rd Reg.CMD_AGE_US)) then s
    else
      (s.upCid cid fun c => { c with chunks := Tab.put c.chunks k { x with raises := x.raises + 1, ageFrom := s.hclk } }).bump
        Reg.CMD_CNT_AGED

/-- SHIELD_LAPSE (R306, R62). -/
def shieldLapse (cid : Nat) (s : State) : State :=
  match s.cmdOf cid with
  | none => s
  | some c =>
    match c.shieldAt with
    | none => s
    | some t =>
      if s.sinceUs t < s.rd Reg.CMD_SHIELD_MAX_US then s
      else
        let s := (s.upCid cid fun c => { c with shieldAt := none, kills := 0 }).bump Reg.CMD_CNT_LAPSE
        let s := if s.fenQuiet c.fen then s.requeueAll cid else s
        s.preempt

/-! The ring table (R282, R283, R315). -/

def State.ringEnd (s : State) (st : Nat) : State := s.setEnd Reg.CMD_RING_STATUS_STATUS Reg.CMD_RING_STATUS_DONE st

/-- Ring READ. -/
def State.ringRead (s : State) : State :=
  let r := s.ring (s.rd Reg.CMD_RING_INDEX_PAIR)
  let s := ((s.wr Reg.CMD_RING_DATA0 (r.sqBase % 2 ^ 32)).wr Reg.CMD_RING_DATA1 (r.sqBase / 2 ^ 32)).wr Reg.CMD_RING_DATA2
    (r.cqBase % 2 ^ 32)
  let s := ((s.wr Reg.CMD_RING_DATA3 (r.cqBase / 2 ^ 32)).wr Reg.CMD_RING_DATA4_SQ_LOG2 r.sqLog2).wr
    Reg.CMD_RING_DATA4_CQ_LOG2 r.cqLog2
  let s := ((s.wr Reg.CMD_RING_DATA4_STATE r.state).wr Reg.CMD_RING_DATA4_ERR_STATUS r.err).wr Reg.CMD_RING_DATA5_SQ_TAIL r.sqTail
  let s := ((s.wr Reg.CMD_RING_DATA5_FETCH_HEAD r.fetchHead).wr Reg.CMD_RING_DATA6_CQ_TAIL r.cqTail).wr
    Reg.CMD_RING_DATA6_CQ_HEAD r.cqHead
  (s.wr Reg.CMD_RING_DATA7_OUTSTANDING r.outstanding).ringEnd stOK

/-- The extent in which a ring of a client's fen may lie (R282). -/
def State.ringExt (s : State) (fen a n : Nat) : Option Nat :=
  match s.extAt a with
  | none => none
  | some (i, e) =>
    if e.state = exRESIDENT && !e.pfx && e.tier == tierNEAR && e.fen == fen && decide (a + n ≤ e.hi) then some i else none

/-- Ring REGISTER: its checks, the zero-fill of the CQ, and the ring ACTIVE. -/
def State.ringRegister (s : State) : State :=
  let p := s.rd Reg.CMD_RING_INDEX_PAIR
  let at_ := fun (lo hi : Fld) => (s.rd lo + 2 ^ 32 * (s.rd hi % 2 ^ 14)) / 4096 * 4096
  let sq := at_ Reg.CMD_RING_DATA0 Reg.CMD_RING_DATA1
  let cq := at_ Reg.CMD_RING_DATA2 Reg.CMD_RING_DATA3
  let sl := s.rd Reg.CMD_RING_DATA4_SQ_LOG2
  let cl := s.rd Reg.CMD_RING_DATA4_CQ_LOG2
  let sn := 128 * 2 ^ sl
  let cn := 32 * 2 ^ cl
  if (s.ring p).state != ringDISABLED then s.ringEnd stRETRY
  else match Tab.find? s.cfg.police (p / 4) with
    | none => s.ringEnd stRANGE
    | some r =>
      if !r.valid || decide (64 ≤ r.fen) || sl < 4 || cl < 4 || (decide (sq < cq + cn) && decide (cq < sq + sn)) then s.ringEnd stRANGE
      else match s.ringExt r.fen sq sn, s.ringExt r.fen cq cn with
        | some i, some j =>
          let e := s.ext j
          let s := (s.zeroTier e.tier (e.at_ cq) cn).mendKeys (granKeys e.tier (e.at_ cq) cn)
          let s := match Tab.find? s.pool.moves j with
            | some m => s.zeroTier m.destTier (locByte m.destTier m.dest + (cq - e.lo)) cn
            | none => s
          (s.upRing p fun _ => { sqBase := sq, cqBase := cq, sqLog2 := sl, cqLog2 := cl, state := ringACTIVE, fen := r.fen
                                 sqExt := i, cqExt := j }).ringEnd stOK
        | _, _ => s.ringEnd stRANGE

/-- Ring UNREGISTER. -/
def State.ringUnregister (s : State) : State :=
  let p := s.rd Reg.CMD_RING_INDEX_PAIR
  let r := s.ring p
  let st := s.fenState r.fen
  if r.state = ringDISABLED then s.ringEnd stRANGE
  else if r.outstanding != 0 || !(st == fenQUIESCED || st == fenUNUSED) then s.ringEnd stRETRY
  else (s.upRing p fun _ => {}).ringEnd stOK

/-- Ring RESET. -/
def State.ringReset (s : State) : State :=
  let p := s.rd Reg.CMD_RING_INDEX_PAIR
  let r := s.ring p
  if r.state = ringDISABLED then s.ringEnd stRANGE
  else if r.outstanding != 0 then s.ringEnd stRETRY
  else if r.state = ringERROR then
    (s.upRing p fun r => { r with state := ringACTIVE, err := 0, sqTail := 0, fetchHead := 0, cqTail := 0, cqHead := 0
                                  waits := [] }).ringEnd stOK
  else s.ringEnd stOK

/-! Tray reads (R98, R99). -/

/-- The tray deadline of a command's reads, ns; 0 is none (R98, R197, R219, R243). -/
def State.trayDeadline (s : State) (c : Cmd) : Nat :=
  let dl := s.rd Reg.POOL_TRAY_DL_NS
  let or := fun (a b : Nat) => if a = 0 then b else a
  if c.src = 1 then or c.pkt.gDeadline dl
  else if c.src = 2 then or (fld c.desc 12 4) (or (s.rd Reg.ATT_DEADLINE_NS c.fen) dl)
  else if c.opcode = 0x20 && c.stageList.any (fun t => t.op == sGATHER || t.op == sDISPATCH || t.op == sCOMBINE) then
    or (c.p1 % 2 ^ 32) dl
  else 0

/-- TRAY_READ_DEADLINE: the read of a row or block of a running chunk has passed its deadline (R98). -/
def trayReadDeadline (cid k item : Nat) (s : State) : State :=
  match s.runningChunk cid k with
  | none => s
  | some (c, x, _) =>
    let dl := s.trayDeadline c
    if dl = 0 || decide (s.sinceNs x.dispatchedAt ≤ dl) || x.late.contains item then s
    else (s.upChunk cid k fun x => { x with late := x.late ++ [item] }).bump Reg.POOL_CNT_LATE

/-- TRAY_READ_TIMEOUT: a tray read without a deadline reaches the end-to-end timeout (R99). -/
def trayReadTimeout (t : TrayRead) (s : State) : State :=
  match t with
  | .fabric =>
    match s.takeHome .read with
    | none => s
    | some (q, s') =>
      let p := q.pkt
      if (s'.preCheck q false).isSome || p.inWindow then s
      else
        let (c, f) := s'.who q
        match s'.resolve c f rtR p p.len with
        | (_, some (_, e)) =>
          if e.tier != tierTRAY || decide (s.hclk < q.rx + s.timeoutHclk) then s else s'.refuse q stTIMEOUT
        | _ => s
  | .chunk cid k =>
    match s.runningChunk cid k with
    | none => s
    | some (c, x, _) =>
      let tray := (c.segs ++ (match (if isCkp c.opcode then s.ckpSet c.ckpSetNo else none) with
        | some z => s.areaSegs z 0 1
        | none => [])).any fun g => g.tier == tierTRAY
      if !tray || s.trayDeadline c != 0 || decide (s.hclk < x.dispatchedAt + s.timeoutHclk) then s
      else s.upChunk cid k fun x => { x with timedOut := true }
  | .move i =>
    match Tab.find? s.pool.moves i with
    | none => s
    | some m =>
      if m.srcTier != tierTRAY || m.units ≤ m.copied || !s.mayCopy m || decide (s.hclk < m.began + s.timeoutHclk) then s
      else s.abortMove i stTIMEOUT

/-- NOP. -/
def execNop (cid : Nat) (s : State) : Host.Outcome State Fault Refusal := .next (nop cid s)
/-- REDUCE. -/
def execReduce (cid k : Nat) (s : State) : Host.Outcome State Fault Refusal := .next (reduce cid k s)
/-- STAGING_ADMIT. -/
def execStagingAdmit (fen : Nat) (s : State) : Host.Outcome State Fault Refusal := .next (stagingAdmit fen s)
/-- CHUNK_DISPATCH. -/
def execChunkDispatch (cluster : Nat) (s : State) : Host.Outcome State Fault Refusal := .next (chunkDispatch cluster s)
/-- CHUNK_COMMIT. -/
def execChunkCommit (cid : Nat) (s : State) : Host.Outcome State Fault Refusal := .next (chunkCommit cid s)
/-- CHUNK_AGE. -/
def execChunkAge (cid k : Nat) (s : State) : Host.Outcome State Fault Refusal := .next (chunkAge cid k s)
/-- SHIELD_LAPSE. -/
def execShieldLapse (cid : Nat) (s : State) : Host.Outcome State Fault Refusal := .next (shieldLapse cid s)
/-- RING_READ. -/
def execRingRead (a : Access) (s : State) : Host.Outcome State Fault Refusal :=
  .next (State.window a 0x800104 (fun s => (s.wr Reg.CMD_RING_OP_CODE 1).ringRead) s)
/-- RING_REGISTER. -/
def execRingRegister (a : Access) (s : State) : Host.Outcome State Fault Refusal :=
  .next (State.window a 0x800104 (fun s => (s.wr Reg.CMD_RING_OP_CODE 2).ringRegister) s)
/-- RING_UNREGISTER. -/
def execRingUnregister (a : Access) (s : State) : Host.Outcome State Fault Refusal :=
  .next (State.window a 0x800104 (fun s => (s.wr Reg.CMD_RING_OP_CODE 3).ringUnregister) s)
/-- RING_RESET. -/
def execRingReset (a : Access) (s : State) : Host.Outcome State Fault Refusal :=
  .next (State.window a 0x800104 (fun s => (s.wr Reg.CMD_RING_OP_CODE 4).ringReset) s)
/-- TRAY_READ_DEADLINE. -/
def execTrayReadDeadline (cid k item : Nat) (s : State) : Host.Outcome State Fault Refusal :=
  .next (trayReadDeadline cid k item s)
/-- TRAY_READ_TIMEOUT. -/
def execTrayReadTimeout (t : TrayRead) (s : State) : Host.Outcome State Fault Refusal := .next (trayReadTimeout t s)

end Sys2Proof.Machine
end

