-- ==== Sys2Proof/Machine/ImageCheck.lean ====
section
/-!
DEFINITION. Reading and validating a structure image (chapter 02, R42–R57): the phases of R55 in order, the first failure
reported with its status (R56), its section and its offset.  A section is numbered by its TYPE, the header and the
directory are 0, the signature block is 9 (R68).
Marks: DEDUCED 15, in notes/assumptions.
-/
namespace Sys2Proof.Machine

/-- RESULT codes of R56. -/
def imgOk : Nat := 0x00
def imgBadHeader : Nat := 0x01
def imgBadLength : Nat := 0x02
def imgWrongPart : Nat := 0x03
def imgBadDirectory : Nat := 0x04
def imgBadSignature : Nat := 0x05
def imgFieldRange : Nat := 0x06
def imgCrossCheck : Nat := 0x07
def imgOutsideFull : Nat := 0x08
def imgForeign : Nat := 0x09
def imgOverCapacity : Nat := 0x0A
def imgInUse : Nat := 0x0B
def imgNotQuiesced : Nat := 0x0C
def imgSerial : Nat := 0x0D
def imgTooLate : Nat := 0x0E
def imgBusy : Nat := 0x0F

/-- A refusal of an image: R56 code, section, offset of the failing field (R55). -/
structure ImgErr where
  status : Nat
  sect : Nat
  offset : Nat
  deriving DecidableEq, Repr

/-- What one fen holds of each reservation now (R57 IN_USE). -/
structure FenUse where
  seq : Nat := 0
  near : Nat := 0
  tray : Nat := 0
  capring : Nat := 0
  red : Nat := 0
  staging : Nat := 0
  regions : Nat := 0
  extents : Nat := 0
  /-- Channel groups that hold extents of the fen. -/
  groups : Nat := 0
  deriving DecidableEq, Repr

/-- What validation reads of the device. -/
structure ImgCtx where
  code : Nat
  att : Bool
  groupBytes : Nat
  fullSerial : Nat
  haveFull : Bool
  fenSerial : Tab Nat
  slots : Tab Bytes
  ports : Tab PortRec
  fens : Tab FenRec
  localHome : Option Nat
  routeHomes : List Nat
  trees : Tab TreeRec
  police : Tab PoliceRec
  limits : Tab LimitsRec
  use : Tab FenUse
  /-- Clients that hold leases or rings. -/
  busyClients : List Nat
  deriving DecidableEq, Repr

/-- One check: status, section, offset, and whether it passes. -/
structure ImgChk where
  status : Nat
  sect : Nat
  offset : Nat
  ok : Bool
  deriving DecidableEq, Repr

/-- The first check that fails. -/
def firstFail (l : List ImgChk) : Option ImgErr :=
  (l.find? fun c => !c.ok).map fun c => ⟨c.status, c.sect, c.offset⟩

/-- Record bytes for a section TYPE (R44). -/
def secSize (t : Nat) : Nat := ([0, 16, 48, 16, 32, 40, 16, 16, 64] : List Nat).getD t 0

/-- Most records of a section TYPE (R44). -/
def secMax (t : Nat) : Nat := ([0, 32, 64, 5121, 4096, 4096, 256, 8224, 65] : List Nat).getD t 0

/-- Length of the signature block (R45). -/
def sigLen : Nat := 112

/-- Phase 1 of R55: length received, then the header fields in ascending offset (R42). -/
def imgPhase1 (c : ImgCtx) (b : Bytes) : Option ImgErr :=
  if b.length < 32 then some ⟨imgBadLength, 0, 8⟩
  else
    let kind := fld b 6 1
    let len := fld b 8 4
    firstFail [
      ⟨imgBadHeader, 0, 0, slice b 0 4 == ascii "KNWS"⟩,
      ⟨imgBadHeader, 0, 4, fld b 4 2 == 0x0100⟩,
      ⟨imgBadHeader, 0, 6, kind == 1 || kind == 2⟩,
      ⟨imgBadHeader, 0, 7, if kind == 1 then fld b 7 1 == 0 else decide (fld b 7 1 ≤ 63)⟩,
      ⟨imgBadLength, 0, 8, len == b.length && decide (len ≤ 1048576) && len % 16 == 0⟩,
      ⟨imgWrongPart, 0, 20, fld b 20 2 == 0x7720⟩,
      ⟨imgWrongPart, 0, 22, fld b 22 1 == c.code⟩,
      ⟨imgFieldRange, 0, 23, decide (1 ≤ fld b 23 1) && decide (fld b 23 1 ≤ 8)⟩,
      ⟨imgBadHeader, 0, 24, zeroAt b 24 8⟩]

/-- The opaque check of an image signature is a parameter: phase 2 gives it the slot's key, the signed bytes, r and s
(R45). -/
def imgPhase2 (verify : Bytes → Bytes → Bytes → Bytes → Bool) (c : ImgCtx) (b : Bytes) : Option ImgErr :=
  if b.length < sigLen then some ⟨imgBadSignature, 9, 0⟩
  else
    let o := b.length - sigLen
    let slot := fld b (o + 2) 2
    let key := Tab.getD c.slots slot []
    firstFail [
      ⟨imgBadSignature, 9, o, fld b o 2 == 1⟩,
      ⟨imgBadSignature, 9, o + 2, decide (slot ≤ 3) && Tab.has c.slots slot⟩,
      ⟨imgBadSignature, 9, o + 4, zeroAt b (o + 4) 12⟩,
      ⟨imgBadSignature, 9, o + 16, verify key (b.take o) (slice b (o + 16) 48) (slice b (o + 64) 48)⟩]

/-- One directory entry (R43), with the offset it stands at. -/
structure DirEnt where
  at_ : Nat
  typ : Nat
  recsize : Nat
  off : Nat
  count : Nat
  resv : Bool
  deriving DecidableEq, Repr

/-- Directory entry `i`. -/
def dirEnt (b : Bytes) (i : Nat) : DirEnt :=
  let o := 32 + 16 * i
  ⟨o, fld b o 1, fld b (o + 2) 2, fld b (o + 4) 4, fld b (o + 8) 4, zeroAt b (o + 1) 1 && zeroAt b (o + 12) 4⟩

/-- The directory. -/
def imgDir (b : Bytes) : List DirEnt := (List.range (fld b 23 1)).map (dirEnt b)

/-- Whether TYPE may stand here: every type in turn for a full image; FENS first and never PORTS or ROUTES for a fen
image; always increasing (R44). -/
def typeOk (full : Bool) (prev t : Nat) : Bool :=
  if full then t == prev + 1
  else if prev == 0 then t == 2
  else decide (prev < t) && decide (t ≤ 8) && t != 3

/-- Phase 3 of R55: each entry in turn (R43, R44). -/
def dirChecks (full : Bool) (lim : Nat) (b : Bytes) : List DirEnt → Nat → Nat → List ImgChk
  | [], _, _ => []
  | e :: es, prevType, prevEnd =>
    [⟨imgBadDirectory, 0, e.at_, typeOk full prevType e.typ⟩,
     ⟨imgBadDirectory, 0, e.at_ + 1, zeroAt b (e.at_ + 1) 1⟩,
     ⟨imgBadDirectory, 0, e.at_ + 2, e.recsize == secSize e.typ⟩,
     ⟨imgBadDirectory, 0, e.at_ + 4, e.off % 16 == 0 && decide (prevEnd ≤ e.off)⟩,
     ⟨imgBadDirectory, 0, e.at_ + 8,
       decide (e.count ≤ secMax e.typ) && (e.typ != 1 || e.count == 32) &&
       (full || e.typ != 2 || e.count == 1) && decide (e.off + e.count * secSize e.typ ≤ lim)⟩,
     ⟨imgBadDirectory, 0, e.at_ + 12, zeroAt b (e.at_ + 12) 4⟩] ++
    dirChecks full lim b es e.typ (e.off + e.count * secSize e.typ)

/-- Phase 3 of R55. -/
def imgPhase3 (b : Bytes) : Option ImgErr :=
  let full := fld b 6 1 == 1
  let n := fld b 23 1
  let lim := b.length - sigLen
  firstFail (⟨imgBadDirectory, 0, 23, decide (32 + 16 * n ≤ lim) && (!full || n == 8)⟩ ::
    dirChecks full lim b (imgDir b) 0 (32 + 16 * n))

/-- Phase 4 of R55: serials (R59, R60). -/
def imgPhase4 (c : ImgCtx) (b : Bytes) : Option ImgErr :=
  let full := fld b 6 1 == 1
  let serial := fld b 12 4
  let base := fld b 16 4
  firstFail [
    ⟨imgSerial, 0, 12, if full then decide (c.fullSerial < serial)
      else decide (Tab.getD c.fenSerial (fld b 7 1) 0 < serial)⟩,
    ⟨imgSerial, 0, 16, if full then base == 0 else c.haveFull && base == c.fullSerial⟩]

/-- Where a section starts, 0 where the image has none. -/
def secOff (b : Bytes) (t : Nat) : Nat :=
  match (imgDir b).find? (fun e => e.typ == t) with
  | some e => e.off
  | none => 0

/-- How many records a section has. -/
def secCount (b : Bytes) (t : Nat) : Nat :=
  match (imgDir b).find? (fun e => e.typ == t) with
  | some e => e.count
  | none => 0

/-- The records of a section, as bytes. -/
def secRecs (b : Bytes) (t : Nat) : List Bytes :=
  (List.range (secCount b t)).map fun i => slice b (secOff b t + i * secSize t) (secSize t)

/-! Field ranges (phase 5): for each record, (offset, passes) in increasing offset. -/

/-- R46. -/
def portRanges (i : Nat) (r : Bytes) : List (Nat × Bool) :=
  [(0, fld r 0 1 == i), (1, decide (fld r 1 1 ≤ 4)), (2, decide (fld r 2 1 ≤ 3)), (3, decide (fld r 3 1 ≤ 2)),
   (4, if fld r 1 1 == roleUplink then decide (fld r 4 2 ≤ 4095) else fld r 4 2 == 0),
   (8, decide (10 ≤ fld r 8 2) && decide (fld r 8 2 ≤ 10000)), (10, zeroAt r 10 6)]

/-- R47. -/
def fenRanges (r : Bytes) : List (Nat × Bool) :=
  [(0, decide (fld r 0 1 ≤ 63)), (1, decide (fld r 1 1 ≤ 1)), (2, zeroAt r 2 2)]

/-- R48. -/
def routeRanges (r : Bytes) : List (Nat × Bool) :=
  match fld r 0 1 with
  | 0 => [(1, decide (fld r 1 1 ≤ 1)), (2, decide (fld r 2 2 ≤ 4095)), (4, fld r 1 1 == 0 || fld r 4 4 == 0),
          (8, zeroAt r 8 8)]
  | 1 => [(1, decide (fld r 1 1 ≤ 15)), (2, decide (fld r 2 2 ≤ 1023)), (10, decide (fld r 10 1 ≤ 2)),
          (11, zeroAt r 11 1), (12, fld r 10 1 == 0 || fld r 12 4 == 0)]
  | 2 => [(1, zeroAt r 1 3), (8, zeroAt r 8 8)]
  | _ => [(0, false)]

/-- R49. -/
def treeRanges (r : Bytes) : List (Nat × Bool) :=
  [(0, decide (fld r 0 2 ≤ 4095)), (2, decide (fld r 2 1 ≤ 63)), (3, decide (fld r 3 1 ≤ 15)),
   (4, decide (fld r 4 1 ≤ 3)), (5, decide (fld r 5 1 ≤ 2)), (6, decide (fld r 6 2 ≤ 4095)),
   (16, decide (1 ≤ fld r 16 4) && decide (fld r 16 4 ≤ 65536)),
   (20, decide (1 ≤ fld r 20 4) && decide (fld r 20 4 ≤ 1000000))]

/-- A policer or shaper rate: 0 (policers), 1–400,000, or 0xFFFF_FFFF (policers) (R50). -/
def policeRateOk (v : Nat) : Bool := decide (v ≤ 400000) || v == 0xFFFFFFFF

/-- R50. -/
def policeRanges (r : Bytes) : List (Nat × Bool) :=
  [(0, decide (fld r 0 2 ≤ 4095)), (4, decide (fld r 4 1 ≤ 31)), (5, decide (fld r 5 1 ≤ 63) || fld r 5 1 == 0xFF),
   (6, decide (fld r 6 1 ≤ 1)), (7, zeroAt r 7 1)] ++
  ((List.range 4).map fun c =>
    [(8 + 8 * c, policeRateOk (fld r (8 + 8 * c) 4)),
     (12 + 8 * c, decide (fld r (12 + 8 * c) 4 ≤ 16777216))]).flatten

/-- R51. -/
def shapeRanges (r : Bytes) : List (Nat × Bool) :=
  [(0, decide (fld r 0 1 ≤ 31)), (1, decide (fld r 1 1 ≤ 7)), (2, decide (fld r 2 1 ≤ 1)), (3, zeroAt r 3 1),
   (4, decide (1 ≤ fld r 4 4) && decide (fld r 4 4 ≤ 400000)), (8, decide (fld r 8 4 ≤ 16777216)),
   (12, zeroAt r 12 4)]

/-- Whether a GATES record is the list header: ENTRY 0xFF with DURATION_NS 0.  A list entry lasts at least 8 ns, so
entry 255 of a list of 256 is told apart by its duration (R52). -/
def gateIsHeader (r : Bytes) : Bool := fld r 1 1 == 0xFF && fld r 4 4 == 0

/-- R52. -/
def gateRanges (full : Bool) (r : Bytes) : List (Nat × Bool) :=
  if gateIsHeader r then
    [(0, decide (fld r 0 1 ≤ 31)), (2, zeroAt r 2 1), (3, zeroAt r 3 1), (8, !full || zeroAt r 8 8)]
  else
    [(0, decide (fld r 0 1 ≤ 31)), (3, zeroAt r 3 1),
     (4, decide (8 ≤ fld r 4 4) && decide (fld r 4 4 ≤ 1000000000)), (8, zeroAt r 8 8)]

/-- R53, R54. -/
def limitsRanges (full : Bool) (r : Bytes) : List (Nat × Bool) :=
  if fld r 0 1 == 0xFF then
    [(0, full), (1, fld r 1 1 == 1), (2, zeroAt r 2 2),
     (4, decide (1000 ≤ fld r 4 4) && decide (fld r 4 4 ≤ 1000000000)), (8, decide (fld r 8 1 ≤ 7)),
     (9, decide (1 ≤ fld r 9 1) && decide (fld r 9 1 ≤ 15)), (10, decide (1 ≤ fld r 10 1) && decide (fld r 10 1 ≤ 20)),
     (11, decide (1 ≤ fld r 11 1) && decide (fld r 11 1 ≤ 60)),
     (12, decide (fld r 11 1 ≤ fld r 12 1) && decide (fld r 12 1 ≤ 60)), (13, zeroAt r 13 51)]
  else
    [(0, decide (fld r 0 1 ≤ 63)), (1, decide (fld r 1 1 ≤ 1)), (2, zeroAt r 2 2),
     (4, decide (fld r 4 4 ≤ 262144)), (8, fld r 8 8 % 65536 == 0), (16, fld r 16 8 % 65536 == 0),
     (24, fld r 24 4 % 65536 == 0 && decide (fld r 24 4 ≤ 2 ^ 30)),
     (28, fld r 28 4 % 65536 == 0 && decide (fld r 28 4 ≤ 2 ^ 28)), (32, fld r 32 4 % 65536 == 0),
     (36, decide (fld r 36 4 ≤ 65536)), (40, decide (fld r 40 4 ≤ 1048576)), (44, zeroAt r 44 20)]

/-- The ranges of record `i` of section `t`. -/
def recRanges (full : Bool) (t i : Nat) (r : Bytes) : List (Nat × Bool) :=
  match t with
  | 1 => portRanges i r
  | 2 => fenRanges r
  | 3 => routeRanges r
  | 4 => treeRanges r
  | 5 => policeRanges r
  | 6 => shapeRanges r
  | 7 => gateRanges full r
  | _ => limitsRanges full r

/-- The first non-zero byte between two offsets, as a failed check (R42: bytes between sections are 0). -/
def gapChecks (b : Bytes) (lo hi : Nat) : List ImgChk :=
  match ((b.drop lo).take (hi - lo)).findIdx? (· != 0) with
  | some i => [⟨imgFieldRange, 0, lo + i, false⟩]
  | none => []

/-- The checks of phase 5, sections in order, each with the gap before it. -/
def rangeChecks (full : Bool) (b : Bytes) : List DirEnt → Nat → List ImgChk
  | [], cur => gapChecks b cur (b.length - sigLen)
  | e :: es, cur =>
    gapChecks b cur e.off ++
    ((secRecs b e.typ).zipIdx.map fun (r, i) =>
      (recRanges full e.typ i r).map fun (o, ok) =>
        (⟨imgFieldRange, e.typ, e.off + i * secSize e.typ + o, ok⟩ : ImgChk)).flatten ++
    rangeChecks full b es (e.off + e.count * secSize e.typ)

/-- Phase 5 of R55. -/
def imgPhase5 (b : Bytes) : Option ImgErr :=
  firstFail (rangeChecks (fld b 6 1 == 1) b (imgDir b) (32 + 16 * fld b 23 1))

/-! Decoding records that passed phase 5. -/

/-- R46. -/
def decodePort (r : Bytes) : PortRec :=
  ⟨fld r 1 1, fld r 2 1, fld r 3 1, fld r 4 2, fld r 6 1, fld r 7 1, fld r 8 2⟩

/-- R47. -/
def decodeFen (r : Bytes) : FenRec :=
  ⟨fld r 0 1, bit (fld r 1 1) 0, fld r 4 16, fld r 20 8, fld r 28 4, fld r 32 16⟩

/-- R48. -/
def decodeRoute (r : Bytes) : RouteRec :=
  match fld r 0 1 with
  | 0 => .route (bit (fld r 1 1) 0) (fld r 2 2) (fld r 4 4)
  | 1 => .mtch (fld r 1 1) (fld r 2 2) (fld r 4 2) (fld r 6 2) (fld r 8 1) (fld r 9 1) (fld r 10 1) (fld r 12 4)
  | _ => .seed (fld r 4 4)

/-- R49. -/
def decodeTree (r : Bytes) : TreeRec :=
  let f := fld r 3 1
  ⟨fld r 0 2, fld r 2 1, bit f 0, bit f 1, bit f 2, bit f 3, fld r 4 1, fld r 5 1, fld r 6 2, fld r 8 4, fld r 12 4,
   fld r 16 4, fld r 20 4, fld r 24 8⟩

/-- A TREES record as the 32 bytes of R49. -/
def encodeTree (t : TreeRec) : Bytes :=
  leBytes 2 t.tree ++ leBytes 1 t.fen ++
  leBytes 1 (b2n t.valid + 2 * b2n t.exact + 4 * b2n t.root + 8 * b2n t.stoch) ++
  leBytes 1 t.homeEngine ++ leBytes 1 t.level ++ leBytes 2 t.parentHome ++ leBytes 4 t.memberPorts ++
  leBytes 4 t.childPorts ++ leBytes 4 t.expected ++ leBytes 4 t.deadlineUs ++ leBytes 8 t.seed

/-- R50. -/
def decodePolice (r : Bytes) : PoliceRec :=
  ⟨fld r 0 2, fld r 2 2, fld r 4 1, fld r 5 1, bit (fld r 6 1) 0,
   (List.range 4).map fun c => fld r (8 + 8 * c) 4, (List.range 4).map fun c => fld r (12 + 8 * c) 4⟩

/-- R51. -/
def decodeShape (r : Bytes) : ShapeRec := ⟨fld r 0 1, fld r 1 1, bit (fld r 2 1) 0, fld r 4 4, fld r 8 4⟩

/-- R52. -/
def decodeGate (r : Bytes) : GateRec :=
  if gateIsHeader r then .header (fld r 0 1) (fld r 8 8) else .entry (fld r 0 1) (fld r 1 1) (fld r 2 1) (fld r 4 4)

/-- R53. -/
def decodeLimits (r : Bytes) : LimitsRec :=
  ⟨fld r 0 1, bit (fld r 1 1) 0, fld r 4 4, fld r 8 8, fld r 16 8, fld r 24 4, fld r 28 4, fld r 32 4, fld r 36 4,
   fld r 40 4⟩

/-- R54. -/
def decodeDevice (r : Bytes) : DeviceRec :=
  ⟨fld r 4 4, fld r 8 1, fld r 9 1, fld r 10 1, fld r 11 1, fld r 12 1⟩

/-- The image's records, once phase 5 has passed. -/
def decodeImage (b : Bytes) : Image :=
  { kind := fld b 6 1, fen := fld b 7 1, serial := fld b 12 4, baseSerial := fld b 16 4,
    sections := (imgDir b).map (·.typ),
    ports := (secRecs b 1).map decodePort, fens := (secRecs b 2).map decodeFen,
    routes := (secRecs b 3).map decodeRoute, trees := (secRecs b 4).map decodeTree,
    police := (secRecs b 5).map decodePolice, shapes := (secRecs b 6).map decodeShape,
    gates := (secRecs b 7).map decodeGate,
    limits := ((secRecs b 8).filter fun r => fld r 0 1 != 0xFF).map decodeLimits,
    device := (((secRecs b 8).filter fun r => fld r 0 1 == 0xFF).map decodeDevice).headD {},
    raw := b }

/-! Cross-checks (phase 6, R57), in table order.  `at_ t i o` is the image offset of byte `o` of record `i` of
section `t`. -/

/-- Image offset of byte `o` of record `i` of section `t`. -/
def recAt (b : Bytes) (t i o : Nat) : Nat := secOff b t + i * secSize t + o

/-- For each position, whether no earlier position has the same key. -/
def uniq (ks : List Nat) : List Bool := ks.zipIdx.map fun (k, i) => !(ks.take i).contains k

/-- A uniqueness check: each record after the first of a key fails at its identifying field. -/
def uniqChecks (status t : Nat) (offs ks : List Nat) : List ImgChk :=
  ((uniq ks).zip offs).map fun (ok, o) => ⟨status, t, o, ok⟩

/-- OR of the masks. -/
def orAll (l : List Nat) : Nat := l.foldl (· ||| ·) 0

/-- The records with their index, VALID ones only. -/
def validIdx {α : Type} (v : α → Bool) (l : List α) : List (α × Nat) := l.zipIdx.filter fun p => v p.1

/-- No mask shares a bit with an earlier one: (passes, index). -/
def disjointEarlier (l : List (Nat × Nat)) : List (Bool × Nat) :=
  l.zipIdx.map fun ((m, i), k) => (m &&& orAll ((l.take k).map (·.1)) == 0, i)

/-- Whether `a ⊆ b` as masks. -/
def subMask (a b : Nat) : Bool := a &&& b == a

/-- PORTS: roles, lane modes and pairs. -/
def xPorts (b : Bytes) (m : Image) : List ImgChk :=
  (m.ports.zipIdx.map fun (p, i) =>
    let q := m.ports.getD (i ^^^ 1) {}
    [⟨imgCrossCheck, 1, recAt b 1 i 2, (p.role == roleTray) == decide (2 ≤ p.laneMode)⟩,
     ⟨imgCrossCheck, 1, recAt b 1 (max i (i ^^^ 1)) 2,
       p.laneMode != 3 || (q.role == roleTray && q.laneMode == 3)⟩]).flatten ++
  [(let tr := m.ports.zipIdx.filter fun p => decide (2 ≤ p.1.laneMode)
    ⟨imgOverCapacity, 1, recAt b 1 ((tr.map (·.2)).getLastD 0) 2, decide (tr.length ≤ 16)⟩)]

/-- FENS. `ports` gives each port's role; `full` asks that every ACCEL port be in a mask. -/
def xFens (b : Bytes) (m : Image) (full : Bool) (ports : Nat → PortRec) : List ImgChk :=
  let vs := validIdx FenRec.valid m.fens
  let accel := (List.range 32).filter fun p => (ports p).role == roleAccel
  let held := orAll (vs.map fun v => v.1.ports)
  uniqChecks imgCrossCheck 2 (m.fens.zipIdx.map fun p => recAt b 2 p.2 0) (m.fens.map (·.fen)) ++
  (if full then
    ((disjointEarlier (vs.map fun v => (v.1.ports, v.2))).map fun (ok, i) =>
      (⟨imgCrossCheck, 2, recAt b 2 i 28, ok⟩ : ImgChk)) ++
    accel.map fun p =>
      if vs.isEmpty then ⟨imgCrossCheck, 1, recAt b 1 p 1, bit held p⟩
      else ⟨imgCrossCheck, 2, recAt b 2 ((vs.map (·.2)).getLastD 0) 28, bit held p⟩
   else []) ++
  (vs.map fun v => ⟨imgCrossCheck, 2, recAt b 2 v.2 28,
    (bitList 32 v.1.ports).all fun p => (ports p).role == roleAccel⟩) ++
  ((disjointEarlier (vs.map fun v => (v.1.clusters, v.2))).map fun (ok, i) =>
    ⟨imgCrossCheck, 2, recAt b 2 i 4, ok⟩) ++
  ((disjointEarlier (vs.map fun v => (v.1.chgroups, v.2))).map fun (ok, i) =>
    ⟨imgCrossCheck, 2, recAt b 2 i 20, ok⟩) ++
  vs.map fun v => ⟨imgCrossCheck, 2, recAt b 2 v.2 32, subMask v.1.rtClusters v.1.clusters⟩

/-- Whether a port set has 1 to 16 ports. -/
def portsetOk (m : Nat) : Bool := decide (1 ≤ popcount 32 m) && decide (popcount 32 m ≤ 16)

/-- ROUTES (full images). -/
def xRoutes (b : Bytes) (m : Image) (ports : Nat → PortRec) : List ImgChk :=
  let rs := m.routes.zipIdx
  let locals := rs.filterMap fun (r, i) => match r with | .route true _ _ => some i | _ => none
  let homes := rs.filterMap fun (r, i) => match r with | .route _ h _ => some (h, i) | _ => none
  let idxs := rs.filterMap fun (r, i) => match r with | .mtch _ x _ _ _ _ _ _ => some (x, i) | _ => none
  let seeds := rs.filterMap fun (r, i) => match r with | .seed _ => some i | _ => none
  [⟨imgCrossCheck, 3, recAt b 3 (if locals.isEmpty then rs.length - 1 else locals.getLastD 0) 1,
    locals.length == 1⟩] ++
  uniqChecks imgCrossCheck 3 (homes.map fun h => recAt b 3 h.2 2) (homes.map (·.1)) ++
  uniqChecks imgCrossCheck 3 (idxs.map fun h => recAt b 3 h.2 2) (idxs.map (·.1)) ++
  [⟨imgCrossCheck, 3, recAt b 3 (seeds.getLastD 0) 4, decide (seeds.length ≤ 1)⟩] ++
  (rs.map fun (r, i) => match r with
    | .route false _ s => ⟨imgCrossCheck, 3, recAt b 3 i 4,
        portsetOk s && (bitList 32 s).all fun p => (ports p).role == roleUplink⟩
    | .mtch _ _ _ _ _ _ 0 s => ⟨imgCrossCheck, 3, recAt b 3 i 12, portsetOk s⟩
    | _ => ⟨imgCrossCheck, 3, recAt b 3 i 0, true⟩)

/-- TREES. -/
def xTrees (b : Bytes) (m : Image) (ports : Nat → PortRec) (fens : Tab FenRec) (localHome : Option Nat)
    (routeHomes : List Nat) : List ImgChk :=
  uniqChecks imgCrossCheck 4 (m.trees.zipIdx.map fun p => recAt b 4 p.2 0) (m.trees.map (·.tree)) ++
  ((validIdx TreeRec.valid m.trees).map fun (t, i) =>
    let f := Tab.getD fens t.fen {}
    [(⟨imgCrossCheck, 4, recAt b 4 i 2, f.valid⟩ : ImgChk),
     ⟨imgCrossCheck, 4, recAt b 4 i 8, subMask t.memberPorts f.ports⟩,
     ⟨imgCrossCheck, 4, recAt b 4 i 12, (bitList 32 t.childPorts).all fun p => (ports p).role == roleUplink⟩,
     ⟨imgCrossCheck, 4, recAt b 4 i 6, t.root == (localHome == some t.parentHome)⟩,
     ⟨imgCrossCheck, 4, recAt b 4 i 6, t.root || routeHomes.contains t.parentHome⟩,
     ⟨imgCrossCheck, 4, recAt b 4 i 16,
       decide (popcount 32 t.memberPorts + popcount 32 t.childPorts ≤ t.expected)⟩]).flatten

/-- The valid fen whose PORTS mask holds a port. -/
def fenOfPort (fens : Tab FenRec) (p : Nat) : Option Nat :=
  (Tab.findVal? fens fun f => f.valid && bit f.ports p).map (·.1)

/-- POLICE. `others` are the endpoints of clients that the image leaves in place. -/
def xPolice (b : Bytes) (m : Image) (ports : Nat → PortRec) (fens : Tab FenRec) (others : List Nat) :
    List ImgChk :=
  let vs := validIdx PoliceRec.valid m.police
  uniqChecks imgCrossCheck 5 (m.police.zipIdx.map fun p => recAt b 5 p.2 0) (m.police.map (·.clid)) ++
  uniqChecks imgCrossCheck 5 (vs.map fun p => recAt b 5 p.2 2) (vs.map fun p => p.1.endpoint) ++
  (vs.map fun (r, i) => ⟨imgCrossCheck, 5, recAt b 5 i 2, !others.contains r.endpoint⟩) ++
  (vs.map fun (r, i) =>
    let role := (ports r.port).role
    [(⟨imgCrossCheck, 5, recAt b 5 i 4, role == roleAccel || role == roleUplink || role == roleMgmt⟩ : ImgChk),
     ⟨imgCrossCheck, 5, recAt b 5 i 5,
       if role == roleAccel then fenOfPort fens r.port == some r.fen
       else if role == roleMgmt then r.fen == 0xFF
       else (Tab.getD fens r.fen {}).valid⟩] ++
    (r.bursts.zipIdx.map fun (u, c) =>
      ⟨imgCrossCheck, 5, recAt b 5 i (12 + 8 * c), decide (4132 + (ports r.port).overhead ≤ u)⟩)).flatten

/-- The list header starts of a port in the image. -/
def gateHeaders (gs : List GateRec) (p : Nat) : List Nat :=
  gs.filterMap fun g => match g with | .header q s => if q = p then some s else none | _ => none

/-- The list entries of a port in the image: (index, mask, duration). -/
def gateEntries (gs : List GateRec) (p : Nat) : List (Nat × Nat × Nat) :=
  gs.filterMap fun g => match g with | .entry q i k d => if q = p then some (i, k, d) else none | _ => none

/-- The port a GATES record names. -/
def GateRec.portOf : GateRec → Nat
  | .header p _ => p
  | .entry p _ _ _ => p

/-- Whether a port's records form one list as R52 asks. -/
def gateListOk (gs : List GateRec) (p : Nat) : Bool :=
  let es := gateEntries gs p
  (gateHeaders gs p).length == 1 && decide (1 ≤ es.length) && decide (es.length ≤ 256) &&
  (List.range es.length).all (fun i => (es.filter fun e => e.1 == i).length == 1) &&
  decide ((es.map fun e => e.2.2).sum ≤ 1000000000)

/-- SHAPE and GATES. -/
def xShapeGates (b : Bytes) (m : Image) (full : Bool) (ports : Nat → PortRec) : List ImgChk :=
  let vs := validIdx ShapeRec.valid m.shapes
  (vs.map fun (r, i) => ⟨imgCrossCheck, 6, recAt b 6 i 0, (ports r.port).role != roleNone⟩) ++
  uniqChecks imgCrossCheck 6 (m.shapes.zipIdx.map fun p => recAt b 6 p.2 1)
    (m.shapes.map fun r => r.port * 8 + r.queue) ++
  (vs.map fun (r, i) => ⟨imgCrossCheck, 6, recAt b 6 i 8, decide (4132 + (ports r.port).overhead ≤ r.burst)⟩) ++
  (m.gates.zipIdx.map fun (g, i) =>
    let p := GateRec.portOf g
    let mine := m.gates.zipIdx.filter fun q => GateRec.portOf q.1 == p
    [(⟨imgCrossCheck, 7, recAt b 7 i 0, (ports p).role != roleNone⟩ : ImgChk),
     ⟨imgCrossCheck, 7, recAt b 7 ((mine.map (·.2)).getLastD i) 4, gateListOk m.gates p⟩,
     ⟨imgCrossCheck, 7, recAt b 7 i 8,
       match g with | .header _ s => s == 0 || (ports p).gateMode == 1 | _ => true⟩,
     ⟨imgCrossCheck, 7, recAt b 7 i 0, (ports p).gateMode == 1 || (ports p).gateMode == 2⟩]).flatten ++
  (if full then (List.range 32).map fun p =>
    ⟨imgCrossCheck, 1, recAt b 1 p 3, (ports p).gateMode == 0 || gateListOk m.gates p⟩ else [])

/-- Index of the LIMITS record (in section order) of each fen record kept by `decodeImage`. -/
def limitsIdx (b : Bytes) : List Nat :=
  ((secRecs b 8).zipIdx.filter fun p => fld p.1 0 1 != 0xFF).map (·.2)

/-- LIMITS, for one fen at a time. -/
def xLimits (b : Bytes) (m : Image) (c : ImgCtx) (full : Bool) (fens : Tab FenRec) : List ImgChk :=
  let rs := m.limits.zip (limitsIdx b)
  let devs := (secRecs b 8).zipIdx.filter fun p => fld p.1 0 1 == 0xFF
  (if full then
    [⟨imgCrossCheck, 8, recAt b 8 (if devs.isEmpty then secCount b 8 - 1 else (devs.map (·.2)).getLastD 0) 0,
      devs.length == 1⟩] else []) ++
  uniqChecks imgCrossCheck 8 (rs.map fun r => recAt b 8 r.2 0) (rs.map fun r => r.1.fen) ++
  (if full then (validIdx FenRec.valid m.fens).map fun (f, i) =>
    ⟨imgCrossCheck, 2, recAt b 2 i 1, (m.limits.filter fun l => l.valid && l.fen == f.fen).length == 1⟩
   else []) ++
  ((rs.filter fun r => r.1.valid).map fun (l, i) =>
    let f := Tab.getD fens l.fen {}
    let nc := popcount 128 f.clusters
    if f.valid then
      [(⟨imgCrossCheck, 8, recAt b 8 i 24,
         decide (l.nearBytes + l.capringBytes ≤ popcount 64 f.chgroups * c.groupBytes)⟩ : ImgChk),
       ⟨imgCrossCheck, 8, recAt b 8 i 32,
         decide (l.stagingBytes ≤ 2 ^ 25 * nc) && (nc == 0 || decide (65536 ≤ l.stagingBytes))⟩]
    else []).flatten

/-- LIMITS summed over fens. -/
def xSums (b : Bytes) (m : Image) (c : ImgCtx) (full : Bool) : List ImgChk :=
  let mine := m.limits.filter (·.valid)
  let kept : List LimitsRec := if full then [] else
    (c.limits.filter fun p => !(mine.any fun l => l.fen == p.1)).map (·.2)
  let all := mine ++ kept
  let last := ((m.limits.zip (limitsIdx b)).filter fun r => r.1.valid).map (·.2) |>.getLastD 0
  [⟨imgOverCapacity, 8, recAt b 8 last 4,
     decide ((all.map (·.seqEntries)).sum ≤ (if c.att then 262144 else 0))⟩,
   ⟨imgOverCapacity, 8, recAt b 8 last 36, decide ((all.map (·.regions)).sum ≤ 65536)⟩,
   ⟨imgOverCapacity, 8, recAt b 8 last 40, decide ((all.map (·.extents)).sum ≤ 1048576)⟩,
   ⟨imgOverCapacity, 8, recAt b 8 last 28, decide ((all.map (·.redBytes)).sum ≤ 2 ^ 28)⟩,
   ⟨imgOverCapacity, 8, recAt b 8 last 16, decide ((all.map (·.trayBytes)).sum ≤ 2 ^ 46)⟩]

/-- Last record's field of a section, or the section's start. -/
def lastAt (b : Bytes) (t o : Nat) : Nat := recAt b t (secCount b t - 1) o

/-- The checks of a fen image against itself. -/
def xFenSelf (b : Bytes) (m : Image) : List ImgChk :=
  let r := m.fens.headD {}
  let lims := m.limits.zip (limitsIdx b)
  [⟨imgCrossCheck, 2, recAt b 2 0 0, r.fen == m.fen⟩,
   ⟨imgCrossCheck, 2, recAt b 2 0 1, r.valid || m.sections == [2]⟩] ++
  ((validIdx PoliceRec.valid m.police).map fun (p, i) =>
    ⟨imgCrossCheck, 5, recAt b 5 i 5, p.fen == m.fen⟩) ++
  ((validIdx ShapeRec.valid m.shapes).map fun (p, i) => ⟨imgCrossCheck, 6, recAt b 6 i 0, bit r.ports p.port⟩) ++
  (m.gates.zipIdx.map fun (g, i) => ⟨imgCrossCheck, 7, recAt b 7 i 0, bit r.ports (GateRec.portOf g)⟩) ++
  (if r.valid && m.sections.contains 8 then
    ((lims.filter fun l => l.1.valid).map fun (l, i) =>
      (⟨imgCrossCheck, 8, recAt b 8 i 0, l.fen == m.fen⟩ : ImgChk)) ++
    [⟨imgCrossCheck, 8, lastAt b 8 0, m.limits.any fun l => l.valid && l.fen == m.fen⟩]
   else [])

/-- OUTSIDE_FULL, FOREIGN and IN_USE for a fen image, and the fields of a tree it may not change. -/
def xFenRunning (b : Bytes) (m : Image) (c : ImgCtx) : List ImgChk :=
  let r := m.fens.headD {}
  let cur := Tab.getD c.fens m.fen {}
  let use := Tab.getD c.use m.fen {}
  let newClus := if r.valid then r.clusters else 0
  let newGrp := if r.valid then r.chgroups else 0
  let others := (c.fens.filter fun f => f.1 != m.fen && f.2.valid).map (·.2)
  let trees := validIdx TreeRec.valid m.trees
  let pol := validIdx PoliceRec.valid m.police
  let gone := if r.valid && !m.sections.contains 5 then []
    else (c.police.filter fun p => p.2.fen == m.fen && !(pol.any fun q => q.1.clid == p.1)).map (·.1)
  let lims := (m.limits.zip (limitsIdx b)).filter fun l => l.1.valid
  [⟨imgOutsideFull, 2, recAt b 2 0 28, r.ports == cur.ports⟩] ++
  (trees.map fun (t, i) =>
    ⟨imgOutsideFull, 4, recAt b 4 i 2,
      match Tab.find? c.trees t.tree with | some u => u.fen == m.fen && t.fen == m.fen | none => false⟩) ++
  [⟨imgForeign, 2, recAt b 2 0 4, newClus &&& orAll (others.map (·.clusters)) == 0⟩,
   ⟨imgForeign, 2, recAt b 2 0 20, newGrp &&& orAll (others.map (·.chgroups)) == 0⟩] ++
  (pol.map fun (p, i) => ⟨imgForeign, 5, recAt b 5 i 0,
    match Tab.find? c.police p.clid with | some q => q.fen == m.fen | none => true⟩) ++
  [⟨imgInUse, 2, recAt b 2 0 20, use.groups &&& newGrp == use.groups⟩,
   ⟨imgInUse, if r.valid then 5 else 2, if r.valid then secOff b 5 else recAt b 2 0 1,
     gone.all fun k => !c.busyClients.contains k⟩] ++
  (if r.valid then
    (lims.map fun (l, i) =>
      [(⟨imgInUse, 8, recAt b 8 i 4, decide (use.seq ≤ l.seqEntries)⟩ : ImgChk),
       ⟨imgInUse, 8, recAt b 8 i 8, decide (use.near ≤ l.nearBytes)⟩,
       ⟨imgInUse, 8, recAt b 8 i 16, decide (use.tray ≤ l.trayBytes)⟩,
       ⟨imgInUse, 8, recAt b 8 i 24, decide (use.capring ≤ l.capringBytes)⟩,
       ⟨imgInUse, 8, recAt b 8 i 28, decide (use.red ≤ l.redBytes)⟩,
       ⟨imgInUse, 8, recAt b 8 i 32, decide (use.staging ≤ l.stagingBytes)⟩,
       ⟨imgInUse, 8, recAt b 8 i 36, decide (use.regions ≤ l.regions)⟩,
       ⟨imgInUse, 8, recAt b 8 i 40, decide (use.extents ≤ l.extents)⟩]).flatten
   else [⟨imgInUse, 2, recAt b 2 0 1,
      use.seq == 0 && use.near == 0 && use.tray == 0 && use.capring == 0 && use.red == 0 && use.staging == 0 &&
      use.regions == 0 && use.extents == 0⟩]) ++
  (trees.map fun (t, i) =>
    match Tab.find? c.trees t.tree with
    | some u => [(⟨imgCrossCheck, 4, recAt b 4 i 3, t.root == u.root⟩ : ImgChk),
        ⟨imgCrossCheck, 4, recAt b 4 i 4, t.homeEngine == u.homeEngine⟩,
        ⟨imgCrossCheck, 4, recAt b 4 i 5, t.level == u.level⟩,
        ⟨imgCrossCheck, 4, recAt b 4 i 6, t.parentHome == u.parentHome⟩,
        ⟨imgCrossCheck, 4, recAt b 4 i 8, t.memberPorts == u.memberPorts⟩,
        ⟨imgCrossCheck, 4, recAt b 4 i 12, t.childPorts == u.childPorts⟩,
        ⟨imgCrossCheck, 4, recAt b 4 i 16, t.expected == u.expected⟩]
    | none => []).flatten

/-- Phase 6 of R55. -/
def imgPhase6 (c : ImgCtx) (b : Bytes) : Option ImgErr :=
  let m := decodeImage b
  let full := m.kind == 1
  if full then
    let ports : Nat → PortRec := fun p => m.ports.getD p {}
    let fens : Tab FenRec := m.fens.foldl (fun t f => if f.valid then Tab.put t f.fen f else t) []
    let home := m.routes.findSome? fun r => match r with | .route true h _ => some h | _ => none
    let homes := m.routes.filterMap fun r => match r with | .route _ h _ => some h | _ => none
    firstFail (xPorts b m ++ xFens b m true ports ++ xRoutes b m ports ++ xTrees b m ports fens home homes ++
      xPolice b m ports fens [] ++ xShapeGates b m true ports ++ xLimits b m c true fens ++ xSums b m c true)
  else
    let ports : Nat → PortRec := fun p => Tab.getD c.ports p {}
    let r := m.fens.headD {}
    let fens := Tab.put c.fens r.fen r
    let others := (c.police.filter fun p => p.2.fen != m.fen).map fun p => p.2.endpoint
    firstFail (xFens b m false ports ++ xTrees b m ports fens c.localHome c.routeHomes ++
      xPolice b m ports fens others ++ xShapeGates b m false ports ++ xLimits b m c false fens ++
      xSums b m c false ++ xFenSelf b m ++ xFenRunning b m c)

/-- Phases 1 to 6 of R55: the first failure, or none. -/
def imgValidate (verify : Bytes → Bytes → Bytes → Bytes → Bool) (c : ImgCtx) (b : Bytes) : Option ImgErr :=
  (imgPhase1 c b).or <| (imgPhase2 verify c b).or <| (imgPhase3 b).or <| (imgPhase4 c b).or <|
    (imgPhase5 b).or (imgPhase6 c b)

end Sys2Proof.Machine
end

