-- ==== Sys2Proof/Machine/Gates.lean ====
section
/-!
DEFINITION. Gate lists, frame times, control frames, tabor-time steps, the servo and PORT_TIME_FAULT (R368, R369,
R375–R382, R393): the operations that chapter 12's commands share.  Tabor times are in units of 2^-32 ns; frame times are
in units of 0.5 ps.
Marks: DEDUCED 11, 35, in notes/assumptions.
-/
namespace Sys2Proof.Machine

/-! Ports and frames. -/

/-- Lane modes (R46). -/
def laneNATIVE : Nat := 0
def laneDJ : Nat := 1

/-- Whether a number names a port. -/
def portOk (p : Nat) : Bool := decide (p < 32)

/-- Whether a port carries Knawen packets: NATIVE or DJ mode (R152). -/
def State.knawenPort (s : State) (p : Nat) : Bool :=
  portOk p && s.usablePort p && decide ((s.portCfg p).laneMode ≤ laneDJ)

/-- Link power states (R388, R395). -/
def pwrACTIVE : Nat := 0
def pwrDOZE : Nat := 1
def pwrSLEEP : Nat := 2
def pwrWAKING : Nat := 3

/-- Whether the link is active (R141): up, secured, awake and not retraining. -/
def State.linkActive (s : State) (p : Nat) : Bool :=
  s.on Reg.FAB_PSTAT_UP p && s.on Reg.FAB_PSTAT_SECURE p && s.rd Reg.GATE_P_STAT_PWR p == pwrACTIVE &&
    !s.on Reg.FAB_PSTAT_RETRAIN p

/-- L of R368: the bytes that policers and shapers charge on port `p`. -/
def State.chargeLen (s : State) (p : Nat) (pkt : Packet) : Nat := pkt.bytes + (s.portCfg p).overhead

/-- Frame time of R369 in units of 0.5 ps: (payload + 68) bytes at 400 or 200 GB/s. -/
def State.frameTime (s : State) (p : Nat) (pkt : Packet) : Nat :=
  (pkt.payload.length + 68) * (if (s.portCfg p).laneMode = laneDJ then 10 else 5)

/-- Payload bytes counted in the BYTES meters (R65): the port's fen, and on an UPLINK the fens of the packet's clients. -/
def State.meterBytes (s : State) (p : Nat) (pkt : Packet) : State :=
  let n := pkt.payload.length
  let fenOf := fun e => (s.clientOf e).map (·.fen)
  let hit := fun (f : FenRec) => f.valid &&
    (bit f.ports p || ((s.portCfg p).role == roleUplink && (fenOf pkt.src == some f.fen || fenOf pkt.dst == some f.fen)))
  let fs := (s.cfg.fens.filter fun f => hit f.2).map (·.1)
  { s with meters := fs.foldl (fun m f =>
      let k := Tab.getD m f {}
      Tab.put m f { k with bytes := (k.bytes + n) % 2 ^ 64 }) s.meters }

/-- A key switch of the sending direction ends once it is acknowledged and its packet number is reached (R156). -/
def State.txSwitched (s : State) (p : Nat) : State :=
  match (s.port p).txSwitch with
  | none => s
  | some n =>
    if (s.port p).txAcked && decide (n ≤ (s.port p).nextTx) then
      ((s.bump Reg.FAB_CNT_REKEY p).wr Reg.FAB_PSTAT_KEY_SLOT (1 - s.rd Reg.FAB_PSTAT_KEY_SLOT p) p).upPort p fun q =>
        { q with txSwitch := none, txAcked := false }
    else s

/-- A key switch of the receiving direction ends with the first packet at or past its number (R156). -/
def State.rxSwitched (s : State) (p pkn : Nat) : State :=
  match (s.port p).rxSwitch with
  | none => s
  | some n =>
    if n ≤ pkn then (s.bump Reg.FAB_CNT_REKEY p).upPort p fun q => { q with rxSwitch := none } else s

/-- Count a packet whose last bit has left a port's lane (R364) and put its frame on the lane. -/
def State.transmit (s : State) (p : Nat) (pkt : Packet) : State :=
  let s := s.inc64 Reg.XBR_P_TXPKT_LO Reg.XBR_P_TXPKT_HI 1 p pkt.cls
  let s := s.inc64 Reg.XBR_P_TXBYTE_LO Reg.XBR_P_TXBYTE_HI pkt.bytes p pkt.cls
  let s := s.meterBytes p pkt
  ((s.emit (.frame p (s.port p).nextTx pkt)).upPort p fun q => { q with nextTx := q.nextTx + 1 }).txSwitched p

/-- A LINK packet (R157): type, DATA and payload. -/
def linkPacket (type data : Nat) (payload : Bytes) : Packet :=
  Packet.seal { opcode := opLINK, len := payload.length, arg := type + 256 * (data % 2 ^ 24), payload := payload }

/-- A TIME packet (R383). -/
def timePacket (type tseq : Nat) (payload : Bytes) : Packet :=
  Packet.seal { opcode := opTIME, len := 64, arg := type + 256 * (tseq % 2 ^ 24), payload := padTo 64 payload }

/-- A timestamp of R383: ns then fraction. -/
def stamp (t : Nat) : Bytes := leBytes 8 (t / 2 ^ 32) ++ leBytes 4 (t % 2 ^ 32)

/-- Take the head of a port's control queue. -/
def State.popCtl (s : State) (p : Nat) : State := s.upPort p fun q => { q with ctl := q.ctl.drop 1 }

/-! Gate lists (R375, R376). -/

/-- Cycle time in ns. -/
def GateList.cycle (l : GateList) : Nat := (l.entries.map (·.2)).sum

/-- The position (t − A) mod C, in units of 2^-32 ns. -/
def GateList.pos (l : GateList) (t : Nat) : Nat :=
  (((t : Int) - (l.anchor : Int) * 2 ^ 32) % ((l.cycle : Int) * 2 ^ 32)).toNat

/-- The entry that covers a position, and the position's offset in it. -/
def locate : List (Nat × Nat) → Nat → Nat → Nat × Nat
  | [], i, pos => (i, pos)
  | (_, d) :: es, i, pos => if pos < d * 2 ^ 32 then (i, pos) else locate es (i + 1) (pos - d * 2 ^ 32)

/-- Total duration of the leading entries with bit q set, ns. -/
def openLead (q : Nat) : List (Nat × Nat) → Nat
  | [] => 0
  | (m, d) :: es => if bit m q then d + openLead q es else 0

/-- The list rotated to begin at entry i. -/
def rotated (es : List (Nat × Nat)) (i : Nat) : List (Nat × Nat) := es.drop i ++ es.take i

/-- How long queue q stays open from tabor time t: none without end, 0 when closed. -/
def GateList.openRun (l : GateList) (t q : Nat) : Option Nat :=
  if l.entries.isEmpty then some 0
  else if l.entries.all fun e => bit e.1 q then none
  else
    let (i, off) := locate l.entries 0 (l.pos t)
    some (openLead q (rotated l.entries i) * 2 ^ 32 - off)

/-- MAXOPEN[q] in ns, none when unbounded (R376). -/
def GateList.maxOpen (l : GateList) (q : Nat) : Option Nat :=
  if !l.entries.isEmpty && l.entries.all fun e => bit e.1 q then none
  else some ((List.range l.entries.length).foldl (fun m i => max m (openLead q (rotated l.entries i))) 0)

/-- The active list of a port. -/
def State.activeList (s : State) (p : Nat) : GateList :=
  if s.rd Reg.GATE_P_STAT_BANK p = 0 then (s.sp p).bank0 else (s.sp p).bank1

/-- The inactive list of a port. -/
def State.otherList (s : State) (p : Nat) : GateList :=
  if s.rd Reg.GATE_P_STAT_BANK p = 0 then (s.sp p).bank1 else (s.sp p).bank0

/-- Store the inactive list of a port. -/
def State.setOtherList (s : State) (p : Nat) (l : GateList) : State :=
  let b := s.rd Reg.GATE_P_STAT_BANK p
  s.upSp p fun q => if b = 0 then { q with bank1 := l } else { q with bank0 := l }

/-- Whether the fallback mask governs a port's gates: PORT_TIME_FAULT stands, or the list has not resumed since
(R375, R393). -/
def State.onFallback (s : State) (p : Nat) : Bool := s.on Reg.GATE_P_STAT_FAULT p || (s.sp p).resuming

/-- How long queue q of port p stays open from now on (R375): none without end. -/
def State.openFor (s : State) (p q : Nat) : Option Nat :=
  let c := s.portCfg p
  if c.gateMode = 0 then none
  else if s.onFallback p then (if bit c.fallback q then none else some 0)
  else
    match (s.sp p).takeover with
    | none => (s.activeList p).openRun s.tabor q
    | some t =>
      let tu := t * 2 ^ 32
      if tu ≤ s.tabor then (s.otherList p).openRun s.tabor q
      else
        let left := tu - s.tabor
        match (s.activeList p).openRun s.tabor q with
        | some r => if r < left then some r else ((s.otherList p).openRun tu q).map (left + ·)
        | none => ((s.otherList p).openRun tu q).map (left + ·)

/-- G of R375, ns. -/
def State.guardG (s : State) (p : Nat) : Nat := if (s.portCfg p).laneMode = laneDJ then 21 else 11

/-- Whether an open run covers a frame that starts now (R375). -/
def State.fits (s : State) (p : Nat) (f : Nat) (run : Option Nat) : Bool :=
  match run with
  | none => true
  | some r =>
    if (s.portCfg p).gateMode = 1 then decide (f * 2 ^ 32 ≤ r * 2000) else decide (s.guardG p * 2 ^ 32 ≤ r)

/-- Whether the gate rule lets queue q start a packet now (R375). -/
def State.gateOpen (s : State) (p q : Nat) (pkt : Packet) : Bool :=
  (s.portCfg p).gateMode == 0 || s.fits p (s.frameTime p pkt) (s.openFor p q)

/-- Whether a head packet could never start under the active list (R376); never under the fallback mask. -/
def State.gateNever (s : State) (p q : Nat) (pkt : Packet) : Bool :=
  (s.portCfg p).gateMode != 0 && !s.onFallback p &&
  match (s.activeList p).maxOpen q with
  | none => false
  | some m =>
    if (s.portCfg p).gateMode = 1 then decide (m * 2000 < s.frameTime p pkt) else decide (m < s.guardG p)

/-- Show the entry that now governs (R395). -/
def State.noteEntry (s : State) (p : Nat) : State :=
  let l := s.activeList p
  if l.entries.isEmpty then s else s.wr Reg.GATE_P_STAT_ENTRY (locate l.entries 0 (l.pos s.tabor)).1 p

/-- A pending list becomes active at its entry 0 (R377). -/
def State.takeOver (s : State) (p : Nat) : State :=
  let b := s.rd Reg.GATE_P_STAT_BANK p
  let s := (s.upSp p fun q => { q with takeover := none }).wr Reg.GATE_P_STAT_BANK (1 - b) p
  ((s.wr Reg.GATE_P_STAT_PENDING 0 p).wr Reg.GATE_P_CYCLES 0 p).wr Reg.GATE_P_STAT_ENTRY 0 p

/-- Whether a port's pending take-over is due (R377, R382). -/
def State.takeOverDue (s : State) (p : Nat) : Bool :=
  match (s.sp p).takeover with
  | none => false
  | some t => decide (t * 2 ^ 32 ≤ s.tabor)

/-! Tabor-time steps (R377, R378, R382). -/

/-- Whether the packet on a port's lane now runs past its queue's close (R378). -/
def State.overruns (s : State) (p : Nat) : Bool :=
  match (s.sp p).lane with
  | none => false
  | some l =>
    let done := (s.hclk - l.start) * 5000 / 3
    if l.frame ≤ done || (s.portCfg p).gateMode == 0 then false
    else
      match s.openFor p l.queue with
      | none => false
      | some r => decide (r * 2000 < (l.frame - done) * 2 ^ 32)

/-- What a step does at one port: an overrun is counted, the list's position moves, a due take-over happens. -/
def State.stepPort (s : State) (p : Nat) : State :=
  let s := if s.overruns p then s.bump Reg.GATE_P_CNT_OVERRUN p else s
  (if s.takeOverDue p then s.takeOver p else s).noteEntry p

/-- Step tabor time by `d` units of 2^-32 ns and nothing else (R382): counted, recorded, reported expiries move with
it. -/
def State.timeStep (s : State) (d : Int) : State :=
  let ns := Int.fdiv d (2 ^ 32)
  let s := { s with tabor := (((s.tabor : Int) + d) % 2 ^ 96).toNat }
  let s := s.upPool fun b => { b with leases := Tab.mapVals b.leases fun _ (l : Lease) =>
    { l with expiry := ((l.expiry : Int) + ns).toNat } }
  let s := (s.bump Reg.GATE_TT_CNT_STEP).event
    { code := evTIME_STEP, sev := sevINFO, health := true, params := [unsigned ns 64] }
  (List.range 32).foldl (fun s p => s.stepPort p) s

/-! The servo (R380, R381). -/

def ttFREERUN : Nat := 0
def ttACQUIRE : Nat := 1
def ttLOCKED : Nat := 2
def ttHOLDOVER : Nat := 3

/-- Whether the servo is LOCKED. -/
def State.locked (s : State) : Bool := s.rd Reg.GATE_TT_STAT_STATE == ttLOCKED

/-- Round n / d to the nearest integer, halves upward. -/
def roundDiv (n d : Int) : Int := Int.fdiv (2 * n + d) (2 * d)

/-- A signed value held within a two's-complement field of `w` bits (R394). -/
def satSigned (i : Int) (w : Nat) : Nat := unsigned (clampInt i (-(2 ^ (w - 1))) (2 ^ (w - 1) - 1)) w

/-- The term θ × 10^9 / (T × 2^k) in units of 2^-32 ppb, for θ in units of 2^-32 ns and T in HCLK cycles of 5/6 ns. -/
def ppbTerm (theta : Int) (t k : Nat) : Int := Int.fdiv (theta * 6000000000) (5 * t * 2 ^ k)

/-- SERVO_SAMPLE (R381): one accepted sample θ, in units of 2^-32 ns. -/
def State.servoSample (s : State) (theta : Int) : State :=
  let (t, s) := match s.shp.lastSample with
    | some h => (max 1 (s.hclk - h), s)
    | none => let (f, s) := s.free; (max 1 f, s)
  let s := (s.bump Reg.GATE_TT_CNT_SAMPLE).wr Reg.GATE_TT_OFFSET_NS (satSigned (roundDiv theta (2 ^ 32)) 32)
  let held := s.rd Reg.GATE_TT_STAT_STATE == ttHOLDOVER
  let s := if held then s.wr Reg.GATE_TT_STAT_STATE ttACQUIRE else s
  let s := s.upShp fun b => { b with lastSample := some s.hclk, lockrun := if held then 0 else b.lockrun }
  let mag := theta.natAbs
  if s.on Reg.GATE_TT_CTL_STEP_EN && decide (s.rd Reg.GATE_TT_STEP_THR_NS * 2 ^ 32 ≤ mag) then
    ((s.timeStep (-theta)).upShp fun b => { b with integ := 0, lockrun := 0 }).wr Reg.GATE_TT_STAT_STATE ttACQUIRE
  else
    let m : Int := (s.rd Reg.GATE_TT_MAXPPB_PPB : Int) * 2 ^ 32
    let integ := clampInt (s.shp.integ - ppbTerm theta t (s.rd Reg.GATE_TT_CTL_KI)) (-m) m
    let adj := clampInt (integ - ppbTerm theta t (s.rd Reg.GATE_TT_CTL_KP)) (-m) m
    let inc := 0xD5555555 + roundDiv (0xD5555555 * adj) (2 ^ 32 * 1000000000)
    let lock := s.rd Reg.GATE_TT_LOCK_NS * 2 ^ 32
    let run := if mag < lock then s.shp.lockrun + 1 else 0
    let st := s.rd Reg.GATE_TT_STAT_STATE
    let st := if st = ttACQUIRE ∧ 16 ≤ run then ttLOCKED else st
    let st := if st = ttLOCKED ∧ 4 * lock ≤ mag then ttACQUIRE else st
    let s := s.upShp fun b => { b with integ := integ, lockrun := run }
    ((s.wr Reg.GATE_TT_INC_FRAC (unsigned inc 32)).wr Reg.GATE_TT_ADJ_PPB
      (satSigned (roundDiv adj (2 ^ 32)) 32)).wr Reg.GATE_TT_STAT_STATE st

/-- What a change of `GATE_TT_CTL.SRC` does (R381, R384): ACQUIRE (FREERUN for source 0), integ kept. -/
def State.sourceChanged (s : State) : State :=
  let src := s.rd Reg.GATE_TT_CTL_SRC
  let s := s.wr Reg.GATE_TT_STAT_STATE (if src = 0 then ttFREERUN else ttACQUIRE)
  let s := s.upShp fun b => { b with lockrun := 0, srcSince := s.hclk }
  if src = 1 then (s.wr Reg.GATE_TT_STAT_STEPS 0).wr Reg.GATE_TT_STAT_SOURCE (s.rd Reg.POOL_HOME_HOME)
  else s.wr Reg.GATE_TT_STAT_STEPS 0xFF

/-! PORT_TIME_FAULT (R393). -/

/-- Raise PORT_TIME_FAULT: cause 0 missed wake, 1 θ. -/
def State.raiseTimeFault (s : State) (p cause : Nat) (theta : Int) : State :=
  (s.wr Reg.GATE_P_STAT_FAULT 1 p).event
    { code := evPORT_TIME_FAULT, sev := sevWARN, health := true, params := [p, cause, unsigned theta 64],
      cls := clsPORT, inst := p }

/-- Clear PORT_TIME_FAULT: the list resumes at its next entry boundary. -/
def State.clearTimeFault (s : State) (p : Nat) : State :=
  if s.on Reg.GATE_P_STAT_FAULT p then (s.wr Reg.GATE_P_STAT_FAULT 0 p).upSp p fun q => { q with resuming := true }
  else s

/-! Retraining. -/

/-- A port begins to retrain its link (R141, R158, R392): UP falls, keys are kept, the port's score is charged. -/
def State.retrain (s : State) (p : Nat) : State :=
  ((s.wr Reg.FAB_PSTAT_RETRAIN 1 p).wr Reg.FAB_PSTAT_UP 0 p).charge clsPORT p 0 1 1 128

/-- Whether the switch is the SPDM requester of a port's link (R155). -/
def State.spdmRequester (s : State) (p : Nat) : Bool :=
  (s.portCfg p).role != roleUplink || decide (s.rd Reg.POOL_HOME_HOME < (s.portCfg p).peerHome)

/-! Policers and shapers (R371–R373). -/

/-- Units of 2^-16 byte that `rate` MB/s gives in `d` HCLK cycles. -/
def refill (rate d : Nat) : Nat := rate * 65536 * d * 5 / 6000

/-- POLICE (R371): whether a packet of a client passes its class's policer, and the state with it charged and counted. -/
def State.police (s : State) (r : PoliceRec) (p : Nat) (pkt : Packet) : Bool × State :=
  let c := pkt.cls
  let k := r.clid * 4 + c
  let rate := r.rates.getD c 0
  let burst := r.bursts.getD c 0 * 65536
  let b := Tab.getD s.shp.buckets k { tokens := burst, last := s.hclk }
  let put := fun (b : Bucket) => s.upShp fun x => { x with buckets := Tab.put x.buckets k b }
  let pass := fun (b : Bucket) => (true, put { b with pass := satAdd b.pass 1 0xFFFFFFFF })
  let fail := fun (b : Bucket) => (false, put { b with dropped := satAdd b.dropped 1 0xFFFFFFFF })
  if rate = 0 then fail b
  else if rate = 0xFFFFFFFF then pass b
  else
    let tk := min burst (b.tokens + refill rate (s.hclk - b.last))
    let l := s.chargeLen p pkt * 65536
    if l ≤ tk then pass { b with tokens := tk - l, last := s.hclk } else fail { b with tokens := tk, last := s.hclk }

/-- A queue's shaper credit now, in units of 2^-16 byte (R373); 0 for an unshaped queue. -/
def State.credit (s : State) (p q : Nat) : Nat :=
  match Tab.find? s.cfg.shapes (p * 8 + q) with
  | none => 0
  | some r =>
    let c := Tab.getD s.shp.credits (p * 8 + q) { k := r.burst * 65536, last := s.hclk }
    min (r.burst * 65536) (c.k + refill r.rate (s.hclk - c.last))

/-- Whether the shaper lets a queue's head start (R373). -/
def State.shaperOpen (s : State) (p q : Nat) (pkt : Packet) : Bool :=
  !(Tab.has s.cfg.shapes (p * 8 + q)) || decide (s.chargeLen p pkt * 65536 ≤ s.credit p q)

/-- Charge a shaper for a packet that starts (R373). -/
def State.shaperCharge (s : State) (p q : Nat) (pkt : Packet) : State :=
  if Tab.has s.cfg.shapes (p * 8 + q) then
    let k := s.credit p q - s.chargeLen p pkt * 65536
    s.upShp fun x => { x with credits := Tab.put x.credits (p * 8 + q) { k := k, last := s.hclk } }
  else s

end Sys2Proof.Machine
end

