-- ==== Sys2Proof/Machine/Crossbar.lean ====
section
/-!
DEFINITION. The crossbar match, egress queues, port selection and the hold limit: SCHEDULER_MATCH, EGRESS_ENQUEUE,
PORT_SELECT, PACKET_HOLD_EXPIRE (R138, R145, R340–R347, R374).
Marks: DEDUCED 33; DESIGN CHOICE 4, in notes/assumptions.
-/
namespace Sys2Proof.Machine

/-- Level of an egress queue (R345, R374): a class's responses before its requests. -/
def levelOf (q : Nat) : Nat := 2 * (q / 2) + (1 - q % 2)

/-- Whether a connection is wide (R344). -/
def isWide (c : Nat) : Bool := decide (32 ≤ c) && decide (c ≤ 40)

/-- Whether a packet travels to HE0 as its 32-byte header alone (R340, R24). -/
def Packet.headerOnly (k : Packet) : Bool := k.payload.isEmpty || k.opcode == opWRITE || k.opcode == opWRITE_FENCED

/-- Cells of a packet on its way to an output (R339, R340): to HE0 it goes without trailer. -/
def cellsTo (o : Nat) (k : Packet) : Nat :=
  if o = connHE0 then ceilDiv (if k.headerOnly then 32 else 32 + k.payload.length) 256 else k.cells

/-- A connection's die in the byte budgets: CD k, PD 8 and 9, MH 11; XH's own has none (R344). -/
def dieOf (c : Nat) : Option Nat :=
  if c < 32 then some (8 + c / 16) else if c < 40 then some (c - 32) else if c = connHE0 then some 11 else none

/-- Refill of a die's budget per XCLK (R344). -/
def dieRefill (d : Nat) : Nat := if d < 8 then 1250 else if d < 10 then 4000 else 1000

/-- A request, grant or accepted pair: input, output, queue. -/
structure Pair where
  i : Nat := 0
  o : Nat := 0
  q : Nat := 0
  deriving DecidableEq, Repr

/-- Level of a pair's queue. -/
def Pair.level (r : Pair) : Nat := levelOf r.q

/-- Cells that a connection's last three XCLK moved in a direction: 0 into the crossbar, 1 out of it. -/
def State.recentCells (s : State) (c dir : Nat) : Nat := (Tab.getD s.xbr.recent (c * 2 + dir) []).sum

/-- The most cells a connection may move in this XCLK in a direction (R344). -/
def State.cellCap (s : State) (c dir : Nat) : Nat := if isWide c then 5 else min 2 (5 - s.recentCells c dir)

/-- The most partners a connection may have in this XCLK (R344). -/
def partnerCap (c : Nat) : Nat := if isWide c then 4 else 1

/-- Budget of a die in a direction: 0 out of the die, 1 into it. -/
def State.budget (s : State) (d dir : Nat) : Nat := Tab.getD s.xbr.budgets (d * 2 + dir) 0

/-- Whether a connection has room for one more pair beside those chosen (R344). -/
def State.roomFor (s : State) (chosen : List Pair) (c dir : Nat) : Bool :=
  let at_ := fun (r : Pair) => if dir = 0 then r.i else r.o
  let n := chosen.countP fun r => at_ r == c
  let cap := decide (n < partnerCap c) && decide (n < s.cellCap c dir)
  match dieOf c with
  | none => cap
  | some d => cap && decide (256 * ((chosen.countP fun r => dieOf (at_ r) == some d) + 1) ≤ s.budget d dir)

/-- Whether a VOQ's head passes R343: it is crossing already, or its egress queue has cells for it. -/
def State.headPasses (s : State) (o q : Nat) (h : QPkt) : Bool :=
  decide (0 < h.sent) || decide (32 ≤ o) || decide (s.qDepth o q + h.pkt.cells ≤ s.rd Reg.XBR_QLIM_CELLS)

/-- Every non-empty VOQ with its head. -/
def State.voqHeads (s : State) : List (Pair × QPkt) :=
  s.xbr.voqs.filterMap fun (k, l) => l.head?.map fun h => ({ i := k / 512, o := k / 8 % 64, q := k % 8 }, h)

/-- The requests of one iteration: for each input and output with room, the best-level VOQ (R345). -/
def State.requests (s : State) (elig chosen : List Pair) : List Pair :=
  let open_ := elig.filter fun r => !(chosen.any fun c => c.i == r.i && c.o == r.o) &&
    s.roomFor chosen r.i 0 && s.roomFor chosen r.o 1
  open_.filter fun r => open_.all fun x => x.i != r.i || x.o != r.o || decide (r.level ≤ x.level)

/-- Keep, of each group, the best-level members in rotating order from the group's pointer, up to `cap` of them. -/
def pickBest (group other : Pair → Nat) (ptr : Nat → Nat → Nat) (cap : Nat → Nat) (rs : List Pair) : List Pair :=
  (rs.map group).eraseDups.flatMap fun g =>
    let mine := rs.filter fun r => group r == g
    let best := (mine.map Pair.level).foldl min 8
    let same := mine.filter fun r => r.level == best
    (sortBy (fun r => (other r + 42 - ptr g best % 42) % 42) same).take (cap g)

/-- Room left at a connection beside the chosen pairs. -/
def leftCap (chosen : List Pair) (at_ : Pair → Nat) (c : Nat) : Nat := partnerCap c - chosen.countP fun r => at_ r == c

/-- One iteration of the match (R345): request, grant, accept; pointers move only in the first. -/
def State.matchStep (elig : List Pair) (first : Bool) (sc : State × List Pair) : State × List Pair :=
  let (s, chosen) := sc
  let rs := s.requests elig chosen
  let grants := pickBest Pair.o Pair.i (fun o l => Tab.getD s.xbr.gptr (o * 8 + l) 0) (leftCap chosen Pair.o) rs
  let accepts := pickBest Pair.i Pair.o (fun i l => Tab.getD s.xbr.aptr (i * 8 + l) 0) (leftCap chosen Pair.i) grants
  accepts.foldl (fun (s, chosen) r =>
    if s.roomFor chosen r.i 0 && s.roomFor chosen r.o 1 then
      let s := if first then s.upXbr fun x =>
          { x with gptr := Tab.put x.gptr (r.o * 8 + r.level) ((r.i + 1) % 42),
                   aptr := Tab.put x.aptr (r.i * 8 + r.level) ((r.o + 1) % 42) } else s
      (s, chosen ++ [r])
    else (s, chosen)) (s, chosen)

/-- A packet whose last cell has crossed (R340, R343): to the egress port die, or into HE0's queue.  A WRITE's payload
stays in the ingress buffer until it is performed. -/
def State.arrive (s : State) (o : Nat) (h : QPkt) : State :=
  if o = connHE0 then
    let keep := h.pkt.opcode == opWRITE || h.pkt.opcode == opWRITE_FENCED
    let s := if keep then s else s.ingressFree h
    s.upFab fun b => { b with he0 := b.he0 ++ [if keep then h else { h with held := 0 }] }
  else (s.ingressFree h).upPort o fun q => { q with arriving := q.arriving ++ [{ h with held := 0 }] }

/-- How long a level-0 head waited (R346). -/
def State.noteWait (s : State) (r : Pair) (h : QPkt) : State :=
  if r.level = 0 then s.raise Reg.XBR_RT_WAIT_MAX_XCLK (s.xbr.xclk - h.headAt.getD s.xbr.xclk) else s

/-- Move one cell of a pair's VOQ, where its head passes: the state and whether a cell moved. -/
def State.moveCell (s : State) (r : Pair) : State × Bool :=
  let k := voqKey r.i r.o r.q
  match Tab.getD s.xbr.voqs k [] with
  | [] => (s, false)
  | h :: rest =>
    if !s.headPasses r.o r.q h then (s, false)
    else
      let s := if h.sent = 0 then s.noteWait r h else s
      if r.o == connHE0 && h.pkt.headerOnly then
        let n := min 8 (((h :: rest).takeWhile fun x => x.pkt.headerOnly).length)
        let s := s.upXbr fun x => { x with voqs := Tab.put x.voqs k ((h :: rest).drop n) }
        (((h :: rest).take n).foldl (fun s x => s.arrive r.o x) s, true)
      else
        let s := if h.sent = 0 ∧ r.o < 32 then s.upXbr fun x =>
            { x with reserved := Tab.put x.reserved (r.o * 8 + r.q) (Tab.getD x.reserved (r.o * 8 + r.q) 0 + h.pkt.cells) }
          else s
        let s := if h.sent = 0 ∧ r.o < 32 then s.noteDepth r.o r.q else s
        if h.sent + 1 < cellsTo r.o h.pkt then
          (s.upXbr fun x => { x with voqs := Tab.put x.voqs k ({ h with sent := h.sent + 1 } :: rest) }, true)
        else
          ((s.upXbr fun x => { x with voqs := Tab.put x.voqs k rest }).arrive r.o { h with sent := h.sent + 1 }, true)

/-- Spend 256 bytes of a connection's die budget and count its cell. -/
def State.spend (s : State) (c dir : Nat) : State :=
  match dieOf c with
  | none => s
  | some d => s.upXbr fun x => { x with budgets := Tab.put x.budgets (d * 2 + dir) (s.budget d dir - 256) }

/-- Cells moved by pair, in this XCLK. -/
abbrev Moved := List Pair

/-- Whether a pair may move one cell more. -/
def State.mayMove (s : State) (m : Moved) (r : Pair) : Bool :=
  let ok := fun (c dir : Nat) (at_ : Pair → Nat) =>
    decide ((m.countP fun x => at_ x == c) < s.cellCap c dir) &&
    match dieOf c with
    | none => true
    | some d => decide (256 ≤ s.budget d dir)
  ok r.i 0 Pair.i && ok r.o 1 Pair.o

/-- Move one cell of each pair that may. -/
def State.moveRound (rs : List Pair) (sm : State × Moved) : State × Moved :=
  rs.foldl (fun (s, m) r =>
    if s.mayMove m r then
      let (s, did) := s.moveCell r
      if did then ((s.spend r.i 0).spend r.o 1, m ++ [r]) else (s, m)
    else (s, m)) sm

/-- Refill the die budgets; at most one cell's worth carries over (R344). -/
def State.refillBudgets (s : State) : State :=
  s.upXbr fun x => { x with budgets := [0, 1, 2, 3, 4, 5, 6, 7, 8, 9, 11].flatMap fun d =>
    [(d * 2, min (s.budget d 0) 255 + dieRefill d), (d * 2 + 1, min (s.budget d 1) 255 + dieRefill d)] }

/-- Note when each level-0 head first passes R343 (R346). -/
def markHeads (s : State) (elig : List Pair) : State :=
  s.upXbr fun x => { x with voqs := Tab.mapVals x.voqs fun k (l : List QPkt) =>
    let r : Pair := { i := k / 512, o := k / 8 % 64, q := k % 8 }
    match l with
    | h :: t => if r.level == 0 && elig.contains r && h.headAt.isNone then { h with headAt := some x.xclk } :: t else l
    | [] => [] }

/-- The cells moved, entered in each connection's last three XCLK. -/
def State.noteRecent (s : State) (m : Moved) : State :=
  s.upXbr fun x => { x with
    xclk := x.xclk + 1,
    recent := (List.range 42).flatMap fun c =>
      [(c * 2, ((m.countP fun r => r.i == c) :: Tab.getD x.recent (c * 2) []).take 3),
       (c * 2 + 1, ((m.countP fun r => r.o == c) :: Tab.getD x.recent (c * 2 + 1) []).take 3)],
    voqs := List.filter (fun v => !v.2.isEmpty) x.voqs }

/-- SCHEDULER_MATCH (R345): one XCLK of the crossbar. -/
def schedulerMatch (s : State) : State :=
  let s := s.refillBudgets
  let heads := s.voqHeads
  let elig := (heads.filter fun (r, h) => s.headPasses r.o r.q h).map (·.1)
  let stalled := ((heads.filter fun (r, h) => !s.headPasses r.o r.q h).map (·.1.o)).eraseDups
  let s := markHeads s elig
  let (s, rs) := State.matchStep elig false (State.matchStep elig false (State.matchStep elig true (s, [])))
  let (s, m) := State.moveRound rs (State.moveRound rs (s, []))
  let s := stalled.foldl (fun s o => s.inc64 Reg.XBR_P_CSTALL_LO Reg.XBR_P_CSTALL_HI 1 o) s
  let idle := ((elig.filter fun r => decide (r.i < 32) && !(m.any fun x => x.i == r.i)).map (·.i)).eraseDups
  let s := idle.foldl (fun s i => s.inc64 Reg.XBR_P_SSTALL_LO Reg.XBR_P_SSTALL_HI 1 i) s
  s.noteRecent m

/-- CE_MARK (R145): whether an ECT packet entering a queue of depth `d` is marked; the probabilistic band draws on the
port's LFSR, whose value the spec does not give. -/
def State.ceMark (s : State) (p d : Nat) (k : Packet) : Bool × State :=
  let lo := s.rd Reg.FAB_CE_THR_MIN p
  let hi := s.rd Reg.FAB_CE_THR_MAX p
  if !k.ect || k.ce || decide (d < lo) then (false, s)
  else if hi ≤ lo ∨ hi ≤ d then (true, s)
  else
    let (v, s) := s.free
    (decide (v % 65536 < 65536 * (d - lo) / (hi - lo)), s)

/-- EGRESS_ENQUEUE (R343, R145): the packet whose last cell has reached port `p`'s die enters its egress queue. -/
def egressEnqueue (p : Nat) (s : State) : State :=
  match (s.port p).arriving with
  | [] => s
  | h :: rest =>
    let q := h.pkt.queue
    let k := p * 8 + q
    let (mark, s) := s.ceMark p (s.qCells p q) h.pkt
    let s := if mark then s.bump Reg.FAB_CNT_CE_MARK p else s
    let h := if mark then { h with pkt := h.pkt.setCe true } else h
    let s := s.upPort p fun x => { x with arriving := rest }
    (s.upXbr fun x => { x with egress := Tab.put x.egress k (Tab.getD x.egress k [] ++ [h]),
                               reserved := Tab.put x.reserved k (Tab.getD x.reserved k 0 - h.pkt.cells) }).noteDepth p q

/-- A port's egress queue. -/
def State.queue (s : State) (p q : Nat) : List QPkt := Tab.getD s.xbr.egress (p * 8 + q) []

/-- Take the head of an egress queue. -/
def State.popQueue (s : State) (p q : Nat) : State :=
  ((s.upXbr fun x => { x with egress := Tab.put x.egress (p * 8 + q) ((s.queue p q).drop 1) }).upSp p fun x =>
    { x with fitHeld := x.fitHeld.filter (· != q) }).noteDepth p q

/-- Discard the heads of queue q that could never start (R376); `fuel` bounds them. -/
def State.dropNever (p q : Nat) : Nat → State → State
  | 0, s => s
  | fuel + 1, s =>
    match s.queue p q with
    | [] => s
    | h :: _ =>
      if s.gateNever p q h.pkt then State.dropNever p q fuel ((s.popQueue p q).drop causeGATE h.conn p) else s

/-- Count the heads that the gate rule holds, once each (R395 FITWAIT). -/
def State.noteHeld (s : State) (p : Nat) : State :=
  (List.range 8).foldl (fun s q =>
    match s.queue p q with
    | [] => s
    | h :: _ =>
      if !s.gateOpen p q h.pkt && !(s.sp p).fitHeld.contains q then
        (s.bump Reg.GATE_P_CNT_FITWAIT p).upSp p fun x => { x with fitHeld := q :: x.fitHeld }
      else s) s

/-- Whether a frame of `f` half-ps that starts now ends by a proposed or agreed enter time E (R389, R374). -/
def State.beforeSleep (s : State) (p f : Nat) : Bool :=
  match (s.sp p).sleep with
  | none => true
  | some e => decide (s.tabor * 2000 + f * 2 ^ 32 ≤ e.enter * 2 ^ 32 * 2000)

/-- Whether a port may send packets now (R374, R154): an active link. -/
def State.maySend (s : State) (p : Nat) : Bool := s.knawenPort p && s.linkActive p

/-- The queue and packet that the port selects (R374, R347). -/
def State.selected (s : State) (p : Nat) : Option (Nat × QPkt) :=
  ([1, 0, 3, 2, 5, 4, 7, 6].filterMap fun q =>
    match s.queue p q with
    | [] => none
    | h :: _ =>
      if s.shaperOpen p q h.pkt && s.gateOpen p q h.pkt && s.beforeSleep p (s.frameTime p h.pkt) then some (q, h)
      else none).head?

/-- PORT_SELECT (R374): the lane of port `p` falls free and the port starts its next packet.  Where its buffered cells hold
an uncorrectable word (`dirty`), the packet goes with its trailer inverted (R443, R458). -/
def portSelect (p : Nat) (dirty : Bool) (s : State) : State :=
  if !s.maySend p then s
  else
    let s := (List.range 8).foldl (fun s q => State.dropNever p q (s.queue p q).length s) s
    let s := s.noteHeld p
    match s.selected p with
    | none => s
    | some (q, h) =>
      let s := (s.shaperCharge p q h.pkt).popQueue p q
      let f := s.frameTime p h.pkt
      let k := if dirty then { h.pkt with trailer := h.pkt.trailer ^^^ 0xFFFFFFFF } else h.pkt
      let s := if dirty then s.bump Reg.FLT_CNT_UE_PKT else s
      (s.transmit p k).upSp p fun x => { x with lane := some { queue := q, start := s.hclk, frame := f } }

/-- Whether a packet has been held longer than `FAB_HOLD_MAX` (R138). -/
def State.tooOld (s : State) (h : QPkt) : Bool :=
  decide (usToHclk (s.rd Reg.FAB_HOLD_MAX_US) < s.hclk - h.rx) && h.sent == 0

/-- PACKET_HOLD_EXPIRE (R138): every packet bound for a port that has been held too long, and is not crossing, is
discarded and counted at its egress port. -/
def packetHoldExpire (s : State) : State :=
  let oldV := (s.xbr.voqs.filter fun v => decide (v.1 / 8 % 64 < 32)).flatMap fun v =>
    (v.2.filter s.tooOld).map fun h => (v.1 / 8 % 64, h)
  let oldE := s.xbr.egress.flatMap fun v => (v.2.filter fun h => s.tooOld { h with sent := 0 }).map fun h => (v.1 / 8, h)
  let keepE := fun (h : QPkt) => !s.tooOld { h with sent := 0 }
  let s := s.upXbr fun x => { x with
    voqs := Tab.mapVals x.voqs fun k (l : List QPkt) => if k / 8 % 64 < 32 then l.filter (fun h => !s.tooOld h) else l,
    egress := Tab.mapVals x.egress fun _ (l : List QPkt) => l.filter keepE }
  let s := (oldV ++ oldE).foldl (fun s (o, h) => (s.ingressFree h).drop causeHOLD h.conn o) s
  (List.range 256).foldl (fun s k => s.noteDepth (k / 8) (k % 8)) s

/-- SCHEDULER_MATCH. -/
def execSchedulerMatch (s : State) : Host.Outcome State Fault Refusal := .next (schedulerMatch s)
/-- EGRESS_ENQUEUE. -/
def execEgressEnqueue (p : Nat) (s : State) : Host.Outcome State Fault Refusal := .next (egressEnqueue p s)
/-- PORT_SELECT. -/
def execPortSelect (p : Nat) (dirty : Bool) (s : State) : Host.Outcome State Fault Refusal := .next (portSelect p dirty s)
/-- PACKET_HOLD_EXPIRE. -/
def execPacketHoldExpire (s : State) : Host.Outcome State Fault Refusal := .next (packetHoldExpire s)

end Sys2Proof.Machine
end

