-- ==== Sys2Proof/Machine/Time.lean ====
section
/-!
DEFINITION. Chapter 12's commands: gate boundaries and take-overs, TIME exchanges, the servo's sources, PPS, link sleep
and wake, and policer reads.
Marks: DEDUCED 35, in notes/assumptions.
-/
namespace Sys2Proof.Machine

/-! Gate lists. -/

/-- GATE_ENTRY_BOUNDARY (R375, R393, R395): the active list of a port reaches its next entry; a resuming list takes over
from the fallback mask. -/
def gateEntryBoundary (p : Nat) (s : State) : State :=
  let l := s.activeList p
  if !portOk p || l.entries.isEmpty then s
  else
    let i := (locate l.entries 0 (l.pos s.tabor)).1
    if i == s.rd Reg.GATE_P_STAT_ENTRY p && l.entries.length != 1 then s
    else
      let s := (s.wr Reg.GATE_P_STAT_ENTRY i p).upSp p fun q =>
        { q with resuming := if s.on Reg.GATE_P_STAT_FAULT p then q.resuming else false }
      if i = 0 then s.wr Reg.GATE_P_CYCLES (s.rd Reg.GATE_P_CYCLES p + 1) p else s

/-- GATE_TAKEOVER (R377): a port's pending list becomes active once its time has come. -/
def gateTakeover (p : Nat) (s : State) : State := if portOk p && s.takeOverDue p then s.takeOver p else s

/-! TIME exchanges (R383–R385). -/

/-- Send a TIME or LINK frame: ahead of every queue, subject to neither shaper nor gate (R153). -/
def State.sendCtl (s : State) (p : Nat) (k : Packet) : State := s.transmit p k

/-- Whether a port sends REQs (R384): it is the PORT source, or it probes. -/
def State.sendsReq (s : State) (p : Nat) : Bool :=
  (s.rd Reg.GATE_TT_CTL_SRC == 2 && s.rd Reg.GATE_TT_CTL_SRC_PORT == p) || s.on Reg.GATE_P_TIME_PROBE p

/-- Whether a port is the servo's PORT source. -/
def State.isSource (s : State) (p : Nat) : Bool :=
  s.rd Reg.GATE_TT_CTL_SRC == 2 && s.rd Reg.GATE_TT_CTL_SRC_PORT == p

/-- TIME_REQ_SEND (R384): a REQ leaves a port that sends them, one period after its last. -/
def timeReqSend (p : Nat) (s : State) : State :=
  let due := match (s.sp p).reqAt with
    | none => true
    | some h => decide (usToHclk (s.rd Reg.GATE_TT_PERIOD_US) ≤ s.hclk - h)
  if s.knawenPort p && s.linkActive p && s.sendsReq p && due then
    let n := (s.sp p).nextTseq
    (s.sendCtl p (timePacket 0 n (stamp s.tabor))).upSp p fun q =>
      { q with lastReq := some { tseq := n, t1 := s.tabor, sent := s.hclk }, nextTseq := (n + 1) % 2 ^ 24,
               reqAt := some s.hclk }
  else s

/-- The head of a port's control queue when it is a TIME packet of the given type. -/
def State.headTime (s : State) (p type : Nat) : Option (Nat × Packet) :=
  match (s.port p).ctl with
  | (t, k) :: _ => if k.opcode == opTIME && k.arg % 256 == type then some (t, k) else none
  | [] => none

/-- TIME_REQ (R384): a port that holds a link key answers a REQ. -/
def timeReq (p : Nat) (s : State) : State :=
  match s.headTime p 0 with
  | none => s
  | some (t2, k) =>
    let s := s.popCtl p
    if !s.on Reg.FAB_PSTAT_SECURE p then s
    else
      let steps := s.rd Reg.GATE_TT_STAT_STEPS
      let source := if steps = 0xFF then 0xFFFF else s.rd Reg.GATE_TT_STAT_SOURCE
      s.sendCtl p (timePacket 1 (k.arg / 256) (slice k.payload 0 12 ++ stamp t2 ++ stamp s.tabor ++
        leBytes 1 steps ++ leBytes 1 (b2n s.locked) ++ leBytes 2 source))

/-- A timestamp read from a payload, in units of 2^-32 ns. -/
def stampAt (b : Bytes) (o : Nat) : Nat := fld b o 8 * 2 ^ 32 + fld b (o + 8) 4

/-- PORT_TIME_FAULT by a probe, and its clearing (R393). -/
def State.judgeProbe (s : State) (p : Nat) (theta : Int) : State :=
  let g := (s.portCfg p).guardNs * 2 ^ 32
  if (s.portCfg p).gateMode != 0 && decide (g < theta.natAbs) then s.raiseTimeFault p 1 (Int.fdiv theta (2 ^ 32))
  else if s.locked && decide (2 * theta.natAbs ≤ g) then s.clearTimeFault p
  else s

/-- TIME_RSP (R385): a matching RSP within 10 µs gives θ and δ and, at the source port with VALID and STEPS below 15, a
servo sample; any other RSP at the source port is a reject. -/
def timeRsp (p : Nat) (s : State) : State :=
  match s.headTime p 1 with
  | none => s
  | some (t4, k) =>
    let s := s.popCtl p
    let reject := fun (s : State) => if s.isSource p then s.bump Reg.GATE_TT_CNT_REJECT else s
    match (s.sp p).lastReq with
    | none => reject s
    | some r =>
      if r.tseq ≠ k.arg / 256 ∨ usToHclk 10 < s.hclk - r.sent then reject s
      else
        let t2 := stampAt k.payload 12
        let t3 := stampAt k.payload 24
        let fwd : Int := (t2 : Int) - r.t1
        let back : Int := (t4 : Int) - t3
        let asym := signed (s.rd Reg.GATE_P_ASYM_NS p) 16 * 2 ^ 32
        let theta := Int.fdiv (back - fwd - asym) 2
        let delta := Int.fdiv (back + fwd) 2
        let s := (s.wr Reg.GATE_P_TOFF_NS (satSigned (roundDiv theta (2 ^ 32)) 32) p).wr Reg.GATE_P_TDELAY_NS
          (clampInt (roundDiv delta (2 ^ 32)) 0 0xFFFF).toNat p
        let s := s.upSp p fun q => { q with lastReq := none, probe := some (theta, s.hclk) }
        let steps := fld k.payload 36 1
        let s :=
          if s.isSource p && fld k.payload 37 1 == 1 && decide (steps < 15) then
            ((s.servoSample theta).wr Reg.GATE_TT_STAT_STEPS (steps + 1)).wr Reg.GATE_TT_STAT_SOURCE (fld k.payload 38 2)
          else reject s
        s.judgeProbe p theta

/-- TIME_RSP_TIMEOUT (R385): a REQ left without an answer for 10 µs. -/
def timeRspTimeout (p : Nat) (s : State) : State :=
  match (s.sp p).lastReq with
  | none => s
  | some r =>
    if usToHclk 10 ≤ s.hclk - r.sent then
      let s := s.upSp p fun q => { q with lastReq := none }
      if s.isSource p then s.bump Reg.GATE_TT_CNT_REJECT else s
    else s

/-- SERVO_HOLDOVER (R381): eight periods without an accepted sample freeze the servo. -/
def servoHoldover (s : State) : State :=
  let st := s.rd Reg.GATE_TT_STAT_STATE
  let since := max (s.shp.lastSample.getD 0) s.shp.srcSince
  if (st == ttACQUIRE || st == ttLOCKED) && decide (8 * usToHclk (s.rd Reg.GATE_TT_PERIOD_US) ≤ s.hclk - since) then
    s.wr Reg.GATE_TT_STAT_STATE ttHOLDOVER
  else s

/-- What a write of `GATE_TT_SAMPLE` does (R380): one sample when the source is HOST. -/
def State.hostSampleOp (s : State) (v : Nat) : State :=
  if s.rd Reg.GATE_TT_CTL_SRC = 1 then s.servoSample (signed v 32 * 2 ^ 32) else s

/-- HOST_SAMPLE (R380): the driver writes θ to `GATE_TT_SAMPLE`. -/
def hostSample (a : Access) (v : Nat) (s : State) : State := s.window a 0x2800030 fun s => s.hostSampleOp v

/-- What a write of `GATE_TT_SET_HI` does (R380): tabor time steps to the pair's value, whole ns. -/
def State.taborSetOp (s : State) (hi : Nat) : State :=
  let s := s.wr Reg.GATE_TT_SET_HI hi
  let v := s.rd Reg.GATE_TT_SET_LO + 2 ^ 32 * (hi % 2 ^ 32)
  s.timeStep ((v * 2 ^ 32 : Nat) - (s.tabor : Int))

/-- TABOR_SET (R380, R537): the driver writes `GATE_TT_SET_HI`. -/
def taborSet (a : Access) (hi : Nat) (s : State) : State := s.window a 0x2800038 fun s => s.taborSetOp hi

/-- TABOR_REALIGN (R20): the master realigns the dies' copies, which this model keeps equal to it. -/
def taborRealign (s : State) : State := s.upShp fun b => { b with realigned := s.hclk }

/-- What a GO of `GATE_TT_PTM_CTL` does (R380): one PTM request leaves, its tabor time latched. -/
def State.ptmOp (s : State) : State :=
  if s.shp.ptm.isSome then s
  else
    let s := (s.wr Reg.GATE_TT_PTM_CTL_GO 1).wr64 Reg.GATE_TT_PTM_T1_LO Reg.GATE_TT_PTM_T1_HI s.tnow
    (s.upShp fun b => { b with ptm := some s.hclk }).emit (.message chPTM 0 [])

/-- PTM_DIALOGUE (R380): `GATE_TT_PTM_CTL.GO`. -/
def ptmDialogue (a : Access) (s : State) : State := s.window a 0x280003C State.ptmOp

/-- PTM_RESPONSE (R380): the response's arrival time, master time and propagation delay are latched. -/
def ptmResponse (masterTime delay : Nat) (s : State) : State :=
  if s.shp.ptm.isNone then s
  else
    let s := (s.upShp fun b => { b with ptm := none }).wr64 Reg.GATE_TT_PTM_T4_LO Reg.GATE_TT_PTM_T4_HI s.tnow
    let s := s.wr64 Reg.GATE_TT_PTM_MT_LO Reg.GATE_TT_PTM_MT_HI (masterTime % 2 ^ 64)
    ((s.wr Reg.GATE_TT_PTM_PD_NS delay).wr Reg.GATE_TT_PTM_CTL_GO 0).wr Reg.GATE_TT_PTM_CTL_FAIL 0

/-- PTM_TIMEOUT (R394): no response within 10 µs. -/
def ptmTimeout (s : State) : State :=
  match s.shp.ptm with
  | none => s
  | some t =>
    if usToHclk 10 ≤ s.hclk - t then
      ((s.upShp fun b => { b with ptm := none }).wr Reg.GATE_TT_PTM_CTL_GO 0).wr Reg.GATE_TT_PTM_CTL_FAIL 1
    else s

/-- PPS_OUT (R387, R524): the output rises as tabor time passes a whole second, for 1 ms. -/
def ppsOut (s : State) : State :=
  let sec := s.tnow / 1000000000
  if s.on Reg.GATE_TT_CTL_PPS_OUT && sec != s.shp.ppsLast then
    (s.upShp fun b => { b with ppsLast := sec, ppsFall := s.hclk + usToHclk 1000 }).drive pinPPS_OUT 1
  else s

/-- PPS_IN (R387, R459): a rising edge latches tabor time; one less than 0.5 s after the last accepted is ignored. -/
def ppsIn (s : State) : State :=
  let early := match s.shp.ppsEdge with
    | none => false
    | some h => decide (s.hclk - h < usToHclk 500000)
  if early then s.bump Reg.FLT_CNT_INPUT
  else (s.upShp fun b => { b with ppsEdge := some s.hclk }).wr64 Reg.GATE_TT_PPS_IN_LO Reg.GATE_TT_PPS_IN_HI s.tnow

/-! Sleep and wake (R388–R392). -/

/-- Wake window of a STATE, ns (R388). -/
def wakeWindow (st : Nat) : Nat := if st = pwrSLEEP then 20000 else 200

/-- The payload of a SLEEP message (R383). -/
def sleepBytes (e : Sleep) : Bytes := leBytes 8 e.enter ++ leBytes 8 e.wake ++ leBytes 1 e.state

/-- E, W and STATE read from a SLEEP message. -/
def sleepOf (k : Packet) : Sleep := { enter := fld k.payload 0 8, wake := fld k.payload 8 8, state := fld k.payload 16 1 }

/-- Whether E, W and STATE keep R389 at tabor time `t`. -/
def sleepValid (t : Nat) (e : Sleep) : Bool :=
  decide (t + 2000 * 2 ^ 32 ≤ e.enter * 2 ^ 32) &&
  ((e.state == pwrDOZE && decide (e.enter + 1000 ≤ e.wake)) || (e.state == pwrSLEEP && decide (e.enter + 100000 ≤ e.wake)))

/-- Whether two SLEEPs name the same (E, W, STATE). -/
def sameSleep (a b : Sleep) : Bool := a.enter == b.enter && a.wake == b.wake && a.state == b.state

/-- Propose a sleep (R389): only from an active, awake port with a LOCKED servo and no time fault (R391). -/
def State.propose (s : State) (p : Nat) (e : Sleep) : State :=
  if s.knawenPort p && s.linkActive p && s.locked && !s.on Reg.GATE_P_STAT_FAULT p && (s.sp p).sleep.isNone &&
      sleepValid s.tabor e then
    (s.sendCtl p (timePacket 2 0 (sleepBytes e))).upSp p fun q => { q with sleep := some { e with mine := true } }
  else s

/-- What a write of `GATE_P_PWR.REQ` does (R391): the explicit sleep is proposed once. -/
def State.sleepRequestOp (s : State) (p : Nat) : State :=
  s.propose p { enter := s.rd64 Reg.GATE_P_PWR_E_LO Reg.GATE_P_PWR_E_HI p,
                wake := s.rd64 Reg.GATE_P_PWR_W_LO Reg.GATE_P_PWR_W_HI p, state := s.rd Reg.GATE_P_PWR_STATE p }

/-- SLEEP_REQUEST (R391): `GATE_P_PWR.REQ`. -/
def sleepRequest (a : Access) (p : Nat) (s : State) : State :=
  if portOk p then s.window a (0x2810020 + 0x100 * p) fun s => s.sleepRequestOp p else s

/-- The next run of mask-0 entries in a list whose start lies at or after a tabor time in ns: start and end, ns. -/
def GateList.nextQuiet (l : GateList) (t : Nat) : Option (Nat × Nat) :=
  if l.entries.isEmpty || l.entries.all fun e => e.1 == 0 then none
  else
    let n := l.entries.length
    let starts := (List.range n).filter fun i =>
      (l.entries.getD i (0, 0)).1 == 0 && (l.entries.getD ((i + n - 1) % n) (0, 0)).1 != 0
    let runs := starts.map fun i =>
      let off := ((l.entries.take i).map (·.2)).sum
      let dur := (((rotated l.entries i).takeWhile fun e => e.1 == 0).map (·.2)).sum
      let first := l.anchor + off
      let e := if t ≤ first then first else first + ceilDiv (t - first) l.cycle * l.cycle
      (e, e + dur)
    (sortBy (·.1) runs).head?

/-- SLEEP_PROPOSE (R391): a port in native gate mode with AUTO set proposes its next quiet run, 10 µs ahead.  When the
partner has AUTO set too, only the SPDM requester proposes. -/
def sleepPropose (p : Nat) (partnerAuto : Bool) (s : State) : State :=
  let auto := s.rd Reg.GATE_P_PWR_AUTO p
  if !portOk p || auto == 0 || (s.portCfg p).gateMode != 1 || (partnerAuto && !s.spdmRequester p) then s
  else
    match (s.activeList p).nextQuiet (s.tnow + 2001) with
    | none => s
    | some (e, w) =>
      if e ≤ s.tnow + 10000 ∧ (s.sp p).proposed ≠ some e then
        (s.upSp p fun q => { q with proposed := some e }).propose p { enter := e, wake := w, state := auto }
      else s

/-- The REASON for which a SLEEP is refused (R390), 0 for none. -/
def State.nakReason (s : State) (p : Nat) (e : Sleep) : Nat :=
  let near := match (s.sp p).probe with
    | none => false
    | some (th, h) => decide (s.hclk - h ≤ 8 * usToHclk (s.rd Reg.GATE_TT_PERIOD_US)) &&
        decide (2 * th.natAbs ≤ (s.portCfg p).guardNs * 2 ^ 32)
  if !s.on Reg.GATE_P_PWR_ACCEPT p then 1
  else if !s.locked || s.on Reg.GATE_P_STAT_FAULT p then 2
  else if !near then 3
  else if !sleepValid s.tabor e then 4
  else 0

/-- Answer a partner's SLEEP by R390. -/
def State.answerSleep (s : State) (p : Nat) (k : Packet) : State :=
  let e := sleepOf k
  let r := s.nakReason p e
  if r = 0 then
    (s.sendCtl p (timePacket 3 (k.arg / 256) (sleepBytes e))).upSp p fun q => { q with sleep := some { e with agreed := true } }
  else (s.sendCtl p (timePacket 4 (k.arg / 256) (sleepBytes e ++ leBytes 1 r))).bump Reg.GATE_P_CNT_NAK p

/-- SLEEP (R389, R390): a partner's SLEEP.  One that equals this side's own crossing SLEEP is its ACK; of two that differ
the SPDM requester's stands. -/
def sleepMsg (p : Nat) (s : State) : State :=
  match s.headTime p 2 with
  | none => s
  | some (_, k) =>
    let s := s.popCtl p
    match (s.sp p).sleep with
    | none => s.answerSleep p k
    | some o =>
      if o.agreed || !o.mine then s.answerSleep p k
      else if sameSleep o (sleepOf k) then s.upSp p fun q => { q with sleep := some { o with agreed := true } }
      else if s.spdmRequester p then s
      else (s.upSp p fun q => { q with sleep := none }).answerSleep p k

/-- SLEEP_ACK (R389): the partner agrees; an ACK later than E − 1 µs does not count. -/
def sleepAck (p : Nat) (s : State) : State :=
  match s.headTime p 3 with
  | none => s
  | some (_, k) =>
    let s := s.popCtl p
    match (s.sp p).sleep with
    | none => s
    | some o =>
      if o.mine && sameSleep o (sleepOf k) && decide (s.tabor + 1000 * 2 ^ 32 ≤ o.enter * 2 ^ 32) then
        s.upSp p fun q => { q with sleep := some { o with agreed := true } }
      else s

/-- SLEEP_NAK (R390): the partner refuses. -/
def sleepNak (p : Nat) (s : State) : State :=
  match s.headTime p 4 with
  | none => s
  | some (_, k) =>
    let s := (s.popCtl p).bump Reg.GATE_P_CNT_NAK p
    match (s.sp p).sleep with
    | none => s
    | some o => if o.mine && sameSleep o (sleepOf k) then s.upSp p fun q => { q with sleep := none } else s

/-- SLEEP_ENTER (R389): at E the port enters the agreed STATE.  An initiator without an answer takes the loss of its
partner's signal as the ACK; otherwise its proposal lapses. -/
def sleepEnter (p : Nat) (signalLost : Bool) (s : State) : State :=
  match (s.sp p).sleep with
  | none => s
  | some o =>
    if !portOk p || decide (s.tabor < o.enter * 2 ^ 32) || s.rd Reg.GATE_P_STAT_PWR p != pwrACTIVE then s
    else if o.agreed || (o.mine && signalLost) then
      ((s.wr Reg.GATE_P_STAT_PWR o.state p).bump Reg.GATE_P_CNT_SLEEP p).upSp p fun q =>
        { q with sleep := some { o with agreed := true } }
    else s.upSp p fun q => { q with sleep := none }

/-- WAKE_START (R389): at W minus the wake window the port starts to wake. -/
def wakeStart (p : Nat) (s : State) : State :=
  match (s.sp p).sleep with
  | none => s
  | some o =>
    let st := s.rd Reg.GATE_P_STAT_PWR p
    if portOk p && (st == pwrDOZE || st == pwrSLEEP) &&
        decide (o.wake * 2 ^ 32 ≤ s.tabor + wakeWindow o.state * 2 ^ 32) then
      s.wr Reg.GATE_P_STAT_PWR pwrWAKING p
    else s

/-- Send a LINK BEAT (R141, R157). -/
def State.sendBeat (s : State) (p : Nat) : State :=
  (s.sendCtl p (linkPacket 0 (s.port p).beatsSent [])).upPort p fun q => { q with beatsSent := (q.beatsSent + 1) % 2 ^ 24 }

/-- WAKE (R389): at W the port is ACTIVE again and a BEAT is its first frame. -/
def wake (p : Nat) (s : State) : State :=
  match (s.sp p).sleep with
  | none => s
  | some o =>
    if portOk p && s.rd Reg.GATE_P_STAT_PWR p == pwrWAKING && decide (o.wake * 2 ^ 32 ≤ s.tabor) then
      let s := (s.wr Reg.GATE_P_STAT_PWR pwrACTIVE p).upSp p fun q => { q with sleep := none, awaiting := some o.wake }
      (s.sendBeat p).upPort p fun q => { q with lastBeat := s.hclk }
    else s

/-- MISSED_WAKE (R392): no frame from the partner by W + GUARD_NS + δ. -/
def missedWake (p : Nat) (s : State) : State :=
  match (s.sp p).awaiting with
  | none => s
  | some w =>
    let limit := w + (s.portCfg p).guardNs + s.rd Reg.GATE_P_TDELAY_NS p
    if portOk p && decide (limit * 2 ^ 32 ≤ s.tabor) then
      let s := (s.upSp p fun q => { q with awaiting := none }).retrain p
      let s := (s.bump Reg.GATE_P_CNT_MISSED p).charge clsPORT p 1 1 1 64
      s.raiseTimeFault p 0 (signed (s.rd Reg.GATE_P_TOFF_NS p) 32)
    else s

/-- What a W1C of `GATE_P_STAT.FAULT` does (R393): it takes effect only while the servo is LOCKED. -/
def State.timeFaultClearOp (s : State) (p : Nat) : State := if s.locked then s.clearTimeFault p else s

/-- TIME_FAULT_CLEAR (R393): W1C of `GATE_P_STAT.FAULT`. -/
def timeFaultClear (a : Access) (p : Nat) (s : State) : State :=
  if portOk p then s.window a (0x2810000 + 0x100 * p) fun s => s.timeFaultClearOp p else s

/-! Policer reads (R396). -/

/-- What a GO of `SHP_POL_OP` does. -/
def State.polReadOp (s : State) : State :=
  let clid := s.rd Reg.SHP_POL_INDEX_CLID
  let c := s.rd Reg.SHP_POL_INDEX_CLASS
  let s := s.wr Reg.SHP_POL_STATUS_DONE 1
  match Tab.find? s.cfg.police clid with
  | none => s.wr Reg.SHP_POL_STATUS_STATUS stKEY_DENIED
  | some r =>
    let burst := r.bursts.getD c 0
    let rate := r.rates.getD c 0
    let b := Tab.getD s.shp.buckets (clid * 4 + c) { tokens := burst * 65536, last := s.hclk }
    let tk := min (burst * 65536) (b.tokens + refill rate (s.hclk - b.last))
    let s := (s.wr Reg.SHP_POL_STATUS_STATUS stOK).wr Reg.SHP_POL_RATE_MBPS rate
    let s := (s.wr Reg.SHP_POL_BURST_BYTES burst).wr Reg.SHP_POL_TOKENS_BYTES (tk / 65536)
    (s.wr Reg.SHP_POL_PASS b.pass).wr Reg.SHP_POL_DROP b.dropped

/-- SHP_POL_READ (R396): `SHP_POL_OP.GO`. -/
def shpPolRead (a : Access) (s : State) : State := s.window a 0x2820004 State.polReadOp

def execGateEntryBoundary (p : Nat) (s : State) : Host.Outcome State Fault Refusal := .next (gateEntryBoundary p s)
def execGateTakeover (p : Nat) (s : State) : Host.Outcome State Fault Refusal := .next (gateTakeover p s)
def execTimeReqSend (p : Nat) (s : State) : Host.Outcome State Fault Refusal := .next (timeReqSend p s)
def execTimeReq (p : Nat) (s : State) : Host.Outcome State Fault Refusal := .next (timeReq p s)
def execTimeRsp (p : Nat) (s : State) : Host.Outcome State Fault Refusal := .next (timeRsp p s)
def execTimeRspTimeout (p : Nat) (s : State) : Host.Outcome State Fault Refusal := .next (timeRspTimeout p s)
def execServoHoldover (s : State) : Host.Outcome State Fault Refusal := .next (servoHoldover s)
def execHostSample (a : Access) (v : Nat) (s : State) : Host.Outcome State Fault Refusal := .next (hostSample a v s)
def execTaborSet (a : Access) (hi : Nat) (s : State) : Host.Outcome State Fault Refusal := .next (taborSet a hi s)
def execTaborRealign (s : State) : Host.Outcome State Fault Refusal := .next (taborRealign s)
def execPtmDialogue (a : Access) (s : State) : Host.Outcome State Fault Refusal := .next (ptmDialogue a s)
def execPtmResponse (masterTime delay : Nat) (s : State) : Host.Outcome State Fault Refusal :=
  .next (ptmResponse masterTime delay s)
def execPtmTimeout (s : State) : Host.Outcome State Fault Refusal := .next (ptmTimeout s)
def execPpsOut (s : State) : Host.Outcome State Fault Refusal := .next (ppsOut s)
def execPpsIn (s : State) : Host.Outcome State Fault Refusal := .next (ppsIn s)
def execSleep (p : Nat) (s : State) : Host.Outcome State Fault Refusal := .next (sleepMsg p s)
def execSleepAck (p : Nat) (s : State) : Host.Outcome State Fault Refusal := .next (sleepAck p s)
def execSleepNak (p : Nat) (s : State) : Host.Outcome State Fault Refusal := .next (sleepNak p s)
def execSleepPropose (p : Nat) (partnerAuto : Bool) (s : State) : Host.Outcome State Fault Refusal :=
  .next (sleepPropose p partnerAuto s)
def execSleepRequest (a : Access) (p : Nat) (s : State) : Host.Outcome State Fault Refusal := .next (sleepRequest a p s)
def execSleepEnter (p : Nat) (signalLost : Bool) (s : State) : Host.Outcome State Fault Refusal :=
  .next (sleepEnter p signalLost s)
def execWakeStart (p : Nat) (s : State) : Host.Outcome State Fault Refusal := .next (wakeStart p s)
def execWake (p : Nat) (s : State) : Host.Outcome State Fault Refusal := .next (wake p s)
def execMissedWake (p : Nat) (s : State) : Host.Outcome State Fault Refusal := .next (missedWake p s)
def execTimeFaultClear (a : Access) (p : Nat) (s : State) : Host.Outcome State Fault Refusal := .next (timeFaultClear a p s)
def execShpPolRead (a : Access) (s : State) : Host.Outcome State Fault Refusal := .next (shpPolRead a s)

end Sys2Proof.Machine
end

