-- ==== Sys2Proof/Machine/Links.lean ====
section
/-!
DEFINITION. Engine answers and timeouts, liveness, dead homes, link training and link keys (chapter 04, R140–R158), and tray
links that go down (R77, R78).
Marks: DEDUCED 22, 23, in notes/assumptions.
-/
namespace Sys2Proof.Machine

/-! Engine requests (R140, R350). -/

/-- Give a command's request its final answer, and let a COMMIT that waits for it go on (R334). -/
def State.engDone (s : State) (e : EngReq) (st : Nat) (d : Bytes) : State := (s.peerAnswer e.cid e.tag st d).ckpMarks e.cid

/-- ENGINE_RESPONSE (R350): the oldest response for this switch's own endpoint goes to the unit that holds its request;
with none it is discarded (R140). -/
def engineResponse (s : State) : State :=
  match s.fab.rsp with
  | [] => s
  | q :: rest =>
    let s := s.upFab fun b => { b with rsp := rest }
    let k := q.pkt
    match (Tab.find? s.fab.eng k.seq).filter fun e => k.opcode == e.pkt.opcode + 0x80 with
    | none => s.drop causeNO_REQUEST q.conn q.conn
    | some e =>
      let s := s.ccSeen e.home k
      match s.engOutcome e k.status with
      | none =>
        s.upFab fun b => { b with eng := Tab.put b.eng k.seq { e with due := s.hclk + s.timeoutHclk / 8 } }
      | some st => s.engDone e st k.payload

/-- ENGINE_TIMEOUT (R140): the time of request `seq` has passed, TIMEOUT_NS for a copy without a response or
TIMEOUT_NS / 8 after a RETRY: the next copy goes out, or the operation completes TIMEOUT. -/
def engineTimeout (seq : Nat) (s : State) : State :=
  match Tab.find? s.fab.eng seq with
  | none => s
  | some e =>
    if s.hclk < e.due then s
    else if e.copies ≤ s.cfg.device.retries then s.engResend seq e
    else s.engDone e stTIMEOUT []

/-! Fence tracking (R150). -/

/-- Positions of the requests held behind position `i`: those with FENCE set, and those behind one of them in its class. -/
def heldBehind (t : FenceTrack) (i : Nat) : List Nat :=
  (t.zipIdx.filter fun (e, j) => decide (i < j) && e.held.isSome).foldl (fun acc (e, j) =>
    if e.fence || (t.zipIdx.any fun (x, k) => acc.contains k && x.cls == e.cls) then acc ++ [j] else acc) []

/-- FENCE_TRACK_TIMEOUT (R150): a tracked request of client `clid` has had no response within (RETRIES + 1) × TIMEOUT_NS
of its first copy.  Every request held behind it is answered TIMEOUT, and its tracking is dropped. -/
def fenceTrackTimeout (clid src seq : Nat) (s : State) : State :=
  let t := Tab.getD s.fab.fences clid []
  match t.findIdx? fun e => e.tracked && e.held.isNone && e.src == src && e.seq == seq with
  | none => s
  | some i =>
    if s.hclk < ((t[i]?).map (·.first)).getD 0 + (s.cfg.device.retries + 1) * s.timeoutHclk then s
    else
      let js := heldBehind t i
      let gone := js.filterMap fun j => (t[j]?).bind fun e => e.held
      let t : FenceTrack := (t.zipIdx.filter fun (_, j) => j != i && !js.contains j).map (·.1)
      let s := s.upFab fun b => { b with fences := Tab.put b.fences clid t }
      let s := gone.foldl (fun s q =>
        let r := respond q.pkt stTIMEOUT 0 (emptyPayload q.pkt)
        ((s.ingressFree q).bump Reg.FAB_FENCE_TO).send connHE0 r) s
      s.sweepFences

/-! Liveness (R141, R142). -/

/-- The engines' requests to dead homes complete TARGET_DEAD at once (R142). -/
def State.failEngines (s : State) : State :=
  (s.fab.eng.filter fun e => s.homeDead e.2.home).foldl (fun s e => s.engDone e.2 stTARGET_DEAD []) s

/-- A port's neighbour is declared dead, with everything that follows in the same cycle (R141, R142, R187, R355).  `cause`
is 0 for beats and 1 for a link down. -/
def State.neighbourDead (s : State) (p cause : Nat) : State := ((s.declareDead p cause).failEngines).redDead

/-- BEAT_SEND (R141): a beat on an active link.  A switch that is down sends none (R144). -/
def beatSend (p : Nat) (s : State) : State :=
  if s.knawenPort p && s.linkActive p && !s.fatal then s.sendBeat p else s

/-- BEAT_MISS (R141, R158): a 10 µs interval passes without a BEAT on an active link; the third in a row is 30 µs. -/
def beatMiss (p : Nat) (s : State) : State :=
  if s.knawenPort p && s.linkActive p then
    let s := (s.bump Reg.FAB_PSTAT_BEAT_MISS p).bump Reg.FAB_CNT_BEAT_MISS p
    if 3 ≤ s.rd Reg.FAB_PSTAT_BEAT_MISS p then s.neighbourDead p 0 else s
  else s

/-- Bring a port down (R141, R158): its keys go, and what it held for its partner with them. -/
def State.portDown (s : State) (p : Nat) : State :=
  let s := (((s.wr Reg.FAB_PSTAT_UP 0 p).wr Reg.FAB_PSTAT_SECURE 0 p).wr Reg.FAB_PSTAT_RETRAIN 0 p).wr Reg.FAB_PSTAT_KEY_SLOT 0 p
  let s := s.upPort p fun q =>
    { q with lastRx := none, nextTx := 0, rxSwitch := none, txSwitch := none, txAcked := false, ctl := [], spdm := 0 }
  let s := (s.wr Reg.GATE_P_STAT_PWR pwrACTIVE p).upSp p fun q => { q with sleep := none, awaiting := none, lastReq := none }
  s.neighbourDead p 1

/-- LINK_DOWN (R141): the port's link goes down. -/
def linkDown (p : Nat) (cause : DownCause) (s : State) : State :=
  if !s.knawenPort p then s
  else
    let lost := cause == .lockLost && !s.on Reg.FAB_PSTAT_RETRAIN p
    let s := if lost then s.event { code := evLINK_LOSS, sev := sevWARN, health := true, params := [p], cls := clsPORT, inst := p }
      else s
    (if cause == .poweredDown then s.upPort p fun q => { q with powered := false } else s).portDown p

/-- What a write of 1 to bits of `FAB_DEAD_i` does (R143): a home revives only where its route has a port with a live
neighbour. -/
def State.deadClearOp (s : State) (i v : Nat) : State :=
  (bitList 32 v).foldl (fun s b =>
    let h := 32 * i + b
    if s.homeDead h && (bitList 32 (s.routePorts h)).any s.alive then
      s.wr Reg.FAB_DEAD (setBits (s.rd Reg.FAB_DEAD i) b 1 0) i
    else s) s

/-- FAB_DEAD_CLEAR (R143): a write of `v` to `FAB_DEAD_i`. -/
def fabDeadClear (a : Access) (i v : Nat) (s : State) : State :=
  if i < 128 then s.window a (0x2200100 + 4 * i) fun s => s.deadClearOp i v else s

/-- LINK_RETRAIN (R141, R450): a port begins to retrain; `lanes` are those that lost lock. -/
def linkRetrain (p lanes : Nat) (s : State) : State :=
  if !s.knawenPort p || !s.on Reg.FAB_PSTAT_UP p then s
  else
    let s := s.retrain p
    let ls := bitList 8 lanes
    let s := ls.foldl (fun s l => s.charge clsLANE (8 * p + l) 1 1 1 256) s
    if ls.isEmpty then s
    else s.event { code := evLINK_LOSS, sev := sevWARN, health := true, params := [p], cls := clsPORT, inst := p }

/-- LINK_TRAINED (R152, R158): a powered port trains with a partner in lane mode `partnerMode`.  Ends in different modes
never train. -/
def linkTrained (p partnerMode : Nat) (s : State) : State :=
  if !s.knawenPort p || !(s.port p).powered || s.on Reg.FAB_PSTAT_UP p then s
  else if partnerMode ≠ (s.portCfg p).laneMode then
    s.event { code := evLINK_MODE, sev := sevERROR, health := true, params := [p], cls := clsPORT, inst := p }
  else (s.wr Reg.FAB_PSTAT_UP 1 p).wr Reg.FAB_PSTAT_RETRAIN 0 p

/-! LINK packets (R157). -/

/-- The control packet at the head of a port's queue, where it is a LINK packet of a type. -/
def State.headLink (s : State) (p type : Nat) : Option Packet :=
  match (s.port p).ctl with
  | (_, k) :: _ => if k.opcode == opLINK && k.arg % 256 == type then some k else none
  | [] => none

/-- LINK_BEAT (R157, R158): the neighbour is alive. -/
def linkBeat (p : Nat) (s : State) : State :=
  match s.headLink p 0 with
  | none => s
  | some _ =>
    (((s.popCtl p).wr Reg.FAB_PSTAT_BEAT_MISS 0 p).wr Reg.FAB_PSTAT_DEAD 0 p).upPort p fun q =>
      { q with lastBeat := s.hclk, beatSeen := true }

/-- Send a LINK SPDM frame: DATA is the message's length, and the payload is padded to granules (R157). -/
def State.sendSpdm (s : State) (p : Nat) (m : Bytes) : State :=
  s.sendCtl p (linkPacket 1 m.length (padTo (roundUp m.length 64) m))

/-- LINK_SPDM (R155, R157): one SPDM message of the link session; the responder answers it. -/
def linkSpdm (p : Nat) (s : State) : State :=
  match s.headLink p 1 with
  | none => s
  | some k =>
    let m := k.payload.take (k.arg / 256)
    let n := (s.port p).spdm
    let s := (s.popCtl p).upPort p fun q => { q with spdm := q.spdm + 1 }
    if s.spdmRequester p then s else s.sendSpdm p (Config.standardReply 0 m n)

/-- KEY_UPDATE_START (R156): the requester runs KEY_UPDATE, and the sending direction switches at packet `first`. -/
def keyUpdateStart (p first : Nat) (s : State) : State :=
  if s.knawenPort p && s.linkActive p && (s.port p).txSwitch.isNone && decide ((s.port p).nextTx < first) then
    let s := if s.spdmRequester p then s.sendSpdm p (Config.standardReply 1 [] (s.port p).nextTx) else s
    (s.upPort p fun q => { q with txSwitch := some first, txAcked := false }).sendCtl p
      (linkPacket 2 0 (padTo 64 (leBytes 8 first)))
  else s

/-- KEY_SWITCH (R156): the partner names the first packet under its new key; it is answered KEY_ACK. -/
def keySwitch (p : Nat) (s : State) : State :=
  match s.headLink p 2 with
  | none => s
  | some k =>
    let s := (s.popCtl p).upPort p fun q => { q with rxSwitch := some (fld k.payload 0 8) }
    s.sendCtl p (linkPacket 3 0 k.payload)

/-- KEY_ACK (R156): the partner has taken the number of this side's switch. -/
def keyAck (p : Nat) (s : State) : State :=
  match s.headLink p 3 with
  | none => s
  | some k =>
    let s := s.popCtl p
    if (s.port p).txSwitch = some (fld k.payload 0 8) then
      (s.upPort p fun q => { q with txAcked := true }).txSwitched p
    else s

/-! Trays (R77, R78). -/

/-- A tray is down: TRAY_DOWN, and moves from or to it end TARGET_DEAD. `cause` is P1 of the record. -/
def State.trayDown (s : State) (t cause : Nat) : State :=
  let s := s.upPool fun b => { b with trays := Tab.put b.trays t { Tab.getD b.trays t {} with up := false } }
  let s := s.event { code := evTRAY_DOWN, sev := sevERROR, health := true, params := [t, cause], cls := clsPORT, inst := t }
  let onIt := fun (tier loc : Nat) => tier == tierTRAY && (locPlace tier loc).1 == t
  (s.pool.moves.filter fun m => onIt m.2.srcTier m.2.srcLoc || onIt m.2.destTier m.2.dest).foldl
    (fun s m => s.abortMove m.1 stTARGET_DEAD) s

/-- TRAY_LINK_DOWN (R77): the link of tray port `p` goes down. -/
def trayLinkDown (p : Nat) (s : State) : State :=
  let t := s.trayPort p
  if portOk p && (s.portCfg p).role == roleTray && (s.trayRec t).up then s.trayDown t 0 else s

def execEngineResponse (s : State) : Host.Outcome State Fault Refusal := .next (engineResponse s)
def execEngineTimeout (seq : Nat) (s : State) : Host.Outcome State Fault Refusal := .next (engineTimeout seq s)
def execFenceTrackTimeout (clid src seq : Nat) (s : State) : Host.Outcome State Fault Refusal :=
  .next (fenceTrackTimeout clid src seq s)
def execBeatSend (p : Nat) (s : State) : Host.Outcome State Fault Refusal := .next (beatSend p s)
def execBeatMiss (p : Nat) (s : State) : Host.Outcome State Fault Refusal := .next (beatMiss p s)
def execLinkDown (p : Nat) (cause : DownCause) (s : State) : Host.Outcome State Fault Refusal := .next (linkDown p cause s)
def execFabDeadClear (a : Access) (i v : Nat) (s : State) : Host.Outcome State Fault Refusal := .next (fabDeadClear a i v s)
def execLinkRetrain (p lanes : Nat) (s : State) : Host.Outcome State Fault Refusal := .next (linkRetrain p lanes s)
def execLinkTrained (p partnerMode : Nat) (s : State) : Host.Outcome State Fault Refusal := .next (linkTrained p partnerMode s)
def execLinkBeat (p : Nat) (s : State) : Host.Outcome State Fault Refusal := .next (linkBeat p s)
def execLinkSpdm (p : Nat) (s : State) : Host.Outcome State Fault Refusal := .next (linkSpdm p s)
def execKeyUpdateStart (p first : Nat) (s : State) : Host.Outcome State Fault Refusal := .next (keyUpdateStart p first s)
def execKeySwitch (p : Nat) (s : State) : Host.Outcome State Fault Refusal := .next (keySwitch p s)
def execKeyAck (p : Nat) (s : State) : Host.Outcome State Fault Refusal := .next (keyAck p s)
def execTrayLinkDown (p : Nat) (s : State) : Host.Outcome State Fault Refusal := .next (trayLinkDown p s)

end Sys2Proof.Machine
end

