-- ==== Sys2Proof/Machine/Rte.lean ====
section
/-!
DEFINITION. The two banks of the route tables and their swap, and the capture ring's enabling (chapter 11, R354–R362, R365,
R367).
Marks: DEDUCED 22, 32, 34; DESIGN CHOICE 8, in notes/assumptions.
-/
namespace Sys2Proof.Machine

/-! Records (R48, R367). -/

def routeBytes (isLocal : Bool) (home portset : Nat) : Bytes :=
  [0, BitVec.ofNat 8 (b2n isLocal)] ++ leBytes 2 home ++ leBytes 4 portset ++ leBytes 8 0

def matchBytes (i : Nat) (e : MatchEnt) : Bytes :=
  [1, BitVec.ofNat 8 e.priority] ++ leBytes 2 i ++ leBytes 2 e.dst ++ leBytes 2 e.dstMask ++ leBytes 1 e.opcode ++
  leBytes 1 e.opcMask ++ leBytes 1 e.action ++ leBytes 1 (b2n e.valid) ++ leBytes 4 e.portset

def seedBytes (v : Nat) : Bytes := [2, 0, 0, 0] ++ leBytes 4 v ++ leBytes 8 0

/-- The entry of a bank: its record, and its map. -/
def Bank.entry (b : Bank) (table i : Nat) : Bytes × List Nat :=
  match table with
  | 0 =>
    let e := Tab.getD b.routes i {}
    (routeBytes e.isLocal i e.portset, e.map)
  | 1 =>
    let e := Tab.getD b.matches_ i { valid := false }
    (matchBytes i e, e.map)
  | _ => (seedBytes (b.seed.getD 0), [])

/-- Whether INDEX lies outside its table (R367). -/
def rteOutside (table i : Nat) : Bool := (table == 1 && decide (1023 < i)) || (table == 2 && i != 0)

def State.rteEnd (s : State) (st : Nat) : State := s.setEnd Reg.RTE_STATUS_STATUS Reg.RTE_STATUS_DONE st

/-- RTE READ (R357, R367). -/
def State.rteRead (s : State) : State :=
  let t := s.rd Reg.RTE_INDEX_TABLE
  let i := s.rd Reg.RTE_INDEX_INDEX
  if t = 3 then s.rteEnd stMALFORMED
  else if rteOutside t i then s.rteEnd stRANGE
  else
    let b := if s.on Reg.RTE_INDEX_BANK then s.shadow else s.bank
    let (r, m) := b.entry t i
    let m : Bytes := (List.range 64).map fun k => BitVec.ofNat 8 (m.getD k 0xFF)
    let s := (List.range 4).foldl (fun s w => s.wr Reg.RTE_DATA (fld r (4 * w) 4) w) s
    let s := (List.range 16).foldl (fun s w => s.wr Reg.RTE_MAP (fld m (4 * w) 4) w) s
    s.rteEnd stOK

/-- Whether fields of a record lie outside R48's ranges (R357, R367). -/
def rteRangesBad (s : State) (i : Nat) (r : Bytes) : Bool :=
  let ps := fld r 4 4
  match fld r 0 1 with
  | 0 =>
    fld r 1 1 ≥ 2 || fld r 2 2 != i || !zeroAt r 8 8 || (fld r 1 1 == 1 && ps != 0) || decide (16 < popcount 32 ps) ||
      (bitList 32 ps).any fun p => (s.portCfg p).role != roleUplink
  | 1 =>
    decide (15 < fld r 1 1) || fld r 2 2 != i || decide (2 < fld r 10 1) || decide (1 < fld r 11 1) ||
      (if fld r 10 1 = 0 then !portsetOk (fld r 12 4) else fld r 12 4 != 0)
  | _ => !zeroAt r 1 3 || !zeroAt r 8 8

/-- The status of a WRITE of a record into the shadow (R357). -/
def State.rteWriteStatus (s : State) (t i : Nat) (r : Bytes) : Nat :=
  if s.xbr.swap.isSome then stRETRY
  else if t = 3 || fld r 0 1 != t then stMALFORMED
  else if rteOutside t i then stRANGE
  else if rteRangesBad s i r then stMALFORMED
  else if t = 0 && (fld r 1 1 == 1 || i == s.rd Reg.POOL_HOME_HOME) then stRANGE
  else stOK

/-- A bank with a record written; a route of PORTSET 0 is no route. -/
def Bank.write (b : Bank) (i : Nat) (r : Bytes) : Bank :=
  match fld r 0 1 with
  | 0 =>
    if fld r 4 4 = 0 then { b with routes := Tab.del b.routes i }
    else { b with routes := Tab.put b.routes i { portset := fld r 4 4 } }
  | 1 =>
    let e : MatchEnt := { valid := bit (fld r 11 1) 0, priority := fld r 1 1, dst := fld r 4 2, dstMask := fld r 6 2
                          opcode := fld r 8 1, opcMask := fld r 9 1, action := fld r 10 1, portset := fld r 12 4 }
    { b with matches_ := Tab.put b.matches_ i e }
  | _ => { b with seed := some (fld r 4 4) }

/-- RTE WRITE (R357).  A written entry is correctable again (R444). -/
def State.rteWrite (s : State) : State :=
  let t := s.rd Reg.RTE_INDEX_TABLE
  let i := s.rd Reg.RTE_INDEX_INDEX
  let r := ((List.range 4).map fun w => leBytes 4 (s.rd Reg.RTE_DATA w)).flatten
  let st := s.rteWriteStatus t i r
  if st ≠ stOK then s.rteEnd st
  else
    let key := (1 - s.rd Reg.RTE_ACTIVE_BANK) * 2 ^ 16 + t * 2 ^ 12 + i
    let s := s.upFlt fun f => { f with badEntries := f.badEntries.filter fun k => k != key }
    (s.setShadow (s.shadow.write i r)).rteEnd stOK

/-- RTE COPY (R357). -/
def State.rteCopy (s : State) : State :=
  if s.xbr.swap.isSome then s.rteEnd stRETRY else (s.setShadow s.bank).rteEnd stOK

/-! The swap (R358). -/

/-- The shadow with its maps prepared. -/
def State.prepared (s : State) (rebuild : Bool) : Bank :=
  let b := s.shadow
  let a := s.bank
  let routes := Tab.mapVals b.routes fun i e =>
    match Tab.find? a.routes i with
    | some o => if !rebuild && o.portset == e.portset && o.isLocal == e.isLocal then { e with map := o.map }
                else { e with map := s.buildMap e.portset }
    | none => { e with map := s.buildMap e.portset }
  let ms := Tab.mapVals b.matches_ fun i e =>
    let fresh := if e.action = 0 then s.buildMap e.portset else []
    match Tab.find? a.matches_ i with
    | some o => if !rebuild && o.portset == e.portset && o.action == e.action then { e with map := o.map }
                else { e with map := fresh }
    | none => { e with map := fresh }
  { b with routes := routes, matches_ := ms }

/-- Accept a swap: its maps are prepared, and it is pending until it takes effect. -/
def State.acceptSwap (s : State) (atNs : Option Nat) : State :=
  let s := s.setShadow (s.prepared (s.on Reg.RTE_OP_REBUILD))
  ((s.upXbr fun x => { x with swap := some { atNs := atNs } }).wr Reg.RTE_OP_PENDING 1).rteEnd stOK

/-- SWAP (R357). -/
def State.rteSwap (s : State) : State := if s.xbr.swap.isSome then s.rteEnd stRETRY else s.acceptSwap none

/-- SWAP_AT (R357): refused for a time less than 20 µs away. -/
def State.rteSwapAt (s : State) : State :=
  let t := s.rd64 Reg.RTE_SWAP_TIME_LO Reg.RTE_SWAP_TIME_HI
  if s.xbr.swap.isSome then s.rteEnd stRETRY
  else if decide (t * 2 ^ 32 < s.tabor + 20000 * 2 ^ 32) then s.rteEnd stRANGE
  else s.acceptSwap (some t)

/-- CANCEL (R357). -/
def State.rteCancel (s : State) : State :=
  ((s.upXbr fun x => { x with swap := none }).wr Reg.RTE_OP_PENDING 0).rteEnd stOK

/-- Homes of the active bank whose route ports all lead to dead neighbours and that are not yet dead (R141). -/
def State.strandedHomes (s : State) : List (Nat × RouteEnt) :=
  List.filter (fun r => !r.2.isLocal && r.2.portset != 0 && !s.homeDead r.1 &&
    (bitList 32 r.2.portset).all fun q => !s.alive q) s.bank.routes

/-- SWAP_ACTIVATE (R358): a pending swap takes effect, once its time has come. -/
def swapActivate (s : State) : State :=
  match s.xbr.swap with
  | none => s
  | some w =>
    if s.tabor < w.atNs.getD 0 * 2 ^ 32 then s
    else
      let s := (s.upXbr fun x => { x with swap := none }).wr Reg.RTE_OP_PENDING 0
      let s := (s.wr Reg.RTE_ACTIVE_BANK (1 - s.rd Reg.RTE_ACTIVE_BANK)).bump Reg.RTE_CNT_SWAP
      let hs := s.strandedHomes
      if hs.isEmpty then s
      else ((hs.foldl (fun s h => s.markHomeDead ((bitList 32 h.2.portset).headD 0) h.1) s).failEngines).redDead

/-! The capture ring (R361). -/

/-- BASE of the ring: [45:0], LO bits [15:0] ignored. -/
def State.capBase (s : State) : Nat := s.rd64 Reg.XBR_CAP_BASE_LO Reg.XBR_CAP_BASE_HI % 2 ^ 46 / 65536 * 65536

/-- End of an ENABLE. -/
def State.capEnd (s : State) (st : Nat) : State :=
  (s.wrb Reg.XBR_CAP_CTL_ENABLE (st == stOK)).setEnd Reg.XBR_CAP_STATUS_STATUS Reg.XBR_CAP_STATUS_DONE st

/-- ENABLE from 0 to 1: create the ring, zero-filled (R361). -/
def State.capCreate (s : State) : State :=
  let s := (s.wr Reg.XBR_CAP_WR_INDEX 0).wr Reg.XBR_CAP_RD_INDEX 0
  let log2 := s.rd Reg.XBR_CAP_CTL_LOG2
  let r := s.rd Reg.XBR_CAP_REGION_REGION
  let fen := s.rd Reg.XBR_CAP_FEN_FEN
  let g := s.rgn r
  let n := 2 ^ log2 * 64 / unitBytes
  let start := s.capBase / unitBytes
  if log2 < 10 || decide (24 < log2) || !g.valid || g.fen != fen || s.placeCheck r start n tierNEAR != stOK then s.capEnd stRANGE
  else
    let e : Extent := { start := start, state := exRESIDENT, length := n, tier := tierNEAR, fen := fen, region := r, pin := true
                        capring := true }
    let (s, st) := s.allocate e (2 ^ 64 - 1)
    if st ≠ stOK then s.capEnd st
    else
      let x := (s.overlapping (start * unitBytes) (n * unitBytes)).head?
      (s.upXbr fun b => { b with capExt := x.map (·.1), nextRseq := 0 }).capEnd stOK

/-- A write of `XBR_CAP_CTL`: while ENABLE reads 1, MODE and LOG2 keep their values (R361, R365). -/
def State.capCtlOp (s : State) (enable mode : Bool) (log2 : Nat) : State :=
  if s.on Reg.XBR_CAP_CTL_ENABLE then (if enable then s else s.wr Reg.XBR_CAP_CTL_ENABLE 0)
  else
    let s := (s.wrb Reg.XBR_CAP_CTL_MODE mode).wr Reg.XBR_CAP_CTL_LOG2 log2
    if enable then s.capCreate else s

/-- A GO of the RTE set with a code (R367). -/
def State.rteOp (s : State) (code : Nat) : State :=
  let s := s.wr Reg.RTE_OP_CODE code
  match code with
  | 1 => s.rteRead
  | 2 => s.rteWrite
  | 3 => s.rteCopy
  | 4 => s.rteSwap
  | 5 => s.rteSwapAt
  | 6 => s.rteCancel
  | _ => s.rteEnd stMALFORMED

/-- A GO that also writes REBUILD. -/
def State.rteOpRebuild (s : State) (rebuild : Bool) (code : Nat) : State := (s.wrb Reg.RTE_OP_REBUILD rebuild).rteOp code

def execRteRead (a : Access) (s : State) : Host.Outcome State Fault Refusal :=
  .next (State.window a 0x2600004 (fun s => s.rteOp 1) s)
def execRteWrite (a : Access) (s : State) : Host.Outcome State Fault Refusal :=
  .next (State.window a 0x2600004 (fun s => s.rteOp 2) s)
def execRteCopy (a : Access) (s : State) : Host.Outcome State Fault Refusal :=
  .next (State.window a 0x2600004 (fun s => s.rteOp 3) s)
def execSwap (a : Access) (rebuild : Bool) (s : State) : Host.Outcome State Fault Refusal :=
  .next (State.window a 0x2600004 (fun s => s.rteOpRebuild rebuild 4) s)
def execSwapAt (a : Access) (rebuild : Bool) (s : State) : Host.Outcome State Fault Refusal :=
  .next (State.window a 0x2600004 (fun s => s.rteOpRebuild rebuild 5) s)
def execCancel (a : Access) (s : State) : Host.Outcome State Fault Refusal :=
  .next (State.window a 0x2600004 (fun s => s.rteOp 6) s)
def execSwapActivate (s : State) : Host.Outcome State Fault Refusal := .next (swapActivate s)
def execCaptureEnable (a : Access) (mode : Bool) (log2 : Nat) (s : State) : Host.Outcome State Fault Refusal :=
  .next (State.window a 0x2400040 (fun s => s.capCtlOp true mode log2) s)
def execCaptureDisable (a : Access) (mode : Bool) (log2 : Nat) (s : State) : Host.Outcome State Fault Refusal :=
  .next (State.window a 0x2400040 (fun s => s.capCtlOp false mode log2) s)

end Sys2Proof.Machine
end

