-- ==== Sys2Proof/Machine/Faults.lean ====
section
/-!
DEFINITION. Device-fatal faults, checks of protected memory, cluster tests, part scores and the delivery of records
(chapter 15, R441–R462).
Marks: DEDUCED 36, 43, in notes/assumptions.
-/
namespace Sys2Proof.Machine

/-! Device-fatal faults (R410, R445). -/

/-- `FLT_FATAL` and `COH_FATAL` as their registers read. -/
def State.fatalWord (s : State) : Nat := s.rd Reg.FLT_FATAL_CAUSE + 256 * s.rd Reg.FLT_FATAL_DETAIL
def State.cohWord (s : State) : Nat := s.rd Reg.COH_FATAL_CAUSE + 256 * s.rd Reg.COH_FATAL_AGENT

/-- Every die latches the cause and position on the fatal line: the first seen, of two in one cycle the lower (R410). -/
def State.latchDies (s : State) (cause agent : Nat) (again : Bool) : State :=
  let s := if again && s.rd Reg.COH_FATAL_CAUSE != 0 && s.rd Reg.COH_FATAL_CAUSE ≤ cause then s
    else (s.wr Reg.COH_FATAL_CAUSE cause).wr Reg.COH_FATAL_AGENT agent
  (List.range 12).foldl (fun s d =>
    let old := s.rd Reg.COH_FATAL_DIE_CAUSE d
    if old != 0 && old ≤ cause then s
    else (s.wr Reg.COH_FATAL_DIE_CAUSE cause d).wr Reg.COH_FATAL_DIE_AGENT agent d) s

/-- A device-fatal fault (R410, R445): `coh` is the cause and position of a domain-down event.  The switch answers
TARGET_DEAD from now on and commits nothing; every reduction instance ends.  Of two causes in one cycle the lower stays. -/
def State.goFatal (s : State) (cause detail : Nat) (coh : Nat × Nat) : State :=
  let old := s.rd Reg.FLT_FATAL_CAUSE
  let same := s.fatal && s.flt.fatalAt == s.hclk
  let s := if cause = 1 && (!s.fatal || same) then (s.latchDies coh.1 coh.2 same).wr Reg.COH_STAT_DOWN 1 else s
  if s.fatal then
    if same && decide (cause < old) then (s.wr Reg.FLT_FATAL_CAUSE cause).wr Reg.FLT_FATAL_DETAIL detail else s
  else
    let s := ((s.wr Reg.FLT_FATAL_CAUSE cause).wr Reg.FLT_FATAL_DETAIL detail).upFlt fun f => { f with fatalAt := s.hclk }
    let s := s.redEndAll (fun _ => true) stTARGET_DEAD
    s.event { code := evDEVICE_FATAL, sev := sevFATAL, health := true, params := [s.fatalWord, s.cohWord] }

/-- Die numbers of XH and MH (R453). -/
def dieXH : Nat := 10
def dieMH : Nat := 11

/-- HUB_LOGIC_MISMATCH (R443, R445): duplicated control logic in XH or MH disagrees. -/
def hubLogicMismatch (die : Nat) (s : State) : State :=
  if die = dieXH || die = dieMH then s.goFatal 3 die (0, 0) else s

/-- CANARY_CHECK (R443, R445): the canary lines of a stack are read. -/
def canaryCheck (stack : Nat) (ok : Bool) (s : State) : State :=
  if ok || decide (8 ≤ stack) then s else s.goFatal 4 stack (0, 0)

/-- SRAM_REFRESH (R411, R443): the refresh engine reads words of a control-SRAM bank. -/
def sramRefresh (r : CheckResult) (s : State) : State :=
  match r with
  | .good => s
  | .corrected n => s.bump Reg.FLT_CNT_CE_SRAM 0 0 n
  | .uncorrectable => s.goFatal 2 dieMH (0, 0)

/-! Stacks (R444). -/

/-- STACK_PATROL (R444): the patrol reads the granule at near-tier byte address `a`. -/
def stackPatrol (a : Nat) (r : CheckResult) (s : State) : State :=
  let st := stackOf a
  if 8 ≤ st then s
  else
    let k := granKey tierNEAR a
    let ue := r == .uncorrectable || s.badKey k
    match r with
    | .corrected n => (s.bump Reg.FLT_CNT_CE_STACK 0 0 n).charge clsSTACK st 0 n 1024 1
    | _ =>
      if !ue then s
      else
        let s := if s.badKey k then s else s.upFlt fun f => { f with badGranules := k :: f.badGranules }
        s.memUe a 1

/-! Cluster faults (R446–R449). -/

/-- A cluster fault on the chunk that a logical cluster runs: its command ends CHECK_FAIL where the re-run has failed
too (R217, R446). -/
def State.chunkFault (s : State) (cl cause : Nat) : State :=
  match Tab.find? s.cmd.running cl with
  | none =>
    let ph := s.physOf cl
    let s := s.event { code := evCLUSTER_FAULT, sev := sevWARN, health := true, params := [cause, ph], die := cl / 16,
                       cls := clsCLUSTER, inst := ph }
    if s.lastOfFen cl then s
    else s.upFlt fun f => { f with tests := Tab.put f.tests ph { cause := cause, cid := s.cmd.nextCid, start := s.hclk } }
  | some (cid, k) =>
    match s.cmdOf cid with
    | none => s
    | some c =>
      s.checkFailed cid k cause fun s =>
        match c.src with
        | 0 => s.finish cid stCHECK_FAIL
        | 1 => s.gatherEnd cid stCHECK_FAIL
        | _ => s.answerRecord cid c stCHECK_FAIL 0 (recHeader c.desc stCHECK_FAIL false 0 0 0 0)

/-- CLUSTER_FAULT (R446): a failed check (`cause` 0) or an uncorrectable word (1) on logical cluster `cl`. -/
def clusterFaultRow (cl cause : Nat) (s : State) : State :=
  if s.fatal || decide (128 ≤ cl) || decide (1 < cause) || (cause == 0 && s.idle cl) || !s.clusterUp cl then s
  else
    let s := if cause = 1 then s.bump Reg.FLT_CNT_UE_SRAM else s
    s.chunkFault cl cause

/-- CHUNK_WATCHDOG (R446): the chunk on a cluster has made no progress for `FLT_CHUNK_WD` µs. -/
def chunkWatchdog (cl : Nat) (s : State) : State :=
  match (if s.fatal then none else Tab.find? s.cmd.running cl) with
  | none => s
  | some (cid, k) =>
    match (s.cmdOf cid).bind fun c => Tab.find? c.chunks k with
    | none => s
    | some x =>
      if s.sinceUs (max x.progress x.dispatchedAt) < s.rd Reg.FLT_CHUNK_WD_US then s
      else (s.bump Reg.FLT_CNT_CHUNK_WD).chunkFault cl 2

/-- Limit of a cluster's test run, µs (R446). -/
def testLimitUs : Nat := 64

/-- CLUSTER_TEST_DONE (R446, R447): a test run ends; one that has not finished within 64 µs has failed. -/
def clusterTestDone (ph : Nat) (passed : Bool) (s : State) : State :=
  match Tab.find? s.flt.tests ph with
  | none => s
  | some t =>
    if passed && decide (s.sinceUs t.start ≤ testLimitUs) then s.transient ph t.cause else s.lasting ph

/-- SPARE_BIST_DONE (R447, R448): the self-test of a die's spare ends. -/
def spareBistDone (die : Nat) (passed : Bool) (s : State) : State :=
  match Tab.find? s.flt.spareBist die with
  | none => s
  | some c =>
    let s := s.upFlt fun f => { f with spareBist := Tab.del f.spareBist die }
    if passed then s.spared c else (s.mapOut (17 * die + 16)).clusterLost c

/-- Whether the switch is in bring-up (R8): from a reset until an image is applied. -/
def State.inBringUp (s : State) : Bool := s.rd Reg.PWR_RST_STAT_PHASE != 9 && s.rd Reg.PWR_RST_STAT_PHASE != 10

/-- Map out one failing physical cluster afresh: the first of a die gets its spare, where that is good (R447–R449). -/
def State.mapAfresh (s : State) (ph : Nat) : State :=
  let d := ph / 17
  if ph % 17 = 16 then s.mapOut ph
  else
    let c := d * 16 + ph % 17
    if Tab.has s.flt.spareFor d || bit (s.rd Reg.FLT_CLUS_OUT_PHYS d) 16 then s.clusterLost c else s.spared c

/-- MAP_CLEAR (R449): map-outs are cleared, all 136 clusters retested, and those in `failing` mapped out. -/
def State.mapClearOp (s : State) (failing : List Nat) : State :=
  if !s.inBringUp then s.regFault 0x400C0 noFen
  else
    let s := (List.range 8).foldl (fun s k => s.wr Reg.FLT_CLUS_OUT_PHYS 0 k) s
    let s := (List.range 4).foldl (fun s i => (s.wr Reg.FLT_CLUS_LOST_MASK 0 i).wr Reg.FLT_CLUS_LAST_MASK 0 i) s
    let s := (s.wr Reg.GLB_DIE_CD_SPARE 0).upFlt fun f => { f with spareFor := [], spareBist := [], tests := [] }
    let bad := (List.range 136).filter fun ph => failing.contains ph
    let spares := bad.filter fun ph => ph % 17 == 16
    let rest := bad.filter fun ph => ph % 17 != 16
    (spares ++ rest).foldl State.mapAfresh s

def mapClear (a : Access) (failing : List Nat) (s : State) : State :=
  s.window a 0x400C0 fun s => s.mapClearOp failing

/-! Sentinel rows (R443, R444). -/

/-- An uncorrectable word in a table of a hub unit: TABLE_UE and the unit's score (R444, R450). -/
def State.tableUe (s : State) (table entry unit : Nat) : State :=
  ((s.bump Reg.FLT_CNT_UE_SRAM).charge clsUNIT unit 1 1 1 256).event
    { code := evTABLE_UE, sev := sevWARN, health := true, params := [table, entry], cls := clsUNIT, inst := unit }

/-- Mark a route (0) or match (1) entry of a bank uncorrectable. -/
def State.badTableEntry (s : State) (bank table entry : Nat) : State :=
  let k := bank * 2 ^ 16 + table * 2 ^ 12 + entry
  if s.flt.badEntries.contains k then s else s.upFlt fun f => { f with badEntries := k :: f.badEntries }

/-- SENTINEL_CHECK (R443, R444): a macro's sentinel row is read. -/
def sentinelCheck (site : SramSite) (r : CheckResult) (s : State) : State :=
  match r with
  | .good => s
  | .corrected n =>
    let s := s.bump Reg.FLT_CNT_CE_SRAM 0 0 n
    match site with
    | .cluster ph => if ph < 136 then s.charge clsCLUSTER ph 1 n 1024 1 else s
    | _ => s
  | .uncorrectable =>
    match site with
    | .route b e => if b < 2 && decide (e < 4096) then (s.badTableEntry b 0 e).tableUe 0 e 10 else s
    | .mtch b e => if b < 2 && decide (e < 1024) then (s.badTableEntry b 1 e).tableUe 1 e 10 else s
    | .tree d e => if d < 2 && decide (e < 4096) then s.tableUe 2 e (5 + 2 * d) else s
    | .accum e tree tag =>
      if 4 ≤ e then s
      else
        let k := tree * 256 + tag
        let open_ := ((Tab.find? s.red.insts k).map fun i => i.outcome.isNone).getD false
        let s := (s.bump Reg.FLT_CNT_UE_SRAM).event
          { code := evRED_CHECK, sev := sevWARN, health := true, params := [e], cls := clsUNIT, inst := 5 + e }
        if open_ then s.redEnd k stCHECK_FAIL else s
    | .cluster ph =>
      match s.logicalOf ph with
      | some c => clusterFaultRow c 1 s
      | none => s
    | .other u e => if u < 11 then s.tableUe 3 e u else s

/-! Part scores (R450–R452, R461). -/

/-- One second's decay of a score (R451). -/
def decayed (decay : Nat) (sc : Score) : Score := { sc with s := sc.s - max 1 (sc.s / 2 ^ decay) }

/-- SCORE_TICK (R451, R452, R462): class configuration takes effect, then every score above 0 decays. -/
def scoreTick (s : State) : State :=
  let cfg := (List.range 8).filterMap fun c =>
    if c = 0 then none else some (c, (s.rd Reg.FLT_SCLS_CFG_THR c, s.rd Reg.FLT_SCLS_CFG_DECAY c))
  let s := s.upFlt fun f => { f with inForce := cfg }
  s.flt.scores.foldl (fun s (k, sc) =>
    if sc.s = 0 then s.setScore (k / 256) (k % 256) sc
    else s.setScore (k / 256) (k % 256) (decayed (s.classCfg (k / 256)).2 sc)) s

/-- SCORE_PERSIST (R452): scores go to the SPI NOR. -/
def scorePersist (s : State) : State := s.upFlt fun f => { f with flashScores := f.scores }

def State.scoreEnd (s : State) (st : Nat) : State := s.setEnd Reg.FLT_SCORE_STATUS_STATUS Reg.FLT_SCORE_STATUS_DONE st

/-- Whether the index names no part (R461). -/
def State.noPart (s : State) : Bool :=
  s.rd Reg.FLT_SCORE_INDEX_CLASS == 0 ||
    decide (clsCount (s.rd Reg.FLT_SCORE_INDEX_CLASS) ≤ s.rd Reg.FLT_SCORE_INDEX_INSTANCE)

/-- Score READ (R461). -/
def State.scoreRead (s : State) : State :=
  let c := s.rd Reg.FLT_SCORE_INDEX_CLASS
  if s.noPart then s.scoreEnd stRANGE
  else
    let sc := s.score c (s.rd Reg.FLT_SCORE_INDEX_INSTANCE)
    let n := s.flt.scores.countP fun p => p.1 / 256 == c && p.2.suspect
    let s := (s.wr Reg.FLT_SCORE_DATA0_S sc.s).wrb Reg.FLT_SCORE_DATA1_SUSPECT sc.suspect
    ((s.wr Reg.FLT_SCORE_DATA1_EVENTS sc.events).wr Reg.FLT_SCORE_DATA2_SUSPECTS n).scoreEnd stOK

/-- Score CLEAR (R452). -/
def State.scoreClear (s : State) : State :=
  let c := s.rd Reg.FLT_SCORE_INDEX_CLASS
  let i := s.rd Reg.FLT_SCORE_INDEX_INSTANCE
  if s.noPart then s.scoreEnd stRANGE
  else
    let sc := s.score c i
    let s := s.setScore c i { sc with s := 0, events := 0 }
    (s.event { code := evSCORE_CLEARED, sev := sevINFO, health := true, params := [sc.s / 256], cls := c, inst := i }).scoreEnd stOK

/-- A GO of the FLT_SCORE set with a code. -/
def State.scoreOp (s : State) (code : Nat) : State :=
  let s := s.wr Reg.FLT_SCORE_OP_CODE code
  match code with
  | 1 => s.scoreRead
  | 2 => s.scoreClear
  | _ => s.scoreEnd stMALFORMED

/-! Delivery (R456–R458). -/

/-- COALESCE_FLUSH (R456): runs whose interval has ended give their repeats one record. -/
def coalesceFlush (s : State) : State :=
  let us := s.rd Reg.FLT_COALESCE_US
  let done := s.flt.runs.filter fun k => decide (k.start + usToHclk us ≤ s.hclk)
  let s := s.upFlt fun f => { f with runs := f.runs.filter fun k => !decide (k.start + usToHclk us ≤ s.hclk) }
  done.foldl (fun s k =>
    if k.repeats = 0 then s
    else s.deliver { k.first with isRepeat := true, count := k.repeats, params := k.last }) s

/-- EQ_MODERATION (R457): the moderation interval of unsignalled INFO and WARN records ends. -/
def eqModeration (s : State) : State :=
  match s.flt.unsignalled with
  | none => s
  | some t =>
    if s.hclk < t + usToHclk (s.rd Reg.FLT_EQ_CTL_MOD_US) then s
    else (s.upFlt fun f => { f with unsignalled := none }).emit (.msix (s.rd Reg.FLT_EQ_VEC_VECTOR))

def execHubLogicMismatch (die : Nat) (s : State) : Host.Outcome State Fault Refusal := .next (hubLogicMismatch die s)
def execCanaryCheck (stack : Nat) (ok : Bool) (s : State) : Host.Outcome State Fault Refusal := .next (canaryCheck stack ok s)
def execSramRefresh (r : CheckResult) (s : State) : Host.Outcome State Fault Refusal := .next (sramRefresh r s)
def execStackPatrol (a : Nat) (r : CheckResult) (s : State) : Host.Outcome State Fault Refusal := .next (stackPatrol a r s)
def execClusterFault (cl cause : Nat) (s : State) : Host.Outcome State Fault Refusal := .next (clusterFaultRow cl cause s)
def execChunkWatchdog (cl : Nat) (s : State) : Host.Outcome State Fault Refusal := .next (chunkWatchdog cl s)
def execClusterTestDone (ph : Nat) (passed : Bool) (s : State) : Host.Outcome State Fault Refusal :=
  .next (clusterTestDone ph passed s)
def execSpareBistDone (die : Nat) (passed : Bool) (s : State) : Host.Outcome State Fault Refusal :=
  .next (spareBistDone die passed s)
def execMapClear (a : Access) (failing : List Nat) (s : State) : Host.Outcome State Fault Refusal :=
  .next (mapClear a failing s)
def execSentinelCheck (site : SramSite) (r : CheckResult) (s : State) : Host.Outcome State Fault Refusal :=
  .next (sentinelCheck site r s)
def execScoreTick (s : State) : Host.Outcome State Fault Refusal := .next (scoreTick s)
def execScorePersist (s : State) : Host.Outcome State Fault Refusal := .next (scorePersist s)
def execScoreRead (a : Access) (s : State) : Host.Outcome State Fault Refusal :=
  .next (State.window a 0x40104 (fun s => s.scoreOp 1) s)
def execScoreClear (a : Access) (s : State) : Host.Outcome State Fault Refusal :=
  .next (State.window a 0x40104 (fun s => s.scoreOp 2) s)
def execCoalesceFlush (s : State) : Host.Outcome State Fault Refusal := .next (coalesceFlush s)
def execEqModeration (s : State) : Host.Outcome State Fault Refusal := .next (eqModeration s)

end Sys2Proof.Machine
end

