-- ==== Sys2Proof/Machine/Coherence.lean ====
section
/-!
DEFINITION. The coherent domain, its messages and its loss, arbiter bites, and the die-to-die and ring links (chapter 13; R17).
Marks: DEDUCED 36, 37, in notes/assumptions.
-/
namespace Sys2Proof.Machine

/-! The domain (R397–R408). -/

/-- Bytes of a line, and lines of the control SRAM (R399, R418). -/
def lineBytes : Nat := 128
def sramLines : Nat := 491520

/-- Ring position of MH. -/
def posMH : Nat := 4
def posXH : Nat := 9

def cohKey (line pos : Nat) : Nat := line * 16 + pos

/-- State of a line at a position; position 9 has no cache. -/
def State.copyAt (s : State) (line pos : Nat) : Nat := Tab.getD s.coh.copies (cohKey line pos) cohI

/-- Set a line's state at a position. -/
def State.setCopy (s : State) (line pos st : Nat) : State :=
  s.upCoh fun c => { c with copies := if st = cohI then Tab.del c.copies (cohKey line pos)
                                      else Tab.put c.copies (cohKey line pos) st }

/-- The line in the control SRAM. -/
def State.sramLine (s : State) (line : Nat) : Bytes := memRead s.coh.sram (line * lineBytes) lineBytes

/-- A position's transaction on a line. -/
def State.txn (s : State) (line pos : Nat) : Option CohTxn := Tab.find? s.coh.txns (cohKey line pos)

def State.putTxn (s : State) (line pos : Nat) (t : CohTxn) : State :=
  s.upCoh fun c => { c with txns := Tab.put c.txns (cohKey line pos) t }

/-- State of a holder after a snoop of a request (R401). -/
def snooped (r : CohReq) (st : Nat) : Nat :=
  match r with
  | .rdS => if st = cohI then cohI else cohS
  | .rdNa => if st = cohM then cohE else st
  | _ => cohI

/-- The positions that a request of `pos` snoops: every other agent, and for a request that keeps no copy its own cache. -/
def snoopSet (r : CohReq) (pos : Nat) : List Nat :=
  (List.range 10).filter fun p => p != pos || r == .rdNa || r == .wrNa

/-- A request is taken by the owner of its line: the snoop changes the other copies, and a holder of M sends WB. -/
def State.serve (s : State) (line pos : Nat) (t : CohTxn) : State :=
  let ps := snoopSet t.req pos
  let m := ps.find? fun p => s.copyAt line p == cohM
  let shared := ps.any fun p => snooped t.req (s.copyAt line p) != cohI
  let s := ps.foldl (fun s p => s.setCopy line p (snooped t.req (s.copyAt line p))) s
  let s := s.upCoh fun c => { c with busy := Tab.put c.busy line pos
                                     credits := Tab.mapVals c.credits fun l ps => if l = line then ps.filter (· != pos) else ps }
  s.putTxn line pos { t with retried := false, answered := false, shared := shared, wbFrom := m }

/-- The owner answers RETRY: the request keeps its place by its first RETRY (R405). -/
def State.retryTxn (s : State) (line pos : Nat) (t : CohTxn) : State :=
  let ps := Tab.getD s.coh.credits line []
  let s := s.upCoh fun c => { c with credits := Tab.put c.credits line (if ps.contains pos then ps else ps ++ [pos]) }
  (s.bump Reg.COH_CNT_RETRY).putTxn line pos { t with retried := true, answered := false, retries := t.retries + 1 }

/-- A request reaches its owner (R404, R405): one that holds the first reserved credit goes ahead, and one without a credit
waits behind every credit. -/
def State.arriveTxn (s : State) (line pos : Nat) (t : CohTxn) : State :=
  let ps := Tab.getD s.coh.credits line []
  if Tab.has s.coh.busy line || (ps.headD pos != pos) then s.retryTxn line pos t else s.serve line pos t

/-- Whether an agent may start a request on a line. -/
def State.mayIssue (s : State) (line pos : Nat) : Bool :=
  decide (line < sramLines) && decide (pos < 10) && (s.txn line pos).isNone && !s.on Reg.COH_STAT_DOWN

/-- Start a request. -/
def State.issue (s : State) (line pos : Nat) (r : CohReq) (mask : Nat) (d : Bytes) : State :=
  s.arriveTxn line pos { req := r, mask := mask, data := padTo lineBytes d, issued := s.hclk }

/-- RD_S: a caching agent without a copy asks for a shared one. -/
def rdS (pos line : Nat) (s : State) : State :=
  if s.mayIssue line pos && pos != posXH && s.copyAt line pos == cohI then s.issue line pos .rdS 0 [] else s

/-- RD_X: a caching agent that does not own the line asks for an exclusive copy. -/
def rdX (pos line : Nat) (s : State) : State :=
  if s.mayIssue line pos && pos != posXH && decide (s.copyAt line pos ≤ cohS) then s.issue line pos .rdX 0 [] else s

/-- UPG: an agent that holds S asks that every other copy go. -/
def upg (pos line : Nat) (s : State) : State :=
  if s.mayIssue line pos && s.copyAt line pos == cohS then s.issue line pos .upg 0 [] else s

/-- RD_NA: any agent, or the home, reads the current value and keeps no copy. -/
def rdNa (pos line : Nat) (s : State) : State :=
  if s.mayIssue line pos then s.issue line pos .rdNa 0 [] else s

/-- WR_NA: any agent, or the home, writes the bytes that a 128-bit mask names. -/
def wrNa (pos line mask : Nat) (d : Bytes) (s : State) : State :=
  if s.mayIssue line pos then s.issue line pos .wrNa mask d else s

/-- Write a whole line into the control SRAM. -/
def State.homeWrite (s : State) (line : Nat) (d : Bytes) : State :=
  s.upCoh fun c => { c with sram := memWrite c.sram (line * lineBytes) (padTo lineBytes d) }

/-- WB (R402): the line's holder of M writes it back; asked for by a snoop, the home performs it and its request goes on;
otherwise the line leaves the cache. -/
def wb (pos line : Nat) (d : Bytes) (s : State) : State :=
  match List.find? (fun (t : Nat × CohTxn) => t.1 / 16 == line && t.2.wbFrom == some pos) s.coh.txns with
  | some (k, t) => ((s.homeWrite line d).bump Reg.COH_CNT_WB).putTxn line (k % 16) { t with wbFrom := none }
  | none =>
    if s.copyAt line pos == cohM then ((s.homeWrite line d).setCopy line pos cohI).bump Reg.COH_CNT_WB else s

/-- A transaction completes (R403): the owner takes its line's next request. -/
def State.txnDone (s : State) (line pos : Nat) (t : CohTxn) : State :=
  let s := s.upCoh fun c => { c with txns := Tab.del c.txns (cohKey line pos), busy := Tab.del c.busy line
                                     credits := List.filter (fun e => !e.2.isEmpty) c.credits }
  let s := ((s.bump Reg.COH_CNT_TXN).raise Reg.COH_TXN_MAX_HCLK (s.hclk - t.issued)).raise Reg.COH_RETRY_MAX_COUNT t.retries
  if t.req = .rdNa || t.req = .wrNa then s.bump Reg.COH_CNT_NA else s

/-- What the requester does once the combined response and DATA, or DONE, have come (R401, R402). -/
def State.settle (s : State) (line pos : Nat) (t : CohTxn) : State :=
  match t.answered, t.value with
  | true, some d =>
    let s := match t.req with
      | .rdS => s.setCopy line pos (if t.shared then cohS else cohE)
      | .rdX => s.setCopy line pos cohM
      | .upg => s.setCopy line pos cohM
      | .rdNa => s.upCoh fun c => { c with reads := Tab.put c.reads pos d }
      | .wrNa => s
    s.txnDone line pos t
  | _, _ => s.putTxn line pos t

/-- Flit words corrected on ring link `link` (R409, R450). -/
def State.ringCorrected (s : State) (link n : Nat) : State :=
  if n = 0 || decide (10 ≤ link) then s else (s.bump Reg.COH_CNT_ECC_CORR 0 0 n).charge clsRING link 0 n 1024 1

/-- SNOOP_RESPONSE (R400): the combined response reaches its requester, `corrected` of its flit words corrected on a link. -/
def snoopResponse (pos line link corrected : Nat) (s : State) : State :=
  match s.txn line pos with
  | none => s
  | some t =>
    if t.answered then s
    else
      let s := s.ringCorrected link corrected
      s.settle line pos { t with answered := true }

/-- Whether a transaction has been taken by the owner and needs no more WB. -/
def CohTxn.ready (t : CohTxn) : Bool := !t.retried && t.wbFrom.isNone && t.value.isNone

/-- DATA (R402): the home's value of the line reaches the requester of RD_S, RD_X or RD_NA. -/
def cohData (pos line : Nat) (s : State) : State :=
  match s.txn line pos with
  | none => s
  | some t =>
    if t.ready && (t.req == .rdS || t.req == .rdX || t.req == .rdNa) then
      s.settle line pos { t with value := some (s.sramLine line) }
    else s

/-- The line with the masked bytes of a WR_NA merged. -/
def CohTxn.merge (t : CohTxn) (old : Bytes) : Bytes :=
  (List.range lineBytes).map fun i => if bit t.mask i then t.data.getD i 0 else old.getD i 0

/-- DONE (R400): the home has performed UPG or WR_NA. -/
def cohDone (pos line : Nat) (s : State) : State :=
  match s.txn line pos with
  | none => s
  | some t =>
    if !t.ready then s
    else if t.req = .upg then s.settle line pos { t with value := some [] }
    else if t.req = .wrNa then
      (s.homeWrite line (t.merge (s.sramLine line))).settle line pos { t with value := some [] }
    else s

/-- COH_REISSUE (R405, R406): a request answered RETRY is issued again; an UPG whose line has gone becomes RD_X. -/
def cohReissue (pos line : Nat) (s : State) : State :=
  match s.txn line pos with
  | none => s
  | some t =>
    if t.retried && t.answered then
      let r := if t.req = .upg && s.copyAt line pos == cohI then .rdX else t.req
      s.arriveTxn line pos { t with req := r }
    else s

/-! The loss of the domain (R409, R410). -/

/-- RING_FLIT_UE: an uncorrectable flit, or more lanes lost than a ring link's spares cover, found at a position. -/
def ringFlitUe (pos : Nat) (s : State) : State := if pos < 10 then s.goFatal 1 0 (1, pos) else s

/-- AGENT_HEARTBEAT_MISS: an agent has sent no heartbeat for 8 periods. -/
def agentHeartbeatMiss (pos : Nat) (s : State) : State :=
  if pos < 10 && bit (s.rd Reg.COH_STAT_ALIVE) pos then
    (s.wr Reg.COH_STAT_ALIVE (setBits (s.rd Reg.COH_STAT_ALIVE) pos 1 0)).goFatal 1 0 (2, pos)
  else s

/-- COH_TXN_TIMEOUT: a transaction is not complete 16 µs after its first issue. -/
def cohTxnTimeout (pos line : Nat) (s : State) : State :=
  match s.txn line pos with
  | none => s
  | some t => if t.issued + usToHclk 16 ≤ s.hclk then s.goFatal 1 0 (3, pos) else s

/-- RING_LANE_REPAIR (R409, R450): ring link `link` replaces a failed lane from its spares. -/
def ringLaneRepair (link : Nat) (s : State) : State := if link < 10 then s.charge clsRING link 1 1 1 512 else s

/-- D2D_LANE_REPAIR (R17, R36): die-to-die link `link`, numbered as `GLB_D2D`, uses a spare lane. -/
def d2dLaneRepair (link : Nat) (s : State) : State :=
  if link < 11 then
    (s.wr Reg.GLB_D2D_REPAIRED (setBits (s.rd Reg.GLB_D2D_REPAIRED) link 1 1)).charge clsD2D link 0 1 1 512
  else s

/-- Ring position at which a die-to-die link is watched: its compute die, XH for a port die, or MH. -/
def linkPos (link : Nat) : Nat :=
  if link < 2 then posXH else if link = 10 then posMH else if link < 6 then link - 2 else link - 1

/-- D2D_LINK_FAIL (R17, R36, R409): a link loses more lanes than its spares cover. -/
def d2dLinkFail (link : Nat) (s : State) : State :=
  if 11 ≤ link then s
  else
    let s := if link < 2 then s.wr Reg.GLB_D2D_PD_UP (setBits (s.rd Reg.GLB_D2D_PD_UP) link 1 0)
      else if link < 10 then s.wr Reg.GLB_D2D_CD_UP (setBits (s.rd Reg.GLB_D2D_CD_UP) (link - 2) 1 0)
      else s.wr Reg.GLB_D2D_MH_UP 0
    s.goFatal 1 0 (4, linkPos link)

/-! Arbiters (R413, R419). -/

/-- The part charged for a bite (R450): a port, a cluster or a hub unit. `port` is the port that a packet buffer's owner
serves. -/
def biteCharge (resource inst die owner port : Nat) (s : State) : State :=
  match resource with
  | 1 => s.charge clsUNIT owner 0 1 1 512
  | 2 => s.charge clsCLUSTER (17 * die + inst / 16) 2 1 1 512
  | 3 => s.charge clsUNIT (5 + 2 * (die - 8) + inst / 16) 0 1 1 512
  | 4 => if owner = 3 then s.charge clsUNIT 9 0 1 1 512 else s.charge clsPORT port 3 1 1 512
  | _ => s.charge clsUNIT 10 0 1 1 512

/-- Whether resource, instance, die and owner name an arbiter and its requester (R411, R419). -/
def arbOk (resource inst die owner : Nat) : Bool :=
  match resource with
  | 1 => die == 11 && decide (inst < 64) && decide (owner < 5)
  | 2 => decide (die < 8) && decide (inst < 272) && decide (owner < 4)
  | 3 => (die == 8 || die == 9) && decide (inst < 32) && decide (owner < 3)
  | 4 => (die == 8 || die == 9) && decide (inst < 64) && decide (owner < 4)
  | 5 => die == 10 && decide (inst < 6) && decide (owner < 3)
  | _ => false

/-- What a bite does to the access it discards (R413). -/
def State.biteVictim (s : State) (v : BiteVictim) : State :=
  match v with
  | .chunk cid k => match s.runningChunk cid k with
    | some _ => s.softKill cid k
    | none => s
  | .request => match s.fab.he0 with
    | [] => s
    | q :: rest => (s.ingressFree q).upFab fun b => { b with he0 := rest }
  | .regOp o =>
    let st := [(Reg.EXT_STATUS_STATUS, Reg.EXT_STATUS_DONE), (Reg.RGN_STATUS_STATUS, Reg.RGN_STATUS_DONE),
      (Reg.ATT_AR_STATUS_STATUS, Reg.ATT_AR_STATUS_DONE), (Reg.SQT_GRP_STATUS_STATUS, Reg.SQT_GRP_STATUS_DONE),
      (Reg.SQT_ENT_STATUS_STATUS, Reg.SQT_ENT_STATUS_DONE), (Reg.CMD_RING_STATUS_STATUS, Reg.CMD_RING_STATUS_DONE),
      (Reg.CKP_SET_STATUS_STATUS, Reg.CKP_SET_STATUS_DONE), (Reg.RTE_STATUS_STATUS, Reg.RTE_STATUS_DONE),
      (Reg.RED_TREE_STATUS_STATUS, Reg.RED_TREE_STATUS_DONE), (Reg.SHP_POL_STATUS_STATUS, Reg.SHP_POL_STATUS_DONE),
      (Reg.FLT_SCORE_STATUS_STATUS, Reg.FLT_SCORE_STATUS_DONE)].find? fun p => p.1.base == o
    match st with
    | some (a, b) => s.setEnd a b stTIMEOUT
    | none => s
  | .carillon p => s.upFlt fun f => { f with accessFaults := f.accessFaults ++ [p] }

/-- ARB_BITE (R413): an arbiter's watchdog reaches 65,536 HCLK. -/
def arbBite (resource inst die owner port : Nat) (v : BiteVictim) (s : State) : State :=
  if !arbOk resource inst die owner || decide (32 ≤ port) then s
  else
    let s := (s.wr Reg.ARB_WD_LAST_RESOURCE resource).wr Reg.ARB_WD_LAST_INSTANCE inst
    let s := ((s.wr Reg.ARB_WD_LAST_DIE die).wr Reg.ARB_WD_LAST_OWNER owner).bump Reg.ARB_CNT_WD
    let w := resource + 2 ^ 4 * inst + 2 ^ 16 * die + 2 ^ 20 * owner
    let s := s.event { code := evARB_BITE, sev := sevWARN, health := true, params := [w], die := die }
    (biteCharge resource inst die owner port s).biteVictim v

/-- What `COH_LINE_OP.GO` does (R418). -/
def State.cohLineOp (s : State) : State :=
  let l := s.rd Reg.COH_LINE_ADDR_LINE
  let v := if l < sramLines then ((List.range 9).map fun p => s.copyAt l p * 4 ^ p).sum else 0
  s.wr Reg.COH_LINE_STATE_STATE v

def execRdS (pos line : Nat) (s : State) : Host.Outcome State Fault Refusal := .next (rdS pos line s)
def execRdX (pos line : Nat) (s : State) : Host.Outcome State Fault Refusal := .next (rdX pos line s)
def execUpg (pos line : Nat) (s : State) : Host.Outcome State Fault Refusal := .next (upg pos line s)
def execRdNa (pos line : Nat) (s : State) : Host.Outcome State Fault Refusal := .next (rdNa pos line s)
def execWrNa (pos line mask : Nat) (d : Bytes) (s : State) : Host.Outcome State Fault Refusal := .next (wrNa pos line mask d s)
def execWb (pos line : Nat) (d : Bytes) (s : State) : Host.Outcome State Fault Refusal := .next (wb pos line d s)
def execSnoopResponse (pos line link corrected : Nat) (s : State) : Host.Outcome State Fault Refusal :=
  .next (snoopResponse pos line link corrected s)
def execData (pos line : Nat) (s : State) : Host.Outcome State Fault Refusal := .next (cohData pos line s)
def execDone (pos line : Nat) (s : State) : Host.Outcome State Fault Refusal := .next (cohDone pos line s)
def execCohReissue (pos line : Nat) (s : State) : Host.Outcome State Fault Refusal := .next (cohReissue pos line s)
def execRingFlitUe (pos : Nat) (s : State) : Host.Outcome State Fault Refusal := .next (ringFlitUe pos s)
def execAgentHeartbeatMiss (pos : Nat) (s : State) : Host.Outcome State Fault Refusal := .next (agentHeartbeatMiss pos s)
def execCohTxnTimeout (pos line : Nat) (s : State) : Host.Outcome State Fault Refusal := .next (cohTxnTimeout pos line s)
def execRingLaneRepair (link : Nat) (s : State) : Host.Outcome State Fault Refusal := .next (ringLaneRepair link s)
def execD2dLaneRepair (link : Nat) (s : State) : Host.Outcome State Fault Refusal := .next (d2dLaneRepair link s)
def execD2dLinkFail (link : Nat) (s : State) : Host.Outcome State Fault Refusal := .next (d2dLinkFail link s)
def execArbBite (resource inst die owner port : Nat) (v : BiteVictim) (s : State) : Host.Outcome State Fault Refusal :=
  .next (arbBite resource inst die owner port v s)
def execCohLineRead (a : Access) (s : State) : Host.Outcome State Fault Refusal :=
  .next (State.window a 0x3000044 State.cohLineOp s)

end Sys2Proof.Machine
end

