-- ==== Sys2Proof/Machine/RegOps.lean ====
section
/-!
DEFINITION. The register file as a whole: which field a stored key belongs to, the blocks of the window (R533), and what each
kind of reset does to the registers (R9, R432, R507).
Marks: DEDUCED 41, 48, in notes/assumptions.
-/
namespace Sys2Proof.Machine

/-- The indices of the register at offset `o` in a field's set of registers. -/
def Fld.at? (f : Fld) (o : Nat) : Option (Nat × Nat) :=
  if o < f.base then none
  else
    let d := o - f.base
    let swap := decide (f.s1 < f.s2)
    let (a, na, b, nb) := if swap then (f.s2, f.n2, f.s1, f.n1) else (f.s1, f.n1, f.s2, f.n2)
    let i := if a = 0 then 0 else d / a
    let r := if a = 0 then d else d % a
    let j := if b = 0 then 0 else r / b
    let r := if b = 0 then r else r % b
    if r = 0 && decide (i < na) && decide (j < nb) then some (if swap then (j, i) else (i, j)) else none

/-- The fields of the register at an offset, with their indices. -/
def fieldsAt (o : Nat) : List (Fld × Nat × Nat) := regTable.filterMap fun f => (f.at? o).map fun ij => (f, ij)

/-- The stored word of the register at an offset. -/
def State.regStored (s : State) (o : Nat) : Nat :=
  (fieldsAt o).foldl (fun v (f, i, j) => setBits v f.lo f.width (s.rd f i j)) 0

/-- Whether a key of the register file belongs to a field. -/
def Fld.owns (f : Fld) (k : Nat) : Bool := k % 32 == f.lo && (f.at? (k / 32)).isSome

/-- The register file with only the fields that `keep` names; the others read their reset values. -/
def State.keepFields (s : State) (keep : Fld → Bool) : State :=
  { s with regs := List.filter (fun (e : Nat × Word) => regTable.any fun f => f.owns e.1 && keep f) s.regs }

/-- Whether a field lies in [lo, hi) of the window. -/
def Fld.within (f : Fld) (lo hi : Nat) : Bool := decide (lo ≤ f.base) && decide (f.base < hi)

def Fld.inGLB (f : Fld) : Bool := f.within 0 0x10000
def Fld.inCLK (f : Fld) : Bool := f.within 0x10000 0x10100
def Fld.inPWR (f : Fld) : Bool := f.within 0x10100 0x20000
def Fld.inCAR (f : Fld) : Bool := f.within 0x20000 0x30000
def Fld.inSEC (f : Fld) : Bool := f.within 0x30000 0x40000
def Fld.inFLT (f : Fld) : Bool := f.within 0x40000 0x50000
def Fld.inFEN (f : Fld) : Bool := f.within 0x100000 0x200000
def Fld.inPOOL (f : Fld) : Bool := f.within 0x200000 0x400000
def Fld.inTT (f : Fld) : Bool := f.within 0x2800000 0x2810000
def Fld.inCOH (f : Fld) : Bool := f.within 0x3000000 0x4000000
/-- DBG, and Carillon's private peripherals. -/
def Fld.inDBG (f : Fld) : Bool := decide (0x4000000 ≤ f.base)

/-- Fields that power-on and cold reset leave to fuses and flash (R440, R449, R497, R501). -/
def fusedFields : List Fld :=
  [Reg.SEC_LIFE_STATE, Reg.SEC_LIFE_FW_SVN, Reg.SEC_CUST_STATE, Reg.SEC_CUST_CHANGES, Reg.FLT_CLUS_OUT_PHYS,
   Reg.FLT_CLUS_LOST_MASK, Reg.GLB_DIE_CD_SPARE, Reg.CAR_BOOTS_COUNT]

/-- What a power-on or cold reset keeps of a field; a cold reset keeps BOTH_LOST too (R504, R506). -/
def keepPowerOn (cold : Bool) (f : Fld) : Bool := fusedFields.contains f || (cold && f == Reg.CLK_STAT_BOTH_LOST)

/-- FEN fields that describe the running image, and the use of what a warm reset keeps. -/
def warmFen : List Fld :=
  [Reg.FEN_IMG_STATUS_STAGED, Reg.FEN_IMG_SERIAL_SERIAL, Reg.FEN_IMG_STAGED_SERIAL, Reg.FEN_SERIAL_SERIAL, Reg.FEN_CLUS_MASK,
   Reg.FEN_CHG_LO_MASK, Reg.FEN_CHG_HI_MASK, Reg.FEN_PORTS_MASK, Reg.FEN_NEAR_RSV_UNITS, Reg.FEN_NEAR_USED_UNITS,
   Reg.FEN_TRAY_RSV_UNITS, Reg.FEN_TRAY_USED_UNITS, Reg.FEN_SEQ_RSV_COUNT, Reg.FEN_RGN_USED_COUNT, Reg.FEN_EXT_USED_COUNT]

/-- What a warm reset keeps of a field (R507, and R460, R497, R501, R535 for their blocks). -/
def keepWarm (f : Fld) : Bool :=
  if f.inCOH then false
  else if f.inCAR then [Reg.CAR_TRIP_SENSOR, Reg.CAR_TRIP_VALID, Reg.CAR_BOOTS_COUNT].contains f
  else if f.inDBG then false
  else match f.acc with
    | .rw | .rwq => true
    | .rc | .w1s | .wo => false
    | .ro | .w1c =>
      if f.inGLB then !([Reg.GLB_UNMAPPED_OFF_WRITE, Reg.GLB_UNMAPPED_OFF_OFFSET].contains f)
      else if f.inFLT then
        !([Reg.FLT_FATAL_CAUSE, Reg.FLT_FATAL_DETAIL, Reg.FLT_PEND_INFO, Reg.FLT_PEND_WARN, Reg.FLT_PEND_ERROR,
          Reg.FLT_PEND_FATAL].contains f)
      else if f.inFEN then warmFen.contains f
      else f.inCLK || f.inPWR || f.inSEC || f.inPOOL || f.inTT ||
        [Reg.CKP_STAT_SETS, Reg.FAB_HIST_WIN_US, Reg.CMD_KILL_LIMIT_COUNT, Reg.CMD_SHIELD_MAX_US, Reg.RTE_ACTIVE_BANK].contains f

/-- What a custodian scrub keeps of a field (R432, and R396, R418, R440, R460, R501 for their blocks). -/
def keepScrub (f : Fld) : Bool :=
  if f.acc == .rc then false
  else if f.inGLB then !([Reg.GLB_UNMAPPED_OFF_WRITE, Reg.GLB_UNMAPPED_OFF_OFFSET].contains f)
  else if f.inCLK || f.inPWR then f.acc == .ro || f.acc == .w1c
  else if f.inCAR then
    !(f.within 0x20040 0x2004C || f.within 0x20400 0x20600 || f.within 0x21000 0x23000)
  else if f.inSEC then f.acc == .ro
  else if f.inFLT then
    [Reg.FLT_FATAL_CAUSE, Reg.FLT_FATAL_DETAIL, Reg.FLT_ESEQ_LAST, Reg.FLT_CLUS_OUT_PHYS, Reg.FLT_CLUS_LOST_MASK,
     Reg.FLT_CLUS_LAST_MASK, Reg.FLT_SCLS_CFG_THR, Reg.FLT_SCLS_CFG_DECAY].contains f
  else if f.inCOH then
    [Reg.COH_FATAL_CAUSE, Reg.COH_FATAL_AGENT, Reg.COH_FATAL_DIE_CAUSE, Reg.COH_FATAL_DIE_AGENT, Reg.COH_STAT_DOWN,
     Reg.COH_STAT_ALIVE].contains f
  else f.inTT || f.inDBG

end Sys2Proof.Machine
end

