-- ==== Sys2Proof/Machine/Reset.lean ====
section
/-!
DEFINITION. What the resets and the custodian scrub clear of the switch's state beside its registers (R432, R507).
Marks: DESIGN CHOICE 5, in notes/assumptions.
-/
namespace Sys2Proof.Machine

/-- Queues, links and requests of the fabric are emptied: every port is powered down and holds no key (R432, R510). -/
def State.clearFabric (s : State) : State :=
  let s := s.upFab fun b => { nextSeq := b.nextSeq }
  s.upXbr fun x => { x with voqs := [], egress := [], reserved := [], gptr := [], aptr := [], budgets := [], recent := [] }

/-- Commands, rings, reductions, attention work, sequence entries and groups are emptied (R507). -/
def State.clearWork (s : State) : State :=
  let s := s.upCmd fun c => { nextCid := c.nextCid }
  let s := s.upAtt fun a => { nextMsg := a.nextMsg, nextLeave := a.nextLeave }
  { s with red := {}, sqt := {}, coh := {}, latches := [] }

/-- What hangs on chunks, translations and writes in flight is emptied. -/
def State.clearFlight (s : State) : State :=
  let s := s.upPool fun b => { b with xlates := [], writes := [] }
  let s := s.upShp fun b => { b with ports := Tab.mapVals b.ports fun _ q => { bank0 := q.bank0, bank1 := q.bank1
                                                                               nextTseq := q.nextTseq } }
  s.upFlt fun f => { f with tests := [], spareBist := [], accessFaults := [] }

/-- Every SPDM session ends (R429). -/
def State.clearSessions (s : State) : State :=
  let s := s.upSec fun c => { c with sessions := [] }
  ((s.wr Reg.SEC_SESS_ACTIVE 0).wr Reg.SEC_SESS_CUST 0).wr Reg.SEC_SESS_OPER 0

/-- Image loads in progress are dropped. -/
def State.clearLoads (s : State) : State :=
  s.upImg fun b => { b with receiving := none, validating := none, applying := none, resumeAfterApply := [] }

/-- Servo and tabor time alone of chapter 12's state. -/
def ShpState.servo (b : ShpState) : ShpState := { b with ports := [], buckets := [], credits := [] }

/-- New memory keys are loaded (R430, R432): what both tiers held can no longer be read. -/
def State.newMemoryKeys (s : State) : State :=
  let s := s.upSec fun c => { c with memKeys := c.memKeys + 1 }
  let s := s.upFlt fun f => { f with badGranules := [], poisoned := [] }
  { s with near := [], tray := [] }

/-- The pool's tables are emptied. -/
def State.clearPool (s : State) : State := s.upPool fun b => { nextScrub := b.nextScrub, nextWrite := b.nextWrite, nextTag := b.nextTag }

/-- Everything that names a fen, client, region or address: what a custodian change leaves nothing of (R432). -/
def State.clearCustom (s : State) : State :=
  let s := ((((s.clearFabric).clearWork).clearFlight).clearLoads).clearPool
  let s := s.upXbr fun x => { xclk := x.xclk }
  { s with cfg := {}, meters := [], ckp := {}, shp := s.shp.servo }

/-- What a power-on or cold reset leaves (R506, R507): fuses, flash and the model's own counters; the rest is as at
`State.reset`. -/
def State.powerOnClear (s : State) (cold : Bool) : State :=
  let s := s.keepFields (keepPowerOn cold)
  let flt : FltState := { flashLog := s.flt.flashLog, scores := s.flt.flashScores, flashScores := s.flt.flashScores
                          spareFor := s.flt.spareFor }
  let sec : SecState := { operator := s.sec.operator, cust := s.sec.cust
                          cutOff := s.sec.cutOff.or (s.sec.scrub.map fun r => r.carried), sanitize := s.sec.sanitize
                          uds := s.sec.uds, messages := s.sec.messages, memKeys := s.sec.memKeys }
  let w := s.car.fw
  let fw : FwState := { slotA := w.slotA, slotB := w.slotB, active := w.active, trial := w.trial, tries := w.tries
                        before := w.before }
  let car : CarState := { fw := fw, flashBoots := s.car.flashBoots, flashErased := s.car.flashErased }
  { State.reset with
      pending := s.pending, regs := s.regs, hclk := s.hclk, nextFree := s.nextFree, out := s.out, host := s.host
      pins := s.pins, flt := flt, sec := sec, car := car }

end Sys2Proof.Machine
end

