-- ==== Sys2Proof/Machine/Sessions.lean ====
section
/-!
DEFINITION. Measurements, SPDM messages and sessions, and what every privileged request shares (R423–R428, R473).
Marks: DEDUCED 39, 40; PRESUMED 38, in notes/assumptions.
-/
namespace Sys2Proof.Machine

/-! Lifecycle and custodian states (R421, R422, R438). -/
def lifeMANUFACTURE : Nat := 0
def lifePROVISIONING : Nat := 1
def lifeDEPLOYED : Nat := 2
def lifeDECOMMISSIONED : Nat := 3
def custUNCLAIMED : Nat := 0
def custCLAIMED : Nat := 1
def custSWITCHING : Nat := 2
def custFAILED : Nat := 3
def dbgLOCKED : Nat := 0
def dbgINSPECT : Nat := 1
def dbgFULL : Nat := 2

def State.life (s : State) : Nat := s.rd Reg.SEC_LIFE_STATE
def State.custState (s : State) : Nat := s.rd Reg.SEC_CUST_STATE

/-! Phases of a bring-up (R518). -/
def phROM : Nat := 1
def phDIES : Nat := 2
def phWAIT_IMAGE : Nat := 5
def phTRAYS : Nat := 6
def phHOLD : Nat := 7
def phAPPLY : Nat := 8
def phPORTS : Nat := 9
def phRUN : Nat := 10
def phRECOVERY : Nat := 11
def phHW_FAIL : Nat := 12

def State.phase (s : State) : Nat := s.rd Reg.PWR_RST_STAT_PHASE

/-! Carillon's pairs (R464, R465, R495, R497). -/
def cpOFF : Nat := 0
def cpBOOTING : Nat := 1
def cpRUNNING : Nat := 2
def cpLOST : Nat := 3

/-- The pair that has a role: pair 0 management, 1 plant; the other one where a lost pair's role has gone to it (R465). -/
def State.rolePair (s : State) (role : Nat) : Nat :=
  if role = 0 then (if s.on Reg.CAR_STAT_MERGED && s.rd Reg.CAR_STAT_CP0 == cpLOST then 1 else 0)
  else (if s.on Reg.CAR_STAT_MERGED && s.rd Reg.CAR_STAT_CP1 == cpLOST then 0 else 1)

/-- Whether a role's firmware runs: its pair is running and not halted (R465, R495). -/
def State.roleRuns (s : State) (role : Nat) : Bool :=
  !s.car.heldInReset &&
  if s.rolePair role = 0 then s.rd Reg.CAR_STAT_CP0 == cpRUNNING && !s.on Reg.CAR_STAT_HALT0
  else s.rd Reg.CAR_STAT_CP1 == cpRUNNING && !s.on Reg.CAR_STAT_HALT1

/-- Whether the management role answers requests: firmware, or the boot ROM in recovery (R473). -/
def State.managed (s : State) : Bool :=
  s.roleRuns 0 || (s.on Reg.CAR_STAT_RECOVERY && !s.car.heldInReset && !s.on Reg.CAR_STAT_HALT0)

/-! Measurements (R424). -/

/-- The 48 zero bytes of an index that measures nothing. -/
def noDigest : Bytes := List.replicate 48 0

/-- Digest of component `k` of the running firmware: 0 SECPROC, 1 CARILLON, 2 OPMC; zero in recovery (R473). -/
def State.fwDigest (s : State) (k : Nat) : Bytes :=
  match s.car.fw.running with
  | none => noDigest
  | some f => f.digests.getD k noDigest

/-- The bytes of a custodian record, its fields in the order of R425. -/
def CustRecord.bytes (c : CustRecord) : Bytes :=
  padTo 16 c.custId ++ leBytes 1 c.reqRoots.length ++ c.reqRoots.flatten ++
  ((List.range 4).map fun k => match Tab.find? c.imgKeys k with | some b => (1 : Byte) :: b | none => [0]).flatten ++
  leBytes 1 c.epRoots.length ++ c.epRoots.flatten ++ leBytes 1 c.epAllow.length ++ c.epAllow.flatten ++ leBytes 4 c.policy

/-- `SEC_POLICY` as it reads. -/
def State.policy (s : State) : Nat := s.rd Reg.SEC_POLICY_BITS

/-- Measurement index 5: lifecycle, custodian state, debug level, firmware security version, `SEC_POLICY`. -/
def State.securityState (s : State) : Bytes :=
  leBytes 1 s.life ++ leBytes 1 s.custState ++ leBytes 1 (s.rd Reg.SEC_LIFE_DEBUG) ++ [0] ++
  leBytes 2 (s.rd Reg.SEC_LIFE_FW_SVN) ++ [0, 0] ++ leBytes 4 s.policy ++ [0, 0, 0, 0]

/-- Measurement index 6: `GLB_ID`, `GLB_CAP`, `GLB_DIE.CD_SPARE`. -/
def State.hwConfig (s : State) : Bytes :=
  leBytes 4 (s.rd Reg.GLB_ID_PART * 2 ^ 16 + s.rd Reg.GLB_ID_CODE * 2 ^ 8 + s.rd Reg.GLB_ID_STEPPING * 2 ^ 4) ++
  leBytes 4 (s.rd Reg.GLB_CAP_STACK_GIB + 2 ^ 8 * s.rd Reg.GLB_CAP_ATT + 2 ^ 9 * s.rd Reg.GLB_CAP_CKP +
    2 ^ 10 * s.rd Reg.GLB_CAP_TRAY) ++
  leBytes 1 (s.rd Reg.GLB_DIE_CD_SPARE) ++ List.replicate 7 0

/-- Digest of a held image: bytes 0 to LENGTH − 1. -/
def imageDigest (m : Option Image) : Bytes :=
  match m with
  | none => noDigest
  | some i => Config.sha384 i.raw

/-- The value of a measurement index. -/
def State.measurement (s : State) (i : Nat) : Bytes :=
  match i with
  | 1 => Config.romDigest
  | 2 => s.fwDigest 0
  | 3 => s.fwDigest 1
  | 4 => s.fwDigest 2
  | 5 => s.securityState
  | 6 => s.hwConfig
  | 7 => imageDigest s.img.running
  | 8 => imageDigest s.img.staged
  | 9 => if s.sec.fenChain.isEmpty then noDigest else s.sec.fenChain
  | 10 => match s.sec.cust with | some c => Config.sha384 c.bytes | none => noDigest
  | _ => []

/-- The measurements that the Alias key is derived from: indices 1 to 4 (R423). -/
def State.cdi (s : State) : Bytes := s.measurement 1 ++ s.measurement 2 ++ s.measurement 3 ++ s.measurement 4

/-- A DMTF measurement block: raw values carry bit 7 of the type. -/
def State.measBlock (s : State) (i : Nat) : Bytes :=
  let v := s.measurement i
  let t : Byte := if i = 1 then 0 else if i ≤ 4 then 1 else if i ≤ 6 then 0x82 else 3
  leBytes 1 i ++ [1] ++ leBytes 2 (v.length + 3) ++ [t] ++ leBytes 2 v.length ++ v

/-- The chain of slot 0 (R423): Mbotoux root, DeviceID certificate, Alias certificate. -/
def State.certChain (s : State) : Bytes := Config.mbotouxRoot ++ Config.deviceChain ++ Config.aliasCert s.cdi

/-- A number that tells messages apart whose content a standard leaves to randomness. -/
def State.nextMessage (s : State) : Nat × State := (s.sec.messages, s.upSec fun c => { c with messages := c.messages + 1 })

/-! SPDM messages (R426): request codes of SPDM 1.3; a response's code is the request's less 0x80. -/
def spGET_DIGESTS : Nat := 0x81
def spGET_CERTIFICATE : Nat := 0x82
def spCHALLENGE : Nat := 0x83
def spGET_VERSION : Nat := 0x84
def spGET_MEASUREMENTS : Nat := 0xE0
def spGET_CAPABILITIES : Nat := 0xE1
def spNEGOTIATE_ALGORITHMS : Nat := 0xE3
def spKEY_EXCHANGE : Nat := 0xE4
def spFINISH : Nat := 0xE5
def spHEARTBEAT : Nat := 0xE8
def spKEY_UPDATE : Nat := 0xE9
def spEND_SESSION : Nat := 0xEC
def spVENDOR : Nat := 0xFE

/-- ERROR, and its codes. -/
def spERROR : Nat := 0x7F
def erINVALID : Nat := 0x01
def erBUSY : Nat := 0x03
def erUNSPECIFIED : Nat := 0x05
def erDECRYPT : Nat := 0x06
def erUNSUPPORTED : Nat := 0x07

/-- How far SPDM is served: 0 GET_VERSION, 1 to GET_MEASUREMENTS, 2 KEY_EXCHANGE and FINISH, 3 HEARTBEAT and END_SESSION, 4 all;
none while nothing serves it (R421, R432, R473, R514). -/
def State.spdmLevel (s : State) : Option Nat :=
  if !s.managed || decide (s.phase < phWAIT_IMAGE) || s.life == lifeMANUFACTURE then none
  else if s.life = lifeDECOMMISSIONED then some 0
  else if s.phase = phHW_FAIL || s.custState = custSWITCHING then some 1
  else if s.phase = phRECOVERY then some 2
  else if s.life = lifePROVISIONING then some 3
  else some 4

def State.spdmSend (s : State) (code : Nat) (body : Bytes) : State := s.emit (.message chSPDM code body)

/-- An ERROR response. -/
def State.spdmError (s : State) (code : Nat) : State := s.spdmSend spERROR (leBytes 1 code)

/-- RESULT of a privileged request (R427). -/
def resOK : Nat := 0
def resDENIED : Nat := 1
def resSTATE : Nat := 2
def resBUSY : Nat := 3
def resMALFORMED : Nat := 4
def resNO_ENTROPY : Nat := 5

/-- Serve an SPDM message of a level: nothing answers while SPDM is not served at all; a message beyond the level is refused,
in recovery with STATE (R473). -/
def State.spdm (s : State) (level : Nat) (act : State → State) : State :=
  match s.spdmLevel with
  | none => s
  | some l =>
    if level ≤ l then act s
    else if s.phase = phRECOVERY then s.spdmError resSTATE
    else s.spdmError erUNSUPPORTED

/-- Answer with a message whose content the standard fixes. -/
def State.spdmStandard (s : State) (code : Nat) (req : Bytes) : State :=
  let (n, s) := s.nextMessage
  s.spdmSend (code - 0x80) (Config.standardReply code req n)

def getVersion (req : Bytes) (s : State) : State := s.spdm 0 fun s => s.spdmStandard spGET_VERSION req
def getCapabilities (req : Bytes) (s : State) : State := s.spdm 1 fun s => s.spdmStandard spGET_CAPABILITIES req
def negotiateAlgorithms (req : Bytes) (s : State) : State := s.spdm 1 fun s => s.spdmStandard spNEGOTIATE_ALGORITHMS req

/-- GET_DIGESTS (R423, R426): slot 0 alone is populated. -/
def getDigests (s : State) : State :=
  s.spdm 1 fun s => s.spdmSend (spGET_DIGESTS - 0x80) ([1] ++ Config.sha384 s.certChain)

/-- GET_CERTIFICATE (R423): `len` bytes of the slot's chain from `off`. -/
def getCertificate (slot off len : Nat) (s : State) : State :=
  s.spdm 1 fun s =>
    if slot ≠ 0 then s.spdmError erINVALID
    else
      let part := (s.certChain.drop off).take len
      s.spdmSend (spGET_CERTIFICATE - 0x80) (leBytes 2 part.length ++ leBytes 2 (s.certChain.length - off - part.length) ++ part)

/-- CHALLENGE (R423): signed with the Alias key. -/
def challenge (slot : Nat) (req : Bytes) (s : State) : State :=
  s.spdm 1 fun s =>
    if slot ≠ 0 then s.spdmError erINVALID
    else
      let (n, s) := s.nextMessage
      let body := Config.standardReply spCHALLENGE req n
      s.spdmSend (spCHALLENGE - 0x80) (body ++ Config.aliasSign s.cdi (req ++ body) n)

/-- GET_MEASUREMENTS (R424): index 0 asks how many there are, 0xFF for all, else for one. -/
def getMeasurements (index : Nat) (req : Bytes) (s : State) : State :=
  s.spdm 1 fun s =>
    let is := if index = 0 then [] else if index = 0xFF then (List.range 10).map (· + 1) else [index]
    if index ≠ 0xFF && decide (10 < index) then s.spdmError erINVALID
    else
      let (n, s) := s.nextMessage
      let body := leBytes 1 (if index = 0 then 10 else is.length) ++ (is.map s.measBlock).flatten
      s.spdmSend (spGET_MEASUREMENTS - 0x80) (body ++ Config.aliasSign s.cdi (req ++ body) n)

/-! Sessions (R426). -/

def Role.num : Role → Nat
  | .none => 0
  | .custodian => 1
  | .operator => 2
  | .provisioner => 3

/-- Bring `SEC_SESS` in line with the sessions. -/
def State.syncSessions (s : State) : State :=
  let has := fun (r : Role) => s.sec.sessions.any fun x => x.2.role == r
  ((s.wr Reg.SEC_SESS_ACTIVE s.sec.sessions.length).wrb Reg.SEC_SESS_CUST (has .custodian)).wrb Reg.SEC_SESS_OPER (has .operator)

/-- A firmware update returns to IDLE (R474). -/
def State.updIdle (s : State) : State :=
  (s.wr Reg.CAR_STAT_UPD updIDLE).upFw fun f => { f with owner := none, staged := none }

/-- A session ends: an image load it was delivering is dropped, and its firmware update returns to IDLE unless it is
ACTIVATED (R474). -/
def State.endSession (s : State) (id : Nat) : State :=
  let s := (s.upSec fun c => { c with sessions := Tab.del c.sessions id }).syncSessions
  let s := if (s.img.receiving.map (·.session)) = some id then
      (s.upImg fun b => { b with receiving := none }).wr Reg.FEN_IMG_STATUS_BUSY (b2n (s.img.validating.isSome || s.img.applying.isSome))
    else s
  if s.car.fw.owner = some id then
    (if s.rd Reg.CAR_STAT_UPD = updACTIVATED then s.upFw fun f => { f with owner := none } else s.updIdle)
  else s

/-- Whether the DRBG runs (R431). -/
def State.entropy (s : State) : Bool := s.on Reg.SEC_TRNG_OK && !s.on Reg.SEC_TRNG_FAIL

/-- KEY_EXCHANGE (R426, R431). -/
def keyExchange (req : Bytes) (s : State) : State :=
  s.spdm 2 fun s =>
    if !s.entropy then s.spdmError erUNSPECIFIED
    else if 4 ≤ s.sec.sessions.length then s.spdmError erBUSY
    else
      let (n, s) := s.nextMessage
      let id := s.sec.nextSession
      let s := (s.upSec fun c => { c with sessions := Tab.put c.sessions id { lastBeat := s.hclk }, nextSession := id + 1 }).syncSessions
      let body := leBytes 2 id ++ Config.standardReply spKEY_EXCHANGE req n
      s.spdmSend (spKEY_EXCHANGE - 0x80) (body ++ Config.aliasSign s.cdi (req ++ body) n)

/-- The role that a requester's root key gives (R426). -/
def State.roleOf (s : State) (root : Bytes) : Role :=
  if s.life = lifePROVISIONING then .provisioner
  else if (s.sec.cust.map fun c => c.reqRoots.contains root).getD false then .custodian
  else if s.sec.operator = some root then .operator
  else .none

/-- A handshake fails authentication (R440). -/
def State.sessionFail (s : State) (id : Nat) : State :=
  ((s.bump Reg.SEC_CNT_SESS_FAIL).endSession id).spdmError erDECRYPT

/-- FINISH (R426): the chain that the requester presents, if any, and whether its signature and the transcript verify. -/
def finishSession (id : Nat) (chain : Option Bytes) (authentic : Bool) (s : State) : State :=
  s.spdm 2 fun s =>
    match Tab.find? s.sec.sessions id with
    | none => s.spdmError erINVALID
    | some x =>
      if x.finished then s.spdmError erINVALID
      else if !authentic then s.sessionFail id
      else
        let accept := fun (role : Role) (root : Bytes) =>
          let x := { x with finished := true, role := role, root := root, lastBeat := s.hclk }
          ((s.upSec fun c => { c with sessions := Tab.put c.sessions id x }).syncSessions).spdmStandard spFINISH []
        match chain with
        | none => if s.phase = phRECOVERY then s.sessionFail id else accept .none []
        | some c =>
          match Config.chainRoot c with
          | none => s.sessionFail id
          | some r =>
            if s.phase = phRECOVERY && s.sec.operator != some r then s.sessionFail id
            else accept (s.roleOf r) r

/-- A message of an open session. -/
def State.onSession (s : State) (level id : Nat) (act : State → State) : State :=
  s.spdm level fun s =>
    match Tab.find? s.sec.sessions id with
    | some x => if x.finished then act s else s.spdmError erINVALID
    | none => s.spdmError erINVALID

/-- HEARTBEAT (R426). -/
def spdmHeartbeat (id : Nat) (s : State) : State :=
  s.onSession 3 id fun s =>
    (s.upSec fun c => { c with sessions := Tab.upd c.sessions id fun x => { x with lastBeat := s.hclk } }).spdmStandard spHEARTBEAT []

/-- HCLK cycles of two heartbeat periods of 60 s. -/
def beatLimit : Nat := 120 * 1200000000

/-- SESSION_HEARTBEAT_LOSS (R426): a session that has missed two heartbeats ends. -/
def sessionHeartbeatLoss (id : Nat) (s : State) : State :=
  match Tab.find? s.sec.sessions id with
  | none => s
  | some x => if s.hclk < x.lastBeat + beatLimit then s else s.endSession id

/-- KEY_UPDATE (R426). -/
def keyUpdate (id : Nat) (req : Bytes) (s : State) : State := s.onSession 4 id fun s => s.spdmStandard spKEY_UPDATE req

/-- END_SESSION (R426). -/
def endSessionRow (id : Nat) (s : State) : State :=
  s.onSession 3 id fun s => (s.spdmStandard spEND_SESSION []).endSession id

/-! Privileged requests (R427, R428). -/

def cdIMAGE_LOAD : Nat := 0x0001
def cdFW_UPDATE : Nat := 0x0002
def cdUSAGE : Nat := 0x0003
def cdKEY_SLOT : Nat := 0x0004
def cdPOLICY : Nat := 0x0005
def cdDEBUG_UNLOCK : Nat := 0x0006
def cdCUSTODIAN_READ : Nat := 0x0007
def cdCUSTODIAN_INSTALL : Nat := 0x0010
def cdCUSTODIAN_SWITCH : Nat := 0x0011
def cdCUSTODIAN_RELEASE : Nat := 0x0012
def cdOPERATOR_SET : Nat := 0x0020
def cdDECOMMISSION : Nat := 0x0021

/-- The response of a privileged request: CODE, SEQ, RESULT and what the request adds. -/
def State.privAnswer (s : State) (code seq result : Nat) (extra : Bytes := []) : State :=
  let s := if result = resDENIED || result = resSTATE then s.bump Reg.SEC_CNT_PRIV_DENY else s
  s.spdmSend (spVENDOR - 0x80) (leBytes 2 code ++ leBytes 2 seq ++ leBytes 1 result ++ extra)

/-- Whether an operation that R428 runs one at a time is in progress. -/
def State.privBusy (s : State) : Bool :=
  s.img.validating.isSome || s.img.applying.isSome || s.sec.scrub.isSome ||
    s.rd Reg.CAR_STAT_UPD == updERASING || s.rd Reg.CAR_STAT_UPD == updVERIFYING

/-- Bring PRIV_BUSY in line. -/
def State.syncPriv (s : State) : State := s.wrb Reg.SEC_SESS_PRIV_BUSY s.privBusy

/-- The role of an open session. -/
def State.sessionRole (s : State) (id : Nat) : Role :=
  match Tab.find? s.sec.sessions id with
  | some x => x.role
  | none => .none

/-- Serve a privileged request: its CODE, the roles that may make it, whether the state accepts it and whether another
operation holds it off. -/
def State.privileged (s : State) (id seq code : Nat) (roles : List Role) (accepted busy : Bool) (act : State → State)
    (extra : Bytes := []) : State :=
  match s.spdmLevel with
  | none => s
  | some l =>
    match Tab.find? s.sec.sessions id with
    | none => s.spdmError erINVALID
    | some x =>
      if !x.finished then s.spdmError erINVALID
      else if !roles.contains x.role then s.privAnswer code seq resDENIED extra
      else if s.phase = phRECOVERY && code != cdFW_UPDATE then s.privAnswer code seq resSTATE extra
      else if l < 4 && s.phase != phRECOVERY && s.custState != custSWITCHING && code != cdOPERATOR_SET then
        s.privAnswer code seq resSTATE extra
      else if busy then s.privAnswer code seq resBUSY extra
      else if !accepted then s.privAnswer code seq resSTATE extra
      else (act s).syncPriv

def execGetVersion (req : Bytes) (s : State) : Host.Outcome State Fault Refusal := .next (getVersion req s)
def execGetCapabilities (req : Bytes) (s : State) : Host.Outcome State Fault Refusal := .next (getCapabilities req s)
def execNegotiateAlgorithms (req : Bytes) (s : State) : Host.Outcome State Fault Refusal := .next (negotiateAlgorithms req s)
def execGetDigests (s : State) : Host.Outcome State Fault Refusal := .next (getDigests s)
def execGetCertificate (slot off len : Nat) (s : State) : Host.Outcome State Fault Refusal := .next (getCertificate slot off len s)
def execChallenge (slot : Nat) (req : Bytes) (s : State) : Host.Outcome State Fault Refusal := .next (challenge slot req s)
def execGetMeasurements (index : Nat) (req : Bytes) (s : State) : Host.Outcome State Fault Refusal :=
  .next (getMeasurements index req s)
def execKeyExchange (req : Bytes) (s : State) : Host.Outcome State Fault Refusal := .next (keyExchange req s)
def execFinish (id : Nat) (chain : Option Bytes) (authentic : Bool) (s : State) : Host.Outcome State Fault Refusal :=
  .next (finishSession id chain authentic s)
def execSpdmHeartbeat (id : Nat) (s : State) : Host.Outcome State Fault Refusal := .next (spdmHeartbeat id s)
def execSessionHeartbeatLoss (id : Nat) (s : State) : Host.Outcome State Fault Refusal := .next (sessionHeartbeatLoss id s)
def execKeyUpdate (id : Nat) (req : Bytes) (s : State) : Host.Outcome State Fault Refusal := .next (keyUpdate id req s)
def execEndSession (id : Nat) (s : State) : Host.Outcome State Fault Refusal := .next (endSessionRow id s)

end Sys2Proof.Machine
end

