-- ==== Sys2Proof/Machine/Images.lean ====
section
/-!
DEFINITION. Loading, validating and applying structure images, quiescing fens, and the usage report (R55–R67, R427).
Marks: DEDUCED 16, in notes/assumptions.
-/
namespace Sys2Proof.Machine

/-! The usage report (R65–R67). -/

/-- Whole µs of a meter (R65). -/
def meterUs (m : Nat) : Nat := m / (1000 * 2 ^ 32) % 2 ^ 64

/-- Record j of the report. -/
def meterRecord (fen : Nat) (m : Meter) : Bytes :=
  leBytes 8 fen ++ leBytes 8 (meterUs m.clus) ++ leBytes 8 (meterUs m.chg) ++ leBytes 8 (meterUs m.port) ++ leBytes 8 m.bytes

/-- The valid fens, ascending. -/
def State.validFens (s : State) : List Nat := Tab.keysWhere s.cfg.fens fun _ r => r.valid

/-- The signed report of the meters as they stand (R66). -/
def State.usageReport (s : State) (closing : Bool) : Bytes × State :=
  let fens := s.validFens
  let serial := s.img.reports + 1
  let body := ascii "KNWU" ++ leBytes 2 0x0100 ++ leBytes 2 fens.length ++ leBytes 8 serial ++ leBytes 8 s.tnow ++
    leBytes 4 (s.rd Reg.FEN_IMG_SERIAL_SERIAL) ++ leBytes 4 (b2n closing) ++
    (fens.map fun f => meterRecord f (Tab.getD s.meters f {})).flatten
  let (n, s) := s.nextMessage
  (body ++ Config.aliasSign s.cdi body n, s.upImg fun b => { b with reports := serial })

/-- USAGE (R66, R67, R427): the report of now, or the closing report of the last full image. -/
def usage (sess seq : Nat) (closing : Bool) (s : State) : State :=
  s.privileged sess seq cdUSAGE [.custodian, .operator] (s.custState != custFAILED) false fun s =>
    if closing then
      match s.img.closing with
      | some r => s.privAnswer cdUSAGE seq resOK r
      | none => s.privAnswer cdUSAGE seq resMALFORMED
    else
      let (r, s) := s.usageReport false
      s.privAnswer cdUSAGE seq resOK r

/-! What validation reads of the device (R55, R57). -/

/-- Channel groups that hold extents of a fen, destinations of moves among them. -/
def State.groupsHeld (s : State) (f : Nat) : Nat :=
  let at_ := List.filter (fun (e : Nat × Extent) => e.2.fen == f && e.2.tier == tierNEAR && (e.2.state != exFREE || e.2.scrub))
    s.pool.extents
  let dest := List.filter (fun (m : Nat × Move) => m.2.destTier == tierNEAR && (s.ext m.1).fen == f) s.pool.moves
  ((at_.map fun (e : Nat × Extent) => e.2.loc % 64) ++ (dest.map fun (m : Nat × Move) => m.2.dest % 64)).foldl
    (fun m g => m ||| 2 ^ g) 0

/-- What a fen holds now of each reservation. -/
def State.fenUse (s : State) (f : Nat) : FenUse where
  seq := s.seqHigh f
  near := s.rd Reg.FEN_NEAR_USED_UNITS f * unitBytes
  tray := s.rd Reg.FEN_TRAY_USED_UNITS f * unitBytes
  capring := s.capringUsed f * unitBytes
  red := 4 * ((List.range 4).map (s.redUsed f)).foldl max 0
  staging := (s.stageHeld f true + s.stageHeld f false) * unitBytes
  regions := s.rd Reg.FEN_RGN_USED_COUNT f
  extents := s.rd Reg.FEN_EXT_USED_COUNT f
  groups := s.groupsHeld f

/-- Clients that hold leases or rings (R57 IN_USE). -/
def State.busyClients (s : State) : List Nat :=
  (s.pool.extents.filterMap fun e => if e.2.leased then some e.2.holder else none) ++
  (s.cmd.rings.filterMap fun r => if r.2.state != ringDISABLED then some (r.1 / 4) else none)

def State.imgCtx (s : State) : ImgCtx where
  code := s.rd Reg.GLB_ID_CODE
  att := s.hasAtt
  groupBytes := s.groupBytes
  fullSerial := s.rd Reg.FEN_IMG_SERIAL_SERIAL
  haveFull := s.img.running.isSome
  fenSerial := (List.range 64).map fun f => (f, s.rd Reg.FEN_SERIAL_SERIAL f)
  slots := (s.sec.cust.map (·.imgKeys)).getD []
  ports := s.cfg.ports
  fens := s.cfg.fens
  localHome := (Tab.findVal? s.bank.routes fun r => r.isLocal).map (·.1)
  routeHomes := s.bank.routes.map (·.1)
  trees := s.cfg.trees
  police := s.cfg.police
  limits := s.cfg.limits
  use := s.cfg.fens.map fun f => (f.1, s.fenUse f.1)
  busyClients := s.busyClients

/-! Loading (R58, R427). -/

/-- Bring FEN_IMG_STATUS.BUSY in line. -/
def State.syncLoad (s : State) : State :=
  s.wrb Reg.FEN_IMG_STATUS_BUSY (s.img.receiving.isSome || s.img.validating.isSome || s.img.applying.isSome)

/-- A load attempt ends (R56, R68). -/
def State.loadEnd (s : State) (result sect off : Nat) : State :=
  (((s.wr Reg.FEN_IMG_STATUS_RESULT result).wr Reg.FEN_IMG_STATUS_SECTION sect).wr Reg.FEN_IMG_OFFSET_OFFSET off).wr
    Reg.FEN_IMG_STATUS_DONE 1

/-- The response to the piece that started validation: it carries the R56 code. -/
def State.loadAnswer (s : State) (session seq result : Nat) : State :=
  let s := (s.syncLoad).syncPriv
  if Tab.has s.sec.sessions session then s.privAnswer cdIMAGE_LOAD seq resOK (leBytes 1 result) else s

/-- The most bytes of an image in one piece. -/
def pieceMax : Nat := 4032

/-- One piece in the state that accepts it. -/
def State.takePiece (s : State) (sess seq off total : Nat) (data : Bytes) : State :=
  let cur : ImageLoad := match s.img.receiving with
    | some l => if off = 0 || l.session != sess then { session := sess, total := total } else l
    | none => { session := sess, total := total }
  if data.length = 0 || decide (pieceMax < data.length) || cur.got.length != off || cur.total != total ||
      decide (total < off + data.length) then
    s.privAnswer cdIMAGE_LOAD seq resMALFORMED
  else
    let l := { cur with got := cur.got ++ data, seq := seq }
    if off + data.length = total then
      (s.upImg fun b => { b with receiving := none, validating := some l }).syncLoad
    else
      ((s.upImg fun b => { b with receiving := some l }).syncLoad).privAnswer cdIMAGE_LOAD seq resOK

/-- IMAGE_LOAD (R427, R428, R58). -/
def imageLoad (sess seq off total : Nat) (data : Bytes) (s : State) : State :=
  if (s.sec.scrub.bind fun r => r.abandoned) = some sess then s.privAnswer cdIMAGE_LOAD seq resBUSY (leBytes 1 imgBusy) else
  let other := match s.img.receiving with | some l => l.session != sess | none => false
  let busy := s.privBusy || other
  let mine := s.sessionRole sess == .custodian
  let s := if busy && mine && s.spdmLevel.isSome && s.phase != phRECOVERY then s.loadEnd imgBusy 0 0 else s
  s.privileged sess seq cdIMAGE_LOAD [.custodian] (s.custState == custCLAIMED) busy
    (fun s => s.takePiece sess seq off total data) (if busy then leBytes 1 imgBusy else [])

/-- IMAGE_VALIDATION_DONE (R55, R59, R60). -/
def imageValidationDone (s : State) : State :=
  match s.img.validating with
  | none => s
  | some l =>
    let verdict := imgValidate Config.ecdsaVerify s.imgCtx l.got
    let s := s.upImg fun b => { b with validating := none }
    let m := decodeImage l.got
    let fenImg := decide (28 ≤ l.got.length) && m.kind != 1
    let s := (s.wrb Reg.FEN_IMG_STATUS_FENIMG fenImg).wr Reg.FEN_IMG_STATUS_FEN (if fenImg then m.fen else 0)
    match verdict with
    | some e => (s.loadEnd e.status e.sect e.offset).loadAnswer l.session l.seq e.status
    | none =>
      if m.kind = 1 then
        let s := s.upImg fun b => { b with staged := some m }
        let s := (s.wr Reg.FEN_IMG_STATUS_STAGED 1).wr Reg.FEN_IMG_STAGED_SERIAL m.serial
        (s.loadEnd imgOk 0 0).loadAnswer l.session l.seq imgOk
      else if s.fenState m.fen != fenQUIESCED && s.fenState m.fen != fenUNUSED then
        (s.loadEnd imgNotQuiesced 0 7).loadAnswer l.session l.seq imgNotQuiesced
      else
        let s := s.upImg fun b => { b with applying := some m, loadSession := l.session, loadSeq := l.seq }
        ((s.wr Reg.FEN_STATE_APPLYING 1 m.fen).syncLoad).syncPriv

/-! Applying (R59, R60). -/

/-- Write a fen's slice and reservations to its registers (R71). -/
def State.syncFen (s : State) (f : Nat) : State :=
  let r := Tab.getD s.cfg.fens f {}
  let l := Tab.getD s.cfg.limits f {}
  let s := (List.range 4).foldl (fun s i => s.wr Reg.FEN_CLUS_MASK (r.clusters / 2 ^ (32 * i)) f i) s
  let s := (s.wr64 Reg.FEN_CHG_LO_MASK Reg.FEN_CHG_HI_MASK r.chgroups f).wr Reg.FEN_PORTS_MASK r.ports f
  let s := (s.wr Reg.FEN_NEAR_RSV_UNITS (l.nearBytes / unitBytes) f).wr Reg.FEN_TRAY_RSV_UNITS (l.trayBytes / unitBytes) f
  (s.wr Reg.FEN_SEQ_RSV_COUNT l.seqEntries f).wr Reg.RED_QUOTA (l.redBytes / 4) f

/-- Put `v` in a field of the applied configuration. -/
def State.upCfg (s : State) (f : Applied → Applied) : State := { s with cfg := f s.cfg }

/-- The port's gate list that an image carries: header START and entries in order (R52). -/
def gateListIn (m : Image) (p : Nat) : Option GateList :=
  (m.gates.findSome? fun g => match g with | .header q t => if q = p then some t else none | _ => none).map fun t =>
    { anchor := t
      entries := sortBy (·.1) (m.gates.filterMap fun g => match g with
        | .entry q i mask d => if q = p then some (i, mask, d) else none
        | _ => none) |>.map (·.2) }

/-- The take-over of a list that a fen image carries (R377): START, or the next cycle boundary of the running list. -/
def State.takeoverAt (s : State) (p : Nat) (l : GateList) : Nat :=
  if (s.portCfg p).gateMode = 1 then l.anchor
  else
    let a := s.activeList p
    if a.entries.isEmpty then s.tabor / 2 ^ 32 + 1
    else
      let left := a.cycle * 2 ^ 32 - a.pos s.tabor
      (s.tabor + left) / 2 ^ 32

/-- A list loaded into the inactive bank is pending until its take-over (R377). -/
def State.loadGate (s : State) (p : Nat) (l : GateList) : State :=
  let t := s.takeoverAt p l
  let s := (s.setOtherList p { l with anchor := t }).upSp p fun q => { q with takeover := some t }
  (s.wr Reg.GATE_P_STAT_PENDING 1 p).wr64 Reg.GATE_P_START_LO Reg.GATE_P_START_HI t p

/-- Replace a fen's client set (R60): a new or changed client's buckets start full. -/
def State.setClients (s : State) (f : Nat) (rs : List PoliceRec) : State :=
  let kept := List.filter (fun (r : Nat × PoliceRec) => r.2.fen != f) s.cfg.police
  let gone := (List.filter (fun (r : Nat × PoliceRec) => r.2.fen == f && !rs.contains r.2) s.cfg.police).map (·.1)
  let s := s.upCfg fun c => { c with police := rs.foldl (fun t r => Tab.put t r.clid r) kept }
  s.upShp fun b => { b with buckets := List.filter (fun (k : Nat × Bucket) => !gone.contains (k.1 / 4)) b.buckets }

/-- Replace the shapers of a fen's ports (R60). -/
def State.setShapers (s : State) (ports : Nat) (rs : List ShapeRec) : State :=
  let kept := List.filter (fun (r : Nat × ShapeRec) => !bit ports (r.1 / 8)) s.cfg.shapes
  let s := s.upCfg fun c => { c with shapes := rs.foldl (fun t r => Tab.put t (r.port * 8 + r.queue) r) kept }
  s.upShp fun b => { b with credits := List.filter (fun (k : Nat × Credit) => !bit ports (k.1 / 8)) b.credits }

/-- Apply a fen image (R60). -/
def State.applyFen (s : State) (m : Image) : State :=
  let f := m.fen
  let was := Tab.getD s.cfg.fens f { fen := f }
  let r := m.fens.headD { was with fen := f }
  let gone := m.sections.contains 2 && !r.valid
  let s := if !m.sections.contains 2 then s
    else
      let new : FenRec := if r.valid then r else { fen := f, ports := was.ports }
      s.upCfg fun c => { c with fens := Tab.put c.fens f new }
  let s := if gone then s.setClients f []
    else if m.sections.contains 5 then s.setClients f (m.police.filter (·.valid)) else s
  let s := if m.sections.contains 6 then s.setShapers was.ports (m.shapes.filter (·.valid)) else s
  let s := if !m.sections.contains 7 then s
    else (List.range 32).foldl (fun s p => match gateListIn m p with | some l => s.loadGate p l | none => s) s
  let s := if !m.sections.contains 4 then s
    else s.upCfg fun c => { c with trees := (m.trees.filter (·.valid)).foldl (fun t x => Tab.put t x.tree x) c.trees }
  let s := if gone then s.upCfg fun c => { c with limits := Tab.del c.limits f }
    else match (if m.sections.contains 8 then m.limits.find? (fun l => l.valid && l.fen == f) else none) with
      | some l => s.upCfg fun c => { c with limits := Tab.put c.limits f l }
      | none => s
  let s := s.syncFen f
  s.wr Reg.FEN_STATE_STATE (if gone then fenUNUSED else if (Tab.getD s.cfg.fens f {}).valid then fenQUIESCED else fenUNUSED) f

/-! Quiescing (R61, R62). -/

/-- A fen returns to RUNNING: its lease clocks run on (R61, R62). -/
def State.resumeNow (s : State) (f : Nat) : State :=
  let s := (s.wr Reg.FEN_CTL_RESUME 0 f).wr Reg.FEN_CTL_QUIESCE 0 f
  if s.fenState f = fenUNUSED then s else (s.wr Reg.FEN_STATE_STATE fenRUNNING f).syncLeases

/-- RESUME (R62). -/
def State.resumeOp (s : State) (f : Nat) : State :=
  if s.on Reg.FEN_STATE_APPLYING f then
    (s.wr Reg.FEN_CTL_RESUME 1 f).upImg fun b => { b with resumeAfterApply := b.resumeAfterApply ++ [f] }
  else s.resumeNow f

/-- Whether a fen reset runs on the fen (R513). -/
def State.fenResetting (s : State) (f : Nat) : Bool := s.car.fenReset == some f

/-- QUIESCE (R62): its unshielded chunks are killed, and its reductions that have not committed end RETRY. -/
def State.quiesceOp (s : State) (f : Nat) : State :=
  if s.fenState f != fenRUNNING then
    if s.fenResetting f then s.upCar fun c => { c with afterFenReset := c.afterFenReset ++ [f] } else s
  else
    let s := (s.wr Reg.FEN_CTL_QUIESCE 1 f).wr Reg.FEN_STATE_STATE fenQUIESCING f
    (((s.quiesceKill f).redQuiesce f).syncLeases).syncCmd f

/-- A write of `FEN_CTL` of a fen (R62): QUIESCE wins over RESUME. -/
def State.fenCtlOp (s : State) (f : Nat) (quiesce resume : Bool) : State :=
  if quiesce then s.quiesceOp f else if resume then s.resumeOp f else s

def fenCtlAt (f : Nat) : Nat := 0x101000 + 0x100 * f

def quiesce (a : Access) (f : Nat) (resume : Bool) (s : State) : State :=
  if f < 64 then s.window a (fenCtlAt f) fun s => s.fenCtlOp f true resume else s

def resume (a : Access) (f : Nat) (s : State) : State :=
  if f < 64 then s.window a (fenCtlAt f) fun s => s.fenCtlOp f false true else s

/-- FEN_QUIESCED (R62): no chunk of the fen runs, none of its commands is in a shielded run, and no request of its commands
to another home or a tray is outstanding. -/
def fenQuiesced (f : Nat) (s : State) : State :=
  let mine := fun (cid : Nat) => (s.cmdOf cid).any fun c => c.fen == f
  let runs := List.any s.cmd.running fun (r : Nat × Nat × Nat) => mine r.2.1
  let out := List.any s.fab.eng fun (e : Nat × EngReq) => mine e.2.cid
  let shields := List.any s.cmd.cmds fun (c : Nat × Cmd) => c.2.fen == f && c.2.isShielded
  if decide (64 ≤ f) || s.fenState f != fenQUIESCING || runs || shields || out then s
  else (s.wr Reg.FEN_STATE_STATE fenQUIESCED f).wr Reg.FEN_CTL_QUIESCE 0 f

/-- A native gate list of the image whose START is less than 10 µs away (R56 TOO_LATE): the offset of that START. -/
def State.gateLate (s : State) (m : Image) : Option Nat :=
  (m.gates.zipIdx.find? fun g => match g.1 with
    | .header p t => (s.portCfg p).gateMode == 1 && decide (t * 2 ^ 32 < s.tabor + 10000 * 2 ^ 32)
    | _ => false).map fun g => recAt m.raw 7 g.2 8

/-- The application of a fen image ends: its RESUME, if one came, takes effect. -/
def State.applyEnd (s : State) (f result sect off : Nat) : State :=
  let later := s.img.resumeAfterApply.contains f
  let session := s.img.loadSession
  let seq := s.img.loadSeq
  let s := (s.wr Reg.FEN_STATE_APPLYING 0 f).upImg fun b => { b with applying := none, resumeAfterApply := [] }
  let s := if later then s.resumeNow f else s
  (s.loadEnd result sect off).loadAnswer session seq result

/-- A fen image's moment of application (R55 phase 7, R60). -/
def State.fenImageApply (s : State) (m : Image) : State :=
  match s.gateLate m with
  | some o => s.applyEnd m.fen imgTooLate 7 o
  | none =>
    let s := (s.applyFen m).wr Reg.FEN_SERIAL_SERIAL m.serial m.fen
    let old := s.measurement 9
    let s := (s.upSec fun c => { c with fenChain := Config.sha384 (old ++ Config.sha384 m.raw) }).bump Reg.SEC_MEAS_FEN_EXTENDS
    s.applyEnd m.fen imgOk 0 0

/-- The cycle-0 state of a port's gates after a full image (R377): its list in bank 0, active. -/
def State.freshGates (s : State) (m : Image) (p : Nat) : State :=
  let l := (gateListIn m p).getD {}
  let s := s.upSp p fun q => { q with bank0 := l, bank1 := {}, takeover := none, resuming := false, lane := none, fitHeld := []
                                      sleep := none, awaiting := none, proposed := none }
  let s := (((s.wr Reg.GATE_P_STAT_BANK 0 p).wr Reg.GATE_P_STAT_PENDING 0 p).wr Reg.GATE_P_STAT_FAULT 0 p).wr Reg.GATE_P_CYCLES 0 p
  ((s.wr Reg.GATE_P_STAT_PWR pwrACTIVE p).wr64 Reg.GATE_P_START_LO Reg.GATE_P_START_HI l.anchor p).noteEntry p

/-- Bank 0 as a full image's ROUTES loads it (R48, R353). -/
def State.freshBank (s : State) (m : Image) : Bank :=
  m.routes.foldl (fun b r => match r with
    | .route l h ps => { b with routes := Tab.put b.routes h { isLocal := l, portset := ps, map := s.buildMap ps } }
    | .mtch pr i d dm o om act ps =>
      let e : MatchEnt := { priority := pr, dst := d, dstMask := dm, opcode := o, opcMask := om, action := act, portset := ps
                            map := if act = 0 then s.buildMap ps else [] }
      { b with matches_ := Tab.put b.matches_ i e }
    | .seed v => { b with seed := some v }) {}

/-- Free ingress cells of a port die whose queues are empty (R342). -/
def State.ingressPool (s : State) : Nat := 262144 - 128 * s.rd Reg.XBR_QLIM_CELLS - 16 * s.rd Reg.XBR_IN_MIN_CELLS

/-- Tables of records by key. -/
def tabOf {α : Type} (key : α → Nat) (l : List α) : Tab α := l.foldl (fun (t : Tab α) r => Tab.put t (key r) r) []

/-- The configuration that a full image lays down. -/
def Image.applied (m : Image) : Applied where
  ports := m.ports.zipIdx.map fun r => (r.2, r.1)
  fens := tabOf FenRec.fen (m.fens.filter (·.valid))
  trees := tabOf TreeRec.tree (m.trees.filter (·.valid))
  police := tabOf PoliceRec.clid (m.police.filter (·.valid))
  shapes := tabOf (fun (r : ShapeRec) => r.port * 8 + r.queue) (m.shapes.filter (·.valid))
  limits := tabOf LimitsRec.fen (m.limits.filter (·.valid))
  device := m.device

/-- Ports, routes and gates of a full image (R48, R377). -/
def State.applyPorts (s : State) (m : Image) : State :=
  let bank := s.freshBank m
  let s := s.upXbr fun x => { x with bank0 := bank, bank1 := {}, swap := none }
  let s := (s.wr Reg.RTE_ACTIVE_BANK 0).wr Reg.RTE_OP_PENDING 0
  (List.range 32).foldl (fun s p => (s.freshGates m p).wr Reg.FAB_PSTAT_LANE_MODE (s.portCfg p).laneMode p) s

/-- Registers of the device record and of the queues' space. -/
def State.applyDevice (s : State) (m : Image) : State :=
  let home := ((Tab.findVal? s.bank.routes fun r => r.isLocal).map (·.1)).getD 0
  let s := s.wr Reg.POOL_HOME_HOME home
  let s := (s.wr Reg.XBR_BUF_FREE_CELLS s.ingressPool 0).wr Reg.XBR_BUF_FREE_CELLS s.ingressPool 1
  let s := s.wr Reg.FAB_HIST_WIN_US (ceilDiv s.histW 1000)
  (s.wr Reg.CMD_KILL_LIMIT_COUNT m.device.killLimit).wr Reg.CMD_SHIELD_MAX_US m.device.shieldMaxUs

/-- The image that runs from now on, and the one that was staged (R59, R424). -/
def State.applyImage (s : State) (m : Image) : State :=
  let s := (s.wr Reg.FEN_IMG_SERIAL_SERIAL m.serial).wr Reg.SEC_MEAS_FEN_EXTENDS 0
  let s := (s.wr Reg.FEN_IMG_STATUS_STAGED 0).wr Reg.FEN_IMG_STAGED_SERIAL 0
  (s.upSec fun c => { c with fenChain := noDigest }).upImg fun b => { b with running := some m, staged := none }

/-- Apply a full image (R59): every table of the configuration is as it says, and the meters are clear. -/
def State.applyFull (s : State) (m : Image) : State :=
  let s := { s with cfg := m.applied, meters := [] }
  let s := (s.upShp fun b => { b with buckets := [], credits := [] }).applyPorts m
  let s := (List.range 64).foldl (fun s f => (s.syncFen f).wr Reg.FEN_SERIAL_SERIAL 0 f) s
  (s.applyDevice m).applyImage m

/-- A fen's state as an image applied at a restart leaves it (R511). -/
def State.quiesceAll (s : State) : State :=
  (List.range 64).foldl (fun s f =>
    s.wr Reg.FEN_STATE_STATE (if (Tab.getD s.cfg.fens f {}).valid then fenQUIESCED else fenUNUSED) f) s

/-- Restart with a tray shortfall (R63). -/
def State.trayShortfall (s : State) : State :=
  let asked := (s.cfg.limits.map fun l => l.2.trayBytes).sum
  let found := (s.pool.trays.map fun t => if t.2.enumerated then t.2.units * unitBytes else 0).sum
  if asked ≤ found then s.wr Reg.FEN_IMG_STATUS_TRAY_SHORT 0
  else
    let s := s.upCfg fun c => { c with limits := Tab.mapVals c.limits fun _ l => { l with trayBytes := 0 } }
    let s := (List.range 64).foldl State.syncFen s
    (s.wr Reg.FEN_IMG_STATUS_TRAY_SHORT 1).event
      { code := evTRAY_SHORT, sev := sevWARN, health := true, params := [found, asked] }

def execUsage (sess seq : Nat) (closing : Bool) (s : State) : Host.Outcome State Fault Refusal := .next (usage sess seq closing s)
def execImageLoad (sess seq off total : Nat) (data : Bytes) (s : State) : Host.Outcome State Fault Refusal :=
  .next (imageLoad sess seq off total data s)
def execImageValidationDone (s : State) : Host.Outcome State Fault Refusal := .next (imageValidationDone s)
def execQuiesce (a : Access) (f : Nat) (alsoResume : Bool) (s : State) : Host.Outcome State Fault Refusal :=
  .next (quiesce a f alsoResume s)
def execFenQuiesced (f : Nat) (s : State) : Host.Outcome State Fault Refusal := .next (fenQuiesced f s)
def execResume (a : Access) (f : Nat) (s : State) : Host.Outcome State Fault Refusal := .next (resume a f s)

end Sys2Proof.Machine
end

