-- ==== Sys2Proof/Machine/Custodian.lean ====
section
/-!
DEFINITION. Custodian, operator and policy requests, the scrub, the TRNG and the authentication of fabric peers (R421–R434,
R438).
Marks: DEDUCED 40, 41, in notes/assumptions.
-/
namespace Sys2Proof.Machine

/-- Whether a record's fields lie in their ranges (R425). -/
def CustRecord.ok (c : CustRecord) : Bool :=
  let key := fun (k : Bytes) => k.length == 97
  c.custId.length == 16 && (c.reqRoots.length == 1 || c.reqRoots.length == 2) && c.reqRoots.all key &&
  (List.all c.imgKeys fun (k : Nat × Bytes) => decide (k.1 < 4) && key k.2) &&
  decide (c.epRoots.length ≤ 4) && c.epRoots.all key &&
  decide (c.epAllow.length ≤ 64) && (c.epAllow.all fun d => d.length == 48) && decide (c.policy < 2 ^ 32)

/-- Replace the custodian record. -/
def State.upCust (s : State) (f : CustRecord → CustRecord) : State := s.upSec fun c => { c with cust := c.cust.map f }

/-- KEY_SLOT (R427): set or clear IMG_KEY slot `k`. -/
def keySlot (sess seq k : Nat) (key : Option Bytes) (s : State) : State :=
  s.privileged sess seq cdKEY_SLOT [.custodian] (s.custState == custCLAIMED) s.privBusy fun s =>
    if 3 < k || (key.any fun b => b.length != 97) then s.privAnswer cdKEY_SLOT seq resMALFORMED
    else
      let s := s.upCust fun c => { c with imgKeys := match key with
                                                     | some b => Tab.put c.imgKeys k b
                                                     | none => Tab.del c.imgKeys k }
      s.privAnswer cdKEY_SLOT seq resOK

/-- POLICY, EP_ROOT and EP_ALLOW in force. -/
def State.policyNow (s : State) : Nat × List Bytes × List Bytes :=
  s.sec.inForce.getD ((s.sec.cust.map fun c => (c.policy, c.epRoots, c.epAllow)).getD (0, [], []))

/-- POLICY (R427): the record changes at once; what is in force changes at the next warm reset. -/
def policyRow (sess seq bits : Nat) (roots allow : List Bytes) (s : State) : State :=
  s.privileged sess seq cdPOLICY [.custodian] (s.custState == custCLAIMED) s.privBusy fun s =>
    let new := { (s.sec.cust.getD {}) with policy := bits, epRoots := roots, epAllow := allow }
    if !new.ok then s.privAnswer cdPOLICY seq resMALFORMED
    else
      let now := s.policyNow
      (s.upSec fun c => { c with cust := some new, inForce := some now }).privAnswer cdPOLICY seq resOK

/-- A halted pair resumes (R493, R495): its watchdog and its semaphores' limits run on from where they stood. -/
def State.resumePair (s : State) (p : Nat) : State :=
  let q := if p = 0 then s.car.pair0 else s.car.pair1
  match q.haltedAt with
  | none => s
  | some t =>
    let q := { q with haltedAt := none, kicked := q.kicked + (s.hclk - t) }
    let held := Tab.mapVals s.car.held fun i h => if s.rd Reg.CAR_SEM_OWNER i = p + 1 then (h.1, s.hclk) else h
    if p = 0 then
      (((s.upCar fun c => { c with pair0 := q, held := held }).wr Reg.CAR_STAT_HALT0 0).wr Reg.DBG_HALT_CP0 0)
    else
      (((s.upCar fun c => { c with pair1 := q, held := held }).wr Reg.CAR_STAT_HALT1 0).wr Reg.DBG_HALT_CP1 0)

/-- Set the debug level (R438); its change ends a halt. -/
def State.debugLevel (s : State) (l : Nat) : State :=
  if s.rd Reg.SEC_LIFE_DEBUG = l then s
  else (((s.resumePair 0).resumePair 1).wr Reg.SEC_LIFE_DEBUG l).wr Reg.DBG_LEVEL_LEVEL l |>.carEvent evDEBUG_LEVEL sevINFO [l]

/-- DEBUG_UNLOCK (R438): INSPECT for the custodian while CLAIMED, FULL for the operator while UNCLAIMED. -/
def debugUnlock (sess seq : Nat) (s : State) : State :=
  let cust := s.sessionRole sess == .custodian
  s.privileged sess seq cdDEBUG_UNLOCK [.custodian, .operator]
    (s.custState == (if cust then custCLAIMED else custUNCLAIMED)) false fun s =>
      (s.debugLevel (if cust then dbgINSPECT else dbgFULL)).privAnswer cdDEBUG_UNLOCK seq resOK

/-- CUSTODIAN_READ (R425, R427). -/
def custodianRead (sess seq : Nat) (s : State) : State :=
  s.privileged sess seq cdCUSTODIAN_READ [.custodian, .operator] true s.privBusy fun s =>
    s.privAnswer cdCUSTODIAN_READ seq resOK ((s.sec.cust.map CustRecord.bytes).getD [])

/-! The scrub (R432). -/

/-- Time 0 to the key change: everything a custodian has left goes, but what R432 preserves; every session but `keep` ends. -/
def State.scrubClear (s : State) (keep : Nat) : State :=
  let others := (s.sec.sessions.map (·.1)).filter (· != keep)
  let s := others.foldl State.endSession s
  let s := (s.keepFields keepScrub).clearCustom
  let s := { s with img := { reports := s.img.reports } }
  let s := s.flashAppend (s.unpersisted.filter (·.health))
  let kept := (s.flt.flashLog.zip s.car.flashBoots).filter fun e => e.1.health
  let s := s.upCar fun c => { c with flashBoots := kept.map (·.2) }
  let s := s.upFlt fun f => { f with log := f.log.filter (·.health), flashLog := kept.map (·.1), persisted := f.nextEseq
                                     runs := [], skipped := 0, unsignalled := none, badEntries := [] }
  let s := s.upSec fun c => { c with ide := [], inForce := none, fenChain := [], sanitizing := [] }
  let s := (((s.wr Reg.SEC_IDE_STREAMS 0).wr Reg.SEC_IDE_FAIL 0).wr Reg.SEC_TDISP_STATE tdUNLOCKED).wr Reg.SEC_MEAS_FEN_EXTENDS 0
  let s := (s.newMemoryKeys).debugLevel dbgLOCKED
  (s.wr Reg.POOL_NEAR_FREE_UNITS (64 * s.groupUnits)).syncSessions

/-- A scrub begins: its closing report, its mark in flash with the record to come, and a pending sanitize (R432, R433). -/
def State.startScrub (s : State) (sess seq code : Nat) (rec : Option CustRecord) (sanitize : Bool) : State :=
  let (report, s) := s.usageReport true
  let load := (s.img.receiving.or s.img.validating).map (·.session)
  let load := load.or (s.img.applying.map fun _ => s.img.loadSession)
  let s := s.scrubClear sess
  let s := s.upSec fun c =>
    { c with scrub := some { session := sess, seq := seq, code := code, carried := rec, start := s.hclk, report := report
                             abandoned := load }
             cutOff := some rec, sanitize := c.sanitize || sanitize }
  s.wr Reg.SEC_CUST_STATE custSWITCHING

/-- A custodian record is put in place, or none: CHANGES counts, and the DRBG is reseeded (R422, R431, R432). -/
def State.putCustodian (s : State) (rec : Option CustRecord) : State :=
  let s := s.upSec fun c => { c with cust := rec, inForce := none, cutOff := none }
  let s := (s.wr Reg.SEC_CUST_STATE (if rec.isSome then custCLAIMED else custUNCLAIMED)).bump Reg.SEC_CUST_CHANGES
  (s.inc Reg.SEC_TRNG_RESEEDS).wr Reg.SEC_POLICY_BITS ((rec.map (·.policy)).getD 0)

/-- CUSTODIAN_INSTALL (R427, R438): with debug at FULL the scrub comes first. -/
def custodianInstall (sess seq : Nat) (rec : CustRecord) (s : State) : State :=
  s.privileged sess seq cdCUSTODIAN_INSTALL [.operator] (s.custState == custUNCLAIMED) s.privBusy fun s =>
    if !rec.ok then s.privAnswer cdCUSTODIAN_INSTALL seq resMALFORMED
    else if !s.entropy then s.privAnswer cdCUSTODIAN_INSTALL seq resNO_ENTROPY
    else if s.rd Reg.SEC_LIFE_DEBUG = dbgFULL then s.startScrub sess seq cdCUSTODIAN_INSTALL (some rec) false
    else (s.putCustodian (some rec)).privAnswer cdCUSTODIAN_INSTALL seq resOK

/-- Whether a firmware update is being written or verified (R428). -/
def State.updWriting (s : State) : Bool := [updERASING, updRECEIVING, updVERIFYING].contains (s.rd Reg.CAR_STAT_UPD)

/-- CUSTODIAN_SWITCH (R427, R428, R432): an image load in progress is abandoned. -/
def custodianSwitch (sess seq : Nat) (rec : Option CustRecord) (sanitize : Bool) (s : State) : State :=
  s.privileged sess seq cdCUSTODIAN_SWITCH [.operator] (s.custState == custCLAIMED && !s.on Reg.COH_STAT_DOWN)
    (s.updWriting || s.sec.scrub.isSome) fun s =>
      if rec.any fun r => !r.ok then s.privAnswer cdCUSTODIAN_SWITCH seq resMALFORMED
      else if !s.entropy then s.privAnswer cdCUSTODIAN_SWITCH seq resNO_ENTROPY
      else s.startScrub sess seq cdCUSTODIAN_SWITCH rec sanitize

/-- CUSTODIAN_RELEASE (R427, R432). -/
def custodianRelease (sess seq : Nat) (sanitize : Bool) (s : State) : State :=
  s.privileged sess seq cdCUSTODIAN_RELEASE [.custodian] (s.custState == custCLAIMED && !s.on Reg.COH_STAT_DOWN)
    (s.updWriting || s.privBusy) fun s =>
      if !s.entropy then s.privAnswer cdCUSTODIAN_RELEASE seq resNO_ENTROPY
      else s.startScrub sess seq cdCUSTODIAN_RELEASE none sanitize

/-- SCRUB_COMPLETE (R431, R432): the record is written and the response sent; without entropy the state is FAILED. -/
def scrubComplete (s : State) : State :=
  match s.sec.scrub with
  | none => s
  | some r =>
    let s := s.upSec fun c => { c with scrub := none }
    let s := s.wr Reg.SEC_SWITCH_MAX_US (s.sinceUs r.start)
    let s := s.wr64 Reg.SEC_SWITCH_DONE_LO Reg.SEC_SWITCH_DONE_HI s.tnow
    let extra := if r.code = cdCUSTODIAN_INSTALL then [] else r.report
    if !s.entropy then
      ((s.wr Reg.SEC_CUST_STATE custFAILED).syncPriv).privAnswer r.code r.seq resNO_ENTROPY extra
    else ((s.putCustodian r.carried).syncPriv).privAnswer r.code r.seq resOK extra

/-- OPERATOR_SET (R421): the first operator is the party that opened the session; a later one needs the old one's signature
over the new record. -/
def operatorSet (sess seq : Nat) (root sigR sigS : Bytes) (s : State) : State :=
  s.privileged sess seq cdOPERATOR_SET [.operator, .provisioner] (s.life == lifePROVISIONING || s.life == lifeDEPLOYED)
    s.privBusy fun s =>
      let own := (Tab.find? s.sec.sessions sess).any fun x => x.root == root
      let signed := s.sec.operator.any fun old => Config.ecdsaVerify old root sigR sigS
      let good := root.length == 97 && (if s.life = lifePROVISIONING then own else signed)
      if !good then s.privAnswer cdOPERATOR_SET seq resMALFORMED
      else
        ((s.upSec fun c => { c with operator := some root }).wr Reg.SEC_LIFE_STATE lifeDEPLOYED).privAnswer cdOPERATOR_SET seq resOK

/-- DECOMMISSION (R421): the UDS is destroyed. -/
def decommission (sess seq : Nat) (s : State) : State :=
  s.privileged sess seq cdDECOMMISSION [.operator] (s.life == lifeDEPLOYED && s.custState == custUNCLAIMED) s.privBusy fun s =>
    let s := (s.privAnswer cdDECOMMISSION seq resOK).upSec fun c => { c with uds := false }
    (s.wr Reg.SEC_LIFE_STATE lifeDECOMMISSIONED).clearSessions

/-- TRNG_FAIL (R431): test 0 is the repetition count, 1 the adaptive proportion. -/
def trngFail (test : Nat) (s : State) : State :=
  if !s.entropy then s
  else ((s.wr Reg.SEC_TRNG_OK 0).wr Reg.SEC_TRNG_FAIL 1).event
    { code := evTRNG_FAIL, sev := sevERROR, health := true, params := [test % 2] }

/-! Fabric peers (R155, R434). -/

/-- Why a peer is refused: 0 its certificate, 1 its measurements, 2 its measurement index 10. -/
def State.peerRefused (s : State) (p : Nat) (a : PeerAuth) : Option Nat :=
  let (_, roots, allow) := s.policyNow
  match (if a.authentic then Config.chainRoot a.chain else none) with
  | none => some 0
  | some r =>
    if (s.portCfg p).role = roleUplink then
      if r != Config.mbotouxRoot then some 0 else if a.index10 != s.measurement 10 then some 2 else none
    else if !roots.contains r then some 0
    else if !allow.isEmpty && !allow.contains a.digest then some 1
    else none

/-- LINK_SECURE (R155, R434): on a trained link the peer is authenticated and the link key installed; a peer that fails leaves
the port down; without entropy no key is made. -/
def linkSecure (p : Nat) (peer : PeerAuth) (s : State) : State :=
  if !s.knawenPort p || !s.on Reg.FAB_PSTAT_UP p || s.on Reg.FAB_PSTAT_SECURE p || !s.entropy then s
  else
    match s.peerRefused p peer with
    | some cause =>
      let s := (s.upPort p fun q => { q with powered := false }).bump Reg.SEC_CNT_LINK_AUTH
      let s := (s.wr Reg.FAB_PSTAT_UP 0 p).wr Reg.FAB_PSTAT_RETRAIN 0 p
      s.event { code := evLINK_AUTH, sev := sevERROR, health := true, params := [p, cause], cls := clsPORT, inst := p }
    | none =>
      ((s.wr Reg.FAB_PSTAT_SECURE 1 p).wr Reg.FAB_PSTAT_KEY_SLOT 0 p).upPort p fun q =>
        { q with lastRx := none, nextTx := 0, rxSwitch := none, txSwitch := none, txAcked := false, lastBeat := s.hclk }

def execKeySlot (sess seq k : Nat) (key : Option Bytes) (s : State) : Host.Outcome State Fault Refusal :=
  .next (keySlot sess seq k key s)
def execPolicy (sess seq bits : Nat) (roots allow : List Bytes) (s : State) : Host.Outcome State Fault Refusal :=
  .next (policyRow sess seq bits roots allow s)
def execDebugUnlock (sess seq : Nat) (s : State) : Host.Outcome State Fault Refusal := .next (debugUnlock sess seq s)
def execCustodianRead (sess seq : Nat) (s : State) : Host.Outcome State Fault Refusal := .next (custodianRead sess seq s)
def execCustodianInstall (sess seq : Nat) (rec : CustRecord) (s : State) : Host.Outcome State Fault Refusal :=
  .next (custodianInstall sess seq rec s)
def execCustodianSwitch (sess seq : Nat) (rec : Option CustRecord) (sanitize : Bool) (s : State) :
    Host.Outcome State Fault Refusal := .next (custodianSwitch sess seq rec sanitize s)
def execCustodianRelease (sess seq : Nat) (sanitize : Bool) (s : State) : Host.Outcome State Fault Refusal :=
  .next (custodianRelease sess seq sanitize s)
def execScrubComplete (s : State) : Host.Outcome State Fault Refusal := .next (scrubComplete s)
def execOperatorSet (sess seq : Nat) (root sigR sigS : Bytes) (s : State) : Host.Outcome State Fault Refusal :=
  .next (operatorSet sess seq root sigR sigS s)
def execDecommission (sess seq : Nat) (s : State) : Host.Outcome State Fault Refusal := .next (decommission sess seq s)
def execTrngFail (test : Nat) (s : State) : Host.Outcome State Fault Refusal := .next (trngFail test s)
def execLinkSecure (p : Nat) (peer : PeerAuth) (s : State) : Host.Outcome State Fault Refusal := .next (linkSecure p peer s)

end Sys2Proof.Machine
end

