-- ==== Sys2Proof/Machine/Firmware.lean ====
section
/-!
DEFINITION. Firmware slots: verification, boot, update and confirmation (R469–R475).
Marks: DEDUCED 40, 46, 47, in notes/assumptions.
-/
namespace Sys2Proof.Machine

/-! UPD_RESULT (R474). -/
def upOK : Nat := 0
def upBAD_HEADER : Nat := 1
def upBAD_LENGTH : Nat := 2
def upWRONG_PART : Nat := 3
def upBAD_CHAIN : Nat := 4
def upBAD_SIGNATURE : Nat := 5
def upSVN : Nat := 6
def upBAD_DIGEST : Nat := 7
def upINCOMPLETE : Nat := 8
def upORDER : Nat := 9
def upFLASH : Nat := 10

/-- Most bytes of a firmware image: 64 MiB. -/
def fwMax : Nat := 67108864

/-- The factory release. -/
def factoryInfo : FwInfo := { version := Config.factoryVersion, digests := (List.range 3).map Config.factoryDigest }

/-- The bytes programmed from `at_` up without a gap, and where they end. -/
def contiguous : Nat → Tab Bytes → Bytes
  | _, [] => []
  | at_, (o, b) :: t => if o = at_ then b ++ contiguous (at_ + b.length) t else []

/-- Greatest size of a component of a TYPE (R471). -/
def compMax (t : Nat) : Nat := ([0, 1048576, 4194304, 50331648] : List Nat).getD t 0

/-- A component of the image: TYPE, OFFSET, LENGTH, DIGEST. -/
structure FwComp where
  type : Nat
  off : Nat
  len : Nat
  digest : Bytes
  deriving DecidableEq, Repr

def fwComp (b : Bytes) (c : Nat) : FwComp :=
  let o := 32 + 64 * c
  ⟨fld b o 1, fld b (o + 4) 4, fld b (o + 8) 4, slice b (o + 12) 48⟩

/-- Whether a component lies in the image before its signature, is of a known type and size, and its digest is right. -/
def fwCompOk (b : Bytes) (len c : Nat) : Bool :=
  let x := fwComp b c
  let o := 32 + 64 * c
  decide (1 ≤ x.type) && decide (x.type ≤ 3) && decide (x.len ≤ compMax x.type) && decide (x.off + x.len ≤ len - sigLen) &&
    zeroAt b (o + 1) 3 && zeroAt b (o + 60) 4 && Config.sha384 (slice b x.off x.len) == x.digest

/-- The first failing check decides. -/
def firstCode : List (Nat × Bool) → Nat
  | [] => upOK
  | (c, ok) :: l => if ok then firstCode l else c

/-- The checks of R472 on an image's bytes, in order: UPD_RESULT. -/
def fwCheck (floor : Nat) (b : Bytes) : Nat :=
  let len := fld b 8 4
  let certOff := fld b 20 4
  let certLen := fld b 24 4
  let n := fld b 28 4
  let cert := slice b certOff certLen
  let o := len - sigLen
  let comps := (List.range n).map (fwComp b)
  firstCode [
    (upBAD_HEADER, slice b 0 4 == ascii "KNWF" && fld b 4 2 == 0x0100),
    (upWRONG_PART, fld b 6 2 == 0x7720),
    (upBAD_LENGTH, len % 16 == 0 && decide (len ≤ fwMax) && decide (len ≤ b.length) && decide (32 + 64 * n + sigLen ≤ len)),
    (upBAD_HEADER, decide (fld b 14 2 ≤ 1) && decide (1 ≤ certLen) && decide (certLen ≤ 8192) && decide (1 ≤ n) && decide (n ≤ 8) &&
      decide (certOff + certLen ≤ o)),
    (upBAD_CHAIN, Config.chainRoot cert == some Config.mbotouxRoot),
    (upBAD_SIGNATURE, fld b o 2 == 1 && fld b (o + 2) 2 == 0 && zeroAt b (o + 4) 12 &&
      Config.ecdsaVerify (Config.chainKey cert) (b.take o) (slice b (o + 16) 48) (slice b (o + 64) 48)),
    (upSVN, decide (floor ≤ fld b 12 2)),
    (upBAD_DIGEST, (List.range n).all (fwCompOk b len) &&
      [1, 2, 3].all fun t => (comps.filter fun c => c.type == t).length == 1)]

/-- What a verified image holds. -/
def fwInfo (b : Bytes) : FwInfo :=
  let comps := (List.range (fld b 28 4)).map (fwComp b)
  { version := fld b 16 4, svn := fld b 12 2, raise := bit (fld b 14 2) 0
    digests := [1, 2, 3].map fun t => ((comps.find? fun c => c.type == t).map (·.digest)).getD noDigest }

/-- Verify a slot: UPD_RESULT, and what it holds where that is OK. -/
def State.verifySlot (s : State) (w : FwSlot) : Nat × Option FwInfo :=
  let floor := s.rd Reg.SEC_LIFE_FW_SVN
  if w.factory then (if floor ≤ factoryInfo.svn then (upOK, some factoryInfo) else (upSVN, none))
  else
    let b := contiguous 0 w.pieces
    if b.length != w.total || w.total == 0 then (upINCOMPLETE, none)
    else
      let r := fwCheck floor b
      (r, if r = upOK then some (fwInfo b) else none)

/-- Slot A is 0, slot B is 1. -/
def FwState.slot (w : FwState) (k : Nat) : FwSlot := if k = 0 then w.slotA else w.slotB
def FwState.setSlot (w : FwState) (k : Nat) (x : FwSlot) : FwState := if k = 0 then { w with slotA := x } else { w with slotB := x }

/-! Boot (R472, R473, R475). -/

/-- The ROM abandons a slot and makes the other active: cause 0 verification, 1 trial exhausted. -/
def State.fwFallback (s : State) (slot cause : Nat) : State :=
  (s.upFw fun w => { w with active := 1 - slot, trial := false, tries := 0 }).carEvent evFW_FALLBACK sevERROR [slot, cause]

/-- The firmware of a slot runs on both pairs. -/
def State.fwRuns (s : State) (slot : Nat) (i : FwInfo) : State :=
  let s := s.upFw fun w => { w with running := some i, calmSince := s.hclk }
  let s := ((s.wr Reg.CAR_STAT_CP0 cpRUNNING).wr Reg.CAR_STAT_CP1 cpRUNNING).wr Reg.CAR_STAT_MERGED 0
  let s := ((s.wr Reg.CAR_STAT_RECOVERY 0).wr Reg.CAR_STAT_SLOT slot).wrb Reg.CAR_STAT_TRIAL s.car.fw.trial
  let s := ((s.wr Reg.CAR_FW_VER_VERSION i.version).wr Reg.CAR_FW_SVN_RUN i.svn).wr Reg.CAR_FW_SVN_STAGED 0
  let s := if s.life = lifeDEPLOYED then s.bump Reg.CAR_BOOTS_COUNT else s
  let boot := (s.rd Reg.CAR_BOOTS_COUNT, s.flt.nextEseq)
  let s := s.upCar fun c => { c with bootStarts := c.bootStarts.filter (fun b => b.2 != boot.2) ++ [boot] }
  s.upCar fun c => { c with pair0 := { kicked := s.hclk, resetAt := s.hclk }, pair1 := { kicked := s.hclk, resetAt := s.hclk } }

/-- Neither slot verifies: CP0 stays in recovery (R473). -/
def State.fwRecovery (s : State) : State :=
  let s := s.upFw fun w => { w with running := none }
  let s := ((s.wr Reg.CAR_STAT_CP0 cpBOOTING).wr Reg.CAR_STAT_CP1 cpOFF).wr Reg.CAR_STAT_RECOVERY 1
  ((s.wr Reg.CAR_FW_VER_VERSION 0).wr Reg.CAR_FW_SVN_RUN 0).upCar fun c => { c with pair0 := { resetAt := s.hclk } }

/-- Boot from the active slot, else from the other (R472, R475): whether firmware runs. -/
def State.bootFw (s : State) : Bool × State :=
  let s := s.updIdle
  let w := s.car.fw
  let s := if w.trial && decide (3 ≤ w.tries) then s.fwFallback w.active 1
    else if w.trial then s.upFw fun w => { w with tries := w.tries + 1 } else s
  let k := s.car.fw.active
  match s.verifySlot (s.car.fw.slot k) with
  | (_, some i) => (true, s.fwRuns k i)
  | _ =>
    match s.verifySlot (s.car.fw.slot (1 - k)) with
    | (_, some i) => (true, (s.fwFallback k 0).fwRuns (1 - k) i)
    | _ => (false, s.fwRecovery)

/-! FW_UPDATE (R474). -/

/-- The response of an FW_UPDATE: RESULT, then UPD_RESULT. -/
def State.fwAnswer (s : State) (seq result upd : Nat) : State :=
  (s.upFw fun w => { w with lastResult := upd }).privAnswer cdFW_UPDATE seq result (leBytes 1 upd)

/-- Serve an FW_UPDATE operation that is accepted in some update states. -/
def State.fwOp (s : State) (sess seq : Nat) (states : List Nat) (act : State → State) : State :=
  let upd := s.rd Reg.CAR_STAT_UPD
  let held := upd != updIDLE && s.car.fw.owner != some sess
  let other := s.img.validating.isSome || s.img.applying.isSome || s.sec.scrub.isSome
  let st := s.custState == custCLAIMED || s.custState == custUNCLAIMED
  s.privileged sess seq cdFW_UPDATE [.custodian, .operator] st (held || other)
    (fun s => if states.contains upd then act s else s.fwAnswer seq resOK upORDER) (leBytes 1 s.car.fw.lastResult)

/-- The slot that an update writes. -/
def State.fwTarget (s : State) : Nat := 1 - s.car.fw.active

/-- BEGIN. -/
def fwBegin (sess seq total : Nat) (s : State) : State :=
  s.fwOp sess seq [updIDLE] fun s =>
    if total < 16 || decide (fwMax < total) then s.fwAnswer seq resMALFORMED upOK
    else
      let k := s.fwTarget
      let role := (s.sessionRole sess).num
      let s := s.upFw fun w => { w.setSlot k { factory := false, total := total } with owner := some sess, ownerRole := role, staged := none }
      (s.wr Reg.CAR_STAT_UPD updERASING).fwAnswer seq resOK upOK

/-- FW_ERASE_DONE. -/
def fwEraseDone (s : State) : State :=
  if s.rd Reg.CAR_STAT_UPD = updERASING then (s.wr Reg.CAR_STAT_UPD updRECEIVING).syncPriv else s

/-- Flash offset of a slot (R469). -/
def slotOffset (k : Nat) : Nat := k * 0x4000000

/-- DATA: `flashOk` says whether programming and read-back succeed. -/
def fwData (sess seq off : Nat) (data : Bytes) (flashOk : Bool) (s : State) : State :=
  s.fwOp sess seq [updRECEIVING] fun s =>
    let k := s.fwTarget
    let w := s.car.fw.slot k
    let hit := List.any w.pieces fun (p : Nat × Bytes) => decide (p.1 < off + data.length) && decide (off < p.1 + p.2.length)
    if data.length < 16 || decide (4032 < data.length) || off % 16 != 0 || decide (w.total < off + data.length) || hit then
      s.fwAnswer seq resMALFORMED upOK
    else if !flashOk then (s.carEvent evFLASH_FAIL sevERROR [slotOffset k + off]).fwAnswer seq resOK upFLASH
    else (s.upFw fun f => f.setSlot k { w with pieces := Tab.put w.pieces off data }).fwAnswer seq resOK upOK

/-- VERIFY. -/
def fwVerify (sess seq : Nat) (s : State) : State :=
  s.fwOp sess seq [updRECEIVING] fun s =>
    match s.verifySlot (s.car.fw.slot s.fwTarget) with
    | (_, some i) =>
      let s := (s.upFw fun w => { w with staged := some i }).wr Reg.CAR_FW_SVN_STAGED i.svn
      (s.wr Reg.CAR_STAT_UPD updVERIFIED).fwAnswer seq resOK upOK
    | (r, none) => (s.carEvent evFW_VERIFY_FAIL sevWARN [r]).fwAnswer seq resOK r

/-- ACTIVATE: the slot is active from the next reset, on trial. -/
def fwActivate (sess seq : Nat) (s : State) : State :=
  s.fwOp sess seq [updVERIFIED] fun s =>
    let k := s.fwTarget
    let i := s.car.fw.staged.getD {}
    let s := s.upFw fun w => { w with before := w.active, active := k, trial := true, tries := 0 }
    ((s.wr Reg.CAR_STAT_UPD updACTIVATED).carEvent evFW_STAGED sevINFO [i.version, i.svn, k]).fwAnswer seq resOK upOK

/-- ABORT: from ACTIVATED the previous slot is active again. -/
def fwAbort (sess seq : Nat) (s : State) : State :=
  s.fwOp sess seq [updERASING, updRECEIVING, updVERIFYING, updVERIFIED, updACTIVATED] fun s =>
    let s := if s.rd Reg.CAR_STAT_UPD = updACTIVATED then
        s.upFw fun w => { w with active := w.before, trial := false, tries := 0 } else s
    ((s.updIdle).wr Reg.CAR_FW_SVN_STAGED 0).fwAnswer seq resOK upOK

/-- FW_CONFIRM (R475): both pairs have run their roles for 60 s without a mismatch or a bite. -/
def fwConfirm (s : State) : State :=
  let w := s.car.fw
  match w.running with
  | none => s
  | some i =>
    if !s.on Reg.CAR_STAT_TRIAL || !s.roleRuns 0 || !s.roleRuns 1 || s.on Reg.CAR_STAT_MERGED ||
        decide (s.hclk < w.calmSince + 60 * 1200000000) then s
    else
      let own := w.active == s.rd Reg.CAR_STAT_SLOT
      let s := (if own then s.upFw fun w => { w with trial := false, tries := 0 } else s).wr Reg.CAR_STAT_TRIAL 0
      let s := s.carEvent evFW_BOOTED sevINFO [i.version, s.rd Reg.CAR_STAT_SLOT]
      if i.raise then s.raise Reg.SEC_LIFE_FW_SVN i.svn else s

def execFwUpdateBegin (sess seq total : Nat) (s : State) : Host.Outcome State Fault Refusal := .next (fwBegin sess seq total s)
def execFwEraseDone (s : State) : Host.Outcome State Fault Refusal := .next (fwEraseDone s)
def execFwUpdateData (sess seq off : Nat) (data : Bytes) (flashOk : Bool) (s : State) : Host.Outcome State Fault Refusal :=
  .next (fwData sess seq off data flashOk s)
def execFwUpdateVerify (sess seq : Nat) (s : State) : Host.Outcome State Fault Refusal := .next (fwVerify sess seq s)
def execFwUpdateActivate (sess seq : Nat) (s : State) : Host.Outcome State Fault Refusal := .next (fwActivate sess seq s)
def execFwUpdateAbort (sess seq : Nat) (s : State) : Host.Outcome State Fault Refusal := .next (fwAbort sess seq s)
def execFwConfirm (s : State) : Host.Outcome State Fault Refusal := .next (fwConfirm s)

end Sys2Proof.Machine
end

