-- ==== Sys2Proof/Machine/HostBus.lean ====
section
/-!
DEFINITION. The host bus: IDE streams, the TDISP interface and the management link (R435, R436, R458, R506).
Marks: DEDUCED 42; PRESUMED 38, in notes/assumptions.
-/
namespace Sys2Proof.Machine

/-- TDISP messages by their request codes in PCIe 6.0: a response's code is the request's less 0x80. -/
def tmLOCK : Nat := 0x83
def tmREPORT : Nat := 0x84
def tmSTART : Nat := 0x86
def tmSTOP : Nat := 0x87
def tmERROR : Nat := 0x7F

/-- INVALID_INTERFACE_STATE. -/
def tmBadState : Nat := 0x04

/-- Bring SEC_IDE.STREAMS in line. -/
def State.syncIde (s : State) : State :=
  s.wr Reg.SEC_IDE_STREAMS (List.countP (fun (k : Nat × IdeStream) => k.2.secure) s.sec.ide)

/-- IDE_KM (R435): the host programs or re-keys a stream. -/
def ideKm (sess stream : Nat) (s : State) : State :=
  s.onSession 4 sess fun s =>
    if 2 < stream then s.spdmError erINVALID
    else
      let s := (s.upSec fun c => { c with ide := Tab.put c.ide stream { secure := true, keyedAt := s.hclk } }).syncIde
      let (n, s) := s.nextMessage
      s.emit (.message chIDE 0 (leBytes 1 stream ++ Config.standardReply chIDE [] n))

/-- The interface goes to ERROR (R436). -/
def State.tdispError (s : State) : State :=
  if s.rd Reg.SEC_TDISP_STATE = tdLOCKED || s.rd Reg.SEC_TDISP_STATE = tdRUN then
    (s.wr Reg.SEC_TDISP_STATE tdERROR).bump Reg.SEC_CNT_TDISP_ERR
  else s

/-- IDE_FAIL (R435): a TLP on a secure stream fails integrity. -/
def ideFail (stream : Nat) (s : State) : State :=
  if (Tab.find? s.sec.ide stream).any fun k => k.secure then
    let s := (s.upSec fun c => { c with ide := Tab.del c.ide stream }).syncIde
    let s := (s.bump Reg.SEC_CNT_IDE_FAIL).wr Reg.SEC_IDE_FAIL 1
    (s.tdispError).event { code := evIDE_FAIL, sev := sevERROR, health := true, params := [stream] }
  else s

/-- A TDISP request on the host's session: from the states listed it acts and is answered, from others it is refused. -/
def State.tdisp (s : State) (sess code : Nat) (from_ : List Nat) (act : State → State) (extra : State → Bytes) : State :=
  s.onSession 4 sess fun s =>
    if from_.contains (s.rd Reg.SEC_TDISP_STATE) then
      let s := act s
      let (n, s) := s.nextMessage
      s.emit (.message chIDE (code - 0x80) (Config.standardReply code [] n ++ extra s))
    else s.emit (.message chIDE tmERROR (leBytes 4 tmBadState))

/-- LOCK_INTERFACE (R436). -/
def lockInterface (sess : Nat) (s : State) : State :=
  s.tdisp sess tmLOCK [tdUNLOCKED] (fun s => s.wr Reg.SEC_TDISP_STATE tdLOCKED) fun _ => []

/-- GET_DEVICE_INTERFACE_REPORT (R436): the window's BAR, the MSI-X table, and measurement indices 3, 7 and 10. -/
def getDeviceInterfaceReport (sess : Nat) (s : State) : State :=
  s.tdisp sess tmREPORT [tdLOCKED, tdRUN] id fun s => s.measurement 3 ++ s.measurement 7 ++ s.measurement 10

/-- START_INTERFACE (R436). -/
def startInterface (sess : Nat) (s : State) : State :=
  s.tdisp sess tmSTART [tdLOCKED] (fun s => s.wr Reg.SEC_TDISP_STATE tdRUN) fun _ => []

/-- STOP_INTERFACE (R436): from every state. -/
def stopInterface (sess : Nat) (s : State) : State :=
  s.tdisp sess tmSTOP [tdUNLOCKED, tdLOCKED, tdRUN, tdERROR] (fun s => s.wr Reg.SEC_TDISP_STATE tdUNLOCKED) fun _ => []

/-- MANAGEMENT_LINK_DOWN (R458). -/
def managementLinkDown (s : State) : State := s.upFlt fun f => { f with mgmtUp := false }

/-- MANAGEMENT_LINK_UP (R458, R514): host-queue writes resume, the lost records first. -/
def managementLinkUp (s : State) : State :=
  if !s.car.powered then s else (s.upFlt fun f => { f with mgmtUp := true }).eqResume true

/-- The management link is reset: its IDE streams go and TDISP returns to CONFIG_UNLOCKED (R506). -/
def State.resetLink (s : State) : State :=
  let s := (s.upSec fun c => { c with ide := [] }).syncIde
  (managementLinkDown s).wr Reg.SEC_TDISP_STATE tdUNLOCKED

def execIdeKm (sess stream : Nat) (s : State) : Host.Outcome State Fault Refusal := .next (ideKm sess stream s)
def execIdeFail (stream : Nat) (s : State) : Host.Outcome State Fault Refusal := .next (ideFail stream s)
def execLockInterface (sess : Nat) (s : State) : Host.Outcome State Fault Refusal := .next (lockInterface sess s)
def execGetDeviceInterfaceReport (sess : Nat) (s : State) : Host.Outcome State Fault Refusal :=
  .next (getDeviceInterfaceReport sess s)
def execStartInterface (sess : Nat) (s : State) : Host.Outcome State Fault Refusal := .next (startInterface sess s)
def execStopInterface (sess : Nat) (s : State) : Host.Outcome State Fault Refusal := .next (stopInterface sess s)
def execLockedConfigurationChange (s : State) : Host.Outcome State Fault Refusal := .next s.tdispError
def execManagementLinkDown (s : State) : Host.Outcome State Fault Refusal := .next (managementLinkDown s)
def execManagementLinkUp (s : State) : Host.Outcome State Fault Refusal := .next (managementLinkUp s)
def execPerstN (s : State) : Host.Outcome State Fault Refusal := .next s.resetLink

end Sys2Proof.Machine
end

