-- ==== Sys2Proof/Machine/Power.lean ====
section
/-!
DEFINITION. Reference clocks, resets, bring-up and fen reset (chapter 17), with the application of images at their moments
(R60, R76, R433, R509).
Marks: DEDUCED 13, 48, 49, in notes/assumptions.
-/
namespace Sys2Proof.Machine

/-! Reference clocks (R503, R504). -/

def State.refOk (s : State) (i : Nat) : Bool := if i = 0 then s.on Reg.CLK_STAT_REF0_OK else s.on Reg.CLK_STAT_REF1_OK
def State.setRef (s : State) (i : Nat) (ok : Bool) : State :=
  if i = 0 then s.wrb Reg.CLK_STAT_REF0_OK ok else s.wrb Reg.CLK_STAT_REF1_OK ok

/-- P1 of a REFCLK record: 0 lost, 1 failover, 2 restored. -/
def State.refEvent (s : State) (i what : Nat) : State :=
  s.event { code := evREFCLK, sev := sevWARN, health := true, params := [i, what] }

/-- REFCLK_LOSS (R503): with the other input good, the multiplexer switches to it. -/
def refclkLoss (i : Nat) (s : State) : State :=
  let i := i % 2
  if !s.refOk i then s
  else
    let s := (s.setRef i false).wr Reg.CLK_REF_DIFF_PPM10 0
    if !s.refOk (1 - i) then (s.refEvent i 0).upCar fun c => { c with bothLostAt := some s.hclk }
    else if s.rd Reg.CLK_STAT_SEL = i then ((s.wr Reg.CLK_STAT_SEL (1 - i)).bump Reg.CLK_CNT_FAILOVER).refEvent i 1
    else s.refEvent i 0

/-- With REVERT set the switch returns to the preferred input once that is good (R503). -/
def State.revertRef (s : State) : State :=
  let p := s.rd Reg.CLK_CTL_PREFER
  if s.on Reg.CLK_CTL_REVERT && s.rd Reg.CLK_STAT_SEL != p && s.refOk p then
    ((s.wr Reg.CLK_STAT_SEL p).bump Reg.CLK_CNT_FAILOVER).refEvent p 2
  else s

/-- REFCLK_GOOD (R503, R504): an input is declared good; `ppm10` is its offset against the other. -/
def refclkGood (i ppm10 : Nat) (s : State) : State :=
  let i := i % 2
  if s.refOk i || !s.car.powered then s
  else
    let other := s.refOk (1 - i)
    let s := ((s.setRef i true).refEvent i 2).upCar fun c => { c with bothLostAt := none }
    if other then (s.wr Reg.CLK_REF_DIFF_PPM10 ppm10).revertRef
    else if s.rd Reg.CLK_STAT_SEL = i then s
    else ((s.wr Reg.CLK_STAT_SEL i).bump Reg.CLK_CNT_FAILOVER).refEvent (1 - i) 1

/-! Straps (R459, R517, R518). -/

/-- Whether all eight samples of strap `n` agree. -/
def strapAgrees (b : BringUp) (n : Nat) : Bool :=
  b.straps.all (fun v => bit v n) || b.straps.all (fun v => !bit v n)

/-- A strap's value: what its samples agree on, else its default, 0. -/
def strapValue (b : BringUp) (n : Nat) : Bool := strapAgrees b n && !b.straps.isEmpty && b.straps.all fun v => bit v n

/-- Sample the straps. -/
def State.sampleStraps (s : State) (b : BringUp) : State :=
  let val := ((List.range 4).map fun n => b2n (strapValue b n) * 2 ^ n).sum
  let bad := (List.range 4).filter fun n => !strapAgrees b n
  let s := (s.wr Reg.PWR_STRAP_VALUE val).wr Reg.PWR_STRAP_DEFAULTED (bad.map fun n => 2 ^ n).sum
  let s := (s.wrb Reg.CLK_CTL_PREFER (strapValue b 0)).wrb Reg.DBG_TAP_MODE (strapValue b 1)
  bad.foldl (fun s n => s.event { code := evSTRAP, sev := sevWARN, health := true, params := [n] }) s

/-! Bring-up (R514). -/

def State.setPhase (s : State) (p : Nat) : State := s.wr Reg.PWR_RST_STAT_PHASE p

/-- Every die, stack and die-to-die link is ready (R35, R36); the coherent domain runs. -/
def State.diesReady (s : State) : State :=
  let s := ((s.wr Reg.GLB_DIE_PD_READY 3).wr Reg.GLB_DIE_CD_READY 0xFF).wr Reg.GLB_DIE_XH_READY 1
  let s := (s.wr Reg.GLB_DIE_MH_READY 1).wr Reg.GLB_DIE_MS_READY 0xFF
  let s := ((s.wr Reg.GLB_D2D_PD_UP 3).wr Reg.GLB_D2D_CD_UP 0xFF).wr Reg.GLB_D2D_MH_UP 1
  s.wr Reg.COH_STAT_ALIVE 0x3FF

/-- A bring-up has ended: how long it took is the hardware's. -/
def State.noteBringTime (s : State) : State :=
  let (v, s) := s.free
  s.wr Reg.PWR_BRING_TIME_US v

/-- The custodian record is read from flash, a scrub that was cut off is completed, and the switch waits for an image
(R432, R514). -/
def State.waitImage (s : State) : State :=
  let s := match s.sec.cutOff with
    | some r => s.putCustodian r
    | none => s.wr Reg.SEC_POLICY_BITS ((s.sec.cust.map CustRecord.policy).getD 0)
  (s.setPhase phWAIT_IMAGE).noteBringTime

/-- From PWRGOOD or RESET_N to WAIT_IMAGE, on a switch that the reset has cleared (R514). -/
def State.powerUp (s : State) (b : BringUp) (last : Nat) : State :=
  let s := ((s.upCar fun c => { c with powered := true }).setPhase phROM).wr Reg.PWR_RST_STAT_LAST last
  let s := if last = 4 then (s.refEvent 0 0).refEvent 1 0 else s
  let s := ((s.sampleStraps b).setRef 0 b.ref0).setRef 1 b.ref1
  let prefer := s.rd Reg.CLK_CTL_PREFER
  if !b.ref0 && !b.ref1 then s
  else
    let s := s.wr Reg.CLK_STAT_SEL (if s.refOk prefer then prefer else 1 - prefer)
    let s := if b.ref0 && b.ref1 then s.wr Reg.CLK_REF_DIFF_PPM10 b.ppm10 else s
    let s := (s.wr Reg.CLK_STAT_ROOT_LOCK 1).wr Reg.GLB_DIE_MH_READY 1
    let s := if b.trngOk then s.wr Reg.SEC_TRNG_OK 1 else s.wr Reg.SEC_TRNG_FAIL 1
    let (ok, s) := s.bootFw
    if !ok then s.setPhase phRECOVERY
    else if !b.ready then s.setPhase phDIES
    else
      let s := (s.diesReady).newMemoryKeys
      (s.wr Reg.POOL_NEAR_FREE_UNITS (64 * s.groupUnits)).waitImage

/-- POWER_ON (R506, R514). -/
def powerOn (b : BringUp) (s : State) : State := (s.powerOnClear false).powerUp b 0

/-- Release the pins that a trip drives. -/
def State.releasePins (s : State) : State := ((s.drive pinTHERMTRIP 0).drive pinMC_ALERT 0).drive pinPPS_OUT 0

/-- PWRGOOD_FALL (R516): the switch stops at once. -/
def pwrgoodFall (s : State) : State :=
  ((s.powerOnClear false).releasePins).upCar fun c => { c with powered := false }

/-- RESET_N (R506): a cold reset. -/
def resetN (b : BringUp) (s : State) : State :=
  if s.car.powered then ((s.powerOnClear true).releasePins).powerUp b 1 else s

/-- BOTH_REFS_LOST (R504): 20 µs after the loss of both inputs. -/
def bothRefsLost (b : BringUp) (s : State) : State :=
  match s.car.bothLostAt with
  | none => s
  | some t =>
    if s.hclk < t + usToHclk 20 then s
    else (((s.wr Reg.CLK_STAT_BOTH_LOST 1).powerOnClear true).releasePins).powerUp b 4

/-- BRINGUP_HW_FAIL (R514): dies (as `GLB_DIE` [19:0]) and links (as `GLB_D2D` [10:0]) that are ready; the rest are not, and
bring-up stops. -/
def bringupHwFail (dies links : Nat) (s : State) : State :=
  if s.phase != phDIES then s
  else
    let s := ((s.wr Reg.GLB_DIE_PD_READY dies).wr Reg.GLB_DIE_CD_READY (dies / 4)).wr Reg.GLB_DIE_XH_READY (dies / 2 ^ 10)
    let s := (s.wr Reg.GLB_DIE_MH_READY 1).wr Reg.GLB_DIE_MS_READY (dies / 2 ^ 12)
    let s := ((s.wr Reg.GLB_D2D_PD_UP links).wr Reg.GLB_D2D_CD_UP (links / 4)).wr Reg.GLB_D2D_MH_UP (links / 2 ^ 10)
    (s.upCar fun c => { c with warm := false }).setPhase phHW_FAIL

/-! Warm reset (R507–R510). -/

/-- The image that a warm reset applies: the staged one, else the running one. -/
def State.nextImage (s : State) : Option Image := s.img.staged.or s.img.running

/-- Prefix references of the entries that are cleared go down as by leaves (R509). -/
def State.dropPrefixRefs (s : State) : State :=
  (s.sqt.ents.filter fun e => e.2.hasParent || e.2.state == sqPREFIX).foldl (fun s e => s.prefixRef e.2.arena false) s

/-- The pool's tables, keys and registers at a fatal restart (R507). -/
def State.emptyPool (s : State) : State :=
  let used := [Reg.FEN_NEAR_USED_UNITS, Reg.FEN_TRAY_USED_UNITS, Reg.FEN_RGN_USED_COUNT, Reg.FEN_EXT_USED_COUNT]
  let s := s.keepFields fun f => !((f.inPOOL && f.acc == .ro && f != Reg.POOL_HOME_HOME) || used.contains f || f == Reg.CKP_STAT_SETS)
  let s := { ((s.newMemoryKeys).clearPool) with ckp := {} }
  s.wr Reg.POOL_NEAR_FREE_UNITS (64 * s.groupUnits)

/-- Carillon's state as a warm reset leaves it (R501, R507). -/
def State.clearCar (s : State) : State :=
  s.upCar fun c => { fw := c.fw, flashBoots := c.flashBoots, flashErased := c.flashErased
                     powered := true, bothLostAt := c.bothLostAt, warm := true, warmAt := some s.hclk }

/-- Carillon, where a pair runs, copies the fatal registers into its log before a fatal restart (R410, R512). -/
def State.copyFatal (s : State) : State :=
  if !s.roleRuns 0 && !s.roleRuns 1 then s else s.flashAppend (s.unpersisted.filter fun e => e.severity == sevFATAL)

/-- The state clear of a warm reset (R507, R510). -/
def State.warmClear (s : State) (fatal : Bool) : State :=
  let level := s.rd Reg.SEC_LIFE_DEBUG
  let s := if fatal then s.copyFatal else s.dropPrefixRefs
  let s := (s.sec.sessions.map (·.1)).foldl State.endSession s
  let s := (((s.keepFields keepWarm).clearFabric).clearWork).clearFlight
  let s := (s.clearLoads).clearCar
  let s := if fatal then s.emptyPool else s
  let s := (s.wr Reg.DBG_LEVEL_LEVEL level).wr Reg.PWR_FEN_RST_BUSY 0
  let s := (s.wr Reg.DBG_TAP_MODE (bits (s.rd Reg.PWR_STRAP_VALUE) 1 1)).syncSessions
  let s := s.upSec fun c => { c with inForce := none, sanitizing := [] }
  ((s.wr Reg.SEC_POLICY_BITS ((s.sec.cust.map CustRecord.policy).getD 0)).syncLoad).syncPriv

/-- A warm reset begins (R506, R510): cause 2 is a request, 3 the automatic restart. -/
def State.warmReset (s : State) (cause : Nat) (b : BringUp) : State :=
  let fatal := s.fatal || s.on Reg.COH_FATAL_CAUSE
  let s := match s.img.validating with
    | some l => ((s.upImg fun i => { i with validating := none }).loadEnd imgBusy 0 0).loadAnswer l.session l.seq imgBusy
    | none => s
  let (report, s) := s.usageReport true
  let s := (s.upImg fun i => { i with closing := some report }).warmClear fatal
  let s := ((s.bump Reg.PWR_RST_STAT_WARMS).wr Reg.PWR_RST_STAT_LAST cause).wrb Reg.PWR_RST_STAT_FATAL_RESTART fatal
  let (ok, s) := (s.setPhase phROM).bootFw
  if !ok then (s.setPhase phRECOVERY).upCar fun c => { c with warm := false }
  else if !b.ready then s.setPhase phDIES
  else
    let s := s.diesReady
    if s.nextImage.isSome then s.setPhase phTRAYS
    else (s.upCar fun c => { c with warm := false }).waitImage

/-- A warm-reset request (R508, R512): ignored in a thermal trip, while the custodian is switched and during a warm reset; held
until a fen image has been applied.  Requests of one HCLK cycle make one reset. -/
def State.warmRequest (s : State) (cause : Nat) (b : BringUp) : State :=
  if s.car.warmAt = some s.hclk then s
  else if s.on Reg.CAR_TRIP_VALID || s.custState == custSWITCHING || s.car.warm then s.bump Reg.PWR_CNT_IGNORED
  else if s.img.applying.isSome then s.upCar fun c => { c with warmQueued := c.warmQueued.or (some (cause, b)) }
  else s.warmReset cause b

/-- CONTINUE (R510, R518). -/
def State.continueOp (s : State) : State := if s.phase = phHOLD then s.setPhase phAPPLY else s

/-- A write of `PWR_RST_CTL` (R518). -/
def State.rstCtlOp (s : State) (v : Nat) (b : BringUp) : State :=
  let s := s.wrb Reg.PWR_RST_CTL_HOLD (bit v 1)
  let s := if bit v 2 then s.continueOp else s
  if !bit v 0 then s
  else if v / 2 ^ 16 % 2 ^ 16 = 0x574D then s.warmRequest 2 b
  else s.bump Reg.PWR_CNT_IGNORED

/-- WARM: a write of `PWR_RST_CTL` with WARM set, a key, and HOLD as `hold` says. -/
def warm (a : Access) (key : Nat) (hold : Bool) (b : BringUp) (s : State) : State :=
  s.window a 0x10100 fun s => s.rstCtlOp (key % 2 ^ 16 * 2 ^ 16 + 2 * b2n hold + 1) b

/-- CONTINUE: a write of `PWR_RST_CTL` with CONTINUE set. -/
def continueRow (a : Access) (hold : Bool) (s : State) : State :=
  s.window a 0x10100 fun s => s.rstCtlOp (2 * b2n hold + 4) {}

/-- FATAL_AUTO_RESTART (R512). -/
def fatalAutoRestart (b : BringUp) (s : State) : State :=
  let ms := s.rd Reg.PWR_FATAL_AUTO_MS
  if ms = 0 || !s.fatal || s.car.warm || decide (s.hclk < s.flt.fatalAt + ms * 1200000) then s else s.warmRequest 3 b

/-! Trays (R76, R433, R437, R510). -/

/-- After enumeration and sanitize: HOLD, or on. -/
def State.traysDone (s : State) : State :=
  if s.phase = phTRAYS && s.sec.sanitizing.isEmpty then s.setPhase (if s.on Reg.PWR_RST_CTL_HOLD then phHOLD else phAPPLY) else s

/-- A tray is left down (R76, R437): cause 1 unsupported, 2 sanitize failed, 3 no IDE. -/
def State.leaveTrayDown (s : State) (t cause : Nat) : State :=
  let s := s.upPool fun b => { b with trays := Tab.upd b.trays t fun x => { x with up := false, enumerated := false } }
  s.event { code := evTRAY_DOWN, sev := sevERROR, health := true, params := [t, cause], cls := clsPORT, inst := t }

/-- One tray that is found. -/
def State.enumerate (s : State) (f : TrayFound) : State :=
  let s := s.upPool fun b => { b with trays := Tab.put b.trays f.port { enumerated := true, up := true, units := f.units, serial := f.serial } }
  if !f.supported then s.leaveTrayDown f.port 1
  else if !f.ide && bit s.policy 0 then s.leaveTrayDown f.port 3
  else
    let s := if f.ide then s.wr Reg.SEC_TRAY_IDE_PORTS (setBits (s.rd Reg.SEC_TRAY_IDE_PORTS) f.port 1 1) else s
    if s.sec.sanitize then
      let s := (s.upSec fun c => { c with sanitizing := Tab.put c.sanitizing f.port s.hclk }).wr Reg.SEC_TRAY_SAN_PORTS
        (setBits (s.rd Reg.SEC_TRAY_SAN_PORTS) f.port 1 1)
      s.emit (.message chTRAY f.port [])
    else s

/-- Ports of the image to be applied on which a tray may stand: role TRAY, the lower of a bonded pair. -/
def trayPorts (m : Image) : List Nat :=
  (m.ports.zipIdx.filter fun r => r.1.role == roleTray && (r.1.laneMode != 3 || r.2 % 2 == 0)).map (·.2)

/-- TRAY_ENUMERATION (R76, R433, R510). -/
def trayEnumeration (found : List TrayFound) (s : State) : State :=
  if s.phase != phTRAYS || !s.sec.sanitizing.isEmpty then s
  else
    let ports := (s.nextImage.map trayPorts).getD []
    let s := ((s.upPool fun b => { b with trays := [] }).wr Reg.SEC_TRAY_IDE_PORTS 0).wr Reg.SEC_TRAY_SAN_PORTS 0
    let s := (found.filter fun f => ports.contains f.port).foldl State.enumerate s
    (s.upSec fun c => { c with sanitize := false }).traysDone

/-- A tray's sanitize has ended. -/
def State.sanitizeEnd (s : State) (t : Nat) (ok : Bool) : State :=
  let s := (s.upSec fun c => { c with sanitizing := Tab.del c.sanitizing t }).wr Reg.SEC_TRAY_SAN_PORTS
    (setBits (s.rd Reg.SEC_TRAY_SAN_PORTS) t 1 0)
  (if ok then s else s.leaveTrayDown t 2).traysDone

/-- TRAY_SANITIZE_DONE (R433). -/
def traySanitizeDone (t : Nat) (ok : Bool) (s : State) : State := if Tab.has s.sec.sanitizing t then s.sanitizeEnd t ok else s

/-- TRAY_SANITIZE_TIMEOUT (R510). -/
def traySanitizeTimeout (t : Nat) (s : State) : State :=
  match Tab.find? s.sec.sanitizing t with
  | none => s
  | some t0 => if s.hclk < t0 + s.rd Reg.PWR_SAN_MAX_S * 1200000000 then s else s.sanitizeEnd t false

/-! Phase 8 (R509). -/

/-- Every MOVING extent returns to PRIOR, and no reference is held. -/
def State.settleMoves (s : State) : State :=
  let aborts := s.rd Reg.POOL_CNT_MOVE_ABORT
  let s := (s.pool.moves.map (·.1)).foldl State.releaseMove s
  (s.wr Reg.POOL_CNT_MOVE_ABORT aborts).upPool fun b =>
    { b with extents := Tab.mapVals b.extents fun _ e => { e with rrefs := 0, wrefs := 0 } }

/-- Extents and regions that the new image has no place for. -/
def State.settlePlaces (s : State) : State :=
  let valid := fun (f : Nat) => (Tab.getD s.cfg.fens f {}).valid
  let fits := fun (e : Extent) =>
    valid e.fen && (e.tier != tierNEAR || bit (Tab.getD s.cfg.fens e.fen {}).chgroups (e.loc % 64))
  let es := (s.pool.extents.filter fun e => e.2.state != exFREE && !fits e.2).map (·.1)
  let rs := (s.pool.regions.filter fun g => g.2.valid && !g.2.deleting && !valid g.2.fen).map (·.1)
  let s := es.foldl (fun s i => s.freeExtent i) s
  let s := rs.foldl State.deleteRegion s
  let s := s.bump Reg.PWR_CNT_DROPPED 0 0 (es.length + rs.length)
  match s.xbr.capExt with
  | some i => if es.contains i then (s.upXbr fun x => { x with capExt := none }).wr Reg.XBR_CAP_CTL_ENABLE 0 else s
  | none => s

/-- Leases (R509): a holder that the image does not declare is reclaimed; the others' clocks wait at the full period. -/
def State.settleLeases (s : State) : State :=
  let holders := (s.pool.extents.filterMap fun e => if e.2.leased then some e.2.holder else none).eraseDups
  holders.foldl (fun s c =>
    if Tab.has s.cfg.police c then
      s.upLease c fun l => { l with running := false, stopped := some (l.periodS * 1200000000), deadline := 0 }
    else
      let es := (s.holdings c).map (·.1)
      let s := es.foldl (fun s i => s.freeExtent i) s
      let s := s.upLease c fun l => { l with epoch := l.epoch + 1, running := false, stopped := none, expiry := 0, deadline := 0 }
      (s.bump Reg.POOL_CNT_LEASE_EXP).event
        { code := evLEASE_EXPIRED, sev := sevWARN, health := false, params := [c, es.length] }) s

/-- Free space of the trays: their capacity less what extents and zero-fills hold. -/
def State.noteTrayFree (s : State) : State :=
  let all := (s.pool.trays.map fun t => if t.2.enumerated then t.2.units else 0).sum
  let held := (s.pool.extents.map fun e => if e.2.tier == tierTRAY && (e.2.state != exFREE || e.2.scrub) then e.2.length else 0).sum
  let dead := (s.pool.scrubs.map fun k => if k.2.tier == tierTRAY && k.2.ext.isNone then k.2.units else 0).sum
  s.wr Reg.POOL_TRAY_FREE_UNITS (all - held - dead)

/-- Power up the ports of a role that carries Knawen packets. -/
def State.powerPorts (s : State) : State :=
  let s := (List.range 32).foldl (fun s p => if s.knawenPort p then s.upPort p fun q => { q with powered := true } else s) s
  s.wr Reg.CLK_STAT_SD_LOCK 1

/-- APPLY (R509, R510, R511). -/
def apply (s : State) : State :=
  if s.phase != phAPPLY then s
  else match s.nextImage with
    | none => s
    | some m =>
      let s := ((s.applyFull m).trayShortfall).quiesceAll
      let s := (((s.settleMoves).settlePlaces).settleLeases).noteTrayFree
      (s.powerPorts).setPhase phPORTS

/-- PORTS_TRAINED (R510): a port that has not come up stays down. -/
def portsTrained (s : State) : State :=
  if s.phase != phPORTS then s
  else
    let s := (List.range 32).foldl (fun s p =>
      if s.knawenPort p && !s.on Reg.FAB_PSTAT_SECURE p then s.upPort p fun q => { q with powered := false } else s) s
    ((s.upCar fun c => { c with warm := false }).setPhase phRUN).noteBringTime

/-- FEN_IMAGE_APPLY (R60, R512, R513): it waits for a reset of the fen; a warm reset that waited for it then begins. -/
def fenImageApplyRow (s : State) : State :=
  match s.img.applying with
  | none => s
  | some m =>
    if s.fenResetting m.fen then s
    else
      let s := s.fenImageApply m
      match s.car.warmQueued with
      | none => s
      | some (cause, b) => (s.upCar fun c => { c with warmQueued := none }).warmReset cause b

/-! Fen reset (R513). -/

/-- Clients of a fen. -/
def State.fenClients (s : State) (f : Nat) : List Nat := (s.cfg.police.filter fun r => r.2.fen == f).map (·.1)

/-- A fen reset ends with the last zero-fill; control writes that waited for it then act. -/
def State.fenResetEnd (s : State) : State :=
  match s.car.fenReset with
  | none => s
  | some f =>
    if s.pool.scrubs.any fun k => k.2.fen == f then s
    else
      let later := s.car.afterFenReset
      let s := s.upCar fun c => { c with fenReset := none, afterFenReset := [] }
      let s := (s.wr Reg.PWR_FEN_RST_BUSY 0).wr Reg.PWR_FEN_RST_STATUS stOK
      later.foldl State.quiesceOp s

/-- A GO of `PWR_FEN_RST` (R513). -/
def State.fenResetOp (s : State) (f : Nat) : State :=
  if s.on Reg.PWR_FEN_RST_BUSY then s
  else
    let s := s.wr Reg.PWR_FEN_RST_FEN f
    if s.fenState f != fenQUIESCED then s.wr Reg.PWR_FEN_RST_STATUS stRETRY
    else
      let s := (s.wr Reg.PWR_FEN_RST_BUSY 1).upCar fun c => { c with fenReset := some f }
      let s := (s.cmd.cmds.filter fun c => c.2.fen == f).foldl (fun s c => s.killCmd c.1) s
      let s := (s.seqsOf f).foldl (fun s e => s.leaveNow f e.1) s
      let s := s.upAtt fun b => { b with arenas := List.filter (fun (a : Nat × Arena) => a.2.fen != f) b.arenas
                                         leaving := List.filter (fun (l : Nat × Leaving) => l.2.fen != f) b.leaving }
      let s := s.syncPages f
      let s := s.upCkp fun b => { b with sets := List.filter (fun (x : Nat × CkpSet) => x.2.fen != f) b.sets }
      let s := s.wr Reg.CKP_STAT_SETS s.ckp.sets.length
      let rs := (s.pool.regions.filter fun g => g.2.valid && !g.2.deleting && g.2.fen == f).map (·.1)
      let s := rs.foldl State.deleteRegion s
      let s := (s.fenClients f).foldl (fun s c =>
        s.upLease c fun l => { l with running := false, stopped := none, expiry := 0, deadline := 0 }) s
      s.fenResetEnd

/-- FEN_RESET. -/
def fenReset (a : Access) (f : Nat) (s : State) : State := s.window a 0x10114 fun s => s.fenResetOp (f % 64)

def execRefclkLoss (i : Nat) (s : State) : Host.Outcome State Fault Refusal := .next (refclkLoss i s)
def execRefclkGood (i ppm10 : Nat) (s : State) : Host.Outcome State Fault Refusal := .next (refclkGood i ppm10 s)
def execBothRefsLost (b : BringUp) (s : State) : Host.Outcome State Fault Refusal := .next (bothRefsLost b s)
def execPowerOn (b : BringUp) (s : State) : Host.Outcome State Fault Refusal := .next (powerOn b s)
def execPwrgoodFall (s : State) : Host.Outcome State Fault Refusal := .next (pwrgoodFall s)
def execResetN (b : BringUp) (s : State) : Host.Outcome State Fault Refusal := .next (resetN b s)
def execBringupHwFail (dies links : Nat) (s : State) : Host.Outcome State Fault Refusal := .next (bringupHwFail dies links s)
def execWarm (a : Access) (key : Nat) (hold : Bool) (b : BringUp) (s : State) : Host.Outcome State Fault Refusal :=
  .next (warm a key hold b s)
def execContinue (a : Access) (hold : Bool) (s : State) : Host.Outcome State Fault Refusal := .next (continueRow a hold s)
def execFatalAutoRestart (b : BringUp) (s : State) : Host.Outcome State Fault Refusal := .next (fatalAutoRestart b s)
def execTrayEnumeration (found : List TrayFound) (s : State) : Host.Outcome State Fault Refusal := .next (trayEnumeration found s)
def execTraySanitizeDone (t : Nat) (ok : Bool) (s : State) : Host.Outcome State Fault Refusal := .next (traySanitizeDone t ok s)
def execTraySanitizeTimeout (t : Nat) (s : State) : Host.Outcome State Fault Refusal := .next (traySanitizeTimeout t s)
def execApply (s : State) : Host.Outcome State Fault Refusal := .next (apply s)
def execPortsTrained (s : State) : Host.Outcome State Fault Refusal := .next (portsTrained s)
def execFenImageApply (s : State) : Host.Outcome State Fault Refusal := .next (fenImageApplyRow s)
def execFenReset (a : Access) (f : Nat) (s : State) : Host.Outcome State Fault Refusal := .next (fenReset a f s)
/-- SCRUB_DONE (R92): the zero-fill may be the last that a fen reset waits for (R513). -/
def execScrubDone (id : Nat) (s : State) : Host.Outcome State Fault Refusal := .next (scrubDone id s).fenResetEnd

end Sys2Proof.Machine
end

