-- ==== Sys2Proof/Machine/Pairs.lean ====
section
/-!
DEFINITION. Carillon's pairs, their private peripherals, the flash log and the hardware semaphores (R463–R470, R487–R492).
Marks: DEDUCED 37, 46, in notes/assumptions.
-/
namespace Sys2Proof.Machine

/-! Pairs (R463–R467). -/

def State.carPair (s : State) (p : Nat) : CarPair := if p = 0 then s.car.pair0 else s.car.pair1
def State.upPair (s : State) (p : Nat) (f : CarPair → CarPair) : State :=
  s.upCar fun c => if p = 0 then { c with pair0 := f c.pair0 } else { c with pair1 := f c.pair1 }

/-- `CAR_STAT.CP0`, `.CP1`. -/
def State.cp (s : State) (p : Nat) : Nat := if p = 0 then s.rd Reg.CAR_STAT_CP0 else s.rd Reg.CAR_STAT_CP1
def State.setCp (s : State) (p v : Nat) : State := if p = 0 then s.wr Reg.CAR_STAT_CP0 v else s.wr Reg.CAR_STAT_CP1 v
def State.pairHalted (s : State) (p : Nat) : Bool := (s.carPair p).haltedAt.isSome

/-- What is lost with the pair that has the management role (R465): sessions, an image in validation, requests in progress. -/
def State.managementLost (s : State) : State :=
  let s := match s.img.validating with
    | some _ => ((s.upImg fun i => { i with validating := none }).loadEnd imgBusy 0 0).syncLoad
    | none => s
  let s := (s.sec.sessions.map (·.1)).foldl State.endSession s
  (s.upCar fun c => { c with requests := [] }).syncPriv

/-- A pair is reset: its outputs are blocked until it restarts. -/
def State.pairDown (s : State) (p to_ : Nat) : State :=
  let s := if s.rolePair 0 = p then s.managementLost else s
  (s.setCp p to_).upFw fun w => { w with calmSince := s.hclk }

/-- HCLK cycles in 3,600 s. -/
def hourHclk : Nat := 3600 * 1200000000

/-- The other pair takes a lost pair's role (R465). -/
def State.pairLost (s : State) (p : Nat) : State :=
  let s := s.pairDown p cpLOST
  let s := if s.cp (1 - p) = cpLOST then s else s.wr Reg.CAR_STAT_MERGED 1
  s.carEvent evPAIR_LOST sevERROR [p] true

/-- LOCKSTEP (R465). -/
def lockstep (p : Nat) (s : State) : State :=
  let p := p % 2
  if s.cp p != cpRUNNING then s
  else
    let s := (s.bump Reg.CAR_CNT_LS p).charge clsUNIT 4 8 1 1 512
    let s := s.carEvent evLOCKSTEP sevWARN [p] true
    let again := (s.carPair p).mismatch.any fun t => decide (s.hclk < t + hourHclk)
    let s := s.upPair p fun q => { q with mismatch := some s.hclk }
    if again then s.pairLost p else s.pairDown p cpBOOTING

/-- PAIR_RESTART (R465): the pair's role runs again from the verified copy; a mailbox request that was lost leaves BUSY. -/
def pairRestart (p : Nat) (s : State) : State :=
  let p := p % 2
  if s.cp p != cpBOOTING || s.car.fw.running.isNone then s
  else
    let s := (s.setCp p cpRUNNING).upPair p fun q => { q with kicked := s.hclk, resetAt := s.hclk, haltedAt := none, crc := 0xFFFFFFFF }
    let s := s.upFw fun w => { w with calmSince := s.hclk }
    if s.rolePair 0 = p && !s.car.requests.any (fun r => r.1 == 0) then s.wr Reg.CAR_MBX_CTL_BUSY 0 else s

/-- CAR_WATCHDOG (R466): the pair has not been kicked for `CAR_WDT.MS`. -/
def carWatchdog (p : Nat) (s : State) : State :=
  let p := p % 2
  if s.cp p != cpRUNNING || s.pairHalted p || decide (s.hclk < (s.carPair p).kicked + s.rd Reg.CAR_WDT_MS * 1200000) then s
  else ((s.bump Reg.CAR_CNT_WDT).carEvent evCAR_WATCHDOG sevWARN [p] true).pairDown p cpBOOTING

/-- CAR_LWDT_KICK (R500). -/
def carKick (p : Nat) (s : State) : State := s.upPair (p % 2) fun q => { q with kicked := s.hclk }

/-- ACCESS_FAULT_RETRY (R467, R495; a halted pair takes the fault on resume): the repeat of an access fails again or not; `op` is the STATUS offset of the operation that the access
served, or none for an image load. -/
def accessFaultRetry (p : Nat) (fails : Bool) (op : Option Nat) (s : State) : State :=
  let p := p % 2
  if !s.flt.accessFaults.contains p || s.pairHalted p then s
  else
    let s := s.upFlt fun f => { f with accessFaults := f.accessFaults.erase p }
    if !fails then s
    else match op with
      | some o => s.biteVictim (.regOp o)
      | none =>
        match s.img.validating with
        | some l => ((s.upImg fun i => { i with validating := none }).loadEnd imgBusy 0 0).loadAnswer l.session l.seq imgBusy
        | none => s

/-! The CRC peripheral (R470). -/

def crcInit (p : Nat) (s : State) : State := s.upPair (p % 2) fun q => { q with crc := 0xFFFFFFFF }

/-- Feed `n` bytes of `v`, lowest first. -/
def crcFeed (p n v : Nat) (s : State) : State :=
  s.upPair (p % 2) fun q => { q with crc := (leBytes n v).foldl crcByte q.crc }

def pairReq (p : Nat) : Requester := if p % 2 = 0 then .cp0 else .cp1

/-- `CAR_CRC_RESULT`: the state XOR 0xFFFF_FFFF; the read leaves the state. -/
def crcResult (p : Nat) (s : State) : State :=
  s.emit (.readData (pairReq p) (0x10000010 + 0x1000 * (p % 2)) ((s.carPair (p % 2)).crc ^^^ 0xFFFFFFFF))

/-! The flash log (R487). -/

/-- LOG_PERSIST: CP0 writes what the ring holds and flash does not; records that the ring has lost are counted in one EQ_LOST record. -/
def logPersist (s : State) : State :=
  if !s.roleRuns 0 then s
  else
    let lost := s.unpersistedCount - s.unpersisted.length
    let s := if lost = 0 then s
      else s.event { code := evEQ_LOST, sev := sevWARN, health := true, params := [lost] }
    (s.flashAppend s.unpersisted).upFlt fun f => { f with persisted := f.nextEseq }

/-! Hardware semaphores (R489–R491). -/

def State.semOwner (s : State) (i : Nat) : Nat := s.rd Reg.CAR_SEM_OWNER i

/-- Semaphores 12 to 31 are held for firmware. -/
def semReserved (i who : Nat) : Bool := decide (12 ≤ i) && decide (i < 32) && decide (3 ≤ who)

/-- Waits on a semaphore, in arrival order. -/
def State.semQueue (s : State) (i : Nat) : List SemWait := s.car.waits.filter fun w => w.sem == i

/-- Bring WAITERS in line. -/
def State.syncWaiters (s : State) (i : Nat) : State := s.wrb Reg.CAR_SEM_WAITERS (!(s.semQueue i).isEmpty) i

/-- A requester's wait ends. -/
def State.waitEnd (s : State) (who i status : Nat) : State :=
  let s := s.upCar fun c => { c with waits := c.waits.filter fun w => w.req != who
                                     waitStat := Tab.put c.waitStat who { pending := false, status := status, sem := i } }
  let s := s.syncWaiters i
  if who = 3 then s.emit (.msix (s.rd Reg.CAR_SEM_VEC_VECTOR)) else s

/-- Give a semaphore to a requester. -/
def State.semGrant (s : State) (i who : Nat) : State :=
  (s.wr Reg.CAR_SEM_OWNER who i).upCar fun c => { c with held := Tab.put c.held i (0, s.hclk) }

/-- A semaphore falls free: the head of its queue gets it. -/
def State.semFree (s : State) (i : Nat) : State :=
  let s := (s.wr Reg.CAR_SEM_OWNER 0 i).upCar fun c => { c with held := Tab.del c.held i }
  match (s.semQueue i).find? fun w => !semReserved i w.req with
  | none => s
  | some w => (s.semGrant i w.req).waitEnd w.req i stOK

/-- Whether a read of `CAR_SEMs` answers GRANTED. -/
def State.semGranted (s : State) (i who : Nat) : Bool := s.semOwner i == who && !semReserved i who

/-- The word that a requester reads of a semaphore. -/
def State.semWord (s : State) (i who : Nat) : Nat :=
  b2n (s.semGranted i who) + 2 * s.semOwner i + 16 * s.rd Reg.CAR_SEM_WAITERS i

def semAt (i : Nat) : Nat := 0x20400 + 4 * i

/-- What a read of `CAR_SEMs` does (R489). -/
def State.semAcquireOp (s : State) (i who : Nat) : State :=
  if s.semOwner i = 0 && (s.semQueue i).isEmpty && !semReserved i who then s.semGrant i who else s

/-- Serve a read of the window (R6, R436). -/
def State.readWindow (a : Access) (off : Nat) (act : State → State × Nat) (s : State) : State :=
  if s.inert then s
  else if !plainAccess a off || !s.tdispServes a then s.refuseAccess a off
  else
    let (s, v) := act s
    s.emit (.readData a.req off v)

def semAcquire (a : Access) (i : Nat) (s : State) : State :=
  if i < 64 then
    s.readWindow a (semAt i) fun s =>
      let s := s.semAcquireOp i a.req.num
      (s, s.semWord i a.req.num)
  else s

/-- What a write of 0 to GRANTED does (R489). -/
def State.semReleaseOp (s : State) (i who : Nat) : State :=
  if s.semOwner i = who then s.semFree i else s.bump Reg.CAR_CNT_SEM_DENY

def semRelease (a : Access) (i : Nat) (s : State) : State :=
  if i < 64 then s.window a (semAt i) fun s => s.semReleaseOp i a.req.num else s

/-- A write of `CAR_SEM_WAIT` with GO (R490). -/
def State.semWaitOp (s : State) (i who : Nat) : State :=
  if s.car.waits.any fun w => w.req == who then s
  else
    let s := s.wr Reg.CAR_SEM_WAIT_SEM i
    if s.semOwner i = 0 && (s.semQueue i).isEmpty && !semReserved i who then (s.semGrant i who).waitEnd who i stOK
    else
      let s := s.upCar fun c => { c with waits := c.waits ++ [{ req := who, sem := i, start := s.hclk }]
                                         waitStat := Tab.put c.waitStat who { pending := true, status := 0, sem := i } }
      s.syncWaiters i

def semWait (a : Access) (i : Nat) (s : State) : State := s.window a 0x20500 fun s => s.semWaitOp (i % 64) a.req.num

/-- SEM_TIMEOUT (R490): a requester's wait has lasted `CAR_SEM_TIMEOUT` µs. -/
def semTimeout (who : Nat) (s : State) : State :=
  match s.car.waits.find? fun w => w.req == who with
  | none => s
  | some w =>
    if s.hclk < w.start + usToHclk (s.rd Reg.CAR_SEM_TIMEOUT_US) then s
    else (s.bump Reg.CAR_CNT_SEM_TO).waitEnd who w.sem stSEM_TIMEOUT

/-- HCLK cycles for which a semaphore has been held, less the time for which its owner was halted (R491, R495). -/
def State.semHeld (s : State) (i : Nat) : Nat :=
  let h := Tab.getD s.car.held i (0, s.hclk)
  let o := s.semOwner i
  if (o = 1 || o = 2) && s.pairHalted (o - 1) then h.1 else h.1 + (s.hclk - h.2)

/-- SEM_FORCED (R491). -/
def semForced (i : Nat) (s : State) : State :=
  let o := s.semOwner i
  if 64 ≤ i || o = 0 || s.semHeld i < s.rd Reg.CAR_SEM_HOLD_MAX_MS * 1200000 then s
  else ((s.bump Reg.CAR_CNT_SEM_FORCED).carEvent evSEM_FORCED sevWARN [i, o]).semFree i

def execLockstep (p : Nat) (s : State) : Host.Outcome State Fault Refusal := .next (lockstep p s)
def execPairRestart (p : Nat) (s : State) : Host.Outcome State Fault Refusal := .next (pairRestart p s)
def execCarWatchdog (p : Nat) (s : State) : Host.Outcome State Fault Refusal := .next (carWatchdog p s)
def execCarLwdtKick (p : Nat) (s : State) : Host.Outcome State Fault Refusal := .next (carKick p s)
def execAccessFaultRetry (p : Nat) (fails : Bool) (op : Option Nat) (s : State) : Host.Outcome State Fault Refusal :=
  .next (accessFaultRetry p fails op s)
def execCrcInit (p : Nat) (s : State) : Host.Outcome State Fault Refusal := .next (crcInit p s)
def execCarCrcB (p v : Nat) (s : State) : Host.Outcome State Fault Refusal := .next (crcFeed p 1 v s)
def execCarCrcH (p v : Nat) (s : State) : Host.Outcome State Fault Refusal := .next (crcFeed p 2 v s)
def execCarCrcW (p v : Nat) (s : State) : Host.Outcome State Fault Refusal := .next (crcFeed p 4 v s)
def execCarCrcResult (p : Nat) (s : State) : Host.Outcome State Fault Refusal := .next (crcResult p s)
def execLogPersist (s : State) : Host.Outcome State Fault Refusal := .next (logPersist s)
def execSemAcquire (a : Access) (i : Nat) (s : State) : Host.Outcome State Fault Refusal := .next (semAcquire a i s)
def execSemRelease (a : Access) (i : Nat) (s : State) : Host.Outcome State Fault Refusal := .next (semRelease a i s)
def execSemWait (a : Access) (i : Nat) (s : State) : Host.Outcome State Fault Refusal := .next (semWait a i s)
def execSemTimeout (who : Nat) (s : State) : Host.Outcome State Fault Refusal := .next (semTimeout who s)
def execSemForced (i : Nat) (s : State) : Host.Outcome State Fault Refusal := .next (semForced i s)

end Sys2Proof.Machine
end

