-- ==== Sys2Proof/Machine/Plant.lean ====
section
/-!
DEFINITION. Sensors, thermal stages and trips, and the power loop (R459, R480–R486, R526–R528).
Marks: DEDUCED 45, 48, in notes/assumptions.
-/
namespace Sys2Proof.Machine

/-! Rails (R525, R526). -/

/-- Core voltage of a compute die by P-state, mV. -/
def cdVolts (ps : Nat) : Nat := ([800, 740, 700, 650] : List Nat).getD ps 800

/-- Nominal voltage of the rail of regulator `n` in mV; a compute die's is that of PS0. -/
def railVolts (n : Nat) : Nat :=
  if n < 8 then 800 else ([750, 750, 850, 800, 1800, 900, 1200, 1800, 800] : List Nat).getD (n - 8) 0

/-- Its maximum current in A. -/
def railAmps (n : Nat) : Nat := if n < 8 then 125 else ([160, 160, 80, 360, 16, 200, 100, 2, 3] : List Nat).getD (n - 8) 0

/-- The most power of a rail in mW. -/
def railMax (n : Nat) : Nat := railVolts n * railAmps n

/-- The rail that a voltage monitor watches, by its regulator (R527). -/
def monitorRail (m : Nat) : Nat :=
  if m < 16 then (if m % 2 = 0 then m / 2 else 10)
  else if m < 32 then (if (m - 16) % 8 < 2 then 8 else if (m - 16) % 8 < 5 then 13 else 14)
  else if m < 40 then ([9, 9, 10, 16, 9, 9, 10, 15] : List Nat).getD (m - 32) 9
  else 11

/-- P-state of a compute die as `CAR_PSTATE` shows it. -/
def State.pstate (s : State) (k : Nat) : Nat := bits (s.rd Reg.CAR_PSTATE_PS) (2 * k) 2

/-! Filters (R459). -/

/-- A SENSOR record: sensor, reading, and whether it is marked failed. -/
def State.sensorEvent (s : State) (n reading : Nat) (failed : Bool) : State :=
  s.event { code := evSENSOR, sev := sevWARN, health := true, params := [n, reading, b2n failed] }

/-- A reading of thermal sensor `i` in 1/16 °C. -/
def State.takeTemp (s : State) (i : Nat) (v : Int) : State :=
  let f := Tab.getD s.car.temps i {}
  let last := signed (s.rd Reg.CAR_TEMP_VALUE i) 16
  let good := decide (-640 ≤ v) && decide (v ≤ 2400) && (!f.seen || (decide (v - last ≤ 160) && decide (last - v ≤ 160)))
  if good then
    ((s.wr Reg.CAR_TEMP_VALUE (unsigned v 16) i).wr Reg.CAR_TEMP_REJECTED 0 i).upCar fun c =>
      { c with temps := Tab.put c.temps i { seen := true, bad := 0 } }
  else
    let n := f.bad + 1
    let failed := decide (3 ≤ n) || s.on Reg.CAR_TEMP_FAILED i
    let s := (s.wr Reg.CAR_TEMP_REJECTED 1 i).wrb Reg.CAR_TEMP_FAILED failed i
    (s.upCar fun c => { c with temps := Tab.put c.temps i { f with bad := n } }).sensorEvent i (unsigned v 64) failed

/-- A reading of voltage monitor `m` in mV: within ±20 % of its rail's nominal (R459, R527). -/
def State.takeVolt (s : State) (m mv : Nat) : State :=
  let r := monitorRail m
  let nom := if r < 8 then cdVolts (s.pstate r) else railVolts r
  let f := Tab.getD s.car.volts m {}
  if decide (nom * 80 ≤ mv * 100) && decide (mv * 100 ≤ nom * 120) then
    (s.wr Reg.CAR_VMON_MV mv m).upCar fun c => { c with volts := Tab.put c.volts m { seen := true, bad := 0 } }
  else
    let n := f.bad + 1
    let failed := decide (3 ≤ n) || s.on Reg.CAR_VMON_FAILED m
    let s := (s.wrb Reg.CAR_VMON_FAILED failed m).upCar fun c => { c with volts := Tab.put c.volts m { f with bad := n } }
    s.sensorEvent (96 + m) mv failed

/-- A PMBus reading of regulator `n`, none where the transaction fails: three failures in a row mark it unreadable. -/
def State.takePower (s : State) (n : Nat) (mw : Option Nat) : State :=
  let r := Tab.getD s.car.regs n {}
  match (mw.bind fun v => if v ≤ railMax n then some v else none) with
  | some v => s.upCar fun c => { c with regs := Tab.put c.regs n { r with mw := v, bad := 0 } }
  | none =>
    let k := r.bad + 1
    let now := decide (3 ≤ k) && !r.unreadable
    let s := s.upCar fun c => { c with regs := Tab.put c.regs n { r with bad := k, unreadable := r.unreadable || decide (3 ≤ k) } }
    if now then s.sensorEvent n (mw.getD 0) true else s

/-! Thermal stages (R484, R486). -/

/-- Entry value of a stage in 1/16 °C. -/
def State.stageEntry (s : State) (t : Nat) : Int :=
  match t with
  | 1 => 16 * (s.rd Reg.CAR_THR_T_HOT : Int)
  | 2 => 16 * (s.rd Reg.CAR_THR_T_HOT : Int) + 80
  | _ => 16 * (s.rd Reg.CAR_THR_T_CRIT : Int)

/-- The last good reading of a sensor that is not marked failed. -/
def State.validTemp (s : State) (i : Nat) : Option Int :=
  if s.on Reg.CAR_TEMP_FAILED i || !(Tab.getD s.car.temps i {}).seen then none else some (signed (s.rd Reg.CAR_TEMP_VALUE i) 16)

/-- The hottest valid reading for a compute die: its own eight sensors and those of PD0, PD1, XH and MH. -/
def State.hottest (s : State) (k : Nat) : Option Int :=
  (((List.range 8).map (8 * k + ·) ++ (List.range 24).map (64 + ·)).filterMap s.validTemp).foldl
    (fun m v => some (match m with | some x => max x v | none => v)) none

/-- The stage that a reading calls for. -/
def State.stageFor (s : State) (v : Int) : Nat :=
  if s.stageEntry 3 ≤ v then 3 else if s.stageEntry 2 ≤ v then 2 else if s.stageEntry 1 ≤ v then 1 else 0

/-- The stage in force: VR_HOT forces at least 2. -/
def State.stageOf (s : State) (k : Nat) : Nat :=
  max (Tab.getD s.car.stages k 0) (if s.on Reg.CAR_STAGE_VR_HOT then 2 else 0)

/-- Bring a die's stage and P-state in line: a rise is counted, and one to 2 or 3 makes a THERMAL_STAGE record. -/
def State.syncDie (s : State) (k : Nat) : State :=
  let old := bits (s.rd Reg.CAR_STAGE_STAGE) (2 * k) 2
  let new := s.stageOf k
  let s := s.wr Reg.CAR_STAGE_STAGE (setBits (s.rd Reg.CAR_STAGE_STAGE) (2 * k) 2 new)
  let s := s.wr Reg.CAR_PSTATE_PS (setBits (s.rd Reg.CAR_PSTATE_PS) (2 * k) 2 (max new (Tab.getD s.car.loopPs k 0)))
  if new ≤ old then s
  else
    let s := s.bump Reg.CAR_CNT_STAGE
    if new < 2 then s else s.carEvent evTHERMAL_STAGE sevWARN [k, new, unsigned ((s.hottest k).getD 0) 64]

/-- Vector issue limit of a compute die in percent (R482, R484). -/
def State.vectorLimit (s : State) (k : Nat) : Nat := ([100, 100, 50, 25] : List Nat).getD (s.stageOf k) 100

/-- A die's stage rises with its readings at once; the time since which a stage's exit condition holds is kept. -/
def State.stageDie (s : State) (k : Nat) : State :=
  match s.hottest k with
  | none => s
  | some v =>
    let s := s.upCar fun c => { c with stages := Tab.put c.stages k (max (Tab.getD c.stages k 0) (s.stageFor v)) }
    let cool := [1, 2, 3].foldl (fun t st =>
      if v ≤ s.stageEntry st - 48 then (if Tab.has t (4 * k + st) then t else Tab.put t (4 * k + st) s.hclk)
      else Tab.del t (4 * k + st)) s.car.coolSince
    (s.upCar fun c => { c with coolSince := cool }).syncDie k

/-- Stacks at or above 85 °C refresh at double rate. -/
def State.stackRefresh (s : State) : State :=
  s.upCar fun c => { c with doubled := (List.range 8).filter fun k => (s.validTemp (88 + k)).any fun v => decide (1360 ≤ v) }

/-- The sensor of a thermal trip (R485): a stack at 105 °C, any other at T_TRIP. -/
def State.tripSensor (s : State) : Option Nat :=
  (List.range 96).find? fun i => (s.validTemp i).any fun v =>
    decide ((if 88 ≤ i then 1680 else 16 * (s.rd Reg.CAR_THR_T_TRIP : Int)) ≤ v)

/-- Every die is held in reset: lanes stop, and nothing runs (R485). -/
def State.holdInReset (s : State) : State :=
  let s := ((s.clearFabric).clearWork).clearFlight
  let s := (List.range 32).foldl (fun s p => (s.wr Reg.FAB_PSTAT_UP 0 p).wr Reg.FAB_PSTAT_SECURE 0 p) s
  (s.clearSessions).upCar fun c => { c with heldInReset := true, requests := [] }

/-- A thermal trip (R485). -/
def State.trip (s : State) (i : Nat) : State :=
  let v := unsigned (signed (s.rd Reg.CAR_TEMP_VALUE i) 16) 64
  let s := ((s.wr Reg.CAR_TRIP_SENSOR i).wr Reg.CAR_TRIP_VALID 1).drive pinTHERMTRIP 1
  let s := (s.upCar fun c => { c with trippedAt := some s.hclk }).goFatal 5 i (0, 0)
  let s := s.carEvent evTHERMTRIP sevFATAL [i, v]
  if s.roleRuns 0 then (s.flashAppend s.unpersisted).upFlt fun f => { f with persisted := f.nextEseq } else s.holdInReset

/-- SENSOR_SAMPLE (R459, R480, R484, R485): one round of readings. -/
def sensorSample (x : Samples) (s : State) : State :=
  if s.car.heldInReset then s
  else
    let s := (x.temps.take 96).zipIdx.foldl (fun s (v, i) => s.takeTemp i v) s
    let s := (x.volts.take 48).zipIdx.foldl (fun s (v, i) => s.takeVolt i v) s
    let s := if s.roleRuns 1 then (x.power.take 17).zipIdx.foldl (fun s (v, i) => s.takePower i v) s else s
    let s := ((List.range 8).foldl State.stageDie s).stackRefresh
    match s.tripSensor with
    | some i => if s.on Reg.CAR_TRIP_VALID then s else s.trip i
    | none => s

/-- TRIP_RESET_HOLD (R485). -/
def tripResetHold (s : State) : State :=
  match s.car.trippedAt with
  | none => s
  | some t => if s.car.heldInReset || decide (s.hclk < t + 1200000) then s else s.holdInReset

/-- THERMAL_STAGE_EXIT (R484): a die leaves the stages that its readings have stayed 3 °C below for 10 ms. -/
def thermalStageExit (k : Nat) (s : State) : State :=
  if 8 ≤ k then s
  else
    let done := fun (t : Nat) => (Tab.find? s.car.coolSince (4 * k + t)).any fun t0 => decide (t0 + 10 * 1200000 ≤ s.hclk)
    let leave := fun (t : Nat) (st : Nat) => if st = t && done t then t - 1 else st
    let st := leave 1 (leave 2 (leave 3 (Tab.getD s.car.stages k 0)))
    (s.upCar fun c => { c with stages := Tab.put c.stages k st }).syncDie k

/-- VR_HOT (R484). -/
def vrHot (asserted : Bool) (s : State) : State :=
  if s.on Reg.CAR_STAGE_VR_HOT = asserted then s
  else
    let s := (s.wrb Reg.CAR_STAGE_VR_HOT asserted).carEvent evVR_HOT sevWARN [b2n asserted]
    (List.range 8).foldl State.syncDie s

/-! The power loop (R483, R528). -/

/-- Power of a regulator as the loop counts it, mW. -/
def State.regPower (s : State) (n : Nat) : Nat :=
  let r := Tab.getD s.car.regs n {}
  if r.unreadable then railMax n else r.mw

/-- The effective cap. -/
def State.syncCap (s : State) : State := s.wr Reg.CAR_PCAP_EFF_W (min (s.rd Reg.CAR_PCAP_HOST_W) (s.rd Reg.CAR_PCAP_BMC_W))

/-- A change of a cap makes a POWER_CAP record (R483). -/
def State.setCap (s : State) (host : Bool) (w window : Nat) : State :=
  let old := (s.rd Reg.CAR_PCAP_HOST_W, s.rd Reg.CAR_PCAP_BMC_W)
  let s := if host then (s.wr Reg.CAR_PCAP_HOST_W w).wr Reg.CAR_PCAP_HOST_WINDOW window
    else (s.wr Reg.CAR_PCAP_BMC_W w).wr Reg.CAR_PCAP_BMC_WINDOW window
  let s := s.syncCap
  if old = (s.rd Reg.CAR_PCAP_HOST_W, s.rd Reg.CAR_PCAP_BMC_W) then s
  else s.carEvent evPOWER_CAP sevINFO [s.rd Reg.CAR_PCAP_HOST_W, s.rd Reg.CAR_PCAP_BMC_W]

def State.loopPs (s : State) (k : Nat) : Nat := Tab.getD s.car.loopPs k 0

/-- The loop gives a die a P-state; the voltage follows where its regulator answers (R481, R528). -/
def State.setLoopPs (s : State) (k ps : Nat) : State :=
  let r := Tab.getD s.car.regs k {}
  let s := s.upCar fun c => { c with loopPs := Tab.put c.loopPs k ps
                                     vout := if r.unreadable then c.vout else Tab.put c.vout k (cdVolts ps) }
  s.syncDie k

/-- The compute die to slow: the highest power of those above PS3, the lowest index on equal power. -/
def State.dieToSlow (s : State) : Option Nat :=
  ((List.range 8).filter fun k => decide (s.loopPs k < 3)).foldl (fun m k => match m with
    | some j => if s.regPower j < s.regPower k then some k else some j
    | none => some k) none

/-- The compute die to speed up: the slowest P-state, the lowest index on equal P-state; none whose regulator is unreadable. -/
def State.dieToRaise (s : State) : Option Nat :=
  ((List.range 8).filter fun k => decide (0 < s.loopPs k) && !(Tab.getD s.car.regs k {}).unreadable).foldl (fun m k => match m with
    | some j => if s.loopPs j < s.loopPs k then some k else some j
    | none => some k) none

/-- POWER_CAP_MISS (R483): every die at PS3 and A above the cap for a whole window; at most one record a second. -/
def State.noteMiss (s : State) (avg cap window : Nat) : State :=
  let low := (List.range 8).all fun k => s.pstate k == 3
  let miss := if low && decide (cap < avg) then s.car.missFor + 1 else 0
  let since := s.car.sinceMiss + 1
  if window ≤ miss && decide (1000 ≤ since) then
    ((s.upCar fun c => { c with missFor := miss, sinceMiss := 0 }).bump Reg.CAR_CNT_CAPMISS).carEvent evPOWER_CAP_MISS sevWARN [avg, cap]
  else s.upCar fun c => { c with missFor := miss, sinceMiss := since }

/-- POWER_LOOP_TICK (R483): CP1's millisecond. -/
def powerLoopTick (s : State) : State :=
  if !s.roleRuns 1 then s
  else
    let p := ((List.range 17).map s.regPower).sum / 1000
    let window := max 1 (min (s.rd Reg.CAR_PCAP_HOST_WINDOW) (s.rd Reg.CAR_PCAP_BMC_WINDOW))
    let ps := (p :: s.car.powers).take 1000
    let last := ps.take window
    let avg := last.sum / last.length
    let cap := s.rd Reg.CAR_PCAP_EFF_W
    let low := if avg * 100 < cap * 98 then s.car.lowFor + 1 else 0
    let s := (s.wr Reg.CAR_PWR_P1MS p).wr Reg.CAR_PWR_AVG avg
    let s := s.upCar fun c => { c with powers := ps, lowFor := low, sinceRaise := c.sinceRaise + 1 }
    let s := s.noteMiss avg cap window
    if cap < p then
      match s.dieToSlow with
      | some k => s.setLoopPs k (s.loopPs k + 1)
      | none => s
    else if 10 ≤ low && decide (10 ≤ s.car.sinceRaise) then
      match s.dieToRaise with
      | some k => (s.setLoopPs k (s.loopPs k - 1)).upCar fun c => { c with sinceRaise := 0 }
      | none => s
    else s

/-- REGULATOR_RETRY (R528): a good transaction clears the mark. -/
def regulatorRetry (n : Nat) (mw : Option Nat) (s : State) : State :=
  if !s.roleRuns 1 || !(Tab.getD s.car.regs n {}).unreadable then s
  else match mw with
    | some v => s.upCar fun c => { c with regs := Tab.put c.regs n { mw := v } }
    | none => s

def execSensorSample (x : Samples) (s : State) : Host.Outcome State Fault Refusal := .next (sensorSample x s)
def execTripResetHold (s : State) : Host.Outcome State Fault Refusal := .next (tripResetHold s)
def execThermalStageExit (k : Nat) (s : State) : Host.Outcome State Fault Refusal := .next (thermalStageExit k s)
def execVrHot (asserted : Bool) (s : State) : Host.Outcome State Fault Refusal := .next (vrHot asserted s)
def execPowerLoopTick (s : State) : Host.Outcome State Fault Refusal := .next (powerLoopTick s)
def execRegulatorRetry (n : Nat) (mw : Option Nat) (s : State) : Host.Outcome State Fault Refusal := .next (regulatorRetry n mw s)

end Sys2Proof.Machine
end

