-- ==== Sys2Proof/Machine/Mailbox.lean ====
section
/-!
DEFINITION. The host mailbox and the MCTP endpoint toward the board controller (R476–R479, R483).
Marks: DEDUCED 44; PRESUMED 38, in notes/assumptions.
-/
namespace Sys2Proof.Machine

/-! Requests (R476, R478): channel 0 is the host mailbox, channel 1 is MCTP. -/

/-- Commands (R477). -/
def mbGET_INFO : Nat := 1
def mbSENSOR_READ : Nat := 2
def mbPOWER_READ : Nat := 3
def mbPOWER_CAP_SET : Nat := 4
def mbLOG_READ : Nat := 5
def mbFW_STATUS : Nat := 6

/-- A request from its bytes; LENGTH is kept for its check. -/
def mbxParse (b : Bytes) : MbxReq :=
  { cmd := fld b 0 2, tag := fld b 2 2, len := fld b 4 4, body := slice b 8 (min (fld b 4 4) 4088) }

/-- The bytes of the request buffer. -/
def State.mbxBuffer (s : State) : Bytes := (List.range 1024).flatMap fun w => leBytes 4 (s.rd Reg.CAR_MBX_REQ w)

/-- Put bytes into the response buffer; the rest of it reads 0. -/
def State.mbxStore (s : State) (b : Bytes) : State :=
  (List.range 1024).foldl (fun s w => s.wr Reg.CAR_MBX_RSP (fld b (4 * w) 4) w) s

/-- A write of DOORBELL (R476): discarded and counted while BUSY. -/
def State.doorbell (s : State) : State :=
  if s.on Reg.CAR_MBX_CTL_BUSY then s.bump Reg.CAR_CNT_MBX_REJECT
  else
    let r := mbxParse s.mbxBuffer
    (s.wr Reg.CAR_MBX_CTL_BUSY 1).upCar fun c => if s.roleRuns 0 then { c with requests := c.requests ++ [(0, r)] } else c

/-- A request arrives over MCTP (R478): the channel carries one at a time. -/
def State.mctpArrive (s : State) (r : MbxReq) : State :=
  if !s.roleRuns 0 || s.car.requests.any (fun q => q.1 == 1) then s
  else s.upCar fun c => { c with requests := c.requests ++ [(1, r)] }

/-- The bytes of a response (R476). -/
def mbxResponse (r : MbxReq) (status off : Nat) (body : Bytes) : Bytes :=
  leBytes 2 r.cmd ++ leBytes 2 r.tag ++ leBytes 4 body.length ++ leBytes 1 status ++ [0] ++ leBytes 2 off ++ leBytes 4 0 ++ body

/-- Answer the request at the head. -/
def State.mbxAnswer (s : State) (chan : Nat) (r : MbxReq) (status off : Nat) (body : Bytes) : State :=
  let s := s.upCar fun c => { c with requests := c.requests.drop 1 }
  let b := mbxResponse r status off body
  if chan = 0 then
    (((s.mbxStore b).wr Reg.CAR_MBX_CTL_DONE 1).wr Reg.CAR_MBX_CTL_BUSY 0).emit (.msix (s.rd Reg.CAR_MBX_VEC_VECTOR))
  else s.emit (.message chMCTP 0x7E b)

/-- Serve the request at the head where it is the command `cmd`, with `act` for a request whose LENGTH is `len`; `arrives` is a
request that comes over MCTP first. -/
def State.mailbox (s : State) (arrives : Option MbxReq) (cmd len : Nat) (act : Nat → MbxReq → State → State) : State :=
  let s := match arrives with
    | some r => s.mctpArrive r
    | none => s
  if !s.roleRuns 0 then s
  else match s.car.requests with
    | [] => s
    | (chan, r) :: _ =>
      if r.cmd != cmd && !(cmd == mbGET_INFO && (r.cmd == 0 || decide (6 < r.cmd))) then s
      else if r.cmd != cmd then s.mbxAnswer chan r stMALFORMED 0 []
      else if r.len != len then s.mbxAnswer chan r stMALFORMED 4 []
      else act chan r s

/-- GET_INFO. -/
def getInfo (m : Option MbxReq) (s : State) : State :=
  s.mailbox m mbGET_INFO 0 fun chan r s =>
    let slot := s.rd Reg.CAR_STAT_SLOT
    let run := leBytes 4 (s.rd Reg.CAR_FW_VER_VERSION) ++ leBytes 2 (s.rd Reg.CAR_FW_SVN_RUN) ++ leBytes 1 slot ++ [0]
    let w := s.car.fw.staged.getD {}
    let staged := leBytes 4 w.version ++ leBytes 2 w.svn ++ leBytes 1 (if s.car.fw.staged.isSome then 1 - slot else 0) ++
      leBytes 1 (s.rd Reg.CAR_STAT_TRIAL)
    s.mbxAnswer chan r stOK 0
      (run ++ staged ++ leBytes 4 (s.rd Reg.CAR_BOOTS_COUNT) ++ leBytes 4 (s.regStored 0x20000) ++ leBytes 8 s.tnow)

/-- The word of sensor `n`: thermal sensors 0 to 95, voltage monitors 96 to 143. -/
def State.sensorWord (s : State) (n : Nat) : Nat :=
  if n < 96 then s.regStored (0x23000 + 4 * n) else s.regStored (0x23200 + 4 * (n - 96))

/-- SENSOR_READ. -/
def sensorRead (m : Option MbxReq) (s : State) : State :=
  s.mailbox m mbSENSOR_READ 4 fun chan r s =>
    let first := fld r.body 0 2
    let n := fld r.body 2 2
    if 144 ≤ first then s.mbxAnswer chan r stMALFORMED 8 []
    else if n = 0 || decide (144 < first + n) then s.mbxAnswer chan r stMALFORMED 10 []
    else s.mbxAnswer chan r stOK 0 ((List.range n).flatMap fun i => leBytes 4 (s.sensorWord (first + i)))

/-- POWER_READ. -/
def powerRead (m : Option MbxReq) (s : State) : State :=
  s.mailbox m mbPOWER_READ 0 fun chan r s =>
    let words := [0x23300, 0x23304, 0x23308, 0x2330C, 0x23310, 0x23314].flatMap fun o => leBytes 4 (s.regStored o)
    s.mbxAnswer chan r stOK 0 (words ++ (List.range 17).flatMap fun n => leBytes 4 (s.regPower n))

/-- POWER_CAP_SET: the cap of the channel on which it came (R478, R483). -/
def powerCapSet (m : Option MbxReq) (s : State) : State :=
  s.mailbox m mbPOWER_CAP_SET 4 fun chan r s =>
    let w := fld r.body 0 2
    let ms := fld r.body 2 2
    if w < 800 || decide (1500 < w) || ms == 0 || decide (1000 < ms) then s.mbxAnswer chan r stRANGE 0 []
    else (s.setCap (chan == 0) w ms).mbxAnswer chan r stOK 0 []

/-- The boot count under which a record of the SRAM ring was made. -/
def State.bootOf (s : State) (eseq : Nat) : Nat :=
  match s.car.bootStarts.reverse.find? fun b => decide ((eseq + 2 ^ 32 - b.2) % 2 ^ 32 < 2 ^ 31) with
  | some b => b.1
  | none => match s.car.bootStarts with
    | b :: _ => b.1 - 1
    | [] => s.rd Reg.CAR_BOOTS_COUNT

/-- The records that a log holds from START on: boot count, ESEQ or index, and record. -/
def State.logFrom (s : State) (flash : Bool) (start : Nat) : List (Nat × Nat × Event) :=
  if flash then
    (List.range s.flt.flashLog.length).zip (s.flt.flashLog.zip s.car.flashBoots) |>.filterMap fun (i, e, b) =>
      if start ≤ s.car.flashErased + i then some (b, s.car.flashErased + i, e) else none
  else
    (s.flt.log.filter fun e => decide ((e.eseq + 2 ^ 32 - start) % 2 ^ 32 < 2 ^ 31)).map fun e => (s.bootOf e.eseq, e.eseq, e)

/-- LOG_READ: records of one boot, at most COUNT. -/
def logRead (m : Option MbxReq) (s : State) : State :=
  s.mailbox m mbLOG_READ 10 fun chan r s =>
    let source := fld r.body 0 1
    let start := fld r.body 4 4
    let n := fld r.body 8 2
    if 1 < source then s.mbxAnswer chan r stMALFORMED 8 []
    else if !zeroAt r.body 1 3 then s.mbxAnswer chan r stMALFORMED 9 []
    else if n = 0 || decide (63 < n) then s.mbxAnswer chan r stMALFORMED 16 []
    else match s.logFrom (source == 1) start with
      | [] => s.mbxAnswer chan r stOK 0 (leBytes 4 (s.rd Reg.CAR_BOOTS_COUNT) ++ leBytes 4 start ++ leBytes 8 0)
      | x :: l =>
        let recs := ((x :: l).takeWhile fun y => y.1 == x.1).take n
        s.mbxAnswer chan r stOK 0
          (leBytes 4 x.1 ++ leBytes 4 x.2.1 ++ leBytes 2 recs.length ++ leBytes 6 0 ++ recs.flatMap fun y => y.2.2.bytes)

/-- FW_STATUS. -/
def fwStatus (m : Option MbxReq) (s : State) : State :=
  s.mailbox m mbFW_STATUS 0 fun chan r s =>
    let w := s.car.fw
    let slot := w.slot s.fwTarget
    let busy := s.rd Reg.CAR_STAT_UPD != updIDLE
    let done := (List.map (fun (p : Nat × Bytes) => p.2.length) slot.pieces).sum
    s.mbxAnswer chan r stOK 0
      (leBytes 1 (s.rd Reg.CAR_STAT_UPD) ++ leBytes 1 (if busy then w.ownerRole else 0) ++ leBytes 2 0 ++
       leBytes 4 (if busy then slot.total else 0) ++ leBytes 4 (if busy then done else 0) ++ leBytes 1 w.lastResult ++ leBytes 3 0)

/-! MCTP control and PLDM (R479). -/

/-- MCTP control command codes (DSP0236). -/
def mcSET_EID : Nat := 1
def mcGET_EID : Nat := 2
def mcGET_VERSION : Nat := 4
def mcGET_TYPES : Nat := 5
def mcGET_VDM : Nat := 6

/-- Answer an MCTP message of a type, where the management role runs. -/
def State.mctpReply (s : State) (type : Nat) (body : Bytes) : State := s.emit (.message chMCTP type body)

/-- Number a standard's message. -/
def State.stdNumber (s : State) : Nat × State := (s.sec.messages, s.upSec fun c => { c with messages := c.messages + 1 })

/-- Answer a request whose content DSP0236 or DSP0248 fixes. -/
def State.stdReply (s : State) (type code : Nat) (req : Bytes) : State :=
  let (n, s) := s.stdNumber
  s.mctpReply type (leBytes 1 code ++ Config.standardReply (256 * type + code) req n)

/-- Set Endpoint ID: IDs 0 and 0xFF are no endpoint's. -/
def setEndpointId (eid : Nat) (s : State) : State :=
  if !s.managed then s
  else
    let s := if eid % 256 = 0 || eid % 256 = 255 then s else s.upCar fun c => { c with eid := eid % 256 }
    s.stdReply 0 mcSET_EID (leBytes 1 eid)

/-- Get Endpoint ID. -/
def getEndpointId (s : State) : State :=
  if !s.managed then s else s.mctpReply 0 (leBytes 1 mcGET_EID ++ [0] ++ leBytes 1 s.car.eid)

/-- Get MCTP Version Support, for a message type. -/
def getMctpVersion (type : Nat) (s : State) : State := if s.managed then s.stdReply 0 mcGET_VERSION (leBytes 1 type) else s

/-- Get Message Type Support: the five types of R479. -/
def getMessageTypes (s : State) : State :=
  if !s.managed then s
  else s.mctpReply 0 (leBytes 1 mcGET_TYPES ++ [0, 5, 0x00, 0x01, 0x05, 0x06, 0x7E])

/-- Get Vendor Defined Message Support, for a set selector. -/
def getVendorMessages (selector : Nat) (s : State) : State :=
  if s.managed then s.stdReply 0 mcGET_VDM (leBytes 1 selector) else s

/-- GetPDR: the platform descriptor record of a handle. -/
def getPdr (handle : Nat) (s : State) : State :=
  if s.roleRuns 0 then s.mctpReply 1 (leBytes 1 0x51 ++ Config.pdr handle) else s

/-- The reading of a numeric sensor. -/
def State.plSensor (s : State) (n : Nat) : Option Nat :=
  if 1 ≤ n && n ≤ 96 then some (s.rd Reg.CAR_TEMP_VALUE (n - 1))
  else if 101 ≤ n && n ≤ 148 then some (s.rd Reg.CAR_VMON_MV (n - 101))
  else if n = 200 then some (s.rd Reg.CAR_PWR_P1MS)
  else if n = 201 then some (s.rd Reg.CAR_PCAP_EFF_W)
  else none

/-- GetSensorReading. -/
def getSensorReading (n : Nat) (s : State) : State :=
  if !s.roleRuns 0 then s
  else match s.plSensor n with
    | some v => s.mctpReply 1 (leBytes 1 0x11 ++ [0] ++ leBytes 4 v)
    | none => s.mctpReply 1 (leBytes 1 0x11 ++ [0x80])

def execGetInfo (m : Option MbxReq) (s : State) : Host.Outcome State Fault Refusal := .next (getInfo m s)
def execSensorRead (m : Option MbxReq) (s : State) : Host.Outcome State Fault Refusal := .next (sensorRead m s)
def execPowerRead (m : Option MbxReq) (s : State) : Host.Outcome State Fault Refusal := .next (powerRead m s)
def execPowerCapSet (m : Option MbxReq) (s : State) : Host.Outcome State Fault Refusal := .next (powerCapSet m s)
def execLogRead (m : Option MbxReq) (s : State) : Host.Outcome State Fault Refusal := .next (logRead m s)
def execFwStatus (m : Option MbxReq) (s : State) : Host.Outcome State Fault Refusal := .next (fwStatus m s)
def execSetEndpointId (eid : Nat) (s : State) : Host.Outcome State Fault Refusal := .next (setEndpointId eid s)
def execGetEndpointId (s : State) : Host.Outcome State Fault Refusal := .next (getEndpointId s)
def execGetMctpVersionSupport (type : Nat) (s : State) : Host.Outcome State Fault Refusal := .next (getMctpVersion type s)
def execGetMessageTypeSupport (s : State) : Host.Outcome State Fault Refusal := .next (getMessageTypes s)
def execGetVendorDefinedMessageSupport (selector : Nat) (s : State) : Host.Outcome State Fault Refusal :=
  .next (getVendorMessages selector s)
def execGetPdr (handle : Nat) (s : State) : Host.Outcome State Fault Refusal := .next (getPdr handle s)
def execGetSensorReading (n : Nat) (s : State) : Host.Outcome State Fault Refusal := .next (getSensorReading n s)

end Sys2Proof.Machine
end

