-- ==== Sys2Proof/Machine/Registers.lean ====
section
/-!
DEFINITION. Reads and writes of the register window as a whole: access codes, stored values, latches and unmapped offsets (R6–R11,
R72, R533–R540).
Marks: DEDUCED 12, 14, 19, 45; DESIGN CHOICE 8, in notes/assumptions.
-/
namespace Sys2Proof.Machine

/-! Which offsets hold registers (R3, R533, R534). -/

/-- Whether a register lies at an offset.  Part class 0 has no configuration register (R462). -/
def mappedAt (off : Nat) : Bool := decide (off < 2 ^ 28) && off != 0x40200 && !(fieldsAt off).isEmpty

/-- Whether an offset lies in ATT or SQT on a part without the attention assist: reads 0, writes ignored (R3). -/
def State.blockAbsent (s : State) (off : Nat) : Bool := !s.hasAtt && decide (0x1000000 ≤ off) && decide (off < 0x1400000)

/-- An access to an unmapped offset (R534). -/
def State.unmapped (s : State) (off : Nat) (write : Bool) : State :=
  ((s.bump Reg.GLB_UNMAPPED_COUNT).wrb Reg.GLB_UNMAPPED_OFF_WRITE write).wr Reg.GLB_UNMAPPED_OFF_OFFSET (off / 4)

/-! Reads. -/

/-- A meter of a fen (R65, R71). -/
def State.meterOf (s : State) (f : Nat) : Meter := Tab.getD s.meters f {}

/-- The low or high half of a 64-bit value. -/
def half (hi : Bool) (v : Nat) : Nat := if hi then v / 2 ^ 32 % 2 ^ 32 else v % 2 ^ 32

/-- The value that a field shows a requester now: what the register file stores, except for write-only fields and for those
computed from other state. -/
def State.live (s : State) (who : Nat) (f : Fld) (i j : Nat) : Nat :=
  if f.acc == .wo then 0
  else if f = Reg.FEN_MTR_CLUS_LO then half false (meterUs (s.meterOf i).clus)
  else if f = Reg.FEN_MTR_CLUS_HI then half true (meterUs (s.meterOf i).clus)
  else if f = Reg.FEN_MTR_CHG_LO then half false (meterUs (s.meterOf i).chg)
  else if f = Reg.FEN_MTR_CHG_HI then half true (meterUs (s.meterOf i).chg)
  else if f = Reg.FEN_MTR_PORT_LO then half false (meterUs (s.meterOf i).port)
  else if f = Reg.FEN_MTR_PORT_HI then half true (meterUs (s.meterOf i).port)
  else if f = Reg.FEN_MTR_BYTES_LO then half false (s.meterOf i).bytes
  else if f = Reg.FEN_MTR_BYTES_HI then half true (s.meterOf i).bytes
  else if f = Reg.GATE_TT_NOW_LO then half false s.tnow
  else if f = Reg.GATE_TT_NOW_HI then half true s.tnow
  else if f = Reg.GATE_TT_NOW_FRAC then s.tabor % 2 ^ 32
  else if f = Reg.SHP_P_CREDIT_BYTES then s.credit i j / 65536
  else if f = Reg.ATT_PAGE_BYTES_BYTES then (s.shape i).pageBytes
  else if f = Reg.CAR_SEM_GRANTED then b2n (s.semGranted i who)
  else if f = Reg.CAR_SEM_WSTAT_PENDING then b2n (Tab.getD s.car.waitStat who {}).pending
  else if f = Reg.CAR_SEM_WSTAT_STATUS then (Tab.getD s.car.waitStat who {}).status
  else if f = Reg.CAR_SEM_WSTAT_SEM then (Tab.getD s.car.waitStat who {}).sem
  else s.rd f i j

/-- The word at an offset, with no read effect. -/
def State.peek (s : State) (who off : Nat) : Nat :=
  if s.blockAbsent off then 0
  else (fieldsAt off).foldl (fun v (f, i, j) => setBits v f.lo f.width (s.live who f i j)) 0

/-- The latching pairs (R71, R366, R394, R537): the `_LO` half, and how far above it the latched words lie. -/
def latchPairs : List (Fld × List Nat) :=
  [(Reg.FEN_MTR_CLUS_LO, [4]), (Reg.FEN_MTR_CHG_LO, [4]), (Reg.FEN_MTR_PORT_LO, [4]), (Reg.FEN_MTR_BYTES_LO, [4]),
   (Reg.XBR_P_RXPKT_LO, [4]), (Reg.XBR_P_RXBYTE_LO, [4]), (Reg.XBR_P_TXPKT_LO, [4]), (Reg.XBR_P_TXBYTE_LO, [4]),
   (Reg.XBR_P_CSTALL_LO, [4]), (Reg.XBR_P_SSTALL_LO, [4]), (Reg.GATE_TT_NOW_LO, [4, 8]), (Reg.GATE_TT_PTM_T1_LO, [4]),
   (Reg.GATE_TT_PTM_T4_LO, [4]), (Reg.GATE_TT_PTM_MT_LO, [4]), (Reg.GATE_TT_PPS_IN_LO, [4])]

/-- How far above an offset lie the words that a read of it latches. -/
def latchedAbove (off : Nat) : List Nat := ((latchPairs.find? fun p => (p.1.at? off).isSome).map (·.2)).getD []

/-- Key of a requester's latch. -/
def latchKey (who off : Nat) : Nat := who * 2 ^ 32 + off

/-- Latch the high halves of a pair for a requester (R72). -/
def State.latch (s : State) (who off : Nat) : State :=
  { s with latches := (latchedAbove off).foldl (fun t d =>
      Tab.put t (latchKey who (off + d)) (BitVec.ofNat 32 (s.peek who (off + d)))) s.latches }

/-- Clear the RC fields at an offset (R7). -/
def State.clearRc (s : State) (off : Nat) : State :=
  (fieldsAt off).foldl (fun s (f, i, j) => if f.acc == .rc then s.wr f 0 i j else s) s

/-- An admitted read by a requester: its effects and the word returned. -/
def State.readReg (s : State) (who off : Nat) : State × Nat :=
  if !mappedAt off then (s.unmapped off false, 0)
  else if s.blockAbsent off then (s, 0)
  else
    let s := match Reg.CAR_SEM_GRANTED.at? off with
      | some (i, _) => s.semAcquireOp i who
      | none => s
    let v := match Tab.find? s.latches (latchKey who off) with
      | some w => w.toNat
      | none => s.peek who off
    ((s.latch who off).clearRc off, v)

/-! Writes. -/

/-- Fields in which 0 is stored as 1. -/
def zeroIsOne : List Fld :=
  [Reg.POOL_MOVE_DRAIN_US, Reg.POOL_SCRUB_BW_SHARE, Reg.FAB_HOLD_MAX_US, Reg.FAB_CC_CTL_DECR, Reg.FAB_CC_CTL_WIN_US, Reg.RED_KEEP_US,
   Reg.CMD_AGE_US, Reg.CKP_POLL_US, Reg.GATE_TT_PERIOD_US, Reg.FLT_CHUNK_WD_US, Reg.FLT_PATROL_HOURS, Reg.FLT_EQ_CTL_MOD_US,
   Reg.FLT_SCLS_CFG_THR, Reg.CAR_WDT_MS, Reg.CAR_SEM_TIMEOUT_US, Reg.CAR_SEM_HOLD_MAX_MS, Reg.CAR_PCAP_HOST_WINDOW, Reg.PWR_SAN_MAX_S]

/-- Fields with a greatest stored value. -/
def storedMax : List (Fld × Nat) :=
  [(Reg.POOL_XLATE_DL_US, 1000000), (Reg.FAB_HOLD_MAX_US, 1000000), (Reg.GATE_TT_MAXPPB_PPB, 500000), (Reg.FLT_CHUNK_WD_US, 32),
   (Reg.FLT_SCLS_CFG_DECAY, 20), (Reg.CAR_PCAP_HOST_W, 1500), (Reg.CAR_PCAP_HOST_WINDOW, 1000), (Reg.CAR_THR_T_HOT, 100),
   (Reg.CAR_THR_T_CRIT, 110)]

/-- Fields with a least stored value. -/
def storedMin : List (Fld × Nat) := [(Reg.FLT_SCLS_CFG_DECAY, 8), (Reg.CAR_PCAP_HOST_W, 800)]

/-- What a value written to a field is stored as. -/
def storedAs (f : Fld) (v : Nat) : Nat :=
  let v := v % 2 ^ f.width
  let v := if zeroIsOne.contains f && v == 0 then 1 else v
  let v := match storedMax.find? fun p => p.1 == f with
    | some p => min v p.2
    | none => v
  let v := match storedMin.find? fun p => p.1 == f with
    | some p => max v p.2
    | none => v
  if (f == Reg.GATE_TT_CTL_SRC || f == Reg.GATE_P_PWR_AUTO) && v == 3 then 0 else v

/-- Store a field of a written word. -/
def State.store (s : State) (f : Fld) (i j v : Nat) : State := s.wr f (storedAs f (bits v f.lo f.width)) i j

/-- Store the fields of a written word by their access codes (R7): writable ones take their bits, W1C ones clear. -/
def State.storeWord (s : State) (off v : Nat) : State :=
  (fieldsAt off).foldl (fun s (f, i, j) =>
    match f.acc with
    | .rw | .rwq => s.store f i j v
    | .wo => if f == Reg.GATE_TT_SET_LO then s.store f i j v else s
    | .w1c => s.wr f (s.rd f i j - Nat.land (s.rd f i j) (bits v f.lo f.width)) i j
    | _ => s) s

/-! Fields written while quiesced (R8). -/

/-- Whether a fen reads QUIESCED or UNUSED. -/
def State.fenStill (s : State) (f : Nat) : Bool := s.fenState f == fenQUIESCED || s.fenState f == fenUNUSED

/-- Whether the values written to a shape register keep to R226. -/
def shapeOk (f : Fld) (v : Nat) : Bool :=
  if f = Reg.ATT_SHAPE0_LAYERS then
    let l := bits v 0 8
    let hq := bits v 8 8
    let hkv := bits v 16 5
    bits v 24 2 != 3 && (l == 0 || (decide (l ≤ 128) && decide (1 ≤ hkv) && decide (hkv ≤ 16) && decide (1 ≤ hq) && decide (hq ≤ 128) &&
      hq % hkv == 0))
  else if f = Reg.ATT_SHAPE1_PB then
    decide (1 ≤ bits v 0 7) && decide (bits v 0 7 ≤ 64) && decide (bits v 8 8 ≤ 192) && decide (bits v 16 7 ≤ 64)
  else if f = Reg.ATT_SCALE_VALUE then decide (0 < v % 2 ^ 32) && decide (v % 2 ^ 32 < 0x7F800000)
  else if f = Reg.ATT_DIR_SLOTS_COUNT then decide (bits v 0 19 ≤ 262144)
  else true

/-- Whether a write of the fen's group range is accepted (R279). -/
def State.grpRangeOk (s : State) (f v : Nat) : Bool :=
  let base := bits v 0 12
  let n := bits v 16 13
  let apart := (List.range 64).all fun g =>
    g == f || n == 0 || s.rd Reg.SQT_FEN_GRP_COUNT g == 0 ||
      decide (base + n ≤ s.rd Reg.SQT_FEN_GRP_BASE g) || decide (s.rd Reg.SQT_FEN_GRP_BASE g + s.rd Reg.SQT_FEN_GRP_COUNT g ≤ base)
  let inside := (s.seqsOf f).all fun e => e.2.state == sqPREFIX || (decide (base ≤ e.2.group) && decide (e.2.group < base + n))
  apart && decide (base + n ≤ 4096) && inside

/-- Whether a write of one of the three buffer fields is accepted (R365). -/
def State.bufferOk (s : State) (f : Fld) (v : Nat) : Bool :=
  let at_ := fun (g : Fld) => if f = g then bits v g.lo g.width else s.rd g
  let q := at_ Reg.XBR_QLIM_CELLS
  let lo := at_ Reg.XBR_IN_MIN_CELLS
  decide (64 ≤ q) && decide (q ≤ 2048) && decide (128 * q + 16 * lo ≤ 262144) && decide (lo ≤ at_ Reg.XBR_IN_MAX_CELLS)

/-- The fen of an RWQ register: `noFen` for a register of no fen. -/
def rwqFen (f : Fld) (i : Nat) : Nat := if f.base / 2 ^ 16 = 0x240 then noFen else i

/-- Whether a write to an RWQ register is accepted: the field that heads the register, its index, and the word. -/
def State.rwqOk (s : State) (f : Fld) (i v : Nat) : Bool :=
  if rwqFen f i = noFen then s.inBringUp && s.bufferOk f v
  else if !s.fenStill i then false
  else if f = Reg.SQT_FEN_GRP_BASE then s.grpRangeOk i v
  else if f = Reg.CMD_FEN_RT_STAGE_CHUNKS then decide (bits v 0 17 ≤ s.stageCap i)
  else (s.seqsOf i).isEmpty && !(s.att.arenas.any fun a => a.2.fen == i) && shapeOk f v

/-- Write an RWQ register: discarded and recorded where it may not be written (R8). -/
def State.writeRwq (s : State) (f : Fld) (i off v : Nat) : State :=
  if s.rwqOk f i v then s.storeWord off v else s.regFault off (rwqFen f i)

/-! Registers whose write does more than store. -/

/-- A GO of the EXT set. -/
def State.extOp (s : State) (code : Nat) : State :=
  match code with
  | 1 => s.extRead
  | 2 => s.extFind
  | 3 => s.extCreate
  | 4 => s.extCreateHost
  | 5 => s.extFree
  | _ => s.setEnd Reg.EXT_STATUS_STATUS Reg.EXT_STATUS_DONE stMALFORMED

/-- A GO of the RGN set. -/
def State.rgnOp (s : State) (code : Nat) : State :=
  match code with
  | 1 => s.rgnRead
  | 2 => s.rgnCreate
  | 3 => s.rgnUpdate
  | 4 => s.rgnFence
  | 5 => s.rgnDelete
  | 6 => s.rgnReadClient
  | 7 => s.rgnWriteClient
  | _ => s.setEnd Reg.RGN_STATUS_STATUS Reg.RGN_STATUS_DONE stMALFORMED

/-- A GO of the ATT_AR set. -/
def State.arOp (s : State) (code : Nat) : State :=
  match code with
  | 1 => s.arRead
  | 2 => s.arRegister
  | 3 => s.arUnregister
  | _ => s.setEnd Reg.ATT_AR_STATUS_STATUS Reg.ATT_AR_STATUS_DONE stMALFORMED

/-- A GO of the SQT_GRP set. -/
def State.grpOp (s : State) (code : Nat) : State :=
  match code with
  | 1 => s.grpRead
  | 2 => s.grpReset
  | _ => s.setEnd Reg.SQT_GRP_STATUS_STATUS Reg.SQT_GRP_STATUS_DONE stMALFORMED

/-- A GO of the SQT_ENT set. -/
def State.entOp (s : State) (code : Nat) : State :=
  match code with
  | 1 => s.entRead
  | 2 => s.entDrop
  | 3 => s.entDropFen
  | _ => s.setEnd Reg.SQT_ENT_STATUS_STATUS Reg.SQT_ENT_STATUS_DONE (if s.on Reg.SQT_ENT_OP_BUSY then stRETRY else stMALFORMED)

/-- A GO of the CMD_RING set. -/
def State.ringOp (s : State) (code : Nat) : State :=
  match code with
  | 1 => s.ringRead
  | 2 => s.ringRegister
  | 3 => s.ringUnregister
  | 4 => s.ringReset
  | _ => s.setEnd Reg.CMD_RING_STATUS_STATUS Reg.CMD_RING_STATUS_DONE stMALFORMED

/-- A GO of the CKP_SET set. -/
def State.ckpOp (s : State) (code : Nat) : State :=
  match code with
  | 1 => s.ckpSetRead
  | 2 => s.ckpSetRegister
  | 3 => s.ckpSetUnregister
  | _ => s.setEnd Reg.CKP_SET_STATUS_STATUS Reg.CKP_SET_STATUS_DONE stMALFORMED

/-- The operation registers of the indirect sets (R538): the stored word is in place when `act` runs on its CODE. -/
def setOps : List (Nat × (State → Nat → State)) :=
  [(0x400004, State.extOp), (0x600004, State.rgnOp), (0x1200104, State.arOp), (0x1000104, State.grpOp), (0x1000208, State.entOp),
   (0x800104, State.ringOp), (0x1800104, State.ckpOp), (0x2600004, State.rteOp), (0x40104, State.scoreOp)]

/-- Bring the watermarks in line with a new mark (R11). -/
def State.remeasure (s : State) (f : Fld) (i : Nat) : State :=
  if f = Reg.FEN_NEAR_MARK_UNITS then s.measure wmNear (s.rd Reg.FEN_NEAR_USED_UNITS i) i
  else if f = Reg.POOL_SCRUB_MARK_UNITS then s.measure wmScrub (s.rd Reg.POOL_SCRUB_PEND_UNITS)
  else if f = Reg.RED_ENG_MARK_BYTES then s.measure wmRed (s.rd Reg.RED_ENG_USED_BYTES i) i
  else if f = Reg.OPE_GREQ_MARK_COUNT then s.measure wmGreq (s.rd Reg.OPE_GREQ_ACTIVE)
  else if f = Reg.ATT_PAGE_MARK_COUNT then s.measure wmPage (s.rd Reg.ATT_PAGES_TOTAL i - s.rd Reg.ATT_PAGES_FREE_COUNT i) i
  else if f = Reg.SQT_USED_MARK_COUNT then s.measure wmSeq (s.rd Reg.SQT_STAT_USED)
  else if f = Reg.CMD_FEN_CTX_MARK_COUNT then s.measure wmCtx (s.rd Reg.CMD_FEN_CTX_USED i) i
  else s

/-- Registers that keep their values while an enable reads 1 (R116, R365, R460, R537). -/
def heldRegs : List (Nat × Fld) :=
  [(0x200104, Reg.POOL_HXQ_CTL_ENABLE), (0x200108, Reg.POOL_HXQ_CTL_ENABLE), (0x20010C, Reg.POOL_HXQ_CTL_ENABLE),
   (0x200118, Reg.POOL_HXQ_CTL_ENABLE), (0x20011C, Reg.POOL_HXQ_CTL_ENABLE), (0x200120, Reg.POOL_HXQ_CTL_ENABLE),
   (0x2400044, Reg.XBR_CAP_CTL_ENABLE), (0x2400048, Reg.XBR_CAP_CTL_ENABLE), (0x240004C, Reg.XBR_CAP_CTL_ENABLE),
   (0x2400050, Reg.XBR_CAP_CTL_ENABLE), (0x40024, Reg.FLT_EQ_CTL_ENABLE), (0x40028, Reg.FLT_EQ_CTL_ENABLE)]

/-- A write of `POOL_HXQ_CTL` (R116): while ENABLE reads 0, HOST ranges complete TIMEOUT at once. -/
def State.hxqCtl (s : State) (enable : Bool) : State :=
  let s := s.wrb Reg.POOL_HXQ_CTL_ENABLE enable
  if enable then s.postXlates
  else (s.cmd.cmds.filter fun c => c.2.phase == .translating).foldl (fun s c => s.finish c.1 stTIMEOUT) s

/-- A write of `FLT_EQ_CTL` (R458, R460). -/
def State.eqCtl (s : State) (v : Nat) : State :=
  let log2 := s.rd Reg.FLT_EQ_CTL_LOG2
  let held := s.on Reg.FLT_EQ_CTL_ENABLE
  let s := s.storeWord 0x40020 v
  (if held then s.wr Reg.FLT_EQ_CTL_LOG2 log2 else s).eqResume s.mgmtUp

/-- A write of `GATE_TT_CTL` (R381, R394). -/
def State.ttCtl (s : State) (v : Nat) : State :=
  let src := s.rd Reg.GATE_TT_CTL_SRC
  let s := s.storeWord 0x280000C v
  if s.rd Reg.GATE_TT_CTL_SRC = src then s else s.sourceChanged

/-- A write of `CAR_THR` (R484, R499): T_CRIT is stored within T_HOT + 5 to 110, and the stages follow. -/
def State.thrWrite (s : State) (v : Nat) : State :=
  let s := s.storeWord 0x23318 v
  let s := s.wr Reg.CAR_THR_T_CRIT (max (s.rd Reg.CAR_THR_T_HOT + 5) (s.rd Reg.CAR_THR_T_CRIT))
  (List.range 8).foldl State.stageDie s

/-- A write of `CAR_PCAP_HOST` (R483, R499). -/
def State.capWrite (s : State) (v : Nat) : State :=
  s.setCap true (storedAs Reg.CAR_PCAP_HOST_W (bits v 0 11)) (storedAs Reg.CAR_PCAP_HOST_WINDOW (bits v 16 10))

/-- Writes of single registers that act. -/
def State.actReg (s : State) (who off v : Nat) (b : BringUp) : Option State :=
  if off = 0x200014 then some (if bit v 8 then s.fenceFen (v % 64) else s.wr Reg.POOL_FENCE_FEN (v % 64))
  else if off = 0x200100 then some (s.hxqCtl (bit v 0))
  else if off = 0x200114 then some (s.storeWord off v).postXlates
  else if off = 0x1600104 then some (if bit v 0 then s.treeRead else s)
  else if off = 0x1400050 then some (checkInjectOp (bits v 4 4) (bit v 0) s)
  else if off = 0x2400040 then some (s.capCtlOp (bit v 0) (bit v 1) (bits v 8 5))
  else if off = 0x280000C then some (s.ttCtl v)
  else if off = 0x2800030 then some (s.hostSampleOp v)
  else if off = 0x2800038 then some (s.taborSetOp v)
  else if off = 0x280003C then some (if bit v 0 then s.ptmOp else s)
  else if off = 0x2820004 then some (if bit v 0 then s.polReadOp else s)
  else if off = 0x3000044 then some (if bit v 0 then s.cohLineOp else s)
  else if off = 0x400C0 then some (if bit v 0 then s.mapClearOp b.failing else s)
  else if off = 0x40020 then some (s.eqCtl v)
  else if off = 0x40030 then
    let s := s.storeWord off v
    some (s.eqResume s.mgmtUp)
  else if off = 0x20040 then
    let s := s.storeWord off v
    some (if bit v 0 then s.doorbell else s)
  else if off = 0x20500 then some (if bit v 8 then s.semWaitOp (v % 64) who else s.storeWord off v)
  else if off = 0x23304 then some (s.capWrite v)
  else if off = 0x23318 then some (s.thrWrite v)
  else if off = 0x10004 then some (s.storeWord off v).revertRef
  else if off = 0x10100 then some (s.rstCtlOp v b)
  else if off = 0x10114 then some (if bit v 8 then s.fenResetOp (v % 64) else s.storeWord off v)
  else none

/-- Writes of repeated registers that act. -/
def State.actSet (s : State) (who off v : Nat) : Option State :=
  match Reg.FEN_CTL_QUIESCE.at? off with
  | some (f, _) => some (s.fenCtlOp f (bit v 0) (bit v 1))
  | none =>
    match Reg.FAB_DEAD.at? off with
    | some (i, _) => some (s.deadClearOp i v)
    | none =>
      match Reg.GATE_P_STAT_FAULT.at? off with
      | some (p, _) => some (if bit v 2 then s.timeFaultClearOp p else s)
      | none =>
        match Reg.GATE_P_PWR_AUTO.at? off with
        | some (p, _) =>
          let s := s.storeWord off v
          some (if bit v 3 then s.sleepRequestOp p else s)
        | none =>
          match Reg.CAR_SEM_GRANTED.at? off with
          | some (i, _) => some (if bit v 0 && s.semOwner i == who then s else s.semReleaseOp i who)
          | none =>
            match Reg.CAR_MBX_REQ.at? off with
            | some _ => some (if s.on Reg.CAR_MBX_CTL_BUSY then s.bump Reg.CAR_CNT_MBX_REJECT else s.storeWord off v)
            | none => none

/-- An admitted write. -/
def State.writeReg (s : State) (who off v : Nat) (b : BringUp) : State :=
  if !mappedAt off then s.unmapped off true
  else if s.blockAbsent off then s
  else match s.actReg who off v b with
    | some s => s
    | none =>
      match s.actSet who off v with
      | some s => s
      | none =>
        match setOps.find? fun p => p.1 == off with
        | some p =>
          let s := s.storeWord off v
          if bit v 8 then p.2 s (bits v 0 4) else s
        | none =>
          if (heldRegs.find? fun p => p.1 == off).any fun p => s.on p.2 then s
          else match fieldsAt off with
            | (f, i, _) :: _ => if f.acc == .rwq then s.writeRwq f i off v else (s.storeWord off v).remeasure f i
            | [] => s

/-! The rows. -/

/-- REGISTER_WRITE (R7, R8). -/
def registerWrite (a : Access) (off v : Nat) (b : BringUp) (s : State) : State :=
  s.window a off fun s => s.writeReg a.req.num off (v % 2 ^ 32) b

/-- REGISTER_READ_CLEAR (R7, R9). -/
def registerRead (a : Access) (off : Nat) (s : State) : State := s.readWindow a off fun s => s.readReg a.req.num off

/-- LO_LATCH_READ (R72, R537). -/
def loLatchRead (a : Access) (off : Nat) (s : State) : State := if (latchedAbove off).isEmpty then s else registerRead a off s

/-- UNMAPPED_ACCESS (R534). -/
def unmappedAccess (a : Access) (off : Nat) (write : Bool) (s : State) : State :=
  if mappedAt off then s
  else if write then registerWrite a off 0 {} s else registerRead a off s

def execRegisterWrite (a : Access) (off v : Nat) (b : BringUp) (s : State) : Host.Outcome State Fault Refusal :=
  .next (registerWrite a off v b s)
def execRegisterReadClear (a : Access) (off : Nat) (s : State) : Host.Outcome State Fault Refusal := .next (registerRead a off s)
def execLoLatchRead (a : Access) (off : Nat) (s : State) : Host.Outcome State Fault Refusal := .next (loLatchRead a off s)
def execUnmappedAccess (a : Access) (off : Nat) (write : Bool) (s : State) : Host.Outcome State Fault Refusal :=
  .next (unmappedAccess a off write s)

end Sys2Proof.Machine
end

