-- ==== Sys2Proof/Machine/Debug.lean ====
section
/-!
DEFINITION. The debug port: its instructions by level, the inspect view, and the halting of a pair (R10, R493–R496).  The debug
module's registers are those of the RISC-V Debug Specification 1.0, which R493 names.
Marks: DEDUCED 46; PRESUMED 38, in notes/assumptions.
-/
namespace Sys2Proof.Machine

/-- The debug level in force. -/
def State.dbgLevel (s : State) : Nat := s.rd Reg.DBG_LEVEL_LEVEL

/-- Shift a value out of the TAP. -/
def State.tdo (s : State) (v : Nat) : State := s.emit (.tdo v)

/-- An instruction that the level admits does `act`; a refused one acts as BYPASS and is counted (R493). -/
def State.tap (s : State) (allowed : Bool) (act : State → State) : State :=
  if !s.car.powered then s
  else if allowed then act s
  else (s.bump Reg.DBG_CNT_DENY).tdo 0

def State.atFull (s : State) : Bool := s.dbgLevel == dbgFULL
def State.atInspect (s : State) : Bool := s.dbgLevel == dbgINSPECT || s.dbgLevel == dbgFULL

/-- IDCODE. -/
def idcode (s : State) : State := s.tap true fun s => s.tdo (s.rd Reg.DBG_IDCODE_VALUE)

/-- BYPASS. -/
def bypass (s : State) : State := s.tap true fun s => s.tdo 0

/-- SAMPLE/PRELOAD: the boundary register captures the lands, whose order the spec does not give, and takes what is shifted in. -/
def samplePreload (d : Bytes) (s : State) : State :=
  s.tap s.atFull fun s =>
    let (v, s) := s.free
    (s.upCar fun c => { c with boundary := d }).tdo v

/-- EXTEST: the boundary register drives the lands and captures them. -/
def extest (d : Bytes) (s : State) : State :=
  s.tap s.atFull fun s =>
    let (v, s) := s.free
    (s.upCar fun c => { c with boundary := d }).tdo v

/-! Halting (R495, R496). -/

/-- Halt a pair: its watchdog and the hold limits of its semaphores stop. -/
def State.haltPair (s : State) (p : Nat) : State :=
  if s.pairHalted p || !(s.cp p == cpRUNNING || s.cp p == cpBOOTING) then s
  else
    let held := Tab.mapVals s.car.held fun i h => if s.semOwner i = p + 1 then (h.1 + (s.hclk - h.2), s.hclk) else h
    let s := (s.upCar fun c => { c with held := held }).upPair p fun q => { q with haltedAt := some s.hclk }
    if p = 0 then (s.wr Reg.CAR_STAT_HALT0 1).wr Reg.DBG_HALT_CP0 1 else (s.wr Reg.CAR_STAT_HALT1 1).wr Reg.DBG_HALT_CP1 1

/-! The debug module. -/

def dmCONTROL : Nat := 0x10
def dmSTATUS : Nat := 0x11
def dmSBCS : Nat := 0x38
def dmSBADDR : Nat := 0x39
def dmSBDATA : Nat := 0x3C

def State.dm (s : State) (a : Nat) : Nat := Tab.getD s.car.dm a 0
def State.setDm (s : State) (a v : Nat) : State := s.upCar fun c => { c with dm := Tab.put c.dm a (v % 2 ^ 32) }

/-- The selected hart: CP0 is 0, CP1 is 1. -/
def State.hart (s : State) : Nat := bits (s.dm dmCONTROL) 16 10

/-- dmstatus of the selected hart: halted, running, or no such hart. -/
def State.dmStatus (s : State) : Nat :=
  let h := s.hart
  let st := if 2 ≤ h then 3 * 2 ^ 14 else if s.pairHalted h then 3 * 2 ^ 8 else 3 * 2 ^ 10
  3 + 2 ^ 7 + st

/-- System bus access to a word of the local map of R468, as requester 4: none where nothing answers. -/
def State.busRead (s : State) (a : Nat) : State × Option Nat :=
  if a % 4 ≠ 0 then (s, none)
  else if a < 0x80000 then (s, some (Config.romWord (a / 4) % 2 ^ 32))
  else if 0x8000000 ≤ a ∧ a < 0x8800000 then
    let known := (List.range 4).all fun i => s.car.sram.any fun c => c.1 == a + i
    if known then (s, some (leNat ((List.range 4).map fun i => ((s.car.sram.find? fun c => c.1 == a + i).map (·.2)).getD 0)))
    else
      let (v, s) := s.free
      (s, some (v % 2 ^ 32))
  else if 0x10000000 ≤ a ∧ a < 0x10001000 then
    let q := s.carPair (s.hart % 2)
    let t := (s.hclk - q.resetAt) * 2 / 3
    if a = 0x10000010 then (s, some (q.crc ^^^ 0xFFFFFFFF))
    else if a = 0x10000028 then
      ({ s with latches := Tab.put s.latches (latchKey 4 0x1000002C) (BitVec.ofNat 32 (half true t)) }, some (half false t))
    else if a = 0x1000002C then (s, some (match Tab.find? s.latches (latchKey 4 0x1000002C) with
      | some w => w.toNat
      | none => half true t))
    else (s, some 0)
  else if 0x40000000 ≤ a ∧ a < 0x50000000 then
    let (s, v) := s.readReg 4 (a - 0x40000000)
    (s, some v)
  else (s, none)

/-- A system bus write of a word: none where nothing answers. -/
def State.busWrite (s : State) (a v : Nat) : Option State :=
  if a % 4 ≠ 0 then none
  else if 0x8000000 ≤ a ∧ a < 0x8800000 then
    let new := (leBytes 4 v).zipIdx.map fun (b, i) => (a + i, b)
    some (s.upCar fun c => { c with sram := new ++ c.sram.filter fun e => !(decide (a ≤ e.1) && decide (e.1 < a + 4)) })
  else if 0x10000000 ≤ a ∧ a < 0x10001000 then
    let p := s.hart % 2
    some (if a = 0x10000000 then (if bit v 0 then crcInit p s else s)
      else if a = 0x10000004 then crcFeed p 1 v s
      else if a = 0x10000008 then crcFeed p 2 v s
      else if a = 0x1000000C then crcFeed p 4 v s
      else if a = 0x10000020 then (if bit v 0 then carKick p s else s)
      else s)
  else if 0x40000000 ≤ a ∧ a < 0x50000000 then
    let off := a - 0x40000000
    some (s.window { req := .debug } off fun s => s.writeReg 4 off v {})
  else none

/-- sbcs with sberror: 2 no such address. -/
def State.busError (s : State) : State := s.setDm dmSBCS (setBits (s.dm dmSBCS) 12 3 2)

/-- After an access the address moves on where sbautoincrement is set. -/
def State.busNext (s : State) : State :=
  if bit (s.dm dmSBCS) 16 then s.setDm dmSBADDR (s.dm dmSBADDR + 4) else s

/-- Read at sbaddress0 into sbdata0. -/
def State.busFill (s : State) : State :=
  match s.busRead (s.dm dmSBADDR) with
  | (s, some v) => (s.setDm dmSBDATA v).busNext
  | (s, none) => s.busError

/-- A DMI read of a debug module register. -/
def State.dmRead (s : State) (a : Nat) : State × Nat :=
  if a = dmSTATUS then (s, s.dmStatus)
  else if a = dmSBDATA then
    let v := s.dm dmSBDATA
    (if bit (s.dm dmSBCS) 15 then s.busFill else s, v)
  else if a = dmSBCS then (s, setBits (setBits (s.dm dmSBCS) 29 3 1) 0 12 0x404)
  else if a = dmCONTROL || a = dmSBADDR || decide (a < 0x10) || (decide (0x17 ≤ a) && decide (a < 0x30)) then (s, s.dm a)
  else
    let (v, s) := s.free
    (s, v % 2 ^ 32)

/-- A write of dmcontrol: resume, then halt, of the selected pair; dmactive 0 resets the module. -/
def State.dmControl (s : State) (v : Nat) : State :=
  if !bit v 0 then s.upCar fun c => { c with dm := [] }
  else
    let s := s.setDm dmCONTROL (v % 2 ^ 30)
    let h := s.hart
    if 2 ≤ h then s
    else if bit v 31 then s.haltPair h
    else if bit v 30 then s.resumePair h
    else s

/-- A write of sbcs: sberror clears where 1 is written. -/
def State.sbcsWrite (s : State) (v : Nat) : State :=
  let e := bits (s.dm dmSBCS) 12 3
  s.setDm dmSBCS (setBits v 12 3 (e - Nat.land e (bits v 12 3)))

/-- A DMI write of a debug module register.  Abstract commands act on a core's own registers, which the spec does not describe: what
they leave in data0 and data1 is open. -/
def State.dmWrite (s : State) (a v : Nat) : State :=
  if a = dmCONTROL then s.dmControl v
  else if a = dmSBADDR then
    let s := s.setDm dmSBADDR v
    if bit (s.dm dmSBCS) 20 then s.busFill else s
  else if a = dmSBDATA then
    let s := s.setDm dmSBDATA v
    match s.busWrite (s.dm dmSBADDR) v with
    | some s => s.busNext
    | none => s.busError
  else if a = dmSBCS then s.sbcsWrite v
  else if a = 0x17 then
    let (x, s) := s.free
    let (y, s) := s.free
    ((s.setDm 0x17 v).setDm 4 x).setDm 5 y
  else s.setDm a v

/-- DMI (R495): op 1 reads, 2 writes. -/
def dmi (op a v : Nat) (s : State) : State :=
  s.tap s.atFull fun s =>
    if op = 1 then
      let (s, x) := s.dmRead a
      s.tdo (a * 2 ^ 34 + x * 4)
    else if op = 2 then (s.dmWrite a (v % 2 ^ 32)).tdo (a * 2 ^ 34)
    else s.tdo (a * 2 ^ 34)

/-- DTMCS: version and widths as the debug specification lays down; dmihardreset resets the module. -/
def dtmcs (v : Nat) (s : State) : State :=
  s.tap s.atFull fun s =>
    let s := if bit v 17 then s.upCar fun c => { c with dm := [] } else s
    let (x, s) := s.free
    s.tdo x

/-! The inspect view (R10, R494). -/

/-- The SRAM event log as the mirror shows it: the records held, oldest first. -/
def State.logWord (s : State) (o : Nat) : Nat :=
  match s.flt.log[o / 64]? with
  | some e => fld e.bytes (o % 64) 4
  | none => 0

/-- What an inspect read of an offset returns: none where the window refuses it. -/
def State.inspect (s : State) (off : Nat) : Option Nat :=
  if s.inert || off % 4 != 0 || decide (2 ^ 28 ≤ off) then none
  else if 0x4100000 ≤ off ∧ off < 0x4200000 then some (s.logWord (off - 0x4100000))
  else if mappedAt off then some (s.peek 4 off)
  else some 0

/-- IV_ADDR. -/
def ivAddr (off : Nat) (s : State) : State :=
  s.tap s.atInspect fun s => s.upCar fun c => { c with ivAddr := off % 2 ^ 32, ivStat := 0 }

/-- IV_DATA: capturing performs the read. -/
def ivData (s : State) : State :=
  s.tap s.atInspect fun s =>
    match s.inspect s.car.ivAddr with
    | some v => ((s.bump Reg.DBG_CNT_IV).upCar fun c => { c with ivData := v, ivStat := 1 }).tdo v
    | none => (s.upCar fun c => { c with ivData := 0, ivStat := 2 }).tdo 0

/-- IV_STAT: 1 DONE, 2 ERR. -/
def ivStat (s : State) : State := s.tap s.atInspect fun s => s.tdo s.car.ivStat

def execIdcode (s : State) : Host.Outcome State Fault Refusal := .next (idcode s)
def execBypass (s : State) : Host.Outcome State Fault Refusal := .next (bypass s)
def execSamplePreload (d : Bytes) (s : State) : Host.Outcome State Fault Refusal := .next (samplePreload d s)
def execExtest (d : Bytes) (s : State) : Host.Outcome State Fault Refusal := .next (extest d s)
def execDtmcs (v : Nat) (s : State) : Host.Outcome State Fault Refusal := .next (dtmcs v s)
def execDmi (op a v : Nat) (s : State) : Host.Outcome State Fault Refusal := .next (dmi op a v s)
def execIvAddr (off : Nat) (s : State) : Host.Outcome State Fault Refusal := .next (ivAddr off s)
def execIvData (s : State) : Host.Outcome State Fault Refusal := .next (ivData s)
def execIvStat (s : State) : Host.Outcome State Fault Refusal := .next (ivStat s)

end Sys2Proof.Machine
end

