-- ==== Sys2Proof/Machine/Ingress.lean ====
section
/-!
DEFINITION. FRAME_RECEIVE (R136): the checks each hop makes, policing, fence tracking, admission, sampling and routing of a
link frame received whole.
Marks: DEDUCED 21, 22, in notes/assumptions.
-/
namespace Sys2Proof.Machine

/-- Whether a port can receive frames at all: a Knawen port whose link is trained and not asleep (R158, R388). -/
def State.portListens (s : State) (p : Nat) : Bool :=
  s.knawenPort p && s.on Reg.FAB_PSTAT_UP p && s.rd Reg.GATE_P_STAT_PWR p != pwrDOZE &&
    s.rd Reg.GATE_P_STAT_PWR p != pwrSLEEP

/-- LINK type SPDM (R157). -/
def Packet.isSpdm (k : Packet) : Bool := k.opcode == opLINK && k.arg % 256 == 1

/-- Charge what FEC corrected: codewords to the port's counter, symbols to the lanes' scores (R158, R450). -/
def State.fecCharge (s : State) (p : Nat) (f : Frame) : State :=
  f.laneSyms.foldl (fun s (l, n) => if l < 8 then s.charge clsLANE (8 * p + l) 0 n 65536 1 else s)
    (s.bump Reg.FAB_CNT_FEC_CORR p 0 f.fecCorr)

/-- Discard a frame at one of steps 1 to 3 (R136, R450). -/
def State.frameDrop (s : State) (cause p : Nat) : State := (s.drop cause p p).charge clsPORT p 2 1 256 1

/-- Whether the frame's packet number and tag are accepted (R154). -/
def State.tagAccepted (s : State) (p : Nat) (f : Frame) : Bool :=
  f.tagOk && (match (s.port p).lastRx with | none => true | some n => decide (n < f.pkn))

/-- Whether step 4 fails: the payload is not what R123 asks, or a LINK packet is of a reserved type (R157). -/
def lengthFails (k : Packet) : Bool :=
  k.payload.length != k.payloadSize || (k.opcode == opLINK && decide (3 < k.arg % 256))

/-- Count a packet that has passed steps 1 to 4 (R158, R364, R65). -/
def State.countRx (s : State) (p : Nat) (k : Packet) : State :=
  let s := s.inc64 Reg.XBR_P_RXPKT_LO Reg.XBR_P_RXPKT_HI 1 p k.cls
  let s := s.inc64 Reg.XBR_P_RXBYTE_LO Reg.XBR_P_RXBYTE_HI k.bytes p k.cls
  let s := if k.isRsp && k.echo then s.bump Reg.FAB_CNT_ECHO p else s
  let s := if k.isRequest && k.retx then s.bump Reg.FAB_CNT_RETX p else s
  s.meterBytes p k

/-- Whether a TIME packet keeps R383. -/
def timeFieldsOk (k : Packet) : Bool :=
  k.len == 64 && k.dst == 0 && k.src == 0 && k.flags == 0 && k.region == 0 && k.key == 0 && k.addr == 0 &&
  match k.arg % 256 with
  | 0 => zeroAt k.payload 12 52
  | 1 => zeroAt k.payload 40 24 && decide (fld k.payload 37 1 < 2)
  | 2 => zeroAt k.payload 17 47
  | 3 => zeroAt k.payload 17 47
  | 4 => zeroAt k.payload 18 46
  | _ => false

/-- Hand a LINK or TIME packet to its port (R127, R383). -/
def State.consume (s : State) (p : Nat) (k : Packet) : State :=
  if k.opcode == opTIME && !timeFieldsOk k then s.bump Reg.GATE_P_TIME_BAD p
  else s.upPort p fun q => { q with ctl := q.ctl ++ [(s.tabor, k)] }

/-- Whether `n` cells can enter the ingress pool from port `p` (R341). -/
def State.ingressRoom (s : State) (p n : Nat) : Bool :=
  let h := s.rd Reg.XBR_P_IN_CELLS p
  let m := s.rd Reg.XBR_IN_MIN_CELLS
  decide (h + n ≤ s.rd Reg.XBR_IN_MAX_CELLS) && decide ((h + n - m) - (h - m) ≤ s.rd Reg.XBR_BUF_FREE_CELLS (p / 16))

/-- Take `n` cells of the ingress pool for port `p` (R341). -/
def State.ingressTake (s : State) (p n : Nat) : State :=
  let h := s.rd Reg.XBR_P_IN_CELLS p
  let m := s.rd Reg.XBR_IN_MIN_CELLS
  (s.inc Reg.XBR_P_IN_CELLS n p).dec Reg.XBR_BUF_FREE_CELLS ((h + n - m) - (h - m)) (p / 16)

/-- Count a packet toward its port's sampling interval: whether it is the sample (R359). -/
def State.sample (s : State) (p : Nat) : Bool × State :=
  let n := s.rd Reg.XBR_P_SAMPLE_N p
  if n = 0 then (false, s)
  else
    let k := (s.port p).sampled + 1
    (decide (n ≤ k), s.upPort p fun q => { q with sampled := if n ≤ k then 0 else k })

/-- What fence tracking makes of a request (R150). -/
inductive FenceAnswer where
  | pass
  | hold
  | refuse
  deriving DecidableEq, Repr

/-- A request's own entry in fence tracking. -/
def fenceEntry (s : State) (qp : QPkt) (tracked : Bool) : FenceEnt :=
  { src := qp.pkt.src, seq := qp.pkt.seq, cls := qp.pkt.cls, first := s.hclk, tracked := tracked, fence := qp.pkt.fence }

/-- Track a client's request (R150): whether it passes, is held, or is the 65th fenced one. -/
def fenceTrack (s : State) (t : FenceTrack) (qp : QPkt) : FenceAnswer × FenceTrack :=
  let k := qp.pkt
  let fenced := k.opcode == opWRITE_FENCED || k.fence
  let copy := t.any fun x => x.tracked && x.src == k.src && x.seq == k.seq
  if fenced && !copy && decide (64 ≤ t.countP fun x => x.tracked) then (.refuse, t)
  else
    let e := fenceEntry s qp (fenced && !copy)
    if mayGo t t.length e then (.pass, if e.tracked then t ++ [e] else t)
    else (.hold, t ++ [{ e with held := some qp }])

/-- Route a packet that has been admitted: BUF_FULL where its ingress cells are not to be had (R341, R349). -/
def State.admitRoute (s : State) (qp : QPkt) : State :=
  let n := qp.pkt.cells
  let v := s.lookup qp.conn qp.pkt
  let v := match v with
    | .drop _ _ => v
    | .dead _ => v
    | _ => if s.ingressRoom qp.conn n then v else .drop causeBUF_FULL qp.conn
  let takes := match v with
    | .drop _ _ => false
    | .dead _ => false
    | _ => true
  let s := if takes then s.ingressTake qp.conn n else s
  s.routePkt { qp with held := if takes then n else 0 } v

/-- Hold a request behind a fence: it keeps its ingress cells, or is discarded for want of them (R150, R341). -/
def State.fenceHold (s : State) (clid : Nat) (t : FenceTrack) (qp : QPkt) : State :=
  let n := qp.pkt.cells
  let t : FenceTrack := t.map fun e => { e with held := e.held.map fun q => if q = qp then { q with held := n } else q }
  if s.ingressRoom qp.conn n then
    (s.ingressTake qp.conn n).upFab fun b => { b with fences := Tab.put b.fences clid t }
  else s.drop causeBUF_FULL qp.conn qp.conn

/-- Steps 6 and 7 for a packet of a client: fence tracking at its attachment switch, then the route. -/
def State.letIn (s : State) (r : PoliceRec) (qp : QPkt) : State :=
  let attached := (s.portCfg qp.conn).role == roleAccel || (s.portCfg qp.conn).role == roleMgmt
  if attached && qp.pkt.isRequest then
    match fenceTrack s (Tab.getD s.fab.fences r.clid []) qp with
    | (.pass, t) => (s.upFab fun b => { b with fences := Tab.put b.fences r.clid t }).admitRoute qp
    | (.hold, t) => s.fenceHold r.clid t qp
    | (.refuse, _) => s.answer connHE0 (respond qp.pkt stRETRY 0 (emptyPayload qp.pkt))
  else s.admitRoute qp

/-- The status result of TARGET_DEAD that a contribution meets at a switch that is down (R160, R187, R190). -/
def State.deadResult (s : State) (k : Packet) : Packet := Packet.seal
  { dst := k.src, src := s.endpoint, opcode := opREDUCE_RESULT, flags := k.cls + 8 * b2n k.ect + 32 * b2n k.ce, seq := k.seq
    addr := s.rd Reg.POOL_HOME_HOME * 2 ^ 46 + k.localAddr, flow := k.flow, status := stTARGET_DEAD
    arg := k.arg % 2 ^ 20 + 2 ^ 20 * bits k.arg 24 4 + 2 ^ 28 * bits k.arg 28 2 + 2 ^ 31 }

/-- What a switch that is down answers: TARGET_DEAD to every request and contribution (R144, R187). -/
def State.fatalAnswer (s : State) (k : Packet) : State :=
  if k.isRequest then s.answer connHE0 (respond k stTARGET_DEAD 0 (emptyPayload k))
  else if k.opcode = opREDUCE_CONTRIB then s.send connHE0 (s.deadResult k)
  else s

/-- Steps 5 to 7 (R136): HOPS, policer, route. -/
def State.police7 (s : State) (p : Nat) (k : Packet) : State :=
  if 3 ≤ k.hops then s.drop causeHOPS p p
  else if s.fatal then s.fatalAnswer k
  else
    match s.clientOf k.src with
    | none => s.drop causeNO_CLIENT p p
    | some r =>
      if r.port ≠ p then s.drop causeNO_CLIENT p p
      else
        match s.police r p k with
        | (false, s) => s.drop causePOLICE p p
        | (true, s) =>
          let (smp, s) := s.sample p
          (s.letIn r { pkt := k, conn := p, rx := s.hclk, clid := some r.clid, sampled := smp }).sweepFences

/-- Step 4 onward (R136). -/
def State.afterTrailer (s : State) (p : Nat) (k : Packet) : State :=
  if lengthFails k then s.drop causeLEN p p
  else
    let s := s.countRx p k
    if k.opcode == opLINK || k.opcode == opTIME then s.consume p k else s.police7 p k

/-- FRAME_RECEIVE (R136): a frame received whole on a port.  A port that is down, asleep or of another kind receives
nothing. -/
def frameReceive (p : Nat) (f : Frame) (s : State) : State :=
  if !s.portListens p then s
  else
    let s := (s.fecCharge p f).upSp p fun q => { q with awaiting := none }
    if !f.fecOk then s.frameDrop causeFEC p
    else if s.on Reg.FAB_PSTAT_SECURE p then
      if !s.tagAccepted p f then s.frameDrop causeTAG p
      else
        let s := (s.upPort p fun q => { q with lastRx := some f.pkn }).rxSwitched p f.pkn
        if !f.pkt.trailerOk then s.frameDrop causeCRC p else s.afterTrailer p f.pkt
    else if !f.pkt.isSpdm then s.frameDrop causeTAG p
    else if !f.pkt.trailerOk then s.frameDrop causeCRC p
    else s.afterTrailer p f.pkt

/-- FRAME_RECEIVE. -/
def execFrameReceive (p : Nat) (f : Frame) (s : State) : Host.Outcome State Fault Refusal := .next (frameReceive p f s)

end Sys2Proof.Machine
end

