-- ==== Sys2Proof/Machine/Dispatch.lean ====
section
/-!
DEFINITION. What each command does: one call of its meaning for each constructor.
Marks: DESIGN CHOICE 7, in notes/assumptions.
-/
namespace Sys2Proof.Machine

def exec (i : Instr) (s : State) : Host.Outcome State Fault Refusal :=
  match i with
  | .registerWrite a off v b => Sys2Proof.Machine.execRegisterWrite a off v b s
  | .registerReadClear a off => Sys2Proof.Machine.execRegisterReadClear a off s
  | .loLatchRead a off => Sys2Proof.Machine.execLoLatchRead a off s
  | .unmappedAccess a off write => Sys2Proof.Machine.execUnmappedAccess a off write s
  | .d2dLaneRepair link => Sys2Proof.Machine.execD2dLaneRepair link s
  | .d2dLinkFail link => Sys2Proof.Machine.execD2dLinkFail link s
  | .taborRealign => Sys2Proof.Machine.execTaborRealign s
  | .frameReceive p f => Sys2Proof.Machine.execFrameReceive p f s
  | .schedulerMatch => Sys2Proof.Machine.execSchedulerMatch s
  | .egressEnqueue p => Sys2Proof.Machine.execEgressEnqueue p s
  | .portSelect p dirty => Sys2Proof.Machine.execPortSelect p dirty s
  | .packetHoldExpire => Sys2Proof.Machine.execPacketHoldExpire s
  | .read => Sys2Proof.Machine.execRead s
  | .write => Sys2Proof.Machine.execWrite s
  | .writeFenced => Sys2Proof.Machine.execWriteFenced s
  | .writePerformed id trailerOk => Sys2Proof.Machine.execWritePerformed id trailerOk s
  | .atomic => Sys2Proof.Machine.execAtomic s
  | .historyExpire k => Sys2Proof.Machine.execHistoryExpire k s
  | .engineResponse => Sys2Proof.Machine.execEngineResponse s
  | .engineTimeout seq => Sys2Proof.Machine.execEngineTimeout seq s
  | .fenceTrackTimeout clid src seq => Sys2Proof.Machine.execFenceTrackTimeout clid src seq s
  | .beatSend p => Sys2Proof.Machine.execBeatSend p s
  | .beatMiss p => Sys2Proof.Machine.execBeatMiss p s
  | .linkDown p cause => Sys2Proof.Machine.execLinkDown p cause s
  | .fabDeadClear a k v => Sys2Proof.Machine.execFabDeadClear a k v s
  | .linkRetrain p lanes => Sys2Proof.Machine.execLinkRetrain p lanes s
  | .linkTrained p partnerMode => Sys2Proof.Machine.execLinkTrained p partnerMode s
  | .linkSecure p peer => Sys2Proof.Machine.execLinkSecure p peer s
  | .ccWindowEnd => Sys2Proof.Machine.execCcWindowEnd s
  | .linkBeat p => Sys2Proof.Machine.execLinkBeat p s
  | .linkSpdm p => Sys2Proof.Machine.execLinkSpdm p s
  | .keyUpdateStart p first => Sys2Proof.Machine.execKeyUpdateStart p first s
  | .keySwitch p => Sys2Proof.Machine.execKeySwitch p s
  | .keyAck p => Sys2Proof.Machine.execKeyAck p s
  | .trayLinkDown p => Sys2Proof.Machine.execTrayLinkDown p s
  | .alloc cid => Sys2Proof.Machine.execAlloc cid s
  | .free cid => Sys2Proof.Machine.execFree cid s
  | .migrate cid => Sys2Proof.Machine.execMigrate cid s
  | .evict cid => Sys2Proof.Machine.execEvict cid s
  | .advise cid => Sys2Proof.Machine.execAdvise cid s
  | .prefixMark cid => Sys2Proof.Machine.execPrefixMark cid s
  | .prefixRef cid => Sys2Proof.Machine.execPrefixRef cid s
  | .prefixUnref cid => Sys2Proof.Machine.execPrefixUnref cid s
  | .fill cid k => Sys2Proof.Machine.execFill cid k s
  | .copy cid k => Sys2Proof.Machine.execCopy cid k s
  | .compare cid k => Sys2Proof.Machine.execCompare cid k s
  | .reduceInPlace cid k => Sys2Proof.Machine.execReduceInPlace cid k s
  | .moveCopyStep k => Sys2Proof.Machine.execMoveCopyStep k s
  | .moveCommit k => Sys2Proof.Machine.execMoveCommit k s
  | .moveDrainTimeout k => Sys2Proof.Machine.execMoveDrainTimeout k s
  | .scrubDone id => Sys2Proof.Machine.execScrubDone id s
  | .poolFence a fen => Sys2Proof.Machine.execPoolFence a fen s
  | .leaseHeartbeat => Sys2Proof.Machine.execLeaseHeartbeat s
  | .leaseWordWrite => Sys2Proof.Machine.execLeaseWordWrite s
  | .leaseExpire clid => Sys2Proof.Machine.execLeaseExpire clid s
  | .xlateAnswer => Sys2Proof.Machine.execXlateAnswer s
  | .xlateTimeout cid => Sys2Proof.Machine.execXlateTimeout cid s
  | .extRead a => Sys2Proof.Machine.execExtRead a s
  | .extFind a => Sys2Proof.Machine.execExtFind a s
  | .extCreate a => Sys2Proof.Machine.execExtCreate a s
  | .extCreateHost a => Sys2Proof.Machine.execExtCreateHost a s
  | .extFree a => Sys2Proof.Machine.execExtFree a s
  | .rgnRead a => Sys2Proof.Machine.execRgnRead a s
  | .rgnCreate a => Sys2Proof.Machine.execRgnCreate a s
  | .rgnUpdate a => Sys2Proof.Machine.execRgnUpdate a s
  | .rgnFence a => Sys2Proof.Machine.execRgnFence a s
  | .rgnDelete a => Sys2Proof.Machine.execRgnDelete a s
  | .rgnReadClient a => Sys2Proof.Machine.execRgnReadClient a s
  | .rgnWriteClient a => Sys2Proof.Machine.execRgnWriteClient a s
  | .reduceContrib e => Sys2Proof.Machine.execReduceContrib e s
  | .reducePartial e => Sys2Proof.Machine.execReducePartial e s
  | .reduceResult e => Sys2Proof.Machine.execReduceResult e s
  | .reduceSlotGrant e => Sys2Proof.Machine.execReduceSlotGrant e s
  | .reduceDeadline tree tag => Sys2Proof.Machine.execReduceDeadline tree tag s
  | .reduceKeepExpire tree tag => Sys2Proof.Machine.execReduceKeepExpire tree tag s
  | .redTreeRead a => Sys2Proof.Machine.execRedTreeRead a s
  | .chain cid k => Sys2Proof.Machine.execChain cid k s
  | .gatherReq => Sys2Proof.Machine.execGatherReq s
  | .checkInject a op => Sys2Proof.Machine.execCheckInject a op s
  | .append cid k => Sys2Proof.Machine.execAppend cid k s
  | .step => Sys2Proof.Machine.execStep s
  | .stepRecord cid k => Sys2Proof.Machine.execStepRecord cid k s
  | .stepMsgTimeout mid => Sys2Proof.Machine.execStepMsgTimeout mid s
  | .arenaRead a => Sys2Proof.Machine.execArenaRead a s
  | .arenaRegister a => Sys2Proof.Machine.execArenaRegister a s
  | .arenaUnregister a => Sys2Proof.Machine.execArenaUnregister a s
  | .pageScrubDone arena page => Sys2Proof.Machine.execPageScrubDone arena page s
  | .stepOpen => Sys2Proof.Machine.execStepOpen s
  | .seqJoin cid => Sys2Proof.Machine.execSeqJoin cid s
  | .seqLeave cid => Sys2Proof.Machine.execSeqLeave cid s
  | .seqResume cid => Sys2Proof.Machine.execSeqResume cid s
  | .pageRelease n => Sys2Proof.Machine.execPageRelease n s
  | .sqtGrpRead a => Sys2Proof.Machine.execSqtGrpRead a s
  | .sqtGrpReset a => Sys2Proof.Machine.execSqtGrpReset a s
  | .sqtEntRead a => Sys2Proof.Machine.execSqtEntRead a s
  | .drop a => Sys2Proof.Machine.execDrop a s
  | .dropFen a => Sys2Proof.Machine.execDropFen a s
  | .sqDoorbell => Sys2Proof.Machine.execSqDoorbell s
  | .cqDoorbell => Sys2Proof.Machine.execCqDoorbell s
  | .ringStateRead => Sys2Proof.Machine.execRingStateRead s
  | .command => Sys2Proof.Machine.execCommand s
  | .descriptorFetch => Sys2Proof.Machine.execDescriptorFetch s
  | .stagingAdmit fen => Sys2Proof.Machine.execStagingAdmit fen s
  | .nop cid => Sys2Proof.Machine.execNop cid s
  | .reduce cid k => Sys2Proof.Machine.execReduce cid k s
  | .chunkDispatch cluster => Sys2Proof.Machine.execChunkDispatch cluster s
  | .chunkCommit cid => Sys2Proof.Machine.execChunkCommit cid s
  | .chunkAge cid k => Sys2Proof.Machine.execChunkAge cid k s
  | .shieldLapse cid => Sys2Proof.Machine.execShieldLapse cid s
  | .ringRead a => Sys2Proof.Machine.execRingRead a s
  | .ringRegister a => Sys2Proof.Machine.execRingRegister a s
  | .ringUnregister a => Sys2Proof.Machine.execRingUnregister a s
  | .ringReset a => Sys2Proof.Machine.execRingReset a s
  | .ckpOpen cid k => Sys2Proof.Machine.execCkpOpen cid k s
  | .ckpEncode cid k => Sys2Proof.Machine.execCkpEncode cid k s
  | .ckpSeal cid k => Sys2Proof.Machine.execCkpSeal cid k s
  | .ckpParity cid k => Sys2Proof.Machine.execCkpParity cid k s
  | .ckpCommit cid k => Sys2Proof.Machine.execCkpCommit cid k s
  | .ckpDecode cid k => Sys2Proof.Machine.execCkpDecode cid k s
  | .ckpRebuild cid k => Sys2Proof.Machine.execCkpRebuild cid k s
  | .ckpVerify cid k => Sys2Proof.Machine.execCkpVerify cid k s
  | .ckpHeaderPoll cid => Sys2Proof.Machine.execCkpHeaderPoll cid s
  | .ckpSetRead a => Sys2Proof.Machine.execCkpSetRead a s
  | .ckpSetRegister a => Sys2Proof.Machine.execCkpSetRegister a s
  | .ckpSetUnregister a => Sys2Proof.Machine.execCkpSetUnregister a s
  | .rteRead a => Sys2Proof.Machine.execRteRead a s
  | .rteWrite a => Sys2Proof.Machine.execRteWrite a s
  | .rteCopy a => Sys2Proof.Machine.execRteCopy a s
  | .swap a rebuild => Sys2Proof.Machine.execSwap a rebuild s
  | .swapAt a rebuild => Sys2Proof.Machine.execSwapAt a rebuild s
  | .cancel a => Sys2Proof.Machine.execCancel a s
  | .swapActivate => Sys2Proof.Machine.execSwapActivate s
  | .captureEnable a mode log2 => Sys2Proof.Machine.execCaptureEnable a mode log2 s
  | .captureDisable a mode log2 => Sys2Proof.Machine.execCaptureDisable a mode log2 s
  | .gateEntryBoundary p => Sys2Proof.Machine.execGateEntryBoundary p s
  | .gateTakeover p => Sys2Proof.Machine.execGateTakeover p s
  | .timeReqSend p => Sys2Proof.Machine.execTimeReqSend p s
  | .timeReq p => Sys2Proof.Machine.execTimeReq p s
  | .timeRsp p => Sys2Proof.Machine.execTimeRsp p s
  | .timeRspTimeout p => Sys2Proof.Machine.execTimeRspTimeout p s
  | .servoHoldover => Sys2Proof.Machine.execServoHoldover s
  | .hostSample a v => Sys2Proof.Machine.execHostSample a v s
  | .taborSet a hi => Sys2Proof.Machine.execTaborSet a hi s
  | .ptmDialogue a => Sys2Proof.Machine.execPtmDialogue a s
  | .ptmResponse masterTime delay => Sys2Proof.Machine.execPtmResponse masterTime delay s
  | .ptmTimeout => Sys2Proof.Machine.execPtmTimeout s
  | .ppsOut => Sys2Proof.Machine.execPpsOut s
  | .ppsIn => Sys2Proof.Machine.execPpsIn s
  | .sleep p => Sys2Proof.Machine.execSleep p s
  | .sleepAck p => Sys2Proof.Machine.execSleepAck p s
  | .sleepNak p => Sys2Proof.Machine.execSleepNak p s
  | .sleepPropose p partnerAuto => Sys2Proof.Machine.execSleepPropose p partnerAuto s
  | .sleepRequest a p => Sys2Proof.Machine.execSleepRequest a p s
  | .sleepEnter p signalLost => Sys2Proof.Machine.execSleepEnter p signalLost s
  | .wakeStart p => Sys2Proof.Machine.execWakeStart p s
  | .wake p => Sys2Proof.Machine.execWake p s
  | .missedWake p => Sys2Proof.Machine.execMissedWake p s
  | .timeFaultClear a p => Sys2Proof.Machine.execTimeFaultClear a p s
  | .shpPolRead a => Sys2Proof.Machine.execShpPolRead a s
  | .rdS pos line => Sys2Proof.Machine.execRdS pos line s
  | .rdX pos line => Sys2Proof.Machine.execRdX pos line s
  | .upg pos line => Sys2Proof.Machine.execUpg pos line s
  | .rdNa pos line => Sys2Proof.Machine.execRdNa pos line s
  | .wrNa pos line mask d => Sys2Proof.Machine.execWrNa pos line mask d s
  | .wb pos line d => Sys2Proof.Machine.execWb pos line d s
  | .snoopResponse pos line link corrected => Sys2Proof.Machine.execSnoopResponse pos line link corrected s
  | .data pos line => Sys2Proof.Machine.execData pos line s
  | .done pos line => Sys2Proof.Machine.execDone pos line s
  | .cohReissue pos line => Sys2Proof.Machine.execCohReissue pos line s
  | .ringFlitUe pos => Sys2Proof.Machine.execRingFlitUe pos s
  | .agentHeartbeatMiss pos => Sys2Proof.Machine.execAgentHeartbeatMiss pos s
  | .cohTxnTimeout pos line => Sys2Proof.Machine.execCohTxnTimeout pos line s
  | .sramRefresh r => Sys2Proof.Machine.execSramRefresh r s
  | .arbBite resource inst die owner port v => Sys2Proof.Machine.execArbBite resource inst die owner port v s
  | .cohLineRead a => Sys2Proof.Machine.execCohLineRead a s
  | .getVersion req => Sys2Proof.Machine.execGetVersion req s
  | .getCapabilities req => Sys2Proof.Machine.execGetCapabilities req s
  | .negotiateAlgorithms req => Sys2Proof.Machine.execNegotiateAlgorithms req s
  | .getDigests => Sys2Proof.Machine.execGetDigests s
  | .getCertificate slot off len => Sys2Proof.Machine.execGetCertificate slot off len s
  | .challenge slot req => Sys2Proof.Machine.execChallenge slot req s
  | .getMeasurements index req => Sys2Proof.Machine.execGetMeasurements index req s
  | .keyExchange req => Sys2Proof.Machine.execKeyExchange req s
  | .finish id chain authentic => Sys2Proof.Machine.execFinish id chain authentic s
  | .spdmHeartbeat id => Sys2Proof.Machine.execSpdmHeartbeat id s
  | .sessionHeartbeatLoss id => Sys2Proof.Machine.execSessionHeartbeatLoss id s
  | .keyUpdate id req => Sys2Proof.Machine.execKeyUpdate id req s
  | .endSession id => Sys2Proof.Machine.execEndSession id s
  | .imageLoad sess seq off total bytes => Sys2Proof.Machine.execImageLoad sess seq off total bytes s
  | .imageValidationDone => Sys2Proof.Machine.execImageValidationDone s
  | .fenImageApply => Sys2Proof.Machine.execFenImageApply s
  | .fwUpdateBegin sess seq total => Sys2Proof.Machine.execFwUpdateBegin sess seq total s
  | .fwEraseDone => Sys2Proof.Machine.execFwEraseDone s
  | .fwUpdateData sess seq off bytes flashOk => Sys2Proof.Machine.execFwUpdateData sess seq off bytes flashOk s
  | .fwUpdateVerify sess seq => Sys2Proof.Machine.execFwUpdateVerify sess seq s
  | .fwUpdateActivate sess seq => Sys2Proof.Machine.execFwUpdateActivate sess seq s
  | .fwUpdateAbort sess seq => Sys2Proof.Machine.execFwUpdateAbort sess seq s
  | .usage sess seq closing => Sys2Proof.Machine.execUsage sess seq closing s
  | .keySlot sess seq k key => Sys2Proof.Machine.execKeySlot sess seq k key s
  | .policy sess seq word roots allow => Sys2Proof.Machine.execPolicy sess seq word roots allow s
  | .debugUnlock sess seq => Sys2Proof.Machine.execDebugUnlock sess seq s
  | .custodianRead sess seq => Sys2Proof.Machine.execCustodianRead sess seq s
  | .custodianInstall sess seq record => Sys2Proof.Machine.execCustodianInstall sess seq record s
  | .custodianSwitch sess seq record sanitize => Sys2Proof.Machine.execCustodianSwitch sess seq record sanitize s
  | .custodianRelease sess seq sanitize => Sys2Proof.Machine.execCustodianRelease sess seq sanitize s
  | .scrubComplete => Sys2Proof.Machine.execScrubComplete s
  | .operatorSet sess seq root sigR sigS => Sys2Proof.Machine.execOperatorSet sess seq root sigR sigS s
  | .decommission sess seq => Sys2Proof.Machine.execDecommission sess seq s
  | .trngFail test => Sys2Proof.Machine.execTrngFail test s
  | .ideFail stream => Sys2Proof.Machine.execIdeFail stream s
  | .lockInterface sess => Sys2Proof.Machine.execLockInterface sess s
  | .getDeviceInterfaceReport sess => Sys2Proof.Machine.execGetDeviceInterfaceReport sess s
  | .startInterface sess => Sys2Proof.Machine.execStartInterface sess s
  | .stopInterface sess => Sys2Proof.Machine.execStopInterface sess s
  | .canaryCheck stack ok => Sys2Proof.Machine.execCanaryCheck stack ok s
  | .sentinelCheck site r => Sys2Proof.Machine.execSentinelCheck site r s
  | .hubLogicMismatch die => Sys2Proof.Machine.execHubLogicMismatch die s
  | .stackPatrol a r => Sys2Proof.Machine.execStackPatrol a r s
  | .clusterFault cl cause => Sys2Proof.Machine.execClusterFault cl cause s
  | .chunkWatchdog cl => Sys2Proof.Machine.execChunkWatchdog cl s
  | .clusterTestDone ph passed => Sys2Proof.Machine.execClusterTestDone ph passed s
  | .spareBistDone die passed => Sys2Proof.Machine.execSpareBistDone die passed s
  | .mapClear a failing => Sys2Proof.Machine.execMapClear a failing s
  | .scoreTick => Sys2Proof.Machine.execScoreTick s
  | .scorePersist => Sys2Proof.Machine.execScorePersist s
  | .scoreRead a => Sys2Proof.Machine.execScoreRead a s
  | .scoreClear a => Sys2Proof.Machine.execScoreClear a s
  | .coalesceFlush => Sys2Proof.Machine.execCoalesceFlush s
  | .eqModeration => Sys2Proof.Machine.execEqModeration s
  | .refclkLoss k => Sys2Proof.Machine.execRefclkLoss k s
  | .refclkGood k ppm10 => Sys2Proof.Machine.execRefclkGood k ppm10 s
  | .bothRefsLost b => Sys2Proof.Machine.execBothRefsLost b s
  | .powerOn b => Sys2Proof.Machine.execPowerOn b s
  | .bringupHwFail dies links => Sys2Proof.Machine.execBringupHwFail dies links s
  | .resetN b => Sys2Proof.Machine.execResetN b s
  | .perstN => Sys2Proof.Machine.execPerstN s
  | .pwrgoodFall => Sys2Proof.Machine.execPwrgoodFall s
  | .warm a key hold b => Sys2Proof.Machine.execWarm a key hold b s
  | .fatalAutoRestart b => Sys2Proof.Machine.execFatalAutoRestart b s
  | .trayEnumeration found => Sys2Proof.Machine.execTrayEnumeration found s
  | .traySanitizeDone t ok => Sys2Proof.Machine.execTraySanitizeDone t ok s
  | .traySanitizeTimeout t => Sys2Proof.Machine.execTraySanitizeTimeout t s
  | .continue a hold => Sys2Proof.Machine.execContinue a hold s
  | .apply => Sys2Proof.Machine.execApply s
  | .portsTrained => Sys2Proof.Machine.execPortsTrained s
  | .fenReset a f => Sys2Proof.Machine.execFenReset a f s
  | .quiesce a f alsoResume => Sys2Proof.Machine.execQuiesce a f alsoResume s
  | .fenQuiesced f => Sys2Proof.Machine.execFenQuiesced f s
  | .resume a f => Sys2Proof.Machine.execResume a f s
  | .lockstep p => Sys2Proof.Machine.execLockstep p s
  | .pairRestart p => Sys2Proof.Machine.execPairRestart p s
  | .carWatchdog p => Sys2Proof.Machine.execCarWatchdog p s
  | .carLwdtKick p => Sys2Proof.Machine.execCarLwdtKick p s
  | .accessFaultRetry p fails op => Sys2Proof.Machine.execAccessFaultRetry p fails op s
  | .fwConfirm => Sys2Proof.Machine.execFwConfirm s
  | .crcInit p => Sys2Proof.Machine.execCrcInit p s
  | .carCrcB p v => Sys2Proof.Machine.execCarCrcB p v s
  | .carCrcH p v => Sys2Proof.Machine.execCarCrcH p v s
  | .carCrcW p v => Sys2Proof.Machine.execCarCrcW p v s
  | .carCrcResult p => Sys2Proof.Machine.execCarCrcResult p s
  | .getInfo m => Sys2Proof.Machine.execGetInfo m s
  | .sensorRead m => Sys2Proof.Machine.execSensorRead m s
  | .powerRead m => Sys2Proof.Machine.execPowerRead m s
  | .powerCapSet m => Sys2Proof.Machine.execPowerCapSet m s
  | .logRead m => Sys2Proof.Machine.execLogRead m s
  | .fwStatus m => Sys2Proof.Machine.execFwStatus m s
  | .setEndpointId eid => Sys2Proof.Machine.execSetEndpointId eid s
  | .getEndpointId => Sys2Proof.Machine.execGetEndpointId s
  | .getMctpVersionSupport kind => Sys2Proof.Machine.execGetMctpVersionSupport kind s
  | .getMessageTypeSupport => Sys2Proof.Machine.execGetMessageTypeSupport s
  | .getVendorDefinedMessageSupport selector => Sys2Proof.Machine.execGetVendorDefinedMessageSupport selector s
  | .getPdr handle => Sys2Proof.Machine.execGetPdr handle s
  | .getSensorReading n => Sys2Proof.Machine.execGetSensorReading n s
  | .sensorSample x => Sys2Proof.Machine.execSensorSample x s
  | .tripResetHold => Sys2Proof.Machine.execTripResetHold s
  | .thermalStageExit k => Sys2Proof.Machine.execThermalStageExit k s
  | .vrHot asserted => Sys2Proof.Machine.execVrHot asserted s
  | .powerLoopTick => Sys2Proof.Machine.execPowerLoopTick s
  | .regulatorRetry n mw => Sys2Proof.Machine.execRegulatorRetry n mw s
  | .logPersist => Sys2Proof.Machine.execLogPersist s
  | .semAcquire a k => Sys2Proof.Machine.execSemAcquire a k s
  | .semRelease a k => Sys2Proof.Machine.execSemRelease a k s
  | .semWait a k => Sys2Proof.Machine.execSemWait a k s
  | .semTimeout who => Sys2Proof.Machine.execSemTimeout who s
  | .semForced k => Sys2Proof.Machine.execSemForced k s
  | .idcode => Sys2Proof.Machine.execIdcode s
  | .bypass => Sys2Proof.Machine.execBypass s
  | .samplePreload d => Sys2Proof.Machine.execSamplePreload d s
  | .extest d => Sys2Proof.Machine.execExtest d s
  | .dtmcs v => Sys2Proof.Machine.execDtmcs v s
  | .dmi op a v => Sys2Proof.Machine.execDmi op a v s
  | .ivAddr off => Sys2Proof.Machine.execIvAddr off s
  | .ivData => Sys2Proof.Machine.execIvData s
  | .ivStat => Sys2Proof.Machine.execIvStat s
  | .ringLaneRepair link => Sys2Proof.Machine.execRingLaneRepair link s
  | .ideKm sess stream => Sys2Proof.Machine.execIdeKm sess stream s
  | .managementLinkDown => Sys2Proof.Machine.execManagementLinkDown s
  | .managementLinkUp => Sys2Proof.Machine.execManagementLinkUp s
  | .lockedConfigurationChange => Sys2Proof.Machine.execLockedConfigurationChange s
  | .trayReadDeadline cid k item => Sys2Proof.Machine.execTrayReadDeadline cid k item s
  | .trayReadTimeout t => Sys2Proof.Machine.execTrayReadTimeout t s

end Sys2Proof.Machine
end

