-- ==== Sys2Proof/Machine/Tick.lean ====
section
/-!
DEFINITION. One HCLK cycle: what passes when no command waits (R65, R379, R387, R524).
Marks: DESIGN CHOICE 1, 9, in notes/assumptions.
-/
namespace Sys2Proof.Machine

/-- What a fen's meters take up in a cycle in which tabor time advances by `inc` (R65). -/
def Meter.advance (m : Meter) (r : FenRec) (inc : Nat) : Meter :=
  { m with clus := m.clus + popcount 128 r.clusters * inc, chg := m.chg + popcount 64 r.chgroups * inc
           port := m.port + popcount 32 r.ports * inc }

/-- Every valid fen's meters after a cycle. -/
def State.meterCycle (s : State) (inc : Nat) : Tab Meter :=
  s.cfg.fens.foldl (fun (t : Tab Meter) (e : Nat × FenRec) =>
    if e.2.valid then Tab.put t e.1 ((Tab.getD t e.1 {}).advance e.2 inc) else t) s.meters

/-- The PPS output falls 1 ms after it rose. -/
def State.ppsEnd (s : State) : State := if s.shp.ppsFall ≤ s.hclk then s.drive pinPPS_OUT 0 else s

/-- One HCLK cycle.  Without power nothing but elapsed time moves. -/
def State.tick (s : State) : State :=
  if s.car.powered then
    let inc := s.rd Reg.GATE_TT_INC_FRAC
    ({ s with hclk := s.hclk + 1, tabor := s.tabor + inc, meters := s.meterCycle inc }).ppsEnd
  else { s with hclk := s.hclk + 1 }

end Sys2Proof.Machine
end

