-- ==== Sys2Proof/WellFormed.lean ====
section
/-!
DEFINITION. Which operands name something that the spec gives the switch: ports, fens, clients, offsets, lines and the like in
their ranges.
Marks: DEDUCED 11, in notes/assumptions.
-/
namespace Sys2Proof
open Sys2Proof.Machine

/-- A register access is 1, 2, 4 or 8 bytes wide; only the 4-byte one is served (R6). -/
def accessWf (a : Access) : Bool := [1, 2, 4, 8].contains a.size

/-- An offset of the 256 MiB window (R6, R533). -/
def offsetWf (off : Nat) : Bool := decide (off < 2 ^ 28)

/-- A 32-bit word. -/
def wordWf (v : Nat) : Bool := decide (v < 2 ^ 32)

/-- A fabric port (R2). -/
def portWf (p : Nat) : Bool := decide (p < 32)

/-- A tray port is a fabric port (R75, R76). -/
def trayWf (t : Nat) : Bool := decide (t < 32)

/-- A lockstep pair (R463). -/
def pairWf (p : Nat) : Bool := decide (p < 2)

/-- A fen (R38). -/
def fenWf (f : Nat) : Bool := decide (f < 64)

/-- A client (R50). -/
def clientWf (c : Nat) : Bool := decide (c < 4096)

/-- A home or endpoint id (R119). -/
def homeWf (h : Nat) : Bool := decide (h < 4096)

/-- A packet's SEQ (R120). -/
def seqWf (n : Nat) : Bool := decide (n < 2 ^ 32)

/-- An entry of the extent table (R79). -/
def extentWf (i : Nat) : Bool := decide (i < 1048576)

/-- A hardware semaphore (R489). -/
def semaphoreWf (i : Nat) : Bool := decide (i < 64)

/-- A reduce tree (R5). -/
def treeWf (t : Nat) : Bool := decide (t < 4096)

/-- A logical cluster: 16 on each of eight dies. -/
def clusterWf (c : Nat) : Bool := decide (c < 128)

/-- A physical cluster: 17 on each of eight dies (R449). -/
def physicalWf (c : Nat) : Bool := decide (c < 136)

/-- A die-to-die link (R36). -/
def d2dWf (l : Nat) : Bool := decide (l < 11)

/-- A ring position (R397). -/
def positionWf (p : Nat) : Bool := decide (p < 10)

/-- A line of the control SRAM (R418). -/
def lineWf (l : Nat) : Bool := decide (l < 491520)

/-- An IDE stream (R435). -/
def streamWf (n : Nat) : Bool := decide (n < 3)

/-- A piece of an image or of firmware (R427, R474). -/
def messageWf (d : Bytes) : Bool := decide (d.length ≤ 4096)

/-- A mailbox request over MCTP (R476). -/
def requestWf (m : Option MbxReq) : Bool := m.all fun r => decide (r.cmd < 2 ^ 16) && decide (r.tag < 2 ^ 16) && wordWf r.len

/-- What a bring-up meets: strap samples of four straps, and clusters that exist. -/
def bringUpWf (b : BringUp) : Bool := b.straps.all (fun v => decide (v < 16)) && b.failing.all physicalWf

/-- One round of sampling: at most 96 thermal readings, 48 voltages and 17 regulators (R480). -/
def samplesWf (x : Samples) : Bool :=
  decide (x.temps.length ≤ 96) && decide (x.volts.length ≤ 48) && decide (x.power.length ≤ 17)

/-- Whether every operand of a command lies in its range. -/
def Instr.wf : Instr → Bool
  | .registerWrite a off v b => accessWf a && offsetWf off && wordWf v && bringUpWf b
  | .registerReadClear a off => accessWf a && offsetWf off
  | .loLatchRead a off => accessWf a && offsetWf off
  | .unmappedAccess a off _ => accessWf a && offsetWf off
  | .d2dLaneRepair link => d2dWf link
  | .d2dLinkFail link => d2dWf link
  | .taborRealign => true
  | .frameReceive p _ => portWf p
  | .schedulerMatch => true
  | .egressEnqueue p => portWf p
  | .portSelect p _ => portWf p
  | .packetHoldExpire => true
  | .read => true
  | .write => true
  | .writeFenced => true
  | .writePerformed _ _ => true
  | .atomic => true
  | .historyExpire _ => true
  | .engineResponse => true
  | .engineTimeout seq => seqWf seq
  | .fenceTrackTimeout clid src seq => clientWf clid && homeWf src && seqWf seq
  | .beatSend p => portWf p
  | .beatMiss p => portWf p
  | .linkDown p _ => portWf p
  | .fabDeadClear a i v => accessWf a && decide (i < 128) && wordWf v
  | .linkRetrain p lanes => portWf p && decide (lanes < 9)
  | .linkTrained p partnerMode => portWf p && decide (partnerMode < 4)
  | .linkSecure p _ => portWf p
  | .ccWindowEnd => true
  | .linkBeat p => portWf p
  | .linkSpdm p => portWf p
  | .keyUpdateStart p first => portWf p && decide (first < 2 ^ 64)
  | .keySwitch p => portWf p
  | .keyAck p => portWf p
  | .trayLinkDown p => trayWf p
  | .alloc _ => true
  | .free _ => true
  | .migrate _ => true
  | .evict _ => true
  | .advise _ => true
  | .prefixMark _ => true
  | .prefixRef _ => true
  | .prefixUnref _ => true
  | .fill _ _ => true
  | .copy _ _ => true
  | .compare _ _ => true
  | .reduceInPlace _ _ => true
  | .moveCopyStep i => extentWf i
  | .moveCommit i => extentWf i
  | .moveDrainTimeout i => extentWf i
  | .scrubDone _ => true
  | .poolFence a fen => accessWf a && fenWf fen
  | .leaseHeartbeat => true
  | .leaseWordWrite => true
  | .leaseExpire clid => clientWf clid
  | .xlateAnswer => true
  | .xlateTimeout _ => true
  | .extRead a => accessWf a
  | .extFind a => accessWf a
  | .extCreate a => accessWf a
  | .extCreateHost a => accessWf a
  | .extFree a => accessWf a
  | .rgnRead a => accessWf a
  | .rgnCreate a => accessWf a
  | .rgnUpdate a => accessWf a
  | .rgnFence a => accessWf a
  | .rgnDelete a => accessWf a
  | .rgnReadClient a => accessWf a
  | .rgnWriteClient a => accessWf a
  | .reduceContrib e => decide (e < 4)
  | .reducePartial e => decide (e < 4)
  | .reduceResult e => decide (e < 4)
  | .reduceSlotGrant e => decide (e < 4)
  | .reduceDeadline tree tag => treeWf tree && wordWf tag
  | .reduceKeepExpire tree tag => treeWf tree && wordWf tag
  | .redTreeRead a => accessWf a
  | .chain _ _ => true
  | .gatherReq => true
  | .checkInject a op => accessWf a && decide (op < 16)
  | .append _ _ => true
  | .step => true
  | .stepRecord _ _ => true
  | .stepMsgTimeout _ => true
  | .arenaRead a => accessWf a
  | .arenaRegister a => accessWf a
  | .arenaUnregister a => accessWf a
  | .pageScrubDone arena page => decide (arena < 1024) && decide (page < 2 ^ 20)
  | .stepOpen => true
  | .seqJoin _ => true
  | .seqLeave _ => true
  | .seqResume _ => true
  | .pageRelease _ => true
  | .sqtGrpRead a => accessWf a
  | .sqtGrpReset a => accessWf a
  | .sqtEntRead a => accessWf a
  | .drop a => accessWf a
  | .dropFen a => accessWf a
  | .sqDoorbell => true
  | .cqDoorbell => true
  | .ringStateRead => true
  | .command => true
  | .descriptorFetch => true
  | .stagingAdmit fen => fenWf fen
  | .nop _ => true
  | .reduce _ _ => true
  | .chunkDispatch cluster => clusterWf cluster
  | .chunkCommit _ => true
  | .chunkAge _ _ => true
  | .shieldLapse _ => true
  | .ringRead a => accessWf a
  | .ringRegister a => accessWf a
  | .ringUnregister a => accessWf a
  | .ringReset a => accessWf a
  | .ckpOpen _ _ => true
  | .ckpEncode _ _ => true
  | .ckpSeal _ _ => true
  | .ckpParity _ _ => true
  | .ckpCommit _ _ => true
  | .ckpDecode _ _ => true
  | .ckpRebuild _ _ => true
  | .ckpVerify _ _ => true
  | .ckpHeaderPoll _ => true
  | .ckpSetRead a => accessWf a
  | .ckpSetRegister a => accessWf a
  | .ckpSetUnregister a => accessWf a
  | .rteRead a => accessWf a
  | .rteWrite a => accessWf a
  | .rteCopy a => accessWf a
  | .swap a _ => accessWf a
  | .swapAt a _ => accessWf a
  | .cancel a => accessWf a
  | .swapActivate => true
  | .captureEnable a _ log2 => accessWf a && decide (log2 < 32)
  | .captureDisable a _ log2 => accessWf a && decide (log2 < 32)
  | .gateEntryBoundary p => portWf p
  | .gateTakeover p => portWf p
  | .timeReqSend p => portWf p
  | .timeReq p => portWf p
  | .timeRsp p => portWf p
  | .timeRspTimeout p => portWf p
  | .servoHoldover => true
  | .hostSample a v => accessWf a && wordWf v
  | .taborSet a hi => accessWf a && wordWf hi
  | .ptmDialogue a => accessWf a
  | .ptmResponse masterTime delay => decide (masterTime < 2 ^ 64) && wordWf delay
  | .ptmTimeout => true
  | .ppsOut => true
  | .ppsIn => true
  | .sleep p => portWf p
  | .sleepAck p => portWf p
  | .sleepNak p => portWf p
  | .sleepPropose p _ => portWf p
  | .sleepRequest a p => accessWf a && portWf p
  | .sleepEnter p _ => portWf p
  | .wakeStart p => portWf p
  | .wake p => portWf p
  | .missedWake p => portWf p
  | .timeFaultClear a p => accessWf a && portWf p
  | .shpPolRead a => accessWf a
  | .rdS pos line => positionWf pos && lineWf line
  | .rdX pos line => positionWf pos && lineWf line
  | .upg pos line => positionWf pos && lineWf line
  | .rdNa pos line => positionWf pos && lineWf line
  | .wrNa pos line mask d => positionWf pos && lineWf line && decide (mask < 2 ^ 128) && decide (d.length = 128)
  | .wb pos line d => positionWf pos && lineWf line && decide (d.length = 128)
  | .snoopResponse pos line link corrected => positionWf pos && lineWf line && decide (link < 11) && decide (corrected < 2 ^ 32)
  | .data pos line => positionWf pos && lineWf line
  | .done pos line => positionWf pos && lineWf line
  | .cohReissue pos line => positionWf pos && lineWf line
  | .ringFlitUe pos => positionWf pos
  | .agentHeartbeatMiss pos => positionWf pos
  | .cohTxnTimeout pos line => positionWf pos && lineWf line
  | .sramRefresh _ => true
  | .arbBite resource inst die owner port _ => decide (1 ≤ resource) && decide (resource ≤ 5) && decide (inst < 2 ^ 12) && decide (die < 12) && decide (owner < 16) && portWf port
  | .cohLineRead a => accessWf a
  | .getVersion _ => true
  | .getCapabilities _ => true
  | .negotiateAlgorithms _ => true
  | .getDigests => true
  | .getCertificate slot off len => decide (slot < 8) && decide (off < 2 ^ 16) && decide (len < 2 ^ 16)
  | .challenge slot _ => decide (slot < 8)
  | .getMeasurements index _ => decide (index < 256)
  | .keyExchange _ => true
  | .finish _ _ _ => true
  | .spdmHeartbeat _ => true
  | .sessionHeartbeatLoss _ => true
  | .keyUpdate _ _ => true
  | .endSession _ => true
  | .imageLoad _ _ off total bytes => wordWf off && wordWf total && messageWf bytes
  | .imageValidationDone => true
  | .fenImageApply => true
  | .fwUpdateBegin _ _ total => wordWf total
  | .fwEraseDone => true
  | .fwUpdateData _ _ off bytes _ => wordWf off && messageWf bytes
  | .fwUpdateVerify _ _ => true
  | .fwUpdateActivate _ _ => true
  | .fwUpdateAbort _ _ => true
  | .usage _ _ _ => true
  | .keySlot _ _ k _ => decide (k < 4)
  | .policy _ _ word _ _ => wordWf word
  | .debugUnlock _ _ => true
  | .custodianRead _ _ => true
  | .custodianInstall _ _ _ => true
  | .custodianSwitch _ _ _ _ => true
  | .custodianRelease _ _ _ => true
  | .scrubComplete => true
  | .operatorSet _ _ root sigR sigS => decide (root.length = 97) && decide (sigR.length = 48) && decide (sigS.length = 48)
  | .decommission _ _ => true
  | .trngFail _ => true
  | .ideFail stream => streamWf stream
  | .lockInterface _ => true
  | .getDeviceInterfaceReport _ => true
  | .startInterface _ => true
  | .stopInterface _ => true
  | .canaryCheck stack _ => decide (stack < 8)
  | .sentinelCheck _ _ => true
  | .hubLogicMismatch die => decide (die < 12)
  | .stackPatrol a _ => decide (a < 2 ^ 40)
  | .clusterFault cl _ => clusterWf cl
  | .chunkWatchdog cl => clusterWf cl
  | .clusterTestDone ph _ => physicalWf ph
  | .spareBistDone die _ => decide (die < 8)
  | .mapClear a failing => accessWf a && failing.all physicalWf
  | .scoreTick => true
  | .scorePersist => true
  | .scoreRead a => accessWf a
  | .scoreClear a => accessWf a
  | .coalesceFlush => true
  | .eqModeration => true
  | .refclkLoss i => decide (i < 2)
  | .refclkGood i _ => decide (i < 2)
  | .bothRefsLost b => bringUpWf b
  | .powerOn b => bringUpWf b
  | .bringupHwFail dies links => decide (dies < 2 ^ 20) && decide (links < 2 ^ 11)
  | .resetN b => bringUpWf b
  | .perstN => true
  | .pwrgoodFall => true
  | .warm a key _ b => accessWf a && decide (key < 2 ^ 16) && bringUpWf b
  | .fatalAutoRestart b => bringUpWf b
  | .trayEnumeration found => found.all fun t => trayWf t.port
  | .traySanitizeDone t _ => trayWf t
  | .traySanitizeTimeout t => trayWf t
  | .continue a _ => accessWf a
  | .apply => true
  | .portsTrained => true
  | .fenReset a f => accessWf a && fenWf f
  | .quiesce a f _ => accessWf a && fenWf f
  | .fenQuiesced f => fenWf f
  | .resume a f => accessWf a && fenWf f
  | .lockstep p => pairWf p
  | .pairRestart p => pairWf p
  | .carWatchdog p => pairWf p
  | .carLwdtKick p => pairWf p
  | .accessFaultRetry p _ _ => pairWf p
  | .fwConfirm => true
  | .crcInit p => pairWf p
  | .carCrcB p v => pairWf p && decide (v < 256)
  | .carCrcH p v => pairWf p && decide (v < 2 ^ 16)
  | .carCrcW p v => pairWf p && wordWf v
  | .carCrcResult p => pairWf p
  | .getInfo m => requestWf m
  | .sensorRead m => requestWf m
  | .powerRead m => requestWf m
  | .powerCapSet m => requestWf m
  | .logRead m => requestWf m
  | .fwStatus m => requestWf m
  | .setEndpointId eid => decide (eid < 256)
  | .getEndpointId => true
  | .getMctpVersionSupport kind => decide (kind < 256)
  | .getMessageTypeSupport => true
  | .getVendorDefinedMessageSupport selector => decide (selector < 256)
  | .getPdr handle => wordWf handle
  | .getSensorReading n => decide (n < 2 ^ 16)
  | .sensorSample x => samplesWf x
  | .tripResetHold => true
  | .thermalStageExit k => decide (k < 8)
  | .vrHot _ => true
  | .powerLoopTick => true
  | .regulatorRetry n _ => decide (n < 17)
  | .logPersist => true
  | .semAcquire a i => accessWf a && semaphoreWf i
  | .semRelease a i => accessWf a && semaphoreWf i
  | .semWait a i => accessWf a && semaphoreWf i
  | .semTimeout who => decide (1 ≤ who) && decide (who ≤ 4)
  | .semForced i => semaphoreWf i
  | .idcode => true
  | .bypass => true
  | .samplePreload _ => true
  | .extest _ => true
  | .dtmcs v => wordWf v
  | .dmi op a v => decide (op < 4) && decide (a < 2 ^ 7) && wordWf v
  | .ivAddr off => wordWf off
  | .ivData => true
  | .ivStat => true
  | .ringLaneRepair link => positionWf link
  | .ideKm _ stream => streamWf stream
  | .managementLinkDown => true
  | .managementLinkUp => true
  | .lockedConfigurationChange => true
  | .trayReadDeadline _ _ _ => true
  | .trayReadTimeout _ => true

end Sys2Proof
end

