-- ==== Sys2Proof/Safety.lean ====
section
/-!
DEFINITION. What counts as a sound state, and the words in which the statements say what a command leaves alone and when an
access is admitted.
-/
namespace Sys2Proof.Machine

/-! Frames. -/

/-- The parts of the state. -/
inductive Part where
  | pending | regs | latches | hclk | tabor | nextFree | out | near | tray | host | img | cfg | meters | flt | pool | fab | cmd
  | xbr | shp | red | att | sqt | ckp | coh | sec | car | pins
  deriving DecidableEq, Repr

/-- Whether a part of two states is the same. -/
def Part.same : Part → State → State → Prop
  | .pending, s, t => t.pending = s.pending
  | .regs, s, t => t.regs = s.regs
  | .latches, s, t => t.latches = s.latches
  | .hclk, s, t => t.hclk = s.hclk
  | .tabor, s, t => t.tabor = s.tabor
  | .nextFree, s, t => t.nextFree = s.nextFree
  | .out, s, t => t.out = s.out
  | .near, s, t => t.near = s.near
  | .tray, s, t => t.tray = s.tray
  | .host, s, t => t.host = s.host
  | .img, s, t => t.img = s.img
  | .cfg, s, t => t.cfg = s.cfg
  | .meters, s, t => t.meters = s.meters
  | .flt, s, t => t.flt = s.flt
  | .pool, s, t => t.pool = s.pool
  | .fab, s, t => t.fab = s.fab
  | .cmd, s, t => t.cmd = s.cmd
  | .xbr, s, t => t.xbr = s.xbr
  | .shp, s, t => t.shp = s.shp
  | .red, s, t => t.red = s.red
  | .att, s, t => t.att = s.att
  | .sqt, s, t => t.sqt = s.sqt
  | .ckp, s, t => t.ckp = s.ckp
  | .coh, s, t => t.coh = s.coh
  | .sec, s, t => t.sec = s.sec
  | .car, s, t => t.car = s.car
  | .pins, s, t => t.pins = s.pins

/-- No part of the state but the listed ones differs between `s` and `t`. -/
def State.onlyChanges (s t : State) (ps : List Part) : Prop := ∀ p, p ∉ ps → p.same s t

/-- No register field but those at the listed keys reads differently in `t`. -/
def State.regsKeptBut (s t : State) (ks : List Nat) : Prop := ∀ f i j, f.key i j ∉ ks → t.rd f i j = s.rd f i j

/-- No register field of the listed fields, at whatever indices, is spared; every other field reads as before. -/
def State.fieldsKeptBut (s t : State) (fs : List Fld) : Prop :=
  ∀ f i j, (∀ g ∈ fs, ∀ a b, f.key i j ≠ g.key a b) → t.rd f i j = s.rd f i j

/-- What an event record may touch (R453–R458): the registers, the fault unit, what leaves the switch, and host memory. -/
def recordParts : List Part := [.regs, .flt, .out, .host]

/-- The fields that an event record may write. -/
def recordKeys : List Nat :=
  [Reg.FLT_PEND_INFO.key 0 0, Reg.FLT_PEND_WARN.key 0 0, Reg.FLT_PEND_ERROR.key 0 0, Reg.FLT_PEND_FATAL.key 0 0,
   Reg.FLT_ESEQ_LAST.key 0 0, Reg.FLT_EQ_TAIL_INDEX.key 0 0, Reg.FLT_EQ_LOST.key 0 0]

/-- The fields that a charge to a part's score may write (R450–R452): a change of SUSPECT is counted and recorded. -/
def scoreKeys : List Nat := Reg.FLT_CNT_SUSPECT.key 0 0 :: recordKeys

/-! Admission. -/

/-- Whether an access to the window is served (R6, R436) and, for a write, not turned away by a semaphore (R492). -/
def State.admitsRead (s : State) (a : Access) (off : Nat) : Bool := !s.inert && plainAccess a off && s.tdispServes a
def State.admitsWrite (s : State) (a : Access) (off : Nat) : Bool := s.admitsRead a off && !s.guardDenies a off

/-- Whether a session may make privileged requests as a role: SPDM is served whole and the session has finished with that role
(R426–R428). -/
def State.grants (s : State) (id : Nat) (r : Role) : Bool :=
  s.spdmLevel == some 4 && (Tab.find? s.sec.sessions id).any fun x => x.finished && x.role == r

/-- The response of a privileged request (R427): CODE, SEQ, RESULT and what follows. -/
def privReply (code seq result : Nat) (extra : Bytes := []) : OutMsg :=
  .message chSPDM (spVENDOR - 0x80) (leBytes 2 code ++ leBytes 2 seq ++ leBytes 1 result ++ extra)

/-! Packets sent. -/

/-- The packets that wait at a connection to cross to a connection in a queue. -/
def State.voq (s : State) (i o q : Nat) : List QPkt := Tab.getD s.xbr.voqs (voqKey i o q) []

/-- Whether a packet of MH's goes straight to port `p`: its route leads there, no capture runs and no client's fence is tracked. -/
def State.clearPath (s : State) (k : Packet) (p : Nat) : Prop :=
  s.lookup connHE0 k = .toPort p ∧ s.on Reg.XBR_CAP_CTL_ENABLE = false ∧ s.fab.fences = []

/-- The packets toward a port after one more of MH's. -/
def State.voqWith (s : State) (p : Nat) (k : Packet) : List QPkt :=
  s.voq connHE0 p k.queue ++ [{ pkt := k, conn := connHE0, rx := s.hclk }]

/-! Commands of the engine. -/

/-- Chunk `k` of a ring's command of an opcode runs on a cluster; no tray read of it has timed out, and it is no test run. -/
def State.runsChunk (s : State) (cid k op : Nat) (c : Cmd) (x : Chunk) : Prop :=
  (∃ cl, s.runningChunk cid k = some (c, x, cl)) ∧ c.opcode = op ∧ c.src = 0 ∧ x.timedOut = false ∧ x.selfTest = none

/-- Chunk `k` has staged its results as `y`, its cluster is free, and nothing else has changed. -/
def State.stagedAs (s t : State) (cid k : Nat) (y : Chunk) : Prop :=
  (t.cmdOf cid).bind (fun c => Tab.find? c.chunks k) = some { y with phase := .staged, progress := s.hclk } ∧
    (∀ r ∈ t.cmd.running, r.2 ≠ (cid, k)) ∧ s.onlyChanges t [.cmd]

/-- The extents after one change made to each of a list of them. -/
def State.extentsAfter (s t : State) (is : List Nat) (f : Extent → Extent) : Prop :=
  ∀ i, t.ext i = if i ∈ is then f (s.ext i) else s.ext i

/-! Worked examples. -/

/-- The state after a list of commands, each of which answers a next state. -/
def State.after (s : State) : List Instr → Option State
  | [] => some s
  | c :: cs =>
    match exec c s with
    | .next t => t.after cs
    | _ => none

/-! Sound states. -/

/-- The three memories are in their canonical form. -/
def State.memoryOk (s : State) : Bool := Memory.wf s.near && Memory.wf s.tray && Memory.wf s.host

/-- The stored registers, the pins and the latches are in their form: one entry for each key listed, ascending. -/
def State.tablesOk (s : State) : Bool := Tab.wf s.regs && Tab.wf s.latches && Tab.wf s.pins

/-- Every waiting command is well-formed. -/
def State.queueOk (s : State) : Bool := s.pending.all Instr.wf

/-- A sound state. -/
def State.sound (s : State) : Bool := s.memoryOk && s.tablesOk && s.queueOk

end Sys2Proof.Machine
end

