-- ==== Sys2Proof/Certificates/Slice0/Obligations.lean ====
section
/-!
DEFINITION. The statements for the provers, in the order of the spec's files: the queue and the window, links and fabric, the home and the
pool, reductions, chains, the command engine, the attention assist, checkpoints, routes, time, the coherent domain, Carillon, the resets,
security, images and faults.
-/
open Sys2Proof Sys2Proof.Machine

/-- A step takes the command at the front of the queue and runs it on the state with the queue's rest. -/
def Obligations.StepRunsTheFrontCommand : Prop := ∀ (c : Instr) (s : State),
  step { s with pending := c :: s.pending } = exec c s

/-- R65, R379, R524: with no command waiting one HCLK cycle passes. Elapsed time counts it; in a switch with power tabor time advances by the
increment and the meters of the valid fens take up their resources; in one without, nothing else moves. That an empty queue is one cycle is
the model's choice (log entry 1). -/
def Obligations.AnEmptyQueueIsOneCycle : Prop := ∀ s : State, s.pending = [] →
  (s.car.powered = true → ∃ t, step s = .next t ∧ t.hclk = s.hclk + 1 ∧ t.tabor = s.tabor + s.rd Reg.GATE_TT_INC_FRAC ∧
    (∀ f r, s.cfg.fens = [(f, r)] → r.valid = true →
      Tab.find? t.meters f = some ((Tab.getD s.meters f {}).advance r (s.rd Reg.GATE_TT_INC_FRAC))) ∧
    (s.cfg.fens = [] → t.meters = s.meters) ∧ s.onlyChanges t [.hclk, .tabor, .meters, .pins, .out]) ∧
  (s.car.powered = false → step s = .next { s with hclk := s.hclk + 1 })

/-- R9, R37, R507, R514, what reset leaves. No image, no fen, no client, no extent, no command, no session, nothing in a queue, on a link or in
a memory; every register field reads the reset value that its table gives it. The values of the fields that the spec leaves to fuses, straps
and flash are the model's (log entry 2). -/
def Obligations.ResetLeavesTheTablesValues : Prop := (∀ f i j, State.reset.rd f i j = f.resetOf i) ∧ State.reset.cfg = {} ∧ State.reset.img.running = none ∧
  State.reset.pool.extents = [] ∧ State.reset.pool.regions = [] ∧ State.reset.cmd.cmds = [] ∧ State.reset.cmd.rings = [] ∧
  State.reset.sec.sessions = [] ∧ State.reset.red.insts = [] ∧ State.reset.sqt.ents = [] ∧ State.reset.xbr.voqs = [] ∧
  State.reset.near = [] ∧ State.reset.tray = [] ∧ State.reset.pending = [] ∧ State.reset.fatal = false ∧
  (∀ f, f < 64 → State.reset.fenState f = fenUNUSED) ∧
  State.reset.rd Reg.GLB_ID_PART = 0x7720 ∧ State.reset.rd Reg.FLT_COALESCE_US = 1000 ∧
  State.reset.rd Reg.POOL_MOVE_DRAIN_US = 1000 ∧ State.reset.rd Reg.XBR_QLIM_CELLS = 1024

/-- No two fields of the register file share a place: a key names one field at one pair of indices. -/
def Obligations.RegisterKeysAreDistinct : Prop := ∀ f ∈ regTable, ∀ g ∈ regTable, ∀ i j a b, i < f.n1 → j < f.n2 → a < g.n1 → b < g.n2 →
    f.key i j = g.key a b → f = g ∧ i = a ∧ j = b

/-- The state after reset is sound. -/
def Obligations.ResetIsSound : Prop := State.reset.sound = true

/-- Soundness is kept by every step, from every sound state: the three memories stay in their canonical form, the stored registers, latches and
pins keep one entry for each key in ascending order, and every waiting command stays well-formed. -/
def Obligations.SoundnessIsKeptByEveryStep : Prop := ∀ s t : State, s.sound = true → step s = .next t → t.sound = true

/-- R6–R8, R11, R436, R492, R538, writes to the window. A read-write field takes the value, one in which 0 is stored as 1 takes 1 for it; a
write of 1 clears a W1C field and of 0 leaves it; a read-only register ignores the write; a register of the crossbar's buffers is written
while no image runs and otherwise only reported; an unknown operation of an indirect set ends MALFORMED. An access that is not a word is
refused, with Unsupported Request on the management link; one that a semaphore's owner guards is discarded, counted and reported. -/
def Obligations.WritesFollowTheirAccessCode : Prop := ∀ (s : State) (a : Access) (b : BringUp),
  (∀ v, v < 2 ^ 16 → s.admitsWrite a 0x4000C → ∃ t, exec (.registerWrite a 0x4000C v b) s = .next t ∧
    t.rd Reg.FLT_COALESCE_US = v ∧ s.onlyChanges t [.regs] ∧ s.regsKeptBut t [Reg.FLT_COALESCE_US.key 0 0]) ∧
  (s.admitsWrite a 0x200004 → ∃ t, exec (.registerWrite a 0x200004 0 b) s = .next t ∧
    t.rd Reg.POOL_MOVE_DRAIN_US = 1 ∧ s.onlyChanges t [.regs] ∧ s.regsKeptBut t [Reg.POOL_MOVE_DRAIN_US.key 0 0]) ∧
  (∀ v, s.admitsWrite a 0x40004 → v < 16 → s.rd Reg.FLT_PEND_WARN ≤ 1 → ∃ t, exec (.registerWrite a 0x40004 v b) s = .next t ∧
    t.rd Reg.FLT_PEND_WARN = (if bit v 1 then 0 else s.rd Reg.FLT_PEND_WARN) ∧ s.onlyChanges t [.regs] ∧
    s.regsKeptBut t [Reg.FLT_PEND_INFO.key 0 0, Reg.FLT_PEND_WARN.key 0 0, Reg.FLT_PEND_ERROR.key 0 0, Reg.FLT_PEND_FATAL.key 0 0]) ∧
  (∀ v, s.admitsWrite a 0 → exec (.registerWrite a 0 v b) s = .next s) ∧
  (∀ v, s.admitsWrite a 0x2400000 → s.inBringUp = true → s.bufferOk Reg.XBR_QLIM_CELLS v = true → v < 2 ^ 14 →
    ∃ t, exec (.registerWrite a 0x2400000 v b) s = .next t ∧ t.rd Reg.XBR_QLIM_CELLS = v ∧ s.onlyChanges t [.regs] ∧
    s.regsKeptBut t [Reg.XBR_QLIM_CELLS.key 0 0]) ∧
  (∀ v, s.admitsWrite a 0x2400000 → s.inBringUp = false → ∃ t, exec (.registerWrite a 0x2400000 v b) s = .next t ∧
    s.onlyChanges t recordParts ∧ s.regsKeptBut t recordKeys) ∧
  (s.admitsWrite a 0x400004 → ∃ t, exec (.registerWrite a 0x400004 0x10F b) s = .next t ∧
    t.rd Reg.EXT_STATUS_STATUS = stMALFORMED ∧ t.rd Reg.EXT_STATUS_DONE = 1 ∧ s.onlyChanges t [.regs]) ∧
  (∀ off v, s.inert = false → plainAccess a off = false → a.req ≠ .mgmt → exec (.registerWrite a off v b) s = .next s) ∧
  (∀ off v, s.inert = false → plainAccess a off = false → a.req = .mgmt → ∃ t, exec (.registerWrite a off v b) s = .next t ∧
    t.out = s.out ++ [.unsupported a.req off] ∧ s.onlyChanges t [.out]) ∧
  (∀ off v, s.admitsRead a off → s.guardDenies a off = true → ∃ t, exec (.registerWrite a off v b) s = .next t ∧
    t.rd Reg.CAR_CNT_SEM_DENY = min (s.rd Reg.CAR_CNT_SEM_DENY + 1) (2 ^ Reg.CAR_CNT_SEM_DENY.width - 1) ∧
    s.onlyChanges t recordParts ∧ s.regsKeptBut t (Reg.CAR_CNT_SEM_DENY.key 0 0 :: recordKeys))

/-- R7, R71, R72, R379, R534, R537, reads of the window. A read-clear counter is returned and cleared; a read of a low half latches the halves
above it for that requester alone, of one instant; an unmapped offset reads 0, and a read or write of one is counted with the offset and the
direction; no other state changes. -/
def Obligations.ReadsReturnClearAndLatch : Prop := ∀ (s : State) (a : Access),
  (s.admitsRead a 0x40040 → Tab.find? s.latches (latchKey a.req.num 0x40040) = none → ∃ t, exec (.registerReadClear a 0x40040) s = .next t ∧
    t.out = s.out ++ [.readData a.req 0x40040 (s.rd Reg.FLT_CNT_CE_STACK % 2 ^ 32)] ∧ t.rd Reg.FLT_CNT_CE_STACK = 0 ∧
    s.onlyChanges t [.regs, .out] ∧ s.regsKeptBut t [Reg.FLT_CNT_CE_STACK.key 0 0]) ∧
  (s.admitsRead a 0x2800000 → Tab.find? s.latches (latchKey a.req.num 0x2800000) = none → ∃ t, exec (.loLatchRead a 0x2800000) s = .next t ∧
    t.out = s.out ++ [.readData a.req 0x2800000 (s.tnow % 2 ^ 32)] ∧
    Tab.find? t.latches (latchKey a.req.num 0x2800004) = some (BitVec.ofNat 32 (s.tnow / 2 ^ 32)) ∧
    Tab.find? t.latches (latchKey a.req.num 0x2800008) = some (BitVec.ofNat 32 s.tabor) ∧
    (∀ k, k ≠ latchKey a.req.num 0x2800004 → k ≠ latchKey a.req.num 0x2800008 → Tab.find? t.latches k = Tab.find? s.latches k) ∧
    s.onlyChanges t [.latches, .out]) ∧
  (∀ w, s.admitsRead a 0x2800004 → Tab.find? s.latches (latchKey a.req.num 0x2800004) = some w →
    ∃ t, exec (.registerReadClear a 0x2800004) s = .next t ∧ t.out = s.out ++ [.readData a.req 0x2800004 w.toNat] ∧
    s.onlyChanges t [.out]) ∧
  (∀ off, mappedAt off = false → s.admitsRead a off → ∃ t, exec (.unmappedAccess a off false) s = .next t ∧
    t.out = s.out ++ [.readData a.req off 0] ∧ t.rd Reg.GLB_UNMAPPED_OFF_OFFSET = off / 4 ∧ t.rd Reg.GLB_UNMAPPED_OFF_WRITE = 0 ∧
    t.rd Reg.GLB_UNMAPPED_COUNT = min (s.rd Reg.GLB_UNMAPPED_COUNT + 1) (2 ^ Reg.GLB_UNMAPPED_COUNT.width - 1) ∧
    s.onlyChanges t [.regs, .out]) ∧
  (∀ off, mappedAt off = false → s.admitsWrite a off → ∃ t, exec (.unmappedAccess a off true) s = .next t ∧
    t.rd Reg.GLB_UNMAPPED_OFF_OFFSET = off / 4 ∧ t.rd Reg.GLB_UNMAPPED_OFF_WRITE = 1 ∧
    t.rd Reg.GLB_UNMAPPED_COUNT = min (s.rd Reg.GLB_UNMAPPED_COUNT + 1) (2 ^ Reg.GLB_UNMAPPED_COUNT.width - 1) ∧
    s.onlyChanges t [.regs] ∧ s.regsKeptBut t [Reg.GLB_UNMAPPED_COUNT.key 0 0, Reg.GLB_UNMAPPED_OFF_WRITE.key 0 0,
      Reg.GLB_UNMAPPED_OFF_OFFSET.key 0 0]) ∧
  (∀ off, s.inert = true → exec (.registerReadClear a off) s = .next s)

/-- R141–R143, R152, R155, R158, R434, R450, ports, neighbours and homes. A BEAT leaves an active link, and one that arrives makes the neighbour
alive; a third interval without one, or a link that goes down, declares the neighbour dead, and with it the home whose route has no other
port. A home revives by the driver's write once a port of its route is alive. A port that retrains is not UP and keeps its key; one that
trains with a partner of its mode is UP, with one of another mode is not, and says so; an authenticated peer makes the link SECURE, a
refused one takes the port down, counted.  And R77, R78, R147, R155–R157, LINK messages and key switches, injection windows and tray links.
A SPDM message is taken and, by the responder, answered; a side that changes its sending key names the first packet and waits; the partner
keeps that number and acknowledges it; the acknowledged switch happens at that number, flipping the key slot, counted. The end of a
congestion window restores a quiet home's rate by its increment, up to the line. The fall of a tray's link takes the tray down. -/
def Obligations.LinksNeighboursKeysAndTraysFollow : Prop :=
  (∀ (s : State) (p : Nat), s.knawenPort p = true →
    (s.linkActive p = true → s.fatal = false → ∃ t, exec (.beatSend p) s = .next t ∧
      t.out = s.out ++ [.frame p (s.port p).nextTx (linkPacket 0 (s.port p).beatsSent [])] ∧
      (t.port p).beatsSent = ((s.port p).beatsSent + 1) % 2 ^ 24 ∧ s.onlyChanges t [.regs, .meters, .out, .fab]) ∧
    (∀ k, s.headLink p 0 = some k → ∃ t, exec (.linkBeat p) s = .next t ∧ t.alive p = true ∧ t.rd Reg.FAB_PSTAT_BEAT_MISS p = 0 ∧
      (t.port p).lastBeat = s.hclk ∧ (t.port p).ctl = (s.port p).ctl.drop 1 ∧ s.onlyChanges t [.regs, .fab] ∧
      s.regsKeptBut t [Reg.FAB_PSTAT_BEAT_MISS.key p 0, Reg.FAB_PSTAT_DEAD.key p 0]) ∧
    (s.linkActive p = true → s.rd Reg.FAB_PSTAT_BEAT_MISS p < 2 → ∃ t, exec (.beatMiss p) s = .next t ∧
      t.rd Reg.FAB_PSTAT_BEAT_MISS p = s.rd Reg.FAB_PSTAT_BEAT_MISS p + 1 ∧ s.onlyChanges t [.regs] ∧
      s.regsKeptBut t [Reg.FAB_PSTAT_BEAT_MISS.key p 0, Reg.FAB_CNT_BEAT_MISS.key p 0]) ∧
    (s.on Reg.FAB_PSTAT_DEAD p = false → s.xbr.voqs = [] → s.xbr.egress = [] → (s.port p).arriving = [] → s.fab.eng = [] → s.red.insts = [] →
      (∀ r ∈ s.bank.routes, r.1 < 4096) →
      (s.linkActive p = true → s.rd Reg.FAB_PSTAT_BEAT_MISS p = 2 → ∃ t, exec (.beatMiss p) s = .next t ∧ t.alive p = false ∧
        (∀ h r, s.bank.routes = [(h, r)] → bitList 32 r.portset = [p] → t.homeDead h = true)) ∧
      (∀ c, ∃ t, exec (.linkDown p c) s = .next t ∧ t.alive p = false ∧ t.rd Reg.FAB_PSTAT_UP p = 0 ∧ t.rd Reg.FAB_PSTAT_SECURE p = 0 ∧
        (t.port p).ctl = [] ∧ (t.port p).lastRx = none ∧ (t.port p).nextTx = 0)) ∧
    (∀ a i b, s.admitsWrite a (0x2200100 + 4 * i) → i < 128 → b < 32 → s.homeDead (32 * i + b) = true →
      ((bitList 32 (s.routePorts (32 * i + b))).any s.alive = true → ∃ t, exec (.fabDeadClear a i (2 ^ b)) s = .next t ∧
        t.homeDead (32 * i + b) = false ∧ s.onlyChanges t [.regs] ∧ s.regsKeptBut t [Reg.FAB_DEAD.key i 0]) ∧
      ((bitList 32 (s.routePorts (32 * i + b))).any s.alive = false → exec (.fabDeadClear a i (2 ^ b)) s = .next s)) ∧
    (s.on Reg.FAB_PSTAT_UP p = true → ∃ t, exec (.linkRetrain p 0) s = .next t ∧ t.rd Reg.FAB_PSTAT_UP p = 0 ∧ t.rd Reg.FAB_PSTAT_RETRAIN p = 1 ∧
      t.rd Reg.FAB_PSTAT_SECURE p = s.rd Reg.FAB_PSTAT_SECURE p ∧ s.onlyChanges t recordParts ∧
      s.regsKeptBut t (Reg.FAB_PSTAT_UP.key p 0 :: Reg.FAB_PSTAT_RETRAIN.key p 0 :: scoreKeys)) ∧
    ((s.port p).powered = true → s.on Reg.FAB_PSTAT_UP p = false →
      (∃ t, exec (.linkTrained p (s.portCfg p).laneMode) s = .next t ∧ t.rd Reg.FAB_PSTAT_UP p = 1 ∧ t.rd Reg.FAB_PSTAT_RETRAIN p = 0 ∧
        s.onlyChanges t [.regs] ∧ s.regsKeptBut t [Reg.FAB_PSTAT_UP.key p 0, Reg.FAB_PSTAT_RETRAIN.key p 0]) ∧
      (∀ m, m ≠ (s.portCfg p).laneMode → ∃ t, exec (.linkTrained p m) s = .next t ∧ t.rd Reg.FAB_PSTAT_UP p = s.rd Reg.FAB_PSTAT_UP p ∧
        s.onlyChanges t recordParts ∧ s.regsKeptBut t recordKeys)) ∧
    (∀ peer, s.on Reg.FAB_PSTAT_UP p = true → s.on Reg.FAB_PSTAT_SECURE p = false → s.entropy = true →
      (s.peerRefused p peer = none → ∃ t, exec (.linkSecure p peer) s = .next t ∧ t.rd Reg.FAB_PSTAT_SECURE p = 1 ∧
        t.rd Reg.FAB_PSTAT_KEY_SLOT p = 0 ∧ (t.port p).nextTx = 0 ∧ (t.port p).lastRx = none ∧ s.onlyChanges t [.regs, .fab]) ∧
      (∀ c, s.peerRefused p peer = some c → ∃ t, exec (.linkSecure p peer) s = .next t ∧ t.rd Reg.FAB_PSTAT_UP p = 0 ∧
        (t.port p).powered = false ∧ t.rd Reg.FAB_PSTAT_SECURE p = s.rd Reg.FAB_PSTAT_SECURE p ∧
        t.rd Reg.SEC_CNT_LINK_AUTH = min (s.rd Reg.SEC_CNT_LINK_AUTH + 1) (2 ^ Reg.SEC_CNT_LINK_AUTH.width - 1) ∧
        s.onlyChanges t [.regs, .fab, .flt, .out, .host]))) ∧
  (∀ (s : State) (p : Nat), p < 32 →
    (∀ k, s.headLink p 1 = some k → s.spdmRequester p = false → ∃ t m, exec (.linkSpdm p) s = .next t ∧
      m = Config.standardReply 0 (k.payload.take (k.arg / 256)) (s.port p).spdm ∧ (t.port p).ctl = (s.port p).ctl.drop 1 ∧
      t.out = s.out ++ [.frame p (s.port p).nextTx (linkPacket 1 m.length (padTo (roundUp m.length 64) m))] ∧
      s.onlyChanges t [.regs, .meters, .out, .fab]) ∧
    (∀ k, s.headLink p 1 = some k → s.spdmRequester p = true → ∃ t, exec (.linkSpdm p) s = .next t ∧
      (t.port p).ctl = (s.port p).ctl.drop 1 ∧ (t.port p).spdm = (s.port p).spdm + 1 ∧ s.onlyChanges t [.fab]) ∧
    (∀ n, s.knawenPort p = true → s.linkActive p = true → (s.port p).txSwitch = none → (s.port p).nextTx < n → s.spdmRequester p = false →
      ∃ t, exec (.keyUpdateStart p n) s = .next t ∧ (t.port p).txSwitch = some n ∧ (t.port p).txAcked = false ∧
      t.out = s.out ++ [.frame p (s.port p).nextTx (linkPacket 2 0 (padTo 64 (leBytes 8 n)))] ∧
      s.onlyChanges t [.regs, .meters, .out, .fab]) ∧
    (∀ k, s.headLink p 2 = some k → ∃ t, exec (.keySwitch p) s = .next t ∧ (t.port p).rxSwitch = some (fld k.payload 0 8) ∧
      t.out = s.out ++ [.frame p (s.port p).nextTx (linkPacket 3 0 k.payload)] ∧ s.onlyChanges t [.regs, .meters, .out, .fab]) ∧
    (∀ k n, s.headLink p 3 = some k → n = fld k.payload 0 8 → (s.port p).txSwitch = some n →
      (n ≤ (s.port p).nextTx → ∃ t, exec (.keyAck p) s = .next t ∧ (t.port p).txSwitch = none ∧
        t.rd Reg.FAB_PSTAT_KEY_SLOT p = (1 - s.rd Reg.FAB_PSTAT_KEY_SLOT p) % 2 ^ Reg.FAB_PSTAT_KEY_SLOT.width ∧
        t.rd Reg.FAB_CNT_REKEY p = min (s.rd Reg.FAB_CNT_REKEY p + 1) (2 ^ Reg.FAB_CNT_REKEY.width - 1) ∧ s.onlyChanges t [.regs, .fab] ∧
        s.regsKeptBut t [Reg.FAB_PSTAT_KEY_SLOT.key p 0, Reg.FAB_CNT_REKEY.key p 0]) ∧
      ((s.port p).nextTx < n → ∃ t, exec (.keyAck p) s = .next t ∧ (t.port p).txSwitch = some n ∧ (t.port p).txAcked = true ∧
        s.onlyChanges t [.fab])) ∧
    (∀ h c, s.fab.cc = [(h, c)] → s.on Reg.FAB_CC_CTL_ENABLE = true → ∃ t, exec .ccWindowEnd s = .next t ∧ s.onlyChanges t [.fab] ∧
      t.fab.cc = [(h, { r := if c.congested then c.r else min (s.lineMBps (s.enginePort h)) (c.r + s.rd Reg.FAB_CC_AI_MBPS),
                        decreased := false, congested := false })]) ∧
    ((s.portCfg p).role = roleTray → (s.trayRec (s.trayPort p)).up = true → s.pool.moves = [] → ∃ t, exec (.trayLinkDown p) s = .next t ∧
      (t.trayRec (s.trayPort p)).up = false ∧ (∀ q, q ≠ s.trayPort p → t.trayRec q = s.trayRec q) ∧ t.pool.extents = s.pool.extents ∧
      t.tray = s.tray ∧ s.onlyChanges t [.regs, .flt, .out, .host, .pool]))

/-- R127, R136–R138, R154, R158, R349, R363, what a port makes of a received frame, in the order of its checks. A port that does not listen
receives nothing; a frame that fails FEC, its tag or number, its trailer or its length is discarded and counted there; a LINK or TIME packet
goes to its port; a packet that has made its hops, or that no client of the port sent, is discarded and counted; a request of a client
without limits, for this switch's home, is queued toward its memory with its cells taken. -/
def Obligations.FramesAreCheckedInOrder : Prop := ∀ (s : State) (p : Nat) (f : Frame),
  (s.portListens p = false → exec (.frameReceive p f) s = .next s) ∧
  (s.portListens p = true →
    (f.fecOk = false → ∃ t, exec (.frameReceive p f) s = .next t ∧
      t.rd Reg.FAB_CNT_FEC_UNCORR p = min (s.rd Reg.FAB_CNT_FEC_UNCORR p + 1) (2 ^ Reg.FAB_CNT_FEC_UNCORR.width - 1) ∧
      s.onlyChanges t [.regs, .flt, .out, .host, .shp]) ∧
    (f.fecOk = true → s.on Reg.FAB_PSTAT_SECURE p = true → s.tagAccepted p f = false → ∃ t, exec (.frameReceive p f) s = .next t ∧
      t.rd Reg.FAB_CNT_TAG_FAIL p = min (s.rd Reg.FAB_CNT_TAG_FAIL p + 1) (2 ^ Reg.FAB_CNT_TAG_FAIL.width - 1) ∧
      s.onlyChanges t [.regs, .flt, .out, .host, .shp]) ∧
    (f.fecOk = true → s.on Reg.FAB_PSTAT_SECURE p = true → s.tagAccepted p f = true →
      (f.pkt.trailerOk = false → ∃ t, exec (.frameReceive p f) s = .next t ∧ (t.port p).lastRx = some f.pkn ∧
        t.rd Reg.FAB_CNT_CRC_FAIL p = min (s.rd Reg.FAB_CNT_CRC_FAIL p + 1) (2 ^ Reg.FAB_CNT_CRC_FAIL.width - 1) ∧
        s.onlyChanges t [.regs, .flt, .out, .host, .shp, .fab]) ∧
      (f.pkt.trailerOk = true → lengthFails f.pkt = true → ∃ t, exec (.frameReceive p f) s = .next t ∧ (t.port p).lastRx = some f.pkn ∧
        t.rd Reg.FAB_CNT_LEN_FAIL p = min (s.rd Reg.FAB_CNT_LEN_FAIL p + 1) (2 ^ Reg.FAB_CNT_LEN_FAIL.width - 1) ∧
        s.onlyChanges t [.regs, .flt, .out, .host, .shp, .fab]) ∧
      (f.pkt.trailerOk = true → lengthFails f.pkt = false → f.pkt.opcode = opLINK → ∃ t, exec (.frameReceive p f) s = .next t ∧
        (t.port p).ctl = (s.port p).ctl ++ [(s.tabor, f.pkt)] ∧ t.xbr = s.xbr ∧
        s.onlyChanges t [.regs, .flt, .out, .host, .shp, .fab, .meters]) ∧
      (f.pkt.trailerOk = true → lengthFails f.pkt = false → f.pkt.opcode ≠ opLINK → f.pkt.opcode ≠ opTIME →
        (3 ≤ f.pkt.hops → ∃ t, exec (.frameReceive p f) s = .next t ∧ t.xbr = s.xbr ∧
          t.rd Reg.FAB_CNT_HOPS p = min (s.rd Reg.FAB_CNT_HOPS p + 1) (2 ^ Reg.FAB_CNT_HOPS.width - 1)) ∧
        (f.pkt.hops < 3 → s.fatal = false → s.clientOf f.pkt.src = none → ∃ t, exec (.frameReceive p f) s = .next t ∧ t.xbr = s.xbr ∧
          t.rd Reg.XBR_P_DROP_NOCLIENT p = min (s.rd Reg.XBR_P_DROP_NOCLIENT p + 1) (2 ^ Reg.XBR_P_DROP_NOCLIENT.width - 1)) ∧
        (∀ r, f.pkt.dst < 2 ^ 16 → f.laneSyms = [] → f.pkt.hops < 3 → s.fatal = false → s.clientOf f.pkt.src = some r → r.port = p →
          r.rates.getD f.pkt.cls 0 = 0xFFFFFFFF → s.rd Reg.XBR_P_SAMPLE_N p = 0 → s.on Reg.XBR_CAP_CTL_ENABLE = false → s.fab.fences = [] →
          f.pkt.fence = false → f.pkt.opcode ≠ opWRITE_FENCED → s.lookup p f.pkt = .toHome → s.ingressRoom p f.pkt.cells = true →
          ∃ t, exec (.frameReceive p f) s = .next t ∧ Tab.find? t.xbr.voqs (voqKey p connHE0 f.pkt.queue) =
            some (Tab.getD s.xbr.voqs (voqKey p connHE0 f.pkt.queue) [] ++
              [{ pkt := f.pkt, conn := p, rx := s.hclk, clid := some r.clid, held := f.pkt.cells }])))))

/-- R353, R354, flows and bucket maps. A flow's bucket is the low six bits of the CRC-32C over the seed, SRC, DST and FLOW, the seed 0 where the
bank has none; a packet leaves on its bucket's port while that port's neighbour is alive, and every packet of the flow, whatever its class,
on the same one. A map that is built has 64 buckets: bucket b names the usable port of the set, in ascending order, whose index is b modulo
their number; a port is usable when its role carries packets and its neighbour is alive. -/
def Obligations.FlowsKeepOnePort : Prop := ∀ (s : State) (m : List Nat) (conn portset : Nat) (p : Packet) (ps : List Nat) (b : Nat),
  b = crc32c (leBytes 4 (s.bank.seed.getD 0) ++ leBytes 2 p.src ++ leBytes 2 p.dst ++ leBytes 3 p.flow) % 64 →
  ps = (List.range 32).filter (fun q => bit portset q && (s.portCfg q).role != roleNone && (s.portCfg q).role != roleTray && s.alive q) →
  (∀ q, m[b]? = some q → s.alive q = true → s.egressBy m conn p = .toPort q) ∧
  (∀ k : Packet, k.src = p.src → k.dst = p.dst → k.flow = p.flow → s.egressBy m conn k = s.egressBy m conn p) ∧
  (ps ≠ [] → (s.buildMap portset).length = 64 ∧ ∀ c, c < 64 → (s.buildMap portset)[c]? = ps[c % ps.length]?)

/-- R138, R145, R339–R347, R364, R374, the crossbar and the egress queues. An XCLK with nothing queued only passes; one packet of a cell, toward
a port whose queue has room, reaches that port's die. A packet that arrives there enters its queue, an ECT one marked where the queue is
past its upper threshold, counted. A free lane takes the head of the one queue that has a packet, where its shaper lets it and no gate or
sleep holds it, with its trailer inverted where its cells are uncorrectable; a packet held too long is discarded, counted at its egress
port. -/
def Obligations.PacketsCrossAndLeave : Prop := ∀ s : State,
  (s.xbr.voqs = [] → ∃ t, exec .schedulerMatch s = .next t ∧ t.xbr.xclk = s.xbr.xclk + 1 ∧ t.xbr.voqs = [] ∧ s.onlyChanges t [.xbr]) ∧
  (∀ i o q h, i < 32 → o < 32 → q < 8 → s.xbr.voqs = [(voqKey i o q, [h])] → s.xbr.recent = [] → h.sent = 0 → h.pkt.cells = 1 →
    s.qDepth o q + 1 ≤ s.rd Reg.XBR_QLIM_CELLS → ∃ t, exec .schedulerMatch s = .next t ∧ t.xbr.voqs = [] ∧
    (t.port o).arriving.map (·.pkt) = (s.port o).arriving.map (·.pkt) ++ [h.pkt] ∧ s.onlyChanges t [.regs, .xbr, .fab]) ∧
  (∀ p h rest, p < 32 → (s.port p).arriving = h :: rest → h.pkt.queue < 8 →
    (h.pkt.ect = false → ∃ t, exec (.egressEnqueue p) s = .next t ∧ (t.port p).arriving = rest ∧
      t.queue p h.pkt.queue = s.queue p h.pkt.queue ++ [h] ∧ s.onlyChanges t [.regs, .xbr, .fab]) ∧
    (h.pkt.ect = true → h.pkt.ce = false → s.rd Reg.FAB_CE_THR_MIN p ≤ s.qCells p h.pkt.queue →
      s.rd Reg.FAB_CE_THR_MAX p ≤ s.qCells p h.pkt.queue → ∃ t, exec (.egressEnqueue p) s = .next t ∧ (t.port p).arriving = rest ∧
      t.queue p h.pkt.queue = s.queue p h.pkt.queue ++ [{ h with pkt := h.pkt.setCe true }] ∧
      t.rd Reg.FAB_CNT_CE_MARK p = min (s.rd Reg.FAB_CNT_CE_MARK p + 1) (2 ^ Reg.FAB_CNT_CE_MARK.width - 1) ∧
      s.onlyChanges t [.regs, .xbr, .fab])) ∧
  (∀ p q h rest, p < 32 → q < 8 → s.maySend p = true → s.queue p q = h :: rest → (∀ k, k < 8 → k ≠ q → s.queue p k = []) →
    (s.portCfg p).gateMode = 0 → s.shaperOpen p q h.pkt = true → (s.sp p).sleep = none →
    (∃ t, exec (.portSelect p false) s = .next t ∧ t.out = s.out ++ [.frame p (s.port p).nextTx h.pkt] ∧ t.queue p q = rest ∧
      (t.port p).nextTx = (s.port p).nextTx + 1 ∧ s.onlyChanges t [.regs, .xbr, .shp, .meters, .out, .fab]) ∧
    (∃ t, exec (.portSelect p true) s = .next t ∧
      t.out = s.out ++ [.frame p (s.port p).nextTx { h.pkt with trailer := h.pkt.trailer ^^^ 0xFFFFFFFF }] ∧ t.queue p q = rest ∧
      t.rd Reg.FLT_CNT_UE_PKT = min (s.rd Reg.FLT_CNT_UE_PKT + 1) (2 ^ Reg.FLT_CNT_UE_PKT.width - 1))) ∧
  (∀ p b, s.maySend p = false → exec (.portSelect p b) s = .next s) ∧
  (∀ p q h, p < 32 → q < 8 → s.xbr.voqs = [] → s.xbr.egress = [(p * 8 + q, [h])] → h.held = 0 →
    usToHclk (s.rd Reg.FAB_HOLD_MAX_US) < s.hclk - h.rx → ∃ t, exec .packetHoldExpire s = .next t ∧ t.queue p q = [] ∧
    t.rd Reg.FAB_CNT_HOLD p = min (s.rd Reg.FAB_CNT_HOLD p + 1) (2 ^ Reg.FAB_CNT_HOLD.width - 1) ∧ s.onlyChanges t [.regs, .xbr])

/-- R140, R142, R150, R350, the switch's own requests and fence tracking. A response that no request waits for is discarded and counted; one
that a request waits for ends it and gives the command its status and data; RETRY with copies left delays the next. A request whose time has
passed sends its next copy with RETX, or ends TIMEOUT when it has none; one whose time has not passed is left alone. A fenced request
without a response for its whole time is no longer tracked, and a request held behind it is answered TIMEOUT, counted. -/
def Obligations.EngineRequestsAndFencesEnd : Prop := ∀ s : State,
  (∀ q rest, s.fab.rsp = q :: rest → Tab.find? s.fab.eng q.pkt.seq = none → ∃ t, exec .engineResponse s = .next t ∧ t.fab.rsp = rest ∧
    t.fab.eng = s.fab.eng ∧ t.rd Reg.XBR_DROP_NOREQ = min (s.rd Reg.XBR_DROP_NOREQ + 1) (2 ^ Reg.XBR_DROP_NOREQ.width - 1) ∧
    s.onlyChanges t [.regs, .fab] ∧ s.regsKeptBut t [Reg.XBR_DROP_NOREQ.key 0 0]) ∧
  (∀ q rest e c, s.fab.rsp = q :: rest → s.fab.eng = [(q.pkt.seq, e)] → q.pkt.opcode = e.pkt.opcode + 0x80 →
    Tab.find? s.cmd.cmds e.cid = some c → c.ckp.marking = 0 →
    (q.pkt.status ≠ stRETRY → ∃ t, exec .engineResponse s = .next t ∧ t.fab.rsp = rest ∧ t.fab.eng = [] ∧
      Tab.find? t.cmd.cmds e.cid = some { c with peers := Tab.put c.peers e.tag (q.pkt.status, q.pkt.payload) } ∧
      s.onlyChanges t [.fab, .cmd]) ∧
    (q.pkt.status = stRETRY → e.copies ≤ s.cfg.device.retries → ∃ t, exec .engineResponse s = .next t ∧ t.fab.rsp = rest ∧
      t.fab.eng = [(q.pkt.seq, { e with due := s.hclk + s.timeoutHclk / 8 })] ∧ s.onlyChanges t [.fab])) ∧
  (∀ seq e, Tab.find? s.fab.eng seq = some e → s.hclk < e.due → exec (.engineTimeout seq) s = .next s) ∧
  (∀ seq e, Tab.find? s.fab.eng seq = some e → e.due ≤ s.hclk → e.copies ≤ s.cfg.device.retries →
    ∃ t x, exec (.engineTimeout seq) s = .next t ∧ Tab.find? t.fab.eng seq = some x ∧ x.copies = e.copies + 1 ∧
    x.due = s.hclk + s.timeoutHclk ∧ x.pkt.retx = true ∧ x.pkt.payload = e.pkt.payload ∧ x.pkt.seq = e.pkt.seq ∧ t.cmd = s.cmd) ∧
  (∀ seq e c, s.fab.eng = [(seq, e)] → e.due ≤ s.hclk → s.cfg.device.retries < e.copies → Tab.find? s.cmd.cmds e.cid = some c →
    c.ckp.marking = 0 → ∃ t, exec (.engineTimeout seq) s = .next t ∧ t.fab.eng = [] ∧
    Tab.find? t.cmd.cmds e.cid = some { c with peers := Tab.put c.peers e.tag (stTIMEOUT, []) } ∧ s.onlyChanges t [.fab, .cmd]) ∧
  (∀ clid e, s.fab.fences = [(clid, [e])] → e.tracked = true → e.held = none →
    e.first + (s.cfg.device.retries + 1) * s.timeoutHclk ≤ s.hclk → ∃ t, exec (.fenceTrackTimeout clid e.src e.seq) s = .next t ∧
    t.fab.fences = [(clid, [])] ∧ s.onlyChanges t [.fab]) ∧
  (∀ clid e x q, s.fab.fences = [(clid, [e, x])] → e.tracked = true → e.held = none → x.held = some q → x.fence = true →
    e.first + (s.cfg.device.retries + 1) * s.timeoutHclk ≤ s.hclk → ∃ t, exec (.fenceTrackTimeout clid e.src e.seq) s = .next t ∧
    t.fab.fences = [(clid, [])] ∧ t.rd Reg.FAB_FENCE_TO = min (s.rd Reg.FAB_FENCE_TO + 1) (2 ^ Reg.FAB_FENCE_TO.width - 1))

/-- R25, R86, R123, R128, R129, R148, R444, READ at its home. A read that resolves, with no earlier write of its sender before it and no bad
granule, is answered OK with the bytes of its range and zeros around them, and changes nothing but queues. One refused by its header, its
fen, its key, its region or its range is answered so, with zeros; one with an earlier write of its sender to a granule of its range waits. -/
def Obligations.ReadsAnswerWithTheirBytes : Prop := ∀ (s : State) (q : QPkt) (rest : List QPkt),
  s.fab.he0 = q :: rest → q.pkt.kind = .read →
  (∀ i e p rsp, s.preCheck q false = none → q.pkt.inWindow = false → s.resolve (s.who q).1 (s.who q).2 rtR q.pkt q.pkt.len = (stOK, some (i, e)) →
    s.behindWrite q.pkt q.pkt.len = false → s.badRange e.tier (e.at_ q.pkt.localAddr) q.pkt.len = false → q.held = 0 →
    rsp = respond q.pkt stOK 0 (readPayload q.pkt (s.readTier e.tier (e.at_ q.pkt.localAddr) q.pkt.len)) → s.clearPath rsp p →
    ∃ t, exec .read s = .next t ∧ t.fab.he0 = rest ∧ t.voq connHE0 p rsp.queue = s.voqWith p rsp ∧ s.onlyChanges t [.fab, .xbr]) ∧
  (∀ i e, s.preCheck q false = none → q.pkt.inWindow = false → s.resolve (s.who q).1 (s.who q).2 rtR q.pkt q.pkt.len = (stOK, some (i, e)) →
    s.behindWrite q.pkt q.pkt.len = true → exec .read s = .next s) ∧
  (∀ st off p rsp, s.preCheck q false = some (st, off) → q.held = 0 →
    rsp = respond q.pkt st (if st = stMALFORMED then off else 0) (emptyPayload q.pkt) → s.clearPath rsp p →
    ∃ t, exec .read s = .next t ∧ t.fab.he0 = rest ∧ t.voq connHE0 p rsp.queue = s.voqWith p rsp ∧ s.onlyChanges t [.fab, .xbr]) ∧
  (∀ st p rsp, s.preCheck q false = none → q.pkt.inWindow = false → s.resolve (s.who q).1 (s.who q).2 rtR q.pkt q.pkt.len = (st, none) →
    st ≠ stMALFORMED → q.held = 0 → rsp = respond q.pkt st 0 (emptyPayload q.pkt) → s.clearPath rsp p →
    ∃ t, exec .read s = .next t ∧ t.fab.he0 = rest ∧ t.voq connHE0 p rsp.queue = s.voqWith p rsp ∧ s.onlyChanges t [.fab, .xbr])

/-- R22, R24, R125, R149, R444, WRITE and WRITE_FENCED at their home. Both enter the writes in flight once they resolve, a WRITE answered OK at
once and a fenced one not yet; memory is as before. When the write is performed exactly the bytes of its range take its payload; one whose
trailer fails the second check stores nothing and is counted; one behind an earlier write to its granule waits. A fenced write is answered
when it is performed. -/
def Obligations.WritesArePerformedInOrder : Prop := ∀ s : State,
  (∀ q rest i e p, s.fab.he0 = q :: rest → q.pkt.inWindow = false → s.resolve (s.who q).1 (s.who q).2 rtW q.pkt q.pkt.len = (stOK, some (i, e)) →
    s.preCheck q (!q.pkt.inWindow && s.ownRing (s.who q).1 q.pkt.localAddr q.pkt.len) = none → Tab.find? s.pool.moves i = none →
    (q.pkt.opcode = opWRITE → s.clearPath (respond q.pkt stOK 0 []) p → ∃ t w, exec .write s = .next t ∧ t.fab.he0 = rest ∧
      Tab.find? t.pool.writes s.pool.nextWrite = some w ∧ w.pkt = q.pkt ∧ w.ext = i ∧ w.tier = e.tier ∧ w.at_ = e.at_ q.pkt.localAddr ∧
      w.fenced = false ∧ t.voq connHE0 p (respond q.pkt stOK 0 []).queue = s.voqWith p (respond q.pkt stOK 0 []) ∧
      s.onlyChanges t [.fab, .xbr, .pool]) ∧
    (q.pkt.opcode = opWRITE_FENCED → ∃ t w, exec .writeFenced s = .next t ∧ t.fab.he0 = rest ∧
      Tab.find? t.pool.writes s.pool.nextWrite = some w ∧ w.pkt = q.pkt ∧ w.ext = i ∧ w.fenced = true ∧ s.onlyChanges t [.fab, .pool])) ∧
  (∀ id w, s.pool.writes = [(id, w)] → w.tier = tierNEAR → w.held = 0 → s.badRange tierNEAR w.at_ w.pkt.len = false → 0 < w.pkt.len →
    w.fenced = false → Memory.wf s.near = true →
    (∃ t, exec (.writePerformed id true) s = .next t ∧ t.pool.writes = [] ∧
      (∀ k, k < w.pkt.len → memGet t.near (w.at_ + k) = (slice w.pkt.payload (w.pkt.addr % 64) w.pkt.len).getD k 0) ∧
      (∀ a, (a < w.at_ ∨ w.at_ + w.pkt.len ≤ a) → memGet t.near a = memGet s.near a) ∧ s.onlyChanges t [.near, .pool, .fab, .cmd, .flt]) ∧
    (∃ t, exec (.writePerformed id false) s = .next t ∧ t.pool.writes = [] ∧
      t.rd Reg.XBR_DROP_EXEC_CRC = min (s.rd Reg.XBR_DROP_EXEC_CRC + 1) (2 ^ Reg.XBR_DROP_EXEC_CRC.width - 1) ∧
      s.onlyChanges t [.regs, .pool, .cmd])) ∧
  (∀ id w p, s.pool.writes = [(id, w)] → w.tier = tierTRAY → w.held = 0 → s.badRange tierTRAY w.at_ w.pkt.len = false → 0 < w.pkt.len →
    w.fenced = true → s.clearPath (respond w.pkt stOK 0 []) p → Memory.wf s.tray = true →
    ∃ t, exec (.writePerformed id true) s = .next t ∧
      (∀ k, k < w.pkt.len → memGet t.tray (w.at_ + k) = (slice w.pkt.payload (w.pkt.addr % 64) w.pkt.len).getD k 0) ∧
      (∀ a, (a < w.at_ ∨ w.at_ + w.pkt.len ≤ a) → memGet t.tray a = memGet s.tray a) ∧
      t.voq connHE0 p (respond w.pkt stOK 0 []).queue = s.voqWith p (respond w.pkt stOK 0 []) ∧
      s.onlyChanges t [.tray, .pool, .fab, .cmd, .flt, .xbr]) ∧
  (∀ id w id' w' b, s.pool.writes = [(id', w'), (id, w)] → id' < id → w'.tier = w.tier → w'.at_ = w.at_ → 0 < w.pkt.len → 0 < w'.pkt.len →
    exec (.writePerformed id b) s = .next s)

/-- R29, R130–R134, ATOMIC. An atomic that resolves, of no request that its unit's history holds, stores what its operation gives for the old
value and nothing else, keeps a history entry and answers with the old value; a copy of one in the history is answered from it and stores
nothing, counted. An entry leaves the history after its window. ADD wraps at its width, MIN and MAX compare by their type, CAS stores only
on a match. -/
def Obligations.AtomicsExecuteOnce : Prop := ∀ (s : State) (q : QPkt) (rest : List QPkt) (i : Nat) (e : Extent) (p : Nat),
  s.fab.he0 = q :: rest → q.pkt.opcode = opATOMIC → s.preCheck q false = none → q.pkt.inWindow = false → q.held = 0 →
  s.resolve (s.who q).1 (s.who q).2 rtA q.pkt ((atomicSize (bits q.pkt.arg 4 4)).getD 4) = (stOK, some (i, e)) → s.behindWrite q.pkt 1 = false →
  Tab.find? s.pool.moves i = none → (s.ext i).tier = tierNEAR → (∀ st arg body, s.clearPath (respond q.pkt st arg body) p) →
  ∀ (a d n old v : Nat) (ok : Bool), a = (s.ext i).at_ q.pkt.localAddr → d = dieAt tierNEAR a → n = (atomicSize (bits q.pkt.arg 4 4)).getD 4 →
  old = leNat (memRead s.near a n) →
  (v, ok) = atomicOp (q.pkt.arg % 16) (bits q.pkt.arg 4 4) old (fld q.pkt.payload 0 n) (fld q.pkt.payload 16 n) →
  ((s.young (Tab.getD s.fab.hist d [])).find? (fun x => x.src == q.pkt.src && x.seq == q.pkt.seq) = none →
    (s.young (Tab.getD s.fab.hist d [])).length < histCapacity → s.badRange tierNEAR a n = false → Memory.wf s.near = true →
    ∃ t, exec .atomic s = .next t ∧ t.fab.he0 = rest ∧ (∀ k, k < n → memGet t.near (a + k) = (leBytes n v).getD k 0) ∧
      (∀ x, (x < a ∨ a + n ≤ x) → memGet t.near x = memGet s.near x) ∧
      (∃ x, Tab.find? t.fab.hist d = some (s.young (Tab.getD s.fab.hist d []) ++ [x]) ∧ x.src = q.pkt.src ∧ x.seq = q.pkt.seq ∧
        x.status = stOK ∧ x.old = old ∧ x.arg = b2n ok) ∧
      t.voq connHE0 p (respond q.pkt stOK (b2n ok) (atomicPayload old)).queue = s.voqWith p (respond q.pkt stOK (b2n ok) (atomicPayload old)) ∧
      s.onlyChanges t [.near, .fab, .xbr]) ∧
  (∀ x, (s.young (Tab.getD s.fab.hist d [])).find? (fun x => x.src == q.pkt.src && x.seq == q.pkt.seq) = some x →
    ∃ t, exec .atomic s = .next t ∧ t.fab.hist = s.fab.hist ∧
      t.rd Reg.FAB_HIST_DUP = min (s.rd Reg.FAB_HIST_DUP + 1) (2 ^ Reg.FAB_HIST_DUP.width - 1) ∧
      t.voq connHE0 p (respond q.pkt x.status (setBits x.arg 1 1 1) (atomicPayload x.old)).queue =
        s.voqWith p (respond q.pkt x.status (setBits x.arg 1 1 1) (atomicPayload x.old)) ∧ s.onlyChanges t [.regs, .fab, .xbr]) ∧
  (∀ k, ∃ t, exec (.historyExpire k) s = .next t ∧ t.fab.hist = Tab.upd s.fab.hist k (fun h => s.young h) ∧ s.onlyChanges t [.fab])

/-- R130, R132, what the integer atomics compute: ADD modulo 2^32 and 2^64, MIN and MAX by the signed or the unsigned value, CAS on 4, 8 and 16
bytes the new value on a match and the old one otherwise. -/
def Obligations.IntegerAtomicsComputeTheirOperation : Prop := ∀ old x swap : Nat,
  atomicOp 0 0 old x swap = ((old + x) % 2 ^ 32, false) ∧ atomicOp 0 1 old x swap = ((old + x) % 2 ^ 64, false) ∧
  atomicOp 0 2 old x swap = ((old + x) % 2 ^ 32, false) ∧ atomicOp 0 3 old x swap = ((old + x) % 2 ^ 64, false) ∧
  (∀ t, t = 0 ∨ t = 1 → atomicOp 1 t old x swap = (if signed x (32 * (t + 1)) < signed old (32 * (t + 1)) then x else old, false) ∧
    atomicOp 2 t old x swap = (if signed old (32 * (t + 1)) < signed x (32 * (t + 1)) then x else old, false)) ∧
  (∀ t, t = 2 ∨ t = 3 → atomicOp 1 t old x swap = (min old x, false) ∧ atomicOp 2 t old x swap = (max old x, false)) ∧
  (∀ t, t = 2 ∨ t = 3 ∨ t = 5 → atomicOp 3 t old x swap = if old = x then (swap, true) else (old, false))

/-- R61, R100–R102, R285–R287, the control window. A read of the lease word renews a running lease and returns its record; a write of a period
within the device's bounds sets it. An SQ doorbell, and a COMMAND, record a tail that lies ahead within the ring; a stale one is counted and
changes nothing; a CQ doorbell records a head between the old one and the tail; the ring-state word returns the ring's indices. Each is
answered OK. -/
def Obligations.WindowRequestsActOnLeasesAndRings : Prop := ∀ (s : State) (q : QPkt) (rest : List QPkt) (p : Nat),
  s.fab.he0 = q :: rest → s.preCheck q true = none → q.held = 0 → (∀ st arg body, s.clearPath (respond q.pkt st arg body) p) →
  (∀ l, q.pkt.kind = .leaseRead → Tab.find? s.pool.leases (s.who q).1 = some l → l.running = true → s.lapsed l = false →
    ∃ t body, exec .leaseHeartbeat s = .next t ∧ t.lease (s.who q).1 = s.renew l ∧
      t.voq connHE0 p (respond q.pkt stOK 0 body).queue = s.voqWith p (respond q.pkt stOK 0 body) ∧ body = t.leaseRecord (s.who q).1 ∧
      s.onlyChanges t [.fab, .xbr, .pool]) ∧
  (∀ v, q.pkt.kind = .leaseWrite → ((List.range 63).all fun i => fld q.pkt.payload (i + 1) 1 == 0) = true → v = fld q.pkt.payload 0 1 →
    s.cfg.device.leaseMinS ≤ v → v ≤ s.cfg.device.leaseMaxS → ∃ t, exec .leaseWordWrite s = .next t ∧ (t.lease (s.who q).1).periodS = v ∧
      t.voq connHE0 p (respond q.pkt stOK 0 []).queue = s.voqWith p (respond q.pkt stOK 0 []) ∧ s.onlyChanges t [.fab, .xbr, .pool]) ∧
  (∀ pair, q.pkt.kind = .sqBell → ((List.range 62).all fun i => fld q.pkt.payload (i + 2) 1 == 0) = true →
    pair = (s.who q).1 * 4 + q.pkt.woff / 64 → (s.ring pair).state ≠ ringDISABLED →
    (bellOutcome (s.ring pair) (fld q.pkt.payload 0 2) = some true → ∃ t, exec .sqDoorbell s = .next t ∧
      (t.ring pair).sqTail = fld q.pkt.payload 0 2 ∧ (t.ring pair).fetchHead = (s.ring pair).fetchHead ∧
      (∀ k, k ≠ pair → t.ring k = s.ring k) ∧
      t.voq connHE0 p (respond q.pkt stOK 0 []).queue = s.voqWith p (respond q.pkt stOK 0 []) ∧ s.onlyChanges t [.fab, .xbr, .cmd]) ∧
    (bellOutcome (s.ring pair) (fld q.pkt.payload 0 2) = some false → ∃ t, exec .sqDoorbell s = .next t ∧
      t.rd Reg.CMD_CNT_DB_STALE = min (s.rd Reg.CMD_CNT_DB_STALE + 1) (2 ^ Reg.CMD_CNT_DB_STALE.width - 1) ∧
      s.onlyChanges t [.regs, .fab, .xbr])) ∧
  (∀ pair, q.pkt.kind = .cqBell → ((List.range 62).all fun i => fld q.pkt.payload (i + 2) 1 == 0) = true →
    pair = (s.who q).1 * 4 + (q.pkt.woff - 0x100) / 64 → (s.ring pair).state ≠ ringDISABLED →
    (fld q.pkt.payload 0 2 + 65536 - (s.ring pair).cqHead) % 65536 ≤ ((s.ring pair).cqTail + 65536 - (s.ring pair).cqHead) % 65536 →
    ∃ t, exec .cqDoorbell s = .next t ∧ (t.ring pair).cqHead = fld q.pkt.payload 0 2 ∧ (∀ k, k ≠ pair → t.ring k = s.ring k) ∧
      t.voq connHE0 p (respond q.pkt stOK 0 []).queue = s.voqWith p (respond q.pkt stOK 0 []) ∧ s.onlyChanges t [.fab, .xbr, .cmd]) ∧
  (∀ pair, q.pkt.kind = .ringState → pair = (s.who q).1 * 4 + (q.pkt.woff - 0x200) / 64 → (s.ring pair).state ≠ ringDISABLED →
    ∃ t, exec .ringStateRead s = .next t ∧ t.voq connHE0 p (respond q.pkt stOK 0 (s.ring pair).stateBytes).queue =
      s.voqWith p (respond q.pkt stOK 0 (s.ring pair).stateBytes) ∧ s.onlyChanges t [.fab, .xbr]) ∧
  (∀ pair, q.pkt.kind = .command → pair = (s.who q).1 * 4 + q.pkt.arg % 4 → (s.ring pair).state ≠ ringDISABLED →
    bellOutcome (s.ring pair) (q.pkt.arg / 65536) = some true → ∃ t, exec .command s = .next t ∧ (t.ring pair).sqTail = q.pkt.arg / 65536 ∧
      (∀ k, k ≠ pair → t.ring k = s.ring k) ∧
      t.voq connHE0 p (respond q.pkt stOK ((s.ring pair).fetchHead * 65536) []).queue =
        s.voqWith p (respond q.pkt stOK ((s.ring pair).fetchHead * 65536) []) ∧ s.onlyChanges t [.fab, .xbr, .cmd])

/-- R111, R294–R296, a completion. A command of a ring that completes with a status leaves the engine: it runs on no cluster, and the next entry
of its completion ring holds its 32 bytes; the ring's tail advances by one, and one command fewer is outstanding. The bytes are the
command's id, the status, the phase, the offset of a malformed field, the result and the counts. The one entry and the stated parts change.
It says so for a completion ring in the near tier whose granule is good and whose extent is not moving. -/
def Obligations.CompletionsAreWrittenOnTheirRing : Prop := ∀ (s : State) (cid st malf : Nat) (c : Cmd) (r : Ring) (e : Extent) (a : Nat),
  s.cmdOf cid = some c → s.fatal = false → r = s.ring c.pair → e = s.ext r.cqExt → e.tier = tierNEAR →
  a = r.cqBase + 32 * (r.cqTail % 2 ^ r.cqLog2) → s.badRange tierNEAR (e.at_ a) 32 = false → Tab.find? s.pool.moves r.cqExt = none →
  Memory.wf s.near = true →
  memRead (s.complete cid st malf).near (e.at_ a) 32 = c.entry st malf (phaseOf r.cqTail r.cqLog2) s.tnow ∧
  (∀ b, (b < e.at_ a ∨ e.at_ a + 32 ≤ b) → memGet (s.complete cid st malf).near b = memGet s.near b) ∧
  ((s.complete cid st malf).ring c.pair).cqTail = (r.cqTail + 1) % 65536 ∧
  ((s.complete cid st malf).ring c.pair).outstanding = r.outstanding - 1 ∧
  (∀ p, p ≠ c.pair → (s.complete cid st malf).ring p = s.ring p) ∧
  (∀ d, d ≠ cid → (s.complete cid st malf).cmdOf d = s.cmdOf d) ∧ (s.complete cid st malf).cmdOf cid = none ∧
  (∀ x ∈ (s.complete cid st malf).cmd.running, x.2.1 ≠ cid) ∧
  s.onlyChanges (s.complete cid st malf) [.regs, .near, .pool, .fab, .cmd] ∧
  (c.opcode ≠ 0x20 → isCkp c.opcode = false → s.finish cid st = s.complete cid st)

/-- R64, R90–R92, ALLOC and FREE. An ALLOC that passes its checks, and for which first fit finds a place within the reservation, creates a
LEASED extent of the submitting client there, charged, with contents zero, and completes OK; one with no place completes NO_RESOURCE,
counted, and creates nothing. A FREE sets its extent FREE with SCRUB and queues the zero-fill of its place, the fen still charged; an extent
not named is as it was. SCRUB_DONE zeroes the place and returns the units and the entry. -/
def Obligations.AllocationTakesAndFreeReturnsSpace : Prop := ∀ (s : State) (cid : Nat) (c : Cmd) (i : Nat),
  (s.tableCmd cid 0x10 = some c → s.tableCheck c 1 = stOK → c.fen < 64 → c.p0 % 4 < 2 →
    (∀ loc, s.firstFit (c.p0 % 4) c.p1 c.fen (c.ref0.bytes / unitBytes) = some loc → s.freeExt = some i → s.fitsExtent c.fen = true →
      s.fitsRsv (c.p0 % 4) c.fen (c.ref0.bytes / unitBytes) = true →
      ∃ u, exec (.alloc cid) s = .next (u.finish cid stOK) ∧ u.cmdOf cid = some { c with committed := 1 } ∧
        u.ext i = { start := c.ref0.loc / unitBytes, state := exLEASED, length := c.ref0.bytes / unitBytes, tier := c.p0 % 4, loc := loc,
                    fen := c.fen, holder := c.clid, region := c.ref0.region } ∧
        (∀ j, j ≠ i → u.ext j = s.ext j) ∧
        u.rd Reg.FEN_EXT_USED_COUNT c.fen = (s.rd Reg.FEN_EXT_USED_COUNT c.fen + 1) % 2 ^ Reg.FEN_EXT_USED_COUNT.width ∧
        (c.p0 % 4 = tierNEAR → u.rd Reg.FEN_NEAR_USED_UNITS c.fen =
          (s.rd Reg.FEN_NEAR_USED_UNITS c.fen + c.ref0.bytes / unitBytes) % 2 ^ Reg.FEN_NEAR_USED_UNITS.width) ∧
        (∀ b, b < c.ref0.bytes / unitBytes * unitBytes → u.readTier (c.p0 % 4) (locByte (c.p0 % 4) loc + b) 1 = [0]) ∧
        s.onlyChanges u [.regs, .near, .tray, .flt, .pool, .cmd]) ∧
    (s.firstFit (c.p0 % 4) c.p1 c.fen (c.ref0.bytes / unitBytes) = none →
      ∃ u, exec (.alloc cid) s = .next (u.finish cid stNO_RESOURCE) ∧ u.pool.extents = s.pool.extents ∧
        u.rd Reg.FEN_REFUSE_NO_RES c.fen = min (s.rd Reg.FEN_REFUSE_NO_RES c.fen + 1) (2 ^ Reg.FEN_REFUSE_NO_RES.width - 1) ∧
        s.onlyChanges u [.regs, .pool] ∧ s.regsKeptBut u [Reg.FEN_REFUSE_NO_RES.key c.fen 0])) ∧
  (s.tableCmd cid 0x11 = some c → s.tableCheck c 1 = stOK → (s.overlapping c.ref0.loc c.ref0.bytes).map (·.1) = [i] →
    (s.ext i).tier ≠ tierHOST → Tab.find? s.pool.moves i = none →
    ∃ u, exec (.free cid) s = .next (u.finish cid stOK) ∧ u.cmdOf cid = some { c with committed := 1 } ∧
      s.extentsAfter u [i] (fun e => { e with state := exFREE, scrub := true }) ∧
      Tab.find? u.pool.scrubs s.pool.nextScrub = some { tier := (s.ext i).tier, loc := (s.ext i).loc, units := (s.ext i).length
                                                        fen := (s.ext i).fen, ext := some i, capring := (s.ext i).capring } ∧
      u.rd Reg.POOL_SCRUB_PEND_UNITS = (s.rd Reg.POOL_SCRUB_PEND_UNITS + (s.ext i).length) % 2 ^ Reg.POOL_SCRUB_PEND_UNITS.width ∧
      (∀ f, f < 64 → u.rd Reg.FEN_NEAR_USED_UNITS f = s.rd Reg.FEN_NEAR_USED_UNITS f ∧
        u.rd Reg.FEN_EXT_USED_COUNT f = s.rd Reg.FEN_EXT_USED_COUNT f) ∧
      s.onlyChanges u [.regs, .pool, .cmd]) ∧
  (∀ id k, Tab.find? s.pool.scrubs id = some k → s.deadAt k.tier (locByte k.tier k.loc) = false → k.tier < 2 → k.region = none → k.fen < 64 →
    k.ext = some i → k.capring = false → ∃ t, exec (.scrubDone id) s = .next t ∧ Tab.find? t.pool.scrubs id = none ∧ Tab.find? t.pool.extents i = none ∧
      (∀ j, j ≠ i → t.ext j = s.ext j) ∧ (∀ b, b < k.units * unitBytes → t.readTier k.tier (locByte k.tier k.loc + b) 1 = [0]) ∧
      (k.tier = tierNEAR → t.rd Reg.FEN_NEAR_USED_UNITS k.fen = (s.rd Reg.FEN_NEAR_USED_UNITS k.fen - k.units) % 2 ^ Reg.FEN_NEAR_USED_UNITS.width) ∧
      t.rd Reg.POOL_SCRUB_PEND_UNITS = (s.rd Reg.POOL_SCRUB_PEND_UNITS - k.units) % 2 ^ Reg.POOL_SCRUB_PEND_UNITS.width ∧
      s.onlyChanges t [.regs, .near, .tray, .flt, .pool])

/-- R97, R104, R106, the prefix and hint commands. Each acts on the whole extents its range covers and on no other: PREFIX_MARK makes them
prefix extents, RESIDENT, with no reference; PREFIX_REF adds one reference to each and PREFIX_UNREF takes one; ADVISE sets HEAT and, where a
bit asks, PIN or its absence. Each completes OK, and memory is as before. A READ_SOON of an extent that is NEAR already is dropped and
counted. -/
def Obligations.PrefixesAndHintsMarkTheirExtents : Prop := ∀ (s : State) (cid : Nat) (c : Cmd), Tab.wf s.pool.extents = true →
  (s.tableCmd cid 0x15 = some c → s.tableCheck c 1 = stOK →
    ∃ u, exec (.prefixMark cid) s = .next (u.finish cid stOK) ∧
      s.extentsAfter u (s.whole0 c) (fun e => { e with pfx := true, state := exRESIDENT, holder := 0, refs := 0 }) ∧
      s.onlyChanges u [.pool, .cmd]) ∧
  (s.tableCmd cid 0x16 = some c → s.tableCheck c 1 = stOK →
    ∃ u, exec (.prefixRef cid) s = .next (u.finish cid stOK) ∧
      s.extentsAfter u (s.whole0 c) (fun e => { e with refs := e.refs + 1 }) ∧ s.onlyChanges u [.pool, .cmd]) ∧
  (s.tableCmd cid 0x17 = some c → s.tableCheck c 1 = stOK →
    ∃ u, exec (.prefixUnref cid) s = .next (u.finish cid stOK) ∧
      s.extentsAfter u (s.whole0 c) (fun e => { e with refs := e.refs - 1 }) ∧ s.onlyChanges u [.pool, .cmd]) ∧
  (s.tableCmd cid 0x14 = some c → s.tableCheck c 1 = stOK →
    (bit c.p0 4 = false → ∃ u, exec (.advise cid) s = .next (u.finish cid stOK) ∧
      s.extentsAfter u (s.whole0 c)
        (fun e => { e with heat := c.p0 % 4, pin := if bit c.p0 2 then true else if bit c.p0 3 then false else e.pin }) ∧
      s.onlyChanges u [.pool, .cmd]) ∧
    (∀ i, bit c.p0 4 = true → s.whole0 c = [i] → (s.ext i).tier = tierNEAR → ∃ u, exec (.advise cid) s = .next (u.finish cid stOK) ∧
      u.rd Reg.POOL_CNT_SOFTDROP = min (s.rd Reg.POOL_CNT_SOFTDROP + 1) (2 ^ Reg.POOL_CNT_SOFTDROP.width - 1) ∧
      s.onlyChanges u [.regs, .pool, .cmd] ∧ s.regsKeptBut u [Reg.POOL_CNT_SOFTDROP.key 0 0]))

/-- R107–R110, R302, the near-memory primitives. A chunk stages its results and frees its cluster, and changes nothing else: FILL the 64-byte
pattern repeated over its part of the range, COPY the source's bytes for the destination, COMPARE the number of the first byte that differs
in its part, none where all are equal, REDUCE_IN_PLACE the elements that its operation gives of the two ranges. A chunk of FILL or COPY
toward a dead tray completes TARGET_DEAD. -/
def Obligations.DataCommandsStageTheirBytes : Prop := ∀ (s : State) (cid k : Nat) (c : Cmd) (x : Chunk) (o n : Nat),
  ((o, n) = dataChunk c.ref0.bytes k false →
    (s.runsChunk cid k 0x18 c x → ((c.pieces 0 o n).any fun g => s.deadAt g.tier g.at_) = false →
      ∃ t, exec (.fill cid k) s = .next t ∧ s.stagedAs t cid k
        { x with writes := stagePieces (c.pieces 0 o n) ((List.replicate (n / 64) (slice c.desc 64 64)).flatten), vals := [n] }) ∧
    (s.runsChunk cid k 0x18 c x → ((c.pieces 0 o n).any fun g => s.deadAt g.tier g.at_) = true →
      exec (.fill cid k) s = .next (s.finish cid stTARGET_DEAD)) ∧
    (∀ d0 d1, s.runsChunk cid k 0x1A c x → s.readFault (c.pieces 0 o n ++ c.pieces 1 o n) = none → d0 = s.readPieces (c.pieces 0 o n) →
      d1 = s.readPieces (c.pieces 1 o n) → d0.length = n → d1.length = n →
      (d0 = d1 → ∃ t, exec (.compare cid k) s = .next t ∧ s.stagedAs t cid k { x with vals := [] }) ∧
      (∀ i, i < n → d0.take i = d1.take i → d0[i]? ≠ d1[i]? →
        ∃ t, exec (.compare cid k) s = .next t ∧ s.stagedAs t cid k { x with vals := [o + i] })) ∧
    (∀ d ty op w, s.runsChunk cid k 0x1B c x → s.readFault (c.pieces 0 o n ++ c.pieces 1 o n) = none →
      d = s.readPieces (c.pieces 0 o n ++ c.pieces 1 o n) → ty = c.p0 % 256 → op = bits c.p0 8 8 → w = tySize ty →
      ∃ t, exec (.reduceInPlace cid k) s = .next t ∧ s.stagedAs t cid k
        { x with writes := stagePieces (c.pieces 0 o n) (((List.range (n / w)).map fun i =>
                   leBytes w (reduceElem ty op (fld d (w * i) w) (fld d (n + w * i) w)).1).flatten)
                 vals := [n]
                 flags := ((List.range (n / w)).map fun i =>
                   (reduceElem ty op (fld d (w * i) w) (fld d (n + w * i) w)).2).foldl (fun f r => f ||| r) 0 })) ∧
  ((o, n) = dataChunk c.ref0.bytes k c.copyDown → s.runsChunk cid k 0x19 c x → s.readFault (c.pieces 1 o n) = none →
    (((c.pieces 0 o n).any fun g => s.deadAt g.tier g.at_) = false → ∃ t, exec (.copy cid k) s = .next t ∧
      s.stagedAs t cid k { x with writes := stagePieces (c.pieces 0 o n) (s.readPieces (c.pieces 1 o n)), vals := [n] }) ∧
    (((c.pieces 0 o n).any fun g => s.deadAt g.tier g.at_) = true → exec (.copy cid k) s = .next (s.finish cid stTARGET_DEAD)))

/-- R93–R95, moves. A MIGRATE or EVICT that passes its checks and finds a place reserves it and sets its extent MOVING, its location as before;
one whose mask names the present place completes OK at once; one with no place completes NO_RESOURCE. A copy step writes the next 64 KiB of
the source at the destination. The commit moves the location, returns STATE to PRIOR, hands over the atomic history, queues the source's
zero-fill, counts and completes OK. A drain past `POOL_MOVE_DRAIN` aborts: STATE returns, the location stands, and the command completes
ABORTED. -/
def Obligations.MovesReserveCopyAndCommit : Prop := ∀ s : State,
  (∀ cid c i e cmd op tier mask, ((cmd, op, tier, mask) = (Instr.migrate cid, 0x12, tierNEAR, c.p1) ∨
      (cmd, op, tier, mask) = (Instr.evict cid, 0x13, tierTRAY, c.p1 % 2 ^ 32)) →
    s.tableCmd cid op = some c → (s.pool.moves.any fun m => m.2.cid == some cid) = false → s.tableCheck c 1 = stOK →
    s.oneExtent c.ref0 = some (i, e) → e = s.ext i → Tab.wf s.pool.extents = true →
    (s.alreadyAt e tier mask = true → ∃ u, exec cmd s = .next (u.finish cid stOK) ∧ s.onlyChanges u [.cmd]) ∧
    (∀ loc, s.alreadyAt e tier mask = false → s.firstFit tier mask e.fen e.length = some loc → s.fitsRsv tier e.fen e.length e.capring = true →
      ∃ t m, exec cmd s = .next t ∧ Tab.find? t.pool.moves i = some m ∧ m.cid = some cid ∧ m.srcTier = e.tier ∧ m.srcLoc = e.loc ∧
        m.destTier = tier ∧ m.dest = loc ∧ m.units = e.length ∧ m.copied = 0 ∧
        s.extentsAfter t [i] (fun e => { e with state := exMOVING, prior := e.state == exLEASED, destTier := tier, dest := loc }) ∧
        s.onlyChanges t [.regs, .pool, .cmd]) ∧
    (s.alreadyAt e tier mask = false → s.firstFit tier mask e.fen e.length = none →
      ∃ u, exec cmd s = .next (u.finish cid stNO_RESOURCE) ∧ s.onlyChanges u [.regs] ∧
        s.regsKeptBut u [Reg.FEN_REFUSE_NO_RES.key c.fen 0, Reg.POOL_CNT_MOVE_ABORT.key 0 0])) ∧
  (∀ i m src dst, Tab.find? s.pool.moves i = some m → m.copied < m.units → s.mayCopy m = true →
    src = locByte m.srcTier m.srcLoc + m.copied * unitBytes → dst = locByte m.destTier m.dest + m.copied * unitBytes →
    m.srcTier < 2 → m.destTier < 2 → s.deadAt m.srcTier src = false → s.deadAt m.destTier dst = false →
    s.badRange m.srcTier src unitBytes = false → s.memoryOk = true →
    ∃ t, exec (.moveCopyStep i) s = .next t ∧ t.readTier m.destTier dst unitBytes = s.readTier m.srcTier src unitBytes ∧
      Tab.find? t.pool.moves i =
        some { m with copied := m.copied + 1, copyEnd := if m.copied + 1 = m.units then some s.hclk else none } ∧
      t.pool.extents = s.pool.extents ∧ s.onlyChanges t [.near, .tray, .flt, .pool]) ∧
  (∀ i m h, Tab.find? s.pool.moves i = some m → s.fatal = false → s.car.warm = false → m.copyEnd.isSome = true → s.otherReaders i = 0 →
    (s.pool.writes.any fun w => w.2.ext == i) = false → Tab.has s.pool.extents i = true →
    s.moveHistory i (dieAt m.srcTier (locByte m.srcTier m.srcLoc)) (dieAt m.destTier (locByte m.destTier m.dest)) = some h →
    ∃ u, exec (.moveCommit i) s = .next (match m.cid with | none => u | some cid => u.finish cid stOK) ∧
      s.extentsAfter u [i] (fun e => { e with tier := m.destTier, loc := m.dest, state := e.restored, prior := false, destTier := 0, dest := 0 }) ∧
      Tab.find? u.pool.moves i = none ∧ u.fab.hist = h ∧
      Tab.find? u.pool.scrubs s.pool.nextScrub = some { tier := m.srcTier, loc := m.srcLoc, units := m.units, fen := (s.ext i).fen
                                                        capring := (s.ext i).capring } ∧
      u.rd Reg.POOL_CNT_MOVE_OK = min (s.rd Reg.POOL_CNT_MOVE_OK + 1) (2 ^ Reg.POOL_CNT_MOVE_OK.width - 1) ∧
      s.onlyChanges u [.regs, .pool, .fab, .cmd]) ∧
  (∀ i m t0, Tab.find? s.pool.moves i = some m → m.copyEnd = some t0 → s.otherReaders i ≠ 0 → s.rd Reg.POOL_MOVE_DRAIN_US < s.sinceUs t0 →
    Tab.has s.pool.extents i = true →
    ∃ u, exec (.moveDrainTimeout i) s = .next (match m.cid with | none => u | some cid => u.complete cid stABORTED) ∧
      s.extentsAfter u [i] (fun e => { e with state := e.restored, prior := false, destTier := 0, dest := 0 }) ∧
      Tab.find? u.pool.moves i = none ∧
      u.rd Reg.POOL_CNT_MOVE_ABORT = min (s.rd Reg.POOL_CNT_MOVE_ABORT + 1) (2 ^ Reg.POOL_CNT_MOVE_ABORT.width - 1) ∧
      s.onlyChanges u [.regs, .pool])

/-- R87, R98–R102, R112, R113, fences, leases, translations and tray reads. POOL_FENCE fences every valid region of its fen and no other, and
kills a command that holds a reference in one. LEASE_EXPIRE frees what a lapsed lease holds, raises its epoch and stops its clock. An answer
for no posted request is counted; one that refuses completes the command RANGE. A translation past its deadline completes TIMEOUT, counted.
A tray read past its deadline is marked late and counted; one past the end-to-end timeout marks its chunk. -/
def Obligations.FencesLeasesAndTranslationsEnd : Prop := ∀ s : State,
  (∀ a fen, s.admitsWrite a 0x200014 → fen < 64 → s.cmd.cmds = [] → s.pool.moves = [] → Tab.wf s.pool.regions = true →
    ∃ t, exec (.poolFence a fen) s = .next t ∧
      (∀ r, t.rgn r = if Tab.has s.pool.regions r && (s.rgn r).valid && (s.rgn r).fen == fen then { s.rgn r with fenced := true } else s.rgn r) ∧
      t.pool.extents = s.pool.extents ∧ s.onlyChanges t [.regs, .pool]) ∧
  (∀ a r cid c i, s.admitsWrite a 0x600004 → s.on Reg.RGN_OP_BUSY = false → r = s.rd Reg.RGN_INDEX_INDEX → (s.rgn r).valid = true →
    s.cmd.cmds = [(cid, c)] → c.src = 0 → s.pool.moves = [] → (s.extentsOf r).map (·.1) = [i] → i ∈ c.rrefs ++ c.wrefs →
    ∃ u, exec (.rgnFence a) s = .next (((u.finish cid stKILLED).syncLeases).rgnEnd stOK) ∧ u.rgn r = { s.rgn r with fenced := true } ∧
      u.cmd = s.cmd ∧ u.pool.extents = s.pool.extents ∧ s.onlyChanges u [.regs, .pool]) ∧
  (∀ clid, s.lapsed (s.lease clid) = true → s.sqt.ents = [] → s.cmd.cmds = [] → s.pool.moves = [] → Tab.wf s.pool.extents = true →
    (∀ p ∈ s.holdings clid, p.2.tier ≠ tierHOST) →
    ∃ t, exec (.leaseExpire clid) s = .next t ∧
      s.extentsAfter t ((s.holdings clid).map (·.1)) (fun e => { e with state := exFREE, scrub := true }) ∧
      (t.lease clid).epoch = (s.lease clid).epoch + 1 ∧ (t.lease clid).running = false ∧ (t.lease clid).expiry = 0 ∧
      t.rd Reg.POOL_CNT_LEASE_EXP = min (s.rd Reg.POOL_CNT_LEASE_EXP + 1) (2 ^ Reg.POOL_CNT_LEASE_EXP.width - 1) ∧
      s.onlyChanges t [.regs, .pool, .flt, .out, .host]) ∧
  (∀ h d, s.on Reg.POOL_HXQ_CTL_ENABLE = true → h = s.rd Reg.POOL_HXQ_RSP_HEAD_INDEX → h ≠ s.rd Reg.POOL_HXQ_RSP_TAIL_INDEX →
    d = memRead s.host (s.rd64 Reg.POOL_HXQ_RSP_BASE_LO Reg.POOL_HXQ_RSP_BASE_HI / 4096 * 4096 +
      32 * (h % 2 ^ s.rd Reg.POOL_HXQ_RSP_LOG2_N)) 32 →
    (Tab.find? s.pool.xlates (fld d 0 4) = none →
      ∃ t, exec .xlateAnswer s = .next t ∧
        t.rd Reg.POOL_HXQ_RSP_HEAD_INDEX = (h + 1) % 2 ^ Reg.POOL_HXQ_RSP_HEAD_INDEX.width ∧
        t.rd Reg.POOL_CNT_HOST_STALE = min (s.rd Reg.POOL_CNT_HOST_STALE + 1) (2 ^ Reg.POOL_CNT_HOST_STALE.width - 1) ∧
        s.onlyChanges t [.regs] ∧ s.regsKeptBut t [Reg.POOL_HXQ_RSP_HEAD_INDEX.key 0 0, Reg.POOL_CNT_HOST_STALE.key 0 0]) ∧
    (∀ x, Tab.find? s.pool.xlates (fld d 0 4) = some x → x.posted = true → fld d 4 1 ≠ 0 →
      ∃ u, exec .xlateAnswer s = .next ((u.finish x.cid stRANGE).postXlates) ∧ Tab.find? u.pool.xlates (fld d 0 4) = none ∧
        s.onlyChanges u [.regs, .pool] ∧ s.regsKeptBut u [Reg.POOL_HXQ_RSP_HEAD_INDEX.key 0 0])) ∧
  (∀ cid c, s.cmdOf cid = some c → c.phase = .translating → s.rd Reg.POOL_XLATE_DL_US ≤ s.sinceUs c.acceptedAt →
    ∃ u, exec (.xlateTimeout cid) s = .next ((u.finish cid stTIMEOUT).postXlates) ∧
      u.rd Reg.POOL_CNT_HOST_TIMEOUT = min (s.rd Reg.POOL_CNT_HOST_TIMEOUT + 1) (2 ^ Reg.POOL_CNT_HOST_TIMEOUT.width - 1) ∧
      s.onlyChanges u [.regs] ∧ s.regsKeptBut u [Reg.POOL_CNT_HOST_TIMEOUT.key 0 0]) ∧
  (∀ cid k c x cl item, s.runningChunk cid k = some (c, x, cl) → s.trayDeadline c ≠ 0 → s.trayDeadline c < s.sinceNs x.dispatchedAt →
    x.late.contains item = false → ∃ t, exec (.trayReadDeadline cid k item) s = .next t ∧
      (t.cmdOf cid).bind (fun c => Tab.find? c.chunks k) = some { x with late := x.late ++ [item] } ∧
      t.rd Reg.POOL_CNT_LATE = min (s.rd Reg.POOL_CNT_LATE + 1) (2 ^ Reg.POOL_CNT_LATE.width - 1) ∧
      s.onlyChanges t [.regs, .cmd] ∧ s.regsKeptBut t [Reg.POOL_CNT_LATE.key 0 0]) ∧
  (∀ cid k c x cl, s.runningChunk cid k = some (c, x, cl) → isCkp c.opcode = false → (c.segs.any fun g => g.tier == tierTRAY) = true →
    s.trayDeadline c = 0 → x.dispatchedAt + s.timeoutHclk ≤ s.hclk → ∃ t, exec (.trayReadTimeout (.chunk cid k)) s = .next t ∧
      (t.cmdOf cid).bind (fun c => Tab.find? c.chunks k) = some { x with timedOut := true } ∧ s.onlyChanges t [.cmd])

/-- R79, R117, R539, the EXT operations. READ copies the entry's eight words to DATA; FIND looks up the extent of an address and does the same,
RANGE where none covers it. CREATE makes a RESIDENT extent of the region's fen by first fit, and CREATE_HOST one of a handle; both refuse a
region that is not valid RANGE and a fenced one FENCED. FREE frees an entry that nothing holds, and refuses a FREE entry RANGE. Each ends
with its STATUS and DONE.  And R82, R87, R118, R539, the RGN operations. READ copies a region's eight words to DATA; CREATE makes an invalid
entry a region with the words given, counted for its fen, and refuses a valid entry RETRY and a range taken or outside the pool RANGE;
UPDATE changes the key and the rights of a region and nothing else of it; FENCE fences it; DELETE of a region without extents ends it at
once and uncounts it. READ_CLIENT and WRITE_CLIENT read and write a client's two groups. Each ends with its STATUS and DONE. -/
def Obligations.TableOperationsEndWithTheirStatus : Prop :=
  (∀ (s : State) (a : Access), s.admitsWrite a 0x400004 →
    (∃ t, exec (.extRead a) s = .next t ∧
      (∀ w, w < 8 → t.rd Reg.EXT_DATA w = (s.ext (s.rd Reg.EXT_INDEX_INDEX)).words.getD w 0 % 2 ^ 32) ∧
      t.rd Reg.EXT_STATUS_STATUS = stOK ∧ t.rd Reg.EXT_STATUS_DONE = 1 ∧ s.onlyChanges t [.regs]) ∧
    (∀ i e, s.extAt (s.rd64 Reg.EXT_ADDR_LO Reg.EXT_ADDR_HI % 2 ^ 46) = some (i, e) → ∃ t, exec (.extFind a) s = .next t ∧
      t.rd Reg.EXT_INDEX_INDEX = i % 2 ^ Reg.EXT_INDEX_INDEX.width ∧
      (∀ w, w < 8 → t.rd Reg.EXT_DATA w = (s.ext i).words.getD w 0 % 2 ^ 32) ∧ t.rd Reg.EXT_STATUS_STATUS = stOK ∧ s.onlyChanges t [.regs]) ∧
    (s.extAt (s.rd64 Reg.EXT_ADDR_LO Reg.EXT_ADDR_HI % 2 ^ 46) = none → ∃ t, exec (.extFind a) s = .next t ∧
      t.rd Reg.EXT_STATUS_STATUS = stRANGE ∧ t.rd Reg.EXT_STATUS_DONE = 1 ∧ s.onlyChanges t [.regs]) ∧
    (∀ r start n tier i loc, s.createArgs = (r, start, n) → tier = s.rd Reg.EXT_DATA 1 / 2 ^ 30 → n ≠ 0 → tier < 2 → (s.rgn r).fen < 64 →
      (s.rgn r).valid = true → (s.rgn r).fenced = false → s.placeCheck r start n tier = stOK → s.freeExt = some i →
      s.fitsExtent (s.rgn r).fen = true → s.fitsRsv tier (s.rgn r).fen n = true →
      s.firstFit tier (s.rd Reg.EXT_DATA 2 + 2 ^ 32 * s.rd Reg.EXT_DATA 3) (s.rgn r).fen n = some loc →
      ∃ t, exec (.extCreate a) s = .next t ∧
        t.ext i = { start := start, state := exRESIDENT, length := n, tier := tier, loc := loc, fen := (s.rgn r).fen, region := r } ∧
        (∀ j, j ≠ i → t.ext j = s.ext j) ∧ (∀ b, b < n * unitBytes → t.readTier tier (locByte tier loc + b) 1 = [0]) ∧
        t.rd Reg.EXT_STATUS_STATUS = stOK ∧ t.rd Reg.EXT_STATUS_DONE = 1 ∧ s.onlyChanges t [.regs, .near, .tray, .flt, .pool]) ∧
    (∀ r start n i, s.createArgs = (r, start, n) → n ≠ 0 → (s.rgn r).valid = true → (s.rgn r).fenced = false → (s.rgn r).base ≤ start →
      start + n ≤ (s.rgn r).base + (s.rgn r).size → s.overlapping (start * unitBytes) (n * unitBytes) = [] → s.freeExt = some i →
      s.fitsExtent (s.rgn r).fen = true → ∃ t, exec (.extCreateHost a) s = .next t ∧
        t.ext i = { start := start, state := exRESIDENT, length := n, tier := tierHOST, loc := s.rd Reg.EXT_DATA 2
                    fen := (s.rgn r).fen, region := r } ∧ (∀ j, j ≠ i → t.ext j = s.ext j) ∧ t.rd Reg.EXT_STATUS_STATUS = stOK ∧ s.onlyChanges t [.regs, .pool]) ∧
    (∀ c r start n, (c = Instr.extCreate a ∨ c = Instr.extCreateHost a) → s.createArgs = (r, start, n) → n ≠ 0 →
      s.rd Reg.EXT_DATA 1 / 2 ^ 30 < 2 →
      ((s.rgn r).valid = false → ∃ t, exec c s = .next t ∧ t.rd Reg.EXT_STATUS_STATUS = stRANGE ∧ t.rd Reg.EXT_STATUS_DONE = 1 ∧
        s.onlyChanges t [.regs]) ∧
      ((s.rgn r).valid = true → (s.rgn r).fenced = true → ∃ t, exec c s = .next t ∧ t.rd Reg.EXT_STATUS_STATUS = stFENCED ∧
        s.onlyChanges t [.regs])) ∧
    (∀ i, i = s.rd Reg.EXT_INDEX_INDEX →
      ((s.ext i).state ≠ exFREE → (s.rgn (s.ext i).region).fenced = false → s.freeRefusal i 0 = stOK → (s.ext i).tier ≠ tierHOST →
        Tab.find? s.pool.moves i = none →
        ∃ t, exec (.extFree a) s = .next t ∧ s.extentsAfter t [i] (fun e => { e with state := exFREE, scrub := true }) ∧
          t.rd Reg.EXT_STATUS_STATUS = stOK ∧ s.onlyChanges t [.regs, .pool]) ∧
      ((s.ext i).state = exFREE → ∃ t, exec (.extFree a) s = .next t ∧ t.rd Reg.EXT_STATUS_STATUS = stRANGE ∧ s.onlyChanges t [.regs]))) ∧
  (∀ (s : State) (a : Access) (r : Nat), s.admitsWrite a 0x600004 →
    r = s.rd Reg.RGN_INDEX_INDEX →
    (∃ t, exec (.rgnRead a) s = .next t ∧ (∀ w, w < 8 → t.rd Reg.RGN_DATA w = (s.regionWords r).getD w 0 % 2 ^ 32) ∧
      t.rd Reg.RGN_STATUS_STATUS = stOK ∧ t.rd Reg.RGN_STATUS_DONE = 1 ∧ s.onlyChanges t [.regs]) ∧
    (s.on Reg.RGN_OP_BUSY = false → s.rgnBad = false →
      (∀ base size fen, base = s.rgnData 0 % 2 ^ 30 → size = s.rgnData 1 % 2 ^ 30 → fen = bits (s.rgnData 2) 16 6 → size ≠ 0 →
        (s.rgn r).valid = false →
        (base + size ≤ poolUnits → s.rangeTaken base size = false →
          s.rd Reg.FEN_RGN_USED_COUNT fen < (Tab.getD s.cfg.limits fen {}).regions → ∃ t, exec (.rgnCreate a) s = .next t ∧
          t.rgn r = { base := base, valid := true, size := size, key := s.rgnData 2 % 65536, fen := fen
                      dflt := bits (s.rgnData 2) 22 4, grants := (List.range 4).map fun k => grantOf (s.rgnData (3 + k)) } ∧ (∀ q, q ≠ r → t.rgn q = s.rgn q) ∧
          t.rd Reg.FEN_RGN_USED_COUNT fen = (s.rd Reg.FEN_RGN_USED_COUNT fen + 1) % 2 ^ Reg.FEN_RGN_USED_COUNT.width ∧
          t.rd Reg.RGN_STATUS_STATUS = stOK ∧ s.onlyChanges t [.regs, .pool]) ∧
        ((poolUnits < base + size ∨ s.rangeTaken base size = true) → ∃ t, exec (.rgnCreate a) s = .next t ∧
          t.rd Reg.RGN_STATUS_STATUS = stRANGE ∧ s.onlyChanges t [.regs])) ∧
      (s.rgnData 1 % 2 ^ 30 ≠ 0 → (s.rgn r).valid = true →
        ∃ t, exec (.rgnCreate a) s = .next t ∧ t.rd Reg.RGN_STATUS_STATUS = stRETRY ∧ s.onlyChanges t [.regs]) ∧
      ((s.rgn r).valid = true → ∃ t, exec (.rgnUpdate a) s = .next t ∧ t.rgn r =
          { s.rgn r with key := s.rgnData 2 % 65536, dflt := bits (s.rgnData 2) 22 4, grants := (List.range 4).map fun k => grantOf (s.rgnData (3 + k)) } ∧
        (∀ q, q ≠ r → t.rgn q = s.rgn q) ∧ t.rd Reg.RGN_STATUS_STATUS = stOK ∧ s.onlyChanges t [.regs, .pool])) ∧
    (s.on Reg.RGN_OP_BUSY = false → (s.rgn r).valid = true → s.cmd.cmds = [] → s.pool.moves = [] →
      (∃ t, exec (.rgnFence a) s = .next t ∧ t.rgn r = { s.rgn r with fenced := true } ∧ (∀ q, q ≠ r → t.rgn q = s.rgn q) ∧
        t.rd Reg.RGN_STATUS_STATUS = stOK ∧ t.rd Reg.RGN_STATUS_DONE = 1 ∧ s.onlyChanges t [.regs, .pool]) ∧
      (s.extentsOf r = [] → (s.rgn r).fen < 64 → (∀ k ∈ s.pool.scrubs, k.2.region ≠ some r) → (∀ g ∈ s.pool.regions, g.2.deleting = false) →
        Tab.wf s.pool.regions = true →
        ∃ t, exec (.rgnDelete a) s = .next t ∧ (t.rgn r).valid = false ∧ (∀ q, q ≠ r → t.rgn q = s.rgn q) ∧
        t.rd Reg.FEN_RGN_USED_COUNT (s.rgn r).fen =
          (s.rd Reg.FEN_RGN_USED_COUNT (s.rgn r).fen - 1) % 2 ^ Reg.FEN_RGN_USED_COUNT.width ∧
        t.rd Reg.RGN_OP_BUSY = 0 ∧ t.rd Reg.RGN_STATUS_STATUS = stOK ∧ s.onlyChanges t [.regs, .pool])) ∧
    (∃ t, exec (.rgnReadClient a) s = .next t ∧
      t.rd Reg.RGN_DATA 0 = ((s.groupsOf (s.rd Reg.RGN_CLID_CLID)).1 + 256 * (s.groupsOf (s.rd Reg.RGN_CLID_CLID)).2) % 2 ^ 32 ∧
      t.rd Reg.RGN_STATUS_STATUS = stOK ∧ s.onlyChanges t [.regs]) ∧
    (s.on Reg.RGN_OP_BUSY = false → s.rgnData 0 < 2 ^ 16 → ∃ t, exec (.rgnWriteClient a) s = .next t ∧
      t.groupsOf (s.rd Reg.RGN_CLID_CLID) = (s.rgnData 0 % 256, s.rgnData 0 / 256) ∧
      (∀ c, c ≠ s.rd Reg.RGN_CLID_CLID → t.groupsOf c = s.groupsOf c) ∧
      t.rd Reg.RGN_STATUS_STATUS = stOK ∧ s.onlyChanges t [.regs, .pool]))

/-- R164–R166, R177, R185, R190, a packet reaches its engine. A contribution that passes its checks and finds no instance opens one, with the
packet's type, operation and class and the tree's record latched, and waits for its slots; one that fits an open instance joins it; one that
does not is counted and changes nothing. A contribution that fails its checks is answered with a status result and counted. A status partial
ends its instance; a partial on a port that is no child's is counted and dropped. A packet of an ended instance meets its outcome. -/
def Obligations.ContributionsOpenAndJoinInstances : Prop := ∀ (s : State) (e : Nat) (q : QPkt) (rest : List (Nat × QPkt)) (tr : TreeRec) (k : Nat),
  s.fab.redq = (e, q) :: rest → q.conn < 32 → tr = Tab.getD s.cfg.trees q.pkt.tree {} → k = redKey q.pkt.tree q.pkt.tag →
  (q.pkt.opcode = opREDUCE_CONTRIB →
    (s.contribCheck q = (stOK, 0) → Tab.find? s.red.insts k = none → s.red.insts.length < 16384 →
      s.redUsed tr.fen (engineOf q.conn) + chunkCharge q.pkt.ty ≤ s.rd Reg.RED_QUOTA tr.fen →
      ∃ t i, exec (.reduceContrib e) s = .next t ∧ t.fab.redq = rest ∧ Tab.find? t.red.insts k = some i ∧ i.typ = q.pkt.ty ∧ i.otype = q.pkt.oty ∧
        i.op = q.pkt.rop ∧ i.cls = q.pkt.cls ∧ i.fen = tr.fen ∧ i.exact = tr.exact ∧ i.root = tr.root ∧ i.expected = tr.expected ∧
        i.deadlineUs = tr.deadlineUs ∧ i.seed = (if tr.stoch then some tr.seed else none) ∧ i.openedAt = s.hclk ∧ i.outcome = none ∧
        i.committed = false ∧ (∀ x ∈ i.chunks, x.2.counted = []) ∧
        Tab.find? t.red.pend q.conn = some (Tab.getD s.red.pend q.conn [] ++ [⟨q.pkt, q.conn, none⟩]) ∧
        t.rd Reg.RED_STAT_INST = (s.rd Reg.RED_STAT_INST + 1) % 2 ^ Reg.RED_STAT_INST.width ∧ s.onlyChanges t [.regs, .red, .fab]) ∧
    (∀ st off, s.contribCheck q = (st, off) → st = stKEY_DENIED → ∃ u, exec (.reduceContrib e) s = .next (u.answerContrib q.pkt st off) ∧
      u.rd Reg.RED_CNT_DENIED = min (s.rd Reg.RED_CNT_DENIED + 1) (2 ^ Reg.RED_CNT_DENIED.width - 1) ∧ s.onlyChanges u [.regs, .fab]) ∧
    (∀ off, s.contribCheck q = (stMALFORMED, off) → ∃ u, exec (.reduceContrib e) s = .next (u.answerContrib q.pkt stMALFORMED off) ∧
      u.rd Reg.RED_CNT_MALFORMED = min (s.rd Reg.RED_CNT_MALFORMED + 1) (2 ^ Reg.RED_CNT_MALFORMED.width - 1) ∧ s.onlyChanges u [.regs, .fab])) ∧
  (q.pkt.opcode = opREDUCE_PARTIAL → (tr.valid = false ∨ bit tr.childPorts q.conn = false) →
    ∃ t, exec (.reducePartial e) s = .next t ∧ t.fab.redq = rest ∧
      t.rd Reg.RED_CNT_DENIED = min (s.rd Reg.RED_CNT_DENIED + 1) (2 ^ Reg.RED_CNT_DENIED.width - 1) ∧
      s.onlyChanges t [.regs, .fab] ∧ s.regsKeptBut t [Reg.RED_CNT_DENIED.key 0 0]) ∧
  (∀ cmd i, (cmd = Instr.reduceContrib e ∧ q.pkt.opcode = opREDUCE_CONTRIB ∧ s.contribCheck q = (stOK, 0)) ∨
      (cmd = Instr.reducePartial e ∧ q.pkt.opcode = opREDUCE_PARTIAL ∧ firstBad (redFields s q.pkt) = none ∧ tr.valid = true ∧
        bit tr.childPorts q.conn = true ∧ q.pkt.status = 0) →
    Tab.find? s.red.insts k = some i →
    (i.outcome = none → i.mismatch q.pkt = false →
      (Tab.getD i.chunks (q.pkt.epos / tyE i.typ) {}).engines.contains (engineOf q.conn) = true →
      ∃ t, exec cmd s = .next t ∧ Tab.find? t.red.insts k = some (i.latch q.pkt) ∧
        Tab.find? t.red.pend q.conn = some (Tab.getD s.red.pend q.conn [] ++ [⟨q.pkt, q.conn, none⟩]) ∧ s.onlyChanges t [.red, .fab]) ∧
    (i.outcome = none → i.mismatch q.pkt = true → ∃ t, exec cmd s = .next t ∧ t.fab.redq = rest ∧
      t.rd Reg.RED_CNT_MISMATCH = min (s.rd Reg.RED_CNT_MISMATCH + 1) (2 ^ Reg.RED_CNT_MISMATCH.width - 1) ∧
      s.onlyChanges t [.regs, .fab] ∧ s.regsKeptBut t [Reg.RED_CNT_MISMATCH.key 0 0]) ∧
    (∀ st t0, i.outcome = some (st, t0) → st ≠ stOK → q.pkt.opcode = opREDUCE_CONTRIB → ∀ p res,
      res = s.resultPacket i (senderOf q.pkt q.conn none) q.pkt.epos st 0 true [] → s.clearPath res p →
      ∃ t, exec cmd s = .next t ∧ t.voq connHE0 p res.queue = s.voqWith p res ∧ t.red = s.red ∧
        t.rd Reg.RED_CNT_REPLAY = min (s.rd Reg.RED_CNT_REPLAY + 1) (2 ^ Reg.RED_CNT_REPLAY.width - 1) ∧ s.onlyChanges t [.regs, .fab, .xbr])) ∧
  (∀ i, q.pkt.opcode = opREDUCE_PARTIAL → firstBad (redFields s q.pkt) = none → tr.valid = true → bit tr.childPorts q.conn = true →
    q.pkt.status ≠ 0 → Tab.find? s.red.insts k = some i → i.outcome = none → i.mismatch q.pkt = false → i.committed = false →
    ∃ u, exec (.reducePartial e) s = .next (u.redEnd k q.pkt.status) ∧ u.fab.redq = rest ∧ s.onlyChanges u [.fab])

/-- R31, R176, R178, R182, R183, R185, R186, R190, R194, an instance's life. A slot grant moves the engine's rotation on; a packet of one slot
is accumulated, its sender counted once, and one of two slots is staged first. The last sender of the last chunk commits the root: its
results are the accumulators rounded, and its outcome is OK. A result from the parent is kept and, when it is the last, sets the outcome. A
deadline ends an uncommitted instance TIMEOUT: its chunks are freed, and its senders have a status result. A kept outcome expires, and
RED_TREE_READ returns a valid record. -/
def Obligations.InstancesAccumulateCommitAndEnd : Prop := ∀ s : State,
  (∀ e r port, e < 4 → r = Tab.getD s.red.rot e 0 → port = 8 * e + r →
    (Tab.getD s.red.pend port [] = [] → ∃ t, exec (.reduceSlotGrant e) s = .next t ∧ Tab.find? t.red.rot e = some ((r + 1) % 8) ∧
      t.red.insts = s.red.insts ∧ t.red.pend = s.red.pend ∧ s.onlyChanges t [.red]) ∧
    (∀ q, Tab.find? s.red.pend port = some [q] → Tab.find? s.red.half port = none → slotsOf q.pkt = 2 →
      ∃ t, exec (.reduceSlotGrant e) s = .next t ∧ Tab.find? t.red.half port = some q ∧ t.red.insts = s.red.insts ∧ t.red.pend = s.red.pend ∧
        Tab.find? t.red.rot e = some ((r + 1) % 8) ∧ s.onlyChanges t [.red]) ∧
    (∀ q i c x k, Tab.find? s.red.pend port = some [q] → Tab.find? s.red.half port = none → slotsOf q.pkt = 1 → q.pkt.opcode = opREDUCE_CONTRIB →
      k = redKey q.pkt.tree q.pkt.tag → Tab.find? s.red.insts k = some i → i.outcome = none → c = q.pkt.epos / tyE i.typ →
      x = Tab.getD i.chunks c {} → x.parts = [] → x.counted.length < i.expected →
      ((x.counted.any fun r => r.src == q.pkt.src) = true → ∃ t, exec (.reduceSlotGrant e) s = .next t ∧ t.red.insts = s.red.insts ∧
        t.rd Reg.RED_CNT_DUP = min (s.rd Reg.RED_CNT_DUP + 1) (2 ^ Reg.RED_CNT_DUP.width - 1) ∧ s.onlyChanges t [.regs, .red]) ∧
      ((x.counted.any fun r => r.src == q.pkt.src) = false → x.counted.length + 1 < i.expected →
        ∃ t j, exec (.reduceSlotGrant e) s = .next t ∧ Tab.find? t.red.pend port = some [] ∧ Tab.find? t.red.insts k = some j ∧
          Tab.find? j.chunks c = some
            { x with accs := mergeAt (Accum.merge i.op) (q.pkt.epos - c * tyE i.typ) x.accs (i.inputs q.pkt).1
                     rangeIn := x.rangeIn || (i.inputs q.pkt).2
                     counted := x.counted ++ [senderOf q.pkt q.port q.cmd] } ∧ s.onlyChanges t [.red]) ∧
      (∀ n, (x.counted.any fun r => r.src == q.pkt.src) = false → x.counted.length + 1 = i.expected → i.root = true → i.n = some n → 0 < n →
        n ≤ tyE i.typ → i.chunks = [(0, x)] → x.engines.contains i.homeEngine = true → (x.counted.all fun r => !r.want) = true →
        q.pkt.want = false → ∃ t j, exec (.reduceSlotGrant e) s = .next t ∧ Tab.find? t.red.insts k = some j ∧ j.committed = true ∧
          j.outcome = some (stOK, s.hclk) ∧
          (Tab.getD j.chunks 0 {}).results = (resultPackets i 0 0
            ((mergeAt (Accum.merge i.op) (q.pkt.epos - c * tyE i.typ) x.accs (i.inputs q.pkt).1).take n) (x.rangeIn || (i.inputs q.pkt).2)).1 ∧
          t.rd Reg.RED_CNT_COMMIT = min (s.rd Reg.RED_CNT_COMMIT + 1) (2 ^ Reg.RED_CNT_COMMIT.width - 1) ∧ s.onlyChanges t [.regs, .red]))) ∧
  (∀ e q rest i k c x, s.fab.redq = (e, q) :: rest → q.pkt.opcode = opREDUCE_RESULT → k = redKey q.pkt.tree q.pkt.tag →
    Tab.find? s.red.insts k = some i → i.root = false → i.outcome = none → q.pkt.src = 0xF000 + i.parentHome →
    (q.pkt.status ≠ 0 → ∃ u, exec (.reduceResult e) s = .next (u.redEnd k q.pkt.status) ∧
      Tab.find? u.red.insts k = some { i with committed := true } ∧ s.onlyChanges u [.red, .fab]) ∧
    (q.pkt.status = 0 → i.committed = true → c = q.pkt.epos / tyE i.typ → x = Tab.getD i.chunks c {} →
      (x.results.any fun r => r.pos == q.pkt.epos) = false → (x.counted.all fun r => !r.want) = true →
      ∃ t j, exec (.reduceResult e) s = .next t ∧ Tab.find? t.red.insts k = some j ∧
        (Tab.getD j.chunks c {}).results = x.results ++ [{ pos := q.pkt.epos, payload := q.pkt.payload, flags := bits q.pkt.arg 24 4 }] ∧
        j.outcome = (if q.pkt.last then some (stOK, s.hclk) else none) ∧ j.flags = i.flags ||| bits q.pkt.arg 24 4 ∧
        s.onlyChanges t [.red, .fab])) ∧
  (∀ tree tag i, Tab.find? s.red.insts (redKey tree tag) = some i → i.outcome = none → i.committed = false →
    i.openedAt + usToHclk i.deadlineUs ≤ s.hclk → i.root = true →
    ((∀ r ∈ i.participants, r.cmd.isSome = true) → (∀ x ∈ i.chunks, ∀ e ∈ x.2.engines, e < 4) →
      ∃ t, exec (.reduceDeadline tree tag) s = .next t ∧
        Tab.find? t.red.insts (redKey tree tag) = some { i with chunks := [], outcome := some (stTIMEOUT, s.hclk) } ∧
        t.rd Reg.RED_CNT_TIMEOUT = min (s.rd Reg.RED_CNT_TIMEOUT + 1) (2 ^ Reg.RED_CNT_TIMEOUT.width - 1) ∧ s.onlyChanges t [.regs, .red]) ∧
    (∀ r p res, i.participants = [r] → r.cmd = none → res = s.resultPacket i r (if r.child then 0 else r.pos) stTIMEOUT 0 true [] →
      s.clearPath res p → ∃ t, exec (.reduceDeadline tree tag) s = .next t ∧ t.voq connHE0 p res.queue = s.voqWith p res ∧
        Tab.find? t.red.insts (redKey tree tag) = some { i with chunks := [], outcome := some (stTIMEOUT, s.hclk) } ∧
        s.onlyChanges t [.regs, .red, .fab, .xbr])) ∧
  (∀ tree tag i st t0, Tab.find? s.red.insts (redKey tree tag) = some i → i.outcome = some (st, t0) →
    t0 + usToHclk (s.rd Reg.RED_KEEP_US) ≤ s.hclk → s.redHeld (redKey tree tag) = false →
    ∃ t, exec (.reduceKeepExpire tree tag) s = .next t ∧ Tab.find? t.red.insts (redKey tree tag) = none ∧
      (∀ k, k ≠ redKey tree tag → Tab.find? t.red.insts k = Tab.find? s.red.insts k) ∧ s.onlyChanges t [.regs, .red]) ∧
  (∀ a r, s.admitsWrite a 0x1600104 →
    (Tab.find? s.cfg.trees (s.rd Reg.RED_TREE_INDEX_TREE) = some r → r.valid = true → ∃ t, exec (.redTreeRead a) s = .next t ∧
      (∀ w, w < 8 → t.rd Reg.RED_TREE_DATA w = fld r.bytes (4 * w) 4) ∧ t.rd Reg.RED_TREE_STATUS_STATUS = stOK ∧
      t.rd Reg.RED_TREE_STATUS_DONE = 1 ∧ s.onlyChanges t [.regs]) ∧
    (Tab.find? s.cfg.trees (s.rd Reg.RED_TREE_INDEX_TREE) = none → ∃ t, exec (.redTreeRead a) s = .next t ∧
      t.rd Reg.RED_TREE_STATUS_STATUS = stKEY_DENIED ∧ s.onlyChanges t [.regs] ∧
      s.regsKeptBut t [Reg.RED_TREE_STATUS_STATUS.key 0 0, Reg.RED_TREE_STATUS_DONE.key 0 0]))

/-- R167, R169, R181, exactness. An element's accumulator is the same whatever order its inputs arrive in, and whatever part of them came
through a partial: entering any rearrangement of them gives the same state, and merging the accumulator of some of them gives what entering
them one by one would have. -/
def Obligations.ReductionsDoNotDependOnOrderOrTree : Prop := ∀ (op : Nat) (x : Accum) (xs ys : List Sys2Proof.Machine.Num),
  (xs.Perm ys → xs.foldl (Accum.enter op) x = ys.foldl (Accum.enter op) x) ∧
  Accum.merge op x (ys.foldl (Accum.enter op) {}) = ys.foldl (Accum.enter op) x

/-- R203, R204, R213–R222, R224, chains and gather requests. A chunk of a CHAIN stages what its stages compute and stores nothing; a GATHER's
chunk holds, for each index of its list in order, the bytes of the table's row that the index selects. An index beyond the table stops the
chain RANGE with its position. A commit adds the chunk's rows to the counts, and the last one ends the chain OK, or LATE where rows were
late. A GATHER_REQ that passes its checks joins its fen's work; one that fails is answered with a status packet; a copy of one held is
counted. CHECK_INJECT arms a failing check: the chunk then runs again. -/
def Obligations.ChainsStageAndCommitTheirRows : Prop := ∀ s : State,
  (∀ cid k c x, s.runsChunk cid k 0x20 c x →
    (∀ w ws ps, s.chainWork c k x = some (.ok (w, ws, ps)) → s.on Reg.OPE_CHK_INJ_ARM = false → x.fails = 0 →
      ∃ t, exec (.chain cid k) s = .next t ∧ s.stagedAs t cid k { x with work := w, writes := ws, vals := ps }) ∧
    (∀ g idx n start, c.stageList = [g] → g.op = sGATHER → k = c.committed → start = c.chain.rowsIn → start < g.inputRows → x.late = [] →
      n = s.chunkRows c g start → s.readFault (c.pieces (refC 0) (start * g.iw) (n * g.iw)) = none →
      idx = (fun i => leNat (slice (s.readPieces (c.pieces (refC 0) (start * g.iw) (n * g.iw))) (i * g.iw) g.iw)) →
      (∀ i, i < n → idx i * g.stride + g.rowBytes ≤ 64 * g.a.gran) →
      (∀ i, i < n → s.readFault (c.pieces (refA 0) (idx i * g.stride) g.rowBytes) = none) →
      ∃ w, s.chainWork c k x = some (.ok (w, [], [])) ∧ w.count = n ∧ w.lates = [(0, [])] ∧
        w.outs = [(0, (List.range n).map fun i =>
          { id := start + i, data := s.readPieces (c.pieces (refA 0) (idx i * g.stride) g.rowBytes) })]) ∧
    (∀ si pos, s.chainWork c k x = some (.error (.bad si pos)) →
      ∃ u, exec (.chain cid k) s = .next (u.chainEnd cid stRANGE) ∧
        (u.cmdOf cid).map (fun d => (d.chain.firstBad, d.chain.stage)) = some (some pos, some si) ∧
        u.rd Reg.OPE_CNT_BADIDX = min (s.rd Reg.OPE_CNT_BADIDX + 1) (2 ^ Reg.OPE_CNT_BADIDX.width - 1) ∧ s.onlyChanges u [.regs, .cmd]) ∧
    (∀ w ws ps, s.chainWork c k x = some (.ok (w, ws, ps)) → s.on Reg.OPE_CHK_INJ_ARM = true →
      (c.stageList.map (·.op)).contains (s.rd Reg.OPE_CHK_INJ_OP) = true → x.fails = 0 → c.fen < 64 →
      ∃ t y, exec (.chain cid k) s = .next t ∧ t.rd Reg.OPE_CHK_INJ_ARM = 0 ∧
        (t.cmdOf cid).bind (fun d => Tab.find? d.chunks k) = some y ∧ y.phase = .waiting ∧ y.fails = 1 ∧ y.writes = [] ∧ t.near = s.near ∧
        t.tray = s.tray)) ∧
  (∀ cid c x, s.cmdOf cid = some c → s.fatal = false → Tab.find? c.chunks c.committed = some x → c.src = 0 → c.opcode = 0x20 → x.phase = .staged →
    x.writes = [] → x.work.outs = [] → c.committed + 1 < c.nchunks → ∃ u d, exec (.chunkCommit cid) s = .next ((u.syncCmd c.fen).preempt) ∧
      u.cmdOf cid = some d ∧ d.committed = c.committed + 1 ∧ d.chain.rowsIn = c.chain.rowsIn + x.work.count ∧
      d.chain.dropped = c.chain.dropped + x.work.dropped ∧ d.chain.flags = c.chain.flags ||| x.work.flags ∧ s.onlyChanges u [.regs, .cmd]) ∧
  (∀ cid c x, s.cmdOf cid = some c → s.fatal = false → Tab.find? c.chunks c.committed = some x → c.src = 0 → c.opcode = 0x20 → x.phase = .staged →
    x.writes = [] → x.work.outs = [] → c.nchunks ≤ c.committed + 1 → ∃ u, exec (.chunkCommit cid) s =
      .next (((u.chainEnd cid (if c.chain.lateRows + (x.work.lates.map fun l => l.2.length).sum = 0 then stOK else stLATE)).syncCmd c.fen).preempt) ∧
      s.onlyChanges u [.regs, .cmd]) ∧
  (∀ q rest, s.fab.he0 = q :: rest → q.pkt.kind = .gather →
    (∀ a p segs, (q.pkt.retx && s.cmd.cmds.any fun c => c.2.src == 1 && c.2.pkt.src == q.pkt.src && c.2.pkt.seq == q.pkt.seq) = false →
      firstBad (gatherFields q.pkt) = none → s.fenQuiet (s.who q).2 = false → a = q.pkt.localAddr →
      s.regionCheck (s.who q).1 (s.who q).2 q.pkt.region q.pkt.key (rtR + rtC) a q.pkt.gTable = stOK →
      s.rangeSegs (refA 0) a q.pkt.gTable false false = some segs → p = q.pkt →
      ((List.range p.gCount).find? fun i => decide (p.gTable < p.gIndex i * p.gStride + p.gRow)) = none → segs.length ≤ 4096 →
      (s.who q).2 < 64 → (s.fenClusters (s.who q).2).isEmpty = false → (s.cmd.cmds.countP fun c => c.2.src == 1) < 1024 →
      (∀ e, (s.ext e).rrefs < 65535) → ∃ t d, exec .gatherReq s = .next t ∧ t.fab.he0 = rest ∧ t.cmdOf s.cmd.nextCid = some d ∧ d.src = 1 ∧
        d.pkt = q.pkt ∧ d.fen = (s.who q).2 ∧ d.segs = segs ∧ d.rrefs = (segs.map (·.ext)).eraseDups ∧ d.phase = .staging ∧
        s.onlyChanges t [.regs, .pool, .fab, .cmd]) ∧
    ((q.pkt.retx && s.cmd.cmds.any fun c => c.2.src == 1 && c.2.pkt.src == q.pkt.src && c.2.pkt.seq == q.pkt.seq) = true →
      ∃ t, exec .gatherReq s = .next t ∧ t.fab.he0 = rest ∧
        t.rd Reg.OPE_CNT_GREQ_DUP = min (s.rd Reg.OPE_CNT_GREQ_DUP + 1) (2 ^ Reg.OPE_CNT_GREQ_DUP.width - 1) ∧
        s.onlyChanges t [.regs, .fab]) ∧
    (∀ o p, q.pkt.retx = false → firstBad (gatherFields q.pkt) = some o → s.clearPath (gatherStatus q.pkt stMALFORMED o) p →
      ∃ t, exec .gatherReq s = .next t ∧ t.fab.he0 = rest ∧ t.voq connHE0 p (gatherStatus q.pkt stMALFORMED o).queue =
        s.voqWith p (gatherStatus q.pkt stMALFORMED o) ∧ s.onlyChanges t [.fab, .xbr])) ∧
  (∀ a op, s.admitsWrite a 0x1400050 → op < 8 → ∃ t, exec (.checkInject a op) s = .next t ∧ t.rd Reg.OPE_CHK_INJ_OP = op ∧
    t.rd Reg.OPE_CHK_INJ_ARM = 1 ∧ s.onlyChanges t [.regs] ∧
    s.regsKeptBut t [Reg.OPE_CHK_INJ_OP.key 0 0, Reg.OPE_CHK_INJ_ARM.key 0 0])

/-- R208, TOPK. The selection of a stream's rows has at most K rows, in the order of their keys and, for equal keys, of their ROWIDs; each of
them is a row of the stream with a key that is no NaN; and a row of the stream with such a key is among them, or K rows come at or before
it. -/
def Obligations.TopkSelectsTheFirstRows : Prop := ∀ (g : Stage) (rows : List Row) (K : Nat) (key : Row → Option Int) (l : List (Int × Nat × Bytes)),
  K = fld g.body 4 2 →
  key = (fun r => (fieldKey (fld g.body 2 1) (fld r.data (fld g.body 0 2) (ftSize (fld g.body 2 1)))).map
    fun v => if fld g.body 3 1 = 0 then -v else v) →
  l = topFold g [] rows →
  l.length ≤ K ∧ (l.Pairwise fun a b => a.1 < b.1 ∨ (a.1 = b.1 ∧ a.2.1 ≤ b.2.1)) ∧
  (∀ y ∈ l, ∃ r ∈ rows, key r = some y.1 ∧ y.2.1 = r.id ∧ y.2.2 = emitRow g.emit r) ∧
  (∀ r ∈ rows, ∀ v, key r = some v →
    (v, r.id, emitRow g.emit r) ∈ l ∨ (l.length = K ∧ ∀ y ∈ l, y.1 < v ∨ (y.1 = v ∧ y.2.1 ≤ r.id)))

/-- R282–R284, R288, R291–R294, fetch, acceptance, staging and the ring table. A fetch takes the next descriptor of the ring that R292 names: a
good one that passes its checks becomes a command that waits for staging, one outstanding more; one with a bad field completes MALFORMED
with its offset; a granule that cannot be read puts the ring into ERROR. STAGING_ADMIT makes the command it picks ready. NOP completes OK.
The ring operations read a pair, register one on two extents with its completion ring zeroed, take one out and restart one. -/
def Obligations.DescriptorsAreFetchedAndAdmitted : Prop := ∀ s : State,
  (∀ p r a e d c, s.fetchFrom = some (p, r) → a = r.sqBase + 128 * (r.fetchHead % 2 ^ r.sqLog2) → e = s.ext r.sqExt →
    r = s.ring p → r.fen < 64 → d = s.readTier e.tier (e.at_ a) 128 →
    c = { pair := p, slot := r.fetchHead, fen := r.fen, clid := p / 4, cls := p % 4, opcode := fld d 0 1, ordered := bit (fld d 1 1) 0
          par := fld d 2 1, cmdId := fld d 4 4, desc := d, acceptedAt := s.hclk } →
    (s.badRange e.tier (e.at_ a) 128 = false →
      (∀ o, firstBad (s.descFields r.fen d) = some o → ∃ u, exec .descriptorFetch s = .next (u.refuseDesc c stMALFORMED o) ∧
        (u.ring p).fetchHead = (r.fetchHead + 1) % 65536 ∧ (u.ring p).outstanding = r.outstanding + 1 ∧
        (∀ k, k ≠ p → u.ring k = s.ring k) ∧
        u.rd Reg.CMD_CNT_ACCEPT = min (s.rd Reg.CMD_CNT_ACCEPT + 1) (2 ^ Reg.CMD_CNT_ACCEPT.width - 1) ∧ s.onlyChanges u [.regs, .cmd]) ∧
      (∀ u x, firstBad (s.descFields r.fen d) = none →
        u = ((s.upCmd fun b => { b with lastServed := Tab.put b.lastServed (pairClass p) p }).upRing p fun r =>
          { r with fetchHead := (r.fetchHead + 1) % 65536, outstanding := r.outstanding + 1 }).bump Reg.CMD_CNT_ACCEPT →
        u.acceptOp c = .ok x → (x.segs.any fun g => g.tier == tierPENDING) = false → (∀ i, (s.ext i).rrefs < 65535 ∧ (s.ext i).wrefs < 65535) →
        s.pool.moves = [] → s.pool.xlates = [] → ∃ t, exec .descriptorFetch s = .next t ∧
          t.cmdOf s.cmd.nextCid = some { c with segs := x.segs, rrefs := x.rrefs, wrefs := x.wrefs, base := x.base, nchunks := x.nchunks,
                                                stages := x.stages, serial := x.serial, result := x.result, phase := .staging } ∧
          (t.ring p).fetchHead = (r.fetchHead + 1) % 65536 ∧ (t.ring p).outstanding = r.outstanding + 1 ∧
          s.onlyChanges t [.regs, .pool, .cmd])) ∧
    (s.badRange e.tier (e.at_ a) 128 = true → r.state = ringACTIVE → ∃ t, exec .descriptorFetch s = .next t ∧ (t.ring p).state = ringERROR ∧
      (t.ring p).err = stCHECK_FAIL ∧ (t.ring p).fetchHead = r.fetchHead ∧ (∀ k, k ≠ p → t.ring k = s.ring k) ∧ t.cmd.cmds = s.cmd.cmds)) ∧
  (∀ fen cid c, (((List.range 4).filterMap fun k => s.oldestWaiting fen k).find? fun c => s.stageFits fen c.2.cls c.2.base) = some (cid, c) →
    ∃ u, exec (.stagingAdmit fen) s = .next ((u.syncCmd fen).preempt) ∧
      u.cmd.cmds = Tab.upd s.cmd.cmds cid (fun c => { c with phase := .ready, readyAt := s.hclk }) ∧ s.onlyChanges u [.cmd]) ∧
  (∀ cid c, s.tableCmd cid 0x01 = some c → ∃ u, exec (.nop cid) s = .next (u.finish cid stOK) ∧
    u.cmdOf cid = some { c with committed := 1 } ∧ s.onlyChanges u [.cmd]) ∧
  (∀ a p r, s.admitsWrite a 0x800104 → p = s.rd Reg.CMD_RING_INDEX_PAIR → r = s.ring p →
    (∃ t, exec (.ringRead a) s = .next t ∧ t.rd Reg.CMD_RING_DATA0 = r.sqBase % 2 ^ 32 ∧ t.rd Reg.CMD_RING_DATA2 = r.cqBase % 2 ^ 32 ∧
      t.rd Reg.CMD_RING_DATA4_STATE = r.state % 2 ^ Reg.CMD_RING_DATA4_STATE.width ∧
      t.rd Reg.CMD_RING_DATA5_SQ_TAIL = r.sqTail % 65536 ∧ t.rd Reg.CMD_RING_DATA5_FETCH_HEAD = r.fetchHead % 65536 ∧
      t.rd Reg.CMD_RING_DATA6_CQ_TAIL = r.cqTail % 65536 ∧ t.rd Reg.CMD_RING_DATA6_CQ_HEAD = r.cqHead % 65536 ∧
      t.rd Reg.CMD_RING_STATUS_STATUS = stOK ∧ t.rd Reg.CMD_RING_STATUS_DONE = 1 ∧ s.onlyChanges t [.regs]) ∧
    (∀ rec sq cq sn cn i j, r.state = ringDISABLED → Tab.find? s.cfg.police (p / 4) = some rec → rec.valid = true → rec.fen < 64 →
      sq = (s.rd Reg.CMD_RING_DATA0 + 2 ^ 32 * (s.rd Reg.CMD_RING_DATA1 % 2 ^ 14)) / 4096 * 4096 →
      cq = (s.rd Reg.CMD_RING_DATA2 + 2 ^ 32 * (s.rd Reg.CMD_RING_DATA3 % 2 ^ 14)) / 4096 * 4096 →
      sn = 128 * 2 ^ s.rd Reg.CMD_RING_DATA4_SQ_LOG2 → cn = 32 * 2 ^ s.rd Reg.CMD_RING_DATA4_CQ_LOG2 →
      4 ≤ s.rd Reg.CMD_RING_DATA4_SQ_LOG2 → 4 ≤ s.rd Reg.CMD_RING_DATA4_CQ_LOG2 → (sq + sn ≤ cq ∨ cq + cn ≤ sq) →
      s.ringExt rec.fen sq sn = some i → s.ringExt rec.fen cq cn = some j → Tab.find? s.pool.moves j = none →
      ∃ t, exec (.ringRegister a) s = .next t ∧ t.ring p = { sqBase := sq, cqBase := cq, sqLog2 := s.rd Reg.CMD_RING_DATA4_SQ_LOG2
                                                             cqLog2 := s.rd Reg.CMD_RING_DATA4_CQ_LOG2, state := ringACTIVE, fen := rec.fen
                                                             sqExt := i, cqExt := j } ∧
        (∀ k, k ≠ p → t.ring k = s.ring k) ∧ (∀ b, b < cn → t.readTier (s.ext j).tier ((s.ext j).at_ cq + b) 1 = [0]) ∧
        t.rd Reg.CMD_RING_STATUS_STATUS = stOK ∧ s.onlyChanges t [.regs, .near, .tray, .host, .flt, .cmd]) ∧
    (r.state ≠ ringDISABLED → ∃ t, exec (.ringRegister a) s = .next t ∧ t.rd Reg.CMD_RING_STATUS_STATUS = stRETRY ∧ s.onlyChanges t [.regs]) ∧
    (r.state ≠ ringDISABLED → r.outstanding = 0 → r.fen < 64 → (s.fenState r.fen = fenQUIESCED ∨ s.fenState r.fen = fenUNUSED) →
      ∃ t, exec (.ringUnregister a) s = .next t ∧ t.ring p = {} ∧ (∀ k, k ≠ p → t.ring k = s.ring k) ∧
        t.rd Reg.CMD_RING_STATUS_STATUS = stOK ∧ s.onlyChanges t [.regs, .cmd]) ∧
    (r.state = ringERROR → r.outstanding = 0 → ∃ t, exec (.ringReset a) s = .next t ∧
      t.ring p = { r with state := ringACTIVE, err := 0, sqTail := 0, fetchHead := 0, cqTail := 0, cqHead := 0, waits := [] } ∧
      (∀ k, k ≠ p → t.ring k = s.ring k) ∧ t.rd Reg.CMD_RING_STATUS_STATUS = stOK ∧ s.onlyChanges t [.regs, .cmd]) ∧
    (∀ c, (c = Instr.ringUnregister a ∨ c = Instr.ringReset a) → r.state ≠ ringDISABLED → r.outstanding ≠ 0 → ∃ t, exec c s = .next t ∧
      t.rd Reg.CMD_RING_STATUS_STATUS = stRETRY ∧ s.onlyChanges t [.regs]))

/-- R296, R301–R308, R311, R312, chunks. CHUNK_DISPATCH gives its idle cluster the first waiting chunk that may run on it and on no lower idle
one. CHUNK_COMMIT of a staged chunk performs its writes, adds to the result, and completes the command at its last chunk. CHUNK_AGE raises a
chunk that has waited by one class. SHIELD_LAPSE ends a shield. A REDUCE chunk takes its instance's outcome: OK stages the results, another
status completes the command with it, and until there is one it waits. Pre-emption puts its victim back to wait, counted, its cluster free. -/
def Obligations.ChunksDispatchCommitAndAge : Prop := ∀ s : State,
  (∀ cl w c x, s.idle cl = true → s.fatal = false → (s.waiting.find? fun w => (s.clustersOf w).contains cl &&
      (s.clustersOf w).all fun x => decide (cl ≤ x) || !s.idle x) = some w → s.cmdOf w.cid = some c →
    x = Tab.getD c.chunks w.k { readyAt := c.readyAt } → ∃ u y d, exec (.chunkDispatch cl) s = .next ((u.syncCmd c.fen).preempt) ∧
      Tab.find? u.cmd.running cl = some (w.cid, w.k) ∧ (∀ k, k ≠ cl → Tab.find? u.cmd.running k = Tab.find? s.cmd.running k) ∧
      u.cmdOf w.cid = some d ∧ Tab.find? d.chunks w.k = some y ∧ y.phase = .running ∧ y.cluster = cl ∧ y.dispatchedAt = s.hclk ∧
      y.fails = x.fails ∧ d.next = max c.next (w.k + 1) ∧ d.rerun = (c.rerun || x.again) ∧ s.onlyChanges u [.regs, .cmd]) ∧
  (∀ cid c x v, s.cmdOf cid = some c → s.fatal = false → Tab.find? c.chunks c.committed = some x → c.src = 0 → x.phase = .staged →
    (c.opcode = 0x18 ∨ c.opcode = 0x19 ∨ c.opcode = 0x1B) → x.writes = [v] → v.tier = tierNEAR → 0 < v.data.length →
    s.badRange tierNEAR v.at_ v.data.length = false → Memory.wf s.near = true →
    ∃ u d, exec (.chunkCommit cid) s = .next (((if c.committed + 1 < c.nchunks then u else u.finish cid stOK).syncCmd c.fen).preempt) ∧
      memRead u.near v.at_ v.data.length = v.data ∧ (∀ b, (b < v.at_ ∨ v.at_ + v.data.length ≤ b) → memGet u.near b = memGet s.near b) ∧
      u.cmdOf cid = some d ∧ d.committed = c.committed + 1 ∧ d.result = c.result + x.vals.getD 0 0 ∧ d.rflags = c.rflags ||| x.flags ∧
      Tab.find? d.chunks c.committed = none ∧ s.onlyChanges u [.near, .flt, .cmd]) ∧
  (∀ cid c x, s.cmdOf cid = some c → s.fatal = false → Tab.find? c.chunks c.committed = some x → c.src = 0 → x.phase = .staged →
    c.opcode = 0x1A → x.writes = [] → ∃ u d,
      exec (.chunkCommit cid) s = .next (((if c.committed + 1 < c.nchunks then u else u.finish cid stOK).syncCmd c.fen).preempt) ∧
      u.cmdOf cid = some d ∧ d.committed = c.committed + 1 ∧
      (c.vals = [] → d.result = x.vals.headD c.result ∧ d.vals = x.vals) ∧ (c.vals ≠ [] → d.result = c.result ∧ d.vals = c.vals) ∧
      s.onlyChanges u [.cmd]) ∧
  (∀ cid k c x, s.cmdOf cid = some c → x = Tab.getD c.chunks k { readyAt := c.readyAt, ageFrom := c.readyAt } → c.phase = .ready →
    c.nextChunk = some k → 1 + x.raises < c.cls → max 1 (s.rd Reg.CMD_AGE_US) ≤ s.sinceUs (max x.readyAt x.ageFrom) →
    ∃ t, exec (.chunkAge cid k) s = .next t ∧
      (t.cmdOf cid).bind (fun d => Tab.find? d.chunks k) = some { x with raises := x.raises + 1, ageFrom := s.hclk } ∧
      t.rd Reg.CMD_CNT_AGED = min (s.rd Reg.CMD_CNT_AGED + 1) (2 ^ Reg.CMD_CNT_AGED.width - 1) ∧ s.onlyChanges t [.regs, .cmd] ∧
      s.regsKeptBut t [Reg.CMD_CNT_AGED.key 0 0]) ∧
  (∀ cid c t0, s.cmdOf cid = some c → c.shieldAt = some t0 → s.rd Reg.CMD_SHIELD_MAX_US ≤ s.sinceUs t0 → s.fenQuiet c.fen = false →
    ∃ u, exec (.shieldLapse cid) s = .next (u.preempt) ∧ u.cmdOf cid = some { c with shieldAt := none, kills := 0 } ∧
      u.rd Reg.CMD_CNT_LAPSE = min (s.rd Reg.CMD_CNT_LAPSE + 1) (2 ^ Reg.CMD_CNT_LAPSE.width - 1) ∧ s.onlyChanges u [.regs, .cmd]) ∧
  (∀ cid k c x i, s.runsChunk cid k 0x21 c x → x.vals ≠ [] → Tab.find? s.red.insts (redKey c.rTree (c.rTag k)) = some i →
    (i.outcome = none → exec (.reduce cid k) s = .next s) ∧
    (∀ st t0, i.outcome = some (st, t0) → st ≠ stOK → ∃ u, exec (.reduce cid k) s = .next (u.finish cid st) ∧ s.onlyChanges u [.cmd]) ∧
    (∀ t0, i.outcome = some (stOK, t0) → c.ref1.zero = false → ∃ t, exec (.reduce cid k) s = .next t ∧
      s.stagedAs t cid k
        { x with writes := stagePieces (c.pieces 1 ((c.rRange k).1 * tySize c.rOtype) ((c.rRange k).2 * tySize c.rOtype))
                   (i.resultBytes (c.rRange k).2), flags := i.flags, vals := [(c.rRange k).2] })) ∧
  (∀ cl cid k c x, Tab.find? s.cmd.running cl = some (cid, k) → s.cmdOf cid = some c → Tab.find? c.chunks k = some x → c.fen < 64 →
    c.kills + 1 < s.rd Reg.CMD_KILL_LIMIT_COUNT → ∃ d y, (s.preemptKill cl).cmdOf cid = some d ∧ d.kills = c.kills + 1 ∧
      Tab.find? d.chunks k = some y ∧ y.phase = .waiting ∧ y.writes = [] ∧ y.again = true ∧ d.committed = c.committed ∧
      (∀ r ∈ (s.preemptKill cl).cmd.running, r.2 ≠ (cid, k)) ∧
      (s.preemptKill cl).rd Reg.CMD_CNT_PREEMPT = min (s.rd Reg.CMD_CNT_PREEMPT + 1) (2 ^ Reg.CMD_CNT_PREEMPT.width - 1) ∧
      s.onlyChanges (s.preemptKill cl) [.regs, .cmd])

/-- R257–R262, R266, R271–R275, R280, R281, the sequence table. A SEQ_JOIN takes the lowest free entry, JOINING with its operands, counted; with
none it completes TABLE_FULL. SEQ_LEAVE sets an ACTIVE sequence LEAVING, and frees any other at once; SEQ_RESUME marks a PARKED one, and
refuses any other RANGE. A step's open puts a continuing sequence into the worklist, its length one more after a whole step, and parks one
that finds no page. A leave's pages are released to zero-fill and then free. The SQT operations read groups and entries, reset an empty
group, and drop entries. -/
def Obligations.SequencesJoinLeaveAndContinue : Prop := ∀ s : State, s.pool.moves = [] → s.flt.badGranules = [] → s.flt.poisoned = [] →
  (∀ cid c f g, s.tableCmd cid 0x29 = some c → f = c.fen → f < 64 → g = c.p0 % 4096 → bit c.p0 16 = false → bit c.p0 18 = false →
    s.opening g = false → s.ownsGroup f g = true → (s.members f g).length < 16384 →
    (∀ i, ((List.range (min (min (s.seqEntries f) (s.rd Reg.ATT_DIR_SLOTS_COUNT f)) ((s.seqsOf f).length + 1))).find? fun i =>
        !((s.seqsOf f).map (·.1)).contains i) = some i →
      ∃ u, exec (.seqJoin cid) s = .next (u.finish cid stOK) ∧ u.cmdOf cid = some { c with result := i, committed := 1 } ∧
        u.seq f i = { state := sqJOINING, clid := c.clid, group := g, asap := bit c.p0 17, joinStep := fld c.desc 72 4,
                      parent := fld c.desc 80 8 % 2 ^ 18, joinTime := s.tnow } ∧
        (∀ j, j ≠ i → u.seq f j = s.seq f j) ∧
        u.rd Reg.SQT_STAT_USED = (s.rd Reg.SQT_STAT_USED + 1) % 2 ^ Reg.SQT_STAT_USED.width ∧
        u.rd Reg.FEN_SEQ_USED_COUNT f = (s.rd Reg.FEN_SEQ_USED_COUNT f + 1) % 2 ^ Reg.FEN_SEQ_USED_COUNT.width ∧
        s.onlyChanges u [.regs, .near, .tray, .host, .flt, .sqt, .cmd]) ∧
    (((List.range (min (min (s.seqEntries f) (s.rd Reg.ATT_DIR_SLOTS_COUNT f)) ((s.seqsOf f).length + 1))).find? fun i =>
        !((s.seqsOf f).map (·.1)).contains i) = none →
      ∃ u, exec (.seqJoin cid) s = .next (u.finish cid stTABLE_FULL) ∧
        u.rd Reg.SQT_CNT_TBL_FULL = min (s.rd Reg.SQT_CNT_TBL_FULL + 1) (2 ^ Reg.SQT_CNT_TBL_FULL.width - 1) ∧
        s.onlyChanges u [.regs] ∧ s.regsKeptBut u [Reg.SQT_CNT_TBL_FULL.key 0 0, Reg.FEN_REFUSE_TBL_FULL.key f 0])) ∧
  (∀ cid c f i, s.tableCmd cid 0x2A = some c → f = c.fen → f < 64 → i = c.p0 % 2 ^ 18 → s.opening (s.seq f i).group = false →
    ((s.seq f i).state = sqACTIVE → bit c.p0 18 = false → ∃ u, exec (.seqLeave cid) s = .next (u.finish cid stOK) ∧
      u.seq f i = { s.seq f i with state := sqLEAVING } ∧ (∀ j, j ≠ i → u.seq f j = s.seq f j) ∧ s.onlyChanges u [.sqt, .cmd]) ∧
    ((s.seq f i).state = sqFREE → exec (.seqLeave cid) s = .next (s.finish cid stRANGE)) ∧
    ((s.seq f i).state = sqJOINING → (s.seq f i).hasParent = false → s.cmd.cmds = [(cid, c)] →
      ∃ u, exec (.seqLeave cid) s = .next (u.finish cid stOK) ∧ u.seq f i = {} ∧ (∀ j, j ≠ i → u.seq f j = s.seq f j) ∧
      u.rd Reg.SQT_CNT_LEFT = min (s.rd Reg.SQT_CNT_LEFT + 1) (2 ^ Reg.SQT_CNT_LEFT.width - 1) ∧
      u.rd Reg.FEN_SEQ_USED_COUNT f = (s.rd Reg.FEN_SEQ_USED_COUNT f - 1) % 2 ^ Reg.FEN_SEQ_USED_COUNT.width ∧
      s.onlyChanges u [.regs, .near, .tray, .host, .flt, .att, .sqt, .cmd])) ∧
  (∀ cid c i, s.tableCmd cid 0x2B = some c → i = c.p0 % 2 ^ 18 → s.opening (s.seq c.fen i).group = false →
    ((s.seq c.fen i).state = sqPARKED → ∃ u, exec (.seqResume cid) s = .next (u.finish cid stOK) ∧
      u.seq c.fen i = { s.seq c.fen i with resume := true } ∧ (∀ j, j ≠ i → u.seq c.fen j = s.seq c.fen j) ∧ s.onlyChanges u [.sqt, .cmd]) ∧
    ((s.seq c.fen i).state ≠ sqPARKED → exec (.seqResume cid) s = .next (s.finish cid stRANGE))) ∧
  (∀ g n time f i e h len, s.sqt.opens = [(g, n, time)] → s.groupFen g = some f → f < 64 → s.att.msgs = [] → ((s.grp g).isOpen = false ∨ n = ((s.grp g).cur + 1) % 2 ^ 32) →
    s.members f g = [(i, e)] → e = s.seq f i → e.state = sqACTIVE → h = s.shape f →
    len = (if e.layersDone = h.l then e.length + 1 else e.length) →
    (h.needsPage e len = false → ∃ t, exec .stepOpen s = .next t ∧ (t.grp g).cur = n ∧ (t.grp g).isOpen = true ∧ t.sqt.opens = [] ∧
      t.seq f i = { e with inwl := true, nores := false, noresCounted := false, lastStep := n, length := len
                           layersDone := if e.layersDone = h.l then 0 else e.layersDone } ∧
      t.rd Reg.SQT_CNT_OPEN = min (s.rd Reg.SQT_CNT_OPEN + 1) (2 ^ Reg.SQT_CNT_OPEN.width - 1) ∧ s.onlyChanges t [.regs, .sqt]) ∧
    (h.needsPage e len = true → 0 < h.hkv → s.att.arenas = [] → ∃ t, exec .stepOpen s = .next t ∧
      (t.seq f i).state = sqPARKED ∧ (t.seq f i).nores = true ∧ (t.seq f i).ownPages = e.ownPages ∧ (t.grp g).isOpen = true ∧
      t.rd Reg.SQT_CNT_PARK = min (s.rd Reg.SQT_CNT_PARK + 1) (2 ^ Reg.SQT_CNT_PARK.width - 1) ∧ s.onlyChanges t [.regs, .sqt])) ∧
  (∀ n v, Tab.find? s.att.leaving n = some v → (s.cmd.cmds.any fun c => decide (c.1 < v.before) && c.2.src == 2 && c.2.fen == v.fen &&
      c.2.vals.getD 2 0 == v.idx) = false → s.sqt.dropping = none → ∃ t, exec (.pageRelease n) s = .next t ∧ Tab.find? t.att.leaving n = none ∧
    (∀ k a, Tab.find? s.att.arenas k = some a → Tab.find? t.att.arenas k = some
      { a with held := List.filter (fun h => h.2 != 2 ^ 40 + n) a.held
               dirty := a.dirty ++ ((a.held.filter fun h => h.2 == 2 ^ 40 + n).map (·.1)) }) ∧ s.onlyChanges t [.att]) ∧
  (∀ k page a e, Tab.find? s.att.arenas k = some a → a.dirty.contains page = true → Tab.find? s.pool.extents a.ext = some e → e.tier = tierNEAR →
    ∃ t, exec (.pageScrubDone k page) s = .next t ∧
    Tab.find? t.att.arenas k = some { a with dirty := a.dirty.filter (· != page) } ∧
    (∀ b, b < (s.shape a.fen).pageBytes → memGet t.near (e.at_ (a.pageAt (s.shape a.fen) page) + b) = 0) ∧
    (∀ b, (b < e.at_ (a.pageAt (s.shape a.fen) page) ∨ e.at_ (a.pageAt (s.shape a.fen) page) + (s.shape a.fen).pageBytes ≤ b) →
      Memory.wf s.near = true → memGet t.near b = memGet s.near b) ∧
    s.onlyChanges t [.regs, .near, .flt, .att]) ∧
  (∀ a g, s.admitsWrite a 0x1000104 → s.hasAtt = true → g = s.rd Reg.SQT_GRP_INDEX_GROUP →
    (∃ t, exec (.sqtGrpRead a) s = .next t ∧ t.rd Reg.SQT_GRP_DATA0_CUR_STEP = (s.grp g).cur % 2 ^ 32 ∧
      t.rd Reg.SQT_GRP_DATA1_OPEN = b2n (s.grp g).isOpen ∧ t.rd Reg.SQT_GRP_STATUS_STATUS = stOK ∧ s.onlyChanges t [.regs]) ∧
    (s.groupFen g = none → ∃ t, exec (.sqtGrpReset a) s = .next t ∧ (t.grp g).cur = 0 ∧ (t.grp g).isOpen = false ∧
      (∀ k, k ≠ g → t.grp k = s.grp k) ∧ t.rd Reg.SQT_GRP_STATUS_STATUS = stOK ∧ s.onlyChanges t [.regs, .sqt]) ∧
    (∀ f, s.groupFen g = some f → s.members f g ≠ [] → ∃ t, exec (.sqtGrpReset a) s = .next t ∧
      t.rd Reg.SQT_GRP_STATUS_STATUS = stRETRY ∧ s.onlyChanges t [.regs])) ∧
  (∀ a f i, s.admitsWrite a 0x1000208 → s.hasAtt = true → f = s.rd Reg.SQT_ENT_FEN_FEN → i = s.rd Reg.SQT_ENT_INDEX_INDEX → f < 64 →
    (i < s.seqEntries f → ∃ t, exec (.sqtEntRead a) s = .next t ∧
      (∀ w, w < 16 → t.rd Reg.SQT_ENT_DATA w = (s.seqWords f i).getD w 0 % 2 ^ 32) ∧
      t.rd Reg.SQT_ENT_STATUS_STATUS = stOK ∧ s.onlyChanges t [.regs]) ∧
    (s.seqEntries f ≤ i → ∃ t, exec (.sqtEntRead a) s = .next t ∧ t.rd Reg.SQT_ENT_STATUS_STATUS = stKEY_DENIED ∧ s.onlyChanges t [.regs]) ∧
    (i < s.seqEntries f → s.on Reg.SQT_ENT_OP_BUSY = false → (s.seq f i).state = sqACTIVE → (s.seq f i).hasParent = false →
      s.opening (s.seq f i).group = false → s.cmd.cmds = [] → ∃ t, exec (.drop a) s = .next t ∧ t.seq f i = {} ∧
      (∀ j, j ≠ i → t.seq f j = s.seq f j) ∧ t.rd Reg.SQT_ENT_STATUS_STATUS = stOK ∧
      s.onlyChanges t [.regs, .near, .tray, .host, .flt, .att, .sqt]) ∧
    (s.on Reg.SQT_ENT_OP_BUSY = false → s.sqt.opens = [] → s.seqsOf f = [(i, s.seq f i)] → (s.seq f i).hasParent = false →
      (s.seq f i).state = sqACTIVE → s.cmd.cmds = [] → s.att.leaving = [] → s.att.arenas = [] → ∃ t, exec (.dropFen a) s = .next t ∧
      t.seq f i = {} ∧ t.rd Reg.SQT_ENT_STATUS_STATUS = stOK ∧ s.onlyChanges t [.regs, .near, .tray, .host, .flt, .att, .sqt]))

/-- R227, R237, R240–R244, R254, R263, attention. A STEP packet that passes its checks and names the next step of a closed group is held, and
the step's open is asked for; one with a bad field is answered with its offset; one of a stale step is counted and refused RANGE. A message
incomplete for TIMEOUT_NS is dropped, counted. The last die's part of a record ends it with its response; an earlier one only stages. A
chunk of APPEND whose pages stand stages its tokens. The arena operations read, register and remove an arena. -/
def Obligations.StepsAppendsAndArenasWork : Prop := ∀ s : State, s.hasAtt = true →
  (∀ q rest p, s.fab.he0 = q :: rest → p = q.pkt → p.kind = .step → s.att.gone = [] → p.retx = false →
    (Tab.findVal? s.att.msgs fun m => m.src == p.src && m.seq == p.seq) = none →
    (∀ o port, stepFieldBad true (if s.hasShape (s.who q).2 then (s.shape (s.who q).2).l else 0) p = some o → p.sLast = true → p.sPkt = 0 →
      s.clearPath (gatherStatus p.stepEcho stMALFORMED o) port →
      ∃ t, exec .step s = .next t ∧ t.fab.he0 = rest ∧ t.att = s.att ∧
        t.voq connHE0 port (gatherStatus p.stepEcho stMALFORMED o).queue = s.voqWith port (gatherStatus p.stepEcho stMALFORMED o) ∧
        t.rd Reg.ATT_CNT_REC_MALF = min (s.rd Reg.ATT_CNT_REC_MALF + 1) (2 ^ Reg.ATT_CNT_REC_MALF.width - 1) ∧
        s.onlyChanges t [.regs, .fab, .xbr, .att]) ∧
    (∀ fen rg, fen = (s.who q).2 → fen < 64 → stepFieldBad true (if s.hasShape fen then (s.shape fen).l else 0) p = none → s.fenQuiet fen = false →
      rg = s.kvRegion fen → p.region = rg →
      s.regionCheck (s.who q).1 fen p.region p.key (rtR + rtC) ((s.rgn rg).base * unitBytes) 0 = stOK → s.hasShape fen = true →
      (s.shape fen).l ≠ 0 → (s.fenClusters fen).isEmpty = false → s.ownsGroup fen p.sGroup = true →
      ((s.grp p.sGroup).isOpen = false → p.sLayer = 0 → s.att.msgs.length < 256 → 0 < p.payload.length →
        (s.sqt.opens.any fun o => o.1 == p.sGroup && o.2.1 == p.arg) = false →
        ∃ t m, exec .step s = .next t ∧ t.fab.he0 = rest ∧ t.msg s.att.nextMsg = some m ∧ m.src = p.src ∧ m.seq = p.seq ∧ m.fen = fen ∧
          m.group = p.sGroup ∧ m.layer = 0 ∧ m.step = p.arg ∧ m.parts = [(p.sPkt, p.payload)] ∧ m.recs = 0 ∧ m.start = s.hclk ∧
          t.sqt.opens = s.sqt.opens ++ [(p.sGroup, p.arg, s.tnow)] ∧ t.rd Reg.SQT_STAT_OPENING = 1 ∧
          s.onlyChanges t [.regs, .fab, .att, .sqt]) ∧
      (∀ port, s.stepOpens p = none → p.sLast = true → p.sPkt = 0 → s.clearPath (gatherStatus p.stepEcho stRANGE 0) port →
        ∃ t, exec .step s = .next t ∧ t.fab.he0 = rest ∧
          t.voq connHE0 port (gatherStatus p.stepEcho stRANGE 0).queue = s.voqWith port (gatherStatus p.stepEcho stRANGE 0) ∧
          t.rd Reg.SQT_CNT_STALE = min (s.rd Reg.SQT_CNT_STALE + 1) (2 ^ Reg.SQT_CNT_STALE.width - 1) ∧
          s.onlyChanges t [.regs, .fab, .xbr, .att]))) ∧
  (∀ mid m, s.msg mid = some m → m.complete = false → s.timeoutHclk ≤ s.hclk - m.start → s.recordsOf mid = [] →
    ∃ t, exec (.stepMsgTimeout mid) s = .next t ∧ t.msg mid = none ∧ (∀ k, k ≠ mid → t.msg k = s.msg k) ∧
      t.rd Reg.ATT_CNT_MSG_INCOMPLETE = min (s.rd Reg.ATT_CNT_MSG_INCOMPLETE + 1) (2 ^ Reg.ATT_CNT_MSG_INCOMPLETE.width - 1) ∧
      s.onlyChanges t [.regs, .att]) ∧
  (∀ cid k c x cl, s.runningChunk cid k = some (c, x, cl) → c.src = 2 → x.selfTest = none →
    (c.chunks.length ≠ c.nchunks → ∃ t, exec (.stepRecord cid k) s = .next t ∧ s.stagedAs t cid k x) ∧
    (∀ mid m, c.chunks = [(k, x)] → c.nchunks = 1 → c.segs = [] → recAppend c.desc = false → x.timedOut = false → c.fen < 64 →
      mid = c.vals.getD 0 0 → s.msg mid = some m → ∃ u n d, exec (.stepRecord cid k) s = .next (u.feedMsg mid) ∧ u.msg mid = some n ∧
        Tab.find? n.results (c.vals.getD 1 0) = some d ∧ fld d 0 4 = fld c.desc 0 4 ∧ fld d 4 1 = stOK ∧ u.cmdOf cid = none ∧
        u.rd Reg.ATT_CNT_REC = min (s.rd Reg.ATT_CNT_REC + 1) (2 ^ Reg.ATT_CNT_REC.width - 1) ∧
        s.onlyChanges u [.regs, .pool, .fab, .cmd, .att, .sqt])) ∧
  (∀ cid k c x h p pp start n b pg tgt, s.runsChunk cid k 0x28 c x → h = s.shape c.fen → (p, pp) = s.appBase c → (start, n) = c.appChunk p k →
    (∃ slot, (slot, b, pg) = h.place p pp (c.appPos + start)) → s.readFault (c.pieces 1 (start * h.tokenBytes) (n * h.tokenBytes)) = none →
    ((h.cells.any fun (l, hd) => (h.slicesOf (s.readPieces (c.pieces 1 (start * h.tokenBytes) (n * h.tokenBytes))) n l hd).any fun y =>
        (h.sliceBad y).isSome) = true → exec (.append cid k) s = .next (s.finish cid stMALFORMED)) ∧
    ((h.cells.any fun (l, hd) => (h.slicesOf (s.readPieces (c.pieces 1 (start * h.tokenBytes) (n * h.tokenBytes))) n l hd).any fun y =>
        (h.sliceBad y).isSome) = false → c.appTarget = false → h.needsPage (s.seq c.fen c.appSeq) (c.appPos + start) = false →
      tgt = (h.cells.map fun (l, hd) => match s.appPage c pg hd with
        | some a => s.localSeg (a + h.summaryAt l (b % h.pb)) h.summaryBytes ++ s.localSeg (a + h.blockAt l (b % h.pb)) h.blockBytes
        | none => []).flatten → s.readFault tgt = none →
      ∃ t, exec (.append cid k) s = .next t ∧
        s.stagedAs t cid k { x with writes := [{ data := s.readPieces (c.pieces 1 (start * h.tokenBytes) (n * h.tokenBytes)) }] })) ∧
  (∀ a n, s.admitsWrite a 0x1200104 → n = s.rd Reg.ATT_AR_INDEX_ARENA →
    (∀ ar, Tab.find? s.att.arenas n = some ar → ∃ t, exec (.arenaRead a) s = .next t ∧
      t.rd Reg.ATT_AR_DATA0_FEN = ar.fen % 2 ^ Reg.ATT_AR_DATA0_FEN.width ∧ t.rd Reg.ATT_AR_DATA0_VALID = 1 ∧
      t.rd Reg.ATT_AR_DATA1 = ar.addr % 2 ^ 32 ∧ t.rd Reg.ATT_AR_DATA3_PAGES = ar.pages % 2 ^ Reg.ATT_AR_DATA3_PAGES.width ∧
      t.rd Reg.ATT_AR_DATA4_FREE = ar.nfree % 2 ^ Reg.ATT_AR_DATA4_FREE.width ∧ t.rd Reg.ATT_AR_STATUS_STATUS = stOK ∧
      s.onlyChanges t [.regs]) ∧
    (∀ f i e, f = s.rd Reg.ATT_AR_DATA0_FEN → f < 64 → s.rd Reg.ATT_AR_DATA0_KIND = 0 → s.on Reg.ATT_AR_OP_BUSY = false →
      Tab.find? s.att.arenas n = none → s.extAt (s.rd Reg.ATT_AR_DATA1 + 2 ^ 32 * (s.rd Reg.ATT_AR_DATA2 % 2 ^ 14)) = some (i, e) →
      e.lo = s.rd Reg.ATT_AR_DATA1 + 2 ^ 32 * (s.rd Reg.ATT_AR_DATA2 % 2 ^ 14) → e.fen = f → e.region = s.kvRegion f → e.tier ≠ tierHOST →
      e.state = exRESIDENT → e.pfx = false → s.hasShape f = true → s.att.arenas.length < 1024 → ∃ t, exec (.arenaRegister a) s = .next t ∧
      Tab.find? t.att.arenas n = some { fen := f, kind := 0, addr := e.lo, ext := i
                                        pages := min (e.length * unitBytes / (s.shape f).pageBytes) 1048575 } ∧
      (∀ k, k ≠ n → Tab.find? t.att.arenas k = Tab.find? s.att.arenas k) ∧ t.rd Reg.ATT_AR_STATUS_STATUS = stOK ∧
      t.rd Reg.ATT_AR_STATUS_DONE = 1 ∧ s.onlyChanges t [.regs, .att]) ∧
    (Tab.has s.att.arenas n = true → ∃ t, exec (.arenaRegister a) s = .next t ∧ t.rd Reg.ATT_AR_STATUS_STATUS = stRETRY ∧
      s.onlyChanges t [.regs]) ∧
    (∀ ar, s.on Reg.ATT_AR_OP_BUSY = false → Tab.find? s.att.arenas n = some ar →
      (ar.held = [] → ar.kind = 0 → ∃ t, exec (.arenaUnregister a) s = .next t ∧ Tab.find? t.att.arenas n = none ∧
        (∀ k, k ≠ n → Tab.find? t.att.arenas k = Tab.find? s.att.arenas k) ∧ t.rd Reg.ATT_AR_STATUS_STATUS = stOK ∧
        s.onlyChanges t [.regs, .att]) ∧
      (ar.held ≠ [] → ∃ t, exec (.arenaUnregister a) s = .next t ∧ t.rd Reg.ATT_AR_STATUS_STATUS = stRETRY ∧ s.onlyChanges t [.regs])))

/-- R318–R323, R327–R330, R332, R334, R336, R338, checkpoint sets. OPEN stages an OPEN header of the epoch; ENCODE stages the blocks of its
values; SEAL pads the stream and seals the header; PARITY stages P and Q of its stripes and then PARITY_DONE; COMMIT, its members ready,
writes the marker; DECODE and VERIFY walk the blocks and end CHECK_FAIL at a bad one; REBUILD stages units and the durable header. A poll
that has waited WAIT_US ends TIMEOUT, and another round is sent when due. The set table is read, registered with zeroed headers, and taken
from. -/
def Obligations.CheckpointsEncodeCommitAndVerify : Prop := ∀ s : State,
  (∀ cid k c x z, s.ckpSet c.ckpSetNo = some z → x.fails = 0 →
    (s.runsChunk cid k 0x30 c x → ∃ t h, exec (.ckpOpen cid k) s = .next t ∧
      s.stagedAs t cid k { x with writes := s.areaWrite z (slotHeader c.epoch) h } ∧ h.length = 192 ∧ hdState h = ckOPEN ∧
      hdEpoch h = c.epoch % 2 ^ 64 ∧ hdUnits h = 0 ∧ hdStripes h = 0 ∧ hdRaw h = 0 ∧ hdBlocks h = 0 ∧ hdMark h = 0) ∧
    (∀ w v n ps vs, s.runsChunk cid k 0x31 c x → w = ckpSize c.ckpFmt → v = 65536 / w * k → n = min (65536 / w) (c.p4 % 2 ^ 32 - v) →
      ps = c.pieces 0 (v * w) (n * w) → s.readFault ps = none → vs = (List.range n).map (fun i => fld (s.readPieces ps) (i * w) w) →
      ∃ t bs r, exec (.ckpEncode cid k) s = .next t ∧ s.stagedAs t cid k { x with blobs := bs, vals := [n, r] } ∧
        bs.length = ceilDiv n 4096 ∧ (∀ j, j < ceilDiv n 4096 → bs[j]? =
          some (ckpEncode c.ckpFmt c.ckpObj ((c.p3 + (v + 4096 * j) * w) % 2 ^ 64) ((vs.drop (4096 * j)).take 4096)).1)) ∧
    (∀ h, s.runsChunk cid k 0x32 c x → s.readFault (s.areaSegs z (slotHeader c.epoch) 64) = none →
      h = s.readPieces (s.areaSegs z (slotHeader c.epoch) 64) →
      (hdState h = ckSEALED → ∃ t, exec (.ckpSeal cid k) s = .next t ∧ s.stagedAs t cid k x) ∧
      (∀ cur us ws, hdState h ≠ ckSEALED → cur = z.cursor c.epoch → us = ceilDiv cur unitBytes →
        ws = s.areaWrite z (z.slotBase c.epoch + cur) (List.replicate (us * unitBytes - cur) 0) ++
          s.areaWrite z (slotHeader c.epoch) (patch (patch h 6 (leBytes 1 ckSEALED)) 16 (leBytes 4 us)) →
        ∃ t, exec (.ckpSeal cid k) s = .next t ∧ s.stagedAs t cid k { x with writes := ws })) ∧
    (s.runsChunk cid k 0x33 c x →
      (c.ckp.polled = false → c.ckp.waitFrom = none → z.others = [] → s.readFault (s.areaSegs z (slotHeader c.epoch) 192) = none →
        ∃ t, exec (.ckpParity cid k) s = .next t ∧
          (t.cmdOf cid).map (·.ckp) = some { c.ckp with waitFrom := some s.hclk, lastPoll := s.hclk } ∧ s.onlyChanges t [.fab, .cmd]) ∧
      (∀ st y, c.ckp.polled = true → k < 2 * c.ckp.stripes / 10 → st = parityStripe z.self k →
        (∀ g, g ∈ unitTags k (c.dataRefs st) → ∃ d, Tab.find? c.peers g = some (stOK, d)) →
        y = (if holderP st = z.self then gfP unitBytes ((c.dataRefs st).map fun u => (u.pos, c.unitData k u))
             else gfQ unitBytes ((c.dataRefs st).map fun u => (u.pos, c.unitData k u))) →
        ∃ t, exec (.ckpParity cid k) s = .next t ∧ (t.cmdOf cid).bind (fun d => Tab.find? d.chunks k) =
            some { x with writes := s.areaWrite z (z.slotBase c.epoch + (z.slotUnits - 1 - k) * unitBytes) y, phase := .staged,
                          progress := s.hclk } ∧
          (∀ r ∈ t.cmd.running, r.2 ≠ (cid, k)) ∧ s.onlyChanges t [.fab, .cmd]) ∧
      (∀ h ws, c.ckp.polled = true → 2 * c.ckp.stripes / 10 ≤ k → s.readFault (s.areaSegs z (slotHeader c.epoch) 64) = none →
        h = s.readPieces (s.areaSegs z (slotHeader c.epoch) 64) →
        ws = s.areaWrite z (slotHeader c.epoch) (patch (patch h 6 (leBytes 1 ckPARITY_DONE)) 20 (leBytes 4 c.ckp.stripes) ++
          padTo 64 ((c.ckp.units.map fun u => leBytes 4 u).flatten)) →
        ∃ t, exec (.ckpParity cid k) s = .next t ∧ s.stagedAs t cid k { x with writes := ws })) ∧
    (s.runsChunk cid k 0x34 c x → c.ckp.polled = true → ∃ t, exec (.ckpCommit cid k) s = .next t ∧ s.stagedAs t cid k x) ∧
    (∀ op o en last bs e, (op = 0x35 ∨ op = 0x37) → s.runsChunk cid k op c x → c.walkStart k = some (o, false) →
      last = hdUnits (s.ckpHeader z c.epoch) * unitBytes → s.walk z c ((k + 1) * unitBytes) last 1025 o [] = (bs, e) →
      en = (if op = 0x35 then Instr.ckpDecode cid k else Instr.ckpVerify cid k) →
      (∀ b, e = .bad b → ∃ u, exec en s = .next (u.finish cid stCHECK_FAIL) ∧ (u.cmdOf cid).map (·.ckp.firstBad) = some (some b) ∧
        u.rd Reg.CKP_CNT_CRC_FAIL = min (s.rd Reg.CKP_CNT_CRC_FAIL + 1) (2 ^ Reg.CKP_CNT_CRC_FAIL.width - 1) ∧
        s.onlyChanges u [.regs, .cmd]) ∧
      (∀ p f, (e = .at_ p ∧ f = 0 ∨ e = .done ∧ p = last ∧ f = 1) →
        (op = 0x37 → ∃ t, exec en s = .next t ∧
          s.stagedAs t cid k { x with writes := [], vals := [p, f, (bs.map fun b => b.blk.count).sum, bs.length, 0] }) ∧
        (∀ us ws, op = 0x35 → us = (bs.filter fun b => b.blk.obj == c.ckpObj) →
          (∀ b ∈ us, c.p3 ≤ b.blk.off ∧ b.blk.off - c.p3 + b.blk.count * ckpSize b.blk.fmt ≤ c.ref0.bytes) →
          ws = (us.map fun b => c.stageAtRef 0 (b.blk.off - c.p3) ((b.blk.values.map fun v => leBytes (ckpSize b.blk.fmt) v).flatten)).flatten →
          ∃ t, exec en s = .next t ∧
            s.stagedAs t cid k { x with writes := ws, vals := [p, f, (us.map fun b => b.blk.count).sum, bs.length, 0] }))) ∧
    (s.runsChunk cid k 0x36 c x → c.ckp.polled = true →
      (k < c.ckp.stripes → holderP k ≠ z.self → holderQ k ≠ z.self → c.ckp.units.getD z.self 0 ≤ dataUnit z.self k →
        ∃ t, exec (.ckpRebuild cid k) s = .next t ∧ s.stagedAs t cid k x) ∧
      (∀ us off, k < c.ckp.stripes → us = c.rebuildRefs z k →
        (∀ g, g ∈ unitTags k us → ∃ d, Tab.find? c.peers g = some (stOK, d)) →
        ((holderP k = z.self ∨ holderQ k = z.self) ∧ off = (z.slotUnits - 1 - parityUnit z.self k) * unitBytes ∨
          holderP k ≠ z.self ∧ holderQ k ≠ z.self ∧ dataUnit z.self k < c.ckp.units.getD z.self 0 ∧ off = dataUnit z.self k * unitBytes) →
        ∃ t ws, exec (.ckpRebuild cid k) s = .next t ∧
          ws = s.areaWrite z (z.slotBase c.epoch + off) (rebuildUnit z.self k (us.map fun u => (u.pos, c.unitData k u))) ∧
          (t.cmdOf cid).bind (fun d => Tab.find? d.chunks k) =
            some { x with writes := ws, vals := [1], phase := .staged,
                          progress := s.hclk } ∧
          (∀ r ∈ t.cmd.running, r.2 ≠ (cid, k)) ∧ s.onlyChanges t [.fab, .cmd]) ∧
      (c.ckp.stripes ≤ k → ∃ t h, exec (.ckpRebuild cid k) s = .next t ∧
        s.stagedAs t cid k { x with writes := s.areaWrite z (slotHeader c.epoch) (h ++ markBytes c.epoch s.tnow (s.rd Reg.POOL_HOME_HOME)) } ∧
        h.length = 128 ∧ hdState h = ckPARITY_DONE ∧ hdEpoch h = c.epoch % 2 ^ 64 ∧ hdStripes h = c.ckp.stripes % 2 ^ 32 ∧
        hdUnits h = c.ckp.units.getD z.self 0 % 2 ^ 32))) ∧
  (∀ cid c x z v, s.cmdOf cid = some c → s.fatal = false → Tab.find? c.chunks c.committed = some x → c.src = 0 → x.phase = .staged →
    c.opcode = 0x34 → s.ckpSet c.ckpSetNo = some z → z.others = [] → s.areaWrite z (slotHeader c.epoch + 128)
      (markBytes c.epoch s.tnow (s.rd Reg.POOL_HOME_HOME)) = [v] → v.tier = tierNEAR →
    v.data = markBytes c.epoch s.tnow (s.rd Reg.POOL_HOME_HOME) → s.badRange tierNEAR v.at_ 64 = false → Memory.wf s.near = true →
    ∃ u, exec (.chunkCommit cid) s = .next (((if c.committed + 1 < c.nchunks then u else u.finish cid stOK).syncCmd c.fen).preempt) ∧
      memRead u.near v.at_ 64 = v.data ∧ (∀ b, (b < v.at_ ∨ v.at_ + 64 ≤ b) → memGet u.near b = memGet s.near b) ∧
      s.onlyChanges u [.near, .flt, .cmd]) ∧
  (∀ cid c z t0, s.cmdOf cid = some c → isCkp c.opcode = true → c.ckp.polled = false → c.ckp.waitFrom = some t0 →
    s.ckpSet c.ckpSetNo = some z → c.judgePoll z (s.ckpHeader z c.epoch) = .waiting →
    (c.waitUs ≤ s.sinceUs t0 → c.opcode ≠ 0x36 → ∃ u, exec (.ckpHeaderPoll cid) s = .next (u.finish cid stTIMEOUT) ∧
      u.cmdOf cid = some { c with ckp := { c.ckp with bad := memberMask (c.notReady z (s.ckpHeader z c.epoch)) } } ∧
      u.rd Reg.CKP_CNT_WAIT_TO = min (s.rd Reg.CKP_CNT_WAIT_TO + 1) (2 ^ Reg.CKP_CNT_WAIT_TO.width - 1) ∧ s.onlyChanges u [.regs, .cmd]) ∧
    (s.sinceUs t0 < c.waitUs → c.opcode ≠ 0x36 → max 1 (s.rd Reg.CKP_POLL_US) ≤ s.sinceUs c.ckp.lastPoll →
      exec (.ckpHeaderPoll cid) s = .next (s.pollRound cid c z)) ∧
    (s.sinceUs t0 < c.waitUs → (c.opcode = 0x36 ∨ s.sinceUs c.ckp.lastPoll < max 1 (s.rd Reg.CKP_POLL_US)) →
      exec (.ckpHeaderPoll cid) s = .next s)) ∧
  (∀ a i, s.admitsWrite a 0x1800104 → i = s.rd Reg.CKP_SET_INDEX_SET →
    (∀ z, s.ckpSet i = some z → ∃ t, exec (.ckpSetRead a) s = .next t ∧ t.rd Reg.CKP_SET_DATA0_VALID = 1 ∧
      t.rd Reg.CKP_SET_DATA0_FEN = z.fen % 2 ^ Reg.CKP_SET_DATA0_FEN.width ∧ t.rd Reg.CKP_SET_DATA1_SLOT_UNITS = z.slotUnits % 2 ^
        Reg.CKP_SET_DATA1_SLOT_UNITS.width ∧ t.rd Reg.CKP_SET_DATA42 = s.ckpD z % 2 ^ 32 ∧
      t.rd Reg.CKP_SET_DATA44_STATE0 = hdState (s.ckpHeader z 0) % 2 ^ Reg.CKP_SET_DATA44_STATE0.width ∧
      t.rd Reg.CKP_SET_DATA44_STATE1 = hdState (s.ckpHeader z 1) % 2 ^ Reg.CKP_SET_DATA44_STATE1.width ∧
      t.rd Reg.CKP_SET_STATUS_STATUS = stOK ∧ t.rd Reg.CKP_SET_STATUS_DONE = 1 ∧ s.onlyChanges t [.regs]) ∧
    (s.ckpSet i = none → ∃ t, exec (.ckpSetRead a) s = .next t ∧ t.rd Reg.CKP_SET_DATA0_VALID = 0 ∧
      t.rd Reg.CKP_SET_STATUS_STATUS = stOK ∧ s.onlyChanges t [.regs]) ∧
    (∀ z, s.ckpSet i = some z → ∃ t, exec (.ckpSetRegister a) s = .next t ∧ t.rd Reg.CKP_SET_STATUS_STATUS = stRETRY ∧
      t.rd Reg.CKP_SET_STATUS_DONE = 1 ∧ s.onlyChanges t [.regs]) ∧
    (∀ z j e, s.ckpSet i = none → z = s.ckpSetArgs → (z.members = 1 ∧ z.parity = false ∨ z.members = 10 ∧ z.parity = true) →
      z.self < z.members → hasRepeat ((z.mem.take z.members).map (·.home)) = false → z.own.home = s.rd Reg.POOL_HOME_HOME →
      s.extAt z.own.area = some (j, e) → z.areaOk e = true → e.tier < 2 → s.deadAt e.tier (locByte e.tier e.loc) = false →
      ∃ t, exec (.ckpSetRegister a) s = .next t ∧ t.ckpSet i = some { z with mem := z.mem.take z.members } ∧
        (∀ k, k ≠ i → t.ckpSet k = s.ckpSet k) ∧ (∀ b, b < 192 → t.readTier e.tier (e.at_ z.own.area + b) 1 = [0] ∧
          t.readTier e.tier (e.at_ (z.own.area + 256) + b) 1 = [0]) ∧ t.rd Reg.CKP_SET_STATUS_STATUS = stOK ∧
        s.onlyChanges t [.regs, .near, .tray, .flt, .ckp] ∧
        s.regsKeptBut t [Reg.CKP_SET_OP_CODE.key 0 0, Reg.CKP_SET_STATUS_STATUS.key 0 0, Reg.CKP_SET_STATUS_DONE.key 0 0,
                         Reg.CKP_STAT_SETS.key 0 0]) ∧
    ((s.cmd.cmds.any fun c => isCkp c.2.opcode && c.2.src == 0 && c.2.ckpSetNo == i) = true → ∃ t, exec (.ckpSetUnregister a) s = .next t ∧
      t.rd Reg.CKP_SET_STATUS_STATUS = stRETRY ∧ s.onlyChanges t [.regs]) ∧
    ((s.cmd.cmds.any fun c => isCkp c.2.opcode && c.2.src == 0 && c.2.ckpSetNo == i) = false → ∃ t, exec (.ckpSetUnregister a) s = .next t ∧
      t.ckpSet i = none ∧ (∀ k, k ≠ i → t.ckpSet k = s.ckpSet k) ∧ t.rd Reg.CKP_SET_STATUS_STATUS = stOK ∧ s.onlyChanges t [.regs, .ckp]))

/-- R141, R348, R349, R354, R357, R358, R361, R365, R367, route tables and capture ring. READ shows an entry of a bank with its map. WRITE puts
a record into the shadow bank, refused RETRY while a swap is pending, MALFORMED or RANGE; COPY copies the active bank; SWAP and SWAP_AT
leave a swap pending with the shadow's maps prepared, SWAP_AT refusing a time less than 20 µs away; CANCEL ends it; once its time has come
the banks change places. The active bank changes at no other of these. Enabling capture creates its ring, zeroed; while enabled only a
disable acts. -/
def Obligations.RouteTablesSwapAndCaptureRingsStand : Prop := ∀ s : State,
  (∀ a t i, s.admitsWrite a 0x2600004 → t = s.rd Reg.RTE_INDEX_TABLE → i = s.rd Reg.RTE_INDEX_INDEX →
    (∀ b r m, t < 3 → rteOutside t i = false → b = (if s.on Reg.RTE_INDEX_BANK then s.shadow else s.bank) → b.entry t i = (r, m) →
      ∃ u, exec (.rteRead a) s = .next u ∧ (∀ w, w < 4 → u.rd Reg.RTE_DATA w = fld r (4 * w) 4) ∧
        (∀ w, w < 16 → u.rd Reg.RTE_MAP w = fld ((List.range 64).map fun k => BitVec.ofNat 8 (m.getD k 0xFF)) (4 * w) 4) ∧
        u.rd Reg.RTE_STATUS_STATUS = stOK ∧ u.rd Reg.RTE_STATUS_DONE = 1 ∧ s.onlyChanges u [.regs]) ∧
    (∀ c, (c = Instr.rteRead a ∨ c = Instr.rteWrite a) → t < 3 → rteOutside t i = true → s.xbr.swap = none → fld (leBytes 4 (s.rd Reg.RTE_DATA 0)) 0 1 = t →
      ∃ u, exec c s = .next u ∧ u.rd Reg.RTE_STATUS_STATUS = stRANGE ∧ s.onlyChanges u [.regs] ∧
        s.regsKeptBut u [Reg.RTE_OP_CODE.key 0 0, Reg.RTE_STATUS_STATUS.key 0 0, Reg.RTE_STATUS_DONE.key 0 0]) ∧
    (∀ r, r = ((List.range 4).map fun w => leBytes 4 (s.rd Reg.RTE_DATA w)).flatten → s.xbr.swap = none →
      (fld r 0 1 ≠ t → ∃ u, exec (.rteWrite a) s = .next u ∧ u.rd Reg.RTE_STATUS_STATUS = stMALFORMED ∧ s.onlyChanges u [.regs]) ∧
      (s.rteWriteStatus t i r = stOK → ∃ u, exec (.rteWrite a) s = .next u ∧ u.bank = s.bank ∧
        (t = 0 → (Tab.find? u.shadow.routes i).map (·.portset) = (if fld r 4 4 = 0 then none else some (fld r 4 4)) ∧
          (∀ k, k ≠ i → Tab.find? u.shadow.routes k = Tab.find? s.shadow.routes k) ∧ u.shadow.matches_ = s.shadow.matches_ ∧
          u.shadow.seed = s.shadow.seed) ∧
        (t = 1 → (Tab.find? u.shadow.matches_ i).map (fun e => (e.priority, e.dst, e.dstMask, e.opcode, e.opcMask, e.action, e.portset, e.valid)) =
            some (fld r 1 1, fld r 4 2, fld r 6 2, fld r 8 1, fld r 9 1, fld r 10 1, fld r 12 4, bit (fld r 11 1) 0) ∧
          (∀ k, k ≠ i → Tab.find? u.shadow.matches_ k = Tab.find? s.shadow.matches_ k) ∧ u.shadow.routes = s.shadow.routes ∧
          u.shadow.seed = s.shadow.seed) ∧
        (t = 2 → u.shadow = { s.shadow with seed := some (fld r 4 4) }) ∧
        u.rd Reg.RTE_STATUS_STATUS = stOK ∧ s.onlyChanges u [.regs, .flt, .xbr])) ∧
    (s.xbr.swap = none → ∃ u, exec (.rteCopy a) s = .next u ∧ u.shadow = s.bank ∧ u.bank = s.bank ∧
      u.rd Reg.RTE_STATUS_STATUS = stOK ∧ s.onlyChanges u [.regs, .xbr]) ∧
    (∀ c rb, (c = Instr.rteWrite a ∨ c = Instr.rteCopy a ∨ c = Instr.swap a rb ∨ c = Instr.swapAt a rb) → s.xbr.swap ≠ none →
      ∃ u, exec c s = .next u ∧ u.rd Reg.RTE_STATUS_STATUS = stRETRY ∧ s.onlyChanges u [.regs]) ∧
    (∀ c rb w τ, τ = s.rd64 Reg.RTE_SWAP_TIME_LO Reg.RTE_SWAP_TIME_HI → s.xbr.swap = none →
      (c = Instr.swap a rb ∧ w = none ∨ c = Instr.swapAt a rb ∧ w = some τ ∧ s.tabor + 20000 * 2 ^ 32 ≤ τ * 2 ^ 32) →
      ∃ u, exec c s = .next u ∧ u.xbr.swap = some { atNs := w } ∧ u.rd Reg.RTE_OP_PENDING = 1 ∧ u.bank = s.bank ∧
        u.shadow.seed = s.shadow.seed ∧
        (∀ k e, Tab.find? s.shadow.routes k = some e → ∃ m, Tab.find? u.shadow.routes k = some { e with map := m } ∧
          ((rb = true ∨ (Tab.find? s.bank.routes k).map (·.portset) ≠ some e.portset) → m = s.buildMap e.portset)) ∧
        u.rd Reg.RTE_STATUS_STATUS = stOK ∧ s.onlyChanges u [.regs, .xbr]) ∧
    (∀ rb τ, τ = s.rd64 Reg.RTE_SWAP_TIME_LO Reg.RTE_SWAP_TIME_HI → s.xbr.swap = none → τ * 2 ^ 32 < s.tabor + 20000 * 2 ^ 32 →
      ∃ u, exec (.swapAt a rb) s = .next u ∧ u.rd Reg.RTE_STATUS_STATUS = stRANGE ∧ s.onlyChanges u [.regs]) ∧
    (∃ u, exec (.cancel a) s = .next u ∧ u.xbr.swap = none ∧ u.rd Reg.RTE_OP_PENDING = 0 ∧ u.bank = s.bank ∧ u.shadow = s.shadow ∧
      u.rd Reg.RTE_STATUS_STATUS = stOK ∧ s.onlyChanges u [.regs, .xbr])) ∧
  (∀ w, s.xbr.swap = some w → w.atNs.getD 0 * 2 ^ 32 ≤ s.tabor →
    (∀ h ∈ s.shadow.routes, h.1 < 4096 ∧ (h.2.isLocal = true ∨ h.2.portset = 0 ∨ s.homeDead h.1 = true ∨
      ∃ q ∈ bitList 32 h.2.portset, s.alive q = true)) →
    ∃ u, exec .swapActivate s = .next u ∧ u.bank = s.shadow ∧ u.shadow = s.bank ∧ u.xbr.swap = none ∧ u.rd Reg.RTE_OP_PENDING = 0 ∧
      u.rd Reg.RTE_CNT_SWAP = min (s.rd Reg.RTE_CNT_SWAP + 1) (2 ^ Reg.RTE_CNT_SWAP.width - 1) ∧ s.onlyChanges u [.regs, .xbr] ∧
      s.regsKeptBut u [Reg.RTE_OP_PENDING.key 0 0, Reg.RTE_ACTIVE_BANK.key 0 0, Reg.RTE_CNT_SWAP.key 0 0]) ∧
  ((∀ w, s.xbr.swap = some w → s.tabor < w.atNs.getD 0 * 2 ^ 32) → exec .swapActivate s = .next s) ∧
  (∀ a mode log2, s.admitsWrite a 0x2400040 →
    (s.on Reg.XBR_CAP_CTL_ENABLE = true → exec (.captureEnable a mode log2) s = .next s) ∧
    (s.on Reg.XBR_CAP_CTL_ENABLE = true → ∃ t, exec (.captureDisable a mode log2) s = .next t ∧ t.on Reg.XBR_CAP_CTL_ENABLE = false ∧
      s.onlyChanges t [.regs] ∧ s.regsKeptBut t [Reg.XBR_CAP_CTL_ENABLE.key 0 0]) ∧
    (s.on Reg.XBR_CAP_CTL_ENABLE = false → ∃ t, exec (.captureDisable a mode log2) s = .next t ∧ t.on Reg.XBR_CAP_CTL_ENABLE = false ∧
      t.on Reg.XBR_CAP_CTL_MODE = mode ∧ t.rd Reg.XBR_CAP_CTL_LOG2 = log2 % 32 ∧ s.onlyChanges t [.regs] ∧
      s.regsKeptBut t [Reg.XBR_CAP_CTL_MODE.key 0 0, Reg.XBR_CAP_CTL_LOG2.key 0 0]) ∧
    (log2 < 10 ∨ 24 < log2 ∧ log2 < 32 → s.on Reg.XBR_CAP_CTL_ENABLE = false → ∃ t, exec (.captureEnable a mode log2) s = .next t ∧
      t.on Reg.XBR_CAP_CTL_ENABLE = false ∧ t.rd Reg.XBR_CAP_STATUS_STATUS = stRANGE ∧ t.rd Reg.XBR_CAP_STATUS_DONE = 1 ∧ s.onlyChanges t [.regs]) ∧
    (∀ r f n start loc i, s.on Reg.XBR_CAP_CTL_ENABLE = false → 10 ≤ log2 → log2 ≤ 24 → r = s.rd Reg.XBR_CAP_REGION_REGION →
      f = s.rd Reg.XBR_CAP_FEN_FEN → (s.rgn r).valid = true → (s.rgn r).fen = f → f < 64 → n = 2 ^ log2 * 64 / unitBytes →
      start = s.rd64 Reg.XBR_CAP_BASE_LO Reg.XBR_CAP_BASE_HI % 2 ^ 46 / 65536 → s.placeCheck r start n tierNEAR = stOK →
      s.firstFit tierNEAR (2 ^ 64 - 1) f n = some loc → s.freeExt = some i → s.fitsExtent f = true → s.fitsRsv tierNEAR f n true = true →
      ∃ t, exec (.captureEnable a mode log2) s = .next t ∧
        t.ext i = { start := start, state := exRESIDENT, length := n, tier := tierNEAR, loc := loc, fen := f, region := r, pin := true,
                    capring := true } ∧ (∀ j, j ≠ i → t.ext j = s.ext j) ∧ t.xbr.capExt = some i ∧
        (∀ b, b < n * unitBytes → memGet t.near (locByte tierNEAR loc + b) = 0) ∧
        t.on Reg.XBR_CAP_CTL_ENABLE = true ∧ t.rd Reg.XBR_CAP_WR_INDEX = 0 ∧ t.rd Reg.XBR_CAP_RD_INDEX = 0 ∧
        t.rd Reg.XBR_CAP_STATUS_STATUS = stOK ∧ s.onlyChanges t [.regs, .near, .flt, .pool, .xbr]))

/-- R383–R385, R393, TIME exchanges. A REQ that is due leaves with the port's sequence number and the tabor time; a REQ that arrives at a
secured port is answered with its own timestamp, the time of its arrival and the time of the answer. A matching RSP within 10 µs gives the
offset and the delay of R385 and, with VALID at the source port, a servo sample whose steps count one more; any other RSP changes no offset
and at the source port is a reject. A REQ that nothing has answered for 10 µs is forgotten.  And R20, R380–R382, R387, R394, R459, R524, the
sources of tabor time. Eight periods without a sample put the servo in HOLDOVER. A host sample is taken with the HOST source and ignored
with another; taken, it counts, and the integral moves by the integral term within its bound. A driver's set steps tabor time to its whole
nanoseconds, counted. A PTM dialogue latches its departure, its response the arrival, the master's time and the delay, its timeout FAIL. The
PPS output rises once a second; an edge of the input latches tabor time unless it comes less than 0.5 s after the last, when it is counted. -/
def Obligations.TimeFollowsExchangesAndSources : Prop :=
  (∀ (s : State) (p : Nat), p < 32 →
    (s.knawenPort p = true → s.linkActive p = true → s.sendsReq p = true → (s.sp p).reqAt = none →
      ∃ t, exec (.timeReqSend p) s = .next t ∧
        t.out = s.out ++ [.frame p (s.port p).nextTx (timePacket 0 (s.sp p).nextTseq (stamp s.tabor))] ∧
        (t.sp p).lastReq = some { tseq := (s.sp p).nextTseq, t1 := s.tabor, sent := s.hclk } ∧
        (t.sp p).nextTseq = ((s.sp p).nextTseq + 1) % 2 ^ 24 ∧ s.onlyChanges t [.regs, .meters, .out, .fab, .shp]) ∧
    (∀ t2 k, s.headTime p 0 = some (t2, k) → s.on Reg.FAB_PSTAT_SECURE p = true → ∃ t, exec (.timeReq p) s = .next t ∧
        (t.port p).ctl = (s.port p).ctl.drop 1 ∧ (t.port p).nextTx = (s.port p).nextTx + 1 ∧
        t.out = s.out ++ [.frame p (s.port p).nextTx (timePacket 1 (k.arg / 256) (slice k.payload 0 12 ++ stamp t2 ++ stamp s.tabor ++
          leBytes 1 (s.rd Reg.GATE_TT_STAT_STEPS) ++ leBytes 1 (b2n s.locked) ++
          leBytes 2 (if s.rd Reg.GATE_TT_STAT_STEPS = 0xFF then 0xFFFF else s.rd Reg.GATE_TT_STAT_SOURCE)))] ∧
        s.onlyChanges t [.regs, .meters, .out, .fab]) ∧
    (∀ t4 k r (theta delta : Int), s.headTime p 1 = some (t4, k) → (s.sp p).lastReq = some r → r.tseq = k.arg / 256 →
        s.hclk - r.sent ≤ usToHclk 10 →
        theta = Int.fdiv (((t4 : Int) - stampAt k.payload 24) - ((stampAt k.payload 12 : Int) - r.t1) -
          signed (s.rd Reg.GATE_P_ASYM_NS p) 16 * 2 ^ 32) 2 →
        delta = Int.fdiv (((t4 : Int) - stampAt k.payload 24) + ((stampAt k.payload 12 : Int) - r.t1)) 2 →
        (∃ t, exec (.timeRsp p) s = .next t ∧ t.rd Reg.GATE_P_TOFF_NS p = satSigned (roundDiv theta (2 ^ 32)) 32 ∧
          t.rd Reg.GATE_P_TDELAY_NS p = (clampInt (roundDiv delta (2 ^ 32)) 0 0xFFFF).toNat ∧
          (t.sp p).lastReq = none ∧ (t.port p).ctl = (s.port p).ctl.drop 1) ∧
        (s.isSource p = true → fld k.payload 37 1 = 1 → fld k.payload 36 1 < 15 → ∃ t, exec (.timeRsp p) s = .next t ∧
          t.rd Reg.GATE_TT_STAT_STEPS = fld k.payload 36 1 + 1 ∧ t.rd Reg.GATE_TT_STAT_SOURCE = fld k.payload 38 2 % 2 ^ Reg.GATE_TT_STAT_SOURCE.width ∧
          t.rd Reg.GATE_TT_CNT_SAMPLE = min (s.rd Reg.GATE_TT_CNT_SAMPLE + 1) (2 ^ Reg.GATE_TT_CNT_SAMPLE.width - 1))) ∧
    (∀ t4 k r, s.headTime p 1 = some (t4, k) → (s.sp p).lastReq = some r → r.tseq ≠ k.arg / 256 → s.isSource p = true →
        ∃ t, exec (.timeRsp p) s = .next t ∧
          t.rd Reg.GATE_TT_CNT_REJECT = min (s.rd Reg.GATE_TT_CNT_REJECT + 1) (2 ^ Reg.GATE_TT_CNT_REJECT.width - 1) ∧
          (t.port p).ctl = (s.port p).ctl.drop 1 ∧ s.onlyChanges t [.regs, .fab] ∧ s.regsKeptBut t [Reg.GATE_TT_CNT_REJECT.key 0 0]) ∧
    (∀ r, (s.sp p).lastReq = some r → usToHclk 10 ≤ s.hclk - r.sent → s.isSource p = true → ∃ t, exec (.timeRspTimeout p) s = .next t ∧
        (t.sp p).lastReq = none ∧ t.rd Reg.GATE_TT_CNT_REJECT = min (s.rd Reg.GATE_TT_CNT_REJECT + 1) (2 ^ Reg.GATE_TT_CNT_REJECT.width - 1) ∧
        s.onlyChanges t [.regs, .shp] ∧ s.regsKeptBut t [Reg.GATE_TT_CNT_REJECT.key 0 0])) ∧
  (∀ s : State,
    ((s.rd Reg.GATE_TT_STAT_STATE = ttLOCKED ∨ s.rd Reg.GATE_TT_STAT_STATE = ttACQUIRE) →
      8 * usToHclk (s.rd Reg.GATE_TT_PERIOD_US) ≤ s.hclk - max (s.shp.lastSample.getD 0) s.shp.srcSince →
      ∃ t, exec .servoHoldover s = .next t ∧ t.rd Reg.GATE_TT_STAT_STATE = ttHOLDOVER ∧ s.onlyChanges t [.regs] ∧
        s.regsKeptBut t [Reg.GATE_TT_STAT_STATE.key 0 0]) ∧
    (∀ a v h (m : Int), s.admitsWrite a 0x2800030 → s.rd Reg.GATE_TT_CTL_SRC = 1 → s.shp.lastSample = some h → s.on Reg.GATE_TT_CTL_STEP_EN = false →
      m = (s.rd Reg.GATE_TT_MAXPPB_PPB : Int) * 2 ^ 32 → ∃ t, exec (.hostSample a v) s = .next t ∧
        t.shp.integ = clampInt (s.shp.integ - ppbTerm (signed v 32 * 2 ^ 32) (max 1 (s.hclk - h)) (s.rd Reg.GATE_TT_CTL_KI)) (-m) m ∧
        t.shp.lastSample = some s.hclk ∧ t.rd Reg.GATE_TT_OFFSET_NS = satSigned (roundDiv (signed v 32 * 2 ^ 32) (2 ^ 32)) 32 ∧
        t.rd Reg.GATE_TT_CNT_SAMPLE = min (s.rd Reg.GATE_TT_CNT_SAMPLE + 1) (2 ^ Reg.GATE_TT_CNT_SAMPLE.width - 1) ∧
        t.tabor = s.tabor ∧ s.onlyChanges t [.regs, .shp]) ∧
    (∀ a v, s.admitsWrite a 0x2800030 → s.rd Reg.GATE_TT_CTL_SRC ≠ 1 → exec (.hostSample a v) s = .next s) ∧
    (∀ a hi, s.admitsWrite a 0x2800038 → hi < 2 ^ 32 → ∃ t, exec (.taborSet a hi) s = .next t ∧
      t.tabor = (s.rd Reg.GATE_TT_SET_LO + 2 ^ 32 * hi) * 2 ^ 32 ∧ t.hclk = s.hclk ∧
      t.rd Reg.GATE_TT_CNT_STEP = min (s.rd Reg.GATE_TT_CNT_STEP + 1) (2 ^ Reg.GATE_TT_CNT_STEP.width - 1) ∧
      s.onlyChanges t [.regs, .tabor, .pool, .shp, .flt, .out, .host]) ∧
    (∃ t, exec .taborRealign s = .next t ∧ t.shp = { s.shp with realigned := s.hclk } ∧ t.tabor = s.tabor ∧ s.onlyChanges t [.shp]) ∧
    (∀ a, s.admitsWrite a 0x280003C → s.shp.ptm = none → ∃ t, exec (.ptmDialogue a) s = .next t ∧ t.shp.ptm = some s.hclk ∧
      t.rd64 Reg.GATE_TT_PTM_T1_LO Reg.GATE_TT_PTM_T1_HI = s.tnow ∧ t.rd Reg.GATE_TT_PTM_CTL_GO = 1 ∧
      t.out = s.out ++ [.message chPTM 0 []] ∧ s.onlyChanges t [.regs, .shp, .out]) ∧
    (∀ h mt d, s.shp.ptm = some h → mt < 2 ^ 64 → d < 2 ^ 32 → ∃ t, exec (.ptmResponse mt d) s = .next t ∧ t.shp.ptm = none ∧
      t.rd64 Reg.GATE_TT_PTM_T4_LO Reg.GATE_TT_PTM_T4_HI = s.tnow ∧ t.rd64 Reg.GATE_TT_PTM_MT_LO Reg.GATE_TT_PTM_MT_HI = mt ∧
      t.rd Reg.GATE_TT_PTM_PD_NS = d ∧ t.rd Reg.GATE_TT_PTM_CTL_GO = 0 ∧ t.rd Reg.GATE_TT_PTM_CTL_FAIL = 0 ∧ s.onlyChanges t [.regs, .shp]) ∧
    (∀ h, s.shp.ptm = some h → usToHclk 10 ≤ s.hclk - h → ∃ t, exec .ptmTimeout s = .next t ∧ t.shp.ptm = none ∧
      t.rd Reg.GATE_TT_PTM_CTL_GO = 0 ∧ t.rd Reg.GATE_TT_PTM_CTL_FAIL = 1 ∧ s.onlyChanges t [.regs, .shp]) ∧
    (s.on Reg.GATE_TT_CTL_PPS_OUT = true → s.tnow / 1000000000 ≠ s.shp.ppsLast → ∃ t, exec .ppsOut s = .next t ∧
      Tab.getD t.pins pinPPS_OUT 0 = 1 ∧ t.shp.ppsLast = s.tnow / 1000000000 ∧ t.shp.ppsFall = s.hclk + usToHclk 1000 ∧
      s.onlyChanges t [.shp, .pins, .out]) ∧
    (s.shp.ppsEdge = none → ∃ t, exec .ppsIn s = .next t ∧ t.shp.ppsEdge = some s.hclk ∧
      t.rd64 Reg.GATE_TT_PPS_IN_LO Reg.GATE_TT_PPS_IN_HI = s.tnow ∧ s.onlyChanges t [.regs, .shp]) ∧
    (∀ h, s.shp.ppsEdge = some h → s.hclk - h < usToHclk 500000 → ∃ t, exec .ppsIn s = .next t ∧
      t.rd Reg.FLT_CNT_INPUT = min (s.rd Reg.FLT_CNT_INPUT + 1) (2 ^ Reg.FLT_CNT_INPUT.width - 1) ∧ s.onlyChanges t [.regs] ∧
      s.regsKeptBut t [Reg.FLT_CNT_INPUT.key 0 0]))

/-- R388–R393, link sleep. A partner's SLEEP that keeps the rules is agreed and acknowledged, one that does not is refused with its reason,
counted; an ACK in time agrees to this side's own, a NAK ends it. A port in AUTO proposes its next quiet run, and a request the explicit
sleep. At E an agreed port enters its STATE, counted; one wake window before W it starts to wake, at W it is ACTIVE and its first frame is a
BEAT. A partner silent past its limit makes the port retrain, with a time fault. -/
def Obligations.LinksSleepAndWake : Prop := ∀ (s : State) (p : Nat), p < 32 →
  (∀ n k, s.headTime p 2 = some (n, k) → (s.sp p).sleep = none →
    (s.nakReason p (sleepOf k) = 0 → ∃ t, exec (.sleep p) s = .next t ∧ (t.sp p).sleep = some { sleepOf k with agreed := true } ∧
      t.out = s.out ++ [.frame p (s.port p).nextTx (timePacket 3 (k.arg / 256) (sleepBytes (sleepOf k)))] ∧
      s.onlyChanges t [.regs, .meters, .out, .fab, .shp]) ∧
    (s.nakReason p (sleepOf k) ≠ 0 → ∃ t, exec (.sleep p) s = .next t ∧ (t.sp p).sleep = none ∧
      t.out = s.out ++ [.frame p (s.port p).nextTx (timePacket 4 (k.arg / 256) (sleepBytes (sleepOf k) ++ leBytes 1 (s.nakReason p (sleepOf k))))] ∧
      t.rd Reg.GATE_P_CNT_NAK p = min (s.rd Reg.GATE_P_CNT_NAK p + 1) (2 ^ Reg.GATE_P_CNT_NAK.width - 1) ∧
      s.onlyChanges t [.regs, .meters, .out, .fab])) ∧
  (∀ n k o, s.headTime p 3 = some (n, k) → (s.sp p).sleep = some o → o.mine = true → sameSleep o (sleepOf k) = true →
    s.tabor + 1000 * 2 ^ 32 ≤ o.enter * 2 ^ 32 → ∃ t, exec (.sleepAck p) s = .next t ∧
    (t.sp p).sleep = some { o with agreed := true } ∧ (t.port p).ctl = (s.port p).ctl.drop 1 ∧ s.onlyChanges t [.fab, .shp]) ∧
  (∀ n k o, s.headTime p 4 = some (n, k) → (s.sp p).sleep = some o → o.mine = true → sameSleep o (sleepOf k) = true →
    ∃ t, exec (.sleepNak p) s = .next t ∧ (t.sp p).sleep = none ∧
    t.rd Reg.GATE_P_CNT_NAK p = min (s.rd Reg.GATE_P_CNT_NAK p + 1) (2 ^ Reg.GATE_P_CNT_NAK.width - 1) ∧ s.onlyChanges t [.regs, .fab, .shp]) ∧
  (s.knawenPort p = true → s.linkActive p = true → s.locked = true → s.on Reg.GATE_P_STAT_FAULT p = false → (s.sp p).sleep = none →
    (∀ a e, s.admitsWrite a (0x2810020 + 0x100 * p) → e = ⟨s.rd64 Reg.GATE_P_PWR_E_LO Reg.GATE_P_PWR_E_HI p,
        s.rd64 Reg.GATE_P_PWR_W_LO Reg.GATE_P_PWR_W_HI p, s.rd Reg.GATE_P_PWR_STATE p, false, false⟩ → sleepValid s.tabor e = true →
      ∃ t, exec (.sleepRequest a p) s = .next t ∧ (t.sp p).sleep = some { e with mine := true } ∧
      t.out = s.out ++ [.frame p (s.port p).nextTx (timePacket 2 0 (sleepBytes e))] ∧ s.onlyChanges t [.regs, .meters, .out, .fab, .shp]) ∧
    (∀ e w, s.rd Reg.GATE_P_PWR_AUTO p ≠ 0 → (s.portCfg p).gateMode = 1 → (s.activeList p).nextQuiet (s.tnow + 2001) = some (e, w) →
      e ≤ s.tnow + 10000 → (s.sp p).proposed ≠ some e → sleepValid s.tabor { enter := e, wake := w, state := s.rd Reg.GATE_P_PWR_AUTO p } = true →
      ∃ t, exec (.sleepPropose p false) s = .next t ∧ (t.sp p).proposed = some e ∧
      (t.sp p).sleep = some { enter := e, wake := w, state := s.rd Reg.GATE_P_PWR_AUTO p, mine := true } ∧
      s.onlyChanges t [.regs, .meters, .out, .fab, .shp])) ∧
  (∀ o b, (s.sp p).sleep = some o → o.agreed = true → o.state < 4 → o.enter * 2 ^ 32 ≤ s.tabor → s.rd Reg.GATE_P_STAT_PWR p = pwrACTIVE →
    ∃ t, exec (.sleepEnter p b) s = .next t ∧ t.rd Reg.GATE_P_STAT_PWR p = o.state ∧
    t.rd Reg.GATE_P_CNT_SLEEP p = min (s.rd Reg.GATE_P_CNT_SLEEP p + 1) (2 ^ Reg.GATE_P_CNT_SLEEP.width - 1) ∧
    s.onlyChanges t [.regs, .shp] ∧ s.regsKeptBut t [Reg.GATE_P_STAT_PWR.key p 0, Reg.GATE_P_CNT_SLEEP.key p 0]) ∧
  (∀ o, (s.sp p).sleep = some o → (s.rd Reg.GATE_P_STAT_PWR p = pwrDOZE ∨ s.rd Reg.GATE_P_STAT_PWR p = pwrSLEEP) →
    o.wake * 2 ^ 32 ≤ s.tabor + wakeWindow o.state * 2 ^ 32 → ∃ t, exec (.wakeStart p) s = .next t ∧
    t.rd Reg.GATE_P_STAT_PWR p = pwrWAKING ∧ s.onlyChanges t [.regs] ∧ s.regsKeptBut t [Reg.GATE_P_STAT_PWR.key p 0]) ∧
  (∀ o, (s.sp p).sleep = some o → s.rd Reg.GATE_P_STAT_PWR p = pwrWAKING → o.wake * 2 ^ 32 ≤ s.tabor → ∃ t, exec (.wake p) s = .next t ∧
    t.rd Reg.GATE_P_STAT_PWR p = pwrACTIVE ∧ (t.sp p).sleep = none ∧ (t.sp p).awaiting = some o.wake ∧
    t.out = s.out ++ [.frame p (s.port p).nextTx (linkPacket 0 (s.port p).beatsSent [])] ∧
    s.onlyChanges t [.regs, .meters, .out, .fab, .shp]) ∧
  (∀ w, (s.sp p).awaiting = some w → (w + (s.portCfg p).guardNs + s.rd Reg.GATE_P_TDELAY_NS p) * 2 ^ 32 ≤ s.tabor →
    ∃ t, exec (.missedWake p) s = .next t ∧ (t.sp p).awaiting = none ∧ t.rd Reg.FAB_PSTAT_RETRAIN p = 1 ∧ t.rd Reg.FAB_PSTAT_UP p = 0 ∧
    t.rd Reg.GATE_P_STAT_FAULT p = 1 ∧ t.rd Reg.GATE_P_CNT_MISSED p = min (s.rd Reg.GATE_P_CNT_MISSED p + 1) (2 ^ Reg.GATE_P_CNT_MISSED.width - 1) ∧
    s.onlyChanges t [.regs, .shp, .flt, .out, .host])

/-- R371, R375, R377, R393, R395, R396, gate lists and policers. At a boundary the shown entry is the one that now governs, a cycle is counted
as entry 0 begins, and a list that was resuming governs again. A pending list whose time has come is active from its entry 0; one whose time
has not come waits. A time fault clears only while the servo is LOCKED. A policer read shows the client's rate, burst, tokens and counts,
and KEY_DENIED for no client. -/
def Obligations.GatesAndPolicersFollowTheirTables : Prop := ∀ (s : State) (p : Nat), p < 32 →
  (∀ i, (s.activeList p).entries ≠ [] → i = (locate (s.activeList p).entries 0 ((s.activeList p).pos s.tabor)).1 →
    i ≠ s.rd Reg.GATE_P_STAT_ENTRY p → ∃ t, exec (.gateEntryBoundary p) s = .next t ∧
    t.rd Reg.GATE_P_STAT_ENTRY p = i % 2 ^ Reg.GATE_P_STAT_ENTRY.width ∧
    t.rd Reg.GATE_P_CYCLES p = (if i = 0 then (s.rd Reg.GATE_P_CYCLES p + 1) % 2 ^ Reg.GATE_P_CYCLES.width else s.rd Reg.GATE_P_CYCLES p) ∧
    (s.on Reg.GATE_P_STAT_FAULT p = false → (t.sp p).resuming = false) ∧ s.onlyChanges t [.regs, .shp] ∧
    s.regsKeptBut t [Reg.GATE_P_STAT_ENTRY.key p 0, Reg.GATE_P_CYCLES.key p 0]) ∧
  (s.takeOverDue p = true → ∃ t, exec (.gateTakeover p) s = .next t ∧ t.activeList p = s.otherList p ∧ (t.sp p).takeover = none ∧
    t.rd Reg.GATE_P_STAT_PENDING p = 0 ∧ t.rd Reg.GATE_P_STAT_ENTRY p = 0 ∧ t.rd Reg.GATE_P_CYCLES p = 0 ∧ s.onlyChanges t [.regs, .shp]) ∧
  (s.takeOverDue p = false → exec (.gateTakeover p) s = .next s) ∧
  (∀ a, s.admitsWrite a (0x2810000 + 0x100 * p) → s.locked = true → s.on Reg.GATE_P_STAT_FAULT p = true →
    ∃ t, exec (.timeFaultClear a p) s = .next t ∧ t.rd Reg.GATE_P_STAT_FAULT p = 0 ∧ (t.sp p).resuming = true ∧
    s.onlyChanges t [.regs, .shp] ∧ s.regsKeptBut t [Reg.GATE_P_STAT_FAULT.key p 0]) ∧
  (∀ a, s.admitsWrite a (0x2810000 + 0x100 * p) → s.locked = false → exec (.timeFaultClear a p) s = .next s) ∧
  (∀ a r k, s.admitsWrite a 0x2820004 → Tab.find? s.cfg.police (s.rd Reg.SHP_POL_INDEX_CLID) = some r →
    Tab.find? s.shp.buckets (s.rd Reg.SHP_POL_INDEX_CLID * 4 + s.rd Reg.SHP_POL_INDEX_CLASS) = some k →
    ∃ t, exec (.shpPolRead a) s = .next t ∧ t.rd Reg.SHP_POL_STATUS_STATUS = stOK ∧ t.rd Reg.SHP_POL_STATUS_DONE = 1 ∧
    t.rd Reg.SHP_POL_RATE_MBPS = r.rates.getD (s.rd Reg.SHP_POL_INDEX_CLASS) 0 % 2 ^ 32 ∧
    t.rd Reg.SHP_POL_PASS = k.pass % 2 ^ 32 ∧ t.rd Reg.SHP_POL_DROP = k.dropped % 2 ^ 32 ∧ s.onlyChanges t [.regs]) ∧
  (∀ a, s.admitsWrite a 0x2820004 → Tab.find? s.cfg.police (s.rd Reg.SHP_POL_INDEX_CLID) = none → ∃ t, exec (.shpPolRead a) s = .next t ∧
    t.rd Reg.SHP_POL_STATUS_STATUS = stKEY_DENIED ∧ t.rd Reg.SHP_POL_STATUS_DONE = 1 ∧ s.onlyChanges t [.regs] ∧
    s.regsKeptBut t [Reg.SHP_POL_STATUS_STATUS.key 0 0, Reg.SHP_POL_STATUS_DONE.key 0 0])

/-- R399–R405, R408, the start of a coherent request. On a line with no request in progress and no reserved credit the owner takes it at once:
every other copy goes to the state that the snoop leaves it (RD_S shares, RD_X, UPG and WR_NA invalidate, RD_NA cleans), a holder of M is
asked for its write-back, and the line is busy with the requester. On a busy line the request is answered RETRY, counted, and reserves a
credit. Only the agents' copies of that line change. -/
def Obligations.CoherentRequestsSnoopOrRetry : Prop := ∀ (s : State) (pos line : Nat), s.mayIssue line pos = true →
  (Tab.find? s.coh.busy line = none → Tab.find? s.coh.credits line = none →
    (pos ≠ posXH → s.copyAt line pos = cohI → ∃ t x, exec (.rdS pos line) s = .next t ∧ t.txn line pos = some x ∧ x.req = .rdS ∧
      x.retried = false ∧ Tab.find? t.coh.busy line = some pos ∧ s.onlyChanges t [.coh] ∧ t.coh.sram = s.coh.sram ∧
      (∀ p, p < 10 → p ≠ pos → t.copyAt line p = (if s.copyAt line p = cohI then cohI else cohS)) ∧
      (∀ l p, p < 10 → l ≠ line → t.copyAt l p = s.copyAt l p)) ∧
    (pos ≠ posXH → s.copyAt line pos ≤ cohS → ∃ t x, exec (.rdX pos line) s = .next t ∧ t.txn line pos = some x ∧ x.req = .rdX ∧
      Tab.find? t.coh.busy line = some pos ∧ s.onlyChanges t [.coh] ∧ t.coh.sram = s.coh.sram ∧
      (∀ p, p < 10 → p ≠ pos → t.copyAt line p = cohI) ∧ (∀ l p, p < 10 → l ≠ line → t.copyAt l p = s.copyAt l p)) ∧
    (s.copyAt line pos = cohS → ∃ t x, exec (.upg pos line) s = .next t ∧ t.txn line pos = some x ∧ x.req = .upg ∧
      s.onlyChanges t [.coh] ∧ (∀ p, p < 10 → p ≠ pos → t.copyAt line p = cohI) ∧ t.copyAt line pos = cohS) ∧
    (∃ t x, exec (.rdNa pos line) s = .next t ∧ t.txn line pos = some x ∧ x.req = .rdNa ∧ s.onlyChanges t [.coh] ∧
      (∀ p, p < 10 → t.copyAt line p = (if s.copyAt line p = cohM then cohE else s.copyAt line p))) ∧
    (∀ mask d, ∃ t x, exec (.wrNa pos line mask d) s = .next t ∧ t.txn line pos = some x ∧ x.req = .wrNa ∧ x.mask = mask ∧
      s.onlyChanges t [.coh] ∧ t.coh.sram = s.coh.sram ∧ (∀ p, p < 10 → t.copyAt line p = cohI))) ∧
  (∀ q, Tab.find? s.coh.busy line = some q → ∃ t x, exec (.rdNa pos line) s = .next t ∧ t.txn line pos = some x ∧ x.retried = true ∧
    t.coh.copies = s.coh.copies ∧ t.coh.busy = s.coh.busy ∧ pos ∈ Tab.getD t.coh.credits line [] ∧
    t.rd Reg.COH_CNT_RETRY = min (s.rd Reg.COH_CNT_RETRY + 1) (2 ^ Reg.COH_CNT_RETRY.width - 1) ∧
    s.onlyChanges t [.regs, .coh] ∧ s.regsKeptBut t [Reg.COH_CNT_RETRY.key 0 0])

/-- R400–R406, R418, how a coherent request ends. The response alone, or the value alone, is kept; with both, RD_S leaves a shared or an
exclusive copy, RD_X and UPG a modified one, RD_NA the value at its requester, WR_NA the masked bytes in the control SRAM and no other byte
changed; the line is then free. A write-back puts the line into the SRAM, and one that no snoop asked for ends the holder's copy. A request
answered RETRY is issued again. `COH_LINE` shows the copies of a line. -/
def Obligations.CoherentRequestsComplete : Prop := ∀ (s : State) (pos line : Nat) (x : CohTxn), pos < 10 →
  s.txn line pos = some x →
  (x.answered = false → x.value = none → ∃ t, exec (.snoopResponse pos line 0 0) s = .next t ∧
    t.txn line pos = some { x with answered := true } ∧ t.coh.copies = s.coh.copies ∧ s.onlyChanges t [.coh]) ∧
  (x.ready = true → x.answered = true →
    (x.req = .rdS → ∃ t, exec (.data pos line) s = .next t ∧ t.copyAt line pos = (if x.shared then cohS else cohE) ∧
      t.txn line pos = none ∧ Tab.find? t.coh.busy line = none ∧ t.coh.sram = s.coh.sram ∧
      t.rd Reg.COH_CNT_TXN = min (s.rd Reg.COH_CNT_TXN + 1) (2 ^ Reg.COH_CNT_TXN.width - 1) ∧ s.onlyChanges t [.regs, .coh]) ∧
    (x.req = .rdX → ∃ t, exec (.data pos line) s = .next t ∧ t.copyAt line pos = cohM ∧ t.txn line pos = none ∧
      s.onlyChanges t [.regs, .coh]) ∧
    (x.req = .rdNa → ∃ t, exec (.data pos line) s = .next t ∧ Tab.find? t.coh.reads pos = some (s.sramLine line) ∧
      t.coh.copies = s.coh.copies ∧ t.txn line pos = none ∧ s.onlyChanges t [.regs, .coh]) ∧
    (x.req = .upg → ∃ t, exec (.done pos line) s = .next t ∧ t.copyAt line pos = cohM ∧ t.txn line pos = none ∧
      t.coh.sram = s.coh.sram ∧ s.onlyChanges t [.regs, .coh]) ∧
    (x.req = .wrNa → Memory.wf s.coh.sram = true → ∃ t, exec (.done pos line) s = .next t ∧ t.txn line pos = none ∧
      (∀ i, i < lineBytes → memGet t.coh.sram (line * lineBytes + i) =
        (if bit x.mask i then x.data.getD i 0 else (s.sramLine line).getD i 0)) ∧
      (∀ a, (a < line * lineBytes ∨ line * lineBytes + lineBytes ≤ a) → memGet t.coh.sram a = memGet s.coh.sram a) ∧
      t.coh.copies = s.coh.copies ∧ s.onlyChanges t [.regs, .coh])) ∧
  (x.ready = true → x.answered = false → x.req = .rdS → ∃ t, exec (.data pos line) s = .next t ∧
    t.txn line pos = some { x with value := some (s.sramLine line) } ∧ t.coh.copies = s.coh.copies ∧ s.onlyChanges t [.coh]) ∧
  (x.retried = true → x.answered = true → x.req = .rdNa → Tab.find? s.coh.busy line = none → Tab.getD s.coh.credits line [] = [pos] →
    ∃ t y, exec (.cohReissue pos line) s = .next t ∧ t.txn line pos = some y ∧ y.retried = false ∧ y.answered = false ∧
    Tab.find? t.coh.busy line = some pos ∧ Tab.getD t.coh.credits line [] = [] ∧ s.onlyChanges t [.coh]) ∧
  (∀ q d, s.coh.txns = [(cohKey line pos, x)] → x.wbFrom = some q → Memory.wf s.coh.sram = true →
    ∃ t, exec (.wb q line d) s = .next t ∧ t.txn line pos = some { x with wbFrom := none } ∧
    (∀ i, i < lineBytes → memGet t.coh.sram (line * lineBytes + i) = (padTo lineBytes d).getD i 0) ∧
    t.rd Reg.COH_CNT_WB = min (s.rd Reg.COH_CNT_WB + 1) (2 ^ Reg.COH_CNT_WB.width - 1) ∧ s.onlyChanges t [.regs, .coh]) ∧
  (∀ q d l, s.coh.txns = [(cohKey line pos, x)] → l ≠ line → q < 10 → s.copyAt l q = cohM → ∃ t, exec (.wb q l d) s = .next t ∧
    t.copyAt l q = cohI ∧ t.coh.txns = s.coh.txns ∧ s.onlyChanges t [.regs, .coh]) ∧
  (∀ a, s.admitsWrite a 0x3000044 → s.rd Reg.COH_LINE_ADDR_LINE < sramLines → ∃ t, exec (.cohLineRead a) s = .next t ∧
    t.rd Reg.COH_LINE_STATE_STATE = (((List.range 9).map fun p => s.copyAt (s.rd Reg.COH_LINE_ADDR_LINE) p * 4 ^ p).sum) %
      2 ^ Reg.COH_LINE_STATE_STATE.width ∧ s.onlyChanges t [.regs] ∧ s.regsKeptBut t [Reg.COH_LINE_STATE_STATE.key 0 0])

/-- R17, R36, R409, R410, R413, R450, the links between dies, the loss of the domain and arbiter bites. A lane repair of a ring or die-to-die
link charges its link. An uncorrectable flit, a missed heartbeat, a transaction of 16 µs and a failed die-to-die link bring the domain down
with their cause and position, which is device-fatal. A bite of an arbiter's watchdog is counted, named and recorded, and the operation it
cuts off ends TIMEOUT. -/
def Obligations.LinksDomainAndArbitersFail : Prop := ∀ s : State,
  (∀ l, l < 10 → Tab.getD (s.score clsRING l).rems 1 0 = 0 → ∃ t, exec (.ringLaneRepair l) s = .next t ∧ s.onlyChanges t recordParts ∧ s.regsKeptBut t scoreKeys ∧
    (t.score clsRING l).s = satAdd (s.score clsRING l).s (512 * 256) 0xFFFFFFFF) ∧
  (∀ l, l < 11 → ∃ t, exec (.d2dLaneRepair l) s = .next t ∧ bit (t.rd Reg.GLB_D2D_REPAIRED) l = true ∧ s.onlyChanges t recordParts ∧
    s.regsKeptBut t (Reg.GLB_D2D_REPAIRED.key 0 0 :: scoreKeys)) ∧
  (∀ l, l < 11 → s.fatal = false → s.red.insts = [] → ∃ t, exec (.d2dLinkFail l) s = .next t ∧ t.rd Reg.FLT_FATAL_CAUSE = 1 ∧
    t.rd Reg.COH_FATAL_CAUSE = 4 ∧ t.rd Reg.COH_FATAL_AGENT = linkPos l ∧ t.rd Reg.COH_STAT_DOWN = 1 ∧ s.onlyChanges t recordParts) ∧
  (∀ p, p < 10 → s.fatal = false → s.red.insts = [] → ∃ t, exec (.ringFlitUe p) s = .next t ∧ t.rd Reg.FLT_FATAL_CAUSE = 1 ∧
    t.rd Reg.COH_FATAL_CAUSE = 1 ∧ t.rd Reg.COH_FATAL_AGENT = p ∧ t.rd Reg.COH_STAT_DOWN = 1 ∧ s.onlyChanges t recordParts) ∧
  (∀ p, p < 10 → bit (s.rd Reg.COH_STAT_ALIVE) p = true → s.fatal = false → s.red.insts = [] →
    ∃ t, exec (.agentHeartbeatMiss p) s = .next t ∧ t.rd Reg.COH_FATAL_CAUSE = 2 ∧ t.rd Reg.COH_FATAL_AGENT = p ∧
    bit (t.rd Reg.COH_STAT_ALIVE) p = false ∧ t.rd Reg.COH_STAT_DOWN = 1 ∧ s.onlyChanges t recordParts) ∧
  (∀ p line x, p < 10 → s.txn line p = some x → x.issued + usToHclk 16 ≤ s.hclk → s.fatal = false → s.red.insts = [] →
    ∃ t, exec (.cohTxnTimeout p line) s = .next t ∧ t.rd Reg.COH_FATAL_CAUSE = 3 ∧ t.rd Reg.COH_FATAL_AGENT = p ∧
    t.rd Reg.COH_STAT_DOWN = 1 ∧ s.onlyChanges t recordParts) ∧
  (∀ inst owner, inst < 64 → owner < 5 → ∃ t, exec (.arbBite 1 inst 11 owner 0 (.regOp 0x400008)) s = .next t ∧
    t.rd Reg.ARB_WD_LAST_RESOURCE = 1 ∧ t.rd Reg.ARB_WD_LAST_INSTANCE = inst ∧ t.rd Reg.ARB_WD_LAST_DIE = 11 ∧
    t.rd Reg.ARB_WD_LAST_OWNER = owner ∧ t.rd Reg.EXT_STATUS_STATUS = stTIMEOUT ∧ t.rd Reg.EXT_STATUS_DONE = 1 ∧
    t.rd Reg.ARB_CNT_WD = min (s.rd Reg.ARB_CNT_WD + 1) (2 ^ Reg.ARB_CNT_WD.width - 1) ∧ s.onlyChanges t recordParts)

/-- R489–R491, the hardware semaphores. A read by a requester takes a free semaphore with no queue and returns GRANTED with the owner; otherwise
it returns the owner and takes nothing. A release by the owner frees the semaphore, or hands it to the head of its queue, whose wait ends
OK; anyone else's is counted. A wait is queued at the tail, or granted at once on a free semaphore; a second one is ignored. A wait older
than `CAR_SEM_TIMEOUT` leaves the queue with SEM_TIMEOUT, counted; a semaphore held for `CAR_SEM_HOLD_MAX` is taken from its owner. The
forced release names the free semaphore's next owner as a release does. Frame: registers but those named, and every part but the registers,
Carillon's and what leaves the switch. -/
def Obligations.SemaphoresFollowTheirRules : Prop := ∀ s : State,
  (∀ a i, i < 64 → s.admitsRead a (semAt i) → s.semOwner i = 0 → s.semQueue i = [] → semReserved i a.req.num = false →
    ∃ t, exec (.semAcquire a i) s = .next t ∧ t.semOwner i = a.req.num ∧ Tab.find? t.car.held i = some (0, s.hclk) ∧
      t.out = s.out ++ [.readData a.req (semAt i) (1 + 2 * a.req.num + 16 * s.rd Reg.CAR_SEM_WAITERS i)] ∧
      s.onlyChanges t [.regs, .car, .out] ∧ s.regsKeptBut t [Reg.CAR_SEM_OWNER.key i 0]) ∧
  (∀ a i, i < 64 → s.admitsRead a (semAt i) → (s.semOwner i ≠ 0 ∨ s.semQueue i ≠ []) →
    ∃ t, exec (.semAcquire a i) s = .next t ∧ s.onlyChanges t [.out] ∧
      t.out = s.out ++ [.readData a.req (semAt i)
        (b2n (s.semGranted i a.req.num) + 2 * s.semOwner i + 16 * s.rd Reg.CAR_SEM_WAITERS i)]) ∧
  (∀ a i, i < 64 → s.admitsWrite a (semAt i) → s.semOwner i = a.req.num → s.semQueue i = [] →
    ∃ t, exec (.semRelease a i) s = .next t ∧ t.semOwner i = 0 ∧ Tab.find? t.car.held i = none ∧
      s.onlyChanges t [.regs, .car] ∧ s.regsKeptBut t [Reg.CAR_SEM_OWNER.key i 0]) ∧
  (∀ a i w ws, i < 64 → s.admitsWrite a (semAt i) → s.semOwner i = a.req.num → s.semQueue i = w :: ws →
    semReserved i w.req = false → w.req < 8 →
    ∃ t, exec (.semRelease a i) s = .next t ∧ t.semOwner i = w.req ∧
      t.car.waits = s.car.waits.filter (fun x => x.req != w.req) ∧
      Tab.find? t.car.waitStat w.req = some { pending := false, status := stOK, sem := i } ∧
      s.onlyChanges t [.regs, .car, .out] ∧
      s.regsKeptBut t [Reg.CAR_SEM_OWNER.key i 0, Reg.CAR_SEM_WAITERS.key i 0]) ∧
  (∀ a i, i < 64 → s.admitsWrite a (semAt i) → s.semOwner i ≠ a.req.num →
    ∃ t, exec (.semRelease a i) s = .next t ∧ s.onlyChanges t [.regs] ∧ s.regsKeptBut t [Reg.CAR_CNT_SEM_DENY.key 0 0] ∧
      t.rd Reg.CAR_CNT_SEM_DENY = min (s.rd Reg.CAR_CNT_SEM_DENY + 1) (2 ^ Reg.CAR_CNT_SEM_DENY.width - 1)) ∧
  (∀ a i, i < 64 → s.admitsWrite a 0x20500 → (s.car.waits.any fun w => w.req == a.req.num) = true →
    exec (.semWait a i) s = .next s) ∧
  (∀ a i, i < 64 → s.admitsWrite a 0x20500 → (s.car.waits.any fun w => w.req == a.req.num) = false →
    (s.semOwner i ≠ 0 ∨ s.semQueue i ≠ []) →
    ∃ t, exec (.semWait a i) s = .next t ∧ t.semQueue i = s.semQueue i ++ [{ req := a.req.num, sem := i, start := s.hclk }] ∧
      Tab.find? t.car.waitStat a.req.num = some { pending := true, status := 0, sem := i } ∧
      t.rd Reg.CAR_SEM_WAITERS i = 1 ∧ s.onlyChanges t [.regs, .car] ∧
      s.regsKeptBut t [Reg.CAR_SEM_WAIT_SEM.key 0 0, Reg.CAR_SEM_WAITERS.key i 0]) ∧
  (∀ a i, i < 64 → s.admitsWrite a 0x20500 → (s.car.waits.any fun w => w.req == a.req.num) = false →
    s.semOwner i = 0 → s.semQueue i = [] → semReserved i a.req.num = false →
    ∃ t, exec (.semWait a i) s = .next t ∧ t.semOwner i = a.req.num ∧
      Tab.find? t.car.waitStat a.req.num = some { pending := false, status := stOK, sem := i } ∧
      s.onlyChanges t [.regs, .car, .out]) ∧
  (∀ who w, s.car.waits.find? (fun x => x.req == who) = some w →
    w.start + usToHclk (s.rd Reg.CAR_SEM_TIMEOUT_US) ≤ s.hclk →
    ∃ t, exec (.semTimeout who) s = .next t ∧ (∀ x ∈ t.car.waits, x.req ≠ who) ∧
      Tab.find? t.car.waitStat who = some { pending := false, status := stSEM_TIMEOUT, sem := w.sem } ∧
      t.rd Reg.CAR_CNT_SEM_TO = min (s.rd Reg.CAR_CNT_SEM_TO + 1) (2 ^ Reg.CAR_CNT_SEM_TO.width - 1) ∧
      s.onlyChanges t [.regs, .car, .out] ∧
      s.regsKeptBut t [Reg.CAR_CNT_SEM_TO.key 0 0, Reg.CAR_SEM_WAITERS.key w.sem 0]) ∧
  (∀ i, i < 64 → s.semOwner i ≠ 0 → s.rd Reg.CAR_SEM_HOLD_MAX_MS * 1200000 ≤ s.semHeld i → s.semQueue i = [] →
    ∃ t, exec (.semForced i) s = .next t ∧ t.semOwner i = 0 ∧ Tab.find? t.car.held i = none ∧
      s.onlyChanges t [.regs, .car, .flt, .out, .host])

/-- R465–R467, R475, R487, the lockstep pairs and their firmware. A mismatch of a running pair sends it to restart, or, within an hour of the
last, to LOST; when the pair has the management role, the SPDM sessions end. A restart brings the pair up with its watchdog kicked,
unhalted, its CRC state all ones. A watchdog that has run out restarts an unhalted running pair; a kick sets its time. The repeat of a
faulted access that succeeds ends the fault and changes nothing else; one that fails ends an image load in validation. A confirmed trial
boot clears TRIAL and raises the security version where the image says so. Persisting the log appends the records not yet in flash. -/
def Obligations.PairsRestartAndFirmwareConfirms : Prop := ∀ s : State,
  (∀ p, p < 2 → s.cp p = cpRUNNING →
    ∃ t, exec (.lockstep p) s = .next t ∧
      t.cp p = (if (s.carPair p).mismatch.any (fun u => decide (s.hclk < u + hourHclk)) then cpLOST else cpBOOTING) ∧
      (t.carPair p).mismatch = some s.hclk ∧ (s.rolePair 0 = p → t.sec.sessions = []) ∧
      (s.rolePair 0 ≠ p → s.onlyChanges t [.regs, .flt, .out, .host, .car]) ∧
      s.onlyChanges t [.regs, .flt, .out, .host, .car, .img, .sec]) ∧
  (∀ p, p < 2 → s.cp p = cpBOOTING → s.car.fw.running.isSome →
    ∃ t, exec (.pairRestart p) s = .next t ∧ t.cp p = cpRUNNING ∧
      t.carPair p = { s.carPair p with kicked := s.hclk, resetAt := s.hclk, haltedAt := none, crc := 0xFFFFFFFF } ∧
      t.carPair (1 - p) = s.carPair (1 - p) ∧ s.onlyChanges t [.regs, .car]) ∧
  (∀ p, p < 2 → s.cp p = cpRUNNING → s.pairHalted p = false →
    (s.carPair p).kicked + s.rd Reg.CAR_WDT_MS * 1200000 ≤ s.hclk →
    ∃ t, exec (.carWatchdog p) s = .next t ∧ t.cp p = cpBOOTING ∧ (t.carPair p).mismatch = (s.carPair p).mismatch ∧
      s.onlyChanges t [.regs, .flt, .out, .host, .car, .img, .sec]) ∧
  (∀ p, p < 2 → ∃ t, exec (.carLwdtKick p) s = .next t ∧ t.carPair p = { s.carPair p with kicked := s.hclk } ∧
      t.carPair (1 - p) = s.carPair (1 - p) ∧ s.onlyChanges t [.car]) ∧
  (∀ p op, p < 2 → s.flt.accessFaults.contains p → s.pairHalted p = false →
    ∃ t, exec (.accessFaultRetry p false op) s = .next t ∧ t.flt.accessFaults = s.flt.accessFaults.erase p ∧
      s.onlyChanges t [.flt]) ∧
  (∀ p, p < 2 → s.flt.accessFaults.contains p → s.pairHalted p = false → s.img.validating.isSome →
    ∃ t, exec (.accessFaultRetry p true none) s = .next t ∧ t.img.validating = none ∧ t.rd Reg.FEN_IMG_STATUS_RESULT = imgBusy ∧
      t.rd Reg.FEN_IMG_STATUS_DONE = 1 ∧ s.onlyChanges t [.regs, .flt, .img, .out, .sec]) ∧
  (∀ i, s.car.fw.running = some i → s.on Reg.CAR_STAT_TRIAL → s.roleRuns 0 → s.roleRuns 1 → s.on Reg.CAR_STAT_MERGED = false →
    s.car.fw.calmSince + 60 * 1200000000 ≤ s.hclk →
    ∃ t, exec .fwConfirm s = .next t ∧ t.rd Reg.CAR_STAT_TRIAL = 0 ∧
      t.rd Reg.SEC_LIFE_FW_SVN =
        (if i.raise then max (s.rd Reg.SEC_LIFE_FW_SVN) (min i.svn (2 ^ Reg.SEC_LIFE_FW_SVN.width - 1)) else s.rd Reg.SEC_LIFE_FW_SVN) ∧
      (s.car.fw.active = s.rd Reg.CAR_STAT_SLOT → t.car.fw = { s.car.fw with trial := false, tries := 0 }) ∧
      s.onlyChanges t [.regs, .car, .flt, .out, .host]) ∧
  (s.roleRuns 0 → s.unpersistedCount = s.unpersisted.length → s.flt.flashLog.length + s.unpersisted.length ≤ flashCapacity →
    ∃ t, exec .logPersist s = .next t ∧ t.flt.flashLog = s.flt.flashLog ++ s.unpersisted ∧ t.flt.persisted = s.flt.nextEseq ∧
      t.flt.log = s.flt.log ∧ s.onlyChanges t [.flt, .car])

/-- R470, the CRC peripheral of a pair. INIT sets the state to all ones; a feed takes 1, 2 or 4 bytes of the value, the lowest first; a read of
the result returns the state inverted and leaves it. The other pair's peripheral is untouched, and nothing else changes. INIT and the feeds
of a string's bytes give, at the result, the CRC-32C of R124. The rule's worked example: "123456789", fed as two words and a byte from any
state, reads 0xE306_9283. -/
def Obligations.CrcPeripheralComputesCrc32c : Prop := ∀ (s : State) (p : Nat), p < 2 →
  (∃ t, exec (.crcInit p) s = .next t ∧ t.carPair p = { s.carPair p with crc := 0xFFFFFFFF } ∧
    t.carPair (1 - p) = s.carPair (1 - p) ∧ s.onlyChanges t [.car]) ∧
  (∀ v, ∃ t, exec (.carCrcB p v) s = .next t ∧ t.carPair p = { s.carPair p with crc := crcByte (s.carPair p).crc (BitVec.ofNat 8 v) } ∧
    t.carPair (1 - p) = s.carPair (1 - p) ∧ s.onlyChanges t [.car]) ∧
  (∀ v, ∃ t, exec (.carCrcH p v) s = .next t ∧
    t.carPair p = { s.carPair p with crc := crcByte (crcByte (s.carPair p).crc (BitVec.ofNat 8 v)) (BitVec.ofNat 8 (v / 256)) } ∧
    t.carPair (1 - p) = s.carPair (1 - p) ∧ s.onlyChanges t [.car]) ∧
  (∀ v, ∃ t, exec (.carCrcW p v) s = .next t ∧
    t.carPair p = { s.carPair p with crc := (leBytes 4 v).foldl crcByte (s.carPair p).crc } ∧
    t.carPair (1 - p) = s.carPair (1 - p) ∧ s.onlyChanges t [.car]) ∧
  (∃ t a, exec (.carCrcResult p) s = .next t ∧ s.onlyChanges t [.out] ∧
    t.out = s.out ++ [.readData (pairReq p) a ((s.carPair p).crc ^^^ 0xFFFFFFFF)]) ∧
  (∀ b : Bytes, crc32c b = b.foldl crcByte 0xFFFFFFFF ^^^ 0xFFFFFFFF) ∧
  (∃ t a, s.after [.crcInit p, .carCrcW p 0x34333231, .carCrcW p 0x38373635, .carCrcB p 0x39, .carCrcResult p] = some t ∧
    t.out = s.out ++ [.readData (pairReq p) a 0xE3069283])

/-- R493–R495, the debug port, on a powered part. IDCODE and BYPASS act at every level. SAMPLE/PRELOAD, EXTEST, DTMCS and DMI act at FULL, and
the inspect view at INSPECT and FULL; an instruction that the level does not allow acts as BYPASS (a 0 is shifted out) and is counted.
Boundary data is taken as shifted in, and what the lands give is open (a free value); a DMI write of data0 keeps the value in the debug
module and a DMI read of it returns it. IV_ADDR loads the offset; capturing IV_DATA reads it, counts the read, clears nothing and reports
DONE, or ERR for a misaligned offset; IV_STAT shifts the report out. -/
def Obligations.DebugInstructionsFollowTheLevel : Prop := ∀ s : State, s.car.powered = true →
  (∃ t, exec .idcode s = .next t ∧ t.out = s.out ++ [.tdo (s.rd Reg.DBG_IDCODE_VALUE)] ∧ s.onlyChanges t [.out]) ∧
  (∃ t, exec .bypass s = .next t ∧ t.out = s.out ++ [.tdo 0] ∧ s.onlyChanges t [.out]) ∧
  (s.atFull = true →
    (∀ d, ∃ t, exec (.samplePreload d) s = .next t ∧ t.car = { s.car with boundary := d } ∧
      t.out = s.out ++ [.tdo (Config.freeValue s.nextFree)] ∧ t.nextFree = s.nextFree + 1 ∧
      s.onlyChanges t [.car, .out, .nextFree]) ∧
    (∀ d, ∃ t, exec (.extest d) s = .next t ∧ t.car = { s.car with boundary := d } ∧
      t.out = s.out ++ [.tdo (Config.freeValue s.nextFree)] ∧ t.nextFree = s.nextFree + 1 ∧
      s.onlyChanges t [.car, .out, .nextFree]) ∧
    (∀ v, ∃ t, exec (.dtmcs v) s = .next t ∧ t.car = (if bit v 17 then { s.car with dm := [] } else s.car) ∧
      t.out = s.out ++ [.tdo (Config.freeValue s.nextFree)] ∧ s.onlyChanges t [.car, .out, .nextFree]) ∧
    (∀ v, ∃ t, exec (.dmi 2 4 v) s = .next t ∧ t.dm 4 = v % 2 ^ 32 ∧ t.out = s.out ++ [.tdo (4 * 2 ^ 34)] ∧
      s.onlyChanges t [.car, .out]) ∧
    (∃ t, exec (.dmi 1 4 0) s = .next t ∧ t.out = s.out ++ [.tdo (4 * 2 ^ 34 + s.dm 4 * 4)] ∧ s.onlyChanges t [.out])) ∧
  (s.atFull = false → ∀ i : Instr,
    ((∃ d, i = .samplePreload d) ∨ (∃ d, i = .extest d) ∨ (∃ v, i = .dtmcs v) ∨ (∃ op a v, i = .dmi op a v)) →
    ∃ t, exec i s = .next t ∧ t.out = s.out ++ [.tdo 0] ∧
      t.rd Reg.DBG_CNT_DENY = min (s.rd Reg.DBG_CNT_DENY + 1) (2 ^ Reg.DBG_CNT_DENY.width - 1) ∧
      s.onlyChanges t [.regs, .out] ∧ s.regsKeptBut t [Reg.DBG_CNT_DENY.key 0 0]) ∧
  (s.atInspect = true →
    (∀ off, ∃ t, exec (.ivAddr off) s = .next t ∧ t.car = { s.car with ivAddr := off % 2 ^ 32, ivStat := 0 } ∧
      s.onlyChanges t [.car]) ∧
    (∀ v, s.inspect s.car.ivAddr = some v → ∃ t, exec .ivData s = .next t ∧ t.car = { s.car with ivData := v, ivStat := 1 } ∧
      t.out = s.out ++ [.tdo v] ∧ s.onlyChanges t [.regs, .car, .out] ∧ s.regsKeptBut t [Reg.DBG_CNT_IV.key 0 0]) ∧
    (s.car.ivAddr % 4 ≠ 0 → ∃ t, exec .ivData s = .next t ∧ t.car.ivStat = 2 ∧ s.onlyChanges t [.car, .out]) ∧
    (∃ t, exec .ivStat s = .next t ∧ t.out = s.out ++ [.tdo s.car.ivStat] ∧ s.onlyChanges t [.out]))

/-- R10, the inspect view reads without effect. Whatever the offset, capturing IV_DATA on a powered part at INSPECT or FULL changes nothing that
a read of the window could clear, latch or take: no register field but the view's own counter of reads, no latch, no memory, no queue. -/
def Obligations.InspectReadsHaveNoSideEffect : Prop := ∀ s : State, s.car.powered = true → s.atInspect = true →
  ∃ t v st, exec .ivData s = .next t ∧ t.car = { s.car with ivData := v, ivStat := st } ∧ t.out = s.out ++ [.tdo v] ∧
    s.onlyChanges t [.regs, .car, .out] ∧ s.regsKeptBut t [Reg.DBG_CNT_IV.key 0 0]

/-- R476–R479, R483, the mailbox and the MCTP channel, while the management role runs and nothing else is in progress. A request of each command
that comes over MCTP is answered there with the command's body and leaves no request behind; the cap set is the channel's own. A request of
the host mailbox is answered in the response buffer: DONE is set, BUSY clears and its MSI-X vector is sent. A sensor number out of range is
MALFORMED at its offset, a cap out of range RANGE. The layout of bodies whose fields R477 only names is the model's (see the assumption
log).  And R479, the MCTP endpoint's own messages while the management role runs. Set Endpoint ID takes an ID other than 0 and 0xFF and is
answered; Get Endpoint ID answers it; Get Message Type Support lists the five types; version, vendor and PDR requests are answered with
content that other standards fix (an opaque of the model); a numeric sensor's reading is the register that R479 maps it to, and an unknown
sensor is refused. Nothing else changes but what leaves the switch. -/
def Obligations.ManagementChannelsAnswer : Prop :=
  (∀ (s : State) (r : MbxReq), s.roleRuns 0 → s.car.requests = [] →
    (r.cmd = mbGET_INFO → r.len = 0 → ∃ t body, exec (.getInfo (some r)) s = .next t ∧
      body.take 8 = leBytes 4 (s.rd Reg.CAR_FW_VER_VERSION) ++ leBytes 2 (s.rd Reg.CAR_FW_SVN_RUN) ++ leBytes 1 (s.rd Reg.CAR_STAT_SLOT) ++ [0] ∧
      t.out = s.out ++ [.message chMCTP 0x7E (mbxResponse r stOK 0 body)] ∧ t.car.requests = [] ∧ s.onlyChanges t [.out, .car]) ∧
    (r.cmd = mbSENSOR_READ → r.len = 4 → 1 ≤ fld r.body 2 2 → fld r.body 0 2 + fld r.body 2 2 ≤ 144 →
      ∃ t, exec (.sensorRead (some r)) s = .next t ∧
      t.out = s.out ++ [.message chMCTP 0x7E (mbxResponse r stOK 0
        ((List.range (fld r.body 2 2)).flatMap fun i => leBytes 4 (s.sensorWord (fld r.body 0 2 + i))))] ∧
      t.car.requests = [] ∧ s.onlyChanges t [.out, .car]) ∧
    (r.cmd = mbSENSOR_READ → r.len = 4 → 144 ≤ fld r.body 0 2 → ∃ t, exec (.sensorRead (some r)) s = .next t ∧
      t.out = s.out ++ [.message chMCTP 0x7E (mbxResponse r stMALFORMED 8 [])] ∧ t.car.requests = [] ∧ s.onlyChanges t [.out, .car]) ∧
    (r.cmd = mbPOWER_READ → r.len = 0 → ∃ t body, exec (.powerRead (some r)) s = .next t ∧
      body.take 4 = leBytes 4 (s.regStored 0x23300) ∧ body.length = 92 ∧
      t.out = s.out ++ [.message chMCTP 0x7E (mbxResponse r stOK 0 body)] ∧ t.car.requests = [] ∧ s.onlyChanges t [.out, .car]) ∧
    (r.cmd = mbPOWER_CAP_SET → r.len = 4 → 800 ≤ fld r.body 0 2 → fld r.body 0 2 ≤ 1500 → 1 ≤ fld r.body 2 2 → fld r.body 2 2 ≤ 1000 →
      ∃ t, exec (.powerCapSet (some r)) s = .next t ∧ t.rd Reg.CAR_PCAP_BMC_W = fld r.body 0 2 ∧
      t.rd Reg.CAR_PCAP_BMC_WINDOW = fld r.body 2 2 ∧ t.rd Reg.CAR_PCAP_HOST_W = s.rd Reg.CAR_PCAP_HOST_W ∧
      t.rd Reg.CAR_PCAP_EFF_W = min (s.rd Reg.CAR_PCAP_HOST_W) (fld r.body 0 2) ∧
      t.car.requests = [] ∧ s.onlyChanges t [.regs, .car, .flt, .out, .host]) ∧
    (r.cmd = mbPOWER_CAP_SET → r.len = 4 → (fld r.body 0 2 < 800 ∨ 1500 < fld r.body 0 2) →
      ∃ t, exec (.powerCapSet (some r)) s = .next t ∧
      t.out = s.out ++ [.message chMCTP 0x7E (mbxResponse r stRANGE 0 [])] ∧ t.car.requests = [] ∧ s.onlyChanges t [.out, .car]) ∧
    (r.cmd = mbLOG_READ → r.len = 10 → r.body = [] ++ leBytes 8 0 ++ leBytes 2 63 → s.flt.log = [] →
      ∃ t, exec (.logRead (some r)) s = .next t ∧
      t.out = s.out ++ [.message chMCTP 0x7E (mbxResponse r stOK 0 (leBytes 4 (s.rd Reg.CAR_BOOTS_COUNT) ++ leBytes 4 0 ++ leBytes 8 0))] ∧
      t.car.requests = [] ∧ s.onlyChanges t [.out, .car]) ∧
    (r.cmd = mbFW_STATUS → r.len = 0 → ∃ t body, exec (.fwStatus (some r)) s = .next t ∧
      body.take 1 = leBytes 1 (s.rd Reg.CAR_STAT_UPD) ∧ body.length = 16 ∧
      t.out = s.out ++ [.message chMCTP 0x7E (mbxResponse r stOK 0 body)] ∧ t.car.requests = [] ∧ s.onlyChanges t [.out, .car]) ∧
    (∀ i cmd, (i, cmd) ∈ [(Instr.getInfo none, mbGET_INFO), (.powerRead none, mbPOWER_READ), (.fwStatus none, mbFW_STATUS)] →
      r.cmd = cmd → r.len = 0 → ∃ t, exec i { s with car := { s.car with requests := [(0, r)] } } = .next t ∧
      t.rd Reg.CAR_MBX_CTL_DONE = 1 ∧ t.rd Reg.CAR_MBX_CTL_BUSY = 0 ∧
      t.out = s.out ++ [.msix (s.rd Reg.CAR_MBX_VEC_VECTOR)] ∧ t.car.requests = [] ∧ s.onlyChanges t [.regs, .out, .car])) ∧
  (∀ s : State, s.roleRuns 0 →
    (∀ eid, 0 < eid → eid < 255 → ∃ t n, exec (.setEndpointId eid) s = .next t ∧ t.car = { s.car with eid := eid } ∧
      t.out = s.out ++ [.message chMCTP 0 (leBytes 1 mcSET_EID ++ Config.standardReply mcSET_EID (leBytes 1 eid) n)] ∧
      s.onlyChanges t [.car, .sec, .out]) ∧
    (∀ eid, (eid = 0 ∨ eid = 255) → ∃ t, exec (.setEndpointId eid) s = .next t ∧ t.car = s.car ∧ s.onlyChanges t [.sec, .out]) ∧
    (∃ t, exec .getEndpointId s = .next t ∧ t.out = s.out ++ [.message chMCTP 0 (leBytes 1 mcGET_EID ++ [0] ++ leBytes 1 s.car.eid)] ∧
      s.onlyChanges t [.out]) ∧
    (∀ k, ∃ t n, exec (.getMctpVersionSupport k) s = .next t ∧
      t.out = s.out ++ [.message chMCTP 0 (leBytes 1 mcGET_VERSION ++ Config.standardReply mcGET_VERSION (leBytes 1 k) n)] ∧
      s.onlyChanges t [.sec, .out]) ∧
    (∃ t, exec .getMessageTypeSupport s = .next t ∧
      t.out = s.out ++ [.message chMCTP 0 (leBytes 1 mcGET_TYPES ++ [0, 5, 0x00, 0x01, 0x05, 0x06, 0x7E])] ∧ s.onlyChanges t [.out]) ∧
    (∀ k, ∃ t n, exec (.getVendorDefinedMessageSupport k) s = .next t ∧
      t.out = s.out ++ [.message chMCTP 0 (leBytes 1 mcGET_VDM ++ Config.standardReply mcGET_VDM (leBytes 1 k) n)] ∧
      s.onlyChanges t [.sec, .out]) ∧
    (∀ h, ∃ t, exec (.getPdr h) s = .next t ∧ t.out = s.out ++ [.message chMCTP 1 (leBytes 1 0x51 ++ Config.pdr h)] ∧
      s.onlyChanges t [.out]) ∧
    (∀ n v, ((1 ≤ n ∧ n ≤ 96 ∧ v = s.rd Reg.CAR_TEMP_VALUE (n - 1)) ∨ (101 ≤ n ∧ n ≤ 148 ∧ v = s.rd Reg.CAR_VMON_MV (n - 101)) ∨
        (n = 200 ∧ v = s.rd Reg.CAR_PWR_P1MS) ∨ (n = 201 ∧ v = s.rd Reg.CAR_PCAP_EFF_W)) →
      ∃ t, exec (.getSensorReading n) s = .next t ∧
      t.out = s.out ++ [.message chMCTP 1 (leBytes 1 0x11 ++ [0] ++ leBytes 4 v)] ∧ s.onlyChanges t [.out]))

/-- R459, R480–R486, R528, the plant. A good reading of thermal sensor 0 is taken and a reading outside −40 to 150 °C is rejected and leaves the
value (no sensor having tripped). A millisecond after a trip every die is held in reset and no port is up. A stage whose exit has held for
10 ms is left, by one step. An asserted VR_HOT forces every compute die to stage 2 or above. The power loop slows by one step the die it
picks while the power exceeds the effective cap, and changes no P-state otherwise before 10 low milliseconds; it reports the power. A
regulator that answers again is readable. -/
def Obligations.PlantFollowsItsReadings : Prop := ∀ s : State,
  (∀ v : Int, s.car.heldInReset = false → (∀ i, (Tab.getD s.car.temps i {}).seen = false) → -640 ≤ v → v ≤ 2400 →
    v < 16 * (s.rd Reg.CAR_THR_T_TRIP : Int) → s.on Reg.CAR_TEMP_FAILED 0 = false →
    ∃ t, exec (.sensorSample { temps := [v] }) s = .next t ∧ t.rd Reg.CAR_TEMP_VALUE 0 = unsigned v 16 ∧
      t.rd Reg.CAR_TEMP_REJECTED 0 = 0 ∧ s.onlyChanges t [.regs, .car, .flt, .out, .host]) ∧
  (∀ v : Int, s.car.heldInReset = false → (∀ i, (Tab.getD s.car.temps i {}).seen = false) → (v < -640 ∨ 2400 < v) →
    ∃ t, exec (.sensorSample { temps := [v] }) s = .next t ∧ t.rd Reg.CAR_TEMP_VALUE 0 = s.rd Reg.CAR_TEMP_VALUE 0 ∧
      t.rd Reg.CAR_TEMP_REJECTED 0 = 1 ∧ s.onlyChanges t [.regs, .car, .flt, .out, .host]) ∧
  (∀ t0, s.car.trippedAt = some t0 → s.car.heldInReset = false → t0 + 1200000 ≤ s.hclk →
    ∃ t, exec .tripResetHold s = .next t ∧ t.car.heldInReset = true ∧ t.car.requests = [] ∧
      (∀ p, p < 32 → t.rd Reg.FAB_PSTAT_UP p = 0) ∧ t.near = s.near ∧ t.tray = s.tray) ∧
  (∀ k t0, k < 8 → Tab.getD s.car.stages k 0 = 3 → Tab.find? s.car.coolSince (4 * k + 3) = some t0 → t0 + 10 * 1200000 ≤ s.hclk →
    Tab.find? s.car.coolSince (4 * k + 2) = none →
    ∃ t, exec (.thermalStageExit k) s = .next t ∧ Tab.getD t.car.stages k 0 = 2 ∧ bits (t.rd Reg.CAR_STAGE_STAGE) (2 * k) 2 = 2 ∧
      s.onlyChanges t [.regs, .car, .flt, .out, .host]) ∧
  (s.on Reg.CAR_STAGE_VR_HOT = false → (∀ k, k < 8 → Tab.getD s.car.stages k 0 ≤ 3) →
    ∃ t, exec (.vrHot true) s = .next t ∧ t.on Reg.CAR_STAGE_VR_HOT = true ∧
      (∀ k, k < 8 → 2 ≤ bits (t.rd Reg.CAR_STAGE_STAGE) (2 * k) 2) ∧ s.onlyChanges t [.regs, .flt, .out, .host]) ∧
  (∀ k, s.roleRuns 1 → s.rd Reg.CAR_PCAP_EFF_W < ((List.range 17).map s.regPower).sum / 1000 → s.dieToSlow = some k →
    ∃ t, exec .powerLoopTick s = .next t ∧ t.loopPs k = s.loopPs k + 1 ∧ (∀ j, j ≠ k → t.loopPs j = s.loopPs j) ∧
      t.rd Reg.CAR_PWR_P1MS = ((List.range 17).map s.regPower).sum / 1000 % 2 ^ Reg.CAR_PWR_P1MS.width ∧
      s.onlyChanges t [.regs, .car, .flt, .out, .host]) ∧
  (s.roleRuns 1 → ((List.range 17).map s.regPower).sum / 1000 ≤ s.rd Reg.CAR_PCAP_EFF_W → s.car.lowFor + 1 < 10 →
    ∃ t, exec .powerLoopTick s = .next t ∧ (∀ j, t.loopPs j = s.loopPs j) ∧
      s.onlyChanges t [.regs, .car, .flt, .out, .host]) ∧
  (∀ n v, s.roleRuns 1 → (Tab.getD s.car.regs n {}).unreadable = true →
    ∃ t, exec (.regulatorRetry n (some v)) s = .next t ∧ Tab.getD t.car.regs n {} = { mw := v, bad := 0, unreadable := false } ∧
      s.onlyChanges t [.car])

/-- R503, R504, the reference inputs. The loss of the selected input with the other good switches to it and is counted; the loss of the last
good input starts the 20 µs after which the switch resets. An input declared good, the other good too and REVERT clear, is recorded with the
offset between them.  And R506–R508, R512, R514, R516, the resets. Power-on, RESET_N and the loss of both references leave no image, no
pool, no work and empty tiers, with their cause in LAST; the fall of PWRGOOD leaves the part without power. A warm reset by its key counts
itself, ends the sessions, and keeps the extents and what the tiers hold; a write without the key is ignored and counted. The automatic
restart after a fatal event says so and empties the tiers. CONTINUE releases HOLD to the application of the image. -/
def Obligations.ReferencesFailOverAndResetsClear : Prop :=
  (∀ (s : State) (i : Nat), i < 2 →
    (s.refOk i = true → s.refOk (1 - i) = true → s.rd Reg.CLK_STAT_SEL = i →
      ∃ t, exec (.refclkLoss i) s = .next t ∧ t.refOk i = false ∧ t.refOk (1 - i) = true ∧ t.rd Reg.CLK_STAT_SEL = 1 - i ∧
        t.rd Reg.CLK_CNT_FAILOVER = min (s.rd Reg.CLK_CNT_FAILOVER + 1) (2 ^ Reg.CLK_CNT_FAILOVER.width - 1) ∧
        s.onlyChanges t recordParts) ∧
    (s.refOk i = true → s.refOk (1 - i) = false →
      ∃ t, exec (.refclkLoss i) s = .next t ∧ t.refOk i = false ∧ t.car.bothLostAt = some s.hclk ∧
        t.rd Reg.CLK_STAT_SEL = s.rd Reg.CLK_STAT_SEL ∧ s.onlyChanges t (.car :: recordParts)) ∧
    (∀ ppm10, s.refOk i = false → s.refOk (1 - i) = true → s.car.powered = true → s.on Reg.CLK_CTL_REVERT = false →
      ∃ t, exec (.refclkGood i ppm10) s = .next t ∧ t.refOk i = true ∧ t.car = { s.car with bothLostAt := none } ∧
        t.rd Reg.CLK_REF_DIFF_PPM10 = ppm10 % 2 ^ Reg.CLK_REF_DIFF_PPM10.width ∧
        t.rd Reg.CLK_STAT_SEL = s.rd Reg.CLK_STAT_SEL ∧ s.onlyChanges t (.car :: recordParts))) ∧
  (∀ s : State,
    (∀ b, ∃ t, exec (.powerOn b) s = .next t ∧ t.car.powered = true ∧ t.rd Reg.PWR_RST_STAT_LAST = 0 ∧ t.near = [] ∧ t.tray = [] ∧
      t.cfg = {} ∧ t.pool = {} ∧ t.cmd = {} ∧ t.red = {} ∧ t.pending = s.pending) ∧
    (∀ b, s.car.powered = true → ∃ t, exec (.resetN b) s = .next t ∧ t.rd Reg.PWR_RST_STAT_LAST = 1 ∧ t.near = [] ∧ t.tray = [] ∧
      t.cfg = {} ∧ t.pool = {} ∧ t.cmd = {} ∧ t.red = {} ∧ t.pending = s.pending) ∧
    (∀ b t0, s.car.bothLostAt = some t0 → t0 + usToHclk 20 ≤ s.hclk → ∃ t, exec (.bothRefsLost b) s = .next t ∧
      t.rd Reg.PWR_RST_STAT_LAST = 4 ∧ t.rd Reg.CLK_STAT_BOTH_LOST = 1 ∧ t.near = [] ∧ t.cfg = {} ∧ t.pool = {} ∧ t.cmd = {}) ∧
    (∃ t, exec .pwrgoodFall s = .next t ∧ t.car.powered = false ∧ t.near = [] ∧ t.tray = [] ∧ t.cfg = {} ∧ t.pool = {} ∧ t.cmd = {}) ∧
    (∀ a hold b, s.admitsWrite a 0x10100 → s.car.warmAt ≠ some s.hclk → s.on Reg.CAR_TRIP_VALID = false → s.custState ≠ custSWITCHING →
      s.car.warm = false → s.img.applying = none → s.fatal = false → s.on Reg.COH_FATAL_CAUSE = false → s.sqt.ents = [] →
      ∃ t, exec (.warm a 0x574D hold b) s = .next t ∧ t.rd Reg.PWR_RST_STAT_LAST = 2 ∧ t.rd Reg.PWR_RST_STAT_FATAL_RESTART = 0 ∧
        t.rd Reg.PWR_RST_STAT_WARMS = min (s.rd Reg.PWR_RST_STAT_WARMS + 1) (2 ^ Reg.PWR_RST_STAT_WARMS.width - 1) ∧
        t.sec.sessions = [] ∧ t.cmd.cmds = [] ∧ t.pool.extents = s.pool.extents ∧ t.pool.regions = s.pool.regions ∧
        t.near = s.near ∧ t.tray = s.tray) ∧
    (∀ a key hold b, s.admitsWrite a 0x10100 → key < 2 ^ 16 → key ≠ 0x574D →
      ∃ t, exec (.warm a key hold b) s = .next t ∧ s.onlyChanges t [.regs] ∧
        s.regsKeptBut t [Reg.PWR_RST_CTL_HOLD.key 0 0, Reg.PWR_CNT_IGNORED.key 0 0] ∧
        t.rd Reg.PWR_CNT_IGNORED = min (s.rd Reg.PWR_CNT_IGNORED + 1) (2 ^ Reg.PWR_CNT_IGNORED.width - 1)) ∧
    (∀ b, s.rd Reg.PWR_FATAL_AUTO_MS ≠ 0 → s.fatal = true → s.car.warm = false →
      s.flt.fatalAt + s.rd Reg.PWR_FATAL_AUTO_MS * 1200000 ≤ s.hclk → s.car.warmAt ≠ some s.hclk → s.on Reg.CAR_TRIP_VALID = false →
      s.custState ≠ custSWITCHING → s.img.applying = none →
      ∃ t, exec (.fatalAutoRestart b) s = .next t ∧ t.rd Reg.PWR_RST_STAT_LAST = 3 ∧ t.rd Reg.PWR_RST_STAT_FATAL_RESTART = 1 ∧
        t.near = [] ∧ t.tray = [] ∧ t.pool.extents = [] ∧ t.sec.sessions = []) ∧
    (∀ a hold, s.admitsWrite a 0x10100 → s.phase = phHOLD → ∃ t, exec (.continue a hold) s = .next t ∧ t.phase = phAPPLY ∧
      s.onlyChanges t [.regs] ∧ s.regsKeptBut t [Reg.PWR_RST_CTL_HOLD.key 0 0, Reg.PWR_RST_STAT_PHASE.key 0 0]))

/-- R510, R514, bring-up. Dies that are not ready end bring-up in HW_FAIL with what is ready shown. With no tray found and none to sanitize the
trays' phase ends in HOLD, where HOLD is set, or in the application. The last sanitize that ends OK ends it too; one that has lasted
PWR_SAN_MAX leaves its tray down. The application leaves every valid fen QUIESCED, every other UNUSED, and the ports to train. When the
ports have trained the switch runs, a port that is not up stays down, and the two tiers are as they were. -/
def Obligations.BringUpAdvancesByPhase : Prop := ∀ s : State,
  (∀ dies links, s.phase = phDIES → ∃ t, exec (.bringupHwFail dies links) s = .next t ∧ t.phase = phHW_FAIL ∧
    t.rd Reg.GLB_DIE_CD_READY = dies / 4 % 256 ∧ t.rd Reg.GLB_DIE_MS_READY = dies / 2 ^ 12 % 256 ∧
    t.rd Reg.GLB_D2D_CD_UP = links / 4 % 256 ∧ s.onlyChanges t [.regs, .car]) ∧
  (s.phase = phTRAYS → s.sec.sanitizing = [] → ∃ t, exec (.trayEnumeration []) s = .next t ∧ t.pool.trays = [] ∧
    t.phase = (if s.on Reg.PWR_RST_CTL_HOLD then phHOLD else phAPPLY) ∧ s.onlyChanges t [.regs, .pool, .sec]) ∧
  (∀ p t0, s.phase = phTRAYS → s.sec.sanitizing = [(p, t0)] → ∃ t, exec (.traySanitizeDone p true) s = .next t ∧
    t.sec.sanitizing = [] ∧ t.phase = (if s.on Reg.PWR_RST_CTL_HOLD then phHOLD else phAPPLY) ∧ t.pool.trays = s.pool.trays ∧
    s.onlyChanges t [.regs, .sec]) ∧
  (∀ p t0, s.phase = phTRAYS → s.sec.sanitizing = [(p, t0)] → t0 + s.rd Reg.PWR_SAN_MAX_S * 1200000000 ≤ s.hclk →
    ∃ t, exec (.traySanitizeTimeout p) s = .next t ∧ t.sec.sanitizing = [] ∧
    (∀ x, Tab.find? t.pool.trays p = some x → x.up = false ∧ x.enumerated = false) ∧
    t.phase = (if s.on Reg.PWR_RST_CTL_HOLD then phHOLD else phAPPLY) ∧ s.onlyChanges t [.regs, .sec, .pool, .flt, .out, .host]) ∧
  (∀ m, s.phase = phAPPLY → s.nextImage = some m → s.pool.extents = [] → s.pool.regions = [] → s.pool.moves = [] → s.xbr.capExt = none →
    ∃ t, exec .apply s = .next t ∧ t.phase = phPORTS ∧
    (∀ f, f < 64 → t.fenState f = (if (Tab.getD t.cfg.fens f {}).valid then fenQUIESCED else fenUNUSED))) ∧
  (s.phase = phPORTS → ∃ t, exec .portsTrained s = .next t ∧ t.phase = phRUN ∧ t.car.warm = false ∧
    (∀ p, p < 32 → s.knawenPort p = true → s.on Reg.FAB_PSTAT_SECURE p = false → (t.port p).powered = false) ∧
    s.onlyChanges t [.regs, .fab, .car, .nextFree])

/-- R61, R62, R513, quiescing and the fen reset. QUIESCE takes a running fen to QUIESCING and touches no other fen's state and no memory; it
reads QUIESCED once no chunk runs, no shielded run lasts and no request is outstanding. RESUME returns it to RUNNING. A reset of a fen that
is not QUIESCED answers RETRY and does nothing else; of a quiesced one that holds nothing it answers OK, with the fen's arenas gone. -/
def Obligations.FensQuiesceResumeAndReset : Prop := ∀ (s : State) (f : Nat), f < 64 →
  (∀ a r, s.admitsWrite a (fenCtlAt f) → s.fenState f = fenRUNNING → ∃ t, exec (.quiesce a f r) s = .next t ∧
    t.fenState f = fenQUIESCING ∧ t.rd Reg.FEN_CTL_QUIESCE f = 1 ∧ (∀ g, g < 64 → g ≠ f → t.fenState g = s.fenState g) ∧
    t.near = s.near ∧ t.tray = s.tray ∧ t.cfg = s.cfg) ∧
  (s.fenState f = fenQUIESCING → s.cmd.running = [] → s.fab.eng = [] → (∀ c ∈ s.cmd.cmds, c.2.fen = f → c.2.isShielded = false) →
    ∃ t, exec (.fenQuiesced f) s = .next t ∧ t.fenState f = fenQUIESCED ∧ t.rd Reg.FEN_CTL_QUIESCE f = 0 ∧
    s.onlyChanges t [.regs] ∧ s.regsKeptBut t [Reg.FEN_STATE_STATE.key f 0, Reg.FEN_CTL_QUIESCE.key f 0]) ∧
  (s.fenState f = fenQUIESCING → s.cmd.running ≠ [] → (∀ r ∈ s.cmd.running, (s.cmdOf r.2.1).any (fun c => c.fen == f) = true) →
    exec (.fenQuiesced f) s = .next s) ∧
  (∀ a, s.admitsWrite a (fenCtlAt f) → (s.fenState f = fenQUIESCED ∨ s.fenState f = fenQUIESCING) → s.on Reg.FEN_STATE_APPLYING f = false →
    ∃ t, exec (.resume a f) s = .next t ∧ t.fenState f = fenRUNNING ∧ t.rd Reg.FEN_CTL_QUIESCE f = 0 ∧
    (∀ g, g < 64 → g ≠ f → t.fenState g = s.fenState g) ∧ s.onlyChanges t [.regs, .pool]) ∧
  (∀ a, s.admitsWrite a 0x10114 → s.on Reg.PWR_FEN_RST_BUSY = false → s.fenState f ≠ fenQUIESCED →
    ∃ t, exec (.fenReset a f) s = .next t ∧ t.rd Reg.PWR_FEN_RST_STATUS = stRETRY ∧ s.onlyChanges t [.regs] ∧
    s.regsKeptBut t [Reg.PWR_FEN_RST_FEN.key 0 0, Reg.PWR_FEN_RST_STATUS.key 0 0]) ∧
  (∀ a, s.admitsWrite a 0x10114 → s.on Reg.PWR_FEN_RST_BUSY = false → s.fenState f = fenQUIESCED → s.cmd.cmds = [] → s.sqt.ents = [] →
    s.pool.regions = [] → s.pool.scrubs = [] → s.car.afterFenReset = [] →
    ∃ t, exec (.fenReset a f) s = .next t ∧ t.rd Reg.PWR_FEN_RST_STATUS = stOK ∧ t.rd Reg.PWR_FEN_RST_BUSY = 0 ∧
    (∀ x ∈ t.att.arenas, x.2.fen ≠ f) ∧ (∀ x ∈ t.ckp.sets, x.2.fen ≠ f) ∧ t.car.fenReset = none ∧ t.near = s.near ∧ t.tray = s.tray)

/-- R421, R423, R424, R426, the SPDM requests that need no session. Where SPDM is served up to the request's level each is answered with the
response of its code; GET_CERTIFICATE answers with the asked part of slot 0's chain and refuses every other slot; CHALLENGE and
GET_MEASUREMENTS carry the Alias key's signature over the request and what they answer; index 0xFF answers all ten measurements.
KEY_EXCHANGE with the DRBG running opens a session that is not finished yet, and with four open is refused Busy. While nothing serves SPDM
no request changes anything. The content of the standard's own messages is the model's free constant `Config.standardReply`, message codes
are PRESUMED.  And R426, the life of a session. FINISH without a client chain ends the handshake with no role; with a chain, the root it
leads to gives the role, and a chain that leads to no root, or a message that does not verify, fails and is counted. HEARTBEAT and
KEY_UPDATE are answered on a finished session, HEARTBEAT renewing it; END_SESSION and the loss of two 60 s heartbeats end it. Frame: the
other sessions. -/
def Obligations.SpdmSessionsAnswerBeginAndEnd : Prop :=
  (∀ (s : State) (req : Bytes),
    (∀ l, s.spdmLevel = some l →
      (∃ t, exec (.getVersion req) s = .next t ∧ s.onlyChanges t [.sec, .out] ∧
        t.out = s.out ++ [.message chSPDM (spGET_VERSION - 0x80) (Config.standardReply spGET_VERSION req s.sec.messages)]) ∧
      (1 ≤ l →
        (∃ t, exec (.getCapabilities req) s = .next t ∧ s.onlyChanges t [.sec, .out] ∧
          t.out = s.out ++ [.message chSPDM (spGET_CAPABILITIES - 0x80) (Config.standardReply spGET_CAPABILITIES req s.sec.messages)]) ∧
        (∃ t, exec (.negotiateAlgorithms req) s = .next t ∧ s.onlyChanges t [.sec, .out] ∧
          t.out = s.out ++ [.message chSPDM (spNEGOTIATE_ALGORITHMS - 0x80)
            (Config.standardReply spNEGOTIATE_ALGORITHMS req s.sec.messages)]) ∧
        (∃ t, exec .getDigests s = .next t ∧ s.onlyChanges t [.out] ∧
          t.out = s.out ++ [.message chSPDM (spGET_DIGESTS - 0x80) ([1] ++ Config.sha384 s.certChain)]) ∧
        (∀ off len, ∃ t body, exec (.getCertificate 0 off len) s = .next t ∧ s.onlyChanges t [.out] ∧
          t.out = s.out ++ [.message chSPDM (spGET_CERTIFICATE - 0x80) body] ∧ body.drop 4 = (s.certChain.drop off).take len) ∧
        (∀ slot off len, slot ≠ 0 → ∃ t, exec (.getCertificate slot off len) s = .next t ∧ s.onlyChanges t [.out] ∧
          t.out = s.out ++ [.message chSPDM spERROR [1]]) ∧
        (∃ t body, exec (.challenge 0 req) s = .next t ∧ s.onlyChanges t [.sec, .out] ∧
          t.out = s.out ++ [.message chSPDM (spCHALLENGE - 0x80) (body ++ Config.aliasSign s.cdi (req ++ body) s.sec.messages)]) ∧
        (∃ t, exec (.getMeasurements 0xFF req) s = .next t ∧ s.onlyChanges t [.sec, .out] ∧
          (let body := [10] ++ (([1, 2, 3, 4, 5, 6, 7, 8, 9, 10] : List Nat).map s.measBlock).flatten
          t.out = s.out ++ [.message chSPDM (spGET_MEASUREMENTS - 0x80) (body ++ Config.aliasSign s.cdi (req ++ body) s.sec.messages)])) ∧
        (∀ i, 10 < i → i ≠ 0xFF → ∃ t, exec (.getMeasurements i req) s = .next t ∧ s.onlyChanges t [.out] ∧
          t.out = s.out ++ [.message chSPDM spERROR [1]])) ∧
      (2 ≤ l → s.entropy = true → s.sec.sessions.length < 4 →
        ∃ t, exec (.keyExchange req) s = .next t ∧ Tab.find? t.sec.sessions s.sec.nextSession = some { lastBeat := s.hclk } ∧
          (∀ i, i ≠ s.sec.nextSession → Tab.find? t.sec.sessions i = Tab.find? s.sec.sessions i) ∧
          s.onlyChanges t [.regs, .sec, .out] ∧
          s.regsKeptBut t [Reg.SEC_SESS_ACTIVE.key 0 0, Reg.SEC_SESS_CUST.key 0 0, Reg.SEC_SESS_OPER.key 0 0]) ∧
      (2 ≤ l → s.entropy = true → 4 ≤ s.sec.sessions.length →
        ∃ t, exec (.keyExchange req) s = .next t ∧ s.onlyChanges t [.out] ∧ t.out = s.out ++ [.message chSPDM spERROR [3]])) ∧
    (s.spdmLevel = none → exec (.getVersion req) s = .next s ∧ exec (.keyExchange req) s = .next s)) ∧
  (∀ (s : State) (id : Nat) (x : Session), Tab.find? s.sec.sessions id = some x →
    (∀ l, s.spdmLevel = some l → 2 ≤ l → x.finished = false →
      (s.phase ≠ phRECOVERY → ∃ t, exec (.finish id none true) s = .next t ∧ t.sec.operator = s.sec.operator ∧
        Tab.find? t.sec.sessions id = some { x with finished := true, role := .none, root := [], lastBeat := s.hclk } ∧
        (∀ i, i ≠ id → Tab.find? t.sec.sessions i = Tab.find? s.sec.sessions i) ∧ s.onlyChanges t [.regs, .sec, .out]) ∧
      (∀ c r, s.phase ≠ phRECOVERY → Config.chainRoot c = some r → ∃ t, exec (.finish id (some c) true) s = .next t ∧
        Tab.find? t.sec.sessions id = some { x with finished := true, role := s.roleOf r, root := r, lastBeat := s.hclk } ∧
        (∀ i, i ≠ id → Tab.find? t.sec.sessions i = Tab.find? s.sec.sessions i) ∧ s.onlyChanges t [.regs, .sec, .out]) ∧
      (∀ c, ∃ t, exec (.finish id c false) s = .next t ∧ Tab.find? t.sec.sessions id = none ∧
        t.rd Reg.SEC_CNT_SESS_FAIL = min (s.rd Reg.SEC_CNT_SESS_FAIL + 1) (2 ^ Reg.SEC_CNT_SESS_FAIL.width - 1) ∧
        (∀ i, i ≠ id → Tab.find? t.sec.sessions i = Tab.find? s.sec.sessions i) ∧
        t.out = s.out ++ [.message chSPDM spERROR [6]] ∧ s.onlyChanges t [.regs, .sec, .img, .car, .out])) ∧
    (∀ l, s.spdmLevel = some l → 3 ≤ l → x.finished = true →
      (∃ t, exec (.spdmHeartbeat id) s = .next t ∧ Tab.find? t.sec.sessions id = some { x with lastBeat := s.hclk } ∧
        (∀ i, i ≠ id → Tab.find? t.sec.sessions i = Tab.find? s.sec.sessions i) ∧ s.onlyChanges t [.sec, .out]) ∧
      (∃ t, exec (.endSession id) s = .next t ∧ Tab.find? t.sec.sessions id = none ∧
        (∀ i, i ≠ id → Tab.find? t.sec.sessions i = Tab.find? s.sec.sessions i) ∧
        s.onlyChanges t [.regs, .sec, .img, .car, .out])) ∧
    (∀ req, s.spdmLevel = some 4 → x.finished = true → ∃ t, exec (.keyUpdate id req) s = .next t ∧ t.sec.sessions = s.sec.sessions ∧
      t.out = s.out ++ [.message chSPDM (spKEY_UPDATE - 0x80) (Config.standardReply spKEY_UPDATE req s.sec.messages)] ∧
      s.onlyChanges t [.sec, .out]) ∧
    (x.lastBeat + beatLimit ≤ s.hclk → ∃ t, exec (.sessionHeartbeatLoss id) s = .next t ∧ Tab.find? t.sec.sessions id = none ∧
      (∀ i, i ≠ id → Tab.find? t.sec.sessions i = Tab.find? s.sec.sessions i) ∧ s.onlyChanges t [.regs, .sec, .img, .car]) ∧
    (s.hclk < x.lastBeat + beatLimit → exec (.sessionHeartbeatLoss id) s = .next s))

/-- R421, R422, R425, R427, R428, R431, R438, the privileged requests about keys, policy, custody and debug. Each acts on the record at once and
is answered with its CODE, SEQ and RESULT: KEY_SLOT sets or clears a slot, POLICY takes force at the next warm reset, DEBUG_UNLOCK gives the
custodian INSPECT and the operator FULL, CUSTODIAN_READ returns the record, CUSTODIAN_INSTALL claims the switch, OPERATOR_SET deploys it,
DECOMMISSION destroys the UDS and ends every session. A session of another role is denied, counted, and changes nothing else. The bytes of
the record are the model's layout.  And R427–R433, the custodian scrub. A switch asked for by the operator, or a release by the custodian,
takes the state to SWITCHING with the sessions of everyone else ended, both tiers empty, no configuration, no pool, no work and debug
LOCKED, the record to come carried. The end of the scrub puts that record in place, CLAIMED, or none, UNCLAIMED, and answers; without
entropy the state is FAILED. A failed TRNG test clears OK, sets FAIL and is recorded. -/
def Obligations.CustodyChangesAndIsScrubbed : Prop :=
  (∀ (s : State) (id seq : Nat),
    (∀ k key, s.grants id .custodian = true → s.custState = custCLAIMED → s.privBusy = false → k < 4 → key.length = 97 →
      ∃ t, exec (.keySlot id seq k (some key)) s = .next t ∧ t.sec.operator = s.sec.operator ∧
        t.sec.cust = s.sec.cust.map (fun c => { c with imgKeys := Tab.put c.imgKeys k key }) ∧
        t.out = s.out ++ [privReply cdKEY_SLOT seq resOK] ∧ s.onlyChanges t [.regs, .sec, .out]) ∧
    (∀ k, s.grants id .custodian = true → s.custState = custCLAIMED → s.privBusy = false → k < 4 →
      ∃ t, exec (.keySlot id seq k none) s = .next t ∧
        t.sec.cust = s.sec.cust.map (fun c => { c with imgKeys := Tab.del c.imgKeys k }) ∧
        t.out = s.out ++ [privReply cdKEY_SLOT seq resOK] ∧ s.onlyChanges t [.regs, .sec, .out]) ∧
    (∀ bits roots allow c, s.grants id .custodian = true → s.custState = custCLAIMED → s.privBusy = false → s.sec.cust = some c →
      { c with policy := bits, epRoots := roots, epAllow := allow }.ok = true →
      ∃ t, exec (.policy id seq bits roots allow) s = .next t ∧
        t.sec.cust = some { c with policy := bits, epRoots := roots, epAllow := allow } ∧ t.policyNow = s.policyNow ∧
        t.rd Reg.SEC_POLICY_BITS = s.rd Reg.SEC_POLICY_BITS ∧
        t.out = s.out ++ [privReply cdPOLICY seq resOK] ∧ s.onlyChanges t [.regs, .sec, .out]) ∧
    (s.grants id .custodian = true → s.custState = custCLAIMED → ∃ t, exec (.debugUnlock id seq) s = .next t ∧
      t.rd Reg.SEC_LIFE_DEBUG = dbgINSPECT ∧ s.onlyChanges t [.regs, .car, .flt, .out, .host]) ∧
    (s.grants id .operator = true → s.custState = custUNCLAIMED → ∃ t, exec (.debugUnlock id seq) s = .next t ∧
      t.rd Reg.SEC_LIFE_DEBUG = dbgFULL ∧ s.onlyChanges t [.regs, .car, .flt, .out, .host]) ∧
    (∀ r c, (r = Role.custodian ∨ r = Role.operator) → s.grants id r = true → s.privBusy = false → s.sec.cust = some c →
      ∃ t, exec (.custodianRead id seq) s = .next t ∧ t.out = s.out ++ [privReply cdCUSTODIAN_READ seq resOK c.bytes] ∧
        s.onlyChanges t [.regs, .out] ∧ s.regsKeptBut t [Reg.SEC_SESS_PRIV_BUSY.key 0 0]) ∧
    (∀ c, s.grants id .operator = true → s.custState = custUNCLAIMED → s.privBusy = false → c.ok = true → s.entropy = true →
      s.rd Reg.SEC_LIFE_DEBUG ≠ dbgFULL → ∃ t, exec (.custodianInstall id seq c) s = .next t ∧ t.sec.cust = some c ∧
        t.custState = custCLAIMED ∧ t.rd Reg.SEC_POLICY_BITS = c.policy % 2 ^ Reg.SEC_POLICY_BITS.width ∧
        t.rd Reg.SEC_CUST_CHANGES = min (s.rd Reg.SEC_CUST_CHANGES + 1) (2 ^ Reg.SEC_CUST_CHANGES.width - 1) ∧
        t.out = s.out ++ [privReply cdCUSTODIAN_INSTALL seq resOK] ∧ s.onlyChanges t [.regs, .sec, .out]) ∧
    (∀ root old sigR sigS, s.grants id .operator = true → s.life = lifeDEPLOYED → s.privBusy = false → root.length = 97 →
      s.sec.operator = some old → Config.ecdsaVerify old root sigR sigS = true →
      ∃ t, exec (.operatorSet id seq root sigR sigS) s = .next t ∧ t.sec.operator = some root ∧ t.life = lifeDEPLOYED ∧
        t.out = s.out ++ [privReply cdOPERATOR_SET seq resOK] ∧ s.onlyChanges t [.regs, .sec, .out]) ∧
    (s.grants id .operator = true → s.life = lifeDEPLOYED → s.custState = custUNCLAIMED → s.privBusy = false →
      ∃ t, exec (.decommission id seq) s = .next t ∧ t.life = lifeDECOMMISSIONED ∧ t.sec.uds = false ∧ t.sec.sessions = [] ∧
        t.out = s.out ++ [privReply cdDECOMMISSION seq resOK] ∧ s.onlyChanges t [.regs, .sec, .out]) ∧
    (∀ k key c root sigR sigS, s.grants id .none = true →
      (∃ t, exec (.keySlot id seq k key) s = .next t ∧ t.out = s.out ++ [privReply cdKEY_SLOT seq resDENIED] ∧
        s.onlyChanges t [.regs, .out] ∧ s.regsKeptBut t [Reg.SEC_CNT_PRIV_DENY.key 0 0]) ∧
      (∃ t, exec (.custodianInstall id seq c) s = .next t ∧ t.out = s.out ++ [privReply cdCUSTODIAN_INSTALL seq resDENIED] ∧
        s.onlyChanges t [.regs, .out] ∧ s.regsKeptBut t [Reg.SEC_CNT_PRIV_DENY.key 0 0]) ∧
      (∃ t, exec (.operatorSet id seq root sigR sigS) s = .next t ∧ t.out = s.out ++ [privReply cdOPERATOR_SET seq resDENIED] ∧
        s.onlyChanges t [.regs, .out] ∧ s.regsKeptBut t [Reg.SEC_CNT_PRIV_DENY.key 0 0]))) ∧
  (∀ (s : State) (id seq : Nat),
    (∀ c san, s.grants id .operator = true → s.custState = custCLAIMED → s.on Reg.COH_STAT_DOWN = false → s.updWriting = false →
      s.sec.scrub = none → (∀ r, c = some r → r.ok = true) → s.entropy = true →
      ∃ t, exec (.custodianSwitch id seq c san) s = .next t ∧ t.custState = custSWITCHING ∧ t.near = [] ∧ t.tray = [] ∧
        t.cfg = {} ∧ t.pool.extents = [] ∧ t.pool.regions = [] ∧ t.cmd.cmds = [] ∧ t.cmd.rings = [] ∧ t.red = {} ∧ t.sqt = {} ∧
        t.img.running = none ∧ (∀ i, i ≠ id → Tab.find? t.sec.sessions i = none) ∧ t.rd Reg.SEC_LIFE_DEBUG = dbgLOCKED ∧
        (t.sec.scrub.map fun r => r.carried) = some c ∧ t.sec.cutOff = some c ∧ t.pending = s.pending) ∧
    (∀ san, s.grants id .custodian = true → s.custState = custCLAIMED → s.on Reg.COH_STAT_DOWN = false → s.updWriting = false →
      s.privBusy = false → s.entropy = true →
      ∃ t, exec (.custodianRelease id seq san) s = .next t ∧ t.custState = custSWITCHING ∧ t.near = [] ∧ t.tray = [] ∧
        t.cfg = {} ∧ t.pool.extents = [] ∧ t.cmd.cmds = [] ∧ t.img.running = none ∧
        (t.sec.scrub.map fun r => r.carried) = some none ∧ t.pending = s.pending) ∧
    (∀ r, s.sec.scrub = some r → s.entropy = true → ∃ t, exec .scrubComplete s = .next t ∧ t.sec.scrub = none ∧ t.sec.cutOff = none ∧
      t.sec.cust = r.carried ∧ t.custState = (if r.carried.isSome then custCLAIMED else custUNCLAIMED) ∧
      t.rd Reg.SEC_CUST_CHANGES = min (s.rd Reg.SEC_CUST_CHANGES + 1) (2 ^ Reg.SEC_CUST_CHANGES.width - 1) ∧
      s.onlyChanges t [.regs, .sec, .out]) ∧
    (∀ r, s.sec.scrub = some r → s.entropy = false → ∃ t, exec .scrubComplete s = .next t ∧ t.sec.scrub = none ∧
      t.sec.cust = s.sec.cust ∧ t.custState = custFAILED ∧ s.onlyChanges t [.regs, .sec, .out]) ∧
    (∀ k, s.entropy = true → ∃ t, exec (.trngFail k) s = .next t ∧ t.rd Reg.SEC_TRNG_OK = 0 ∧ t.rd Reg.SEC_TRNG_FAIL = 1 ∧
      t.entropy = false ∧ s.onlyChanges t recordParts))

/-- R55, R56, R58–R60, R66, R67, R427, R428, images and usage. A piece that continues a load is kept and answered OK; the last piece starts
validation; a load of another session while one is in progress is BUSY and disturbs nothing. Validation that fails reports its code, section
and offset and changes no configuration, no image and no memory; a full image that passes is staged. A fen image is applied with its serial,
the fen QUIESCED where it is valid and UNUSED where it is not, and the chain of fen images extended. USAGE answers the signed report of now,
numbered, or the closing report. -/
def Obligations.ImagesLoadValidateAndApply : Prop := ∀ (s : State) (id seq : Nat),
  (∀ off total data got, s.grants id .custodian = true → s.custState = custCLAIMED → s.privBusy = false → s.sec.scrub = none →
    s.img.receiving = some { session := id, total := total, got := got } → got.length = off → 0 < off → 0 < data.length →
    data.length ≤ pieceMax → off + data.length < total →
    ∃ t, exec (.imageLoad id seq off total data) s = .next t ∧
      t.img = { s.img with receiving := some { session := id, total := total, got := got ++ data, seq := seq } } ∧
      t.out = s.out ++ [privReply cdIMAGE_LOAD seq resOK] ∧ s.onlyChanges t [.regs, .img, .out]) ∧
  (∀ data, s.grants id .custodian = true → s.custState = custCLAIMED → s.privBusy = false → s.sec.scrub = none →
    s.img.receiving = none → 0 < data.length → data.length ≤ pieceMax →
    ∃ t, exec (.imageLoad id seq 0 data.length data) s = .next t ∧ t.rd Reg.FEN_IMG_STATUS_BUSY = 1 ∧
      t.img = { s.img with receiving := none, validating := some { session := id, total := data.length, got := data, seq := seq } } ∧
      s.onlyChanges t [.regs, .img]) ∧
  (∀ off total data l, s.grants id .custodian = true → s.custState = custCLAIMED → s.sec.scrub = none →
    s.img.receiving = some l → l.session ≠ id →
    ∃ t, exec (.imageLoad id seq off total data) s = .next t ∧ t.rd Reg.FEN_IMG_STATUS_RESULT = imgBusy ∧
      t.rd Reg.FEN_IMG_STATUS_DONE = 1 ∧ s.onlyChanges t [.regs, .out]) ∧
  (∀ l e, s.img.validating = some l → imgValidate Config.ecdsaVerify s.imgCtx l.got = some e →
    ∃ t, exec .imageValidationDone s = .next t ∧ t.img = { s.img with validating := none } ∧
      t.rd Reg.FEN_IMG_STATUS_RESULT = e.status % 2 ^ Reg.FEN_IMG_STATUS_RESULT.width ∧
      t.rd Reg.FEN_IMG_STATUS_SECTION = e.sect % 2 ^ Reg.FEN_IMG_STATUS_SECTION.width ∧
      t.rd Reg.FEN_IMG_OFFSET_OFFSET = e.offset % 2 ^ Reg.FEN_IMG_OFFSET_OFFSET.width ∧
      t.rd Reg.FEN_IMG_STATUS_DONE = 1 ∧ s.onlyChanges t [.regs, .img, .out]) ∧
  (∀ l, s.img.validating = some l → imgValidate Config.ecdsaVerify s.imgCtx l.got = none → (decodeImage l.got).kind = 1 →
    ∃ t, exec .imageValidationDone s = .next t ∧
      t.img = { s.img with validating := none, staged := some (decodeImage l.got) } ∧ t.rd Reg.FEN_IMG_STATUS_STAGED = 1 ∧
      t.rd Reg.FEN_IMG_STAGED_SERIAL = (decodeImage l.got).serial % 2 ^ Reg.FEN_IMG_STAGED_SERIAL.width ∧
      t.rd Reg.FEN_IMG_STATUS_RESULT = imgOk ∧ s.onlyChanges t [.regs, .img, .out]) ∧
  (∀ m, s.img.applying = some m → m.fen < 64 → s.fenResetting m.fen = false → s.car.warmQueued = none → s.gateLate m = none →
    s.img.resumeAfterApply = [] → m.sections.contains 2 = true →
    ∃ t, exec .fenImageApply s = .next t ∧ t.img.applying = none ∧ t.rd Reg.FEN_STATE_APPLYING m.fen = 0 ∧
      t.rd Reg.FEN_SERIAL_SERIAL m.fen = m.serial % 2 ^ Reg.FEN_SERIAL_SERIAL.width ∧
      t.fenState m.fen = (if (m.fens.headD { Tab.getD s.cfg.fens m.fen { fen := m.fen } with fen := m.fen }).valid then fenQUIESCED else fenUNUSED) ∧
      (∀ g, g ≠ m.fen → Tab.find? t.cfg.fens g = Tab.find? s.cfg.fens g) ∧
      t.sec.fenChain = Config.sha384 (s.measurement 9 ++ Config.sha384 m.raw) ∧ t.near = s.near ∧ t.tray = s.tray) ∧
  (∀ r, (r = Role.custodian ∨ r = Role.operator) → s.grants id r = true → s.custState ≠ custFAILED →
    (∃ t, exec (.usage id seq false) s = .next t ∧ t.img = { s.img with reports := s.img.reports + 1 } ∧
      t.out = s.out ++ [privReply cdUSAGE seq resOK (s.usageReport false).1] ∧ s.onlyChanges t [.regs, .img, .sec, .out]) ∧
    (∀ c, s.img.closing = some c → ∃ t, exec (.usage id seq true) s = .next t ∧
      t.out = s.out ++ [privReply cdUSAGE seq resOK c] ∧ s.onlyChanges t [.regs, .out]))

/-- R428, R471, R472, R474, the firmware update. BEGIN empties the slot that is not active and erases it; the end of the erase lets DATA in; a
piece of DATA that programs is kept at its offset, one that does not is recorded as FLASH_FAIL and leaves the slot as it was. VERIFY of an
image that passes is VERIFIED with its security version staged, one that fails stays RECEIVING with the code of the first check it fails.
ACTIVATE makes the slot active on trial from the next reset; ABORT returns to IDLE, and from ACTIVATED to the slot before. An operation out
of turn changes nothing but the result shown. -/
def Obligations.FirmwareUpdateFollowsItsStates : Prop := ∀ (s : State) (id seq : Nat) (r : Role),
  (r = .custodian ∨ r = .operator) → s.grants id r = true → (s.custState = custCLAIMED ∨ s.custState = custUNCLAIMED) →
  s.img.validating = none → s.img.applying = none → s.sec.scrub = none →
  (s.rd Reg.CAR_STAT_UPD = updIDLE → ∀ total, 16 ≤ total → total ≤ fwMax →
    ∃ t, exec (.fwUpdateBegin id seq total) s = .next t ∧ t.rd Reg.CAR_STAT_UPD = updERASING ∧
      t.car.fw.slot (1 - s.car.fw.active) = { factory := false, total := total } ∧ t.car.fw.active = s.car.fw.active ∧
      t.car.fw.slot s.car.fw.active = s.car.fw.slot s.car.fw.active ∧ t.car.fw.owner = some id ∧
      t.out = s.out ++ [privReply cdFW_UPDATE seq resOK [0]] ∧ s.onlyChanges t [.regs, .car, .out]) ∧
  (s.rd Reg.CAR_STAT_UPD = updERASING → ∃ t, exec .fwEraseDone s = .next t ∧ t.rd Reg.CAR_STAT_UPD = updRECEIVING ∧
    s.onlyChanges t [.regs]) ∧
  (s.rd Reg.CAR_STAT_UPD = updRECEIVING → s.car.fw.owner = some id →
    (∀ off data, 16 ≤ data.length → data.length ≤ 4032 → off % 16 = 0 →
      off + data.length ≤ (s.car.fw.slot s.fwTarget).total → (s.car.fw.slot s.fwTarget).pieces = [] →
      (∃ t, exec (.fwUpdateData id seq off data true) s = .next t ∧ t.rd Reg.CAR_STAT_UPD = updRECEIVING ∧
        (t.car.fw.slot s.fwTarget).pieces = [(off, data)] ∧ t.car.fw.active = s.car.fw.active ∧
        t.out = s.out ++ [privReply cdFW_UPDATE seq resOK [0]] ∧ s.onlyChanges t [.regs, .car, .out]) ∧
      (∃ t, exec (.fwUpdateData id seq off data false) s = .next t ∧ t.rd Reg.CAR_STAT_UPD = updRECEIVING ∧
        t.car.fw = { s.car.fw with lastResult := upFLASH } ∧ s.onlyChanges t [.regs, .car, .flt, .out, .host])) ∧
    (∀ c i, s.verifySlot (s.car.fw.slot s.fwTarget) = (c, some i) → ∃ t, exec (.fwUpdateVerify id seq) s = .next t ∧
      t.rd Reg.CAR_STAT_UPD = updVERIFIED ∧ t.car.fw = { s.car.fw with staged := some i, lastResult := upOK } ∧
      t.rd Reg.CAR_FW_SVN_STAGED = i.svn % 2 ^ Reg.CAR_FW_SVN_STAGED.width ∧
      t.out = s.out ++ [privReply cdFW_UPDATE seq resOK [0]] ∧ s.onlyChanges t [.regs, .car, .out]) ∧
    (∀ c, s.verifySlot (s.car.fw.slot s.fwTarget) = (c, none) → ∃ t, exec (.fwUpdateVerify id seq) s = .next t ∧
      t.rd Reg.CAR_STAT_UPD = updRECEIVING ∧ t.car.fw = { s.car.fw with lastResult := c } ∧
      s.onlyChanges t [.regs, .car, .flt, .out, .host])) ∧
  (s.rd Reg.CAR_STAT_UPD = updVERIFIED → s.car.fw.owner = some id → ∃ t, exec (.fwUpdateActivate id seq) s = .next t ∧
    t.rd Reg.CAR_STAT_UPD = updACTIVATED ∧ t.car.fw.active = 1 - s.car.fw.active ∧ t.car.fw.before = s.car.fw.active ∧
    t.car.fw.trial = true ∧ t.car.fw.tries = 0 ∧ t.car.fw.running = s.car.fw.running ∧
    s.onlyChanges t [.regs, .car, .flt, .out, .host]) ∧
  (s.rd Reg.CAR_STAT_UPD = updACTIVATED → s.car.fw.owner = some id → ∃ t, exec (.fwUpdateAbort id seq) s = .next t ∧
    t.rd Reg.CAR_STAT_UPD = updIDLE ∧ t.car.fw.active = s.car.fw.before ∧ t.car.fw.trial = false ∧ t.car.fw.owner = none ∧
    t.out = s.out ++ [privReply cdFW_UPDATE seq resOK [0]] ∧ s.onlyChanges t [.regs, .car, .out]) ∧
  (s.rd Reg.CAR_STAT_UPD = updIDLE → ∃ t, exec (.fwUpdateActivate id seq) s = .next t ∧ t.rd Reg.CAR_STAT_UPD = updIDLE ∧
    t.car.fw = { s.car.fw with lastResult := upORDER } ∧ t.out = s.out ++ [privReply cdFW_UPDATE seq resOK [9]] ∧
    s.onlyChanges t [.regs, .car, .out])

/-- R435, R436, R458, R506, the management link. Keys programmed for one of the three IDE streams make it secure and count in `SEC_IDE.STREAMS`;
an integrity failure on a secure stream ends it, is counted and recorded, and takes a LOCKED or running interface to ERROR. LOCK, START and
STOP move the interface between its states and the report gives the measurements; a request in another state is refused and changes no
register; a locked configuration that changes is an ERROR. The link's fall and rise are seen by the record queue; its reset leaves no stream
and an UNLOCKED interface. Response codes are PRESUMED from PCIe. -/
def Obligations.ManagementLinkFollowsTdispAndIde : Prop := ∀ (s : State) (id : Nat),
  (s.spdmLevel = some 4 → ∀ x, Tab.find? s.sec.sessions id = some x → x.finished = true →
    (∀ n, n < 3 → ∃ t, exec (.ideKm id n) s = .next t ∧ Tab.find? t.sec.ide n = some { secure := true, keyedAt := s.hclk } ∧
      t.rd Reg.SEC_IDE_STREAMS = t.sec.ide.countP (fun k => k.2.secure) % 2 ^ Reg.SEC_IDE_STREAMS.width ∧
      (∀ i, i ≠ n → Tab.find? t.sec.ide i = Tab.find? s.sec.ide i) ∧ s.onlyChanges t [.regs, .sec, .out] ∧
      s.regsKeptBut t [Reg.SEC_IDE_STREAMS.key 0 0]) ∧
    (s.rd Reg.SEC_TDISP_STATE = tdUNLOCKED → ∃ t, exec (.lockInterface id) s = .next t ∧ t.rd Reg.SEC_TDISP_STATE = tdLOCKED ∧
      s.onlyChanges t [.regs, .sec, .out] ∧ s.regsKeptBut t [Reg.SEC_TDISP_STATE.key 0 0]) ∧
    (s.rd Reg.SEC_TDISP_STATE ≠ tdUNLOCKED → ∃ t, exec (.lockInterface id) s = .next t ∧ s.onlyChanges t [.out] ∧
      t.out = s.out ++ [.message chIDE tmERROR [4, 0, 0, 0]]) ∧
    ((s.rd Reg.SEC_TDISP_STATE = tdLOCKED ∨ s.rd Reg.SEC_TDISP_STATE = tdRUN) → ∃ t, exec (.getDeviceInterfaceReport id) s = .next t ∧
      t.out = s.out ++ [.message chIDE (tmREPORT - 0x80) (Config.standardReply tmREPORT [] s.sec.messages ++
        (s.measurement 3 ++ s.measurement 7 ++ s.measurement 10))] ∧ s.onlyChanges t [.sec, .out]) ∧
    (s.rd Reg.SEC_TDISP_STATE = tdLOCKED → ∃ t, exec (.startInterface id) s = .next t ∧ t.rd Reg.SEC_TDISP_STATE = tdRUN ∧
      s.onlyChanges t [.regs, .sec, .out] ∧ s.regsKeptBut t [Reg.SEC_TDISP_STATE.key 0 0]) ∧
    (s.rd Reg.SEC_TDISP_STATE < 4 → ∃ t, exec (.stopInterface id) s = .next t ∧ t.rd Reg.SEC_TDISP_STATE = tdUNLOCKED ∧
      s.onlyChanges t [.regs, .sec, .out] ∧ s.regsKeptBut t [Reg.SEC_TDISP_STATE.key 0 0])) ∧
  (∀ n x, Tab.find? s.sec.ide n = some x → x.secure = true → ∃ t, exec (.ideFail n) s = .next t ∧ Tab.find? t.sec.ide n = none ∧
    t.rd Reg.SEC_IDE_FAIL = 1 ∧ t.rd Reg.SEC_CNT_IDE_FAIL = min (s.rd Reg.SEC_CNT_IDE_FAIL + 1) (2 ^ Reg.SEC_CNT_IDE_FAIL.width - 1) ∧
    t.rd Reg.SEC_TDISP_STATE = (if s.rd Reg.SEC_TDISP_STATE = tdLOCKED ∨ s.rd Reg.SEC_TDISP_STATE = tdRUN then tdERROR
      else s.rd Reg.SEC_TDISP_STATE) ∧ s.onlyChanges t [.regs, .sec, .flt, .out, .host]) ∧
  ((s.rd Reg.SEC_TDISP_STATE = tdLOCKED ∨ s.rd Reg.SEC_TDISP_STATE = tdRUN) → ∃ t, exec .lockedConfigurationChange s = .next t ∧
    t.rd Reg.SEC_TDISP_STATE = tdERROR ∧ t.rd Reg.SEC_CNT_TDISP_ERR = min (s.rd Reg.SEC_CNT_TDISP_ERR + 1) (2 ^ Reg.SEC_CNT_TDISP_ERR.width - 1) ∧
    s.onlyChanges t [.regs] ∧ s.regsKeptBut t [Reg.SEC_TDISP_STATE.key 0 0, Reg.SEC_CNT_TDISP_ERR.key 0 0]) ∧
  (∃ t, exec .managementLinkDown s = .next t ∧ t.flt = { s.flt with mgmtUp := false } ∧ s.onlyChanges t [.flt]) ∧
  (s.car.powered = true → ∃ t, exec .managementLinkUp s = .next t ∧ t.flt.mgmtUp = true ∧ s.onlyChanges t recordParts ∧
    s.regsKeptBut t recordKeys) ∧
  (∃ t, exec .perstN s = .next t ∧ t.flt.mgmtUp = false ∧ t.sec.ide = [] ∧ t.rd Reg.SEC_IDE_STREAMS = 0 ∧
    t.rd Reg.SEC_TDISP_STATE = tdUNLOCKED ∧ s.onlyChanges t [.regs, .sec, .flt] ∧
    s.regsKeptBut t [Reg.SEC_IDE_STREAMS.key 0 0, Reg.SEC_TDISP_STATE.key 0 0])

/-- R410, R411, R443–R445, faults that take the switch down and faults that protection corrects. A disagreement of duplicated logic in XH or MH,
a canary that fails and an uncorrectable word of a control SRAM are device-fatal, latching the cause that R445 numbers and its detail and
making a DEVICE_FATAL record; corrected words are counted, and so are corrected symbols of a stack, with the stack charged; an uncorrectable
granule found by the patrol makes a MEM_UE record and is read as bad from then on; the sentinel's finds in a table make that entry match
nothing. A check that finds nothing changes nothing. -/
def Obligations.FaultsFollowTheirProtection : Prop := ∀ s : State,
  (∀ d, d = dieXH ∨ d = dieMH → s.fatal = false → s.red.insts = [] → ∃ t, exec (.hubLogicMismatch d) s = .next t ∧
    t.rd Reg.FLT_FATAL_CAUSE = 3 ∧ t.rd Reg.FLT_FATAL_DETAIL = d ∧ t.fatal = true ∧ t.flt.fatalAt = s.hclk ∧
    t.rd Reg.FLT_PEND_FATAL = 1 ∧ s.onlyChanges t recordParts) ∧
  (∀ k, k < 8 → exec (.canaryCheck k true) s = .next s) ∧
  (∀ k, k < 8 → s.fatal = false → s.red.insts = [] → ∃ t, exec (.canaryCheck k false) s = .next t ∧
    t.rd Reg.FLT_FATAL_CAUSE = 4 ∧ t.rd Reg.FLT_FATAL_DETAIL = k ∧ t.fatal = true ∧ t.rd Reg.FLT_PEND_FATAL = 1 ∧
    s.onlyChanges t recordParts) ∧
  (exec (.sramRefresh .good) s = .next s) ∧
  (∀ n, ∃ t, exec (.sramRefresh (.corrected n)) s = .next t ∧
    t.rd Reg.FLT_CNT_CE_SRAM = min (s.rd Reg.FLT_CNT_CE_SRAM + n) (2 ^ Reg.FLT_CNT_CE_SRAM.width - 1) ∧
    s.onlyChanges t [.regs] ∧ s.regsKeptBut t [Reg.FLT_CNT_CE_SRAM.key 0 0]) ∧
  (s.fatal = false → s.red.insts = [] → ∃ t, exec (.sramRefresh .uncorrectable) s = .next t ∧ t.rd Reg.FLT_FATAL_CAUSE = 2 ∧
    t.fatal = true ∧ s.onlyChanges t recordParts) ∧
  (∀ a n, stackOf a < 8 → ∃ t, exec (.stackPatrol a (.corrected n)) s = .next t ∧
    t.rd Reg.FLT_CNT_CE_STACK = min (s.rd Reg.FLT_CNT_CE_STACK + n) (2 ^ Reg.FLT_CNT_CE_STACK.width - 1) ∧
    s.onlyChanges t recordParts ∧ s.regsKeptBut t (Reg.FLT_CNT_CE_STACK.key 0 0 :: scoreKeys)) ∧
  (∀ a, stackOf a < 8 → ∃ t, exec (.stackPatrol a .uncorrectable) s = .next t ∧ t.badKey (granKey tierNEAR a) = true ∧
    t.rd Reg.FLT_CNT_UE_STACK = min (s.rd Reg.FLT_CNT_UE_STACK + 1) (2 ^ Reg.FLT_CNT_UE_STACK.width - 1) ∧
    s.onlyChanges t recordParts ∧ s.regsKeptBut t (Reg.FLT_CNT_UE_STACK.key 0 0 :: scoreKeys)) ∧
  (∀ site, exec (.sentinelCheck site .good) s = .next s) ∧
  (∀ b e, b < 2 → e < 4096 → ∃ t, exec (.sentinelCheck (.route b e) .uncorrectable) s = .next t ∧
    b * 2 ^ 16 + e ∈ t.flt.badEntries ∧ t.rd Reg.FLT_CNT_UE_SRAM = min (s.rd Reg.FLT_CNT_UE_SRAM + 1) (2 ^ Reg.FLT_CNT_UE_SRAM.width - 1) ∧
    s.onlyChanges t recordParts ∧ s.regsKeptBut t (Reg.FLT_CNT_UE_SRAM.key 0 0 :: scoreKeys)) ∧
  (∀ ph n, ph < 136 → ∃ t, exec (.sentinelCheck (.cluster ph) (.corrected n)) s = .next t ∧
    t.rd Reg.FLT_CNT_CE_SRAM = min (s.rd Reg.FLT_CNT_CE_SRAM + n) (2 ^ Reg.FLT_CNT_CE_SRAM.width - 1) ∧
    s.onlyChanges t recordParts ∧ s.regsKeptBut t (Reg.FLT_CNT_CE_SRAM.key 0 0 :: scoreKeys))

/-- R217, R446–R449, clusters. An uncorrectable word of a cluster that runs nothing, not its fen's last, makes a CLUSTER_FAULT record and
withdraws the physical cluster for a test run; a chunk that has made no progress for `FLT_CHUNK_WD` is counted and leaves its cluster. A
test run that passes in 64 µs was a transient, counted; the cluster serves again. One that fails gives the die's spare its self-test; the
spare that passes takes the logical number, and the failing cluster is mapped out. MAP_CLEAR in bring-up leaves every cluster but the
failing ones in service; once an image runs it is refused. -/
def Obligations.ClustersAreTestedSparedAndLost : Prop := ∀ s : State,
  (∀ cl, cl < 128 → s.fatal = false → s.clusterUp cl = true → Tab.find? s.cmd.running cl = none → s.lastOfFen cl = false →
    ∃ t, exec (.clusterFault cl 1) s = .next t ∧
      Tab.find? t.flt.tests (s.physOf cl) = some { cause := 1, cid := s.cmd.nextCid, start := s.hclk } ∧ t.clusterUp cl = false ∧
      t.rd Reg.FLT_CNT_UE_SRAM = min (s.rd Reg.FLT_CNT_UE_SRAM + 1) (2 ^ Reg.FLT_CNT_UE_SRAM.width - 1) ∧
      s.onlyChanges t recordParts ∧ s.regsKeptBut t (Reg.FLT_CNT_UE_SRAM.key 0 0 :: recordKeys)) ∧
  (∀ cl cid k c x, s.fatal = false → Tab.find? s.cmd.running cl = some (cid, k) → s.cmdOf cid = some c → Tab.find? c.chunks k = some x →
    (s.sinceUs (max x.progress x.dispatchedAt) < s.rd Reg.FLT_CHUNK_WD_US → exec (.chunkWatchdog cl) s = .next s)) ∧
  (∀ cl cid k c x, cl < 128 → s.fatal = false → s.cmd.running = [(cl, (cid, k))] → s.cmd.cmds = [(cid, c)] → c.chunks = [(k, x)] →
    x.phase = .running → x.fails = 0 → s.lastOfFen cl = false → s.rd Reg.FLT_CHUNK_WD_US ≤ s.sinceUs (max x.progress x.dispatchedAt) →
    ∃ t, exec (.chunkWatchdog cl) s = .next t ∧ t.cmd.running = [] ∧ Tab.has t.flt.tests (s.physOf cl) = true ∧
      t.rd Reg.FLT_CNT_CHUNK_WD = min (s.rd Reg.FLT_CNT_CHUNK_WD + 1) (2 ^ Reg.FLT_CNT_CHUNK_WD.width - 1)) ∧
  (∀ ph x, Tab.find? s.flt.tests ph = some x → s.sinceUs x.start ≤ testLimitUs →
    ∃ t, exec (.clusterTestDone ph true) s = .next t ∧ Tab.find? t.flt.tests ph = none ∧
      t.rd Reg.FLT_CNT_TRANSIENT = min (s.rd Reg.FLT_CNT_TRANSIENT + 1) (2 ^ Reg.FLT_CNT_TRANSIENT.width - 1) ∧
      s.onlyChanges t recordParts ∧ s.regsKeptBut t (Reg.FLT_CNT_TRANSIENT.key 0 0 :: scoreKeys)) ∧
  (∀ ph c, Tab.has s.flt.tests ph = true → s.logicalOf ph = some c → s.cmd.running = [] → ph % 17 ≠ 16 →
    Tab.has s.flt.spareFor (ph / 17) = false → Tab.has s.flt.spareBist (ph / 17) = false →
    bit (s.rd Reg.FLT_CLUS_OUT_PHYS (ph / 17)) 16 = false →
    ∃ t, exec (.clusterTestDone ph false) s = .next t ∧ Tab.find? t.flt.tests ph = none ∧
      Tab.find? t.flt.spareBist (ph / 17) = some c ∧ s.onlyChanges t [.flt]) ∧
  (∀ d c, d < 8 → Tab.find? s.flt.spareBist d = some c → c / 16 = d → ∃ t, exec (.spareBistDone d true) s = .next t ∧
    Tab.find? t.flt.spareBist d = none ∧ Tab.find? t.flt.spareFor d = some c ∧ t.physOf c = 17 * d + 16 ∧
    bit (t.rd Reg.GLB_DIE_CD_SPARE) d = true ∧ bit (t.rd Reg.FLT_CLUS_OUT_PHYS d) (s.physOf c % 17) = true ∧
    s.onlyChanges t recordParts) ∧
  (∀ a, s.admitsWrite a 0x400C0 → s.inBringUp = true → ∃ t, exec (.mapClear a []) s = .next t ∧
    (∀ d, d < 8 → t.rd Reg.FLT_CLUS_OUT_PHYS d = 0) ∧ (∀ i, i < 4 → t.rd Reg.FLT_CLUS_LOST_MASK i = 0 ∧ t.rd Reg.FLT_CLUS_LAST_MASK i = 0) ∧
    t.rd Reg.GLB_DIE_CD_SPARE = 0 ∧ t.flt.spareFor = [] ∧ t.flt.tests = [] ∧ s.onlyChanges t [.regs, .flt]) ∧
  (∀ a failing, s.admitsWrite a 0x400C0 → s.inBringUp = false → ∃ t, exec (.mapClear a failing) s = .next t ∧
    s.onlyChanges t recordParts ∧ s.regsKeptBut t recordKeys)

/-- R450–R452, R456–R458, R461, R462, scores and records. A tick brings each score down by its decay, of at least one unit, and takes up the
class configuration; with no score above its threshold it makes no record. The flash copy takes the scores; READ shows a part's, CLEAR
zeroes it, and an index that names no part is RANGE. A run whose interval has ended with repeats gives one repeat record; one without ends
in silence. The interval of unsignalled records ends in one interrupt. -/
def Obligations.ScoresAndRecordsKeepTheirRules : Prop := ∀ s : State,
  (∀ cls inst sc, 0 < cls → cls < 8 → inst < 256 → s.flt.scores = [(cls * 256 + inst, sc)] → sc.suspect = false →
    (sc.s - max 1 (sc.s / 2 ^ s.rd Reg.FLT_SCLS_CFG_DECAY cls)) / 256 < s.rd Reg.FLT_SCLS_CFG_THR cls →
    ∃ t, exec .scoreTick s = .next t ∧
      (t.score cls inst).s = (if sc.s = 0 then 0 else sc.s - max 1 (sc.s / 2 ^ s.rd Reg.FLT_SCLS_CFG_DECAY cls)) ∧
      (t.score cls inst).suspect = false ∧ t.classCfg cls = (s.rd Reg.FLT_SCLS_CFG_THR cls, s.rd Reg.FLT_SCLS_CFG_DECAY cls) ∧
      s.onlyChanges t [.flt]) ∧
  (∃ t, exec .scorePersist s = .next t ∧ t.flt = { s.flt with flashScores := s.flt.scores } ∧ s.onlyChanges t [.flt]) ∧
  (∀ a, s.admitsWrite a 0x40104 → s.noPart = false → ∃ t, exec (.scoreRead a) s = .next t ∧ t.rd Reg.FLT_SCORE_STATUS_STATUS = stOK ∧
    t.rd Reg.FLT_SCORE_DATA0_S = (s.score (s.rd Reg.FLT_SCORE_INDEX_CLASS) (s.rd Reg.FLT_SCORE_INDEX_INSTANCE)).s % 2 ^ Reg.FLT_SCORE_DATA0_S.width ∧
    t.rd Reg.FLT_SCORE_DATA1_SUSPECT = b2n (s.score (s.rd Reg.FLT_SCORE_INDEX_CLASS) (s.rd Reg.FLT_SCORE_INDEX_INSTANCE)).suspect ∧
    t.rd Reg.FLT_SCORE_STATUS_DONE = 1 ∧ s.onlyChanges t [.regs]) ∧
  (∀ a, s.admitsWrite a 0x40104 → s.noPart = true → (∃ t, exec (.scoreRead a) s = .next t ∧ t.rd Reg.FLT_SCORE_STATUS_STATUS = stRANGE ∧
      s.onlyChanges t [.regs]) ∧
    (∃ t, exec (.scoreClear a) s = .next t ∧ t.rd Reg.FLT_SCORE_STATUS_STATUS = stRANGE ∧ t.flt.scores = s.flt.scores ∧
      s.onlyChanges t [.regs])) ∧
  (∀ a, s.admitsWrite a 0x40104 → s.noPart = false → ∃ t, exec (.scoreClear a) s = .next t ∧ t.rd Reg.FLT_SCORE_STATUS_STATUS = stOK ∧
    (t.score (s.rd Reg.FLT_SCORE_INDEX_CLASS) (s.rd Reg.FLT_SCORE_INDEX_INSTANCE)).s = 0 ∧
    (t.score (s.rd Reg.FLT_SCORE_INDEX_CLASS) (s.rd Reg.FLT_SCORE_INDEX_INSTANCE)).events = 0 ∧ s.onlyChanges t recordParts) ∧
  (∀ k, s.flt.runs = [k] → k.repeats = 0 → k.start + usToHclk (s.rd Reg.FLT_COALESCE_US) ≤ s.hclk →
    ∃ t, exec .coalesceFlush s = .next t ∧ t.flt = { s.flt with runs := [] } ∧ s.onlyChanges t [.flt]) ∧
  (∀ k, s.flt.runs = [k] → 0 < k.repeats → k.start + usToHclk (s.rd Reg.FLT_COALESCE_US) ≤ s.hclk →
    ∃ t, exec .coalesceFlush s = .next t ∧ t.flt.runs = [] ∧ s.onlyChanges t recordParts ∧ s.regsKeptBut t recordKeys ∧
      ∃ e ∈ t.flt.log, e.isRepeat = true ∧ e.count = k.repeats ∧ e.params = k.last ∧ e.code = k.first.code) ∧
  (∀ t0, s.flt.unsignalled = some t0 → t0 + usToHclk (s.rd Reg.FLT_EQ_CTL_MOD_US) ≤ s.hclk → ∃ t, exec .eqModeration s = .next t ∧
    t.flt = { s.flt with unsignalled := none } ∧ t.out = s.out ++ [.msix (s.rd Reg.FLT_EQ_VEC_VECTOR)] ∧
    s.onlyChanges t [.flt, .out]) ∧
  (∀ t0, s.flt.unsignalled = some t0 → s.hclk < t0 + usToHclk (s.rd Reg.FLT_EQ_CTL_MOD_US) → exec .eqModeration s = .next s)
end

