-- ==== Sys2Proof/Laws/State.lean ====
section
/-!
SUPPORT. What each primitive update of the state leaves alone: one lemma per field per update, each true by computation.
-/
namespace Sys2Proof.Machine

/-! `State.wr` -/
@[simp] theorem State.wr_pending (s : State) (f : Fld) (v i j : Nat) : (s.wr f v i j).pending = s.pending := rfl
@[simp] theorem State.wr_latches (s : State) (f : Fld) (v i j : Nat) : (s.wr f v i j).latches = s.latches := rfl
@[simp] theorem State.wr_hclk (s : State) (f : Fld) (v i j : Nat) : (s.wr f v i j).hclk = s.hclk := rfl
@[simp] theorem State.wr_tabor (s : State) (f : Fld) (v i j : Nat) : (s.wr f v i j).tabor = s.tabor := rfl
@[simp] theorem State.wr_nextFree (s : State) (f : Fld) (v i j : Nat) : (s.wr f v i j).nextFree = s.nextFree := rfl
@[simp] theorem State.wr_out (s : State) (f : Fld) (v i j : Nat) : (s.wr f v i j).out = s.out := rfl
@[simp] theorem State.wr_near (s : State) (f : Fld) (v i j : Nat) : (s.wr f v i j).near = s.near := rfl
@[simp] theorem State.wr_tray (s : State) (f : Fld) (v i j : Nat) : (s.wr f v i j).tray = s.tray := rfl
@[simp] theorem State.wr_host (s : State) (f : Fld) (v i j : Nat) : (s.wr f v i j).host = s.host := rfl
@[simp] theorem State.wr_img (s : State) (f : Fld) (v i j : Nat) : (s.wr f v i j).img = s.img := rfl
@[simp] theorem State.wr_cfg (s : State) (f : Fld) (v i j : Nat) : (s.wr f v i j).cfg = s.cfg := rfl
@[simp] theorem State.wr_meters (s : State) (f : Fld) (v i j : Nat) : (s.wr f v i j).meters = s.meters := rfl
@[simp] theorem State.wr_flt (s : State) (f : Fld) (v i j : Nat) : (s.wr f v i j).flt = s.flt := rfl
@[simp] theorem State.wr_pool (s : State) (f : Fld) (v i j : Nat) : (s.wr f v i j).pool = s.pool := rfl
@[simp] theorem State.wr_fab (s : State) (f : Fld) (v i j : Nat) : (s.wr f v i j).fab = s.fab := rfl
@[simp] theorem State.wr_cmd (s : State) (f : Fld) (v i j : Nat) : (s.wr f v i j).cmd = s.cmd := rfl
@[simp] theorem State.wr_xbr (s : State) (f : Fld) (v i j : Nat) : (s.wr f v i j).xbr = s.xbr := rfl
@[simp] theorem State.wr_shp (s : State) (f : Fld) (v i j : Nat) : (s.wr f v i j).shp = s.shp := rfl
@[simp] theorem State.wr_red (s : State) (f : Fld) (v i j : Nat) : (s.wr f v i j).red = s.red := rfl
@[simp] theorem State.wr_att (s : State) (f : Fld) (v i j : Nat) : (s.wr f v i j).att = s.att := rfl
@[simp] theorem State.wr_sqt (s : State) (f : Fld) (v i j : Nat) : (s.wr f v i j).sqt = s.sqt := rfl
@[simp] theorem State.wr_ckp (s : State) (f : Fld) (v i j : Nat) : (s.wr f v i j).ckp = s.ckp := rfl
@[simp] theorem State.wr_coh (s : State) (f : Fld) (v i j : Nat) : (s.wr f v i j).coh = s.coh := rfl
@[simp] theorem State.wr_sec (s : State) (f : Fld) (v i j : Nat) : (s.wr f v i j).sec = s.sec := rfl
@[simp] theorem State.wr_car (s : State) (f : Fld) (v i j : Nat) : (s.wr f v i j).car = s.car := rfl
@[simp] theorem State.wr_pins (s : State) (f : Fld) (v i j : Nat) : (s.wr f v i j).pins = s.pins := rfl

/-! `State.wrb` -/
@[simp] theorem State.wrb_pending (s : State) (f : Fld) (b : Bool) (i j : Nat) : (s.wrb f b i j).pending = s.pending := rfl
@[simp] theorem State.wrb_latches (s : State) (f : Fld) (b : Bool) (i j : Nat) : (s.wrb f b i j).latches = s.latches := rfl
@[simp] theorem State.wrb_hclk (s : State) (f : Fld) (b : Bool) (i j : Nat) : (s.wrb f b i j).hclk = s.hclk := rfl
@[simp] theorem State.wrb_tabor (s : State) (f : Fld) (b : Bool) (i j : Nat) : (s.wrb f b i j).tabor = s.tabor := rfl
@[simp] theorem State.wrb_nextFree (s : State) (f : Fld) (b : Bool) (i j : Nat) : (s.wrb f b i j).nextFree = s.nextFree := rfl
@[simp] theorem State.wrb_out (s : State) (f : Fld) (b : Bool) (i j : Nat) : (s.wrb f b i j).out = s.out := rfl
@[simp] theorem State.wrb_near (s : State) (f : Fld) (b : Bool) (i j : Nat) : (s.wrb f b i j).near = s.near := rfl
@[simp] theorem State.wrb_tray (s : State) (f : Fld) (b : Bool) (i j : Nat) : (s.wrb f b i j).tray = s.tray := rfl
@[simp] theorem State.wrb_host (s : State) (f : Fld) (b : Bool) (i j : Nat) : (s.wrb f b i j).host = s.host := rfl
@[simp] theorem State.wrb_img (s : State) (f : Fld) (b : Bool) (i j : Nat) : (s.wrb f b i j).img = s.img := rfl
@[simp] theorem State.wrb_cfg (s : State) (f : Fld) (b : Bool) (i j : Nat) : (s.wrb f b i j).cfg = s.cfg := rfl
@[simp] theorem State.wrb_meters (s : State) (f : Fld) (b : Bool) (i j : Nat) : (s.wrb f b i j).meters = s.meters := rfl
@[simp] theorem State.wrb_flt (s : State) (f : Fld) (b : Bool) (i j : Nat) : (s.wrb f b i j).flt = s.flt := rfl
@[simp] theorem State.wrb_pool (s : State) (f : Fld) (b : Bool) (i j : Nat) : (s.wrb f b i j).pool = s.pool := rfl
@[simp] theorem State.wrb_fab (s : State) (f : Fld) (b : Bool) (i j : Nat) : (s.wrb f b i j).fab = s.fab := rfl
@[simp] theorem State.wrb_cmd (s : State) (f : Fld) (b : Bool) (i j : Nat) : (s.wrb f b i j).cmd = s.cmd := rfl
@[simp] theorem State.wrb_xbr (s : State) (f : Fld) (b : Bool) (i j : Nat) : (s.wrb f b i j).xbr = s.xbr := rfl
@[simp] theorem State.wrb_shp (s : State) (f : Fld) (b : Bool) (i j : Nat) : (s.wrb f b i j).shp = s.shp := rfl
@[simp] theorem State.wrb_red (s : State) (f : Fld) (b : Bool) (i j : Nat) : (s.wrb f b i j).red = s.red := rfl
@[simp] theorem State.wrb_att (s : State) (f : Fld) (b : Bool) (i j : Nat) : (s.wrb f b i j).att = s.att := rfl
@[simp] theorem State.wrb_sqt (s : State) (f : Fld) (b : Bool) (i j : Nat) : (s.wrb f b i j).sqt = s.sqt := rfl
@[simp] theorem State.wrb_ckp (s : State) (f : Fld) (b : Bool) (i j : Nat) : (s.wrb f b i j).ckp = s.ckp := rfl
@[simp] theorem State.wrb_coh (s : State) (f : Fld) (b : Bool) (i j : Nat) : (s.wrb f b i j).coh = s.coh := rfl
@[simp] theorem State.wrb_sec (s : State) (f : Fld) (b : Bool) (i j : Nat) : (s.wrb f b i j).sec = s.sec := rfl
@[simp] theorem State.wrb_car (s : State) (f : Fld) (b : Bool) (i j : Nat) : (s.wrb f b i j).car = s.car := rfl
@[simp] theorem State.wrb_pins (s : State) (f : Fld) (b : Bool) (i j : Nat) : (s.wrb f b i j).pins = s.pins := rfl

/-! `State.bump` -/
@[simp] theorem State.bump_pending (s : State) (f : Fld) (i j n : Nat) : (s.bump f i j n).pending = s.pending := rfl
@[simp] theorem State.bump_latches (s : State) (f : Fld) (i j n : Nat) : (s.bump f i j n).latches = s.latches := rfl
@[simp] theorem State.bump_hclk (s : State) (f : Fld) (i j n : Nat) : (s.bump f i j n).hclk = s.hclk := rfl
@[simp] theorem State.bump_tabor (s : State) (f : Fld) (i j n : Nat) : (s.bump f i j n).tabor = s.tabor := rfl
@[simp] theorem State.bump_nextFree (s : State) (f : Fld) (i j n : Nat) : (s.bump f i j n).nextFree = s.nextFree := rfl
@[simp] theorem State.bump_out (s : State) (f : Fld) (i j n : Nat) : (s.bump f i j n).out = s.out := rfl
@[simp] theorem State.bump_near (s : State) (f : Fld) (i j n : Nat) : (s.bump f i j n).near = s.near := rfl
@[simp] theorem State.bump_tray (s : State) (f : Fld) (i j n : Nat) : (s.bump f i j n).tray = s.tray := rfl
@[simp] theorem State.bump_host (s : State) (f : Fld) (i j n : Nat) : (s.bump f i j n).host = s.host := rfl
@[simp] theorem State.bump_img (s : State) (f : Fld) (i j n : Nat) : (s.bump f i j n).img = s.img := rfl
@[simp] theorem State.bump_cfg (s : State) (f : Fld) (i j n : Nat) : (s.bump f i j n).cfg = s.cfg := rfl
@[simp] theorem State.bump_meters (s : State) (f : Fld) (i j n : Nat) : (s.bump f i j n).meters = s.meters := rfl
@[simp] theorem State.bump_flt (s : State) (f : Fld) (i j n : Nat) : (s.bump f i j n).flt = s.flt := rfl
@[simp] theorem State.bump_pool (s : State) (f : Fld) (i j n : Nat) : (s.bump f i j n).pool = s.pool := rfl
@[simp] theorem State.bump_fab (s : State) (f : Fld) (i j n : Nat) : (s.bump f i j n).fab = s.fab := rfl
@[simp] theorem State.bump_cmd (s : State) (f : Fld) (i j n : Nat) : (s.bump f i j n).cmd = s.cmd := rfl
@[simp] theorem State.bump_xbr (s : State) (f : Fld) (i j n : Nat) : (s.bump f i j n).xbr = s.xbr := rfl
@[simp] theorem State.bump_shp (s : State) (f : Fld) (i j n : Nat) : (s.bump f i j n).shp = s.shp := rfl
@[simp] theorem State.bump_red (s : State) (f : Fld) (i j n : Nat) : (s.bump f i j n).red = s.red := rfl
@[simp] theorem State.bump_att (s : State) (f : Fld) (i j n : Nat) : (s.bump f i j n).att = s.att := rfl
@[simp] theorem State.bump_sqt (s : State) (f : Fld) (i j n : Nat) : (s.bump f i j n).sqt = s.sqt := rfl
@[simp] theorem State.bump_ckp (s : State) (f : Fld) (i j n : Nat) : (s.bump f i j n).ckp = s.ckp := rfl
@[simp] theorem State.bump_coh (s : State) (f : Fld) (i j n : Nat) : (s.bump f i j n).coh = s.coh := rfl
@[simp] theorem State.bump_sec (s : State) (f : Fld) (i j n : Nat) : (s.bump f i j n).sec = s.sec := rfl
@[simp] theorem State.bump_car (s : State) (f : Fld) (i j n : Nat) : (s.bump f i j n).car = s.car := rfl
@[simp] theorem State.bump_pins (s : State) (f : Fld) (i j n : Nat) : (s.bump f i j n).pins = s.pins := rfl

/-! `State.inc` -/
@[simp] theorem State.inc_pending (s : State) (f : Fld) (n i j : Nat) : (s.inc f n i j).pending = s.pending := rfl
@[simp] theorem State.inc_latches (s : State) (f : Fld) (n i j : Nat) : (s.inc f n i j).latches = s.latches := rfl
@[simp] theorem State.inc_hclk (s : State) (f : Fld) (n i j : Nat) : (s.inc f n i j).hclk = s.hclk := rfl
@[simp] theorem State.inc_tabor (s : State) (f : Fld) (n i j : Nat) : (s.inc f n i j).tabor = s.tabor := rfl
@[simp] theorem State.inc_nextFree (s : State) (f : Fld) (n i j : Nat) : (s.inc f n i j).nextFree = s.nextFree := rfl
@[simp] theorem State.inc_out (s : State) (f : Fld) (n i j : Nat) : (s.inc f n i j).out = s.out := rfl
@[simp] theorem State.inc_near (s : State) (f : Fld) (n i j : Nat) : (s.inc f n i j).near = s.near := rfl
@[simp] theorem State.inc_tray (s : State) (f : Fld) (n i j : Nat) : (s.inc f n i j).tray = s.tray := rfl
@[simp] theorem State.inc_host (s : State) (f : Fld) (n i j : Nat) : (s.inc f n i j).host = s.host := rfl
@[simp] theorem State.inc_img (s : State) (f : Fld) (n i j : Nat) : (s.inc f n i j).img = s.img := rfl
@[simp] theorem State.inc_cfg (s : State) (f : Fld) (n i j : Nat) : (s.inc f n i j).cfg = s.cfg := rfl
@[simp] theorem State.inc_meters (s : State) (f : Fld) (n i j : Nat) : (s.inc f n i j).meters = s.meters := rfl
@[simp] theorem State.inc_flt (s : State) (f : Fld) (n i j : Nat) : (s.inc f n i j).flt = s.flt := rfl
@[simp] theorem State.inc_pool (s : State) (f : Fld) (n i j : Nat) : (s.inc f n i j).pool = s.pool := rfl
@[simp] theorem State.inc_fab (s : State) (f : Fld) (n i j : Nat) : (s.inc f n i j).fab = s.fab := rfl
@[simp] theorem State.inc_cmd (s : State) (f : Fld) (n i j : Nat) : (s.inc f n i j).cmd = s.cmd := rfl
@[simp] theorem State.inc_xbr (s : State) (f : Fld) (n i j : Nat) : (s.inc f n i j).xbr = s.xbr := rfl
@[simp] theorem State.inc_shp (s : State) (f : Fld) (n i j : Nat) : (s.inc f n i j).shp = s.shp := rfl
@[simp] theorem State.inc_red (s : State) (f : Fld) (n i j : Nat) : (s.inc f n i j).red = s.red := rfl
@[simp] theorem State.inc_att (s : State) (f : Fld) (n i j : Nat) : (s.inc f n i j).att = s.att := rfl
@[simp] theorem State.inc_sqt (s : State) (f : Fld) (n i j : Nat) : (s.inc f n i j).sqt = s.sqt := rfl
@[simp] theorem State.inc_ckp (s : State) (f : Fld) (n i j : Nat) : (s.inc f n i j).ckp = s.ckp := rfl
@[simp] theorem State.inc_coh (s : State) (f : Fld) (n i j : Nat) : (s.inc f n i j).coh = s.coh := rfl
@[simp] theorem State.inc_sec (s : State) (f : Fld) (n i j : Nat) : (s.inc f n i j).sec = s.sec := rfl
@[simp] theorem State.inc_car (s : State) (f : Fld) (n i j : Nat) : (s.inc f n i j).car = s.car := rfl
@[simp] theorem State.inc_pins (s : State) (f : Fld) (n i j : Nat) : (s.inc f n i j).pins = s.pins := rfl

/-! `State.dec` -/
@[simp] theorem State.dec_pending (s : State) (f : Fld) (n i j : Nat) : (s.dec f n i j).pending = s.pending := rfl
@[simp] theorem State.dec_latches (s : State) (f : Fld) (n i j : Nat) : (s.dec f n i j).latches = s.latches := rfl
@[simp] theorem State.dec_hclk (s : State) (f : Fld) (n i j : Nat) : (s.dec f n i j).hclk = s.hclk := rfl
@[simp] theorem State.dec_tabor (s : State) (f : Fld) (n i j : Nat) : (s.dec f n i j).tabor = s.tabor := rfl
@[simp] theorem State.dec_nextFree (s : State) (f : Fld) (n i j : Nat) : (s.dec f n i j).nextFree = s.nextFree := rfl
@[simp] theorem State.dec_out (s : State) (f : Fld) (n i j : Nat) : (s.dec f n i j).out = s.out := rfl
@[simp] theorem State.dec_near (s : State) (f : Fld) (n i j : Nat) : (s.dec f n i j).near = s.near := rfl
@[simp] theorem State.dec_tray (s : State) (f : Fld) (n i j : Nat) : (s.dec f n i j).tray = s.tray := rfl
@[simp] theorem State.dec_host (s : State) (f : Fld) (n i j : Nat) : (s.dec f n i j).host = s.host := rfl
@[simp] theorem State.dec_img (s : State) (f : Fld) (n i j : Nat) : (s.dec f n i j).img = s.img := rfl
@[simp] theorem State.dec_cfg (s : State) (f : Fld) (n i j : Nat) : (s.dec f n i j).cfg = s.cfg := rfl
@[simp] theorem State.dec_meters (s : State) (f : Fld) (n i j : Nat) : (s.dec f n i j).meters = s.meters := rfl
@[simp] theorem State.dec_flt (s : State) (f : Fld) (n i j : Nat) : (s.dec f n i j).flt = s.flt := rfl
@[simp] theorem State.dec_pool (s : State) (f : Fld) (n i j : Nat) : (s.dec f n i j).pool = s.pool := rfl
@[simp] theorem State.dec_fab (s : State) (f : Fld) (n i j : Nat) : (s.dec f n i j).fab = s.fab := rfl
@[simp] theorem State.dec_cmd (s : State) (f : Fld) (n i j : Nat) : (s.dec f n i j).cmd = s.cmd := rfl
@[simp] theorem State.dec_xbr (s : State) (f : Fld) (n i j : Nat) : (s.dec f n i j).xbr = s.xbr := rfl
@[simp] theorem State.dec_shp (s : State) (f : Fld) (n i j : Nat) : (s.dec f n i j).shp = s.shp := rfl
@[simp] theorem State.dec_red (s : State) (f : Fld) (n i j : Nat) : (s.dec f n i j).red = s.red := rfl
@[simp] theorem State.dec_att (s : State) (f : Fld) (n i j : Nat) : (s.dec f n i j).att = s.att := rfl
@[simp] theorem State.dec_sqt (s : State) (f : Fld) (n i j : Nat) : (s.dec f n i j).sqt = s.sqt := rfl
@[simp] theorem State.dec_ckp (s : State) (f : Fld) (n i j : Nat) : (s.dec f n i j).ckp = s.ckp := rfl
@[simp] theorem State.dec_coh (s : State) (f : Fld) (n i j : Nat) : (s.dec f n i j).coh = s.coh := rfl
@[simp] theorem State.dec_sec (s : State) (f : Fld) (n i j : Nat) : (s.dec f n i j).sec = s.sec := rfl
@[simp] theorem State.dec_car (s : State) (f : Fld) (n i j : Nat) : (s.dec f n i j).car = s.car := rfl
@[simp] theorem State.dec_pins (s : State) (f : Fld) (n i j : Nat) : (s.dec f n i j).pins = s.pins := rfl

/-! `State.wr64` -/
@[simp] theorem State.wr64_pending (s : State) (lo hi : Fld) (v i j : Nat) : (s.wr64 lo hi v i j).pending = s.pending := rfl
@[simp] theorem State.wr64_latches (s : State) (lo hi : Fld) (v i j : Nat) : (s.wr64 lo hi v i j).latches = s.latches := rfl
@[simp] theorem State.wr64_hclk (s : State) (lo hi : Fld) (v i j : Nat) : (s.wr64 lo hi v i j).hclk = s.hclk := rfl
@[simp] theorem State.wr64_tabor (s : State) (lo hi : Fld) (v i j : Nat) : (s.wr64 lo hi v i j).tabor = s.tabor := rfl
@[simp] theorem State.wr64_nextFree (s : State) (lo hi : Fld) (v i j : Nat) : (s.wr64 lo hi v i j).nextFree = s.nextFree := rfl
@[simp] theorem State.wr64_out (s : State) (lo hi : Fld) (v i j : Nat) : (s.wr64 lo hi v i j).out = s.out := rfl
@[simp] theorem State.wr64_near (s : State) (lo hi : Fld) (v i j : Nat) : (s.wr64 lo hi v i j).near = s.near := rfl
@[simp] theorem State.wr64_tray (s : State) (lo hi : Fld) (v i j : Nat) : (s.wr64 lo hi v i j).tray = s.tray := rfl
@[simp] theorem State.wr64_host (s : State) (lo hi : Fld) (v i j : Nat) : (s.wr64 lo hi v i j).host = s.host := rfl
@[simp] theorem State.wr64_img (s : State) (lo hi : Fld) (v i j : Nat) : (s.wr64 lo hi v i j).img = s.img := rfl
@[simp] theorem State.wr64_cfg (s : State) (lo hi : Fld) (v i j : Nat) : (s.wr64 lo hi v i j).cfg = s.cfg := rfl
@[simp] theorem State.wr64_meters (s : State) (lo hi : Fld) (v i j : Nat) : (s.wr64 lo hi v i j).meters = s.meters := rfl
@[simp] theorem State.wr64_flt (s : State) (lo hi : Fld) (v i j : Nat) : (s.wr64 lo hi v i j).flt = s.flt := rfl
@[simp] theorem State.wr64_pool (s : State) (lo hi : Fld) (v i j : Nat) : (s.wr64 lo hi v i j).pool = s.pool := rfl
@[simp] theorem State.wr64_fab (s : State) (lo hi : Fld) (v i j : Nat) : (s.wr64 lo hi v i j).fab = s.fab := rfl
@[simp] theorem State.wr64_cmd (s : State) (lo hi : Fld) (v i j : Nat) : (s.wr64 lo hi v i j).cmd = s.cmd := rfl
@[simp] theorem State.wr64_xbr (s : State) (lo hi : Fld) (v i j : Nat) : (s.wr64 lo hi v i j).xbr = s.xbr := rfl
@[simp] theorem State.wr64_shp (s : State) (lo hi : Fld) (v i j : Nat) : (s.wr64 lo hi v i j).shp = s.shp := rfl
@[simp] theorem State.wr64_red (s : State) (lo hi : Fld) (v i j : Nat) : (s.wr64 lo hi v i j).red = s.red := rfl
@[simp] theorem State.wr64_att (s : State) (lo hi : Fld) (v i j : Nat) : (s.wr64 lo hi v i j).att = s.att := rfl
@[simp] theorem State.wr64_sqt (s : State) (lo hi : Fld) (v i j : Nat) : (s.wr64 lo hi v i j).sqt = s.sqt := rfl
@[simp] theorem State.wr64_ckp (s : State) (lo hi : Fld) (v i j : Nat) : (s.wr64 lo hi v i j).ckp = s.ckp := rfl
@[simp] theorem State.wr64_coh (s : State) (lo hi : Fld) (v i j : Nat) : (s.wr64 lo hi v i j).coh = s.coh := rfl
@[simp] theorem State.wr64_sec (s : State) (lo hi : Fld) (v i j : Nat) : (s.wr64 lo hi v i j).sec = s.sec := rfl
@[simp] theorem State.wr64_car (s : State) (lo hi : Fld) (v i j : Nat) : (s.wr64 lo hi v i j).car = s.car := rfl
@[simp] theorem State.wr64_pins (s : State) (lo hi : Fld) (v i j : Nat) : (s.wr64 lo hi v i j).pins = s.pins := rfl

/-! `State.inc64` -/
@[simp] theorem State.inc64_pending (s : State) (lo hi : Fld) (n i j : Nat) : (s.inc64 lo hi n i j).pending = s.pending := rfl
@[simp] theorem State.inc64_latches (s : State) (lo hi : Fld) (n i j : Nat) : (s.inc64 lo hi n i j).latches = s.latches := rfl
@[simp] theorem State.inc64_hclk (s : State) (lo hi : Fld) (n i j : Nat) : (s.inc64 lo hi n i j).hclk = s.hclk := rfl
@[simp] theorem State.inc64_tabor (s : State) (lo hi : Fld) (n i j : Nat) : (s.inc64 lo hi n i j).tabor = s.tabor := rfl
@[simp] theorem State.inc64_nextFree (s : State) (lo hi : Fld) (n i j : Nat) : (s.inc64 lo hi n i j).nextFree = s.nextFree := rfl
@[simp] theorem State.inc64_out (s : State) (lo hi : Fld) (n i j : Nat) : (s.inc64 lo hi n i j).out = s.out := rfl
@[simp] theorem State.inc64_near (s : State) (lo hi : Fld) (n i j : Nat) : (s.inc64 lo hi n i j).near = s.near := rfl
@[simp] theorem State.inc64_tray (s : State) (lo hi : Fld) (n i j : Nat) : (s.inc64 lo hi n i j).tray = s.tray := rfl
@[simp] theorem State.inc64_host (s : State) (lo hi : Fld) (n i j : Nat) : (s.inc64 lo hi n i j).host = s.host := rfl
@[simp] theorem State.inc64_img (s : State) (lo hi : Fld) (n i j : Nat) : (s.inc64 lo hi n i j).img = s.img := rfl
@[simp] theorem State.inc64_cfg (s : State) (lo hi : Fld) (n i j : Nat) : (s.inc64 lo hi n i j).cfg = s.cfg := rfl
@[simp] theorem State.inc64_meters (s : State) (lo hi : Fld) (n i j : Nat) : (s.inc64 lo hi n i j).meters = s.meters := rfl
@[simp] theorem State.inc64_flt (s : State) (lo hi : Fld) (n i j : Nat) : (s.inc64 lo hi n i j).flt = s.flt := rfl
@[simp] theorem State.inc64_pool (s : State) (lo hi : Fld) (n i j : Nat) : (s.inc64 lo hi n i j).pool = s.pool := rfl
@[simp] theorem State.inc64_fab (s : State) (lo hi : Fld) (n i j : Nat) : (s.inc64 lo hi n i j).fab = s.fab := rfl
@[simp] theorem State.inc64_cmd (s : State) (lo hi : Fld) (n i j : Nat) : (s.inc64 lo hi n i j).cmd = s.cmd := rfl
@[simp] theorem State.inc64_xbr (s : State) (lo hi : Fld) (n i j : Nat) : (s.inc64 lo hi n i j).xbr = s.xbr := rfl
@[simp] theorem State.inc64_shp (s : State) (lo hi : Fld) (n i j : Nat) : (s.inc64 lo hi n i j).shp = s.shp := rfl
@[simp] theorem State.inc64_red (s : State) (lo hi : Fld) (n i j : Nat) : (s.inc64 lo hi n i j).red = s.red := rfl
@[simp] theorem State.inc64_att (s : State) (lo hi : Fld) (n i j : Nat) : (s.inc64 lo hi n i j).att = s.att := rfl
@[simp] theorem State.inc64_sqt (s : State) (lo hi : Fld) (n i j : Nat) : (s.inc64 lo hi n i j).sqt = s.sqt := rfl
@[simp] theorem State.inc64_ckp (s : State) (lo hi : Fld) (n i j : Nat) : (s.inc64 lo hi n i j).ckp = s.ckp := rfl
@[simp] theorem State.inc64_coh (s : State) (lo hi : Fld) (n i j : Nat) : (s.inc64 lo hi n i j).coh = s.coh := rfl
@[simp] theorem State.inc64_sec (s : State) (lo hi : Fld) (n i j : Nat) : (s.inc64 lo hi n i j).sec = s.sec := rfl
@[simp] theorem State.inc64_car (s : State) (lo hi : Fld) (n i j : Nat) : (s.inc64 lo hi n i j).car = s.car := rfl
@[simp] theorem State.inc64_pins (s : State) (lo hi : Fld) (n i j : Nat) : (s.inc64 lo hi n i j).pins = s.pins := rfl

/-! `State.emit` -/
@[simp] theorem State.emit_pending (s : State) (m : OutMsg) : (s.emit m).pending = s.pending := rfl
@[simp] theorem State.emit_regs (s : State) (m : OutMsg) : (s.emit m).regs = s.regs := rfl
@[simp] theorem State.emit_latches (s : State) (m : OutMsg) : (s.emit m).latches = s.latches := rfl
@[simp] theorem State.emit_hclk (s : State) (m : OutMsg) : (s.emit m).hclk = s.hclk := rfl
@[simp] theorem State.emit_tabor (s : State) (m : OutMsg) : (s.emit m).tabor = s.tabor := rfl
@[simp] theorem State.emit_nextFree (s : State) (m : OutMsg) : (s.emit m).nextFree = s.nextFree := rfl
@[simp] theorem State.emit_near (s : State) (m : OutMsg) : (s.emit m).near = s.near := rfl
@[simp] theorem State.emit_tray (s : State) (m : OutMsg) : (s.emit m).tray = s.tray := rfl
@[simp] theorem State.emit_host (s : State) (m : OutMsg) : (s.emit m).host = s.host := rfl
@[simp] theorem State.emit_img (s : State) (m : OutMsg) : (s.emit m).img = s.img := rfl
@[simp] theorem State.emit_cfg (s : State) (m : OutMsg) : (s.emit m).cfg = s.cfg := rfl
@[simp] theorem State.emit_meters (s : State) (m : OutMsg) : (s.emit m).meters = s.meters := rfl
@[simp] theorem State.emit_flt (s : State) (m : OutMsg) : (s.emit m).flt = s.flt := rfl
@[simp] theorem State.emit_pool (s : State) (m : OutMsg) : (s.emit m).pool = s.pool := rfl
@[simp] theorem State.emit_fab (s : State) (m : OutMsg) : (s.emit m).fab = s.fab := rfl
@[simp] theorem State.emit_cmd (s : State) (m : OutMsg) : (s.emit m).cmd = s.cmd := rfl
@[simp] theorem State.emit_xbr (s : State) (m : OutMsg) : (s.emit m).xbr = s.xbr := rfl
@[simp] theorem State.emit_shp (s : State) (m : OutMsg) : (s.emit m).shp = s.shp := rfl
@[simp] theorem State.emit_red (s : State) (m : OutMsg) : (s.emit m).red = s.red := rfl
@[simp] theorem State.emit_att (s : State) (m : OutMsg) : (s.emit m).att = s.att := rfl
@[simp] theorem State.emit_sqt (s : State) (m : OutMsg) : (s.emit m).sqt = s.sqt := rfl
@[simp] theorem State.emit_ckp (s : State) (m : OutMsg) : (s.emit m).ckp = s.ckp := rfl
@[simp] theorem State.emit_coh (s : State) (m : OutMsg) : (s.emit m).coh = s.coh := rfl
@[simp] theorem State.emit_sec (s : State) (m : OutMsg) : (s.emit m).sec = s.sec := rfl
@[simp] theorem State.emit_car (s : State) (m : OutMsg) : (s.emit m).car = s.car := rfl
@[simp] theorem State.emit_pins (s : State) (m : OutMsg) : (s.emit m).pins = s.pins := rfl

/-! `State.mendKeys` -/
@[simp] theorem State.mendKeys_pending (s : State) (ks : List Nat) : (s.mendKeys ks).pending = s.pending := rfl
@[simp] theorem State.mendKeys_regs (s : State) (ks : List Nat) : (s.mendKeys ks).regs = s.regs := rfl
@[simp] theorem State.mendKeys_latches (s : State) (ks : List Nat) : (s.mendKeys ks).latches = s.latches := rfl
@[simp] theorem State.mendKeys_hclk (s : State) (ks : List Nat) : (s.mendKeys ks).hclk = s.hclk := rfl
@[simp] theorem State.mendKeys_tabor (s : State) (ks : List Nat) : (s.mendKeys ks).tabor = s.tabor := rfl
@[simp] theorem State.mendKeys_nextFree (s : State) (ks : List Nat) : (s.mendKeys ks).nextFree = s.nextFree := rfl
@[simp] theorem State.mendKeys_out (s : State) (ks : List Nat) : (s.mendKeys ks).out = s.out := rfl
@[simp] theorem State.mendKeys_near (s : State) (ks : List Nat) : (s.mendKeys ks).near = s.near := rfl
@[simp] theorem State.mendKeys_tray (s : State) (ks : List Nat) : (s.mendKeys ks).tray = s.tray := rfl
@[simp] theorem State.mendKeys_host (s : State) (ks : List Nat) : (s.mendKeys ks).host = s.host := rfl
@[simp] theorem State.mendKeys_img (s : State) (ks : List Nat) : (s.mendKeys ks).img = s.img := rfl
@[simp] theorem State.mendKeys_cfg (s : State) (ks : List Nat) : (s.mendKeys ks).cfg = s.cfg := rfl
@[simp] theorem State.mendKeys_meters (s : State) (ks : List Nat) : (s.mendKeys ks).meters = s.meters := rfl
@[simp] theorem State.mendKeys_pool (s : State) (ks : List Nat) : (s.mendKeys ks).pool = s.pool := rfl
@[simp] theorem State.mendKeys_fab (s : State) (ks : List Nat) : (s.mendKeys ks).fab = s.fab := rfl
@[simp] theorem State.mendKeys_cmd (s : State) (ks : List Nat) : (s.mendKeys ks).cmd = s.cmd := rfl
@[simp] theorem State.mendKeys_xbr (s : State) (ks : List Nat) : (s.mendKeys ks).xbr = s.xbr := rfl
@[simp] theorem State.mendKeys_shp (s : State) (ks : List Nat) : (s.mendKeys ks).shp = s.shp := rfl
@[simp] theorem State.mendKeys_red (s : State) (ks : List Nat) : (s.mendKeys ks).red = s.red := rfl
@[simp] theorem State.mendKeys_att (s : State) (ks : List Nat) : (s.mendKeys ks).att = s.att := rfl
@[simp] theorem State.mendKeys_sqt (s : State) (ks : List Nat) : (s.mendKeys ks).sqt = s.sqt := rfl
@[simp] theorem State.mendKeys_ckp (s : State) (ks : List Nat) : (s.mendKeys ks).ckp = s.ckp := rfl
@[simp] theorem State.mendKeys_coh (s : State) (ks : List Nat) : (s.mendKeys ks).coh = s.coh := rfl
@[simp] theorem State.mendKeys_sec (s : State) (ks : List Nat) : (s.mendKeys ks).sec = s.sec := rfl
@[simp] theorem State.mendKeys_car (s : State) (ks : List Nat) : (s.mendKeys ks).car = s.car := rfl
@[simp] theorem State.mendKeys_pins (s : State) (ks : List Nat) : (s.mendKeys ks).pins = s.pins := rfl

/-! `State.poisonKeys` -/
@[simp] theorem State.poisonKeys_pending (s : State) (ks : List Nat) : (s.poisonKeys ks).pending = s.pending := rfl
@[simp] theorem State.poisonKeys_regs (s : State) (ks : List Nat) : (s.poisonKeys ks).regs = s.regs := rfl
@[simp] theorem State.poisonKeys_latches (s : State) (ks : List Nat) : (s.poisonKeys ks).latches = s.latches := rfl
@[simp] theorem State.poisonKeys_hclk (s : State) (ks : List Nat) : (s.poisonKeys ks).hclk = s.hclk := rfl
@[simp] theorem State.poisonKeys_tabor (s : State) (ks : List Nat) : (s.poisonKeys ks).tabor = s.tabor := rfl
@[simp] theorem State.poisonKeys_nextFree (s : State) (ks : List Nat) : (s.poisonKeys ks).nextFree = s.nextFree := rfl
@[simp] theorem State.poisonKeys_out (s : State) (ks : List Nat) : (s.poisonKeys ks).out = s.out := rfl
@[simp] theorem State.poisonKeys_near (s : State) (ks : List Nat) : (s.poisonKeys ks).near = s.near := rfl
@[simp] theorem State.poisonKeys_tray (s : State) (ks : List Nat) : (s.poisonKeys ks).tray = s.tray := rfl
@[simp] theorem State.poisonKeys_host (s : State) (ks : List Nat) : (s.poisonKeys ks).host = s.host := rfl
@[simp] theorem State.poisonKeys_img (s : State) (ks : List Nat) : (s.poisonKeys ks).img = s.img := rfl
@[simp] theorem State.poisonKeys_cfg (s : State) (ks : List Nat) : (s.poisonKeys ks).cfg = s.cfg := rfl
@[simp] theorem State.poisonKeys_meters (s : State) (ks : List Nat) : (s.poisonKeys ks).meters = s.meters := rfl
@[simp] theorem State.poisonKeys_pool (s : State) (ks : List Nat) : (s.poisonKeys ks).pool = s.pool := rfl
@[simp] theorem State.poisonKeys_fab (s : State) (ks : List Nat) : (s.poisonKeys ks).fab = s.fab := rfl
@[simp] theorem State.poisonKeys_cmd (s : State) (ks : List Nat) : (s.poisonKeys ks).cmd = s.cmd := rfl
@[simp] theorem State.poisonKeys_xbr (s : State) (ks : List Nat) : (s.poisonKeys ks).xbr = s.xbr := rfl
@[simp] theorem State.poisonKeys_shp (s : State) (ks : List Nat) : (s.poisonKeys ks).shp = s.shp := rfl
@[simp] theorem State.poisonKeys_red (s : State) (ks : List Nat) : (s.poisonKeys ks).red = s.red := rfl
@[simp] theorem State.poisonKeys_att (s : State) (ks : List Nat) : (s.poisonKeys ks).att = s.att := rfl
@[simp] theorem State.poisonKeys_sqt (s : State) (ks : List Nat) : (s.poisonKeys ks).sqt = s.sqt := rfl
@[simp] theorem State.poisonKeys_ckp (s : State) (ks : List Nat) : (s.poisonKeys ks).ckp = s.ckp := rfl
@[simp] theorem State.poisonKeys_coh (s : State) (ks : List Nat) : (s.poisonKeys ks).coh = s.coh := rfl
@[simp] theorem State.poisonKeys_sec (s : State) (ks : List Nat) : (s.poisonKeys ks).sec = s.sec := rfl
@[simp] theorem State.poisonKeys_car (s : State) (ks : List Nat) : (s.poisonKeys ks).car = s.car := rfl
@[simp] theorem State.poisonKeys_pins (s : State) (ks : List Nat) : (s.poisonKeys ks).pins = s.pins := rfl

/-! `State.upPool` -/
@[simp] theorem State.upPool_pending (s : State) (g : PoolState → PoolState) : (s.upPool g).pending = s.pending := rfl
@[simp] theorem State.upPool_regs (s : State) (g : PoolState → PoolState) : (s.upPool g).regs = s.regs := rfl
@[simp] theorem State.upPool_latches (s : State) (g : PoolState → PoolState) : (s.upPool g).latches = s.latches := rfl
@[simp] theorem State.upPool_hclk (s : State) (g : PoolState → PoolState) : (s.upPool g).hclk = s.hclk := rfl
@[simp] theorem State.upPool_tabor (s : State) (g : PoolState → PoolState) : (s.upPool g).tabor = s.tabor := rfl
@[simp] theorem State.upPool_nextFree (s : State) (g : PoolState → PoolState) : (s.upPool g).nextFree = s.nextFree := rfl
@[simp] theorem State.upPool_out (s : State) (g : PoolState → PoolState) : (s.upPool g).out = s.out := rfl
@[simp] theorem State.upPool_near (s : State) (g : PoolState → PoolState) : (s.upPool g).near = s.near := rfl
@[simp] theorem State.upPool_tray (s : State) (g : PoolState → PoolState) : (s.upPool g).tray = s.tray := rfl
@[simp] theorem State.upPool_host (s : State) (g : PoolState → PoolState) : (s.upPool g).host = s.host := rfl
@[simp] theorem State.upPool_img (s : State) (g : PoolState → PoolState) : (s.upPool g).img = s.img := rfl
@[simp] theorem State.upPool_cfg (s : State) (g : PoolState → PoolState) : (s.upPool g).cfg = s.cfg := rfl
@[simp] theorem State.upPool_meters (s : State) (g : PoolState → PoolState) : (s.upPool g).meters = s.meters := rfl
@[simp] theorem State.upPool_flt (s : State) (g : PoolState → PoolState) : (s.upPool g).flt = s.flt := rfl
@[simp] theorem State.upPool_fab (s : State) (g : PoolState → PoolState) : (s.upPool g).fab = s.fab := rfl
@[simp] theorem State.upPool_cmd (s : State) (g : PoolState → PoolState) : (s.upPool g).cmd = s.cmd := rfl
@[simp] theorem State.upPool_xbr (s : State) (g : PoolState → PoolState) : (s.upPool g).xbr = s.xbr := rfl
@[simp] theorem State.upPool_shp (s : State) (g : PoolState → PoolState) : (s.upPool g).shp = s.shp := rfl
@[simp] theorem State.upPool_red (s : State) (g : PoolState → PoolState) : (s.upPool g).red = s.red := rfl
@[simp] theorem State.upPool_att (s : State) (g : PoolState → PoolState) : (s.upPool g).att = s.att := rfl
@[simp] theorem State.upPool_sqt (s : State) (g : PoolState → PoolState) : (s.upPool g).sqt = s.sqt := rfl
@[simp] theorem State.upPool_ckp (s : State) (g : PoolState → PoolState) : (s.upPool g).ckp = s.ckp := rfl
@[simp] theorem State.upPool_coh (s : State) (g : PoolState → PoolState) : (s.upPool g).coh = s.coh := rfl
@[simp] theorem State.upPool_sec (s : State) (g : PoolState → PoolState) : (s.upPool g).sec = s.sec := rfl
@[simp] theorem State.upPool_car (s : State) (g : PoolState → PoolState) : (s.upPool g).car = s.car := rfl
@[simp] theorem State.upPool_pins (s : State) (g : PoolState → PoolState) : (s.upPool g).pins = s.pins := rfl

/-! `State.upFab` -/
@[simp] theorem State.upFab_pending (s : State) (g : FabState → FabState) : (s.upFab g).pending = s.pending := rfl
@[simp] theorem State.upFab_regs (s : State) (g : FabState → FabState) : (s.upFab g).regs = s.regs := rfl
@[simp] theorem State.upFab_latches (s : State) (g : FabState → FabState) : (s.upFab g).latches = s.latches := rfl
@[simp] theorem State.upFab_hclk (s : State) (g : FabState → FabState) : (s.upFab g).hclk = s.hclk := rfl
@[simp] theorem State.upFab_tabor (s : State) (g : FabState → FabState) : (s.upFab g).tabor = s.tabor := rfl
@[simp] theorem State.upFab_nextFree (s : State) (g : FabState → FabState) : (s.upFab g).nextFree = s.nextFree := rfl
@[simp] theorem State.upFab_out (s : State) (g : FabState → FabState) : (s.upFab g).out = s.out := rfl
@[simp] theorem State.upFab_near (s : State) (g : FabState → FabState) : (s.upFab g).near = s.near := rfl
@[simp] theorem State.upFab_tray (s : State) (g : FabState → FabState) : (s.upFab g).tray = s.tray := rfl
@[simp] theorem State.upFab_host (s : State) (g : FabState → FabState) : (s.upFab g).host = s.host := rfl
@[simp] theorem State.upFab_img (s : State) (g : FabState → FabState) : (s.upFab g).img = s.img := rfl
@[simp] theorem State.upFab_cfg (s : State) (g : FabState → FabState) : (s.upFab g).cfg = s.cfg := rfl
@[simp] theorem State.upFab_meters (s : State) (g : FabState → FabState) : (s.upFab g).meters = s.meters := rfl
@[simp] theorem State.upFab_flt (s : State) (g : FabState → FabState) : (s.upFab g).flt = s.flt := rfl
@[simp] theorem State.upFab_pool (s : State) (g : FabState → FabState) : (s.upFab g).pool = s.pool := rfl
@[simp] theorem State.upFab_cmd (s : State) (g : FabState → FabState) : (s.upFab g).cmd = s.cmd := rfl
@[simp] theorem State.upFab_xbr (s : State) (g : FabState → FabState) : (s.upFab g).xbr = s.xbr := rfl
@[simp] theorem State.upFab_shp (s : State) (g : FabState → FabState) : (s.upFab g).shp = s.shp := rfl
@[simp] theorem State.upFab_red (s : State) (g : FabState → FabState) : (s.upFab g).red = s.red := rfl
@[simp] theorem State.upFab_att (s : State) (g : FabState → FabState) : (s.upFab g).att = s.att := rfl
@[simp] theorem State.upFab_sqt (s : State) (g : FabState → FabState) : (s.upFab g).sqt = s.sqt := rfl
@[simp] theorem State.upFab_ckp (s : State) (g : FabState → FabState) : (s.upFab g).ckp = s.ckp := rfl
@[simp] theorem State.upFab_coh (s : State) (g : FabState → FabState) : (s.upFab g).coh = s.coh := rfl
@[simp] theorem State.upFab_sec (s : State) (g : FabState → FabState) : (s.upFab g).sec = s.sec := rfl
@[simp] theorem State.upFab_car (s : State) (g : FabState → FabState) : (s.upFab g).car = s.car := rfl
@[simp] theorem State.upFab_pins (s : State) (g : FabState → FabState) : (s.upFab g).pins = s.pins := rfl

/-! `State.upCmd` -/
@[simp] theorem State.upCmd_pending (s : State) (g : CmdState → CmdState) : (s.upCmd g).pending = s.pending := rfl
@[simp] theorem State.upCmd_regs (s : State) (g : CmdState → CmdState) : (s.upCmd g).regs = s.regs := rfl
@[simp] theorem State.upCmd_latches (s : State) (g : CmdState → CmdState) : (s.upCmd g).latches = s.latches := rfl
@[simp] theorem State.upCmd_hclk (s : State) (g : CmdState → CmdState) : (s.upCmd g).hclk = s.hclk := rfl
@[simp] theorem State.upCmd_tabor (s : State) (g : CmdState → CmdState) : (s.upCmd g).tabor = s.tabor := rfl
@[simp] theorem State.upCmd_nextFree (s : State) (g : CmdState → CmdState) : (s.upCmd g).nextFree = s.nextFree := rfl
@[simp] theorem State.upCmd_out (s : State) (g : CmdState → CmdState) : (s.upCmd g).out = s.out := rfl
@[simp] theorem State.upCmd_near (s : State) (g : CmdState → CmdState) : (s.upCmd g).near = s.near := rfl
@[simp] theorem State.upCmd_tray (s : State) (g : CmdState → CmdState) : (s.upCmd g).tray = s.tray := rfl
@[simp] theorem State.upCmd_host (s : State) (g : CmdState → CmdState) : (s.upCmd g).host = s.host := rfl
@[simp] theorem State.upCmd_img (s : State) (g : CmdState → CmdState) : (s.upCmd g).img = s.img := rfl
@[simp] theorem State.upCmd_cfg (s : State) (g : CmdState → CmdState) : (s.upCmd g).cfg = s.cfg := rfl
@[simp] theorem State.upCmd_meters (s : State) (g : CmdState → CmdState) : (s.upCmd g).meters = s.meters := rfl
@[simp] theorem State.upCmd_flt (s : State) (g : CmdState → CmdState) : (s.upCmd g).flt = s.flt := rfl
@[simp] theorem State.upCmd_pool (s : State) (g : CmdState → CmdState) : (s.upCmd g).pool = s.pool := rfl
@[simp] theorem State.upCmd_fab (s : State) (g : CmdState → CmdState) : (s.upCmd g).fab = s.fab := rfl
@[simp] theorem State.upCmd_xbr (s : State) (g : CmdState → CmdState) : (s.upCmd g).xbr = s.xbr := rfl
@[simp] theorem State.upCmd_shp (s : State) (g : CmdState → CmdState) : (s.upCmd g).shp = s.shp := rfl
@[simp] theorem State.upCmd_red (s : State) (g : CmdState → CmdState) : (s.upCmd g).red = s.red := rfl
@[simp] theorem State.upCmd_att (s : State) (g : CmdState → CmdState) : (s.upCmd g).att = s.att := rfl
@[simp] theorem State.upCmd_sqt (s : State) (g : CmdState → CmdState) : (s.upCmd g).sqt = s.sqt := rfl
@[simp] theorem State.upCmd_ckp (s : State) (g : CmdState → CmdState) : (s.upCmd g).ckp = s.ckp := rfl
@[simp] theorem State.upCmd_coh (s : State) (g : CmdState → CmdState) : (s.upCmd g).coh = s.coh := rfl
@[simp] theorem State.upCmd_sec (s : State) (g : CmdState → CmdState) : (s.upCmd g).sec = s.sec := rfl
@[simp] theorem State.upCmd_car (s : State) (g : CmdState → CmdState) : (s.upCmd g).car = s.car := rfl
@[simp] theorem State.upCmd_pins (s : State) (g : CmdState → CmdState) : (s.upCmd g).pins = s.pins := rfl

/-! `State.upXbr` -/
@[simp] theorem State.upXbr_pending (s : State) (g : XbrState → XbrState) : (s.upXbr g).pending = s.pending := rfl
@[simp] theorem State.upXbr_regs (s : State) (g : XbrState → XbrState) : (s.upXbr g).regs = s.regs := rfl
@[simp] theorem State.upXbr_latches (s : State) (g : XbrState → XbrState) : (s.upXbr g).latches = s.latches := rfl
@[simp] theorem State.upXbr_hclk (s : State) (g : XbrState → XbrState) : (s.upXbr g).hclk = s.hclk := rfl
@[simp] theorem State.upXbr_tabor (s : State) (g : XbrState → XbrState) : (s.upXbr g).tabor = s.tabor := rfl
@[simp] theorem State.upXbr_nextFree (s : State) (g : XbrState → XbrState) : (s.upXbr g).nextFree = s.nextFree := rfl
@[simp] theorem State.upXbr_out (s : State) (g : XbrState → XbrState) : (s.upXbr g).out = s.out := rfl
@[simp] theorem State.upXbr_near (s : State) (g : XbrState → XbrState) : (s.upXbr g).near = s.near := rfl
@[simp] theorem State.upXbr_tray (s : State) (g : XbrState → XbrState) : (s.upXbr g).tray = s.tray := rfl
@[simp] theorem State.upXbr_host (s : State) (g : XbrState → XbrState) : (s.upXbr g).host = s.host := rfl
@[simp] theorem State.upXbr_img (s : State) (g : XbrState → XbrState) : (s.upXbr g).img = s.img := rfl
@[simp] theorem State.upXbr_cfg (s : State) (g : XbrState → XbrState) : (s.upXbr g).cfg = s.cfg := rfl
@[simp] theorem State.upXbr_meters (s : State) (g : XbrState → XbrState) : (s.upXbr g).meters = s.meters := rfl
@[simp] theorem State.upXbr_flt (s : State) (g : XbrState → XbrState) : (s.upXbr g).flt = s.flt := rfl
@[simp] theorem State.upXbr_pool (s : State) (g : XbrState → XbrState) : (s.upXbr g).pool = s.pool := rfl
@[simp] theorem State.upXbr_fab (s : State) (g : XbrState → XbrState) : (s.upXbr g).fab = s.fab := rfl
@[simp] theorem State.upXbr_cmd (s : State) (g : XbrState → XbrState) : (s.upXbr g).cmd = s.cmd := rfl
@[simp] theorem State.upXbr_shp (s : State) (g : XbrState → XbrState) : (s.upXbr g).shp = s.shp := rfl
@[simp] theorem State.upXbr_red (s : State) (g : XbrState → XbrState) : (s.upXbr g).red = s.red := rfl
@[simp] theorem State.upXbr_att (s : State) (g : XbrState → XbrState) : (s.upXbr g).att = s.att := rfl
@[simp] theorem State.upXbr_sqt (s : State) (g : XbrState → XbrState) : (s.upXbr g).sqt = s.sqt := rfl
@[simp] theorem State.upXbr_ckp (s : State) (g : XbrState → XbrState) : (s.upXbr g).ckp = s.ckp := rfl
@[simp] theorem State.upXbr_coh (s : State) (g : XbrState → XbrState) : (s.upXbr g).coh = s.coh := rfl
@[simp] theorem State.upXbr_sec (s : State) (g : XbrState → XbrState) : (s.upXbr g).sec = s.sec := rfl
@[simp] theorem State.upXbr_car (s : State) (g : XbrState → XbrState) : (s.upXbr g).car = s.car := rfl
@[simp] theorem State.upXbr_pins (s : State) (g : XbrState → XbrState) : (s.upXbr g).pins = s.pins := rfl

/-! `State.upShp` -/
@[simp] theorem State.upShp_pending (s : State) (g : ShpState → ShpState) : (s.upShp g).pending = s.pending := rfl
@[simp] theorem State.upShp_regs (s : State) (g : ShpState → ShpState) : (s.upShp g).regs = s.regs := rfl
@[simp] theorem State.upShp_latches (s : State) (g : ShpState → ShpState) : (s.upShp g).latches = s.latches := rfl
@[simp] theorem State.upShp_hclk (s : State) (g : ShpState → ShpState) : (s.upShp g).hclk = s.hclk := rfl
@[simp] theorem State.upShp_tabor (s : State) (g : ShpState → ShpState) : (s.upShp g).tabor = s.tabor := rfl
@[simp] theorem State.upShp_nextFree (s : State) (g : ShpState → ShpState) : (s.upShp g).nextFree = s.nextFree := rfl
@[simp] theorem State.upShp_out (s : State) (g : ShpState → ShpState) : (s.upShp g).out = s.out := rfl
@[simp] theorem State.upShp_near (s : State) (g : ShpState → ShpState) : (s.upShp g).near = s.near := rfl
@[simp] theorem State.upShp_tray (s : State) (g : ShpState → ShpState) : (s.upShp g).tray = s.tray := rfl
@[simp] theorem State.upShp_host (s : State) (g : ShpState → ShpState) : (s.upShp g).host = s.host := rfl
@[simp] theorem State.upShp_img (s : State) (g : ShpState → ShpState) : (s.upShp g).img = s.img := rfl
@[simp] theorem State.upShp_cfg (s : State) (g : ShpState → ShpState) : (s.upShp g).cfg = s.cfg := rfl
@[simp] theorem State.upShp_meters (s : State) (g : ShpState → ShpState) : (s.upShp g).meters = s.meters := rfl
@[simp] theorem State.upShp_flt (s : State) (g : ShpState → ShpState) : (s.upShp g).flt = s.flt := rfl
@[simp] theorem State.upShp_pool (s : State) (g : ShpState → ShpState) : (s.upShp g).pool = s.pool := rfl
@[simp] theorem State.upShp_fab (s : State) (g : ShpState → ShpState) : (s.upShp g).fab = s.fab := rfl
@[simp] theorem State.upShp_cmd (s : State) (g : ShpState → ShpState) : (s.upShp g).cmd = s.cmd := rfl
@[simp] theorem State.upShp_xbr (s : State) (g : ShpState → ShpState) : (s.upShp g).xbr = s.xbr := rfl
@[simp] theorem State.upShp_red (s : State) (g : ShpState → ShpState) : (s.upShp g).red = s.red := rfl
@[simp] theorem State.upShp_att (s : State) (g : ShpState → ShpState) : (s.upShp g).att = s.att := rfl
@[simp] theorem State.upShp_sqt (s : State) (g : ShpState → ShpState) : (s.upShp g).sqt = s.sqt := rfl
@[simp] theorem State.upShp_ckp (s : State) (g : ShpState → ShpState) : (s.upShp g).ckp = s.ckp := rfl
@[simp] theorem State.upShp_coh (s : State) (g : ShpState → ShpState) : (s.upShp g).coh = s.coh := rfl
@[simp] theorem State.upShp_sec (s : State) (g : ShpState → ShpState) : (s.upShp g).sec = s.sec := rfl
@[simp] theorem State.upShp_car (s : State) (g : ShpState → ShpState) : (s.upShp g).car = s.car := rfl
@[simp] theorem State.upShp_pins (s : State) (g : ShpState → ShpState) : (s.upShp g).pins = s.pins := rfl

/-! `State.upRed` -/
@[simp] theorem State.upRed_pending (s : State) (g : RedState → RedState) : (s.upRed g).pending = s.pending := rfl
@[simp] theorem State.upRed_regs (s : State) (g : RedState → RedState) : (s.upRed g).regs = s.regs := rfl
@[simp] theorem State.upRed_latches (s : State) (g : RedState → RedState) : (s.upRed g).latches = s.latches := rfl
@[simp] theorem State.upRed_hclk (s : State) (g : RedState → RedState) : (s.upRed g).hclk = s.hclk := rfl
@[simp] theorem State.upRed_tabor (s : State) (g : RedState → RedState) : (s.upRed g).tabor = s.tabor := rfl
@[simp] theorem State.upRed_nextFree (s : State) (g : RedState → RedState) : (s.upRed g).nextFree = s.nextFree := rfl
@[simp] theorem State.upRed_out (s : State) (g : RedState → RedState) : (s.upRed g).out = s.out := rfl
@[simp] theorem State.upRed_near (s : State) (g : RedState → RedState) : (s.upRed g).near = s.near := rfl
@[simp] theorem State.upRed_tray (s : State) (g : RedState → RedState) : (s.upRed g).tray = s.tray := rfl
@[simp] theorem State.upRed_host (s : State) (g : RedState → RedState) : (s.upRed g).host = s.host := rfl
@[simp] theorem State.upRed_img (s : State) (g : RedState → RedState) : (s.upRed g).img = s.img := rfl
@[simp] theorem State.upRed_cfg (s : State) (g : RedState → RedState) : (s.upRed g).cfg = s.cfg := rfl
@[simp] theorem State.upRed_meters (s : State) (g : RedState → RedState) : (s.upRed g).meters = s.meters := rfl
@[simp] theorem State.upRed_flt (s : State) (g : RedState → RedState) : (s.upRed g).flt = s.flt := rfl
@[simp] theorem State.upRed_pool (s : State) (g : RedState → RedState) : (s.upRed g).pool = s.pool := rfl
@[simp] theorem State.upRed_fab (s : State) (g : RedState → RedState) : (s.upRed g).fab = s.fab := rfl
@[simp] theorem State.upRed_cmd (s : State) (g : RedState → RedState) : (s.upRed g).cmd = s.cmd := rfl
@[simp] theorem State.upRed_xbr (s : State) (g : RedState → RedState) : (s.upRed g).xbr = s.xbr := rfl
@[simp] theorem State.upRed_shp (s : State) (g : RedState → RedState) : (s.upRed g).shp = s.shp := rfl
@[simp] theorem State.upRed_att (s : State) (g : RedState → RedState) : (s.upRed g).att = s.att := rfl
@[simp] theorem State.upRed_sqt (s : State) (g : RedState → RedState) : (s.upRed g).sqt = s.sqt := rfl
@[simp] theorem State.upRed_ckp (s : State) (g : RedState → RedState) : (s.upRed g).ckp = s.ckp := rfl
@[simp] theorem State.upRed_coh (s : State) (g : RedState → RedState) : (s.upRed g).coh = s.coh := rfl
@[simp] theorem State.upRed_sec (s : State) (g : RedState → RedState) : (s.upRed g).sec = s.sec := rfl
@[simp] theorem State.upRed_car (s : State) (g : RedState → RedState) : (s.upRed g).car = s.car := rfl
@[simp] theorem State.upRed_pins (s : State) (g : RedState → RedState) : (s.upRed g).pins = s.pins := rfl

/-! `State.upAtt` -/
@[simp] theorem State.upAtt_pending (s : State) (g : AttState → AttState) : (s.upAtt g).pending = s.pending := rfl
@[simp] theorem State.upAtt_regs (s : State) (g : AttState → AttState) : (s.upAtt g).regs = s.regs := rfl
@[simp] theorem State.upAtt_latches (s : State) (g : AttState → AttState) : (s.upAtt g).latches = s.latches := rfl
@[simp] theorem State.upAtt_hclk (s : State) (g : AttState → AttState) : (s.upAtt g).hclk = s.hclk := rfl
@[simp] theorem State.upAtt_tabor (s : State) (g : AttState → AttState) : (s.upAtt g).tabor = s.tabor := rfl
@[simp] theorem State.upAtt_nextFree (s : State) (g : AttState → AttState) : (s.upAtt g).nextFree = s.nextFree := rfl
@[simp] theorem State.upAtt_out (s : State) (g : AttState → AttState) : (s.upAtt g).out = s.out := rfl
@[simp] theorem State.upAtt_near (s : State) (g : AttState → AttState) : (s.upAtt g).near = s.near := rfl
@[simp] theorem State.upAtt_tray (s : State) (g : AttState → AttState) : (s.upAtt g).tray = s.tray := rfl
@[simp] theorem State.upAtt_host (s : State) (g : AttState → AttState) : (s.upAtt g).host = s.host := rfl
@[simp] theorem State.upAtt_img (s : State) (g : AttState → AttState) : (s.upAtt g).img = s.img := rfl
@[simp] theorem State.upAtt_cfg (s : State) (g : AttState → AttState) : (s.upAtt g).cfg = s.cfg := rfl
@[simp] theorem State.upAtt_meters (s : State) (g : AttState → AttState) : (s.upAtt g).meters = s.meters := rfl
@[simp] theorem State.upAtt_flt (s : State) (g : AttState → AttState) : (s.upAtt g).flt = s.flt := rfl
@[simp] theorem State.upAtt_pool (s : State) (g : AttState → AttState) : (s.upAtt g).pool = s.pool := rfl
@[simp] theorem State.upAtt_fab (s : State) (g : AttState → AttState) : (s.upAtt g).fab = s.fab := rfl
@[simp] theorem State.upAtt_cmd (s : State) (g : AttState → AttState) : (s.upAtt g).cmd = s.cmd := rfl
@[simp] theorem State.upAtt_xbr (s : State) (g : AttState → AttState) : (s.upAtt g).xbr = s.xbr := rfl
@[simp] theorem State.upAtt_shp (s : State) (g : AttState → AttState) : (s.upAtt g).shp = s.shp := rfl
@[simp] theorem State.upAtt_red (s : State) (g : AttState → AttState) : (s.upAtt g).red = s.red := rfl
@[simp] theorem State.upAtt_sqt (s : State) (g : AttState → AttState) : (s.upAtt g).sqt = s.sqt := rfl
@[simp] theorem State.upAtt_ckp (s : State) (g : AttState → AttState) : (s.upAtt g).ckp = s.ckp := rfl
@[simp] theorem State.upAtt_coh (s : State) (g : AttState → AttState) : (s.upAtt g).coh = s.coh := rfl
@[simp] theorem State.upAtt_sec (s : State) (g : AttState → AttState) : (s.upAtt g).sec = s.sec := rfl
@[simp] theorem State.upAtt_car (s : State) (g : AttState → AttState) : (s.upAtt g).car = s.car := rfl
@[simp] theorem State.upAtt_pins (s : State) (g : AttState → AttState) : (s.upAtt g).pins = s.pins := rfl

/-! `State.upSqt` -/
@[simp] theorem State.upSqt_pending (s : State) (g : SqtState → SqtState) : (s.upSqt g).pending = s.pending := rfl
@[simp] theorem State.upSqt_regs (s : State) (g : SqtState → SqtState) : (s.upSqt g).regs = s.regs := rfl
@[simp] theorem State.upSqt_latches (s : State) (g : SqtState → SqtState) : (s.upSqt g).latches = s.latches := rfl
@[simp] theorem State.upSqt_hclk (s : State) (g : SqtState → SqtState) : (s.upSqt g).hclk = s.hclk := rfl
@[simp] theorem State.upSqt_tabor (s : State) (g : SqtState → SqtState) : (s.upSqt g).tabor = s.tabor := rfl
@[simp] theorem State.upSqt_nextFree (s : State) (g : SqtState → SqtState) : (s.upSqt g).nextFree = s.nextFree := rfl
@[simp] theorem State.upSqt_out (s : State) (g : SqtState → SqtState) : (s.upSqt g).out = s.out := rfl
@[simp] theorem State.upSqt_near (s : State) (g : SqtState → SqtState) : (s.upSqt g).near = s.near := rfl
@[simp] theorem State.upSqt_tray (s : State) (g : SqtState → SqtState) : (s.upSqt g).tray = s.tray := rfl
@[simp] theorem State.upSqt_host (s : State) (g : SqtState → SqtState) : (s.upSqt g).host = s.host := rfl
@[simp] theorem State.upSqt_img (s : State) (g : SqtState → SqtState) : (s.upSqt g).img = s.img := rfl
@[simp] theorem State.upSqt_cfg (s : State) (g : SqtState → SqtState) : (s.upSqt g).cfg = s.cfg := rfl
@[simp] theorem State.upSqt_meters (s : State) (g : SqtState → SqtState) : (s.upSqt g).meters = s.meters := rfl
@[simp] theorem State.upSqt_flt (s : State) (g : SqtState → SqtState) : (s.upSqt g).flt = s.flt := rfl
@[simp] theorem State.upSqt_pool (s : State) (g : SqtState → SqtState) : (s.upSqt g).pool = s.pool := rfl
@[simp] theorem State.upSqt_fab (s : State) (g : SqtState → SqtState) : (s.upSqt g).fab = s.fab := rfl
@[simp] theorem State.upSqt_cmd (s : State) (g : SqtState → SqtState) : (s.upSqt g).cmd = s.cmd := rfl
@[simp] theorem State.upSqt_xbr (s : State) (g : SqtState → SqtState) : (s.upSqt g).xbr = s.xbr := rfl
@[simp] theorem State.upSqt_shp (s : State) (g : SqtState → SqtState) : (s.upSqt g).shp = s.shp := rfl
@[simp] theorem State.upSqt_red (s : State) (g : SqtState → SqtState) : (s.upSqt g).red = s.red := rfl
@[simp] theorem State.upSqt_att (s : State) (g : SqtState → SqtState) : (s.upSqt g).att = s.att := rfl
@[simp] theorem State.upSqt_ckp (s : State) (g : SqtState → SqtState) : (s.upSqt g).ckp = s.ckp := rfl
@[simp] theorem State.upSqt_coh (s : State) (g : SqtState → SqtState) : (s.upSqt g).coh = s.coh := rfl
@[simp] theorem State.upSqt_sec (s : State) (g : SqtState → SqtState) : (s.upSqt g).sec = s.sec := rfl
@[simp] theorem State.upSqt_car (s : State) (g : SqtState → SqtState) : (s.upSqt g).car = s.car := rfl
@[simp] theorem State.upSqt_pins (s : State) (g : SqtState → SqtState) : (s.upSqt g).pins = s.pins := rfl

/-! `State.upCkp` -/
@[simp] theorem State.upCkp_pending (s : State) (g : CkpState → CkpState) : (s.upCkp g).pending = s.pending := rfl
@[simp] theorem State.upCkp_regs (s : State) (g : CkpState → CkpState) : (s.upCkp g).regs = s.regs := rfl
@[simp] theorem State.upCkp_latches (s : State) (g : CkpState → CkpState) : (s.upCkp g).latches = s.latches := rfl
@[simp] theorem State.upCkp_hclk (s : State) (g : CkpState → CkpState) : (s.upCkp g).hclk = s.hclk := rfl
@[simp] theorem State.upCkp_tabor (s : State) (g : CkpState → CkpState) : (s.upCkp g).tabor = s.tabor := rfl
@[simp] theorem State.upCkp_nextFree (s : State) (g : CkpState → CkpState) : (s.upCkp g).nextFree = s.nextFree := rfl
@[simp] theorem State.upCkp_out (s : State) (g : CkpState → CkpState) : (s.upCkp g).out = s.out := rfl
@[simp] theorem State.upCkp_near (s : State) (g : CkpState → CkpState) : (s.upCkp g).near = s.near := rfl
@[simp] theorem State.upCkp_tray (s : State) (g : CkpState → CkpState) : (s.upCkp g).tray = s.tray := rfl
@[simp] theorem State.upCkp_host (s : State) (g : CkpState → CkpState) : (s.upCkp g).host = s.host := rfl
@[simp] theorem State.upCkp_img (s : State) (g : CkpState → CkpState) : (s.upCkp g).img = s.img := rfl
@[simp] theorem State.upCkp_cfg (s : State) (g : CkpState → CkpState) : (s.upCkp g).cfg = s.cfg := rfl
@[simp] theorem State.upCkp_meters (s : State) (g : CkpState → CkpState) : (s.upCkp g).meters = s.meters := rfl
@[simp] theorem State.upCkp_flt (s : State) (g : CkpState → CkpState) : (s.upCkp g).flt = s.flt := rfl
@[simp] theorem State.upCkp_pool (s : State) (g : CkpState → CkpState) : (s.upCkp g).pool = s.pool := rfl
@[simp] theorem State.upCkp_fab (s : State) (g : CkpState → CkpState) : (s.upCkp g).fab = s.fab := rfl
@[simp] theorem State.upCkp_cmd (s : State) (g : CkpState → CkpState) : (s.upCkp g).cmd = s.cmd := rfl
@[simp] theorem State.upCkp_xbr (s : State) (g : CkpState → CkpState) : (s.upCkp g).xbr = s.xbr := rfl
@[simp] theorem State.upCkp_shp (s : State) (g : CkpState → CkpState) : (s.upCkp g).shp = s.shp := rfl
@[simp] theorem State.upCkp_red (s : State) (g : CkpState → CkpState) : (s.upCkp g).red = s.red := rfl
@[simp] theorem State.upCkp_att (s : State) (g : CkpState → CkpState) : (s.upCkp g).att = s.att := rfl
@[simp] theorem State.upCkp_sqt (s : State) (g : CkpState → CkpState) : (s.upCkp g).sqt = s.sqt := rfl
@[simp] theorem State.upCkp_coh (s : State) (g : CkpState → CkpState) : (s.upCkp g).coh = s.coh := rfl
@[simp] theorem State.upCkp_sec (s : State) (g : CkpState → CkpState) : (s.upCkp g).sec = s.sec := rfl
@[simp] theorem State.upCkp_car (s : State) (g : CkpState → CkpState) : (s.upCkp g).car = s.car := rfl
@[simp] theorem State.upCkp_pins (s : State) (g : CkpState → CkpState) : (s.upCkp g).pins = s.pins := rfl

/-! `State.upCoh` -/
@[simp] theorem State.upCoh_pending (s : State) (g : CohState → CohState) : (s.upCoh g).pending = s.pending := rfl
@[simp] theorem State.upCoh_regs (s : State) (g : CohState → CohState) : (s.upCoh g).regs = s.regs := rfl
@[simp] theorem State.upCoh_latches (s : State) (g : CohState → CohState) : (s.upCoh g).latches = s.latches := rfl
@[simp] theorem State.upCoh_hclk (s : State) (g : CohState → CohState) : (s.upCoh g).hclk = s.hclk := rfl
@[simp] theorem State.upCoh_tabor (s : State) (g : CohState → CohState) : (s.upCoh g).tabor = s.tabor := rfl
@[simp] theorem State.upCoh_nextFree (s : State) (g : CohState → CohState) : (s.upCoh g).nextFree = s.nextFree := rfl
@[simp] theorem State.upCoh_out (s : State) (g : CohState → CohState) : (s.upCoh g).out = s.out := rfl
@[simp] theorem State.upCoh_near (s : State) (g : CohState → CohState) : (s.upCoh g).near = s.near := rfl
@[simp] theorem State.upCoh_tray (s : State) (g : CohState → CohState) : (s.upCoh g).tray = s.tray := rfl
@[simp] theorem State.upCoh_host (s : State) (g : CohState → CohState) : (s.upCoh g).host = s.host := rfl
@[simp] theorem State.upCoh_img (s : State) (g : CohState → CohState) : (s.upCoh g).img = s.img := rfl
@[simp] theorem State.upCoh_cfg (s : State) (g : CohState → CohState) : (s.upCoh g).cfg = s.cfg := rfl
@[simp] theorem State.upCoh_meters (s : State) (g : CohState → CohState) : (s.upCoh g).meters = s.meters := rfl
@[simp] theorem State.upCoh_flt (s : State) (g : CohState → CohState) : (s.upCoh g).flt = s.flt := rfl
@[simp] theorem State.upCoh_pool (s : State) (g : CohState → CohState) : (s.upCoh g).pool = s.pool := rfl
@[simp] theorem State.upCoh_fab (s : State) (g : CohState → CohState) : (s.upCoh g).fab = s.fab := rfl
@[simp] theorem State.upCoh_cmd (s : State) (g : CohState → CohState) : (s.upCoh g).cmd = s.cmd := rfl
@[simp] theorem State.upCoh_xbr (s : State) (g : CohState → CohState) : (s.upCoh g).xbr = s.xbr := rfl
@[simp] theorem State.upCoh_shp (s : State) (g : CohState → CohState) : (s.upCoh g).shp = s.shp := rfl
@[simp] theorem State.upCoh_red (s : State) (g : CohState → CohState) : (s.upCoh g).red = s.red := rfl
@[simp] theorem State.upCoh_att (s : State) (g : CohState → CohState) : (s.upCoh g).att = s.att := rfl
@[simp] theorem State.upCoh_sqt (s : State) (g : CohState → CohState) : (s.upCoh g).sqt = s.sqt := rfl
@[simp] theorem State.upCoh_ckp (s : State) (g : CohState → CohState) : (s.upCoh g).ckp = s.ckp := rfl
@[simp] theorem State.upCoh_sec (s : State) (g : CohState → CohState) : (s.upCoh g).sec = s.sec := rfl
@[simp] theorem State.upCoh_car (s : State) (g : CohState → CohState) : (s.upCoh g).car = s.car := rfl
@[simp] theorem State.upCoh_pins (s : State) (g : CohState → CohState) : (s.upCoh g).pins = s.pins := rfl

/-! `State.upSec` -/
@[simp] theorem State.upSec_pending (s : State) (g : SecState → SecState) : (s.upSec g).pending = s.pending := rfl
@[simp] theorem State.upSec_regs (s : State) (g : SecState → SecState) : (s.upSec g).regs = s.regs := rfl
@[simp] theorem State.upSec_latches (s : State) (g : SecState → SecState) : (s.upSec g).latches = s.latches := rfl
@[simp] theorem State.upSec_hclk (s : State) (g : SecState → SecState) : (s.upSec g).hclk = s.hclk := rfl
@[simp] theorem State.upSec_tabor (s : State) (g : SecState → SecState) : (s.upSec g).tabor = s.tabor := rfl
@[simp] theorem State.upSec_nextFree (s : State) (g : SecState → SecState) : (s.upSec g).nextFree = s.nextFree := rfl
@[simp] theorem State.upSec_out (s : State) (g : SecState → SecState) : (s.upSec g).out = s.out := rfl
@[simp] theorem State.upSec_near (s : State) (g : SecState → SecState) : (s.upSec g).near = s.near := rfl
@[simp] theorem State.upSec_tray (s : State) (g : SecState → SecState) : (s.upSec g).tray = s.tray := rfl
@[simp] theorem State.upSec_host (s : State) (g : SecState → SecState) : (s.upSec g).host = s.host := rfl
@[simp] theorem State.upSec_img (s : State) (g : SecState → SecState) : (s.upSec g).img = s.img := rfl
@[simp] theorem State.upSec_cfg (s : State) (g : SecState → SecState) : (s.upSec g).cfg = s.cfg := rfl
@[simp] theorem State.upSec_meters (s : State) (g : SecState → SecState) : (s.upSec g).meters = s.meters := rfl
@[simp] theorem State.upSec_flt (s : State) (g : SecState → SecState) : (s.upSec g).flt = s.flt := rfl
@[simp] theorem State.upSec_pool (s : State) (g : SecState → SecState) : (s.upSec g).pool = s.pool := rfl
@[simp] theorem State.upSec_fab (s : State) (g : SecState → SecState) : (s.upSec g).fab = s.fab := rfl
@[simp] theorem State.upSec_cmd (s : State) (g : SecState → SecState) : (s.upSec g).cmd = s.cmd := rfl
@[simp] theorem State.upSec_xbr (s : State) (g : SecState → SecState) : (s.upSec g).xbr = s.xbr := rfl
@[simp] theorem State.upSec_shp (s : State) (g : SecState → SecState) : (s.upSec g).shp = s.shp := rfl
@[simp] theorem State.upSec_red (s : State) (g : SecState → SecState) : (s.upSec g).red = s.red := rfl
@[simp] theorem State.upSec_att (s : State) (g : SecState → SecState) : (s.upSec g).att = s.att := rfl
@[simp] theorem State.upSec_sqt (s : State) (g : SecState → SecState) : (s.upSec g).sqt = s.sqt := rfl
@[simp] theorem State.upSec_ckp (s : State) (g : SecState → SecState) : (s.upSec g).ckp = s.ckp := rfl
@[simp] theorem State.upSec_coh (s : State) (g : SecState → SecState) : (s.upSec g).coh = s.coh := rfl
@[simp] theorem State.upSec_car (s : State) (g : SecState → SecState) : (s.upSec g).car = s.car := rfl
@[simp] theorem State.upSec_pins (s : State) (g : SecState → SecState) : (s.upSec g).pins = s.pins := rfl

/-! `State.upCar` -/
@[simp] theorem State.upCar_pending (s : State) (g : CarState → CarState) : (s.upCar g).pending = s.pending := rfl
@[simp] theorem State.upCar_regs (s : State) (g : CarState → CarState) : (s.upCar g).regs = s.regs := rfl
@[simp] theorem State.upCar_latches (s : State) (g : CarState → CarState) : (s.upCar g).latches = s.latches := rfl
@[simp] theorem State.upCar_hclk (s : State) (g : CarState → CarState) : (s.upCar g).hclk = s.hclk := rfl
@[simp] theorem State.upCar_tabor (s : State) (g : CarState → CarState) : (s.upCar g).tabor = s.tabor := rfl
@[simp] theorem State.upCar_nextFree (s : State) (g : CarState → CarState) : (s.upCar g).nextFree = s.nextFree := rfl
@[simp] theorem State.upCar_out (s : State) (g : CarState → CarState) : (s.upCar g).out = s.out := rfl
@[simp] theorem State.upCar_near (s : State) (g : CarState → CarState) : (s.upCar g).near = s.near := rfl
@[simp] theorem State.upCar_tray (s : State) (g : CarState → CarState) : (s.upCar g).tray = s.tray := rfl
@[simp] theorem State.upCar_host (s : State) (g : CarState → CarState) : (s.upCar g).host = s.host := rfl
@[simp] theorem State.upCar_img (s : State) (g : CarState → CarState) : (s.upCar g).img = s.img := rfl
@[simp] theorem State.upCar_cfg (s : State) (g : CarState → CarState) : (s.upCar g).cfg = s.cfg := rfl
@[simp] theorem State.upCar_meters (s : State) (g : CarState → CarState) : (s.upCar g).meters = s.meters := rfl
@[simp] theorem State.upCar_flt (s : State) (g : CarState → CarState) : (s.upCar g).flt = s.flt := rfl
@[simp] theorem State.upCar_pool (s : State) (g : CarState → CarState) : (s.upCar g).pool = s.pool := rfl
@[simp] theorem State.upCar_fab (s : State) (g : CarState → CarState) : (s.upCar g).fab = s.fab := rfl
@[simp] theorem State.upCar_cmd (s : State) (g : CarState → CarState) : (s.upCar g).cmd = s.cmd := rfl
@[simp] theorem State.upCar_xbr (s : State) (g : CarState → CarState) : (s.upCar g).xbr = s.xbr := rfl
@[simp] theorem State.upCar_shp (s : State) (g : CarState → CarState) : (s.upCar g).shp = s.shp := rfl
@[simp] theorem State.upCar_red (s : State) (g : CarState → CarState) : (s.upCar g).red = s.red := rfl
@[simp] theorem State.upCar_att (s : State) (g : CarState → CarState) : (s.upCar g).att = s.att := rfl
@[simp] theorem State.upCar_sqt (s : State) (g : CarState → CarState) : (s.upCar g).sqt = s.sqt := rfl
@[simp] theorem State.upCar_ckp (s : State) (g : CarState → CarState) : (s.upCar g).ckp = s.ckp := rfl
@[simp] theorem State.upCar_coh (s : State) (g : CarState → CarState) : (s.upCar g).coh = s.coh := rfl
@[simp] theorem State.upCar_sec (s : State) (g : CarState → CarState) : (s.upCar g).sec = s.sec := rfl
@[simp] theorem State.upCar_pins (s : State) (g : CarState → CarState) : (s.upCar g).pins = s.pins := rfl

/-! `State.upFlt` -/
@[simp] theorem State.upFlt_pending (s : State) (g : FltState → FltState) : (s.upFlt g).pending = s.pending := rfl
@[simp] theorem State.upFlt_regs (s : State) (g : FltState → FltState) : (s.upFlt g).regs = s.regs := rfl
@[simp] theorem State.upFlt_latches (s : State) (g : FltState → FltState) : (s.upFlt g).latches = s.latches := rfl
@[simp] theorem State.upFlt_hclk (s : State) (g : FltState → FltState) : (s.upFlt g).hclk = s.hclk := rfl
@[simp] theorem State.upFlt_tabor (s : State) (g : FltState → FltState) : (s.upFlt g).tabor = s.tabor := rfl
@[simp] theorem State.upFlt_nextFree (s : State) (g : FltState → FltState) : (s.upFlt g).nextFree = s.nextFree := rfl
@[simp] theorem State.upFlt_out (s : State) (g : FltState → FltState) : (s.upFlt g).out = s.out := rfl
@[simp] theorem State.upFlt_near (s : State) (g : FltState → FltState) : (s.upFlt g).near = s.near := rfl
@[simp] theorem State.upFlt_tray (s : State) (g : FltState → FltState) : (s.upFlt g).tray = s.tray := rfl
@[simp] theorem State.upFlt_host (s : State) (g : FltState → FltState) : (s.upFlt g).host = s.host := rfl
@[simp] theorem State.upFlt_img (s : State) (g : FltState → FltState) : (s.upFlt g).img = s.img := rfl
@[simp] theorem State.upFlt_cfg (s : State) (g : FltState → FltState) : (s.upFlt g).cfg = s.cfg := rfl
@[simp] theorem State.upFlt_meters (s : State) (g : FltState → FltState) : (s.upFlt g).meters = s.meters := rfl
@[simp] theorem State.upFlt_pool (s : State) (g : FltState → FltState) : (s.upFlt g).pool = s.pool := rfl
@[simp] theorem State.upFlt_fab (s : State) (g : FltState → FltState) : (s.upFlt g).fab = s.fab := rfl
@[simp] theorem State.upFlt_cmd (s : State) (g : FltState → FltState) : (s.upFlt g).cmd = s.cmd := rfl
@[simp] theorem State.upFlt_xbr (s : State) (g : FltState → FltState) : (s.upFlt g).xbr = s.xbr := rfl
@[simp] theorem State.upFlt_shp (s : State) (g : FltState → FltState) : (s.upFlt g).shp = s.shp := rfl
@[simp] theorem State.upFlt_red (s : State) (g : FltState → FltState) : (s.upFlt g).red = s.red := rfl
@[simp] theorem State.upFlt_att (s : State) (g : FltState → FltState) : (s.upFlt g).att = s.att := rfl
@[simp] theorem State.upFlt_sqt (s : State) (g : FltState → FltState) : (s.upFlt g).sqt = s.sqt := rfl
@[simp] theorem State.upFlt_ckp (s : State) (g : FltState → FltState) : (s.upFlt g).ckp = s.ckp := rfl
@[simp] theorem State.upFlt_coh (s : State) (g : FltState → FltState) : (s.upFlt g).coh = s.coh := rfl
@[simp] theorem State.upFlt_sec (s : State) (g : FltState → FltState) : (s.upFlt g).sec = s.sec := rfl
@[simp] theorem State.upFlt_car (s : State) (g : FltState → FltState) : (s.upFlt g).car = s.car := rfl
@[simp] theorem State.upFlt_pins (s : State) (g : FltState → FltState) : (s.upFlt g).pins = s.pins := rfl

/-! `State.upImg` -/
@[simp] theorem State.upImg_pending (s : State) (g : ImageState → ImageState) : (s.upImg g).pending = s.pending := rfl
@[simp] theorem State.upImg_regs (s : State) (g : ImageState → ImageState) : (s.upImg g).regs = s.regs := rfl
@[simp] theorem State.upImg_latches (s : State) (g : ImageState → ImageState) : (s.upImg g).latches = s.latches := rfl
@[simp] theorem State.upImg_hclk (s : State) (g : ImageState → ImageState) : (s.upImg g).hclk = s.hclk := rfl
@[simp] theorem State.upImg_tabor (s : State) (g : ImageState → ImageState) : (s.upImg g).tabor = s.tabor := rfl
@[simp] theorem State.upImg_nextFree (s : State) (g : ImageState → ImageState) : (s.upImg g).nextFree = s.nextFree := rfl
@[simp] theorem State.upImg_out (s : State) (g : ImageState → ImageState) : (s.upImg g).out = s.out := rfl
@[simp] theorem State.upImg_near (s : State) (g : ImageState → ImageState) : (s.upImg g).near = s.near := rfl
@[simp] theorem State.upImg_tray (s : State) (g : ImageState → ImageState) : (s.upImg g).tray = s.tray := rfl
@[simp] theorem State.upImg_host (s : State) (g : ImageState → ImageState) : (s.upImg g).host = s.host := rfl
@[simp] theorem State.upImg_cfg (s : State) (g : ImageState → ImageState) : (s.upImg g).cfg = s.cfg := rfl
@[simp] theorem State.upImg_meters (s : State) (g : ImageState → ImageState) : (s.upImg g).meters = s.meters := rfl
@[simp] theorem State.upImg_flt (s : State) (g : ImageState → ImageState) : (s.upImg g).flt = s.flt := rfl
@[simp] theorem State.upImg_pool (s : State) (g : ImageState → ImageState) : (s.upImg g).pool = s.pool := rfl
@[simp] theorem State.upImg_fab (s : State) (g : ImageState → ImageState) : (s.upImg g).fab = s.fab := rfl
@[simp] theorem State.upImg_cmd (s : State) (g : ImageState → ImageState) : (s.upImg g).cmd = s.cmd := rfl
@[simp] theorem State.upImg_xbr (s : State) (g : ImageState → ImageState) : (s.upImg g).xbr = s.xbr := rfl
@[simp] theorem State.upImg_shp (s : State) (g : ImageState → ImageState) : (s.upImg g).shp = s.shp := rfl
@[simp] theorem State.upImg_red (s : State) (g : ImageState → ImageState) : (s.upImg g).red = s.red := rfl
@[simp] theorem State.upImg_att (s : State) (g : ImageState → ImageState) : (s.upImg g).att = s.att := rfl
@[simp] theorem State.upImg_sqt (s : State) (g : ImageState → ImageState) : (s.upImg g).sqt = s.sqt := rfl
@[simp] theorem State.upImg_ckp (s : State) (g : ImageState → ImageState) : (s.upImg g).ckp = s.ckp := rfl
@[simp] theorem State.upImg_coh (s : State) (g : ImageState → ImageState) : (s.upImg g).coh = s.coh := rfl
@[simp] theorem State.upImg_sec (s : State) (g : ImageState → ImageState) : (s.upImg g).sec = s.sec := rfl
@[simp] theorem State.upImg_car (s : State) (g : ImageState → ImageState) : (s.upImg g).car = s.car := rfl
@[simp] theorem State.upImg_pins (s : State) (g : ImageState → ImageState) : (s.upImg g).pins = s.pins := rfl

/-! `State.upFw` -/
@[simp] theorem State.upFw_pending (s : State) (g : FwState → FwState) : (s.upFw g).pending = s.pending := rfl
@[simp] theorem State.upFw_regs (s : State) (g : FwState → FwState) : (s.upFw g).regs = s.regs := rfl
@[simp] theorem State.upFw_latches (s : State) (g : FwState → FwState) : (s.upFw g).latches = s.latches := rfl
@[simp] theorem State.upFw_hclk (s : State) (g : FwState → FwState) : (s.upFw g).hclk = s.hclk := rfl
@[simp] theorem State.upFw_tabor (s : State) (g : FwState → FwState) : (s.upFw g).tabor = s.tabor := rfl
@[simp] theorem State.upFw_nextFree (s : State) (g : FwState → FwState) : (s.upFw g).nextFree = s.nextFree := rfl
@[simp] theorem State.upFw_out (s : State) (g : FwState → FwState) : (s.upFw g).out = s.out := rfl
@[simp] theorem State.upFw_near (s : State) (g : FwState → FwState) : (s.upFw g).near = s.near := rfl
@[simp] theorem State.upFw_tray (s : State) (g : FwState → FwState) : (s.upFw g).tray = s.tray := rfl
@[simp] theorem State.upFw_host (s : State) (g : FwState → FwState) : (s.upFw g).host = s.host := rfl
@[simp] theorem State.upFw_img (s : State) (g : FwState → FwState) : (s.upFw g).img = s.img := rfl
@[simp] theorem State.upFw_cfg (s : State) (g : FwState → FwState) : (s.upFw g).cfg = s.cfg := rfl
@[simp] theorem State.upFw_meters (s : State) (g : FwState → FwState) : (s.upFw g).meters = s.meters := rfl
@[simp] theorem State.upFw_flt (s : State) (g : FwState → FwState) : (s.upFw g).flt = s.flt := rfl
@[simp] theorem State.upFw_pool (s : State) (g : FwState → FwState) : (s.upFw g).pool = s.pool := rfl
@[simp] theorem State.upFw_fab (s : State) (g : FwState → FwState) : (s.upFw g).fab = s.fab := rfl
@[simp] theorem State.upFw_cmd (s : State) (g : FwState → FwState) : (s.upFw g).cmd = s.cmd := rfl
@[simp] theorem State.upFw_xbr (s : State) (g : FwState → FwState) : (s.upFw g).xbr = s.xbr := rfl
@[simp] theorem State.upFw_shp (s : State) (g : FwState → FwState) : (s.upFw g).shp = s.shp := rfl
@[simp] theorem State.upFw_red (s : State) (g : FwState → FwState) : (s.upFw g).red = s.red := rfl
@[simp] theorem State.upFw_att (s : State) (g : FwState → FwState) : (s.upFw g).att = s.att := rfl
@[simp] theorem State.upFw_sqt (s : State) (g : FwState → FwState) : (s.upFw g).sqt = s.sqt := rfl
@[simp] theorem State.upFw_ckp (s : State) (g : FwState → FwState) : (s.upFw g).ckp = s.ckp := rfl
@[simp] theorem State.upFw_coh (s : State) (g : FwState → FwState) : (s.upFw g).coh = s.coh := rfl
@[simp] theorem State.upFw_sec (s : State) (g : FwState → FwState) : (s.upFw g).sec = s.sec := rfl
@[simp] theorem State.upFw_pins (s : State) (g : FwState → FwState) : (s.upFw g).pins = s.pins := rfl

/-! `State.upPort` -/
@[simp] theorem State.upPort_pending (s : State) (p : Nat) (g : PortState → PortState) : (s.upPort p g).pending = s.pending := rfl
@[simp] theorem State.upPort_regs (s : State) (p : Nat) (g : PortState → PortState) : (s.upPort p g).regs = s.regs := rfl
@[simp] theorem State.upPort_latches (s : State) (p : Nat) (g : PortState → PortState) : (s.upPort p g).latches = s.latches := rfl
@[simp] theorem State.upPort_hclk (s : State) (p : Nat) (g : PortState → PortState) : (s.upPort p g).hclk = s.hclk := rfl
@[simp] theorem State.upPort_tabor (s : State) (p : Nat) (g : PortState → PortState) : (s.upPort p g).tabor = s.tabor := rfl
@[simp] theorem State.upPort_nextFree (s : State) (p : Nat) (g : PortState → PortState) : (s.upPort p g).nextFree = s.nextFree := rfl
@[simp] theorem State.upPort_out (s : State) (p : Nat) (g : PortState → PortState) : (s.upPort p g).out = s.out := rfl
@[simp] theorem State.upPort_near (s : State) (p : Nat) (g : PortState → PortState) : (s.upPort p g).near = s.near := rfl
@[simp] theorem State.upPort_tray (s : State) (p : Nat) (g : PortState → PortState) : (s.upPort p g).tray = s.tray := rfl
@[simp] theorem State.upPort_host (s : State) (p : Nat) (g : PortState → PortState) : (s.upPort p g).host = s.host := rfl
@[simp] theorem State.upPort_img (s : State) (p : Nat) (g : PortState → PortState) : (s.upPort p g).img = s.img := rfl
@[simp] theorem State.upPort_cfg (s : State) (p : Nat) (g : PortState → PortState) : (s.upPort p g).cfg = s.cfg := rfl
@[simp] theorem State.upPort_meters (s : State) (p : Nat) (g : PortState → PortState) : (s.upPort p g).meters = s.meters := rfl
@[simp] theorem State.upPort_flt (s : State) (p : Nat) (g : PortState → PortState) : (s.upPort p g).flt = s.flt := rfl
@[simp] theorem State.upPort_pool (s : State) (p : Nat) (g : PortState → PortState) : (s.upPort p g).pool = s.pool := rfl
@[simp] theorem State.upPort_cmd (s : State) (p : Nat) (g : PortState → PortState) : (s.upPort p g).cmd = s.cmd := rfl
@[simp] theorem State.upPort_xbr (s : State) (p : Nat) (g : PortState → PortState) : (s.upPort p g).xbr = s.xbr := rfl
@[simp] theorem State.upPort_shp (s : State) (p : Nat) (g : PortState → PortState) : (s.upPort p g).shp = s.shp := rfl
@[simp] theorem State.upPort_red (s : State) (p : Nat) (g : PortState → PortState) : (s.upPort p g).red = s.red := rfl
@[simp] theorem State.upPort_att (s : State) (p : Nat) (g : PortState → PortState) : (s.upPort p g).att = s.att := rfl
@[simp] theorem State.upPort_sqt (s : State) (p : Nat) (g : PortState → PortState) : (s.upPort p g).sqt = s.sqt := rfl
@[simp] theorem State.upPort_ckp (s : State) (p : Nat) (g : PortState → PortState) : (s.upPort p g).ckp = s.ckp := rfl
@[simp] theorem State.upPort_coh (s : State) (p : Nat) (g : PortState → PortState) : (s.upPort p g).coh = s.coh := rfl
@[simp] theorem State.upPort_sec (s : State) (p : Nat) (g : PortState → PortState) : (s.upPort p g).sec = s.sec := rfl
@[simp] theorem State.upPort_car (s : State) (p : Nat) (g : PortState → PortState) : (s.upPort p g).car = s.car := rfl
@[simp] theorem State.upPort_pins (s : State) (p : Nat) (g : PortState → PortState) : (s.upPort p g).pins = s.pins := rfl

/-! `State.upSp` -/
@[simp] theorem State.upSp_pending (s : State) (p : Nat) (g : ShpPort → ShpPort) : (s.upSp p g).pending = s.pending := rfl
@[simp] theorem State.upSp_regs (s : State) (p : Nat) (g : ShpPort → ShpPort) : (s.upSp p g).regs = s.regs := rfl
@[simp] theorem State.upSp_latches (s : State) (p : Nat) (g : ShpPort → ShpPort) : (s.upSp p g).latches = s.latches := rfl
@[simp] theorem State.upSp_hclk (s : State) (p : Nat) (g : ShpPort → ShpPort) : (s.upSp p g).hclk = s.hclk := rfl
@[simp] theorem State.upSp_tabor (s : State) (p : Nat) (g : ShpPort → ShpPort) : (s.upSp p g).tabor = s.tabor := rfl
@[simp] theorem State.upSp_nextFree (s : State) (p : Nat) (g : ShpPort → ShpPort) : (s.upSp p g).nextFree = s.nextFree := rfl
@[simp] theorem State.upSp_out (s : State) (p : Nat) (g : ShpPort → ShpPort) : (s.upSp p g).out = s.out := rfl
@[simp] theorem State.upSp_near (s : State) (p : Nat) (g : ShpPort → ShpPort) : (s.upSp p g).near = s.near := rfl
@[simp] theorem State.upSp_tray (s : State) (p : Nat) (g : ShpPort → ShpPort) : (s.upSp p g).tray = s.tray := rfl
@[simp] theorem State.upSp_host (s : State) (p : Nat) (g : ShpPort → ShpPort) : (s.upSp p g).host = s.host := rfl
@[simp] theorem State.upSp_img (s : State) (p : Nat) (g : ShpPort → ShpPort) : (s.upSp p g).img = s.img := rfl
@[simp] theorem State.upSp_cfg (s : State) (p : Nat) (g : ShpPort → ShpPort) : (s.upSp p g).cfg = s.cfg := rfl
@[simp] theorem State.upSp_meters (s : State) (p : Nat) (g : ShpPort → ShpPort) : (s.upSp p g).meters = s.meters := rfl
@[simp] theorem State.upSp_flt (s : State) (p : Nat) (g : ShpPort → ShpPort) : (s.upSp p g).flt = s.flt := rfl
@[simp] theorem State.upSp_pool (s : State) (p : Nat) (g : ShpPort → ShpPort) : (s.upSp p g).pool = s.pool := rfl
@[simp] theorem State.upSp_fab (s : State) (p : Nat) (g : ShpPort → ShpPort) : (s.upSp p g).fab = s.fab := rfl
@[simp] theorem State.upSp_cmd (s : State) (p : Nat) (g : ShpPort → ShpPort) : (s.upSp p g).cmd = s.cmd := rfl
@[simp] theorem State.upSp_xbr (s : State) (p : Nat) (g : ShpPort → ShpPort) : (s.upSp p g).xbr = s.xbr := rfl
@[simp] theorem State.upSp_red (s : State) (p : Nat) (g : ShpPort → ShpPort) : (s.upSp p g).red = s.red := rfl
@[simp] theorem State.upSp_att (s : State) (p : Nat) (g : ShpPort → ShpPort) : (s.upSp p g).att = s.att := rfl
@[simp] theorem State.upSp_sqt (s : State) (p : Nat) (g : ShpPort → ShpPort) : (s.upSp p g).sqt = s.sqt := rfl
@[simp] theorem State.upSp_ckp (s : State) (p : Nat) (g : ShpPort → ShpPort) : (s.upSp p g).ckp = s.ckp := rfl
@[simp] theorem State.upSp_coh (s : State) (p : Nat) (g : ShpPort → ShpPort) : (s.upSp p g).coh = s.coh := rfl
@[simp] theorem State.upSp_sec (s : State) (p : Nat) (g : ShpPort → ShpPort) : (s.upSp p g).sec = s.sec := rfl
@[simp] theorem State.upSp_car (s : State) (p : Nat) (g : ShpPort → ShpPort) : (s.upSp p g).car = s.car := rfl
@[simp] theorem State.upSp_pins (s : State) (p : Nat) (g : ShpPort → ShpPort) : (s.upSp p g).pins = s.pins := rfl

@[simp] theorem State.upPool_pool (s : State) (g : PoolState → PoolState) : (s.upPool g).pool = g s.pool := rfl
@[simp] theorem State.upFab_fab (s : State) (g : FabState → FabState) : (s.upFab g).fab = g s.fab := rfl
@[simp] theorem State.upCmd_cmd (s : State) (g : CmdState → CmdState) : (s.upCmd g).cmd = g s.cmd := rfl
@[simp] theorem State.upXbr_xbr (s : State) (g : XbrState → XbrState) : (s.upXbr g).xbr = g s.xbr := rfl
@[simp] theorem State.upShp_shp (s : State) (g : ShpState → ShpState) : (s.upShp g).shp = g s.shp := rfl
@[simp] theorem State.upRed_red (s : State) (g : RedState → RedState) : (s.upRed g).red = g s.red := rfl
@[simp] theorem State.upAtt_att (s : State) (g : AttState → AttState) : (s.upAtt g).att = g s.att := rfl
@[simp] theorem State.upSqt_sqt (s : State) (g : SqtState → SqtState) : (s.upSqt g).sqt = g s.sqt := rfl
@[simp] theorem State.upCkp_ckp (s : State) (g : CkpState → CkpState) : (s.upCkp g).ckp = g s.ckp := rfl
@[simp] theorem State.upCoh_coh (s : State) (g : CohState → CohState) : (s.upCoh g).coh = g s.coh := rfl
@[simp] theorem State.upSec_sec (s : State) (g : SecState → SecState) : (s.upSec g).sec = g s.sec := rfl
@[simp] theorem State.upCar_car (s : State) (g : CarState → CarState) : (s.upCar g).car = g s.car := rfl
@[simp] theorem State.upFlt_flt (s : State) (g : FltState → FltState) : (s.upFlt g).flt = g s.flt := rfl
@[simp] theorem State.upImg_img (s : State) (g : ImageState → ImageState) : (s.upImg g).img = g s.img := rfl
@[simp] theorem State.emit_out (s : State) (m : OutMsg) : (s.emit m).out = s.out ++ [m] := rfl

/-! Operations that may leave the state as it is. -/
@[simp] theorem State.raise_pending (s : State) (f : Fld) (v i j : Nat) : (s.raise f v i j).pending = s.pending := by
  unfold State.raise
  dsimp only
  split <;> rfl
@[simp] theorem State.raise_latches (s : State) (f : Fld) (v i j : Nat) : (s.raise f v i j).latches = s.latches := by
  unfold State.raise
  dsimp only
  split <;> rfl
@[simp] theorem State.raise_hclk (s : State) (f : Fld) (v i j : Nat) : (s.raise f v i j).hclk = s.hclk := by
  unfold State.raise
  dsimp only
  split <;> rfl
@[simp] theorem State.raise_tabor (s : State) (f : Fld) (v i j : Nat) : (s.raise f v i j).tabor = s.tabor := by
  unfold State.raise
  dsimp only
  split <;> rfl
@[simp] theorem State.raise_nextFree (s : State) (f : Fld) (v i j : Nat) : (s.raise f v i j).nextFree = s.nextFree := by
  unfold State.raise
  dsimp only
  split <;> rfl
@[simp] theorem State.raise_out (s : State) (f : Fld) (v i j : Nat) : (s.raise f v i j).out = s.out := by
  unfold State.raise
  dsimp only
  split <;> rfl
@[simp] theorem State.raise_near (s : State) (f : Fld) (v i j : Nat) : (s.raise f v i j).near = s.near := by
  unfold State.raise
  dsimp only
  split <;> rfl
@[simp] theorem State.raise_tray (s : State) (f : Fld) (v i j : Nat) : (s.raise f v i j).tray = s.tray := by
  unfold State.raise
  dsimp only
  split <;> rfl
@[simp] theorem State.raise_host (s : State) (f : Fld) (v i j : Nat) : (s.raise f v i j).host = s.host := by
  unfold State.raise
  dsimp only
  split <;> rfl
@[simp] theorem State.raise_img (s : State) (f : Fld) (v i j : Nat) : (s.raise f v i j).img = s.img := by
  unfold State.raise
  dsimp only
  split <;> rfl
@[simp] theorem State.raise_cfg (s : State) (f : Fld) (v i j : Nat) : (s.raise f v i j).cfg = s.cfg := by
  unfold State.raise
  dsimp only
  split <;> rfl
@[simp] theorem State.raise_meters (s : State) (f : Fld) (v i j : Nat) : (s.raise f v i j).meters = s.meters := by
  unfold State.raise
  dsimp only
  split <;> rfl
@[simp] theorem State.raise_flt (s : State) (f : Fld) (v i j : Nat) : (s.raise f v i j).flt = s.flt := by
  unfold State.raise
  dsimp only
  split <;> rfl
@[simp] theorem State.raise_pool (s : State) (f : Fld) (v i j : Nat) : (s.raise f v i j).pool = s.pool := by
  unfold State.raise
  dsimp only
  split <;> rfl
@[simp] theorem State.raise_fab (s : State) (f : Fld) (v i j : Nat) : (s.raise f v i j).fab = s.fab := by
  unfold State.raise
  dsimp only
  split <;> rfl
@[simp] theorem State.raise_cmd (s : State) (f : Fld) (v i j : Nat) : (s.raise f v i j).cmd = s.cmd := by
  unfold State.raise
  dsimp only
  split <;> rfl
@[simp] theorem State.raise_xbr (s : State) (f : Fld) (v i j : Nat) : (s.raise f v i j).xbr = s.xbr := by
  unfold State.raise
  dsimp only
  split <;> rfl
@[simp] theorem State.raise_shp (s : State) (f : Fld) (v i j : Nat) : (s.raise f v i j).shp = s.shp := by
  unfold State.raise
  dsimp only
  split <;> rfl
@[simp] theorem State.raise_red (s : State) (f : Fld) (v i j : Nat) : (s.raise f v i j).red = s.red := by
  unfold State.raise
  dsimp only
  split <;> rfl
@[simp] theorem State.raise_att (s : State) (f : Fld) (v i j : Nat) : (s.raise f v i j).att = s.att := by
  unfold State.raise
  dsimp only
  split <;> rfl
@[simp] theorem State.raise_sqt (s : State) (f : Fld) (v i j : Nat) : (s.raise f v i j).sqt = s.sqt := by
  unfold State.raise
  dsimp only
  split <;> rfl
@[simp] theorem State.raise_ckp (s : State) (f : Fld) (v i j : Nat) : (s.raise f v i j).ckp = s.ckp := by
  unfold State.raise
  dsimp only
  split <;> rfl
@[simp] theorem State.raise_coh (s : State) (f : Fld) (v i j : Nat) : (s.raise f v i j).coh = s.coh := by
  unfold State.raise
  dsimp only
  split <;> rfl
@[simp] theorem State.raise_sec (s : State) (f : Fld) (v i j : Nat) : (s.raise f v i j).sec = s.sec := by
  unfold State.raise
  dsimp only
  split <;> rfl
@[simp] theorem State.raise_car (s : State) (f : Fld) (v i j : Nat) : (s.raise f v i j).car = s.car := by
  unfold State.raise
  dsimp only
  split <;> rfl
@[simp] theorem State.raise_pins (s : State) (f : Fld) (v i j : Nat) : (s.raise f v i j).pins = s.pins := by
  unfold State.raise
  dsimp only
  split <;> rfl
@[simp] theorem State.measure_pending (s : State) (w : Wm) (q i j : Nat) : (s.measure w q i j).pending = s.pending := by
  unfold State.measure
  dsimp only
  split
  · rfl
  · split <;> rfl
@[simp] theorem State.measure_latches (s : State) (w : Wm) (q i j : Nat) : (s.measure w q i j).latches = s.latches := by
  unfold State.measure
  dsimp only
  split
  · rfl
  · split <;> rfl
@[simp] theorem State.measure_hclk (s : State) (w : Wm) (q i j : Nat) : (s.measure w q i j).hclk = s.hclk := by
  unfold State.measure
  dsimp only
  split
  · rfl
  · split <;> rfl
@[simp] theorem State.measure_tabor (s : State) (w : Wm) (q i j : Nat) : (s.measure w q i j).tabor = s.tabor := by
  unfold State.measure
  dsimp only
  split
  · rfl
  · split <;> rfl
@[simp] theorem State.measure_nextFree (s : State) (w : Wm) (q i j : Nat) : (s.measure w q i j).nextFree = s.nextFree := by
  unfold State.measure
  dsimp only
  split
  · rfl
  · split <;> rfl
@[simp] theorem State.measure_out (s : State) (w : Wm) (q i j : Nat) : (s.measure w q i j).out = s.out := by
  unfold State.measure
  dsimp only
  split
  · rfl
  · split <;> rfl
@[simp] theorem State.measure_near (s : State) (w : Wm) (q i j : Nat) : (s.measure w q i j).near = s.near := by
  unfold State.measure
  dsimp only
  split
  · rfl
  · split <;> rfl
@[simp] theorem State.measure_tray (s : State) (w : Wm) (q i j : Nat) : (s.measure w q i j).tray = s.tray := by
  unfold State.measure
  dsimp only
  split
  · rfl
  · split <;> rfl
@[simp] theorem State.measure_host (s : State) (w : Wm) (q i j : Nat) : (s.measure w q i j).host = s.host := by
  unfold State.measure
  dsimp only
  split
  · rfl
  · split <;> rfl
@[simp] theorem State.measure_img (s : State) (w : Wm) (q i j : Nat) : (s.measure w q i j).img = s.img := by
  unfold State.measure
  dsimp only
  split
  · rfl
  · split <;> rfl
@[simp] theorem State.measure_cfg (s : State) (w : Wm) (q i j : Nat) : (s.measure w q i j).cfg = s.cfg := by
  unfold State.measure
  dsimp only
  split
  · rfl
  · split <;> rfl
@[simp] theorem State.measure_meters (s : State) (w : Wm) (q i j : Nat) : (s.measure w q i j).meters = s.meters := by
  unfold State.measure
  dsimp only
  split
  · rfl
  · split <;> rfl
@[simp] theorem State.measure_flt (s : State) (w : Wm) (q i j : Nat) : (s.measure w q i j).flt = s.flt := by
  unfold State.measure
  dsimp only
  split
  · rfl
  · split <;> rfl
@[simp] theorem State.measure_pool (s : State) (w : Wm) (q i j : Nat) : (s.measure w q i j).pool = s.pool := by
  unfold State.measure
  dsimp only
  split
  · rfl
  · split <;> rfl
@[simp] theorem State.measure_fab (s : State) (w : Wm) (q i j : Nat) : (s.measure w q i j).fab = s.fab := by
  unfold State.measure
  dsimp only
  split
  · rfl
  · split <;> rfl
@[simp] theorem State.measure_cmd (s : State) (w : Wm) (q i j : Nat) : (s.measure w q i j).cmd = s.cmd := by
  unfold State.measure
  dsimp only
  split
  · rfl
  · split <;> rfl
@[simp] theorem State.measure_xbr (s : State) (w : Wm) (q i j : Nat) : (s.measure w q i j).xbr = s.xbr := by
  unfold State.measure
  dsimp only
  split
  · rfl
  · split <;> rfl
@[simp] theorem State.measure_shp (s : State) (w : Wm) (q i j : Nat) : (s.measure w q i j).shp = s.shp := by
  unfold State.measure
  dsimp only
  split
  · rfl
  · split <;> rfl
@[simp] theorem State.measure_red (s : State) (w : Wm) (q i j : Nat) : (s.measure w q i j).red = s.red := by
  unfold State.measure
  dsimp only
  split
  · rfl
  · split <;> rfl
@[simp] theorem State.measure_att (s : State) (w : Wm) (q i j : Nat) : (s.measure w q i j).att = s.att := by
  unfold State.measure
  dsimp only
  split
  · rfl
  · split <;> rfl
@[simp] theorem State.measure_sqt (s : State) (w : Wm) (q i j : Nat) : (s.measure w q i j).sqt = s.sqt := by
  unfold State.measure
  dsimp only
  split
  · rfl
  · split <;> rfl
@[simp] theorem State.measure_ckp (s : State) (w : Wm) (q i j : Nat) : (s.measure w q i j).ckp = s.ckp := by
  unfold State.measure
  dsimp only
  split
  · rfl
  · split <;> rfl
@[simp] theorem State.measure_coh (s : State) (w : Wm) (q i j : Nat) : (s.measure w q i j).coh = s.coh := by
  unfold State.measure
  dsimp only
  split
  · rfl
  · split <;> rfl
@[simp] theorem State.measure_sec (s : State) (w : Wm) (q i j : Nat) : (s.measure w q i j).sec = s.sec := by
  unfold State.measure
  dsimp only
  split
  · rfl
  · split <;> rfl
@[simp] theorem State.measure_car (s : State) (w : Wm) (q i j : Nat) : (s.measure w q i j).car = s.car := by
  unfold State.measure
  dsimp only
  split
  · rfl
  · split <;> rfl
@[simp] theorem State.measure_pins (s : State) (w : Wm) (q i j : Nat) : (s.measure w q i j).pins = s.pins := by
  unfold State.measure
  dsimp only
  split
  · rfl
  · split <;> rfl
@[simp] theorem State.drive_pending (s : State) (n level : Nat) : (s.drive n level).pending = s.pending := by
  unfold State.drive
  split <;> rfl
@[simp] theorem State.drive_regs (s : State) (n level : Nat) : (s.drive n level).regs = s.regs := by
  unfold State.drive
  split <;> rfl
@[simp] theorem State.drive_latches (s : State) (n level : Nat) : (s.drive n level).latches = s.latches := by
  unfold State.drive
  split <;> rfl
@[simp] theorem State.drive_hclk (s : State) (n level : Nat) : (s.drive n level).hclk = s.hclk := by
  unfold State.drive
  split <;> rfl
@[simp] theorem State.drive_tabor (s : State) (n level : Nat) : (s.drive n level).tabor = s.tabor := by
  unfold State.drive
  split <;> rfl
@[simp] theorem State.drive_nextFree (s : State) (n level : Nat) : (s.drive n level).nextFree = s.nextFree := by
  unfold State.drive
  split <;> rfl
@[simp] theorem State.drive_near (s : State) (n level : Nat) : (s.drive n level).near = s.near := by
  unfold State.drive
  split <;> rfl
@[simp] theorem State.drive_tray (s : State) (n level : Nat) : (s.drive n level).tray = s.tray := by
  unfold State.drive
  split <;> rfl
@[simp] theorem State.drive_host (s : State) (n level : Nat) : (s.drive n level).host = s.host := by
  unfold State.drive
  split <;> rfl
@[simp] theorem State.drive_img (s : State) (n level : Nat) : (s.drive n level).img = s.img := by
  unfold State.drive
  split <;> rfl
@[simp] theorem State.drive_cfg (s : State) (n level : Nat) : (s.drive n level).cfg = s.cfg := by
  unfold State.drive
  split <;> rfl
@[simp] theorem State.drive_meters (s : State) (n level : Nat) : (s.drive n level).meters = s.meters := by
  unfold State.drive
  split <;> rfl
@[simp] theorem State.drive_flt (s : State) (n level : Nat) : (s.drive n level).flt = s.flt := by
  unfold State.drive
  split <;> rfl
@[simp] theorem State.drive_pool (s : State) (n level : Nat) : (s.drive n level).pool = s.pool := by
  unfold State.drive
  split <;> rfl
@[simp] theorem State.drive_fab (s : State) (n level : Nat) : (s.drive n level).fab = s.fab := by
  unfold State.drive
  split <;> rfl
@[simp] theorem State.drive_cmd (s : State) (n level : Nat) : (s.drive n level).cmd = s.cmd := by
  unfold State.drive
  split <;> rfl
@[simp] theorem State.drive_xbr (s : State) (n level : Nat) : (s.drive n level).xbr = s.xbr := by
  unfold State.drive
  split <;> rfl
@[simp] theorem State.drive_shp (s : State) (n level : Nat) : (s.drive n level).shp = s.shp := by
  unfold State.drive
  split <;> rfl
@[simp] theorem State.drive_red (s : State) (n level : Nat) : (s.drive n level).red = s.red := by
  unfold State.drive
  split <;> rfl
@[simp] theorem State.drive_att (s : State) (n level : Nat) : (s.drive n level).att = s.att := by
  unfold State.drive
  split <;> rfl
@[simp] theorem State.drive_sqt (s : State) (n level : Nat) : (s.drive n level).sqt = s.sqt := by
  unfold State.drive
  split <;> rfl
@[simp] theorem State.drive_ckp (s : State) (n level : Nat) : (s.drive n level).ckp = s.ckp := by
  unfold State.drive
  split <;> rfl
@[simp] theorem State.drive_coh (s : State) (n level : Nat) : (s.drive n level).coh = s.coh := by
  unfold State.drive
  split <;> rfl
@[simp] theorem State.drive_sec (s : State) (n level : Nat) : (s.drive n level).sec = s.sec := by
  unfold State.drive
  split <;> rfl
@[simp] theorem State.drive_car (s : State) (n level : Nat) : (s.drive n level).car = s.car := by
  unfold State.drive
  split <;> rfl
@[simp] theorem State.writeTier_pending (s : State) (tier a : Nat) (d : Bytes) : (s.writeTier tier a d).pending = s.pending := by
  unfold State.writeTier
  split
  · rfl
  · split <;> rfl
@[simp] theorem State.writeTier_regs (s : State) (tier a : Nat) (d : Bytes) : (s.writeTier tier a d).regs = s.regs := by
  unfold State.writeTier
  split
  · rfl
  · split <;> rfl
@[simp] theorem State.writeTier_latches (s : State) (tier a : Nat) (d : Bytes) : (s.writeTier tier a d).latches = s.latches := by
  unfold State.writeTier
  split
  · rfl
  · split <;> rfl
@[simp] theorem State.writeTier_hclk (s : State) (tier a : Nat) (d : Bytes) : (s.writeTier tier a d).hclk = s.hclk := by
  unfold State.writeTier
  split
  · rfl
  · split <;> rfl
@[simp] theorem State.writeTier_tabor (s : State) (tier a : Nat) (d : Bytes) : (s.writeTier tier a d).tabor = s.tabor := by
  unfold State.writeTier
  split
  · rfl
  · split <;> rfl
@[simp] theorem State.writeTier_nextFree (s : State) (tier a : Nat) (d : Bytes) : (s.writeTier tier a d).nextFree = s.nextFree := by
  unfold State.writeTier
  split
  · rfl
  · split <;> rfl
@[simp] theorem State.writeTier_out (s : State) (tier a : Nat) (d : Bytes) : (s.writeTier tier a d).out = s.out := by
  unfold State.writeTier
  split
  · rfl
  · split <;> rfl
@[simp] theorem State.writeTier_img (s : State) (tier a : Nat) (d : Bytes) : (s.writeTier tier a d).img = s.img := by
  unfold State.writeTier
  split
  · rfl
  · split <;> rfl
@[simp] theorem State.writeTier_cfg (s : State) (tier a : Nat) (d : Bytes) : (s.writeTier tier a d).cfg = s.cfg := by
  unfold State.writeTier
  split
  · rfl
  · split <;> rfl
@[simp] theorem State.writeTier_meters (s : State) (tier a : Nat) (d : Bytes) : (s.writeTier tier a d).meters = s.meters := by
  unfold State.writeTier
  split
  · rfl
  · split <;> rfl
@[simp] theorem State.writeTier_flt (s : State) (tier a : Nat) (d : Bytes) : (s.writeTier tier a d).flt = s.flt := by
  unfold State.writeTier
  split
  · rfl
  · split <;> rfl
@[simp] theorem State.writeTier_pool (s : State) (tier a : Nat) (d : Bytes) : (s.writeTier tier a d).pool = s.pool := by
  unfold State.writeTier
  split
  · rfl
  · split <;> rfl
@[simp] theorem State.writeTier_fab (s : State) (tier a : Nat) (d : Bytes) : (s.writeTier tier a d).fab = s.fab := by
  unfold State.writeTier
  split
  · rfl
  · split <;> rfl
@[simp] theorem State.writeTier_cmd (s : State) (tier a : Nat) (d : Bytes) : (s.writeTier tier a d).cmd = s.cmd := by
  unfold State.writeTier
  split
  · rfl
  · split <;> rfl
@[simp] theorem State.writeTier_xbr (s : State) (tier a : Nat) (d : Bytes) : (s.writeTier tier a d).xbr = s.xbr := by
  unfold State.writeTier
  split
  · rfl
  · split <;> rfl
@[simp] theorem State.writeTier_shp (s : State) (tier a : Nat) (d : Bytes) : (s.writeTier tier a d).shp = s.shp := by
  unfold State.writeTier
  split
  · rfl
  · split <;> rfl
@[simp] theorem State.writeTier_red (s : State) (tier a : Nat) (d : Bytes) : (s.writeTier tier a d).red = s.red := by
  unfold State.writeTier
  split
  · rfl
  · split <;> rfl
@[simp] theorem State.writeTier_att (s : State) (tier a : Nat) (d : Bytes) : (s.writeTier tier a d).att = s.att := by
  unfold State.writeTier
  split
  · rfl
  · split <;> rfl
@[simp] theorem State.writeTier_sqt (s : State) (tier a : Nat) (d : Bytes) : (s.writeTier tier a d).sqt = s.sqt := by
  unfold State.writeTier
  split
  · rfl
  · split <;> rfl
@[simp] theorem State.writeTier_ckp (s : State) (tier a : Nat) (d : Bytes) : (s.writeTier tier a d).ckp = s.ckp := by
  unfold State.writeTier
  split
  · rfl
  · split <;> rfl
@[simp] theorem State.writeTier_coh (s : State) (tier a : Nat) (d : Bytes) : (s.writeTier tier a d).coh = s.coh := by
  unfold State.writeTier
  split
  · rfl
  · split <;> rfl
@[simp] theorem State.writeTier_sec (s : State) (tier a : Nat) (d : Bytes) : (s.writeTier tier a d).sec = s.sec := by
  unfold State.writeTier
  split
  · rfl
  · split <;> rfl
@[simp] theorem State.writeTier_car (s : State) (tier a : Nat) (d : Bytes) : (s.writeTier tier a d).car = s.car := by
  unfold State.writeTier
  split
  · rfl
  · split <;> rfl
@[simp] theorem State.writeTier_pins (s : State) (tier a : Nat) (d : Bytes) : (s.writeTier tier a d).pins = s.pins := by
  unfold State.writeTier
  split
  · rfl
  · split <;> rfl
@[simp] theorem State.zeroTier_pending (s : State) (tier a n : Nat) : (s.zeroTier tier a n).pending = s.pending := by
  unfold State.zeroTier
  split
  · rfl
  · split <;> rfl
@[simp] theorem State.zeroTier_regs (s : State) (tier a n : Nat) : (s.zeroTier tier a n).regs = s.regs := by
  unfold State.zeroTier
  split
  · rfl
  · split <;> rfl
@[simp] theorem State.zeroTier_latches (s : State) (tier a n : Nat) : (s.zeroTier tier a n).latches = s.latches := by
  unfold State.zeroTier
  split
  · rfl
  · split <;> rfl
@[simp] theorem State.zeroTier_hclk (s : State) (tier a n : Nat) : (s.zeroTier tier a n).hclk = s.hclk := by
  unfold State.zeroTier
  split
  · rfl
  · split <;> rfl
@[simp] theorem State.zeroTier_tabor (s : State) (tier a n : Nat) : (s.zeroTier tier a n).tabor = s.tabor := by
  unfold State.zeroTier
  split
  · rfl
  · split <;> rfl
@[simp] theorem State.zeroTier_nextFree (s : State) (tier a n : Nat) : (s.zeroTier tier a n).nextFree = s.nextFree := by
  unfold State.zeroTier
  split
  · rfl
  · split <;> rfl
@[simp] theorem State.zeroTier_out (s : State) (tier a n : Nat) : (s.zeroTier tier a n).out = s.out := by
  unfold State.zeroTier
  split
  · rfl
  · split <;> rfl
@[simp] theorem State.zeroTier_img (s : State) (tier a n : Nat) : (s.zeroTier tier a n).img = s.img := by
  unfold State.zeroTier
  split
  · rfl
  · split <;> rfl
@[simp] theorem State.zeroTier_cfg (s : State) (tier a n : Nat) : (s.zeroTier tier a n).cfg = s.cfg := by
  unfold State.zeroTier
  split
  · rfl
  · split <;> rfl
@[simp] theorem State.zeroTier_meters (s : State) (tier a n : Nat) : (s.zeroTier tier a n).meters = s.meters := by
  unfold State.zeroTier
  split
  · rfl
  · split <;> rfl
@[simp] theorem State.zeroTier_flt (s : State) (tier a n : Nat) : (s.zeroTier tier a n).flt = s.flt := by
  unfold State.zeroTier
  split
  · rfl
  · split <;> rfl
@[simp] theorem State.zeroTier_pool (s : State) (tier a n : Nat) : (s.zeroTier tier a n).pool = s.pool := by
  unfold State.zeroTier
  split
  · rfl
  · split <;> rfl
@[simp] theorem State.zeroTier_fab (s : State) (tier a n : Nat) : (s.zeroTier tier a n).fab = s.fab := by
  unfold State.zeroTier
  split
  · rfl
  · split <;> rfl
@[simp] theorem State.zeroTier_cmd (s : State) (tier a n : Nat) : (s.zeroTier tier a n).cmd = s.cmd := by
  unfold State.zeroTier
  split
  · rfl
  · split <;> rfl
@[simp] theorem State.zeroTier_xbr (s : State) (tier a n : Nat) : (s.zeroTier tier a n).xbr = s.xbr := by
  unfold State.zeroTier
  split
  · rfl
  · split <;> rfl
@[simp] theorem State.zeroTier_shp (s : State) (tier a n : Nat) : (s.zeroTier tier a n).shp = s.shp := by
  unfold State.zeroTier
  split
  · rfl
  · split <;> rfl
@[simp] theorem State.zeroTier_red (s : State) (tier a n : Nat) : (s.zeroTier tier a n).red = s.red := by
  unfold State.zeroTier
  split
  · rfl
  · split <;> rfl
@[simp] theorem State.zeroTier_att (s : State) (tier a n : Nat) : (s.zeroTier tier a n).att = s.att := by
  unfold State.zeroTier
  split
  · rfl
  · split <;> rfl
@[simp] theorem State.zeroTier_sqt (s : State) (tier a n : Nat) : (s.zeroTier tier a n).sqt = s.sqt := by
  unfold State.zeroTier
  split
  · rfl
  · split <;> rfl
@[simp] theorem State.zeroTier_ckp (s : State) (tier a n : Nat) : (s.zeroTier tier a n).ckp = s.ckp := by
  unfold State.zeroTier
  split
  · rfl
  · split <;> rfl
@[simp] theorem State.zeroTier_coh (s : State) (tier a n : Nat) : (s.zeroTier tier a n).coh = s.coh := by
  unfold State.zeroTier
  split
  · rfl
  · split <;> rfl
@[simp] theorem State.zeroTier_sec (s : State) (tier a n : Nat) : (s.zeroTier tier a n).sec = s.sec := by
  unfold State.zeroTier
  split
  · rfl
  · split <;> rfl
@[simp] theorem State.zeroTier_car (s : State) (tier a n : Nat) : (s.zeroTier tier a n).car = s.car := by
  unfold State.zeroTier
  split
  · rfl
  · split <;> rfl
@[simp] theorem State.zeroTier_pins (s : State) (tier a n : Nat) : (s.zeroTier tier a n).pins = s.pins := by
  unfold State.zeroTier
  split
  · rfl
  · split <;> rfl

end Sys2Proof.Machine
end

