-- ==== Sys2Proof/Laws/Tables.lean ====
section
/-!
SUPPORT. Sparse tables: what a look-up finds after a change, and that every change keeps the keys strictly ascending.
-/
namespace Sys2Proof.Machine

@[simp] theorem Tab.find?_nil {α : Type} (i : Nat) : Tab.find? ([] : Tab α) i = none := rfl

/-- A look-up of the key just put finds what was put. -/
@[simp] theorem Tab.find?_put_self {α : Type} (t : Tab α) (i : Nat) (v : α) : Tab.find? (Tab.put t i v) i = some v := by
  induction t with
  | nil => simp [Tab.put, Tab.find?]
  | cons h t ih =>
    obtain ⟨k, w⟩ := h
    unfold Tab.put
    split
    · simp [Tab.find?]
    · split
      · simp [Tab.find?]
      · next h2 => simp [Tab.find?, Ne.symm h2, ih]

/-- A put leaves every other key as it was. -/
theorem Tab.find?_put_ne {α : Type} (t : Tab α) {i j : Nat} (v : α) (h : j ≠ i) :
    Tab.find? (Tab.put t i v) j = Tab.find? t j := by
  induction t with
  | nil => simp [Tab.put, Tab.find?, Ne.symm h]
  | cons x t ih =>
    obtain ⟨k, w⟩ := x
    unfold Tab.put
    split
    · simp [Tab.find?, Ne.symm h]
    · split
      · next h2 => subst h2; simp [Tab.find?, Ne.symm h]
      · simp [Tab.find?, ih]

/-- A removed key is no longer listed. -/
@[simp] theorem Tab.find?_del_self {α : Type} (t : Tab α) (i : Nat) : Tab.find? (Tab.del t i) i = none := by
  induction t with
  | nil => rfl
  | cons x t ih =>
    obtain ⟨k, w⟩ := x
    unfold Tab.del at *
    by_cases hk : k = i
    · simpa [List.filter_cons, hk] using ih
    · simp [hk, Tab.find?, ih]

/-- Removing a key leaves every other key as it was. -/
theorem Tab.find?_del_ne {α : Type} (t : Tab α) {i j : Nat} (h : j ≠ i) : Tab.find? (Tab.del t i) j = Tab.find? t j := by
  induction t with
  | nil => rfl
  | cons x t ih =>
    obtain ⟨k, w⟩ := x
    unfold Tab.del at *
    by_cases hk : k = i
    · simp [hk, Tab.find?, Ne.symm h, ih]
    · simp [hk, Tab.find?, ih]

/-- An update of a listed key applies to its value. -/
@[simp] theorem Tab.find?_upd_self {α : Type} (t : Tab α) (i : Nat) (f : α → α) :
    Tab.find? (Tab.upd t i f) i = (Tab.find? t i).map f := by
  induction t with
  | nil => rfl
  | cons x t ih =>
    obtain ⟨k, w⟩ := x
    unfold Tab.upd at *
    by_cases hk : k = i
    · simp [hk, Tab.find?]
    · simp [hk, Tab.find?, ih]

/-- An update of a key leaves every other key as it was. -/
theorem Tab.find?_upd_ne {α : Type} (t : Tab α) {i j : Nat} (f : α → α) (h : j ≠ i) :
    Tab.find? (Tab.upd t i f) j = Tab.find? t j := by
  induction t with
  | nil => rfl
  | cons x t ih =>
    obtain ⟨k, w⟩ := x
    unfold Tab.upd at *
    by_cases hk : k = i
    · simp [hk, Tab.find?, Ne.symm h, ih]
    · simp [hk, Tab.find?, ih]

/-- The keys of a put table are those of the table and the key put. -/
theorem Tab.mem_put {α : Type} {t : Tab α} {i : Nat} {v : α} {p : Nat × α} (h : p ∈ Tab.put t i v) :
    p = (i, v) ∨ p ∈ t := by
  induction t with
  | nil => simpa [Tab.put] using h
  | cons x t ih =>
    obtain ⟨k, w⟩ := x
    unfold Tab.put at h
    split at h
    · simpa using h
    · split at h
      · rcases List.mem_cons.mp h with h | h
        · exact .inl h
        · exact .inr (List.mem_cons_of_mem _ h)
      · rcases List.mem_cons.mp h with h | h
        · exact .inr (h ▸ List.mem_cons_self)
        · rcases ih h with h | h
          · exact .inl h
          · exact .inr (List.mem_cons_of_mem _ h)

/-- The form of a table, as a relation between every earlier and every later key. -/
theorem Tab.wf_iff {α : Type} (t : Tab α) : Tab.wf t = true ↔ t.Pairwise fun a b => a.1 < b.1 := by
  induction t with
  | nil => simp [Tab.wf]
  | cons x t ih =>
    obtain ⟨k, w⟩ := x
    cases t with
    | nil => simp [Tab.wf]
    | cons y t =>
      obtain ⟨j, u⟩ := y
      rw [Tab.wf, Bool.and_eq_true, ih, decide_eq_true_iff, List.pairwise_cons (a := (k, w))]
      constructor
      · rintro ⟨h1, h2⟩
        refine ⟨fun b hb => ?_, h2⟩
        rcases List.mem_cons.mp hb with hb | hb
        · subst hb; exact h1
        · exact Nat.lt_trans h1 ((List.pairwise_cons.mp h2).1 b hb)
      · rintro ⟨h1, h2⟩
        exact ⟨h1 (j, u) List.mem_cons_self, h2⟩

/-- A put keeps the form. -/
theorem Tab.wf_put {α : Type} (t : Tab α) (i : Nat) (v : α) (h : Tab.wf t = true) : Tab.wf (Tab.put t i v) = true := by
  rw [Tab.wf_iff] at *
  induction t with
  | nil => simp [Tab.put]
  | cons x t ih =>
    obtain ⟨k, w⟩ := x
    have ⟨h1, h2⟩ := List.pairwise_cons.mp h
    unfold Tab.put
    split
    · next hik =>
      refine List.pairwise_cons.mpr ⟨fun b hb => ?_, h⟩
      rcases List.mem_cons.mp hb with hb | hb
      · subst hb; exact hik
      · exact Nat.lt_trans hik (h1 b hb)
    · split
      · next hik => subst hik; exact List.pairwise_cons.mpr ⟨h1, h2⟩
      · next hlt hne =>
        refine List.pairwise_cons.mpr ⟨fun b hb => ?_, ih h2⟩
        rcases Tab.mem_put hb with hb | hb
        · subst hb; show k < i; omega
        · exact h1 b hb

/-- A filter keeps the form. -/
theorem Tab.wf_filter {α : Type} (t : Tab α) (q : Nat × α → Bool) (h : Tab.wf t = true) :
    Tab.wf (List.filter q t) = true := by
  rw [Tab.wf_iff] at *
  exact h.filter q

/-- A removal keeps the form. -/
theorem Tab.wf_del {α : Type} (t : Tab α) (i : Nat) (h : Tab.wf t = true) : Tab.wf (Tab.del t i) = true :=
  Tab.wf_filter t _ h

end Sys2Proof.Machine
end

