-- ==== Sys2Proof/Laws/Registers.lean ====
section
/-!
SUPPORT. What a field reads after a write of a field, and after each operation that is built of such writes.
-/
namespace Sys2Proof.Machine

/-- A field depends on the stored registers alone. -/
theorem State.rd_congr {s t : State} (h : t.regs = s.regs) (f : Fld) (i j : Nat) : t.rd f i j = s.rd f i j := by
  unfold State.rd
  rw [h]

/-- A field reads what was written to it, cut to its width. -/
theorem State.rd_wr_self (s : State) (f : Fld) (v i j : Nat) (hw : f.width ≤ 32) :
    (s.wr f v i j).rd f i j = v % 2 ^ f.width := by
  have h1 : v % 2 ^ f.width < 2 ^ f.width := Nat.mod_lt _ (Nat.two_pow_pos _)
  have h2 : 2 ^ f.width ≤ 2 ^ 32 := Nat.pow_le_pow_right (by decide) hw
  simp only [State.rd, State.wr, Tab.find?_put_self, BitVec.toNat_ofNat]
  exact Nat.mod_eq_of_lt (Nat.lt_of_lt_of_le h1 h2)

/-- A write leaves every field with another key as it was. -/
theorem State.rd_wr_ne (s : State) (f g : Fld) (v i j a b : Nat) (h : g.key a b ≠ f.key i j) :
    (s.wr f v i j).rd g a b = s.rd g a b := by
  simp only [State.rd, State.wr, Tab.find?_put_ne _ _ h]

/-- A count leaves every field with another key as it was. -/
theorem State.rd_bump_ne (s : State) (f g : Fld) (i j n a b : Nat) (h : g.key a b ≠ f.key i j) :
    (s.bump f i j n).rd g a b = s.rd g a b := State.rd_wr_ne s f g _ i j a b h

/-- A counter reads its old value and the number counted, held at its greatest value. -/
theorem State.rd_bump_self (s : State) (f : Fld) (i j n : Nat) (hw : f.width ≤ 32) :
    (s.bump f i j n).rd f i j = min (s.rd f i j + n) (2 ^ f.width - 1) := by
  unfold State.bump
  rw [State.rd_wr_self _ _ _ _ _ hw]
  have : satAdd (s.rd f i j) n (2 ^ f.width - 1) < 2 ^ f.width := by
    have := Nat.two_pow_pos f.width
    unfold satAdd; omega
  rw [Nat.mod_eq_of_lt this, satAdd]

/-- Keys of fields: a write keeps the stored registers in form. -/
theorem State.wf_wr (s : State) (f : Fld) (v i j : Nat) (h : Tab.wf s.regs = true) :
    Tab.wf (s.wr f v i j).regs = true := Tab.wf_put _ _ _ h

end Sys2Proof.Machine
end

