-- ==== Sys2Proof/Laws/Frames.lean ====
section
/-!
SUPPORT. Frames compose: what one operation and the next leave alone, both together leave alone.
-/
namespace Sys2Proof.Machine

/-- No change at all. -/
theorem State.onlyChanges_refl (s : State) (ps : List Part) : s.onlyChanges s ps := by
  intro p _
  cases p <;> rfl

/-- A part that the first and the second of two steps keep is kept by both. -/
theorem Part.same_trans {p : Part} {s t u : State} (h : p.same s t) (k : p.same t u) : p.same s u := by
  cases p <;> exact Eq.trans k h

/-- Two steps change at most what either changes. -/
theorem State.onlyChanges_trans {s t u : State} {ps : List Part} (h : s.onlyChanges t ps) (k : t.onlyChanges u ps) :
    s.onlyChanges u ps := fun p hp => Part.same_trans (h p hp) (k p hp)

/-- A shorter list says more. -/
theorem State.onlyChanges_mono {s t : State} {ps qs : List Part} (h : s.onlyChanges t ps) (hq : ps ⊆ qs) :
    s.onlyChanges t qs := fun p hp => h p fun hm => hp (hq hm)

/-- No register differs. -/
theorem State.regsKept_of_regs {s t : State} (h : t.regs = s.regs) (ks : List Nat) : s.regsKeptBut t ks :=
  fun f i j _ => State.rd_congr h f i j

theorem State.regsKept_refl (s : State) (ks : List Nat) : s.regsKeptBut s ks := fun _ _ _ _ => rfl

/-- Two steps write at most the fields that either writes. -/
theorem State.regsKept_trans {s t u : State} {ks : List Nat} (h : s.regsKeptBut t ks) (k : t.regsKeptBut u ks) :
    s.regsKeptBut u ks := fun f i j hk => (k f i j hk).trans (h f i j hk)

theorem State.regsKept_mono {s t : State} {ks ls : List Nat} (h : s.regsKeptBut t ks) (hl : ks ⊆ ls) :
    s.regsKeptBut t ls := fun f i j hk => h f i j fun hm => hk (hl hm)

/-- A write of a field touches that field alone. -/
theorem State.regsKept_wr (s : State) (f : Fld) (v i j : Nat) {ks : List Nat} (h : f.key i j ∈ ks) :
    s.regsKeptBut (s.wr f v i j) ks :=
  fun g a b hk => State.rd_wr_ne s f g v i j a b fun e => hk (e ▸ h)

theorem State.regsKept_bump (s : State) (f : Fld) (i j n : Nat) {ks : List Nat} (h : f.key i j ∈ ks) :
    s.regsKeptBut (s.bump f i j n) ks := State.regsKept_wr s f _ i j h

/-- A write touches the stored registers alone. -/
theorem State.onlyChanges_wr (s : State) (f : Fld) (v i j : Nat) {ps : List Part} (h : Part.regs ∈ ps) :
    s.onlyChanges (s.wr f v i j) ps := by
  intro p hp
  cases p <;> first | exact absurd h hp | rfl

theorem State.onlyChanges_bump (s : State) (f : Fld) (i j n : Nat) {ps : List Part} (h : Part.regs ∈ ps) :
    s.onlyChanges (s.bump f i j n) ps := State.onlyChanges_wr s f _ i j h

theorem State.onlyChanges_emit (s : State) (m : OutMsg) {ps : List Part} (h : Part.out ∈ ps) :
    s.onlyChanges (s.emit m) ps := by
  intro p hp
  cases p <;> first | exact absurd h hp | rfl

theorem State.onlyChanges_upFlt (s : State) (g : FltState → FltState) {ps : List Part} (h : Part.flt ∈ ps) :
    s.onlyChanges (s.upFlt g) ps := by
  intro p hp
  cases p <;> first | exact absurd h hp | rfl

theorem State.onlyChanges_upCar (s : State) (g : CarState → CarState) {ps : List Part} (h : Part.car ∈ ps) :
    s.onlyChanges (s.upCar g) ps := by
  intro p hp
  cases p <;> first | exact absurd h hp | rfl

end Sys2Proof.Machine
end

