-- ==== Sys2Proof/Laws/Events.lean ====
section
/-!
SUPPORT. Records, scores and admission: what reporting an event or charging a score touches, and what an admitted access does.
-/
namespace Sys2Proof.Machine

/-- What a step that only reports may change. -/
def State.reportsOnly (s t : State) : Prop := s.onlyChanges t recordParts ∧ s.regsKeptBut t recordKeys

theorem State.reportsOnly_refl (s : State) : s.reportsOnly s := ⟨s.onlyChanges_refl _, s.regsKept_refl _⟩

theorem State.reportsOnly_trans {s t u : State} (h : s.reportsOnly t) (k : t.reportsOnly u) : s.reportsOnly u :=
  ⟨State.onlyChanges_trans h.1 k.1, State.regsKept_trans h.2 k.2⟩

theorem State.reportsOnly_upFlt (s : State) (g : FltState → FltState) : s.reportsOnly (s.upFlt g) :=
  ⟨s.onlyChanges_upFlt g (by decide), State.regsKept_of_regs rfl _⟩

theorem State.reportsOnly_emit (s : State) (m : OutMsg) : s.reportsOnly (s.emit m) :=
  ⟨s.onlyChanges_emit m (by decide), State.regsKept_of_regs rfl _⟩

theorem State.reportsOnly_wr (s : State) (f : Fld) (v : Nat) (h : f.key 0 0 ∈ recordKeys) : s.reportsOnly (s.wr f v) :=
  ⟨s.onlyChanges_wr f v 0 0 (by decide), s.regsKept_wr f v 0 0 h⟩

theorem State.reportsOnly_dmaWrite (s : State) (iova : Nat) (d : Bytes) : s.reportsOnly (s.dmaWrite iova d) := by
  refine State.reportsOnly_trans (t := s.writeTier tierHOST iova d) ⟨?_, State.regsKept_of_regs (by simp) _⟩ (State.reportsOnly_emit _ _)
  intro p hp
  cases p <;> first | exact absurd (by decide) hp | rfl

theorem State.reportsOnly_eqWrite (s : State) (e : Event) : s.reportsOnly (s.eqWrite e) := by
  unfold State.eqWrite
  dsimp only
  have h := State.reportsOnly_trans
    (State.reportsOnly_dmaWrite s ((s.rd64 Reg.FLT_EQ_BASE_LO Reg.FLT_EQ_BASE_HI) / 4096 * 4096 +
      64 * (s.rd Reg.FLT_EQ_TAIL_INDEX % 2 ^ s.rd Reg.FLT_EQ_CTL_LOG2)) e.bytes)
    (State.reportsOnly_wr _ Reg.FLT_EQ_TAIL_INDEX (s.rd Reg.FLT_EQ_TAIL_INDEX + 1) (by decide))
  split
  · exact State.reportsOnly_trans (State.reportsOnly_trans h (State.reportsOnly_upFlt _ _)) (State.reportsOnly_emit _ _)
  · exact State.reportsOnly_trans h (State.reportsOnly_upFlt _ _)

theorem State.reportsOnly_record (s : State) (e : Event) : s.reportsOnly (s.record e).1 := by
  unfold State.record
  dsimp only
  refine State.reportsOnly_trans ?_ (State.reportsOnly_wr _ Reg.FLT_ESEQ_LAST _ (by decide))
  refine State.reportsOnly_trans (State.reportsOnly_upFlt _ _) (State.reportsOnly_wr _ _ _ ?_)
  unfold pendFld
  split <;> decide

theorem State.reportsOnly_eqResume (s : State) (up : Bool) : s.reportsOnly (s.eqResume up) := by
  unfold State.eqResume
  split
  · exact State.reportsOnly_refl _
  · refine State.reportsOnly_trans ?_ (State.reportsOnly_eqWrite _ _)
    exact State.reportsOnly_trans (State.reportsOnly_record s _) (State.reportsOnly_upFlt _ _)

theorem State.reportsOnly_deliver (s : State) (e : Event) : s.reportsOnly (s.deliver e) := by
  unfold State.deliver
  dsimp only
  have h := State.reportsOnly_trans (State.reportsOnly_eqResume s s.mgmtUp) (State.reportsOnly_record _ e)
  split
  · exact h
  · split
    · exact State.reportsOnly_trans h (State.reportsOnly_eqWrite _ _)
    · refine State.reportsOnly_trans ?_ (State.reportsOnly_upFlt _ _)
      exact State.reportsOnly_trans h (State.reportsOnly_wr _ Reg.FLT_EQ_LOST _ (by decide))

/-- Reporting an event touches the registers of the event unit, the fault unit, what leaves the switch and host memory. -/
theorem State.reportsOnly_event (s : State) (r : Report) : s.reportsOnly (s.event r) := by
  unfold State.event
  dsimp only
  split
  · exact State.reportsOnly_upFlt _ _
  · split
    · exact State.reportsOnly_trans (State.reportsOnly_deliver s _) (State.reportsOnly_upFlt _ _)
    · exact State.reportsOnly_deliver _ _

theorem State.reportsOnly_carEvent (s : State) (code sev : Nat) (params : List Nat) (pair : Bool) :
    s.reportsOnly (s.carEvent code sev params pair) := by
  unfold State.carEvent
  split <;> exact State.reportsOnly_event _ _

theorem State.reportsOnly_regFault (s : State) (off fen : Nat) : s.reportsOnly (s.regFault off fen) :=
  State.reportsOnly_event _ _

/-- A charge to a score touches what a record does and the count of suspects. -/
def State.chargesOnly (s t : State) : Prop := s.onlyChanges t recordParts ∧ s.regsKeptBut t scoreKeys

theorem State.chargesOnly_of_reports {s t : State} (h : s.reportsOnly t) : s.chargesOnly t :=
  ⟨h.1, State.regsKept_mono h.2 (List.subset_cons_self _ _)⟩

theorem State.chargesOnly_trans {s t u : State} (h : s.chargesOnly t) (k : t.chargesOnly u) : s.chargesOnly u :=
  ⟨State.onlyChanges_trans h.1 k.1, State.regsKept_trans h.2 k.2⟩

theorem State.chargesOnly_setScore (s : State) (cls inst : Nat) (sc : Score) : s.chargesOnly (s.setScore cls inst sc) := by
  unfold State.setScore
  dsimp only
  have h := fun (g : FltState → FltState) => State.chargesOnly_of_reports (State.reportsOnly_upFlt s g)
  generalize (if sc.suspect = true then decide ((s.classCfg cls).1 ≤ 2 * (sc.s / 256))
    else decide ((s.classCfg cls).1 ≤ sc.s / 256)) = sus
  split
  · refine State.chargesOnly_trans ?_ (State.chargesOnly_of_reports (State.reportsOnly_event _ _))
    exact State.chargesOnly_trans (h _) ⟨State.onlyChanges_bump _ Reg.FLT_CNT_SUSPECT 0 0 1 (by decide),
      State.regsKept_bump _ Reg.FLT_CNT_SUSPECT 0 0 1 (by decide)⟩
  · split
    · exact State.chargesOnly_trans (h _) (State.chargesOnly_of_reports (State.reportsOnly_event _ _))
    · exact h _

theorem State.chargesOnly_charge (s : State) (cls inst row n per weight : Nat) :
    s.chargesOnly (s.charge cls inst row n per weight) := State.chargesOnly_setScore _ _ _ _

/-! Admission. -/

/-- An admitted write does what the register does. -/
theorem State.window_admitted {s : State} {a : Access} {off : Nat} (h : s.admitsWrite a off = true) (act : State → State) :
    State.window a off act s = act s := by
  simp only [State.admitsWrite, State.admitsRead, Bool.and_eq_true, Bool.not_eq_true'] at h
  simp [State.window, h]

/-- An admitted read does what the register does and returns the value read. -/
theorem State.readWindow_admitted {s : State} {a : Access} {off : Nat} (h : s.admitsRead a off = true)
    (act : State → State × Nat) :
    State.readWindow a off act s = (act s).1.emit (.readData a.req off (act s).2) := by
  simp only [State.admitsRead, Bool.and_eq_true, Bool.not_eq_true'] at h
  simp [State.readWindow, h]

end Sys2Proof.Machine
end

