-- ==== Sys2Proof/Laws/Memory.lean ====
section
/-!
SUPPORT. Memory: the canonical form is kept by every operation, a byte reads what was stored there, and a store or a
zero-fill leaves every byte outside its range as it was.
-/
namespace Sys2Proof.Machine

/-- The canonical form, said of every two cells and of every cell. -/
theorem Memory.wf_iff (m : List Host.Cell) :
    Memory.wf m = true ↔ (m.Pairwise fun a b => a.1 < b.1) ∧ ∀ c ∈ m, c.2 ≠ memDefault := by
  induction m with
  | nil => simp [Memory.wf]
  | cons x t ih =>
    obtain ⟨k, w⟩ := x
    cases t with
    | nil => simp [Memory.wf]
    | cons y t =>
      obtain ⟨j, u⟩ := y
      rw [Memory.wf, Bool.and_eq_true, Bool.and_eq_true, ih, decide_eq_true_iff, List.pairwise_cons (a := (k, w)),
        List.forall_mem_cons (a := (k, w)), bne_iff_ne]
      constructor
      · rintro ⟨⟨h1, h2⟩, h3, h4⟩
        refine ⟨⟨fun b hb => ?_, h3⟩, h2, h4⟩
        rcases List.mem_cons.mp hb with hb | hb
        · subst hb; exact h1
        · exact Nat.lt_trans h1 ((List.pairwise_cons.mp h3).1 b hb)
      · rintro ⟨⟨h1, h3⟩, h2, h4⟩
        exact ⟨⟨h1 (j, u) List.mem_cons_self, h2⟩, h3, h4⟩

/-- Every cell that bytes are kept in lies among them and is not the default. -/
theorem mem_cellsOf {a : Nat} {bs : Bytes} {c : Host.Cell} (h : c ∈ cellsOf a bs) :
    a ≤ c.1 ∧ c.1 < a + bs.length ∧ c.2 ≠ memDefault := by
  induction bs generalizing a with
  | nil => simp [cellsOf] at h
  | cons b bs ih =>
    unfold cellsOf at h
    split at h
    · have := ih h
      simp only [List.length_cons]
      exact ⟨by omega, by omega, this.2.2⟩
    · next hb =>
      rcases List.mem_cons.mp h with h | h
      · subst h; simp only [List.length_cons]; exact ⟨by omega, by omega, hb⟩
      · have := ih h
        simp only [List.length_cons]
        exact ⟨by omega, by omega, this.2.2⟩

/-- The cells of bytes ascend. -/
theorem pairwise_cellsOf (a : Nat) (bs : Bytes) : (cellsOf a bs).Pairwise fun x y => x.1 < y.1 := by
  induction bs generalizing a with
  | nil => simp [cellsOf]
  | cons b bs ih =>
    unfold cellsOf
    split
    · exact ih _
    · refine List.pairwise_cons.mpr ⟨fun c hc => ?_, ih _⟩
      have := (mem_cellsOf hc).1
      show a < c.1
      omega

/-- A filter keeps the canonical form. -/
theorem Memory.wf_filter (m : List Host.Cell) (q : Host.Cell → Bool) (h : Memory.wf m = true) :
    Memory.wf (m.filter q) = true := by
  rw [Memory.wf_iff] at *
  exact ⟨h.1.filter q, fun c hc => h.2 c ((List.mem_filter.mp hc).1)⟩

/-- A zero-fill keeps the canonical form. -/
theorem Memory.wf_zero (m : List Host.Cell) (a n : Nat) (h : Memory.wf m = true) : Memory.wf (memZero m a n) = true :=
  Memory.wf_filter m _ h

/-- A store keeps the canonical form. -/
theorem Memory.wf_write (m : List Host.Cell) (a : Nat) (bs : Bytes) (h : Memory.wf m = true) :
    Memory.wf (memWrite m a bs) = true := by
  rw [Memory.wf_iff] at *
  obtain ⟨hp, hd⟩ := h
  unfold memWrite
  rw [List.append_assoc]
  constructor
  · refine List.pairwise_append.mpr ⟨hp.filter _, ?_, ?_⟩
    · refine List.pairwise_append.mpr ⟨pairwise_cellsOf a bs, hp.filter _, ?_⟩
      intro x hx y hy
      have h1 := (mem_cellsOf hx).2.1
      have h2 := (List.mem_filter.mp hy).2
      simp only [decide_eq_true_eq] at h2
      omega
    · intro x hx y hy
      have h1 := (List.mem_filter.mp hx).2
      simp only [decide_eq_true_eq] at h1
      rcases List.mem_append.mp hy with hy | hy
      · have := (mem_cellsOf hy).1; omega
      · have h2 := (List.mem_filter.mp hy).2
        simp only [decide_eq_true_eq] at h2
        omega
  · intro c hc
    rcases List.mem_append.mp hc with hc | hc
    · exact hd c ((List.mem_filter.mp hc).1)
    · rcases List.mem_append.mp hc with hc | hc
      · exact (mem_cellsOf hc).2.2
      · exact hd c ((List.mem_filter.mp hc).1)

/-- In a canonical memory a listed cell is what its address reads. -/
theorem memGet_of_mem {m : List Host.Cell} {c : Host.Cell} (h : Memory.wf m = true) (hc : c ∈ m) : memGet m c.1 = c.2 := by
  rw [Memory.wf_iff] at h
  induction m with
  | nil => simp at hc
  | cons x t ih =>
    obtain ⟨k, w⟩ := x
    have ⟨h1, h2⟩ := List.pairwise_cons.mp h.1
    rcases List.mem_cons.mp hc with hc | hc
    · subst hc; simp [memGet]
    · have hk := h1 c hc
      simp only [memGet]
      rw [if_neg (by show ¬ k = c.1; simp only at hk; omega), if_neg (by simp only at hk; omega)]
      exact ih ⟨h2, fun c hc => h.2 c (List.mem_cons_of_mem _ hc)⟩ hc

/-- An address that no cell lists reads the default. -/
theorem memGet_of_not_mem {m : List Host.Cell} {a : Nat} (h : ∀ c ∈ m, c.1 ≠ a) : memGet m a = memDefault := by
  induction m with
  | nil => rfl
  | cons x t ih =>
    obtain ⟨k, w⟩ := x
    have hk : k ≠ a := h (k, w) List.mem_cons_self
    simp only [memGet, if_neg hk]
    split
    · rfl
    · exact ih fun c hc => h c (List.mem_cons_of_mem _ hc)

/-- Memories that list the same cell for an address, if any, read the same there. -/
theorem memGet_congr {m m' : List Host.Cell} {a : Nat} (h : Memory.wf m = true) (h' : Memory.wf m' = true)
    (e : ∀ v, (a, v) ∈ m' ↔ (a, v) ∈ m) : memGet m' a = memGet m a := by
  by_cases hx : ∃ v, (a, v) ∈ m
  · obtain ⟨v, hv⟩ := hx
    rw [memGet_of_mem h hv, memGet_of_mem h' ((e v).mpr hv)]
  · rw [memGet_of_not_mem, memGet_of_not_mem]
    · intro c hc ha; subst ha; exact hx ⟨c.2, hc⟩
    · intro c hc ha; subst ha; exact hx ⟨c.2, (e c.2).mp hc⟩

/-- A store leaves every byte outside its range as it was. -/
theorem memGet_write_outside (m : List Host.Cell) (a : Nat) (bs : Bytes) (x : Nat) (h : Memory.wf m = true)
    (hx : x < a ∨ a + bs.length ≤ x) : memGet (memWrite m a bs) x = memGet m x := by
  refine memGet_congr h (Memory.wf_write m a bs h) fun v => ?_
  unfold memWrite
  simp only [List.mem_append, List.mem_filter, decide_eq_true_eq]
  constructor
  · rintro ((⟨h1, -⟩ | h1) | ⟨h1, -⟩)
    · exact h1
    · have := mem_cellsOf h1; simp only at this; omega
    · exact h1
  · intro h1
    rcases hx with hx | hx
    · exact .inl (.inl ⟨h1, hx⟩)
    · exact .inr ⟨h1, hx⟩

/-- A zero-fill leaves every byte outside its range as it was. -/
theorem memGet_zero_outside (m : List Host.Cell) (a n x : Nat) (h : Memory.wf m = true) (hx : x < a ∨ a + n ≤ x) :
    memGet (memZero m a n) x = memGet m x := by
  refine memGet_congr h (Memory.wf_zero m a n h) fun v => ?_
  unfold memZero
  simp only [List.mem_filter, Bool.or_eq_true, decide_eq_true_eq]
  exact ⟨fun h => h.1, fun h => ⟨h, hx⟩⟩

/-- A zero-filled byte reads the default. -/
theorem memGet_zero_inside (m : List Host.Cell) (a n x : Nat) (h1 : a ≤ x) (h2 : x < a + n) :
    memGet (memZero m a n) x = memDefault := by
  refine memGet_of_not_mem fun c hc => ?_
  have := (List.mem_filter.mp hc).2
  simp only [Bool.or_eq_true, decide_eq_true_eq] at this
  omega

/-- The cells of bytes read back as the bytes. -/
theorem memGet_cellsOf (a : Nat) (bs : Bytes) (i : Nat) (hi : i < bs.length) :
    memGet (cellsOf a bs) (a + i) = bs[i] := by
  induction bs generalizing a i with
  | nil => simp at hi
  | cons b bs ih =>
    cases i with
    | zero =>
      simp only [Nat.add_zero, List.getElem_cons_zero]
      unfold cellsOf
      split
      · next hb =>
        rw [hb]
        refine memGet_of_not_mem fun c hc => ?_
        have := (mem_cellsOf hc).1
        omega
      · simp [memGet]
    | succ i =>
      have hi' : i < bs.length := by simpa using hi
      have e : a + (i + 1) = a + 1 + i := by omega
      simp only [List.getElem_cons_succ]
      unfold cellsOf
      split
      · rw [e]; exact ih (a + 1) i hi'
      · simp only [memGet]
        rw [if_neg (by omega), if_neg (by omega), e]
        exact ih (a + 1) i hi'

/-- A stored byte reads what was stored. -/
theorem memGet_write_inside (m : List Host.Cell) (a : Nat) (bs : Bytes) (i : Nat) (h : Memory.wf m = true)
    (hi : i < bs.length) : memGet (memWrite m a bs) (a + i) = bs[i] := by
  rw [← memGet_cellsOf a bs i hi]
  have hc : Memory.wf (cellsOf a bs) = true :=
    (Memory.wf_iff _).mpr ⟨pairwise_cellsOf a bs, fun c hc => (mem_cellsOf hc).2.2⟩
  refine memGet_congr hc (Memory.wf_write m a bs h) fun v => ?_
  unfold memWrite
  simp only [List.mem_append, List.mem_filter, decide_eq_true_eq]
  constructor
  · rintro ((⟨-, h1⟩ | h1) | ⟨-, h1⟩)
    · omega
    · exact h1
    · omega
  · exact fun h1 => .inl (.inr h1)

end Sys2Proof.Machine
end

