-- ==== Sys2Proof/Laws/Sound/Base.lean ====
section
/-!
SUPPORT. Soundness: how it is read apart and put together, and that choices, folds and changes of other parts keep it.
-/
namespace Sys2Proof.Machine

theorem State.sound_iff (s : State) : s.sound = true ↔
    (Memory.wf s.near = true ∧ Memory.wf s.tray = true ∧ Memory.wf s.host = true) ∧
    (Tab.wf s.regs = true ∧ Tab.wf s.latches = true ∧ Tab.wf s.pins = true) ∧ s.pending.all Instr.wf = true := by
  simp only [State.sound, State.memoryOk, State.tablesOk, State.queueOk, Bool.and_eq_true, and_assoc]

/-- A change of parts that soundness does not speak of. -/
theorem State.sound_mk {p r l hc tb nf o n t ho i c m f po fa cm x sh re at_ sq ck co se ca pi} {s : State} (h : s.sound = true)
    (h1 : p = s.pending) (h2 : r = s.regs) (h3 : l = s.latches) (h4 : n = s.near) (h5 : t = s.tray) (h6 : ho = s.host)
    (h7 : pi = s.pins) :
    State.sound ⟨p, r, l, hc, tb, nf, o, n, t, ho, i, c, m, f, po, fa, cm, x, sh, re, at_, sq, ck, co, se, ca, pi⟩ = true := by
  subst h1 h2 h3 h4 h5 h6 h7; exact h

theorem sound_ite {c : Prop} [Decidable c] {a b : State} (ha : a.sound = true) (hb : b.sound = true) :
    (if c then a else b).sound = true := by
  split <;> assumption

theorem sound_ite_fst {α : Type} {c : Prop} [Decidable c] {a b : State × α} (ha : a.1.sound = true) (hb : b.1.sound = true) :
    (if c then a else b).1.sound = true := by
  split <;> assumption

theorem sound_ite_snd {α : Type} {c : Prop} [Decidable c] {a b : α × State} (ha : a.2.sound = true) (hb : b.2.sound = true) :
    (if c then a else b).2.sound = true := by
  split <;> assumption

theorem sound_snd {α : Type} {e : α × State} {a : α} {s : State} (he : e = (a, s)) (h : e.2.sound = true) : s.sound = true := by
  subst he; exact h

theorem sound_fst {α : Type} {e : State × α} {a : α} {s : State} (he : e = (s, a)) (h : e.1.sound = true) : s.sound = true := by
  subst he; exact h

theorem foldl_sound {α : Type} {f : State → α → State} {xs : List α} {s : State}
    (hf : ∀ (s : State) (x : α), s.sound = true → (f s x).sound = true) (h : s.sound = true) : (xs.foldl f s).sound = true := by
  induction xs generalizing s with
  | nil => exact h
  | cons x xs ih => exact ih (hf s x h)

theorem foldl_sound_fst {α β : Type} {f : State × β → α → State × β} {xs : List α} {p : State × β}
    (hf : ∀ (p : State × β) (x : α), p.1.sound = true → (f p x).1.sound = true) (h : p.1.sound = true) :
    (xs.foldl f p).1.sound = true := by
  induction xs generalizing p with
  | nil => exact h
  | cons x xs ih => exact ih (hf p x h)

theorem foldl_sound_snd {α β : Type} {f : β × State → α → β × State} {xs : List α} {p : β × State}
    (hf : ∀ (p : β × State) (x : α), p.2.sound = true → (f p x).2.sound = true) (h : p.2.sound = true) :
    (xs.foldl f p).2.sound = true := by
  induction xs generalizing p with
  | nil => exact h
  | cons x xs ih => exact ih (hf p x h)

/-- Every state that an operation may give is sound. -/
structure OptSound (o : Option State) : Prop where
  of : ∀ t, o = some t → t.sound = true

theorem optSound_none : OptSound none := ⟨fun _ h => by cases h⟩

theorem optSound_some {s : State} (h : s.sound = true) : OptSound (some s) := ⟨fun _ e => by cases e; exact h⟩

theorem optSound_ite {c : Prop} [Decidable c] {a b : Option State} (ha : OptSound a) (hb : OptSound b) :
    OptSound (if c then a else b) := by
  split <;> assumption

theorem sound_of_opt {o : Option State} {s : State} (he : o = some s) (h : OptSound o) : s.sound = true := h.of s he

theorem optSound_map {o : Option State} {f : State → State} (h : OptSound o)
    (hf : ∀ s : State, s.sound = true → (f s).sound = true) : OptSound (o.map f) := by
  cases o with
  | none => exact optSound_none
  | some s => exact optSound_some (hf s (h.of s rfl))

theorem optSound_bind {o : Option State} {f : State → Option State} (h : OptSound o)
    (hf : ∀ s : State, s.sound = true → OptSound (f s)) : OptSound (o.bind f) := by
  cases o with
  | none => exact optSound_none
  | some s => exact hf s (h.of s rfl)

theorem optSound_getD {o : Option State} {s : State} (h : OptSound o) (hs : s.sound = true) : (o.getD s).sound = true := by
  cases o with
  | none => exact hs
  | some t => exact h.of t rfl

/-- Every state that an operation may give beside a value is sound. -/
structure OptSndSound {α : Type} (o : Option (α × State)) : Prop where
  of : ∀ p, o = some p → p.2.sound = true

theorem optSndSound_none {α : Type} : OptSndSound (none : Option (α × State)) := ⟨fun _ h => by cases h⟩

theorem optSndSound_some {α : Type} {p : α × State} (h : p.2.sound = true) : OptSndSound (some p) := ⟨fun _ e => by cases e; exact h⟩

theorem optSndSound_ite {α : Type} {c : Prop} [Decidable c] {a b : Option (α × State)} (ha : OptSndSound a) (hb : OptSndSound b) :
    OptSndSound (if c then a else b) := by
  split <;> assumption

theorem sound_of_optSnd {α : Type} {o : Option (α × State)} {a : α} {s : State} (he : o = some (a, s)) (h : OptSndSound o) :
    s.sound = true := h.of _ he

end Sys2Proof.Machine
end

