-- ==== Sys2Proof/Laws/Sound/Ops.lean ====
section
/-!
SUPPORT. Soundness is kept by every operation of Machine/Ops.lean.
-/
namespace Sys2Proof.Machine

theorem State.wr_sound (s : State) (f : Fld) (v : Nat) (i : Nat) (j : Nat) (h : s.sound = true) : (s.wr f v i j).sound = true := by
  rw [State.sound_iff] at h ⊢
  exact ⟨h.1, ⟨State.wf_wr _ _ _ _ _ h.2.1.1, h.2.1.2⟩, h.2.2⟩

theorem State.wrb_sound (s : State) (f : Fld) (b : Bool) (i : Nat) (j : Nat) (hs : s.sound = true) :
    (State.wrb s f b i j).sound = true := by
  delta State.wrb
  repeat' first
    | with_reducible assumption
    | with_reducible apply State.wr_sound

theorem State.bump_sound (s : State) (f : Fld) (i : Nat) (j : Nat) (n : Nat) (hs : s.sound = true) :
    (State.bump s f i j n).sound = true := by
  delta State.bump
  repeat' first
    | with_reducible assumption
    | with_reducible apply State.wr_sound

theorem State.raise_sound (s : State) (f : Fld) (v : Nat) (i : Nat) (j : Nat) (hs : s.sound = true) :
    (State.raise s f v i j).sound = true := by
  delta State.raise
  repeat' first
    | with_reducible assumption
    | (lift_lets; intro x; clear_value x)
    | with_reducible apply State.wr_sound
    | with_reducible apply sound_ite

theorem State.inc_sound (s : State) (f : Fld) (n : Nat) (i : Nat) (j : Nat) (hs : s.sound = true) :
    (State.inc s f n i j).sound = true := by
  delta State.inc
  repeat' first
    | with_reducible assumption
    | with_reducible apply State.wr_sound

theorem State.dec_sound (s : State) (f : Fld) (n : Nat) (i : Nat) (j : Nat) (hs : s.sound = true) :
    (State.dec s f n i j).sound = true := by
  delta State.dec
  repeat' first
    | with_reducible assumption
    | with_reducible apply State.wr_sound

theorem State.wr64_sound (s : State) (lo hi : Fld) (v : Nat) (i : Nat) (j : Nat) (hs : s.sound = true) :
    (State.wr64 s lo hi v i j).sound = true := by
  delta State.wr64
  repeat' first
    | with_reducible assumption
    | with_reducible apply State.wr_sound

theorem State.inc64_sound (s : State) (lo hi : Fld) (n : Nat) (i : Nat) (j : Nat) (hs : s.sound = true) :
    (State.inc64 s lo hi n i j).sound = true := by
  delta State.inc64
  repeat' first
    | with_reducible assumption
    | with_reducible apply State.wr64_sound

theorem State.measure_sound (s : State) (w : Wm) (q : Nat) (i : Nat) (j : Nat) (hs : s.sound = true) :
    (State.measure s w q i j).sound = true := by
  delta State.measure
  repeat' first
    | with_reducible assumption
    | (lift_lets; intro x; clear_value x)
    | with_reducible apply State.wr_sound
    | with_reducible apply State.wrb_sound
    | with_reducible apply State.bump_sound
    | with_reducible apply sound_ite

theorem State.emit_sound (s : State) (m : OutMsg) (hs : s.sound = true) :
    (State.emit s m).sound = true := by
  delta State.emit
  repeat' first
    | with_reducible assumption
    | with_reducible refine State.sound_mk ?_ rfl rfl rfl rfl rfl rfl rfl

theorem State.free_sound (s : State) (hs : s.sound = true) :
    (State.free s).2.sound = true := by
  delta State.free
  repeat' first
    | with_reducible assumption
    | dsimp -zeta only
    | with_reducible refine State.sound_mk ?_ rfl rfl rfl rfl rfl rfl rfl

theorem State.drive_sound (s : State) (n level : Nat) (h : s.sound = true) : (s.drive n level).sound = true := by
  unfold State.drive
  split
  · exact h
  · rw [State.sound_iff] at h ⊢
    refine ⟨h.1, ⟨h.2.1.1, h.2.1.2.1, ?_⟩, h.2.2⟩
    show Tab.wf (if level = 0 then Tab.del s.pins n else Tab.put s.pins n level) = true
    split
    · exact Tab.wf_del _ _ h.2.1.2.2
    · exact Tab.wf_put _ _ _ h.2.1.2.2

theorem State.writeTier_sound (s : State) (tier : Nat) (a : Nat) (bs : Bytes) (h : s.sound = true) :
    (s.writeTier tier a bs).sound = true := by
  rw [State.sound_iff] at h
  unfold State.writeTier
  refine sound_ite ?_ (sound_ite ?_ ?_) <;> rw [State.sound_iff]
  · exact ⟨⟨Memory.wf_write _ _ _ h.1.1, h.1.2⟩, h.2⟩
  · exact ⟨⟨h.1.1, Memory.wf_write _ _ _ h.1.2.1, h.1.2.2⟩, h.2⟩
  · exact ⟨⟨h.1.1, h.1.2.1, Memory.wf_write _ _ _ h.1.2.2⟩, h.2⟩

theorem State.zeroTier_sound (s : State) (tier a n : Nat) (h : s.sound = true) : (s.zeroTier tier a n).sound = true := by
  rw [State.sound_iff] at h
  unfold State.zeroTier
  refine sound_ite ?_ (sound_ite ?_ ?_) <;> rw [State.sound_iff]
  · exact ⟨⟨Memory.wf_zero _ _ _ h.1.1, h.1.2⟩, h.2⟩
  · exact ⟨⟨h.1.1, Memory.wf_zero _ _ _ h.1.2.1, h.1.2.2⟩, h.2⟩
  · exact ⟨⟨h.1.1, h.1.2.1, Memory.wf_zero _ _ _ h.1.2.2⟩, h.2⟩

theorem State.mendKeys_sound (s : State) (ks : List Nat) (hs : s.sound = true) :
    (State.mendKeys s ks).sound = true := by
  delta State.mendKeys
  repeat' first
    | with_reducible assumption
    | with_reducible refine State.sound_mk ?_ rfl rfl rfl rfl rfl rfl rfl

theorem State.poisonKeys_sound (s : State) (ks : List Nat) (hs : s.sound = true) :
    (State.poisonKeys s ks).sound = true := by
  delta State.poisonKeys
  repeat' first
    | with_reducible assumption
    | with_reducible refine State.sound_mk ?_ rfl rfl rfl rfl rfl rfl rfl

theorem State.upPool_sound (s : State) (f : PoolState → PoolState) (hs : s.sound = true) :
    (State.upPool s f).sound = true := by
  delta State.upPool
  repeat' first
    | with_reducible assumption
    | with_reducible refine State.sound_mk ?_ rfl rfl rfl rfl rfl rfl rfl

theorem State.upFab_sound (s : State) (f : FabState → FabState) (hs : s.sound = true) :
    (State.upFab s f).sound = true := by
  delta State.upFab
  repeat' first
    | with_reducible assumption
    | with_reducible refine State.sound_mk ?_ rfl rfl rfl rfl rfl rfl rfl

theorem State.upCmd_sound (s : State) (f : CmdState → CmdState) (hs : s.sound = true) :
    (State.upCmd s f).sound = true := by
  delta State.upCmd
  repeat' first
    | with_reducible assumption
    | with_reducible refine State.sound_mk ?_ rfl rfl rfl rfl rfl rfl rfl

theorem State.upXbr_sound (s : State) (f : XbrState → XbrState) (hs : s.sound = true) :
    (State.upXbr s f).sound = true := by
  delta State.upXbr
  repeat' first
    | with_reducible assumption
    | with_reducible refine State.sound_mk ?_ rfl rfl rfl rfl rfl rfl rfl

theorem State.upShp_sound (s : State) (f : ShpState → ShpState) (hs : s.sound = true) :
    (State.upShp s f).sound = true := by
  delta State.upShp
  repeat' first
    | with_reducible assumption
    | with_reducible refine State.sound_mk ?_ rfl rfl rfl rfl rfl rfl rfl

theorem State.upRed_sound (s : State) (f : RedState → RedState) (hs : s.sound = true) :
    (State.upRed s f).sound = true := by
  delta State.upRed
  repeat' first
    | with_reducible assumption
    | with_reducible refine State.sound_mk ?_ rfl rfl rfl rfl rfl rfl rfl

theorem State.upAtt_sound (s : State) (f : AttState → AttState) (hs : s.sound = true) :
    (State.upAtt s f).sound = true := by
  delta State.upAtt
  repeat' first
    | with_reducible assumption
    | with_reducible refine State.sound_mk ?_ rfl rfl rfl rfl rfl rfl rfl

theorem State.upSqt_sound (s : State) (f : SqtState → SqtState) (hs : s.sound = true) :
    (State.upSqt s f).sound = true := by
  delta State.upSqt
  repeat' first
    | with_reducible assumption
    | with_reducible refine State.sound_mk ?_ rfl rfl rfl rfl rfl rfl rfl

theorem State.upCkp_sound (s : State) (f : CkpState → CkpState) (hs : s.sound = true) :
    (State.upCkp s f).sound = true := by
  delta State.upCkp
  repeat' first
    | with_reducible assumption
    | with_reducible refine State.sound_mk ?_ rfl rfl rfl rfl rfl rfl rfl

theorem State.upCoh_sound (s : State) (f : CohState → CohState) (hs : s.sound = true) :
    (State.upCoh s f).sound = true := by
  delta State.upCoh
  repeat' first
    | with_reducible assumption
    | with_reducible refine State.sound_mk ?_ rfl rfl rfl rfl rfl rfl rfl

theorem State.upSec_sound (s : State) (f : SecState → SecState) (hs : s.sound = true) :
    (State.upSec s f).sound = true := by
  delta State.upSec
  repeat' first
    | with_reducible assumption
    | with_reducible refine State.sound_mk ?_ rfl rfl rfl rfl rfl rfl rfl

theorem State.upCar_sound (s : State) (f : CarState → CarState) (hs : s.sound = true) :
    (State.upCar s f).sound = true := by
  delta State.upCar
  repeat' first
    | with_reducible assumption
    | with_reducible refine State.sound_mk ?_ rfl rfl rfl rfl rfl rfl rfl

theorem State.upFw_sound (s : State) (f : FwState → FwState) (hs : s.sound = true) :
    (State.upFw s f).sound = true := by
  delta State.upFw
  repeat' first
    | with_reducible assumption
    | with_reducible apply State.upCar_sound

theorem State.upFlt_sound (s : State) (f : FltState → FltState) (hs : s.sound = true) :
    (State.upFlt s f).sound = true := by
  delta State.upFlt
  repeat' first
    | with_reducible assumption
    | with_reducible refine State.sound_mk ?_ rfl rfl rfl rfl rfl rfl rfl

theorem State.upImg_sound (s : State) (f : ImageState → ImageState) (hs : s.sound = true) :
    (State.upImg s f).sound = true := by
  delta State.upImg
  repeat' first
    | with_reducible assumption
    | with_reducible refine State.sound_mk ?_ rfl rfl rfl rfl rfl rfl rfl

theorem State.upPort_sound (s : State) (p : Nat) (f : PortState → PortState) (hs : s.sound = true) :
    (State.upPort s p f).sound = true := by
  delta State.upPort
  repeat' first
    | with_reducible assumption
    | with_reducible apply State.upFab_sound

theorem State.upSp_sound (s : State) (p : Nat) (f : ShpPort → ShpPort) (hs : s.sound = true) :
    (State.upSp s p f).sound = true := by
  delta State.upSp
  repeat' first
    | with_reducible assumption
    | with_reducible apply State.upShp_sound

end Sys2Proof.Machine
end

