-- ==== Sys2Proof/Laws/Sound/Events.lean ====
section
/-!
SUPPORT. Soundness is kept by every operation of Machine/Events.lean.
-/
namespace Sys2Proof.Machine

theorem State.dmaWrite_sound (s : State) (iova : Nat) (d : Bytes) (hs : s.sound = true) :
    (State.dmaWrite s iova d).sound = true := by
  delta State.dmaWrite
  repeat' first
    | with_reducible assumption
    | with_reducible apply State.emit_sound
    | with_reducible apply State.writeTier_sound

theorem State.eqWrite_sound (s : State) (e : Event) (hs : s.sound = true) :
    (State.eqWrite s e).sound = true := by
  delta State.eqWrite
  repeat' first
    | with_reducible assumption
    | (lift_lets; intro x; clear_value x)
    | with_reducible apply State.wr_sound
    | with_reducible apply State.emit_sound
    | with_reducible apply State.upFlt_sound
    | with_reducible apply State.dmaWrite_sound
    | with_reducible apply sound_ite

theorem State.flashAppend_sound (s : State) (es : List Event) (hs : s.sound = true) :
    (State.flashAppend s es).sound = true := by
  delta State.flashAppend
  repeat' first
    | with_reducible assumption
    | (lift_lets; intro x; clear_value x)
    | split
    | with_reducible refine State.sound_mk ?_ rfl rfl rfl rfl rfl rfl rfl

theorem State.record_sound (s : State) (e : Event) (hs : s.sound = true) :
    (State.record s e).1.sound = true := by
  delta State.record
  repeat' first
    | with_reducible assumption
    | (lift_lets; intro x; clear_value x)
    | with_reducible apply State.wr_sound
    | with_reducible apply State.upFlt_sound

theorem State.eqResume_sound (s : State) (linkUp : Bool) (hs : s.sound = true) :
    (State.eqResume s linkUp).sound = true := by
  delta State.eqResume
  repeat' first
    | with_reducible assumption
    | with_reducible apply State.upFlt_sound
    | with_reducible apply State.eqWrite_sound
    | with_reducible apply State.record_sound
    | with_reducible apply sound_ite

theorem State.deliver_sound (s : State) (e : Event) (hs : s.sound = true) :
    (State.deliver s e).sound = true := by
  delta State.deliver
  repeat' first
    | with_reducible assumption
    | (lift_lets; intro x; refine have hx : x.sound = true := ?_; ?_; (unfold x); rotate_left; clear_value x; rotate_right)
    | with_reducible apply State.bump_sound
    | with_reducible apply State.upFlt_sound
    | with_reducible apply State.eqWrite_sound
    | with_reducible apply State.record_sound
    | with_reducible apply State.eqResume_sound
    | with_reducible apply sound_ite

theorem State.event_sound (s : State) (r : Report) (hs : s.sound = true) :
    (State.event s r).sound = true := by
  delta State.event
  repeat' first
    | with_reducible assumption
    | (lift_lets; intro x; clear_value x)
    | with_reducible apply State.upFlt_sound
    | with_reducible apply State.deliver_sound
    | with_reducible apply sound_ite

theorem State.carEvent_sound (s : State) (code sev : Nat) (params : List Nat) (pair : Bool) (hs : s.sound = true) :
    (State.carEvent s code sev params pair).sound = true := by
  delta State.carEvent
  repeat' first
    | with_reducible assumption
    | with_reducible apply State.event_sound
    | with_reducible apply sound_ite

theorem State.setScore_sound (s : State) (cls inst : Nat) (sc : Score) (hs : s.sound = true) :
    (State.setScore s cls inst sc).sound = true := by
  delta State.setScore
  repeat' first
    | with_reducible assumption
    | (lift_lets; intro x; clear_value x)
    | with_reducible apply State.bump_sound
    | with_reducible apply State.upFlt_sound
    | with_reducible apply State.event_sound
    | with_reducible apply sound_ite

theorem State.charge_sound (s : State) (cls inst row n per weight : Nat) (hs : s.sound = true) :
    (State.charge s cls inst row n per weight).sound = true := by
  delta State.charge
  repeat' first
    | with_reducible assumption
    | (lift_lets; intro x; clear_value x)
    | with_reducible apply State.setScore_sound

theorem State.memUe_sound (s : State) (a source : Nat) (hs : s.sound = true) :
    (State.memUe s a source).sound = true := by
  delta State.memUe
  repeat' first
    | with_reducible assumption
    | (lift_lets; intro x; clear_value x)
    | with_reducible apply State.bump_sound
    | with_reducible apply State.event_sound
    | with_reducible apply State.charge_sound

theorem State.regFault_sound (s : State) (off fen : Nat) (hs : s.sound = true) :
    (State.regFault s off fen).sound = true := by
  delta State.regFault
  repeat' first
    | with_reducible assumption
    | with_reducible apply State.event_sound

end Sys2Proof.Machine
end

