-- ==== Sys2Proof/Laws/Sound/Switch.lean ====
section
/-!
SUPPORT. Soundness is kept by every operation of Machine/Switch.lean.
-/
namespace Sys2Proof.Machine

theorem State.drop_sound (s : State) (cause conn p : Nat) (hs : s.sound = true) :
    (State.drop s cause conn p).sound = true := by
  delta State.drop
  repeat' first
    | with_reducible assumption
    | with_reducible apply State.bump_sound
    | with_reducible apply sound_ite

theorem State.setShadow_sound (s : State) (b : Bank) (hs : s.sound = true) :
    (State.setShadow s b).sound = true := by
  delta State.setShadow
  repeat' first
    | with_reducible assumption
    | with_reducible apply State.upXbr_sound

theorem State.noteDepth_sound (s : State) (p q : Nat) (hs : s.sound = true) :
    (State.noteDepth s p q).sound = true := by
  delta State.noteDepth
  repeat' first
    | with_reducible assumption
    | (lift_lets; intro x; clear_value x)
    | with_reducible apply State.wr_sound
    | with_reducible apply State.raise_sound

theorem State.capture_sound (s : State) (qp : QPkt) (sampled : Bool) (mtch : Option Nat) (out cause depth : Nat) (hs : s.sound = true) :
    (State.capture s qp sampled mtch out cause depth).sound = true := by
  delta State.capture
  repeat' first
    | with_reducible assumption
    | (lift_lets; intro x; clear_value x)
    | with_reducible apply State.wr_sound
    | with_reducible apply State.bump_sound
    | with_reducible apply State.writeTier_sound
    | with_reducible apply State.mendKeys_sound
    | with_reducible apply State.upXbr_sound
    | with_reducible apply sound_ite

theorem State.voqPush_sound (s : State) (o : Nat) (qp : QPkt) (hs : s.sound = true) :
    (State.voqPush s o qp).sound = true := by
  delta State.voqPush
  repeat' first
    | with_reducible assumption
    | (lift_lets; intro x; clear_value x)
    | with_reducible apply State.upXbr_sound

theorem State.ingressFree_sound (s : State) (qp : QPkt) (hs : s.sound = true) :
    (State.ingressFree s qp).sound = true := by
  delta State.ingressFree
  repeat' first
    | with_reducible assumption
    | (lift_lets; intro x; clear_value x)
    | with_reducible apply State.inc_sound
    | with_reducible apply State.dec_sound
    | with_reducible apply sound_ite

theorem State.fenceAnswered_sound (s : State) (p : Packet) (hs : s.sound = true) :
    (State.fenceAnswered s p).sound = true := by
  delta State.fenceAnswered
  repeat' first
    | with_reducible assumption
    | with_reducible apply State.upFab_sound
    | with_reducible apply sound_ite

theorem State.dispatchPkt_sound (s : State) (qp : QPkt) (v : Verdict) (hs : s.sound = true) :
    (State.dispatchPkt s qp v).sound = true := by
  delta State.dispatchPkt
  repeat' first
    | with_reducible assumption
    | (lift_lets; intro x; clear_value x)
    | with_reducible apply State.upFab_sound
    | with_reducible apply State.drop_sound
    | with_reducible apply State.voqPush_sound
    | with_reducible apply State.ingressFree_sound
    | with_reducible apply State.fenceAnswered_sound
    | split

theorem State.send_sound (s : State) (conn : Nat) (p : Packet) (hs : s.sound = true) :
    (State.send s conn p).sound = true := by
  delta State.send
  repeat' first
    | with_reducible assumption
    | (lift_lets; intro x; clear_value x)
    | with_reducible apply State.capture_sound
    | with_reducible apply State.dispatchPkt_sound
    | split

theorem State.answerDead_sound (s : State) (p : Nat) (req : Packet) (hs : s.sound = true) :
    (State.answerDead s p req).sound = true := by
  delta State.answerDead
  repeat' first
    | with_reducible assumption
    | (lift_lets; intro x; clear_value x)
    | with_reducible apply State.bump_sound
    | with_reducible apply State.send_sound

theorem State.routePkt_sound (s : State) (qp : QPkt) (v : Verdict) (hs : s.sound = true) :
    (State.routePkt s qp v).sound = true := by
  delta State.routePkt
  repeat' first
    | with_reducible assumption
    | (lift_lets; intro x; clear_value x)
    | with_reducible apply State.capture_sound
    | with_reducible apply State.ingressFree_sound
    | with_reducible apply State.dispatchPkt_sound
    | with_reducible apply State.answerDead_sound
    | split

theorem State.sweepN_sound (n : Nat) (s : State) (h : s.sound = true) : (State.sweepN n s).sound = true := by
  induction n generalizing s with
  | zero => exact h
  | succ n ih =>
    unfold State.sweepN
    split
    · exact h
    · exact ih _ (State.routePkt_sound _ _ _ (State.upFab_sound _ _ h))

theorem State.sweepFences_sound (s : State) (hs : s.sound = true) :
    (State.sweepFences s).sound = true := by
  delta State.sweepFences
  repeat' first
    | with_reducible assumption
    | with_reducible apply State.sweepN_sound

theorem State.answer_sound (s : State) (conn : Nat) (p : Packet) (hs : s.sound = true) :
    (State.answer s conn p).sound = true := by
  delta State.answer
  repeat' first
    | with_reducible assumption
    | with_reducible apply State.send_sound
    | with_reducible apply State.sweepFences_sound

theorem State.orphan_sound (s : State) (p : Nat) (qp : QPkt) (hs : s.sound = true) :
    (State.orphan s p qp).sound = true := by
  delta State.orphan
  repeat' first
    | with_reducible assumption
    | (lift_lets; intro x; refine have hx : x.sound = true := ?_; ?_; (unfold x); rotate_left; clear_value x; rotate_right)
    | with_reducible apply State.drop_sound
    | with_reducible apply State.ingressFree_sound
    | with_reducible apply State.answerDead_sound
    | with_reducible apply sound_ite

theorem State.pullPort_sound (s : State) (p : Nat) (hs : s.sound = true) :
    (State.pullPort s p).2.sound = true := by
  delta State.pullPort
  repeat' first
    | with_reducible assumption
    | (lift_lets; intro x; clear_value x)
    | with_reducible apply State.upXbr_sound
    | with_reducible apply State.upPort_sound

theorem State.markHomeDead_sound (s : State) (p h : Nat) (hs : s.sound = true) :
    (State.markHomeDead s p h).sound = true := by
  delta State.markHomeDead
  repeat' first
    | with_reducible assumption
    | (lift_lets; intro x; clear_value x)
    | with_reducible apply State.wr_sound
    | with_reducible apply State.event_sound

theorem State.declareDead_sound (s : State) (p cause : Nat) (hs : s.sound = true) :
    (State.declareDead s p cause).sound = true := by
  delta State.declareDead
  repeat' first
    | with_reducible assumption
    | (lift_lets; intro x; refine have hx : x.sound = true := ?_; ?_; (unfold x); rotate_left; clear_value x; rotate_right)
    | (refine fun _ => ?_; intros; try dsimp -zeta only)
    | with_reducible apply State.wr_sound
    | with_reducible apply State.bump_sound
    | with_reducible apply State.upXbr_sound
    | with_reducible apply State.upPort_sound
    | with_reducible apply State.event_sound
    | with_reducible apply State.orphan_sound
    | with_reducible apply State.pullPort_sound
    | with_reducible apply State.markHomeDead_sound
    | with_reducible apply sound_ite
    | with_reducible apply foldl_sound

end Sys2Proof.Machine
end

