-- ==== Sys2Proof/Laws/Sound/Access.lean ====
section
/-!
SUPPORT. Soundness is kept by every operation of Machine/Access.lean.
-/
namespace Sys2Proof.Machine

theorem State.refuseAccess_sound (s : State) (a : Access) (off : Nat) (hs : s.sound = true) :
    (State.refuseAccess s a off).sound = true := by
  delta State.refuseAccess
  repeat' first
    | with_reducible assumption
    | with_reducible apply State.emit_sound
    | with_reducible apply sound_ite

theorem State.window_sound (a : Access) (off : Nat) (act : State → State) (s : State) (hs : s.sound = true) (h_act : ∀ (x0 : State), x0.sound = true → (act x0).sound = true) :
    (State.window a off act s).sound = true := by
  delta State.window
  repeat' first
    | with_reducible assumption
    | with_reducible apply h_act
    | with_reducible apply State.bump_sound
    | with_reducible apply State.regFault_sound
    | with_reducible apply State.refuseAccess_sound
    | with_reducible apply sound_ite

theorem State.setEnd_sound (s : State) (status done : Fld) (st : Nat) (hs : s.sound = true) :
    (State.setEnd s status done st).sound = true := by
  delta State.setEnd
  repeat' first
    | with_reducible assumption
    | with_reducible apply State.wr_sound

end Sys2Proof.Machine
end

