-- ==== Sys2Proof/Laws/Sound/PoolOps.lean ====
section
/-!
SUPPORT. Soundness is kept by every operation of Machine/PoolOps.lean.
-/
namespace Sys2Proof.Machine

theorem State.upExt_sound (s : State) (i : Nat) (f : Extent → Extent) (hs : s.sound = true) :
    (State.upExt s i f).sound = true := by
  delta State.upExt
  repeat' first
    | with_reducible assumption
    | with_reducible apply State.upPool_sound

theorem State.refuseNoRes_sound (s : State) (fen : Nat) (hs : s.sound = true) :
    (State.refuseNoRes s fen).sound = true := by
  delta State.refuseNoRes
  repeat' first
    | with_reducible assumption
    | with_reducible apply State.bump_sound

theorem State.refuseFull_sound (s : State) (fen : Nat) (hs : s.sound = true) :
    (State.refuseFull s fen).sound = true := by
  delta State.refuseFull
  repeat' first
    | with_reducible assumption
    | with_reducible apply State.bump_sound

theorem State.chargeUnits_sound (s : State) (tier fen n : Nat) (capring : Bool) (hs : s.sound = true) :
    (State.chargeUnits s tier fen n capring).sound = true := by
  delta State.chargeUnits
  repeat' first
    | with_reducible assumption
    | (lift_lets; intro x; refine have hx : x.sound = true := ?_; ?_; (unfold x); rotate_left; clear_value x; rotate_right)
    | with_reducible apply State.inc_sound
    | with_reducible apply State.measure_sound
    | with_reducible apply sound_ite

theorem State.returnUnits_sound (s : State) (tier fen n : Nat) (capring : Bool) (hs : s.sound = true) :
    (State.returnUnits s tier fen n capring).sound = true := by
  delta State.returnUnits
  repeat' first
    | with_reducible assumption
    | (lift_lets; intro x; refine have hx : x.sound = true := ?_; ?_; (unfold x); rotate_left; clear_value x; rotate_right)
    | with_reducible apply State.dec_sound
    | with_reducible apply State.measure_sound
    | with_reducible apply sound_ite

theorem State.takeFree_sound (s : State) (tier n : Nat) (hs : s.sound = true) :
    (State.takeFree s tier n).sound = true := by
  delta State.takeFree
  repeat' first
    | with_reducible assumption
    | with_reducible apply State.dec_sound
    | with_reducible apply sound_ite

theorem State.giveFree_sound (s : State) (tier n : Nat) (hs : s.sound = true) :
    (State.giveFree s tier n).sound = true := by
  delta State.giveFree
  repeat' first
    | with_reducible assumption
    | with_reducible apply State.inc_sound
    | with_reducible apply sound_ite

theorem State.scrub_sound (s : State) (k : Scrub) (hs : s.sound = true) :
    (State.scrub s k).sound = true := by
  delta State.scrub
  repeat' first
    | with_reducible assumption
    | (lift_lets; intro x; refine have hx : x.sound = true := ?_; ?_; (unfold x); rotate_left; clear_value x; rotate_right)
    | with_reducible apply State.inc_sound
    | with_reducible apply State.measure_sound
    | with_reducible apply State.upPool_sound

theorem State.freeExtent_sound (s : State) (i : Nat) (rgn : Option Nat) (hs : s.sound = true) :
    (State.freeExtent s i rgn).sound = true := by
  delta State.freeExtent
  repeat' first
    | with_reducible assumption
    | (lift_lets; intro x; clear_value x)
    | with_reducible apply State.dec_sound
    | with_reducible apply State.upExt_sound
    | with_reducible apply State.scrub_sound
    | with_reducible apply sound_ite

theorem State.upLease_sound (s : State) (clid : Nat) (f : Lease → Lease) (hs : s.sound = true) :
    (State.upLease s clid f).sound = true := by
  delta State.upLease
  repeat' first
    | with_reducible assumption
    | with_reducible apply State.upPool_sound

theorem State.syncLease_sound (s : State) (clid : Nat) (hs : s.sound = true) :
    (State.syncLease s clid).sound = true := by
  delta State.syncLease
  repeat' first
    | with_reducible assumption
    | (lift_lets; intro x; clear_value x)
    | with_reducible apply State.upLease_sound
    | with_reducible apply sound_ite
    | split

theorem State.syncLeases_sound (s : State) (hs : s.sound = true) :
    (State.syncLeases s).sound = true := by
  delta State.syncLeases
  repeat' first
    | with_reducible assumption
    | (refine fun _ => ?_; intros; try dsimp -zeta only)
    | with_reducible apply State.syncLease_sound
    | with_reducible apply foldl_sound

theorem State.releaseMove_sound (s : State) (i : Nat) (hs : s.sound = true) :
    (State.releaseMove s i).sound = true := by
  delta State.releaseMove
  repeat' first
    | with_reducible assumption
    | (lift_lets; intro x; refine have hx : x.sound = true := ?_; ?_; (unfold x); rotate_left; clear_value x; rotate_right)
    | (lift_lets; intro x; clear_value x)
    | with_reducible apply State.bump_sound
    | with_reducible apply State.upPool_sound
    | with_reducible apply State.upExt_sound
    | with_reducible apply State.returnUnits_sound
    | with_reducible apply State.giveFree_sound
    | with_reducible apply State.scrub_sound
    | with_reducible apply sound_ite
    | split

theorem State.raiseRefs_sound (s : State) (rs ws : List Nat) (hs : s.sound = true) :
    OptSound (State.raiseRefs s rs ws) := by
  delta State.raiseRefs
  repeat' first
    | with_reducible assumption
    | (lift_lets; intro x; refine have hx : x.sound = true := ?_; ?_; (unfold x); rotate_left; clear_value x; rotate_right)
    | (refine fun _ => ?_; intros; try dsimp -zeta only)
    | with_reducible apply State.upExt_sound
    | exact optSound_none
    | with_reducible apply optSound_some
    | with_reducible apply optSound_ite
    | with_reducible apply foldl_sound

theorem State.dropRefs_sound (s : State) (rs ws : List Nat) (hs : s.sound = true) :
    (State.dropRefs s rs ws).sound = true := by
  delta State.dropRefs
  repeat' first
    | with_reducible assumption
    | (lift_lets; intro x; refine have hx : x.sound = true := ?_; ?_; (unfold x); rotate_left; clear_value x; rotate_right)
    | (refine fun _ => ?_; intros; try dsimp -zeta only)
    | with_reducible apply State.upExt_sound
    | with_reducible apply foldl_sound

theorem State.writeLocal_sound (s : State) (i a : Nat) (d : Bytes) (hs : s.sound = true) :
    (State.writeLocal s i a d).sound = true := by
  delta State.writeLocal
  repeat' first
    | with_reducible assumption
    | (lift_lets; intro x; clear_value x)
    | with_reducible apply State.writeTier_sound
    | with_reducible apply sound_ite
    | split
    | with_reducible refine State.sound_mk ?_ rfl rfl rfl rfl rfl rfl rfl

theorem State.noteBad_sound (s : State) (tier a n : Nat) (hs : s.sound = true) :
    (State.noteBad s tier a n).sound = true := by
  delta State.noteBad
  repeat' first
    | with_reducible assumption
    | (refine fun _ => ?_; intros; try dsimp -zeta only)
    | with_reducible apply State.memUe_sound
    | with_reducible apply sound_ite
    | with_reducible apply foldl_sound

end Sys2Proof.Machine
end

