-- ==== Sys2Proof/Laws/Sound/CmdOps.lean ====
section
/-!
SUPPORT. Soundness is kept by every operation of Machine/CmdOps.lean.
-/
namespace Sys2Proof.Machine

theorem State.upRing_sound (s : State) (p : Nat) (f : Ring → Ring) (hs : s.sound = true) :
    (State.upRing s p f).sound = true := by
  delta State.upRing
  repeat' first
    | with_reducible assumption
    | with_reducible apply State.upCmd_sound

theorem State.upCid_sound (s : State) (cid : Nat) (f : Cmd → Cmd) (hs : s.sound = true) :
    (State.upCid s cid f).sound = true := by
  delta State.upCid
  repeat' first
    | with_reducible assumption
    | with_reducible apply State.upCmd_sound

theorem State.upChunk_sound (s : State) (cid k : Nat) (f : Chunk → Chunk) (hs : s.sound = true) :
    (State.upChunk s cid k f).sound = true := by
  delta State.upChunk
  repeat' first
    | with_reducible assumption
    | with_reducible apply State.upCid_sound

theorem State.addCmd_sound (s : State) (c : Cmd) (hs : s.sound = true) :
    (State.addCmd s c).1.sound = true := by
  delta State.addCmd
  repeat' first
    | with_reducible assumption
    | with_reducible apply State.upCmd_sound

theorem State.syncCmd_sound (s : State) (fen : Nat) (hs : s.sound = true) :
    (State.syncCmd s fen).sound = true := by
  delta State.syncCmd
  repeat' first
    | with_reducible assumption
    | (lift_lets; intro x; clear_value x)
    | with_reducible apply State.wr_sound
    | with_reducible apply State.measure_sound

theorem State.requeue_sound (s : State) (cid k : Nat) (hs : s.sound = true) :
    (State.requeue s cid k).sound = true := by
  delta State.requeue
  repeat' first
    | with_reducible assumption
    | (lift_lets; intro x; refine have hx : x.sound = true := ?_; ?_; (unfold x); rotate_left; clear_value x; rotate_right)
    | with_reducible apply State.upCmd_sound
    | with_reducible apply State.upChunk_sound
    | with_reducible apply State.syncCmd_sound
    | split
    | with_reducible refine State.sound_mk ?_ rfl rfl rfl rfl rfl rfl rfl

theorem State.preemptKill_sound (s : State) (cluster : Nat) (hs : s.sound = true) :
    (State.preemptKill s cluster).sound = true := by
  delta State.preemptKill
  repeat' first
    | with_reducible assumption
    | (lift_lets; intro x; refine have hx : x.sound = true := ?_; ?_; (unfold x); rotate_left; clear_value x; rotate_right)
    | (lift_lets; intro x; clear_value x)
    | with_reducible apply State.bump_sound
    | with_reducible apply State.upCmd_sound
    | with_reducible apply State.upCid_sound
    | with_reducible apply State.requeue_sound
    | with_reducible apply sound_ite
    | split

theorem State.preemptFor_sound (ws : List Waiting) (ps : List Nat) (s : State) (h : s.sound = true) :
    (State.preemptFor ws ps s).sound = true := by
  induction ws generalizing ps s with
  | nil => exact h
  | cons w ws ih =>
    unfold State.preemptFor
    dsimp only
    split
    · exact ih _ _ h
    · split
      · exact ih _ _ (State.preemptKill_sound _ _ h)
      · exact ih _ _ h

theorem State.preempt_sound (s : State) (hs : s.sound = true) :
    (State.preempt s).sound = true := by
  delta State.preempt
  repeat' first
    | with_reducible assumption
    | with_reducible apply State.preemptFor_sound

theorem State.endWork_sound (s : State) (cid : Nat) (hs : s.sound = true) :
    (State.endWork s cid).sound = true := by
  delta State.endWork
  repeat' first
    | with_reducible assumption
    | (lift_lets; intro x; refine have hx : x.sound = true := ?_; ?_; (unfold x); rotate_left; clear_value x; rotate_right)
    | with_reducible apply State.upPool_sound
    | with_reducible apply State.upFab_sound
    | with_reducible apply State.upCmd_sound
    | with_reducible apply State.dropRefs_sound
    | with_reducible apply State.syncCmd_sound
    | split

theorem State.ringError_sound (s : State) (p : Nat) (hs : s.sound = true) :
    (State.ringError s p).sound = true := by
  delta State.ringError
  repeat' first
    | with_reducible assumption
    | with_reducible apply State.bump_sound
    | with_reducible apply State.upRing_sound
    | with_reducible apply sound_ite

theorem State.writeEntry_sound (s : State) (c : Cmd) (status malf : Nat) (hs : s.sound = true) :
    (State.writeEntry s c status malf).sound = true := by
  delta State.writeEntry
  repeat' first
    | with_reducible assumption
    | (lift_lets; intro x; clear_value x)
    | with_reducible apply State.bump_sound
    | with_reducible apply State.writeLocal_sound
    | with_reducible apply State.upRing_sound
    | with_reducible apply State.ringError_sound
    | with_reducible apply sound_ite

theorem State.complete_sound (s : State) (cid status : Nat) (malf : Nat) (hs : s.sound = true) :
    (State.complete s cid status malf).sound = true := by
  delta State.complete
  repeat' first
    | with_reducible assumption
    | with_reducible apply State.endWork_sound
    | with_reducible apply State.writeEntry_sound
    | split

theorem State.stopCmd_sound (s : State) (cid : Nat) (hs : s.sound = true) :
    (State.stopCmd s cid).sound = true := by
  delta State.stopCmd
  repeat' first
    | with_reducible assumption
    | (lift_lets; intro x; clear_value x)
    | (refine fun _ => ?_; intros; try dsimp -zeta only)
    | with_reducible apply State.releaseMove_sound
    | with_reducible apply State.upRing_sound
    | with_reducible apply State.endWork_sound
    | with_reducible apply sound_ite
    | with_reducible apply foldl_sound
    | split

theorem State.abortMove_sound (s : State) (i status : Nat) (hs : s.sound = true) :
    (State.abortMove s i status).sound = true := by
  delta State.abortMove
  repeat' first
    | with_reducible assumption
    | (lift_lets; intro x; refine have hx : x.sound = true := ?_; ?_; (unfold x); rotate_left; clear_value x; rotate_right)
    | with_reducible apply State.releaseMove_sound
    | with_reducible apply State.complete_sound
    | split

theorem State.softKill_sound (s : State) (cid k : Nat) (hs : s.sound = true) :
    (State.softKill s cid k).sound = true := by
  delta State.softKill
  repeat' first
    | with_reducible assumption
    | with_reducible apply State.requeue_sound

theorem State.transient_sound (s : State) (ph cause : Nat) (hs : s.sound = true) :
    (State.transient s ph cause).sound = true := by
  delta State.transient
  repeat' first
    | with_reducible assumption
    | (lift_lets; intro x; refine have hx : x.sound = true := ?_; ?_; (unfold x); rotate_left; clear_value x; rotate_right)
    | with_reducible apply State.bump_sound
    | with_reducible apply State.upFlt_sound
    | with_reducible apply State.event_sound
    | with_reducible apply State.charge_sound

theorem State.mapOut_sound (s : State) (ph : Nat) (hs : s.sound = true) :
    (State.mapOut s ph).sound = true := by
  delta State.mapOut
  repeat' first
    | with_reducible assumption
    | with_reducible apply State.wr_sound
    | with_reducible apply State.bump_sound

theorem State.clusterLost_sound (s : State) (c : Nat) (hs : s.sound = true) :
    (State.clusterLost s c).sound = true := by
  delta State.clusterLost
  repeat' first
    | with_reducible assumption
    | (lift_lets; intro x; clear_value x)
    | with_reducible apply State.wr_sound
    | with_reducible apply State.event_sound
    | with_reducible apply State.mapOut_sound
    | with_reducible apply sound_ite

theorem State.lasting_sound (s : State) (ph : Nat) (hs : s.sound = true) :
    (State.lasting s ph).sound = true := by
  delta State.lasting
  repeat' first
    | with_reducible assumption
    | (lift_lets; intro x; refine have hx : x.sound = true := ?_; ?_; (unfold x); rotate_left; clear_value x; rotate_right)
    | (lift_lets; intro x; clear_value x)
    | (refine fun _ => ?_; intros; try dsimp -zeta only)
    | with_reducible apply State.upFlt_sound
    | with_reducible apply State.softKill_sound
    | with_reducible apply State.clusterLost_sound
    | with_reducible apply sound_ite
    | with_reducible apply foldl_sound
    | split

theorem State.spared_sound (s : State) (c : Nat) (hs : s.sound = true) :
    (State.spared s c).sound = true := by
  delta State.spared
  repeat' first
    | with_reducible assumption
    | (lift_lets; intro x; clear_value x)
    | with_reducible apply State.wr_sound
    | with_reducible apply State.upFlt_sound
    | with_reducible apply State.event_sound
    | with_reducible apply State.mapOut_sound

theorem State.clusterFault_sound (s : State) (cl cause cid k : Nat) (hs : s.sound = true) :
    (State.clusterFault s cl cause cid k).sound = true := by
  delta State.clusterFault
  repeat' first
    | with_reducible assumption
    | (lift_lets; intro x; clear_value x)
    | with_reducible apply State.upFlt_sound
    | with_reducible apply State.event_sound
    | with_reducible apply State.upChunk_sound
    | with_reducible apply sound_ite

theorem State.rerunPassed_sound (s : State) (cid k : Nat) (hs : s.sound = true) :
    (State.rerunPassed s cid k).sound = true := by
  delta State.rerunPassed
  repeat' first
    | with_reducible assumption
    | with_reducible apply State.upChunk_sound
    | with_reducible apply State.transient_sound
    | split

theorem State.stage_sound (s : State) (cid k : Nat) (f : Chunk → Chunk) (hs : s.sound = true) :
    (State.stage s cid k f).sound = true := by
  delta State.stage
  repeat' first
    | with_reducible assumption
    | (lift_lets; intro x; refine have hx : x.sound = true := ?_; ?_; (unfold x); rotate_left; clear_value x; rotate_right)
    | with_reducible apply State.upCmd_sound
    | with_reducible apply State.upChunk_sound
    | with_reducible apply State.rerunPassed_sound

theorem State.requeueAll_sound (s : State) (cid : Nat) (hs : s.sound = true) :
    (State.requeueAll s cid).sound = true := by
  delta State.requeueAll
  repeat' first
    | with_reducible assumption
    | (lift_lets; intro x; clear_value x)
    | (refine fun _ => ?_; intros; try dsimp -zeta only)
    | with_reducible apply State.softKill_sound
    | with_reducible apply foldl_sound
    | split

theorem State.quiesceKill_sound (s : State) (fen : Nat) (hs : s.sound = true) :
    (State.quiesceKill s fen).sound = true := by
  delta State.quiesceKill
  repeat' first
    | with_reducible assumption
    | (refine fun _ => ?_; intros; try dsimp -zeta only)
    | with_reducible apply State.requeueAll_sound
    | with_reducible apply foldl_sound

theorem State.noteBadPieces_sound (s : State) (ps : List Seg) (hs : s.sound = true) :
    (State.noteBadPieces s ps).sound = true := by
  delta State.noteBadPieces
  repeat' first
    | with_reducible assumption
    | (refine fun _ => ?_; intros; try dsimp -zeta only)
    | with_reducible apply State.noteBad_sound
    | with_reducible apply foldl_sound

theorem State.performWrite_sound (s : State) (w : StagedWrite) (hs : s.sound = true) :
    (State.performWrite s w).sound = true := by
  delta State.performWrite
  repeat' first
    | with_reducible assumption
    | (lift_lets; intro x; clear_value x)
    | (refine fun _ => ?_; intros; try dsimp -zeta only)
    | with_reducible apply State.writeTier_sound
    | with_reducible apply State.mendKeys_sound
    | with_reducible apply State.poisonKeys_sound
    | with_reducible apply State.memUe_sound
    | with_reducible apply sound_ite
    | with_reducible apply foldl_sound

theorem State.checkFail_sound (s : State) (cid k : Nat) (hs : s.sound = true) :
    (State.checkFail s cid k).1.sound = true := by
  delta State.checkFail
  repeat' first
    | with_reducible assumption
    | (lift_lets; intro x; clear_value x)
    | with_reducible apply State.upChunk_sound
    | with_reducible apply State.requeue_sound
    | with_reducible apply sound_ite_fst
    | split

end Sys2Proof.Machine
end

