-- ==== Sys2Proof/Laws/Sound/Reduction.lean ====
section
/-!
SUPPORT. Soundness is kept by every operation of Machine/Reduction.lean.
-/
namespace Sys2Proof.Machine

theorem State.upInst_sound (s : State) (k : Nat) (f : RedInst → RedInst) (hs : s.sound = true) :
    (State.upInst s k f).sound = true := by
  delta State.upInst
  repeat' first
    | with_reducible assumption
    | with_reducible apply State.upRed_sound

theorem State.upRChunk_sound (s : State) (k c : Nat) (f : RedChunk → RedChunk) (hs : s.sound = true) :
    (State.upRChunk s k c f).sound = true := by
  delta State.upRChunk
  repeat' first
    | with_reducible assumption
    | with_reducible apply State.upInst_sound

theorem State.sendResult_sound (s : State) (i : RedInst) (r : RedSender) (pos status flags : Nat) (last : Bool) (payload : Bytes) (hs : s.sound = true) :
    (State.sendResult s i r pos status flags last payload).sound = true := by
  delta State.sendResult
  repeat' first
    | with_reducible assumption
    | with_reducible apply State.send_sound
    | with_reducible apply sound_ite

theorem State.answerContrib_sound (s : State) (p : Packet) (status off : Nat) (hs : s.sound = true) :
    (State.answerContrib s p status off).sound = true := by
  delta State.answerContrib
  repeat' first
    | with_reducible assumption
    | (lift_lets; intro x; clear_value x)
    | with_reducible apply State.send_sound

theorem State.sendPartial_sound (s : State) (i : RedInst) (home pos status : Nat) (want last : Bool) (payload : Bytes) (hs : s.sound = true) :
    (State.sendPartial s i home pos status want last payload).sound = true := by
  delta State.sendPartial
  repeat' first
    | with_reducible assumption
    | (lift_lets; intro x; clear_value x)
    | with_reducible apply State.upFab_sound
    | with_reducible apply State.send_sound

theorem State.redCharge_sound (s : State) (k c e : Nat) (hs : s.sound = true) :
    OptSound (State.redCharge s k c e) := by
  delta State.redCharge
  repeat' first
    | with_reducible assumption
    | (lift_lets; intro x; clear_value x)
    | with_reducible apply State.inc_sound
    | with_reducible apply State.measure_sound
    | with_reducible apply State.upRChunk_sound
    | exact optSound_none
    | with_reducible apply optSound_some
    | with_reducible apply optSound_ite

theorem State.redFree_sound (s : State) (k : Nat) (hs : s.sound = true) :
    (State.redFree s k).sound = true := by
  delta State.redFree
  repeat' first
    | with_reducible assumption
    | (lift_lets; intro x; refine have hx : x.sound = true := ?_; ?_; (unfold x); rotate_left; clear_value x; rotate_right)
    | (lift_lets; intro x; clear_value x)
    | (refine fun _ => ?_; intros; try dsimp -zeta only)
    | with_reducible apply State.dec_sound
    | with_reducible apply State.measure_sound
    | with_reducible apply State.upInst_sound
    | with_reducible apply foldl_sound

theorem State.countEnd_sound (s : State) (status : Nat) (hs : s.sound = true) :
    (State.countEnd s status).sound = true := by
  delta State.countEnd
  repeat' first
    | with_reducible assumption
    | with_reducible apply State.bump_sound
    | with_reducible apply sound_ite

theorem State.redEnd_sound (s : State) (k status : Nat) (hs : s.sound = true) :
    (State.redEnd s k status).sound = true := by
  delta State.redEnd
  repeat' first
    | with_reducible assumption
    | (lift_lets; intro x; refine have hx : x.sound = true := ?_; ?_; (unfold x); rotate_left; clear_value x; rotate_right)
    | (refine fun _ => ?_; intros; try dsimp -zeta only)
    | with_reducible apply State.upInst_sound
    | with_reducible apply State.sendResult_sound
    | with_reducible apply State.sendPartial_sound
    | with_reducible apply State.redFree_sound
    | with_reducible apply State.countEnd_sound
    | with_reducible apply sound_ite
    | with_reducible apply foldl_sound
    | split

theorem State.redEndAll_sound (s : State) (q : RedInst → Bool) (status : Nat) (hs : s.sound = true) :
    (State.redEndAll s q status).sound = true := by
  delta State.redEndAll
  repeat' first
    | with_reducible assumption
    | (refine fun _ => ?_; intros; try dsimp -zeta only)
    | with_reducible apply State.redEnd_sound
    | with_reducible apply foldl_sound

theorem State.redQuiesce_sound (s : State) (fen : Nat) (hs : s.sound = true) :
    (State.redQuiesce s fen).sound = true := by
  delta State.redQuiesce
  repeat' first
    | with_reducible assumption
    | with_reducible apply State.redEndAll_sound

theorem State.redDead_sound (s : State) (hs : s.sound = true) :
    (State.redDead s).sound = true := by
  delta State.redDead
  repeat' first
    | with_reducible assumption
    | with_reducible apply State.redEndAll_sound

theorem State.deliver1_sound (s : State) (i : RedInst) (c : Nat) (x : RedChunk) (r : RedResult) (final : Bool) (hs : s.sound = true) :
    (State.deliver1 s i c x r final).sound = true := by
  delta State.deliver1
  repeat' first
    | with_reducible assumption
    | (refine fun _ => ?_; intros; try dsimp -zeta only)
    | with_reducible apply State.sendResult_sound
    | with_reducible apply foldl_sound

theorem State.redCommitRoot_sound (s : State) (k : Nat) (hs : s.sound = true) :
    (State.redCommitRoot s k).sound = true := by
  delta State.redCommitRoot
  repeat' first
    | with_reducible assumption
    | (lift_lets; intro x; refine have hx : x.sound = true := ?_; ?_; (unfold x); rotate_left; clear_value x; rotate_right)
    | (refine fun _ => ?_; intros; try dsimp -zeta only)
    | with_reducible apply State.bump_sound
    | with_reducible apply State.upInst_sound
    | with_reducible apply State.upRChunk_sound
    | with_reducible apply State.deliver1_sound
    | with_reducible apply sound_ite
    | with_reducible apply foldl_sound
    | with_reducible apply foldl_sound_fst
    | split

theorem State.redComplete_sound (s : State) (k c : Nat) (hs : s.sound = true) :
    (State.redComplete s k c).sound = true := by
  delta State.redComplete
  repeat' first
    | with_reducible assumption
    | (lift_lets; intro x; refine have hx : x.sound = true := ?_; ?_; (unfold x); rotate_left; clear_value x; rotate_right)
    | (lift_lets; intro x; clear_value x)
    | (refine fun _ => ?_; intros; try dsimp -zeta only)
    | with_reducible apply State.bump_sound
    | with_reducible apply State.upInst_sound
    | with_reducible apply State.upRChunk_sound
    | with_reducible apply State.sendPartial_sound
    | with_reducible apply State.redCharge_sound
    | with_reducible apply State.redEnd_sound
    | with_reducible apply State.redCommitRoot_sound
    | with_reducible apply sound_ite
    | with_reducible apply foldl_sound
    | refine sound_of_opt (by with_reducible assumption) ?_
    | split

theorem State.redReplay_sound (s : State) (i : RedInst) (p : Packet) (port : Nat) (cmd : Option (Nat × Nat)) (hs : s.sound = true) :
    (State.redReplay s i p port cmd).sound = true := by
  delta State.redReplay
  repeat' first
    | with_reducible assumption
    | (lift_lets; intro x; clear_value x)
    | (refine fun _ => ?_; intros; try dsimp -zeta only)
    | with_reducible apply State.bump_sound
    | with_reducible apply State.sendResult_sound
    | with_reducible apply sound_ite
    | with_reducible apply foldl_sound
    | split

theorem State.redOpen_sound (s : State) (t : TreeRec) (p : Packet) (hs : s.sound = true) :
    (State.redOpen s t p).sound = true := by
  delta State.redOpen
  repeat' first
    | with_reducible assumption
    | (lift_lets; intro x; clear_value x)
    | with_reducible apply State.inc_sound
    | with_reducible apply State.upRed_sound

theorem State.redJoin_sound (s : State) (k : Nat) (p : Packet) (port : Nat) (cmd : Option (Nat × Nat)) (hs : s.sound = true) :
    (State.redJoin s k p port cmd).sound = true := by
  delta State.redJoin
  repeat' first
    | with_reducible assumption
    | (lift_lets; intro x; clear_value x)
    | with_reducible apply State.bump_sound
    | with_reducible apply State.upRed_sound
    | with_reducible apply State.upInst_sound
    | with_reducible apply State.sendResult_sound
    | with_reducible apply State.redCharge_sound
    | with_reducible apply State.redEnd_sound
    | with_reducible apply sound_ite
    | refine sound_of_opt (by with_reducible assumption) ?_
    | split

theorem State.redAccept_sound (s : State) (t : TreeRec) (p : Packet) (port : Nat) (cmd : Option (Nat × Nat)) (hs : s.sound = true) :
    (State.redAccept s t p port cmd).sound = true := by
  delta State.redAccept
  repeat' first
    | with_reducible assumption
    | (lift_lets; intro x; clear_value x)
    | with_reducible apply State.answerContrib_sound
    | with_reducible apply State.sendPartial_sound
    | with_reducible apply State.redReplay_sound
    | with_reducible apply State.redOpen_sound
    | with_reducible apply State.redJoin_sound
    | with_reducible apply sound_ite
    | split

theorem State.takeRed_sound (s : State) (e op : Nat) (hs : s.sound = true) : OptSndSound (State.takeRed s e op) := by
  refine ⟨fun p hp => ?_⟩
  unfold State.takeRed at hp
  split at hp
  · cases hp
  · obtain ⟨x, -, rfl⟩ := Option.map_eq_some_iff.1 hp
    exact State.upFab_sound _ _ hs

theorem reduceContrib_sound (e : Nat) (s : State) (hs : s.sound = true) :
    (reduceContrib e s).sound = true := by
  delta reduceContrib
  repeat' first
    | with_reducible assumption
    | (lift_lets; intro x; refine have hx : x.sound = true := ?_; ?_; (unfold x); rotate_left; clear_value x; rotate_right)
    | with_reducible apply State.bump_sound
    | with_reducible apply State.answerContrib_sound
    | with_reducible apply State.redAccept_sound
    | with_reducible apply State.takeRed_sound
    | with_reducible apply sound_ite
    | refine sound_of_optSnd (by with_reducible assumption) ?_
    | split

theorem reducePartial_sound (e : Nat) (s : State) (hs : s.sound = true) :
    (reducePartial e s).sound = true := by
  delta reducePartial
  repeat' first
    | with_reducible assumption
    | (lift_lets; intro x; clear_value x)
    | with_reducible apply State.bump_sound
    | with_reducible apply State.redEnd_sound
    | with_reducible apply State.redReplay_sound
    | with_reducible apply State.redOpen_sound
    | with_reducible apply State.redAccept_sound
    | with_reducible apply State.takeRed_sound
    | with_reducible apply sound_ite
    | refine sound_of_optSnd (by with_reducible assumption) ?_
    | split

theorem reduceResult_sound (e : Nat) (s : State) (hs : s.sound = true) :
    (reduceResult e s).sound = true := by
  delta reduceResult
  repeat' first
    | with_reducible assumption
    | (lift_lets; intro x; clear_value x)
    | with_reducible apply State.upInst_sound
    | with_reducible apply State.upRChunk_sound
    | with_reducible apply State.redEnd_sound
    | with_reducible apply State.deliver1_sound
    | with_reducible apply State.takeRed_sound
    | with_reducible apply sound_ite
    | refine sound_of_optSnd (by with_reducible assumption) ?_
    | split
    | dsimp -zeta only
    | with_reducible refine State.sound_mk ?_ rfl rfl rfl rfl rfl rfl rfl

theorem State.redAccumulate_sound (s : State) (q : RedPend) (hs : s.sound = true) :
    (State.redAccumulate s q).sound = true := by
  delta State.redAccumulate
  repeat' first
    | with_reducible assumption
    | (lift_lets; intro x; clear_value x)
    | with_reducible apply State.bump_sound
    | with_reducible apply State.upRChunk_sound
    | with_reducible apply State.redComplete_sound
    | with_reducible apply State.redReplay_sound
    | with_reducible apply sound_ite
    | split
    | dsimp -zeta only

theorem reduceSlotGrant_sound (e : Nat) (s : State) (hs : s.sound = true) :
    (reduceSlotGrant e s).sound = true := by
  delta reduceSlotGrant
  repeat' first
    | with_reducible assumption
    | (lift_lets; intro x; refine have hx : x.sound = true := ?_; ?_; (unfold x); rotate_left; clear_value x; rotate_right)
    | (lift_lets; intro x; clear_value x)
    | with_reducible apply State.bump_sound
    | with_reducible apply State.upRed_sound
    | with_reducible apply State.redAccumulate_sound
    | with_reducible apply sound_ite
    | split

theorem reduceDeadline_sound (tree tag : Nat) (s : State) (hs : s.sound = true) :
    (reduceDeadline tree tag s).sound = true := by
  delta reduceDeadline
  repeat' first
    | with_reducible assumption
    | with_reducible apply State.redEnd_sound
    | with_reducible apply sound_ite
    | split

theorem reduceKeepExpire_sound (tree tag : Nat) (s : State) (hs : s.sound = true) :
    (reduceKeepExpire tree tag s).sound = true := by
  delta reduceKeepExpire
  repeat' first
    | with_reducible assumption
    | (lift_lets; intro x; clear_value x)
    | with_reducible apply State.dec_sound
    | with_reducible apply State.upRed_sound
    | with_reducible apply State.redFree_sound
    | with_reducible apply sound_ite
    | split

theorem State.treeRead_sound (s : State) (hs : s.sound = true) :
    (State.treeRead s).sound = true := by
  delta State.treeRead
  repeat' first
    | with_reducible assumption
    | (lift_lets; intro x; refine have hx : x.sound = true := ?_; ?_; (unfold x); rotate_left; clear_value x; rotate_right)
    | (lift_lets; intro x; clear_value x)
    | (refine fun _ => ?_; intros; try dsimp -zeta only)
    | with_reducible apply State.wr_sound
    | with_reducible apply sound_ite
    | with_reducible apply foldl_sound
    | split
    | with_reducible refine State.sound_mk ?_ rfl rfl rfl rfl rfl rfl rfl

end Sys2Proof.Machine
end

