-- ==== Sys2Proof/Laws/Sound/Home.lean ====
section
/-!
SUPPORT. Soundness is kept by every operation of Machine/Home.lean.
-/
namespace Sys2Proof.Machine

theorem State.takeHome_sound (s : State) (k : HomeKind) (hs : s.sound = true) :
    OptSndSound (State.takeHome s k) := by
  delta State.takeHome
  repeat' first
    | with_reducible assumption
    | with_reducible apply State.upFab_sound
    | exact optSndSound_none
    | with_reducible apply optSndSound_some
    | with_reducible apply optSndSound_ite
    | split

theorem State.reply_sound (s : State) (q : QPkt) (status arg : Nat) (payload : Bytes) (hs : s.sound = true) :
    (State.reply s q status arg payload).sound = true := by
  delta State.reply
  repeat' first
    | with_reducible assumption
    | with_reducible apply State.ingressFree_sound
    | with_reducible apply State.answer_sound

theorem State.refuse_sound (s : State) (q : QPkt) (status : Nat) (off : Nat) (hs : s.sound = true) :
    (State.refuse s q status off).sound = true := by
  delta State.refuse
  repeat' first
    | with_reducible assumption
    | with_reducible apply State.reply_sound

theorem State.writerWins_sound (s : State) (i : Nat) (hs : s.sound = true) :
    (State.writerWins s i).sound = true := by
  delta State.writerWins
  repeat' first
    | with_reducible assumption
    | with_reducible apply State.abortMove_sound
    | with_reducible apply sound_ite
    | split

theorem State.touch_sound (s : State) (tier a n : Nat) (hs : s.sound = true) :
    (State.touch s tier a n).sound = true := by
  delta State.touch
  repeat' first
    | with_reducible assumption
    | (lift_lets -underBinder; intro x; clear_value x)
    | with_reducible apply State.upFab_sound

theorem State.fill_sound (s : State) (tier a : Nat) (hs : s.sound = true) :
    (State.fill s tier a).sound = true := by
  delta State.fill
  repeat' first
    | with_reducible assumption
    | (lift_lets -underBinder; intro x; clear_value x)
    | with_reducible apply State.upFab_sound

theorem read__sound (s : State) (hs : s.sound = true) :
    (read_ s).sound = true := by
  delta read_
  repeat' first
    | with_reducible assumption
    | (lift_lets -underBinder; intro x; clear_value x)
    | with_reducible apply State.noteBad_sound
    | with_reducible apply State.takeHome_sound
    | with_reducible apply State.reply_sound
    | with_reducible apply State.refuse_sound
    | with_reducible apply State.touch_sound
    | with_reducible apply sound_ite
    | refine sound_of_optSnd (by with_reducible assumption) ?_
    | split

theorem State.writeAt_sound (s : State) (q : QPkt) (hs : s.sound = true) :
    (State.writeAt s q).sound = true := by
  delta State.writeAt
  repeat' first
    | with_reducible assumption
    | (lift_lets -underBinder; intro x; refine have hx : x.sound = true := ?_; ?_; (unfold x); rotate_left; clear_value x; rotate_right)
    | (lift_lets -underBinder; intro x; clear_value x)
    | with_reducible apply State.upPool_sound
    | with_reducible apply State.answer_sound
    | with_reducible apply State.refuse_sound
    | with_reducible apply State.writerWins_sound
    | with_reducible apply sound_ite
    | split

theorem write__sound (s : State) (hs : s.sound = true) :
    (write_ s).sound = true := by
  delta write_
  repeat' first
    | with_reducible assumption
    | with_reducible apply State.takeHome_sound
    | with_reducible apply State.writeAt_sound
    | refine sound_of_optSnd (by with_reducible assumption) ?_
    | split

theorem writeFenced_sound (s : State) (hs : s.sound = true) :
    (writeFenced s).sound = true := by
  delta writeFenced
  repeat' first
    | with_reducible assumption
    | with_reducible apply State.takeHome_sound
    | with_reducible apply State.writeAt_sound
    | refine sound_of_optSnd (by with_reducible assumption) ?_
    | split

theorem State.writeGone_sound (s : State) (id : Nat) (w : InWrite) (hs : s.sound = true) :
    (State.writeGone s id w).sound = true := by
  delta State.writeGone
  repeat' first
    | with_reducible assumption
    | (lift_lets -underBinder; intro x; refine have hx : x.sound = true := ?_; ?_; (unfold x); rotate_left; clear_value x; rotate_right)
    | with_reducible apply State.upPool_sound
    | with_reducible apply State.upCmd_sound
    | with_reducible apply State.ingressFree_sound

theorem writePerformed_sound (id : Nat) (trailerOk : Bool) (s : State) (hs : s.sound = true) :
    (writePerformed id trailerOk s).sound = true := by
  delta writePerformed
  repeat' first
    | with_reducible assumption
    | (lift_lets -underBinder; intro x; clear_value x)
    | with_reducible apply State.drop_sound
    | with_reducible apply State.answer_sound
    | with_reducible apply State.performWrite_sound
    | with_reducible apply State.touch_sound
    | with_reducible apply State.writeGone_sound
    | with_reducible apply sound_ite
    | split

theorem State.atomicExec_sound (s : State) (q : QPkt) (i : Nat) (hs : s.sound = true) :
    (State.atomicExec s q i).sound = true := by
  delta State.atomicExec
  repeat' first
    | with_reducible assumption
    | (lift_lets -underBinder; intro x; clear_value x)
    | with_reducible apply State.bump_sound
    | with_reducible apply State.writeTier_sound
    | with_reducible apply State.upFab_sound
    | with_reducible apply State.noteBad_sound
    | with_reducible apply State.reply_sound
    | with_reducible apply State.refuse_sound
    | with_reducible apply State.fill_sound
    | with_reducible apply sound_ite
    | split
    | dsimp -zeta only
    | with_reducible refine State.sound_mk ?_ rfl rfl rfl rfl rfl rfl rfl

theorem atomic_sound (s : State) (hs : s.sound = true) :
    (atomic s).sound = true := by
  delta atomic
  repeat' first
    | with_reducible assumption
    | (lift_lets -underBinder; intro x; clear_value x)
    | with_reducible apply State.takeHome_sound
    | with_reducible apply State.refuse_sound
    | with_reducible apply State.writerWins_sound
    | with_reducible apply State.atomicExec_sound
    | with_reducible apply sound_ite
    | refine sound_of_optSnd (by with_reducible assumption) ?_
    | split

theorem historyExpire_sound (k : Nat) (s : State) (hs : s.sound = true) :
    (historyExpire k s).sound = true := by
  delta historyExpire
  repeat' first
    | with_reducible assumption
    | with_reducible apply State.upFab_sound

theorem State.heartbeat_sound (s : State) (clid : Nat) (hs : s.sound = true) :
    (State.heartbeat s clid).sound = true := by
  delta State.heartbeat
  repeat' first
    | with_reducible assumption
    | (lift_lets -underBinder; intro x; clear_value x)
    | with_reducible apply State.upLease_sound
    | with_reducible apply sound_ite
    | split

theorem leaseHeartbeat_sound (s : State) (hs : s.sound = true) :
    (leaseHeartbeat s).sound = true := by
  delta leaseHeartbeat
  repeat' first
    | with_reducible assumption
    | (lift_lets -underBinder; intro x; clear_value x)
    | with_reducible apply State.takeHome_sound
    | with_reducible apply State.reply_sound
    | with_reducible apply State.refuse_sound
    | with_reducible apply State.heartbeat_sound
    | refine sound_of_optSnd (by with_reducible assumption) ?_
    | split

theorem leaseWordWrite_sound (s : State) (hs : s.sound = true) :
    (leaseWordWrite s).sound = true := by
  delta leaseWordWrite
  repeat' first
    | with_reducible assumption
    | (lift_lets -underBinder; intro x; clear_value x)
    | with_reducible apply State.upLease_sound
    | with_reducible apply State.takeHome_sound
    | with_reducible apply State.reply_sound
    | with_reducible apply State.refuse_sound
    | with_reducible apply State.heartbeat_sound
    | with_reducible apply sound_ite
    | refine sound_of_optSnd (by with_reducible assumption) ?_
    | split

theorem State.sqBell_sound (s : State) (pair t : Nat) (hs : s.sound = true) :
    (State.sqBell s pair t).1.sound = true := by
  delta State.sqBell
  repeat' first
    | with_reducible assumption
    | (lift_lets -underBinder; intro x; clear_value x)
    | with_reducible apply State.bump_sound
    | with_reducible apply State.upRing_sound
    | with_reducible apply sound_ite_fst
    | split

theorem sqDoorbell_sound (s : State) (hs : s.sound = true) :
    (sqDoorbell s).sound = true := by
  delta sqDoorbell
  repeat' first
    | with_reducible assumption
    | (lift_lets -underBinder; intro x; clear_value x)
    | with_reducible apply State.takeHome_sound
    | with_reducible apply State.reply_sound
    | with_reducible apply State.refuse_sound
    | with_reducible apply State.sqBell_sound
    | with_reducible apply sound_ite
    | refine sound_of_optSnd (by with_reducible assumption) ?_
    | split

theorem cqDoorbell_sound (s : State) (hs : s.sound = true) :
    (cqDoorbell s).sound = true := by
  delta cqDoorbell
  repeat' first
    | with_reducible assumption
    | (lift_lets -underBinder; intro x; clear_value x)
    | with_reducible apply State.upRing_sound
    | with_reducible apply State.takeHome_sound
    | with_reducible apply State.reply_sound
    | with_reducible apply State.refuse_sound
    | with_reducible apply sound_ite
    | refine sound_of_optSnd (by with_reducible assumption) ?_
    | split

theorem ringStateRead_sound (s : State) (hs : s.sound = true) :
    (ringStateRead s).sound = true := by
  delta ringStateRead
  repeat' first
    | with_reducible assumption
    | (lift_lets -underBinder; intro x; clear_value x)
    | with_reducible apply State.takeHome_sound
    | with_reducible apply State.reply_sound
    | with_reducible apply State.refuse_sound
    | with_reducible apply sound_ite
    | refine sound_of_optSnd (by with_reducible assumption) ?_
    | split

theorem command_sound (s : State) (hs : s.sound = true) :
    (command s).sound = true := by
  delta command
  repeat' first
    | with_reducible assumption
    | (lift_lets -underBinder; intro x; clear_value x)
    | with_reducible apply State.takeHome_sound
    | with_reducible apply State.reply_sound
    | with_reducible apply State.refuse_sound
    | with_reducible apply State.sqBell_sound
    | with_reducible apply sound_ite
    | refine sound_of_optSnd (by with_reducible assumption) ?_
    | split

end Sys2Proof.Machine
end

