-- ==== Sys2Proof/Laws/Sound/Chains.lean ====
section
/-!
SUPPORT. Soundness is kept by every operation of Machine/Chains.lean.
-/
namespace Sys2Proof.Machine

theorem State.chainEnd_sound (s : State) (cid status : Nat) (hs : s.sound = true) :
    (State.chainEnd s cid status).sound = true := by
  delta State.chainEnd
  repeat' first
    | with_reducible assumption
    | (lift_lets -underBinder; intro x; clear_value x)
    | (refine fun _ => ?_; intros; try dsimp -zeta only)
    | with_reducible apply State.bump_sound
    | with_reducible apply State.upCid_sound
    | with_reducible apply State.complete_sound
    | with_reducible apply State.performWrite_sound
    | with_reducible apply sound_ite
    | with_reducible apply foldl_sound
    | split

theorem State.noteCkpEnd_sound (s : State) (op status : Nat) (hs : s.sound = true) :
    (State.noteCkpEnd s op status).sound = true := by
  delta State.noteCkpEnd
  repeat' first
    | with_reducible assumption
    | (lift_lets -underBinder; intro x; refine have hx : x.sound = true := ?_; ?_; (unfold x); rotate_left; clear_value x; rotate_right)
    | with_reducible apply State.bump_sound
    | with_reducible apply sound_ite

theorem State.ckpEnd_sound (s : State) (cid status : Nat) (hs : s.sound = true) :
    (State.ckpEnd s cid status).sound = true := by
  delta State.ckpEnd
  repeat' first
    | with_reducible assumption
    | (lift_lets -underBinder; intro x; clear_value x)
    | (refine fun _ => ?_; intros; try dsimp -zeta only)
    | with_reducible apply State.complete_sound
    | with_reducible apply State.performWrite_sound
    | with_reducible apply State.noteCkpEnd_sound
    | with_reducible apply sound_ite
    | with_reducible apply foldl_sound
    | split

theorem State.finish_sound (s : State) (cid status : Nat) (hs : s.sound = true) :
    (State.finish s cid status).sound = true := by
  delta State.finish
  repeat' first
    | with_reducible assumption
    | with_reducible apply State.complete_sound
    | with_reducible apply State.chainEnd_sound
    | with_reducible apply State.ckpEnd_sound
    | with_reducible apply sound_ite
    | split

theorem State.injected_sound (s : State) (ops : List Nat) (hs : s.sound = true) :
    (State.injected s ops).2.sound = true := by
  delta State.injected
  repeat' first
    | with_reducible assumption
    | with_reducible apply State.wr_sound
    | with_reducible apply sound_ite_snd

theorem State.checkFailed_sound (s : State) (cid k cause : Nat) (fail : State → State) (hs : s.sound = true) (h_fail : ∀ (x0 : State), x0.sound = true → (fail x0).sound = true) :
    (State.checkFailed s cid k cause fail).sound = true := by
  delta State.checkFailed
  repeat' first
    | with_reducible assumption
    | with_reducible apply h_fail
    | with_reducible apply State.lasting_sound
    | with_reducible apply State.clusterFault_sound
    | with_reducible apply State.checkFail_sound
    | refine sound_fst (by with_reducible assumption) ?_
    | split

theorem State.readFailed_sound (s : State) (cid k status : Nat) (ps : List Seg) (fail : Nat → State → State) (hs : s.sound = true) (h_fail : ∀ (x0 : Nat) (x1 : State), x1.sound = true → (fail x0 x1).sound = true) :
    (State.readFailed s cid k status ps fail).sound = true := by
  delta State.readFailed
  repeat' first
    | with_reducible assumption
    | (lift_lets -underBinder; intro x; refine have hx : x.sound = true := ?_; ?_; (unfold x); rotate_left; clear_value x; rotate_right)
    | with_reducible apply h_fail
    | with_reducible apply State.noteBadPieces_sound
    | with_reducible apply State.checkFail_sound
    | with_reducible apply sound_ite

theorem State.chainBad_sound (s : State) (cid stage pos : Nat) (hs : s.sound = true) :
    (State.chainBad s cid stage pos).sound = true := by
  delta State.chainBad
  repeat' first
    | with_reducible assumption
    | (lift_lets -underBinder; intro x; refine have hx : x.sound = true := ?_; ?_; (unfold x); rotate_left; clear_value x; rotate_right)
    | with_reducible apply State.bump_sound
    | with_reducible apply State.upCid_sound
    | with_reducible apply State.chainEnd_sound

theorem chain_sound (cid k : Nat) (s : State) (hs : s.sound = true) :
    (chain cid k s).sound = true := by
  delta chain
  repeat' first
    | with_reducible assumption
    | (lift_lets -underBinder; intro x; refine have hx : x.sound = true := ?_; ?_; (unfold x); rotate_left; clear_value x; rotate_right)
    | (refine fun _ => ?_; intros; try dsimp -zeta only)
    | with_reducible apply State.bump_sound
    | with_reducible apply State.upCid_sound
    | with_reducible apply State.stage_sound
    | with_reducible apply State.chainEnd_sound
    | with_reducible apply State.injected_sound
    | with_reducible apply State.checkFailed_sound
    | with_reducible apply State.readFailed_sound
    | with_reducible apply State.chainBad_sound
    | with_reducible apply sound_ite
    | split

theorem State.commitOut_sound (s : State) (c : Cmd) (si : Nat) (t : Stage) (rows : List Row) (hs : s.sound = true) :
    (State.commitOut s c si t rows).1.sound = true := by
  delta State.commitOut
  repeat' first
    | with_reducible assumption
    | (lift_lets -underBinder; intro x; clear_value x)
    | (refine fun _ => ?_; intros; try dsimp -zeta only)
    | with_reducible apply State.performWrite_sound
    | with_reducible apply foldl_sound

theorem State.commitLate_sound (s : State) (c : Cmd) (si : Nat) (t : Stage) (n : Nat) (ls : List Nat) (hs : s.sound = true) :
    (State.commitLate s c si t n ls).sound = true := by
  delta State.commitLate
  repeat' first
    | with_reducible assumption
    | (lift_lets -underBinder; intro x; clear_value x)
    | (refine fun _ => ?_; intros; try dsimp -zeta only)
    | with_reducible apply State.performWrite_sound
    | with_reducible apply sound_ite
    | with_reducible apply foldl_sound

theorem State.chainCommit_sound (s : State) (cid k : Nat) (c : Cmd) (x : Chunk) (hs : s.sound = true) :
    (State.chainCommit s cid k c x).sound = true := by
  delta State.chainCommit
  repeat' first
    | with_reducible assumption
    | (lift_lets -underBinder; intro x; clear_value x)
    | (refine fun _ => ?_; intros; try dsimp -zeta only)
    | with_reducible apply State.bump_sound
    | with_reducible apply State.upCid_sound
    | with_reducible apply State.performWrite_sound
    | with_reducible apply State.chainEnd_sound
    | with_reducible apply State.commitOut_sound
    | with_reducible apply State.commitLate_sound
    | with_reducible apply sound_ite
    | with_reducible apply foldl_sound
    | with_reducible apply foldl_sound_fst
    | split

theorem State.syncGreq_sound (s : State) (hs : s.sound = true) :
    (State.syncGreq s).sound = true := by
  delta State.syncGreq
  repeat' first
    | with_reducible assumption
    | (lift_lets -underBinder; intro x; clear_value x)
    | with_reducible apply State.wr_sound
    | with_reducible apply State.measure_sound

theorem State.gatherEnd_sound (s : State) (cid status : Nat) (hs : s.sound = true) :
    (State.gatherEnd s cid status).sound = true := by
  delta State.gatherEnd
  repeat' first
    | with_reducible assumption
    | (lift_lets -underBinder; intro x; refine have hx : x.sound = true := ?_; ?_; (unfold x); rotate_left; clear_value x; rotate_right)
    | with_reducible apply State.bump_sound
    | with_reducible apply State.answer_sound
    | with_reducible apply State.endWork_sound
    | with_reducible apply State.syncGreq_sound
    | with_reducible apply sound_ite
    | split

theorem gatherReq_sound (s : State) (hs : s.sound = true) :
    (gatherReq s).sound = true := by
  delta gatherReq
  repeat' first
    | with_reducible assumption
    | (lift_lets -underBinder; intro x; clear_value x)
    | with_reducible apply State.bump_sound
    | with_reducible apply State.answer_sound
    | with_reducible apply State.raiseRefs_sound
    | with_reducible apply State.addCmd_sound
    | with_reducible apply State.syncCmd_sound
    | with_reducible apply State.takeHome_sound
    | with_reducible apply State.syncGreq_sound
    | with_reducible apply sound_ite
    | refine sound_of_opt (by with_reducible assumption) ?_
    | refine sound_of_optSnd (by with_reducible assumption) ?_
    | split

theorem State.gatherSend_sound (s : State) (c : Cmd) (d : Bytes) (late : List Nat) (final : Bool) (hs : s.sound = true) :
    (State.gatherSend s c d late final).1.sound = true := by
  delta State.gatherSend
  repeat' first
    | with_reducible assumption
    | (lift_lets -underBinder; intro x; clear_value x)
    | (refine fun _ => ?_; intros; try dsimp -zeta only)
    | with_reducible apply State.send_sound
    | with_reducible apply State.sweepFences_sound
    | with_reducible apply sound_ite
    | with_reducible apply foldl_sound

theorem State.gatherCommit_sound (s : State) (cid k : Nat) (c : Cmd) (x : Chunk) (hs : s.sound = true) :
    (State.gatherCommit s cid k c x).sound = true := by
  delta State.gatherCommit
  repeat' first
    | with_reducible assumption
    | (lift_lets -underBinder; intro x; refine have hx : x.sound = true := ?_; ?_; (unfold x); rotate_left; clear_value x; rotate_right)
    | (lift_lets -underBinder; intro x; clear_value x)
    | (refine fun _ => ?_; intros; try dsimp -zeta only)
    | with_reducible apply State.bump_sound
    | with_reducible apply State.upCmd_sound
    | with_reducible apply State.upCid_sound
    | with_reducible apply State.syncCmd_sound
    | with_reducible apply State.endWork_sound
    | with_reducible apply State.rerunPassed_sound
    | with_reducible apply State.injected_sound
    | with_reducible apply State.checkFailed_sound
    | with_reducible apply State.readFailed_sound
    | with_reducible apply State.syncGreq_sound
    | with_reducible apply State.gatherEnd_sound
    | with_reducible apply State.gatherSend_sound
    | with_reducible apply sound_ite
    | split

theorem checkInjectOp_sound (op : Nat) (arm : Bool) (s : State) (hs : s.sound = true) :
    (checkInjectOp op arm s).sound = true := by
  delta checkInjectOp
  repeat' first
    | with_reducible assumption
    | (lift_lets -underBinder; intro x; refine have hx : x.sound = true := ?_; ?_; (unfold x); rotate_left; clear_value x; rotate_right)
    | with_reducible apply State.wr_sound
    | with_reducible apply sound_ite

end Sys2Proof.Machine
end

