-- ==== Sys2Proof/Laws/Sound/Pages.lean ====
section
/-!
SUPPORT. Soundness is kept by every operation of Machine/Pages.lean.
-/
namespace Sys2Proof.Machine

theorem State.attWindow_sound (a : Access) (off : Nat) (act : State → State) (s : State) (hs : s.sound = true) (h_act : ∀ (x0 : State), x0.sound = true → (act x0).sound = true) :
    (State.attWindow a off act s).sound = true := by
  delta State.attWindow
  repeat' first
    | with_reducible assumption
    | (refine fun _ => ?_; intros; try dsimp -zeta only)
    | with_reducible apply h_act
    | with_reducible apply State.window_sound
    | with_reducible apply sound_ite

theorem State.writeBytes_sound (s : State) (a : Nat) (d : Bytes) (hs : s.sound = true) :
    (State.writeBytes s a d).sound = true := by
  delta State.writeBytes
  repeat' first
    | with_reducible assumption
    | with_reducible apply State.abortMove_sound
    | with_reducible apply State.performWrite_sound
    | with_reducible apply sound_ite
    | split

theorem State.upArena_sound (s : State) (n : Nat) (f : Arena → Arena) (hs : s.sound = true) :
    (State.upArena s n f).sound = true := by
  delta State.upArena
  repeat' first
    | with_reducible assumption
    | with_reducible apply State.upAtt_sound

theorem State.syncPages_sound (s : State) (fen : Nat) (hs : s.sound = true) :
    (State.syncPages s fen).sound = true := by
  delta State.syncPages
  repeat' first
    | with_reducible assumption
    | (lift_lets -underBinder; intro x; clear_value x)
    | with_reducible apply State.wr_sound
    | with_reducible apply State.measure_sound

theorem State.dirWrite_sound (s : State) (fen i k v : Nat) (hs : s.sound = true) :
    (State.dirWrite s fen i k v).sound = true := by
  delta State.dirWrite
  repeat' first
    | with_reducible assumption
    | with_reducible apply State.writeBytes_sound

theorem State.dirFill_sound (s : State) (fen i : Nat) (es : List Nat) (hs : s.sound = true) :
    (State.dirFill s fen i es).sound = true := by
  delta State.dirFill
  repeat' first
    | with_reducible assumption
    | with_reducible apply State.writeBytes_sound

theorem State.upSeq_sound (s : State) (fen i : Nat) (f : SeqEnt → SeqEnt) (hs : s.sound = true) :
    (State.upSeq s fen i f).sound = true := by
  delta State.upSeq
  repeat' first
    | with_reducible assumption
    | with_reducible apply State.upSqt_sound

theorem State.takePages_sound (fen i n k : Nat) (s : State) (hs : s.sound = true) : OptSound (State.takePages fen i n k s) := by
  induction k generalizing s with
  | zero => exact optSound_some hs
  | succ k ih =>
    unfold State.takePages
    dsimp only
    split
    · exact optSound_none
    · exact ih _ (State.dirWrite_sound _ _ _ _ _ (State.upArena_sound _ _ _ hs))

theorem State.acquire_sound (s : State) (fen i : Nat) (hs : s.sound = true) :
    (State.acquire s fen i).1.sound = true := by
  delta State.acquire
  repeat' first
    | with_reducible assumption
    | (lift_lets -underBinder; intro x; clear_value x)
    | with_reducible apply State.bump_sound
    | with_reducible apply State.syncPages_sound
    | with_reducible apply State.upSeq_sound
    | with_reducible apply State.takePages_sound
    | with_reducible apply sound_ite_fst
    | refine sound_of_opt (by with_reducible assumption) ?_
    | split

theorem State.putSlices_sound (s : State) (h : Shape) (pg l b n first : Nat) (sl : List Bytes) (hs : s.sound = true) :
    (State.putSlices s h pg l b n first sl).sound = true := by
  delta State.putSlices
  repeat' first
    | with_reducible assumption
    | (lift_lets -underBinder; intro x; clear_value x)
    | (refine fun _ => ?_; intros; try dsimp -zeta only)
    | with_reducible apply State.bump_sound
    | with_reducible apply State.writeBytes_sound
    | with_reducible apply foldl_sound

end Sys2Proof.Machine
end

