-- ==== Sys2Proof/Laws/Sound/Sequence.lean ====
section
/-!
SUPPORT. Soundness is kept by every operation of Machine/Sequence.lean.
-/
namespace Sys2Proof.Machine

theorem State.upGrp_sound (s : State) (g : Nat) (f : Group → Group) (hs : s.sound = true) :
    (State.upGrp s g f).sound = true := by
  delta State.upGrp
  repeat' first
    | with_reducible assumption
    | with_reducible apply State.upSqt_sound

theorem State.seqUsed_sound (s : State) (fen : Nat) (up : Bool) (hs : s.sound = true) :
    (State.seqUsed s fen up).sound = true := by
  delta State.seqUsed
  repeat' first
    | with_reducible assumption
    | (lift_lets -underBinder; intro x; refine have hx : x.sound = true := ?_; ?_; (unfold x); rotate_left; clear_value x; rotate_right)
    | with_reducible apply State.inc_sound
    | with_reducible apply State.dec_sound
    | with_reducible apply State.measure_sound
    | with_reducible apply sound_ite

theorem State.prefixRef_sound (s : State) (arena : Nat) (up : Bool) (hs : s.sound = true) :
    (State.prefixRef s arena up).sound = true := by
  delta State.prefixRef
  repeat' first
    | with_reducible assumption
    | with_reducible apply State.upExt_sound
    | split

theorem State.leave_sound (s : State) (fen i : Nat) (hs : s.sound = true) :
    (State.leave s fen i).sound = true := by
  delta State.leave
  repeat' first
    | with_reducible assumption
    | (lift_lets -underBinder; intro x; clear_value x)
    | with_reducible apply State.bump_sound
    | with_reducible apply State.upAtt_sound
    | with_reducible apply State.upSqt_sound
    | with_reducible apply State.dirFill_sound
    | with_reducible apply State.seqUsed_sound
    | with_reducible apply State.prefixRef_sound
    | with_reducible apply sound_ite

theorem State.killAppends_sound (s : State) (fen i : Nat) (hs : s.sound = true) :
    (State.killAppends s fen i).sound = true := by
  delta State.killAppends
  repeat' first
    | with_reducible assumption
    | (lift_lets -underBinder; intro x; clear_value x)
    | (refine fun _ => ?_; intros; try dsimp -zeta only)
    | with_reducible apply State.finish_sound
    | with_reducible apply foldl_sound

theorem State.leaveNow_sound (s : State) (fen i : Nat) (hs : s.sound = true) :
    (State.leaveNow s fen i).sound = true := by
  delta State.leaveNow
  repeat' first
    | with_reducible assumption
    | with_reducible apply State.leave_sound
    | with_reducible apply State.killAppends_sound

theorem pageRelease_sound (n : Nat) (s : State) (hs : s.sound = true) :
    (pageRelease n s).sound = true := by
  delta pageRelease
  repeat' first
    | with_reducible assumption
    | (lift_lets -underBinder; intro x; clear_value x)
    | with_reducible apply State.wr_sound
    | with_reducible apply State.upAtt_sound
    | with_reducible apply State.upSqt_sound
    | with_reducible apply sound_ite
    | split

theorem pageScrubDone_sound (arena page : Nat) (s : State) (hs : s.sound = true) :
    (pageScrubDone arena page s).sound = true := by
  delta pageScrubDone
  repeat' first
    | with_reducible assumption
    | (lift_lets -underBinder; intro x; clear_value x)
    | with_reducible apply State.wr_sound
    | with_reducible apply State.zeroTier_sound
    | with_reducible apply State.mendKeys_sound
    | with_reducible apply State.upArena_sound
    | with_reducible apply State.syncPages_sound
    | with_reducible apply sound_ite
    | split
    | dsimp -zeta only

theorem State.openContinue_sound (s : State) (fen n i : Nat) (hs : s.sound = true) :
    (State.openContinue s fen n i).1.sound = true := by
  delta State.openContinue
  repeat' first
    | with_reducible assumption
    | (lift_lets -underBinder; intro x; clear_value x)
    | with_reducible apply State.bump_sound
    | with_reducible apply State.upSeq_sound
    | with_reducible apply State.acquire_sound
    | with_reducible apply sound_ite_fst

theorem State.openJoin_sound (s : State) (fen n i : Nat) (hs : s.sound = true) :
    (State.openJoin s fen n i).1.sound = true := by
  delta State.openJoin
  repeat' first
    | with_reducible assumption
    | (lift_lets -underBinder; intro x; clear_value x)
    | with_reducible apply State.bump_sound
    | with_reducible apply State.upSeq_sound
    | with_reducible apply State.acquire_sound
    | with_reducible apply sound_ite_fst

theorem State.openStep_sound (s : State) (fen g n time : Nat) (hs : s.sound = true) :
    (State.openStep s fen g n time).sound = true := by
  delta State.openStep
  repeat' first
    | with_reducible assumption
    | (lift_lets -underBinder; intro x; clear_value x)
    | (refine fun _ => ?_; intros; try dsimp -zeta only)
    | with_reducible apply State.bump_sound
    | with_reducible apply State.raise_sound
    | with_reducible apply State.upSeq_sound
    | with_reducible apply State.upGrp_sound
    | with_reducible apply State.leave_sound
    | with_reducible apply State.openContinue_sound
    | with_reducible apply State.openJoin_sound
    | with_reducible apply foldl_sound
    | with_reducible apply foldl_sound_fst

theorem State.joinFull_sound (s : State) (cid fen : Nat) (hs : s.sound = true) :
    (State.joinFull s cid fen).sound = true := by
  delta State.joinFull
  repeat' first
    | with_reducible assumption
    | with_reducible apply State.bump_sound
    | with_reducible apply State.refuseFull_sound
    | with_reducible apply State.finish_sound

theorem seqJoin_sound (cid : Nat) (s : State) (hs : s.sound = true) :
    (seqJoin cid s).sound = true := by
  delta seqJoin
  repeat' first
    | with_reducible assumption
    | (lift_lets -underBinder; intro x; clear_value x)
    | with_reducible apply State.upSqt_sound
    | with_reducible apply State.upCid_sound
    | with_reducible apply State.finish_sound
    | with_reducible apply State.dirFill_sound
    | with_reducible apply State.seqUsed_sound
    | with_reducible apply State.prefixRef_sound
    | with_reducible apply State.joinFull_sound
    | with_reducible apply sound_ite
    | split

theorem seqLeave_sound (cid : Nat) (s : State) (hs : s.sound = true) :
    (seqLeave cid s).sound = true := by
  delta seqLeave
  repeat' first
    | with_reducible assumption
    | (lift_lets -underBinder; intro x; clear_value x)
    | with_reducible apply State.upCid_sound
    | with_reducible apply State.finish_sound
    | with_reducible apply State.upSeq_sound
    | with_reducible apply State.leaveNow_sound
    | with_reducible apply sound_ite
    | split

theorem seqResume_sound (cid : Nat) (s : State) (hs : s.sound = true) :
    (seqResume cid s).sound = true := by
  delta seqResume
  repeat' first
    | with_reducible assumption
    | (lift_lets -underBinder; intro x; clear_value x)
    | with_reducible apply State.upCid_sound
    | with_reducible apply State.finish_sound
    | with_reducible apply State.upSeq_sound
    | with_reducible apply sound_ite
    | split

theorem State.grpEnd_sound (s : State) (st : Nat) (hs : s.sound = true) :
    (State.grpEnd s st).sound = true := by
  delta State.grpEnd
  repeat' first
    | with_reducible assumption
    | with_reducible apply State.setEnd_sound

theorem State.grpRead_sound (s : State) (hs : s.sound = true) :
    (State.grpRead s).sound = true := by
  delta State.grpRead
  repeat' first
    | with_reducible assumption
    | (lift_lets -underBinder; intro x; clear_value x)
    | with_reducible apply State.wr_sound
    | with_reducible apply State.wrb_sound
    | with_reducible apply State.grpEnd_sound

theorem State.grpReset_sound (s : State) (hs : s.sound = true) :
    (State.grpReset s).sound = true := by
  delta State.grpReset
  repeat' first
    | with_reducible assumption
    | (lift_lets -underBinder; intro x; clear_value x)
    | with_reducible apply State.upGrp_sound
    | with_reducible apply State.grpEnd_sound
    | with_reducible apply sound_ite

theorem State.entEnd_sound (s : State) (st : Nat) (hs : s.sound = true) :
    (State.entEnd s st).sound = true := by
  delta State.entEnd
  repeat' first
    | with_reducible assumption
    | with_reducible apply State.setEnd_sound

theorem State.entRead_sound (s : State) (hs : s.sound = true) :
    (State.entRead s).sound = true := by
  delta State.entRead
  repeat' first
    | with_reducible assumption
    | (lift_lets -underBinder; intro x; clear_value x)
    | (refine fun _ => ?_; intros; try dsimp -zeta only)
    | with_reducible apply State.wr_sound
    | with_reducible apply State.entEnd_sound
    | with_reducible apply sound_ite
    | with_reducible apply foldl_sound

theorem State.entDrop_sound (s : State) (hs : s.sound = true) :
    (State.entDrop s).sound = true := by
  delta State.entDrop
  repeat' first
    | with_reducible assumption
    | (lift_lets -underBinder; intro x; clear_value x)
    | with_reducible apply State.leaveNow_sound
    | with_reducible apply State.entEnd_sound
    | with_reducible apply sound_ite

theorem State.entDropFen_sound (s : State) (hs : s.sound = true) :
    (State.entDropFen s).sound = true := by
  delta State.entDropFen
  repeat' first
    | with_reducible assumption
    | (lift_lets -underBinder; intro x; clear_value x)
    | (refine fun _ => ?_; intros; try dsimp -zeta only)
    | with_reducible apply State.wr_sound
    | with_reducible apply State.upSqt_sound
    | with_reducible apply State.leaveNow_sound
    | with_reducible apply State.entEnd_sound
    | with_reducible apply sound_ite
    | with_reducible apply foldl_sound

theorem State.leaseLeaves_sound (s : State) (clid : Nat) (hs : s.sound = true) :
    (State.leaseLeaves s clid).sound = true := by
  delta State.leaseLeaves
  repeat' first
    | with_reducible assumption
    | (refine fun _ => ?_; intros; try dsimp -zeta only)
    | with_reducible apply State.bump_sound
    | with_reducible apply State.leaveNow_sound
    | with_reducible apply foldl_sound

end Sys2Proof.Machine
end

