-- ==== Sys2Proof/Laws/Sound/Attention.lean ====
section
/-!
SUPPORT. Soundness is kept by every operation of Machine/Attention.lean.
-/
namespace Sys2Proof.Machine

theorem State.arEnd_sound (s : State) (st : Nat) (hs : s.sound = true) :
    (State.arEnd s st).sound = true := by
  delta State.arEnd
  repeat' first
    | with_reducible assumption
    | with_reducible apply State.setEnd_sound

theorem State.arRead_sound (s : State) (hs : s.sound = true) :
    (State.arRead s).sound = true := by
  delta State.arRead
  repeat' first
    | with_reducible assumption
    | with_reducible apply State.wr_sound
    | with_reducible apply State.arEnd_sound
    | split

theorem State.arRegister_sound (s : State) (hs : s.sound = true) :
    (State.arRegister s).sound = true := by
  delta State.arRegister
  repeat' first
    | with_reducible assumption
    | (lift_lets -underBinder; intro x; clear_value x)
    | with_reducible apply State.wr_sound
    | with_reducible apply State.upAtt_sound
    | with_reducible apply State.syncPages_sound
    | with_reducible apply State.arEnd_sound
    | with_reducible apply sound_ite
    | split

theorem State.arUnregister_sound (s : State) (hs : s.sound = true) :
    (State.arUnregister s).sound = true := by
  delta State.arUnregister
  repeat' first
    | with_reducible assumption
    | (lift_lets -underBinder; intro x; clear_value x)
    | with_reducible apply State.upAtt_sound
    | with_reducible apply State.syncPages_sound
    | with_reducible apply State.arEnd_sound
    | with_reducible apply sound_ite
    | split

theorem append_sound (cid k : Nat) (s : State) (hs : s.sound = true) :
    (append cid k s).sound = true := by
  delta append
  repeat' first
    | with_reducible assumption
    | (lift_lets -underBinder; intro x; clear_value x)
    | (refine fun _ => ?_; intros; try dsimp -zeta only)
    | with_reducible apply State.stage_sound
    | with_reducible apply State.finish_sound
    | with_reducible apply State.readFailed_sound
    | with_reducible apply State.acquire_sound
    | with_reducible apply sound_ite
    | split

theorem State.appendCommit_sound (s : State) (cid k : Nat) (c : Cmd) (x : Chunk) (hs : s.sound = true) :
    (State.appendCommit s cid k c x).sound = true := by
  delta State.appendCommit
  repeat' first
    | with_reducible assumption
    | (lift_lets -underBinder; intro x; refine have hx : x.sound = true := ?_; ?_; (unfold x); rotate_left; clear_value x; rotate_right)
    | (lift_lets -underBinder; intro x; clear_value x)
    | (refine fun _ => ?_; intros; try dsimp -zeta only)
    | with_reducible apply State.upCid_sound
    | with_reducible apply State.finish_sound
    | with_reducible apply State.writeBytes_sound
    | with_reducible apply State.upSeq_sound
    | with_reducible apply State.putSlices_sound
    | with_reducible apply sound_ite
    | with_reducible apply foldl_sound
    | split

theorem State.syncMsgs_sound (s : State) (hs : s.sound = true) :
    (State.syncMsgs s).sound = true := by
  delta State.syncMsgs
  repeat' first
    | with_reducible assumption
    | with_reducible apply State.wr_sound

theorem State.upMsg_sound (s : State) (mid : Nat) (f : StepMsg → StepMsg) (hs : s.sound = true) :
    (State.upMsg s mid f).sound = true := by
  delta State.upMsg
  repeat' first
    | with_reducible assumption
    | with_reducible apply State.upAtt_sound

theorem State.stepStatus_sound (s : State) (p : Packet) (st low : Nat) (hs : s.sound = true) :
    (State.stepStatus s p st low).sound = true := by
  delta State.stepStatus
  repeat' first
    | with_reducible assumption
    | (lift_lets -underBinder; intro x; refine have hx : x.sound = true := ?_; ?_; (unfold x); rotate_left; clear_value x; rotate_right)
    | with_reducible apply State.bump_sound
    | with_reducible apply State.answer_sound
    | with_reducible apply sound_ite

theorem State.dropMsg_sound (s : State) (mid : Nat) (hs : s.sound = true) :
    (State.dropMsg s mid).sound = true := by
  delta State.dropMsg
  repeat' first
    | with_reducible assumption
    | (lift_lets -underBinder; intro x; refine have hx : x.sound = true := ?_; ?_; (unfold x); rotate_left; clear_value x; rotate_right)
    | (refine fun _ => ?_; intros; try dsimp -zeta only)
    | with_reducible apply State.upAtt_sound
    | with_reducible apply State.endWork_sound
    | with_reducible apply State.syncMsgs_sound
    | with_reducible apply foldl_sound

theorem State.failMsg_sound (s : State) (mid st low : Nat) (hs : s.sound = true) :
    (State.failMsg s mid st low).sound = true := by
  delta State.failMsg
  repeat' first
    | with_reducible assumption
    | (lift_lets -underBinder; intro x; refine have hx : x.sound = true := ?_; ?_; (unfold x); rotate_left; clear_value x; rotate_right)
    | with_reducible apply State.upAtt_sound
    | with_reducible apply State.stepStatus_sound
    | with_reducible apply State.dropMsg_sound
    | with_reducible apply sound_ite
    | split

theorem State.killRecord_sound (s : State) (cid st : Nat) (hs : s.sound = true) :
    (State.killRecord s cid st).sound = true := by
  delta State.killRecord
  repeat' first
    | with_reducible assumption
    | with_reducible apply State.failMsg_sound
    | split

theorem State.flushMsg_sound (s : State) (mid : Nat) (hs : s.sound = true) :
    (State.flushMsg s mid).sound = true := by
  delta State.flushMsg
  repeat' first
    | with_reducible assumption
    | (lift_lets -underBinder; intro x; clear_value x)
    | (refine fun _ => ?_; intros; try dsimp -zeta only)
    | with_reducible apply State.bump_sound
    | with_reducible apply State.send_sound
    | with_reducible apply State.sweepFences_sound
    | with_reducible apply State.upMsg_sound
    | with_reducible apply State.dropMsg_sound
    | with_reducible apply State.failMsg_sound
    | with_reducible apply sound_ite
    | with_reducible apply foldl_sound
    | split

theorem State.noteRecord_sound (s : State) (fen i st : Nat) (hs : s.sound = true) :
    (State.noteRecord s fen i st).sound = true := by
  delta State.noteRecord
  repeat' first
    | with_reducible assumption
    | (lift_lets -underBinder; intro x; clear_value x)
    | with_reducible apply State.upSeq_sound
    | with_reducible apply sound_ite

theorem State.countRecord_sound (s : State) (st skipped : Nat) (hs : s.sound = true) :
    (State.countRecord s st skipped).sound = true := by
  delta State.countRecord
  repeat' first
    | with_reducible assumption
    | (lift_lets -underBinder; intro x; refine have hx : x.sound = true := ?_; ?_; (unfold x); rotate_left; clear_value x; rotate_right)
    | with_reducible apply State.bump_sound
    | with_reducible apply sound_ite

theorem State.putResult_sound (s : State) (mid n : Nat) (d : Bytes) (hs : s.sound = true) :
    (State.putResult s mid n d).sound = true := by
  delta State.putResult
  repeat' first
    | with_reducible assumption
    | with_reducible apply State.upMsg_sound

theorem State.refuseRecord_sound (s : State) (mid n fen : Nat) (r : Bytes) (st malf : Nat) (hs : s.sound = true) :
    (State.refuseRecord s mid n fen r st malf).sound = true := by
  delta State.refuseRecord
  repeat' first
    | with_reducible assumption
    | with_reducible apply State.noteRecord_sound
    | with_reducible apply State.countRecord_sound
    | with_reducible apply State.putResult_sound

theorem State.beginRecord_sound (s : State) (mid : Nat) (m : StepMsg) (n : Nat) (r : Bytes) (hs : s.sound = true) :
    (State.beginRecord s mid m n r).sound = true := by
  delta State.beginRecord
  repeat' first
    | with_reducible assumption
    | (lift_lets -underBinder; intro x; clear_value x)
    | with_reducible apply State.raiseRefs_sound
    | with_reducible apply State.addCmd_sound
    | with_reducible apply State.refuseRecord_sound
    | with_reducible apply sound_ite
    | refine sound_of_opt (by with_reducible assumption) ?_
    | split
    | with_reducible refine State.sound_mk ?_ rfl rfl rfl rfl rfl rfl rfl

theorem State.feedN_sound (fuel : Nat) (s : State) (mid : Nat) (hs : s.sound = true) : (State.feedN fuel s mid).sound = true := by
  induction fuel generalizing s with
  | zero => exact hs
  | succ fuel ih =>
    unfold State.feedN
    dsimp only
    repeat' first
      | with_reducible assumption
      | with_reducible apply ih
      | with_reducible apply State.upMsg_sound
      | with_reducible apply State.refuseRecord_sound
      | with_reducible apply State.beginRecord_sound
      | with_reducible apply sound_ite
      | split

theorem State.feedMsg_sound (s : State) (mid : Nat) (hs : s.sound = true) :
    (State.feedMsg s mid).sound = true := by
  delta State.feedMsg
  repeat' first
    | with_reducible assumption
    | with_reducible apply State.flushMsg_sound
    | with_reducible apply State.feedN_sound

theorem step__sound (s : State) (hs : s.sound = true) :
    (step_ s).sound = true := by
  delta step_
  repeat' first
    | with_reducible assumption
    | (lift_lets -underBinder; intro x; clear_value x)
    | with_reducible apply State.wr_sound
    | with_reducible apply State.bump_sound
    | with_reducible apply State.upAtt_sound
    | with_reducible apply State.upSqt_sound
    | with_reducible apply State.takeHome_sound
    | with_reducible apply State.syncMsgs_sound
    | with_reducible apply State.upMsg_sound
    | with_reducible apply State.stepStatus_sound
    | with_reducible apply State.failMsg_sound
    | with_reducible apply State.feedMsg_sound
    | with_reducible apply sound_ite
    | refine sound_of_optSnd (by with_reducible assumption) ?_
    | split

theorem stepMsgTimeout_sound (mid : Nat) (s : State) (hs : s.sound = true) :
    (stepMsgTimeout mid s).sound = true := by
  delta stepMsgTimeout
  repeat' first
    | with_reducible assumption
    | with_reducible apply State.bump_sound
    | with_reducible apply State.dropMsg_sound
    | with_reducible apply sound_ite
    | split

theorem stepOpen_sound (s : State) (hs : s.sound = true) :
    (stepOpen s).sound = true := by
  delta stepOpen
  repeat' first
    | with_reducible assumption
    | (lift_lets -underBinder; intro x; clear_value x)
    | (refine fun _ => ?_; intros; try dsimp -zeta only)
    | with_reducible apply State.wr_sound
    | with_reducible apply State.bump_sound
    | with_reducible apply State.upSqt_sound
    | with_reducible apply State.openStep_sound
    | with_reducible apply State.upMsg_sound
    | with_reducible apply State.flushMsg_sound
    | with_reducible apply State.feedMsg_sound
    | with_reducible apply sound_ite
    | with_reducible apply foldl_sound
    | split

theorem State.recordAppend_sound (s : State) (c : Cmd) (h : Shape) (l : Nat) (hs : s.sound = true) :
    (State.recordAppend s c h l).1.sound = true := by
  delta State.recordAppend
  repeat' first
    | with_reducible assumption
    | (lift_lets -underBinder; intro x; clear_value x)
    | (refine fun _ => ?_; intros; try dsimp -zeta only)
    | with_reducible apply State.upSeq_sound
    | with_reducible apply State.putSlices_sound
    | with_reducible apply sound_ite
    | with_reducible apply sound_ite_fst
    | with_reducible apply foldl_sound

theorem State.answerRecord_sound (s : State) (cid : Nat) (c : Cmd) (st skipped : Nat) (d : Bytes) (hs : s.sound = true) :
    (State.answerRecord s cid c st skipped d).sound = true := by
  delta State.answerRecord
  repeat' first
    | with_reducible assumption
    | (lift_lets -underBinder; intro x; clear_value x)
    | with_reducible apply State.endWork_sound
    | with_reducible apply State.noteRecord_sound
    | with_reducible apply State.countRecord_sound
    | with_reducible apply State.putResult_sound
    | with_reducible apply State.feedMsg_sound

theorem State.recordRerun_sound (s : State) (cid : Nat) (c : Cmd) (bad : Seg) (hs : s.sound = true) :
    (State.recordRerun s cid c bad).1.sound = true := by
  delta State.recordRerun
  repeat' first
    | with_reducible assumption
    | (lift_lets -underBinder; intro x; refine have hx : x.sound = true := ?_; ?_; (unfold x); rotate_left; clear_value x; rotate_right)
    | (lift_lets -underBinder; intro x; clear_value x)
    | with_reducible apply State.bump_sound
    | with_reducible apply State.upChunk_sound
    | with_reducible apply State.requeue_sound
    | with_reducible apply State.noteBadPieces_sound
    | with_reducible apply sound_ite_fst
    | split
    | with_reducible refine State.sound_mk ?_ rfl rfl rfl rfl rfl rfl rfl

theorem State.recordWork_sound (s : State) (cid : Nat) (c : Cmd) (hs : s.sound = true) :
    (State.recordWork s cid c).sound = true := by
  delta State.recordWork
  repeat' first
    | with_reducible assumption
    | (lift_lets -underBinder; intro x; clear_value x)
    | with_reducible apply State.recordAppend_sound
    | with_reducible apply State.answerRecord_sound
    | with_reducible apply State.recordRerun_sound
    | with_reducible apply sound_ite
    | split

theorem stepRecord_sound (cid k : Nat) (s : State) (hs : s.sound = true) :
    (stepRecord cid k s).sound = true := by
  delta stepRecord
  repeat' first
    | with_reducible assumption
    | (lift_lets -underBinder; intro x; refine have hx : x.sound = true := ?_; ?_; (unfold x); rotate_left; clear_value x; rotate_right)
    | with_reducible apply State.stage_sound
    | with_reducible apply State.recordWork_sound
    | with_reducible apply sound_ite
    | split

end Sys2Proof.Machine
end

