-- ==== Sys2Proof/Laws/Sound/PoolCmds.lean ====
section
/-!
SUPPORT. Soundness is kept by every operation of Machine/PoolCmds.lean.
-/
namespace Sys2Proof.Machine

theorem State.killCmd_sound (s : State) (cid : Nat) (hs : s.sound = true) :
    (State.killCmd s cid).sound = true := by
  delta State.killCmd
  repeat' first
    | with_reducible assumption
    | (lift_lets -underBinder; intro x; refine have hx : x.sound = true := ?_; ?_; (unfold x); rotate_left; clear_value x; rotate_right)
    | (refine fun _ => ?_; intros; try dsimp -zeta only)
    | with_reducible apply State.releaseMove_sound
    | with_reducible apply State.finish_sound
    | with_reducible apply State.gatherEnd_sound
    | with_reducible apply State.killRecord_sound
    | with_reducible apply sound_ite
    | with_reducible apply foldl_sound
    | split

theorem State.killRefs_sound (s : State) (es : List Nat) (hs : s.sound = true) :
    (State.killRefs s es).sound = true := by
  delta State.killRefs
  repeat' first
    | with_reducible assumption
    | (refine fun _ => ?_; intros; try dsimp -zeta only)
    | with_reducible apply State.killCmd_sound
    | with_reducible apply foldl_sound

theorem State.fenceRegion_sound (s : State) (r : Nat) (hs : s.sound = true) :
    (State.fenceRegion s r).sound = true := by
  delta State.fenceRegion
  repeat' first
    | with_reducible assumption
    | (lift_lets -underBinder; intro x; refine have hx : x.sound = true := ?_; ?_; (unfold x); rotate_left; clear_value x; rotate_right)
    | (refine fun _ => ?_; intros; try dsimp -zeta only)
    | with_reducible apply State.upPool_sound
    | with_reducible apply State.syncLeases_sound
    | with_reducible apply State.abortMove_sound
    | with_reducible apply State.killRefs_sound
    | with_reducible apply foldl_sound

theorem State.fenceFen_sound (f : Nat) (s : State) (hs : s.sound = true) :
    (State.fenceFen f s).sound = true := by
  delta State.fenceFen
  repeat' first
    | with_reducible assumption
    | (lift_lets -underBinder; intro x; refine have hx : x.sound = true := ?_; ?_; (unfold x); rotate_left; clear_value x; rotate_right)
    | (refine fun _ => ?_; intros; try dsimp -zeta only)
    | with_reducible apply State.wr_sound
    | with_reducible apply State.fenceRegion_sound
    | with_reducible apply foldl_sound

theorem State.allocate_sound (s : State) (e : Extent) (mask : Nat) (hs : s.sound = true) :
    (State.allocate s e mask).1.sound = true := by
  delta State.allocate
  repeat' first
    | with_reducible assumption
    | (lift_lets -underBinder; intro x; clear_value x)
    | with_reducible apply State.inc_sound
    | with_reducible apply State.zeroTier_sound
    | with_reducible apply State.mendKeys_sound
    | with_reducible apply State.upPool_sound
    | with_reducible apply State.refuseNoRes_sound
    | with_reducible apply State.chargeUnits_sound
    | with_reducible apply State.takeFree_sound
    | with_reducible apply sound_ite_fst
    | split

theorem State.freeOne_sound (s : State) (i : Nat) (rgn : Option Nat) (hs : s.sound = true) :
    (State.freeOne s i rgn).sound = true := by
  delta State.freeOne
  repeat' first
    | with_reducible assumption
    | with_reducible apply State.freeExtent_sound
    | with_reducible apply State.abortMove_sound

theorem State.noteRefused_sound (s : State) (c : Cmd) (st : Nat) (hs : s.sound = true) :
    (State.noteRefused s c st).sound = true := by
  delta State.noteRefused
  repeat' first
    | with_reducible assumption
    | with_reducible apply State.bump_sound
    | with_reducible apply sound_ite

theorem State.runTable_sound (s : State) (cid op : Nat) (act : Cmd → State → State × Nat) (hs : s.sound = true) (h_act : ∀ (x0 : Cmd) (x1 : State), x1.sound = true → (act x0 x1).1.sound = true) :
    (State.runTable s cid op act).sound = true := by
  delta State.runTable
  repeat' first
    | with_reducible assumption
    | (lift_lets -underBinder; intro x; clear_value x)
    | with_reducible apply h_act
    | with_reducible apply State.upCid_sound
    | with_reducible apply State.finish_sound
    | with_reducible apply sound_ite
    | split

theorem alloc_sound (cid : Nat) (s : State) (hs : s.sound = true) :
    (alloc cid s).sound = true := by
  delta alloc
  repeat' first
    | with_reducible assumption
    | (lift_lets -underBinder; intro x; clear_value x)
    | (refine fun _ => ?_; intros; try dsimp -zeta only)
    | with_reducible apply State.syncLease_sound
    | with_reducible apply State.allocate_sound
    | with_reducible apply State.runTable_sound

theorem free_sound (cid : Nat) (s : State) (hs : s.sound = true) :
    (free cid s).sound = true := by
  delta free
  repeat' first
    | with_reducible assumption
    | (lift_lets -underBinder; intro x; clear_value x)
    | (refine fun _ => ?_; intros; try dsimp -zeta only)
    | with_reducible apply State.syncLeases_sound
    | with_reducible apply State.freeOne_sound
    | with_reducible apply State.runTable_sound
    | with_reducible apply foldl_sound

theorem prefixMark_sound (cid : Nat) (s : State) (hs : s.sound = true) :
    (prefixMark cid s).sound = true := by
  delta prefixMark
  repeat' first
    | with_reducible assumption
    | (refine fun _ => ?_; intros; try dsimp -zeta only)
    | with_reducible apply State.upExt_sound
    | with_reducible apply State.syncLease_sound
    | with_reducible apply State.runTable_sound
    | with_reducible apply foldl_sound

theorem prefixRef_sound (cid : Nat) (s : State) (hs : s.sound = true) :
    (prefixRef cid s).sound = true := by
  delta prefixRef
  repeat' first
    | with_reducible assumption
    | (refine fun _ => ?_; intros; try dsimp -zeta only)
    | with_reducible apply State.upExt_sound
    | with_reducible apply State.runTable_sound
    | with_reducible apply foldl_sound

theorem prefixUnref_sound (cid : Nat) (s : State) (hs : s.sound = true) :
    (prefixUnref cid s).sound = true := by
  delta prefixUnref
  repeat' first
    | with_reducible assumption
    | (refine fun _ => ?_; intros; try dsimp -zeta only)
    | with_reducible apply State.upExt_sound
    | with_reducible apply State.runTable_sound
    | with_reducible apply foldl_sound

theorem State.startMove_sound (s : State) (i tier mask cls : Nat) (cid : Option Nat) (hs : s.sound = true) :
    OptSound (State.startMove s i tier mask cls cid) := by
  delta State.startMove
  repeat' first
    | with_reducible assumption
    | (lift_lets -underBinder; intro x; clear_value x)
    | with_reducible apply State.upPool_sound
    | with_reducible apply State.upExt_sound
    | with_reducible apply State.chargeUnits_sound
    | with_reducible apply State.takeFree_sound
    | exact optSound_none
    | with_reducible apply optSound_some
    | with_reducible apply optSound_ite
    | split

theorem State.runMove_sound (s : State) (cid op : Nat) (hs : s.sound = true) :
    (State.runMove s cid op).sound = true := by
  delta State.runMove
  repeat' first
    | with_reducible assumption
    | (lift_lets -underBinder; intro x; clear_value x)
    | with_reducible apply State.bump_sound
    | with_reducible apply State.refuseNoRes_sound
    | with_reducible apply State.upCid_sound
    | with_reducible apply State.finish_sound
    | with_reducible apply State.noteRefused_sound
    | with_reducible apply State.startMove_sound
    | with_reducible apply sound_ite
    | refine sound_of_opt (by with_reducible assumption) ?_
    | split

theorem migrate_sound (cid : Nat) (s : State) (hs : s.sound = true) :
    (migrate cid s).sound = true := by
  delta migrate
  repeat' first
    | with_reducible assumption
    | with_reducible apply State.runMove_sound

theorem evict_sound (cid : Nat) (s : State) (hs : s.sound = true) :
    (evict cid s).sound = true := by
  delta evict
  repeat' first
    | with_reducible assumption
    | with_reducible apply State.runMove_sound

theorem advise_sound (cid : Nat) (s : State) (hs : s.sound = true) :
    (advise cid s).sound = true := by
  delta advise
  repeat' first
    | with_reducible assumption
    | (lift_lets -underBinder; intro x; clear_value x)
    | (refine fun _ => ?_; intros; try dsimp -zeta only)
    | with_reducible apply State.bump_sound
    | with_reducible apply State.upExt_sound
    | with_reducible apply State.runTable_sound
    | with_reducible apply State.startMove_sound
    | with_reducible apply sound_ite
    | with_reducible apply foldl_sound
    | refine sound_of_opt (by with_reducible assumption) ?_
    | split
    | with_reducible refine State.sound_mk ?_ rfl rfl rfl rfl rfl rfl rfl

theorem moveCopyStep_sound (i : Nat) (s : State) (hs : s.sound = true) :
    (moveCopyStep i s).sound = true := by
  delta moveCopyStep
  repeat' first
    | with_reducible assumption
    | (lift_lets -underBinder; intro x; clear_value x)
    | with_reducible apply State.writeTier_sound
    | with_reducible apply State.mendKeys_sound
    | with_reducible apply State.poisonKeys_sound
    | with_reducible apply State.upPool_sound
    | with_reducible apply State.noteBad_sound
    | with_reducible apply State.abortMove_sound
    | with_reducible apply sound_ite
    | split

theorem moveCommit_sound (i : Nat) (s : State) (hs : s.sound = true) :
    (moveCommit i s).sound = true := by
  delta moveCommit
  repeat' first
    | with_reducible assumption
    | (lift_lets -underBinder; intro x; clear_value x)
    | with_reducible apply State.bump_sound
    | with_reducible apply State.upPool_sound
    | with_reducible apply State.upFab_sound
    | with_reducible apply State.upExt_sound
    | with_reducible apply State.scrub_sound
    | with_reducible apply State.upCid_sound
    | with_reducible apply State.finish_sound
    | with_reducible apply sound_ite
    | split

theorem moveDrainTimeout_sound (i : Nat) (s : State) (hs : s.sound = true) :
    (moveDrainTimeout i s).sound = true := by
  delta moveDrainTimeout
  repeat' first
    | with_reducible assumption
    | with_reducible apply State.abortMove_sound
    | with_reducible apply sound_ite
    | split

theorem State.endDelete_sound (s : State) (r : Nat) (hs : s.sound = true) :
    (State.endDelete s r).sound = true := by
  delta State.endDelete
  repeat' first
    | with_reducible assumption
    | (lift_lets -underBinder; intro x; clear_value x)
    | with_reducible apply State.wr_sound
    | with_reducible apply State.dec_sound
    | with_reducible apply State.upPool_sound
    | with_reducible apply sound_ite

theorem scrubDone_sound (id : Nat) (s : State) (hs : s.sound = true) :
    (scrubDone id s).sound = true := by
  delta scrubDone
  repeat' first
    | with_reducible assumption
    | (lift_lets -underBinder; intro x; clear_value x)
    | with_reducible apply State.dec_sound
    | with_reducible apply State.measure_sound
    | with_reducible apply State.zeroTier_sound
    | with_reducible apply State.mendKeys_sound
    | with_reducible apply State.upPool_sound
    | with_reducible apply State.returnUnits_sound
    | with_reducible apply State.giveFree_sound
    | with_reducible apply State.endDelete_sound
    | with_reducible apply sound_ite
    | split

theorem leaseExpire_sound (clid : Nat) (s : State) (hs : s.sound = true) :
    (leaseExpire clid s).sound = true := by
  delta leaseExpire
  repeat' first
    | with_reducible assumption
    | (lift_lets -underBinder; intro x; clear_value x)
    | (refine fun _ => ?_; intros; try dsimp -zeta only)
    | with_reducible apply State.bump_sound
    | with_reducible apply State.event_sound
    | with_reducible apply State.freeExtent_sound
    | with_reducible apply State.upLease_sound
    | with_reducible apply State.abortMove_sound
    | with_reducible apply State.leaseLeaves_sound
    | with_reducible apply State.killRefs_sound
    | with_reducible apply sound_ite
    | with_reducible apply foldl_sound

theorem State.runData_sound (s : State) (cid k op : Nat) (reads : Cmd → List Seg) (act : Cmd → Bytes → State → State) (hs : s.sound = true) (h_act : ∀ (x0 : Cmd) (x1 : Bytes) (x2 : State), x2.sound = true → (act x0 x1 x2).sound = true) :
    (State.runData s cid k op reads act).sound = true := by
  delta State.runData
  repeat' first
    | with_reducible assumption
    | (lift_lets -underBinder; intro x; clear_value x)
    | (refine fun _ => ?_; intros; try dsimp -zeta only)
    | with_reducible apply h_act
    | with_reducible apply State.finish_sound
    | with_reducible apply State.readFailed_sound
    | with_reducible apply sound_ite
    | split

theorem fill_sound (cid k : Nat) (s : State) (hs : s.sound = true) :
    (fill cid k s).sound = true := by
  delta fill
  repeat' first
    | with_reducible assumption
    | (lift_lets -underBinder; intro x; clear_value x)
    | (refine fun _ => ?_; intros; try dsimp -zeta only)
    | with_reducible apply State.stage_sound
    | with_reducible apply State.finish_sound
    | with_reducible apply State.runData_sound
    | with_reducible apply sound_ite

theorem copy_sound (cid k : Nat) (s : State) (hs : s.sound = true) :
    (copy cid k s).sound = true := by
  delta copy
  repeat' first
    | with_reducible assumption
    | (lift_lets -underBinder; intro x; clear_value x)
    | (refine fun _ => ?_; intros; try dsimp -zeta only)
    | with_reducible apply State.stage_sound
    | with_reducible apply State.finish_sound
    | with_reducible apply State.runData_sound
    | with_reducible apply sound_ite

theorem compare__sound (cid k : Nat) (s : State) (hs : s.sound = true) :
    (compare_ cid k s).sound = true := by
  delta compare_
  repeat' first
    | with_reducible assumption
    | (lift_lets -underBinder; intro x; clear_value x)
    | (refine fun _ => ?_; intros; try dsimp -zeta only)
    | with_reducible apply State.stage_sound
    | with_reducible apply State.runData_sound

theorem reduceInPlace_sound (cid k : Nat) (s : State) (hs : s.sound = true) :
    (reduceInPlace cid k s).sound = true := by
  delta reduceInPlace
  repeat' first
    | with_reducible assumption
    | (lift_lets -underBinder; intro x; clear_value x)
    | (refine fun _ => ?_; intros; try dsimp -zeta only)
    | with_reducible apply State.stage_sound
    | with_reducible apply State.runData_sound

theorem State.dataCommit_sound (s : State) (cid k : Nat) (c : Cmd) (x : Chunk) (hs : s.sound = true) :
    (State.dataCommit s cid k c x).sound = true := by
  delta State.dataCommit
  repeat' first
    | with_reducible assumption
    | (lift_lets -underBinder; intro x; refine have hx : x.sound = true := ?_; ?_; (unfold x); rotate_left; clear_value x; rotate_right)
    | (refine fun _ => ?_; intros; try dsimp -zeta only)
    | with_reducible apply State.upCid_sound
    | with_reducible apply State.performWrite_sound
    | with_reducible apply State.finish_sound
    | with_reducible apply sound_ite
    | with_reducible apply foldl_sound

theorem State.postXlate_sound (s : State) (tag : Nat) (x : Xlate) (hs : s.sound = true) :
    (State.postXlate s tag x).sound = true := by
  delta State.postXlate
  repeat' first
    | with_reducible assumption
    | (lift_lets -underBinder; intro x; clear_value x)
    | with_reducible apply State.wr_sound
    | with_reducible apply State.bump_sound
    | with_reducible apply State.upPool_sound
    | with_reducible apply State.dmaWrite_sound

theorem State.postXlates_sound (s : State) (hs : s.sound = true) :
    (State.postXlates s).sound = true := by
  delta State.postXlates
  repeat' first
    | with_reducible assumption
    | (refine fun _ => ?_; intros; try dsimp -zeta only)
    | with_reducible apply State.postXlate_sound
    | with_reducible apply sound_ite
    | with_reducible apply foldl_sound

theorem xlateAnswer_sound (s : State) (hs : s.sound = true) :
    (xlateAnswer s).sound = true := by
  delta xlateAnswer
  repeat' first
    | with_reducible assumption
    | (lift_lets -underBinder; intro x; refine have hx : x.sound = true := ?_; ?_; (unfold x); rotate_left; clear_value x; rotate_right)
    | (lift_lets -underBinder; intro x; clear_value x)
    | with_reducible apply State.wr_sound
    | with_reducible apply State.bump_sound
    | with_reducible apply State.upPool_sound
    | with_reducible apply State.upCid_sound
    | with_reducible apply State.syncCmd_sound
    | with_reducible apply State.finish_sound
    | with_reducible apply State.postXlates_sound
    | with_reducible apply sound_ite
    | split

theorem xlateTimeout_sound (cid : Nat) (s : State) (hs : s.sound = true) :
    (xlateTimeout cid s).sound = true := by
  delta xlateTimeout
  repeat' first
    | with_reducible assumption
    | with_reducible apply State.bump_sound
    | with_reducible apply State.finish_sound
    | with_reducible apply State.postXlates_sound
    | with_reducible apply sound_ite
    | split

theorem State.extEnd_sound (s : State) (st : Nat) (hs : s.sound = true) :
    (State.extEnd s st).sound = true := by
  delta State.extEnd
  repeat' first
    | with_reducible assumption
    | with_reducible apply State.setEnd_sound

theorem State.extWords_sound (s : State) (i : Nat) (hs : s.sound = true) :
    (State.extWords s i).sound = true := by
  delta State.extWords
  repeat' first
    | with_reducible assumption
    | (refine fun _ => ?_; intros; try dsimp -zeta only)
    | with_reducible apply State.wr_sound
    | with_reducible apply State.extEnd_sound
    | with_reducible apply foldl_sound

theorem State.extRead_sound (s : State) (hs : s.sound = true) :
    (State.extRead s).sound = true := by
  delta State.extRead
  repeat' first
    | with_reducible assumption
    | with_reducible apply State.extWords_sound

theorem State.extFind_sound (s : State) (hs : s.sound = true) :
    (State.extFind s).sound = true := by
  delta State.extFind
  repeat' first
    | with_reducible assumption
    | with_reducible apply State.wr_sound
    | with_reducible apply State.extEnd_sound
    | with_reducible apply State.extWords_sound
    | split

theorem State.extCreate_sound (s : State) (hs : s.sound = true) :
    (State.extCreate s).sound = true := by
  delta State.extCreate
  repeat' first
    | with_reducible assumption
    | (lift_lets -underBinder; intro x; clear_value x)
    | with_reducible apply State.allocate_sound
    | with_reducible apply State.extEnd_sound
    | with_reducible apply sound_ite

theorem State.extCreateHost_sound (s : State) (hs : s.sound = true) :
    (State.extCreateHost s).sound = true := by
  delta State.extCreateHost
  repeat' first
    | with_reducible assumption
    | (lift_lets -underBinder; intro x; clear_value x)
    | with_reducible apply State.inc_sound
    | with_reducible apply State.upPool_sound
    | with_reducible apply State.refuseNoRes_sound
    | with_reducible apply State.extEnd_sound
    | with_reducible apply sound_ite
    | split

theorem State.extFree_sound (s : State) (hs : s.sound = true) :
    (State.extFree s).sound = true := by
  delta State.extFree
  repeat' first
    | with_reducible assumption
    | (lift_lets -underBinder; intro x; clear_value x)
    | with_reducible apply State.syncLeases_sound
    | with_reducible apply State.freeOne_sound
    | with_reducible apply State.extEnd_sound
    | with_reducible apply sound_ite

theorem State.rgnEnd_sound (s : State) (st : Nat) (hs : s.sound = true) :
    (State.rgnEnd s st).sound = true := by
  delta State.rgnEnd
  repeat' first
    | with_reducible assumption
    | with_reducible apply State.setEnd_sound

theorem State.rgnRead_sound (s : State) (hs : s.sound = true) :
    (State.rgnRead s).sound = true := by
  delta State.rgnRead
  repeat' first
    | with_reducible assumption
    | (refine fun _ => ?_; intros; try dsimp -zeta only)
    | with_reducible apply State.wr_sound
    | with_reducible apply State.rgnEnd_sound
    | with_reducible apply foldl_sound

theorem State.rgnCreate_sound (s : State) (hs : s.sound = true) :
    (State.rgnCreate s).sound = true := by
  delta State.rgnCreate
  repeat' first
    | with_reducible assumption
    | (lift_lets -underBinder; intro x; clear_value x)
    | with_reducible apply State.inc_sound
    | with_reducible apply State.upPool_sound
    | with_reducible apply State.refuseNoRes_sound
    | with_reducible apply State.rgnEnd_sound
    | with_reducible apply sound_ite

theorem State.rgnUpdate_sound (s : State) (hs : s.sound = true) :
    (State.rgnUpdate s).sound = true := by
  delta State.rgnUpdate
  repeat' first
    | with_reducible assumption
    | (lift_lets -underBinder; intro x; clear_value x)
    | with_reducible apply State.upPool_sound
    | with_reducible apply State.rgnEnd_sound
    | with_reducible apply sound_ite

theorem State.rgnFence_sound (s : State) (hs : s.sound = true) :
    (State.rgnFence s).sound = true := by
  delta State.rgnFence
  repeat' first
    | with_reducible assumption
    | (lift_lets -underBinder; intro x; clear_value x)
    | with_reducible apply State.fenceRegion_sound
    | with_reducible apply State.rgnEnd_sound
    | with_reducible apply sound_ite

theorem State.dropRing_sound (s : State) (pair : Nat) (hs : s.sound = true) :
    (State.dropRing s pair).sound = true := by
  delta State.dropRing
  repeat' first
    | with_reducible assumption
    | (lift_lets -underBinder; intro x; clear_value x)
    | (refine fun _ => ?_; intros; try dsimp -zeta only)
    | with_reducible apply State.upRing_sound
    | with_reducible apply State.stopCmd_sound
    | with_reducible apply foldl_sound

theorem State.deleteRegion_sound (s : State) (r : Nat) (hs : s.sound = true) :
    (State.deleteRegion s r).sound = true := by
  delta State.deleteRegion
  repeat' first
    | with_reducible assumption
    | (lift_lets -underBinder; intro x; clear_value x)
    | (refine fun _ => ?_; intros; try dsimp -zeta only)
    | with_reducible apply State.wr_sound
    | with_reducible apply State.upPool_sound
    | with_reducible apply State.freeExtent_sound
    | with_reducible apply State.syncLeases_sound
    | with_reducible apply State.fenceRegion_sound
    | with_reducible apply State.endDelete_sound
    | with_reducible apply State.dropRing_sound
    | with_reducible apply foldl_sound

theorem State.rgnDelete_sound (s : State) (hs : s.sound = true) :
    (State.rgnDelete s).sound = true := by
  delta State.rgnDelete
  repeat' first
    | with_reducible assumption
    | (lift_lets -underBinder; intro x; clear_value x)
    | with_reducible apply State.rgnEnd_sound
    | with_reducible apply State.deleteRegion_sound
    | with_reducible apply sound_ite

theorem State.rgnReadClient_sound (s : State) (hs : s.sound = true) :
    (State.rgnReadClient s).sound = true := by
  delta State.rgnReadClient
  repeat' first
    | with_reducible assumption
    | with_reducible apply State.wr_sound
    | with_reducible apply State.rgnEnd_sound

theorem State.rgnWriteClient_sound (s : State) (hs : s.sound = true) :
    (State.rgnWriteClient s).sound = true := by
  delta State.rgnWriteClient
  repeat' first
    | with_reducible assumption
    | (lift_lets -underBinder; intro x; clear_value x)
    | with_reducible apply State.upPool_sound
    | with_reducible apply State.rgnEnd_sound
    | with_reducible apply sound_ite

end Sys2Proof.Machine
end

