-- ==== Sys2Proof/Laws/Sound/Engine.lean ====
section
/-!
SUPPORT. Soundness is kept by every operation of Machine/Engine.lean.
-/
namespace Sys2Proof.Machine

theorem State.ccSeen_sound (s : State) (home : Nat) (p : Packet) (hs : s.sound = true) :
    (State.ccSeen s home p).sound = true := by
  delta State.ccSeen
  repeat' first
    | with_reducible assumption
    | (lift_lets -underBinder; intro x; clear_value x)
    | with_reducible apply State.upFab_sound
    | with_reducible apply sound_ite

theorem ccWindowEnd_sound (s : State) (hs : s.sound = true) :
    (ccWindowEnd s).sound = true := by
  delta ccWindowEnd
  repeat' first
    | with_reducible assumption
    | (lift_lets -underBinder; intro x; clear_value x)
    | with_reducible apply State.upFab_sound

theorem State.peerAnswer_sound (s : State) (cid tag st : Nat) (d : Bytes) (hs : s.sound = true) :
    (State.peerAnswer s cid tag st d).sound = true := by
  delta State.peerAnswer
  repeat' first
    | with_reducible assumption
    | with_reducible apply State.upFab_sound
    | with_reducible apply State.upCid_sound

theorem State.engSend_sound (s : State) (cid tag home : Nat) (p : Packet) (hs : s.sound = true) :
    (State.engSend s cid tag home p).sound = true := by
  delta State.engSend
  repeat' first
    | with_reducible assumption
    | (lift_lets -underBinder; intro x; clear_value x)
    | with_reducible apply State.upFab_sound
    | with_reducible apply State.send_sound
    | with_reducible apply State.peerAnswer_sound
    | with_reducible apply sound_ite

theorem State.forgetPeers_sound (s : State) (cid lo hi : Nat) (hs : s.sound = true) :
    (State.forgetPeers s cid lo hi).sound = true := by
  delta State.forgetPeers
  repeat' first
    | with_reducible assumption
    | with_reducible apply State.upFab_sound
    | with_reducible apply State.upCid_sound

theorem State.engResend_sound (s : State) (seq : Nat) (e : EngReq) (hs : s.sound = true) :
    (State.engResend s seq e).sound = true := by
  delta State.engResend
  repeat' first
    | with_reducible assumption
    | (lift_lets -underBinder; intro x; clear_value x)
    | with_reducible apply State.upFab_sound
    | with_reducible apply State.send_sound

end Sys2Proof.Machine
end

