-- ==== Sys2Proof/Laws/Sound/Checkpoint.lean ====
section
/-!
SUPPORT. Soundness is kept by every operation of Machine/Checkpoint.lean.
-/
namespace Sys2Proof.Machine

theorem State.setCursor_sound (s : State) (i epoch v : Nat) (hs : s.sound = true) :
    (State.setCursor s i epoch v).sound = true := by
  delta State.setCursor
  repeat' first
    | with_reducible assumption
    | with_reducible apply State.upCkp_sound

theorem State.upCkpWork_sound (s : State) (cid : Nat) (f : CkpWork → CkpWork) (hs : s.sound = true) :
    (State.upCkpWork s cid f).sound = true := by
  delta State.upCkpWork
  repeat' first
    | with_reducible assumption
    | with_reducible apply State.upCid_sound

theorem State.ckpRead_sound (s : State) (cid k : Nat) (ps : List Seg) (act : Bytes → State → State) (hs : s.sound = true) (h_act : ∀ (x0 : Bytes) (x1 : State), x1.sound = true → (act x0 x1).sound = true) :
    (State.ckpRead s cid k ps act).sound = true := by
  delta State.ckpRead
  repeat' first
    | with_reducible assumption
    | (refine fun _ => ?_; intros; try dsimp -zeta only)
    | with_reducible apply h_act
    | with_reducible apply State.finish_sound
    | with_reducible apply State.readFailed_sound
    | split

theorem State.ckpStage_sound (s : State) (cid k : Nat) (x : Chunk) (f : Chunk → Chunk) (hs : s.sound = true) :
    (State.ckpStage s cid k x f).sound = true := by
  delta State.ckpStage
  repeat' first
    | with_reducible assumption
    | with_reducible apply State.bump_sound
    | with_reducible apply State.stage_sound
    | with_reducible apply sound_ite

theorem State.runCkp_sound (s : State) (cid k op : Nat) (act : Cmd → Chunk → CkpSet → State → State) (hs : s.sound = true) (h_act : ∀ (x0 : Cmd) (x1 : Chunk) (x2 : CkpSet) (x3 : State), x3.sound = true → (act x0 x1 x2 x3).sound = true) :
    (State.runCkp s cid k op act).sound = true := by
  delta State.runCkp
  repeat' first
    | with_reducible assumption
    | with_reducible apply h_act
    | with_reducible apply State.finish_sound
    | with_reducible apply sound_ite
    | split

theorem ckpOpen_sound (cid k : Nat) (s : State) (hs : s.sound = true) :
    (ckpOpen cid k s).sound = true := by
  delta ckpOpen
  repeat' first
    | with_reducible assumption
    | (lift_lets -underBinder; intro x; clear_value x)
    | (refine fun _ => ?_; intros; try dsimp -zeta only)
    | with_reducible apply State.ckpStage_sound
    | with_reducible apply State.runCkp_sound

theorem ckpEncodeChunk_sound (cid k : Nat) (s : State) (hs : s.sound = true) :
    (ckpEncodeChunk cid k s).sound = true := by
  delta ckpEncodeChunk
  repeat' first
    | with_reducible assumption
    | (lift_lets -underBinder; intro x; clear_value x)
    | (refine fun _ => ?_; intros; try dsimp -zeta only)
    | with_reducible apply State.ckpRead_sound
    | with_reducible apply State.ckpStage_sound
    | with_reducible apply State.runCkp_sound

theorem ckpSeal_sound (cid k : Nat) (s : State) (hs : s.sound = true) :
    (ckpSeal cid k s).sound = true := by
  delta ckpSeal
  repeat' first
    | with_reducible assumption
    | (lift_lets -underBinder; intro x; clear_value x)
    | (refine fun _ => ?_; intros; try dsimp -zeta only)
    | with_reducible apply State.ckpRead_sound
    | with_reducible apply State.ckpStage_sound
    | with_reducible apply State.runCkp_sound
    | with_reducible apply sound_ite

theorem State.pollRound_sound (s : State) (cid : Nat) (c : Cmd) (z : CkpSet) (hs : s.sound = true) :
    (State.pollRound s cid c z).sound = true := by
  delta State.pollRound
  repeat' first
    | with_reducible assumption
    | (lift_lets -underBinder; intro x; refine have hx : x.sound = true := ?_; ?_; (unfold x); rotate_left; clear_value x; rotate_right)
    | (lift_lets -underBinder; intro x; clear_value x)
    | (refine fun _ => ?_; intros; try dsimp -zeta only)
    | with_reducible apply State.engSend_sound
    | with_reducible apply State.forgetPeers_sound
    | with_reducible apply State.upCkpWork_sound
    | with_reducible apply foldl_sound

theorem State.pollOn_sound (s : State) (cid k : Nat) (c : Cmd) (z : CkpSet) (hs : s.sound = true) :
    (State.pollOn s cid k c z).sound = true := by
  delta State.pollOn
  repeat' first
    | with_reducible assumption
    | (lift_lets -underBinder; intro x; refine have hx : x.sound = true := ?_; ?_; (unfold x); rotate_left; clear_value x; rotate_right)
    | (refine fun _ => ?_; intros; try dsimp -zeta only)
    | with_reducible apply State.upCid_sound
    | with_reducible apply State.finish_sound
    | with_reducible apply State.forgetPeers_sound
    | with_reducible apply State.upCkpWork_sound
    | with_reducible apply State.ckpRead_sound
    | with_reducible apply State.pollRound_sound
    | with_reducible apply sound_ite
    | split

theorem ckpHeaderPoll_sound (cid : Nat) (s : State) (hs : s.sound = true) :
    (ckpHeaderPoll cid s).sound = true := by
  delta ckpHeaderPoll
  repeat' first
    | with_reducible assumption
    | (lift_lets -underBinder; intro x; clear_value x)
    | with_reducible apply State.bump_sound
    | with_reducible apply State.finish_sound
    | with_reducible apply State.upCkpWork_sound
    | with_reducible apply State.pollRound_sound
    | with_reducible apply sound_ite
    | split

theorem State.unitSend_sound (s : State) (cid k : Nat) (c : Cmd) (z : CkpSet) (us : List UnitRef) (hs : s.sound = true) :
    (State.unitSend s cid k c z us).sound = true := by
  delta State.unitSend
  repeat' first
    | with_reducible assumption
    | (lift_lets -underBinder; intro x; clear_value x)
    | (refine fun _ => ?_; intros; try dsimp -zeta only)
    | with_reducible apply State.engSend_sound
    | with_reducible apply foldl_sound
    | split

theorem State.withUnits_sound (s : State) (cid k : Nat) (c : Cmd) (z : CkpSet) (us : List UnitRef) (act : List (Nat × Bytes) → State → State) (hs : s.sound = true) (h_act : ∀ (x0 : List (Nat × Bytes)) (x1 : State), x1.sound = true → (act x0 x1).sound = true) :
    (State.withUnits s cid k c z us act).sound = true := by
  delta State.withUnits
  repeat' first
    | with_reducible assumption
    | (lift_lets -underBinder; intro x; clear_value x)
    | with_reducible apply h_act
    | with_reducible apply State.finish_sound
    | with_reducible apply State.forgetPeers_sound
    | with_reducible apply State.upCkpWork_sound
    | with_reducible apply State.unitSend_sound
    | with_reducible apply sound_ite

theorem ckpParity_sound (cid k : Nat) (s : State) (hs : s.sound = true) :
    (ckpParity cid k s).sound = true := by
  delta ckpParity
  repeat' first
    | with_reducible assumption
    | (lift_lets -underBinder; intro x; clear_value x)
    | (refine fun _ => ?_; intros; try dsimp -zeta only)
    | with_reducible apply State.ckpRead_sound
    | with_reducible apply State.ckpStage_sound
    | with_reducible apply State.runCkp_sound
    | with_reducible apply State.pollOn_sound
    | with_reducible apply State.withUnits_sound
    | with_reducible apply sound_ite

theorem ckpCommit_sound (cid k : Nat) (s : State) (hs : s.sound = true) :
    (ckpCommit cid k s).sound = true := by
  delta ckpCommit
  repeat' first
    | with_reducible assumption
    | (refine fun _ => ?_; intros; try dsimp -zeta only)
    | with_reducible apply State.ckpStage_sound
    | with_reducible apply State.runCkp_sound
    | with_reducible apply State.pollOn_sound
    | with_reducible apply sound_ite

theorem ckpRebuild_sound (cid k : Nat) (s : State) (hs : s.sound = true) :
    (ckpRebuild cid k s).sound = true := by
  delta ckpRebuild
  repeat' first
    | with_reducible assumption
    | (lift_lets -underBinder; intro x; clear_value x)
    | (refine fun _ => ?_; intros; try dsimp -zeta only)
    | with_reducible apply State.ckpStage_sound
    | with_reducible apply State.runCkp_sound
    | with_reducible apply State.pollOn_sound
    | with_reducible apply State.withUnits_sound
    | with_reducible apply sound_ite

theorem State.walkChunk_sound (s : State) (cid k op : Nat) (hs : s.sound = true) :
    (State.walkChunk s cid k op).sound = true := by
  delta State.walkChunk
  repeat' first
    | with_reducible assumption
    | (lift_lets -underBinder; intro x; clear_value x)
    | (refine fun _ => ?_; intros; try dsimp -zeta only)
    | with_reducible apply State.bump_sound
    | with_reducible apply State.finish_sound
    | with_reducible apply State.readFailed_sound
    | with_reducible apply State.upCkpWork_sound
    | with_reducible apply State.ckpStage_sound
    | with_reducible apply State.runCkp_sound
    | split

theorem ckpDecodeChunk_sound (cid k : Nat) (s : State) (hs : s.sound = true) :
    (ckpDecodeChunk cid k s).sound = true := by
  delta ckpDecodeChunk
  repeat' first
    | with_reducible assumption
    | with_reducible apply State.walkChunk_sound

theorem ckpVerify_sound (cid k : Nat) (s : State) (hs : s.sound = true) :
    (ckpVerify cid k s).sound = true := by
  delta ckpVerify
  repeat' first
    | with_reducible assumption
    | with_reducible apply State.walkChunk_sound

theorem State.ckpNext_sound (s : State) (cid k : Nat) (c : Cmd) (hs : s.sound = true) :
    (State.ckpNext s cid k c).sound = true := by
  delta State.ckpNext
  repeat' first
    | with_reducible assumption
    | (lift_lets -underBinder; intro x; refine have hx : x.sound = true := ?_; ?_; (unfold x); rotate_left; clear_value x; rotate_right)
    | with_reducible apply State.upCid_sound
    | with_reducible apply State.finish_sound
    | with_reducible apply sound_ite

theorem State.performAll_sound (s : State) (ws : List StagedWrite) (hs : s.sound = true) :
    (State.performAll s ws).sound = true := by
  delta State.performAll
  repeat' first
    | with_reducible assumption
    | (refine fun _ => ?_; intros; try dsimp -zeta only)
    | with_reducible apply State.performWrite_sound
    | with_reducible apply foldl_sound

theorem State.encodeCommit_sound (s : State) (cid k : Nat) (c : Cmd) (x : Chunk) (z : CkpSet) (hs : s.sound = true) :
    (State.encodeCommit s cid k c x z).sound = true := by
  delta State.encodeCommit
  repeat' first
    | with_reducible assumption
    | (lift_lets -underBinder; intro x; clear_value x)
    | (refine fun _ => ?_; intros; try dsimp -zeta only)
    | with_reducible apply State.bump_sound
    | with_reducible apply State.finish_sound
    | with_reducible apply State.setCursor_sound
    | with_reducible apply State.upCkpWork_sound
    | with_reducible apply State.ckpNext_sound
    | with_reducible apply State.performAll_sound
    | with_reducible apply sound_ite
    | with_reducible apply foldl_sound_fst

theorem State.ckpMarks_sound (s : State) (cid : Nat) (hs : s.sound = true) :
    (State.ckpMarks s cid).sound = true := by
  delta State.ckpMarks
  repeat' first
    | with_reducible assumption
    | (lift_lets -underBinder; intro x; clear_value x)
    | with_reducible apply State.finish_sound
    | with_reducible apply State.upCkpWork_sound
    | with_reducible apply sound_ite
    | split

theorem State.markCommit_sound (s : State) (cid k : Nat) (c : Cmd) (z : CkpSet) (hs : s.sound = true) :
    (State.markCommit s cid k c z).sound = true := by
  delta State.markCommit
  repeat' first
    | with_reducible assumption
    | (lift_lets -underBinder; intro x; clear_value x)
    | (refine fun _ => ?_; intros; try dsimp -zeta only)
    | with_reducible apply State.upCid_sound
    | with_reducible apply State.engSend_sound
    | with_reducible apply State.ckpNext_sound
    | with_reducible apply State.performAll_sound
    | with_reducible apply State.ckpMarks_sound
    | with_reducible apply sound_ite
    | with_reducible apply foldl_sound

theorem State.ckpCommitChunk_sound (s : State) (cid k : Nat) (c : Cmd) (x : Chunk) (hs : s.sound = true) :
    (State.ckpCommitChunk s cid k c x).sound = true := by
  delta State.ckpCommitChunk
  repeat' first
    | with_reducible assumption
    | (lift_lets -underBinder; intro x; refine have hx : x.sound = true := ?_; ?_; (unfold x); rotate_left; clear_value x; rotate_right)
    | with_reducible apply State.bump_sound
    | with_reducible apply State.finish_sound
    | with_reducible apply State.setCursor_sound
    | with_reducible apply State.upCkpWork_sound
    | with_reducible apply State.ckpNext_sound
    | with_reducible apply State.performAll_sound
    | with_reducible apply State.encodeCommit_sound
    | with_reducible apply State.markCommit_sound
    | with_reducible apply sound_ite
    | split

theorem State.ckpSetEnd_sound (s : State) (st : Nat) (hs : s.sound = true) :
    (State.ckpSetEnd s st).sound = true := by
  delta State.ckpSetEnd
  repeat' first
    | with_reducible assumption
    | with_reducible apply State.setEnd_sound

theorem State.ckpSetRead_sound (s : State) (hs : s.sound = true) :
    (State.ckpSetRead s).sound = true := by
  delta State.ckpSetRead
  repeat' first
    | with_reducible assumption
    | (lift_lets -underBinder; intro x; clear_value x)
    | (refine fun _ => ?_; intros; try dsimp -zeta only)
    | with_reducible apply State.wr_sound
    | with_reducible apply State.wrb_sound
    | with_reducible apply State.ckpSetEnd_sound
    | with_reducible apply foldl_sound

theorem State.ckpSetRegister_sound (s : State) (hs : s.sound = true) :
    (State.ckpSetRegister s).sound = true := by
  delta State.ckpSetRegister
  repeat' first
    | with_reducible assumption
    | (lift_lets -underBinder; intro x; refine have hx : x.sound = true := ?_; ?_; (unfold x); rotate_left; clear_value x; rotate_right)
    | (lift_lets -underBinder; intro x; clear_value x)
    | with_reducible apply State.wr_sound
    | with_reducible apply State.upCkp_sound
    | with_reducible apply State.performAll_sound
    | with_reducible apply State.ckpSetEnd_sound
    | with_reducible apply sound_ite
    | split

theorem State.ckpSetUnregister_sound (s : State) (hs : s.sound = true) :
    (State.ckpSetUnregister s).sound = true := by
  delta State.ckpSetUnregister
  repeat' first
    | with_reducible assumption
    | (lift_lets -underBinder; intro x; clear_value x)
    | with_reducible apply State.wr_sound
    | with_reducible apply State.upCkp_sound
    | with_reducible apply State.ckpSetEnd_sound
    | with_reducible apply sound_ite

end Sys2Proof.Machine
end

