-- ==== Sys2Proof/Laws/Sound/Fetch.lean ====
section
/-!
SUPPORT. Soundness is kept by every operation of Machine/Fetch.lean.
-/
namespace Sys2Proof.Machine

theorem State.refuseDesc_sound (s : State) (c : Cmd) (st malf : Nat) (hs : s.sound = true) :
    (State.refuseDesc s c st malf).sound = true := by
  delta State.refuseDesc
  repeat' first
    | with_reducible assumption
    | (lift_lets -underBinder; intro x; clear_value x)
    | with_reducible apply State.bump_sound
    | with_reducible apply State.writeEntry_sound
    | with_reducible apply State.noteCkpEnd_sound
    | with_reducible apply State.noteRefused_sound
    | with_reducible apply sound_ite

theorem State.askXlates_sound (s : State) (cid : Nat) (gs : List Seg) (hs : s.sound = true) :
    (State.askXlates s cid gs).sound = true := by
  delta State.askXlates
  repeat' first
    | with_reducible assumption
    | (lift_lets -underBinder; intro x; clear_value x)
    | (refine fun _ => ?_; intros; try dsimp -zeta only)
    | with_reducible apply State.upPool_sound
    | with_reducible apply foldl_sound

theorem State.acceptDesc_sound (s : State) (c : Cmd) (a : Accepted) (hs : s.sound = true) :
    (State.acceptDesc s c a).sound = true := by
  delta State.acceptDesc
  repeat' first
    | with_reducible assumption
    | (lift_lets -underBinder; intro x; clear_value x)
    | (refine fun _ => ?_; intros; try dsimp -zeta only)
    | with_reducible apply State.raiseRefs_sound
    | with_reducible apply State.addCmd_sound
    | with_reducible apply State.syncCmd_sound
    | with_reducible apply State.abortMove_sound
    | with_reducible apply State.postXlates_sound
    | with_reducible apply State.refuseDesc_sound
    | with_reducible apply State.askXlates_sound
    | with_reducible apply sound_ite
    | with_reducible apply foldl_sound
    | refine sound_of_opt (by with_reducible assumption) ?_
    | split

theorem descriptorFetch_sound (s : State) (hs : s.sound = true) :
    (descriptorFetch s).sound = true := by
  delta descriptorFetch
  repeat' first
    | with_reducible assumption
    | (lift_lets -underBinder; intro x; clear_value x)
    | with_reducible apply State.bump_sound
    | with_reducible apply State.upCmd_sound
    | with_reducible apply State.noteBad_sound
    | with_reducible apply State.upRing_sound
    | with_reducible apply State.ringError_sound
    | with_reducible apply State.refuseDesc_sound
    | with_reducible apply State.acceptDesc_sound
    | with_reducible apply sound_ite
    | split

end Sys2Proof.Machine
end

