-- ==== Sys2Proof/Laws/Sound/CmdRows.lean ====
section
/-!
SUPPORT. Soundness is kept by every operation of Machine/CmdRows.lean.
-/
namespace Sys2Proof.Machine

theorem nop_sound (cid : Nat) (s : State) (hs : s.sound = true) :
    (nop cid s).sound = true := by
  delta nop
  repeat' first
    | with_reducible assumption
    | with_reducible apply State.upCid_sound
    | with_reducible apply State.finish_sound
    | split

theorem State.contribute_sound (s : State) (cid k : Nat) (c : Cmd) (x : Chunk) (hs : s.sound = true) :
    (State.contribute s cid k c x).sound = true := by
  delta State.contribute
  repeat' first
    | with_reducible assumption
    | (lift_lets -underBinder; intro x; clear_value x)
    | (refine fun _ => ?_; intros; try dsimp -zeta only)
    | with_reducible apply State.upFab_sound
    | with_reducible apply State.upCid_sound
    | with_reducible apply State.upChunk_sound
    | with_reducible apply State.redAccept_sound
    | with_reducible apply State.finish_sound
    | with_reducible apply State.readFailed_sound
    | with_reducible apply foldl_sound
    | split
    | with_reducible refine State.sound_mk ?_ rfl rfl rfl rfl rfl rfl rfl

theorem reduce_sound (cid k : Nat) (s : State) (hs : s.sound = true) :
    (reduce cid k s).sound = true := by
  delta reduce
  repeat' first
    | with_reducible assumption
    | (lift_lets -underBinder; intro x; refine have hx : x.sound = true := ?_; ?_; (unfold x); rotate_left; clear_value x; rotate_right)
    | with_reducible apply State.upCid_sound
    | with_reducible apply State.upChunk_sound
    | with_reducible apply State.stage_sound
    | with_reducible apply State.finish_sound
    | with_reducible apply State.contribute_sound
    | with_reducible apply sound_ite
    | split

theorem State.reduceCommit_sound (s : State) (cid k : Nat) (c : Cmd) (x : Chunk) (hs : s.sound = true) :
    (State.reduceCommit s cid k c x).sound = true := by
  delta State.reduceCommit
  repeat' first
    | with_reducible assumption
    | (lift_lets -underBinder; intro x; refine have hx : x.sound = true := ?_; ?_; (unfold x); rotate_left; clear_value x; rotate_right)
    | with_reducible apply State.upCid_sound
    | with_reducible apply State.finish_sound
    | with_reducible apply State.performAll_sound
    | with_reducible apply sound_ite

theorem stagingAdmit_sound (fen : Nat) (s : State) (hs : s.sound = true) :
    (stagingAdmit fen s).sound = true := by
  delta stagingAdmit
  repeat' first
    | with_reducible assumption
    | (lift_lets -underBinder; intro x; clear_value x)
    | with_reducible apply State.upCid_sound
    | with_reducible apply State.syncCmd_sound
    | with_reducible apply State.preempt_sound
    | split

theorem chunkDispatch_sound (cluster : Nat) (s : State) (hs : s.sound = true) :
    (chunkDispatch cluster s).sound = true := by
  delta chunkDispatch
  repeat' first
    | with_reducible assumption
    | (lift_lets -underBinder; intro x; clear_value x)
    | with_reducible apply State.raise_sound
    | with_reducible apply State.upCmd_sound
    | with_reducible apply State.upCid_sound
    | with_reducible apply State.syncCmd_sound
    | with_reducible apply State.preempt_sound
    | with_reducible apply sound_ite
    | split

theorem chunkCommit_sound (cid : Nat) (s : State) (hs : s.sound = true) :
    (chunkCommit cid s).sound = true := by
  delta chunkCommit
  repeat' first
    | with_reducible assumption
    | (lift_lets -underBinder; intro x; clear_value x)
    | with_reducible apply State.syncCmd_sound
    | with_reducible apply State.preempt_sound
    | with_reducible apply State.chainCommit_sound
    | with_reducible apply State.gatherCommit_sound
    | with_reducible apply State.appendCommit_sound
    | with_reducible apply State.dataCommit_sound
    | with_reducible apply State.ckpCommitChunk_sound
    | with_reducible apply State.reduceCommit_sound
    | with_reducible apply sound_ite
    | split

theorem chunkAge_sound (cid k : Nat) (s : State) (hs : s.sound = true) :
    (chunkAge cid k s).sound = true := by
  delta chunkAge
  repeat' first
    | with_reducible assumption
    | (lift_lets -underBinder; intro x; clear_value x)
    | with_reducible apply State.bump_sound
    | with_reducible apply State.upCid_sound
    | with_reducible apply sound_ite
    | split

theorem shieldLapse_sound (cid : Nat) (s : State) (hs : s.sound = true) :
    (shieldLapse cid s).sound = true := by
  delta shieldLapse
  repeat' first
    | with_reducible assumption
    | (lift_lets -underBinder; intro x; refine have hx : x.sound = true := ?_; ?_; (unfold x); rotate_left; clear_value x; rotate_right)
    | with_reducible apply State.bump_sound
    | with_reducible apply State.upCid_sound
    | with_reducible apply State.preempt_sound
    | with_reducible apply State.requeueAll_sound
    | with_reducible apply sound_ite
    | split

theorem State.ringEnd_sound (s : State) (st : Nat) (hs : s.sound = true) :
    (State.ringEnd s st).sound = true := by
  delta State.ringEnd
  repeat' first
    | with_reducible assumption
    | with_reducible apply State.setEnd_sound

theorem State.ringRead_sound (s : State) (hs : s.sound = true) :
    (State.ringRead s).sound = true := by
  delta State.ringRead
  repeat' first
    | with_reducible assumption
    | (lift_lets -underBinder; intro x; clear_value x)
    | with_reducible apply State.wr_sound
    | with_reducible apply State.ringEnd_sound

theorem State.ringRegister_sound (s : State) (hs : s.sound = true) :
    (State.ringRegister s).sound = true := by
  delta State.ringRegister
  repeat' first
    | with_reducible assumption
    | (lift_lets -underBinder; intro x; clear_value x)
    | with_reducible apply State.zeroTier_sound
    | with_reducible apply State.mendKeys_sound
    | with_reducible apply State.upRing_sound
    | with_reducible apply State.ringEnd_sound
    | with_reducible apply sound_ite
    | split

theorem State.ringUnregister_sound (s : State) (hs : s.sound = true) :
    (State.ringUnregister s).sound = true := by
  delta State.ringUnregister
  repeat' first
    | with_reducible assumption
    | (lift_lets -underBinder; intro x; clear_value x)
    | with_reducible apply State.upRing_sound
    | with_reducible apply State.ringEnd_sound
    | with_reducible apply sound_ite

theorem State.ringReset_sound (s : State) (hs : s.sound = true) :
    (State.ringReset s).sound = true := by
  delta State.ringReset
  repeat' first
    | with_reducible assumption
    | (lift_lets -underBinder; intro x; clear_value x)
    | with_reducible apply State.upRing_sound
    | with_reducible apply State.ringEnd_sound
    | with_reducible apply sound_ite

theorem trayReadDeadline_sound (cid k item : Nat) (s : State) (hs : s.sound = true) :
    (trayReadDeadline cid k item s).sound = true := by
  delta trayReadDeadline
  repeat' first
    | with_reducible assumption
    | (lift_lets -underBinder; intro x; clear_value x)
    | with_reducible apply State.bump_sound
    | with_reducible apply State.upChunk_sound
    | with_reducible apply sound_ite
    | split

theorem trayReadTimeout_sound (t : TrayRead) (s : State) (hs : s.sound = true) :
    (trayReadTimeout t s).sound = true := by
  delta trayReadTimeout
  repeat' first
    | with_reducible assumption
    | (lift_lets -underBinder; intro x; clear_value x)
    | with_reducible apply State.upChunk_sound
    | with_reducible apply State.abortMove_sound
    | with_reducible apply State.takeHome_sound
    | with_reducible apply State.refuse_sound
    | with_reducible apply sound_ite
    | refine sound_of_optSnd (by with_reducible assumption) ?_
    | split

end Sys2Proof.Machine
end

