-- ==== Sys2Proof/Laws/Sound/Gates.lean ====
section
/-!
SUPPORT. Soundness is kept by every operation of Machine/Gates.lean.
-/
namespace Sys2Proof.Machine

theorem State.meterBytes_sound (s : State) (p : Nat) (pkt : Packet) (hs : s.sound = true) :
    (State.meterBytes s p pkt).sound = true := by
  delta State.meterBytes
  repeat' first
    | with_reducible assumption
    | (lift_lets -underBinder; intro x; clear_value x)
    | with_reducible refine State.sound_mk ?_ rfl rfl rfl rfl rfl rfl rfl

theorem State.txSwitched_sound (s : State) (p : Nat) (hs : s.sound = true) :
    (State.txSwitched s p).sound = true := by
  delta State.txSwitched
  repeat' first
    | with_reducible assumption
    | with_reducible apply State.wr_sound
    | with_reducible apply State.bump_sound
    | with_reducible apply State.upPort_sound
    | with_reducible apply sound_ite
    | split

theorem State.rxSwitched_sound (s : State) (p pkn : Nat) (hs : s.sound = true) :
    (State.rxSwitched s p pkn).sound = true := by
  delta State.rxSwitched
  repeat' first
    | with_reducible assumption
    | with_reducible apply State.bump_sound
    | with_reducible apply State.upPort_sound
    | with_reducible apply sound_ite
    | split

theorem State.transmit_sound (s : State) (p : Nat) (pkt : Packet) (hs : s.sound = true) :
    (State.transmit s p pkt).sound = true := by
  delta State.transmit
  repeat' first
    | with_reducible assumption
    | (lift_lets -underBinder; intro x; refine have hx : x.sound = true := ?_; ?_; (unfold x); rotate_left; clear_value x; rotate_right)
    | with_reducible apply State.inc64_sound
    | with_reducible apply State.emit_sound
    | with_reducible apply State.upPort_sound
    | with_reducible apply State.meterBytes_sound
    | with_reducible apply State.txSwitched_sound

theorem State.popCtl_sound (s : State) (p : Nat) (hs : s.sound = true) :
    (State.popCtl s p).sound = true := by
  delta State.popCtl
  repeat' first
    | with_reducible assumption
    | with_reducible apply State.upPort_sound

theorem State.setOtherList_sound (s : State) (p : Nat) (l : GateList) (hs : s.sound = true) :
    (State.setOtherList s p l).sound = true := by
  delta State.setOtherList
  repeat' first
    | with_reducible assumption
    | (lift_lets -underBinder; intro x; clear_value x)
    | with_reducible apply State.upSp_sound

theorem State.noteEntry_sound (s : State) (p : Nat) (hs : s.sound = true) :
    (State.noteEntry s p).sound = true := by
  delta State.noteEntry
  repeat' first
    | with_reducible assumption
    | (lift_lets -underBinder; intro x; clear_value x)
    | with_reducible apply State.wr_sound
    | with_reducible apply sound_ite

theorem State.takeOver_sound (s : State) (p : Nat) (hs : s.sound = true) :
    (State.takeOver s p).sound = true := by
  delta State.takeOver
  repeat' first
    | with_reducible assumption
    | (lift_lets -underBinder; intro x; clear_value x)
    | with_reducible apply State.wr_sound
    | with_reducible apply State.upSp_sound

theorem State.stepPort_sound (s : State) (p : Nat) (hs : s.sound = true) :
    (State.stepPort s p).sound = true := by
  delta State.stepPort
  repeat' first
    | with_reducible assumption
    | (lift_lets -underBinder; intro x; refine have hx : x.sound = true := ?_; ?_; (unfold x); rotate_left; clear_value x; rotate_right)
    | with_reducible apply State.bump_sound
    | with_reducible apply State.noteEntry_sound
    | with_reducible apply State.takeOver_sound
    | with_reducible apply sound_ite

theorem State.timeStep_sound (s : State) (d : Int) (hs : s.sound = true) :
    (State.timeStep s d).sound = true := by
  delta State.timeStep
  repeat' first
    | with_reducible assumption
    | (lift_lets -underBinder; intro x; clear_value x)
    | (refine fun _ => ?_; intros; try dsimp -zeta only)
    | with_reducible apply State.bump_sound
    | with_reducible apply State.upPool_sound
    | with_reducible apply State.event_sound
    | with_reducible apply State.stepPort_sound
    | with_reducible apply foldl_sound
    | with_reducible refine State.sound_mk ?_ rfl rfl rfl rfl rfl rfl rfl

theorem State.servoSample_sound (s : State) (theta : Int) (hs : s.sound = true) :
    (State.servoSample s theta).sound = true := by
  delta State.servoSample
  repeat' first
    | with_reducible assumption
    | (lift_lets -underBinder; intro x; clear_value x)
    | with_reducible apply State.wr_sound
    | with_reducible apply State.bump_sound
    | with_reducible apply State.free_sound
    | with_reducible apply State.upShp_sound
    | with_reducible apply State.timeStep_sound
    | with_reducible apply sound_ite
    | split

theorem State.sourceChanged_sound (s : State) (hs : s.sound = true) :
    (State.sourceChanged s).sound = true := by
  delta State.sourceChanged
  repeat' first
    | with_reducible assumption
    | (lift_lets -underBinder; intro x; clear_value x)
    | with_reducible apply State.wr_sound
    | with_reducible apply State.upShp_sound
    | with_reducible apply sound_ite

theorem State.raiseTimeFault_sound (s : State) (p cause : Nat) (theta : Int) (hs : s.sound = true) :
    (State.raiseTimeFault s p cause theta).sound = true := by
  delta State.raiseTimeFault
  repeat' first
    | with_reducible assumption
    | with_reducible apply State.wr_sound
    | with_reducible apply State.event_sound

theorem State.clearTimeFault_sound (s : State) (p : Nat) (hs : s.sound = true) :
    (State.clearTimeFault s p).sound = true := by
  delta State.clearTimeFault
  repeat' first
    | with_reducible assumption
    | with_reducible apply State.wr_sound
    | with_reducible apply State.upSp_sound
    | with_reducible apply sound_ite

theorem State.retrain_sound (s : State) (p : Nat) (hs : s.sound = true) :
    (State.retrain s p).sound = true := by
  delta State.retrain
  repeat' first
    | with_reducible assumption
    | with_reducible apply State.wr_sound
    | with_reducible apply State.charge_sound

theorem State.police_sound (s : State) (r : PoliceRec) (p : Nat) (pkt : Packet) (hs : s.sound = true) :
    (State.police s r p pkt).2.sound = true := by
  delta State.police
  repeat' first
    | with_reducible assumption
    | (lift_lets -underBinder; intro x; clear_value x)
    | with_reducible apply State.upShp_sound
    | with_reducible apply sound_ite_snd

theorem State.shaperCharge_sound (s : State) (p q : Nat) (pkt : Packet) (hs : s.sound = true) :
    (State.shaperCharge s p q pkt).sound = true := by
  delta State.shaperCharge
  repeat' first
    | with_reducible assumption
    | (lift_lets -underBinder; intro x; clear_value x)
    | with_reducible apply State.upShp_sound
    | with_reducible apply sound_ite

end Sys2Proof.Machine
end

