-- ==== Sys2Proof/Laws/Sound/Crossbar.lean ====
section
/-!
SUPPORT. Soundness is kept by every operation of Machine/Crossbar.lean.
-/
namespace Sys2Proof.Machine

theorem State.matchStep_sound (elig : List Pair) (first : Bool) (sc : State × List Pair) (hs : sc.1.sound = true) :
    (State.matchStep elig first sc).1.sound = true := by
  delta State.matchStep
  repeat' first
    | with_reducible assumption
    | (lift_lets -underBinder; intro x; refine have hx : x.sound = true := ?_; ?_; (unfold x); rotate_left; clear_value x; rotate_right)
    | (refine fun _ => ?_; intros; try dsimp -zeta only)
    | with_reducible apply State.upXbr_sound
    | with_reducible apply sound_ite
    | with_reducible apply sound_ite_fst
    | with_reducible apply foldl_sound_fst

theorem State.arrive_sound (s : State) (o : Nat) (h : QPkt) (hs : s.sound = true) :
    (State.arrive s o h).sound = true := by
  delta State.arrive
  repeat' first
    | with_reducible assumption
    | (lift_lets -underBinder; intro x; clear_value x)
    | with_reducible apply State.upFab_sound
    | with_reducible apply State.upPort_sound
    | with_reducible apply State.ingressFree_sound
    | with_reducible apply sound_ite

theorem State.noteWait_sound (s : State) (r : Pair) (h : QPkt) (hs : s.sound = true) :
    (State.noteWait s r h).sound = true := by
  delta State.noteWait
  repeat' first
    | with_reducible assumption
    | with_reducible apply State.raise_sound
    | with_reducible apply sound_ite

theorem State.moveCell_sound (s : State) (r : Pair) (hs : s.sound = true) :
    (State.moveCell s r).1.sound = true := by
  delta State.moveCell
  repeat' first
    | with_reducible assumption
    | (lift_lets -underBinder; intro x; refine have hx : x.sound = true := ?_; ?_; (unfold x); rotate_left; clear_value x; rotate_right)
    | (lift_lets -underBinder; intro x; clear_value x)
    | (refine fun _ => ?_; intros; try dsimp -zeta only)
    | with_reducible apply State.upXbr_sound
    | with_reducible apply State.noteDepth_sound
    | with_reducible apply State.arrive_sound
    | with_reducible apply State.noteWait_sound
    | with_reducible apply sound_ite
    | with_reducible apply sound_ite_fst
    | with_reducible apply foldl_sound
    | split

theorem State.spend_sound (s : State) (c dir : Nat) (hs : s.sound = true) :
    (State.spend s c dir).sound = true := by
  delta State.spend
  repeat' first
    | with_reducible assumption
    | with_reducible apply State.upXbr_sound
    | split

theorem State.moveRound_sound (rs : List Pair) (sm : State × Moved) (hs : sm.1.sound = true) :
    (State.moveRound rs sm).1.sound = true := by
  delta State.moveRound
  repeat' first
    | with_reducible assumption
    | (refine fun _ => ?_; intros; try dsimp -zeta only)
    | with_reducible apply State.moveCell_sound
    | with_reducible apply State.spend_sound
    | with_reducible apply sound_ite_fst
    | with_reducible apply foldl_sound_fst

theorem State.refillBudgets_sound (s : State) (hs : s.sound = true) :
    (State.refillBudgets s).sound = true := by
  delta State.refillBudgets
  repeat' first
    | with_reducible assumption
    | with_reducible apply State.upXbr_sound

theorem markHeads_sound (s : State) (elig : List Pair) (hs : s.sound = true) :
    (markHeads s elig).sound = true := by
  delta markHeads
  repeat' first
    | with_reducible assumption
    | with_reducible apply State.upXbr_sound

theorem State.noteRecent_sound (s : State) (m : Moved) (hs : s.sound = true) :
    (State.noteRecent s m).sound = true := by
  delta State.noteRecent
  repeat' first
    | with_reducible assumption
    | with_reducible apply State.upXbr_sound

theorem schedulerMatch_sound (s : State) (hs : s.sound = true) :
    (schedulerMatch s).sound = true := by
  delta schedulerMatch
  repeat' first
    | with_reducible assumption
    | (lift_lets -underBinder; intro x; refine have hx : x.sound = true := ?_; ?_; (unfold x); rotate_left; clear_value x; rotate_right)
    | (refine fun _ => ?_; intros; try dsimp -zeta only)
    | with_reducible apply State.inc64_sound
    | with_reducible apply State.matchStep_sound
    | with_reducible apply State.moveRound_sound
    | with_reducible apply State.refillBudgets_sound
    | with_reducible apply markHeads_sound
    | with_reducible apply State.noteRecent_sound
    | with_reducible apply foldl_sound

theorem State.ceMark_sound (s : State) (p d : Nat) (k : Packet) (hs : s.sound = true) :
    (State.ceMark s p d k).2.sound = true := by
  delta State.ceMark
  repeat' first
    | with_reducible assumption
    | (lift_lets -underBinder; intro x; clear_value x)
    | with_reducible apply State.free_sound
    | with_reducible apply sound_ite_snd

theorem egressEnqueue_sound (p : Nat) (s : State) (hs : s.sound = true) :
    (egressEnqueue p s).sound = true := by
  delta egressEnqueue
  repeat' first
    | with_reducible assumption
    | (lift_lets -underBinder; intro x; clear_value x)
    | with_reducible apply State.bump_sound
    | with_reducible apply State.upXbr_sound
    | with_reducible apply State.upPort_sound
    | with_reducible apply State.noteDepth_sound
    | with_reducible apply State.ceMark_sound
    | with_reducible apply sound_ite
    | split

theorem State.popQueue_sound (s : State) (p q : Nat) (hs : s.sound = true) :
    (State.popQueue s p q).sound = true := by
  delta State.popQueue
  repeat' first
    | with_reducible assumption
    | with_reducible apply State.upXbr_sound
    | with_reducible apply State.upSp_sound
    | with_reducible apply State.noteDepth_sound

theorem State.dropNever_sound (p q fuel : Nat) (s : State) (hs : s.sound = true) : (State.dropNever p q fuel s).sound = true := by
  induction fuel generalizing s with
  | zero => exact hs
  | succ fuel ih =>
    unfold State.dropNever
    repeat' first
      | with_reducible assumption
      | with_reducible apply ih
      | with_reducible apply State.drop_sound
      | with_reducible apply State.popQueue_sound
      | with_reducible apply sound_ite
      | split

theorem State.noteHeld_sound (s : State) (p : Nat) (hs : s.sound = true) :
    (State.noteHeld s p).sound = true := by
  delta State.noteHeld
  repeat' first
    | with_reducible assumption
    | (refine fun _ => ?_; intros; try dsimp -zeta only)
    | with_reducible apply State.bump_sound
    | with_reducible apply State.upSp_sound
    | with_reducible apply sound_ite
    | with_reducible apply foldl_sound
    | split

theorem portSelect_sound (p : Nat) (dirty : Bool) (s : State) (hs : s.sound = true) :
    (portSelect p dirty s).sound = true := by
  delta portSelect
  repeat' first
    | with_reducible assumption
    | (lift_lets -underBinder; intro x; refine have hx : x.sound = true := ?_; ?_; (unfold x); rotate_left; clear_value x; rotate_right)
    | (refine fun _ => ?_; intros; try dsimp -zeta only)
    | with_reducible apply State.bump_sound
    | with_reducible apply State.upSp_sound
    | with_reducible apply State.transmit_sound
    | with_reducible apply State.shaperCharge_sound
    | with_reducible apply State.popQueue_sound
    | with_reducible apply State.dropNever_sound
    | with_reducible apply State.noteHeld_sound
    | with_reducible apply sound_ite
    | with_reducible apply foldl_sound
    | split

theorem packetHoldExpire_sound (s : State) (hs : s.sound = true) :
    (packetHoldExpire s).sound = true := by
  delta packetHoldExpire
  repeat' first
    | with_reducible assumption
    | (lift_lets -underBinder; intro x; clear_value x)
    | (refine fun _ => ?_; intros; try dsimp -zeta only)
    | with_reducible apply State.upXbr_sound
    | with_reducible apply State.drop_sound
    | with_reducible apply State.noteDepth_sound
    | with_reducible apply State.ingressFree_sound
    | with_reducible apply foldl_sound

end Sys2Proof.Machine
end

