-- ==== Sys2Proof/Laws/Sound/Time.lean ====
section
/-!
SUPPORT. Soundness is kept by every operation of Machine/Time.lean.
-/
namespace Sys2Proof.Machine

theorem gateEntryBoundary_sound (p : Nat) (s : State) (hs : s.sound = true) :
    (gateEntryBoundary p s).sound = true := by
  delta gateEntryBoundary
  repeat' first
    | with_reducible assumption
    | (lift_lets -underBinder; intro x; clear_value x)
    | with_reducible apply State.wr_sound
    | with_reducible apply State.upSp_sound
    | with_reducible apply sound_ite

theorem gateTakeover_sound (p : Nat) (s : State) (hs : s.sound = true) :
    (gateTakeover p s).sound = true := by
  delta gateTakeover
  repeat' first
    | with_reducible assumption
    | with_reducible apply State.takeOver_sound
    | with_reducible apply sound_ite

theorem State.sendCtl_sound (s : State) (p : Nat) (k : Packet) (hs : s.sound = true) :
    (State.sendCtl s p k).sound = true := by
  delta State.sendCtl
  repeat' first
    | with_reducible assumption
    | with_reducible apply State.transmit_sound

theorem timeReqSend_sound (p : Nat) (s : State) (hs : s.sound = true) :
    (timeReqSend p s).sound = true := by
  delta timeReqSend
  repeat' first
    | with_reducible assumption
    | (lift_lets -underBinder; intro x; clear_value x)
    | with_reducible apply State.upSp_sound
    | with_reducible apply State.sendCtl_sound
    | with_reducible apply sound_ite

theorem timeReq_sound (p : Nat) (s : State) (hs : s.sound = true) :
    (timeReq p s).sound = true := by
  delta timeReq
  repeat' first
    | with_reducible assumption
    | (lift_lets -underBinder; intro x; refine have hx : x.sound = true := ?_; ?_; (unfold x); rotate_left; clear_value x; rotate_right)
    | with_reducible apply State.popCtl_sound
    | with_reducible apply State.sendCtl_sound
    | with_reducible apply sound_ite
    | split

theorem State.judgeProbe_sound (s : State) (p : Nat) (theta : Int) (hs : s.sound = true) :
    (State.judgeProbe s p theta).sound = true := by
  delta State.judgeProbe
  repeat' first
    | with_reducible assumption
    | (lift_lets -underBinder; intro x; clear_value x)
    | with_reducible apply State.raiseTimeFault_sound
    | with_reducible apply State.clearTimeFault_sound
    | with_reducible apply sound_ite

theorem timeRsp_sound (p : Nat) (s : State) (hs : s.sound = true) :
    (timeRsp p s).sound = true := by
  delta timeRsp
  repeat' first
    | with_reducible assumption
    | (lift_lets -underBinder; intro x; refine have hf : ∀ y : State, y.sound = true → (x y).sound = true := ?_; ?_; (unfold x); rotate_left; clear_value x; rotate_right)
    | with_reducible apply hf
    | (lift_lets -underBinder; intro x; refine have hx : x.sound = true := ?_; ?_; (unfold x); rotate_left; clear_value x; rotate_right)
    | (refine fun _ => ?_; intros; try dsimp -zeta only)
    | with_reducible apply State.wr_sound
    | with_reducible apply State.bump_sound
    | with_reducible apply State.upSp_sound
    | with_reducible apply State.popCtl_sound
    | with_reducible apply State.servoSample_sound
    | with_reducible apply State.judgeProbe_sound
    | with_reducible apply sound_ite
    | split

theorem timeRspTimeout_sound (p : Nat) (s : State) (hs : s.sound = true) :
    (timeRspTimeout p s).sound = true := by
  delta timeRspTimeout
  repeat' first
    | with_reducible assumption
    | (lift_lets -underBinder; intro x; refine have hx : x.sound = true := ?_; ?_; (unfold x); rotate_left; clear_value x; rotate_right)
    | with_reducible apply State.bump_sound
    | with_reducible apply State.upSp_sound
    | with_reducible apply sound_ite
    | split

theorem servoHoldover_sound (s : State) (hs : s.sound = true) :
    (servoHoldover s).sound = true := by
  delta servoHoldover
  repeat' first
    | with_reducible assumption
    | (lift_lets -underBinder; intro x; clear_value x)
    | with_reducible apply State.wr_sound
    | with_reducible apply sound_ite

theorem State.hostSampleOp_sound (s : State) (v : Nat) (hs : s.sound = true) :
    (State.hostSampleOp s v).sound = true := by
  delta State.hostSampleOp
  repeat' first
    | with_reducible assumption
    | with_reducible apply State.servoSample_sound
    | with_reducible apply sound_ite

theorem hostSample_sound (a : Access) (v : Nat) (s : State) (hs : s.sound = true) :
    (hostSample a v s).sound = true := by
  delta hostSample
  repeat' first
    | with_reducible assumption
    | (refine fun _ => ?_; intros; try dsimp -zeta only)
    | with_reducible apply State.window_sound
    | with_reducible apply State.hostSampleOp_sound

theorem State.taborSetOp_sound (s : State) (hi : Nat) (hs : s.sound = true) :
    (State.taborSetOp s hi).sound = true := by
  delta State.taborSetOp
  repeat' first
    | with_reducible assumption
    | (lift_lets -underBinder; intro x; refine have hx : x.sound = true := ?_; ?_; (unfold x); rotate_left; clear_value x; rotate_right)
    | with_reducible apply State.wr_sound
    | with_reducible apply State.timeStep_sound

theorem taborSet_sound (a : Access) (hi : Nat) (s : State) (hs : s.sound = true) :
    (taborSet a hi s).sound = true := by
  delta taborSet
  repeat' first
    | with_reducible assumption
    | (refine fun _ => ?_; intros; try dsimp -zeta only)
    | with_reducible apply State.window_sound
    | with_reducible apply State.taborSetOp_sound

theorem taborRealign_sound (s : State) (hs : s.sound = true) :
    (taborRealign s).sound = true := by
  delta taborRealign
  repeat' first
    | with_reducible assumption
    | with_reducible apply State.upShp_sound

theorem State.ptmOp_sound (s : State) (hs : s.sound = true) :
    (State.ptmOp s).sound = true := by
  delta State.ptmOp
  repeat' first
    | with_reducible assumption
    | (lift_lets -underBinder; intro x; refine have hx : x.sound = true := ?_; ?_; (unfold x); rotate_left; clear_value x; rotate_right)
    | with_reducible apply State.wr_sound
    | with_reducible apply State.wr64_sound
    | with_reducible apply State.emit_sound
    | with_reducible apply State.upShp_sound
    | with_reducible apply sound_ite

theorem ptmDialogue_sound (a : Access) (s : State) (hs : s.sound = true) :
    (ptmDialogue a s).sound = true := by
  delta ptmDialogue
  repeat' first
    | with_reducible assumption
    | with_reducible apply State.window_sound
    | with_reducible apply State.ptmOp_sound

theorem ptmResponse_sound (masterTime delay : Nat) (s : State) (hs : s.sound = true) :
    (ptmResponse masterTime delay s).sound = true := by
  delta ptmResponse
  repeat' first
    | with_reducible assumption
    | (lift_lets -underBinder; intro x; refine have hx : x.sound = true := ?_; ?_; (unfold x); rotate_left; clear_value x; rotate_right)
    | with_reducible apply State.wr_sound
    | with_reducible apply State.wr64_sound
    | with_reducible apply State.upShp_sound
    | with_reducible apply sound_ite

theorem ptmTimeout_sound (s : State) (hs : s.sound = true) :
    (ptmTimeout s).sound = true := by
  delta ptmTimeout
  repeat' first
    | with_reducible assumption
    | with_reducible apply State.wr_sound
    | with_reducible apply State.upShp_sound
    | with_reducible apply sound_ite
    | split

theorem ppsOut_sound (s : State) (hs : s.sound = true) :
    (ppsOut s).sound = true := by
  delta ppsOut
  repeat' first
    | with_reducible assumption
    | (lift_lets -underBinder; intro x; clear_value x)
    | with_reducible apply State.drive_sound
    | with_reducible apply State.upShp_sound
    | with_reducible apply sound_ite

theorem ppsIn_sound (s : State) (hs : s.sound = true) :
    (ppsIn s).sound = true := by
  delta ppsIn
  repeat' first
    | with_reducible assumption
    | (lift_lets -underBinder; intro x; clear_value x)
    | with_reducible apply State.bump_sound
    | with_reducible apply State.wr64_sound
    | with_reducible apply State.upShp_sound
    | with_reducible apply sound_ite

theorem State.propose_sound (s : State) (p : Nat) (e : Sleep) (hs : s.sound = true) :
    (State.propose s p e).sound = true := by
  delta State.propose
  repeat' first
    | with_reducible assumption
    | with_reducible apply State.upSp_sound
    | with_reducible apply State.sendCtl_sound
    | with_reducible apply sound_ite

theorem State.sleepRequestOp_sound (s : State) (p : Nat) (hs : s.sound = true) :
    (State.sleepRequestOp s p).sound = true := by
  delta State.sleepRequestOp
  repeat' first
    | with_reducible assumption
    | with_reducible apply State.propose_sound

theorem sleepRequest_sound (a : Access) (p : Nat) (s : State) (hs : s.sound = true) :
    (sleepRequest a p s).sound = true := by
  delta sleepRequest
  repeat' first
    | with_reducible assumption
    | (refine fun _ => ?_; intros; try dsimp -zeta only)
    | with_reducible apply State.window_sound
    | with_reducible apply State.sleepRequestOp_sound
    | with_reducible apply sound_ite

theorem sleepPropose_sound (p : Nat) (partnerAuto : Bool) (s : State) (hs : s.sound = true) :
    (sleepPropose p partnerAuto s).sound = true := by
  delta sleepPropose
  repeat' first
    | with_reducible assumption
    | (lift_lets -underBinder; intro x; clear_value x)
    | with_reducible apply State.upSp_sound
    | with_reducible apply State.propose_sound
    | with_reducible apply sound_ite
    | split

theorem State.answerSleep_sound (s : State) (p : Nat) (k : Packet) (hs : s.sound = true) :
    (State.answerSleep s p k).sound = true := by
  delta State.answerSleep
  repeat' first
    | with_reducible assumption
    | (lift_lets -underBinder; intro x; clear_value x)
    | with_reducible apply State.bump_sound
    | with_reducible apply State.upSp_sound
    | with_reducible apply State.sendCtl_sound
    | with_reducible apply sound_ite

theorem sleepMsg_sound (p : Nat) (s : State) (hs : s.sound = true) :
    (sleepMsg p s).sound = true := by
  delta sleepMsg
  repeat' first
    | with_reducible assumption
    | (lift_lets -underBinder; intro x; refine have hx : x.sound = true := ?_; ?_; (unfold x); rotate_left; clear_value x; rotate_right)
    | with_reducible apply State.upSp_sound
    | with_reducible apply State.popCtl_sound
    | with_reducible apply State.answerSleep_sound
    | with_reducible apply sound_ite
    | split

theorem sleepAck_sound (p : Nat) (s : State) (hs : s.sound = true) :
    (sleepAck p s).sound = true := by
  delta sleepAck
  repeat' first
    | with_reducible assumption
    | (lift_lets -underBinder; intro x; refine have hx : x.sound = true := ?_; ?_; (unfold x); rotate_left; clear_value x; rotate_right)
    | with_reducible apply State.upSp_sound
    | with_reducible apply State.popCtl_sound
    | with_reducible apply sound_ite
    | split

theorem sleepNak_sound (p : Nat) (s : State) (hs : s.sound = true) :
    (sleepNak p s).sound = true := by
  delta sleepNak
  repeat' first
    | with_reducible assumption
    | (lift_lets -underBinder; intro x; refine have hx : x.sound = true := ?_; ?_; (unfold x); rotate_left; clear_value x; rotate_right)
    | with_reducible apply State.bump_sound
    | with_reducible apply State.upSp_sound
    | with_reducible apply State.popCtl_sound
    | with_reducible apply sound_ite
    | split

theorem sleepEnter_sound (p : Nat) (signalLost : Bool) (s : State) (hs : s.sound = true) :
    (sleepEnter p signalLost s).sound = true := by
  delta sleepEnter
  repeat' first
    | with_reducible assumption
    | with_reducible apply State.wr_sound
    | with_reducible apply State.bump_sound
    | with_reducible apply State.upSp_sound
    | with_reducible apply sound_ite
    | split

theorem wakeStart_sound (p : Nat) (s : State) (hs : s.sound = true) :
    (wakeStart p s).sound = true := by
  delta wakeStart
  repeat' first
    | with_reducible assumption
    | (lift_lets -underBinder; intro x; clear_value x)
    | with_reducible apply State.wr_sound
    | with_reducible apply sound_ite
    | split

theorem State.sendBeat_sound (s : State) (p : Nat) (hs : s.sound = true) :
    (State.sendBeat s p).sound = true := by
  delta State.sendBeat
  repeat' first
    | with_reducible assumption
    | with_reducible apply State.upPort_sound
    | with_reducible apply State.sendCtl_sound

theorem wake_sound (p : Nat) (s : State) (hs : s.sound = true) :
    (wake p s).sound = true := by
  delta wake
  repeat' first
    | with_reducible assumption
    | (lift_lets -underBinder; intro x; refine have hx : x.sound = true := ?_; ?_; (unfold x); rotate_left; clear_value x; rotate_right)
    | with_reducible apply State.wr_sound
    | with_reducible apply State.upPort_sound
    | with_reducible apply State.upSp_sound
    | with_reducible apply State.sendBeat_sound
    | with_reducible apply sound_ite
    | split

theorem missedWake_sound (p : Nat) (s : State) (hs : s.sound = true) :
    (missedWake p s).sound = true := by
  delta missedWake
  repeat' first
    | with_reducible assumption
    | (lift_lets -underBinder; intro x; clear_value x)
    | with_reducible apply State.bump_sound
    | with_reducible apply State.upSp_sound
    | with_reducible apply State.charge_sound
    | with_reducible apply State.raiseTimeFault_sound
    | with_reducible apply State.retrain_sound
    | with_reducible apply sound_ite
    | split

theorem State.timeFaultClearOp_sound (s : State) (p : Nat) (hs : s.sound = true) :
    (State.timeFaultClearOp s p).sound = true := by
  delta State.timeFaultClearOp
  repeat' first
    | with_reducible assumption
    | with_reducible apply State.clearTimeFault_sound
    | with_reducible apply sound_ite

theorem timeFaultClear_sound (a : Access) (p : Nat) (s : State) (hs : s.sound = true) :
    (timeFaultClear a p s).sound = true := by
  delta timeFaultClear
  repeat' first
    | with_reducible assumption
    | (refine fun _ => ?_; intros; try dsimp -zeta only)
    | with_reducible apply State.window_sound
    | with_reducible apply State.timeFaultClearOp_sound
    | with_reducible apply sound_ite

theorem State.polReadOp_sound (s : State) (hs : s.sound = true) :
    (State.polReadOp s).sound = true := by
  delta State.polReadOp
  repeat' first
    | with_reducible assumption
    | (lift_lets -underBinder; intro x; clear_value x)
    | with_reducible apply State.wr_sound
    | split
    | with_reducible refine State.sound_mk ?_ rfl rfl rfl rfl rfl rfl rfl

theorem shpPolRead_sound (a : Access) (s : State) (hs : s.sound = true) :
    (shpPolRead a s).sound = true := by
  delta shpPolRead
  repeat' first
    | with_reducible assumption
    | with_reducible apply State.window_sound
    | with_reducible apply State.polReadOp_sound

end Sys2Proof.Machine
end

