-- ==== Sys2Proof/Laws/Sound/Links.lean ====
section
/-!
SUPPORT. Soundness is kept by every operation of Machine/Links.lean.
-/
namespace Sys2Proof.Machine

theorem State.engDone_sound (s : State) (e : EngReq) (st : Nat) (d : Bytes) (hs : s.sound = true) :
    (State.engDone s e st d).sound = true := by
  delta State.engDone
  repeat' first
    | with_reducible assumption
    | with_reducible apply State.peerAnswer_sound
    | with_reducible apply State.ckpMarks_sound

theorem engineResponse_sound (s : State) (hs : s.sound = true) :
    (engineResponse s).sound = true := by
  delta engineResponse
  repeat' first
    | with_reducible assumption
    | (lift_lets -underBinder; intro x; refine have hx : x.sound = true := ?_; ?_; (unfold x); rotate_left; clear_value x; rotate_right)
    | with_reducible apply State.upFab_sound
    | with_reducible apply State.drop_sound
    | with_reducible apply State.ccSeen_sound
    | with_reducible apply State.engDone_sound
    | split
    | with_reducible refine State.sound_mk ?_ rfl rfl rfl rfl rfl rfl rfl

theorem engineTimeout_sound (seq : Nat) (s : State) (hs : s.sound = true) :
    (engineTimeout seq s).sound = true := by
  delta engineTimeout
  repeat' first
    | with_reducible assumption
    | with_reducible apply State.engResend_sound
    | with_reducible apply State.engDone_sound
    | with_reducible apply sound_ite
    | split

theorem fenceTrackTimeout_sound (clid src seq : Nat) (s : State) (hs : s.sound = true) :
    (fenceTrackTimeout clid src seq s).sound = true := by
  delta fenceTrackTimeout
  repeat' first
    | with_reducible assumption
    | (lift_lets -underBinder; intro x; clear_value x)
    | (refine fun _ => ?_; intros; try dsimp -zeta only)
    | with_reducible apply State.bump_sound
    | with_reducible apply State.upFab_sound
    | with_reducible apply State.ingressFree_sound
    | with_reducible apply State.send_sound
    | with_reducible apply State.sweepFences_sound
    | with_reducible apply sound_ite
    | with_reducible apply foldl_sound
    | split

theorem State.failEngines_sound (s : State) (hs : s.sound = true) :
    (State.failEngines s).sound = true := by
  delta State.failEngines
  repeat' first
    | with_reducible assumption
    | (refine fun _ => ?_; intros; try dsimp -zeta only)
    | with_reducible apply State.engDone_sound
    | with_reducible apply foldl_sound

theorem State.neighbourDead_sound (s : State) (p cause : Nat) (hs : s.sound = true) :
    (State.neighbourDead s p cause).sound = true := by
  delta State.neighbourDead
  repeat' first
    | with_reducible assumption
    | with_reducible apply State.declareDead_sound
    | with_reducible apply State.redDead_sound
    | with_reducible apply State.failEngines_sound

theorem beatSend_sound (p : Nat) (s : State) (hs : s.sound = true) :
    (beatSend p s).sound = true := by
  delta beatSend
  repeat' first
    | with_reducible assumption
    | with_reducible apply State.sendBeat_sound
    | with_reducible apply sound_ite

theorem beatMiss_sound (p : Nat) (s : State) (hs : s.sound = true) :
    (beatMiss p s).sound = true := by
  delta beatMiss
  repeat' first
    | with_reducible assumption
    | (lift_lets -underBinder; intro x; refine have hx : x.sound = true := ?_; ?_; (unfold x); rotate_left; clear_value x; rotate_right)
    | with_reducible apply State.bump_sound
    | with_reducible apply State.neighbourDead_sound
    | with_reducible apply sound_ite

theorem State.portDown_sound (s : State) (p : Nat) (hs : s.sound = true) :
    (State.portDown s p).sound = true := by
  delta State.portDown
  repeat' first
    | with_reducible assumption
    | (lift_lets -underBinder; intro x; refine have hx : x.sound = true := ?_; ?_; (unfold x); rotate_left; clear_value x; rotate_right)
    | with_reducible apply State.wr_sound
    | with_reducible apply State.upPort_sound
    | with_reducible apply State.upSp_sound
    | with_reducible apply State.neighbourDead_sound

theorem linkDown_sound (p : Nat) (cause : DownCause) (s : State) (hs : s.sound = true) :
    (linkDown p cause s).sound = true := by
  delta linkDown
  repeat' first
    | with_reducible assumption
    | (lift_lets -underBinder; intro x; clear_value x)
    | with_reducible apply State.upPort_sound
    | with_reducible apply State.event_sound
    | with_reducible apply State.portDown_sound
    | with_reducible apply sound_ite

theorem State.deadClearOp_sound (s : State) (i v : Nat) (hs : s.sound = true) :
    (State.deadClearOp s i v).sound = true := by
  delta State.deadClearOp
  repeat' first
    | with_reducible assumption
    | (lift_lets -underBinder; intro x; clear_value x)
    | (refine fun _ => ?_; intros; try dsimp -zeta only)
    | with_reducible apply State.wr_sound
    | with_reducible apply sound_ite
    | with_reducible apply foldl_sound

theorem fabDeadClear_sound (a : Access) (i v : Nat) (s : State) (hs : s.sound = true) :
    (fabDeadClear a i v s).sound = true := by
  delta fabDeadClear
  repeat' first
    | with_reducible assumption
    | (refine fun _ => ?_; intros; try dsimp -zeta only)
    | with_reducible apply State.window_sound
    | with_reducible apply State.deadClearOp_sound
    | with_reducible apply sound_ite

theorem linkRetrain_sound (p lanes : Nat) (s : State) (hs : s.sound = true) :
    (linkRetrain p lanes s).sound = true := by
  delta linkRetrain
  repeat' first
    | with_reducible assumption
    | (lift_lets -underBinder; intro x; refine have hx : x.sound = true := ?_; ?_; (unfold x); rotate_left; clear_value x; rotate_right)
    | (refine fun _ => ?_; intros; try dsimp -zeta only)
    | with_reducible apply State.event_sound
    | with_reducible apply State.charge_sound
    | with_reducible apply State.retrain_sound
    | with_reducible apply sound_ite
    | with_reducible apply foldl_sound

theorem linkTrained_sound (p partnerMode : Nat) (s : State) (hs : s.sound = true) :
    (linkTrained p partnerMode s).sound = true := by
  delta linkTrained
  repeat' first
    | with_reducible assumption
    | with_reducible apply State.wr_sound
    | with_reducible apply State.event_sound
    | with_reducible apply sound_ite

theorem linkBeat_sound (p : Nat) (s : State) (hs : s.sound = true) :
    (linkBeat p s).sound = true := by
  delta linkBeat
  repeat' first
    | with_reducible assumption
    | with_reducible apply State.wr_sound
    | with_reducible apply State.upPort_sound
    | with_reducible apply State.popCtl_sound
    | split

theorem State.sendSpdm_sound (s : State) (p : Nat) (m : Bytes) (hs : s.sound = true) :
    (State.sendSpdm s p m).sound = true := by
  delta State.sendSpdm
  repeat' first
    | with_reducible assumption
    | with_reducible apply State.sendCtl_sound

theorem linkSpdm_sound (p : Nat) (s : State) (hs : s.sound = true) :
    (linkSpdm p s).sound = true := by
  delta linkSpdm
  repeat' first
    | with_reducible assumption
    | (lift_lets -underBinder; intro x; clear_value x)
    | with_reducible apply State.upPort_sound
    | with_reducible apply State.popCtl_sound
    | with_reducible apply State.sendSpdm_sound
    | with_reducible apply sound_ite
    | split

theorem keyUpdateStart_sound (p first : Nat) (s : State) (hs : s.sound = true) :
    (keyUpdateStart p first s).sound = true := by
  delta keyUpdateStart
  repeat' first
    | with_reducible assumption
    | (lift_lets -underBinder; intro x; refine have hx : x.sound = true := ?_; ?_; (unfold x); rotate_left; clear_value x; rotate_right)
    | with_reducible apply State.upPort_sound
    | with_reducible apply State.sendCtl_sound
    | with_reducible apply State.sendSpdm_sound
    | with_reducible apply sound_ite

theorem keySwitch_sound (p : Nat) (s : State) (hs : s.sound = true) :
    (keySwitch p s).sound = true := by
  delta keySwitch
  repeat' first
    | with_reducible assumption
    | (lift_lets -underBinder; intro x; refine have hx : x.sound = true := ?_; ?_; (unfold x); rotate_left; clear_value x; rotate_right)
    | with_reducible apply State.upPort_sound
    | with_reducible apply State.popCtl_sound
    | with_reducible apply State.sendCtl_sound
    | split

theorem keyAck_sound (p : Nat) (s : State) (hs : s.sound = true) :
    (keyAck p s).sound = true := by
  delta keyAck
  repeat' first
    | with_reducible assumption
    | (lift_lets -underBinder; intro x; refine have hx : x.sound = true := ?_; ?_; (unfold x); rotate_left; clear_value x; rotate_right)
    | with_reducible apply State.upPort_sound
    | with_reducible apply State.txSwitched_sound
    | with_reducible apply State.popCtl_sound
    | with_reducible apply sound_ite
    | split

theorem State.trayDown_sound (s : State) (t cause : Nat) (hs : s.sound = true) :
    (State.trayDown s t cause).sound = true := by
  delta State.trayDown
  repeat' first
    | with_reducible assumption
    | (lift_lets -underBinder; intro x; refine have hx : x.sound = true := ?_; ?_; (unfold x); rotate_left; clear_value x; rotate_right)
    | (refine fun _ => ?_; intros; try dsimp -zeta only)
    | with_reducible apply State.upPool_sound
    | with_reducible apply State.event_sound
    | with_reducible apply State.abortMove_sound
    | with_reducible apply foldl_sound

theorem trayLinkDown_sound (p : Nat) (s : State) (hs : s.sound = true) :
    (trayLinkDown p s).sound = true := by
  delta trayLinkDown
  repeat' first
    | with_reducible assumption
    | (lift_lets -underBinder; intro x; clear_value x)
    | with_reducible apply State.trayDown_sound
    | with_reducible apply sound_ite

end Sys2Proof.Machine
end

