-- ==== Sys2Proof/Laws/Sound/Rte.lean ====
section
/-!
SUPPORT. Soundness is kept by every operation of Machine/Rte.lean.
-/
namespace Sys2Proof.Machine

theorem State.rteEnd_sound (s : State) (st : Nat) (hs : s.sound = true) :
    (State.rteEnd s st).sound = true := by
  delta State.rteEnd
  repeat' first
    | with_reducible assumption
    | with_reducible apply State.setEnd_sound

theorem State.rteRead_sound (s : State) (hs : s.sound = true) :
    (State.rteRead s).sound = true := by
  delta State.rteRead
  repeat' first
    | with_reducible assumption
    | (lift_lets -underBinder; intro x; clear_value x)
    | (refine fun _ => ?_; intros; try dsimp -zeta only)
    | with_reducible apply State.wr_sound
    | with_reducible apply State.rteEnd_sound
    | with_reducible apply sound_ite
    | with_reducible apply foldl_sound

theorem State.rteWrite_sound (s : State) (hs : s.sound = true) :
    (State.rteWrite s).sound = true := by
  delta State.rteWrite
  repeat' first
    | with_reducible assumption
    | (lift_lets -underBinder; intro x; clear_value x)
    | with_reducible apply State.upFlt_sound
    | with_reducible apply State.setShadow_sound
    | with_reducible apply State.rteEnd_sound
    | with_reducible apply sound_ite

theorem State.rteCopy_sound (s : State) (hs : s.sound = true) :
    (State.rteCopy s).sound = true := by
  delta State.rteCopy
  repeat' first
    | with_reducible assumption
    | with_reducible apply State.setShadow_sound
    | with_reducible apply State.rteEnd_sound
    | with_reducible apply sound_ite

theorem State.acceptSwap_sound (s : State) (atNs : Option Nat) (hs : s.sound = true) :
    (State.acceptSwap s atNs).sound = true := by
  delta State.acceptSwap
  repeat' first
    | with_reducible assumption
    | (lift_lets -underBinder; intro x; refine have hx : x.sound = true := ?_; ?_; (unfold x); rotate_left; clear_value x; rotate_right)
    | with_reducible apply State.wr_sound
    | with_reducible apply State.upXbr_sound
    | with_reducible apply State.setShadow_sound
    | with_reducible apply State.rteEnd_sound

theorem State.rteSwap_sound (s : State) (hs : s.sound = true) :
    (State.rteSwap s).sound = true := by
  delta State.rteSwap
  repeat' first
    | with_reducible assumption
    | with_reducible apply State.rteEnd_sound
    | with_reducible apply State.acceptSwap_sound
    | with_reducible apply sound_ite

theorem State.rteSwapAt_sound (s : State) (hs : s.sound = true) : (State.rteSwapAt s).sound = true := by
  simp only [State.rteSwapAt]
  exact sound_ite (State.rteEnd_sound _ _ hs) (sound_ite (State.rteEnd_sound _ _ hs) (State.acceptSwap_sound _ _ hs))

theorem State.rteCancel_sound (s : State) (hs : s.sound = true) :
    (State.rteCancel s).sound = true := by
  delta State.rteCancel
  repeat' first
    | with_reducible assumption
    | with_reducible apply State.wr_sound
    | with_reducible apply State.upXbr_sound
    | with_reducible apply State.rteEnd_sound

theorem swapActivate_sound (s : State) (hs : s.sound = true) :
    (swapActivate s).sound = true := by
  delta swapActivate
  repeat' first
    | with_reducible assumption
    | (lift_lets -underBinder; intro x; refine have hx : x.sound = true := ?_; ?_; (unfold x); rotate_left; clear_value x; rotate_right)
    | (refine fun _ => ?_; intros; try dsimp -zeta only)
    | with_reducible apply State.wr_sound
    | with_reducible apply State.bump_sound
    | with_reducible apply State.upXbr_sound
    | with_reducible apply State.markHomeDead_sound
    | with_reducible apply State.redDead_sound
    | with_reducible apply State.failEngines_sound
    | with_reducible apply sound_ite
    | with_reducible apply foldl_sound
    | split

theorem State.capEnd_sound (s : State) (st : Nat) (hs : s.sound = true) :
    (State.capEnd s st).sound = true := by
  delta State.capEnd
  repeat' first
    | with_reducible assumption
    | with_reducible apply State.wrb_sound
    | with_reducible apply State.setEnd_sound

theorem State.capCreate_sound (s : State) (hs : s.sound = true) :
    (State.capCreate s).sound = true := by
  delta State.capCreate
  repeat' first
    | with_reducible assumption
    | (lift_lets -underBinder; intro x; refine have hx : x.sound = true := ?_; ?_; (unfold x); rotate_left; clear_value x; rotate_right)
    | (lift_lets -underBinder; intro x; clear_value x)
    | with_reducible apply State.wr_sound
    | with_reducible apply State.upXbr_sound
    | with_reducible apply State.allocate_sound
    | with_reducible apply State.capEnd_sound
    | with_reducible apply sound_ite

theorem State.capCtlOp_sound (s : State) (enable mode : Bool) (log2 : Nat) (hs : s.sound = true) :
    (State.capCtlOp s enable mode log2).sound = true := by
  delta State.capCtlOp
  repeat' first
    | with_reducible assumption
    | (lift_lets -underBinder; intro x; refine have hx : x.sound = true := ?_; ?_; (unfold x); rotate_left; clear_value x; rotate_right)
    | with_reducible apply State.wr_sound
    | with_reducible apply State.wrb_sound
    | with_reducible apply State.capCreate_sound
    | with_reducible apply sound_ite

theorem State.rteOp_sound (s : State) (code : Nat) (hs : s.sound = true) :
    (State.rteOp s code).sound = true := by
  delta State.rteOp
  repeat' first
    | with_reducible assumption
    | (lift_lets -underBinder; intro x; refine have hx : x.sound = true := ?_; ?_; (unfold x); rotate_left; clear_value x; rotate_right)
    | with_reducible apply State.wr_sound
    | with_reducible apply State.rteEnd_sound
    | with_reducible apply State.rteRead_sound
    | with_reducible apply State.rteWrite_sound
    | with_reducible apply State.rteCopy_sound
    | with_reducible apply State.rteSwap_sound
    | with_reducible apply State.rteSwapAt_sound
    | with_reducible apply State.rteCancel_sound
    | split

theorem State.rteOpRebuild_sound (s : State) (rebuild : Bool) (code : Nat) (hs : s.sound = true) :
    (State.rteOpRebuild s rebuild code).sound = true := by
  delta State.rteOpRebuild
  repeat' first
    | with_reducible assumption
    | with_reducible apply State.wrb_sound
    | with_reducible apply State.rteOp_sound

end Sys2Proof.Machine
end

