-- ==== Sys2Proof/Laws/Sound/Faults.lean ====
section
/-!
SUPPORT. Soundness is kept by every operation of Machine/Faults.lean.
-/
namespace Sys2Proof.Machine

theorem State.latchDies_sound (s : State) (cause agent : Nat) (again : Bool) (hs : s.sound = true) :
    (State.latchDies s cause agent again).sound = true := by
  delta State.latchDies
  repeat' first
    | with_reducible assumption
    | (lift_lets -underBinder; intro x; refine have hx : x.sound = true := ?_; ?_; (unfold x); rotate_left; clear_value x; rotate_right)
    | (lift_lets -underBinder; intro x; clear_value x)
    | (refine fun _ => ?_; intros; try dsimp -zeta only)
    | with_reducible apply State.wr_sound
    | with_reducible apply sound_ite
    | with_reducible apply foldl_sound

theorem State.goFatal_sound (s : State) (cause detail : Nat) (coh : Nat × Nat) (hs : s.sound = true) :
    (State.goFatal s cause detail coh).sound = true := by
  delta State.goFatal
  repeat' first
    | with_reducible assumption
    | (lift_lets -underBinder; intro x; clear_value x)
    | with_reducible apply State.wr_sound
    | with_reducible apply State.upFlt_sound
    | with_reducible apply State.event_sound
    | with_reducible apply State.redEndAll_sound
    | with_reducible apply State.latchDies_sound
    | with_reducible apply sound_ite

theorem hubLogicMismatch_sound (die : Nat) (s : State) (hs : s.sound = true) :
    (hubLogicMismatch die s).sound = true := by
  delta hubLogicMismatch
  repeat' first
    | with_reducible assumption
    | with_reducible apply State.goFatal_sound
    | with_reducible apply sound_ite

theorem canaryCheck_sound (stack : Nat) (ok : Bool) (s : State) (hs : s.sound = true) :
    (canaryCheck stack ok s).sound = true := by
  delta canaryCheck
  repeat' first
    | with_reducible assumption
    | with_reducible apply State.goFatal_sound
    | with_reducible apply sound_ite

theorem sramRefresh_sound (r : CheckResult) (s : State) (hs : s.sound = true) :
    (sramRefresh r s).sound = true := by
  delta sramRefresh
  repeat' first
    | with_reducible assumption
    | with_reducible apply State.bump_sound
    | with_reducible apply State.goFatal_sound
    | split

theorem stackPatrol_sound (a : Nat) (r : CheckResult) (s : State) (hs : s.sound = true) :
    (stackPatrol a r s).sound = true := by
  delta stackPatrol
  repeat' first
    | with_reducible assumption
    | (lift_lets -underBinder; intro x; refine have hx : x.sound = true := ?_; ?_; (unfold x); rotate_left; clear_value x; rotate_right)
    | (lift_lets -underBinder; intro x; clear_value x)
    | with_reducible apply State.bump_sound
    | with_reducible apply State.upFlt_sound
    | with_reducible apply State.charge_sound
    | with_reducible apply State.memUe_sound
    | with_reducible apply sound_ite
    | split

theorem State.chunkFault_sound (s : State) (cl cause : Nat) (hs : s.sound = true) :
    (State.chunkFault s cl cause).sound = true := by
  delta State.chunkFault
  repeat' first
    | with_reducible assumption
    | (lift_lets -underBinder; intro x; clear_value x)
    | (refine fun _ => ?_; intros; try dsimp -zeta only)
    | with_reducible apply State.upFlt_sound
    | with_reducible apply State.event_sound
    | with_reducible apply State.finish_sound
    | with_reducible apply State.checkFailed_sound
    | with_reducible apply State.gatherEnd_sound
    | with_reducible apply State.answerRecord_sound
    | with_reducible apply sound_ite
    | split

theorem clusterFaultRow_sound (cl cause : Nat) (s : State) (hs : s.sound = true) :
    (clusterFaultRow cl cause s).sound = true := by
  delta clusterFaultRow
  repeat' first
    | with_reducible assumption
    | (lift_lets -underBinder; intro x; refine have hx : x.sound = true := ?_; ?_; (unfold x); rotate_left; clear_value x; rotate_right)
    | with_reducible apply State.bump_sound
    | with_reducible apply State.chunkFault_sound
    | with_reducible apply sound_ite

theorem chunkWatchdog_sound (cl : Nat) (s : State) (hs : s.sound = true) :
    (chunkWatchdog cl s).sound = true := by
  delta chunkWatchdog
  repeat' first
    | with_reducible assumption
    | with_reducible apply State.bump_sound
    | with_reducible apply State.chunkFault_sound
    | with_reducible apply sound_ite
    | split

theorem clusterTestDone_sound (ph : Nat) (passed : Bool) (s : State) (hs : s.sound = true) :
    (clusterTestDone ph passed s).sound = true := by
  delta clusterTestDone
  repeat' first
    | with_reducible assumption
    | with_reducible apply State.transient_sound
    | with_reducible apply State.lasting_sound
    | with_reducible apply sound_ite
    | split

theorem spareBistDone_sound (die : Nat) (passed : Bool) (s : State) (hs : s.sound = true) :
    (spareBistDone die passed s).sound = true := by
  delta spareBistDone
  repeat' first
    | with_reducible assumption
    | (lift_lets -underBinder; intro x; refine have hx : x.sound = true := ?_; ?_; (unfold x); rotate_left; clear_value x; rotate_right)
    | with_reducible apply State.upFlt_sound
    | with_reducible apply State.mapOut_sound
    | with_reducible apply State.clusterLost_sound
    | with_reducible apply State.spared_sound
    | with_reducible apply sound_ite
    | split

theorem State.mapAfresh_sound (s : State) (ph : Nat) (hs : s.sound = true) :
    (State.mapAfresh s ph).sound = true := by
  delta State.mapAfresh
  repeat' first
    | with_reducible assumption
    | (lift_lets -underBinder; intro x; clear_value x)
    | with_reducible apply State.mapOut_sound
    | with_reducible apply State.clusterLost_sound
    | with_reducible apply State.spared_sound
    | with_reducible apply sound_ite

theorem State.mapClearOp_sound (s : State) (failing : List Nat) (hs : s.sound = true) :
    (State.mapClearOp s failing).sound = true := by
  delta State.mapClearOp
  repeat' first
    | with_reducible assumption
    | (lift_lets -underBinder; intro x; refine have hx : x.sound = true := ?_; ?_; (unfold x); rotate_left; clear_value x; rotate_right)
    | (refine fun _ => ?_; intros; try dsimp -zeta only)
    | with_reducible apply State.wr_sound
    | with_reducible apply State.upFlt_sound
    | with_reducible apply State.regFault_sound
    | with_reducible apply State.mapAfresh_sound
    | with_reducible apply sound_ite
    | with_reducible apply foldl_sound

theorem mapClear_sound (a : Access) (failing : List Nat) (s : State) (hs : s.sound = true) :
    (mapClear a failing s).sound = true := by
  delta mapClear
  repeat' first
    | with_reducible assumption
    | (refine fun _ => ?_; intros; try dsimp -zeta only)
    | with_reducible apply State.window_sound
    | with_reducible apply State.mapClearOp_sound

theorem State.tableUe_sound (s : State) (table entry unit : Nat) (hs : s.sound = true) :
    (State.tableUe s table entry unit).sound = true := by
  delta State.tableUe
  repeat' first
    | with_reducible assumption
    | with_reducible apply State.bump_sound
    | with_reducible apply State.event_sound
    | with_reducible apply State.charge_sound

theorem State.badTableEntry_sound (s : State) (bank table entry : Nat) (hs : s.sound = true) :
    (State.badTableEntry s bank table entry).sound = true := by
  delta State.badTableEntry
  repeat' first
    | with_reducible assumption
    | (lift_lets -underBinder; intro x; clear_value x)
    | with_reducible apply State.upFlt_sound
    | with_reducible apply sound_ite

theorem sentinelCheck_sound (site : SramSite) (r : CheckResult) (s : State) (hs : s.sound = true) :
    (sentinelCheck site r s).sound = true := by
  delta sentinelCheck
  repeat' first
    | with_reducible assumption
    | (lift_lets -underBinder; intro x; refine have hx : x.sound = true := ?_; ?_; (unfold x); rotate_left; clear_value x; rotate_right)
    | (lift_lets -underBinder; intro x; clear_value x)
    | with_reducible apply State.bump_sound
    | with_reducible apply State.event_sound
    | with_reducible apply State.charge_sound
    | with_reducible apply State.redEnd_sound
    | with_reducible apply clusterFaultRow_sound
    | with_reducible apply State.tableUe_sound
    | with_reducible apply State.badTableEntry_sound
    | with_reducible apply sound_ite
    | split

theorem scoreTick_sound (s : State) (hs : s.sound = true) :
    (scoreTick s).sound = true := by
  delta scoreTick
  repeat' first
    | with_reducible assumption
    | (lift_lets -underBinder; intro x; clear_value x)
    | (refine fun _ => ?_; intros; try dsimp -zeta only)
    | with_reducible apply State.upFlt_sound
    | with_reducible apply State.setScore_sound
    | with_reducible apply sound_ite
    | with_reducible apply foldl_sound

theorem scorePersist_sound (s : State) (hs : s.sound = true) :
    (scorePersist s).sound = true := by
  delta scorePersist
  repeat' first
    | with_reducible assumption
    | with_reducible apply State.upFlt_sound

theorem State.scoreEnd_sound (s : State) (st : Nat) (hs : s.sound = true) :
    (State.scoreEnd s st).sound = true := by
  delta State.scoreEnd
  repeat' first
    | with_reducible assumption
    | with_reducible apply State.setEnd_sound

theorem State.scoreRead_sound (s : State) (hs : s.sound = true) :
    (State.scoreRead s).sound = true := by
  delta State.scoreRead
  repeat' first
    | with_reducible assumption
    | (lift_lets -underBinder; intro x; clear_value x)
    | with_reducible apply State.wr_sound
    | with_reducible apply State.wrb_sound
    | with_reducible apply State.scoreEnd_sound
    | with_reducible apply sound_ite

theorem State.scoreClear_sound (s : State) (hs : s.sound = true) :
    (State.scoreClear s).sound = true := by
  delta State.scoreClear
  repeat' first
    | with_reducible assumption
    | (lift_lets -underBinder; intro x; clear_value x)
    | with_reducible apply State.event_sound
    | with_reducible apply State.setScore_sound
    | with_reducible apply State.scoreEnd_sound
    | with_reducible apply sound_ite

theorem State.scoreOp_sound (s : State) (code : Nat) (hs : s.sound = true) :
    (State.scoreOp s code).sound = true := by
  delta State.scoreOp
  repeat' first
    | with_reducible assumption
    | (lift_lets -underBinder; intro x; refine have hx : x.sound = true := ?_; ?_; (unfold x); rotate_left; clear_value x; rotate_right)
    | with_reducible apply State.wr_sound
    | with_reducible apply State.scoreEnd_sound
    | with_reducible apply State.scoreRead_sound
    | with_reducible apply State.scoreClear_sound
    | split

theorem coalesceFlush_sound (s : State) (hs : s.sound = true) :
    (coalesceFlush s).sound = true := by
  delta coalesceFlush
  repeat' first
    | with_reducible assumption
    | (lift_lets -underBinder; intro x; clear_value x)
    | (refine fun _ => ?_; intros; try dsimp -zeta only)
    | with_reducible apply State.upFlt_sound
    | with_reducible apply State.deliver_sound
    | with_reducible apply sound_ite
    | with_reducible apply foldl_sound

theorem eqModeration_sound (s : State) (hs : s.sound = true) :
    (eqModeration s).sound = true := by
  delta eqModeration
  repeat' first
    | with_reducible assumption
    | with_reducible apply State.emit_sound
    | with_reducible apply State.upFlt_sound
    | with_reducible apply sound_ite
    | split

end Sys2Proof.Machine
end

