-- ==== Sys2Proof/Laws/Sound/Coherence.lean ====
section
/-!
SUPPORT. Soundness is kept by every operation of Machine/Coherence.lean.
-/
namespace Sys2Proof.Machine

theorem State.setCopy_sound (s : State) (line pos st : Nat) (hs : s.sound = true) :
    (State.setCopy s line pos st).sound = true := by
  delta State.setCopy
  repeat' first
    | with_reducible assumption
    | with_reducible apply State.upCoh_sound

theorem State.putTxn_sound (s : State) (line pos : Nat) (t : CohTxn) (hs : s.sound = true) :
    (State.putTxn s line pos t).sound = true := by
  delta State.putTxn
  repeat' first
    | with_reducible assumption
    | with_reducible apply State.upCoh_sound

theorem State.serve_sound (s : State) (line pos : Nat) (t : CohTxn) (hs : s.sound = true) :
    (State.serve s line pos t).sound = true := by
  delta State.serve
  repeat' first
    | with_reducible assumption
    | (lift_lets -underBinder; intro x; clear_value x)
    | (refine fun _ => ?_; intros; try dsimp -zeta only)
    | with_reducible apply State.upCoh_sound
    | with_reducible apply State.setCopy_sound
    | with_reducible apply State.putTxn_sound
    | with_reducible apply foldl_sound

theorem State.retryTxn_sound (s : State) (line pos : Nat) (t : CohTxn) (hs : s.sound = true) :
    (State.retryTxn s line pos t).sound = true := by
  delta State.retryTxn
  repeat' first
    | with_reducible assumption
    | (lift_lets -underBinder; intro x; clear_value x)
    | with_reducible apply State.bump_sound
    | with_reducible apply State.upCoh_sound
    | with_reducible apply State.putTxn_sound

theorem State.arriveTxn_sound (s : State) (line pos : Nat) (t : CohTxn) (hs : s.sound = true) :
    (State.arriveTxn s line pos t).sound = true := by
  delta State.arriveTxn
  repeat' first
    | with_reducible assumption
    | (lift_lets -underBinder; intro x; clear_value x)
    | with_reducible apply State.serve_sound
    | with_reducible apply State.retryTxn_sound
    | with_reducible apply sound_ite

theorem State.issue_sound (s : State) (line pos : Nat) (r : CohReq) (mask : Nat) (d : Bytes) (hs : s.sound = true) :
    (State.issue s line pos r mask d).sound = true := by
  delta State.issue
  repeat' first
    | with_reducible assumption
    | with_reducible apply State.arriveTxn_sound

theorem rdS_sound (pos line : Nat) (s : State) (hs : s.sound = true) :
    (rdS pos line s).sound = true := by
  delta rdS
  repeat' first
    | with_reducible assumption
    | with_reducible apply State.issue_sound
    | with_reducible apply sound_ite

theorem rdX_sound (pos line : Nat) (s : State) (hs : s.sound = true) :
    (rdX pos line s).sound = true := by
  delta rdX
  repeat' first
    | with_reducible assumption
    | with_reducible apply State.issue_sound
    | with_reducible apply sound_ite

theorem upg_sound (pos line : Nat) (s : State) (hs : s.sound = true) :
    (upg pos line s).sound = true := by
  delta upg
  repeat' first
    | with_reducible assumption
    | with_reducible apply State.issue_sound
    | with_reducible apply sound_ite

theorem rdNa_sound (pos line : Nat) (s : State) (hs : s.sound = true) :
    (rdNa pos line s).sound = true := by
  delta rdNa
  repeat' first
    | with_reducible assumption
    | with_reducible apply State.issue_sound
    | with_reducible apply sound_ite

theorem wrNa_sound (pos line mask : Nat) (d : Bytes) (s : State) (hs : s.sound = true) :
    (wrNa pos line mask d s).sound = true := by
  delta wrNa
  repeat' first
    | with_reducible assumption
    | with_reducible apply State.issue_sound
    | with_reducible apply sound_ite

theorem State.homeWrite_sound (s : State) (line : Nat) (d : Bytes) (hs : s.sound = true) :
    (State.homeWrite s line d).sound = true := by
  delta State.homeWrite
  repeat' first
    | with_reducible assumption
    | with_reducible apply State.upCoh_sound

theorem wb_sound (pos line : Nat) (d : Bytes) (s : State) (hs : s.sound = true) :
    (wb pos line d s).sound = true := by
  delta wb
  repeat' first
    | with_reducible assumption
    | with_reducible apply State.bump_sound
    | with_reducible apply State.setCopy_sound
    | with_reducible apply State.putTxn_sound
    | with_reducible apply State.homeWrite_sound
    | with_reducible apply sound_ite
    | split

theorem State.txnDone_sound (s : State) (line pos : Nat) (t : CohTxn) (hs : s.sound = true) :
    (State.txnDone s line pos t).sound = true := by
  delta State.txnDone
  repeat' first
    | with_reducible assumption
    | (lift_lets -underBinder; intro x; refine have hx : x.sound = true := ?_; ?_; (unfold x); rotate_left; clear_value x; rotate_right)
    | with_reducible apply State.bump_sound
    | with_reducible apply State.raise_sound
    | with_reducible apply State.upCoh_sound
    | with_reducible apply sound_ite

theorem State.settle_sound (s : State) (line pos : Nat) (t : CohTxn) (hs : s.sound = true) :
    (State.settle s line pos t).sound = true := by
  delta State.settle
  repeat' first
    | with_reducible assumption
    | (lift_lets -underBinder; intro x; refine have hx : x.sound = true := ?_; ?_; (unfold x); rotate_left; clear_value x; rotate_right)
    | with_reducible apply State.upCoh_sound
    | with_reducible apply State.setCopy_sound
    | with_reducible apply State.putTxn_sound
    | with_reducible apply State.txnDone_sound
    | split

theorem State.ringCorrected_sound (s : State) (link n : Nat) (hs : s.sound = true) :
    (State.ringCorrected s link n).sound = true := by
  delta State.ringCorrected
  repeat' first
    | with_reducible assumption
    | with_reducible apply State.bump_sound
    | with_reducible apply State.charge_sound
    | with_reducible apply sound_ite

theorem snoopResponse_sound (pos line link corrected : Nat) (s : State) (hs : s.sound = true) :
    (snoopResponse pos line link corrected s).sound = true := by
  delta snoopResponse
  repeat' first
    | with_reducible assumption
    | (lift_lets -underBinder; intro x; refine have hx : x.sound = true := ?_; ?_; (unfold x); rotate_left; clear_value x; rotate_right)
    | with_reducible apply State.settle_sound
    | with_reducible apply State.ringCorrected_sound
    | with_reducible apply sound_ite
    | split

theorem cohData_sound (pos line : Nat) (s : State) (hs : s.sound = true) :
    (cohData pos line s).sound = true := by
  delta cohData
  repeat' first
    | with_reducible assumption
    | with_reducible apply State.settle_sound
    | with_reducible apply sound_ite
    | split

theorem cohDone_sound (pos line : Nat) (s : State) (hs : s.sound = true) :
    (cohDone pos line s).sound = true := by
  delta cohDone
  repeat' first
    | with_reducible assumption
    | with_reducible apply State.homeWrite_sound
    | with_reducible apply State.settle_sound
    | with_reducible apply sound_ite
    | split

theorem cohReissue_sound (pos line : Nat) (s : State) (hs : s.sound = true) :
    (cohReissue pos line s).sound = true := by
  delta cohReissue
  repeat' first
    | with_reducible assumption
    | (lift_lets -underBinder; intro x; clear_value x)
    | with_reducible apply State.arriveTxn_sound
    | with_reducible apply sound_ite
    | split

theorem ringFlitUe_sound (pos : Nat) (s : State) (hs : s.sound = true) :
    (ringFlitUe pos s).sound = true := by
  delta ringFlitUe
  repeat' first
    | with_reducible assumption
    | with_reducible apply State.goFatal_sound
    | with_reducible apply sound_ite

theorem agentHeartbeatMiss_sound (pos : Nat) (s : State) (hs : s.sound = true) :
    (agentHeartbeatMiss pos s).sound = true := by
  delta agentHeartbeatMiss
  repeat' first
    | with_reducible assumption
    | with_reducible apply State.wr_sound
    | with_reducible apply State.goFatal_sound
    | with_reducible apply sound_ite

theorem cohTxnTimeout_sound (pos line : Nat) (s : State) (hs : s.sound = true) :
    (cohTxnTimeout pos line s).sound = true := by
  delta cohTxnTimeout
  repeat' first
    | with_reducible assumption
    | with_reducible apply State.goFatal_sound
    | with_reducible apply sound_ite
    | split

theorem ringLaneRepair_sound (link : Nat) (s : State) (hs : s.sound = true) :
    (ringLaneRepair link s).sound = true := by
  delta ringLaneRepair
  repeat' first
    | with_reducible assumption
    | with_reducible apply State.charge_sound
    | with_reducible apply sound_ite

theorem d2dLaneRepair_sound (link : Nat) (s : State) (hs : s.sound = true) :
    (d2dLaneRepair link s).sound = true := by
  delta d2dLaneRepair
  repeat' first
    | with_reducible assumption
    | with_reducible apply State.wr_sound
    | with_reducible apply State.charge_sound
    | with_reducible apply sound_ite

theorem d2dLinkFail_sound (link : Nat) (s : State) (hs : s.sound = true) :
    (d2dLinkFail link s).sound = true := by
  delta d2dLinkFail
  repeat' first
    | with_reducible assumption
    | (lift_lets -underBinder; intro x; refine have hx : x.sound = true := ?_; ?_; (unfold x); rotate_left; clear_value x; rotate_right)
    | with_reducible apply State.wr_sound
    | with_reducible apply State.goFatal_sound
    | with_reducible apply sound_ite

theorem biteCharge_sound (resource inst die owner port : Nat) (s : State) (hs : s.sound = true) :
    (biteCharge resource inst die owner port s).sound = true := by
  delta biteCharge
  repeat' first
    | with_reducible assumption
    | with_reducible apply State.charge_sound
    | with_reducible apply sound_ite
    | split

theorem State.biteVictim_sound (s : State) (v : BiteVictim) (hs : s.sound = true) :
    (State.biteVictim s v).sound = true := by
  delta State.biteVictim
  repeat' first
    | with_reducible assumption
    | (lift_lets -underBinder; intro x; clear_value x)
    | with_reducible apply State.upFab_sound
    | with_reducible apply State.upFlt_sound
    | with_reducible apply State.ingressFree_sound
    | with_reducible apply State.setEnd_sound
    | with_reducible apply State.softKill_sound
    | split

theorem arbBite_sound (resource inst die owner port : Nat) (v : BiteVictim) (s : State) (hs : s.sound = true) :
    (arbBite resource inst die owner port v s).sound = true := by
  delta arbBite
  repeat' first
    | with_reducible assumption
    | (lift_lets -underBinder; intro x; refine have hx : x.sound = true := ?_; ?_; (unfold x); rotate_left; clear_value x; rotate_right)
    | with_reducible apply State.wr_sound
    | with_reducible apply State.bump_sound
    | with_reducible apply State.event_sound
    | with_reducible apply biteCharge_sound
    | with_reducible apply State.biteVictim_sound
    | with_reducible apply sound_ite

theorem State.cohLineOp_sound (s : State) (hs : s.sound = true) :
    (State.cohLineOp s).sound = true := by
  delta State.cohLineOp
  repeat' first
    | with_reducible assumption
    | (lift_lets -underBinder; intro x; clear_value x)
    | with_reducible apply State.wr_sound

end Sys2Proof.Machine
end

