-- ==== Sys2Proof/Laws/Sound/RegOps.lean ====
section
/-!
SUPPORT. Soundness is kept by every operation of Machine/RegOps.lean.
-/
namespace Sys2Proof.Machine

theorem State.keepFields_sound (s : State) (keep : Fld → Bool) (hs : s.sound = true) : (State.keepFields s keep).sound = true := by
  rw [State.sound_iff] at hs ⊢
  exact ⟨hs.1, ⟨Tab.wf_filter _ _ hs.2.1.1, hs.2.1.2⟩, hs.2.2⟩

end Sys2Proof.Machine
end

