-- ==== Sys2Proof/Laws/Sound/Reset.lean ====
section
/-!
SUPPORT. Soundness is kept by every operation of Machine/Reset.lean.
-/
namespace Sys2Proof.Machine

theorem State.clearFabric_sound (s : State) (hs : s.sound = true) :
    (State.clearFabric s).sound = true := by
  delta State.clearFabric
  repeat' first
    | with_reducible assumption
    | (lift_lets -underBinder; intro x; refine have hx : x.sound = true := ?_; ?_; (unfold x); rotate_left; clear_value x; rotate_right)
    | with_reducible apply State.upFab_sound
    | with_reducible apply State.upXbr_sound

theorem State.clearWork_sound (s : State) (hs : s.sound = true) : (State.clearWork s).sound = true := by
  rw [State.sound_iff] at hs ⊢
  exact ⟨hs.1, ⟨hs.2.1.1, rfl, hs.2.1.2.2⟩, hs.2.2⟩

theorem State.clearFlight_sound (s : State) (hs : s.sound = true) :
    (State.clearFlight s).sound = true := by
  delta State.clearFlight
  repeat' first
    | with_reducible assumption
    | (lift_lets -underBinder; intro x; refine have hx : x.sound = true := ?_; ?_; (unfold x); rotate_left; clear_value x; rotate_right)
    | with_reducible apply State.upPool_sound
    | with_reducible apply State.upShp_sound
    | with_reducible apply State.upFlt_sound

theorem State.clearSessions_sound (s : State) (hs : s.sound = true) :
    (State.clearSessions s).sound = true := by
  delta State.clearSessions
  repeat' first
    | with_reducible assumption
    | (lift_lets -underBinder; intro x; refine have hx : x.sound = true := ?_; ?_; (unfold x); rotate_left; clear_value x; rotate_right)
    | with_reducible apply State.wr_sound
    | with_reducible apply State.upSec_sound

theorem State.clearLoads_sound (s : State) (hs : s.sound = true) :
    (State.clearLoads s).sound = true := by
  delta State.clearLoads
  repeat' first
    | with_reducible assumption
    | with_reducible apply State.upImg_sound

theorem State.newMemoryKeys_sound (s : State) (hs : s.sound = true) : (State.newMemoryKeys s).sound = true := by
  rw [State.sound_iff] at hs ⊢
  exact ⟨⟨rfl, rfl, hs.1.2.2⟩, hs.2⟩

theorem State.clearPool_sound (s : State) (hs : s.sound = true) :
    (State.clearPool s).sound = true := by
  delta State.clearPool
  repeat' first
    | with_reducible assumption
    | with_reducible apply State.upPool_sound

theorem State.clearCustom_sound (s : State) (hs : s.sound = true) :
    (State.clearCustom s).sound = true := by
  delta State.clearCustom
  repeat' first
    | with_reducible assumption
    | (lift_lets -underBinder; intro x; refine have hx : x.sound = true := ?_; ?_; (unfold x); rotate_left; clear_value x; rotate_right)
    | with_reducible apply State.upXbr_sound
    | with_reducible apply State.clearFabric_sound
    | with_reducible apply State.clearWork_sound
    | with_reducible apply State.clearFlight_sound
    | with_reducible apply State.clearLoads_sound
    | with_reducible apply State.clearPool_sound
    | with_reducible refine State.sound_mk ?_ rfl rfl rfl rfl rfl rfl rfl

theorem State.powerOnClear_sound (s : State) (cold : Bool) (hs : s.sound = true) : (State.powerOnClear s cold).sound = true := by
  have h := State.keepFields_sound s (keepPowerOn cold) hs
  rw [State.sound_iff] at h ⊢
  exact ⟨⟨rfl, rfl, h.1.2.2⟩, ⟨h.2.1.1, rfl, h.2.1.2.2⟩, h.2.2⟩

end Sys2Proof.Machine
end

