-- ==== Sys2Proof/Laws/Sound/Sessions.lean ====
section
/-!
SUPPORT. Soundness is kept by every operation of Machine/Sessions.lean.
-/
namespace Sys2Proof.Machine

theorem State.nextMessage_sound (s : State) (hs : s.sound = true) :
    (State.nextMessage s).2.sound = true := by
  delta State.nextMessage
  repeat' first
    | with_reducible assumption
    | with_reducible apply State.upSec_sound

theorem State.spdmSend_sound (s : State) (code : Nat) (body : Bytes) (hs : s.sound = true) :
    (State.spdmSend s code body).sound = true := by
  delta State.spdmSend
  repeat' first
    | with_reducible assumption
    | with_reducible apply State.emit_sound

theorem State.spdmError_sound (s : State) (code : Nat) (hs : s.sound = true) :
    (State.spdmError s code).sound = true := by
  delta State.spdmError
  repeat' first
    | with_reducible assumption
    | with_reducible apply State.spdmSend_sound

theorem State.spdm_sound (s : State) (level : Nat) (act : State → State) (hs : s.sound = true) (h_act : ∀ (x0 : State), x0.sound = true → (act x0).sound = true) :
    (State.spdm s level act).sound = true := by
  delta State.spdm
  repeat' first
    | with_reducible assumption
    | with_reducible apply h_act
    | with_reducible apply State.spdmError_sound
    | with_reducible apply sound_ite
    | split

theorem State.spdmStandard_sound (s : State) (code : Nat) (req : Bytes) (hs : s.sound = true) :
    (State.spdmStandard s code req).sound = true := by
  delta State.spdmStandard
  repeat' first
    | with_reducible assumption
    | with_reducible apply State.nextMessage_sound
    | with_reducible apply State.spdmSend_sound

theorem getVersion_sound (req : Bytes) (s : State) (hs : s.sound = true) :
    (getVersion req s).sound = true := by
  delta getVersion
  repeat' first
    | with_reducible assumption
    | (refine fun _ => ?_; intros; try dsimp -zeta only)
    | with_reducible apply State.spdm_sound
    | with_reducible apply State.spdmStandard_sound

theorem getCapabilities_sound (req : Bytes) (s : State) (hs : s.sound = true) :
    (getCapabilities req s).sound = true := by
  delta getCapabilities
  repeat' first
    | with_reducible assumption
    | (refine fun _ => ?_; intros; try dsimp -zeta only)
    | with_reducible apply State.spdm_sound
    | with_reducible apply State.spdmStandard_sound

theorem negotiateAlgorithms_sound (req : Bytes) (s : State) (hs : s.sound = true) :
    (negotiateAlgorithms req s).sound = true := by
  delta negotiateAlgorithms
  repeat' first
    | with_reducible assumption
    | (refine fun _ => ?_; intros; try dsimp -zeta only)
    | with_reducible apply State.spdm_sound
    | with_reducible apply State.spdmStandard_sound

theorem getDigests_sound (s : State) (hs : s.sound = true) :
    (getDigests s).sound = true := by
  delta getDigests
  repeat' first
    | with_reducible assumption
    | (refine fun _ => ?_; intros; try dsimp -zeta only)
    | with_reducible apply State.spdmSend_sound
    | with_reducible apply State.spdm_sound

theorem getCertificate_sound (slot off len : Nat) (s : State) (hs : s.sound = true) :
    (getCertificate slot off len s).sound = true := by
  delta getCertificate
  repeat' first
    | with_reducible assumption
    | (lift_lets -underBinder; intro x; clear_value x)
    | (refine fun _ => ?_; intros; try dsimp -zeta only)
    | with_reducible apply State.spdmSend_sound
    | with_reducible apply State.spdmError_sound
    | with_reducible apply State.spdm_sound
    | with_reducible apply sound_ite

theorem challenge_sound (slot : Nat) (req : Bytes) (s : State) (hs : s.sound = true) :
    (challenge slot req s).sound = true := by
  delta challenge
  repeat' first
    | with_reducible assumption
    | (lift_lets -underBinder; intro x; clear_value x)
    | (refine fun _ => ?_; intros; try dsimp -zeta only)
    | with_reducible apply State.nextMessage_sound
    | with_reducible apply State.spdmSend_sound
    | with_reducible apply State.spdmError_sound
    | with_reducible apply State.spdm_sound
    | with_reducible apply sound_ite

theorem getMeasurements_sound (index : Nat) (req : Bytes) (s : State) (hs : s.sound = true) :
    (getMeasurements index req s).sound = true := by
  delta getMeasurements
  repeat' first
    | with_reducible assumption
    | (lift_lets -underBinder; intro x; clear_value x)
    | (refine fun _ => ?_; intros; try dsimp -zeta only)
    | with_reducible apply State.nextMessage_sound
    | with_reducible apply State.spdmSend_sound
    | with_reducible apply State.spdmError_sound
    | with_reducible apply State.spdm_sound
    | with_reducible apply sound_ite

theorem State.syncSessions_sound (s : State) (hs : s.sound = true) :
    (State.syncSessions s).sound = true := by
  delta State.syncSessions
  repeat' first
    | with_reducible assumption
    | (lift_lets -underBinder; intro x; clear_value x)
    | with_reducible apply State.wr_sound
    | with_reducible apply State.wrb_sound

theorem State.updIdle_sound (s : State) (hs : s.sound = true) :
    (State.updIdle s).sound = true := by
  delta State.updIdle
  repeat' first
    | with_reducible assumption
    | with_reducible apply State.wr_sound
    | with_reducible apply State.upFw_sound

theorem State.endSession_sound (s : State) (id : Nat) (hs : s.sound = true) :
    (State.endSession s id).sound = true := by
  delta State.endSession
  repeat' first
    | with_reducible assumption
    | (lift_lets -underBinder; intro x; refine have hx : x.sound = true := ?_; ?_; (unfold x); rotate_left; clear_value x; rotate_right)
    | with_reducible apply State.wr_sound
    | with_reducible apply State.upSec_sound
    | with_reducible apply State.upFw_sound
    | with_reducible apply State.upImg_sound
    | with_reducible apply State.syncSessions_sound
    | with_reducible apply State.updIdle_sound
    | with_reducible apply sound_ite

theorem keyExchange_sound (req : Bytes) (s : State) (hs : s.sound = true) :
    (keyExchange req s).sound = true := by
  delta keyExchange
  repeat' first
    | with_reducible assumption
    | (lift_lets -underBinder; intro x; clear_value x)
    | (refine fun _ => ?_; intros; try dsimp -zeta only)
    | with_reducible apply State.upSec_sound
    | with_reducible apply State.nextMessage_sound
    | with_reducible apply State.spdmSend_sound
    | with_reducible apply State.spdmError_sound
    | with_reducible apply State.spdm_sound
    | with_reducible apply State.syncSessions_sound
    | with_reducible apply sound_ite

theorem State.sessionFail_sound (s : State) (id : Nat) (hs : s.sound = true) :
    (State.sessionFail s id).sound = true := by
  delta State.sessionFail
  repeat' first
    | with_reducible assumption
    | with_reducible apply State.bump_sound
    | with_reducible apply State.spdmError_sound
    | with_reducible apply State.endSession_sound

theorem finishSession_sound (id : Nat) (chain : Option Bytes) (authentic : Bool) (s : State) (hs : s.sound = true) :
    (finishSession id chain authentic s).sound = true := by
  unfold finishSession
  refine State.spdm_sound _ _ _ hs fun s hs => ?_
  dsimp only
  split
  · exact State.spdmError_sound _ _ hs
  · refine sound_ite (State.spdmError_sound _ _ hs) (sound_ite (State.sessionFail_sound _ _ hs) ?_)
    split
    · exact sound_ite (State.sessionFail_sound _ _ hs)
        (State.spdmStandard_sound _ _ _ (State.syncSessions_sound _ (State.upSec_sound _ _ hs)))
    · split
      · exact State.sessionFail_sound _ _ hs
      · exact sound_ite (State.sessionFail_sound _ _ hs)
          (State.spdmStandard_sound _ _ _ (State.syncSessions_sound _ (State.upSec_sound _ _ hs)))

theorem State.onSession_sound (s : State) (level id : Nat) (act : State → State) (hs : s.sound = true) (h_act : ∀ (x0 : State), x0.sound = true → (act x0).sound = true) :
    (State.onSession s level id act).sound = true := by
  delta State.onSession
  repeat' first
    | with_reducible assumption
    | (refine fun _ => ?_; intros; try dsimp -zeta only)
    | with_reducible apply h_act
    | with_reducible apply State.spdmError_sound
    | with_reducible apply State.spdm_sound
    | with_reducible apply sound_ite
    | split

theorem spdmHeartbeat_sound (id : Nat) (s : State) (hs : s.sound = true) :
    (spdmHeartbeat id s).sound = true := by
  delta spdmHeartbeat
  repeat' first
    | with_reducible assumption
    | (refine fun _ => ?_; intros; try dsimp -zeta only)
    | with_reducible apply State.upSec_sound
    | with_reducible apply State.spdmStandard_sound
    | with_reducible apply State.onSession_sound

theorem sessionHeartbeatLoss_sound (id : Nat) (s : State) (hs : s.sound = true) :
    (sessionHeartbeatLoss id s).sound = true := by
  delta sessionHeartbeatLoss
  repeat' first
    | with_reducible assumption
    | with_reducible apply State.endSession_sound
    | with_reducible apply sound_ite
    | split

theorem keyUpdate_sound (id : Nat) (req : Bytes) (s : State) (hs : s.sound = true) :
    (keyUpdate id req s).sound = true := by
  delta keyUpdate
  repeat' first
    | with_reducible assumption
    | (refine fun _ => ?_; intros; try dsimp -zeta only)
    | with_reducible apply State.spdmStandard_sound
    | with_reducible apply State.onSession_sound

theorem endSessionRow_sound (id : Nat) (s : State) (hs : s.sound = true) :
    (endSessionRow id s).sound = true := by
  delta endSessionRow
  repeat' first
    | with_reducible assumption
    | (refine fun _ => ?_; intros; try dsimp -zeta only)
    | with_reducible apply State.spdmStandard_sound
    | with_reducible apply State.endSession_sound
    | with_reducible apply State.onSession_sound

theorem State.privAnswer_sound (s : State) (code seq result : Nat) (extra : Bytes) (hs : s.sound = true) :
    (State.privAnswer s code seq result extra).sound = true := by
  delta State.privAnswer
  repeat' first
    | with_reducible assumption
    | (lift_lets -underBinder; intro x; refine have hx : x.sound = true := ?_; ?_; (unfold x); rotate_left; clear_value x; rotate_right)
    | with_reducible apply State.bump_sound
    | with_reducible apply State.spdmSend_sound
    | with_reducible apply sound_ite

theorem State.syncPriv_sound (s : State) (hs : s.sound = true) :
    (State.syncPriv s).sound = true := by
  delta State.syncPriv
  repeat' first
    | with_reducible assumption
    | with_reducible apply State.wrb_sound

theorem State.privileged_sound (s : State) (id seq code : Nat) (roles : List Role) (accepted busy : Bool) (act : State → State) (extra : Bytes) (hs : s.sound = true) (h_act : ∀ (x0 : State), x0.sound = true → (act x0).sound = true) :
    (State.privileged s id seq code roles accepted busy act extra).sound = true := by
  delta State.privileged
  repeat' first
    | with_reducible assumption
    | with_reducible apply h_act
    | with_reducible apply State.spdmError_sound
    | with_reducible apply State.privAnswer_sound
    | with_reducible apply State.syncPriv_sound
    | with_reducible apply sound_ite
    | split

end Sys2Proof.Machine
end

