-- ==== Sys2Proof/Laws/Sound/Images.lean ====
section
/-!
SUPPORT. Soundness is kept by every operation of Machine/Images.lean.
-/
namespace Sys2Proof.Machine

theorem State.usageReport_sound (s : State) (closing : Bool) (hs : s.sound = true) :
    (State.usageReport s closing).2.sound = true := by
  delta State.usageReport
  repeat' first
    | with_reducible assumption
    | (lift_lets -underBinder; intro x; clear_value x)
    | with_reducible apply State.upImg_sound
    | with_reducible apply State.nextMessage_sound

theorem usage_sound (sess seq : Nat) (closing : Bool) (s : State) (hs : s.sound = true) :
    (usage sess seq closing s).sound = true := by
  delta usage
  repeat' first
    | with_reducible assumption
    | (refine fun _ => ?_; intros; try dsimp -zeta only)
    | with_reducible apply State.privAnswer_sound
    | with_reducible apply State.privileged_sound
    | with_reducible apply State.usageReport_sound
    | with_reducible apply sound_ite
    | split

theorem State.syncLoad_sound (s : State) (hs : s.sound = true) :
    (State.syncLoad s).sound = true := by
  delta State.syncLoad
  repeat' first
    | with_reducible assumption
    | with_reducible apply State.wrb_sound

theorem State.loadEnd_sound (s : State) (result sect off : Nat) (hs : s.sound = true) :
    (State.loadEnd s result sect off).sound = true := by
  delta State.loadEnd
  repeat' first
    | with_reducible assumption
    | with_reducible apply State.wr_sound

theorem State.loadAnswer_sound (s : State) (session seq result : Nat) (hs : s.sound = true) :
    (State.loadAnswer s session seq result).sound = true := by
  delta State.loadAnswer
  repeat' first
    | with_reducible assumption
    | (lift_lets -underBinder; intro x; refine have hx : x.sound = true := ?_; ?_; (unfold x); rotate_left; clear_value x; rotate_right)
    | with_reducible apply State.privAnswer_sound
    | with_reducible apply State.syncPriv_sound
    | with_reducible apply State.syncLoad_sound
    | with_reducible apply sound_ite

theorem State.takePiece_sound (s : State) (sess seq off total : Nat) (data : Bytes) (hs : s.sound = true) :
    (State.takePiece s sess seq off total data).sound = true := by
  delta State.takePiece
  repeat' first
    | with_reducible assumption
    | (lift_lets -underBinder; intro x; clear_value x)
    | with_reducible apply State.upImg_sound
    | with_reducible apply State.privAnswer_sound
    | with_reducible apply State.syncLoad_sound
    | with_reducible apply sound_ite

theorem imageLoad_sound (sess seq off total : Nat) (data : Bytes) (s : State) (hs : s.sound = true) :
    (imageLoad sess seq off total data s).sound = true := by
  delta imageLoad
  repeat' first
    | with_reducible assumption
    | (lift_lets -underBinder; intro x; clear_value x)
    | (refine fun _ => ?_; intros; try dsimp -zeta only)
    | with_reducible apply State.privAnswer_sound
    | with_reducible apply State.privileged_sound
    | with_reducible apply State.loadEnd_sound
    | with_reducible apply State.takePiece_sound
    | with_reducible apply sound_ite

theorem imageValidationDone_sound (s : State) (hs : s.sound = true) :
    (imageValidationDone s).sound = true := by
  delta imageValidationDone
  repeat' first
    | with_reducible assumption
    | (lift_lets -underBinder; intro x; refine have hx : x.sound = true := ?_; ?_; (unfold x); rotate_left; clear_value x; rotate_right)
    | (lift_lets -underBinder; intro x; clear_value x)
    | with_reducible apply State.wr_sound
    | with_reducible apply State.wrb_sound
    | with_reducible apply State.upImg_sound
    | with_reducible apply State.syncPriv_sound
    | with_reducible apply State.syncLoad_sound
    | with_reducible apply State.loadEnd_sound
    | with_reducible apply State.loadAnswer_sound
    | with_reducible apply sound_ite
    | split

theorem State.syncFen_sound (s : State) (f : Nat) (hs : s.sound = true) :
    (State.syncFen s f).sound = true := by
  delta State.syncFen
  repeat' first
    | with_reducible assumption
    | (lift_lets -underBinder; intro x; clear_value x)
    | (refine fun _ => ?_; intros; try dsimp -zeta only)
    | with_reducible apply State.wr_sound
    | with_reducible apply State.wr64_sound
    | with_reducible apply foldl_sound

theorem State.upCfg_sound (s : State) (f : Applied → Applied) (hs : s.sound = true) :
    (State.upCfg s f).sound = true := by
  delta State.upCfg
  repeat' first
    | with_reducible assumption
    | with_reducible refine State.sound_mk ?_ rfl rfl rfl rfl rfl rfl rfl

theorem State.loadGate_sound (s : State) (p : Nat) (l : GateList) (hs : s.sound = true) :
    (State.loadGate s p l).sound = true := by
  delta State.loadGate
  repeat' first
    | with_reducible assumption
    | (lift_lets -underBinder; intro x; clear_value x)
    | with_reducible apply State.wr_sound
    | with_reducible apply State.wr64_sound
    | with_reducible apply State.upSp_sound
    | with_reducible apply State.setOtherList_sound

theorem State.setClients_sound (s : State) (f : Nat) (rs : List PoliceRec) (hs : s.sound = true) :
    (State.setClients s f rs).sound = true := by
  delta State.setClients
  repeat' first
    | with_reducible assumption
    | (lift_lets -underBinder; intro x; clear_value x)
    | with_reducible apply State.upShp_sound
    | with_reducible apply State.upCfg_sound

theorem State.setShapers_sound (s : State) (ports : Nat) (rs : List ShapeRec) (hs : s.sound = true) :
    (State.setShapers s ports rs).sound = true := by
  delta State.setShapers
  repeat' first
    | with_reducible assumption
    | (lift_lets -underBinder; intro x; clear_value x)
    | with_reducible apply State.upShp_sound
    | with_reducible apply State.upCfg_sound

theorem State.applyFen_sound (s : State) (m : Image) (hs : s.sound = true) :
    (State.applyFen s m).sound = true := by
  delta State.applyFen
  repeat' first
    | with_reducible assumption
    | (lift_lets -underBinder; intro x; clear_value x)
    | (refine fun _ => ?_; intros; try dsimp -zeta only)
    | with_reducible apply State.wr_sound
    | with_reducible apply State.syncFen_sound
    | with_reducible apply State.upCfg_sound
    | with_reducible apply State.loadGate_sound
    | with_reducible apply State.setClients_sound
    | with_reducible apply State.setShapers_sound
    | with_reducible apply sound_ite
    | with_reducible apply foldl_sound
    | split

theorem State.resumeNow_sound (s : State) (f : Nat) (hs : s.sound = true) :
    (State.resumeNow s f).sound = true := by
  delta State.resumeNow
  repeat' first
    | with_reducible assumption
    | (lift_lets -underBinder; intro x; refine have hx : x.sound = true := ?_; ?_; (unfold x); rotate_left; clear_value x; rotate_right)
    | with_reducible apply State.wr_sound
    | with_reducible apply State.syncLeases_sound
    | with_reducible apply sound_ite

theorem State.resumeOp_sound (s : State) (f : Nat) (hs : s.sound = true) :
    (State.resumeOp s f).sound = true := by
  delta State.resumeOp
  repeat' first
    | with_reducible assumption
    | with_reducible apply State.wr_sound
    | with_reducible apply State.upImg_sound
    | with_reducible apply State.resumeNow_sound
    | with_reducible apply sound_ite

theorem State.quiesceOp_sound (s : State) (f : Nat) (hs : s.sound = true) :
    (State.quiesceOp s f).sound = true := by
  delta State.quiesceOp
  repeat' first
    | with_reducible assumption
    | (lift_lets -underBinder; intro x; refine have hx : x.sound = true := ?_; ?_; (unfold x); rotate_left; clear_value x; rotate_right)
    | with_reducible apply State.wr_sound
    | with_reducible apply State.upCar_sound
    | with_reducible apply State.syncLeases_sound
    | with_reducible apply State.syncCmd_sound
    | with_reducible apply State.quiesceKill_sound
    | with_reducible apply State.redQuiesce_sound
    | with_reducible apply sound_ite

theorem State.fenCtlOp_sound (s : State) (f : Nat) (quiesce resume : Bool) (hs : s.sound = true) :
    (State.fenCtlOp s f quiesce resume).sound = true := by
  delta State.fenCtlOp
  repeat' first
    | with_reducible assumption
    | with_reducible apply State.resumeOp_sound
    | with_reducible apply State.quiesceOp_sound
    | with_reducible apply sound_ite

theorem quiesce_sound (a : Access) (f : Nat) (resume : Bool) (s : State) (hs : s.sound = true) :
    (quiesce a f resume s).sound = true := by
  delta quiesce
  repeat' first
    | with_reducible assumption
    | (refine fun _ => ?_; intros; try dsimp -zeta only)
    | with_reducible apply State.window_sound
    | with_reducible apply State.fenCtlOp_sound
    | with_reducible apply sound_ite

theorem resume_sound (a : Access) (f : Nat) (s : State) (hs : s.sound = true) :
    (resume a f s).sound = true := by
  delta resume
  repeat' first
    | with_reducible assumption
    | (refine fun _ => ?_; intros; try dsimp -zeta only)
    | with_reducible apply State.window_sound
    | with_reducible apply State.fenCtlOp_sound
    | with_reducible apply sound_ite

theorem fenQuiesced_sound (f : Nat) (s : State) (hs : s.sound = true) :
    (fenQuiesced f s).sound = true := by
  delta fenQuiesced
  repeat' first
    | with_reducible assumption
    | (lift_lets -underBinder; intro x; clear_value x)
    | with_reducible apply State.wr_sound
    | with_reducible apply sound_ite

theorem State.applyEnd_sound (s : State) (f result sect off : Nat) (hs : s.sound = true) :
    (State.applyEnd s f result sect off).sound = true := by
  delta State.applyEnd
  repeat' first
    | with_reducible assumption
    | (lift_lets -underBinder; intro x; clear_value x)
    | with_reducible apply State.wr_sound
    | with_reducible apply State.upImg_sound
    | with_reducible apply State.loadEnd_sound
    | with_reducible apply State.loadAnswer_sound
    | with_reducible apply State.resumeNow_sound
    | with_reducible apply sound_ite

theorem State.fenImageApply_sound (s : State) (m : Image) (hs : s.sound = true) :
    (State.fenImageApply s m).sound = true := by
  delta State.fenImageApply
  repeat' first
    | with_reducible assumption
    | (lift_lets -underBinder; intro x; refine have hx : x.sound = true := ?_; ?_; (unfold x); rotate_left; clear_value x; rotate_right)
    | with_reducible apply State.wr_sound
    | with_reducible apply State.bump_sound
    | with_reducible apply State.upSec_sound
    | with_reducible apply State.applyFen_sound
    | with_reducible apply State.applyEnd_sound
    | split

theorem State.freshGates_sound (s : State) (m : Image) (p : Nat) (hs : s.sound = true) :
    (State.freshGates s m p).sound = true := by
  delta State.freshGates
  repeat' first
    | with_reducible assumption
    | (lift_lets -underBinder; intro x; clear_value x)
    | with_reducible apply State.wr_sound
    | with_reducible apply State.wr64_sound
    | with_reducible apply State.upSp_sound
    | with_reducible apply State.noteEntry_sound

theorem State.applyPorts_sound (s : State) (m : Image) (hs : s.sound = true) :
    (State.applyPorts s m).sound = true := by
  delta State.applyPorts
  repeat' first
    | with_reducible assumption
    | (lift_lets -underBinder; intro x; clear_value x)
    | (refine fun _ => ?_; intros; try dsimp -zeta only)
    | with_reducible apply State.wr_sound
    | with_reducible apply State.upXbr_sound
    | with_reducible apply State.freshGates_sound
    | with_reducible apply foldl_sound

theorem State.applyDevice_sound (s : State) (m : Image) (hs : s.sound = true) :
    (State.applyDevice s m).sound = true := by
  delta State.applyDevice
  repeat' first
    | with_reducible assumption
    | (lift_lets -underBinder; intro x; clear_value x)
    | with_reducible apply State.wr_sound

theorem State.applyImage_sound (s : State) (m : Image) (hs : s.sound = true) :
    (State.applyImage s m).sound = true := by
  delta State.applyImage
  repeat' first
    | with_reducible assumption
    | (lift_lets -underBinder; intro x; refine have hx : x.sound = true := ?_; ?_; (unfold x); rotate_left; clear_value x; rotate_right)
    | with_reducible apply State.wr_sound
    | with_reducible apply State.upSec_sound
    | with_reducible apply State.upImg_sound

theorem State.applyFull_sound (s : State) (m : Image) (hs : s.sound = true) :
    (State.applyFull s m).sound = true := by
  delta State.applyFull
  repeat' first
    | with_reducible assumption
    | (lift_lets -underBinder; intro x; refine have hx : x.sound = true := ?_; ?_; (unfold x); rotate_left; clear_value x; rotate_right)
    | (refine fun _ => ?_; intros; try dsimp -zeta only)
    | with_reducible apply State.wr_sound
    | with_reducible apply State.upShp_sound
    | with_reducible apply State.syncFen_sound
    | with_reducible apply State.applyPorts_sound
    | with_reducible apply State.applyDevice_sound
    | with_reducible apply State.applyImage_sound
    | with_reducible apply foldl_sound
    | with_reducible refine State.sound_mk ?_ rfl rfl rfl rfl rfl rfl rfl

theorem State.quiesceAll_sound (s : State) (hs : s.sound = true) :
    (State.quiesceAll s).sound = true := by
  delta State.quiesceAll
  repeat' first
    | with_reducible assumption
    | (refine fun _ => ?_; intros; try dsimp -zeta only)
    | with_reducible apply State.wr_sound
    | with_reducible apply foldl_sound

theorem State.trayShortfall_sound (s : State) (hs : s.sound = true) :
    (State.trayShortfall s).sound = true := by
  delta State.trayShortfall
  repeat' first
    | with_reducible assumption
    | (lift_lets -underBinder; intro x; clear_value x)
    | (refine fun _ => ?_; intros; try dsimp -zeta only)
    | with_reducible apply State.wr_sound
    | with_reducible apply State.event_sound
    | with_reducible apply State.syncFen_sound
    | with_reducible apply State.upCfg_sound
    | with_reducible apply sound_ite
    | with_reducible apply foldl_sound

end Sys2Proof.Machine
end

