-- ==== Sys2Proof/Laws/Sound/Custodian.lean ====
section
/-!
SUPPORT. Soundness is kept by every operation of Machine/Custodian.lean.
-/
namespace Sys2Proof.Machine

theorem State.upCust_sound (s : State) (f : CustRecord → CustRecord) (hs : s.sound = true) :
    (State.upCust s f).sound = true := by
  delta State.upCust
  repeat' first
    | with_reducible assumption
    | with_reducible apply State.upSec_sound

theorem keySlot_sound (sess seq k : Nat) (key : Option Bytes) (s : State) (hs : s.sound = true) :
    (keySlot sess seq k key s).sound = true := by
  delta keySlot
  repeat' first
    | with_reducible assumption
    | (lift_lets -underBinder; intro x; refine have hx : x.sound = true := ?_; ?_; (unfold x); rotate_left; clear_value x; rotate_right)
    | (refine fun _ => ?_; intros; try dsimp -zeta only)
    | with_reducible apply State.privAnswer_sound
    | with_reducible apply State.privileged_sound
    | with_reducible apply State.upCust_sound
    | with_reducible apply sound_ite

theorem policyRow_sound (sess seq bits : Nat) (roots allow : List Bytes) (s : State) (hs : s.sound = true) :
    (policyRow sess seq bits roots allow s).sound = true := by
  delta policyRow
  repeat' first
    | with_reducible assumption
    | (lift_lets -underBinder; intro x; clear_value x)
    | (refine fun _ => ?_; intros; try dsimp -zeta only)
    | with_reducible apply State.upSec_sound
    | with_reducible apply State.privAnswer_sound
    | with_reducible apply State.privileged_sound
    | with_reducible apply sound_ite

theorem State.resumePair_sound (s : State) (p : Nat) (hs : s.sound = true) :
    (State.resumePair s p).sound = true := by
  delta State.resumePair
  repeat' first
    | with_reducible assumption
    | (lift_lets -underBinder; intro x; clear_value x)
    | with_reducible apply State.wr_sound
    | with_reducible apply State.upCar_sound
    | with_reducible apply sound_ite
    | split

theorem State.debugLevel_sound (s : State) (l : Nat) (hs : s.sound = true) :
    (State.debugLevel s l).sound = true := by
  delta State.debugLevel
  repeat' first
    | with_reducible assumption
    | with_reducible apply State.wr_sound
    | with_reducible apply State.carEvent_sound
    | with_reducible apply State.resumePair_sound
    | with_reducible apply sound_ite

theorem debugUnlock_sound (sess seq : Nat) (s : State) (hs : s.sound = true) :
    (debugUnlock sess seq s).sound = true := by
  delta debugUnlock
  repeat' first
    | with_reducible assumption
    | (lift_lets -underBinder; intro x; clear_value x)
    | (refine fun _ => ?_; intros; try dsimp -zeta only)
    | with_reducible apply State.privAnswer_sound
    | with_reducible apply State.privileged_sound
    | with_reducible apply State.debugLevel_sound

theorem custodianRead_sound (sess seq : Nat) (s : State) (hs : s.sound = true) :
    (custodianRead sess seq s).sound = true := by
  delta custodianRead
  repeat' first
    | with_reducible assumption
    | (refine fun _ => ?_; intros; try dsimp -zeta only)
    | with_reducible apply State.privAnswer_sound
    | with_reducible apply State.privileged_sound

theorem State.scrubClear_sound (s : State) (keep : Nat) (hs : s.sound = true) :
    (State.scrubClear s keep).sound = true := by
  delta State.scrubClear
  repeat' first
    | with_reducible assumption
    | (lift_lets -underBinder; intro x; clear_value x)
    | (refine fun _ => ?_; intros; try dsimp -zeta only)
    | with_reducible apply State.wr_sound
    | with_reducible apply State.upSec_sound
    | with_reducible apply State.upCar_sound
    | with_reducible apply State.upFlt_sound
    | with_reducible apply State.flashAppend_sound
    | with_reducible apply State.keepFields_sound
    | with_reducible apply State.newMemoryKeys_sound
    | with_reducible apply State.clearCustom_sound
    | with_reducible apply State.syncSessions_sound
    | with_reducible apply State.endSession_sound
    | with_reducible apply State.debugLevel_sound
    | with_reducible apply foldl_sound
    | with_reducible refine State.sound_mk ?_ rfl rfl rfl rfl rfl rfl rfl

theorem State.startScrub_sound (s : State) (sess seq code : Nat) (rec : Option CustRecord) (sanitize : Bool) (hs : s.sound = true) :
    (State.startScrub s sess seq code rec sanitize).sound = true := by
  delta State.startScrub
  repeat' first
    | with_reducible assumption
    | with_reducible apply State.wr_sound
    | with_reducible apply State.upSec_sound
    | with_reducible apply State.usageReport_sound
    | with_reducible apply State.scrubClear_sound

theorem State.putCustodian_sound (s : State) (rec : Option CustRecord) (hs : s.sound = true) :
    (State.putCustodian s rec).sound = true := by
  delta State.putCustodian
  repeat' first
    | with_reducible assumption
    | (lift_lets -underBinder; intro x; refine have hx : x.sound = true := ?_; ?_; (unfold x); rotate_left; clear_value x; rotate_right)
    | with_reducible apply State.wr_sound
    | with_reducible apply State.bump_sound
    | with_reducible apply State.inc_sound
    | with_reducible apply State.upSec_sound

theorem custodianInstall_sound (sess seq : Nat) (rec : CustRecord) (s : State) (hs : s.sound = true) :
    (custodianInstall sess seq rec s).sound = true := by
  delta custodianInstall
  repeat' first
    | with_reducible assumption
    | (refine fun _ => ?_; intros; try dsimp -zeta only)
    | with_reducible apply State.privAnswer_sound
    | with_reducible apply State.privileged_sound
    | with_reducible apply State.startScrub_sound
    | with_reducible apply State.putCustodian_sound
    | with_reducible apply sound_ite

theorem custodianSwitch_sound (sess seq : Nat) (rec : Option CustRecord) (sanitize : Bool) (s : State) (hs : s.sound = true) :
    (custodianSwitch sess seq rec sanitize s).sound = true := by
  delta custodianSwitch
  repeat' first
    | with_reducible assumption
    | (refine fun _ => ?_; intros; try dsimp -zeta only)
    | with_reducible apply State.privAnswer_sound
    | with_reducible apply State.privileged_sound
    | with_reducible apply State.startScrub_sound
    | with_reducible apply sound_ite

theorem custodianRelease_sound (sess seq : Nat) (sanitize : Bool) (s : State) (hs : s.sound = true) :
    (custodianRelease sess seq sanitize s).sound = true := by
  delta custodianRelease
  repeat' first
    | with_reducible assumption
    | (refine fun _ => ?_; intros; try dsimp -zeta only)
    | with_reducible apply State.privAnswer_sound
    | with_reducible apply State.privileged_sound
    | with_reducible apply State.startScrub_sound
    | with_reducible apply sound_ite

theorem scrubComplete_sound (s : State) (hs : s.sound = true) :
    (scrubComplete s).sound = true := by
  delta scrubComplete
  repeat' first
    | with_reducible assumption
    | (lift_lets -underBinder; intro x; refine have hx : x.sound = true := ?_; ?_; (unfold x); rotate_left; clear_value x; rotate_right)
    | with_reducible apply State.wr_sound
    | with_reducible apply State.wr64_sound
    | with_reducible apply State.upSec_sound
    | with_reducible apply State.privAnswer_sound
    | with_reducible apply State.syncPriv_sound
    | with_reducible apply State.putCustodian_sound
    | with_reducible apply sound_ite
    | split

theorem operatorSet_sound (sess seq : Nat) (root sigR sigS : Bytes) (s : State) (hs : s.sound = true) :
    (operatorSet sess seq root sigR sigS s).sound = true := by
  delta operatorSet
  repeat' first
    | with_reducible assumption
    | (lift_lets -underBinder; intro x; clear_value x)
    | (refine fun _ => ?_; intros; try dsimp -zeta only)
    | with_reducible apply State.wr_sound
    | with_reducible apply State.upSec_sound
    | with_reducible apply State.privAnswer_sound
    | with_reducible apply State.privileged_sound
    | with_reducible apply sound_ite

theorem decommission_sound (sess seq : Nat) (s : State) (hs : s.sound = true) :
    (decommission sess seq s).sound = true := by
  delta decommission
  repeat' first
    | with_reducible assumption
    | (lift_lets -underBinder; intro x; refine have hx : x.sound = true := ?_; ?_; (unfold x); rotate_left; clear_value x; rotate_right)
    | (refine fun _ => ?_; intros; try dsimp -zeta only)
    | with_reducible apply State.wr_sound
    | with_reducible apply State.upSec_sound
    | with_reducible apply State.clearSessions_sound
    | with_reducible apply State.privAnswer_sound
    | with_reducible apply State.privileged_sound

theorem trngFail_sound (test : Nat) (s : State) (hs : s.sound = true) :
    (trngFail test s).sound = true := by
  delta trngFail
  repeat' first
    | with_reducible assumption
    | with_reducible apply State.wr_sound
    | with_reducible apply State.event_sound
    | with_reducible apply sound_ite

theorem linkSecure_sound (p : Nat) (peer : PeerAuth) (s : State) (hs : s.sound = true) :
    (linkSecure p peer s).sound = true := by
  delta linkSecure
  repeat' first
    | with_reducible assumption
    | (lift_lets -underBinder; intro x; refine have hx : x.sound = true := ?_; ?_; (unfold x); rotate_left; clear_value x; rotate_right)
    | with_reducible apply State.wr_sound
    | with_reducible apply State.bump_sound
    | with_reducible apply State.upPort_sound
    | with_reducible apply State.event_sound
    | with_reducible apply sound_ite
    | split

end Sys2Proof.Machine
end

