-- ==== Sys2Proof/Laws/Sound/Firmware.lean ====
section
/-!
SUPPORT. Soundness is kept by every operation of Machine/Firmware.lean.
-/
namespace Sys2Proof.Machine

theorem State.fwFallback_sound (s : State) (slot cause : Nat) (hs : s.sound = true) :
    (State.fwFallback s slot cause).sound = true := by
  delta State.fwFallback
  repeat' first
    | with_reducible assumption
    | with_reducible apply State.upFw_sound
    | with_reducible apply State.carEvent_sound

theorem State.fwRuns_sound (s : State) (slot : Nat) (i : FwInfo) (hs : s.sound = true) :
    (State.fwRuns s slot i).sound = true := by
  delta State.fwRuns
  repeat' first
    | with_reducible assumption
    | (lift_lets -underBinder; intro x; refine have hx : x.sound = true := ?_; ?_; (unfold x); rotate_left; clear_value x; rotate_right)
    | with_reducible apply State.wr_sound
    | with_reducible apply State.wrb_sound
    | with_reducible apply State.bump_sound
    | with_reducible apply State.upCar_sound
    | with_reducible apply State.upFw_sound
    | with_reducible apply sound_ite

theorem State.fwRecovery_sound (s : State) (hs : s.sound = true) :
    (State.fwRecovery s).sound = true := by
  delta State.fwRecovery
  repeat' first
    | with_reducible assumption
    | (lift_lets -underBinder; intro x; refine have hx : x.sound = true := ?_; ?_; (unfold x); rotate_left; clear_value x; rotate_right)
    | with_reducible apply State.wr_sound
    | with_reducible apply State.upCar_sound
    | with_reducible apply State.upFw_sound

theorem State.bootFw_sound (s : State) (hs : s.sound = true) :
    (State.bootFw s).2.sound = true := by
  delta State.bootFw
  repeat' first
    | with_reducible assumption
    | (lift_lets -underBinder; intro x; refine have hx : x.sound = true := ?_; ?_; (unfold x); rotate_left; clear_value x; rotate_right)
    | with_reducible apply State.upFw_sound
    | with_reducible apply State.updIdle_sound
    | with_reducible apply State.fwFallback_sound
    | with_reducible apply State.fwRuns_sound
    | with_reducible apply State.fwRecovery_sound
    | with_reducible apply sound_ite
    | split
    | with_reducible refine State.sound_mk ?_ rfl rfl rfl rfl rfl rfl rfl

theorem State.fwAnswer_sound (s : State) (seq result upd : Nat) (hs : s.sound = true) :
    (State.fwAnswer s seq result upd).sound = true := by
  delta State.fwAnswer
  repeat' first
    | with_reducible assumption
    | with_reducible apply State.upFw_sound
    | with_reducible apply State.privAnswer_sound

theorem State.fwOp_sound (s : State) (sess seq : Nat) (states : List Nat) (act : State → State) (hs : s.sound = true) (h_act : ∀ (x0 : State), x0.sound = true → (act x0).sound = true) :
    (State.fwOp s sess seq states act).sound = true := by
  delta State.fwOp
  repeat' first
    | with_reducible assumption
    | (lift_lets -underBinder; intro x; clear_value x)
    | (refine fun _ => ?_; intros; try dsimp -zeta only)
    | with_reducible apply h_act
    | with_reducible apply State.privileged_sound
    | with_reducible apply State.fwAnswer_sound
    | with_reducible apply sound_ite

theorem fwBegin_sound (sess seq total : Nat) (s : State) (hs : s.sound = true) :
    (fwBegin sess seq total s).sound = true := by
  delta fwBegin
  repeat' first
    | with_reducible assumption
    | (lift_lets -underBinder; intro x; clear_value x)
    | (refine fun _ => ?_; intros; try dsimp -zeta only)
    | with_reducible apply State.wr_sound
    | with_reducible apply State.upFw_sound
    | with_reducible apply State.fwAnswer_sound
    | with_reducible apply State.fwOp_sound
    | with_reducible apply sound_ite

theorem fwEraseDone_sound (s : State) (hs : s.sound = true) :
    (fwEraseDone s).sound = true := by
  delta fwEraseDone
  repeat' first
    | with_reducible assumption
    | with_reducible apply State.wr_sound
    | with_reducible apply State.syncPriv_sound
    | with_reducible apply sound_ite

theorem fwData_sound (sess seq off : Nat) (data : Bytes) (flashOk : Bool) (s : State) (hs : s.sound = true) :
    (fwData sess seq off data flashOk s).sound = true := by
  delta fwData
  repeat' first
    | with_reducible assumption
    | (lift_lets -underBinder; intro x; clear_value x)
    | (refine fun _ => ?_; intros; try dsimp -zeta only)
    | with_reducible apply State.upFw_sound
    | with_reducible apply State.carEvent_sound
    | with_reducible apply State.fwAnswer_sound
    | with_reducible apply State.fwOp_sound
    | with_reducible apply sound_ite

theorem fwVerify_sound (sess seq : Nat) (s : State) (hs : s.sound = true) :
    (fwVerify sess seq s).sound = true := by
  delta fwVerify
  repeat' first
    | with_reducible assumption
    | (lift_lets -underBinder; intro x; refine have hx : x.sound = true := ?_; ?_; (unfold x); rotate_left; clear_value x; rotate_right)
    | (refine fun _ => ?_; intros; try dsimp -zeta only)
    | with_reducible apply State.wr_sound
    | with_reducible apply State.upFw_sound
    | with_reducible apply State.carEvent_sound
    | with_reducible apply State.fwAnswer_sound
    | with_reducible apply State.fwOp_sound
    | split

theorem fwActivate_sound (sess seq : Nat) (s : State) (hs : s.sound = true) :
    (fwActivate sess seq s).sound = true := by
  delta fwActivate
  repeat' first
    | with_reducible assumption
    | (lift_lets -underBinder; intro x; clear_value x)
    | (refine fun _ => ?_; intros; try dsimp -zeta only)
    | with_reducible apply State.wr_sound
    | with_reducible apply State.upFw_sound
    | with_reducible apply State.carEvent_sound
    | with_reducible apply State.fwAnswer_sound
    | with_reducible apply State.fwOp_sound

theorem fwAbort_sound (sess seq : Nat) (s : State) (hs : s.sound = true) :
    (fwAbort sess seq s).sound = true := by
  delta fwAbort
  repeat' first
    | with_reducible assumption
    | (lift_lets -underBinder; intro x; refine have hx : x.sound = true := ?_; ?_; (unfold x); rotate_left; clear_value x; rotate_right)
    | (refine fun _ => ?_; intros; try dsimp -zeta only)
    | with_reducible apply State.wr_sound
    | with_reducible apply State.upFw_sound
    | with_reducible apply State.updIdle_sound
    | with_reducible apply State.fwAnswer_sound
    | with_reducible apply State.fwOp_sound
    | with_reducible apply sound_ite

theorem fwConfirm_sound (s : State) (hs : s.sound = true) :
    (fwConfirm s).sound = true := by
  delta fwConfirm
  repeat' first
    | with_reducible assumption
    | (lift_lets -underBinder; intro x; clear_value x)
    | with_reducible apply State.wr_sound
    | with_reducible apply State.raise_sound
    | with_reducible apply State.upFw_sound
    | with_reducible apply State.carEvent_sound
    | with_reducible apply sound_ite
    | split

end Sys2Proof.Machine
end

