-- ==== Sys2Proof/Laws/Sound/HostBus.lean ====
section
/-!
SUPPORT. Soundness is kept by every operation of Machine/HostBus.lean.
-/
namespace Sys2Proof.Machine

theorem State.syncIde_sound (s : State) (hs : s.sound = true) :
    (State.syncIde s).sound = true := by
  delta State.syncIde
  repeat' first
    | with_reducible assumption
    | with_reducible apply State.wr_sound

theorem ideKm_sound (sess stream : Nat) (s : State) (hs : s.sound = true) :
    (ideKm sess stream s).sound = true := by
  delta ideKm
  repeat' first
    | with_reducible assumption
    | (lift_lets -underBinder; intro x; refine have hx : x.sound = true := ?_; ?_; (unfold x); rotate_left; clear_value x; rotate_right)
    | (refine fun _ => ?_; intros; try dsimp -zeta only)
    | with_reducible apply State.emit_sound
    | with_reducible apply State.upSec_sound
    | with_reducible apply State.nextMessage_sound
    | with_reducible apply State.spdmError_sound
    | with_reducible apply State.onSession_sound
    | with_reducible apply State.syncIde_sound
    | with_reducible apply sound_ite

theorem State.tdispError_sound (s : State) (hs : s.sound = true) :
    (State.tdispError s).sound = true := by
  delta State.tdispError
  repeat' first
    | with_reducible assumption
    | with_reducible apply State.wr_sound
    | with_reducible apply State.bump_sound
    | with_reducible apply sound_ite

theorem ideFail_sound (stream : Nat) (s : State) (hs : s.sound = true) :
    (ideFail stream s).sound = true := by
  delta ideFail
  repeat' first
    | with_reducible assumption
    | (lift_lets -underBinder; intro x; refine have hx : x.sound = true := ?_; ?_; (unfold x); rotate_left; clear_value x; rotate_right)
    | with_reducible apply State.wr_sound
    | with_reducible apply State.bump_sound
    | with_reducible apply State.upSec_sound
    | with_reducible apply State.event_sound
    | with_reducible apply State.syncIde_sound
    | with_reducible apply State.tdispError_sound
    | with_reducible apply sound_ite

theorem State.tdisp_sound (s : State) (sess code : Nat) (from_ : List Nat) (act : State → State) (extra : State → Bytes) (hs : s.sound = true) (h_act : ∀ (x0 : State), x0.sound = true → (act x0).sound = true) :
    (State.tdisp s sess code from_ act extra).sound = true := by
  delta State.tdisp
  repeat' first
    | with_reducible assumption
    | (lift_lets -underBinder; intro x; refine have hx : x.sound = true := ?_; ?_; (unfold x); rotate_left; clear_value x; rotate_right)
    | (refine fun _ => ?_; intros; try dsimp -zeta only)
    | with_reducible apply h_act
    | with_reducible apply State.emit_sound
    | with_reducible apply State.nextMessage_sound
    | with_reducible apply State.onSession_sound
    | with_reducible apply sound_ite

theorem lockInterface_sound (sess : Nat) (s : State) (hs : s.sound = true) :
    (lockInterface sess s).sound = true := by
  delta lockInterface
  repeat' first
    | with_reducible assumption
    | (refine fun _ => ?_; intros; try dsimp -zeta only)
    | with_reducible apply State.wr_sound
    | with_reducible apply State.tdisp_sound

theorem getDeviceInterfaceReport_sound (sess : Nat) (s : State) (hs : s.sound = true) :
    (getDeviceInterfaceReport sess s).sound = true :=
  State.tdisp_sound _ _ _ _ _ _ hs fun _ h => h

theorem startInterface_sound (sess : Nat) (s : State) (hs : s.sound = true) :
    (startInterface sess s).sound = true := by
  delta startInterface
  repeat' first
    | with_reducible assumption
    | (refine fun _ => ?_; intros; try dsimp -zeta only)
    | with_reducible apply State.wr_sound
    | with_reducible apply State.tdisp_sound

theorem stopInterface_sound (sess : Nat) (s : State) (hs : s.sound = true) :
    (stopInterface sess s).sound = true := by
  delta stopInterface
  repeat' first
    | with_reducible assumption
    | (refine fun _ => ?_; intros; try dsimp -zeta only)
    | with_reducible apply State.wr_sound
    | with_reducible apply State.tdisp_sound

theorem managementLinkDown_sound (s : State) (hs : s.sound = true) :
    (managementLinkDown s).sound = true := by
  delta managementLinkDown
  repeat' first
    | with_reducible assumption
    | with_reducible apply State.upFlt_sound

theorem managementLinkUp_sound (s : State) (hs : s.sound = true) :
    (managementLinkUp s).sound = true := by
  delta managementLinkUp
  repeat' first
    | with_reducible assumption
    | with_reducible apply State.upFlt_sound
    | with_reducible apply State.eqResume_sound
    | with_reducible apply sound_ite

theorem State.resetLink_sound (s : State) (hs : s.sound = true) :
    (State.resetLink s).sound = true := by
  delta State.resetLink
  repeat' first
    | with_reducible assumption
    | (lift_lets -underBinder; intro x; refine have hx : x.sound = true := ?_; ?_; (unfold x); rotate_left; clear_value x; rotate_right)
    | with_reducible apply State.wr_sound
    | with_reducible apply State.upSec_sound
    | with_reducible apply State.syncIde_sound
    | with_reducible apply managementLinkDown_sound

end Sys2Proof.Machine
end

