-- ==== Sys2Proof/Laws/Sound/Power.lean ====
section
/-!
SUPPORT. Soundness is kept by every operation of Machine/Power.lean.
-/
namespace Sys2Proof.Machine

set_option maxHeartbeats 40000

theorem State.setRef_sound (s : State) (i : Nat) (ok : Bool) (hs : s.sound = true) :
    (State.setRef s i ok).sound = true := by
  delta State.setRef
  repeat' first
    | with_reducible assumption
    | with_reducible apply State.wrb_sound
    | with_reducible apply sound_ite
    | dsimp -zeta only

theorem State.refEvent_sound (s : State) (i what : Nat) (hs : s.sound = true) :
    (State.refEvent s i what).sound = true := by
  delta State.refEvent
  repeat' first
    | with_reducible assumption
    | with_reducible apply State.event_sound
    | dsimp -zeta only
    | with_reducible refine State.sound_mk ?_ rfl rfl rfl rfl rfl rfl rfl

theorem refclkLoss_sound (i : Nat) (s : State) (hs : s.sound = true) :
    (refclkLoss i s).sound = true := by
  delta refclkLoss
  repeat' first
    | with_reducible assumption
    | (lift_lets -underBinder; intro x; refine have hx : x.sound = true := ?_; ?_; (unfold x); rotate_left; clear_value x; rotate_right) | (lift_lets -underBinder; intro x; clear_value x)
    | (refine fun _ => ?_; intros; try dsimp -zeta only)
    | with_reducible apply State.wr_sound
    | with_reducible apply State.bump_sound
    | with_reducible apply State.upCar_sound
    | with_reducible apply State.setRef_sound
    | with_reducible apply State.refEvent_sound
    | with_reducible apply sound_ite
    | refine sound_snd (by with_reducible assumption) ?_ | refine sound_fst (by with_reducible assumption) ?_
    | split
    | dsimp -zeta only
    | with_reducible refine State.sound_mk ?_ rfl rfl rfl rfl rfl rfl rfl

theorem State.revertRef_sound (s : State) (hs : s.sound = true) :
    (State.revertRef s).sound = true := by
  delta State.revertRef
  repeat' first
    | with_reducible assumption
    | (lift_lets -underBinder; intro x; refine have hx : x.sound = true := ?_; ?_; (unfold x); rotate_left; clear_value x; rotate_right) | (lift_lets -underBinder; intro x; clear_value x)
    | with_reducible apply State.wr_sound
    | with_reducible apply State.bump_sound
    | with_reducible apply State.refEvent_sound
    | with_reducible apply sound_ite
    | refine sound_snd (by with_reducible assumption) ?_ | refine sound_fst (by with_reducible assumption) ?_
    | split
    | dsimp -zeta only

theorem refclkGood_sound (i ppm10 : Nat) (s : State) (hs : s.sound = true) :
    (refclkGood i ppm10 s).sound = true := by
  delta refclkGood
  repeat' first
    | with_reducible assumption
    | (lift_lets -underBinder; intro x; refine have hx : x.sound = true := ?_; ?_; (unfold x); rotate_left; clear_value x; rotate_right) | (lift_lets -underBinder; intro x; clear_value x)
    | (refine fun _ => ?_; intros; try dsimp -zeta only)
    | with_reducible apply State.wr_sound
    | with_reducible apply State.bump_sound
    | with_reducible apply State.upCar_sound
    | with_reducible apply State.setRef_sound
    | with_reducible apply State.refEvent_sound
    | with_reducible apply State.revertRef_sound
    | with_reducible apply sound_ite
    | refine sound_snd (by with_reducible assumption) ?_ | refine sound_fst (by with_reducible assumption) ?_
    | split
    | dsimp -zeta only
    | with_reducible refine State.sound_mk ?_ rfl rfl rfl rfl rfl rfl rfl

theorem State.sampleStraps_sound (s : State) (b : BringUp) (hs : s.sound = true) :
    (State.sampleStraps s b).sound = true := by
  delta State.sampleStraps
  repeat' first
    | with_reducible assumption
    | (lift_lets -underBinder; intro x; refine have hx : x.sound = true := ?_; ?_; (unfold x); rotate_left; clear_value x; rotate_right) | (lift_lets -underBinder; intro x; clear_value x)
    | (refine fun _ => ?_; intros; try dsimp -zeta only)
    | with_reducible apply State.wr_sound
    | with_reducible apply State.wrb_sound
    | with_reducible apply State.event_sound
    | with_reducible apply foldl_sound | with_reducible apply foldl_sound_fst | with_reducible apply foldl_sound_snd
    | refine sound_snd (by with_reducible assumption) ?_ | refine sound_fst (by with_reducible assumption) ?_
    | split
    | dsimp -zeta only
    | with_reducible refine State.sound_mk ?_ rfl rfl rfl rfl rfl rfl rfl

theorem State.setPhase_sound (s : State) (p : Nat) (hs : s.sound = true) :
    (State.setPhase s p).sound = true := by
  delta State.setPhase
  repeat' first
    | with_reducible assumption
    | with_reducible apply State.wr_sound
    | dsimp -zeta only

theorem State.diesReady_sound (s : State) (hs : s.sound = true) :
    (State.diesReady s).sound = true := by
  delta State.diesReady
  repeat' first
    | with_reducible assumption
    | (lift_lets -underBinder; intro x; refine have hx : x.sound = true := ?_; ?_; (unfold x); rotate_left; clear_value x; rotate_right) | (lift_lets -underBinder; intro x; clear_value x)
    | with_reducible apply State.wr_sound
    | refine sound_snd (by with_reducible assumption) ?_ | refine sound_fst (by with_reducible assumption) ?_
    | split
    | dsimp -zeta only

theorem State.noteBringTime_sound (s : State) (hs : s.sound = true) :
    (State.noteBringTime s).sound = true := by
  delta State.noteBringTime
  repeat' first
    | with_reducible assumption
    | (lift_lets -underBinder; intro x; refine have hx : x.sound = true := ?_; ?_; (unfold x); rotate_left; clear_value x; rotate_right) | (lift_lets -underBinder; intro x; clear_value x)
    | with_reducible apply State.wr_sound
    | with_reducible apply State.free_sound
    | with_reducible apply free_sound
    | refine sound_snd (by with_reducible assumption) ?_ | refine sound_fst (by with_reducible assumption) ?_
    | split
    | dsimp -zeta only

theorem State.waitImage_sound (s : State) (hs : s.sound = true) :
    (State.waitImage s).sound = true := by
  delta State.waitImage
  repeat' first
    | with_reducible assumption
    | (lift_lets -underBinder; intro x; refine have hx : x.sound = true := ?_; ?_; (unfold x); rotate_left; clear_value x; rotate_right) | (lift_lets -underBinder; intro x; clear_value x)
    | with_reducible apply State.wr_sound
    | with_reducible apply State.putCustodian_sound
    | with_reducible apply State.setPhase_sound
    | with_reducible apply State.noteBringTime_sound
    | with_reducible apply optSound_getD
    | refine sound_of_opt (by with_reducible assumption) ?_ | refine sound_of_optSnd (by with_reducible assumption) ?_
    | refine sound_snd (by with_reducible assumption) ?_ | refine sound_fst (by with_reducible assumption) ?_
    | split
    | dsimp -zeta only
    | with_reducible refine State.sound_mk ?_ rfl rfl rfl rfl rfl rfl rfl

theorem State.powerUp_sound (s : State) (b : BringUp) (last : Nat) (hs : s.sound = true) :
    (State.powerUp s b last).sound = true := by
  delta State.powerUp
  repeat' first
    | with_reducible assumption
    | (lift_lets -underBinder; intro x; refine have hx : x.sound = true := ?_; ?_; (unfold x); rotate_left; clear_value x; rotate_right) | (lift_lets -underBinder; intro x; clear_value x)
    | (refine fun _ => ?_; intros; try dsimp -zeta only)
    | with_reducible apply State.wr_sound
    | with_reducible apply State.upCar_sound
    | with_reducible apply State.newMemoryKeys_sound
    | with_reducible apply State.bootFw_sound
    | with_reducible apply State.setRef_sound
    | with_reducible apply State.refEvent_sound
    | with_reducible apply State.sampleStraps_sound
    | with_reducible apply State.setPhase_sound
    | with_reducible apply State.diesReady_sound
    | with_reducible apply State.waitImage_sound
    | with_reducible apply sound_ite
    | refine sound_snd (by with_reducible assumption) ?_ | refine sound_fst (by with_reducible assumption) ?_
    | split
    | dsimp -zeta only
    | with_reducible refine State.sound_mk ?_ rfl rfl rfl rfl rfl rfl rfl

theorem powerOn_sound (b : BringUp) (s : State) (hs : s.sound = true) :
    (powerOn b s).sound = true := by
  delta powerOn
  repeat' first
    | with_reducible assumption
    | with_reducible apply State.powerOnClear_sound
    | with_reducible apply State.powerUp_sound
    | dsimp -zeta only

theorem State.releasePins_sound (s : State) (hs : s.sound = true) :
    (State.releasePins s).sound = true := by
  delta State.releasePins
  repeat' first
    | with_reducible assumption
    | with_reducible apply State.drive_sound
    | dsimp -zeta only

theorem pwrgoodFall_sound (s : State) (hs : s.sound = true) :
    (pwrgoodFall s).sound = true := by
  delta pwrgoodFall
  repeat' first
    | with_reducible assumption
    | (refine fun _ => ?_; intros; try dsimp -zeta only)
    | with_reducible apply State.upCar_sound
    | with_reducible apply State.powerOnClear_sound
    | with_reducible apply State.releasePins_sound
    | dsimp -zeta only
    | with_reducible refine State.sound_mk ?_ rfl rfl rfl rfl rfl rfl rfl

theorem resetN_sound (b : BringUp) (s : State) (hs : s.sound = true) :
    (resetN b s).sound = true := by
  delta resetN
  repeat' first
    | with_reducible assumption
    | with_reducible apply State.powerOnClear_sound
    | with_reducible apply State.powerUp_sound
    | with_reducible apply State.releasePins_sound
    | with_reducible apply sound_ite
    | dsimp -zeta only

theorem bothRefsLost_sound (b : BringUp) (s : State) (hs : s.sound = true) :
    (bothRefsLost b s).sound = true := by
  delta bothRefsLost
  repeat' first
    | with_reducible assumption
    | with_reducible apply State.wr_sound
    | with_reducible apply State.powerOnClear_sound
    | with_reducible apply State.powerUp_sound
    | with_reducible apply State.releasePins_sound
    | with_reducible apply sound_ite
    | refine sound_of_opt (by with_reducible assumption) ?_ | refine sound_of_optSnd (by with_reducible assumption) ?_
    | refine sound_snd (by with_reducible assumption) ?_ | refine sound_fst (by with_reducible assumption) ?_
    | split
    | dsimp -zeta only
    | with_reducible refine State.sound_mk ?_ rfl rfl rfl rfl rfl rfl rfl

theorem bringupHwFail_sound (dies links : Nat) (s : State) (hs : s.sound = true) :
    (bringupHwFail dies links s).sound = true := by
  delta bringupHwFail
  repeat' first
    | with_reducible assumption
    | (lift_lets -underBinder; intro x; refine have hx : x.sound = true := ?_; ?_; (unfold x); rotate_left; clear_value x; rotate_right) | (lift_lets -underBinder; intro x; clear_value x)
    | (refine fun _ => ?_; intros; try dsimp -zeta only)
    | with_reducible apply State.wr_sound
    | with_reducible apply State.upCar_sound
    | with_reducible apply State.setPhase_sound
    | with_reducible apply sound_ite
    | refine sound_snd (by with_reducible assumption) ?_ | refine sound_fst (by with_reducible assumption) ?_
    | split
    | dsimp -zeta only
    | with_reducible refine State.sound_mk ?_ rfl rfl rfl rfl rfl rfl rfl

theorem State.dropPrefixRefs_sound (s : State) (hs : s.sound = true) :
    (State.dropPrefixRefs s).sound = true := by
  delta State.dropPrefixRefs
  repeat' first
    | with_reducible assumption
    | (refine fun _ => ?_; intros; try dsimp -zeta only)
    | with_reducible apply State.prefixRef_sound
    | with_reducible apply prefixRef_sound
    | with_reducible apply foldl_sound | with_reducible apply foldl_sound_fst | with_reducible apply foldl_sound_snd
    | split
    | dsimp -zeta only

theorem State.emptyPool_sound (s : State) (hs : s.sound = true) :
    (State.emptyPool s).sound = true := by
  delta State.emptyPool
  repeat' first
    | with_reducible assumption
    | (lift_lets -underBinder; intro x; refine have hx : x.sound = true := ?_; ?_; (unfold x); rotate_left; clear_value x; rotate_right) | (lift_lets -underBinder; intro x; clear_value x)
    | (refine fun _ => ?_; intros; try dsimp -zeta only)
    | with_reducible apply State.wr_sound
    | with_reducible apply State.keepFields_sound
    | with_reducible apply State.newMemoryKeys_sound
    | with_reducible apply State.clearPool_sound
    | refine sound_snd (by with_reducible assumption) ?_ | refine sound_fst (by with_reducible assumption) ?_
    | split
    | dsimp -zeta only
    | with_reducible refine State.sound_mk ?_ rfl rfl rfl rfl rfl rfl rfl

theorem State.clearCar_sound (s : State) (hs : s.sound = true) :
    (State.clearCar s).sound = true := by
  delta State.clearCar
  repeat' first
    | with_reducible assumption
    | (refine fun _ => ?_; intros; try dsimp -zeta only)
    | with_reducible apply State.upCar_sound
    | dsimp -zeta only
    | with_reducible refine State.sound_mk ?_ rfl rfl rfl rfl rfl rfl rfl

theorem State.copyFatal_sound (s : State) (hs : s.sound = true) :
    (State.copyFatal s).sound = true := by
  delta State.copyFatal
  repeat' first
    | with_reducible assumption
    | (refine fun _ => ?_; intros; try dsimp -zeta only)
    | with_reducible apply State.flashAppend_sound
    | with_reducible apply sound_ite
    | dsimp -zeta only

theorem State.warmClear_sound (s : State) (fatal : Bool) (hs : s.sound = true) :
    (State.warmClear s fatal).sound = true := by
  delta State.warmClear
  repeat' first
    | with_reducible assumption
    | (lift_lets -underBinder; intro x; refine have hx : x.sound = true := ?_; ?_; (unfold x); rotate_left; clear_value x; rotate_right) | (lift_lets -underBinder; intro x; clear_value x)
    | (refine fun _ => ?_; intros; try dsimp -zeta only)
    | with_reducible apply State.wr_sound
    | with_reducible apply State.upSec_sound
    | with_reducible apply State.keepFields_sound
    | with_reducible apply State.clearFabric_sound
    | with_reducible apply State.clearWork_sound
    | with_reducible apply State.clearFlight_sound
    | with_reducible apply State.clearLoads_sound
    | with_reducible apply State.syncSessions_sound
    | with_reducible apply State.endSession_sound
    | with_reducible apply State.syncPriv_sound
    | with_reducible apply State.syncLoad_sound
    | with_reducible apply State.dropPrefixRefs_sound
    | with_reducible apply State.emptyPool_sound
    | with_reducible apply State.clearCar_sound
    | with_reducible apply State.copyFatal_sound
    | with_reducible apply sound_ite
    | with_reducible apply optSound_getD
    | with_reducible apply foldl_sound | with_reducible apply foldl_sound_fst | with_reducible apply foldl_sound_snd
    | refine sound_snd (by with_reducible assumption) ?_ | refine sound_fst (by with_reducible assumption) ?_
    | split
    | dsimp -zeta only
    | with_reducible refine State.sound_mk ?_ rfl rfl rfl rfl rfl rfl rfl

theorem State.warmReset_sound (s : State) (cause : Nat) (b : BringUp) (hs : s.sound = true) :
    (State.warmReset s cause b).sound = true := by
  delta State.warmReset
  repeat' first
    | with_reducible assumption
    | (lift_lets -underBinder; intro x; refine have hx : x.sound = true := ?_; ?_; (unfold x); rotate_left; clear_value x; rotate_right) | (lift_lets -underBinder; intro x; clear_value x)
    | (refine fun _ => ?_; intros; try dsimp -zeta only)
    | with_reducible apply State.wr_sound
    | with_reducible apply State.wrb_sound
    | with_reducible apply State.bump_sound
    | with_reducible apply State.upCar_sound
    | with_reducible apply State.upImg_sound
    | with_reducible apply State.usageReport_sound
    | with_reducible apply State.loadEnd_sound
    | with_reducible apply State.loadAnswer_sound
    | with_reducible apply State.bootFw_sound
    | with_reducible apply State.setPhase_sound
    | with_reducible apply State.diesReady_sound
    | with_reducible apply State.waitImage_sound
    | with_reducible apply State.warmClear_sound
    | with_reducible apply sound_ite
    | refine sound_of_opt (by with_reducible assumption) ?_ | refine sound_of_optSnd (by with_reducible assumption) ?_
    | refine sound_snd (by with_reducible assumption) ?_ | refine sound_fst (by with_reducible assumption) ?_
    | split
    | dsimp -zeta only
    | with_reducible refine State.sound_mk ?_ rfl rfl rfl rfl rfl rfl rfl

theorem State.warmRequest_sound (s : State) (cause : Nat) (b : BringUp) (hs : s.sound = true) :
    (State.warmRequest s cause b).sound = true := by
  delta State.warmRequest
  repeat' first
    | with_reducible assumption
    | (refine fun _ => ?_; intros; try dsimp -zeta only)
    | with_reducible apply State.bump_sound
    | with_reducible apply State.upCar_sound
    | with_reducible apply State.warmReset_sound
    | with_reducible apply sound_ite
    | split
    | dsimp -zeta only
    | with_reducible refine State.sound_mk ?_ rfl rfl rfl rfl rfl rfl rfl

theorem State.continueOp_sound (s : State) (hs : s.sound = true) :
    (State.continueOp s).sound = true := by
  delta State.continueOp
  repeat' first
    | with_reducible assumption
    | with_reducible apply State.setPhase_sound
    | with_reducible apply sound_ite
    | dsimp -zeta only

theorem State.rstCtlOp_sound (s : State) (v : Nat) (b : BringUp) (hs : s.sound = true) :
    (State.rstCtlOp s v b).sound = true := by
  delta State.rstCtlOp
  repeat' first
    | with_reducible assumption
    | (lift_lets -underBinder; intro x; refine have hx : x.sound = true := ?_; ?_; (unfold x); rotate_left; clear_value x; rotate_right) | (lift_lets -underBinder; intro x; clear_value x)
    | with_reducible apply State.wrb_sound
    | with_reducible apply State.bump_sound
    | with_reducible apply State.warmRequest_sound
    | with_reducible apply State.continueOp_sound
    | with_reducible apply sound_ite
    | refine sound_snd (by with_reducible assumption) ?_ | refine sound_fst (by with_reducible assumption) ?_
    | split
    | dsimp -zeta only

theorem warm_sound (a : Access) (key : Nat) (hold : Bool) (b : BringUp) (s : State) (hs : s.sound = true) :
    (warm a key hold b s).sound = true := by
  delta warm
  repeat' first
    | with_reducible assumption
    | (refine fun _ => ?_; intros; try dsimp -zeta only)
    | with_reducible apply State.window_sound
    | with_reducible apply State.rstCtlOp_sound
    | dsimp -zeta only

theorem continueRow_sound (a : Access) (hold : Bool) (s : State) (hs : s.sound = true) :
    (continueRow a hold s).sound = true := by
  delta continueRow
  repeat' first
    | with_reducible assumption
    | (refine fun _ => ?_; intros; try dsimp -zeta only)
    | with_reducible apply State.window_sound
    | with_reducible apply State.rstCtlOp_sound
    | dsimp -zeta only

theorem fatalAutoRestart_sound (b : BringUp) (s : State) (hs : s.sound = true) :
    (fatalAutoRestart b s).sound = true := by
  delta fatalAutoRestart
  repeat' first
    | with_reducible assumption
    | (lift_lets -underBinder; intro x; refine have hx : x.sound = true := ?_; ?_; (unfold x); rotate_left; clear_value x; rotate_right) | (lift_lets -underBinder; intro x; clear_value x)
    | with_reducible apply State.warmRequest_sound
    | with_reducible apply warm_sound
    | with_reducible apply sound_ite
    | refine sound_snd (by with_reducible assumption) ?_ | refine sound_fst (by with_reducible assumption) ?_
    | split
    | dsimp -zeta only

theorem State.traysDone_sound (s : State) (hs : s.sound = true) :
    (State.traysDone s).sound = true := by
  delta State.traysDone
  repeat' first
    | with_reducible assumption
    | with_reducible apply State.setPhase_sound
    | with_reducible apply sound_ite
    | dsimp -zeta only

theorem State.leaveTrayDown_sound (s : State) (t cause : Nat) (hs : s.sound = true) :
    (State.leaveTrayDown s t cause).sound = true := by
  delta State.leaveTrayDown
  repeat' first
    | with_reducible assumption
    | (lift_lets -underBinder; intro x; refine have hx : x.sound = true := ?_; ?_; (unfold x); rotate_left; clear_value x; rotate_right) | (lift_lets -underBinder; intro x; clear_value x)
    | (refine fun _ => ?_; intros; try dsimp -zeta only)
    | with_reducible apply State.upPool_sound
    | with_reducible apply State.event_sound
    | refine sound_snd (by with_reducible assumption) ?_ | refine sound_fst (by with_reducible assumption) ?_
    | split
    | dsimp -zeta only
    | with_reducible refine State.sound_mk ?_ rfl rfl rfl rfl rfl rfl rfl

theorem State.enumerate_sound (s : State) (f : TrayFound) (hs : s.sound = true) :
    (State.enumerate s f).sound = true := by
  delta State.enumerate
  repeat' first
    | with_reducible assumption
    | (lift_lets -underBinder; intro x; refine have hx : x.sound = true := ?_; ?_; (unfold x); rotate_left; clear_value x; rotate_right) | (lift_lets -underBinder; intro x; clear_value x)
    | (refine fun _ => ?_; intros; try dsimp -zeta only)
    | with_reducible apply State.wr_sound
    | with_reducible apply State.emit_sound
    | with_reducible apply State.upPool_sound
    | with_reducible apply State.upSec_sound
    | with_reducible apply State.leaveTrayDown_sound
    | with_reducible apply sound_ite
    | refine sound_snd (by with_reducible assumption) ?_ | refine sound_fst (by with_reducible assumption) ?_
    | split
    | dsimp -zeta only
    | with_reducible refine State.sound_mk ?_ rfl rfl rfl rfl rfl rfl rfl

theorem trayEnumeration_sound (found : List TrayFound) (s : State) (hs : s.sound = true) :
    (trayEnumeration found s).sound = true := by
  delta trayEnumeration
  repeat' first
    | with_reducible assumption
    | (lift_lets -underBinder; intro x; refine have hx : x.sound = true := ?_; ?_; (unfold x); rotate_left; clear_value x; rotate_right) | (lift_lets -underBinder; intro x; clear_value x)
    | (refine fun _ => ?_; intros; try dsimp -zeta only)
    | with_reducible apply State.wr_sound
    | with_reducible apply State.upPool_sound
    | with_reducible apply State.upSec_sound
    | with_reducible apply State.traysDone_sound
    | with_reducible apply State.enumerate_sound
    | with_reducible apply sound_ite
    | with_reducible apply optSound_getD
    | with_reducible apply foldl_sound | with_reducible apply foldl_sound_fst | with_reducible apply foldl_sound_snd
    | refine sound_snd (by with_reducible assumption) ?_ | refine sound_fst (by with_reducible assumption) ?_
    | split
    | dsimp -zeta only
    | with_reducible refine State.sound_mk ?_ rfl rfl rfl rfl rfl rfl rfl

theorem State.sanitizeEnd_sound (s : State) (t : Nat) (ok : Bool) (hs : s.sound = true) :
    (State.sanitizeEnd s t ok).sound = true := by
  delta State.sanitizeEnd
  repeat' first
    | with_reducible assumption
    | (lift_lets -underBinder; intro x; refine have hx : x.sound = true := ?_; ?_; (unfold x); rotate_left; clear_value x; rotate_right) | (lift_lets -underBinder; intro x; clear_value x)
    | (refine fun _ => ?_; intros; try dsimp -zeta only)
    | with_reducible apply State.wr_sound
    | with_reducible apply State.upSec_sound
    | with_reducible apply State.traysDone_sound
    | with_reducible apply State.leaveTrayDown_sound
    | with_reducible apply sound_ite
    | refine sound_snd (by with_reducible assumption) ?_ | refine sound_fst (by with_reducible assumption) ?_
    | split
    | dsimp -zeta only
    | with_reducible refine State.sound_mk ?_ rfl rfl rfl rfl rfl rfl rfl

theorem traySanitizeDone_sound (t : Nat) (ok : Bool) (s : State) (hs : s.sound = true) :
    (traySanitizeDone t ok s).sound = true := by
  delta traySanitizeDone
  repeat' first
    | with_reducible assumption
    | with_reducible apply State.sanitizeEnd_sound
    | with_reducible apply sound_ite
    | dsimp -zeta only

theorem traySanitizeTimeout_sound (t : Nat) (s : State) (hs : s.sound = true) :
    (traySanitizeTimeout t s).sound = true := by
  delta traySanitizeTimeout
  repeat' first
    | with_reducible assumption
    | with_reducible apply State.sanitizeEnd_sound
    | with_reducible apply sound_ite
    | refine sound_of_opt (by with_reducible assumption) ?_ | refine sound_of_optSnd (by with_reducible assumption) ?_
    | refine sound_snd (by with_reducible assumption) ?_ | refine sound_fst (by with_reducible assumption) ?_
    | split
    | dsimp -zeta only
    | with_reducible refine State.sound_mk ?_ rfl rfl rfl rfl rfl rfl rfl

theorem State.settleMoves_sound (s : State) (hs : s.sound = true) :
    (State.settleMoves s).sound = true := by
  delta State.settleMoves
  repeat' first
    | with_reducible assumption
    | (lift_lets -underBinder; intro x; refine have hx : x.sound = true := ?_; ?_; (unfold x); rotate_left; clear_value x; rotate_right) | (lift_lets -underBinder; intro x; clear_value x)
    | (refine fun _ => ?_; intros; try dsimp -zeta only)
    | with_reducible apply State.wr_sound
    | with_reducible apply State.upPool_sound
    | with_reducible apply State.releaseMove_sound
    | with_reducible apply foldl_sound | with_reducible apply foldl_sound_fst | with_reducible apply foldl_sound_snd
    | refine sound_snd (by with_reducible assumption) ?_ | refine sound_fst (by with_reducible assumption) ?_
    | split
    | dsimp -zeta only
    | with_reducible refine State.sound_mk ?_ rfl rfl rfl rfl rfl rfl rfl

theorem State.settlePlaces_sound (s : State) (hs : s.sound = true) :
    (State.settlePlaces s).sound = true := by
  delta State.settlePlaces
  repeat' first
    | with_reducible assumption
    | (lift_lets -underBinder; intro x; refine have hx : x.sound = true := ?_; ?_; (unfold x); rotate_left; clear_value x; rotate_right) | (lift_lets -underBinder; intro x; clear_value x)
    | (refine fun _ => ?_; intros; try dsimp -zeta only)
    | with_reducible apply State.wr_sound
    | with_reducible apply State.bump_sound
    | with_reducible apply State.upXbr_sound
    | with_reducible apply State.freeExtent_sound
    | with_reducible apply State.deleteRegion_sound
    | with_reducible apply sound_ite
    | with_reducible apply optSound_getD
    | with_reducible apply foldl_sound | with_reducible apply foldl_sound_fst | with_reducible apply foldl_sound_snd
    | refine sound_of_opt (by with_reducible assumption) ?_ | refine sound_of_optSnd (by with_reducible assumption) ?_
    | refine sound_snd (by with_reducible assumption) ?_ | refine sound_fst (by with_reducible assumption) ?_
    | split
    | dsimp -zeta only
    | with_reducible refine State.sound_mk ?_ rfl rfl rfl rfl rfl rfl rfl

theorem State.settleLeases_sound (s : State) (hs : s.sound = true) :
    (State.settleLeases s).sound = true := by
  delta State.settleLeases
  repeat' first
    | with_reducible assumption
    | (lift_lets -underBinder; intro x; refine have hx : x.sound = true := ?_; ?_; (unfold x); rotate_left; clear_value x; rotate_right) | (lift_lets -underBinder; intro x; clear_value x)
    | (refine fun _ => ?_; intros; try dsimp -zeta only)
    | with_reducible apply State.bump_sound
    | with_reducible apply State.event_sound
    | with_reducible apply State.freeExtent_sound
    | with_reducible apply State.upLease_sound
    | with_reducible apply State.police_sound
    | with_reducible apply sound_ite
    | with_reducible apply foldl_sound | with_reducible apply foldl_sound_fst | with_reducible apply foldl_sound_snd
    | refine sound_snd (by with_reducible assumption) ?_ | refine sound_fst (by with_reducible assumption) ?_
    | split
    | dsimp -zeta only
    | with_reducible refine State.sound_mk ?_ rfl rfl rfl rfl rfl rfl rfl

theorem State.noteTrayFree_sound (s : State) (hs : s.sound = true) :
    (State.noteTrayFree s).sound = true := by
  delta State.noteTrayFree
  repeat' first
    | with_reducible assumption
    | (lift_lets -underBinder; intro x; refine have hx : x.sound = true := ?_; ?_; (unfold x); rotate_left; clear_value x; rotate_right) | (lift_lets -underBinder; intro x; clear_value x)
    | (refine fun _ => ?_; intros; try dsimp -zeta only)
    | with_reducible apply State.wr_sound
    | with_reducible apply State.scrub_sound
    | with_reducible apply sound_ite
    | refine sound_snd (by with_reducible assumption) ?_ | refine sound_fst (by with_reducible assumption) ?_
    | split
    | dsimp -zeta only

theorem State.powerPorts_sound (s : State) (hs : s.sound = true) :
    (State.powerPorts s).sound = true := by
  delta State.powerPorts
  repeat' first
    | with_reducible assumption
    | (lift_lets -underBinder; intro x; refine have hx : x.sound = true := ?_; ?_; (unfold x); rotate_left; clear_value x; rotate_right) | (lift_lets -underBinder; intro x; clear_value x)
    | (refine fun _ => ?_; intros; try dsimp -zeta only)
    | with_reducible apply State.wr_sound
    | with_reducible apply State.upPort_sound
    | with_reducible apply sound_ite
    | with_reducible apply foldl_sound | with_reducible apply foldl_sound_fst | with_reducible apply foldl_sound_snd
    | refine sound_snd (by with_reducible assumption) ?_ | refine sound_fst (by with_reducible assumption) ?_
    | split
    | dsimp -zeta only
    | with_reducible refine State.sound_mk ?_ rfl rfl rfl rfl rfl rfl rfl

theorem apply_sound (s : State) (hs : s.sound = true) :
    (apply s).sound = true := by
  delta apply
  repeat' first
    | with_reducible assumption
    | (lift_lets -underBinder; intro x; refine have hx : x.sound = true := ?_; ?_; (unfold x); rotate_left; clear_value x; rotate_right) | (lift_lets -underBinder; intro x; clear_value x)
    | with_reducible apply State.applyFull_sound
    | with_reducible apply State.quiesceAll_sound
    | with_reducible apply State.trayShortfall_sound
    | with_reducible apply State.setPhase_sound
    | with_reducible apply State.settleMoves_sound
    | with_reducible apply State.settlePlaces_sound
    | with_reducible apply State.settleLeases_sound
    | with_reducible apply State.noteTrayFree_sound
    | with_reducible apply State.powerPorts_sound
    | with_reducible apply sound_ite
    | refine sound_of_opt (by with_reducible assumption) ?_ | refine sound_of_optSnd (by with_reducible assumption) ?_
    | refine sound_snd (by with_reducible assumption) ?_ | refine sound_fst (by with_reducible assumption) ?_
    | split
    | dsimp -zeta only
    | with_reducible refine State.sound_mk ?_ rfl rfl rfl rfl rfl rfl rfl

theorem portsTrained_sound (s : State) (hs : s.sound = true) :
    (portsTrained s).sound = true := by
  delta portsTrained
  repeat' first
    | with_reducible assumption
    | (lift_lets -underBinder; intro x; refine have hx : x.sound = true := ?_; ?_; (unfold x); rotate_left; clear_value x; rotate_right) | (lift_lets -underBinder; intro x; clear_value x)
    | (refine fun _ => ?_; intros; try dsimp -zeta only)
    | with_reducible apply State.upCar_sound
    | with_reducible apply State.upPort_sound
    | with_reducible apply State.setPhase_sound
    | with_reducible apply State.noteBringTime_sound
    | with_reducible apply warm_sound
    | with_reducible apply sound_ite
    | with_reducible apply foldl_sound | with_reducible apply foldl_sound_fst | with_reducible apply foldl_sound_snd
    | refine sound_snd (by with_reducible assumption) ?_ | refine sound_fst (by with_reducible assumption) ?_
    | split
    | dsimp -zeta only
    | with_reducible refine State.sound_mk ?_ rfl rfl rfl rfl rfl rfl rfl

theorem fenImageApplyRow_sound (s : State) (hs : s.sound = true) :
    (fenImageApplyRow s).sound = true := by
  delta fenImageApplyRow
  repeat' first
    | with_reducible assumption
    | (lift_lets -underBinder; intro x; refine have hx : x.sound = true := ?_; ?_; (unfold x); rotate_left; clear_value x; rotate_right) | (lift_lets -underBinder; intro x; clear_value x)
    | (refine fun _ => ?_; intros; try dsimp -zeta only)
    | with_reducible apply State.upCar_sound
    | with_reducible apply State.fenImageApply_sound
    | with_reducible apply State.warmReset_sound
    | with_reducible apply sound_ite
    | refine sound_of_opt (by with_reducible assumption) ?_ | refine sound_of_optSnd (by with_reducible assumption) ?_
    | refine sound_snd (by with_reducible assumption) ?_ | refine sound_fst (by with_reducible assumption) ?_
    | split
    | dsimp -zeta only
    | with_reducible refine State.sound_mk ?_ rfl rfl rfl rfl rfl rfl rfl

theorem State.fenResetEnd_sound (s : State) (hs : s.sound = true) :
    (State.fenResetEnd s).sound = true := by
  delta State.fenResetEnd
  repeat' first
    | with_reducible assumption
    | (lift_lets -underBinder; intro x; refine have hx : x.sound = true := ?_; ?_; (unfold x); rotate_left; clear_value x; rotate_right) | (lift_lets -underBinder; intro x; clear_value x)
    | (refine fun _ => ?_; intros; try dsimp -zeta only)
    | with_reducible apply State.wr_sound
    | with_reducible apply State.upCar_sound
    | with_reducible apply State.quiesceOp_sound
    | with_reducible apply sound_ite
    | with_reducible apply foldl_sound | with_reducible apply foldl_sound_fst | with_reducible apply foldl_sound_snd
    | refine sound_of_opt (by with_reducible assumption) ?_ | refine sound_of_optSnd (by with_reducible assumption) ?_
    | refine sound_snd (by with_reducible assumption) ?_ | refine sound_fst (by with_reducible assumption) ?_
    | split
    | dsimp -zeta only
    | with_reducible refine State.sound_mk ?_ rfl rfl rfl rfl rfl rfl rfl

theorem State.fenResetOp_sound (s : State) (f : Nat) (hs : s.sound = true) :
    (State.fenResetOp s f).sound = true := by
  delta State.fenResetOp
  repeat' first
    | with_reducible assumption
    | (lift_lets -underBinder; intro x; refine have hx : x.sound = true := ?_; ?_; (unfold x); rotate_left; clear_value x; rotate_right) | (lift_lets -underBinder; intro x; clear_value x)
    | (refine fun _ => ?_; intros; try dsimp -zeta only)
    | with_reducible apply State.wr_sound
    | with_reducible apply State.upAtt_sound
    | with_reducible apply State.upCkp_sound
    | with_reducible apply State.upCar_sound
    | with_reducible apply State.upLease_sound
    | with_reducible apply State.syncPages_sound
    | with_reducible apply State.leaveNow_sound
    | with_reducible apply State.killCmd_sound
    | with_reducible apply State.deleteRegion_sound
    | with_reducible apply State.fenResetEnd_sound
    | with_reducible apply sound_ite
    | with_reducible apply foldl_sound | with_reducible apply foldl_sound_fst | with_reducible apply foldl_sound_snd
    | refine sound_snd (by with_reducible assumption) ?_ | refine sound_fst (by with_reducible assumption) ?_
    | split
    | dsimp -zeta only
    | with_reducible refine State.sound_mk ?_ rfl rfl rfl rfl rfl rfl rfl

theorem fenReset_sound (a : Access) (f : Nat) (s : State) (hs : s.sound = true) :
    (fenReset a f s).sound = true := by
  delta fenReset
  repeat' first
    | with_reducible assumption
    | (refine fun _ => ?_; intros; try dsimp -zeta only)
    | with_reducible apply State.window_sound
    | with_reducible apply State.fenResetOp_sound
    | dsimp -zeta only

end Sys2Proof.Machine
end

