-- ==== Sys2Proof/Laws/Sound/Pairs.lean ====
section
/-!
SUPPORT. Soundness is kept by every operation of Machine/Pairs.lean.
-/
namespace Sys2Proof.Machine

set_option maxHeartbeats 40000

theorem State.upPair_sound (s : State) (p : Nat) (f : CarPair → CarPair) (hs : s.sound = true) :
    (State.upPair s p f).sound = true := by
  delta State.upPair
  repeat' first
    | with_reducible assumption
    | (refine fun _ => ?_; intros; try dsimp -zeta only)
    | with_reducible apply State.upCar_sound
    | with_reducible apply sound_ite
    | dsimp -zeta only
    | with_reducible refine State.sound_mk ?_ rfl rfl rfl rfl rfl rfl rfl

theorem State.setCp_sound (s : State) (p v : Nat) (hs : s.sound = true) :
    (State.setCp s p v).sound = true := by
  delta State.setCp
  repeat' first
    | with_reducible assumption
    | with_reducible apply State.wr_sound
    | with_reducible apply sound_ite
    | dsimp -zeta only

theorem State.managementLost_sound (s : State) (hs : s.sound = true) :
    (State.managementLost s).sound = true := by
  delta State.managementLost
  repeat' first
    | with_reducible assumption
    | (lift_lets -underBinder; intro x; refine have hx : x.sound = true := ?_; ?_; (unfold x); rotate_left; clear_value x; rotate_right) | (lift_lets -underBinder; intro x; clear_value x)
    | (refine fun _ => ?_; intros; try dsimp -zeta only)
    | with_reducible apply State.upCar_sound
    | with_reducible apply State.upImg_sound
    | with_reducible apply State.endSession_sound
    | with_reducible apply State.syncPriv_sound
    | with_reducible apply State.syncLoad_sound
    | with_reducible apply State.loadEnd_sound
    | with_reducible apply foldl_sound | with_reducible apply foldl_sound_fst | with_reducible apply foldl_sound_snd
    | refine sound_of_opt (by with_reducible assumption) ?_ | refine sound_of_optSnd (by with_reducible assumption) ?_
    | refine sound_snd (by with_reducible assumption) ?_ | refine sound_fst (by with_reducible assumption) ?_
    | split
    | dsimp -zeta only
    | with_reducible refine State.sound_mk ?_ rfl rfl rfl rfl rfl rfl rfl

theorem State.pairDown_sound (s : State) (p to_ : Nat) (hs : s.sound = true) :
    (State.pairDown s p to_).sound = true := by
  delta State.pairDown
  repeat' first
    | with_reducible assumption
    | (lift_lets -underBinder; intro x; refine have hx : x.sound = true := ?_; ?_; (unfold x); rotate_left; clear_value x; rotate_right) | (lift_lets -underBinder; intro x; clear_value x)
    | (refine fun _ => ?_; intros; try dsimp -zeta only)
    | with_reducible apply State.upFw_sound
    | with_reducible apply State.setCp_sound
    | with_reducible apply State.managementLost_sound
    | with_reducible apply sound_ite
    | refine sound_snd (by with_reducible assumption) ?_ | refine sound_fst (by with_reducible assumption) ?_
    | split
    | dsimp -zeta only
    | with_reducible refine State.sound_mk ?_ rfl rfl rfl rfl rfl rfl rfl

theorem State.pairLost_sound (s : State) (p : Nat) (hs : s.sound = true) :
    (State.pairLost s p).sound = true := by
  delta State.pairLost
  repeat' first
    | with_reducible assumption
    | (lift_lets -underBinder; intro x; refine have hx : x.sound = true := ?_; ?_; (unfold x); rotate_left; clear_value x; rotate_right) | (lift_lets -underBinder; intro x; clear_value x)
    | with_reducible apply State.wr_sound
    | with_reducible apply State.carEvent_sound
    | with_reducible apply State.pairDown_sound
    | with_reducible apply sound_ite
    | refine sound_snd (by with_reducible assumption) ?_ | refine sound_fst (by with_reducible assumption) ?_
    | split
    | dsimp -zeta only

theorem lockstep_sound (p : Nat) (s : State) (hs : s.sound = true) :
    (lockstep p s).sound = true := by
  delta lockstep
  repeat' first
    | with_reducible assumption
    | (lift_lets -underBinder; intro x; refine have hx : x.sound = true := ?_; ?_; (unfold x); rotate_left; clear_value x; rotate_right) | (lift_lets -underBinder; intro x; clear_value x)
    | (refine fun _ => ?_; intros; try dsimp -zeta only)
    | with_reducible apply State.bump_sound
    | with_reducible apply State.carEvent_sound
    | with_reducible apply State.charge_sound
    | with_reducible apply State.upPair_sound
    | with_reducible apply State.pairDown_sound
    | with_reducible apply State.pairLost_sound
    | with_reducible apply sound_ite
    | refine sound_of_opt (by with_reducible assumption) ?_ | refine sound_of_optSnd (by with_reducible assumption) ?_
    | refine sound_snd (by with_reducible assumption) ?_ | refine sound_fst (by with_reducible assumption) ?_
    | split
    | dsimp -zeta only
    | with_reducible refine State.sound_mk ?_ rfl rfl rfl rfl rfl rfl rfl

theorem pairRestart_sound (p : Nat) (s : State) (hs : s.sound = true) :
    (pairRestart p s).sound = true := by
  delta pairRestart
  repeat' first
    | with_reducible assumption
    | (lift_lets -underBinder; intro x; refine have hx : x.sound = true := ?_; ?_; (unfold x); rotate_left; clear_value x; rotate_right) | (lift_lets -underBinder; intro x; clear_value x)
    | (refine fun _ => ?_; intros; try dsimp -zeta only)
    | with_reducible apply State.wr_sound
    | with_reducible apply State.upFw_sound
    | with_reducible apply State.upPair_sound
    | with_reducible apply State.setCp_sound
    | with_reducible apply sound_ite
    | refine sound_snd (by with_reducible assumption) ?_ | refine sound_fst (by with_reducible assumption) ?_
    | split
    | dsimp -zeta only
    | with_reducible refine State.sound_mk ?_ rfl rfl rfl rfl rfl rfl rfl

theorem carWatchdog_sound (p : Nat) (s : State) (hs : s.sound = true) :
    (carWatchdog p s).sound = true := by
  delta carWatchdog
  repeat' first
    | with_reducible assumption
    | (lift_lets -underBinder; intro x; refine have hx : x.sound = true := ?_; ?_; (unfold x); rotate_left; clear_value x; rotate_right) | (lift_lets -underBinder; intro x; clear_value x)
    | with_reducible apply State.bump_sound
    | with_reducible apply State.carEvent_sound
    | with_reducible apply State.pairDown_sound
    | with_reducible apply sound_ite
    | refine sound_snd (by with_reducible assumption) ?_ | refine sound_fst (by with_reducible assumption) ?_
    | split
    | dsimp -zeta only

theorem carKick_sound (p : Nat) (s : State) (hs : s.sound = true) :
    (carKick p s).sound = true := by
  delta carKick
  repeat' first
    | with_reducible assumption
    | (refine fun _ => ?_; intros; try dsimp -zeta only)
    | with_reducible apply State.upPair_sound
    | dsimp -zeta only
    | with_reducible refine State.sound_mk ?_ rfl rfl rfl rfl rfl rfl rfl

theorem accessFaultRetry_sound (p : Nat) (fails : Bool) (op : Option Nat) (s : State) (hs : s.sound = true) :
    (accessFaultRetry p fails op s).sound = true := by
  delta accessFaultRetry
  repeat' first
    | with_reducible assumption
    | (lift_lets -underBinder; intro x; refine have hx : x.sound = true := ?_; ?_; (unfold x); rotate_left; clear_value x; rotate_right) | (lift_lets -underBinder; intro x; clear_value x)
    | (refine fun _ => ?_; intros; try dsimp -zeta only)
    | with_reducible apply State.upFlt_sound
    | with_reducible apply State.upImg_sound
    | with_reducible apply State.biteVictim_sound
    | with_reducible apply State.loadEnd_sound
    | with_reducible apply State.loadAnswer_sound
    | with_reducible apply sound_ite
    | refine sound_of_opt (by with_reducible assumption) ?_ | refine sound_of_optSnd (by with_reducible assumption) ?_
    | refine sound_snd (by with_reducible assumption) ?_ | refine sound_fst (by with_reducible assumption) ?_
    | split
    | dsimp -zeta only
    | with_reducible refine State.sound_mk ?_ rfl rfl rfl rfl rfl rfl rfl

theorem crcInit_sound (p : Nat) (s : State) (hs : s.sound = true) :
    (crcInit p s).sound = true := by
  delta crcInit
  repeat' first
    | with_reducible assumption
    | (refine fun _ => ?_; intros; try dsimp -zeta only)
    | with_reducible apply State.upPair_sound
    | dsimp -zeta only
    | with_reducible refine State.sound_mk ?_ rfl rfl rfl rfl rfl rfl rfl

theorem crcFeed_sound (p n v : Nat) (s : State) (hs : s.sound = true) :
    (crcFeed p n v s).sound = true := by
  delta crcFeed
  repeat' first
    | with_reducible assumption
    | (refine fun _ => ?_; intros; try dsimp -zeta only)
    | with_reducible apply State.upPair_sound
    | with_reducible apply foldl_sound | with_reducible apply foldl_sound_fst | with_reducible apply foldl_sound_snd
    | dsimp -zeta only
    | with_reducible refine State.sound_mk ?_ rfl rfl rfl rfl rfl rfl rfl

theorem crcResult_sound (p : Nat) (s : State) (hs : s.sound = true) :
    (crcResult p s).sound = true := by
  delta crcResult
  repeat' first
    | with_reducible assumption
    | with_reducible apply State.emit_sound
    | dsimp -zeta only

theorem logPersist_sound (s : State) (hs : s.sound = true) :
    (logPersist s).sound = true := by
  delta logPersist
  repeat' first
    | with_reducible assumption
    | (lift_lets -underBinder; intro x; refine have hx : x.sound = true := ?_; ?_; (unfold x); rotate_left; clear_value x; rotate_right) | (lift_lets -underBinder; intro x; clear_value x)
    | (refine fun _ => ?_; intros; try dsimp -zeta only)
    | with_reducible apply State.upFlt_sound
    | with_reducible apply State.flashAppend_sound
    | with_reducible apply State.event_sound
    | with_reducible apply sound_ite
    | refine sound_snd (by with_reducible assumption) ?_ | refine sound_fst (by with_reducible assumption) ?_
    | split
    | dsimp -zeta only
    | with_reducible refine State.sound_mk ?_ rfl rfl rfl rfl rfl rfl rfl

theorem State.syncWaiters_sound (s : State) (i : Nat) (hs : s.sound = true) :
    (State.syncWaiters s i).sound = true := by
  delta State.syncWaiters
  repeat' first
    | with_reducible assumption
    | with_reducible apply State.wrb_sound
    | dsimp -zeta only

theorem State.waitEnd_sound (s : State) (who i status : Nat) (hs : s.sound = true) :
    (State.waitEnd s who i status).sound = true := by
  delta State.waitEnd
  repeat' first
    | with_reducible assumption
    | (lift_lets -underBinder; intro x; refine have hx : x.sound = true := ?_; ?_; (unfold x); rotate_left; clear_value x; rotate_right) | (lift_lets -underBinder; intro x; clear_value x)
    | (refine fun _ => ?_; intros; try dsimp -zeta only)
    | with_reducible apply State.emit_sound
    | with_reducible apply State.upCar_sound
    | with_reducible apply State.syncWaiters_sound
    | with_reducible apply sound_ite
    | refine sound_snd (by with_reducible assumption) ?_ | refine sound_fst (by with_reducible assumption) ?_
    | split
    | dsimp -zeta only
    | with_reducible refine State.sound_mk ?_ rfl rfl rfl rfl rfl rfl rfl

theorem State.semGrant_sound (s : State) (i who : Nat) (hs : s.sound = true) :
    (State.semGrant s i who).sound = true := by
  delta State.semGrant
  repeat' first
    | with_reducible assumption
    | (refine fun _ => ?_; intros; try dsimp -zeta only)
    | with_reducible apply State.wr_sound
    | with_reducible apply State.upCar_sound
    | dsimp -zeta only
    | with_reducible refine State.sound_mk ?_ rfl rfl rfl rfl rfl rfl rfl

theorem State.semFree_sound (s : State) (i : Nat) (hs : s.sound = true) :
    (State.semFree s i).sound = true := by
  delta State.semFree
  repeat' first
    | with_reducible assumption
    | (lift_lets -underBinder; intro x; refine have hx : x.sound = true := ?_; ?_; (unfold x); rotate_left; clear_value x; rotate_right) | (lift_lets -underBinder; intro x; clear_value x)
    | (refine fun _ => ?_; intros; try dsimp -zeta only)
    | with_reducible apply State.wr_sound
    | with_reducible apply State.upCar_sound
    | with_reducible apply State.waitEnd_sound
    | with_reducible apply State.semGrant_sound
    | refine sound_of_opt (by with_reducible assumption) ?_ | refine sound_of_optSnd (by with_reducible assumption) ?_
    | refine sound_snd (by with_reducible assumption) ?_ | refine sound_fst (by with_reducible assumption) ?_
    | split
    | dsimp -zeta only
    | with_reducible refine State.sound_mk ?_ rfl rfl rfl rfl rfl rfl rfl

theorem State.semAcquireOp_sound (s : State) (i who : Nat) (hs : s.sound = true) :
    (State.semAcquireOp s i who).sound = true := by
  delta State.semAcquireOp
  repeat' first
    | with_reducible assumption
    | with_reducible apply State.semGrant_sound
    | with_reducible apply sound_ite
    | dsimp -zeta only

theorem State.readWindow_sound (a : Access) (off : Nat) (act : State → State × Nat) (s : State) (hs : s.sound = true) (h_act : ∀ (x0 : State), x0.sound = true → (act x0).1.sound = true) :
    (State.readWindow a off act s).sound = true := by
  delta State.readWindow
  repeat' first
    | with_reducible assumption
    | (lift_lets -underBinder; intro x; refine have hx : x.sound = true := ?_; ?_; (unfold x); rotate_left; clear_value x; rotate_right) | (lift_lets -underBinder; intro x; clear_value x)
    | (refine fun _ => ?_; intros; try dsimp -zeta only)
    | with_reducible apply h_act
    | with_reducible apply State.emit_sound
    | with_reducible apply State.refuseAccess_sound
    | with_reducible apply sound_ite
    | refine sound_snd (by with_reducible assumption) ?_ | refine sound_fst (by with_reducible assumption) ?_
    | split
    | dsimp -zeta only

theorem semAcquire_sound (a : Access) (i : Nat) (s : State) (hs : s.sound = true) :
    (semAcquire a i s).sound = true := by
  delta semAcquire
  repeat' first
    | with_reducible assumption
    | (lift_lets -underBinder; intro x; refine have hx : x.sound = true := ?_; ?_; (unfold x); rotate_left; clear_value x; rotate_right) | (lift_lets -underBinder; intro x; clear_value x)
    | (refine fun _ => ?_; intros; try dsimp -zeta only)
    | with_reducible apply State.semAcquireOp_sound
    | with_reducible apply State.readWindow_sound
    | with_reducible apply sound_ite
    | refine sound_snd (by with_reducible assumption) ?_ | refine sound_fst (by with_reducible assumption) ?_
    | split
    | dsimp -zeta only

theorem State.semReleaseOp_sound (s : State) (i who : Nat) (hs : s.sound = true) :
    (State.semReleaseOp s i who).sound = true := by
  delta State.semReleaseOp
  repeat' first
    | with_reducible assumption
    | with_reducible apply State.bump_sound
    | with_reducible apply State.semFree_sound
    | with_reducible apply sound_ite
    | dsimp -zeta only

theorem semRelease_sound (a : Access) (i : Nat) (s : State) (hs : s.sound = true) :
    (semRelease a i s).sound = true := by
  delta semRelease
  repeat' first
    | with_reducible assumption
    | (refine fun _ => ?_; intros; try dsimp -zeta only)
    | with_reducible apply State.window_sound
    | with_reducible apply State.semReleaseOp_sound
    | with_reducible apply sound_ite
    | dsimp -zeta only

theorem State.semWaitOp_sound (s : State) (i who : Nat) (hs : s.sound = true) :
    (State.semWaitOp s i who).sound = true := by
  delta State.semWaitOp
  repeat' first
    | with_reducible assumption
    | (lift_lets -underBinder; intro x; refine have hx : x.sound = true := ?_; ?_; (unfold x); rotate_left; clear_value x; rotate_right) | (lift_lets -underBinder; intro x; clear_value x)
    | (refine fun _ => ?_; intros; try dsimp -zeta only)
    | with_reducible apply State.wr_sound
    | with_reducible apply State.upCar_sound
    | with_reducible apply State.syncWaiters_sound
    | with_reducible apply State.waitEnd_sound
    | with_reducible apply State.semGrant_sound
    | with_reducible apply sound_ite
    | refine sound_snd (by with_reducible assumption) ?_ | refine sound_fst (by with_reducible assumption) ?_
    | split
    | dsimp -zeta only
    | with_reducible refine State.sound_mk ?_ rfl rfl rfl rfl rfl rfl rfl

theorem semWait_sound (a : Access) (i : Nat) (s : State) (hs : s.sound = true) :
    (semWait a i s).sound = true := by
  delta semWait
  repeat' first
    | with_reducible assumption
    | (refine fun _ => ?_; intros; try dsimp -zeta only)
    | with_reducible apply State.window_sound
    | with_reducible apply State.semWaitOp_sound
    | dsimp -zeta only

theorem semTimeout_sound (who : Nat) (s : State) (hs : s.sound = true) :
    (semTimeout who s).sound = true := by
  delta semTimeout
  repeat' first
    | with_reducible assumption
    | (refine fun _ => ?_; intros; try dsimp -zeta only)
    | with_reducible apply State.bump_sound
    | with_reducible apply State.waitEnd_sound
    | with_reducible apply sound_ite
    | refine sound_of_opt (by with_reducible assumption) ?_ | refine sound_of_optSnd (by with_reducible assumption) ?_
    | refine sound_snd (by with_reducible assumption) ?_ | refine sound_fst (by with_reducible assumption) ?_
    | split
    | dsimp -zeta only
    | with_reducible refine State.sound_mk ?_ rfl rfl rfl rfl rfl rfl rfl

theorem semForced_sound (i : Nat) (s : State) (hs : s.sound = true) :
    (semForced i s).sound = true := by
  delta semForced
  repeat' first
    | with_reducible assumption
    | (lift_lets -underBinder; intro x; refine have hx : x.sound = true := ?_; ?_; (unfold x); rotate_left; clear_value x; rotate_right) | (lift_lets -underBinder; intro x; clear_value x)
    | with_reducible apply State.bump_sound
    | with_reducible apply State.carEvent_sound
    | with_reducible apply State.semFree_sound
    | with_reducible apply sound_ite
    | refine sound_snd (by with_reducible assumption) ?_ | refine sound_fst (by with_reducible assumption) ?_
    | split
    | dsimp -zeta only

end Sys2Proof.Machine
end

