-- ==== Sys2Proof/Laws/Sound/Plant.lean ====
section
/-!
SUPPORT. Soundness is kept by every operation of Machine/Plant.lean.
-/
namespace Sys2Proof.Machine

set_option maxHeartbeats 40000

theorem State.sensorEvent_sound (s : State) (n reading : Nat) (failed : Bool) (hs : s.sound = true) :
    (State.sensorEvent s n reading failed).sound = true := by
  delta State.sensorEvent
  repeat' first
    | with_reducible assumption
    | with_reducible apply State.event_sound
    | dsimp -zeta only
    | with_reducible refine State.sound_mk ?_ rfl rfl rfl rfl rfl rfl rfl

theorem State.takeTemp_sound (s : State) (i : Nat) (v : Int) (hs : s.sound = true) :
    (State.takeTemp s i v).sound = true := by
  delta State.takeTemp
  repeat' first
    | with_reducible assumption
    | (lift_lets -underBinder; intro x; refine have hx : x.sound = true := ?_; ?_; (unfold x); rotate_left; clear_value x; rotate_right) | (lift_lets -underBinder; intro x; clear_value x)
    | (refine fun _ => ?_; intros; try dsimp -zeta only)
    | with_reducible apply State.wr_sound
    | with_reducible apply State.wrb_sound
    | with_reducible apply State.upCar_sound
    | with_reducible apply State.sensorEvent_sound
    | with_reducible apply sound_ite
    | with_reducible apply optSound_getD
    | refine sound_snd (by with_reducible assumption) ?_ | refine sound_fst (by with_reducible assumption) ?_
    | split
    | dsimp -zeta only
    | with_reducible refine State.sound_mk ?_ rfl rfl rfl rfl rfl rfl rfl

theorem State.takeVolt_sound (s : State) (m mv : Nat) (hs : s.sound = true) :
    (State.takeVolt s m mv).sound = true := by
  delta State.takeVolt
  repeat' first
    | with_reducible assumption
    | (lift_lets -underBinder; intro x; refine have hx : x.sound = true := ?_; ?_; (unfold x); rotate_left; clear_value x; rotate_right) | (lift_lets -underBinder; intro x; clear_value x)
    | (refine fun _ => ?_; intros; try dsimp -zeta only)
    | with_reducible apply State.wr_sound
    | with_reducible apply State.wrb_sound
    | with_reducible apply State.upCar_sound
    | with_reducible apply State.sensorEvent_sound
    | with_reducible apply sound_ite
    | with_reducible apply optSound_getD
    | refine sound_snd (by with_reducible assumption) ?_ | refine sound_fst (by with_reducible assumption) ?_
    | split
    | dsimp -zeta only
    | with_reducible refine State.sound_mk ?_ rfl rfl rfl rfl rfl rfl rfl

theorem State.takePower_sound (s : State) (n : Nat) (mw : Option Nat) (hs : s.sound = true) :
    (State.takePower s n mw).sound = true := by
  delta State.takePower
  repeat' first
    | with_reducible assumption
    | (lift_lets -underBinder; intro x; refine have hx : x.sound = true := ?_; ?_; (unfold x); rotate_left; clear_value x; rotate_right) | (lift_lets -underBinder; intro x; clear_value x)
    | (refine fun _ => ?_; intros; try dsimp -zeta only)
    | with_reducible apply State.upCar_sound
    | with_reducible apply State.sensorEvent_sound
    | with_reducible apply sound_ite
    | with_reducible apply optSound_getD
    | refine sound_of_opt (by with_reducible assumption) ?_ | refine sound_of_optSnd (by with_reducible assumption) ?_
    | refine sound_snd (by with_reducible assumption) ?_ | refine sound_fst (by with_reducible assumption) ?_
    | split
    | dsimp -zeta only
    | with_reducible refine State.sound_mk ?_ rfl rfl rfl rfl rfl rfl rfl

theorem State.syncDie_sound (s : State) (k : Nat) (hs : s.sound = true) :
    (State.syncDie s k).sound = true := by
  delta State.syncDie
  repeat' first
    | with_reducible assumption
    | (lift_lets -underBinder; intro x; refine have hx : x.sound = true := ?_; ?_; (unfold x); rotate_left; clear_value x; rotate_right) | (lift_lets -underBinder; intro x; clear_value x)
    | with_reducible apply State.wr_sound
    | with_reducible apply State.bump_sound
    | with_reducible apply State.carEvent_sound
    | with_reducible apply sound_ite
    | with_reducible apply optSound_getD
    | refine sound_snd (by with_reducible assumption) ?_ | refine sound_fst (by with_reducible assumption) ?_
    | split
    | dsimp -zeta only

theorem State.stageDie_sound (s : State) (k : Nat) (hs : s.sound = true) :
    (State.stageDie s k).sound = true := by
  delta State.stageDie
  repeat' first
    | with_reducible assumption
    | (lift_lets -underBinder; intro x; refine have hx : x.sound = true := ?_; ?_; (unfold x); rotate_left; clear_value x; rotate_right) | (lift_lets -underBinder; intro x; clear_value x)
    | (refine fun _ => ?_; intros; try dsimp -zeta only)
    | with_reducible apply State.upCar_sound
    | with_reducible apply State.syncDie_sound
    | with_reducible apply sound_ite
    | with_reducible apply optSound_getD
    | with_reducible apply foldl_sound | with_reducible apply foldl_sound_fst | with_reducible apply foldl_sound_snd
    | refine sound_of_opt (by with_reducible assumption) ?_ | refine sound_of_optSnd (by with_reducible assumption) ?_
    | refine sound_snd (by with_reducible assumption) ?_ | refine sound_fst (by with_reducible assumption) ?_
    | split
    | dsimp -zeta only
    | with_reducible refine State.sound_mk ?_ rfl rfl rfl rfl rfl rfl rfl

theorem State.stackRefresh_sound (s : State) (hs : s.sound = true) :
    (State.stackRefresh s).sound = true := by
  delta State.stackRefresh
  repeat' first
    | with_reducible assumption
    | (refine fun _ => ?_; intros; try dsimp -zeta only)
    | with_reducible apply State.upCar_sound
    | dsimp -zeta only
    | with_reducible refine State.sound_mk ?_ rfl rfl rfl rfl rfl rfl rfl

theorem State.holdInReset_sound (s : State) (hs : s.sound = true) :
    (State.holdInReset s).sound = true := by
  delta State.holdInReset
  repeat' first
    | with_reducible assumption
    | (lift_lets -underBinder; intro x; refine have hx : x.sound = true := ?_; ?_; (unfold x); rotate_left; clear_value x; rotate_right) | (lift_lets -underBinder; intro x; clear_value x)
    | (refine fun _ => ?_; intros; try dsimp -zeta only)
    | with_reducible apply State.wr_sound
    | with_reducible apply State.upCar_sound
    | with_reducible apply State.clearFabric_sound
    | with_reducible apply State.clearWork_sound
    | with_reducible apply State.clearFlight_sound
    | with_reducible apply State.clearSessions_sound
    | with_reducible apply foldl_sound | with_reducible apply foldl_sound_fst | with_reducible apply foldl_sound_snd
    | refine sound_snd (by with_reducible assumption) ?_ | refine sound_fst (by with_reducible assumption) ?_
    | split
    | dsimp -zeta only
    | with_reducible refine State.sound_mk ?_ rfl rfl rfl rfl rfl rfl rfl

theorem State.trip_sound (s : State) (i : Nat) (hs : s.sound = true) :
    (State.trip s i).sound = true := by
  delta State.trip
  repeat' first
    | with_reducible assumption
    | (lift_lets -underBinder; intro x; refine have hx : x.sound = true := ?_; ?_; (unfold x); rotate_left; clear_value x; rotate_right) | (lift_lets -underBinder; intro x; clear_value x)
    | (refine fun _ => ?_; intros; try dsimp -zeta only)
    | with_reducible apply State.wr_sound
    | with_reducible apply State.drive_sound
    | with_reducible apply State.upCar_sound
    | with_reducible apply State.upFlt_sound
    | with_reducible apply State.flashAppend_sound
    | with_reducible apply State.carEvent_sound
    | with_reducible apply State.goFatal_sound
    | with_reducible apply State.holdInReset_sound
    | with_reducible apply sound_ite
    | refine sound_snd (by with_reducible assumption) ?_ | refine sound_fst (by with_reducible assumption) ?_
    | split
    | dsimp -zeta only
    | with_reducible refine State.sound_mk ?_ rfl rfl rfl rfl rfl rfl rfl

theorem sensorSample_sound (x : Samples) (s : State) (hs : s.sound = true) :
    (sensorSample x s).sound = true := by
  delta sensorSample
  repeat' first
    | with_reducible assumption
    | (lift_lets -underBinder; intro x; refine have hx : x.sound = true := ?_; ?_; (unfold x); rotate_left; clear_value x; rotate_right) | (lift_lets -underBinder; intro x; clear_value x)
    | (refine fun _ => ?_; intros; try dsimp -zeta only)
    | with_reducible apply State.takeTemp_sound
    | with_reducible apply State.takeVolt_sound
    | with_reducible apply State.takePower_sound
    | with_reducible apply State.stageDie_sound
    | with_reducible apply State.stackRefresh_sound
    | with_reducible apply State.trip_sound
    | with_reducible apply sound_ite
    | with_reducible apply foldl_sound | with_reducible apply foldl_sound_fst | with_reducible apply foldl_sound_snd
    | refine sound_of_opt (by with_reducible assumption) ?_ | refine sound_of_optSnd (by with_reducible assumption) ?_
    | refine sound_snd (by with_reducible assumption) ?_ | refine sound_fst (by with_reducible assumption) ?_
    | split
    | dsimp -zeta only
    | with_reducible refine State.sound_mk ?_ rfl rfl rfl rfl rfl rfl rfl

theorem tripResetHold_sound (s : State) (hs : s.sound = true) :
    (tripResetHold s).sound = true := by
  delta tripResetHold
  repeat' first
    | with_reducible assumption
    | with_reducible apply State.holdInReset_sound
    | with_reducible apply sound_ite
    | refine sound_of_opt (by with_reducible assumption) ?_ | refine sound_of_optSnd (by with_reducible assumption) ?_
    | refine sound_snd (by with_reducible assumption) ?_ | refine sound_fst (by with_reducible assumption) ?_
    | split
    | dsimp -zeta only
    | with_reducible refine State.sound_mk ?_ rfl rfl rfl rfl rfl rfl rfl

theorem thermalStageExit_sound (k : Nat) (s : State) (hs : s.sound = true) :
    (thermalStageExit k s).sound = true := by
  delta thermalStageExit
  repeat' first
    | with_reducible assumption
    | (lift_lets -underBinder; intro x; refine have hx : x.sound = true := ?_; ?_; (unfold x); rotate_left; clear_value x; rotate_right) | (lift_lets -underBinder; intro x; clear_value x)
    | (refine fun _ => ?_; intros; try dsimp -zeta only)
    | with_reducible apply State.upCar_sound
    | with_reducible apply State.leave_sound
    | with_reducible apply State.syncDie_sound
    | with_reducible apply sound_ite
    | with_reducible apply optSound_getD
    | refine sound_snd (by with_reducible assumption) ?_ | refine sound_fst (by with_reducible assumption) ?_
    | split
    | dsimp -zeta only
    | with_reducible refine State.sound_mk ?_ rfl rfl rfl rfl rfl rfl rfl

theorem vrHot_sound (asserted : Bool) (s : State) (hs : s.sound = true) :
    (vrHot asserted s).sound = true := by
  delta vrHot
  repeat' first
    | with_reducible assumption
    | (lift_lets -underBinder; intro x; refine have hx : x.sound = true := ?_; ?_; (unfold x); rotate_left; clear_value x; rotate_right) | (lift_lets -underBinder; intro x; clear_value x)
    | (refine fun _ => ?_; intros; try dsimp -zeta only)
    | with_reducible apply State.wrb_sound
    | with_reducible apply State.carEvent_sound
    | with_reducible apply State.syncDie_sound
    | with_reducible apply sound_ite
    | with_reducible apply foldl_sound | with_reducible apply foldl_sound_fst | with_reducible apply foldl_sound_snd
    | refine sound_snd (by with_reducible assumption) ?_ | refine sound_fst (by with_reducible assumption) ?_
    | split
    | dsimp -zeta only

theorem State.syncCap_sound (s : State) (hs : s.sound = true) :
    (State.syncCap s).sound = true := by
  delta State.syncCap
  repeat' first
    | with_reducible assumption
    | with_reducible apply State.wr_sound
    | dsimp -zeta only

theorem State.setCap_sound (s : State) (host : Bool) (w window : Nat) (hs : s.sound = true) :
    (State.setCap s host w window).sound = true := by
  delta State.setCap
  repeat' first
    | with_reducible assumption
    | (lift_lets -underBinder; intro x; refine have hx : x.sound = true := ?_; ?_; (unfold x); rotate_left; clear_value x; rotate_right) | (lift_lets -underBinder; intro x; clear_value x)
    | with_reducible apply State.wr_sound
    | with_reducible apply State.carEvent_sound
    | with_reducible apply State.window_sound
    | with_reducible apply State.syncCap_sound
    | with_reducible apply sound_ite
    | refine sound_snd (by with_reducible assumption) ?_ | refine sound_fst (by with_reducible assumption) ?_
    | split
    | dsimp -zeta only

theorem State.setLoopPs_sound (s : State) (k ps : Nat) (hs : s.sound = true) :
    (State.setLoopPs s k ps).sound = true := by
  delta State.setLoopPs
  repeat' first
    | with_reducible assumption
    | (lift_lets -underBinder; intro x; refine have hx : x.sound = true := ?_; ?_; (unfold x); rotate_left; clear_value x; rotate_right) | (lift_lets -underBinder; intro x; clear_value x)
    | (refine fun _ => ?_; intros; try dsimp -zeta only)
    | with_reducible apply State.upCar_sound
    | with_reducible apply State.syncDie_sound
    | with_reducible apply sound_ite
    | with_reducible apply optSound_getD
    | refine sound_snd (by with_reducible assumption) ?_ | refine sound_fst (by with_reducible assumption) ?_
    | split
    | dsimp -zeta only
    | with_reducible refine State.sound_mk ?_ rfl rfl rfl rfl rfl rfl rfl

theorem State.noteMiss_sound (s : State) (avg cap window : Nat) (hs : s.sound = true) :
    (State.noteMiss s avg cap window).sound = true := by
  delta State.noteMiss
  repeat' first
    | with_reducible assumption
    | (lift_lets -underBinder; intro x; refine have hx : x.sound = true := ?_; ?_; (unfold x); rotate_left; clear_value x; rotate_right) | (lift_lets -underBinder; intro x; clear_value x)
    | (refine fun _ => ?_; intros; try dsimp -zeta only)
    | with_reducible apply State.bump_sound
    | with_reducible apply State.upCar_sound
    | with_reducible apply State.carEvent_sound
    | with_reducible apply State.window_sound
    | with_reducible apply sound_ite
    | refine sound_snd (by with_reducible assumption) ?_ | refine sound_fst (by with_reducible assumption) ?_
    | split
    | dsimp -zeta only
    | with_reducible refine State.sound_mk ?_ rfl rfl rfl rfl rfl rfl rfl

theorem powerLoopTick_sound (s : State) (hs : s.sound = true) :
    (powerLoopTick s).sound = true := by
  delta powerLoopTick
  repeat' first
    | with_reducible assumption
    | (lift_lets -underBinder; intro x; refine have hx : x.sound = true := ?_; ?_; (unfold x); rotate_left; clear_value x; rotate_right) | (lift_lets -underBinder; intro x; clear_value x)
    | (refine fun _ => ?_; intros; try dsimp -zeta only)
    | with_reducible apply State.wr_sound
    | with_reducible apply State.upCar_sound
    | with_reducible apply State.window_sound
    | with_reducible apply State.setLoopPs_sound
    | with_reducible apply State.noteMiss_sound
    | with_reducible apply sound_ite
    | refine sound_of_opt (by with_reducible assumption) ?_ | refine sound_of_optSnd (by with_reducible assumption) ?_
    | refine sound_snd (by with_reducible assumption) ?_ | refine sound_fst (by with_reducible assumption) ?_
    | split
    | dsimp -zeta only
    | with_reducible refine State.sound_mk ?_ rfl rfl rfl rfl rfl rfl rfl

theorem regulatorRetry_sound (n : Nat) (mw : Option Nat) (s : State) (hs : s.sound = true) :
    (regulatorRetry n mw s).sound = true := by
  delta regulatorRetry
  repeat' first
    | with_reducible assumption
    | (refine fun _ => ?_; intros; try dsimp -zeta only)
    | with_reducible apply State.upCar_sound
    | with_reducible apply sound_ite
    | with_reducible apply optSound_getD
    | refine sound_of_opt (by with_reducible assumption) ?_ | refine sound_of_optSnd (by with_reducible assumption) ?_
    | refine sound_snd (by with_reducible assumption) ?_ | refine sound_fst (by with_reducible assumption) ?_
    | split
    | dsimp -zeta only
    | with_reducible refine State.sound_mk ?_ rfl rfl rfl rfl rfl rfl rfl

end Sys2Proof.Machine
end

