-- ==== Sys2Proof/Laws/Sound/Mailbox.lean ====
section
/-!
SUPPORT. Soundness is kept by every operation of Machine/Mailbox.lean.
-/
namespace Sys2Proof.Machine

set_option maxHeartbeats 40000

theorem State.mbxStore_sound (s : State) (b : Bytes) (hs : s.sound = true) :
    (State.mbxStore s b).sound = true := by
  delta State.mbxStore
  repeat' first
    | with_reducible assumption
    | (refine fun _ => ?_; intros; try dsimp -zeta only)
    | with_reducible apply State.wr_sound
    | with_reducible apply foldl_sound | with_reducible apply foldl_sound_fst | with_reducible apply foldl_sound_snd
    | dsimp -zeta only

theorem State.doorbell_sound (s : State) (hs : s.sound = true) :
    (State.doorbell s).sound = true := by
  delta State.doorbell
  repeat' first
    | with_reducible assumption
    | (lift_lets -underBinder; intro x; refine have hx : x.sound = true := ?_; ?_; (unfold x); rotate_left; clear_value x; rotate_right) | (lift_lets -underBinder; intro x; clear_value x)
    | (refine fun _ => ?_; intros; try dsimp -zeta only)
    | with_reducible apply State.wr_sound
    | with_reducible apply State.bump_sound
    | with_reducible apply State.upCar_sound
    | with_reducible apply sound_ite
    | refine sound_snd (by with_reducible assumption) ?_ | refine sound_fst (by with_reducible assumption) ?_
    | split
    | dsimp -zeta only
    | with_reducible refine State.sound_mk ?_ rfl rfl rfl rfl rfl rfl rfl

theorem State.mctpArrive_sound (s : State) (r : MbxReq) (hs : s.sound = true) :
    (State.mctpArrive s r).sound = true := by
  delta State.mctpArrive
  repeat' first
    | with_reducible assumption
    | (refine fun _ => ?_; intros; try dsimp -zeta only)
    | with_reducible apply State.upCar_sound
    | with_reducible apply sound_ite
    | split
    | dsimp -zeta only
    | with_reducible refine State.sound_mk ?_ rfl rfl rfl rfl rfl rfl rfl

theorem State.mbxAnswer_sound (s : State) (chan : Nat) (r : MbxReq) (status off : Nat) (body : Bytes) (hs : s.sound = true) :
    (State.mbxAnswer s chan r status off body).sound = true := by
  delta State.mbxAnswer
  repeat' first
    | with_reducible assumption
    | (lift_lets -underBinder; intro x; refine have hx : x.sound = true := ?_; ?_; (unfold x); rotate_left; clear_value x; rotate_right) | (lift_lets -underBinder; intro x; clear_value x)
    | (refine fun _ => ?_; intros; try dsimp -zeta only)
    | with_reducible apply State.wr_sound
    | with_reducible apply State.emit_sound
    | with_reducible apply State.upCar_sound
    | with_reducible apply State.drop_sound
    | with_reducible apply State.mbxStore_sound
    | with_reducible apply sound_ite
    | refine sound_snd (by with_reducible assumption) ?_ | refine sound_fst (by with_reducible assumption) ?_
    | split
    | dsimp -zeta only
    | with_reducible refine State.sound_mk ?_ rfl rfl rfl rfl rfl rfl rfl

theorem State.mailbox_sound (s : State) (arrives : Option MbxReq) (cmd len : Nat) (act : Nat → MbxReq → State → State) (hs : s.sound = true) (h_act : ∀ (x0 : Nat) (x1 : MbxReq) (x2 : State), x2.sound = true → (act x0 x1 x2).sound = true) :
    (State.mailbox s arrives cmd len act).sound = true := by
  delta State.mailbox
  repeat' first
    | with_reducible assumption
    | (lift_lets -underBinder; intro x; refine have hx : x.sound = true := ?_; ?_; (unfold x); rotate_left; clear_value x; rotate_right) | (lift_lets -underBinder; intro x; clear_value x)
    | (refine fun _ => ?_; intros; try dsimp -zeta only)
    | with_reducible apply h_act
    | with_reducible apply State.mctpArrive_sound
    | with_reducible apply State.mbxAnswer_sound
    | with_reducible apply sound_ite
    | refine sound_of_opt (by with_reducible assumption) ?_ | refine sound_of_optSnd (by with_reducible assumption) ?_
    | refine sound_snd (by with_reducible assumption) ?_ | refine sound_fst (by with_reducible assumption) ?_
    | split
    | dsimp -zeta only
    | with_reducible refine State.sound_mk ?_ rfl rfl rfl rfl rfl rfl rfl

theorem getInfo_sound (m : Option MbxReq) (s : State) (hs : s.sound = true) :
    (getInfo m s).sound = true := by
  delta getInfo
  repeat' first
    | with_reducible assumption
    | (lift_lets -underBinder; intro x; refine have hx : x.sound = true := ?_; ?_; (unfold x); rotate_left; clear_value x; rotate_right) | (lift_lets -underBinder; intro x; clear_value x)
    | (refine fun _ => ?_; intros; try dsimp -zeta only)
    | with_reducible apply State.mbxAnswer_sound
    | with_reducible apply State.mailbox_sound
    | with_reducible apply sound_ite
    | with_reducible apply optSound_getD
    | refine sound_snd (by with_reducible assumption) ?_ | refine sound_fst (by with_reducible assumption) ?_
    | split
    | dsimp -zeta only

theorem sensorRead_sound (m : Option MbxReq) (s : State) (hs : s.sound = true) :
    (sensorRead m s).sound = true := by
  delta sensorRead
  repeat' first
    | with_reducible assumption
    | (lift_lets -underBinder; intro x; refine have hx : x.sound = true := ?_; ?_; (unfold x); rotate_left; clear_value x; rotate_right) | (lift_lets -underBinder; intro x; clear_value x)
    | (refine fun _ => ?_; intros; try dsimp -zeta only)
    | with_reducible apply State.mbxAnswer_sound
    | with_reducible apply State.mailbox_sound
    | with_reducible apply sound_ite
    | refine sound_snd (by with_reducible assumption) ?_ | refine sound_fst (by with_reducible assumption) ?_
    | split
    | dsimp -zeta only

theorem powerRead_sound (m : Option MbxReq) (s : State) (hs : s.sound = true) :
    (powerRead m s).sound = true := by
  delta powerRead
  repeat' first
    | with_reducible assumption
    | (lift_lets -underBinder; intro x; refine have hx : x.sound = true := ?_; ?_; (unfold x); rotate_left; clear_value x; rotate_right) | (lift_lets -underBinder; intro x; clear_value x)
    | (refine fun _ => ?_; intros; try dsimp -zeta only)
    | with_reducible apply State.mbxAnswer_sound
    | with_reducible apply State.mailbox_sound
    | refine sound_snd (by with_reducible assumption) ?_ | refine sound_fst (by with_reducible assumption) ?_
    | split
    | dsimp -zeta only

theorem powerCapSet_sound (m : Option MbxReq) (s : State) (hs : s.sound = true) :
    (powerCapSet m s).sound = true := by
  delta powerCapSet
  repeat' first
    | with_reducible assumption
    | (lift_lets -underBinder; intro x; refine have hx : x.sound = true := ?_; ?_; (unfold x); rotate_left; clear_value x; rotate_right) | (lift_lets -underBinder; intro x; clear_value x)
    | (refine fun _ => ?_; intros; try dsimp -zeta only)
    | with_reducible apply State.setCap_sound
    | with_reducible apply State.mbxAnswer_sound
    | with_reducible apply State.mailbox_sound
    | with_reducible apply sound_ite
    | refine sound_snd (by with_reducible assumption) ?_ | refine sound_fst (by with_reducible assumption) ?_
    | split
    | dsimp -zeta only

theorem logRead_sound (m : Option MbxReq) (s : State) (hs : s.sound = true) :
    (logRead m s).sound = true := by
  delta logRead
  repeat' first
    | with_reducible assumption
    | (lift_lets -underBinder; intro x; refine have hx : x.sound = true := ?_; ?_; (unfold x); rotate_left; clear_value x; rotate_right) | (lift_lets -underBinder; intro x; clear_value x)
    | (refine fun _ => ?_; intros; try dsimp -zeta only)
    | with_reducible apply State.mbxAnswer_sound
    | with_reducible apply State.mailbox_sound
    | with_reducible apply sound_ite
    | refine sound_of_opt (by with_reducible assumption) ?_ | refine sound_of_optSnd (by with_reducible assumption) ?_
    | refine sound_snd (by with_reducible assumption) ?_ | refine sound_fst (by with_reducible assumption) ?_
    | split
    | dsimp -zeta only
    | with_reducible refine State.sound_mk ?_ rfl rfl rfl rfl rfl rfl rfl

theorem fwStatus_sound (m : Option MbxReq) (s : State) (hs : s.sound = true) :
    (fwStatus m s).sound = true := by
  delta fwStatus
  repeat' first
    | with_reducible assumption
    | (lift_lets -underBinder; intro x; refine have hx : x.sound = true := ?_; ?_; (unfold x); rotate_left; clear_value x; rotate_right) | (lift_lets -underBinder; intro x; clear_value x)
    | (refine fun _ => ?_; intros; try dsimp -zeta only)
    | with_reducible apply State.mbxAnswer_sound
    | with_reducible apply State.mailbox_sound
    | with_reducible apply sound_ite
    | refine sound_snd (by with_reducible assumption) ?_ | refine sound_fst (by with_reducible assumption) ?_
    | split
    | dsimp -zeta only

theorem State.mctpReply_sound (s : State) (type : Nat) (body : Bytes) (hs : s.sound = true) :
    (State.mctpReply s type body).sound = true := by
  delta State.mctpReply
  repeat' first
    | with_reducible assumption
    | with_reducible apply State.emit_sound
    | dsimp -zeta only

theorem State.stdNumber_sound (s : State) (hs : s.sound = true) :
    (State.stdNumber s).2.sound = true := by
  delta State.stdNumber
  repeat' first
    | with_reducible assumption
    | (refine fun _ => ?_; intros; try dsimp -zeta only)
    | with_reducible apply State.upSec_sound
    | with_reducible apply sound_ite_snd
    | dsimp -zeta only
    | with_reducible refine State.sound_mk ?_ rfl rfl rfl rfl rfl rfl rfl

theorem State.stdReply_sound (s : State) (type code : Nat) (req : Bytes) (hs : s.sound = true) :
    (State.stdReply s type code req).sound = true := by
  delta State.stdReply
  repeat' first
    | with_reducible assumption
    | (lift_lets -underBinder; intro x; refine have hx : x.sound = true := ?_; ?_; (unfold x); rotate_left; clear_value x; rotate_right) | (lift_lets -underBinder; intro x; clear_value x)
    | with_reducible apply State.mctpReply_sound
    | with_reducible apply State.stdNumber_sound
    | refine sound_snd (by with_reducible assumption) ?_ | refine sound_fst (by with_reducible assumption) ?_
    | split
    | dsimp -zeta only

theorem setEndpointId_sound (eid : Nat) (s : State) (hs : s.sound = true) :
    (setEndpointId eid s).sound = true := by
  delta setEndpointId
  repeat' first
    | with_reducible assumption
    | (lift_lets -underBinder; intro x; refine have hx : x.sound = true := ?_; ?_; (unfold x); rotate_left; clear_value x; rotate_right) | (lift_lets -underBinder; intro x; clear_value x)
    | (refine fun _ => ?_; intros; try dsimp -zeta only)
    | with_reducible apply State.upCar_sound
    | with_reducible apply State.stdReply_sound
    | with_reducible apply sound_ite
    | refine sound_snd (by with_reducible assumption) ?_ | refine sound_fst (by with_reducible assumption) ?_
    | split
    | dsimp -zeta only
    | with_reducible refine State.sound_mk ?_ rfl rfl rfl rfl rfl rfl rfl

theorem getEndpointId_sound (s : State) (hs : s.sound = true) :
    (getEndpointId s).sound = true := by
  delta getEndpointId
  repeat' first
    | with_reducible assumption
    | with_reducible apply State.mctpReply_sound
    | with_reducible apply sound_ite
    | dsimp -zeta only

theorem getMctpVersion_sound (type : Nat) (s : State) (hs : s.sound = true) :
    (getMctpVersion type s).sound = true := by
  delta getMctpVersion
  repeat' first
    | with_reducible assumption
    | with_reducible apply State.stdReply_sound
    | with_reducible apply sound_ite
    | dsimp -zeta only

theorem getMessageTypes_sound (s : State) (hs : s.sound = true) :
    (getMessageTypes s).sound = true := by
  delta getMessageTypes
  repeat' first
    | with_reducible assumption
    | with_reducible apply State.mctpReply_sound
    | with_reducible apply sound_ite
    | dsimp -zeta only

theorem getVendorMessages_sound (selector : Nat) (s : State) (hs : s.sound = true) :
    (getVendorMessages selector s).sound = true := by
  delta getVendorMessages
  repeat' first
    | with_reducible assumption
    | with_reducible apply State.stdReply_sound
    | with_reducible apply sound_ite
    | dsimp -zeta only

theorem getPdr_sound (handle : Nat) (s : State) (hs : s.sound = true) :
    (getPdr handle s).sound = true := by
  delta getPdr
  repeat' first
    | with_reducible assumption
    | with_reducible apply State.mctpReply_sound
    | with_reducible apply sound_ite
    | dsimp -zeta only

theorem getSensorReading_sound (n : Nat) (s : State) (hs : s.sound = true) :
    (getSensorReading n s).sound = true := by
  delta getSensorReading
  repeat' first
    | with_reducible assumption
    | with_reducible apply State.mctpReply_sound
    | with_reducible apply sound_ite
    | refine sound_of_opt (by with_reducible assumption) ?_ | refine sound_of_optSnd (by with_reducible assumption) ?_
    | refine sound_snd (by with_reducible assumption) ?_ | refine sound_fst (by with_reducible assumption) ?_
    | split
    | dsimp -zeta only
    | with_reducible refine State.sound_mk ?_ rfl rfl rfl rfl rfl rfl rfl

end Sys2Proof.Machine
end

