-- ==== Sys2Proof/Laws/Sound/Registers.lean ====
section
/-!
SUPPORT. Soundness is kept by every operation of Machine/Registers.lean.
-/
namespace Sys2Proof.Machine

set_option maxHeartbeats 40000

theorem latches_wf (f : Nat → Nat) (g : Nat → BitVec 32) (ds : List Nat) (t : Tab (BitVec 32)) (h : Tab.wf t = true) :
    Tab.wf (ds.foldl (fun t d => Tab.put t (f d) (g d)) t) = true := by
  induction ds generalizing t with
  | nil => exact h
  | cons d ds ih => exact ih _ (Tab.wf_put _ _ _ h)

theorem State.unmapped_sound (s : State) (off : Nat) (write : Bool) (hs : s.sound = true) :
    (State.unmapped s off write).sound = true := by
  delta State.unmapped
  repeat' first
    | with_reducible assumption
    | with_reducible apply State.wr_sound
    | with_reducible apply State.wrb_sound
    | with_reducible apply State.bump_sound
    | dsimp -zeta only

theorem State.latch_sound (s : State) (who off : Nat) (hs : s.sound = true) : (State.latch s who off).sound = true := by
  rw [State.sound_iff] at hs ⊢
  exact ⟨hs.1, ⟨hs.2.1.1, latches_wf _ _ _ _ hs.2.1.2.1, hs.2.1.2.2⟩, hs.2.2⟩

theorem State.clearRc_sound (s : State) (off : Nat) (hs : s.sound = true) :
    (State.clearRc s off).sound = true := by
  delta State.clearRc
  repeat' first
    | with_reducible assumption
    | (refine fun _ => ?_; intros; try dsimp -zeta only)
    | with_reducible apply State.wr_sound
    | with_reducible apply sound_ite
    | with_reducible apply foldl_sound | with_reducible apply foldl_sound_fst | with_reducible apply foldl_sound_snd
    | dsimp -zeta only

theorem State.readReg_sound (s : State) (who off : Nat) (hs : s.sound = true) :
    (State.readReg s who off).1.sound = true := by
  delta State.readReg
  repeat' first
    | with_reducible assumption
    | (lift_lets -underBinder; intro x; refine have hx : x.sound = true := ?_; ?_; (unfold x); rotate_left; clear_value x; rotate_right) | (lift_lets -underBinder; intro x; clear_value x)
    | with_reducible apply State.semAcquireOp_sound
    | with_reducible apply State.unmapped_sound
    | with_reducible apply State.latch_sound
    | with_reducible apply State.clearRc_sound
    | with_reducible apply sound_ite
    | with_reducible apply sound_ite_fst
    | refine sound_of_opt (by with_reducible assumption) ?_ | refine sound_of_optSnd (by with_reducible assumption) ?_
    | refine sound_snd (by with_reducible assumption) ?_ | refine sound_fst (by with_reducible assumption) ?_
    | split
    | dsimp -zeta only
    | with_reducible refine State.sound_mk ?_ rfl rfl rfl rfl rfl rfl rfl

theorem State.store_sound (s : State) (f : Fld) (i j v : Nat) (hs : s.sound = true) :
    (State.store s f i j v).sound = true := by
  delta State.store
  repeat' first
    | with_reducible assumption
    | with_reducible apply State.wr_sound
    | dsimp -zeta only

theorem State.storeWord_sound (s : State) (off v : Nat) (hs : s.sound = true) :
    (State.storeWord s off v).sound = true := by
  delta State.storeWord
  repeat' first
    | with_reducible assumption
    | (refine fun _ => ?_; intros; try dsimp -zeta only)
    | with_reducible apply State.wr_sound
    | with_reducible apply State.store_sound
    | with_reducible apply sound_ite
    | with_reducible apply foldl_sound | with_reducible apply foldl_sound_fst | with_reducible apply foldl_sound_snd
    | refine sound_of_opt (by with_reducible assumption) ?_ | refine sound_of_optSnd (by with_reducible assumption) ?_
    | refine sound_snd (by with_reducible assumption) ?_ | refine sound_fst (by with_reducible assumption) ?_
    | split
    | dsimp -zeta only
    | with_reducible refine State.sound_mk ?_ rfl rfl rfl rfl rfl rfl rfl

theorem State.writeRwq_sound (s : State) (f : Fld) (i off v : Nat) (hs : s.sound = true) :
    (State.writeRwq s f i off v).sound = true := by
  delta State.writeRwq
  repeat' first
    | with_reducible assumption
    | with_reducible apply State.regFault_sound
    | with_reducible apply State.storeWord_sound
    | with_reducible apply sound_ite
    | dsimp -zeta only

theorem State.extOp_sound (s : State) (code : Nat) (hs : s.sound = true) :
    (State.extOp s code).sound = true := by
  delta State.extOp
  repeat' first
    | with_reducible assumption
    | with_reducible apply State.setEnd_sound
    | with_reducible apply State.extRead_sound
    | with_reducible apply State.extFind_sound
    | with_reducible apply State.extCreate_sound
    | with_reducible apply State.extCreateHost_sound
    | with_reducible apply State.extFree_sound
    | refine sound_of_opt (by with_reducible assumption) ?_ | refine sound_of_optSnd (by with_reducible assumption) ?_
    | refine sound_snd (by with_reducible assumption) ?_ | refine sound_fst (by with_reducible assumption) ?_
    | split
    | dsimp -zeta only
    | with_reducible refine State.sound_mk ?_ rfl rfl rfl rfl rfl rfl rfl

theorem State.rgnOp_sound (s : State) (code : Nat) (hs : s.sound = true) :
    (State.rgnOp s code).sound = true := by
  delta State.rgnOp
  repeat' first
    | with_reducible assumption
    | with_reducible apply State.setEnd_sound
    | with_reducible apply State.rgnRead_sound
    | with_reducible apply State.rgnCreate_sound
    | with_reducible apply State.rgnUpdate_sound
    | with_reducible apply State.rgnFence_sound
    | with_reducible apply State.rgnDelete_sound
    | with_reducible apply State.rgnReadClient_sound
    | with_reducible apply State.rgnWriteClient_sound
    | refine sound_of_opt (by with_reducible assumption) ?_ | refine sound_of_optSnd (by with_reducible assumption) ?_
    | refine sound_snd (by with_reducible assumption) ?_ | refine sound_fst (by with_reducible assumption) ?_
    | split
    | dsimp -zeta only
    | with_reducible refine State.sound_mk ?_ rfl rfl rfl rfl rfl rfl rfl

theorem State.arOp_sound (s : State) (code : Nat) (hs : s.sound = true) :
    (State.arOp s code).sound = true := by
  delta State.arOp
  repeat' first
    | with_reducible assumption
    | with_reducible apply State.setEnd_sound
    | with_reducible apply State.arRead_sound
    | with_reducible apply State.arRegister_sound
    | with_reducible apply State.arUnregister_sound
    | refine sound_of_opt (by with_reducible assumption) ?_ | refine sound_of_optSnd (by with_reducible assumption) ?_
    | refine sound_snd (by with_reducible assumption) ?_ | refine sound_fst (by with_reducible assumption) ?_
    | split
    | dsimp -zeta only
    | with_reducible refine State.sound_mk ?_ rfl rfl rfl rfl rfl rfl rfl

theorem State.grpOp_sound (s : State) (code : Nat) (hs : s.sound = true) :
    (State.grpOp s code).sound = true := by
  delta State.grpOp
  repeat' first
    | with_reducible assumption
    | with_reducible apply State.setEnd_sound
    | with_reducible apply State.grpRead_sound
    | with_reducible apply State.grpReset_sound
    | refine sound_of_opt (by with_reducible assumption) ?_ | refine sound_of_optSnd (by with_reducible assumption) ?_
    | refine sound_snd (by with_reducible assumption) ?_ | refine sound_fst (by with_reducible assumption) ?_
    | split
    | dsimp -zeta only
    | with_reducible refine State.sound_mk ?_ rfl rfl rfl rfl rfl rfl rfl

theorem State.entOp_sound (s : State) (code : Nat) (hs : s.sound = true) :
    (State.entOp s code).sound = true := by
  delta State.entOp
  repeat' first
    | with_reducible assumption
    | with_reducible apply State.setEnd_sound
    | with_reducible apply State.entRead_sound
    | with_reducible apply State.entDrop_sound
    | with_reducible apply State.entDropFen_sound
    | with_reducible apply sound_ite
    | refine sound_of_opt (by with_reducible assumption) ?_ | refine sound_of_optSnd (by with_reducible assumption) ?_
    | refine sound_snd (by with_reducible assumption) ?_ | refine sound_fst (by with_reducible assumption) ?_
    | split
    | dsimp -zeta only
    | with_reducible refine State.sound_mk ?_ rfl rfl rfl rfl rfl rfl rfl

theorem State.ringOp_sound (s : State) (code : Nat) (hs : s.sound = true) :
    (State.ringOp s code).sound = true := by
  delta State.ringOp
  repeat' first
    | with_reducible assumption
    | with_reducible apply State.setEnd_sound
    | with_reducible apply State.ringRead_sound
    | with_reducible apply State.ringRegister_sound
    | with_reducible apply State.ringUnregister_sound
    | with_reducible apply State.ringReset_sound
    | refine sound_of_opt (by with_reducible assumption) ?_ | refine sound_of_optSnd (by with_reducible assumption) ?_
    | refine sound_snd (by with_reducible assumption) ?_ | refine sound_fst (by with_reducible assumption) ?_
    | split
    | dsimp -zeta only
    | with_reducible refine State.sound_mk ?_ rfl rfl rfl rfl rfl rfl rfl

theorem State.ckpOp_sound (s : State) (code : Nat) (hs : s.sound = true) :
    (State.ckpOp s code).sound = true := by
  delta State.ckpOp
  repeat' first
    | with_reducible assumption
    | with_reducible apply State.setEnd_sound
    | with_reducible apply State.ckpSetRead_sound
    | with_reducible apply State.ckpSetRegister_sound
    | with_reducible apply State.ckpSetUnregister_sound
    | refine sound_of_opt (by with_reducible assumption) ?_ | refine sound_of_optSnd (by with_reducible assumption) ?_
    | refine sound_snd (by with_reducible assumption) ?_ | refine sound_fst (by with_reducible assumption) ?_
    | split
    | dsimp -zeta only
    | with_reducible refine State.sound_mk ?_ rfl rfl rfl rfl rfl rfl rfl

theorem State.remeasure_sound (s : State) (f : Fld) (i : Nat) (hs : s.sound = true) :
    (State.remeasure s f i).sound = true := by
  delta State.remeasure
  repeat' first
    | with_reducible assumption
    | with_reducible apply State.measure_sound
    | with_reducible apply sound_ite
    | dsimp -zeta only

theorem State.hxqCtl_sound (s : State) (enable : Bool) (hs : s.sound = true) :
    (State.hxqCtl s enable).sound = true := by
  delta State.hxqCtl
  repeat' first
    | with_reducible assumption
    | (lift_lets -underBinder; intro x; refine have hx : x.sound = true := ?_; ?_; (unfold x); rotate_left; clear_value x; rotate_right) | (lift_lets -underBinder; intro x; clear_value x)
    | (refine fun _ => ?_; intros; try dsimp -zeta only)
    | with_reducible apply State.wrb_sound
    | with_reducible apply State.finish_sound
    | with_reducible apply State.postXlates_sound
    | with_reducible apply sound_ite
    | with_reducible apply foldl_sound | with_reducible apply foldl_sound_fst | with_reducible apply foldl_sound_snd
    | refine sound_snd (by with_reducible assumption) ?_ | refine sound_fst (by with_reducible assumption) ?_
    | split
    | dsimp -zeta only

theorem State.eqCtl_sound (s : State) (v : Nat) (hs : s.sound = true) :
    (State.eqCtl s v).sound = true := by
  delta State.eqCtl
  repeat' first
    | with_reducible assumption
    | (lift_lets -underBinder; intro x; refine have hx : x.sound = true := ?_; ?_; (unfold x); rotate_left; clear_value x; rotate_right) | (lift_lets -underBinder; intro x; clear_value x)
    | with_reducible apply State.wr_sound
    | with_reducible apply State.eqResume_sound
    | with_reducible apply State.storeWord_sound
    | with_reducible apply sound_ite
    | refine sound_snd (by with_reducible assumption) ?_ | refine sound_fst (by with_reducible assumption) ?_
    | split
    | dsimp -zeta only

theorem State.ttCtl_sound (s : State) (v : Nat) (hs : s.sound = true) :
    (State.ttCtl s v).sound = true := by
  delta State.ttCtl
  repeat' first
    | with_reducible assumption
    | (lift_lets -underBinder; intro x; refine have hx : x.sound = true := ?_; ?_; (unfold x); rotate_left; clear_value x; rotate_right) | (lift_lets -underBinder; intro x; clear_value x)
    | with_reducible apply State.sourceChanged_sound
    | with_reducible apply State.storeWord_sound
    | with_reducible apply sound_ite
    | refine sound_snd (by with_reducible assumption) ?_ | refine sound_fst (by with_reducible assumption) ?_
    | split
    | dsimp -zeta only

theorem State.thrWrite_sound (s : State) (v : Nat) (hs : s.sound = true) :
    (State.thrWrite s v).sound = true := by
  delta State.thrWrite
  repeat' first
    | with_reducible assumption
    | (lift_lets -underBinder; intro x; refine have hx : x.sound = true := ?_; ?_; (unfold x); rotate_left; clear_value x; rotate_right) | (lift_lets -underBinder; intro x; clear_value x)
    | (refine fun _ => ?_; intros; try dsimp -zeta only)
    | with_reducible apply State.wr_sound
    | with_reducible apply State.stageDie_sound
    | with_reducible apply State.storeWord_sound
    | with_reducible apply foldl_sound | with_reducible apply foldl_sound_fst | with_reducible apply foldl_sound_snd
    | refine sound_snd (by with_reducible assumption) ?_ | refine sound_fst (by with_reducible assumption) ?_
    | split
    | dsimp -zeta only

theorem State.capWrite_sound (s : State) (v : Nat) (hs : s.sound = true) :
    (State.capWrite s v).sound = true := by
  delta State.capWrite
  repeat' first
    | with_reducible assumption
    | with_reducible apply State.setCap_sound
    | dsimp -zeta only

theorem State.actReg_sound (s : State) (who off v : Nat) (b : BringUp) (hs : s.sound = true) :
    OptSound (State.actReg s who off v b) := by
  delta State.actReg
  repeat' first
    | with_reducible assumption
    | (lift_lets -underBinder; intro x; refine have hx : x.sound = true := ?_; ?_; (unfold x); rotate_left; clear_value x; rotate_right) | (lift_lets -underBinder; intro x; clear_value x)
    | with_reducible apply State.wr_sound
    | with_reducible apply State.eqResume_sound
    | with_reducible apply State.treeRead_sound
    | with_reducible apply checkInjectOp_sound
    | with_reducible apply State.fenceFen_sound
    | with_reducible apply State.postXlates_sound
    | with_reducible apply State.hostSampleOp_sound
    | with_reducible apply State.taborSetOp_sound
    | with_reducible apply State.ptmOp_sound
    | with_reducible apply State.polReadOp_sound
    | with_reducible apply State.capCtlOp_sound
    | with_reducible apply State.mapClearOp_sound
    | with_reducible apply State.cohLineOp_sound
    | with_reducible apply State.revertRef_sound
    | with_reducible apply State.rstCtlOp_sound
    | with_reducible apply State.fenResetOp_sound
    | with_reducible apply State.semWaitOp_sound
    | with_reducible apply State.doorbell_sound
    | with_reducible apply State.storeWord_sound
    | with_reducible apply State.hxqCtl_sound
    | with_reducible apply State.eqCtl_sound
    | with_reducible apply State.ttCtl_sound
    | with_reducible apply State.thrWrite_sound
    | with_reducible apply State.capWrite_sound
    | with_reducible apply sound_ite
    | exact optSound_none | with_reducible apply optSound_some | with_reducible apply optSound_ite | with_reducible apply optSound_map | with_reducible apply optSound_bind
    | refine sound_snd (by with_reducible assumption) ?_ | refine sound_fst (by with_reducible assumption) ?_
    | split
    | dsimp -zeta only

theorem State.actSet_sound (s : State) (who off v : Nat) (hs : s.sound = true) :
    OptSound (State.actSet s who off v) := by
  delta State.actSet
  repeat' first
    | with_reducible assumption
    | (lift_lets -underBinder; intro x; refine have hx : x.sound = true := ?_; ?_; (unfold x); rotate_left; clear_value x; rotate_right) | (lift_lets -underBinder; intro x; clear_value x)
    | with_reducible apply State.bump_sound
    | with_reducible apply State.sleepRequestOp_sound
    | with_reducible apply State.timeFaultClearOp_sound
    | with_reducible apply State.deadClearOp_sound
    | with_reducible apply State.fenCtlOp_sound
    | with_reducible apply State.semReleaseOp_sound
    | with_reducible apply State.storeWord_sound
    | with_reducible apply sound_ite
    | exact optSound_none | with_reducible apply optSound_some | with_reducible apply optSound_ite | with_reducible apply optSound_map | with_reducible apply optSound_bind
    | refine sound_of_opt (by with_reducible assumption) ?_ | refine sound_of_optSnd (by with_reducible assumption) ?_
    | refine sound_snd (by with_reducible assumption) ?_ | refine sound_fst (by with_reducible assumption) ?_
    | split
    | dsimp -zeta only
    | with_reducible refine State.sound_mk ?_ rfl rfl rfl rfl rfl rfl rfl

theorem setOps_sound (p : Nat × (State → Nat → State)) (hp : p ∈ setOps) (s : State) (c : Nat) (hs : s.sound = true) :
    (p.2 s c).sound = true := by
  simp only [setOps, List.mem_cons, List.not_mem_nil, or_false] at hp
  obtain rfl | rfl | rfl | rfl | rfl | rfl | rfl | rfl | rfl := hp
  · exact State.extOp_sound _ _ hs
  · exact State.rgnOp_sound _ _ hs
  · exact State.arOp_sound _ _ hs
  · exact State.grpOp_sound _ _ hs
  · exact State.entOp_sound _ _ hs
  · exact State.ringOp_sound _ _ hs
  · exact State.ckpOp_sound _ _ hs
  · exact State.rteOp_sound _ _ hs
  · exact State.scoreOp_sound _ _ hs

theorem State.writeReg_sound (s : State) (who off v : Nat) (b : BringUp) (hs : s.sound = true) :
    (State.writeReg s who off v b).sound = true := by
  unfold State.writeReg
  refine sound_ite (State.unmapped_sound _ _ _ hs) (sound_ite hs ?_)
  split
  · next t h => exact (State.actReg_sound s who off v b hs).of t h
  · split
    · next t h => exact (State.actSet_sound s who off v hs).of t h
    · split
      · next p h =>
        dsimp only
        exact sound_ite (setOps_sound p (List.mem_of_find?_eq_some h) _ _ (State.storeWord_sound _ _ _ hs))
          (State.storeWord_sound _ _ _ hs)
      · refine sound_ite hs ?_
        split
        · exact sound_ite (State.writeRwq_sound _ _ _ _ _ hs) (State.remeasure_sound _ _ _ (State.storeWord_sound _ _ _ hs))
        · exact hs

theorem registerWrite_sound (a : Access) (off v : Nat) (b : BringUp) (s : State) (hs : s.sound = true) :
    (registerWrite a off v b s).sound = true := by
  delta registerWrite
  repeat' first
    | with_reducible assumption
    | (refine fun _ => ?_; intros; try dsimp -zeta only)
    | with_reducible apply State.window_sound
    | with_reducible apply State.writeReg_sound
    | dsimp -zeta only

theorem registerRead_sound (a : Access) (off : Nat) (s : State) (hs : s.sound = true) :
    (registerRead a off s).sound = true := by
  delta registerRead
  repeat' first
    | with_reducible assumption
    | (refine fun _ => ?_; intros; try dsimp -zeta only)
    | with_reducible apply State.readWindow_sound
    | with_reducible apply State.readReg_sound
    | dsimp -zeta only

theorem loLatchRead_sound (a : Access) (off : Nat) (s : State) (hs : s.sound = true) :
    (loLatchRead a off s).sound = true := by
  delta loLatchRead
  repeat' first
    | with_reducible assumption
    | with_reducible apply registerRead_sound
    | with_reducible apply sound_ite
    | dsimp -zeta only

theorem unmappedAccess_sound (a : Access) (off : Nat) (write : Bool) (s : State) (hs : s.sound = true) :
    (unmappedAccess a off write s).sound = true := by
  delta unmappedAccess
  repeat' first
    | with_reducible assumption
    | with_reducible apply registerWrite_sound
    | with_reducible apply registerRead_sound
    | with_reducible apply sound_ite
    | dsimp -zeta only

end Sys2Proof.Machine
end

