-- ==== Sys2Proof/Laws/Sound/Debug.lean ====
section
/-!
SUPPORT. Soundness is kept by every operation of Machine/Debug.lean.
-/
namespace Sys2Proof.Machine

set_option maxHeartbeats 40000

theorem State.tdo_sound (s : State) (v : Nat) (hs : s.sound = true) :
    (State.tdo s v).sound = true := by
  delta State.tdo
  repeat' first
    | with_reducible assumption
    | with_reducible apply State.emit_sound
    | dsimp -zeta only

theorem State.tap_sound (s : State) (allowed : Bool) (act : State → State) (hs : s.sound = true) (h_act : ∀ (x0 : State), x0.sound = true → (act x0).sound = true) :
    (State.tap s allowed act).sound = true := by
  delta State.tap
  repeat' first
    | with_reducible assumption
    | (refine fun _ => ?_; intros; try dsimp -zeta only)
    | with_reducible apply h_act
    | with_reducible apply State.bump_sound
    | with_reducible apply State.tdo_sound
    | with_reducible apply sound_ite
    | dsimp -zeta only

theorem idcode_sound (s : State) (hs : s.sound = true) :
    (idcode s).sound = true := by
  delta idcode
  repeat' first
    | with_reducible assumption
    | (refine fun _ => ?_; intros; try dsimp -zeta only)
    | with_reducible apply State.tdo_sound
    | with_reducible apply State.tap_sound
    | dsimp -zeta only

theorem bypass_sound (s : State) (hs : s.sound = true) :
    (bypass s).sound = true := by
  delta bypass
  repeat' first
    | with_reducible assumption
    | (refine fun _ => ?_; intros; try dsimp -zeta only)
    | with_reducible apply State.tdo_sound
    | with_reducible apply State.tap_sound
    | dsimp -zeta only

theorem samplePreload_sound (d : Bytes) (s : State) (hs : s.sound = true) :
    (samplePreload d s).sound = true := by
  delta samplePreload
  repeat' first
    | with_reducible assumption
    | (lift_lets -underBinder; intro x; refine have hx : x.sound = true := ?_; ?_; (unfold x); rotate_left; clear_value x; rotate_right) | (lift_lets -underBinder; intro x; clear_value x)
    | (refine fun _ => ?_; intros; try dsimp -zeta only)
    | with_reducible apply State.free_sound
    | with_reducible apply State.upCar_sound
    | with_reducible apply free_sound
    | with_reducible apply State.tdo_sound
    | with_reducible apply State.tap_sound
    | refine sound_snd (by with_reducible assumption) ?_ | refine sound_fst (by with_reducible assumption) ?_
    | split
    | dsimp -zeta only
    | with_reducible refine State.sound_mk ?_ rfl rfl rfl rfl rfl rfl rfl

theorem extest_sound (d : Bytes) (s : State) (hs : s.sound = true) :
    (extest d s).sound = true := by
  delta extest
  repeat' first
    | with_reducible assumption
    | (lift_lets -underBinder; intro x; refine have hx : x.sound = true := ?_; ?_; (unfold x); rotate_left; clear_value x; rotate_right) | (lift_lets -underBinder; intro x; clear_value x)
    | (refine fun _ => ?_; intros; try dsimp -zeta only)
    | with_reducible apply State.free_sound
    | with_reducible apply State.upCar_sound
    | with_reducible apply free_sound
    | with_reducible apply State.tdo_sound
    | with_reducible apply State.tap_sound
    | refine sound_snd (by with_reducible assumption) ?_ | refine sound_fst (by with_reducible assumption) ?_
    | split
    | dsimp -zeta only
    | with_reducible refine State.sound_mk ?_ rfl rfl rfl rfl rfl rfl rfl

theorem State.haltPair_sound (s : State) (p : Nat) (hs : s.sound = true) :
    (State.haltPair s p).sound = true := by
  delta State.haltPair
  repeat' first
    | with_reducible assumption
    | (lift_lets -underBinder; intro x; refine have hx : x.sound = true := ?_; ?_; (unfold x); rotate_left; clear_value x; rotate_right) | (lift_lets -underBinder; intro x; clear_value x)
    | (refine fun _ => ?_; intros; try dsimp -zeta only)
    | with_reducible apply State.wr_sound
    | with_reducible apply State.upCar_sound
    | with_reducible apply State.upPair_sound
    | with_reducible apply sound_ite
    | refine sound_snd (by with_reducible assumption) ?_ | refine sound_fst (by with_reducible assumption) ?_
    | split
    | dsimp -zeta only
    | with_reducible refine State.sound_mk ?_ rfl rfl rfl rfl rfl rfl rfl

theorem State.setDm_sound (s : State) (a v : Nat) (hs : s.sound = true) :
    (State.setDm s a v).sound = true := by
  delta State.setDm
  repeat' first
    | with_reducible assumption
    | (refine fun _ => ?_; intros; try dsimp -zeta only)
    | with_reducible apply State.upCar_sound
    | dsimp -zeta only
    | with_reducible refine State.sound_mk ?_ rfl rfl rfl rfl rfl rfl rfl

theorem State.busRead_sound (s : State) (a : Nat) (hs : s.sound = true) : (State.busRead s a).1.sound = true := by
  have hl : ∀ k w, State.sound (s := { s with latches := Tab.put s.latches k w }) = true := by
    intro k w
    rw [State.sound_iff] at hs ⊢
    exact ⟨hs.1, ⟨hs.2.1.1, Tab.wf_put _ _ _ hs.2.1.2.1, hs.2.1.2.2⟩, hs.2.2⟩
  have hf := State.free_sound s hs
  have hr := State.readReg_sound s 4 (a - 0x40000000) hs
  unfold State.busRead
  split
  · exact hs
  split
  · exact hs
  split
  · dsimp only
    split
    · exact hs
    · exact hf
  split
  · dsimp only
    split
    · exact hs
    split
    · exact hl _ _
    split
    · exact hs
    · exact hs
  split
  · split
    next t v e =>
      rw [e] at hr
      exact hr
  · exact hs

theorem State.busWrite_sound (s : State) (a v : Nat) (hs : s.sound = true) :
    OptSound (State.busWrite s a v) := by
  delta State.busWrite
  repeat' first
    | with_reducible assumption
    | (lift_lets -underBinder; intro x; refine have hx : x.sound = true := ?_; ?_; (unfold x); rotate_left; clear_value x; rotate_right) | (lift_lets -underBinder; intro x; clear_value x)
    | (refine fun _ => ?_; intros; try dsimp -zeta only)
    | with_reducible apply State.upCar_sound
    | with_reducible apply State.window_sound
    | with_reducible apply carKick_sound
    | with_reducible apply crcInit_sound
    | with_reducible apply crcFeed_sound
    | with_reducible apply State.writeReg_sound
    | with_reducible apply sound_ite
    | exact optSound_none | with_reducible apply optSound_some | with_reducible apply optSound_ite | with_reducible apply optSound_map | with_reducible apply optSound_bind
    | refine sound_snd (by with_reducible assumption) ?_ | refine sound_fst (by with_reducible assumption) ?_
    | split
    | dsimp -zeta only
    | with_reducible refine State.sound_mk ?_ rfl rfl rfl rfl rfl rfl rfl

theorem State.busError_sound (s : State) (hs : s.sound = true) :
    (State.busError s).sound = true := by
  delta State.busError
  repeat' first
    | with_reducible assumption
    | with_reducible apply State.setDm_sound
    | dsimp -zeta only

theorem State.busNext_sound (s : State) (hs : s.sound = true) :
    (State.busNext s).sound = true := by
  delta State.busNext
  repeat' first
    | with_reducible assumption
    | with_reducible apply State.setDm_sound
    | with_reducible apply sound_ite
    | dsimp -zeta only

theorem State.busFill_sound (s : State) (hs : s.sound = true) :
    (State.busFill s).sound = true := by
  delta State.busFill
  repeat' first
    | with_reducible assumption
    | with_reducible apply State.setDm_sound
    | with_reducible apply State.busRead_sound
    | with_reducible apply State.busError_sound
    | with_reducible apply State.busNext_sound
    | refine sound_of_opt (by with_reducible assumption) ?_ | refine sound_of_optSnd (by with_reducible assumption) ?_
    | refine sound_snd (by with_reducible assumption) ?_ | refine sound_fst (by with_reducible assumption) ?_
    | split
    | dsimp -zeta only
    | with_reducible refine State.sound_mk ?_ rfl rfl rfl rfl rfl rfl rfl

theorem State.dmRead_sound (s : State) (a : Nat) (hs : s.sound = true) :
    (State.dmRead s a).1.sound = true := by
  delta State.dmRead
  repeat' first
    | with_reducible assumption
    | (lift_lets -underBinder; intro x; refine have hx : x.sound = true := ?_; ?_; (unfold x); rotate_left; clear_value x; rotate_right) | (lift_lets -underBinder; intro x; clear_value x)
    | with_reducible apply State.free_sound
    | with_reducible apply free_sound
    | with_reducible apply State.busFill_sound
    | with_reducible apply sound_ite
    | with_reducible apply sound_ite_fst
    | refine sound_snd (by with_reducible assumption) ?_ | refine sound_fst (by with_reducible assumption) ?_
    | split
    | dsimp -zeta only

theorem State.dmControl_sound (s : State) (v : Nat) (hs : s.sound = true) :
    (State.dmControl s v).sound = true := by
  delta State.dmControl
  repeat' first
    | with_reducible assumption
    | (lift_lets -underBinder; intro x; refine have hx : x.sound = true := ?_; ?_; (unfold x); rotate_left; clear_value x; rotate_right) | (lift_lets -underBinder; intro x; clear_value x)
    | (refine fun _ => ?_; intros; try dsimp -zeta only)
    | with_reducible apply State.upCar_sound
    | with_reducible apply State.resumePair_sound
    | with_reducible apply State.haltPair_sound
    | with_reducible apply State.setDm_sound
    | with_reducible apply sound_ite
    | refine sound_snd (by with_reducible assumption) ?_ | refine sound_fst (by with_reducible assumption) ?_
    | split
    | dsimp -zeta only
    | with_reducible refine State.sound_mk ?_ rfl rfl rfl rfl rfl rfl rfl

theorem State.sbcsWrite_sound (s : State) (v : Nat) (hs : s.sound = true) :
    (State.sbcsWrite s v).sound = true := by
  delta State.sbcsWrite
  repeat' first
    | with_reducible assumption
    | (lift_lets -underBinder; intro x; refine have hx : x.sound = true := ?_; ?_; (unfold x); rotate_left; clear_value x; rotate_right) | (lift_lets -underBinder; intro x; clear_value x)
    | with_reducible apply State.setDm_sound
    | refine sound_snd (by with_reducible assumption) ?_ | refine sound_fst (by with_reducible assumption) ?_
    | split
    | dsimp -zeta only

theorem State.dmWrite_sound (s : State) (a v : Nat) (hs : s.sound = true) :
    (State.dmWrite s a v).sound = true := by
  delta State.dmWrite
  repeat' first
    | with_reducible assumption
    | (lift_lets -underBinder; intro x; refine have hx : x.sound = true := ?_; ?_; (unfold x); rotate_left; clear_value x; rotate_right) | (lift_lets -underBinder; intro x; clear_value x)
    | with_reducible apply State.free_sound
    | with_reducible apply free_sound
    | with_reducible apply State.setDm_sound
    | with_reducible apply State.busWrite_sound
    | with_reducible apply State.busError_sound
    | with_reducible apply State.busNext_sound
    | with_reducible apply State.busFill_sound
    | with_reducible apply State.dmControl_sound
    | with_reducible apply State.sbcsWrite_sound
    | with_reducible apply sound_ite
    | refine sound_of_opt (by with_reducible assumption) ?_ | refine sound_of_optSnd (by with_reducible assumption) ?_
    | refine sound_snd (by with_reducible assumption) ?_ | refine sound_fst (by with_reducible assumption) ?_
    | split
    | dsimp -zeta only
    | with_reducible refine State.sound_mk ?_ rfl rfl rfl rfl rfl rfl rfl

theorem dmi_sound (op a v : Nat) (s : State) (hs : s.sound = true) :
    (dmi op a v s).sound = true := by
  delta dmi
  repeat' first
    | with_reducible assumption
    | (lift_lets -underBinder; intro x; refine have hx : x.sound = true := ?_; ?_; (unfold x); rotate_left; clear_value x; rotate_right) | (lift_lets -underBinder; intro x; clear_value x)
    | (refine fun _ => ?_; intros; try dsimp -zeta only)
    | with_reducible apply State.tdo_sound
    | with_reducible apply State.tap_sound
    | with_reducible apply State.dmRead_sound
    | with_reducible apply State.dmWrite_sound
    | with_reducible apply sound_ite
    | refine sound_snd (by with_reducible assumption) ?_ | refine sound_fst (by with_reducible assumption) ?_
    | split
    | dsimp -zeta only

theorem dtmcs_sound (v : Nat) (s : State) (hs : s.sound = true) :
    (dtmcs v s).sound = true := by
  delta dtmcs
  repeat' first
    | with_reducible assumption
    | (lift_lets -underBinder; intro x; refine have hx : x.sound = true := ?_; ?_; (unfold x); rotate_left; clear_value x; rotate_right) | (lift_lets -underBinder; intro x; clear_value x)
    | (refine fun _ => ?_; intros; try dsimp -zeta only)
    | with_reducible apply State.free_sound
    | with_reducible apply State.upCar_sound
    | with_reducible apply free_sound
    | with_reducible apply State.tdo_sound
    | with_reducible apply State.tap_sound
    | with_reducible apply sound_ite
    | refine sound_snd (by with_reducible assumption) ?_ | refine sound_fst (by with_reducible assumption) ?_
    | split
    | dsimp -zeta only
    | with_reducible refine State.sound_mk ?_ rfl rfl rfl rfl rfl rfl rfl

theorem ivAddr_sound (off : Nat) (s : State) (hs : s.sound = true) :
    (ivAddr off s).sound = true := by
  delta ivAddr
  repeat' first
    | with_reducible assumption
    | (refine fun _ => ?_; intros; try dsimp -zeta only)
    | with_reducible apply State.upCar_sound
    | with_reducible apply State.tap_sound
    | dsimp -zeta only
    | with_reducible refine State.sound_mk ?_ rfl rfl rfl rfl rfl rfl rfl

theorem ivData_sound (s : State) (hs : s.sound = true) :
    (ivData s).sound = true := by
  delta ivData
  repeat' first
    | with_reducible assumption
    | (refine fun _ => ?_; intros; try dsimp -zeta only)
    | with_reducible apply State.bump_sound
    | with_reducible apply State.upCar_sound
    | with_reducible apply State.tdo_sound
    | with_reducible apply State.tap_sound
    | with_reducible apply ivAddr_sound
    | refine sound_of_opt (by with_reducible assumption) ?_ | refine sound_of_optSnd (by with_reducible assumption) ?_
    | refine sound_snd (by with_reducible assumption) ?_ | refine sound_fst (by with_reducible assumption) ?_
    | split
    | dsimp -zeta only
    | with_reducible refine State.sound_mk ?_ rfl rfl rfl rfl rfl rfl rfl

theorem ivStat_sound (s : State) (hs : s.sound = true) :
    (ivStat s).sound = true := by
  delta ivStat
  repeat' first
    | with_reducible assumption
    | (refine fun _ => ?_; intros; try dsimp -zeta only)
    | with_reducible apply State.tdo_sound
    | with_reducible apply State.tap_sound
    | dsimp -zeta only

end Sys2Proof.Machine
end

