-- ==== Sys2Proof/Laws/Sound/Ingress.lean ====
section
/-!
SUPPORT. Soundness is kept by every operation of Machine/Ingress.lean.
-/
namespace Sys2Proof.Machine

set_option maxHeartbeats 40000

theorem State.fecCharge_sound (s : State) (p : Nat) (f : Frame) (hs : s.sound = true) :
    (State.fecCharge s p f).sound = true := by
  delta State.fecCharge
  repeat' first
    | with_reducible assumption
    | (refine fun _ => ?_; intros; try dsimp -zeta only)
    | with_reducible apply State.bump_sound
    | with_reducible apply State.charge_sound
    | with_reducible apply sound_ite
    | with_reducible apply foldl_sound | with_reducible apply foldl_sound_fst | with_reducible apply foldl_sound_snd
    | dsimp -zeta only

theorem State.frameDrop_sound (s : State) (cause p : Nat) (hs : s.sound = true) :
    (State.frameDrop s cause p).sound = true := by
  delta State.frameDrop
  repeat' first
    | with_reducible assumption
    | with_reducible apply State.charge_sound
    | with_reducible apply State.drop_sound
    | dsimp -zeta only

theorem State.countRx_sound (s : State) (p : Nat) (k : Packet) (hs : s.sound = true) :
    (State.countRx s p k).sound = true := by
  delta State.countRx
  repeat' first
    | with_reducible assumption
    | (lift_lets -underBinder; intro x; refine have hx : x.sound = true := ?_; ?_; (unfold x); rotate_left; clear_value x; rotate_right) | (lift_lets -underBinder; intro x; clear_value x)
    | with_reducible apply State.bump_sound
    | with_reducible apply State.inc64_sound
    | with_reducible apply State.meterBytes_sound
    | with_reducible apply sound_ite
    | refine sound_snd (by with_reducible assumption) ?_ | refine sound_fst (by with_reducible assumption) ?_
    | split
    | dsimp -zeta only

theorem State.consume_sound (s : State) (p : Nat) (k : Packet) (hs : s.sound = true) :
    (State.consume s p k).sound = true := by
  delta State.consume
  repeat' first
    | with_reducible assumption
    | (refine fun _ => ?_; intros; try dsimp -zeta only)
    | with_reducible apply State.bump_sound
    | with_reducible apply State.upPort_sound
    | with_reducible apply sound_ite
    | dsimp -zeta only
    | with_reducible refine State.sound_mk ?_ rfl rfl rfl rfl rfl rfl rfl

theorem State.ingressTake_sound (s : State) (p n : Nat) (hs : s.sound = true) :
    (State.ingressTake s p n).sound = true := by
  delta State.ingressTake
  repeat' first
    | with_reducible assumption
    | (lift_lets -underBinder; intro x; refine have hx : x.sound = true := ?_; ?_; (unfold x); rotate_left; clear_value x; rotate_right) | (lift_lets -underBinder; intro x; clear_value x)
    | with_reducible apply State.inc_sound
    | with_reducible apply State.dec_sound
    | refine sound_snd (by with_reducible assumption) ?_ | refine sound_fst (by with_reducible assumption) ?_
    | split
    | dsimp -zeta only

theorem State.sample_sound (s : State) (p : Nat) (hs : s.sound = true) :
    (State.sample s p).2.sound = true := by
  delta State.sample
  repeat' first
    | with_reducible assumption
    | (lift_lets -underBinder; intro x; refine have hx : x.sound = true := ?_; ?_; (unfold x); rotate_left; clear_value x; rotate_right) | (lift_lets -underBinder; intro x; clear_value x)
    | (refine fun _ => ?_; intros; try dsimp -zeta only)
    | with_reducible apply State.upPort_sound
    | with_reducible apply sound_ite
    | with_reducible apply sound_ite_snd
    | refine sound_snd (by with_reducible assumption) ?_ | refine sound_fst (by with_reducible assumption) ?_
    | split
    | dsimp -zeta only
    | with_reducible refine State.sound_mk ?_ rfl rfl rfl rfl rfl rfl rfl

theorem State.admitRoute_sound (s : State) (qp : QPkt) (hs : s.sound = true) :
    (State.admitRoute s qp).sound = true := by
  delta State.admitRoute
  repeat' first
    | with_reducible assumption
    | (lift_lets -underBinder; intro x; refine have hx : x.sound = true := ?_; ?_; (unfold x); rotate_left; clear_value x; rotate_right) | (lift_lets -underBinder; intro x; clear_value x)
    | with_reducible apply State.drop_sound
    | with_reducible apply State.routePkt_sound
    | with_reducible apply State.ingressTake_sound
    | with_reducible apply sound_ite
    | refine sound_of_opt (by with_reducible assumption) ?_ | refine sound_of_optSnd (by with_reducible assumption) ?_
    | refine sound_snd (by with_reducible assumption) ?_ | refine sound_fst (by with_reducible assumption) ?_
    | split
    | dsimp -zeta only
    | with_reducible refine State.sound_mk ?_ rfl rfl rfl rfl rfl rfl rfl

theorem State.fenceHold_sound (s : State) (clid : Nat) (t : FenceTrack) (qp : QPkt) (hs : s.sound = true) :
    (State.fenceHold s clid t qp).sound = true := by
  delta State.fenceHold
  repeat' first
    | with_reducible assumption
    | (lift_lets -underBinder; intro x; refine have hx : x.sound = true := ?_; ?_; (unfold x); rotate_left; clear_value x; rotate_right) | (lift_lets -underBinder; intro x; clear_value x)
    | (refine fun _ => ?_; intros; try dsimp -zeta only)
    | with_reducible apply State.upFab_sound
    | with_reducible apply State.drop_sound
    | with_reducible apply State.ingressTake_sound
    | with_reducible apply sound_ite
    | refine sound_snd (by with_reducible assumption) ?_ | refine sound_fst (by with_reducible assumption) ?_
    | split
    | dsimp -zeta only
    | with_reducible refine State.sound_mk ?_ rfl rfl rfl rfl rfl rfl rfl

theorem State.letIn_sound (s : State) (r : PoliceRec) (qp : QPkt) (hs : s.sound = true) :
    (State.letIn s r qp).sound = true := by
  delta State.letIn
  repeat' first
    | with_reducible assumption
    | (lift_lets -underBinder; intro x; refine have hx : x.sound = true := ?_; ?_; (unfold x); rotate_left; clear_value x; rotate_right) | (lift_lets -underBinder; intro x; clear_value x)
    | (refine fun _ => ?_; intros; try dsimp -zeta only)
    | with_reducible apply State.upFab_sound
    | with_reducible apply State.answer_sound
    | with_reducible apply State.refuse_sound
    | with_reducible apply State.admitRoute_sound
    | with_reducible apply State.fenceHold_sound
    | with_reducible apply sound_ite
    | with_reducible apply optSound_getD
    | refine sound_of_opt (by with_reducible assumption) ?_ | refine sound_of_optSnd (by with_reducible assumption) ?_
    | refine sound_snd (by with_reducible assumption) ?_ | refine sound_fst (by with_reducible assumption) ?_
    | split
    | dsimp -zeta only
    | with_reducible refine State.sound_mk ?_ rfl rfl rfl rfl rfl rfl rfl

theorem State.fatalAnswer_sound (s : State) (k : Packet) (hs : s.sound = true) :
    (State.fatalAnswer s k).sound = true := by
  delta State.fatalAnswer
  repeat' first
    | with_reducible assumption
    | with_reducible apply State.send_sound
    | with_reducible apply State.answer_sound
    | with_reducible apply sound_ite
    | dsimp -zeta only

theorem State.police7_sound (s : State) (p : Nat) (k : Packet) (hs : s.sound = true) :
    (State.police7 s p k).sound = true := by
  delta State.police7
  repeat' first
    | with_reducible assumption
    | (lift_lets -underBinder; intro x; refine have hx : x.sound = true := ?_; ?_; (unfold x); rotate_left; clear_value x; rotate_right) | (lift_lets -underBinder; intro x; clear_value x)
    | with_reducible apply State.drop_sound
    | with_reducible apply State.sweepFences_sound
    | with_reducible apply State.police_sound
    | with_reducible apply State.sample_sound
    | with_reducible apply State.letIn_sound
    | with_reducible apply State.fatalAnswer_sound
    | with_reducible apply sound_ite
    | refine sound_of_opt (by with_reducible assumption) ?_ | refine sound_of_optSnd (by with_reducible assumption) ?_
    | refine sound_snd (by with_reducible assumption) ?_ | refine sound_fst (by with_reducible assumption) ?_
    | split
    | dsimp -zeta only
    | with_reducible refine State.sound_mk ?_ rfl rfl rfl rfl rfl rfl rfl

theorem State.afterTrailer_sound (s : State) (p : Nat) (k : Packet) (hs : s.sound = true) :
    (State.afterTrailer s p k).sound = true := by
  delta State.afterTrailer
  repeat' first
    | with_reducible assumption
    | (lift_lets -underBinder; intro x; refine have hx : x.sound = true := ?_; ?_; (unfold x); rotate_left; clear_value x; rotate_right) | (lift_lets -underBinder; intro x; clear_value x)
    | with_reducible apply State.drop_sound
    | with_reducible apply State.countRx_sound
    | with_reducible apply State.consume_sound
    | with_reducible apply State.police7_sound
    | with_reducible apply sound_ite
    | refine sound_snd (by with_reducible assumption) ?_ | refine sound_fst (by with_reducible assumption) ?_
    | split
    | dsimp -zeta only

theorem frameReceive_sound (p : Nat) (f : Frame) (s : State) (hs : s.sound = true) :
    (frameReceive p f s).sound = true := by
  delta frameReceive
  repeat' first
    | with_reducible assumption
    | (lift_lets -underBinder; intro x; refine have hx : x.sound = true := ?_; ?_; (unfold x); rotate_left; clear_value x; rotate_right) | (lift_lets -underBinder; intro x; clear_value x)
    | (refine fun _ => ?_; intros; try dsimp -zeta only)
    | with_reducible apply State.upPort_sound
    | with_reducible apply State.upSp_sound
    | with_reducible apply State.rxSwitched_sound
    | with_reducible apply State.fecCharge_sound
    | with_reducible apply State.frameDrop_sound
    | with_reducible apply State.afterTrailer_sound
    | with_reducible apply sound_ite
    | refine sound_snd (by with_reducible assumption) ?_ | refine sound_fst (by with_reducible assumption) ?_
    | split
    | dsimp -zeta only
    | with_reducible refine State.sound_mk ?_ rfl rfl rfl rfl rfl rfl rfl

end Sys2Proof.Machine
end

