-- ==== Sys2Proof/Laws/Sound/Tick.lean ====
section
/-!
SUPPORT. Soundness is kept by every operation of Machine/Tick.lean.
-/
namespace Sys2Proof.Machine

set_option maxHeartbeats 40000

theorem State.ppsEnd_sound (s : State) (hs : s.sound = true) :
    (State.ppsEnd s).sound = true := by
  delta State.ppsEnd
  repeat' first
    | with_reducible assumption
    | with_reducible apply State.drive_sound
    | with_reducible apply sound_ite
    | dsimp -zeta only

theorem State.tick_sound (s : State) (hs : s.sound = true) :
    (State.tick s).sound = true := by
  delta State.tick
  repeat' first
    | with_reducible assumption
    | (lift_lets -underBinder; intro x; refine have hx : x.sound = true := ?_; ?_; (unfold x); rotate_left; clear_value x; rotate_right) | (lift_lets -underBinder; intro x; clear_value x)
    | with_reducible apply State.inc_sound
    | with_reducible apply State.ppsEnd_sound
    | with_reducible apply sound_ite
    | refine sound_snd (by with_reducible assumption) ?_ | refine sound_fst (by with_reducible assumption) ?_
    | split
    | dsimp -zeta only
    | with_reducible refine State.sound_mk ?_ rfl rfl rfl rfl rfl rfl rfl

end Sys2Proof.Machine
end

