-- ==== Sys2Proof/Tests/Slice0.lean ====
section
/-!
SUPPORT. Tests: what `Instr.wf` refuses, and for the statements of `Certificates/Slice0/Obligations.lean` states and operands that meet the
hypotheses of their clauses, with what one command then does there.
-/
open Sys2Proof Sys2Proof.Machine
namespace Sys2Proof.Tests
-- One declaration at a time: a task for each waits with a stack of its own.
set_option Elab.async false

/-! What a test looks at. -/

/-- Whether a part of two states is the same. -/
def sameB (p : Part) (s t : State) : Bool :=
  match p with
  | .pending => t.pending == s.pending | .regs => t.regs == s.regs | .latches => t.latches == s.latches
  | .hclk => t.hclk == s.hclk | .tabor => t.tabor == s.tabor | .nextFree => t.nextFree == s.nextFree | .out => t.out == s.out
  | .near => t.near == s.near | .tray => t.tray == s.tray | .host => t.host == s.host | .img => t.img == s.img
  | .cfg => t.cfg == s.cfg | .meters => t.meters == s.meters | .flt => t.flt == s.flt | .pool => t.pool == s.pool
  | .fab => t.fab == s.fab | .cmd => t.cmd == s.cmd | .xbr => t.xbr == s.xbr | .shp => t.shp == s.shp | .red => t.red == s.red
  | .att => t.att == s.att | .sqt => t.sqt == s.sqt | .ckp => t.ckp == s.ckp | .coh => t.coh == s.coh | .sec => t.sec == s.sec
  | .car => t.car == s.car | .pins => t.pins == s.pins

/-- No part but the listed ones differs. -/
def frameB (s t : State) (ps : List Part) : Bool :=
  [Part.pending, .regs, .latches, .hclk, .tabor, .nextFree, .out, .near, .tray, .host, .img, .cfg, .meters, .flt, .pool, .fab, .cmd,
   .xbr, .shp, .red, .att, .sqt, .ckp, .coh, .sec, .car, .pins].all fun p => ps.contains p || sameB p s t

/-- No stored field but those of the listed keys differs. -/
def regsB (s t : State) (ks : List Nat) : Bool :=
  (s.regs ++ t.regs).all fun e => ks.contains e.1 || Tab.find? s.regs e.1 == Tab.find? t.regs e.1

/-- A command answers a next state that passes a test. -/
def nextIs (o : Host.Outcome State Fault Refusal) (f : State → Bool) : Bool :=
  match o with
  | .next t => f t
  | _ => false

/-- Whether a command answers a next state that passes a test. -/
def run (c : Instr) (s : State) (f : State → Bool) : Bool := nextIs (exec c s) f

/-- A word access of a pair's hart. -/
def acc : Access := { req := .cp0 }
def z0 : State := State.reset

/-- A state with fields stored: the field, its first index, the value. -/
def withRegs (s : State) (l : List (Fld × Nat × Nat)) : State := l.foldl (fun s f => s.wr f.1 f.2.2 f.2.1) s

/-- Reset with the phase of a running switch. -/
def zRun : State := withRegs z0 [(Reg.PWR_RST_STAT_PHASE, 0, 9)]

/-- The event counter of a field one higher, up to its maximum. -/
def bumped (s t : State) (f : Fld) (i : Nat := 0) (j : Nat := 0) : Bool := t.rd f i j == min (s.rd f i j + 1) (2 ^ f.width - 1)

/-! The window and the machine. -/

theorem test_reset_sound : State.reset.sound = true := by decide +kernel
theorem wit_emptyQueue : z0.pending = [] ∧ z0.car.powered = true ∧
    nextIs (step z0) (fun t => t.hclk == 1 && frameB z0 t [.hclk, .tabor, .meters, .pins, .out]) = true := by decide +kernel
/-- Reset with one valid fen. -/
def zFen3 : State := { z0 with cfg := { fens := [(3, { valid := true })] } }
theorem wit_emptyQueueMeter : zFen3.pending = [] ∧ zFen3.car.powered = true ∧
    nextIs (step zFen3) (fun t => Tab.find? t.meters 3 ==
      some (({} : Meter).advance { valid := true } (z0.rd Reg.GATE_TT_INC_FRAC))) = true := by decide +kernel
/-- A switch without power. -/
def zDark : State := { z0 with car := { powered := false } }
theorem wit_emptyQueueDark : zDark.pending = [] ∧ zDark.car.powered = false ∧
    nextIs (step zDark) (fun t => t.hclk == 1 && t.tabor == 0) = true := by decide +kernel
/-- R9: every field of FLT_COALESCE is RW. -/
theorem wit_writeRw : z0.admitsWrite acc 0x4000C = true ∧ z0.admitsWrite acc 0x200004 = true ∧ z0.admitsWrite acc 0 = true ∧
    z0.admitsWrite acc 0x400004 = true ∧ z0.admitsWrite acc 0x40004 = true ∧ z0.rd Reg.FLT_PEND_WARN ≤ 1 := by decide +kernel
theorem wit_bufferInBringUp : z0.admitsWrite acc 0x2400000 = true ∧ z0.inBringUp = true ∧ z0.bufferOk Reg.XBR_QLIM_CELLS 512 = true := by
  decide +kernel
theorem wit_bufferRunning : zRun.admitsWrite acc 0x2400000 = true ∧ zRun.inBringUp = false := by decide +kernel
theorem wit_writeNotWord : z0.inert = false ∧ plainAccess { req := .cp0, size := 2 } 0 = false ∧
    plainAccess { req := .mgmt, size := 8 } 0x40000 = false := by decide +kernel
/-- A semaphore owned by the debug port. -/
def zSemOwned : State := withRegs z0 [(Reg.CAR_SEM_OWNER, 7, 4)]
theorem wit_writeGuarded : zSemOwned.admitsRead acc 0x2600004 = true ∧ zSemOwned.guardDenies acc 0x2600004 = true := by decide +kernel
theorem wit_reads : z0.admitsRead acc 0x40040 = true ∧ z0.admitsRead acc 0x2800000 = true ∧ z0.latches = [] := by decide +kernel
theorem wit_readLatched : ({ z0 with latches := [(latchKey 1 0x2800004, 9)] } : State).admitsRead acc 0x2800004 = true ∧
    Tab.find? ({ z0 with latches := [(latchKey 1 0x2800004, 9)] } : State).latches (latchKey acc.req.num 0x2800004) = some 9 := by decide +kernel
theorem wit_unmapped : mappedAt 0xFFFFFFC = false ∧ z0.admitsWrite acc 0xFFFFFFC = true ∧ z0.admitsRead acc 0xFFFFFFC = true := by decide +kernel
theorem wit_inert : zDark.inert = true := by decide +kernel

/-! Every check of `Instr.wf` refuses an ill-formed term, and lets a term at the edge of its range through. -/

def accBad : Access := { req := .cp0, size := 3 }
theorem wf_window : [Instr.registerReadClear accBad 0, .registerReadClear acc (2 ^ 28), .registerWrite acc 0 (2 ^ 32) {},
    .registerWrite acc 0 0 { straps := [16] }, .powerOn { failing := [136] }, .fabDeadClear acc 128 0, .unmappedAccess acc (2 ^ 28) true].all
    (fun i => !i.wf) = true ∧
    [Instr.registerReadClear { req := .cp0, size := 8 } (2 ^ 28 - 1), .registerWrite acc 0 (2 ^ 32 - 1) { straps := [15], failing := [135] }, .fabDeadClear acc 127 0].all
    Instr.wf = true := by decide +kernel
theorem wf_links : [Instr.beatSend 32, .linkRetrain 31 9, .linkTrained 31 4, .keyUpdateStart 31 (2 ^ 64), .trayLinkDown 32, .engineTimeout (2 ^ 32),
    .fenceTrackTimeout 4096 0 0, .fenceTrackTimeout 0 4096 0, .fenceTrackTimeout 0 0 (2 ^ 32), .d2dLaneRepair 11, .moveCommit 1048576, .leaseExpire 4096,
    .poolFence acc 64].all (fun i => !i.wf) = true ∧
    [Instr.beatSend 31, .linkRetrain 31 8, .linkTrained 31 3, .fenceTrackTimeout 4095 4095 (2 ^ 32 - 1), .d2dLaneRepair 10, .moveCommit 1048575, .poolFence acc 63].all
    Instr.wf = true := by decide +kernel
theorem wf_engines : [Instr.reduceContrib 4, .reduceDeadline 4096 0, .checkInject acc 16, .pageScrubDone 1024 0, .pageScrubDone 0 (2 ^ 20), .stagingAdmit 64,
    .chunkDispatch 128, .captureEnable acc true 32, .captureDisable acc true 32, .ptmResponse (2 ^ 64) 0].all (fun i => !i.wf) = true ∧
    [Instr.reduceContrib 3, .reduceDeadline 4095 0, .pageScrubDone 1023 (2 ^ 20 - 1), .chunkDispatch 127].all Instr.wf = true := by decide +kernel
theorem wf_coherence : [Instr.rdS 10 0, .rdS 0 491520, .wrNa 0 0 (2 ^ 128) (List.replicate 128 0), .wrNa 0 0 0 [], .wb 0 0 [], .snoopResponse 0 0 11 0,
    .snoopResponse 0 0 0 (2 ^ 32), .ringLaneRepair 10, .arbBite 0 0 0 0 0 .request, .arbBite 6 0 0 0 0 .request, .arbBite 1 (2 ^ 12) 0 0 0 .request,
    .arbBite 1 0 12 0 0 .request, .arbBite 1 0 0 16 0 .request, .arbBite 1 0 0 0 32 .request].all (fun i => !i.wf) = true ∧
    [Instr.rdS 9 491519, .ringLaneRepair 9, .arbBite 5 4095 11 15 31 .request].all Instr.wf = true := by decide +kernel
theorem wf_security : [Instr.getCertificate 8 0 0, .getCertificate 0 (2 ^ 16) 0, .getCertificate 0 0 (2 ^ 16), .challenge 8 [], .getMeasurements 256 [],
    .imageLoad 0 0 (2 ^ 32) 0 [], .imageLoad 0 0 0 (2 ^ 32) [], .imageLoad 0 0 0 0 (List.replicate 4097 0), .keySlot 0 0 4 none, .policy 0 0 (2 ^ 32) [] [],
    .operatorSet 0 0 [] (List.replicate 48 0) (List.replicate 48 0), .operatorSet 0 0 (List.replicate 97 0) [] (List.replicate 48 0),
    .operatorSet 0 0 (List.replicate 97 0) (List.replicate 48 0) [], .ideFail 3].all (fun i => !i.wf) = true := by decide +kernel
theorem wf_faults : [Instr.canaryCheck 8 true, .hubLogicMismatch 12, .clusterFault 128 0, .stackPatrol (2 ^ 40) .good, .clusterTestDone 136 true,
    .spareBistDone 8 true, .mapClear acc [136]].all (fun i => !i.wf) = true := by decide +kernel
theorem wf_plant : [Instr.refclkLoss 2, .refclkGood 2 0, .bringupHwFail (2 ^ 20) 0, .bringupHwFail 0 (2 ^ 11), .warm acc (2 ^ 16) false {},
    .trayEnumeration [{ port := 32 }], .lockstep 2, .carCrcB 0 256, .carCrcH 0 (2 ^ 16), .carCrcW 0 (2 ^ 32), .setEndpointId 256, .getMctpVersionSupport 256,
    .getVendorDefinedMessageSupport 256, .getPdr (2 ^ 32), .getSensorReading (2 ^ 16), .thermalStageExit 8, .regulatorRetry 17 none].all
    (fun i => !i.wf) = true := by decide +kernel
theorem wf_carillon : [Instr.getInfo (some { cmd := 2 ^ 16 }), .getInfo (some { tag := 2 ^ 16 }), .getInfo (some { len := 2 ^ 32 }),
    .sensorSample { temps := List.replicate 97 0 }, .sensorSample { volts := List.replicate 49 0 }, .sensorSample { power := List.replicate 18 none },
    .semAcquire acc 64, .semTimeout 0, .semTimeout 5, .dtmcs (2 ^ 32), .dmi 4 0 0, .dmi 0 (2 ^ 7) 0, .dmi 0 0 (2 ^ 32), .ivAddr (2 ^ 32), .ideKm 0 3].all
    (fun i => !i.wf) = true ∧
    [Instr.semAcquire acc 63, .semTimeout 4, .dmi 3 127 0, .ideKm 0 2].all Instr.wf = true := by decide +kernel

/-! States that tests share. -/

/-- An active link on port 31, to an accelerator. -/
def zLink : State :=
  withRegs { z0 with cfg := { ports := [(31, { role := 1 })] } } [(Reg.FAB_PSTAT_UP, 31, 1), (Reg.FAB_PSTAT_SECURE, 31, 1)]
/-- Client 2, an accelerator on port 31, endpoint 7, of fen 1; region 1, key 5, with every right; one extent in each tier. -/
def zPool : State := { zLink with
  cfg := { zLink.cfg with police := [(2, { clid := 2, endpoint := 7, port := 31, fen := 1, valid := true })] }
  pool := { regions := [(1, { valid := true, base := 0, size := 16, key := 5, fen := 1, dflt := 15 })]
            extents := [(3, { start := 0, state := exRESIDENT, length := 4, tier := tierNEAR, loc := nearLoc 5 2, fen := 1, region := 1 }),
                        (4, { start := 4, state := exRESIDENT, length := 4, tier := tierTRAY, loc := trayLoc 30 1, fen := 1, region := 1 })]
            trays := [(30, { enumerated := true, up := true, units := 64 })] } }
def q0 (k : Packet) : QPkt := { pkt := { k with src := 7, dst := 0xF000 }, conn := 31, clid := some 2 }
def zHome (k : Packet) (s : State := zPool) : State := { s with fab := { s.fab with he0 := [q0 k] } }
/-- Where the near extent lies. -/
def aNear : Nat := locByte tierNEAR (nearLoc 5 2)
/-- A descriptor's operands: references of region 1, key 5, from byte addresses and lengths, then P0 and P1. -/
def descOf (r0 r1 : Nat × Nat) (p0 p1 : Nat) (tail : Bytes := []) : Bytes :=
  padTo 128 (List.replicate 32 0 ++ leBytes 8 r0.1 ++ [1, 0, 5, 0] ++ leBytes 4 (r0.2 / 64) ++ leBytes 8 r1.1 ++ [1, 0, 5, 0] ++
    leBytes 4 (r1.2 / 64) ++ leBytes 8 p0 ++ leBytes 8 p1 ++ tail)
def cmd9 (op : Nat) (desc : Bytes) (x : Chunk := {}) : Cmd :=
  { pair := 8, fen := 1, clid := 2, cmdId := 77, opcode := op, desc := desc, phase := .ready, next := 1
    chunks := [(0, { x with phase := .running })] }
def zFen : State :=
  withRegs { zPool with cfg := { zPool.cfg with fens := [(1, { valid := true, clusters := 1, chgroups := 2 ^ 64 - 1 })]
                                                limits := [(1, { extents := 9, nearBytes := 2 ^ 40, trayBytes := 2 ^ 40 })] } }
    [(Reg.FEN_STATE_STATE, 1, fenRUNNING), (Reg.FEN_NEAR_RSV_UNITS, 1, 100), (Reg.FEN_TRAY_RSV_UNITS, 1, 100)]
def zCmdOf (c : Cmd) (s : State := zFen) : State :=
  { s with cmd := { rings := [(8, { state := ringACTIVE, fen := 1, sqExt := 3, cqExt := 3, cqBase := 512, cqTail := 17, cqLog2 := 4, outstanding := 1 })]
                    cmds := [(9, c)], running := [(0, (9, 0))], nextCid := 10 } }
def zCmd (op : Nat) (desc : Bytes) : State := zCmdOf (cmd9 op desc)

def noRing (s : State) : State := s.upCmd fun b => { b with rings := [] }
/-- An operation of an indirect set has ended with a status. -/
def stIs (f d : Fld) (t : State) (st : Nat) : Bool := t.rd f == st && t.rd d == 1

/-! Links, neighbours and frames. -/

/-- An active link with a LINK packet of a type at the head of its control queue. -/
def zCtl (type : Nat) (payload : Bytes) (q : PortState := {}) (s : State := zLink) : State :=
  s.upPort 31 fun _ => { q with ctl := [(0, { opcode := opLINK, arg := type, payload := payload })] }

theorem wit_beatSend : zLink.knawenPort 31 = true ∧ zLink.linkActive 31 = true ∧ zLink.fatal = false ∧
    run (.beatSend 31) zLink (fun t => t.out == [.frame 31 0 (linkPacket 0 0 [])] && (t.port 31).beatsSent == 1 &&
      frameB zLink t [.regs, .meters, .out, .fab]) = true := by decide +kernel
theorem wit_linkBeat : (zCtl 0 []).headLink 31 0 ≠ none ∧ (zCtl 0 []).knawenPort 31 = true ∧
    run (.linkBeat 31) (zCtl 0 [] {} (withRegs zLink [(Reg.FAB_PSTAT_DEAD, 31, 1), (Reg.FAB_PSTAT_BEAT_MISS, 31, 3)])) (fun t =>
      t.alive 31 && t.rd Reg.FAB_PSTAT_BEAT_MISS 31 == 0 && (t.port 31).ctl == []) = true := by decide +kernel
theorem wit_beatMiss : zLink.rd Reg.FAB_PSTAT_BEAT_MISS 31 < 2 ∧ run (.beatMiss 31) zLink (fun t => t.rd Reg.FAB_PSTAT_BEAT_MISS 31 == 1 &&
    frameB zLink t [.regs] && regsB zLink t [Reg.FAB_PSTAT_BEAT_MISS.key 31 0, Reg.FAB_CNT_BEAT_MISS.key 31 0]) = true := by decide +kernel
/-- Two missed intervals and a home behind the port. -/
def zMissed : State := ({ zLink with xbr := { bank0 := { routes := [(4095, { portset := 2 ^ 31, map := List.replicate 64 31 })] } } } : State).wr
  Reg.FAB_PSTAT_BEAT_MISS 2 31
theorem wit_thirdMiss : zMissed.on Reg.FAB_PSTAT_DEAD 31 = false ∧ zMissed.knawenPort 31 = true ∧ zMissed.linkActive 31 = true ∧
    zMissed.rd Reg.FAB_PSTAT_BEAT_MISS 31 = 2 ∧ zMissed.xbr.voqs = [] ∧ zMissed.xbr.egress = [] ∧ (zMissed.port 31).arriving = [] ∧
    zMissed.fab.eng = [] ∧ zMissed.red.insts = [] ∧ (zMissed.bank.routes.all fun r => decide (r.1 < 4096)) = true ∧
    bitList 32 (2 ^ 31) = [31] ∧ run (.beatMiss 31) zMissed (fun t => !t.alive 31 && t.homeDead 4095) = true := by decide +kernel
theorem wit_linkDown : run (.linkDown 31 .lockLost) zMissed (fun t => !t.alive 31 && t.homeDead 4095 && t.rd Reg.FAB_PSTAT_UP 31 == 0 &&
    t.rd Reg.FAB_PSTAT_SECURE 31 == 0 && (t.port 31).nextTx == 0 && (t.port 31).ctl == []) = true := by decide +kernel
/-- The home is dead. -/
def zDeadHome (neighbour : Nat) : State := withRegs zMissed [(Reg.FAB_DEAD, 127, 2 ^ 31), (Reg.FAB_PSTAT_DEAD, 31, neighbour)]
theorem wit_fabDeadClear : (zDeadHome 0).admitsWrite acc (0x2200100 + 4 * 127) = true ∧ (zDeadHome 0).homeDead (32 * 127 + 31) = true ∧
    (bitList 32 ((zDeadHome 0).routePorts (32 * 127 + 31))).any (zDeadHome 0).alive = true ∧
    run (.fabDeadClear acc 127 (2 ^ 31)) (zDeadHome 0) (fun t => !t.homeDead 4095 && regsB (zDeadHome 0) t [Reg.FAB_DEAD.key 127 0]) = true := by
  decide +kernel
theorem wit_fabDeadStays : (zDeadHome 1).homeDead 4095 = true ∧
    (bitList 32 ((zDeadHome 1).routePorts (32 * 127 + 31))).any (zDeadHome 1).alive = false ∧
    run (.fabDeadClear acc 127 (2 ^ 31)) (zDeadHome 1) (fun t => t == zDeadHome 1) = true := by decide +kernel
theorem wit_linkRetrain : zLink.on Reg.FAB_PSTAT_UP 31 = true ∧ run (.linkRetrain 31 0) zLink (fun t => t.rd Reg.FAB_PSTAT_UP 31 == 0 &&
    t.rd Reg.FAB_PSTAT_RETRAIN 31 == 1 && t.rd Reg.FAB_PSTAT_SECURE 31 == 1 && frameB zLink t recordParts &&
    regsB zLink t (Reg.FAB_PSTAT_UP.key 31 0 :: Reg.FAB_PSTAT_RETRAIN.key 31 0 :: scoreKeys)) = true := by decide +kernel
/-- A powered port that is not up. -/
def zTrain : State := (withRegs zLink [(Reg.FAB_PSTAT_UP, 31, 0), (Reg.FAB_PSTAT_SECURE, 31, 0)]).upPort 31 fun q => { q with powered := true }
theorem wit_linkTrained : zTrain.knawenPort 31 = true ∧ (zTrain.port 31).powered = true ∧ zTrain.on Reg.FAB_PSTAT_UP 31 = false ∧
    run (.linkTrained 31 0) zTrain (fun t => t.rd Reg.FAB_PSTAT_UP 31 == 1 && frameB zTrain t [.regs]) = true ∧
    run (.linkTrained 31 1) zTrain (fun t => t.rd Reg.FAB_PSTAT_UP 31 == 0 && frameB zTrain t recordParts && regsB zTrain t recordKeys) = true := by
  decide +kernel
/-- An up port that is not secure, with entropy. -/
def zPlain : State := withRegs zLink [(Reg.FAB_PSTAT_SECURE, 31, 0), (Reg.SEC_TRNG_OK, 0, 1)]
theorem wit_linkSecureRefused : zPlain.on Reg.FAB_PSTAT_UP 31 = true ∧ zPlain.on Reg.FAB_PSTAT_SECURE 31 = false ∧ zPlain.entropy = true ∧
    zPlain.peerRefused 31 { authentic := false } = some 0 ∧ run (.linkSecure 31 { authentic := false }) zPlain (fun t =>
      t.rd Reg.FAB_PSTAT_UP 31 == 0 && !(t.port 31).powered && bumped zPlain t Reg.SEC_CNT_LINK_AUTH &&
      frameB zPlain t [.regs, .fab, .flt, .out, .host]) = true := by decide +kernel
/-- Whose root a chain leads to is a device constant (opaque): the witness is for every chain that leads to one. -/
theorem wit_linkSecure (chain r : Bytes) (h : Config.chainRoot chain = some r) :
    ({ zPlain with sec := { inForce := some (0, [r], []) } } : State).peerRefused 31 { chain := chain } = none := by
  have hr : (({ zPlain with sec := { inForce := some (0, [r], []) } } : State).portCfg 31).role ≠ roleUplink :=
    (by decide +kernel : (zPlain.portCfg 31).role ≠ roleUplink)
  simp [State.peerRefused, State.policyNow, h, hr]
/-- SPDM, KEY_SWITCH and KEY_ACK packets at the head; on an uplink to a lower home the port is the responder. -/
def zResp : State := { zLink with cfg := { ports := [(31, { role := roleUplink, peerHome := 0 })] } }
theorem wit_linkSpdm : ((zCtl 1 [] {} zResp).headLink 31 1).isSome = true ∧ (zCtl 1 [] {} zResp).spdmRequester 31 = false ∧
    ((zCtl 1 []).headLink 31 1).isSome = true ∧ (zCtl 1 []).spdmRequester 31 = true ∧
    run (.linkSpdm 31) (zCtl 1 []) (fun t => (t.port 31).ctl == [] && (t.port 31).spdm == 1 && frameB (zCtl 1 []) t [.fab]) = true := by
  decide +kernel
theorem wit_keyUpdateStart : zResp.knawenPort 31 = true ∧ zResp.linkActive 31 = true ∧ (zResp.port 31).txSwitch = none ∧
    (zResp.port 31).nextTx < 2 ^ 64 - 1 ∧ zResp.spdmRequester 31 = false ∧ run (.keyUpdateStart 31 (2 ^ 64 - 1)) zResp (fun t =>
      (t.port 31).txSwitch == some (2 ^ 64 - 1) && !(t.port 31).txAcked && frameB zResp t [.regs, .meters, .out, .fab] &&
      t.out == [.frame 31 0 (linkPacket 2 0 (padTo 64 (leBytes 8 (2 ^ 64 - 1))))]) = true := by decide +kernel
theorem wit_keySwitch : ((zCtl 2 (padTo 64 [5])).headLink 31 2).isSome = true ∧ run (.keySwitch 31) (zCtl 2 (padTo 64 [5])) (fun t =>
    (t.port 31).rxSwitch == some 5 && t.out == [.frame 31 0 (linkPacket 3 0 (padTo 64 [5]))] &&
    frameB (zCtl 2 (padTo 64 [5])) t [.regs, .meters, .out, .fab]) = true := by decide +kernel
theorem wit_keyAck : ((zCtl 3 (padTo 64 [5])).headLink 31 3).isSome = true ∧ fld (padTo 64 [5]) 0 8 = 5 ∧
    run (.keyAck 31) (zCtl 3 (padTo 64 [5]) { txSwitch := some 5, nextTx := 5 }) (fun t => (t.port 31).txSwitch == none &&
      t.rd Reg.FAB_PSTAT_KEY_SLOT 31 == 1 && t.rd Reg.FAB_CNT_REKEY 31 == 1 &&
      frameB (zCtl 3 (padTo 64 [5]) { txSwitch := some 5, nextTx := 5 }) t [.regs, .fab]) = true ∧
    run (.keyAck 31) (zCtl 3 (padTo 64 [5]) { txSwitch := some 5, nextTx := 4 }) (fun t => (t.port 31).txSwitch == some 5 &&
      (t.port 31).txAcked && frameB (zCtl 3 (padTo 64 [5]) { txSwitch := some 5, nextTx := 4 }) t [.fab]) = true := by decide +kernel
/-- One home with a rate. -/
def zCc (c : CcRate) : State := withRegs { z0 with fab := { cc := [(3, c)] } } [(Reg.FAB_CC_CTL_ENABLE, 0, 1)]
theorem wit_ccWindowEnd : (zCc { r := 100 }).on Reg.FAB_CC_CTL_ENABLE = true ∧
    run .ccWindowEnd (zCc { r := 399999 }) (fun t => t.fab.cc == [(3, { r := 400000 })] && frameB (zCc { r := 399999 }) t [.fab]) = true ∧
    run .ccWindowEnd (zCc { r := 5, congested := true, decreased := true }) (fun t => t.fab.cc == [(3, { r := 5 })]) = true := by
  decide +kernel
/-- A tray on port 31 with its link up. -/
def zTray : State := { z0 with cfg := { ports := [(31, { role := roleTray })] }
                               pool := { trays := [(31, { enumerated := true, up := true })] } }
theorem wit_trayLinkDown : (zTray.portCfg 31).role = roleTray ∧ (zTray.trayRec (zTray.trayPort 31)).up = true ∧ zTray.pool.moves = [] ∧
    run (.trayLinkDown 31) zTray (fun t => !(t.trayRec 31).up && frameB zTray t [.regs, .flt, .out, .host, .pool]) = true := by decide +kernel

/-- A READ of a granule as it arrives. -/
def kRead : Packet := { opcode := opREAD, dst := 0xF000, src := 7, len := 64, addr := 64 }
def fParts : List Part := [.regs, .flt, .out, .host, .shp, .fab]
theorem wit_notListening : z0.portListens 31 = false ∧ run (.frameReceive 31 {}) z0 (fun t => t == z0) = true := by decide +kernel
theorem wit_fecFails : zLink.portListens 31 = true ∧ run (.frameReceive 31 { fecOk := false }) zLink (fun t =>
    bumped zLink t Reg.FAB_CNT_FEC_UNCORR 31 && frameB zLink t [.regs, .flt, .out, .host, .shp]) = true := by decide +kernel
theorem wit_tagFails : zLink.on Reg.FAB_PSTAT_SECURE 31 = true ∧ zLink.tagAccepted 31 { tagOk := false } = false ∧
    run (.frameReceive 31 { tagOk := false }) zLink (fun t => bumped zLink t Reg.FAB_CNT_TAG_FAIL 31 &&
      frameB zLink t [.regs, .flt, .out, .host, .shp]) = true := by decide +kernel
theorem wit_numberFails : (zLink.upPort 31 fun q => { q with lastRx := some 5 }).tagAccepted 31 { pkn := 5 } = false ∧
    (zLink.upPort 31 fun q => { q with lastRx := some 5 }).tagAccepted 31 { pkn := 6 } = true := by decide +kernel
theorem wit_trailerFails : zLink.tagAccepted 31 { pkt := kRead } = true ∧ kRead.trailerOk = false ∧
    run (.frameReceive 31 { pkt := kRead }) zLink (fun t => bumped zLink t Reg.FAB_CNT_CRC_FAIL 31 &&
      (t.port 31).lastRx == some 0 && frameB zLink t fParts) = true := by decide +kernel
theorem wit_lengthFails : ({ kRead with payload := [0] }).seal.trailerOk = true ∧ lengthFails ({ kRead with payload := [0] }).seal = true ∧
    run (.frameReceive 31 { pkt := ({ kRead with payload := [0] } : Packet).seal }) zLink (fun t => bumped zLink t Reg.FAB_CNT_LEN_FAIL 31 &&
      frameB zLink t fParts) = true := by decide +kernel
theorem wit_linkPacket : (linkPacket 0 0 []).seal.trailerOk = true ∧ lengthFails (linkPacket 0 0 []).seal = false ∧
    run (.frameReceive 31 { pkt := (linkPacket 0 0 []).seal }) zLink (fun t => (t.port 31).ctl == [(0, (linkPacket 0 0 []).seal)] &&
      frameB zLink t (.meters :: fParts)) = true := by decide +kernel
theorem wit_hops : ({ kRead with hops := 3 }).seal.trailerOk = true ∧ lengthFails ({ kRead with hops := 3 }).seal = false ∧
    run (.frameReceive 31 { pkt := ({ kRead with hops := 3 } : Packet).seal }) zLink (fun t => bumped zLink t Reg.FAB_CNT_HOPS 31 &&
      t.xbr == zLink.xbr) = true := by decide +kernel
theorem wit_noClient : kRead.seal.trailerOk = true ∧ lengthFails kRead.seal = false ∧ zLink.clientOf 7 = none ∧
    run (.frameReceive 31 { pkt := kRead.seal }) zLink (fun t => bumped zLink t Reg.XBR_P_DROP_NOCLIENT 31 && t.xbr == zLink.xbr) = true := by
  decide +kernel
/-- Client 2 on port 31 with endpoint 7 and no limits. -/
def zClient : State := { zLink with cfg := { zLink.cfg with
  police := [(2, { clid := 2, endpoint := 7, port := 31, fen := 1, valid := true, rates := List.replicate 4 0xFFFFFFFF })] } }
theorem wit_frameQueued : zClient.portListens 31 = true ∧ zClient.fatal = false ∧ (zClient.clientOf 7).isSome = true ∧
    zClient.rd Reg.XBR_P_SAMPLE_N 31 = 0 ∧ zClient.on Reg.XBR_CAP_CTL_ENABLE = false ∧ zClient.fab.fences = [] ∧
    zClient.lookup 31 kRead.seal = .toHome ∧ zClient.ingressRoom 31 kRead.cells = true ∧ kRead.seal.fence = false ∧
    run (.frameReceive 31 { pkt := kRead.seal }) zClient (fun t => Tab.find? t.xbr.voqs (voqKey 31 connHE0 0) ==
      some [{ pkt := kRead.seal, conn := 31, rx := 0, clid := some 2, held := 1 }]) = true := by decide +kernel

/-! Flows. -/

/-- Two live ports that carry packets, and one that carries none, in a set of four. -/
def zPorts : State := withRegs { z0 with cfg := { ports := [(3, { role := 1 }), (9, { role := 1 }), (12, { role := 1 })] } } [(Reg.FAB_PSTAT_DEAD, 12, 1)]
theorem wit_flows : (List.range 32).filter (fun q => bit (2 ^ 3 + 2 ^ 9 + 2 ^ 12 + 2 ^ 20) q && (zPorts.portCfg q).role != roleNone &&
      (zPorts.portCfg q).role != roleTray && zPorts.alive q) = [3, 9] ∧
    (zPorts.buildMap (2 ^ 3 + 2 ^ 9 + 2 ^ 12 + 2 ^ 20)).take 3 = [3, 9, 3] ∧
    zPorts.egressBy (List.replicate 64 9) 31 { src := 1, dst := 2, flow := 3 } = .toPort 9 := by decide +kernel

/-! The crossbar, the egress queues and the engines' requests. -/

/-- One packet of a cell, from port 0 to the last port's last queue. -/
def zVoq : State := { z0 with xbr := { voqs := [(voqKey 0 31 7, [{ pkt := kRead }])] } }
theorem wit_schedulerIdle : z0.xbr.voqs = [] := by decide +kernel
theorem wit_schedulerOne : zVoq.xbr.recent = [] ∧ kRead.cells = 1 ∧ zVoq.qDepth 31 7 + 1 ≤ zVoq.rd Reg.XBR_QLIM_CELLS := by decide +kernel
/-- A packet that has arrived at port 31's die, without and with ECT. -/
def zArrived (flags : Nat) : State := zLink.upPort 31 fun q => { q with arriving := [{ pkt := { kRead with flags := flags } }] }
theorem wit_egressEnqueue : ((zArrived 0).port 31).arriving ≠ [] ∧ kRead.queue < 8 ∧ kRead.ect = false ∧
    run (.egressEnqueue 31) (zArrived 0) (fun t => (t.port 31).arriving == [] && t.queue 31 0 == [{ pkt := kRead }]) = true := by decide +kernel
theorem wit_egressMarked : ({ kRead with flags := 8 } : Packet).ect = true ∧
    (withRegs (zArrived 8) [(Reg.FAB_CE_THR_MIN, 31, 0), (Reg.FAB_CE_THR_MAX, 31, 0)]).rd Reg.FAB_CE_THR_MAX 31 = 0 ∧
    run (.egressEnqueue 31) (withRegs (zArrived 8) [(Reg.FAB_CE_THR_MIN, 31, 0), (Reg.FAB_CE_THR_MAX, 31, 0)]) (fun t =>
      t.queue 31 0 == [{ pkt := { kRead with flags := 24 } }] && t.rd Reg.FAB_CNT_CE_MARK 31 == 1) = true := by decide +kernel
/-- A packet in an egress queue of an active link. -/
def zEgress (h : QPkt) : State := { zLink with xbr := { egress := [(31 * 8 + 7, [h])] } }
theorem wit_portSelect : (zEgress { pkt := kRead }).maySend 31 = true ∧ (zEgress { pkt := kRead }).queue 31 7 = [{ pkt := kRead }] ∧
    ((List.range 7).all fun k => (zEgress { pkt := kRead }).queue 31 k == []) = true ∧ ((zEgress { pkt := kRead }).portCfg 31).gateMode = 0 ∧
    (zEgress { pkt := kRead }).shaperOpen 31 7 kRead = true ∧ ((zEgress { pkt := kRead }).sp 31).sleep = none ∧
    run (.portSelect 31 false) (zEgress { pkt := kRead }) (fun t => t.out == [.frame 31 0 kRead] && t.queue 31 7 == []) = true := by
  decide +kernel
theorem wit_portSelectNone : z0.maySend 31 = false := by decide +kernel
theorem wit_packetHold : (zEgress { pkt := kRead }).xbr.voqs = [] ∧
    usToHclk ((zEgress {}).rd Reg.FAB_HOLD_MAX_US) < ({ zEgress {} with hclk := 2 ^ 40 } : State).hclk - 0 := by decide +kernel

/-- A response waits for the engines' command 9. -/
def zEng (status : Nat) (e : Tab EngReq) : State :=
  { z0 with hclk := 100, fab := { rsp := [{ pkt := { opcode := 0x81, seq := 2 ^ 32 - 1, status := status } }], eng := e }
            cmd := { cmds := [(9, {})] } }
def eReq (copies due : Nat) : EngReq := { cid := 9, tag := 3, pkt := { opcode := opREAD, seq := 2 ^ 32 - 1 }, copies := copies, due := due }
theorem wit_responseUnknown : Tab.find? (zEng 0 []).fab.eng (2 ^ 32 - 1) = none ∧
    run .engineResponse (zEng 0 []) (fun t => t.fab.rsp == [] && bumped (zEng 0 []) t Reg.XBR_DROP_NOREQ) = true := by decide +kernel
theorem wit_responseEnds : (Tab.find? (zEng 0 [(2 ^ 32 - 1, eReq 1 0)]).cmd.cmds 9).map (·.ckp.marking) = some 0 ∧ stOK ≠ stRETRY ∧
    run .engineResponse (zEng 0 [(2 ^ 32 - 1, eReq 1 0)]) (fun t => t.fab.eng == [] &&
      (Tab.find? t.cmd.cmds 9).map (·.peers) == some [(3, (0, []))]) = true := by decide +kernel
theorem wit_responseRetry : (eReq 0 0).copies ≤ z0.cfg.device.retries ∧ run .engineResponse (zEng stRETRY [(2 ^ 32 - 1, eReq 0 0)]) (fun t =>
    t.fab.rsp == [] && t.fab.eng.length == 1) = true := by decide +kernel
theorem wit_timeoutEarly : (zEng 0 [(2 ^ 32 - 1, eReq 0 101)]).hclk < (eReq 0 101).due := by decide +kernel
theorem wit_timeoutAgain : (eReq 0 100).due ≤ (zEng 0 []).hclk ∧ (eReq 0 100).copies ≤ (zEng 0 []).cfg.device.retries ∧
    run (.engineTimeout (2 ^ 32 - 1)) (zEng 0 [(2 ^ 32 - 1, eReq 0 100)]) (fun t =>
      (Tab.find? t.fab.eng (2 ^ 32 - 1)).map (fun x => (x.copies, x.pkt.retx)) == some (1, true)) = true := by decide +kernel
theorem wit_timeoutLast : (zEng 0 []).cfg.device.retries < (eReq 99 100).copies ∧ run (.engineTimeout (2 ^ 32 - 1))
    (zEng 0 [(2 ^ 32 - 1, eReq 99 100)]) (fun t => t.fab.eng == [] && (Tab.find? t.cmd.cmds 9).map (·.peers) == some [(3, (stTIMEOUT, []))])
    = true := by decide +kernel
/-- A fenced request without response, and one held behind it. -/
def zFence (l : List FenceEnt) : State := { z0 with hclk := 2 ^ 40, fab := { fences := [(5, l)] } }
def heldReq : FenceEnt := { src := 7, seq := 2, fence := true, held := some { pkt := kRead } }
theorem wit_fenceTimeout : 0 + (z0.cfg.device.retries + 1) * z0.timeoutHclk ≤ 2 ^ 40 ∧
    run (.fenceTrackTimeout 5 7 1) (zFence [{ src := 7, seq := 1, tracked := true, fence := true }]) (fun t => t.fab.fences == [(5, [])]) = true ∧
    run (.fenceTrackTimeout 5 7 1) (zFence [{ src := 7, seq := 1, tracked := true, fence := true }, heldReq]) (fun t =>
      t.fab.fences == [(5, [])] && t.rd Reg.FAB_FENCE_TO == 1) = true := by decide +kernel

/-! Requests at their home. -/

def kR : Packet := { opcode := opREAD, len := 70, addr := 3, region := 1, key := 5 }
def zBytes : State := { zPool with near := memWrite [] (aNear + 2) [1, 2, 3] }

theorem wit_read : (q0 kR).pkt.kind = .read ∧ (zHome kR).preCheck (q0 kR) false = none ∧ (q0 kR).pkt.inWindow = false ∧
    ((zHome kR).resolve 2 1 rtR (q0 kR).pkt 70).1 = stOK ∧ ((zHome kR).resolve 2 1 rtR (q0 kR).pkt 70).2.map (·.1) = some 3 ∧
    (zHome kR).who (q0 kR) = (2, 1) ∧ (zHome kR).behindWrite (q0 kR).pkt 70 = false ∧ (zHome kR).badRange tierNEAR (aNear + 3) 70 = false ∧
    (zHome kR).lookup connHE0 (respond (q0 kR).pkt stOK 0 (List.replicate 128 0)) = .toPort 31 ∧
    (zHome kR).on Reg.XBR_CAP_CTL_ENABLE = false ∧ (zHome kR).fab.fences = [] ∧
    run .read (zHome kR zBytes) (fun t => t.fab.he0 == [] && frameB (zHome kR zBytes) t [.fab, .xbr] &&
      (t.voq connHE0 31 1).map (fun x => (x.pkt.status, x.pkt.payload.length, x.pkt.payload.take 6)) == [(stOK, 128, [0, 0, 0, 2, 3, 0])]) = true := by
  decide +kernel
/-- A write of the same sender to the granule is in flight. -/
def zBehind : State := { zPool with pool := { zPool.pool with
  writes := [(1, { pkt := { src := 7, opcode := opWRITE, len := 64, addr := 64 }, ext := 3, at_ := aNear + 64 })] } }
theorem wit_readWaits : (zHome kR zBehind).behindWrite (q0 kR).pkt 70 = true ∧ (zHome kR zBehind).preCheck (q0 kR) false = none ∧
    run .read (zHome kR zBehind) (fun t => t == zHome kR zBehind) = true := by decide +kernel
theorem wit_readMalformed : (zHome { kR with len := 0 }).preCheck (q0 { kR with len := 0 }) false = some (stMALFORMED, 6) ∧
    run .read (zHome { kR with len := 0 }) (fun t => t.fab.he0 == [] && frameB (zHome { kR with len := 0 }) t [.fab, .xbr] &&
      (t.voq connHE0 31 1).map (fun x => (x.pkt.status, x.pkt.arg)) == [(stMALFORMED, 6)]) = true := by decide +kernel
theorem wit_readKeyDenied : (zHome { kR with key := 6 }).resolve 2 1 rtR (q0 { kR with key := 6 }).pkt 70 = (stKEY_DENIED, none) ∧
    run .read (zHome { kR with key := 6 }) (fun t => (t.voq connHE0 31 1).map (fun x => x.pkt.status) == [stKEY_DENIED]) = true := by decide +kernel

def kW : Packet := { opcode := opWRITE, len := 3, addr := 2, region := 1, key := 5, payload := padTo 64 [0, 0, 7, 8, 9, 1] }
theorem wit_write : ((zHome kW).resolve 2 1 rtW (q0 kW).pkt 3).2.map (·.1) = some 3 ∧ (zHome kW).preCheck (q0 kW) false = none ∧
    (zHome kW).ownRing 2 2 3 = false ∧ Tab.find? (zHome kW).pool.moves 3 = none ∧
    (zHome kW).lookup connHE0 (respond (q0 kW).pkt stOK 0 []) = .toPort 31 ∧
    run .write (zHome kW) (fun t => t.fab.he0 == [] && frameB (zHome kW) t [.fab, .xbr, .pool] && t.near == [] &&
      (Tab.find? t.pool.writes 0).map (fun w => (w.pkt, w.ext, w.tier, w.at_, w.fenced)) == some ((q0 kW).pkt, 3, tierNEAR, aNear + 2, false) &&
      (t.voq connHE0 31 1).map (fun x => x.pkt.status) == [stOK]) = true ∧
    run .writeFenced (zHome { kW with opcode := opWRITE_FENCED }) (fun t => t.fab.he0 == [] &&
      frameB (zHome { kW with opcode := opWRITE_FENCED }) t [.fab, .pool] && (Tab.find? t.pool.writes 0).map (·.fenced) == some true) = true := by
  decide +kernel
def zFly (w : InWrite) : State := { zPool with near := memWrite [] aNear [5, 5, 5, 5, 5, 5], pool := { zPool.pool with writes := [(6, w)] } }
def wNear : InWrite := { pkt := (q0 kW).pkt, ext := 3, tier := tierNEAR, at_ := aNear + 2 }
theorem wit_writePerformed : (zFly wNear).badRange tierNEAR wNear.at_ 3 = false ∧ Memory.wf (zFly wNear).near = true ∧
    run (.writePerformed 6 true) (zFly wNear) (fun t => t.pool.writes == [] && memRead t.near aNear 7 == [5, 5, 7, 8, 9, 5, 0] &&
      frameB (zFly wNear) t [.near, .pool, .fab, .cmd, .flt]) = true ∧
    run (.writePerformed 6 false) (zFly wNear) (fun t => t.pool.writes == [] && bumped (zFly wNear) t Reg.XBR_DROP_EXEC_CRC &&
      frameB (zFly wNear) t [.regs, .pool, .cmd]) = true := by decide +kernel
/-- A fenced write toward the tray. -/
def wTray : InWrite := { pkt := (q0 { kW with opcode := opWRITE_FENCED }).pkt, ext := 4, tier := tierTRAY, at_ := 2 ^ 50 + 2, fenced := true }
theorem wit_writePerformedTray : (zFly wTray).badRange tierTRAY wTray.at_ 3 = false ∧ Memory.wf (zFly wTray).tray = true ∧
    (zFly wTray).lookup connHE0 (respond wTray.pkt stOK 0 []) = .toPort 31 ∧
    run (.writePerformed 6 true) (zFly wTray) (fun t => memRead t.tray (2 ^ 50) 6 == [0, 0, 7, 8, 9, 0] &&
      (t.voq connHE0 31 1).map (fun x => x.pkt.status) == [stOK] && frameB (zFly wTray) t [.tray, .pool, .fab, .cmd, .flt, .xbr]) = true := by
  decide +kernel
/-- Two writes to one granule. -/
def zTwo : State := { zPool with pool := { zPool.pool with writes := [(5, wNear), (6, wNear)] } }
theorem wit_writeWaits : run (.writePerformed 6 true) zTwo (fun t => t == zTwo) = true := by decide +kernel

/-- ADD of an unsigned 32-bit value. -/
def kA : Packet := { opcode := opATOMIC, len := 64, addr := 8, region := 1, key := 5, arg := 0x00, payload := padTo 64 [255, 255, 255, 255] }
theorem wit_clearPaths (st arg : Nat) (body : Bytes) : (zHome kA).clearPath (respond (q0 kA).pkt st arg body) 31 :=
  ⟨rfl, by decide +kernel, by decide +kernel⟩
theorem wit_atomic : (zHome kA).preCheck (q0 kA) false = none ∧ ((zHome kA).resolve 2 1 rtA (q0 kA).pkt 4).2.map (·.1) = some 3 ∧
    (zHome kA).behindWrite (q0 kA).pkt 1 = false ∧ Tab.find? (zHome kA).pool.moves 3 = none ∧ ((zHome kA).ext 3).tier = tierNEAR ∧
    (zHome kA).young (Tab.getD (zHome kA).fab.hist (dieAt tierNEAR (aNear + 8)) []) = [] ∧ (zHome kA).badRange tierNEAR (aNear + 8) 4 = false ∧
    run .atomic (zHome kA { zPool with near := memWrite [] (aNear + 8) [5] }) (fun t => t.fab.he0 == [] && memRead t.near (aNear + 7) 6 == [0, 4, 0, 0, 0, 0] &&
      (Tab.find? t.fab.hist (dieAt tierNEAR (aNear + 8))).map (fun l => l.map fun x => (x.src, x.seq, x.status, x.old, x.arg)) == some [(7, 0, stOK, 5, 0)] &&
      (t.voq connHE0 31 1).map (fun x => (x.pkt.status, x.pkt.arg, x.pkt.payload.take 2)) == [(stOK, 0, [5, 0])] &&
      frameB (zHome kA { zPool with near := memWrite [] (aNear + 8) [5] }) t [.near, .fab, .xbr]) = true := by decide +kernel
/-- The request has been executed. -/
def zDone : State := { zPool with fab := { hist := [(dieAt tierNEAR (aNear + 8), [{ src := 7, seq := 0, addr := 8, old := 9, ext := 3 }])] } }
theorem wit_atomicCopy : (((zHome kA zDone).young (Tab.getD zDone.fab.hist (dieAt tierNEAR (aNear + 8)) [])).find? fun x =>
      x.src == 7 && x.seq == 0).isSome = true ∧ run .atomic (zHome kA zDone) (fun t => t.near == [] && bumped zDone t Reg.FAB_HIST_DUP &&
      t.fab.hist == zDone.fab.hist && (t.voq connHE0 31 1).map (fun x => (x.pkt.arg, x.pkt.payload.take 2)) == [(2, [9, 0])] &&
      frameB (zHome kA zDone) t [.regs, .fab, .xbr]) = true := by decide +kernel
theorem wit_historyExpire : run (.historyExpire 0) { zDone with tabor := 2 ^ 80 } (fun t =>
    t.fab.hist == Tab.upd zDone.fab.hist 0 fun h => ({ zDone with tabor := 2 ^ 80 } : State).young h) = true := by decide +kernel

/-! The control window. -/
def kWin (op o : Nat) (payload : Bytes) : Packet := { opcode := op, len := 64, addr := windowBase + o, payload := padTo 64 payload }
/-- Client 2 has a lease and, on its fourth pair, a ring with 3 entries fetched of 5. -/
def zWin : State := { zPool with
  cfg := { zPool.cfg with device := { leaseMinS := 1, leaseMaxS := 200 } }
  pool := { zPool.pool with leases := [(2, { running := true, deadline := 100 })] }
  cmd := { rings := [(11, { state := ringACTIVE, fen := 1, sqTail := 5, fetchHead := 3, cqTail := 2, cqHead := 1 })] } }
theorem wit_windowPaths (st arg : Nat) (body : Bytes) : (zHome (kWin opREAD 0x10000 []) zWin).clearPath (respond (q0 (kWin opREAD 0x10000 [])).pkt st arg body) 31 ∧
    (zHome (kWin opWRITE 0xC0 []) zWin).clearPath (respond (q0 (kWin opWRITE 0xC0 [])).pkt st arg body) 31 :=
  ⟨⟨rfl, by decide +kernel, by decide +kernel⟩, ⟨rfl, by decide +kernel, by decide +kernel⟩⟩
theorem wit_leaseHeartbeat : ∀ s, s = zHome (kWin opREAD 0x10000 []) zWin → (q0 (kWin opREAD 0x10000 [])).pkt.kind = .leaseRead ∧
    s.preCheck (q0 (kWin opREAD 0x10000 [])) true = none ∧ (Tab.find? s.pool.leases 2).map (fun l => (l.running, s.lapsed l)) = some (true, false) ∧
    run .leaseHeartbeat s (fun t => t.lease 2 == s.renew (s.lease 2) && frameB s t [.fab, .xbr, .pool] &&
      (t.voq connHE0 31 1).map (fun x => (x.pkt.status, x.pkt.payload)) == [(stOK, t.leaseRecord 2)]) = true := by
  intro s h; subst h; decide +kernel
theorem wit_leaseWordWrite : ∀ s, s = zHome (kWin opWRITE 0x10000 [200]) zWin → (q0 (kWin opWRITE 0x10000 [200])).pkt.kind = .leaseWrite ∧
    s.preCheck (q0 (kWin opWRITE 0x10000 [200])) true = none ∧ fld (padTo 64 [200]) 0 1 = s.cfg.device.leaseMaxS ∧
    run .leaseWordWrite s (fun t => (t.lease 2).periodS == 200 && frameB s t [.fab, .xbr, .pool] &&
      (t.voq connHE0 31 1).map (fun x => x.pkt.status) == [stOK]) = true := by intro s h; subst h; decide +kernel
theorem wit_sqDoorbell : ∀ s, s = zHome (kWin opWRITE 0xC0 [19]) zWin → (q0 (kWin opWRITE 0xC0 [19])).pkt.kind = .sqBell ∧
    s.preCheck (q0 (kWin opWRITE 0xC0 [19])) true = none ∧ (s.who (q0 (kWin opWRITE 0xC0 [19]))).1 * 4 + 0xC0 / 64 = 11 ∧
    bellOutcome (s.ring 11) 19 = some true ∧ bellOutcome (s.ring 11) 20 = none ∧
    run .sqDoorbell s (fun t => (t.ring 11).sqTail == 19 && (t.ring 11).fetchHead == 3 && frameB s t [.fab, .xbr, .cmd] &&
      (t.voq connHE0 31 1).map (fun x => x.pkt.status) == [stOK]) = true := by intro s h; subst h; decide +kernel
theorem wit_sqDoorbellStale : ∀ s, s = zHome (kWin opWRITE 0xC0 [4]) zWin → bellOutcome (s.ring 11) 4 = some false ∧
    run .sqDoorbell s (fun t => bumped s t Reg.CMD_CNT_DB_STALE && frameB s t [.regs, .fab, .xbr]) = true := by
  intro s h; subst h; decide +kernel
theorem wit_cqDoorbell : ∀ s, s = zHome (kWin opWRITE 0x1C0 [2]) zWin → (q0 (kWin opWRITE 0x1C0 [2])).pkt.kind = .cqBell ∧
    s.preCheck (q0 (kWin opWRITE 0x1C0 [2])) true = none ∧ run .cqDoorbell s (fun t => (t.ring 11).cqHead == 2 && frameB s t [.fab, .xbr, .cmd] &&
      (t.voq connHE0 31 1).map (fun x => x.pkt.status) == [stOK]) = true := by intro s h; subst h; decide +kernel
theorem wit_ringState : ∀ s, s = zHome (kWin opREAD 0x2C0 []) zWin → (q0 (kWin opREAD 0x2C0 [])).pkt.kind = .ringState ∧
    s.preCheck (q0 (kWin opREAD 0x2C0 [])) true = none ∧ run .ringStateRead s (fun t => frameB s t [.fab, .xbr] &&
      (t.voq connHE0 31 1).map (fun x => (x.pkt.status, x.pkt.payload)) == [(stOK, (s.ring 11).stateBytes)]) = true := by
  intro s h; subst h; decide +kernel
def kCommand : Packet := { opcode := opCOMMAND, arg := 19 * 65536 + 3 }
theorem wit_command : ∀ s, s = zHome kCommand zWin → (q0 kCommand).pkt.kind = .command ∧ s.preCheck (q0 kCommand) true = none ∧
    bellOutcome (s.ring 11) 19 = some true ∧ run .command s (fun t => (t.ring 11).sqTail == 19 && frameB s t [.fab, .xbr, .cmd] &&
      (t.voq connHE0 31 1).map (fun x => (x.pkt.status, x.pkt.arg)) == [(stOK, 3 * 65536)]) = true := by intro s h; subst h; decide +kernel

/-! Commands of the pool.  Command 9, of pair 8, runs its first chunk on cluster 0. -/

theorem wit_complete : ∀ s, s = zCmd 1 [] → s.cmdOf 9 = some (cmd9 1 []) ∧ s.fatal = false ∧ (s.ext (s.ring 8).cqExt).tier = tierNEAR ∧
    s.badRange tierNEAR (aNear + 544) 32 = false ∧ Tab.find? s.pool.moves 3 = none ∧ Memory.wf s.near = true ∧
    (s.ext 3).at_ (512 + 32 * (17 % 2 ^ 4)) = aNear + 544 ∧ memRead (s.complete 9 stOK).near (aNear + 544) 6 = [77, 0, 0, 0, 0, 0] ∧
    (s.complete 9 stOK).cmdOf 9 = none ∧ ((s.complete 9 stOK).ring 8).cqTail = 18 ∧ ((s.complete 9 stOK).ring 8).outstanding = 0 ∧
    frameB s (s.complete 9 stOK) [.regs, .near, .pool, .fab, .cmd] = true ∧ s.finish 9 stOK = s.complete 9 stOK := by
  intro s h; subst h; decide +kernel
/-- ALLOC of two units after the standing extents; FREE of a leased one. -/
def dAlloc (mask : Nat) : Bytes := descOf (8 * 65536, 131072) (0, 0) 0 mask
theorem wit_alloc : ∀ s, s = zCmd 0x10 (dAlloc (2 ^ 5)) → s.tableCmd 9 0x10 = some (cmd9 0x10 (dAlloc (2 ^ 5))) ∧
    s.tableCheck (cmd9 0x10 (dAlloc (2 ^ 5))) 1 = stOK ∧ s.firstFit 0 (2 ^ 5) 1 2 = some (nearLoc 5 0) ∧ s.freeExt = some 0 ∧
    s.fitsExtent 1 = true ∧ s.fitsRsv 0 1 2 = true ∧ run (.alloc 9) s (fun t => t.cmdOf 9 == none && 
      t.ext 0 == { start := 8, state := exLEASED, length := 2, tier := 0, loc := nearLoc 5 0, fen := 1, holder := 2, region := 1 } && t.rd Reg.FEN_NEAR_USED_UNITS 1 == 2 &&
      t.rd Reg.FEN_EXT_USED_COUNT 1 == 1 && frameB s t [.regs, .near, .tray, .flt, .pool, .cmd, .fab]) = true := by
  intro s h; subst h; decide +kernel
theorem wit_allocNoPlace : ∀ s, s = zCmd 0x10 (dAlloc 0) → s.tableCheck (cmd9 0x10 (dAlloc 0)) 1 = stOK ∧ s.firstFit 0 0 1 2 = none ∧
    run (.alloc 9) s (fun t => t.pool.extents == s.pool.extents && t.rd Reg.FEN_REFUSE_NO_RES 1 == 1) = true := by
  intro s h; subst h; decide +kernel
/-- The near extent leased to client 2. -/
def zLeased : State := zFen.upPool fun b => { b with extents := Tab.upd b.extents 3 fun e => { e with state := exLEASED, holder := 2 } }
def dNear : Bytes := descOf (0, 262144) (0, 0) 0 0
theorem wit_free : ∀ s, s = noRing (zCmdOf (cmd9 0x11 dNear) zLeased) → s.tableCmd 9 0x11 = some (cmd9 0x11 dNear) ∧
    s.tableCheck (cmd9 0x11 dNear) 1 = stOK ∧ (s.overlapping 0 262144).map (·.1) = [3] ∧ (s.ext 3).tier ≠ tierHOST ∧
    run (.free 9) s (fun t => (t.ext 3).state == exFREE && (t.ext 3).scrub && t.ext 4 == s.ext 4 &&
      (Tab.find? t.pool.scrubs 0).map (fun k => (k.tier, k.loc, k.units, k.ext)) == some (0, nearLoc 5 2, 4, some 3) &&
      t.rd Reg.POOL_SCRUB_PEND_UNITS == 4) = true := by intro s h; subst h; decide +kernel
def zScrub : State := withRegs { zFen with
  near := memWrite [] aNear [1, 2]
  pool := { extents := [(3, { scrub := true, fen := 1, loc := nearLoc 5 2, length := 4 })]
            scrubs := [(7, { tier := 0, loc := nearLoc 5 2, units := 4, fen := 1, ext := some 3 })] } }
  [(Reg.FEN_NEAR_USED_UNITS, 1, 4), (Reg.POOL_SCRUB_PEND_UNITS, 0, 4), (Reg.FEN_EXT_USED_COUNT, 1, 1)]
theorem wit_scrubDone : zScrub.deadAt 0 (locByte 0 (nearLoc 5 2)) = false ∧ run (.scrubDone 7) zScrub (fun t => t.near == [] &&
    t.pool.extents == [] && t.pool.scrubs == [] && t.rd Reg.FEN_NEAR_USED_UNITS 1 == 0 && t.rd Reg.POOL_SCRUB_PEND_UNITS == 0 &&
    frameB zScrub t [.regs, .near, .tray, .flt, .pool]) = true := by decide +kernel
theorem wit_prefixMark : ∀ s, s = zCmdOf (cmd9 0x15 dNear) zLeased → s.tableCmd 9 0x15 = some (cmd9 0x15 dNear) ∧ Tab.wf s.pool.extents = true ∧
    s.tableCheck (cmd9 0x15 dNear) 1 = stOK ∧ s.whole0 (cmd9 0x15 dNear) = [3] ∧ run (.prefixMark 9) s (fun t => (t.ext 3).pfx &&
      (t.ext 3).state == exRESIDENT && (t.ext 3).holder == 0 && t.ext 4 == s.ext 4) = true := by intro s h; subst h; decide +kernel
def zPrefix : State := zFen.upPool fun b => { b with extents := Tab.upd b.extents 3 fun e => { e with pfx := true, refs := 65534 } }
theorem wit_prefixRef : ∀ s, s = zCmdOf (cmd9 0x16 dNear) zPrefix → s.tableCheck (cmd9 0x16 dNear) 1 = stOK ∧
    run (.prefixRef 9) s (fun t => (t.ext 3).refs == 65535) = true := by intro s h; subst h; decide +kernel
theorem wit_prefixUnref : ∀ s, s = zCmdOf (cmd9 0x17 dNear) zPrefix → s.tableCheck (cmd9 0x17 dNear) 1 = stOK ∧
    run (.prefixUnref 9) s (fun t => (t.ext 3).refs == 65533) = true := by intro s h; subst h; decide +kernel
def dAdvise (p0 : Nat) : Bytes := descOf (0, 262144) (0, 0) p0 0
theorem wit_advise : ∀ s, s = zCmd 0x14 (dAdvise 7) → s.tableCheck (cmd9 0x14 (dAdvise 7)) 1 = stOK ∧ bit 7 4 = false ∧
    run (.advise 9) s (fun t => (t.ext 3).heat == 3 && (t.ext 3).pin && (t.ext 4).heat == 0) = true := by intro s h; subst h; decide +kernel
theorem wit_adviseSoon : ∀ s, s = zCmd 0x14 (dAdvise 16) → s.tableCheck (cmd9 0x14 (dAdvise 16)) 1 = stOK ∧
    s.whole0 (cmd9 0x14 (dAdvise 16)) = [3] ∧ (s.ext 3).tier = tierNEAR ∧
    run (.advise 9) s (fun t => t.rd Reg.POOL_CNT_SOFTDROP == 1) = true := by intro s h; subst h; decide +kernel

/-- FILL, COPY, COMPARE and REDUCE_IN_PLACE over 128 bytes: reference 0 in the near extent, reference 1 behind it. -/
def gN (ref o : Nat) (tier : Nat := tierNEAR) : Seg := { ref := ref, tier := tier, at_ := aNear + o, len := 128, ext := 3 }
def dData (p0 : Nat) (tail : Bytes := []) : Bytes := padTo 64 (descOf (0, 128) (128, 128) 0 0) ++ (if tail = [] then leBytes 8 p0 else tail)
def cData (op : Nat) (desc : Bytes) (t0 : Nat := tierNEAR) : Cmd := { cmd9 op desc with segs := [gN 0 0 t0, gN 1 128] }
def cFill (t0 : Nat := tierNEAR) : Cmd := cData 0x18 (padTo 128 (dData 0 ((List.range 64).map fun i => BitVec.ofNat 8 i))) t0
def zData (c : Cmd) : State := { zCmdOf c with near := memWrite [] aNear [5, 0, 0, 0x3F, 6] }
theorem wit_fill : ∀ s, s = zData (cFill) → dataChunk (cFill.ref0.bytes) 0 false = (0, 128) ∧ s.runningChunk 9 0 ≠ none ∧
    ((cFill.pieces 0 0 128).any fun g => s.deadAt g.tier g.at_) = false ∧ run (.fill 9 0) s (fun t => frameB s t [.cmd] &&
      ((t.cmdOf 9).bind fun c => Tab.find? c.chunks 0).map (fun x => (x.phase == .staged, x.vals,
        x.writes.map fun w => (w.at_, w.data.length, w.data.getD 65 0))) == some (true, [128], [(aNear, 128, 1)]) && t.cmd.running == []) = true := by
  intro s h; subst h; decide +kernel
theorem wit_fillDead : ∀ s, s = zData (cFill tierTRAY) → (((cFill tierTRAY).pieces 0 0 128).any fun g => s.deadAt g.tier g.at_) = true ∧
    run (.fill 9 0) s (fun t => t == s.finish 9 stTARGET_DEAD) = true := by intro s h; subst h; decide +kernel
theorem wit_compare : ∀ s c, c = cData 0x1A (dData 0) → s = zData c → s.readFault (c.pieces 0 0 128 ++ c.pieces 1 0 128) = none ∧
    (s.readPieces (c.pieces 0 0 128)).length = 128 ∧ (s.readPieces (c.pieces 1 0 128)).length = 128 ∧
    run (.compare 9 0) s (fun t => ((t.cmdOf 9).bind fun c => Tab.find? c.chunks 0).map (·.vals) == some [0] && frameB s t [.cmd]) = true ∧
    run (.compare 9 0) { s with near := [] } (fun t => ((t.cmdOf 9).bind fun c => Tab.find? c.chunks 0).map (fun x => (x.vals, x.phase == .staged)) ==
      some ([], true)) = true := by intro s c hc h; subst hc; subst h; decide +kernel
theorem wit_reduceInPlace : ∀ s c, c = cData 0x1B (dData 1) → s = zData c → s.readFault (c.pieces 0 0 128 ++ c.pieces 1 0 128) = none ∧
    run (.reduceInPlace 9 0) s (fun t => ((t.cmdOf 9).bind fun c => Tab.find? c.chunks 0).map (fun x => (x.vals, x.phase == .staged)) ==
      some ([128], true) && frameB s t [.cmd]) = true := by intro s c hc h; subst hc; subst h; decide +kernel
theorem wit_copy : ∀ s c, c = cData 0x19 (dData 0) → s = { zData c with near := memWrite [] (aNear + 128) [9, 8] } →
    dataChunk c.ref0.bytes 0 c.copyDown = (0, 128) ∧ s.readFault (c.pieces 1 0 128) = none ∧
    run (.copy 9 0) s (fun t => ((t.cmdOf 9).bind fun c => Tab.find? c.chunks 0).map (fun x => x.writes.map fun w => (w.at_, w.data.take 3)) ==
      some [(aNear, [9, 8, 0])] && frameB s t [.cmd]) = true := by intro s c hc h; subst hc; subst h; decide +kernel
theorem wit_copyDead : ∀ s c, c = cData 0x19 (dData 0) tierTRAY → s = zData c → ((c.pieces 0 0 128).any fun g => s.deadAt g.tier g.at_) = true ∧
    run (.copy 9 0) s (fun t => t == s.finish 9 stTARGET_DEAD) = true := by intro s c hc h; subst hc; subst h; decide +kernel

/-- EVICT of the near extent to the tray, and MIGRATE of the tray's. -/
def dMove (r : Nat × Nat) (mask : Nat) : Bytes := descOf r (0, 0) 0 mask
theorem wit_evict : ∀ s c, c = cmd9 0x13 (dMove (0, 262144) (2 ^ 30)) → s = noRing (zCmdOf c) → s.tableCmd 9 0x13 = some c ∧
    (s.pool.moves.any fun m => m.2.cid == some 9) = false ∧ s.tableCheck c 1 = stOK ∧ s.oneExtent c.ref0 = some (3, s.ext 3) ∧
    s.alreadyAt (s.ext 3) tierTRAY (2 ^ 30) = false ∧ s.firstFit tierTRAY (2 ^ 30) 1 4 ≠ none ∧ s.fitsRsv tierTRAY 1 4 false = true ∧
    run (.evict 9) s (fun t => (Tab.find? t.pool.moves 3).map (fun m => (m.cid, m.srcTier, m.srcLoc, m.destTier, m.units, m.copied)) ==
      some (some 9, 0, nearLoc 5 2, 1, 4, 0) && (t.ext 3).state == exMOVING && (t.ext 3).loc == nearLoc 5 2 && t.ext 4 == s.ext 4 &&
      frameB s t [.regs, .pool, .cmd]) = true := by intro s c hc h; subst hc; subst h; decide +kernel
theorem wit_migrate : ∀ s c, c = cmd9 0x12 (dMove (262144, 262144) (2 ^ 63)) → s = zCmdOf c → s.tableCheck c 1 = stOK ∧
    s.oneExtent c.ref0 = some (4, s.ext 4) ∧ s.firstFit tierNEAR (2 ^ 63) 1 4 ≠ none ∧ s.alreadyAt (s.ext 4) tierNEAR (2 ^ 63) = false ∧
    run (.migrate 9) s (fun t => (Tab.find? t.pool.moves 4).map (·.destTier) == some 0 && frameB s t [.regs, .pool, .cmd]) = true := by
  intro s c hc h; subst hc; subst h; decide +kernel
theorem wit_moveNoPlace : ∀ s c, c = cmd9 0x12 (dMove (262144, 262144) 0) → s = zCmdOf c → s.tableCheck c 1 = stOK ∧
    s.firstFit tierNEAR 0 1 4 = none ∧ s.alreadyAt (s.ext 4) tierNEAR 0 = false ∧
    run (.migrate 9) s (fun t => t.pool.moves == [] && t.rd Reg.FEN_REFUSE_NO_RES 1 == 1) = true := by intro s c hc h; subst hc; subst h; decide +kernel
theorem wit_moveAlready : ∀ s c, c = cmd9 0x12 (dMove (0, 262144) (2 ^ 5)) → s = zCmdOf c → s.tableCheck c 1 = stOK ∧
    s.alreadyAt (s.ext 3) tierNEAR (2 ^ 5) = true ∧ run (.migrate 9) s (fun t => t.pool.moves == [] && t.ext 3 == s.ext 3) = true := by
  intro s c hc h; subst hc; subst h; decide +kernel
/-- A move of the near extent to the tray, at its last unit, and copied. -/
def mv (copied : Nat) (e : Option Nat) : Move :=
  { cid := some 9, srcTier := 0, srcLoc := nearLoc 5 2, destTier := 1, dest := trayLoc 30 9, units := 4, copied := copied, copyEnd := e }
def zMove (m : Move) : State :=
  noRing { zCmdOf (cmd9 0x13 []) with
           near := memWrite [] (aNear + 196608) [1, 2, 3], hclk := 2 ^ 30
           pool := { zFen.pool with moves := [(3, m)], extents := Tab.upd zFen.pool.extents 3 fun e => { e with state := exMOVING } } }
theorem wit_moveCopyStep : (zMove (mv 3 none)).mayCopy (mv 3 none) = true ∧ (zMove (mv 3 none)).memoryOk = true ∧
    (zMove (mv 3 none)).deadAt 1 (locByte 1 (trayLoc 30 9) + 196608) = false ∧ (zMove (mv 3 none)).badRange 0 (aNear + 196608) unitBytes = false := by
  decide +kernel
theorem wit_moveCommit : ∀ s, s = zMove (mv 4 (some 0)) → s.fatal = false ∧ s.car.warm = false ∧ s.otherReaders 3 = 0 ∧ s.pool.writes = [] ∧
    Tab.has s.pool.extents 3 = true ∧ (s.moveHistory 3 (dieAt 0 aNear) (dieAt 1 (locByte 1 (trayLoc 30 9)))).isSome = true ∧
    run (.moveCommit 3) s (fun t => (t.ext 3).tier == 1 && (t.ext 3).loc == trayLoc 30 9 && (t.ext 3).state == exRESIDENT && t.pool.moves == [] &&
      (Tab.find? t.pool.scrubs 0).map (fun k => (k.tier, k.loc, k.units)) == some (0, nearLoc 5 2, 4) && t.rd Reg.POOL_CNT_MOVE_OK == 1) = true := by
  intro s h; subst h; decide +kernel
def zDrain : State := (zMove (mv 4 (some 0))).upPool fun b => { b with extents := Tab.upd b.extents 3 fun e => { e with rrefs := 1 } }
theorem wit_moveDrain : zDrain.otherReaders 3 ≠ 0 ∧ zDrain.rd Reg.POOL_MOVE_DRAIN_US < zDrain.sinceUs 0 ∧
    run (.moveDrainTimeout 3) zDrain (fun t => (t.ext 3).state == exRESIDENT && (t.ext 3).loc == nearLoc 5 2 && t.pool.moves == [] &&
      t.rd Reg.POOL_CNT_MOVE_ABORT == 1) = true := by decide +kernel
theorem wit_poolFence : zFen.admitsWrite acc 0x200014 = true ∧ zFen.cmd.cmds = [] ∧ zFen.pool.moves = [] ∧ Tab.wf zFen.pool.regions = true ∧
    run (.poolFence acc 1) zFen (fun t => (t.rgn 1).fenced && (t.rgn 1).key == 5 && frameB zFen t [.regs, .pool]) = true ∧
    run (.poolFence acc 63) zFen (fun t => t.rgn 1 == zFen.rgn 1) = true := by decide +kernel
/-- A region with one extent, on which command 9 holds a reference. -/
def zRef : State := withRegs { zCmdOf { cmd9 0x18 [] with rrefs := [3] } with
  pool := { zFen.pool with extents := [(3, { zFen.ext 3 with rrefs := 1 })] } } [(Reg.RGN_INDEX_INDEX, 0, 1)]
theorem wit_rgnFence : zRef.admitsWrite acc 0x600004 = true ∧ zRef.on Reg.RGN_OP_BUSY = false ∧ zRef.rd Reg.RGN_INDEX_INDEX = 1 ∧
    (zRef.rgn 1).valid = true ∧ zRef.cmd.cmds = [(9, { cmd9 0x18 [] with rrefs := [3] })] ∧ (zRef.extentsOf 1).map (·.1) = [3] ∧
    run (.rgnFence acc) zRef (fun t => (t.rgn 1).fenced && t.cmd.cmds == [] && t.rd Reg.RGN_STATUS_STATUS == stOK) = true := by decide +kernel
def zLapsed : State := { zLeased with hclk := 101, pool := { zLeased.pool with leases := [(2, { running := true, deadline := 100, epoch := 7 })] } }
theorem wit_leaseExpire : zLapsed.lapsed (zLapsed.lease 2) = true ∧ zLapsed.sqt.ents = [] ∧ (zLapsed.holdings 2).map (·.1) = [3] ∧
    ((zLapsed.holdings 2).all fun p => p.2.tier != tierHOST) = true ∧ run (.leaseExpire 2) zLapsed (fun t => (t.ext 3).state == exFREE &&
      (t.ext 3).scrub && (t.lease 2).epoch == 8 && !(t.lease 2).running && t.rd Reg.POOL_CNT_LEASE_EXP == 1 &&
      frameB zLapsed t [.regs, .pool, .flt, .out, .host]) = true := by decide +kernel
/-- The host's answer: tag 6, with a result. -/
def zHxq (result : BitVec 8) (x : Tab Xlate) : State :=
  withRegs { zCmdOf { cmd9 0x18 [] with phase := .translating } with host := memWrite [] 4096 [6, 0, 0, 0, result], pool := { zFen.pool with xlates := x } }
    [(Reg.POOL_HXQ_CTL_ENABLE, 0, 1), (Reg.POOL_HXQ_RSP_BASE_LO, 0, 4096), (Reg.POOL_HXQ_RSP_TAIL_INDEX, 0, 1)]
theorem wit_xlateStale : (zHxq 0 []).on Reg.POOL_HXQ_CTL_ENABLE = true ∧ (zHxq 0 []).rd Reg.POOL_HXQ_RSP_HEAD_INDEX = 0 ∧
    (zHxq 0 []).rd Reg.POOL_HXQ_RSP_TAIL_INDEX ≠ 0 ∧ fld (memRead (zHxq 0 []).host 4096 32) 0 4 = 6 ∧
    run .xlateAnswer (zHxq 0 []) (fun t => t.rd Reg.POOL_HXQ_RSP_HEAD_INDEX == 1 && t.rd Reg.POOL_CNT_HOST_STALE == 1 &&
      frameB (zHxq 0 []) t [.regs]) = true := by decide +kernel
theorem wit_xlateRefused : ∀ s, s = zHxq 1 [(6, { cid := 9, posted := true })] → fld (memRead s.host 4096 32) 4 1 ≠ 0 ∧
    (Tab.find? s.pool.xlates 6).map (·.posted) = some true ∧ run .xlateAnswer s (fun t => t.pool.xlates == [] && t.cmd.cmds == []) = true := by
  intro s h; subst h; decide +kernel
theorem wit_xlateTimeout : ∀ s, s = { zHxq 0 [] with hclk := 2 ^ 40 } → s.rd Reg.POOL_XLATE_DL_US ≤ s.sinceUs 0 ∧
    (s.cmdOf 9).map (·.phase) = some .translating ∧ run (.xlateTimeout 9) s (fun t => t.cmd.cmds == [] && t.rd Reg.POOL_CNT_HOST_TIMEOUT == 1) = true := by
  intro s h; subst h; decide +kernel
/-- A chunk of a GATHER_REQ, and one of a FILL, that read the tray and were dispatched long ago. -/
def zTrayRead (c : Cmd) : State :=
  withRegs { zCmdOf { c with segs := [gN 0 0 tierTRAY] } with hclk := 2 ^ 40 } [(Reg.POOL_TRAY_DL_NS, 0, 100)]
theorem wit_trayReadDeadline : ∀ s c, c = { cmd9 0x20 [] with src := 1, segs := [gN 0 0 tierTRAY] } → s = zTrayRead { cmd9 0x20 [] with src := 1 } →
    s.runningChunk 9 0 = some (c, { phase := .running }, 0) ∧ s.trayDeadline c ≠ 0 ∧ s.trayDeadline c < s.sinceNs 0 ∧
    run (.trayReadDeadline 9 0 5) s (fun t => ((t.cmdOf 9).bind fun c => Tab.find? c.chunks 0).map (·.late) == some [5] &&
      t.rd Reg.POOL_CNT_LATE == 1 && frameB s t [.regs, .cmd]) = true := by intro s c hc h; subst hc; subst h; decide +kernel
theorem wit_trayReadTimeout : ∀ s c, c = { cmd9 0x18 [] with segs := [gN 0 0 tierTRAY] } → s = zTrayRead (cmd9 0x18 []) →
    s.runningChunk 9 0 = some (c, { phase := .running }, 0) ∧ isCkp c.opcode = false ∧ (c.segs.any fun g => g.tier == tierTRAY) = true ∧
    s.trayDeadline c = 0 ∧ 0 + s.timeoutHclk ≤ s.hclk ∧ run (.trayReadTimeout (.chunk 9 0)) s (fun t =>
      ((t.cmdOf 9).bind fun c => Tab.find? c.chunks 0).map (·.timedOut) == some true && frameB s t [.cmd]) = true := by
  intro s c hc h; subst hc; subst h; decide +kernel

/-! The extent and region tables' operations. -/
def extIs (t : State) (st : Nat) : Bool := stIs Reg.EXT_STATUS_STATUS Reg.EXT_STATUS_DONE t st
def rgnIs (t : State) (st : Nat) : Bool := stIs Reg.RGN_STATUS_STATUS Reg.RGN_STATUS_DONE t st
def zExt (l : List (Fld × Nat × Nat)) (s : State := zFen) : State := withRegs s l
def dat (l : List Nat) : List (Fld × Nat × Nat) := l.zipIdx.map fun (v, i) => (Reg.EXT_DATA, i, v)
def rdat (l : List Nat) : List (Fld × Nat × Nat) := l.zipIdx.map fun (v, i) => (Reg.RGN_DATA, i, v)

theorem wit_extRead : zFen.admitsWrite acc 0x400004 = true ∧ run (.extRead acc) (zExt [(Reg.EXT_INDEX_INDEX, 0, 4)]) (fun t =>
    extIs t stOK && (List.range 8).map (fun w => t.rd Reg.EXT_DATA w) == (zFen.ext 4).words.map (· % 2 ^ 32)) = true := by decide +kernel
theorem wit_extFind : (zExt [(Reg.EXT_ADDR_LO, 0, 524287)]).extAt 524287 = some (4, zFen.ext 4) ∧ zFen.extAt 524288 = none ∧
    run (.extFind acc) (zExt [(Reg.EXT_ADDR_LO, 0, 524287)]) (fun t => extIs t stOK && t.rd Reg.EXT_INDEX_INDEX == 4 &&
      t.rd Reg.EXT_DATA 1 == (zFen.ext 4).words.getD 1 0) = true ∧
    run (.extFind acc) (zExt [(Reg.EXT_ADDR_LO, 0, 524288)]) (fun t => extIs t stRANGE) = true := by decide +kernel
/-- CREATE of two units at 8, of region 1, in the near tier. -/
def zCreate (r tier : Nat) (s : State := zFen) : State := zExt (dat [8, 2 + 2 ^ 30 * tier, 2 ^ 5, 0, r]) s
theorem wit_extCreate : ∀ s, s = zCreate 1 0 → s.createArgs = (1, 8, 2) ∧ s.rd Reg.EXT_DATA 1 / 2 ^ 30 < 2 ∧ (s.rgn 1).valid = true ∧
    (s.rgn 1).fenced = false ∧ s.placeCheck 1 8 2 0 = stOK ∧ s.freeExt = some 0 ∧ s.fitsExtent 1 = true ∧ s.fitsRsv 0 1 2 = true ∧
    s.firstFit 0 (2 ^ 5) 1 2 = some (nearLoc 5 0) ∧ run (.extCreate acc) s (fun t => extIs t stOK &&
      t.ext 0 == { start := 8, state := exRESIDENT, length := 2, tier := 0, loc := nearLoc 5 0, fen := 1, region := 1 } && frameB s t [.regs, .near, .tray, .flt, .pool]) = true := by
  intro s h; subst h; decide +kernel
theorem wit_extCreateHost : ∀ s, s = zCreate 1 0 → (s.rgn 1).base ≤ 8 ∧ 8 + 2 ≤ (s.rgn 1).base + (s.rgn 1).size ∧
    s.overlapping (8 * unitBytes) (2 * unitBytes) = [] ∧ run (.extCreateHost acc) s (fun t => extIs t stOK && (t.ext 0).tier == tierHOST &&
      (t.ext 0).loc == 32 && (t.ext 0).length == 2 && frameB s t [.regs, .pool]) = true := by intro s h; subst h; decide +kernel
theorem wit_extCreateRefused : ((zCreate 2 1).rgn 2).valid = false ∧ (zCreate 2 1).createArgs = (2, 8, 2) ∧
    run (.extCreate acc) (zCreate 2 1) (fun t => extIs t stRANGE && frameB (zCreate 2 1) t [.regs]) = true ∧
    run (.extCreateHost acc) (zCreate 2 1) (fun t => extIs t stRANGE) = true := by decide +kernel
def zFenced : State := zFen.upPool fun b => { b with regions := Tab.upd b.regions 1 fun r => { r with fenced := true } }
theorem wit_extCreateFenced : ((zCreate 1 1 zFenced).rgn 1).fenced = true ∧ run (.extCreate acc) (zCreate 1 1 zFenced) (fun t => extIs t stFENCED) = true ∧
    run (.extCreateHost acc) (zCreate 1 1 zFenced) (fun t => extIs t stFENCED) = true := by decide +kernel
theorem wit_extFree : ∀ s, s = zExt [(Reg.EXT_INDEX_INDEX, 0, 3)] → (s.ext 3).state ≠ exFREE ∧ (s.rgn 1).fenced = false ∧ s.freeRefusal 3 0 = stOK ∧
    (s.ext 3).tier ≠ tierHOST ∧ Tab.find? s.pool.moves 3 = none ∧ run (.extFree acc) s (fun t => extIs t stOK && (t.ext 3).state == exFREE &&
      (t.ext 3).scrub && t.ext 4 == s.ext 4 && frameB s t [.regs, .pool]) = true ∧
    run (.extFree acc) (zExt [(Reg.EXT_INDEX_INDEX, 0, 1048575)]) (fun t => extIs t stRANGE) = true := by intro s h; subst h; decide +kernel

def zRgn (r : Nat) (l : List Nat) (s : State := zFen) : State :=
  withRegs { s with cfg := { s.cfg with limits := [(1, { regions := 1 })] } } ((Reg.RGN_INDEX_INDEX, 0, r) :: rdat l)
theorem wit_rgnRead : zFen.admitsWrite acc 0x600004 = true ∧ run (.rgnRead acc) (zRgn 1 []) (fun t => rgnIs t stOK &&
    (List.range 8).map (fun w => t.rd Reg.RGN_DATA w) == ((zFen.regionWords 1).map (· % 2 ^ 32))) = true := by decide +kernel
/-- CREATE of the last units of the pool for fen 1. -/
def zLast (size : Nat) : State := zRgn 65535 [poolUnits - 4, size, 9 + 2 ^ 16 + 2 ^ 22 * 15]
theorem wit_rgnCreate : ∀ s, s = zLast 4 → s.on Reg.RGN_OP_BUSY = false ∧ s.rgnBad = false ∧ (s.rgn 65535).valid = false ∧
    s.rangeTaken (poolUnits - 4) 4 = false ∧ s.rd Reg.FEN_RGN_USED_COUNT 1 < (Tab.getD s.cfg.limits 1 {}).regions ∧
    run (.rgnCreate acc) s (fun t => rgnIs t stOK && (t.rgn 65535).valid && (t.rgn 65535).key == 9 && (t.rgn 65535).dflt == 15 &&
      t.rgn 1 == s.rgn 1 && t.rd Reg.FEN_RGN_USED_COUNT 1 == 1 && frameB s t [.regs, .pool]) = true := by intro s h; subst h; decide +kernel
theorem wit_rgnCreateOutside : poolUnits < poolUnits - 4 + 5 ∧ (zLast 5).rgnBad = false ∧
    run (.rgnCreate acc) (zLast 5) (fun t => rgnIs t stRANGE && frameB (zLast 5) t [.regs]) = true := by decide +kernel
theorem wit_rgnCreateValid : (zRgn 1 [0, 4, 9]).rgnData 1 % 2 ^ 30 ≠ 0 ∧ ((zRgn 1 [0, 4, 9]).rgn 1).valid = true ∧ (zRgn 1 [0, 4, 9]).rgnBad = false ∧
    run (.rgnCreate acc) (zRgn 1 [0, 4, 9]) (fun t => rgnIs t stRETRY) = true ∧
    run (.rgnUpdate acc) (zRgn 1 [0, 4, 9]) (fun t => rgnIs t stOK && (t.rgn 1).key == 9 && (t.rgn 1).size == 16 && (t.rgn 1).dflt == 0) = true := by
  decide +kernel
theorem wit_rgnFenceIdle : (zRgn 1 []).cmd.cmds = [] ∧ run (.rgnFence acc) (zRgn 1 []) (fun t => rgnIs t stOK && (t.rgn 1).fenced &&
    frameB (zRgn 1 []) t [.regs, .pool]) = true := by decide +kernel
def zEmptyRgn : State := withRegs (zRgn 1 [] { zFen with pool := { regions := zFen.pool.regions } }) [(Reg.FEN_RGN_USED_COUNT, 1, 1)]
theorem wit_rgnDelete : zEmptyRgn.extentsOf 1 = [] ∧ (zEmptyRgn.rgn 1).fen < 64 ∧ zEmptyRgn.pool.scrubs = [] ∧ Tab.wf zEmptyRgn.pool.regions = true ∧
    (zEmptyRgn.pool.regions.all fun g => !g.2.deleting) = true ∧ run (.rgnDelete acc) zEmptyRgn (fun t => rgnIs t stOK && !(t.rgn 1).valid &&
      t.rd Reg.FEN_RGN_USED_COUNT 1 == 0 && t.rd Reg.RGN_OP_BUSY == 0 && frameB zEmptyRgn t [.regs, .pool]) = true := by decide +kernel
theorem wit_rgnClient : (withRegs zFen (rdat [0x1234])).rgnData 0 < 2 ^ 16 ∧ run (.rgnWriteClient acc) (withRegs zFen ((Reg.RGN_CLID_CLID, 0, 4095) :: rdat [0x1234]))
    (fun t => rgnIs t stOK && t.groupsOf 4095 == (0x34, 0x12) && t.groupsOf 2 == zFen.groupsOf 2) = true ∧
    run (.rgnReadClient acc) (withRegs { zFen with pool := { groups := [(4095, (3, 4))] } } [(Reg.RGN_CLID_CLID, 0, 4095)]) (fun t =>
      rgnIs t stOK && t.rd Reg.RGN_DATA 0 == 0x403) = true := by decide +kernel

/-! Reductions.  Port 31 belongs to engine 3; client 2 with endpoint 7 is on it. -/
def tree5 : TreeRec := { tree := 5, fen := 1, valid := true, root := true, homeEngine := 3, memberPorts := 2 ^ 31, childPorts := 2 ^ 30, expected := 2, deadlineUs := 9 }
def kC (src : Nat) (op : Nat := opREDUCE_CONTRIB) (typ : Nat := 9) : Packet :=
  { opcode := op, dst := 0xF000, src := src, len := 64, addr := 0, arg := 5 + 2 ^ 20 * typ + 2 ^ 24 * typ + 2 ^ 31, payload := padTo 64 [1, 2, 3, 4] }
def zTree (k : Packet) (conn : Nat := 31) (insts : Tab RedInst := []) : State :=
  withRegs { zFen with cfg := { zFen.cfg with trees := [(5, tree5)] }
                       fab := { redq := [(3, { pkt := k, conn := conn, clid := some 2 })] }, red := { insts := insts } } [(Reg.RED_QUOTA, 1, 41216)]
def inst5 (typ : Nat := 9) (chunks : Tab RedChunk := [(0, { engines := [3] })]) : RedInst :=
  { tree := 5, typ := typ, otype := typ, fen := 1, root := true, expected := 2, deadlineUs := 9, homeEngine := 3, chunks := chunks }

theorem wit_contribOpens : ∀ s, s = zTree (kC 7) → s.contribCheck { pkt := kC 7, conn := 31, clid := some 2 } = (stOK, 0) ∧
    Tab.find? s.red.insts (redKey 5 0) = none ∧ s.redUsed 1 (engineOf 31) + chunkCharge 9 ≤ s.rd Reg.RED_QUOTA 1 ∧
    run (.reduceContrib 3) s (fun t => t.fab.redq == [] && (Tab.find? t.red.insts (redKey 5 0)).map (fun i => (i.typ, i.expected, i.root, i.outcome)) ==
      some (9, 2, true, none) && (Tab.getD t.red.pend 31 []).length == 1 && t.rd Reg.RED_STAT_INST == 1 && frameB s t [.regs, .red, .fab]) = true := by
  intro s h; subst h; decide +kernel
theorem wit_contribDenied : ∀ s, s = zTree (kC 7) 30 → (s.contribCheck { pkt := kC 7, conn := 30, clid := some 2 }).1 = stKEY_DENIED ∧
    run (.reduceContrib 3) s (fun t => t.rd Reg.RED_CNT_DENIED == 1 && (t.voq connHE0 31 1).map (fun q => q.pkt.status) == [stKEY_DENIED] &&
      t.red == s.red) = true := by intro s h; subst h; decide +kernel
theorem wit_contribMalformed : ∀ s, s = zTree { kC 7 with region := 1 } → s.contribCheck { pkt := { kC 7 with region := 1 }, conn := 31, clid := some 2 } =
    (stMALFORMED, 12) ∧ run (.reduceContrib 3) s (fun t => t.rd Reg.RED_CNT_MALFORMED == 1 &&
      (t.voq connHE0 31 1).map (fun q => (q.pkt.status, q.pkt.arg % 65536)) == [(stMALFORMED, 12)]) = true := by intro s h; subst h; decide +kernel
theorem wit_partialDenied : bit tree5.childPorts 31 = false ∧ run (.reducePartial 3) (zTree (kC 0xF003 opREDUCE_PARTIAL)) (fun t =>
    t.fab.redq == [] && t.rd Reg.RED_CNT_DENIED == 1 && frameB (zTree (kC 0xF003 opREDUCE_PARTIAL)) t [.regs, .fab]) = true := by decide +kernel
theorem wit_contribJoins : ∀ s, s = zTree (kC 7) 31 [(redKey 5 0, inst5)] → (inst5).outcome = none ∧ (inst5).mismatch (kC 7) = false ∧
    (Tab.getD (inst5).chunks ((kC 7).epos / tyE 9) {}).engines.contains (engineOf 31) = true ∧
    run (.reduceContrib 3) s (fun t => Tab.find? t.red.insts (redKey 5 0) == some ((inst5).latch (kC 7)) && (Tab.getD t.red.pend 31 []).length == 1 &&
      frameB s t [.red, .fab]) = true := by intro s h; subst h; decide +kernel
theorem wit_partialJoins : ∀ s k, k = { kC 0xF003 opREDUCE_PARTIAL with arg := 5 + 2 ^ 20 * 9 + 2 ^ 24 * 9 } → s = zTree k 30 [(redKey 5 0, inst5)] →
    firstBad (redFields s k) = none ∧ bit tree5.childPorts 30 = true ∧ k.status = 0 ∧ (inst5).mismatch k = false ∧ engineOf 30 = 3 ∧
    run (.reducePartial 3) s (fun t => (Tab.getD t.red.pend 30 []).length == 1 && frameB s t [.red, .fab]) = true := by
  intro s k hk h; subst hk; subst h; decide +kernel
theorem wit_contribMismatch : (inst5 10).mismatch (kC 7) = true ∧ run (.reduceContrib 3) (zTree (kC 7) 31 [(redKey 5 0, inst5 10)]) (fun t =>
    t.rd Reg.RED_CNT_MISMATCH == 1 && t.fab.redq == []) = true := by decide +kernel
theorem wit_contribReplay : ∀ s i, i = { inst5 with outcome := some (stTIMEOUT, 0) } → s = zTree (kC 7) 31 [(redKey 5 0, i)] →
    s.lookup connHE0 (s.resultPacket i (senderOf (kC 7) 31 none) 0 stTIMEOUT 0 true []) = .toPort 31 ∧ s.fab.fences = [] ∧
    s.on Reg.XBR_CAP_CTL_ENABLE = false ∧ run (.reduceContrib 3) s (fun t => t.red == s.red && t.rd Reg.RED_CNT_REPLAY == 1 &&
      (t.voq connHE0 31 1).map (fun q => q.pkt) == [s.resultPacket i (senderOf (kC 7) 31 none) 0 stTIMEOUT 0 true []] &&
      frameB s t [.regs, .fab, .xbr]) = true := by intro s i hi h; subst hi; subst h; decide +kernel
theorem wit_partialEnds : ∀ s k, k = { kC 0xF003 opREDUCE_PARTIAL with status := stTIMEOUT, arg := 5 + 2 ^ 20 * 9 + 2 ^ 24 * 9 } → s = zTree k 30 [(redKey 5 0, inst5)] →
    firstBad (redFields s k) = none ∧ (inst5).mismatch k = false ∧ (inst5).committed = false ∧
    run (.reducePartial 3) s (fun t => ((Tab.find? t.red.insts (redKey 5 0)).bind (·.outcome)).map (·.1) == some stTIMEOUT) = true := by
  intro s k hk h; subst hk; subst h; decide +kernel

/-- Packets that wait for engine 3's slots on its last port. -/
def zPend (l : List RedPend) (i : RedInst := inst5) : State :=
  { zTree {} with fab := {}, red := { insts := [(redKey 5 0, i)], pend := [(31, l)], rot := [(3, 7)] } }
def pd (src : Nat) (len : Nat := 64) : RedPend := { pkt := { kC src with payload := padTo len [1, 2, 3, 4] }, port := 31 }
theorem wit_slotIdle : Tab.getD (zPend []).red.pend (8 * 3 + 7) [] = [] ∧ run (.reduceSlotGrant 3) (zPend []) (fun t => Tab.find? t.red.rot 3 == some 0 &&
    frameB (zPend []) t [.red]) = true := by decide +kernel
theorem wit_slotHalf : slotsOf (pd 7 2112).pkt = 2 ∧ Tab.find? (zPend [pd 7 2112]).red.half 31 = none ∧ run (.reduceSlotGrant 3) (zPend [pd 7 2112]) (fun t =>
    Tab.find? t.red.half 31 == some (pd 7 2112) && frameB (zPend []) t [.red]) = true := by decide +kernel
def cnt (n : Nat) : RedChunk := { engines := [3], counted := (List.range n).map fun j => { src := j } }
theorem wit_slotDup : (cnt 1).counted.length < 2 ∧ ((cnt 1).counted.any fun r => r.src == 0) = true ∧ slotsOf (pd 0).pkt = 1 ∧
    run (.reduceSlotGrant 3) (zPend [pd 0] (inst5 9 [(0, cnt 1)])) (fun t => t.rd Reg.RED_CNT_DUP == 1) = true := by decide +kernel
theorem wit_slotCounts : ((cnt 0).counted.any fun r => r.src == 7) = false ∧ (cnt 0).counted.length + 1 < (inst5).expected ∧
    run (.reduceSlotGrant 3) (zPend [pd 7] (inst5 9 [(0, cnt 0)])) (fun t => Tab.find? t.red.pend 31 == some [] &&
      ((Tab.find? t.red.insts (redKey 5 0)).bind fun j => Tab.find? j.chunks 0).map (fun x => (x.counted.length, x.accs.length)) == some (1, 16)) = true := by
  decide +kernel
theorem wit_slotCommits : ∀ i, i = { inst5 9 [(0, cnt 1)] with n := some 16 } → ((cnt 1).counted.any fun r => r.src == 7) = false ∧
    (cnt 1).counted.length + 1 = i.expected ∧ 16 ≤ tyE i.typ ∧ (cnt 1).engines.contains i.homeEngine = true ∧
    ((cnt 1).counted.all fun r => !r.want) = true ∧ (pd 7).pkt.want = false ∧
    run (.reduceSlotGrant 3) (zPend [pd 7] i) (fun t => ((Tab.find? t.red.insts (redKey 5 0)).map fun j => (j.committed, j.outcome,
      (Tab.getD j.chunks 0 {}).results.map fun r => (r.pos, r.payload.take 5))) == some (true, some (stOK, 0), [(0, [1, 2, 3, 4, 0])]) &&
      t.rd Reg.RED_CNT_COMMIT == 1) = true := by intro i h; subst h; decide +kernel

/-- A switch below the root, and its parent's results. -/
def inst6 : RedInst := { inst5 9 [(0, cnt 2)] with root := false, parentHome := 3, committed := true }
def kRes (st : Nat) : Packet := { opcode := opREDUCE_RESULT, dst := 0xF000, src := 0xF003, status := st, arg := 5 + 2 ^ 20 * 9 + 2 ^ 24 + 2 ^ 31, payload := padTo 64 [9] }
theorem wit_resultKept : ∀ s, s = zTree (kRes 0) 30 [(redKey 5 0, inst6)] → (kRes 0).src = 0xF000 + inst6.parentHome ∧
    ((cnt 2).counted.all fun r => !r.want) = true ∧ run (.reduceResult 3) s (fun t =>
      (Tab.find? t.red.insts (redKey 5 0)).map (fun j => ((Tab.getD j.chunks 0 {}).results.length, j.outcome, j.flags)) ==
      some (1, some (stOK, 0), 1) && frameB s t [.red, .fab]) = true := by intro s h; subst h; decide +kernel
theorem wit_resultStatus : run (.reduceResult 3) (zTree (kRes stTIMEOUT) 30 [(redKey 5 0, { inst6 with committed := false })]) (fun t =>
    (Tab.find? t.red.insts (redKey 5 0)).map (fun j => (j.committed, j.outcome)) == some (true, some (stTIMEOUT, 0))) = true := by decide +kernel
theorem wit_deadlineCommand : ∀ s i, i = inst5 9 [(0, { engines := [3], counted := [{ src := 7, cmd := some (9, 0) }] })] →
    s = { zPend [] i with hclk := 10800 } → i.openedAt + usToHclk i.deadlineUs ≤ s.hclk ∧ (i.participants.all fun r => r.cmd.isSome) = true ∧
    run (.reduceDeadline 5 0) s (fun t => Tab.find? t.red.insts (redKey 5 0) == some { i with chunks := [], outcome := some (stTIMEOUT, 10800) } &&
      t.rd Reg.RED_CNT_TIMEOUT == 1 && frameB s t [.regs, .red]) = true := by intro s i hi h; subst hi; subst h; decide +kernel
theorem wit_deadlineSender : ∀ s i, i = inst5 9 [(0, { engines := [3], counted := [{ src := 7, port := 31 }] })] → s = { zPend [] i with hclk := 10800 } →
    i.participants = [{ src := 7, port := 31 }] ∧ s.lookup connHE0 (s.resultPacket i { src := 7, port := 31 } 0 stTIMEOUT 0 true []) = .toPort 31 ∧
    run (.reduceDeadline 5 0) s (fun t => (t.voq connHE0 31 1).map (fun q => q.pkt.status) == [stTIMEOUT] && frameB s t [.regs, .red, .fab, .xbr]) = true := by
  intro s i hi h; subst hi; subst h; decide +kernel
theorem wit_keepExpire : ∀ s, s = { zPend [] { inst5 with outcome := some (stOK, 0) } with hclk := 2 ^ 40 } → 0 + usToHclk (s.rd Reg.RED_KEEP_US) ≤ s.hclk ∧
    s.redHeld (redKey 5 0) = false ∧ run (.reduceKeepExpire 5 0) s (fun t => t.red.insts == [] && frameB s t [.regs, .red]) = true := by
  intro s h; subst h; decide +kernel
theorem wit_redTreeRead : ∀ s, s = withRegs (zTree {}) [(Reg.RED_TREE_INDEX_TREE, 0, 5)] → s.admitsWrite acc 0x1600104 = true ∧
    Tab.find? s.cfg.trees (s.rd Reg.RED_TREE_INDEX_TREE) = some tree5 ∧ Tab.find? (zTree {}).cfg.trees ((zTree {}).rd Reg.RED_TREE_INDEX_TREE) = none ∧
    run (.redTreeRead acc) s (fun t => (List.range 8).map (fun w => t.rd Reg.RED_TREE_DATA w) == (List.range 8).map (fun w => fld tree5.bytes (4 * w) 4) &&
      t.rd Reg.RED_TREE_STATUS_STATUS == stOK) = true ∧
    run (.redTreeRead acc) (zTree {}) (fun t => t.rd Reg.RED_TREE_STATUS_STATUS == stKEY_DENIED) = true := by intro s h; subst h; decide +kernel

/-! Chains.  Command 9 gathers three rows of eight bytes of a table of 128 bytes. -/
def stageG (flags : Nat := 1) : Bytes :=
  [1, BitVec.ofNat 8 flags, 0, 0, 8, 0, 0, 0] ++ List.replicate 8 0 ++ leBytes 8 0 ++ [1, 0, 5, 0] ++ leBytes 4 2 ++
    leBytes 8 256 ++ [1, 0, 5, 0] ++ leBytes 4 2 ++ leBytes 8 128 ++ [1, 0, 5, 0] ++ leBytes 4 1 ++ leBytes 8 8 ++ leBytes 8 3 ++ List.replicate 48 0
def gR (ref o : Nat) (t0 : Nat := tierNEAR) : Seg := { ref := ref, tier := t0, at_ := aNear + o, len := 128, ext := 3 }
def cChain (x : Chunk := {}) : Cmd :=
  { cmd9 0x20 (padTo 128 (List.replicate 64 0 ++ [1])) x with
    stages := padTo 256 (stageG), segs := [gR (refA 0) 0, gR (refC 0) 128, { gR (refB 0) 256 with write := true }] }
def zChain (x : Chunk := {}) (idx : Bytes := [2, 0, 0, 0, 0, 0, 0, 0, 15, 0, 0, 0]) : State :=
  { zCmdOf (cChain x) with near := memWrite (memWrite (memWrite [] aNear [1, 2, 3]) (aNear + 16) [7, 8]) (aNear + 128) idx }
def gStage : Stage := stageAt (cChain).stages 1 0
def row (id : Nat) (d : Bytes) : Row := { id := id, data := padTo 8 d }

theorem wit_chainGather : ∀ s, s = zChain → (cChain).stageList = [gStage] ∧ gStage.op = sGATHER ∧ gStage.inputRows = 3 ∧
    gStage.rowBytes = 8 ∧ gStage.iw = 4 ∧ s.chunkRows cChain gStage 0 = 3 ∧ s.readFault ((cChain).pieces (refC 0) 0 12) = none ∧
    (∀ i, i < 3 → s.readFault ((cChain).pieces (refA 0) ([2, 0, 15].getD i 0 * 8) 8) = none) ∧
    s.on Reg.OPE_CHK_INJ_ARM = false ∧ (∃ cl, s.runningChunk 9 0 = some (cChain, { phase := .running }, cl)) ∧
    run (.chain 9 0) s (fun t => frameB s t [.cmd] && t.cmd.running == [] && ((t.cmdOf 9).bind fun c => Tab.find? c.chunks 0).map (fun x =>
      (x.phase == .staged, x.work.outs, x.work.lates, x.work.count)) == some (true, [(0, [row 0 [7, 8], row 1 [1, 2, 3], row 2 []])], [(0, [])], 3)) = true := by
  intro s h; subst h
  refine ⟨?_, ?_, ?_, ?_, ?_, ?_, ?_, ?_, ?_, ⟨0, ?_⟩, ?_⟩ <;> decide +kernel
/-- The second index is one past the table's last row. -/
theorem wit_chainBad : ∀ s, s = zChain {} [2, 0, 0, 0, 16, 0, 0, 0] →
    (match s.chainWork cChain 0 { phase := .running } with | some (.error e) => e == .bad 0 1 | _ => false) = true ∧
    run (.chain 9 0) s (fun t => t.cmdOf 9 == none && t.rd Reg.OPE_CNT_BADIDX == 1 && memRead t.near (aNear + 544) 5 == [77, 0, 0, 0, BitVec.ofNat 8 stRANGE]) = true := by
  intro s h; subst h; decide +kernel
theorem wit_chainInject : ∀ s, s = withRegs zChain [(Reg.OPE_CHK_INJ_ARM, 0, 1), (Reg.OPE_CHK_INJ_OP, 0, 1)] →
    (s.chainWork cChain 0 { phase := .running }).any (fun r => r.toOption.isSome) = true ∧ ((cChain).stageList.map (·.op)).contains (s.rd Reg.OPE_CHK_INJ_OP) = true ∧
    run (.chain 9 0) s (fun t => t.rd Reg.OPE_CHK_INJ_ARM == 0 && ((t.cmdOf 9).bind fun c => Tab.find? c.chunks 0).map (fun y =>
      (y.phase == .waiting, y.fails, y.writes)) == some (true, 1, []) && sameB .near s t && sameB .tray s t) = true := by
  intro s h; subst h; decide +kernel
def wkC : ChainWork := { count := 3, dropped := 2, flags := 1, lates := [(0, [])] }
def zCommit (n : Nat) (w : ChainWork := wkC) : State :=
  noRing (zCmdOf { cChain with nchunks := n, chunks := [(0, { phase := .staged, work := w })] })
theorem wit_chainCommit : ∀ s, s = zCommit 2 → s.fatal = false ∧ (∃ c x, s.cmdOf 9 = some c ∧ Tab.find? c.chunks c.committed = some x ∧ x.phase = .staged ∧
    x.writes = [] ∧ x.work.outs = [] ∧ c.committed + 1 < c.nchunks) ∧ run (.chunkCommit 9) s (fun t => (t.cmdOf 9).map (fun d =>
      (d.committed, d.chain.rowsIn, d.chain.dropped, d.chain.flags)) == some (1, 3, 2, 1)) = true := by
  intro s h; subst h
  refine ⟨by decide +kernel, ⟨_, _, rfl, rfl, rfl, rfl, rfl, by decide +kernel⟩, by decide +kernel⟩
theorem wit_chainLast : run (.chunkCommit 9) (zCommit 1) (fun t => t.cmdOf 9 == none && t.rd Reg.OPE_CNT_CHAIN == 1) = true ∧
    run (.chunkCommit 9) (zCommit 1 { wkC with lates := [(0, [1])] }) (fun t => t.cmdOf 9 == none && t.rd Reg.OPE_CNT_LATE == 1) = true := by decide +kernel

/-- A gather request for two rows of the near extent's first 128 bytes. -/
def kG (idx : Nat := 1) (typ : Nat := 0) (f : Bool := false) : Packet :=
  { opcode := opGATHER_REQ, src := 7, dst := 0xF000, region := 1, key := 5, flags := if f then 64 else 0, status := typ, len := 128, arg := 2
    payload := padTo 128 (leBytes 4 64 ++ leBytes 4 0 ++ leBytes 8 64 ++ leBytes 8 128 ++ List.replicate 40 0 ++ leBytes 4 0 ++ leBytes 4 idx) }
theorem find_mem {α : Type} : ∀ (l : Tab α) (i : Nat) (v : α), Tab.find? l i = some v → (i, v) ∈ l
  | [], _, _, h => by simp [Tab.find?] at h
  | (k, v) :: l, i, w, h => by
    unfold Tab.find? at h
    split at h
    · next hk => cases h; subst hk; exact List.mem_cons_self
    · exact List.mem_cons_of_mem _ (find_mem l i w h)
theorem ext_refs (s : State) (h : ∀ e ∈ s.pool.extents, e.2.rrefs < 65535) (i : Nat) : (s.ext i).rrefs < 65535 := by
  unfold State.ext Tab.getD
  cases hf : Tab.find? s.pool.extents i with
  | none => decide
  | some e => exact h _ (find_mem _ _ _ hf)
theorem wit_gatherReq : ∀ s, s = zHome (kG) zFen → firstBad (gatherFields (q0 (kG)).pkt) = none ∧ s.fenQuiet (s.who (q0 (kG))).2 = false ∧
    s.regionCheck (s.who (q0 (kG))).1 (s.who (q0 (kG))).2 1 5 (rtR + rtC) (kG).localAddr (kG).gTable = stOK ∧
    s.rangeSegs (refA 0) (kG).localAddr (kG).gTable false false = some [gR (refA 0) 0] ∧
    (List.range (kG).gCount).find? (fun i => decide ((kG).gTable < (kG).gIndex i * (kG).gStride + (kG).gRow)) = none ∧
    (s.who (q0 (kG))).2 = 1 ∧ (s.fenClusters 1).isEmpty = false ∧ s.cmd.cmds = [] ∧ (∀ e, (s.ext e).rrefs < 65535) ∧
    run .gatherReq s (fun t => t.fab.he0 == [] && (t.cmdOf s.cmd.nextCid).map (fun d => (d.src, d.fen, d.segs, d.rrefs, d.phase == .staging)) ==
      some (1, 1, [gR (refA 0) 0], [3], true) && frameB s t [.regs, .pool, .fab, .cmd]) = true := by
  intro s h; subst h
  refine ⟨?_, ?_, ?_, ?_, ?_, ?_, ?_, ?_, ext_refs _ ?_, ?_⟩ <;> decide +kernel
theorem wit_gatherDup : ∀ s, s = { zHome (kG 1 0 true) zFen with cmd := { cmds := [(4, { src := 1, pkt := { kG with src := 7 } })] } } →
    ((q0 (kG 1 0 true)).pkt.retx && s.cmd.cmds.any fun c => c.2.src == 1 && c.2.pkt.src == 7 && c.2.pkt.seq == (kG).seq) = true ∧
    run .gatherReq s (fun t => t.fab.he0 == [] && t.rd Reg.OPE_CNT_GREQ_DUP == 1 && frameB s t [.regs, .fab]) = true := by intro s h; subst h; decide +kernel
theorem wit_gatherMalformed : ∀ s, s = zHome (kG 1 3) zFen → firstBad (gatherFields (q0 (kG 1 3)).pkt) = some 27 ∧
    s.lookup connHE0 (gatherStatus (q0 (kG 1 3)).pkt stMALFORMED 27) = .toPort 31 ∧ s.fab.fences = [] ∧ s.on Reg.XBR_CAP_CTL_ENABLE = false ∧
    run .gatherReq s (fun t => t.fab.he0 == [] && (t.voq connHE0 31 1).map (fun q => q.pkt) == [gatherStatus (q0 (kG 1 3)).pkt stMALFORMED 27] &&
      frameB s t [.fab, .xbr]) = true := by intro s h; subst h; decide +kernel
theorem wit_checkInject : run (.checkInject acc 7) zFen (fun t => t.rd Reg.OPE_CHK_INJ_OP == 7 && t.rd Reg.OPE_CHK_INJ_ARM == 1 &&
    regsB zFen t [Reg.OPE_CHK_INJ_OP.key 0 0, Reg.OPE_CHK_INJ_ARM.key 0 0]) = true ∧ zFen.admitsWrite acc 0x1400050 = true := by decide +kernel
/-- TOPK of two, the greatest 32-bit keys first: a tie goes to the lower ROWID. -/
theorem test_topk : topFold { op := sTOPK, body := padTo 64 [0, 0, 2, 0, 2, 0, 1], rowBytes := 4 } [] [row 0 [5], row 1 [9], row 2 [9], row 3 [1]] =
    [(-9, 1, leBytes 8 1), (-9, 2, leBytes 8 2)] := by decide +kernel

/-! The engine.  Pair 8's rings lie in the near extent, the submission ring at 4096 and the completion ring at 8192. -/
def ring8 : Ring := { sqBase := 4096, cqBase := 8192, state := ringACTIVE, fen := 1, sqExt := 3, cqExt := 3, sqTail := 1 }
def zRing (d : Bytes) (r : Ring := ring8) (cmds : Tab Cmd := []) : State :=
  { zFen with near := memWrite [] (aNear + 4096) d
              cmd := { rings := [(8, r), (9, ring8)], cmds := cmds, nextCid := 10 }
              cfg := { zFen.cfg with limits := [(1, { extents := 9, nearBytes := 2 ^ 40, trayBytes := 2 ^ 40, stagingBytes := 2 ^ 20 })] } }
def dFill : Bytes := [0x18, 0, 0, 0, 77, 0, 0, 0] ++ ((descOf (0, 128) (0, 0) 0 0).drop 8).take 40
theorem wit_fetch : ∀ s r c u, s = zRing dFill { ring8 with fetchHead := 65520 } → r = { ring8 with fetchHead := 65520 } →
    c = { pair := 8, slot := 65520, fen := 1, clid := 2, cls := 0, opcode := 0x18, cmdId := 77, desc := padTo 128 dFill } →
    u = ((s.upCmd fun b => { b with lastServed := Tab.put b.lastServed (pairClass 8) 8 }).upRing 8 fun r =>
          { r with fetchHead := (r.fetchHead + 1) % 65536, outstanding := r.outstanding + 1 }).bump Reg.CMD_CNT_ACCEPT →
    s.fetchFrom = some (8, r) ∧ s.badRange tierNEAR (aNear + 4096) 128 = false ∧ s.readTier tierNEAR ((s.ext 3).at_ 4096) 128 = c.desc ∧
    firstBad (s.descFields 1 c.desc) = none ∧ ((u.acceptOp c).toOption).map (fun x => (x.segs, x.rrefs, x.wrefs)) =
      some ([{ gN 0 0 with write := true }], [], [3]) ∧ (∀ i, (s.ext i).rrefs < 65535 ∧ (s.ext i).wrefs < 65535) ∧ s.pool.moves = [] ∧ s.pool.xlates = [] ∧
    run .descriptorFetch s (fun t => t.cmdOf 10 == some { c with segs := [{ gN 0 0 with write := true }], wrefs := [3], phase := .staging } &&
      (t.ring 8).fetchHead == 65521 && (t.ring 8).outstanding == 1 && t.ring 9 == ring8 && (t.ext 3).wrefs == 1 && frameB s t [.regs, .pool, .cmd]) = true := by
  intro s r c u h hr hc hu; subst hu; subst hc; subst hr; subst h
  refine ⟨?_, ?_, ?_, ?_, ?_, ?_, ?_, ?_, ?_⟩
  case refine_6 =>
    intro i
    unfold State.ext Tab.getD
    cases hf : Tab.find? (zRing dFill { ring8 with fetchHead := 65520 }).pool.extents i with
    | none => decide
    | some e => exact (show ∀ e ∈ (zRing dFill { ring8 with fetchHead := 65520 }).pool.extents, e.2.rrefs < 65535 ∧ e.2.wrefs < 65535 by decide +kernel) _ (find_mem _ _ _ hf)
  all_goals decide +kernel
theorem wit_fetchMalformed : ∀ s d, d = padTo 128 (0x18 :: 2 :: dFill.drop 2) → s = zRing d → firstBad (s.descFields 1 d) = some 1 ∧
    s.readTier tierNEAR ((s.ext 3).at_ 4096) 128 = d ∧ run .descriptorFetch s (fun t => t.cmd.cmds == [] && (t.ring 8).fetchHead == 1 &&
      (t.ring 8).outstanding == 0 && (t.ring 8).cqTail == 1 && memRead t.near (aNear + 8192) 8 == [77, 0, 0, 0, BitVec.ofNat 8 stMALFORMED, 1, 1, 0]) = true := by
  intro s d hd h; subst hd; subst h; decide +kernel
def zBadSq : State := let s := zRing dFill; { s with flt := { s.flt with badGranules := granKeys tierNEAR (aNear + 4096) 128 } }
theorem wit_fetchBad : zBadSq.badRange tierNEAR (aNear + 4096) 128 = true ∧ zBadSq.fetchFrom = some (8, ring8) ∧ run .descriptorFetch zBadSq (fun t =>
    (t.ring 8).state == ringERROR && (t.ring 8).err == stCHECK_FAIL && (t.ring 8).fetchHead == 0 && t.ring 9 == ring8 && t.cmd.cmds == []) = true := by decide +kernel
def zStage : State := zRing dFill ring8 [(9, { cmd9 0x18 [] with phase := .staging, chunks := [], next := 0 })]
theorem wit_stagingAdmit : (((List.range 4).filterMap fun k => zStage.oldestWaiting 1 k).find? fun c => zStage.stageFits 1 c.2.cls c.2.base).map (·.1) =
    some 9 ∧ run (.stagingAdmit 1) zStage (fun t => (t.cmdOf 9).map (·.phase) == some .ready) = true := by decide +kernel
theorem wit_nop : (zCmd 1 []).tableCmd 9 1 = some (cmd9 1 []) ∧ run (.nop 9) (zCmd 1 []) (fun t => t.cmdOf 9 == none && t.rd Reg.CMD_CNT_DONE == 1) = true := by
  decide +kernel
/-- The operands of a ring operation on pair 8. -/
def zPair (r : Ring) (p : Nat := 8) (st : Nat := fenRUNNING) : State :=
  withRegs (zRing (List.replicate 5 9) r) [(Reg.CMD_RING_INDEX_PAIR, 0, p), (Reg.CMD_RING_DATA0, 0, 4096), (Reg.CMD_RING_DATA2, 0, 6144),
    (Reg.CMD_RING_DATA4_SQ_LOG2, 0, 4), (Reg.CMD_RING_DATA4_CQ_LOG2, 0, 15), (Reg.FEN_STATE_STATE, 1, st)]
def rgIs (t : State) (st : Nat) : Bool := stIs Reg.CMD_RING_STATUS_STATUS Reg.CMD_RING_STATUS_DONE t st
theorem wit_ringRead : zFen.admitsWrite acc 0x800104 = true ∧ run (.ringRead acc) (zPair { ring8 with sqTail := 65535 }) (fun t => rgIs t stOK &&
    t.rd Reg.CMD_RING_DATA0 == 4096 && t.rd Reg.CMD_RING_DATA2 == 8192 && t.rd Reg.CMD_RING_DATA4_STATE == 1 && t.rd Reg.CMD_RING_DATA5_SQ_TAIL == 65535 &&
    t.rd Reg.CMD_RING_DATA5_FETCH_HEAD == 0 && frameB (zPair { ring8 with sqTail := 65535 }) t [.regs]) = true := by decide +kernel
def zReg : State := withRegs (zPair {}) [(Reg.CMD_RING_DATA2, 0, 8192), (Reg.CMD_RING_DATA0, 0, 4097)]
theorem wit_ringRegister : (zReg.ring 8).state = ringDISABLED ∧ (Tab.find? zReg.cfg.police 2).map (fun r => (r.valid, r.fen)) = some (true, 1) ∧
    zReg.ringExt 1 4096 2048 = some 3 ∧ zReg.ringExt 1 8192 (32 * 2 ^ 4) = some 3 ∧ Tab.find? zReg.pool.moves 3 = none ∧
    run (.ringRegister acc) (withRegs zReg [(Reg.CMD_RING_DATA4_CQ_LOG2, 0, 4)]) (fun t => rgIs t stOK && t.ring 8 == { ring8 with sqTail := 0 } && t.ring 9 == ring8 &&
      memRead t.near (aNear + 4096) 5 == List.replicate 5 9) = true ∧
    run (.ringRegister acc) (withRegs zReg [(Reg.CMD_RING_DATA2, 0, 4096)]) (fun t => rgIs t stRANGE) = true ∧
    run (.ringRegister acc) (zPair ring8) (fun t => rgIs t stRETRY && frameB (zPair ring8) t [.regs]) = true := by decide +kernel
theorem wit_ringUnregister : (zPair ring8 8 fenQUIESCED).fenState 1 = fenQUIESCED ∧ run (.ringUnregister acc) (zPair ring8 8 fenQUIESCED) (fun t =>
    rgIs t stOK && t.ring 8 == {} && t.ring 9 == ring8) = true ∧ run (.ringUnregister acc) (zPair { ring8 with outstanding := 1 } 8 fenQUIESCED) (fun t =>
    rgIs t stRETRY) = true := by decide +kernel
theorem wit_ringReset : run (.ringReset acc) (zPair { ring8 with state := ringERROR, err := 3, fetchHead := 7, cqHead := 5 }) (fun t => rgIs t stOK &&
    t.ring 8 == { ring8 with sqTail := 0 } && t.ring 9 == ring8) = true ∧ run (.ringReset acc) (zPair { ring8 with outstanding := 1 }) (fun t => rgIs t stRETRY) = true := by
  decide +kernel

/-! Chunks. -/
def zWait (n : Nat := 2) (cls : Nat := 0) : State := zRing dFill ring8 [(9, { cmd9 0x18 dFill with cls := cls, chunks := [], next := 0, nchunks := n, readyAt := 0 })]
theorem wit_dispatch : zWait.idle 0 = true ∧ zWait.fatal = false ∧ ((zWait.waiting.find? fun w => (zWait.clustersOf w).contains 0 &&
      (zWait.clustersOf w).all fun x => decide (0 ≤ x) || !zWait.idle x).map fun w => (w.cid, w.k)) = some (9, 0) ∧
    run (.chunkDispatch 0) zWait (fun t => Tab.find? t.cmd.running 0 == some (9, 0) && (t.cmdOf 9).map (fun d => (d.next, d.rerun)) == some (1, false) &&
      ((t.cmdOf 9).bind fun d => Tab.find? d.chunks 0).map (·.phase) == some .running) = true := by decide +kernel
def xW (vals : List Nat) (ws : List StagedWrite := []) : Chunk := { phase := .staged, vals := vals, writes := ws, flags := 2 }
def zSt (op n : Nat) (x : Chunk) (vals : List Nat := []) : State :=
  zCmdOf { cmd9 op [] with nchunks := n, result := 10, vals := vals, chunks := [(0, x)] }
theorem wit_commitData : ∀ s v, v = { tier := tierNEAR, at_ := aNear + 63, data := [1, 2] } → s = zSt 0x18 2 (xW [2] [v]) → s.fatal = false ∧
    (s.cmdOf 9).bind (fun c => Tab.find? c.chunks c.committed) = some (xW [2] [v]) ∧ s.badRange tierNEAR v.at_ v.data.length = false ∧ Memory.wf s.near = true ∧
    run (.chunkCommit 9) s (fun t => (t.cmdOf 9).map (fun d => (d.committed, d.result, d.rflags, d.chunks)) == some (1, 12, 2, []) &&
      t.near == memWrite [] v.at_ v.data) = true := by intro s v hv h; subst hv; subst h; decide +kernel
theorem wit_commitLast : run (.chunkCommit 9) (zSt 0x1B 1 (xW [2])) (fun t => t.cmdOf 9 == none && memRead t.near (aNear + 544) 10 ==
    [77, 0, 0, 0, 0, 0, 0, 0, 12, 0]) = true := by decide +kernel
theorem wit_commitCompare : run (.chunkCommit 9) (zSt 0x1A 2 (xW [7])) (fun t => (t.cmdOf 9).map (fun d => (d.committed, d.result, d.vals)) == some (1, 7, [7])) = true ∧
    run (.chunkCommit 9) (zSt 0x1A 2 (xW [7]) [3]) (fun t => (t.cmdOf 9).map (fun d => (d.committed, d.result, d.vals)) == some (1, 10, [3])) = true := by decide +kernel
theorem wit_age : ∀ s, s = { zWait 2 3 with hclk := 10 ^ 6 } → max 1 (s.rd Reg.CMD_AGE_US) ≤ s.sinceUs 0 ∧ (s.cmdOf 9).bind (·.nextChunk) = some 0 ∧
    run (.chunkAge 9 0) s (fun t => ((t.cmdOf 9).bind fun d => Tab.find? d.chunks 0) == some { raises := 1, ageFrom := 10 ^ 6 } &&
      t.rd Reg.CMD_CNT_AGED == 1 && frameB s t [.regs, .cmd]) = true := by intro s h; subst h; decide +kernel
theorem wit_shieldLapse : ∀ s, s = { zCmdOf { cmd9 0x18 [] with shieldAt := some 0, kills := 4 } with hclk := 10 ^ 9 } → s.rd Reg.CMD_SHIELD_MAX_US ≤ s.sinceUs 0 ∧
    s.fenQuiet 1 = false ∧ run (.shieldLapse 9) s (fun t => (t.cmdOf 9).map (fun d => (d.shieldAt, d.kills)) == some (none, 0) && t.rd Reg.CMD_CNT_LAPSE == 1) = true := by
  intro s h; subst h; decide +kernel
/-- A REDUCE of tree 5 whose contributions are sent; its instance's outcome. -/
def dRed : Bytes := descOf (0, 64) (128, 64) (5 + 2 ^ 20 * 9 + 2 ^ 24 * 9) 16 (leBytes 8 16)
def cRed : Cmd := { cmd9 0x21 dRed { vals := [1] } with segs := [gN 0 0, { gN 1 128 with write := true }] }
def zRedCmd (o : Option (Nat × Nat)) : State :=
  { zCmdOf cRed with red := { insts := [(redKey 5 0, { inst5 with outcome := o, flags := 1, chunks := [(0, { results := [{ payload := padTo 64 [9] }] })] })] } }
theorem wit_reduce : redKey cRed.rTree (cRed.rTag 0) = redKey 5 0 ∧ cRed.ref1.zero = false ∧ cRed.rRange 0 = (0, 16) ∧ cRed.src = 0 ∧
    (zRedCmd none).runningChunk 9 0 = some (cRed, { vals := [1], phase := .running }, 0) ∧ run (.reduce 9 0) (zRedCmd none) (fun t => t == zRedCmd none) = true ∧
    run (.reduce 9 0) (zRedCmd (some (stTIMEOUT, 0))) (fun t => t.cmdOf 9 == none) = true ∧
    run (.reduce 9 0) (zRedCmd (some (stOK, 0))) (fun t => t.cmd.running == [] && ((t.cmdOf 9).bind fun d => Tab.find? d.chunks 0).map (fun x =>
      (x.phase == .staged, x.flags, x.vals, x.writes)) == some (true, 1, [16], [{ tier := tierNEAR, at_ := aNear + 128, data := padTo 64 [9] }])) = true := by decide +kernel
theorem wit_preempt : ∀ s, s = zCmdOf (cmd9 0x18 [] { writes := [{}], progress := 5 }) → 1 < s.rd Reg.CMD_KILL_LIMIT_COUNT ∧ Tab.find? s.cmd.running 0 = some (9, 0) ∧
    ((s.preemptKill 0).cmdOf 9).map (fun d => (d.kills, d.chunks.map fun e => (e.2.phase == .waiting, e.2.writes, e.2.again))) = some (1, [(true, [], true)]) ∧
    (s.preemptKill 0).cmd.running = [] ∧ (s.preemptKill 0).rd Reg.CMD_CNT_PREEMPT = 1 ∧ frameB s (s.preemptKill 0) [.regs, .cmd] = true := by
  intro s h; subst h; decide +kernel

/-! Sequences.  Fen 1 owns groups 0 and 1, has two entries and a shape of one layer, one head of 64 elements and pages of one block. -/
def e5 : SeqEnt := { state := sqACTIVE, clid := 2, group := 1, length := 5 }
def zSq (ents : Tab SeqEnt) (s : State := zFen) : State :=
  withRegs { s with cfg := { s.cfg with limits := [(1, { seqEntries := 2, extents := 9, nearBytes := 2 ^ 40, trayBytes := 2 ^ 40 })] }, sqt := { ents := ents } }
    [(Reg.SQT_FEN_GRP_COUNT, 1, 2), (Reg.ATT_SHAPE0_LAYERS, 1, 1), (Reg.ATT_SHAPE0_HQ, 1, 1), (Reg.ATT_SHAPE0_HKV, 1, 1), (Reg.ATT_SHAPE1_PB, 1, 1),
     (Reg.ATT_SHAPE1_TOPN, 1, 1), (Reg.ATT_DIR_SLOTS_COUNT, 1, 9), (Reg.ATT_KVRGN_REGION, 1, 1)]
def zSqCmd (op p0 p1 : Nat) (ents : Tab SeqEnt) (tail : Bytes := []) : State :=
  let c := cmd9 op (descOf (0, 0) (0, 0) p0 p1 tail)
  { zSq ents (noRing (zCmdOf c)) with cmd := { cmds := [(9, c)], running := [(0, (9, 0))], nextCid := 10 } }
theorem wit_join : ∀ s c, c = cmd9 0x29 (descOf (0, 0) (0, 0) 1 70) → s = zSqCmd 0x29 1 70 [(seqKey 1 0, e5)] → s.tableCmd 9 0x29 = some c ∧
    c.p0 % 4096 = 1 ∧ s.opening 1 = false ∧ s.ownsGroup 1 1 = true ∧ s.ownsGroup 1 2 = false ∧ (s.members 1 1).length = 1 ∧ s.flt.poisoned = [] ∧
    ((List.range (min (min (s.seqEntries 1) (s.rd Reg.ATT_DIR_SLOTS_COUNT 1)) ((s.seqsOf 1).length + 1))).find? fun i =>
        !((s.seqsOf 1).map (·.1)).contains i) = some 1 ∧
    run (.seqJoin 9) s (fun t => t.seq 1 1 == { state := sqJOINING, clid := 2, group := 1, joinStep := 70 } && t.seq 1 0 == e5 &&
      t.rd Reg.SQT_STAT_USED == 1 && t.rd Reg.FEN_SEQ_USED_COUNT 1 == 1) = true := by intro s c hc h; subst hc; subst h; decide +kernel
theorem wit_joinFull : ∀ s, s = zSqCmd 0x29 1 70 [(seqKey 1 0, e5), (seqKey 1 1, e5)] → ((List.range (min (min (s.seqEntries 1) (s.rd Reg.ATT_DIR_SLOTS_COUNT 1))
      ((s.seqsOf 1).length + 1))).find? fun i => !((s.seqsOf 1).map (·.1)).contains i) = none ∧
    run (.seqJoin 9) s (fun t => t.rd Reg.SQT_CNT_TBL_FULL == 1 && t.sqt == s.sqt && t.cmdOf 9 == none) = true := by intro s h; subst h; decide +kernel
theorem wit_leaveActive : ∀ s, s = zSqCmd 0x2A 1 0 [(seqKey 1 0, e5), (seqKey 1 1, e5)] → s.opening (s.seq 1 1).group = false ∧ bit 1 18 = false ∧
    run (.seqLeave 9) s (fun t => t.seq 1 1 == { e5 with state := sqLEAVING } && t.seq 1 0 == e5) = true ∧
    (zSqCmd 0x2A 7 0 []).opening 0 = false ∧ run (.seqLeave 9) (zSqCmd 0x2A 7 0 []) (fun t => t == (zSqCmd 0x2A 7 0 []).finish 9 stRANGE) = true := by
  intro s h; subst h; decide +kernel
theorem wit_leaveJoining : ∀ s, s = withRegs (zSqCmd 0x2A 1 0 [(seqKey 1 0, e5), (seqKey 1 1, { e5 with state := sqJOINING })]) [(Reg.FEN_SEQ_USED_COUNT, 1, 2)] →
    s.cmd.cmds.length = 1 ∧ (s.seq 1 1).hasParent = false ∧ run (.seqLeave 9) s (fun t => t.seq 1 1 == {} && t.seq 1 0 == e5 && t.rd Reg.SQT_CNT_LEFT == 1 &&
      t.rd Reg.FEN_SEQ_USED_COUNT 1 == 1) = true := by intro s h; subst h; decide +kernel
theorem wit_resume : run (.seqResume 9) (zSqCmd 0x2B 1 0 [(seqKey 1 1, { e5 with state := sqPARKED })]) (fun t =>
      t.seq 1 1 == { e5 with state := sqPARKED, resume := true }) = true ∧
    run (.seqResume 9) (zSqCmd 0x2B 1 0 [(seqKey 1 1, e5)]) (fun t => t == (zSqCmd 0x2B 1 0 [(seqKey 1 1, e5)]).finish 9 stRANGE) = true := by decide +kernel
/-- The open of group 1's step 8: its sequence has served every layer of step 7. -/
def zOpen (own : Nat) (g : Group := { cur := 7, isOpen := true }) : State :=
  let s := zSq [(seqKey 1 0, { e5 with layersDone := 1, ownPages := own, length := 63, nores := true })]
  { s with sqt := { s.sqt with opens := [(1, 8, 0)], groups := [(1, g)] } }
theorem wit_open : (zOpen 2).groupFen 1 = some 1 ∧ ((zOpen 2).shape 1).l = 1 ∧ ((zOpen 2).shape 1).needsPage ((zOpen 2).seq 1 0) 64 = false ∧
    run .stepOpen (zOpen 2) (fun t => (t.grp 1).cur == 8 && (t.grp 1).isOpen && t.sqt.opens == [] && t.rd Reg.SQT_CNT_OPEN == 1 &&
      t.seq 1 0 == { e5 with inwl := true, lastStep := 8, length := 64, ownPages := 2 } && frameB (zOpen 2) t [.regs, .sqt]) = true := by decide +kernel
theorem wit_openParks : ((zOpen 1).shape 1).needsPage ((zOpen 1).seq 1 0) 64 = true ∧ 0 < ((zOpen 1).shape 1).hkv ∧ (zOpen 1).att.arenas = [] ∧
    run .stepOpen (zOpen 1) (fun t => (t.seq 1 0).state == sqPARKED && (t.seq 1 0).nores && (t.seq 1 0).ownPages == 1 && (t.grp 1).isOpen &&
      t.rd Reg.SQT_CNT_PARK == 1 && frameB (zOpen 1) t [.regs, .sqt]) = true := by decide +kernel
/-- An arena of two pages in the near extent; page 1 is held by a leave, page 0 is to be zeroed. -/
def ar3 : Arena := { fen := 1, addr := 0, ext := 3, pages := 2, filled := 2, held := [(1, 2 ^ 40 + 6)], dirty := [0] }
def zAr (a : Arena := ar3) : State :=
  let s := zSq []
  { s with att := { arenas := [(7, a)], leaving := [(6, { fen := 1, before := 3 })] }, near := memWrite [] (aNear + 8895) [1, 2] }
theorem wit_pageRelease : zAr.sqt.dropping = none ∧ run (.pageRelease 6) zAr (fun t => t.att.leaving == [] && t.att.arenas ==
    [(7, { ar3 with held := [], dirty := [0, 1] })] && frameB zAr t [.att]) = true := by decide +kernel
theorem wit_pageScrub : (zAr.shape 1).pageBytes = 8896 ∧ (zAr.ext 3).at_ (ar3.pageAt (zAr.shape 1) 0) = aNear ∧ run (.pageScrubDone 7 0) zAr (fun t =>
    t.att.arenas == [(7, { ar3 with dirty := [] })] && t.near == memWrite [] (aNear + 8896) [2] && frameB zAr t [.regs, .near, .flt, .att]) = true := by decide +kernel
def zSqReg (l : List (Fld × Nat × Nat)) (s : State := zOpen 1) : State := withRegs s l
theorem wit_grpOps : zFen.admitsWrite acc 0x1000104 = true ∧ zFen.hasAtt = true ∧ run (.sqtGrpRead acc) (zSqReg [(Reg.SQT_GRP_INDEX_GROUP, 0, 1)]) (fun t =>
      t.rd Reg.SQT_GRP_DATA0_CUR_STEP == 7 && t.rd Reg.SQT_GRP_DATA1_OPEN == 1 && stIs Reg.SQT_GRP_STATUS_STATUS Reg.SQT_GRP_STATUS_DONE t stOK) = true ∧
    (zOpen 1).groupFen 2 = none ∧ run (.sqtGrpReset acc) (zSqReg [(Reg.SQT_GRP_INDEX_GROUP, 0, 2)]) (fun t => (t.grp 2).cur == 0 && (t.grp 1).cur == 7 &&
      stIs Reg.SQT_GRP_STATUS_STATUS Reg.SQT_GRP_STATUS_DONE t stOK) = true ∧
    run (.sqtGrpReset acc) (zSqReg [(Reg.SQT_GRP_INDEX_GROUP, 0, 1)]) (fun t => t.rd Reg.SQT_GRP_STATUS_STATUS == stRETRY) = true := by decide +kernel
def zEnt (i : Nat) : State := zSqReg [(Reg.SQT_ENT_FEN_FEN, 0, 1), (Reg.SQT_ENT_INDEX_INDEX, 0, i)] (zSq [(seqKey 1 1, e5)])
def entIs (t : State) (st : Nat) : Bool := stIs Reg.SQT_ENT_STATUS_STATUS Reg.SQT_ENT_STATUS_DONE t st
theorem wit_entOps : zFen.admitsWrite acc 0x1000208 = true ∧ run (.sqtEntRead acc) (zEnt 1) (fun t => entIs t stOK &&
      (List.range 16).map (fun w => t.rd Reg.SQT_ENT_DATA w) == ((zEnt 1).seqWords 1 1).map (· % 2 ^ 32)) = true ∧
    run (.sqtEntRead acc) (zEnt 2) (fun t => entIs t stKEY_DENIED) = true := by decide +kernel
theorem wit_drop : (zEnt 1).seqsOf 1 = [(1, e5)] ∧ (zEnt 1).cmd.cmds = [] ∧ run (.drop acc) (zEnt 1) (fun t => entIs t stOK && t.seq 1 1 == {}) = true ∧
    run (.dropFen acc) (zEnt 1) (fun t => entIs t stOK && t.seq 1 1 == {}) = true := by decide +kernel

/-! Attention. -/
/-- STEP of a group and a step, layer 0, packet 0, the message's last. -/
def kStep (g n : Nat) (st : Nat := 0) : Packet :=
  { opcode := opSTEP, dst := 0xF000, src := 7, len := 64, region := 1, key := 5, status := st, arg := n, addr := 2 ^ 39 + 2 ^ 20 * g, payload := padTo 64 [0] }
def zStep (k : Packet) : State := zHome k (zOpen 1)
theorem wit_stepMalformed : ∀ s p, p = (q0 (kStep 1 8 1)).pkt → s = zStep (kStep 1 8 1) → stepFieldBad true (s.shape 1).l p = some 27 ∧ p.sLast = true ∧
    p.sPkt = 0 ∧ s.lookup connHE0 (gatherStatus p.stepEcho stMALFORMED 27) = .toPort 31 ∧ s.fab.fences = [] ∧ s.on Reg.XBR_CAP_CTL_ENABLE = false ∧
    run .step s (fun t => t.fab.he0 == [] && t.att == s.att && t.rd Reg.ATT_CNT_REC_MALF == 1 &&
      (t.voq connHE0 31 1).map (·.pkt) == [gatherStatus p.stepEcho stMALFORMED 27]) = true := by intro s p hp h; subst hp; subst h; decide +kernel
theorem wit_stepHeld : ∀ s p, p = (q0 (kStep 0 4)).pkt → s = zStep (kStep 0 4) → stepFieldBad true (s.shape 1).l p = none ∧ s.fenQuiet 1 = false ∧
    s.kvRegion 1 = 1 ∧ s.regionCheck (s.who (q0 (kStep 0 4))).1 (s.who (q0 (kStep 0 4))).2 1 5 (rtR + rtC) ((s.rgn 1).base * unitBytes) 0 = stOK ∧
    (s.fenClusters 1).isEmpty = false ∧ s.ownsGroup 1 p.sGroup = true ∧ (s.grp 0).isOpen = false ∧ p.sLayer = 0 ∧
    run .step s (fun t => t.fab.he0 == [] && t.sqt.opens == [(1, 8, 0), (0, 4, s.tnow)] && (t.msg 0).map (fun m => (m.src, m.fen, m.group, m.step, m.parts, m.recs)) ==
      some (7, 1, 0, 4, [(0, padTo 64 [0])], 0) && t.rd Reg.SQT_STAT_OPENING == 1 && frameB s t [.regs, .fab, .att, .sqt]) = true := by
  intro s p hp h; subst hp; subst h; decide +kernel
theorem wit_stepStale : ∀ s p, p = (q0 (kStep 1 9)).pkt → s = zStep (kStep 1 9) → s.stepOpens p = none ∧ s.lookup connHE0 (gatherStatus p.stepEcho stRANGE 0) = .toPort 31 ∧
    run .step s (fun t => t.fab.he0 == [] && t.rd Reg.SQT_CNT_STALE == 1 && (t.voq connHE0 31 1).map (·.pkt) == [gatherStatus p.stepEcho stRANGE 0] &&
      t.att.msgs == []) = true := by intro s p hp h; subst hp; subst h; decide +kernel
def zMsg (m : StepMsg) : State := { zSq [] with att := { msgs := [(3, m), (4, {})] }, hclk := 2 ^ 40 }
theorem wit_msgTimeout : (({} : StepMsg)).complete = false ∧ (zMsg {}).timeoutHclk ≤ (zMsg {}).hclk ∧ (zMsg {}).recordsOf 3 = [] ∧
    run (.stepMsgTimeout 3) (zMsg {}) (fun t => t.msg 3 == none && t.msg 4 == some {} && t.rd Reg.ATT_CNT_MSG_INCOMPLETE == 1 && frameB (zMsg {}) t [.regs, .att]) = true := by
  decide +kernel
/-- A record of message 3, of a sequence with no page; another record of the message is still to come. -/
def cRec (n : Nat) : Cmd :=
  { src := 2, fen := 1, clid := 2, pair := 8, desc := padTo 192 (leBytes 4 17), phase := .ready, base := 0, nchunks := n, dies := [0, 1], vals := [3, 0, 17]
    chunks := [(0, { phase := .running })] }
def zRec (n : Nat) : State :=
  { zSq [] with att := { msgs := [(3, { fen := 1, first := { kStep 1 8 with src := 7 }, recs := 2 })] }
                cmd := { cmds := [(9, cRec n)], running := [(0, (9, 0))], nextCid := 10 } }
theorem wit_stepRecord : (zRec 1).runningChunk 9 0 = some (cRec 1, { phase := .running }, 0) ∧ recAppend (cRec 1).desc = false ∧
    run (.stepRecord 9 0) (zRec 2) (fun t => ((t.cmdOf 9).bind fun d => Tab.find? d.chunks 0).map (·.phase == .staged) == some true && t.cmd.running == [] &&
      frameB (zRec 2) t [.cmd]) = true ∧
    run (.stepRecord 9 0) (zRec 1) (fun t => t.cmdOf 9 == none && t.rd Reg.ATT_CNT_REC == 1 && (t.msg 3).map (fun m => (m.joined, m.carry.take 8)) ==
      some (1, leBytes 4 17 ++ [0, 0, 0, 0])) = true := by decide +kernel
/-- APPEND of one token to sequence 1 at position 5; its page is page 1 of the arena, and its directory lies in the near extent. -/
def dApp : Bytes := descOf (0, 0) (20480, 192) 1 5 (leBytes 8 1)
def cApp : Cmd := { cmd9 0x28 dApp with segs := [{ ref := 1, tier := tierNEAR, at_ := aNear + 20480, len := 192, ext := 3 }] }
def zApp (b : Byte) : State :=
  let s := zSq [(seqKey 1 1, { e5 with state := sqJOINING, ownPages := 1 })] (zCmdOf cApp)
  withRegs { s with near := memWrite (memWrite [] (aNear + 65536 + 4096) (leBytes 4 (dirEntry 7 1) )) (aNear + 20480) [b], att := { arenas := [(7, { ar3 with held := [] })] } }
    [(Reg.ATT_DIR_BASE_LO, 1, 65536)]
theorem wit_append : ∀ s, s = zApp 0x38 → (s.shape 1).cells = [(0, 0)] ∧
    (s.shape 1).tokenBytes = 192 ∧ cApp.appChunk 0 0 = (0, 1) ∧ (s.shape 1).place 0 0 5 = (5, 0, 0) ∧ s.readFault (cApp.pieces 1 0 192) = none ∧
    s.appPage cApp 0 0 = some 8896 ∧ (s.shape 1).needsPage (s.seq 1 1) 5 = false ∧
    ((s.shape 1).slicesOf (s.readPieces (cApp.pieces 1 0 192)) 1 0 0).all (fun b => ((s.shape 1).sliceBad b).isNone) = true ∧
    run (.append 9 0) s (fun t => frameB s t [.cmd] && ((t.cmdOf 9).bind fun d => Tab.find? d.chunks 0).map (fun x => (x.phase == .staged,
      x.writes.map fun w => w.data.take 2)) == some (true, [[0x38, 0]])) = true := by intro s h; subst h; decide +kernel
theorem wit_appendMalformed : run (.append 9 0) (zApp 0x7F) (fun t => t == (zApp 0x7F).finish 9 stMALFORMED) = true := by decide +kernel
def zArReg (arena : Nat) (a : Arena := ar3) : State := withRegs (zAr a) [(Reg.ATT_AR_INDEX_ARENA, 0, arena), (Reg.ATT_AR_DATA0_FEN, 0, 1)]
def arIs (t : State) (st : Nat) : Bool := stIs Reg.ATT_AR_STATUS_STATUS Reg.ATT_AR_STATUS_DONE t st
theorem wit_arenaRead : zFen.admitsWrite acc 0x1200104 = true ∧ run (.arenaRead acc) (zArReg 7) (fun t => arIs t stOK && t.rd Reg.ATT_AR_DATA0_FEN == 1 &&
    t.rd Reg.ATT_AR_DATA0_VALID == 1 && t.rd Reg.ATT_AR_DATA3_PAGES == 2 && t.rd Reg.ATT_AR_DATA4_FREE == 0) = true := by decide +kernel
theorem wit_arenaRegister : ((zArReg 8).extAt 0).map (fun e => (e.1, e.2.lo, e.2.fen, e.2.region)) = some (3, 0, 1, 1) ∧ (zArReg 8).hasShape 1 = true ∧
    run (.arenaRegister acc) (zArReg 8) (fun t => arIs t stOK && Tab.find? t.att.arenas 8 == some { fen := 1, ext := 3, pages := 29 } &&
      Tab.find? t.att.arenas 7 == some ar3 && frameB (zArReg 8) t [.regs, .att]) = true ∧
    run (.arenaRegister acc) (zArReg 7) (fun t => arIs t stRETRY) = true := by decide +kernel
theorem wit_arenaUnregister : run (.arenaUnregister acc) (zArReg 7) (fun t => arIs t stRETRY) = true ∧
    run (.arenaUnregister acc) (zArReg 7 { ar3 with held := [] }) (fun t => arIs t stOK && t.att.arenas == []) = true := by decide +kernel

/-! Checkpoints.  Set 4 of fen 1 has one member, its area at the near extent, with slots of one unit. -/
def set4 : CkpSet := { fen := 1, slotUnits := 1, mem := [{ region := 1, key := 5 }] }
def dCk (p0 p1 p2 p3 p4 : Nat) : Bytes := descOf (262144, 64) (0, 0) p0 p1 (leBytes 8 p2 ++ leBytes 8 p3 ++ leBytes 8 p4)
def cCk (op : Nat) (w : CkpWork := {}) (p2 : Nat := 0) (p4 : Nat := 0) : Cmd :=
  { cmd9 op (dCk 4 6 p2 0 p4) with ckp := w, segs := [{ ref := 0, tier := tierNEAR, at_ := aNear + 512, len := 64, ext := 3 }] }
def zCk (c : Cmd) (h : Bytes := []) : State :=
  { zCmdOf c with near := memWrite [] aNear h, ckp := { sets := [(4, set4)] } }
def hd (st units : Nat) : Bytes := headerBytes st 0 6 units 0 0 0 0 []
def staged (t : State) : Option (Bool × List Nat × List (Nat × Nat × Nat) × List Nat) :=
  ((t.cmdOf 9).bind fun c => Tab.find? c.chunks 0).map fun x => (x.phase == .staged, x.vals, x.writes.map fun w => (w.at_, w.data.length, fld w.data 6 1), x.blobs.map (·.length))

theorem wit_ckpOpen : (zCk (cCk 0x30)).runningChunk 9 0 = some (cCk 0x30, { phase := .running }, 0) ∧ (cCk 0x30).ckpSetNo = 4 ∧ (cCk 0x30).epoch = 6 ∧
    run (.ckpOpen 9 0) (zCk (cCk 0x30)) (fun t => staged t == some (true, [], [(aNear, 192, ckOPEN)], []) && frameB (zCk (cCk 0x30)) t [.cmd]) = true := by decide +kernel
theorem wit_ckpEncode : ∀ s c, c = cCk 0x31 {} 1 3 → s = zCk c (hd ckOPEN 0) → ckpSize c.ckpFmt = 2 ∧ s.readFault (c.pieces 0 0 6) = none ∧
    run (.ckpEncode 9 0) s (fun t => staged t == some (true, [3, 1], [], [188]) && frameB s t [.cmd]) = true := by intro s c hc h; subst hc; subst h; decide +kernel
theorem wit_ckpSeal : ∀ s, s = zCk (cCk 0x32) (hd ckOPEN 0) → s.readFault (s.areaSegs set4 (slotHeader 6) 64) = none ∧
    hdState (s.readPieces (s.areaSegs set4 (slotHeader 6) 64)) = ckOPEN ∧ run (.ckpSeal 9 0) s (fun t => staged t ==
      some (true, [], [(aNear + 65536, 0, 0), (aNear, 64, ckSEALED)], [])) = true ∧
    run (.ckpSeal 9 0) (zCk (cCk 0x32) (hd ckSEALED 0)) (fun t => staged t == some (true, [], [], [])) = true := by intro s h; subst h; decide +kernel
theorem wit_ckpParityPoll : ∀ s, s = { zCk (cCk 0x33) (hd ckSEALED 0) with hclk := 50 } → set4.others = [] ∧ s.readFault (s.areaSegs set4 (slotHeader 6) 192) = none ∧
    run (.ckpParity 9 0) s (fun t => (t.cmdOf 9).map (·.ckp) == some { waitFrom := some 50, lastPoll := 50 } && frameB s t [.fab, .cmd]) = true := by
  intro s h; subst h; decide +kernel
def wkP (n : Nat) : CkpWork := { polled := true, stripes := n, units := [] }
theorem wit_ckpParityUnit : 0 < 2 * (wkP 10).stripes / 10 ∧ unitTags 0 ((cCk 0x33 (wkP 10)).dataRefs (parityStripe set4.self 0)) = [] := by decide +kernel
theorem wit_ckpParityDone : ∀ s, s = zCk (cCk 0x33 (wkP 0)) (hd ckSEALED 3) → run (.ckpParity 9 0) s (fun t => staged t == some (true, [], [(aNear, 128, ckPARITY_DONE)], [])) = true := by
  intro s h; subst h; decide +kernel
theorem wit_ckpCommitReady : run (.ckpCommit 9 0) (zCk (cCk 0x34 (wkP 0))) (fun t => staged t == some (true, [], [], [])) = true := by decide +kernel
theorem wit_ckpWalkDone : ∀ s, s = zCk (cCk 0x37) (hd ckPARITY_DONE 0) → (cCk 0x37).walkStart 0 = some (0, false) ∧ hdUnits (s.ckpHeader set4 6) = 0 ∧
    run (.ckpVerify 9 0) s (fun t => staged t == some (true, [0, 1, 0, 0, 0], [], [])) = true ∧
    run (.ckpDecode 9 0) (zCk (cCk 0x35) (hd ckPARITY_DONE 0)) (fun t => staged t == some (true, [0, 1, 0, 0, 0], [], [])) = true := by
  intro s h; subst h; decide +kernel
theorem wit_ckpWalkBad : run (.ckpVerify 9 0) (zCk (cCk 0x37) (hd ckPARITY_DONE 1)) (fun t => t.cmdOf 9 == none && t.rd Reg.CKP_CNT_CRC_FAIL == 1) = true ∧
    run (.ckpDecode 9 0) (zCk (cCk 0x35) (hd ckPARITY_DONE 1)) (fun t => t.cmdOf 9 == none && t.rd Reg.CKP_CNT_CRC_FAIL == 1) = true := by decide +kernel
/-- Set 5 has ten members; the switch is member 0. -/
def set5 : CkpSet := { set4 with members := 10, parity := true }
theorem wit_ckpRebuild : holderP 5 ≠ set4.self ∧ holderQ 5 ≠ set4.self ∧ holderP 10 = set4.self ∧ (wkP 6).units.getD set4.self 0 ≤ dataUnit set4.self 5 ∧
    (let c := { cCk 0x36 (wkP 6) with chunks := [(5, { phase := .running })] }
     run (.ckpRebuild 9 5) (let s := zCk c; s.upCmd fun b => { b with running := [(0, (9, 5))] }) (fun t =>
      ((t.cmdOf 9).bind fun c => Tab.find? c.chunks 5).map (·.phase == .staged) == some true)) = true ∧
    run (.ckpRebuild 9 0) (zCk (cCk 0x36 (wkP 0))) (fun t => staged t == some (true, [], [(aNear, 192, ckPARITY_DONE)], [])) = true := by decide +kernel
theorem wit_ckpRebuildUnit : ((cCk 0x36 (wkP 20)).rebuildRefs { set4 with slotUnits := 4 } 10).length = 8 ∧ 10 < (wkP 20).stripes ∧
    (∀ g, g ∈ unitTags 10 ((cCk 0x36 { wkP 20 with stripes := 20 }).dataRefs 10) → False) := by decide +kernel
def zMark : State := noRing (zCk { cCk 0x34 (wkP 0) with chunks := [(0, { phase := .staged })] } (hd ckPARITY_DONE 0))
theorem wit_ckpCommitMark : zMark.areaWrite set4 (slotHeader 6 + 128) (markBytes 6 zMark.tnow 0) =
      [{ tier := tierNEAR, at_ := aNear + 128, data := markBytes 6 zMark.tnow 0 }] ∧ zMark.rd Reg.POOL_HOME_HOME = 0 ∧ Memory.wf zMark.near = true ∧
    zMark.badRange tierNEAR (aNear + 128) 64 = false ∧ run (.chunkCommit 9) zMark (fun t => t.cmdOf 9 == none &&
      memRead t.near (aNear + 128) 64 == markBytes 6 zMark.tnow 0 && memRead t.near aNear 128 == memRead zMark.near aNear 128) = true := by decide +kernel
def zPoll (now waitUs last : Nat) : State := { zCk (cCk 0x33 { waitFrom := some 0, lastPoll := last } waitUs) (hd ckOPEN 0) with hclk := now }
theorem wit_ckpPoll : (cCk 0x33 { waitFrom := some 0 } 7).judgePoll set4 ((zPoll 0 7 0).ckpHeader set4 6) = .waiting ∧
    run (.ckpHeaderPoll 9) (zPoll 8400 7 0) (fun t => t.cmdOf 9 == none && t.rd Reg.CKP_CNT_WAIT_TO == 1) = true ∧
    max 1 ((zPoll 0 7 0).rd Reg.CKP_POLL_US) ≤ (zPoll (10 ^ 8) (10 ^ 6) 0).sinceUs 0 ∧
    run (.ckpHeaderPoll 9) (zPoll (10 ^ 8) (10 ^ 6) 0) (fun t => (t.cmdOf 9).map (·.ckp) == some { waitFrom := some 0, lastPoll := 10 ^ 8 }) = true ∧
    run (.ckpHeaderPoll 9) (zPoll (10 ^ 8) (10 ^ 6) (10 ^ 8)) (fun t => t == zPoll (10 ^ 8) (10 ^ 6) (10 ^ 8)) = true := by decide +kernel
def zSet (i : Nat) (l : List (Fld × Nat × Nat) := []) (c : Cmd := cCk 0x30) : State :=
  withRegs { zCk c with ckp := { sets := [(4, { set4 with slotUnits := 9 })] }, near := memWrite [] aNear ((hd ckSEALED 0) ++ List.replicate 200 7) } ((Reg.CKP_SET_INDEX_SET, 0, i) :: l)
def ckIs (t : State) (st : Nat) : Bool := stIs Reg.CKP_SET_STATUS_STATUS Reg.CKP_SET_STATUS_DONE t st
theorem wit_ckpSetRead : zFen.admitsWrite acc 0x1800104 = true ∧ run (.ckpSetRead acc) (zSet 4) (fun t => ckIs t stOK && t.rd Reg.CKP_SET_DATA0_VALID == 1 &&
      t.rd Reg.CKP_SET_DATA0_FEN == 1 && t.rd Reg.CKP_SET_DATA1_SLOT_UNITS == 9 && t.rd Reg.CKP_SET_DATA44_STATE0 == ckSEALED && t.rd Reg.CKP_SET_DATA42 == 0 &&
      t.rd Reg.CKP_SET_DATA44_STATE1 == 7) = true ∧ run (.ckpSetRead acc) (zSet 63) (fun t => ckIs t stOK && t.rd Reg.CKP_SET_DATA0_VALID == 0) = true := by decide +kernel
def lSet : List (Fld × Nat × Nat) := [(Reg.CKP_SET_DATA0_FEN, 0, 1), (Reg.CKP_SET_DATA0_MEMBERS, 0, 1), (Reg.CKP_SET_DATA1_SLOT_UNITS, 0, 1)]
theorem wit_ckpSetRegister : run (.ckpSetRegister acc) (zSet 4) (fun t => ckIs t stRETRY) = true ∧ ((zSet 5 lSet).ckpSetArgs).areaOk ((zSet 5 lSet).ext 3) = true ∧
    hasRepeat ((((zSet 5 lSet).ckpSetArgs).mem.take 1).map (·.home)) = false ∧ ((zSet 5 lSet).extAt 0).map (·.1) = some 3 ∧
    run (.ckpSetRegister acc) (zSet 5 lSet) (fun t => ckIs t stOK && (t.ckpSet 5).map (fun z => (z.fen, z.members, z.slotUnits, z.mem.length)) == some (1, 1, 1, 1) &&
      (t.ckpSet 4).isSome && memRead t.near aNear 193 == List.replicate 192 0 ++ [7] && t.rd Reg.CKP_STAT_SETS == 2) = true := by decide +kernel
theorem wit_ckpSetUnregister : run (.ckpSetUnregister acc) (zSet 4) (fun t => ckIs t stRETRY && (t.ckpSet 4).isSome) = true ∧
    run (.ckpSetUnregister acc) (zSet 4 [] (cmd9 1 [])) (fun t => ckIs t stOK && t.ckpSet 4 == none) = true := by decide +kernel
/-- A block of three BF16 values, sealed for its address and epoch, decodes to them. -/
theorem test_ckpBlock : ∀ b, b = (ckpEncode 1 9 0 [0x3F80, 0x3F81, 0xBF80]).1 → (ckpDecode (ckpSealed 0 6 b)).map (fun d => (d.obj, d.values)) =
    some (9, [0x3F80, 0x3F81, 0xBF80]) := by intro b h; subst h; decide +kernel

/-! Route tables.  The active bank routes home 5 to port 31, an uplink; the shadow has another seed. -/
def bankA : Bank := { routes := [(5, { portset := 2 ^ 31, map := [31] })], matches_ := [(2, { valid := true, portset := 2 ^ 31 })], seed := some 9 }
def zRte (l : List (Fld × Nat × Nat)) (swap : Option Swap := none) (s : State := zFen) : State :=
  withRegs { s with xbr := { s.xbr with bank0 := bankA, bank1 := { seed := some 4, routes := [(6, { portset := 2 ^ 31 })] }, swap := swap }
                    cfg := { s.cfg with ports := [(31, { role := roleUplink })] } } l
def rteIs (t : State) (st : Nat) : Bool := stIs Reg.RTE_STATUS_STATUS Reg.RTE_STATUS_DONE t st
def ix (t i : Nat) (bank : Nat := 0) : List (Fld × Nat × Nat) := [(Reg.RTE_INDEX_TABLE, 0, t), (Reg.RTE_INDEX_INDEX, 0, i), (Reg.RTE_INDEX_BANK, 0, bank)]
def rd4 (b : Bytes) : List (Fld × Nat × Nat) := (List.range 4).map fun w => (Reg.RTE_DATA, w, fld b (4 * w) 4)
theorem wit_rteRead : zFen.admitsWrite acc 0x2600004 = true ∧ (zRte []).bank = bankA ∧ (zRte []).shadow.seed = some 4 ∧
    run (.rteRead acc) (zRte (ix 0 5)) (fun t => rteIs t stOK && (List.range 4).map (fun w => t.rd Reg.RTE_DATA w) == [5 * 2 ^ 16, 2 ^ 31, 0, 0] &&
      t.rd Reg.RTE_MAP 0 == 0xFFFFFF1F && t.rd Reg.RTE_MAP 15 == 0xFFFFFFFF && frameB (zRte (ix 0 5)) t [.regs]) = true ∧
    run (.rteRead acc) (zRte (ix 2 0 1)) (fun t => rteIs t stOK && t.rd Reg.RTE_DATA 1 == 4) = true ∧
    rteOutside 1 1024 = true ∧ run (.rteRead acc) (zRte (ix 1 1024)) (fun t => rteIs t stRANGE) = true := by decide +kernel
theorem wit_rteWriteRange : run (.rteWrite acc) (zRte (ix 2 1 ++ rd4 (seedBytes 7))) (fun t => rteIs t stRANGE &&
      regsB (zRte (ix 2 1 ++ rd4 (seedBytes 7))) t [Reg.RTE_OP_CODE.key 0 0, Reg.RTE_STATUS_STATUS.key 0 0, Reg.RTE_STATUS_DONE.key 0 0]) = true ∧
    run (.rteWrite acc) (zRte (ix 1 1 ++ rd4 (seedBytes 7))) (fun t => rteIs t stMALFORMED) = true := by decide +kernel
theorem wit_rteWriteRoute : ∀ s, s = zRte (ix 0 4095 ++ rd4 (routeBytes false 4095 (2 ^ 31))) → s.rteWriteStatus 0 4095 (routeBytes false 4095 (2 ^ 31)) = stOK ∧
    run (.rteWrite acc) s (fun t => rteIs t stOK && t.bank == s.bank && (Tab.find? t.shadow.routes 4095).map (·.portset) == some (2 ^ 31) &&
      Tab.find? t.shadow.routes 6 == Tab.find? s.shadow.routes 6 && t.shadow.seed == some 4 && frameB s t [.regs, .flt, .xbr]) = true := by intro s h; subst h; decide +kernel
theorem wit_rteWriteNoRoute : (zRte (ix 0 6 ++ rd4 (routeBytes false 6 0))).rteWriteStatus 0 6 (routeBytes false 6 0) = stOK ∧
    run (.rteWrite acc) (zRte (ix 0 6 ++ rd4 (routeBytes false 6 0))) (fun t => t.shadow.routes == []) = true := by decide +kernel
def mE : MatchEnt := { valid := true, priority := 15, dst := 0x1234, dstMask := 0xFFFF, opcode := 0x10, opcMask := 0xF0, action := 0, portset := 2 ^ 31 }
theorem wit_rteWriteMatch : ∀ s, s = zRte (ix 1 1023 ++ rd4 (matchBytes 1023 mE)) → s.rteWriteStatus 1 1023 (matchBytes 1023 mE) = stOK ∧
    run (.rteWrite acc) s (fun t => (Tab.find? t.shadow.matches_ 1023) == some mE && t.shadow.routes == s.shadow.routes && t.bank == s.bank) = true := by
  intro s h; subst h; decide +kernel
theorem wit_rteWriteSeed : run (.rteWrite acc) (zRte (ix 2 0 ++ rd4 (seedBytes 7))) (fun t => rteIs t stOK && t.shadow == { (zRte []).shadow with seed := some 7 }) = true := by
  decide +kernel
theorem wit_rteCopy : run (.rteCopy acc) (zRte []) (fun t => rteIs t stOK && t.shadow == bankA && t.bank == bankA) = true ∧
    run (.rteCopy acc) (zRte [] (some {})) (fun t => rteIs t stRETRY) = true ∧ run (.swap acc true) (zRte [] (some {})) (fun t => rteIs t stRETRY) = true ∧
    run (.swapAt acc true) (zRte [] (some {})) (fun t => rteIs t stRETRY) = true ∧ run (.rteWrite acc) (zRte [] (some {})) (fun t => rteIs t stRETRY) = true := by decide +kernel
theorem wit_swap : run (.swap acc false) (zRte []) (fun t => rteIs t stOK && t.xbr.swap == some {} && t.rd Reg.RTE_OP_PENDING == 1 && t.bank == bankA &&
      t.shadow.seed == some 4 && (Tab.find? t.shadow.routes 6).map (·.map) == some ((zRte []).buildMap (2 ^ 31))) = true ∧
    (zRte []).tabor + 20000 * 2 ^ 32 ≤ (zRte [(Reg.RTE_SWAP_TIME_LO, 0, 20000)]).rd64 Reg.RTE_SWAP_TIME_LO Reg.RTE_SWAP_TIME_HI * 2 ^ 32 ∧
    run (.swapAt acc true) (zRte [(Reg.RTE_SWAP_TIME_LO, 0, 20000)]) (fun t => rteIs t stOK && t.xbr.swap == some { atNs := some 20000 }) = true ∧
    run (.swapAt acc true) (zRte [(Reg.RTE_SWAP_TIME_LO, 0, 19999)]) (fun t => rteIs t stRANGE) = true := by decide +kernel
theorem wit_cancel : run (.cancel acc) (zRte [(Reg.RTE_OP_PENDING, 0, 1)] (some {})) (fun t => rteIs t stOK && t.xbr.swap == none && t.rd Reg.RTE_OP_PENDING == 0 &&
    t.bank == bankA && t.shadow == (zRte []).shadow) = true := by decide +kernel
def zSwap (at_ : Option Nat) (up : Nat) : State := zRte [(Reg.FAB_PSTAT_UP, 31, up)] (some { atNs := at_ })
theorem wit_swapActivate : ((zSwap none 1).shadow.routes.all fun h => decide (h.1 < 4096) && (bitList 32 h.2.portset).any fun q => (zSwap none 1).alive q) = true ∧
    run .swapActivate (zSwap none 1) (fun t => t.bank == (zSwap none 1).shadow && t.shadow == bankA && t.xbr.swap == none && t.rd Reg.RTE_CNT_SWAP == 1 &&
      frameB (zSwap none 1) t [.regs, .xbr]) = true ∧ run .swapActivate (zSwap (some 1) 1) (fun t => t == zSwap (some 1) 1) = true := by decide +kernel
def zCap (l : List (Fld × Nat × Nat)) : State := zRte (s := { zFen with cfg := { zFen.cfg with limits := [(1, { extents := 9, capringBytes := 65536 })] } }) ([(Reg.XBR_CAP_REGION_REGION, 0, 1), (Reg.XBR_CAP_FEN_FEN, 0, 1), (Reg.XBR_CAP_BASE_LO, 0, 8 * 65536)] ++ l)
theorem wit_captureOn : zFen.admitsWrite acc 0x2400040 = true ∧ run (.captureEnable acc true 12) (zCap [(Reg.XBR_CAP_CTL_ENABLE, 0, 1)]) (fun t =>
      t == zCap [(Reg.XBR_CAP_CTL_ENABLE, 0, 1)]) = true ∧ run (.captureDisable acc true 12) (zCap [(Reg.XBR_CAP_CTL_ENABLE, 0, 1)]) (fun t =>
      !t.on Reg.XBR_CAP_CTL_ENABLE && t.rd Reg.XBR_CAP_CTL_LOG2 == (zCap []).rd Reg.XBR_CAP_CTL_LOG2) = true ∧
    run (.captureDisable acc true 31) (zCap []) (fun t => t.on Reg.XBR_CAP_CTL_MODE && t.rd Reg.XBR_CAP_CTL_LOG2 == 31) = true ∧
    run (.captureEnable acc true 9) (zCap []) (fun t => !t.on Reg.XBR_CAP_CTL_ENABLE && stIs Reg.XBR_CAP_STATUS_STATUS Reg.XBR_CAP_STATUS_DONE t stRANGE) = true ∧
    run (.captureEnable acc true 25) (zCap []) (fun t => stIs Reg.XBR_CAP_STATUS_STATUS Reg.XBR_CAP_STATUS_DONE t stRANGE) = true := by decide +kernel
def capE : Extent := { start := 8, state := exRESIDENT, length := 1, tier := tierNEAR, loc := nearLoc 0 0, fen := 1, region := 1, pin := true, capring := true }
theorem wit_capture : ∀ s, s = zCap [] → s.placeCheck 1 8 1 tierNEAR = stOK ∧ s.firstFit tierNEAR (2 ^ 64 - 1) 1 1 = some (nearLoc 0 0) ∧ s.freeExt = some 0 ∧
    s.fitsExtent 1 = true ∧ s.fitsRsv tierNEAR 1 1 true = true ∧ s.rd64 Reg.XBR_CAP_BASE_LO Reg.XBR_CAP_BASE_HI % 2 ^ 46 / 65536 = 8 ∧
    run (.captureEnable acc true 10) s (fun t => t.on Reg.XBR_CAP_CTL_ENABLE && t.xbr.capExt == some 0 && t.ext 0 == capE && t.ext 3 == s.ext 3 &&
      stIs Reg.XBR_CAP_STATUS_STATUS Reg.XBR_CAP_STATUS_DONE t stOK && frameB s t [.regs, .near, .flt, .pool, .xbr]) = true := by intro s h; subst h; decide +kernel

/-! Time, sleep and gates. -/

/-- Tabor time 1 µs, and a TIME packet of a type at the head of port 31's control queue, arrived at that time. -/
def zTimeOf (s : State) (type tseq : Nat) (payload : Bytes) : State :=
  ({ s with tabor := 1000 * 2 ^ 32 } : State).upPort 31 fun q =>
    { q with ctl := [(1000 * 2 ^ 32, { opcode := opTIME, arg := type + 256 * tseq, payload := payload })] }
/-- Port 31 is the servo's source, a REQ sent at 900 ns is unanswered, and the servo has accepted a sample. -/
def zSrc : State := ({ (withRegs zLink [(Reg.GATE_TT_CTL_SRC, 0, 2), (Reg.GATE_TT_CTL_SRC_PORT, 0, 31), (Reg.GATE_TT_CTL_STEP_EN, 0, 0)]) with
  shp := { ports := [(31, { lastReq := some { tseq := 5, t1 := 900 * 2 ^ 32, sent := 0 } })], lastSample := some 0 } } : State)
/-- A RSP's payload: T1, T2 = 940 ns, T3 = 960 ns, STEPS, VALID, SOURCE. -/
def rspOf (steps valid : Nat) : Bytes := stamp (900 * 2 ^ 32) ++ stamp (940 * 2 ^ 32) ++ stamp (960 * 2 ^ 32) ++ leBytes 1 steps ++ leBytes 1 valid ++ leBytes 2 9

theorem wit_timeReqSend : zSrc.knawenPort 31 = true ∧ zSrc.linkActive 31 = true ∧ zSrc.sendsReq 31 = true ∧ (zSrc.sp 31).reqAt = none ∧
    run (.timeReqSend 31) zSrc (fun t => t.out == [.frame 31 0 (timePacket 0 0 (stamp zSrc.tabor))] &&
      (t.sp 31).lastReq == some { tseq := 0, t1 := zSrc.tabor, sent := zSrc.hclk } && (t.sp 31).nextTseq == 1 &&
      frameB zSrc t [.regs, .meters, .out, .fab, .shp]) = true := by decide +kernel
theorem wit_timeReq : ((zTimeOf zLink 0 3 []).headTime 31 0).isSome = true ∧ (zTimeOf zLink 0 3 []).on Reg.FAB_PSTAT_SECURE 31 = true ∧
    run (.timeReq 31) (zTimeOf zLink 0 3 (stamp 7)) (fun t => (t.port 31).ctl == [] && (t.port 31).nextTx == 1 &&
      t.out == [.frame 31 0 (timePacket 1 3 (stamp 7 ++ stamp (1000 * 2 ^ 32) ++ stamp (1000 * 2 ^ 32) ++
        leBytes 1 (zLink.rd Reg.GATE_TT_STAT_STEPS) ++ leBytes 1 0 ++ leBytes 2 0xFFFF))] &&
      frameB (zTimeOf zLink 0 3 (stamp 7)) t [.regs, .meters, .out, .fab]) = true := by decide +kernel
/-- There and back 40 ns each: no offset, 40 ns of delay. -/
theorem wit_timeRsp : ((zTimeOf zSrc 1 5 (rspOf 3 1)).headTime 31 1).isSome = true ∧ (zSrc.sp 31).lastReq.isSome = true ∧
    zSrc.isSource 31 = true ∧ fld (rspOf 3 1) 37 1 = 1 ∧ fld (rspOf 3 1) 36 1 = 3 ∧
    run (.timeRsp 31) (zTimeOf zSrc 1 5 (rspOf 3 1)) (fun t => t.rd Reg.GATE_P_TOFF_NS 31 == 0 && t.rd Reg.GATE_P_TDELAY_NS 31 == 40 &&
      (t.sp 31).lastReq == none && (t.port 31).ctl == [] && t.rd Reg.GATE_TT_STAT_STEPS == 4 && t.rd Reg.GATE_TT_STAT_SOURCE == 9 &&
      bumped zSrc t Reg.GATE_TT_CNT_SAMPLE) = true := by decide +kernel
theorem wit_timeRspOther : ((zTimeOf zSrc 1 6 (rspOf 3 1)).headTime 31 1).isSome = true ∧
    run (.timeRsp 31) (zTimeOf zSrc 1 6 (rspOf 3 1)) (fun t => bumped zSrc t Reg.GATE_TT_CNT_REJECT && (t.port 31).ctl == [] &&
      frameB (zTimeOf zSrc 1 6 (rspOf 3 1)) t [.regs, .fab] &&
      regsB (zTimeOf zSrc 1 6 (rspOf 3 1)) t [Reg.GATE_TT_CNT_REJECT.key 0 0]) = true := by decide +kernel
theorem wit_timeRspTimeout : usToHclk 10 ≤ 12000 - 0 ∧ run (.timeRspTimeout 31) ({ zSrc with hclk := 12000 } : State) (fun t =>
    (t.sp 31).lastReq == none && bumped zSrc t Reg.GATE_TT_CNT_REJECT && frameB { zSrc with hclk := 12000 } t [.regs, .shp] &&
    regsB zSrc t [Reg.GATE_TT_CNT_REJECT.key 0 0]) = true := by decide +kernel

def zTT (st src hclk : Nat) : State := { (withRegs zSrc [(Reg.GATE_TT_STAT_STATE, 0, st), (Reg.GATE_TT_CTL_SRC, 0, src)]) with hclk := hclk, tabor := 5 * 2 ^ 62 }
theorem wit_servoHoldover : 8 * usToHclk (z0.rd Reg.GATE_TT_PERIOD_US) ≤ 2 ^ 40 ∧ run .servoHoldover (zTT ttLOCKED 2 (2 ^ 40)) (fun t =>
    t.rd Reg.GATE_TT_STAT_STATE == ttHOLDOVER && frameB (zTT ttLOCKED 2 (2 ^ 40)) t [.regs] &&
    regsB (zTT ttLOCKED 2 (2 ^ 40)) t [Reg.GATE_TT_STAT_STATE.key 0 0]) = true ∧
    run .servoHoldover (zTT ttACQUIRE 2 (2 ^ 40)) (fun t => t.rd Reg.GATE_TT_STAT_STATE == ttHOLDOVER) = true := by decide +kernel
/-- An offset of −16 ns after 1.2 ms: the integral rises. -/
theorem wit_hostSample : (zTT ttACQUIRE 1 1440000).admitsWrite acc 0x2800030 = true ∧ (zTT ttACQUIRE 1 1440000).on Reg.GATE_TT_CTL_STEP_EN = false ∧
    run (.hostSample acc 0xFFFFFFF0) (zTT ttACQUIRE 1 1440000) (fun t => decide (0 < t.shp.integ) && t.shp.lastSample == some 1440000 &&
      t.rd Reg.GATE_TT_OFFSET_NS == 0xFFFFFFF0 && bumped zSrc t Reg.GATE_TT_CNT_SAMPLE && frameB (zTT ttACQUIRE 1 1440000) t [.regs, .shp]) = true ∧
    run (.hostSample acc 5) (zTT ttACQUIRE 2 1440000) (fun t => t == zTT ttACQUIRE 2 1440000) = true := by decide +kernel
theorem wit_taborSet : zSrc.admitsWrite acc 0x2800038 = true ∧ run (.taborSet acc 3) (withRegs zSrc [(Reg.GATE_TT_SET_LO, 0, 9)]) (fun t =>
    t.tabor == (9 + 3 * 2 ^ 32) * 2 ^ 32 && bumped zSrc t Reg.GATE_TT_CNT_STEP &&
    frameB zSrc t [.regs, .tabor, .pool, .shp, .flt, .out, .host]) = true := by decide +kernel
theorem wit_taborRealign : run .taborRealign (zTT 2 2 77) (fun t => t.shp.realigned == 77 && frameB (zTT 2 2 77) t [.shp]) = true := by decide +kernel
theorem wit_ptmDialogue : zSrc.admitsWrite acc 0x280003C = true ∧ zSrc.shp.ptm = none ∧ run (.ptmDialogue acc) (zTT 2 1 77) (fun t =>
    t.shp.ptm == some 77 && t.rd64 Reg.GATE_TT_PTM_T1_LO Reg.GATE_TT_PTM_T1_HI == 5 * 2 ^ 30 && t.rd Reg.GATE_TT_PTM_CTL_GO == 1 &&
    t.out == [.message chPTM 0 []] && frameB (zTT 2 1 77) t [.regs, .shp, .out]) = true := by decide +kernel
/-- A PTM dialogue open since time 0. -/
def zPtm (hclk : Nat) : State := (withRegs (zTT 2 1 hclk) [(Reg.GATE_TT_PTM_CTL_GO, 0, 1)]).upShp fun b => { b with ptm := some 0 }
theorem wit_ptmResponse : run (.ptmResponse (2 ^ 40 + 3) 300) (zPtm 77) (fun t => t.shp.ptm == none &&
    t.rd64 Reg.GATE_TT_PTM_T4_LO Reg.GATE_TT_PTM_T4_HI == 5 * 2 ^ 30 && t.rd64 Reg.GATE_TT_PTM_MT_LO Reg.GATE_TT_PTM_MT_HI == 2 ^ 40 + 3 &&
    t.rd Reg.GATE_TT_PTM_PD_NS == 300 && t.rd Reg.GATE_TT_PTM_CTL_GO == 0 && t.rd Reg.GATE_TT_PTM_CTL_FAIL == 0 &&
    frameB (zPtm 77) t [.regs, .shp]) = true := by decide +kernel
theorem wit_ptmTimeout : usToHclk 10 ≤ 12000 ∧ run .ptmTimeout (zPtm 12000) (fun t => t.shp.ptm == none && t.rd Reg.GATE_TT_PTM_CTL_GO == 0 &&
    t.rd Reg.GATE_TT_PTM_CTL_FAIL == 1 && frameB (zPtm 12000) t [.regs, .shp]) = true := by decide +kernel
theorem wit_ppsOut : (withRegs (zTT 2 1 7) [(Reg.GATE_TT_CTL_PPS_OUT, 0, 1)]).on Reg.GATE_TT_CTL_PPS_OUT = true ∧ (zTT 2 1 7).tnow / 1000000000 ≠ 0 ∧
    run .ppsOut (withRegs (zTT 2 1 7) [(Reg.GATE_TT_CTL_PPS_OUT, 0, 1)]) (fun t => Tab.getD t.pins pinPPS_OUT 0 == 1 && t.shp.ppsLast == 5 &&
      t.shp.ppsFall == 1200007 && frameB (withRegs (zTT 2 1 7) [(Reg.GATE_TT_CTL_PPS_OUT, 0, 1)]) t [.shp, .pins, .out]) = true := by
  decide +kernel
theorem wit_ppsIn : zSrc.shp.ppsEdge = none ∧ run .ppsIn (zTT 2 1 7) (fun t => t.shp.ppsEdge == some 7 &&
    t.rd64 Reg.GATE_TT_PPS_IN_LO Reg.GATE_TT_PPS_IN_HI == 5 * 2 ^ 30 && frameB (zTT 2 1 7) t [.regs, .shp]) = true ∧
    (499999999 : Nat) < usToHclk 500000 ∧ run .ppsIn ((zTT 2 1 599999999).upShp fun b => { b with ppsEdge := some 0 }) (fun t =>
      bumped zSrc t Reg.FLT_CNT_INPUT && t.shp.ppsEdge == some 0) = true := by decide +kernel

/-- A locked servo and a near probe; SLEEPs are accepted on port 31. -/
def zNap (ps : ShpPort := {}) (pwr : Nat := pwrACTIVE) : State :=
  { (withRegs zLink [(Reg.GATE_TT_STAT_STATE, 0, ttLOCKED), (Reg.GATE_P_PWR_ACCEPT, 31, 1), (Reg.GATE_P_STAT_PWR, 31, pwr)]) with
    shp := { ports := [(31, { ps with probe := some (0, 0) })] } }
/-- A SLEEP from 5 µs to 90 µs in DOZE. -/
def napOf (mine : Bool) : Sleep := { enter := 5000, wake := 90000, state := pwrDOZE, mine := mine }
def zSleepMsg (type : Nat) (s : State) (e : Sleep := napOf false) : State := zTimeOf s type 2 (sleepBytes e)
theorem wit_sleep : ((zSleepMsg 2 zNap).headTime 31 2).isSome = true ∧ (zNap.sp 31).sleep = none ∧
    sleepOf { payload := sleepBytes (napOf false) } = napOf false ∧ (zSleepMsg 2 zNap).nakReason 31 (napOf false) = 0 ∧
    run (.sleep 31) (zSleepMsg 2 zNap) (fun t => (t.sp 31).sleep == some { napOf false with agreed := true } &&
      t.out == [.frame 31 0 (timePacket 3 2 (sleepBytes (napOf false)))] && frameB (zSleepMsg 2 zNap) t [.regs, .meters, .out, .fab, .shp]) = true := by
  decide +kernel
/-- One that ends before it begins is refused for reason 4. -/
theorem wit_sleepNaked : (zSleepMsg 2 zNap).nakReason 31 { napOf false with wake := 4000 } = 4 ∧
    run (.sleep 31) (zSleepMsg 2 zNap { napOf false with wake := 4000 }) (fun t => (t.sp 31).sleep == none && bumped zNap t Reg.GATE_P_CNT_NAK 31 &&
      t.out == [.frame 31 0 (timePacket 4 2 (sleepBytes { napOf false with wake := 4000 } ++ [4]))]) = true := by decide +kernel
def zOwn : State := zNap { sleep := some (napOf true) }
theorem wit_sleepAck : ((zSleepMsg 3 zOwn).headTime 31 3).isSome = true ∧ (napOf true).mine = true ∧ sameSleep (napOf true) (napOf false) = true ∧
    run (.sleepAck 31) (zSleepMsg 3 zOwn) (fun t => (t.sp 31).sleep == some { napOf true with agreed := true } && (t.port 31).ctl == [] &&
      frameB (zSleepMsg 3 zOwn) t [.fab, .shp]) = true := by decide +kernel
theorem wit_sleepNak : ((zSleepMsg 4 zOwn).headTime 31 4).isSome = true ∧ run (.sleepNak 31) (zSleepMsg 4 zOwn) (fun t => (t.sp 31).sleep == none &&
    bumped zOwn t Reg.GATE_P_CNT_NAK 31 && frameB (zSleepMsg 4 zOwn) t [.regs, .fab, .shp]) = true := by decide +kernel
def zAsk : State := withRegs zNap [(Reg.GATE_P_PWR_E_LO, 31, 5000), (Reg.GATE_P_PWR_W_LO, 31, 90000), (Reg.GATE_P_PWR_STATE, 31, pwrDOZE)]
theorem wit_sleepRequest : zAsk.knawenPort 31 = true ∧ zAsk.linkActive 31 = true ∧ zAsk.locked = true ∧ zAsk.on Reg.GATE_P_STAT_FAULT 31 = false ∧
    zAsk.admitsWrite acc (0x2810020 + 0x100 * 31) = true ∧ sleepValid zAsk.tabor (napOf false) = true ∧
    run (.sleepRequest acc 31) zAsk (fun t => (t.sp 31).sleep == some (napOf true) &&
      t.out == [.frame 31 0 (timePacket 2 0 (sleepBytes (napOf false)))] && frameB zAsk t [.regs, .meters, .out, .fab, .shp]) = true := by
  decide +kernel
/-- Native gating, AUTO DOZE, and a list whose quiet run lies 4 µs ahead. -/
def zAuto : State := { (withRegs (zNap { bank0 := { anchor := 0, entries := [(1, 4000), (0, 6000)] } }) [(Reg.GATE_P_PWR_AUTO, 31, pwrDOZE)]) with
  cfg := { zLink.cfg with ports := [(31, { role := 1, gateMode := 1 })] } }
theorem wit_sleepPropose : zAuto.rd Reg.GATE_P_PWR_AUTO 31 ≠ 0 ∧ (zAuto.portCfg 31).gateMode = 1 ∧
    (zAuto.activeList 31).nextQuiet (zAuto.tnow + 2001) = some (4000, 10000) ∧ (zAuto.sp 31).proposed = none ∧
    run (.sleepPropose 31 false) zAuto (fun t => (t.sp 31).proposed == some 4000 &&
      (t.sp 31).sleep == some { enter := 4000, wake := 10000, state := pwrDOZE, mine := true } &&
      frameB zAuto t [.regs, .meters, .out, .fab, .shp]) = true := by decide +kernel
def zAgreed (ns pwr : Nat) : State := { (zNap { sleep := some { napOf true with agreed := true } } pwr) with tabor := ns * 2 ^ 32 }
theorem wit_sleepEnter : run (.sleepEnter 31 false) (zAgreed 5000 pwrACTIVE) (fun t => t.rd Reg.GATE_P_STAT_PWR 31 == pwrDOZE &&
    bumped zNap t Reg.GATE_P_CNT_SLEEP 31 && frameB (zAgreed 5000 pwrACTIVE) t [.regs, .shp] &&
    regsB (zAgreed 5000 pwrACTIVE) t [Reg.GATE_P_STAT_PWR.key 31 0, Reg.GATE_P_CNT_SLEEP.key 31 0]) = true := by decide +kernel
theorem wit_wakeStart : run (.wakeStart 31) (zAgreed 89800 pwrDOZE) (fun t => t.rd Reg.GATE_P_STAT_PWR 31 == pwrWAKING &&
    frameB (zAgreed 89800 pwrDOZE) t [.regs] && regsB (zAgreed 89800 pwrDOZE) t [Reg.GATE_P_STAT_PWR.key 31 0]) = true ∧
    run (.wakeStart 31) (zAgreed 89799 pwrDOZE) (fun t => t == zAgreed 89799 pwrDOZE) = true ∧
    run (.wakeStart 31) (zAgreed 89800 pwrSLEEP) (fun t => t.rd Reg.GATE_P_STAT_PWR 31 == pwrWAKING) = true := by decide +kernel
theorem wit_wake : run (.wake 31) (zAgreed 90000 pwrWAKING) (fun t => t.rd Reg.GATE_P_STAT_PWR 31 == pwrACTIVE && (t.sp 31).sleep == none &&
    (t.sp 31).awaiting == some 90000 && t.out == [.frame 31 0 (linkPacket 0 0 [])] &&
    frameB (zAgreed 90000 pwrWAKING) t [.regs, .meters, .out, .fab, .shp]) = true := by decide +kernel
def zAwait : State := { (zNap { awaiting := some 90000 }) with tabor := 2 ^ 60 }
theorem wit_missedWake : (90000 + (zAwait.portCfg 31).guardNs + zAwait.rd Reg.GATE_P_TDELAY_NS 31) * 2 ^ 32 ≤ zAwait.tabor ∧
    run (.missedWake 31) zAwait (fun t => (t.sp 31).awaiting == none && t.rd Reg.FAB_PSTAT_RETRAIN 31 == 1 && t.rd Reg.FAB_PSTAT_UP 31 == 0 &&
      t.rd Reg.GATE_P_STAT_FAULT 31 == 1 && bumped zAwait t Reg.GATE_P_CNT_MISSED 31 &&
      frameB zAwait t [.regs, .shp, .flt, .out, .host]) = true := by decide +kernel

/-- Two entries of 4 µs and 6 µs, at 4 µs (the second begins) and at 10 µs (the first begins again). -/
def zGates (ns shown : Nat) : State := { (withRegs (zNap { bank0 := { anchor := 0, entries := [(1, 4000), (0, 6000)] }, resuming := true })
  [(Reg.GATE_P_STAT_ENTRY, 31, shown), (Reg.GATE_P_CYCLES, 31, 8)]) with tabor := ns * 2 ^ 32 }
theorem wit_gateEntryBoundary : (locate ((zGates 4000 0).activeList 31).entries 0 (((zGates 4000 0).activeList 31).pos (zGates 4000 0).tabor)).1 = 1 ∧
    run (.gateEntryBoundary 31) (zGates 4000 0) (fun t => t.rd Reg.GATE_P_STAT_ENTRY 31 == 1 && t.rd Reg.GATE_P_CYCLES 31 == 8 &&
      !(t.sp 31).resuming && frameB (zGates 4000 0) t [.regs, .shp]) = true ∧
    run (.gateEntryBoundary 31) (zGates 10000 1) (fun t => t.rd Reg.GATE_P_STAT_ENTRY 31 == 0 && t.rd Reg.GATE_P_CYCLES 31 == 9 &&
      regsB (zGates 10000 1) t [Reg.GATE_P_STAT_ENTRY.key 31 0, Reg.GATE_P_CYCLES.key 31 0]) = true := by decide +kernel
def zTakes (ns : Nat) : State := { (withRegs (zNap { bank1 := { anchor := 7, entries := [(3, 500)] }, takeover := some 7 })
  [(Reg.GATE_P_STAT_PENDING, 31, 1), (Reg.GATE_P_CYCLES, 31, 8)]) with tabor := ns * 2 ^ 32 }
theorem wit_gateTakeover : (zTakes 7).takeOverDue 31 = true ∧ (zTakes 6).takeOverDue 31 = false ∧
    run (.gateTakeover 31) (zTakes 7) (fun t => t.activeList 31 == { anchor := 7, entries := [(3, 500)] } && (t.sp 31).takeover == none &&
      t.rd Reg.GATE_P_STAT_PENDING 31 == 0 && t.rd Reg.GATE_P_STAT_ENTRY 31 == 0 && t.rd Reg.GATE_P_CYCLES 31 == 0 &&
      frameB (zTakes 7) t [.regs, .shp]) = true ∧
    run (.gateTakeover 31) (zTakes 6) (fun t => t == zTakes 6) = true := by decide +kernel
def zTf (st : Nat) : State := withRegs zNap [(Reg.GATE_TT_STAT_STATE, 0, st), (Reg.GATE_P_STAT_FAULT, 31, 1)]
theorem wit_timeFaultClear : (zTf ttLOCKED).admitsWrite acc (0x2810000 + 0x100 * 31) = true ∧ (zTf ttLOCKED).locked = true ∧
    (zTf ttHOLDOVER).locked = false ∧ run (.timeFaultClear acc 31) (zTf ttLOCKED) (fun t => t.rd Reg.GATE_P_STAT_FAULT 31 == 0 &&
      (t.sp 31).resuming && frameB (zTf ttLOCKED) t [.regs, .shp] && regsB (zTf ttLOCKED) t [Reg.GATE_P_STAT_FAULT.key 31 0]) = true ∧
    run (.timeFaultClear acc 31) (zTf ttHOLDOVER) (fun t => t == zTf ttHOLDOVER) = true := by decide +kernel
def zPol (clid : Nat) : State := { (withRegs z0 [(Reg.SHP_POL_INDEX_CLID, 0, clid), (Reg.SHP_POL_INDEX_CLASS, 0, 3)]) with
  cfg := { police := [(2, { clid := 2, endpoint := 7, port := 31, fen := 1, rates := [0, 0, 0, 77], bursts := [0, 0, 0, 9000], valid := true })] }
  shp := { buckets := [(11, { tokens := 65536, pass := 5, dropped := 6 })] } }
theorem wit_shpPolRead : (zPol 2).admitsWrite acc 0x2820004 = true ∧ run (.shpPolRead acc) (zPol 2) (fun t =>
    stIs Reg.SHP_POL_STATUS_STATUS Reg.SHP_POL_STATUS_DONE t stOK && t.rd Reg.SHP_POL_RATE_MBPS == 77 && t.rd Reg.SHP_POL_PASS == 5 &&
    t.rd Reg.SHP_POL_DROP == 6 && frameB (zPol 2) t [.regs]) = true ∧
    run (.shpPolRead acc) (zPol 3) (fun t => stIs Reg.SHP_POL_STATUS_STATUS Reg.SHP_POL_STATUS_DONE t stKEY_DENIED && frameB (zPol 3) t [.regs]) = true := by
  decide +kernel

/-! The coherent domain. -/

/-- Copies of lines 7 and 8: agent 0 modified, agents 1 and 2 shared, in turn; the control SRAM's bytes 5 and 6 at line 7. -/
def zCoh (copies : List (Nat × Nat)) (txns : List (Nat × CohTxn) := []) : State :=
  { z0 with coh := { copies := (copies.foldl (fun t e => Tab.put t (cohKey 7 e.1) e.2) []) ++ [(cohKey 8 3, cohM)], txns := txns
                     sram := [(7 * 128 + 2, 5), (7 * 128 + 3, 6)] } }
def zShared : State := zCoh [(0, cohM), (1, cohS), (2, cohS)]
/-- The copies of line 7 and the one of line 8. -/
def copiesAre (t : State) (l : List Nat) : Bool := (List.range 10).map (t.copyAt 7) == l && t.copyAt 8 3 == cohM
theorem wit_cohRequests : zShared.mayIssue 7 4 = true ∧ zShared.mayIssue 7 1 = true ∧ zShared.mayIssue 7 9 = true ∧
    Tab.find? zShared.coh.busy 7 = none ∧ Tab.find? zShared.coh.credits 7 = none ∧ zShared.copyAt 7 4 = cohI ∧
    run (.rdS 4 7) zShared (fun t => (t.txn 7 4).any (fun x => x.req == .rdS && !x.retried && x.wbFrom == some 0) &&
      Tab.find? t.coh.busy 7 == some 4 && copiesAre t [cohS, cohS, cohS, 0, 0, 0, 0, 0, 0, 0] && frameB zShared t [.coh]) = true ∧
    run (.rdX 1 7) zShared (fun t => (t.txn 7 1).any (fun x => x.req == .rdX) && Tab.find? t.coh.busy 7 == some 1 &&
      copiesAre t [0, cohS, 0, 0, 0, 0, 0, 0, 0, 0] && frameB zShared t [.coh]) = true ∧
    run (.upg 1 7) zShared (fun t => (t.txn 7 1).any (fun x => x.req == .upg) && copiesAre t [0, cohS, 0, 0, 0, 0, 0, 0, 0, 0] &&
      frameB zShared t [.coh]) = true ∧
    run (.rdNa 9 7) zShared (fun t => (t.txn 7 9).any (fun x => x.req == .rdNa) && copiesAre t [cohE, cohS, cohS, 0, 0, 0, 0, 0, 0, 0] &&
      frameB zShared t [.coh]) = true ∧
    run (.wrNa 9 7 5 [1, 2, 3]) zShared (fun t => (t.txn 7 9).any (fun x => x.req == .wrNa && x.mask == 5) &&
      copiesAre t [0, 0, 0, 0, 0, 0, 0, 0, 0, 0] && frameB zShared t [.coh]) = true := by decide +kernel
def zBusy : State := zShared.upCoh fun c => { c with busy := [(7, 1)] }
theorem wit_cohRetry : zBusy.mayIssue 7 9 = true ∧ Tab.find? zBusy.coh.busy 7 = some 1 ∧ run (.rdNa 9 7) zBusy (fun t =>
    (t.txn 7 9).any (fun x => x.retried) && t.coh.copies == zBusy.coh.copies && t.coh.busy == zBusy.coh.busy &&
    Tab.getD t.coh.credits 7 [] == [9] && bumped zBusy t Reg.COH_CNT_RETRY && frameB zBusy t [.regs, .coh] &&
    regsB zBusy t [Reg.COH_CNT_RETRY.key 0 0]) = true := by decide +kernel

/-- One request of agent 4 on line 7. -/
def zTxn (x : CohTxn) (copies : List (Nat × Nat) := []) : State := (zCoh copies [(cohKey 7 4, x)]).upCoh fun c => { c with busy := [(7, 4)] }
theorem wit_snoopResponse : (zTxn {}).txn 7 4 = some {} ∧ run (.snoopResponse 4 7 0 0) (zTxn {}) (fun t =>
    t.txn 7 4 == some { answered := true } && frameB (zTxn {}) t [.coh]) = true := by decide +kernel
theorem wit_cohData : CohTxn.ready { answered := true } = true ∧
    run (.data 4 7) (zTxn { answered := true }) (fun t => t.copyAt 7 4 == cohE && t.txn 7 4 == none && Tab.find? t.coh.busy 7 == none &&
      t.coh.sram == zShared.coh.sram && bumped z0 t Reg.COH_CNT_TXN && frameB (zTxn { answered := true }) t [.regs, .coh]) = true ∧
    run (.data 4 7) (zTxn { answered := true, shared := true }) (fun t => t.copyAt 7 4 == cohS) = true ∧
    run (.data 4 7) (zTxn { req := .rdX, answered := true }) (fun t => t.copyAt 7 4 == cohM && t.txn 7 4 == none) = true ∧
    run (.data 4 7) (zTxn { req := .rdNa, answered := true }) (fun t => Tab.find? t.coh.reads 4 == some (zShared.sramLine 7) &&
      t.copyAt 7 4 == cohI && t.txn 7 4 == none) = true ∧
    run (.data 4 7) (zTxn {}) (fun t => t.txn 7 4 == some { value := some (zShared.sramLine 7) } && frameB (zTxn {}) t [.coh]) = true := by
  decide +kernel
theorem wit_cohDone : Memory.wf zShared.coh.sram = true ∧
    run (.done 4 7) (zTxn { req := .upg, answered := true } [(4, cohS)]) (fun t => t.copyAt 7 4 == cohM && t.txn 7 4 == none &&
      t.coh.sram == zShared.coh.sram) = true ∧
    run (.done 4 7) (zTxn { req := .wrNa, mask := 5, data := [1, 2, 3], answered := true }) (fun t => t.txn 7 4 == none &&
      t.coh.sram == [(7 * 128, 1), (7 * 128 + 2, 3), (7 * 128 + 3, 6)] && frameB (zTxn { req := .wrNa, mask := 5, data := [1, 2, 3], answered := true }) t [.regs, .coh]) = true := by
  decide +kernel
def zReissue : State := (zTxn { req := .rdNa, retried := true, answered := true }).upCoh fun c => { c with busy := [], credits := [(7, [4])] }
theorem wit_cohReissue : Tab.find? zReissue.coh.busy 7 = none ∧ Tab.getD zReissue.coh.credits 7 [] = [4] ∧
    run (.cohReissue 4 7) zReissue (fun t => (t.txn 7 4).any (fun y => !y.retried && !y.answered) && Tab.find? t.coh.busy 7 == some 4 &&
      Tab.getD t.coh.credits 7 [] == [] && frameB zReissue t [.coh]) = true := by decide +kernel
theorem wit_wb : run (.wb 2 7 [9]) (zTxn { wbFrom := some 2 }) (fun t => t.txn 7 4 == some {} && t.coh.sram == [(7 * 128, 9)] &&
    bumped z0 t Reg.COH_CNT_WB && frameB (zTxn { wbFrom := some 2 }) t [.regs, .coh]) = true ∧
    (zTxn {}).copyAt 8 3 = cohM ∧ run (.wb 3 8 [9]) (zTxn {}) (fun t => t.copyAt 8 3 == cohI && t.coh.txns == (zTxn {}).coh.txns &&
      frameB (zTxn {}) t [.regs, .coh]) = true := by decide +kernel
theorem wit_cohLineRead : z0.admitsWrite acc 0x3000044 = true ∧ run (.cohLineRead acc) (withRegs zShared [(Reg.COH_LINE_ADDR_LINE, 0, 7)]) (fun t =>
    t.rd Reg.COH_LINE_STATE_STATE == cohM + 4 * cohS + 16 * cohS && regsB (withRegs zShared [(Reg.COH_LINE_ADDR_LINE, 0, 7)]) t [Reg.COH_LINE_STATE_STATE.key 0 0]) = true := by
  decide +kernel

theorem wit_lanes : Tab.getD (z0.score clsRING 9).rems 1 0 = 0 ∧ run (.ringLaneRepair 9) z0 (fun t =>
    (t.score clsRING 9).s == 512 * 256 && frameB z0 t recordParts && regsB z0 t scoreKeys) = true ∧
    run (.d2dLaneRepair 10) z0 (fun t => bit (t.rd Reg.GLB_D2D_REPAIRED) 10 && frameB z0 t recordParts) = true := by decide +kernel
/-- The domain is down with a cause at a position. -/
def downBy (t : State) (cause agent : Nat) : Bool :=
  t.rd Reg.FLT_FATAL_CAUSE == 1 && t.rd Reg.COH_FATAL_CAUSE == cause && t.rd Reg.COH_FATAL_AGENT == agent && t.rd Reg.COH_STAT_DOWN == 1
def zAlive : State := withRegs z0 [(Reg.COH_STAT_ALIVE, 0, 0x3FF)]
theorem wit_domainLost : z0.fatal = false ∧ z0.red.insts = [] ∧ bit (zAlive.rd Reg.COH_STAT_ALIVE) 9 = true ∧
    run (.d2dLinkFail 10) z0 (fun t => downBy t 4 4 && frameB z0 t recordParts) = true ∧ run (.d2dLinkFail 2) z0 (fun t => downBy t 4 0) = true ∧
    run (.ringFlitUe 9) z0 (fun t => downBy t 1 9 && frameB z0 t recordParts) = true ∧
    run (.agentHeartbeatMiss 9) zAlive (fun t => downBy t 2 9 && t.rd Reg.COH_STAT_ALIVE == 0x1FF && frameB zAlive t recordParts) = true := by
  decide +kernel
theorem wit_cohTxnTimeout : usToHclk 16 ≤ 19200 ∧ run (.cohTxnTimeout 4 7) ({ zTxn {} with hclk := 19200 } : State) (fun t => downBy t 3 4) = true ∧
    run (.cohTxnTimeout 4 7) ({ zTxn {} with hclk := 19199 } : State) (fun t => t == { zTxn {} with hclk := 19199 }) = true := by decide +kernel
theorem wit_arbBite : run (.arbBite 1 63 11 4 0 (.regOp 0x400008)) z0 (fun t => t.rd Reg.ARB_WD_LAST_RESOURCE == 1 &&
    t.rd Reg.ARB_WD_LAST_INSTANCE == 63 && t.rd Reg.ARB_WD_LAST_DIE == 11 && t.rd Reg.ARB_WD_LAST_OWNER == 4 &&
    stIs Reg.EXT_STATUS_STATUS Reg.EXT_STATUS_DONE t stTIMEOUT && bumped z0 t Reg.ARB_CNT_WD && frameB z0 t recordParts) = true := by
  decide +kernel

/-! Semaphores. -/

/-- Semaphore 40's owner and the waits. -/
def zSem (owner : Nat) (waits : List SemWait := []) (hclk : Nat := 0) : State :=
  (withRegs { z0 with hclk := hclk } [(Reg.CAR_SEM_OWNER, 40, owner), (Reg.CAR_SEM_WAITERS, 40, min 1 waits.length)]).upCar fun c =>
    { c with waits := waits, held := [(40, (0, 0))] }
def w2 : SemWait := { req := 2, sem := 40, start := 5 }
theorem wit_semAcquire : z0.admitsRead acc (semAt 63) = true ∧ semReserved 63 acc.req.num = false ∧
    run (.semAcquire acc 63) z0 (fun t => t.semOwner 63 == 1 && Tab.find? t.car.held 63 == some (0, 0) &&
      t.out == [.readData .cp0 (semAt 63) 3] && frameB z0 t [.regs, .car, .out] && regsB z0 t [Reg.CAR_SEM_OWNER.key 63 0]) = true ∧
    run (.semAcquire acc 40) (zSem 2) (fun t => frameB (zSem 2) t [.out] && t.out == [.readData .cp0 (semAt 40) 4]) = true := by decide +kernel
theorem wit_semRelease : (zSem 1).admitsWrite acc (semAt 40) = true ∧ (zSem 1 [w2]).semQueue 40 = [w2] ∧
    run (.semRelease acc 40) (zSem 1) (fun t => t.semOwner 40 == 0 && Tab.find? t.car.held 40 == none &&
      regsB (zSem 1) t [Reg.CAR_SEM_OWNER.key 40 0]) = true ∧
    run (.semRelease acc 40) (zSem 1 [w2]) (fun t => t.semOwner 40 == 2 && t.car.waits == [] &&
      Tab.find? t.car.waitStat 2 == some { pending := false, status := stOK, sem := 40 } && frameB (zSem 1 [w2]) t [.regs, .car, .out]) = true ∧
    run (.semRelease acc 40) (zSem 2) (fun t => t.semOwner 40 == 2 && bumped (zSem 2) t Reg.CAR_CNT_SEM_DENY && frameB (zSem 2) t [.regs]) = true := by
  decide +kernel
theorem wit_semWait : z0.admitsWrite acc 0x20500 = true ∧
    run (.semWait acc 40) (zSem 2 [{ w2 with req := 1 }]) (fun t => t == zSem 2 [{ w2 with req := 1 }]) = true ∧
    run (.semWait acc 40) (zSem 5 [w2] 9) (fun t => t.semQueue 40 == [w2, { req := 1, sem := 40, start := 9 }] &&
      Tab.find? t.car.waitStat 1 == some { pending := true, status := 0, sem := 40 } && t.rd Reg.CAR_SEM_WAITERS 40 == 1 &&
      frameB (zSem 5 [w2] 9) t [.regs, .car]) = true ∧
    run (.semWait acc 40) (zSem 0) (fun t => t.semOwner 40 == 1 && Tab.find? t.car.waitStat 1 == some { pending := false, status := stOK, sem := 40 }) = true := by
  decide +kernel
theorem wit_semTimeout : w2.start + usToHclk (z0.rd Reg.CAR_SEM_TIMEOUT_US) ≤ 2 ^ 40 ∧
    run (.semTimeout 2) (zSem 5 [w2] (2 ^ 40)) (fun t => t.car.waits == [] && bumped z0 t Reg.CAR_CNT_SEM_TO &&
      Tab.find? t.car.waitStat 2 == some { pending := false, status := stSEM_TIMEOUT, sem := 40 } && t.rd Reg.CAR_SEM_WAITERS 40 == 0) = true := by
  decide +kernel
theorem wit_semForced : (zSem 5 [] (2 ^ 45)).rd Reg.CAR_SEM_HOLD_MAX_MS * 1200000 ≤ (zSem 5 [] (2 ^ 45)).semHeld 40 ∧
    run (.semForced 40) (zSem 5 [] (2 ^ 45)) (fun t => t.semOwner 40 == 0 && Tab.find? t.car.held 40 == none &&
      frameB (zSem 5 [] (2 ^ 45)) t [.regs, .car, .flt, .out, .host]) = true := by decide +kernel

/-! The pairs, firmware's confirmation and the log. -/

/-- Both pairs run, and one session is open. -/
def zPairs (mismatch : Option Nat := none) (hclk : Nat := 100) : State :=
  { (withRegs { z0 with hclk := hclk } [(Reg.CAR_STAT_CP0, 0, cpRUNNING), (Reg.CAR_STAT_CP1, 0, cpRUNNING)]) with
    sec := { z0.sec with sessions := [(1, {})] }
    car := { z0.car with pair0 := { mismatch := mismatch, crc := 5 }, fw := { z0.car.fw with running := some { svn := 9, raise := true } } } }
theorem wit_lockstep : zPairs.cp 0 = cpRUNNING ∧ zPairs.rolePair 0 = 0 ∧
    run (.lockstep 0) zPairs (fun t => t.cp 0 == cpBOOTING && (t.carPair 0).mismatch == some 100 && t.sec.sessions == [] &&
      frameB zPairs t [.regs, .flt, .out, .host, .car, .img, .sec]) = true ∧
    run (.lockstep 1) zPairs (fun t => t.cp 1 == cpBOOTING && frameB zPairs t [.regs, .flt, .out, .host, .car]) = true ∧
    run (.lockstep 0) (zPairs (some 50)) (fun t => t.cp 0 == cpLOST && t.rd Reg.CAR_STAT_MERGED == 1) = true := by decide +kernel
theorem wit_pairRestart : (zPairs.wr Reg.CAR_STAT_CP0 cpBOOTING).cp 0 = cpBOOTING ∧
    run (.pairRestart 0) (zPairs.wr Reg.CAR_STAT_CP0 cpBOOTING) (fun t => t.cp 0 == cpRUNNING &&
      t.carPair 0 == { zPairs.carPair 0 with kicked := 100, resetAt := 100, haltedAt := none, crc := 0xFFFFFFFF } &&
      t.carPair 1 == zPairs.carPair 1 && frameB zPairs t [.regs, .car]) = true := by decide +kernel
theorem wit_carWatchdog : zPairs.pairHalted 0 = false ∧ (zPairs.carPair 0).kicked + zPairs.rd Reg.CAR_WDT_MS * 1200000 ≤ 2 ^ 40 ∧
    run (.carWatchdog 0) (zPairs none (2 ^ 40)) (fun t => t.cp 0 == cpBOOTING && (t.carPair 0).mismatch == none &&
      frameB (zPairs none (2 ^ 40)) t [.regs, .flt, .out, .host, .car, .img, .sec]) = true ∧
    run (.carLwdtKick 1) zPairs (fun t => t.carPair 1 == { zPairs.carPair 1 with kicked := 100 } && t.carPair 0 == zPairs.carPair 0 &&
      frameB zPairs t [.car]) = true := by decide +kernel
/-- Both pairs have an access fault; an image is in validation. -/
def zAf : State := { zPairs with flt := { zPairs.flt with accessFaults := [0, 1] }, img := { zPairs.img with validating := some {} } }
theorem wit_accessFaultRetry : zAf.flt.accessFaults.contains 1 = true ∧ zAf.pairHalted 1 = false ∧
    run (.accessFaultRetry 1 false none) zAf (fun t => t.flt.accessFaults == [0] && frameB zAf t [.flt]) = true ∧
    run (.accessFaultRetry 1 true none) zAf (fun t => t.img.validating == none && t.rd Reg.FEN_IMG_STATUS_RESULT == imgBusy &&
      t.rd Reg.FEN_IMG_STATUS_DONE == 1 && frameB zAf t [.regs, .flt, .img, .out, .sec]) = true := by decide +kernel
def zTrial : State := (zPairs none (2 ^ 40)).wr Reg.CAR_STAT_TRIAL 1
theorem wit_fwConfirm : zTrial.on Reg.CAR_STAT_TRIAL = true ∧ zTrial.roleRuns 0 = true ∧ zTrial.roleRuns 1 = true ∧
    zTrial.on Reg.CAR_STAT_MERGED = false ∧ zTrial.car.fw.calmSince + 60 * 1200000000 ≤ zTrial.hclk ∧ zTrial.car.fw.active = zTrial.rd Reg.CAR_STAT_SLOT ∧
    run .fwConfirm zTrial (fun t => t.rd Reg.CAR_STAT_TRIAL == 0 && t.rd Reg.SEC_LIFE_FW_SVN == 9 &&
      t.car.fw == { zTrial.car.fw with trial := false, tries := 0 } && frameB zTrial t [.regs, .car, .flt, .out, .host]) = true := by decide +kernel
/-- One record in the ring that flash does not hold. -/
def zLog : State := { zPairs with flt := { zPairs.flt with log := [{ code := 3, eseq := 0 }], nextEseq := 1 } }
theorem wit_logPersist : zLog.roleRuns 0 = true ∧ zLog.unpersistedCount = zLog.unpersisted.length ∧
    run .logPersist zLog (fun t => t.flt.flashLog == [{ code := 3, eseq := 0 }] && t.flt.persisted == 1 && t.flt.log == zLog.flt.log &&
      frameB zLog t [.flt, .car]) = true := by decide +kernel
/-- The rule's worked example on pair 1, from a state that is not its initial one. -/
theorem wit_crc : ((zPairs.upPair 1 fun q => { q with crc := 77 }).after
      [.crcInit 1, .carCrcW 1 0x34333231, .carCrcW 1 0x38373635, .carCrcB 1 0x39, .carCrcResult 1]).any
    (fun t => t.out == [.readData .cp1 0x10001010 0xE3069283]) = true ∧
    (zPairs.after [.crcInit 0, .carCrcH 0 0x3231, .carCrcH 0 0x3433, .carCrcW 0 0x38373635, .carCrcB 0 0x39, .carCrcResult 0]).any
    (fun t => t.out == [.readData .cp0 0x10000010 0xE3069283]) = true := by decide +kernel

/-! The debug port. -/

def zDbg (level : Nat) : State := withRegs zPairs [(Reg.DBG_LEVEL_LEVEL, 0, level)]
theorem wit_debugAlways : zPairs.car.powered = true ∧ run .idcode zPairs (fun t => t.out == [.tdo (zPairs.rd Reg.DBG_IDCODE_VALUE)]) = true ∧
    run .bypass zPairs (fun t => t.out == [.tdo 0] && frameB zPairs t [.out]) = true := by decide +kernel
theorem wit_debugFull : (zDbg dbgFULL).atFull = true ∧ (zDbg dbgFULL).atInspect = true ∧
    run (.samplePreload [1, 2]) (zDbg dbgFULL) (fun t => t.car.boundary == [1, 2] && t.nextFree == (zDbg dbgFULL).nextFree + 1 &&
      frameB (zDbg dbgFULL) t [.car, .out, .nextFree]) = true ∧
    run (.extest [3]) (zDbg dbgFULL) (fun t => t.car.boundary == [3]) = true ∧
    run (.dmi 2 4 77) (zDbg dbgFULL) (fun t => t.dm 4 == 77 && t.out == [.tdo (4 * 2 ^ 34)] && frameB (zDbg dbgFULL) t [.car, .out]) = true ∧
    run (.dtmcs (2 ^ 17)) ((zDbg dbgFULL).upCar fun c => { c with dm := [(4, 9)] }) (fun t => t.car.dm == []) = true ∧
    run (.dmi 1 4 0) ((zDbg dbgFULL).upCar fun c => { c with dm := [(4, 9)] }) (fun t => t.out == [.tdo (4 * 2 ^ 34 + 36)]) = true := by decide +kernel
theorem wit_debugDenied : (zDbg dbgINSPECT).atFull = false ∧ run (.dmi 1 4 0) (zDbg dbgINSPECT) (fun t => t.out == [.tdo 0] &&
    bumped (zDbg dbgINSPECT) t Reg.DBG_CNT_DENY && frameB (zDbg dbgINSPECT) t [.regs, .out] &&
    regsB (zDbg dbgINSPECT) t [Reg.DBG_CNT_DENY.key 0 0]) = true ∧
    run (.extest []) (zDbg dbgINSPECT) (fun t => t.out == [.tdo 0]) = true := by decide +kernel
/-- The inspect view at a word: `DBG_IDCODE` itself is no register, so `CAR_STAT` (0x2_0000) serves, and an odd offset. -/
def zView (off : Nat) : State := (zDbg dbgINSPECT).upCar fun c => { c with ivAddr := off }
theorem wit_inspect : ((zView 0x20000).inspect 0x20000).isSome = true ∧ run (.ivAddr 0x20000) (zDbg dbgINSPECT) (fun t =>
      t.car == { (zDbg dbgINSPECT).car with ivAddr := 0x20000, ivStat := 0 }) = true ∧
    run .ivData (zView 0x20000) (fun t => some t.car.ivData == (zView 0x20000).inspect 0x20000 && t.car.ivStat == 1 &&
      t.out == [.tdo t.car.ivData] && frameB (zView 0x20000) t [.regs, .car, .out] && regsB (zView 0x20000) t [Reg.DBG_CNT_IV.key 0 0]) = true ∧
    run .ivData (zView 0x20002) (fun t => t.car.ivStat == 2 && frameB (zView 0x20002) t [.car, .out]) = true ∧
    run .ivStat ((zDbg dbgINSPECT).upCar fun c => { c with ivStat := 2 }) (fun t => t.out == [.tdo 2]) = true := by decide +kernel
theorem wit_inspectSilent : (zView 0x20002).car.powered = true ∧ (zView 0x20002).atInspect = true ∧ run .ivData (zView 0x20002) (fun t =>
    t.out == [.tdo 0] && frameB (zView 0x20002) t [.regs, .car, .out] && regsB (zView 0x20002) t [Reg.DBG_CNT_IV.key 0 0]) = true := by decide +kernel

/-! The mailbox and MCTP. -/

/-- A command whose body is two 16-bit values. -/
def mReq (cmd len a b : Nat) : MbxReq := { cmd := cmd, tag := 3, len := len, body := leBytes 2 a ++ leBytes 2 b }
/-- The one message that left is an MCTP response of a status, offset and body length. -/
def mctpIs (t : State) (r : MbxReq) (st off n : Nat) : Bool :=
  t.car.requests == [] && match t.out with
    | [.message c ty b] => c == chMCTP && ty == 0x7E && b.length == 16 + n && b.take 12 == leBytes 2 r.cmd ++ leBytes 2 3 ++ leBytes 4 n ++ leBytes 2 st ++ leBytes 2 off
    | _ => false
theorem wit_mailbox : zPairs.roleRuns 0 = true ∧ zPairs.car.requests = [] ∧
    run (.getInfo (some (mReq mbGET_INFO 0 0 0))) zPairs (fun t => frameB zPairs t [.out, .car] && t.car.requests == []) = true ∧
    run (.sensorRead (some (mReq mbSENSOR_READ 4 95 2))) zPairs (fun t => mctpIs t (mReq mbSENSOR_READ 4 95 2) stOK 0 8) = true ∧
    run (.sensorRead (some (mReq mbSENSOR_READ 4 143 1))) zPairs (fun t => mctpIs t (mReq mbSENSOR_READ 4 143 1) stOK 0 4) = true ∧
    run (.sensorRead (some (mReq mbSENSOR_READ 4 144 0))) zPairs (fun t => mctpIs t (mReq mbSENSOR_READ 4 144 0) stMALFORMED 8 0) = true ∧
    run (.powerRead (some (mReq mbPOWER_READ 0 0 0))) zPairs (fun t => mctpIs t (mReq mbPOWER_READ 0 0 0) stOK 0 92) = true ∧
    run (.powerCapSet (some (mReq mbPOWER_CAP_SET 4 800 1))) zPairs (fun t => t.rd Reg.CAR_PCAP_BMC_W == 800 && t.rd Reg.CAR_PCAP_BMC_WINDOW == 1 &&
      t.rd Reg.CAR_PCAP_HOST_W == zPairs.rd Reg.CAR_PCAP_HOST_W && t.rd Reg.CAR_PCAP_EFF_W == 800 &&
      frameB zPairs t [.regs, .car, .flt, .out, .host]) = true ∧
    run (.powerCapSet (some (mReq mbPOWER_CAP_SET 4 799 1))) zPairs (fun t => mctpIs t (mReq mbPOWER_CAP_SET 4 799 1) stRANGE 0 0) = true ∧
    run (.logRead (some { cmd := mbLOG_READ, tag := 3, len := 10, body := leBytes 8 0 ++ leBytes 2 63 })) zPairs (fun t =>
      mctpIs t (mReq mbLOG_READ 10 0 0) stOK 0 16) = true ∧
    run (.fwStatus (some (mReq mbFW_STATUS 0 0 0))) zPairs (fun t => mctpIs t (mReq mbFW_STATUS 0 0 0) stOK 0 16) = true := by decide +kernel
/-- A request that the host's mailbox holds.  (That its response fills the buffer is left to the statement: 1,024 words.) -/
theorem wit_mailboxHost : ({ zPairs with car := { zPairs.car with requests := [(0, mReq mbGET_INFO 0 0 0)] } } : State).roleRuns 0 = true ∧
    (mReq mbGET_INFO 0 0 0).cmd = mbGET_INFO ∧ (mReq mbGET_INFO 0 0 0).len = 0 := by decide +kernel
/-- The message of an endpoint's reply. -/
def mctpBody (t : State) (ty : Nat) (b : Bytes) : Bool := t.out == [.message chMCTP ty b]
theorem wit_mctp : run (.setEndpointId 254) zPairs (fun t => t.car == { zPairs.car with eid := 254 } && frameB zPairs t [.car, .sec, .out]) = true ∧
    run (.setEndpointId 255) zPairs (fun t => t.car == zPairs.car && frameB zPairs t [.sec, .out]) = true ∧
    run .getEndpointId zPairs (fun t => mctpBody t 0 [mcGET_EID, 0, zPairs.car.eid]) = true ∧
    run (.getMctpVersionSupport 1) zPairs (fun t => frameB zPairs t [.sec, .out] && t.out.length == 1) = true ∧
    run .getMessageTypeSupport zPairs (fun t => mctpBody t 0 [mcGET_TYPES, 0, 5, 0x00, 0x01, 0x05, 0x06, 0x7E]) = true ∧
    run (.getVendorDefinedMessageSupport 0) zPairs (fun t => frameB zPairs t [.sec, .out]) = true ∧
    run (.getPdr 1) zPairs (fun t => frameB zPairs t [.out] && t.out.length == 1) = true ∧
    run (.getSensorReading 96) (zPairs.wr Reg.CAR_TEMP_VALUE 0x321 95) (fun t => mctpBody t 1 [0x11, 0, 0x21, 3, 0, 0]) = true ∧
    run (.getSensorReading 148) (zPairs.wr Reg.CAR_VMON_MV 800 47) (fun t => mctpBody t 1 [0x11, 0, 0x20, 3, 0, 0]) = true := by decide +kernel

/-! The plant. -/

theorem wit_sensorGood : z0.car.heldInReset = false ∧ z0.car.temps = [] ∧ (-640 : Int) < 16 * (z0.rd Reg.CAR_THR_T_TRIP : Int) ∧
    z0.on Reg.CAR_TEMP_FAILED 0 = false ∧ run (.sensorSample { temps := [-640] }) z0 (fun t => t.rd Reg.CAR_TEMP_VALUE 0 == 2 ^ 16 - 640 &&
      t.rd Reg.CAR_TEMP_REJECTED 0 == 0 && frameB z0 t [.regs, .car, .flt, .out, .host]) = true ∧
    run (.sensorSample { temps := [2401] }) z0 (fun t => t.rd Reg.CAR_TEMP_VALUE 0 == z0.rd Reg.CAR_TEMP_VALUE 0 &&
      t.rd Reg.CAR_TEMP_REJECTED 0 == 1) = true := by decide +kernel
def zTripped : State := { z0 with hclk := 1200005, near := [(3, 4)], car := { z0.car with trippedAt := some 5 } }
theorem wit_tripResetHold : 5 + 1200000 ≤ zTripped.hclk ∧ run .tripResetHold (withRegs zTripped [(Reg.FAB_PSTAT_UP, 31, 1)]) (fun t =>
    t.car.heldInReset && t.rd Reg.FAB_PSTAT_UP 31 == 0 && t.near == zTripped.near && t.tray == zTripped.tray) = true := by decide +kernel
def zThermalStage : State := { z0 with hclk := 12000007, car := { z0.car with stages := [(7, 3)], coolSince := [(4 * 7 + 3, 7)] } }
theorem wit_thermalStageExit : 7 + 10 * 1200000 ≤ zThermalStage.hclk ∧ run (.thermalStageExit 7) zThermalStage (fun t => Tab.getD t.car.stages 7 0 == 2 &&
    bits (t.rd Reg.CAR_STAGE_STAGE) 14 2 == 2 && frameB zThermalStage t [.regs, .car, .flt, .out, .host]) = true := by decide +kernel
theorem wit_vrHot : z0.on Reg.CAR_STAGE_VR_HOT = false ∧ z0.car.stages = [] ∧ run (.vrHot true) z0 (fun t => t.on Reg.CAR_STAGE_VR_HOT &&
    t.rd Reg.CAR_STAGE_STAGE == 0xAAAA && frameB z0 t [.regs, .flt, .out, .host]) = true := by decide +kernel
/-- Regulator 3 draws the most, by much or by little. -/
def zPow (mw : Nat) : State := zPairs.upCar fun c => { c with regs := [(3, { mw := mw }), (4, { mw := 5 }), (5, { unreadable := true })] }
theorem wit_powerLoop : (zPow 9000000).roleRuns 1 = true ∧ (zPow 9000000).rd Reg.CAR_PCAP_EFF_W < 9000000 / 1000 ∧
    (zPairs.upCar fun c => { c with regs := [(3, { mw := 9000000 })] }).dieToSlow = some 3 ∧
    run .powerLoopTick (zPairs.upCar fun c => { c with regs := [(3, { mw := 9000000 })] }) (fun t => t.loopPs 3 == 1 && t.loopPs 4 == 0 &&
      t.rd Reg.CAR_PWR_P1MS == 9000 % 2 ^ Reg.CAR_PWR_P1MS.width) = true ∧
    zPairs.car.lowFor + 1 < 10 ∧ run .powerLoopTick zPairs (fun t => t.car.loopPs == zPairs.car.loopPs &&
      frameB zPairs t [.regs, .car, .flt, .out, .host]) = true ∧
    run (.regulatorRetry 5 (some 70)) (zPow 1) (fun t => Tab.getD t.car.regs 5 {} == { mw := 70, bad := 0, unreadable := false } &&
      frameB (zPow 1) t [.car]) = true := by decide +kernel

/-! Clocks, resets, bring-up and fens. -/

def zRefs (r0 r1 sel : Nat) : State := withRegs { z0 with hclk := 24000 } [(Reg.CLK_STAT_REF0_OK, 0, r0), (Reg.CLK_STAT_REF1_OK, 0, r1), (Reg.CLK_STAT_SEL, 0, sel)]
theorem wit_refs : (zRefs 1 1 1).refOk 1 = true ∧ (zRefs 1 1 1).rd Reg.CLK_STAT_SEL = 1 ∧
    run (.refclkLoss 1) (zRefs 1 1 1) (fun t => !t.refOk 1 && t.refOk 0 && t.rd Reg.CLK_STAT_SEL == 0 && bumped z0 t Reg.CLK_CNT_FAILOVER &&
      frameB (zRefs 1 1 1) t recordParts) = true ∧
    run (.refclkLoss 1) (zRefs 0 1 1) (fun t => !t.refOk 1 && t.car.bothLostAt == some 24000 && t.rd Reg.CLK_STAT_SEL == 1) = true ∧
    (zRefs 1 0 0).car.powered = true ∧ (zRefs 1 0 0).on Reg.CLK_CTL_REVERT = false ∧
    run (.refclkGood 1 13) (zRefs 1 0 0) (fun t => t.refOk 1 && t.rd Reg.CLK_REF_DIFF_PPM10 == 13 && t.rd Reg.CLK_STAT_SEL == 0 &&
      t.car == (zRefs 1 0 0).car) = true := by decide +kernel

/-- A switch that holds something of each kind. -/
def zFull : State := { zPairs with near := [(9, 1)], tray := [(8, 2)], cfg := { ports := [(31, { role := 1 })] }
                                   pool := zPool.pool, cmd := { cmds := [(9, {})], nextCid := 10 } }
/-- Nothing of it is left. -/
def bare (t : State) : Bool := t.near == [] && t.tray == [] && t.cfg == {} && t.pool == {} && t.cmd == {} && t.red == {}
theorem wit_powerOn : run (.powerOn {}) zFull (fun t => bare t && t.car.powered && t.rd Reg.PWR_RST_STAT_LAST == 0) = true ∧
    run (.powerOn { trngOk := false }) zFull (fun t => bare t && t.car.powered) = true ∧
    run (.powerOn { ref0 := false, ref1 := false }) zFull (fun t => bare t && t.car.powered) = true := by decide +kernel
theorem wit_resetN : zFull.car.powered = true ∧ run (.resetN {}) zFull (fun t => bare t && t.rd Reg.PWR_RST_STAT_LAST == 1) = true ∧
    run .pwrgoodFall zFull (fun t => bare t && !t.car.powered) = true := by decide +kernel
def zBothLost : State := { zFull with hclk := 24000, car := { zFull.car with bothLostAt := some 0 } }
theorem wit_bothRefsLost : usToHclk 20 ≤ 24000 ∧ run (.bothRefsLost {}) zBothLost (fun t => bare t && t.rd Reg.PWR_RST_STAT_LAST == 4 &&
    t.rd Reg.CLK_STAT_BOTH_LOST == 1) = true := by decide +kernel
theorem wit_warm : zFull.admitsWrite acc 0x10100 = true ∧ zFull.car.warmAt = none ∧ zFull.on Reg.CAR_TRIP_VALID = false ∧
    zFull.custState = custUNCLAIMED ∧ zFull.car.warm = false ∧ zFull.img.applying = none ∧ zFull.fatal = false ∧ zFull.on Reg.COH_FATAL_CAUSE = false ∧
    zFull.sqt.ents = [] ∧ run (.warm acc 0x574D false {}) zFull (fun t => t.rd Reg.PWR_RST_STAT_LAST == 2 && bumped zFull t Reg.PWR_RST_STAT_WARMS &&
      t.sec.sessions == [] && t.cmd.cmds == [] && t.pool.extents == zFull.pool.extents && t.pool.regions == zFull.pool.regions &&
      t.near == zFull.near && t.tray == zFull.tray) = true ∧
    run (.warm acc 0x574C true {}) zFull (fun t => bumped zFull t Reg.PWR_CNT_IGNORED && frameB zFull t [.regs]) = true := by decide +kernel
def zFatalAuto : State := { (withRegs zFull [(Reg.PWR_FATAL_AUTO_MS, 0, 1), (Reg.FLT_FATAL_CAUSE, 0, 2)]) with hclk := 1200000 }
theorem wit_fatalAutoRestart : zFatalAuto.fatal = true ∧ zFatalAuto.flt.fatalAt + 1 * 1200000 ≤ zFatalAuto.hclk ∧
    run (.fatalAutoRestart {}) zFatalAuto (fun t => t.rd Reg.PWR_RST_STAT_LAST == 3 && t.rd Reg.PWR_RST_STAT_FATAL_RESTART == 1 && t.near == [] &&
      t.tray == [] && t.pool.extents == [] && t.sec.sessions == []) = true := by decide +kernel

def zPhase (p : Nat) (s : State := z0) : State := s.wr Reg.PWR_RST_STAT_PHASE p
theorem wit_continue : (zPhase phHOLD).admitsWrite acc 0x10100 = true ∧ (zPhase phHOLD).phase = phHOLD ∧
    run (.continue acc true) (zPhase phHOLD) (fun t => t.phase == phAPPLY && frameB (zPhase phHOLD) t [.regs]) = true := by decide +kernel
theorem wit_bringupHwFail : run (.bringupHwFail 0xFF7FF 0x7F7) (zPhase phDIES) (fun t => t.phase == phHW_FAIL && t.rd Reg.GLB_DIE_CD_READY == 0xFF &&
    t.rd Reg.GLB_DIE_MS_READY == 0xFF && t.rd Reg.GLB_D2D_CD_UP == 0xFD && frameB (zPhase phDIES) t [.regs, .car]) = true := by decide +kernel
theorem wit_trayEnumeration : run (.trayEnumeration []) (zPhase phTRAYS zPool) (fun t => t.pool.trays == [] && t.phase == phAPPLY) = true ∧
    run (.trayEnumeration []) (withRegs (zPhase phTRAYS zPool) [(Reg.PWR_RST_CTL_HOLD, 0, 1)]) (fun t => t.phase == phHOLD) = true := by decide +kernel
/-- Tray 30 is being sanitized. -/
def zSan (hclk : Nat) : State := { (zPhase phTRAYS zPool) with hclk := hclk, sec := { z0.sec with sanitizing := [(30, 0)] } }
theorem wit_traySanitize : run (.traySanitizeDone 30 true) (zSan 0) (fun t => t.sec.sanitizing == [] && t.phase == phAPPLY &&
      t.pool.trays == zPool.pool.trays && frameB (zSan 0) t [.regs, .sec]) = true ∧
    0 + z0.rd Reg.PWR_SAN_MAX_S * 1200000000 ≤ 2 ^ 60 ∧ run (.traySanitizeTimeout 30) (zSan (2 ^ 60)) (fun t => t.sec.sanitizing == [] &&
      (Tab.find? t.pool.trays 30).all (fun x => !x.up && !x.enumerated) && t.phase == phAPPLY) = true := by decide +kernel
/-- An image that declares fen 1 alone. -/
def zApply : State := { (zPhase phAPPLY) with img := { z0.img with staged := some { fens := [{ fen := 1, valid := true }] } } }
theorem wit_apply : zApply.nextImage = some { fens := [{ fen := 1, valid := true }] } ∧ zApply.pool.extents = [] ∧ zApply.pool.regions = [] ∧
    zApply.pool.moves = [] ∧ zApply.xbr.capExt = none ∧ zApply.phase = phAPPLY := by decide +kernel
/-- Port 31 carries Knawen packets and has not come up. -/
def zTrained : State := (zPhase phPORTS { z0 with cfg := zLink.cfg }).upPort 31 fun q => { q with powered := true }
theorem wit_portsTrained : zTrained.knawenPort 31 = true ∧ zTrained.on Reg.FAB_PSTAT_SECURE 31 = false ∧
    run .portsTrained zTrained (fun t => t.phase == phRUN && !t.car.warm && !(t.port 31).powered && frameB zTrained t [.regs, .fab, .car, .nextFree]) = true := by
  decide +kernel

def zFenAt (st : Nat) : State := withRegs zFen [(Reg.FEN_STATE_STATE, 1, st), (Reg.FEN_STATE_STATE, 2, fenRUNNING)]
theorem wit_quiesce : zFen.admitsWrite acc (fenCtlAt 1) = true ∧ zFen.fenState 1 = fenRUNNING ∧ run (.quiesce acc 1 false) (zFenAt fenRUNNING) (fun t =>
    t.fenState 1 == fenQUIESCING && t.rd Reg.FEN_CTL_QUIESCE 1 == 1 && t.fenState 2 == fenRUNNING && t.near == zFen.near && t.tray == zFen.tray &&
    t.cfg == zFen.cfg) = true := by decide +kernel
/-- A chunk of fen 1 runs. -/
def zQuiescing : State := withRegs (zCmd 3 []) [(Reg.FEN_STATE_STATE, 1, fenQUIESCING)]
theorem wit_fenQuiesced : (zFenAt fenQUIESCING).cmd.running = [] ∧ (zFenAt fenQUIESCING).fab.eng = [] ∧ (zFenAt fenQUIESCING).cmd.cmds = [] ∧
    run (.fenQuiesced 1) (zFenAt fenQUIESCING) (fun t => t.fenState 1 == fenQUIESCED && t.rd Reg.FEN_CTL_QUIESCE 1 == 0 &&
      frameB (zFenAt fenQUIESCING) t [.regs]) = true ∧
    zQuiescing.cmd.running ≠ [] ∧ (zQuiescing.cmd.running.all fun r => (zQuiescing.cmdOf r.2.1).any (fun c => c.fen == 1)) = true ∧
    run (.fenQuiesced 1) zQuiescing (fun t => t == zQuiescing) = true := by decide +kernel
theorem wit_fenResume : (zFenAt fenQUIESCED).on Reg.FEN_STATE_APPLYING 1 = false ∧ run (.resume acc 1) (zFenAt fenQUIESCED) (fun t =>
    t.fenState 1 == fenRUNNING && t.fenState 2 == fenRUNNING && t.rd Reg.FEN_CTL_QUIESCE 1 == 0 && frameB (zFenAt fenQUIESCED) t [.regs, .pool]) = true := by
  decide +kernel
def zFenQ : State := { (zFenAt fenQUIESCED) with pool := {}, att := { zFen.att with arenas := [(1, { fen := 1 }), (2, { fen := 2 })] } }
theorem wit_fenReset : zFenQ.admitsWrite acc 0x10114 = true ∧ zFenQ.on Reg.PWR_FEN_RST_BUSY = false ∧ zFenQ.cmd.cmds = [] ∧ zFenQ.sqt.ents = [] ∧
    zFenQ.car.afterFenReset = [] ∧ run (.fenReset acc 2) zFenQ (fun t => t.rd Reg.PWR_FEN_RST_STATUS == stRETRY && frameB zFenQ t [.regs]) = true ∧
    run (.fenReset acc 1) zFenQ (fun t => t.rd Reg.PWR_FEN_RST_STATUS == stOK && t.rd Reg.PWR_FEN_RST_BUSY == 0 &&
      t.att.arenas == [(2, { fen := 2 })] && t.car.fenReset == none) = true := by decide +kernel

/-! SPDM sessions and privileged requests. -/

/-- A deployed switch that serves SPDM whole, claimed or not, with session 1 finished with a role. -/
def zSec (r : Role) (cs : Nat) (x : Session := { finished := true }) : State :=
  { (withRegs (zPhase phRUN zPairs) [(Reg.SEC_LIFE_STATE, 0, lifeDEPLOYED), (Reg.SEC_CUST_STATE, 0, cs), (Reg.SEC_TRNG_OK, 0, 1)]) with
    sec := { z0.sec with sessions := [(1, { x with role := r }), (2, { finished := true })], nextSession := 3
                         cust := if cs = custUNCLAIMED then none else some { custId := List.replicate 16 1, reqRoots := [List.replicate 97 2] } } }
def key97 : Bytes := List.replicate 97 7
def spdmIs (t : State) (code : Nat) (b : Bytes) : Bool := t.out == [.message chSPDM code b]
/-- One message of a code left, whatever its content. -/
def spdmCode (t : State) (code : Nat) : Bool := match t.out with
  | [.message c k _] => c == chSPDM && k == code
  | _ => false
theorem wit_spdm : (zSec .none 1).spdmLevel = some 4 ∧ (zSec .none 1).entropy = true ∧ (zSec .none 1).sec.sessions.length < 4 ∧
    run (.getVersion []) (zSec .none 1) (fun t => spdmCode t (spGET_VERSION - 0x80)) = true ∧
    run (.getCapabilities []) (zSec .none 1) (fun t => spdmCode t (spGET_CAPABILITIES - 0x80)) = true ∧
    run (.negotiateAlgorithms []) (zSec .none 1) (fun t => spdmCode t (spNEGOTIATE_ALGORITHMS - 0x80)) = true ∧
    run .getDigests (zSec .none 1) (fun t => spdmCode t (spGET_DIGESTS - 0x80)) = true ∧
    run (.getCertificate 0 0 16) (zSec .none 1) (fun t => spdmCode t (spGET_CERTIFICATE - 0x80)) = true ∧
    run (.getCertificate 1 0 16) (zSec .none 1) (fun t => spdmIs t spERROR [1] && frameB (zSec .none 1) t [.out]) = true ∧
    run (.challenge 0 []) (zSec .none 1) (fun t => spdmCode t (spCHALLENGE - 0x80)) = true ∧
    run (.getMeasurements 0xFF []) (zSec .none 1) (fun t => spdmCode t (spGET_MEASUREMENTS - 0x80)) = true ∧
    run (.getMeasurements 11 []) (zSec .none 1) (fun t => spdmIs t spERROR [1]) = true ∧
    run (.keyExchange []) (zSec .none 1) (fun t => Tab.find? t.sec.sessions 3 == some { lastBeat := 100 } && t.sec.sessions.length == 3 &&
      frameB (zSec .none 1) t [.regs, .sec, .out]) = true := by decide +kernel
def zFour : State := (zSec .none 1).upSec fun c => { c with sessions := [(1, {}), (2, {}), (3, {}), (4, {})] }
theorem wit_spdmBusy : 4 ≤ zFour.sec.sessions.length ∧ run (.keyExchange []) zFour (fun t => spdmIs t spERROR [3]) = true ∧
    z0.spdmLevel = none ∧ run (.getVersion []) z0 (fun t => t == z0) = true := by decide +kernel
/-- Session 1 has not finished. -/
def zShake : State := zSec .none 1 {}
theorem wit_finish : Tab.find? zShake.sec.sessions 1 = some {} ∧ zShake.phase ≠ phRECOVERY ∧
    run (.finish 1 none true) zShake (fun t => Tab.find? t.sec.sessions 1 == some { finished := true, lastBeat := 100 } &&
      Tab.find? t.sec.sessions 2 == Tab.find? zShake.sec.sessions 2 && frameB zShake t [.regs, .sec, .out]) = true ∧
    run (.finish 1 none false) zShake (fun t => Tab.find? t.sec.sessions 1 == none && bumped zShake t Reg.SEC_CNT_SESS_FAIL &&
      spdmIs t spERROR [6] && Tab.find? t.sec.sessions 2 == Tab.find? zShake.sec.sessions 2) = true := by decide +kernel
/-- Which root a chain leads to is a device constant; the clause about it holds of whatever root it is. -/
theorem wit_finishChain (c r : Bytes) (h : Config.chainRoot c = some r) : zShake.spdmLevel = some 4 ∧ Config.chainRoot c = some r :=
  ⟨by decide +kernel, h⟩
theorem wit_session : run (.spdmHeartbeat 1) (zSec .none 1) (fun t => Tab.find? t.sec.sessions 1 == some { finished := true, lastBeat := 100 } &&
      frameB (zSec .none 1) t [.sec, .out]) = true ∧
    run (.endSession 1) (zSec .none 1) (fun t => Tab.find? t.sec.sessions 1 == none && t.sec.sessions.length == 1) = true ∧
    run (.keyUpdate 1 []) (zSec .none 1) (fun t => spdmCode t (spKEY_UPDATE - 0x80) && t.sec.sessions == (zSec .none 1).sec.sessions) = true ∧
    run (.sessionHeartbeatLoss 1) ({ zSec .none 1 with hclk := beatLimit } : State) (fun t => Tab.find? t.sec.sessions 1 == none &&
      t.sec.sessions.length == 1) = true ∧
    run (.sessionHeartbeatLoss 1) (zSec .none 1) (fun t => t == zSec .none 1) = true := by decide +kernel

/-- The one answer to a privileged request. -/
def privIs (t : State) (code result : Nat) : Bool := t.out == [privReply code 5 result]
theorem wit_keySlot : (zSec .custodian 1).grants 1 .custodian = true ∧ (zSec .custodian 1).custState = custCLAIMED ∧ (zSec .custodian 1).privBusy = false ∧
    run (.keySlot 1 5 3 (some key97)) (zSec .custodian 1) (fun t => (t.sec.cust.map (·.imgKeys)) == some [(3, key97)] && privIs t cdKEY_SLOT resOK) = true ∧
    run (.keySlot 1 5 3 none) (zSec .custodian 1) (fun t => (t.sec.cust.map (·.imgKeys)) == some [] && privIs t cdKEY_SLOT resOK) = true := by
  decide +kernel
theorem wit_policy : run (.policy 1 5 3 [key97] []) (zSec .custodian 1) (fun t => (t.sec.cust.map (·.policy)) == some 3 &&
      t.policyNow == (zSec .custodian 1).policyNow && t.rd Reg.SEC_POLICY_BITS == (zSec .custodian 1).rd Reg.SEC_POLICY_BITS &&
      privIs t cdPOLICY resOK) = true := by decide +kernel
theorem wit_debugUnlock : run (.debugUnlock 1 5) (zSec .custodian custCLAIMED) (fun t => t.rd Reg.SEC_LIFE_DEBUG == dbgINSPECT) = true ∧
    (zSec .operator custUNCLAIMED).grants 1 .operator = true ∧
    run (.debugUnlock 1 5) (zSec .operator custUNCLAIMED) (fun t => t.rd Reg.SEC_LIFE_DEBUG == dbgFULL) = true := by decide +kernel
def rec1 : CustRecord := { custId := List.replicate 16 9, reqRoots := [key97], policy := 5 }
theorem wit_custody : (zSec .operator 1).sec.cust.isSome = true ∧
    run (.custodianRead 1 5) (zSec .operator 1) (fun t => t.out == [privReply cdCUSTODIAN_READ 5 resOK (((zSec .operator 1).sec.cust.map (·.bytes)).getD [])]) = true ∧
    rec1.ok = true ∧ (zSec .operator 0).entropy = true ∧ (zSec .operator 0).rd Reg.SEC_LIFE_DEBUG ≠ dbgFULL ∧
    run (.custodianInstall 1 5 rec1) (zSec .operator 0) (fun t => t.sec.cust == some rec1 && t.custState == custCLAIMED &&
      t.rd Reg.SEC_POLICY_BITS == 5 && bumped z0 t Reg.SEC_CUST_CHANGES && privIs t cdCUSTODIAN_INSTALL resOK) = true := by decide +kernel
/-- Whether a signature verifies is a device constant; here it is taken to. -/
def zOper : State := (zSec .operator 0).upSec fun c => { c with operator := some [3] }
theorem wit_operatorSet : zOper.grants 1 .operator = true ∧ zOper.life = lifeDEPLOYED ∧ zOper.privBusy = false ∧ key97.length = 97 ∧
    zOper.sec.operator = some [3] := by decide +kernel
theorem wit_decommission : run (.decommission 1 5) zOper (fun t => t.life == lifeDECOMMISSIONED && !t.sec.uds && t.sec.sessions == [] &&
    privIs t cdDECOMMISSION resOK && frameB zOper t [.regs, .sec, .out]) = true := by decide +kernel
theorem wit_denied : (zSec .none 1).grants 1 .none = true ∧
    run (.keySlot 1 5 0 none) (zSec .none 1) (fun t => privIs t cdKEY_SLOT resDENIED && frameB (zSec .none 1) t [.regs, .out]) = true ∧
    run (.custodianInstall 1 5 rec1) (zSec .none 1) (fun t => privIs t cdCUSTODIAN_INSTALL resDENIED) = true ∧
    run (.operatorSet 1 5 [] [] []) (zSec .none 1) (fun t => privIs t cdOPERATOR_SET resDENIED) = true := by decide +kernel
theorem wit_custodianSwitch : (zSec .operator 1).on Reg.COH_STAT_DOWN = false ∧ (zSec .operator 1).updWriting = false ∧ (zSec .operator 1).sec.scrub = none ∧
    run (.custodianSwitch 1 5 (some rec1) false) (zSec .operator 1) (fun t => t.custState == custSWITCHING && t.near == [] && t.tray == [] &&
      t.cfg == {} && t.pool.extents == [] && t.cmd.cmds == [] && t.red == {} && t.sqt == {} && t.img.running == none &&
      t.sec.sessions.length == 1 && t.rd Reg.SEC_LIFE_DEBUG == dbgLOCKED && (t.sec.scrub.map fun r => r.carried) == some (some rec1) &&
      t.sec.cutOff == some (some rec1)) = true := by decide +kernel
theorem wit_custodianRelease : run (.custodianRelease 1 5 true) (zSec .custodian 1) (fun t => t.custState == custSWITCHING && t.cfg == {} &&
    (t.sec.scrub.map fun r => r.carried) == some none) = true := by decide +kernel
def zScrubbing (ok : Nat) (c : Option CustRecord) : State := (withRegs (zSec .operator 2) [(Reg.SEC_TRNG_OK, 0, ok)]).upSec fun b => { b with scrub := some { session := 1, carried := c } }
theorem wit_scrubComplete : (zScrubbing 1 none).entropy = true ∧ (zScrubbing 0 none).entropy = false ∧
    run .scrubComplete (zScrubbing 1 (some rec1)) (fun t => t.sec.scrub == none && t.sec.cust == some rec1 && t.custState == custCLAIMED &&
      bumped z0 t Reg.SEC_CUST_CHANGES) = true ∧
    run .scrubComplete (zScrubbing 1 none) (fun t => t.sec.cust == none && t.custState == custUNCLAIMED) = true ∧
    run .scrubComplete (zScrubbing 0 none) (fun t => t.sec.scrub == none && t.sec.cust == (zScrubbing 0 none).sec.cust && t.custState == custFAILED) = true := by
  decide +kernel
theorem wit_trngFail : (zSec .none 1).entropy = true ∧ run (.trngFail 0) (zSec .none 1) (fun t => t.rd Reg.SEC_TRNG_OK == 0 &&
    t.rd Reg.SEC_TRNG_FAIL == 1 && !t.entropy && frameB (zSec .none 1) t recordParts) = true := by decide +kernel

/-! Images and firmware. -/

/-- A part that continues a load: session 1 has sent 4 of 9 bytes. -/
def zLoad (l : Option ImageLoad) : State := { zSec .custodian 1 with img := { z0.img with receiving := l } }
theorem wit_imageLoad : (zLoad none).grants 1 .custodian = true ∧ (zLoad none).privBusy = false ∧ (zLoad none).sec.scrub = none ∧
    run (.imageLoad 1 5 4 9 [7, 7]) (zLoad (some { session := 1, total := 9, got := [1, 2, 3, 4] })) (fun t =>
      t.img.receiving == some { session := 1, total := 9, got := [1, 2, 3, 4, 7, 7], seq := 5 } && privIs t cdIMAGE_LOAD resOK &&
      frameB (zLoad none) t [.regs, .img, .out]) = true ∧
    run (.imageLoad 1 5 0 3 [7, 8, 9]) (zLoad none) (fun t => t.rd Reg.FEN_IMG_STATUS_BUSY == 1 && t.img.receiving == none &&
      t.img.validating == some { session := 1, total := 3, got := [7, 8, 9], seq := 5 } && t.out == []) = true ∧
    run (.imageLoad 1 5 0 3 [7, 8, 9]) (zLoad (some { session := 2, total := 9 })) (fun t => t.rd Reg.FEN_IMG_STATUS_RESULT == imgBusy &&
      t.rd Reg.FEN_IMG_STATUS_DONE == 1 && frameB (zLoad (some { session := 2, total := 9 })) t [.regs, .out]) = true := by decide +kernel
/-- A full image of 32 plain ports, home 0, and the device record; `verify` stands for the device's signature check. -/
def dirOf (t size off count : Nat) : Bytes := leBytes 2 t ++ leBytes 2 size ++ leBytes 4 off ++ leBytes 4 count ++ leBytes 4 0
def image1 : Bytes :=
  ascii "KNWS" ++ leBytes 2 0x100 ++ leBytes 2 1 ++ leBytes 4 864 ++ leBytes 4 1 ++ leBytes 4 0 ++ leBytes 2 0x7720 ++ leBytes 1 1 ++ leBytes 1 8 ++ leBytes 8 0 ++
  dirOf 1 16 160 32 ++ dirOf 2 48 672 0 ++ dirOf 3 16 672 1 ++ dirOf 4 32 688 0 ++ dirOf 5 40 688 0 ++ dirOf 6 16 688 0 ++ dirOf 7 16 688 0 ++ dirOf 8 64 688 1 ++
  (List.range 32).flatMap (fun i => leBytes 8 i ++ leBytes 8 10) ++ (leBytes 1 0 ++ leBytes 1 1 ++ leBytes 14 0) ++
  (leBytes 2 0x1FF ++ leBytes 2 0 ++ leBytes 4 50000 ++ leBytes 1 2 ++ leBytes 1 4 ++ leBytes 1 20 ++ leBytes 1 1 ++ leBytes 52 60) ++
  leBytes 2 1 ++ leBytes 110 0
def zValid (b : Bytes) : State := { (zSec .custodian 1).upSec (fun c => { c with cust := c.cust.map fun r => { r with imgKeys := [(0, key97)] } }) with
  img := { z0.img with validating := some { session := 1, seq := 5, got := b } } }
theorem wit_imageGood : imgValidate (fun _ _ _ _ => true) (zValid []).imgCtx image1 = none ∧ (decodeImage image1).kind = 1 := by decide +kernel
theorem wit_imageBad : ((zValid [1]).img.validating.map (·.got)) = some [1] ∧
    imgValidate Config.ecdsaVerify (zValid [1]).imgCtx [1] = some ⟨imgBadLength, 0, 8⟩ ∧
    run .imageValidationDone (zValid [1]) (fun t => t.img.validating == none && t.rd Reg.FEN_IMG_STATUS_RESULT == imgBadLength &&
      t.rd Reg.FEN_IMG_STATUS_SECTION == 0 && t.rd Reg.FEN_IMG_OFFSET_OFFSET == 8 && t.rd Reg.FEN_IMG_STATUS_DONE == 1 &&
      frameB (zValid [1]) t [.regs, .img, .out]) = true := by decide +kernel
/-- A fen image of fen 63 that makes it valid. -/
def zApplying (v : Bool) : State := { zSec .custodian 1 with img := { z0.img with applying := some { kind := 2, fen := 63, serial := 4, sections := [2], fens := [{ fen := 63, valid := v }] } } }
theorem wit_fenImageApply : (zApplying true).fenResetting 63 = false ∧ (zApplying true).car.warmQueued = none ∧
    (zApplying true).img.resumeAfterApply = [] ∧ (zApplying true).gateLate { kind := 2, fen := 63 } = none ∧
    run .fenImageApply (zApplying true) (fun t => t.img.applying == none && t.rd Reg.FEN_STATE_APPLYING 63 == 0 &&
      t.rd Reg.FEN_SERIAL_SERIAL 63 == 4 && t.fenState 63 == fenQUIESCED && t.near == [] && t.tray == []) = true ∧
    run .fenImageApply (zApplying false) (fun t => t.fenState 63 == fenUNUSED) = true := by decide +kernel
theorem wit_usage : (zSec .custodian 1).custState ≠ custFAILED ∧ run (.usage 1 5 false) (zSec .custodian 1) (fun t => t.img.reports == 1 &&
      t.out.length == 1 && frameB (zSec .custodian 1) t [.regs, .img, .sec, .out]) = true ∧
    run (.usage 1 5 true) ({ zSec .operator 1 with img := { z0.img with closing := some [4] } } : State) (fun t =>
      t.out == [privReply cdUSAGE 5 resOK [4]]) = true := by decide +kernel

/-- An update in a state, owned by session 1, whose target slot is as given. -/
def zUpd (st : Nat) (slot : FwSlot := { factory := false, total := 64 }) : State :=
  (withRegs (zSec .custodian 1) [(Reg.CAR_STAT_UPD, 0, st)]).upFw fun w => { w with owner := some 1, slotB := slot }
def updIs (t : State) (st result : Nat) : Bool := t.rd Reg.CAR_STAT_UPD == st && t.out == [privReply cdFW_UPDATE 5 resOK [BitVec.ofNat 8 result]]
theorem wit_fwBegin : (zUpd updIDLE).grants 1 .custodian = true ∧ (zUpd updIDLE).img.validating = none ∧
    run (.fwUpdateBegin 1 5 67108864) (zUpd updIDLE) (fun t => updIs t updERASING 0 && t.car.fw.slotB == { factory := false, total := 67108864 } &&
      t.car.fw.slotA == (zUpd updIDLE).car.fw.slotA && t.car.fw.owner == some 1 && frameB (zUpd updIDLE) t [.regs, .car, .out]) = true ∧
    run .fwEraseDone (zUpd updERASING) (fun t => t.rd Reg.CAR_STAT_UPD == updRECEIVING && frameB (zUpd updERASING) t [.regs]) = true := by decide +kernel
theorem wit_fwData : (zUpd updRECEIVING).fwTarget = 1 ∧
    run (.fwUpdateData 1 5 48 (List.replicate 16 3) true) (zUpd updRECEIVING) (fun t => updIs t updRECEIVING 0 &&
      t.car.fw.slotB.pieces == [(48, List.replicate 16 3)] && frameB (zUpd updRECEIVING) t [.regs, .car, .out]) = true ∧
    run (.fwUpdateData 1 5 48 (List.replicate 16 3) false) (zUpd updRECEIVING) (fun t => t.rd Reg.CAR_STAT_UPD == updRECEIVING &&
      t.car.fw == { (zUpd updRECEIVING).car.fw with lastResult := upFLASH }) = true := by decide +kernel
theorem wit_fwVerify : ((zUpd updRECEIVING {}).verifySlot {}).2.isSome = true ∧ ((zUpd updRECEIVING).verifySlot { factory := false, total := 64 }).2 = none ∧
    run (.fwUpdateVerify 1 5) (zUpd updRECEIVING {}) (fun t => updIs t updVERIFIED 0 && t.car.fw.staged.isSome) = true ∧
    run (.fwUpdateVerify 1 5) (zUpd updRECEIVING) (fun t => t.rd Reg.CAR_STAT_UPD == updRECEIVING && t.car.fw.lastResult == upINCOMPLETE) = true := by
  decide +kernel
theorem wit_fwActivate : run (.fwUpdateActivate 1 5) (zUpd updVERIFIED) (fun t => t.rd Reg.CAR_STAT_UPD == updACTIVATED && t.car.fw.active == 1 &&
      t.car.fw.before == 0 && t.car.fw.trial && t.car.fw.tries == 0 && t.car.fw.running == (zUpd updVERIFIED).car.fw.running) = true ∧
    run (.fwUpdateAbort 1 5) ((zUpd updACTIVATED).upFw fun w => { w with active := 1, before := 0, trial := true }) (fun t => updIs t updIDLE 0 &&
      t.car.fw.active == 0 && !t.car.fw.trial && t.car.fw.owner == none) = true ∧
    run (.fwUpdateActivate 1 5) (zUpd updIDLE) (fun t => updIs t updIDLE 9 && t.car.fw.lastResult == upORDER) = true := by decide +kernel

/-! The management link. -/

/-- Session 1 is open; the interface stands in a state, and stream 1 is secure. -/
def zTd (st : Nat) : State := ((zSec .none 1).wr Reg.SEC_TDISP_STATE st).upSec fun c => { c with ide := [(1, { secure := true })] }
theorem wit_ideKm : (zTd tdUNLOCKED).spdmLevel = some 4 ∧ run (.ideKm 1 2) (zTd tdUNLOCKED) (fun t =>
    t.sec.ide == [(1, { secure := true }), (2, { secure := true, keyedAt := 100 })] && t.rd Reg.SEC_IDE_STREAMS == 2 &&
    frameB (zTd tdUNLOCKED) t [.regs, .sec, .out]) = true := by decide +kernel
theorem wit_tdisp : run (.lockInterface 1) (zTd tdUNLOCKED) (fun t => t.rd Reg.SEC_TDISP_STATE == tdLOCKED && frameB (zTd tdUNLOCKED) t [.regs, .sec, .out]) = true ∧
    run (.lockInterface 1) (zTd tdRUN) (fun t => t.out == [.message chIDE tmERROR [4, 0, 0, 0]] && frameB (zTd tdRUN) t [.out]) = true ∧
    run (.getDeviceInterfaceReport 1) (zTd tdLOCKED) (fun t => t.out.length == 1 && frameB (zTd tdLOCKED) t [.sec, .out]) = true ∧
    run (.startInterface 1) (zTd tdLOCKED) (fun t => t.rd Reg.SEC_TDISP_STATE == tdRUN) = true ∧
    run (.stopInterface 1) (zTd tdERROR) (fun t => t.rd Reg.SEC_TDISP_STATE == tdUNLOCKED) = true := by decide +kernel
theorem wit_ideFail : Tab.find? (zTd tdRUN).sec.ide 1 = some { secure := true } ∧ run (.ideFail 1) (zTd tdRUN) (fun t => Tab.find? t.sec.ide 1 == none &&
    t.rd Reg.SEC_IDE_FAIL == 1 && bumped (zTd tdRUN) t Reg.SEC_CNT_IDE_FAIL && t.rd Reg.SEC_TDISP_STATE == tdERROR &&
    frameB (zTd tdRUN) t [.regs, .sec, .flt, .out, .host]) = true ∧
    run (.ideFail 1) (zTd tdUNLOCKED) (fun t => t.rd Reg.SEC_TDISP_STATE == tdUNLOCKED) = true := by decide +kernel
theorem wit_mgmtLink : run .lockedConfigurationChange (zTd tdRUN) (fun t => t.rd Reg.SEC_TDISP_STATE == tdERROR &&
      bumped (zTd tdRUN) t Reg.SEC_CNT_TDISP_ERR && frameB (zTd tdRUN) t [.regs]) = true ∧
    run .managementLinkDown (zTd tdRUN) (fun t => !t.flt.mgmtUp && frameB (zTd tdRUN) t [.flt]) = true ∧
    (zTd tdRUN).car.powered = true ∧ run .managementLinkUp (zTd tdRUN) (fun t => t.flt.mgmtUp && frameB (zTd tdRUN) t recordParts &&
      regsB (zTd tdRUN) t recordKeys) = true ∧
    run .perstN (zTd tdRUN) (fun t => !t.flt.mgmtUp && t.sec.ide == [] && t.rd Reg.SEC_IDE_STREAMS == 0 && t.rd Reg.SEC_TDISP_STATE == tdUNLOCKED &&
      frameB (zTd tdRUN) t [.regs, .sec, .flt]) = true := by decide +kernel

/-! Faults. -/
theorem wit_hubLogic : zFen.fatal = false ∧ zFen.red.insts = [] ∧ run (.hubLogicMismatch dieMH) zFen (fun t => t.rd Reg.FLT_FATAL_CAUSE == 3 && t.rd Reg.FLT_FATAL_DETAIL == 11 &&
    t.fatal && t.rd Reg.FLT_PEND_FATAL == 1 && frameB zFen t recordParts) = true ∧ run (.hubLogicMismatch dieXH) zFen (fun t => t.rd Reg.FLT_FATAL_DETAIL == 10) = true := by decide +kernel
theorem wit_canary : run (.canaryCheck 7 true) zFen (fun t => t == zFen) = true ∧ run (.canaryCheck 7 false) zFen (fun t => t.rd Reg.FLT_FATAL_CAUSE == 4 &&
    t.rd Reg.FLT_FATAL_DETAIL == 7 && frameB zFen t recordParts) = true := by decide +kernel
theorem wit_sramRefresh : run (.sramRefresh .good) zFen (fun t => t == zFen) = true ∧ run (.sramRefresh (.corrected 5)) zFen (fun t => t.rd Reg.FLT_CNT_CE_SRAM == 5 &&
    regsB zFen t [Reg.FLT_CNT_CE_SRAM.key 0 0]) = true ∧ run (.sramRefresh .uncorrectable) zFen (fun t => t.rd Reg.FLT_FATAL_CAUSE == 2 && t.fatal) = true := by decide +kernel
theorem wit_stackPatrol : stackOf 0 < 8 ∧ run (.stackPatrol 0 (.corrected 9)) zFen (fun t => t.rd Reg.FLT_CNT_CE_STACK == 9 &&
      regsB zFen t (Reg.FLT_CNT_CE_STACK.key 0 0 :: scoreKeys)) = true ∧ run (.stackPatrol 64 .uncorrectable) zFen (fun t => t.badKey (granKey tierNEAR 64) &&
      t.rd Reg.FLT_CNT_UE_STACK == 1 && frameB zFen t recordParts && regsB zFen t (Reg.FLT_CNT_UE_STACK.key 0 0 :: scoreKeys)) = true := by decide +kernel
theorem wit_sentinel : run (.sentinelCheck (.route 1 4095) .good) zFen (fun t => t == zFen) = true ∧ run (.sentinelCheck (.route 1 4095) .uncorrectable) zFen (fun t =>
      t.flt.badEntries == [65536 + 4095] && t.rd Reg.FLT_CNT_UE_SRAM == 1 && frameB zFen t recordParts && regsB zFen t (Reg.FLT_CNT_UE_SRAM.key 0 0 :: scoreKeys)) = true ∧
    run (.sentinelCheck (.cluster 135) (.corrected 3)) zFen (fun t => t.rd Reg.FLT_CNT_CE_SRAM == 3 && regsB zFen t (Reg.FLT_CNT_CE_SRAM.key 0 0 :: scoreKeys)) = true := by decide +kernel
theorem wit_clusterFault : zFen.clusterUp 127 = true ∧ zFen.lastOfFen 127 = false ∧ zFen.physOf 127 = 134 ∧ run (.clusterFault 127 1) zFen (fun t =>
    Tab.find? t.flt.tests 134 == some { cause := 1, cid := zFen.cmd.nextCid } && !t.clusterUp 127 && t.rd Reg.FLT_CNT_UE_SRAM == 1 && frameB zFen t recordParts &&
    regsB zFen t (Reg.FLT_CNT_UE_SRAM.key 0 0 :: recordKeys)) = true := by decide +kernel
/-- Fen 1 with two clusters; command 9 runs on the first. -/
def zTwoCells (now : Nat) : State :=
  let s := zCmdOf (cmd9 0x18 [])
  { s with hclk := now, cfg := { s.cfg with fens := [(1, { valid := true, clusters := 3, chgroups := 1 })] } }
theorem wit_chunkWatchdog : (zTwoCells 1).sinceUs 0 < (zTwoCells 1).rd Reg.FLT_CHUNK_WD_US ∧ run (.chunkWatchdog 0) (zTwoCells 1) (fun t => t == zTwoCells 1) = true ∧
    (zTwoCells (10 ^ 10)).lastOfFen 0 = false ∧ (zTwoCells (10 ^ 10)).rd Reg.FLT_CHUNK_WD_US ≤ (zTwoCells (10 ^ 10)).sinceUs 0 ∧
    run (.chunkWatchdog 0) (zTwoCells (10 ^ 10)) (fun t => t.cmd.running == [] && Tab.has t.flt.tests 0 && t.rd Reg.FLT_CNT_CHUNK_WD == 1) = true := by decide +kernel
def zTest : State := { zTwoCells (64 * 1200 + 1199) with cmd := {}, flt := { tests := [(17, { cause := 1 })], spareBist := [(2, 35)] } }
theorem wit_testDone : zTest.sinceUs 0 ≤ testLimitUs ∧ zTest.logicalOf 17 = some 16 ∧ run (.clusterTestDone 17 true) zTest (fun t => t.flt.tests == [] && t.rd Reg.FLT_CNT_TRANSIENT == 1 &&
      frameB zTest t recordParts && regsB zTest t (Reg.FLT_CNT_TRANSIENT.key 0 0 :: scoreKeys)) = true ∧
    bit (zTest.rd Reg.FLT_CLUS_OUT_PHYS 1) 16 = false ∧
    run (.clusterTestDone 17 false) zTest (fun t => t.flt.tests == [] && Tab.find? t.flt.spareBist 1 == some 16 && frameB zTest t [.flt]) = true := by decide +kernel
theorem wit_spareBist : run (.spareBistDone 2 true) zTest (fun t => t.flt.spareBist == [] && Tab.find? t.flt.spareFor 2 == some 35 && t.physOf 35 == 50 &&
    bit (t.rd Reg.GLB_DIE_CD_SPARE) 2 && bit (t.rd Reg.FLT_CLUS_OUT_PHYS 2) 3 && frameB zTest t recordParts) = true := by decide +kernel
def zOut (phase : Nat) : State := withRegs { zTest with flt := { zTest.flt with spareFor := [(7, 112)] } }
  [(Reg.PWR_RST_STAT_PHASE, 0, phase), (Reg.FLT_CLUS_OUT_PHYS, 7, 9), (Reg.FLT_CLUS_LOST_MASK, 3, 5), (Reg.GLB_DIE_CD_SPARE, 0, 128)]
theorem wit_mapClear : zFen.admitsWrite acc 0x400C0 = true ∧ (zOut 5).inBringUp = true ∧ (zOut 9).inBringUp = false ∧ run (.mapClear acc []) (zOut 5) (fun t =>
      t.rd Reg.FLT_CLUS_OUT_PHYS 7 == 0 && t.rd Reg.FLT_CLUS_LOST_MASK 3 == 0 && t.rd Reg.GLB_DIE_CD_SPARE == 0 && t.flt.spareFor == [] && t.flt.tests == [] &&
      frameB (zOut 5) t [.regs, .flt]) = true ∧ run (.mapClear acc []) (zOut 9) (fun t => t.rd Reg.FLT_CLUS_OUT_PHYS 7 == 9 && frameB (zOut 9) t recordParts &&
      regsB (zOut 9) t recordKeys) = true := by decide +kernel
def zScore (v : Nat) (l : List (Fld × Nat × Nat) := []) : State := withRegs { zFen with flt := { scores := [(7 * 256 + 10, { s := v, events := 2 })] } } l
theorem wit_scoreTick : ∀ d, d = zFen.rd Reg.FLT_SCLS_CFG_DECAY 7 → (600 - max 1 (600 / 2 ^ d)) / 256 < zFen.rd Reg.FLT_SCLS_CFG_THR 7 ∧
    run .scoreTick (zScore 600) (fun t => (t.score 7 10).s == 600 - max 1 (600 / 2 ^ d) && frameB (zScore 600) t [.flt]) = true ∧
    run .scoreTick (zScore 0) (fun t => (t.score 7 10).s == 0 && frameB (zScore 0) t [.flt]) = true := by intro d h; subst h; decide +kernel
theorem wit_scorePersist : run .scorePersist (zScore 600) (fun t => t.flt.flashScores == (zScore 600).flt.scores) = true := by decide +kernel
def ixS (c i : Nat) : List (Fld × Nat × Nat) := [(Reg.FLT_SCORE_INDEX_CLASS, 0, c), (Reg.FLT_SCORE_INDEX_INSTANCE, 0, i)]
def scIs (t : State) (st : Nat) : Bool := stIs Reg.FLT_SCORE_STATUS_STATUS Reg.FLT_SCORE_STATUS_DONE t st
theorem wit_scoreOps : zFen.admitsWrite acc 0x40104 = true ∧ (zScore 600 (ixS 7 10)).noPart = false ∧ (zScore 600 (ixS 7 11)).noPart = true ∧
    run (.scoreRead acc) (zScore 600 (ixS 7 10)) (fun t => scIs t stOK && t.rd Reg.FLT_SCORE_DATA0_S == 600 && t.rd Reg.FLT_SCORE_DATA1_SUSPECT == 0) = true ∧
    run (.scoreClear acc) (zScore 600 (ixS 7 10)) (fun t => scIs t stOK && (t.score 7 10).s == 0 && (t.score 7 10).events == 0 && frameB (zScore 600 (ixS 7 10)) t recordParts) = true ∧
    run (.scoreRead acc) (zScore 600 (ixS 7 11)) (fun t => scIs t stRANGE) = true ∧ run (.scoreClear acc) (zScore 600 (ixS 0 0)) (fun t => scIs t stRANGE) = true := by decide +kernel
def zRuns (n : Nat) : State := { zFen with hclk := 2 ^ 50, flt := { runs := [{ first := { code := 5, params := [1] }, repeats := n, last := [8] }], unsignalled := some 0 } }
theorem wit_coalesce : 0 + usToHclk ((zRuns 0).rd Reg.FLT_COALESCE_US) ≤ (zRuns 0).hclk ∧ run .coalesceFlush (zRuns 0) (fun t => t.flt == { (zRuns 0).flt with runs := [] }) = true ∧
    run .coalesceFlush (zRuns 3) (fun t => t.flt.runs == [] && (t.flt.log.map fun e => (e.isRepeat, e.count, e.params, e.code)) == [(true, 3, [8], 5)] &&
      frameB (zRuns 3) t recordParts && regsB (zRuns 3) t recordKeys) = true := by decide +kernel
theorem wit_eqModeration : run .eqModeration (zRuns 0) (fun t => t.flt == { (zRuns 0).flt with unsignalled := none } && t.out.length == 1) = true ∧
    (let s := withRegs { zRuns 0 with hclk := 0 } [(Reg.FLT_EQ_CTL_MOD_US, 0, 1)]
     (decide (s.hclk < 0 + usToHclk (s.rd Reg.FLT_EQ_CTL_MOD_US)) && run .eqModeration s (fun t => t == s)) = true) := by decide +kernel

end Sys2Proof.Tests
end

section
/-!
PROOF. The inspect view reads without effect (R10, R494).  A capture of IV_DATA is one of two compositions of operations whose frames are
known: count, store in the view, shift out, or, where the window refuses the offset, the last two alone.
-/
namespace Sys2Proof.Machine

/-- What is shifted out is the one new output. -/
@[simp] theorem State.tdo_out (s : State) (v : Nat) : (s.tdo v).out = s.out ++ [.tdo v] := rfl

@[simp] theorem State.tdo_car (s : State) (v : Nat) : (s.tdo v).car = s.car := rfl

/-- On a powered part an instruction that the level admits acts (R493). -/
theorem State.tap_allowed {s : State} {allowed : Bool} (hp : s.car.powered = true) (ha : allowed = true) (act : State → State) :
    s.tap allowed act = act s := by
  simp [State.tap, hp, ha]

/-- A capture at an offset that the window answers. -/
theorem ivData_of_inspect_some {s : State} {v : Nat} (hp : s.car.powered = true) (ha : s.atInspect = true)
    (hv : s.inspect s.car.ivAddr = some v) :
    ivData s = ((s.bump Reg.DBG_CNT_IV).upCar fun c => { c with ivData := v, ivStat := 1 }).tdo v := by
  unfold ivData
  rw [State.tap_allowed hp ha, hv]

/-- A capture at an offset that the window refuses. -/
theorem ivData_of_inspect_none {s : State} (hp : s.car.powered = true) (ha : s.atInspect = true)
    (hv : s.inspect s.car.ivAddr = none) :
    ivData s = (s.upCar fun c => { c with ivData := 0, ivStat := 2 }).tdo 0 := by
  unfold ivData
  rw [State.tap_allowed hp ha, hv]

/-- Storing in Carillon's state and shifting a value out touch Carillon's state and the outbox. -/
theorem State.onlyChanges_upCar_tdo (s : State) (g : CarState → CarState) (v : Nat) {ps : List Part}
    (hc : Part.car ∈ ps) (ho : Part.out ∈ ps) : s.onlyChanges ((s.upCar g).tdo v) ps :=
  State.onlyChanges_trans (s.onlyChanges_upCar g hc) ((s.upCar g).onlyChanges_emit _ ho)

/-- Storing in Carillon's state and shifting a value out write no register. -/
theorem State.regsKept_upCar_tdo (s : State) (g : CarState → CarState) (v : Nat) (ks : List Nat) :
    s.regsKeptBut ((s.upCar g).tdo v) ks := State.regsKept_of_regs rfl ks

/-- Settles O47: an answered capture writes the view's own counter and nothing else, a refused one no register at all. -/
theorem inspectReadsHaveNoSideEffect : Obligations.InspectReadsHaveNoSideEffect := by
  intro s hp ha
  have hexec : exec .ivData s = .next (ivData s) := rfl
  cases hv : s.inspect s.car.ivAddr with
  | some v =>
    rw [ivData_of_inspect_some hp ha hv] at hexec
    exact ⟨_, v, 1, hexec, by simp, by simp,
      State.onlyChanges_trans (s.onlyChanges_bump Reg.DBG_CNT_IV 0 0 1 (by decide))
        (State.onlyChanges_upCar_tdo _ _ v (by decide) (by decide)),
      State.regsKept_trans (s.regsKept_bump Reg.DBG_CNT_IV 0 0 1 (by decide)) (State.regsKept_upCar_tdo _ _ v _)⟩
  | none =>
    rw [ivData_of_inspect_none hp ha hv] at hexec
    exact ⟨_, 0, 2, hexec, by simp, by simp, s.onlyChanges_upCar_tdo _ 0 (by decide) (by decide),
      s.regsKept_upCar_tdo _ 0 _⟩

end Sys2Proof.Machine
end

section
/-!
PROOF. Flows and bucket maps (R353, R354).  The egress port depends on a packet through its flow's bucket alone, and a map that is built
repeats its usable ports in turn over the 64 buckets.
-/
namespace Sys2Proof.Machine

/-- Packets of one flow have one bucket: the class and every other field take no part (R353). -/
theorem bucketOf_congr {k p : Packet} (hsrc : k.src = p.src) (hdst : k.dst = p.dst) (hflow : k.flow = p.flow) (seed : Nat) :
    bucketOf seed k = bucketOf seed p := by
  simp only [bucketOf, hsrc, hdst, hflow]

/-- The egress choice depends on the packet through its bucket alone (R354). -/
theorem State.egressBy_congr {s : State} {k p : Packet}
    (hb : bucketOf (s.bank.seed.getD 0) k = bucketOf (s.bank.seed.getD 0) p) (m : List Nat) (conn : Nat) :
    s.egressBy m conn k = s.egressBy m conn p := by
  simp only [State.egressBy, hb]

/-- A packet leaves on the live port that its bucket names (R354). -/
theorem State.egressBy_of_alive {s : State} {m : List Nat} {p : Packet} {q : Nat}
    (hq : m[bucketOf (s.bank.seed.getD 0) p]? = some q) (ha : s.alive q = true) (conn : Nat) :
    s.egressBy m conn p = .toPort q := by
  simp only [State.egressBy, hq, ha, if_true]

/-- The ports of a set that a map is built from, in ascending order (R352, R354). -/
def State.livePorts (s : State) (portset : Nat) : List Nat :=
  (bitList 32 portset).filter fun q => s.usablePort q && s.alive q

/-- The ports of a set that carry packets and whose neighbour is alive, chosen by one filter. -/
theorem State.livePorts_eq_filter_range (s : State) (portset : Nat) :
    s.livePorts portset = (List.range 32).filter fun q =>
      bit portset q && (s.portCfg q).role != roleNone && (s.portCfg q).role != roleTray && s.alive q := by
  rw [State.livePorts, bitList, List.filter_filter]
  refine List.filter_congr fun q _ => ?_
  rw [State.usablePort, Bool.and_comm, ← Bool.and_assoc, ← Bool.and_assoc]

/-- A map built from at least one port gives its buckets the ports in turn. -/
theorem State.buildMap_of_livePorts {s : State} {portset : Nat} (h : s.livePorts portset ≠ []) :
    s.buildMap portset = (List.range 64).map fun b =>
      (s.livePorts portset).getD (b % (s.livePorts portset).length) 0 :=
  if_neg (mt List.isEmpty_iff.mp h)

/-- A map that is built has 64 buckets. -/
theorem State.length_buildMap {s : State} {portset : Nat} (h : s.livePorts portset ≠ []) :
    (s.buildMap portset).length = 64 := by
  rw [State.buildMap_of_livePorts h, List.length_map, List.length_range]

/-- Bucket `c` of a map names the port whose index is `c` modulo the number of ports. -/
theorem State.getElem?_buildMap {s : State} {portset c : Nat} (h : s.livePorts portset ≠ []) (hc : c < 64) :
    (s.buildMap portset)[c]? = (s.livePorts portset)[c % (s.livePorts portset).length]? := by
  have hi : c % (s.livePorts portset).length < (s.livePorts portset).length :=
    Nat.mod_lt _ (List.length_pos_iff.mpr h)
  rw [State.buildMap_of_livePorts h, List.getElem?_map, List.getElem?_range hc, Option.map_some,
    List.getD_eq_getElem?_getD, List.getElem?_eq_getElem hi, Option.getD_some]

/-- Settles O11: the bucket alone decides the port, and a map built repeats its live ports over the buckets. -/
theorem flowsKeepOnePort : Obligations.FlowsKeepOnePort := by
  intro s m conn portset p ps b hb hps
  subst hb
  rw [← State.livePorts_eq_filter_range] at hps
  subst hps
  exact ⟨fun _ hq ha => State.egressBy_of_alive hq ha conn,
    fun _ hsrc hdst hflow => State.egressBy_congr (bucketOf_congr hsrc hdst hflow _) m conn,
    fun h => ⟨State.length_buildMap h, fun _ hc => State.getElem?_buildMap h hc⟩⟩

end Sys2Proof.Machine
end

section
/-!
PROOF. The CRC peripheral of a pair (R470).  INIT and the feeds are updates of one pair's own state, so what an update of a pair changes and
leaves is said once; the worked example is the CRC-32C of the nine bytes that INIT and its three feeds take in.
-/
namespace Sys2Proof.Machine

/-! An update of a pair. -/

/-- The pair updated. -/
theorem State.carPair_upPair_self (s : State) (p : Nat) (f : CarPair → CarPair) :
    (s.upPair p f).carPair p = f (s.carPair p) := by
  unfold State.carPair State.upPair
  split <;> rfl

/-- The other pair keeps its state. -/
theorem State.carPair_upPair_other (s : State) {p : Nat} (hp : p < 2) (f : CarPair → CarPair) :
    (s.upPair p f).carPair (1 - p) = s.carPair (1 - p) := by
  obtain rfl | rfl : p = 0 ∨ p = 1 := by omega
  · rfl
  · rfl

/-- The pairs are part of Carillon's state. -/
theorem State.onlyChanges_upPair (s : State) (p : Nat) (f : CarPair → CarPair) : s.onlyChanges (s.upPair p f) [.car] :=
  s.onlyChanges_upCar _ (by decide)

/-- The pair updated, the other pair, and the rest of the state. -/
theorem State.upPair_spec (s : State) {p : Nat} (hp : p < 2) (f : CarPair → CarPair) :
    (s.upPair p f).carPair p = f (s.carPair p) ∧ (s.upPair p f).carPair (1 - p) = s.carPair (1 - p) ∧
      s.onlyChanges (s.upPair p f) [.car] :=
  ⟨s.carPair_upPair_self p f, s.carPair_upPair_other hp f, s.onlyChanges_upPair p f⟩

/-! The bytes of a feed. -/

theorem foldl_leBytes_one {α : Type} (g : α → Byte → α) (a : α) (v : Nat) :
    (leBytes 1 v).foldl g a = g a (BitVec.ofNat 8 v) := rfl

theorem foldl_leBytes_two {α : Type} (g : α → Byte → α) (a : α) (v : Nat) :
    (leBytes 2 v).foldl g a = g (g a (BitVec.ofNat 8 v)) (BitVec.ofNat 8 (v / 256)) := rfl

/-! The peripheral's three operations. -/

/-- INIT on a pair that there is. -/
theorem crcInit_eq_upPair {p : Nat} (hp : p < 2) (s : State) :
    crcInit p s = s.upPair p fun q => { q with crc := 0xFFFFFFFF } := by
  rw [crcInit, Nat.mod_eq_of_lt hp]

/-- A feed of a pair that there is. -/
theorem crcFeed_eq_upPair {p : Nat} (hp : p < 2) (n v : Nat) (s : State) :
    crcFeed p n v s = s.upPair p fun q => { q with crc := (leBytes n v).foldl crcByte q.crc } := by
  rw [crcFeed, Nat.mod_eq_of_lt hp]

/-- INIT sets the pair's state to all ones and changes nothing else. -/
theorem crcInit_spec {p : Nat} (hp : p < 2) (s : State) :
    (crcInit p s).carPair p = { s.carPair p with crc := 0xFFFFFFFF } ∧
      (crcInit p s).carPair (1 - p) = s.carPair (1 - p) ∧ s.onlyChanges (crcInit p s) [.car] := by
  rw [crcInit_eq_upPair hp]
  exact s.upPair_spec hp _

/-- A feed takes the value's bytes, the lowest first, into the pair's state and changes nothing else. -/
theorem crcFeed_spec {p : Nat} (hp : p < 2) (n v : Nat) (s : State) :
    (crcFeed p n v s).carPair p = { s.carPair p with crc := (leBytes n v).foldl crcByte (s.carPair p).crc } ∧
      (crcFeed p n v s).carPair (1 - p) = s.carPair (1 - p) ∧ s.onlyChanges (crcFeed p n v s) [.car] := by
  rw [crcFeed_eq_upPair hp]
  exact s.upPair_spec hp _

theorem crcInit_crc {p : Nat} (hp : p < 2) (s : State) : ((crcInit p s).carPair p).crc = 0xFFFFFFFF := by
  rw [(crcInit_spec hp s).1]

theorem crcFeed_crc {p : Nat} (hp : p < 2) (n v : Nat) (s : State) :
    ((crcFeed p n v s).carPair p).crc = (leBytes n v).foldl crcByte (s.carPair p).crc := by
  rw [(crcFeed_spec hp n v s).1]

@[simp] theorem crcInit_out (p : Nat) (s : State) : (crcInit p s).out = s.out := rfl

@[simp] theorem crcFeed_out (p n v : Nat) (s : State) : (crcFeed p n v s).out = s.out := rfl

/-- A read of the result returns the state inverted. -/
theorem crcResult_out {p : Nat} (hp : p < 2) (s : State) :
    (crcResult p s).out =
      s.out ++ [.readData (pairReq p) (0x10000010 + 0x1000 * p) ((s.carPair p).crc ^^^ 0xFFFFFFFF)] := by
  rw [crcResult, Nat.mod_eq_of_lt hp]
  rfl

/-- A read of the result leaves the peripheral as it is. -/
theorem onlyChanges_crcResult (p : Nat) (s : State) : s.onlyChanges (crcResult p s) [.out] :=
  s.onlyChanges_emit _ (by decide)

/-! The worked example. -/

/-- The test string "123456789" of R470, in ASCII. -/
def crcTestString : Bytes := [0x31, 0x32, 0x33, 0x34, 0x35, 0x36, 0x37, 0x38, 0x39]

/-- Two words and a byte hold the test string, the lowest byte first. -/
theorem leBytes_crcTestString : leBytes 4 0x34333231 ++ leBytes 4 0x38373635 ++ leBytes 1 0x39 = crcTestString := by decide

theorem crc32c_crcTestString : crc32c crcTestString = 0xE3069283 := by decide +kernel

/-- The state after INIT and the worked example's feeds. -/
def crcTestFed (p : Nat) (s : State) : State :=
  crcFeed p 1 0x39 (crcFeed p 4 0x38373635 (crcFeed p 4 0x34333231 (crcInit p s)))

theorem crcTestFed_out (p : Nat) (s : State) : (crcTestFed p s).out = s.out := by
  simp only [crcTestFed, crcFeed_out, crcInit_out]

/-- INIT and the feeds take in the test string, from any state. -/
theorem crcTestFed_crc {p : Nat} (hp : p < 2) (s : State) :
    ((crcTestFed p s).carPair p).crc = crcTestString.foldl crcByte 0xFFFFFFFF := by
  rw [crcTestFed, crcFeed_crc hp, crcFeed_crc hp, crcFeed_crc hp, crcInit_crc hp, ← List.foldl_append, ← List.foldl_append,
    ← List.append_assoc, leBytes_crcTestString]

/-- The worked example's result. -/
theorem crcResult_crcTestFed_out {p : Nat} (hp : p < 2) (s : State) :
    (crcResult p (crcTestFed p s)).out = s.out ++ [.readData (pairReq p) (0x10000010 + 0x1000 * p) 0xE3069283] := by
  have hread : ((crcTestFed p s).carPair p).crc ^^^ 0xFFFFFFFF = 0xE3069283 := by
    rw [crcTestFed_crc hp, ← crc32c, crc32c_crcTestString]
  rw [crcResult_out hp, hread, crcTestFed_out]

/-- Settles O45: INIT and each feed update the pair's own state, and the result reads it inverted. -/
theorem crcPeripheralComputesCrc32c : Obligations.CrcPeripheralComputesCrc32c := by
  intro s p hp
  exact ⟨⟨crcInit p s, rfl, crcInit_spec hp s⟩,
    fun v => ⟨crcFeed p 1 v s, rfl, foldl_leBytes_one crcByte _ v ▸ crcFeed_spec hp 1 v s⟩,
    fun v => ⟨crcFeed p 2 v s, rfl, foldl_leBytes_two crcByte _ v ▸ crcFeed_spec hp 2 v s⟩,
    fun v => ⟨crcFeed p 4 v s, rfl, crcFeed_spec hp 4 v s⟩,
    ⟨crcResult p s, 0x10000010 + 0x1000 * p, rfl, onlyChanges_crcResult p s, crcResult_out hp s⟩,
    fun _ => rfl,
    ⟨crcResult p (crcTestFed p s), 0x10000010 + 0x1000 * p, rfl, crcResult_crcTestFed_out hp s⟩⟩

end Sys2Proof.Machine
end

section
/-!
PROOF. Soundness is an invariant: what each command does keeps it (Laws/Sound), so a step does, whether it runs a command or lets a cycle pass.
-/
namespace Sys2Proof.Machine

/-- Every command answers a sound next state from a sound state: its meaning keeps soundness. -/
theorem exec_sound (c : Instr) {s : State} (hs : s.sound = true) : ∃ t, exec c s = .next t ∧ t.sound = true := by
  match c with
  | .registerWrite _ _ _ _ => exact ⟨_, rfl, registerWrite_sound _ _ _ _ _ hs⟩
  | .registerReadClear _ _ => exact ⟨_, rfl, registerRead_sound _ _ _ hs⟩
  | .loLatchRead _ _ => exact ⟨_, rfl, loLatchRead_sound _ _ _ hs⟩
  | .unmappedAccess _ _ _ => exact ⟨_, rfl, unmappedAccess_sound _ _ _ _ hs⟩
  | .d2dLaneRepair _ => exact ⟨_, rfl, d2dLaneRepair_sound _ _ hs⟩
  | .d2dLinkFail _ => exact ⟨_, rfl, d2dLinkFail_sound _ _ hs⟩
  | .taborRealign => exact ⟨_, rfl, taborRealign_sound _ hs⟩
  | .frameReceive _ _ => exact ⟨_, rfl, frameReceive_sound _ _ _ hs⟩
  | .schedulerMatch => exact ⟨_, rfl, schedulerMatch_sound _ hs⟩
  | .egressEnqueue _ => exact ⟨_, rfl, egressEnqueue_sound _ _ hs⟩
  | .portSelect _ _ => exact ⟨_, rfl, portSelect_sound _ _ _ hs⟩
  | .packetHoldExpire => exact ⟨_, rfl, packetHoldExpire_sound _ hs⟩
  | .read => exact ⟨_, rfl, read__sound _ hs⟩
  | .write => exact ⟨_, rfl, write__sound _ hs⟩
  | .writeFenced => exact ⟨_, rfl, writeFenced_sound _ hs⟩
  | .writePerformed _ _ => exact ⟨_, rfl, writePerformed_sound _ _ _ hs⟩
  | .atomic => exact ⟨_, rfl, atomic_sound _ hs⟩
  | .historyExpire _ => exact ⟨_, rfl, historyExpire_sound _ _ hs⟩
  | .engineResponse => exact ⟨_, rfl, engineResponse_sound _ hs⟩
  | .engineTimeout _ => exact ⟨_, rfl, engineTimeout_sound _ _ hs⟩
  | .fenceTrackTimeout _ _ _ => exact ⟨_, rfl, fenceTrackTimeout_sound _ _ _ _ hs⟩
  | .beatSend _ => exact ⟨_, rfl, beatSend_sound _ _ hs⟩
  | .beatMiss _ => exact ⟨_, rfl, beatMiss_sound _ _ hs⟩
  | .linkDown _ _ => exact ⟨_, rfl, linkDown_sound _ _ _ hs⟩
  | .fabDeadClear _ _ _ => exact ⟨_, rfl, fabDeadClear_sound _ _ _ _ hs⟩
  | .linkRetrain _ _ => exact ⟨_, rfl, linkRetrain_sound _ _ _ hs⟩
  | .linkTrained _ _ => exact ⟨_, rfl, linkTrained_sound _ _ _ hs⟩
  | .linkSecure _ _ => exact ⟨_, rfl, linkSecure_sound _ _ _ hs⟩
  | .ccWindowEnd => exact ⟨_, rfl, ccWindowEnd_sound _ hs⟩
  | .linkBeat _ => exact ⟨_, rfl, linkBeat_sound _ _ hs⟩
  | .linkSpdm _ => exact ⟨_, rfl, linkSpdm_sound _ _ hs⟩
  | .keyUpdateStart _ _ => exact ⟨_, rfl, keyUpdateStart_sound _ _ _ hs⟩
  | .keySwitch _ => exact ⟨_, rfl, keySwitch_sound _ _ hs⟩
  | .keyAck _ => exact ⟨_, rfl, keyAck_sound _ _ hs⟩
  | .trayLinkDown _ => exact ⟨_, rfl, trayLinkDown_sound _ _ hs⟩
  | .alloc _ => exact ⟨_, rfl, alloc_sound _ _ hs⟩
  | .free _ => exact ⟨_, rfl, free_sound _ _ hs⟩
  | .migrate _ => exact ⟨_, rfl, migrate_sound _ _ hs⟩
  | .evict _ => exact ⟨_, rfl, evict_sound _ _ hs⟩
  | .advise _ => exact ⟨_, rfl, advise_sound _ _ hs⟩
  | .prefixMark _ => exact ⟨_, rfl, prefixMark_sound _ _ hs⟩
  | .prefixRef _ => exact ⟨_, rfl, prefixRef_sound _ _ hs⟩
  | .prefixUnref _ => exact ⟨_, rfl, prefixUnref_sound _ _ hs⟩
  | .fill _ _ => exact ⟨_, rfl, fill_sound _ _ _ hs⟩
  | .copy _ _ => exact ⟨_, rfl, copy_sound _ _ _ hs⟩
  | .compare _ _ => exact ⟨_, rfl, compare__sound _ _ _ hs⟩
  | .reduceInPlace _ _ => exact ⟨_, rfl, reduceInPlace_sound _ _ _ hs⟩
  | .moveCopyStep _ => exact ⟨_, rfl, moveCopyStep_sound _ _ hs⟩
  | .moveCommit _ => exact ⟨_, rfl, moveCommit_sound _ _ hs⟩
  | .moveDrainTimeout _ => exact ⟨_, rfl, moveDrainTimeout_sound _ _ hs⟩
  | .scrubDone _ => exact ⟨_, rfl, State.fenResetEnd_sound _ (scrubDone_sound _ _ hs)⟩
  | .poolFence _ _ => exact ⟨_, rfl, State.window_sound _ _ _ _ hs fun _ h => State.fenceFen_sound _ _ h⟩
  | .leaseHeartbeat => exact ⟨_, rfl, leaseHeartbeat_sound _ hs⟩
  | .leaseWordWrite => exact ⟨_, rfl, leaseWordWrite_sound _ hs⟩
  | .leaseExpire _ => exact ⟨_, rfl, leaseExpire_sound _ _ hs⟩
  | .xlateAnswer => exact ⟨_, rfl, xlateAnswer_sound _ hs⟩
  | .xlateTimeout _ => exact ⟨_, rfl, xlateTimeout_sound _ _ hs⟩
  | .extRead _ => exact ⟨_, rfl, State.window_sound _ _ _ _ hs fun _ h => State.extRead_sound _ (State.wr_sound _ _ _ _ _ h)⟩
  | .extFind _ => exact ⟨_, rfl, State.window_sound _ _ _ _ hs fun _ h => State.extFind_sound _ (State.wr_sound _ _ _ _ _ h)⟩
  | .extCreate _ => exact ⟨_, rfl, State.window_sound _ _ _ _ hs fun _ h => State.extCreate_sound _ (State.wr_sound _ _ _ _ _ h)⟩
  | .extCreateHost _ => exact ⟨_, rfl, State.window_sound _ _ _ _ hs fun _ h => State.extCreateHost_sound _ (State.wr_sound _ _ _ _ _ h)⟩
  | .extFree _ => exact ⟨_, rfl, State.window_sound _ _ _ _ hs fun _ h => State.extFree_sound _ (State.wr_sound _ _ _ _ _ h)⟩
  | .rgnRead _ => exact ⟨_, rfl, State.window_sound _ _ _ _ hs fun _ h => State.rgnRead_sound _ (State.wr_sound _ _ _ _ _ h)⟩
  | .rgnCreate _ => exact ⟨_, rfl, State.window_sound _ _ _ _ hs fun _ h => State.rgnCreate_sound _ (State.wr_sound _ _ _ _ _ h)⟩
  | .rgnUpdate _ => exact ⟨_, rfl, State.window_sound _ _ _ _ hs fun _ h => State.rgnUpdate_sound _ (State.wr_sound _ _ _ _ _ h)⟩
  | .rgnFence _ => exact ⟨_, rfl, State.window_sound _ _ _ _ hs fun _ h => State.rgnFence_sound _ (State.wr_sound _ _ _ _ _ h)⟩
  | .rgnDelete _ => exact ⟨_, rfl, State.window_sound _ _ _ _ hs fun _ h => State.rgnDelete_sound _ (State.wr_sound _ _ _ _ _ h)⟩
  | .rgnReadClient _ => exact ⟨_, rfl, State.window_sound _ _ _ _ hs fun _ h => State.rgnReadClient_sound _ (State.wr_sound _ _ _ _ _ h)⟩
  | .rgnWriteClient _ => exact ⟨_, rfl, State.window_sound _ _ _ _ hs fun _ h => State.rgnWriteClient_sound _ (State.wr_sound _ _ _ _ _ h)⟩
  | .reduceContrib _ => exact ⟨_, rfl, reduceContrib_sound _ _ hs⟩
  | .reducePartial _ => exact ⟨_, rfl, reducePartial_sound _ _ hs⟩
  | .reduceResult _ => exact ⟨_, rfl, reduceResult_sound _ _ hs⟩
  | .reduceSlotGrant _ => exact ⟨_, rfl, reduceSlotGrant_sound _ _ hs⟩
  | .reduceDeadline _ _ => exact ⟨_, rfl, reduceDeadline_sound _ _ _ hs⟩
  | .reduceKeepExpire _ _ => exact ⟨_, rfl, reduceKeepExpire_sound _ _ _ hs⟩
  | .redTreeRead _ => exact ⟨_, rfl, State.window_sound _ _ _ _ hs fun _ h => State.treeRead_sound _ h⟩
  | .chain _ _ => exact ⟨_, rfl, chain_sound _ _ _ hs⟩
  | .gatherReq => exact ⟨_, rfl, gatherReq_sound _ hs⟩
  | .checkInject _ _ => exact ⟨_, rfl, State.window_sound _ _ _ _ hs fun _ h => checkInjectOp_sound _ _ _ h⟩
  | .append _ _ => exact ⟨_, rfl, append_sound _ _ _ hs⟩
  | .step => exact ⟨_, rfl, step__sound _ hs⟩
  | .stepRecord _ _ => exact ⟨_, rfl, stepRecord_sound _ _ _ hs⟩
  | .stepMsgTimeout _ => exact ⟨_, rfl, stepMsgTimeout_sound _ _ hs⟩
  | .arenaRead _ => exact ⟨_, rfl, State.attWindow_sound _ _ _ _ hs fun _ h => State.arRead_sound _ (State.wr_sound _ _ _ _ _ h)⟩
  | .arenaRegister _ => exact ⟨_, rfl, State.attWindow_sound _ _ _ _ hs fun _ h => State.arRegister_sound _ (State.wr_sound _ _ _ _ _ h)⟩
  | .arenaUnregister _ => exact ⟨_, rfl, State.attWindow_sound _ _ _ _ hs fun _ h => State.arUnregister_sound _ (State.wr_sound _ _ _ _ _ h)⟩
  | .pageScrubDone _ _ => exact ⟨_, rfl, pageScrubDone_sound _ _ _ hs⟩
  | .stepOpen => exact ⟨_, rfl, stepOpen_sound _ hs⟩
  | .seqJoin _ => exact ⟨_, rfl, seqJoin_sound _ _ hs⟩
  | .seqLeave _ => exact ⟨_, rfl, seqLeave_sound _ _ hs⟩
  | .seqResume _ => exact ⟨_, rfl, seqResume_sound _ _ hs⟩
  | .pageRelease _ => exact ⟨_, rfl, pageRelease_sound _ _ hs⟩
  | .sqtGrpRead _ => exact ⟨_, rfl, State.attWindow_sound _ _ _ _ hs fun _ h => State.grpRead_sound _ (State.wr_sound _ _ _ _ _ h)⟩
  | .sqtGrpReset _ => exact ⟨_, rfl, State.attWindow_sound _ _ _ _ hs fun _ h => State.grpReset_sound _ (State.wr_sound _ _ _ _ _ h)⟩
  | .sqtEntRead _ => exact ⟨_, rfl, State.attWindow_sound _ _ _ _ hs fun _ h => State.entRead_sound _ (State.wr_sound _ _ _ _ _ h)⟩
  | .drop _ => exact ⟨_, rfl, State.attWindow_sound _ _ _ _ hs fun _ h => State.entDrop_sound _ (State.wr_sound _ _ _ _ _ h)⟩
  | .dropFen _ => exact ⟨_, rfl, State.attWindow_sound _ _ _ _ hs fun _ h => State.entDropFen_sound _ (State.wr_sound _ _ _ _ _ h)⟩
  | .sqDoorbell => exact ⟨_, rfl, sqDoorbell_sound _ hs⟩
  | .cqDoorbell => exact ⟨_, rfl, cqDoorbell_sound _ hs⟩
  | .ringStateRead => exact ⟨_, rfl, ringStateRead_sound _ hs⟩
  | .command => exact ⟨_, rfl, command_sound _ hs⟩
  | .descriptorFetch => exact ⟨_, rfl, descriptorFetch_sound _ hs⟩
  | .stagingAdmit _ => exact ⟨_, rfl, stagingAdmit_sound _ _ hs⟩
  | .nop _ => exact ⟨_, rfl, nop_sound _ _ hs⟩
  | .reduce _ _ => exact ⟨_, rfl, reduce_sound _ _ _ hs⟩
  | .chunkDispatch _ => exact ⟨_, rfl, chunkDispatch_sound _ _ hs⟩
  | .chunkCommit _ => exact ⟨_, rfl, chunkCommit_sound _ _ hs⟩
  | .chunkAge _ _ => exact ⟨_, rfl, chunkAge_sound _ _ _ hs⟩
  | .shieldLapse _ => exact ⟨_, rfl, shieldLapse_sound _ _ hs⟩
  | .ringRead _ => exact ⟨_, rfl, State.window_sound _ _ _ _ hs fun _ h => State.ringRead_sound _ (State.wr_sound _ _ _ _ _ h)⟩
  | .ringRegister _ => exact ⟨_, rfl, State.window_sound _ _ _ _ hs fun _ h => State.ringRegister_sound _ (State.wr_sound _ _ _ _ _ h)⟩
  | .ringUnregister _ => exact ⟨_, rfl, State.window_sound _ _ _ _ hs fun _ h => State.ringUnregister_sound _ (State.wr_sound _ _ _ _ _ h)⟩
  | .ringReset _ => exact ⟨_, rfl, State.window_sound _ _ _ _ hs fun _ h => State.ringReset_sound _ (State.wr_sound _ _ _ _ _ h)⟩
  | .ckpOpen _ _ => exact ⟨_, rfl, ckpOpen_sound _ _ _ hs⟩
  | .ckpEncode _ _ => exact ⟨_, rfl, ckpEncodeChunk_sound _ _ _ hs⟩
  | .ckpSeal _ _ => exact ⟨_, rfl, ckpSeal_sound _ _ _ hs⟩
  | .ckpParity _ _ => exact ⟨_, rfl, ckpParity_sound _ _ _ hs⟩
  | .ckpCommit _ _ => exact ⟨_, rfl, ckpCommit_sound _ _ _ hs⟩
  | .ckpDecode _ _ => exact ⟨_, rfl, ckpDecodeChunk_sound _ _ _ hs⟩
  | .ckpRebuild _ _ => exact ⟨_, rfl, ckpRebuild_sound _ _ _ hs⟩
  | .ckpVerify _ _ => exact ⟨_, rfl, ckpVerify_sound _ _ _ hs⟩
  | .ckpHeaderPoll _ => exact ⟨_, rfl, ckpHeaderPoll_sound _ _ hs⟩
  | .ckpSetRead _ => exact ⟨_, rfl, State.window_sound _ _ _ _ hs fun _ h => State.ckpSetRead_sound _ (State.wr_sound _ _ _ _ _ h)⟩
  | .ckpSetRegister _ => exact ⟨_, rfl, State.window_sound _ _ _ _ hs fun _ h => State.ckpSetRegister_sound _ (State.wr_sound _ _ _ _ _ h)⟩
  | .ckpSetUnregister _ => exact ⟨_, rfl, State.window_sound _ _ _ _ hs fun _ h => State.ckpSetUnregister_sound _ (State.wr_sound _ _ _ _ _ h)⟩
  | .rteRead _ => exact ⟨_, rfl, State.window_sound _ _ _ _ hs fun _ h => State.rteOp_sound _ _ h⟩
  | .rteWrite _ => exact ⟨_, rfl, State.window_sound _ _ _ _ hs fun _ h => State.rteOp_sound _ _ h⟩
  | .rteCopy _ => exact ⟨_, rfl, State.window_sound _ _ _ _ hs fun _ h => State.rteOp_sound _ _ h⟩
  | .swap _ _ => exact ⟨_, rfl, State.window_sound _ _ _ _ hs fun _ h => State.rteOpRebuild_sound _ _ _ h⟩
  | .swapAt _ _ => exact ⟨_, rfl, State.window_sound _ _ _ _ hs fun _ h => State.rteOpRebuild_sound _ _ _ h⟩
  | .cancel _ => exact ⟨_, rfl, State.window_sound _ _ _ _ hs fun _ h => State.rteOp_sound _ _ h⟩
  | .swapActivate => exact ⟨_, rfl, swapActivate_sound _ hs⟩
  | .captureEnable _ _ _ => exact ⟨_, rfl, State.window_sound _ _ _ _ hs fun _ h => State.capCtlOp_sound _ _ _ _ h⟩
  | .captureDisable _ _ _ => exact ⟨_, rfl, State.window_sound _ _ _ _ hs fun _ h => State.capCtlOp_sound _ _ _ _ h⟩
  | .gateEntryBoundary _ => exact ⟨_, rfl, gateEntryBoundary_sound _ _ hs⟩
  | .gateTakeover _ => exact ⟨_, rfl, gateTakeover_sound _ _ hs⟩
  | .timeReqSend _ => exact ⟨_, rfl, timeReqSend_sound _ _ hs⟩
  | .timeReq _ => exact ⟨_, rfl, timeReq_sound _ _ hs⟩
  | .timeRsp _ => exact ⟨_, rfl, timeRsp_sound _ _ hs⟩
  | .timeRspTimeout _ => exact ⟨_, rfl, timeRspTimeout_sound _ _ hs⟩
  | .servoHoldover => exact ⟨_, rfl, servoHoldover_sound _ hs⟩
  | .hostSample _ _ => exact ⟨_, rfl, hostSample_sound _ _ _ hs⟩
  | .taborSet _ _ => exact ⟨_, rfl, taborSet_sound _ _ _ hs⟩
  | .ptmDialogue _ => exact ⟨_, rfl, ptmDialogue_sound _ _ hs⟩
  | .ptmResponse _ _ => exact ⟨_, rfl, ptmResponse_sound _ _ _ hs⟩
  | .ptmTimeout => exact ⟨_, rfl, ptmTimeout_sound _ hs⟩
  | .ppsOut => exact ⟨_, rfl, ppsOut_sound _ hs⟩
  | .ppsIn => exact ⟨_, rfl, ppsIn_sound _ hs⟩
  | .sleep _ => exact ⟨_, rfl, sleepMsg_sound _ _ hs⟩
  | .sleepAck _ => exact ⟨_, rfl, sleepAck_sound _ _ hs⟩
  | .sleepNak _ => exact ⟨_, rfl, sleepNak_sound _ _ hs⟩
  | .sleepPropose _ _ => exact ⟨_, rfl, sleepPropose_sound _ _ _ hs⟩
  | .sleepRequest _ _ => exact ⟨_, rfl, sleepRequest_sound _ _ _ hs⟩
  | .sleepEnter _ _ => exact ⟨_, rfl, sleepEnter_sound _ _ _ hs⟩
  | .wakeStart _ => exact ⟨_, rfl, wakeStart_sound _ _ hs⟩
  | .wake _ => exact ⟨_, rfl, wake_sound _ _ hs⟩
  | .missedWake _ => exact ⟨_, rfl, missedWake_sound _ _ hs⟩
  | .timeFaultClear _ _ => exact ⟨_, rfl, timeFaultClear_sound _ _ _ hs⟩
  | .shpPolRead _ => exact ⟨_, rfl, shpPolRead_sound _ _ hs⟩
  | .rdS _ _ => exact ⟨_, rfl, rdS_sound _ _ _ hs⟩
  | .rdX _ _ => exact ⟨_, rfl, rdX_sound _ _ _ hs⟩
  | .upg _ _ => exact ⟨_, rfl, upg_sound _ _ _ hs⟩
  | .rdNa _ _ => exact ⟨_, rfl, rdNa_sound _ _ _ hs⟩
  | .wrNa _ _ _ _ => exact ⟨_, rfl, wrNa_sound _ _ _ _ _ hs⟩
  | .wb _ _ _ => exact ⟨_, rfl, wb_sound _ _ _ _ hs⟩
  | .snoopResponse _ _ _ _ => exact ⟨_, rfl, snoopResponse_sound _ _ _ _ _ hs⟩
  | .data _ _ => exact ⟨_, rfl, cohData_sound _ _ _ hs⟩
  | .done _ _ => exact ⟨_, rfl, cohDone_sound _ _ _ hs⟩
  | .cohReissue _ _ => exact ⟨_, rfl, cohReissue_sound _ _ _ hs⟩
  | .ringFlitUe _ => exact ⟨_, rfl, ringFlitUe_sound _ _ hs⟩
  | .agentHeartbeatMiss _ => exact ⟨_, rfl, agentHeartbeatMiss_sound _ _ hs⟩
  | .cohTxnTimeout _ _ => exact ⟨_, rfl, cohTxnTimeout_sound _ _ _ hs⟩
  | .sramRefresh _ => exact ⟨_, rfl, sramRefresh_sound _ _ hs⟩
  | .arbBite _ _ _ _ _ _ => exact ⟨_, rfl, arbBite_sound _ _ _ _ _ _ _ hs⟩
  | .cohLineRead _ => exact ⟨_, rfl, State.window_sound _ _ _ _ hs fun _ h => State.cohLineOp_sound _ h⟩
  | .getVersion _ => exact ⟨_, rfl, getVersion_sound _ _ hs⟩
  | .getCapabilities _ => exact ⟨_, rfl, getCapabilities_sound _ _ hs⟩
  | .negotiateAlgorithms _ => exact ⟨_, rfl, negotiateAlgorithms_sound _ _ hs⟩
  | .getDigests => exact ⟨_, rfl, getDigests_sound _ hs⟩
  | .getCertificate _ _ _ => exact ⟨_, rfl, getCertificate_sound _ _ _ _ hs⟩
  | .challenge _ _ => exact ⟨_, rfl, challenge_sound _ _ _ hs⟩
  | .getMeasurements _ _ => exact ⟨_, rfl, getMeasurements_sound _ _ _ hs⟩
  | .keyExchange _ => exact ⟨_, rfl, keyExchange_sound _ _ hs⟩
  | .finish _ _ _ => exact ⟨_, rfl, finishSession_sound _ _ _ _ hs⟩
  | .spdmHeartbeat _ => exact ⟨_, rfl, spdmHeartbeat_sound _ _ hs⟩
  | .sessionHeartbeatLoss _ => exact ⟨_, rfl, sessionHeartbeatLoss_sound _ _ hs⟩
  | .keyUpdate _ _ => exact ⟨_, rfl, keyUpdate_sound _ _ _ hs⟩
  | .endSession _ => exact ⟨_, rfl, endSessionRow_sound _ _ hs⟩
  | .imageLoad _ _ _ _ _ => exact ⟨_, rfl, imageLoad_sound _ _ _ _ _ _ hs⟩
  | .imageValidationDone => exact ⟨_, rfl, imageValidationDone_sound _ hs⟩
  | .fenImageApply => exact ⟨_, rfl, fenImageApplyRow_sound _ hs⟩
  | .fwUpdateBegin _ _ _ => exact ⟨_, rfl, fwBegin_sound _ _ _ _ hs⟩
  | .fwEraseDone => exact ⟨_, rfl, fwEraseDone_sound _ hs⟩
  | .fwUpdateData _ _ _ _ _ => exact ⟨_, rfl, fwData_sound _ _ _ _ _ _ hs⟩
  | .fwUpdateVerify _ _ => exact ⟨_, rfl, fwVerify_sound _ _ _ hs⟩
  | .fwUpdateActivate _ _ => exact ⟨_, rfl, fwActivate_sound _ _ _ hs⟩
  | .fwUpdateAbort _ _ => exact ⟨_, rfl, fwAbort_sound _ _ _ hs⟩
  | .usage _ _ _ => exact ⟨_, rfl, usage_sound _ _ _ _ hs⟩
  | .keySlot _ _ _ _ => exact ⟨_, rfl, keySlot_sound _ _ _ _ _ hs⟩
  | .policy _ _ _ _ _ => exact ⟨_, rfl, policyRow_sound _ _ _ _ _ _ hs⟩
  | .debugUnlock _ _ => exact ⟨_, rfl, debugUnlock_sound _ _ _ hs⟩
  | .custodianRead _ _ => exact ⟨_, rfl, custodianRead_sound _ _ _ hs⟩
  | .custodianInstall _ _ _ => exact ⟨_, rfl, custodianInstall_sound _ _ _ _ hs⟩
  | .custodianSwitch _ _ _ _ => exact ⟨_, rfl, custodianSwitch_sound _ _ _ _ _ hs⟩
  | .custodianRelease _ _ _ => exact ⟨_, rfl, custodianRelease_sound _ _ _ _ hs⟩
  | .scrubComplete => exact ⟨_, rfl, scrubComplete_sound _ hs⟩
  | .operatorSet _ _ _ _ _ => exact ⟨_, rfl, operatorSet_sound _ _ _ _ _ _ hs⟩
  | .decommission _ _ => exact ⟨_, rfl, decommission_sound _ _ _ hs⟩
  | .trngFail _ => exact ⟨_, rfl, trngFail_sound _ _ hs⟩
  | .ideFail _ => exact ⟨_, rfl, ideFail_sound _ _ hs⟩
  | .lockInterface _ => exact ⟨_, rfl, lockInterface_sound _ _ hs⟩
  | .getDeviceInterfaceReport _ => exact ⟨_, rfl, getDeviceInterfaceReport_sound _ _ hs⟩
  | .startInterface _ => exact ⟨_, rfl, startInterface_sound _ _ hs⟩
  | .stopInterface _ => exact ⟨_, rfl, stopInterface_sound _ _ hs⟩
  | .canaryCheck _ _ => exact ⟨_, rfl, canaryCheck_sound _ _ _ hs⟩
  | .sentinelCheck _ _ => exact ⟨_, rfl, sentinelCheck_sound _ _ _ hs⟩
  | .hubLogicMismatch _ => exact ⟨_, rfl, hubLogicMismatch_sound _ _ hs⟩
  | .stackPatrol _ _ => exact ⟨_, rfl, stackPatrol_sound _ _ _ hs⟩
  | .clusterFault _ _ => exact ⟨_, rfl, clusterFaultRow_sound _ _ _ hs⟩
  | .chunkWatchdog _ => exact ⟨_, rfl, chunkWatchdog_sound _ _ hs⟩
  | .clusterTestDone _ _ => exact ⟨_, rfl, clusterTestDone_sound _ _ _ hs⟩
  | .spareBistDone _ _ => exact ⟨_, rfl, spareBistDone_sound _ _ _ hs⟩
  | .mapClear _ _ => exact ⟨_, rfl, mapClear_sound _ _ _ hs⟩
  | .scoreTick => exact ⟨_, rfl, scoreTick_sound _ hs⟩
  | .scorePersist => exact ⟨_, rfl, scorePersist_sound _ hs⟩
  | .scoreRead _ => exact ⟨_, rfl, State.window_sound _ _ _ _ hs fun _ h => State.scoreOp_sound _ _ h⟩
  | .scoreClear _ => exact ⟨_, rfl, State.window_sound _ _ _ _ hs fun _ h => State.scoreOp_sound _ _ h⟩
  | .coalesceFlush => exact ⟨_, rfl, coalesceFlush_sound _ hs⟩
  | .eqModeration => exact ⟨_, rfl, eqModeration_sound _ hs⟩
  | .refclkLoss _ => exact ⟨_, rfl, refclkLoss_sound _ _ hs⟩
  | .refclkGood _ _ => exact ⟨_, rfl, refclkGood_sound _ _ _ hs⟩
  | .bothRefsLost _ => exact ⟨_, rfl, bothRefsLost_sound _ _ hs⟩
  | .powerOn _ => exact ⟨_, rfl, powerOn_sound _ _ hs⟩
  | .bringupHwFail _ _ => exact ⟨_, rfl, bringupHwFail_sound _ _ _ hs⟩
  | .resetN _ => exact ⟨_, rfl, resetN_sound _ _ hs⟩
  | .perstN => exact ⟨_, rfl, State.resetLink_sound _ hs⟩
  | .pwrgoodFall => exact ⟨_, rfl, pwrgoodFall_sound _ hs⟩
  | .warm _ _ _ _ => exact ⟨_, rfl, warm_sound _ _ _ _ _ hs⟩
  | .fatalAutoRestart _ => exact ⟨_, rfl, fatalAutoRestart_sound _ _ hs⟩
  | .trayEnumeration _ => exact ⟨_, rfl, trayEnumeration_sound _ _ hs⟩
  | .traySanitizeDone _ _ => exact ⟨_, rfl, traySanitizeDone_sound _ _ _ hs⟩
  | .traySanitizeTimeout _ => exact ⟨_, rfl, traySanitizeTimeout_sound _ _ hs⟩
  | .continue _ _ => exact ⟨_, rfl, continueRow_sound _ _ _ hs⟩
  | .apply => exact ⟨_, rfl, apply_sound _ hs⟩
  | .portsTrained => exact ⟨_, rfl, portsTrained_sound _ hs⟩
  | .fenReset _ _ => exact ⟨_, rfl, fenReset_sound _ _ _ hs⟩
  | .quiesce _ _ _ => exact ⟨_, rfl, quiesce_sound _ _ _ _ hs⟩
  | .fenQuiesced _ => exact ⟨_, rfl, fenQuiesced_sound _ _ hs⟩
  | .resume _ _ => exact ⟨_, rfl, resume_sound _ _ _ hs⟩
  | .lockstep _ => exact ⟨_, rfl, lockstep_sound _ _ hs⟩
  | .pairRestart _ => exact ⟨_, rfl, pairRestart_sound _ _ hs⟩
  | .carWatchdog _ => exact ⟨_, rfl, carWatchdog_sound _ _ hs⟩
  | .carLwdtKick _ => exact ⟨_, rfl, carKick_sound _ _ hs⟩
  | .accessFaultRetry _ _ _ => exact ⟨_, rfl, accessFaultRetry_sound _ _ _ _ hs⟩
  | .fwConfirm => exact ⟨_, rfl, fwConfirm_sound _ hs⟩
  | .crcInit _ => exact ⟨_, rfl, crcInit_sound _ _ hs⟩
  | .carCrcB _ _ => exact ⟨_, rfl, crcFeed_sound _ _ _ _ hs⟩
  | .carCrcH _ _ => exact ⟨_, rfl, crcFeed_sound _ _ _ _ hs⟩
  | .carCrcW _ _ => exact ⟨_, rfl, crcFeed_sound _ _ _ _ hs⟩
  | .carCrcResult _ => exact ⟨_, rfl, crcResult_sound _ _ hs⟩
  | .getInfo _ => exact ⟨_, rfl, getInfo_sound _ _ hs⟩
  | .sensorRead _ => exact ⟨_, rfl, sensorRead_sound _ _ hs⟩
  | .powerRead _ => exact ⟨_, rfl, powerRead_sound _ _ hs⟩
  | .powerCapSet _ => exact ⟨_, rfl, powerCapSet_sound _ _ hs⟩
  | .logRead _ => exact ⟨_, rfl, logRead_sound _ _ hs⟩
  | .fwStatus _ => exact ⟨_, rfl, fwStatus_sound _ _ hs⟩
  | .setEndpointId _ => exact ⟨_, rfl, setEndpointId_sound _ _ hs⟩
  | .getEndpointId => exact ⟨_, rfl, getEndpointId_sound _ hs⟩
  | .getMctpVersionSupport _ => exact ⟨_, rfl, getMctpVersion_sound _ _ hs⟩
  | .getMessageTypeSupport => exact ⟨_, rfl, getMessageTypes_sound _ hs⟩
  | .getVendorDefinedMessageSupport _ => exact ⟨_, rfl, getVendorMessages_sound _ _ hs⟩
  | .getPdr _ => exact ⟨_, rfl, getPdr_sound _ _ hs⟩
  | .getSensorReading _ => exact ⟨_, rfl, getSensorReading_sound _ _ hs⟩
  | .sensorSample _ => exact ⟨_, rfl, sensorSample_sound _ _ hs⟩
  | .tripResetHold => exact ⟨_, rfl, tripResetHold_sound _ hs⟩
  | .thermalStageExit _ => exact ⟨_, rfl, thermalStageExit_sound _ _ hs⟩
  | .vrHot _ => exact ⟨_, rfl, vrHot_sound _ _ hs⟩
  | .powerLoopTick => exact ⟨_, rfl, powerLoopTick_sound _ hs⟩
  | .regulatorRetry _ _ => exact ⟨_, rfl, regulatorRetry_sound _ _ _ hs⟩
  | .logPersist => exact ⟨_, rfl, logPersist_sound _ hs⟩
  | .semAcquire _ _ => exact ⟨_, rfl, semAcquire_sound _ _ _ hs⟩
  | .semRelease _ _ => exact ⟨_, rfl, semRelease_sound _ _ _ hs⟩
  | .semWait _ _ => exact ⟨_, rfl, semWait_sound _ _ _ hs⟩
  | .semTimeout _ => exact ⟨_, rfl, semTimeout_sound _ _ hs⟩
  | .semForced _ => exact ⟨_, rfl, semForced_sound _ _ hs⟩
  | .idcode => exact ⟨_, rfl, idcode_sound _ hs⟩
  | .bypass => exact ⟨_, rfl, bypass_sound _ hs⟩
  | .samplePreload _ => exact ⟨_, rfl, samplePreload_sound _ _ hs⟩
  | .extest _ => exact ⟨_, rfl, extest_sound _ _ hs⟩
  | .dtmcs _ => exact ⟨_, rfl, dtmcs_sound _ _ hs⟩
  | .dmi _ _ _ => exact ⟨_, rfl, dmi_sound _ _ _ _ hs⟩
  | .ivAddr _ => exact ⟨_, rfl, ivAddr_sound _ _ hs⟩
  | .ivData => exact ⟨_, rfl, ivData_sound _ hs⟩
  | .ivStat => exact ⟨_, rfl, ivStat_sound _ hs⟩
  | .ringLaneRepair _ => exact ⟨_, rfl, ringLaneRepair_sound _ _ hs⟩
  | .ideKm _ _ => exact ⟨_, rfl, ideKm_sound _ _ _ hs⟩
  | .managementLinkDown => exact ⟨_, rfl, managementLinkDown_sound _ hs⟩
  | .managementLinkUp => exact ⟨_, rfl, managementLinkUp_sound _ hs⟩
  | .lockedConfigurationChange => exact ⟨_, rfl, State.tdispError_sound _ hs⟩
  | .trayReadDeadline _ _ _ => exact ⟨_, rfl, trayReadDeadline_sound _ _ _ _ hs⟩
  | .trayReadTimeout _ => exact ⟨_, rfl, trayReadTimeout_sound _ _ hs⟩

/-- Taking a command from the queue keeps soundness. -/
theorem State.sound_dequeue {s : State} {c : Instr} {cs : List Instr} (hs : s.sound = true) (hp : s.pending = c :: cs) :
    ({ s with pending := cs } : State).sound = true := by
  rw [State.sound_iff, hp, List.all_cons, Bool.and_eq_true] at hs
  obtain ⟨hmem, htab, -, hqueue⟩ := hs
  exact (State.sound_iff _).mpr ⟨hmem, htab, hqueue⟩

/-- Settles O6: a step is a command, which keeps soundness, or a cycle, which does. -/
theorem soundnessIsKeptByEveryStep : Obligations.SoundnessIsKeptByEveryStep := by
  intro s t hs hstep
  unfold step at hstep
  split at hstep
  · injection hstep with ht
    exact ht ▸ State.tick_sound s hs
  · next c cs hp =>
    obtain ⟨u, hu, hsound⟩ := exec_sound c (State.sound_dequeue hs hp)
    rw [hu] at hstep
    injection hstep with ht
    exact ht ▸ hsound

end Sys2Proof.Machine
end

section
/-!
PROOF. The places of the register file.  Two fields are apart by their lowest bit, by the ranges of offsets that they span, by a residue that all
of a field's offsets share, or, in tables of one row length, by the part of the row that they take; one test says so of every two fields of the
table.
-/
namespace Sys2Proof.Machine

/-- The offset of the register that holds a field at a pair of indices. -/
def Fld.word (f : Fld) (i j : Nat) : Nat := f.base + f.s1 * i + f.s2 * j

/-- The last offset of a field. -/
def Fld.lastWord (f : Fld) : Nat := f.word (f.n1 - 1) (f.n2 - 1)

/-- A number that divides every stride of two fields. -/
def Fld.strideGcd (f g : Fld) : Nat := Nat.gcd (Nat.gcd f.s1 f.s2) (Nat.gcd g.s1 g.s2)

/-- The last offset of a field within its row, counted from the start of the row that its base lies in. -/
def Fld.lastInRow (f : Fld) : Nat := f.base % f.s1 + f.s2 * (f.n2 - 1)

/-- Whether two fields of tables with rows of one length take separate parts of the row. -/
def Fld.rowsApart (f g : Fld) : Bool :=
  f.s1 == g.s1 && decide (f.lastInRow < f.s1) && decide (g.lastInRow < g.s1) &&
    (decide (f.lastInRow < g.base % g.s1) || decide (g.lastInRow < f.base % f.s1))

/-- Whether the places of two fields are seen to be distinct. -/
def Fld.apart (f g : Fld) : Bool :=
  f.lo != g.lo || decide (f.lastWord < g.base) || decide (g.lastWord < f.base) ||
    f.base % f.strideGcd g != g.base % f.strideGcd g || f.rowsApart g

/-- Whether a field's own places are distinct: its second index stays within a row. -/
def Fld.placesDistinct (f : Fld) : Bool :=
  decide (f.lo < 32) && (f.n1 ≤ 1 || decide (f.s2 * (f.n2 - 1) < f.s1)) && (f.n2 ≤ 1 || decide (0 < f.s2))

theorem Fld.key_eq (f : Fld) (i j : Nat) : f.key i j = f.word i j * 32 + f.lo := rfl

theorem Fld.base_le_word (f : Fld) (i j : Nat) : f.base ≤ f.word i j := by
  rw [Fld.word, Nat.add_assoc]
  exact Nat.le_add_right _ _

theorem Fld.word_le_lastWord {f : Fld} {i j : Nat} (hi : i < f.n1) (hj : j < f.n2) : f.word i j ≤ f.lastWord :=
  Nat.add_le_add (Nat.add_le_add_left (Nat.mul_le_mul_left _ (Nat.le_sub_one_of_lt hi)) _)
    (Nat.mul_le_mul_left _ (Nat.le_sub_one_of_lt hj))

/-- Every offset of a field leaves the base's residue modulo a divisor of its strides. -/
theorem Fld.word_mod {f : Fld} {d : Nat} (h1 : d ∣ f.s1) (h2 : d ∣ f.s2) (i j : Nat) : f.word i j % d = f.base % d := by
  obtain ⟨x, hx⟩ := h1
  obtain ⟨y, hy⟩ := h2
  rw [Fld.word, hx, hy, Nat.mul_assoc, Nat.mul_assoc, Nat.add_mul_mod_self_left, Nat.add_mul_mod_self_left]

/-- A field that stays within its row is, modulo the row's length, at the base's part of the row and what the second index adds. -/
theorem Fld.word_mod_row {f : Fld} (h : f.lastInRow < f.s1) (i : Nat) {j : Nat} (hj : j < f.n2) :
    f.word i j % f.s1 = f.base % f.s1 + f.s2 * j := by
  have hle : f.s2 * j ≤ f.s2 * (f.n2 - 1) := Nat.mul_le_mul_left _ (Nat.le_sub_one_of_lt hj)
  have hlt : f.base % f.s1 + f.s2 * j < f.s1 := by unfold Fld.lastInRow at h; omega
  rw [Fld.word, Nat.add_right_comm, Nat.add_mul_mod_self_left, ← Nat.mod_add_mod, Nat.mod_eq_of_lt hlt]

theorem Fld.word_ne_of_rowsApart {f g : Fld} (h : f.rowsApart g = true) {i j a b : Nat} (hj : j < f.n2) (hb : b < g.n2) :
    f.word i j ≠ g.word a b := by
  simp only [Fld.rowsApart, Bool.and_eq_true, Bool.or_eq_true, beq_iff_eq, decide_eq_true_eq] at h
  obtain ⟨⟨⟨hs, hf⟩, hg⟩, hsep⟩ := h
  intro e
  have hmod : f.base % f.s1 + f.s2 * j = g.base % g.s1 + g.s2 * b := by
    rw [← Fld.word_mod_row hf i hj, ← Fld.word_mod_row hg a hb, e, hs]
  have hfj : f.s2 * j ≤ f.s2 * (f.n2 - 1) := Nat.mul_le_mul_left _ (Nat.le_sub_one_of_lt hj)
  have hgb : g.s2 * b ≤ g.s2 * (g.n2 - 1) := Nat.mul_le_mul_left _ (Nat.le_sub_one_of_lt hb)
  unfold Fld.lastInRow at hsep
  omega

/-- Fields that pass the test share no place. -/
theorem Fld.key_ne_of_apart {f g : Fld} (h : f.apart g = true) (hf : f.lo < 32) (hg : g.lo < 32) {i j a b : Nat} (hi : i < f.n1)
    (hj : j < f.n2) (ha : a < g.n1) (hb : b < g.n2) : f.key i j ≠ g.key a b := by
  rw [Fld.key_eq, Fld.key_eq]
  intro e
  have hlo : f.lo = g.lo := by omega
  have hw : f.word i j = g.word a b := by omega
  have hf1 := f.base_le_word i j
  have hg1 := g.base_le_word a b
  have hf2 := Fld.word_le_lastWord hi hj
  have hg2 := Fld.word_le_lastWord ha hb
  simp only [Fld.apart, Bool.or_eq_true, bne_iff_ne, decide_eq_true_eq] at h
  rcases h with (((h | h) | h) | h) | h
  · exact h hlo
  · omega
  · omega
  · have hdf : f.strideGcd g ∣ Nat.gcd f.s1 f.s2 := Nat.gcd_dvd_left _ _
    have hdg : f.strideGcd g ∣ Nat.gcd g.s1 g.s2 := Nat.gcd_dvd_right _ _
    rw [← Fld.word_mod (Nat.dvd_trans hdf (Nat.gcd_dvd_left _ _)) (Nat.dvd_trans hdf (Nat.gcd_dvd_right _ _)) i j, hw,
      Fld.word_mod (Nat.dvd_trans hdg (Nat.gcd_dvd_left _ _)) (Nat.dvd_trans hdg (Nat.gcd_dvd_right _ _)) a b] at h
    exact h rfl
  · exact Fld.word_ne_of_rowsApart h hj hb hw

/-- A field's key names one pair of indices. -/
theorem Fld.key_inj {f : Fld} (h : f.placesDistinct = true) {i j a b : Nat} (hi : i < f.n1) (hj : j < f.n2) (ha : a < f.n1)
    (hb : b < f.n2) (e : f.key i j = f.key a b) : i = a ∧ j = b := by
  simp only [Fld.placesDistinct, Bool.and_eq_true, Bool.or_eq_true, decide_eq_true_eq] at h
  obtain ⟨⟨-, h1⟩, h2⟩ := h
  have hw : f.s1 * i + f.s2 * j = f.s1 * a + f.s2 * b := by
    rw [Fld.key_eq, Fld.key_eq, Fld.word, Fld.word] at e
    omega
  have hjr : f.s2 * j ≤ f.s2 * (f.n2 - 1) := Nat.mul_le_mul_left _ (Nat.le_sub_one_of_lt hj)
  have hbr : f.s2 * b ≤ f.s2 * (f.n2 - 1) := Nat.mul_le_mul_left _ (Nat.le_sub_one_of_lt hb)
  have hia : i = a := by
    rcases h1 with h1 | h1
    · omega
    · rcases Nat.lt_trichotomy i a with hlt | heq | hgt
      · have := Nat.mul_le_mul_left f.s1 (Nat.succ_le_of_lt hlt)
        rw [Nat.mul_succ] at this
        omega
      · exact heq
      · have := Nat.mul_le_mul_left f.s1 (Nat.succ_le_of_lt hgt)
        rw [Nat.mul_succ] at this
        omega
  subst hia
  refine ⟨rfl, ?_⟩
  rcases h2 with h2 | h2
  · omega
  · exact Nat.eq_of_mul_eq_mul_left h2 (Nat.add_left_cancel hw)

/-! The table, rule by rule: the fields of two rules span separate offsets or are compared one by one. -/

/-- The register tables of the rules, in the order of the whole table. -/
def regGroups : List (List Fld) :=
  [regsR4, regsR35, regsR36, regsR68, regsR69, regsR70, regsR71, regsR115, regsR116, regsR117, regsR118, regsR158, regsR159, 
   regsR193, regsR194, regsR224, regsR253, regsR254, regsR255, regsR278, regsR279, regsR280, regsR281, regsR314, regsR315, 
   regsR316, regsR337, regsR338, regsR365, regsR366, regsR367, regsR394, regsR395, regsR396, regsR418, regsR419, regsR440, 
   regsR460, regsR461, regsR462, regsR497, regsR498, regsR499, regsR500, regsR501, regsR517, regsR518, regsR535, regsR195]

theorem regTable_eq_flatten : regTable = regGroups.flatten := by decide +kernel

/-- The greatest offset of a rule's fields, and the least. -/
def groupEnd (fs : List Fld) : Nat := (fs.map Fld.lastWord).foldr max 0
def groupStart (fs : List Fld) : Nat := (fs.map Fld.base).foldr min (2 ^ 32)

/-- Whether the fields of two rules are seen to be apart. -/
def groupsApart (fs gs : List Fld) : Bool :=
  decide (groupEnd fs < groupStart gs) || decide (groupEnd gs < groupStart fs) || fs.all fun f => gs.all fun g => f.apart g

theorem Fld.lastWord_le_groupEnd {f : Fld} {fs : List Fld} (h : f ∈ fs) : f.lastWord ≤ groupEnd fs := by
  unfold groupEnd
  induction fs with
  | nil => cases h
  | cons g gs ih =>
    rw [List.map_cons, List.foldr_cons]
    rcases List.mem_cons.mp h with h | h
    · exact h ▸ Nat.le_max_left _ _
    · exact Nat.le_trans (ih h) (Nat.le_max_right _ _)

theorem Fld.groupStart_le_base {f : Fld} {fs : List Fld} (h : f ∈ fs) : groupStart fs ≤ f.base := by
  unfold groupStart
  induction fs with
  | nil => cases h
  | cons g gs ih =>
    rw [List.map_cons, List.foldr_cons]
    rcases List.mem_cons.mp h with h | h
    · exact h ▸ Nat.min_le_left _ _
    · exact Nat.le_trans (Nat.min_le_right _ _) (ih h)

theorem Fld.apart_of_groupsApart {fs gs : List Fld} (h : groupsApart fs gs = true) {f g : Fld} (hf : f ∈ fs) (hg : g ∈ gs) :
    f.apart g = true := by
  simp only [groupsApart, Bool.or_eq_true, decide_eq_true_eq, List.all_eq_true] at h
  have hfe := Fld.lastWord_le_groupEnd hf
  have hfs := Fld.groupStart_le_base hf
  have hge := Fld.lastWord_le_groupEnd hg
  have hgs := Fld.groupStart_le_base hg
  rcases h with (h | h) | h
  · have hlt : f.lastWord < g.base := by omega
    simp [Fld.apart, hlt]
  · have hlt : g.lastWord < f.base := by omega
    simp [Fld.apart, hlt]
  · exact h f hf g hg

theorem regGroups_apart : regGroups.Pairwise fun fs gs => groupsApart fs gs = true := by decide +kernel

theorem regGroups_inner_apart : ∀ fs ∈ regGroups, fs.Pairwise fun f g => f.apart g = true := by decide +kernel

theorem regTable_pairwise_apart : regTable.Pairwise fun f g => f.apart g = true := by
  rw [regTable_eq_flatten, List.pairwise_flatten]
  exact ⟨regGroups_inner_apart, regGroups_apart.imp fun h _ hf _ hg => Fld.apart_of_groupsApart h hf hg⟩

theorem regTable_placesDistinct : ∀ f ∈ regTable, f.placesDistinct = true := by decide +kernel

/-- Whether a shared key of two fields means one field at one pair of indices. -/
def Fld.keysDistinct (f g : Fld) : Prop :=
  ∀ i j a b, i < f.n1 → j < f.n2 → a < g.n1 → b < g.n2 → f.key i j = g.key a b → f = g ∧ i = a ∧ j = b

theorem Fld.lo_lt_of_mem {f : Fld} (h : f ∈ regTable) : f.lo < 32 := by
  have h := regTable_placesDistinct f h
  simp only [Fld.placesDistinct, Bool.and_eq_true, decide_eq_true_eq] at h
  exact h.1.1

theorem Fld.keysDistinct_symm {f g : Fld} (h : f.keysDistinct g) : g.keysDistinct f := by
  intro i j a b hi hj ha hb e
  obtain ⟨hfg, hia, hjb⟩ := h a b i j ha hb hi hj e.symm
  exact ⟨hfg.symm, hia.symm, hjb.symm⟩

/-- What holds of each field with itself and of each pair in their order holds of any two. -/
theorem Fld.keysDistinct_of_pairwise {fs : List Fld} (hp : fs.Pairwise Fld.keysDistinct) (hself : ∀ f ∈ fs, f.keysDistinct f) {f g : Fld}
    (hf : f ∈ fs) (hg : g ∈ fs) : f.keysDistinct g := by
  induction fs with
  | nil => cases hf
  | cons x l ih =>
    obtain ⟨hx, hl⟩ := List.pairwise_cons.mp hp
    rcases List.mem_cons.mp hf with hfx | hf
    · rcases List.mem_cons.mp hg with hgx | hg
      · rw [hfx, hgx]
        exact hself x List.mem_cons_self
      · rw [hfx]
        exact hx g hg
    · rcases List.mem_cons.mp hg with hgx | hg
      · rw [hgx]
        exact Fld.keysDistinct_symm (hx f hf)
      · exact ih hl (fun y hy => hself y (List.mem_cons_of_mem _ hy)) hf hg

theorem regTable_keysDistinct_self : ∀ f ∈ regTable, f.keysDistinct f :=
  fun f hf _ _ _ _ hi hj ha hb e => ⟨rfl, Fld.key_inj (regTable_placesDistinct f hf) hi hj ha hb e⟩

theorem regTable_pairwise_keysDistinct : regTable.Pairwise Fld.keysDistinct :=
  regTable_pairwise_apart.imp_of_mem fun hf hg h _ _ _ _ hi hj ha hb e =>
    absurd e (Fld.key_ne_of_apart h (Fld.lo_lt_of_mem hf) (Fld.lo_lt_of_mem hg) hi hj ha hb)

/-- Settles O4: every two fields of the table are apart, and each field's own places are distinct. -/
theorem registerKeysAreDistinct : Obligations.RegisterKeysAreDistinct := by
  intro f hf g hg
  exact Fld.keysDistinct_of_pairwise regTable_pairwise_keysDistinct regTable_keysDistinct_self hf hg

end Sys2Proof.Machine
end

section
/-!
PROOF. The queue, one HCLK cycle, the state after reset and the integer atomics.
-/
namespace Sys2Proof.Machine

/-- Settles O1: the front command is taken off and run on the rest. -/
theorem stepRunsTheFrontCommand : Obligations.StepRunsTheFrontCommand := fun _ _ => rfl

/-! One HCLK cycle. -/

/-- Driving a pin touches the pins and what leaves the switch. -/
theorem State.onlyChanges_drive (s : State) (n level : Nat) {ps : List Part} (hpins : Part.pins ∈ ps) (hout : Part.out ∈ ps) :
    s.onlyChanges (s.drive n level) ps := by
  unfold State.drive
  split
  · exact s.onlyChanges_refl ps
  · intro p hp
    cases p
    case pins => exact absurd hpins hp
    case out => exact absurd hout hp
    all_goals rfl

/-- The end of the PPS pulse touches the pins and what leaves the switch. -/
theorem State.onlyChanges_ppsEnd (s : State) : s.onlyChanges s.ppsEnd [.pins, .out] := by
  unfold State.ppsEnd
  split
  · exact s.onlyChanges_drive _ _ (by decide) (by decide)
  · exact s.onlyChanges_refl _

/-- A cycle with power: the times, the meters, and the end of the PPS pulse. -/
theorem State.tick_powered {s : State} (h : s.car.powered = true) : s.tick =
    ({ s with hclk := s.hclk + 1, tabor := s.tabor + s.rd Reg.GATE_TT_INC_FRAC,
              meters := s.meterCycle (s.rd Reg.GATE_TT_INC_FRAC) } : State).ppsEnd := if_pos h

theorem State.onlyChanges_tick {s : State} (h : s.car.powered = true) :
    s.onlyChanges s.tick [.hclk, .tabor, .meters, .pins, .out] := by
  rw [State.tick_powered h]
  refine State.onlyChanges_trans (fun p hp => ?_) (State.onlyChanges_mono (State.onlyChanges_ppsEnd _) (by decide))
  cases p
  case hclk | tabor | meters => exact absurd (by decide) hp
  all_goals rfl

/-- Settles O2: elapsed time counts; with power tabor time and the meters of the valid fens move too. -/
theorem anEmptyQueueIsOneCycle : Obligations.AnEmptyQueueIsOneCycle := by
  intro s hq
  have hstep : step s = .next s.tick := by unfold step; rw [hq]
  refine ⟨fun hp => ⟨s.tick, hstep, ?_, ?_, ?_, ?_, State.onlyChanges_tick hp⟩, fun hp => ?_⟩
  · rw [State.tick_powered hp]
    exact State.onlyChanges_ppsEnd _ .hclk (by decide)
  · rw [State.tick_powered hp]
    exact State.onlyChanges_ppsEnd _ .tabor (by decide)
  · intro f r hf hv
    have hm : s.tick.meters = s.meterCycle (s.rd Reg.GATE_TT_INC_FRAC) := by
      rw [State.tick_powered hp]
      exact State.onlyChanges_ppsEnd _ .meters (by decide)
    simp [hm, State.meterCycle, hf, hv]
  · intro hf
    rw [State.tick_powered hp, (State.onlyChanges_ppsEnd _ .meters (by decide) : _ = _)]
    simp [State.meterCycle, hf]
  · rw [hstep, State.tick, if_neg (by simp [hp])]

/-! Reset. -/

/-- Settles O3: nothing is stored at reset, so every field reads the reset value of its table. -/
theorem resetLeavesTheTablesValues : Obligations.ResetLeavesTheTablesValues :=
  ⟨fun _ _ _ => rfl, rfl, rfl, rfl, rfl, rfl, rfl, rfl, rfl, rfl, rfl, rfl, rfl, rfl, by decide, fun _ _ => rfl,
    by decide, by decide, by decide, by decide⟩

/-- Settles O5: an empty table, an empty memory and an empty queue are in their form. -/
theorem resetIsSound : Obligations.ResetIsSound := rfl

/-! Integer atomics. -/

/-- ADD of an integer type wraps at the type's width (R130, R132). -/
theorem atomicOp_add {t : Nat} (ht : t ≠ 4) (old x swap : Nat) :
    atomicOp 0 t old x swap = ((old + x) % 2 ^ (8 * (atomicSize t).getD 4), false) := by
  simp [atomicOp, ht]

/-- MIN and MAX of a signed type compare the signed values (R132). -/
theorem atomicOp_minmax_signed {t : Nat} (ht : t = 0 ∨ t = 1) (old x swap : Nat) :
    atomicOp 1 t old x swap = (if signed x (32 * (t + 1)) < signed old (32 * (t + 1)) then x else old, false) ∧
      atomicOp 2 t old x swap = (if signed old (32 * (t + 1)) < signed x (32 * (t + 1)) then x else old, false) := by
  rcases ht with rfl | rfl <;> simp [atomicOp, atomicSize]

/-- MIN and MAX of an unsigned type are those of the numbers (R132). -/
theorem atomicOp_minmax_unsigned {t : Nat} (ht : t = 2 ∨ t = 3) (old x swap : Nat) :
    atomicOp 1 t old x swap = (min old x, false) ∧ atomicOp 2 t old x swap = (max old x, false) := by
  have hmin : (if x < old then x else old) = min old x := by split <;> omega
  have hmax : (if old < x then x else old) = max old x := by split <;> omega
  rw [← hmin, ← hmax]
  rcases ht with rfl | rfl <;> simp [atomicOp]

/-- Settles O17: each operation of `atomicOp`, by the kind of its type. -/
theorem integerAtomicsComputeTheirOperation : Obligations.IntegerAtomicsComputeTheirOperation := by
  intro old x swap
  exact ⟨atomicOp_add (by decide) .., atomicOp_add (by decide) .., atomicOp_add (by decide) .., atomicOp_add (by decide) ..,
    fun _ ht => atomicOp_minmax_signed ht old x swap, fun _ ht => atomicOp_minmax_unsigned ht old x swap,
    fun _ _ => by simp [atomicOp]⟩

end Sys2Proof.Machine
end

section
/-!
PROOF. What the proofs of the statements share: frames read part by part, register fields read through updates of other parts, and fields of
different places.
-/
namespace Sys2Proof.Machine

/-! Frames. -/

/-- A frame, part by part: `simp` decides which parts are listed and reads the others through the updates. -/
theorem State.onlyChanges_iff (s t : State) (ps : List Part) : s.onlyChanges t ps ↔
    (Part.pending ∉ ps → t.pending = s.pending) ∧ (Part.regs ∉ ps → t.regs = s.regs) ∧
    (Part.latches ∉ ps → t.latches = s.latches) ∧ (Part.hclk ∉ ps → t.hclk = s.hclk) ∧ (Part.tabor ∉ ps → t.tabor = s.tabor) ∧
    (Part.nextFree ∉ ps → t.nextFree = s.nextFree) ∧ (Part.out ∉ ps → t.out = s.out) ∧ (Part.near ∉ ps → t.near = s.near) ∧
    (Part.tray ∉ ps → t.tray = s.tray) ∧ (Part.host ∉ ps → t.host = s.host) ∧ (Part.img ∉ ps → t.img = s.img) ∧
    (Part.cfg ∉ ps → t.cfg = s.cfg) ∧ (Part.meters ∉ ps → t.meters = s.meters) ∧ (Part.flt ∉ ps → t.flt = s.flt) ∧
    (Part.pool ∉ ps → t.pool = s.pool) ∧ (Part.fab ∉ ps → t.fab = s.fab) ∧ (Part.cmd ∉ ps → t.cmd = s.cmd) ∧
    (Part.xbr ∉ ps → t.xbr = s.xbr) ∧ (Part.shp ∉ ps → t.shp = s.shp) ∧ (Part.red ∉ ps → t.red = s.red) ∧
    (Part.att ∉ ps → t.att = s.att) ∧ (Part.sqt ∉ ps → t.sqt = s.sqt) ∧ (Part.ckp ∉ ps → t.ckp = s.ckp) ∧
    (Part.coh ∉ ps → t.coh = s.coh) ∧ (Part.sec ∉ ps → t.sec = s.sec) ∧ (Part.car ∉ ps → t.car = s.car) ∧
    (Part.pins ∉ ps → t.pins = s.pins) := by
  constructor
  · intro h
    exact ⟨h .pending, h .regs, h .latches, h .hclk, h .tabor, h .nextFree, h .out, h .near, h .tray, h .host, h .img, h .cfg, h .meters, h .flt, h .pool, h .fab, h .cmd, h .xbr, h .shp, h .red, h .att, h .sqt, h .ckp, h .coh, h .sec, h .car, h .pins⟩
  · rintro ⟨hpending, hregs, hlatches, hhclk, htabor, hnextFree, hout, hnear, htray, hhost, himg, hcfg, hmeters, hflt, hpool, hfab, hcmd, hxbr, hshp, hred, hatt, hsqt, hckp, hcoh, hsec, hcar, hpins⟩ p
    cases p <;> assumption

/-- One more step within the frame. -/
theorem State.onlyChanges.andThen {s t u : State} {ps qs : List Part} (h : s.onlyChanges t ps) (k : t.onlyChanges u qs)
    (hq : qs ⊆ ps := by decide) : s.onlyChanges u ps := State.onlyChanges_trans h (State.onlyChanges_mono k hq)

/-- One more step that keeps the registers but the listed ones. -/
theorem State.regsKeptBut.andThen {s t u : State} {ks ls : List Nat} (h : s.regsKeptBut t ks) (k : t.regsKeptBut u ls)
    (hl : ls ⊆ ks) : s.regsKeptBut u ks := State.regsKept_trans h (State.regsKept_mono k hl)

/-- A fold whose every step leaves its start as it was gives the start. -/
theorem foldl_of_fixed {α β : Type} {f : α → β → α} {a : α} (h : ∀ b, f a b = a) (l : List β) : l.foldl f a = a := by
  induction l with
  | nil => rfl
  | cons b l ih => rw [List.foldl_cons, h, ih]

theorem sum_map_of_zero {α : Type} {f : α → Nat} {l : List α} (h : ∀ x ∈ l, f x = 0) : (l.map f).sum = 0 := by
  induction l with
  | nil => rfl
  | cons x l ih => rw [List.map_cons, List.sum_cons, h x List.mem_cons_self, ih fun y hy => h y (List.mem_cons_of_mem _ hy)]

/-! Register fields through updates of other parts. -/

@[simp] theorem State.rd_upPool (s : State) (g : PoolState → PoolState) (f : Fld) (i j : Nat) : (s.upPool g).rd f i j = s.rd f i j := rfl
@[simp] theorem State.rd_upFab (s : State) (g : FabState → FabState) (f : Fld) (i j : Nat) : (s.upFab g).rd f i j = s.rd f i j := rfl
@[simp] theorem State.rd_upCmd (s : State) (g : CmdState → CmdState) (f : Fld) (i j : Nat) : (s.upCmd g).rd f i j = s.rd f i j := rfl
@[simp] theorem State.rd_upXbr (s : State) (g : XbrState → XbrState) (f : Fld) (i j : Nat) : (s.upXbr g).rd f i j = s.rd f i j := rfl
@[simp] theorem State.rd_upShp (s : State) (g : ShpState → ShpState) (f : Fld) (i j : Nat) : (s.upShp g).rd f i j = s.rd f i j := rfl
@[simp] theorem State.rd_upRed (s : State) (g : RedState → RedState) (f : Fld) (i j : Nat) : (s.upRed g).rd f i j = s.rd f i j := rfl
@[simp] theorem State.rd_upAtt (s : State) (g : AttState → AttState) (f : Fld) (i j : Nat) : (s.upAtt g).rd f i j = s.rd f i j := rfl
@[simp] theorem State.rd_upSqt (s : State) (g : SqtState → SqtState) (f : Fld) (i j : Nat) : (s.upSqt g).rd f i j = s.rd f i j := rfl
@[simp] theorem State.rd_upCkp (s : State) (g : CkpState → CkpState) (f : Fld) (i j : Nat) : (s.upCkp g).rd f i j = s.rd f i j := rfl
@[simp] theorem State.rd_upCoh (s : State) (g : CohState → CohState) (f : Fld) (i j : Nat) : (s.upCoh g).rd f i j = s.rd f i j := rfl
@[simp] theorem State.rd_upSec (s : State) (g : SecState → SecState) (f : Fld) (i j : Nat) : (s.upSec g).rd f i j = s.rd f i j := rfl
@[simp] theorem State.rd_upCar (s : State) (g : CarState → CarState) (f : Fld) (i j : Nat) : (s.upCar g).rd f i j = s.rd f i j := rfl
@[simp] theorem State.rd_upFw (s : State) (g : FwState → FwState) (f : Fld) (i j : Nat) : (s.upFw g).rd f i j = s.rd f i j := rfl
@[simp] theorem State.rd_upFlt (s : State) (g : FltState → FltState) (f : Fld) (i j : Nat) : (s.upFlt g).rd f i j = s.rd f i j := rfl
@[simp] theorem State.rd_upImg (s : State) (g : ImageState → ImageState) (f : Fld) (i j : Nat) : (s.upImg g).rd f i j = s.rd f i j := rfl
@[simp] theorem State.rd_upPort (s : State) (p : Nat) (g : PortState → PortState) (f : Fld) (i j : Nat) :
    (s.upPort p g).rd f i j = s.rd f i j := rfl
@[simp] theorem State.rd_upSp (s : State) (p : Nat) (g : ShpPort → ShpPort) (f : Fld) (i j : Nat) :
    (s.upSp p g).rd f i j = s.rd f i j := rfl
@[simp] theorem State.rd_emit (s : State) (m : OutMsg) (f : Fld) (i j : Nat) : (s.emit m).rd f i j = s.rd f i j := rfl

/-! Bytes. -/

@[simp] theorem length_leBytes (n v : Nat) : (leBytes n v).length = n := by
  induction n generalizing v with
  | zero => rfl
  | succ n ih => rw [leBytes, List.length_cons, ih]

/-! Fields of different places. -/

/-- Whether a field that has one place only lies below another field. -/
def Fld.singleBelow (f g : Fld) : Bool := f.s1 == 0 && f.s2 == 0 && decide (f.base < g.base)

/-- Whether two fields have distinct places whatever their indices: another lowest bit, another residue modulo their strides, or a single
place below the other field. -/
def Fld.separate (f g : Fld) : Bool :=
  decide (f.lo < 32) && decide (g.lo < 32) && (f.lo != g.lo || f.base % f.strideGcd g != g.base % f.strideGcd g || f.singleBelow g ||
    g.singleBelow f)

theorem Fld.word_lt_of_singleBelow {f g : Fld} (h : f.singleBelow g = true) (i j a b : Nat) : f.word i j < g.word a b := by
  simp only [Fld.singleBelow, Bool.and_eq_true, beq_iff_eq, decide_eq_true_eq] at h
  obtain ⟨⟨h1, h2⟩, hlt⟩ := h
  refine Nat.lt_of_lt_of_le ?_ (g.base_le_word a b)
  simpa [Fld.word, h1, h2] using hlt

theorem Fld.key_ne_of_separate {f g : Fld} (h : f.separate g = true) (i j a b : Nat) : f.key i j ≠ g.key a b := by
  simp only [Fld.separate, Bool.or_eq_true, Bool.and_eq_true, bne_iff_ne, decide_eq_true_eq] at h
  obtain ⟨⟨hf, hg⟩, h⟩ := h
  rw [Fld.key_eq, Fld.key_eq]
  intro e
  have hw : f.word i j = g.word a b := by omega
  rcases h with ((hlo | hmod) | hfg) | hgf
  · omega
  · have hdf : f.strideGcd g ∣ Nat.gcd f.s1 f.s2 := Nat.gcd_dvd_left _ _
    have hdg : f.strideGcd g ∣ Nat.gcd g.s1 g.s2 := Nat.gcd_dvd_right _ _
    rw [← Fld.word_mod (Nat.dvd_trans hdf (Nat.gcd_dvd_left _ _)) (Nat.dvd_trans hdf (Nat.gcd_dvd_right _ _)) i j, hw,
      Fld.word_mod (Nat.dvd_trans hdg (Nat.gcd_dvd_left _ _)) (Nat.dvd_trans hdg (Nat.gcd_dvd_right _ _)) a b] at hmod
    exact hmod rfl
  · exact absurd hw (Nat.ne_of_lt (Fld.word_lt_of_singleBelow hfg i j a b))
  · exact absurd hw (Nat.ne_of_gt (Fld.word_lt_of_singleBelow hgf a b i j))

/-- A write leaves a field of another place as it was; the test is decided for two named fields. -/
theorem State.rd_wr_separate (s : State) (f : Fld) (v i j : Nat) {g : Fld} (h : g.separate f = true) (a b : Nat) :
    (s.wr f v i j).rd g a b = s.rd g a b := s.rd_wr_ne f g v i j a b (Fld.key_ne_of_separate h a b i j)

theorem State.rd_bump_separate (s : State) (f : Fld) (i j n : Nat) {g : Fld} (h : g.separate f = true) (a b : Nat) :
    (s.bump f i j n).rd g a b = s.rd g a b := s.rd_wr_separate f _ i j h a b

end Sys2Proof.Machine
end

section
/-!
PROOF. A packet of MH's whose path is clear: the one effect of sending it is that it stands last among the packets toward its port.
-/
namespace Sys2Proof.Machine

/-- A packet of MH's as it waits to cross. -/
def State.sent (s : State) (k : Packet) : QPkt := { pkt := k, conn := connHE0, rx := s.hclk }

/-- With capture off nothing is captured. -/
theorem State.capture_disabled {s : State} (h : s.on Reg.XBR_CAP_CTL_ENABLE = false) (qp : QPkt) (sampled : Bool) (m : Option Nat)
    (out cause depth : Nat) : s.capture qp sampled m out cause depth = s := by
  simp [State.capture, h]

/-- With no fence tracked a response releases nothing. -/
theorem State.fenceAnswered_of_nil {s : State} (h : s.fab.fences = []) (k : Packet) : s.fenceAnswered k = s := by
  unfold State.fenceAnswered
  split
  · rfl
  · show ({ s with fab := { s.fab with fences := Tab.mapVals s.fab.fences _ } } : State) = s
    rw [h]
    show ({ s with fab := { s.fab with fences := [] } } : State) = s
    rw [← h]

theorem State.sweepFences_of_nil {s : State} (h : s.fab.fences = []) : s.sweepFences = s := by
  simp [State.sweepFences, h, State.sweepN]

@[simp] theorem State.voqPush_fab (s : State) (o : Nat) (qp : QPkt) : (s.voqPush o qp).fab = s.fab := rfl

/-- A packet of MH's on a clear path joins the packets toward its port (R348, R349). -/
theorem State.send_of_clearPath {s : State} {k : Packet} {p : Nat} (h : s.clearPath k p) :
    s.send connHE0 k = s.voqPush p (s.sent k) := by
  obtain ⟨hl, hcap, hfence⟩ := h
  unfold State.send
  rw [hl]
  dsimp only
  rw [State.capture_disabled hcap]
  show (s.fenceAnswered k).voqPush p _ = _
  rw [State.fenceAnswered_of_nil hfence]
  rfl

/-- An answer on a clear path does nothing else. -/
theorem State.answer_of_clearPath {s : State} {k : Packet} {p : Nat} (h : s.clearPath k p) :
    s.answer connHE0 k = s.voqPush p (s.sent k) := by
  unfold State.answer
  rw [State.send_of_clearPath h]
  exact State.sweepFences_of_nil h.2.2

/-- A reply that holds no ingress cells is the answer alone. -/
theorem State.reply_of_clearPath {s : State} {q : QPkt} {st arg p : Nat} {body : Bytes} (hheld : q.held = 0)
    (h : s.clearPath (respond q.pkt st arg body) p) : s.reply q st arg body = s.voqPush p (s.sent (respond q.pkt st arg body)) := by
  unfold State.reply State.ingressFree
  rw [if_pos hheld, State.answer_of_clearPath h]

/-- The packets toward the port after the push are those before and the packet pushed. -/
theorem State.voq_voqPush (s : State) (p : Nat) (k : Packet) :
    (s.voqPush p (s.sent k)).voq connHE0 p k.queue = s.voqWith p k := by
  simp [State.voqPush, State.voq, State.voqWith, State.sent, State.upXbr, Tab.getD]

/-- A push touches the crossbar. -/
theorem State.onlyChanges_voqPush (s : State) (o : Nat) (qp : QPkt) : s.onlyChanges (s.voqPush o qp) [.xbr] := by
  simp [State.onlyChanges_iff, State.voqPush]

end Sys2Proof.Machine
end

section
/-!
PROOF. READ at its home (R25, R86, R123, R129, R148).  The request leaves MH's queue; what is read, checked and looked up depends on other parts
of the state, so each answer is the answer in the state before.
-/
namespace Sys2Proof.Machine

/-- The state without the head of MH's queue. -/
def State.popHome (s : State) (rest : List QPkt) : State := s.upFab fun b => { b with he0 := rest }

@[simp] theorem State.popHome_he0 (s : State) (rest : List QPkt) : (s.popHome rest).fab.he0 = rest := rfl

theorem State.onlyChanges_popHome (s : State) (rest : List QPkt) : s.onlyChanges (s.popHome rest) [.fab] := by
  simp [State.onlyChanges_iff, State.popHome]

/-- The head of MH's queue is taken by the row of its kind. -/
theorem State.takeHome_of_head {s : State} {q : QPkt} {rest : List QPkt} (hq : s.fab.he0 = q :: rest) :
    s.takeHome q.pkt.kind = some (q, s.popHome rest) := by
  simp [State.takeHome, hq, State.popHome]

/-- Taking the head clears no path and blocks none. -/
theorem State.clearPath_popHome {s : State} {k : Packet} {p : Nat} (h : s.clearPath k p) (rest : List QPkt) :
    (s.popHome rest).clearPath k p := h

/-- The line store of a stack takes no part in the routes. -/
theorem State.clearPath_touch {s : State} {k : Packet} {p : Nat} (h : s.clearPath k p) (tier a n : Nat) :
    (s.touch tier a n).clearPath k p := h

theorem State.onlyChanges_touch (s : State) (tier a n : Nat) : s.onlyChanges (s.touch tier a n) [.fab] := by
  simp [State.onlyChanges_iff, State.touch]

/-- A packet that has left MH's queue answered: the queue is shorter, the answer waits, nothing else has changed. -/
def State.answeredAs (s t : State) (rest : List QPkt) (p : Nat) (rsp : Packet) : Prop :=
  t.fab.he0 = rest ∧ t.voq connHE0 p rsp.queue = s.voqWith p rsp ∧ s.onlyChanges t [.fab, .xbr]

/-- A push of the answer, from a state in which at most the fabric has changed. -/
theorem State.answeredAs_voqPush {s u : State} {rest : List QPkt} (hu : s.onlyChanges u [.fab]) (hrest : u.fab.he0 = rest) (p : Nat)
    (rsp : Packet) : s.answeredAs (u.voqPush p (u.sent rsp)) rest p rsp := by
  have hx : u.xbr = s.xbr := hu .xbr (by decide)
  have hh : u.hclk = s.hclk := hu .hclk (by decide)
  refine ⟨hrest, ?_, (s.onlyChanges_refl _).andThen hu |>.andThen (u.onlyChanges_voqPush p _)⟩
  rw [State.voq_voqPush, State.voqWith, State.voqWith, State.voq, State.voq, hx, hh]

section
variable {s : State} {q : QPkt} {rest : List QPkt}

/-- A READ that passes every check is answered with the bytes of its range. -/
theorem read_ok (hq : s.fab.he0 = q :: rest) (hk : q.pkt.kind = .read) {i : Nat} {e : Extent} (hpre : s.preCheck q false = none)
    (hwin : q.pkt.inWindow = false) (hres : s.resolve (s.who q).1 (s.who q).2 rtR q.pkt q.pkt.len = (stOK, some (i, e)))
    (hbehind : s.behindWrite q.pkt q.pkt.len = false) (hbad : s.badRange e.tier (e.at_ q.pkt.localAddr) q.pkt.len = false) :
    read_ s = ((s.popHome rest).touch e.tier (e.at_ q.pkt.localAddr) q.pkt.len).reply q stOK 0
      (readPayload q.pkt (s.readTier e.tier (e.at_ q.pkt.localAddr) q.pkt.len)) := by
  have hpre' : (s.popHome rest).preCheck q false = none := hpre
  have hres' : (s.popHome rest).resolve ((s.popHome rest).who q).1 ((s.popHome rest).who q).2 rtR q.pkt q.pkt.len = (stOK, some (i, e)) :=
    hres
  have hbehind' : (s.popHome rest).behindWrite q.pkt q.pkt.len = false := hbehind
  have hbad' : ((s.popHome rest).touch e.tier (e.at_ q.pkt.localAddr) q.pkt.len).badRange e.tier (e.at_ q.pkt.localAddr) q.pkt.len =
    false := hbad
  unfold read_
  rw [← hk, State.takeHome_of_head hq]
  simp only [hpre', hwin, hres', hbehind', hbad', Bool.false_eq_true, if_false]
  rfl

/-- A READ behind an earlier write of its sender waits. -/
theorem read_behindWrite (hq : s.fab.he0 = q :: rest) (hk : q.pkt.kind = .read) {i : Nat} {e : Extent}
    (hpre : s.preCheck q false = none) (hwin : q.pkt.inWindow = false)
    (hres : s.resolve (s.who q).1 (s.who q).2 rtR q.pkt q.pkt.len = (stOK, some (i, e)))
    (hbehind : s.behindWrite q.pkt q.pkt.len = true) : read_ s = s := by
  have hpre' : (s.popHome rest).preCheck q false = none := hpre
  have hres' : (s.popHome rest).resolve ((s.popHome rest).who q).1 ((s.popHome rest).who q).2 rtR q.pkt q.pkt.len = (stOK, some (i, e)) :=
    hres
  have hbehind' : (s.popHome rest).behindWrite q.pkt q.pkt.len = true := hbehind
  unfold read_
  rw [← hk, State.takeHome_of_head hq]
  simp only [hpre', hwin, hres', hbehind', Bool.false_eq_true, if_false, if_true]

/-- A READ that a check refuses is answered with the check's status. -/
theorem read_refused (hq : s.fab.he0 = q :: rest) (hk : q.pkt.kind = .read) {st off : Nat}
    (hpre : s.preCheck q false = some (st, off)) : read_ s = (s.popHome rest).refuse q st off := by
  have hpre' : (s.popHome rest).preCheck q false = some (st, off) := hpre
  unfold read_
  rw [← hk, State.takeHome_of_head hq]
  simp only [hpre']

/-- A READ that does not resolve is answered with the status of the resolution. -/
theorem read_unresolved (hq : s.fab.he0 = q :: rest) (hk : q.pkt.kind = .read) {st : Nat} (hpre : s.preCheck q false = none)
    (hwin : q.pkt.inWindow = false) (hres : s.resolve (s.who q).1 (s.who q).2 rtR q.pkt q.pkt.len = (st, none)) :
    read_ s = (s.popHome rest).refuse q st := by
  have hpre' : (s.popHome rest).preCheck q false = none := hpre
  have hres' : (s.popHome rest).resolve ((s.popHome rest).who q).1 ((s.popHome rest).who q).2 rtR q.pkt q.pkt.len = (st, none) := hres
  unfold read_
  rw [← hk, State.takeHome_of_head hq]
  simp only [hpre', hwin, hres', Bool.false_eq_true, if_false]

/-- Refusing the request taken answers it, where the path of the refusal is clear. -/
theorem State.answeredAs_refuse {st off p : Nat} (hheld : q.held = 0)
    (h : s.clearPath (respond q.pkt st (if st = stMALFORMED then off else 0) (emptyPayload q.pkt)) p) :
    s.answeredAs ((s.popHome rest).refuse q st off) rest p
      (respond q.pkt st (if st = stMALFORMED then off else 0) (emptyPayload q.pkt)) := by
  unfold State.refuse
  rw [State.reply_of_clearPath hheld (State.clearPath_popHome h rest)]
  exact State.answeredAs_voqPush (s.onlyChanges_popHome rest) rfl p _

end

/-- Settles O14: a READ is answered with its bytes, waits, or is refused, by the check that decides. -/
theorem readsAnswerWithTheirBytes : Obligations.ReadsAnswerWithTheirBytes := by
  intro s q rest hq hk
  refine ⟨?ok, ?behind, ?refused, ?unresolved⟩
  case ok =>
    intro i e p rsp hpre hwin hres hbehind hbad hheld hrsp hpath
    subst hrsp
    refine ⟨read_ s, rfl, ?_⟩
    rw [read_ok hq hk hpre hwin hres hbehind hbad,
      State.reply_of_clearPath hheld (State.clearPath_touch (State.clearPath_popHome hpath rest) _ _ _)]
    exact State.answeredAs_voqPush ((s.onlyChanges_popHome rest).andThen (State.onlyChanges_touch _ _ _ _)) rfl p _
  case behind =>
    intro i e hpre hwin hres hbehind
    exact congrArg Host.Outcome.next (read_behindWrite hq hk hpre hwin hres hbehind)
  case refused =>
    intro st off p rsp hpre hheld hrsp hpath
    subst hrsp
    refine ⟨read_ s, rfl, ?_⟩
    rw [read_refused hq hk hpre]
    exact State.answeredAs_refuse hheld hpath
  case unresolved =>
    intro st p rsp hpre hwin hres hne hheld hrsp hpath
    subst hrsp
    refine ⟨read_ s, rfl, ?_⟩
    rw [read_unresolved hq hk hpre hwin hres]
    have hoff : (if st = stMALFORMED then 0 else 0) = 0 := if_neg hne
    have h := State.answeredAs_refuse (off := 0) (rest := rest) hheld (hoff.symm ▸ hpath)
    rwa [hoff] at h

end Sys2Proof.Machine
end

section
/-!
PROOF. WRITE and WRITE_FENCED at their home (R22, R24, R125, R149).  A write first enters the writes in flight; performing it takes it out,
stores its bytes, and answers where it was fenced.
-/
namespace Sys2Proof.Machine

/-! Stores over good granules. -/

@[simp] theorem length_slice (b : Bytes) (o k : Nat) : (slice b o k).length = k := by
  simp only [slice, List.length_append, List.length_take, List.length_replicate, List.length_drop]
  omega

/-- A staged write none of whose granules is bad stores its bytes and mends the granules it covers whole. -/
theorem State.performWrite_good {s : State} {w : StagedWrite} (hbad : s.badRange w.tier w.at_ w.data.length = false)
    (hlen : 0 < w.data.length) : ∃ ks, s.performWrite w = (s.mendKeys ks).writeTier w.tier w.at_ w.data := by
  have hne : w.data.isEmpty = false := by
    rw [List.isEmpty_eq_false_iff]
    exact List.ne_nil_of_length_pos hlen
  have hks : ∀ k ∈ granKeys w.tier w.at_ w.data.length, s.badKey k = false := by
    simpa [State.badRange] using hbad
  have hfil : ∀ q : Nat → Bool, (granKeys w.tier w.at_ w.data.length).filter (fun k => s.badKey k && q k) = [] := by
    intro q
    rw [List.filter_eq_nil_iff]
    intro k hk
    simp [hks k hk]
  refine ⟨(granKeys w.tier w.at_ w.data.length).filter fun k =>
    decide (w.at_ ≤ k % 2 ^ 58 * 64) && decide (k % 2 ^ 58 * 64 + 64 ≤ w.at_ + w.data.length), ?_⟩
  unfold State.performWrite
  rw [if_neg (by simp [hne])]
  simp only [hfil, List.filter_nil, List.foldl_nil, List.isEmpty_nil, if_true]

/-- A byte stored by `memWrite`, by its number from the start of the store. -/
theorem memGet_memWrite_getD {m : List Host.Cell} (h : Memory.wf m = true) (a : Nat) (d : Bytes) {k : Nat} (hk : k < d.length) :
    memGet (memWrite m a d) (a + k) = d.getD k 0 := by
  rw [memGet_write_inside m a d k h hk, List.getD_eq_getElem?_getD, List.getElem?_eq_getElem hk, Option.getD_some]

/-! Entering the writes in flight. -/

/-- The record of a write that has resolved. -/
def inWriteOf (q : QPkt) (i : Nat) (e : Extent) : InWrite :=
  { pkt := q.pkt, ext := i, tier := e.tier, at_ := e.at_ q.pkt.localAddr, inPort := q.conn, held := q.held,
    fenced := q.pkt.opcode == opWRITE_FENCED }

/-- The state after a write has entered the writes in flight. -/
def State.enterWrite (s : State) (q : QPkt) (i : Nat) (e : Extent) : State :=
  s.upPool fun b => { b with
    writes := Tab.put b.writes s.pool.nextWrite (inWriteOf q i e), nextWrite := s.pool.nextWrite + 1
    moves := Tab.upd b.moves i fun m => { m with waits := m.waits ++ [s.pool.nextWrite] } }

theorem State.enterWrite_writes (s : State) (q : QPkt) (i : Nat) (e : Extent) :
    Tab.find? (s.enterWrite q i e).pool.writes s.pool.nextWrite = some (inWriteOf q i e) := Tab.find?_put_self _ _ _

theorem State.onlyChanges_enterWrite (s : State) (q : QPkt) (i : Nat) (e : Extent) :
    s.onlyChanges (s.enterWrite q i e) [.pool] := by
  simp [State.onlyChanges_iff, State.enterWrite]

theorem State.writerWins_of_no_move {s : State} {i : Nat} (h : Tab.find? s.pool.moves i = none) : s.writerWins i = s := by
  simp [State.writerWins, h]

/-- A write that passes its checks enters the writes in flight; a WRITE is answered at once (R149). -/
theorem State.writeAt_ok {s : State} {q : QPkt} {i : Nat} {e : Extent} (hwin : q.pkt.inWindow = false)
    (hres : s.resolve (s.who q).1 (s.who q).2 rtW q.pkt q.pkt.len = (stOK, some (i, e)))
    (hpre : s.preCheck q (!q.pkt.inWindow && s.ownRing (s.who q).1 q.pkt.localAddr q.pkt.len) = none)
    (hmove : Tab.find? s.pool.moves i = none) : s.writeAt q =
      if q.pkt.opcode = opWRITE then (s.enterWrite q i e).answer connHE0 (respond q.pkt stOK 0 []) else s.enterWrite q i e := by
  rw [hwin] at hpre
  unfold State.writeAt
  simp only [hwin, hpre, hres, State.writerWins_of_no_move hmove, Bool.false_eq_true, if_false]
  rfl

theorem Packet.kind_write {k : Packet} (hop : k.opcode = opWRITE) (hwin : k.inWindow = false) : k.kind = .write := by
  simp [Packet.kind, hop, hwin, opWRITE, opCOMMAND, opSTEP, opGATHER_REQ, opREAD]

theorem Packet.kind_writeFenced {k : Packet} (hop : k.opcode = opWRITE_FENCED) (hwin : k.inWindow = false) :
    k.kind = .writeFenced := by
  simp [Packet.kind, hop, hwin, opWRITE, opWRITE_FENCED, opCOMMAND, opSTEP, opGATHER_REQ, opREAD]

section
variable {s : State} {q : QPkt} {rest : List QPkt}

theorem write_of_head (hq : s.fab.he0 = q :: rest) (hk : q.pkt.kind = .write) : write_ s = (s.popHome rest).writeAt q := by
  unfold write_
  rw [← hk, State.takeHome_of_head hq]

theorem writeFenced_of_head (hq : s.fab.he0 = q :: rest) (hk : q.pkt.kind = .writeFenced) :
    writeFenced s = (s.popHome rest).writeAt q := by
  unfold writeFenced
  rw [← hk, State.takeHome_of_head hq]

end

/-! Performing a write. -/

/-- A write that is alone in flight leaves nothing in flight, and no cells where it held none. -/
theorem State.writeGone_only {s : State} {id : Nat} {w : InWrite} (hw : s.pool.writes = [(id, w)]) (hheld : w.held = 0) :
    (s.writeGone id w).pool.writes = [] ∧ s.onlyChanges (s.writeGone id w) [.pool, .cmd] := by
  simp [State.writeGone, State.ingressFree, hheld, hw, Tab.del, State.onlyChanges_iff]

/-- Taking a write out of those in flight neither clears nor blocks a path. -/
theorem State.clearPath_writeGone {s : State} {id : Nat} {w : InWrite} (hheld : w.held = 0) {k : Packet} {p : Nat}
    (h : s.clearPath k p) : (s.writeGone id w).clearPath k p := by
  unfold State.writeGone State.ingressFree
  rw [if_pos hheld]
  exact h

/-- The bytes that a write stores. -/
def InWrite.bytes (w : InWrite) : Bytes := slice w.pkt.payload (w.pkt.addr % 64) w.pkt.len

/-- The state after a write's bytes are stored, its granules mended and its line store touched. -/
def State.stored (s : State) (w : InWrite) (ks : List Nat) : State :=
  ((s.mendKeys ks).writeTier w.tier w.at_ w.bytes).touch w.tier w.at_ w.pkt.len

/-- A write alone in flight whose second trailer check fails stores nothing and is counted (R125). -/
theorem writePerformed_badTrailer {s : State} {id : Nat} {w : InWrite} (hw : s.pool.writes = [(id, w)]) :
    writePerformed id false s = (s.writeGone id w).bump Reg.XBR_DROP_EXEC_CRC := by
  simp [writePerformed, hw, Tab.find?, State.drop, dropFld, causeEXEC_CHECK, causeNO_ROUTE, causeMATCH]

/-- A write alone in flight, over good granules: stored, and answered where it is fenced (R149). -/
theorem writePerformed_good {s : State} {id : Nat} {w : InWrite} (hw : s.pool.writes = [(id, w)])
    (hbad : s.badRange w.tier w.at_ w.pkt.len = false) (hlen : 0 < w.pkt.len) (hheld : w.held = 0) : ∃ ks,
    writePerformed id true s = if w.fenced then ((s.writeGone id w).stored w ks).answer connHE0 (respond w.pkt stOK 0 [])
      else (s.writeGone id w).stored w ks := by
  have hflt : (s.writeGone id w).flt = s.flt := (State.writeGone_only hw hheld).2 .flt (by decide)
  have hkey : (s.writeGone id w).badKey = s.badKey := by
    funext k
    rw [State.badKey, State.badKey, hflt]
  have hbad' : (s.writeGone id w).badRange w.tier w.at_ w.bytes.length = false := by
    rw [State.badRange, hkey, InWrite.bytes, length_slice]
    exact hbad
  obtain ⟨ks, hks⟩ := State.performWrite_good (s := s.writeGone id w) (w := { tier := w.tier, at_ := w.at_, data := w.bytes }) hbad'
    (by rw [InWrite.bytes, length_slice]; exact hlen)
  refine ⟨ks, ?_⟩
  have hhit : ∀ g : Nat → Bool, (granKeys w.tier w.at_ w.pkt.len).any (fun k => (s.writeGone id w).badKey k && g k) = false := by
    intro g
    rw [List.any_eq_false]
    intro k hk
    rw [State.badRange, List.any_eq_false] at hbad
    simp [hkey, hbad k hk]
  unfold writePerformed
  simp only [hw, Tab.find?, if_true, List.any_cons, List.any_nil, Nat.lt_irrefl, decide_false, Bool.false_and, Bool.or_false,
    Bool.false_eq_true, if_false, Bool.not_true]
  rw [InWrite.bytes] at hks
  rw [hks]
  simp only [hhit, Bool.false_eq_true, if_false]
  rfl

theorem State.onlyChanges_stored (s : State) (w : InWrite) (ks : List Nat) :
    (w.tier = tierNEAR → s.onlyChanges (s.stored w ks) [.near, .flt, .fab]) ∧
      (w.tier = tierTRAY → s.onlyChanges (s.stored w ks) [.tray, .flt, .fab]) := by
  constructor <;> intro ht <;>
    simp [State.onlyChanges_iff, State.stored, State.touch, State.mendKeys, State.writeTier, ht, tierNEAR, tierTRAY]

/-- The near-tier memory after a store there. -/
theorem State.stored_near (s : State) {w : InWrite} (ks : List Nat) (h : w.tier = tierNEAR) :
    (s.stored w ks).near = memWrite s.near w.at_ w.bytes := by
  simp [State.stored, State.touch, State.mendKeys, State.writeTier, h]

/-- The tray-tier memory after a store there. -/
theorem State.stored_tray (s : State) {w : InWrite} (ks : List Nat) (h : w.tier = tierTRAY) :
    (s.stored w ks).tray = memWrite s.tray w.at_ w.bytes := by
  simp [State.stored, State.touch, State.mendKeys, State.writeTier, h, tierNEAR, tierTRAY]

/-- A store mends granules and touches lines: no route depends on either. -/
theorem State.clearPath_stored {s : State} {k : Packet} {p : Nat} (h : s.clearPath k p) (w : InWrite) (ks : List Nat) :
    (s.stored w ks).clearPath k p := by
  unfold State.stored State.touch State.writeTier
  split
  · exact h
  · split <;> exact h

theorem State.stored_pool (s : State) (w : InWrite) (ks : List Nat) : (s.stored w ks).pool = s.pool := by
  simp [State.stored, State.touch]

/-- Exactly the bytes of a write's range take its payload. -/
theorem memGet_bytes {m : List Host.Cell} (h : Memory.wf m = true) (w : InWrite) :
    (∀ k, k < w.pkt.len → memGet (memWrite m w.at_ w.bytes) (w.at_ + k) = w.bytes.getD k 0) ∧
      (∀ a, (a < w.at_ ∨ w.at_ + w.pkt.len ≤ a) → memGet (memWrite m w.at_ w.bytes) a = memGet m a) := by
  have hlen : w.bytes.length = w.pkt.len := length_slice _ _ _
  exact ⟨fun k hk => memGet_memWrite_getD h _ _ (hlen.symm ▸ hk), fun a ha => memGet_write_outside m _ _ a h (hlen.symm ▸ ha)⟩

/-- Granules of equal ranges' first bytes are shared. -/
theorem granKey_mem_granKeys {tier a n : Nat} (hn : 0 < n) : granKey tier a ∈ granKeys tier a n := by
  rw [granKeys, if_neg (by omega)]
  exact List.mem_map.mpr ⟨0, List.mem_range.mpr (Nat.succ_pos _), Nat.add_zero _⟩

/-- A write behind an earlier one to its first granule waits (R22). -/
theorem writePerformed_behind {s : State} {id id' : Nat} {w w' : InWrite} (hw : s.pool.writes = [(id', w'), (id, w)]) (hlt : id' < id)
    (htier : w'.tier = w.tier) (hat : w'.at_ = w.at_) (hlen : 0 < w.pkt.len) (hlen' : 0 < w'.pkt.len) (b : Bool) :
    writePerformed id b s = s := by
  have hfind : Tab.find? s.pool.writes id = some w := by simp [hw, Tab.find?, Nat.ne_of_lt hlt]
  have hany : (s.pool.writes.any fun x => decide (x.1 < id) &&
      (granKeys x.2.tier x.2.at_ x.2.pkt.len).any (granKeys w.tier w.at_ w.pkt.len).contains) = true := by
    rw [List.any_eq_true]
    refine ⟨(id', w'), by simp [hw], ?_⟩
    rw [Bool.and_eq_true, decide_eq_true_eq, List.any_eq_true]
    refine ⟨hlt, granKey w'.tier w'.at_, granKey_mem_granKeys hlen', ?_⟩
    rw [List.contains_iff_mem, htier, hat]
    exact granKey_mem_granKeys hlen
  unfold writePerformed
  rw [hfind]
  exact if_pos hany

/-- Settles O15: entering the writes in flight, performing near-tier and tray-tier writes, and waiting behind an earlier one. -/
theorem writesArePerformedInOrder : Obligations.WritesArePerformedInOrder := by
  intro s
  refine ⟨?enter, ?near, ?tray, ?behind⟩
  case enter =>
    intro q rest i e p hq hwin hres hpre hmove
    have hat : (s.popHome rest).writeAt q = _ := State.writeAt_ok (s := s.popHome rest) hwin hres hpre hmove
    have hframe : s.onlyChanges ((s.popHome rest).enterWrite q i e) [.fab, .pool] :=
      State.onlyChanges_trans (State.onlyChanges_mono (s.onlyChanges_popHome rest) (by decide))
        (State.onlyChanges_mono (State.onlyChanges_enterWrite _ q i e) (by decide))
    have hwrites := (s.popHome rest).enterWrite_writes q i e
    constructor
    · intro hop hpath
      have hpath' : ((s.popHome rest).enterWrite q i e).clearPath (respond q.pkt stOK 0 []) p := hpath
      rw [if_pos hop, State.answer_of_clearPath hpath'] at hat
      refine ⟨write_ s, inWriteOf q i e, rfl, ?_⟩
      rw [write_of_head hq (Packet.kind_write hop hwin), hat]
      exact ⟨rfl, hwrites, rfl, rfl, rfl, rfl, by simp [inWriteOf, hop, opWRITE, opWRITE_FENCED], State.voq_voqPush _ p _,
        State.onlyChanges_trans (State.onlyChanges_mono hframe (by decide))
          (State.onlyChanges_mono (State.onlyChanges_voqPush _ p _) (by decide))⟩
    · intro hop
      rw [if_neg (by simp [hop, opWRITE, opWRITE_FENCED])] at hat
      refine ⟨writeFenced s, inWriteOf q i e, rfl, ?_⟩
      rw [writeFenced_of_head hq (Packet.kind_writeFenced hop hwin), hat]
      exact ⟨rfl, hwrites, rfl, rfl, by simp [inWriteOf, hop], hframe⟩
  case near =>
    intro id w hw htier hheld hbad hlen hfenced hwf
    obtain ⟨hnone, hgone⟩ := State.writeGone_only hw hheld
    constructor
    · obtain ⟨ks, hks⟩ := writePerformed_good hw (htier ▸ hbad) hlen hheld
      rw [if_neg (by simp [hfenced])] at hks
      have hnear : (writePerformed id true s).near = memWrite s.near w.at_ w.bytes := by
        rw [hks, State.stored_near _ ks htier]
        congr 1
        exact hgone .near (by decide)
      refine ⟨writePerformed id true s, rfl, by rw [hks, State.stored_pool, hnone], ?_, ?_, ?_⟩
      · rw [hnear]; exact (memGet_bytes hwf w).1
      · rw [hnear]; exact (memGet_bytes hwf w).2
      · rw [hks]
        exact State.onlyChanges_trans (State.onlyChanges_mono hgone (by decide))
          (State.onlyChanges_mono ((State.onlyChanges_stored _ w ks).1 htier) (by decide))
    · refine ⟨writePerformed id false s, rfl, ?_⟩
      have hreg : (s.writeGone id w).regs = s.regs := hgone .regs (by decide)
      rw [writePerformed_badTrailer hw]
      refine ⟨hnone, ?_, State.onlyChanges_trans (State.onlyChanges_mono hgone (by decide)) (State.onlyChanges_bump _ _ 0 0 1 (by decide))⟩
      rw [State.rd_bump_self _ _ _ _ _ (by decide), State.rd_congr hreg]
  case tray =>
    intro id w p hw htier hheld hbad hlen hfenced hpath hwf
    obtain ⟨-, hgone⟩ := State.writeGone_only hw hheld
    obtain ⟨ks, hks⟩ := writePerformed_good hw (htier ▸ hbad) hlen hheld
    have hpath' := State.clearPath_stored (State.clearPath_writeGone (id := id) hheld hpath) w ks
    rw [if_pos hfenced, State.answer_of_clearPath hpath'] at hks
    have htray : (writePerformed id true s).tray = memWrite s.tray w.at_ w.bytes := by
      rw [hks]
      refine (State.stored_tray _ ks htier).trans ?_
      congr 1
      exact hgone .tray (by decide)
    have hframe : s.onlyChanges ((s.writeGone id w).stored w ks) [.tray, .pool, .fab, .cmd, .flt, .xbr] :=
      State.onlyChanges_trans (State.onlyChanges_mono hgone (by decide))
        (State.onlyChanges_mono ((State.onlyChanges_stored _ w ks).2 htier) (by decide))
    refine ⟨writePerformed id true s, rfl, ?_, ?_, ?_, ?_⟩
    · rw [htray]; exact (memGet_bytes hwf w).1
    · rw [htray]; exact (memGet_bytes hwf w).2
    · have hx : ((s.writeGone id w).stored w ks).xbr = s.xbr := by
        simp [State.stored, State.touch, State.writeGone, State.ingressFree, hheld]
      have hh : ((s.writeGone id w).stored w ks).hclk = s.hclk := hframe .hclk (by decide)
      rw [hks, State.voq_voqPush, State.voqWith, State.voqWith, State.voq, State.voq, hx, hh]
    · rw [hks]
      exact State.onlyChanges_trans hframe (State.onlyChanges_mono (State.onlyChanges_voqPush _ p _) (by decide))
  case behind =>
    intro id w id' w' b hw hlt htier hat hlen hlen'
    exact congrArg Host.Outcome.next (writePerformed_behind hw hlt htier hat hlen hlen' b)

end Sys2Proof.Machine
end

section
/-!
PROOF. ATOMIC (R130–R134).  An atomic taken from MH's queue is executed in its unit: from the history where it is a copy, else by one store, one
history entry and one answer.
-/
namespace Sys2Proof.Machine

/-! Routes. -/

/-- The fields that routes and captures depend on. -/
def routeFlds : List Fld :=
  [Reg.RTE_ACTIVE_BANK, Reg.POOL_HOME_HOME, Reg.FAB_DEAD, Reg.FAB_PSTAT_DEAD, Reg.XBR_CAP_CTL_ENABLE]

/-- Routes depend on the banks, the configuration, the bad entries and the route fields. -/
theorem State.lookup_congr {s t : State} (hrd : ∀ f ∈ routeFlds, ∀ i j, t.rd f i j = s.rd f i j) (hxbr : t.xbr = s.xbr)
    (hcfg : t.cfg = s.cfg) (hbad : t.flt.badEntries = s.flt.badEntries) (conn : Nat) (k : Packet) :
    t.lookup conn k = s.lookup conn k := by
  have hbank : t.bank = s.bank := by
    rw [State.bank, State.bank, hrd Reg.RTE_ACTIVE_BANK (by decide), hxbr]
  have hbe : t.badEntry = s.badEntry := by
    funext x y
    rw [State.badEntry, State.badEntry, hrd Reg.RTE_ACTIVE_BANK (by decide), hbad]
  have halive : t.alive = s.alive := by
    funext p
    rw [State.alive, State.alive, State.on, State.on, hrd Reg.FAB_PSTAT_DEAD (by decide)]
  have hdead : t.homeDead = s.homeDead := by
    funext h
    rw [State.homeDead, State.homeDead, hrd Reg.FAB_DEAD (by decide)]
  simp only [State.lookup, State.bestMatch, State.egressBy, State.localUnit, State.clientOf, State.portCfg, hbank, hbe, halive, hdead,
    hcfg, hrd Reg.POOL_HOME_HOME (by decide)] <;> rfl

/-- A counter that is no route field neither clears nor blocks a path. -/
theorem State.clearPath_bump {s : State} {k : Packet} {p : Nat} (h : s.clearPath k p) {f : Fld}
    (hf : (routeFlds.all fun g => g.separate f) = true) (i j n : Nat) : (s.bump f i j n).clearPath k p := by
  have hrd : ∀ g ∈ routeFlds, ∀ a b, (s.bump f i j n).rd g a b = s.rd g a b := fun g hg a b =>
    s.rd_bump_separate f i j n (List.all_eq_true.mp hf g hg) a b
  obtain ⟨hl, hcap, hfence⟩ := h
  refine ⟨(State.lookup_congr hrd (s.bump_xbr f i j n) (s.bump_cfg f i j n) (by rw [State.bump_flt]) _ _).trans hl, ?_, hfence⟩
  rw [State.on, hrd _ (by decide)]
  exact hcap

/-! The unit. -/

theorem Packet.kind_atomic {k : Packet} (hop : k.opcode = opATOMIC) : k.kind = .atomic := by
  simp [Packet.kind, hop, opATOMIC, opWRITE, opWRITE_FENCED, opCOMMAND, opSTEP, opGATHER_REQ, opREAD]

/-- An atomic that resolves is executed in its unit. -/
theorem atomic_ok {s : State} {q : QPkt} {rest : List QPkt} {i : Nat} {e : Extent} (hq : s.fab.he0 = q :: rest)
    (hop : q.pkt.opcode = opATOMIC) (hpre : s.preCheck q false = none) (hwin : q.pkt.inWindow = false)
    (hres : s.resolve (s.who q).1 (s.who q).2 rtA q.pkt ((atomicSize (bits q.pkt.arg 4 4)).getD 4) = (stOK, some (i, e)))
    (hbehind : s.behindWrite q.pkt 1 = false) (hmove : Tab.find? s.pool.moves i = none) :
    atomic s = (s.popHome rest).atomicExec q i := by
  have hpre' : (s.popHome rest).preCheck q false = none := hpre
  have hres' : (s.popHome rest).resolve ((s.popHome rest).who q).1 ((s.popHome rest).who q).2 rtA q.pkt
      ((atomicSize (bits q.pkt.arg 4 4)).getD 4) = (stOK, some (i, e)) := hres
  have hbehind' : (s.popHome rest).behindWrite q.pkt 1 = false := hbehind
  unfold atomic
  rw [← Packet.kind_atomic hop, State.takeHome_of_head hq]
  simp only [hpre', hwin, hres', hbehind', Bool.false_eq_true, if_false]
  rw [State.writerWins_of_no_move (s := s.popHome rest) hmove]

/-- A copy of a request in the unit's history is answered from it (R133). -/
theorem State.atomicExec_copy {s : State} {q : QPkt} {i : Nat} {x : HistEnt}
    (h : (s.young (Tab.getD s.fab.hist (dieAt (s.ext i).tier ((s.ext i).at_ q.pkt.localAddr)) [])).find?
      (fun x => x.src == q.pkt.src && x.seq == q.pkt.seq) = some x) :
    s.atomicExec q i = (s.bump Reg.FAB_HIST_DUP).reply q x.status (setBits x.arg 1 1 1) (atomicPayload x.old) := by
  unfold State.atomicExec
  simp only [h]

/-- The history entry of an atomic executed with an old value. -/
def State.histEntOf (s : State) (k : Packet) (i old : Nat) (ok : Bool) : HistEnt :=
  { src := k.src, seq := k.seq, addr := k.addr, status := stOK, arg := b2n ok, old := old, time := s.tnow, born := s.hclk, ext := i }

/-- The state after an atomic's store and history entry, for a near-tier location. -/
def State.atomicDone (s : State) (a d n v : Nat) (h : List HistEnt) : State :=
  ((s.writeTier tierNEAR a (leBytes n v)).fill tierNEAR a).upFab fun b => { b with hist := Tab.put b.hist d h }

/-- An atomic of no request in the history, on a near-tier location that can be read (R130–R133). -/
theorem State.atomicExec_new {s : State} {q : QPkt} {i : Nat} (hnear : (s.ext i).tier = tierNEAR) {a d n old v : Nat} {ok : Bool}
    (ha : a = (s.ext i).at_ q.pkt.localAddr) (hd : d = dieAt tierNEAR a) (hn : n = (atomicSize (bits q.pkt.arg 4 4)).getD 4)
    (hold : old = leNat (memRead s.near a n))
    (hv : (v, ok) = atomicOp (q.pkt.arg % 16) (bits q.pkt.arg 4 4) old (fld q.pkt.payload 0 n) (fld q.pkt.payload 16 n))
    (hfind : (s.young (Tab.getD s.fab.hist d [])).find? (fun x => x.src == q.pkt.src && x.seq == q.pkt.seq) = none)
    (hroom : (s.young (Tab.getD s.fab.hist d [])).length < histCapacity) (hbad : s.badRange tierNEAR a n = false) :
    s.atomicExec q i = (s.atomicDone a d n v (s.young (Tab.getD s.fab.hist d []) ++ [s.histEntOf q.pkt i old ok])).reply q stOK (b2n ok)
      (atomicPayload old) := by
  unfold State.atomicExec
  simp only [hnear, ← ha, ← hd, hfind, Nat.not_le.mpr hroom, if_false, ← hn, hbad, Bool.false_eq_true, State.readTier, if_true,
    ← hold, ← hv]
  rfl

theorem State.onlyChanges_atomicDone (s : State) (a d n v : Nat) (h : List HistEnt) :
    s.onlyChanges (s.atomicDone a d n v h) [.near, .fab] := by
  simp [State.onlyChanges_iff, State.atomicDone, State.fill, State.writeTier]

theorem State.atomicDone_near (s : State) (a d n v : Nat) (h : List HistEnt) :
    (s.atomicDone a d n v h).near = memWrite s.near a (leBytes n v) := by
  simp [State.atomicDone, State.fill, State.writeTier]

theorem State.clearPath_atomicDone {s : State} {k : Packet} {p : Nat} (h : s.clearPath k p) (a d n v : Nat) (l : List HistEnt) :
    (s.atomicDone a d n v l).clearPath k p := h

/-- Settles O16: a new atomic is executed once, a copy is answered from the history, and old entries leave it. -/
theorem atomicsExecuteOnce : Obligations.AtomicsExecuteOnce := by
  intro s q rest i e p hq hop hpre hwin hheld hres hbehind hmove hnear hpath a d n old v ok ha hd hn hold hv
  have hexec := atomic_ok hq hop hpre hwin hres hbehind hmove
  refine ⟨?new, ?copy, fun k => ⟨historyExpire k s, rfl, rfl, by simp [State.onlyChanges_iff, historyExpire]⟩⟩
  case new =>
    intro hfind hroom hbad hwf
    refine ⟨atomic s, rfl, ?_⟩
    rw [hexec, State.atomicExec_new (s := s.popHome rest) hnear ha hd hn hold hv hfind hroom hbad,
      State.reply_of_clearPath hheld (State.clearPath_atomicDone (s := s.popHome rest) (hpath _ _ _) ..)]
    generalize hu : (s.popHome rest).atomicDone a d n v
      ((s.popHome rest).young (Tab.getD (s.popHome rest).fab.hist d []) ++ [(s.popHome rest).histEntOf q.pkt i old ok]) = u
    have hframe : s.onlyChanges u [.near, .fab] := hu ▸
      State.onlyChanges_trans (State.onlyChanges_mono (s.onlyChanges_popHome rest) (by decide)) (State.onlyChanges_atomicDone _ a d n v _)
    have hmem : u.near = memWrite s.near a (leBytes n v) := hu ▸ State.atomicDone_near ..
    have hxbr : u.xbr = s.xbr := hframe .xbr (by decide)
    have hclk : u.hclk = s.hclk := hframe .hclk (by decide)
    refine ⟨hu ▸ rfl, fun k hk => ?_, fun x hx => ?_, ⟨s.histEntOf q.pkt i old ok, ?_, rfl, rfl, rfl, rfl, rfl⟩, ?_, ?_⟩
    · show memGet u.near (a + k) = _
      rw [hmem, memGet_memWrite_getD hwf _ _ (by simpa using hk)]
    · show memGet u.near x = _
      rw [hmem, memGet_write_outside _ _ _ _ hwf (by simpa using hx)]
    · rw [← hu]
      exact Tab.find?_put_self _ _ _
    · rw [State.voq_voqPush, State.voqWith, State.voqWith, State.voq, State.voq, hxbr, hclk]
    · exact State.onlyChanges_trans (State.onlyChanges_mono hframe (by decide))
        (State.onlyChanges_mono (State.onlyChanges_voqPush _ p _) (by decide))
  case copy =>
    intro x hfind
    have hcopy : (s.popHome rest).atomicExec q i = _ := State.atomicExec_copy (s := s.popHome rest) (i := i) (x := x) (by
      rw [ha] at hd
      rw [show ((s.popHome rest).ext i).tier = tierNEAR from hnear]
      rw [hd] at hfind
      exact hfind)
    rw [State.reply_of_clearPath hheld (State.clearPath_bump (s := s.popHome rest) (hpath _ _ _) (by decide) 0 0 1)] at hcopy
    refine ⟨atomic s, rfl, ?_⟩
    rw [hexec, hcopy]
    refine ⟨rfl, ?_, State.voq_voqPush _ p _, ?_⟩
    · exact State.rd_bump_self (s.popHome rest) Reg.FAB_HIST_DUP 0 0 1 (by decide)
    · exact State.onlyChanges_trans (State.onlyChanges_mono (s.onlyChanges_popHome rest) (by decide))
        (State.onlyChanges_trans (State.onlyChanges_bump _ Reg.FAB_HIST_DUP 0 0 1 (by decide))
          (State.onlyChanges_mono (State.onlyChanges_voqPush _ p _) (by decide)))

end Sys2Proof.Machine
end

section
/-!
PROOF. Reading ranges of memory, changing the entries of a table one after another, and what the engine's bookkeeping leaves alone.
-/
namespace Sys2Proof.Machine

/-! Ranges of memory. -/

/-- The cells from an address on hold the bytes read from there. -/
theorem readCells_eq_map (n a : Nat) {m : List Host.Cell} (h : Memory.wf m = true) (ha : ∀ c ∈ m, a ≤ c.1) :
    readCells n a m = (List.range n).map fun i => memGet m (a + i) := by
  induction n generalizing a m with
  | zero => rfl
  | succ n ih =>
    have hshift : (List.range (n + 1)).map (fun i => memGet m (a + i)) =
        memGet m a :: (List.range n).map fun i => memGet m (a + 1 + i) := by
      rw [List.range_succ_eq_map, List.map_cons, List.map_map]
      simp only [Function.comp_def, Nat.add_zero, Nat.succ_eq_add_one, Nat.add_comm 1, Nat.add_assoc]
    rw [hshift]
    cases m with
    | nil => exact congrArg _ (ih (a + 1) h (by simp))
    | cons x t =>
      obtain ⟨k, v⟩ := x
      obtain ⟨hp, hd⟩ := (Memory.wf_iff _).mp h
      obtain ⟨hk, hpt⟩ := List.pairwise_cons.mp hp
      have hle : a ≤ k := ha (k, v) List.mem_cons_self
      by_cases hka : k = a
      · subst hka
        have ht : ∀ c ∈ t, k + 1 ≤ c.1 := fun c hc => hk c hc
        have hwf : Memory.wf t = true := (Memory.wf_iff _).mpr ⟨hpt, fun c hc => hd c (List.mem_cons_of_mem _ hc)⟩
        have hskip : ∀ i, memGet ((k, v) :: t) (k + 1 + i) = memGet t (k + 1 + i) := fun i => by
          simp only [memGet]
          rw [if_neg (by omega), if_neg (by omega)]
        simp only [readCells, if_true, ih (k + 1) hwf ht, memGet, List.cons.injEq, true_and]
        exact List.map_congr_left fun i _ => (hskip i).symm
      · have hlt : ∀ c ∈ (k, v) :: t, a + 1 ≤ c.1 := by
          intro c hc
          rcases List.mem_cons.mp hc with hc | hc
          · subst hc; simp only; omega
          · have := hk c hc; simp only at this; omega
        have hget : memGet ((k, v) :: t) a = memDefault := by
          simp only [memGet]
          rw [if_neg hka, if_pos (by omega)]
        simp only [readCells, if_neg hka, ih (a + 1) h hlt, hget]

/-- In a canonical memory the cells below an address read nothing at or above it. -/
theorem memGet_dropWhile {m : List Host.Cell} (h : Memory.wf m = true) {a x : Nat} (hx : a ≤ x) :
    memGet (m.dropWhile fun c => c.1 < a) x = memGet m x := by
  induction m with
  | nil => rfl
  | cons y t ih =>
    obtain ⟨k, v⟩ := y
    obtain ⟨hp, hd⟩ := (Memory.wf_iff _).mp h
    have hwf : Memory.wf t = true :=
      (Memory.wf_iff _).mpr ⟨(List.pairwise_cons.mp hp).2, fun c hc => hd c (List.mem_cons_of_mem _ hc)⟩
    by_cases hka : k < a
    · rw [List.dropWhile_cons_of_pos (by simpa using hka), ih hwf]
      simp only [memGet]
      rw [if_neg (by omega)]
      split
      · next hlt => omega
      · rfl
    · rw [List.dropWhile_cons_of_neg (by simpa using hka)]

/-- Reading a range gives its bytes one by one. -/
theorem memRead_eq_map {m : List Host.Cell} (h : Memory.wf m = true) (a n : Nat) :
    memRead m a n = (List.range n).map fun i => memGet m (a + i) := by
  have hsub : (m.dropWhile fun c => decide (c.1 < a)).Sublist m := List.dropWhile_sublist _
  obtain ⟨hp, hd⟩ := (Memory.wf_iff _).mp h
  have hwf : Memory.wf (m.dropWhile fun c => decide (c.1 < a)) = true :=
    (Memory.wf_iff _).mpr ⟨hp.sublist hsub, fun c hc => hd c (hsub.subset hc)⟩
  have hge : ∀ c ∈ m.dropWhile (fun c => decide (c.1 < a)), a ≤ c.1 := by
    cases hm : m.dropWhile (fun c => decide (c.1 < a)) with
    | nil => simp
    | cons y t =>
      have hy : ¬ y.1 < a := by
        have := List.head_dropWhile_not (l := m) (fun c : Host.Cell => decide (c.1 < a)) (by simp [hm])
        simpa [hm] using this
      have hpt := List.pairwise_cons.mp (hm ▸ ((Memory.wf_iff _).mp hwf).1)
      intro c hc
      rcases List.mem_cons.mp hc with hc | hc
      · subst hc; omega
      · have := hpt.1 c hc; omega
  rw [memRead, readCells_eq_map n a hwf hge]
  exact List.map_congr_left fun i _ => memGet_dropWhile h (Nat.le_add_right _ _)

/-- A range just stored reads back as the bytes stored. -/
theorem memRead_memWrite {m : List Host.Cell} (h : Memory.wf m = true) (a : Nat) (d : Bytes) :
    memRead (memWrite m a d) a d.length = d := by
  rw [memRead_eq_map (Memory.wf_write m a d h)]
  refine List.ext_getElem (by simp) fun i hi _ => ?_
  rw [List.getElem_map, List.getElem_range]
  exact memGet_write_inside m a d i h (by simpa using hi)

/-! Extents changed one after another. -/

/-- Changes of extents change the extents' table alone. -/
theorem State.foldl_upExt (is : List Nat) (f : Extent → Extent) (s : State) :
    is.foldl (fun s i => s.upExt i f) s = s.upPool fun b => { b with extents := is.foldl (fun t i => Tab.upd t i f) b.extents } := by
  induction is generalizing s with
  | nil => rfl
  | cons i is ih => rw [List.foldl_cons, ih]; rfl

/-- Changing a list of distinct listed keys changes each once. -/
theorem Tab.find?_foldl_upd {α : Type} (is : List Nat) (f : α → α) (t : Tab α) (hnd : is.Nodup) (j : Nat) :
    Tab.find? (is.foldl (fun t i => Tab.upd t i f) t) j = if j ∈ is then (Tab.find? t j).map f else Tab.find? t j := by
  induction is generalizing t with
  | nil => simp
  | cons i is ih =>
    obtain ⟨hi, hnd⟩ := List.nodup_cons.mp hnd
    rw [List.foldl_cons, ih _ hnd]
    by_cases hji : j = i
    · subst hji
      simp [hi]
    · simp [hji, Tab.find?_upd_ne t f hji]

/-- Dropping references changes the counts of references alone. -/
theorem State.ext_dropRefs (s : State) (rs ws : List Nat) (i : Nat) :
    ∃ a b, (s.dropRefs rs ws).ext i = { s.ext i with rrefs := a, wrefs := b } := by
  have hone : ∀ (s : State) (j : Nat) (f : Extent → Extent), (∀ e, ∃ a b, f e = { e with rrefs := a, wrefs := b }) →
      ∃ a b, (s.upExt j f).ext i = { s.ext i with rrefs := a, wrefs := b } := by
    intro s j f hf
    by_cases hij : i = j
    · subst hij
      cases hfind : Tab.find? s.pool.extents i with
      | none => exact ⟨0, 0, by simp [State.ext, State.upExt, State.upPool, Tab.getD, hfind]⟩
      | some e =>
        obtain ⟨a, b, hab⟩ := hf e
        exact ⟨a, b, by simp [State.ext, State.upExt, State.upPool, Tab.getD, hfind, hab]⟩
    · exact ⟨_, _, by simp [State.ext, State.upExt, State.upPool, Tab.getD, Tab.find?_upd_ne _ f hij]; rfl⟩
  have hfold : ∀ (f : Extent → Extent), (∀ e, ∃ a b, f e = { e with rrefs := a, wrefs := b }) → ∀ (is : List Nat) (s : State),
      ∃ a b, (is.foldl (fun s i => s.upExt i f) s).ext i = { s.ext i with rrefs := a, wrefs := b } := by
    intro f hf is
    induction is with
    | nil => exact fun s => ⟨_, _, rfl⟩
    | cons j is ih =>
      intro s
      obtain ⟨a, b, h1⟩ := ih (s.upExt j f)
      obtain ⟨a', b', h2⟩ := hone s j f hf
      exact ⟨a, b, by rw [List.foldl_cons, h1, h2]⟩
  obtain ⟨a, b, h1⟩ := hfold (fun e => { e with rrefs := e.rrefs - 1 }) (fun e => ⟨_, _, rfl⟩) rs s
  obtain ⟨a', b', h2⟩ := hfold (fun e => { e with wrefs := e.wrefs - 1 }) (fun e => ⟨_, _, rfl⟩) ws
    (rs.foldl (fun s i => s.upExt i fun e => { e with rrefs := e.rrefs - 1 }) s)
  exact ⟨a', b', by rw [State.dropRefs]; simp only; rw [h2, h1]⟩

theorem State.dropRefs_eq (s : State) (rs ws : List Nat) : ∃ x, s.dropRefs rs ws = s.upPool fun b => { b with extents := x } := by
  refine ⟨(s.dropRefs rs ws).pool.extents, ?_⟩
  unfold State.dropRefs
  simp only
  rw [State.foldl_upExt, State.foldl_upExt]
  rfl

/-! Watermarks and gauges. -/

theorem State.onlyChanges_measure (s : State) (w : Wm) (q i j : Nat) : s.onlyChanges (s.measure w q i j) [.regs] := by
  unfold State.measure
  simp only
  split
  · exact s.onlyChanges_refl _
  · split <;> simp [State.onlyChanges_iff]

/-- The fields of a watermark. -/
def Wm.flds (w : Wm) : List Fld := [w.level, w.up, w.down, w.cross]

/-- A measure writes the watermark's fields alone. -/
theorem State.rd_measure_separate (s : State) (w : Wm) (q i j : Nat) {g : Fld} (h : (w.flds.all fun f => g.separate f) = true)
    (a b : Nat) : (s.measure w q i j).rd g a b = s.rd g a b := by
  simp only [Wm.flds, List.all_cons, List.all_nil, Bool.and_true, Bool.and_eq_true] at h
  obtain ⟨hl, hu, hd, hc⟩ := h
  unfold State.measure
  simp only
  split
  · rfl
  · rw [State.rd_bump_separate _ _ _ _ _ hc]
    split
    · rw [State.rd_wr_separate _ _ _ _ _ hu, State.wrb, State.rd_wr_separate _ _ _ _ _ hl]
    · rw [State.rd_wr_separate _ _ _ _ _ hd, State.wrb, State.rd_wr_separate _ _ _ _ _ hl]

/-- The fields that `syncCmd` writes. -/
def syncCmdFlds : List Fld :=
  [Reg.CMD_FEN_STAGE_USED_CHUNKS, Reg.CMD_FEN_WAIT_STAGE, Reg.CMD_FEN_CTX_USED] ++ wmCtx.flds

theorem State.onlyChanges_syncCmd (s : State) (fen : Nat) : s.onlyChanges (s.syncCmd fen) [.regs] := by
  unfold State.syncCmd
  simp only
  exact State.onlyChanges_trans (by simp [State.onlyChanges_iff]) (State.onlyChanges_measure _ _ _ _ _)

theorem State.rd_syncCmd_separate (s : State) (fen : Nat) {g : Fld} (h : (syncCmdFlds.all fun f => g.separate f) = true) (a b : Nat) :
    (s.syncCmd fen).rd g a b = s.rd g a b := by
  simp only [syncCmdFlds, List.all_append, List.all_cons, List.all_nil, Bool.and_true, Bool.and_eq_true] at h
  obtain ⟨⟨h1, h2, h3⟩, hw⟩ := h
  unfold State.syncCmd
  simp only
  rw [State.rd_measure_separate _ _ _ _ _ hw, State.rd_wr_separate _ _ _ _ _ h3, State.rd_wr_separate _ _ _ _ _ h2,
    State.rd_wr_separate _ _ _ _ _ h1]

/-! A command leaves the engine. -/

theorem State.onlyChanges_endWork (s : State) (cid : Nat) : s.onlyChanges (s.endWork cid) [.regs, .pool, .fab, .cmd] := by
  unfold State.endWork
  split
  · exact s.onlyChanges_refl _
  · next c hc =>
    obtain ⟨x, hx⟩ := s.dropRefs_eq c.rrefs c.wrefs
    rw [hx]
    exact State.onlyChanges_trans (by simp [State.onlyChanges_iff]) (State.onlyChanges_mono (State.onlyChanges_syncCmd _ _) (by decide))

/-- A field that `syncCmd` does not write is as before. -/
theorem State.rd_endWork_separate (s : State) (cid : Nat) {g : Fld} (h : (syncCmdFlds.all fun f => g.separate f) = true) (a b : Nat) :
    (s.endWork cid).rd g a b = s.rd g a b := by
  unfold State.endWork
  split
  · rfl
  · next c hc =>
    obtain ⟨x, hx⟩ := s.dropRefs_eq c.rrefs c.wrefs
    simp only [hx]
    rw [State.rd_syncCmd_separate _ _ h]
    rfl

/-- The engine without a command. -/
def CmdState.without (b : CmdState) (cid : Nat) : CmdState :=
  { b with cmds := Tab.del b.cmds cid, running := List.filter (fun r => r.2.1 != cid) b.running }

theorem State.endWork_cmd {s : State} {cid : Nat} {c : Cmd} (h : s.cmdOf cid = some c) : (s.endWork cid).cmd = s.cmd.without cid := by
  unfold State.endWork
  rw [h]
  simp only
  obtain ⟨x, hx⟩ := s.dropRefs_eq c.rrefs c.wrefs
  refine (State.onlyChanges_syncCmd _ _ .cmd (by decide) : _ = _).trans ?_
  rw [hx]
  rfl

/-- The extents keep all but their counts of references. -/
theorem State.ext_endWork (s : State) (cid i : Nat) : ∃ a b, (s.endWork cid).ext i = { s.ext i with rrefs := a, wrefs := b } := by
  unfold State.endWork
  split
  · exact ⟨_, _, rfl⟩
  · next c hc =>
    obtain ⟨a, b, hab⟩ := s.ext_dropRefs c.rrefs c.wrefs i
    refine ⟨a, b, Eq.trans ?_ hab⟩
    have hp : ∀ (t : State) (fen : Nat), (t.syncCmd fen).pool = t.pool := fun t fen => State.onlyChanges_syncCmd t fen .pool (by decide)
    simp only [State.ext, hp]
    rfl

theorem State.endWork_moves (s : State) (cid : Nat) : (s.endWork cid).pool.moves = s.pool.moves := by
  unfold State.endWork
  split
  · rfl
  · next c hc =>
    obtain ⟨x, hx⟩ := s.dropRefs_eq c.rrefs c.wrefs
    have hp : ∀ (t : State) (fen : Nat), (t.syncCmd fen).pool = t.pool := fun t fen => State.onlyChanges_syncCmd t fen .pool (by decide)
    simp only [hp, hx]
    rfl

end Sys2Proof.Machine
end

section
/-!
PROOF. A completion (R111, R294–R296): the command leaves the engine, its entry is stored, the ring's tail advances, and counters count.
-/
namespace Sys2Proof.Machine

/-! The ring of a pair. -/

theorem State.ring_upRing_self (s : State) (p : Nat) (f : Ring → Ring) : (s.upRing p f).ring p = f (s.ring p) := by
  simp [State.ring, State.upRing, State.upCmd, Tab.getD]

theorem State.ring_upRing_ne (s : State) {p q : Nat} (f : Ring → Ring) (h : q ≠ p) : (s.upRing p f).ring q = s.ring q := by
  simp [State.ring, State.upRing, State.upCmd, Tab.getD, Tab.find?_put_ne _ _ h]

/-! The entry. -/

/-- The counters of a completion (R314, R316). -/
def State.countEntry (s : State) (c : Cmd) (status : Nat) : State :=
  let s := (s.bump Reg.CMD_CNT_DONE).bump Reg.CMD_FEN_CNT_DONE c.fen
  let s := if status = stMALFORMED then s.bump Reg.CMD_CNT_MALF else s
  if status = stKILLED then s.bump Reg.CMD_CNT_KILLED else s

theorem State.onlyChanges_countEntry (s : State) (c : Cmd) (status : Nat) : s.onlyChanges (s.countEntry c status) [.regs] := by
  unfold State.countEntry
  simp only
  split <;> split <;> simp [State.onlyChanges_iff]

/-- Where the next entry of a ring is kept. -/
def Ring.entryAddr (r : Ring) : Nat := r.cqBase + 32 * (r.cqTail % 2 ^ r.cqLog2)

/-- The entry stored in the near tier, and the ring's indices after it. -/
def State.putEntry (s : State) (pair addr : Nat) (bytes : Bytes) : State :=
  ((s.upRing pair fun r => { r with outstanding := r.outstanding - 1 }).writeTier tierNEAR addr bytes).upRing pair fun r =>
    { r with cqTail := (r.cqTail + 1) % 65536 }

theorem State.putEntry_near (s : State) (pair addr : Nat) (bytes : Bytes) :
    (s.putEntry pair addr bytes).near = memWrite s.near addr bytes := by
  simp [State.putEntry, State.upRing, State.writeTier]

theorem State.putEntry_cmd (s : State) (pair addr : Nat) (bytes : Bytes) :
    (s.putEntry pair addr bytes).cmd = ((s.upRing pair fun r => { r with outstanding := r.outstanding - 1 }).upRing pair fun r =>
      { r with cqTail := (r.cqTail + 1) % 65536 }).cmd := by
  simp [State.putEntry, State.upRing, State.writeTier, State.upCmd]

theorem State.onlyChanges_putEntry (s : State) (pair addr : Nat) (bytes : Bytes) :
    s.onlyChanges (s.putEntry pair addr bytes) [.near, .cmd] := by
  simp [State.onlyChanges_iff, State.putEntry, State.upRing, State.writeTier]

/-- A completion entry of a ring in the near tier, over a good granule of an extent that does not move. -/
theorem State.writeEntry_near {s : State} {c : Cmd} {status malf : Nat} {r : Ring} {e : Extent} (hfatal : s.fatal = false)
    (hr : s.ring c.pair = r) (he : s.ext r.cqExt = e) (htier : e.tier = tierNEAR)
    (hbad : s.badRange tierNEAR (e.at_ r.entryAddr) 32 = false) (hmove : Tab.find? s.pool.moves r.cqExt = none) :
    s.writeEntry c status malf =
      (s.putEntry c.pair (e.at_ r.entryAddr) (c.entry status malf (phaseOf r.cqTail r.cqLog2) s.tnow)).countEntry c status := by
  have hf : (s.upRing c.pair fun r => { r with outstanding := r.outstanding - 1 }).fatal = false := hfatal
  have hb : (s.upRing c.pair fun r => { r with outstanding := r.outstanding - 1 }).badRange e.tier (e.at_ r.entryAddr) 32 = false := by
    rw [htier]
    exact hbad
  have hl : ∀ bytes, (s.upRing c.pair fun r => { r with outstanding := r.outstanding - 1 }).writeLocal r.cqExt r.entryAddr bytes =
      (s.upRing c.pair fun r => { r with outstanding := r.outstanding - 1 }).writeTier tierNEAR (e.at_ r.entryAddr) bytes := by
    intro bytes
    have hx : (s.upRing c.pair fun r => { r with outstanding := r.outstanding - 1 }).ext r.cqExt = e := he
    unfold State.writeLocal
    simp only [hx, htier]
    have hm : Tab.find? ((s.upRing c.pair fun r => { r with outstanding := r.outstanding - 1 }).writeTier tierNEAR
        (e.at_ r.entryAddr) bytes).pool.moves r.cqExt = none := hmove
    rw [hm]
  rw [Ring.entryAddr] at hb hl
  unfold State.writeEntry
  simp only [hr, he, hf, hb, Bool.false_eq_true, if_false, hl]
  rfl

theorem length_entry (c : Cmd) (status malf phase now : Nat) : (c.entry status malf phase now).length = 32 := by
  simp [Cmd.entry]

/-- A command that is no chain and no checkpoint command ends by its completion. -/
theorem State.finish_plain {s : State} {cid : Nat} {c : Cmd} (h : s.cmdOf cid = some c) (hchain : c.opcode ≠ 0x20)
    (hckp : isCkp c.opcode = false) (st : Nat) : s.finish cid st = s.complete cid st := by
  unfold State.finish
  simp only [h, if_neg hchain, hckp, Bool.false_eq_true, if_false]

/-- Settles O19: the command leaves the engine, and the entry is stored on its ring. -/
theorem completionsAreWrittenOnTheirRing : Obligations.CompletionsAreWrittenOnTheirRing := by
  intro s cid st malf c r e a hc hfatal hr he htier ha hbad hmove hwf
  obtain ⟨u, hu⟩ : ∃ u, u = s.endWork cid := ⟨_, rfl⟩
  have hframe : s.onlyChanges u [.regs, .pool, .fab, .cmd] := hu ▸ s.onlyChanges_endWork cid
  have hcmd : u.cmd = s.cmd.without cid := hu ▸ State.endWork_cmd hc
  have hring : ∀ p, u.ring p = s.ring p := fun p => by rw [State.ring, hcmd]; rfl
  obtain ⟨x, y, hext⟩ := s.ext_endWork cid r.cqExt
  have hufatal : u.fatal = false := by
    rw [State.fatal, State.on, hu, State.rd_endWork_separate _ _ (by decide)]
    exact hfatal
  have hubad : u.badRange tierNEAR ((u.ext r.cqExt).at_ r.entryAddr) 32 = false := by
    have hkey : u.badKey = s.badKey := by
      funext k
      rw [State.badKey, State.badKey, (hframe .flt (by decide) : u.flt = s.flt)]
    rw [State.badRange, hkey, hu, hext, ← he]
    rw [ha] at hbad
    exact hbad
  have htnow : u.tnow = s.tnow := by rw [State.tnow, State.tnow, (hframe .tabor (by decide) : u.tabor = s.tabor)]
  have hat : (u.ext r.cqExt).at_ r.entryAddr = e.at_ a := by
    rw [hu, hext, ha, he]
    rfl
  have hnear : u.near = s.near := hframe .near (by decide)
  obtain ⟨w, hw⟩ : ∃ w, w = u.putEntry c.pair (e.at_ a) (c.entry st malf (phaseOf r.cqTail r.cqLog2) s.tnow) := ⟨_, rfl⟩
  have hdone : s.complete cid st malf = w.countEntry c st := by
    have hcomplete : s.complete cid st malf = u.writeEntry c st malf := by
      unfold State.complete
      rw [hc, hu]
    rw [hcomplete, State.writeEntry_near hufatal ((hring c.pair).trans hr.symm) rfl (by rw [hu, hext, ← he]; exact htier) hubad
      (by rw [hu, State.endWork_moves]; exact hmove), hat, htnow, ← hw]
  have hcount := State.onlyChanges_countEntry w c st
  have hwcmd : (w.countEntry c st).cmd = w.cmd := hcount .cmd (by decide)
  have hwnear : (w.countEntry c st).near = memWrite s.near (e.at_ a) (c.entry st malf (phaseOf r.cqTail r.cqLog2) s.tnow) := by
    rw [(hcount .near (by decide) : (w.countEntry c st).near = w.near), hw, State.putEntry_near, hnear]
  have hlen := length_entry c st malf (phaseOf r.cqTail r.cqLog2) s.tnow
  have hself : (w.countEntry c st).ring c.pair = { r with outstanding := r.outstanding - 1, cqTail := (r.cqTail + 1) % 65536 } := by
    rw [State.ring, hwcmd, hw, State.putEntry_cmd]
    exact (State.ring_upRing_self _ _ _).trans (by rw [State.ring_upRing_self, hring, ← hr])
  have hcmds : (w.countEntry c st).cmd.cmds = Tab.del s.cmd.cmds cid := by
    rw [hwcmd, hw, State.putEntry_cmd]
    exact congrArg CmdState.cmds hcmd
  rw [hdone]
  refine ⟨?_, ?_, by rw [hself], by rw [hself], ?_, ?_, ?_, ?_, ?_, ?_⟩
  · rw [hwnear, ← hlen]
    exact memRead_memWrite hwf _ _
  · intro b hb
    rw [hwnear]
    exact memGet_write_outside _ _ _ _ hwf (by rwa [hlen])
  · intro p hp
    rw [State.ring, hwcmd, hw, State.putEntry_cmd]
    exact (State.ring_upRing_ne _ _ hp).trans ((State.ring_upRing_ne _ _ hp).trans (hring p))
  · intro d hd
    rw [State.cmdOf, State.cmdOf, hcmds, Tab.find?_del_ne _ hd]
  · rw [State.cmdOf, hcmds, Tab.find?_del_self]
  · intro z hz
    rw [hwcmd, hw, State.putEntry_cmd] at hz
    have hz' : z ∈ u.cmd.running := hz
    rw [hcmd, CmdState.without] at hz'
    simpa using (List.mem_filter.mp hz').2
  · exact State.onlyChanges_trans (State.onlyChanges_mono hframe (by decide))
      (State.onlyChanges_trans (State.onlyChanges_mono (hw ▸ State.onlyChanges_putEntry _ _ _ _) (by decide))
        (State.onlyChanges_mono hcount (by decide)))
  · exact fun hchain hckp => State.finish_plain hc hchain hckp st

end Sys2Proof.Machine
end

section
/-!
PROOF. SCRUB_DONE while a fen reset waits for the zero-fill (R92, R513): the end of the last zero-fill ends the reset too, which is kept in
Carillon's part of the state, and O20 lists no such part.
-/
namespace Sys2Proof.Machine

/-- The last zero-fill of fen 0, of extent 0, which the fen's reset waits for. -/
def lastScrubOfReset : State :=
  { State.reset with pool := { scrubs := [(0, { units := 1, ext := some 0 })] }, car := { fenReset := some 0 } }

/-- The end of that zero-fill ends the reset. -/
theorem scrubDone_lastScrubOfReset : (scrubDone 0 lastScrubOfReset).fenResetEnd.car.fenReset = none := by decide +kernel

/-- Refutes O20: where a fen reset waits for the zero-fill, SCRUB_DONE changes Carillon's part of the state (`fenReset`), which is outside
the statement's frame. -/
theorem not_allocationTakesAndFreeReturnsSpace : ¬ Obligations.AllocationTakesAndFreeReturnsSpace := by
  intro h
  obtain ⟨-, -, hscrub⟩ := h lastScrubOfReset 0 {} 0
  obtain ⟨t, ht, -, -, -, -, -, -, hframe⟩ :=
    hscrub 0 { units := 1, ext := some 0 } rfl rfl (by decide) rfl (by decide) rfl rfl
  have hcar : t.car = lastScrubOfReset.car := hframe .car (by decide)
  have ht' : (scrubDone 0 lastScrubOfReset).fenResetEnd = t := by injection ht
  rw [← ht'] at hcar
  have hnone := congrArg CarState.fenReset hcar
  rw [scrubDone_lastScrubOfReset] at hnone
  cases hnone

end Sys2Proof.Machine
end

section
/-!
PROOF. The PREFIX and hint commands (R97, R104, R106): a table command's one chunk changes each whole extent of its range once.
-/
namespace Sys2Proof.Machine

/-! The extents of a range. -/

theorem insertBy_perm {α : Type} (key : α → Nat) (a : α) (l : List α) : (insertBy key a l).Perm (a :: l) := by
  induction l with
  | nil => exact List.Perm.refl _
  | cons b l ih =>
    unfold insertBy
    split
    · exact List.Perm.refl _
    · exact (ih.cons b).trans (List.Perm.swap a b l)

/-- A sort is a rearrangement. -/
theorem sortBy_perm {α : Type} (key : α → Nat) (l : List α) : (sortBy key l).Perm l := by
  have hfold : ∀ (l acc : List α), (l.foldl (fun acc a => insertBy key a acc) acc).Perm (acc ++ l) := by
    intro l
    induction l with
    | nil => exact fun acc => by simp
    | cons a l ih =>
      intro acc
      rw [List.foldl_cons]
      exact (ih _).trans (((insertBy_perm key a acc).append_right l).trans List.perm_middle.symm)
  simpa [sortBy] using hfold l []

/-- The extents that overlap a range are listed ones. -/
theorem State.overlapping_perm (s : State) (a n : Nat) : (s.overlapping a n).Perm
    (s.pool.extents.filter fun p => p.2.state != exFREE && decide (p.2.lo < a + n) && decide (a < p.2.hi)) := sortBy_perm _ _

theorem State.mem_extents_of_mem_overlapping {s : State} {a n : Nat} {p : Nat × Extent} (h : p ∈ s.overlapping a n) :
    p ∈ s.pool.extents := (List.mem_filter.mp ((s.overlapping_perm a n).mem_iff.mp h)).1

/-- A listed key is found. -/
theorem Tab.isSome_find?_of_mem {α : Type} {t : Tab α} {p : Nat × α} (h : p ∈ t) : (Tab.find? t p.1).isSome = true := by
  induction t with
  | nil => cases h
  | cons x t ih =>
    obtain ⟨k, v⟩ := x
    unfold Tab.find?
    split
    · rfl
    · next hne =>
      rcases List.mem_cons.mp h with h | h
      · subst h; exact absurd rfl hne
      · exact ih h

/-- The keys of a table in form are distinct. -/
theorem Tab.nodup_keys {α : Type} {t : Tab α} (h : Tab.wf t = true) : (t.map (·.1)).Nodup := by
  rw [Tab.wf_iff] at h
  rw [List.Nodup, List.pairwise_map]
  exact h.imp fun hlt => Nat.ne_of_lt hlt

/-- A command names each whole extent of its range once. -/
theorem State.whole0_nodup {s : State} (h : Tab.wf s.pool.extents = true) (c : Cmd) : (s.whole0 c).Nodup := by
  have hover : ((s.overlapping c.ref0.loc c.ref0.bytes).map (·.1)).Nodup :=
    (((s.overlapping_perm _ _).map (·.1)).nodup_iff).mpr ((Tab.nodup_keys h).sublist (List.filter_sublist.map _))
  exact hover.sublist (List.filter_sublist.map _)

/-- The extents named are listed. -/
theorem State.isSome_ext_of_mem_whole0 {s : State} {c : Cmd} {i : Nat} (h : i ∈ s.whole0 c) :
    (Tab.find? s.pool.extents i).isSome = true := by
  obtain ⟨p, hp, rfl⟩ := List.mem_map.mp h
  exact Tab.isSome_find?_of_mem (State.mem_extents_of_mem_overlapping (List.mem_filter.mp hp).1)

/-- One change made to each of a list of distinct listed extents. -/
theorem State.extentsAfter_foldl_upExt {s : State} {is : List Nat} (hnd : is.Nodup)
    (hlisted : ∀ i ∈ is, (Tab.find? s.pool.extents i).isSome = true) (f : Extent → Extent) :
    s.extentsAfter (is.foldl (fun s i => s.upExt i f) s) is f := by
  intro i
  rw [State.foldl_upExt]
  show Tab.getD (is.foldl (fun t i => Tab.upd t i f) s.pool.extents) i {} = _
  rw [Tab.getD, Tab.find?_foldl_upd _ _ _ hnd]
  by_cases hi : i ∈ is
  · obtain ⟨e, he⟩ := Option.isSome_iff_exists.mp (hlisted i hi)
    simp [hi, State.ext, Tab.getD, he]
  · simp [hi, State.ext, Tab.getD]

theorem State.extentsAfter_congr {s t u : State} {is : List Nat} {f : Extent → Extent} (h : s.extentsAfter t is f)
    (hu : u.pool.extents = t.pool.extents) : s.extentsAfter u is f := fun i => by
  rw [← h i, State.ext, State.ext, hu]

/-! A table command's chunk. -/

/-- A table command that passes its checks, whose action gives OK: one unit committed, and the completion. -/
theorem State.runTable_ok {s t : State} {cid op : Nat} {act : Cmd → State → State × Nat} {c : Cmd} (hcmd : s.tableCmd cid op = some c)
    (hcheck : s.tableCheck c 1 = stOK) (hact : act c s = (t, stOK)) :
    s.runTable cid op act = (t.upCid cid fun c => { c with committed := 1 }).finish cid stOK := by
  unfold State.runTable
  simp only [hcmd, hcheck, hact, ne_eq, not_true_eq_false, if_false, if_true]

theorem State.onlyChanges_upCid (s : State) (cid : Nat) (f : Cmd → Cmd) : s.onlyChanges (s.upCid cid f) [.cmd] := by
  simp [State.onlyChanges_iff, State.upCid]

theorem State.onlyChanges_foldl_upExt (s : State) (is : List Nat) (f : Extent → Extent) :
    s.onlyChanges (is.foldl (fun s i => s.upExt i f) s) [.pool] := by
  rw [State.foldl_upExt]
  simp [State.onlyChanges_iff]

/-- A lease clock is brought in line in the leases alone. -/
theorem State.syncLease_eq (s : State) (clid : Nat) : ∃ ls, s.syncLease clid = s.upPool fun b => { b with leases := ls } := by
  have hself : s = s.upPool fun b => { b with leases := s.pool.leases } := rfl
  unfold State.syncLease
  simp only
  split
  · split
    · exact ⟨_, rfl⟩
    · exact ⟨_, hself⟩
  · split
    · exact ⟨_, hself⟩
    · split
      · split
        · exact ⟨_, hself⟩
        · split <;> exact ⟨_, rfl⟩
      · split
        · exact ⟨_, rfl⟩
        · split
          · exact ⟨_, hself⟩
          · exact ⟨_, rfl⟩

theorem State.onlyChanges_syncLease (s : State) (clid : Nat) : s.onlyChanges (s.syncLease clid) [.pool] := by
  obtain ⟨ls, hls⟩ := s.syncLease_eq clid
  rw [hls]
  simp [State.onlyChanges_iff]

theorem State.extents_syncLease (s : State) (clid : Nat) : (s.syncLease clid).pool.extents = s.pool.extents := by
  obtain ⟨ls, hls⟩ := s.syncLease_eq clid
  rw [hls]
  rfl

/-! Changes that move no extent. -/

/-- Sorting commutes with a change that keeps the sort key. -/
theorem sortBy_map {α : Type} {key : α → Nat} {g : α → α} (hg : ∀ a, key (g a) = key a) (l : List α) :
    sortBy key (l.map g) = (sortBy key l).map g := by
  have hins : ∀ (a : α) (l : List α), insertBy key (g a) (l.map g) = (insertBy key a l).map g := by
    intro a l
    induction l with
    | nil => rfl
    | cons b l ih =>
      rw [List.map_cons, insertBy, insertBy, hg, hg]
      split
      · rfl
      · rw [ih]; rfl
  have hfold : ∀ (l acc : List α), (l.map g).foldl (fun acc a => insertBy key a acc) (acc.map g) =
      (l.foldl (fun acc a => insertBy key a acc) acc).map g := by
    intro l
    induction l with
    | nil => exact fun _ => rfl
    | cons a l ih =>
      intro acc
      rw [List.map_cons, List.foldl_cons, List.foldl_cons, hins]
      exact ih _
  exact hfold l []

/-- Whether a change of an extent keeps its place in the local address space and its state. -/
def keepsRange (f : Extent → Extent) : Prop := ∀ e, (f e).start = e.start ∧ (f e).length = e.length ∧ (f e).state = e.state

/-- Changing extents in a way that keeps their ranges leaves a command's whole extents as they were. -/
theorem State.whole0_foldl_upExt {f : Extent → Extent} (hf : keepsRange f) (is : List Nat) (s : State) (c : Cmd) :
    (is.foldl (fun s i => s.upExt i f) s).whole0 c = s.whole0 c := by
  induction is generalizing s with
  | nil => rfl
  | cons i is ih =>
    rw [List.foldl_cons, ih]
    obtain ⟨g, hg⟩ : ∃ g : Nat × Extent → Nat × Extent, g = fun p => if p.1 = i then (p.1, f p.2) else p := ⟨_, rfl⟩
    have hkey : ∀ p, (g p).1 = p.1 := fun p => by rw [hg]; simp only; split <;> rfl
    have hstart : ∀ p, (g p).2.start = p.2.start := fun p => by rw [hg]; simp only; split <;> simp [(hf p.2).1]
    have hlength : ∀ p, (g p).2.length = p.2.length := fun p => by rw [hg]; simp only; split <;> simp [(hf p.2).2.1]
    have hstate : ∀ p, (g p).2.state = p.2.state := fun p => by rw [hg]; simp only; split <;> simp [(hf p.2).2.2]
    have hlo : ∀ p, (g p).2.lo = p.2.lo := fun p => by rw [Extent.lo, Extent.lo, hstart]
    have hhi : ∀ p, (g p).2.hi = p.2.hi := fun p => by rw [Extent.hi, Extent.hi, hstart, hlength]
    have hover : (s.upExt i f).overlapping c.ref0.loc c.ref0.bytes = (s.overlapping c.ref0.loc c.ref0.bytes).map g := by
      rw [State.overlapping, State.overlapping, ← sortBy_map (fun p => hstart p)]
      have hex : (s.upExt i f).pool.extents = s.pool.extents.map g := hg ▸ rfl
      rw [hex, List.filter_map]
      refine congrArg (fun q => sortBy _ (List.map g (List.filter q s.pool.extents))) (funext fun p => ?_)
      rw [Function.comp, hlo, hhi, hstate]
    rw [State.whole0, State.whole0, State.wholeIn, State.wholeIn, hover, List.filter_map, List.map_map]
    have hfst : (fun p : Nat × Extent => p.1) ∘ g = fun p => p.1 := funext hkey
    rw [hfst]
    refine congrArg (fun q => List.map _ (List.filter q _)) (funext fun p => ?_)
    rw [Function.comp, hlo, hhi]

/-- What ADVISE makes of an extent (R97). -/
def adviseExtent (h : Nat) (e : Extent) : Extent :=
  { e with heat := h % 4, pin := if bit h 2 then true else if bit h 3 then false else e.pin }

theorem keepsRange_adviseExtent (h : Nat) : keepsRange (adviseExtent h) := fun _ => ⟨rfl, rfl, rfl⟩

/-- What ADVISE with READ_SOON does for one extent of the near tier: it drops the hint and counts. -/
theorem advise_readSoon_near {s t : State} {cid i : Nat} {c : Cmd} (hcmd : s.tableCmd cid 0x14 = some c)
    (hcheck : s.tableCheck c 1 = stOK) (hbit : bit c.p0 4 = true) (hone : s.whole0 c = [i])
    (ht : t = (s.whole0 c).foldl (fun s i => s.upExt i (adviseExtent c.p0)) s) (hnear : (t.ext i).tier = tierNEAR) :
    advise cid s = ((t.bump Reg.POOL_CNT_SOFTDROP).upCid cid fun c => { c with committed := 1 }).finish cid stOK := by
  have hwhole : t.whole0 c = [i] := by rw [ht, State.whole0_foldl_upExt (keepsRange_adviseExtent _), hone]
  refine State.runTable_ok hcmd hcheck ?_
  simp only [hbit, Bool.not_true, Bool.false_eq_true, if_false]
  change (List.foldl _ ((s.whole0 c).foldl (fun s i => s.upExt i (adviseExtent c.p0)) s)
    (State.whole0 ((s.whole0 c).foldl (fun s i => s.upExt i (adviseExtent c.p0)) s) c), stOK) = _
  rw [← ht, hwhole]
  simp only [List.foldl_cons, List.foldl_nil, hnear]
  rfl

/-- Settles O21: each command changes the whole extents of its range, each once, and completes OK. -/
theorem prefixesAndHintsMarkTheirExtents : Obligations.PrefixesAndHintsMarkTheirExtents := by
  intro s cid c hwf
  have hafter : ∀ f : Extent → Extent, s.extentsAfter ((s.whole0 c).foldl (fun s i => s.upExt i f) s) (s.whole0 c) f := fun f =>
    State.extentsAfter_foldl_upExt (State.whole0_nodup hwf c) (fun i hi => State.isSome_ext_of_mem_whole0 hi) f
  have hframe : ∀ f : Extent → Extent, s.onlyChanges (((s.whole0 c).foldl (fun s i => s.upExt i f) s).upCid cid fun c =>
      { c with committed := 1 }) [.pool, .cmd] := fun f =>
    State.onlyChanges_trans (State.onlyChanges_mono (State.onlyChanges_foldl_upExt s _ f) (by decide))
      (State.onlyChanges_mono (State.onlyChanges_upCid _ _ _) (by decide))
  refine ⟨?mark, ?ref, ?unref, ?advise⟩
  case mark =>
    intro hcmd hcheck
    refine ⟨_, congrArg Host.Outcome.next (State.runTable_ok hcmd hcheck rfl), ?_, ?_⟩
    · exact State.extentsAfter_congr (hafter _) (State.extents_syncLease _ _)
    · refine State.onlyChanges_trans ?_ (State.onlyChanges_mono (State.onlyChanges_upCid _ _ _) (by decide))
      refine State.onlyChanges_trans ?_ (State.onlyChanges_mono (State.onlyChanges_syncLease _ _) (by decide))
      exact State.onlyChanges_mono (State.onlyChanges_foldl_upExt s _ _) (by decide)
  case ref =>
    intro hcmd hcheck
    exact ⟨_, congrArg Host.Outcome.next (State.runTable_ok hcmd hcheck rfl), State.extentsAfter_congr (hafter _) rfl, hframe _⟩
  case unref =>
    intro hcmd hcheck
    exact ⟨_, congrArg Host.Outcome.next (State.runTable_ok hcmd hcheck rfl), State.extentsAfter_congr (hafter _) rfl, hframe _⟩
  case advise =>
    intro hcmd hcheck
    constructor
    · intro hbit
      refine ⟨_, congrArg Host.Outcome.next (State.runTable_ok hcmd hcheck (by simp only [hbit, Bool.not_false, if_true]; rfl)), ?_, ?_⟩
      · exact State.extentsAfter_congr (hafter _) rfl
      · exact hframe _
    · intro i hbit hone htier
      obtain ⟨t, ht⟩ : ∃ t, t = (s.whole0 c).foldl (fun s i => s.upExt i (adviseExtent c.p0)) s := ⟨_, rfl⟩
      have hnear : (t.ext i).tier = tierNEAR := by
        rw [ht, hafter (adviseExtent c.p0) i, hone, if_pos List.mem_cons_self]
        exact htier
      have hreg : t.regs = s.regs := ht ▸ State.onlyChanges_foldl_upExt s _ _ .regs (by decide)
      refine ⟨_, congrArg Host.Outcome.next (advise_readSoon_near hcmd hcheck hbit hone ht hnear), ?_, ?_, ?_⟩
      · exact (State.rd_bump_self t _ 0 0 1 (by decide)).trans (by rw [State.rd_congr hreg])
      · refine State.onlyChanges_trans ?_ (State.onlyChanges_mono (State.onlyChanges_upCid _ _ _) (by decide))
        exact State.onlyChanges_trans (State.onlyChanges_mono (ht ▸ State.onlyChanges_foldl_upExt s _ _) (by decide))
          (State.onlyChanges_bump _ _ 0 0 1 (by decide))
      · exact State.regsKept_trans (State.regsKept_of_regs hreg _)
          (State.regsKept_trans (State.regsKept_bump t Reg.POOL_CNT_SOFTDROP 0 0 1 (by decide)) (State.regsKept_of_regs rfl _))

end Sys2Proof.Machine
end

section
/-!
PROOF. The debug port (R493–R495).  An instruction is refused, and then does what BYPASS does and is counted, or it acts: each clause is one
of the two.
-/
namespace Sys2Proof.Machine

/-- An instruction below its level acts as BYPASS and is counted (R493). -/
theorem State.tap_refused {s : State} {allowed : Bool} (hp : s.car.powered = true) (ha : allowed = false) (act : State → State) :
    s.tap allowed act = (s.bump Reg.DBG_CNT_DENY).tdo 0 := by
  simp [State.tap, hp, ha]

/-- What a refused instruction shows, and all it changes. -/
theorem State.refused_effect (s : State) :
    ((s.bump Reg.DBG_CNT_DENY).tdo 0).out = s.out ++ [.tdo 0] ∧
    ((s.bump Reg.DBG_CNT_DENY).tdo 0).rd Reg.DBG_CNT_DENY =
      min (s.rd Reg.DBG_CNT_DENY + 1) (2 ^ Reg.DBG_CNT_DENY.width - 1) ∧
    s.onlyChanges ((s.bump Reg.DBG_CNT_DENY).tdo 0) [.regs, .out] ∧
    s.regsKeptBut ((s.bump Reg.DBG_CNT_DENY).tdo 0) [Reg.DBG_CNT_DENY.key 0 0] :=
  ⟨by simp, s.rd_bump_self Reg.DBG_CNT_DENY 0 0 1 (by decide),
    (s.onlyChanges_bump Reg.DBG_CNT_DENY 0 0 1 (by decide)).andThen
      (State.onlyChanges_emit _ _ (ps := [.out]) (by decide)),
    State.regsKept_trans (s.regsKept_bump Reg.DBG_CNT_DENY 0 0 1 (by decide)) (State.regsKept_of_regs rfl _)⟩

/-- The instructions of the boundary register and of the debug module ask for FULL. -/
theorem exec_needsFull {s : State} {i : Instr} (hp : s.car.powered = true) (hf : s.atFull = false)
    (hi : (∃ d, i = .samplePreload d) ∨ (∃ d, i = .extest d) ∨ (∃ v, i = .dtmcs v) ∨ (∃ op a v, i = .dmi op a v)) :
    exec i s = .next ((s.bump Reg.DBG_CNT_DENY).tdo 0) := by
  rcases hi with ⟨d, rfl⟩ | ⟨d, rfl⟩ | ⟨v, rfl⟩ | ⟨op, a, v, rfl⟩ <;>
    exact congrArg Host.Outcome.next (State.tap_refused hp hf _)

/-- Below FULL the four instructions are BYPASS and counted. -/
theorem needsFull_refused {s : State} (hp : s.car.powered = true) (hf : s.atFull = false) (i : Instr)
    (hi : (∃ d, i = .samplePreload d) ∨ (∃ d, i = .extest d) ∨ (∃ v, i = .dtmcs v) ∨ (∃ op a v, i = .dmi op a v)) :
    ∃ t, exec i s = .next t ∧ t.out = s.out ++ [.tdo 0] ∧
      t.rd Reg.DBG_CNT_DENY = min (s.rd Reg.DBG_CNT_DENY + 1) (2 ^ Reg.DBG_CNT_DENY.width - 1) ∧
      s.onlyChanges t [.regs, .out] ∧ s.regsKeptBut t [Reg.DBG_CNT_DENY.key 0 0] :=
  ⟨_, exec_needsFull hp hf hi, s.refused_effect⟩

/-- The boundary register takes what is shifted in and captures a free value. -/
def State.boundaryScan (s : State) (d : Bytes) : State :=
  (s.free.2.upCar fun c => { c with boundary := d }).tdo s.free.1

theorem State.boundaryScan_effect (s : State) (d : Bytes) :
    (s.boundaryScan d).car = { s.car with boundary := d } ∧
    (s.boundaryScan d).out = s.out ++ [.tdo (Config.freeValue s.nextFree)] ∧ (s.boundaryScan d).nextFree = s.nextFree + 1 ∧
    s.onlyChanges (s.boundaryScan d) [.car, .out, .nextFree] :=
  ⟨rfl, rfl, rfl, by simp [State.onlyChanges_iff, State.boundaryScan, State.free, State.upCar, State.tdo, State.emit]⟩

theorem samplePreload_atFull {s : State} (hp : s.car.powered = true) (hf : s.atFull = true) (d : Bytes) :
    samplePreload d s = s.boundaryScan d := State.tap_allowed hp hf _

theorem extest_atFull {s : State} (hp : s.car.powered = true) (hf : s.atFull = true) (d : Bytes) :
    extest d s = s.boundaryScan d := State.tap_allowed hp hf _

/-- DTMCS shifts a free value out, and its hard reset empties the debug module. -/
theorem dtmcs_effect {s : State} (hp : s.car.powered = true) (hf : s.atFull = true) (v : Nat) :
    ∃ t, dtmcs v s = t ∧ t.car = (if bit v 17 then { s.car with dm := [] } else s.car) ∧
      t.out = s.out ++ [.tdo (Config.freeValue s.nextFree)] ∧ s.onlyChanges t [.car, .out, .nextFree] := by
  refine ⟨_, State.tap_allowed hp hf _, ?_⟩
  cases bit v 17 with
  | true => exact ⟨rfl, rfl, by simp [State.onlyChanges_iff, State.free, State.upCar, State.tdo, State.emit]⟩
  | false => exact ⟨rfl, rfl, by simp [State.onlyChanges_iff, State.free, State.tdo, State.emit]⟩

/-- A DMI write of data0 keeps the value, and a read of it returns what is kept (R495). -/
theorem dmi_write_data0 {s : State} (hp : s.car.powered = true) (hf : s.atFull = true) (v : Nat) :
    dmi 2 4 v s = (s.setDm 4 (v % 2 ^ 32)).tdo (4 * 2 ^ 34) := State.tap_allowed hp hf _

theorem dmi_read_data0 {s : State} (hp : s.car.powered = true) (hf : s.atFull = true) :
    dmi 1 4 0 s = s.tdo (4 * 2 ^ 34 + s.dm 4 * 4) := State.tap_allowed hp hf _

theorem State.dm_setDm_self (s : State) (a v x : Nat) : ((s.setDm a v).tdo x).dm a = v % 2 ^ 32 := by
  simp [State.dm, State.setDm, State.upCar, State.tdo, State.emit, Tab.getD]

/-- The window refuses a misaligned offset. -/
theorem State.inspect_misaligned {s : State} {off : Nat} (h : off % 4 ≠ 0) : s.inspect off = none := by
  simp [State.inspect, h]

/-- Settles O46: below its level an instruction is refused, at its level it acts. -/
theorem debugInstructionsFollowTheLevel : Obligations.DebugInstructionsFollowTheLevel := by
  intro s hp
  refine ⟨⟨_, congrArg Host.Outcome.next (State.tap_allowed hp rfl _), rfl, s.onlyChanges_emit _ (by decide)⟩,
    ⟨_, congrArg Host.Outcome.next (State.tap_allowed hp rfl _), rfl, s.onlyChanges_emit _ (by decide)⟩,
    fun hf => ⟨fun d => ⟨_, congrArg Host.Outcome.next (samplePreload_atFull hp hf d), s.boundaryScan_effect d⟩,
      fun d => ⟨_, congrArg Host.Outcome.next (extest_atFull hp hf d), s.boundaryScan_effect d⟩,
      fun v => ?_, fun v => ?_, ?_⟩,
    needsFull_refused hp, fun hi => ⟨fun off => ?_, fun v hv => ?_, fun hoff => ?_, ?_⟩⟩
  · obtain ⟨t, ht, heff⟩ := dtmcs_effect hp hf v
    exact ⟨t, congrArg Host.Outcome.next ht, heff⟩
  · exact ⟨_, congrArg Host.Outcome.next (dmi_write_data0 hp hf v), by rw [State.dm_setDm_self, Nat.mod_mod], rfl,
      s.onlyChanges_upCar_tdo _ _ (by decide) (by decide)⟩
  · exact ⟨_, congrArg Host.Outcome.next (dmi_read_data0 hp hf), rfl, s.onlyChanges_emit _ (by decide)⟩
  · exact ⟨_, congrArg Host.Outcome.next (State.tap_allowed hp hi _), rfl, s.onlyChanges_upCar _ (by decide)⟩
  · exact ⟨_, congrArg Host.Outcome.next (ivData_of_inspect_some hp hi hv), rfl, rfl,
      State.onlyChanges_trans (s.onlyChanges_bump Reg.DBG_CNT_IV 0 0 1 (by decide))
        (State.onlyChanges_upCar_tdo _ _ v (by decide) (by decide)),
      State.regsKept_trans (s.regsKept_bump Reg.DBG_CNT_IV 0 0 1 (by decide)) (State.regsKept_upCar_tdo _ _ v _)⟩
  · exact ⟨_, congrArg Host.Outcome.next (ivData_of_inspect_none hp hi (State.inspect_misaligned hoff)), rfl,
      s.onlyChanges_upCar_tdo _ 0 (by decide) (by decide)⟩
  · exact ⟨_, congrArg Host.Outcome.next (State.tap_allowed hp hi _), rfl, s.onlyChanges_emit _ (by decide)⟩

end Sys2Proof.Machine
end

section
/-!
PROOF. What reporting an event leaves of the fault unit: everything but the log, the runs of repeats and the state of delivery.
-/
namespace Sys2Proof.Machine

/-- The fault unit's state but for the log, the runs and the state of delivery. -/
def FltState.besidesLog (f : FltState) : FltState := { f with log := [], nextEseq := 0, runs := [], skipped := 0, unsignalled := none }

@[simp] theorem State.dmaWrite_flt (s : State) (a : Nat) (d : Bytes) : (s.dmaWrite a d).flt = s.flt := rfl

theorem State.eqWrite_besidesLog (s : State) (e : Event) : (s.eqWrite e).flt.besidesLog = s.flt.besidesLog := by
  unfold State.eqWrite
  dsimp only
  split <;> rfl

theorem State.eqWrite_log (s : State) (e : Event) : (s.eqWrite e).flt.log = s.flt.log := by
  unfold State.eqWrite
  dsimp only
  split <;> rfl

theorem State.eqWrite_runs (s : State) (e : Event) : (s.eqWrite e).flt.runs = s.flt.runs := by
  unfold State.eqWrite
  dsimp only
  split <;> rfl

theorem State.eqResume_besidesLog (s : State) (up : Bool) : (s.eqResume up).flt.besidesLog = s.flt.besidesLog := by
  unfold State.eqResume
  split
  · rfl
  · exact State.eqWrite_besidesLog _ _

theorem State.eqResume_runs (s : State) (up : Bool) : (s.eqResume up).flt.runs = s.flt.runs := by
  unfold State.eqResume
  split
  · rfl
  · exact State.eqWrite_runs _ _

theorem State.deliver_besidesLog (s : State) (e : Event) : (s.deliver e).flt.besidesLog = s.flt.besidesLog := by
  unfold State.deliver
  dsimp only
  split
  · exact s.eqResume_besidesLog _
  · split
    · exact (State.eqWrite_besidesLog _ _).trans (s.eqResume_besidesLog _)
    · exact s.eqResume_besidesLog _

theorem State.deliver_runs (s : State) (e : Event) : (s.deliver e).flt.runs = s.flt.runs := by
  unfold State.deliver
  dsimp only
  split
  · exact s.eqResume_runs _
  · split
    · exact (State.eqWrite_runs _ _).trans (s.eqResume_runs _)
    · exact s.eqResume_runs _

/-- The record delivered is in the log, with its number and time. -/
theorem State.exists_mem_log_deliver (s : State) (e : Event) :
    ∃ n t, { e with eseq := n, timeNs := t } ∈ (s.deliver e).flt.log := by
  have hmem : ∀ (l : List Event) (x : Event), x ∈ logPush l x := fun l x => by simp [logPush]
  unfold State.deliver
  dsimp only
  refine ⟨(s.eqResume s.mgmtUp).flt.nextEseq, (s.eqResume s.mgmtUp).tnow, ?_⟩
  split
  · exact hmem _ _
  · split
    · rw [State.eqWrite_log]
      exact hmem _ _
    · exact hmem _ _

/-- An event leaves the fault unit's other state as it was. -/
theorem State.event_besidesLog (s : State) (r : Report) : (s.event r).flt.besidesLog = s.flt.besidesLog := by
  unfold State.event
  dsimp only
  split
  · rfl
  · split
    · exact s.deliver_besidesLog _
    · exact s.deliver_besidesLog _

/-- A field of the fault unit that no record has is as it was. -/
theorem State.flt_event {α : Type} (s : State) (r : Report) (g : FltState → α) (hg : ∀ f, g f = g f.besidesLog) :
    g (s.event r).flt = g s.flt := by
  rw [hg, s.event_besidesLog, ← hg]

/-- A field that no record writes reads as before the event. -/
theorem State.rd_event (s : State) (r : Report) (f : Fld) (i j : Nat) (h : f.key i j ∉ recordKeys) :
    (s.event r).rd f i j = s.rd f i j := (s.reportsOnly_event r).2 f i j h

end Sys2Proof.Machine
end

section
/-!
PROOF. Part scores and the delivery of records (R450–R452, R456–R458, R461, R462).
-/
namespace Sys2Proof.Machine

/-! Scores. -/

@[simp] theorem State.score_event (s : State) (r : Report) (cls inst : Nat) : (s.event r).score cls inst = s.score cls inst := by
  unfold State.score
  rw [s.flt_event r FltState.scores fun _ => rfl]

@[simp] theorem State.score_wr (s : State) (f : Fld) (v i j cls inst : Nat) : (s.wr f v i j).score cls inst = s.score cls inst := rfl

@[simp] theorem State.score_bump (s : State) (f : Fld) (i j n cls inst : Nat) : (s.bump f i j n).score cls inst = s.score cls inst := rfl

@[simp] theorem State.score_setEnd (s : State) (st dn : Fld) (v cls inst : Nat) :
    (s.setEnd st dn v).score cls inst = s.score cls inst := rfl

/-- A score stored is the part's score but for SUSPECT, which the threshold decides. -/
theorem State.score_setScore_self (s : State) (cls inst : Nat) (sc : Score) :
    ∃ b, (s.setScore cls inst sc).score cls inst = { sc with suspect := b } := by
  unfold State.setScore
  dsimp only
  generalize (if sc.suspect = true then decide ((s.classCfg cls).1 ≤ 2 * (sc.s / 256))
    else decide ((s.classCfg cls).1 ≤ sc.s / 256)) = b
  refine ⟨b, ?_⟩
  split
  · rw [State.score_event]
    simp [State.score, State.upFlt, State.bump, State.wr, Tab.getD]
  · split
    · rw [State.score_event]
      simp [State.score, State.upFlt, Tab.getD]
    · simp [State.score, State.upFlt, Tab.getD]

/-- Below its threshold a part that is no suspect stays so, and nothing is reported. -/
theorem State.setScore_below (s : State) (cls inst : Nat) {sc : Score} (hs : sc.suspect = false)
    (h : sc.s / 256 < (s.classCfg cls).1) :
    s.setScore cls inst sc = s.upFlt fun f => { f with scores := Tab.put f.scores (cls * 256 + inst) sc } := by
  obtain ⟨p, m, e, b⟩ := sc
  subst hs
  simp [State.setScore, Nat.not_le.mpr h]

theorem State.score_put_self (s : State) (cls inst : Nat) (sc : Score) :
    (s.upFlt fun f => { f with scores := Tab.put f.scores (cls * 256 + inst) sc }).score cls inst = sc := by
  simp [State.score, State.upFlt, Tab.getD]

/-! The tick. -/

/-- The class configuration that the registers give, as SCORE_TICK takes it up (R462). -/
def State.classTable (s : State) : Tab (Nat × Nat) := (List.range 8).filterMap fun c =>
  if c = 0 then none else some (c, (s.rd Reg.FLT_SCLS_CFG_THR c, s.rd Reg.FLT_SCLS_CFG_DECAY c))

/-- The state with the registers' class configuration in force. -/
def State.configured (s : State) : State := s.upFlt fun f => { f with inForce := s.classTable }

theorem State.classCfg_configured (s : State) {cls : Nat} (h0 : 0 < cls) (h8 : cls < 8) :
    s.configured.classCfg cls = (s.rd Reg.FLT_SCLS_CFG_THR cls, s.rd Reg.FLT_SCLS_CFG_DECAY cls) := by
  show Tab.getD s.classTable cls _ = _
  obtain rfl | rfl | rfl | rfl | rfl | rfl | rfl : cls = 1 ∨ cls = 2 ∨ cls = 3 ∨ cls = 4 ∨ cls = 5 ∨ cls = 6 ∨ cls = 7 := by omega
  all_goals rfl

/-- The score of a part after its tick (R451). -/
def ticked (decay : Nat) (sc : Score) : Score := if sc.s = 0 then sc else decayed decay sc

/-- With one score stored the tick is the storing of its decayed value. -/
theorem scoreTick_singleton {s : State} {cls inst : Nat} {sc : Score} (h0 : 0 < cls) (h8 : cls < 8) (hi : inst < 256)
    (h : s.flt.scores = [(cls * 256 + inst, sc)]) :
    scoreTick s = s.configured.setScore cls inst (ticked (s.rd Reg.FLT_SCLS_CFG_DECAY cls) sc) := by
  have hc : (cls * 256 + inst) / 256 = cls := by omega
  have hm : (cls * 256 + inst) % 256 = inst := by omega
  show List.foldl _ s.configured s.configured.flt.scores = _
  have hsc : s.configured.flt.scores = [(cls * 256 + inst, sc)] := h
  rw [hsc, List.foldl_cons, List.foldl_nil]
  dsimp only
  rw [hc, hm, s.classCfg_configured h0 h8, ticked]
  split <;> rfl

theorem ticked_s (d : Nat) (sc : Score) : (ticked d sc).s = if sc.s = 0 then 0 else sc.s - max 1 (sc.s / 2 ^ d) := by
  unfold ticked
  split
  · next h => exact h
  · rfl

theorem ticked_suspect (d : Nat) (sc : Score) : (ticked d sc).suspect = sc.suspect := by
  unfold ticked
  split <;> rfl

/-- The tick of one score that stays below its threshold. -/
theorem scoreTick_effect {s : State} {cls inst : Nat} {sc : Score} (h0 : 0 < cls) (h8 : cls < 8) (hi : inst < 256)
    (h : s.flt.scores = [(cls * 256 + inst, sc)]) (hs : sc.suspect = false)
    (hlt : (sc.s - max 1 (sc.s / 2 ^ s.rd Reg.FLT_SCLS_CFG_DECAY cls)) / 256 < s.rd Reg.FLT_SCLS_CFG_THR cls) :
    ((scoreTick s).score cls inst).s =
        (if sc.s = 0 then 0 else sc.s - max 1 (sc.s / 2 ^ s.rd Reg.FLT_SCLS_CFG_DECAY cls)) ∧
      ((scoreTick s).score cls inst).suspect = false ∧
      (scoreTick s).classCfg cls = (s.rd Reg.FLT_SCLS_CFG_THR cls, s.rd Reg.FLT_SCLS_CFG_DECAY cls) ∧
      s.onlyChanges (scoreTick s) [.flt] := by
  have hbelow : (ticked (s.rd Reg.FLT_SCLS_CFG_DECAY cls) sc).s / 256 < (s.configured.classCfg cls).1 := by
    rw [s.classCfg_configured h0 h8, ticked_s]
    split <;> omega
  rw [scoreTick_singleton h0 h8 hi h, State.setScore_below _ _ _ ((ticked_suspect _ _).trans hs) hbelow, State.score_put_self]
  exact ⟨ticked_s _ _, (ticked_suspect _ _).trans hs, s.classCfg_configured h0 h8,
    by simp [State.onlyChanges_iff, State.configured, State.upFlt]⟩

/-! The score operations. -/

theorem State.rd_scoreEnd_status (s : State) {st : Nat} (h : st < 256) : (s.scoreEnd st).rd Reg.FLT_SCORE_STATUS_STATUS = st := by
  show ((s.wr Reg.FLT_SCORE_STATUS_STATUS st).wr Reg.FLT_SCORE_STATUS_DONE 1).rd Reg.FLT_SCORE_STATUS_STATUS = st
  rw [State.rd_wr_separate _ _ _ _ _ (by decide), State.rd_wr_self _ _ _ _ _ (by decide)]
  exact Nat.mod_eq_of_lt h

theorem State.rd_scoreEnd_done (s : State) (st : Nat) : (s.scoreEnd st).rd Reg.FLT_SCORE_STATUS_DONE = 1 :=
  State.rd_wr_self _ _ _ _ _ (by decide)

theorem State.rd_scoreEnd_separate (s : State) (st : Nat) {g : Fld} (h1 : g.separate Reg.FLT_SCORE_STATUS_STATUS = true)
    (h2 : g.separate Reg.FLT_SCORE_STATUS_DONE = true) (a b : Nat) : (s.scoreEnd st).rd g a b = s.rd g a b :=
  (State.rd_wr_separate _ _ _ _ _ h2 _ _).trans (State.rd_wr_separate _ _ _ _ _ h1 _ _)

theorem State.onlyChanges_scoreEnd (s : State) (st : Nat) : s.onlyChanges (s.scoreEnd st) [.regs] := by
  simp [State.onlyChanges_iff, State.scoreEnd, State.setEnd]

/-- A score operation with its code in OP. -/
def State.scoreAsked (s : State) (code : Nat) : State := s.wr Reg.FLT_SCORE_OP_CODE code

theorem exec_scoreRead {s : State} {a : Access} (h : s.admitsWrite a 0x40104) :
    exec (.scoreRead a) s = .next (s.scoreAsked 1).scoreRead :=
  congrArg Host.Outcome.next (State.window_admitted h _)

theorem exec_scoreClear {s : State} {a : Access} (h : s.admitsWrite a 0x40104) :
    exec (.scoreClear a) s = .next (s.scoreAsked 2).scoreClear :=
  congrArg Host.Outcome.next (State.window_admitted h _)

@[simp] theorem State.rd_scoreAsked_class (s : State) (code : Nat) :
    (s.scoreAsked code).rd Reg.FLT_SCORE_INDEX_CLASS = s.rd Reg.FLT_SCORE_INDEX_CLASS :=
  s.rd_wr_separate _ _ _ _ (by decide) _ _

@[simp] theorem State.rd_scoreAsked_instance (s : State) (code : Nat) :
    (s.scoreAsked code).rd Reg.FLT_SCORE_INDEX_INSTANCE = s.rd Reg.FLT_SCORE_INDEX_INSTANCE :=
  s.rd_wr_separate _ _ _ _ (by decide) _ _

theorem State.noPart_scoreAsked (s : State) (code : Nat) : (s.scoreAsked code).noPart = s.noPart := by
  simp [State.noPart]

theorem State.onlyChanges_scoreAsked (s : State) (code : Nat) : s.onlyChanges (s.scoreAsked code) [.regs] :=
  s.onlyChanges_wr _ _ _ _ (by decide)

/-- READ of a part shows its score. -/
theorem State.scoreRead_effect {s : State} (h : s.noPart = false) :
    s.scoreRead.rd Reg.FLT_SCORE_STATUS_STATUS = stOK ∧
    s.scoreRead.rd Reg.FLT_SCORE_DATA0_S =
      (s.score (s.rd Reg.FLT_SCORE_INDEX_CLASS) (s.rd Reg.FLT_SCORE_INDEX_INSTANCE)).s % 2 ^ Reg.FLT_SCORE_DATA0_S.width ∧
    s.scoreRead.rd Reg.FLT_SCORE_DATA1_SUSPECT =
      b2n (s.score (s.rd Reg.FLT_SCORE_INDEX_CLASS) (s.rd Reg.FLT_SCORE_INDEX_INSTANCE)).suspect ∧
    s.scoreRead.rd Reg.FLT_SCORE_STATUS_DONE = 1 ∧ s.onlyChanges s.scoreRead [.regs] := by
  unfold State.scoreRead
  simp only [h, Bool.false_eq_true, if_false]
  refine ⟨State.rd_scoreEnd_status _ (by decide), ?_, ?_, State.rd_scoreEnd_done _ _,
    by simp [State.onlyChanges_iff, State.scoreEnd, State.setEnd, State.wrb]⟩
  · rw [State.rd_scoreEnd_separate _ _ (by decide) (by decide), State.rd_wr_separate _ _ _ _ _ (by decide),
      State.rd_wr_separate _ _ _ _ _ (by decide), State.wrb, State.rd_wr_separate _ _ _ _ _ (by decide),
      State.rd_wr_self _ _ _ _ _ (by decide)]
  · rw [State.rd_scoreEnd_separate _ _ (by decide) (by decide), State.rd_wr_separate _ _ _ _ _ (by decide),
      State.rd_wr_separate _ _ _ _ _ (by decide), State.wrb, State.rd_wr_self _ _ _ _ _ (by decide)]
    cases (s.score _ _).suspect <;> rfl

/-- An index that names no part ends either operation RANGE. -/
theorem State.scoreRead_noPart {s : State} (h : s.noPart = true) : s.scoreRead = s.scoreEnd stRANGE := by
  simp [State.scoreRead, h]

theorem State.scoreClear_noPart {s : State} (h : s.noPart = true) : s.scoreClear = s.scoreEnd stRANGE := by
  simp [State.scoreClear, h]

/-- CLEAR of a part zeroes its score and its events, and is recorded. -/
theorem State.scoreClear_effect {s : State} (h : s.noPart = false) :
    s.scoreClear.rd Reg.FLT_SCORE_STATUS_STATUS = stOK ∧
    (s.scoreClear.score (s.rd Reg.FLT_SCORE_INDEX_CLASS) (s.rd Reg.FLT_SCORE_INDEX_INSTANCE)).s = 0 ∧
    (s.scoreClear.score (s.rd Reg.FLT_SCORE_INDEX_CLASS) (s.rd Reg.FLT_SCORE_INDEX_INSTANCE)).events = 0 ∧
    s.onlyChanges s.scoreClear recordParts := by
  unfold State.scoreClear
  simp only [h, Bool.false_eq_true, if_false]
  obtain ⟨b, hb⟩ := s.score_setScore_self (s.rd Reg.FLT_SCORE_INDEX_CLASS) (s.rd Reg.FLT_SCORE_INDEX_INSTANCE)
    { s.score (s.rd Reg.FLT_SCORE_INDEX_CLASS) (s.rd Reg.FLT_SCORE_INDEX_INSTANCE) with s := 0, events := 0 }
  refine ⟨State.rd_scoreEnd_status _ (by decide), ?_, ?_,
    ((State.chargesOnly_setScore _ _ _ _).1.andThen (State.reportsOnly_event _ _).1).andThen (State.onlyChanges_scoreEnd _ _)⟩
  · rw [State.scoreEnd, State.score_setEnd, State.score_event, hb]
  · rw [State.scoreEnd, State.score_setEnd, State.score_event, hb]

/-! Delivery. -/

/-- The state without the runs of repeats that have ended. -/
def State.withoutRuns (s : State) : State := s.upFlt fun f => { f with runs := [] }

/-- A single run whose interval has ended leaves, with a record of its repeats if it has any. -/
theorem coalesceFlush_singleton {s : State} {k : CoalesceRun} (h : s.flt.runs = [k])
    (hk : k.start + usToHclk (s.rd Reg.FLT_COALESCE_US) ≤ s.hclk) :
    coalesceFlush s = if k.repeats = 0 then s.withoutRuns
      else s.withoutRuns.deliver { k.first with isRepeat := true, count := k.repeats, params := k.last } := by
  simp [coalesceFlush, h, hk, State.withoutRuns, State.upFlt]

theorem eqModeration_due {s : State} {t0 : Nat} (h : s.flt.unsignalled = some t0)
    (ht : t0 + usToHclk (s.rd Reg.FLT_EQ_CTL_MOD_US) ≤ s.hclk) :
    eqModeration s = (s.upFlt fun f => { f with unsignalled := none }).emit (.msix (s.rd Reg.FLT_EQ_VEC_VECTOR)) := by
  simp [eqModeration, h, Nat.not_lt.mpr ht]

theorem eqModeration_notDue {s : State} {t0 : Nat} (h : s.flt.unsignalled = some t0)
    (ht : s.hclk < t0 + usToHclk (s.rd Reg.FLT_EQ_CTL_MOD_US)) : eqModeration s = s := by
  simp [eqModeration, h, ht]

/-- Settles O60: the tick, the score operations and the delivery of repeats, one by one. -/
theorem scoresAndRecordsKeepTheirRules : Obligations.ScoresAndRecordsKeepTheirRules := by
  intro s
  refine ⟨fun cls inst sc h0 h8 hi h hs hlt => ⟨_, rfl, scoreTick_effect h0 h8 hi h hs hlt⟩,
    ⟨_, rfl, rfl, s.onlyChanges_upFlt _ (by decide)⟩, fun a ha hp => ?_, fun a ha hp => ⟨?_, ?_⟩, fun a ha hp => ?_,
    fun k h h0 hk => ?_, fun k h h0 hk => ?_, fun t0 h ht => ?_, fun t0 h ht => ?_⟩
  · obtain ⟨hst, hs, hsus, hdone, hframe⟩ := State.scoreRead_effect ((s.noPart_scoreAsked 1).trans hp)
    refine ⟨_, exec_scoreRead ha, hst, ?_, ?_, hdone, (s.onlyChanges_scoreAsked 1).andThen hframe⟩
    · rwa [State.rd_scoreAsked_class, State.rd_scoreAsked_instance] at hs
    · rwa [State.rd_scoreAsked_class, State.rd_scoreAsked_instance] at hsus
  · exact ⟨_, (exec_scoreRead ha).trans (congrArg _ (State.scoreRead_noPart ((s.noPart_scoreAsked 1).trans hp))),
      State.rd_scoreEnd_status _ (by decide), (s.onlyChanges_scoreAsked 1).andThen (State.onlyChanges_scoreEnd _ _)⟩
  · exact ⟨_, (exec_scoreClear ha).trans (congrArg _ (State.scoreClear_noPart ((s.noPart_scoreAsked 2).trans hp))),
      State.rd_scoreEnd_status _ (by decide), rfl, (s.onlyChanges_scoreAsked 2).andThen (State.onlyChanges_scoreEnd _ _)⟩
  · obtain ⟨hst, hs, hev, hframe⟩ := State.scoreClear_effect ((s.noPart_scoreAsked 2).trans hp)
    rw [State.rd_scoreAsked_class, State.rd_scoreAsked_instance] at hs hev
    exact ⟨_, exec_scoreClear ha, hst, hs, hev,
      State.onlyChanges_trans (State.onlyChanges_mono (s.onlyChanges_scoreAsked 2) (by decide)) hframe⟩
  · refine ⟨_, congrArg Host.Outcome.next ((coalesceFlush_singleton h hk).trans (if_pos h0)), rfl,
      s.onlyChanges_upFlt _ (by decide)⟩
  · have hreports := (s.reportsOnly_upFlt fun f => { f with runs := [] }).1.andThen
      (State.reportsOnly_deliver s.withoutRuns { k.first with isRepeat := true, count := k.repeats, params := k.last }).1
    obtain ⟨n, t, hmem⟩ := State.exists_mem_log_deliver s.withoutRuns
      { k.first with isRepeat := true, count := k.repeats, params := k.last }
    exact ⟨_, congrArg Host.Outcome.next ((coalesceFlush_singleton h hk).trans (if_neg (Nat.ne_of_gt h0))),
      State.deliver_runs _ _, hreports, (State.reportsOnly_deliver s.withoutRuns _).2, _, hmem, rfl, rfl, rfl, rfl⟩
  · exact ⟨_, congrArg Host.Outcome.next (eqModeration_due h ht), rfl, rfl,
      by simp [State.onlyChanges_iff, State.upFlt, State.emit]⟩
  · exact congrArg Host.Outcome.next (eqModeration_notDue h ht)

end Sys2Proof.Machine
end

section
/-!
PROOF. QUIESCE while a capture ring stands (R61, R62, R186, R188, R359).  The fen's uncommitted reduction ends RETRY, its contributor is sent a
status result, a match entry captures that packet, and the capture record is written to the near tier, which O52 says is as before.
-/
namespace Sys2Proof.Machine

/-- A running fen 0 with an uncommitted reduction of one contributor, and an enabled capture ring in the near tier that takes every packet. -/
def quiescedUnderCapture : State :=
  let s : State := { State.reset with
    red := { insts := [(0, { chunks := [(0, { counted := [{ src := 1 }] })] })] }
    pool := { extents := [(0, { state := exLEASED, length := 1 })] }
    xbr := { bank0 := { matches_ := [(0, { action := 2 })] }, capExt := some 0 } }
  ((s.wr Reg.PWR_RST_STAT_PHASE 9).wr Reg.FEN_STATE_STATE fenRUNNING 0).wr Reg.XBR_CAP_CTL_ENABLE 1

/-- An access of the management core. -/
def coreAccess : Access := { req := .cp0 }

theorem quiescedUnderCapture_admits :
    quiescedUnderCapture.admitsWrite coreAccess (fenCtlAt 0) = true ∧ quiescedUnderCapture.fenState 0 = fenRUNNING := by decide +kernel

/-- The capture record of the status result is written to the near tier. -/
theorem quiesce_writes_near : (quiesce coreAccess 0 false quiescedUnderCapture).near ≠ quiescedUnderCapture.near := by decide +kernel

/-- Refutes O52: the status result that QUIESCE sends for an open reduction is captured, and its capture record changes the near tier. -/
theorem not_fensQuiesceResumeAndReset : ¬ Obligations.FensQuiesceResumeAndReset := by
  intro h
  obtain ⟨hquiesce, -⟩ := h quiescedUnderCapture 0 (by decide)
  obtain ⟨hadmits, hrunning⟩ := quiescedUnderCapture_admits
  obtain ⟨t, ht, -, -, -, hnear, -⟩ := hquiesce coreAccess false hadmits hrunning
  have ht' : quiesce coreAccess 0 false quiescedUnderCapture = t := by injection ht
  exact quiesce_writes_near (ht' ▸ hnear)

end Sys2Proof.Machine
end

section
/-!
PROOF. SPDM messages: when one is served (R421, R426), and what an answer whose content the standard fixes does.
-/
namespace Sys2Proof.Machine

/-- A message of a level that is served acts. -/
theorem State.spdm_served {s : State} {l level : Nat} (h : s.spdmLevel = some l) (hl : level ≤ l) (act : State → State) :
    s.spdm level act = act s := by
  simp [State.spdm, h, hl]

/-- A message of an open session acts. -/
theorem State.onSession_finished {s : State} {l level id : Nat} {x : Session} (h : s.spdmLevel = some l) (hl : level ≤ l)
    (hx : Tab.find? s.sec.sessions id = some x) (hf : x.finished = true) (act : State → State) :
    s.onSession level id act = act s := by
  rw [State.onSession, State.spdm_served h hl, hx]
  simp [hf]

/-- One more message counted. -/
def State.counted (s : State) : State := s.upSec fun c => { c with messages := c.messages + 1 }

@[simp] theorem State.nextMessage_fst (s : State) : s.nextMessage.1 = s.sec.messages := rfl
@[simp] theorem State.nextMessage_snd (s : State) : s.nextMessage.2 = s.counted := rfl

theorem State.onlyChanges_counted (s : State) : s.onlyChanges s.counted [.sec] := by
  simp [State.onlyChanges_iff, State.counted]

/-- An answer whose content the standard fixes is a message counted and one output. -/
theorem State.onlyChanges_counted_emit (s : State) (m : OutMsg) : s.onlyChanges (s.counted.emit m) [.sec, .out] := by
  simp [State.onlyChanges_iff, State.counted, State.upSec, State.emit]

/-! Privileged requests (R427, R428). -/

/-- What a session's role grants: SPDM is served whole, and the session is open with that role. -/
theorem State.grants_iff {s : State} {id : Nat} {r : Role} : s.grants id r = true ↔
    s.spdmLevel = some 4 ∧ ∃ x, Tab.find? s.sec.sessions id = some x ∧ x.finished = true ∧ x.role = r := by
  unfold State.grants
  cases Tab.find? s.sec.sessions id <;> simp

/-- SPDM is served whole in no recovery, no change of custodian and no other lifecycle state than DEPLOYED. -/
theorem State.whole_of_spdmLevel {s : State} (h : s.spdmLevel = some 4) :
    s.phase ≠ phRECOVERY ∧ s.custState ≠ custSWITCHING ∧ s.life ≠ lifePROVISIONING ∧ s.life ≠ lifeDECOMMISSIONED := by
  unfold State.spdmLevel at h
  split at h
  · simp at h
  split at h
  · simp at h
  next hdec =>
    split at h
    · simp at h
    next hfail =>
      split at h
      · simp at h
      next hrec =>
        split at h
        · simp at h
        next hprov => exact ⟨hrec, fun hsw => hfail (by simp [hsw]), hprov, hdec⟩

theorem State.phase_ne_recovery_of_level {s : State} (h : s.spdmLevel = some 4) : s.phase ≠ phRECOVERY := (State.whole_of_spdmLevel h).1

/-- A privileged request of a session with one of its roles, accepted and not held off, acts. -/
theorem State.privileged_granted {s : State} {id : Nat} {r : Role} (h : s.grants id r = true) {roles : List Role}
    (hr : roles.contains r = true) {accepted busy : Bool} (ha : accepted = true) (hb : busy = false) (seq code : Nat)
    (act : State → State) (extra : Bytes) :
    s.privileged id seq code roles accepted busy act extra = (act s).syncPriv := by
  obtain ⟨hl, x, hx, hf, rfl⟩ := State.grants_iff.mp h
  have hp : decide (s.phase = phRECOVERY) = false := decide_eq_false (State.phase_ne_recovery_of_level hl)
  unfold State.privileged
  rw [hl]
  dsimp only
  rw [hx]
  simp only [hf, hr, ha, hb, hp, Bool.not_true, Bool.false_and, Bool.false_eq_true, if_false, Nat.lt_irrefl, decide_false]

/-- A privileged request of a session with one of its roles that another operation holds off is BUSY. -/
theorem State.privileged_busy {s : State} {id : Nat} {r : Role} (h : s.grants id r = true) {roles : List Role}
    (hr : roles.contains r = true) {busy : Bool} (hb : busy = true) (accepted : Bool) (seq code : Nat) (act : State → State)
    (extra : Bytes) : s.privileged id seq code roles accepted busy act extra = s.privAnswer code seq resBUSY extra := by
  obtain ⟨hl, x, hx, hf, rfl⟩ := State.grants_iff.mp h
  have hp : decide (s.phase = phRECOVERY) = false := decide_eq_false (State.phase_ne_recovery_of_level hl)
  unfold State.privileged
  rw [hl]
  dsimp only
  rw [hx]
  simp only [hf, hr, hb, hp, Bool.not_true, Bool.false_and, Bool.false_eq_true, if_false, if_true, Nat.lt_irrefl, decide_false]

/-- A privileged request of a session with another role is DENIED. -/
theorem State.privileged_denied {s : State} {id : Nat} {r : Role} (h : s.grants id r = true) {roles : List Role}
    (hr : roles.contains r = false) (accepted busy : Bool) (seq code : Nat) (act : State → State) (extra : Bytes) :
    s.privileged id seq code roles accepted busy act extra = s.privAnswer code seq resDENIED extra := by
  obtain ⟨hl, x, hx, hf, rfl⟩ := State.grants_iff.mp h
  unfold State.privileged
  rw [hl]
  dsimp only
  rw [hx]
  simp only [hf, hr, Bool.not_true, Bool.not_false, Bool.false_eq_true, if_false, if_true]

/-- An answer that is no refusal is the response alone. -/
theorem State.privAnswer_ok (s : State) (code seq : Nat) (extra : Bytes) :
    s.privAnswer code seq resOK extra = s.emit (privReply code seq resOK extra) := rfl

theorem State.privAnswer_denied (s : State) (code seq : Nat) (extra : Bytes) :
    s.privAnswer code seq resDENIED extra = (s.bump Reg.SEC_CNT_PRIV_DENY).emit (privReply code seq resDENIED extra) := rfl

theorem State.onlyChanges_syncPriv (s : State) : s.onlyChanges s.syncPriv [.regs] := s.onlyChanges_wr _ _ _ _ (by decide)

theorem State.rd_syncPriv_separate (s : State) {g : Fld} (h : g.separate Reg.SEC_SESS_PRIV_BUSY = true) (a b : Nat) :
    s.syncPriv.rd g a b = s.rd g a b := s.rd_wr_separate _ _ _ _ h a b

@[simp] theorem State.syncPriv_out (s : State) : s.syncPriv.out = s.out := rfl
@[simp] theorem State.syncPriv_car (s : State) : s.syncPriv.car = s.car := rfl
@[simp] theorem State.syncPriv_sec (s : State) : s.syncPriv.sec = s.sec := rfl
@[simp] theorem State.syncPriv_img (s : State) : s.syncPriv.img = s.img := rfl

end Sys2Proof.Machine
end

section
/-!
PROOF. The management link (R435, R436, R458, R506): IDE streams, the TDISP interface, the link's fall, rise and reset.
-/
namespace Sys2Proof.Machine

/-! IDE streams. -/

/-- A stream programmed at this time. -/
def State.keyed (s : State) (n : Nat) : State :=
  (s.upSec fun c => { c with ide := Tab.put c.ide n { secure := true, keyedAt := s.hclk } }).syncIde

/-- The interface's answer to the key message of a stream. -/
def State.keyAnswer (s : State) (n : Nat) : OutMsg :=
  .message chIDE 0 (leBytes 1 n ++ Config.standardReply chIDE [] s.sec.messages)

theorem ideKm_of_open {s : State} {id : Nat} {x : Session} (hl : s.spdmLevel = some 4) (hx : Tab.find? s.sec.sessions id = some x)
    (hf : x.finished = true) {n : Nat} (hn : n < 3) : ideKm id n s = (s.keyed n).counted.emit (s.keyAnswer n) := by
  rw [ideKm, State.onSession_finished hl (by decide) hx hf, if_neg (by omega)]
  rfl

theorem State.rd_syncIde_streams (s : State) :
    s.syncIde.rd Reg.SEC_IDE_STREAMS = s.sec.ide.countP (fun k => k.2.secure) % 2 ^ Reg.SEC_IDE_STREAMS.width :=
  State.rd_wr_self _ _ _ _ _ (by decide)

/-- A stream's fall on an integrity failure: gone, counted, shown. -/
def State.streamFailed (s : State) (n : Nat) : State :=
  (((s.upSec fun c => { c with ide := Tab.del c.ide n }).syncIde).bump Reg.SEC_CNT_IDE_FAIL).wr Reg.SEC_IDE_FAIL 1

theorem ideFail_of_secure {s : State} {n : Nat} {x : IdeStream} (h : Tab.find? s.sec.ide n = some x) (hs : x.secure = true) :
    ideFail n s = (s.streamFailed n).tdispError.event { code := evIDE_FAIL, sev := sevERROR, health := true, params := [n] } := by
  simp [ideFail, h, hs, State.streamFailed]

theorem State.rd_streamFailed_tdisp (s : State) (n : Nat) :
    (s.streamFailed n).rd Reg.SEC_TDISP_STATE = s.rd Reg.SEC_TDISP_STATE := by
  rw [State.streamFailed, State.rd_wr_separate _ _ _ _ _ (by decide), State.rd_bump_separate _ _ _ _ _ (by decide), State.syncIde,
    State.rd_wr_separate _ _ _ _ _ (by decide)]
  rfl

theorem State.rd_streamFailed_count (s : State) (n : Nat) : (s.streamFailed n).rd Reg.SEC_CNT_IDE_FAIL =
    min (s.rd Reg.SEC_CNT_IDE_FAIL + 1) (2 ^ Reg.SEC_CNT_IDE_FAIL.width - 1) := by
  rw [State.streamFailed, State.rd_wr_separate _ _ _ _ _ (by decide), State.rd_bump_self _ _ _ _ _ (by decide), State.syncIde,
    State.rd_wr_separate _ _ _ _ _ (by decide)]
  rfl

/-! The interface. -/

theorem State.tdispError_of_locked {s : State} (h : s.rd Reg.SEC_TDISP_STATE = tdLOCKED ∨ s.rd Reg.SEC_TDISP_STATE = tdRUN) :
    s.tdispError = (s.wr Reg.SEC_TDISP_STATE tdERROR).bump Reg.SEC_CNT_TDISP_ERR := by
  simp [State.tdispError, h]

theorem State.tdispError_of_other {s : State} (h : ¬(s.rd Reg.SEC_TDISP_STATE = tdLOCKED ∨ s.rd Reg.SEC_TDISP_STATE = tdRUN)) :
    s.tdispError = s := by
  simp [State.tdispError, h]

/-- A locked or running interface goes to ERROR, another one stays. -/
theorem State.rd_tdispError_state (s : State) : s.tdispError.rd Reg.SEC_TDISP_STATE =
    if s.rd Reg.SEC_TDISP_STATE = tdLOCKED ∨ s.rd Reg.SEC_TDISP_STATE = tdRUN then tdERROR else s.rd Reg.SEC_TDISP_STATE := by
  by_cases h : s.rd Reg.SEC_TDISP_STATE = tdLOCKED ∨ s.rd Reg.SEC_TDISP_STATE = tdRUN
  · rw [State.tdispError_of_locked h, if_pos h, State.rd_bump_separate _ _ _ _ _ (by decide), State.rd_wr_self _ _ _ _ _ (by decide)]
    rfl
  · rw [State.tdispError_of_other h, if_neg h]

theorem State.tdispError_effect (s : State) : s.onlyChanges s.tdispError [.regs] ∧
    s.regsKeptBut s.tdispError [Reg.SEC_TDISP_STATE.key 0 0, Reg.SEC_CNT_TDISP_ERR.key 0 0] := by
  unfold State.tdispError
  split
  · exact ⟨(s.onlyChanges_wr _ _ 0 0 (by decide)).andThen (State.onlyChanges_bump _ Reg.SEC_CNT_TDISP_ERR 0 0 1 (ps := [.regs]) (by decide)),
      State.regsKept_trans (s.regsKept_wr _ _ _ _ (by decide)) (State.regsKept_bump _ _ _ _ _ (by decide))⟩
  · exact ⟨s.onlyChanges_refl _, s.regsKept_refl _⟩

/-- A TDISP request from a state that it is listed for acts and is answered. -/
theorem State.tdisp_listed {s : State} {id : Nat} {x : Session} (hl : s.spdmLevel = some 4)
    (hx : Tab.find? s.sec.sessions id = some x) (hf : x.finished = true) {from_ : List Nat}
    (hfrom : s.rd Reg.SEC_TDISP_STATE ∈ from_) (code : Nat) (act : State → State) (extra : State → Bytes) :
    s.tdisp id code from_ act extra = (act s).counted.emit
      (.message chIDE (code - 0x80) (Config.standardReply code [] (act s).sec.messages ++ extra (act s).counted)) := by
  rw [State.tdisp, State.onSession_finished hl (by decide) hx hf, if_pos (by simpa using hfrom)]
  rfl

/-- From a state that it is not listed for it is refused. -/
theorem State.tdisp_unlisted {s : State} {id : Nat} {x : Session} (hl : s.spdmLevel = some 4)
    (hx : Tab.find? s.sec.sessions id = some x) (hf : x.finished = true) {from_ : List Nat}
    (hfrom : s.rd Reg.SEC_TDISP_STATE ∉ from_) (code : Nat) (act : State → State) (extra : State → Bytes) :
    s.tdisp id code from_ act extra = s.emit (.message chIDE tmERROR [4, 0, 0, 0]) := by
  rw [State.tdisp, State.onSession_finished hl (by decide) hx hf, if_neg (by simpa using hfrom)]
  rfl

/-- What a request that moves the interface to a state does. -/
theorem State.tdispMoved_effect (s : State) (v : Nat) (hv : v < 4) (m : OutMsg) :
    ((s.wr Reg.SEC_TDISP_STATE v).counted.emit m).rd Reg.SEC_TDISP_STATE = v ∧
    s.onlyChanges ((s.wr Reg.SEC_TDISP_STATE v).counted.emit m) [.regs, .sec, .out] ∧
    s.regsKeptBut ((s.wr Reg.SEC_TDISP_STATE v).counted.emit m) [Reg.SEC_TDISP_STATE.key 0 0] := by
  refine ⟨?_, (s.onlyChanges_wr _ _ 0 0 (by decide)).andThen (State.onlyChanges_counted_emit _ m), ?_⟩
  · show (s.wr Reg.SEC_TDISP_STATE v).rd Reg.SEC_TDISP_STATE = v
    rw [State.rd_wr_self _ _ _ _ _ (by decide)]
    exact Nat.mod_eq_of_lt (Nat.lt_of_lt_of_le hv (by decide))
  · exact State.regsKept_trans (s.regsKept_wr _ v 0 0 (List.mem_singleton_self _)) (State.regsKept_of_regs rfl _)

theorem mem_tdispStates {v : Nat} (h : v < 4) : v ∈ [tdUNLOCKED, tdLOCKED, tdRUN, tdERROR] := by
  revert v
  decide

/-! The link. -/

/-- The fall of a stream on an integrity failure, with its record. -/
theorem ideFail_effect {s : State} {n : Nat} {x : IdeStream} (h : Tab.find? s.sec.ide n = some x) (hs : x.secure = true) :
    ∃ t, exec (.ideFail n) s = .next t ∧ Tab.find? t.sec.ide n = none ∧
    t.rd Reg.SEC_IDE_FAIL = 1 ∧ t.rd Reg.SEC_CNT_IDE_FAIL = min (s.rd Reg.SEC_CNT_IDE_FAIL + 1) (2 ^ Reg.SEC_CNT_IDE_FAIL.width - 1) ∧
    t.rd Reg.SEC_TDISP_STATE = (if s.rd Reg.SEC_TDISP_STATE = tdLOCKED ∨ s.rd Reg.SEC_TDISP_STATE = tdRUN then tdERROR
      else s.rd Reg.SEC_TDISP_STATE) ∧ s.onlyChanges t [.regs, .sec, .flt, .out, .host] := by
  refine ⟨_, congrArg Host.Outcome.next (ideFail_of_secure h hs), ?_⟩
  obtain ⟨herr, hkept⟩ := (s.streamFailed n).tdispError_effect
  generalize ({ code := evIDE_FAIL, sev := sevERROR, health := true, params := [n] } : Report) = r
  obtain ⟨hrec, -⟩ := State.reportsOnly_event (s.streamFailed n).tdispError r
  have hfall : s.onlyChanges (s.streamFailed n) [.regs, .sec, .flt, .out, .host] := by
    simp [State.onlyChanges_iff, State.streamFailed, State.syncIde, State.upSec]
  refine ⟨?_, ?_, ?_, ?_, (hfall.andThen herr).andThen hrec⟩
  · have hsec : ((s.streamFailed n).tdispError.event r).sec = (s.streamFailed n).sec :=
      (hrec .sec (by decide)).trans (herr .sec (by decide))
    rw [hsec]
    exact Tab.find?_del_self _ _
  · rw [State.rd_event _ _ _ _ _ (by decide), hkept _ _ _ (by decide)]
    exact State.rd_wr_self _ _ _ _ _ (by decide)
  · rw [State.rd_event _ _ _ _ _ (by decide), hkept _ _ _ (by decide), State.rd_streamFailed_count]
  · rw [State.rd_event _ _ _ _ _ (by decide), State.rd_tdispError_state, State.rd_streamFailed_tdisp]

/-- The rise of the link opens the record queue again. -/
theorem managementLinkUp_effect {s : State} (h : s.car.powered = true) :
    ∃ t, exec .managementLinkUp s = .next t ∧ t.flt.mgmtUp = true ∧ s.onlyChanges t recordParts ∧ s.regsKeptBut t recordKeys := by
  have hrep := State.reportsOnly_trans (s.reportsOnly_upFlt fun f => { f with mgmtUp := true }) (State.reportsOnly_eqResume _ true)
  refine ⟨(s.upFlt fun f => { f with mgmtUp := true }).eqResume true, congrArg Host.Outcome.next (by simp [managementLinkUp, h]), ?_, hrep⟩
  exact congrArg FltState.mgmtUp (State.eqResume_besidesLog (s.upFlt fun f => { f with mgmtUp := true }) true)

/-- The link's reset. -/
theorem State.resetLink_effect (s : State) : s.resetLink.flt.mgmtUp = false ∧ s.resetLink.sec.ide = [] ∧
    s.resetLink.rd Reg.SEC_IDE_STREAMS = 0 ∧ s.resetLink.rd Reg.SEC_TDISP_STATE = tdUNLOCKED ∧
    s.onlyChanges s.resetLink [.regs, .sec, .flt] ∧
    s.regsKeptBut s.resetLink [Reg.SEC_IDE_STREAMS.key 0 0, Reg.SEC_TDISP_STATE.key 0 0] := by
  refine ⟨rfl, rfl, ?_, State.rd_wr_self _ _ _ _ _ (by decide),
    by simp [State.onlyChanges_iff, State.resetLink, State.syncIde, managementLinkDown, State.upSec, State.upFlt], ?_⟩
  · rw [State.resetLink, State.rd_wr_separate _ _ _ _ _ (by decide), managementLinkDown, State.rd_upFlt, State.rd_syncIde_streams]
    rfl
  · have h1 : s.regsKeptBut (s.upSec fun c => { c with ide := [] }).syncIde
        [Reg.SEC_IDE_STREAMS.key 0 0, Reg.SEC_TDISP_STATE.key 0 0] :=
      State.regsKept_wr (s.upSec fun c => { c with ide := [] }) _ _ _ _ (by decide)
    exact State.regsKept_trans h1
      (State.regsKept_wr (managementLinkDown (s.upSec fun c => { c with ide := [] }).syncIde) _ _ _ _ (by decide))

/-- Settles O57: the requests of an open session, then what befalls the link. -/
theorem managementLinkFollowsTdispAndIde : Obligations.ManagementLinkFollowsTdispAndIde := by
  intro s id
  refine ⟨fun hl x hx hf => ⟨fun n hn => ?_, fun h => ?_, fun h => ?_, fun h => ?_, fun h => ?_, fun h => ?_⟩,
    fun n x h hs => ideFail_effect h hs, fun h => ⟨_, rfl, ?_, ?_, s.tdispError_effect⟩, ⟨_, rfl, rfl, s.onlyChanges_upFlt _ (by decide)⟩,
    managementLinkUp_effect, ⟨_, rfl, s.resetLink_effect⟩⟩
  · refine ⟨_, congrArg Host.Outcome.next (ideKm_of_open hl hx hf hn), Tab.find?_put_self _ _ _, State.rd_syncIde_streams _,
      fun i hi => Tab.find?_put_ne _ _ hi,
      by simp [State.onlyChanges_iff, State.keyed, State.syncIde, State.counted, State.upSec, State.emit], ?_⟩
    have hkey : s.regsKeptBut (s.keyed n) [Reg.SEC_IDE_STREAMS.key 0 0] :=
      State.regsKept_wr (s.upSec fun c => { c with ide := Tab.put c.ide n { secure := true, keyedAt := s.hclk } }) _ _ _ _ (by decide)
    exact State.regsKept_trans hkey (State.regsKept_of_regs rfl _)
  · exact ⟨_, congrArg Host.Outcome.next (State.tdisp_listed hl hx hf (by simp [h]) _ _ _), s.tdispMoved_effect tdLOCKED (by decide) _⟩
  · exact ⟨_, congrArg Host.Outcome.next (State.tdisp_unlisted hl hx hf (by simpa using h) _ _ _), s.onlyChanges_emit _ (by decide), rfl⟩
  · exact ⟨_, congrArg Host.Outcome.next (State.tdisp_listed hl hx hf (by simpa using h) _ _ _), rfl, s.onlyChanges_counted_emit _⟩
  · exact ⟨_, congrArg Host.Outcome.next (State.tdisp_listed hl hx hf (by simp [h]) _ _ _), s.tdispMoved_effect tdRUN (by decide) _⟩
  · exact ⟨_, congrArg Host.Outcome.next (State.tdisp_listed hl hx hf (mem_tdispStates h) _ _ _),
      s.tdispMoved_effect tdUNLOCKED (by decide) _⟩
  · rw [State.rd_tdispError_state, if_pos h]
  · rw [State.tdispError_of_locked h, State.rd_bump_self _ _ _ _ _ (by decide), State.rd_wr_separate _ _ _ _ _ (by decide)]

end Sys2Proof.Machine
end

section
/-!
PROOF. The firmware update (R428, R471, R472, R474).  Every operation is a privileged request that, accepted, acts on the update's record in
the states it is listed for; the clauses differ in what it does there.
-/
namespace Sys2Proof.Machine

/-- What the operations' clauses share: a session of the custodian or the operator, nothing else in progress, the update its own or idle. -/
structure State.mayUpdate (s : State) (id : Nat) (r : Role) : Prop where
  role : r = .custodian ∨ r = .operator
  grants : s.grants id r = true
  settled : s.custState = custCLAIMED ∨ s.custState = custUNCLAIMED
  notValidating : s.img.validating = none
  notApplying : s.img.applying = none
  notScrubbing : s.sec.scrub = none
  own : s.rd Reg.CAR_STAT_UPD = updIDLE ∨ s.car.fw.owner = some id

/-- An accepted operation acts in the states it is listed for and is out of turn in every other. -/
theorem State.mayUpdate.fwOp_eq {s : State} {id : Nat} {r : Role} (h : s.mayUpdate id r) (seq : Nat) (states : List Nat)
    (act : State → State) : s.fwOp id seq states act =
      (if states.contains (s.rd Reg.CAR_STAT_UPD) then act s else s.fwAnswer seq resOK upORDER).syncPriv := by
  have hr : [Role.custodian, Role.operator].contains r = true := by
    rcases h.role with rfl | rfl <;> decide
  have hst : (s.custState == custCLAIMED || s.custState == custUNCLAIMED) = true := by simpa using h.settled
  have hown : (s.rd Reg.CAR_STAT_UPD != updIDLE && s.car.fw.owner != some id) = false := by
    rcases h.own with h | h <;> simp [h]
  have hbusy : (s.rd Reg.CAR_STAT_UPD != updIDLE && s.car.fw.owner != some id ||
      (s.img.validating.isSome || s.img.applying.isSome || s.sec.scrub.isSome)) = false := by
    rw [hown, h.notValidating, h.notApplying, h.notScrubbing]
    rfl
  unfold State.fwOp
  dsimp only
  rw [State.privileged_granted h.grants hr hst hbusy]

/-- An operation in one of its states. -/
theorem State.mayUpdate.fwOp_inTurn {s : State} {id : Nat} {r : Role} (h : s.mayUpdate id r) (seq : Nat) {states : List Nat} {v : Nat}
    (hv : s.rd Reg.CAR_STAT_UPD = v) (hs : states.contains v = true) (act : State → State) :
    s.fwOp id seq states act = (act s).syncPriv := by
  rw [h.fwOp_eq, hv, if_pos hs]

/-- An operation out of turn. -/
theorem State.mayUpdate.fwOp_outOfTurn {s : State} {id : Nat} {r : Role} (h : s.mayUpdate id r) (seq : Nat) {states : List Nat} {v : Nat}
    (hv : s.rd Reg.CAR_STAT_UPD = v) (hs : states.contains v = false) (act : State → State) :
    s.fwOp id seq states act = (s.fwAnswer seq resOK upORDER).syncPriv := by
  rw [h.fwOp_eq, hv, hs]
  rfl

/-! The end of an operation: its answer, and PRIV_BUSY in line. -/

/-- The operation is answered OK with an UPD_RESULT. -/
def State.fwEnd (s : State) (seq upd : Nat) : State := (s.fwAnswer seq resOK upd).syncPriv

@[simp] theorem State.fwEnd_fw (s : State) (seq upd : Nat) : (s.fwEnd seq upd).car.fw = { s.car.fw with lastResult := upd } := rfl

@[simp] theorem State.fwEnd_out (s : State) (seq upd : Nat) :
    (s.fwEnd seq upd).out = s.out ++ [privReply cdFW_UPDATE seq resOK (leBytes 1 upd)] := rfl

theorem State.rd_fwEnd (s : State) (seq upd : Nat) {g : Fld} (h : g.separate Reg.SEC_SESS_PRIV_BUSY = true) (a b : Nat) :
    (s.fwEnd seq upd).rd g a b = s.rd g a b := State.rd_syncPriv_separate _ h _ _

theorem State.onlyChanges_fwEnd (s : State) (seq upd : Nat) : s.onlyChanges (s.fwEnd seq upd) [.regs, .car, .out] :=
  State.onlyChanges_trans (t := s.fwAnswer seq resOK upd)
    (by simp [State.onlyChanges_iff, State.fwAnswer, State.privAnswer_ok, State.upFw, State.emit])
    (State.onlyChanges_mono (State.onlyChanges_syncPriv _) (by decide))

/-- A state of the update written and then answered reads as written. -/
theorem State.rd_upd_wr_fwEnd (s : State) {v : Nat} (hv : v < 8) (seq upd : Nat) :
    ((s.wr Reg.CAR_STAT_UPD v).fwEnd seq upd).rd Reg.CAR_STAT_UPD = v := by
  rw [State.rd_fwEnd _ _ _ (by decide), State.rd_wr_self _ _ _ _ _ (by decide)]
  exact Nat.mod_eq_of_lt hv

/-- An event and then the answer: the parts that may change, and the state of the update. -/
theorem State.carEvent_fwEnd_effect (s : State) (code sev : Nat) (ps : List Nat) (seq upd : Nat) :
    ((s.carEvent code sev ps).fwEnd seq upd).rd Reg.CAR_STAT_UPD = s.rd Reg.CAR_STAT_UPD ∧
    ((s.carEvent code sev ps).fwEnd seq upd).car.fw = { s.car.fw with lastResult := upd } ∧
    s.onlyChanges ((s.carEvent code sev ps).fwEnd seq upd) [.regs, .car, .flt, .out, .host] := by
  obtain ⟨hparts, hregs⟩ := s.reportsOnly_carEvent code sev ps false
  refine ⟨?_, ?_, (State.onlyChanges_mono hparts (by decide)).andThen (State.onlyChanges_fwEnd _ _ _)⟩
  · rw [State.rd_fwEnd _ _ _ (by decide)]
    exact hregs _ _ _ (by decide)
  · rw [State.fwEnd_fw, hparts .car (by decide)]

/-! Slots. -/

theorem FwState.slot_setSlot_self (w : FwState) (k : Nat) (x : FwSlot) : (w.setSlot k x).slot k = x := by
  unfold FwState.setSlot FwState.slot
  by_cases h : k = 0 <;> simp [h]

/-- The slot that is active is never the one that an update writes. -/
theorem FwState.slot_setSlot_other (w : FwState) (k : Nat) (x : FwSlot) : (w.setSlot (1 - k) x).slot k = w.slot k := by
  unfold FwState.setSlot FwState.slot
  rcases Nat.eq_zero_or_pos k with rfl | h
  · simp
  · have h1 : 1 - k = 0 := by omega
    simp [h1, Nat.ne_of_gt h]

@[simp] theorem FwState.setSlot_active (w : FwState) (k : Nat) (x : FwSlot) : (w.setSlot k x).active = w.active := by
  unfold FwState.setSlot
  split <;> rfl

/-! The operations. -/

/-- The record of an update that a session begins. -/
def State.begun (s : State) (id total : Nat) : FwState :=
  { s.car.fw.setSlot s.fwTarget { factory := false, total := total } with
      owner := some id, ownerRole := (s.sessionRole id).num, staged := none }

theorem fwBegin_inTurn {s : State} {id : Nat} {r : Role} (h : s.mayUpdate id r) (hu : s.rd Reg.CAR_STAT_UPD = updIDLE) (seq : Nat)
    {total : Nat} (h1 : 16 ≤ total) (h2 : total ≤ fwMax) :
    fwBegin id seq total s = ((s.upFw fun _ => s.begun id total).wr Reg.CAR_STAT_UPD updERASING).fwEnd seq upOK := by
  have hbad : (decide (total < 16) || decide (fwMax < total)) = false := by simp [Nat.not_lt.mpr h1, Nat.not_lt.mpr h2]
  rw [fwBegin, h.fwOp_inTurn seq hu (by decide), hbad]
  rfl

/-- A piece that the slot takes. -/
def FwSlot.takes (w : FwSlot) (off : Nat) (data : Bytes) : Prop :=
  16 ≤ data.length ∧ data.length ≤ 4032 ∧ off % 16 = 0 ∧ off + data.length ≤ w.total ∧ w.pieces = []

theorem fwData_inTurn {s : State} {id : Nat} {r : Role} (h : s.mayUpdate id r) (hu : s.rd Reg.CAR_STAT_UPD = updRECEIVING) (seq : Nat)
    {off : Nat} {data : Bytes} (hw : (s.car.fw.slot s.fwTarget).takes off data) (flashOk : Bool) :
    fwData id seq off data flashOk s = if flashOk then
        (s.upFw fun f => f.setSlot s.fwTarget { s.car.fw.slot s.fwTarget with pieces := [(off, data)] }).fwEnd seq upOK
      else (s.carEvent evFLASH_FAIL sevERROR [slotOffset s.fwTarget + off]).fwEnd seq upFLASH := by
  obtain ⟨h1, h2, h3, h4, h5⟩ := hw
  have hbad : (decide (data.length < 16) || decide (4032 < data.length) || off % 16 != 0 ||
      decide ((s.car.fw.slot s.fwTarget).total < off + data.length) || false) = false := by
    simp [Nat.not_lt.mpr h1, Nat.not_lt.mpr h2, Nat.not_lt.mpr h4, h3]
  rw [fwData, h.fwOp_inTurn seq hu (by decide)]
  dsimp only
  rw [h5, List.any_nil, hbad]
  cases flashOk <;> rfl

theorem fwVerify_passes {s : State} {id : Nat} {r : Role} (h : s.mayUpdate id r) (hu : s.rd Reg.CAR_STAT_UPD = updRECEIVING) (seq : Nat)
    {c : Nat} {i : FwInfo} (hv : s.verifySlot (s.car.fw.slot s.fwTarget) = (c, some i)) :
    fwVerify id seq s = (((s.upFw fun w => { w with staged := some i }).wr Reg.CAR_FW_SVN_STAGED i.svn).wr Reg.CAR_STAT_UPD
      updVERIFIED).fwEnd seq upOK := by
  rw [fwVerify, h.fwOp_inTurn seq hu (by decide), hv]
  rfl

theorem fwVerify_fails {s : State} {id : Nat} {r : Role} (h : s.mayUpdate id r) (hu : s.rd Reg.CAR_STAT_UPD = updRECEIVING) (seq : Nat)
    {c : Nat} (hv : s.verifySlot (s.car.fw.slot s.fwTarget) = (c, none)) :
    fwVerify id seq s = (s.carEvent evFW_VERIFY_FAIL sevWARN [c]).fwEnd seq c := by
  rw [fwVerify, h.fwOp_inTurn seq hu (by decide), hv]
  rfl

/-- The record of an update whose slot is active on trial. -/
def FwState.onTrial (w : FwState) : FwState := { w with before := w.active, active := 1 - w.active, trial := true, tries := 0 }

theorem fwActivate_inTurn {s : State} {id : Nat} {r : Role} (h : s.mayUpdate id r) (hu : s.rd Reg.CAR_STAT_UPD = updVERIFIED)
    (seq : Nat) : fwActivate id seq s = (((s.upFw FwState.onTrial).wr Reg.CAR_STAT_UPD updACTIVATED).carEvent evFW_STAGED sevINFO
      [(s.car.fw.staged.getD {}).version, (s.car.fw.staged.getD {}).svn, s.fwTarget]).fwEnd seq upOK := by
  rw [fwActivate, h.fwOp_inTurn seq hu (by decide)]
  rfl

theorem fwActivate_outOfTurn {s : State} {id : Nat} {r : Role} (h : s.mayUpdate id r) (hu : s.rd Reg.CAR_STAT_UPD = updIDLE)
    (seq : Nat) : fwActivate id seq s = s.fwEnd seq upORDER := h.fwOp_outOfTurn seq hu (by decide) _

/-- The record of an update that is given up after its slot was made active. -/
def FwState.restored (w : FwState) : FwState := { w with active := w.before, trial := false, tries := 0 }

theorem fwAbort_activated {s : State} {id : Nat} {r : Role} (h : s.mayUpdate id r) (hu : s.rd Reg.CAR_STAT_UPD = updACTIVATED)
    (seq : Nat) : fwAbort id seq s = (((s.upFw FwState.restored).updIdle).wr Reg.CAR_FW_SVN_STAGED 0).fwEnd seq upOK := by
  rw [fwAbort, h.fwOp_inTurn seq hu (by decide), if_pos hu]
  rfl

/-- Settles O56: each operation in its turn, and one out of turn. -/
theorem firmwareUpdateFollowsItsStates : Obligations.FirmwareUpdateFollowsItsStates := by
  intro s id seq r hrole hgrants hsettled hval happ hscrub
  have hmay : s.rd Reg.CAR_STAT_UPD = updIDLE ∨ s.car.fw.owner = some id → s.mayUpdate id r :=
    fun hown => ⟨hrole, hgrants, hsettled, hval, happ, hscrub, hown⟩
  refine ⟨fun hu total h1 h2 => ?_, fun hu => ?_, fun hu hown => ⟨fun off data h1 h2 h3 h4 h5 => ⟨?_, ?_⟩, fun c i hv => ?_, fun c hv => ?_⟩,
    fun hu hown => ?_, fun hu hown => ?_, fun hu => ?_⟩
  · exact ⟨_, congrArg Host.Outcome.next (fwBegin_inTurn (hmay (.inl hu)) hu seq h1 h2), State.rd_upd_wr_fwEnd _ (by decide) _ _,
      FwState.slot_setSlot_self _ _ _, FwState.setSlot_active _ _ _, FwState.slot_setSlot_other _ _ _, rfl, rfl,
      State.onlyChanges_trans (by simp [State.onlyChanges_iff, State.upFw]) (State.onlyChanges_fwEnd _ _ _)⟩
  · refine ⟨_, congrArg Host.Outcome.next (if_pos hu), ?_, (s.onlyChanges_wr _ _ 0 0 (by decide)).andThen (State.onlyChanges_syncPriv _)⟩
    rw [State.rd_syncPriv_separate _ (by decide), State.rd_wr_self _ _ _ _ _ (by decide)]
    rfl
  · refine ⟨_, congrArg Host.Outcome.next ((fwData_inTurn (hmay (.inr hown)) hu seq ⟨h1, h2, h3, h4, h5⟩ true).trans (if_pos rfl)),
      (State.rd_fwEnd _ _ _ (by decide) _ _).trans hu, ?_, FwState.setSlot_active _ _ _, rfl,
      State.onlyChanges_trans (by simp [State.onlyChanges_iff, State.upFw]) (State.onlyChanges_fwEnd _ _ _)⟩
    exact congrArg FwSlot.pieces (FwState.slot_setSlot_self _ _ _)
  · obtain ⟨hupd, hfw, hframe⟩ := s.carEvent_fwEnd_effect evFLASH_FAIL sevERROR [slotOffset s.fwTarget + off] seq upFLASH
    exact ⟨_, congrArg Host.Outcome.next ((fwData_inTurn (hmay (.inr hown)) hu seq ⟨h1, h2, h3, h4, h5⟩ false).trans (if_neg Bool.false_ne_true)),
      hupd.trans hu, hfw, hframe⟩
  · refine ⟨_, congrArg Host.Outcome.next (fwVerify_passes (hmay (.inr hown)) hu seq hv), State.rd_upd_wr_fwEnd _ (by decide) _ _, rfl, ?_, rfl,
      State.onlyChanges_trans (by simp [State.onlyChanges_iff, State.upFw]) (State.onlyChanges_fwEnd _ _ _)⟩
    rw [State.rd_fwEnd _ _ _ (by decide), State.rd_wr_separate _ _ _ _ _ (by decide), State.rd_wr_self _ _ _ _ _ (by decide)]
  · obtain ⟨hupd, hfw, hframe⟩ := s.carEvent_fwEnd_effect evFW_VERIFY_FAIL sevWARN [c] seq c
    exact ⟨_, congrArg Host.Outcome.next (fwVerify_fails (hmay (.inr hown)) hu seq hv), hupd.trans hu, hfw, hframe⟩
  · obtain ⟨hupd, hfw, hframe⟩ := State.carEvent_fwEnd_effect ((s.upFw FwState.onTrial).wr Reg.CAR_STAT_UPD updACTIVATED) evFW_STAGED sevINFO
      [(s.car.fw.staged.getD {}).version, (s.car.fw.staged.getD {}).svn, s.fwTarget] seq upOK
    refine ⟨_, congrArg Host.Outcome.next (fwActivate_inTurn (hmay (.inr hown)) hu seq),
      hupd.trans (State.rd_wr_self _ _ _ _ _ (by decide)), ?_⟩
    rw [hfw]
    exact ⟨rfl, rfl, rfl, rfl, rfl, State.onlyChanges_trans (by simp [State.onlyChanges_iff, State.upFw]) hframe⟩
  · refine ⟨_, congrArg Host.Outcome.next (fwAbort_activated (hmay (.inr hown)) hu seq), ?_, rfl, rfl, rfl, rfl,
      State.onlyChanges_trans (by simp [State.onlyChanges_iff, State.upFw, State.updIdle]) (State.onlyChanges_fwEnd _ _ _)⟩
    rw [State.rd_fwEnd _ _ _ (by decide), State.rd_wr_separate _ _ _ _ _ (by decide), State.updIdle, State.rd_upFw,
      State.rd_wr_self _ _ _ _ _ (by decide)]
    rfl
  · exact ⟨_, congrArg Host.Outcome.next (fwActivate_outOfTurn (hmay (.inl hu)) hu seq), (State.rd_fwEnd _ _ _ (by decide) _ _).trans hu, rfl, rfl,
      s.onlyChanges_fwEnd _ _⟩

end Sys2Proof.Machine
end

section
/-!
PROOF. Sessions (R426, R474): what the list of sessions is after one begins, changes or ends, and all that this changes.
-/
namespace Sys2Proof.Machine

/-- The state with another list of sessions, shown. -/
def State.withSessions (s : State) (l : Tab Session) : State := (s.upSec fun c => { c with sessions := l }).syncSessions

@[simp] theorem State.withSessions_sec (s : State) (l : Tab Session) : (s.withSessions l).sec = { s.sec with sessions := l } := rfl
@[simp] theorem State.withSessions_img (s : State) (l : Tab Session) : (s.withSessions l).img = s.img := rfl
@[simp] theorem State.withSessions_car (s : State) (l : Tab Session) : (s.withSessions l).car = s.car := rfl
@[simp] theorem State.withSessions_out (s : State) (l : Tab Session) : (s.withSessions l).out = s.out := rfl

theorem State.onlyChanges_withSessions (s : State) (l : Tab Session) : s.onlyChanges (s.withSessions l) [.regs, .sec] := by
  simp [State.onlyChanges_iff, State.withSessions, State.syncSessions, State.wrb, State.upSec]

/-- The fields that show the sessions. -/
def sessionKeys : List Nat := [Reg.SEC_SESS_ACTIVE.key 0 0, Reg.SEC_SESS_CUST.key 0 0, Reg.SEC_SESS_OPER.key 0 0]

theorem State.regsKept_withSessions (s : State) (l : Tab Session) : s.regsKeptBut (s.withSessions l) sessionKeys :=
  State.regsKept_trans (State.regsKept_trans
      (State.regsKept_wr (s.upSec fun c => { c with sessions := l }) Reg.SEC_SESS_ACTIVE _ 0 0 (by decide))
      (State.regsKept_wr _ Reg.SEC_SESS_CUST _ 0 0 (by decide)))
    (State.regsKept_wr _ Reg.SEC_SESS_OPER _ 0 0 (by decide))

/-- An image load that the ended session delivered is dropped. -/
def State.dropLoadOf (s : State) (id : Nat) : State :=
  if (s.img.receiving.map (·.session)) = some id then
    (s.upImg fun b => { b with receiving := none }).wr Reg.FEN_IMG_STATUS_BUSY (b2n (s.img.validating.isSome || s.img.applying.isSome))
  else s

/-- A firmware update that the ended session owned goes to IDLE, or without owner if it is activated. -/
def State.dropUpdateOf (s : State) (id : Nat) : State :=
  if s.car.fw.owner = some id then
    (if s.rd Reg.CAR_STAT_UPD = updACTIVATED then s.upFw fun f => { f with owner := none } else s.updIdle)
  else s

/-- The end of a session, part by part. -/
theorem State.endSession_eq (s : State) (id : Nat) :
    s.endSession id = ((s.withSessions (Tab.del s.sec.sessions id)).dropLoadOf id).dropUpdateOf id := rfl

/-- The fields that the end of a session may write. -/
def endSessionKeys : List Nat := Reg.FEN_IMG_STATUS_BUSY.key 0 0 :: Reg.CAR_STAT_UPD.key 0 0 :: sessionKeys

theorem State.dropLoadOf_effect (s : State) (id : Nat) : (s.dropLoadOf id).sec = s.sec ∧
    s.onlyChanges (s.dropLoadOf id) [.regs, .img] ∧ s.regsKeptBut (s.dropLoadOf id) endSessionKeys := by
  unfold State.dropLoadOf
  split
  · exact ⟨rfl, by simp [State.onlyChanges_iff, State.upImg], State.regsKept_wr (s.upImg fun b => { b with receiving := none }) _ _ 0 0
      (by decide)⟩
  · exact ⟨rfl, s.onlyChanges_refl _, s.regsKept_refl _⟩

theorem State.dropUpdateOf_effect (s : State) (id : Nat) : (s.dropUpdateOf id).sec = s.sec ∧
    s.onlyChanges (s.dropUpdateOf id) [.regs, .car] ∧ s.regsKeptBut (s.dropUpdateOf id) endSessionKeys := by
  unfold State.dropUpdateOf
  split
  · split
    · exact ⟨rfl, by simp [State.onlyChanges_iff, State.upFw], State.regsKept_of_regs rfl _⟩
    · refine ⟨rfl, by simp [State.onlyChanges_iff, State.upFw, State.updIdle], ?_⟩
      exact State.regsKept_trans (s.regsKept_wr Reg.CAR_STAT_UPD _ 0 0 (by decide)) (State.regsKept_of_regs rfl _)
  · exact ⟨rfl, s.onlyChanges_refl _, s.regsKept_refl _⟩

/-- The end of a session takes it, and no other, out of the list. -/
theorem State.endSession_effect (s : State) (id : Nat) :
    (s.endSession id).sec = { s.sec with sessions := Tab.del s.sec.sessions id } ∧
    s.onlyChanges (s.endSession id) [.regs, .sec, .img, .car] ∧ s.regsKeptBut (s.endSession id) endSessionKeys := by
  rw [State.endSession_eq]
  obtain ⟨hsec1, hpart1, hreg1⟩ := (s.withSessions (Tab.del s.sec.sessions id)).dropLoadOf_effect id
  obtain ⟨hsec2, hpart2, hreg2⟩ := ((s.withSessions (Tab.del s.sec.sessions id)).dropLoadOf id).dropUpdateOf_effect id
  refine ⟨hsec2.trans hsec1, ?_, ?_⟩
  · exact ((State.onlyChanges_mono (s.onlyChanges_withSessions _) (by decide)).andThen hpart1).andThen hpart2
  · exact State.regsKept_trans (State.regsKept_trans (State.regsKept_mono (s.regsKept_withSessions _) (by decide)) hreg1) hreg2

/-- The other sessions stand. -/
theorem State.find?_endSession (s : State) (id : Nat) : Tab.find? (s.endSession id).sec.sessions id = none ∧
    ∀ i, i ≠ id → Tab.find? (s.endSession id).sec.sessions i = Tab.find? s.sec.sessions i := by
  rw [(s.endSession_effect id).1]
  exact ⟨Tab.find?_del_self _ _, fun i hi => Tab.find?_del_ne _ hi⟩

end Sys2Proof.Machine
end

section
/-!
PROOF. SPDM requests outside a session, and the life of a session (R421, R423, R424, R426).
-/
namespace Sys2Proof.Machine

/-! Requests that need no session. -/

/-- An answer whose content the standard fixes. -/
theorem State.spdmStandard_effect (s : State) (code : Nat) (req : Bytes) :
    s.onlyChanges (s.spdmStandard code req) [.sec, .out] ∧ (s.spdmStandard code req).out =
      s.out ++ [.message chSPDM (code - 0x80) (Config.standardReply code req s.sec.messages)] :=
  ⟨s.onlyChanges_counted_emit _, rfl⟩

theorem State.spdmError_effect (s : State) (code : Nat) : s.onlyChanges (s.spdmError code) [.out] ∧
    (s.spdmError code).out = s.out ++ [.message chSPDM spERROR (leBytes 1 code)] := ⟨s.onlyChanges_emit _ (by decide), rfl⟩

/-- A body as the Alias key signs it with the request. -/
def State.signedBody (s : State) (req body : Bytes) : Bytes := body ++ Config.aliasSign s.cdi (req ++ body) s.sec.messages

/-- The body of the CHALLENGE response before its signature. -/
def State.challengeBody (s : State) (req : Bytes) : Bytes := Config.standardReply spCHALLENGE req s.sec.messages

theorem challenge_served {s : State} {l : Nat} (h : s.spdmLevel = some l) (hl : 1 ≤ l) (req : Bytes) :
    challenge 0 req s = s.counted.emit (.message chSPDM (spCHALLENGE - 0x80) (s.signedBody req (s.challengeBody req))) :=
  State.spdm_served h hl _

/-- The body of the response with all ten measurements before its signature. -/
def State.allMeasurements (s : State) : Bytes := [10] ++ (([1, 2, 3, 4, 5, 6, 7, 8, 9, 10] : List Nat).map s.measBlock).flatten

theorem getMeasurements_all {s : State} {l : Nat} (h : s.spdmLevel = some l) (hl : 1 ≤ l) (req : Bytes) :
    getMeasurements 0xFF req s =
      s.counted.emit (.message chSPDM (spGET_MEASUREMENTS - 0x80) (s.signedBody req s.allMeasurements)) :=
  State.spdm_served h hl _

theorem getMeasurements_unknown {s : State} {l : Nat} (h : s.spdmLevel = some l) (hl : 1 ≤ l) (req : Bytes) {i : Nat} (h10 : 10 < i)
    (hff : i ≠ 0xFF) : getMeasurements i req s = s.spdmError erINVALID := by
  rw [getMeasurements, State.spdm_served h hl]
  simp [h10, hff]

/-- A certificate request of slot 0. -/
theorem getCertificate_slot0 {s : State} {l : Nat} (h : s.spdmLevel = some l) (hl : 1 ≤ l) (off len : Nat) :
    ∃ t body, exec (.getCertificate 0 off len) s = .next t ∧ s.onlyChanges t [.out] ∧
      t.out = s.out ++ [.message chSPDM (spGET_CERTIFICATE - 0x80) body] ∧ body.drop 4 = (s.certChain.drop off).take len := by
  refine ⟨_, _, congrArg Host.Outcome.next (State.spdm_served h hl _), s.onlyChanges_emit _ (by decide), rfl, ?_⟩
  exact List.drop_left' (by simp)

theorem getCertificate_other {s : State} {l : Nat} (h : s.spdmLevel = some l) (hl : 1 ≤ l) {slot : Nat} (hs : slot ≠ 0)
    (off len : Nat) : getCertificate slot off len s = s.spdmError erINVALID := by
  rw [getCertificate, State.spdm_served h hl, if_pos hs]

/-! The beginning of a session. -/

/-- The state with the next session begun. -/
def State.sessionBegun (s : State) : State :=
  (s.counted.upSec fun c => { c with sessions := Tab.put c.sessions s.sec.nextSession { lastBeat := s.hclk },
                                     nextSession := s.sec.nextSession + 1 }).syncSessions

theorem keyExchange_opens {s : State} {l : Nat} (h : s.spdmLevel = some l) (hl : 2 ≤ l) (he : s.entropy = true)
    (hn : s.sec.sessions.length < 4) (req : Bytes) : ∃ m, keyExchange req s = s.sessionBegun.emit m := by
  rw [keyExchange, State.spdm_served h hl, he, if_neg (by simp), if_neg (Nat.not_le.mpr hn)]
  exact ⟨_, rfl⟩

theorem keyExchange_busy {s : State} {l : Nat} (h : s.spdmLevel = some l) (hl : 2 ≤ l) (he : s.entropy = true)
    (hn : 4 ≤ s.sec.sessions.length) (req : Bytes) : keyExchange req s = s.spdmError erBUSY := by
  rw [keyExchange, State.spdm_served h hl, he, if_neg (by simp), if_pos hn]

theorem State.sessionBegun_effect (s : State) (m : OutMsg) :
    Tab.find? (s.sessionBegun.emit m).sec.sessions s.sec.nextSession = some { lastBeat := s.hclk } ∧
    (∀ i, i ≠ s.sec.nextSession → Tab.find? (s.sessionBegun.emit m).sec.sessions i = Tab.find? s.sec.sessions i) ∧
    s.onlyChanges (s.sessionBegun.emit m) [.regs, .sec, .out] ∧ s.regsKeptBut (s.sessionBegun.emit m) sessionKeys := by
  refine ⟨Tab.find?_put_self _ _ _, fun i hi => Tab.find?_put_ne _ _ hi,
    by simp [State.onlyChanges_iff, State.sessionBegun, State.syncSessions, State.wrb, State.counted, State.upSec, State.emit], ?_⟩
  have hbegun := State.regsKept_withSessions (s.counted.upSec fun c => { c with nextSession := s.sec.nextSession + 1 })
    (Tab.put s.sec.sessions s.sec.nextSession { lastBeat := s.hclk })
  exact State.regsKept_trans hbegun (State.regsKept_of_regs rfl _)

/-! The end of the handshake. -/

/-- The state with a session's handshake ended. -/
def State.accepted (s : State) (id : Nat) (x : Session) (role : Role) (root : Bytes) : State :=
  (s.withSessions (Tab.put s.sec.sessions id
    { x with finished := true, role := role, root := root, lastBeat := s.hclk })).spdmStandard spFINISH []

theorem finishSession_noChain {s : State} {l id : Nat} {x : Session} (h : s.spdmLevel = some l) (hl : 2 ≤ l)
    (hx : Tab.find? s.sec.sessions id = some x) (hf : x.finished = false) (hp : s.phase ≠ phRECOVERY) :
    finishSession id none true s = s.accepted id x .none [] := by
  rw [finishSession, State.spdm_served h hl, hx]
  simp only [hf, hp, Bool.false_eq_true, Bool.not_true, if_false]
  rfl

theorem finishSession_chain {s : State} {l id : Nat} {x : Session} (h : s.spdmLevel = some l) (hl : 2 ≤ l)
    (hx : Tab.find? s.sec.sessions id = some x) (hf : x.finished = false) (hp : s.phase ≠ phRECOVERY) {c r : Bytes}
    (hc : Config.chainRoot c = some r) : finishSession id (some c) true s = s.accepted id x (s.roleOf r) r := by
  rw [finishSession, State.spdm_served h hl, hx]
  simp only [hf, hp, hc, decide_false, Bool.false_eq_true, Bool.not_true, Bool.false_and, if_false]
  rfl

theorem State.accepted_effect (s : State) (id : Nat) (x : Session) (role : Role) (root : Bytes) :
    Tab.find? (s.accepted id x role root).sec.sessions id =
      some { x with finished := true, role := role, root := root, lastBeat := s.hclk } ∧
    (∀ i, i ≠ id → Tab.find? (s.accepted id x role root).sec.sessions i = Tab.find? s.sec.sessions i) ∧
    s.onlyChanges (s.accepted id x role root) [.regs, .sec, .out] :=
  ⟨Tab.find?_put_self _ _ _, fun _ hi => Tab.find?_put_ne _ _ hi,
    (State.onlyChanges_mono (s.onlyChanges_withSessions _) (by decide)).andThen (State.spdmStandard_effect _ _ _).1⟩

theorem finishSession_notAuthentic {s : State} {l id : Nat} {x : Session} (h : s.spdmLevel = some l) (hl : 2 ≤ l)
    (hx : Tab.find? s.sec.sessions id = some x) (hf : x.finished = false) (chain : Option Bytes) :
    finishSession id chain false s = s.sessionFail id := by
  rw [finishSession, State.spdm_served h hl, hx]
  simp [hf]

/-- A handshake that fails is counted, its session is gone, and no other. -/
theorem State.sessionFail_effect (s : State) (id : Nat) :
    Tab.find? (s.sessionFail id).sec.sessions id = none ∧
    (s.sessionFail id).rd Reg.SEC_CNT_SESS_FAIL = min (s.rd Reg.SEC_CNT_SESS_FAIL + 1) (2 ^ Reg.SEC_CNT_SESS_FAIL.width - 1) ∧
    (∀ i, i ≠ id → Tab.find? (s.sessionFail id).sec.sessions i = Tab.find? s.sec.sessions i) ∧
    (s.sessionFail id).out = s.out ++ [.message chSPDM spERROR [6]] ∧
    s.onlyChanges (s.sessionFail id) [.regs, .sec, .img, .car, .out] := by
  obtain ⟨-, hparts, hregs⟩ := (s.bump Reg.SEC_CNT_SESS_FAIL).endSession_effect id
  obtain ⟨hgone, hothers⟩ := (s.bump Reg.SEC_CNT_SESS_FAIL).find?_endSession id
  refine ⟨hgone, ?_, hothers, ?_, ?_⟩
  · exact (hregs Reg.SEC_CNT_SESS_FAIL 0 0 (by decide)).trans (s.rd_bump_self _ 0 0 1 (by decide))
  · have hout : ((s.bump Reg.SEC_CNT_SESS_FAIL).endSession id).out = s.out := hparts .out (by decide)
    exact congrArg (· ++ [OutMsg.message chSPDM spERROR [6]]) hout
  · exact (State.onlyChanges_trans (State.onlyChanges_mono (s.onlyChanges_bump Reg.SEC_CNT_SESS_FAIL 0 0 1 (ps := [.regs]) (by decide))
      (by decide)) (State.onlyChanges_mono hparts (by decide))).andThen (State.spdmError_effect _ erDECRYPT).1

/-! An open session. -/

/-- The state with a session's time of its last beat renewed, answered. -/
def State.renewed (s : State) (id : Nat) : State :=
  (s.upSec fun c => { c with sessions := Tab.upd c.sessions id fun y => { y with lastBeat := s.hclk } }).spdmStandard spHEARTBEAT []

theorem State.renewed_effect (s : State) {id : Nat} {x : Session} (hx : Tab.find? s.sec.sessions id = some x) :
    Tab.find? (s.renewed id).sec.sessions id = some { x with lastBeat := s.hclk } ∧
    (∀ i, i ≠ id → Tab.find? (s.renewed id).sec.sessions i = Tab.find? s.sec.sessions i) ∧
    s.onlyChanges (s.renewed id) [.sec, .out] := by
  have hl : (s.renewed id).sec.sessions = Tab.upd s.sec.sessions id fun y => { y with lastBeat := s.hclk } := rfl
  rw [hl]
  refine ⟨?_, fun i hi => Tab.find?_upd_ne _ _ hi,
    by simp [State.onlyChanges_iff, State.renewed, State.spdmStandard, State.spdmSend, State.counted, State.upSec, State.emit]⟩
  rw [Tab.find?_upd_self, hx]
  rfl

theorem sessionHeartbeatLoss_lost {s : State} {id : Nat} {x : Session} (hx : Tab.find? s.sec.sessions id = some x)
    (h : x.lastBeat + beatLimit ≤ s.hclk) : sessionHeartbeatLoss id s = s.endSession id := by
  rw [sessionHeartbeatLoss, hx]
  exact if_neg (Nat.not_lt.mpr h)

theorem sessionHeartbeatLoss_early {s : State} {id : Nat} {x : Session} (hx : Tab.find? s.sec.sessions id = some x)
    (h : s.hclk < x.lastBeat + beatLimit) : sessionHeartbeatLoss id s = s := by
  rw [sessionHeartbeatLoss, hx]
  exact if_pos h

/-- END_SESSION answers and ends the session. -/
theorem State.answeredAndEnded_effect (s : State) (id : Nat) :
    Tab.find? ((s.spdmStandard spEND_SESSION []).endSession id).sec.sessions id = none ∧
    (∀ i, i ≠ id → Tab.find? ((s.spdmStandard spEND_SESSION []).endSession id).sec.sessions i = Tab.find? s.sec.sessions i) ∧
    s.onlyChanges ((s.spdmStandard spEND_SESSION []).endSession id) [.regs, .sec, .img, .car, .out] := by
  obtain ⟨hgone, hothers⟩ := (s.spdmStandard spEND_SESSION []).find?_endSession id
  obtain ⟨-, hparts, -⟩ := (s.spdmStandard spEND_SESSION []).endSession_effect id
  exact ⟨hgone, hothers, State.onlyChanges_trans (State.onlyChanges_mono (s.spdmStandard_effect _ _).1 (by decide))
    (State.onlyChanges_mono hparts (by decide))⟩

/-- Settles O53: the requests outside a session, then a session's life. -/
theorem spdmSessionsAnswerBeginAndEnd : Obligations.SpdmSessionsAnswerBeginAndEnd := by
  refine ⟨fun s req => ⟨fun l h => ⟨?_, fun hl => ⟨?_, ?_, ?_, getCertificate_slot0 h hl, fun slot off len hs => ?_, ?_, ?_,
      fun i h10 hff => ?_⟩, fun hl he hn => ?_, fun hl he hn => ?_⟩, fun h => ⟨?_, ?_⟩⟩,
    fun s id x hx => ⟨fun l h hl hf => ⟨fun hp => ?_, fun c r hp hc => ?_, fun c => ?_⟩, fun l h hl hf => ⟨?_, ?_⟩, fun req h hf => ?_,
      fun h => ?_, fun h => ?_⟩⟩
  · exact ⟨_, congrArg Host.Outcome.next (State.spdm_served h (Nat.zero_le l) _), s.spdmStandard_effect _ _⟩
  · exact ⟨_, congrArg Host.Outcome.next (State.spdm_served h hl _), s.spdmStandard_effect _ _⟩
  · exact ⟨_, congrArg Host.Outcome.next (State.spdm_served h hl _), s.spdmStandard_effect _ _⟩
  · exact ⟨_, congrArg Host.Outcome.next (State.spdm_served h hl _), s.onlyChanges_emit _ (by decide), rfl⟩
  · exact ⟨_, congrArg Host.Outcome.next (getCertificate_other h hl hs off len), s.spdmError_effect _⟩
  · exact ⟨_, _, congrArg Host.Outcome.next (challenge_served h hl req), s.onlyChanges_counted_emit _, rfl⟩
  · exact ⟨_, congrArg Host.Outcome.next (getMeasurements_all h hl req), s.onlyChanges_counted_emit _, rfl⟩
  · exact ⟨_, congrArg Host.Outcome.next (getMeasurements_unknown h hl req h10 hff), s.spdmError_effect _⟩
  · obtain ⟨m, hm⟩ := keyExchange_opens h hl he hn req
    exact ⟨_, congrArg Host.Outcome.next hm, s.sessionBegun_effect m⟩
  · exact ⟨_, congrArg Host.Outcome.next (keyExchange_busy h hl he hn req), s.spdmError_effect _⟩
  · exact congrArg Host.Outcome.next (by rw [getVersion, State.spdm, h])
  · exact congrArg Host.Outcome.next (by rw [keyExchange, State.spdm, h])
  · exact ⟨_, congrArg Host.Outcome.next (finishSession_noChain h hl hx hf hp), rfl, s.accepted_effect id x _ _⟩
  · exact ⟨_, congrArg Host.Outcome.next (finishSession_chain h hl hx hf hp hc), s.accepted_effect id x _ _⟩
  · exact ⟨_, congrArg Host.Outcome.next (finishSession_notAuthentic h hl hx hf c), s.sessionFail_effect id⟩
  · exact ⟨_, congrArg Host.Outcome.next (State.onSession_finished h hl hx hf _), s.renewed_effect hx⟩
  · exact ⟨_, congrArg Host.Outcome.next (State.onSession_finished h hl hx hf _), s.answeredAndEnded_effect id⟩
  · obtain ⟨hparts, hout⟩ := s.spdmStandard_effect spKEY_UPDATE req
    exact ⟨_, congrArg Host.Outcome.next (State.onSession_finished h (Nat.le_refl 4) hx hf _), rfl, hout, hparts⟩
  · obtain ⟨hgone, hothers⟩ := s.find?_endSession id
    exact ⟨_, congrArg Host.Outcome.next (sessionHeartbeatLoss_lost hx h), hgone, hothers, (s.endSession_effect id).2.1⟩
  · exact congrArg Host.Outcome.next (sessionHeartbeatLoss_early hx h)

end Sys2Proof.Machine
end

section
/-!
PROOF. Custody (R421–R433, R438): the privileged requests on the record, keys and debug, and the scrub of a change of custodian.
-/
namespace Sys2Proof.Machine

/-! The requests on the record. -/

/-- A granted request ends with its answer OK. -/
def State.answeredOK (s : State) (code seq : Nat) (extra : Bytes := []) : State := (s.emit (privReply code seq resOK extra)).syncPriv

theorem State.onlyChanges_answeredOK (s : State) (code seq : Nat) (extra : Bytes) :
    s.onlyChanges (s.answeredOK code seq extra) [.regs, .out] :=
  State.onlyChanges_trans (State.onlyChanges_emit _ _ (by decide)) (State.onlyChanges_mono (State.onlyChanges_syncPriv _) (by decide))

theorem State.rd_answeredOK (s : State) (code seq : Nat) (extra : Bytes) {g : Fld} (h : g.separate Reg.SEC_SESS_PRIV_BUSY = true)
    (a b : Nat) : (s.answeredOK code seq extra).rd g a b = s.rd g a b := State.rd_syncPriv_separate _ h _ _

/-- An update of the security unit's record, answered OK. -/
theorem State.onlyChanges_upSec_answeredOK (s : State) (f : SecState → SecState) (code seq : Nat) (extra : Bytes) :
    s.onlyChanges ((s.upSec f).answeredOK code seq extra) [.regs, .sec, .out] :=
  State.onlyChanges_trans (t := s.upSec f) (by simp [State.onlyChanges_iff, State.upSec])
    (State.onlyChanges_mono (State.onlyChanges_answeredOK _ _ _ _) (by decide))

/-- The slot table with a key set or cleared. -/
def slotKeys (k : Nat) (key : Option Bytes) (t : Tab Bytes) : Tab Bytes :=
  match key with
  | some b => Tab.put t k b
  | none => Tab.del t k

theorem keySlot_granted {s : State} {id : Nat} (hg : s.grants id .custodian = true) (hc : s.custState = custCLAIMED)
    (hb : s.privBusy = false) {k : Nat} (hk : k < 4) (seq : Nat) {key : Option Bytes} (hkey : (key.any fun b => b.length != 97) = false) :
    keySlot id seq k key s = (s.upSec fun c => { c with cust := c.cust.map fun r =>
      { r with imgKeys := slotKeys k key r.imgKeys } }).answeredOK cdKEY_SLOT seq := by
  have hk' : decide (3 < k) = false := decide_eq_false (by omega)
  rw [keySlot, State.privileged_granted hg (by decide) (by simpa using hc) hb, hkey, hk']
  rfl

theorem policyRow_granted {s : State} {id : Nat} (hg : s.grants id .custodian = true) (hc : s.custState = custCLAIMED)
    (hb : s.privBusy = false) {c : CustRecord} (hrec : s.sec.cust = some c) (seq : Nat) {bits : Nat} {roots allow : List Bytes}
    (hok : ({ c with policy := bits, epRoots := roots, epAllow := allow } : CustRecord).ok = true) :
    policyRow id seq bits roots allow s = (s.upSec fun r =>
      { r with cust := some { c with policy := bits, epRoots := roots, epAllow := allow },
               inForce := some s.policyNow }).answeredOK cdPOLICY seq := by
  rw [policyRow, State.privileged_granted hg (by decide) (by simpa using hc) hb, hrec]
  dsimp only [Option.getD_some]
  rw [hok]
  rfl

theorem custodianRead_granted {s : State} {id : Nat} {r : Role} (hr : r = .custodian ∨ r = .operator) (hg : s.grants id r = true)
    (hb : s.privBusy = false) {c : CustRecord} (hrec : s.sec.cust = some c) (seq : Nat) :
    custodianRead id seq s = s.answeredOK cdCUSTODIAN_READ seq c.bytes := by
  have hroles : [Role.custodian, Role.operator].contains r = true := by rcases hr with rfl | rfl <;> decide
  rw [custodianRead, State.privileged_granted hg hroles rfl hb, hrec]
  rfl

theorem custodianInstall_granted {s : State} {id : Nat} (hg : s.grants id .operator = true) (hc : s.custState = custUNCLAIMED)
    (hb : s.privBusy = false) {c : CustRecord} (hok : c.ok = true) (he : s.entropy = true) (hd : s.rd Reg.SEC_LIFE_DEBUG ≠ dbgFULL)
    (seq : Nat) : custodianInstall id seq c s = (s.putCustodian (some c)).answeredOK cdCUSTODIAN_INSTALL seq := by
  rw [custodianInstall, State.privileged_granted hg (by decide) (by simpa using hc) hb, hok, he, if_neg (by simp), if_neg (by simp), if_neg hd]
  rfl

theorem operatorSet_granted {s : State} {id : Nat} (hg : s.grants id .operator = true) (hl : s.life = lifeDEPLOYED)
    (hb : s.privBusy = false) {root old sigR sigS : Bytes} (hlen : root.length = 97) (hold : s.sec.operator = some old)
    (hsig : Config.ecdsaVerify old root sigR sigS = true) (seq : Nat) :
    operatorSet id seq root sigR sigS s =
      ((s.upSec fun c => { c with operator := some root }).wr Reg.SEC_LIFE_STATE lifeDEPLOYED).answeredOK cdOPERATOR_SET seq := by
  rw [operatorSet, State.privileged_granted hg (by decide) (by simp [hl]) hb, hold]
  simp only [hl, hlen, hsig, Option.any_some, if_neg (show lifeDEPLOYED ≠ lifePROVISIONING by decide)]
  rfl

/-- The state after DECOMMISSION but for its last line. -/
def State.decommissioned (s : State) (seq : Nat) : State :=
  (((s.emit (privReply cdDECOMMISSION seq resOK)).upSec fun c => { c with uds := false }).wr Reg.SEC_LIFE_STATE
    lifeDECOMMISSIONED).clearSessions

theorem decommission_granted {s : State} {id : Nat} (hg : s.grants id .operator = true) (hl : s.life = lifeDEPLOYED)
    (hc : s.custState = custUNCLAIMED) (hb : s.privBusy = false) (seq : Nat) :
    decommission id seq s = (s.decommissioned seq).syncPriv := by
  rw [decommission, State.privileged_granted hg (by decide) (by simp [hl, hc]) hb]
  rfl

theorem State.decommissioned_effect (s : State) (seq : Nat) : (s.decommissioned seq).syncPriv.life = lifeDECOMMISSIONED ∧
    s.onlyChanges (s.decommissioned seq).syncPriv [.regs, .sec, .out] := by
  refine ⟨?_, State.onlyChanges_trans (t := s.decommissioned seq)
    (by simp [State.onlyChanges_iff, State.decommissioned, State.clearSessions, State.upSec, State.emit])
    (State.onlyChanges_mono (State.onlyChanges_syncPriv _) (by decide))⟩
  rw [State.life, State.rd_syncPriv_separate _ (by decide), State.decommissioned, State.clearSessions,
    State.rd_wr_separate _ _ _ _ _ (by decide), State.rd_wr_separate _ _ _ _ _ (by decide),
    State.rd_wr_separate _ _ _ _ _ (by decide), State.rd_upSec, State.rd_wr_self _ _ _ _ _ (by decide)]
  rfl

/-! A record put in place. -/

theorem State.putCustodian_effect (s : State) (rec : Option CustRecord) :
    (s.putCustodian rec).custState = (if rec.isSome then custCLAIMED else custUNCLAIMED) ∧
    (s.putCustodian rec).rd Reg.SEC_CUST_CHANGES =
      min (s.rd Reg.SEC_CUST_CHANGES + 1) (2 ^ Reg.SEC_CUST_CHANGES.width - 1) ∧
    (s.putCustodian rec).rd Reg.SEC_POLICY_BITS = ((rec.map (·.policy)).getD 0) % 2 ^ Reg.SEC_POLICY_BITS.width ∧
    (s.putCustodian rec).sec = { s.sec with cust := rec, inForce := none, cutOff := none } ∧
    s.onlyChanges (s.putCustodian rec) [.regs, .sec] := by
  refine ⟨?_, ?_, State.rd_wr_self _ _ _ _ _ (by decide), rfl,
    by simp [State.onlyChanges_iff, State.putCustodian, State.upSec, State.inc]⟩
  · rw [State.custState, State.putCustodian, State.rd_wr_separate _ _ _ _ _ (by decide), State.inc,
      State.rd_wr_separate _ _ _ _ _ (by decide), State.rd_bump_separate _ _ _ _ _ (by decide), State.rd_wr_self _ _ _ _ _ (by decide)]
    cases rec <;> rfl
  · rw [State.putCustodian, State.rd_wr_separate _ _ _ _ _ (by decide), State.inc, State.rd_wr_separate _ _ _ _ _ (by decide),
      State.rd_bump_self _ _ _ _ _ (by decide), State.rd_wr_separate _ _ _ _ _ (by decide), State.rd_upSec]

/-! Debug levels. -/

/-- The resuming of a pair touches Carillon's state and the fields that show a halt. -/
theorem State.onlyChanges_resumePair (s : State) (p : Nat) : s.onlyChanges (s.resumePair p) [.regs, .car] := by
  unfold State.resumePair
  dsimp only
  split
  · exact s.onlyChanges_refl _
  · split <;> simp [State.onlyChanges_iff, State.upCar]

/-- The debug level is as set, whatever it was. -/
theorem State.debugLevel_effect (s : State) {l : Nat} (hl : l < 4) :
    (s.debugLevel l).rd Reg.SEC_LIFE_DEBUG = l ∧ s.onlyChanges (s.debugLevel l) [.regs, .car, .flt, .out, .host] := by
  unfold State.debugLevel
  split
  · next h => exact ⟨h, s.onlyChanges_refl _⟩
  · generalize ht : ((s.resumePair 0).resumePair 1) = t
    have hresume : s.onlyChanges t [.regs, .car] := ht ▸ (s.onlyChanges_resumePair 0).andThen (State.onlyChanges_resumePair _ 1)
    obtain ⟨hparts, hregs⟩ := State.reportsOnly_carEvent ((t.wr Reg.SEC_LIFE_DEBUG l).wr Reg.DBG_LEVEL_LEVEL l) evDEBUG_LEVEL sevINFO [l] false
    refine ⟨?_, ?_⟩
    · refine (hregs Reg.SEC_LIFE_DEBUG 0 0 (by decide)).trans ?_
      rw [State.rd_wr_separate _ _ _ _ _ (by decide), State.rd_wr_self _ _ _ _ _ (by decide)]
      exact Nat.mod_eq_of_lt hl
    · refine ((State.onlyChanges_mono hresume (by decide)).andThen (u := (t.wr Reg.SEC_LIFE_DEBUG l).wr Reg.DBG_LEVEL_LEVEL l)
        (qs := [.regs]) ?_).andThen hparts
      simp [State.onlyChanges_iff]

theorem State.sessionRole_of_grants {s : State} {id : Nat} {r : Role} (h : s.grants id r = true) : s.sessionRole id = r := by
  obtain ⟨-, x, hx, -, rfl⟩ := State.grants_iff.mp h
  rw [State.sessionRole, hx]

/-- DEBUG_UNLOCK of a role in the state where it may unlock. -/
theorem debugUnlock_effect {s : State} {id : Nat} {r : Role} {l st : Nat} (hg : s.grants id r = true)
    (hcase : r = .custodian ∧ st = custCLAIMED ∧ l = dbgINSPECT ∨ r = .operator ∧ st = custUNCLAIMED ∧ l = dbgFULL)
    (hc : s.custState = st) (seq : Nat) : ∃ t, exec (.debugUnlock id seq) s = .next t ∧
      t.rd Reg.SEC_LIFE_DEBUG = l ∧ s.onlyChanges t [.regs, .car, .flt, .out, .host] := by
  have hrun : debugUnlock id seq s = (s.debugLevel l).answeredOK cdDEBUG_UNLOCK seq := by
    unfold debugUnlock
    rw [State.sessionRole_of_grants hg]
    rcases hcase with ⟨rfl, rfl, rfl⟩ | ⟨rfl, rfl, rfl⟩
    · rw [State.privileged_granted hg (by decide) (by rw [hc]; rfl) rfl]
      rfl
    · rw [State.privileged_granted hg (by decide) (by rw [hc]; rfl) rfl]
      rfl
  have hl : l < 4 := by rcases hcase with ⟨-, -, rfl⟩ | ⟨-, -, rfl⟩ <;> decide
  obtain ⟨hlevel, hparts⟩ := s.debugLevel_effect hl
  refine ⟨_, congrArg Host.Outcome.next hrun, ?_, hparts.andThen (State.onlyChanges_answeredOK _ _ _ _)⟩
  rw [State.rd_answeredOK _ _ _ _ (by decide), hlevel]

/-! Requests of another role. -/

/-- A refused request is answered DENIED and counted, and changes nothing else. -/
theorem State.denied_effect (s : State) (code seq : Nat) :
    (s.privAnswer code seq resDENIED).out = s.out ++ [privReply code seq resDENIED] ∧
    s.onlyChanges (s.privAnswer code seq resDENIED) [.regs, .out] ∧
    s.regsKeptBut (s.privAnswer code seq resDENIED) [Reg.SEC_CNT_PRIV_DENY.key 0 0] := by
  rw [State.privAnswer_denied]
  exact ⟨rfl, (s.onlyChanges_bump _ 0 0 1 (by decide)).andThen (State.onlyChanges_emit _ _ (ps := [.out]) (by decide)),
    State.regsKept_trans (s.regsKept_bump Reg.SEC_CNT_PRIV_DENY 0 0 1 (by decide)) (State.regsKept_of_regs rfl _)⟩

/-! The scrub. -/

theorem State.onlyChanges_foldl_endSession (ids : List Nat) (s : State) :
    s.onlyChanges (ids.foldl State.endSession s) [.regs, .sec, .img, .car] := by
  induction ids generalizing s with
  | nil => exact s.onlyChanges_refl _
  | cons i ids ih => exact State.onlyChanges_trans (s.endSession_effect i).2.1 (ih _)

/-- A session stays out, and one that is ended goes. -/
theorem State.find?_foldl_endSession (ids : List Nat) (s : State) {i : Nat}
    (h : Tab.find? s.sec.sessions i = none ∨ i ∈ ids) : Tab.find? (ids.foldl State.endSession s).sec.sessions i = none := by
  induction ids generalizing s with
  | nil => simpa using h
  | cons j ids ih =>
    refine ih _ ?_
    obtain ⟨hgone, hothers⟩ := s.find?_endSession j
    by_cases hij : i = j
    · exact .inl (hij ▸ hgone)
    · rw [hothers i hij]
      simpa [hij] using h

/-- The sessions that a scrub ends: all but its own. -/
def State.otherSessions (s : State) (keep : Nat) : List Nat := (s.sec.sessions.map (·.1)).filter (· != keep)

theorem Tab.find?_eq_none_of_notMem {α : Type} {t : Tab α} {i : Nat} (h : i ∉ t.map (·.1)) : Tab.find? t i = none := by
  induction t with
  | nil => rfl
  | cons p t ih =>
    simp only [List.map_cons, List.mem_cons, not_or] at h
    rw [Tab.find?, if_neg (Ne.symm h.1)]
    exact ih h.2

theorem State.find?_otherSessions (s : State) {keep i : Nat} (hi : i ≠ keep) :
    Tab.find? ((s.otherSessions keep).foldl State.endSession s).sec.sessions i = none := by
  refine State.find?_foldl_endSession _ _ ?_
  by_cases h : i ∈ s.sec.sessions.map (·.1)
  · exact .inr (List.mem_filter.mpr ⟨h, by simpa using hi⟩)
  · exact .inl (Tab.find?_eq_none_of_notMem h)

/-- A scrub's clearing up to the debug level: the parts are emptied and the memory keys are new. -/
def State.scrubEmptied (s : State) : State :=
  let s := (s.keepFields keepScrub).clearCustom
  let s := { s with img := { reports := s.img.reports } }
  let s := s.flashAppend (s.unpersisted.filter (·.health))
  let kept := (s.flt.flashLog.zip s.car.flashBoots).filter fun e => e.1.health
  let s := s.upCar fun c => { c with flashBoots := kept.map (·.2) }
  let s := s.upFlt fun f => { f with log := f.log.filter (·.health), flashLog := kept.map (·.1), persisted := f.nextEseq
                                     runs := [], skipped := 0, unsignalled := none, badEntries := [] }
  let s := s.upSec fun c => { c with ide := [], inForce := none, fenChain := [], sanitizing := [] }
  let s := (((s.wr Reg.SEC_IDE_STREAMS 0).wr Reg.SEC_IDE_FAIL 0).wr Reg.SEC_TDISP_STATE tdUNLOCKED).wr Reg.SEC_MEAS_FEN_EXTENDS 0
  s.newMemoryKeys

/-- The last lines of a scrub's clearing: debug locked, the free units and the sessions shown. -/
def State.scrubShown (s : State) : State :=
  ((s.debugLevel dbgLOCKED).wr Reg.POOL_NEAR_FREE_UNITS (64 * (s.debugLevel dbgLOCKED).groupUnits)).syncSessions

theorem State.scrubClear_eq (s : State) (keep : Nat) :
    s.scrubClear keep = ((s.otherSessions keep).foldl State.endSession s).scrubEmptied.scrubShown := rfl

theorem State.scrubShown_effect (s : State) : s.scrubShown.rd Reg.SEC_LIFE_DEBUG = dbgLOCKED ∧
    s.onlyChanges s.scrubShown [.regs, .car, .flt, .out, .host] := by
  obtain ⟨hlevel, hparts⟩ := s.debugLevel_effect (l := dbgLOCKED) (by decide)
  refine ⟨?_, hparts.andThen (qs := [.regs]) (by simp [State.onlyChanges_iff, State.scrubShown, State.syncSessions, State.wrb])⟩
  rw [State.scrubShown, State.syncSessions, State.wrb, State.wrb, State.rd_wr_separate _ _ _ _ _ (by decide),
    State.rd_wr_separate _ _ _ _ _ (by decide), State.rd_wr_separate _ _ _ _ _ (by decide),
    State.rd_wr_separate _ _ _ _ _ (by decide), hlevel]

/-- What is empty after a scrub's clearing. -/
structure State.emptied (t : State) : Prop where
  near : t.near = []
  tray : t.tray = []
  cfg : t.cfg = {}
  extents : t.pool.extents = []
  regions : t.pool.regions = []
  cmds : t.cmd.cmds = []
  rings : t.cmd.rings = []
  red : t.red = {}
  sqt : t.sqt = {}
  running : t.img.running = none

theorem State.emptied_scrubEmptied (s : State) : s.scrubEmptied.emptied := ⟨rfl, rfl, rfl, rfl, rfl, rfl, rfl, rfl, rfl, rfl⟩

/-- What is empty stays so where the listed parts alone change. -/
theorem State.emptied.of_frame {s t : State} (h : s.emptied) (k : s.onlyChanges t [.regs, .car, .flt, .out, .host, .sec]) : t.emptied := by
  refine ⟨?_, ?_, ?_, ?_, ?_, ?_, ?_, ?_, ?_, ?_⟩
  · exact (k .near (by decide)).trans h.near
  · exact (k .tray (by decide)).trans h.tray
  · exact (k .cfg (by decide)).trans h.cfg
  · exact (congrArg PoolState.extents (k .pool (by decide))).trans h.extents
  · exact (congrArg PoolState.regions (k .pool (by decide))).trans h.regions
  · exact (congrArg CmdState.cmds (k .cmd (by decide))).trans h.cmds
  · exact (congrArg CmdState.rings (k .cmd (by decide))).trans h.rings
  · exact (k .red (by decide)).trans h.red
  · exact (k .sqt (by decide)).trans h.sqt
  · exact (congrArg ImageState.running (k .img (by decide))).trans h.running

theorem State.scrubEmptied_sessions (s : State) : s.scrubEmptied.sec.sessions = s.sec.sessions := by
  unfold State.scrubEmptied
  rfl

theorem State.scrubEmptied_pending (s : State) : s.scrubEmptied.pending = s.pending := by
  simp [State.scrubEmptied, State.newMemoryKeys, State.upSec, State.upFlt, State.upCar, State.flashAppend, State.clearCustom, State.clearPool,
    State.clearLoads, State.clearFlight, State.clearWork, State.clearFabric, State.keepFields, State.upPool, State.upImg, State.upXbr,
    State.upFab, State.upCmd, State.upAtt, State.upShp]

/-- A scrub's clearing leaves the parts empty, debug locked and no session but its own. -/
theorem State.scrubClear_effect (s : State) (keep : Nat) : (s.scrubClear keep).emptied ∧
    (s.scrubClear keep).rd Reg.SEC_LIFE_DEBUG = dbgLOCKED ∧ (∀ i, i ≠ keep → Tab.find? (s.scrubClear keep).sec.sessions i = none) ∧
    (s.scrubClear keep).pending = s.pending := by
  rw [State.scrubClear_eq]
  obtain ⟨hlevel, hparts⟩ := State.scrubShown_effect ((s.otherSessions keep).foldl State.endSession s).scrubEmptied
  refine ⟨(State.emptied_scrubEmptied _).of_frame (State.onlyChanges_mono hparts (by decide)), hlevel, fun i hi => ?_, ?_⟩
  · rw [hparts .sec (by decide), State.scrubEmptied_sessions]
    exact s.find?_otherSessions hi
  · exact ((hparts .pending (by decide)).trans (State.scrubEmptied_pending _)).trans (State.onlyChanges_foldl_endSession _ s .pending (by decide))

/-- A scrub that runs, noted with the record to come. -/
def State.scrubNoted (s : State) (r : ScrubRun) (rec : Option CustRecord) (san : Bool) : State :=
  (s.upSec fun c => { c with scrub := some r, cutOff := some rec, sanitize := c.sanitize || san }).wr Reg.SEC_CUST_STATE custSWITCHING

theorem State.startScrub_eq (s : State) (id seq code : Nat) (rec : Option CustRecord) (san : Bool) :
    ∃ r, r.carried = rec ∧ s.startScrub id seq code rec san = ((s.usageReport true).2.scrubClear id).scrubNoted r rec san :=
  ⟨_, rfl, rfl⟩

theorem State.usageReport_snd (s : State) (closing : Bool) :
    (s.usageReport closing).2 = s.counted.upImg fun b => { b with reports := s.img.reports + 1 } := rfl

/-- The state of a scrub that has begun. -/
def State.scrubBegun (s : State) (r : ScrubRun) (rec : Option CustRecord) (san : Bool) : State := (s.scrubNoted r rec san).syncPriv

theorem State.scrubBegun_sec (s : State) (r : ScrubRun) (rec : Option CustRecord) (san : Bool) : (s.scrubBegun r rec san).sec =
    { s.sec with scrub := some r, cutOff := some rec, sanitize := s.sec.sanitize || san } := rfl

theorem State.onlyChanges_scrubBegun (s : State) (r : ScrubRun) (rec : Option CustRecord) (san : Bool) :
    s.onlyChanges (s.scrubBegun r rec san) [.regs, .car, .flt, .out, .host, .sec] := by
  simp [State.onlyChanges_iff, State.scrubBegun, State.scrubNoted, State.syncPriv, State.wrb, State.upSec]

theorem State.custState_scrubBegun (s : State) (r : ScrubRun) (rec : Option CustRecord) (san : Bool) :
    (s.scrubBegun r rec san).custState = custSWITCHING := by
  rw [State.custState, State.scrubBegun, State.rd_syncPriv_separate _ (by decide), State.scrubNoted, State.rd_wr_self _ _ _ _ _ (by decide)]
  rfl

theorem State.debug_scrubBegun (s : State) (r : ScrubRun) (rec : Option CustRecord) (san : Bool) :
    (s.scrubBegun r rec san).rd Reg.SEC_LIFE_DEBUG = s.rd Reg.SEC_LIFE_DEBUG := by
  rw [State.scrubBegun, State.rd_syncPriv_separate _ (by decide), State.scrubNoted, State.rd_wr_separate _ _ _ _ _ (by decide),
    State.rd_upSec]

/-- The begin of a scrub: what is empty, and what it carries. -/
theorem State.startScrub_effect (s : State) (id seq code : Nat) (rec : Option CustRecord) (san : Bool) :
    ∃ t, (s.startScrub id seq code rec san).syncPriv = t ∧ t.custState = custSWITCHING ∧ t.emptied ∧
    (∀ i, i ≠ id → Tab.find? t.sec.sessions i = none) ∧ t.rd Reg.SEC_LIFE_DEBUG = dbgLOCKED ∧
    (t.sec.scrub.map fun r => r.carried) = some rec ∧ t.sec.cutOff = some rec ∧ t.pending = s.pending := by
  obtain ⟨r, hr, hrun⟩ := s.startScrub_eq id seq code rec san
  obtain ⟨hempty, hlevel, hfind, hpend⟩ := (s.usageReport true).2.scrubClear_effect id
  have hreport : (s.usageReport true).2.pending = s.pending := by simp [State.usageReport_snd, State.counted, State.upSec, State.upImg]
  rw [hrun]
  generalize (s.usageReport true).2.scrubClear id = u at hempty hlevel hfind hpend
  have hframe := u.onlyChanges_scrubBegun r rec san
  refine ⟨u.scrubBegun r rec san, rfl, u.custState_scrubBegun r rec san, hempty.of_frame hframe, ?_,
    (u.debug_scrubBegun r rec san).trans hlevel, ?_, ?_, ((hframe .pending (by decide)).trans hpend).trans hreport⟩
  · rw [State.scrubBegun_sec]
    exact hfind
  · rw [State.scrubBegun_sec, ← hr]
    rfl
  · rw [State.scrubBegun_sec]

theorem custodianSwitch_granted {s : State} {id : Nat} (hg : s.grants id .operator = true) (hc : s.custState = custCLAIMED)
    (hd : s.on Reg.COH_STAT_DOWN = false) (hu : s.updWriting = false) (hs : s.sec.scrub = none) {c : Option CustRecord}
    (hok : ∀ r, c = some r → r.ok = true) (he : s.entropy = true) (seq : Nat) (san : Bool) :
    custodianSwitch id seq c san s = (s.startScrub id seq cdCUSTODIAN_SWITCH c san).syncPriv := by
  have hany : (c.any fun r => !r.ok) = false := by
    cases c with
    | none => rfl
    | some r => simp [hok r rfl]
  rw [custodianSwitch, State.privileged_granted hg (by decide) (by rw [hc, hd]; rfl) (by rw [hu, hs]; rfl), hany, he]
  rfl

theorem custodianRelease_granted {s : State} {id : Nat} (hg : s.grants id .custodian = true) (hc : s.custState = custCLAIMED)
    (hd : s.on Reg.COH_STAT_DOWN = false) (hu : s.updWriting = false) (hb : s.privBusy = false) (he : s.entropy = true) (seq : Nat)
    (san : Bool) : custodianRelease id seq san s = (s.startScrub id seq cdCUSTODIAN_RELEASE none san).syncPriv := by
  rw [custodianRelease, State.privileged_granted hg (by decide) (by rw [hc, hd]; rfl) (by rw [hu, hb]; rfl), he]
  rfl

/-! The end of the scrub. -/

/-- The state with its scrub over and its time noted. -/
def State.scrubOver (s : State) (r : ScrubRun) : State :=
  let s := s.upSec fun c => { c with scrub := none }
  let s := s.wr Reg.SEC_SWITCH_MAX_US (s.sinceUs r.start)
  s.wr64 Reg.SEC_SWITCH_DONE_LO Reg.SEC_SWITCH_DONE_HI s.tnow

/-- The bytes that the scrub's answer adds. -/
def ScrubRun.extra (r : ScrubRun) : Bytes := if r.code = cdCUSTODIAN_INSTALL then [] else r.report

theorem State.rd_scrubOver (s : State) (r : ScrubRun) {g : Fld} (h1 : g.separate Reg.SEC_SWITCH_MAX_US = true)
    (h2 : g.separate Reg.SEC_SWITCH_DONE_LO = true) (h3 : g.separate Reg.SEC_SWITCH_DONE_HI = true) (a b : Nat) :
    (s.scrubOver r).rd g a b = s.rd g a b := by
  rw [State.scrubOver, State.wr64, State.rd_wr_separate _ _ _ _ _ h3, State.rd_wr_separate _ _ _ _ _ h2, State.rd_wr_separate _ _ _ _ _ h1]
  rfl

theorem State.entropy_scrubOver (s : State) (r : ScrubRun) : (s.scrubOver r).entropy = s.entropy := by
  rw [State.entropy, State.on, State.on, State.rd_scrubOver _ _ (by decide) (by decide) (by decide),
    State.rd_scrubOver _ _ (by decide) (by decide) (by decide)]
  rfl

theorem State.onlyChanges_scrubOver (s : State) (r : ScrubRun) : s.onlyChanges (s.scrubOver r) [.regs, .sec] := by
  simp [State.onlyChanges_iff, State.scrubOver, State.wr64, State.upSec]

theorem scrubComplete_eq {s : State} {r : ScrubRun} (h : s.sec.scrub = some r) : scrubComplete s =
    if !(s.scrubOver r).entropy then
      (((s.scrubOver r).wr Reg.SEC_CUST_STATE custFAILED).syncPriv).emit (privReply r.code r.seq resNO_ENTROPY r.extra)
    else (((s.scrubOver r).putCustodian r.carried).syncPriv).emit (privReply r.code r.seq resOK r.extra) := by
  unfold scrubComplete
  rw [h]
  rfl

theorem scrubComplete_of_entropy {s : State} {r : ScrubRun} (h : s.sec.scrub = some r) (he : s.entropy = true) :
    scrubComplete s = (((s.scrubOver r).putCustodian r.carried).syncPriv).emit (privReply r.code r.seq resOK r.extra) := by
  rw [scrubComplete_eq h, s.entropy_scrubOver r, he]
  rfl

theorem scrubComplete_of_noEntropy {s : State} {r : ScrubRun} (h : s.sec.scrub = some r) (he : s.entropy = false) :
    scrubComplete s = (((s.scrubOver r).wr Reg.SEC_CUST_STATE custFAILED).syncPriv).emit (privReply r.code r.seq resNO_ENTROPY r.extra) := by
  rw [scrubComplete_eq h, s.entropy_scrubOver r, he]
  rfl

theorem scrubComplete_puts {s : State} {r : ScrubRun} (h : s.sec.scrub = some r) (he : s.entropy = true) :
    ∃ t, exec .scrubComplete s = .next t ∧ t.sec.scrub = none ∧ t.sec.cutOff = none ∧
      t.sec.cust = r.carried ∧ t.custState = (if r.carried.isSome then custCLAIMED else custUNCLAIMED) ∧
      t.rd Reg.SEC_CUST_CHANGES = min (s.rd Reg.SEC_CUST_CHANGES + 1) (2 ^ Reg.SEC_CUST_CHANGES.width - 1) ∧
      s.onlyChanges t [.regs, .sec, .out] := by
  obtain ⟨hstate, hchanges, -, hsec, hparts⟩ := (s.scrubOver r).putCustodian_effect r.carried
  have hframe := (State.onlyChanges_mono (s.onlyChanges_scrubOver r) (qs := [.regs, .sec, .out]) (by decide)).andThen hparts
  refine ⟨_, congrArg Host.Outcome.next (scrubComplete_of_entropy h he), ?_, ?_, ?_, ?_, ?_,
    (hframe.andThen (State.onlyChanges_syncPriv _)).andThen (State.onlyChanges_emit _ _ (ps := [.out]) (by decide))⟩
  · exact congrArg SecState.scrub hsec
  · exact congrArg SecState.cutOff hsec
  · exact congrArg SecState.cust hsec
  · exact (State.rd_syncPriv_separate _ (by decide) _ _).trans hstate
  · refine (State.rd_syncPriv_separate _ (by decide) _ _).trans (hchanges.trans ?_)
    rw [State.rd_scrubOver _ _ (by decide) (by decide) (by decide)]

theorem scrubComplete_fails {s : State} {r : ScrubRun} (h : s.sec.scrub = some r) (he : s.entropy = false) :
    ∃ t, exec .scrubComplete s = .next t ∧ t.sec.scrub = none ∧ t.sec.cust = s.sec.cust ∧ t.custState = custFAILED ∧
      s.onlyChanges t [.regs, .sec, .out] := by
  refine ⟨_, congrArg Host.Outcome.next (scrubComplete_of_noEntropy h he), rfl, rfl, ?_, ?_⟩
  · refine (State.rd_syncPriv_separate _ (by decide) _ _).trans ?_
    rw [State.rd_wr_self _ _ _ _ _ (by decide)]
    rfl
  · exact (((State.onlyChanges_mono (s.onlyChanges_scrubOver r) (by decide)).andThen
      (State.onlyChanges_wr _ Reg.SEC_CUST_STATE custFAILED 0 0 (ps := [.regs]) (by decide))).andThen
      (State.onlyChanges_syncPriv _)).andThen (State.onlyChanges_emit _ _ (ps := [.out]) (by decide))

/-- A failed test of the TRNG clears OK, sets FAIL and is recorded. -/
theorem trngFail_effect {s : State} (he : s.entropy = true) (k : Nat) : ∃ t, exec (.trngFail k) s = .next t ∧
    t.rd Reg.SEC_TRNG_OK = 0 ∧ t.rd Reg.SEC_TRNG_FAIL = 1 ∧ t.entropy = false ∧ s.onlyChanges t recordParts := by
  have hrun : trngFail k s = ((s.wr Reg.SEC_TRNG_OK 0).wr Reg.SEC_TRNG_FAIL 1).event
      { code := evTRNG_FAIL, sev := sevERROR, health := true, params := [k % 2] } := by
    rw [trngFail, he]
    rfl
  generalize ({ code := evTRNG_FAIL, sev := sevERROR, health := true, params := [k % 2] } : Report) = r at hrun
  have hok : (((s.wr Reg.SEC_TRNG_OK 0).wr Reg.SEC_TRNG_FAIL 1).event r).rd Reg.SEC_TRNG_OK = 0 := by
    rw [State.rd_event _ _ _ _ _ (by decide), State.rd_wr_separate _ _ _ _ _ (by decide), State.rd_wr_self _ _ _ _ _ (by decide)]
    rfl
  have hfail : (((s.wr Reg.SEC_TRNG_OK 0).wr Reg.SEC_TRNG_FAIL 1).event r).rd Reg.SEC_TRNG_FAIL = 1 := by
    rw [State.rd_event _ _ _ _ _ (by decide), State.rd_wr_self _ _ _ _ _ (by decide)]
    rfl
  refine ⟨_, congrArg Host.Outcome.next hrun, hok, hfail, by simp [State.entropy, State.on, hok, hfail], ?_⟩
  exact State.onlyChanges_trans (by simp [State.onlyChanges_iff, recordParts]) (State.reportsOnly_event _ r).1

/-- The privileged requests of one session. -/
theorem custodyRequests (s : State) (id seq : Nat) : (∀ c, s.grants id .operator = true → s.custState = custUNCLAIMED →
      s.privBusy = false → c.ok = true → s.entropy = true →
      s.rd Reg.SEC_LIFE_DEBUG ≠ dbgFULL → ∃ t, exec (.custodianInstall id seq c) s = .next t ∧ t.sec.cust = some c ∧
        t.custState = custCLAIMED ∧ t.rd Reg.SEC_POLICY_BITS = c.policy % 2 ^ Reg.SEC_POLICY_BITS.width ∧
        t.rd Reg.SEC_CUST_CHANGES = min (s.rd Reg.SEC_CUST_CHANGES + 1) (2 ^ Reg.SEC_CUST_CHANGES.width - 1) ∧
        t.out = s.out ++ [privReply cdCUSTODIAN_INSTALL seq resOK] ∧ s.onlyChanges t [.regs, .sec, .out]) := by
  intro c hg hc hb hok he hd
  obtain ⟨hstate, hchanges, hpolicy, hsec, hparts⟩ := s.putCustodian_effect (some c)
  refine ⟨_, congrArg Host.Outcome.next (custodianInstall_granted hg hc hb hok he hd seq), congrArg SecState.cust hsec,
    (State.rd_answeredOK _ _ _ _ (by decide) _ _).trans hstate, (State.rd_answeredOK _ _ _ _ (by decide) _ _).trans hpolicy,
    (State.rd_answeredOK _ _ _ _ (by decide) _ _).trans hchanges,
    congrArg (· ++ [privReply cdCUSTODIAN_INSTALL seq resOK]) (hparts .out (by decide)),
    (State.onlyChanges_mono hparts (by decide)).andThen (State.onlyChanges_answeredOK _ _ _ _)⟩

/-- Settles O54: the requests on the record, then the scrub's begin and end. -/
theorem custodyChangesAndIsScrubbed : Obligations.CustodyChangesAndIsScrubbed := by
  refine ⟨fun s id seq => ⟨fun k key hg hc hb hk hlen => ?_, fun k hg hc hb hk => ?_, fun bits roots allow c hg hc hb hrec hok => ?_,
      fun hg hc => debugUnlock_effect hg (.inl ⟨rfl, rfl, rfl⟩) hc seq, fun hg hc => debugUnlock_effect hg (.inr ⟨rfl, rfl, rfl⟩) hc seq,
      fun r c hr hg hb hrec => ?_, custodyRequests s id seq, fun root old sigR sigS hg hl hb hlen hold hsig => ?_,
      fun hg hl hc hb => ?_, fun k key c root sigR sigS hg => ⟨?_, ?_, ?_⟩⟩,
    fun s id seq => ⟨fun c san hg hc hd hu hs hok he => ?_, fun san hg hc hd hu hb he => ?_, fun r => scrubComplete_puts,
      fun r => scrubComplete_fails, fun k he => trngFail_effect he k⟩⟩
  · exact ⟨_, congrArg Host.Outcome.next (keySlot_granted hg hc hb hk seq (by simp [hlen])), rfl, rfl, rfl, s.onlyChanges_upSec_answeredOK _ _ _ _⟩
  · exact ⟨_, congrArg Host.Outcome.next (keySlot_granted hg hc hb hk seq rfl), rfl, rfl, s.onlyChanges_upSec_answeredOK _ _ _ _⟩
  · exact ⟨_, congrArg Host.Outcome.next (policyRow_granted hg hc hb hrec seq hok), rfl, rfl, State.rd_answeredOK _ _ _ _ (by decide) _ _, rfl,
      s.onlyChanges_upSec_answeredOK _ _ _ _⟩
  · exact ⟨_, congrArg Host.Outcome.next (custodianRead_granted hr hg hb hrec seq), rfl, s.onlyChanges_answeredOK _ _ _,
      State.regsKept_wr (s.emit _) Reg.SEC_SESS_PRIV_BUSY _ 0 0 (by decide)⟩
  · refine ⟨_, congrArg Host.Outcome.next (operatorSet_granted hg hl hb hlen hold hsig seq), rfl, ?_, rfl, ?_⟩
    · refine (State.rd_answeredOK _ _ _ _ (by decide) _ _).trans ?_
      rw [State.rd_wr_self _ _ _ _ _ (by decide)]
      rfl
    · exact State.onlyChanges_trans (by simp [State.onlyChanges_iff, State.upSec])
        (State.onlyChanges_mono (State.onlyChanges_answeredOK _ _ _ _) (by decide))
  · obtain ⟨hlife, hparts⟩ := s.decommissioned_effect seq
    exact ⟨_, congrArg Host.Outcome.next (decommission_granted hg hl hc hb seq), hlife, rfl, rfl, rfl, hparts⟩
  · exact ⟨_, congrArg Host.Outcome.next (State.privileged_denied hg (by decide) _ _ _ _ _ _), s.denied_effect _ _⟩
  · exact ⟨_, congrArg Host.Outcome.next (State.privileged_denied hg (by decide) _ _ _ _ _ _), s.denied_effect _ _⟩
  · exact ⟨_, congrArg Host.Outcome.next (State.privileged_denied hg (by decide) _ _ _ _ _ _), s.denied_effect _ _⟩
  · obtain ⟨t, ht, hstate, hempty, hfind, hlevel, hcarried, hcut, hpend⟩ := s.startScrub_effect id seq cdCUSTODIAN_SWITCH c san
    exact ⟨t, congrArg Host.Outcome.next ((custodianSwitch_granted hg hc hd hu hs hok he seq san).trans ht), hstate, hempty.near, hempty.tray,
      hempty.cfg, hempty.extents, hempty.regions, hempty.cmds, hempty.rings, hempty.red, hempty.sqt, hempty.running, hfind, hlevel, hcarried,
      hcut, hpend⟩
  · obtain ⟨t, ht, hstate, hempty, -, -, hcarried, -, hpend⟩ := s.startScrub_effect id seq cdCUSTODIAN_RELEASE none san
    exact ⟨t, congrArg Host.Outcome.next ((custodianRelease_granted hg hc hd hu hb he seq san).trans ht), hstate, hempty.near, hempty.tray,
      hempty.cfg, hempty.extents, hempty.cmds, hempty.running, hcarried, hpend⟩

end Sys2Proof.Machine
end

section
/-!
PROOF. Images and usage (R55–R67, R427): pieces of a load, the end of validation, the application of a fen image, and the usage report.
-/
namespace Sys2Proof.Machine

/-! The end of a load attempt. -/

/-- A load attempt ends with its answer. -/
def State.loadEnded (s : State) (session seq result sect off : Nat) : State := (s.loadEnd result sect off).loadAnswer session seq result

/-- The fields that the end of a load attempt may write. -/
def loadFlds : List Fld :=
  [Reg.FEN_IMG_STATUS_RESULT, Reg.FEN_IMG_STATUS_SECTION, Reg.FEN_IMG_OFFSET_OFFSET, Reg.FEN_IMG_STATUS_DONE, Reg.FEN_IMG_STATUS_BUSY,
   Reg.SEC_SESS_PRIV_BUSY]

theorem State.onlyChanges_loadEnd (s : State) (result sect off : Nat) : s.onlyChanges (s.loadEnd result sect off) [.regs] := by
  simp [State.onlyChanges_iff, State.loadEnd]

theorem State.rd_loadEnd (s : State) (result sect off : Nat) {g : Fld} (h : ∀ f ∈ loadFlds, g.separate f = true) (a b : Nat) :
    (s.loadEnd result sect off).rd g a b = s.rd g a b := by
  rw [State.loadEnd, State.rd_wr_separate _ _ _ _ _ (h _ (by decide)), State.rd_wr_separate _ _ _ _ _ (h _ (by decide)),
    State.rd_wr_separate _ _ _ _ _ (h _ (by decide)), State.rd_wr_separate _ _ _ _ _ (h _ (by decide))]

theorem State.onlyChanges_loadAnswer (s : State) (session seq result : Nat) :
    s.onlyChanges (s.loadAnswer session seq result) [.regs, .out] := by
  unfold State.loadAnswer
  dsimp only
  split
  · simp [State.onlyChanges_iff, State.privAnswer_ok, State.emit, State.syncPriv, State.syncLoad, State.wrb]
  · simp [State.onlyChanges_iff, State.syncPriv, State.syncLoad, State.wrb]

theorem State.rd_loadAnswer (s : State) (session seq result : Nat) {g : Fld} (h1 : g.separate Reg.FEN_IMG_STATUS_BUSY = true)
    (h2 : g.separate Reg.SEC_SESS_PRIV_BUSY = true) (a b : Nat) : (s.loadAnswer session seq result).rd g a b = s.rd g a b := by
  have hsync : s.syncLoad.syncPriv.rd g a b = s.rd g a b :=
    (State.rd_wr_separate _ _ _ _ _ h2 _ _).trans (State.rd_wr_separate _ _ _ _ _ h1 _ _)
  unfold State.loadAnswer
  dsimp only
  split
  · exact hsync
  · exact hsync

theorem State.onlyChanges_loadEnded (s : State) (session seq result sect off : Nat) :
    s.onlyChanges (s.loadEnded session seq result sect off) [.regs, .out] :=
  State.onlyChanges_trans (State.onlyChanges_mono (s.onlyChanges_loadEnd _ _ _) (by decide)) (State.onlyChanges_loadAnswer _ _ _ _)

theorem State.rd_loadEnded_separate (s : State) (session seq result sect off : Nat) {g : Fld}
    (h : ∀ f ∈ loadFlds, g.separate f = true) (a b : Nat) : (s.loadEnded session seq result sect off).rd g a b = s.rd g a b :=
  (State.rd_loadAnswer _ _ _ _ (h _ (by decide)) (h _ (by decide)) _ _).trans (s.rd_loadEnd _ _ _ h _ _)

/-- What the end of a load attempt shows. -/
theorem State.loadEnded_shows (s : State) (session seq result sect off : Nat) :
    (s.loadEnded session seq result sect off).rd Reg.FEN_IMG_STATUS_RESULT = result % 2 ^ Reg.FEN_IMG_STATUS_RESULT.width ∧
    (s.loadEnded session seq result sect off).rd Reg.FEN_IMG_STATUS_SECTION = sect % 2 ^ Reg.FEN_IMG_STATUS_SECTION.width ∧
    (s.loadEnded session seq result sect off).rd Reg.FEN_IMG_OFFSET_OFFSET = off % 2 ^ Reg.FEN_IMG_OFFSET_OFFSET.width ∧
    (s.loadEnded session seq result sect off).rd Reg.FEN_IMG_STATUS_DONE = 1 := by
  refine ⟨?_, ?_, ?_, ?_⟩
  all_goals rw [State.loadEnded, State.rd_loadAnswer _ _ _ _ (by decide) (by decide), State.loadEnd]
  all_goals simp (disch := decide) only [State.rd_wr_separate, State.rd_wr_self]
  rfl

/-! Pieces of a load. -/

/-- The state in which the custodian's session delivers an image alone. -/
structure State.mayLoad (s : State) (id : Nat) : Prop where
  grants : s.grants id .custodian = true
  claimed : s.custState = custCLAIMED
  notBusy : s.privBusy = false
  notScrubbing : s.sec.scrub = none
  own : ∀ l, s.img.receiving = some l → l.session = id

/-- A piece of the load that is the session's own is taken. -/
theorem State.mayLoad.imageLoad_eq {s : State} {id : Nat} (h : s.mayLoad id) (seq off total : Nat) (data : Bytes) :
    imageLoad id seq off total data s = (s.takePiece id seq off total data).syncPriv := by
  unfold imageLoad
  rw [h.notScrubbing, if_neg (by simp)]
  dsimp only
  rw [h.notBusy]
  cases hr : s.img.receiving with
  | none => exact State.privileged_granted h.grants (by decide) (by simpa using h.claimed) rfl _ _ _ _
  | some l =>
    have hown : (l.session != id) = false := by simp [h.own l hr]
    simp only [hown, Bool.or_self, Bool.false_and, Bool.false_eq_true, if_false]
    exact State.privileged_granted h.grants (by decide) (by simpa using h.claimed) rfl _ _ _ _

/-- A load with a piece more. -/
theorem State.takePiece_continues {s : State} {id total : Nat} {got data : Bytes} {seq off : Nat}
    (hr : s.img.receiving = some { session := id, total := total, got := got }) (hoff : got.length = off) (h0 : 0 < off)
    (hd : 0 < data.length) (hmax : data.length ≤ pieceMax) (hlt : off + data.length < total) :
    s.takePiece id seq off total data = (((s.upImg fun b =>
      { b with receiving := some { session := id, total := total, got := got ++ data, seq := seq } }).syncLoad).privAnswer cdIMAGE_LOAD seq
        resOK) := by
  have hne : off ≠ 0 := Nat.ne_of_gt h0
  have hbad : (decide (data.length = 0) || decide (pieceMax < data.length) || got.length != off || total != total ||
      decide (total < off + data.length)) = false := by
    simp [Nat.ne_of_gt hd, Nat.not_lt.mpr hmax, hoff, Nat.le_of_lt hlt]
  unfold State.takePiece
  rw [hr]
  simp only [hne, decide_false, bne_self_eq_false, Bool.or_self, Bool.false_eq_true, if_false, Nat.ne_of_lt hlt]
  rw [bne_self_eq_false] at hbad
  rw [hbad]
  rfl

/-- A load of one piece is complete: it goes to validation. -/
theorem State.takePiece_whole {s : State} {id seq : Nat} {data : Bytes} (hr : s.img.receiving = none) (hd : 0 < data.length)
    (hmax : data.length ≤ pieceMax) : s.takePiece id seq 0 data.length data = (s.upImg fun b =>
      { b with receiving := none, validating := some { session := id, total := data.length, got := data, seq := seq } }).syncLoad := by
  have hbad : (decide (data.length = 0) || decide (pieceMax < data.length) || ([] : Bytes).length != 0 || data.length != data.length ||
      decide (data.length < 0 + data.length)) = false := by
    simp [Nat.ne_of_gt hd, Nat.not_lt.mpr hmax]
  unfold State.takePiece
  rw [hr]
  dsimp only
  rw [hbad, if_neg (by simp), if_pos (Nat.zero_add _)]
  rfl

/-- Whether SPDM is served depends on none of the fields that a load shows. -/
theorem State.spdmLevel_loadEnd (s : State) (result sect off : Nat) : (s.loadEnd result sect off).spdmLevel = s.spdmLevel := by
  simp (disch := decide) only [State.spdmLevel, State.managed, State.roleRuns, State.rolePair, State.on, State.phase, State.life,
    State.custState, State.rd_loadEnd]
  rfl

/-- A piece while the load of another session is in progress is BUSY. -/
theorem imageLoad_busy {s : State} {id : Nat} (hg : s.grants id .custodian = true) (hs : s.sec.scrub = none) {l : ImageLoad}
    (hr : s.img.receiving = some l) (hne : l.session ≠ id) (seq off total : Nat) (data : Bytes) :
    imageLoad id seq off total data s = (s.loadEnd imgBusy 0 0).privAnswer cdIMAGE_LOAD seq resBUSY (leBytes 1 imgBusy) := by
  have hg' : (s.loadEnd imgBusy 0 0).grants id .custodian = true := by
    rw [State.grants, State.spdmLevel_loadEnd]
    exact hg
  obtain ⟨hl, -⟩ := State.grants_iff.mp hg
  have hp : (s.phase != phRECOVERY) = true := by simpa using State.phase_ne_recovery_of_level hl
  have hbusy : (s.privBusy || l.session != id) = true := by simp [hne]
  unfold imageLoad
  rw [hs, if_neg (by simp), hr]
  dsimp only
  rw [hbusy, State.sessionRole_of_grants hg, hl, hp]
  exact State.privileged_busy hg' (by decide) rfl _ _ _ _ _

/-! Validation. -/

/-- A load out of validation, with the kind of its image shown. -/
def State.validated (s : State) (l : ImageLoad) : State :=
  let fenImg := decide (28 ≤ l.got.length) && (decodeImage l.got).kind != 1
  ((s.upImg fun b => { b with validating := none }).wrb Reg.FEN_IMG_STATUS_FENIMG fenImg).wr Reg.FEN_IMG_STATUS_FEN
    (if fenImg then (decodeImage l.got).fen else 0)

theorem State.onlyChanges_validated (s : State) (l : ImageLoad) : s.onlyChanges (s.validated l) [.regs, .img] := by
  simp [State.onlyChanges_iff, State.validated, State.wrb, State.upImg]

theorem imageValidationDone_fails {s : State} {l : ImageLoad} {e : ImgErr} (h : s.img.validating = some l)
    (hv : imgValidate Config.ecdsaVerify s.imgCtx l.got = some e) :
    imageValidationDone s = (s.validated l).loadEnded l.session l.seq e.status e.sect e.offset := by
  unfold imageValidationDone
  rw [h]
  dsimp only
  rw [hv]
  rfl

/-- A full image staged. -/
def State.imageStaged (s : State) (m : Image) : State :=
  ((s.upImg fun b => { b with staged := some m }).wr Reg.FEN_IMG_STATUS_STAGED 1).wr Reg.FEN_IMG_STAGED_SERIAL m.serial

theorem imageValidationDone_full {s : State} {l : ImageLoad} (h : s.img.validating = some l)
    (hv : imgValidate Config.ecdsaVerify s.imgCtx l.got = none) (hk : (decodeImage l.got).kind = 1) :
    imageValidationDone s = ((s.validated l).imageStaged (decodeImage l.got)).loadEnded l.session l.seq imgOk 0 0 := by
  unfold imageValidationDone
  rw [h]
  dsimp only
  rw [hv]
  dsimp only
  rw [if_pos hk]
  rfl

theorem State.imageStaged_effect (s : State) (m : Image) : (s.imageStaged m).img = { s.img with staged := some m } ∧
    (s.imageStaged m).rd Reg.FEN_IMG_STATUS_STAGED = 1 ∧
    (s.imageStaged m).rd Reg.FEN_IMG_STAGED_SERIAL = m.serial % 2 ^ Reg.FEN_IMG_STAGED_SERIAL.width ∧
    s.onlyChanges (s.imageStaged m) [.regs, .img] := by
  refine ⟨rfl, ?_, State.rd_wr_self _ _ _ _ _ (by decide), by simp [State.onlyChanges_iff, State.imageStaged, State.upImg]⟩
  rw [State.imageStaged, State.rd_wr_separate _ _ _ _ _ (by decide), State.rd_wr_self _ _ _ _ _ (by decide)]
  rfl

/-! The application of a fen image. -/

/-- A step of the application that touches registers, the configuration and the shapers, and no record of a fen. -/
def State.configures (s t : State) : Prop := s.onlyChanges t [.regs, .cfg, .shp] ∧ t.cfg.fens = s.cfg.fens

theorem State.configures.refl (s : State) : s.configures s := ⟨s.onlyChanges_refl _, rfl⟩

theorem State.configures.trans {s t u : State} (h : s.configures t) (k : t.configures u) : s.configures u :=
  ⟨State.onlyChanges_trans h.1 k.1, k.2.trans h.2⟩

theorem State.configures.foldl {α : Type} {f : State → α → State} (h : ∀ (s : State) (a : α), s.configures (f s a)) (l : List α) (s : State) :
    s.configures (l.foldl f s) := by
  induction l generalizing s with
  | nil => exact State.configures.refl s
  | cons a l ih => exact (h s a).trans (ih _)

theorem State.configures_wr (s : State) (f : Fld) (v i j : Nat) : s.configures (s.wr f v i j) :=
  ⟨s.onlyChanges_wr f v i j (by decide), rfl⟩

theorem State.configures_upCfg (s : State) {f : Applied → Applied} (h : ∀ c, (f c).fens = c.fens) : s.configures (s.upCfg f) :=
  ⟨by simp [State.onlyChanges_iff, State.upCfg], h _⟩

theorem State.configures_setClients (s : State) (f : Nat) (rs : List PoliceRec) : s.configures (s.setClients f rs) :=
  ⟨by simp [State.onlyChanges_iff, State.setClients, State.upCfg, State.upShp], rfl⟩

theorem State.configures_setShapers (s : State) (ports : Nat) (rs : List ShapeRec) : s.configures (s.setShapers ports rs) :=
  ⟨by simp [State.onlyChanges_iff, State.setShapers, State.upCfg, State.upShp], rfl⟩

theorem State.configures_loadGate (s : State) (p : Nat) (l : GateList) : s.configures (s.loadGate p l) :=
  ⟨by simp [State.onlyChanges_iff, State.loadGate, State.wr64, State.setOtherList, State.upSp, State.upShp], rfl⟩

theorem State.configures_syncFen (s : State) (f : Nat) : s.configures (s.syncFen f) := by
  unfold State.syncFen
  dsimp only
  refine State.configures.trans (State.configures.foldl (f := fun (t : State) i =>
    t.wr Reg.FEN_CLUS_MASK ((Tab.getD s.cfg.fens f {}).clusters / 2 ^ (32 * i)) f i) (fun t i => t.configures_wr _ _ f i) (List.range 4) s) ?_
  exact ⟨by simp [State.onlyChanges_iff, State.wr64], rfl⟩

/-- The fen record that the image brings. -/
def State.fenBrought (s : State) (m : Image) : FenRec :=
  m.fens.headD { Tab.getD s.cfg.fens m.fen { fen := m.fen } with fen := m.fen }

/-- The fen record after the application: a fen that goes keeps its ports. -/
def State.fenAfter (s : State) (m : Image) : FenRec :=
  if (s.fenBrought m).valid then s.fenBrought m else { fen := m.fen, ports := (Tab.getD s.cfg.fens m.fen { fen := m.fen }).ports }

/-- The first line of the application: the fen's record. -/
def State.fenRecorded (s : State) (m : Image) : State :=
  s.upCfg fun c => { c with fens := Tab.put c.fens m.fen (s.fenAfter m) }

/-- The lines after the fen's record: clients, shapers, gate lists, trees and limits. -/
def State.fenClientsApplied (s : State) (m : Image) (gone : Bool) : State :=
  if gone then s.setClients m.fen []
  else if m.sections.contains 5 then s.setClients m.fen (m.police.filter (·.valid)) else s

def State.fenShapersApplied (s : State) (m : Image) (ports : Nat) : State :=
  if m.sections.contains 6 then s.setShapers ports (m.shapes.filter (·.valid)) else s

def State.fenGatesApplied (s : State) (m : Image) : State :=
  if !m.sections.contains 7 then s
  else (List.range 32).foldl (fun s p => match gateListIn m p with | some l => s.loadGate p l | none => s) s

def State.fenTreesApplied (s : State) (m : Image) : State :=
  if !m.sections.contains 4 then s
  else s.upCfg fun c => { c with trees := (m.trees.filter (·.valid)).foldl (fun t x => Tab.put t x.tree x) c.trees }

def State.fenLimitsApplied (s : State) (m : Image) (gone : Bool) : State :=
  if gone then s.upCfg fun c => { c with limits := Tab.del c.limits m.fen }
  else match (if m.sections.contains 8 then m.limits.find? (fun l => l.valid && l.fen == m.fen) else none) with
    | some l => s.upCfg fun c => { c with limits := Tab.put c.limits m.fen l }
    | none => s

/-- All of the application but the fen's state. -/
def State.fenConfigured (s : State) (m : Image) : State :=
  (((((((s.fenRecorded m).fenClientsApplied m (!(s.fenBrought m).valid)).fenShapersApplied m
    (Tab.getD s.cfg.fens m.fen { fen := m.fen }).ports).fenGatesApplied m).fenTreesApplied m).fenLimitsApplied m
      (!(s.fenBrought m).valid)).syncFen m.fen)

theorem State.applyFen_eq {s : State} {m : Image} (h : m.sections.contains 2 = true) : s.applyFen m =
    (s.fenConfigured m).wr Reg.FEN_STATE_STATE (if !(s.fenBrought m).valid then fenUNUSED
      else if (Tab.getD (s.fenConfigured m).cfg.fens m.fen {}).valid then fenQUIESCED else fenUNUSED) m.fen := by
  unfold State.applyFen
  dsimp only
  rw [h]
  rfl

theorem State.configures_fenClientsApplied (s : State) (m : Image) (gone : Bool) : s.configures (s.fenClientsApplied m gone) := by
  unfold State.fenClientsApplied
  split
  · exact State.configures_setClients _ _ _
  · split
    · exact State.configures_setClients _ _ _
    · exact State.configures.refl _

theorem State.configures_fenShapersApplied (s : State) (m : Image) (ports : Nat) : s.configures (s.fenShapersApplied m ports) := by
  unfold State.fenShapersApplied
  split
  · exact State.configures_setShapers _ _ _
  · exact State.configures.refl _

theorem State.configures_fenGatesApplied (s : State) (m : Image) : s.configures (s.fenGatesApplied m) := by
  unfold State.fenGatesApplied
  split
  · exact State.configures.refl _
  · refine State.configures.foldl (fun t p => ?_) _ _
    split
    · exact State.configures_loadGate _ _ _
    · exact State.configures.refl _

theorem State.configures_fenTreesApplied (s : State) (m : Image) : s.configures (s.fenTreesApplied m) := by
  unfold State.fenTreesApplied
  split
  · exact State.configures.refl _
  · exact State.configures_upCfg _ fun _ => rfl

theorem State.configures_fenLimitsApplied (s : State) (m : Image) (gone : Bool) : s.configures (s.fenLimitsApplied m gone) := by
  unfold State.fenLimitsApplied
  split
  · exact State.configures_upCfg _ fun _ => rfl
  · split
    · exact State.configures_upCfg _ fun _ => rfl
    · exact State.configures.refl _

/-- Behind the fen's record the application configures. -/
theorem State.configures_fenConfigured (s : State) (m : Image) : (s.fenRecorded m).configures (s.fenConfigured m) :=
  (((((State.configures_fenClientsApplied _ m _).trans (State.configures_fenShapersApplied _ m _)).trans
    (State.configures_fenGatesApplied _ m)).trans (State.configures_fenTreesApplied _ m)).trans
    (State.configures_fenLimitsApplied _ m _)).trans (State.configures_syncFen _ m.fen)

/-- The application of a fen image that carries its FENS section. -/
theorem State.applyFen_effect {s : State} {m : Image} (h : m.sections.contains 2 = true) :
    (s.applyFen m).fenState m.fen = (if (s.fenBrought m).valid then fenQUIESCED else fenUNUSED) ∧
    (∀ g, g ≠ m.fen → Tab.find? (s.applyFen m).cfg.fens g = Tab.find? s.cfg.fens g) ∧
    s.onlyChanges (s.applyFen m) [.regs, .cfg, .shp] := by
  obtain ⟨hparts, hfens⟩ := s.configures_fenConfigured m
  have hrec : s.onlyChanges (s.fenRecorded m) [.regs, .cfg, .shp] := by simp [State.onlyChanges_iff, State.fenRecorded, State.upCfg]
  rw [State.applyFen_eq h]
  refine ⟨?_, fun g hg => ?_, (State.onlyChanges_trans hrec hparts).andThen (State.onlyChanges_wr _ _ _ _ _ (ps := [.regs]) (by decide))⟩
  · rw [State.fenState, State.rd_wr_self _ _ _ _ _ (by decide), hfens]
    cases hv : (s.fenBrought m).valid with
    | false => rfl
    | true => simp [State.fenRecorded, State.fenAfter, State.upCfg, Tab.getD, hv, fenQUIESCED, Reg.FEN_STATE_STATE]
  · show Tab.find? (s.fenConfigured m).cfg.fens g = _
    rw [hfens]
    exact Tab.find?_put_ne _ _ hg

/-- The state after a fen image's tables, with its serial and the extended chain. -/
def State.fenChained (s : State) (m : Image) : State :=
  (((s.applyFen m).wr Reg.FEN_SERIAL_SERIAL m.serial m.fen).upSec fun c =>
    { c with fenChain := Config.sha384 (((s.applyFen m).wr Reg.FEN_SERIAL_SERIAL m.serial m.fen).measurement 9 ++
      Config.sha384 m.raw) }).bump Reg.SEC_MEAS_FEN_EXTENDS

/-- The state with the application over and no RESUME waiting. -/
def State.applyOver (s : State) (f : Nat) : State :=
  (s.wr Reg.FEN_STATE_APPLYING 0 f).upImg fun b => { b with applying := none, resumeAfterApply := [] }

theorem State.onlyChanges_fenChained {s : State} {m : Image} (h : m.sections.contains 2 = true) :
    s.onlyChanges (s.fenChained m) [.regs, .cfg, .shp, .sec] := by
  refine State.onlyChanges_trans (State.onlyChanges_mono (State.applyFen_effect h).2.2 (by decide)) ?_
  simp [State.onlyChanges_iff, State.fenChained, State.upSec]

theorem State.fenImageApply_eq {s : State} {m : Image} (hlate : s.gateLate m = none) (h : m.sections.contains 2 = true)
    (hres : s.img.resumeAfterApply = []) : s.fenImageApply m =
      ((s.fenChained m).applyOver m.fen).loadEnded s.img.loadSession s.img.loadSeq imgOk 0 0 := by
  have himg : (s.fenChained m).img = s.img := State.onlyChanges_fenChained h .img (by decide)
  unfold State.fenImageApply
  rw [hlate]
  show (s.fenChained m).applyEnd m.fen imgOk 0 0 = _
  unfold State.applyEnd
  dsimp only
  rw [himg, hres]
  rfl

theorem fenImageApply_effect {s : State} {m : Image} (happ : s.img.applying = some m)
    (hreset : s.fenResetting m.fen = false) (hwarm : s.car.warmQueued = none) (hlate : s.gateLate m = none)
    (hres : s.img.resumeAfterApply = []) (h : m.sections.contains 2 = true) :
    ∃ t, exec .fenImageApply s = .next t ∧ t.img.applying = none ∧ t.rd Reg.FEN_STATE_APPLYING m.fen = 0 ∧
      t.rd Reg.FEN_SERIAL_SERIAL m.fen = m.serial % 2 ^ Reg.FEN_SERIAL_SERIAL.width ∧
      t.fenState m.fen = (if (s.fenBrought m).valid then fenQUIESCED else fenUNUSED) ∧
      (∀ g, g ≠ m.fen → Tab.find? t.cfg.fens g = Tab.find? s.cfg.fens g) ∧
      t.sec.fenChain = Config.sha384 (s.measurement 9 ++ Config.sha384 m.raw) ∧ t.near = s.near ∧ t.tray = s.tray := by
  obtain ⟨hstate, hfens, hparts⟩ := State.applyFen_effect (s := s) h
  have hchain := State.onlyChanges_fenChained (s := s) h
  have hover : (s.fenChained m).onlyChanges ((s.fenChained m).applyOver m.fen) [.regs, .img] := by
    simp [State.onlyChanges_iff, State.applyOver, State.upImg]
  have hend := ((s.fenChained m).applyOver m.fen).onlyChanges_loadEnded s.img.loadSession s.img.loadSeq imgOk 0 0
  have hframe : s.onlyChanges _ [.regs, .cfg, .shp, .sec, .img, .out] := State.onlyChanges_trans
    (State.onlyChanges_mono hchain (by decide)) ((State.onlyChanges_mono hover (by decide)).andThen hend)
  have hrun : fenImageApplyRow s = ((s.fenChained m).applyOver m.fen).loadEnded s.img.loadSession s.img.loadSeq imgOk 0 0 := by
    unfold fenImageApplyRow
    rw [happ]
    dsimp only
    rw [hreset, State.fenImageApply_eq hlate h hres, hframe .car (by decide), hwarm]
    rfl
  refine ⟨_, congrArg Host.Outcome.next hrun, ?_, ?_, ?_, ?_, fun g hg => ?_, ?_, hframe .near (by decide), hframe .tray (by decide)⟩
  · rw [hend .img (by decide)]
    rfl
  · rw [State.rd_loadEnded_separate _ _ _ _ _ _ (by decide), State.applyOver, State.rd_upImg, State.rd_wr_self _ _ _ _ _ (by decide)]
    rfl
  · rw [State.rd_loadEnded_separate _ _ _ _ _ _ (by decide), State.applyOver, State.rd_upImg, State.rd_wr_separate _ _ _ _ _ (by decide),
      State.fenChained, State.rd_bump_separate _ _ _ _ _ (by decide), State.rd_upSec, State.rd_wr_self _ _ _ _ _ (by decide)]
  · rw [State.fenState, State.rd_loadEnded_separate _ _ _ _ _ _ (by decide), State.applyOver, State.rd_upImg,
      State.rd_wr_separate _ _ _ _ _ (by decide), State.fenChained, State.rd_bump_separate _ _ _ _ _ (by decide), State.rd_upSec,
      State.rd_wr_separate _ _ _ _ _ (by decide)]
    exact hstate
  · rw [hend .cfg (by decide), hover .cfg (by decide)]
    exact hfens g hg
  · rw [hend .sec (by decide), hover .sec (by decide)]
    show Config.sha384 ((if (s.applyFen m).sec.fenChain.isEmpty then noDigest else (s.applyFen m).sec.fenChain) ++ _) = _
    rw [hparts .sec (by decide)]
    rfl

/-! Usage. -/

theorem usage_now {s : State} {id : Nat} {r : Role} (hr : r = .custodian ∨ r = .operator) (hg : s.grants id r = true)
    (hc : s.custState ≠ custFAILED) (seq : Nat) :
    usage id seq false s = (s.usageReport false).2.answeredOK cdUSAGE seq (s.usageReport false).1 := by
  have hroles : [Role.custodian, Role.operator].contains r = true := by rcases hr with rfl | rfl <;> decide
  rw [usage, State.privileged_granted hg hroles (by simpa using hc) rfl]
  rfl

theorem usage_closing {s : State} {id : Nat} {r : Role} (hr : r = .custodian ∨ r = .operator) (hg : s.grants id r = true)
    (hc : s.custState ≠ custFAILED) {c : Bytes} (hclosing : s.img.closing = some c) (seq : Nat) :
    usage id seq true s = s.answeredOK cdUSAGE seq c := by
  have hroles : [Role.custodian, Role.operator].contains r = true := by rcases hr with rfl | rfl <;> decide
  rw [usage, State.privileged_granted hg hroles (by simpa using hc) rfl, hclosing]
  rfl

/-- Settles O55: pieces, validation, application and usage. -/
theorem imagesLoadValidateAndApply : Obligations.ImagesLoadValidateAndApply := by
  intro s id seq
  refine ⟨fun off total data got hg hc hb hs hr hoff h0 hd hmax hlt => ?_, fun data hg hc hb hs hr hd hmax => ?_,
    fun off total data l hg hc hs hr hne => ?_, fun l e h hv => ?_, fun l h hv hk => ?_,
    fun m happ hfen hreset hwarm hlate hres h => fenImageApply_effect happ hreset hwarm hlate hres h,
    fun r hr hg hc => ⟨?_, fun c hclosing => ?_⟩⟩
  · have hmay : s.mayLoad id := ⟨hg, hc, hb, hs, fun l hl => by rw [hr] at hl; cases hl; rfl⟩
    refine ⟨_, congrArg Host.Outcome.next ((hmay.imageLoad_eq seq off total data).trans
      (congrArg State.syncPriv (State.takePiece_continues hr hoff h0 hd hmax hlt))), rfl, rfl, ?_⟩
    simp [State.onlyChanges_iff, State.privAnswer_ok, State.emit, State.syncPriv, State.syncLoad, State.wrb, State.upImg]
  · have hmay : s.mayLoad id := ⟨hg, hc, hb, hs, fun l hl => by rw [hr] at hl; cases hl⟩
    refine ⟨_, congrArg Host.Outcome.next ((hmay.imageLoad_eq seq 0 data.length data).trans
      (congrArg State.syncPriv (State.takePiece_whole hr hd hmax))), ?_, rfl, ?_⟩
    · rw [State.rd_syncPriv_separate _ (by decide), State.syncLoad, State.wrb, State.rd_wr_self _ _ _ _ _ (by decide)]
      simp [State.upImg, b2n, Reg.FEN_IMG_STATUS_BUSY]
    · simp [State.onlyChanges_iff, State.syncPriv, State.syncLoad, State.wrb, State.upImg]
  · refine ⟨_, congrArg Host.Outcome.next (imageLoad_busy hg hs hr hne seq off total data), ?_, State.rd_wr_self _ _ _ _ _ (by decide), ?_⟩
    · show (s.loadEnd imgBusy 0 0).rd Reg.FEN_IMG_STATUS_RESULT = imgBusy
      rw [State.loadEnd]
      simp (disch := decide) only [State.rd_wr_separate, State.rd_wr_self]
      rfl
    · exact State.onlyChanges_trans (State.onlyChanges_mono (s.onlyChanges_loadEnd _ _ _) (by decide))
        (State.onlyChanges_emit _ _ (ps := [.regs, .out]) (by decide))
  · obtain ⟨hres, hsect, hoff, hdone⟩ := (s.validated l).loadEnded_shows l.session l.seq e.status e.sect e.offset
    have hend := (s.validated l).onlyChanges_loadEnded l.session l.seq e.status e.sect e.offset
    exact ⟨_, congrArg Host.Outcome.next (imageValidationDone_fails h hv), hend .img (by decide), hres, hsect, hoff, hdone,
      State.onlyChanges_trans (State.onlyChanges_mono (s.onlyChanges_validated l) (by decide)) (State.onlyChanges_mono hend (by decide))⟩
  · obtain ⟨himg, hstaged, hserial, hparts⟩ := (s.validated l).imageStaged_effect (decodeImage l.got)
    obtain ⟨hres, -, -, -⟩ := ((s.validated l).imageStaged (decodeImage l.got)).loadEnded_shows l.session l.seq imgOk 0 0
    have hend := ((s.validated l).imageStaged (decodeImage l.got)).onlyChanges_loadEnded l.session l.seq imgOk 0 0
    refine ⟨_, congrArg Host.Outcome.next (imageValidationDone_full h hv hk), (hend .img (by decide)).trans himg,
      (State.rd_loadEnded_separate _ _ _ _ _ _ (by decide) _ _).trans hstaged,
      (State.rd_loadEnded_separate _ _ _ _ _ _ (by decide) _ _).trans hserial, hres, ?_⟩
    exact State.onlyChanges_trans (State.onlyChanges_mono ((s.onlyChanges_validated l).andThen hparts) (by decide))
      (State.onlyChanges_mono hend (by decide))
  · refine ⟨_, congrArg Host.Outcome.next (usage_now hr hg hc seq), rfl, rfl, ?_⟩
    refine State.onlyChanges_trans (t := (s.usageReport false).2) ?_ (State.onlyChanges_mono (State.onlyChanges_answeredOK _ _ _ _) (by decide))
    rw [State.usageReport_snd]
    simp [State.onlyChanges_iff, State.counted, State.upSec, State.upImg]
  · exact ⟨_, congrArg Host.Outcome.next (usage_closing hr hg hc hclosing seq), rfl, s.onlyChanges_answeredOK _ _ _⟩

end Sys2Proof.Machine
end

section
/-!
PROOF. The lockstep pairs (R465–R467, R475, R487).  A pair goes down by the loss of the management role, if it has it, and the change of its
state; what the pairs hold besides is as it was.
-/
namespace Sys2Proof.Machine

/-! The loss of the management role. -/

/-- Both pairs hold what they held. -/
def State.samePairs (s t : State) : Prop := ∀ p, t.carPair p = s.carPair p

theorem State.samePairs.refl (s : State) : s.samePairs s := fun _ => rfl

theorem State.samePairs.trans {s t u : State} (h : s.samePairs t) (k : t.samePairs u) : s.samePairs u := fun p => (k p).trans (h p)

/-- A frame without Carillon's part keeps the pairs. -/
theorem State.samePairs.of_frame {s t : State} {ps : List Part} (h : s.onlyChanges t ps) (hc : Part.car ∉ ps) : s.samePairs t := by
  intro p
  rw [State.carPair, State.carPair, h .car hc]

theorem State.samePairs_upFw (s : State) (g : FwState → FwState) : s.samePairs (s.upFw g) := fun _ => rfl

theorem State.samePairs_dropUpdateOf (s : State) (id : Nat) : s.samePairs (s.dropUpdateOf id) := by
  unfold State.dropUpdateOf
  split
  · split
    · exact State.samePairs_upFw _ _
    · exact (State.samePairs.of_frame (s.onlyChanges_wr Reg.CAR_STAT_UPD updIDLE 0 0 (ps := [.regs]) (by decide)) (by decide)).trans
        (State.samePairs_upFw _ _)
  · exact State.samePairs.refl _

theorem State.samePairs_endSession (s : State) (id : Nat) : s.samePairs (s.endSession id) := by
  have hlist := State.samePairs.of_frame (s.onlyChanges_withSessions (Tab.del s.sec.sessions id)) (by decide)
  have hload := State.samePairs.of_frame ((s.withSessions (Tab.del s.sec.sessions id)).dropLoadOf_effect id).2.1 (by decide)
  rw [State.endSession_eq]
  exact (hlist.trans hload).trans (State.samePairs_dropUpdateOf _ _)

theorem State.samePairs_foldl_endSession (ids : List Nat) (s : State) : s.samePairs (ids.foldl State.endSession s) := by
  induction ids generalizing s with
  | nil => exact State.samePairs.refl s
  | cons i ids ih => exact (s.samePairs_endSession i).trans (ih _)

theorem State.regsKept_foldl_endSession (ids : List Nat) (s : State) : s.regsKeptBut (ids.foldl State.endSession s) endSessionKeys := by
  induction ids generalizing s with
  | nil => exact s.regsKept_refl _
  | cons i ids ih => exact State.regsKept_trans (s.endSession_effect i).2.2 (ih _)

/-- Every session that is listed is gone once each has ended. -/
theorem State.sessions_foldl_endSession (ids : List Nat) (s : State) :
    (ids.foldl State.endSession s).sec.sessions = s.sec.sessions.filter fun p => !ids.contains p.1 := by
  induction ids generalizing s with
  | nil => exact (List.filter_eq_self.mpr fun _ _ => rfl).symm
  | cons i ids ih =>
    rw [List.foldl_cons, ih, (s.endSession_effect i).1]
    show (s.sec.sessions.filter fun p => p.1 != i).filter _ = _
    rw [List.filter_filter]
    refine List.filter_congr fun p _ => ?_
    simp only [List.contains_cons, Bool.not_or, Bool.and_comm, bne]

/-- The fields that the loss of the management role may write. -/
def managementKeys : List Nat :=
  [Reg.FEN_IMG_STATUS_RESULT.key 0 0, Reg.FEN_IMG_STATUS_SECTION.key 0 0, Reg.FEN_IMG_OFFSET_OFFSET.key 0 0,
   Reg.FEN_IMG_STATUS_DONE.key 0 0, Reg.SEC_SESS_PRIV_BUSY.key 0 0] ++ endSessionKeys

theorem State.regsKept_loadEnd (s : State) (result sect off : Nat) : s.regsKeptBut (s.loadEnd result sect off) managementKeys :=
  State.regsKept_trans (State.regsKept_trans (State.regsKept_trans
    (s.regsKept_wr Reg.FEN_IMG_STATUS_RESULT _ 0 0 (by decide))
    (State.regsKept_wr _ Reg.FEN_IMG_STATUS_SECTION _ 0 0 (by decide)))
    (State.regsKept_wr _ Reg.FEN_IMG_OFFSET_OFFSET _ 0 0 (by decide)))
    (State.regsKept_wr _ Reg.FEN_IMG_STATUS_DONE _ 0 0 (by decide))

/-- The image in validation is dropped. -/
def State.validationLost (s : State) : State :=
  match s.img.validating with
  | some _ => ((s.upImg fun i => { i with validating := none }).loadEnd imgBusy 0 0).syncLoad
  | none => s

theorem State.validationLost_effect (s : State) : (s.validationLost).sec = s.sec ∧ s.onlyChanges s.validationLost [.regs, .img] ∧
    s.regsKeptBut s.validationLost managementKeys := by
  unfold State.validationLost
  split
  · refine ⟨rfl, by simp [State.onlyChanges_iff, State.loadEnd, State.syncLoad, State.wrb, State.upImg], ?_⟩
    have hload := (s.upImg fun i => { i with validating := none }).regsKept_loadEnd imgBusy 0 0
    exact State.regsKept_trans hload (State.regsKept_wr _ Reg.FEN_IMG_STATUS_BUSY _ 0 0 (by decide))
  · exact ⟨rfl, s.onlyChanges_refl _, s.regsKept_refl _⟩

theorem State.managementLost_eq (s : State) : s.managementLost =
    ((((s.validationLost).sec.sessions.map (·.1)).foldl State.endSession s.validationLost).upCar fun c => { c with requests := [] }).syncPriv :=
  rfl

/-- With the management role every session ends; the pairs hold what they held. -/
theorem State.managementLost_effect (s : State) : s.managementLost.sec.sessions = [] ∧ s.samePairs s.managementLost ∧
    s.onlyChanges s.managementLost [.regs, .sec, .img, .car] ∧ s.regsKeptBut s.managementLost managementKeys := by
  obtain ⟨-, hparts, hregs⟩ := s.validationLost_effect
  rw [State.managementLost_eq]
  refine ⟨?_, ?_, ?_, ?_⟩
  · show (List.foldl State.endSession s.validationLost _).sec.sessions = []
    rw [State.sessions_foldl_endSession, List.filter_eq_nil_iff]
    intro p hp
    have : p.1 ∈ s.validationLost.sec.sessions.map (·.1) := List.mem_map.mpr ⟨p, hp, rfl⟩
    simp only [List.contains_eq_mem, this, decide_true, Bool.not_true, Bool.false_eq_true, not_false_eq_true]
  · refine (State.samePairs.of_frame hparts (by decide)).trans
      ((State.samePairs_foldl_endSession (s.validationLost.sec.sessions.map (·.1)) s.validationLost).trans ?_)
    exact fun _ => rfl
  · refine ((State.onlyChanges_mono hparts (by decide)).andThen
      (State.onlyChanges_foldl_endSession (s.validationLost.sec.sessions.map (·.1)) _)).andThen (qs := [.car, .regs]) ?_
    simp [State.onlyChanges_iff, State.syncPriv, State.wrb, State.upCar]
  · refine State.regsKept_trans (State.regsKept_trans hregs (State.regsKept_mono
      (State.regsKept_foldl_endSession (s.validationLost.sec.sessions.map (·.1)) _) (by decide))) ?_
    exact State.regsKept_wr (State.upCar _ _) Reg.SEC_SESS_PRIV_BUSY _ 0 0 (by decide)

/-! A pair goes down. -/

/-- The fields that show the pairs' states. -/
def pairKeys : List Nat := [Reg.CAR_STAT_CP0.key 0 0, Reg.CAR_STAT_CP1.key 0 0]

theorem State.cp_setCp_self (s : State) {p v : Nat} (hv : v < 4) : (s.setCp p v).cp p = v := by
  unfold State.cp State.setCp
  split
  · rw [State.rd_wr_self _ _ _ _ _ (by decide)]
    exact Nat.mod_eq_of_lt hv
  · rw [State.rd_wr_self _ _ _ _ _ (by decide)]
    exact Nat.mod_eq_of_lt hv

theorem State.setCp_effect (s : State) (p v : Nat) : s.onlyChanges (s.setCp p v) [.regs] ∧ s.regsKeptBut (s.setCp p v) pairKeys := by
  unfold State.setCp
  split
  · exact ⟨s.onlyChanges_wr _ _ _ _ (by decide), s.regsKept_wr _ _ _ _ (by decide)⟩
  · exact ⟨s.onlyChanges_wr _ _ _ _ (by decide), s.regsKept_wr _ _ _ _ (by decide)⟩

/-- The loss of the role, where the pair has it. -/
def State.roleLost (s : State) (p : Nat) : State := if s.rolePair 0 = p then s.managementLost else s

theorem State.pairDown_eq (s : State) (p v : Nat) :
    s.pairDown p v = ((s.roleLost p).setCp p v).upFw fun w => { w with calmSince := (s.roleLost p).hclk } := rfl

/-- What a pair's going down leaves. -/
theorem State.pairDown_effect (s : State) {p v : Nat} (hv : v < 4) :
    (s.pairDown p v).cp p = v ∧ s.samePairs (s.pairDown p v) ∧ (s.rolePair 0 = p → (s.pairDown p v).sec.sessions = []) ∧
    (s.rolePair 0 ≠ p → s.onlyChanges (s.pairDown p v) [.regs, .car]) ∧
    s.onlyChanges (s.pairDown p v) [.regs, .sec, .img, .car] := by
  rw [State.pairDown_eq]
  obtain ⟨hset, -⟩ := (s.roleLost p).setCp_effect p v
  have hfw : ((s.roleLost p).setCp p v).onlyChanges (((s.roleLost p).setCp p v).upFw fun w =>
      { w with calmSince := (s.roleLost p).hclk }) [.car] := by
    simp [State.onlyChanges_iff, State.upFw]
  have htail := (State.onlyChanges_mono hset (qs := [.regs, .car]) (by decide)).andThen hfw
  have hpairs := (State.samePairs.of_frame hset (by decide)).trans (State.samePairs_upFw ((s.roleLost p).setCp p v) fun w =>
    { w with calmSince := (s.roleLost p).hclk })
  refine ⟨State.cp_setCp_self _ hv, ?_, fun h => ?_, fun h => ?_, ?_⟩
  · refine State.samePairs.trans ?_ hpairs
    unfold State.roleLost
    split
    · exact s.managementLost_effect.2.1
    · exact State.samePairs.refl s
  · rw [htail .sec (by decide), State.roleLost, if_pos h]
    exact s.managementLost_effect.1
  · have hrole : s.roleLost p = s := if_neg h
    rw [hrole] at htail ⊢
    exact htail
  · refine State.onlyChanges_trans ?_ (State.onlyChanges_mono htail (by decide))
    unfold State.roleLost
    split
    · exact s.managementLost_effect.2.2.1
    · exact s.onlyChanges_refl _

/-- A pair lost: MERGED where the other one is not, and the record. -/
theorem State.pairLost_effect (s : State) (p : Nat) :
    (s.pairLost p).cp p = cpLOST ∧ s.samePairs (s.pairLost p) ∧ (s.rolePair 0 = p → (s.pairLost p).sec.sessions = []) ∧
    (s.rolePair 0 ≠ p → s.onlyChanges (s.pairLost p) [.regs, .flt, .out, .host, .car]) ∧
    s.onlyChanges (s.pairLost p) [.regs, .flt, .out, .host, .car, .img, .sec] := by
  obtain ⟨hcp, hpairs, hsess, hother, hparts⟩ := s.pairDown_effect (p := p) (v := cpLOST) (by decide)
  unfold State.pairLost
  dsimp only
  generalize s.pairDown p cpLOST = t at hcp hpairs hsess hother hparts
  have hmerge : t.onlyChanges (if t.cp (1 - p) = cpLOST then t else t.wr Reg.CAR_STAT_MERGED 1) [.regs] ∧
      (if t.cp (1 - p) = cpLOST then t else t.wr Reg.CAR_STAT_MERGED 1).cp p = t.cp p := by
    split
    · exact ⟨t.onlyChanges_refl _, rfl⟩
    · refine ⟨t.onlyChanges_wr _ _ _ _ (by decide), ?_⟩
      unfold State.cp
      rw [State.rd_wr_separate _ _ _ _ _ (by decide), State.rd_wr_separate _ _ _ _ _ (by decide)]
  generalize (if t.cp (1 - p) = cpLOST then t else t.wr Reg.CAR_STAT_MERGED 1) = u at hmerge
  obtain ⟨hmparts, hmcp⟩ := hmerge
  obtain ⟨hev, hevregs⟩ := u.reportsOnly_carEvent evPAIR_LOST sevERROR [p] true
  have htail : t.onlyChanges _ recordParts := State.onlyChanges_trans (State.onlyChanges_mono hmparts (by decide)) hev
  refine ⟨?_, hpairs.trans (State.samePairs.of_frame htail (by decide)), fun h => ?_, fun h => ?_, ?_⟩
  · refine Eq.trans ?_ (hmcp.trans hcp)
    unfold State.cp
    rw [hevregs _ _ _ (by decide), hevregs _ _ _ (by decide)]
  · rw [htail .sec (by decide)]
    exact hsess h
  · exact (State.onlyChanges_mono (hother h) (by decide)).andThen htail
  · exact (State.onlyChanges_mono hparts (by decide)).andThen htail

/-! LOCKSTEP. -/

/-- The mismatch counted, charged and recorded. -/
def State.mismatchNoted (s : State) (p : Nat) : State :=
  ((s.bump Reg.CAR_CNT_LS p).charge clsUNIT 4 8 1 1 512).carEvent evLOCKSTEP sevWARN [p] true

/-- The fields that the note of a mismatch may write. -/
def mismatchKeys (p : Nat) : List Nat := Reg.CAR_CNT_LS.key p 0 :: scoreKeys

theorem State.mismatchNoted_effect (s : State) (p : Nat) : s.onlyChanges (s.mismatchNoted p) recordParts ∧
    s.regsKeptBut (s.mismatchNoted p) (mismatchKeys p) := by
  obtain ⟨hparts, hregs⟩ := State.chargesOnly_charge (s.bump Reg.CAR_CNT_LS p) clsUNIT 4 8 1 1 512
  obtain ⟨hev, hevregs⟩ := State.reportsOnly_carEvent ((s.bump Reg.CAR_CNT_LS p).charge clsUNIT 4 8 1 1 512) evLOCKSTEP sevWARN [p] true
  refine ⟨((s.onlyChanges_bump _ _ _ _ (by decide)).andThen hparts).andThen hev, ?_⟩
  exact State.regsKept_trans (State.regsKept_trans (s.regsKept_bump Reg.CAR_CNT_LS p 0 1 (List.mem_cons_self))
    (State.regsKept_mono hregs (List.subset_cons_self _ _)))
    (State.regsKept_mono hevregs (fun k hk => List.mem_cons_of_mem _ (List.mem_cons_of_mem _ hk)))

/-- Which pair has the management role depends on none of these. -/
theorem State.rolePair_mismatchNoted (s : State) {p : Nat} (hp : p < 2) (r : Nat) : (s.mismatchNoted p).rolePair r = s.rolePair r := by
  have hregs := (s.mismatchNoted_effect p).2
  unfold State.rolePair State.on
  obtain rfl | rfl : p = 0 ∨ p = 1 := by omega
  all_goals
    rw [hregs Reg.CAR_STAT_MERGED 0 0 (by decide), hregs Reg.CAR_STAT_CP0 0 0 (by decide), hregs Reg.CAR_STAT_CP1 0 0 (by decide)]

/-- A mismatch's time kept in the pair. -/
def State.mismatched (s : State) (p : Nat) : State := s.upPair p fun q => { q with mismatch := some s.hclk }

/-- Whether a pair's last mismatch is less than an hour ago. -/
def State.mismatchRecent (s : State) (p : Nat) : Bool := (s.carPair p).mismatch.any fun u => decide (s.hclk < u + hourHclk)

theorem State.mismatchRecent_mismatchNoted (s : State) (p : Nat) : (s.mismatchNoted p).mismatchRecent p = s.mismatchRecent p := by
  have hparts := (s.mismatchNoted_effect p).1
  rw [State.mismatchRecent, hparts .hclk (by decide), State.samePairs.of_frame hparts (by decide) p]
  rfl

theorem lockstep_running {s : State} {p : Nat} (hp : p < 2) (hcp : s.cp p = cpRUNNING) :
    lockstep p s = if (s.mismatchNoted p).mismatchRecent p then ((s.mismatchNoted p).mismatched p).pairLost p
      else ((s.mismatchNoted p).mismatched p).pairDown p cpBOOTING := by
  have hnot : (s.cp p != cpRUNNING) = false := by simp [hcp]
  unfold lockstep
  rw [Nat.mod_eq_of_lt hp]
  dsimp only
  rw [hnot]
  rfl

theorem State.mismatched_effect (s : State) {p : Nat} (hp : p < 2) :
    ((s.mismatchNoted p).mismatched p).rolePair 0 = s.rolePair 0 ∧
    (((s.mismatchNoted p).mismatched p).carPair p).mismatch = some s.hclk ∧
    s.onlyChanges ((s.mismatchNoted p).mismatched p) [.regs, .flt, .out, .host, .car] := by
  have hparts := (s.mismatchNoted_effect p).1
  refine ⟨s.rolePair_mismatchNoted hp 0, ?_, ?_⟩
  · rw [State.mismatched, State.carPair_upPair_self, hparts .hclk (by decide)]
  · exact (State.onlyChanges_mono hparts (by decide)).andThen (State.onlyChanges_upPair _ p _)

theorem lockstep_effect {s : State} {p : Nat} (hp : p < 2) (hcp : s.cp p = cpRUNNING) : ∃ t, exec (.lockstep p) s = .next t ∧
      t.cp p = (if (s.carPair p).mismatch.any (fun u => decide (s.hclk < u + hourHclk)) then cpLOST else cpBOOTING) ∧
      (t.carPair p).mismatch = some s.hclk ∧ (s.rolePair 0 = p → t.sec.sessions = []) ∧
      (s.rolePair 0 ≠ p → s.onlyChanges t [.regs, .flt, .out, .host, .car]) ∧
      s.onlyChanges t [.regs, .flt, .out, .host, .car, .img, .sec] := by
  obtain ⟨hrole, hmis, hparts⟩ := s.mismatched_effect hp
  refine ⟨_, congrArg Host.Outcome.next (lockstep_running hp hcp), ?_⟩
  show _ = (if s.mismatchRecent p = true then cpLOST else cpBOOTING) ∧ _
  rw [← hrole, State.mismatchRecent_mismatchNoted]
  generalize (s.mismatchNoted p).mismatched p = u at hmis hparts
  cases s.mismatchRecent p with
  | true =>
    obtain ⟨hcp', hpairs, hsess, hother, hall⟩ := u.pairLost_effect p
    simp only [if_true]
    exact ⟨hcp', (congrArg CarPair.mismatch (hpairs p)).trans hmis, hsess, fun h => hparts.andThen (hother h),
      (State.onlyChanges_mono hparts (by decide)).andThen hall⟩
  | false =>
    obtain ⟨hcp', hpairs, hsess, hother, hall⟩ := u.pairDown_effect (p := p) (v := cpBOOTING) (by decide)
    simp only [Bool.false_eq_true, if_false]
    exact ⟨hcp', (congrArg CarPair.mismatch (hpairs p)).trans hmis, hsess, fun h => hparts.andThen (hother h),
      (State.onlyChanges_mono hparts (by decide)).andThen hall⟩

/-! Restart and watchdog. -/

/-- A pair's state with the pair running again. -/
def State.pairStarted (s : State) (p : Nat) : State :=
  (s.setCp p cpRUNNING).upPair p fun q => { q with kicked := s.hclk, resetAt := s.hclk, haltedAt := none, crc := 0xFFFFFFFF }

/-- A pair up again. -/
def State.pairUp (s : State) (p : Nat) : State := (s.pairStarted p).upFw fun w => { w with calmSince := (s.pairStarted p).hclk }

theorem pairRestart_booting {s : State} {p : Nat} (hp : p < 2) (hcp : s.cp p = cpBOOTING) (hrun : s.car.fw.running.isSome) :
    pairRestart p s = if (s.pairUp p).rolePair 0 = p && !(s.pairUp p).car.requests.any (fun r => r.1 == 0) then
      (s.pairUp p).wr Reg.CAR_MBX_CTL_BUSY 0 else s.pairUp p := by
  have hno : (s.cp p != cpBOOTING || s.car.fw.running.isNone) = false := by
    simp only [hcp, bne_self_eq_false, Bool.false_or]
    rw [← Option.not_isSome, hrun]
    rfl
  unfold pairRestart
  rw [Nat.mod_eq_of_lt hp]
  dsimp only
  rw [hno]
  rfl

theorem State.pairUp_effect (s : State) {p : Nat} (hp : p < 2) : (s.pairUp p).cp p = cpRUNNING ∧
    (s.pairUp p).carPair p = { s.carPair p with kicked := s.hclk, resetAt := s.hclk, haltedAt := none, crc := 0xFFFFFFFF } ∧
    (s.pairUp p).carPair (1 - p) = s.carPair (1 - p) ∧ s.onlyChanges (s.pairUp p) [.regs, .car] := by
  obtain ⟨hset, -⟩ := s.setCp_effect p cpRUNNING
  obtain ⟨hself, hother, hpair⟩ := (s.setCp p cpRUNNING).upPair_spec hp fun q =>
    { q with kicked := s.hclk, resetAt := s.hclk, haltedAt := none, crc := 0xFFFFFFFF }
  have hsame := State.samePairs.of_frame hset (by decide)
  refine ⟨State.cp_setCp_self s (by decide), ?_, ?_, ?_⟩
  · refine hself.trans ?_
    rw [hsame p]
  · exact hother.trans (hsame _)
  · refine ((State.onlyChanges_mono hset (by decide)).andThen hpair).andThen (qs := [.car]) ?_
    simp [State.onlyChanges_iff, State.pairUp, State.pairStarted, State.upFw]

theorem pairRestart_effect {s : State} {p : Nat} (hp : p < 2) (hcp : s.cp p = cpBOOTING) (hrun : s.car.fw.running.isSome) :
    ∃ t, exec (.pairRestart p) s = .next t ∧ t.cp p = cpRUNNING ∧
      t.carPair p = { s.carPair p with kicked := s.hclk, resetAt := s.hclk, haltedAt := none, crc := 0xFFFFFFFF } ∧
      t.carPair (1 - p) = s.carPair (1 - p) ∧ s.onlyChanges t [.regs, .car] := by
  obtain ⟨hup, hself, hother, hparts⟩ := s.pairUp_effect hp
  refine ⟨_, congrArg Host.Outcome.next (pairRestart_booting hp hcp hrun), ?_⟩
  split
  · refine ⟨?_, hself, hother, hparts.andThen (State.onlyChanges_wr _ _ _ _ _ (ps := [.regs]) (by decide))⟩
    refine Eq.trans ?_ hup
    unfold State.cp
    rw [State.rd_wr_separate _ _ _ _ _ (by decide), State.rd_wr_separate _ _ _ _ _ (by decide)]
  · exact ⟨hup, hself, hother, hparts⟩

/-- The bite of a pair's watchdog counted and recorded. -/
def State.bitten (s : State) (p : Nat) : State := (s.bump Reg.CAR_CNT_WDT).carEvent evCAR_WATCHDOG sevWARN [p] true

theorem State.onlyChanges_bitten (s : State) (p : Nat) : s.onlyChanges (s.bitten p) recordParts :=
  (s.onlyChanges_bump Reg.CAR_CNT_WDT 0 0 1 (by decide)).andThen (State.reportsOnly_carEvent _ _ _ _ _).1

theorem carWatchdog_due {s : State} {p : Nat} (hp : p < 2) (hcp : s.cp p = cpRUNNING) (hh : s.pairHalted p = false)
    (hk : (s.carPair p).kicked + s.rd Reg.CAR_WDT_MS * 1200000 ≤ s.hclk) : carWatchdog p s = (s.bitten p).pairDown p cpBOOTING := by
  unfold carWatchdog
  rw [Nat.mod_eq_of_lt hp]
  dsimp only
  rw [hcp, hh, decide_eq_false (Nat.not_lt.mpr hk)]
  rfl

/-! The repeat of an access, and firmware that is confirmed. -/

/-- The fault taken out of those that the pair has. -/
def State.faultEnded (s : State) (p : Nat) : State := s.upFlt fun f => { f with accessFaults := f.accessFaults.erase p }

theorem accessFaultRetry_succeeds {s : State} {p : Nat} (hp : p < 2) (hc : s.flt.accessFaults.contains p) (hh : s.pairHalted p = false)
    (op : Option Nat) : accessFaultRetry p false op s = s.faultEnded p := by
  unfold accessFaultRetry
  rw [Nat.mod_eq_of_lt hp]
  dsimp only
  rw [hc, hh]
  rfl

theorem accessFaultRetry_load {s : State} {p : Nat} (hp : p < 2) (hc : s.flt.accessFaults.contains p) (hh : s.pairHalted p = false)
    {l : ImageLoad} (hv : s.img.validating = some l) : accessFaultRetry p true none s =
      ((s.faultEnded p).upImg fun i => { i with validating := none }).loadEnded l.session l.seq imgBusy 0 0 := by
  have hv' : (s.upFlt fun f => { f with accessFaults := f.accessFaults.erase p }).img.validating = some l := hv
  unfold accessFaultRetry
  rw [Nat.mod_eq_of_lt hp]
  dsimp only
  rw [hc, hh, hv']
  rfl

/-- The slot that runs is no longer on trial. -/
def State.trialOver (s : State) : State :=
  (if s.car.fw.active == s.rd Reg.CAR_STAT_SLOT then s.upFw fun w => { w with trial := false, tries := 0 } else s).wr Reg.CAR_STAT_TRIAL 0

theorem State.trialOver_effect (s : State) : s.trialOver.rd Reg.CAR_STAT_TRIAL = 0 ∧
    s.trialOver.rd Reg.SEC_LIFE_FW_SVN = s.rd Reg.SEC_LIFE_FW_SVN ∧
    (s.car.fw.active = s.rd Reg.CAR_STAT_SLOT → s.trialOver.car.fw = { s.car.fw with trial := false, tries := 0 }) ∧
    s.onlyChanges s.trialOver [.regs, .car] := by
  refine ⟨State.rd_wr_self _ _ _ _ _ (by decide), ?_, fun h => ?_, ?_⟩
  · rw [State.trialOver, State.rd_wr_separate _ _ _ _ _ (by decide)]
    split <;> rfl
  · have hown : (s.car.fw.active == s.rd Reg.CAR_STAT_SLOT) = true := by simp [h]
    rw [State.trialOver, hown]
    rfl
  · unfold State.trialOver
    split <;> simp [State.onlyChanges_iff, State.upFw]

/-- A field raised reads the greater of what it was and the value cut to its width. -/
theorem State.rd_raise_self (s : State) (f : Fld) (v i j : Nat) (hw : f.width ≤ 32) :
    (s.raise f v i j).rd f i j = max (s.rd f i j) (min v (2 ^ f.width - 1)) := by
  have hlt : min v (2 ^ f.width - 1) < 2 ^ f.width := by
    have := Nat.two_pow_pos f.width
    omega
  unfold State.raise
  dsimp only
  split
  · next h =>
    rw [State.rd_wr_self _ _ _ _ _ hw, Nat.mod_eq_of_lt hlt]
    omega
  · next h => omega

/-- The confirmed state recorded. -/
def State.confirmed (s : State) (i : FwInfo) : State :=
  s.trialOver.carEvent evFW_BOOTED sevINFO [i.version, s.trialOver.rd Reg.CAR_STAT_SLOT]

theorem fwConfirm_due {s : State} {i : FwInfo} (hr : s.car.fw.running = some i) (ht : s.on Reg.CAR_STAT_TRIAL) (h0 : s.roleRuns 0)
    (h1 : s.roleRuns 1) (hm : s.on Reg.CAR_STAT_MERGED = false) (hc : s.car.fw.calmSince + 60 * 1200000000 ≤ s.hclk) :
    fwConfirm s = if i.raise then (s.confirmed i).raise Reg.SEC_LIFE_FW_SVN i.svn else s.confirmed i := by
  unfold fwConfirm
  dsimp only
  rw [hr]
  dsimp only
  rw [ht, h0, h1, hm, decide_eq_false (Nat.not_lt.mpr hc)]
  simp only [Bool.not_true, Bool.or_self, Bool.false_eq_true, if_false]
  rfl

theorem fwConfirm_effect {s : State} {i : FwInfo} (hr : s.car.fw.running = some i) (ht : s.on Reg.CAR_STAT_TRIAL) (h0 : s.roleRuns 0)
    (h1 : s.roleRuns 1) (hm : s.on Reg.CAR_STAT_MERGED = false) (hc : s.car.fw.calmSince + 60 * 1200000000 ≤ s.hclk) :
    ∃ t, exec .fwConfirm s = .next t ∧ t.rd Reg.CAR_STAT_TRIAL = 0 ∧
      t.rd Reg.SEC_LIFE_FW_SVN =
        (if i.raise then max (s.rd Reg.SEC_LIFE_FW_SVN) (min i.svn (2 ^ Reg.SEC_LIFE_FW_SVN.width - 1)) else s.rd Reg.SEC_LIFE_FW_SVN) ∧
      (s.car.fw.active = s.rd Reg.CAR_STAT_SLOT → t.car.fw = { s.car.fw with trial := false, tries := 0 }) ∧
      s.onlyChanges t [.regs, .car, .flt, .out, .host] := by
  obtain ⟨htrial, hsvn, hown, hparts⟩ := s.trialOver_effect
  obtain ⟨hev, hregs⟩ := s.trialOver.reportsOnly_carEvent evFW_BOOTED sevINFO [i.version, s.trialOver.rd Reg.CAR_STAT_SLOT] false
  have htrial' : (s.confirmed i).rd Reg.CAR_STAT_TRIAL = 0 := (hregs _ _ _ (by decide)).trans htrial
  have hsvn' : (s.confirmed i).rd Reg.SEC_LIFE_FW_SVN = s.rd Reg.SEC_LIFE_FW_SVN := (hregs _ _ _ (by decide)).trans hsvn
  have hcar : (s.confirmed i).car = s.trialOver.car := hev .car (by decide)
  have hall : s.onlyChanges (s.confirmed i) [.regs, .car, .flt, .out, .host] :=
    (State.onlyChanges_mono hparts (by decide)).andThen hev
  refine ⟨_, congrArg Host.Outcome.next (fwConfirm_due hr ht h0 h1 hm hc), ?_⟩
  cases i.raise with
  | false => exact ⟨htrial', hsvn', fun h => (congrArg CarState.fw hcar).trans (hown h), hall⟩
  | true =>
    have hraise : (s.confirmed i).onlyChanges ((s.confirmed i).raise Reg.SEC_LIFE_FW_SVN i.svn) [.regs] := by
      unfold State.raise
      dsimp only
      split
      · exact State.onlyChanges_wr _ _ _ _ _ (by decide)
      · exact State.onlyChanges_refl _ _
    refine ⟨?_, ?_, fun h => ?_, hall.andThen hraise⟩
    · refine Eq.trans ?_ htrial'
      show ((s.confirmed i).raise Reg.SEC_LIFE_FW_SVN i.svn).rd Reg.CAR_STAT_TRIAL = _
      unfold State.raise
      dsimp only
      split
      · exact State.rd_wr_separate _ _ _ _ _ (by decide) _ _
      · rfl
    · rw [if_pos rfl, ← hsvn']
      exact State.rd_raise_self _ _ _ _ _ (by decide)
    · exact (congrArg CarState.fw ((hraise .car (by decide)).trans hcar)).trans (hown h)

/-! The log in flash. -/

theorem logPersist_eq {s : State} (h0 : s.roleRuns 0) (hn : s.unpersistedCount = s.unpersisted.length) :
    logPersist s = (s.flashAppend s.unpersisted).upFlt fun f => { f with persisted := f.nextEseq } := by
  unfold logPersist
  rw [h0, hn, Nat.sub_self]
  rfl

theorem State.flashAppend_room {s : State} {es : List Event} (h : s.flt.flashLog.length + es.length ≤ flashCapacity) :
    (s.flashAppend es).flt = { s.flt with flashLog := s.flt.flashLog ++ es } := by
  unfold State.flashAppend
  dsimp only
  rw [decide_eq_false (Nat.not_lt.mpr h)]
  rfl

/-- Settles O44: mismatch, restart, watchdog, kick, repeated access, confirmation and the log, one by one. -/
theorem pairsRestartAndFirmwareConfirms : Obligations.PairsRestartAndFirmwareConfirms := by
  intro s
  refine ⟨fun p hp hcp => lockstep_effect hp hcp, fun p hp hcp hrun => pairRestart_effect hp hcp hrun, fun p hp hcp hh hk => ?_,
    fun p hp => ?_, fun p op hp hc hh => ?_, fun p hp hc hh hv => ?_, fun i hr ht h0 h1 hm hc => fwConfirm_effect hr ht h0 h1 hm hc,
    fun h0 hn hroom => ?_⟩
  · obtain ⟨hdown, hpairs, -, -, hparts⟩ := (s.bitten p).pairDown_effect (p := p) (v := cpBOOTING) (by decide)
    have hbite := s.onlyChanges_bitten p
    refine ⟨_, congrArg Host.Outcome.next (carWatchdog_due hp hcp hh hk), hdown, ?_,
      (State.onlyChanges_mono hbite (by decide)).andThen hparts⟩
    rw [hpairs p, State.samePairs.of_frame hbite (by decide) p]
  · have hmod : p % 2 = p := Nat.mod_eq_of_lt hp
    exact ⟨_, congrArg Host.Outcome.next (show carKick p s = s.upPair p fun q => { q with kicked := s.hclk } by rw [carKick, hmod]),
      s.upPair_spec hp _⟩
  · exact ⟨_, congrArg Host.Outcome.next (accessFaultRetry_succeeds hp hc hh op), rfl, s.onlyChanges_upFlt _ (by decide)⟩
  · obtain ⟨l, hl⟩ := Option.isSome_iff_exists.mp hv
    have hend := State.onlyChanges_loadEnded ((s.faultEnded p).upImg fun i => { i with validating := none }) l.session l.seq imgBusy 0 0
    obtain ⟨hres, -, -, hdone⟩ := State.loadEnded_shows ((s.faultEnded p).upImg fun i => { i with validating := none }) l.session l.seq
      imgBusy 0 0
    refine ⟨_, congrArg Host.Outcome.next (accessFaultRetry_load hp hc hh hl), ?_, hres, hdone, ?_⟩
    · rw [hend .img (by decide)]
      rfl
    · exact State.onlyChanges_trans (by simp [State.onlyChanges_iff, State.faultEnded, State.upFlt, State.upImg])
        (State.onlyChanges_mono hend (by decide))
  · have hflt := State.flashAppend_room hroom
    refine ⟨_, congrArg Host.Outcome.next (logPersist_eq h0 hn), ?_, ?_, ?_, ?_⟩
    · rw [State.upFlt_flt, hflt]
    · rw [State.upFlt_flt, hflt]
    · rw [State.upFlt_flt, hflt]
    · simp [State.onlyChanges_iff, State.flashAppend, State.upFlt]

end Sys2Proof.Machine
end

section
/-!
PROOF. The links between dies, the loss of the domain and the bites of arbiters (R409, R410, R413, R450).  Every loss of the domain is the one
fault `goFatal 1` with its cause and position.
-/
namespace Sys2Proof.Machine

/-! Bits of a register. -/

theorem bit_eq_testBit (n i : Nat) : bit n i = n.testBit i := by
  rw [Nat.testBit_eq_decide_div_mod_eq, bit]
  rfl

/-- A bit below the width of a register reads as written. -/
theorem bit_mod_two_pow {w i : Nat} (h : i < w) (n : Nat) : bit (n % 2 ^ w) i = bit n i := by
  rw [bit_eq_testBit, bit_eq_testBit, Nat.testBit_mod_two_pow, decide_eq_true h, Bool.true_and]

/-- The bit set is the value set. -/
theorem bit_setBits_self (n i : Nat) {v : Nat} (hv : v < 2) : bit (setBits n i 1 v) i = (v == 1) := by
  have hdiv : setBits n i 1 v / 2 ^ i = n / 2 ^ i - n / 2 ^ i % 2 + v := by
    have hpos := Nat.two_pow_pos i
    have hn := Nat.div_add_mod n (2 ^ i)
    have hlt := Nat.mod_lt n hpos
    have hle : n / 2 ^ i % 2 ≤ n / 2 ^ i := Nat.mod_le _ _
    rw [setBits, bits, Nat.pow_one, Nat.mod_eq_of_lt hv, Nat.add_mul_div_right _ _ hpos]
    congr 1
    refine (Nat.div_eq_of_lt_le ?_ ?_)
    · rw [Nat.sub_mul]
      have : n / 2 ^ i * 2 ^ i ≤ n := Nat.div_mul_le_self _ _
      omega
    · rw [Nat.succ_mul, Nat.sub_mul]
      have hmul : n / 2 ^ i % 2 * 2 ^ i ≤ n / 2 ^ i * 2 ^ i := Nat.mul_le_mul_right _ hle
      rw [Nat.mul_comm] at hn
      omega
  rw [bit, hdiv]
  obtain rfl | rfl : v = 0 ∨ v = 1 := by omega
  all_goals
    simp
    omega

/-- A bit of a register set to a value reads that value. -/
theorem State.bit_rd_wr_setBits (s : State) (f : Fld) {i v : Nat} (hw : f.width ≤ 32) (hi : i < f.width) (hv : v < 2) :
    bit ((s.wr f (setBits (s.rd f) i 1 v)).rd f) i = (v == 1) := by
  rw [State.rd_wr_self _ _ _ _ _ hw, bit_mod_two_pow hi, bit_setBits_self _ _ hv]

/-! The repair of a lane. -/

/-- A charge of one event in a row without remainder raises the score by the event's weight. -/
theorem State.score_charge_single (s : State) (cls inst row weight : Nat) (h : Tab.getD (s.score cls inst).rems row 0 = 0) :
    ((s.charge cls inst row 1 1 weight).score cls inst).s = satAdd (s.score cls inst).s (weight * 256) 0xFFFFFFFF := by
  unfold State.charge
  dsimp only
  rw [h]
  obtain ⟨b, hb⟩ := s.score_setScore_self cls inst
    { s.score cls inst with rems := Tab.put (s.score cls inst).rems row ((0 + 1) % 1), s := satAdd (s.score cls inst).s (1 * weight * 256) 0xFFFFFFFF,
                            events := satAdd (s.score cls inst).events 1 0xFFFF }
  have hsc := congrArg Score.s hb
  rw [Nat.one_mul] at hsc
  simpa using hsc

theorem ringLaneRepair_effect (s : State) {l : Nat} (hl : l < 10) (h : Tab.getD (s.score clsRING l).rems 1 0 = 0) :
    ∃ t, exec (.ringLaneRepair l) s = .next t ∧ s.onlyChanges t recordParts ∧ s.regsKeptBut t scoreKeys ∧
      (t.score clsRING l).s = satAdd (s.score clsRING l).s (512 * 256) 0xFFFFFFFF := by
  obtain ⟨hparts, hregs⟩ := s.chargesOnly_charge clsRING l 1 1 1 512
  exact ⟨_, congrArg Host.Outcome.next (if_pos hl), hparts, hregs, s.score_charge_single clsRING l 1 512 h⟩

theorem d2dLaneRepair_effect (s : State) {l : Nat} (hl : l < 11) : ∃ t, exec (.d2dLaneRepair l) s = .next t ∧
    bit (t.rd Reg.GLB_D2D_REPAIRED) l = true ∧ s.onlyChanges t recordParts ∧
    s.regsKeptBut t (Reg.GLB_D2D_REPAIRED.key 0 0 :: scoreKeys) := by
  have hwr := s.onlyChanges_wr Reg.GLB_D2D_REPAIRED (setBits (s.rd Reg.GLB_D2D_REPAIRED) l 1 1) 0 0 (ps := recordParts) (by decide)
  have hkept := s.regsKept_wr Reg.GLB_D2D_REPAIRED (setBits (s.rd Reg.GLB_D2D_REPAIRED) l 1 1) 0 0
    (ks := Reg.GLB_D2D_REPAIRED.key 0 0 :: scoreKeys) (List.mem_cons_self)
  have hbit := s.bit_rd_wr_setBits Reg.GLB_D2D_REPAIRED (i := l) (v := 1) (by decide) hl (by decide)
  obtain ⟨hparts, hregs⟩ := State.chargesOnly_charge
    (s.wr Reg.GLB_D2D_REPAIRED (setBits (s.rd Reg.GLB_D2D_REPAIRED) l 1 1)) clsD2D l 0 1 1 512
  refine ⟨_, congrArg Host.Outcome.next (if_pos hl), ?_, hwr.andThen hparts, hkept.andThen hregs (List.subset_cons_self _ _)⟩
  rw [hregs _ _ _ (by decide)]
  exact hbit

/-! The loss of the domain. -/

/-- One die latches the cause. -/
def latchDie (cause agent : Nat) (s : State) (d : Nat) : State :=
  let old := s.rd Reg.COH_FATAL_DIE_CAUSE d
  if old != 0 && old ≤ cause then s
  else (s.wr Reg.COH_FATAL_DIE_CAUSE cause d).wr Reg.COH_FATAL_DIE_AGENT agent d

theorem onlyChanges_foldl_latchDie (cause agent : Nat) (ds : List Nat) (s : State) :
    s.onlyChanges (ds.foldl (latchDie cause agent) s) [.regs] := by
  induction ds generalizing s with
  | nil => exact s.onlyChanges_refl _
  | cons d ds ih =>
    refine State.onlyChanges_trans ?_ (ih _)
    unfold latchDie
    dsimp only
    split
    · exact s.onlyChanges_refl _
    · simp [State.onlyChanges_iff]

theorem rd_foldl_latchDie (cause agent : Nat) (ds : List Nat) (s : State) {g : Fld} (h1 : g.separate Reg.COH_FATAL_DIE_CAUSE = true)
    (h2 : g.separate Reg.COH_FATAL_DIE_AGENT = true) (a b : Nat) : (ds.foldl (latchDie cause agent) s).rd g a b = s.rd g a b := by
  induction ds generalizing s with
  | nil => rfl
  | cons d ds ih =>
    rw [List.foldl_cons, ih]
    unfold latchDie
    dsimp only
    split
    · rfl
    · rw [State.rd_wr_separate _ _ _ _ _ h2, State.rd_wr_separate _ _ _ _ _ h1]

/-- The cause and position latched, and the domain shown down. -/
def State.domainLost (s : State) (cause agent : Nat) : State :=
  ((List.range 12).foldl (latchDie cause agent) ((s.wr Reg.COH_FATAL_CAUSE cause).wr Reg.COH_FATAL_AGENT agent)).wr Reg.COH_STAT_DOWN 1

theorem State.latchDies_first (s : State) (cause agent : Nat) : s.latchDies cause agent false =
    (List.range 12).foldl (latchDie cause agent) ((s.wr Reg.COH_FATAL_CAUSE cause).wr Reg.COH_FATAL_AGENT agent) := rfl

theorem State.rd_domainLost (s : State) (cause agent : Nat) {g : Fld} (h1 : g.separate Reg.COH_FATAL_DIE_CAUSE = true)
    (h2 : g.separate Reg.COH_FATAL_DIE_AGENT = true) (h3 : g.separate Reg.COH_STAT_DOWN = true) (a b : Nat) :
    (s.domainLost cause agent).rd g a b = ((s.wr Reg.COH_FATAL_CAUSE cause).wr Reg.COH_FATAL_AGENT agent).rd g a b := by
  rw [State.domainLost, State.rd_wr_separate _ _ _ _ _ h3, rd_foldl_latchDie _ _ _ _ h1 h2]

/-- The device-fatal cause of a loss of the domain shown, with its time. -/
def State.fatalShown (s : State) : State :=
  ((s.wr Reg.FLT_FATAL_CAUSE 1).wr Reg.FLT_FATAL_DETAIL 0).upFlt fun f => { f with fatalAt := s.hclk }

theorem State.redEndAll_of_none {s : State} (h : s.red.insts = []) (q : RedInst → Bool) (st : Nat) : s.redEndAll q st = s := by
  rw [State.redEndAll, h]
  rfl

/-- The record of a device-fatal fault. -/
def State.fatalReport (s : State) : Report :=
  { code := evDEVICE_FATAL, sev := sevFATAL, health := true, params := [s.fatalWord, s.cohWord] }

/-- What a device-fatal fault does once the latches of the domain stand, `same` telling a second fault in one cycle. -/
def State.fatalTail (t : State) (same : Bool) (old cause detail : Nat) : State :=
  if t.fatal then
    if same && decide (cause < old) then (t.wr Reg.FLT_FATAL_CAUSE cause).wr Reg.FLT_FATAL_DETAIL detail else t
  else
    let t := ((t.wr Reg.FLT_FATAL_CAUSE cause).wr Reg.FLT_FATAL_DETAIL detail).upFlt fun f => { f with fatalAt := t.hclk }
    let t := t.redEndAll (fun _ => true) stTARGET_DEAD
    t.event t.fatalReport

/-- The latches of the domain, where the fault is the domain's and the first of its cycle. -/
def State.fatalHead (s : State) (same : Bool) (cause : Nat) (coh : Nat × Nat) : State :=
  if cause = 1 && (!s.fatal || same) then (s.latchDies coh.1 coh.2 same).wr Reg.COH_STAT_DOWN 1 else s

theorem State.goFatal_eq (s : State) (cause detail : Nat) (coh : Nat × Nat) : s.goFatal cause detail coh =
    (s.fatalHead (s.fatal && s.flt.fatalAt == s.hclk) cause coh).fatalTail (s.fatal && s.flt.fatalAt == s.hclk)
      (s.rd Reg.FLT_FATAL_CAUSE) cause detail := rfl

theorem State.fatalHead_first {s : State} (hf : s.fatal = false) (cause agent : Nat) :
    s.fatalHead false 1 (cause, agent) = s.domainLost cause agent := by
  unfold State.fatalHead State.domainLost
  rw [State.latchDies_first, hf]
  rfl

theorem State.fatalTail_first {t : State} (hf : t.fatal = false) (hr : t.red.insts = []) (same : Bool) (old : Nat) :
    t.fatalTail same old 1 0 = t.fatalShown.event t.fatalShown.fatalReport := by
  have hred : t.fatalShown.red.insts = [] := hr
  have hend := State.redEndAll_of_none hred (fun _ => true) stTARGET_DEAD
  unfold State.fatalTail
  rw [hf]
  exact congrArg (fun u : State => u.event u.fatalReport) hend

/-- The first fault of a switch with no reduction open. -/
theorem State.goFatal_first {s : State} (hf : s.fatal = false) (hr : s.red.insts = []) (cause agent : Nat) :
    s.goFatal 1 0 (cause, agent) =
      (s.domainLost cause agent).fatalShown.event (s.domainLost cause agent).fatalShown.fatalReport := by
  have hlost : (s.domainLost cause agent).fatal = false := by
    rw [← hf, State.fatal, State.fatal, State.on, State.on, State.rd_domainLost _ _ _ (by decide) (by decide) (by decide),
      State.rd_wr_separate _ _ _ _ _ (by decide), State.rd_wr_separate _ _ _ _ _ (by decide)]
  have hparts : s.onlyChanges (s.domainLost cause agent) [.regs] := by
    refine State.onlyChanges_trans (State.onlyChanges_trans ?_ (onlyChanges_foldl_latchDie cause agent (List.range 12) _))
      (State.onlyChanges_wr _ Reg.COH_STAT_DOWN 1 0 0 (by decide))
    simp [State.onlyChanges_iff]
  have hred : (s.domainLost cause agent).red.insts = [] :=
    (congrArg RedState.insts (hparts .red (by decide))).trans hr
  rw [State.goFatal_eq, hf, Bool.false_and, State.fatalHead_first hf, State.fatalTail_first hlost hred]

/-- What the loss of the domain shows. -/
theorem State.goFatal_effect {s : State} (hf : s.fatal = false) (hr : s.red.insts = []) {cause agent : Nat} (hc : cause < 16)
    (ha : agent < 16) : (s.goFatal 1 0 (cause, agent)).rd Reg.FLT_FATAL_CAUSE = 1 ∧
    (s.goFatal 1 0 (cause, agent)).rd Reg.COH_FATAL_CAUSE = cause ∧ (s.goFatal 1 0 (cause, agent)).rd Reg.COH_FATAL_AGENT = agent ∧
    (s.goFatal 1 0 (cause, agent)).rd Reg.COH_STAT_DOWN = 1 ∧
    (s.goFatal 1 0 (cause, agent)).rd Reg.COH_STAT_ALIVE = s.rd Reg.COH_STAT_ALIVE ∧
    s.onlyChanges (s.goFatal 1 0 (cause, agent)) recordParts := by
  rw [State.goFatal_first hf hr]
  have hshown : ∀ g : Fld, g.separate Reg.FLT_FATAL_CAUSE = true → g.separate Reg.FLT_FATAL_DETAIL = true →
      (s.domainLost cause agent).fatalShown.rd g = (s.domainLost cause agent).rd g := by
    intro g h1 h2
    rw [State.fatalShown, State.rd_upFlt, State.rd_wr_separate _ _ _ _ _ h2, State.rd_wr_separate _ _ _ _ _ h1]
  refine ⟨?_, ?_, ?_, ?_, ?_, ?_⟩
  · rw [State.rd_event _ _ _ _ _ (by decide), State.fatalShown, State.rd_upFlt, State.rd_wr_separate _ _ _ _ _ (by decide),
      State.rd_wr_self _ _ _ _ _ (by decide)]
    rfl
  · rw [State.rd_event _ _ _ _ _ (by decide), hshown _ (by decide) (by decide),
      State.rd_domainLost _ _ _ (by decide) (by decide) (by decide), State.rd_wr_separate _ _ _ _ _ (by decide),
      State.rd_wr_self _ _ _ _ _ (by decide)]
    exact Nat.mod_eq_of_lt hc
  · rw [State.rd_event _ _ _ _ _ (by decide), hshown _ (by decide) (by decide),
      State.rd_domainLost _ _ _ (by decide) (by decide) (by decide), State.rd_wr_self _ _ _ _ _ (by decide)]
    exact Nat.mod_eq_of_lt ha
  · rw [State.rd_event _ _ _ _ _ (by decide), hshown _ (by decide) (by decide)]
    exact State.rd_wr_self _ _ _ _ _ (by decide)
  · rw [State.rd_event _ _ _ _ _ (by decide), hshown _ (by decide) (by decide),
      State.rd_domainLost _ _ _ (by decide) (by decide) (by decide), State.rd_wr_separate _ _ _ _ _ (by decide),
      State.rd_wr_separate _ _ _ _ _ (by decide)]
  · have hlost : s.onlyChanges (s.domainLost cause agent) recordParts := by
      refine State.onlyChanges_trans (State.onlyChanges_trans ?_ (State.onlyChanges_mono
        (onlyChanges_foldl_latchDie cause agent (List.range 12) _) (by decide))) (State.onlyChanges_wr _ Reg.COH_STAT_DOWN 1 0 0 (by decide))
      simp [State.onlyChanges_iff, recordParts]
    refine State.onlyChanges_trans (hlost.andThen (u := (s.domainLost cause agent).fatalShown) (qs := [.regs, .flt]) ?_)
      (State.reportsOnly_event _ _).1
    simp [State.onlyChanges_iff, State.fatalShown, State.upFlt]

/-- The loss of the domain once some registers of no concern to it are written. -/
theorem State.goFatal_after {s u : State} (hu : s.onlyChanges u [.regs]) (hcause : u.rd Reg.FLT_FATAL_CAUSE = s.rd Reg.FLT_FATAL_CAUSE)
    (hf : s.fatal = false) (hr : s.red.insts = []) {cause agent : Nat} (hc : cause < 16) (ha : agent < 16) :
    (u.goFatal 1 0 (cause, agent)).rd Reg.FLT_FATAL_CAUSE = 1 ∧
    (u.goFatal 1 0 (cause, agent)).rd Reg.COH_FATAL_CAUSE = cause ∧ (u.goFatal 1 0 (cause, agent)).rd Reg.COH_FATAL_AGENT = agent ∧
    (u.goFatal 1 0 (cause, agent)).rd Reg.COH_STAT_DOWN = 1 ∧
    (u.goFatal 1 0 (cause, agent)).rd Reg.COH_STAT_ALIVE = u.rd Reg.COH_STAT_ALIVE ∧
    s.onlyChanges (u.goFatal 1 0 (cause, agent)) recordParts := by
  have hf' : u.fatal = false := by rw [State.fatal, State.on, hcause]; exact hf
  have hr' : u.red.insts = [] := by rw [hu .red (by decide)]; exact hr
  obtain ⟨h1, h2, h3, h4, h5, h6⟩ := State.goFatal_effect hf' hr' hc ha
  exact ⟨h1, h2, h3, h4, h5, State.onlyChanges_trans (State.onlyChanges_mono hu (by decide)) h6⟩

/-- The fall of a die-to-die link shown. -/
def State.linkFallen (s : State) (l : Nat) : State :=
  if l < 2 then s.wr Reg.GLB_D2D_PD_UP (setBits (s.rd Reg.GLB_D2D_PD_UP) l 1 0)
  else if l < 10 then s.wr Reg.GLB_D2D_CD_UP (setBits (s.rd Reg.GLB_D2D_CD_UP) (l - 2) 1 0)
  else s.wr Reg.GLB_D2D_MH_UP 0

theorem State.linkFallen_effect (s : State) (l : Nat) : s.onlyChanges (s.linkFallen l) [.regs] ∧
    (s.linkFallen l).rd Reg.FLT_FATAL_CAUSE = s.rd Reg.FLT_FATAL_CAUSE := by
  unfold State.linkFallen
  split
  · exact ⟨s.onlyChanges_wr _ _ _ _ (by decide), s.rd_wr_separate _ _ _ _ (by decide) _ _⟩
  · split
    · exact ⟨s.onlyChanges_wr _ _ _ _ (by decide), s.rd_wr_separate _ _ _ _ (by decide) _ _⟩
    · exact ⟨s.onlyChanges_wr _ _ _ _ (by decide), s.rd_wr_separate _ _ _ _ (by decide) _ _⟩

theorem linkPos_lt {l : Nat} (h : l < 11) : linkPos l < 16 := by
  revert l
  decide

/-! The bite of an arbiter. -/

/-- The bite of an XH arbiter named and counted. -/
def State.biteNoted (s : State) (inst owner : Nat) : State :=
  ((((s.wr Reg.ARB_WD_LAST_RESOURCE 1).wr Reg.ARB_WD_LAST_INSTANCE inst).wr Reg.ARB_WD_LAST_DIE 11).wr Reg.ARB_WD_LAST_OWNER owner).bump
    Reg.ARB_CNT_WD

/-- The record of a bite. -/
def biteReport (inst owner : Nat) : Report :=
  { code := evARB_BITE, sev := sevWARN, health := true, params := [1 + 2 ^ 4 * inst + 2 ^ 16 * 11 + 2 ^ 20 * owner], die := 11 }

/-- The bite recorded and charged to the requester's unit. -/
def State.biteCharged (s : State) (inst owner : Nat) : State :=
  ((s.biteNoted inst owner).event (biteReport inst owner)).charge clsUNIT owner 0 1 1 512

theorem arbBite_regOp (s : State) {inst owner : Nat} (hi : inst < 64) (ho : owner < 5) :
    arbBite 1 inst 11 owner 0 (.regOp 0x400008) s =
      (s.biteCharged inst owner).setEnd Reg.EXT_STATUS_STATUS Reg.EXT_STATUS_DONE stTIMEOUT := by
  have hok : arbOk 1 inst 11 owner = true := by simp [arbOk, hi, ho]
  unfold arbBite
  rw [hok]
  rfl

/-- What a bite shows. -/
theorem State.biteCharged_effect (s : State) {inst owner : Nat} (hi : inst < 64) (ho : owner < 5) :
    (s.biteCharged inst owner).rd Reg.ARB_WD_LAST_RESOURCE = 1 ∧ (s.biteCharged inst owner).rd Reg.ARB_WD_LAST_INSTANCE = inst ∧
    (s.biteCharged inst owner).rd Reg.ARB_WD_LAST_DIE = 11 ∧ (s.biteCharged inst owner).rd Reg.ARB_WD_LAST_OWNER = owner ∧
    (s.biteCharged inst owner).rd Reg.ARB_CNT_WD = min (s.rd Reg.ARB_CNT_WD + 1) (2 ^ Reg.ARB_CNT_WD.width - 1) ∧
    s.onlyChanges (s.biteCharged inst owner) recordParts := by
  have hnote : s.onlyChanges (s.biteNoted inst owner) recordParts := by simp [State.onlyChanges_iff, State.biteNoted, recordParts]
  obtain ⟨hev, hevregs⟩ := (s.biteNoted inst owner).reportsOnly_event (biteReport inst owner)
  obtain ⟨hch, hchregs⟩ := ((s.biteNoted inst owner).event (biteReport inst owner)).chargesOnly_charge clsUNIT owner 0 1 1 512
  have hrd : ∀ g : Fld, g.key 0 0 ∉ scoreKeys → (s.biteCharged inst owner).rd g = (s.biteNoted inst owner).rd g :=
    fun g hg => (hchregs g 0 0 hg).trans (hevregs g 0 0 fun h => hg (List.mem_cons_of_mem _ h))
  refine ⟨?_, ?_, ?_, ?_, ?_, (hnote.andThen hev).andThen hch⟩
  all_goals rw [hrd _ (by decide), State.biteNoted]
  · simp (disch := decide) only [State.rd_bump_separate, State.rd_wr_separate, State.rd_wr_self]
    rfl
  · simp (disch := decide) only [State.rd_bump_separate, State.rd_wr_separate, State.rd_wr_self]
    exact Nat.mod_eq_of_lt (Nat.lt_of_lt_of_le hi (by decide))
  · simp (disch := decide) only [State.rd_bump_separate, State.rd_wr_separate, State.rd_wr_self]
    rfl
  · simp (disch := decide) only [State.rd_bump_separate, State.rd_wr_self]
    exact Nat.mod_eq_of_lt (Nat.lt_of_lt_of_le ho (by decide))
  · rw [State.rd_bump_self _ _ _ _ _ (by decide)]
    simp (disch := decide) only [State.rd_wr_separate]

theorem arbBite_effect (s : State) {inst owner : Nat} (hi : inst < 64) (ho : owner < 5) :
    ∃ t, exec (.arbBite 1 inst 11 owner 0 (.regOp 0x400008)) s = .next t ∧
    t.rd Reg.ARB_WD_LAST_RESOURCE = 1 ∧ t.rd Reg.ARB_WD_LAST_INSTANCE = inst ∧ t.rd Reg.ARB_WD_LAST_DIE = 11 ∧
    t.rd Reg.ARB_WD_LAST_OWNER = owner ∧ t.rd Reg.EXT_STATUS_STATUS = stTIMEOUT ∧ t.rd Reg.EXT_STATUS_DONE = 1 ∧
    t.rd Reg.ARB_CNT_WD = min (s.rd Reg.ARB_CNT_WD + 1) (2 ^ Reg.ARB_CNT_WD.width - 1) ∧ s.onlyChanges t recordParts := by
  obtain ⟨hres, hinst, hdie, howner, hcount, hparts⟩ := s.biteCharged_effect hi ho
  generalize hu : s.biteCharged inst owner = u at hres hinst hdie howner hcount hparts
  have hother : ∀ g : Fld, g.separate Reg.EXT_STATUS_STATUS = true → g.separate Reg.EXT_STATUS_DONE = true →
      (u.setEnd Reg.EXT_STATUS_STATUS Reg.EXT_STATUS_DONE stTIMEOUT).rd g = u.rd g := fun g h1 h2 =>
    (State.rd_wr_separate _ _ _ _ _ h2 _ _).trans (State.rd_wr_separate _ _ _ _ _ h1 _ _)
  have hstatus : (u.setEnd Reg.EXT_STATUS_STATUS Reg.EXT_STATUS_DONE stTIMEOUT).rd Reg.EXT_STATUS_STATUS = stTIMEOUT := by
    rw [State.setEnd, State.rd_wr_separate _ _ _ _ _ (by decide), State.rd_wr_self _ _ _ _ _ (by decide)]
    rfl
  have hend : u.onlyChanges (u.setEnd Reg.EXT_STATUS_STATUS Reg.EXT_STATUS_DONE stTIMEOUT) [.regs] := by
    simp [State.onlyChanges_iff, State.setEnd]
  exact ⟨_, congrArg Host.Outcome.next ((arbBite_regOp s hi ho).trans (by rw [hu])), (hother _ (by decide) (by decide)).trans hres,
    (hother _ (by decide) (by decide)).trans hinst, (hother _ (by decide) (by decide)).trans hdie,
    (hother _ (by decide) (by decide)).trans howner, hstatus, State.rd_wr_self _ _ _ _ _ (by decide),
    (hother _ (by decide) (by decide)).trans hcount, hparts.andThen hend⟩

/-- Settles O42: the repairs, the four losses of the domain, and the bite. -/
theorem linksDomainAndArbitersFail : Obligations.LinksDomainAndArbitersFail := by
  intro s
  refine ⟨fun l hl h => ringLaneRepair_effect s hl h, fun l hl => d2dLaneRepair_effect s hl, fun l hl hf hr => ?_, fun p hp hf hr => ?_,
    fun p hp ha hf hr => ?_, fun p line x hp hx ht hf hr => ?_, fun inst owner hi ho => arbBite_effect s hi ho⟩
  · obtain ⟨hu, hcause⟩ := s.linkFallen_effect l
    obtain ⟨h1, h2, h3, h4, -, h6⟩ := State.goFatal_after hu hcause hf hr (cause := 4) (agent := linkPos l) (by decide) (linkPos_lt hl)
    exact ⟨_, congrArg Host.Outcome.next (if_neg (Nat.not_le.mpr hl)), h1, h2, h3, h4, h6⟩
  · obtain ⟨h1, h2, h3, h4, -, h6⟩ := State.goFatal_effect hf hr (cause := 1) (agent := p) (by decide) (by omega)
    exact ⟨_, congrArg Host.Outcome.next (if_pos hp), h1, h2, h3, h4, h6⟩
  · have hrun : agentHeartbeatMiss p s =
        (s.wr Reg.COH_STAT_ALIVE (setBits (s.rd Reg.COH_STAT_ALIVE) p 1 0)).goFatal 1 0 (2, p) := by
      rw [agentHeartbeatMiss, ha, decide_eq_true hp]
      rfl
    obtain ⟨-, h2, h3, h4, h5, h6⟩ := State.goFatal_after (u := s.wr Reg.COH_STAT_ALIVE (setBits (s.rd Reg.COH_STAT_ALIVE) p 1 0))
      (s.onlyChanges_wr _ _ _ _ (by decide)) (s.rd_wr_separate _ _ _ _ (by decide) _ _) hf hr (cause := 2) (agent := p) (by decide) (by omega)
    refine ⟨_, congrArg Host.Outcome.next hrun, h2, h3, ?_, h4, h6⟩
    rw [h5]
    exact s.bit_rd_wr_setBits Reg.COH_STAT_ALIVE (v := 0) (by decide) hp (by decide)
  · have hrun : cohTxnTimeout p line s = s.goFatal 1 0 (3, p) := by
      rw [cohTxnTimeout, hx]
      exact if_pos ht
    obtain ⟨-, h2, h3, h4, -, h6⟩ := State.goFatal_effect hf hr (cause := 3) (agent := p) (by decide) (by omega)
    exact ⟨_, congrArg Host.Outcome.next hrun, h2, h3, h4, h6⟩

end Sys2Proof.Machine
end

section
/-!
PROOF. How a coherent request ends (R400–R406, R418).  A transaction that settles closes: its line is free, its counters and gauges move, and
nothing else does; what it left at its requester or in the control SRAM stands beside that.
-/
namespace Sys2Proof.Machine

/-! Transactions and copies. -/

@[simp] theorem State.txn_putTxn_self (s : State) (line pos : Nat) (x : CohTxn) : (s.putTxn line pos x).txn line pos = some x := by
  simp [State.txn, State.putTxn]

theorem State.onlyChanges_putTxn (s : State) (line pos : Nat) (x : CohTxn) : s.onlyChanges (s.putTxn line pos x) [.coh] := by
  simp [State.onlyChanges_iff, State.putTxn]

theorem State.copyAt_setCopy_self (s : State) (line pos st : Nat) : (s.setCopy line pos st).copyAt line pos = st := by
  by_cases h : st = cohI
  · simp [State.copyAt, State.setCopy, Tab.getD, h]
  · simp [State.copyAt, State.setCopy, Tab.getD, h]

theorem State.onlyChanges_setCopy (s : State) (line pos st : Nat) : s.onlyChanges (s.setCopy line pos st) [.coh] := by
  simp [State.onlyChanges_iff, State.setCopy]

theorem State.onlyChanges_raise (s : State) (f : Fld) (v i j : Nat) : s.onlyChanges (s.raise f v i j) [.regs] := by
  unfold State.raise
  dsimp only
  split
  · exact s.onlyChanges_wr _ _ _ _ (by decide)
  · exact s.onlyChanges_refl _

theorem State.rd_raise_separate (s : State) (f : Fld) (v i j : Nat) {g : Fld} (h : g.separate f = true) (a b : Nat) :
    (s.raise f v i j).rd g a b = s.rd g a b := by
  unfold State.raise
  dsimp only
  split
  · exact s.rd_wr_separate _ _ _ _ h _ _
  · rfl

/-! A transaction completes. -/

/-- The domain with a transaction closed and its line free. -/
def CohState.closed (c : CohState) (line pos : Nat) : CohState :=
  { c with txns := Tab.del c.txns (cohKey line pos), busy := Tab.del c.busy line
           credits := List.filter (fun e => !e.2.isEmpty) c.credits }

/-- The counts and gauges of a completed transaction, for requests that keep a copy and that keep none. -/
def State.txnCounted (s : State) (x : CohTxn) : State :=
  ((s.bump Reg.COH_CNT_TXN).raise Reg.COH_TXN_MAX_HCLK (s.hclk - x.issued)).raise Reg.COH_RETRY_MAX_COUNT x.retries

theorem State.txnDone_eq (s : State) (line pos : Nat) (x : CohTxn) : s.txnDone line pos x =
    if x.req = .rdNa || x.req = .wrNa then ((s.upCoh (·.closed line pos)).txnCounted x).bump Reg.COH_CNT_NA
    else (s.upCoh (·.closed line pos)).txnCounted x := rfl

theorem State.onlyChanges_txnCounted (s : State) (x : CohTxn) : s.onlyChanges (s.txnCounted x) [.regs] :=
  ((s.onlyChanges_bump _ _ _ _ (by decide)).andThen (State.onlyChanges_raise _ _ _ _ _)).andThen (State.onlyChanges_raise _ _ _ _ _)

/-- A transaction that completes closes in the domain, and besides that moves registers alone. -/
theorem State.txnDone_effect (s : State) (line pos : Nat) (x : CohTxn) :
    (s.txnDone line pos x).coh = s.coh.closed line pos ∧ s.onlyChanges (s.txnDone line pos x) [.regs, .coh] := by
  have hcounted := (s.upCoh (·.closed line pos)).onlyChanges_txnCounted x
  have hclosed : s.onlyChanges (s.upCoh (·.closed line pos)) [.regs, .coh] := by simp [State.onlyChanges_iff]
  have hregs : (s.upCoh (·.closed line pos)).onlyChanges (s.txnDone line pos x) [.regs] := by
    rw [State.txnDone_eq]
    split
    · exact hcounted.andThen (State.onlyChanges_bump _ _ _ _ _ (ps := [.regs]) (by decide))
    · exact hcounted
  exact ⟨hregs .coh (by decide), hclosed.andThen hregs⟩

theorem State.txn_txnDone (s : State) (line pos : Nat) (x : CohTxn) : (s.txnDone line pos x).txn line pos = none := by
  rw [State.txn, (s.txnDone_effect line pos x).1]
  exact Tab.find?_del_self _ _

theorem State.busy_txnDone (s : State) (line pos : Nat) (x : CohTxn) : Tab.find? (s.txnDone line pos x).coh.busy line = none := by
  rw [(s.txnDone_effect line pos x).1]
  exact Tab.find?_del_self _ _

theorem State.copies_txnDone (s : State) (line pos : Nat) (x : CohTxn) : (s.txnDone line pos x).coh.copies = s.coh.copies := by
  rw [(s.txnDone_effect line pos x).1]
  rfl

theorem State.sram_txnDone (s : State) (line pos : Nat) (x : CohTxn) : (s.txnDone line pos x).coh.sram = s.coh.sram := by
  rw [(s.txnDone_effect line pos x).1]
  rfl

theorem State.reads_txnDone (s : State) (line pos : Nat) (x : CohTxn) : (s.txnDone line pos x).coh.reads = s.coh.reads := by
  rw [(s.txnDone_effect line pos x).1]
  rfl

/-- A completed request that keeps a copy counts one transaction. -/
theorem State.cntTxn_txnDone (s : State) (line pos : Nat) (x : CohTxn) (h : x.req = .rdS) :
    (s.txnDone line pos x).rd Reg.COH_CNT_TXN = min (s.rd Reg.COH_CNT_TXN + 1) (2 ^ Reg.COH_CNT_TXN.width - 1) := by
  rw [State.txnDone_eq, if_neg (by simp [h]), State.txnCounted, State.rd_raise_separate _ _ _ _ _ (by decide),
    State.rd_raise_separate _ _ _ _ _ (by decide), State.rd_bump_self _ _ _ _ _ (by decide), State.rd_upCoh]

/-- A state in which a line has a given copy at a position: the transaction's end leaves the copy there. -/
theorem State.copied_effect (s : State) (line pos st : Nat) (x : CohTxn) :
    ((s.setCopy line pos st).txnDone line pos x).copyAt line pos = st ∧
      ((s.setCopy line pos st).txnDone line pos x).txn line pos = none ∧
      ((s.setCopy line pos st).txnDone line pos x).coh.sram = s.coh.sram ∧
      s.onlyChanges ((s.setCopy line pos st).txnDone line pos x) [.regs, .coh] := by
  refine ⟨?_, State.txn_txnDone _ _ _ _, State.sram_txnDone _ _ _ _,
    State.onlyChanges_trans (State.onlyChanges_mono (s.onlyChanges_setCopy _ _ _) (by decide)) (State.txnDone_effect _ _ _ _).2⟩
  rw [State.copyAt, State.copies_txnDone]
  exact s.copyAt_setCopy_self line pos st

/-! What arrives at a requester. -/

theorem exec_snoopResponse_first {s : State} {line pos : Nat} {x : CohTxn} (hx : s.txn line pos = some x) (ha : x.answered = false)
    (hv : x.value = none) : exec (.snoopResponse pos line 0 0) s = .next (s.putTxn line pos { x with answered := true }) := by
  refine congrArg Host.Outcome.next ?_
  unfold snoopResponse State.settle
  simp only [hx, ha, hv, Bool.false_eq_true, if_false, State.ringCorrected, decide_true, Bool.true_or, if_true]

/-- The value that reaches a requester is kept or ends the transaction. -/
theorem exec_data {s : State} {line pos : Nat} {x : CohTxn} (hx : s.txn line pos = some x) (hr : x.ready = true)
    (hq : x.req = .rdS ∨ x.req = .rdX ∨ x.req = .rdNa) :
    exec (.data pos line) s = .next (s.settle line pos { x with value := some (s.sramLine line) }) := by
  refine congrArg Host.Outcome.next ?_
  have hq' : (x.req == .rdS || x.req == .rdX || x.req == .rdNa) = true := by simpa [or_assoc] using hq
  unfold cohData
  simp only [hx, hr, hq', Bool.and_self, if_true]

theorem exec_done_upg {s : State} {line pos : Nat} {x : CohTxn} (hx : s.txn line pos = some x) (hr : x.ready = true) (hq : x.req = .upg) :
    exec (.done pos line) s = .next (s.settle line pos { x with value := some [] }) := by
  refine congrArg Host.Outcome.next ?_
  unfold cohDone
  simp only [hx, hr, hq, Bool.not_true, Bool.false_eq_true, if_false, if_true]

theorem exec_done_wrNa {s : State} {line pos : Nat} {x : CohTxn} (hx : s.txn line pos = some x) (hr : x.ready = true) (hq : x.req = .wrNa) :
    exec (.done pos line) s =
      .next ((s.homeWrite line (x.merge (s.sramLine line))).settle line pos { x with value := some [] }) := by
  refine congrArg Host.Outcome.next ?_
  unfold cohDone
  simp only [hx, hr, hq, Bool.not_true, Bool.false_eq_true, if_false, if_true, reduceCtorEq]

/-! Lines of the control SRAM. -/

/-- A line written to the SRAM reads back, and no byte outside it changes. -/
theorem State.homeWrite_bytes {s : State} (h : Memory.wf s.coh.sram = true) (line : Nat) (d : Bytes) :
    (∀ i, i < lineBytes → memGet (s.homeWrite line d).coh.sram (line * lineBytes + i) = (padTo lineBytes d).getD i 0) ∧
      (∀ a, (a < line * lineBytes ∨ line * lineBytes + lineBytes ≤ a) →
        memGet (s.homeWrite line d).coh.sram a = memGet s.coh.sram a) := by
  have hlen : (padTo lineBytes d).length = lineBytes := length_slice _ _ _
  exact ⟨fun i hi => memGet_memWrite_getD h _ _ (hlen.symm ▸ hi), fun a ha => memGet_write_outside _ _ _ a h (hlen.symm ▸ ha)⟩

theorem getD_padTo {n i : Nat} (d : Bytes) (h : i < n) : (padTo n d).getD i 0 = d.getD i 0 := by
  rw [padTo, slice]
  rw [List.drop_zero, List.getD_eq_getElem?_getD, List.getD_eq_getElem?_getD]
  by_cases hd : i < d.length
  · rw [List.getElem?_append_left (by rw [List.length_take]; omega), List.getElem?_take_of_lt h]
  · have hge : (List.take n d).length ≤ i := by
      rw [List.length_take]
      omega
    rw [List.getElem?_append_right hge, List.getElem?_replicate, List.getElem?_eq_none (by omega : d.length ≤ i)]
    split <;> rfl

theorem CohTxn.getD_merge (x : CohTxn) (old : Bytes) {i : Nat} (h : i < lineBytes) :
    (x.merge old).getD i 0 = if bit x.mask i then x.data.getD i 0 else old.getD i 0 := by
  simp [CohTxn.merge, h]

theorem State.onlyChanges_homeWrite (s : State) (line : Nat) (d : Bytes) : s.onlyChanges (s.homeWrite line d) [.coh] := by
  simp [State.onlyChanges_iff, State.homeWrite]

/-! Write-backs. -/

/-- The write-back that a snoop asked for: the line is home, and its request goes on. -/
theorem exec_wb_asked {s : State} {line pos q : Nat} {x : CohTxn} (hpos : pos < 10) (d : Bytes) (h : s.coh.txns = [(cohKey line pos, x)])
    (hq : x.wbFrom = some q) :
    exec (.wb q line d) s = .next (((s.homeWrite line d).bump Reg.COH_CNT_WB).putTxn line pos { x with wbFrom := none }) := by
  have hline : cohKey line pos / 16 = line := by unfold cohKey; omega
  have hat : cohKey line pos % 16 = pos := by unfold cohKey; omega
  refine congrArg Host.Outcome.next ?_
  unfold wb
  simp only [h, List.find?_cons, hline, hq, beq_self_eq_true, Bool.and_self, hat]

/-- A write-back of a line without a request ends its holder's copy. -/
theorem exec_wb_unasked {s : State} {line pos l q : Nat} {x : CohTxn} (hpos : pos < 10) (d : Bytes) (h : s.coh.txns = [(cohKey line pos, x)])
    (hl : l ≠ line) (hm : s.copyAt l q = cohM) :
    exec (.wb q l d) s = .next (((s.homeWrite l d).setCopy l q cohI).bump Reg.COH_CNT_WB) := by
  have hline : cohKey line pos / 16 = line := by unfold cohKey; omega
  have hne : (line == l) = false := by simpa using fun e => hl e.symm
  refine congrArg Host.Outcome.next ?_
  unfold wb
  simp only [h, List.find?_cons, List.find?_nil, hline, hne, Bool.false_and, hm, beq_self_eq_true, if_true]

/-! A request issued again. -/

theorem State.onlyChanges_foldl_setCopy (line : Nat) (f : State → Nat → Nat) (ps : List Nat) (s : State) :
    s.onlyChanges (ps.foldl (fun s p => s.setCopy line p (f s p)) s) [.coh] := by
  induction ps generalizing s with
  | nil => exact s.onlyChanges_refl _
  | cons p ps ih => exact State.onlyChanges_trans (s.onlyChanges_setCopy _ _ _) (ih _)

/-- The copies change under a snoop, the other parts of the domain do not. -/
theorem State.credits_foldl_setCopy (line : Nat) (f : State → Nat → Nat) (ps : List Nat) (s : State) :
    (ps.foldl (fun s p => s.setCopy line p (f s p)) s).coh.credits = s.coh.credits := by
  induction ps generalizing s with
  | nil => rfl
  | cons p ps ih => exact ih _

theorem Tab.find?_mapVals {α : Type} (t : Tab α) (f : Nat → α → α) (i : Nat) : Tab.find? (Tab.mapVals t f) i = (Tab.find? t i).map (f i) := by
  induction t with
  | nil => rfl
  | cons p t ih =>
    obtain ⟨k, v⟩ := p
    by_cases hk : k = i
    · subst hk
      simp [Tab.mapVals, Tab.find?]
    · simpa [Tab.mapVals, Tab.find?, hk] using ih

/-- A request taken by its owner: its line is busy with it, and its credit is used. -/
theorem State.serve_effect (s : State) {line pos : Nat} (x : CohTxn) (hc : Tab.getD s.coh.credits line [] = [pos]) :
    (∃ y, (s.serve line pos x).txn line pos = some y ∧ y.retried = false ∧ y.answered = false) ∧
      Tab.find? (s.serve line pos x).coh.busy line = some pos ∧ Tab.getD (s.serve line pos x).coh.credits line [] = [] ∧
      s.onlyChanges (s.serve line pos x) [.coh] := by
  have hsnoop := State.onlyChanges_foldl_setCopy line (fun s p => snooped x.req (s.copyAt line p)) (snoopSet x.req pos) s
  have hcred := State.credits_foldl_setCopy line (fun s p => snooped x.req (s.copyAt line p)) (snoopSet x.req pos) s
  refine ⟨⟨_, State.txn_putTxn_self _ _ _ _, rfl, rfl⟩, ?_, ?_, ?_⟩
  · simp [State.serve, State.putTxn]
  · have hone : Tab.find? s.coh.credits line = some [pos] := by
      unfold Tab.getD at hc
      cases h : Tab.find? s.coh.credits line with
      | none => simp [h] at hc
      | some ps => simpa [h] using hc
    simp only [State.serve, State.putTxn, State.upCoh_coh, Tab.getD, Tab.find?_mapVals, hcred, hone]
    simp
  · refine (State.onlyChanges_trans hsnoop ?_).andThen (State.onlyChanges_putTxn _ _ _ _)
    simp [State.onlyChanges_iff]

/-- A request with the line's only credit goes ahead on a free line. -/
theorem exec_cohReissue_credit {s : State} {line pos : Nat} {x : CohTxn} (hx : s.txn line pos = some x) (hr : x.retried = true)
    (ha : x.answered = true) (hq : x.req = .rdNa) (hb : Tab.find? s.coh.busy line = none) (hc : Tab.getD s.coh.credits line [] = [pos]) :
    exec (.cohReissue pos line) s = .next (s.serve line pos { x with req := .rdNa }) := by
  refine congrArg Host.Outcome.next ?_
  unfold cohReissue State.arriveTxn
  simp [hx, hr, ha, hq, hb, hc, Tab.has]

/-- Settles O41: a request that has its response and its value closes over what it left at its requester or in the SRAM; a response or a
value alone is kept; a write-back puts its line into the SRAM; the only credit of a free line lets its request go ahead. -/
theorem coherentRequestsComplete : Obligations.CoherentRequestsComplete := by
  unfold Obligations.CoherentRequestsComplete
  intro s pos line x hpos hx
  refine ⟨?_, ?_, ?_, ?_, ?_, ?_, ?_⟩
  · intro ha hv
    exact ⟨_, exec_snoopResponse_first hx ha hv, s.txn_putTxn_self _ _ _, rfl, s.onlyChanges_putTxn _ _ _⟩
  · intro hr ha
    refine ⟨?_, ?_, ?_, ?_, ?_⟩
    · intro hq
      have hsettle : s.settle line pos { x with value := some (s.sramLine line) } =
          (s.setCopy line pos (if x.shared then cohS else cohE)).txnDone line pos { x with value := some (s.sramLine line) } := by
        simp only [State.settle, ha, hq]
      obtain ⟨hcopy, htxn, hsram, hframe⟩ := s.copied_effect line pos (if x.shared then cohS else cohE)
        { x with value := some (s.sramLine line) }
      exact ⟨_, (exec_data hx hr (.inl hq)).trans (congrArg Host.Outcome.next hsettle), hcopy, htxn, State.busy_txnDone _ _ _ _, hsram,
        State.cntTxn_txnDone _ _ _ _ hq, hframe⟩
    · intro hq
      have hsettle : s.settle line pos { x with value := some (s.sramLine line) } =
          (s.setCopy line pos cohM).txnDone line pos { x with value := some (s.sramLine line) } := by
        simp only [State.settle, ha, hq]
      obtain ⟨hcopy, htxn, -, hframe⟩ := s.copied_effect line pos cohM { x with value := some (s.sramLine line) }
      exact ⟨_, (exec_data hx hr (.inr (.inl hq))).trans (congrArg Host.Outcome.next hsettle), hcopy, htxn, hframe⟩
    · intro hq
      have hsettle : s.settle line pos { x with value := some (s.sramLine line) } =
          (s.upCoh fun c => { c with reads := Tab.put c.reads pos (s.sramLine line) }).txnDone line pos
            { x with value := some (s.sramLine line) } := by
        simp only [State.settle, ha, hq]
      refine ⟨_, (exec_data hx hr (.inr (.inr hq))).trans (congrArg Host.Outcome.next hsettle), ?_, ?_, State.txn_txnDone _ _ _ _, ?_⟩
      · rw [State.reads_txnDone]
        exact Tab.find?_put_self _ _ _
      · rw [State.copies_txnDone]
        rfl
      · refine State.onlyChanges_trans ?_ (State.txnDone_effect _ _ _ _).2
        simp [State.onlyChanges_iff]
    · intro hq
      have hsettle : s.settle line pos { x with value := some [] } =
          (s.setCopy line pos cohM).txnDone line pos { x with value := some [] } := by
        simp only [State.settle, ha, hq]
      exact ⟨_, (exec_done_upg hx hr hq).trans (congrArg Host.Outcome.next hsettle), s.copied_effect line pos cohM { x with value := some [] }⟩
    · intro hq hwf
      obtain ⟨hin, hout⟩ := State.homeWrite_bytes hwf line (x.merge (s.sramLine line))
      have hsettle : (s.homeWrite line (x.merge (s.sramLine line))).settle line pos { x with value := some [] } =
          (s.homeWrite line (x.merge (s.sramLine line))).txnDone line pos { x with value := some [] } := by
        simp only [State.settle, ha, hq]
      refine ⟨_, (exec_done_wrNa hx hr hq).trans (congrArg Host.Outcome.next hsettle), State.txn_txnDone _ _ _ _, ?_, ?_, ?_, ?_⟩
      · intro i hi
        rw [State.sram_txnDone, hin i hi, getD_padTo _ hi, CohTxn.getD_merge _ _ hi]
      · intro a h
        rw [State.sram_txnDone, hout a h]
      · rw [State.copies_txnDone]
        rfl
      · exact State.onlyChanges_trans (State.onlyChanges_mono (s.onlyChanges_homeWrite _ _) (by decide)) (State.txnDone_effect _ _ _ _).2
  · intro hr ha hq
    have hsettle : s.settle line pos { x with value := some (s.sramLine line) } =
        s.putTxn line pos { x with value := some (s.sramLine line) } := by
      simp only [State.settle, ha]
    exact ⟨_, (exec_data hx hr (.inl hq)).trans (congrArg Host.Outcome.next hsettle), s.txn_putTxn_self _ _ _, rfl,
      s.onlyChanges_putTxn _ _ _⟩
  · intro hr ha hq hb hc
    obtain ⟨⟨y, hy, hyr, hya⟩, hbusy, hcred, hframe⟩ := s.serve_effect { x with req := .rdNa } hc
    exact ⟨_, y, exec_cohReissue_credit hx hr ha hq hb hc, hy, hyr, hya, hbusy, hcred, hframe⟩
  · intro q d htx hq hwf
    refine ⟨_, exec_wb_asked hpos d htx hq, State.txn_putTxn_self _ _ _ _, (s.homeWrite_bytes hwf line d).1, ?_, ?_⟩
    · exact State.rd_bump_self (s.homeWrite line d) _ _ _ _ (by decide)
    · exact ((State.onlyChanges_mono (s.onlyChanges_homeWrite line d) (by decide)).andThen
        (State.onlyChanges_bump _ Reg.COH_CNT_WB 0 0 1 (ps := [.regs]) (by decide))).andThen (State.onlyChanges_putTxn _ _ _ _)
  · intro q d l htx hl hq hm
    refine ⟨_, exec_wb_unasked hpos d htx hl hm, State.copyAt_setCopy_self _ _ _ _, rfl, ?_⟩
    exact ((State.onlyChanges_mono (s.onlyChanges_homeWrite l d) (by decide)).andThen (State.onlyChanges_setCopy _ _ _ _)).andThen
      (State.onlyChanges_bump _ Reg.COH_CNT_WB 0 0 1 (ps := [.regs]) (by decide))
  · intro a h hlt
    refine ⟨s.cohLineOp, congrArg Host.Outcome.next (State.window_admitted h _), ?_, ?_, ?_⟩
    · rw [State.cohLineOp, if_pos hlt]
      exact s.rd_wr_self _ _ _ _ (by decide)
    · exact s.onlyChanges_wr _ _ _ _ (by decide)
    · exact s.regsKept_wr _ _ _ _ (by simp)

end Sys2Proof.Machine
end

section
/-!
PROOF. Exactness (R167, R169, R181).  Entering two inputs in either order gives one accumulator; entering an input into a partial and merging
gives what merging and then entering it does.  Both statements follow along the list of inputs.
-/
namespace Sys2Proof.Machine

/-- Whether a finite input takes the place of a MIN's or a MAX's element. -/
def beats (op : Nat) (v a : Int) : Bool := if op = rMIN then decide (v < a) else decide (a < v)

theorem Accum.enter_fin_sum (x : Accum) (v : Int) : x.enter rSUM (.fin v) = { x with a := x.a + v, nofin := false } :=
  rfl

theorem Accum.enter_fin_select {op : Nat} (h : op ≠ rSUM) (x : Accum) (v : Int) :
    x.enter op (.fin v) = if x.nofin || beats op v x.a then { x with a := v, nofin := false } else x := if_neg h

theorem Accum.enter_pinf (op : Nat) (x : Accum) : x.enter op .pinf = { x with pos := true } := rfl
theorem Accum.enter_ninf (op : Nat) (x : Accum) : x.enter op .ninf = { x with neg := true } := rfl
theorem Accum.enter_nan (op : Nat) (x : Accum) : x.enter op .nan = { x with nan := true } := rfl

/-- Of two finite inputs one beats the other, or they are the same; and beating is an order. -/
theorem beats_rules (op : Nat) (u v w : Int) :
    (beats op u v = false → beats op v u = false → u = v) ∧ (beats op u v = true → beats op v u = false) ∧
      (beats op u v = true → beats op v w = true → beats op u w = true) ∧
      (beats op u w = true → beats op v w = false → beats op u v = true) := by
  unfold beats
  split <;> simp only [decide_eq_true_eq, decide_eq_false_iff_not] <;> omega

/-- Two finite inputs of a selection in either order. -/
theorem Accum.enter_select_comm {op : Nat} (h : op ≠ rSUM) (x : Accum) (v w : Int) :
    (x.enter op (.fin v)).enter op (.fin w) = (x.enter op (.fin w)).enter op (.fin v) := by
  obtain ⟨hsame, hasymm, -, -⟩ := beats_rules op v w x.a
  obtain ⟨-, -, htv, hlv⟩ := beats_rules op v w x.a
  obtain ⟨-, -, htw, hlw⟩ := beats_rules op w v x.a
  have hasymm' := (beats_rules op w v x.a).2.1
  simp only [Accum.enter_fin_select h]
  cases hn : x.nofin <;> cases hv : beats op v x.a <;> cases hw : beats op w x.a <;>
    cases hvw : beats op v w <;> cases hwv : beats op w v <;> simp_all

/-- Two inputs in either order. -/
theorem Accum.enter_comm (op : Nat) (x : Accum) (m n : Num) : (x.enter op m).enter op n = (x.enter op n).enter op m := by
  by_cases hs : op = rSUM
  · subst hs
    cases m <;> cases n <;> simp only [Accum.enter, if_true, Accum.mk.injEq, and_self, and_true]
    omega
  · cases m with
    | fin v =>
      cases n with
      | fin w => exact x.enter_select_comm hs v w
      | pinf | ninf | nan =>
        simp only [Accum.enter_fin_select hs, Accum.enter_pinf, Accum.enter_ninf, Accum.enter_nan]
        cases x.nofin || beats op v x.a <;> rfl
    | pinf | ninf | nan =>
      cases n with
      | fin w =>
        simp only [Accum.enter_fin_select hs, Accum.enter_pinf, Accum.enter_ninf, Accum.enter_nan]
        cases x.nofin || beats op w x.a <;> rfl
      | pinf | ninf | nan => rfl

/-- An accumulator that no finite input has entered is at 0. -/
def Accum.startsAtZero (x : Accum) : Prop := x.nofin = true → x.a = 0

theorem Accum.startsAtZero_enter {op : Nat} {y : Accum} (h : y.startsAtZero) (n : Num) : (y.enter op n).startsAtZero := by
  cases n with
  | fin v =>
    by_cases hs : op = rSUM
    · subst hs
      rw [y.enter_fin_sum]
      exact nofun
    · rw [y.enter_fin_select hs]
      split
      · exact nofun
      · exact h
  | pinf | ninf | nan => exact h

/-- The specials of a partial taken up. -/
def Accum.specials (x y : Accum) : Accum := { x with nan := x.nan || y.nan, pos := x.pos || y.pos, neg := x.neg || y.neg }

theorem Accum.merge_of_nofin (op : Nat) (x : Accum) {y : Accum} (h : y.nofin = true) : x.merge op y = x.specials y := if_pos h

theorem Accum.merge_of_fin (op : Nat) (x : Accum) {y : Accum} (h : y.nofin = false) : x.merge op y = (x.specials y).enter op (.fin y.a) :=
  if_neg (by simp [h])

/-- A special input enters a partial before the merge or the accumulator after it. -/
theorem Accum.merge_enter_fin (op : Nat) (x : Accum) {y : Accum} (h : y.startsAtZero) (v : Int) :
    x.merge op (y.enter op (.fin v)) = (x.merge op y).enter op (.fin v) := by
  by_cases hs : op = rSUM
  · subst hs
    rw [y.enter_fin_sum, Accum.merge_of_fin _ _ rfl]
    cases hn : y.nofin with
    | true =>
      rw [Accum.merge_of_nofin _ _ hn, h hn, Int.zero_add]
      rfl
    | false =>
      rw [Accum.merge_of_fin _ _ hn]
      simp only [Accum.enter_fin_sum, Accum.specials, Accum.mk.injEq, and_true]
      omega
  · cases hn : y.nofin with
    | true =>
      rw [y.enter_fin_select hs, hn, Bool.true_or, if_pos rfl, Accum.merge_of_nofin _ _ hn, Accum.merge_of_fin _ _ rfl]
      rfl
    | false =>
      obtain ⟨-, -, htrans, hleft⟩ := beats_rules op v y.a x.a
      rw [y.enter_fin_select hs, hn, Bool.false_or, Accum.merge_of_fin _ _ hn]
      cases hb : beats op v y.a with
      | true =>
        rw [if_pos rfl, Accum.merge_of_fin _ _ rfl]
        simp only [Accum.enter_fin_select hs, Accum.specials]
        cases hx : x.nofin <;> cases hy : beats op y.a x.a <;> cases hv : beats op v x.a <;> simp_all
      | false =>
        rw [if_neg (by simp), Accum.merge_of_fin _ _ hn]
        simp only [Accum.enter_fin_select hs, Accum.specials]
        cases hx : x.nofin <;> cases hy : beats op y.a x.a <;> cases hv : beats op v x.a <;> simp_all

/-- An input that is no finite one. -/
def Num.special (n : Num) : Prop := ∀ v, n ≠ .fin v

theorem Accum.specials_enter (op : Nat) (x y : Accum) {n : Num} (h : n.special) : x.specials (y.enter op n) = (x.specials y).enter op n := by
  cases n with
  | fin v => exact absurd rfl (h v)
  | pinf | ninf | nan => simp [Accum.enter, Accum.specials]

/-- A special input changes no element. -/
theorem Accum.enter_special (op : Nat) (y : Accum) {n : Num} (h : n.special) : (y.enter op n).nofin = y.nofin ∧ (y.enter op n).a = y.a := by
  cases n with
  | fin v => exact absurd rfl (h v)
  | pinf | ninf | nan => exact ⟨rfl, rfl⟩

theorem Accum.merge_enter_special (op : Nat) (x y : Accum) {n : Num} (h : n.special) :
    x.merge op (y.enter op n) = (x.merge op y).enter op n := by
  obtain ⟨hno, ha⟩ := y.enter_special op h
  cases hn : y.nofin with
  | true => rw [Accum.merge_of_nofin _ _ hn, Accum.merge_of_nofin _ _ (hno.trans hn), Accum.specials_enter _ _ _ h]
  | false =>
    rw [Accum.merge_of_fin _ _ hn, Accum.merge_of_fin _ _ (hno.trans hn), Accum.specials_enter _ _ _ h, ha]
    exact Accum.enter_comm _ _ _ _

theorem Accum.merge_enter (op : Nat) (x : Accum) {y : Accum} (h : y.startsAtZero) (n : Num) :
    x.merge op (y.enter op n) = (x.merge op y).enter op n := by
  cases n with
  | fin v => exact x.merge_enter_fin op h v
  | pinf | ninf | nan => exact x.merge_enter_special op y nofun

/-- Entering into a partial and merging is entering one by one. -/
theorem Accum.merge_foldl_enter (op : Nat) (x : Accum) (ns : List Num) {y : Accum} (h : y.startsAtZero) :
    x.merge op (ns.foldl (Accum.enter op) y) = ns.foldl (Accum.enter op) (x.merge op y) := by
  induction ns generalizing y with
  | nil => rfl
  | cons n ns ih => rw [List.foldl_cons, List.foldl_cons, ih (Accum.startsAtZero_enter h n), x.merge_enter op h]

theorem Accum.merge_empty (op : Nat) (x : Accum) : x.merge op {} = x := by
  rw [Accum.merge_of_nofin _ _ rfl]
  simp [Accum.specials]

/-- Settles O28: inputs commute, and a partial is merged as its inputs would have entered. -/
theorem reductionsDoNotDependOnOrderOrTree : Obligations.ReductionsDoNotDependOnOrderOrTree := by
  unfold Obligations.ReductionsDoNotDependOnOrderOrTree
  intro op x xs ys
  refine ⟨fun h => h.foldl_eq' (fun m _ n _ z => z.enter_comm op m n) x, ?_⟩
  rw [x.merge_foldl_enter op ys (fun _ => rfl), x.merge_empty]

end Sys2Proof.Machine
end

section
/-!
PROOF. TOPK (R208).  The selection is kept in the order of key and ROWID; the invariant says of every row seen so far that it is selected, or
that the selection is full and holds nothing after it.
-/
namespace Sys2Proof.Machine

/-- An entry of a selection: key, ROWID and what is emitted. -/
abbrev TopEntry := Int × Nat × Bytes

/-- The order of a selection, by key and then ROWID. -/
def TopEntry.le (a b : TopEntry) : Prop := a.1 < b.1 ∨ (a.1 = b.1 ∧ a.2.1 ≤ b.2.1)

theorem TopEntry.le_trans {a b c : TopEntry} (h : a.le b) (k : b.le c) : a.le c := by
  unfold TopEntry.le at *
  omega

/-- Whether an entry comes strictly before another. -/
def TopEntry.before (x y : TopEntry) : Bool := y.1 < x.1 || (y.1 == x.1 && decide (y.2.1 < x.2.1))

theorem TopEntry.le_of_before {x y : TopEntry} (h : x.before y = true) : y.le x := by
  simp only [TopEntry.before, Bool.or_eq_true, Bool.and_eq_true, decide_eq_true_eq, beq_iff_eq] at h
  unfold TopEntry.le
  omega

theorem TopEntry.le_of_not_before {x y : TopEntry} (h : x.before y = false) : x.le y := by
  simp only [TopEntry.before, Bool.or_eq_false_iff, Bool.and_eq_false_iff, decide_eq_false_iff_not, beq_eq_false_iff_ne] at h
  unfold TopEntry.le
  omega

/-- The list into which an entry is inserted, before it is cut. -/
def TopEntry.placed (x : TopEntry) (l : List TopEntry) : List TopEntry := l.takeWhile x.before ++ x :: l.dropWhile x.before

theorem topInsert_eq (k : Nat) (x : TopEntry) (l : List TopEntry) : topInsert k x l = (x.placed l).take k := by
  have hdrop : l.drop (l.takeWhile x.before).length = l.dropWhile x.before := by
    have := List.drop_left (l₁ := l.takeWhile x.before) (l₂ := l.dropWhile x.before)
    rwa [List.takeWhile_append_dropWhile] at this
  exact congrArg (fun t => (l.takeWhile x.before ++ x :: t).take k) hdrop

theorem TopEntry.mem_placed {x y : TopEntry} {l : List TopEntry} : y ∈ x.placed l ↔ y = x ∨ y ∈ l := by
  conv => rhs; rw [← List.takeWhile_append_dropWhile (p := x.before) (l := l)]
  simp only [TopEntry.placed, List.mem_append, List.mem_cons]
  exact or_left_comm

theorem TopEntry.length_placed (x : TopEntry) (l : List TopEntry) : (x.placed l).length = l.length + 1 := by
  have := congrArg List.length (List.takeWhile_append_dropWhile (p := x.before) (l := l))
  simp only [List.length_append] at this
  simp only [TopEntry.placed, List.length_append, List.length_cons]
  omega

/-- In a list in order nothing after the place of an entry comes before it. -/
theorem TopEntry.le_of_mem_dropWhile {x y : TopEntry} {l : List TopEntry} (hl : l.Pairwise TopEntry.le) (hy : y ∈ l.dropWhile x.before) :
    x.le y := by
  cases hd : l.dropWhile x.before with
  | nil => simp [hd] at hy
  | cons z t =>
    have hz : x.before z = false := by
      have := List.head_dropWhile_not (l := l) x.before (by simp [hd])
      simpa [hd] using this
    have hsorted := hl.sublist (List.dropWhile_sublist (l := l) x.before)
    rw [hd] at hy hsorted
    rcases List.mem_cons.mp hy with rfl | hyt
    · exact TopEntry.le_of_not_before hz
    · exact TopEntry.le_trans (TopEntry.le_of_not_before hz) (List.rel_of_pairwise_cons hsorted hyt)

theorem TopEntry.before_of_mem_takeWhile {x y : TopEntry} {l : List TopEntry} (h : y ∈ l.takeWhile x.before) : x.before y = true :=
  List.all_eq_true.mp List.all_takeWhile y h

theorem TopEntry.sorted_placed {x : TopEntry} {l : List TopEntry} (hl : l.Pairwise TopEntry.le) : (x.placed l).Pairwise TopEntry.le := by
  have hbefore : ∀ y ∈ l.takeWhile x.before, y.le x := fun y hy => TopEntry.le_of_before (TopEntry.before_of_mem_takeWhile hy)
  have hafter : ∀ y ∈ l.dropWhile x.before, x.le y := fun y hy => TopEntry.le_of_mem_dropWhile hl hy
  refine List.pairwise_append.mpr ⟨hl.sublist (List.takeWhile_sublist _),
    List.pairwise_cons.mpr ⟨hafter, hl.sublist (List.dropWhile_sublist _)⟩, ?_⟩
  intro a ha b hb
  rcases List.mem_cons.mp hb with rfl | hb
  · exact hbefore a ha
  · exact TopEntry.le_trans (hbefore a ha) (hafter b hb)

/-- The selection of at most `K` of the entries seen. -/
structure TopSelects (K : Nat) (seen l : List TopEntry) : Prop where
  length_le : l.length ≤ K
  sorted : l.Pairwise TopEntry.le
  mem_seen : ∀ y ∈ l, y ∈ seen
  covers : ∀ x ∈ seen, x ∈ l ∨ (l.length = K ∧ ∀ y ∈ l, y.le x)

/-- Every entry of a list in order is among the first `K`, or these are `K` and none comes after it. -/
theorem TopEntry.mem_take_or {K : Nat} {z : TopEntry} {l : List TopEntry} (hl : l.Pairwise TopEntry.le) (hz : z ∈ l) :
    z ∈ l.take K ∨ ((l.take K).length = K ∧ ∀ y ∈ l.take K, y.le z) := by
  rw [← List.take_append_drop K l] at hz hl
  rcases List.mem_append.mp hz with h | h
  · exact .inl h
  · have hlen : K < l.length := by
      have := List.length_pos_of_mem h
      rw [List.length_drop] at this
      omega
    exact .inr ⟨by rw [List.length_take]; omega, fun y hy => (List.pairwise_append.mp hl).2.2 y hy z h⟩

/-- An entry that a full selection passed over is still not before any of it when one more is inserted. -/
theorem TopEntry.le_after_insert {K : Nat} {x z : TopEntry} {l : List TopEntry} (hl : l.Pairwise TopEntry.le) (hlen : l.length = K)
    (hz : ∀ y ∈ l, y.le z) : ∀ y ∈ (x.placed l).take K, y.le z := by
  intro y hy
  rcases TopEntry.mem_placed.mp (List.mem_of_mem_take hy) with rfl | h
  · cases hd : l.dropWhile y.before with
    | nil =>
      have htake : l.takeWhile y.before = l := by
        have := List.takeWhile_append_dropWhile (p := y.before) (l := l)
        rwa [hd, List.append_nil] at this
      rw [TopEntry.placed, htake, ← hlen, List.take_left] at hy
      exact hz y hy
    | cons w t =>
      have hw : w ∈ l.dropWhile y.before := by simp [hd]
      exact TopEntry.le_trans (TopEntry.le_of_mem_dropWhile hl hw) (hz w ((List.dropWhile_sublist _).subset hw))
  · exact hz y h

/-- One more entry seen. -/
theorem TopSelects.insert {K : Nat} {seen l : List TopEntry} (h : TopSelects K seen l) (x : TopEntry) :
    TopSelects K (seen ++ [x]) (topInsert K x l) := by
  have hsorted := TopEntry.sorted_placed (x := x) h.sorted
  have hlenp := x.length_placed l
  rw [topInsert_eq]
  refine ⟨by rw [List.length_take]; omega, hsorted.sublist (List.take_sublist _ _), ?_, ?_⟩
  · intro y hy
    rcases TopEntry.mem_placed.mp (List.mem_of_mem_take hy) with rfl | hyl
    · simp
    · exact List.mem_append_left _ (h.mem_seen y hyl)
  · intro z hz
    have hcases : z ∈ x.placed l ∨ (l.length = K ∧ ∀ y ∈ l, y.le z) := by
      rcases List.mem_append.mp hz with hs | hx
      · exact (h.covers z hs).imp_left fun hm => TopEntry.mem_placed.mpr (.inr hm)
      · exact .inl (TopEntry.mem_placed.mpr (.inl (List.mem_singleton.mp hx)))
    rcases hcases with hin | ⟨hlen, hall⟩
    · exact TopEntry.mem_take_or hsorted hin
    · exact .inr ⟨by rw [List.length_take]; omega, TopEntry.le_after_insert h.sorted hlen hall⟩

/-- The entry of a row, unless its key is a NaN. -/
def topEntry (g : Stage) (r : Row) : Option TopEntry :=
  (fieldKey (fld g.body 2 1) (fld r.data (fld g.body 0 2) (ftSize (fld g.body 2 1)))).map fun v =>
    ((if fld g.body 3 1 = 0 then -v else v), r.id, emitRow g.emit r)

theorem topFold_cons (g : Stage) (l : List TopEntry) (r : Row) (rows : List Row) : topFold g l (r :: rows) =
    topFold g ((topEntry g r).elim l fun x => topInsert (fld g.body 4 2) x l) rows := by
  unfold topFold topEntry
  rw [List.foldl_cons]
  dsimp only
  cases fieldKey (fld g.body 2 1) (fld r.data (fld g.body 0 2) (ftSize (fld g.body 2 1))) <;> rfl

theorem TopSelects.topFold {g : Stage} {seen l : List TopEntry} (h : TopSelects (fld g.body 4 2) seen l) (rows : List Row) :
    TopSelects (fld g.body 4 2) (seen ++ rows.filterMap (topEntry g)) (topFold g l rows) := by
  induction rows generalizing seen l with
  | nil =>
    rw [List.filterMap_nil, List.append_nil]
    exact h
  | cons r rows ih =>
    rw [topFold_cons]
    cases hr : topEntry g r with
    | none =>
      rw [List.filterMap_cons_none hr]
      exact ih h
    | some x =>
      have hone := ih (h.insert x)
      rw [List.append_assoc] at hone
      rw [List.filterMap_cons_some hr]
      exact hone

/-- Settles O30: the selection's invariant, read for the rows of a stream. -/
theorem topkSelectsTheFirstRows : Obligations.TopkSelectsTheFirstRows := by
  unfold Obligations.TopkSelectsTheFirstRows
  rintro g rows K key l rfl rfl rfl
  have hempty : TopSelects (fld g.body 4 2) [] [] := ⟨Nat.zero_le _, .nil, nofun, nofun⟩
  obtain ⟨hlen, hsorted, hseen, hcovers⟩ := hempty.topFold rows
  refine ⟨hlen, hsorted, ?_, ?_⟩
  · intro y hy
    obtain ⟨r, hr, hentry⟩ := List.mem_filterMap.mp (hseen y hy)
    obtain ⟨v, hv, rfl⟩ := Option.map_eq_some_iff.mp hentry
    exact ⟨r, hr, Option.map_eq_some_iff.mpr ⟨v, hv, rfl⟩, rfl, rfl⟩
  · intro r hr v hkey
    obtain ⟨u, hu, rfl⟩ := Option.map_eq_some_iff.mp hkey
    exact hcovers _ (List.mem_filterMap.mpr ⟨r, hr, Option.map_eq_some_iff.mpr ⟨u, hu, rfl⟩⟩)

end Sys2Proof.Machine
end

section
/-!
PROOF. Bring-up's own steps (R514): events, straps, clocks, firmware and dies touch registers, Carillon, security's own state and the record
log, and leave what the resets show, the sessions and the power as they were.
-/
namespace Sys2Proof.Machine

/-- The fields that show the kind of a reset. -/
def resetFlds : List Fld := [Reg.PWR_RST_STAT_LAST, Reg.PWR_RST_STAT_FATAL_RESTART, Reg.PWR_RST_STAT_WARMS, Reg.CLK_STAT_BOTH_LOST]

/-- The parts that bring-up's steps change. -/
def bootParts : List Part := [.regs, .car, .sec, .flt, .out, .host, .nextFree]

/-- What one of bring-up's steps keeps. -/
structure State.bootStep (s t : State) : Prop where
  parts : s.onlyChanges t bootParts
  shown : ∀ f ∈ resetFlds, t.rd f = s.rd f
  powered : t.car.powered = s.car.powered
  sessions : t.sec.sessions = s.sec.sessions

theorem State.bootStep.refl (s : State) : s.bootStep s := ⟨s.onlyChanges_refl _, fun _ _ => rfl, rfl, rfl⟩

theorem State.bootStep.trans {s t u : State} (h : s.bootStep t) (k : t.bootStep u) : s.bootStep u :=
  ⟨State.onlyChanges_trans h.parts k.parts, fun f hf => (k.shown f hf).trans (h.shown f hf), k.powered.trans h.powered,
    k.sessions.trans h.sessions⟩

/-- A write of a field that shows no reset. -/
theorem State.bootStep_wr (s : State) (f : Fld) (v : Nat) (h : (resetFlds.all fun g => g.separate f) = true := by decide) :
    s.bootStep (s.wr f v) :=
  ⟨s.onlyChanges_wr _ _ _ _ (by decide), fun g hg => s.rd_wr_separate _ _ _ _ (List.all_eq_true.mp h g hg) _ _, rfl, rfl⟩

theorem State.bootStep_wrb (s : State) (f : Fld) (b : Bool) (h : (resetFlds.all fun g => g.separate f) = true := by decide) :
    s.bootStep (s.wrb f b) := s.bootStep_wr f _ h

/-- A change of Carillon's state that keeps the power. -/
theorem State.bootStep_upCar (s : State) (g : CarState → CarState) (h : (g s.car).powered = s.car.powered) : s.bootStep (s.upCar g) :=
  ⟨s.onlyChanges_upCar g (by decide), fun _ _ => rfl, h, rfl⟩

theorem State.bootStep_upFw (s : State) (g : FwState → FwState) : s.bootStep (s.upFw g) := s.bootStep_upCar _ rfl

/-- A change of security's state that keeps the sessions. -/
theorem State.bootStep_upSec (s : State) (g : SecState → SecState) (h : (g s.sec).sessions = s.sec.sessions) : s.bootStep (s.upSec g) :=
  ⟨by simp [State.onlyChanges_iff, State.upSec, bootParts], fun _ _ => rfl, rfl, h⟩

/-- A step that only reports. -/
theorem State.bootStep_reports {s t : State} (h : s.reportsOnly t) : s.bootStep t := by
  have hkeys : ∀ f ∈ resetFlds, f.key 0 0 ∉ recordKeys := by decide
  obtain ⟨hparts, hregs⟩ := h
  exact ⟨State.onlyChanges_mono hparts (by decide), fun f hf => hregs f 0 0 (hkeys f hf), congrArg CarState.powered (hparts .car (by decide)),
    congrArg SecState.sessions (hparts .sec (by decide))⟩

theorem State.bootStep_foldl {α : Type} (f : State → α → State) (h : ∀ (s : State) (x : α), s.bootStep (f s x)) (l : List α) (s : State) :
    s.bootStep (l.foldl f s) := by
  induction l generalizing s with
  | nil => exact .refl s
  | cons x l ih => exact (h s x).trans (ih _)

theorem State.bootStep_refEvent (s : State) (i what : Nat) : s.bootStep (s.refEvent i what) := State.bootStep_reports (s.reportsOnly_event _)

theorem State.bootStep_setRef (s : State) (i : Nat) (ok : Bool) : s.bootStep (s.setRef i ok) := by
  unfold State.setRef
  split
  · exact s.bootStep_wrb _ _
  · exact s.bootStep_wrb _ _

theorem State.bootStep_setPhase (s : State) (p : Nat) : s.bootStep (s.setPhase p) := s.bootStep_wr _ _

theorem State.bootStep_sampleStraps (s : State) (b : BringUp) : s.bootStep (s.sampleStraps b) :=
  ((((s.bootStep_wr _ _).trans (State.bootStep_wr _ Reg.PWR_STRAP_DEFAULTED _)).trans (State.bootStep_wrb _ Reg.CLK_CTL_PREFER _)).trans
    (State.bootStep_wrb _ Reg.DBG_TAP_MODE _)).trans
    (State.bootStep_foldl (fun (u : State) (n : Nat) => u.event { code := evSTRAP, sev := sevWARN, health := true, params := [n] })
      (fun u _ => State.bootStep_reports (u.reportsOnly_event _)) _ _)

theorem State.bootStep_diesReady (s : State) : s.bootStep s.diesReady :=
  ((((((((s.bootStep_wr _ _).trans (State.bootStep_wr _ Reg.GLB_DIE_CD_READY _)).trans (State.bootStep_wr _ Reg.GLB_DIE_XH_READY _)).trans
    (State.bootStep_wr _ Reg.GLB_DIE_MH_READY _)).trans (State.bootStep_wr _ Reg.GLB_DIE_MS_READY _)).trans
    (State.bootStep_wr _ Reg.GLB_D2D_PD_UP _)).trans (State.bootStep_wr _ Reg.GLB_D2D_CD_UP _)).trans
    (State.bootStep_wr _ Reg.GLB_D2D_MH_UP _)).trans (State.bootStep_wr _ Reg.COH_STAT_ALIVE _)

/-! Firmware. -/

theorem State.bootStep_updIdle (s : State) : s.bootStep s.updIdle := (s.bootStep_wr _ _).trans (State.bootStep_upFw _ _)

theorem State.bootStep_fwFallback (s : State) (slot cause : Nat) : s.bootStep (s.fwFallback slot cause) :=
  (s.bootStep_upFw _).trans (State.bootStep_reports (State.reportsOnly_carEvent _ _ _ _ _))

/-- The registers that show firmware that runs. -/
def State.fwShown (s : State) (slot : Nat) (i : FwInfo) : State :=
  let s := ((s.wr Reg.CAR_STAT_CP0 cpRUNNING).wr Reg.CAR_STAT_CP1 cpRUNNING).wr Reg.CAR_STAT_MERGED 0
  let s := ((s.wr Reg.CAR_STAT_RECOVERY 0).wr Reg.CAR_STAT_SLOT slot).wrb Reg.CAR_STAT_TRIAL s.car.fw.trial
  ((s.wr Reg.CAR_FW_VER_VERSION i.version).wr Reg.CAR_FW_SVN_RUN i.svn).wr Reg.CAR_FW_SVN_STAGED 0

/-- A boot counted in a deployed part. -/
def State.bootCounted (s : State) : State := if s.life = lifeDEPLOYED then s.bump Reg.CAR_BOOTS_COUNT else s

/-- The pairs started, with the boot's first record. -/
def State.pairsStarted (s : State) : State :=
  let boot := (s.rd Reg.CAR_BOOTS_COUNT, s.flt.nextEseq)
  let s := s.upCar fun c => { c with bootStarts := c.bootStarts.filter (fun b => b.2 != boot.2) ++ [boot] }
  s.upCar fun c => { c with pair0 := { kicked := s.hclk, resetAt := s.hclk }, pair1 := { kicked := s.hclk, resetAt := s.hclk } }

theorem State.fwRuns_eq (s : State) (slot : Nat) (i : FwInfo) : s.fwRuns slot i =
    (((s.upFw fun w => { w with running := some i, calmSince := s.hclk }).fwShown slot i).bootCounted).pairsStarted := rfl

theorem State.bootStep_fwShown (s : State) (slot : Nat) (i : FwInfo) : s.bootStep (s.fwShown slot i) :=
  ((((((((s.bootStep_wr _ _).trans (State.bootStep_wr _ Reg.CAR_STAT_CP1 _)).trans (State.bootStep_wr _ Reg.CAR_STAT_MERGED _)).trans
    (State.bootStep_wr _ Reg.CAR_STAT_RECOVERY _)).trans (State.bootStep_wr _ Reg.CAR_STAT_SLOT _)).trans
    (State.bootStep_wrb _ Reg.CAR_STAT_TRIAL _)).trans (State.bootStep_wr _ Reg.CAR_FW_VER_VERSION _)).trans
    (State.bootStep_wr _ Reg.CAR_FW_SVN_RUN _)).trans (State.bootStep_wr _ Reg.CAR_FW_SVN_STAGED _)

theorem State.bootStep_fwRuns (s : State) (slot : Nat) (i : FwInfo) : s.bootStep (s.fwRuns slot i) := by
  have hcount : ∀ u : State, u.bootStep u.bootCounted := by
    intro u
    unfold State.bootCounted
    split
    · exact u.bootStep_wr _ _
    · exact .refl u
  have hstart : ∀ u : State, u.bootStep u.pairsStarted := by
    intro u
    refine State.bootStep.trans (t := u.upCar fun c => { c with
      bootStarts := c.bootStarts.filter (fun b => b.2 != u.flt.nextEseq) ++ [(u.rd Reg.CAR_BOOTS_COUNT, u.flt.nextEseq)] }) ?_ ?_
    · exact u.bootStep_upCar _ rfl
    · exact State.bootStep_upCar _ (fun c => { c with pair0 := { kicked := u.hclk, resetAt := u.hclk }
                                                      pair1 := { kicked := u.hclk, resetAt := u.hclk } }) rfl
  rw [State.fwRuns_eq]
  exact (((s.bootStep_upFw _).trans (State.bootStep_fwShown _ slot i)).trans (hcount _)).trans (hstart _)

theorem State.bootStep_fwRecovery (s : State) : s.bootStep s.fwRecovery := by
  unfold State.fwRecovery
  exact ((((((s.bootStep_upFw _).trans (State.bootStep_wr _ Reg.CAR_STAT_CP0 _)).trans (State.bootStep_wr _ Reg.CAR_STAT_CP1 _)).trans
    (State.bootStep_wr _ Reg.CAR_STAT_RECOVERY _)).trans (State.bootStep_wr _ Reg.CAR_FW_VER_VERSION _)).trans
    (State.bootStep_wr _ Reg.CAR_FW_SVN_RUN _)).trans
    (State.bootStep_upCar _ (fun c => { c with pair0 := { resetAt := s.hclk } }) rfl)

/-- The slot to boot from chosen, its trial counted. -/
def State.bootTried (s : State) : State :=
  if s.car.fw.trial && decide (3 ≤ s.car.fw.tries) then s.fwFallback s.car.fw.active 1
  else if s.car.fw.trial then s.upFw fun w => { w with tries := w.tries + 1 } else s

theorem State.bootStep_bootTried (s : State) : s.bootStep s.bootTried := by
  unfold State.bootTried
  split
  · exact s.bootStep_fwFallback _ _
  · split
    · exact s.bootStep_upFw _
    · exact .refl s

/-- Boot from the active slot, else from the other, else recovery. -/
def State.bootFrom (s : State) : Bool × State :=
  let k := s.car.fw.active
  match s.verifySlot (s.car.fw.slot k) with
  | (_, some i) => (true, s.fwRuns k i)
  | _ =>
    match s.verifySlot (s.car.fw.slot (1 - k)) with
    | (_, some i) => (true, (s.fwFallback k 0).fwRuns (1 - k) i)
    | _ => (false, s.fwRecovery)

theorem State.bootFw_eq (s : State) : s.bootFw = s.updIdle.bootTried.bootFrom := rfl

theorem State.bootStep_bootFrom (s : State) : s.bootStep s.bootFrom.2 := by
  unfold State.bootFrom
  dsimp only
  split
  · exact s.bootStep_fwRuns _ _
  · split
    · exact (s.bootStep_fwFallback _ _).trans (State.bootStep_fwRuns _ _ _)
    · exact s.bootStep_fwRecovery

theorem State.bootStep_bootFw (s : State) : s.bootStep s.bootFw.2 := by
  rw [State.bootFw_eq]
  exact (s.bootStep_updIdle.trans (State.bootStep_bootTried _)).trans (State.bootStep_bootFrom _)

/-! Waiting for an image. -/

theorem State.bootStep_bump (s : State) (f : Fld) (h : (resetFlds.all fun g => g.separate f) = true := by decide) :
    s.bootStep (s.bump f) := s.bootStep_wr f _ h

theorem State.bootStep_putCustodian (s : State) (rec : Option CustRecord) : s.bootStep (s.putCustodian rec) :=
  ((((s.bootStep_upSec _ rfl).trans (State.bootStep_wr _ Reg.SEC_CUST_STATE _)).trans (State.bootStep_bump _ Reg.SEC_CUST_CHANGES)).trans
    (State.bootStep_wr _ Reg.SEC_TRNG_RESEEDS _)).trans (State.bootStep_wr _ Reg.SEC_POLICY_BITS _)

theorem State.bootStep_free (s : State) : s.bootStep s.free.2 :=
  ⟨by simp [State.onlyChanges_iff, State.free, bootParts], fun _ _ => rfl, rfl, rfl⟩

theorem State.bootStep_noteBringTime (s : State) : s.bootStep s.noteBringTime :=
  s.bootStep_free.trans (State.bootStep_wr _ Reg.PWR_BRING_TIME_US _)

theorem State.bootStep_waitImage (s : State) : s.bootStep s.waitImage := by
  unfold State.waitImage
  cases s.sec.cutOff with
  | some r => exact ((s.bootStep_putCustodian r).trans (State.bootStep_setPhase _ _)).trans (State.bootStep_noteBringTime _)
  | none =>
    exact ((s.bootStep_wr Reg.SEC_POLICY_BITS _).trans (State.bootStep_setPhase _ _)).trans (State.bootStep_noteBringTime _)

/-! From power to waiting for an image. -/

/-- Power, the reset's kind, the straps and the references. -/
def State.strapped (s : State) (b : BringUp) (last : Nat) : State :=
  let s := ((s.upCar fun c => { c with powered := true }).setPhase phROM).wr Reg.PWR_RST_STAT_LAST last
  let s := if last = 4 then (s.refEvent 0 0).refEvent 1 0 else s
  ((s.sampleStraps b).setRef 0 b.ref0).setRef 1 b.ref1

/-- The root PLL locked on the input that the straps prefer, and the entropy source tested. -/
def State.clocked (s : State) (b : BringUp) : State :=
  let prefer := s.rd Reg.CLK_CTL_PREFER
  let s := s.wr Reg.CLK_STAT_SEL (if s.refOk prefer then prefer else 1 - prefer)
  let s := if b.ref0 && b.ref1 then s.wr Reg.CLK_REF_DIFF_PPM10 b.ppm10 else s
  let s := (s.wr Reg.CLK_STAT_ROOT_LOCK 1).wr Reg.GLB_DIE_MH_READY 1
  if b.trngOk then s.wr Reg.SEC_TRNG_OK 1 else s.wr Reg.SEC_TRNG_FAIL 1

/-- The dies ready, with new memory keys and all near space free. -/
def State.memoryReady (s : State) : State :=
  let s := (s.diesReady).newMemoryKeys
  s.wr Reg.POOL_NEAR_FREE_UNITS (64 * s.groupUnits)

theorem State.powerUp_eq (s : State) (b : BringUp) (last : Nat) : s.powerUp b last =
    if !b.ref0 && !b.ref1 then s.strapped b last
    else if !((s.strapped b last).clocked b).bootFw.1 then ((s.strapped b last).clocked b).bootFw.2.setPhase phRECOVERY
    else if !b.ready then ((s.strapped b last).clocked b).bootFw.2.setPhase phDIES
    else (((s.strapped b last).clocked b).bootFw.2.memoryReady).waitImage := rfl

theorem State.bootStep_clocked (s : State) (b : BringUp) : s.bootStep (s.clocked b) := by
  have hdiff : ∀ u : State, u.bootStep (if b.ref0 && b.ref1 then u.wr Reg.CLK_REF_DIFF_PPM10 b.ppm10 else u) := by
    intro u
    split
    · exact u.bootStep_wr _ _
    · exact .refl u
  have htrng : ∀ u : State, u.bootStep (if b.trngOk then u.wr Reg.SEC_TRNG_OK 1 else u.wr Reg.SEC_TRNG_FAIL 1) := by
    intro u
    split
    · exact u.bootStep_wr _ _
    · exact u.bootStep_wr _ _
  exact ((((s.bootStep_wr Reg.CLK_STAT_SEL _).trans (hdiff _)).trans (State.bootStep_wr _ Reg.CLK_STAT_ROOT_LOCK _)).trans
    (State.bootStep_wr _ Reg.GLB_DIE_MH_READY _)).trans (htrng _)

/-- Power has come, by the kind of reset that `last` says. -/
structure State.powersUp (s t : State) (last : Nat) : Prop where
  parts : s.onlyChanges t (.near :: .tray :: bootParts)
  powered : t.car.powered = true
  last : t.rd Reg.PWR_RST_STAT_LAST = last % 2 ^ Reg.PWR_RST_STAT_LAST.width
  bothLost : t.rd Reg.CLK_STAT_BOTH_LOST = s.rd Reg.CLK_STAT_BOTH_LOST
  near : s.near = [] → t.near = []
  tray : s.tray = [] → t.tray = []

/-- One more of bring-up's steps. -/
theorem State.powersUp.andThen {s t u : State} {last : Nat} (h : s.powersUp t last) (k : t.bootStep u) : s.powersUp u last where
  parts := h.parts.andThen k.parts
  powered := k.powered.trans h.powered
  last := (k.shown _ (by decide)).trans h.last
  bothLost := (k.shown _ (by decide)).trans h.bothLost
  near hn := (k.parts .near (by decide)).trans (h.near hn)
  tray hn := (k.parts .tray (by decide)).trans (h.tray hn)

/-- New memory keys leave the tiers empty. -/
theorem State.powersUp.withKeys {s t : State} {last : Nat} (h : s.powersUp t last) : s.powersUp t.newMemoryKeys last where
  parts := h.parts.andThen (t := t) (qs := [.near, .tray, .sec, .flt]) (by simp [State.onlyChanges_iff, State.newMemoryKeys, State.upSec, State.upFlt])
  powered := h.powered
  last := h.last
  bothLost := h.bothLost
  near _ := rfl
  tray _ := rfl

theorem State.powersUp_strapped (s : State) (b : BringUp) (last : Nat) : s.powersUp (s.strapped b last) last := by
  have hon : s.powersUp (((s.upCar fun c => { c with powered := true }).setPhase phROM).wr Reg.PWR_RST_STAT_LAST last) last :=
    ⟨by simp [State.onlyChanges_iff, State.setPhase, bootParts], rfl, State.rd_wr_self _ _ _ _ _ (by decide),
      (State.rd_wr_separate _ _ _ _ _ (by decide) _ _).trans (State.rd_wr_separate _ _ _ _ _ (by decide) _ _), fun h => h, fun h => h⟩
  have hrefs : ∀ u : State, u.bootStep (if last = 4 then (u.refEvent 0 0).refEvent 1 0 else u) := by
    intro u
    split
    · exact (u.bootStep_refEvent 0 0).trans (State.bootStep_refEvent _ 1 0)
    · exact .refl u
  exact ((hon.andThen (hrefs _)).andThen (State.bootStep_sampleStraps _ b)).andThen
    ((State.bootStep_setRef _ 0 b.ref0).trans (State.bootStep_setRef _ 1 b.ref1))

theorem State.powersUp_powerUp (s : State) (b : BringUp) (last : Nat) : s.powersUp (s.powerUp b last) last := by
  have hboot := ((s.powersUp_strapped b last).andThen (State.bootStep_clocked _ b)).andThen (State.bootStep_bootFw _)
  rw [State.powerUp_eq]
  split
  · exact s.powersUp_strapped b last
  · split
    · exact hboot.andThen (State.bootStep_setPhase _ _)
    · split
      · exact hboot.andThen (State.bootStep_setPhase _ _)
      · exact ((hboot.andThen (State.bootStep_diesReady _)).withKeys.andThen (State.bootStep_wr _ Reg.POOL_NEAR_FREE_UNITS _)).andThen
          (State.bootStep_waitImage _)

end Sys2Proof.Machine
end

section
/-!
PROOF. The reference inputs (R503, R504) and the resets (R506–R508, R512, R514, R516).  A reset is a clear, whose own values are read off its
definition, and bring-up's steps after it, which keep them.
-/
namespace Sys2Proof.Machine

/-! Reference inputs. -/

theorem State.refOk_congr {s t : State} (h0 : t.rd Reg.CLK_STAT_REF0_OK = s.rd Reg.CLK_STAT_REF0_OK)
    (h1 : t.rd Reg.CLK_STAT_REF1_OK = s.rd Reg.CLK_STAT_REF1_OK) (i : Nat) : t.refOk i = s.refOk i := by
  unfold State.refOk State.on
  rw [h0, h1]

theorem State.refOk_wr (s : State) (f : Fld) (v : Nat) (h0 : Reg.CLK_STAT_REF0_OK.separate f = true)
    (h1 : Reg.CLK_STAT_REF1_OK.separate f = true) (i : Nat) : (s.wr f v).refOk i = s.refOk i :=
  State.refOk_congr (s.rd_wr_separate _ _ _ _ h0 _ _) (s.rd_wr_separate _ _ _ _ h1 _ _) i

theorem State.refOk_event (s : State) (r : Report) (i : Nat) : (s.event r).refOk i = s.refOk i :=
  State.refOk_congr (s.rd_event r _ _ _ (by decide)) (s.rd_event r _ _ _ (by decide)) i

theorem State.rd_setRef (s : State) (i : Nat) (ok : Bool) {g : Fld} (h0 : g.separate Reg.CLK_STAT_REF0_OK = true)
    (h1 : g.separate Reg.CLK_STAT_REF1_OK = true) (a b : Nat) : (s.setRef i ok).rd g a b = s.rd g a b := by
  unfold State.setRef
  split
  · exact s.rd_wr_separate _ _ _ _ h0 _ _
  · exact s.rd_wr_separate _ _ _ _ h1 _ _

theorem State.refOk_setRef_self (s : State) {i : Nat} (h : i < 2) (ok : Bool) : (s.setRef i ok).refOk i = ok := by
  have hi : i = 0 ∨ i = 1 := by omega
  rcases hi with rfl | rfl
  · cases ok <;> simp (disch := decide) only [State.setRef, State.refOk, State.on, State.wrb, State.rd_wr_self, if_true] <;> rfl
  · cases ok <;> simp (disch := decide) only [State.setRef, State.refOk, State.on, State.wrb, State.rd_wr_self, Nat.one_ne_zero, if_false] <;>
      rfl

theorem State.refOk_setRef_other (s : State) {i : Nat} (h : i < 2) (ok : Bool) : (s.setRef i ok).refOk (1 - i) = s.refOk (1 - i) := by
  have hi : i = 0 ∨ i = 1 := by omega
  rcases hi with rfl | rfl
  · simp (disch := decide) only [State.setRef, State.refOk, State.on, State.wrb, State.rd_wr_separate, if_true, Nat.sub_zero, Nat.one_ne_zero,
      if_false]
  · simp (disch := decide) only [State.setRef, State.refOk, State.on, State.wrb, State.rd_wr_separate, if_true, Nat.sub_self, Nat.one_ne_zero,
      if_false]

theorem State.onlyChanges_setRef (s : State) (i : Nat) (ok : Bool) : s.onlyChanges (s.setRef i ok) [.regs] := by
  unfold State.setRef
  split <;> exact s.onlyChanges_wr _ _ _ _ (by decide)

/-- An input found lost, with the offset no longer known. -/
def State.refGone (s : State) (i : Nat) : State := (s.setRef i false).wr Reg.CLK_REF_DIFF_PPM10 0

theorem State.refGone_effect (s : State) {i : Nat} (h : i < 2) : (s.refGone i).refOk i = false ∧
    (s.refGone i).refOk (1 - i) = s.refOk (1 - i) ∧ (s.refGone i).rd Reg.CLK_STAT_SEL = s.rd Reg.CLK_STAT_SEL ∧
    (s.refGone i).rd Reg.CLK_CNT_FAILOVER = s.rd Reg.CLK_CNT_FAILOVER ∧ s.onlyChanges (s.refGone i) [.regs] :=
  ⟨(State.refOk_wr _ _ _ (by decide) (by decide) _).trans (s.refOk_setRef_self h _),
    (State.refOk_wr _ _ _ (by decide) (by decide) _).trans (s.refOk_setRef_other h _),
    (State.rd_wr_separate _ _ _ _ _ (by decide) _ _).trans (s.rd_setRef _ _ (by decide) (by decide) _ _),
    (State.rd_wr_separate _ _ _ _ _ (by decide) _ _).trans (s.rd_setRef _ _ (by decide) (by decide) _ _),
    (s.onlyChanges_setRef _ _).andThen (State.onlyChanges_wr _ _ _ _ _ (ps := [.regs]) (by decide))⟩

/-- The loss of the selected input with the other good. -/
theorem exec_refclkLoss_failover {s : State} {i : Nat} (hi : i < 2) (hok : s.refOk i = true) (hother : s.refOk (1 - i) = true)
    (hsel : s.rd Reg.CLK_STAT_SEL = i) : exec (.refclkLoss i) s =
      .next ((((s.refGone i).wr Reg.CLK_STAT_SEL (1 - i)).bump Reg.CLK_CNT_FAILOVER).refEvent i 1) := by
  obtain ⟨-, hgone, hgsel, -, -⟩ := s.refGone_effect hi
  refine congrArg Host.Outcome.next ?_
  unfold refclkLoss
  dsimp only
  rw [Nat.mod_eq_of_lt hi, hok, if_neg (by simp)]
  show (if !(s.refGone i).refOk (1 - i) then _ else if (s.refGone i).rd Reg.CLK_STAT_SEL = i then _ else _) = _
  rw [hgone, hother, if_neg (by simp), if_pos (hgsel.trans hsel)]
  rfl

/-- The loss of the last good input. -/
theorem exec_refclkLoss_last {s : State} {i : Nat} (hi : i < 2) (hok : s.refOk i = true) (hother : s.refOk (1 - i) = false) :
    exec (.refclkLoss i) s =
      .next (((s.refGone i).refEvent i 0).upCar fun c => { c with bothLostAt := some ((s.refGone i).refEvent i 0).hclk }) := by
  obtain ⟨-, hgone, -, -, -⟩ := s.refGone_effect hi
  have hclk : ((s.refGone i).refEvent i 0).hclk = (s.refGone i).hclk := (State.reportsOnly_event _ _).1 .hclk (by decide)
  refine congrArg Host.Outcome.next ?_
  unfold refclkLoss
  dsimp only
  rw [Nat.mod_eq_of_lt hi, hok, if_neg (by simp), hclk]
  show (if !(s.refGone i).refOk (1 - i) then _ else _) = _
  rw [hgone, hother, if_pos (by simp)]
  rfl

/-- An input found good. -/
def State.refFound (s : State) (i : Nat) : State :=
  ((s.setRef i true).refEvent i 2).upCar fun c => { c with bothLostAt := none }

theorem State.onlyChanges_refFound (s : State) (i : Nat) : s.onlyChanges (s.refFound i) (.car :: recordParts) :=
  ((State.onlyChanges_mono (s.onlyChanges_setRef i true) (by decide)).andThen (State.reportsOnly_event _ _).1).andThen
    (State.onlyChanges_upCar _ (fun c => { c with bothLostAt := none }) (ps := [.car]) (by decide))

theorem State.rd_refFound (s : State) (i : Nat) {g : Fld} (h0 : g.separate Reg.CLK_STAT_REF0_OK = true)
    (h1 : g.separate Reg.CLK_STAT_REF1_OK = true) (hk : g.key 0 0 ∉ recordKeys) : (s.refFound i).rd g = s.rd g := by
  rw [State.refFound, State.rd_upCar, State.refEvent, State.rd_event _ _ _ _ _ hk, s.rd_setRef _ _ h0 h1]

/-- An input declared good, the other good too, without REVERT. -/
theorem exec_refclkGood_second {s : State} {i : Nat} (hi : i < 2) (ppm10 : Nat) (hno : s.refOk i = false) (hother : s.refOk (1 - i) = true)
    (hp : s.car.powered = true) (hr : s.on Reg.CLK_CTL_REVERT = false) :
    exec (.refclkGood i ppm10) s = .next ((s.refFound i).wr Reg.CLK_REF_DIFF_PPM10 ppm10) := by
  have hstay : ((s.refFound i).wr Reg.CLK_REF_DIFF_PPM10 ppm10).on Reg.CLK_CTL_REVERT = false := by
    rw [State.on, State.rd_wr_separate _ _ _ _ _ (by decide), s.rd_refFound i (by decide) (by decide) (by decide)]
    exact hr
  have hkept : ((s.refFound i).wr Reg.CLK_REF_DIFF_PPM10 ppm10).revertRef = (s.refFound i).wr Reg.CLK_REF_DIFF_PPM10 ppm10 := by
    unfold State.revertRef
    rw [hstay]
    rfl
  refine congrArg Host.Outcome.next ?_
  unfold refclkGood
  dsimp only
  rw [Nat.mod_eq_of_lt hi, hno, hother, hp, if_neg (by simp), if_pos rfl]
  exact hkept

/-! The register file over a reset's clear. -/

theorem Tab.find?_filter_key {α : Type} (q : Nat → Bool) (t : Tab α) {i : Nat} (h : q i = true) :
    Tab.find? (List.filter (fun e => q e.1) t) i = Tab.find? t i := by
  induction t with
  | nil => rfl
  | cons p t ih =>
    obtain ⟨k, v⟩ := p
    by_cases hk : k = i
    · subst hk
      simp [Tab.find?, h]
    · by_cases hq : q k = true
      · simpa [Tab.find?, hq, hk] using ih
      · simpa [Tab.find?, hq, hk] using ih

/-- A field whose key is one that the clear keeps reads as it did. -/
theorem State.rd_keepFields (s : State) (keep : Fld → Bool) (f : Fld)
    (h : (regTable.any fun g => g.owns (f.key 0 0) && keep g) = true) : (s.keepFields keep).rd f = s.rd f := by
  unfold State.rd State.keepFields
  rw [Tab.find?_filter_key (fun k => regTable.any fun g => g.owns k && keep g) s.regs h]

/-! Cold resets. -/

/-- A state without image, pool or work, and with empty tiers. -/
structure State.blank (s : State) : Prop where
  near : s.near = []
  tray : s.tray = []
  cfg : s.cfg = {}
  pool : s.pool = {}
  cmd : s.cmd = {}
  red : s.red = {}

theorem State.blank_powerOnClear (s : State) (cold : Bool) : (s.powerOnClear cold).blank := ⟨rfl, rfl, rfl, rfl, rfl, rfl⟩

theorem State.blank.powersUp {s t : State} {last : Nat} (h : s.blank) (k : s.powersUp t last) : t.blank :=
  ⟨k.near h.near, k.tray h.tray, (k.parts .cfg (by decide)).trans h.cfg, (k.parts .pool (by decide)).trans h.pool,
    (k.parts .cmd (by decide)).trans h.cmd, (k.parts .red (by decide)).trans h.red⟩

theorem State.onlyChanges_releasePins (s : State) : s.onlyChanges s.releasePins [.pins, .out] :=
  State.onlyChanges_trans (State.onlyChanges_trans (s.onlyChanges_drive _ _ (by decide) (by decide))
    (State.onlyChanges_drive _ _ _ (by decide) (by decide))) (State.onlyChanges_drive _ _ _ (by decide) (by decide))

theorem State.blank.of_frame {s t : State} {ps : List Part} (h : s.blank) (k : s.onlyChanges t ps)
    (hps : ∀ p ∈ [Part.near, .tray, .cfg, .pool, .cmd, .red], p ∉ ps := by decide) : t.blank :=
  ⟨(k .near (hps _ (by decide))).trans h.near, (k .tray (hps _ (by decide))).trans h.tray, (k .cfg (hps _ (by decide))).trans h.cfg,
    (k .pool (hps _ (by decide))).trans h.pool, (k .cmd (hps _ (by decide))).trans h.cmd, (k .red (hps _ (by decide))).trans h.red⟩

theorem State.blank_released (s : State) (cold : Bool) : (s.powerOnClear cold).releasePins.blank :=
  (s.blank_powerOnClear cold).of_frame (State.onlyChanges_releasePins _)

theorem State.pending_released (s : State) (cold : Bool) : (s.powerOnClear cold).releasePins.pending = s.pending :=
  (State.onlyChanges_releasePins (s.powerOnClear cold)) .pending (by decide)

/-- Both references lost: the clear of a cold reset keeps that it is so. -/
theorem State.bothLost_released (s : State) :
    ((s.wr Reg.CLK_STAT_BOTH_LOST 1).powerOnClear true).releasePins.rd Reg.CLK_STAT_BOTH_LOST = 1 := by
  rw [State.rd_congr ((State.onlyChanges_releasePins _) .regs (by decide))]
  have hclear : ((s.wr Reg.CLK_STAT_BOTH_LOST 1).powerOnClear true).rd Reg.CLK_STAT_BOTH_LOST =
      ((s.wr Reg.CLK_STAT_BOTH_LOST 1).keepFields (keepPowerOn true)).rd Reg.CLK_STAT_BOTH_LOST := State.rd_congr rfl _ _ _
  rw [hclear, State.rd_keepFields _ _ _ (by decide +kernel), State.rd_wr_self _ _ _ _ _ (by decide)]
  rfl

/-! The clear of a warm reset. -/

/-- Work, fabric and registers cleared, image loads dropped, Carillon restarted. -/
def State.workCleared (s : State) : State :=
  ((((s.keepFields keepWarm).clearFabric).clearWork).clearFlight).clearLoads.clearCar

/-- The registers and measures that a warm reset sets anew. -/
def State.warmShown (s : State) (level : Nat) : State :=
  let s := (s.wr Reg.DBG_LEVEL_LEVEL level).wr Reg.PWR_FEN_RST_BUSY 0
  let s := (s.wr Reg.DBG_TAP_MODE (bits (s.rd Reg.PWR_STRAP_VALUE) 1 1)).syncSessions
  let s := s.upSec fun c => { c with inForce := none, sanitizing := [] }
  ((s.wr Reg.SEC_POLICY_BITS ((s.sec.cust.map CustRecord.policy).getD 0)).syncLoad).syncPriv

/-- Every session ended. -/
def State.allEnded (s : State) : State := (s.sec.sessions.map (·.1)).foldl State.endSession s

theorem State.warmClear_eq (s : State) (fatal : Bool) : s.warmClear fatal =
    (if fatal then (if fatal then s.copyFatal else s.dropPrefixRefs).allEnded.workCleared.emptyPool
     else (if fatal then s.copyFatal else s.dropPrefixRefs).allEnded.workCleared).warmShown (s.rd Reg.SEC_LIFE_DEBUG) := rfl

theorem State.bootStep_syncSessions (s : State) : s.bootStep s.syncSessions :=
  ((s.bootStep_wr Reg.SEC_SESS_ACTIVE _).trans (State.bootStep_wrb _ Reg.SEC_SESS_CUST _)).trans (State.bootStep_wrb _ Reg.SEC_SESS_OPER _)

theorem State.bootStep_warmShown (s : State) (level : Nat) : s.bootStep (s.warmShown level) :=
  ((((((s.bootStep_wr Reg.DBG_LEVEL_LEVEL level).trans (State.bootStep_wr _ Reg.PWR_FEN_RST_BUSY 0)).trans
    (State.bootStep_wr _ Reg.DBG_TAP_MODE _)).trans (State.bootStep_syncSessions _)).trans
    (State.bootStep_upSec _ (fun c => { c with inForce := none, sanitizing := [] }) rfl)).trans
    (State.bootStep_wr _ Reg.SEC_POLICY_BITS _)).trans
    ((State.bootStep_wrb _ Reg.FEN_IMG_STATUS_BUSY _).trans (State.bootStep_wrb _ Reg.SEC_SESS_PRIV_BUSY _))

theorem State.allEnded_effect (s : State) : s.allEnded.sec.sessions = [] ∧ s.onlyChanges s.allEnded [.regs, .sec, .img, .car] ∧
    s.regsKeptBut s.allEnded endSessionKeys := by
  refine ⟨?_, State.onlyChanges_foldl_endSession _ _, State.regsKept_foldl_endSession _ _⟩
  rw [State.allEnded, State.sessions_foldl_endSession, List.filter_eq_nil_iff]
  intro p hp
  simpa using ⟨p.2, hp⟩

theorem State.dropPrefixRefs_of_none {s : State} (h : s.sqt.ents = []) : s.dropPrefixRefs = s := by
  rw [State.dropPrefixRefs, h]
  rfl

theorem State.rd_workCleared (s : State) (f : Fld) (h : (regTable.any fun g => g.owns (f.key 0 0) && keepWarm g) = true) :
    s.workCleared.rd f = s.rd f := (State.rd_congr rfl _ _ _).trans (s.rd_keepFields keepWarm f h)

theorem State.workCleared_kept (s : State) : s.workCleared.pool.extents = s.pool.extents ∧ s.workCleared.pool.regions = s.pool.regions ∧
    s.workCleared.near = s.near ∧ s.workCleared.tray = s.tray ∧ s.workCleared.cmd.cmds = [] ∧
    s.workCleared.sec.sessions = s.sec.sessions := ⟨rfl, rfl, rfl, rfl, rfl, rfl⟩

/-- A warm reset without a fatal event keeps extents, regions and tiers, and leaves no session and no command. -/
theorem State.warmClear_plain {s : State} (h : s.sqt.ents = []) : (s.warmClear false).sec.sessions = [] ∧ (s.warmClear false).cmd.cmds = [] ∧
    (s.warmClear false).pool.extents = s.pool.extents ∧ (s.warmClear false).pool.regions = s.pool.regions ∧
    (s.warmClear false).near = s.near ∧ (s.warmClear false).tray = s.tray ∧
    (s.warmClear false).rd Reg.PWR_RST_STAT_WARMS = s.rd Reg.PWR_RST_STAT_WARMS := by
  obtain ⟨hsess, hparts, hregs⟩ := s.allEnded_effect
  have hform : s.warmClear false = s.allEnded.workCleared.warmShown (s.rd Reg.SEC_LIFE_DEBUG) := by
    rw [State.warmClear_eq, if_neg (by simp), if_neg (by simp), State.dropPrefixRefs_of_none h]
  have hshow := s.allEnded.workCleared.bootStep_warmShown (s.rd Reg.SEC_LIFE_DEBUG)
  have hpool : (s.allEnded.workCleared.warmShown (s.rd Reg.SEC_LIFE_DEBUG)).pool = s.allEnded.workCleared.pool := hshow.parts .pool (by decide)
  obtain ⟨hext, hreg, hnear, htray, hcmds, hsec⟩ := s.allEnded.workCleared_kept
  rw [hform]
  refine ⟨(hshow.sessions.trans hsec).trans hsess, (congrArg CmdState.cmds (hshow.parts .cmd (by decide))).trans hcmds, ?_, ?_, ?_, ?_, ?_⟩
  · exact ((congrArg PoolState.extents hpool).trans hext).trans (congrArg PoolState.extents (hparts .pool (by decide)))
  · exact ((congrArg PoolState.regions hpool).trans hreg).trans (congrArg PoolState.regions (hparts .pool (by decide)))
  · exact ((hshow.parts .near (by decide)).trans hnear).trans (hparts .near (by decide))
  · exact ((hshow.parts .tray (by decide)).trans htray).trans (hparts .tray (by decide))
  · rw [hshow.shown _ (by decide), State.rd_workCleared _ _ (by decide +kernel)]
    exact hregs _ 0 0 (by decide)

theorem State.sessions_copyFatal (s : State) : s.copyFatal.sec.sessions = s.sec.sessions := by
  unfold State.copyFatal
  split <;> rfl

/-- A warm reset after a fatal event empties the pool and the tiers, and leaves no session. -/
theorem State.warmClear_fatal (s : State) : (s.warmClear true).sec.sessions = [] ∧ (s.warmClear true).pool.extents = [] ∧
    (s.warmClear true).near = [] ∧ (s.warmClear true).tray = [] := by
  obtain ⟨hsess, -, -⟩ := s.copyFatal.allEnded_effect
  have hshow := s.copyFatal.allEnded.workCleared.emptyPool.bootStep_warmShown (s.rd Reg.SEC_LIFE_DEBUG)
  rw [State.warmClear_eq, if_pos rfl, if_pos rfl]
  exact ⟨hshow.sessions.trans hsess, (congrArg PoolState.extents (hshow.parts .pool (by decide))).trans rfl,
    (hshow.parts .near (by decide)).trans rfl, (hshow.parts .tray (by decide)).trans rfl⟩

/-! A warm reset. -/

/-- An image in validation ends busy. -/
def State.validationCut (s : State) : State :=
  match s.img.validating with
  | some l => (s.upImg fun i => { i with validating := none }).loadEnded l.session l.seq imgBusy 0 0
  | none => s

/-- The closing report taken. -/
def State.closed (s : State) : State :=
  (s.validationCut.usageReport true).2.upImg fun i => { i with closing := some (s.validationCut.usageReport true).1 }

/-- The warm reset counted, with its cause. -/
def State.warmNoted (s : State) (cause : Nat) (fatal : Bool) : State :=
  ((s.bump Reg.PWR_RST_STAT_WARMS).wr Reg.PWR_RST_STAT_LAST cause).wrb Reg.PWR_RST_STAT_FATAL_RESTART fatal

/-- Bring-up after a warm reset's clear. -/
def State.warmBoot (s : State) (b : BringUp) : State :=
  if !(s.setPhase phROM).bootFw.1 then ((s.setPhase phROM).bootFw.2.setPhase phRECOVERY).upCar fun c => { c with warm := false }
  else if !b.ready then (s.setPhase phROM).bootFw.2.setPhase phDIES
  else if (s.setPhase phROM).bootFw.2.diesReady.nextImage.isSome then (s.setPhase phROM).bootFw.2.diesReady.setPhase phTRAYS
  else ((s.setPhase phROM).bootFw.2.diesReady.upCar fun c => { c with warm := false }).waitImage

theorem State.warmReset_eq (s : State) (cause : Nat) (b : BringUp) : s.warmReset cause b =
    ((s.closed.warmClear (s.fatal || s.on Reg.COH_FATAL_CAUSE)).warmNoted cause (s.fatal || s.on Reg.COH_FATAL_CAUSE)).warmBoot b := rfl

theorem State.bootStep_warmBoot (s : State) (b : BringUp) : s.bootStep (s.warmBoot b) := by
  have hboot := (s.bootStep_setPhase phROM).trans (State.bootStep_bootFw _)
  unfold State.warmBoot
  split
  · exact (hboot.trans (State.bootStep_setPhase _ _)).trans (State.bootStep_upCar _ (fun c => { c with warm := false }) rfl)
  · split
    · exact hboot.trans (State.bootStep_setPhase _ _)
    · split
      · exact (hboot.trans (State.bootStep_diesReady _)).trans (State.bootStep_setPhase _ _)
      · exact ((hboot.trans (State.bootStep_diesReady _)).trans (State.bootStep_upCar _ (fun c => { c with warm := false }) rfl)).trans
          (State.bootStep_waitImage _)

theorem State.closed_effect (s : State) : s.onlyChanges s.closed [.regs, .out, .sec, .img] ∧
    s.closed.rd Reg.PWR_RST_STAT_WARMS = s.rd Reg.PWR_RST_STAT_WARMS := by
  have hcut : s.onlyChanges s.validationCut [.regs, .out, .img] ∧ s.validationCut.rd Reg.PWR_RST_STAT_WARMS = s.rd Reg.PWR_RST_STAT_WARMS := by
    unfold State.validationCut
    cases s.img.validating with
    | none => exact ⟨s.onlyChanges_refl _, rfl⟩
    | some l =>
      refine ⟨State.onlyChanges.andThen (t := s.upImg fun i => { i with validating := none }) (by simp [State.onlyChanges_iff, State.upImg])
        (State.onlyChanges_loadEnded _ _ _ _ _ _), ?_⟩
      exact State.rd_loadEnded_separate _ _ _ _ _ _ (by decide) _ _
  refine ⟨(State.onlyChanges_mono hcut.1 (by decide)).andThen (t := s.validationCut) (qs := [.sec, .img]) ?_, hcut.2⟩
  simp [State.onlyChanges_iff, State.closed, State.usageReport_snd, State.counted, State.upSec, State.upImg]

theorem State.rd_warmNoted (s : State) {cause : Nat} (hc : cause < 8) (fatal : Bool) :
    (s.warmNoted cause fatal).rd Reg.PWR_RST_STAT_LAST = cause ∧
      (s.warmNoted cause fatal).rd Reg.PWR_RST_STAT_FATAL_RESTART = b2n fatal ∧
      (s.warmNoted cause fatal).rd Reg.PWR_RST_STAT_WARMS =
        min (s.rd Reg.PWR_RST_STAT_WARMS + 1) (2 ^ Reg.PWR_RST_STAT_WARMS.width - 1) := by
  refine ⟨?_, ?_, ?_⟩
  · simp (disch := decide) only [State.warmNoted, State.wrb, State.rd_wr_separate, State.rd_wr_self]
    exact Nat.mod_eq_of_lt hc
  · simp (disch := decide) only [State.warmNoted, State.wrb, State.rd_wr_self]
    cases fatal <;> rfl
  · simp (disch := decide) only [State.warmNoted, State.wrb, State.rd_wr_separate, State.rd_bump_self]

theorem State.onlyChanges_warmNoted (s : State) (cause : Nat) (fatal : Bool) : s.onlyChanges (s.warmNoted cause fatal) [.regs] := by
  simp [State.onlyChanges_iff, State.warmNoted, State.wrb]

/-- What a warm reset without a fatal event shows and keeps. -/
theorem State.warmReset_plain {s : State} {cause : Nat} (hc : cause < 8) (b : BringUp) (hf : s.fatal = false)
    (hcoh : s.on Reg.COH_FATAL_CAUSE = false) (hq : s.sqt.ents = []) :
    (s.warmReset cause b).rd Reg.PWR_RST_STAT_LAST = cause ∧ (s.warmReset cause b).rd Reg.PWR_RST_STAT_FATAL_RESTART = 0 ∧
      (s.warmReset cause b).rd Reg.PWR_RST_STAT_WARMS = min (s.rd Reg.PWR_RST_STAT_WARMS + 1) (2 ^ Reg.PWR_RST_STAT_WARMS.width - 1) ∧
      (s.warmReset cause b).sec.sessions = [] ∧ (s.warmReset cause b).cmd.cmds = [] ∧
      (s.warmReset cause b).pool.extents = s.pool.extents ∧ (s.warmReset cause b).pool.regions = s.pool.regions ∧
      (s.warmReset cause b).near = s.near ∧ (s.warmReset cause b).tray = s.tray := by
  obtain ⟨hclosed, hwarms⟩ := s.closed_effect
  have hents : s.closed.sqt.ents = [] := (congrArg SqtState.ents (hclosed .sqt (by decide))).trans hq
  obtain ⟨hsess, hcmds, hext, hreg, hnear, htray, hcount⟩ := State.warmClear_plain hents
  have hnote := (s.closed.warmClear false).onlyChanges_warmNoted cause false
  obtain ⟨hlast, hfr, hw⟩ := (s.closed.warmClear false).rd_warmNoted hc false
  have hboot := ((s.closed.warmClear false).warmNoted cause false).bootStep_warmBoot b
  have hpool := (hboot.parts .pool (by decide)).trans (hnote .pool (by decide))
  have hp := hclosed .pool (by decide)
  rw [State.warmReset_eq, hf, hcoh, Bool.or_self]
  refine ⟨(hboot.shown _ (by decide)).trans hlast, (hboot.shown _ (by decide)).trans hfr, ?_, ?_, ?_, ?_, ?_, ?_, ?_⟩
  · rw [hboot.shown _ (by decide), hw, hcount, hwarms]
  · exact (hboot.sessions.trans (congrArg SecState.sessions (hnote .sec (by decide)))).trans hsess
  · exact (congrArg CmdState.cmds ((hboot.parts .cmd (by decide)).trans (hnote .cmd (by decide)))).trans hcmds
  · exact ((congrArg PoolState.extents hpool).trans hext).trans (congrArg PoolState.extents hp)
  · exact ((congrArg PoolState.regions hpool).trans hreg).trans (congrArg PoolState.regions hp)
  · exact (((hboot.parts .near (by decide)).trans (hnote .near (by decide))).trans hnear).trans (hclosed .near (by decide))
  · exact (((hboot.parts .tray (by decide)).trans (hnote .tray (by decide))).trans htray).trans (hclosed .tray (by decide))

/-- What a warm reset after a fatal event shows and empties. -/
theorem State.warmReset_fatal {s : State} {cause : Nat} (hc : cause < 8) (b : BringUp) (hf : s.fatal = true) :
    (s.warmReset cause b).rd Reg.PWR_RST_STAT_LAST = cause ∧ (s.warmReset cause b).rd Reg.PWR_RST_STAT_FATAL_RESTART = 1 ∧
      (s.warmReset cause b).near = [] ∧ (s.warmReset cause b).tray = [] ∧ (s.warmReset cause b).pool.extents = [] ∧
      (s.warmReset cause b).sec.sessions = [] := by
  obtain ⟨hsess, hext, hnear, htray⟩ := s.closed.warmClear_fatal
  have hnote := (s.closed.warmClear true).onlyChanges_warmNoted cause true
  obtain ⟨hlast, hfr, -⟩ := (s.closed.warmClear true).rd_warmNoted hc true
  have hboot := ((s.closed.warmClear true).warmNoted cause true).bootStep_warmBoot b
  rw [State.warmReset_eq, hf, Bool.true_or]
  exact ⟨(hboot.shown _ (by decide)).trans hlast, (hboot.shown _ (by decide)).trans hfr,
    ((hboot.parts .near (by decide)).trans (hnote .near (by decide))).trans hnear,
    ((hboot.parts .tray (by decide)).trans (hnote .tray (by decide))).trans htray,
    (congrArg PoolState.extents ((hboot.parts .pool (by decide)).trans (hnote .pool (by decide)))).trans hext,
    (hboot.sessions.trans (congrArg SecState.sessions (hnote .sec (by decide)))).trans hsess⟩

/-! Requests for a warm reset. -/

/-- A request is granted where nothing stands against it. -/
theorem State.warmRequest_granted {s : State} (cause : Nat) (b : BringUp) (hat : s.car.warmAt ≠ some s.hclk)
    (htrip : s.on Reg.CAR_TRIP_VALID = false) (hcust : s.custState ≠ custSWITCHING) (hwarm : s.car.warm = false)
    (happ : s.img.applying = none) : s.warmRequest cause b = s.warmReset cause b := by
  unfold State.warmRequest
  rw [if_neg hat, htrip, hwarm, happ, if_neg (by simpa using hcust), if_neg (by simp)]

/-- A write of `PWR_RST_CTL` without CONTINUE and with WARM: HOLD, and the request or its refusal by the key. -/
theorem exec_warm {s : State} {a : Access} (h : s.admitsWrite a 0x10100) {key : Nat} (hk : key < 2 ^ 16) (hold : Bool) (b : BringUp) :
    exec (.warm a key hold b) s = .next (if key = 0x574D then (s.wrb Reg.PWR_RST_CTL_HOLD hold).warmRequest 2 b
      else (s.wrb Reg.PWR_RST_CTL_HOLD hold).bump Reg.PWR_CNT_IGNORED) := by
  have hv : bit (key % 2 ^ 16 * 2 ^ 16 + 2 * b2n hold + 1) 1 = hold ∧ bit (key % 2 ^ 16 * 2 ^ 16 + 2 * b2n hold + 1) 2 = false ∧
      bit (key % 2 ^ 16 * 2 ^ 16 + 2 * b2n hold + 1) 0 = true ∧ (key % 2 ^ 16 * 2 ^ 16 + 2 * b2n hold + 1) / 2 ^ 16 % 2 ^ 16 = key := by
    unfold bit
    rw [Nat.mod_eq_of_lt hk]
    cases hold <;> simp only [b2n, Bool.false_eq_true, if_false, if_true, beq_iff_eq, beq_eq_false_iff_ne] <;> omega
  obtain ⟨hhold, hcont, hwarm, hkey⟩ := hv
  refine congrArg Host.Outcome.next ((State.window_admitted h _).trans ?_)
  unfold State.rstCtlOp
  rw [hhold, hcont, hwarm, hkey]
  rfl

theorem exec_continue {s : State} {a : Access} (h : s.admitsWrite a 0x10100) (hold : Bool) :
    exec (.continue a hold) s = .next (s.wrb Reg.PWR_RST_CTL_HOLD hold).continueOp := by
  refine congrArg Host.Outcome.next ((State.window_admitted h _).trans ?_)
  unfold State.rstCtlOp
  cases hold <;> rfl

/-- The state of a part whose power has gone. -/
def State.unpowered (s : State) : State := ((s.powerOnClear false).releasePins).upCar fun c => { c with powered := false }

theorem exec_pwrgoodFall (s : State) : exec .pwrgoodFall s = .next s.unpowered := rfl

theorem State.blank_unpowered (s : State) : s.unpowered.blank :=
  (s.blank_released false).of_frame (State.onlyChanges_upCar _ _ (ps := [.car]) (by decide))

/-- Settles O50: an input's loss and return by their branches; each reset by its clear and bring-up's steps. -/
theorem referencesFailOverAndResetsClear : Obligations.ReferencesFailOverAndResetsClear := by
  unfold Obligations.ReferencesFailOverAndResetsClear
  refine ⟨fun s i hi => ⟨?_, ?_, ?_⟩, fun s => ⟨?_, ?_, ?_, ?_, ?_, ?_, ?_, ?_⟩⟩
  · intro hok hother hsel
    obtain ⟨hgone, hkept, hgsel, hcnt, hframe⟩ := s.refGone_effect hi
    refine ⟨_, exec_refclkLoss_failover hi hok hother hsel, ?_, ?_, ?_, ?_, ?_⟩
    · rw [State.refEvent, State.refOk_event]
      exact ((State.refOk_wr _ _ _ (by decide) (by decide) _).trans (State.refOk_wr _ _ _ (by decide) (by decide) _)).trans hgone
    · rw [State.refEvent, State.refOk_event]
      exact ((State.refOk_wr _ _ _ (by decide) (by decide) _).trans (State.refOk_wr _ _ _ (by decide) (by decide) _)).trans
        (hkept.trans hother)
    · rw [State.refEvent, State.rd_event _ _ _ _ _ (by decide), State.rd_bump_separate _ _ _ _ _ (by decide),
        State.rd_wr_self _ _ _ _ _ (by decide)]
      exact Nat.mod_eq_of_lt (Nat.lt_of_le_of_lt (Nat.sub_le _ _) (by decide))
    · rw [State.refEvent, State.rd_event _ _ _ _ _ (by decide), State.rd_bump_self _ _ _ _ _ (by decide),
        State.rd_wr_separate _ _ _ _ _ (by decide), hcnt]
    · exact (((State.onlyChanges_mono hframe (by decide)).andThen
        (State.onlyChanges_wr _ Reg.CLK_STAT_SEL _ 0 0 (ps := [.regs]) (by decide))).andThen
        (State.onlyChanges_bump _ Reg.CLK_CNT_FAILOVER 0 0 1 (ps := [.regs]) (by decide))).andThen (State.reportsOnly_event _ _).1
  · intro hok hother
    obtain ⟨hgone, -, hgsel, -, hframe⟩ := s.refGone_effect hi
    have hev := (State.reportsOnly_event (s.refGone i) { code := evREFCLK, sev := sevWARN, health := true, params := [i, 0] }).1
    refine ⟨_, exec_refclkLoss_last hi hok hother, ?_, ?_, ?_, ?_⟩
    · exact (State.refOk_event _ _ _).trans hgone
    · exact congrArg some ((hev .hclk (by decide)).trans (hframe .hclk (by decide)))
    · exact (State.rd_event _ _ _ _ _ (by decide)).trans hgsel
    · exact ((State.onlyChanges_mono hframe (by decide)).andThen hev).andThen
        (State.onlyChanges_upCar _ (fun c => { c with bothLostAt := some ((s.refGone i).refEvent i 0).hclk }) (ps := [.car]) (by decide))
  · intro ppm10 hno hother hp hr
    have hev := (State.reportsOnly_event (s.setRef i true) { code := evREFCLK, sev := sevWARN, health := true, params := [i, 2] }).1
    refine ⟨_, exec_refclkGood_second hi ppm10 hno hother hp hr, ?_, ?_, State.rd_wr_self _ _ _ _ _ (by decide), ?_, ?_⟩
    · rw [State.refOk_wr _ _ _ (by decide) (by decide)]
      exact (State.refOk_event _ _ _).trans (s.refOk_setRef_self hi true)
    · exact congrArg (fun c : CarState => { c with bothLostAt := none })
        ((hev .car (by decide)).trans (s.onlyChanges_setRef i true .car (by decide)))
    · rw [State.rd_wr_separate _ _ _ _ _ (by decide), s.rd_refFound i (by decide) (by decide) (by decide)]
    · exact (s.onlyChanges_refFound i).andThen (State.onlyChanges_wr _ Reg.CLK_REF_DIFF_PPM10 _ 0 0 (ps := [.regs]) (by decide))
  · intro b
    have hup := (s.powerOnClear false).powersUp_powerUp b 0
    obtain ⟨hnear, htray, hcfg, hpool, hcmd, hred⟩ := (s.blank_powerOnClear false).powersUp hup
    exact ⟨_, rfl, hup.powered, hup.last, hnear, htray, hcfg, hpool, hcmd, hred, hup.parts .pending (by decide)⟩
  · intro b hp
    have hup := (s.powerOnClear true).releasePins.powersUp_powerUp b 1
    obtain ⟨hnear, htray, hcfg, hpool, hcmd, hred⟩ := (s.blank_released true).powersUp hup
    exact ⟨_, congrArg Host.Outcome.next (if_pos hp), hup.last, hnear, htray, hcfg, hpool, hcmd, hred,
      (hup.parts .pending (by decide)).trans (s.pending_released true)⟩
  · intro b t0 hlost hlate
    have hrun : exec (.bothRefsLost b) s =
        .next ((((s.wr Reg.CLK_STAT_BOTH_LOST 1).powerOnClear true).releasePins).powerUp b 4) := by
      refine congrArg Host.Outcome.next ?_
      unfold bothRefsLost
      rw [hlost]
      exact if_neg (by omega)
    have hup := ((s.wr Reg.CLK_STAT_BOTH_LOST 1).powerOnClear true).releasePins.powersUp_powerUp b 4
    obtain ⟨hnear, -, hcfg, hpool, hcmd, -⟩ := ((s.wr Reg.CLK_STAT_BOTH_LOST 1).blank_released true).powersUp hup
    exact ⟨_, hrun, hup.last, hup.bothLost.trans s.bothLost_released, hnear, hcfg, hpool, hcmd⟩
  · obtain ⟨hnear, htray, hcfg, hpool, hcmd, -⟩ := s.blank_unpowered
    exact ⟨_, exec_pwrgoodFall s, rfl, hnear, htray, hcfg, hpool, hcmd⟩
  · intro a hold b h hat htrip hcust hwarm happ hf hcoh hq
    have hfield : ∀ g : Fld, g.separate Reg.PWR_RST_CTL_HOLD = true → (s.wrb Reg.PWR_RST_CTL_HOLD hold).rd g = s.rd g :=
      fun g hg => s.rd_wr_separate _ _ _ _ hg _ _
    have hon : ∀ g : Fld, g.separate Reg.PWR_RST_CTL_HOLD = true → (s.wrb Reg.PWR_RST_CTL_HOLD hold).on g = s.on g :=
      fun g hg => congrArg (· != 0) (hfield g hg)
    have hgrant := State.warmRequest_granted (s := s.wrb Reg.PWR_RST_CTL_HOLD hold) 2 b hat ((hon _ (by decide)).trans htrip)
      (fun e => hcust ((hfield _ (by decide)).symm.trans e)) hwarm happ
    obtain ⟨hlast, hfr, hw, hrest⟩ := State.warmReset_plain (s := s.wrb Reg.PWR_RST_CTL_HOLD hold) (cause := 2) (by decide) b
      ((hon _ (by decide)).trans hf) ((hon _ (by decide)).trans hcoh) hq
    rw [hfield _ (by decide)] at hw
    exact ⟨_, ((exec_warm h (by decide) hold b).trans (congrArg Host.Outcome.next ((if_pos rfl).trans hgrant))), hlast, hfr, hw, hrest⟩
  · intro a key hold b h hk hne
    refine ⟨_, (exec_warm h hk hold b).trans (congrArg Host.Outcome.next (if_neg hne)), ?_, ?_, ?_⟩
    · simp [State.onlyChanges_iff, State.wrb]
    · exact State.regsKept_trans (s.regsKept_wr _ _ _ _ (by simp)) (State.regsKept_bump _ _ _ _ _ (by simp))
    · rw [State.rd_bump_self _ _ _ _ _ (by decide), State.wrb, State.rd_wr_separate _ _ _ _ _ (by decide)]
  · intro b hms hf hwarm hlate hat htrip hcust happ
    have hgrant := State.warmRequest_granted 3 b hat htrip hcust hwarm happ
    refine ⟨s.warmReset 3 b, congrArg Host.Outcome.next ?_, State.warmReset_fatal (by decide) b hf⟩
    rw [← hgrant]
    unfold fatalAutoRestart
    dsimp only
    rw [hf, hwarm, if_neg (by simpa using ⟨hms, hlate⟩)]
  · intro a hold h hphase
    have hp : (s.wrb Reg.PWR_RST_CTL_HOLD hold).phase = phHOLD := (s.rd_wr_separate _ _ _ _ (by decide) _ _).trans hphase
    refine ⟨_, (exec_continue h hold).trans (congrArg Host.Outcome.next (if_pos hp)), State.rd_wr_self _ _ _ _ _ (by decide), ?_, ?_⟩
    · simp [State.onlyChanges_iff, State.wrb, State.setPhase]
    · exact State.regsKept_trans (s.regsKept_wr _ _ _ _ (by simp)) (State.regsKept_wr _ _ _ _ _ (by simp))

end Sys2Proof.Machine
end

section
/-!
PROOF. Bring-up's phases (R510, R514).  Each step writes its own registers and the phase; the application of the image finds a pool that holds
nothing, so that after the fens' states it only settles registers and powers ports.
-/
namespace Sys2Proof.Machine

/-! Dies and trays. -/

/-- The dies and links that are ready shown. -/
def State.hwFailed (s : State) (dies links : Nat) : State :=
  let s := ((s.wr Reg.GLB_DIE_PD_READY dies).wr Reg.GLB_DIE_CD_READY (dies / 4)).wr Reg.GLB_DIE_XH_READY (dies / 2 ^ 10)
  let s := (s.wr Reg.GLB_DIE_MH_READY 1).wr Reg.GLB_DIE_MS_READY (dies / 2 ^ 12)
  let s := ((s.wr Reg.GLB_D2D_PD_UP links).wr Reg.GLB_D2D_CD_UP (links / 4)).wr Reg.GLB_D2D_MH_UP (links / 2 ^ 10)
  (s.upCar fun c => { c with warm := false }).setPhase phHW_FAIL

theorem exec_bringupHwFail {s : State} (dies links : Nat) (h : s.phase = phDIES) :
    exec (.bringupHwFail dies links) s = .next (s.hwFailed dies links) := by
  refine congrArg Host.Outcome.next ?_
  unfold bringupHwFail
  rw [h]
  rfl

theorem State.hwFailed_effect (s : State) (dies links : Nat) : (s.hwFailed dies links).phase = phHW_FAIL ∧
    (s.hwFailed dies links).rd Reg.GLB_DIE_CD_READY = dies / 4 % 256 ∧
    (s.hwFailed dies links).rd Reg.GLB_DIE_MS_READY = dies / 2 ^ 12 % 256 ∧
    (s.hwFailed dies links).rd Reg.GLB_D2D_CD_UP = links / 4 % 256 ∧ s.onlyChanges (s.hwFailed dies links) [.regs, .car] := by
  refine ⟨State.rd_wr_self _ _ _ _ _ (by decide), ?_, ?_, ?_, by simp [State.onlyChanges_iff, State.hwFailed, State.setPhase]⟩
  · simp (disch := decide) only [State.hwFailed, State.setPhase, State.rd_upCar, State.rd_wr_separate, State.rd_wr_self]
    rfl
  · simp (disch := decide) only [State.hwFailed, State.setPhase, State.rd_upCar, State.rd_wr_separate, State.rd_wr_self]
    rfl
  · simp (disch := decide) only [State.hwFailed, State.setPhase, State.rd_upCar, State.rd_wr_separate, State.rd_wr_self]
    rfl

/-- The phase after the trays. -/
def State.afterTrays (s : State) : Nat := if s.on Reg.PWR_RST_CTL_HOLD then phHOLD else phAPPLY

/-- The trays' phase ends when no tray is being sanitized. -/
theorem State.traysDone_effect {s : State} (h : s.phase = phTRAYS) (hs : s.sec.sanitizing = []) :
    s.traysDone = s.setPhase s.afterTrays ∧ s.traysDone.phase = s.afterTrays ∧ s.onlyChanges s.traysDone [.regs] := by
  have hdone : s.traysDone = s.setPhase s.afterTrays := by
    unfold State.traysDone
    rw [h, hs]
    exact if_pos rfl
  have hlt : s.afterTrays < 2 ^ Reg.PWR_RST_STAT_PHASE.width := by
    unfold State.afterTrays
    split <;> decide
  rw [hdone]
  exact ⟨rfl, (State.rd_wr_self _ _ _ _ _ (by decide)).trans (Nat.mod_eq_of_lt hlt), s.onlyChanges_wr _ _ _ _ (by decide)⟩

/-- Fields that a step keeps decide the phase after the trays. -/
theorem State.afterTrays_congr {s t : State} (h : t.rd Reg.PWR_RST_CTL_HOLD = s.rd Reg.PWR_RST_CTL_HOLD) : t.afterTrays = s.afterTrays := by
  unfold State.afterTrays State.on
  rw [h]

/-- An enumeration that found nothing. -/
def State.noTrays (s : State) : State :=
  ((((s.upPool fun b => { b with trays := [] }).wr Reg.SEC_TRAY_IDE_PORTS 0).wr Reg.SEC_TRAY_SAN_PORTS 0).upSec fun c =>
    { c with sanitize := false })

theorem exec_trayEnumeration_nil {s : State} (h : s.phase = phTRAYS) (hs : s.sec.sanitizing = []) :
    exec (.trayEnumeration []) s = .next s.noTrays.traysDone := by
  refine congrArg Host.Outcome.next ?_
  unfold trayEnumeration
  rw [h, hs]
  rfl

/-- One tray's sanitize taken off the list. -/
def State.sanitizeOff (s : State) (t : Nat) : State :=
  (s.upSec fun c => { c with sanitizing := Tab.del c.sanitizing t }).wr Reg.SEC_TRAY_SAN_PORTS (setBits (s.rd Reg.SEC_TRAY_SAN_PORTS) t 1 0)

theorem State.sanitizeEnd_eq (s : State) (t : Nat) (ok : Bool) :
    s.sanitizeEnd t ok = (if ok then s.sanitizeOff t else (s.sanitizeOff t).leaveTrayDown t 2).traysDone := rfl

theorem State.sanitizeOff_effect {s : State} {t t0 : Nat} (h : s.sec.sanitizing = [(t, t0)]) : (s.sanitizeOff t).sec.sanitizing = [] ∧
    (s.sanitizeOff t).phase = s.phase ∧ (s.sanitizeOff t).afterTrays = s.afterTrays ∧ s.onlyChanges (s.sanitizeOff t) [.regs, .sec] := by
  refine ⟨?_, State.rd_wr_separate _ _ _ _ _ (by decide) _ _, State.afterTrays_congr (State.rd_wr_separate _ _ _ _ _ (by decide) _ _), ?_⟩
  · show Tab.del s.sec.sanitizing t = []
    rw [h]
    simp [Tab.del]
  · simp [State.onlyChanges_iff, State.sanitizeOff]

theorem exec_traySanitizeDone_ok {s : State} {p t0 : Nat} (h : s.sec.sanitizing = [(p, t0)]) :
    exec (.traySanitizeDone p true) s = .next (s.sanitizeOff p).traysDone := by
  refine congrArg Host.Outcome.next ?_
  unfold traySanitizeDone
  rw [h, State.sanitizeEnd_eq]
  exact if_pos (by simp [Tab.has, Tab.find?])

theorem exec_traySanitizeTimeout_late {s : State} {p t0 : Nat} (h : s.sec.sanitizing = [(p, t0)])
    (hlate : t0 + s.rd Reg.PWR_SAN_MAX_S * 1200000000 ≤ s.hclk) :
    exec (.traySanitizeTimeout p) s = .next ((s.sanitizeOff p).leaveTrayDown p 2).traysDone := by
  have hfind : Tab.find? s.sec.sanitizing p = some t0 := by simp [h, Tab.find?]
  refine congrArg Host.Outcome.next ?_
  unfold traySanitizeTimeout
  rw [hfind]
  exact if_neg (by omega)

theorem State.leaveTrayDown_effect (s : State) (t cause : Nat) :
    (∀ x, Tab.find? (s.leaveTrayDown t cause).pool.trays t = some x → x.up = false ∧ x.enumerated = false) ∧
      (s.leaveTrayDown t cause).phase = s.phase ∧ (s.leaveTrayDown t cause).afterTrays = s.afterTrays ∧
      s.onlyChanges (s.leaveTrayDown t cause) [.regs, .pool, .flt, .out, .host] := by
  have hdown : s.onlyChanges (s.upPool fun b => { b with trays := Tab.upd b.trays t fun x => { x with up := false, enumerated := false } })
      [.regs, .pool, .flt, .out, .host] := by simp [State.onlyChanges_iff]
  have hev := (State.reportsOnly_event (s.upPool fun b => { b with trays := Tab.upd b.trays t fun x => { x with up := false, enumerated := false } })
    { code := evTRAY_DOWN, sev := sevERROR, health := true, params := [t, cause], cls := clsPORT, inst := t }).1
  refine ⟨?_, State.rd_event _ _ _ _ _ (by decide), State.afterTrays_congr (State.rd_event _ _ _ _ _ (by decide)), hdown.andThen hev⟩
  intro x hx
  have hpool : (s.leaveTrayDown t cause).pool.trays = Tab.upd s.pool.trays t fun x => { x with up := false, enumerated := false } :=
    congrArg PoolState.trays (hev .pool (by decide))
  rw [hpool, Tab.find?_upd_self] at hx
  obtain ⟨y, -, rfl⟩ := Option.map_eq_some_iff.mp hx
  exact ⟨rfl, rfl⟩

/-! The image's application. -/

/-- What the pool holds and the capture ring's place stay. -/
def State.keepsHoldings (s t : State) : Prop := t.pool = s.pool ∧ t.xbr.capExt = s.xbr.capExt

theorem State.keepsHoldings.refl (s : State) : s.keepsHoldings s := ⟨rfl, rfl⟩

theorem State.keepsHoldings.trans {s t u : State} (h : s.keepsHoldings t) (k : t.keepsHoldings u) : s.keepsHoldings u :=
  ⟨k.1.trans h.1, k.2.trans h.2⟩

theorem State.keepsHoldings.of_frame {s t : State} {ps : List Part} (h : s.onlyChanges t ps) (hp : Part.pool ∉ ps := by decide)
    (hx : Part.xbr ∉ ps := by decide) : s.keepsHoldings t := ⟨h .pool hp, congrArg XbrState.capExt (h .xbr hx)⟩

theorem State.keepsHoldings.foldl {α : Type} {f : State → α → State} (h : ∀ (s : State) (a : α), s.keepsHoldings (f s a)) (l : List α)
    (s : State) : s.keepsHoldings (l.foldl f s) := by
  induction l generalizing s with
  | nil => exact .refl s
  | cons a l ih => exact (h s a).trans (ih _)

theorem State.keepsHoldings_wr (s : State) (f : Fld) (v i j : Nat) : s.keepsHoldings (s.wr f v i j) := ⟨rfl, rfl⟩

theorem State.keepsHoldings_freshGates (s : State) (m : Image) (p : Nat) : s.keepsHoldings (s.freshGates m p) := by
  have hnote : ∀ u : State, u.keepsHoldings (u.noteEntry p) := by
    intro u
    unfold State.noteEntry
    dsimp only
    split
    · exact .refl u
    · exact u.keepsHoldings_wr _ _ _ _
  unfold State.freshGates
  dsimp only
  refine State.keepsHoldings.trans ?_ (hnote _)
  exact ⟨rfl, rfl⟩

theorem State.keepsHoldings_applyPorts (s : State) (m : Image) : s.keepsHoldings (s.applyPorts m) := by
  unfold State.applyPorts
  refine State.keepsHoldings.trans (t := ((s.upXbr fun x => { x with bank0 := s.freshBank m, bank1 := {}, swap := none }).wr Reg.RTE_ACTIVE_BANK 0).wr
    Reg.RTE_OP_PENDING 0) ⟨rfl, rfl⟩ ?_
  exact State.keepsHoldings.foldl (f := fun (s : State) p => (s.freshGates m p).wr Reg.FAB_PSTAT_LANE_MODE (s.portCfg p).laneMode p)
    (fun u p => (u.keepsHoldings_freshGates m p).trans (State.keepsHoldings_wr _ _ _ _ _)) _ _

theorem State.keepsHoldings_syncFen (s : State) (f : Nat) : s.keepsHoldings (s.syncFen f) := .of_frame (s.configures_syncFen f).1

theorem State.onlyChanges_applyDevice (s : State) (m : Image) : s.onlyChanges (s.applyDevice m) [.regs] := by
  simp [State.onlyChanges_iff, State.applyDevice]

theorem State.onlyChanges_applyImage (s : State) (m : Image) : s.onlyChanges (s.applyImage m) [.regs, .sec, .img] := by
  simp [State.onlyChanges_iff, State.applyImage, State.upSec, State.upImg]

/-- The image's tables in force, nothing of the last image's use kept. -/
def State.laidDown (s : State) (m : Image) : State :=
  { s with cfg := m.applied, meters := [] }.upShp fun b => { b with buckets := [], credits := [] }

/-- The fens' registers as the tables say. -/
def State.fensShown (s : State) : State := (List.range 64).foldl (fun s f => (s.syncFen f).wr Reg.FEN_SERIAL_SERIAL 0 f) s

theorem State.applyFull_eq (s : State) (m : Image) : s.applyFull m =
    ((((s.laidDown m).applyPorts m).fensShown).applyDevice m).applyImage m := rfl

theorem State.keepsHoldings_applyFull (s : State) (m : Image) : s.keepsHoldings (s.applyFull m) := by
  have hlaid : s.keepsHoldings (s.laidDown m) := ⟨rfl, rfl⟩
  have hfens : ∀ u : State, u.keepsHoldings u.fensShown := fun u =>
    State.keepsHoldings.foldl (f := fun (s : State) f => (s.syncFen f).wr Reg.FEN_SERIAL_SERIAL 0 f)
      (fun v f => (v.keepsHoldings_syncFen f).trans (State.keepsHoldings_wr _ _ _ _ _)) (List.range 64) u
  rw [State.applyFull_eq]
  exact (((hlaid.trans (State.keepsHoldings_applyPorts _ m)).trans (hfens _)).trans
    (.of_frame (State.onlyChanges_applyDevice _ m))).trans (.of_frame (State.onlyChanges_applyImage _ m))

theorem State.keepsHoldings_trayShortfall (s : State) : s.keepsHoldings s.trayShortfall := by
  unfold State.trayShortfall
  dsimp only
  split
  · exact s.keepsHoldings_wr _ _ _ _
  · refine State.keepsHoldings.trans (State.keepsHoldings.trans (State.keepsHoldings.trans ?_
      (State.keepsHoldings.foldl State.keepsHoldings_syncFen (List.range 64) _)) (State.keepsHoldings_wr _ Reg.FEN_IMG_STATUS_TRAY_SHORT 1 0 0))
      (.of_frame (State.reportsOnly_event _ _).1)
    exact ⟨rfl, rfl⟩

/-! The fens' states. -/

/-- A fen's state as the application leaves it. -/
def State.appliedState (s : State) (f : Nat) : Nat := if (Tab.getD s.cfg.fens f {}).valid then fenQUIESCED else fenUNUSED

/-- One fen's state set. -/
def State.quiesceOne (s : State) (f : Nat) : State := s.wr Reg.FEN_STATE_STATE (s.appliedState f) f

theorem State.quiesceAll_eq (s : State) : s.quiesceAll = (List.range 64).foldl State.quiesceOne s := rfl

theorem State.onlyChanges_foldl_quiesceOne (l : List Nat) (s : State) : s.onlyChanges (l.foldl State.quiesceOne s) [.regs] := by
  induction l generalizing s with
  | nil => exact s.onlyChanges_refl _
  | cons f l ih => exact State.onlyChanges_trans (s.onlyChanges_wr _ _ _ _ (by decide)) (ih _)

theorem State.fenState_quiesceOne (s : State) {f g : Nat} (hf : f < 64) (hg : g < 64) :
    (s.quiesceOne g).fenState f = if f = g then s.appliedState f else s.fenState f := by
  split
  · next h =>
    subst h
    refine (State.rd_wr_self _ _ _ _ _ (by decide)).trans (Nat.mod_eq_of_lt ?_)
    unfold State.appliedState
    split <;> decide
  · next h =>
    refine State.rd_wr_ne _ _ _ _ _ _ _ _ fun e => h ?_
    exact (Fld.key_inj (f := Reg.FEN_STATE_STATE) (by decide) hf (by decide) hg (by decide) e).1

theorem State.fenState_foldl_quiesceOne {l : List Nat} (hl : ∀ g ∈ l, g < 64) (s : State) {f : Nat} (hf : f < 64)
    (h : f ∈ l ∨ s.fenState f = s.appliedState f) : (l.foldl State.quiesceOne s).fenState f = s.appliedState f := by
  induction l generalizing s with
  | nil => exact h.resolve_left (by simp)
  | cons g l ih =>
    have hg : g < 64 := hl g (by simp)
    have hone := s.fenState_quiesceOne hf hg
    refine ih (fun x hx => hl x (by simp [hx])) (s.quiesceOne g) ?_
    by_cases hfg : f = g
    · exact .inr (hone.trans (if_pos hfg))
    · refine h.imp (fun hm => (List.mem_cons.mp hm).resolve_left hfg) fun hs => ?_
      exact (hone.trans (if_neg hfg)).trans hs

theorem State.onlyChanges_quiesceAll (s : State) : s.onlyChanges s.quiesceAll [.regs] := by
  rw [State.quiesceAll_eq]
  exact State.onlyChanges_foldl_quiesceOne _ s

theorem State.fenState_quiesceAll (s : State) {f : Nat} (hf : f < 64) : s.quiesceAll.fenState f = s.appliedState f := by
  rw [State.quiesceAll_eq]
  exact State.fenState_foldl_quiesceOne (fun _ hg => List.mem_range.mp hg) s hf (.inl (List.mem_range.mpr hf))

/-! Settling an empty pool. -/

theorem State.settleMoves_of_none {s : State} (h : s.pool.moves = []) : s.settleMoves =
    (s.wr Reg.POOL_CNT_MOVE_ABORT (s.rd Reg.POOL_CNT_MOVE_ABORT)).upPool fun b =>
      { b with extents := Tab.mapVals b.extents fun _ e => { e with rrefs := 0, wrefs := 0 } } := by
  rw [State.settleMoves, h]
  rfl

theorem State.settlePlaces_of_none {s : State} (he : s.pool.extents = []) (hr : s.pool.regions = []) (hc : s.xbr.capExt = none) :
    s.settlePlaces = s.bump Reg.PWR_CNT_DROPPED 0 0 0 := by
  have hcap : (s.bump Reg.PWR_CNT_DROPPED 0 0 0).xbr.capExt = none := hc
  unfold State.settlePlaces
  simp only [he, hr, List.filter_nil, List.map_nil, List.foldl_nil, List.length_nil, Nat.add_zero, hcap]

theorem State.settleLeases_of_none {s : State} (he : s.pool.extents = []) : s.settleLeases = s := by
  rw [State.settleLeases, he]
  rfl

/-- A state with nothing in its pool, settled. -/
def State.settled (s : State) : State := (((s.settleMoves).settlePlaces).settleLeases).noteTrayFree

/-- What settling and powering the ports keep. -/
structure State.tailStep (s t : State) : Prop where
  parts : s.onlyChanges t [.regs, .pool, .fab]
  fens : ∀ f, t.fenState f = s.fenState f

theorem State.tailStep.refl (s : State) : s.tailStep s := ⟨s.onlyChanges_refl _, fun _ => rfl⟩

theorem State.tailStep.trans {s t u : State} (h : s.tailStep t) (k : t.tailStep u) : s.tailStep u :=
  ⟨State.onlyChanges_trans h.parts k.parts, fun f => (k.fens f).trans (h.fens f)⟩

theorem State.tailStep_wr (s : State) (g : Fld) (v : Nat) (h : Reg.FEN_STATE_STATE.separate g = true := by decide) : s.tailStep (s.wr g v) :=
  ⟨s.onlyChanges_wr _ _ _ _ (by decide), fun _ => s.rd_wr_separate _ _ _ _ h _ _⟩

theorem State.tailStep_settled {s : State} (he : s.pool.extents = []) (hr : s.pool.regions = []) (hm : s.pool.moves = [])
    (hc : s.xbr.capExt = none) : s.tailStep s.settled := by
  have hmoves : s.tailStep s.settleMoves := by
    rw [State.settleMoves_of_none hm]
    exact (s.tailStep_wr _ _).trans ⟨by simp [State.onlyChanges_iff], fun _ => rfl⟩
  have he' : s.settleMoves.pool.extents = [] := by
    rw [State.settleMoves_of_none hm]
    exact congrArg (fun e => Tab.mapVals e fun _ (x : Extent) => { x with rrefs := 0, wrefs := 0 }) he
  have hr' : s.settleMoves.pool.regions = [] := by
    rw [State.settleMoves_of_none hm]
    exact hr
  have hc' : s.settleMoves.xbr.capExt = none := by
    rw [State.settleMoves_of_none hm]
    exact hc
  have hplaces := State.settlePlaces_of_none he' hr' hc'
  have hleases : s.settleMoves.settlePlaces.settleLeases = s.settleMoves.settlePlaces := by
    refine State.settleLeases_of_none ?_
    rw [hplaces]
    exact he'
  rw [State.settled, hleases, hplaces]
  exact (hmoves.trans (State.tailStep_wr _ Reg.PWR_CNT_DROPPED _)).trans (State.tailStep_wr _ Reg.POOL_TRAY_FREE_UNITS _)

theorem State.onlyChanges_upPort (s : State) (p : Nat) (g : PortState → PortState) : s.onlyChanges (s.upPort p g) [.fab] := by
  simp [State.onlyChanges_iff]

theorem State.tailStep_powerPorts (s : State) : s.tailStep s.powerPorts := by
  have hfold : ∀ (l : List Nat) (u : State),
      u.tailStep (l.foldl (fun s p => if s.knawenPort p then s.upPort p fun q => { q with powered := true } else s) u) := by
    intro l
    induction l with
    | nil => exact .refl
    | cons p l ih =>
      intro u
      refine State.tailStep.trans ?_ (ih _)
      dsimp only
      split
      · exact ⟨State.onlyChanges_mono (u.onlyChanges_upPort _ _) (by decide), fun _ => rfl⟩
      · exact .refl u
  exact (hfold _ s).trans (State.tailStep_wr _ Reg.CLK_STAT_SD_LOCK 1)

theorem exec_apply {s : State} {m : Image} (h : s.phase = phAPPLY) (hm : s.nextImage = some m) :
    exec .apply s = .next (((((s.applyFull m).trayShortfall).quiesceAll).settled.powerPorts).setPhase phPORTS) := by
  refine congrArg Host.Outcome.next ?_
  unfold apply
  rw [h, hm]
  rfl

/-! The ports trained. -/

/-- Whether a port of Knawen packets has not come up. -/
def State.untrained (s : State) (p : Nat) : Bool := s.knawenPort p && !s.on Reg.FAB_PSTAT_SECURE p

/-- A port that has not come up is powered down. -/
def State.closePort (s : State) (p : Nat) : State := if s.untrained p then s.upPort p fun q => { q with powered := false } else s

theorem State.onlyChanges_closePort (s : State) (p : Nat) : s.onlyChanges (s.closePort p) [.fab] := by
  unfold State.closePort
  split
  · exact s.onlyChanges_upPort _ _
  · exact s.onlyChanges_refl _

theorem State.untrained_congr {s t : State} (hc : t.cfg = s.cfg) (hr : t.regs = s.regs) (p : Nat) : t.untrained p = s.untrained p := by
  have hon : t.on Reg.FAB_PSTAT_SECURE p = s.on Reg.FAB_PSTAT_SECURE p := congrArg (· != 0) (State.rd_congr hr _ _ _)
  unfold State.untrained State.knawenPort State.usablePort State.portCfg
  rw [hon, hc]

theorem State.powered_closePort (s : State) (p q : Nat) (hq : s.untrained q = true) (h : q = p ∨ (s.port q).powered = false) :
    ((s.closePort p).port q).powered = false := by
  by_cases hqp : q = p
  · subst hqp
    rw [State.closePort, if_pos hq]
    simp [State.port, State.upPort, Tab.getD]
  · have hstay : (s.closePort p).port q = s.port q := by
      unfold State.closePort
      split
      · simp [State.port, State.upPort, Tab.getD, Tab.find?_put_ne _ _ hqp]
      · rfl
    rw [hstay]
    exact h.resolve_left hqp

theorem State.foldl_closePort (l : List Nat) (s : State) : s.onlyChanges (l.foldl State.closePort s) [.fab] ∧
    ∀ q, s.untrained q = true → (q ∈ l ∨ (s.port q).powered = false) → ((l.foldl State.closePort s).port q).powered = false := by
  induction l generalizing s with
  | nil => exact ⟨s.onlyChanges_refl _, fun q _ h => h.resolve_left (by simp)⟩
  | cons p l ih =>
    have hone := s.onlyChanges_closePort p
    obtain ⟨hparts, hrest⟩ := ih (s.closePort p)
    refine ⟨State.onlyChanges_trans hone hparts, fun q hq h => hrest q ?_ ?_⟩
    · rw [State.untrained_congr (hone .cfg (by decide)) (hone .regs (by decide))]
      exact hq
    · rcases h with hm | hdown
      · rcases List.mem_cons.mp hm with rfl | hm
        · exact .inr (s.powered_closePort q q hq (.inl rfl))
        · exact .inl hm
      · exact .inr (s.powered_closePort p q hq (.inr hdown))

/-- The switch runs. -/
def State.running (s : State) : State := ((s.upCar fun c => { c with warm := false }).setPhase phRUN).noteBringTime

theorem State.running_effect (s : State) : s.running.phase = phRUN ∧ s.running.car.warm = false ∧ (∀ p, s.running.port p = s.port p) ∧
    s.onlyChanges s.running [.regs, .car, .nextFree] := by
  refine ⟨?_, rfl, fun _ => rfl, by simp [State.onlyChanges_iff, State.running, State.noteBringTime, State.setPhase, State.free]⟩
  exact (State.rd_wr_separate _ _ _ _ _ (by decide) _ _).trans (State.rd_wr_self _ _ _ _ _ (by decide))

theorem exec_portsTrained {s : State} (h : s.phase = phPORTS) :
    exec .portsTrained s = .next ((List.range 32).foldl State.closePort s).running := by
  refine congrArg Host.Outcome.next ?_
  unfold portsTrained
  rw [h]
  rfl

/-- Settles O51: each phase's step, from the dies to the ports. -/
theorem bringUpAdvancesByPhase : Obligations.BringUpAdvancesByPhase := by
  unfold Obligations.BringUpAdvancesByPhase
  intro s
  refine ⟨?_, ?_, ?_, ?_, ?_, ?_⟩
  · intro dies links h
    exact ⟨_, exec_bringupHwFail dies links h, s.hwFailed_effect dies links⟩
  · intro h hs
    have hphase : s.noTrays.phase = phTRAYS := by
      refine Eq.trans ?_ h
      simp (disch := decide) only [State.phase, State.noTrays, State.rd_upSec, State.rd_wr_separate, State.rd_upPool]
    have hafter : s.noTrays.afterTrays = s.afterTrays := by
      refine State.afterTrays_congr ?_
      simp (disch := decide) only [State.noTrays, State.rd_upSec, State.rd_wr_separate, State.rd_upPool]
    obtain ⟨-, hdone, hparts⟩ := State.traysDone_effect hphase hs
    refine ⟨_, exec_trayEnumeration_nil h hs, congrArg PoolState.trays (hparts .pool (by decide)), hdone.trans hafter, ?_⟩
    refine State.onlyChanges_trans (t := s.noTrays) ?_ (State.onlyChanges_mono hparts (by decide))
    simp [State.onlyChanges_iff, State.noTrays]
  · intro p t0 h hs
    obtain ⟨hsan, hphase, hafter, hoff⟩ := State.sanitizeOff_effect hs
    obtain ⟨-, hdone, hparts⟩ := State.traysDone_effect (hphase.trans h) hsan
    exact ⟨_, exec_traySanitizeDone_ok hs, (congrArg SecState.sanitizing (hparts .sec (by decide))).trans hsan, hdone.trans hafter,
      congrArg PoolState.trays ((hparts .pool (by decide)).trans (hoff .pool (by decide))), hoff.andThen hparts⟩
  · intro p t0 h hs hlate
    obtain ⟨hsan, hphase, hafter, hoff⟩ := State.sanitizeOff_effect hs
    obtain ⟨hdown, hphase', hafter', hleft⟩ := (s.sanitizeOff p).leaveTrayDown_effect p 2
    have hsan' : ((s.sanitizeOff p).leaveTrayDown p 2).sec.sanitizing = [] :=
      (congrArg SecState.sanitizing (hleft .sec (by decide))).trans hsan
    obtain ⟨-, hdone, hparts⟩ := State.traysDone_effect ((hphase'.trans hphase).trans h) hsan'
    refine ⟨_, exec_traySanitizeTimeout_late hs hlate, (congrArg SecState.sanitizing (hparts .sec (by decide))).trans hsan', ?_,
      (hdone.trans hafter').trans hafter, ?_⟩
    · intro x hx
      exact hdown x (congrArg PoolState.trays (hparts .pool (by decide)) ▸ hx)
    · exact ((State.onlyChanges_mono hoff (by decide)).andThen hleft).andThen hparts
  · intro m h hm he hr hmoves hcap
    have hhold := (s.keepsHoldings_applyFull m).trans (State.keepsHoldings_trayShortfall _)
    have hq := (s.applyFull m).trayShortfall.onlyChanges_quiesceAll
    have hall := hhold.trans (.of_frame hq)
    have hpool := hall.1
    have htail : ((s.applyFull m).trayShortfall.quiesceAll).tailStep ((s.applyFull m).trayShortfall.quiesceAll).settled.powerPorts :=
      (State.tailStep_settled ((congrArg PoolState.extents hpool).trans he) ((congrArg PoolState.regions hpool).trans hr)
        ((congrArg PoolState.moves hpool).trans hmoves) (hall.2.trans hcap)).trans (State.tailStep_powerPorts _)
    have hphase := htail.trans (State.tailStep_wr _ Reg.PWR_RST_STAT_PHASE phPORTS)
    refine ⟨_, exec_apply h hm, State.rd_wr_self _ _ _ _ _ (by decide), fun f hf => ?_⟩
    have hcfg := (hphase.parts .cfg (by decide)).trans (hq .cfg (by decide))
    refine ((hphase.fens f).trans (State.fenState_quiesceAll _ hf)).trans ?_
    exact (congrArg (fun c : Applied => if (Tab.getD c.fens f {}).valid then fenQUIESCED else fenUNUSED) hcfg).symm
  · intro h
    obtain ⟨hparts, hdown⟩ := State.foldl_closePort (List.range 32) s
    have hrun := exec_portsTrained h
    generalize (List.range 32).foldl State.closePort s = u at hparts hdown hrun
    obtain ⟨hphase, hwarm, hport, hframe⟩ := u.running_effect
    refine ⟨_, hrun, hphase, hwarm, fun p hp hk hs => ?_, (State.onlyChanges_mono hparts (by decide)).andThen hframe⟩
    rw [hport]
    exact hdown p (by simp [State.untrained, hk, hs]) (.inl (List.mem_range.mpr hp))

end Sys2Proof.Machine
end

section
/-!
PROOF. The near-memory primitives (R107–R110, R302).  A chunk that runs and reads good granules is handed its data; what it stages goes into
its own entry of its command, and its cluster leaves the list of running chunks.
-/
namespace Sys2Proof.Machine

/-! Staging. -/

/-- A chunk that is a cluster's test run for nothing has nothing to report. -/
theorem State.rerunPassed_of_none {s : State} {cid k : Nat} {c : Cmd} {x : Chunk} (hc : s.cmdOf cid = some c)
    (hx : Tab.find? c.chunks k = some x) (ht : x.selfTest = none) : s.rerunPassed cid k = s := by
  have hnone : ((s.cmdOf cid).bind fun c => (Tab.find? c.chunks k).bind fun x => x.selfTest) = none := by
    rw [hc, Option.bind_some, hx, Option.bind_some, ht]
  unfold State.rerunPassed
  rw [hnone]

theorem State.cmdOf_upChunk {s : State} {cid : Nat} {c : Cmd} (hc : s.cmdOf cid = some c) (k : Nat) (f : Chunk → Chunk) :
    (s.upChunk cid k f).cmdOf cid = some { c with chunks := Tab.upd c.chunks k f } := by
  unfold State.cmdOf at hc
  simp [State.upChunk, State.upCid, State.cmdOf, hc]

/-- What a running chunk stages. -/
theorem State.stage_effect {s : State} {cid k : Nat} {c : Cmd} {x : Chunk} (hc : s.cmdOf cid = some c)
    (hx : Tab.find? c.chunks k = some x) (ht : x.selfTest = none) (f : Chunk → Chunk) : s.stagedAs (s.stage cid k f) cid k (f x) := by
  have hchunk := s.cmdOf_upChunk hc k fun x => { f x with phase := .staged, progress := s.hclk }
  unfold State.stage
  rw [State.rerunPassed_of_none hc hx ht]
  refine ⟨?_, ?_, ?_⟩
  · have hsame : ((s.upChunk cid k fun x => { f x with phase := .staged, progress := s.hclk }).upCmd fun b =>
        { b with running := List.filter (fun r => r.2 != (cid, k)) b.running }).cmdOf cid =
        (s.upChunk cid k fun x => { f x with phase := .staged, progress := s.hclk }).cmdOf cid := rfl
    rw [hsame, hchunk, Option.bind_some, Tab.find?_upd_self, hx, Option.map_some]
  · intro r hr
    simpa using (List.mem_filter.mp hr).2
  · simp [State.onlyChanges_iff, State.upChunk, State.upCid]

/-! Running a chunk. -/

/-- The parts of a running chunk's hypothesis. -/
theorem State.runningChunk_some {s : State} {cid k : Nat} {c : Cmd} {x : Chunk} {cl : Nat} (h : s.runningChunk cid k = some (c, x, cl)) :
    s.cmdOf cid = some c ∧ Tab.find? c.chunks k = some x := by
  unfold State.runningChunk at h
  simp only [Option.bind_eq_bind, Option.bind_eq_some_iff, Option.some.injEq, Prod.mk.injEq] at h
  obtain ⟨-, -, c', hc, x', hx, r, -, rfl, rfl, -⟩ := h
  exact ⟨hc, hx⟩

/-- A chunk that runs and reads good granules acts on its data. -/
theorem State.runData_good {s : State} {cid k op : Nat} {c : Cmd} {x : Chunk} (h : s.runsChunk cid k op c x) (reads : Cmd → List Seg)
    (act : Cmd → Bytes → State → State) (hr : s.readFault (reads c) = none) :
    s.runData cid k op reads act = act c (s.readPieces (reads c)) s := by
  obtain ⟨⟨cl, hrun⟩, hop, hsrc, hto, -⟩ := h
  unfold State.runData
  rw [hrun]
  simp only [hop, hsrc, hto, hr, ne_eq, not_true_eq_false, decide_false, Bool.or_self, if_false, Bool.false_eq_true]

/-- A chunk that runs stages into its entry. -/
theorem State.runsChunk.stagedAs {s : State} {cid k op : Nat} {c : Cmd} {x : Chunk} (h : s.runsChunk cid k op c x) (f : Chunk → Chunk) :
    s.stagedAs (s.stage cid k f) cid k (f x) := by
  obtain ⟨⟨cl, hrun⟩, -, -, -, ht⟩ := h
  obtain ⟨hc, hx⟩ := State.runningChunk_some hrun
  exact State.stage_effect hc hx ht f

theorem State.readFault_nil (s : State) : s.readFault [] = none := rfl

theorem State.readPieces_append (s : State) (ps qs : List Seg) : s.readPieces (ps ++ qs) = s.readPieces ps ++ s.readPieces qs := by
  simp [State.readPieces]

/-! COMPARE. -/

theorem firstDiff_self (i : Nat) (d : Bytes) : firstDiff i d d = none := by
  induction d generalizing i with
  | nil => rfl
  | cons b d ih =>
    rw [firstDiff, if_pos rfl]
    exact ih _

/-- The first place at which two lists of one length differ. -/
theorem firstDiff_of_differ {i : Nat} {d0 d1 : Bytes} (hlen : d0.length = d1.length) (hi : i < d0.length)
    (hsame : d0.take i = d1.take i) (hne : d0[i]? ≠ d1[i]?) (j : Nat) : firstDiff j d0 d1 = some (j + i) := by
  induction i generalizing d0 d1 j with
  | zero =>
    match d0, d1, hlen, hi with
    | a :: as, b :: bs, _, _ =>
      have hab : a ≠ b := fun e => hne (by simp [e])
      rw [firstDiff, if_neg hab, Nat.add_zero]
  | succ i ih =>
    match d0, d1, hlen, hi with
    | a :: as, b :: bs, hlen, hi =>
      rw [List.take_succ_cons, List.take_succ_cons, List.cons.injEq] at hsame
      obtain ⟨hab, htail⟩ := hsame
      rw [List.length_cons, List.length_cons] at hlen
      rw [List.length_cons] at hi
      rw [firstDiff, if_pos hab, ih (by omega) (by omega) htail (by simpa using hne), Nat.add_assoc, Nat.add_comm 1]

/-! The four commands. -/

/-- What FILL and COPY do with the data for their destination. -/
def State.stageAt (s : State) (cid k : Nat) (ps : List Seg) (n : Nat) (d : Bytes) : State :=
  if ps.any fun g => s.deadAt g.tier g.at_ then s.finish cid stTARGET_DEAD
  else s.stage cid k fun x => { x with writes := stagePieces ps d, vals := [n] }

theorem exec_fill {s : State} {cid k o n : Nat} {c : Cmd} {x : Chunk} (hd : (o, n) = dataChunk c.ref0.bytes k false)
    (h : s.runsChunk cid k 0x18 c x) :
    exec (.fill cid k) s = .next (s.stageAt cid k (c.pieces 0 o n) n ((List.replicate (n / 64) (slice c.desc 64 64)).flatten)) := by
  refine congrArg Host.Outcome.next ?_
  unfold fill
  rw [State.runData_good h _ _ rfl]
  dsimp only
  rw [← hd]
  rfl

theorem exec_copy {s : State} {cid k o n : Nat} {c : Cmd} {x : Chunk} (hd : (o, n) = dataChunk c.ref0.bytes k c.copyDown)
    (h : s.runsChunk cid k 0x19 c x) (hr : s.readFault (c.pieces 1 o n) = none) :
    exec (.copy cid k) s = .next (s.stageAt cid k (c.pieces 0 o n) n (s.readPieces (c.pieces 1 o n))) := by
  refine congrArg Host.Outcome.next ?_
  unfold copy
  rw [State.runData_good h]
  · dsimp only
    rw [← hd]
    rfl
  · dsimp only
    rw [← hd]
    exact hr

theorem exec_compare {s : State} {cid k o n : Nat} {c : Cmd} {x : Chunk} (hd : (o, n) = dataChunk c.ref0.bytes k false)
    (h : s.runsChunk cid k 0x1A c x) (hr : s.readFault (c.pieces 0 o n ++ c.pieces 1 o n) = none)
    (hlen : (s.readPieces (c.pieces 0 o n)).length = n) : exec (.compare cid k) s =
      .next (s.stage cid k fun x => { x with
        vals := ((firstDiff 0 (s.readPieces (c.pieces 0 o n)) (s.readPieces (c.pieces 1 o n))).map (o + ·)).toList }) := by
  refine congrArg Host.Outcome.next ?_
  unfold compare_
  rw [State.runData_good h]
  · dsimp only
    rw [← hd]
    dsimp only
    rw [s.readPieces_append, List.take_left' hlen, List.drop_left' hlen]
    cases firstDiff 0 (s.readPieces (c.pieces 0 o n)) (s.readPieces (c.pieces 1 o n)) <;> rfl
  · dsimp only
    rw [← hd]
    exact hr

theorem exec_reduceInPlace {s : State} {cid k o n : Nat} {c : Cmd} {x : Chunk} (hd : (o, n) = dataChunk c.ref0.bytes k false)
    (h : s.runsChunk cid k 0x1B c x) (hr : s.readFault (c.pieces 0 o n ++ c.pieces 1 o n) = none) {d : Bytes} {ty op w : Nat}
    (hdata : d = s.readPieces (c.pieces 0 o n ++ c.pieces 1 o n)) (hty : ty = c.p0 % 256) (hop : op = bits c.p0 8 8) (hw : w = tySize ty) :
    exec (.reduceInPlace cid k) s = .next (s.stage cid k fun x =>
      { x with writes := stagePieces (c.pieces 0 o n) (((List.range (n / w)).map fun i =>
                 leBytes w (reduceElem ty op (fld d (w * i) w) (fld d (n + w * i) w)).1).flatten)
               vals := [n]
               flags := ((List.range (n / w)).map fun i =>
                 (reduceElem ty op (fld d (w * i) w) (fld d (n + w * i) w)).2).foldl (fun f r => f ||| r) 0 }) := by
  subst hdata hty hop hw
  refine congrArg Host.Outcome.next ?_
  unfold reduceInPlace
  rw [State.runData_good h]
  · dsimp only
    rw [← hd]
    dsimp only
    simp only [List.map_map, List.foldl_map]
    rfl
  · dsimp only
    rw [← hd]
    exact hr

theorem State.stageAt_live {s : State} {cid k op n : Nat} {c : Cmd} {x : Chunk} (h : s.runsChunk cid k op c x) {ps : List Seg} {d : Bytes}
    (hlive : (ps.any fun g => s.deadAt g.tier g.at_) = false) :
    s.stagedAs (s.stageAt cid k ps n d) cid k { x with writes := stagePieces ps d, vals := [n] } := by
  rw [State.stageAt, hlive, if_neg (by simp)]
  exact h.stagedAs fun x => { x with writes := stagePieces ps d, vals := [n] }

/-- Settles O22: each command acts on the data that its chunk reads, and stages its result. -/
theorem dataCommandsStageTheirBytes : Obligations.DataCommandsStageTheirBytes := by
  unfold Obligations.DataCommandsStageTheirBytes
  intro s cid k c x o n
  refine ⟨fun hd => ⟨?_, ?_, ?_, ?_⟩, fun hd h hr => ⟨?_, ?_⟩⟩
  · intro h hlive
    exact ⟨_, exec_fill hd h, State.stageAt_live h hlive⟩
  · intro h hdead
    exact (exec_fill hd h).trans (congrArg Host.Outcome.next (if_pos hdead))
  · rintro d0 d1 h hr rfl rfl h0 h1
    have hrun := exec_compare hd h hr h0
    refine ⟨fun heq => ⟨_, hrun, ?_⟩, fun i hi hsame hne => ⟨_, hrun, ?_⟩⟩
    · rw [heq, firstDiff_self]
      exact h.stagedAs fun x => { x with vals := [] }
    · rw [firstDiff_of_differ (h0.trans h1.symm) (h0.symm ▸ hi) hsame hne, Nat.zero_add]
      exact h.stagedAs fun x => { x with vals := [o + i] }
  · intro d ty op w h hr hdata hty hop hw
    exact ⟨_, exec_reduceInPlace hd h hr hdata hty hop hw, h.stagedAs _⟩
  · intro hlive
    exact ⟨_, exec_copy hd h hr, State.stageAt_live h hlive⟩
  · intro hdead
    exact (exec_copy hd h hr).trans (congrArg Host.Outcome.next (if_pos hdead))

end Sys2Proof.Machine
end

section
/-!
PROOF. Moves (R93–R95).  What reserves and returns units touches registers alone, so that a move's own entry and its extent's change stand out;
a copy step stores in one tier what it read of another.
-/
namespace Sys2Proof.Machine

/-! Units and zero-fills. -/

theorem State.onlyChanges_chargeUnits (s : State) (tier fen n : Nat) (capring : Bool) : s.onlyChanges (s.chargeUnits tier fen n capring) [.regs] := by
  unfold State.chargeUnits
  split
  · exact s.onlyChanges_refl _
  · split
    · exact State.onlyChanges_trans (s.onlyChanges_wr _ _ _ _ (by decide)) (State.onlyChanges_measure _ _ _ _ _)
    · split
      · exact s.onlyChanges_wr _ _ _ _ (by decide)
      · exact s.onlyChanges_refl _

theorem State.onlyChanges_takeFree (s : State) (tier n : Nat) : s.onlyChanges (s.takeFree tier n) [.regs] := by
  unfold State.takeFree
  split
  · exact s.onlyChanges_wr _ _ _ _ (by decide)
  · split
    · exact s.onlyChanges_wr _ _ _ _ (by decide)
    · exact s.onlyChanges_refl _

/-- Units given back: registers alone, and no field apart from those that count a tier's use. -/
theorem State.returned_effect (s : State) (tier fen n : Nat) (capring : Bool) {g : Fld}
    (hg : ((Reg.FEN_NEAR_USED_UNITS :: Reg.FEN_TRAY_USED_UNITS :: Reg.POOL_NEAR_FREE_UNITS :: Reg.POOL_TRAY_FREE_UNITS :: wmNear.flds).all
      fun f => g.separate f) = true) : s.onlyChanges ((s.returnUnits tier fen n capring).giveFree tier n) [.regs] ∧
    ((s.returnUnits tier fen n capring).giveFree tier n).rd g = s.rd g := by
  obtain ⟨hnear, htray, hnfree, htfree, hwm⟩ : g.separate Reg.FEN_NEAR_USED_UNITS = true ∧ g.separate Reg.FEN_TRAY_USED_UNITS = true ∧
      g.separate Reg.POOL_NEAR_FREE_UNITS = true ∧ g.separate Reg.POOL_TRAY_FREE_UNITS = true ∧
      (wmNear.flds.all fun f => g.separate f) = true := by simpa [and_assoc] using hg
  have hreturn : s.onlyChanges (s.returnUnits tier fen n capring) [.regs] ∧ (s.returnUnits tier fen n capring).rd g = s.rd g := by
    unfold State.returnUnits
    split
    · exact ⟨s.onlyChanges_refl _, rfl⟩
    · split
      · exact ⟨State.onlyChanges_trans (s.onlyChanges_wr _ _ _ _ (by decide)) (State.onlyChanges_measure _ _ _ _ _),
          (State.rd_measure_separate _ _ _ _ _ hwm _ _).trans (s.rd_wr_separate _ _ _ _ hnear _ _)⟩
      · split
        · exact ⟨s.onlyChanges_wr _ _ _ _ (by decide), s.rd_wr_separate _ _ _ _ htray _ _⟩
        · exact ⟨s.onlyChanges_refl _, rfl⟩
  obtain ⟨hparts, hrd⟩ := hreturn
  unfold State.giveFree
  split
  · exact ⟨hparts.andThen (State.onlyChanges_wr _ _ _ _ _ (ps := [.regs]) (by decide)),
      (State.rd_wr_separate _ _ _ _ _ hnfree _ _).trans hrd⟩
  · split
    · exact ⟨hparts.andThen (State.onlyChanges_wr _ _ _ _ _ (ps := [.regs]) (by decide)),
        (State.rd_wr_separate _ _ _ _ _ htfree _ _).trans hrd⟩
    · exact ⟨hparts, hrd⟩

/-- The pool with a zero-fill queued. -/
def PoolState.scrubbing (b : PoolState) (k : Scrub) : PoolState :=
  { b with scrubs := Tab.put b.scrubs b.nextScrub k, nextScrub := b.nextScrub + 1 }

/-- A zero-fill queued: the pool's list and registers. -/
theorem State.scrub_effect (s : State) (k : Scrub) {g : Fld} (hp : g.separate Reg.POOL_SCRUB_PEND_UNITS = true)
    (hw : (wmScrub.flds.all fun f => g.separate f) = true) : (s.scrub k).pool = s.pool.scrubbing k ∧ (s.scrub k).rd g = s.rd g ∧
    s.onlyChanges (s.scrub k) [.regs, .pool] := by
  have hlist : s.onlyChanges (s.upPool (·.scrubbing k)) [.regs, .pool] := by simp [State.onlyChanges_iff]
  have hregs : (s.upPool (·.scrubbing k)).onlyChanges (s.scrub k) [.regs] :=
    State.onlyChanges_trans (State.onlyChanges_wr _ Reg.POOL_SCRUB_PEND_UNITS _ 0 0 (by decide)) (State.onlyChanges_measure _ wmScrub _ _ _)
  refine ⟨hregs .pool (by decide), ?_, hlist.andThen hregs⟩
  exact (State.rd_measure_separate _ wmScrub _ _ _ hw _ _).trans (State.rd_wr_separate _ _ _ _ _ hp _ _)

/-! One extent's change. -/

theorem State.extentsAfter_upExt {s : State} {i : Nat} (h : (Tab.find? s.pool.extents i).isSome = true) (f : Extent → Extent) :
    s.extentsAfter (s.upExt i f) [i] f :=
  State.extentsAfter_foldl_upExt (is := [i]) (by simp) (fun j hj => (List.mem_singleton.mp hj) ▸ h) f

/-! The start of a move. -/

/-- The parts of a move's command that runs and passes its checks. -/
theorem State.oneExtent_mem {s : State} {r : OpRef} {i : Nat} {e : Extent} (h : s.oneExtent r = some (i, e)) :
    (Tab.find? s.pool.extents i).isSome = true := by
  unfold State.oneExtent at h
  split at h
  · next p hp =>
    split at h
    · have hpe : p = (i, e) := Option.some.inj h
      have hmem : p ∈ s.overlapping r.loc r.bytes := by simp [hp]
      have hi : p.1 = i := congrArg Prod.fst hpe
      exact hi ▸ Tab.isSome_find?_of_mem (State.mem_extents_of_mem_overlapping hmem)
    · exact absurd h (by simp)
  · exact absurd h (by simp)

/-- The tier and mask of a move's command. -/
def moveTarget (op p1 : Nat) : Nat × Nat := (if op = 0x12 then tierNEAR else tierTRAY, if op = 0x12 then p1 else p1 % 2 ^ 32)

/-- A move's command that passes its checks, on an extent of its own: where it lies already, starts to move, or has no place. -/
theorem State.runMove_checked {s : State} {cid op : Nat} {c : Cmd} {i : Nat} {e : Extent} (hcmd : s.tableCmd cid op = some c)
    (hnone : (s.pool.moves.any fun m => m.2.cid == some cid) = false) (hcheck : s.tableCheck c 1 = stOK)
    (hone : s.oneExtent c.ref0 = some (i, e)) : s.runMove cid op =
      if s.alreadyAt e (moveTarget op c.p1).1 (moveTarget op c.p1).2 then (s.upCid cid fun c => { c with committed := 1 }).finish cid stOK
      else match s.startMove i (moveTarget op c.p1).1 (moveTarget op c.p1).2 (if e.heat = 1 then 2 else 3) (some cid) with
        | none => ((s.refuseNoRes c.fen).bump Reg.POOL_CNT_MOVE_ABORT).finish cid stNO_RESOURCE
        | some s => s.upCid cid fun d => { d with cls := if e.heat = 1 then 2 else 3 } := by
  unfold State.runMove
  simp only [hcmd, hnone, hcheck, hone, Bool.false_eq_true, if_false, ne_eq, not_true_eq_false]
  rfl

/-- The move that a reservation begins. -/
def State.moveOf (s : State) (i tier loc cls : Nat) (cid : Option Nat) : Move :=
  { cid := cid, srcTier := (s.ext i).tier, srcLoc := (s.ext i).loc, destTier := tier, dest := loc, units := (s.ext i).length
    waits := (s.pool.writes.filter fun w => w.2.ext == i).map (·.1), cls := cls, began := s.hclk }

/-- The state with a place reserved and its extent MOVING. -/
def State.moving (s : State) (i tier loc : Nat) : State :=
  ((s.upExt i fun e => { e with state := exMOVING, prior := e.state == exLEASED, destTier := tier, dest := loc }).chargeUnits tier (s.ext i).fen
    (s.ext i).length (s.ext i).capring).takeFree tier (s.ext i).length

theorem State.startMove_placed {s : State} {i tier mask loc : Nat} (cls : Nat) (cid : Option Nat)
    (hfit : s.firstFit tier mask (s.ext i).fen (s.ext i).length = some loc)
    (hrsv : s.fitsRsv tier (s.ext i).fen (s.ext i).length (s.ext i).capring = true) : s.startMove i tier mask cls cid =
      some ((s.moving i tier loc).upPool fun b => { b with moves := Tab.put b.moves i (s.moveOf i tier loc cls cid) }) := by
  unfold State.startMove
  dsimp only
  rw [hfit]
  dsimp only
  rw [hrsv]
  rfl

theorem State.startMove_unplaced {s : State} {i tier mask : Nat} (cls : Nat) (cid : Option Nat)
    (hfit : s.firstFit tier mask (s.ext i).fen (s.ext i).length = none) : s.startMove i tier mask cls cid = none := by
  unfold State.startMove
  dsimp only
  rw [hfit]

theorem State.moving_effect {s : State} {i : Nat} (h : (Tab.find? s.pool.extents i).isSome = true) (tier loc : Nat) :
    s.extentsAfter (s.moving i tier loc) [i]
      (fun e => { e with state := exMOVING, prior := e.state == exLEASED, destTier := tier, dest := loc }) ∧
      s.onlyChanges (s.moving i tier loc) [.regs, .pool] := by
  have hext : s.onlyChanges (s.upExt i fun e => { e with state := exMOVING, prior := e.state == exLEASED, destTier := tier, dest := loc })
      [.regs, .pool] := by simp [State.onlyChanges_iff, State.upExt]
  have hregs := (State.onlyChanges_chargeUnits (s.upExt i fun e => { e with state := exMOVING, prior := e.state == exLEASED
                                                                            destTier := tier, dest := loc })
    tier (s.ext i).fen (s.ext i).length (s.ext i).capring).andThen (State.onlyChanges_takeFree _ tier (s.ext i).length)
  exact ⟨State.extentsAfter_congr (State.extentsAfter_upExt h _) (congrArg PoolState.extents (hregs .pool (by decide))), hext.andThen hregs⟩

/-! A copy step. -/

theorem State.noteBad_of_good {s : State} {tier a n : Nat} (h : s.badRange tier a n = false) : s.noteBad tier a n = s := by
  have hnone : (granKeys tier a n).filter s.badKey = [] := by
    rw [List.filter_eq_nil_iff]
    intro k hk
    simpa using (List.any_eq_false.mp h) k hk
  unfold State.noteBad
  rw [hnone]
  split <;> rfl

theorem State.length_readTier (s : State) (tier a n : Nat) (hm : s.memoryOk = true) : (s.readTier tier a n).length = n := by
  simp only [State.memoryOk, Bool.and_eq_true] at hm
  obtain ⟨⟨hnear, htray⟩, hhost⟩ := hm
  unfold State.readTier
  split
  · rw [memRead_eq_map hnear, List.length_map, List.length_range]
  · split
    · rw [memRead_eq_map htray, List.length_map, List.length_range]
    · rw [memRead_eq_map hhost, List.length_map, List.length_range]

/-- What is written to a tier reads back. -/
theorem State.readTier_writeTier {s : State} (hm : s.memoryOk = true) (tier a : Nat) (d : Bytes) :
    (s.writeTier tier a d).readTier tier a d.length = d := by
  simp only [State.memoryOk, Bool.and_eq_true] at hm
  obtain ⟨⟨hnear, htray⟩, hhost⟩ := hm
  by_cases h0 : tier = tierNEAR
  · simp only [State.readTier, State.writeTier, if_pos h0, memRead_memWrite hnear]
  · by_cases h1 : tier = tierTRAY
    · simp only [State.readTier, State.writeTier, if_neg h0, if_pos h1, memRead_memWrite htray]
    · simp only [State.readTier, State.writeTier, if_neg h0, if_neg h1, memRead_memWrite hhost]

theorem State.onlyChanges_writeTier {s : State} {tier : Nat} (h : tier < 2) (a : Nat) (d : Bytes) :
    s.onlyChanges (s.writeTier tier a d) [.near, .tray] := by
  have ht : tier = tierNEAR ∨ tier = tierTRAY := by
    unfold tierNEAR tierTRAY
    omega
  rcases ht with rfl | rfl
  · simp [State.onlyChanges_iff, State.writeTier]
  · simp [State.onlyChanges_iff, State.writeTier, tierNEAR, tierTRAY]

/-- A move with `k` units copied. -/
def Move.copiedTo (m : Move) (k : Nat) (now : Nat) : Move := { m with copied := k, copyEnd := if k = m.units then some now else none }

/-- A unit stored at a move's destination, its granules' state with it. -/
def State.unitStored (s : State) (m : Move) (src dst : Nat) (bad : List Nat) : State :=
  ((s.writeTier m.destTier dst (s.readTier m.srcTier src unitBytes)).mendKeys (granKeys m.destTier dst unitBytes)).poisonKeys bad

/-- The bad granules of a unit's source, at its destination. -/
def State.badCarried (s : State) (m : Move) (src dst : Nat) : List Nat :=
  ((granKeys m.srcTier src unitBytes).filter s.badKey).map fun k => granKey m.destTier dst + (k - granKey m.srcTier src)

theorem exec_moveCopyStep {s : State} {i : Nat} {m : Move} (hm : Tab.find? s.pool.moves i = some m) (hlt : m.copied < m.units)
    (hmay : s.mayCopy m = true) {src dst : Nat} (hsrc : src = locByte m.srcTier m.srcLoc + m.copied * unitBytes)
    (hdst : dst = locByte m.destTier m.dest + m.copied * unitBytes) (hslive : s.deadAt m.srcTier src = false)
    (hdlive : s.deadAt m.destTier dst = false) (hgood : s.badRange m.srcTier src unitBytes = false) :
    ∃ bad, exec (.moveCopyStep i) s = .next ((s.unitStored m src dst bad).upPool fun b => { b with
      moves := Tab.upd b.moves i fun x => { x with copied := m.copied + 1
                                                   copyEnd := if m.copied + 1 = x.units then some (s.unitStored m src dst bad).hclk else none } }) := by
  refine ⟨s.badCarried m src dst, congrArg Host.Outcome.next ?_⟩
  subst hsrc hdst
  unfold moveCopyStep
  rw [hm]
  dsimp only
  rw [if_neg (by simp [hmay, hlt]), if_neg (by simp [hslive, hdlive]), State.noteBad_of_good hgood]
  rfl

theorem State.unitStored_effect {s : State} (hok : s.memoryOk = true) {m : Move} (ht : m.destTier < 2) (src dst : Nat) (bad : List Nat) :
    (s.unitStored m src dst bad).readTier m.destTier dst unitBytes = s.readTier m.srcTier src unitBytes ∧
      s.onlyChanges (s.unitStored m src dst bad) [.near, .tray, .flt] := by
  refine ⟨?_, ?_⟩
  · have hback := State.readTier_writeTier hok m.destTier dst (s.readTier m.srcTier src unitBytes)
    rw [s.length_readTier _ _ _ hok] at hback
    exact hback
  · refine State.onlyChanges_trans (State.onlyChanges_mono (State.onlyChanges_writeTier ht dst (s.readTier m.srcTier src unitBytes)) (by decide)) ?_
    simp [State.onlyChanges_iff, State.unitStored, State.mendKeys, State.poisonKeys]

/-! The commit. -/

/-- An extent at its move's destination. -/
def Extent.moved (m : Move) (e : Extent) : Extent :=
  { e with tier := m.destTier, loc := m.dest, state := e.restored, prior := false, destTier := 0, dest := 0 }

/-- The source's zero-fill. -/
def State.vacated (s : State) (i : Nat) (m : Move) : Scrub :=
  { tier := m.srcTier, loc := m.srcLoc, units := m.units, fen := (s.ext i).fen, capring := (s.ext i).capring }

/-- Whether a line of an atomic unit lies outside a move's source. -/
def Move.sparesLine (m : Move) (x : Line) : Bool :=
  decide (x.key < granKey m.srcTier (locByte m.srcTier m.srcLoc)) ||
    decide (granKey m.srcTier (locByte m.srcTier m.srcLoc + m.units * unitBytes) ≤ x.key)

/-- The move's place taken over, before the zero-fill of its source. -/
def State.relocated (s : State) (i : Nat) (m : Move) (h : Tab (List HistEnt)) : State :=
  ((s.upFab fun b => { b with hist := h, lines := Tab.mapVals b.lines fun _ l => l.filter m.sparesLine }).upExt i (Extent.moved m)).upPool
    fun b => { b with moves := Tab.del b.moves i }

/-- A move committed. -/
def State.moveCommitted (s : State) (i : Nat) (m : Move) (h : Tab (List HistEnt)) : State :=
  ((s.relocated i m h).scrub (s.vacated i m)).bump Reg.POOL_CNT_MOVE_OK

theorem exec_moveCommit {s : State} {i : Nat} {m : Move} {h : Tab (List HistEnt)} (hm : Tab.find? s.pool.moves i = some m)
    (hf : s.fatal = false) (hw : s.car.warm = false) (hend : m.copyEnd.isSome = true) (hr : s.otherReaders i = 0)
    (hwr : (s.pool.writes.any fun w => w.2.ext == i) = false)
    (hh : s.moveHistory i (dieAt m.srcTier (locByte m.srcTier m.srcLoc)) (dieAt m.destTier (locByte m.destTier m.dest)) = some h) :
    exec (.moveCommit i) s = .next (match m.cid with
      | none => s.moveCommitted i m h
      | some cid => ((s.moveCommitted i m h).upCid cid fun c => { c with committed := 1 }).finish cid stOK) := by
  have hnone : m.copyEnd.isNone = false := by
    cases hc : m.copyEnd with
    | none => simp [hc] at hend
    | some t => rfl
  refine congrArg Host.Outcome.next ?_
  unfold moveCommit
  rw [hm]
  dsimp only
  rw [hf, hw, hnone, hr, hwr, if_neg (by simp), hh]
  cases m.cid <;> rfl

theorem State.moveCommitted_effect {s : State} {i : Nat} (hi : Tab.has s.pool.extents i = true) (m : Move) (h : Tab (List HistEnt)) :
    s.extentsAfter (s.moveCommitted i m h) [i] (Extent.moved m) ∧ Tab.find? (s.moveCommitted i m h).pool.moves i = none ∧
      (s.moveCommitted i m h).fab.hist = h ∧
      Tab.find? (s.moveCommitted i m h).pool.scrubs s.pool.nextScrub = some (s.vacated i m) ∧
      (s.moveCommitted i m h).rd Reg.POOL_CNT_MOVE_OK = min (s.rd Reg.POOL_CNT_MOVE_OK + 1) (2 ^ Reg.POOL_CNT_MOVE_OK.width - 1) ∧
      s.onlyChanges (s.moveCommitted i m h) [.regs, .pool, .fab] := by
  obtain ⟨hpool, hrd, hparts⟩ := (s.relocated i m h).scrub_effect (s.vacated i m) (g := Reg.POOL_CNT_MOVE_OK) (by decide) (by decide)
  have hrel : s.onlyChanges (s.relocated i m h) [.regs, .pool, .fab] := by simp [State.onlyChanges_iff, State.relocated, State.upExt]
  have hpool' : (s.moveCommitted i m h).pool = (s.relocated i m h).pool.scrubbing (s.vacated i m) := hpool
  refine ⟨?_, ?_, ?_, ?_, ?_, (hrel.andThen hparts).andThen (State.onlyChanges_bump _ _ 0 0 1 (ps := [.regs]) (by decide))⟩
  · refine State.extentsAfter_congr (State.extentsAfter_upExt hi _) ?_
    rw [hpool']
    rfl
  · rw [hpool']
    exact Tab.find?_del_self _ _
  · exact congrArg FabState.hist (hparts .fab (by decide))
  · rw [hpool']
    exact Tab.find?_put_self _ _ _
  · rw [State.moveCommitted, State.rd_bump_self _ _ _ _ _ (by decide), hrd]
    rfl

/-! A move released. -/

/-- An extent back in the state it had before its move. -/
def Extent.stayed (e : Extent) : Extent := { e with state := e.restored, prior := false, destTier := 0, dest := 0 }

/-- The move off the list, its extent as before. -/
def State.moveOff (s : State) (i : Nat) : State :=
  (s.upExt i Extent.stayed).upPool fun b => { b with moves := Tab.del b.moves i }

/-- The part copied so far zero-filled. -/
def State.copyScrubbed (s : State) (m : Move) (e : Extent) : State :=
  if m.copied = 0 then s
  else s.scrub { tier := m.destTier, loc := m.dest, units := m.copied, fen := e.fen, capring := e.capring }

theorem State.releaseMove_eq {s : State} {i : Nat} {m : Move} (hm : Tab.find? s.pool.moves i = some m) : s.releaseMove i =
    (((((s.moveOff i).returnUnits m.destTier (s.ext i).fen (m.units - m.copied) (s.ext i).capring).giveFree m.destTier
      (m.units - m.copied)).copyScrubbed m (s.ext i)).bump Reg.POOL_CNT_MOVE_ABORT) := by
  unfold State.releaseMove
  rw [hm]
  rfl

theorem State.copyScrubbed_effect (s : State) (m : Move) (e : Extent) : (s.copyScrubbed m e).pool.extents = s.pool.extents ∧
    (s.copyScrubbed m e).pool.moves = s.pool.moves ∧ (s.copyScrubbed m e).rd Reg.POOL_CNT_MOVE_ABORT = s.rd Reg.POOL_CNT_MOVE_ABORT ∧
    s.onlyChanges (s.copyScrubbed m e) [.regs, .pool] := by
  unfold State.copyScrubbed
  split
  · exact ⟨rfl, rfl, rfl, s.onlyChanges_refl _⟩
  · obtain ⟨hpool, hrd, hparts⟩ := s.scrub_effect { tier := m.destTier, loc := m.dest, units := m.copied, fen := e.fen, capring := e.capring }
      (g := Reg.POOL_CNT_MOVE_ABORT) (by decide) (by decide)
    exact ⟨(congrArg PoolState.extents hpool).trans rfl, (congrArg PoolState.moves hpool).trans rfl, hrd, hparts⟩

theorem State.releaseMove_effect {s : State} {i : Nat} {m : Move} (hm : Tab.find? s.pool.moves i = some m)
    (hi : Tab.has s.pool.extents i = true) : s.extentsAfter (s.releaseMove i) [i] Extent.stayed ∧
      Tab.find? (s.releaseMove i).pool.moves i = none ∧
      (s.releaseMove i).rd Reg.POOL_CNT_MOVE_ABORT = min (s.rd Reg.POOL_CNT_MOVE_ABORT + 1) (2 ^ Reg.POOL_CNT_MOVE_ABORT.width - 1) ∧
      s.onlyChanges (s.releaseMove i) [.regs, .pool] := by
  have hoff : s.onlyChanges (s.moveOff i) [.regs, .pool] := by simp [State.onlyChanges_iff, State.moveOff, State.upExt]
  obtain ⟨hret, hrdret⟩ := (s.moveOff i).returned_effect m.destTier (s.ext i).fen (m.units - m.copied) (s.ext i).capring
    (g := Reg.POOL_CNT_MOVE_ABORT) (by decide)
  rw [State.releaseMove_eq hm]
  generalize ((s.moveOff i).returnUnits m.destTier (s.ext i).fen (m.units - m.copied) (s.ext i).capring).giveFree m.destTier
    (m.units - m.copied) = u at hret hrdret
  obtain ⟨hext, hmoves, hrd, hscrub⟩ := u.copyScrubbed_effect m (s.ext i)
  have hpool : u.pool = (s.moveOff i).pool := hret .pool (by decide)
  refine ⟨?_, ?_, ?_, ((hoff.andThen hret).andThen hscrub).andThen (State.onlyChanges_bump _ _ 0 0 1 (ps := [.regs]) (by decide))⟩
  · refine State.extentsAfter_congr (State.extentsAfter_upExt hi _) (hext.trans ?_)
    rw [hpool]
    rfl
  · refine (congrArg (fun l => Tab.find? l i) (hmoves.trans (congrArg PoolState.moves hpool))).trans ?_
    exact Tab.find?_del_self _ _
  · rw [State.rd_bump_self _ _ _ _ _ (by decide), hrd, hrdret]
    rfl

theorem exec_moveDrainTimeout {s : State} {i t0 : Nat} {m : Move} (hm : Tab.find? s.pool.moves i = some m) (hend : m.copyEnd = some t0)
    (hr : s.otherReaders i ≠ 0) (hlate : s.rd Reg.POOL_MOVE_DRAIN_US < s.sinceUs t0) :
    exec (.moveDrainTimeout i) s = .next (match m.cid with
      | none => s.releaseMove i
      | some cid => (s.releaseMove i).complete cid stABORTED) := by
  have habort : s.abortMove i stABORTED = (match m.cid with
      | none => s.releaseMove i
      | some cid => (s.releaseMove i).complete cid stABORTED) := by
    cases hc : m.cid with
    | none => simp only [State.abortMove, hm, hc]
    | some c => simp only [State.abortMove, hm, hc]
  refine congrArg Host.Outcome.next (Eq.trans ?_ habort)
  unfold moveDrainTimeout
  rw [hm]
  dsimp only
  rw [hend]
  exact if_pos (by simp [hr, hlate])

/-- Settles O23: a move begins with its reservation, copies unit by unit, and ends by its commit or its release. -/
theorem movesReserveCopyAndCommit : Obligations.MovesReserveCopyAndCommit := by
  unfold Obligations.MovesReserveCopyAndCommit
  intro s
  refine ⟨?_, ?_, ?_, ?_⟩
  · intro cid c i e cmd op tier mask hforms hcmd hnone hcheck hone he hwf
    have hlisted := State.oneExtent_mem hone
    have hrun : exec cmd s = .next (s.runMove cid op) ∧ (tier, mask) = moveTarget op c.p1 := by
      rcases hforms with hform | hform
      · obtain ⟨rfl, rfl, rfl, rfl⟩ : cmd = Instr.migrate cid ∧ op = 0x12 ∧ tier = tierNEAR ∧ mask = c.p1 := by simpa using hform
        exact ⟨rfl, rfl⟩
      · obtain ⟨rfl, rfl, rfl, rfl⟩ : cmd = Instr.evict cid ∧ op = 0x13 ∧ tier = tierTRAY ∧ mask = c.p1 % 2 ^ 32 := by simpa using hform
        exact ⟨rfl, rfl⟩
    obtain ⟨hrun, htarget⟩ := hrun
    have hmove := State.runMove_checked hcmd hnone hcheck hone
    rw [← htarget] at hmove
    refine ⟨?_, ?_, ?_⟩
    · intro hat
      exact ⟨_, hrun.trans (congrArg Host.Outcome.next (hmove.trans (if_pos hat))), s.onlyChanges_upCid _ _⟩
    · intro loc hat hfit hrsv
      rw [hat, if_neg (by simp)] at hmove
      subst he
      rw [State.startMove_placed _ _ hfit hrsv] at hmove
      obtain ⟨hext, hparts⟩ := State.moving_effect hlisted tier loc
      refine ⟨_, _, hrun.trans (congrArg Host.Outcome.next hmove), Tab.find?_put_self _ _ _, rfl, rfl, rfl, rfl, rfl, rfl, rfl,
        State.extentsAfter_congr hext rfl, ?_⟩
      refine State.onlyChanges_trans (State.onlyChanges_mono hparts (by decide)) ?_
      simp [State.onlyChanges_iff, State.upCid]
    · intro hat hfit
      rw [hat, if_neg (by simp)] at hmove
      subst he
      rw [State.startMove_unplaced _ _ hfit] at hmove
      refine ⟨_, hrun.trans (congrArg Host.Outcome.next hmove), by simp [State.onlyChanges_iff, State.refuseNoRes], ?_⟩
      exact State.regsKept_trans (s.regsKept_bump _ _ _ _ (by simp)) (State.regsKept_bump _ _ _ _ _ (by simp))
  · intro i m src dst hm hlt hmay hsrc hdst hst hdt hslive hdlive hgood hok
    obtain ⟨bad, hrun⟩ := exec_moveCopyStep hm hlt hmay hsrc hdst hslive hdlive hgood
    obtain ⟨hbytes, hparts⟩ := State.unitStored_effect hok hdt src dst bad
    have hpool : (s.unitStored m src dst bad).pool = s.pool := hparts .pool (by decide)
    refine ⟨_, hrun, hbytes, ?_, (congrArg PoolState.extents hpool : (s.unitStored m src dst bad).pool.extents = _), ?_⟩
    · rw [State.upPool_pool, Tab.find?_upd_self, hpool, hm, hparts .hclk (by decide)]
      rfl
    · refine State.onlyChanges_trans (State.onlyChanges_mono hparts (by decide)) ?_
      simp [State.onlyChanges_iff]
  · intro i m h hm hf hw hend hr hwr hi hh
    have hrun := exec_moveCommit hm hf hw hend hr hwr hh
    obtain ⟨hext, hmoves, hhist, hscrub, hcnt, hparts⟩ := State.moveCommitted_effect hi m h
    cases hcid : m.cid with
    | none =>
      rw [hcid] at hrun
      exact ⟨_, hrun, hext, hmoves, hhist, hscrub, hcnt, State.onlyChanges_mono hparts (by decide)⟩
    | some cid =>
      rw [hcid] at hrun
      exact ⟨_, hrun, State.extentsAfter_congr hext rfl, hmoves, hhist, hscrub, hcnt,
        (State.onlyChanges_mono hparts (by decide)).andThen (State.onlyChanges_upCid _ _ _)⟩
  · intro i m t0 hm hend hr hlate hi
    obtain ⟨hext, hmoves, hcnt, hparts⟩ := State.releaseMove_effect hm hi
    exact ⟨_, exec_moveDrainTimeout hm hend hr hlate, hext, hmoves, hcnt, hparts⟩

end Sys2Proof.Machine
end

section
/-!
PROOF. Groups of registers: a field written at each of its indices, records cut into words, and fields apart within their index bounds.
-/
namespace Sys2Proof.Machine

/-! Little-endian values. -/

theorem leNat_lt (b : Bytes) : leNat b < 256 ^ b.length := by
  induction b with
  | nil => simp [leNat]
  | cons x b ih =>
    have hx := x.isLt
    rw [leNat, List.length_cons, Nat.pow_succ]
    omega

theorem fld_lt (b : Bytes) (o k : Nat) : fld b o k < 256 ^ k := by
  have hlen : (slice b o k).length = k := length_slice b o k
  have := leNat_lt (slice b o k)
  rwa [hlen] at this

theorem leNat_leBytes (k v : Nat) : leNat (leBytes k v) = v % 256 ^ k := by
  induction k generalizing v with
  | zero => simp [leBytes, leNat, Nat.mod_one]
  | succ k ih =>
    have hbase : (256 : Nat) ^ (k + 1) = 256 * 256 ^ k := Nat.pow_succ'
    rw [leBytes, leNat, ih, BitVec.toNat_ofNat, hbase, Nat.mod_mul]

/-! Fields apart within their bounds. -/

/-- A write leaves a field that lies apart from it as it was, at indices within the table. -/
theorem State.rd_wr_apart (s : State) {f g : Fld} (v : Nat) {i j a b : Nat} (h : g.apart f = true) (hf : f.lo < 32) (hg : g.lo < 32)
    (hi : i < f.n1) (hj : j < f.n2) (ha : a < g.n1) (hb : b < g.n2) : (s.wr f v i j).rd g a b = s.rd g a b :=
  s.rd_wr_ne _ _ _ _ _ _ _ (Fld.key_ne_of_apart h hg hf ha hb hi hj)

/-- A write at one index leaves the field's other indices as they were. -/
theorem State.rd_wr_index (s : State) {f : Fld} (v : Nat) {i a : Nat} (h : f.placesDistinct = true) (h2 : 0 < f.n2) (hi : i < f.n1)
    (ha : a < f.n1) (hne : a ≠ i) : (s.wr f v i).rd f a = s.rd f a :=
  s.rd_wr_ne _ _ _ _ _ _ _ fun e => hne (Fld.key_inj h ha h2 hi h2 e).1

/-! A field written at each of its first indices. -/

/-- Write a field at the indices below `n`. -/
def State.wrEach (s : State) (f : Fld) (v : Nat → Nat) (n : Nat) : State := (List.range n).foldl (fun s w => s.wr f (v w) w) s

theorem State.wrEach_succ (s : State) (f : Fld) (v : Nat → Nat) (n : Nat) : s.wrEach f v (n + 1) = (s.wrEach f v n).wr f (v n) n := by
  simp [State.wrEach, List.range_succ]

theorem State.rd_wrEach (s : State) {f : Fld} (v : Nat → Nat) {n w : Nat} (h : f.placesDistinct = true) (h2 : 0 < f.n2) (hn : n ≤ f.n1)
    (hw : f.width ≤ 32) (hlt : w < n) : (s.wrEach f v n).rd f w = v w % 2 ^ f.width := by
  induction n with
  | zero => omega
  | succ n ih =>
    rw [State.wrEach_succ]
    by_cases hwn : w = n
    · rw [hwn]
      exact State.rd_wr_self _ _ _ _ _ hw
    · rw [State.rd_wr_index _ _ h h2 (by omega) (by omega) hwn]
      exact ih (by omega) (by omega)

theorem State.rd_wrEach_separate (s : State) (f : Fld) (v : Nat → Nat) (n : Nat) {g : Fld} (h : g.separate f = true) (a b : Nat) :
    (s.wrEach f v n).rd g a b = s.rd g a b := by
  induction n with
  | zero => rfl
  | succ n ih => rw [State.wrEach_succ, State.rd_wr_separate _ _ _ _ _ h, ih]

theorem State.onlyChanges_wrEach (s : State) (f : Fld) (v : Nat → Nat) (n : Nat) : s.onlyChanges (s.wrEach f v n) [.regs] := by
  induction n with
  | zero => exact s.onlyChanges_refl _
  | succ n ih =>
    rw [State.wrEach_succ]
    exact State.onlyChanges_trans ih (State.onlyChanges_wr _ _ _ _ _ (by decide))

/-! The end of a register operation. -/

/-- An operation's end shows its status and DONE, and writes nothing else. -/
theorem State.setEnd_effect (s : State) {f g : Fld} (hf : f.width = 8) (hg : g.width = 1) (hs : f.separate g = true) {st : Nat} (hst : st < 256) :
    (s.setEnd f g st).rd f = st ∧ (s.setEnd f g st).rd g = 1 ∧ s.onlyChanges (s.setEnd f g st) [.regs] ∧
      s.regsKeptBut (s.setEnd f g st) [f.key 0 0, g.key 0 0] := by
  refine ⟨?_, ?_, by simp [State.onlyChanges_iff, State.setEnd], ?_⟩
  · rw [State.setEnd, State.rd_wr_separate _ _ _ _ _ hs, State.rd_wr_self _ _ _ _ _ (by omega), hf]
    exact Nat.mod_eq_of_lt hst
  · rw [State.setEnd, State.rd_wr_self _ _ _ _ _ (by omega)]
    simp [hg]
  · exact State.regsKept_trans (s.regsKept_wr _ _ _ _ (by simp)) (State.regsKept_wr _ _ _ _ _ (by simp))

end Sys2Proof.Machine
end

section
/-!
PROOF. Route tables and the capture ring (R354, R357, R358, R361, R365, R367).  An operation of the set writes its code, acts on one bank, and
ends with its status; the other bank and the choice between them stay.
-/
namespace Sys2Proof.Machine

/-! Banks. -/

theorem State.bank_congr {s t : State} (h : t.rd Reg.RTE_ACTIVE_BANK = s.rd Reg.RTE_ACTIVE_BANK) (hx : t.xbr.bank0 = s.xbr.bank0)
    (hy : t.xbr.bank1 = s.xbr.bank1) : t.bank = s.bank ∧ t.shadow = s.shadow := by
  unfold State.bank State.shadow
  rw [h, hx, hy]
  exact ⟨rfl, rfl⟩

theorem State.bank_wr (s : State) (f : Fld) (v : Nat) (h : Reg.RTE_ACTIVE_BANK.separate f = true) :
    (s.wr f v).bank = s.bank ∧ (s.wr f v).shadow = s.shadow := State.bank_congr (s.rd_wr_separate _ _ _ _ h _ _) rfl rfl

/-- The shadow replaced: it reads so, and the active bank is as it was. -/
theorem State.bank_setShadow (s : State) (b : Bank) : (s.setShadow b).bank = s.bank ∧ (s.setShadow b).shadow = b := by
  have hrd : (s.setShadow b).rd Reg.RTE_ACTIVE_BANK = s.rd Reg.RTE_ACTIVE_BANK := rfl
  unfold State.bank State.shadow
  rw [hrd]
  by_cases h : s.rd Reg.RTE_ACTIVE_BANK = 0
  · simp [h, State.setShadow]
  · simp [h, State.setShadow]

theorem State.onlyChanges_setShadow (s : State) (b : Bank) : s.onlyChanges (s.setShadow b) [.xbr] := by
  simp [State.onlyChanges_iff, State.setShadow]

/-! An operation's frame. -/

/-- An operation with its code. -/
def State.rteAsked (s : State) (code : Nat) : State := s.wr Reg.RTE_OP_CODE code

theorem State.rd_rteAsked (s : State) (code : Nat) {g : Fld} (h : g.separate Reg.RTE_OP_CODE = true) (a b : Nat) :
    (s.rteAsked code).rd g a b = s.rd g a b := s.rd_wr_separate _ _ _ _ h _ _

theorem State.bank_rteAsked (s : State) (code : Nat) : (s.rteAsked code).bank = s.bank ∧ (s.rteAsked code).shadow = s.shadow :=
  s.bank_wr _ _ (by decide)

theorem State.onlyChanges_rteAsked (s : State) (code : Nat) : s.onlyChanges (s.rteAsked code) [.regs] := s.onlyChanges_wr _ _ _ _ (by decide)

theorem State.rteEnd_effect (s : State) {st : Nat} (hst : st < 256) : (s.rteEnd st).rd Reg.RTE_STATUS_STATUS = st ∧
    (s.rteEnd st).rd Reg.RTE_STATUS_DONE = 1 ∧ s.onlyChanges (s.rteEnd st) [.regs] ∧
    s.regsKeptBut (s.rteEnd st) [Reg.RTE_STATUS_STATUS.key 0 0, Reg.RTE_STATUS_DONE.key 0 0] :=
  s.setEnd_effect rfl rfl (by decide) hst

theorem State.rd_rteEnd (s : State) (st : Nat) {g : Fld} (h1 : g.separate Reg.RTE_STATUS_STATUS = true)
    (h2 : g.separate Reg.RTE_STATUS_DONE = true) (a b : Nat) : (s.rteEnd st).rd g a b = s.rd g a b :=
  (State.rd_wr_separate _ _ _ _ _ h2 _ _).trans (s.rd_wr_separate _ _ _ _ h1 _ _)

theorem State.bank_rteEnd (s : State) (st : Nat) : (s.rteEnd st).bank = s.bank ∧ (s.rteEnd st).shadow = s.shadow :=
  State.bank_congr (s.rd_rteEnd st (by decide) (by decide) _ _) rfl rfl

section
variable {s : State} {a : Access} (h : s.admitsWrite a 0x2600004)
include h

theorem exec_rteRead : exec (.rteRead a) s = .next (s.rteAsked 1).rteRead := congrArg Host.Outcome.next (State.window_admitted h _)
theorem exec_rteWrite : exec (.rteWrite a) s = .next (s.rteAsked 2).rteWrite := congrArg Host.Outcome.next (State.window_admitted h _)
theorem exec_rteCopy : exec (.rteCopy a) s = .next (s.rteAsked 3).rteCopy := congrArg Host.Outcome.next (State.window_admitted h _)
theorem exec_cancel : exec (.cancel a) s = .next (s.rteAsked 6).rteCancel := congrArg Host.Outcome.next (State.window_admitted h _)

theorem exec_swap (rb : Bool) : exec (.swap a rb) s = .next ((s.wrb Reg.RTE_OP_REBUILD rb).rteAsked 4).rteSwap :=
  congrArg Host.Outcome.next (State.window_admitted h _)

theorem exec_swapAt (rb : Bool) : exec (.swapAt a rb) s = .next ((s.wrb Reg.RTE_OP_REBUILD rb).rteAsked 5).rteSwapAt :=
  congrArg Host.Outcome.next (State.window_admitted h _)

end

/-- An operation that only ends with a status. -/
theorem State.rteRefused_effect (s : State) (code : Nat) {st : Nat} (hst : st < 256) :
    ((s.rteAsked code).rteEnd st).rd Reg.RTE_STATUS_STATUS = st ∧ s.onlyChanges ((s.rteAsked code).rteEnd st) [.regs] ∧
      s.regsKeptBut ((s.rteAsked code).rteEnd st)
        [Reg.RTE_OP_CODE.key 0 0, Reg.RTE_STATUS_STATUS.key 0 0, Reg.RTE_STATUS_DONE.key 0 0] := by
  obtain ⟨hstat, -, hparts, hregs⟩ := (s.rteAsked code).rteEnd_effect hst
  exact ⟨hstat, (s.onlyChanges_rteAsked code).andThen hparts,
    State.regsKept_trans (s.regsKept_wr _ _ _ _ (by simp)) (State.regsKept_mono hregs (by simp))⟩

/-! READ. -/

/-- A map's registers. -/
def mapBytes (m : List Nat) : Bytes := (List.range 64).map fun k => BitVec.ofNat 8 (m.getD k 0xFF)

/-- An entry shown. -/
def State.entryShown (s : State) (r : Bytes) (m : List Nat) : State :=
  (s.wrEach Reg.RTE_DATA (fun w => fld r (4 * w) 4) 4).wrEach Reg.RTE_MAP (fun w => fld (mapBytes m) (4 * w) 4) 16

theorem State.rteRead_inside {s : State} {t i : Nat} (ht : t = s.rd Reg.RTE_INDEX_TABLE) (hi : i = s.rd Reg.RTE_INDEX_INDEX) (hlt : t < 3)
    (hin : rteOutside t i = false) : s.rteRead = (s.entryShown ((if s.on Reg.RTE_INDEX_BANK then s.shadow else s.bank).entry t i).1
      ((if s.on Reg.RTE_INDEX_BANK then s.shadow else s.bank).entry t i).2).rteEnd stOK := by
  subst ht hi
  unfold State.rteRead
  dsimp only
  rw [if_neg (by omega), hin, if_neg (by simp)]
  rfl

theorem State.rteRead_outside {s : State} {t i : Nat} (ht : t = s.rd Reg.RTE_INDEX_TABLE) (hi : i = s.rd Reg.RTE_INDEX_INDEX) (hlt : t < 3)
    (hout : rteOutside t i = true) : s.rteRead = s.rteEnd stRANGE := by
  subst ht hi
  unfold State.rteRead
  dsimp only
  rw [if_neg (by omega), hout, if_pos rfl]

theorem State.entryShown_effect (s : State) (r : Bytes) (m : List Nat) :
    (∀ w, w < 4 → (s.entryShown r m).rd Reg.RTE_DATA w = fld r (4 * w) 4) ∧
      (∀ w, w < 16 → (s.entryShown r m).rd Reg.RTE_MAP w = fld (mapBytes m) (4 * w) 4) ∧ s.onlyChanges (s.entryShown r m) [.regs] := by
  have hlt : ∀ (b : Bytes) (o : Nat), fld b o 4 % 2 ^ 32 = fld b o 4 := fun b o => Nat.mod_eq_of_lt (fld_lt b o 4)
  refine ⟨fun w hw => ?_, fun w hw => ?_, State.onlyChanges_trans (s.onlyChanges_wrEach _ _ _) (State.onlyChanges_wrEach _ _ _ _)⟩
  · have hapart : (s.entryShown r m).rd Reg.RTE_DATA w = (s.wrEach Reg.RTE_DATA (fun w => fld r (4 * w) 4) 4).rd Reg.RTE_DATA w := by
      have : ∀ n, n ≤ 16 → ((s.wrEach Reg.RTE_DATA (fun w => fld r (4 * w) 4) 4).wrEach Reg.RTE_MAP (fun w => fld (mapBytes m) (4 * w) 4) n).rd
          Reg.RTE_DATA w = (s.wrEach Reg.RTE_DATA (fun w => fld r (4 * w) 4) 4).rd Reg.RTE_DATA w := by
        intro n
        induction n with
        | zero => exact fun _ => rfl
        | succ n ih =>
          intro hn
          rw [State.wrEach_succ, State.rd_wr_apart _ _ (by decide) (by decide) (by decide) (show n < 16 from hn) (by decide)
            (by simpa [Reg.RTE_DATA] using hw) (by decide), ih (by omega)]
      exact this 16 (Nat.le_refl _)
    rw [hapart, State.rd_wrEach _ _ (by decide) (by decide) (by decide) (by decide) hw]
    exact hlt _ _
  · rw [State.entryShown, State.rd_wrEach _ _ (by decide) (by decide) (by decide) (by decide) hw]
    exact hlt _ _

/-! WRITE. -/

/-- The record in the data registers. -/
def State.rteRecord (s : State) : Bytes := ((List.range 4).map fun w => leBytes 4 (s.rd Reg.RTE_DATA w)).flatten

theorem State.rteWrite_eq (s : State) : s.rteWrite =
    if s.rteWriteStatus (s.rd Reg.RTE_INDEX_TABLE) (s.rd Reg.RTE_INDEX_INDEX) s.rteRecord ≠ stOK then
      s.rteEnd (s.rteWriteStatus (s.rd Reg.RTE_INDEX_TABLE) (s.rd Reg.RTE_INDEX_INDEX) s.rteRecord)
    else (((s.upFlt fun f => { f with badEntries := f.badEntries.filter fun k =>
        k != (1 - s.rd Reg.RTE_ACTIVE_BANK) * 2 ^ 16 + s.rd Reg.RTE_INDEX_TABLE * 2 ^ 12 + s.rd Reg.RTE_INDEX_INDEX }).setShadow
      (s.shadow.write (s.rd Reg.RTE_INDEX_INDEX) s.rteRecord)).rteEnd stOK) := rfl

theorem State.rteRecord_asked (s : State) (code : Nat) : (s.rteAsked code).rteRecord = s.rteRecord := by
  unfold State.rteRecord
  refine congrArg List.flatten (List.map_congr_left fun w _ => ?_)
  rw [s.rd_rteAsked code (by decide)]

theorem State.rteWriteStatus_asked (s : State) (code t i : Nat) (r : Bytes) :
    (s.rteAsked code).rteWriteStatus t i r = s.rteWriteStatus t i r := by
  have hranges : rteRangesBad (s.rteAsked code) i r = rteRangesBad s i r := rfl
  unfold State.rteWriteStatus
  rw [hranges, s.rd_rteAsked code (by decide)]
  rfl

/-- The entry's mark of an uncorrectable error taken off. -/
def State.entryMended (s : State) : State :=
  s.upFlt fun f => { f with badEntries := f.badEntries.filter fun k =>
    k != (1 - s.rd Reg.RTE_ACTIVE_BANK) * 2 ^ 16 + s.rd Reg.RTE_INDEX_TABLE * 2 ^ 12 + s.rd Reg.RTE_INDEX_INDEX }

/-- What a WRITE does, by its status. -/
theorem exec_rteWrite_status {s : State} {a : Access} (h : s.admitsWrite a 0x2600004) {t i st : Nat} {r : Bytes}
    (ht : t = s.rd Reg.RTE_INDEX_TABLE) (hi : i = s.rd Reg.RTE_INDEX_INDEX) (hr : r = s.rteRecord) (hst : s.rteWriteStatus t i r = st) :
    exec (.rteWrite a) s = .next (if st ≠ stOK then (s.rteAsked 2).rteEnd st
      else (((s.rteAsked 2).entryMended.setShadow (s.shadow.write i r)).rteEnd stOK)) := by
  have htable : (s.rteAsked 2).rd Reg.RTE_INDEX_TABLE = t := (s.rd_rteAsked 2 (by decide) _ _).trans ht.symm
  have hindex : (s.rteAsked 2).rd Reg.RTE_INDEX_INDEX = i := (s.rd_rteAsked 2 (by decide) _ _).trans hi.symm
  have hrec : (s.rteAsked 2).rteRecord = r := (s.rteRecord_asked 2).trans hr.symm
  have hform : (s.rteAsked 2).rteWrite = if (s.rteAsked 2).rteWriteStatus t i r ≠ stOK then
      (s.rteAsked 2).rteEnd ((s.rteAsked 2).rteWriteStatus t i r)
      else ((s.rteAsked 2).entryMended.setShadow ((s.rteAsked 2).shadow.write i r)).rteEnd stOK := by
    rw [← htable, ← hindex, ← hrec]
    rfl
  rw [exec_rteWrite h, hform, s.rteWriteStatus_asked, hst, (s.bank_rteAsked 2).2]

theorem State.mended_effect (s : State) : s.entryMended.bank = s.bank ∧ s.onlyChanges s.entryMended [.flt] :=
  ⟨rfl, by simp [State.onlyChanges_iff, State.entryMended]⟩

/-- A WRITE that ends OK: the shadow holds the record, the active bank what it held. -/
theorem exec_rteWrite_ok {s : State} {a : Access} (h : s.admitsWrite a 0x2600004) {t i : Nat} {r : Bytes}
    (ht : t = s.rd Reg.RTE_INDEX_TABLE) (hi : i = s.rd Reg.RTE_INDEX_INDEX) (hr : r = s.rteRecord) (hst : s.rteWriteStatus t i r = stOK) :
    ∃ u, exec (.rteWrite a) s = .next u ∧ u.bank = s.bank ∧ u.shadow = s.shadow.write i r ∧ u.rd Reg.RTE_STATUS_STATUS = stOK ∧
      s.onlyChanges u [.regs, .flt, .xbr] := by
  have hrun := exec_rteWrite_status h ht hi hr hst
  rw [if_neg (by simp)] at hrun
  obtain ⟨hbank, hparts⟩ := (s.rteAsked 2).mended_effect
  obtain ⟨hset, hshadow⟩ := (s.rteAsked 2).entryMended.bank_setShadow (s.shadow.write i r)
  have hsetparts := (s.rteAsked 2).entryMended.onlyChanges_setShadow (s.shadow.write i r)
  obtain ⟨hstat, -, hendparts, -⟩ := ((s.rteAsked 2).entryMended.setShadow (s.shadow.write i r)).rteEnd_effect (st := stOK) (by decide)
  obtain ⟨hb, hs⟩ := ((s.rteAsked 2).entryMended.setShadow (s.shadow.write i r)).bank_rteEnd stOK
  refine ⟨_, hrun, ((hb.trans hset).trans hbank).trans (s.bank_rteAsked 2).1, hs.trans hshadow, hstat, ?_⟩
  exact (((State.onlyChanges_mono (s.onlyChanges_rteAsked 2) (by decide)).andThen hparts).andThen hsetparts).andThen hendparts

/-- A WRITE that is refused. -/
theorem exec_rteWrite_refused {s : State} {a : Access} (h : s.admitsWrite a 0x2600004) {t i st : Nat} {r : Bytes}
    (ht : t = s.rd Reg.RTE_INDEX_TABLE) (hi : i = s.rd Reg.RTE_INDEX_INDEX) (hr : r = s.rteRecord) (hst : s.rteWriteStatus t i r = st)
    (hne : st ≠ stOK) : exec (.rteWrite a) s = .next ((s.rteAsked 2).rteEnd st) := by
  rw [exec_rteWrite_status h ht hi hr hst, if_pos hne]

/-- A record that passes its checks is of its table. -/
theorem State.table_of_rteWriteStatus {s : State} {t i : Nat} {r : Bytes} (h : s.rteWriteStatus t i r = stOK) : fld r 0 1 = t := by
  refine Decidable.byContradiction fun hne => ?_
  unfold State.rteWriteStatus at h
  rw [show (t = 3 || fld r 0 1 != t) = true by simp [hne]] at h
  split at h
  · exact absurd h (by decide)
  · rw [if_pos rfl] at h
    exact absurd h (by decide)

/-! Records written into a bank. -/

theorem Bank.write_route {b : Bank} {i : Nat} {r : Bytes} (h : fld r 0 1 = 0) :
    (Tab.find? (b.write i r).routes i).map (·.portset) = (if fld r 4 4 = 0 then none else some (fld r 4 4)) ∧
      (∀ k, k ≠ i → Tab.find? (b.write i r).routes k = Tab.find? b.routes k) ∧ (b.write i r).matches_ = b.matches_ ∧
      (b.write i r).seed = b.seed := by
  unfold Bank.write
  rw [h]
  by_cases hp : fld r 4 4 = 0
  · simp only [hp, if_true]
    exact ⟨by simp, fun k hk => Tab.find?_del_ne _ hk, trivial, trivial⟩
  · simp only [hp, if_false]
    exact ⟨by simp, fun k hk => Tab.find?_put_ne _ _ hk, trivial, trivial⟩

theorem Bank.write_match {b : Bank} {i : Nat} {r : Bytes} (h : fld r 0 1 = 1) :
    (Tab.find? (b.write i r).matches_ i).map (fun e => (e.priority, e.dst, e.dstMask, e.opcode, e.opcMask, e.action, e.portset, e.valid)) =
        some (fld r 1 1, fld r 4 2, fld r 6 2, fld r 8 1, fld r 9 1, fld r 10 1, fld r 12 4, bit (fld r 11 1) 0) ∧
      (∀ k, k ≠ i → Tab.find? (b.write i r).matches_ k = Tab.find? b.matches_ k) ∧ (b.write i r).routes = b.routes ∧
      (b.write i r).seed = b.seed := by
  unfold Bank.write
  rw [h]
  exact ⟨by simp, fun k hk => Tab.find?_put_ne _ _ hk, rfl, rfl⟩

theorem Bank.write_seed {b : Bank} {i : Nat} {r : Bytes} (h : fld r 0 1 = 2) : b.write i r = { b with seed := some (fld r 4 4) } := by
  unfold Bank.write
  rw [h]
  rfl

/-- The first byte of a record is its first data register's. -/
theorem State.fld_rteRecord_zero (s : State) : fld s.rteRecord 0 1 = fld (leBytes 4 (s.rd Reg.RTE_DATA 0)) 0 1 := rfl

/-! Swaps. -/

theorem State.buildMap_congr {s t : State} (hc : t.cfg = s.cfg) (hd : ∀ p, t.rd Reg.FAB_PSTAT_DEAD p = s.rd Reg.FAB_PSTAT_DEAD p)
    (portset : Nat) : t.buildMap portset = s.buildMap portset := by
  have hq : ∀ p, (t.usablePort p && t.alive p) = (s.usablePort p && s.alive p) := by
    intro p
    unfold State.usablePort State.portCfg State.alive State.on
    rw [hc, hd p]
  unfold State.buildMap
  simp only [hq]

/-- The map that a route of the shadow is given. -/
def State.preparedMap (s : State) (rebuild : Bool) (k : Nat) (e : RouteEnt) : List Nat :=
  match Tab.find? s.bank.routes k with
  | some o => if !rebuild && o.portset == e.portset && o.isLocal == e.isLocal then o.map else s.buildMap e.portset
  | none => s.buildMap e.portset

theorem Tab.find?_mapVals_some {α : Type} {t : Tab α} {f : Nat → α → α} {i : Nat} {v : α} (h : Tab.find? t i = some v) :
    Tab.find? (Tab.mapVals t f) i = some (f i v) := by
  induction t with
  | nil => cases h
  | cons p t ih =>
    obtain ⟨k, w⟩ := p
    by_cases hk : k = i
    · subst hk
      have hw : w = v := by simpa [Tab.find?] using h
      simp [Tab.mapVals, Tab.find?, hw]
    · have hrest : Tab.find? t i = some v := by simpa [Tab.find?, hk] using h
      simpa [Tab.mapVals, Tab.find?, hk] using ih hrest

theorem State.prepared_routes_eq (s : State) (rebuild : Bool) : (s.prepared rebuild).routes =
    Tab.mapVals s.shadow.routes fun k e => { e with map := s.preparedMap rebuild k e } := by
  unfold State.prepared
  dsimp only
  refine congrArg (Tab.mapVals s.shadow.routes) (funext fun k => funext fun e => ?_)
  unfold State.preparedMap
  cases Tab.find? s.bank.routes k with
  | none => rfl
  | some o =>
    dsimp only
    split <;> rfl

theorem State.prepared_routes {s : State} (rebuild : Bool) {k : Nat} {e : RouteEnt} (h : Tab.find? s.shadow.routes k = some e) :
    Tab.find? (s.prepared rebuild).routes k = some { e with map := s.preparedMap rebuild k e } := by
  rw [s.prepared_routes_eq]
  exact Tab.find?_mapVals_some h

/-- A route whose ports changed, or every one under REBUILD, has its map built anew. -/
theorem State.preparedMap_built {s : State} {rebuild : Bool} {k : Nat} {e : RouteEnt}
    (h : rebuild = true ∨ (Tab.find? s.bank.routes k).map (·.portset) ≠ some e.portset) : s.preparedMap rebuild k e = s.buildMap e.portset := by
  unfold State.preparedMap
  cases hf : Tab.find? s.bank.routes k with
  | none => rfl
  | some o =>
    dsimp only
    refine if_neg ?_
    rcases h with hr | hp
    · simp [hr]
    · rw [hf, Option.map_some, ne_eq, Option.some.injEq] at hp
      simp [hp]

/-- A swap asked for, with REBUILD. -/
def State.swapAsked (s : State) (rb : Bool) (code : Nat) : State := (s.wrb Reg.RTE_OP_REBUILD rb).rteAsked code

theorem State.swapAsked_effect (s : State) (rb : Bool) (code : Nat) : (s.swapAsked rb code).bank = s.bank ∧
    (s.swapAsked rb code).shadow = s.shadow ∧ (s.swapAsked rb code).on Reg.RTE_OP_REBUILD = rb ∧
    (∀ p, (s.swapAsked rb code).buildMap p = s.buildMap p) ∧ s.onlyChanges (s.swapAsked rb code) [.regs] := by
  obtain ⟨hb, hs⟩ := (s.wrb Reg.RTE_OP_REBUILD rb).bank_rteAsked code
  obtain ⟨hb', hs'⟩ := s.bank_wr Reg.RTE_OP_REBUILD (b2n rb) (by decide)
  refine ⟨hb.trans hb', hs.trans hs', ?_, fun p => State.buildMap_congr (s := s) (t := s.swapAsked rb code) rfl (fun q => ?_) p, ?_⟩
  · rw [State.on, State.swapAsked, State.rd_rteAsked _ _ (by decide), State.wrb, State.rd_wr_self _ _ _ _ _ (by decide)]
    cases rb <;> rfl
  · rw [State.swapAsked, State.rd_rteAsked _ _ (by decide), State.wrb, State.rd_wr_separate _ _ _ _ _ (by decide)]
  · exact (s.onlyChanges_wr _ _ _ _ (by decide)).andThen (State.onlyChanges_rteAsked _ code)

/-- A swap accepted: it is pending, the shadow prepared, the active bank as it was. -/
theorem State.acceptSwap_effect (s : State) (atNs : Option Nat) : (s.acceptSwap atNs).xbr.swap = some { atNs := atNs } ∧
    (s.acceptSwap atNs).rd Reg.RTE_OP_PENDING = 1 ∧ (s.acceptSwap atNs).bank = s.bank ∧
    (s.acceptSwap atNs).shadow = s.prepared (s.on Reg.RTE_OP_REBUILD) ∧ (s.acceptSwap atNs).rd Reg.RTE_STATUS_STATUS = stOK ∧
    s.onlyChanges (s.acceptSwap atNs) [.regs, .xbr] := by
  have hform : s.acceptSwap atNs = ((((s.setShadow (s.prepared (s.on Reg.RTE_OP_REBUILD))).upXbr fun x => { x with swap := some { atNs := atNs } }).wr
    Reg.RTE_OP_PENDING 1).rteEnd stOK) := rfl
  obtain ⟨hb, hs⟩ := s.bank_setShadow (s.prepared (s.on Reg.RTE_OP_REBUILD))
  obtain ⟨hb1, hs1⟩ := State.bank_congr (s := s.setShadow (s.prepared (s.on Reg.RTE_OP_REBUILD)))
    (t := (s.setShadow (s.prepared (s.on Reg.RTE_OP_REBUILD))).upXbr fun x => { x with swap := some { atNs := atNs } }) rfl rfl rfl
  obtain ⟨hb2, hs2⟩ := State.bank_wr ((s.setShadow (s.prepared (s.on Reg.RTE_OP_REBUILD))).upXbr fun x => { x with swap := some { atNs := atNs } })
    Reg.RTE_OP_PENDING 1 (by decide)
  obtain ⟨hb3, hs3⟩ := State.bank_rteEnd (((s.setShadow (s.prepared (s.on Reg.RTE_OP_REBUILD))).upXbr fun x =>
    { x with swap := some { atNs := atNs } }).wr Reg.RTE_OP_PENDING 1) stOK
  rw [hform]
  refine ⟨rfl, ?_, ((hb3.trans hb2).trans hb1).trans hb, ((hs3.trans hs2).trans hs1).trans hs, (State.rteEnd_effect _ (by decide)).1, ?_⟩
  · rw [State.rd_rteEnd _ _ (by decide) (by decide)]
    exact State.rd_wr_self _ _ _ _ _ (by decide)
  · refine State.onlyChanges_trans (State.onlyChanges_mono (s.onlyChanges_setShadow (s.prepared (s.on Reg.RTE_OP_REBUILD))) (by decide)) ?_
    simp [State.onlyChanges_iff, State.rteEnd, State.setEnd]

/-- What a swap that is accepted leaves. -/
theorem State.swapAccepted_effect (s : State) (rb : Bool) (code : Nat) (w : Option Nat) :
    ((s.swapAsked rb code).acceptSwap w).xbr.swap = some { atNs := w } ∧ ((s.swapAsked rb code).acceptSwap w).rd Reg.RTE_OP_PENDING = 1 ∧
      ((s.swapAsked rb code).acceptSwap w).bank = s.bank ∧ ((s.swapAsked rb code).acceptSwap w).shadow.seed = s.shadow.seed ∧
      (∀ k e, Tab.find? s.shadow.routes k = some e →
        ∃ m, Tab.find? ((s.swapAsked rb code).acceptSwap w).shadow.routes k = some { e with map := m } ∧
          ((rb = true ∨ (Tab.find? s.bank.routes k).map (·.portset) ≠ some e.portset) → m = s.buildMap e.portset)) ∧
      ((s.swapAsked rb code).acceptSwap w).rd Reg.RTE_STATUS_STATUS = stOK ∧
      s.onlyChanges ((s.swapAsked rb code).acceptSwap w) [.regs, .xbr] := by
  obtain ⟨hbank, hshadow, hreb, hmap, hparts⟩ := s.swapAsked_effect rb code
  obtain ⟨hswap, hpend, hb, hs, hstat, hframe⟩ := (s.swapAsked rb code).acceptSwap_effect w
  rw [hreb] at hs
  refine ⟨hswap, hpend, hb.trans hbank, ?_, ?_, hstat, (State.onlyChanges_mono hparts (by decide)).andThen hframe⟩
  · rw [hs]
    exact (congrArg Bank.seed hshadow : (s.swapAsked rb code).shadow.seed = _)
  · intro k e he
    rw [← hshadow] at he
    refine ⟨_, (congrArg (fun b : Bank => Tab.find? b.routes k) hs).trans (State.prepared_routes rb he), fun h => ?_⟩
    rw [← hbank] at h
    rw [State.preparedMap_built h, hmap]

theorem exec_swap_accepted {s : State} {a : Access} (h : s.admitsWrite a 0x2600004) (rb : Bool) (hn : s.xbr.swap = none) :
    exec (.swap a rb) s = .next ((s.swapAsked rb 4).acceptSwap none) := by
  have hnone : (s.swapAsked rb 4).xbr.swap.isSome = false := by
    show s.xbr.swap.isSome = false
    rw [hn]
    rfl
  exact (exec_swap h rb).trans (congrArg Host.Outcome.next (if_neg (ne_true_of_eq_false hnone)))

/-- The time in the swap's registers. -/
def State.swapTime (s : State) : Nat := s.rd64 Reg.RTE_SWAP_TIME_LO Reg.RTE_SWAP_TIME_HI

theorem State.swapTime_asked (s : State) (rb : Bool) (code : Nat) : (s.swapAsked rb code).swapTime = s.swapTime := by
  simp (disch := decide) only [State.swapTime, State.rd64, State.swapAsked, State.rd_rteAsked, State.wrb, State.rd_wr_separate]

/-- SWAP_AT on a set with no swap pending. -/
theorem exec_swapAt_free {s : State} {a : Access} (h : s.admitsWrite a 0x2600004) (rb : Bool) (hn : s.xbr.swap = none) :
    exec (.swapAt a rb) s = .next (if s.swapTime * 2 ^ 32 < s.tabor + 20000 * 2 ^ 32 then (s.swapAsked rb 5).rteEnd stRANGE
      else (s.swapAsked rb 5).acceptSwap (some s.swapTime)) := by
  have hform : (s.swapAsked rb 5).rteSwapAt = if (s.swapAsked rb 5).xbr.swap.isSome then (s.swapAsked rb 5).rteEnd stRETRY
      else if decide ((s.swapAsked rb 5).swapTime * 2 ^ 32 < (s.swapAsked rb 5).tabor + 20000 * 2 ^ 32) then (s.swapAsked rb 5).rteEnd stRANGE
      else (s.swapAsked rb 5).acceptSwap (some (s.swapAsked rb 5).swapTime) := rfl
  have hnone : (s.swapAsked rb 5).xbr.swap = none := hn
  refine (exec_swapAt h rb).trans (congrArg Host.Outcome.next (hform.trans ?_))
  rw [hnone, if_neg (by simp), s.swapTime_asked]
  simp only [decide_eq_true_eq]
  rfl

/-- While a swap is pending the operations that would disturb it are refused. -/
theorem exec_pending_refused {s : State} {a : Access} (h : s.admitsWrite a 0x2600004) (hp : s.xbr.swap ≠ none) {c : Instr} {rb : Bool}
    (hc : c = Instr.rteWrite a ∨ c = Instr.rteCopy a ∨ c = Instr.swap a rb ∨ c = Instr.swapAt a rb) :
    ∃ u, exec c s = .next u ∧ u.rd Reg.RTE_STATUS_STATUS = stRETRY ∧ s.onlyChanges u [.regs] := by
  have hsome : s.xbr.swap.isSome = true := Option.isSome_iff_ne_none.mpr hp
  have hasked : ∀ code, (s.rteAsked code).xbr.swap.isSome = true := fun _ => hsome
  have hswap : ∀ code, ((s.swapAsked rb code).rteEnd stRETRY).rd Reg.RTE_STATUS_STATUS = stRETRY ∧
      s.onlyChanges ((s.swapAsked rb code).rteEnd stRETRY) [.regs] := fun code => by
    obtain ⟨hstat, -, hparts, -⟩ := (s.swapAsked rb code).rteEnd_effect (st := stRETRY) (by decide)
    exact ⟨hstat, (s.swapAsked_effect rb code).2.2.2.2.andThen hparts⟩
  rcases hc with rfl | rfl | rfl | rfl
  · have hst : s.rteWriteStatus (s.rd Reg.RTE_INDEX_TABLE) (s.rd Reg.RTE_INDEX_INDEX) s.rteRecord = stRETRY := if_pos hsome
    obtain ⟨hstat, hparts, -⟩ := s.rteRefused_effect 2 (st := stRETRY) (by decide)
    exact ⟨_, exec_rteWrite_refused h rfl rfl rfl hst (by decide), hstat, hparts⟩
  · obtain ⟨hstat, hparts, -⟩ := s.rteRefused_effect 3 (st := stRETRY) (by decide)
    exact ⟨_, (exec_rteCopy h).trans (congrArg Host.Outcome.next (if_pos (hasked 3))), hstat, hparts⟩
  · exact ⟨_, (exec_swap h rb).trans (congrArg Host.Outcome.next (if_pos hsome)), hswap 4⟩
  · exact ⟨_, (exec_swapAt h rb).trans (congrArg Host.Outcome.next (if_pos hsome)), hswap 5⟩

/-! COPY and CANCEL. -/

theorem exec_rteCopy_free {s : State} {a : Access} (h : s.admitsWrite a 0x2600004) (hn : s.xbr.swap = none) :
    ∃ u, exec (.rteCopy a) s = .next u ∧ u.shadow = s.bank ∧ u.bank = s.bank ∧ u.rd Reg.RTE_STATUS_STATUS = stOK ∧
      s.onlyChanges u [.regs, .xbr] := by
  have hnone : (s.rteAsked 3).xbr.swap.isSome = false := by
    show s.xbr.swap.isSome = false
    rw [hn]
    rfl
  have hrun : exec (.rteCopy a) s = .next (((s.rteAsked 3).setShadow (s.rteAsked 3).bank).rteEnd stOK) :=
    (exec_rteCopy h).trans (congrArg Host.Outcome.next (if_neg (by simp [hnone])))
  obtain ⟨hb, hs⟩ := (s.rteAsked 3).bank_setShadow (s.rteAsked 3).bank
  obtain ⟨hb', hs'⟩ := ((s.rteAsked 3).setShadow (s.rteAsked 3).bank).bank_rteEnd stOK
  obtain ⟨hstat, -, hparts, -⟩ := ((s.rteAsked 3).setShadow (s.rteAsked 3).bank).rteEnd_effect (st := stOK) (by decide)
  refine ⟨_, hrun, (hs'.trans hs).trans (s.bank_rteAsked 3).1, (hb'.trans hb).trans (s.bank_rteAsked 3).1, hstat, ?_⟩
  exact ((State.onlyChanges_mono (s.onlyChanges_rteAsked 3) (by decide)).andThen ((s.rteAsked 3).onlyChanges_setShadow _)).andThen hparts

/-- A pending swap taken off. -/
def State.swapOff (s : State) : State := (s.upXbr fun x => { x with swap := none }).wr Reg.RTE_OP_PENDING 0

theorem State.swapOff_effect (s : State) : s.swapOff.xbr.swap = none ∧ s.swapOff.rd Reg.RTE_OP_PENDING = 0 ∧ s.swapOff.bank = s.bank ∧
    s.swapOff.shadow = s.shadow ∧ s.onlyChanges s.swapOff [.regs, .xbr] := by
  obtain ⟨hb, hs⟩ := State.bank_congr (s := s) (t := s.upXbr fun x => { x with swap := none }) rfl rfl rfl
  obtain ⟨hb', hs'⟩ := (s.upXbr fun x => { x with swap := none }).bank_wr Reg.RTE_OP_PENDING 0 (by decide)
  exact ⟨rfl, State.rd_wr_self _ _ _ _ _ (by decide), hb'.trans hb, hs'.trans hs, by simp [State.onlyChanges_iff, State.swapOff]⟩

theorem exec_cancel_effect {s : State} {a : Access} (h : s.admitsWrite a 0x2600004) : ∃ u, exec (.cancel a) s = .next u ∧
    u.xbr.swap = none ∧ u.rd Reg.RTE_OP_PENDING = 0 ∧ u.bank = s.bank ∧ u.shadow = s.shadow ∧ u.rd Reg.RTE_STATUS_STATUS = stOK ∧
    s.onlyChanges u [.regs, .xbr] := by
  have hrun : exec (.cancel a) s = .next ((s.rteAsked 6).swapOff.rteEnd stOK) := exec_cancel h
  obtain ⟨hnone, hpend, hb, hs, hoff⟩ := (s.rteAsked 6).swapOff_effect
  obtain ⟨hb', hs'⟩ := (s.rteAsked 6).swapOff.bank_rteEnd stOK
  obtain ⟨hstat, -, hparts, -⟩ := (s.rteAsked 6).swapOff.rteEnd_effect (st := stOK) (by decide)
  refine ⟨_, hrun, hnone, ?_, (hb'.trans hb).trans (s.bank_rteAsked 6).1, (hs'.trans hs).trans (s.bank_rteAsked 6).2, hstat, ?_⟩
  · rw [State.rd_rteEnd _ _ (by decide) (by decide), hpend]
  · exact ((State.onlyChanges_mono (s.onlyChanges_rteAsked 6) (by decide)).andThen hoff).andThen hparts

/-! A swap takes effect. -/

/-- The banks exchanged, counted. -/
def State.swapped (s : State) : State := (s.wr Reg.RTE_ACTIVE_BANK (1 - s.rd Reg.RTE_ACTIVE_BANK)).bump Reg.RTE_CNT_SWAP

theorem State.bank_swapped (s : State) : s.swapped.bank = s.shadow ∧ s.swapped.shadow = s.bank := by
  have hrd : s.swapped.rd Reg.RTE_ACTIVE_BANK = (1 - s.rd Reg.RTE_ACTIVE_BANK) % 2 := by
    rw [State.swapped, State.rd_bump_separate _ _ _ _ _ (by decide), State.rd_wr_self _ _ _ _ _ (by decide)]
    rfl
  unfold State.bank State.shadow
  rw [hrd]
  by_cases h : s.rd Reg.RTE_ACTIVE_BANK = 0
  · rw [h]
    exact ⟨rfl, rfl⟩
  · have hz : 1 - s.rd Reg.RTE_ACTIVE_BANK = 0 := by omega
    rw [hz, if_neg h, if_neg h]
    exact ⟨rfl, rfl⟩

/-- The homes that have a port alive, or that need none, are not stranded. -/
theorem State.strandedHomes_nil {s : State} (h : ∀ r ∈ s.bank.routes, r.2.isLocal = true ∨ r.2.portset = 0 ∨ s.homeDead r.1 = true ∨
    ∃ q ∈ bitList 32 r.2.portset, s.alive q = true) : s.strandedHomes = [] := by
  rw [State.strandedHomes, List.filter_eq_nil_iff]
  intro r hr
  rcases h r hr with hl | hp | hd | ⟨q, hq, ha⟩
  · simp [hl]
  · simp [hp]
  · simp [hd]
  · have hall : ((bitList 32 r.2.portset).all fun q => !s.alive q) = false :=
      List.all_eq_false.mpr ⟨q, hq, by simp [ha]⟩
    simp [hall]

theorem exec_swapActivate_due {s : State} {w : Swap} (hw : s.xbr.swap = some w) (hdue : w.atNs.getD 0 * 2 ^ 32 ≤ s.tabor)
    (hnone : s.swapOff.swapped.strandedHomes = []) : exec .swapActivate s = .next s.swapOff.swapped := by
  refine congrArg Host.Outcome.next ?_
  unfold swapActivate
  rw [hw]
  dsimp only
  rw [if_neg (by omega)]
  exact if_pos (by rw [List.isEmpty_iff]; exact hnone)

/-- The fields of dead homes and neighbours stay at a swap. -/
theorem State.rd_swapped {s : State} {g : Fld} {i : Nat} (hg : g.lo < 32) (hi : i < g.n1) (h2 : 0 < g.n2)
    (h : ([Reg.RTE_OP_PENDING, Reg.RTE_ACTIVE_BANK, Reg.RTE_CNT_SWAP].all fun f => g.apart f) = true) :
    s.swapOff.swapped.rd g i = s.rd g i := by
  obtain ⟨h1, h3, h4⟩ : g.apart Reg.RTE_OP_PENDING = true ∧ g.apart Reg.RTE_ACTIVE_BANK = true ∧ g.apart Reg.RTE_CNT_SWAP = true := by
    simpa using h
  have hcnt : s.swapOff.swapped.rd g i = (s.swapOff.wr Reg.RTE_ACTIVE_BANK (1 - s.swapOff.rd Reg.RTE_ACTIVE_BANK)).rd g i :=
    State.rd_wr_apart _ _ h4 (by decide) hg (by decide) (by decide) hi h2
  rw [hcnt, State.rd_wr_apart _ _ h3 (by decide) hg (by decide) (by decide) hi h2]
  exact State.rd_wr_apart (s.upXbr fun x => { x with swap := none }) _ h1 (by decide) hg (by decide) (by decide) hi h2

theorem exec_swapActivate_waiting {s : State} (h : ∀ w, s.xbr.swap = some w → s.tabor < w.atNs.getD 0 * 2 ^ 32) :
    exec .swapActivate s = .next s := by
  refine congrArg Host.Outcome.next ?_
  unfold swapActivate
  cases hw : s.xbr.swap with
  | none => rfl
  | some w => exact if_pos (h w hw)

/-! The capture ring. -/

/-- A byte of a range made 0 reads 0. -/
theorem memGet_memZero (m : List Host.Cell) {a n x : Nat} (h : a ≤ x) (h' : x < a + n) : memGet (memZero m a n) x = 0 := by
  have hnone : ∀ c ∈ memZero m a n, c.1 ≠ x := fun c hc => by
    have := (List.mem_filter.mp hc).2
    simp at this
    omega
  generalize memZero m a n = cells at hnone
  induction cells with
  | nil => rfl
  | cons c l ih =>
    have hl := ih fun d hd => hnone d (List.mem_cons_of_mem _ hd)
    obtain ⟨k, v⟩ := c
    have hk : k ≠ x := hnone (k, v) List.mem_cons_self
    rw [memGet, if_neg hk]
    split
    · rfl
    · exact hl

/-- Of a table in which nothing satisfies a test, an entry put in that satisfies it is alone. -/
theorem Tab.filter_put_of_none {α : Type} (q : Nat × α → Bool) (t : Tab α) {i : Nat} {v : α} (hnone : t.filter q = []) (hv : q (i, v) = true) :
    (Tab.put t i v).filter q = [(i, v)] := by
  induction t with
  | nil => simp [Tab.put, hv]
  | cons c t ih =>
    obtain ⟨k, w⟩ := c
    rw [List.filter_eq_nil_iff] at hnone
    have hc : q (k, w) = false := by simpa using hnone (k, w) List.mem_cons_self
    have ht : t.filter q = [] := List.filter_eq_nil_iff.mpr fun d hd => hnone d (List.mem_cons_of_mem _ hd)
    unfold Tab.put
    split
    · simp [hv, hc, ht]
    · split
      · simp [hv, ht]
      · simp [hc, ih ht]

/-- The ring's extent as R361 creates it. -/
def State.ringExtent (s : State) (n start : Nat) : Extent :=
  { start := start, state := exRESIDENT, length := n, tier := tierNEAR, fen := s.rd Reg.XBR_CAP_FEN_FEN, region := s.rd Reg.XBR_CAP_REGION_REGION,
    pin := true, capring := true }

/-- MODE and LOG2 taken. -/
def State.capSet (s : State) (mode : Bool) (log2 : Nat) : State := (s.wrb Reg.XBR_CAP_CTL_MODE mode).wr Reg.XBR_CAP_CTL_LOG2 log2

/-- The ring's indices zeroed. -/
def State.capZeroed (s : State) : State := (s.wr Reg.XBR_CAP_WR_INDEX 0).wr Reg.XBR_CAP_RD_INDEX 0

/-- The ring's extent put into the table, charged. -/
def State.ringCharged (s : State) (i : Nat) (e : Extent) : State :=
  ((s.upPool fun b => { b with extents := Tab.put b.extents i e }).inc Reg.FEN_EXT_USED_COUNT 1 e.fen).dec Reg.POOL_NEAR_FREE_UNITS e.length

/-- The near range of an extent zeroed, its bad and poisoned granules whole. -/
def State.ringZeroed (s : State) (loc n : Nat) : State :=
  ({ s with near := memZero s.near (locByte tierNEAR loc) (n * unitBytes) } : State).mendKeys ((s.flt.badGranules ++ s.flt.poisoned).filter fun k =>
    decide (granKey tierNEAR (locByte tierNEAR loc) ≤ k) && decide (k < granKey tierNEAR (locByte tierNEAR loc + n * unitBytes)))

/-- What a ring's allocation gives where first fit finds a place. -/
theorem State.allocate_ring {s : State} {e : Extent} {mask loc i : Nat} (hcap : e.capring = true) (htier : e.tier = tierNEAR)
    (hloc : s.firstFit e.tier mask e.fen e.length = some loc) (hi : s.freeExt = some i) (hext : s.fitsExtent e.fen = true)
    (hrsv : s.fitsRsv e.tier e.fen e.length true = true) :
    s.allocate e mask = ((s.ringCharged i { e with loc := loc }).ringZeroed loc e.length, stOK) := by
  obtain ⟨start, state, length, tier, loc', fen⟩ := e
  subst hcap htier
  unfold State.allocate
  rw [hloc, hi]
  dsimp only at hext hrsv ⊢
  rw [hext, hrsv]
  rfl

theorem State.rd_capSet (s : State) (mode : Bool) (log2 : Nat) {g : Fld} (h1 : g.separate Reg.XBR_CAP_CTL_MODE = true)
    (h2 : g.separate Reg.XBR_CAP_CTL_LOG2 = true) (a b : Nat) : (s.capSet mode log2).rd g a b = s.rd g a b :=
  (State.rd_wr_separate _ _ _ _ _ h2 _ _).trans (s.rd_wr_separate _ _ _ _ h1 _ _)

theorem State.rd_capZeroed (s : State) {g : Fld} (h1 : g.separate Reg.XBR_CAP_WR_INDEX = true)
    (h2 : g.separate Reg.XBR_CAP_RD_INDEX = true) (a b : Nat) : s.capZeroed.rd g a b = s.rd g a b :=
  (State.rd_wr_separate _ _ _ _ _ h2 _ _).trans (s.rd_wr_separate _ _ _ _ h1 _ _)

theorem State.capSet_effect (s : State) (mode : Bool) (log2 : Nat) : (s.capSet mode log2).on Reg.XBR_CAP_CTL_MODE = mode ∧
    (s.capSet mode log2).rd Reg.XBR_CAP_CTL_LOG2 = log2 % 32 ∧ s.onlyChanges (s.capSet mode log2) [.regs] ∧
    s.regsKeptBut (s.capSet mode log2) [Reg.XBR_CAP_CTL_MODE.key 0 0, Reg.XBR_CAP_CTL_LOG2.key 0 0] := by
  refine ⟨?_, State.rd_wr_self _ _ _ _ _ (by decide), by simp [State.onlyChanges_iff, State.capSet, State.wrb], ?_⟩
  · rw [State.on, State.capSet, State.rd_wr_separate _ _ _ _ _ (by decide), State.wrb, State.rd_wr_self _ _ _ _ _ (by decide)]
    cases mode <;> rfl
  · exact State.regsKept_trans (s.regsKept_wr _ _ _ _ (by simp)) (State.regsKept_wr _ _ _ _ _ (by simp))

theorem exec_captureEnable_off {s : State} {a : Access} (h : s.admitsWrite a 0x2400040) (mode : Bool) (log2 : Nat)
    (hoff : s.on Reg.XBR_CAP_CTL_ENABLE = false) : exec (.captureEnable a mode log2) s = .next (s.capSet mode log2).capCreate :=
  congrArg Host.Outcome.next ((State.window_admitted h _).trans (if_neg (ne_true_of_eq_false hoff)))

theorem exec_captureDisable_off {s : State} {a : Access} (h : s.admitsWrite a 0x2400040) (mode : Bool) (log2 : Nat)
    (hoff : s.on Reg.XBR_CAP_CTL_ENABLE = false) : exec (.captureDisable a mode log2) s = .next (s.capSet mode log2) :=
  congrArg Host.Outcome.next ((State.window_admitted h _).trans (if_neg (ne_true_of_eq_false hoff)))

theorem exec_captureEnable_on {s : State} {a : Access} (h : s.admitsWrite a 0x2400040) (mode : Bool) (log2 : Nat)
    (hon : s.on Reg.XBR_CAP_CTL_ENABLE = true) : exec (.captureEnable a mode log2) s = .next s :=
  congrArg Host.Outcome.next ((State.window_admitted h _).trans (if_pos hon))

theorem exec_captureDisable_on {s : State} {a : Access} (h : s.admitsWrite a 0x2400040) (mode : Bool) (log2 : Nat)
    (hon : s.on Reg.XBR_CAP_CTL_ENABLE = true) : exec (.captureDisable a mode log2) s = .next (s.wr Reg.XBR_CAP_CTL_ENABLE 0) :=
  congrArg Host.Outcome.next ((State.window_admitted h _).trans (if_pos hon))

/-- The ring's extent allocated, and found again at its place. -/
def State.ringAllocated (s : State) (n start : Nat) : State :=
  if (s.allocate (s.ringExtent n start) (2 ^ 64 - 1)).2 ≠ stOK then
    (s.allocate (s.ringExtent n start) (2 ^ 64 - 1)).1.capEnd (s.allocate (s.ringExtent n start) (2 ^ 64 - 1)).2
  else ((s.allocate (s.ringExtent n start) (2 ^ 64 - 1)).1.upXbr fun b =>
    { b with capExt := ((s.allocate (s.ringExtent n start) (2 ^ 64 - 1)).1.overlapping (start * unitBytes) (n * unitBytes)).head?.map (·.1)
             nextRseq := 0 }).capEnd stOK

theorem State.ringAllocated_ok {s t : State} {n start : Nat} (h : s.allocate (s.ringExtent n start) (2 ^ 64 - 1) = (t, stOK)) :
    s.ringAllocated n start = (t.upXbr fun b =>
      { b with capExt := (t.overlapping (start * unitBytes) (n * unitBytes)).head?.map (·.1), nextRseq := 0 }).capEnd stOK := by
  unfold State.ringAllocated
  rw [h]
  rfl

/-- The end of an ENABLE: the ring stands where the status is OK. -/
theorem State.capEnd_effect (s : State) {st : Nat} (hst : st < 256) : (s.capEnd st).on Reg.XBR_CAP_CTL_ENABLE = (st == stOK) ∧
    (s.capEnd st).rd Reg.XBR_CAP_STATUS_STATUS = st ∧ (s.capEnd st).rd Reg.XBR_CAP_STATUS_DONE = 1 ∧ s.onlyChanges (s.capEnd st) [.regs] := by
  obtain ⟨hs, hd, hparts, -⟩ := (s.wrb Reg.XBR_CAP_CTL_ENABLE (st == stOK)).setEnd_effect (f := Reg.XBR_CAP_STATUS_STATUS)
    (g := Reg.XBR_CAP_STATUS_DONE) rfl rfl (by decide) hst
  refine ⟨?_, hs, hd, State.onlyChanges_trans (s.onlyChanges_wr _ _ _ _ (by decide)) hparts⟩
  simp (disch := decide) only [State.on, State.capEnd, State.setEnd, State.rd_wr_separate, State.wrb, State.rd_wr_self]
  cases st == stOK <;> rfl

/-- The refusal of a ring whose size is out of range. -/
theorem State.capCreate_range {s : State} (h : s.rd Reg.XBR_CAP_CTL_LOG2 < 10 ∨ 24 < s.rd Reg.XBR_CAP_CTL_LOG2) :
    s.capCreate = s.capZeroed.capEnd stRANGE := by
  have hlog : s.capZeroed.rd Reg.XBR_CAP_CTL_LOG2 = s.rd Reg.XBR_CAP_CTL_LOG2 := s.rd_capZeroed (by decide) (by decide) _ _
  refine if_pos ?_
  rw [show ((s.wr Reg.XBR_CAP_WR_INDEX 0).wr Reg.XBR_CAP_RD_INDEX 0).rd Reg.XBR_CAP_CTL_LOG2 = s.rd Reg.XBR_CAP_CTL_LOG2 from hlog]
  rcases h with h | h <;> simp [h]

/-- A place that passes its check has units, and no extent overlaps it. -/
theorem State.of_placeCheck {s : State} {r start n tier : Nat} (h : s.placeCheck r start n tier = stOK) :
    n ≠ 0 ∧ s.overlapping (start * unitBytes) (n * unitBytes) = [] := by
  unfold State.placeCheck at h
  dsimp only at h
  split at h
  · exact absurd h (by decide)
  · simp_all

/-- The new extent is the one at its place. -/
theorem State.overlapping_ringCharged {s : State} {i start n loc : Nat} {e : Extent} (hst : e.state = exRESIDENT) (hstart : e.start = start)
    (hlen : e.length = n) (hn : n ≠ 0) (hfree : s.overlapping (start * unitBytes) (n * unitBytes) = []) :
    ((s.ringCharged i e).ringZeroed loc n).overlapping (start * unitBytes) (n * unitBytes) = [(i, e)] := by
  subst hstart hlen
  have hnone : (s.pool.extents.filter fun p => p.2.state != exFREE && decide (p.2.lo < e.start * unitBytes + e.length * unitBytes) &&
      decide (e.start * unitBytes < p.2.hi)) = [] := by
    have := s.overlapping_perm (e.start * unitBytes) (e.length * unitBytes)
    rw [hfree] at this
    exact List.nil_perm.mp this
  have hpos : 0 < e.length * unitBytes := Nat.mul_pos (Nat.pos_of_ne_zero hn) (by decide)
  have hself : (e.state != exFREE && decide (e.lo < e.start * unitBytes + e.length * unitBytes) && decide (e.start * unitBytes < e.hi)) = true := by
    rw [hst]
    simp only [Extent.lo, Extent.hi, Nat.add_mul, Bool.and_eq_true, decide_eq_true_eq]
    exact ⟨⟨rfl, decide_eq_true (by omega)⟩, by omega⟩
  have hput := Tab.filter_put_of_none (fun p : Nat × Extent => p.2.state != exFREE && decide (p.2.lo < e.start * unitBytes + e.length * unitBytes) &&
    decide (e.start * unitBytes < p.2.hi)) s.pool.extents (i := i) (v := e) hnone hself
  exact (congrArg (sortBy fun p : Nat × Extent => p.2.start) hput).trans rfl

/-- A ring created where its place is free. -/
theorem State.capCreate_ok {s : State} {n start r f loc i : Nat} {z : State} (hz : z = s.capZeroed) (hlog : 10 ≤ z.rd Reg.XBR_CAP_CTL_LOG2)
    (hlog' : z.rd Reg.XBR_CAP_CTL_LOG2 ≤ 24) (hn : n = 2 ^ z.rd Reg.XBR_CAP_CTL_LOG2 * 64 / unitBytes) (hstart : start = z.capBase / unitBytes)
    (hr : r = z.rd Reg.XBR_CAP_REGION_REGION) (hf : f = z.rd Reg.XBR_CAP_FEN_FEN) (hvalid : (z.rgn r).valid = true) (hfen : (z.rgn r).fen = f)
    (hplace : z.placeCheck r start n tierNEAR = stOK) (hloc : z.firstFit tierNEAR (2 ^ 64 - 1) f n = some loc) (hi : z.freeExt = some i)
    (hext : z.fitsExtent f = true) (hrsv : z.fitsRsv tierNEAR f n true = true) :
    s.capCreate = (((z.ringCharged i { z.ringExtent n start with loc := loc }).ringZeroed loc n).upXbr fun b =>
      { b with capExt := some i, nextRseq := 0 }).capEnd stOK := by
  obtain ⟨hn0, hnone⟩ := State.of_placeCheck hplace
  have hform : s.capCreate = if z.rd Reg.XBR_CAP_CTL_LOG2 < 10 || decide (24 < z.rd Reg.XBR_CAP_CTL_LOG2) || !(z.rgn (z.rd Reg.XBR_CAP_REGION_REGION)).valid ||
        (z.rgn (z.rd Reg.XBR_CAP_REGION_REGION)).fen != z.rd Reg.XBR_CAP_FEN_FEN ||
        z.placeCheck (z.rd Reg.XBR_CAP_REGION_REGION) (z.capBase / unitBytes) (2 ^ z.rd Reg.XBR_CAP_CTL_LOG2 * 64 / unitBytes) tierNEAR != stOK then z.capEnd stRANGE
      else z.ringAllocated (2 ^ z.rd Reg.XBR_CAP_CTL_LOG2 * 64 / unitBytes) (z.capBase / unitBytes) := by
    rw [hz]
    rfl
  rw [← hr, ← hf, ← hn, ← hstart] at hform
  rw [hform, if_neg (by simp [hvalid, hfen, hplace]; omega)]
  have hf' : (z.ringExtent n start).fen = f := hf.symm
  rw [State.ringAllocated_ok (State.allocate_ring (e := z.ringExtent n start) (loc := loc) (i := i) rfl rfl (by rw [hf']; exact hloc) hi
    (by rw [hf']; exact hext) (by rw [hf']; exact hrsv))]
  have hover : ((z.ringCharged i { z.ringExtent n start with loc := loc }).ringZeroed loc n).overlapping (start * unitBytes) (n * unitBytes) =
      [(i, { z.ringExtent n start with loc := loc })] :=
    State.overlapping_ringCharged rfl rfl rfl hn0 hnone
  exact congrArg (fun l : List (Nat × Extent) => (((z.ringCharged i { z.ringExtent n start with loc := loc }).ringZeroed loc n).upXbr fun b =>
      { b with capExt := l.head?.map (·.1), nextRseq := 0 }).capEnd stOK) hover

/-- What a ring that is created leaves. -/
theorem State.ringMade_effect (z : State) (i loc n : Nat) (e : Extent) {t : State}
    (ht : t = (((z.ringCharged i e).ringZeroed loc n).upXbr fun b => { b with capExt := some i, nextRseq := 0 }).capEnd stOK) :
    t.ext i = e ∧ (∀ j, j ≠ i → t.ext j = z.ext j) ∧ t.xbr.capExt = some i ∧
      (∀ b, b < n * unitBytes → memGet t.near (locByte tierNEAR loc + b) = 0) ∧ t.on Reg.XBR_CAP_CTL_ENABLE = true ∧
      t.rd Reg.XBR_CAP_WR_INDEX = z.rd Reg.XBR_CAP_WR_INDEX ∧ t.rd Reg.XBR_CAP_RD_INDEX = z.rd Reg.XBR_CAP_RD_INDEX ∧
      t.rd Reg.XBR_CAP_STATUS_STATUS = stOK ∧ z.onlyChanges t [.regs, .near, .flt, .pool, .xbr] := by
  obtain ⟨hon, hstat, -, hframe⟩ := (((z.ringCharged i e).ringZeroed loc n).upXbr fun b => { b with capExt := some i, nextRseq := 0 }).capEnd_effect
    (st := stOK) (by decide)
  rw [← ht] at hon hstat
  have hindex : ∀ g : Fld, (g = Reg.XBR_CAP_WR_INDEX ∨ g = Reg.XBR_CAP_RD_INDEX) → t.rd g = z.rd g := fun g hg => by
    rw [ht]
    rcases hg with rfl | rfl <;>
      simp (disch := decide) only [State.capEnd, State.setEnd, State.wrb, State.rd_wr_separate, State.rd_upXbr] <;>
      exact (State.rd_wr_separate _ _ _ _ _ (by decide) _ _).trans (State.rd_wr_separate _ _ _ _ _ (by decide) _ _)
  refine ⟨?_, fun j hj => ?_, ?_, fun b hb => ?_, hon, hindex _ (.inl rfl), hindex _ (.inr rfl), hstat, ?_⟩
  · rw [ht]
    exact congrArg (fun o : Option Extent => o.getD {}) (Tab.find?_put_self _ _ _)
  · rw [ht]
    exact congrArg (fun o : Option Extent => o.getD {}) (Tab.find?_put_ne _ _ hj)
  · rw [ht]
    rfl
  · rw [ht]
    exact memGet_memZero z.near (by omega) (by omega)
  · rw [ht]
    simp [State.onlyChanges_iff, State.ringCharged, State.ringZeroed, State.capEnd, State.setEnd, State.wrb, State.inc, State.dec]

/-- The checks of a place and its first fit read the pool, the configuration and the size of a stack. -/
theorem State.placeCheck_congr {s t : State} (hp : t.pool = s.pool) (hg : t.rd Reg.GLB_CAP_STACK_GIB = s.rd Reg.GLB_CAP_STACK_GIB) (r start n tier : Nat) :
    t.placeCheck r start n tier = s.placeCheck r start n tier := by
  have hrgn : t.rgn r = s.rgn r := congrArg (fun p : PoolState => Tab.getD p.regions r {}) hp
  have hover : ∀ a k, t.overlapping a k = s.overlapping a k := fun a k => by rw [State.overlapping, State.overlapping, hp]
  have hmax : t.maxUnits tier = s.maxUnits tier := by rw [State.maxUnits, State.maxUnits, State.groupUnits, State.groupUnits, State.groupBytes, State.groupBytes, hg]
  rw [State.placeCheck, State.placeCheck, hrgn, hover, hmax]

theorem State.firstFit_near_congr {s t : State} (hp : t.pool = s.pool) (hc : t.cfg = s.cfg) (hg : t.rd Reg.GLB_CAP_STACK_GIB = s.rd Reg.GLB_CAP_STACK_GIB)
    (mask fen n : Nat) : t.firstFit tierNEAR mask fen n = s.firstFit tierNEAR mask fen n := by
  simp only [State.firstFit, if_true, State.occupied, State.groupUnits, State.groupBytes, hp, hc, hg]

/-- A ring enabled where its place is free. -/
theorem exec_captureEnable_created {s : State} {a : Access} {mode : Bool} {log2 n start r f loc i : Nat} (h : s.admitsWrite a 0x2400040)
    (hoff : s.on Reg.XBR_CAP_CTL_ENABLE = false) (hlog : 10 ≤ log2) (hlog' : log2 ≤ 24) (hr : r = s.rd Reg.XBR_CAP_REGION_REGION)
    (hf : f = s.rd Reg.XBR_CAP_FEN_FEN) (hvalid : (s.rgn r).valid = true) (hfen : (s.rgn r).fen = f) (hn : n = 2 ^ log2 * 64 / unitBytes)
    (hstart : start = s.rd64 Reg.XBR_CAP_BASE_LO Reg.XBR_CAP_BASE_HI % 2 ^ 46 / 65536) (hplace : s.placeCheck r start n tierNEAR = stOK)
    (hloc : s.firstFit tierNEAR (2 ^ 64 - 1) f n = some loc) (hi : s.freeExt = some i) (hext : s.fitsExtent f = true)
    (hrsv : s.fitsRsv tierNEAR f n true = true) :
    ∃ t, exec (.captureEnable a mode log2) s = .next t ∧
      t.ext i = { start := start, state := exRESIDENT, length := n, tier := tierNEAR, loc := loc, fen := f, region := r, pin := true,
                  capring := true } ∧ (∀ j, j ≠ i → t.ext j = s.ext j) ∧ t.xbr.capExt = some i ∧
      (∀ b, b < n * unitBytes → memGet t.near (locByte tierNEAR loc + b) = 0) ∧
      t.on Reg.XBR_CAP_CTL_ENABLE = true ∧ t.rd Reg.XBR_CAP_WR_INDEX = 0 ∧ t.rd Reg.XBR_CAP_RD_INDEX = 0 ∧
      t.rd Reg.XBR_CAP_STATUS_STATUS = stOK ∧ s.onlyChanges t [.regs, .near, .flt, .pool, .xbr] := by
  obtain ⟨z, hz⟩ : ∃ z, z = (s.capSet mode log2).capZeroed := ⟨_, rfl⟩
  have hpool : z.pool = s.pool := by rw [hz]; rfl
  have hcfg : z.cfg = s.cfg := by rw [hz]; rfl
  have hframe : s.onlyChanges z [.regs] := by
    rw [hz]
    simp [State.onlyChanges_iff, State.capSet, State.capZeroed, State.wrb]
  have hrd : ∀ g : Fld, (g.separate Reg.XBR_CAP_CTL_MODE && g.separate Reg.XBR_CAP_CTL_LOG2 && g.separate Reg.XBR_CAP_WR_INDEX &&
      g.separate Reg.XBR_CAP_RD_INDEX) = true → ∀ a b, z.rd g a b = s.rd g a b := fun g hg a b => by
    simp only [Bool.and_eq_true] at hg
    obtain ⟨⟨⟨h1, h2⟩, h3⟩, h4⟩ := hg
    rw [hz, State.rd_capZeroed _ h3 h4, State.rd_capSet _ _ _ h1 h2]
  have hsize : z.rd Reg.XBR_CAP_CTL_LOG2 = log2 := by
    rw [hz, State.rd_capZeroed _ (by decide) (by decide), (s.capSet_effect mode log2).2.1]
    exact Nat.mod_eq_of_lt (by omega)
  have hgib := hrd Reg.GLB_CAP_STACK_GIB (by decide) 0 0
  have hbase : z.capBase / unitBytes = start := by
    rw [State.capBase, State.rd64, hrd _ (by decide), hrd _ (by decide), hstart]
    exact Nat.mul_div_cancel _ (by decide)
  have hregion := hrd Reg.XBR_CAP_REGION_REGION (by decide) 0 0
  have hfenReg := hrd Reg.XBR_CAP_FEN_FEN (by decide) 0 0
  have hrgn : z.rgn r = s.rgn r := congrArg (fun p : PoolState => Tab.getD p.regions r {}) hpool
  have hrsv' : z.fitsRsv tierNEAR f n true = true := by
    have hused : z.capringUsed f = s.capringUsed f := by rw [State.capringUsed, State.capringUsed, hpool]
    refine Eq.trans ?_ hrsv
    show decide ((z.capringUsed f + n) * unitBytes ≤ (Tab.getD z.cfg.limits f {}).capringBytes) = _
    rw [hused, hcfg]
    rfl
  have hext' : z.fitsExtent f = true := by
    rw [← hext, State.fitsExtent, State.fitsExtent, hrd _ (by decide), hcfg]
  have hi' : z.freeExt = some i := by
    rw [← hi]
    simp only [State.freeExt, State.extUsed, State.ext, hpool]
  have hmade := State.capCreate_ok (s := s.capSet mode log2) (n := n) (start := start) (r := r) (f := f) (loc := loc) (i := i) hz
    (by omega) (by omega) (by rw [hsize]; exact hn) hbase.symm (hr.trans hregion.symm) (hf.trans hfenReg.symm) (by rw [hrgn]; exact hvalid)
    (by rw [hrgn]; exact hfen) ((State.placeCheck_congr hpool hgib _ _ _ _).trans hplace)
    ((State.firstFit_near_congr hpool hcfg hgib _ _ _).trans hloc) hi' hext' hrsv'
  obtain ⟨hself, hother, hcap, hzero, hon, hwr, hrdx, hstat, hparts⟩ := z.ringMade_effect i loc n _ rfl
  refine ⟨_, (exec_captureEnable_off h mode log2 hoff).trans (congrArg Host.Outcome.next hmade), hself.trans ?_, fun j hj => (hother j hj).trans ?_,
    hcap, hzero, hon, hwr.trans ?_, hrdx.trans ?_, hstat, (State.onlyChanges_mono hframe (by decide)).andThen hparts⟩
  · rw [State.ringExtent, hregion, hfenReg, ← hr, ← hf]
  · rw [State.ext, State.ext, hpool]
  · rw [hz, State.capZeroed, State.rd_wr_separate _ _ _ _ _ (by decide), State.rd_wr_self _ _ _ _ _ (by decide)]
    rfl
  · rw [hz, State.capZeroed, State.rd_wr_self _ _ _ _ _ (by decide)]
    rfl

/-! The operations as R357 states them. -/

theorem exec_rteRead_shows {s : State} {a : Access} (h : s.admitsWrite a 0x2600004) {b : Bank} {r : Bytes} {m : List Nat}
    (hlt : s.rd Reg.RTE_INDEX_TABLE < 3) (hin : rteOutside (s.rd Reg.RTE_INDEX_TABLE) (s.rd Reg.RTE_INDEX_INDEX) = false)
    (hb : b = (if s.on Reg.RTE_INDEX_BANK then s.shadow else s.bank))
    (he : b.entry (s.rd Reg.RTE_INDEX_TABLE) (s.rd Reg.RTE_INDEX_INDEX) = (r, m)) :
    ∃ u, exec (.rteRead a) s = .next u ∧ (∀ w, w < 4 → u.rd Reg.RTE_DATA w = fld r (4 * w) 4) ∧
      (∀ w, w < 16 → u.rd Reg.RTE_MAP w = fld (mapBytes m) (4 * w) 4) ∧ u.rd Reg.RTE_STATUS_STATUS = stOK ∧
      u.rd Reg.RTE_STATUS_DONE = 1 ∧ s.onlyChanges u [.regs] := by
  have hon : (s.rteAsked 1).on Reg.RTE_INDEX_BANK = s.on Reg.RTE_INDEX_BANK :=
    congrArg (fun v : Nat => v != 0) (s.rd_rteAsked 1 (by decide) 0 0)
  have hread := State.rteRead_inside (s := s.rteAsked 1) (s.rd_rteAsked 1 (by decide) _ _).symm (s.rd_rteAsked 1 (by decide) _ _).symm hlt hin
  rw [hon, (s.bank_rteAsked 1).1, (s.bank_rteAsked 1).2, ← hb, he] at hread
  obtain ⟨hdata, hmap, hshown⟩ := (s.rteAsked 1).entryShown_effect r m
  obtain ⟨hstat, hdone, hparts, -⟩ := ((s.rteAsked 1).entryShown r m).rteEnd_effect (st := stOK) (by decide)
  refine ⟨_, (exec_rteRead h).trans (congrArg Host.Outcome.next hread), fun w hw => ?_, fun w hw => ?_, hstat, hdone,
    ((s.onlyChanges_rteAsked 1).andThen hshown).andThen hparts⟩
  · rw [State.rd_rteEnd _ _ (by decide) (by decide), hdata w hw]
  · rw [State.rd_rteEnd _ _ (by decide) (by decide), hmap w hw]

theorem exec_rte_outside {s : State} {a : Access} (h : s.admitsWrite a 0x2600004) {c : Instr} (hc : c = Instr.rteRead a ∨ c = Instr.rteWrite a)
    (hlt : s.rd Reg.RTE_INDEX_TABLE < 3) (hout : rteOutside (s.rd Reg.RTE_INDEX_TABLE) (s.rd Reg.RTE_INDEX_INDEX) = true)
    (hnone : s.xbr.swap = none) (hkind : fld s.rteRecord 0 1 = s.rd Reg.RTE_INDEX_TABLE) :
    ∃ u, exec c s = .next u ∧ u.rd Reg.RTE_STATUS_STATUS = stRANGE ∧ s.onlyChanges u [.regs] ∧
      s.regsKeptBut u [Reg.RTE_OP_CODE.key 0 0, Reg.RTE_STATUS_STATUS.key 0 0, Reg.RTE_STATUS_DONE.key 0 0] := by
  rcases hc with rfl | rfl
  · have hread := State.rteRead_outside (s := s.rteAsked 1) (s.rd_rteAsked 1 (by decide) _ _).symm (s.rd_rteAsked 1 (by decide) _ _).symm hlt hout
    exact ⟨_, (exec_rteRead h).trans (congrArg Host.Outcome.next hread), s.rteRefused_effect 1 (by decide)⟩
  · have hst : s.rteWriteStatus (s.rd Reg.RTE_INDEX_TABLE) (s.rd Reg.RTE_INDEX_INDEX) s.rteRecord = stRANGE := by
      unfold State.rteWriteStatus
      rw [hnone, hkind, hout, if_neg (by simp), if_neg (by simp; omega), if_pos rfl]
    exact ⟨_, exec_rteWrite_refused h rfl rfl rfl hst (by decide), s.rteRefused_effect 2 (by decide)⟩

theorem exec_rteWrite_kind {s : State} {a : Access} (h : s.admitsWrite a 0x2600004) (hnone : s.xbr.swap = none)
    (hkind : fld s.rteRecord 0 1 ≠ s.rd Reg.RTE_INDEX_TABLE) :
    ∃ u, exec (.rteWrite a) s = .next u ∧ u.rd Reg.RTE_STATUS_STATUS = stMALFORMED ∧ s.onlyChanges u [.regs] := by
  have hst : s.rteWriteStatus (s.rd Reg.RTE_INDEX_TABLE) (s.rd Reg.RTE_INDEX_INDEX) s.rteRecord = stMALFORMED := by
    unfold State.rteWriteStatus
    rw [hnone, if_neg (by simp), if_pos (by simp [hkind])]
  obtain ⟨hstat, hparts, -⟩ := s.rteRefused_effect 2 (st := stMALFORMED) (by decide)
  exact ⟨_, exec_rteWrite_refused h rfl rfl rfl hst (by decide), hstat, hparts⟩

/-- A swap whose time has come exchanges the banks. -/
theorem exec_swapActivate_swaps {s : State} {w : Swap} (hw : s.xbr.swap = some w) (hdue : w.atNs.getD 0 * 2 ^ 32 ≤ s.tabor)
    (hroutes : ∀ h ∈ s.shadow.routes, h.1 < 4096 ∧ (h.2.isLocal = true ∨ h.2.portset = 0 ∨ s.homeDead h.1 = true ∨
      ∃ q ∈ bitList 32 h.2.portset, s.alive q = true)) :
    ∃ u, exec .swapActivate s = .next u ∧ u.bank = s.shadow ∧ u.shadow = s.bank ∧ u.xbr.swap = none ∧ u.rd Reg.RTE_OP_PENDING = 0 ∧
      u.rd Reg.RTE_CNT_SWAP = min (s.rd Reg.RTE_CNT_SWAP + 1) (2 ^ Reg.RTE_CNT_SWAP.width - 1) ∧ s.onlyChanges u [.regs, .xbr] ∧
      s.regsKeptBut u [Reg.RTE_OP_PENDING.key 0 0, Reg.RTE_ACTIVE_BANK.key 0 0, Reg.RTE_CNT_SWAP.key 0 0] := by
  obtain ⟨hnone, hpend, hb, hs, hoff⟩ := s.swapOff_effect
  obtain ⟨hbank, hshadow⟩ := s.swapOff.bank_swapped
  have hstranded : s.swapOff.swapped.strandedHomes = [] := by
    refine State.strandedHomes_nil fun r hr => ?_
    rw [hbank, hs] at hr
    obtain ⟨hlt, hl | hp | hd | ⟨q, hq, ha⟩⟩ := hroutes r hr
    · exact .inl hl
    · exact .inr (.inl hp)
    · refine .inr (.inr (.inl ?_))
      rw [State.homeDead, State.rd_swapped (by decide) (show r.1 / 32 < 128 by omega) (by decide) (by decide)]
      exact hd
    · refine .inr (.inr (.inr ⟨q, hq, ?_⟩))
      have hq32 : q < 32 := by
        simp only [bitList, List.mem_filter, List.mem_range] at hq
        exact hq.1
      rw [State.alive, State.on, State.rd_swapped (by decide) (show q < 32 from hq32) (by decide) (by decide)]
      exact ha
  refine ⟨_, exec_swapActivate_due hw hdue hstranded, hbank.trans hs, hshadow.trans hb, hnone, ?_, ?_, ?_, ?_⟩
  · rw [State.swapped, State.rd_bump_separate _ _ _ _ _ (by decide), State.rd_wr_separate _ _ _ _ _ (by decide), hpend]
  · rw [State.swapped, State.rd_bump_self _ _ _ _ _ (by decide), State.rd_wr_separate _ _ _ _ _ (by decide), State.swapOff,
      State.rd_wr_separate _ _ _ _ _ (by decide)]
    rfl
  · have hswapped : s.swapOff.onlyChanges s.swapOff.swapped [.regs] := by simp [State.onlyChanges_iff, State.swapped, State.bump]
    exact hoff.andThen hswapped
  · refine State.regsKept_trans (t := s.swapOff) (State.regsKept_wr _ _ _ _ _ (by simp)) ?_
    exact State.regsKept_trans (State.regsKept_wr _ _ _ _ _ (by simp)) (State.regsKept_bump _ _ _ _ _ (by simp))

/-- The writes of `XBR_CAP_CTL` that create no ring. -/
theorem exec_captureDisable_effect {s : State} {a : Access} (h : s.admitsWrite a 0x2400040) (mode : Bool) (log2 : Nat)
    (hon : s.on Reg.XBR_CAP_CTL_ENABLE = true) :
    ∃ t, exec (.captureDisable a mode log2) s = .next t ∧ t.on Reg.XBR_CAP_CTL_ENABLE = false ∧ s.onlyChanges t [.regs] ∧
      s.regsKeptBut t [Reg.XBR_CAP_CTL_ENABLE.key 0 0] := by
  refine ⟨_, exec_captureDisable_on h mode log2 hon, ?_, s.onlyChanges_wr _ _ _ _ (by decide), s.regsKept_wr _ _ _ _ (by simp)⟩
  rw [State.on, State.rd_wr_self _ _ _ _ _ (by decide)]
  rfl

theorem exec_captureDisable_sets {s : State} {a : Access} (h : s.admitsWrite a 0x2400040) (mode : Bool) (log2 : Nat)
    (hoff : s.on Reg.XBR_CAP_CTL_ENABLE = false) :
    ∃ t, exec (.captureDisable a mode log2) s = .next t ∧ t.on Reg.XBR_CAP_CTL_ENABLE = false ∧ t.on Reg.XBR_CAP_CTL_MODE = mode ∧
      t.rd Reg.XBR_CAP_CTL_LOG2 = log2 % 32 ∧ s.onlyChanges t [.regs] ∧
      s.regsKeptBut t [Reg.XBR_CAP_CTL_MODE.key 0 0, Reg.XBR_CAP_CTL_LOG2.key 0 0] := by
  refine ⟨_, exec_captureDisable_off h mode log2 hoff, ?_, s.capSet_effect mode log2⟩
  rw [State.on, s.rd_capSet mode log2 (by decide) (by decide)]
  exact hoff

theorem exec_captureEnable_range {s : State} {a : Access} (h : s.admitsWrite a 0x2400040) (mode : Bool) {log2 : Nat}
    (hlog : log2 < 10 ∨ 24 < log2 ∧ log2 < 32) (hoff : s.on Reg.XBR_CAP_CTL_ENABLE = false) :
    ∃ t, exec (.captureEnable a mode log2) s = .next t ∧ t.on Reg.XBR_CAP_CTL_ENABLE = false ∧ t.rd Reg.XBR_CAP_STATUS_STATUS = stRANGE ∧
      t.rd Reg.XBR_CAP_STATUS_DONE = 1 ∧ s.onlyChanges t [.regs] := by
  have hsize : (s.capSet mode log2).rd Reg.XBR_CAP_CTL_LOG2 = log2 :=
    (s.capSet_effect mode log2).2.1.trans (Nat.mod_eq_of_lt (by omega))
  have hrange := State.capCreate_range (s := s.capSet mode log2) (by rw [hsize]; omega)
  obtain ⟨hon, hstat, hdone, hparts⟩ := (s.capSet mode log2).capZeroed.capEnd_effect (st := stRANGE) (by decide)
  refine ⟨_, (exec_captureEnable_off h mode log2 hoff).trans (congrArg Host.Outcome.next hrange), hon, hstat, hdone, ?_⟩
  exact State.onlyChanges_trans (by simp [State.onlyChanges_iff, State.capSet, State.capZeroed, State.wrb]) hparts

/-- Settles O36: each operation of the set by its equation, and a ring's creation by its allocation. -/
theorem routeTablesSwapAndCaptureRingsStand : Obligations.RouteTablesSwapAndCaptureRingsStand := by
  unfold Obligations.RouteTablesSwapAndCaptureRingsStand
  intro s
  refine ⟨fun a t i h ht hi => ?_, fun w => exec_swapActivate_swaps, exec_swapActivate_waiting, fun a mode log2 h => ?_⟩
  · subst ht hi
    refine ⟨fun b r m hlt hin hb he => exec_rteRead_shows h hlt hin hb he, fun c hc hlt hout hnone hkind => exec_rte_outside h hc hlt hout hnone hkind,
      fun r hr hnone => ⟨fun hkind => ?_, fun hst => ?_⟩, exec_rteCopy_free h, fun c rb hc hp => exec_pending_refused h hp hc,
      fun c rb w τ hτ hnone hc => ?_, fun rb τ hτ hnone hearly => ?_, exec_cancel_effect h⟩
    · rw [hr] at hkind
      exact exec_rteWrite_kind h hnone hkind
    · have hkind := State.table_of_rteWriteStatus hst
      obtain ⟨u, hrun, hbank, hshadow, hstat, hparts⟩ := exec_rteWrite_ok h rfl rfl hr hst
      refine ⟨u, hrun, hbank, fun h0 => ?_, fun h1 => ?_, fun h2 => ?_, hstat, hparts⟩
      · rw [hshadow]
        exact Bank.write_route (hkind.trans h0)
      · rw [hshadow]
        exact Bank.write_match (hkind.trans h1)
      · rw [hshadow]
        exact Bank.write_seed (hkind.trans h2)
    · rcases hc with ⟨rfl, rfl⟩ | ⟨rfl, rfl, hlate⟩
      · exact ⟨_, exec_swap_accepted h rb hnone, s.swapAccepted_effect rb 4 none⟩
      · have hlate' : s.tabor + 20000 * 2 ^ 32 ≤ s.swapTime * 2 ^ 32 := by rwa [hτ] at hlate
        have hrun := exec_swapAt_free h rb hnone
        rw [if_neg (by omega)] at hrun
        rw [hτ]
        exact ⟨_, hrun, s.swapAccepted_effect rb 5 (some s.swapTime)⟩
    · have hrun := exec_swapAt_free h rb hnone
      rw [hτ] at hearly
      rw [if_pos (show s.swapTime * 2 ^ 32 < s.tabor + 20000 * 2 ^ 32 from hearly)] at hrun
      obtain ⟨hstat, -, hparts, -⟩ := (s.swapAsked rb 5).rteEnd_effect (st := stRANGE) (by decide)
      exact ⟨_, hrun, hstat, (s.swapAsked_effect rb 5).2.2.2.2.andThen hparts⟩
  · refine ⟨exec_captureEnable_on h mode log2, exec_captureDisable_effect h mode log2, exec_captureDisable_sets h mode log2,
      exec_captureEnable_range h mode, ?_⟩
    intro r f n start loc i hoff hlog hlog' hr hf hvalid hfen _ hn hstart hplace hloc hi hext hrsv
    exact exec_captureEnable_created h hoff hlog hlog' hr hf hvalid hfen hn hstart hplace hloc hi hext hrsv

end Sys2Proof.Machine
end

section
/-!
PROOF. What a port keeps, and a frame put on its lane: the frame leaves under the next packet number, the packet is counted, and a key switch
that waited for its number ends.
-/
namespace Sys2Proof.Machine

/-! What a port keeps. -/

@[simp] theorem State.port_upPort_self (s : State) (p : Nat) (g : PortState → PortState) : (s.upPort p g).port p = g (s.port p) :=
  congrArg (fun o : Option PortState => o.getD {}) (Tab.find?_put_self _ _ _)

theorem State.port_upPort_ne (s : State) {p q : Nat} (g : PortState → PortState) (h : q ≠ p) : (s.upPort p g).port q = s.port q :=
  congrArg (fun o : Option PortState => o.getD {}) (Tab.find?_put_ne _ _ h)

@[simp] theorem State.sp_upSp_self (s : State) (p : Nat) (g : ShpPort → ShpPort) : (s.upSp p g).sp p = g (s.sp p) :=
  congrArg (fun o : Option ShpPort => o.getD {}) (Tab.find?_put_self _ _ _)

theorem State.sp_upSp_ne (s : State) {p q : Nat} (g : ShpPort → ShpPort) (h : q ≠ p) : (s.upSp p g).sp q = s.sp q :=
  congrArg (fun o : Option ShpPort => o.getD {}) (Tab.find?_put_ne _ _ h)

@[simp] theorem State.port_wr (s : State) (f : Fld) (v i j p : Nat) : (s.wr f v i j).port p = s.port p := rfl
@[simp] theorem State.port_bump (s : State) (f : Fld) (i j n p : Nat) : (s.bump f i j n).port p = s.port p := rfl
@[simp] theorem State.port_upSp (s : State) (p q : Nat) (g : ShpPort → ShpPort) : (s.upSp p g).port q = s.port q := rfl
@[simp] theorem State.port_emit (s : State) (m : OutMsg) (p : Nat) : (s.emit m).port p = s.port p := rfl
@[simp] theorem State.sp_wr (s : State) (f : Fld) (v i j p : Nat) : (s.wr f v i j).sp p = s.sp p := rfl
@[simp] theorem State.sp_bump (s : State) (f : Fld) (i j n p : Nat) : (s.bump f i j n).sp p = s.sp p := rfl
@[simp] theorem State.sp_upPort (s : State) (p q : Nat) (g : PortState → PortState) : (s.upPort p g).sp q = s.sp q := rfl

/-! Key switches. -/

/-- The fields a key switch of the sending direction writes. -/
def switchFlds : List Fld := [Reg.FAB_CNT_REKEY, Reg.FAB_PSTAT_KEY_SLOT]

theorem State.txSwitched_waits {s : State} {p : Nat} (h : (s.port p).txSwitch = none ∨ (s.port p).txAcked = false ∨
    ∃ n, (s.port p).txSwitch = some n ∧ (s.port p).nextTx < n) : s.txSwitched p = s := by
  unfold State.txSwitched
  cases ht : (s.port p).txSwitch with
  | none => rfl
  | some n =>
    rcases h with h | h | ⟨m, hm, hlt⟩
    · rw [ht] at h
      cases h
    · exact if_neg (by simp [h])
    · rw [ht, Option.some.injEq] at hm
      exact if_neg (by simp; omega)

/-- A switch that its number reaches is done: the slot changes, counted. -/
theorem State.txSwitched_done {s : State} {p n : Nat} (ht : (s.port p).txSwitch = some n) (ha : (s.port p).txAcked = true)
    (hn : n ≤ (s.port p).nextTx) : s.txSwitched p = ((s.bump Reg.FAB_CNT_REKEY p).wr Reg.FAB_PSTAT_KEY_SLOT
      (1 - s.rd Reg.FAB_PSTAT_KEY_SLOT p) p).upPort p fun q => { q with txSwitch := none, txAcked := false } := by
  unfold State.txSwitched
  rw [ht]
  exact if_pos (by simp [ha, hn])

/-- The switch changes nothing of a port but its own two fields. -/
theorem State.txSwitched_port (s : State) (p : Nat) :
    ∃ x y, (s.txSwitched p).port p = { (s.port p) with txSwitch := x, txAcked := y } := by
  unfold State.txSwitched
  split
  · exact ⟨(s.port p).txSwitch, (s.port p).txAcked, rfl⟩
  · split
    · exact ⟨none, false, by simp⟩
    · exact ⟨(s.port p).txSwitch, (s.port p).txAcked, rfl⟩

theorem State.txSwitched_other (s : State) {p q : Nat} (h : q ≠ p) : (s.txSwitched p).port q = s.port q := by
  unfold State.txSwitched
  split
  · rfl
  · split
    · exact State.port_upPort_ne _ _ h
    · rfl

theorem State.onlyChanges_txSwitched (s : State) (p : Nat) : s.onlyChanges (s.txSwitched p) [.regs, .fab] := by
  unfold State.txSwitched
  split
  · exact s.onlyChanges_refl _
  · split
    · simp [State.onlyChanges_iff]
    · exact s.onlyChanges_refl _

theorem State.rd_txSwitched (s : State) {p : Nat} {g : Fld} {a b : Nat} (hp : p < 32) (h : (switchFlds.all fun f => g.apart f) = true)
    (hg : g.lo < 32) (ha : a < g.n1) (hb : b < g.n2) : (s.txSwitched p).rd g a b = s.rd g a b := by
  obtain ⟨hrekey, hslot⟩ : g.apart Reg.FAB_CNT_REKEY = true ∧ g.apart Reg.FAB_PSTAT_KEY_SLOT = true := by simpa [switchFlds] using h
  unfold State.txSwitched
  split
  · rfl
  · split
    · refine (State.rd_wr_apart _ _ hslot (by decide) hg hp (by decide) ha hb).trans ?_
      exact State.rd_wr_apart _ _ hrekey (by decide) hg hp (by decide) ha hb
    · rfl

/-! Frames. -/

/-- The fields that a frame's counting writes. -/
def countFlds : List Fld := [Reg.XBR_P_TXPKT_LO, Reg.XBR_P_TXPKT_HI, Reg.XBR_P_TXBYTE_LO, Reg.XBR_P_TXBYTE_HI]

/-- A packet counted, its bytes metered. -/
def State.txCounted (s : State) (p : Nat) (k : Packet) : State :=
  ((s.inc64 Reg.XBR_P_TXPKT_LO Reg.XBR_P_TXPKT_HI 1 p k.cls).inc64 Reg.XBR_P_TXBYTE_LO Reg.XBR_P_TXBYTE_HI k.bytes p k.cls).meterBytes p k

/-- Its frame sent. -/
def State.framed (s : State) (p : Nat) (k : Packet) : State :=
  ((s.txCounted p k).emit (.frame p (s.port p).nextTx k)).upPort p fun q => { q with nextTx := q.nextTx + 1 }

theorem State.transmit_eq (s : State) (p : Nat) (k : Packet) : s.transmit p k = (s.framed p k).txSwitched p := rfl

theorem State.framed_effect (s : State) (p : Nat) (k : Packet) : (s.framed p k).out = s.out ++ [.frame p (s.port p).nextTx k] ∧
    (s.framed p k).port p = { (s.port p) with nextTx := (s.port p).nextTx + 1 } ∧ (∀ q, q ≠ p → (s.framed p k).port q = s.port q) ∧
    s.onlyChanges (s.framed p k) [.regs, .meters, .out, .fab] := by
  refine ⟨rfl, State.port_upPort_self _ _ _, fun q h => State.port_upPort_ne _ _ h, ?_⟩
  simp [State.onlyChanges_iff, State.framed, State.txCounted, State.inc64, State.meterBytes]

/-- What a frame that leaves changes. -/
theorem State.transmit_effect (s : State) (p : Nat) (k : Packet) : (s.transmit p k).out = s.out ++ [.frame p (s.port p).nextTx k] ∧
    (∃ x y, (s.transmit p k).port p = { (s.port p) with nextTx := (s.port p).nextTx + 1, txSwitch := x, txAcked := y }) ∧
    (∀ q, q ≠ p → (s.transmit p k).port q = s.port q) ∧ s.onlyChanges (s.transmit p k) [.regs, .meters, .out, .fab] := by
  obtain ⟨hout, hport, hother, hparts⟩ := s.framed_effect p k
  obtain ⟨x, y, hswitch⟩ := (s.framed p k).txSwitched_port p
  have hsparts := (s.framed p k).onlyChanges_txSwitched p
  rw [s.transmit_eq]
  refine ⟨(hsparts .out (by decide)).trans hout, ⟨x, y, by rw [hswitch, hport]⟩, fun q h => ?_, hparts.andThen hsparts⟩
  rw [State.txSwitched_other _ h, hother q h]

theorem State.rd_transmit (s : State) {p : Nat} (k : Packet) {g : Fld} {a b : Nat} (hp : p < 32)
    (h : ((countFlds ++ switchFlds).all fun f => g.apart f) = true) (hg : g.lo < 32) (ha : a < g.n1) (hb : b < g.n2) :
    (s.transmit p k).rd g a b = s.rd g a b := by
  rw [List.all_append, Bool.and_eq_true] at h
  obtain ⟨hcount, hswitch⟩ := h
  obtain ⟨h1, h2, h3, h4⟩ : g.apart Reg.XBR_P_TXPKT_LO = true ∧ g.apart Reg.XBR_P_TXPKT_HI = true ∧ g.apart Reg.XBR_P_TXBYTE_LO = true ∧
    g.apart Reg.XBR_P_TXBYTE_HI = true := by simpa [countFlds] using hcount
  have hc : k.cls < 4 := Nat.mod_lt _ (by decide)
  rw [s.transmit_eq, State.rd_txSwitched _ hp hswitch hg ha hb]
  refine (State.rd_wr_apart _ _ h4 (by decide) hg hp hc ha hb).trans ?_
  refine (State.rd_wr_apart _ _ h3 (by decide) hg hp hc ha hb).trans ?_
  refine (State.rd_wr_apart _ _ h2 (by decide) hg hp hc ha hb).trans ?_
  exact State.rd_wr_apart _ _ h1 (by decide) hg hp hc ha hb

/-- A frame that no waiting switch of its port ends leaves the switch as it was. -/
theorem State.transmit_waits {s : State} {p : Nat} (k : Packet) (h : (s.port p).txSwitch = none ∨ (s.port p).txAcked = false) :
    (s.transmit p k).port p = { (s.port p) with nextTx := (s.port p).nextTx + 1 } := by
  obtain ⟨-, hport, -, -⟩ := s.framed_effect p k
  rw [s.transmit_eq, State.txSwitched_waits (by rw [hport]; exact h.imp_right .inl), hport]

/-! Records and charges. -/

/-- The fields that a record or a charge writes. -/
def scoreFlds : List Fld := [Reg.FLT_CNT_SUSPECT, Reg.FLT_PEND_INFO, Reg.FLT_PEND_WARN, Reg.FLT_PEND_ERROR, Reg.FLT_PEND_FATAL, Reg.FLT_ESEQ_LAST,
  Reg.FLT_EQ_TAIL_INDEX, Reg.FLT_EQ_LOST]

theorem key_not_mem_scoreKeys {g : Fld} (h : (scoreFlds.all fun f => g.separate f) = true) (a b : Nat) : g.key a b ∉ scoreKeys := by
  have hkeys : scoreKeys = scoreFlds.map fun f => f.key 0 0 := rfl
  rw [hkeys, List.mem_map]
  rintro ⟨f, hf, he⟩
  exact Fld.key_ne_of_separate (List.all_eq_true.mp h f hf) a b 0 0 he.symm

theorem State.rd_event_separate (s : State) (r : Report) {g : Fld} (h : (scoreFlds.all fun f => g.separate f) = true) (a b : Nat) :
    (s.event r).rd g a b = s.rd g a b :=
  (s.reportsOnly_event r).2 g a b fun hk => key_not_mem_scoreKeys h a b (List.mem_cons_of_mem _ hk)

theorem State.rd_charge_separate (s : State) (cls inst row n per weight : Nat) {g : Fld} (h : (scoreFlds.all fun f => g.separate f) = true)
    (a b : Nat) : (s.charge cls inst row n per weight).rd g a b = s.rd g a b :=
  (s.chargesOnly_charge cls inst row n per weight).2 g a b (key_not_mem_scoreKeys h a b)

end Sys2Proof.Machine
end

section
/-!
PROOF. Tabor time (R380–R385, R387, R394): the exchanges with a partner, the servo's samples, and the sources beside them.
-/
namespace Sys2Proof.Machine

/-! 64-bit values in pairs. -/

/-- A pair reads back the 64 bits written to it. -/
theorem State.rd64_wr64 (s : State) {lo hi : Fld} {v : Nat} (i j : Nat) (hlo : lo.width = 32) (hhi : hi.width = 32)
    (h : lo.separate hi = true) (hv : v < 2 ^ 64) : (s.wr64 lo hi v i j).rd64 lo hi i j = v := by
  rw [State.rd64, State.wr64, State.rd_wr_separate _ _ _ _ _ h, State.rd_wr_self _ _ _ _ _ (by omega), State.rd_wr_self _ _ _ _ _ (by omega), hlo,
    hhi]
  omega

theorem State.rd64_congr {s t : State} {lo hi : Fld} {i j : Nat} (h1 : t.rd lo i j = s.rd lo i j) (h2 : t.rd hi i j = s.rd hi i j) :
    t.rd64 lo hi i j = s.rd64 lo hi i j := by rw [State.rd64, State.rd64, h1, h2]

theorem State.tnow_lt (s : State) : s.tnow < 2 ^ 64 := Nat.mod_lt _ (by decide)

/-! A step of tabor time at the ports. -/

/-- The fields that a step of tabor time writes at a port. -/
def stepFlds : List Fld := [Reg.GATE_P_CNT_OVERRUN, Reg.GATE_P_STAT_BANK, Reg.GATE_P_STAT_PENDING, Reg.GATE_P_CYCLES, Reg.GATE_P_STAT_ENTRY]

/-- What a step of tabor time keeps at every port. -/
def State.gateStep (s t : State) : Prop := s.onlyChanges t [.regs, .shp] ∧ (∀ q, (t.sp q).lastReq = (s.sp q).lastReq) ∧
  ∀ g : Fld, (stepFlds.all fun f => g.separate f) = true → ∀ a b, t.rd g a b = s.rd g a b

theorem State.gateStep_refl (s : State) : s.gateStep s := ⟨s.onlyChanges_refl _, fun _ => rfl, fun _ _ _ _ => rfl⟩

theorem State.gateStep_trans {s t u : State} (h : s.gateStep t) (k : t.gateStep u) : s.gateStep u :=
  ⟨State.onlyChanges_trans h.1 k.1, fun q => (k.2.1 q).trans (h.2.1 q), fun g hg a b => (k.2.2 g hg a b).trans (h.2.2 g hg a b)⟩

theorem State.gateStep_wr (s : State) {f : Fld} (v i : Nat) (hf : f ∈ stepFlds) : s.gateStep (s.wr f v i) :=
  ⟨s.onlyChanges_wr _ _ _ _ (by decide), fun _ => rfl, fun _ hg _ _ => s.rd_wr_separate _ _ _ _ (List.all_eq_true.mp hg f hf) _ _⟩

theorem State.gateStep_upSp (s : State) (p : Nat) {g : ShpPort → ShpPort} (hg : ∀ x, (g x).lastReq = x.lastReq) : s.gateStep (s.upSp p g) := by
  refine ⟨by simp [State.onlyChanges_iff], fun q => ?_, fun _ _ _ _ => rfl⟩
  by_cases hq : q = p
  · rw [hq, State.sp_upSp_self, hg]
  · rw [State.sp_upSp_ne _ _ hq]

theorem State.gateStep_takeOver (s : State) (p : Nat) : s.gateStep (s.takeOver p) := by
  refine State.gateStep_trans ?_ (State.gateStep_wr _ _ _ (by decide))
  refine State.gateStep_trans ?_ (State.gateStep_wr _ _ _ (by decide))
  refine State.gateStep_trans ?_ (State.gateStep_wr _ _ _ (by decide))
  exact State.gateStep_trans (s.gateStep_upSp p (g := fun q => { q with takeover := none }) fun _ => rfl)
    (State.gateStep_wr _ (f := Reg.GATE_P_STAT_BANK) _ _ (by decide))

theorem State.gateStep_noteEntry (s : State) (p : Nat) : s.gateStep (s.noteEntry p) := by
  unfold State.noteEntry
  dsimp only
  split
  · exact s.gateStep_refl
  · exact s.gateStep_wr _ _ (by decide)

theorem State.gateStep_stepPort (s : State) (p : Nat) : s.gateStep (s.stepPort p) := by
  have hover : s.gateStep (if s.overruns p then s.bump Reg.GATE_P_CNT_OVERRUN p else s) := by
    split
    · exact s.gateStep_wr _ _ (by decide)
    · exact s.gateStep_refl
  have htake : ∀ u : State, u.gateStep (if u.takeOverDue p then u.takeOver p else u) := fun u => by
    split
    · exact u.gateStep_takeOver p
    · exact u.gateStep_refl
  exact State.gateStep_trans (State.gateStep_trans hover (htake _)) (State.gateStep_noteEntry _ p)

theorem State.gateStep_foldl (l : List Nat) (s : State) : s.gateStep (l.foldl (fun s p => s.stepPort p) s) := by
  induction l generalizing s with
  | nil => exact s.gateStep_refl
  | cons p l ih => exact State.gateStep_trans (s.gateStep_stepPort p) (ih _)

/-! A step of tabor time. -/

/-- Tabor time and the leases' ends moved by `d`. -/
def State.timeMoved (s : State) (d : Int) : State :=
  ({ s with tabor := (((s.tabor : Int) + d) % 2 ^ 96).toNat } : State).upPool fun b =>
    { b with leases := Tab.mapVals b.leases fun _ (l : Lease) => { l with expiry := ((l.expiry : Int) + Int.fdiv d (2 ^ 32)).toNat } }

/-- The step counted and recorded. -/
def State.stepRecorded (s : State) (d : Int) : State :=
  ((s.timeMoved d).bump Reg.GATE_TT_CNT_STEP).event
    { code := evTIME_STEP, sev := sevINFO, health := true, params := [unsigned (Int.fdiv d (2 ^ 32)) 64] }

theorem State.timeStep_eq (s : State) (d : Int) : s.timeStep d = (List.range 32).foldl (fun s p => s.stepPort p) (s.stepRecorded d) := rfl

/-- What a step of tabor time leaves. -/
theorem State.timeStep_effect (s : State) (d : Int) : (s.timeStep d).tabor = (((s.tabor : Int) + d) % 2 ^ 96).toNat ∧
    (s.timeStep d).rd Reg.GATE_TT_CNT_STEP = min (s.rd Reg.GATE_TT_CNT_STEP + 1) (2 ^ Reg.GATE_TT_CNT_STEP.width - 1) ∧
    (∀ q, ((s.timeStep d).sp q).lastReq = (s.sp q).lastReq) ∧
    (∀ g : Fld, ((Reg.GATE_TT_CNT_STEP :: stepFlds ++ scoreFlds).all fun f => g.separate f) = true → ∀ a b, (s.timeStep d).rd g a b = s.rd g a b) ∧
    s.onlyChanges (s.timeStep d) [.regs, .tabor, .pool, .shp, .flt, .out, .host] := by
  rw [s.timeStep_eq]
  obtain ⟨hparts, hreq, hrd⟩ := State.gateStep_foldl (List.range 32) (s.stepRecorded d)
  have hmoved : s.onlyChanges ((s.timeMoved d).bump Reg.GATE_TT_CNT_STEP) [.regs, .tabor, .pool, .shp, .flt, .out, .host] := by
    simp [State.onlyChanges_iff, State.timeMoved, State.bump]
  have hevent := (((s.timeMoved d).bump Reg.GATE_TT_CNT_STEP).reportsOnly_event
    { code := evTIME_STEP, sev := sevINFO, health := true, params := [unsigned (Int.fdiv d (2 ^ 32)) 64] }).1
  have hbefore : s.onlyChanges (s.stepRecorded d) [.regs, .tabor, .pool, .shp, .flt, .out, .host] := hmoved.andThen hevent
  refine ⟨(hparts .tabor (by decide)).trans (hevent .tabor (by decide)), ?_, fun q => (hreq q).trans ?_, fun g hg a b => ?_,
    hbefore.andThen hparts⟩
  · rw [hrd _ (by decide), State.stepRecorded, State.rd_event_separate _ _ (by decide), State.rd_bump_self _ _ _ _ _ (by decide)]
    rfl
  · exact congrArg (fun x : ShpState => (Tab.getD x.ports q {}).lastReq) (hevent .shp (by decide))
  · rw [List.cons_append, List.all_cons, List.all_append, Bool.and_eq_true, Bool.and_eq_true] at hg
    obtain ⟨hstep, hports, hscore⟩ := hg
    rw [hrd _ hports, State.stepRecorded, State.rd_event_separate _ _ hscore, State.rd_bump_separate _ _ _ _ _ hstep]
    rfl

/-! The servo's samples. -/

/-- The time since the last sample, and the state with any free value it took. -/
def State.sinceSample (s : State) : Nat × State :=
  match s.shp.lastSample with
  | some h => (max 1 (s.hclk - h), s)
  | none => (max 1 s.free.1, s.free.2)

/-- A sample taken: counted and shown. -/
def State.sampleShown (s : State) (theta : Int) : State :=
  (s.bump Reg.GATE_TT_CNT_SAMPLE).wr Reg.GATE_TT_OFFSET_NS (satSigned (roundDiv theta (2 ^ 32)) 32)

/-- A sample in HOLDOVER begins to acquire. -/
def State.sampleHeld (s : State) (held : Bool) : State :=
  let v := if held then s.wr Reg.GATE_TT_STAT_STATE ttACQUIRE else s
  v.upShp fun b => { b with lastSample := some v.hclk, lockrun := if held then 0 else b.lockrun }

/-- The integral term taken up, within its bound. -/
def State.integOf (s : State) (theta : Int) (t : Nat) : Int :=
  clampInt (s.shp.integ - ppbTerm theta t (s.rd Reg.GATE_TT_CTL_KI)) (-((s.rd Reg.GATE_TT_MAXPPB_PPB : Int) * 2 ^ 32))
    ((s.rd Reg.GATE_TT_MAXPPB_PPB : Int) * 2 ^ 32)

/-- The servo steered by a sample. -/
def State.steered (s : State) (integ : Int) (run inc adj st : Nat) : State :=
  (((s.upShp fun b => { b with integ := integ, lockrun := run }).wr Reg.GATE_TT_INC_FRAC inc).wr Reg.GATE_TT_ADJ_PPB adj).wr
    Reg.GATE_TT_STAT_STATE st

/-- A sample that steers the servo by R381's terms. -/
def State.sampleSteered (s : State) (theta : Int) (t : Nat) : State :=
  let integ := s.integOf theta t
  let m : Int := (s.rd Reg.GATE_TT_MAXPPB_PPB : Int) * 2 ^ 32
  let adj := clampInt (integ - ppbTerm theta t (s.rd Reg.GATE_TT_CTL_KP)) (-m) m
  let lock := s.rd Reg.GATE_TT_LOCK_NS * 2 ^ 32
  let run := if theta.natAbs < lock then s.shp.lockrun + 1 else 0
  let st := s.rd Reg.GATE_TT_STAT_STATE
  let st := if st = ttACQUIRE ∧ 16 ≤ run then ttLOCKED else st
  let st := if st = ttLOCKED ∧ 4 * lock ≤ theta.natAbs then ttACQUIRE else st
  s.steered integ run (unsigned (0xD5555555 + roundDiv (0xD5555555 * adj) (2 ^ 32 * 1000000000)) 32) (satSigned (roundDiv adj (2 ^ 32)) 32) st

/-- A sample that steps tabor time. -/
def State.sampleStep (s : State) (theta : Int) : State :=
  ((s.timeStep (-theta)).upShp fun b => { b with integ := 0, lockrun := 0 }).wr Reg.GATE_TT_STAT_STATE ttACQUIRE

/-- A sample decided: it steps tabor time or steers the servo. -/
def State.sampleDecided (s : State) (theta : Int) (t : Nat) : State :=
  if s.on Reg.GATE_TT_CTL_STEP_EN && decide (s.rd Reg.GATE_TT_STEP_THR_NS * 2 ^ 32 ≤ theta.natAbs) then s.sampleStep theta
  else s.sampleSteered theta t

/-- A sample taken after `t` cycles. -/
def State.sampleTaken (s : State) (theta : Int) (t : Nat) : State :=
  ((s.sampleShown theta).sampleHeld ((s.sampleShown theta).rd Reg.GATE_TT_STAT_STATE == ttHOLDOVER)).sampleDecided theta t

theorem State.servoSample_eq (s : State) (theta : Int) : s.servoSample theta = s.sinceSample.2.sampleTaken theta s.sinceSample.1 := by
  unfold State.servoSample State.sinceSample
  cases s.shp.lastSample
  all_goals
    dsimp -zeta only
    extract_lets shown held started u
    unfold State.sampleTaken
    change _ = u.sampleDecided theta _
    clear_value u
    rfl

/-- A sample is shown, and either steps tabor time or steers the servo. -/
theorem State.servoSample_cases (s : State) (theta : Int) : ∃ u, u = (s.sinceSample.2.sampleShown theta).sampleHeld
      ((s.sinceSample.2.sampleShown theta).rd Reg.GATE_TT_STAT_STATE == ttHOLDOVER) ∧
    ((u.on Reg.GATE_TT_CTL_STEP_EN = true ∧ s.servoSample theta = u.sampleStep theta) ∨
      ∃ run inc adj st, s.servoSample theta = u.steered (u.integOf theta s.sinceSample.1) run inc adj st) := by
  refine ⟨_, rfl, ?_⟩
  generalize hu : (s.sinceSample.2.sampleShown theta).sampleHeld
      ((s.sinceSample.2.sampleShown theta).rd Reg.GATE_TT_STAT_STATE == ttHOLDOVER) = u
  have hform : s.servoSample theta = if u.on Reg.GATE_TT_CTL_STEP_EN && decide (u.rd Reg.GATE_TT_STEP_THR_NS * 2 ^ 32 ≤ theta.natAbs) then
      u.sampleStep theta else u.sampleSteered theta s.sinceSample.1 := by
    rw [s.servoSample_eq, State.sampleTaken, hu]
    rfl
  rw [hform]
  split
  case isTrue h => exact .inl ⟨(Bool.and_eq_true _ _ ▸ h).1, rfl⟩
  case isFalse => exact .inr ⟨_, _, _, _, rfl⟩

/-- The fields that a sample writes. -/
def sampleFlds : List Fld :=
  [Reg.GATE_TT_CNT_SAMPLE, Reg.GATE_TT_OFFSET_NS, Reg.GATE_TT_STAT_STATE, Reg.GATE_TT_INC_FRAC, Reg.GATE_TT_ADJ_PPB]

/-- A sample shown and begun. -/
def State.sampleBegun (s : State) (theta : Int) : State :=
  (s.sampleShown theta).sampleHeld ((s.sampleShown theta).rd Reg.GATE_TT_STAT_STATE == ttHOLDOVER)

theorem State.sampleBegun_effect (s : State) (theta : Int) :
    (s.sampleBegun theta).rd Reg.GATE_TT_CNT_SAMPLE = min (s.rd Reg.GATE_TT_CNT_SAMPLE + 1) (2 ^ Reg.GATE_TT_CNT_SAMPLE.width - 1) ∧
    (s.sampleBegun theta).rd Reg.GATE_TT_OFFSET_NS = satSigned (roundDiv theta (2 ^ 32)) 32 % 2 ^ 32 ∧
    (s.sampleBegun theta).shp.integ = s.shp.integ ∧ (s.sampleBegun theta).shp.lastSample = some s.hclk ∧
    (∀ q, (s.sampleBegun theta).sp q = s.sp q) ∧
    (∀ g : Fld, (sampleFlds.all fun f => g.separate f) = true → ∀ a b, (s.sampleBegun theta).rd g a b = s.rd g a b) ∧
    s.onlyChanges (s.sampleBegun theta) [.regs, .shp] := by
  have hshown : s.onlyChanges (s.sampleShown theta) [.regs] := by simp [State.onlyChanges_iff, State.sampleShown, State.bump]
  have hheld : ∀ (v : State) (held : Bool), (v.sampleHeld held).shp.integ = v.shp.integ ∧ (v.sampleHeld held).shp.lastSample = some v.hclk ∧
      (∀ q, (v.sampleHeld held).sp q = v.sp q) ∧
      (∀ g : Fld, g.separate Reg.GATE_TT_STAT_STATE = true → ∀ a b, (v.sampleHeld held).rd g a b = v.rd g a b) ∧
      v.onlyChanges (v.sampleHeld held) [.regs, .shp] := fun v held => by
    cases held
    · exact ⟨rfl, rfl, fun _ => rfl, fun _ _ _ _ => rfl, by simp [State.onlyChanges_iff, State.sampleHeld]⟩
    · exact ⟨rfl, rfl, fun _ => rfl, fun g hg a b => v.rd_wr_separate _ _ _ _ hg a b, by simp [State.onlyChanges_iff, State.sampleHeld]⟩
  obtain ⟨hinteg, hlast, hsp, hrd, hparts⟩ := hheld (s.sampleShown theta) ((s.sampleShown theta).rd Reg.GATE_TT_STAT_STATE == ttHOLDOVER)
  refine ⟨?_, ?_, hinteg, hlast, hsp, fun g hg a b => ?_, State.onlyChanges_trans (State.onlyChanges_mono hshown (by decide)) hparts⟩
  · rw [State.sampleBegun, hrd _ (by decide), State.sampleShown, State.rd_wr_separate _ _ _ _ _ (by decide), State.rd_bump_self _ _ _ _ _ (by decide)]
  · rw [State.sampleBegun, hrd _ (by decide), State.sampleShown, State.rd_wr_self _ _ _ _ _ (by decide)]
    rfl
  · obtain ⟨h1, h2, h3, -⟩ : g.separate Reg.GATE_TT_CNT_SAMPLE = true ∧ g.separate Reg.GATE_TT_OFFSET_NS = true ∧
      g.separate Reg.GATE_TT_STAT_STATE = true ∧ _ := by simpa only [sampleFlds, List.all_cons, Bool.and_eq_true] using hg
    rw [State.sampleBegun, hrd g h3, State.sampleShown, State.rd_wr_separate _ _ _ _ _ h2, State.rd_bump_separate _ _ _ _ _ h1]

/-- The servo steered: its registers alone, with the integral. -/
theorem State.steered_effect (s : State) (integ : Int) (run inc adj st : Nat) : (s.steered integ run inc adj st).shp = { s.shp with integ := integ, lockrun := run } ∧
    (∀ g : Fld, ([Reg.GATE_TT_INC_FRAC, Reg.GATE_TT_ADJ_PPB, Reg.GATE_TT_STAT_STATE].all fun f => g.separate f) = true →
      ∀ a b, (s.steered integ run inc adj st).rd g a b = s.rd g a b) ∧ s.onlyChanges (s.steered integ run inc adj st) [.regs, .shp] := by
  refine ⟨rfl, fun g hg a b => ?_, by simp [State.onlyChanges_iff, State.steered]⟩
  obtain ⟨h1, h2, h3⟩ : g.separate Reg.GATE_TT_INC_FRAC = true ∧ g.separate Reg.GATE_TT_ADJ_PPB = true ∧
    g.separate Reg.GATE_TT_STAT_STATE = true := by simpa using hg
  rw [State.steered, State.rd_wr_separate _ _ _ _ _ h3, State.rd_wr_separate _ _ _ _ _ h2, State.rd_wr_separate _ _ _ _ _ h1]
  rfl

theorem State.onlyChanges_sampleStep (s : State) (theta : Int) : (s.timeStep (-theta)).onlyChanges (s.sampleStep theta) [.regs, .shp] := by
  unfold State.sampleStep
  generalize s.timeStep (-theta) = u
  simp [State.onlyChanges_iff]

theorem State.sp_sampleStep (s : State) (theta : Int) (q : Nat) : (s.sampleStep theta).sp q = (s.timeStep (-theta)).sp q := by
  unfold State.sampleStep
  generalize s.timeStep (-theta) = u
  rfl

/-- The parts that a sample may change. -/
def sampleParts : List Part := [.nextFree, .regs, .tabor, .pool, .shp, .flt, .out, .host]

/-- What every sample leaves: it is counted, and no exchange in progress changes. -/
theorem State.servoSample_effect (s : State) (theta : Int) :
    (s.servoSample theta).rd Reg.GATE_TT_CNT_SAMPLE = min (s.rd Reg.GATE_TT_CNT_SAMPLE + 1) (2 ^ Reg.GATE_TT_CNT_SAMPLE.width - 1) ∧
    (∀ q, ((s.servoSample theta).sp q).lastReq = (s.sp q).lastReq) ∧
    (∀ g : Fld, ((sampleFlds ++ Reg.GATE_TT_CNT_STEP :: stepFlds ++ scoreFlds).all fun f => g.separate f) = true →
      ∀ a b, (s.servoSample theta).rd g a b = s.rd g a b) ∧ s.onlyChanges (s.servoSample theta) sampleParts := by
  have hsince : s.sinceSample.2.regs = s.regs ∧ s.sinceSample.2.shp = s.shp ∧ s.onlyChanges s.sinceSample.2 sampleParts := by
    unfold State.sinceSample
    split
    · exact ⟨rfl, rfl, s.onlyChanges_refl _⟩
    · exact ⟨rfl, rfl, by simp [State.onlyChanges_iff, State.free, sampleParts]⟩
  obtain ⟨hregs, hshp, hsparts⟩ := hsince
  have hrds : ∀ (g : Fld) a b, s.sinceSample.2.rd g a b = s.rd g a b := fun g a b => State.rd_congr hregs g a b
  have hsps : ∀ q, s.sinceSample.2.sp q = s.sp q := fun q => congrArg (fun x : ShpState => Tab.getD x.ports q {}) hshp
  obtain ⟨u, hu, hcases⟩ := s.servoSample_cases theta
  obtain ⟨hcnt, -, -, -, hsp, hrd, hparts⟩ := s.sinceSample.2.sampleBegun_effect theta
  rw [State.sampleBegun, ← hu] at hcnt hsp hrd hparts
  have hbegun : s.onlyChanges u sampleParts := hsparts.andThen hparts
  have hsplit : ∀ {g : Fld}, ((sampleFlds ++ Reg.GATE_TT_CNT_STEP :: stepFlds ++ scoreFlds).all fun f => g.separate f) = true →
      (sampleFlds.all fun f => g.separate f) = true ∧ ((Reg.GATE_TT_CNT_STEP :: stepFlds ++ scoreFlds).all fun f => g.separate f) = true :=
    fun hg => by rwa [List.append_assoc, List.all_append, Bool.and_eq_true] at hg
  rcases hcases with ⟨-, hstep⟩ | ⟨run, inc, adj, st, hsteer⟩
  · obtain ⟨-, -, hreq, hrdt, hpartst⟩ := u.timeStep_effect (-theta)
    rw [hstep]
    refine ⟨?_, fun q => ?_, fun g hg a b => ?_, ?_⟩
    · rw [State.sampleStep, State.rd_wr_separate _ _ _ _ _ (by decide), State.rd_upShp, hrdt _ (by decide), hcnt, hrds]
    · rw [u.sp_sampleStep theta q]
      exact (hreq q).trans (congrArg ShpPort.lastReq ((hsp q).trans (hsps q)))
    · obtain ⟨hsample, htime⟩ := hsplit hg
      rw [State.sampleStep, State.rd_wr_separate _ _ _ _ _ (List.all_eq_true.mp hsample Reg.GATE_TT_STAT_STATE (by decide)), State.rd_upShp,
        hrdt g htime, hrd g hsample, hrds]
    · have hstepped : s.onlyChanges (u.timeStep (-theta)) sampleParts := State.onlyChanges_trans hbegun (State.onlyChanges_mono hpartst (by decide))
      exact State.onlyChanges_trans hstepped (State.onlyChanges_mono (u.onlyChanges_sampleStep theta) (by decide))
  · obtain ⟨hshpt, hrdt, hpartst⟩ := u.steered_effect (u.integOf theta s.sinceSample.1) run inc adj st
    rw [hsteer]
    refine ⟨by rw [hrdt _ (by decide), hcnt, hrds], fun q => congrArg ShpPort.lastReq ((hsp q).trans (hsps q)), fun g hg a b => ?_,
      hbegun.andThen hpartst⟩
    have hall := List.all_eq_true.mp (hsplit hg).1
    rw [hrdt g (by simp [hall _ (show Reg.GATE_TT_INC_FRAC ∈ sampleFlds by decide), hall _ (show Reg.GATE_TT_ADJ_PPB ∈ sampleFlds by decide),
      hall _ (show Reg.GATE_TT_STAT_STATE ∈ sampleFlds by decide)]), hrd g (hsplit hg).1, hrds]

/-- A host sample without a step. -/
theorem exec_hostSample_steers {s : State} {a : Access} {v h : Nat} {m : Int} (hadm : s.admitsWrite a 0x2800030) (hsrc : s.rd Reg.GATE_TT_CTL_SRC = 1)
    (hlast : s.shp.lastSample = some h) (hstep : s.on Reg.GATE_TT_CTL_STEP_EN = false) (hm : m = (s.rd Reg.GATE_TT_MAXPPB_PPB : Int) * 2 ^ 32) :
    ∃ t, exec (.hostSample a v) s = .next t ∧
      t.shp.integ = clampInt (s.shp.integ - ppbTerm (signed v 32 * 2 ^ 32) (max 1 (s.hclk - h)) (s.rd Reg.GATE_TT_CTL_KI)) (-m) m ∧
      t.shp.lastSample = some s.hclk ∧ t.rd Reg.GATE_TT_OFFSET_NS = satSigned (roundDiv (signed v 32 * 2 ^ 32) (2 ^ 32)) 32 ∧
      t.rd Reg.GATE_TT_CNT_SAMPLE = min (s.rd Reg.GATE_TT_CNT_SAMPLE + 1) (2 ^ Reg.GATE_TT_CNT_SAMPLE.width - 1) ∧
      t.tabor = s.tabor ∧ s.onlyChanges t [.regs, .shp] := by
  have hrun : exec (.hostSample a v) s = .next (s.servoSample (signed v 32 * 2 ^ 32)) :=
    congrArg Host.Outcome.next ((State.window_admitted hadm _).trans (if_pos hsrc))
  have hsince : s.sinceSample = (max 1 (s.hclk - h), s) := by
    unfold State.sinceSample
    rw [hlast]
  obtain ⟨u, hu, hcases⟩ := s.servoSample_cases (signed v 32 * 2 ^ 32)
  rw [hsince] at hu hcases
  obtain ⟨hcnt, hoff, hinteg, hlast', -, hrd, hparts⟩ := s.sampleBegun_effect (signed v 32 * 2 ^ 32)
  rw [State.sampleBegun, ← hu] at hcnt hoff hinteg hlast' hrd hparts
  rcases hcases with ⟨hon, -⟩ | ⟨run, inc, adj, st, hsteer⟩
  · rw [State.on, hrd _ (by decide)] at hon
    exact absurd hon (ne_true_of_eq_false hstep)
  · obtain ⟨hshpt, hrdt, hpartst⟩ := u.steered_effect (u.integOf (signed v 32 * 2 ^ 32) (max 1 (s.hclk - h))) run inc adj st
    refine ⟨_, hrun.trans (congrArg Host.Outcome.next hsteer), (congrArg ShpState.integ hshpt).trans ?_,
      (congrArg ShpState.lastSample hshpt).trans hlast', ?_, by rw [hrdt _ (by decide), hcnt], (hpartst .tabor (by decide)).trans (hparts .tabor (by decide)),
      hparts.andThen hpartst⟩
    · show u.integOf _ _ = _
      rw [State.integOf, hinteg, hrd _ (by decide), hrd _ (by decide), hm]
    · rw [hrdt _ (by decide), hoff]
      refine Nat.mod_eq_of_lt ?_
      unfold satSigned unsigned
      omega

/-! REQs. -/

theorem exec_timeReqSend_due {s : State} {p : Nat} (hk : s.knawenPort p = true) (hl : s.linkActive p = true) (hs : s.sendsReq p = true)
    (hnone : (s.sp p).reqAt = none) :
    ∃ t, exec (.timeReqSend p) s = .next t ∧
      t.out = s.out ++ [.frame p (s.port p).nextTx (timePacket 0 (s.sp p).nextTseq (stamp s.tabor))] ∧
      (t.sp p).lastReq = some { tseq := (s.sp p).nextTseq, t1 := s.tabor, sent := s.hclk } ∧
      (t.sp p).nextTseq = ((s.sp p).nextTseq + 1) % 2 ^ 24 ∧ s.onlyChanges t [.regs, .meters, .out, .fab, .shp] := by
  have hrun : exec (.timeReqSend p) s = .next ((s.transmit p (timePacket 0 (s.sp p).nextTseq (stamp s.tabor))).upSp p fun q =>
      { q with lastReq := some { tseq := (s.sp p).nextTseq, t1 := s.tabor, sent := s.hclk }, nextTseq := ((s.sp p).nextTseq + 1) % 2 ^ 24,
               reqAt := some s.hclk }) := by
    refine congrArg Host.Outcome.next ?_
    unfold timeReqSend
    rw [hnone]
    exact if_pos (by simp [hk, hl, hs])
  obtain ⟨hout, -, -, hparts⟩ := s.transmit_effect p (timePacket 0 (s.sp p).nextTseq (stamp s.tabor))
  refine ⟨_, hrun, hout, by rw [State.sp_upSp_self], by rw [State.sp_upSp_self], ?_⟩
  generalize s.transmit p (timePacket 0 (s.sp p).nextTseq (stamp s.tabor)) = u at hparts
  exact State.onlyChanges_trans (State.onlyChanges_mono hparts (by decide)) (by simp [State.onlyChanges_iff])

theorem exec_timeReq_answered {s : State} {p t2 : Nat} {k : Packet} (hhead : s.headTime p 0 = some (t2, k)) (hsec : s.on Reg.FAB_PSTAT_SECURE p = true) :
    ∃ t, exec (.timeReq p) s = .next t ∧ (t.port p).ctl = (s.port p).ctl.drop 1 ∧ (t.port p).nextTx = (s.port p).nextTx + 1 ∧
      t.out = s.out ++ [.frame p (s.port p).nextTx (timePacket 1 (k.arg / 256) (slice k.payload 0 12 ++ stamp t2 ++ stamp s.tabor ++
        leBytes 1 (s.rd Reg.GATE_TT_STAT_STEPS) ++ leBytes 1 (b2n s.locked) ++
        leBytes 2 (if s.rd Reg.GATE_TT_STAT_STEPS = 0xFF then 0xFFFF else s.rd Reg.GATE_TT_STAT_SOURCE)))] ∧
      s.onlyChanges t [.regs, .meters, .out, .fab] := by
  have hrun : exec (.timeReq p) s = .next ((s.popCtl p).transmit p (timePacket 1 (k.arg / 256) (slice k.payload 0 12 ++ stamp t2 ++ stamp s.tabor ++
      leBytes 1 (s.rd Reg.GATE_TT_STAT_STEPS) ++ leBytes 1 (b2n s.locked) ++
      leBytes 2 (if s.rd Reg.GATE_TT_STAT_STEPS = 0xFF then 0xFFFF else s.rd Reg.GATE_TT_STAT_SOURCE)))) := by
    refine congrArg Host.Outcome.next ?_
    unfold timeReq
    rw [hhead]
    exact if_neg (by rw [show (s.popCtl p).on Reg.FAB_PSTAT_SECURE p = true from hsec]; decide)
  have hpop : (s.popCtl p).port p = { (s.port p) with ctl := (s.port p).ctl.drop 1 } := State.port_upPort_self _ _ _
  generalize hk : timePacket 1 (k.arg / 256) _ = pkt at hrun
  obtain ⟨hout, ⟨x, y, hport⟩, -, hparts⟩ := (s.popCtl p).transmit_effect p pkt
  have hfirst : s.onlyChanges (s.popCtl p) [.regs, .meters, .out, .fab] := by simp [State.onlyChanges_iff, State.popCtl]
  refine ⟨_, hrun, by rw [hport, hpop], by rw [hport, hpop], ?_, hfirst.andThen hparts⟩
  rw [hout, hpop]
  rfl

/-! RSPs. -/

/-- A RSP refused: counted at the source port. -/
def State.rspRejected (s : State) (p : Nat) : State := if s.isSource p then s.bump Reg.GATE_TT_CNT_REJECT else s

/-- The offset and the delay of a RSP, and the probe. -/
def State.rspMeasured (s : State) (p : Nat) (theta delta : Int) : State :=
  ((s.wr Reg.GATE_P_TOFF_NS (satSigned (roundDiv theta (2 ^ 32)) 32) p).wr Reg.GATE_P_TDELAY_NS
    (clampInt (roundDiv delta (2 ^ 32)) 0 0xFFFF).toNat p).upSp p fun q => { q with lastReq := none, probe := some (theta, s.hclk) }

/-- The sample that the source port's RSP gives. -/
def State.rspSampled (s : State) (p : Nat) (k : Packet) (theta : Int) : State :=
  if s.isSource p && fld k.payload 37 1 == 1 && decide (fld k.payload 36 1 < 15) then
    ((s.servoSample theta).wr Reg.GATE_TT_STAT_STEPS (fld k.payload 36 1 + 1)).wr Reg.GATE_TT_STAT_SOURCE (fld k.payload 38 2)
  else s.rspRejected p

/-- What judging a probe keeps. -/
theorem State.judgeProbe_effect (s : State) (p : Nat) (theta : Int) : (∀ q, ((s.judgeProbe p theta).sp q).lastReq = (s.sp q).lastReq) ∧
    (∀ q, (s.judgeProbe p theta).port q = s.port q) ∧
    (∀ g : Fld, ((Reg.GATE_P_STAT_FAULT :: scoreFlds).all fun f => g.separate f) = true → ∀ a b, (s.judgeProbe p theta).rd g a b = s.rd g a b) := by
  have hclear : (∀ q, ((s.clearTimeFault p).sp q).lastReq = (s.sp q).lastReq) ∧ (∀ q, (s.clearTimeFault p).port q = s.port q) ∧
      (∀ g : Fld, g.separate Reg.GATE_P_STAT_FAULT = true → ∀ a b, (s.clearTimeFault p).rd g a b = s.rd g a b) := by
    unfold State.clearTimeFault
    split
    · refine ⟨fun q => ?_, fun _ => rfl, fun g hg a b => s.rd_wr_separate _ _ _ _ hg a b⟩
      exact ((s.wr Reg.GATE_P_STAT_FAULT 0 p).gateStep_upSp p (g := fun q => { q with resuming := true }) fun _ => rfl).2.1 q
    · exact ⟨fun _ => rfl, fun _ => rfl, fun _ _ _ _ => rfl⟩
  have hraise : ∀ c th, (∀ q, ((s.raiseTimeFault p c th).sp q).lastReq = (s.sp q).lastReq) ∧ (∀ q, (s.raiseTimeFault p c th).port q = s.port q) ∧
      (∀ g : Fld, ((Reg.GATE_P_STAT_FAULT :: scoreFlds).all fun f => g.separate f) = true → ∀ a b, (s.raiseTimeFault p c th).rd g a b = s.rd g a b) := by
    intro c th
    unfold State.raiseTimeFault
    generalize hr : Report.mk _ _ _ _ _ _ _ = r
    have hparts := ((s.wr Reg.GATE_P_STAT_FAULT 1 p).reportsOnly_event r).1
    refine ⟨fun q => ?_, fun q => ?_, fun g hg a b => ?_⟩
    · exact congrArg (fun x : ShpState => (Tab.getD x.ports q {}).lastReq) (hparts .shp (by decide))
    · exact congrArg (fun x : FabState => Tab.getD x.ports q {}) (hparts .fab (by decide))
    · rw [List.all_cons, Bool.and_eq_true] at hg
      rw [State.rd_event_separate _ _ hg.2, State.rd_wr_separate _ _ _ _ _ hg.1]
  unfold State.judgeProbe
  dsimp only
  split
  · exact hraise _ _
  · split
    · exact ⟨hclear.1, hclear.2.1, fun g hg a b => hclear.2.2 g (by rw [List.all_cons, Bool.and_eq_true] at hg; exact hg.1) a b⟩
    · exact ⟨fun _ => rfl, fun _ => rfl, fun _ _ _ _ => rfl⟩

theorem State.rspRejected_effect (s : State) (p : Nat) : (∀ q, (s.rspRejected p).sp q = s.sp q) ∧ (∀ q, (s.rspRejected p).port q = s.port q) ∧
    (∀ g : Fld, g.separate Reg.GATE_TT_CNT_REJECT = true → ∀ a b, (s.rspRejected p).rd g a b = s.rd g a b) := by
  unfold State.rspRejected
  split
  · exact ⟨fun _ => rfl, fun _ => rfl, fun g hg a b => s.rd_bump_separate _ _ _ _ hg a b⟩
  · exact ⟨fun _ => rfl, fun _ => rfl, fun _ _ _ _ => rfl⟩

/-- The fields of a RSP's own offset and delay are none that a sample writes. -/
theorem State.rspSampled_effect (s : State) (p : Nat) (k : Packet) (theta : Int) : (∀ q, ((s.rspSampled p k theta).sp q).lastReq = (s.sp q).lastReq) ∧
    (∀ q, (s.rspSampled p k theta).port q = s.port q) ∧
    (∀ g : Fld, ((Reg.GATE_TT_CNT_REJECT :: Reg.GATE_TT_STAT_STEPS :: Reg.GATE_TT_STAT_SOURCE :: (sampleFlds ++ Reg.GATE_TT_CNT_STEP :: stepFlds ++
      scoreFlds)).all fun f => g.separate f) = true → ∀ a b, (s.rspSampled p k theta).rd g a b = s.rd g a b) := by
  obtain ⟨-, hreq, hrd, hparts⟩ := s.servoSample_effect theta
  obtain ⟨hsp, hport, hrdr⟩ := s.rspRejected_effect p
  unfold State.rspSampled
  generalize s.servoSample theta = u at hreq hrd hparts
  split
  · refine ⟨hreq, fun q => congrArg (fun x : FabState => Tab.getD x.ports q {}) (hparts .fab (by decide)), fun g hg a b => ?_⟩
    rw [List.all_cons, List.all_cons, List.all_cons, Bool.and_eq_true, Bool.and_eq_true, Bool.and_eq_true] at hg
    obtain ⟨-, h1, h2, hsample⟩ := hg
    rw [State.rd_wr_separate _ _ _ _ _ h2, State.rd_wr_separate _ _ _ _ _ h1, hrd g hsample]
  · exact ⟨fun q => congrArg ShpPort.lastReq (hsp q), hport, fun g hg a b => hrdr g (by rw [List.all_cons, Bool.and_eq_true] at hg; exact hg.1) a b⟩

/-- A RSP that answers the last REQ in time. -/
theorem exec_timeRsp_matched {s : State} {p t4 : Nat} {k : Packet} {r : TimeReq} {theta delta : Int} (hhead : s.headTime p 1 = some (t4, k))
    (hlast : (s.sp p).lastReq = some r) (htseq : r.tseq = k.arg / 256) (htime : s.hclk - r.sent ≤ usToHclk 10)
    (htheta : theta = Int.fdiv (((t4 : Int) - stampAt k.payload 24) - ((stampAt k.payload 12 : Int) - r.t1) -
      signed (s.rd Reg.GATE_P_ASYM_NS p) 16 * 2 ^ 32) 2)
    (hdelta : delta = Int.fdiv (((t4 : Int) - stampAt k.payload 24) + ((stampAt k.payload 12 : Int) - r.t1)) 2) :
    exec (.timeRsp p) s = .next ((((s.popCtl p).rspMeasured p theta delta).rspSampled p k theta).judgeProbe p theta) := by
  refine congrArg Host.Outcome.next ?_
  unfold timeRsp
  rw [hhead]
  dsimp -zeta only
  extract_lets u reject
  have hlast' : (u.sp p).lastReq = some r := hlast
  rw [hlast']
  dsimp -zeta only
  have htime' : u.hclk - r.sent ≤ usToHclk 10 := htime
  rw [if_neg (by omega), htheta, hdelta]
  rfl

/-- What a RSP in time leaves. -/
theorem State.rspDone_effect (s : State) (p : Nat) (k : Packet) (theta delta : Int) {t : State}
    (ht : t = (((s.popCtl p).rspMeasured p theta delta).rspSampled p k theta).judgeProbe p theta) :
    t.rd Reg.GATE_P_TOFF_NS p = satSigned (roundDiv theta (2 ^ 32)) 32 ∧ t.rd Reg.GATE_P_TDELAY_NS p = (clampInt (roundDiv delta (2 ^ 32)) 0 0xFFFF).toNat ∧
      (t.sp p).lastReq = none ∧ (t.port p).ctl = (s.port p).ctl.drop 1 := by
  obtain ⟨hreqj, hportj, hrdj⟩ := (((s.popCtl p).rspMeasured p theta delta).rspSampled p k theta).judgeProbe_effect p theta
  obtain ⟨hreq, hport, hrd⟩ := ((s.popCtl p).rspMeasured p theta delta).rspSampled_effect p k theta
  rw [← ht] at hreqj hportj hrdj
  generalize ((s.popCtl p).rspMeasured p theta delta).rspSampled p k theta = u at hreqj hportj hrdj hreq hport hrd
  refine ⟨?_, ?_, ?_, ?_⟩
  · rw [hrdj _ (by decide), hrd _ (by decide), State.rspMeasured, State.rd_upSp, State.rd_wr_separate _ _ _ _ _ (by decide),
      State.rd_wr_self _ _ _ _ _ (by decide)]
    refine Nat.mod_eq_of_lt ?_
    show _ < 2 ^ 32
    unfold satSigned unsigned
    omega
  · rw [hrdj _ (by decide), hrd _ (by decide), State.rspMeasured, State.rd_upSp, State.rd_wr_self _ _ _ _ _ (by decide)]
    refine Nat.mod_eq_of_lt ?_
    show _ < 2 ^ 16
    unfold clampInt
    omega
  · rw [hreqj, hreq, State.rspMeasured, State.sp_upSp_self]
  · rw [hportj, hport]
    show ((s.popCtl p).port p).ctl = _
    rw [State.popCtl, State.port_upPort_self]

/-- With VALID, the source port's RSP counts its master's steps and one more. -/
theorem State.rspValid_effect (s : State) {p : Nat} {k : Packet} (theta delta : Int) (hsrc : s.isSource p = true) (hvalid : fld k.payload 37 1 = 1)
    (hsteps : fld k.payload 36 1 < 15) {t : State}
    (ht : t = (((s.popCtl p).rspMeasured p theta delta).rspSampled p k theta).judgeProbe p theta) :
    t.rd Reg.GATE_TT_STAT_STEPS = fld k.payload 36 1 + 1 ∧ t.rd Reg.GATE_TT_STAT_SOURCE = fld k.payload 38 2 % 2 ^ Reg.GATE_TT_STAT_SOURCE.width ∧
      t.rd Reg.GATE_TT_CNT_SAMPLE = min (s.rd Reg.GATE_TT_CNT_SAMPLE + 1) (2 ^ Reg.GATE_TT_CNT_SAMPLE.width - 1) := by
  obtain ⟨-, -, hrdj⟩ := (((s.popCtl p).rspMeasured p theta delta).rspSampled p k theta).judgeProbe_effect p theta
  have hrdm : ∀ g : Fld, (g.separate Reg.GATE_P_TOFF_NS && g.separate Reg.GATE_P_TDELAY_NS) = true → ∀ a b,
      ((s.popCtl p).rspMeasured p theta delta).rd g a b = s.rd g a b := fun g hg a b => by
    rw [Bool.and_eq_true] at hg
    rw [State.rspMeasured, State.rd_upSp, State.rd_wr_separate _ _ _ _ _ hg.2, State.rd_wr_separate _ _ _ _ _ hg.1]
    rfl
  have hsrc' : ((s.popCtl p).rspMeasured p theta delta).isSource p = true := by
    rw [State.isSource, hrdm _ (by decide), hrdm _ (by decide)]
    exact hsrc
  have hsampled : ((s.popCtl p).rspMeasured p theta delta).rspSampled p k theta =
      ((((s.popCtl p).rspMeasured p theta delta).servoSample theta).wr Reg.GATE_TT_STAT_STEPS (fld k.payload 36 1 + 1)).wr Reg.GATE_TT_STAT_SOURCE
        (fld k.payload 38 2) := if_pos (by simp [hsrc', hvalid, hsteps])
  obtain ⟨hcnt, -, -, -⟩ := ((s.popCtl p).rspMeasured p theta delta).servoSample_effect theta
  rw [← ht, hsampled] at hrdj
  generalize ((s.popCtl p).rspMeasured p theta delta).servoSample theta = u at hrdj hcnt
  refine ⟨?_, ?_, ?_⟩
  · rw [hrdj _ (by decide), State.rd_wr_separate _ _ _ _ _ (by decide), State.rd_wr_self _ _ _ _ _ (by decide)]
    exact Nat.mod_eq_of_lt (show _ < 2 ^ 8 by omega)
  · rw [hrdj _ (by decide), State.rd_wr_self _ _ _ _ _ (by decide)]
  · rw [hrdj _ (by decide), State.rd_wr_separate _ _ _ _ _ (by decide), State.rd_wr_separate _ _ _ _ _ (by decide), hcnt, hrdm _ (by decide)]

/-- A RSP of another REQ is a reject at the source port. -/
theorem exec_timeRsp_other {s : State} {p t4 : Nat} {k : Packet} {r : TimeReq} (hhead : s.headTime p 1 = some (t4, k))
    (hlast : (s.sp p).lastReq = some r) (hne : r.tseq ≠ k.arg / 256) (hsrc : s.isSource p = true) :
    ∃ t, exec (.timeRsp p) s = .next t ∧
      t.rd Reg.GATE_TT_CNT_REJECT = min (s.rd Reg.GATE_TT_CNT_REJECT + 1) (2 ^ Reg.GATE_TT_CNT_REJECT.width - 1) ∧
      (t.port p).ctl = (s.port p).ctl.drop 1 ∧ s.onlyChanges t [.regs, .fab] ∧ s.regsKeptBut t [Reg.GATE_TT_CNT_REJECT.key 0 0] := by
  have hrun : exec (.timeRsp p) s = .next ((s.popCtl p).bump Reg.GATE_TT_CNT_REJECT) := by
    refine congrArg Host.Outcome.next ?_
    unfold timeRsp
    rw [hhead]
    dsimp -zeta only
    extract_lets u reject
    have hlast' : (u.sp p).lastReq = some r := hlast
    rw [hlast']
    dsimp -zeta only
    rw [if_pos (.inl hne)]
    exact if_pos hsrc
  refine ⟨_, hrun, State.rd_bump_self _ _ _ _ _ (by decide), ?_, by simp [State.onlyChanges_iff, State.popCtl], State.regsKept_bump _ _ _ _ _ (by simp)⟩
  rw [State.port_bump, State.popCtl, State.port_upPort_self]

theorem exec_timeRspTimeout_source {s : State} {p : Nat} {r : TimeReq} (hlast : (s.sp p).lastReq = some r) (hlate : usToHclk 10 ≤ s.hclk - r.sent)
    (hsrc : s.isSource p = true) :
    ∃ t, exec (.timeRspTimeout p) s = .next t ∧ (t.sp p).lastReq = none ∧
      t.rd Reg.GATE_TT_CNT_REJECT = min (s.rd Reg.GATE_TT_CNT_REJECT + 1) (2 ^ Reg.GATE_TT_CNT_REJECT.width - 1) ∧
      s.onlyChanges t [.regs, .shp] ∧ s.regsKeptBut t [Reg.GATE_TT_CNT_REJECT.key 0 0] := by
  have hrun : exec (.timeRspTimeout p) s = .next ((s.upSp p fun q => { q with lastReq := none }).bump Reg.GATE_TT_CNT_REJECT) := by
    refine congrArg Host.Outcome.next ?_
    unfold timeRspTimeout
    rw [hlast]
    exact (if_pos hlate).trans (if_pos hsrc)
  refine ⟨_, hrun, ?_, State.rd_bump_self _ _ _ _ _ (by decide), by simp [State.onlyChanges_iff], State.regsKept_bump _ _ _ _ _ (by simp)⟩
  rw [State.sp_bump, State.sp_upSp_self]

/-! The sources of tabor time. -/

theorem exec_servoHoldover_late {s : State} (hst : s.rd Reg.GATE_TT_STAT_STATE = ttLOCKED ∨ s.rd Reg.GATE_TT_STAT_STATE = ttACQUIRE)
    (hlate : 8 * usToHclk (s.rd Reg.GATE_TT_PERIOD_US) ≤ s.hclk - max (s.shp.lastSample.getD 0) s.shp.srcSince) :
    ∃ t, exec .servoHoldover s = .next t ∧ t.rd Reg.GATE_TT_STAT_STATE = ttHOLDOVER ∧ s.onlyChanges t [.regs] ∧
      s.regsKeptBut t [Reg.GATE_TT_STAT_STATE.key 0 0] := by
  refine ⟨s.wr Reg.GATE_TT_STAT_STATE ttHOLDOVER, congrArg Host.Outcome.next (if_pos ?_), State.rd_wr_self _ _ _ _ _ (by decide),
    s.onlyChanges_wr _ _ _ _ (by decide), s.regsKept_wr _ _ _ _ (by simp)⟩
  rw [Bool.and_eq_true, decide_eq_true_eq]
  exact ⟨by rcases hst with h | h <;> simp [h], hlate⟩

/-- A driver's set steps tabor time to its whole nanoseconds. -/
theorem exec_taborSet_steps {s : State} {a : Access} {hi : Nat} (h : s.admitsWrite a 0x2800038) (hhi : hi < 2 ^ 32) :
    ∃ t, exec (.taborSet a hi) s = .next t ∧ t.tabor = (s.rd Reg.GATE_TT_SET_LO + 2 ^ 32 * hi) * 2 ^ 32 ∧ t.hclk = s.hclk ∧
      t.rd Reg.GATE_TT_CNT_STEP = min (s.rd Reg.GATE_TT_CNT_STEP + 1) (2 ^ Reg.GATE_TT_CNT_STEP.width - 1) ∧
      s.onlyChanges t [.regs, .tabor, .pool, .shp, .flt, .out, .host] := by
  obtain ⟨u, hu⟩ : ∃ u, u = s.wr Reg.GATE_TT_SET_HI hi := ⟨_, rfl⟩
  have hlo : u.rd Reg.GATE_TT_SET_LO = s.rd Reg.GATE_TT_SET_LO := by
    rw [hu]
    exact s.rd_wr_separate _ _ _ _ (by decide) _ _
  have hparts : s.onlyChanges u [.regs] := by
    rw [hu]
    exact s.onlyChanges_wr _ _ _ _ (by decide)
  have hlt : s.rd Reg.GATE_TT_SET_LO < 2 ^ 32 := by
    unfold State.rd
    split
    · exact BitVec.isLt _
    · decide
  have hrun : exec (.taborSet a hi) s = .next (u.timeStep ((((s.rd Reg.GATE_TT_SET_LO + 2 ^ 32 * hi) * 2 ^ 32 : Nat) : Int) - (s.tabor : Int))) := by
    have hop : exec (.taborSet a hi) s = .next (u.timeStep ((((u.rd Reg.GATE_TT_SET_LO + 2 ^ 32 * (hi % 2 ^ 32)) * 2 ^ 32 : Nat) : Int) - (u.tabor : Int))) := by
      rw [hu]
      exact congrArg Host.Outcome.next (State.window_admitted h _)
    rw [hop, hlo, Nat.mod_eq_of_lt hhi, hparts .tabor (by decide)]
  obtain ⟨htabor, hcnt, -, -, hframe⟩ := u.timeStep_effect ((((s.rd Reg.GATE_TT_SET_LO + 2 ^ 32 * hi) * 2 ^ 32 : Nat) : Int) - (s.tabor : Int))
  refine ⟨_, hrun, htabor.trans ?_, (hframe .hclk (by decide)).trans (hparts .hclk (by decide)), hcnt.trans ?_,
    State.onlyChanges_trans (State.onlyChanges_mono hparts (by decide)) hframe⟩
  · rw [hparts .tabor (by decide)]
    omega
  · rw [hu, State.rd_wr_separate _ _ _ _ _ (by decide)]

theorem exec_ptmDialogue_begins {s : State} {a : Access} (h : s.admitsWrite a 0x280003C) (hnone : s.shp.ptm = none) :
    ∃ t, exec (.ptmDialogue a) s = .next t ∧ t.shp.ptm = some s.hclk ∧ t.rd64 Reg.GATE_TT_PTM_T1_LO Reg.GATE_TT_PTM_T1_HI = s.tnow ∧
      t.rd Reg.GATE_TT_PTM_CTL_GO = 1 ∧ t.out = s.out ++ [.message chPTM 0 []] ∧ s.onlyChanges t [.regs, .shp, .out] := by
  have hrun : exec (.ptmDialogue a) s = .next ((((s.wr Reg.GATE_TT_PTM_CTL_GO 1).wr64 Reg.GATE_TT_PTM_T1_LO Reg.GATE_TT_PTM_T1_HI s.tnow).upShp
      fun b => { b with ptm := some s.hclk }).emit (.message chPTM 0 [])) :=
    congrArg Host.Outcome.next ((State.window_admitted h _).trans (if_neg (by rw [hnone]; decide)))
  refine ⟨_, hrun, rfl, State.rd64_wr64 _ _ _ rfl rfl (by decide) s.tnow_lt, ?_, rfl, by simp [State.onlyChanges_iff, State.wr64]⟩
  rw [State.rd_emit, State.rd_upShp, State.wr64, State.rd_wr_separate _ _ _ _ _ (by decide), State.rd_wr_separate _ _ _ _ _ (by decide),
    State.rd_wr_self _ _ _ _ _ (by decide)]
  rfl

/-- A PTM response's times taken up. -/
def State.ptmTimed (s : State) (mt d : Nat) : State :=
  (((((s.upShp fun b => { b with ptm := none }).wr64 Reg.GATE_TT_PTM_T4_LO Reg.GATE_TT_PTM_T4_HI s.tnow).wr64 Reg.GATE_TT_PTM_MT_LO
    Reg.GATE_TT_PTM_MT_HI (mt % 2 ^ 64)).wr Reg.GATE_TT_PTM_PD_NS d).wr Reg.GATE_TT_PTM_CTL_GO 0).wr Reg.GATE_TT_PTM_CTL_FAIL 0

theorem exec_ptmResponse_taken {s : State} {h mt d : Nat} (hptm : s.shp.ptm = some h) (hmt : mt < 2 ^ 64) (hd : d < 2 ^ 32) :
    ∃ t, exec (.ptmResponse mt d) s = .next t ∧ t.shp.ptm = none ∧ t.rd64 Reg.GATE_TT_PTM_T4_LO Reg.GATE_TT_PTM_T4_HI = s.tnow ∧
      t.rd64 Reg.GATE_TT_PTM_MT_LO Reg.GATE_TT_PTM_MT_HI = mt ∧ t.rd Reg.GATE_TT_PTM_PD_NS = d ∧ t.rd Reg.GATE_TT_PTM_CTL_GO = 0 ∧
      t.rd Reg.GATE_TT_PTM_CTL_FAIL = 0 ∧ s.onlyChanges t [.regs, .shp] := by
  have hrun : exec (.ptmResponse mt d) s = .next (s.ptmTimed mt d) := congrArg Host.Outcome.next (if_neg (by rw [hptm]; simp))
  obtain ⟨u, hu⟩ : ∃ u, u = (s.upShp fun b => { b with ptm := none }).wr64 Reg.GATE_TT_PTM_T4_LO Reg.GATE_TT_PTM_T4_HI s.tnow := ⟨_, rfl⟩
  have hform : s.ptmTimed mt d = (((u.wr64 Reg.GATE_TT_PTM_MT_LO Reg.GATE_TT_PTM_MT_HI mt).wr Reg.GATE_TT_PTM_PD_NS d).wr
      Reg.GATE_TT_PTM_CTL_GO 0).wr Reg.GATE_TT_PTM_CTL_FAIL 0 := by
    rw [hu, State.ptmTimed, Nat.mod_eq_of_lt hmt]
  have ht4 : u.rd64 Reg.GATE_TT_PTM_T4_LO Reg.GATE_TT_PTM_T4_HI = s.tnow := by
    rw [hu]
    exact State.rd64_wr64 _ _ _ rfl rfl (by decide) s.tnow_lt
  have hmt' := u.rd64_wr64 (lo := Reg.GATE_TT_PTM_MT_LO) (hi := Reg.GATE_TT_PTM_MT_HI) 0 0 rfl rfl (by decide) hmt
  refine ⟨_, hrun, rfl, ?_, ?_, ?_, ?_, ?_, by simp [State.onlyChanges_iff, State.ptmTimed, State.wr64]⟩
  · rw [hform]
    refine (State.rd64_congr ?_ ?_).trans ht4 <;> simp (disch := decide) only [State.wr64, State.rd_wr_separate]
  · rw [hform]
    refine (State.rd64_congr ?_ ?_).trans hmt' <;> simp (disch := decide) only [State.rd_wr_separate]
  · rw [hform]
    simp (disch := decide) only [State.rd_wr_separate, State.rd_wr_self]
    exact Nat.mod_eq_of_lt hd
  · rw [hform]
    simp (disch := decide) only [State.rd_wr_separate, State.rd_wr_self]
    rfl
  · rw [hform]
    simp (disch := decide) only [State.rd_wr_self]
    rfl

theorem exec_ptmTimeout_fails {s : State} {h : Nat} (hptm : s.shp.ptm = some h) (hlate : usToHclk 10 ≤ s.hclk - h) :
    ∃ t, exec .ptmTimeout s = .next t ∧ t.shp.ptm = none ∧ t.rd Reg.GATE_TT_PTM_CTL_GO = 0 ∧ t.rd Reg.GATE_TT_PTM_CTL_FAIL = 1 ∧
      s.onlyChanges t [.regs, .shp] := by
  have hrun : exec .ptmTimeout s = .next (((s.upShp fun b => { b with ptm := none }).wr Reg.GATE_TT_PTM_CTL_GO 0).wr Reg.GATE_TT_PTM_CTL_FAIL 1) := by
    refine congrArg Host.Outcome.next ?_
    unfold ptmTimeout
    rw [hptm]
    exact if_pos hlate
  refine ⟨_, hrun, rfl, ?_, ?_, by simp [State.onlyChanges_iff]⟩
  · simp (disch := decide) only [State.rd_wr_separate, State.rd_wr_self]
    rfl
  · simp (disch := decide) only [State.rd_wr_self]
    rfl

/-- A pin driven reads its level. -/
theorem State.pins_drive_one (s : State) (n : Nat) : Tab.getD (s.drive n 1).pins n 0 = 1 := by
  unfold State.drive
  split
  case isTrue h => exact h
  case isFalse => exact congrArg (fun o : Option Nat => o.getD 0) (Tab.find?_put_self _ _ _)

theorem State.shp_drive (s : State) (n level : Nat) : (s.drive n level).shp = s.shp := by
  unfold State.drive
  split <;> rfl

theorem exec_ppsOut_rises {s : State} (hon : s.on Reg.GATE_TT_CTL_PPS_OUT = true) (hsec : s.tnow / 1000000000 ≠ s.shp.ppsLast) :
    ∃ t, exec .ppsOut s = .next t ∧ Tab.getD t.pins pinPPS_OUT 0 = 1 ∧ t.shp.ppsLast = s.tnow / 1000000000 ∧
      t.shp.ppsFall = s.hclk + usToHclk 1000 ∧ s.onlyChanges t [.shp, .pins, .out] := by
  have hrun : exec .ppsOut s = .next ((s.upShp fun b => { b with ppsLast := s.tnow / 1000000000, ppsFall := s.hclk + usToHclk 1000 }).drive
      pinPPS_OUT 1) := congrArg Host.Outcome.next (if_pos (by simp [hon, hsec]))
  have hframe : s.onlyChanges (s.upShp fun b => { b with ppsLast := s.tnow / 1000000000, ppsFall := s.hclk + usToHclk 1000 }) [.shp, .pins, .out] := by
    simp [State.onlyChanges_iff]
  refine ⟨_, hrun, State.pins_drive_one _ _, ?_, ?_, hframe.andThen (State.onlyChanges_drive _ _ _ (ps := [.pins, .out]) (by decide) (by decide))⟩
  · rw [State.shp_drive]
    rfl
  · rw [State.shp_drive]
    rfl

theorem exec_ppsIn_first {s : State} (hnone : s.shp.ppsEdge = none) :
    ∃ t, exec .ppsIn s = .next t ∧ t.shp.ppsEdge = some s.hclk ∧ t.rd64 Reg.GATE_TT_PPS_IN_LO Reg.GATE_TT_PPS_IN_HI = s.tnow ∧
      s.onlyChanges t [.regs, .shp] := by
  have hrun : exec .ppsIn s = .next ((s.upShp fun b => { b with ppsEdge := some s.hclk }).wr64 Reg.GATE_TT_PPS_IN_LO Reg.GATE_TT_PPS_IN_HI s.tnow) := by
    refine congrArg Host.Outcome.next ?_
    unfold ppsIn
    rw [hnone]
    rfl
  exact ⟨_, hrun, rfl, State.rd64_wr64 _ _ _ rfl rfl (by decide) s.tnow_lt, by simp [State.onlyChanges_iff, State.wr64]⟩

theorem exec_ppsIn_early {s : State} {h : Nat} (hedge : s.shp.ppsEdge = some h) (hearly : s.hclk - h < usToHclk 500000) :
    ∃ t, exec .ppsIn s = .next t ∧ t.rd Reg.FLT_CNT_INPUT = min (s.rd Reg.FLT_CNT_INPUT + 1) (2 ^ Reg.FLT_CNT_INPUT.width - 1) ∧
      s.onlyChanges t [.regs] ∧ s.regsKeptBut t [Reg.FLT_CNT_INPUT.key 0 0] := by
  have hrun : exec .ppsIn s = .next (s.bump Reg.FLT_CNT_INPUT) := by
    refine congrArg Host.Outcome.next ?_
    unfold ppsIn
    rw [hedge]
    exact if_pos (decide_eq_true hearly)
  exact ⟨_, hrun, State.rd_bump_self _ _ _ _ _ (by decide), s.onlyChanges_bump _ _ _ _ (by decide), s.regsKept_bump _ _ _ _ (by simp)⟩

/-- Settles O37: the exchanges by what a frame and a sample leave, the sources one by one. -/
theorem timeFollowsExchangesAndSources : Obligations.TimeFollowsExchangesAndSources := by
  unfold Obligations.TimeFollowsExchangesAndSources
  refine ⟨fun s p _ => ⟨exec_timeReqSend_due, fun t2 k => exec_timeReq_answered, ?_, fun t4 k r => exec_timeRsp_other,
    fun r => exec_timeRspTimeout_source⟩, fun s => ⟨exec_servoHoldover_late, fun a v h m => exec_hostSample_steers, fun a v h hsrc => ?_,
    fun a hi => exec_taborSet_steps, ⟨_, rfl, rfl, rfl, by simp [State.onlyChanges_iff, taborRealign]⟩, fun a => exec_ptmDialogue_begins,
    fun h mt d => exec_ptmResponse_taken, fun h => exec_ptmTimeout_fails, exec_ppsOut_rises, exec_ppsIn_first, fun h => exec_ppsIn_early⟩⟩
  · intro t4 k r theta delta hhead hlast htseq htime htheta hdelta
    have hrun := exec_timeRsp_matched hhead hlast htseq htime htheta hdelta
    exact ⟨⟨_, hrun, s.rspDone_effect p k theta delta rfl⟩,
      fun hsrc hvalid hsteps => ⟨_, hrun, s.rspValid_effect theta delta hsrc hvalid hsteps rfl⟩⟩
  · exact congrArg Host.Outcome.next ((State.window_admitted h _).trans (if_neg hsrc))

end Sys2Proof.Machine
end

section
/-!
PROOF. Link sleep (R388–R393): each message answered as R389 and R390 say, each edge of the sleep reached at its time.
-/
namespace Sys2Proof.Machine

theorem State.popCtl_effect (s : State) (p : Nat) : ((s.popCtl p).port p).ctl = (s.port p).ctl.drop 1 ∧
    ((s.popCtl p).port p).nextTx = (s.port p).nextTx ∧ s.onlyChanges (s.popCtl p) [.fab] := by
  refine ⟨?_, ?_, by simp [State.onlyChanges_iff, State.popCtl]⟩ <;> rw [State.popCtl, State.port_upPort_self]

/-- A message sent, and what chapter 12 keeps changed: the frame is the port's next. -/
theorem State.sentWith_effect (s : State) (p : Nat) (k : Packet) (g : ShpPort → ShpPort) {t : State} (ht : t = (s.transmit p k).upSp p g) :
    t.sp p = g (s.sp p) ∧ t.out = s.out ++ [.frame p (s.port p).nextTx k] ∧ s.onlyChanges t [.regs, .meters, .out, .fab, .shp] := by
  obtain ⟨hout, -, -, hparts⟩ := s.transmit_effect p k
  subst ht
  generalize s.transmit p k = u at hout hparts
  have hsp : u.sp p = s.sp p := congrArg (fun x : ShpState => Tab.getD x.ports p {}) (hparts .shp (by decide))
  exact ⟨by rw [State.sp_upSp_self, hsp], hout,
    State.onlyChanges_trans (State.onlyChanges_mono hparts (by decide)) (by simp [State.onlyChanges_iff])⟩

/-! Messages. -/

section
variable {s : State} {p n : Nat} {k : Packet}

theorem exec_sleep_agreed (hhead : s.headTime p 2 = some (n, k)) (hnone : (s.sp p).sleep = none) (hr : s.nakReason p (sleepOf k) = 0) :
    ∃ t, exec (.sleep p) s = .next t ∧ (t.sp p).sleep = some { sleepOf k with agreed := true } ∧
      t.out = s.out ++ [.frame p (s.port p).nextTx (timePacket 3 (k.arg / 256) (sleepBytes (sleepOf k)))] ∧
      s.onlyChanges t [.regs, .meters, .out, .fab, .shp] := by
  have hrun : exec (.sleep p) s = .next (((s.popCtl p).transmit p (timePacket 3 (k.arg / 256) (sleepBytes (sleepOf k)))).upSp p fun q =>
      { q with sleep := some { sleepOf k with agreed := true } }) := by
    refine congrArg Host.Outcome.next ?_
    unfold sleepMsg
    rw [hhead]
    dsimp -zeta only
    extract_lets u
    have hnone' : (u.sp p).sleep = none := hnone
    rw [hnone']
    exact if_pos hr
  obtain ⟨-, hnext, hpop⟩ := s.popCtl_effect p
  obtain ⟨hsp, hout, hparts⟩ := (s.popCtl p).sentWith_effect p (timePacket 3 (k.arg / 256) (sleepBytes (sleepOf k)))
    (fun q => { q with sleep := some { sleepOf k with agreed := true } }) rfl
  refine ⟨_, hrun, by rw [hsp], ?_, State.onlyChanges_trans (State.onlyChanges_mono hpop (by decide)) hparts⟩
  rw [hout, hnext]
  rfl

theorem exec_sleep_refused (hp : p < 32) (hhead : s.headTime p 2 = some (n, k)) (hnone : (s.sp p).sleep = none)
    (hr : s.nakReason p (sleepOf k) ≠ 0) :
    ∃ t, exec (.sleep p) s = .next t ∧ (t.sp p).sleep = none ∧
      t.out = s.out ++ [.frame p (s.port p).nextTx (timePacket 4 (k.arg / 256) (sleepBytes (sleepOf k) ++ leBytes 1 (s.nakReason p (sleepOf k))))] ∧
      t.rd Reg.GATE_P_CNT_NAK p = min (s.rd Reg.GATE_P_CNT_NAK p + 1) (2 ^ Reg.GATE_P_CNT_NAK.width - 1) ∧
      s.onlyChanges t [.regs, .meters, .out, .fab] := by
  have hrun : exec (.sleep p) s = .next (((s.popCtl p).transmit p (timePacket 4 (k.arg / 256) (sleepBytes (sleepOf k) ++
      leBytes 1 (s.nakReason p (sleepOf k))))).bump Reg.GATE_P_CNT_NAK p) := by
    refine congrArg Host.Outcome.next ?_
    unfold sleepMsg
    rw [hhead]
    dsimp -zeta only
    extract_lets u
    have hnone' : (u.sp p).sleep = none := hnone
    rw [hnone']
    exact if_neg hr
  obtain ⟨-, hnext, hpop⟩ := s.popCtl_effect p
  obtain ⟨hout, -, -, hparts⟩ := (s.popCtl p).transmit_effect p (timePacket 4 (k.arg / 256) (sleepBytes (sleepOf k) ++
    leBytes 1 (s.nakReason p (sleepOf k))))
  have hcnt := (s.popCtl p).rd_transmit (timePacket 4 (k.arg / 256) (sleepBytes (sleepOf k) ++ leBytes 1 (s.nakReason p (sleepOf k))))
    (g := Reg.GATE_P_CNT_NAK) (a := p) (b := 0) hp (by decide) (by decide) hp (by decide)
  generalize (s.popCtl p).transmit p _ = u at hrun hout hparts hcnt
  refine ⟨_, hrun, ?_, ?_, ?_, ?_⟩
  · exact (congrArg (fun x : ShpState => (Tab.getD x.ports p {}).sleep) (hparts .shp (by decide))).trans hnone
  · rw [State.bump_out, hout, hnext]
    rfl
  · rw [State.rd_bump_self _ _ _ _ _ (by decide), hcnt]
    rfl
  · exact (State.onlyChanges_trans (State.onlyChanges_mono hpop (by decide)) hparts).andThen
      (u.onlyChanges_bump (ps := [.regs]) Reg.GATE_P_CNT_NAK p 0 1 (by decide))

variable {o : Sleep}

theorem exec_sleepAck_agreed (hhead : s.headTime p 3 = some (n, k)) (ho : (s.sp p).sleep = some o) (hmine : o.mine = true)
    (hsame : sameSleep o (sleepOf k) = true) (htime : s.tabor + 1000 * 2 ^ 32 ≤ o.enter * 2 ^ 32) :
    ∃ t, exec (.sleepAck p) s = .next t ∧ (t.sp p).sleep = some { o with agreed := true } ∧ (t.port p).ctl = (s.port p).ctl.drop 1 ∧
      s.onlyChanges t [.fab, .shp] := by
  have hrun : exec (.sleepAck p) s = .next ((s.popCtl p).upSp p fun q => { q with sleep := some { o with agreed := true } }) := by
    refine congrArg Host.Outcome.next ?_
    unfold sleepAck
    rw [hhead]
    dsimp -zeta only
    extract_lets u
    have ho' : (u.sp p).sleep = some o := ho
    have htime' : u.tabor + 1000 * 2 ^ 32 ≤ o.enter * 2 ^ 32 := htime
    rw [ho']
    exact if_pos (by simp [hmine, hsame]; exact htime')
  obtain ⟨hctl, -, hpop⟩ := s.popCtl_effect p
  refine ⟨_, hrun, by rw [State.sp_upSp_self], by rw [State.port_upSp, hctl], ?_⟩
  exact State.onlyChanges_trans (State.onlyChanges_mono hpop (by decide)) (by simp [State.onlyChanges_iff])

theorem exec_sleepNak_ends (hhead : s.headTime p 4 = some (n, k)) (ho : (s.sp p).sleep = some o) (hmine : o.mine = true)
    (hsame : sameSleep o (sleepOf k) = true) :
    ∃ t, exec (.sleepNak p) s = .next t ∧ (t.sp p).sleep = none ∧
      t.rd Reg.GATE_P_CNT_NAK p = min (s.rd Reg.GATE_P_CNT_NAK p + 1) (2 ^ Reg.GATE_P_CNT_NAK.width - 1) ∧ s.onlyChanges t [.regs, .fab, .shp] := by
  have hrun : exec (.sleepNak p) s = .next (((s.popCtl p).bump Reg.GATE_P_CNT_NAK p).upSp p fun q => { q with sleep := none }) := by
    refine congrArg Host.Outcome.next ?_
    unfold sleepNak
    rw [hhead]
    dsimp -zeta only
    extract_lets u
    have ho' : (u.sp p).sleep = some o := ho
    rw [ho']
    exact if_pos (by simp [hmine, hsame])
  refine ⟨_, hrun, by rw [State.sp_upSp_self], ?_, by simp [State.onlyChanges_iff, State.popCtl, State.bump]⟩
  rw [State.rd_upSp, State.rd_bump_self _ _ _ _ _ (by decide)]
  rfl

end

/-! Proposals. -/

/-- A valid sleep proposed by an awake port. -/
theorem State.propose_sends {s : State} {p : Nat} {e : Sleep} (hk : s.knawenPort p = true) (hl : s.linkActive p = true) (hlock : s.locked = true)
    (hfault : s.on Reg.GATE_P_STAT_FAULT p = false) (hnone : (s.sp p).sleep = none) (hvalid : sleepValid s.tabor e = true) :
    s.propose p e = (s.transmit p (timePacket 2 0 (sleepBytes e))).upSp p fun q => { q with sleep := some { e with mine := true } } :=
  if_pos (by simp [hk, hl, hlock, hfault, hnone, hvalid])

section
variable {s : State} {p : Nat} (hp : p < 32) (hk : s.knawenPort p = true) (hl : s.linkActive p = true) (hlock : s.locked = true)
  (hfault : s.on Reg.GATE_P_STAT_FAULT p = false) (hnone : (s.sp p).sleep = none)
include hp hk hl hlock hfault hnone

theorem exec_sleepRequest_proposes {a : Access} {e : Sleep} (h : s.admitsWrite a (0x2810020 + 0x100 * p))
    (he : e = ⟨s.rd64 Reg.GATE_P_PWR_E_LO Reg.GATE_P_PWR_E_HI p, s.rd64 Reg.GATE_P_PWR_W_LO Reg.GATE_P_PWR_W_HI p, s.rd Reg.GATE_P_PWR_STATE p,
      false, false⟩) (hvalid : sleepValid s.tabor e = true) :
    ∃ t, exec (.sleepRequest a p) s = .next t ∧ (t.sp p).sleep = some { e with mine := true } ∧
      t.out = s.out ++ [.frame p (s.port p).nextTx (timePacket 2 0 (sleepBytes e))] ∧ s.onlyChanges t [.regs, .meters, .out, .fab, .shp] := by
  have hrun : exec (.sleepRequest a p) s = .next (s.propose p e) := by
    refine congrArg Host.Outcome.next ((if_pos (by simp [portOk, hp])).trans ((State.window_admitted h _).trans ?_))
    rw [he]
    rfl
  obtain ⟨hsp, hout, hparts⟩ := s.sentWith_effect p (timePacket 2 0 (sleepBytes e)) (fun q => { q with sleep := some { e with mine := true } })
    (State.propose_sends hk hl hlock hfault hnone hvalid)
  exact ⟨_, hrun, by rw [hsp], hout, hparts⟩

theorem exec_sleepPropose_proposes {e w : Nat} (hauto : s.rd Reg.GATE_P_PWR_AUTO p ≠ 0) (hmode : (s.portCfg p).gateMode = 1)
    (hquiet : (s.activeList p).nextQuiet (s.tnow + 2001) = some (e, w)) (hsoon : e ≤ s.tnow + 10000) (hnew : (s.sp p).proposed ≠ some e)
    (hvalid : sleepValid s.tabor { enter := e, wake := w, state := s.rd Reg.GATE_P_PWR_AUTO p } = true) :
    ∃ t, exec (.sleepPropose p false) s = .next t ∧ (t.sp p).proposed = some e ∧
      (t.sp p).sleep = some { enter := e, wake := w, state := s.rd Reg.GATE_P_PWR_AUTO p, mine := true } ∧
      s.onlyChanges t [.regs, .meters, .out, .fab, .shp] := by
  obtain ⟨u, hu⟩ : ∃ u, u = s.upSp p fun q => { q with proposed := some e } := ⟨_, rfl⟩
  have hrun : exec (.sleepPropose p false) s = .next (u.propose p { enter := e, wake := w, state := s.rd Reg.GATE_P_PWR_AUTO p }) := by
    refine congrArg Host.Outcome.next ?_
    unfold sleepPropose
    dsimp only
    rw [if_neg (by simp [portOk, hp, hauto, hmode]), hquiet, hu]
    exact if_pos ⟨hsoon, hnew⟩
  have hspu : u.sp p = { (s.sp p) with proposed := some e } := by rw [hu, State.sp_upSp_self]
  have hsent := State.propose_sends (s := u) (e := { enter := e, wake := w, state := s.rd Reg.GATE_P_PWR_AUTO p }) (by rw [hu]; exact hk)
    (by rw [hu]; exact hl) (by rw [hu]; exact hlock) (by rw [hu]; exact hfault) (by rw [hspu]; exact hnone) (by rw [hu]; exact hvalid)
  obtain ⟨hsp, -, hparts⟩ := u.sentWith_effect p (timePacket 2 0 (sleepBytes { enter := e, wake := w, state := s.rd Reg.GATE_P_PWR_AUTO p }))
    (fun q => { q with sleep := some { enter := e, wake := w, state := s.rd Reg.GATE_P_PWR_AUTO p, mine := true } }) hsent
  refine ⟨_, hrun, by rw [hsp, hspu], by rw [hsp], ?_⟩
  have hfirst : s.onlyChanges u [.regs, .meters, .out, .fab, .shp] := by
    rw [hu]
    simp [State.onlyChanges_iff]
  exact State.onlyChanges_trans hfirst hparts

end

/-! The edges of a sleep. -/

section
variable {s : State} {p : Nat} (hp : p < 32)
include hp

theorem exec_sleepEnter_agreed {o : Sleep} (b : Bool) (ho : (s.sp p).sleep = some o) (hagreed : o.agreed = true) (hst : o.state < 4)
    (htime : o.enter * 2 ^ 32 ≤ s.tabor) (hpwr : s.rd Reg.GATE_P_STAT_PWR p = pwrACTIVE) :
    ∃ t, exec (.sleepEnter p b) s = .next t ∧ t.rd Reg.GATE_P_STAT_PWR p = o.state ∧
      t.rd Reg.GATE_P_CNT_SLEEP p = min (s.rd Reg.GATE_P_CNT_SLEEP p + 1) (2 ^ Reg.GATE_P_CNT_SLEEP.width - 1) ∧
      s.onlyChanges t [.regs, .shp] ∧ s.regsKeptBut t [Reg.GATE_P_STAT_PWR.key p 0, Reg.GATE_P_CNT_SLEEP.key p 0] := by
  have hrun : exec (.sleepEnter p b) s = .next (((s.wr Reg.GATE_P_STAT_PWR o.state p).bump Reg.GATE_P_CNT_SLEEP p).upSp p fun q =>
      { q with sleep := some { o with agreed := true } }) := by
    refine congrArg Host.Outcome.next ?_
    unfold sleepEnter
    rw [ho]
    dsimp only
    rw [if_neg (by simp [portOk, hp, hpwr]; omega)]
    exact if_pos (by simp [hagreed])
  refine ⟨_, hrun, ?_, ?_, by simp [State.onlyChanges_iff], ?_⟩
  · rw [State.rd_upSp, State.rd_bump_separate _ _ _ _ _ (by decide), State.rd_wr_self _ _ _ _ _ (by decide)]
    exact Nat.mod_eq_of_lt (show _ < 2 ^ 2 from hst)
  · rw [State.rd_upSp, State.rd_bump_self _ _ _ _ _ (by decide), State.rd_wr_separate _ _ _ _ _ (by decide)]
  · exact State.regsKept_trans (s.regsKept_wr _ _ _ _ (by simp)) (State.regsKept_bump _ _ _ _ _ (by simp))

theorem exec_wakeStart_due {o : Sleep} (ho : (s.sp p).sleep = some o)
    (hpwr : s.rd Reg.GATE_P_STAT_PWR p = pwrDOZE ∨ s.rd Reg.GATE_P_STAT_PWR p = pwrSLEEP)
    (htime : o.wake * 2 ^ 32 ≤ s.tabor + wakeWindow o.state * 2 ^ 32) :
    ∃ t, exec (.wakeStart p) s = .next t ∧ t.rd Reg.GATE_P_STAT_PWR p = pwrWAKING ∧ s.onlyChanges t [.regs] ∧
      s.regsKeptBut t [Reg.GATE_P_STAT_PWR.key p 0] := by
  have hrun : exec (.wakeStart p) s = .next (s.wr Reg.GATE_P_STAT_PWR pwrWAKING p) := by
    refine congrArg Host.Outcome.next ?_
    unfold wakeStart
    rw [ho]
    refine if_pos ?_
    rw [Bool.and_eq_true, Bool.and_eq_true, decide_eq_true_eq]
    exact ⟨⟨decide_eq_true hp, by rcases hpwr with h | h <;> simp [h]⟩, htime⟩
  exact ⟨_, hrun, State.rd_wr_self _ _ _ _ _ (by decide), s.onlyChanges_wr _ _ _ _ (by decide), s.regsKept_wr _ _ _ _ (by simp)⟩

/-- The port awake again, its partner's first frame awaited. -/
def State.awoken (s : State) (p w : Nat) : State :=
  (s.wr Reg.GATE_P_STAT_PWR pwrACTIVE p).upSp p fun q => { q with sleep := none, awaiting := some w }

omit hp in
/-- A BEAT: the port's next frame. -/
theorem State.sendBeat_effect (s : State) (p : Nat) : (s.sendBeat p).out = s.out ++ [.frame p (s.port p).nextTx (linkPacket 0 (s.port p).beatsSent [])] ∧
    ((s.sendBeat p).port p).beatsSent = ((s.port p).beatsSent + 1) % 2 ^ 24 ∧ s.onlyChanges (s.sendBeat p) [.regs, .meters, .out, .fab] := by
  obtain ⟨hout, ⟨x, y, hport⟩, -, hparts⟩ := s.transmit_effect p (linkPacket 0 (s.port p).beatsSent [])
  have hform : s.sendBeat p = (s.transmit p (linkPacket 0 (s.port p).beatsSent [])).upPort p fun q => { q with beatsSent := (q.beatsSent + 1) % 2 ^ 24 } := rfl
  rw [hform]
  generalize s.transmit p (linkPacket 0 (s.port p).beatsSent []) = u at hout hport hparts
  exact ⟨hout, by rw [State.port_upPort_self, hport], State.onlyChanges_trans hparts (by simp [State.onlyChanges_iff])⟩

omit hp in
theorem State.rd_sendBeat (s : State) {p : Nat} {g : Fld} {a b : Nat} (hp : p < 32) (h : ((countFlds ++ switchFlds).all fun f => g.apart f) = true)
    (hg : g.lo < 32) (ha : a < g.n1) (hb : b < g.n2) : (s.sendBeat p).rd g a b = s.rd g a b := s.rd_transmit _ hp h hg ha hb

theorem exec_wake_due {o : Sleep} (ho : (s.sp p).sleep = some o) (hpwr : s.rd Reg.GATE_P_STAT_PWR p = pwrWAKING)
    (htime : o.wake * 2 ^ 32 ≤ s.tabor) :
    ∃ t, exec (.wake p) s = .next t ∧ t.rd Reg.GATE_P_STAT_PWR p = pwrACTIVE ∧ (t.sp p).sleep = none ∧ (t.sp p).awaiting = some o.wake ∧
      t.out = s.out ++ [.frame p (s.port p).nextTx (linkPacket 0 (s.port p).beatsSent [])] ∧ s.onlyChanges t [.regs, .meters, .out, .fab, .shp] := by
  obtain ⟨u, hu⟩ : ∃ u, u = s.awoken p o.wake := ⟨_, rfl⟩
  have hrun : exec (.wake p) s = .next ((u.sendBeat p).upPort p fun q => { q with lastBeat := u.hclk }) := by
    refine congrArg Host.Outcome.next ?_
    unfold wake
    rw [ho, hu]
    exact if_pos (by simp [portOk, hp, hpwr]; omega)
  have hport : u.port p = s.port p := by rw [hu]; rfl
  have hspu : (u.sp p).sleep = none ∧ (u.sp p).awaiting = some o.wake := by
    rw [hu, State.awoken, State.sp_upSp_self]
    exact ⟨rfl, rfl⟩
  have hpwru : u.rd Reg.GATE_P_STAT_PWR p = pwrACTIVE := by
    rw [hu, State.awoken, State.rd_upSp, State.rd_wr_self _ _ _ _ _ (by decide)]
    rfl
  have hfirst : s.onlyChanges u [.regs, .meters, .out, .fab, .shp] := by
    rw [hu]
    simp [State.onlyChanges_iff, State.awoken]
  have houtu : u.out = s.out := by rw [hu]; rfl
  obtain ⟨hout, -, hparts⟩ := u.sendBeat_effect p
  have hrd := u.rd_sendBeat (g := Reg.GATE_P_STAT_PWR) (a := p) (b := 0) hp (by decide) (by decide) hp (by decide)
  have hspb : (u.sendBeat p).sp p = u.sp p := congrArg (fun x : ShpState => Tab.getD x.ports p {}) (hparts .shp (by decide))
  generalize u.sendBeat p = v at hrun hout hparts hrd hspb
  refine ⟨_, hrun, hrd.trans hpwru, ?_, ?_, ?_, ?_⟩
  · rw [State.sp_upPort, hspb, hspu.1]
  · rw [State.sp_upPort, hspb, hspu.2]
  · rw [State.upPort_out, hout, houtu, hport]
  · exact (State.onlyChanges_trans hfirst (State.onlyChanges_mono hparts (by decide))).andThen (qs := [.fab]) (by simp [State.onlyChanges_iff])

end

/-- What a retrain leaves. -/
theorem State.retrain_effect (s : State) (p : Nat) : (s.retrain p).rd Reg.FAB_PSTAT_RETRAIN p = 1 ∧ (s.retrain p).rd Reg.FAB_PSTAT_UP p = 0 ∧
    (∀ g : Fld, ((Reg.FAB_PSTAT_RETRAIN :: Reg.FAB_PSTAT_UP :: scoreFlds).all fun f => g.separate f) = true →
      ∀ a b, (s.retrain p).rd g a b = s.rd g a b) ∧ s.onlyChanges (s.retrain p) recordParts ∧
    s.regsKeptBut (s.retrain p) (Reg.FAB_PSTAT_UP.key p 0 :: Reg.FAB_PSTAT_RETRAIN.key p 0 :: scoreKeys) := by
  obtain ⟨hparts, hkeys⟩ := ((s.wr Reg.FAB_PSTAT_RETRAIN 1 p).wr Reg.FAB_PSTAT_UP 0 p).chargesOnly_charge clsPORT p 0 1 1 128
  refine ⟨?_, ?_, fun g hg a b => ?_, ?_, ?_⟩
  · rw [State.retrain, State.rd_charge_separate _ _ _ _ _ _ _ (by decide), State.rd_wr_separate _ _ _ _ _ (by decide),
      State.rd_wr_self _ _ _ _ _ (by decide)]
    rfl
  · rw [State.retrain, State.rd_charge_separate _ _ _ _ _ _ _ (by decide), State.rd_wr_self _ _ _ _ _ (by decide)]
    rfl
  · rw [List.all_cons, List.all_cons, Bool.and_eq_true, Bool.and_eq_true] at hg
    obtain ⟨h1, h2, h3⟩ := hg
    rw [State.retrain, State.rd_charge_separate _ _ _ _ _ _ _ h3, State.rd_wr_separate _ _ _ _ _ h2, State.rd_wr_separate _ _ _ _ _ h1]
  · exact State.onlyChanges_trans (State.onlyChanges_trans (s.onlyChanges_wr _ _ _ _ (by decide)) (State.onlyChanges_wr _ _ _ _ _ (by decide))) hparts
  · have hretrain : s.regsKeptBut (s.wr Reg.FAB_PSTAT_RETRAIN 1 p) (Reg.FAB_PSTAT_UP.key p 0 :: Reg.FAB_PSTAT_RETRAIN.key p 0 :: scoreKeys) :=
      s.regsKept_wr _ _ _ _ (by simp)
    have hup : (s.wr Reg.FAB_PSTAT_RETRAIN 1 p).regsKeptBut ((s.wr Reg.FAB_PSTAT_RETRAIN 1 p).wr Reg.FAB_PSTAT_UP 0 p)
      (Reg.FAB_PSTAT_UP.key p 0 :: Reg.FAB_PSTAT_RETRAIN.key p 0 :: scoreKeys) := State.regsKept_wr _ _ _ _ _ (by simp)
    exact State.regsKept_trans (State.regsKept_trans hretrain hup)
      (State.regsKept_mono hkeys fun x hx => List.mem_cons_of_mem _ (List.mem_cons_of_mem _ hx))

theorem exec_missedWake_late {s : State} {p : Nat} (hp : p < 32) {w : Nat} (hw : (s.sp p).awaiting = some w)
    (htime : (w + (s.portCfg p).guardNs + s.rd Reg.GATE_P_TDELAY_NS p) * 2 ^ 32 ≤ s.tabor) :
    ∃ t, exec (.missedWake p) s = .next t ∧ (t.sp p).awaiting = none ∧ t.rd Reg.FAB_PSTAT_RETRAIN p = 1 ∧ t.rd Reg.FAB_PSTAT_UP p = 0 ∧
      t.rd Reg.GATE_P_STAT_FAULT p = 1 ∧ t.rd Reg.GATE_P_CNT_MISSED p = min (s.rd Reg.GATE_P_CNT_MISSED p + 1) (2 ^ Reg.GATE_P_CNT_MISSED.width - 1) ∧
      s.onlyChanges t [.regs, .shp, .flt, .out, .host] := by
  obtain ⟨u, hu⟩ : ∃ u, u = s.upSp p fun q => { q with awaiting := none } := ⟨_, rfl⟩
  obtain ⟨v, hv⟩ : ∃ v, v = ((u.retrain p).bump Reg.GATE_P_CNT_MISSED p).charge clsPORT p 1 1 1 64 := ⟨_, rfl⟩
  obtain ⟨r, hr⟩ : ∃ r : Report, v.raiseTimeFault p 0 (signed (v.rd Reg.GATE_P_TOFF_NS p) 32) = (v.wr Reg.GATE_P_STAT_FAULT 1 p).event r := ⟨_, rfl⟩
  have hrun : exec (.missedWake p) s = .next ((v.wr Reg.GATE_P_STAT_FAULT 1 p).event r) := by
    rw [← hr]
    refine congrArg Host.Outcome.next ?_
    unfold missedWake
    rw [hw, hv, hu]
    exact if_pos (by rw [Bool.and_eq_true, decide_eq_true_eq]; exact ⟨decide_eq_true hp, htime⟩)
  obtain ⟨hretrain, hup, hrd, hparts, -⟩ := u.retrain_effect p
  have hcharge := (((u.retrain p).bump Reg.GATE_P_CNT_MISSED p).chargesOnly_charge clsPORT p 1 1 1 64).1
  have hframe : s.onlyChanges v [.regs, .shp, .flt, .out, .host] := by
    rw [hv]
    have hfirst : s.onlyChanges u [.regs, .shp, .flt, .out, .host] := by
      rw [hu]
      simp [State.onlyChanges_iff]
    exact ((hfirst.andThen hparts).andThen ((u.retrain p).onlyChanges_bump (ps := [.regs]) Reg.GATE_P_CNT_MISSED p 0 1 (by decide))).andThen hcharge
  have hevent := ((v.wr Reg.GATE_P_STAT_FAULT 1 p).reportsOnly_event r).1
  have hlast : v.onlyChanges ((v.wr Reg.GATE_P_STAT_FAULT 1 p).event r) [.regs, .flt, .out, .host] :=
    State.onlyChanges_trans (v.onlyChanges_wr _ _ _ _ (by decide)) hevent
  have hsp : v.sp p = u.sp p := by
    have hkept : v.shp = u.shp := by
      rw [hv]
      exact (hcharge .shp (by decide)).trans (hparts .shp (by decide))
    rw [State.sp, State.sp, hkept]
  have hrdv : ∀ g : Fld, ((Reg.GATE_P_CNT_MISSED :: scoreFlds).all fun f => g.separate f) = true → ∀ a b, v.rd g a b = (u.retrain p).rd g a b :=
    fun g hg a b => by
      rw [List.all_cons, Bool.and_eq_true] at hg
      rw [hv, State.rd_charge_separate _ _ _ _ _ _ _ hg.2, State.rd_bump_separate _ _ _ _ _ hg.1]
  refine ⟨_, hrun, ?_, ?_, ?_, ?_, ?_, hframe.andThen hlast⟩
  · refine (congrArg (fun x : ShpState => (Tab.getD x.ports p {}).awaiting) (hlast .shp (by decide))).trans ((congrArg ShpPort.awaiting hsp).trans ?_)
    rw [hu, State.sp_upSp_self]
  · rw [State.rd_event_separate _ _ (by decide), State.rd_wr_separate _ _ _ _ _ (by decide), hrdv _ (by decide), hretrain]
  · rw [State.rd_event_separate _ _ (by decide), State.rd_wr_apart _ _ (by decide) (by decide) (by decide) hp (by decide) hp (by decide),
      hrdv _ (by decide), hup]
  · rw [State.rd_event_separate _ _ (by decide), State.rd_wr_self _ _ _ _ _ (by decide)]
    rfl
  · rw [State.rd_event_separate _ _ (by decide), State.rd_wr_separate _ _ _ _ _ (by decide), hv, State.rd_charge_separate _ _ _ _ _ _ _ (by decide),
      State.rd_bump_self _ _ _ _ _ (by decide), hrd _ (by decide), hu]
    rfl

/-- Settles O38: the messages of a sleep, its proposals, and its edges. -/
theorem linksSleepAndWake : Obligations.LinksSleepAndWake := by
  unfold Obligations.LinksSleepAndWake
  intro s p hp
  exact ⟨fun n k hhead hnone => ⟨exec_sleep_agreed hhead hnone, exec_sleep_refused hp hhead hnone⟩, fun n k o => exec_sleepAck_agreed,
    fun n k o => exec_sleepNak_ends, fun hk hl hlock hfault hnone => ⟨fun a e => exec_sleepRequest_proposes hp hk hl hlock hfault hnone,
      fun e w => exec_sleepPropose_proposes hp hk hl hlock hfault hnone⟩, fun o b => exec_sleepEnter_agreed hp b, fun o => exec_wakeStart_due hp,
    fun o => exec_wake_due hp, fun w => exec_missedWake_late hp⟩

end Sys2Proof.Machine
end

section
/-!
PROOF. The mailbox and the MCTP endpoint (R476–R479, R483): a request that is alone is served by its command and answered on its channel.
-/
namespace Sys2Proof.Machine

/-! A request alone in its queue. -/

/-- Requests replaced. -/
def State.withRequests (s : State) (l : List (Nat × MbxReq)) : State := s.upCar fun c => { c with requests := l }

theorem State.regStored_congr {s t : State} (h : t.regs = s.regs) (o : Nat) : t.regStored o = s.regStored o := by
  unfold State.regStored
  simp only [State.rd_congr h]

section
variable {s : State} {r : MbxReq} {cmd len : Nat} (hrole : s.roleRuns 0 = true) (hempty : s.car.requests = []) (hcmd : r.cmd = cmd)
  (hlen : r.len = len)
include hrole hempty hcmd hlen

/-- A request over MCTP is served at once. -/
theorem State.mailbox_mctp (act : Nat → MbxReq → State → State) : s.mailbox (some r) cmd len act = act 1 r (s.withRequests [(1, r)]) := by
  have harrive : s.mctpArrive r = s.withRequests [(1, r)] := by
    unfold State.mctpArrive
    rw [if_neg (by simp [hrole, hempty])]
    unfold State.withRequests
    rw [State.upCar, State.upCar, hempty]
    rfl
  unfold State.mailbox
  dsimp only
  rw [harrive, if_neg (show ¬(!(s.withRequests [(1, r)]).roleRuns 0) = true from by simp [show (s.withRequests [(1, r)]).roleRuns 0 = true from hrole])]
  refine (if_neg (by simp [hcmd])).trans ((if_neg (by simp [hcmd])).trans (if_neg (by simp [hlen])))

omit hempty in
/-- A request of the host mailbox. -/
theorem State.mailbox_host (act : Nat → MbxReq → State → State) : (s.withRequests [(0, r)]).mailbox none cmd len act = act 0 r (s.withRequests [(0, r)]) := by
  unfold State.mailbox
  dsimp only
  rw [if_neg (show ¬(!(s.withRequests [(0, r)]).roleRuns 0) = true from by simp [show (s.withRequests [(0, r)]).roleRuns 0 = true from hrole])]
  refine (if_neg (by simp [hcmd])).trans ((if_neg (by simp [hcmd])).trans (if_neg (by simp [hlen])))

end

/-! Answers. -/

/-- An answer over MCTP: the message leaves, and the request is gone. -/
theorem State.mbxAnswer_mctp (s : State) (r q : MbxReq) (st off : Nat) (body : Bytes) {t : State}
    (ht : t = (s.withRequests [(1, q)]).mbxAnswer 1 r st off body) : t.out = s.out ++ [.message chMCTP 0x7E (mbxResponse r st off body)] ∧
      t.car.requests = [] ∧ s.onlyChanges t [.out, .car] := by
  subst ht
  exact ⟨rfl, rfl, by simp [State.onlyChanges_iff, State.mbxAnswer, State.withRequests]⟩

/-- The response in the buffer. -/
theorem State.mbxStore_eq (s : State) (b : Bytes) : s.mbxStore b = s.wrEach Reg.CAR_MBX_RSP (fun w => fld b (4 * w) 4) 1024 := rfl

/-- An answer of the host mailbox: DONE is set, BUSY clears, and the vector is sent. -/
theorem State.mbxAnswer_host (s : State) (r q : MbxReq) (st off : Nat) (body : Bytes) {t : State}
    (ht : t = (s.withRequests [(0, q)]).mbxAnswer 0 r st off body) : t.rd Reg.CAR_MBX_CTL_DONE = 1 ∧ t.rd Reg.CAR_MBX_CTL_BUSY = 0 ∧
      t.out = s.out ++ [.msix (s.rd Reg.CAR_MBX_VEC_VECTOR)] ∧ t.car.requests = [] ∧ s.onlyChanges t [.regs, .out, .car] := by
  obtain ⟨u, hu⟩ : ∃ u, u = (s.withRequests []).mbxStore (mbxResponse r st off body) := ⟨_, rfl⟩
  have hform : t = ((u.wr Reg.CAR_MBX_CTL_DONE 1).wr Reg.CAR_MBX_CTL_BUSY 0).emit (.msix (s.rd Reg.CAR_MBX_VEC_VECTOR)) := by
    have hdrop : ((s.withRequests [(0, q)]).upCar fun c => { c with requests := c.requests.drop 1 }) = s.withRequests [] := rfl
    rw [ht, hu]
    unfold State.mbxAnswer
    rw [hdrop]
    dsimp only
    rw [if_pos rfl]
    rfl
  have hparts : (s.withRequests []).onlyChanges u [.regs] := by
    rw [hu, State.mbxStore_eq]
    exact State.onlyChanges_wrEach _ _ _ _
  have hfirst : s.onlyChanges u [.regs, .out, .car] :=
    State.onlyChanges_trans (show s.onlyChanges (s.withRequests []) [.regs, .out, .car] by simp [State.onlyChanges_iff, State.withRequests])
      (State.onlyChanges_mono hparts (by decide))
  have hout : u.out = s.out := hparts .out (by decide)
  have hcar : u.car.requests = [] := congrArg CarState.requests (hparts .car (by decide))
  rw [hform]
  refine ⟨?_, ?_, ?_, hcar, State.onlyChanges_trans hfirst (by simp [State.onlyChanges_iff])⟩
  · rw [State.rd_emit, State.rd_wr_separate _ _ _ _ _ (by decide), State.rd_wr_self _ _ _ _ _ (by decide)]
    rfl
  · rw [State.rd_emit, State.rd_wr_self _ _ _ _ _ (by decide)]
    rfl
  · rw [State.emit_out, State.wr_out, State.wr_out, hout]

/-! The commands over MCTP. -/

section
variable {s : State} {r : MbxReq} (hrole : s.roleRuns 0 = true) (hempty : s.car.requests = [])
include hrole hempty

/-- An answer over MCTP, for a command that only answers. -/
theorem State.answers_mctp {cmd len : Nat} {x : State → State} {act : Nat → MbxReq → State → State} (hx : x s = s.mailbox (some r) cmd len act)
    (hcmd : r.cmd = cmd) (hlen : r.len = len) {st off : Nat} {body : Bytes}
    (hact : act 1 r (s.withRequests [(1, r)]) = (s.withRequests [(1, r)]).mbxAnswer 1 r st off body) :
    (x s).out = s.out ++ [.message chMCTP 0x7E (mbxResponse r st off body)] ∧ (x s).car.requests = [] ∧ s.onlyChanges (x s) [.out, .car] :=
  s.mbxAnswer_mctp r r st off body (hx.trans ((State.mailbox_mctp hrole hempty hcmd hlen act).trans hact))

end

/-! The bodies of the answers. -/

/-- GET_INFO's body: the firmware that runs, the firmware staged, and the boots. -/
def State.infoBody (s : State) : Bytes :=
  let slot := s.rd Reg.CAR_STAT_SLOT
  let run := leBytes 4 (s.rd Reg.CAR_FW_VER_VERSION) ++ leBytes 2 (s.rd Reg.CAR_FW_SVN_RUN) ++ leBytes 1 slot ++ [0]
  let w := s.car.fw.staged.getD {}
  let staged := leBytes 4 w.version ++ leBytes 2 w.svn ++ leBytes 1 (if s.car.fw.staged.isSome then 1 - slot else 0) ++
    leBytes 1 (s.rd Reg.CAR_STAT_TRIAL)
  run ++ staged ++ leBytes 4 (s.rd Reg.CAR_BOOTS_COUNT) ++ leBytes 4 (s.regStored 0x20000) ++ leBytes 8 s.tnow

theorem State.take_infoBody (s : State) : s.infoBody.take 8 =
    leBytes 4 (s.rd Reg.CAR_FW_VER_VERSION) ++ leBytes 2 (s.rd Reg.CAR_FW_SVN_RUN) ++ leBytes 1 (s.rd Reg.CAR_STAT_SLOT) ++ [0] := by
  unfold State.infoBody
  simp [List.take_append, List.take_of_length_le]

/-- POWER_READ's body: the six power words and the power of each regulator. -/
def State.powerBody (s : State) : Bytes :=
  [0x23300, 0x23304, 0x23308, 0x2330C, 0x23310, 0x23314].flatMap (fun o => leBytes 4 (s.regStored o)) ++
    (List.range 17).flatMap fun n => leBytes 4 (s.regPower n)

theorem State.take_powerBody (s : State) : s.powerBody.take 4 = leBytes 4 (s.regStored 0x23300) := by
  unfold State.powerBody
  rw [List.flatMap_cons, List.append_assoc]
  exact List.take_left' (length_leBytes _ _)

theorem State.length_powerBody (s : State) : s.powerBody.length = 92 := by
  rfl

/-- FW_STATUS's body: the state of an update, its owner and its progress. -/
def State.fwBody (s : State) : Bytes :=
  let w := s.car.fw
  let slot := w.slot s.fwTarget
  let busy := s.rd Reg.CAR_STAT_UPD != updIDLE
  let done := (List.map (fun (p : Nat × Bytes) => p.2.length) slot.pieces).sum
  leBytes 1 (s.rd Reg.CAR_STAT_UPD) ++ leBytes 1 (if busy then w.ownerRole else 0) ++ leBytes 2 0 ++
    leBytes 4 (if busy then slot.total else 0) ++ leBytes 4 (if busy then done else 0) ++ leBytes 1 w.lastResult ++ leBytes 3 0

theorem State.take_fwBody (s : State) : s.fwBody.take 1 = leBytes 1 (s.rd Reg.CAR_STAT_UPD) := by
  unfold State.fwBody
  simp only [List.append_assoc]
  exact List.take_left' (length_leBytes _ _)

theorem State.length_fwBody (s : State) : s.fwBody.length = 16 := by simp [State.fwBody]

/-- The commands that only answer, by their bodies. -/
theorem getInfo_eq (m : Option MbxReq) (s : State) :
    getInfo m s = s.mailbox m mbGET_INFO 0 fun chan r s => s.mbxAnswer chan r stOK 0 s.infoBody := rfl
theorem powerRead_eq (m : Option MbxReq) (s : State) :
    powerRead m s = s.mailbox m mbPOWER_READ 0 fun chan r s => s.mbxAnswer chan r stOK 0 s.powerBody := rfl
theorem fwStatus_eq (m : Option MbxReq) (s : State) :
    fwStatus m s = s.mailbox m mbFW_STATUS 0 fun chan r s => s.mbxAnswer chan r stOK 0 s.fwBody := rfl

/-- The board controller's cap stored. -/
def State.capStored (s : State) (w ms : Nat) : State := ((s.wr Reg.CAR_PCAP_BMC_W w).wr Reg.CAR_PCAP_BMC_WINDOW ms).syncCap

/-- The cap set is the channel's own, and the effective cap the smaller. -/
theorem State.setCap_effect (s : State) {w ms : Nat} (hw : w ≤ 1500) (hms : ms ≤ 1000) : (s.setCap false w ms).rd Reg.CAR_PCAP_BMC_W = w ∧
    (s.setCap false w ms).rd Reg.CAR_PCAP_BMC_WINDOW = ms ∧ (s.setCap false w ms).rd Reg.CAR_PCAP_HOST_W = s.rd Reg.CAR_PCAP_HOST_W ∧
    (s.setCap false w ms).rd Reg.CAR_PCAP_EFF_W = min (s.rd Reg.CAR_PCAP_HOST_W) w ∧ s.onlyChanges (s.setCap false w ms) recordParts := by
  have hreports : (s.capStored w ms).reportsOnly (s.setCap false w ms) := by
    have hform : s.setCap false w ms =
        if (s.rd Reg.CAR_PCAP_HOST_W, s.rd Reg.CAR_PCAP_BMC_W) = ((s.capStored w ms).rd Reg.CAR_PCAP_HOST_W, (s.capStored w ms).rd Reg.CAR_PCAP_BMC_W)
        then s.capStored w ms else (s.capStored w ms).carEvent evPOWER_CAP sevINFO
          [(s.capStored w ms).rd Reg.CAR_PCAP_HOST_W, (s.capStored w ms).rd Reg.CAR_PCAP_BMC_W] := rfl
    rw [hform]
    split
    · exact State.reportsOnly_refl _
    · exact State.reportsOnly_carEvent _ _ _ _ _
  obtain ⟨hparts, hregs⟩ := hreports
  have hstored : s.onlyChanges (s.capStored w ms) recordParts := by simp [State.onlyChanges_iff, State.capStored, State.syncCap, recordParts]
  refine ⟨(hregs _ _ _ (by decide)).trans ?_, (hregs _ _ _ (by decide)).trans ?_, (hregs _ _ _ (by decide)).trans ?_,
    (hregs _ _ _ (by decide)).trans ?_, State.onlyChanges_trans hstored hparts⟩
  all_goals simp (disch := decide) only [State.capStored, State.syncCap, State.rd_wr_separate, State.rd_wr_self]
  · exact Nat.mod_eq_of_lt (show w < 2 ^ 11 by omega)
  · exact Nat.mod_eq_of_lt (show ms < 2 ^ 10 by omega)
  · rw [Nat.mod_eq_of_lt (show w < 2 ^ Reg.CAR_PCAP_BMC_W.width from show w < 2 ^ 11 by omega)]
    exact Nat.mod_eq_of_lt (show min _ w < 2 ^ 11 by omega)

/-! The commands. -/

section
variable {s : State} {r : MbxReq} (hrole : s.roleRuns 0 = true)
include hrole

/-- A command that only answers, from the host mailbox. -/
theorem State.answers_host {cmd : Nat} {x : State → State} {body : State → Bytes} (hx : ∀ s, x s = s.mailbox none cmd 0 fun chan r s =>
    s.mbxAnswer chan r stOK 0 (body s)) (hcmd : r.cmd = cmd) (hlen : r.len = 0) {t : State} (ht : t = x (s.withRequests [(0, r)])) :
    t.rd Reg.CAR_MBX_CTL_DONE = 1 ∧ t.rd Reg.CAR_MBX_CTL_BUSY = 0 ∧ t.out = s.out ++ [.msix (s.rd Reg.CAR_MBX_VEC_VECTOR)] ∧
      t.car.requests = [] ∧ s.onlyChanges t [.regs, .out, .car] :=
  s.mbxAnswer_host r r stOK 0 (body (s.withRequests [(0, r)])) (ht.trans ((hx _).trans (State.mailbox_host hrole hcmd hlen _)))

variable (hempty : s.car.requests = [])
include hempty

theorem exec_sensorRead_reads (hcmd : r.cmd = mbSENSOR_READ) (hlen : r.len = 4) (hn : 1 ≤ fld r.body 2 2) (hfit : fld r.body 0 2 + fld r.body 2 2 ≤ 144) :
    ∃ t, exec (.sensorRead (some r)) s = .next t ∧ t.out = s.out ++ [.message chMCTP 0x7E (mbxResponse r stOK 0
      ((List.range (fld r.body 2 2)).flatMap fun i => leBytes 4 (s.sensorWord (fld r.body 0 2 + i))))] ∧ t.car.requests = [] ∧
      s.onlyChanges t [.out, .car] := by
  have hword : ∀ n, (s.withRequests [(1, r)]).sensorWord n = s.sensorWord n := fun n => by
    unfold State.sensorWord
    rw [State.regStored_congr (s := s) (t := s.withRequests [(1, r)]) rfl, State.regStored_congr (s := s) (t := s.withRequests [(1, r)]) rfl]
  refine ⟨_, rfl, State.answers_mctp hrole hempty (x := sensorRead (some r)) rfl hcmd hlen ?_⟩
  dsimp only
  rw [if_neg (by omega), if_neg (by simp; omega)]
  simp only [hword]

theorem exec_sensorRead_range (hcmd : r.cmd = mbSENSOR_READ) (hlen : r.len = 4) (hn : 144 ≤ fld r.body 0 2) :
    ∃ t, exec (.sensorRead (some r)) s = .next t ∧ t.out = s.out ++ [.message chMCTP 0x7E (mbxResponse r stMALFORMED 8 [])] ∧
      t.car.requests = [] ∧ s.onlyChanges t [.out, .car] :=
  ⟨_, rfl, State.answers_mctp hrole hempty (x := sensorRead (some r)) rfl hcmd hlen (if_pos hn)⟩

theorem exec_powerCapSet_range (hcmd : r.cmd = mbPOWER_CAP_SET) (hlen : r.len = 4) (hw : fld r.body 0 2 < 800 ∨ 1500 < fld r.body 0 2) :
    ∃ t, exec (.powerCapSet (some r)) s = .next t ∧ t.out = s.out ++ [.message chMCTP 0x7E (mbxResponse r stRANGE 0 [])] ∧
      t.car.requests = [] ∧ s.onlyChanges t [.out, .car] := by
  refine ⟨_, rfl, State.answers_mctp hrole hempty (x := powerCapSet (some r)) rfl hcmd hlen (if_pos ?_)⟩
  rcases hw with h | h <;> simp [h]

theorem exec_getInfo_answers (hcmd : r.cmd = mbGET_INFO) (hlen : r.len = 0) : ∃ t body, exec (.getInfo (some r)) s = .next t ∧
    body.take 8 = leBytes 4 (s.rd Reg.CAR_FW_VER_VERSION) ++ leBytes 2 (s.rd Reg.CAR_FW_SVN_RUN) ++ leBytes 1 (s.rd Reg.CAR_STAT_SLOT) ++ [0] ∧
    t.out = s.out ++ [.message chMCTP 0x7E (mbxResponse r stOK 0 body)] ∧ t.car.requests = [] ∧ s.onlyChanges t [.out, .car] :=
  ⟨_, (s.withRequests [(1, r)]).infoBody, rfl, State.take_infoBody _,
    State.answers_mctp hrole hempty (x := getInfo (some r)) (getInfo_eq _ _) hcmd hlen rfl⟩

theorem exec_powerRead_answers (hcmd : r.cmd = mbPOWER_READ) (hlen : r.len = 0) : ∃ t body, exec (.powerRead (some r)) s = .next t ∧
    body.take 4 = leBytes 4 (s.regStored 0x23300) ∧ body.length = 92 ∧
    t.out = s.out ++ [.message chMCTP 0x7E (mbxResponse r stOK 0 body)] ∧ t.car.requests = [] ∧ s.onlyChanges t [.out, .car] := by
  refine ⟨_, (s.withRequests [(1, r)]).powerBody, rfl, ?_, State.length_powerBody _,
    State.answers_mctp hrole hempty (x := powerRead (some r)) (powerRead_eq _ _) hcmd hlen rfl⟩
  rw [State.take_powerBody, State.regStored_congr (s := s) (t := s.withRequests [(1, r)]) rfl]

theorem exec_fwStatus_answers (hcmd : r.cmd = mbFW_STATUS) (hlen : r.len = 0) : ∃ t body, exec (.fwStatus (some r)) s = .next t ∧
    body.take 1 = leBytes 1 (s.rd Reg.CAR_STAT_UPD) ∧ body.length = 16 ∧
    t.out = s.out ++ [.message chMCTP 0x7E (mbxResponse r stOK 0 body)] ∧ t.car.requests = [] ∧ s.onlyChanges t [.out, .car] :=
  ⟨_, (s.withRequests [(1, r)]).fwBody, rfl, State.take_fwBody _, State.length_fwBody _,
    State.answers_mctp hrole hempty (x := fwStatus (some r)) (fwStatus_eq _ _) hcmd hlen rfl⟩

/-- The log with no record, asked for from its start. -/
theorem exec_logRead_empty (hcmd : r.cmd = mbLOG_READ) (hlen : r.len = 10) (hbody : r.body = [] ++ leBytes 8 0 ++ leBytes 2 63) (hlog : s.flt.log = []) :
    ∃ t, exec (.logRead (some r)) s = .next t ∧
      t.out = s.out ++ [.message chMCTP 0x7E (mbxResponse r stOK 0 (leBytes 4 (s.rd Reg.CAR_BOOTS_COUNT) ++ leBytes 4 0 ++ leBytes 8 0))] ∧
      t.car.requests = [] ∧ s.onlyChanges t [.out, .car] := by
  have hsource : fld r.body 0 1 = 0 := by rw [hbody]; rfl
  have hstart : fld r.body 4 4 = 0 := by rw [hbody]; rfl
  have hcount : fld r.body 8 2 = 63 := by rw [hbody]; rfl
  have hzero : zeroAt r.body 1 3 = true := by rw [hbody]; rfl
  have hnone : (s.withRequests [(1, r)]).logFrom false 0 = [] := by
    show ((s.flt.log.filter _).map _ : List (Nat × Nat × Event)) = []
    rw [hlog]
    rfl
  refine ⟨_, rfl, State.answers_mctp hrole hempty (x := logRead (some r)) rfl hcmd hlen ?_⟩
  dsimp only
  rw [hsource, hstart, hcount, hzero, if_neg (by decide), if_neg (by decide), if_neg (by decide), show ((0 : Nat) == 1) = false from rfl, hnone]
  rfl

theorem exec_powerCapSet_sets (hcmd : r.cmd = mbPOWER_CAP_SET) (hlen : r.len = 4) (hlo : 800 ≤ fld r.body 0 2) (hhi : fld r.body 0 2 ≤ 1500)
    (hms : 1 ≤ fld r.body 2 2) (hms' : fld r.body 2 2 ≤ 1000) :
    ∃ t, exec (.powerCapSet (some r)) s = .next t ∧ t.rd Reg.CAR_PCAP_BMC_W = fld r.body 0 2 ∧
      t.rd Reg.CAR_PCAP_BMC_WINDOW = fld r.body 2 2 ∧ t.rd Reg.CAR_PCAP_HOST_W = s.rd Reg.CAR_PCAP_HOST_W ∧
      t.rd Reg.CAR_PCAP_EFF_W = min (s.rd Reg.CAR_PCAP_HOST_W) (fld r.body 0 2) ∧
      t.car.requests = [] ∧ s.onlyChanges t [.regs, .car, .flt, .out, .host] := by
  obtain ⟨u, hu⟩ : ∃ u, u = (s.withRequests [(1, r)]).setCap false (fld r.body 0 2) (fld r.body 2 2) := ⟨_, rfl⟩
  have hrun : exec (.powerCapSet (some r)) s = .next (u.mbxAnswer 1 r stOK 0 []) := by
    refine congrArg Host.Outcome.next ((State.mailbox_mctp hrole hempty hcmd hlen _).trans ?_)
    dsimp only
    rw [if_neg (by simp; omega), hu]
    rfl
  obtain ⟨hbmc, hwin, hhost, heff, hparts⟩ := (s.withRequests [(1, r)]).setCap_effect hhi hms'
  rw [← hu] at hbmc hwin hhost heff hparts
  have hreq : u.car.requests = [(1, r)] := congrArg CarState.requests (hparts .car (by decide))
  have hfirst : s.onlyChanges (s.withRequests [(1, r)]) [.regs, .car, .flt, .out, .host] := by simp [State.onlyChanges_iff, State.withRequests]
  refine ⟨_, hrun, hbmc, hwin, hhost, heff, ?_, ?_⟩
  · show u.car.requests.drop 1 = []
    rw [hreq]
    rfl
  · refine State.onlyChanges_trans (State.onlyChanges_trans hfirst (State.onlyChanges_mono hparts (by decide))) ?_
    simp [State.onlyChanges_iff, State.mbxAnswer]

end

/-! The endpoint's own messages. -/

/-- A reply whose content a standard fixes. -/
theorem State.stdReply_effect (s : State) (code : Nat) (req : Bytes) : (s.stdReply 0 code req).out =
      s.out ++ [.message chMCTP 0 (leBytes 1 code ++ Config.standardReply (256 * 0 + code) req s.sec.messages)] ∧
    s.onlyChanges (s.stdReply 0 code req) [.sec, .out] :=
  ⟨rfl, by simp [State.onlyChanges_iff, State.stdReply, State.stdNumber, State.mctpReply]⟩

section
variable {s : State} (hrole : s.roleRuns 0 = true)
include hrole

theorem State.managed_of_role : s.managed = true := by
  unfold State.managed
  rw [hrole]
  rfl

theorem exec_setEndpointId_taken {eid : Nat} (hpos : 0 < eid) (hlt : eid < 255) :
    ∃ t n, exec (.setEndpointId eid) s = .next t ∧ t.car = { s.car with eid := eid } ∧
      t.out = s.out ++ [.message chMCTP 0 (leBytes 1 mcSET_EID ++ Config.standardReply mcSET_EID (leBytes 1 eid) n)] ∧
      s.onlyChanges t [.car, .sec, .out] := by
  have hmod : eid % 256 = eid := Nat.mod_eq_of_lt (by omega)
  have hrun : exec (.setEndpointId eid) s = .next ((s.upCar fun c => { c with eid := eid }).stdReply 0 mcSET_EID (leBytes 1 eid)) := by
    refine congrArg Host.Outcome.next ((if_neg (by simp [State.managed_of_role hrole])).trans ?_)
    dsimp only
    rw [hmod, if_neg (by simp; omega)]
  exact ⟨_, s.sec.messages, hrun, rfl, rfl, by simp [State.onlyChanges_iff, State.stdReply, State.stdNumber, State.mctpReply]⟩

theorem exec_setEndpointId_refused {eid : Nat} (h : eid = 0 ∨ eid = 255) :
    ∃ t, exec (.setEndpointId eid) s = .next t ∧ t.car = s.car ∧ s.onlyChanges t [.sec, .out] := by
  have hrun : exec (.setEndpointId eid) s = .next (s.stdReply 0 mcSET_EID (leBytes 1 eid)) := by
    refine congrArg Host.Outcome.next ((if_neg (by simp [State.managed_of_role hrole])).trans ?_)
    dsimp only
    rw [if_pos (by rcases h with rfl | rfl <;> rfl)]
  exact ⟨_, hrun, rfl, by simp [State.onlyChanges_iff, State.stdReply, State.stdNumber, State.mctpReply]⟩

theorem exec_getSensorReading_reads {n v : Nat} (h : (1 ≤ n ∧ n ≤ 96 ∧ v = s.rd Reg.CAR_TEMP_VALUE (n - 1)) ∨
      (101 ≤ n ∧ n ≤ 148 ∧ v = s.rd Reg.CAR_VMON_MV (n - 101)) ∨ (n = 200 ∧ v = s.rd Reg.CAR_PWR_P1MS) ∨ (n = 201 ∧ v = s.rd Reg.CAR_PCAP_EFF_W)) :
    ∃ t, exec (.getSensorReading n) s = .next t ∧ t.out = s.out ++ [.message chMCTP 1 (leBytes 1 0x11 ++ [0] ++ leBytes 4 v)] ∧
      s.onlyChanges t [.out] := by
  have hv : s.plSensor n = some v := by
    unfold State.plSensor
    rcases h with ⟨h1, h2, rfl⟩ | ⟨h1, h2, rfl⟩ | ⟨rfl, rfl⟩ | ⟨rfl, rfl⟩
    · exact if_pos (by simp [h1, h2])
    · exact (if_neg (by simp; omega)).trans (if_pos (by simp [h1, h2]))
    · rfl
    · rfl
  have hrun : exec (.getSensorReading n) s = .next (s.mctpReply 1 (leBytes 1 0x11 ++ [0] ++ leBytes 4 v)) := by
    refine congrArg Host.Outcome.next ((if_neg (by simp [hrole])).trans ?_)
    rw [hv]
  exact ⟨_, hrun, rfl, by simp [State.onlyChanges_iff, State.mctpReply]⟩

end

/-- Settles O48: each command by the answer of a request alone, and each endpoint message by its reply. -/
theorem managementChannelsAnswer : Obligations.ManagementChannelsAnswer := by
  unfold Obligations.ManagementChannelsAnswer
  refine ⟨fun s r hrole hempty => ⟨exec_getInfo_answers hrole hempty, exec_sensorRead_reads hrole hempty, exec_sensorRead_range hrole hempty,
    exec_powerRead_answers hrole hempty, exec_powerCapSet_sets hrole hempty, exec_powerCapSet_range hrole hempty, exec_logRead_empty hrole hempty,
    exec_fwStatus_answers hrole hempty, ?_⟩, fun s hrole => ?_⟩
  · intro i cmd hi hcmd hlen
    have hcases : i = Instr.getInfo none ∧ cmd = mbGET_INFO ∨ i = Instr.powerRead none ∧ cmd = mbPOWER_READ ∨
        i = Instr.fwStatus none ∧ cmd = mbFW_STATUS := by simpa using hi
    rcases hcases with ⟨rfl, rfl⟩ | ⟨rfl, rfl⟩ | ⟨rfl, rfl⟩
    · exact ⟨_, rfl, State.answers_host hrole (getInfo_eq none) hcmd hlen rfl⟩
    · exact ⟨_, rfl, State.answers_host hrole (powerRead_eq none) hcmd hlen rfl⟩
    · exact ⟨_, rfl, State.answers_host hrole (fwStatus_eq none) hcmd hlen rfl⟩
  · have hmanaged := State.managed_of_role hrole
    refine ⟨fun eid => exec_setEndpointId_taken hrole, fun eid => exec_setEndpointId_refused hrole, ?_, fun k => ?_, ?_, fun k => ?_, fun h => ?_,
      fun n v => exec_getSensorReading_reads hrole⟩
    · exact ⟨_, congrArg Host.Outcome.next (if_neg (by simp [hmanaged])), rfl, by simp [State.onlyChanges_iff, State.mctpReply]⟩
    · exact ⟨_, s.sec.messages, congrArg Host.Outcome.next (if_pos hmanaged), s.stdReply_effect mcGET_VERSION _⟩
    · exact ⟨_, congrArg Host.Outcome.next (if_neg (by simp [hmanaged])), rfl, by simp [State.onlyChanges_iff, State.mctpReply]⟩
    · exact ⟨_, s.sec.messages, congrArg Host.Outcome.next (if_pos hmanaged), s.stdReply_effect mcGET_VDM _⟩
    · exact ⟨_, congrArg Host.Outcome.next (if_pos hrole), rfl, by simp [State.onlyChanges_iff, State.mctpReply]⟩

end Sys2Proof.Machine
end

section
/-!
PROOF. The crossbar and the egress queues (R138, R145, R339–R347, R364, R374): one packet crosses, enters its queue, and leaves on its lane or is
discarded there.
-/
namespace Sys2Proof.Machine

/-! Depths. -/

theorem State.rd_raise_apart (s : State) {f g : Fld} (v : Nat) {i j a b : Nat} (h : g.apart f = true) (hf : f.lo < 32) (hg : g.lo < 32)
    (hi : i < f.n1) (hj : j < f.n2) (ha : a < g.n1) (hb : b < g.n2) : (s.raise f v i j).rd g a b = s.rd g a b := by
  unfold State.raise
  dsimp only
  split
  · exact s.rd_wr_apart _ h hf hg hi hj ha hb
  · rfl

/-- The fields that show a queue's depth. -/
def depthFlds : List Fld := [Reg.XBR_P_QD_EVEN, Reg.XBR_P_QD_ODD, Reg.XBR_P_QMAX_EVEN, Reg.XBR_P_QMAX_ODD]

theorem State.onlyChanges_noteDepth (s : State) (p q : Nat) : s.onlyChanges (s.noteDepth p q) [.regs] :=
  State.onlyChanges_trans (s.onlyChanges_wr _ _ _ _ (by decide)) (State.onlyChanges_raise _ _ _ _ _)

theorem State.rd_noteDepth (s : State) {p q : Nat} {g : Fld} {a b : Nat} (hp : p < 32) (hq : q < 8) (h : (depthFlds.all fun f => g.apart f) = true)
    (hg : g.lo < 32) (ha : a < g.n1) (hb : b < g.n2) : (s.noteDepth p q).rd g a b = s.rd g a b := by
  obtain ⟨h1, h2, h3, h4⟩ : g.apart Reg.XBR_P_QD_EVEN = true ∧ g.apart Reg.XBR_P_QD_ODD = true ∧ g.apart Reg.XBR_P_QMAX_EVEN = true ∧
    g.apart Reg.XBR_P_QMAX_ODD = true := by simpa [depthFlds] using h
  have hj : q / 2 < 4 := by omega
  unfold State.noteDepth qdFld qmaxFld
  dsimp only
  split
  · exact (State.rd_raise_apart _ _ h3 (by decide) hg hp hj ha hb).trans (s.rd_wr_apart _ h1 (by decide) hg hp hj ha hb)
  · exact (State.rd_raise_apart _ _ h4 (by decide) hg hp hj ha hb).trans (s.rd_wr_apart _ h2 (by decide) hg hp hj ha hb)

/-! Queues. -/

theorem State.queue_congr {s t : State} (h : t.xbr = s.xbr) (p q : Nat) : t.queue p q = s.queue p q := by rw [State.queue, State.queue, h]

theorem State.queue_noteDepth (s : State) (p q a b : Nat) : (s.noteDepth a b).queue p q = s.queue p q :=
  State.queue_congr (s.onlyChanges_noteDepth a b .xbr (by decide)) p q

/-- A packet that arrives: taken from the port's die into its queue. -/
def State.enqueued (s : State) (p q : Nat) (h : QPkt) (rest : List QPkt) : State :=
  ((s.upPort p fun x => { x with arriving := rest }).upXbr fun x =>
    { x with egress := Tab.put x.egress (p * 8 + q) (Tab.getD x.egress (p * 8 + q) [] ++ [h]),
             reserved := Tab.put x.reserved (p * 8 + q) (Tab.getD x.reserved (p * 8 + q) 0 - h.pkt.cells) }).noteDepth p q

theorem State.enqueued_effect (s : State) (p q : Nat) (h : QPkt) (rest : List QPkt) : ((s.enqueued p q h rest).port p).arriving = rest ∧
    (s.enqueued p q h rest).queue p q = s.queue p q ++ [h] ∧ s.onlyChanges (s.enqueued p q h rest) [.regs, .xbr, .fab] := by
  unfold State.enqueued
  generalize hu : (s.upPort p fun x => { x with arriving := rest }).upXbr _ = u
  have hparts := u.onlyChanges_noteDepth p q
  have hport : u.port p = { (s.port p) with arriving := rest } := by
    rw [← hu]
    exact State.port_upPort_self s p fun x => { x with arriving := rest }
  have hqueue : u.queue p q = s.queue p q ++ [h] := by
    rw [← hu]
    exact congrArg (fun o : Option (List QPkt) => o.getD []) (Tab.find?_put_self _ _ _)
  have hfirst : s.onlyChanges u [.regs, .xbr, .fab] := by
    rw [← hu]
    simp [State.onlyChanges_iff]
  refine ⟨?_, by rw [State.queue_noteDepth, hqueue], hfirst.andThen hparts⟩
  have hkept : (u.noteDepth p q).port p = u.port p := congrArg (fun x : FabState => Tab.getD x.ports p {}) (hparts .fab (by decide))
  rw [hkept, hport]

theorem exec_egressEnqueue_plain {s : State} {p : Nat} {h : QPkt} {rest : List QPkt} (harr : (s.port p).arriving = h :: rest) (hect : h.pkt.ect = false) :
    exec (.egressEnqueue p) s = .next (s.enqueued p h.pkt.queue h rest) := by
  have hmark : s.ceMark p (s.qCells p h.pkt.queue) h.pkt = (false, s) := if_pos (by simp [hect])
  refine congrArg Host.Outcome.next ?_
  unfold egressEnqueue
  rw [harr]
  dsimp only
  rw [hmark]
  rfl

theorem exec_egressEnqueue_marked {s : State} {p : Nat} {h : QPkt} {rest : List QPkt} (harr : (s.port p).arriving = h :: rest) (hect : h.pkt.ect = true)
    (hce : h.pkt.ce = false) (hlo : s.rd Reg.FAB_CE_THR_MIN p ≤ s.qCells p h.pkt.queue) (hhi : s.rd Reg.FAB_CE_THR_MAX p ≤ s.qCells p h.pkt.queue) :
    exec (.egressEnqueue p) s =
      .next ((s.bump Reg.FAB_CNT_CE_MARK p).enqueued p h.pkt.queue { h with pkt := h.pkt.setCe true } rest) := by
  have hmark : s.ceMark p (s.qCells p h.pkt.queue) h.pkt = (true, s) :=
    (if_neg (by simp [hect, hce]; omega)).trans (if_pos (.inr hhi))
  refine congrArg Host.Outcome.next ?_
  unfold egressEnqueue
  rw [harr]
  dsimp only
  rw [hmark]
  rfl

/-! A packet leaves. -/

/-- The state with a queue's head charged and taken. -/
def State.headTaken (s : State) (p q : Nat) (h : QPkt) : State := (s.shaperCharge p q h.pkt).popQueue p q

theorem State.headTaken_effect (s : State) (p q : Nat) (h : QPkt) : (s.headTaken p q h).queue p q = (s.queue p q).drop 1 ∧
    (s.headTaken p q h).port p = s.port p ∧ (s.headTaken p q h).out = s.out ∧ s.onlyChanges (s.headTaken p q h) [.regs, .xbr, .shp] := by
  have hcharge : s.onlyChanges (s.shaperCharge p q h.pkt) [.shp] := by
    unfold State.shaperCharge
    dsimp only
    split
    · simp [State.onlyChanges_iff]
    · exact s.onlyChanges_refl _
  have hq : (s.shaperCharge p q h.pkt).queue p q = s.queue p q := State.queue_congr (hcharge .xbr (by decide)) p q
  unfold State.headTaken State.popQueue
  generalize s.shaperCharge p q h.pkt = u at hcharge hq
  generalize hv : ((u.upXbr fun x => { x with egress := Tab.put x.egress (p * 8 + q) ((u.queue p q).drop 1) }).upSp p fun x =>
    { x with fitHeld := x.fitHeld.filter (· != q) }) = v
  have hvparts : u.onlyChanges v [.xbr, .shp] := by
    rw [← hv]
    simp [State.onlyChanges_iff]
  have hvq : v.queue p q = (u.queue p q).drop 1 := by
    rw [← hv]
    exact congrArg (fun o : Option (List QPkt) => o.getD []) (Tab.find?_put_self _ _ _)
  have hparts : s.onlyChanges (v.noteDepth p q) [.regs, .xbr, .shp] :=
    ((State.onlyChanges_mono hcharge (by decide)).andThen hvparts).andThen (v.onlyChanges_noteDepth p q)
  refine ⟨by rw [State.queue_noteDepth, hvq, hq], ?_, hparts .out (by decide), hparts⟩
  exact congrArg (fun x : FabState => Tab.getD x.ports p {}) (hparts .fab (by decide))

theorem State.rd_headTaken (s : State) {p q : Nat} (h : QPkt) {g : Fld} {a b : Nat} (hp : p < 32) (hq : q < 8)
    (hg : (depthFlds.all fun f => g.apart f) = true) (hlo : g.lo < 32) (ha : a < g.n1) (hb : b < g.n2) : (s.headTaken p q h).rd g a b = s.rd g a b := by
  refine (State.rd_noteDepth _ hp hq hg hlo ha hb).trans (State.rd_congr ?_ _ _ _)
  unfold State.shaperCharge
  dsimp only
  split
  · rfl
  · rfl

/-- A packet put on its lane. -/
def State.laned (s : State) (p q : Nat) (k : Packet) (f : Nat) : State :=
  let u := s.transmit p k
  u.upSp p fun x => { x with lane := some { queue := q, start := s.hclk, frame := f } }

/-- Of tests of which one alone succeeds, that one is the first. -/
theorem head?_filterMap_of_one {α β : Type} {f : α → Option β} {l : List α} {a : α} {x : β} (ha : a ∈ l) (hx : f a = some x)
    (hnone : ∀ b ∈ l, b ≠ a → f b = none) : (l.filterMap f).head? = some x := by
  induction l with
  | nil => cases ha
  | cons b l ih =>
    by_cases hb : b = a
    · rw [hb, List.filterMap_cons_some hx]
      rfl
    · rw [List.filterMap_cons_none (hnone b List.mem_cons_self hb)]
      exact ih ((List.mem_cons.mp ha).resolve_left (Ne.symm hb)) fun c hc => hnone c (List.mem_cons_of_mem _ hc)

section
variable {s : State} {p : Nat} (hgate : (s.portCfg p).gateMode = 0)
include hgate

theorem State.dropNever_of_ungated (q fuel : Nat) : State.dropNever p q fuel s = s := by
  cases fuel with
  | zero => rfl
  | succ n =>
    unfold State.dropNever
    cases s.queue p q with
    | nil => rfl
    | cons h l => exact if_neg (by simp [State.gateNever, hgate])

theorem State.noteHeld_of_ungated : s.noteHeld p = s := by
  unfold State.noteHeld
  refine foldl_of_fixed (fun q => ?_) _
  cases s.queue p q with
  | nil => rfl
  | cons h l => exact if_neg (by simp [State.gateOpen, hgate])

variable {q : Nat} {h : QPkt} {rest : List QPkt} (hq : q < 8) (hqueue : s.queue p q = h :: rest) (hother : ∀ k, k < 8 → k ≠ q → s.queue p k = [])
  (hshaper : s.shaperOpen p q h.pkt = true) (hsleep : (s.sp p).sleep = none)
include hq hqueue hother hshaper hsleep

/-- The head of the one queue that has a packet is selected. -/
theorem State.selected_only : s.selected p = some (q, h) := by
  have hopen : s.gateOpen p q h.pkt = true := by simp [State.gateOpen, hgate]
  have hbefore : s.beforeSleep p (s.frameTime p h.pkt) = true := by
    unfold State.beforeSleep
    rw [hsleep]
  have hall : ∀ k, k < 8 → k ∈ [1, 0, 3, 2, 5, 4, 7, 6] := by decide
  have hlt : ∀ k ∈ [1, 0, 3, 2, 5, 4, 7, 6], k < 8 := by decide
  refine head?_filterMap_of_one (hall q hq) ?_ fun k hk hne => ?_
  · rw [hqueue]
    exact if_pos (by simp [hshaper, hopen, hbefore])
  · rw [hother k (hlt k hk) hne]

theorem exec_portSelect_sends (hsend : s.maySend p = true) (dirty : Bool) : exec (.portSelect p dirty) s =
    .next ((if dirty then (s.headTaken p q h).bump Reg.FLT_CNT_UE_PKT else s.headTaken p q h).laned p q
      (if dirty then { h.pkt with trailer := h.pkt.trailer ^^^ 0xFFFFFFFF } else h.pkt) ((s.headTaken p q h).frameTime p h.pkt)) := by
  refine congrArg Host.Outcome.next ((if_neg (by simp [hsend])).trans ?_)
  have hdrop : (List.range 8).foldl (fun s q => State.dropNever p q (s.queue p q).length s) s = s :=
    foldl_of_fixed (fun k => State.dropNever_of_ungated hgate k _) _
  rw [hdrop]
  dsimp only
  rw [State.noteHeld_of_ungated hgate, State.selected_only hgate hq hqueue hother hshaper hsleep]
  cases dirty <;> rfl

end

theorem State.rd_enqueued (s : State) {p q : Nat} (h : QPkt) (rest : List QPkt) {g : Fld} {a b : Nat} (hp : p < 32) (hq : q < 8)
    (hg : (depthFlds.all fun f => g.apart f) = true) (hlo : g.lo < 32) (ha : a < g.n1) (hb : b < g.n2) :
    (s.enqueued p q h rest).rd g a b = s.rd g a b := State.rd_noteDepth _ hp hq hg hlo ha hb

theorem State.laned_effect (s : State) (p q : Nat) (k : Packet) (f : Nat) : (s.laned p q k f).out = s.out ++ [.frame p (s.port p).nextTx k] ∧
    (s.laned p q k f).xbr = s.xbr ∧ ((s.laned p q k f).port p).nextTx = (s.port p).nextTx + 1 ∧
    s.onlyChanges (s.laned p q k f) [.regs, .shp, .meters, .out, .fab] := by
  obtain ⟨hout, ⟨x, y, hport⟩, -, hparts⟩ := s.transmit_effect p k
  unfold State.laned
  generalize s.transmit p k = u at hout hport hparts
  dsimp only
  generalize hv : (u.upSp p fun x => { x with lane := some { queue := q, start := s.hclk, frame := f } }) = v
  have hlane : u.onlyChanges v [.shp] := by
    rw [← hv]
    simp [State.onlyChanges_iff]
  have hall : s.onlyChanges v [.regs, .shp, .meters, .out, .fab] := (State.onlyChanges_mono hparts (by decide)).andThen hlane
  have hkept : v.port p = u.port p := congrArg (fun x : FabState => Tab.getD x.ports p {}) (hlane .fab (by decide))
  exact ⟨(hlane .out (by decide)).trans hout, hall .xbr (by decide), by rw [hkept, hport], hall⟩

theorem State.rd_laned (s : State) {p : Nat} (q : Nat) (k : Packet) (f : Nat) {g : Fld} {a b : Nat} (hp : p < 32)
    (h : ((countFlds ++ switchFlds).all fun f => g.apart f) = true) (hg : g.lo < 32) (ha : a < g.n1) (hb : b < g.n2) :
    (s.laned p q k f).rd g a b = s.rd g a b := s.rd_transmit k hp h hg ha hb

/-! A packet held too long. -/

theorem State.onlyChanges_foldl_noteDepth (ks : List Nat) (s : State) :
    s.onlyChanges (ks.foldl (fun s k => s.noteDepth (k / 8) (k % 8)) s) [.regs] := by
  induction ks generalizing s with
  | nil => exact s.onlyChanges_refl _
  | cons k ks ih => exact State.onlyChanges_trans (s.onlyChanges_noteDepth _ _) (ih _)

theorem State.rd_foldl_noteDepth {ks : List Nat} (hks : ∀ k ∈ ks, k < 256) {g : Fld} {a b : Nat} (s : State)
    (h : (depthFlds.all fun f => g.apart f) = true) (hg : g.lo < 32) (ha : a < g.n1) (hb : b < g.n2) :
    (ks.foldl (fun s k => s.noteDepth (k / 8) (k % 8)) s).rd g a b = s.rd g a b := by
  induction ks generalizing s with
  | nil => rfl
  | cons k ks ih =>
    have hk : k / 8 < 32 := by have := hks k List.mem_cons_self; omega
    exact (ih (fun x hx => hks x (List.mem_cons_of_mem _ hx)) _).trans (s.rd_noteDepth hk (Nat.mod_lt _ (by decide)) h hg ha hb)

/-- The state with the one packet of one egress queue taken away. -/
def State.withQueue (s : State) (k : Nat) : State := s.upXbr fun x => { x with voqs := [], egress := [(k, [])] }

theorem exec_packetHoldExpire_one {s : State} {p q : Nat} {h : QPkt} (hq : q < 8) (hvoqs : s.xbr.voqs = []) (hegress : s.xbr.egress = [(p * 8 + q, [h])])
    (hheld : h.held = 0) (hold : usToHclk (s.rd Reg.FAB_HOLD_MAX_US) < s.hclk - h.rx) : exec .packetHoldExpire s =
    .next ((List.range 256).foldl (fun s k => s.noteDepth (k / 8) (k % 8)) ((s.withQueue (p * 8 + q)).bump Reg.FAB_CNT_HOLD p)) := by
  have htoo : s.tooOld { h with sent := 0 } = true := by simp [State.tooOld, hold]
  have hport : (p * 8 + q) / 8 = p := by omega
  refine congrArg Host.Outcome.next ?_
  have hfree : ∀ u : State, u.ingressFree h = u := fun u => if_pos hheld
  have hdrop : ∀ u : State, u.drop causeHOLD h.conn p = u.bump Reg.FAB_CNT_HOLD p := fun u => rfl
  unfold packetHoldExpire
  rw [hvoqs, hegress]
  simp [htoo, hport, hfree, hdrop, State.withQueue, State.upXbr, Tab.mapVals, hvoqs, hegress]

/-! A match of the crossbar. -/

theorem pickBest_singleton (group other : Pair → Nat) (ptr : Nat → Nat → Nat) {cap : Nat → Nat} {r : Pair} (hlevel : r.level ≤ 8)
    (hcap : 1 ≤ cap (group r)) : pickBest group other ptr cap [r] = [r] := by
  obtain ⟨n, hn⟩ : ∃ n, cap (group r) = n + 1 := ⟨cap (group r) - 1, by omega⟩
  simp [pickBest, hlevel, hn, List.eraseDups_cons, sortBy, insertBy]

theorem pickBest_nil (group other : Pair → Nat) (ptr : Nat → Nat → Nat) (cap : Nat → Nat) : pickBest group other ptr cap [] = [] := rfl

theorem matchStep_of_no_request {s : State} {elig chosen : List Pair} (h : s.requests elig chosen = []) (first : Bool) :
    State.matchStep elig first (s, chosen) = (s, chosen) := by
  unfold State.matchStep
  dsimp only
  rw [h]
  rfl

/-- The rotating pointers after a pair is accepted. -/
def State.pointersPast (s : State) (r : Pair) : State :=
  s.upXbr fun x => { x with gptr := Tab.put x.gptr (r.o * 8 + r.level) ((r.i + 1) % 42), aptr := Tab.put x.aptr (r.i * 8 + r.level) ((r.o + 1) % 42) }

theorem State.requests_one {s : State} {r : Pair} (hin : s.roomFor [] r.i 0 = true) (hout : s.roomFor [] r.o 1 = true) : s.requests [r] [] = [r] := by
  simp [State.requests, hin, hout]

theorem State.requests_chosen (s : State) (r : Pair) : s.requests [r] [r] = [] := by
  simp [State.requests]

theorem matchStep_one {s : State} {r : Pair} (hlevel : r.level ≤ 8) (hin : s.roomFor [] r.i 0 = true) (hout : s.roomFor [] r.o 1 = true)
    (hi : 1 ≤ partnerCap r.i) (ho : 1 ≤ partnerCap r.o) : State.matchStep [r] true (s, []) = (s.pointersPast r, [r]) := by
  unfold State.matchStep
  dsimp only
  rw [State.requests_one hin hout, pickBest_singleton _ _ _ hlevel (by simpa [leftCap] using ho),
    pickBest_singleton _ _ _ hlevel (by simpa [leftCap] using hi)]
  exact if_pos (by rw [hin, hout]; rfl)

/-- The three iterations of a match with one eligible pair. -/
theorem match_one {s : State} {r : Pair} (hlevel : r.level ≤ 8) (hin : s.roomFor [] r.i 0 = true) (hout : s.roomFor [] r.o 1 = true)
    (hi : 1 ≤ partnerCap r.i) (ho : 1 ≤ partnerCap r.o) :
    State.matchStep [r] false (State.matchStep [r] false (State.matchStep [r] true (s, []))) = (s.pointersPast r, [r]) := by
  rw [matchStep_one hlevel hin hout hi ho, matchStep_of_no_request (State.requests_chosen _ r), matchStep_of_no_request (State.requests_chosen _ r)]

theorem match_none (s : State) : State.matchStep [] false (State.matchStep [] false (State.matchStep [] true (s, []))) = (s, []) := rfl

theorem exec_schedulerMatch_empty {s : State} (h : s.xbr.voqs = []) : exec .schedulerMatch s = .next (s.refillBudgets.noteRecent []) := by
  have hheads : s.refillBudgets.voqHeads = [] := by
    unfold State.voqHeads
    rw [show s.refillBudgets.xbr.voqs = [] from h]
    rfl
  have hmark : markHeads s.refillBudgets [] = s.refillBudgets := by
    simp [markHeads, State.upXbr, State.refillBudgets, h, Tab.mapVals]
  refine congrArg Host.Outcome.next ?_
  unfold schedulerMatch
  dsimp only
  rw [hheads]
  simp only [List.filter_nil, List.map_nil]
  rw [hmark]
  rfl

/-! One packet of a cell crosses. -/

theorem State.onlyChanges_ingressFree (s : State) (h : QPkt) : s.onlyChanges (s.ingressFree h) [.regs] := by
  unfold State.ingressFree
  dsimp only
  split
  · exact s.onlyChanges_refl _
  · exact State.onlyChanges_trans (s.onlyChanges_wr _ _ _ _ (by decide)) (State.onlyChanges_wr _ _ _ _ _ (by decide))

theorem State.onlyChanges_noteWait (s : State) (r : Pair) (h : QPkt) : s.onlyChanges (s.noteWait r h) [.regs] := by
  unfold State.noteWait
  split
  · exact s.onlyChanges_raise _ _ _ _
  · exact s.onlyChanges_refl _

theorem State.arrive_port_effect (s : State) {o : Nat} (h : QPkt) (ho : o < 32) : (s.arrive o h).xbr = s.xbr ∧
    ((s.arrive o h).port o).arriving = (s.port o).arriving ++ [{ h with held := 0 }] ∧ s.onlyChanges (s.arrive o h) [.regs, .fab] := by
  have harrive : s.arrive o h = (s.ingressFree h).upPort o fun q => { q with arriving := q.arriving ++ [{ h with held := 0 }] } :=
    if_neg (by unfold connHE0; omega)
  have hfree := s.onlyChanges_ingressFree h
  have hport : (s.ingressFree h).port o = s.port o := congrArg (fun x : FabState => Tab.getD x.ports o {}) (hfree .fab (by decide))
  rw [harrive]
  have hparts := (State.onlyChanges_mono hfree (qs := [.regs, .fab]) (by decide)).andThen
    (State.onlyChanges_upPort (s.ingressFree h) o fun q => { q with arriving := q.arriving ++ [{ h with held := 0 }] })
  refine ⟨hparts .xbr (by decide), ?_, hparts⟩
  rw [State.port_upPort_self, hport]

/-- A queue's head with its cells reserved at its egress queue, its wait noted. -/
def State.reservedFor (s : State) (r : Pair) (h : QPkt) : State :=
  ((s.noteWait r h).upXbr fun x => { x with reserved := Tab.put x.reserved (r.o * 8 + r.q) (Tab.getD x.reserved (r.o * 8 + r.q) 0 + h.pkt.cells) }).noteDepth
    r.o r.q

theorem State.reservedFor_effect (s : State) (r : Pair) (h : QPkt) : (s.reservedFor r h).xbr.voqs = s.xbr.voqs ∧
    s.onlyChanges (s.reservedFor r h) [.regs, .xbr] := by
  have hwait := s.onlyChanges_noteWait r h
  unfold State.reservedFor
  generalize s.noteWait r h = u at hwait
  generalize hv : (u.upXbr fun x => { x with reserved := _ }) = v
  have hvoqs : v.xbr.voqs = u.xbr.voqs := by rw [← hv]; rfl
  have hreserve : u.onlyChanges v [.xbr] := by
    rw [← hv]
    simp [State.onlyChanges_iff]
  have hdepth := v.onlyChanges_noteDepth r.o r.q
  refine ⟨?_, ((State.onlyChanges_mono hwait (by decide)).andThen hreserve).andThen hdepth⟩
  rw [hdepth .xbr (by decide), hvoqs, hwait .xbr (by decide)]

theorem State.moveCell_one {s : State} {r : Pair} {h : QPkt} (hvoqs : s.xbr.voqs = [(voqKey r.i r.o r.q, [h])]) (ho : r.o < 32) (hsent : h.sent = 0)
    (hcells : h.pkt.cells = 1) (hpass : s.headPasses r.o r.q h = true) : s.moveCell r =
      (((s.reservedFor r h).upXbr fun x => { x with voqs := Tab.put x.voqs (voqKey r.i r.o r.q) [] }).arrive r.o { h with sent := 1 }, true) := by
  have hhead : Tab.getD s.xbr.voqs (voqKey r.i r.o r.q) [] = [h] := by simp [hvoqs, Tab.getD, Tab.find?]
  have hto : cellsTo r.o h.pkt = 1 := (if_neg (by unfold connHE0; omega)).trans hcells
  have hport : (r.o == connHE0) = false := by simp [connHE0]; omega
  unfold State.moveCell
  dsimp only
  rw [hhead]
  simp only [hpass, hsent, hport, ho, hto, Bool.not_true, Bool.false_and, if_false, if_true, and_self, Bool.false_eq_true, Nat.zero_add, Nat.lt_irrefl]
  rfl

theorem State.moveCell_of_empty {s : State} {r : Pair} (h : Tab.getD s.xbr.voqs (voqKey r.i r.o r.q) [] = []) : s.moveCell r = (s, false) := by
  unfold State.moveCell
  dsimp only
  rw [h]

theorem State.spend_effect (s : State) (c dir : Nat) : (s.spend c dir).xbr.voqs = s.xbr.voqs ∧ s.onlyChanges (s.spend c dir) [.xbr] := by
  unfold State.spend
  cases dieOf c with
  | none => exact ⟨rfl, s.onlyChanges_refl _⟩
  | some d => exact ⟨rfl, by simp [State.onlyChanges_iff]⟩

theorem moveRound_of_empty {s : State} {r : Pair} (h : Tab.getD s.xbr.voqs (voqKey r.i r.o r.q) [] = []) (m : Moved) :
    State.moveRound [r] (s, m) = (s, m) := by
  simp [State.moveRound, State.moveCell_of_empty h]

/-- The two rounds of cells, with one pair whose one cell crosses. -/
theorem moveRounds_one {s t : State} {r : Pair} (hmay : s.mayMove [] r = true) (hmove : s.moveCell r = (t, true))
    (hempty : t.xbr.voqs = [(voqKey r.i r.o r.q, [])]) :
    State.moveRound [r] (State.moveRound [r] (s, [])) = ((t.spend r.i 0).spend r.o 1, [r]) := by
  have hfirst : State.moveRound [r] (s, []) = ((t.spend r.i 0).spend r.o 1, [r]) := by
    simp only [State.moveRound, List.foldl_cons, List.foldl_nil, hmay, hmove, if_true]
    rfl
  rw [hfirst]
  refine moveRound_of_empty ?_ _
  rw [(State.spend_effect _ _ _).1, (State.spend_effect _ _ _).1, hempty]
  simp [Tab.getD, Tab.find?]

theorem refillBudgets_budget (s : State) {p dir : Nat} (hp : p < 32) (hdir : dir < 2) : 4000 ≤ s.refillBudgets.budget (8 + p / 16) dir := by
  obtain h | h : p / 16 = 0 ∨ p / 16 = 1 := by omega
  all_goals
    obtain rfl | rfl : dir = 0 ∨ dir = 1 := by omega
    all_goals
      rw [h]
      exact Nat.le_add_left 4000 _

/-- What lets a port have its first cell in an XCLK. -/
def State.fresh (s : State) : Prop := s.xbr.recent = [] ∧ ∀ p dir, p < 32 → dir < 2 → 4000 ≤ s.budget (8 + p / 16) dir

section
variable {s : State} (hs : s.fresh)
include hs

theorem State.fresh.cellCap {p : Nat} (hp : p < 32) (dir : Nat) : s.cellCap p dir = 2 := by
  have hwide : isWide p = false := by simp [isWide]; omega
  simp [State.cellCap, hwide, State.recentCells, hs.1, Tab.getD]

theorem State.fresh.roomFor {p dir : Nat} (hp : p < 32) (hdir : dir < 2) : s.roomFor [] p dir = true := by
  have hbudget := hs.2 p dir hp hdir
  have hwide : isWide p = false := by simp [isWide]; omega
  simp [State.roomFor, hs.cellCap hp, dieOf, hp, partnerCap, hwide]
  omega

theorem State.fresh.mayMove {r : Pair} (hi : r.i < 32) (ho : r.o < 32) : s.mayMove [] r = true := by
  have hin := hs.2 r.i 0 hi (by decide)
  have hout := hs.2 r.o 1 ho (by decide)
  simp [State.mayMove, hs.cellCap hi, hs.cellCap ho, dieOf, hi, ho]
  omega

end

theorem markHeads_one {s : State} {k : Nat} {h : QPkt} (hvoqs : s.xbr.voqs = [(k, [h])]) (elig : List Pair) : ∃ h' : QPkt, h'.pkt = h.pkt ∧
    h'.sent = h.sent ∧ markHeads s elig = s.upXbr fun x => { x with voqs := [(k, [h'])] } := by
  unfold markHeads Tab.mapVals
  rw [State.upXbr, hvoqs]
  rw [List.map_cons, List.map_nil]
  dsimp only
  split
  · exact ⟨{ h with headAt := some s.xbr.xclk }, rfl, rfl, rfl⟩
  · exact ⟨h, rfl, rfl, rfl⟩

/-- The rounds of a match in which the one cell of the one pair's one packet crosses. -/
theorem State.fresh.rounds_one {s : State} (hs : s.fresh) {r : Pair} {h : QPkt} (hi : r.i < 32) (ho : r.o < 32)
    (hvoqs : s.xbr.voqs = [(voqKey r.i r.o r.q, [h])]) (hsent : h.sent = 0) (hcells : h.pkt.cells = 1) (hpass : s.headPasses r.o r.q h = true) :
    ∃ t, State.moveRound [r] (State.moveRound [r] (s, [])) = (t, [r]) ∧ t.xbr.voqs = [(voqKey r.i r.o r.q, [])] ∧
      (t.port r.o).arriving.map (·.pkt) = (s.port r.o).arriving.map (·.pkt) ++ [h.pkt] ∧ s.onlyChanges t [.regs, .xbr, .fab] := by
  have hmove := State.moveCell_one hvoqs ho hsent hcells hpass
  obtain ⟨hrvoqs, hrparts⟩ := s.reservedFor_effect r h
  generalize s.reservedFor r h = y at hmove hrvoqs hrparts
  generalize hz : (y.upXbr fun x => { x with voqs := Tab.put x.voqs (voqKey r.i r.o r.q) [] }) = z at hmove
  have hzvoqs : z.xbr.voqs = [(voqKey r.i r.o r.q, [])] := by
    have hput : z.xbr.voqs = Tab.put y.xbr.voqs (voqKey r.i r.o r.q) [] := by rw [← hz]; rfl
    simp [hput, hrvoqs, hvoqs, Tab.put]
  have hzparts : s.onlyChanges z [.regs, .xbr] := by
    refine hrparts.andThen (?_ : y.onlyChanges z [.xbr])
    rw [← hz]
    simp [State.onlyChanges_iff]
  have hzport : z.port r.o = s.port r.o := congrArg (fun x : FabState => Tab.getD x.ports r.o {}) (hzparts .fab (by decide))
  obtain ⟨havoqs, haport, haparts⟩ := z.arrive_port_effect { h with sent := 1 } ho
  generalize z.arrive r.o { h with sent := 1 } = a at hmove havoqs haport haparts
  have hcrossed : a.xbr.voqs = [(voqKey r.i r.o r.q, [])] := by rw [havoqs, hzvoqs]
  obtain ⟨hbvoqs, hbparts⟩ := a.spend_effect r.i 0
  obtain ⟨hcvoqs, hcparts⟩ := (a.spend r.i 0).spend_effect r.o 1
  have hspent : a.onlyChanges ((a.spend r.i 0).spend r.o 1) [.xbr] := hbparts.andThen hcparts
  refine ⟨_, moveRounds_one (hs.mayMove hi ho) hmove hcrossed, by rw [hcvoqs, hbvoqs, hcrossed], ?_, ?_⟩
  · have hport : ((a.spend r.i 0).spend r.o 1).port r.o = a.port r.o :=
      congrArg (fun x : FabState => Tab.getD x.ports r.o {}) (hspent .fab (by decide))
    rw [hport, haport, hzport, List.map_append]
    rfl
  · exact ((State.onlyChanges_mono hzparts (by decide)).andThen haparts).andThen hspent

theorem exec_schedulerMatch_one {s x t : State} {r : Pair} {h : QPkt} (hheads : s.refillBudgets.voqHeads = [(r, h)])
    (hpass : s.refillBudgets.headPasses r.o r.q h = true)
    (hmatch : State.matchStep [r] false (State.matchStep [r] false (State.matchStep [r] true (markHeads s.refillBudgets [r], []))) = (x, [r]))
    (hrounds : State.moveRound [r] (State.moveRound [r] (x, [])) = (t, [r])) : exec .schedulerMatch s = .next (t.noteRecent [r]) := by
  have helig : ([(r, h)].filter fun (r, h) => s.refillBudgets.headPasses r.o r.q h) = [(r, h)] := by simp [hpass]
  have hstalled : ([(r, h)].filter fun (r, h) => !s.refillBudgets.headPasses r.o r.q h) = [] := by simp [hpass]
  refine congrArg Host.Outcome.next ?_
  unfold schedulerMatch
  dsimp only
  rw [hheads, helig, hstalled]
  simp only [List.map_cons, List.map_nil, List.eraseDups_nil, List.foldl_nil]
  rw [hmatch]
  dsimp only
  rw [hrounds]
  simp

/-- The state after one match in which the one queued packet, of one cell, crosses. -/
theorem exec_schedulerMatch_crosses {s : State} {r : Pair} {h : QPkt} (hi : r.i < 32) (ho : r.o < 32) (hq : r.q < 8)
    (hvoqs : s.xbr.voqs = [(voqKey r.i r.o r.q, [h])]) (hrecent : s.xbr.recent = []) (hsent : h.sent = 0) (hcells : h.pkt.cells = 1)
    (hroom : s.qDepth r.o r.q + 1 ≤ s.rd Reg.XBR_QLIM_CELLS) : ∃ t, exec .schedulerMatch s = .next t ∧ t.xbr.voqs = [] ∧
    (t.port r.o).arriving.map (·.pkt) = (s.port r.o).arriving.map (·.pkt) ++ [h.pkt] ∧ s.onlyChanges t [.regs, .xbr, .fab] := by
  obtain ⟨hki, hko, hkq⟩ : voqKey r.i r.o r.q / 512 = r.i ∧ voqKey r.i r.o r.q / 8 % 64 = r.o ∧ voqKey r.i r.o r.q % 8 = r.q := by
    unfold voqKey
    omega
  have hlevel : r.level ≤ 8 := by
    show 2 * (r.q / 2) + (1 - r.q % 2) ≤ 8
    omega
  have hcap : ∀ c, 1 ≤ partnerCap c := fun c => by
    unfold partnerCap
    split <;> decide
  have hheads : s.refillBudgets.voqHeads = [(r, h)] := by
    unfold State.voqHeads
    rw [show s.refillBudgets.xbr.voqs = [(voqKey r.i r.o r.q, [h])] from hvoqs]
    simp [hki, hko, hkq]
  have hpass : s.headPasses r.o r.q h = true := by simp [State.headPasses, hcells, hroom]
  obtain ⟨h', hpkt, hsent', hmark⟩ := markHeads_one (s := s.refillBudgets) hvoqs [r]
  have hfresh : (markHeads s.refillBudgets [r]).fresh := by
    rw [hmark]
    exact ⟨hrecent, fun p dir => refillBudgets_budget s⟩
  have hmatch := match_one hlevel (hfresh.roomFor hi (by decide)) (hfresh.roomFor ho (by decide)) (hcap r.i) (hcap r.o)
  have hwvoqs : ((markHeads s.refillBudgets [r]).pointersPast r).xbr.voqs = [(voqKey r.i r.o r.q, [h'])] := by
    rw [hmark]
    rfl
  have hwpass : ((markHeads s.refillBudgets [r]).pointersPast r).headPasses r.o r.q h' = true := by
    refine Eq.trans ?_ hpass
    unfold State.headPasses
    rw [hmark, hpkt, hsent']
    rfl
  have hwparts : s.onlyChanges ((markHeads s.refillBudgets [r]).pointersPast r) [.xbr] := by
    rw [hmark]
    simp [State.pointersPast, State.refillBudgets, State.onlyChanges_iff]
  have hwfresh : ((markHeads s.refillBudgets [r]).pointersPast r).fresh := hfresh
  generalize (markHeads s.refillBudgets [r]).pointersPast r = w at hmatch hwvoqs hwpass hwparts hwfresh
  obtain ⟨t, hrounds, htvoqs, htport, htparts⟩ := hwfresh.rounds_one hi ho hwvoqs (hsent'.trans hsent) (by rw [hpkt, hcells]) hwpass
  have hnoted : t.onlyChanges (t.noteRecent [r]) [.xbr] := by simp [State.noteRecent, State.onlyChanges_iff]
  refine ⟨_, exec_schedulerMatch_one hheads hpass hmatch hrounds, ?_, ?_, ?_⟩
  · show t.xbr.voqs.filter _ = []
    rw [htvoqs]
    rfl
  · have hport : w.port r.o = s.port r.o := congrArg (fun x : FabState => Tab.getD x.ports r.o {}) (hwparts .fab (by decide))
    rw [hport, hpkt] at htport
    exact htport
  · exact ((State.onlyChanges_mono hwparts (by decide)).andThen htparts).andThen hnoted

theorem exec_portSelect_of_not_maySend {s : State} {p : Nat} (h : s.maySend p = false) (b : Bool) : exec (.portSelect p b) s = .next s :=
  congrArg Host.Outcome.next (if_pos (by rw [h]; rfl))

/-- Settles O12: the crossing by one pair's match and its one cell, the rest by what each command does to one queue. -/
theorem packetsCrossAndLeave : Obligations.PacketsCrossAndLeave := by
  unfold Obligations.PacketsCrossAndLeave
  refine fun s => ⟨fun hvoqs => ?_, fun i o q h hi ho hq hvoqs hrecent hsent hcells hroom =>
      exec_schedulerMatch_crosses (r := { i := i, o := o, q := q }) hi ho hq hvoqs hrecent hsent hcells hroom,
    fun p h rest hp harr hq => ⟨fun hect => ?_, fun hect hce hlo hhi => ?_⟩,
    fun p q h rest hp hq hsend hqueue hother hgate hshaper hsleep => ?_, fun p b h => exec_portSelect_of_not_maySend h b,
    fun p q h hp hq hvoqs hegress hheld hold => ?_⟩
  · refine ⟨_, exec_schedulerMatch_empty hvoqs, rfl, ?_, ?_⟩
    · show s.xbr.voqs.filter _ = []
      rw [hvoqs]
      rfl
    · simp [State.noteRecent, State.refillBudgets, State.onlyChanges_iff]
  · exact ⟨_, exec_egressEnqueue_plain harr hect, s.enqueued_effect p h.pkt.queue h rest⟩
  · obtain ⟨harriving, hqueued, hparts⟩ :=
      (s.bump Reg.FAB_CNT_CE_MARK p).enqueued_effect p h.pkt.queue { h with pkt := h.pkt.setCe true } rest
    refine ⟨_, exec_egressEnqueue_marked harr hect hce hlo hhi, harriving, hqueued, ?_,
      State.onlyChanges_trans (s.onlyChanges_bump _ _ _ _ (by decide)) hparts⟩
    rw [State.rd_enqueued _ _ _ hp hq (by decide) (by decide) hp (by decide), State.rd_bump_self _ _ _ _ _ (by decide)]
  · obtain ⟨htaken, htport, htout, htparts⟩ := s.headTaken_effect p q h
    have hrest : (s.headTaken p q h).queue p q = rest := by rw [htaken, hqueue]; rfl
    have hsends := exec_portSelect_sends hgate hq hqueue hother hshaper hsleep hsend
    constructor
    · obtain ⟨hout, hxbr, htx, hparts⟩ := (s.headTaken p q h).laned_effect p q h.pkt ((s.headTaken p q h).frameTime p h.pkt)
      refine ⟨_, hsends false, ?_, ?_, ?_, (State.onlyChanges_mono htparts (by decide)).andThen hparts⟩
      · exact hout.trans (by rw [htport, htout])
      · exact (State.queue_congr hxbr p q).trans hrest
      · exact htx.trans (by rw [htport])
    · have hcounted : ((s.headTaken p q h).bump Reg.FLT_CNT_UE_PKT).port p = s.port p := htport
      obtain ⟨hout, hxbr, -, -⟩ := ((s.headTaken p q h).bump Reg.FLT_CNT_UE_PKT).laned_effect p q
        { h.pkt with trailer := h.pkt.trailer ^^^ 0xFFFFFFFF } ((s.headTaken p q h).frameTime p h.pkt)
      refine ⟨_, hsends true, ?_, ?_, ?_⟩
      · refine hout.trans ?_
        rw [hcounted]
        exact congrArg (· ++ _) htout
      · exact (State.queue_congr hxbr p q).trans hrest
      · refine (State.rd_laned _ _ _ _ hp (by decide) (by decide) (by decide) (by decide)).trans ?_
        rw [if_pos rfl, State.rd_bump_self _ _ _ _ _ (by decide), s.rd_headTaken h hp hq (by decide) (by decide) (by decide) (by decide)]
  · have hexec := exec_packetHoldExpire_one hq hvoqs hegress hheld hold
    have hdepths := State.onlyChanges_foldl_noteDepth (List.range 256) ((s.withQueue (p * 8 + q)).bump Reg.FAB_CNT_HOLD p)
    have hrd := State.rd_foldl_noteDepth (ks := List.range 256) (fun k hk => List.mem_range.mp hk) (g := Reg.FAB_CNT_HOLD) (a := p) (b := 0)
      ((s.withQueue (p * 8 + q)).bump Reg.FAB_CNT_HOLD p) (by decide) (by decide) hp (by decide)
    generalize (List.range 256).foldl _ _ = t at hexec hdepths hrd
    refine ⟨t, hexec, ?_, ?_, ?_⟩
    · rw [State.queue, hdepths .xbr (by decide)]
      simp [State.withQueue, Tab.getD, Tab.find?]
    · rw [hrd, State.rd_bump_self _ _ _ _ _ (by decide)]
      rfl
    · refine State.onlyChanges_trans (State.onlyChanges_trans (?_ : s.onlyChanges (s.withQueue (p * 8 + q)) _)
        (State.onlyChanges_bump _ _ _ _ _ (by decide))) (State.onlyChanges_mono hdepths (by decide))
      simp [State.withQueue, State.onlyChanges_iff]

end Sys2Proof.Machine
end

section
/-!
PROOF. Links, neighbours and homes (R141–R143, R147, R152, R155–R158, R434): a neighbour that dies in a switch with nothing under way for it takes
with it the homes that had no other port, and nothing else.
-/
namespace Sys2Proof.Machine

/-! Dead homes. -/

/-- What a step keeps that only adds dead homes: every field but `FAB_DEAD` and those of records, and every home's death. -/
def State.keepsDead (s t : State) : Prop :=
  (∀ (g : Fld) (a b : Nat), g.lo < 32 → a < g.n1 → b < g.n2 → g.apart Reg.FAB_DEAD = true → (scoreFlds.all fun f => g.separate f) = true →
    t.rd g a b = s.rd g a b) ∧
  (∀ h, h < 4096 → s.homeDead h = true → t.homeDead h = true) ∧ t.fab = s.fab ∧ t.xbr = s.xbr ∧ t.red = s.red

theorem State.keepsDead_refl (s : State) : s.keepsDead s := ⟨fun _ _ _ _ _ _ _ _ => rfl, fun _ _ h => h, rfl, rfl, rfl⟩

theorem State.keepsDead_trans {s t u : State} (h : s.keepsDead t) (k : t.keepsDead u) : s.keepsDead u := by
  obtain ⟨h1, h2, h3, h4, h5⟩ := h
  obtain ⟨k1, k2, k3, k4, k5⟩ := k
  exact ⟨fun g a b hl ha hb hd hs => (k1 g a b hl ha hb hd hs).trans (h1 g a b hl ha hb hd hs), fun x hx hd => k2 x hx (h2 x hx hd),
    k3.trans h3, k4.trans h4, k5.trans h5⟩

theorem State.homeDead_congr {s t : State} {h : Nat} (hrd : t.rd Reg.FAB_DEAD (h / 32) = s.rd Reg.FAB_DEAD (h / 32)) : t.homeDead h = s.homeDead h := by
  rw [State.homeDead, State.homeDead, hrd]

theorem State.keepsDead_event (s : State) (r : Report) : s.keepsDead (s.event r) := by
  have hparts := (s.reportsOnly_event r).1
  refine ⟨fun g a b _ _ _ _ hs => s.rd_event_separate r hs a b, fun h _ hd => ?_, hparts .fab (by decide), hparts .xbr (by decide),
    hparts .red (by decide)⟩
  rwa [State.homeDead_congr (s.rd_event_separate r (by decide) _ _)]

/-- A write of a home's bit leaves the other bits of its word and every other word as they were. -/
theorem State.homeDead_or (s : State) {h k : Nat} (hh : h < 4096) (hk : k < 4096) :
    (s.wr Reg.FAB_DEAD (s.rd Reg.FAB_DEAD (h / 32) ||| 2 ^ (h % 32)) (h / 32)).homeDead k = (s.homeDead k || decide (k = h)) := by
  by_cases hw : k / 32 = h / 32
  · have hbit : k % 32 < Reg.FAB_DEAD.width := Nat.mod_lt _ (by decide)
    rw [State.homeDead, State.homeDead, hw, State.rd_wr_self _ _ _ _ _ (by decide), bit_eq_testBit, bit_eq_testBit, Nat.testBit_mod_two_pow,
      Nat.testBit_or, Nat.testBit_two_pow]
    have heq : (h % 32 = k % 32) ↔ k = h := by omega
    simp [hbit, heq]
  · have hne : k ≠ h := fun e => hw (by rw [e])
    have hi : h / 32 < Reg.FAB_DEAD.n1 := by show h / 32 < 128; omega
    have ha : k / 32 < Reg.FAB_DEAD.n1 := by show k / 32 < 128; omega
    rw [State.homeDead_congr (s.rd_wr_index _ (by decide) (by decide) hi ha hw)]
    simp [hne]

theorem State.markHomeDead_effect (s : State) (p : Nat) {h : Nat} (hh : h < 4096) :
    s.keepsDead (s.markHomeDead p h) ∧ (s.markHomeDead p h).homeDead h = true := by
  unfold State.markHomeDead
  dsimp only
  have hkeep : s.keepsDead (s.wr Reg.FAB_DEAD (s.rd Reg.FAB_DEAD (h / 32) ||| 2 ^ (h % 32)) (h / 32)) := by
    have hi : h / 32 < Reg.FAB_DEAD.n1 := by show h / 32 < 128; omega
    refine ⟨fun g a b hl ha hb hd _ => s.rd_wr_apart _ hd (by decide) hl hi (by decide) ha hb, fun k hk hd => ?_, rfl, rfl, rfl⟩
    rw [s.homeDead_or hh hk, hd]
    rfl
  have hset : (s.wr Reg.FAB_DEAD (s.rd Reg.FAB_DEAD (h / 32) ||| 2 ^ (h % 32)) (h / 32)).homeDead h = true := by simp [s.homeDead_or hh hh]
  have hevent := State.keepsDead_event (s.wr Reg.FAB_DEAD (s.rd Reg.FAB_DEAD (h / 32) ||| 2 ^ (h % 32)) (h / 32))
  exact ⟨State.keepsDead_trans hkeep (hevent _), (hevent _).2.1 h hh hset⟩

theorem State.foldl_markHomeDead_effect {homes : List Nat} (hhomes : ∀ h ∈ homes, h < 4096) (s : State) (p : Nat) :
    s.keepsDead (homes.foldl (fun s h => s.markHomeDead p h) s) ∧
      ∀ h ∈ homes, (homes.foldl (fun s h => s.markHomeDead p h) s).homeDead h = true := by
  induction homes generalizing s with
  | nil => exact ⟨s.keepsDead_refl, fun h hm => absurd hm List.not_mem_nil⟩
  | cons h homes ih =>
    have hh := hhomes h List.mem_cons_self
    obtain ⟨hkeep, hset⟩ := s.markHomeDead_effect p hh
    obtain ⟨hrest, hall⟩ := ih (fun k hk => hhomes k (List.mem_cons_of_mem _ hk)) (s.markHomeDead p h)
    refine ⟨State.keepsDead_trans hkeep hrest, fun k hk => ?_⟩
    rcases List.mem_cons.mp hk with rfl | hk
    · exact hrest.2.1 k hh hset
    · exact hall k hk

theorem State.keepsDead_foldl_event {α : Type} (l : List α) (r : α → Report) (s : State) : s.keepsDead (l.foldl (fun s x => s.event (r x)) s) := by
  induction l generalizing s with
  | nil => exact s.keepsDead_refl
  | cons x l ih => exact State.keepsDead_trans (s.keepsDead_event _) (ih _)

/-! A neighbour dies. -/

theorem repinBank_routes (dead : Nat → Bool) (p : Nat) (b : Bank) :
    (repinBank dead p b).1.routes = b.routes.map fun r => (r.1, { r.2 with map := (repin dead p r.2.map).1 }) := by
  simp [repinBank]

/-- The state once a neighbour's death is marked and the maps are rewritten. -/
def State.repinned (s : State) (p cause : Nat) : State :=
  let u := (s.wr Reg.FAB_PSTAT_DEAD 1 p).upPort p fun q => { q with deadCause := cause }
  let dead := fun q => !u.alive q
  (u.upXbr fun x => { x with bank0 := (repinBank dead p u.xbr.bank0).1, bank1 := (repinBank dead p u.xbr.bank1).1 }).bump Reg.RTE_CNT_REPIN 0 0
    (if u.rd Reg.RTE_ACTIVE_BANK = 0 then (repinBank dead p u.xbr.bank0).2 else (repinBank dead p u.xbr.bank1).2)

/-- The records of the clients behind a dead neighbour. -/
def State.clientsDown (s : State) (p : Nat) : State :=
  if (s.portCfg p).role = roleAccel then
    (s.cfg.police.filter fun r => r.2.valid && r.2.port == p).foldl (fun s r => s.event
      { code := evCLIENT_DOWN, sev := sevWARN, health := false, params := [p, r.2.endpoint] }) s
  else s

theorem State.declareDead_eq {s : State} {p : Nat} (h : s.on Reg.FAB_PSTAT_DEAD p = false) (cause : Nat) : s.declareDead p cause =
    let u := (((s.repinned p cause).newlyDead p).foldl (fun s h => s.markHomeDead p h) (s.repinned p cause)).clientsDown p
    (u.pullPort p).1.foldl (fun s q => s.orphan p q) (u.pullPort p).2 :=
  if_neg (by rw [h]; decide)

theorem State.keepsDead_clientsDown (s : State) (p : Nat) : s.keepsDead (s.clientsDown p) := by
  unfold State.clientsDown
  split
  · exact State.keepsDead_foldl_event _ _ _
  · exact s.keepsDead_refl

/-- A switch with nothing queued toward a port, no request of its engines and no reduction open. -/
def State.idleToward (s : State) (p : Nat) : Prop :=
  s.xbr.voqs = [] ∧ s.xbr.egress = [] ∧ (s.port p).arriving = [] ∧ s.fab.eng = [] ∧ s.red.insts = []

/-- The fields that a neighbour's death writes beside records. -/
def deathFlds : List Fld := [Reg.FAB_PSTAT_DEAD, Reg.RTE_CNT_REPIN, Reg.FAB_DEAD]

section
variable {s : State} {p : Nat} (hp : p < 32) (cause : Nat)
include hp

theorem State.rd_repinned {g : Fld} {a b : Nat} (hdead : g.apart Reg.FAB_PSTAT_DEAD = true) (hpin : g.apart Reg.RTE_CNT_REPIN = true)
    (hg : g.lo < 32) (ha : a < g.n1) (hb : b < g.n2) : (s.repinned p cause).rd g a b = s.rd g a b :=
  (State.rd_wr_apart _ _ hpin (by decide) hg (by decide) (by decide) ha hb).trans
    (s.rd_wr_apart 1 hdead (by decide) hg hp (by decide) ha hb)

theorem State.not_alive_repinned : (s.repinned p cause).alive p = false := by
  have hrd : (s.repinned p cause).rd Reg.FAB_PSTAT_DEAD p = 1 := by
    refine (State.rd_wr_apart _ _ (by decide) (by decide) (by decide) (by decide) (by decide) hp (by decide)).trans ?_
    exact s.rd_wr_self _ _ _ _ (by decide)
  simp [State.alive, State.on, hrd]

/-- The routes are those of before with rewritten maps. -/
theorem State.repinned_routes : ∃ m : RouteEnt → List Nat, (s.repinned p cause).bank.routes = s.bank.routes.map fun r => (r.1, { r.2 with map := m r.2 }) := by
  have hbank : (s.repinned p cause).rd Reg.RTE_ACTIVE_BANK = s.rd Reg.RTE_ACTIVE_BANK :=
    State.rd_repinned hp cause (by decide) (by decide) (by decide) (by decide) (by decide)
  refine ⟨fun r => (repin (fun q => !((s.wr Reg.FAB_PSTAT_DEAD 1 p).upPort p fun q => { q with deadCause := cause }).alive q) p r.map).1, ?_⟩
  unfold State.bank
  rw [hbank]
  split
  · exact repinBank_routes _ p s.xbr.bank0
  · exact repinBank_routes _ p s.xbr.bank1

theorem State.newlyDead_lt (hroutes : ∀ r ∈ s.bank.routes, r.1 < 4096) : ∀ h ∈ (s.repinned p cause).newlyDead p, h < 4096 := by
  obtain ⟨m, hm⟩ := s.repinned_routes hp cause
  intro h hh
  unfold State.newlyDead at hh
  rw [hm] at hh
  obtain ⟨r, hr, rfl⟩ := List.mem_map.mp hh
  obtain ⟨x, hx, rfl⟩ := List.mem_map.mp (List.mem_filter.mp hr).1
  exact hroutes x hx

/-- The one home of the one route is dead already or dies with its only port. -/
theorem State.mem_newlyDead {h : Nat} {r : RouteEnt} (hroute : s.bank.routes = [(h, r)]) (hports : bitList 32 r.portset = [p]) :
    (s.repinned p cause).homeDead h = true ∨ h ∈ (s.repinned p cause).newlyDead p := by
  obtain ⟨m, hm⟩ := s.repinned_routes hp cause
  cases hd : (s.repinned p cause).homeDead h with
  | true => exact .inl rfl
  | false =>
    have hbit : bit r.portset p = true := by
      have hmem : p ∈ bitList 32 r.portset := by rw [hports]; exact List.mem_cons_self
      exact (List.mem_filter.mp hmem).2
    refine .inr ?_
    unfold State.newlyDead
    rw [hm, hroute]
    simp [hbit, hd, hports, s.not_alive_repinned hp cause]

theorem State.neighbourDead_effect (hdead : s.on Reg.FAB_PSTAT_DEAD p = false) (hidle : s.idleToward p) (hroutes : ∀ r ∈ s.bank.routes, r.1 < 4096) :
    (s.neighbourDead p cause).alive p = false ∧
    (∀ h r, s.bank.routes = [(h, r)] → bitList 32 r.portset = [p] → (s.neighbourDead p cause).homeDead h = true) ∧
    (∀ (g : Fld) (a b : Nat), g.lo < 32 → a < g.n1 → b < g.n2 → (deathFlds.all fun f => g.apart f) = true →
      (scoreFlds.all fun f => g.separate f) = true → (s.neighbourDead p cause).rd g a b = s.rd g a b) ∧
    ∃ c, (s.neighbourDead p cause).port p = { (s.port p) with deadCause := c } := by
  obtain ⟨hvoqs, hegress, harr, heng, hinsts⟩ := hidle
  obtain ⟨hmarks, hall⟩ := State.foldl_markHomeDead_effect (s.newlyDead_lt hp cause hroutes) (s.repinned p cause) p
  have hkeep := State.keepsDead_trans hmarks (State.keepsDead_clientsDown _ p)
  have hclients := State.keepsDead_clientsDown (((s.repinned p cause).newlyDead p).foldl (fun s h => s.markHomeDead p h) (s.repinned p cause)) p
  have hdeclare := State.declareDead_eq hdead cause
  dsimp only at hdeclare
  generalize ((s.repinned p cause).newlyDead p).foldl (fun s h => s.markHomeDead p h) (s.repinned p cause) = m at hmarks hall hkeep hclients hdeclare
  generalize m.clientsDown p = u at hkeep hclients hdeclare
  obtain ⟨hrd, hhomes, hfab, hxbr, hred⟩ := hkeep
  have hport : u.port p = { (s.port p) with deadCause := cause } := by
    have hrep : (s.repinned p cause).port p = { (s.port p) with deadCause := cause } :=
      State.port_upPort_self (s.wr Reg.FAB_PSTAT_DEAD 1 p) p fun q => { q with deadCause := cause }
    rw [State.port, hfab]
    exact hrep
  have hpull : (u.pullPort p).1 = [] := by
    have h1 : u.xbr.voqs = [] := by rw [hxbr]; exact hvoqs
    have h2 : u.xbr.egress = [] := by rw [hxbr]; exact hegress
    simp [State.pullPort, h1, h2, hport, harr]
  rw [hpull] at hdeclare
  have hquiet : s.neighbourDead p cause = (u.pullPort p).2 := by
    have hfail : ((u.pullPort p).2).failEngines = (u.pullPort p).2 := by
      have h : ((u.pullPort p).2).fab.eng = [] := by
        show u.fab.eng = []
        rw [hfab]
        exact heng
      unfold State.failEngines
      rw [h]
      rfl
    have hreds : ((u.pullPort p).2).red.insts = [] := by
      show u.red.insts = []
      rw [hred]
      exact hinsts
    unfold State.neighbourDead
    rw [hdeclare, List.foldl_nil, hfail]
    exact State.redEndAll_of_none hreds _ _
  rw [hquiet]
  refine ⟨?_, fun h r hroute hports => ?_, fun g a b hl ha hb hd hs => ?_, cause, ?_⟩
  · have hstat : u.rd Reg.FAB_PSTAT_DEAD p = (s.repinned p cause).rd Reg.FAB_PSTAT_DEAD p :=
      hrd _ _ _ (by decide) hp (by decide) (by decide) (by decide)
    have hnot := s.not_alive_repinned hp cause
    rw [State.alive, State.on] at hnot ⊢
    rw [← hstat] at hnot
    exact hnot
  · have hlt : h < 4096 := hroutes (h, r) (by rw [hroute]; exact List.mem_cons_self)
    have hu : u.homeDead h = true := by
      rcases s.mem_newlyDead hp cause hroute hports with hd | hm
      · exact hhomes h hlt hd
      · exact hclients.2.1 h hlt (hall h hm)
    exact hu
  · obtain ⟨h1, h2, h3⟩ : g.apart Reg.FAB_PSTAT_DEAD = true ∧ g.apart Reg.RTE_CNT_REPIN = true ∧ g.apart Reg.FAB_DEAD = true := by
      simpa [deathFlds] using hd
    have hall : u.rd g a b = s.rd g a b := (hrd g a b hl ha hb h3 hs).trans (State.rd_repinned hp cause h1 h2 hl ha hb)
    exact hall
  · rw [State.pullPort, State.port_upPort_self]
    have hfold : (u.upXbr fun x => { x with
        voqs := x.voqs.filter fun v => v.1 / 8 % 64 != p
        egress := x.egress.filter fun v => v.1 / 8 != p
        reserved := x.reserved.filter fun v => v.1 / 8 != p }).port p = u.port p := rfl
    rw [hfold, hport]
    dsimp only
    rw [← harr]

end

theorem State.idleToward_congr {s t : State} {p : Nat} (h : s.idleToward p) (hx : t.xbr = s.xbr) (ha : (t.port p).arriving = (s.port p).arriving)
    (he : t.fab.eng = s.fab.eng) (hr : t.red = s.red) : t.idleToward p := by
  unfold State.idleToward
  rw [hx, ha, he, hr]
  exact h

/-! Beats. -/

theorem port_lt_of_knawenPort {s : State} {p : Nat} (h : s.knawenPort p = true) : p < 32 := by
  simp only [State.knawenPort, Bool.and_eq_true, portOk, decide_eq_true_eq] at h
  exact h.1.1

section
variable {s : State} {p : Nat} (hk : s.knawenPort p = true)
include hk

theorem exec_beatSend_sends (hl : s.linkActive p = true) (hf : s.fatal = false) : exec (.beatSend p) s = .next (s.sendBeat p) :=
  congrArg Host.Outcome.next (if_pos (by rw [hk, hl, hf]; rfl))

omit hk in
theorem exec_linkBeat_alive {k : Packet} (hhead : s.headLink p 0 = some k) : ∃ t, exec (.linkBeat p) s = .next t ∧ t.alive p = true ∧
    t.rd Reg.FAB_PSTAT_BEAT_MISS p = 0 ∧ (t.port p).lastBeat = s.hclk ∧ (t.port p).ctl = (s.port p).ctl.drop 1 ∧ s.onlyChanges t [.regs, .fab] ∧
    s.regsKeptBut t [Reg.FAB_PSTAT_BEAT_MISS.key p 0, Reg.FAB_PSTAT_DEAD.key p 0] := by
  have hrun : exec (.linkBeat p) s = .next ((((s.popCtl p).wr Reg.FAB_PSTAT_BEAT_MISS 0 p).wr Reg.FAB_PSTAT_DEAD 0 p).upPort p fun q =>
      { q with lastBeat := s.hclk, beatSeen := true }) := by
    refine congrArg Host.Outcome.next ?_
    simp only [linkBeat, hhead]
  obtain ⟨hctl, -, hpop⟩ := s.popCtl_effect p
  refine ⟨_, hrun, ?_, ?_, by rw [State.port_upPort_self], ?_, ?_, ?_⟩
  · rw [State.alive, State.on, State.rd_upPort, State.rd_wr_self _ _ _ _ _ (by decide)]
    rfl
  · rw [State.rd_upPort, State.rd_wr_separate _ _ _ _ _ (by decide), State.rd_wr_self _ _ _ _ _ (by decide)]
    rfl
  · rw [State.port_upPort_self, State.port_wr, State.port_wr, hctl]
  · exact State.onlyChanges_trans (State.onlyChanges_mono hpop (by decide)) (by simp [State.onlyChanges_iff])
  · exact State.regsKept_trans (State.regsKept_trans (State.regsKept_of_regs rfl _) (State.regsKept_wr _ _ _ _ _ List.mem_cons_self))
      (State.regsKept_wr _ _ _ _ _ (List.mem_cons_of_mem _ List.mem_cons_self))

/-- An interval without a beat. -/
def State.missed (s : State) (p : Nat) : State := (s.bump Reg.FAB_PSTAT_BEAT_MISS p).bump Reg.FAB_CNT_BEAT_MISS p

omit hk in
theorem State.rd_missed {n : Nat} (h : s.rd Reg.FAB_PSTAT_BEAT_MISS p = n) (hn : n < 3) : (s.missed p).rd Reg.FAB_PSTAT_BEAT_MISS p = n + 1 := by
  rw [State.missed, State.rd_bump_separate _ _ _ _ _ (by decide), State.rd_bump_self _ _ _ _ _ (by decide), h]
  exact Nat.min_eq_left (by show n + 1 ≤ 255; omega)

theorem exec_beatMiss (hl : s.linkActive p = true) : exec (.beatMiss p) s =
    .next (if 3 ≤ (s.missed p).rd Reg.FAB_PSTAT_BEAT_MISS p then (s.missed p).neighbourDead p 0 else s.missed p) :=
  congrArg Host.Outcome.next (if_pos (by rw [hk, hl]; rfl))

theorem exec_beatMiss_few (hl : s.linkActive p = true) (hfew : s.rd Reg.FAB_PSTAT_BEAT_MISS p < 2) : ∃ t, exec (.beatMiss p) s = .next t ∧
    t.rd Reg.FAB_PSTAT_BEAT_MISS p = s.rd Reg.FAB_PSTAT_BEAT_MISS p + 1 ∧ s.onlyChanges t [.regs] ∧
    s.regsKeptBut t [Reg.FAB_PSTAT_BEAT_MISS.key p 0, Reg.FAB_CNT_BEAT_MISS.key p 0] := by
  have hrd := s.rd_missed (p := p) rfl (by omega)
  refine ⟨s.missed p, ?_, hrd, ?_, ?_⟩
  · rw [exec_beatMiss hk hl, if_neg (by omega)]
  · exact State.onlyChanges_trans (s.onlyChanges_bump _ _ _ _ (by decide)) (State.onlyChanges_bump _ _ _ _ _ (by decide))
  · exact State.regsKept_trans (s.regsKept_bump _ _ _ _ List.mem_cons_self) (State.regsKept_bump _ _ _ _ _ (List.mem_cons_of_mem _ List.mem_cons_self))

section
variable (hdead : s.on Reg.FAB_PSTAT_DEAD p = false) (hidle : s.idleToward p) (hroutes : ∀ r ∈ s.bank.routes, r.1 < 4096)
include hdead hidle hroutes

theorem exec_beatMiss_third (hl : s.linkActive p = true) (htwo : s.rd Reg.FAB_PSTAT_BEAT_MISS p = 2) : ∃ t, exec (.beatMiss p) s = .next t ∧
    t.alive p = false ∧ ∀ h r, s.bank.routes = [(h, r)] → bitList 32 r.portset = [p] → t.homeDead h = true := by
  have hp := port_lt_of_knawenPort hk
  have hrd := s.rd_missed htwo (by decide)
  have hactive : (s.missed p).rd Reg.RTE_ACTIVE_BANK = s.rd Reg.RTE_ACTIVE_BANK := by
    rw [State.missed, State.rd_bump_separate _ _ _ _ _ (by decide), State.rd_bump_separate _ _ _ _ _ (by decide)]
  have hbank : (s.missed p).bank = s.bank := (State.bank_congr hactive rfl rfl).1
  have hnot : (s.missed p).on Reg.FAB_PSTAT_DEAD p = false := by
    rw [State.on, State.missed, State.rd_bump_separate _ _ _ _ _ (by decide), State.rd_bump_separate _ _ _ _ _ (by decide)]
    exact hdead
  obtain ⟨halive, hhome, -, -⟩ := (s.missed p).neighbourDead_effect hp 0 hnot (s.idleToward_congr hidle rfl rfl rfl rfl) (by rw [hbank]; exact hroutes)
  refine ⟨_, ?_, halive, fun h r hroute => hhome h r (hbank ▸ hroute)⟩
  rw [exec_beatMiss hk hl, if_pos (by omega)]

/-! A link goes down. -/

/-- A port with its link's registers and its partner's state cleared. -/
def State.linkCleared (s : State) (p : Nat) : State :=
  let s := (((s.wr Reg.FAB_PSTAT_UP 0 p).wr Reg.FAB_PSTAT_SECURE 0 p).wr Reg.FAB_PSTAT_RETRAIN 0 p).wr Reg.FAB_PSTAT_KEY_SLOT 0 p
  let s := s.upPort p fun q =>
    { q with lastRx := none, nextTx := 0, rxSwitch := none, txSwitch := none, txAcked := false, ctl := [], spdm := 0 }
  (s.wr Reg.GATE_P_STAT_PWR pwrACTIVE p).upSp p fun q => { q with sleep := none, awaiting := none, lastReq := none }

/-- The fields that a link's clearing writes. -/
def linkFlds : List Fld := [Reg.FAB_PSTAT_UP, Reg.FAB_PSTAT_SECURE, Reg.FAB_PSTAT_RETRAIN, Reg.FAB_PSTAT_KEY_SLOT, Reg.GATE_P_STAT_PWR]

omit hk hdead hidle hroutes in
theorem State.rd_linkCleared (hp : p < 32) {g : Fld} {a b : Nat} (h : (linkFlds.all fun f => g.apart f) = true) (hg : g.lo < 32) (ha : a < g.n1)
    (hb : b < g.n2) : (s.linkCleared p).rd g a b = s.rd g a b := by
  obtain ⟨h1, h2, h3, h4, h5⟩ : g.apart Reg.FAB_PSTAT_UP = true ∧ g.apart Reg.FAB_PSTAT_SECURE = true ∧ g.apart Reg.FAB_PSTAT_RETRAIN = true ∧
    g.apart Reg.FAB_PSTAT_KEY_SLOT = true ∧ g.apart Reg.GATE_P_STAT_PWR = true := by simpa [linkFlds] using h
  unfold State.linkCleared
  dsimp only
  rw [State.rd_upSp, State.rd_wr_apart _ _ h5 (by decide) hg hp (by decide) ha hb, State.rd_upPort,
    State.rd_wr_apart _ _ h4 (by decide) hg hp (by decide) ha hb, State.rd_wr_apart _ _ h3 (by decide) hg hp (by decide) ha hb,
    State.rd_wr_apart _ _ h2 (by decide) hg hp (by decide) ha hb, State.rd_wr_apart _ _ h1 (by decide) hg hp (by decide) ha hb]

omit hk hdead hidle hroutes in
theorem State.linkCleared_status (hp : p < 32) : (s.linkCleared p).rd Reg.FAB_PSTAT_UP p = 0 ∧ (s.linkCleared p).rd Reg.FAB_PSTAT_SECURE p = 0 := by
  unfold State.linkCleared
  dsimp only
  rw [State.rd_upSp, State.rd_upSp, State.rd_wr_apart _ _ (by decide) (by decide) (by decide) hp (by decide) hp (by decide),
    State.rd_wr_apart _ _ (by decide) (by decide) (by decide) hp (by decide) hp (by decide), State.rd_upPort, State.rd_upPort]
  simp (disch := decide) only [State.rd_wr_separate, State.rd_wr_self]
  exact ⟨rfl, rfl⟩

omit hk in
theorem State.portDown_effect (hp : p < 32) : (s.portDown p).alive p = false ∧ (s.portDown p).rd Reg.FAB_PSTAT_UP p = 0 ∧
    (s.portDown p).rd Reg.FAB_PSTAT_SECURE p = 0 ∧ ((s.portDown p).port p).ctl = [] ∧ ((s.portDown p).port p).lastRx = none ∧
    ((s.portDown p).port p).nextTx = 0 := by
  have hdown : s.portDown p = (s.linkCleared p).neighbourDead p 1 := rfl
  have hactive : (s.linkCleared p).rd Reg.RTE_ACTIVE_BANK = s.rd Reg.RTE_ACTIVE_BANK :=
    State.rd_linkCleared hp (by decide) (by decide) (by decide) (by decide)
  have hbank : (s.linkCleared p).bank = s.bank := (State.bank_congr hactive rfl rfl).1
  have hnot : (s.linkCleared p).on Reg.FAB_PSTAT_DEAD p = false := by
    rw [State.on, State.rd_linkCleared hp (by decide) (by decide) hp (by decide)]
    exact hdead
  have hport : (s.linkCleared p).port p = { (s.port p) with
      lastRx := none, nextTx := 0, rxSwitch := none, txSwitch := none, txAcked := false, ctl := [], spdm := 0 } := by
    unfold State.linkCleared
    dsimp only
    rw [State.port_upSp, State.port_wr, State.port_upPort_self]
    rfl
  have hquiet : (s.linkCleared p).idleToward p := s.idleToward_congr hidle rfl (by rw [hport]) rfl rfl
  obtain ⟨hup, hsecure⟩ := s.linkCleared_status hp
  obtain ⟨halive, -, hrd, c, hdport⟩ := (s.linkCleared p).neighbourDead_effect hp 1 hnot hquiet (by rw [hbank]; exact hroutes)
  rw [hdown]
  generalize (s.linkCleared p).neighbourDead p 1 = t at halive hrd hdport
  rw [hdport, hport]
  exact ⟨halive, (hrd _ _ _ (by decide) hp (by decide) (by decide) (by decide)).trans hup,
    (hrd _ _ _ (by decide) hp (by decide) (by decide) (by decide)).trans hsecure, rfl, rfl, rfl⟩

end
end

/-- The state in which a port goes down: a loss recorded, a port that powers down marked. -/
def State.downNoted (s : State) (p : Nat) (cause : DownCause) : State :=
  let s := if cause == .lockLost && !s.on Reg.FAB_PSTAT_RETRAIN p then
      s.event { code := evLINK_LOSS, sev := sevWARN, health := true, params := [p], cls := clsPORT, inst := p }
    else s
  if cause == .poweredDown then s.upPort p fun q => { q with powered := false } else s

theorem State.downNoted_effect (s : State) (p : Nat) (cause : DownCause) : (s.downNoted p cause).xbr = s.xbr ∧
    ((s.downNoted p cause).port p).arriving = (s.port p).arriving ∧ (s.downNoted p cause).fab.eng = s.fab.eng ∧
    (s.downNoted p cause).red = s.red ∧
    ∀ g : Fld, (scoreFlds.all fun f => g.separate f) = true → ∀ a b, (s.downNoted p cause).rd g a b = s.rd g a b := by
  have hnoted : ∃ u, u = (if cause == .lockLost && !s.on Reg.FAB_PSTAT_RETRAIN p then
      s.event { code := evLINK_LOSS, sev := sevWARN, health := true, params := [p], cls := clsPORT, inst := p } else s) ∧
      s.onlyChanges u recordParts ∧ ∀ g : Fld, (scoreFlds.all fun f => g.separate f) = true → ∀ a b, u.rd g a b = s.rd g a b := by
    refine ⟨_, rfl, ?_, fun g hg a b => ?_⟩
    · split
      · exact (s.reportsOnly_event _).1
      · exact s.onlyChanges_refl _
    · split
      · exact s.rd_event_separate _ hg a b
      · rfl
  obtain ⟨u, hu, hparts, hrd⟩ := hnoted
  unfold State.downNoted
  dsimp only
  rw [← hu]
  have hport : u.port p = s.port p := congrArg (fun x : FabState => Tab.getD x.ports p {}) (hparts .fab (by decide))
  have heng : u.fab.eng = s.fab.eng := congrArg FabState.eng (hparts .fab (by decide))
  split
  · exact ⟨hparts .xbr (by decide), by rw [State.port_upPort_self, hport], heng, hparts .red (by decide), hrd⟩
  · exact ⟨hparts .xbr (by decide), by rw [hport], heng, hparts .red (by decide), hrd⟩

theorem exec_linkDown {s : State} {p : Nat} (hk : s.knawenPort p = true) (c : DownCause) :
    exec (.linkDown p c) s = .next ((s.downNoted p c).portDown p) :=
  congrArg Host.Outcome.next (if_neg (by rw [hk]; decide))

theorem exec_linkDown_effect {s : State} {p : Nat} (hk : s.knawenPort p = true) (c : DownCause) (hdead : s.on Reg.FAB_PSTAT_DEAD p = false)
    (hidle : s.idleToward p) (hroutes : ∀ r ∈ s.bank.routes, r.1 < 4096) : ∃ t, exec (.linkDown p c) s = .next t ∧ t.alive p = false ∧
    t.rd Reg.FAB_PSTAT_UP p = 0 ∧ t.rd Reg.FAB_PSTAT_SECURE p = 0 ∧ (t.port p).ctl = [] ∧ (t.port p).lastRx = none ∧ (t.port p).nextTx = 0 := by
  obtain ⟨hxbr, harr, heng, hred, hrd⟩ := s.downNoted_effect p c
  have hbank : (s.downNoted p c).bank = s.bank :=
    (State.bank_congr (hrd _ (by decide) _ _) (congrArg XbrState.bank0 hxbr) (congrArg XbrState.bank1 hxbr)).1
  have hnot : (s.downNoted p c).on Reg.FAB_PSTAT_DEAD p = false := by
    rw [State.on, hrd _ (by decide)]
    exact hdead
  exact ⟨_, exec_linkDown hk c,
    State.portDown_effect hnot (s.idleToward_congr hidle hxbr harr heng hred) (by rw [hbank]; exact hroutes) (port_lt_of_knawenPort hk)⟩

/-! A home revives. -/

theorem filter_range_eq {w b : Nat} (hb : b < w) : (List.range w).filter (fun k => decide (b = k)) = [b] := by
  induction w with
  | zero => omega
  | succ w ih =>
    rw [List.range_succ, List.filter_append]
    by_cases h : b = w
    · have hnil : (List.range w).filter (fun k => decide (b = k)) = [] := List.filter_eq_nil_iff.mpr fun k hk => by
        have := List.mem_range.mp hk
        rw [decide_eq_false (by omega)]
        decide
      rw [hnil, h, List.nil_append, List.filter_cons, if_pos (decide_eq_true rfl), List.filter_nil]
    · rw [ih (by omega), List.filter_cons, if_neg (by rw [decide_eq_false h]; decide), List.filter_nil, List.append_nil]

theorem bitList_two_pow {w b : Nat} (hb : b < w) : bitList w (2 ^ b) = [b] := by
  have hbit : ∀ k, bit (2 ^ b) k = decide (b = k) := fun k => by rw [bit_eq_testBit, Nat.testBit_two_pow]
  unfold bitList
  rw [show bit (2 ^ b) = fun k => decide (b = k) from funext hbit]
  exact filter_range_eq hb

section
variable {s : State} {a : Access} {i b : Nat} (ha : s.admitsWrite a (0x2200100 + 4 * i) = true) (hi : i < 128) (hb : b < 32)
include ha hi hb

theorem exec_fabDeadClear_bit : exec (.fabDeadClear a i (2 ^ b)) s =
    .next (if s.homeDead (32 * i + b) && (bitList 32 (s.routePorts (32 * i + b))).any s.alive then
      s.wr Reg.FAB_DEAD (setBits (s.rd Reg.FAB_DEAD i) b 1 0) i else s) := by
  refine congrArg Host.Outcome.next ?_
  unfold fabDeadClear
  rw [if_pos hi, State.window_admitted ha, State.deadClearOp, bitList_two_pow hb]
  rfl

theorem exec_fabDeadClear_revives (hdead : s.homeDead (32 * i + b) = true)
    (halive : (bitList 32 (s.routePorts (32 * i + b))).any s.alive = true) : ∃ t, exec (.fabDeadClear a i (2 ^ b)) s = .next t ∧
    t.homeDead (32 * i + b) = false ∧ s.onlyChanges t [.regs] ∧ s.regsKeptBut t [Reg.FAB_DEAD.key i 0] := by
  refine ⟨_, (exec_fabDeadClear_bit ha hi hb).trans (by rw [if_pos (by rw [hdead, halive]; rfl)]), ?_, s.onlyChanges_wr _ _ _ _ (by decide),
    s.regsKept_wr _ _ _ _ List.mem_cons_self⟩
  have hw : (32 * i + b) / 32 = i := by omega
  have hm : (32 * i + b) % 32 = b := by omega
  rw [State.homeDead, hw, hm, State.rd_wr_self _ _ _ _ _ (by decide), bit_mod_two_pow (w := Reg.FAB_DEAD.width) hb, bit_setBits_self _ _ (by decide)]
  rfl

theorem exec_fabDeadClear_none (halive : (bitList 32 (s.routePorts (32 * i + b))).any s.alive = false) :
    exec (.fabDeadClear a i (2 ^ b)) s = .next s :=
  (exec_fabDeadClear_bit ha hi hb).trans (by rw [if_neg (by rw [halive]; simp)])

end

/-! Training and securing. -/

section
variable {s : State} {p : Nat} (hk : s.knawenPort p = true)
include hk

theorem exec_linkRetrain (hup : s.on Reg.FAB_PSTAT_UP p = true) : exec (.linkRetrain p 0) s = .next (s.retrain p) := by
  refine congrArg Host.Outcome.next ((if_neg (by rw [hk, hup]; decide)).trans ?_)
  rfl

theorem exec_linkTrained_up (hpow : (s.port p).powered = true) (hup : s.on Reg.FAB_PSTAT_UP p = false) :
    ∃ t, exec (.linkTrained p (s.portCfg p).laneMode) s = .next t ∧ t.rd Reg.FAB_PSTAT_UP p = 1 ∧ t.rd Reg.FAB_PSTAT_RETRAIN p = 0 ∧
      s.onlyChanges t [.regs] ∧ s.regsKeptBut t [Reg.FAB_PSTAT_UP.key p 0, Reg.FAB_PSTAT_RETRAIN.key p 0] := by
  refine ⟨(s.wr Reg.FAB_PSTAT_UP 1 p).wr Reg.FAB_PSTAT_RETRAIN 0 p,
    congrArg Host.Outcome.next ((if_neg (by rw [hk, hpow, hup]; decide)).trans (if_neg (not_not_intro rfl))), ?_, ?_, ?_, ?_⟩
  · rw [State.rd_wr_separate _ _ _ _ _ (by decide), State.rd_wr_self _ _ _ _ _ (by decide)]
    rfl
  · rw [State.rd_wr_self _ _ _ _ _ (by decide)]
    rfl
  · exact State.onlyChanges_trans (s.onlyChanges_wr _ _ _ _ (by decide)) (State.onlyChanges_wr _ _ _ _ _ (by decide))
  · exact State.regsKept_trans (s.regsKept_wr _ _ _ _ List.mem_cons_self) (State.regsKept_wr _ _ _ _ _ (List.mem_cons_of_mem _ List.mem_cons_self))

theorem exec_linkTrained_otherMode (hpow : (s.port p).powered = true) (hup : s.on Reg.FAB_PSTAT_UP p = false) {m : Nat}
    (hm : m ≠ (s.portCfg p).laneMode) : ∃ t, exec (.linkTrained p m) s = .next t ∧ t.rd Reg.FAB_PSTAT_UP p = s.rd Reg.FAB_PSTAT_UP p ∧
      s.onlyChanges t recordParts ∧ s.regsKeptBut t recordKeys := by
  obtain ⟨hparts, hkeys⟩ :=
    s.reportsOnly_event { code := evLINK_MODE, sev := sevERROR, health := true, params := [p], cls := clsPORT, inst := p }
  exact ⟨_, congrArg Host.Outcome.next ((if_neg (by rw [hk, hpow, hup]; decide)).trans (if_pos hm)), s.rd_event_separate _ (by decide) _ _, hparts, hkeys⟩

variable {peer : PeerAuth} (hup : s.on Reg.FAB_PSTAT_UP p = true) (hsec : s.on Reg.FAB_PSTAT_SECURE p = false) (hent : s.entropy = true)
include hup hsec hent

theorem exec_linkSecure_secures (hpeer : s.peerRefused p peer = none) : ∃ t, exec (.linkSecure p peer) s = .next t ∧
    t.rd Reg.FAB_PSTAT_SECURE p = 1 ∧ t.rd Reg.FAB_PSTAT_KEY_SLOT p = 0 ∧ (t.port p).nextTx = 0 ∧ (t.port p).lastRx = none ∧
    s.onlyChanges t [.regs, .fab] := by
  have hrun : exec (.linkSecure p peer) s = .next (((s.wr Reg.FAB_PSTAT_SECURE 1 p).wr Reg.FAB_PSTAT_KEY_SLOT 0 p).upPort p fun q =>
      { q with lastRx := none, nextTx := 0, rxSwitch := none, txSwitch := none, txAcked := false, lastBeat := s.hclk }) := by
    refine congrArg Host.Outcome.next ((if_neg (by rw [hk, hup, hsec, hent]; decide)).trans ?_)
    simp only [hpeer]
  refine ⟨_, hrun, ?_, ?_, by rw [State.port_upPort_self], by rw [State.port_upPort_self], by simp [State.onlyChanges_iff]⟩
  · rw [State.rd_upPort, State.rd_wr_separate _ _ _ _ _ (by decide), State.rd_wr_self _ _ _ _ _ (by decide)]
    rfl
  · rw [State.rd_upPort, State.rd_wr_self _ _ _ _ _ (by decide)]
    rfl

theorem exec_linkSecure_refused {c : Nat} (hpeer : s.peerRefused p peer = some c) : ∃ t, exec (.linkSecure p peer) s = .next t ∧
    t.rd Reg.FAB_PSTAT_UP p = 0 ∧ (t.port p).powered = false ∧ t.rd Reg.FAB_PSTAT_SECURE p = s.rd Reg.FAB_PSTAT_SECURE p ∧
    t.rd Reg.SEC_CNT_LINK_AUTH = min (s.rd Reg.SEC_CNT_LINK_AUTH + 1) (2 ^ Reg.SEC_CNT_LINK_AUTH.width - 1) ∧
    s.onlyChanges t [.regs, .fab, .flt, .out, .host] := by
  obtain ⟨u, hu⟩ : ∃ u, u = (((s.upPort p fun q => { q with powered := false }).bump Reg.SEC_CNT_LINK_AUTH).wr Reg.FAB_PSTAT_UP 0 p).wr
    Reg.FAB_PSTAT_RETRAIN 0 p := ⟨_, rfl⟩
  have hrun : exec (.linkSecure p peer) s = .next (u.event
      { code := evLINK_AUTH, sev := sevERROR, health := true, params := [p, c], cls := clsPORT, inst := p }) := by
    refine congrArg Host.Outcome.next ((if_neg (by rw [hk, hup, hsec, hent]; decide)).trans ?_)
    simp only [hpeer, hu]
  obtain ⟨hparts, -⟩ := u.reportsOnly_event { code := evLINK_AUTH, sev := sevERROR, health := true, params := [p, c], cls := clsPORT, inst := p }
  have hframe : s.onlyChanges u [.regs, .fab] := by
    rw [hu]
    simp [State.onlyChanges_iff]
  have hport : ∀ r, ((u.event r).port p).powered = false := by
    intro r
    have hkept : (u.event r).port p = u.port p := congrArg (fun x : FabState => Tab.getD x.ports p {}) ((u.reportsOnly_event r).1 .fab (by decide))
    rw [hkept, hu, State.port_wr, State.port_wr, State.port_bump, State.port_upPort_self]
  refine ⟨_, hrun, ?_, hport _, ?_, ?_, (State.onlyChanges_mono hframe (by decide)).andThen hparts⟩
  all_goals
    rw [State.rd_event_separate _ _ (by decide), hu]
    simp (disch := decide) only [State.rd_wr_separate, State.rd_wr_self, State.rd_bump_separate, State.rd_bump_self, State.rd_upPort, Nat.zero_mod]

end

/-! LINK messages and key switches. -/

section
variable {s : State} {p : Nat} {k : Packet}

theorem exec_linkSpdm_answers (hhead : s.headLink p 1 = some k) (hside : s.spdmRequester p = false) {m : Bytes}
    (hm : m = Config.standardReply 0 (k.payload.take (k.arg / 256)) (s.port p).spdm) : ∃ t, exec (.linkSpdm p) s = .next t ∧
    (t.port p).ctl = (s.port p).ctl.drop 1 ∧
    t.out = s.out ++ [.frame p (s.port p).nextTx (linkPacket 1 m.length (padTo (roundUp m.length 64) m))] ∧
    s.onlyChanges t [.regs, .meters, .out, .fab] := by
  obtain ⟨hctl, hnext, hpop⟩ := s.popCtl_effect p
  obtain ⟨u, hu⟩ : ∃ u, u = (s.popCtl p).upPort p fun q => { q with spdm := q.spdm + 1 } := ⟨_, rfl⟩
  have hrun : exec (.linkSpdm p) s = .next (u.transmit p (linkPacket 1 m.length (padTo (roundUp m.length 64) m))) := by
    have huside : u.spdmRequester p = false := by rw [hu]; exact hside
    refine congrArg Host.Outcome.next ?_
    unfold linkSpdm
    simp only [hhead, ← hu, huside, ← hm]
    rfl
  obtain ⟨hout, ⟨x, y, hport⟩, -, hparts⟩ := u.transmit_effect p (linkPacket 1 m.length (padTo (roundUp m.length 64) m))
  have huparts : s.onlyChanges u [.fab] := by
    rw [hu]
    exact State.onlyChanges_trans hpop (by simp [State.onlyChanges_iff])
  have huport : (u.port p).ctl = (s.port p).ctl.drop 1 ∧ (u.port p).nextTx = (s.port p).nextTx := by
    rw [hu, State.port_upPort_self]
    exact ⟨hctl, hnext⟩
  obtain ⟨hc, hn⟩ := huport
  refine ⟨_, hrun, ?_, ?_, (State.onlyChanges_mono huparts (by decide)).andThen hparts⟩
  · rw [hport, hc]
  · rw [hout, hn, huparts .out (by decide)]

theorem exec_linkSpdm_requester (hhead : s.headLink p 1 = some k) (hside : s.spdmRequester p = true) : ∃ t, exec (.linkSpdm p) s = .next t ∧
    (t.port p).ctl = (s.port p).ctl.drop 1 ∧ (t.port p).spdm = (s.port p).spdm + 1 ∧ s.onlyChanges t [.fab] := by
  obtain ⟨hctl, -, hpop⟩ := s.popCtl_effect p
  have hspdm : ((s.popCtl p).port p).spdm = (s.port p).spdm := by rw [State.popCtl, State.port_upPort_self]
  refine ⟨(s.popCtl p).upPort p fun q => { q with spdm := q.spdm + 1 }, ?_, by rw [State.port_upPort_self, hctl], by rw [State.port_upPort_self, hspdm],
    State.onlyChanges_trans hpop (by simp [State.onlyChanges_iff])⟩
  refine congrArg Host.Outcome.next ?_
  unfold linkSpdm
  simp only [hhead]
  exact if_pos hside

theorem exec_keyUpdateStart_names (hk : s.knawenPort p = true) (hl : s.linkActive p = true) {n : Nat} (hnone : (s.port p).txSwitch = none)
    (hn : (s.port p).nextTx < n) (hside : s.spdmRequester p = false) : ∃ t, exec (.keyUpdateStart p n) s = .next t ∧
    (t.port p).txSwitch = some n ∧ (t.port p).txAcked = false ∧
    t.out = s.out ++ [.frame p (s.port p).nextTx (linkPacket 2 0 (padTo 64 (leBytes 8 n)))] ∧ s.onlyChanges t [.regs, .meters, .out, .fab] := by
  obtain ⟨u, hu⟩ : ∃ u, u = s.upPort p fun q => { q with txSwitch := some n, txAcked := false } := ⟨_, rfl⟩
  have hrun : exec (.keyUpdateStart p n) s = .next (u.transmit p (linkPacket 2 0 (padTo 64 (leBytes 8 n)))) := by
    refine congrArg Host.Outcome.next ((if_pos (by simp [hk, hl, hnone, hn])).trans ?_)
    rw [if_neg (by rw [hside]; decide), hu]
    rfl
  have hport : u.port p = { (s.port p) with txSwitch := some n, txAcked := false } := by rw [hu, State.port_upPort_self]
  have huparts : s.onlyChanges u [.fab] := by
    rw [hu]
    simp [State.onlyChanges_iff]
  obtain ⟨hout, -, -, hparts⟩ := u.transmit_effect p (linkPacket 2 0 (padTo 64 (leBytes 8 n)))
  have hwaits := u.transmit_waits (p := p) (linkPacket 2 0 (padTo 64 (leBytes 8 n))) (by rw [hport]; exact .inr rfl)
  refine ⟨_, hrun, by rw [hwaits, hport], by rw [hwaits, hport], ?_, (State.onlyChanges_mono huparts (by decide)).andThen hparts⟩
  rw [hout, hport, huparts .out (by decide)]

theorem exec_keySwitch_answers (hhead : s.headLink p 2 = some k) : ∃ t, exec (.keySwitch p) s = .next t ∧
    (t.port p).rxSwitch = some (fld k.payload 0 8) ∧ t.out = s.out ++ [.frame p (s.port p).nextTx (linkPacket 3 0 k.payload)] ∧
    s.onlyChanges t [.regs, .meters, .out, .fab] := by
  obtain ⟨-, hnext, hpop⟩ := s.popCtl_effect p
  obtain ⟨u, hu⟩ : ∃ u, u = (s.popCtl p).upPort p fun q => { q with rxSwitch := some (fld k.payload 0 8) } := ⟨_, rfl⟩
  have hrun : exec (.keySwitch p) s = .next (u.transmit p (linkPacket 3 0 k.payload)) := by
    refine congrArg Host.Outcome.next ?_
    unfold keySwitch
    simp only [hhead, hu]
    rfl
  have huparts : s.onlyChanges u [.fab] := by
    rw [hu]
    exact State.onlyChanges_trans hpop (by simp [State.onlyChanges_iff])
  have hn : (u.port p).nextTx = (s.port p).nextTx := by rw [hu, State.port_upPort_self, hnext]
  obtain ⟨hout, ⟨x, y, hport⟩, -, hparts⟩ := u.transmit_effect p (linkPacket 3 0 k.payload)
  refine ⟨_, hrun, ?_, ?_, (State.onlyChanges_mono huparts (by decide)).andThen hparts⟩
  · rw [hport, hu, State.port_upPort_self]
  · rw [hout, hn, huparts .out (by decide)]

/-! An acknowledged switch. -/

/-- The state with a switch's acknowledgement taken. -/
def State.ackTaken (s : State) (p : Nat) : State := (s.popCtl p).upPort p fun q => { q with txAcked := true }

theorem State.ackTaken_effect (s : State) (p : Nat) : ((s.ackTaken p).port p).txSwitch = (s.port p).txSwitch ∧
    ((s.ackTaken p).port p).txAcked = true ∧ ((s.ackTaken p).port p).nextTx = (s.port p).nextTx ∧ s.onlyChanges (s.ackTaken p) [.fab] := by
  obtain ⟨-, -, hpop⟩ := s.popCtl_effect p
  have hframe : s.onlyChanges (s.ackTaken p) [.fab] := State.onlyChanges_trans hpop (by simp [State.onlyChanges_iff, State.ackTaken])
  unfold State.ackTaken at hframe ⊢
  rw [State.port_upPort_self, State.popCtl, State.port_upPort_self]
  exact ⟨rfl, rfl, rfl, hframe⟩

theorem exec_keyAck_takes {n : Nat} (hhead : s.headLink p 3 = some k) (hn : n = fld k.payload 0 8) (ht : (s.port p).txSwitch = some n) :
    exec (.keyAck p) s = .next ((s.ackTaken p).txSwitched p) := by
  have hpopped : ((s.popCtl p).port p).txSwitch = some (fld k.payload 0 8) := by rw [State.popCtl, State.port_upPort_self, ← hn]; exact ht
  refine congrArg Host.Outcome.next ?_
  unfold keyAck
  simp only [hhead]
  exact if_pos hpopped

theorem exec_keyAck_switches {n : Nat} (hhead : s.headLink p 3 = some k) (hn : n = fld k.payload 0 8) (ht : (s.port p).txSwitch = some n)
    (hle : n ≤ (s.port p).nextTx) : ∃ t, exec (.keyAck p) s = .next t ∧ (t.port p).txSwitch = none ∧
    t.rd Reg.FAB_PSTAT_KEY_SLOT p = (1 - s.rd Reg.FAB_PSTAT_KEY_SLOT p) % 2 ^ Reg.FAB_PSTAT_KEY_SLOT.width ∧
    t.rd Reg.FAB_CNT_REKEY p = min (s.rd Reg.FAB_CNT_REKEY p + 1) (2 ^ Reg.FAB_CNT_REKEY.width - 1) ∧ s.onlyChanges t [.regs, .fab] ∧
    s.regsKeptBut t [Reg.FAB_PSTAT_KEY_SLOT.key p 0, Reg.FAB_CNT_REKEY.key p 0] := by
  obtain ⟨hswitch, hacked, hnext, hframe⟩ := s.ackTaken_effect p
  have hdone := State.txSwitched_done (hswitch.trans ht) hacked (by rw [hnext]; exact hle)
  have hregs : (s.ackTaken p).regs = s.regs := hframe .regs (by decide)
  have hrd : ∀ g a b, (s.ackTaken p).rd g a b = s.rd g a b := fun g a b => State.rd_congr hregs g a b
  rw [hrd] at hdone
  refine ⟨_, exec_keyAck_takes hhead hn ht, ?_, ?_, ?_, ?_, ?_⟩
  · rw [hdone, State.port_upPort_self]
  · rw [hdone, State.rd_upPort, State.rd_wr_self _ _ _ _ _ (by decide)]
  · rw [hdone, State.rd_upPort, State.rd_wr_separate _ _ _ _ _ (by decide), State.rd_bump_self _ _ _ _ _ (by decide), hrd]
  · exact (State.onlyChanges_mono hframe (by decide)).andThen ((s.ackTaken p).onlyChanges_txSwitched p)
  · rw [hdone]
    refine State.regsKept_trans (State.regsKept_of_regs hregs _) (State.regsKept_trans (State.regsKept_bump _ Reg.FAB_CNT_REKEY p 0 1 (by simp)) ?_)
    exact State.regsKept_trans (State.regsKept_wr _ _ _ _ _ List.mem_cons_self) (State.regsKept_of_regs rfl _)

theorem exec_keyAck_waits {n : Nat} (hhead : s.headLink p 3 = some k) (hn : n = fld k.payload 0 8) (ht : (s.port p).txSwitch = some n)
    (hlt : (s.port p).nextTx < n) : ∃ t, exec (.keyAck p) s = .next t ∧ (t.port p).txSwitch = some n ∧ (t.port p).txAcked = true ∧
    s.onlyChanges t [.fab] := by
  obtain ⟨hswitch, hacked, hnext, hframe⟩ := s.ackTaken_effect p
  have hwaits := State.txSwitched_waits (s := s.ackTaken p) (p := p) (.inr (.inr ⟨n, hswitch.trans ht, by rw [hnext]; exact hlt⟩))
  refine ⟨s.ackTaken p, ?_, hswitch.trans ht, hacked, hframe⟩
  rw [exec_keyAck_takes hhead hn ht, hwaits]

end

/-! Windows and trays. -/

theorem exec_ccWindowEnd_one {s : State} {h : Nat} {c : CcRate} (hcc : s.fab.cc = [(h, c)]) (hon : s.on Reg.FAB_CC_CTL_ENABLE = true) :
    ∃ t, exec .ccWindowEnd s = .next t ∧ s.onlyChanges t [.fab] ∧
      t.fab.cc = [(h, { r := if c.congested then c.r else min (s.lineMBps (s.enginePort h)) (c.r + s.rd Reg.FAB_CC_AI_MBPS),
                        decreased := false, congested := false })] := by
  refine ⟨_, rfl, by simp [State.onlyChanges_iff, ccWindowEnd], ?_⟩
  simp [ccWindowEnd, State.upFab, Tab.mapVals, hcc, hon]

theorem exec_trayLinkDown_down {s : State} {p : Nat} (hp : p < 32) (hrole : (s.portCfg p).role = roleTray)
    (hup : (s.trayRec (s.trayPort p)).up = true) (hmoves : s.pool.moves = []) : ∃ t, exec (.trayLinkDown p) s = .next t ∧
    (t.trayRec (s.trayPort p)).up = false ∧ (∀ q, q ≠ s.trayPort p → t.trayRec q = s.trayRec q) ∧ t.pool.extents = s.pool.extents ∧
    t.tray = s.tray ∧ s.onlyChanges t [.regs, .flt, .out, .host, .pool] := by
  obtain ⟨k, hk⟩ : ∃ k, k = s.trayPort p := ⟨_, rfl⟩
  obtain ⟨u, hu⟩ : ∃ u, u = s.upPool fun b => { b with trays := Tab.put b.trays k { Tab.getD b.trays k {} with up := false } } := ⟨_, rfl⟩
  obtain ⟨t, ht⟩ : ∃ t, t = u.event { code := evTRAY_DOWN, sev := sevERROR, health := true, params := [k, 0], cls := clsPORT, inst := k } := ⟨_, rfl⟩
  have hparts : u.onlyChanges t recordParts := ht ▸ (u.reportsOnly_event _).1
  have hpool : t.pool = u.pool := hparts .pool (by decide)
  have htmoves : t.pool.moves = [] := by rw [hpool, hu]; exact hmoves
  have hrun : exec (.trayLinkDown p) s = .next t := by
    refine congrArg Host.Outcome.next ((if_pos (by simp [portOk, hp, hrole, hup])).trans ?_)
    unfold State.trayDown
    rw [← hk]
    dsimp only
    rw [← hu, ← ht, htmoves]
    rfl
  have hframe : s.onlyChanges u [.pool] := by
    rw [hu]
    simp [State.onlyChanges_iff]
  rw [← hk]
  refine ⟨t, hrun, ?_, fun q hq => ?_, ?_, ?_, (State.onlyChanges_mono hframe (by decide)).andThen hparts⟩
  · simp [State.trayRec, hpool, hu, Tab.getD]
  · simp [State.trayRec, hpool, hu, Tab.getD, Tab.find?_put_ne _ _ hq]
  · rw [hpool, hu]
    rfl
  · rw [hparts .tray (by decide), hu]
    rfl

/-- Settles O9: each link command by what it leaves of its port, the deaths of homes by the neighbour's that reaches them. -/
theorem linksNeighboursKeysAndTraysFollow : Obligations.LinksNeighboursKeysAndTraysFollow := by
  unfold Obligations.LinksNeighboursKeysAndTraysFollow
  constructor
  · intro s p hk
    refine ⟨fun hl hf => ⟨_, exec_beatSend_sends hk hl hf, s.sendBeat_effect p⟩, fun k hhead => exec_linkBeat_alive hhead,
      fun hl hfew => exec_beatMiss_few hk hl hfew, fun hdead hv he ha heng hinsts hroutes => ?_,
      fun a i b ha hi hb hdead => ⟨exec_fabDeadClear_revives ha hi hb hdead, exec_fabDeadClear_none ha hi hb⟩, fun hup => ?_,
      fun hpow hup => ⟨exec_linkTrained_up hk hpow hup, fun m hm => exec_linkTrained_otherMode hk hpow hup hm⟩,
      fun peer hup hsec hent => ⟨exec_linkSecure_secures hk hup hsec hent, fun c => exec_linkSecure_refused hk hup hsec hent⟩⟩
    · have hidle : s.idleToward p := ⟨hv, he, ha, heng, hinsts⟩
      exact ⟨exec_beatMiss_third hk hdead hidle hroutes, fun c => exec_linkDown_effect hk c hdead hidle hroutes⟩
    · obtain ⟨hretrain, hdown, hrd, hparts, hkeys⟩ := s.retrain_effect p
      exact ⟨_, exec_linkRetrain hk hup, hdown, hretrain, hrd _ (by decide) p 0, hparts, hkeys⟩
  · intro s p hp
    refine ⟨fun k hhead hside => ?_, fun k => exec_linkSpdm_requester, fun n hk hl hnone hn hside => exec_keyUpdateStart_names hk hl hnone hn hside,
      fun k => exec_keySwitch_answers, fun k n hhead hn ht => ⟨exec_keyAck_switches hhead hn ht, exec_keyAck_waits hhead hn ht⟩,
      fun h c => exec_ccWindowEnd_one, exec_trayLinkDown_down hp⟩
    obtain ⟨t, hrun, hctl, hout, hframe⟩ := exec_linkSpdm_answers hhead hside rfl
    exact ⟨t, _, hrun, rfl, hctl, hout, hframe⟩

end Sys2Proof.Machine
end

section
/-!
PROOF. Fetch, acceptance, staging and the ring table (R282–R284, R288, R291–R294): a descriptor of a ring becomes a command that waits for staging, and
ring operations act on their pair alone.
-/
namespace Sys2Proof.Machine

/-! The ring table. -/

theorem State.ringEnd_effect (s : State) {st : Nat} (hst : st < 256) : (s.ringEnd st).rd Reg.CMD_RING_STATUS_STATUS = st ∧
    (s.ringEnd st).rd Reg.CMD_RING_STATUS_DONE = 1 ∧ s.onlyChanges (s.ringEnd st) [.regs] := by
  obtain ⟨h1, h2, h3, -⟩ := s.setEnd_effect (f := Reg.CMD_RING_STATUS_STATUS) (g := Reg.CMD_RING_STATUS_DONE) rfl rfl (by decide) hst
  exact ⟨h1, h2, h3⟩

/-- The state with an operation's code written. -/
def State.ringAsked (s : State) (code : Nat) : State := s.wr Reg.CMD_RING_OP_CODE code

theorem State.onlyChanges_ringAsked (s : State) (code : Nat) : s.onlyChanges (s.ringAsked code) [.regs] := s.onlyChanges_wr _ _ _ _ (by decide)

theorem State.rd_ringAsked (s : State) (code : Nat) {g : Fld} (h : g.separate Reg.CMD_RING_OP_CODE = true) (a b : Nat) :
    (s.ringAsked code).rd g a b = s.rd g a b := s.rd_wr_separate _ _ _ _ h a b

section
variable {s : State} {a : Access} (ha : s.admitsWrite a 0x800104 = true)
include ha

theorem exec_ringRead : exec (.ringRead a) s = .next (s.ringAsked 1).ringRead := congrArg Host.Outcome.next (State.window_admitted ha _)
theorem exec_ringRegister : exec (.ringRegister a) s = .next (s.ringAsked 2).ringRegister := congrArg Host.Outcome.next (State.window_admitted ha _)
theorem exec_ringUnregister : exec (.ringUnregister a) s = .next (s.ringAsked 3).ringUnregister := congrArg Host.Outcome.next (State.window_admitted ha _)
theorem exec_ringReset : exec (.ringReset a) s = .next (s.ringAsked 4).ringReset := congrArg Host.Outcome.next (State.window_admitted ha _)

end

theorem State.ringRead_effect {s : State} {r : Ring} (hr : r = s.ring (s.rd Reg.CMD_RING_INDEX_PAIR)) :
    s.ringRead.rd Reg.CMD_RING_DATA0 = r.sqBase % 2 ^ 32 ∧ s.ringRead.rd Reg.CMD_RING_DATA2 = r.cqBase % 2 ^ 32 ∧
    s.ringRead.rd Reg.CMD_RING_DATA4_STATE = r.state % 2 ^ Reg.CMD_RING_DATA4_STATE.width ∧
    s.ringRead.rd Reg.CMD_RING_DATA5_SQ_TAIL = r.sqTail % 65536 ∧ s.ringRead.rd Reg.CMD_RING_DATA5_FETCH_HEAD = r.fetchHead % 65536 ∧
    s.ringRead.rd Reg.CMD_RING_DATA6_CQ_TAIL = r.cqTail % 65536 ∧ s.ringRead.rd Reg.CMD_RING_DATA6_CQ_HEAD = r.cqHead % 65536 ∧
    s.ringRead.rd Reg.CMD_RING_STATUS_STATUS = stOK ∧ s.ringRead.rd Reg.CMD_RING_STATUS_DONE = 1 ∧ s.onlyChanges s.ringRead [.regs] := by
  have hmod : r.sqBase % 2 ^ 32 % 2 ^ 32 = r.sqBase % 2 ^ 32 ∧ r.cqBase % 2 ^ 32 % 2 ^ 32 = r.cqBase % 2 ^ 32 := ⟨Nat.mod_mod _ _, Nat.mod_mod _ _⟩
  unfold State.ringRead
  rw [← hr]
  dsimp only
  refine ⟨?_, ?_, ?_, ?_, ?_, ?_, ?_, (State.ringEnd_effect _ (by decide)).1, (State.ringEnd_effect _ (by decide)).2.1, ?_⟩
  · simp (disch := decide) only [State.ringEnd, State.setEnd, State.rd_wr_separate, State.rd_wr_self]
    exact hmod.1
  · simp (disch := decide) only [State.ringEnd, State.setEnd, State.rd_wr_separate, State.rd_wr_self]
    exact hmod.2
  · simp (disch := decide) only [State.ringEnd, State.setEnd, State.rd_wr_separate, State.rd_wr_self]
  · simp (disch := decide) only [State.ringEnd, State.setEnd, State.rd_wr_separate, State.rd_wr_self]
    rfl
  · simp (disch := decide) only [State.ringEnd, State.setEnd, State.rd_wr_separate, State.rd_wr_self]
    rfl
  · simp (disch := decide) only [State.ringEnd, State.setEnd, State.rd_wr_separate, State.rd_wr_self]
    rfl
  · simp (disch := decide) only [State.ringEnd, State.setEnd, State.rd_wr_separate, State.rd_wr_self]
    rfl
  · simp [State.onlyChanges_iff, State.ringEnd, State.setEnd]

/-- A byte of which no cell is kept reads 0. -/
theorem memRead_one_of_absent {m : List Host.Cell} {a : Nat} (h : ∀ c ∈ m, c.1 ≠ a) : memRead m a 1 = [0] := by
  unfold memRead
  cases hd : m.dropWhile fun c => decide (c.1 < a) with
  | nil => rfl
  | cons c l =>
    have hc : c ∈ m := (List.dropWhile_sublist _).subset (hd ▸ List.mem_cons_self)
    exact if_neg (h c hc)

theorem State.readTier_zeroTier (s : State) (tier : Nat) {a n b : Nat} (hb : b < n) : (s.zeroTier tier a n).readTier tier (a + b) 1 = [0] := by
  have hzero : ∀ m : List Host.Cell, memRead (memZero m a n) (a + b) 1 = [0] := fun m => by
    refine memRead_one_of_absent fun c hc => ?_
    have := (List.mem_filter.mp hc).2
    simp at this
    omega
  unfold State.zeroTier State.readTier
  split
  · exact hzero _
  · split
    · exact hzero _
    · exact hzero _

theorem State.readTier_congr {s t : State} (hn : t.near = s.near) (ht : t.tray = s.tray) (hh : t.host = s.host) (tier a n : Nat) :
    t.readTier tier a n = s.readTier tier a n := by
  unfold State.readTier
  rw [hn, ht, hh]

/-- A ring's completion queue zeroed. -/
def State.cqZeroed (s : State) (e : Extent) (cq cn : Nat) : State :=
  (s.zeroTier e.tier (e.at_ cq) cn).mendKeys (granKeys e.tier (e.at_ cq) cn)

theorem State.cqZeroed_effect (s : State) (e : Extent) (cq cn : Nat) : (∀ b, b < cn → (s.cqZeroed e cq cn).readTier e.tier (e.at_ cq + b) 1 = [0]) ∧
    s.onlyChanges (s.cqZeroed e cq cn) [.near, .tray, .host, .flt] := by
  refine ⟨fun b hb => s.readTier_zeroTier e.tier hb, ?_⟩
  unfold State.cqZeroed State.mendKeys State.zeroTier
  split
  · simp [State.onlyChanges_iff]
  · split <;> simp [State.onlyChanges_iff]

theorem State.ringRegister_ok {s : State} {p sq cq sl cl sn cn i j : Nat} {rec : PoliceRec} (hp : s.rd Reg.CMD_RING_INDEX_PAIR = p)
    (hst : (s.ring p).state = ringDISABLED) (hrec : Tab.find? s.cfg.police (p / 4) = some rec) (hvalid : rec.valid = true) (hfen : rec.fen < 64)
    (hsq : sq = (s.rd Reg.CMD_RING_DATA0 + 2 ^ 32 * (s.rd Reg.CMD_RING_DATA1 % 2 ^ 14)) / 4096 * 4096)
    (hcq : cq = (s.rd Reg.CMD_RING_DATA2 + 2 ^ 32 * (s.rd Reg.CMD_RING_DATA3 % 2 ^ 14)) / 4096 * 4096)
    (hsl : s.rd Reg.CMD_RING_DATA4_SQ_LOG2 = sl) (hcl : s.rd Reg.CMD_RING_DATA4_CQ_LOG2 = cl) (hsn : sn = 128 * 2 ^ sl) (hcn : cn = 32 * 2 ^ cl)
    (hsl4 : 4 ≤ sl) (hcl4 : 4 ≤ cl) (hapart : sq + sn ≤ cq ∨ cq + cn ≤ sq) (hi : s.ringExt rec.fen sq sn = some i)
    (hj : s.ringExt rec.fen cq cn = some j) (hmove : Tab.find? s.pool.moves j = none) :
    s.ringRegister = ((s.cqZeroed (s.ext j) cq cn).upRing p fun _ => { sqBase := sq, cqBase := cq, sqLog2 := sl, cqLog2 := cl, state := ringACTIVE
                                                                       fen := rec.fen, sqExt := i, cqExt := j }).ringEnd stOK := by
  have hmove' : Tab.find? (s.cqZeroed (s.ext j) cq cn).pool.moves j = none := by
    rw [(s.cqZeroed_effect (s.ext j) cq cn).2 .pool (by decide)]
    exact hmove
  subst hp hsq hcq hsl hcl hsn hcn
  refine (if_neg (by simp [hst])).trans ?_
  rw [hrec]
  refine (if_neg (by simp [hvalid]; omega)).trans ?_
  rw [hi, hj]
  unfold State.cqZeroed at hmove' ⊢
  dsimp only
  rw [hmove']

theorem State.upRing_congr {s : State} {p : Nat} {f g : Ring → Ring} (h : f (s.ring p) = g (s.ring p)) : s.upRing p f = s.upRing p g :=
  congrArg (fun r => s.upCmd fun b => { b with rings := Tab.put b.rings p r }) h

/-- A ring put in place of a pair, the operation ended. -/
theorem State.ringPut_effect (s : State) (p : Nat) (r : Ring) {t : State} (ht : t = (s.upRing p fun _ => r).ringEnd stOK) : t.ring p = r ∧
    (∀ k, k ≠ p → t.ring k = s.ring k) ∧ t.rd Reg.CMD_RING_STATUS_STATUS = stOK ∧ s.onlyChanges t [.regs, .cmd] := by
  obtain ⟨hstat, -, hframe⟩ := (s.upRing p fun _ => r).ringEnd_effect (st := stOK) (by decide)
  have hring : ∀ k, t.ring k = (s.upRing p fun _ => r).ring k := fun k =>
    congrArg (fun c : CmdState => Tab.getD c.rings k {}) (ht ▸ hframe .cmd (by decide))
  have hfirst : s.onlyChanges (s.upRing p fun _ => r) [.cmd] := by simp [State.onlyChanges_iff, State.upRing]
  refine ⟨by rw [hring, State.ring_upRing_self], fun k hk => by rw [hring, State.ring_upRing_ne _ _ hk], ht ▸ hstat, ?_⟩
  rw [ht]
  exact (State.onlyChanges_mono hfirst (by decide)).andThen hframe

section
variable {s : State} {a : Access} {p : Nat} {r : Ring} (ha : s.admitsWrite a 0x800104 = true) (hp : p = s.rd Reg.CMD_RING_INDEX_PAIR) (hr : r = s.ring p)
include ha hp hr

theorem exec_ringRead_effect : ∃ t, exec (.ringRead a) s = .next t ∧ t.rd Reg.CMD_RING_DATA0 = r.sqBase % 2 ^ 32 ∧
    t.rd Reg.CMD_RING_DATA2 = r.cqBase % 2 ^ 32 ∧ t.rd Reg.CMD_RING_DATA4_STATE = r.state % 2 ^ Reg.CMD_RING_DATA4_STATE.width ∧
    t.rd Reg.CMD_RING_DATA5_SQ_TAIL = r.sqTail % 65536 ∧ t.rd Reg.CMD_RING_DATA5_FETCH_HEAD = r.fetchHead % 65536 ∧
    t.rd Reg.CMD_RING_DATA6_CQ_TAIL = r.cqTail % 65536 ∧ t.rd Reg.CMD_RING_DATA6_CQ_HEAD = r.cqHead % 65536 ∧
    t.rd Reg.CMD_RING_STATUS_STATUS = stOK ∧ t.rd Reg.CMD_RING_STATUS_DONE = 1 ∧ s.onlyChanges t [.regs] := by
  have hr' : r = (s.ringAsked 1).ring ((s.ringAsked 1).rd Reg.CMD_RING_INDEX_PAIR) := by
    rw [s.rd_ringAsked 1 (by decide), ← hp]
    exact hr
  obtain ⟨h1, h2, h3, h4, h5, h6, h7, h8, h9, hframe⟩ := State.ringRead_effect hr'
  exact ⟨_, exec_ringRead ha, h1, h2, h3, h4, h5, h6, h7, h8, h9, State.onlyChanges_trans (s.onlyChanges_ringAsked 1) hframe⟩

omit ha hr in
theorem State.rd_index_ringAsked (code : Nat) : (s.ringAsked code).rd Reg.CMD_RING_INDEX_PAIR = p := by
  rw [s.rd_ringAsked code (by decide), hp]

/-- An operation that is refused shows its status alone. -/
theorem exec_ringRegister_retry (hst : r.state ≠ ringDISABLED) : ∃ t, exec (.ringRegister a) s = .next t ∧
    t.rd Reg.CMD_RING_STATUS_STATUS = stRETRY ∧ s.onlyChanges t [.regs] := by
  obtain ⟨hstat, -, hframe⟩ := (s.ringAsked 2).ringEnd_effect (st := stRETRY) (by decide)
  have hreg : (s.ringAsked 2).ringRegister = (s.ringAsked 2).ringEnd stRETRY := by
    refine if_pos ?_
    rw [s.rd_index_ringAsked hp, show (s.ringAsked 2).ring p = r from hr.symm]
    simpa using hst
  exact ⟨_, (exec_ringRegister ha).trans (by rw [hreg]), hstat, State.onlyChanges_trans (s.onlyChanges_ringAsked 2) hframe⟩

theorem exec_ringUnregister_ok (hst : r.state ≠ ringDISABLED) (hout : r.outstanding = 0) (hfen : r.fen < 64)
    (hstate : s.fenState r.fen = fenQUIESCED ∨ s.fenState r.fen = fenUNUSED) : ∃ t, exec (.ringUnregister a) s = .next t ∧ t.ring p = {} ∧
    (∀ k, k ≠ p → t.ring k = s.ring k) ∧ t.rd Reg.CMD_RING_STATUS_STATUS = stOK ∧ s.onlyChanges t [.regs, .cmd] := by
  have hfs : (s.ringAsked 3).fenState r.fen = s.fenState r.fen :=
    s.rd_wr_apart _ (by decide) (by decide) (by decide) (by decide) (by decide) hfen (by decide)
  have hring : (s.ringAsked 3).ring p = r := hr.symm
  have hun : (s.ringAsked 3).ringUnregister = ((s.ringAsked 3).upRing p fun _ => {}).ringEnd stOK := by
    unfold State.ringUnregister
    dsimp only
    rw [s.rd_index_ringAsked hp, hring, if_neg hst, hfs]
    exact if_neg (by rcases hstate with h | h <;> simp [hout, h])
  obtain ⟨h1, h2, h3, hframe⟩ := (s.ringAsked 3).ringPut_effect p {} rfl
  exact ⟨_, (exec_ringUnregister ha).trans (by rw [hun]), h1, h2, h3, (State.onlyChanges_mono (s.onlyChanges_ringAsked 3) (by decide)).andThen hframe⟩

theorem exec_ringReset_ok (hst : r.state = ringERROR) (hout : r.outstanding = 0) : ∃ t, exec (.ringReset a) s = .next t ∧
    t.ring p = { r with state := ringACTIVE, err := 0, sqTail := 0, fetchHead := 0, cqTail := 0, cqHead := 0, waits := [] } ∧
    (∀ k, k ≠ p → t.ring k = s.ring k) ∧ t.rd Reg.CMD_RING_STATUS_STATUS = stOK ∧ s.onlyChanges t [.regs, .cmd] := by
  have hring : (s.ringAsked 4).ring p = r := hr.symm
  have hput : ((s.ringAsked 4).upRing p fun r => { r with state := ringACTIVE, err := 0, sqTail := 0, fetchHead := 0, cqTail := 0, cqHead := 0, waits := [] }) =
      (s.ringAsked 4).upRing p fun _ => { r with state := ringACTIVE, err := 0, sqTail := 0, fetchHead := 0, cqTail := 0, cqHead := 0, waits := [] } :=
    State.upRing_congr (by rw [hring])
  have hre : (s.ringAsked 4).ringReset = ((s.ringAsked 4).upRing p fun _ =>
      { r with state := ringACTIVE, err := 0, sqTail := 0, fetchHead := 0, cqTail := 0, cqHead := 0, waits := [] }).ringEnd stOK := by
    rw [← hput]
    unfold State.ringReset
    dsimp only
    rw [s.rd_index_ringAsked hp, hring, if_neg (by rw [hst]; decide), if_neg (by rw [hout]; decide)]
    exact if_pos hst
  obtain ⟨h1, h2, h3, hframe⟩ := (s.ringAsked 4).ringPut_effect p
    { r with state := ringACTIVE, err := 0, sqTail := 0, fetchHead := 0, cqTail := 0, cqHead := 0, waits := [] } rfl
  exact ⟨_, (exec_ringReset ha).trans (by rw [hre]), h1, h2, h3, (State.onlyChanges_mono (s.onlyChanges_ringAsked 4) (by decide)).andThen hframe⟩

theorem exec_ringChange_retry {c : Instr} (hc : c = Instr.ringUnregister a ∨ c = Instr.ringReset a) (hst : r.state ≠ ringDISABLED) (hout : r.outstanding ≠ 0) :
    ∃ t, exec c s = .next t ∧ t.rd Reg.CMD_RING_STATUS_STATUS = stRETRY ∧ s.onlyChanges t [.regs] := by
  rcases hc with rfl | rfl
  · obtain ⟨hstat, -, hframe⟩ := (s.ringAsked 3).ringEnd_effect (st := stRETRY) (by decide)
    have hun : (s.ringAsked 3).ringUnregister = (s.ringAsked 3).ringEnd stRETRY := by
      unfold State.ringUnregister
      dsimp only
      rw [s.rd_index_ringAsked hp, show (s.ringAsked 3).ring p = r from hr.symm, if_neg hst]
      exact if_pos (by simp [hout])
    exact ⟨_, (exec_ringUnregister ha).trans (by rw [hun]), hstat, State.onlyChanges_trans (s.onlyChanges_ringAsked 3) hframe⟩
  · obtain ⟨hstat, -, hframe⟩ := (s.ringAsked 4).ringEnd_effect (st := stRETRY) (by decide)
    have hre : (s.ringAsked 4).ringReset = (s.ringAsked 4).ringEnd stRETRY := by
      unfold State.ringReset
      dsimp only
      rw [s.rd_index_ringAsked hp, show (s.ringAsked 4).ring p = r from hr.symm, if_neg hst]
      exact if_pos (by simp [hout])
    exact ⟨_, (exec_ringReset ha).trans (by rw [hre]), hstat, State.onlyChanges_trans (s.onlyChanges_ringAsked 4) hframe⟩

theorem exec_ringRegister_ok {sq cq sn cn i j : Nat} {rec : PoliceRec} (hst : r.state = ringDISABLED) (hrec : Tab.find? s.cfg.police (p / 4) = some rec)
    (hvalid : rec.valid = true) (hfen : rec.fen < 64) (hsq : sq = (s.rd Reg.CMD_RING_DATA0 + 2 ^ 32 * (s.rd Reg.CMD_RING_DATA1 % 2 ^ 14)) / 4096 * 4096)
    (hcq : cq = (s.rd Reg.CMD_RING_DATA2 + 2 ^ 32 * (s.rd Reg.CMD_RING_DATA3 % 2 ^ 14)) / 4096 * 4096)
    (hsn : sn = 128 * 2 ^ s.rd Reg.CMD_RING_DATA4_SQ_LOG2) (hcn : cn = 32 * 2 ^ s.rd Reg.CMD_RING_DATA4_CQ_LOG2)
    (hsl4 : 4 ≤ s.rd Reg.CMD_RING_DATA4_SQ_LOG2) (hcl4 : 4 ≤ s.rd Reg.CMD_RING_DATA4_CQ_LOG2) (hapart : sq + sn ≤ cq ∨ cq + cn ≤ sq)
    (hi : s.ringExt rec.fen sq sn = some i) (hj : s.ringExt rec.fen cq cn = some j) (hmove : Tab.find? s.pool.moves j = none) :
    ∃ t, exec (.ringRegister a) s = .next t ∧ t.ring p = { sqBase := sq, cqBase := cq, sqLog2 := s.rd Reg.CMD_RING_DATA4_SQ_LOG2
                                                           cqLog2 := s.rd Reg.CMD_RING_DATA4_CQ_LOG2, state := ringACTIVE, fen := rec.fen
                                                           sqExt := i, cqExt := j } ∧
      (∀ k, k ≠ p → t.ring k = s.ring k) ∧ (∀ b, b < cn → t.readTier (s.ext j).tier ((s.ext j).at_ cq + b) 1 = [0]) ∧
      t.rd Reg.CMD_RING_STATUS_STATUS = stOK ∧ s.onlyChanges t [.regs, .near, .tray, .host, .flt, .cmd] := by
  have hrd : ∀ g : Fld, g.separate Reg.CMD_RING_OP_CODE = true → (s.ringAsked 2).rd g = s.rd g := fun g hg => s.rd_ringAsked 2 hg 0 0
  have hreg := State.ringRegister_ok (s := s.ringAsked 2) (s.rd_index_ringAsked hp 2) (by rw [show (s.ringAsked 2).ring p = r from hr.symm]; exact hst) hrec
    hvalid hfen (by rw [hrd _ (by decide), hrd _ (by decide)]; exact hsq) (by rw [hrd _ (by decide), hrd _ (by decide)]; exact hcq)
    (hrd Reg.CMD_RING_DATA4_SQ_LOG2 (by decide)) (hrd Reg.CMD_RING_DATA4_CQ_LOG2 (by decide)) hsn hcn hsl4 hcl4 hapart hi hj hmove
  obtain ⟨hzero, hzframe⟩ := (s.ringAsked 2).cqZeroed_effect (s.ext j) cq cn
  have hzeroed : ((s.ringAsked 2).ext j) = s.ext j := rfl
  rw [hzeroed] at hreg
  generalize (s.ringAsked 2).cqZeroed (s.ext j) cq cn = z at hreg hzero hzframe
  obtain ⟨hring, hother, hstat, hframe⟩ := z.ringPut_effect p _ rfl
  refine ⟨_, (exec_ringRegister ha).trans (by rw [hreg]), hring, fun k hk => (hother k hk).trans ?_, fun b hb => ?_, hstat, ?_⟩
  · exact congrArg (fun c : CmdState => Tab.getD c.rings k {}) (hzframe .cmd (by decide))
  · rw [State.readTier_congr (hframe .near (by decide)) (hframe .tray (by decide)) (hframe .host (by decide))]
    exact hzero b hb
  · exact ((State.onlyChanges_mono (s.onlyChanges_ringAsked 2) (by decide)).andThen hzframe).andThen hframe

end

/-! Staging and NOP. -/

theorem exec_stagingAdmit_pick {s : State} {fen cid : Nat} {c : Cmd}
    (h : (((List.range 4).filterMap fun k => s.oldestWaiting fen k).find? fun c => s.stageFits fen c.2.cls c.2.base) = some (cid, c)) :
    exec (.stagingAdmit fen) s = .next (((s.upCid cid fun c => { c with phase := .ready, readyAt := s.hclk }).syncCmd fen).preempt) := by
  refine congrArg Host.Outcome.next ?_
  unfold stagingAdmit
  dsimp only
  rw [h]

theorem State.cmdOf_of_tableCmd {s : State} {cid op : Nat} {c : Cmd} (h : s.tableCmd cid op = some c) : s.cmdOf cid = some c := by
  unfold State.tableCmd at h
  cases hr : s.runningChunk cid 0 with
  | none => simp [hr] at h
  | some v =>
    obtain ⟨d, x, n⟩ := v
    simp only [hr] at h
    split at h
    · rw [Option.some.injEq] at h
      exact h ▸ (State.runningChunk_some hr).1
    · cases h

theorem State.cmdOf_upCid_self {s : State} {cid : Nat} {c : Cmd} (h : s.cmdOf cid = some c) (f : Cmd → Cmd) : (s.upCid cid f).cmdOf cid = some (f c) := by
  unfold State.cmdOf State.upCid State.upCmd at *
  simp [h]

theorem exec_nop_completes {s : State} {cid : Nat} {c : Cmd} (h : s.tableCmd cid 0x01 = some c) : ∃ u, exec (.nop cid) s = .next (u.finish cid stOK) ∧
    u.cmdOf cid = some { c with committed := 1 } ∧ s.onlyChanges u [.cmd] := by
  refine ⟨s.upCid cid fun c => { c with committed := 1 }, ?_, State.cmdOf_upCid_self (State.cmdOf_of_tableCmd h) _, s.onlyChanges_upCid _ _⟩
  refine congrArg Host.Outcome.next ?_
  unfold nop
  rw [h]

/-! Fetch. -/

/-- The state once a pair is served. -/
def State.served (s : State) (p : Nat) : State := s.upCmd fun b => { b with lastServed := Tab.put b.lastServed (pairClass p) p }

/-- The state once a pair's next descriptor is fetched. -/
def State.fetched (s : State) (p : Nat) : State :=
  ((s.served p).upRing p fun r => { r with fetchHead := (r.fetchHead + 1) % 65536, outstanding := r.outstanding + 1 }).bump Reg.CMD_CNT_ACCEPT

theorem State.fetched_effect (s : State) (p : Nat) :
    (s.fetched p).ring p = { (s.ring p) with fetchHead := ((s.ring p).fetchHead + 1) % 65536, outstanding := (s.ring p).outstanding + 1 } ∧
    (∀ k, k ≠ p → (s.fetched p).ring k = s.ring k) ∧
    (s.fetched p).rd Reg.CMD_CNT_ACCEPT = min (s.rd Reg.CMD_CNT_ACCEPT + 1) (2 ^ Reg.CMD_CNT_ACCEPT.width - 1) ∧
    s.onlyChanges (s.fetched p) [.regs, .cmd] := by
  refine ⟨State.ring_upRing_self (s.served p) p fun r => { r with fetchHead := (r.fetchHead + 1) % 65536, outstanding := r.outstanding + 1 },
    fun k hk => State.ring_upRing_ne (s.served p) (fun r => { r with fetchHead := (r.fetchHead + 1) % 65536, outstanding := r.outstanding + 1 }) hk,
    ?_, ?_⟩
  · exact State.rd_bump_self _ _ _ _ _ (by decide)
  · simp [State.onlyChanges_iff, State.fetched, State.served, State.upRing]

/-- The fields that a descriptor's checks read of the switch. -/
theorem State.descFields_fetched (s : State) (p : Nat) {fen : Nat} (b : Bytes) : (s.fetched p).descFields fen b = s.descFields fen b := by
  have hrd : ∀ g : Fld, g.separate Reg.CMD_CNT_ACCEPT = true → ∀ i, (s.fetched p).rd g i = s.rd g i := fun g hg i =>
    (State.rd_bump_separate _ _ _ _ _ hg _ _)
  have hatt : (s.fetched p).hasAtt = s.hasAtt := congrArg (· != 0) (hrd Reg.GLB_CAP_ATT (by decide) 0)
  have hshape : (s.fetched p).shape fen = s.shape fen := by
    unfold State.shape
    simp only [hrd Reg.ATT_SHAPE0_LAYERS (by decide), hrd Reg.ATT_SHAPE0_HQ (by decide), hrd Reg.ATT_SHAPE0_HKV (by decide),
      hrd Reg.ATT_SHAPE0_DCODE (by decide), hrd Reg.ATT_SHAPE0_KFMT (by decide), hrd Reg.ATT_SHAPE1_PB (by decide), hrd Reg.ATT_SHAPE1_TOPN (by decide),
      hrd Reg.ATT_SHAPE1_WB (by decide), hrd Reg.ATT_SCALE_VALUE (by decide)]
  unfold State.descFields State.hasShape
  rw [hatt, hshape, hrd Reg.ATT_SHAPE0_LAYERS (by decide)]

/-- A fetched descriptor taken through acceptance (R293). -/
def State.takenDesc (s : State) (c : Cmd) : State :=
  match firstBad (s.descFields c.fen c.desc) with
  | some o => s.refuseDesc c stMALFORMED o
  | none =>
    match s.acceptOp c with
    | .error (st, o) => s.refuseDesc c st o
    | .ok x => s.acceptDesc c x

section
variable {s : State} {p a : Nat} {r : Ring} {e : Extent} {d : Bytes} {c : Cmd} (hfrom : s.fetchFrom = some (p, r))
  (ha : a = r.sqBase + 128 * (r.fetchHead % 2 ^ r.sqLog2)) (he : e = s.ext r.sqExt)
include hfrom ha he

theorem exec_descriptorFetch_bad (hbad : s.badRange e.tier (e.at_ a) 128 = true) :
    exec .descriptorFetch s = .next (((s.served p).noteBad e.tier (e.at_ a) 128).ringError p) := by
  subst ha he
  refine congrArg Host.Outcome.next ?_
  unfold descriptorFetch
  simp only [hfrom]
  exact if_pos hbad

variable (hd : d = s.readTier e.tier (e.at_ a) 128)
  (hc : c = { pair := p, slot := r.fetchHead, fen := r.fen, clid := p / 4, cls := p % 4, opcode := fld d 0 1, ordered := bit (fld d 1 1) 0
              par := fld d 2 1, cmdId := fld d 4 4, desc := d, acceptedAt := s.hclk })
  (hgood : s.badRange e.tier (e.at_ a) 128 = false)
include hd hc hgood

theorem exec_descriptorFetch_good : exec .descriptorFetch s = .next ((s.fetched p).takenDesc c) := by
  subst ha he hc hd
  refine congrArg Host.Outcome.next ?_
  unfold descriptorFetch
  simp only [hfrom]
  refine (if_neg ?_).trans rfl
  rw [show (s.upCmd fun b => { b with lastServed := Tab.put b.lastServed (pairClass p) p }).badRange = s.badRange from rfl, hgood]
  decide

end

theorem State.takenDesc_malformed {s : State} {c : Cmd} {o : Nat} (h : firstBad (s.descFields c.fen c.desc) = some o) :
    s.takenDesc c = s.refuseDesc c stMALFORMED o := by
  simp only [State.takenDesc, h]

theorem State.takenDesc_accepted {s : State} {c : Cmd} {x : Accepted} (h : firstBad (s.descFields c.fen c.desc) = none) (hx : s.acceptOp c = .ok x) :
    s.takenDesc c = s.acceptDesc c x := by
  simp only [State.takenDesc, h, hx]

/-! Acceptance. -/

theorem State.ext_refs {s : State} (h : ∀ i, (s.ext i).rrefs < 65535 ∧ (s.ext i).wrefs < 65535) (rs ws : List Nat) :
    s.raiseRefs rs ws = some (ws.foldl (fun s i => s.upExt i fun e => { e with wrefs := e.wrefs + 1 })
      (rs.foldl (fun s i => s.upExt i fun e => { e with rrefs := e.rrefs + 1 }) s)) := by
  have hr : (rs.any fun i => decide (65535 ≤ (s.ext i).rrefs)) = false := by
    rw [List.any_eq_false]
    intro i _
    simp [(h i).1]
  have hw : (ws.any fun i => decide (65535 ≤ (s.ext i).wrefs)) = false := by
    rw [List.any_eq_false]
    intro i _
    simp [(h i).2]
  exact if_neg (by rw [hr, hw]; decide)

theorem State.abortMove_of_none {s : State} (h : s.pool.moves = []) (i st : Nat) : s.abortMove i st = s := by
  simp only [State.abortMove, h, Tab.find?_nil]

/-- The references of a command raised. -/
def State.refsRaised (s : State) (rs ws : List Nat) : State :=
  ws.foldl (fun s i => s.upExt i fun e => { e with wrefs := e.wrefs + 1 }) (rs.foldl (fun s i => s.upExt i fun e => { e with rrefs := e.rrefs + 1 }) s)

theorem State.refsRaised_effect (s : State) (rs ws : List Nat) : (s.refsRaised rs ws).pool.moves = s.pool.moves ∧
    (s.refsRaised rs ws).pool.xlates = s.pool.xlates ∧ s.onlyChanges (s.refsRaised rs ws) [.pool] := by
  refine ⟨?_, ?_, State.onlyChanges_trans (State.onlyChanges_foldl_upExt s _ _) (State.onlyChanges_foldl_upExt _ _ _)⟩
  all_goals
    unfold State.refsRaised
    rw [State.foldl_upExt, State.foldl_upExt]
    rfl

/-- The command that an accepted descriptor without a range of the host becomes. -/
def Cmd.accepted (c : Cmd) (x : Accepted) : Cmd :=
  { c with segs := x.segs, rrefs := x.rrefs, wrefs := x.wrefs, base := x.base, nchunks := x.nchunks, stages := x.stages, serial := x.serial
           result := x.result, phase := .staging }

theorem State.acceptDesc_near {s : State} {c : Cmd} {x : Accepted} (hhost : (x.segs.any fun g => g.tier == tierPENDING) = false)
    (hrefs : ∀ i, (s.ext i).rrefs < 65535 ∧ (s.ext i).wrefs < 65535) (hmoves : s.pool.moves = []) (hxl : s.pool.xlates = []) :
    s.acceptDesc c x = (((s.refsRaised x.rrefs x.wrefs).addCmd (c.accepted x)).1).syncCmd c.fen := by
  obtain ⟨hm, hx, -⟩ := s.refsRaised_effect x.rrefs x.wrefs
  rw [hmoves] at hm
  rw [hxl] at hx
  have haborts : x.wrefs.foldl (fun s i => s.abortMove i stABORTED) (s.refsRaised x.rrefs x.wrefs) = s.refsRaised x.rrefs x.wrefs :=
    foldl_of_fixed (fun i => State.abortMove_of_none hm i _) _
  have hnone : (x.segs.filter fun g => g.tier == tierPENDING) = [] := by
    rw [List.filter_eq_nil_iff]
    exact fun g hg => by simpa using List.any_eq_false.mp hhost g hg
  have hask : ∀ (u : State) (cid : Nat), u.askXlates cid x.segs = u := fun u cid => by
    unfold State.askXlates
    rw [hnone]
    rfl
  have hpost : ∀ u : State, u.pool.xlates = [] → u.postXlates = u := fun u hu => by
    unfold State.postXlates
    rw [hu]
    rfl
  have hform : ∀ w, w = x.wrefs.foldl (fun s i => s.abortMove i stABORTED) (s.refsRaised x.rrefs x.wrefs) →
      s.acceptDesc c x = ((((w.addCmd (c.accepted x)).1).askXlates (w.addCmd (c.accepted x)).2 x.segs).postXlates).syncCmd c.fen := by
    rintro w rfl
    unfold State.acceptDesc
    rw [State.ext_refs hrefs]
    refine (if_neg (by rw [hhost, Bool.false_and]; decide)).trans ?_
    simp only [hhost, Bool.false_eq_true, if_false]
    rfl
  rw [hform _ haborts.symm, hask, hpost ((s.refsRaised x.rrefs x.wrefs).addCmd (c.accepted x)).1 hx]

/-- What an accepted command leaves. -/
theorem State.acceptDesc_near_effect {s : State} {c : Cmd} {x : Accepted} (hhost : (x.segs.any fun g => g.tier == tierPENDING) = false)
    (hrefs : ∀ i, (s.ext i).rrefs < 65535 ∧ (s.ext i).wrefs < 65535) (hmoves : s.pool.moves = []) (hxl : s.pool.xlates = []) :
    (s.acceptDesc c x).cmdOf s.cmd.nextCid = some (c.accepted x) ∧ (∀ k, (s.acceptDesc c x).ring k = s.ring k) ∧
    s.onlyChanges (s.acceptDesc c x) [.regs, .pool, .cmd] := by
  obtain ⟨-, -, hraised⟩ := s.refsRaised_effect x.rrefs x.wrefs
  rw [State.acceptDesc_near hhost hrefs hmoves hxl]
  generalize s.refsRaised x.rrefs x.wrefs = u at hraised
  have hucmd : u.cmd = s.cmd := hraised .cmd (by decide)
  have hsync := ((u.addCmd (c.accepted x)).1).onlyChanges_syncCmd c.fen
  have hcmd : (((u.addCmd (c.accepted x)).1).syncCmd c.fen).cmd =
      { s.cmd with cmds := Tab.put s.cmd.cmds s.cmd.nextCid (c.accepted x), nextCid := s.cmd.nextCid + 1 } := by
    rw [hsync .cmd (by decide), ← hucmd]
    rfl
  refine ⟨?_, fun k => ?_, ?_⟩
  · rw [State.cmdOf, hcmd, Tab.find?_put_self]
  · rw [State.ring, hcmd]
    rfl
  · refine ((State.onlyChanges_mono hraised (by decide)).andThen (?_ : u.onlyChanges (u.addCmd (c.accepted x)).1 [.cmd])).andThen hsync
    simp [State.onlyChanges_iff, State.addCmd]

/-! A granule that cannot be read. -/

theorem State.noteBad_effect (s : State) (tier a n : Nat) : s.onlyChanges (s.noteBad tier a n) recordParts := by
  have hone : ∀ (u : State) (b : Nat), u.onlyChanges (u.memUe b 0) recordParts := fun u b =>
    State.onlyChanges_trans (State.onlyChanges_trans (u.onlyChanges_bump _ _ _ _ (by decide)) (State.chargesOnly_charge _ _ _ _ _ _ _).1)
      (State.reportsOnly_event _ _).1
  unfold State.noteBad
  split
  · exact s.onlyChanges_refl _
  · generalize (granKeys tier a n).filter s.badKey = ks
    induction ks generalizing s with
    | nil => exact s.onlyChanges_refl _
    | cons k ks ih => exact State.onlyChanges_trans (hone s _) (ih _)

theorem State.ringError_effect {s : State} {p : Nat} (h : (s.ring p).state ≠ ringERROR) :
    (s.ringError p).ring p = { (s.ring p) with state := ringERROR, err := stCHECK_FAIL } ∧ (∀ k, k ≠ p → (s.ringError p).ring k = s.ring k) ∧
    (s.ringError p).cmd.cmds = s.cmd.cmds := by
  unfold State.ringError
  rw [if_neg h]
  exact ⟨State.ring_upRing_self s p fun r => { r with state := ringERROR, err := stCHECK_FAIL },
    fun k hk => State.ring_upRing_ne s (fun r => { r with state := ringERROR, err := stCHECK_FAIL }) hk, rfl⟩

/-- Settles O31: each ring operation by the pair it puts, a fetch by the descriptor taken through acceptance. -/
theorem descriptorsAreFetchedAndAdmitted : Obligations.DescriptorsAreFetchedAndAdmitted := by
  unfold Obligations.DescriptorsAreFetchedAndAdmitted
  refine fun s => ⟨fun p r a e d c hfrom ha he hr hfen hd hc => ⟨fun hgood => ⟨fun o hfirst => ?_, fun u x hfirst hu hx hhost hrefs hmoves hxl => ?_⟩,
      fun hbad hst => ?_⟩, fun fen cid c h => ?_, fun cid c => exec_nop_completes, fun a p r ha hp hr => ?_⟩
  · obtain ⟨hring, hother, hcnt, hframe⟩ := s.fetched_effect p
    have hcfen : c.fen = r.fen ∧ c.desc = d := by rw [hc]; exact ⟨rfl, rfl⟩
    refine ⟨s.fetched p, ?_, by rw [hring, ← hr], by rw [hring, ← hr], hother, hcnt, hframe⟩
    rw [exec_descriptorFetch_good hfrom ha he hd hc hgood, State.takenDesc_malformed (o := o)]
    rw [s.descFields_fetched p, hcfen.1, hcfen.2, hfirst]
  · obtain ⟨hring, -, -, hframe⟩ := s.fetched_effect p
    have hcfen : c.fen = r.fen ∧ c.desc = d := by rw [hc]; exact ⟨rfl, rfl⟩
    have hu' : u = s.fetched p := hu
    rw [hu'] at hx
    have htaken := State.takenDesc_accepted (s := s.fetched p) (c := c) (x := x)
      (by rw [s.descFields_fetched p, hcfen.1, hcfen.2, hfirst]) hx
    obtain ⟨hcmd, hrings, hacc⟩ := State.acceptDesc_near_effect (s := s.fetched p) (c := c) hhost hrefs hmoves hxl
    refine ⟨_, (exec_descriptorFetch_good hfrom ha he hd hc hgood).trans (by rw [htaken]), hcmd, ?_, ?_, ?_⟩
    · rw [hrings, hring, ← hr]
    · rw [hrings, hring, ← hr]
    · exact (State.onlyChanges_mono hframe (by decide)).andThen hacc
  · have hnoted := (s.served p).noteBad_effect e.tier (e.at_ a) 128
    have hcmd : ((s.served p).noteBad e.tier (e.at_ a) 128).cmd = (s.served p).cmd := hnoted .cmd (by decide)
    have hrings : ∀ k, ((s.served p).noteBad e.tier (e.at_ a) 128).ring k = s.ring k := fun k =>
      (congrArg (fun c : CmdState => Tab.getD c.rings k {}) hcmd).trans rfl
    obtain ⟨hself, hother, hcmds⟩ := State.ringError_effect (s := (s.served p).noteBad e.tier (e.at_ a) 128) (p := p)
      (by rw [hrings, ← hr, hst]; decide)
    refine ⟨_, exec_descriptorFetch_bad hfrom ha he hbad, by rw [hself], by rw [hself], by rw [hself, hrings, ← hr],
      fun k hk => (hother k hk).trans (hrings k), hcmds.trans ((congrArg CmdState.cmds hcmd).trans rfl)⟩
  · exact ⟨_, exec_stagingAdmit_pick h, rfl, s.onlyChanges_upCid _ _⟩
  · exact ⟨exec_ringRead_effect ha hp hr, fun rec sq cq sn cn i j hst hrec hvalid hfen hsq hcq hsn hcn hsl hcl hapart hi hj hmove =>
        exec_ringRegister_ok ha hp hr hst hrec hvalid hfen hsq hcq hsn hcn hsl hcl hapart hi hj hmove,
      exec_ringRegister_retry ha hp hr, exec_ringUnregister_ok ha hp hr, exec_ringReset_ok ha hp hr,
      fun c hc => exec_ringChange_retry ha hp hr hc⟩

end Sys2Proof.Machine
end

section
/-!
PROOF. Chunks (R296, R301–R308, R311, R312): dispatched to a cluster, committed in order, aged, shielded and pre-empted; a REDUCE chunk takes its
reduction's outcome.
-/
namespace Sys2Proof.Machine

/-! Dispatch. -/

/-- A chunk as it is dispatched. -/
def Chunk.dispatched (x : Chunk) (cl now : Nat) (extra : Bool) : Chunk :=
  { x with phase := .running, cluster := cl, dispatchedAt := now, progress := now, extra := extra, late := [], timedOut := false }

/-- The state with a chunk on its cluster. -/
def State.onCluster (s : State) (cl cid k : Nat) (x y : Chunk) : State :=
  (s.upCid cid fun c => { c with chunks := Tab.put c.chunks k y, next := max c.next (k + 1), rerun := c.rerun || x.again }).upCmd fun b =>
    { b with running := Tab.put b.running cl (cid, k) }

/-- The waits of a dispatch noted: since the last kill on the cluster, and of a real-time chunk. -/
def State.waitsNoted (s : State) (cl : Nat) (w : Waiting) : State :=
  let s := match Tab.find? s.cmd.killedAt cl with
    | some t => (s.raise Reg.CMD_KILL_MAX_NS (s.sinceNs t)).upCmd fun b => { b with killedAt := Tab.del b.killedAt cl }
    | none => s
  if w.cls = 0 then s.raise Reg.CMD_RT_WAIT_MAX_NS (s.sinceNs w.readyAt) else s

theorem State.waitsNoted_effect (s : State) (cl : Nat) (w : Waiting) : (s.waitsNoted cl w).cmd.cmds = s.cmd.cmds ∧
    (s.waitsNoted cl w).cmd.running = s.cmd.running ∧ s.onlyChanges (s.waitsNoted cl w) [.regs, .cmd] := by
  obtain ⟨u, hu, hcmds, hrun, hframe⟩ : ∃ u, u = (match Tab.find? s.cmd.killedAt cl with
      | some t => (s.raise Reg.CMD_KILL_MAX_NS (s.sinceNs t)).upCmd fun b => { b with killedAt := Tab.del b.killedAt cl }
      | none => s) ∧ u.cmd.cmds = s.cmd.cmds ∧ u.cmd.running = s.cmd.running ∧ s.onlyChanges u [.regs, .cmd] := by
    refine ⟨_, rfl, ?_⟩
    cases Tab.find? s.cmd.killedAt cl with
    | none => exact ⟨rfl, rfl, s.onlyChanges_refl _⟩
    | some t =>
      have hr := s.onlyChanges_raise Reg.CMD_KILL_MAX_NS (s.sinceNs t) 0 0
      dsimp only
      generalize s.raise Reg.CMD_KILL_MAX_NS (s.sinceNs t) = v at hr
      have hcmd : v.cmd = s.cmd := hr .cmd (by decide)
      exact ⟨(congrArg CmdState.cmds hcmd :), (congrArg CmdState.running hcmd :),
        (State.onlyChanges_mono hr (by decide)).andThen (qs := [.cmd]) (by simp [State.onlyChanges_iff])⟩
  unfold State.waitsNoted
  rw [← hu]
  dsimp only
  split
  · have hr := u.onlyChanges_raise Reg.CMD_RT_WAIT_MAX_NS (u.sinceNs w.readyAt) 0 0
    have hcmd := hr .cmd (by decide)
    exact ⟨(congrArg CmdState.cmds hcmd).trans hcmds, (congrArg CmdState.running hcmd).trans hrun, hframe.andThen hr⟩
  · exact ⟨hcmds, hrun, hframe⟩

theorem exec_chunkDispatch_first {s : State} {cl : Nat} {w : Waiting} {c : Cmd} {x : Chunk} (hidle : s.idle cl = true) (hf : s.fatal = false)
    (hfirst : (s.waiting.find? fun w => (s.clustersOf w).contains cl &&
      (s.clustersOf w).all fun x => decide (cl ≤ x) || !s.idle x) = some w) (hc : s.cmdOf w.cid = some c)
    (hx : x = Tab.getD c.chunks w.k { readyAt := c.readyAt }) : exec (.chunkDispatch cl) s =
      .next ((((s.onCluster cl w.cid w.k x (x.dispatched cl s.hclk (c.needsExtra && c.src != 2))).waitsNoted cl w).syncCmd c.fen).preempt) := by
  subst hx
  refine congrArg Host.Outcome.next ((if_neg (by rw [hidle, hf]; decide)).trans ?_)
  dsimp only
  rw [hfirst]
  dsimp only
  rw [hc]
  rfl

theorem State.onCluster_effect {s : State} {cl cid k : Nat} {x y : Chunk} {c : Cmd} (hc : s.cmdOf cid = some c) :
    (s.onCluster cl cid k x y).cmdOf cid =
      some { c with chunks := Tab.put c.chunks k y, next := max c.next (k + 1), rerun := c.rerun || x.again } ∧
    (s.onCluster cl cid k x y).cmd.running = Tab.put s.cmd.running cl (cid, k) ∧ s.onlyChanges (s.onCluster cl cid k x y) [.cmd] :=
  ⟨State.cmdOf_upCid_self hc fun c => { c with chunks := Tab.put c.chunks k y, next := max c.next (k + 1), rerun := c.rerun || x.again }, rfl,
    by simp [State.onlyChanges_iff, State.onCluster, State.upCid]⟩

/-! Commit. -/

/-- A staged chunk committed: its results in the command, its entry gone. -/
def Cmd.committedWith (c : Cmd) (k res : Nat) (vals : List Nat) (flags : Nat) : Cmd :=
  { c with committed := k + 1, result := res, vals := vals, rflags := c.rflags ||| flags, chunks := Tab.del c.chunks k }

/-- The end of a commit: the command goes on or is complete. -/
def State.goesOn (u : State) (cid : Nat) (c : Cmd) : State := if c.committed + 1 < c.nchunks then u else u.finish cid stOK

section
variable {s : State} {cid : Nat} {c : Cmd} {x : Chunk} (hc : s.cmdOf cid = some c) (hf : s.fatal = false)
  (hx : Tab.find? c.chunks c.committed = some x) (hsrc : c.src = 0) (hstaged : x.phase = .staged)
include hc hf hx hsrc hstaged

/-- A staged chunk of a data command commits. -/
theorem exec_chunkCommit_data (hop : c.opcode = 0x18 ∨ c.opcode = 0x19 ∨ c.opcode = 0x1A ∨ c.opcode = 0x1B) : exec (.chunkCommit cid) s =
    .next (((s.dataCommit cid c.committed c x).syncCmd c.fen).preempt) := by
  refine congrArg Host.Outcome.next ?_
  unfold chunkCommit
  rw [hc]
  dsimp only
  rw [hf]
  simp only [Bool.false_eq_true, if_false, hx, hsrc, hstaged]
  rcases hop with h | h | h | h
  all_goals simp [h, isCkp]

/-- What a chunk with numbers to add leaves once its writes are performed. -/
theorem exec_chunkCommit_adds (hop : c.opcode = 0x18 ∨ c.opcode = 0x19 ∨ c.opcode = 0x1B) {v : StagedWrite} (hw : x.writes = [v])
    (htier : v.tier = tierNEAR) (hlen : 0 < v.data.length) (hgood : s.badRange tierNEAR v.at_ v.data.length = false) (hwf : Memory.wf s.near = true) :
    ∃ u d, exec (.chunkCommit cid) s = .next (((u.goesOn cid c).syncCmd c.fen).preempt) ∧
      memRead u.near v.at_ v.data.length = v.data ∧ (∀ b, (b < v.at_ ∨ v.at_ + v.data.length ≤ b) → memGet u.near b = memGet s.near b) ∧
      u.cmdOf cid = some d ∧ d.committed = c.committed + 1 ∧ d.result = c.result + x.vals.getD 0 0 ∧ d.rflags = c.rflags ||| x.flags ∧
      Tab.find? d.chunks c.committed = none ∧ s.onlyChanges u [.near, .flt, .cmd] := by
  obtain ⟨ks, hks⟩ := State.performWrite_good (s := s) (w := v) (by rw [htier]; exact hgood) hlen
  have hne : c.opcode ≠ 0x1A := by omega
  obtain ⟨z, hz⟩ : ∃ z, z = (s.mendKeys ks).writeTier tierNEAR v.at_ v.data := ⟨_, rfl⟩
  have hznear : z.near = memWrite s.near v.at_ v.data := by
    rw [hz]
    rfl
  have hzframe : s.onlyChanges z [.near, .flt] := by
    rw [hz]
    simp [State.onlyChanges_iff, State.mendKeys, State.writeTier]
  have hcz : z.cmdOf cid = some c := (congrArg (fun b : CmdState => Tab.find? b.cmds cid) (hzframe .cmd (by decide))).trans hc
  have hcommit : s.dataCommit cid c.committed c x = (z.upCid cid fun d => { d with
      committed := c.committed + 1, result := c.result + x.vals.getD 0 0, vals := c.vals, rflags := d.rflags ||| x.flags
      chunks := Tab.del d.chunks c.committed }).goesOn cid c := by
    unfold State.dataCommit
    rw [hw, List.foldl_cons, List.foldl_nil, hks, htier, ← hz]
    simp only [hne, if_false, decide_false, Bool.false_and, Bool.false_eq_true]
    rfl
  refine ⟨_, _, by rw [exec_chunkCommit_data hc hf hx hsrc hstaged (by omega), hcommit], ?_, fun b hb => ?_, State.cmdOf_upCid_self hcz _, rfl, rfl, rfl,
    Tab.find?_del_self _ _, ?_⟩
  · show memRead z.near _ _ = _
    rw [hznear, memRead_memWrite hwf]
  · show memGet z.near _ = _
    rw [hznear, memGet_write_outside _ _ _ _ hwf hb]
  · exact (State.onlyChanges_mono hzframe (by decide)).andThen (z.onlyChanges_upCid _ _)

/-- What a COMPARE's chunk leaves. -/
theorem exec_chunkCommit_compare (hop : c.opcode = 0x1A) (hw : x.writes = []) : ∃ u d,
    exec (.chunkCommit cid) s = .next (((u.goesOn cid c).syncCmd c.fen).preempt) ∧ u.cmdOf cid = some d ∧ d.committed = c.committed + 1 ∧
    (c.vals = [] → d.result = x.vals.headD c.result ∧ d.vals = x.vals) ∧ (c.vals ≠ [] → d.result = c.result ∧ d.vals = c.vals) ∧
    s.onlyChanges u [.cmd] := by
  obtain ⟨res, hres⟩ : ∃ res, res = (match x.vals with
    | o :: _ => if c.vals.isEmpty then o else c.result
    | [] => c.result) := ⟨_, rfl⟩
  have hcommit : s.dataCommit cid c.committed c x = (s.upCid cid fun d => { d with
      committed := c.committed + 1, result := res, vals := if c.vals.isEmpty then x.vals else c.vals, rflags := d.rflags ||| x.flags
      chunks := Tab.del d.chunks c.committed }).goesOn cid c := by
    unfold State.dataCommit
    rw [hw, hres]
    simp only [hop, if_true, decide_true, Bool.true_and, List.foldl_nil]
    rfl
  refine ⟨_, _, by rw [exec_chunkCommit_data hc hf hx hsrc hstaged (by omega), hcommit], State.cmdOf_upCid_self hc _, rfl, fun hv => ?_, fun hv => ?_,
    s.onlyChanges_upCid _ _⟩
  · refine ⟨?_, by simp [hv]⟩
    show res = _
    rw [hres, hv]
    cases x.vals <;> rfl
  · have hne : c.vals.isEmpty = false := by rwa [List.isEmpty_eq_false_iff]
    refine ⟨?_, by simp [hne]⟩
    show res = _
    rw [hres, hne]
    cases x.vals <;> rfl

end

/-! Ageing and shields. -/

theorem exec_chunkAge_raises {s : State} {cid k : Nat} {c : Cmd} {x : Chunk} (hc : s.cmdOf cid = some c)
    (hx : x = Tab.getD c.chunks k { readyAt := c.readyAt, ageFrom := c.readyAt }) (hphase : c.phase = .ready) (hnext : c.nextChunk = some k)
    (hcls : 1 + x.raises < c.cls) (hage : max 1 (s.rd Reg.CMD_AGE_US) ≤ s.sinceUs (max x.readyAt x.ageFrom)) :
    ∃ t, exec (.chunkAge cid k) s = .next t ∧
      (t.cmdOf cid).bind (fun d => Tab.find? d.chunks k) = some { x with raises := x.raises + 1, ageFrom := s.hclk } ∧
      t.rd Reg.CMD_CNT_AGED = min (s.rd Reg.CMD_CNT_AGED + 1) (2 ^ Reg.CMD_CNT_AGED.width - 1) ∧ s.onlyChanges t [.regs, .cmd] ∧
      s.regsKeptBut t [Reg.CMD_CNT_AGED.key 0 0] := by
  have hrun : exec (.chunkAge cid k) s = .next ((s.upCid cid fun c =>
      { c with chunks := Tab.put c.chunks k { x with raises := x.raises + 1, ageFrom := s.hclk } }).bump Reg.CMD_CNT_AGED) := by
    subst hx
    refine congrArg Host.Outcome.next ?_
    unfold chunkAge
    rw [hc]
    exact if_neg (by simp [hphase, hnext]; omega)
  have hcmd := State.cmdOf_upCid_self hc fun c => { c with chunks := Tab.put c.chunks k { x with raises := x.raises + 1, ageFrom := s.hclk } }
  refine ⟨_, hrun, ?_, State.rd_bump_self _ _ _ _ _ (by decide), ?_, ?_⟩
  · exact (congrArg (fun o : Option Cmd => o.bind fun d => Tab.find? d.chunks k) hcmd).trans (Tab.find?_put_self _ _ _)
  · exact (State.onlyChanges_mono (s.onlyChanges_upCid _ _) (by decide)).andThen (State.onlyChanges_bump (ps := [.regs]) _ _ _ _ _ (by decide))
  · exact State.regsKept_trans (State.regsKept_of_regs rfl _) (State.regsKept_bump _ _ _ _ _ List.mem_cons_self)

theorem exec_shieldLapse_ends {s : State} {cid t0 : Nat} {c : Cmd} (hc : s.cmdOf cid = some c) (hshield : c.shieldAt = some t0)
    (hlong : s.rd Reg.CMD_SHIELD_MAX_US ≤ s.sinceUs t0) (hquiet : s.fenQuiet c.fen = false) :
    ∃ u, exec (.shieldLapse cid) s = .next (u.preempt) ∧ u.cmdOf cid = some { c with shieldAt := none, kills := 0 } ∧
      u.rd Reg.CMD_CNT_LAPSE = min (s.rd Reg.CMD_CNT_LAPSE + 1) (2 ^ Reg.CMD_CNT_LAPSE.width - 1) ∧ s.onlyChanges u [.regs, .cmd] := by
  obtain ⟨u, hu⟩ : ∃ u, u = (s.upCid cid fun c => { c with shieldAt := none, kills := 0 }).bump Reg.CMD_CNT_LAPSE := ⟨_, rfl⟩
  have hstate : ∀ f, f < 64 → u.fenState f = s.fenState f := fun f hf => by
    rw [hu]
    exact State.rd_wr_apart _ _ (by decide) (by decide) (by decide) (by decide) (by decide) hf (by decide)
  have huquiet : u.fenQuiet c.fen = false := by
    unfold State.fenQuiet at hquiet ⊢
    by_cases hf : c.fen < 64
    · rwa [hstate _ hf]
    · simp [hf]
  have hrun : exec (.shieldLapse cid) s = .next u.preempt := by
    refine congrArg Host.Outcome.next ?_
    unfold shieldLapse
    rw [hc]
    dsimp only
    rw [hshield]
    refine (if_neg (by omega)).trans ?_
    rw [← hu, huquiet]
    rfl
  refine ⟨u, hrun, ?_, ?_, ?_⟩
  · rw [hu]
    exact State.cmdOf_upCid_self hc _
  · rw [hu]
    exact State.rd_bump_self _ _ _ _ _ (by decide)
  · rw [hu]
    exact (State.onlyChanges_mono (s.onlyChanges_upCid _ _) (by decide)).andThen (State.onlyChanges_bump (ps := [.regs]) _ _ _ _ _ (by decide))

/-! REDUCE takes its reduction's outcome. -/

section
variable {s : State} {cid k : Nat} {c : Cmd} {x : Chunk} {i : RedInst} (hruns : s.runsChunk cid k 0x21 c x) (hvals : x.vals ≠ [])
  (hinst : Tab.find? s.red.insts (redKey c.rTree (c.rTag k)) = some i)
include hruns hvals hinst

/-- The state with the time of the outcome kept. -/
def State.timed (s : State) (cid k t : Nat) : State := s.upCid cid fun c => { c with times := Tab.put c.times k t }

theorem exec_reduce_outcome : exec (.reduce cid k) s = .next (match i.outcome with
    | none => s
    | some (st, t) =>
      if st ≠ stOK then (s.timed cid k t).finish cid st
      else (s.timed cid k t).stage cid k fun x =>
        { x with writes := if c.ref1.zero then [] else
                   stagePieces (c.pieces 1 ((c.rRange k).1 * tySize c.rOtype) ((c.rRange k).2 * tySize c.rOtype)) (i.resultBytes (c.rRange k).2)
                 flags := i.flags, vals := [(c.rRange k).2] }) := by
  obtain ⟨⟨cl, hrun⟩, hop, hsrc, hto, -⟩ := hruns
  have hne : x.vals.isEmpty = false := by rwa [List.isEmpty_eq_false_iff]
  refine congrArg Host.Outcome.next ?_
  unfold reduce
  rw [hrun]
  simp only [hop, hsrc, hto, hne, hinst, ne_eq, not_true_eq_false, if_false, Bool.false_eq_true]
  cases i.outcome with
  | none => rfl
  | some o => rfl

theorem exec_reduce_waits (hout : i.outcome = none) : exec (.reduce cid k) s = .next s := by
  rw [exec_reduce_outcome hruns hvals hinst, hout]

theorem exec_reduce_ends {st t0 : Nat} (hout : i.outcome = some (st, t0)) (hst : st ≠ stOK) :
    ∃ u, exec (.reduce cid k) s = .next (u.finish cid st) ∧ s.onlyChanges u [.cmd] := by
  refine ⟨s.timed cid k t0, ?_, s.onlyChanges_upCid _ _⟩
  rw [exec_reduce_outcome hruns hvals hinst, hout]
  exact congrArg Host.Outcome.next (if_pos hst)

theorem exec_reduce_stages {t0 : Nat} (hout : i.outcome = some (stOK, t0)) (hzero : c.ref1.zero = false) : ∃ t, exec (.reduce cid k) s = .next t ∧
    s.stagedAs t cid k
      { x with writes := stagePieces (c.pieces 1 ((c.rRange k).1 * tySize c.rOtype) ((c.rRange k).2 * tySize c.rOtype))
                 (i.resultBytes (c.rRange k).2), flags := i.flags, vals := [(c.rRange k).2] } := by
  have hrun : exec (.reduce cid k) s = .next ((s.timed cid k t0).stage cid k fun x =>
      { x with writes := stagePieces (c.pieces 1 ((c.rRange k).1 * tySize c.rOtype) ((c.rRange k).2 * tySize c.rOtype))
                 (i.resultBytes (c.rRange k).2), flags := i.flags, vals := [(c.rRange k).2] }) := by
    rw [exec_reduce_outcome hruns hvals hinst, hout]
    simp only [ne_eq, not_true_eq_false, if_false, hzero, Bool.false_eq_true]
  obtain ⟨⟨cl, hrunning⟩, -, -, -, htest⟩ := hruns
  obtain ⟨hc, hx⟩ := State.runningChunk_some hrunning
  have hct : (s.timed cid k t0).cmdOf cid = some { c with times := Tab.put c.times k t0 } := State.cmdOf_upCid_self hc _
  obtain ⟨hstaged, hcluster, hframe⟩ := State.stage_effect (s := s.timed cid k t0) (k := k) (x := x) hct hx htest fun x =>
    { x with writes := stagePieces (c.pieces 1 ((c.rRange k).1 * tySize c.rOtype) ((c.rRange k).2 * tySize c.rOtype))
               (i.resultBytes (c.rRange k).2), flags := i.flags, vals := [(c.rRange k).2] }
  exact ⟨_, hrun, hstaged, hcluster, State.onlyChanges_trans (s.onlyChanges_upCid _ _) hframe⟩

end

/-! Pre-emption. -/

/-- A chunk put back to wait, its results discarded. -/
def Chunk.requeued (x : Chunk) : Chunk :=
  { x with phase := .waiting, extra := false, writes := [], again := true, raises := 0, work := {}, vals := [], blobs := [], status := 0, flags := 0
           late := [], timedOut := false }

theorem State.requeue_effect {s : State} {cid k : Nat} {c : Cmd} (hc : s.cmdOf cid = some c) :
    (s.requeue cid k).cmdOf cid = some { c with chunks := Tab.upd c.chunks k Chunk.requeued } ∧
    (s.requeue cid k).cmd.running = List.filter (fun r => r.2 != (cid, k)) s.cmd.running ∧
    (∀ g : Fld, (syncCmdFlds.all fun f => g.separate f) = true → ∀ a b, (s.requeue cid k).rd g a b = s.rd g a b) ∧
    s.onlyChanges (s.requeue cid k) [.regs, .cmd] := by
  obtain ⟨u, hu⟩ : ∃ u, u = (s.upChunk cid k Chunk.requeued).upCmd fun b => { b with running := List.filter (fun r => r.2 != (cid, k)) b.running } :=
    ⟨_, rfl⟩
  have hcu : u.cmdOf cid = some { c with chunks := Tab.upd c.chunks k Chunk.requeued } := by
    rw [hu]
    exact State.cmdOf_upChunk hc k Chunk.requeued
  have hform : s.requeue cid k = u.syncCmd c.fen := by
    have hmatch : s.requeue cid k = match u.cmdOf cid with
      | some c => u.syncCmd c.fen
      | none => u := by
      rw [hu]
      rfl
    rw [hmatch, hcu]
  have hsync := u.onlyChanges_syncCmd c.fen
  have hcmd : (u.syncCmd c.fen).cmd = u.cmd := hsync .cmd (by decide)
  have hframe : s.onlyChanges u [.cmd] := by
    rw [hu]
    simp [State.onlyChanges_iff, State.upChunk, State.upCid]
  rw [hform]
  refine ⟨?_, ?_, fun g hg a b => ?_, (State.onlyChanges_mono hframe (by decide)).andThen hsync⟩
  · exact (congrArg (fun b : CmdState => Tab.find? b.cmds cid) hcmd).trans hcu
  · rw [hcmd, hu]
    rfl
  · exact (u.rd_syncCmd_separate c.fen hg a b).trans (State.rd_congr (hframe .regs (by decide)) g a b)

/-- A command with one pre-emption kill more, not yet shielded. -/
def Cmd.preempted (c d : Cmd) : Cmd :=
  { d with kills := c.kills + 1, killsAll := satAdd c.killsAll 1 0xFFFF, shieldAt := c.shieldAt, shielded := d.shielded || false }

theorem State.preemptKill_effect {s : State} {cl cid k : Nat} {c : Cmd} {x : Chunk} (hrun : Tab.find? s.cmd.running cl = some (cid, k))
    (hc : s.cmdOf cid = some c) (hx : Tab.find? c.chunks k = some x) (hfen : c.fen < 64) (hkills : c.kills + 1 < s.rd Reg.CMD_KILL_LIMIT_COUNT) :
    ∃ d y, (s.preemptKill cl).cmdOf cid = some d ∧ d.kills = c.kills + 1 ∧
      Tab.find? d.chunks k = some y ∧ y.phase = .waiting ∧ y.writes = [] ∧ y.again = true ∧ d.committed = c.committed ∧
      (∀ r ∈ (s.preemptKill cl).cmd.running, r.2 ≠ (cid, k)) ∧
      (s.preemptKill cl).rd Reg.CMD_CNT_PREEMPT = min (s.rd Reg.CMD_CNT_PREEMPT + 1) (2 ^ Reg.CMD_CNT_PREEMPT.width - 1) ∧
      s.onlyChanges (s.preemptKill cl) [.regs, .cmd] := by
  obtain ⟨hcmd, hrunning, hrd, hframe⟩ := State.requeue_effect (k := k) hc
  have hlimit : ¬ (s.requeue cid k).rd Reg.CMD_KILL_LIMIT_COUNT ≤ c.kills + 1 := by
    rw [hrd _ (by decide)]
    omega
  have hform : s.preemptKill cl = (((((s.requeue cid k).upCid cid c.preempted).bump Reg.CMD_CNT_PREEMPT).bump Reg.CMD_FEN_CNT_PREEMPT c.fen).upCmd fun b => { b with killedAt := Tab.put b.killedAt cl (s.requeue cid k).hclk }) := by
    unfold State.preemptKill
    rw [hrun]
    dsimp only
    rw [hc]
    simp only [hlimit, decide_false, Bool.false_and, Bool.false_eq_true, if_false]
    rfl
  generalize s.requeue cid k = u at hcmd hrunning hrd hframe hform
  rw [hform]
  refine ⟨_, x.requeued, State.cmdOf_upCid_self hcmd c.preempted, rfl, (Tab.find?_upd_self _ _ _).trans (by rw [hx]; rfl), rfl, rfl, rfl, rfl,
    fun r hr => ?_, ?_, ?_⟩
  · have hr' : r ∈ u.cmd.running := hr
    rw [hrunning] at hr'
    simpa using (List.mem_filter.mp hr').2
  · rw [State.rd_upCmd]
    refine (State.rd_wr_apart _ _ (by decide) (by decide) (by decide) hfen (by decide) (by decide) (by decide)).trans ?_
    rw [State.rd_bump_self _ _ _ _ _ (by decide)]
    exact congrArg (fun n => min (n + 1) _) (hrd Reg.CMD_CNT_PREEMPT (by decide) 0 0)
  · refine hframe.andThen (?_ : u.onlyChanges _ [.regs, .cmd])
    simp [State.onlyChanges_iff, State.upCid]

/-- Settles O32: each chunk's command by what it leaves of the engine's tables. -/
theorem chunksDispatchCommitAndAge : Obligations.ChunksDispatchCommitAndAge := by
  unfold Obligations.ChunksDispatchCommitAndAge
  refine fun s => ⟨fun cl w c x hidle hf hfirst hc hx => ?_,
    fun cid c x v hc hf hx hsrc hst hop hw htier hlen hgood hwf => exec_chunkCommit_adds hc hf hx hsrc hst hop hw htier hlen hgood hwf,
    fun cid c x hc hf hx hsrc hst hop hw => exec_chunkCommit_compare hc hf hx hsrc hst hop hw,
    fun cid k c x hc hx hphase hnext hcls hage => exec_chunkAge_raises hc hx hphase hnext hcls hage,
    fun cid c t0 hc hsh hlong hq => exec_shieldLapse_ends hc hsh hlong hq,
    fun cid k c x i hruns hvals hinst => ⟨exec_reduce_waits hruns hvals hinst, fun st t0 => exec_reduce_ends hruns hvals hinst,
      fun t0 => exec_reduce_stages hruns hvals hinst⟩,
    fun cl cid k c x hrun hc hx hfen hkills => State.preemptKill_effect hrun hc hx hfen hkills⟩
  obtain ⟨hcmd, hrunning, hframe⟩ := State.onCluster_effect (cl := cl) (k := w.k) (x := x)
    (y := x.dispatched cl s.hclk (c.needsExtra && c.src != 2)) hc
  have hexec := exec_chunkDispatch_first hidle hf hfirst hc hx
  generalize s.onCluster cl w.cid w.k x (x.dispatched cl s.hclk (c.needsExtra && c.src != 2)) = v at hcmd hrunning hframe hexec
  obtain ⟨hncmds, hnrunning, hnframe⟩ := v.waitsNoted_effect cl w
  have hncmd : (v.waitsNoted cl w).cmdOf w.cid = v.cmdOf w.cid := by rw [State.cmdOf, hncmds, State.cmdOf]
  refine ⟨_, _, _, hexec, ?_, fun k hk => ?_, hncmd.trans hcmd, Tab.find?_put_self _ _ _, rfl, rfl, rfl, rfl, rfl, rfl,
    (State.onlyChanges_mono hframe (by decide)).andThen hnframe⟩
  · rw [hnrunning, hrunning, Tab.find?_put_self]
  · rw [hnrunning, hrunning, Tab.find?_put_ne _ _ hk]

end Sys2Proof.Machine
end

section
/-!
PROOF. The engines of exact reduction (R164, R176, R177): a packet handed to an engine, the charge of a chunk, and a packet that joins its reduction.
-/
namespace Sys2Proof.Machine

/-! A packet handed to an engine. -/

/-- The state with the packets handed to the engines left as `rest`. -/
def State.redPopped (s : State) (rest : List (Nat × QPkt)) : State := s.upFab fun b => { b with redq := rest }

theorem State.onlyChanges_redPopped (s : State) (rest : List (Nat × QPkt)) : s.onlyChanges (s.redPopped rest) [.fab] := by
  simp [State.onlyChanges_iff, State.redPopped]

theorem State.takeRed_first {s : State} {e op : Nat} {q : QPkt} {rest : List (Nat × QPkt)} (h : s.fab.redq = (e, q) :: rest)
    (hop : q.pkt.opcode = op) : s.takeRed e op = some (q, s.redPopped rest) := by
  have hfirst : (s.fab.redq.findIdx? fun x => x.1 == e && x.2.pkt.opcode == op) = some 0 := by simp [h, List.findIdx?_cons, hop]
  unfold State.takeRed
  rw [hfirst]
  simp [State.redPopped, State.upFab, h]

/-! The charge of a chunk. -/

/-- The fields that show an engine's use. -/
def engFlds : List Fld := Reg.RED_ENG_USED_BYTES :: wmRed.flds

/-- The state with an engine's use written and its watermark taken. -/
def State.engUsed (s : State) (v e : Nat) : State :=
  let u := s.wr Reg.RED_ENG_USED_BYTES v e
  u.measure wmRed (u.rd Reg.RED_ENG_USED_BYTES e) e

theorem State.onlyChanges_engUsed (s : State) (v e : Nat) : s.onlyChanges (s.engUsed v e) [.regs] :=
  State.onlyChanges_trans (s.onlyChanges_wr _ _ _ _ (by decide)) (State.onlyChanges_measure _ _ _ _ _)

theorem State.rd_engUsed_separate (s : State) (v e : Nat) {g : Fld} (h : (engFlds.all fun f => g.separate f) = true) (a b : Nat) :
    (s.engUsed v e).rd g a b = s.rd g a b := by
  obtain ⟨hused, hwm⟩ : g.separate Reg.RED_ENG_USED_BYTES = true ∧ (wmRed.flds.all fun f => g.separate f) = true := by
    simpa [engFlds] using h
  exact (State.rd_measure_separate _ _ _ _ _ hwm a b).trans (State.rd_wr_separate _ _ _ _ _ hused a b)

/-- A measure of a watermark leaves a field that lies apart from it as it was, at indices within the table. -/
theorem State.rd_measure_apart (s : State) (w : Wm) (q : Nat) {i j a b : Nat} {g : Fld}
    (h : (w.flds.all fun f => g.apart f && decide (f.lo < 32) && decide (i < f.n1) && decide (j < f.n2)) = true) (hg : g.lo < 32)
    (ha : a < g.n1) (hb : b < g.n2) : (s.measure w q i j).rd g a b = s.rd g a b := by
  have hwr : ∀ f ∈ w.flds, ∀ (u : State) (v : Nat), (u.wr f v i j).rd g a b = u.rd g a b := by
    intro f hf u v
    have hone := List.all_eq_true.mp h f hf
    simp only [Bool.and_eq_true, decide_eq_true_eq] at hone
    obtain ⟨⟨⟨hap, hlo⟩, hi⟩, hj⟩ := hone
    exact u.rd_wr_apart v hap hlo hg hi hj ha hb
  unfold State.measure
  simp only
  split
  · rfl
  · refine (hwr w.cross (by simp [Wm.flds]) _ _).trans ?_
    split
    · exact (hwr w.up (by simp [Wm.flds]) _ _).trans (hwr w.level (by simp [Wm.flds]) _ _)
    · exact (hwr w.down (by simp [Wm.flds]) _ _).trans (hwr w.level (by simp [Wm.flds]) _ _)

/-- Writing the use of one of the four engines leaves a field apart from its registers as it was. -/
theorem State.rd_engUsed_apart (s : State) (v : Nat) {e a b : Nat} {g : Fld} (he : e < 4)
    (h : (engFlds.all fun f => g.apart f) = true) (hg : g.lo < 32) (ha : a < g.n1) (hb : b < g.n2) : (s.engUsed v e).rd g a b = s.rd g a b := by
  obtain ⟨hused, hwm⟩ : g.apart Reg.RED_ENG_USED_BYTES = true ∧ (wmRed.flds.all fun f => g.apart f) = true := by simpa [engFlds] using h
  have hbounds : ∀ f ∈ wmRed.flds, f.lo < 32 ∧ f.n1 = 4 ∧ f.n2 = 1 := by decide
  refine (State.rd_measure_apart _ _ _ ?_ hg ha hb).trans (s.rd_wr_apart v hused (by decide) hg he (by decide) ha hb)
  refine List.all_eq_true.mpr fun f hf => ?_
  obtain ⟨hlo, hn1, hn2⟩ := hbounds f hf
  simp [List.all_eq_true.mp hwm f hf, hlo, hn1, hn2, he]

theorem State.redCharge_of_held {s : State} {k c e : Nat}
    (h : (Tab.getD (Tab.getD s.red.insts k {}).chunks c {}).engines.contains e = true) : s.redCharge k c e = some s := if_pos h

/-- A chunk charged to one more engine. -/
def State.redCharged (s : State) (k c e n : Nat) : State :=
  let u := s.upRChunk k c fun x => { x with engines := e :: x.engines }
  u.engUsed (u.rd Reg.RED_ENG_USED_BYTES e + n) e

theorem State.onlyChanges_upInst (s : State) (k : Nat) (f : RedInst → RedInst) : s.onlyChanges (s.upInst k f) [.red] := by
  simp [State.onlyChanges_iff, State.upInst]

theorem State.onlyChanges_upRChunk (s : State) (k c : Nat) (f : RedChunk → RedChunk) : s.onlyChanges (s.upRChunk k c f) [.red] :=
  s.onlyChanges_upInst k _

theorem State.inst_upInst_self {s : State} {k : Nat} {i : RedInst} (hi : Tab.find? s.red.insts k = some i) (f : RedInst → RedInst) :
    Tab.find? (s.upInst k f).red.insts k = some (f i) :=
  (Tab.find?_upd_self s.red.insts k f).trans (by rw [hi]; rfl)

/-- A chunk that its fen's quota has room for is charged to the engine. -/
theorem State.redCharge_effect {s : State} {k c e : Nat} {i : RedInst} (hi : Tab.find? s.red.insts k = some i)
    (hnew : (Tab.getD i.chunks c {}).engines.contains e = false)
    (hroom : s.redUsed i.fen e + chunkCharge i.typ ≤ s.rd Reg.RED_QUOTA i.fen) : ∃ u, s.redCharge k c e = some u ∧
    Tab.find? u.red.insts k = some { i with
      chunks := Tab.put i.chunks c { Tab.getD i.chunks c {} with engines := e :: (Tab.getD i.chunks c {}).engines } } ∧
    u.red.pend = s.red.pend ∧ u.rd Reg.RED_STAT_INST = s.rd Reg.RED_STAT_INST ∧ s.onlyChanges u [.regs, .red] := by
  have hget : Tab.getD s.red.insts k {} = i := by rw [Tab.getD, hi]; rfl
  refine ⟨s.redCharged k c e (chunkCharge i.typ), ?_, ?_, ?_, State.rd_engUsed_separate _ _ _ (by decide) _ _, ?_⟩
  · unfold State.redCharge
    dsimp only
    rw [hget, if_neg (by rw [hnew]; decide), if_neg (by omega)]
    rfl
  · have hred : (s.redCharged k c e (chunkCharge i.typ)).red = _ := State.onlyChanges_engUsed _ _ _ .red (by decide)
    rw [hred]
    exact State.inst_upInst_self hi _
  · exact congrArg (·.pend) (State.onlyChanges_engUsed _ _ _ .red (by decide) : (s.redCharged k c e _).red = _)
  · exact (State.onlyChanges_mono (s.onlyChanges_upRChunk k c _) (qs := [.regs, .red]) (by decide)).andThen (State.onlyChanges_engUsed _ _ _)

/-! A packet joins its reduction. -/

/-- A packet put among its port's pending ones. -/
def State.redPended (s : State) (p : Packet) (port : Nat) (cmd : Option (Nat × Nat)) : State :=
  s.upRed fun b => { b with pend := Tab.put b.pend port (Tab.getD b.pend port [] ++ [⟨p, port, cmd⟩]) }

theorem State.redPended_effect (s : State) (p : Packet) (port : Nat) (cmd : Option (Nat × Nat)) :
    (s.redPended p port cmd).red.insts = s.red.insts ∧
      Tab.find? (s.redPended p port cmd).red.pend port = some (Tab.getD s.red.pend port [] ++ [⟨p, port, cmd⟩]) ∧
      s.onlyChanges (s.redPended p port cmd) [.red] :=
  ⟨rfl, Tab.find?_put_self _ _ _, by simp [State.onlyChanges_iff, State.redPended]⟩

theorem State.redJoin_of_mismatch {s : State} {k port : Nat} {p : Packet} {cmd : Option (Nat × Nat)} {i : RedInst}
    (hi : Tab.find? s.red.insts k = some i) (hm : i.mismatch p = true) : s.redJoin k p port cmd = s.bump Reg.RED_CNT_MISMATCH := by
  unfold State.redJoin
  rw [Tab.getD, hi]
  exact if_pos hm

theorem State.redJoin_of_charged {s t : State} {k port : Nat} {p : Packet} {cmd : Option (Nat × Nat)} {i : RedInst}
    (hi : Tab.find? s.red.insts k = some i) (hm : i.mismatch p = false)
    (hc : (s.upInst k fun i => i.latch p).redCharge k (p.epos / tyE i.typ) (engineOf port) = some t) :
    s.redJoin k p port cmd = t.redPended p port cmd := by
  unfold State.redJoin
  rw [Tab.getD, hi]
  refine (if_neg (by rw [Option.getD_some, hm]; decide)).trans ?_
  dsimp only [Option.getD_some]
  rw [hc]
  rfl

/-- What LAST packets say of N changes nothing else of a reduction. -/
theorem RedInst.latch_eq (i : RedInst) (p : Packet) : ∃ a b, i.latch p = { i with lastPos := a, n := b } := by
  unfold RedInst.latch
  dsimp only
  split
  · exact ⟨_, _, rfl⟩
  · split
    · exact ⟨_, _, rfl⟩
    · exact ⟨_, _, rfl⟩

/-! A tree's use of an engine. -/

/-- The sum over a table's entries takes up an entry put for a new key. -/
theorem Tab.sum_put_of_none {α : Type} (g : Nat × α → Nat) {t : Tab α} {k : Nat} (v : α) (h : Tab.find? t k = none) :
    ((Tab.put t k v).map g).sum = g (k, v) + (List.map g t).sum := by
  induction t with
  | nil => simp [Tab.put]
  | cons x t ih =>
    obtain ⟨j, w⟩ := x
    by_cases hjk : j = k
    · simp [Tab.find?, hjk] at h
    · have ht : Tab.find? t k = none := by simpa [Tab.find?, hjk] using h
      have hkj : k ≠ j := fun e => hjk e.symm
      simp only [Tab.put, hkj, if_false]
      split
      · rfl
      · simp only [List.map_cons, List.sum_cons, ih ht]
        omega

/-- A change of a reduction that keeps its fen, type and chunks keeps every use. -/
theorem State.redUsed_upInst (s : State) (k fen e : Nat) {f : RedInst → RedInst}
    (h : ∀ i, (f i).fen = i.fen ∧ (f i).typ = i.typ ∧ (f i).chunks = i.chunks) : (s.upInst k f).redUsed fen e = s.redUsed fen e := by
  refine congrArg List.sum ((List.map_map).trans (List.map_congr_left fun x _ => ?_))
  obtain ⟨hfen, htyp, hchunks⟩ := h x.2
  dsimp only [Function.comp]
  split
  · rw [hfen, htyp, hchunks]
  · rfl

end Sys2Proof.Machine
end

section
/-!
PROOF. A packet reaches its engine of exact reduction (R164–R166, R177, R185, R190): it opens a reduction, joins one, meets an outcome, or is refused.
-/
namespace Sys2Proof.Machine

/-! A checked packet. -/

theorem exec_reduceContrib_checked {s : State} {e : Nat} {q : QPkt} {rest : List (Nat × QPkt)} (h : s.fab.redq = (e, q) :: rest)
    (hop : q.pkt.opcode = opREDUCE_CONTRIB) (hcheck : s.contribCheck q = (stOK, 0)) :
    exec (.reduceContrib e) s = .next ((s.redPopped rest).redAccept (Tab.getD s.cfg.trees q.pkt.tree {}) q.pkt q.conn none) := by
  refine congrArg Host.Outcome.next ?_
  unfold reduceContrib
  rw [State.takeRed_first h hop]
  dsimp only
  rw [show (s.redPopped rest).contribCheck q = (stOK, 0) from hcheck]
  rfl

theorem exec_reducePartial_checked {s : State} {e : Nat} {q : QPkt} {rest : List (Nat × QPkt)} (h : s.fab.redq = (e, q) :: rest)
    (hop : q.pkt.opcode = opREDUCE_PARTIAL) (hgood : firstBad (redFields s q.pkt) = none)
    (hvalid : (Tab.getD s.cfg.trees q.pkt.tree {}).valid = true) (hchild : bit (Tab.getD s.cfg.trees q.pkt.tree {}).childPorts q.conn = true) :
    exec (.reducePartial e) s = .next
      (if q.pkt.status = 0 then (s.redPopped rest).redAccept (Tab.getD s.cfg.trees q.pkt.tree {}) q.pkt q.conn none
       else match Tab.find? s.red.insts (redKey q.pkt.tree q.pkt.tag) with
        | some i =>
          if i.outcome.isSome then (s.redPopped rest).redReplay i q.pkt q.conn none
          else if i.mismatch q.pkt then (s.redPopped rest).bump Reg.RED_CNT_MISMATCH
          else if i.committed then s.redPopped rest
          else (s.redPopped rest).redEnd (redKey q.pkt.tree q.pkt.tag) q.pkt.status
        | none =>
          if 16384 ≤ s.red.insts.length then s.redPopped rest
          else ((s.redPopped rest).redOpen (Tab.getD s.cfg.trees q.pkt.tree {}) q.pkt).redEnd (redKey q.pkt.tree q.pkt.tag) q.pkt.status) := by
  refine congrArg Host.Outcome.next ?_
  unfold reducePartial
  rw [State.takeRed_first h hop]
  refine (if_neg ?_).trans rfl
  rw [show (s.redPopped rest).cfg = s.cfg from rfl, hvalid, hchild, show firstBad (redFields (s.redPopped rest) q.pkt) = none from hgood]
  decide

theorem State.redAccept_of_open {s : State} {t : TreeRec} {p : Packet} {port : Nat} {cmd : Option (Nat × Nat)} {i : RedInst}
    (hi : Tab.find? s.red.insts (redKey p.tree p.tag) = some i) (hopen : i.outcome = none) :
    s.redAccept t p port cmd = s.redJoin (redKey p.tree p.tag) p port cmd := by
  unfold State.redAccept
  simp only [hi, hopen]
  rfl

theorem State.redAccept_of_ended {s : State} {t : TreeRec} {p : Packet} {port : Nat} {cmd : Option (Nat × Nat)} {i : RedInst} {o : Nat × Nat}
    (hi : Tab.find? s.red.insts (redKey p.tree p.tag) = some i) (hended : i.outcome = some o) :
    s.redAccept t p port cmd = s.redReplay i p port cmd := by
  unfold State.redAccept
  simp only [hi, hended]
  rfl

theorem State.redAccept_of_new {s : State} {t : TreeRec} {p : Packet} {port : Nat} {cmd : Option (Nat × Nat)}
    (hi : Tab.find? s.red.insts (redKey p.tree p.tag) = none) (hroom : s.red.insts.length < 16384) :
    s.redAccept t p port cmd = (s.redOpen t p).redJoin (redKey p.tree p.tag) p port cmd := by
  unfold State.redAccept
  simp only [hi]
  exact if_neg (by omega)

/-- A partial of no tree here, or on a port that is no child's, is counted and dropped. -/
theorem exec_reducePartial_denied {s : State} {e : Nat} {q : QPkt} {rest : List (Nat × QPkt)} (h : s.fab.redq = (e, q) :: rest)
    (hop : q.pkt.opcode = opREDUCE_PARTIAL)
    (hbad : (Tab.getD s.cfg.trees q.pkt.tree {}).valid = false ∨ bit (Tab.getD s.cfg.trees q.pkt.tree {}).childPorts q.conn = false) :
    exec (.reducePartial e) s = .next ((s.redPopped rest).bump Reg.RED_CNT_DENIED) := by
  refine congrArg Host.Outcome.next ?_
  unfold reducePartial
  rw [State.takeRed_first h hop]
  refine (if_pos ?_).trans rfl
  rw [show (s.redPopped rest).cfg = s.cfg from rfl]
  rcases hbad with hvalid | hchild
  · simp [hvalid]
  · simp [hchild]

/-! A reduction opened. -/

/-- The reduction that a packet opens on a tree. -/
def State.redFresh (s : State) (t : TreeRec) (p : Packet) : RedInst :=
  { tree := p.tree, tag := p.tag, typ := p.ty, otype := p.oty, op := p.rop, cls := p.cls, fen := t.fen,
    exact := t.exact, root := t.root, seed := if t.stoch then some t.seed else none, deadlineUs := t.deadlineUs,
    expected := t.expected, memberPorts := t.memberPorts, childPorts := t.childPorts, parentHome := t.parentHome,
    homeEngine := t.homeEngine, openedAt := s.hclk }

theorem State.redOpen_effect {s : State} {t : TreeRec} {p : Packet} (hnone : Tab.find? s.red.insts (redKey p.tree p.tag) = none) :
    Tab.find? (s.redOpen t p).red.insts (redKey p.tree p.tag) = some (s.redFresh t p) ∧ (s.redOpen t p).red.pend = s.red.pend ∧
      (∀ fen e, (s.redOpen t p).redUsed fen e = s.redUsed fen e) ∧
      (s.redOpen t p).rd Reg.RED_STAT_INST = (s.rd Reg.RED_STAT_INST + 1) % 2 ^ Reg.RED_STAT_INST.width ∧
      (∀ fen, (s.redOpen t p).rd Reg.RED_QUOTA fen = s.rd Reg.RED_QUOTA fen) ∧ s.onlyChanges (s.redOpen t p) [.regs, .red] := by
  refine ⟨Tab.find?_put_self _ _ _, rfl, fun fen e => ?_, State.rd_wr_self _ _ _ _ _ (by decide),
    fun fen => State.rd_wr_separate _ _ _ _ _ (by decide) _ _, by simp [State.onlyChanges_iff, State.redOpen, State.inc]⟩
  refine (Tab.sum_put_of_none _ (s.redFresh t p) hnone).trans ?_
  simp [State.redFresh, State.redUsed]

/-- A fresh reduction agrees with a contribution that opened it. -/
theorem State.redFresh_mismatch (s : State) (t : TreeRec) (p : Packet) : (s.redFresh t p).mismatch p = false := by
  simp [State.redFresh, RedInst.mismatch]

/-- A packet that opens a reduction, its chunk charged, waits for its slots. -/
theorem State.redAccept_opens {s : State} {t : TreeRec} {p : Packet} {port : Nat}
    (hnone : Tab.find? s.red.insts (redKey p.tree p.tag) = none) (hlen : s.red.insts.length < 16384)
    (hroom : s.redUsed t.fen (engineOf port) + chunkCharge p.ty ≤ s.rd Reg.RED_QUOTA t.fen) : ∃ u,
    s.redAccept t p port none = u ∧
      Tab.find? u.red.insts (redKey p.tree p.tag) = some { (s.redFresh t p).latch p with
        chunks := [(p.epos / tyE p.ty, { engines := [engineOf port] })] } ∧
      Tab.find? u.red.pend port = some (Tab.getD s.red.pend port [] ++ [⟨p, port, none⟩]) ∧
      u.rd Reg.RED_STAT_INST = (s.rd Reg.RED_STAT_INST + 1) % 2 ^ Reg.RED_STAT_INST.width ∧ s.onlyChanges u [.regs, .red] := by
  obtain ⟨hinst, hpend, hused, hstat, hquota, hopen⟩ := s.redOpen_effect (t := t) hnone
  rw [State.redAccept_of_new hnone hlen]
  generalize s.redOpen t p = v at hinst hpend hused hstat hquota hopen
  have hlatched := State.inst_upInst_self hinst fun i => i.latch p
  have hsame : (v.upInst (redKey p.tree p.tag) fun i => i.latch p).redUsed t.fen (engineOf port) = v.redUsed t.fen (engineOf port) :=
    v.redUsed_upInst _ _ _ fun i => by
      obtain ⟨a, b, h⟩ := i.latch_eq p
      rw [h]
      exact ⟨rfl, rfl, rfl⟩
  have hfits : (v.upInst (redKey p.tree p.tag) fun i => i.latch p).redUsed t.fen (engineOf port) + chunkCharge p.ty ≤ v.rd Reg.RED_QUOTA t.fen := by
    rw [hsame, hused, hquota]
    exact hroom
  obtain ⟨a, b, hlatch⟩ := (s.redFresh t p).latch_eq p
  rw [hlatch] at hlatched ⊢
  obtain ⟨w, hcharge, hwinst, hwpend, hwstat, hparts⟩ := State.redCharge_effect (c := p.epos / tyE p.ty) (e := engineOf port) hlatched rfl
    hfits
  rw [State.redJoin_of_charged hinst (s.redFresh_mismatch t p) hcharge]
  obtain ⟨hpi, hpp, hpo⟩ := w.redPended_effect p port none
  refine ⟨_, rfl, by rw [hpi, hwinst]; rfl, ?_, hwstat.trans hstat, ?_⟩
  · rw [hpp, hwpend, State.upInst, State.upRed, hpend]
  · have hall := (State.onlyChanges_mono (v.onlyChanges_upInst (redKey p.tree p.tag) fun i => i.latch p) (qs := [.regs, .red])
      (by decide)).andThen hparts
    exact (hopen.andThen hall).andThen hpo

/-! A packet of a reduction that there is. -/

/-- A packet that fits an open reduction, its chunk charged already, waits for its slots. -/
theorem State.redAccept_joins {s : State} {t : TreeRec} {p : Packet} {port : Nat} {i : RedInst}
    (hi : Tab.find? s.red.insts (redKey p.tree p.tag) = some i) (hopen : i.outcome = none) (hfits : i.mismatch p = false)
    (hheld : (Tab.getD i.chunks (p.epos / tyE i.typ) {}).engines.contains (engineOf port) = true) : ∃ u,
    s.redAccept t p port none = u ∧ Tab.find? u.red.insts (redKey p.tree p.tag) = some (i.latch p) ∧
      Tab.find? u.red.pend port = some (Tab.getD s.red.pend port [] ++ [⟨p, port, none⟩]) ∧ s.onlyChanges u [.red] := by
  have hlatched := State.inst_upInst_self hi fun i => i.latch p
  have hget : Tab.getD (s.upInst (redKey p.tree p.tag) fun i => i.latch p).red.insts (redKey p.tree p.tag) {} = i.latch p := by
    rw [Tab.getD, hlatched]
    rfl
  have hchunks : (i.latch p).chunks = i.chunks := by
    obtain ⟨a, b, h⟩ := i.latch_eq p
    rw [h]
  have hcharge := State.redCharge_of_held (k := redKey p.tree p.tag) (c := p.epos / tyE i.typ) (e := engineOf port)
    (s := s.upInst (redKey p.tree p.tag) fun i => i.latch p) (by rw [hget, hchunks]; exact hheld)
  refine ⟨_, rfl, ?_⟩
  rw [State.redAccept_of_open hi hopen, State.redJoin_of_charged hi hfits hcharge]
  exact ⟨hlatched, Tab.find?_put_self _ _ _, by simp [State.onlyChanges_iff, State.redPended, State.upInst]⟩

/-- A contribution to a reduction that ended without OK is answered with its status. -/
theorem State.redReplay_effect {s : State} {i : RedInst} {p : Packet} {port st t0 o : Nat} {res : Packet} (hended : i.outcome = some (st, t0))
    (hst : st ≠ stOK) (hop : p.opcode = opREDUCE_CONTRIB) (hres : res = s.resultPacket i (senderOf p port none) p.epos st 0 true [])
    (hpath : s.clearPath res o) : ∃ u, s.redReplay i p port none = u ∧ u.voq connHE0 o res.queue = s.voqWith o res ∧ u.red = s.red ∧
      u.rd Reg.RED_CNT_REPLAY = min (s.rd Reg.RED_CNT_REPLAY + 1) (2 ^ Reg.RED_CNT_REPLAY.width - 1) ∧ s.onlyChanges u [.regs, .xbr] := by
  have hchild : (senderOf p port none).child = false := by simp [senderOf, hop, opREDUCE_CONTRIB, opREDUCE_PARTIAL]
  have hbumped : (s.bump Reg.RED_CNT_REPLAY).resultPacket i (senderOf p port none) p.epos st 0 true [] = res := by
    rw [hres, State.resultPacket, State.resultPacket, State.endpoint, State.endpoint, State.rd_bump_separate _ _ _ _ _ (by decide)]
  have hreplay : s.redReplay i p port none = (s.bump Reg.RED_CNT_REPLAY).send connHE0 res := by
    unfold State.redReplay
    simp only [hended]
    refine (if_pos hst).trans ?_
    rw [hchild, ← hbumped]
    rfl
  refine ⟨_, rfl, ?_⟩
  rw [hreplay, State.send_of_clearPath (State.clearPath_bump hpath (by decide) 0 0 1)]
  refine ⟨State.voq_voqPush _ _ _, rfl, State.rd_bump_self s Reg.RED_CNT_REPLAY 0 0 1 (by decide), ?_⟩
  exact (s.onlyChanges_bump Reg.RED_CNT_REPLAY 0 0 1 (by decide) : s.onlyChanges _ [.regs, .xbr]).andThen
    (State.onlyChanges_voqPush _ _ _)

/-- A contribution that fails its checks is answered, with the count of its kind. -/
theorem exec_reduceContrib_refused {s : State} {e : Nat} {q : QPkt} {rest : List (Nat × QPkt)} {st off : Nat} (h : s.fab.redq = (e, q) :: rest)
    (hop : q.pkt.opcode = opREDUCE_CONTRIB) (hcheck : s.contribCheck q = (st, off)) (hst : st ≠ stOK) :
    exec (.reduceContrib e) s = .next ((if st = stMALFORMED then (s.redPopped rest).bump Reg.RED_CNT_MALFORMED
      else if st = stKEY_DENIED then (s.redPopped rest).bump Reg.RED_CNT_DENIED else s.redPopped rest).answerContrib q.pkt st off) := by
  refine congrArg Host.Outcome.next ?_
  unfold reduceContrib
  rw [State.takeRed_first h hop]
  dsimp only
  rw [show (s.redPopped rest).contribCheck q = (st, off) from hcheck]
  exact if_neg hst

/-- A counter counts one more once the packet is taken. -/
theorem State.redPopped_bump_effect (s : State) (rest : List (Nat × QPkt)) (f : Fld) (h : f.width ≤ 32) :
    ((s.redPopped rest).bump f).rd f = min (s.rd f + 1) (2 ^ f.width - 1) ∧ s.onlyChanges ((s.redPopped rest).bump f) [.regs, .fab] ∧
      s.regsKeptBut ((s.redPopped rest).bump f) [f.key 0 0] :=
  ⟨State.rd_bump_self (s.redPopped rest) f 0 0 1 h,
    (State.onlyChanges_mono (s.onlyChanges_redPopped rest) (qs := [.regs, .fab]) (by decide)).andThen
      (State.onlyChanges_bump _ f 0 0 1 (ps := [.regs]) (by decide)),
    State.regsKept_bump (s.redPopped rest) f 0 0 1 (by simp)⟩

/-- Settles O26: each command takes the first packet handed to its engine, and the checks of R165 and what the packet's reduction holds say
what becomes of it. -/
theorem contributionsOpenAndJoinInstances : Obligations.ContributionsOpenAndJoinInstances := by
  unfold Obligations.ContributionsOpenAndJoinInstances
  rintro s e q rest tr k hred - rfl rfl
  have hpop := s.onlyChanges_redPopped rest
  refine ⟨fun hop => ⟨fun hcheck hnone hlen hroom => ?_, ?_, ?_⟩, fun hop hbad => ?_, fun cmd i hcmd hi => ?_, ?_⟩
  · obtain ⟨u, hu, hinst, hpend, hstat, hparts⟩ := State.redAccept_opens (s := s.redPopped rest) (p := q.pkt) (port := q.conn) hnone hlen hroom
    obtain ⟨a, b, hlatch⟩ := ((s.redPopped rest).redFresh (Tab.getD s.cfg.trees q.pkt.tree {}) q.pkt).latch_eq q.pkt
    have hfab : u.fab = (s.redPopped rest).fab := hparts .fab (by decide)
    rw [hlatch] at hinst
    refine ⟨u, _, (exec_reduceContrib_checked hred hop hcheck).trans (congrArg _ hu), by rw [hfab]; rfl, hinst, rfl, rfl, rfl, rfl, rfl, rfl,
      rfl, rfl, rfl, rfl, rfl, rfl, rfl, fun x hx => ?_, hpend, hstat, ?_⟩
    · rw [List.mem_singleton.mp hx]
    · exact (State.onlyChanges_mono hpop (by decide)).andThen hparts
  · rintro st off hcheck rfl
    obtain ⟨hcnt, hparts, -⟩ := s.redPopped_bump_effect rest Reg.RED_CNT_DENIED (by decide)
    exact ⟨_, exec_reduceContrib_refused hred hop hcheck (by decide), hcnt, hparts⟩
  · intro off hcheck
    obtain ⟨hcnt, hparts, -⟩ := s.redPopped_bump_effect rest Reg.RED_CNT_MALFORMED (by decide)
    exact ⟨_, exec_reduceContrib_refused hred hop hcheck (by decide), hcnt, hparts⟩
  · exact ⟨_, exec_reducePartial_denied hred hop hbad, rfl, s.redPopped_bump_effect rest Reg.RED_CNT_DENIED (by decide)⟩
  · have hexec : exec cmd s = .next ((s.redPopped rest).redAccept (Tab.getD s.cfg.trees q.pkt.tree {}) q.pkt q.conn none) := by
      rcases hcmd with ⟨rfl, hop, hcheck⟩ | ⟨rfl, hop, hgood, hvalid, hchild, hst⟩
      · exact exec_reduceContrib_checked hred hop hcheck
      · exact (exec_reducePartial_checked hred hop hgood hvalid hchild).trans (congrArg _ (if_pos hst))
    refine ⟨fun hopen hfits hheld => ?_, fun hopen hbad => ?_, fun st t0 hended hst hop p res hres hpath => ?_⟩
    · obtain ⟨u, hu, hinst, hpend, hparts⟩ := State.redAccept_joins (s := s.redPopped rest) (t := Tab.getD s.cfg.trees q.pkt.tree {}) hi hopen
        hfits hheld
      exact ⟨u, hexec.trans (congrArg _ hu), hinst, hpend, (State.onlyChanges_mono hpop (by decide)).andThen hparts⟩
    · refine ⟨_, hexec.trans (congrArg _ ?_), rfl, s.redPopped_bump_effect rest Reg.RED_CNT_MISMATCH (by decide)⟩
      exact (State.redAccept_of_open (s := s.redPopped rest) hi hopen).trans (State.redJoin_of_mismatch (s := s.redPopped rest) hi hbad)
    · obtain ⟨u, hu, hvoq, hredq, hcnt, hparts⟩ := State.redReplay_effect (s := s.redPopped rest) (port := q.conn) hended hst hop hres hpath
      refine ⟨u, hexec.trans (congrArg _ ((State.redAccept_of_ended (s := s.redPopped rest) hi hended).trans hu)), hvoq, hredq, hcnt, ?_⟩
      exact (State.onlyChanges_mono hpop (by decide)).andThen hparts
  · intro i hop hgood hvalid hchild hst hi hopen hfits hcom
    refine ⟨s.redPopped rest, (exec_reducePartial_checked hred hop hgood hvalid hchild).trans ?_, rfl, hpop⟩
    simp [hst, hi, hopen, hfits, hcom]

end Sys2Proof.Machine
end

section
/-!
PROOF. A reduction's life (R31, R176, R178, R182, R183, R185, R186, R190, R194): slots and accumulation, the root's commit, results from the parent,
the deadline and the end of keeping, and the tree table.
-/
namespace Sys2Proof.Machine

/-! Slots. -/

/-- An engine's rotation moved on. -/
def State.redRotated (s : State) (e : Nat) : State := s.upRed fun b => { b with rot := Tab.put b.rot e ((Tab.getD s.red.rot e 0 + 1) % 8) }

theorem State.redRotated_effect (s : State) (e : Nat) : Tab.find? (s.redRotated e).red.rot e = some ((Tab.getD s.red.rot e 0 + 1) % 8) ∧
    (s.redRotated e).red.insts = s.red.insts ∧ (s.redRotated e).red.pend = s.red.pend ∧ s.onlyChanges (s.redRotated e) [.red] :=
  ⟨Tab.find?_put_self _ _ _, rfl, rfl, by simp [State.onlyChanges_iff, State.redRotated]⟩

theorem exec_reduceSlotGrant_idle {s : State} {e : Nat} (he : e < 4) (h : Tab.getD s.red.pend (8 * e + Tab.getD s.red.rot e 0) [] = []) :
    exec (.reduceSlotGrant e) s = .next (s.redRotated e) := by
  refine congrArg Host.Outcome.next ((if_neg (by omega)).trans ?_)
  dsimp only
  rw [show (State.upRed s _).red.pend = s.red.pend from rfl, h]
  rfl

/-- The state with a port's one pending packet taken. -/
def State.redTaken (s : State) (e port : Nat) : State :=
  (s.redRotated e).upRed fun b => { b with half := Tab.del b.half port, pend := Tab.put b.pend port [] }

/-- The only packet of the port's turn gets the slot. -/
theorem exec_reduceSlotGrant_one {s : State} {e port : Nat} {q : RedPend} (he : e < 4) (hport : port = 8 * e + Tab.getD s.red.rot e 0)
    (h : Tab.find? s.red.pend port = some [q]) (hhalf : Tab.find? s.red.half port = none) : exec (.reduceSlotGrant e) s =
    .next (if slotsOf q.pkt = 1 then (s.redTaken e port).redAccumulate q
      else (s.redRotated e).upRed fun b => { b with half := Tab.put b.half port q }) := by
  have hcls : min 4 q.pkt.cls = q.pkt.cls := Nat.min_eq_right (by unfold Packet.cls; omega)
  have hpend : Tab.getD s.red.pend port [] = [q] := by rw [Tab.getD, h]; rfl
  refine congrArg Host.Outcome.next ((if_neg (by omega)).trans ?_)
  dsimp only
  rw [← hport, show (State.upRed s _).red.pend = s.red.pend from rfl, show (State.upRed s _).red.half = s.red.half from rfl, hpend, hhalf]
  have hbest : ([q].find? fun y => y.pkt.cls == (([q].map fun y => y.pkt.cls).foldl min 4)) = some q := by simp [hcls]
  rw [hbest]
  by_cases hone : slotsOf q.pkt = 1
  · rw [if_pos hone]
    refine (if_pos (.inl hone)).trans ?_
    rw [List.erase_cons_head]
    rfl
  · rw [if_neg hone]
    exact if_neg (by simp [hone])

/-! Accumulation. -/

/-- A chunk with a contribution entered and its sender counted. -/
def RedInst.entered (i : RedInst) (c : Nat) (x : RedChunk) (q : RedPend) : RedChunk :=
  { x with accs := mergeAt (Accum.merge i.op) (q.pkt.epos - c * tyE i.typ) x.accs (i.inputs q.pkt).1
           rangeIn := x.rangeIn || (i.inputs q.pkt).2
           counted := x.counted ++ [senderOf q.pkt q.port q.cmd] }

section
variable {s : State} {q : RedPend} {i : RedInst} {c : Nat} {x : RedChunk} (hi : Tab.find? s.red.insts (redKey q.pkt.tree q.pkt.tag) = some i)
  (hopen : i.outcome = none) (hc : c = q.pkt.epos / tyE i.typ) (hx : x = Tab.getD i.chunks c {})
include hi hopen hc hx

theorem State.redAccumulate_dup (hdup : (x.counted.any fun r => r.src == q.pkt.src) = true) : s.redAccumulate q = s.bump Reg.RED_CNT_DUP := by
  unfold State.redAccumulate
  simp only [hi, hopen]
  dsimp only [Option.isSome_none]
  rw [← hc, ← hx, hdup]
  rfl

theorem State.redAccumulate_counts (hparts : x.parts = []) (hop : q.pkt.opcode = opREDUCE_CONTRIB) (hnew : (x.counted.any fun r => r.src == q.pkt.src) = false)
    (hroom : x.counted.length < i.expected) : s.redAccumulate q =
    (if x.counted.length + 1 = i.expected then
      (s.upRChunk (redKey q.pkt.tree q.pkt.tag) c fun _ => i.entered c x q).redComplete (redKey q.pkt.tree q.pkt.tag) c
     else s.upRChunk (redKey q.pkt.tree q.pkt.tag) c fun _ => i.entered c x q) := by
  unfold State.redAccumulate
  simp only [hi, hopen]
  dsimp only [Option.isSome_none]
  rw [← hc, ← hx, hparts, hnew]
  have hwant : ((senderOf q.pkt q.port q.cmd).want || q.pkt.want) = (senderOf q.pkt q.port q.cmd).want := Bool.or_self _
  have hce : ((senderOf q.pkt q.port q.cmd).ce || q.pkt.ce) = (senderOf q.pkt q.port q.cmd).ce := Bool.or_self _
  simp [hop, RedInst.entered, hparts, Nat.not_le.mpr hroom, hwant, hce]

end

/-! The root's commit. -/

/-- A result that no counted sender wants is sent to none. -/
theorem State.deliver1_of_unwanted {i : RedInst} {c : Nat} {x : RedChunk} (h : (x.counted.all fun r => !r.want) = true) (s : State) (r : RedResult)
    (final : Bool) : s.deliver1 i c x r final = s := by
  have hnone : x.counted.filter (·.want) = [] := List.filter_eq_nil_iff.mpr fun r hr => by
    have := List.all_eq_true.mp h r hr
    simpa using this
  unfold State.deliver1
  rw [hnone]
  rfl

/-- A root whose one chunk is complete and wanted by no packet rounds it, and is committed OK. -/
theorem State.redCommitRoot_one {s : State} {k n : Nat} {i : RedInst} {x : RedChunk} (hi : Tab.find? s.red.insts k = some i)
    (hchunks : i.chunks = [(0, x)]) (hunwanted : (x.counted.all fun r => !r.want) = true) (hn : i.chunkElems 0 = n) : ∃ u fl,
    s.redCommitRoot k = u ∧ Tab.find? u.red.insts k = some { i with
      chunks := [(0, { x with results := (resultPackets i 0 0 (x.accs.take n) x.rangeIn).1, accs := [] })]
      committed := true, flags := fl, outcome := some (stOK, s.hclk) } ∧
    u.rd Reg.RED_CNT_COMMIT = min (s.rd Reg.RED_CNT_COMMIT + 1) (2 ^ Reg.RED_CNT_COMMIT.width - 1) ∧ s.onlyChanges u [.regs, .red] := by
  obtain ⟨rs, hrs⟩ : ∃ rs, rs = resultPackets i 0 0 (x.accs.take n) x.rangeIn := ⟨_, rfl⟩
  have hcommit : s.redCommitRoot k =
      (let u := (s.upRChunk k 0 fun x => { x with results := rs.1, accs := [] }).bump Reg.RED_CNT_COMMIT
       (if bit rs.2 2 then u.bump Reg.RED_CNT_OVERFLOW else u).upInst k fun i =>
        { i with committed := true, flags := rs.2, outcome := some (stOK, s.hclk) }) := by
    unfold State.redCommitRoot
    simp only [hi, hchunks, List.foldl_cons, List.foldl_nil, hn, ← hrs]
    rw [foldl_of_fixed (fun y => State.deliver1_of_unwanted hunwanted s y.1 _) _]
    split <;> rfl
  have hstaged := State.inst_upInst_self hi fun i => { i with
    chunks := Tab.put i.chunks 0 { Tab.getD i.chunks 0 {} with results := rs.1, accs := [] } }
  refine ⟨_, rs.2, rfl, ?_⟩
  rw [hcommit, ← hrs]
  dsimp only
  have hone : ∀ u : State, u.red = (s.upRChunk k 0 fun x => { x with results := rs.1, accs := [] }).red →
      Tab.find? (u.upInst k fun i => { i with committed := true, flags := rs.2, outcome := some (stOK, s.hclk) }).red.insts k =
        some { i with chunks := [(0, { x with results := rs.1, accs := [] })], committed := true, flags := rs.2,
                      outcome := some (stOK, s.hclk) } := by
    intro u hu
    refine (State.inst_upInst_self ((congrArg (fun b : RedState => Tab.find? b.insts k) hu).trans hstaged) _).trans ?_
    simp [hchunks, Tab.put, Tab.getD, Tab.find?]
  split
  · refine ⟨hone _ rfl, ?_, ?_⟩
    · exact (State.rd_bump_separate _ _ _ _ _ (by decide) _ _).trans (State.rd_bump_self _ Reg.RED_CNT_COMMIT 0 0 1 (by decide))
    · simp [State.onlyChanges_iff, State.upInst, State.upRChunk]
  · refine ⟨hone _ rfl, State.rd_bump_self _ Reg.RED_CNT_COMMIT 0 0 1 (by decide), ?_⟩
    simp [State.onlyChanges_iff, State.upInst, State.upRChunk]

/-- The last sender of a root's one chunk commits it. -/
theorem State.redComplete_root {s : State} {k n : Nat} {i : RedInst} {x : RedChunk} (hi : Tab.find? s.red.insts k = some i)
    (hchunks : i.chunks = [(0, x)]) (hunwanted : (x.counted.all fun r => !r.want) = true) (hroot : i.root = true) (hn : i.n = some n) (hpos : 0 < n)
    (hle : n ≤ tyE i.typ) (hheld : x.engines.contains i.homeEngine = true) : ∃ u j, s.redComplete k 0 = u ∧ Tab.find? u.red.insts k = some j ∧
    j.committed = true ∧ j.outcome = some (stOK, s.hclk) ∧
    (Tab.getD j.chunks 0 {}).results = (resultPackets i 0 0 (x.accs.take n) x.rangeIn).1 ∧
    u.rd Reg.RED_CNT_COMMIT = min (s.rd Reg.RED_CNT_COMMIT + 1) (2 ^ Reg.RED_CNT_COMMIT.width - 1) ∧ s.onlyChanges u [.regs, .red] := by
  have hget : Tab.getD s.red.insts k {} = i := by rw [Tab.getD, hi]; rfl
  have hchunk : Tab.getD i.chunks 0 {} = x := by rw [hchunks]; rfl
  obtain ⟨y, hy⟩ : ∃ y, y = { x with complete := true } := ⟨_, rfl⟩
  have hmarked : Tab.find? (s.upRChunk k 0 fun x => { x with complete := true }).red.insts k = some { i with chunks := [(0, y)] } := by
    refine (State.inst_upInst_self hi _).trans ?_
    rw [hchunk, hchunks, hy]
    rfl
  have hall : RedInst.allComplete { i with chunks := [(0, y)] } = true := by
    have hceil : ceilDiv n (tyE i.typ) = 1 := by
      refine Nat.div_eq_of_lt_le ?_ ?_ <;> omega
    simp [RedInst.allComplete, hn, hceil, Tab.getD, Tab.find?, hy]
  have helems : RedInst.chunkElems { i with chunks := [(0, y)] } 0 = n := by simp [RedInst.chunkElems, hn, hle]
  obtain ⟨u, fl, hu, hinst, hcnt, hparts⟩ := State.redCommitRoot_one hmarked rfl (by rw [hy]; exact hunwanted) helems
  refine ⟨u, _, ?_, hinst, rfl, rfl, ?_, hcnt, (State.onlyChanges_mono (s.onlyChanges_upRChunk k 0 _) (by decide)).andThen hparts⟩
  · unfold State.redComplete
    dsimp only
    rw [hget, State.redCharge_of_held (by rw [hget, hchunk]; exact hheld)]
    dsimp only
    rw [Tab.getD, hmarked]
    dsimp only [Option.getD_some]
    rw [if_pos hroot, if_pos hall]
    exact hu
  · rw [hy]
    rfl

/-! Chunks freed, and the end of a reduction. -/

/-- The uses of engines given back, one by one. -/
def State.redReturned (s : State) (n : Nat) (es : List Nat) : State :=
  es.foldl (fun u e => u.engUsed (u.rd Reg.RED_ENG_USED_BYTES e - n) e) s

theorem State.onlyChanges_redReturned (n : Nat) (es : List Nat) (s : State) : s.onlyChanges (s.redReturned n es) [.regs] := by
  induction es generalizing s with
  | nil => exact s.onlyChanges_refl _
  | cons e es ih => exact State.onlyChanges_trans (s.onlyChanges_engUsed _ e) (ih _)

theorem State.rd_redReturned (n : Nat) {es : List Nat} (hes : ∀ e ∈ es, e < 4) {g : Fld} {a b : Nat} (h : (engFlds.all fun f => g.apart f) = true)
    (hg : g.lo < 32) (ha : a < g.n1) (hb : b < g.n2) (s : State) : (s.redReturned n es).rd g a b = s.rd g a b := by
  induction es generalizing s with
  | nil => rfl
  | cons e es ih =>
    exact (ih (fun x hx => hes x (List.mem_cons_of_mem _ hx)) _).trans (s.rd_engUsed_apart _ (hes e List.mem_cons_self) h hg ha hb)

/-- The engines that a reduction's chunks are charged to. -/
def RedInst.engines (i : RedInst) : List Nat := (i.chunks.map fun c => c.2.engines).flatten

theorem State.redFree_effect {s : State} {k : Nat} {i : RedInst} (hi : Tab.find? s.red.insts k = some i) :
    s.redFree k = (s.upInst k fun i => { i with chunks := [] }).redReturned (chunkCharge i.typ) i.engines := by
  have hget : Tab.getD s.red.insts k {} = i := by rw [Tab.getD, hi]; rfl
  unfold State.redFree
  rw [hget]
  rfl

/-- A timeout's count. -/
theorem State.countEnd_timeout (s : State) : s.countEnd stTIMEOUT = s.bump Reg.RED_CNT_TIMEOUT := if_pos rfl

/-- What is left once a root's senders have their status results: the chunks are freed, the end is counted, and the outcome is TIMEOUT. -/
theorem State.redTimedOut_effect {s u : State} {k : Nat} {i : RedInst} (hi : Tab.find? s.red.insts k = some i)
    (hu : u = ((s.redFree k).countEnd stTIMEOUT).upInst k fun i =>
      { i with outcome := some (stTIMEOUT, ((s.redFree k).countEnd stTIMEOUT).hclk) }) :
    Tab.find? u.red.insts k = some { i with chunks := [], outcome := some (stTIMEOUT, s.hclk) } ∧ s.onlyChanges u [.regs, .red] ∧
      ((∀ e ∈ i.engines, e < 4) → u.rd Reg.RED_CNT_TIMEOUT = min (s.rd Reg.RED_CNT_TIMEOUT + 1) (2 ^ Reg.RED_CNT_TIMEOUT.width - 1)) := by
  rw [State.redFree_effect hi, State.countEnd_timeout] at hu
  generalize hv : (s.upInst k fun i => { i with chunks := [] }) = v at hu
  have hvi : Tab.find? v.red.insts k = some { i with chunks := [] } := by
    rw [← hv]
    exact State.inst_upInst_self hi _
  have hvparts : s.onlyChanges v [.red] := by
    rw [← hv]
    exact s.onlyChanges_upInst _ _
  have hreturned := State.onlyChanges_redReturned (chunkCharge i.typ) i.engines v
  have hwred : ((v.redReturned (chunkCharge i.typ) i.engines).bump Reg.RED_CNT_TIMEOUT).red = v.red := hreturned .red (by decide)
  have hwhclk : ((v.redReturned (chunkCharge i.typ) i.engines).bump Reg.RED_CNT_TIMEOUT).hclk = s.hclk :=
    (hreturned .hclk (by decide)).trans (hvparts .hclk (by decide))
  rw [hwhclk] at hu
  subst hu
  refine ⟨?_, ?_, fun hes => ?_⟩
  · exact (State.inst_upInst_self ((congrArg (fun b : RedState => Tab.find? b.insts k) hwred).trans hvi) _).trans rfl
  · have hall := ((State.onlyChanges_mono hvparts (qs := [.regs, .red]) (by decide)).andThen hreturned).andThen
      (State.onlyChanges_bump _ Reg.RED_CNT_TIMEOUT 0 0 1 (ps := [.regs]) (by decide))
    exact hall.andThen (State.onlyChanges_upInst _ _ _)
  · refine (State.rd_bump_self _ Reg.RED_CNT_TIMEOUT 0 0 1 (by decide)).trans ?_
    rw [State.rd_redReturned _ hes (by decide) (by decide) (by decide) (by decide), ← hv]
    rfl

/-- A root's deadline with no commit. -/
theorem exec_reduceDeadline_root {s : State} {tree tag : Nat} {i : RedInst} (hi : Tab.find? s.red.insts (redKey tree tag) = some i)
    (hopen : i.outcome = none) (hcom : i.committed = false) (hdue : i.openedAt + usToHclk i.deadlineUs ≤ s.hclk) (hroot : i.root = true) :
    exec (.reduceDeadline tree tag) s = .next
      (let u := i.participants.foldl (fun u r => u.sendResult i r (if r.child then 0 else r.pos) stTIMEOUT 0 true []) s
       ((u.redFree (redKey tree tag)).countEnd stTIMEOUT).upInst (redKey tree tag) fun i =>
        { i with outcome := some (stTIMEOUT, ((u.redFree (redKey tree tag)).countEnd stTIMEOUT).hclk) }) := by
  refine congrArg Host.Outcome.next ?_
  unfold reduceDeadline
  simp only [hi]
  refine (if_neg (by simp [hopen, hcom]; omega)).trans ?_
  unfold State.redEnd
  simp only [hi]
  refine (if_neg (by simp [hopen])).trans ?_
  simp only [hroot, Bool.not_true, Bool.false_and, Bool.false_eq_true, if_false]

/-- Senders that are commands of this switch take the outcome themselves: nothing is sent. -/
theorem State.foldl_sendResult_of_cmds {rs : List RedSender} (h : ∀ r ∈ rs, r.cmd.isSome = true) (i : RedInst) (f : RedSender → Nat) (st : Nat)
    (s : State) : rs.foldl (fun u r => u.sendResult i r (f r) st 0 true []) s = s := by
  induction rs with
  | nil => rfl
  | cons r rs ih =>
    rw [List.foldl_cons, State.sendResult, if_pos (h r List.mem_cons_self)]
    exact ih fun x hx => h x (List.mem_cons_of_mem _ hx)

/-- A kept outcome expires. -/
theorem exec_reduceKeepExpire_due {s : State} {tree tag st t0 : Nat} {i : RedInst} (hi : Tab.find? s.red.insts (redKey tree tag) = some i)
    (hended : i.outcome = some (st, t0)) (hdue : t0 + usToHclk (s.rd Reg.RED_KEEP_US) ≤ s.hclk) (hheld : s.redHeld (redKey tree tag) = false) :
    exec (.reduceKeepExpire tree tag) s = .next (((s.redFree (redKey tree tag)).upRed fun b =>
      { b with insts := Tab.del b.insts (redKey tree tag) }).dec Reg.RED_STAT_INST) := by
  refine congrArg Host.Outcome.next ?_
  unfold reduceKeepExpire
  simp only [hi, hended, Option.bind_some]
  exact if_neg (by simp [hheld]; omega)

/-! The tree table. -/

/-- The tree table's read with no such tree. -/
theorem State.treeRead_none {s : State} (h : Tab.find? s.cfg.trees (s.rd Reg.RED_TREE_INDEX_TREE) = none) :
    s.treeRead = (s.wr Reg.RED_TREE_STATUS_DONE 1).wr Reg.RED_TREE_STATUS_STATUS stKEY_DENIED := by
  have hcfg : Tab.find? (s.wr Reg.RED_TREE_STATUS_DONE 1).cfg.trees (s.rd Reg.RED_TREE_INDEX_TREE) = none := h
  unfold State.treeRead
  dsimp only
  rw [hcfg]

/-- The tree table's read of a valid record. -/
theorem State.treeRead_effect {s : State} {r : TreeRec} (h : Tab.find? s.cfg.trees (s.rd Reg.RED_TREE_INDEX_TREE) = some r) (hvalid : r.valid = true) :
    (∀ w, w < 8 → s.treeRead.rd Reg.RED_TREE_DATA w = fld r.bytes (4 * w) 4) ∧ s.treeRead.rd Reg.RED_TREE_STATUS_STATUS = stOK ∧
      s.treeRead.rd Reg.RED_TREE_STATUS_DONE = 1 ∧ s.onlyChanges s.treeRead [.regs] := by
  obtain ⟨a, b, hread⟩ : ∃ a b, s.treeRead = ((((s.wr Reg.RED_TREE_STATUS_DONE 1).wrEach Reg.RED_TREE_DATA (fun w => fld r.bytes (4 * w) 4) 8).wr
      Reg.RED_TREE_LIVE_OPEN a).wr Reg.RED_TREE_LIVE_LAST_TAG b).wr Reg.RED_TREE_STATUS_STATUS stOK := by
    have hcfg : Tab.find? (s.wr Reg.RED_TREE_STATUS_DONE 1).cfg.trees (s.rd Reg.RED_TREE_INDEX_TREE) = some r := h
    refine ⟨min (s.red.insts.countP fun i => i.2.tree == s.rd Reg.RED_TREE_INDEX_TREE) 255,
      Tab.getD s.red.lastTag (s.rd Reg.RED_TREE_INDEX_TREE) 0, ?_⟩
    unfold State.treeRead
    dsimp only
    rw [hcfg]
    refine (if_pos hvalid).trans ?_
    have hred : ((s.wr Reg.RED_TREE_STATUS_DONE 1).wrEach Reg.RED_TREE_DATA (fun w => fld r.bytes (4 * w) 4) 8).red = s.red :=
      (State.onlyChanges_wrEach _ _ _ _ .red (by decide) : _ = _)
    rw [← hred]
    rfl
  rw [hread]
  refine ⟨fun w hw => ?_, State.rd_wr_self _ _ _ _ _ (by decide), ?_, ?_⟩
  · rw [State.rd_wr_separate _ _ _ _ _ (by decide), State.rd_wr_separate _ _ _ _ _ (by decide),
      State.rd_wr_apart _ _ (by decide) (by decide) (by decide) (by decide) (by decide) hw (by decide), State.rd_wrEach _ _ (by decide) (by decide) (by decide) (by decide) hw]
    exact Nat.mod_eq_of_lt (fld_lt _ _ 4)
  · rw [State.rd_wr_separate _ _ _ _ _ (by decide), State.rd_wr_separate _ _ _ _ _ (by decide), State.rd_wr_separate _ _ _ _ _ (by decide),
      State.rd_wrEach_separate _ _ _ _ (by decide)]
    exact State.rd_wr_self _ _ _ _ _ (by decide)
  · have hdone : s.onlyChanges (s.wr Reg.RED_TREE_STATUS_DONE 1) [.regs] := s.onlyChanges_wr _ _ _ _ (by decide)
    refine State.onlyChanges_trans (State.onlyChanges_trans hdone (State.onlyChanges_wrEach _ Reg.RED_TREE_DATA (fun w => fld r.bytes (4 * w) 4) 8)) ?_
    simp [State.onlyChanges_iff]

/-! Results from the parent. -/

section
variable {s : State} {e : Nat} {q : QPkt} {rest : List (Nat × QPkt)} {i : RedInst} (hred : s.fab.redq = (e, q) :: rest)
  (hop : q.pkt.opcode = opREDUCE_RESULT) (hi : Tab.find? s.red.insts (redKey q.pkt.tree q.pkt.tag) = some i) (hroot : i.root = false)
  (hopen : i.outcome = none) (hsrc : q.pkt.src = 0xF000 + i.parentHome)
include hred hop hi hroot hopen hsrc

/-- A status from the parent ends the reduction. -/
theorem exec_reduceResult_status (hst : q.pkt.status ≠ 0) : exec (.reduceResult e) s =
    .next (((s.redPopped rest).upInst (redKey q.pkt.tree q.pkt.tag) fun i => { i with committed := true }).redEnd
      (redKey q.pkt.tree q.pkt.tag) q.pkt.status) := by
  have hi' : Tab.find? (s.redPopped rest).red.insts (redKey q.pkt.tree q.pkt.tag) = some i := hi
  refine congrArg Host.Outcome.next ?_
  unfold reduceResult
  simp only [State.takeRed_first hred hop, hi']
  exact (if_neg (by simp [hroot, hopen, hsrc])).trans (if_pos hst)

/-- A result from the parent that no sender here wants is kept. -/
theorem exec_reduceResult_kept {c : Nat} {x : RedChunk} (hst : q.pkt.status = 0) (hcom : i.committed = true) (hc : c = q.pkt.epos / tyE i.typ)
    (hx : x = Tab.getD i.chunks c {}) (hnew : (x.results.any fun r => r.pos == q.pkt.epos) = false)
    (hunwanted : (x.counted.all fun r => !r.want) = true) : exec (.reduceResult e) s =
    .next (((s.redPopped rest).upRChunk (redKey q.pkt.tree q.pkt.tag) c fun x => { x with
        results := x.results ++ [{ pos := q.pkt.epos, payload := q.pkt.payload, flags := bits q.pkt.arg 24 4 }], accs := [] }).upInst
      (redKey q.pkt.tree q.pkt.tag) fun j => { j with
        flags := i.flags ||| bits q.pkt.arg 24 4, outcome := if q.pkt.last then some (stOK, s.hclk) else none }) := by
  have hi' : Tab.find? (s.redPopped rest).red.insts (redKey q.pkt.tree q.pkt.tag) = some i := hi
  refine congrArg Host.Outcome.next ?_
  unfold reduceResult
  simp only [State.takeRed_first hred hop, hi']
  refine (if_neg (by simp [hroot, hopen, hsrc])).trans ((if_neg (by simp [hst])).trans ((if_neg (by simp [hcom])).trans ?_))
  rw [← hc, ← hx]
  refine (if_neg (by simp [hnew])).trans ?_
  rw [State.deliver1_of_unwanted hunwanted]
  rfl

end

/-! The clauses. -/

theorem State.redTaken_effect (s : State) (e port : Nat) : (s.redTaken e port).red.insts = s.red.insts ∧
    Tab.find? (s.redTaken e port).red.pend port = some [] ∧ s.onlyChanges (s.redTaken e port) [.red] :=
  ⟨rfl, Tab.find?_put_self _ _ _, by simp [State.onlyChanges_iff, State.redTaken, State.redRotated]⟩

/-- A contribution `q` of one slot, alone at the port of engine `e`'s turn, goes to chunk `c`, which stands as `x` in its open reduction `i` and
misses senders still. -/
structure State.SlotGoesTo (s : State) (e port k c : Nat) (q : RedPend) (i : RedInst) (x : RedChunk) : Prop where
  engine : e < 4
  turn : port = 8 * e + Tab.getD s.red.rot e 0
  alone : Tab.find? s.red.pend port = some [q]
  fresh : Tab.find? s.red.half port = none
  oneSlot : slotsOf q.pkt = 1
  contrib : q.pkt.opcode = opREDUCE_CONTRIB
  key : k = redKey q.pkt.tree q.pkt.tag
  inst : Tab.find? s.red.insts k = some i
  opened : i.outcome = none
  chunk : c = q.pkt.epos / tyE i.typ
  stands : x = Tab.getD i.chunks c {}
  noParts : x.parts = []
  misses : x.counted.length < i.expected

/-- The packet is taken and accumulated, in a state that differs in its pending packets and the rotation. -/
theorem State.SlotGoesTo.exec_eq {s : State} {e port k c : Nat} {q : RedPend} {i : RedInst} {x : RedChunk} (h : s.SlotGoesTo e port k c q i x) :
    exec (.reduceSlotGrant e) s = .next ((s.redTaken e port).redAccumulate q) :=
  (exec_reduceSlotGrant_one h.engine h.turn h.alone h.fresh).trans (congrArg _ (if_pos h.oneSlot))

/-- A sender counted already is a copy. -/
theorem State.SlotGoesTo.counts_copy {s : State} {e port k c : Nat} {q : RedPend} {i : RedInst} {x : RedChunk} (h : s.SlotGoesTo e port k c q i x)
    (hdup : (x.counted.any fun r => r.src == q.pkt.src) = true) : ∃ t, exec (.reduceSlotGrant e) s = .next t ∧ t.red.insts = s.red.insts ∧
      t.rd Reg.RED_CNT_DUP = min (s.rd Reg.RED_CNT_DUP + 1) (2 ^ Reg.RED_CNT_DUP.width - 1) ∧ s.onlyChanges t [.regs, .red] := by
  obtain ⟨hinsts, -, htaken⟩ := s.redTaken_effect e port
  refine ⟨_, h.exec_eq.trans (congrArg _ (State.redAccumulate_dup (h.key ▸ h.inst) h.opened h.chunk h.stands hdup)), hinsts, ?_, ?_⟩
  · exact State.rd_bump_self (s.redTaken e port) Reg.RED_CNT_DUP 0 0 1 (by decide)
  · exact (State.onlyChanges_mono htaken (qs := [.regs, .red]) (by decide)).andThen (State.onlyChanges_bump _ _ _ _ _ (ps := [.regs]) (by decide))

/-- A new sender that is not the last is entered and counted. -/
theorem State.SlotGoesTo.enters {s : State} {e port k c : Nat} {q : RedPend} {i : RedInst} {x : RedChunk} (h : s.SlotGoesTo e port k c q i x)
    (hnew : (x.counted.any fun r => r.src == q.pkt.src) = false) (hmore : x.counted.length + 1 < i.expected) :
    ∃ t j, exec (.reduceSlotGrant e) s = .next t ∧ Tab.find? t.red.pend port = some [] ∧ Tab.find? t.red.insts k = some j ∧
      Tab.find? j.chunks c = some (i.entered c x q) ∧ s.onlyChanges t [.red] := by
  obtain ⟨-, hpend, htaken⟩ := s.redTaken_effect e port
  have hi : Tab.find? (s.redTaken e port).red.insts (redKey q.pkt.tree q.pkt.tag) = some i := h.key ▸ h.inst
  refine ⟨_, { i with chunks := Tab.put i.chunks c (i.entered c x q) },
    h.exec_eq.trans (congrArg _ ((State.redAccumulate_counts hi h.opened h.chunk h.stands h.noParts h.contrib hnew h.misses).trans
      (if_neg (by omega)))), hpend, ?_, Tab.find?_put_self _ _ _, State.onlyChanges_trans htaken (State.onlyChanges_upRChunk _ _ _ _)⟩
  rw [h.key]
  exact State.inst_upInst_self hi _

/-- The last sender of a root's one chunk, wanted by no packet, commits it. -/
theorem State.SlotGoesTo.commits {s : State} {e port k c n : Nat} {q : RedPend} {i : RedInst} {x : RedChunk} (h : s.SlotGoesTo e port k c q i x)
    (hnew : (x.counted.any fun r => r.src == q.pkt.src) = false) (hlast : x.counted.length + 1 = i.expected) (hroot : i.root = true)
    (hn : i.n = some n) (hpos : 0 < n) (hle : n ≤ tyE i.typ) (hchunks : i.chunks = [(0, x)]) (hheld : x.engines.contains i.homeEngine = true)
    (hunwanted : (x.counted.all fun r => !r.want) = true) (hwant : q.pkt.want = false) :
    ∃ t j, exec (.reduceSlotGrant e) s = .next t ∧ Tab.find? t.red.insts k = some j ∧ j.committed = true ∧ j.outcome = some (stOK, s.hclk) ∧
      (Tab.getD j.chunks 0 {}).results = (resultPackets i 0 0 ((i.entered c x q).accs.take n) (i.entered c x q).rangeIn).1 ∧
      t.rd Reg.RED_CNT_COMMIT = min (s.rd Reg.RED_CNT_COMMIT + 1) (2 ^ Reg.RED_CNT_COMMIT.width - 1) ∧ s.onlyChanges t [.regs, .red] := by
  have hc : c = 0 := by
    refine Decidable.byContradiction fun hne => ?_
    have hempty : x = {} := by
      rw [h.stands, hchunks]
      simp [Tab.getD, Tab.find?, Ne.symm hne]
    rw [hempty] at hheld
    cases hheld
  obtain ⟨-, -, htaken⟩ := s.redTaken_effect e port
  have hi : Tab.find? (s.redTaken e port).red.insts (redKey q.pkt.tree q.pkt.tag) = some i := h.key ▸ h.inst
  have hmarked : Tab.find? ((s.redTaken e port).upRChunk (redKey q.pkt.tree q.pkt.tag) c fun _ => i.entered c x q).red.insts
      (redKey q.pkt.tree q.pkt.tag) = some { i with chunks := [(0, i.entered c x q)] } := by
    refine (State.inst_upInst_self hi _).trans ?_
    rw [hchunks, hc]
    rfl
  obtain ⟨t, j, ht, hj, hcom, hout, hres, hcnt, hall⟩ := State.redComplete_root (n := n) hmarked rfl
    (by simpa [RedInst.entered, senderOf, hwant] using hunwanted) hroot hn hpos hle hheld
  have hexec := h.exec_eq.trans (congrArg _ ((State.redAccumulate_counts hi h.opened h.chunk h.stands h.noParts h.contrib hnew h.misses).trans
    (if_pos hlast)))
  refine ⟨t, j, hexec.trans (congrArg _ ?_), by rw [h.key]; exact hj, hcom, hout, hres, hcnt, ?_⟩
  · rw [← ht, hc]
  · exact (State.onlyChanges_mono htaken (qs := [.regs, .red]) (by decide)).andThen
      ((State.onlyChanges_mono (State.onlyChanges_upRChunk _ _ _ _) (qs := [.regs, .red]) (by decide)).andThen hall)

/-- Settles O27: a slot goes to its port's packet, which is entered and, as the last of its root's chunk, commits; results, deadlines and kept
outcomes each act on their reduction. -/
theorem instancesAccumulateCommitAndEnd : Obligations.InstancesAccumulateCommitAndEnd := by
  unfold Obligations.InstancesAccumulateCommitAndEnd
  intro s
  refine ⟨fun e r port he hr hport => ?_, fun e q rest i k c x hred hop hk hi hroot hopen hsrc => ?_,
    fun tree tag i hi hopen hcom hdue hroot => ⟨fun hcmds heng => ?_, fun r p res hone hcmd hres hpath => ?_⟩,
    fun tree tag i st t0 hi hended hdue hheld => ?_, fun a r ha => ⟨fun hr hvalid => ?_, fun hnone => ?_⟩⟩
  · subst hr
    obtain ⟨hrot, hinsts, hpend, hparts⟩ := s.redRotated_effect e
    refine ⟨fun hidle => ⟨_, exec_reduceSlotGrant_idle he (hport ▸ hidle), hrot, hinsts, hpend, hparts⟩, fun q hp hhalf htwo => ?_, ?_⟩
    · refine ⟨_, (exec_reduceSlotGrant_one he hport hp hhalf).trans (congrArg _ (if_neg (by omega))), Tab.find?_put_self _ _ _, hinsts, hpend, hrot, ?_⟩
      simp [State.onlyChanges_iff, State.redRotated]
    · intro q i c x k hp hhalf hone hop hk hi hopen hc hx hparts hroom
      have hslot : s.SlotGoesTo e port k c q i x := ⟨he, hport, hp, hhalf, hone, hop, hk, hi, hopen, hc, hx, hparts, hroom⟩
      exact ⟨hslot.counts_copy, hslot.enters, fun n => hslot.commits⟩
  · subst hk
    refine ⟨fun hst => ⟨_, exec_reduceResult_status hred hop hi hroot hopen hsrc hst, State.inst_upInst_self (s := s.redPopped rest) hi _, ?_⟩,
      fun hst hcom hc hx hnew hunwanted => ?_⟩
    · simp [State.onlyChanges_iff, State.redPopped, State.upInst]
    · refine ⟨_, _, exec_reduceResult_kept hred hop hi hroot hopen hsrc hst hcom hc hx hnew hunwanted,
        State.inst_upInst_self (State.inst_upInst_self (s := s.redPopped rest) hi _) _, ?_, rfl, rfl, ?_⟩
      · rw [hx]
        simp [Tab.getD]
      · simp [State.onlyChanges_iff, State.redPopped, State.upRChunk, State.upInst]
  · have hexec := exec_reduceDeadline_root hi hopen hcom hdue hroot
    rw [State.foldl_sendResult_of_cmds hcmds] at hexec
    obtain ⟨hinst, hparts, hcnt⟩ := State.redTimedOut_effect hi rfl
    refine ⟨_, hexec, hinst, hcnt fun e he => ?_, hparts⟩
    obtain ⟨es, hes, he⟩ := List.mem_flatten.mp he
    obtain ⟨x, hx, rfl⟩ := List.mem_map.mp hes
    exact heng x hx e he
  · have hexec := exec_reduceDeadline_root hi hopen hcom hdue hroot
    have hsent : s.sendResult i r (if r.child then 0 else r.pos) stTIMEOUT 0 true [] = s.voqPush p (s.sent res) := by
      rw [State.sendResult, hcmd, hres]
      exact State.send_of_clearPath (hres ▸ hpath)
    rw [hone, List.foldl_cons, List.foldl_nil, hsent] at hexec
    have hpushed := s.onlyChanges_voqPush p (s.sent res)
    have hvoq := s.voq_voqPush p res
    generalize hu : s.voqPush p (s.sent res) = u at hexec hpushed hvoq
    have hui : Tab.find? u.red.insts (redKey tree tag) = some i := by
      rw [hpushed .red (by decide)]
      exact hi
    obtain ⟨hinst, hparts, -⟩ := State.redTimedOut_effect hui rfl
    refine ⟨_, hexec, ?_, ?_, (State.onlyChanges_mono hpushed (by decide)).andThen hparts⟩
    · have hxbr := hparts .xbr (by decide)
      rw [State.voq, hxbr]
      exact hvoq
    · rw [hinst, hpushed .hclk (by decide)]
  · have hfree := State.redFree_effect hi
    have hred : (s.redFree (redKey tree tag)).red = (s.upInst (redKey tree tag) fun i => { i with chunks := [] }).red := by
      rw [hfree]
      exact State.onlyChanges_redReturned _ _ _ .red (by decide)
    have hparts : s.onlyChanges (s.redFree (redKey tree tag)) [.regs, .red] := by
      rw [hfree]
      exact (State.onlyChanges_mono (s.onlyChanges_upInst _ _) (by decide)).andThen (State.onlyChanges_redReturned _ _ _)
    refine ⟨_, exec_reduceKeepExpire_due hi hended hdue hheld, Tab.find?_del_self _ _, fun k hk => ?_, ?_⟩
    · refine (Tab.find?_del_ne _ hk).trans ?_
      rw [hred]
      exact Tab.find?_upd_ne s.red.insts (fun i => { i with chunks := [] }) hk
    · refine hparts.andThen (qs := [.regs, .red]) ?_
      simp [State.onlyChanges_iff, State.dec]
  · exact ⟨_, congrArg Host.Outcome.next (State.window_admitted ha _), s.treeRead_effect hr hvalid⟩
  · refine ⟨_, congrArg Host.Outcome.next ((State.window_admitted ha _).trans (State.treeRead_none hnone)), State.rd_wr_self _ _ _ _ _ (by decide), ?_, ?_⟩
    · simp [State.onlyChanges_iff]
    · exact State.regsKept_trans (s.regsKept_wr _ _ _ _ (by simp)) (State.regsKept_wr _ _ _ _ _ (by simp))

end Sys2Proof.Machine
end

section
/-!
PROOF. Chains and gather requests (R203, R204, R213–R222, R224): a chunk's work is staged, stopped or run again, its commit counts its rows, and a
GATHER_REQ joins its fen's work or is answered.
-/
namespace Sys2Proof.Machine

/-! A failed check. -/

theorem State.runningChunk_congr {s t : State} (hcmd : t.cmd = s.cmd) (hfatal : t.fatal = s.fatal) (cid k : Nat) :
    t.runningChunk cid k = s.runningChunk cid k := by
  unfold State.runningChunk State.cmdOf
  rw [hcmd, hfatal]

/-- A cluster fault is recorded, and the chunk's re-run or a test run is noted. -/
theorem State.clusterFault_effect {s : State} {cl cause cid k : Nat} {c : Cmd} {x : Chunk} (hc : s.cmdOf cid = some c)
    (hx : Tab.find? c.chunks k = some x) : ∃ a b, ((s.clusterFault cl cause cid k).cmdOf cid).bind (fun d => Tab.find? d.chunks k) =
      some { x with selfTest := a, avoid := b } ∧
    (∀ g : Fld, (scoreFlds.all fun f => g.separate f) = true → ∀ a b, (s.clusterFault cl cause cid k).rd g a b = s.rd g a b) ∧
    s.onlyChanges (s.clusterFault cl cause cid k) [.regs, .flt, .out, .host, .cmd] := by
  obtain ⟨r, hr⟩ : ∃ r : Report, r = { code := evCLUSTER_FAULT, sev := sevWARN, health := true, params := [cause, s.physOf cl], die := cl / 16,
                                       cls := clsCLUSTER, inst := s.physOf cl } := ⟨_, rfl⟩
  have hparts := (s.reportsOnly_event r).1
  have hrd := fun (g : Fld) (hg : (scoreFlds.all fun f => g.separate f) = true) a b => s.rd_event_separate r hg a b
  unfold State.clusterFault
  dsimp only
  rw [← hr]
  generalize s.event r = u at hparts hrd
  have hcu : u.cmdOf cid = some c := (congrArg (fun b : CmdState => Tab.find? b.cmds cid) (hparts .cmd (by decide))).trans hc
  split
  · refine ⟨some (s.physOf cl, cause), none, ?_, hrd, (State.onlyChanges_mono hparts (by decide)).andThen (qs := [.cmd]) ?_⟩
    · rw [State.cmdOf_upChunk hcu, Option.bind_some, Tab.find?_upd_self, hx]
      rfl
    · simp [State.onlyChanges_iff, State.upChunk, State.upCid]
  · refine ⟨x.selfTest, x.avoid, ?_, hrd, (State.onlyChanges_mono hparts (by decide)).andThen (qs := [.flt]) ?_⟩
    · exact (congrArg (fun o : Option Cmd => o.bind fun d => Tab.find? d.chunks k) hcu :).trans hx
    · simp [State.onlyChanges_iff]

/-- A chunk's first failed check puts it back to wait, its results discarded. -/
theorem State.checkFailed_first_effect {s : State} {cid k cl : Nat} {c : Cmd} {x : Chunk} (hrun : s.runningChunk cid k = some (c, x, cl))
    (hfails : x.fails = 0) (cause : Nat) (fail : State → State) : ∃ y,
    ((s.checkFailed cid k cause fail).cmdOf cid).bind (fun d => Tab.find? d.chunks k) = some y ∧ y.phase = .waiting ∧ y.fails = 1 ∧ y.writes = [] ∧
    (∀ g : Fld, ((syncCmdFlds ++ scoreFlds).all fun f => g.separate f) = true → ∀ a b, (s.checkFailed cid k cause fail).rd g a b = s.rd g a b) ∧
    s.onlyChanges (s.checkFailed cid k cause fail) [.regs, .flt, .out, .host, .cmd] := by
  obtain ⟨hc, hx⟩ := State.runningChunk_some hrun
  obtain ⟨hcmd, -, hrd, hframe⟩ := State.requeue_effect (k := k) hc
  have hfail : s.checkFailed cid k cause fail =
      ((s.requeue cid k).upChunk cid k fun x => { x with fails := 1, avoid := some (s.physOf cl) }).clusterFault cl cause cid k := by
    have hcheck : s.checkFail cid k = ((s.requeue cid k).upChunk cid k fun x => { x with fails := 1, avoid := some (s.physOf cl) }, false) := by
      unfold State.checkFail
      rw [hrun]
      exact if_pos hfails
    unfold State.checkFailed
    rw [hrun]
    dsimp only
    rw [hcheck]
  have hchunk := State.cmdOf_upChunk hcmd k fun x => { x with fails := 1, avoid := some (s.physOf cl) }
  have hfind : Tab.find? (Tab.upd (Tab.upd c.chunks k Chunk.requeued) k fun x => { x with fails := 1, avoid := some (s.physOf cl) }) k =
      some { x.requeued with fails := 1, avoid := some (s.physOf cl) } := by
    rw [Tab.find?_upd_self, Tab.find?_upd_self, hx]
    rfl
  obtain ⟨a, b, hy, hrdf, hframef⟩ := State.clusterFault_effect (cl := cl) (cause := cause) hchunk hfind
  rw [hfail]
  refine ⟨_, hy, rfl, rfl, rfl, fun g hg i j => ?_, ?_⟩
  · rw [List.all_append, Bool.and_eq_true] at hg
    exact (hrdf g hg.2 i j).trans (hrd g hg.1 i j)
  · refine State.onlyChanges_trans (State.onlyChanges_trans (State.onlyChanges_mono hframe (by decide)) ?_) hframef
    simp [State.onlyChanges_iff, State.upChunk, State.upCid]

/-! A chunk of a CHAIN runs. -/

section
variable {s : State} {cid k : Nat} {c : Cmd} {x : Chunk} (h : s.runsChunk cid k 0x20 c x)
include h

/-- What a running chunk of a CHAIN does with its work. -/
theorem exec_chain_work {r : Except ChainStop (ChainWork × List StagedWrite × List Nat)} (hwork : s.chainWork c k x = some r) :
    exec (.chain cid k) s = .next (match r with
      | .error (.bad si pos) => s.chainBad cid si pos
      | .error (.fault st ps) => s.readFailed cid k st ps fun st s => s.chainEnd cid st
      | .ok (w, ws, ps) =>
        let (inj, s) := s.injected (c.stageList.map (·.op))
        if inj then s.checkFailed cid k 0 fun s => s.chainEnd cid stCHECK_FAIL
        else
          let s := if x.fails = 1 then s.bump Reg.OPE_CNT_CHK_RERUN else s
          let final := decide (w.count = 0) && !(k == 0 && (c.stageList.head?.map (·.op)) == some sDISPATCH)
          let more := c.moreChunks (w.start + w.count) final
          let s := s.upCid cid fun c => { c with nchunks := if more then max c.nchunks (k + 2) else k + 1 }
          s.stage cid k fun x => { x with work := w, writes := ws, vals := ps }) := by
  obtain ⟨⟨cl, hrun⟩, hop, hsrc, hto, -⟩ := h
  refine congrArg Host.Outcome.next ?_
  unfold chain
  simp only [hrun, hop, hsrc, hto, hwork]
  cases r with
  | error e => cases e <;> rfl
  | ok v => rfl

/-- A chunk whose check is not armed to fail stages its work. -/
theorem exec_chain_stages {w : ChainWork} {ws : List StagedWrite} {ps : List Nat} (hwork : s.chainWork c k x = some (.ok (w, ws, ps)))
    (harm : s.on Reg.OPE_CHK_INJ_ARM = false) (hfails : x.fails = 0) :
    ∃ t, exec (.chain cid k) s = .next t ∧ s.stagedAs t cid k { x with work := w, writes := ws, vals := ps } := by
  have hinj : s.injected (c.stageList.map (·.op)) = (false, s) := if_neg (by simp [harm])
  have hexec := exec_chain_work h hwork
  dsimp only at hexec
  rw [hinj] at hexec
  simp only [hfails, Bool.false_eq_true, if_false] at hexec
  generalize c.moreChunks (w.start + w.count) _ = more at hexec
  obtain ⟨⟨cl, hrunning⟩, -, -, -, htest⟩ := h
  obtain ⟨hc, hx⟩ := State.runningChunk_some hrunning
  obtain ⟨hstaged, hcluster, hframe⟩ := State.stage_effect (k := k) (x := x) 
    (State.cmdOf_upCid_self hc fun c => { c with nchunks := if more then max c.nchunks (k + 2) else k + 1 }) hx htest
    fun x => { x with work := w, writes := ws, vals := ps }
  exact ⟨_, hexec, hstaged, hcluster, State.onlyChanges_trans (s.onlyChanges_upCid _ _) hframe⟩

/-- An index beyond its table stops the chain RANGE with its position. -/
theorem exec_chain_bad {si pos : Nat} (hwork : s.chainWork c k x = some (.error (.bad si pos))) :
    ∃ u, exec (.chain cid k) s = .next (u.chainEnd cid stRANGE) ∧
      (u.cmdOf cid).map (fun d => (d.chain.firstBad, d.chain.stage)) = some (some pos, some si) ∧
      u.rd Reg.OPE_CNT_BADIDX = min (s.rd Reg.OPE_CNT_BADIDX + 1) (2 ^ Reg.OPE_CNT_BADIDX.width - 1) ∧ s.onlyChanges u [.regs, .cmd] := by
  obtain ⟨⟨cl, hrunning⟩, -, -, -, -⟩ := id h
  obtain ⟨hc, -⟩ := State.runningChunk_some hrunning
  have hcmd := State.cmdOf_upCid_self hc fun c => { c with chain := { c.chain with firstBad := some pos, stage := some si } }
  refine ⟨_, exec_chain_work h hwork, (congrArg (Option.map fun d : Cmd => (d.chain.firstBad, d.chain.stage)) hcmd :), ?_, ?_⟩
  · exact State.rd_bump_self _ Reg.OPE_CNT_BADIDX 0 0 1 (by decide)
  · exact (State.onlyChanges_mono (s.onlyChanges_upCid _ _) (by decide)).andThen (State.onlyChanges_bump _ _ _ _ _ (ps := [.regs]) (by decide))

/-- A chunk whose check is armed to fail goes back to wait for its second run. -/
theorem exec_chain_runs_again {w : ChainWork} {ws : List StagedWrite} {ps : List Nat} (hwork : s.chainWork c k x = some (.ok (w, ws, ps)))
    (harm : s.on Reg.OPE_CHK_INJ_ARM = true) (hop : (c.stageList.map (·.op)).contains (s.rd Reg.OPE_CHK_INJ_OP) = true) (hfails : x.fails = 0) :
    ∃ t y, exec (.chain cid k) s = .next t ∧ t.rd Reg.OPE_CHK_INJ_ARM = 0 ∧
      (t.cmdOf cid).bind (fun d => Tab.find? d.chunks k) = some y ∧ y.phase = .waiting ∧ y.fails = 1 ∧ y.writes = [] ∧ t.near = s.near ∧
      t.tray = s.tray := by
  have hinj : s.injected (c.stageList.map (·.op)) = (true, s.wr Reg.OPE_CHK_INJ_ARM 0) := if_pos (by rw [harm, hop]; rfl)
  have hexec := exec_chain_work h hwork
  dsimp only at hexec
  rw [hinj] at hexec
  simp only [if_true] at hexec
  obtain ⟨⟨cl, hrunning⟩, -, -, -, -⟩ := h
  have hfatal : (s.wr Reg.OPE_CHK_INJ_ARM 0).fatal = s.fatal := by
    rw [State.fatal, State.fatal, State.on, State.on, State.rd_wr_separate _ _ _ _ _ (by decide)]
  obtain ⟨y, hy, hphase, hy1, hyw, hrd, hframe⟩ := State.checkFailed_first_effect
    ((State.runningChunk_congr (s := s) (t := s.wr Reg.OPE_CHK_INJ_ARM 0) rfl hfatal cid k).trans hrunning) hfails 0 fun s => s.chainEnd cid stCHECK_FAIL
  refine ⟨_, y, hexec, ?_, hy, hphase, hy1, hyw, hframe .near (by decide), hframe .tray (by decide)⟩
  exact (hrd Reg.OPE_CHK_INJ_ARM (by decide) 0 0).trans (State.rd_wr_self s Reg.OPE_CHK_INJ_ARM 0 0 0 (by decide))

end

/-! A GATHER's chunk. -/

/-- Rows gathered one by one, none late and each index within the table. -/
theorem State.runGather_good {s : State} {c : Cmd} {si : Nat} {t : Stage} {ris : List (Nat × Nat)}
    (hidx : ∀ r ∈ ris, r.2 * t.stride + t.rowBytes ≤ 64 * t.a.gran)
    (hgood : ∀ r ∈ ris, s.readFault (c.pieces (refA si) (r.2 * t.stride) t.rowBytes) = none) (j : Nat) : s.runGather c [] si t j ris =
      .ok (ris.map fun r => { id := r.1, data := s.readPieces (c.pieces (refA si) (r.2 * t.stride) t.rowBytes) }, []) := by
  induction ris generalizing j with
  | nil => rfl
  | cons r ris ih =>
    obtain ⟨rid, idx⟩ := r
    have hrow : s.gatherRow (c.pieces (refA si) (idx * t.stride) t.rowBytes) t.rowBytes (([] : List Nat).contains (lateKey si j)) =
        .ok (s.readPieces (c.pieces (refA si) (idx * t.stride) t.rowBytes), false) := by
      unfold State.gatherRow
      rw [hgood (rid, idx) List.mem_cons_self]
      rfl
    have hle := hidx (rid, idx) List.mem_cons_self
    have hnot : ¬ 64 * t.a.gran < idx * t.stride + t.rowBytes := Nat.not_lt.mpr hle
    rw [State.runGather]
    simp only [hnot, if_false]
    rw [hrow]
    dsimp only
    rw [ih (fun x hx => hidx x (List.mem_cons_of_mem _ hx)) fun x hx => hgood x (List.mem_cons_of_mem _ hx)]
    rfl

/-- What a chunk of one GATHER stage computes. -/
theorem State.chainWork_gather {s : State} {c : Cmd} {k n start : Nat} {x : Chunk} {g : Stage} {idx : Nat → Nat} (hlist : c.stageList = [g])
    (hop : g.op = sGATHER) (hk : k = c.committed) (hstart : start = c.chain.rowsIn) (hlt : start < g.inputRows) (hlate : x.late = [])
    (hn : n = s.chunkRows c g start) (hread : s.readFault (c.pieces (refC 0) (start * g.iw) (n * g.iw)) = none)
    (hidx : idx = fun i => leNat (slice (s.readPieces (c.pieces (refC 0) (start * g.iw) (n * g.iw))) (i * g.iw) g.iw))
    (hin : ∀ i, i < n → idx i * g.stride + g.rowBytes ≤ 64 * g.a.gran)
    (hgood : ∀ i, i < n → s.readFault (c.pieces (refA 0) (idx i * g.stride) g.rowBytes) = none) :
    ∃ w, s.chainWork c k x = some (.ok (w, [], [])) ∧ w.count = n ∧ w.lates = [(0, [])] ∧
      w.outs = [(0, (List.range n).map fun i => { id := start + i, data := s.readPieces (c.pieces (refA 0) (idx i * g.stride) g.rowBytes) })] := by
  have hrows : s.inputRows c g start n = .ok ((List.range n).map fun i =>
      { id := start + i, data := slice (s.readPieces (c.pieces (refC 0) (start * g.iw) (n * g.iw))) (i * g.iw) g.iw }) := by
    unfold State.inputRows
    simp only [hop, if_true]
    rw [hread]
  have hgather := State.runGather_good (s := s) (c := c) (si := 0) (t := g) (ris := (List.range n).map fun i => (start + i, idx i))
    (fun r hr => by
      obtain ⟨i, hi, rfl⟩ := List.mem_map.mp hr
      exact hin i (List.mem_range.mp hi))
    (fun r hr => by
      obtain ⟨i, hi, rfl⟩ := List.mem_map.mp hr
      exact hgood i (List.mem_range.mp hi)) 0
  obtain ⟨out, hout⟩ : ∃ out : List Row, out = (List.range n).map fun i =>
    { id := start + i, data := s.readPieces (c.pieces (refA 0) (idx i * g.stride) g.rowBytes) } := ⟨_, rfl⟩
  replace hgather : s.runGather c [] 0 g 0 ((List.range n).map fun i => (start + i, idx i)) = .ok (out, []) := by
    rw [hgather, hout, List.map_map]
    rfl
  have hpairs : (List.range n).map ((fun r : Row => (r.id, leNat r.data)) ∘ fun i =>
      { id := start + i, data := slice (s.readPieces (c.pieces (refC 0) (start * g.iw) (n * g.iw))) (i * g.iw) g.iw }) =
      (List.range n).map fun i => (start + i, idx i) := by
    rw [hidx]
    rfl
  have hlen : out.length = n := by rw [hout, List.length_map, List.length_range]
  have hchunk : s.runChunk c [] start n = .ok { start := start, count := n, nread := n, lates := [(0, [])], outs := [(0, out)] } := by
    have hstages : (c.stageList.zipIdx.map fun (t, i) => (i, t)) = [(0, g)] := by rw [hlist]; rfl
    unfold State.runChunk
    rw [hstages]
    dsimp only
    rw [hrows]
    simp only [hop, if_true, List.map_map]
    rw [hpairs, hgather]
    simp only [State.runStages, hlen]
  rw [← hout]
  refine ⟨{ start := start, count := n, nread := n, lates := [(0, [])], outs := [(0, out)] }, ?_, rfl, rfl, rfl⟩
  have hbegin : c.chunkStart k = some start := (if_pos (Nat.le_of_eq hk)).trans (congrArg some hstart.symm)
  unfold State.chainWork
  rw [hlist]
  dsimp only [List.head?_cons]
  rw [hop, hbegin, hlate]
  simp only [show (sGATHER == sDISPATCH) = false from rfl, show ¬ sGATHER = sCOMBINE from by decide, Bool.false_and, Bool.false_eq_true, if_false,
    Nat.not_le.mpr hlt, ← hn]
  rw [hchunk]
  rfl

/-! A chunk of a CHAIN commits. -/

/-- The state with a chunk that stored nothing committed: its rows counted, its entry gone. -/
def State.rowsCommitted (s : State) (cid k : Nat) (x : Chunk) (r : ChainState) : State :=
  (((s.bump Reg.OPE_CNT_ROWS 0 0 x.work.nread).bump Reg.OPE_CNT_LATE 0 0 (x.work.lates.map fun l => l.2.length).sum).bump Reg.OPE_CNT_DROPPED 0 0
    x.work.dropped).upCid cid fun c => { c with chain := r, committed := k + 1, chunks := Tab.del c.chunks k }

theorem State.onlyChanges_rowsCommitted (s : State) (cid k : Nat) (x : Chunk) (r : ChainState) :
    s.onlyChanges (s.rowsCommitted cid k x r) [.regs, .cmd] := by
  simp [State.onlyChanges_iff, State.rowsCommitted, State.upCid]

/-- A staged chunk of a CHAIN that stores nothing commits. -/
theorem exec_chunkCommit_chain {s : State} {cid : Nat} {c : Cmd} {x : Chunk} (hc : s.cmdOf cid = some c) (hf : s.fatal = false)
    (hx : Tab.find? c.chunks c.committed = some x) (hsrc : c.src = 0) (hop : c.opcode = 0x20) (hstaged : x.phase = .staged) (hw : x.writes = [])
    (houts : x.work.outs = []) : ∃ r, r.rowsIn = c.chain.rowsIn + x.work.count ∧ r.dropped = c.chain.dropped + x.work.dropped ∧
      r.flags = c.chain.flags ||| x.work.flags ∧ r.lateRows = c.chain.lateRows + (x.work.lates.map fun l => l.2.length).sum ∧
      exec (.chunkCommit cid) s = .next (((if c.committed + 1 < c.nchunks then s.rowsCommitted cid c.committed x r
        else (s.rowsCommitted cid c.committed x r).chainEnd cid (if r.lateRows = 0 then stOK else stLATE)).syncCmd c.fen).preempt) := by
  have hcommit : exec (.chunkCommit cid) s = .next (((s.chainCommit cid c.committed c x).syncCmd c.fen).preempt) := by
    refine congrArg Host.Outcome.next ?_
    unfold chunkCommit
    rw [hc]
    dsimp only
    rw [hf]
    simp only [Bool.false_eq_true, if_false, hx, hsrc, hstaged, hop]
    rfl
  unfold State.chainCommit at hcommit
  dsimp only at hcommit
  rw [hw, houts] at hcommit
  refine ⟨_, ?_, ?_, ?_, ?_, hcommit⟩
  all_goals rfl

/-! GATHER_REQ. -/

section
variable {s : State} {q : QPkt} {rest : List QPkt} (hhe : s.fab.he0 = q :: rest) (hkind : q.pkt.kind = .gather)
include hhe hkind

theorem State.takeHome_gather : s.takeHome .gather = some (q, s.popHome rest) := by
  rw [← hkind]
  exact State.takeHome_of_head hhe

/-- A copy of a request held is counted. -/
theorem exec_gatherReq_copy (hcopy : (q.pkt.retx && s.cmd.cmds.any fun c => c.2.src == 1 && c.2.pkt.src == q.pkt.src && c.2.pkt.seq == q.pkt.seq) = true) :
    exec .gatherReq s = .next ((s.popHome rest).bump Reg.OPE_CNT_GREQ_DUP) := by
  refine congrArg Host.Outcome.next ?_
  unfold gatherReq
  rw [State.takeHome_gather hhe hkind]
  exact if_pos hcopy

/-- A request with a bad field is answered with its offset. -/
theorem exec_gatherReq_malformed {o : Nat} (hnew : q.pkt.retx = false) (hbad : firstBad (gatherFields q.pkt) = some o) :
    exec .gatherReq s = .next ((s.popHome rest).answer connHE0 (gatherStatus q.pkt stMALFORMED o)) := by
  refine congrArg Host.Outcome.next ?_
  unfold gatherReq
  rw [State.takeHome_gather hhe hkind]
  refine (if_neg (by simp [hnew])).trans ?_
  rw [hbad]

/-- The command that a request becomes. -/
def QPkt.gatherCmd (q : QPkt) (clid fen now : Nat) (segs : List Seg) : Cmd :=
  { src := 1, pkt := q.pkt, fen := fen, clid := clid, cls := q.pkt.cls, pair := clid * 4 + q.pkt.cls, opcode := 0, segs := segs,
    rrefs := (segs.map (·.ext)).eraseDups, phase := .staging, nchunks := ceilDiv q.pkt.gCount (max 1 (65536 / q.pkt.gRow)), acceptedAt := now }

/-- A request that passes its checks joins its fen's work. -/
theorem exec_gatherReq_joins {segs : List Seg}
    (hnew : (q.pkt.retx && s.cmd.cmds.any fun c => c.2.src == 1 && c.2.pkt.src == q.pkt.src && c.2.pkt.seq == q.pkt.seq) = false)
    (hgood : firstBad (gatherFields q.pkt) = none) (hquiet : s.fenQuiet (s.who q).2 = false)
    (hregion : s.regionCheck (s.who q).1 (s.who q).2 q.pkt.region q.pkt.key (rtR + rtC) q.pkt.localAddr q.pkt.gTable = stOK)
    (hsegs : s.rangeSegs (refA 0) q.pkt.localAddr q.pkt.gTable false false = some segs)
    (hidx : ((List.range q.pkt.gCount).find? fun i => decide (q.pkt.gTable < q.pkt.gIndex i * q.pkt.gStride + q.pkt.gRow)) = none)
    (hlen : segs.length ≤ 4096) (hfen : (s.who q).2 < 64) (hclusters : (s.fenClusters (s.who q).2).isEmpty = false)
    (hroom : (s.cmd.cmds.countP fun c => c.2.src == 1) < 1024) (hrefs : ∀ e, (s.ext e).rrefs < 65535) :
    ∃ u, s.onlyChanges u [.pool, .fab] ∧ u.fab.he0 = rest ∧
      exec .gatherReq s = .next (((u.addCmd (q.gatherCmd (s.who q).1 (s.who q).2 s.hclk segs)).1.syncCmd (s.who q).2).syncGreq) := by
  have hraised := ((s.popHome rest).refsRaised_effect (segs.map (·.ext)).eraseDups []).2.2
  have hraise : (s.popHome rest).raiseRefs (segs.map (·.ext)).eraseDups [] = some ((s.popHome rest).refsRaised (segs.map (·.ext)).eraseDups []) := by
    refine if_neg ?_
    simp only [List.any_nil, Bool.or_false, List.any_eq_true, not_exists, not_and, decide_eq_true_eq, Nat.not_le]
    exact fun e _ => hrefs e
  have hhclk : ((s.popHome rest).refsRaised (segs.map (·.ext)).eraseDups []).hclk = s.hclk := hraised .hclk (by decide)
  generalize (s.popHome rest).refsRaised (segs.map (·.ext)).eraseDups [] = u at hraised hraise hhclk
  refine ⟨u, (State.onlyChanges_mono (s.onlyChanges_popHome rest) (by decide)).andThen hraised, ?_, ?_⟩
  · rw [hraised .fab (by decide)]
    rfl
  refine congrArg Host.Outcome.next ?_
  unfold gatherReq
  rw [State.takeHome_gather hhe hkind]
  refine (if_neg (by rw [← Bool.not_eq_true] at hnew; exact hnew)).trans ?_
  rw [hgood]
  refine (if_neg (by rw [← Bool.not_eq_true] at hquiet; exact hquiet)).trans ?_
  refine (if_neg (Classical.not_not.mpr hregion)).trans ?_
  dsimp only
  rw [show (s.popHome rest).rangeSegs (refA 0) q.pkt.localAddr q.pkt.gTable false false = some segs from hsegs, hidx]
  refine (if_neg (by omega)).trans ((if_neg ?_).trans ((if_neg (Nat.not_le.mpr hroom)).trans ?_))
  · show ¬ (decide ((s.who q).2 = 255) || (s.fenClusters (s.who q).2).isEmpty) = true
    rw [hclusters]
    simp
    omega
  · rw [hraise]
    dsimp only
    rw [hhclk]
    rfl

end

theorem State.onlyChanges_syncGreq (s : State) : s.onlyChanges s.syncGreq [.regs] :=
  State.onlyChanges_trans (s.onlyChanges_wr _ _ _ _ (by decide)) (State.onlyChanges_measure _ _ _ _ _)

/-- A command added, and the gauges brought in line. -/
theorem State.added_effect (u : State) (c : Cmd) (fen : Nat) : ((((u.addCmd c).1.syncCmd fen).syncGreq).cmdOf u.cmd.nextCid) = some c ∧
    u.onlyChanges ((u.addCmd c).1.syncCmd fen).syncGreq [.regs, .cmd] := by
  have hadd : u.onlyChanges (u.addCmd c).1 [.cmd] := by simp [State.onlyChanges_iff, State.addCmd]
  have hsync := State.onlyChanges_trans ((u.addCmd c).1.onlyChanges_syncCmd fen) (State.onlyChanges_syncGreq _)
  refine ⟨?_, (State.onlyChanges_mono hadd (by decide)).andThen hsync⟩
  exact (congrArg (fun b : CmdState => Tab.find? b.cmds u.cmd.nextCid) (hsync .cmd (by decide))).trans (Tab.find?_put_self _ _ _)

/-- Settles O29: a chunk by what its work is, a commit by whether more chunks follow, and a GATHER_REQ by its checks. -/
theorem chainsStageAndCommitTheirRows : Obligations.ChainsStageAndCommitTheirRows := by
  unfold Obligations.ChainsStageAndCommitTheirRows
  refine fun s => ⟨fun cid k c x h => ⟨fun w ws ps hwork harm hfails => exec_chain_stages h hwork harm hfails, ?_,
      fun si pos hwork => exec_chain_bad h hwork, fun w ws ps hwork harm hop hfails _ => exec_chain_runs_again h hwork harm hop hfails⟩,
    fun cid c x hc hf hx hsrc hop hstaged hw houts hmore => ?_, fun cid c x hc hf hx hsrc hop hstaged hw houts hlast => ?_,
    fun q rest hhe hkind => ⟨?_, fun hcopy => ?_, fun o p hnew hbad hpath => ?_⟩, fun a op ha hop => ?_⟩
  · intro g idx n start hlist hop hk hstart hlt hlate hn hread hidx hin hgood
    exact State.chainWork_gather hlist hop hk hstart hlt hlate hn hread hidx hin hgood
  · obtain ⟨r, hrows, hdropped, hflags, -, hexec⟩ := exec_chunkCommit_chain hc hf hx hsrc hop hstaged hw houts
    rw [if_pos hmore] at hexec
    exact ⟨_, _, hexec, State.cmdOf_upCid_self hc fun d => { d with
        chain := r, committed := c.committed + 1, chunks := Tab.del d.chunks c.committed }, rfl, hrows, hdropped, hflags,
      s.onlyChanges_rowsCommitted _ _ _ _⟩
  · obtain ⟨r, -, -, -, hlate, hexec⟩ := exec_chunkCommit_chain hc hf hx hsrc hop hstaged hw houts
    rw [if_neg (by omega), hlate] at hexec
    exact ⟨_, hexec, s.onlyChanges_rowsCommitted _ _ _ _⟩
  · rintro a p segs hnew hgood hquiet rfl hregion hsegs rfl hidx hlen hfen hclusters hroom hrefs
    obtain ⟨u, hu, hhe0, hexec⟩ := exec_gatherReq_joins hhe hkind hnew hgood hquiet hregion hsegs hidx hlen hfen hclusters hroom hrefs
    obtain ⟨hcmd, hparts⟩ := u.added_effect (q.gatherCmd (s.who q).1 (s.who q).2 s.hclk segs) (s.who q).2
    refine ⟨_, q.gatherCmd (s.who q).1 (s.who q).2 s.hclk segs, hexec, ?_, ?_, rfl, rfl, rfl, rfl, rfl, rfl, (State.onlyChanges_mono hu (by decide)).andThen hparts⟩
    · rw [hparts .fab (by decide)]
      exact hhe0
    · rw [← hcmd, hu .cmd (by decide)]
  · refine ⟨_, exec_gatherReq_copy hhe hkind hcopy, rfl, State.rd_bump_self (s.popHome rest) Reg.OPE_CNT_GREQ_DUP 0 0 1 (by decide), ?_⟩
    exact (State.onlyChanges_mono (s.onlyChanges_popHome rest) (by decide)).andThen (State.onlyChanges_bump _ _ _ _ _ (ps := [.regs]) (by decide))
  · refine ⟨_, exec_gatherReq_malformed hhe hkind hnew hbad, ?_⟩
    rw [State.answer_of_clearPath (s := s.popHome rest) hpath]
    exact ⟨rfl, State.voq_voqPush (s.popHome rest) _ _,
      (State.onlyChanges_mono (s.onlyChanges_popHome rest) (by decide)).andThen (State.onlyChanges_voqPush _ _ _)⟩
  · refine ⟨_, congrArg Host.Outcome.next (State.window_admitted ha _), ?_, State.rd_wr_self _ _ _ _ _ (by decide), ?_, ?_⟩
    · refine (State.rd_wr_separate _ _ _ _ _ (by decide) _ _).trans ((State.rd_wr_self _ _ _ _ _ (by decide)).trans (Nat.mod_eq_of_lt ?_))
      exact Nat.lt_trans hop (by decide)
    · simp [State.onlyChanges_iff, checkInjectOp]
    · exact State.regsKept_trans (s.regsKept_wr _ _ _ _ (by simp)) (State.regsKept_wr _ _ _ _ _ (by simp))

end Sys2Proof.Machine
end

section
/-!
PROOF. Attention (R227, R237, R240–R244, R254, R263): a STEP packet is answered or held, a message times out, the last part of a record ends it, an
APPEND's chunk stages its tokens, and the arena operations act on their arena.
-/
namespace Sys2Proof.Machine

/-! STEP packets. -/

/-- Forgetting ended messages where there is none changes nothing. -/
theorem State.upAtt_gone_of_nil {s : State} (h : s.att.gone = []) (live : Nat × Nat × Nat → Bool) :
    (s.upAtt fun b => { b with gone := b.gone.filter live }) = s := by
  have hatt : { s.att with gone := s.att.gone.filter live } = s.att := by
    rw [h]
    show { s.att with gone := [] } = s.att
    rw [← h]
  exact congrArg (fun a => { s with att := a }) hatt

section
variable {s : State} {q : QPkt} {rest : List QPkt} (hhe : s.fab.he0 = q :: rest) (hkind : q.pkt.kind = .step) (hgone : s.att.gone = [])
  (hretx : q.pkt.retx = false) (hheld : (Tab.findVal? s.att.msgs fun m => m.src == q.pkt.src && m.seq == q.pkt.seq) = none)
include hhe hkind hgone hretx hheld

/-- A new STEP packet as it is checked. -/
theorem step_new : exec .step s = .next (
    let u := s.popHome rest
    let p := q.pkt
    let fail := fun (s : State) (st low : Nat) =>
      let s := if (p.sLast && p.sPkt == 0) || st == stRETRY then s
        else s.upAtt fun b => { b with gone := b.gone ++ [(p.src, p.seq, s.hclk)] }
      s.stepStatus p st low
    let clid := (s.who q).1
    let fen := (s.who q).2
    let layers := if s.hasShape fen then (s.shape fen).l else 0
    match stepFieldBad s.hasAtt layers p with
    | some o => fail u stMALFORMED o
    | none =>
      if s.fenQuiet fen then fail u stRETRY 0
      else
        let rg := s.kvRegion fen
        let st := if p.region != rg || decide (64 ≤ fen) then stKEY_DENIED
          else s.regionCheck clid fen p.region p.key (rtR + rtC) ((s.rgn rg).base * unitBytes) 0
        if st ≠ stOK then fail u st 0
        else if layers = 0 || (s.fenClusters fen).isEmpty then fail u stNO_RESOURCE 0
        else if !s.ownsGroup fen p.sGroup then fail u stRANGE 0
        else match s.stepOpens p with
          | none => fail (u.bump Reg.SQT_CNT_STALE) stRANGE 0
          | some opens =>
            if 256 ≤ s.att.msgs.length then (u.bump Reg.ATT_CNT_MSG_BUSY).stepStatus p stRETRY 0
            else
              let mid := s.att.nextMsg
              let m : StepMsg := { src := p.src, seq := p.seq, clid := clid, fen := fen, cls := p.cls, group := p.sGroup
                                   layer := p.sLayer, step := p.arg, first := p, parts := [(p.sPkt, p.payload)]
                                   last := if p.sLast then some p.sPkt else none, start := s.hclk }
              let v := (u.upAtt fun b => { b with msgs := Tab.put b.msgs mid m, nextMsg := mid + 1 }).syncMsgs
              let v := if opens && !v.sqt.opens.any (fun o => o.1 == p.sGroup && o.2.1 == p.arg) then
                  (v.upSqt fun b => { b with opens := b.opens ++ [(p.sGroup, p.arg, v.tnow)] }).wr Reg.SQT_STAT_OPENING 1
                else v
              v.feedMsg mid) := by
  have htake : s.takeHome .step = some (q, s.popHome rest) := by
    rw [← hkind]
    exact State.takeHome_of_head hhe
  have hheld' : (Tab.findVal? (s.popHome rest).att.msgs fun m => m.src == q.pkt.src && m.seq == q.pkt.seq) = none := hheld
  have hgone' : (s.popHome rest).att.gone = [] := hgone
  refine congrArg Host.Outcome.next ?_
  unfold step_
  rw [htake]
  dsimp only
  rw [hheld']
  refine (if_neg (by simp [hretx])).trans ?_
  rw [State.upAtt_gone_of_nil hgone', hgone']
  refine (if_neg (by simp)).trans ?_
  rfl

/-- A STEP packet with a bad field is answered with its offset. -/
theorem step_malformed {o : Nat} (hatt : s.hasAtt = true)
    (hbad : stepFieldBad true (if s.hasShape (s.who q).2 then (s.shape (s.who q).2).l else 0) q.pkt = some o) (hlast : q.pkt.sLast = true)
    (hfirst : q.pkt.sPkt = 0) : exec .step s = .next ((s.popHome rest).stepStatus q.pkt stMALFORMED o) := by
  refine (step_new hhe hkind hgone hretx hheld).trans (congrArg Host.Outcome.next ?_)
  dsimp only
  rw [hatt, hbad]
  dsimp only
  rw [if_pos (by simp [hlast, hfirst])]

variable {fen rg : Nat} (hatt : s.hasAtt = true) (hfen : fen = (s.who q).2) (hlt : fen < 64)
  (hgood : stepFieldBad true (if s.hasShape fen then (s.shape fen).l else 0) q.pkt = none) (hquiet : s.fenQuiet fen = false)
  (hrg : rg = s.kvRegion fen) (hregion : q.pkt.region = rg)
  (hcheck : s.regionCheck (s.who q).1 fen q.pkt.region q.pkt.key (rtR + rtC) ((s.rgn rg).base * unitBytes) 0 = stOK)
  (hshape : s.hasShape fen = true) (hlayers : (s.shape fen).l ≠ 0) (hclusters : (s.fenClusters fen).isEmpty = false)
  (howns : s.ownsGroup fen q.pkt.sGroup = true)
include hatt hfen hlt hgood hquiet hrg hregion hcheck hshape hlayers hclusters howns

/-- The message that a STEP packet begins. -/
def QPkt.stepMsg (q : QPkt) (clid fen now : Nat) : StepMsg :=
  { src := q.pkt.src, seq := q.pkt.seq, clid := clid, fen := fen, cls := q.pkt.cls, group := q.pkt.sGroup, layer := q.pkt.sLayer, step := q.pkt.arg,
    first := q.pkt, parts := [(q.pkt.sPkt, q.pkt.payload)], last := if q.pkt.sLast then some q.pkt.sPkt else none, start := now }

/-- A STEP packet that passes its checks, by the step it names. -/
theorem step_checked : exec .step s = .next (match s.stepOpens q.pkt with
    | none =>
      let u := (s.popHome rest).bump Reg.SQT_CNT_STALE
      (if (q.pkt.sLast && q.pkt.sPkt == 0) || stRANGE == stRETRY then u
        else u.upAtt fun b => { b with gone := b.gone ++ [(q.pkt.src, q.pkt.seq, u.hclk)] }).stepStatus q.pkt stRANGE 0
    | some opens =>
      if 256 ≤ s.att.msgs.length then ((s.popHome rest).bump Reg.ATT_CNT_MSG_BUSY).stepStatus q.pkt stRETRY 0
      else
        let v := ((s.popHome rest).upAtt fun b => { b with
          msgs := Tab.put b.msgs s.att.nextMsg (q.stepMsg (s.who q).1 fen s.hclk), nextMsg := s.att.nextMsg + 1 }).syncMsgs
        (if opens && !v.sqt.opens.any (fun o => o.1 == q.pkt.sGroup && o.2.1 == q.pkt.arg) then
            (v.upSqt fun b => { b with opens := b.opens ++ [(q.pkt.sGroup, q.pkt.arg, v.tnow)] }).wr Reg.SQT_STAT_OPENING 1
          else v).feedMsg s.att.nextMsg) := by
  subst hfen hrg
  refine (step_new hhe hkind hgone hretx hheld).trans (congrArg Host.Outcome.next ?_)
  dsimp only
  rw [hatt, hgood]
  dsimp only
  have hst : (if q.pkt.region != s.kvRegion (s.who q).2 || decide (64 ≤ (s.who q).2) then stKEY_DENIED
      else s.regionCheck (s.who q).1 (s.who q).2 q.pkt.region q.pkt.key (rtR + rtC) ((s.rgn (s.kvRegion (s.who q).2)).base * unitBytes) 0) = stOK :=
    (if_neg (by simp [hregion]; omega)).trans hcheck
  rw [hst, if_neg (by rw [hquiet]; decide), if_neg (by decide), if_neg (by simp [hshape, hlayers, hclusters]), if_neg (by rw [howns]; decide)]
  rfl

end

/-- A STEP answered with a status packet on a clear path. -/
theorem State.stepStatus_effect {s : State} {p : Packet} {st low port : Nat} (hatt : s.hasAtt = true)
    (hpath : s.clearPath (gatherStatus p.stepEcho st low) port) : ∃ u, u = (if st = stMALFORMED then s.bump Reg.ATT_CNT_REC_MALF else s) ∧
    s.stepStatus p st low = u.voqPush port (u.sent (gatherStatus p.stepEcho st low)) ∧ s.onlyChanges u [.regs] := by
  refine ⟨_, rfl, ?_⟩
  unfold State.stepStatus
  by_cases hst : st = stMALFORMED
  · rw [if_pos hst]
    have hatt' : (s.bump Reg.ATT_CNT_REC_MALF).hasAtt = true := by
      rw [State.hasAtt, State.on, State.rd_bump_separate _ _ _ _ _ (by decide)]
      exact hatt
    dsimp only
    rw [if_pos hatt']
    exact ⟨State.answer_of_clearPath (State.clearPath_bump hpath (by decide) 0 0 1), s.onlyChanges_bump _ _ _ _ (by decide)⟩
  · rw [if_neg hst]
    dsimp only
    rw [if_pos hatt]
    exact ⟨State.answer_of_clearPath hpath, s.onlyChanges_refl _⟩

theorem State.msg_upMsg_self {s : State} {mid : Nat} {m : StepMsg} (hm : s.msg mid = some m) (f : StepMsg → StepMsg) :
    (s.upMsg mid f).msg mid = some (f m) := (Tab.find?_upd_self s.att.msgs mid f).trans (congrArg (Option.map f) hm)

/-- A message of a closed group none of whose records has begun waits: no record begins, and nothing is sent. -/
theorem State.feedMsg_waits {s : State} {mid : Nat} {m : StepMsg} (hm : s.msg mid = some m) (hclosed : (s.grp m.group).isOpen = false)
    (hbytes : 0 < (m.parts.map fun e => e.2.length).sum)
    (hfresh : m = { m with off := 0, recs := 0, results := [], joined := 0, carry := [], pkt := 0, ending := none }) :
    s.feedMsg mid = s.upMsg mid fun _ => m := by
  have hfeed : State.feedN 16386 s mid = s := by
    unfold State.feedN
    simp only [hm, hclosed]
    exact if_pos (by simp)
  have hunread : (m.off == (m.parts.map fun e => e.2.length).sum) = false := by
    rw [hfresh, beq_eq_false_iff_ne]
    exact (Nat.ne_of_lt hbytes)
  unfold State.feedMsg
  rw [hfeed]
  unfold State.flushMsg
  simp only [hm]
  rw [hunread]
  generalize m.complete = b
  rw [hfresh]
  simp

/-- The state with a new message held and the open of its step asked for. -/
def State.stepHeld (s : State) (p : Packet) (m : StepMsg) : State :=
  let v := (s.upAtt fun b => { b with msgs := Tab.put b.msgs s.att.nextMsg m, nextMsg := s.att.nextMsg + 1 }).syncMsgs
  (v.upSqt fun b => { b with opens := b.opens ++ [(p.sGroup, p.arg, v.tnow)] }).wr Reg.SQT_STAT_OPENING 1

theorem State.stepHeld_effect (s : State) (p : Packet) (m : StepMsg) : (s.stepHeld p m).msg s.att.nextMsg = some m ∧
    (s.stepHeld p m).sqt.opens = s.sqt.opens ++ [(p.sGroup, p.arg, s.tnow)] ∧ (∀ g, (s.stepHeld p m).grp g = s.grp g) ∧
    (s.stepHeld p m).rd Reg.SQT_STAT_OPENING = 1 ∧ s.onlyChanges (s.stepHeld p m) [.regs, .att, .sqt] := by
  exact ⟨Tab.find?_put_self _ _ _, rfl, fun g => rfl, State.rd_wr_self _ _ _ _ _ (by decide),
    by simp [State.onlyChanges_iff, State.stepHeld, State.syncMsgs]⟩

/-- A first packet of a closed group's step is held, and the open of its step is asked for. -/
theorem State.stepHeld_feedMsg (s : State) (q : QPkt) (clid fen now : Nat) (hclosed : (s.grp q.pkt.sGroup).isOpen = false)
    (hbytes : 0 < q.pkt.payload.length) : ∃ t, (s.stepHeld q.pkt (q.stepMsg clid fen now)).feedMsg s.att.nextMsg = t ∧
      t.msg s.att.nextMsg = some (q.stepMsg clid fen now) ∧ t.sqt.opens = s.sqt.opens ++ [(q.pkt.sGroup, q.pkt.arg, s.tnow)] ∧
      t.rd Reg.SQT_STAT_OPENING = 1 ∧ s.onlyChanges t [.regs, .att, .sqt] := by
  obtain ⟨hmsg, hopens, hgrp, hrd, hparts⟩ := s.stepHeld_effect q.pkt (q.stepMsg clid fen now)
  generalize s.stepHeld q.pkt (q.stepMsg clid fen now) = u at hmsg hopens hgrp hrd hparts
  have hwaits := State.feedMsg_waits hmsg ((congrArg Group.isOpen (hgrp q.pkt.sGroup)).trans hclosed) (by simpa [QPkt.stepMsg] using hbytes) rfl
  refine ⟨_, hwaits, ?_, hopens, hrd, ?_⟩
  · exact State.msg_upMsg_self hmsg fun _ => q.stepMsg clid fen now
  · refine hparts.andThen (qs := [.att]) ?_
    simp [State.onlyChanges_iff, State.upMsg]

/-! A message times out. -/

theorem State.dropMsg_effect {s : State} {mid : Nat} (hrecs : s.recordsOf mid = []) : (s.dropMsg mid).msg mid = none ∧
    (∀ k, k ≠ mid → (s.dropMsg mid).msg k = s.msg k) ∧ (∀ g : Fld, g.separate Reg.ATT_STAT_MSGS = true → ∀ a b, (s.dropMsg mid).rd g a b = s.rd g a b) ∧
    s.onlyChanges (s.dropMsg mid) [.regs, .att] := by
  have hdrop : s.dropMsg mid = (s.upAtt fun b => { b with msgs := Tab.del b.msgs mid }).syncMsgs := by
    unfold State.dropMsg
    rw [hrecs]
    rfl
  rw [hdrop]
  exact ⟨Tab.find?_del_self _ _, fun k hk => Tab.find?_del_ne _ hk, fun g hg a b => State.rd_wr_separate _ _ _ _ _ hg a b,
    by simp [State.onlyChanges_iff, State.syncMsgs]⟩

theorem exec_stepMsgTimeout_late {s : State} {mid : Nat} {m : StepMsg} (hm : s.msg mid = some m) (hpart : m.complete = false)
    (hlate : s.timeoutHclk ≤ s.hclk - m.start) : exec (.stepMsgTimeout mid) s = .next ((s.dropMsg mid).bump Reg.ATT_CNT_MSG_INCOMPLETE) := by
  refine congrArg Host.Outcome.next ?_
  unfold stepMsgTimeout
  rw [hm]
  exact if_neg (by simp [hpart]; omega)

/-! A record's parts. -/

/-- The command of a chunk that has staged. -/
theorem State.cmdOf_stage {s : State} {cid k : Nat} {c : Cmd} {x : Chunk} (hc : s.cmdOf cid = some c) (hx : Tab.find? c.chunks k = some x)
    (htest : x.selfTest = none) (f : Chunk → Chunk) : (s.stage cid k f).cmdOf cid =
      some { c with chunks := Tab.upd c.chunks k fun x => { f x with phase := .staged, progress := s.hclk } } := by
  unfold State.stage
  rw [State.rerunPassed_of_none hc hx htest]
  exact s.cmdOf_upChunk hc k fun x => { f x with phase := .staged, progress := s.hclk }

section
variable {s : State} {cid k cl : Nat} {c : Cmd} {x : Chunk} (hrun : s.runningChunk cid k = some (c, x, cl)) (hsrc : c.src = 2)
  (htest : x.selfTest = none)
include hrun hsrc htest

/-- A part stages, and the last one does the record's work. -/
theorem exec_stepRecord_staged {d : Cmd} (hd : d = { c with chunks := Tab.upd c.chunks k fun x => { x with phase := .staged, progress := s.hclk } }) :
    exec (.stepRecord cid k) s = .next (if d.chunks.length = d.nchunks && d.chunks.all (fun x => x.2.phase == .staged) then
      (s.stage cid k id).recordWork cid d else s.stage cid k id) := by
  obtain ⟨hc, hx⟩ := State.runningChunk_some hrun
  have hcmd := State.cmdOf_stage hc hx htest id
  refine congrArg Host.Outcome.next ?_
  unfold stepRecord
  rw [hrun]
  refine (if_neg (Classical.not_not.mpr hsrc)).trans ?_
  dsimp only
  rw [hcmd, hd]
  rfl

/-- A part that is not its record's last stages alone. -/
theorem exec_stepRecord_early (hmore : c.chunks.length ≠ c.nchunks) : ∃ t, exec (.stepRecord cid k) s = .next t ∧ s.stagedAs t cid k x := by
  obtain ⟨hc, hx⟩ := State.runningChunk_some hrun
  refine ⟨s.stage cid k id, (exec_stepRecord_staged hrun hsrc htest rfl).trans (congrArg _ (if_neg ?_)), State.stage_effect hc hx htest id⟩
  simp [Tab.upd, hmore]

end

/-- The blocks that a record selects for each KV head, each with whether it is late, out of those that are not empty. -/
def State.recordSelection (s : State) (c : Cmd) (nb : List (List KvBlock)) : List (List (KvBlock × Bool)) :=
  let h := s.shape c.fen
  let l := c.vals.getD 5 0
  nb.zipIdx.map fun (bs, hd) =>
    (s.selectBlocks h l ((h.heads hd).map fun j => ((List.range h.hq).map (h.query c.desc)).getD j []) bs).map fun k =>
      (k, k.seg.tier == tierTRAY && ((c.chunks.map fun x => x.2.late).flatten).contains k.key)

theorem State.recordSelection_of_empty {s : State} {c : Cmd} {nb : List (List KvBlock)} (h : ∀ bs ∈ nb, bs = []) :
    ∀ x ∈ s.recordSelection c nb, x = [] := by
  intro x hx
  obtain ⟨⟨bs, hd⟩, hbs, rfl⟩ := List.mem_map.mp hx
  have hnil : bs = [] := h bs (List.fst_mem_of_mem_zipIdx hbs)
  subst hnil
  simp [State.selectBlocks]

/-- A record that appends nothing and whose sequence has no page is answered OK. -/
theorem State.recordWork_no_pages {s : State} {cid : Nat} {c : Cmd} (hsegs : c.segs = []) (happ : recAppend c.desc = false)
    (htimed : (c.chunks.any fun x => x.2.timedOut) = false) :
    ∃ n d, s.recordWork cid c = s.answerRecord cid c stOK 0 (recHeader c.desc stOK false 0 n 0 0 ++ d) := by
  have happend : s.recordAppend c (s.shape c.fen) (c.vals.getD 5 0) = (s, stOK, false) := if_pos (by rw [happ]; rfl)
  obtain ⟨nb, hnb⟩ : ∃ nb, ((List.range (s.shape c.fen).hkv).map fun hd => s.blocksOf (s.shape c.fen) c (c.vals.getD 5 0) hd) = nb := ⟨_, rfl⟩
  have hempty : ∀ bs ∈ nb, bs = [] := by
    intro bs hbs
    rw [← hnb] at hbs
    obtain ⟨hd, -, rfl⟩ := List.mem_map.mp hbs
    unfold State.blocksOf
    rw [hsegs]
    rfl
  obtain ⟨sel, hsel⟩ : ∃ sel, s.recordSelection c nb = sel := ⟨_, rfl⟩
  have hnone : ∀ x ∈ sel, x = [] := hsel ▸ State.recordSelection_of_empty hempty
  have hskipped : (sel.map fun x => x.countP fun k => k.2).sum = 0 := sum_map_of_zero fun x hx => by
    rw [hnone x hx]
    rfl
  have hselected : (sel.map (·.length)).sum = 0 := sum_map_of_zero fun x hx => by
    rw [hnone x hx]
    rfl
  have hreads : recordReads (s.shape c.fen) (c.vals.getD 5 0) c sel.flatten = [] := by
    unfold recordReads
    rw [hsegs, List.flatten_eq_nil_iff.mpr hnone]
    rfl
  unfold State.recordSelection at hsel
  dsimp only at hsel
  unfold State.recordWork
  dsimp only
  rw [happend]
  dsimp only
  rw [hnb, hsel, hskipped, hselected, hreads, hsegs, htimed]
  simp only [List.append_assoc]
  exact ⟨_, _, rfl⟩

/-- A field within what has been put before. -/
theorem fld_append_of_le (a b : Bytes) {o k : Nat} (h : o + k ≤ a.length) : fld (a ++ b) o k = fld a o k := by
  have htake : ((a ++ b).drop o).take k = (a.drop o).take k := by
    rw [List.drop_append_of_le_length (by omega), List.take_append_of_le_length (by simp; omega)]
  unfold fld slice
  rw [htake]

/-- A field read after what stands before it. -/
theorem fld_append_of_length (a b : Bytes) {o : Nat} (h : a.length = o) (k : Nat) : fld (a ++ b) o k = fld b 0 k := by
  unfold fld slice
  rw [List.drop_left' h, List.drop_zero]

theorem fld_leBytes (k v : Nat) : fld (leBytes k v) 0 k = v % 256 ^ k := by
  have htake : (leBytes k v).take k = leBytes k v := List.take_of_length_le (Nat.le_of_eq (length_leBytes k v))
  have hall : slice (leBytes k v) 0 k = leBytes k v := by simp [slice, htake]
  rw [fld, hall, leNat_leBytes]

/-- A response's header begins with the sequence's index and the status. -/
theorem fld_recHeader (r d : Bytes) {st : Nat} (hst : st < 256) (app : Bool) (skipped tokens selected malf : Nat) :
    fld (recHeader r st app skipped tokens selected malf ++ d) 0 4 = fld r 0 4 ∧ fld (recHeader r st app skipped tokens selected malf ++ d) 4 1 = st := by
  unfold recHeader
  simp only [List.append_assoc]
  constructor
  · rw [fld_append_of_le _ _ (by simp), fld_leBytes]
    exact Nat.mod_eq_of_lt (fld_lt _ _ _)
  · rw [fld_append_of_length _ _ (by simp), fld_append_of_le _ _ (by simp), fld_leBytes]
    exact Nat.mod_eq_of_lt hst

theorem State.onlyChanges_noteRecord (s : State) (fen i st : Nat) : s.onlyChanges (s.noteRecord fen i st) [.sqt] := by
  unfold State.noteRecord
  dsimp only
  repeat' split
  all_goals simp [State.onlyChanges_iff, State.upSeq]

/-- A record answered OK: it is gone, its response stands in its message, and it is counted. -/
theorem State.answerRecord_ok_effect {s : State} {cid mid : Nat} {c d : Cmd} {m : StepMsg} (hc : s.cmdOf cid = some d) (hmid : mid = c.vals.getD 0 0)
    (hm : s.msg mid = some m) (r : Bytes) : ∃ u n, s.answerRecord cid c stOK 0 r = u.feedMsg mid ∧ u.msg mid = some n ∧
      Tab.find? n.results (c.vals.getD 1 0) = some r ∧ u.cmdOf cid = none ∧
      u.rd Reg.ATT_CNT_REC = min (s.rd Reg.ATT_CNT_REC + 1) (2 ^ Reg.ATT_CNT_REC.width - 1) ∧ s.onlyChanges u [.regs, .pool, .fab, .cmd, .att, .sqt] := by
  have hend := s.onlyChanges_endWork cid
  have hcmd := State.endWork_cmd hc
  have hrd := s.rd_endWork_separate cid (g := Reg.ATT_CNT_REC) (by decide) 0 0
  have hform : s.answerRecord cid c stOK 0 r =
      ((((((s.endWork cid).putResult mid (c.vals.getD 1 0) r).bump Reg.ATT_CNT_REC).bump Reg.ATT_CNT_SKIPPED 0 0 0).noteRecord c.fen
        (c.vals.getD 2 0) stOK)).feedMsg mid := by
    rw [hmid]
    rfl
  generalize s.endWork cid = u at hend hcmd hrd hform
  obtain ⟨v, hv⟩ : ∃ v, v = ((u.putResult mid (c.vals.getD 1 0) r).bump Reg.ATT_CNT_REC).bump Reg.ATT_CNT_SKIPPED 0 0 0 := ⟨_, rfl⟩
  have hvparts : u.onlyChanges v [.regs, .att] := by
    rw [hv]
    simp [State.onlyChanges_iff, State.putResult, State.upMsg]
  have hvmsg : v.msg mid = some { m with results := Tab.put m.results (c.vals.getD 1 0) r } := by
    have hum : u.msg mid = some m := (congrArg (fun b : AttState => Tab.find? b.msgs mid) (hend .att (by decide))).trans hm
    rw [hv]
    exact State.msg_upMsg_self hum fun m => { m with results := Tab.put m.results (c.vals.getD 1 0) r }
  have hvrd : v.rd Reg.ATT_CNT_REC = min (s.rd Reg.ATT_CNT_REC + 1) (2 ^ Reg.ATT_CNT_REC.width - 1) := by
    rw [hv, State.rd_bump_separate _ _ _ _ _ (by decide), State.rd_bump_self _ _ _ _ _ (by decide), ← hrd]
    rfl
  have hnote := v.onlyChanges_noteRecord c.fen (c.vals.getD 2 0) stOK
  rw [← hv] at hform
  refine ⟨_, _, hform, (congrArg (fun b : AttState => Tab.find? b.msgs mid) (hnote .att (by decide))).trans hvmsg, Tab.find?_put_self _ _ _, ?_,
    (State.rd_congr (hnote .regs (by decide)) _ _ _).trans hvrd,
    (((State.onlyChanges_mono hend (by decide)).andThen hvparts).andThen hnote)⟩
  rw [State.cmdOf, hnote .cmd (by decide), hvparts .cmd (by decide), hcmd]
  exact Tab.find?_del_self _ _

/-- The one part of a record without pages that appends nothing answers it. -/
theorem exec_stepRecord_last {s : State} {cid k cl mid : Nat} {c : Cmd} {x : Chunk} {m : StepMsg} (hrun : s.runningChunk cid k = some (c, x, cl))
    (hsrc : c.src = 2) (htest : x.selfTest = none) (hone : c.chunks = [(k, x)]) (hn : c.nchunks = 1) (hsegs : c.segs = [])
    (happ : recAppend c.desc = false) (hto : x.timedOut = false) (hmid : mid = c.vals.getD 0 0) (hm : s.msg mid = some m) :
    ∃ u n d, exec (.stepRecord cid k) s = .next (u.feedMsg mid) ∧ u.msg mid = some n ∧ Tab.find? n.results (c.vals.getD 1 0) = some d ∧
      fld d 0 4 = fld c.desc 0 4 ∧ fld d 4 1 = stOK ∧ u.cmdOf cid = none ∧
      u.rd Reg.ATT_CNT_REC = min (s.rd Reg.ATT_CNT_REC + 1) (2 ^ Reg.ATT_CNT_REC.width - 1) ∧
      s.onlyChanges u [.regs, .pool, .fab, .cmd, .att, .sqt] := by
  obtain ⟨hc, hx⟩ := State.runningChunk_some hrun
  have hcmd := State.cmdOf_stage hc hx htest id
  have hstage := (State.stage_effect hc hx htest id).2.2
  have hchunks : Tab.upd c.chunks k (fun x => { x with phase := .staged, progress := s.hclk }) = [(k, { x with phase := .staged, progress := s.hclk })] := by
    rw [hone]
    simp [Tab.upd]
  have hexec := (exec_stepRecord_staged hrun hsrc htest rfl).trans (congrArg _ (if_pos (by rw [hchunks, hn]; rfl)))
  obtain ⟨tokens, d, hwork⟩ := State.recordWork_no_pages (s := s.stage cid k id) (cid := cid)
    (c := { c with chunks := Tab.upd c.chunks k fun x => { x with phase := .staged, progress := s.hclk } }) hsegs happ (by rw [hchunks]; simp [hto])
  rw [hwork] at hexec
  generalize s.stage cid k id = v at hcmd hstage hexec
  have hvm : v.msg mid = some m := (congrArg (fun b : AttState => Tab.find? b.msgs mid) (hstage .att (by decide))).trans hm
  obtain ⟨u, n, hanswer, hun, hres, hgone, hrd, hparts⟩ := State.answerRecord_ok_effect hcmd (c := { c with
    chunks := Tab.upd c.chunks k fun x => { x with phase := .staged, progress := s.hclk } }) hmid hvm
      (recHeader c.desc stOK false 0 tokens 0 0 ++ d)
  obtain ⟨hidx, hst⟩ := fld_recHeader c.desc d (st := stOK) (by decide) false 0 tokens 0 0
  exact ⟨u, n, _, hexec.trans (congrArg _ hanswer), hun, hres, hidx, hst, hgone, by rw [hrd, State.rd_congr (hstage .regs (by decide))],
    (State.onlyChanges_mono hstage (by decide)).andThen hparts⟩

/-! APPEND. -/

/-- The summaries and blocks that a chunk of an APPEND adds its tokens to. -/
def State.appTargetSegs (s : State) (c : Cmd) (h : Shape) (b pg : Nat) : List Seg :=
  (h.cells.map fun (l, hd) => match s.appPage c pg hd with
    | some a => s.localSeg (a + h.summaryAt l (b % h.pb)) h.summaryBytes ++ s.localSeg (a + h.blockAt l (b % h.pb)) h.blockBytes
    | none => []).flatten

section
variable {s : State} {cid k p pp start n b pg : Nat} {c : Cmd} {x : Chunk} {h : Shape} (hruns : s.runsChunk cid k 0x28 c x) (hh : h = s.shape c.fen)
  (hbase : (p, pp) = s.appBase c) (hchunk : (start, n) = c.appChunk p k) (hplace : ∃ slot, (slot, b, pg) = h.place p pp (c.appPos + start))
  (hread : s.readFault (c.pieces 1 (start * h.tokenBytes) (n * h.tokenBytes)) = none)
include hruns hh hbase hchunk hplace hread

/-- A chunk whose tokens are read: its slices are checked, then its pages are acquired, then its target is read. -/
theorem exec_append_read : exec (.append cid k) s = .next (
    let d := s.readPieces (c.pieces 1 (start * h.tokenBytes) (n * h.tokenBytes))
    if h.cells.any fun (l, hd) => (h.slicesOf d n l hd).any fun b => (h.sliceBad b).isSome then s.finish cid stMALFORMED
    else
      let (s, ok) := if !c.appTarget && h.needsPage (s.seq c.fen c.appSeq) (c.appPos + start) then s.acquire c.fen c.appSeq
        else (s, !c.appTarget || (List.range h.hkv).all fun hd => (s.appPage c pg hd).isSome)
      if !ok then s.finish cid stNO_RESOURCE
      else
        match s.readFault (s.appTargetSegs c h b pg) with
        | some st => s.readFailed cid k st (s.appTargetSegs c h b pg) fun st s => s.finish cid st
        | none => s.stage cid k fun x => { x with writes := [{ data := d }] }) := by
  obtain ⟨⟨cl, hrun⟩, hop, hsrc, hto, -⟩ := hruns
  obtain ⟨slot, hplace⟩ := hplace
  subst hh
  refine congrArg Host.Outcome.next ?_
  unfold append
  simp only [hrun, hop, hsrc, hto, ← hbase, ← hchunk, ← hplace, hread]
  rfl

end

/-! Arena operations. -/

/-- An arena's operation of the attention assist, once its window admits it. -/
theorem State.attWindow_admitted {s : State} {a : Access} {off : Nat} (h : s.admitsWrite a off = true) (hatt : s.hasAtt = true)
    (act : State → State) : State.attWindow a off act s = act s :=
  (State.window_admitted h _).trans (if_pos hatt)

/-- The end of an arena operation. -/
theorem State.arEnd_effect (s : State) {st : Nat} (hst : st < 256) : (s.arEnd st).rd Reg.ATT_AR_STATUS_STATUS = st ∧
    (s.arEnd st).rd Reg.ATT_AR_STATUS_DONE = 1 ∧ s.onlyChanges (s.arEnd st) [.regs] := by
  obtain ⟨hstatus, hdone, hparts, -⟩ := s.setEnd_effect (f := Reg.ATT_AR_STATUS_STATUS) (g := Reg.ATT_AR_STATUS_DONE) rfl rfl (by decide) hst
  exact ⟨hstatus, hdone, hparts⟩

theorem State.onlyChanges_syncPages (s : State) (fen : Nat) : s.onlyChanges (s.syncPages fen) [.regs] := by
  unfold State.syncPages
  dsimp only
  exact State.onlyChanges_trans (by simp [State.onlyChanges_iff]) (State.onlyChanges_measure _ _ _ _ _)

/-- READ shows a registered arena. -/
theorem State.arRead_effect {s : State} {ar : Arena} (h : Tab.find? s.att.arenas (s.rd Reg.ATT_AR_INDEX_ARENA) = some ar) :
    s.arRead.rd Reg.ATT_AR_DATA0_FEN = ar.fen % 2 ^ Reg.ATT_AR_DATA0_FEN.width ∧ s.arRead.rd Reg.ATT_AR_DATA0_VALID = 1 ∧
    s.arRead.rd Reg.ATT_AR_DATA1 = ar.addr % 2 ^ 32 ∧ s.arRead.rd Reg.ATT_AR_DATA3_PAGES = ar.pages % 2 ^ Reg.ATT_AR_DATA3_PAGES.width ∧
    s.arRead.rd Reg.ATT_AR_DATA4_FREE = ar.nfree % 2 ^ Reg.ATT_AR_DATA4_FREE.width ∧ s.arRead.rd Reg.ATT_AR_STATUS_STATUS = stOK ∧
    s.onlyChanges s.arRead [.regs] := by
  unfold State.arRead
  rw [h]
  dsimp only
  unfold State.arEnd State.setEnd
  simp (disch := decide) only [State.rd_wr_separate, State.rd_wr_self]
  refine ⟨trivial, rfl, ?_, trivial, trivial, rfl, by simp [State.onlyChanges_iff]⟩
  exact Nat.mod_mod _ _

/-- The arena that REGISTER makes of an extent, as a POOL arena. -/
def State.poolArena (s : State) (f i : Nat) (e : Extent) : Arena :=
  { fen := f, kind := 0, addr := e.lo, ext := i, pages := min (e.length * unitBytes / (s.shape f).pageBytes) 1048575 }

/-- REGISTER of a whole RESIDENT extent of the fen's KV region makes it a POOL arena. -/
theorem State.arRegister_effect {s : State} {n f i addr : Nat} {e : Extent} (hn : n = s.rd Reg.ATT_AR_INDEX_ARENA)
    (hf : f = s.rd Reg.ATT_AR_DATA0_FEN) (hkind : s.rd Reg.ATT_AR_DATA0_KIND = 0) (hbusy : s.on Reg.ATT_AR_OP_BUSY = false)
    (hnew : Tab.find? s.att.arenas n = none) (haddr : addr = s.rd Reg.ATT_AR_DATA1 + 2 ^ 32 * (s.rd Reg.ATT_AR_DATA2 % 2 ^ 14))
    (hext : s.extAt addr = some (i, e)) (hlo : e.lo = addr) (hfen : e.fen = f) (hregion : e.region = s.kvRegion f) (htier : e.tier ≠ tierHOST)
    (hstate : e.state = exRESIDENT) (hpfx : e.pfx = false) (hshape : s.hasShape f = true) (hroom : s.att.arenas.length < 1024) :
    Tab.find? s.arRegister.att.arenas n = some (s.poolArena f i e) ∧
    (∀ k, k ≠ n → Tab.find? s.arRegister.att.arenas k = Tab.find? s.att.arenas k) ∧ s.arRegister.rd Reg.ATT_AR_STATUS_STATUS = stOK ∧
    s.arRegister.rd Reg.ATT_AR_STATUS_DONE = 1 ∧ s.onlyChanges s.arRegister [.regs, .att] := by
  obtain ⟨u, hu⟩ : ∃ u, u = (s.upAtt fun b => { b with arenas := Tab.put b.arenas n (s.poolArena f i e) }) := ⟨_, rfl⟩
  have hform : s.arRegister = ((if (s.poolArena f i e).pages != 0 then u.wr Reg.ATT_AR_OP_BUSY 1 else u).syncPages f).arEnd stOK := by
    unfold State.arRegister
    rw [← hn, ← hf, hkind, ← haddr, hbusy]
    refine (if_neg (by simp [Tab.has, hnew])).trans ?_
    rw [hext]
    dsimp only
    refine (if_neg (by simp [hlo, hfen, hregion, htier, hstate, hpfx, hshape])).trans ((if_neg (by omega)).trans ?_)
    rw [hu, State.poolArena, hlo]
    rfl
  obtain ⟨v, hv⟩ : ∃ v, v = (if (s.poolArena f i e).pages != 0 then u.wr Reg.ATT_AR_OP_BUSY 1 else u) := ⟨_, rfl⟩
  have hvparts : u.onlyChanges v [.regs] := by
    rw [hv]
    split
    · exact u.onlyChanges_wr _ _ _ _ (by decide)
    · exact u.onlyChanges_refl _
  obtain ⟨hstatus, hdone, hend⟩ := (v.syncPages f).arEnd_effect (st := stOK) (by decide)
  have hparts := State.onlyChanges_trans (State.onlyChanges_trans hvparts (v.onlyChanges_syncPages f)) hend
  rw [hform, ← hv]
  have hatt := hparts .att (by decide)
  refine ⟨?_, fun k hk => ?_, hstatus, hdone, ?_⟩
  · rw [hatt, hu]
    exact Tab.find?_put_self _ _ _
  · rw [hatt, hu]
    exact Tab.find?_put_ne _ _ hk
  · refine State.onlyChanges_trans ?_ (State.onlyChanges_mono hparts (by decide))
    rw [hu]
    simp [State.onlyChanges_iff]

/-- UNREGISTER of a POOL arena that holds no page removes it. -/
theorem State.arUnregister_effect {s : State} {n : Nat} {ar : Arena} (hn : n = s.rd Reg.ATT_AR_INDEX_ARENA) (hbusy : s.on Reg.ATT_AR_OP_BUSY = false)
    (har : Tab.find? s.att.arenas n = some ar) (hheld : ar.held = []) (hkind : ar.kind = 0) : Tab.find? s.arUnregister.att.arenas n = none ∧
    (∀ k, k ≠ n → Tab.find? s.arUnregister.att.arenas k = Tab.find? s.att.arenas k) ∧ s.arUnregister.rd Reg.ATT_AR_STATUS_STATUS = stOK ∧
    s.onlyChanges s.arUnregister [.regs, .att] := by
  obtain ⟨u, hu⟩ : ∃ u, u = (s.upAtt fun b => { b with arenas := Tab.del b.arenas n }) := ⟨_, rfl⟩
  have hform : s.arUnregister = (u.syncPages ar.fen).arEnd stOK := by
    unfold State.arUnregister
    rw [← hn, hbusy]
    refine (if_neg (by decide)).trans ?_
    rw [har]
    refine (if_neg (by simp [hheld, hkind])).trans ?_
    rw [hu]
  obtain ⟨hstatus, -, hend⟩ := (u.syncPages ar.fen).arEnd_effect (st := stOK) (by decide)
  have hparts := State.onlyChanges_trans (u.onlyChanges_syncPages ar.fen) hend
  have hatt := hparts .att (by decide)
  rw [hform]
  refine ⟨?_, fun k hk => ?_, hstatus, ?_⟩
  · rw [hatt, hu]
    exact Tab.find?_del_self _ _
  · rw [hatt, hu]
    exact Tab.find?_del_ne _ hk
  · refine State.onlyChanges_trans ?_ (State.onlyChanges_mono hparts (by decide))
    rw [hu]
    simp [State.onlyChanges_iff]

/-- A shape register written by no arena operation keeps the fen's shape. -/
theorem State.shape_wr_opCode (s : State) (v : Nat) {f : Nat} : (s.wr Reg.ATT_AR_OP_CODE v).shape f = s.shape f := by
  unfold State.shape
  simp (disch := decide) only [State.rd_wr_separate]

theorem State.rd_arOp (s : State) (v : Nat) {g : Fld} (h : g.separate Reg.ATT_AR_OP_CODE = true) (a b : Nat) :
    (s.wr Reg.ATT_AR_OP_CODE v).rd g a b = s.rd g a b := s.rd_wr_separate _ _ _ _ h _ _

/-- Settles O34: a STEP packet by its checks, a record by whether its parts have all staged, an APPEND by its slices, and each arena operation on
its arena. -/
theorem stepsAppendsAndArenasWork : Obligations.StepsAppendsAndArenasWork := by
  unfold Obligations.StepsAppendsAndArenasWork
  refine fun s hatt => ⟨?_, fun mid m hm hpart hlate hrecs => ?_, fun cid k c x cl hrun hsrc htest => ⟨exec_stepRecord_early hrun hsrc htest, ?_⟩,
    fun cid k c x h p pp start n b pg tgt hruns hh hbase hchunk hplace hread => ⟨fun hbad => ?_, fun hok htgt hpage htgtdef hgood => ?_⟩,
    fun a n ha hn => ⟨fun ar har => ?_, ?_, fun hhas => ?_, fun ar hbusy har => ⟨fun hheld hkind => ?_, fun hheld => ?_⟩⟩⟩
  · rintro q rest p hhe rfl hkind hgone hretx hheld
    have hpop := s.onlyChanges_popHome rest
    refine ⟨fun o port hbad hlast hfirst hpath => ?_, ?_⟩
    · obtain ⟨u, hu, hstat, huparts⟩ := State.stepStatus_effect (s := s.popHome rest) hatt hpath
      rw [if_pos rfl] at hu
      have hexec := step_malformed hhe hkind hgone hretx hheld hatt hbad hlast hfirst
      rw [hstat] at hexec
      subst hu
      refine ⟨_, hexec, rfl, rfl, State.voq_voqPush _ port _, State.rd_bump_self (s.popHome rest) Reg.ATT_CNT_REC_MALF 0 0 1 (by decide), ?_⟩
      exact ((State.onlyChanges_mono hpop (by decide)).andThen huparts).andThen (State.onlyChanges_voqPush _ _ _)
    · intro fen rg hfen hlt hgood hquiet hrg hregion hcheck hshape hlayers hclusters howns
      have hexec := step_checked hhe hkind hgone hretx hheld hatt hfen hlt hgood hquiet hrg hregion hcheck hshape hlayers hclusters howns
      refine ⟨fun hclosed hlayer hroom hbytes hasked => ?_, fun port hstale hlast hfirst hpath => ?_⟩
      · have hopens : s.stepOpens q.pkt = some true := by simp [State.stepOpens, hclosed, hlayer]
        have hheldform : exec .step s = .next (((s.popHome rest).stepHeld q.pkt (q.stepMsg (s.who q).1 fen s.hclk)).feedMsg s.att.nextMsg) := by
          rw [hexec, hopens]
          refine congrArg Host.Outcome.next ((if_neg (by omega)).trans ?_)
          dsimp only
          refine congrArg (fun u : State => u.feedMsg s.att.nextMsg) (if_pos ?_)
          exact (congrArg (fun b => true && !b) hasked).trans rfl
        obtain ⟨t, ht, hmsg, hsqt, hrd, hparts⟩ := (s.popHome rest).stepHeld_feedMsg q (s.who q).1 fen s.hclk hclosed hbytes
        refine ⟨t, _, hheldform.trans (congrArg _ ht), by rw [hparts .fab (by decide)]; rfl, hmsg, rfl, rfl, rfl, rfl, hlayer, rfl, rfl, rfl, rfl, hsqt, hrd, ?_⟩
        exact (State.onlyChanges_mono hpop (by decide)).andThen hparts
      · rw [hstale] at hexec
        have hatt' : ((s.popHome rest).bump Reg.SQT_CNT_STALE).hasAtt = true := by
          rw [State.hasAtt, State.on, State.rd_bump_separate _ _ _ _ _ (by decide)]
          exact hatt
        obtain ⟨u, hu, hstat, -⟩ := State.stepStatus_effect hatt' (State.clearPath_bump (s := s.popHome rest) hpath (by decide) 0 0 1)
        rw [if_neg (by decide)] at hu
        dsimp only at hexec
        rw [if_pos (by simp [hlast, hfirst]), hstat] at hexec
        subst hu
        refine ⟨_, hexec, rfl, State.voq_voqPush _ port _, State.rd_bump_self (s.popHome rest) Reg.SQT_CNT_STALE 0 0 1 (by decide), ?_⟩
        exact ((State.onlyChanges_mono hpop (by decide)).andThen (State.onlyChanges_bump _ _ _ _ _ (ps := [.regs]) (by decide))).andThen
          (State.onlyChanges_voqPush _ _ _)
  · obtain ⟨hgone, hothers, hrd, hparts⟩ := State.dropMsg_effect hrecs
    refine ⟨_, exec_stepMsgTimeout_late hm hpart hlate, hgone, hothers, ?_, ?_⟩
    · rw [State.rd_bump_self _ _ _ _ _ (by decide), hrd _ (by decide)]
    · exact hparts.andThen (State.onlyChanges_bump _ _ _ _ _ (ps := [.regs]) (by decide))
  · intro mid m hone hnc hsegs happ hto _ hmid hm
    exact exec_stepRecord_last hrun hsrc htest hone hnc hsegs happ hto hmid hm
  · exact (exec_append_read hruns hh hbase hchunk hplace hread).trans (congrArg Host.Outcome.next (if_pos hbad))
  · refine ⟨_, (exec_append_read hruns hh hbase hchunk hplace hread).trans (congrArg Host.Outcome.next ?_), hruns.stagedAs fun x => { x with
      writes := [{ data := s.readPieces (c.pieces 1 (start * h.tokenBytes) (n * h.tokenBytes)) }] }⟩
    refine (if_neg (by rw [hok]; decide)).trans ?_
    simp only [htgt, hpage, Bool.not_false, Bool.true_or, Bool.and_false, Bool.false_eq_true, if_false, Bool.not_true]
    rw [show tgt = s.appTargetSegs c h b pg from htgtdef] at hgood
    rw [hgood]
  · obtain ⟨hfen, hvalid, hdata, hpages, hfree, hstatus, hparts⟩ := State.arRead_effect (s := s.wr Reg.ATT_AR_OP_CODE 1) (ar := ar)
      (by rw [s.rd_arOp 1 (by decide), ← hn]; exact har)
    exact ⟨_, congrArg Host.Outcome.next (State.attWindow_admitted ha hatt _), hfen, hvalid, hdata, hpages, hfree, hstatus,
      (s.onlyChanges_wr _ _ _ _ (by decide) : s.onlyChanges _ [.regs]).andThen hparts⟩
  · intro f i e hf hlt hkind hbusy hnew hext hlo hfen hregion htier hstate hpfx hshape hroom
    have hshape' : (s.wr Reg.ATT_AR_OP_CODE 2).hasShape f = true := by
      rw [State.hasShape, State.hasAtt, State.on, s.rd_arOp 2 (by decide), s.rd_arOp 2 (by decide)]
      exact hshape
    obtain ⟨hput, hothers, hstatus, hdone, hparts⟩ := State.arRegister_effect (s := s.wr Reg.ATT_AR_OP_CODE 2) (n := n) (f := f)
      (by rw [s.rd_arOp 2 (by decide), ← hn]) (by rw [s.rd_arOp 2 (by decide), ← hf]) (by rw [s.rd_arOp 2 (by decide), hkind])
      (by rw [State.on, s.rd_arOp 2 (by decide)]; exact hbusy) hnew (by rw [s.rd_arOp 2 (by decide), s.rd_arOp 2 (by decide)]) hext hlo hfen
      (by rw [State.kvRegion, s.rd_arOp 2 (by decide)]; exact hregion) htier hstate hpfx hshape' hroom
    rw [State.poolArena, State.shape_wr_opCode] at hput
    exact ⟨_, congrArg Host.Outcome.next (State.attWindow_admitted ha hatt _), hput, hothers, hstatus, hdone,
      (s.onlyChanges_wr _ _ _ _ (by decide) : s.onlyChanges _ [.regs, .att]).andThen hparts⟩
  · have hform : (s.wr Reg.ATT_AR_OP_CODE 2).arRegister = (s.wr Reg.ATT_AR_OP_CODE 2).arEnd stRETRY := by
      unfold State.arRegister
      rw [s.rd_arOp 2 (g := Reg.ATT_AR_INDEX_ARENA) (by decide), ← hn]
      exact if_pos (by rw [show (s.wr Reg.ATT_AR_OP_CODE 2).att = s.att from rfl, hhas, Bool.or_true])
    obtain ⟨hstatus, -, hparts⟩ := (s.wr Reg.ATT_AR_OP_CODE 2).arEnd_effect (st := stRETRY) (by decide)
    exact ⟨_, congrArg Host.Outcome.next ((State.attWindow_admitted ha hatt _).trans hform), hstatus,
      (s.onlyChanges_wr _ _ _ _ (by decide) : s.onlyChanges _ [.regs]).andThen hparts⟩
  · obtain ⟨hgone, hothers, hstatus, hparts⟩ := State.arUnregister_effect (s := s.wr Reg.ATT_AR_OP_CODE 3) (n := n)
      (by rw [s.rd_arOp 3 (by decide), ← hn]) (by rw [State.on, s.rd_arOp 3 (by decide)]; exact hbusy) har hheld hkind
    exact ⟨_, congrArg Host.Outcome.next (State.attWindow_admitted ha hatt _), hgone, hothers, hstatus,
      (s.onlyChanges_wr _ _ _ _ (by decide) : s.onlyChanges _ [.regs, .att]).andThen hparts⟩
  · have hform : (s.wr Reg.ATT_AR_OP_CODE 3).arUnregister = (s.wr Reg.ATT_AR_OP_CODE 3).arEnd stRETRY := by
      unfold State.arUnregister
      rw [s.rd_arOp 3 (g := Reg.ATT_AR_INDEX_ARENA) (by decide), ← hn, State.on, s.rd_arOp 3 (g := Reg.ATT_AR_OP_BUSY) (by decide)]
      refine (if_neg (by rw [← State.on, hbusy]; decide)).trans ?_
      rw [show (s.wr Reg.ATT_AR_OP_CODE 3).att = s.att from rfl, har]
      exact if_pos (by simp [hheld])
    obtain ⟨hstatus, -, hparts⟩ := (s.wr Reg.ATT_AR_OP_CODE 3).arEnd_effect (st := stRETRY) (by decide)
    exact ⟨_, congrArg Host.Outcome.next ((State.attWindow_admitted ha hatt _).trans hform), hstatus,
      (s.onlyChanges_wr _ _ _ _ (by decide) : s.onlyChanges _ [.regs]).andThen hparts⟩

end Sys2Proof.Machine
end

section
/-!
PROOF. Checkpoint sets (R318–R323, R327–R330, R332, R334, R336, R338).  A chunk of a checkpoint command acts with its set and stages; the polls
send a round, wait or end; and the set table's operations act on their entry.
-/
namespace Sys2Proof.Machine

/-! Headers. -/

@[simp] theorem length_padTo (n : Nat) (b : Bytes) : (padTo n b).length = n := length_slice b 0 n

/-- A field within what is padded or cut. -/
theorem fld_padTo {n o k : Nat} (b : Bytes) (h : o + k ≤ n) (hb : o + k ≤ b.length) : fld (padTo n b) o k = fld b o k := by
  unfold padTo fld
  congr 1
  unfold slice
  dsimp only
  rw [List.drop_zero]
  have hlen : o + k ≤ (b.take n).length := by
    rw [List.length_take]
    omega
  rw [List.drop_append_of_le_length (by omega), List.take_append_of_le_length (by rw [List.length_drop]; omega), List.drop_take, List.take_take,
    Nat.min_eq_left (by omega)]

/-- The first granule of a header before it is padded. -/
def headerFields (st member epoch units stripes raw blocks flags : Nat) : Bytes :=
  ascii "KNWC" ++ leBytes 2 0x0100 ++ leBytes 1 st ++ leBytes 1 member ++ leBytes 8 epoch ++ leBytes 4 units ++ leBytes 4 stripes ++ leBytes 8 raw ++
    leBytes 8 blocks ++ leBytes 1 flags

theorem length_ascii_KNWC : (ascii "KNWC").length = 4 := by
  simp [ascii]

theorem length_headerBytes (st member epoch units stripes raw blocks flags : Nat) (all : List Nat) :
    (headerBytes st member epoch units stripes raw blocks flags all).length = 128 := by
  simp [headerBytes]

section
variable (st member epoch units stripes raw blocks flags : Nat) (all : List Nat) (d : Bytes)

/-- A field of a header is one of its first granule's fields. -/
theorem fld_headerBytes {o k : Nat} (h : o + k ≤ 41) : fld (headerBytes st member epoch units stripes raw blocks flags all ++ d) o k =
    fld (headerFields st member epoch units stripes raw blocks flags) o k := by
  have hlen : (headerFields st member epoch units stripes raw blocks flags).length = 41 := by simp [headerFields, length_ascii_KNWC]
  unfold headerBytes
  rw [List.append_assoc, fld_append_of_le _ _ (by rw [length_padTo]; omega)]
  exact fld_padTo _ (by omega) (Nat.le_trans h (Nat.le_of_eq hlen.symm))

/-- The fields of a header (R319). -/
theorem hd_headerBytes : hdState (headerBytes st member epoch units stripes raw blocks flags all ++ d) = st % 2 ^ 8 ∧
    hdEpoch (headerBytes st member epoch units stripes raw blocks flags all ++ d) = epoch % 2 ^ 64 ∧
    hdUnits (headerBytes st member epoch units stripes raw blocks flags all ++ d) = units % 2 ^ 32 ∧
    hdStripes (headerBytes st member epoch units stripes raw blocks flags all ++ d) = stripes % 2 ^ 32 ∧
    hdRaw (headerBytes st member epoch units stripes raw blocks flags all ++ d) = raw % 2 ^ 64 ∧
    hdBlocks (headerBytes st member epoch units stripes raw blocks flags all ++ d) = blocks % 2 ^ 64 := by
  have hfield : ∀ (a : Bytes) {o k : Nat} (v : Nat) (b : Bytes), a.length = o → fld (a ++ (leBytes k v ++ b)) o k = v % 256 ^ k := fun a o k v b ha => by
    rw [fld_append_of_length _ _ ha, fld_append_of_le _ _ (by rw [length_leBytes]; omega), fld_leBytes]
  have hread : ∀ {o k : Nat} (v : Nat) (a b : Bytes), o + k ≤ 41 → a.length = o →
      headerFields st member epoch units stripes raw blocks flags = a ++ (leBytes k v ++ b) →
      fld (headerBytes st member epoch units stripes raw blocks flags all ++ d) o k = v % 256 ^ k := fun v a b ho ha heq => by
    rw [fld_headerBytes _ _ _ _ _ _ _ _ _ _ ho, heq, hfield _ _ _ ha]
  refine ⟨hread st (ascii "KNWC" ++ leBytes 2 0x0100) (leBytes 1 member ++ leBytes 8 epoch ++ leBytes 4 units ++ leBytes 4 stripes ++ leBytes 8 raw ++
      leBytes 8 blocks ++ leBytes 1 flags) (by decide) ?_ ?_,
    hread epoch (ascii "KNWC" ++ leBytes 2 0x0100 ++ leBytes 1 st ++ leBytes 1 member)
      (leBytes 4 units ++ leBytes 4 stripes ++ leBytes 8 raw ++ leBytes 8 blocks ++ leBytes 1 flags) (by decide) ?_ ?_,
    hread units (ascii "KNWC" ++ leBytes 2 0x0100 ++ leBytes 1 st ++ leBytes 1 member ++ leBytes 8 epoch)
      (leBytes 4 stripes ++ leBytes 8 raw ++ leBytes 8 blocks ++ leBytes 1 flags) (by decide) ?_ ?_,
    hread stripes (ascii "KNWC" ++ leBytes 2 0x0100 ++ leBytes 1 st ++ leBytes 1 member ++ leBytes 8 epoch ++ leBytes 4 units)
      (leBytes 8 raw ++ leBytes 8 blocks ++ leBytes 1 flags) (by decide) ?_ ?_,
    hread raw (ascii "KNWC" ++ leBytes 2 0x0100 ++ leBytes 1 st ++ leBytes 1 member ++ leBytes 8 epoch ++ leBytes 4 units ++ leBytes 4 stripes)
      (leBytes 8 blocks ++ leBytes 1 flags) (by decide) ?_ ?_,
    hread blocks (ascii "KNWC" ++ leBytes 2 0x0100 ++ leBytes 1 st ++ leBytes 1 member ++ leBytes 8 epoch ++ leBytes 4 units ++ leBytes 4 stripes ++
      leBytes 8 raw) (leBytes 1 flags) (by decide) ?_ ?_⟩ <;> simp [headerFields, length_ascii_KNWC]
end

/-! Chunks. -/

section
variable {s : State} {cid k op : Nat} {c : Cmd} {x : Chunk} {z : CkpSet} (hz : s.ckpSet c.ckpSetNo = some z) (hfails : x.fails = 0)

include hz in
/-- A chunk that runs acts with its set. -/
theorem State.runCkp_of_runs (h : s.runsChunk cid k op c x) (act : Cmd → Chunk → CkpSet → State → State) : s.runCkp cid k op act = act c x z s := by
  obtain ⟨⟨cl, hrun⟩, hop, hsrc, hto, -⟩ := h
  unfold State.runCkp
  simp only [hrun, hop, hsrc, hto, hz, ne_eq, not_true_eq_false, decide_false, Bool.or_self, if_false, Bool.false_eq_true]

/-- The command and the entry of a chunk that runs. -/
theorem State.runsChunk.entry (h : s.runsChunk cid k op c x) : s.cmdOf cid = some c ∧ Tab.find? c.chunks k = some x ∧ x.selfTest = none := by
  obtain ⟨⟨cl, hrun⟩, -, -, -, htest⟩ := h
  obtain ⟨hc, hx⟩ := State.runningChunk_some hrun
  exact ⟨hc, hx, htest⟩

include hfails in
theorem State.ckpStage_of_fresh (f : Chunk → Chunk) : s.ckpStage cid k x f = s.stage cid k f :=
  congrArg (fun s : State => s.stage cid k f) (if_neg (by omega))

theorem State.ckpRead_of_good {ps : List Seg} (h : s.readFault ps = none) (act : Bytes → State → State) :
    s.ckpRead cid k ps act = act (s.readPieces ps) s := by
  unfold State.ckpRead
  rw [h]

include hz hfails

theorem exec_ckpOpen (h : s.runsChunk cid k 0x30 c x) : exec (.ckpOpen cid k) s = .next (s.stage cid k fun x => { x with
    writes := s.areaWrite z (slotHeader c.epoch) (headerBytes ckOPEN z.self c.epoch 0 0 0 0 0 [] ++ List.replicate 64 0) }) :=
  congrArg Host.Outcome.next ((State.runCkp_of_runs hz h _).trans (State.ckpStage_of_fresh hfails _))

theorem exec_ckpEncode (h : s.runsChunk cid k 0x31 c x) {w v n : Nat} {ps : List Seg} (hw : w = ckpSize c.ckpFmt) (hv : v = 65536 / w * k)
    (hn : n = min (65536 / w) (c.p4 % 2 ^ 32 - v)) (hps : ps = c.pieces 0 (v * w) (n * w)) (hgood : s.readFault ps = none) {vs : List Nat}
    (hvs : vs = (List.range n).map fun i => fld (s.readPieces ps) (i * w) w) {bs : List (Bytes × Bool)}
    (hbs : bs = (List.range (ceilDiv n 4096)).map fun j =>
      ckpEncode c.ckpFmt c.ckpObj ((c.p3 + (v + 4096 * j) * w) % 2 ^ 64) ((vs.drop (4096 * j)).take 4096)) :
    exec (.ckpEncode cid k) s = .next (s.stage cid k fun x => { x with blobs := bs.map (·.1), vals := [n, bs.countP (·.2)] }) := by
  subst hw hv hn hps hvs hbs
  refine congrArg Host.Outcome.next ((State.runCkp_of_runs hz h _).trans ?_)
  exact (State.ckpRead_of_good hgood _).trans (State.ckpStage_of_fresh hfails _)

theorem exec_ckpSeal (h : s.runsChunk cid k 0x32 c x) {hd : Bytes} (hgood : s.readFault (s.areaSegs z (slotHeader c.epoch) 64) = none)
    (hhd : hd = s.readPieces (s.areaSegs z (slotHeader c.epoch) 64)) : exec (.ckpSeal cid k) s = .next (
      if hdState hd = ckSEALED then s.stage cid k id else s.stage cid k fun x => { x with
        writes := s.areaWrite z (z.slotBase c.epoch + z.cursor c.epoch)
            (List.replicate (ceilDiv (z.cursor c.epoch) unitBytes * unitBytes - z.cursor c.epoch) 0) ++
          s.areaWrite z (slotHeader c.epoch) (patch (patch hd 6 (leBytes 1 ckSEALED)) 16 (leBytes 4 (ceilDiv (z.cursor c.epoch) unitBytes))) }) := by
  subst hhd
  refine congrArg Host.Outcome.next ((State.runCkp_of_runs hz h _).trans ((State.ckpRead_of_good hgood _).trans ?_))
  dsimp only
  rw [State.ckpStage_of_fresh hfails, State.ckpStage_of_fresh hfails]

theorem exec_ckpCommit (h : s.runsChunk cid k 0x34 c x) (hpolled : c.ckp.polled = true) : exec (.ckpCommit cid k) s = .next (s.stage cid k id) := by
  refine congrArg Host.Outcome.next ((State.runCkp_of_runs hz h _).trans ((if_neg ?_).trans (State.ckpStage_of_fresh hfails _)))
  rw [hpolled]
  decide

end

/-! Units of the members. -/

section
variable {s : State} {cid k : Nat} {c : Cmd} {x : Chunk} (hc : s.cmdOf cid = some c) (hx : Tab.find? c.chunks k = some x) (htest : x.selfTest = none)

theorem State.onlyChanges_forgetPeers (s : State) (cid lo hi : Nat) : s.onlyChanges (s.forgetPeers cid lo hi) [.fab, .cmd] := by
  simp [State.onlyChanges_iff, State.forgetPeers, State.upCid]

theorem State.running_forgetPeers (s : State) (cid lo hi : Nat) : (s.forgetPeers cid lo hi).cmd.running = s.cmd.running := rfl

theorem State.cmdOf_forgetPeers {s : State} {cid : Nat} {c : Cmd} (hc : s.cmdOf cid = some c) (lo hi : Nat) : (s.forgetPeers cid lo hi).cmdOf cid =
    some { c with peers := c.peers.filter fun p => p.1 < lo || decide (hi ≤ p.1) } :=
  State.cmdOf_upCid_self (s := s.upFab fun b => { b with eng := b.eng.filter fun e => e.2.cid != cid || e.2.tag < lo || decide (hi ≤ e.2.tag) }) hc
    fun c => { c with peers := c.peers.filter fun p => p.1 < lo || decide (hi ≤ p.1) }

include hc hx htest in
/-- A chunk that has staged keeps what it staged when its answers are forgotten. -/
theorem State.stage_forgetPeers_effect (f : Chunk → Chunk) (lo hi : Nat) : (((s.stage cid k f).forgetPeers cid lo hi).cmdOf cid).bind
      (fun d => Tab.find? d.chunks k) = some { f x with phase := .staged, progress := s.hclk } ∧
    (∀ r ∈ ((s.stage cid k f).forgetPeers cid lo hi).cmd.running, r.2 ≠ (cid, k)) ∧
    s.onlyChanges ((s.stage cid k f).forgetPeers cid lo hi) [.fab, .cmd] := by
  obtain ⟨-, hrun, hframe⟩ := State.stage_effect hc hx htest f
  refine ⟨?_, hrun, (State.onlyChanges_mono hframe (by decide)).andThen (State.onlyChanges_forgetPeers _ _ _ _)⟩
  rw [State.cmdOf_forgetPeers (State.cmdOf_stage hc hx htest f), Option.bind_some, Tab.find?_upd_self, hx, Option.map_some]

end

/-- Answers that are all OK have no worst one. -/
theorem ckpWorst_of_ok {sts : List Nat} (h : ∀ st ∈ sts, st = stOK) : ckpWorst sts = stOK := by
  have hnil : sts.filter (· != stOK) = [] := List.filter_eq_nil_iff.mpr fun st hst => by simp [h st hst]
  rw [ckpWorst, hnil, List.foldl_nil]

/-- A chunk whose units have all come goes on with them. -/
theorem State.withUnits_of_answered (s : State) (cid k : Nat) {c : Cmd} (z : CkpSet) {us : List UnitRef}
    (h : ∀ g, g ∈ unitTags k us → ∃ d, Tab.find? c.peers g = some (stOK, d)) (act : List (Nat × Bytes) → State → State) :
    s.withUnits cid k c z us act = (act (us.map fun u => (u.pos, c.unitData k u)) s).forgetPeers cid (tagUnit k 0 0) (tagUnit (k + 1) 0 0) := by
  have hall : ((unitTags k us).any fun t => !Tab.has c.peers t) = false := by
    rw [List.any_eq_false]
    intro g hg
    obtain ⟨d, hd⟩ := h g hg
    simp [Tab.has, hd]
  have hok : ckpWorst ((unitTags k us).filterMap fun t => (Tab.find? c.peers t).map (·.1)) = stOK := ckpWorst_of_ok fun st hst => by
    obtain ⟨g, hg, hgst⟩ := List.mem_filterMap.mp hst
    obtain ⟨d, hd⟩ := h g hg
    rw [hd] at hgst
    exact (Option.some.inj hgst).symm
  unfold State.withUnits
  dsimp only
  rw [hall, hok]
  rfl

/-! Polls. -/

theorem State.upCkpWork_ckp {s : State} {cid : Nat} {c : Cmd} (hc : s.cmdOf cid = some c) (f : CkpWork → CkpWork) :
    (s.upCkpWork cid f).cmdOf cid = some { c with ckp := f c.ckp } := State.cmdOf_upCid_self hc fun c => { c with ckp := f c.ckp }

/-- A round of a set with no other member only notes its time. -/
theorem State.pollRound_alone {s : State} {cid : Nat} {c : Cmd} {z : CkpSet} (hc : s.cmdOf cid = some c) (hwait : c.ckp.waitFrom = none)
    (halone : z.others = []) : ((s.pollRound cid c z).cmdOf cid).map (·.ckp) = some { c.ckp with waitFrom := some s.hclk, lastPoll := s.hclk } ∧
    s.onlyChanges (s.pollRound cid c z) [.fab, .cmd] := by
  have hround : s.pollRound cid c z =
      (s.forgetPeers cid 0 16).upCkpWork cid fun r => { r with waitFrom := r.waitFrom.or (some s.hclk), lastPoll := s.hclk } := by
    unfold State.pollRound
    rw [halone]
    rfl
  rw [hround]
  constructor
  · rw [State.upCkpWork_ckp (State.cmdOf_forgetPeers hc 0 16), Option.map_some]
    dsimp only
    rw [hwait]
    rfl
  · exact (s.onlyChanges_forgetPeers cid 0 16).andThen (qs := [.cmd]) (State.onlyChanges_upCid _ _ _)

section
variable {s : State} {cid k : Nat} {c : Cmd} {x : Chunk} {z : CkpSet} (hz : s.ckpSet c.ckpSetNo = some z)
include hz

/-- PARITY's first run sends a round. -/
theorem exec_ckpParity_begin (h : s.runsChunk cid k 0x33 c x) (hpolled : c.ckp.polled = false) (hwait : c.ckp.waitFrom = none)
    (hgood : s.readFault (s.areaSegs z (slotHeader c.epoch) 192) = none) : exec (.ckpParity cid k) s = .next (s.pollRound cid c z) := by
  refine congrArg Host.Outcome.next ((State.runCkp_of_runs hz h _).trans ((if_pos (by rw [hpolled]; rfl)).trans ?_))
  refine (State.ckpRead_of_good hgood _).trans (if_pos ?_)
  rw [hwait]
  rfl

variable (hfails : x.fails = 0)
include hfails

/-- PARITY stages P or Q of one of its stripes. -/
theorem exec_ckpParity_unit (h : s.runsChunk cid k 0x33 c x) (hpolled : c.ckp.polled = true) (hk : k < 2 * c.ckp.stripes / 10) {st : Nat}
    (hst : st = parityStripe z.self k) (hall : ∀ g, g ∈ unitTags k (c.dataRefs st) → ∃ d, Tab.find? c.peers g = some (stOK, d)) {y : Bytes}
    (hy : y = if holderP st = z.self then gfP unitBytes ((c.dataRefs st).map fun u => (u.pos, c.unitData k u))
      else gfQ unitBytes ((c.dataRefs st).map fun u => (u.pos, c.unitData k u))) : exec (.ckpParity cid k) s =
    .next ((s.stage cid k fun x => { x with writes := s.areaWrite z (z.slotBase c.epoch + z.parityOff k) y }).forgetPeers cid
      (tagUnit k 0 0) (tagUnit (k + 1) 0 0)) := by
  subst hst hy
  refine congrArg Host.Outcome.next ((State.runCkp_of_runs hz h _).trans ((if_neg (by rw [hpolled]; decide)).trans ((if_pos hk).trans ?_)))
  refine (s.withUnits_of_answered cid k z hall _).trans ?_
  dsimp only
  rw [State.ckpStage_of_fresh hfails]

/-- PARITY's last chunk seals its slot. -/
theorem exec_ckpParity_header (h : s.runsChunk cid k 0x33 c x) (hpolled : c.ckp.polled = true) (hk : 2 * c.ckp.stripes / 10 ≤ k) {hd : Bytes}
    (hgood : s.readFault (s.areaSegs z (slotHeader c.epoch) 64) = none) (hhd : hd = s.readPieces (s.areaSegs z (slotHeader c.epoch) 64)) :
    exec (.ckpParity cid k) s = .next (s.stage cid k fun x => { x with
      writes := s.areaWrite z (slotHeader c.epoch) (patch (patch hd 6 (leBytes 1 ckPARITY_DONE)) 20 (leBytes 4 c.ckp.stripes) ++
        padTo 64 ((c.ckp.units.map fun u => leBytes 4 u).flatten)) }) := by
  subst hhd
  refine congrArg Host.Outcome.next ((State.runCkp_of_runs hz h _).trans ((if_neg (by rw [hpolled]; decide)).trans ((if_neg (by omega)).trans ?_)))
  exact (State.ckpRead_of_good hgood _).trans (State.ckpStage_of_fresh hfails _)

/-! REBUILD. -/

variable (h : s.runsChunk cid k 0x36 c x) (hpolled : c.ckp.polled = true)
include h hpolled

/-- A stripe in which this home holds no unit needs no work. -/
theorem exec_ckpRebuild_none (hk : k < c.ckp.stripes) (hp : holderP k ≠ z.self) (hq : holderQ k ≠ z.self)
    (hu : c.ckp.units.getD z.self 0 ≤ dataUnit z.self k) : exec (.ckpRebuild cid k) s = .next (s.stage cid k id) := by
  refine congrArg Host.Outcome.next ((State.runCkp_of_runs hz h _).trans ((if_neg (by rw [hpolled]; decide)).trans ((if_pos hk).trans ?_)))
  refine (if_pos ?_).trans (State.ckpStage_of_fresh hfails _)
  rw [beq_eq_false_iff_ne.mpr hp, beq_eq_false_iff_ne.mpr hq, decide_eq_true hu]
  rfl

/-- A stripe in which this home holds a unit stages it at its place. -/
theorem exec_ckpRebuild_unit (hk : k < c.ckp.stripes) {us : List UnitRef} (hus : us = c.rebuildRefs z k)
    (hall : ∀ g, g ∈ unitTags k us → ∃ d, Tab.find? c.peers g = some (stOK, d)) {off : Nat}
    (hoff : (holderP k = z.self ∨ holderQ k = z.self) ∧ off = (z.slotUnits - 1 - parityUnit z.self k) * unitBytes ∨
      holderP k ≠ z.self ∧ holderQ k ≠ z.self ∧ dataUnit z.self k < c.ckp.units.getD z.self 0 ∧ off = dataUnit z.self k * unitBytes) :
    exec (.ckpRebuild cid k) s = .next ((s.stage cid k fun x => { x with
      writes := s.areaWrite z (z.slotBase c.epoch + off) (rebuildUnit z.self k (us.map fun u => (u.pos, c.unitData k u)))
      vals := [1] }).forgetPeers cid (tagUnit k 0 0) (tagUnit (k + 1) 0 0)) := by
  subst hus
  refine congrArg Host.Outcome.next ((State.runCkp_of_runs hz h _).trans ((if_neg (by rw [hpolled]; decide)).trans ((if_pos hk).trans ?_)))
  obtain ⟨hneed, hplace⟩ : (!(holderP k == z.self || holderQ k == z.self) && decide (c.ckp.units.getD z.self 0 ≤ dataUnit z.self k)) = false ∧
      (if (holderP k == z.self || holderQ k == z.self) = true then z.parityOff (parityUnit z.self k) else dataOff (dataUnit z.self k)) = off := by
    rcases hoff with ⟨hmine, rfl⟩ | ⟨hp, hq, hlt, rfl⟩
    · have hm : (holderP k == z.self || holderQ k == z.self) = true := by simpa using hmine
      rw [hm]
      exact ⟨rfl, if_pos rfl⟩
    · rw [beq_eq_false_iff_ne.mpr hp, beq_eq_false_iff_ne.mpr hq, decide_eq_false (by omega)]
      exact ⟨rfl, if_neg (by decide)⟩
  refine (if_neg (by rw [hneed]; decide)).trans ((s.withUnits_of_answered cid k z hall _).trans ?_)
  rw [hplace, State.ckpStage_of_fresh hfails]

/-- REBUILD's last chunk stages the durable header. -/
theorem exec_ckpRebuild_header (hk : c.ckp.stripes ≤ k) : exec (.ckpRebuild cid k) s = .next (s.stage cid k fun x => { x with
    writes := s.areaWrite z (slotHeader c.epoch) (headerBytes ckPARITY_DONE z.self c.epoch (c.ckp.units.getD z.self 0) c.ckp.stripes 0 0 1 c.ckp.units ++
      markBytes c.epoch s.tnow (s.rd Reg.POOL_HOME_HOME)) }) := by
  refine congrArg Host.Outcome.next ((State.runCkp_of_runs hz h _).trans ((if_neg (by rw [hpolled]; decide)).trans ((if_neg (by omega)).trans ?_)))
  exact State.ckpStage_of_fresh hfails _

end

/-! Walks. -/

/-- What a walk's chunk stages once its walk has come to `p`, the stream ended or not (`f`). -/
def Chunk.walked (x : Chunk) (c : Cmd) (op : Nat) (bs : List WalkBlock) (p f : Nat) : Chunk :=
  let mine := if op = 0x37 then bs else bs.filter fun b => b.blk.obj == c.ckpObj
  let fits := fun (b : WalkBlock) => decide (c.p3 ≤ b.blk.off) &&
    decide (b.blk.off - c.p3 + b.blk.count * ckpSize b.blk.fmt ≤ c.ref0.bytes)
  let use := if op = 0x37 then mine else mine.filter fits
  let ws := if op = 0x37 then [] else (use.map fun b => c.stageAtRef 0 (b.blk.off - c.p3)
    ((b.blk.values.map fun v => leBytes (ckpSize b.blk.fmt) v).flatten)).flatten
  { x with writes := ws, vals := [p, f, (use.map fun b => b.blk.count).sum, bs.length, mine.length - use.length] }

theorem Chunk.walked_verify (x : Chunk) (c : Cmd) (bs : List WalkBlock) (p f : Nat) :
    x.walked c 0x37 bs p f = { x with writes := [], vals := [p, f, (bs.map fun b => b.blk.count).sum, bs.length, 0] } := by
  simp [Chunk.walked]

/-- Where every block of the object fits, DECODE leaves none out. -/
theorem Chunk.walked_decode (x : Chunk) (c : Cmd) {bs us : List WalkBlock} (hus : us = bs.filter fun b => b.blk.obj == c.ckpObj)
    (hfit : ∀ b ∈ us, c.p3 ≤ b.blk.off ∧ b.blk.off - c.p3 + b.blk.count * ckpSize b.blk.fmt ≤ c.ref0.bytes) (p f : Nat) :
    x.walked c 0x35 bs p f = { x with
      writes := (us.map fun b => c.stageAtRef 0 (b.blk.off - c.p3) ((b.blk.values.map fun v => leBytes (ckpSize b.blk.fmt) v).flatten)).flatten
      vals := [p, f, (us.map fun b => b.blk.count).sum, bs.length, 0] } := by
  subst hus
  have hall := List.filter_eq_self.mpr fun b hb => (Bool.and_eq_true _ _).mpr ⟨decide_eq_true (hfit b hb).1, decide_eq_true (hfit b hb).2⟩
  unfold Chunk.walked
  simp only [show (0x35 : Nat) ≠ 0x37 by decide, if_false, hall, Nat.sub_self]

section
variable {s : State} {cid k op o last : Nat} {c : Cmd} {x : Chunk} {z : CkpSet} {bs : List WalkBlock} {e : WalkEnd}
  (hz : s.ckpSet c.ckpSetNo = some z) (h : s.runsChunk cid k op c x) (hstart : c.walkStart k = some (o, false))
  (hlast : last = hdUnits (s.ckpHeader z c.epoch) * unitBytes) (hwalk : s.walk z c ((k + 1) * unitBytes) last 1025 o [] = (bs, e))
include hz h hstart hlast hwalk

/-- A walk that meets a bad block ends its command. -/
theorem State.walkChunk_bad {b : Nat} (he : e = .bad b) : s.walkChunk cid k op =
    ((s.upCkpWork cid fun r => { r with firstBad := some b }).bump Reg.CKP_CNT_CRC_FAIL).finish cid stCHECK_FAIL := by
  subst hlast he
  refine (State.runCkp_of_runs hz h _).trans ?_
  dsimp only
  rw [hstart]
  dsimp only
  rw [if_neg (by decide), hwalk]

/-- A walk that goes on or ends stages what it has met. -/
theorem State.walkChunk_good (hfails : x.fails = 0) {p f : Nat} (he : e = .at_ p ∧ f = 0 ∨ e = .done ∧ p = last ∧ f = 1) :
    s.walkChunk cid k op = s.stage cid k fun x => x.walked c op bs p f := by
  subst hlast
  refine (State.runCkp_of_runs hz h _).trans ?_
  dsimp only
  rw [hstart]
  dsimp only
  rw [if_neg (by decide), hwalk]
  rcases he with ⟨rfl, rfl⟩ | ⟨rfl, rfl, rfl⟩ <;> exact State.ckpStage_of_fresh hfails _

end

/-- DECODE and VERIFY are the walks of their opcodes. -/
theorem exec_walk {op : Nat} (hop : op = 0x35 ∨ op = 0x37) {en : Instr} {cid k : Nat}
    (hen : en = if op = 0x35 then .ckpDecode cid k else .ckpVerify cid k) (s : State) : exec en s = .next (s.walkChunk cid k op) := by
  subst hen
  rcases hop with rfl | rfl <;> rfl

/-- What a command that notes a failure and counts it leaves. -/
theorem State.upCkpWork_bump_effect {s : State} {cid : Nat} {c : Cmd} (hc : s.cmdOf cid = some c) (f : CkpWork → CkpWork) {g : Fld} (hg : g.width ≤ 32) :
    ((s.upCkpWork cid f).bump g).cmdOf cid = some { c with ckp := f c.ckp } ∧
    ((s.upCkpWork cid f).bump g).rd g = min (s.rd g + 1) (2 ^ g.width - 1) ∧ s.onlyChanges ((s.upCkpWork cid f).bump g) [.regs, .cmd] :=
  ⟨State.upCkpWork_ckp hc f, State.rd_bump_self (s.upCkpWork cid f) g 0 0 1 hg,
    (State.onlyChanges_mono (s.onlyChanges_upCid cid fun c => { c with ckp := f c.ckp }) (by decide)).andThen (qs := [.regs])
      (State.onlyChanges_bump _ _ _ _ _ (by decide))⟩

/-! A waiting command's polls. -/

section
variable {s : State} {cid t0 : Nat} {c : Cmd} {z : CkpSet} (hc : s.cmdOf cid = some c) (hckp : isCkp c.opcode = true) (hpolled : c.ckp.polled = false)
  (hwait : c.ckp.waitFrom = some t0) (hz : s.ckpSet c.ckpSetNo = some z) (hjudge : c.judgePoll z (s.ckpHeader z c.epoch) = .waiting)
include hc hckp hpolled hwait hz hjudge

/-- The next poll of a command that waits. -/
theorem exec_ckpHeaderPoll_waiting : exec (.ckpHeaderPoll cid) s = .next (
    if c.waitUs ≤ s.sinceUs t0 then
      ((s.upCkpWork cid fun r => { r with bad := memberMask (if c.opcode = 0x36 then z.others.filter fun m => (c.polledHeader m).isNone
        else c.notReady z (s.ckpHeader z c.epoch)) }).bump Reg.CKP_CNT_WAIT_TO).finish cid stTIMEOUT
    else if c.opcode = 0x36 || s.sinceUs c.ckp.lastPoll < max 1 (s.rd Reg.CKP_POLL_US) then s
    else s.pollRound cid c z) := by
  refine congrArg Host.Outcome.next ?_
  unfold ckpHeaderPoll
  simp only [hc, hckp, hpolled, hwait, hz, hjudge, Bool.not_true, Bool.or_self, Bool.false_eq_true, if_false]

theorem exec_ckpHeaderPoll_late (hlate : c.waitUs ≤ s.sinceUs t0) (hop : c.opcode ≠ 0x36) : ∃ u,
    exec (.ckpHeaderPoll cid) s = .next (u.finish cid stTIMEOUT) ∧
    u.cmdOf cid = some { c with ckp := { c.ckp with bad := memberMask (c.notReady z (s.ckpHeader z c.epoch)) } } ∧
    u.rd Reg.CKP_CNT_WAIT_TO = min (s.rd Reg.CKP_CNT_WAIT_TO + 1) (2 ^ Reg.CKP_CNT_WAIT_TO.width - 1) ∧ s.onlyChanges u [.regs, .cmd] := by
  refine ⟨_, (exec_ckpHeaderPoll_waiting hc hckp hpolled hwait hz hjudge).trans (congrArg Host.Outcome.next (if_pos hlate)), ?_⟩
  rw [if_neg hop]
  exact State.upCkpWork_bump_effect hc (fun r => { r with bad := memberMask (c.notReady z (s.ckpHeader z c.epoch)) }) (by decide)

theorem exec_ckpHeaderPoll_due (hearly : s.sinceUs t0 < c.waitUs) (hop : c.opcode ≠ 0x36)
    (hdue : max 1 (s.rd Reg.CKP_POLL_US) ≤ s.sinceUs c.ckp.lastPoll) : exec (.ckpHeaderPoll cid) s = .next (s.pollRound cid c z) := by
  refine (exec_ckpHeaderPoll_waiting hc hckp hpolled hwait hz hjudge).trans (congrArg Host.Outcome.next ((if_neg (by omega)).trans (if_neg ?_)))
  rw [decide_eq_false hop, decide_eq_false (by omega)]
  decide

theorem exec_ckpHeaderPoll_early (hearly : s.sinceUs t0 < c.waitUs)
    (hnot : c.opcode = 0x36 ∨ s.sinceUs c.ckp.lastPoll < max 1 (s.rd Reg.CKP_POLL_US)) : exec (.ckpHeaderPoll cid) s = .next s :=
  (exec_ckpHeaderPoll_waiting hc hckp hpolled hwait hz hjudge).trans (congrArg Host.Outcome.next ((if_neg (by omega)).trans (if_pos (by simpa using hnot))))

end

/-! COMMIT's own marker. -/

/-- A commit with no other member writes its marker and ends. -/
theorem exec_chunkCommit_marker {s : State} {cid : Nat} {c : Cmd} {x : Chunk} {z : CkpSet} {v : StagedWrite} (hc : s.cmdOf cid = some c)
    (hf : s.fatal = false) (hx : Tab.find? c.chunks c.committed = some x) (hsrc : c.src = 0) (hstaged : x.phase = .staged) (hop : c.opcode = 0x34)
    (hz : s.ckpSet c.ckpSetNo = some z) (halone : z.others = [])
    (hv : s.areaWrite z (slotHeader c.epoch + 128) (markBytes c.epoch s.tnow (s.rd Reg.POOL_HOME_HOME)) = [v]) (htier : v.tier = tierNEAR)
    (hdata : v.data.length = 64) (hgood : s.badRange tierNEAR v.at_ 64 = false) (hwf : Memory.wf s.near = true) : ∃ u,
    exec (.chunkCommit cid) s = .next (((u.goesOn cid c).syncCmd c.fen).preempt) ∧ memRead u.near v.at_ 64 = v.data ∧
    (∀ b, (b < v.at_ ∨ v.at_ + 64 ≤ b) → memGet u.near b = memGet s.near b) ∧ s.onlyChanges u [.near, .flt, .cmd] := by
  obtain ⟨ks, hks⟩ := State.performWrite_good (s := s) (w := v) (by rw [htier, hdata]; exact hgood) (by omega)
  obtain ⟨y, hy⟩ : ∃ y, y = (s.mendKeys ks).writeTier tierNEAR v.at_ v.data := ⟨_, rfl⟩
  have hnear : y.near = memWrite s.near v.at_ v.data := by
    rw [hy]
    rfl
  have hframe : s.onlyChanges y [.near, .flt] := by
    rw [hy]
    simp [State.onlyChanges_iff, State.mendKeys, State.writeTier]
  have hcommit : s.ckpCommitChunk cid c.committed c x =
      (y.upCid cid fun d => { d with committed := c.committed + 1, chunks := Tab.del d.chunks c.committed }).goesOn cid c := by
    unfold State.ckpCommitChunk State.markCommit
    simp only [hz, hop, hv, halone, State.performAll, List.foldl_cons, List.foldl_nil, hks, htier, ← hy, List.isEmpty_nil, if_true,
      show (0x34 : Nat) ≠ 0x31 by decide, if_false]
    rfl
  refine ⟨y.upCid cid fun d => { d with committed := c.committed + 1, chunks := Tab.del d.chunks c.committed }, ?_, ?_, fun b hb => ?_,
    (State.onlyChanges_mono hframe (by decide)).andThen (y.onlyChanges_upCid _ _)⟩
  · refine congrArg Host.Outcome.next ?_
    rw [← hcommit]
    unfold chunkCommit
    simp [hc, hf, hx, hsrc, hstaged, hop, isCkp]
  · show memRead y.near _ _ = _
    rw [hnear, ← hdata, memRead_memWrite hwf]
  · show memGet y.near _ = _
    rw [hnear, memGet_write_outside _ _ _ _ hwf (by rw [hdata]; exact hb)]

/-! The set table. -/

/-- The end of a set operation. -/
theorem State.ckpSetEnd_effect (s : State) {st : Nat} (hst : st < 256) : (s.ckpSetEnd st).rd Reg.CKP_SET_STATUS_STATUS = st ∧
    (s.ckpSetEnd st).rd Reg.CKP_SET_STATUS_DONE = 1 ∧ s.onlyChanges (s.ckpSetEnd st) [.regs] ∧
    s.regsKeptBut (s.ckpSetEnd st) [Reg.CKP_SET_STATUS_STATUS.key 0 0, Reg.CKP_SET_STATUS_DONE.key 0 0] :=
  s.setEnd_effect rfl rfl (by decide) hst

theorem State.areaSegs_of_ext {s : State} {z : CkpSet} {j : Nat} {e : Extent} (h : s.extAt z.own.area = some (j, e)) (o n : Nat) :
    s.areaSegs z o n = [{ ref := 2, tier := e.tier, at_ := e.at_ (z.own.area + o), len := n, ext := j }] := by
  unfold State.areaSegs
  rw [h]

theorem State.areaWrite_of_ext {s : State} {z : CkpSet} {j : Nat} {e : Extent} (h : s.extAt z.own.area = some (j, e)) (o : Nat) (d : Bytes) :
    s.areaWrite z o d = [{ tier := e.tier, at_ := e.at_ (z.own.area + o), data := d }] := by
  unfold State.areaWrite
  rw [State.areaSegs_of_ext h, stagePieces, stagePieces, List.take_length]

/-- A header depends on the extents and on the memories alone. -/
theorem State.ckpHeader_congr {s t : State} (h : s.onlyChanges t [.regs]) (z : CkpSet) (epoch : Nat) : t.ckpHeader z epoch = s.ckpHeader z epoch := by
  have hext : t.extAt z.own.area = s.extAt z.own.area := by
    unfold State.extAt
    rw [h .pool (by decide)]
  unfold State.ckpHeader State.areaSegs
  rw [hext]
  unfold State.readPieces
  simp only [State.readTier_congr (h .near (by decide)) (h .tray (by decide)) (h .host (by decide))]

theorem State.ckpD_congr {s t : State} (h : s.onlyChanges t [.regs]) (z : CkpSet) : t.ckpD z = s.ckpD z := by
  unfold State.ckpD
  rw [State.ckpHeader_congr h, State.ckpHeader_congr h]

/-- Show the members' words. -/
def State.showMembers (s : State) (mem : List CkpMember) : State :=
  (List.range 10).foldl (fun s m =>
    let p := mem.getD m {}
    ((((s.wr Reg.CKP_SET_M_HOME p.home m).wr Reg.CKP_SET_M_REGION p.region m).wr Reg.CKP_SET_M_KEY p.key m).wr
      Reg.CKP_SET_M_AREA_LO (p.area % 2 ^ 32) m).wr Reg.CKP_SET_M_AREA_HI (p.area / 2 ^ 32) m) s

/-- The fields of the members' words. -/
def memberFlds : List Fld := [Reg.CKP_SET_M_HOME, Reg.CKP_SET_M_REGION, Reg.CKP_SET_M_KEY, Reg.CKP_SET_M_AREA_LO, Reg.CKP_SET_M_AREA_HI]

theorem State.rd_showMembers (s : State) (mem : List CkpMember) {g : Fld} (h : (memberFlds.all fun f => g.separate f) = true) (a b : Nat) :
    (s.showMembers mem).rd g a b = s.rd g a b := by
  obtain ⟨h1, h2, h3, h4, h5⟩ : g.separate Reg.CKP_SET_M_HOME = true ∧ g.separate Reg.CKP_SET_M_REGION = true ∧ g.separate Reg.CKP_SET_M_KEY = true ∧
      g.separate Reg.CKP_SET_M_AREA_LO = true ∧ g.separate Reg.CKP_SET_M_AREA_HI = true := by
    simpa [memberFlds] using h
  unfold State.showMembers
  generalize List.range 10 = ms
  induction ms generalizing s with
  | nil => rfl
  | cons m ms ih =>
    rw [List.foldl_cons, ih]
    simp only [State.rd_wr_separate _ _ _ _ _ h1, State.rd_wr_separate _ _ _ _ _ h2, State.rd_wr_separate _ _ _ _ _ h3,
      State.rd_wr_separate _ _ _ _ _ h4, State.rd_wr_separate _ _ _ _ _ h5]

theorem State.onlyChanges_showMembers (s : State) (mem : List CkpMember) : s.onlyChanges (s.showMembers mem) [.regs] := by
  unfold State.showMembers
  generalize List.range 10 = ms
  induction ms generalizing s with
  | nil => exact s.onlyChanges_refl _
  | cons m ms ih => exact State.onlyChanges_trans (by simp [State.onlyChanges_iff]) (ih _)

/-- What READ shows of a set, before its members and its headers. -/
def State.showSet (s : State) (z : CkpSet) (on : Bool) : State :=
  (((((s.wr Reg.CKP_SET_DATA0_FEN z.fen).wrb Reg.CKP_SET_DATA0_VALID on).wrb Reg.CKP_SET_DATA0_PARITY z.parity).wr
    Reg.CKP_SET_DATA0_SELF z.self).wr Reg.CKP_SET_DATA0_MEMBERS z.members).wr Reg.CKP_SET_DATA1_SLOT_UNITS z.slotUnits

/-- What READ shows of a set's headers. -/
def State.showDurable (s : State) (d st0 st1 : Nat) : State :=
  (((s.wr Reg.CKP_SET_DATA42 (d % 2 ^ 32)).wr Reg.CKP_SET_DATA43 (d / 2 ^ 32)).wr Reg.CKP_SET_DATA44_STATE0 st0).wr Reg.CKP_SET_DATA44_STATE1 st1

theorem State.onlyChanges_shownSet (s : State) (z : CkpSet) (on : Bool) : s.onlyChanges ((s.showSet z on).showMembers z.mem) [.regs] :=
  State.onlyChanges_trans (by simp [State.onlyChanges_iff, State.showSet]) (State.onlyChanges_showMembers _ _)

/-- READ of a registered set. -/
theorem State.ckpSetRead_some {s : State} {z : CkpSet} (h : s.ckpSet (s.rd Reg.CKP_SET_INDEX_SET) = some z) : s.ckpSetRead =
    ((((s.showSet z true).showMembers z.mem).showDurable (s.ckpD z) (hdState (s.ckpHeader z 0)) (hdState (s.ckpHeader z 1)))).ckpSetEnd stOK := by
  have hframe := s.onlyChanges_shownSet z true
  rw [← State.ckpD_congr hframe, ← State.ckpHeader_congr hframe, ← State.ckpHeader_congr hframe]
  unfold State.ckpSetRead
  dsimp only
  rw [h]
  rfl

/-- READ of an index that holds no set. -/
theorem State.ckpSetRead_none {s : State} (h : s.ckpSet (s.rd Reg.CKP_SET_INDEX_SET) = none) :
    s.ckpSetRead = (((s.showSet { members := 0 } false).showMembers []).showDurable 0 0 0).ckpSetEnd stOK := by
  unfold State.ckpSetRead
  dsimp only
  rw [h]
  rfl

/-- The words that READ shows. -/
theorem State.shown_effect (s : State) (z : CkpSet) (on : Bool) (d st0 st1 : Nat) {t : State}
    (ht : t = (((s.showSet z on).showMembers z.mem).showDurable d st0 st1).ckpSetEnd stOK) : t.rd Reg.CKP_SET_DATA0_VALID = b2n on ∧
    t.rd Reg.CKP_SET_DATA0_FEN = z.fen % 2 ^ Reg.CKP_SET_DATA0_FEN.width ∧
    t.rd Reg.CKP_SET_DATA1_SLOT_UNITS = z.slotUnits % 2 ^ Reg.CKP_SET_DATA1_SLOT_UNITS.width ∧ t.rd Reg.CKP_SET_DATA42 = d % 2 ^ 32 ∧
    t.rd Reg.CKP_SET_DATA44_STATE0 = st0 % 2 ^ Reg.CKP_SET_DATA44_STATE0.width ∧
    t.rd Reg.CKP_SET_DATA44_STATE1 = st1 % 2 ^ Reg.CKP_SET_DATA44_STATE1.width ∧ t.rd Reg.CKP_SET_STATUS_STATUS = stOK ∧
    t.rd Reg.CKP_SET_STATUS_DONE = 1 ∧ s.onlyChanges t [.regs] := by
  subst ht
  obtain ⟨hstatus, hdone, hframe, -⟩ := (((s.showSet z on).showMembers z.mem).showDurable d st0 st1).ckpSetEnd_effect (st := stOK) (by decide)
  refine ⟨?_, ?_, ?_, ?_, ?_, ?_, hstatus, hdone,
    State.onlyChanges_trans (State.onlyChanges_trans (s.onlyChanges_shownSet z on) (by simp [State.onlyChanges_iff, State.showDurable])) hframe⟩
  all_goals
    unfold State.ckpSetEnd State.setEnd State.showDurable
    simp (disch := decide) only [State.rd_wr_separate, State.rd_wr_self, State.rd_showMembers, State.showSet, State.wrb]
  · cases on <;> rfl
  · exact Nat.mod_mod _ _

/-! Ranges stored as zeros. -/

/-- The cells that a tier keeps. -/
def State.tierCells (s : State) (tier : Nat) : List Host.Cell := if tier = tierNEAR then s.near else if tier = tierTRAY then s.tray else s.host

theorem State.readTier_eq (s : State) (tier a n : Nat) : s.readTier tier a n = memRead (s.tierCells tier) a n := by
  unfold State.readTier State.tierCells
  split
  · rfl
  · split <;> rfl

theorem State.tierCells_writeTier (s : State) (tier a : Nat) (d : Bytes) : (s.writeTier tier a d).tierCells tier = memWrite (s.tierCells tier) a d := by
  unfold State.writeTier State.tierCells
  split
  · rfl
  · split <;> rfl

theorem cellsOf_zeros (a n : Nat) : cellsOf a (List.replicate n 0) = [] := by
  induction n generalizing a with
  | zero => rfl
  | succ n ih => exact (if_pos rfl).trans (ih (a + 1))

/-- The cells left by a store of zeros. -/
theorem mem_memWrite_zeros {m : List Host.Cell} {a n : Nat} {c : Host.Cell} :
    c ∈ memWrite m a (List.replicate n 0) ↔ c ∈ m ∧ (c.1 < a ∨ a + n ≤ c.1) := by
  unfold memWrite
  rw [cellsOf_zeros, List.append_nil, List.mem_append, List.mem_filter, List.mem_filter, List.length_replicate, decide_eq_true_iff, decide_eq_true_iff,
    and_or_left]

/-- A store of whole granules meets no granule that it leaves in part. -/
theorem State.performWrite_whole (s : State) {w : StagedWrite} {n : Nat} (hpos : 0 < n) (hlen : w.data.length = 64 * n) (halign : w.at_ % 64 = 0)
    (hlt : w.at_ + 64 * n < 2 ^ 58) : ∃ ks, s.performWrite w = (s.mendKeys ks).writeTier w.tier w.at_ w.data := by
  have hne : w.data.isEmpty = false := by
    rw [List.isEmpty_eq_false_iff]
    exact List.ne_nil_of_length_pos (by omega)
  have hwhole : ∀ k ∈ granKeys w.tier w.at_ w.data.length,
      (decide (w.at_ ≤ k % 2 ^ 58 * 64) && decide (k % 2 ^ 58 * 64 + 64 ≤ w.at_ + w.data.length)) = true := by
    intro k hk
    rw [granKeys, if_neg (by omega), List.mem_map] at hk
    obtain ⟨i, hi, rfl⟩ := hk
    rw [List.mem_range, hlen] at hi
    have hmod : (granKey w.tier w.at_ + i) % 2 ^ 58 = w.at_ / 64 + i := by
      unfold granKey
      omega
    rw [hmod, hlen, Bool.and_eq_true, decide_eq_true_iff, decide_eq_true_iff]
    omega
  have hbad : (granKeys w.tier w.at_ w.data.length).filter (fun k => s.badKey k &&
      !(decide (w.at_ ≤ k % 2 ^ 58 * 64) && decide (k % 2 ^ 58 * 64 + 64 ≤ w.at_ + w.data.length))) = [] := by
    rw [List.filter_eq_nil_iff]
    intro k hk
    rw [hwhole k hk, Bool.not_true, Bool.and_false]
    decide
  refine ⟨granKeys w.tier w.at_ w.data.length, ?_⟩
  unfold State.performWrite
  rw [if_neg (by simp [hne])]
  simp only [hbad, List.filter_eq_self.mpr hwhole, List.filter_nil, List.foldl_nil, List.isEmpty_nil, if_true]

theorem State.onlyChanges_mended (s : State) (ks : List Nat) {tier : Nat} (htier : tier < 2) (a : Nat) (d : Bytes) :
    s.onlyChanges ((s.mendKeys ks).writeTier tier a d) [.near, .tray, .flt] := by
  unfold State.writeTier
  split
  · simp [State.onlyChanges_iff, State.mendKeys]
  · rw [if_pos (show tier = tierTRAY by simp only [tierNEAR, tierTRAY] at *; omega)]
    simp [State.onlyChanges_iff, State.mendKeys]

/-- A location's byte address is a unit's, within its tier. -/
theorem locByte_bound (tier loc : Nat) : locByte tier loc % unitBytes = 0 ∧ locByte tier loc < 2 ^ 52 := by
  unfold locByte bits unitBytes
  split <;> constructor <;> omega

/-- A set's area begins where its extent lies. -/
theorem CkpSet.at_area {z : CkpSet} {e : Extent} (h : z.areaOk e = true) (o : Nat) : e.at_ (z.own.area + o) = locByte e.tier e.loc + o := by
  have hlo : e.lo = z.own.area := by
    unfold CkpSet.areaOk at h
    simp only [Bool.and_eq_true, beq_iff_eq] at h
    obtain ⟨⟨-, hlo⟩, -⟩ := h
    exact hlo
  unfold Extent.at_
  rw [← hlo]
  unfold Extent.lo
  omega

/-- The two headers of a set's area zeroed. -/
theorem State.performAll_headers {s : State} {z : CkpSet} {j : Nat} {e : Extent} (hext : s.extAt z.own.area = some (j, e)) (harea : z.areaOk e = true)
    (htier : e.tier < 2) {t : State} (ht : t = s.performAll (s.areaWrite z 0 (List.replicate 192 0) ++ s.areaWrite z 256 (List.replicate 192 0))) :
    s.onlyChanges t [.near, .tray, .flt] ∧ ∀ b, b < 192 → t.readTier e.tier (e.at_ z.own.area + b) 1 = [0] ∧
      t.readTier e.tier (e.at_ (z.own.area + 256) + b) 1 = [0] := by
  have hfirst : e.at_ z.own.area = locByte e.tier e.loc := z.at_area harea 0
  have hplace := z.at_area harea
  obtain ⟨halign, hlt⟩ := locByte_bound e.tier e.loc
  generalize hbase : locByte e.tier e.loc = base at hfirst hplace halign hlt
  unfold unitBytes at halign
  obtain ⟨ks, hks⟩ := s.performWrite_whole (w := ⟨e.tier, base, List.replicate 192 0⟩) (n := 3) (by decide) List.length_replicate
    (show base % 64 = 0 by omega) (show base + 192 < 2 ^ 58 by omega)
  obtain ⟨u, hu⟩ : ∃ u, u = (s.mendKeys ks).writeTier e.tier base (List.replicate 192 0) := ⟨_, rfl⟩
  obtain ⟨ls, hls⟩ := u.performWrite_whole (w := ⟨e.tier, base + 256, List.replicate 192 0⟩) (n := 3) (by decide) List.length_replicate
    (show (base + 256) % 64 = 0 by omega) (show base + 256 + 192 < 2 ^ 58 by omega)
  have hform : t = (u.mendKeys ls).writeTier e.tier (base + 256) (List.replicate 192 0) := by
    rw [ht, State.areaWrite_of_ext hext, State.areaWrite_of_ext hext, Nat.add_zero, hfirst, hplace]
    show (s.performWrite ⟨e.tier, base, List.replicate 192 0⟩).performWrite ⟨e.tier, base + 256, List.replicate 192 0⟩ = _
    rw [hks, ← hu, hls]
  have hcells : t.tierCells e.tier = memWrite (memWrite (s.tierCells e.tier) base (List.replicate 192 0)) (base + 256) (List.replicate 192 0) := by
    have hmend : ∀ (v : State) (ks : List Nat), (v.mendKeys ks).tierCells e.tier = v.tierCells e.tier := fun _ _ => rfl
    rw [hform, State.tierCells_writeTier, hmend, hu, State.tierCells_writeTier, hmend]
  have habsent : ∀ a, base ≤ a ∧ a < base + 192 ∨ base + 256 ≤ a ∧ a < base + 448 → t.readTier e.tier a 1 = [0] := by
    intro a ha
    rw [State.readTier_eq, hcells]
    refine memRead_one_of_absent fun c hc => ?_
    rw [mem_memWrite_zeros, mem_memWrite_zeros] at hc
    omega
  refine ⟨?_, fun b hb => ?_⟩
  · rw [hform]
    refine State.onlyChanges_trans ?_ (u.onlyChanges_mended ls htier _ _)
    rw [hu]
    exact s.onlyChanges_mended ks htier _ _
  · rw [hfirst, hplace]
    exact ⟨habsent _ (by omega), habsent _ (by omega)⟩

/-- What a change of the set table leaves: the number of sets shown and the operation's end. -/
theorem State.setsNoted_effect (s : State) {u : State} (hu : u = (s.wr Reg.CKP_STAT_SETS s.ckp.sets.length).ckpSetEnd stOK) :
    u.rd Reg.CKP_SET_STATUS_STATUS = stOK ∧ s.onlyChanges u [.regs] ∧
    s.regsKeptBut u [Reg.CKP_SET_STATUS_STATUS.key 0 0, Reg.CKP_SET_STATUS_DONE.key 0 0, Reg.CKP_STAT_SETS.key 0 0] := by
  obtain ⟨hstatus, -, hframe, hkept⟩ := (s.wr Reg.CKP_STAT_SETS s.ckp.sets.length).ckpSetEnd_effect (st := stOK) (by decide)
  rw [hu]
  exact ⟨hstatus, State.onlyChanges_trans (s.onlyChanges_wr _ _ _ _ (by decide)) hframe,
    State.regsKept_trans (s.regsKept_wr _ _ _ _ (by simp)) (State.regsKept_mono hkept (by simp))⟩

/-- REGISTER of an index that holds a set is refused. -/
theorem State.ckpSetRegister_taken {s : State} {z : CkpSet} (h : s.ckpSet (s.rd Reg.CKP_SET_INDEX_SET) = some z) :
    s.ckpSetRegister = s.ckpSetEnd stRETRY := if_pos (by rw [h]; rfl)

section
variable {s : State} {i j : Nat} {z : CkpSet} {e : Extent} (hi : i = s.rd Reg.CKP_SET_INDEX_SET) (hz : z = s.ckpSetArgs) (hnew : s.ckpSet i = none)
  (hshape : z.members = 1 ∧ z.parity = false ∨ z.members = 10 ∧ z.parity = true) (hself : z.self < z.members)
  (hhomes : hasRepeat ((z.mem.take z.members).map (·.home)) = false) (hhome : z.own.home = s.rd Reg.POOL_HOME_HOME)
  (hext : s.extAt z.own.area = some (j, e)) (harea : z.areaOk e = true) (halive : s.deadAt e.tier (locByte e.tier e.loc) = false)
include hi hz hnew hshape hself hhomes hhome hext harea halive

/-- REGISTER of a set that passes its checks zeroes its headers and lists it. -/
theorem State.ckpSetRegister_ok {u v : State}
    (hu : u = s.performAll (s.areaWrite z 0 (List.replicate 192 0) ++ s.areaWrite z 256 (List.replicate 192 0)))
    (hv : v = u.upCkp fun b => { b with sets := Tab.put b.sets i { z with mem := z.mem.take z.members } }) :
    s.ckpSetRegister = (v.wr Reg.CKP_STAT_SETS v.ckp.sets.length).ckpSetEnd stOK := by
  have hok : (!((z.members == 1 && !z.parity) || (z.members == 10 && z.parity)) || decide (z.members ≤ z.self) ||
      hasRepeat ((z.mem.take z.members).map (·.home)) || z.own.home != s.rd Reg.POOL_HOME_HOME) = false := by
    rw [hhomes, hhome, decide_eq_false (by omega)]
    rcases hshape with ⟨hm, hp⟩ | ⟨hm, hp⟩ <;> simp [hm, hp]
  subst hv hu
  unfold State.ckpSetRegister
  rw [← hi, ← hz]
  refine (if_neg (by rw [hnew]; decide)).trans ((if_neg (by rw [hok]; decide)).trans ?_)
  rw [hext]
  refine (if_neg (by rw [harea]; decide)).trans ((if_neg (by rw [halive]; decide)).trans rfl)

theorem State.ckpSetRegister_effect (htier : e.tier < 2) {t : State} (ht : t = s.ckpSetRegister) :
    t.ckpSet i = some { z with mem := z.mem.take z.members } ∧ (∀ k, k ≠ i → t.ckpSet k = s.ckpSet k) ∧
    (∀ b, b < 192 → t.readTier e.tier (e.at_ z.own.area + b) 1 = [0] ∧ t.readTier e.tier (e.at_ (z.own.area + 256) + b) 1 = [0]) ∧
    t.rd Reg.CKP_SET_STATUS_STATUS = stOK ∧ s.onlyChanges t [.regs, .near, .tray, .flt, .ckp] ∧
    s.regsKeptBut t [Reg.CKP_SET_STATUS_STATUS.key 0 0, Reg.CKP_SET_STATUS_DONE.key 0 0, Reg.CKP_STAT_SETS.key 0 0] := by
  obtain ⟨u, hu⟩ : ∃ u, u = s.performAll (s.areaWrite z 0 (List.replicate 192 0) ++ s.areaWrite z 256 (List.replicate 192 0)) := ⟨_, rfl⟩
  obtain ⟨hwritten, hzeros⟩ := State.performAll_headers hext harea htier hu
  obtain ⟨v, hv⟩ : ∃ v, v = u.upCkp fun b => { b with sets := Tab.put b.sets i { z with mem := z.mem.take z.members } } := ⟨_, rfl⟩
  have hlisted : u.onlyChanges v [.ckp] := by
    rw [hv]
    simp [State.onlyChanges_iff]
  have hsets : v.ckp.sets = Tab.put s.ckp.sets i { z with mem := z.mem.take z.members } := by
    rw [hv]
    exact congrArg (fun b : CkpState => Tab.put b.sets i _) (hwritten .ckp (by decide))
  obtain ⟨hstatus, hnoted, hkept⟩ := v.setsNoted_effect (ht.trans (State.ckpSetRegister_ok hi hz hnew hshape hself hhomes hhome hext harea halive hu hv))
  have htab : ∀ k, t.ckpSet k = Tab.find? (Tab.put s.ckp.sets i { z with mem := z.mem.take z.members }) k := fun k => by
    rw [← hsets]
    exact congrArg (fun b : CkpState => Tab.find? b.sets k) (hnoted .ckp (by decide))
  have hsame : u.onlyChanges t [.regs, .ckp] := (State.onlyChanges_mono hlisted (by decide)).andThen hnoted
  refine ⟨(htab i).trans (Tab.find?_put_self _ _ _), fun k hk => (htab k).trans (Tab.find?_put_ne _ _ hk), fun b hb => ?_, hstatus,
    (State.onlyChanges_mono hwritten (by decide)).andThen hsame, ?_⟩
  · rw [State.readTier_congr (hsame .near (by decide)) (hsame .tray (by decide)) (hsame .host (by decide)),
      State.readTier_congr (hsame .near (by decide)) (hsame .tray (by decide)) (hsame .host (by decide))]
    exact hzeros b hb
  · exact State.regsKept_trans (State.regsKept_of_regs ((hlisted .regs (by decide)).trans (hwritten .regs (by decide))) _) hkept

end

/-- Whether a command of the engine uses a set. -/
def State.setUsed (s : State) (i : Nat) : Bool := s.cmd.cmds.any fun c => isCkp c.2.opcode && c.2.src == 0 && c.2.ckpSetNo == i

theorem State.ckpSetUnregister_used {s : State} (h : s.setUsed (s.rd Reg.CKP_SET_INDEX_SET) = true) : s.ckpSetUnregister = s.ckpSetEnd stRETRY :=
  if_pos h

/-- UNREGISTER of a set that no command uses takes it out. -/
theorem State.ckpSetUnregister_effect {s : State} {i : Nat} (hi : i = s.rd Reg.CKP_SET_INDEX_SET) (h : s.setUsed i = false) {t : State}
    (ht : t = s.ckpSetUnregister) : t.ckpSet i = none ∧ (∀ k, k ≠ i → t.ckpSet k = s.ckpSet k) ∧ t.rd Reg.CKP_SET_STATUS_STATUS = stOK ∧
    s.onlyChanges t [.regs, .ckp] := by
  obtain ⟨u, hu⟩ : ∃ u, u = s.upCkp fun b => { b with sets := Tab.del b.sets i } := ⟨_, rfl⟩
  have hform : s.ckpSetUnregister = (u.wr Reg.CKP_STAT_SETS u.ckp.sets.length).ckpSetEnd stOK := by
    rw [hu]
    unfold State.ckpSetUnregister
    rw [← hi]
    exact if_neg (by unfold State.setUsed at h; rw [h]; decide)
  have hframe : s.onlyChanges u [.ckp] := by
    rw [hu]
    simp [State.onlyChanges_iff]
  obtain ⟨hstatus, hnoted, -⟩ := u.setsNoted_effect (ht.trans hform)
  have htab : ∀ k, t.ckpSet k = Tab.find? (Tab.del s.ckp.sets i) k := fun k => by
    rw [State.ckpSet, hnoted .ckp (by decide), hu]
    rfl
  exact ⟨(htab i).trans (Tab.find?_del_self _ _), fun k hk => (htab k).trans (Tab.find?_del_ne _ hk), hstatus,
    (State.onlyChanges_mono hframe (by decide)).andThen hnoted⟩

/-! The operations from their window. -/

/-- The operation's code is written before the operation acts; what a set operation reads is not the code. -/
theorem State.ckpSetArgs_wr_opCode (s : State) (v : Nat) : (s.wr Reg.CKP_SET_OP_CODE v).ckpSetArgs = s.ckpSetArgs := by
  unfold State.ckpSetArgs State.on
  simp (disch := decide) only [State.rd_wr_separate]

theorem State.index_wr_opCode (s : State) (v : Nat) : (s.wr Reg.CKP_SET_OP_CODE v).rd Reg.CKP_SET_INDEX_SET = s.rd Reg.CKP_SET_INDEX_SET :=
  s.rd_wr_separate _ _ _ _ (by decide) _ _

/-- A set operation acts once its window admits it. -/
theorem exec_ckpSet_ops {s : State} {a : Access} (h : s.admitsWrite a 0x1800104 = true) :
    exec (.ckpSetRead a) s = .next (s.wr Reg.CKP_SET_OP_CODE 1).ckpSetRead ∧
    exec (.ckpSetRegister a) s = .next (s.wr Reg.CKP_SET_OP_CODE 2).ckpSetRegister ∧
    exec (.ckpSetUnregister a) s = .next (s.wr Reg.CKP_SET_OP_CODE 3).ckpSetUnregister :=
  ⟨congrArg Host.Outcome.next (State.window_admitted h _), congrArg Host.Outcome.next (State.window_admitted h _),
    congrArg Host.Outcome.next (State.window_admitted h _)⟩

/-! The obligation. -/

/-- Settles O35: each chunk's state after its command's step, the marker's commit, the polls of a waiting command, and the set table's operations. -/
theorem checkpointsEncodeCommitAndVerify : Obligations.CheckpointsEncodeCommitAndVerify := by
  unfold Obligations.CheckpointsEncodeCommitAndVerify
  refine fun s => ⟨fun cid k c x z hz hfails => ⟨fun h => ?_, ?_, fun hd h hgood hhd => ⟨fun hst => ?_, ?_⟩,
    fun h => ⟨fun hpolled hwait halone hgood => ?_, fun st y hpolled hk hst hall hy => ?_, fun hd ws hpolled hk hgood hhd hws => ?_⟩,
    fun h hpolled => ⟨_, exec_ckpCommit hz hfails h hpolled, h.stagedAs id⟩, fun op o en last bs e hop h hstart hlast hwalk hen => ⟨fun b he => ?_,
      fun p f he => ⟨?_, ?_⟩⟩,
    fun h hpolled => ⟨fun hk hp hq hu => ⟨_, exec_ckpRebuild_none hz hfails h hpolled hk hp hq hu, h.stagedAs id⟩, fun us off hk hus hall hoff => ?_,
      fun hk => ?_⟩⟩,
    fun cid c x z v hc hf hx hsrc hstaged hop hz halone hv htier hdata hgood hwf => ?_, fun cid c z t0 hc hckp hpolled hwait hz hjudge =>
      ⟨exec_ckpHeaderPoll_late hc hckp hpolled hwait hz hjudge, exec_ckpHeaderPoll_due hc hckp hpolled hwait hz hjudge,
        exec_ckpHeaderPoll_early hc hckp hpolled hwait hz hjudge⟩, fun a i ha hi => ?_⟩
  · obtain ⟨hstate, hepoch, hunits, hstripes, hraw, hblocks⟩ := hd_headerBytes ckOPEN z.self c.epoch 0 0 0 0 0 [] (List.replicate 64 0)
    refine ⟨_, headerBytes ckOPEN z.self c.epoch 0 0 0 0 0 [] ++ List.replicate 64 0, exec_ckpOpen hz hfails h, h.stagedAs _, ?_, hstate, hepoch, hunits,
      hstripes, hraw, hblocks, ?_⟩
    · rw [List.length_append, length_headerBytes, List.length_replicate]
    · rw [hdMark, fld_append_of_length _ _ (length_headerBytes _ _ _ _ _ _ _ _ _)]
      rfl
  · intro w v n ps vs h hw hv hn hps hgood hvs
    refine ⟨_, _, _, exec_ckpEncode hz hfails h hw hv hn hps hgood hvs rfl, h.stagedAs _, by simp, fun j hj => ?_⟩
    rw [List.map_map, List.getElem?_map, List.getElem?_range hj]
    rfl
  · exact ⟨_, (exec_ckpSeal hz hfails h hgood hhd).trans (congrArg _ (if_pos hst)), h.stagedAs id⟩
  · rintro cur us ws hst rfl rfl rfl
    exact ⟨_, (exec_ckpSeal hz hfails h hgood hhd).trans (congrArg _ (if_neg hst)), h.stagedAs _⟩
  · exact ⟨_, exec_ckpParity_begin hz h hpolled hwait hgood, State.pollRound_alone h.entry.1 hwait halone⟩
  · obtain ⟨hc, hx, htest⟩ := h.entry
    exact ⟨_, exec_ckpParity_unit hz hfails h hpolled hk hst hall hy, State.stage_forgetPeers_effect hc hx htest _ _ _⟩
  · subst hws
    exact ⟨_, exec_ckpParity_header hz hfails h hpolled hk hgood hhd, h.stagedAs _⟩
  · refine ⟨_, (exec_walk hop hen s).trans (congrArg _ (State.walkChunk_bad hz h hstart hlast hwalk he)), ?_⟩
    obtain ⟨hcmd, hcount, hframe⟩ := State.upCkpWork_bump_effect h.entry.1 (fun r => { r with firstBad := some b }) (g := Reg.CKP_CNT_CRC_FAIL) (by decide)
    exact ⟨by rw [hcmd]; rfl, hcount, hframe⟩
  · rintro rfl
    refine ⟨_, (exec_walk hop hen s).trans (congrArg _ (State.walkChunk_good hz h hstart hlast hwalk hfails he)), ?_⟩
    rw [← Chunk.walked_verify x c bs p f]
    exact h.stagedAs fun x => x.walked c 0x37 bs p f
  · rintro us ws rfl hus hfit rfl
    refine ⟨_, (exec_walk hop hen s).trans (congrArg _ (State.walkChunk_good hz h hstart hlast hwalk hfails he)), ?_⟩
    rw [← Chunk.walked_decode x c hus hfit p f]
    exact h.stagedAs fun x => x.walked c 0x35 bs p f
  · obtain ⟨hc, hx, htest⟩ := h.entry
    exact ⟨_, _, exec_ckpRebuild_unit hz hfails h hpolled hk hus hall hoff, rfl, State.stage_forgetPeers_effect hc hx htest _ _ _⟩
  · obtain ⟨hstate, hepoch, hunits, hstripes, -⟩ :=
      hd_headerBytes ckPARITY_DONE z.self c.epoch (c.ckp.units.getD z.self 0) c.ckp.stripes 0 0 1 c.ckp.units []
    rw [List.append_nil] at hstate hepoch hunits hstripes
    exact ⟨_, _, exec_ckpRebuild_header hz hfails h hpolled hk, h.stagedAs _, length_headerBytes _ _ _ _ _ _ _ _ _, hstate, hepoch, hstripes, hunits⟩
  · have hlen : v.data.length = 64 := by
      rw [hdata]
      exact length_padTo _ _
    exact exec_chunkCommit_marker hc hf hx hsrc hstaged hop hz halone hv htier hlen hgood hwf
  · obtain ⟨hread, hregister, hunregister⟩ := exec_ckpSet_ops ha
    have hcode : ∀ v, s.onlyChanges (s.wr Reg.CKP_SET_OP_CODE v) [.regs] := fun v => s.onlyChanges_wr _ _ _ _ (by decide)
    have hidx : ∀ v, i = (s.wr Reg.CKP_SET_OP_CODE v).rd Reg.CKP_SET_INDEX_SET := fun v => hi.trans (s.index_wr_opCode v).symm
    refine ⟨fun z hz => ?_, fun hnone => ?_, fun z hz => ?_, fun z j e hnew hz hshape hself hhomes hhome hext harea htier halive => ?_, fun hused => ?_,
      fun hfree => ?_⟩
    · obtain ⟨hvalid, hfen, hunits, hd, hst0, hst1, hstatus, hdone, hframe⟩ := State.shown_effect _ z true _ _ _
        (State.ckpSetRead_some (s := s.wr Reg.CKP_SET_OP_CODE 1) ((congrArg s.ckpSet (hidx 1).symm).trans hz))
      rw [State.ckpD_congr (hcode 1)] at hd
      rw [State.ckpHeader_congr (hcode 1)] at hst0 hst1
      exact ⟨_, hread, hvalid, hfen, hunits, hd, hst0, hst1, hstatus, hdone, State.onlyChanges_trans (hcode 1) hframe⟩
    · obtain ⟨hvalid, -, -, -, -, -, hstatus, -, hframe⟩ := State.shown_effect _ { members := 0 } false _ _ _
        (State.ckpSetRead_none (s := s.wr Reg.CKP_SET_OP_CODE 1) ((congrArg s.ckpSet (hidx 1).symm).trans hnone))
      exact ⟨_, hread, hvalid, hstatus, State.onlyChanges_trans (hcode 1) hframe⟩
    · obtain ⟨hstatus, hdone, hframe, -⟩ := (s.wr Reg.CKP_SET_OP_CODE 2).ckpSetEnd_effect (st := stRETRY) (by decide)
      rw [State.ckpSetRegister_taken (s := s.wr Reg.CKP_SET_OP_CODE 2) ((congrArg s.ckpSet (hidx 2).symm).trans hz)] at hregister
      exact ⟨_, hregister, hstatus, hdone, State.onlyChanges_trans (hcode 2) hframe⟩
    · obtain ⟨hlisted, hothers, hzeros, hstatus, hframe, hkept⟩ := State.ckpSetRegister_effect (s := s.wr Reg.CKP_SET_OP_CODE 2) (hidx 2)
        (hz.trans (s.ckpSetArgs_wr_opCode 2).symm) hnew hshape hself hhomes (hhome.trans (s.rd_wr_separate _ _ _ _ (by decide) _ _).symm) hext harea
        halive htier rfl
      exact ⟨_, hregister, hlisted, hothers, hzeros, hstatus, State.onlyChanges_trans (State.onlyChanges_mono (hcode 2) (by decide)) hframe,
        State.regsKept_trans (s.regsKept_wr _ _ _ _ (by simp)) (State.regsKept_mono hkept (by simp))⟩
    · obtain ⟨hstatus, -, hframe, -⟩ := (s.wr Reg.CKP_SET_OP_CODE 3).ckpSetEnd_effect (st := stRETRY) (by decide)
      rw [State.ckpSetUnregister_used (s := s.wr Reg.CKP_SET_OP_CODE 3) ((congrArg s.setUsed (hidx 3).symm).trans hused)] at hunregister
      exact ⟨_, hunregister, hstatus, State.onlyChanges_trans (hcode 3) hframe⟩
    · obtain ⟨hgone, hothers, hstatus, hframe⟩ := State.ckpSetUnregister_effect (s := s.wr Reg.CKP_SET_OP_CODE 3) (hidx 3) hfree rfl
      exact ⟨_, hunregister, hgone, hothers, hstatus, State.onlyChanges_trans (State.onlyChanges_mono (hcode 3) (by decide)) hframe⟩

end Sys2Proof.Machine
end
